-- ==== Sys2Proof/Word.lean ====
section
/-!
DEFINITION. The word types of the NX9616: a control-space register and a Limtin register are 64 bits wide, memories are
byte-addressed.
-/

namespace Sys2Proof

/-- A 64-bit register or Limtin word (R22, R406). -/
abbrev Word := BitVec 64

/-- One byte of a memory, a packet or a message. -/
abbrev Byte := BitVec 8

end Sys2Proof
end

