-- ==== Sys2Proof/Syntax.lean ====
section
/-!
DEFINITION. The commands of the NX9616 and the items they carry.  One constructor of `Instr` per row of the command
table; its operands are what comes from outside the block (received symbols, words and bytes, the unit, plane, port or
channel concerned, the value written), never what the block itself holds.
-/

namespace Sys2Proof

/-- A medium plane, 0 to 23 (R30). -/
abbrev Plane := Fin 24

/-- A client port, 0 to 95. -/
abbrev Port := Fin 96

/-- A full stamp (R206): seconds, nanoseconds, fraction in 2^-16 ns, source id. -/
structure Stamp where
  sec : Nat
  ns : Nat
  frac : Nat
  src : Nat
  deriving DecidableEq, Repr

/-- A message (R74) with the plane, FRAME and arrival stamp under which it was received, and whether it came as a parcel (R579). -/
structure Msg where
  env : BitVec 64
  body : List Byte
  plane : Nat
  frame : Nat
  stamp : Stamp
  parcel : Bool := false
  deriving DecidableEq, Repr

/-- What the detector measured in a CDR lock window of 1.024 µs (R54): the offset in ppm and the cycle slips. -/
structure CdrWindow where
  offsetPpm : Nat
  slips : Nat
  deriving DecidableEq, Repr

/-- A step's direction along the packet path: toward the medium or toward the clients. -/
inductive Dir where
  | up | dn
  deriving DecidableEq, Repr

/-- A packet and what travels with it: bytes without FCS; the direction of its pipe and pool (R263); ingress channel
(R17); medium flow (the parcel's downstream, the action's upstream); ingress stamp; R-TAG or parcel sequence number;
injected by the host or the control plane; stamp action (R212) and to whom a departure record goes (0: nobody, n from 1 to 512:
DMA channel n - 1 with TAG `tag`, 1024 + n: clause node n); edition tag, profile, punt reason; queue, class and final colour (R239);
ingress priority (R308); whether FCS or MACsec failed behind classification (R300). -/
structure Pkt where
  bytes : List Byte
  dir : Dir
  chan : Nat
  flow : Nat := 0
  stamp : Stamp
  seq : Option Nat := none
  inject : Bool := false
  act : Nat := 0
  ret : Nat := 0
  tag : Nat := 0
  edition : Nat := 0
  profile : Nat := 0
  reason : Option Nat := none
  check : Nat := 0
  queue : Nat := 0
  cls : Nat := 0
  colour : Nat := 0
  pri : Nat := 0
  bad : Bool := false
  id : Nat := 0
  deriving DecidableEq, Repr

/-- What a client port receives (R299): the frame from destination address to FCS as it arrived, and whether
the PCS or the FEC found an error. -/
structure ClientFrame where
  bytes : List Byte
  pcsError : Bool
  deriving DecidableEq, Repr

/-- One frame that an SDH lane receives (R325, R341), as it arrives: nine rows of 270 bytes for each n of STM-n, scrambled. A byte that is
not given is zero. -/
structure SdhFrame where
  rows : List (List Byte)
  deriving DecidableEq, Repr

/-- A requester of an HBM channel (R272). -/
inductive HbmReq where
  | upWr | upRd | dnWr | dnRd | circ | lim
  deriving DecidableEq, Repr

/-- A Limtin core, 0 to 63 (R374). -/
abbrev CoreId := Fin 64

/-- A hardware context of a core (R374). -/
abbrev CtxId := Fin 4

/-- A general register's number (R406). -/
abbrev GReg := BitVec 5

/-- Who makes a control-space access (R25): a Limtin program (a command block too) on a context of a core, a function of the host through
its BARs, or Preura. -/
inductive Agent where
  | program (core : CoreId) (ctx : CtxId)
  | host (func : Fin 64)
  | preura
  deriving DecidableEq, Repr

/-- What the host side gives a descriptor's transfer (R446, R447, R450): bytes read from host memory, the data of a lookaside request
(AAD, input, expected tag), the status met (0, or READ_ERROR 1, WRITE_ERROR 2), bytes moved before an error or by the
end of a drain, a bus error of the lookaside data, whether the writeback, or the record, cannot be written, and whether the bus error is
poisoned data. [DESIGN CHOICE, log entry 8] -/
structure Transfer where
  data : List Byte
  aad : List Byte
  text : List Byte
  tag : BitVec 128
  status : Nat
  moved : Nat
  busError : Bool
  wbFail : Bool
  ringFail : Bool
  poisoned : Bool := false
  deriving DecidableEq, Repr

/-- The one item that an uncorrected error of class U strikes (R511, R516), by where it lies: a packet of a pipe (waiting for
classification, or classified), of a queue, of an egress buffer; the burst under build of a plane; a parcel in the cipher unit for
the DFP, or held by the resequencer; a container queued or held for playout; a cipher request; a key slot. `pos` counts from the oldest. -/
inductive FaultItem where
  | none
  | piped (dir : Dir) (pipe : Fin 8) (classified : Bool) (pos : Nat)
  | queued (q : Fin 16384) (pos : Nat)
  | egress (k : Port) (pos : Nat)
  | burst (p : Plane)
  | opening (pos : Nat)
  | held (flow : Fin 1048576) (pos : Nat)
  | container (queued : Bool) (circuit : Fin 8192) (pos : Nat)
  | request (num : Nat)
  | keySlot (n : Fin 4096)
  deriving DecidableEq, Repr

/-- Why the sentinel trips without a KICK (R501). -/
inductive TripCause where
  | timeout
  | lockup
  | sram
  deriving DecidableEq, Repr

/-- The commands, in the order of the command table. -/
inductive Instr where
  /-- REG_WRITE (R13). A write to a control-space register with no behaviour of its own sets the value, which takes effect for items that start after the write. -/
  | regWrite (src : Agent) (a : BitVec 40) (v : Word)
  /-- RC_READ (R7). A read of an RC field by a program or by the host through its BARs returns the value and clears the field, keeping any event recorded in the same cycle. -/
  | rcRead (src : Agent) (a : BitVec 40)
  /-- INSP_READ (R438). A read of GATE.INSP_DATA returns the register at INSP_ADDR without changing state, advances ADDR when AUTOINC is set and records any R24 error. -/
  | inspRead
  /-- INSP_WRITE (R438). A write to GATE.INSP_DATA is discarded and counted in INSP_WRITES. -/
  | inspWrite (v : Word)
  /-- CMD_DOORBELL (R439). A write of TAIL to GATE.CMD_IDX submits command blocks for fetching. -/
  | cmdDoorbell (v : Word)
  /-- CMD_FETCH (R439). GATE completes the fetch of a ring entry, its block header and its instructions into the command store, and HEAD advances. -/
  | cmdFetch (err poisoned : Bool) (entry : Word) (hdr : List Word) (code : List (BitVec 32))
  /-- CMD_CTL_WRITE (R440). A write to GATE.CMD_CTL or CMD_BASE enables, disables or restarts the ring and changes base or size only while EN was 0 and no fetch runs. -/
  | cmdCtlWrite (base : Bool) (v : Word)
  /-- CPL_RECORD_WRITE (R441). A waiting completion record is written to the completion ring once it has room, TAIL is written back and the CPL event is raised. -/
  | cplRecordWrite
  /-- CPL_HEAD_WRITE (R441). The host writes the completion ring HEAD to free records. -/
  | cplHeadWrite (v : Word)
  /-- PL_SET_AREA (R442). GATE.PL_CTL operation SET_AREA sets the HBM program area while no core has a loaded active bank. -/
  | plSetArea (v : Word)
  /-- PL_LOAD (R442). GATE.PL_CTL operation LOAD sets LSCH.IMG_ADDR and starts the loader while no core has a loaded active bank. -/
  | plLoad (v : Word)
  /-- CB_READY (R28). A command block becomes ready at its target line position, or at once when IMMEDIATE or late, and is dispatched or ends REFUSED with NO_SECTION. -/
  | cbReady (slot : Fin 256)
  /-- MED_LANE_CFG_WRITE (R60). A write to MED.LANE_CFG sets generation mode, inversion and LANE_EN, and is refused whole for mode or inversion changes on an ASSIGNED or ACTIVE plane. -/
  | medLaneCfgWrite (p : Plane) (v : Word)
  /-- MED_TEST_WRITE (R57). A write to MED.TEST sets loopback, test pattern and checker, and is refused whole with TEST_REFUSED outside DOWN and ACQUIRING. -/
  | medTestWrite (p : Plane) (v : Word)
  /-- HUNT_DWELL_EXPIRY (R32). The 1 ms hunt dwell ends and the receiver switches to the other rate unless the plane is in CONFIRM or in-frame. -/
  | huntDwellExpiry (p : Plane)
  /-- LOS_SET (R53). Signal absent continuously for LOS_SET × 100 ns asserts LOS and abandons frame alignment on the plane. -/
  | losSet (p : Plane) (msdPin : Bool) (millivolts : Nat)
  /-- LOS_CLEAR (R53). Signal present continuously for LOS_CLR × 1 µs clears LOS. -/
  | losClear (p : Plane) (msdPin : Bool) (millivolts : Nat)
  /-- CDR_WINDOW_END (R54). A 1.024 µs lock window ends and LOL is asserted on a bad window or cleared after 16 good ones. -/
  | cdrWindowEnd (p : Plane) (w : CdrWindow)
  /-- TXPLL_UNLOCK (R51). Loss of lock of the CK_MTX transmit PLL raises class D on MED_TXPLL, idles every transmit lane and abandons bursts. -/
  | txpllUnlock
  /-- TXPLL_RELOCK (R51). The transmit PLL regains lock and TXPLL_LOCK reads 1 while the 10 µs wait runs. -/
  | txpllRelock
  /-- TXPLL_RESUME (R51). The PLL has stayed locked for 10 µs and transmission resumes with the next burst wholly after that point. -/
  | txpllResume
  /-- CODEWORD_RX (R42). A codeword slot is received, destuffed and FEC-decoded, and handed on with its uncorrectable mark. The levels of slot 0
  come with the 256 of the delimiter before it, whose first symbol is the plane's own symbol `at_`. -/
  | codewordRx (p : Plane) (slot : Nat) (at_ : Nat) (levels : List Nat)
  /-- FRAME_ALIGN (R78). A delimiter and its header are judged at a candidate or expected position and the plane's alignment moves between SEARCH, CONFIRM and IN_FRAME. -/
  | frameAlign (p : Plane) (offset : Int)
  /-- GRANT_AREA (R84). The grant area of a good frame is checked, and own entries are accepted to the UBB and ward copy or the area is discarded. -/
  | grantArea (p : Plane)
  /-- MESSAGE_RX (R87). A parsed header-region message addressed to the terminal is routed to the time unit, ward, HINGE or the message slow-path queue, or skipped. -/
  | messageRx (p : Plane)
  /-- PARCEL_RX (R93). A parcel header is read, checked, looked up in the ownership table and submitted for decryption or given a disposition. -/
  | parcelRx (p : Plane)
  /-- PARCEL_OPEN_DONE (R98). A verified downstream parcel returns from CIPH and is routed by TYPE to the resequencer, reassembly, circuit engine or message queue. -/
  | parcelOpenDone (p : Plane)
  /-- RSQ_TIMER_EXPIRY (R100). At a 1 µs examination a flow's hold timer has reached TIMEOUT, so holes are counted RSQ_LOST and held parcels delivered. -/
  | rsqTimerExpiry (flow : Fin 1048576)
  /-- OWN_WRITE (R95). A write to DFP.OWN_WRITE stores one ownership entry in one step, or is discarded with OWN_LOST before OWN_READY. -/
  | ownWrite (v : Word)
  /-- OWN_PROBE (R111). A write of DFP.OWN_PROBE.INDEX loads ENTRY with the ownership entry at that index. -/
  | ownProbe (v : Word)
  /-- UNIT_TABLES_CLEARED (R581). A unit woken from OFF finishes clearing its tables and sets its ready bit. -/
  | unitTablesCleared (unit : Fin 256)
  /-- LP_FRAME_BOUNDARY (R199). The line position reaches LP(F, 0, 0), and medium time advances with any slew correction. -/
  | lpFrameBoundary
  /-- BURST_BUILD_START (R117). At launch minus BUILD_AHEAD the UBB takes the report snapshot, selects content from the scheduler and starts HBM reads and sealing. -/
  | burstBuildStart (p : Plane)
  /-- BURST_COMMIT (R136). At launch minus 2 µs the burst content is committed and incomplete parcels become idle parcels with BUILD_LATE. -/
  | burstCommit (p : Plane)
  /-- BURST_LAUNCH (R125). At the launch instant a committed burst is started with MBEN and training, or ends LATE, ABANDONED, WARD_HELD or FAULT. -/
  | burstLaunch (p : Plane)
  /-- BURST_END (R48). The last end-marker symbol leaves and MBEN is deasserted after its lag, or joined with the next burst. -/
  | burstEnd (p : Plane)
  /-- WARD_VIOLATION (R142). A request for MBEN outside every permit interval is cut within 2 ns, raises class D on WARD and sets RESTART_HOLD. -/
  | wardViolation (p : Plane) (overrun : Bool)
  /-- WARD_CODE_WRITE (R144). A program writes WARD.CODE and CODE_CHECK shows its CRC. -/
  | wardCodeWrite (v : Word)
  /-- FLOW_WRITE (R148). A write to UBB.FLOW_WRITE replaces a flow entry in one step, keeping NEXT_SEQ when KEEP_SEQ is 1. -/
  | flowWrite (v : Word)
  /-- FLOW_PROBE (R148). A write of UBB.FLOW_PROBE.INDEX loads the flow entry for reading. -/
  | flowProbe (v : Word)
  /-- ANCHOR (R201). An ANCHOR message is accepted or rejected by the time unit and forms an estimate of medium time. -/
  | anchor (m : Msg)
  /-- LOCKOUT (R145). A LOCKOUT with a matching code sets LOCKED and forces every MBEN inactive. -/
  | lockout (m : Msg)
  /-- LOCKOUT_PERMANENT (R145). A LOCKOUT_PERMANENT with a matching code sets PERMANENT and LOCKED. -/
  | lockoutPermanent (m : Msg)
  /-- RELEASE (R145). A RELEASE with a matching code clears LOCKED unless PERMANENT is set. -/
  | release (m : Msg)
  /-- LEAD (R474). A LEAD message for this pair sets the lead state at the next frame boundary, or is ignored and counted. -/
  | lead (m : Msg)
  /-- PROFILE (R158). At its application point a PROFILE message loads a UBB burst profile of its plane. -/
  | profile (m : Msg)
  /-- ASYMMETRY (R200). At its application point an ASYMMETRY message writes the plane's asymmetry coefficient to the time unit. -/
  | asymmetry (m : Msg)
  /-- ENROL_PARAMS (R171). At its application point ENROL_PARAMS moves an ALIGNED terminal to ANNOUNCING or updates the enrolment values. -/
  | enrolParams (m : Msg)
  /-- ID_ASSIGN (R173). At its application point an accepted ID_ASSIGN writes the TID, makes the plane ASSIGNED and moves the terminal to RANGING. -/
  | idAssign (m : Msg)
  /-- RANGE_RESULT (R176). At its application point a RANGE_RESULT sets both EQD copies and the RTD, making an ASSIGNED plane ACTIVE. -/
  | rangeResult (m : Msg)
  /-- EQD_ADJUST (R177). At its application point an EQD_ADJUST changes an ACTIVE plane's EQD by DELTA. -/
  | eqdAdjust (m : Msg)
  /-- PLANE_ASSIGN (R178). At its application point a PLANE_ASSIGN assigns named planes or replaces their report groups. -/
  | planeAssign (m : Msg)
  /-- PLANE_RELEASE (R178). At its application point a PLANE_RELEASE returns named ASSIGNED or ACTIVE planes to IN_FRAME. -/
  | planeRelease (m : Msg)
  /-- DEREGISTER (R184). At its application point a matching DEREGISTER drops the TID, releases planes and returns the terminal to ALIGNED. -/
  | deregister (m : Msg)
  /-- STATE_REQUEST (R169). At its application point a STATE_REQUEST queues one STATE_REPORT. -/
  | stateRequest (m : Msg)
  /-- LATE_APPLY (R159). A message whose application clause has not started by LP(M + 2, 0, 0) is not applied and is counted. -/
  | lateApply (m : Msg)
  /-- HOST_START (R163). The host's START command moves the terminal from INITIAL or host STOPPED to LISTENING and sets the lanes hunting. -/
  | hostStart
  /-- HOST_STOP (R163). The host's STOP command moves the terminal to STOPPED with PERMIT NONE and lanes disabled. -/
  | hostStop
  /-- PLANE_ALIGNED (R165). The base program observes a plane becoming aligned and moves the plane and terminal state machines. -/
  | planeAligned (p : Plane)
  /-- PLANE_ALIGN_LOST (R165). The base program observes a plane leaving alignment or becoming UNSUP, entering HOLDOVER or LISTENING where no plane remains. -/
  | planeAlignLost (p : Plane)
  /-- WARD_STATUS_CHANGE (R163). The base program observes a change of WARD.STATUS and moves the terminal to or from LOCKED_OUT or to STOPPED. -/
  | wardStatusChange
  /-- T_ALIGN_EXPIRY (R163). T_ALIGN expires in LISTENING and every enabled lane is reinitialised. -/
  | tAlignExpiry
  /-- T_ENROL_EXPIRY (R163). T_ENROL expires in ANNOUNCING and the terminal returns to ALIGNED. -/
  | tEnrolExpiry
  /-- T_RANGE_EXPIRY (R165). T_RANGE expires on an ASSIGNED plane, which returns to IN_FRAME. -/
  | tRangeExpiry (p : Plane)
  /-- T_HOLD_EXPIRY (R186). T_HOLD expires in HOLDOVER, dropping the TID and every plane and entering LISTENING. -/
  | tHoldExpiry
  /-- PLANE_T_HOLD_EXPIRY (R165). A plane's T_HOLD expires while it is ASSIGNED or ACTIVE and unaligned, and it falls to ACQUIRING. -/
  | planeTHoldExpiry (p : Plane)
  /-- ANNOUNCE_BACKOFF (R171). The backoff wait ends at LP(a + r, 0, 0) and an ANNOUNCE marked ENROL is queued. -/
  | announceBackoff
  /-- NO_ANSWER (R171). The answer wait ends with no ID_ASSIGN accepted, so the backoff exponent grows. -/
  | noAnswer
  /-- T_ANCHOR_EXPIRY (R203). T_ANCHOR expires without a new anchor and the time status becomes AGED. -/
  | tAnchorExpiry
  /-- FLYWHEEL_EXPIRY (R196). No plane has aligned by LP(F + 8, 0, 0), so LP_VALID is cleared, the counter stops and line-position pulse outputs are disarmed. -/
  | flywheelExpiry
  /-- TPO_ARM (R216). A write of ARMED arms a pulse output with its start and period, setting LATE or REFUSED. -/
  | tpoArm (i : Fin 8) (v : Word)
  /-- TPO_EDGE (R215). A pulse output's edge falls due and is emitted, skipped or counted in MISSED. -/
  | tpoEdge (i : Fin 8)
  /-- TCI_EDGE (R218). A selected edge on a capture input is stamped into its queue or counted in OVERFLOW. -/
  | tciEdge (j : Fin 5) (rising : Bool)
  /-- TCI_LO_READ (R218). A program's read of TCI_LO returns the oldest stamp and removes it from the queue. -/
  | tciLoRead (j : Fin 5)
  /-- SNAP_TAKE (R221). A write of TAKE captures the line position and medium time into the SNAP registers. -/
  | snapTake (v : Word)
  /-- PACKET_CLASSIFY (R238). A packet enters classification and is selected, parsed, looked up, pattern-matched and metered to its action. -/
  | packetClassify (dir : Dir) (pipe : Fin 8)
  /-- CLS_READ (R252). CLS.CMD operation READ reads a table entry with its counter into the data window. -/
  | clsRead (v : Word)
  /-- CLS_WRITE (R253). CLS.CMD operation WRITE writes a table entry, in the staging edition in EDITION mode. -/
  | clsWrite (v : Word)
  /-- CLS_DELETE (R253). CLS.CMD operation DELETE invalidates a table entry or removes it from the staging edition. -/
  | clsDelete (v : Word)
  /-- CLS_FIND (R252). CLS.CMD operation FIND returns the index of the flow row with a given profile and key. -/
  | clsFind (v : Word)
  /-- CLS_CMD_DONE (R252). A CLS table command completes and STATUS leaves BUSY. -/
  | clsCmdDone
  /-- ED_OPEN (R250). CLS.ED_CTL operation OPEN opens a staging edition and starts the copy sweep. -/
  | edOpen
  /-- ED_COMMIT (R250). CLS.ED_CTL operation COMMIT makes the staging edition current, or is refused with its cause. -/
  | edCommit
  /-- ED_ABANDON (R250). CLS.ED_CTL operation ABANDON discards the staging edition. -/
  | edAbandon
  /-- SWEEP_DONE (R250). The edition copy sweep ends and waiting commands proceed. -/
  | sweepDone
  /-- EDITION_RETIRE (R251). The older edition retires once no packet tagged with it remains in classification. -/
  | editionRetire
  /-- TABLE_MODE_WRITE (R254). A write to CLS.TABLE_MODE changes table modes with a sweep, or is refused as MODE. -/
  | tableModeWrite (v : Word)
  /-- PACKET_ADMIT (R267). A packet whose last byte is buffered and whose classification is complete is admitted to its queue or dropped with a cause. -/
  | packetAdmit (dir : Dir) (pipe : Fin 8)
  /-- UP_HBM_WRITE_DONE (R265). An upstream packet's last cell is written to HBM, it joins its queue and its on-die cells are freed. -/
  | upHbmWriteDone (q : Fin 16384)
  /-- SPILL_READ_DONE (R266). The read-back of a spilled packet completes and its queue head becomes eligible. -/
  | spillReadDone (q : Fin 16384)
  /-- HBM_TRANSFER (R273). An HBM channel transfer reaches its last beat and the arbiter picks the next winner, rotating ranks and giving turn hints. -/
  | hbmTransfer (channel : Fin 32) (pending : List HbmReq)
  /-- POOL_CFG_WRITE (R269). A write to QM.POOL_CFG or QM.HBM_CFG moves free cells between pools or is refused with POOL_REFUSED. -/
  | poolCfgWrite (hbm : Bool) (v : Word)
  /-- QM_READ (R289). QM.CMD operation READ reads a queue descriptor and its counters. -/
  | qmRead (v : Word)
  /-- QM_WRITE (R289). QM.CMD operation WRITE replaces a queue descriptor in one step. -/
  | qmWrite (v : Word)
  /-- QM_FLUSH (R286). QM.CMD operation FLUSH drops every packet of the queue as FLUSHED. -/
  | qmFlush (v : Word)
  /-- QM_CMD_DONE (R289). A QM command completes and STATUS leaves BUSY. -/
  | qmCmdDone
  /-- EGRESS_SELECT (R281). An egress with room asks the scheduler, which selects a packet through channel, group and queue and removes it. -/
  | egressSelect (channel : Fin 128)
  /-- WHEEL_FIRE (R278). A tick fires a fine wheel slot, making held nodes eligible, or a coarse slot moving nodes to the fine wheel. -/
  | wheelFire
  /-- SCH_READ (R291). SCH.CMD operation READ reads a queue, group or channel node. -/
  | schRead (v : Word)
  /-- SCH_WRITE (R291). SCH.CMD operation WRITE replaces a node and applies any shaper change under RESET_MODE. -/
  | schWrite (v : Word)
  /-- SCH_CMD_DONE (R291). An SCH command completes and STATUS leaves BUSY. -/
  | schCmdDone
  /-- CLI_CFG_WRITE (R296). A write to CLI.CFG sets mode and port enable, refusing mode changes while a port is enabled. -/
  | cliCfgWrite (k : Port) (v : Word)
  /-- LINK_UP (R298). All link conditions have held for 1 ms and LINK_UP is set with a unit event. -/
  | linkUp (k : Port)
  /-- LINK_DOWN (R298). A link condition fails, the link goes down and the egress buffer is discarded as LINK_DOWN_DROP. -/
  | linkDown (k : Port) (localFault : Bool) (remoteFault : Bool) (blockLock : Bool) (amLock : Bool) (fecLock : Bool)
  /-- CLIENT_FRAME_RX (R299). A received client frame passes PCS, length, filter, MAC control, MACsec, R-TAG and FCS steps and is handed to its pipe or counted. -/
  | clientFrameRx (k : Port) (f : ClientFrame)
  /-- RECOV_RESET_EXPIRY (R316). No frame of a recovery group has arrived for RECOV_RESET ms, so the history restarts. -/
  | recovResetExpiry (g : Fin 32)
  /-- PAUSE_RX (R307). A received PAUSE frame stops every priority for its pause time. -/
  | pauseRx (k : Port) (time : BitVec 16)
  /-- PFC_RX (R307). A received priority flow control frame stops each enabled priority for its own time. -/
  | pfcRx (k : Port) (enable : BitVec 8) (times : List (BitVec 16))
  /-- PAUSE_TIMER_EXPIRY (R307). A priority's pause timer runs out and the priority may send again. -/
  | pauseTimerExpiry (k : Port) (pri : Fin 8)
  /-- FC_XOFF (R308). A stop condition arises and the port sends a MAC control frame carrying QUANTA. -/
  | fcXoff (k : Port)
  /-- FC_XON (R308). A stop condition ends and the port sends a frame with zero quanta. -/
  | fcXon (k : Port)
  /-- FC_REFRESH (R308). While a stop condition lasts the port repeats its stop frame every REFRESH quanta. -/
  | fcRefresh (k : Port)
  /-- CLIENT_FRAME_TX (R304). The port starts the oldest eligible buffered packet, inserting R-TAG, one-step time, MACsec and FCS. -/
  | clientFrameTx (k : Port)
  /-- GCL_COMMIT (R310). CLI.GCL_CTL operation COMMIT freezes the pending gate list and sets its start. -/
  | gclCommit (k : Port)
  /-- GCL_CANCEL (R310). CLI.GCL_CTL operation CANCEL withdraws a pending commit. -/
  | gclCancel (k : Port)
  /-- GCL_DISABLE (R310). CLI.GCL_CTL operation DISABLE stops the operating list and cancels any pending commit. -/
  | gclDisable (k : Port)
  /-- GCL_DATA_ACCESS (R310). An access to CLI.GCL_DATA reads or writes a gate-list entry and advances INDEX, refusing writes while pending. -/
  | gclDataAccess (k : Port) (write : Bool) (v : Word)
  /-- GCL_START (R311). A committed gate list reaches its start, the banks swap and the new list begins at entry 0. -/
  | gclStart (k : Port)
  /-- GATE_ENTRY_CHANGE (R309). A gate-list entry's interval ends and the gates take the next entry's states. -/
  | gateEntryChange (k : Port)
  /-- CIRC_READ (R350). CIRC.CMD operation READ reads a circuit or group entry with its state. -/
  | circRead (v : Word)
  /-- CIRC_WRITE (R329). CIRC.CMD operation WRITE replaces a circuit or group entry, allocating HBM buffers or refusing with a status. -/
  | circWrite (v : Word)
  /-- CIRC_CMD_DONE (R349). A CIRC command completes and STATUS leaves BUSY. -/
  | circCmdDone
  /-- SDH_FRAME_RX (R341). A received SDH frame is framed, checked and its pointers and overhead interpreted, entering or leaving defects. -/
  | sdhFrameRx (k : Port) (f : SdhFrame)
  /-- SDH_LOS_TIMER (R341). Absent or present transitions for 50 µs or 250 µs enter or clear lane LOS. -/
  | sdhLosTimer (k : Port) (absent : Bool)
  /-- SDH_LOF_TIMER (R341). OOF present or absent continuously for 3 ms enters or clears lane LOF. -/
  | sdhLofTimer (k : Port) (present : Bool)
  /-- DCC_PORT_FRAME (R346). A DCC port frame begins, sending waiting D bytes and collecting inserted bits, counting slips. -/
  | dccPortFrame (i : Fin 12) (dataIn : List Bool)
  /-- CIPH_DISPATCH (R354). A free engine takes the oldest waiting request of the highest class, suspending a lookaside request if needed. -/
  | ciphDispatch
  /-- CIPH_REQUEST_DONE (R369). A cipher request ends, returning its result or completion, and a DRAINING key half with no users is zeroised. -/
  | ciphRequestDone (engine : Fin 96) (hostError : Bool)
  /-- KEY_LOAD (R363). CIPH.KEY_CTL operation LOAD copies KEY_DATA into the pending half. -/
  | keyLoad (v : Word)
  /-- KEY_COMMIT (R363). CIPH.KEY_CTL operation COMMIT swaps the halves of a slot. -/
  | keyCommit (v : Word)
  /-- KEY_ERASE (R363). CIPH.KEY_CTL operation ERASE empties or drains both halves of a slot. -/
  | keyErase (v : Word)
  /-- KEY_OP_DONE (R363). A key operation completes within 64 cycles and KEY_CTL.STATUS leaves BUSY. -/
  | keyOpDone
  /-- SA_READ (R372). CIPH.SA_CMD operation READ reads a MACsec port, SC or SA entry. -/
  | saRead (v : Word)
  /-- SA_WRITE (R372). CIPH.SA_CMD operation WRITE replaces a MACsec table entry in one step. -/
  | saWrite (v : Word)
  /-- SA_CMD_DONE (R372). A MACsec table command completes and STATUS leaves BUSY. -/
  | saCmdDone
  /-- ALARM_DUE (R381). An alarm reaches its target line position, fires its node and advances if periodic. -/
  | alarmDue (i : Fin 4096)
  /-- EVENT_RAISE (R382). An event source is raised and fires its bound node, or is counted when unbound. -/
  | eventRaise (src : Nat)
  /-- CLAUSE_DISPATCH (R384). LSCH dispatches a ready firing to a free context of its section, loading g1 to g6, evicting a lower-priority clause if needed. -/
  | clauseDispatch
  /-- CLAUSE_RESUME (R385). An evicted clause resumes on its core when a context is free and no higher firing waits. -/
  | clauseResume (c : CoreId)
  /-- RUN_LIMIT (R386). A clause in service longer than RUN_LIMIT ends FAULTED. -/
  | runLimit (c : CoreId) (x : CtxId)
  /-- LATCH_GRANT (R388). A waiting ACQ is granted a released latch in priority and arrival order. -/
  | latchGrant (n : Fin 1024)
  /-- DEADLOCK_DETECT (R389). The wait-for detector finds a cycle and fails the youngest acquisition with DEADLOCK. -/
  | deadlockDetect
  /-- LSCH_READ (R402). LSCH.CMD operation READ reads a node, alarm or binding entry. -/
  | lschRead (v : Word)
  /-- LSCH_WRITE (R402). LSCH.CMD operation WRITE replaces a node, alarm or binding entry, refusing as NODE_BUSY or BAD_NODE. -/
  | lschWrite (v : Word)
  /-- LSCH_CMD_DONE (R402). An LSCH table command completes and STATUS leaves BUSY. -/
  | lschCmdDone
  /-- LSCH_LOAD (R395). LSCH.LOAD_CTL operation LOAD starts the loader on the image at IMG_ADDR. -/
  | lschLoad (v : Word)
  /-- LOAD_DONE (R395). The loader ends DONE, BAD_IMAGE, BANK_BUSY or NO_AREA after writing standby banks. -/
  | loadDone
  /-- SWAP_ARM (R396). LSCH.SWAP_CTL operation ARM arms a swap at a target line position or refuses it. -/
  | swapArm (v : Word)
  /-- SWAP_CANCEL (R396). LSCH.SWAP_CTL operation CANCEL disarms an armed swap. -/
  | swapCancel
  /-- SWAP_TARGET (R396). At the swap target every core of the image makes its standby bank active and a swap record goes to Preura. -/
  | swapTarget
  /-- HBM_AREA_WRITE (R377). A write to LSCH.HBM_AREA reserves the program area or is refused with AREA_REFUSED. -/
  | hbmAreaWrite (v : Word)
  /-- ILLEGAL (R410). Opcode 0x00, an unassigned opcode or a non-zero reserved field raises ILLEGAL. -/
  | illegal (c : CoreId) (x : CtxId)
  /-- ADD (R412). Adds two registers. -/
  | add (c : CoreId) (x : CtxId) (rd ra rb : GReg)
  /-- SUB (R412). Subtracts two registers. -/
  | sub (c : CoreId) (x : CtxId) (rd ra rb : GReg)
  /-- AND (R412). Bitwise AND of two registers. -/
  | and (c : CoreId) (x : CtxId) (rd ra rb : GReg)
  /-- OR (R412). Bitwise OR of two registers. -/
  | or (c : CoreId) (x : CtxId) (rd ra rb : GReg)
  /-- XOR (R412). Bitwise XOR of two registers. -/
  | xor (c : CoreId) (x : CtxId) (rd ra rb : GReg)
  /-- SHL (R412). Shifts a register left by rb [5:0]. -/
  | shl (c : CoreId) (x : CtxId) (rd ra rb : GReg)
  /-- SHR (R412). Shifts a register right logically by rb [5:0]. -/
  | shr (c : CoreId) (x : CtxId) (rd ra rb : GReg)
  /-- SAR (R412). Shifts a register right arithmetically by rb [5:0]. -/
  | sar (c : CoreId) (x : CtxId) (rd ra rb : GReg)
  /-- MUL (R412). Writes the low 64 bits of a product. -/
  | mul (c : CoreId) (x : CtxId) (rd ra rb : GReg)
  /-- MULHU (R412). Writes the high 64 bits of an unsigned product. -/
  | mulhu (c : CoreId) (x : CtxId) (rd ra rb : GReg)
  /-- SLT (R412). Signed less-than comparison giving 0 or 1. -/
  | slt (c : CoreId) (x : CtxId) (rd ra rb : GReg)
  /-- SLTU (R412). Unsigned less-than comparison giving 0 or 1. -/
  | sltu (c : CoreId) (x : CtxId) (rd ra rb : GReg)
  /-- SEQ (R412). Equality comparison giving 0 or 1. -/
  | seq (c : CoreId) (x : CtxId) (rd ra rb : GReg)
  /-- ADDI (R412). Adds a sign-extended immediate. -/
  | addi (c : CoreId) (x : CtxId) (rd ra : GReg) (imm : BitVec 14)
  /-- SUBI (R412). Subtracts a sign-extended immediate. -/
  | subi (c : CoreId) (x : CtxId) (rd ra : GReg) (imm : BitVec 14)
  /-- ANDI (R412). ANDs a zero-extended immediate. -/
  | andi (c : CoreId) (x : CtxId) (rd ra : GReg) (imm : BitVec 14)
  /-- ORI (R412). ORs a zero-extended immediate. -/
  | ori (c : CoreId) (x : CtxId) (rd ra : GReg) (imm : BitVec 14)
  /-- XORI (R412). XORs a zero-extended immediate. -/
  | xori (c : CoreId) (x : CtxId) (rd ra : GReg) (imm : BitVec 14)
  /-- SHLI (R412). Shifts left by an immediate amount. -/
  | shli (c : CoreId) (x : CtxId) (rd ra : GReg) (amt : BitVec 6)
  /-- SHRI (R412). Shifts right logically by an immediate amount. -/
  | shri (c : CoreId) (x : CtxId) (rd ra : GReg) (amt : BitVec 6)
  /-- SARI (R412). Shifts right arithmetically by an immediate amount. -/
  | sari (c : CoreId) (x : CtxId) (rd ra : GReg) (amt : BitVec 6)
  /-- SLTI (R412). Signed less-than against an immediate. -/
  | slti (c : CoreId) (x : CtxId) (rd ra : GReg) (imm : BitVec 14)
  /-- SLTUI (R412). Unsigned less-than against an immediate. -/
  | sltui (c : CoreId) (x : CtxId) (rd ra : GReg) (imm : BitVec 14)
  /-- SEQI (R412). Equality against an immediate. -/
  | seqi (c : CoreId) (x : CtxId) (rd ra : GReg) (imm : BitVec 14)
  /-- SHORI (R412). Shifts left by 14 and ORs a zero-extended immediate. -/
  | shori (c : CoreId) (x : CtxId) (rd ra : GReg) (imm : BitVec 14)
  /-- EXT (R414). Extracts a zero-extended bit field. -/
  | ext (c : CoreId) (x : CtxId) (rd ra : GReg) (lo len1 : BitVec 6)
  /-- EXTS (R414). Extracts a sign-extended bit field. -/
  | exts (c : CoreId) (x : CtxId) (rd ra : GReg) (lo len1 : BitVec 6)
  /-- INS (R414). Inserts a bit field into rd. -/
  | ins (c : CoreId) (x : CtxId) (rd ra : GReg) (lo len1 : BitVec 6)
  /-- LD (R415). Loads 8 bytes from data memory. -/
  | ld (c : CoreId) (x : CtxId) (rd ra : GReg) (imm : BitVec 14)
  /-- LW (R415). Loads 4 bytes zero-extended. -/
  | lw (c : CoreId) (x : CtxId) (rd ra : GReg) (imm : BitVec 14)
  /-- LB (R415). Loads 1 byte zero-extended. -/
  | lb (c : CoreId) (x : CtxId) (rd ra : GReg) (imm : BitVec 14)
  /-- MEM_LOAD_RETURN (R415). The data of a load returns and the waiting context becomes runnable. -/
  | memLoadReturn (c : CoreId) (x : CtxId)
  /-- ST (R415). Stores 8 bytes, posted. -/
  | st (c : CoreId) (x : CtxId) (rs ra : GReg) (imm : BitVec 14)
  /-- SW (R415). Stores 4 bytes, posted. -/
  | sw (c : CoreId) (x : CtxId) (rs ra : GReg) (imm : BitVec 14)
  /-- SB (R415). Stores 1 byte, posted. -/
  | sb (c : CoreId) (x : CtxId) (rs ra : GReg) (imm : BitVec 14)
  /-- XADD (R415). Atomically adds to an 8-byte memory word and returns the old value. -/
  | xadd (c : CoreId) (x : CtxId) (rd ra rb : GReg)
  /-- BR (R416). Branches unconditionally by off20. -/
  | br (c : CoreId) (x : CtxId) (off : BitVec 20)
  /-- BZ (R416). Branches when ra is zero. -/
  | bz (c : CoreId) (x : CtxId) (ra : GReg) (off : BitVec 20)
  /-- BNZ (R416). Branches when ra is not zero. -/
  | bnz (c : CoreId) (x : CtxId) (ra : GReg) (off : BitVec 20)
  /-- BLTZ (R416). Branches when ra is negative. -/
  | bltz (c : CoreId) (x : CtxId) (ra : GReg) (off : BitVec 20)
  /-- BGEZ (R416). Branches when ra is zero or positive. -/
  | bgez (c : CoreId) (x : CtxId) (ra : GReg) (off : BitVec 20)
  /-- CALL (R416). Branches and writes the return address to g31. -/
  | call (c : CoreId) (x : CtxId) (off : BitVec 20)
  /-- JR (R416). Jumps to the address in ra. -/
  | jr (c : CoreId) (x : CtxId) (ra : GReg)
  /-- CALLR (R416). Jumps to the address in ra and writes the return address to g31. -/
  | callr (c : CoreId) (x : CtxId) (ra : GReg)
  /-- CTLR (R418). Reads a control-space register named by unit and word fields. -/
  | ctlr (c : CoreId) (x : CtxId) (rd : GReg) (unit : BitVec 8) (word : BitVec 12)
  /-- CTLW (R418). Posts a write to a control-space register named by unit and word fields. -/
  | ctlw (c : CoreId) (x : CtxId) (rs : GReg) (unit : BitVec 8) (word : BitVec 12)
  /-- CTLRX (R418). Reads the control-space register at the address in ra. -/
  | ctlrx (c : CoreId) (x : CtxId) (rd ra : GReg)
  /-- CTLWX (R418). Posts a write to the control-space register at the address in ra. -/
  | ctlwx (c : CoreId) (x : CtxId) (rs ra : GReg)
  /-- CTL_READ_RETURN (R418). A control-space read returns its data to the waiting context. -/
  | ctlReadReturn (c : CoreId) (x : CtxId)
  /-- CTL_WRITE_LAND (R419). A posted control-space write lands at its unit, raising a deferred CTL_ACCESS if refused. -/
  | ctlWriteLand (c : CoreId)
  /-- EMIT (R423). Sends one token to a clause node of the emitter's sentence. -/
  | emit (c : CoreId) (x : CtxId) (ra : GReg) (k : BitVec 10)
  /-- EMITX (R423). Sends one token to any node by index. -/
  | emitx (c : CoreId) (x : CtxId) (ra rb : GReg)
  /-- END (R386). Ends the clause, releasing its subject and context and returning a command block's result. -/
  | endClause (c : CoreId) (x : CtxId)
  /-- FENCE (R423). Waits until earlier stores and control-space writes have landed. -/
  | fence (c : CoreId) (x : CtxId)
  /-- TRAP (R423). Raises the TRAP exception with its immediate. -/
  | trap (c : CoreId) (x : CtxId) (imm : BitVec 10)
  /-- ARM (R422). Writes or disarms an alarm entry and reports its state. -/
  | arm (c : CoreId) (x : CtxId) (rd ra rb : GReg)
  /-- TCAP (R421). Captures or returns the line position, medium time and time status. -/
  | tcap (c : CoreId) (x : CtxId) (rd : GReg) (sel : BitVec 10)
  /-- ACQ (R387). Acquires a latch in ascending order, waiting if held. -/
  | acq (c : CoreId) (x : CtxId) (rd ra : GReg) (imm : BitVec 10)
  /-- REL (R424). Releases a held latch after earlier writes land. -/
  | rel (c : CoreId) (x : CtxId) (ra : GReg) (imm : BitVec 10)
  /-- LFIX (R390). Clears the BROKEN mark of a held latch. -/
  | lfix (c : CoreId) (x : CtxId) (ra : GReg) (imm : BitVec 10)
  /-- PTAKE (R426). Takes the head packet of a control-plane queue into a handle slot. -/
  | ptake (c : CoreId) (x : CtxId) (rd ra : GReg)
  /-- MTAKE (R426). Takes the head of the message slow-path queue into a handle slot. -/
  | mtake (c : CoreId) (x : CtxId) (rd : GReg)
  /-- PNEW (R426). Creates a zero-filled packet in a handle slot. -/
  | pnew (c : CoreId) (x : CtxId) (rd ra : GReg)
  /-- PLD (R427). Reads 8 bytes from a held object. -/
  | pld (c : CoreId) (x : CtxId) (rd ra rb : GReg) (imm : BitVec 10)
  /-- PST (R427). Writes 8 bytes into a held object. -/
  | pst (c : CoreId) (x : CtxId) (rs ra rb : GReg) (imm : BitVec 10)
  /-- PLEN (R427). Sets the length of a held object. -/
  | plen (c : CoreId) (x : CtxId) (rd ra rb : GReg)
  /-- PMETA (R427). Returns a metadata item of a held object. -/
  | pmeta (c : CoreId) (x : CtxId) (rd ra : GReg) (imm : BitVec 10)
  /-- PSEND (R428). Hands a held packet to a pipe as an injected packet. -/
  | psend (c : CoreId) (x : CtxId) (rd ra rb : GReg)
  /-- PFREE (R428). Discards the object in a handle slot. -/
  | pfree (c : CoreId) (x : CtxId) (ra : GReg)
  /-- MPOST (R429). Posts a held object as an upstream message to the upstream message queue. -/
  | mpost (c : CoreId) (x : CtxId) (rd ra rb : GReg)
  /-- MDROP (R429). Withdraws queued upstream message entries of a class. -/
  | mdrop (c : CoreId) (x : CtxId) (rd ra : GReg)
  /-- CREQ (R430). Submits a lookaside descriptor to a cipher queue. -/
  | creq (c : CoreId) (x : CtxId) (rd ra rb : GReg)
  /-- PERST_N (R435). PERST_N or hot reset sets GATE, DMA and PCIE to reset values and starts link training. -/
  | perstN
  /-- FUNCTION_LEVEL_RESET (R435). A function-level reset sets the function's channels to IDLE and loses descriptors in flight. -/
  | functionLevelReset (func : Fin 64)
  /-- PCIE_READY (R435). The port becomes ready and stops answering configuration requests with Request Retry Status. -/
  | pcieReady
  /-- CH_START (R452). CH_CTL operation START copies the shadow set and starts the channel at HEAD. -/
  | chStart (c : Fin 512)
  /-- CH_PAUSE (R452). CH_CTL operation PAUSE stops new reads and drains the channel. -/
  | chPause (c : Fin 512)
  /-- CH_RESUME (R452). CH_CTL operation RESUME continues a paused channel from its saved point. -/
  | chResume (c : Fin 512)
  /-- CH_STOP (R452). CH_CTL operation STOP drains the channel and aborts the descriptor in progress. -/
  | chStop (c : Fin 512)
  /-- CH_DOORBELL (R453). A write to CH_DOORBELL sets DB_PENDING and runs the chain check while PARKED. -/
  | chDoorbell (c : Fin 512)
  /-- CHAIN_END_CHECK (R453). The flag-word read of the last descriptor returns and the engine continues the chain, reads again or parks. -/
  | chainEndCheck (c : Fin 512) (endBit : Option Bool) (next : Option Word) (poisoned : Bool)
  /-- DESC_FETCH (R444). A descriptor read returns and its transfer starts, or it is written back BAD_DESC. -/
  | descFetch (c : Fin 512) (words : Option (List Word)) (poisoned wbFail ringFail : Bool)
  /-- DESC_DONE (R445). A descriptor's transfer completes and it is written back, with record, tail writeback and interrupt in order. -/
  | descDone (c : Fin 512) (t : Transfer)
  /-- CH_DRAIN_DONE (R452). A pausing or stopping channel completes its drain and becomes PAUSED, STOPPED or RUNNING. -/
  | chDrainDone (c : Fin 512) (t : Transfer)
  /-- PCIE_LINK_DOWN (R452). The link goes down and every channel not IDLE enters CHAIN_BROKEN with CAUSE LINK. -/
  | pcieLinkDown
  /-- BME_CLEAR (R452). Bus Master Enable is cleared or D3hot entered, breaking the function's channels with CAUSE BME. -/
  | bmeClear (func : Fin 64)
  /-- PKT_TX_INJECT (R448). A PKT_TX packet read whole is taken by its pipe and the descriptor written back. -/
  | pktTxInject (c : Fin 512) (data : List Byte) (wbFail ringFail : Bool)
  /-- CH_RING_HEAD_WRITE (R451). The host writes a disposition ring HEAD, freeing space for a waiting record. -/
  | chRingHeadWrite (c : Fin 512) (v : Word)
  /-- IRQ_HOLDOFF_EXPIRY (R455). A channel's interrupt holdoff ends and merged events are sent as one message. -/
  | irqHoldoffExpiry (c : Fin 512)
  /-- CH_OWNER_WRITE (R460). A write to GATE.CH_OWNER assigns a channel to a function or is refused with OWNER_REFUSED. -/
  | chOwnerWrite (c : Fin 512) (v : Word)
  /-- VF_DISABLE (R460). Disabling VFs returns their channels to the PF and to IDLE. -/
  | vfDisable
  /-- HINGE_EN_WRITE (R472). A write of HINGE.CFG.EN starts or stops the hinge link. -/
  | hingeEnWrite (v : Word)
  /-- HINGE_LANES_LOCKED (R472). All four lanes lock to their markers and deskew, and the link enters HELLO. -/
  | hingeLanesLocked
  /-- HINGE_LOCK_LOST (R472). A lane loses marker or CDR lock and the link returns to ACQUIRE. -/
  | hingeLockLost
  /-- HINGE_CODEWORD_RX (R468). A link codeword is received in CW_SEQ order, discarded if uncorrectable or of unknown kind. -/
  | hingeCodewordRx (levels : List Nat)
  /-- HEARTBEAT_TX (R471). A 10 µs interval ends and a HEARTBEAT block is queued. -/
  | heartbeatTx
  /-- HEARTBEAT (R471). A received HEARTBEAT is checked and updates the peer status or sets MISMATCH. -/
  | heartbeat (b : BitVec 512)
  /-- HEARTBEAT_TIMEOUT (R472). No valid HEARTBEAT for 30 µs drops an UP link to ACQUIRE with PEER_LOST. -/
  | heartbeatTimeout
  /-- UPDATE (R478). A received UPDATE block writes mirrored NEXT_SEQ values on a terminal that is not lead. -/
  | update (b : BitVec 512)
  /-- UPDATE_TX (R477). A 1 µs merge interval ends and the lead sends waiting NEXT_SEQ changes as UPDATE entries. -/
  | updateTx
  /-- SYNC_REQ (R480). A received SYNC_REQ makes the lead start a bulk transfer with SYNC_START. -/
  | syncReq (b : BitVec 512)
  /-- SYNC_REQ_TX (R480). A terminal with SYNC NONE and link UP sends SYNC_REQ every 100 µs. -/
  | syncReqTx
  /-- SYNC_START (R480). A received SYNC_START moves the receiver to SYNCING and restarts the bulk count. -/
  | syncStart (b : BitVec 512)
  /-- SYNC_END (R480). A received SYNC_END with correct count and CRC moves the receiver to IN_SYNC, else to NONE with SYNC_FAIL. -/
  | syncEnd (b : BitVec 512)
  /-- LEAD_SEL_CHANGE (R474). LEAD_SEL holds a new level for 1 µs and the lead state follows at the next frame boundary. -/
  | leadSelChange (level : Bool)
  /-- DUAL_LEAD (R476). Both twins report lead for 100 µs and DUAL_LEAD is set. -/
  | dualLead
  /-- PREURA_BOOT (R485). Preura's boot ROM starts, chooses a flash slot or DOWNLOAD and starts firmware. -/
  | preuraBoot
  /-- SENSOR_SAMPLE (R488). A sensor is sampled in hardware and the 115 °C hard trip is compared. -/
  | sensorSample (n : Fin 55) (v : BitVec 16)
  /-- SENSOR_PUBLISH (R488). Every 1 ms Preura publishes averaged readings in MBOX.TEMP and VOLT and writes SENSE_STAMP. -/
  | sensorPublish
  /-- DEGRADE_RAISE (R572). A publication at 105 °C or above raises the degradation level by one. -/
  | degradeRaise
  /-- DEGRADE_LOWER (R572). Every sensor at 100 °C or below for 1 s lowers the degradation level by one. -/
  | degradeLower
  /-- LOG_WRITE (R490). Preura writes a queued log entry to flash and commits it, erasing the oldest sector when needed. -/
  | logWrite
  /-- MP_ADDR_WRITE (R493). Management port opcode 0x10 writes MP_ADDR and clears READY. -/
  | mpAddrWrite (v : Word)
  /-- MP_ADDR_READ (R493). Management port opcode 0x11 reads MP_ADDR. -/
  | mpAddrRead
  /-- MP_DATA_WRITE (R495). Management port opcode 0x20 writes MP_DATA in the selected space or fails with OVERRUN or READ_ONLY. -/
  | mpDataWrite (v : Word)
  /-- MP_DATA_READ (R494). Management port opcode 0x21 reads MP_DATA from the selected space or fails with NOT_READY. -/
  | mpDataRead
  /-- MP_STATUS_READ (R493). Management port opcode 0x31 reads MP_STATUS. -/
  | mpStatusRead
  /-- MP_STATUS_WRITE (R492). Management port opcode 0x3C clears ERR. -/
  | mpStatusWrite (v : Word)
  /-- MP_PREURA_RESET (R492). Management port opcode 0x5A with the key word resets Preura alone. -/
  | mpPreuraReset (v : Word)
  /-- BAD_OPCODE (R492). An unassigned management port opcode is ignored and sets ERR to BAD_OPCODE. -/
  | badOpcode (op : Byte)
  /-- MP_READY (R495). The next word is fetched or a written word taken and READY is set again. -/
  | mpReady
  /-- STAGE_OPEN (R497). COMMAND operation STAGE_OPEN erases the idle slot and opens STAGE at offset 0. -/
  | stageOpen (arg : BitVec 56)
  /-- STAGE_COMMIT (R497). COMMAND operation STAGE_COMMIT checks the staged image and writes the header and COMMIT. -/
  | stageCommit (arg : BitVec 56)
  /-- ACTIVATE (R497). COMMAND operation ACTIVATE resets Preura to boot a committed slot, or starts a DOWNLOAD image in place. -/
  | activate (arg : BitVec 56)
  /-- LOG_MARK (R497). COMMAND operation LOG_MARK logs a BOARD entry. -/
  | logMark (arg : BitVec 56)
  /-- RELAY (R497). COMMAND operation RELAY posts BOARD_OUT to the mailbox as BOARD_MSG. -/
  | relay (arg : BitVec 56)
  /-- COMMAND_DONE (R497). A management COMMAND operation ends and CMD_STATUS shows its result. -/
  | commandDone
  /-- MBOX_SEND (R498). A write of TO_CTL.SEND posts a message to Preura or is refused with TO_REFUSED. -/
  | mboxSend (v : Word)
  /-- MBOX_TAKE (R498). Preura takes the TO message and clears FULL. -/
  | mboxTake
  /-- MBOX_POST (R498). Preura posts a message to FROM, raising the mailbox event, or holds it until FULL is clear. -/
  | mboxPost
  /-- MBOX_DONE (R498). A program writes FROM_CTL.DONE to release the FROM slot. -/
  | mboxDone (v : Word)
  /-- LOG (R499). A LOG mailbox message is placed in a PROGRAM log entry. -/
  | log
  /-- OE_XFER (R503). An OE_XFER mailbox message runs an I²C-bus transfer on an optical-engine bus. -/
  | oeXfer
  /-- OE_XFER_DONE (R503). An optical-engine transfer ends and OE_RESULT is posted. -/
  | oeXferDone (q : Fin 6) (status : Fin 3) (data : List Byte)
  /-- RELAY_TO_BOARD (R499). A RELAY_TO_BOARD mailbox message is placed in BOARD_IN. -/
  | relayToBoard
  /-- OE_ALARM (R503). A low OE_INT_N makes Preura read the engine's alarm bytes, log them and post OE_ALARM. -/
  | oeAlarm (q : Fin 6) (data : List Byte)
  /-- BUS_STUCK (R503). SDA or SCL held low for 25 ms makes Preura recover the bus and end the transfer BUS_STUCK. -/
  | busStuck (q : Fin 6)
  /-- SWAP_POP (R500). Preura logs the oldest swap record as SWAP and removes it with POP. -/
  | swapPop
  /-- SENTINEL_KICK (R501). Preura writes KICK, restarting the sentinel timeout or tripping on a bad value. -/
  | sentinelKick (v : BitVec 4)
  /-- SENTINEL_TRIP (R501). The sentinel times out or detects lock-up or an SRAM error, stopping Preura and raising class D on PREURA. -/
  | sentinelTrip (cause : TripCause)
  /-- PREURA_RESET (R502). MBOX.PREURA_CTL.RESET resets Preura alone and restarts its boot ROM. -/
  | preuraReset (v : Word)
  /-- FAULT_LATCH (R511). A source's error pair signals an error and the collector latches it by class, captures it and reacts. -/
  | faultLatch (src : Fin 38) (cls : Fin 4) (code : BitVec 16) (item : FaultItem)
  /-- WIRE_FAULT (R507). A source's pair reads equal for 4 cycles, setting FLT.WIRE and raising a wire fault. -/
  | wireFault (src : Fin 38)
  /-- UNIT_RESTART_DONE (R512). A unit completes a full restart interval with no new class D and leaves restart. -/
  | unitRestartDone (src : Fin 38)
  /-- FLT_STATUS_CLEAR (R513). A W1C write to STATUS_C, U or D clears bits, except those still restarting. -/
  | fltStatusClear (k : Fin 3) (v : Word)
  /-- CAP_POP (R515). Preura reads CAP_SEC, CAP_NS and CAP_INFO, removing the head capture entry. -/
  | capPop
  /-- DISP_POP (R518). A write of DISP_CTL.POP removes the head disposition record, letting overflow records be written. -/
  | dispPop (v : Word)
  /-- PIN_FAULT (R519). The ERR balls differ from the drive for 1 µs and PIN_FAULT is set. -/
  | pinFault
  /-- FLT_READY (R519). The fault collector becomes ready after PORST_N release and drives ERR high/low. -/
  | fltReady
  /-- PWR_REQ_ON (R530). A PWR.REQ with target ON places domains in the wake sequence or is refused. -/
  | pwrReqOn (by_ : Fin 256) (mask : BitVec 30)
  /-- PWR_REQ_RETENTION (R529). A PWR.REQ with target RETENTION starts draining domains or is refused. -/
  | pwrReqRetention (by_ : Fin 256) (mask : BitVec 30)
  /-- PWR_REQ_OFF (R529). A PWR.REQ with target OFF starts draining domains or is refused. -/
  | pwrReqOff (by_ : Fin 256) (mask : BitVec 30)
  /-- DOMAIN_DRAIN_DONE (R528). A draining domain holds no items and goes down into RETENTION or OFF. -/
  | domainDrainDone (d : Fin 30)
  /-- DRAIN_ABORT (R528). The drain bound runs out with items held, so the entry is aborted and the domain stays ON. -/
  | drainAbort (d : Fin 30)
  /-- DOMAIN_DOWN (R528). A going-down domain's switch opens and its pending request becomes current. -/
  | domainDown (d : Fin 30)
  /-- WAKE_TURN (R533). The sequencer takes the lowest-numbered WAITING domain, rechecks it and closes its switch. -/
  | wakeTurn
  /-- DOMAIN_ON (R524). A waking domain's delay ends, it becomes ON and its pending request becomes current. -/
  | domainOn (d : Fin 30)
  /-- PWR_OP_WRITE (R536). A write of PWR.OP requests a new operating point and starts an AVSBus change. -/
  | pwrOpWrite (v : Word)
  /-- AVS_DONE (R536). An AVSBus voltage change confirms and the clock is stepped or the rail's ERR set. -/
  | avsDone (rail : Fin 2) (mv : Fin 1024)
  /-- AVS_TIMEOUT (R536). VDone does not arrive within 1 ms and an AVS error is recorded. -/
  | avsTimeout (rail : Fin 2)
  /-- AVS_RETRY (R545). A failed start-up rail write is retried every 10 ms. -/
  | avsRetry
  /-- CHIP_RESET (R542). A write of the key to PWR.CHIP_RESET resets the chip as PORST_N for 10 µs. -/
  | chipReset (v : Word)
  /-- PORST_N_ASSERT (R542). PORST_N low resets AON and turns every switched domain off at once. -/
  | porstNAssert
  /-- PORST_N_RELEASE (R545). PORST_N release samples the straps and starts PWR's start-up sequence. -/
  | porstNRelease (boot : Bool) (lead : Bool) (role : Fin 4)
  /-- START_DONE (R545). The start-up sequence ends and START_DONE is set. -/
  | startDone
  /-- AON_POWER_LOSS (R565). VDD_AON falls below 0.55 V and the whole of AON returns to reset values on return of power. -/
  | aonPowerLoss
  /-- PLL_UNLOCK (R540). A system PLL loses lock, raising class D on fed sources or moving AON to its internal oscillator. -/
  | pllUnlock (pll : Fin 8)
  /-- REF_LOSS (R541). A reference input is found absent, setting LOSS and counting REF_LOSSES. -/
  | refLoss (ref : Fin 6)
  /-- PMC_SEL_WRITE (R553). A write to PMC_SEL selects events, leaving a counter unchanged with EVSEL_BAD on a reserved code. -/
  | pmcSelWrite (u : Fin 256) (v : Word)
  /-- DUMP_DUE (R555). A dump entry falls due and the counter blocks of its range are latched and built into a packet. -/
  | dumpDue (k : Fin 16)
  /-- DUMP_OFFER (R556). A built dump packet is offered to its queue under the admission test. -/
  | dumpOffer (k : Fin 16)
  /-- BW_CFG_WRITE (R558). A write to MON.BW_CFG discards the window in progress and restarts at the next boundary. -/
  | bwCfgWrite (v : Word)
  /-- TAP_RESET (R578). TRST_N resets the boundary-scan TAP asynchronously. -/
  | tapReset
  /-- SLOT_CONFIRM (R487). Firmware that has kicked the sentinel for 10 s and read every sensor sets CONFIRM on its slot, ending the trial. -/
  | slotConfirm
  /-- SWAP_BUFFER_DRAIN (R385). An evicted context finishes draining from the core's swap buffer to the cluster's save store, and the core may again be chosen for eviction. -/
  | swapBufferDrain (c : CoreId)
  /-- CHIP_RESET_END (R542). The 10 µs hold of a chip reset ends, the straps are sampled and the start-up sequence begins as after PORST_N. -/
  | chipResetEnd (boot : Bool) (lead : Bool) (role : Fin 4)
  /-- PLL_RELOCK (R540). A system PLL regains lock, its LOCK bit returns and AON logic moves back from the internal oscillator to CK_AON. -/
  | pllRelock (pll : Fin 8)
  /-- REF_PRESENT (R541). An absent reference input shows edges within range again and its PRESENT bit returns. -/
  | refPresent (ref : Fin 6)
  /-- VF_ENABLE (R460). The host enables virtual functions under SR-IOV, and NUM_VFS rises so channels may be given to them. -/
  | vfEnable (n : Fin 64)
  /-- PCIE_LINK_UP (R461). The PCI Express link trains and DL_UP becomes 1. -/
  | pcieLinkUp (speed : Fin 8) (width : Fin 17) (flit : Bool)
  /-- ISOLATION_CLAMP_RELEASE (R508). 1 µs after a domain is on again, the clamp on its error pairs releases and the pairs are sampled once more. -/
  | isolationClampRelease (d : Fin 30)
  /-- HINGE_CODEWORD_TX (R470). A link codeword time begins and the sender fills it with waiting control blocks, the next bulk body, or empty blocks, ending a bulk transfer with SYNC_END. -/
  | hingeCodewordTx
  /-- COMPLETION_TIMEOUT (R446). A DMA or command-ring read gets no completion within PCIE.CFG.CPL_TIMEOUT and ends as a bus error. -/
  | completionTimeout (c : Option (Fin 512))
  /-- TCK_EDGE (R578). A TCK edge moves the boundary-scan TAP controller and its scan operations under IEEE 1149.1. -/
  | tckEdge (rising tms tdi : Bool)
  deriving DecidableEq, Repr

end Sys2Proof
end

