-- ==== Sys2Proof/Decode.lean ====
section
/-!
DEFINITION. The command that a word of the command table spells.  No row of the table gives a bit: the commands are events at pins,
register accesses and items received, which no word encodes.  The instruction words of a Limtin program are decoded in
Machine/LimIsa.lean.
-/

namespace Sys2Proof

/-- The command of a table word: none. [DEDUCED, log entry 156] -/
def decodeTableWord (_nbits _w : Nat) : Option Instr := none

end Sys2Proof
end

