-- ==== Sys2Proof/Machine/Bits.lean ====
section
/-!
DEFINITION. Bit fields, byte order, sign extension, saturation and lists of bits: the helpers every meaning uses.
-/

namespace Sys2Proof.Machine

/-- Bits `hi` down to `lo` of a number, as a number. -/
def bitsOf (n hi lo : Nat) : Nat := (n / 2 ^ lo) % 2 ^ (hi + 1 - lo)

/-- Bit `i` of a number. -/
def bitOf (n i : Nat) : Bool := n / 2 ^ i % 2 == 1

/-- `n` with bits `hi` down to `lo` replaced by the low bits of `v`. -/
def setBitsOf (n hi lo v : Nat) : Nat :=
  n - bitsOf n hi lo * 2 ^ lo + (v % 2 ^ (hi + 1 - lo)) * 2 ^ lo

/-- One where the condition holds, else zero. -/
def b2n (b : Bool) : Nat := if b then 1 else 0

/-- The two's-complement reading of the low `w` bits of `n`. -/
def sext (w n : Nat) : Int :=
  let m := n % 2 ^ w
  if m < 2 ^ (w - 1) then (m : Int) else (m : Int) - (2 ^ w : Nat)

/-- The two's-complement word of `w` bits of an integer. -/
def toTwos (w : Nat) (i : Int) : Nat := (i % (2 ^ w : Nat)).toNat

/-- `a + b`, saturating at the greatest value of `w` bits. -/
def satAdd (w a b : Nat) : Nat := min (a + b) (2 ^ w - 1)

/-- `n` kept within `lo` and `hi`. -/
def clampN (lo hi n : Nat) : Nat := max lo (min hi n)

/-- An integer kept within `-m` and `m`. -/
def clampI (m i : Int) : Int := max (-m) (min m i)

/-- The bits of an `n`-bit number, highest first (R68: the highest-numbered bit is sent first). -/
def bitsMsb : Nat → Nat → List Bool
  | 0, _ => []
  | n + 1, v => bitOf v n :: bitsMsb n v

/-- The number whose bits, highest first, are given. -/
def natOfBits (l : List Bool) : Nat := l.foldl (fun a b => 2 * a + b2n b) 0

/-- The bits of a byte string, each byte highest bit first. -/
def bitsOfBytes (l : List Byte) : List Bool := l.flatMap (fun b => bitsMsb 8 b.toNat)

/-- The big-endian number of a byte string. -/
def beNat (l : List Byte) : Nat := l.foldl (fun a b => a * 256 + b.toNat) 0

/-- The `n` bytes of a number, most significant first. -/
def beBytes : Nat → Nat → List Byte
  | 0, _ => []
  | n + 1, v => BitVec.ofNat 8 (v / 256 ^ n) :: beBytes n v

/-- `n` bytes of zero. -/
def zeroBytes (n : Nat) : List Byte := List.replicate n 0

/-- The first `n` bytes, padded with zeros to `n`. -/
def takePad (n : Nat) (l : List Byte) : List Byte := (l ++ zeroBytes n).take n

/-- `n` rounded up to a multiple of `m`. -/
def roundUp (n m : Nat) : Nat := (n + (m - 1)) / m * m

/-- Replace the bytes of `l` from offset `o` by `v`; bytes past the end are dropped. -/
def patchBytes (l : List Byte) (o : Nat) (v : List Byte) : List Byte :=
  l.take o ++ (v ++ l.drop (o + v.length)).take (l.length - o)

/-- The field `hi` to `lo` of a message body whose defined length is `d` bytes (R166, R168): bits are numbered from
`8 * d - 1` at the first byte, and bytes beyond the defined body are ignored. -/
def bodyField (body : List Byte) (d hi lo : Nat) : Nat := bitsOf (beNat (takePad d body)) hi lo

/-- A register of a linear feedback CRC after one bit. -/
def crcStep (w poly reg : Nat) (b : Bool) : Nat :=
  let top := bitOf reg (w - 1)
  let r := (reg * 2) % 2 ^ w
  if top != b then r ^^^ poly else r

/-- The CRC register after a string of bits, from a preset. -/
def crcRun (w poly preset : Nat) (l : List Bool) : Nat := l.foldl (crcStep w poly) preset

/-- The CRC-32 of HCRC and GRANT_CRC (R70): preset to ones, complemented. -/
def crc32 (l : List Bool) : Nat := (2 ^ 32 - 1) - crcRun 32 0x04C11DB7 (2 ^ 32 - 1) l

/-- The bits of a byte string in the order of the wire: each byte lowest bit first. -/
def wireBits (l : List Byte) : List Bool := l.flatMap (fun b => (bitsMsb 8 b.toNat).reverse)

/-- The frame check sequence of IEEE 802.3. -/
def ethFcs (l : List Byte) : List Byte :=
  let r := crc32 (wireBits l)
  (List.range 4).map (fun i => BitVec.ofNat 8 (natOfBits (bitsMsb 8 (bitsOf r (31 - 8 * i) (24 - 8 * i))).reverse))

/-- The CRC-16 of messages and parcels (R70): preset 0xFFFF, not complemented. -/
def crc16 (l : List Bool) : Nat := crcRun 16 0x1021 0xFFFF l

/-- The check value of a ward code (R144): CRC-32 with the register preset to zero and no complement. -/
def wardCheck (code : Nat) : Nat := crcRun 32 0x04C11DB7 0 (bitsMsb 64 code)

/-- The MCRC of a message (R74): over envelope bits [63:16], the body and its zero padding to 8 bytes. -/
def messageCrc (env : Nat) (body : List Byte) : Nat :=
  crc16 (bitsMsb 48 (bitsOf env 63 16) ++ bitsOfBytes (takePad (roundUp body.length 8) body))

/-- The HCRC16 of a parcel header (R90): over bits [127:16]. -/
def parcelCrc (h : Nat) : Nat := crc16 (bitsMsb 112 (bitsOf h 127 16))

/-- Replace the element at index `i`. -/
def listSet {α : Type} (l : List α) (i : Nat) (v : α) : List α := l.set i v

/-- The first element satisfying `p`, with the list without it. -/
def takeFirst {α : Type} (p : α → Bool) : List α → Option (α × List α)
  | [] => none
  | x :: xs => if p x then some (x, xs) else (takeFirst p xs).map (fun r => (r.1, x :: r.2))

/-! ## Client frames (R213, R315) -/

/-- The EtherType of a frame at its first type position. -/
def etherType (b : List Byte) (o : Nat) : Nat := beNat (takePad 2 (b.drop o))

/-- A VLAN tag's EtherType: the C-tag and the S-tag of IEEE 802.1Q. [PRESUMED, log entry 74] -/
def isVlan (t : Nat) : Bool := t == 0x8100 || t == 0x88A8

/-- The offset behind at most `v` VLAN tags and `r` sequence tags that stand at `o`, in any order; the first number bounds the steps. -/
def tagSkip (b : List Byte) : Nat → Nat → Nat → Nat → Nat
  | 0, _, _, o => o
  | n + 1, v, r, o =>
    if isVlan (etherType b o) && 0 < v then tagSkip b n (v - 1) r (o + 4)
    else if etherType b o == 0xF1C1 && 0 < r then tagSkip b n v (r - 1) (o + 6)
    else o

/-- Where the PTP header of a frame starts, if R213 applies: EtherType 0x88F7 behind up to two VLAN tags and at most one sequence tag, the
header within the first 128 bytes. [PRESUMED, log entry 74] -/
def ptpHeader (b : List Byte) : Option Nat :=
  let o := tagSkip b 3 2 1 12
  if etherType b o = 0x88F7 ∧ o + 2 < 128 ∧ o + 46 ≤ b.length then some (o + 2) else none

end Sys2Proof.Machine
end

