-- ==== Sys2Proof/Machine/Coding.lean ====
section
/-!
DEFINITION. The coding chain of a medium lane (R33 to R45): Reed-Solomon codewords, scrambler, stuffing, Gray map,
precoder, codeword slots, fixed patterns and lane markers, as functions on lists of bits and of line levels.
-/

namespace Sys2Proof.Machine

/-! ## Scrambler (R35, R36) -/

/-- One step of the scrambler: the output bit and the register after it. -/
def scrStep (q : Nat) : Bool × Nat :=
  let out := bitOf q 30 != bitOf q 27
  (out, (q * 2 + b2n out) % 2 ^ 31)

/-- Scramble a string of bits: the sent bits and the register after them. Descrambling is the same function. -/
def scramble : Nat → List Bool → List Bool × Nat
  | q, [] => ([], q)
  | q, b :: bs =>
    let (o, q') := scrStep q
    let (r, q'') := scramble q' bs
    ((b != o) :: r, q'')

/-- A zero seed is replaced. -/
def seedFix (n : Nat) : Nat := if n = 0 then 0x7FFFFFFF else n

/-- The seed of downstream frame `f` on plane `p` (R35). [DEDUCED, log entry 27] -/
def seedDown (f p : Nat) : Nat :=
  seedFix ((((f % 2 ^ 26) * 32) ||| (p % 32)) ^^^ 0x2F1D86A3)

/-- The seed of the burst of terminal `t` in hub upstream frame `f` (R35). -/
def seedBurst (t f : Nat) : Nat :=
  seedFix ((((t % 2 ^ 10) * 2 ^ 21) ||| (f % 2 ^ 21)) ^^^ 0x1E4CB359)

/-! ## Gray map and precoder (R37, R38) -/

/-- The label of a bit pair. -/
def grayLabel : Bool → Bool → Nat
  | false, false => 0
  | false, true => 1
  | true, true => 2
  | true, false => 3

/-- The bit pair of a label. -/
def grayBits (l : Nat) : List Bool :=
  match l % 4 with
  | 0 => [false, false]
  | 1 => [false, true]
  | 2 => [true, true]
  | _ => [true, false]

/-- The labels of a string of bits, pair by pair. -/
def labelsOf : List Bool → List Nat
  | a :: b :: t => grayLabel a b :: labelsOf t
  | _ => []

/-- The line level of label `l` after line level `y` (R38). -/
def precode (y l : Nat) : Nat := (l + 4 - y % 4) % 4

/-- The label the receiver recovers from line level `y'` after `y` (R38). -/
def unprecode (y y' : Nat) : Nat := (y' + y) % 4

/-! ## Stuffing and the codeword slot (R39 to R42) -/

/-- The run counter after a counted symbol of level `y'` sent after level `y`. -/
def runAfter (run y y' : Nat) : Nat := if y = y' then run + 1 else 1

/-- The reserve and fill level after level `y` (R41). -/
def reserveLevel (y : Nat) : Nat := (y + 2) % 4

/-- The stuff symbol sent after level `y` before a data symbol of label `l` (R40). -/
def stuffLevel (y l : Nat) : Nat :=
  if (2 * ((y + 2) % 4)) % 4 ≠ l % 4 then (y + 2) % 4 else (y + 1) % 4

/-- The state of a lane's line: last level and run counter. -/
structure LineState where
  level : Nat
  run : Nat
  deriving DecidableEq, Repr

/-- Send the labels of one codeword: levels sent, and the line after them (R38 to R40).  A run of 0 stands for a run
ended by a stuff symbol, which is itself not counted. -/
def sendLabels : LineState → List Nat → List Nat × LineState
  | l, [] => ([], l)
  | l, x :: xs =>
    if l.run = 170 then
      let ys := stuffLevel l.level x
      let y := precode ys x
      let (r, l') := sendLabels ⟨y, 1⟩ xs
      (ys :: y :: r, l')
    else
      let y := precode l.level x
      let (r, l') := sendLabels ⟨y, runAfter l.run l.level y⟩ xs
      (y :: r, l')

/-- How many stuff symbols the labels of a codeword take. -/
def stuffsSent (l : LineState) (labels : List Nat) : Nat := (sendLabels l labels).1.length - labels.length

/-- `n` reserve or fill symbols (R41). -/
def sendReserve : Nat → LineState → List Nat × LineState
  | 0, l => ([], l)
  | n + 1, l =>
    let y := reserveLevel l.level
    let (r, l') := sendReserve n ⟨y, runAfter l.run l.level y⟩
    (y :: r, l')

/-- A codeword slot of 2,736 symbols: the labels with their stuff symbols, then reserve (R41). -/
def sendSlot (l : LineState) (labels : List Nat) : List Nat × LineState :=
  let (d, l1) := sendLabels l labels
  let (r, l2) := sendReserve (2736 - d.length) l1
  (d ++ r, l2)

/-- What the receiver makes of a slot: labels, stuff symbols found, whether a 17th would be due, and the line after. -/
structure SlotRx where
  labels : List Nat
  stuffs : Nat
  stuffErr : Bool
  line : LineState
  deriving DecidableEq, Repr

/-- Track levels that are not data (reserve, fill, fixed patterns). -/
def trackLevels : LineState → List Nat → LineState
  | l, [] => l
  | l, y :: ys => trackLevels ⟨y, runAfter l.run l.level y⟩ ys

/-- Destuff the received levels of a slot (R42): `n` data symbols are outstanding, `k` stuff symbols were found.  The
symbol after a run of 170 is discarded as stuff; the symbol after a stuff symbol starts a new run of 1. [DEDUCED, log entry 21] -/
def receiveSlot : LineState → Nat → Nat → List Nat → SlotRx
  | l, 0, k, ys => ⟨[], k, false, trackLevels l ys⟩
  | l, _ + 1, k, [] => ⟨[], k, false, l⟩
  | l, n + 1, k, y :: ys =>
    if l.run = 170 then
      if k = 16 then ⟨[], k, true, trackLevels l (y :: ys)⟩
      else receiveSlot ⟨y, 0⟩ (n + 1) (k + 1) ys
    else
      let r := receiveSlot ⟨y, if l.run = 0 then 1 else runAfter l.run l.level y⟩ n k ys
      ⟨unprecode l.level y :: r.labels, r.stuffs, r.stuffErr, r.line⟩

/-! ## Fixed patterns (R44) -/

/-- `n` bits of the delimiter generator p, from its last eight bits, newest first. -/
def genP : Nat → List Bool → List Bool
  | 0, _ => []
  | n + 1, h =>
    let b := (h.getD 7 false != h.getD 3 false) != (h.getD 2 false != h.getD 1 false)
    b :: genP n (b :: h.take 7)

/-- `n` bits of the generator p from its start: p₋₈ to p₋₁ are all 1. -/
def patternP (n : Nat) : List Bool := genP n (List.replicate 8 true)

/-- `n` bits of the generator q, from its last seven bits, newest first. -/
def genQ : Nat → List Bool → List Bool
  | 0, _ => []
  | n + 1, h =>
    let b := h.getD 6 false != h.getD 5 false
    b :: genQ n (b :: h.take 6)

/-- `n` bits of the generator q from a 7-bit seed whose bit 6 is q₋₇. -/
def patternQ (n seed : Nat) : List Bool := genQ n ((bitsMsb 7 seed).reverse)

/-- Level 3 for a 1, level 0 for a 0. -/
def binLevel (b : Bool) : Nat := if b then 3 else 0

/-- The 256 levels of the frame delimiter. -/
def frameDelimiter : List Nat := (patternP 255).map binLevel ++ [0]

/-- The 64 levels of burst delimiter `d`. -/
def burstDelimiter (d : Nat) : List Nat := (patternQ 64 (16 * d + 1)).map binLevel

/-- The `t` levels of a training burst. -/
def trainingBurst (t : Nat) : List Nat :=
  (List.range (t / 2)).map (fun k => if k % 2 = 0 then 0 else 3) ++ labelsOf (patternP t)

/-- The 32 levels of the end marker. -/
def endMarker : List Nat := (List.replicate 8 [3, 3, 0, 0]).flatten

/-- The 16 marker bits of a bond position (R45). -/
def markerWord (position sizeM1 plane : Nat) : Nat :=
  let w := position % 32 * 2 ^ 11 + sizeM1 % 32 * 2 ^ 6 + plane % 32 * 2
  w + (bitsMsb 16 w).foldl (fun a b => (a + b2n b) % 2) 0

/-- The 48 levels of a lane marker (R44). -/
def laneMarker (position sizeM1 plane : Nat) : List Nat :=
  (bitsMsb 16 (markerWord position sizeM1 plane)).flatMap (fun b => if b then [3, 0, 3] else [0, 3, 0])

/-- How many of the first 256 levels disagree with the delimiter, read high or low (R77). -/
def delimDisagree (levels : List Nat) : Nat :=
  ((levels.zip frameDelimiter).filter (fun p => decide (2 ≤ p.1 % 4) != decide (2 ≤ p.2))).length
    + (256 - levels.length)

/-! ## Test patterns (R58) -/

/-- One symbol of PRBS31: its label and the register after two steps. -/
def prbsSymbol (q : Nat) : Nat × Nat :=
  let (a, q1) := scrStep q
  let (b, q2) := scrStep q1
  (grayLabel a b, q2)

/-! ## Reed-Solomon RS(544,514) (R34) -/

/-- Multiply by α in GF(2^10) with the field polynomial x^10 + x^3 + 1 of the Clause 91 code. -/
def gfDouble (a : Nat) : Nat := if a < 512 then 2 * a else (2 * a) % 1024 ^^^ 9

/-- Multiplication in GF(2^10), by the bits of the second factor from bit `n - 1` down. -/
def gfMulAux : Nat → Nat → Nat → Nat
  | 0, _, _ => 0
  | n + 1, a, b => gfDouble (gfMulAux n a (b / 2)) ^^^ (if b % 2 = 1 then a else 0)

/-- Multiplication in GF(2^10). -/
def gfMul (a b : Nat) : Nat := gfMulAux 10 a b

/-- α to the power `n`. -/
def gfPow : Nat → Nat
  | 0 => 1
  | n + 1 => gfDouble (gfPow n)

/-- The value of the polynomial of a codeword (first symbol highest) at `x`. -/
def gfEval (x : Nat) (c : List Nat) : Nat := c.foldl (fun a s => gfMul a x ^^^ s) 0

/-- Multiply a polynomial (highest coefficient first) by (X - r). -/
def polyMulRoot (r : Nat) (p : List Nat) : List Nat :=
  List.zipWith (· ^^^ ·) (p ++ [0]) (0 :: p.map (gfMul r))

/-- The generator polynomial: the product of (X - α^i) for i from 0 to 29. -/
def rsGenerator : List Nat := (List.range 30).foldl (fun p i => polyMulRoot (gfPow i) p) [1]

/-- The 30 parity symbols of 514 data symbols: the remainder of the data times X^30. -/
def rsParity (data : List Nat) : List Nat :=
  data.foldl (fun r d =>
    let f := r.headD 0 ^^^ d
    List.zipWith (· ^^^ ·) (r.tail ++ [0]) (rsGenerator.tail.map (gfMul f))) (List.replicate 30 0)

/-- The codeword of 514 data symbols. -/
def rsEncode (data : List Nat) : List Nat := data ++ rsParity data

/-- Whether 544 symbols are a codeword: every α^i for i from 0 to 29 is a root. -/
def rsIsCodeword (c : List Nat) : Bool :=
  c.length == 544 && (List.range 30).all (fun i => gfEval (gfPow i) c == 0)

/-- In how many places two strings of symbols differ. -/
def rsDistance (a b : List Nat) : Nat := ((a.zip b).filter (fun p => p.1 != p.2)).length

/-- Cut a string of bits into ten-bit symbols, most significant bit first. -/
def symbolsOf : Nat → List Bool → List Nat
  | 0, _ => []
  | n + 1, l => natOfBits (l.take 10) :: symbolsOf n (l.drop 10)

/-- The inverse in GF(2^10): the product of the squares a^2 to a^512. -/
def gfInv (a : Nat) : Nat :=
  ((List.range 9).foldl (fun (r : Nat × Nat) _ => let q := gfMul r.2 r.2; (gfMul r.1 q, q)) (1, a)).1

/-- Add two polynomials, lowest coefficient first. -/
def polyAdd : List Nat → List Nat → List Nat
  | [], q => q
  | p, [] => p
  | a :: p, b :: q => (a ^^^ b) :: polyAdd p q

/-- Multiply two polynomials, lowest coefficient first. -/
def polyMul : List Nat → List Nat → List Nat
  | [], _ => []
  | a :: p, q => polyAdd (q.map (gfMul a)) (0 :: polyMul p q)

/-- The value at `x` of a polynomial given lowest coefficient first. -/
def polyEval (x : Nat) : List Nat → Nat
  | [] => 0
  | a :: p => a ^^^ gfMul x (polyEval x p)

/-- The formal derivative, lowest coefficient first: in characteristic 2 only odd powers leave a term. -/
def polyDeriv : List Nat → List Nat
  | _ :: b :: p => b :: 0 :: polyDeriv p
  | _ => []

/-- What the search for the error locator keeps: the locator, the locator before its last change of length, that length, the
discrepancy and the shift that go with it. -/
structure Locator where
  poly : List Nat
  prev : List Nat
  len : Nat
  disc : Nat
  shift : Nat
  deriving DecidableEq, Repr

/-- One syndrome more: `seen` holds it first, then those before it, newest first. -/
def Locator.next (l : Locator) (n : Nat) (seen : List Nat) : Locator :=
  let d := (List.zipWith gfMul (l.poly.take (l.len + 1)) seen).foldl (· ^^^ ·) 0
  if d = 0 then { l with shift := l.shift + 1 }
  else
    let step := (List.replicate l.shift 0 ++ l.prev).map (gfMul (gfMul d (gfInv l.disc)))
    let p := polyAdd l.poly step
    if 2 * l.len ≤ n then ⟨p, l.poly, n + 1 - l.len, d, 1⟩ else { l with poly := p, shift := l.shift + 1 }

/-- The error locator of the syndromes still to come. -/
def locatorOf : Locator → Nat → List Nat → List Nat → Locator
  | l, _, _, [] => l
  | l, n, seen, s :: t => locatorOf (l.next n (s :: seen)) (n + 1) (s :: seen) t

/-- The error in the symbol whose power of X is `k`: zero where the locator has no root there. -/
def errorAt (locator evaluator : List Nat) (k : Nat) : Nat :=
  let x := gfPow k
  let y := gfInv x
  if polyEval y locator ≠ 0 then 0 else gfMul x (gfMul (polyEval y evaluator) (gfInv (polyEval y (polyDeriv locator))))

/-- The decoder of RS(544,514) (R34): the codeword that differs from 544 received symbols in at most 15 places, if there is one.
What the search settles on is checked, so nothing that is no codeword, or lies farther away, ever passes for one.
[DEDUCED, log entry 21] -/
def rsDecode (received : List Nat) : Option (List Nat) :=
  let syn := (List.range 30).map (fun i => gfEval (gfPow i) received)
  let c : List Nat :=
    if syn.all (· == 0) then received
    else
      let loc := (locatorOf ⟨[1], [1], 0, 1, 1⟩ 0 [] syn).poly
      let ev := (polyMul syn loc).take 30
      (received.zip (List.range 544).reverse).map (fun e => e.1 ^^^ errorAt loc ev e.2)
  if rsIsCodeword c && decide (rsDistance received c ≤ 15) then some c else none

/-! ## The seed of a frame whose count is not known (R35) -/

/-- The first `n` outputs of the scrambler, as a number with the first one highest. -/
def scrOut (n q : Nat) : Nat := natOfBits (scramble q (List.replicate n false)).1

/-- Gaussian elimination: reduce `v` by the rows (value, combination), each taken at its highest bit. -/
def reduceBy (rows : List (Nat × Nat)) (v c : Nat) : Nat × Nat :=
  rows.foldl (fun (a : Nat × Nat) r => if bitOf a.1 (Nat.log2 r.1) then (a.1 ^^^ r.1, a.2 ^^^ r.2) else a) (v, c)

/-- How each of the low 26 bits of FRAME shows in the last 26 of the first 48 scrambled bits: in its own place, and through the seed.
[DEDUCED, log entry 27] -/
def frameRows : List (Nat × Nat) :=
  (List.range 26).foldl (fun rows j =>
    let r := reduceBy rows ((2 ^ j) ^^^ (scrOut 48 (2 ^ (j + 5)) % 2 ^ 26)) (2 ^ j)
    rows ++ [r]) []

/-- The FRAME that a frame of plane `p` carries, from its first 48 scrambled bits: header bits [255:208] are FRAME, and the seed holds
its low 26 bits. The 26 equations in those bits have one solution. [DEDUCED, log entry 27] -/
def frameOf (p first : Nat) : Nat :=
  let fixed := scrOut 48 ((p % 32) ^^^ 0x2F1D86A3)
  let low := (reduceBy frameRows ((first ^^^ fixed) % 2 ^ 26) 0).2
  (first ^^^ scrOut 48 (seedDown low p)) / 2 ^ 26 * 2 ^ 26 + low

/-! ## Generated test patterns (R58) -/

/-- Symbol `k` of the pattern that PAT_GEN selects and the PRBS31 register after it: PRBS31, the square wave, or the training pattern of
2,048 symbols over and over. -/
def patternSymbol (gen k q : Nat) : Nat × Nat :=
  if gen = 1 then prbsSymbol q
  else if gen = 2 then (if k % 2 = 0 then 0 else 3, q)
  else ((trainingBurst 2048).getD (k % 2048) 0, q)

/-- `n` symbols of a pattern from symbol `k` on. -/
def patternSymbols : Nat → Nat → Nat → Nat → List Nat × Nat
  | 0, _, _, q => ([], q)
  | n + 1, gen, k, q =>
    let (y, q) := patternSymbol gen k q
    let (r, q) := patternSymbols n gen (k + 1) q
    (y :: r, q)

end Sys2Proof.Machine
end

