-- ==== Sys2Proof/Config.lean ====
section
/-!
DEFINITION. What one part or one board fixes and the spec leaves to it (fuses), and the free values: constants without a
body, of which no proof can know a value.
-/

namespace Sys2Proof

/-- SYS.SERIAL: fused, unique to each part (R4). [DESIGN CHOICE, log entry 157] -/
opaque Config.serialNumber : BitVec 64

/-- The ordering code fused into SYS.DEVICE_ID.GRADE: `true` is NX9616-E (GRADE 0x2), `false` NX9616-C (0x1) (R3).
[DESIGN CHOICE, log entry 157] -/
opaque Config.gradeE : Bool

/-- PWR.OP_VOLT: the fused millivolts of the three VDD_PKT and the three VDD_LIM points (R547). [DESIGN CHOICE, log entry 157] -/
opaque Config.operatingVoltages : BitVec 64

/-- The free value number `n`: a value the spec leaves open, one for each count of `State.free` (log entry 3).
[DESIGN CHOICE, log entry 3] -/
opaque Config.freeValue : Nat → BitVec 64

/-- How many packets beyond one the input of a pipe holds (R229 names a full input and states no number). [DESIGN CHOICE, log entry 3] -/
opaque Config.pipeInput : Nat

/-- CODE[11:0] of a fault with a given source and cause, where the spec names the cause (R510) and not the other bits.
[DESIGN CHOICE, log entry 3] -/
opaque Config.faultDetail : Nat → Nat → BitVec 12

/-- Byte `i` of the payload of an idle parcel, which every receiver ignores (R91, R124).
[DESIGN CHOICE, log entry 3; DEDUCED, log entry 39] -/
opaque Config.idleByte : Nat → BitVec 8

/-- The two fixed hash functions of PROFILE and KEY that choose a bucket of the flow table (R236 does not give them).
[DESIGN CHOICE, log entries 3 and 57] -/
opaque Config.flowHash : Bool → Nat → Nat → Nat

/-- The PRBS31 register with which a lane's pattern generator starts: the spec names the free-running sequence, not its phase (R58).
[DESIGN CHOICE, log entry 3; DEDUCED, log entry 25] -/
opaque Config.prbsStart : Nat → BitVec 31

/-- Bytes of the external flash in MiB, 4 to 256 (R484). [DESIGN CHOICE, log entries 3 and 157] -/
opaque Config.flashMib : Nat

/-- The TAP's instructions, whose codes and length the spec does not give (R578): the length of the instruction register, and what an
instruction selects (0 BYPASS, 1 IDCODE, 2 the boundary register). [DESIGN CHOICE, log entry 3; PRESUMED, log entry 5] -/
opaque Config.tapIrLength : Nat
opaque Config.tapSelects : List Bool → Nat

/-- The number of boundary cells, and IDCODE[11:0], which the spec does not give; bit 0 is 1 by IEEE 1149.1 (R578).
[DESIGN CHOICE, log entry 3; PRESUMED, log entry 5] -/
opaque Config.tapCells : Nat
opaque Config.tapMaker : BitVec 12

/-- Whether an instruction is EXTEST, the domain in which the pin of a boundary cell lies (none for AON), and the cell that drives MBEN
of a plane, by place from TDO (R578). [DESIGN CHOICE, log entry 3; PRESUMED, log entry 5] -/
opaque Config.tapExtest : List Bool → Bool
opaque Config.tapCellDomain : Nat → Option (Fin 30)
opaque Config.tapMbenCell : Nat → Nat

end Sys2Proof
end

