-- ==== Sys2Proof/Machine/RegMap.lean ====
section
/-!
DEFINITION. The register map of the control space: the address of every register (R22, R23 and the register table of
each chapter), the bit range of every field, and per register the access type and reset value of its fields (the field
map of each chapter).  A register family takes its index as an argument: `p` the plane, port or core unit, `i` and `k`
the indices of the offset formula.
-/

namespace Sys2Proof.Machine

/-- A field of a 64-bit register: its highest and its lowest bit. -/
structure Fld where
  hi : Nat
  lo : Nat
  deriving DecidableEq, Repr

/-- The access types of R7. -/
inductive Access where
  | ro | rw | wo | w1c | rc | pw
  deriving DecidableEq, Repr

/-- One row of a field map: bits, access type, reset value. -/
structure FieldDesc where
  hi : Nat
  lo : Nat
  access : Access
  reset : Nat
  deriving DecidableEq, Repr

/-- A register family: offset `base + stride * i + stride2 * k` for `i < count`, `k < count2`, with its fields. -/
structure RegDesc where
  base : Nat
  stride : Nat
  count : Nat
  stride2 : Nat
  count2 : Nat
  fields : List FieldDesc
  deriving DecidableEq, Repr

/-- The unit id of a control-space address (R22). -/
def unitOf (a : Nat) : Nat := a / 0x100000000

/-- The byte offset of a control-space address within its unit (R22). -/
def offOf (a : Nat) : Nat := a % 0x100000000

/-! ## Register addresses -/

/-- MED.LANE_CFG. -/
abbrev R.medLaneCfg (p : Nat) : Nat := 0x0 + 0x100000000 * (0x10 + p)
/-- MED.TX_CFG. -/
abbrev R.medTxCfg (p : Nat) : Nat := 0x8 + 0x100000000 * (0x10 + p)
/-- MED.TX_EQ. -/
abbrev R.medTxEq (p : Nat) : Nat := 0x10 + 0x100000000 * (0x10 + p)
/-- MED.RX_CFG. -/
abbrev R.medRxCfg (p : Nat) : Nat := 0x18 + 0x100000000 * (0x10 + p)
/-- MED.LANE_STATUS. -/
abbrev R.medLaneStatus (p : Nat) : Nat := 0x20 + 0x100000000 * (0x10 + p)
/-- MED.DEFECT. -/
abbrev R.medDefect (p : Nat) : Nat := 0x28 + 0x100000000 * (0x10 + p)
/-- MED.FEC_CW. -/
abbrev R.medFecCw (p : Nat) : Nat := 0x30 + 0x100000000 * (0x10 + p)
/-- MED.FEC_CORR. -/
abbrev R.medFecCorr (p : Nat) : Nat := 0x38 + 0x100000000 * (0x10 + p)
/-- MED.FEC_UNCORR. -/
abbrev R.medFecUncorr (p : Nat) : Nat := 0x40 + 0x100000000 * (0x10 + p)
/-- MED.STUFF_ERR. -/
abbrev R.medStuffErr (p : Nat) : Nat := 0x48 + 0x100000000 * (0x10 + p)
/-- MED.TEST. -/
abbrev R.medTest (p : Nat) : Nat := 0x50 + 0x100000000 * (0x10 + p)
/-- MED.TEST_ERR. -/
abbrev R.medTestErr (p : Nat) : Nat := 0x58 + 0x100000000 * (0x10 + p)
/-- DFP.CFG. -/
abbrev R.dfpCfg : Nat := 0xF000000000
/-- DFP.IDENT. -/
abbrev R.dfpIdent : Nat := 0xF000000008
/-- DFP.STATUS. -/
abbrev R.dfpStatus : Nat := 0xF000000010
/-- DFP.SD_CFG. -/
abbrev R.dfpSdCfg : Nat := 0xF000000018
/-- DFP.RSQ_CFG. -/
abbrev R.dfpRsqCfg : Nat := 0xF000000020
/-- DFP.RSQ_STATUS. -/
abbrev R.dfpRsqStatus : Nat := 0xF000000028
/-- DFP.OWN_WRITE. -/
abbrev R.dfpOwnWrite : Nat := 0xF000000050
/-- DFP.OWN_PROBE. -/
abbrev R.dfpOwnProbe : Nat := 0xF000000058
/-- DFP.RSQ_PROFILEk. -/
abbrev R.dfpRsqProfile (i : Nat) : Nat := 0xF000000000 + 0x30 + 0x8 * i
/-- DFP.MSG_ACCEPTk. -/
abbrev R.dfpMsgAccept (i : Nat) : Nat := 0xF000000000 + 0x60 + 0x8 * i
/-- DFP.DISP_COUNTc. -/
abbrev R.dfpDispCount (i : Nat) : Nat := 0xF000000000 + 0x80 + 0x8 * i
/-- DFP.PLANE_STATUS. -/
abbrev R.dfpPlaneStatus (i : Nat) : Nat := 0xF000000000 + 0x1000 + 0x80 * i
/-- DFP.PLANE_DEFECT. -/
abbrev R.dfpPlaneDefect (i : Nat) : Nat := 0xF000000000 + 0x1008 + 0x80 * i
/-- DFP.PLANE_FRAME. -/
abbrev R.dfpPlaneFrame (i : Nat) : Nat := 0xF000000000 + 0x1010 + 0x80 * i
/-- DFP.PLANE_OFFSET. -/
abbrev R.dfpPlaneOffset (i : Nat) : Nat := 0xF000000000 + 0x1018 + 0x80 * i
/-- DFP.FRAMES_GOOD. -/
abbrev R.dfpFramesGood (i : Nat) : Nat := 0xF000000000 + 0x1020 + 0x80 * i
/-- DFP.FRAMES_BAD. -/
abbrev R.dfpFramesBad (i : Nat) : Nat := 0xF000000000 + 0x1028 + 0x80 * i
/-- DFP.GRANTS_ACC. -/
abbrev R.dfpGrantsAcc (i : Nat) : Nat := 0xF000000000 + 0x1030 + 0x80 * i
/-- DFP.GRANTS_DISC. -/
abbrev R.dfpGrantsDisc (i : Nat) : Nat := 0xF000000000 + 0x1038 + 0x80 * i
/-- DFP.MSG_RX. -/
abbrev R.dfpMsgRx (i : Nat) : Nat := 0xF000000000 + 0x1040 + 0x80 * i
/-- DFP.MSG_DISC. -/
abbrev R.dfpMsgDisc (i : Nat) : Nat := 0xF000000000 + 0x1048 + 0x80 * i
/-- DFP.MSG_UNKNOWN. -/
abbrev R.dfpMsgUnknown (i : Nat) : Nat := 0xF000000000 + 0x1050 + 0x80 * i
/-- DFP.PARCELS. -/
abbrev R.dfpParcels (i : Nat) : Nat := 0xF000000000 + 0x1058 + 0x80 * i
/-- DFP.PARCEL_BYTES. -/
abbrev R.dfpParcelBytes (i : Nat) : Nat := 0xF000000000 + 0x1060 + 0x80 * i
/-- DFP.HUNT_BITS. -/
abbrev R.dfpHuntBits (i : Nat) : Nat := 0xF000000000 + 0x1068 + 0x80 * i
/-- UBB.CFG. -/
abbrev R.ubbCfg : Nat := 0xF100000000
/-- UBB.STATUS. -/
abbrev R.ubbStatus : Nat := 0xF100000008
/-- UBB.FLOW_WRITE. -/
abbrev R.ubbFlowWrite : Nat := 0xF100000010
/-- UBB.FLOW_PROBE. -/
abbrev R.ubbFlowProbe : Nat := 0xF100000018
/-- UBB.BDISP_COUNTc. -/
abbrev R.ubbBdispCount (i : Nat) : Nat := 0xF100000000 + 0x80 + 0x8 * i
/-- UBB.PDISP_COUNTc. -/
abbrev R.ubbPdispCount (i : Nat) : Nat := 0xF100000000 + 0x100 + 0x8 * i
/-- UBB.PLANE_CTL. -/
abbrev R.ubbPlaneCtl (i : Nat) : Nat := 0xF100000000 + 0x1000 + 0x80 * i
/-- UBB.PLANE_EQD. -/
abbrev R.ubbPlaneEqd (i : Nat) : Nat := 0xF100000000 + 0x1008 + 0x80 * i
/-- UBB.PLANE_GROUPS. -/
abbrev R.ubbPlaneGroups (i : Nat) : Nat := 0xF100000000 + 0x1010 + 0x80 * i
/-- UBB.PLANE_DEFECT. -/
abbrev R.ubbPlaneDefect (i : Nat) : Nat := 0xF100000000 + 0x1018 + 0x80 * i
/-- UBB.BURSTS. -/
abbrev R.ubbBursts (i : Nat) : Nat := 0xF100000000 + 0x1060 + 0x80 * i
/-- UBB.SLOTS. -/
abbrev R.ubbSlots (i : Nat) : Nat := 0xF100000000 + 0x1068 + 0x80 * i
/-- UBB.LAST_BURST. -/
abbrev R.ubbLastBurst (i : Nat) : Nat := 0xF100000000 + 0x1070 + 0x80 * i
/-- UBB.PROFILEk. -/
abbrev R.ubbProfile (i k : Nat) : Nat := 0xF100000000 + 0x1020 + 0x80 * i + 0x8 * k
/-- WARD.STATUS. -/
abbrev R.wardStatus : Nat := 0x9C00000000
/-- WARD.CODE. -/
abbrev R.wardCode : Nat := 0x9C00000008
/-- WARD.CODE_CHECK. -/
abbrev R.wardCodeCheck : Nat := 0x9C00000010
/-- WARD.VIOL_LOG. -/
abbrev R.wardViolLog : Nat := 0x9C00000018
/-- WARD.COUNTS. -/
abbrev R.wardCounts : Nat := 0x9C00000020
/-- WARD.PLANE_EQDp. -/
abbrev R.wardPlaneEqd (i : Nat) : Nat := 0x9C00000000 + 0x100 + 0x8 * i
/-- SYS.DEVICE_ID. -/
abbrev R.sysDeviceId : Nat := 0x100000000
/-- SYS.SERIAL. -/
abbrev R.sysSerial : Nat := 0x100000008
/-- SYS.STRAPS. -/
abbrev R.sysStraps : Nat := 0x100000010
/-- SYS.RESET_CAUSE. -/
abbrev R.sysResetCause : Nat := 0x100000018
/-- SYS.TERM_STATE. -/
abbrev R.sysTermState : Nat := 0x100000040
/-- SYS.PLANE_STATE0. -/
abbrev R.sysPlaneState0 : Nat := 0x100000048
/-- SYS.PLANE_STATE1. -/
abbrev R.sysPlaneState1 : Nat := 0x100000050
/-- SYS.CAPABILITY. -/
abbrev R.sysCapability : Nat := 0x100000058
/-- SYS.RANDOM. -/
abbrev R.sysRandom : Nat := 0x100000060
/-- SYS.ENROL_COUNTS. -/
abbrev R.sysEnrolCounts : Nat := 0x100000068
/-- SYS.MEDIUM_COUNTS. -/
abbrev R.sysMediumCounts : Nat := 0x100000070
/-- SYS.REJECT_COUNTS. -/
abbrev R.sysRejectCounts : Nat := 0x100000078
/-- TIME.CFG. -/
abbrev R.timeCfg : Nat := 0x500000000
/-- TIME.STATUS. -/
abbrev R.timeStatus : Nat := 0x500000008
/-- TIME.REF_CFG. -/
abbrev R.timeRefCfg : Nat := 0x500000010
/-- TIME.REF_STATUS. -/
abbrev R.timeRefStatus : Nat := 0x500000018
/-- TIME.CLK_CFG. -/
abbrev R.timeClkCfg : Nat := 0x500000020
/-- TIME.SNAP_CTL. -/
abbrev R.timeSnapCtl : Nat := 0x500000028
/-- TIME.SNAP_LP_F. -/
abbrev R.timeSnapLpF : Nat := 0x500000030
/-- TIME.SNAP_LP_CS. -/
abbrev R.timeSnapLpCs : Nat := 0x500000038
/-- TIME.SNAP_SEC. -/
abbrev R.timeSnapSec : Nat := 0x500000040
/-- TIME.SNAP_NS. -/
abbrev R.timeSnapNs : Nat := 0x500000048
/-- TIME.ANCHOR_ERR. -/
abbrev R.timeAnchorErr : Nat := 0x500000050
/-- TIME.COUNTS. -/
abbrev R.timeCounts : Nat := 0x500000058
/-- TIME.STEP_FRAME. -/
abbrev R.timeStepFrame : Nat := 0x500000060
/-- TIME.STEP_SEC. -/
abbrev R.timeStepSec : Nat := 0x500000068
/-- TIME.STEP_NS. -/
abbrev R.timeStepNs : Nat := 0x500000070
/-- TIME.PLANE_RTDp. -/
abbrev R.timePlaneRtd (i : Nat) : Nat := 0x500000000 + 0x100 + 0x8 * i
/-- TIME.PLANE_ASYMp. -/
abbrev R.timePlaneAsym (i : Nat) : Nat := 0x500000000 + 0x200 + 0x8 * i
/-- TIME.TPO_CFGi. -/
abbrev R.timeTpoCfg (i : Nat) : Nat := 0x500000000 + 0x300 + 0x20 * i
/-- TIME.TPO_T0i. -/
abbrev R.timeTpoT0 (i : Nat) : Nat := 0x500000000 + 0x308 + 0x20 * i
/-- TIME.TPO_T1i. -/
abbrev R.timeTpoT1 (i : Nat) : Nat := 0x500000000 + 0x310 + 0x20 * i
/-- TIME.TPO_PERIODi. -/
abbrev R.timeTpoPeriod (i : Nat) : Nat := 0x500000000 + 0x318 + 0x20 * i
/-- TIME.TCI_CFGj. -/
abbrev R.timeTciCfg (i : Nat) : Nat := 0x500000000 + 0x400 + 0x20 * i
/-- TIME.TCI_HIj. -/
abbrev R.timeTciHi (i : Nat) : Nat := 0x500000000 + 0x408 + 0x20 * i
/-- TIME.TCI_LOj. -/
abbrev R.timeTciLo (i : Nat) : Nat := 0x500000000 + 0x410 + 0x20 * i
/-- CLS.CFG. -/
abbrev R.clsCfg : Nat := 0x9000000000
/-- CLS.STATUS. -/
abbrev R.clsStatus : Nat := 0x9000000008
/-- CLS.ED_CTL. -/
abbrev R.clsEdCtl : Nat := 0x9000000010
/-- CLS.ED_STATUS. -/
abbrev R.clsEdStatus : Nat := 0x9000000018
/-- CLS.TABLE_MODE. -/
abbrev R.clsTableMode : Nat := 0x9000000020
/-- CLS.CMD. -/
abbrev R.clsCmd : Nat := 0x9000000028
/-- CLS.PAT_CFG. -/
abbrev R.clsPatCfg : Nat := 0x9000000030
/-- CLS.PAT_TRUNC. -/
abbrev R.clsPatTrunc : Nat := 0x9000000038
/-- CLS.DATAk. -/
abbrev R.clsData (i : Nat) : Nat := 0x9000000000 + 0x100 + 0x8 * i
/-- CLS.PUNT_Qr. -/
abbrev R.clsPuntQ (i : Nat) : Nat := 0x9000000000 + 0x200 + 0x8 * i
/-- CLS.OUT_COUNTc. -/
abbrev R.clsOutCount (i : Nat) : Nat := 0x9000000000 + 0x280 + 0x8 * i
/-- QM.STATUS. -/
abbrev R.qmStatus : Nat := 0x9100000000
/-- QM.POOL_CFG. -/
abbrev R.qmPoolCfg : Nat := 0x9100000008
/-- QM.HBM_CFG. -/
abbrev R.qmHbmCfg : Nat := 0x9100000010
/-- QM.POOL_UP. -/
abbrev R.qmPoolUp : Nat := 0x9100000018
/-- QM.POOL_DN. -/
abbrev R.qmPoolDn : Nat := 0x9100000020
/-- QM.HBM_USE. -/
abbrev R.qmHbmUse : Nat := 0x9100000028
/-- QM.HBM_STACK. -/
abbrev R.qmHbmStack : Nat := 0x9100000030
/-- QM.CMD. -/
abbrev R.qmCmd : Nat := 0x9100000038
/-- QM.DATA0. -/
abbrev R.qmData0 : Nat := 0x9100000100
/-- QM.DATA1. -/
abbrev R.qmData1 : Nat := 0x9100000108
/-- QM.DATA2. -/
abbrev R.qmData2 : Nat := 0x9100000110
/-- QM.DATA3. -/
abbrev R.qmData3 : Nat := 0x9100000118
/-- QM.DROP_COUNTc. -/
abbrev R.qmDropCount (i : Nat) : Nat := 0x9100000000 + 0x200 + 0x8 * i
/-- SCH.CFG. -/
abbrev R.schCfg : Nat := 0x9200000000
/-- SCH.STATUS. -/
abbrev R.schStatus : Nat := 0x9200000008
/-- SCH.CMD. -/
abbrev R.schCmd : Nat := 0x9200000010
/-- SCH.WHEEL_LATE. -/
abbrev R.schWheelLate : Nat := 0x9200000018
/-- SCH.DATA0. -/
abbrev R.schData0 : Nat := 0x9200000100
/-- SCH.DATA1. -/
abbrev R.schData1 : Nat := 0x9200000108
/-- SCH.DATA2. -/
abbrev R.schData2 : Nat := 0x9200000110
/-- SCH.DATA3. -/
abbrev R.schData3 : Nat := 0x9200000118
/-- PIPE_PKTSn. -/
abbrev R.pipePkts (p i : Nat) : Nat := 0x0 + 0x8 * i + 0x100000000 * (0x93 + p)
/-- PIPE_DROPn. -/
abbrev R.pipeDrop (p i : Nat) : Nat := 0x40 + 0x8 * i + 0x100000000 * (0x93 + p)
/-- CLI.CFG. -/
abbrev R.cliCfg (p : Nat) : Nat := 0x0 + 0x100000000 * (0x30 + p)
/-- CLI.STATUS. -/
abbrev R.cliStatus (p : Nat) : Nat := 0x8 + 0x100000000 * (0x30 + p)
/-- CLI.SERDES. -/
abbrev R.cliSerdes (p : Nat) : Nat := 0x10 + 0x100000000 * (0x30 + p)
/-- CLI.MAC_ADDR. -/
abbrev R.cliMacAddr (p : Nat) : Nat := 0x18 + 0x100000000 * (0x30 + p)
/-- CLI.RX_CFG. -/
abbrev R.cliRxCfg (p : Nat) : Nat := 0x20 + 0x100000000 * (0x30 + p)
/-- CLI.FC_CFG. -/
abbrev R.cliFcCfg (p : Nat) : Nat := 0x28 + 0x100000000 * (0x30 + p)
/-- CLI.FC_THR. -/
abbrev R.cliFcThr (p : Nat) : Nat := 0x30 + 0x100000000 * (0x30 + p)
/-- CLI.TS_COMP. -/
abbrev R.cliTsComp (p : Nat) : Nat := 0x38 + 0x100000000 * (0x30 + p)
/-- CLI.RTAG_CFG. -/
abbrev R.cliRtagCfg (p : Nat) : Nat := 0x40 + 0x100000000 * (0x30 + p)
/-- CLI.GCL_CFG. -/
abbrev R.cliGclCfg (p : Nat) : Nat := 0x48 + 0x100000000 * (0x30 + p)
/-- CLI.GCL_BASE_SEC. -/
abbrev R.cliGclBaseSec (p : Nat) : Nat := 0x50 + 0x100000000 * (0x30 + p)
/-- CLI.GCL_BASE_NS. -/
abbrev R.cliGclBaseNs (p : Nat) : Nat := 0x58 + 0x100000000 * (0x30 + p)
/-- CLI.GCL_CTL. -/
abbrev R.cliGclCtl (p : Nat) : Nat := 0x60 + 0x100000000 * (0x30 + p)
/-- CLI.GCL_STATUS. -/
abbrev R.cliGclStatus (p : Nat) : Nat := 0x68 + 0x100000000 * (0x30 + p)
/-- CLI.GCL_ADDR. -/
abbrev R.cliGclAddr (p : Nat) : Nat := 0x70 + 0x100000000 * (0x30 + p)
/-- CLI.GCL_DATA. -/
abbrev R.cliGclData (p : Nat) : Nat := 0x78 + 0x100000000 * (0x30 + p)
/-- CLI.RX_FRAMES. -/
abbrev R.cliRxFrames (p : Nat) : Nat := 0x100 + 0x100000000 * (0x30 + p)
/-- CLI.RX_BYTES. -/
abbrev R.cliRxBytes (p : Nat) : Nat := 0x108 + 0x100000000 * (0x30 + p)
/-- CLI.TX_FRAMES. -/
abbrev R.cliTxFrames (p : Nat) : Nat := 0x110 + 0x100000000 * (0x30 + p)
/-- CLI.TX_BYTES. -/
abbrev R.cliTxBytes (p : Nat) : Nat := 0x118 + 0x100000000 * (0x30 + p)
/-- CLI.FILTERf. -/
abbrev R.cliFilter (p i : Nat) : Nat := 0x80 + 0x8 * i + 0x100000000 * (0x30 + p)
/-- CLI.COUNTc. -/
abbrev R.cliCount (p i : Nat) : Nat := 0x180 + 0x8 * i + 0x100000000 * (0x30 + p)
/-- CIRC.CFG. -/
abbrev R.circCfg : Nat := 0x9600000000
/-- CIRC.STATUS. -/
abbrev R.circStatus : Nat := 0x9600000008
/-- CIRC.CMD. -/
abbrev R.circCmd : Nat := 0x9600000010
/-- CIRC.DATA0. -/
abbrev R.circData0 : Nat := 0x9600000100
/-- CIRC.DATA1. -/
abbrev R.circData1 : Nat := 0x9600000108
/-- CIRC.DATA2. -/
abbrev R.circData2 : Nat := 0x9600000110
/-- CIRC.COUNTc. -/
abbrev R.circCount (i : Nat) : Nat := 0x9600000000 + 0x200 + 0x8 * i
/-- CIRC.DCC_MAPn. -/
abbrev R.circDccMap (i : Nat) : Nat := 0x9600000000 + 0x4000 + 0x8 * i
/-- CIRC.LANE_CFG. -/
abbrev R.circLaneCfg (i : Nat) : Nat := 0x9600000000 + 0x1000 + 0x40 * i
/-- CIRC.LANE_K. -/
abbrev R.circLaneK (i : Nat) : Nat := 0x9600000000 + 0x1008 + 0x40 * i
/-- CIRC.LANE_STATUS. -/
abbrev R.circLaneStatus (i : Nat) : Nat := 0x9600000000 + 0x1010 + 0x40 * i
/-- CIRC.LANE_DEFECT. -/
abbrev R.circLaneDefect (i : Nat) : Nat := 0x9600000000 + 0x1018 + 0x40 * i
/-- CIRC.LANE_BIP. -/
abbrev R.circLaneBip (i : Nat) : Nat := 0x9600000000 + 0x1020 + 0x40 * i
/-- CIPH.CFG. -/
abbrev R.ciphCfg : Nat := 0x9500000000
/-- CIPH.STATUS. -/
abbrev R.ciphStatus : Nat := 0x9500000008
/-- CIPH.KEY_CTL. -/
abbrev R.ciphKeyCtl : Nat := 0x9500000010
/-- CIPH.KEY_STATUS. -/
abbrev R.ciphKeyStatus : Nat := 0x9500000018
/-- CIPH.KEY_CHECK. -/
abbrev R.ciphKeyCheck : Nat := 0x9500000020
/-- CIPH.SA_CMD. -/
abbrev R.ciphSaCmd : Nat := 0x9500000048
/-- CIPH.KEY_DATAk. -/
abbrev R.ciphKeyData (i : Nat) : Nat := 0x9500000000 + 0x28 + 0x8 * i
/-- CIPH.SA_DATAk. -/
abbrev R.ciphSaData (i : Nat) : Nat := 0x9500000000 + 0x50 + 0x8 * i
/-- CIPH.COUNTc. -/
abbrev R.ciphCount (i : Nat) : Nat := 0x9500000000 + 0x100 + 0x8 * i
/-- CIPH.LAQ_CFGq. -/
abbrev R.ciphLaqCfg (i : Nat) : Nat := 0x9500000000 + 0x200 + 0x8 * i
/-- LSCH.CFG. -/
abbrev R.lschCfg : Nat := 0x9A00000000
/-- LSCH.STATUS. -/
abbrev R.lschStatus : Nat := 0x9A00000008
/-- LSCH.CMD. -/
abbrev R.lschCmd : Nat := 0x9A00000010
/-- LSCH.DATA0. -/
abbrev R.lschData0 : Nat := 0x9A00000018
/-- LSCH.DATA1. -/
abbrev R.lschData1 : Nat := 0x9A00000020
/-- LSCH.HBM_AREA. -/
abbrev R.lschHbmArea : Nat := 0x9A00000028
/-- LSCH.IMG_ADDR. -/
abbrev R.lschImgAddr : Nat := 0x9A00000030
/-- LSCH.LOAD_CTL. -/
abbrev R.lschLoadCtl : Nat := 0x9A00000038
/-- LSCH.SWAP_F. -/
abbrev R.lschSwapF : Nat := 0x9A00000040
/-- LSCH.SWAP_CTL. -/
abbrev R.lschSwapCtl : Nat := 0x9A00000048
/-- LSCH.COUNTc. -/
abbrev R.lschCount (i : Nat) : Nat := 0x9A00000000 + 0x100 + 0x8 * i
/-- LATCH.STATUS. -/
abbrev R.latchStatus : Nat := 0x9B00000000
/-- LATCH.PROBE. -/
abbrev R.latchProbe : Nat := 0x9B00000008
/-- LATCH.COUNTS. -/
abbrev R.latchCounts : Nat := 0x9B00000010
/-- CORE.CFG. -/
abbrev R.coreCfg (p : Nat) : Nat := 0x0 + 0x100000000 * (0xA0 + p)
/-- CORE.STATUS. -/
abbrev R.coreStatus (p : Nat) : Nat := 0x8 + 0x100000000 * (0xA0 + p)
/-- GATE.STATUS. -/
abbrev R.gateStatus : Nat := 0x0
/-- GATE.EVENT. -/
abbrev R.gateEvent : Nat := 0x8
/-- GATE.EVENT_CFG. -/
abbrev R.gateEventCfg : Nat := 0x10
/-- GATE.COUNTS. -/
abbrev R.gateCounts : Nat := 0x18
/-- GATE.INSP_ADDR. -/
abbrev R.gateInspAddr : Nat := 0x20
/-- GATE.INSP_DATA. -/
abbrev R.gateInspData : Nat := 0x28
/-- GATE.INSP_STATUS. -/
abbrev R.gateInspStatus : Nat := 0x30
/-- GATE.CMD_BASE. -/
abbrev R.gateCmdBase : Nat := 0x40
/-- GATE.CMD_CTL. -/
abbrev R.gateCmdCtl : Nat := 0x48
/-- GATE.CMD_IDX. -/
abbrev R.gateCmdIdx : Nat := 0x50
/-- GATE.CPL_BASE. -/
abbrev R.gateCplBase : Nat := 0x58
/-- GATE.CPL_CTL. -/
abbrev R.gateCplCtl : Nat := 0x60
/-- GATE.CPL_IDX. -/
abbrev R.gateCplIdx : Nat := 0x68
/-- GATE.CPL_TAILWB. -/
abbrev R.gateCplTailwb : Nat := 0x70
/-- GATE.PL_CTL. -/
abbrev R.gatePlCtl : Nat := 0x80
/-- GATE.PL_STATUS. -/
abbrev R.gatePlStatus : Nat := 0x88
/-- GATE.CH_OWNERc. -/
abbrev R.gateChOwner (i : Nat) : Nat := 0 + 0x1000 + 0x8 * i
/-- PCIE.STATUS. -/
abbrev R.pcieStatus : Nat := 0x9900000000
/-- PCIE.CFG. -/
abbrev R.pcieCfg : Nat := 0x9900000008
/-- PCIE.ERR_COUNTS. -/
abbrev R.pcieErrCounts : Nat := 0x9900000010
/-- DMA.STATUS. -/
abbrev R.dmaStatus : Nat := 0x9800000000
/-- DMA.CH_CFG. -/
abbrev R.dmaChCfg (i : Nat) : Nat := 0x9800000000 + 0x10000 + 0x1000 * i
/-- DMA.CH_HEAD. -/
abbrev R.dmaChHead (i : Nat) : Nat := 0x9800000000 + 0x10008 + 0x1000 * i
/-- DMA.CH_RING. -/
abbrev R.dmaChRing (i : Nat) : Nat := 0x9800000000 + 0x10010 + 0x1000 * i
/-- DMA.CH_RING_CFG. -/
abbrev R.dmaChRingCfg (i : Nat) : Nat := 0x9800000000 + 0x10018 + 0x1000 * i
/-- DMA.CH_TAILWB. -/
abbrev R.dmaChTailwb (i : Nat) : Nat := 0x9800000000 + 0x10020 + 0x1000 * i
/-- DMA.CH_CTL. -/
abbrev R.dmaChCtl (i : Nat) : Nat := 0x9800000000 + 0x10080 + 0x1000 * i
/-- DMA.CH_DOORBELL. -/
abbrev R.dmaChDoorbell (i : Nat) : Nat := 0x9800000000 + 0x10088 + 0x1000 * i
/-- DMA.CH_STATUS. -/
abbrev R.dmaChStatus (i : Nat) : Nat := 0x9800000000 + 0x10090 + 0x1000 * i
/-- DMA.CH_CUR. -/
abbrev R.dmaChCur (i : Nat) : Nat := 0x9800000000 + 0x10098 + 0x1000 * i
/-- DMA.CH_DONE. -/
abbrev R.dmaChDone (i : Nat) : Nat := 0x9800000000 + 0x100A0 + 0x1000 * i
/-- DMA.CH_RING_IDX. -/
abbrev R.dmaChRingIdx (i : Nat) : Nat := 0x9800000000 + 0x100A8 + 0x1000 * i
/-- DMA.CH_COUNTS. -/
abbrev R.dmaChCounts (i : Nat) : Nat := 0x9800000000 + 0x100B0 + 0x1000 * i
/-- DMA.CH_ID. -/
abbrev R.dmaChId (i : Nat) : Nat := 0x9800000000 + 0x100B8 + 0x1000 * i
/-- DMA.CH_ACT_CFG. -/
abbrev R.dmaChActCfg (i : Nat) : Nat := 0x9800000000 + 0x10040 + 0x1000 * i
/-- DMA.CH_ACT_HEAD. -/
abbrev R.dmaChActHead (i : Nat) : Nat := 0x9800000000 + 0x10048 + 0x1000 * i
/-- DMA.CH_ACT_RING. -/
abbrev R.dmaChActRing (i : Nat) : Nat := 0x9800000000 + 0x10050 + 0x1000 * i
/-- DMA.CH_ACT_RING_CFG. -/
abbrev R.dmaChActRingCfg (i : Nat) : Nat := 0x9800000000 + 0x10058 + 0x1000 * i
/-- DMA.CH_ACT_TAILWB. -/
abbrev R.dmaChActTailwb (i : Nat) : Nat := 0x9800000000 + 0x10060 + 0x1000 * i
/-- HINGE.CFG. -/
abbrev R.hingeCfg : Nat := 0x9700000000
/-- HINGE.PAIR. -/
abbrev R.hingePair : Nat := 0x9700000008
/-- HINGE.STATUS. -/
abbrev R.hingeStatus : Nat := 0x9700000010
/-- HINGE.PEER_SERIAL. -/
abbrev R.hingePeerSerial : Nat := 0x9700000018
/-- HINGE.COUNTS0. -/
abbrev R.hingeCounts0 : Nat := 0x9700000020
/-- HINGE.COUNTS1. -/
abbrev R.hingeCounts1 : Nat := 0x9700000028
/-- HINGE.SERDESl. -/
abbrev R.hingeSerdes (i : Nat) : Nat := 0x9700000000 + 0x40 + 0x8 * i
/-- MBOX.STATUS. -/
abbrev R.mboxStatus : Nat := 0x9D00000000
/-- MBOX.TO_CTL. -/
abbrev R.mboxToCtl : Nat := 0x9D00000008
/-- MBOX.FROM_CTL. -/
abbrev R.mboxFromCtl : Nat := 0x9D00000010
/-- MBOX.PREURA_CTL. -/
abbrev R.mboxPreuraCtl : Nat := 0x9D00000018
/-- MBOX.SENTINEL. -/
abbrev R.mboxSentinel : Nat := 0x9D00000020
/-- MBOX.SWAP_CTL. -/
abbrev R.mboxSwapCtl : Nat := 0x9D00000028
/-- MBOX.SWAP0. -/
abbrev R.mboxSwap0 : Nat := 0x9D00000030
/-- MBOX.SWAP1. -/
abbrev R.mboxSwap1 : Nat := 0x9D00000038
/-- MBOX.SWAP2. -/
abbrev R.mboxSwap2 : Nat := 0x9D00000040
/-- MBOX.SWAP3. -/
abbrev R.mboxSwap3 : Nat := 0x9D00000048
/-- MBOX.SWAP4. -/
abbrev R.mboxSwap4 : Nat := 0x9D00000050
/-- MBOX.SENSE_STAMP. -/
abbrev R.mboxSenseStamp : Nat := 0x9D00000058
/-- MBOX.TO_DATAk. -/
abbrev R.mboxToData (i : Nat) : Nat := 0x9D00000000 + 0x80 + 0x8 * i
/-- MBOX.FROM_DATAk. -/
abbrev R.mboxFromData (i : Nat) : Nat := 0x9D00000000 + 0x180 + 0x8 * i
/-- MBOX.TEMPn. -/
abbrev R.mboxTemp (i : Nat) : Nat := 0x9D00000000 + 0x300 + 0x8 * i
/-- MBOX.VOLTn. -/
abbrev R.mboxVolt (i : Nat) : Nat := 0x9D00000000 + 0x340 + 0x8 * i
/-- FLT.STATUS. -/
abbrev R.fltStatus : Nat := 0x400000000
/-- FLT.STATUS_C. -/
abbrev R.fltStatusC : Nat := 0x400000008
/-- FLT.STATUS_U. -/
abbrev R.fltStatusU : Nat := 0x400000010
/-- FLT.STATUS_D. -/
abbrev R.fltStatusD : Nat := 0x400000018
/-- FLT.STATUS_F. -/
abbrev R.fltStatusF : Nat := 0x400000020
/-- FLT.WIRE. -/
abbrev R.fltWire : Nat := 0x400000028
/-- FLT.MASK_ERR. -/
abbrev R.fltMaskErr : Nat := 0x400000030
/-- FLT.RESTARTING. -/
abbrev R.fltRestarting : Nat := 0x400000038
/-- FLT.FIRST_INFOk. -/
abbrev R.fltFirstInfo (i : Nat) : Nat := 0x400000000 + 0x40 + 0x18 * i
/-- FLT.FIRST_SECk. -/
abbrev R.fltFirstSec (i : Nat) : Nat := 0x400000000 + 0x48 + 0x18 * i
/-- FLT.FIRST_NSk. -/
abbrev R.fltFirstNs (i : Nat) : Nat := 0x400000000 + 0x50 + 0x18 * i
/-- FLT.CAP_INFO. -/
abbrev R.fltCapInfo : Nat := 0x400000088
/-- FLT.CAP_SEC. -/
abbrev R.fltCapSec : Nat := 0x400000090
/-- FLT.CAP_NS. -/
abbrev R.fltCapNs : Nat := 0x400000098
/-- FLT.DISP_CTL. -/
abbrev R.fltDispCtl : Nat := 0x4000000A0
/-- FLT.DISPw. -/
abbrev R.fltDisp (i : Nat) : Nat := 0x400000000 + 0x100 + 0x8 * i
/-- FLT.C_COUNTs. -/
abbrev R.fltCCount (i : Nat) : Nat := 0x400000000 + 0x200 + 0x8 * i
/-- PWR.STATUS. -/
abbrev R.pwrStatus : Nat := 0x200000000
/-- PWR.REQ. -/
abbrev R.pwrReq : Nat := 0x200000008
/-- PWR.DEGRADE. -/
abbrev R.pwrDegrade : Nat := 0x200000010
/-- PWR.OP. -/
abbrev R.pwrOp : Nat := 0x200000018
/-- PWR.AVS_STATUS. -/
abbrev R.pwrAvsStatus : Nat := 0x200000020
/-- PWR.OP_VOLT. -/
abbrev R.pwrOpVolt : Nat := 0x200000028
/-- PWR.CHIP_RESET. -/
abbrev R.pwrChipReset : Nat := 0x200000030
/-- PWR.DOMd. -/
abbrev R.pwrDom (i : Nat) : Nat := 0x200000000 + 0x100 + 0x8 * i
/-- CLK.PLL_STATUS. -/
abbrev R.clkPllStatus : Nat := 0x300000000
/-- CLK.REF_STATUS. -/
abbrev R.clkRefStatus : Nat := 0x300000008
/-- CLK.RUNNING. -/
abbrev R.clkRunning : Nat := 0x300000010
/-- CLK.COUNTS. -/
abbrev R.clkCounts : Nat := 0x300000018
/-- MON.STATUS. -/
abbrev R.monStatus : Nat := 0x600000008
/-- MON.BW_CFG. -/
abbrev R.monBwCfg : Nat := 0x600000010
/-- MON.BW_STATUS. -/
abbrev R.monBwStatus : Nat := 0x600000018
/-- MON.DUMP_CTLk. -/
abbrev R.monDumpCtl (i : Nat) : Nat := 0x600000000 + 0x100 + 0x10 * i
/-- MON.DUMP_LPk. -/
abbrev R.monDumpLp (i : Nat) : Nat := 0x600000000 + 0x108 + 0x10 * i
/-- MON.BW_RXc. -/
abbrev R.monBwRx (i : Nat) : Nat := 0x600000000 + 0x1000 + 0x10 * i
/-- MON.BW_TXc. -/
abbrev R.monBwTx (i : Nat) : Nat := 0x600000000 + 0x1008 + 0x10 * i
/-- PMC_CTL. -/
abbrev R.pmcCtl (u : Nat) : Nat := 0xF000 + 0x100000000 * u
/-- PMC_SEL. -/
abbrev R.pmcSel (u : Nat) : Nat := 0xF008 + 0x100000000 * u
/-- PMC_CYCLES. -/
abbrev R.pmcCycles (u : Nat) : Nat := 0xF010 + 0x100000000 * u
/-- PMC_CNTi. -/
abbrev R.pmcCnt (u i : Nat) : Nat := 0xF018 + 0x8 * i + 0x100000000 * u

/-! ## Fields -/

abbrev F.medLaneCfg_txInv : Fld := ⟨5, 5⟩
abbrev F.medLaneCfg_rxInv : Fld := ⟨4, 4⟩
abbrev F.medLaneCfg_genMode : Fld := ⟨3, 2⟩
abbrev F.medLaneCfg_laneEn : Fld := ⟨0, 0⟩
abbrev F.medTxCfg_skewInt : Fld := ⟨31, 26⟩
abbrev F.medTxCfg_skewFrac : Fld := ⟨25, 22⟩
abbrev F.medTxCfg_mbenPol : Fld := ⟨21, 21⟩
abbrev F.medTxCfg_mbenLag : Fld := ⟨13, 8⟩
abbrev F.medTxCfg_mbenLead : Fld := ⟨7, 0⟩
abbrev F.medTxEq_swing : Fld := ⟨29, 24⟩
abbrev F.medTxEq_cPost : Fld := ⟨23, 18⟩
abbrev F.medTxEq_cMain : Fld := ⟨17, 12⟩
abbrev F.medTxEq_cPre1 : Fld := ⟨11, 6⟩
abbrev F.medTxEq_cPre2 : Fld := ⟨5, 0⟩
abbrev F.medRxCfg_msdPol : Fld := ⟨26, 26⟩
abbrev F.medRxCfg_losSrc : Fld := ⟨25, 24⟩
abbrev F.medRxCfg_losThr : Fld := ⟨23, 20⟩
abbrev F.medRxCfg_losClr : Fld := ⟨15, 8⟩
abbrev F.medRxCfg_losSet : Fld := ⟨7, 0⟩
abbrev F.medLaneStatus_txpllLock : Fld := ⟨8, 8⟩
abbrev F.medLaneStatus_mben : Fld := ⟨7, 7⟩
abbrev F.medLaneStatus_txIdle : Fld := ⟨6, 6⟩
abbrev F.medLaneStatus_msd : Fld := ⟨5, 5⟩
abbrev F.medLaneStatus_lol : Fld := ⟨4, 4⟩
abbrev F.medLaneStatus_los : Fld := ⟨3, 3⟩
abbrev F.medLaneStatus_hunting : Fld := ⟨2, 2⟩
abbrev F.medLaneStatus_rate : Fld := ⟨1, 0⟩
abbrev F.medDefect_testRefused : Fld := ⟨4, 4⟩
abbrev F.medDefect_txpll : Fld := ⟨3, 3⟩
abbrev F.medDefect_stuff : Fld := ⟨2, 2⟩
abbrev F.medDefect_lol : Fld := ⟨1, 1⟩
abbrev F.medDefect_los : Fld := ⟨0, 0⟩
abbrev F.medFecCw_count : Fld := ⟨47, 0⟩
abbrev F.medFecCorr_count : Fld := ⟨47, 0⟩
abbrev F.medFecUncorr_count : Fld := ⟨47, 0⟩
abbrev F.medStuffErr_count : Fld := ⟨31, 0⟩
abbrev F.medTest_chkLock : Fld := ⟨8, 8⟩
abbrev F.medTest_patChk : Fld := ⟨7, 7⟩
abbrev F.medTest_patGen : Fld := ⟨6, 5⟩
abbrev F.medTest_loopback : Fld := ⟨2, 0⟩
abbrev F.medTestErr_count : Fld := ⟨47, 0⟩
abbrev F.dfpCfg_maxGrants : Fld := ⟨23, 16⟩
abbrev F.dfpCfg_delimTol : Fld := ⟨15, 12⟩
abbrev F.dfpCfg_huntEn : Fld := ⟨1, 1⟩
abbrev F.dfpCfg_flushOnLof : Fld := ⟨0, 0⟩
abbrev F.dfpIdent_tid : Fld := ⟨9, 0⟩
abbrev F.dfpStatus_msgqLevel : Fld := ⟨25, 16⟩
abbrev F.dfpStatus_ownReady : Fld := ⟨2, 2⟩
abbrev F.dfpStatus_ownLost : Fld := ⟨1, 1⟩
abbrev F.dfpStatus_msgqFull : Fld := ⟨0, 0⟩
abbrev F.dfpSdCfg_sdClr : Fld := ⟨31, 16⟩
abbrev F.dfpSdCfg_sdSet : Fld := ⟨15, 0⟩
abbrev F.dfpRsqCfg_idle : Fld := ⟨47, 32⟩
abbrev F.dfpRsqCfg_holdMax : Fld := ⟨24, 16⟩
abbrev F.dfpRsqStatus_forced : Fld := ⟨63, 32⟩
abbrev F.dfpRsqStatus_active : Fld := ⟨16, 0⟩
abbrev F.dfpOwnWrite_index : Fld := ⟨51, 32⟩
abbrev F.dfpOwnWrite_entry : Fld := ⟨31, 0⟩
abbrev F.dfpOwnProbe_index : Fld := ⟨51, 32⟩
abbrev F.dfpOwnProbe_entry : Fld := ⟨31, 0⟩
abbrev F.dfpRsqProfile_window : Fld := ⟨31, 16⟩
abbrev F.dfpRsqProfile_timeout : Fld := ⟨15, 0⟩
abbrev F.dfpMsgAccept_mask : Fld := ⟨63, 0⟩
abbrev F.dfpDispCount_count : Fld := ⟨47, 0⟩
abbrev F.dfpPlaneStatus_gen : Fld := ⟨15, 13⟩
abbrev F.dfpPlaneStatus_palm : Fld := ⟨12, 12⟩
abbrev F.dfpPlaneStatus_unsup : Fld := ⟨11, 11⟩
abbrev F.dfpPlaneStatus_sd : Fld := ⟨10, 10⟩
abbrev F.dfpPlaneStatus_miss : Fld := ⟨9, 7⟩
abbrev F.dfpPlaneStatus_align : Fld := ⟨1, 0⟩
abbrev F.dfpPlaneDefect_msgOverrun : Fld := ⟨8, 8⟩
abbrev F.dfpPlaneDefect_grantCrc : Fld := ⟨7, 7⟩
abbrev F.dfpPlaneDefect_skew : Fld := ⟨6, 6⟩
abbrev F.dfpPlaneDefect_mismatch : Fld := ⟨5, 5⟩
abbrev F.dfpPlaneDefect_counter : Fld := ⟨4, 4⟩
abbrev F.dfpPlaneDefect_unsup : Fld := ⟨3, 3⟩
abbrev F.dfpPlaneDefect_palm : Fld := ⟨2, 2⟩
abbrev F.dfpPlaneDefect_sd : Fld := ⟨1, 1⟩
abbrev F.dfpPlaneDefect_lof : Fld := ⟨0, 0⟩
abbrev F.dfpPlaneFrame_frame : Fld := ⟨47, 0⟩
abbrev F.dfpPlaneOffset_offset : Fld := ⟨31, 0⟩
abbrev F.dfpFramesGood_count : Fld := ⟨47, 0⟩
abbrev F.dfpFramesBad_count : Fld := ⟨47, 0⟩
abbrev F.dfpGrantsAcc_count : Fld := ⟨47, 0⟩
abbrev F.dfpGrantsDisc_areas : Fld := ⟨63, 48⟩
abbrev F.dfpGrantsDisc_count : Fld := ⟨47, 0⟩
abbrev F.dfpMsgRx_count : Fld := ⟨47, 0⟩
abbrev F.dfpMsgDisc_count : Fld := ⟨47, 0⟩
abbrev F.dfpMsgUnknown_count : Fld := ⟨47, 0⟩
abbrev F.dfpParcels_count : Fld := ⟨47, 0⟩
abbrev F.dfpParcelBytes_count : Fld := ⟨47, 0⟩
abbrev F.dfpHuntBits_count : Fld := ⟨47, 0⟩
abbrev F.ubbCfg_maxAge : Fld := ⟨39, 32⟩
abbrev F.ubbCfg_minFrag : Fld := ⟨31, 16⟩
abbrev F.ubbCfg_buildAhead : Fld := ⟨15, 9⟩
abbrev F.ubbCfg_reportAlways : Fld := ⟨0, 0⟩
abbrev F.ubbStatus_restarts : Fld := ⟨31, 16⟩
abbrev F.ubbStatus_flowLost : Fld := ⟨2, 2⟩
abbrev F.ubbStatus_flowReady : Fld := ⟨1, 1⟩
abbrev F.ubbStatus_ready : Fld := ⟨0, 0⟩
abbrev F.ubbFlowWrite_index : Fld := ⟨59, 40⟩
abbrev F.ubbFlowWrite_valid : Fld := ⟨39, 39⟩
abbrev F.ubbFlowWrite_fragOk : Fld := ⟨38, 38⟩
abbrev F.ubbFlowWrite_seqSrc : Fld := ⟨37, 37⟩
abbrev F.ubbFlowWrite_leadOnly : Fld := ⟨36, 36⟩
abbrev F.ubbFlowWrite_keysel : Fld := ⟨35, 32⟩
abbrev F.ubbFlowWrite_keySlot : Fld := ⟨31, 20⟩
abbrev F.ubbFlowWrite_keepSeq : Fld := ⟨16, 16⟩
abbrev F.ubbFlowWrite_nextSeq : Fld := ⟨15, 0⟩
abbrev F.ubbFlowProbe_index : Fld := ⟨59, 40⟩
abbrev F.ubbFlowProbe_valid : Fld := ⟨39, 39⟩
abbrev F.ubbFlowProbe_fragOk : Fld := ⟨38, 38⟩
abbrev F.ubbFlowProbe_seqSrc : Fld := ⟨37, 37⟩
abbrev F.ubbFlowProbe_leadOnly : Fld := ⟨36, 36⟩
abbrev F.ubbFlowProbe_keysel : Fld := ⟨35, 32⟩
abbrev F.ubbFlowProbe_keySlot : Fld := ⟨31, 20⟩
abbrev F.ubbFlowProbe_keepSeq : Fld := ⟨16, 16⟩
abbrev F.ubbFlowProbe_nextSeq : Fld := ⟨15, 0⟩
abbrev F.ubbBdispCount_count : Fld := ⟨47, 0⟩
abbrev F.ubbPdispCount_count : Fld := ⟨47, 0⟩
abbrev F.ubbPlaneCtl_permit : Fld := ⟨1, 0⟩
abbrev F.ubbPlaneEqd_eqd : Fld := ⟨31, 0⟩
abbrev F.ubbPlaneGroups_mask : Fld := ⟨63, 0⟩
abbrev F.ubbPlaneDefect_guardTight : Fld := ⟨3, 3⟩
abbrev F.ubbPlaneDefect_bondBad : Fld := ⟨2, 2⟩
abbrev F.ubbPlaneDefect_noProfile : Fld := ⟨1, 1⟩
abbrev F.ubbPlaneDefect_late : Fld := ⟨0, 0⟩
abbrev F.ubbBursts_count : Fld := ⟨47, 0⟩
abbrev F.ubbSlots_count : Fld := ⟨47, 0⟩
abbrev F.ubbLastBurst_stamp : Fld := ⟨63, 0⟩
abbrev F.ubbProfile_valid : Fld := ⟨31, 31⟩
abbrev F.ubbProfile_train : Fld := ⟨27, 16⟩
abbrev F.ubbProfile_delim : Fld := ⟨15, 13⟩
abbrev F.ubbProfile_guard : Fld := ⟨12, 0⟩
abbrev F.wardStatus_viol1s : Fld := ⟨6, 5⟩
abbrev F.wardStatus_lpValid : Fld := ⟨4, 4⟩
abbrev F.wardStatus_restartHold : Fld := ⟨3, 3⟩
abbrev F.wardStatus_fatal : Fld := ⟨2, 2⟩
abbrev F.wardStatus_permanent : Fld := ⟨1, 1⟩
abbrev F.wardStatus_locked : Fld := ⟨0, 0⟩
abbrev F.wardCode_code : Fld := ⟨63, 0⟩
abbrev F.wardCodeCheck_check : Fld := ⟨31, 0⟩
abbrev F.wardViolLog_valid : Fld := ⟨63, 63⟩
abbrev F.wardViolLog_plane : Fld := ⟨62, 58⟩
abbrev F.wardViolLog_overrun : Fld := ⟨57, 57⟩
abbrev F.wardViolLog_frame : Fld := ⟨47, 0⟩
abbrev F.wardCounts_violations : Fld := ⟨63, 48⟩
abbrev F.wardCounts_lockouts : Fld := ⟨47, 32⟩
abbrev F.wardCounts_releases : Fld := ⟨31, 16⟩
abbrev F.wardCounts_mismatch : Fld := ⟨15, 0⟩
abbrev F.wardPlaneEqd_eqd : Fld := ⟨31, 0⟩
abbrev F.sysDeviceId_vendor : Fld := ⟨63, 48⟩
abbrev F.sysDeviceId_part : Fld := ⟨47, 32⟩
abbrev F.sysDeviceId_grade : Fld := ⟨31, 28⟩
abbrev F.sysDeviceId_stepMajor : Fld := ⟨27, 24⟩
abbrev F.sysDeviceId_stepMinor : Fld := ⟨23, 20⟩
abbrev F.sysDeviceId_mediumGen : Fld := ⟨7, 0⟩
abbrev F.sysSerial_serial : Fld := ⟨63, 0⟩
abbrev F.sysStraps_bootSrc : Fld := ⟨3, 3⟩
abbrev F.sysStraps_leadSrc : Fld := ⟨2, 2⟩
abbrev F.sysStraps_twinRole : Fld := ⟨1, 0⟩
abbrev F.sysResetCause_cause : Fld := ⟨1, 0⟩
abbrev F.sysTermState_under : Fld := ⟨27, 24⟩
abbrev F.sysTermState_state : Fld := ⟨23, 20⟩
abbrev F.sysTermState_stopCause : Fld := ⟨19, 18⟩
abbrev F.sysTermState_be : Fld := ⟨11, 8⟩
abbrev F.sysTermState_attempts : Fld := ⟨7, 0⟩
abbrev F.sysPlaneState0_state : Fld := ⟨47, 0⟩
abbrev F.sysPlaneState1_state : Fld := ⟨23, 0⟩
abbrev F.sysCapability_cap : Fld := ⟨31, 0⟩
abbrev F.sysRandom_value : Fld := ⟨31, 0⟩
abbrev F.sysEnrolCounts_announces : Fld := ⟨63, 48⟩
abbrev F.sysEnrolCounts_noAnswer : Fld := ⟨47, 32⟩
abbrev F.sysEnrolCounts_enrolTimeouts : Fld := ⟨31, 16⟩
abbrev F.sysEnrolCounts_alignTimeouts : Fld := ⟨15, 0⟩
abbrev F.sysMediumCounts_rangeTimeouts : Fld := ⟨63, 48⟩
abbrev F.sysMediumCounts_holdovers : Fld := ⟨47, 32⟩
abbrev F.sysMediumCounts_holdExpired : Fld := ⟨31, 16⟩
abbrev F.sysMediumCounts_lateApply : Fld := ⟨15, 0⟩
abbrev F.sysRejectCounts_serialMismatch : Fld := ⟨63, 48⟩
abbrev F.sysRejectCounts_badState : Fld := ⟨47, 32⟩
abbrev F.sysRejectCounts_shortBody : Fld := ⟨31, 16⟩
abbrev F.sysRejectCounts_badValue : Fld := ⟨15, 0⟩
abbrev F.timeCfg_checkThr : Fld := ⟨47, 40⟩
abbrev F.timeCfg_stepThr : Fld := ⟨31, 16⟩
abbrev F.timeCfg_slewStep : Fld := ⟨15, 0⟩
abbrev F.timeStatus_slewing : Fld := ⟨11, 11⟩
abbrev F.timeStatus_flywheel : Fld := ⟨10, 10⟩
abbrev F.timeStatus_mtValid : Fld := ⟨9, 9⟩
abbrev F.timeStatus_lpValid : Fld := ⟨8, 8⟩
abbrev F.timeStatus_code : Fld := ⟨7, 0⟩
abbrev F.timeRefCfg_mode : Fld := ⟨5, 5⟩
abbrev F.timeRefCfg_plane : Fld := ⟨4, 0⟩
abbrev F.timeRefStatus_switches : Fld := ⟨63, 48⟩
abbrev F.timeRefStatus_buildOut : Fld := ⟨47, 16⟩
abbrev F.timeRefStatus_fallback : Fld := ⟨6, 6⟩
abbrev F.timeRefStatus_none : Fld := ⟨5, 5⟩
abbrev F.timeRefStatus_plane : Fld := ⟨4, 0⟩
abbrev F.timeClkCfg_freeSrc : Fld := ⟨12, 12⟩
abbrev F.timeClkCfg_ctxSrc : Fld := ⟨11, 0⟩
abbrev F.timeSnapCtl_take : Fld := ⟨0, 0⟩
abbrev F.timeSnapLpF_lpValid : Fld := ⟨63, 63⟩
abbrev F.timeSnapLpF_mtValid : Fld := ⟨62, 62⟩
abbrev F.timeSnapLpF_frame : Fld := ⟨47, 0⟩
abbrev F.timeSnapLpCs_cell : Fld := ⟨25, 5⟩
abbrev F.timeSnapLpCs_symbol : Fld := ⟨4, 0⟩
abbrev F.timeSnapSec_seconds : Fld := ⟨63, 0⟩
abbrev F.timeSnapNs_stamp : Fld := ⟨63, 0⟩
abbrev F.timeAnchorErr_err : Fld := ⟨63, 0⟩
abbrev F.timeCounts_applied : Fld := ⟨63, 48⟩
abbrev F.timeCounts_anchorReject : Fld := ⟨47, 32⟩
abbrev F.timeCounts_anchorDisagree : Fld := ⟨31, 16⟩
abbrev F.timeCounts_steps : Fld := ⟨15, 0⟩
abbrev F.timeStepFrame_frame : Fld := ⟨47, 0⟩
abbrev F.timeStepSec_seconds : Fld := ⟨63, 0⟩
abbrev F.timeStepNs_ns : Fld := ⟨47, 0⟩
abbrev F.timePlaneRtd_valid : Fld := ⟨63, 63⟩
abbrev F.timePlaneRtd_rtd : Fld := ⟨31, 0⟩
abbrev F.timePlaneAsym_coeff : Fld := ⟨31, 0⟩
abbrev F.timeTpoCfg_comp : Fld := ⟨63, 48⟩
abbrev F.timeTpoCfg_width : Fld := ⟨47, 24⟩
abbrev F.timeTpoCfg_refused : Fld := ⟨6, 6⟩
abbrev F.timeTpoCfg_late : Fld := ⟨5, 5⟩
abbrev F.timeTpoCfg_leadOnly : Fld := ⟨4, 4⟩
abbrev F.timeTpoCfg_pol : Fld := ⟨3, 3⟩
abbrev F.timeTpoCfg_mode : Fld := ⟨1, 1⟩
abbrev F.timeTpoCfg_armed : Fld := ⟨0, 0⟩
abbrev F.timeTpoT0_startHi : Fld := ⟨63, 0⟩
abbrev F.timeTpoT1_startLo : Fld := ⟨63, 0⟩
abbrev F.timeTpoPeriod_missed : Fld := ⟨63, 48⟩
abbrev F.timeTpoPeriod_period : Fld := ⟨47, 0⟩
abbrev F.timeTciCfg_overflow : Fld := ⟨63, 48⟩
abbrev F.timeTciCfg_comp : Fld := ⟨47, 32⟩
abbrev F.timeTciCfg_level : Fld := ⟨7, 3⟩
abbrev F.timeTciCfg_edge : Fld := ⟨2, 1⟩
abbrev F.timeTciHi_seconds : Fld := ⟨63, 0⟩
abbrev F.timeTciLo_stamp : Fld := ⟨63, 0⟩
abbrev F.clsCfg_obsQueue : Fld := ⟨63, 50⟩
abbrev F.clsCfg_obsAct : Fld := ⟨49, 48⟩
abbrev F.clsCfg_modeDn : Fld := ⟨1, 1⟩
abbrev F.clsCfg_modeUp : Fld := ⟨0, 0⟩
abbrev F.clsStatus_patThrottled : Fld := ⟨2, 2⟩
abbrev F.clsStatus_cmdCollide : Fld := ⟨1, 1⟩
abbrev F.clsStatus_ready : Fld := ⟨0, 0⟩
abbrev F.clsEdCtl_op : Fld := ⟨1, 0⟩
abbrev F.clsEdStatus_cur : Fld := ⟨63, 48⟩
abbrev F.clsEdStatus_old : Fld := ⟨47, 32⟩
abbrev F.clsEdStatus_oldLive : Fld := ⟨15, 15⟩
abbrev F.clsEdStatus_stageOpen : Fld := ⟨14, 14⟩
abbrev F.clsEdStatus_sweeping : Fld := ⟨13, 13⟩
abbrev F.clsEdStatus_refusal : Fld := ⟨3, 0⟩
abbrev F.clsTableMode_mode : Fld := ⟨4, 0⟩
abbrev F.clsCmd_table : Fld := ⟨62, 60⟩
abbrev F.clsCmd_op : Fld := ⟨57, 56⟩
abbrev F.clsCmd_view : Fld := ⟨55, 55⟩
abbrev F.clsCmd_index : Fld := ⟨51, 32⟩
abbrev F.clsCmd_status : Fld := ⟨3, 0⟩
abbrev F.clsPatCfg_depth : Fld := ⟨11, 0⟩
abbrev F.clsPatTrunc_count : Fld := ⟨47, 0⟩
abbrev F.clsData_data : Fld := ⟨63, 0⟩
abbrev F.clsPuntQ_queue : Fld := ⟨13, 0⟩
abbrev F.clsOutCount_count : Fld := ⟨47, 0⟩
abbrev F.qmStatus_poolRefused : Fld := ⟨2, 2⟩
abbrev F.qmStatus_cmdCollide : Fld := ⟨1, 1⟩
abbrev F.qmStatus_ready : Fld := ⟨0, 0⟩
abbrev F.qmPoolCfg_upCells : Fld := ⟨63, 44⟩
abbrev F.qmPoolCfg_slowRes : Fld := ⟨43, 28⟩
abbrev F.qmPoolCfg_slowMax : Fld := ⟨27, 12⟩
abbrev F.qmHbmCfg_spillOn : Fld := ⟨63, 44⟩
abbrev F.qmHbmCfg_spillQ : Fld := ⟨43, 32⟩
abbrev F.qmHbmCfg_upGib : Fld := ⟨15, 10⟩
abbrev F.qmHbmCfg_stackEn : Fld := ⟨9, 8⟩
abbrev F.qmPoolUp_free : Fld := ⟨39, 20⟩
abbrev F.qmPoolUp_slowUsed : Fld := ⟨19, 0⟩
abbrev F.qmPoolDn_free : Fld := ⟨39, 20⟩
abbrev F.qmPoolDn_slowUsed : Fld := ⟨19, 0⟩
abbrev F.qmHbmUse_upUsed : Fld := ⟨63, 36⟩
abbrev F.qmHbmUse_dnUsed : Fld := ⟨35, 8⟩
abbrev F.qmHbmStack_used1 : Fld := ⟨59, 32⟩
abbrev F.qmHbmStack_used0 : Fld := ⟨27, 0⟩
abbrev F.qmCmd_op : Fld := ⟨57, 56⟩
abbrev F.qmCmd_index : Fld := ⟨45, 32⟩
abbrev F.qmCmd_status : Fld := ⟨3, 0⟩
abbrev F.qmData0_valid : Fld := ⟨63, 63⟩
abbrev F.qmData0_slow : Fld := ⟨62, 62⟩
abbrev F.qmData0_rgroup : Fld := ⟨61, 56⟩
abbrev F.qmData0_yel : Fld := ⟨47, 44⟩
abbrev F.qmData0_redF : Fld := ⟨43, 40⟩
abbrev F.qmData0_limit : Fld := ⟨19, 0⟩
abbrev F.qmData1_occPkts : Fld := ⟨63, 40⟩
abbrev F.qmData1_occBytes : Fld := ⟨39, 0⟩
abbrev F.qmData2_enqPkts : Fld := ⟨47, 0⟩
abbrev F.qmData3_dropPkts : Fld := ⟨47, 0⟩
abbrev F.qmDropCount_count : Fld := ⟨47, 0⟩
abbrev F.schCfg_batch : Fld := ⟨6, 0⟩
abbrev F.schStatus_cmdCollide : Fld := ⟨1, 1⟩
abbrev F.schStatus_ready : Fld := ⟨0, 0⟩
abbrev F.schCmd_table : Fld := ⟨61, 60⟩
abbrev F.schCmd_op : Fld := ⟨57, 56⟩
abbrev F.schCmd_index : Fld := ⟨45, 32⟩
abbrev F.schCmd_status : Fld := ⟨3, 0⟩
abbrev F.schWheelLate_count : Fld := ⟨47, 0⟩
abbrev F.schData0_attached : Fld := ⟨63, 63⟩
abbrev F.schData0_twinQ : Fld := ⟨62, 62⟩
abbrev F.schData0_group : Fld := ⟨55, 46⟩
abbrev F.schData0_level : Fld := ⟨45, 43⟩
abbrev F.schData0_pri : Fld := ⟨42, 40⟩
abbrev F.schData0_quantum : Fld := ⟨39, 28⟩
abbrev F.schData0_channel : Fld := ⟨20, 14⟩
abbrev F.schData1_shapeEn : Fld := ⟨63, 63⟩
abbrev F.schData1_resetMode : Fld := ⟨62, 61⟩
abbrev F.schData1_shapeAdj : Fld := ⟨60, 53⟩
abbrev F.schData1_burst : Fld := ⟨51, 36⟩
abbrev F.schData1_rate : Fld := ⟨19, 0⟩
abbrev F.schData2_credit : Fld := ⟨63, 0⟩
abbrev F.schData3_onWheel : Fld := ⟨63, 63⟩
abbrev F.schData3_coarse : Fld := ⟨62, 62⟩
abbrev F.schData3_slot : Fld := ⟨11, 0⟩
abbrev F.pipePkts_count : Fld := ⟨47, 0⟩
abbrev F.pipeDrop_count : Fld := ⟨47, 0⟩
abbrev F.cliCfg_mode : Fld := ⟨35, 32⟩
abbrev F.cliCfg_portEn : Fld := ⟨31, 31⟩
abbrev F.cliCfg_rsfec25 : Fld := ⟨30, 30⟩
abbrev F.cliCfg_fcMode : Fld := ⟨29, 28⟩
abbrev F.cliCfg_defaultPri : Fld := ⟨26, 24⟩
abbrev F.cliCfg_pcpMap : Fld := ⟨23, 0⟩
abbrev F.cliStatus_linkChg : Fld := ⟨16, 16⟩
abbrev F.cliStatus_paused : Fld := ⟨15, 8⟩
abbrev F.cliStatus_xoffTx : Fld := ⟨7, 7⟩
abbrev F.cliStatus_modeRefused : Fld := ⟨6, 6⟩
abbrev F.cliStatus_remoteFault : Fld := ⟨5, 5⟩
abbrev F.cliStatus_localFault : Fld := ⟨4, 4⟩
abbrev F.cliStatus_fecLock : Fld := ⟨3, 3⟩
abbrev F.cliStatus_amLock : Fld := ⟨2, 2⟩
abbrev F.cliStatus_blockLock : Fld := ⟨1, 1⟩
abbrev F.cliStatus_linkUp : Fld := ⟨0, 0⟩
abbrev F.cliSerdes_loopback : Fld := ⟨39, 38⟩
abbrev F.cliSerdes_txInv : Fld := ⟨37, 37⟩
abbrev F.cliSerdes_rxInv : Fld := ⟨36, 36⟩
abbrev F.cliSerdes_adaptEn : Fld := ⟨35, 35⟩
abbrev F.cliSerdes_swing : Fld := ⟨29, 24⟩
abbrev F.cliSerdes_cPost : Fld := ⟨23, 18⟩
abbrev F.cliSerdes_cMain : Fld := ⟨17, 12⟩
abbrev F.cliSerdes_cPre1 : Fld := ⟨11, 6⟩
abbrev F.cliSerdes_cPre2 : Fld := ⟨5, 0⟩
abbrev F.cliMacAddr_addr : Fld := ⟨47, 0⟩
abbrev F.cliRxCfg_maxLen : Fld := ⟨30, 16⟩
abbrev F.cliRxCfg_promisc : Fld := ⟨2, 2⟩
abbrev F.cliRxCfg_mcastAll : Fld := ⟨1, 1⟩
abbrev F.cliRxCfg_bcastEn : Fld := ⟨0, 0⟩
abbrev F.cliFcCfg_quanta : Fld := ⟨63, 48⟩
abbrev F.cliFcCfg_refresh : Fld := ⟨47, 32⟩
abbrev F.cliFcCfg_poolLow : Fld := ⟨31, 12⟩
abbrev F.cliFcCfg_force : Fld := ⟨7, 0⟩
abbrev F.cliFcThr_xoffCells : Fld := ⟨31, 16⟩
abbrev F.cliFcThr_xonCells : Fld := ⟨15, 0⟩
abbrev F.cliTsComp_rxComp : Fld := ⟨63, 32⟩
abbrev F.cliTsComp_txComp : Fld := ⟨31, 0⟩
abbrev F.cliRtagCfg_recovReset : Fld := ⟨31, 16⟩
abbrev F.cliRtagCfg_rxEn : Fld := ⟨15, 15⟩
abbrev F.cliRtagCfg_strip : Fld := ⟨14, 14⟩
abbrev F.cliRtagCfg_recovEn : Fld := ⟨13, 13⟩
abbrev F.cliRtagCfg_recovGroup : Fld := ⟨12, 8⟩
abbrev F.cliRtagCfg_history : Fld := ⟨7, 0⟩
abbrev F.cliGclCfg_lengthM1 : Fld := ⟨41, 32⟩
abbrev F.cliGclCfg_cycleNs : Fld := ⟨29, 0⟩
abbrev F.cliGclBaseSec_seconds : Fld := ⟨63, 0⟩
abbrev F.cliGclBaseNs_ns : Fld := ⟨31, 0⟩
abbrev F.cliGclCtl_adminGates : Fld := ⟨9, 2⟩
abbrev F.cliGclCtl_op : Fld := ⟨1, 0⟩
abbrev F.cliGclStatus_gates : Fld := ⟨47, 40⟩
abbrev F.cliGclStatus_index : Fld := ⟨39, 30⟩
abbrev F.cliGclStatus_refused : Fld := ⟨5, 5⟩
abbrev F.cliGclStatus_writeRefused : Fld := ⟨4, 4⟩
abbrev F.cliGclStatus_lateStart : Fld := ⟨3, 3⟩
abbrev F.cliGclStatus_pending : Fld := ⟨2, 2⟩
abbrev F.cliGclStatus_operBank : Fld := ⟨1, 1⟩
abbrev F.cliGclStatus_running : Fld := ⟨0, 0⟩
abbrev F.cliGclAddr_bank : Fld := ⟨10, 10⟩
abbrev F.cliGclAddr_index : Fld := ⟨9, 0⟩
abbrev F.cliGclData_gates : Fld := ⟨39, 32⟩
abbrev F.cliGclData_interval : Fld := ⟨29, 0⟩
abbrev F.cliRxFrames_count : Fld := ⟨47, 0⟩
abbrev F.cliRxBytes_count : Fld := ⟨47, 0⟩
abbrev F.cliTxFrames_count : Fld := ⟨47, 0⟩
abbrev F.cliTxBytes_count : Fld := ⟨47, 0⟩
abbrev F.cliFilter_en : Fld := ⟨63, 63⟩
abbrev F.cliFilter_addr : Fld := ⟨47, 0⟩
abbrev F.cliCount_count : Fld := ⟨47, 0⟩
abbrev F.circCfg_dccPhase : Fld := ⟨52, 32⟩
abbrev F.circCfg_dccEn : Fld := ⟨0, 0⟩
abbrev F.circStatus_cmdCollide : Fld := ⟨1, 1⟩
abbrev F.circStatus_ready : Fld := ⟨0, 0⟩
abbrev F.circCmd_table : Fld := ⟨61, 60⟩
abbrev F.circCmd_op : Fld := ⟨57, 56⟩
abbrev F.circCmd_index : Fld := ⟨44, 32⟩
abbrev F.circCmd_status : Fld := ⟨3, 0⟩
abbrev F.circData1_data : Fld := ⟨63, 0⟩
abbrev F.circData2_data : Fld := ⟨63, 0⟩
abbrev F.circCount_count : Fld := ⟨47, 0⟩
abbrev F.circDccMap_sel : Fld := ⟨9, 8⟩
abbrev F.circDccMap_lane : Fld := ⟨6, 0⟩
abbrev F.circLaneCfg_j0Tx : Fld := ⟨39, 32⟩
abbrev F.circLaneCfg_s1Tx : Fld := ⟨31, 24⟩
abbrev F.circLaneCfg_rdiAuto : Fld := ⟨2, 2⟩
abbrev F.circLaneCfg_forceRdi : Fld := ⟨1, 1⟩
abbrev F.circLaneCfg_forceAis : Fld := ⟨0, 0⟩
abbrev F.circLaneK_rxK : Fld := ⟨47, 32⟩
abbrev F.circLaneK_txK : Fld := ⟨15, 0⟩
abbrev F.circLaneStatus_s1Rx : Fld := ⟨31, 24⟩
abbrev F.circLaneStatus_j0Rx : Fld := ⟨23, 16⟩
abbrev F.circLaneStatus_defects : Fld := ⟨5, 1⟩
abbrev F.circLaneStatus_sdh : Fld := ⟨0, 0⟩
abbrev F.circLaneDefect_kChg : Fld := ⟨6, 6⟩
abbrev F.circLaneDefect_defects : Fld := ⟨5, 1⟩
abbrev F.circLaneBip_b1 : Fld := ⟨63, 32⟩
abbrev F.circLaneBip_b2 : Fld := ⟨31, 0⟩
abbrev F.ciphCfg_laMin : Fld := ⟨3, 0⟩
abbrev F.ciphStatus_suspended : Fld := ⟨24, 16⟩
abbrev F.ciphStatus_laEngines : Fld := ⟨15, 8⟩
abbrev F.ciphStatus_cmdCollide : Fld := ⟨1, 1⟩
abbrev F.ciphStatus_ready : Fld := ⟨0, 0⟩
abbrev F.ciphKeyCtl_slot : Fld := ⟨59, 48⟩
abbrev F.ciphKeyCtl_status : Fld := ⟨7, 4⟩
abbrev F.ciphKeyCtl_op : Fld := ⟨1, 0⟩
abbrev F.ciphKeyStatus_actUsers : Fld := ⟨35, 20⟩
abbrev F.ciphKeyStatus_pendUsers : Fld := ⟨19, 4⟩
abbrev F.ciphKeyStatus_pend : Fld := ⟨3, 2⟩
abbrev F.ciphKeyStatus_act : Fld := ⟨1, 0⟩
abbrev F.ciphKeyCheck_checkAct : Fld := ⟨63, 32⟩
abbrev F.ciphKeyCheck_checkPend : Fld := ⟨31, 0⟩
abbrev F.ciphSaCmd_table : Fld := ⟨63, 62⟩
abbrev F.ciphSaCmd_op : Fld := ⟨57, 56⟩
abbrev F.ciphSaCmd_index : Fld := ⟨43, 32⟩
abbrev F.ciphSaCmd_status : Fld := ⟨3, 0⟩
abbrev F.ciphKeyData_key : Fld := ⟨63, 0⟩
abbrev F.ciphSaData_data : Fld := ⟨63, 0⟩
abbrev F.ciphCount_count : Fld := ⟨47, 0⟩
abbrev F.ciphLaqCfg_en : Fld := ⟨63, 63⟩
abbrev F.ciphLaqCfg_urgentOk : Fld := ⟨62, 62⟩
abbrev F.ciphLaqCfg_src : Fld := ⟨61, 61⟩
abbrev F.ciphLaqCfg_dmaCh : Fld := ⟨56, 48⟩
abbrev F.ciphLaqCfg_level : Fld := ⟨40, 32⟩
abbrev F.lschCfg_runLimit : Fld := ⟨47, 32⟩
abbrev F.lschStatus_save1 : Fld := ⟨35, 27⟩
abbrev F.lschStatus_save0 : Fld := ⟨26, 18⟩
abbrev F.lschStatus_cbStore : Fld := ⟨17, 9⟩
abbrev F.lschStatus_areaRefused : Fld := ⟨3, 3⟩
abbrev F.lschStatus_cmdCollide : Fld := ⟨2, 2⟩
abbrev F.lschStatus_restarting : Fld := ⟨1, 1⟩
abbrev F.lschStatus_ready : Fld := ⟨0, 0⟩
abbrev F.lschCmd_table : Fld := ⟨61, 60⟩
abbrev F.lschCmd_op : Fld := ⟨57, 56⟩
abbrev F.lschCmd_index : Fld := ⟨47, 32⟩
abbrev F.lschCmd_status : Fld := ⟨3, 0⟩
abbrev F.lschData0_data : Fld := ⟨63, 0⟩
abbrev F.lschData1_data : Fld := ⟨63, 0⟩
abbrev F.lschHbmArea_gib : Fld := ⟨3, 0⟩
abbrev F.lschImgAddr_offset : Fld := ⟨32, 0⟩
abbrev F.lschLoadCtl_cause : Fld := ⟨15, 8⟩
abbrev F.lschLoadCtl_status : Fld := ⟨7, 4⟩
abbrev F.lschLoadCtl_op : Fld := ⟨1, 0⟩
abbrev F.lschSwapF_f : Fld := ⟨47, 0⟩
abbrev F.lschSwapCtl_cell : Fld := ⟨52, 32⟩
abbrev F.lschSwapCtl_refused : Fld := ⟨4, 4⟩
abbrev F.lschSwapCtl_late : Fld := ⟨3, 3⟩
abbrev F.lschSwapCtl_armed : Fld := ⟨2, 2⟩
abbrev F.lschSwapCtl_op : Fld := ⟨1, 0⟩
abbrev F.lschCount_count : Fld := ⟨47, 0⟩
abbrev F.latchStatus_held : Fld := ⟨42, 32⟩
abbrev F.latchStatus_broken : Fld := ⟨26, 16⟩
abbrev F.latchProbe_index : Fld := ⟨57, 48⟩
abbrev F.latchProbe_held : Fld := ⟨47, 47⟩
abbrev F.latchProbe_broken : Fld := ⟨46, 46⟩
abbrev F.latchProbe_waiters : Fld := ⟨45, 40⟩
abbrev F.latchProbe_core : Fld := ⟨37, 32⟩
abbrev F.latchProbe_ctx : Fld := ⟨31, 30⟩
abbrev F.latchCounts_deadlocks : Fld := ⟨63, 48⟩
abbrev F.latchCounts_orderFaults : Fld := ⟨47, 32⟩
abbrev F.latchCounts_brokenSet : Fld := ⟨31, 16⟩
abbrev F.coreCfg_dispatchEn : Fld := ⟨0, 0⟩
abbrev F.coreStatus_ctx : Fld := ⟨23, 16⟩
abbrev F.coreStatus_section : Fld := ⟨11, 8⟩
abbrev F.coreStatus_standbyLoaded : Fld := ⟨5, 5⟩
abbrev F.coreStatus_activeLoaded : Fld := ⟨4, 4⟩
abbrev F.coreStatus_activeBank : Fld := ⟨3, 3⟩
abbrev F.coreStatus_oldUsers : Fld := ⟨2, 0⟩
abbrev F.gateStatus_ownerRefused : Fld := ⟨11, 11⟩
abbrev F.gateStatus_cmdEnPending : Fld := ⟨10, 10⟩
abbrev F.gateStatus_cmdState : Fld := ⟨9, 8⟩
abbrev F.gateStatus_cmdCause : Fld := ⟨7, 4⟩
abbrev F.gateEvent_preura : Fld := ⟨6, 6⟩
abbrev F.gateEvent_fault : Fld := ⟨5, 5⟩
abbrev F.gateEvent_plDone : Fld := ⟨4, 4⟩
abbrev F.gateEvent_cmdBroken : Fld := ⟨3, 3⟩
abbrev F.gateEvent_inspErr : Fld := ⟨2, 2⟩
abbrev F.gateEvent_cpl : Fld := ⟨1, 1⟩
abbrev F.gateEventCfg_vector : Fld := ⟨12, 8⟩
abbrev F.gateEventCfg_en : Fld := ⟨6, 1⟩
abbrev F.gateCounts_inspWrites : Fld := ⟨63, 48⟩
abbrev F.gateCounts_pwDiscards : Fld := ⟨47, 32⟩
abbrev F.gateCounts_foreign : Fld := ⟨31, 16⟩
abbrev F.gateCounts_noReg : Fld := ⟨15, 0⟩
abbrev F.gateInspAddr_autoinc : Fld := ⟨63, 63⟩
abbrev F.gateInspAddr_addr : Fld := ⟨39, 0⟩
abbrev F.gateInspData_data : Fld := ⟨63, 0⟩
abbrev F.gateInspStatus_err : Fld := ⟨63, 63⟩
abbrev F.gateInspStatus_errAddr : Fld := ⟨39, 0⟩
abbrev F.gateCmdBase_addr : Fld := ⟨63, 0⟩
abbrev F.gateCmdCtl_en : Fld := ⟨63, 63⟩
abbrev F.gateCmdCtl_log2Size : Fld := ⟨3, 0⟩
abbrev F.gateCmdIdx_head : Fld := ⟨47, 32⟩
abbrev F.gateCmdIdx_tail : Fld := ⟨15, 0⟩
abbrev F.gateCplBase_addr : Fld := ⟨63, 0⟩
abbrev F.gateCplCtl_en : Fld := ⟨63, 63⟩
abbrev F.gateCplCtl_tailwbEn : Fld := ⟨14, 14⟩
abbrev F.gateCplCtl_vector : Fld := ⟨12, 8⟩
abbrev F.gateCplCtl_log2Size : Fld := ⟨3, 0⟩
abbrev F.gateCplIdx_tail : Fld := ⟨47, 32⟩
abbrev F.gateCplIdx_head : Fld := ⟨15, 0⟩
abbrev F.gateCplTailwb_addr : Fld := ⟨63, 0⟩
abbrev F.gatePlCtl_op : Fld := ⟨63, 62⟩
abbrev F.gatePlCtl_gib : Fld := ⟨39, 36⟩
abbrev F.gatePlCtl_offset : Fld := ⟨32, 0⟩
abbrev F.gatePlStatus_cause : Fld := ⟨15, 8⟩
abbrev F.gatePlStatus_status : Fld := ⟨7, 4⟩
abbrev F.gateChOwner_func : Fld := ⟨5, 0⟩
abbrev F.pcieStatus_speed : Fld := ⟨31, 28⟩
abbrev F.pcieStatus_width : Fld := ⟨20, 16⟩
abbrev F.pcieStatus_numVfs : Fld := ⟨13, 8⟩
abbrev F.pcieStatus_flit : Fld := ⟨1, 1⟩
abbrev F.pcieStatus_dlUp : Fld := ⟨0, 0⟩
abbrev F.pcieCfg_cplTimeout : Fld := ⟨23, 8⟩
abbrev F.pcieCfg_maxSpeed : Fld := ⟨7, 4⟩
abbrev F.pcieErrCounts_timeouts : Fld := ⟨63, 48⟩
abbrev F.pcieErrCounts_urCa : Fld := ⟨47, 32⟩
abbrev F.pcieErrCounts_poisoned : Fld := ⟨31, 16⟩
abbrev F.pcieErrCounts_replays : Fld := ⟨15, 0⟩
abbrev F.dmaStatus_running : Fld := ⟨9, 0⟩
abbrev F.dmaChCfg_kind : Fld := ⟨63, 62⟩
abbrev F.dmaChCfg_hch : Fld := ⟨61, 59⟩
abbrev F.dmaChCfg_group : Fld := ⟨57, 48⟩
abbrev F.dmaChCfg_laq : Fld := ⟨45, 40⟩
abbrev F.dmaChCfg_weight : Fld := ⟨35, 32⟩
abbrev F.dmaChCfg_vector : Fld := ⟨20, 16⟩
abbrev F.dmaChCfg_holdoff : Fld := ⟨7, 0⟩
abbrev F.dmaChHead_addr : Fld := ⟨63, 0⟩
abbrev F.dmaChRing_addr : Fld := ⟨63, 0⟩
abbrev F.dmaChRingCfg_en : Fld := ⟨63, 63⟩
abbrev F.dmaChRingCfg_tailwbEn : Fld := ⟨62, 62⟩
abbrev F.dmaChRingCfg_log2Size : Fld := ⟨3, 0⟩
abbrev F.dmaChTailwb_addr : Fld := ⟨63, 0⟩
abbrev F.dmaChCtl_op : Fld := ⟨2, 0⟩
abbrev F.dmaChDoorbell_doorbell : Fld := ⟨63, 0⟩
abbrev F.dmaChStatus_cause : Fld := ⟨63, 60⟩
abbrev F.dmaChStatus_opRefused : Fld := ⟨10, 10⟩
abbrev F.dmaChStatus_startPending : Fld := ⟨9, 9⟩
abbrev F.dmaChStatus_dbPending : Fld := ⟨8, 8⟩
abbrev F.dmaChStatus_state : Fld := ⟨2, 0⟩
abbrev F.dmaChCur_addr : Fld := ⟨63, 0⟩
abbrev F.dmaChDone_bytes : Fld := ⟨31, 0⟩
abbrev F.dmaChRingIdx_tail : Fld := ⟨47, 32⟩
abbrev F.dmaChRingIdx_head : Fld := ⟨15, 0⟩
abbrev F.dmaChCounts_descDone : Fld := ⟨63, 32⟩
abbrev F.dmaChCounts_descBad : Fld := ⟨31, 16⟩
abbrev F.dmaChCounts_lost : Fld := ⟨15, 0⟩
abbrev F.dmaChId_func : Fld := ⟨14, 9⟩
abbrev F.dmaChId_channel : Fld := ⟨8, 0⟩
abbrev F.dmaChActCfg_kind : Fld := ⟨63, 62⟩
abbrev F.dmaChActCfg_hch : Fld := ⟨61, 59⟩
abbrev F.dmaChActCfg_group : Fld := ⟨57, 48⟩
abbrev F.dmaChActCfg_laq : Fld := ⟨45, 40⟩
abbrev F.dmaChActCfg_weight : Fld := ⟨35, 32⟩
abbrev F.dmaChActCfg_vector : Fld := ⟨20, 16⟩
abbrev F.dmaChActCfg_holdoff : Fld := ⟨7, 0⟩
abbrev F.dmaChActHead_addr : Fld := ⟨63, 0⟩
abbrev F.dmaChActRing_addr : Fld := ⟨63, 0⟩
abbrev F.dmaChActRingCfg_en : Fld := ⟨63, 63⟩
abbrev F.dmaChActRingCfg_tailwbEn : Fld := ⟨62, 62⟩
abbrev F.dmaChActRingCfg_log2Size : Fld := ⟨3, 0⟩
abbrev F.dmaChActTailwb_addr : Fld := ⟨63, 0⟩
abbrev F.hingeCfg_seqAdvance : Fld := ⟨45, 32⟩
abbrev F.hingeCfg_en : Fld := ⟨0, 0⟩
abbrev F.hingePair_pairId : Fld := ⟨15, 0⟩
abbrev F.hingeStatus_leadSrc : Fld := ⟨31, 31⟩
abbrev F.hingeStatus_role : Fld := ⟨30, 29⟩
abbrev F.hingeStatus_strapBad : Fld := ⟨28, 28⟩
abbrev F.hingeStatus_link : Fld := ⟨27, 26⟩
abbrev F.hingeStatus_sync : Fld := ⟨25, 24⟩
abbrev F.hingeStatus_lead : Fld := ⟨23, 23⟩
abbrev F.hingeStatus_peerLead : Fld := ⟨22, 22⟩
abbrev F.hingeStatus_peerFault : Fld := ⟨21, 21⟩
abbrev F.hingeStatus_peerState : Fld := ⟨20, 17⟩
abbrev F.hingeStatus_peerTid : Fld := ⟨16, 7⟩
abbrev F.hingeStatus_dualLead : Fld := ⟨6, 6⟩
abbrev F.hingeStatus_mismatch : Fld := ⟨5, 5⟩
abbrev F.hingeStatus_syncFail : Fld := ⟨4, 4⟩
abbrev F.hingeStatus_peerLost : Fld := ⟨3, 3⟩
abbrev F.hingeStatus_linkChg : Fld := ⟨2, 2⟩
abbrev F.hingeStatus_leadChg : Fld := ⟨1, 1⟩
abbrev F.hingeStatus_mirrorOvf : Fld := ⟨0, 0⟩
abbrev F.hingePeerSerial_serial : Fld := ⟨63, 0⟩
abbrev F.hingeCounts0_uncorr : Fld := ⟨63, 48⟩
abbrev F.hingeCounts0_syncs : Fld := ⟨47, 32⟩
abbrev F.hingeCounts0_syncFails : Fld := ⟨31, 16⟩
abbrev F.hingeCounts0_leadChanges : Fld := ⟨15, 0⟩
abbrev F.hingeCounts1_leadMsgIgnored : Fld := ⟨63, 48⟩
abbrev F.hingeCounts1_unknown : Fld := ⟨47, 32⟩
abbrev F.hingeCounts1_advances : Fld := ⟨31, 16⟩
abbrev F.hingeSerdes_loopback : Fld := ⟨39, 38⟩
abbrev F.hingeSerdes_txInv : Fld := ⟨37, 37⟩
abbrev F.hingeSerdes_rxInv : Fld := ⟨36, 36⟩
abbrev F.hingeSerdes_adaptEn : Fld := ⟨35, 35⟩
abbrev F.hingeSerdes_swing : Fld := ⟨29, 24⟩
abbrev F.hingeSerdes_cPost : Fld := ⟨23, 18⟩
abbrev F.hingeSerdes_cMain : Fld := ⟨17, 12⟩
abbrev F.hingeSerdes_cPre1 : Fld := ⟨11, 6⟩
abbrev F.hingeSerdes_cPre2 : Fld := ⟨5, 0⟩
abbrev F.mboxStatus_resets : Fld := ⟨63, 48⟩
abbrev F.mboxStatus_trips : Fld := ⟨47, 32⟩
abbrev F.mboxStatus_swapLost : Fld := ⟨31, 16⟩
abbrev F.mboxStatus_toRefused : Fld := ⟨7, 7⟩
abbrev F.mboxStatus_toLost : Fld := ⟨6, 6⟩
abbrev F.mboxStatus_state : Fld := ⟨4, 2⟩
abbrev F.mboxStatus_sealed : Fld := ⟨1, 1⟩
abbrev F.mboxStatus_preuraUp : Fld := ⟨0, 0⟩
abbrev F.mboxToCtl_tag : Fld := ⟨63, 48⟩
abbrev F.mboxToCtl_type : Fld := ⟨47, 40⟩
abbrev F.mboxToCtl_length : Fld := ⟨39, 31⟩
abbrev F.mboxToCtl_send : Fld := ⟨1, 1⟩
abbrev F.mboxToCtl_full : Fld := ⟨0, 0⟩
abbrev F.mboxFromCtl_tag : Fld := ⟨63, 48⟩
abbrev F.mboxFromCtl_type : Fld := ⟨47, 40⟩
abbrev F.mboxFromCtl_length : Fld := ⟨39, 31⟩
abbrev F.mboxFromCtl_done : Fld := ⟨1, 1⟩
abbrev F.mboxFromCtl_full : Fld := ⟨0, 0⟩
abbrev F.mboxPreuraCtl_reset : Fld := ⟨0, 0⟩
abbrev F.mboxSentinel_timeoutMs : Fld := ⟨47, 32⟩
abbrev F.mboxSentinel_cause : Fld := ⟨7, 4⟩
abbrev F.mboxSentinel_kick : Fld := ⟨3, 0⟩
abbrev F.mboxSwapCtl_pop : Fld := ⟨3, 3⟩
abbrev F.mboxSwapCtl_level : Fld := ⟨2, 0⟩
abbrev F.mboxSwap0_imageId : Fld := ⟨63, 0⟩
abbrev F.mboxSwap1_target : Fld := ⟨63, 0⟩
abbrev F.mboxSwap2_stamp : Fld := ⟨63, 0⟩
abbrev F.mboxSwap3_stamp : Fld := ⟨63, 0⟩
abbrev F.mboxSwap4_cores : Fld := ⟨63, 0⟩
abbrev F.mboxSenseStamp_stamp : Fld := ⟨63, 0⟩
abbrev F.mboxToData_data : Fld := ⟨63, 0⟩
abbrev F.mboxFromData_data : Fld := ⟨63, 0⟩
abbrev F.mboxTemp_t : Fld := ⟨63, 0⟩
abbrev F.mboxVolt_v : Fld := ⟨63, 0⟩
abbrev F.fltStatus_capLost : Fld := ⟨63, 48⟩
abbrev F.fltStatus_dispLevel : Fld := ⟨31, 19⟩
abbrev F.fltStatus_dispAdded : Fld := ⟨7, 7⟩
abbrev F.fltStatus_pinFault : Fld := ⟨6, 6⟩
abbrev F.fltStatus_overflow : Fld := ⟨5, 5⟩
abbrev F.fltStatus_err : Fld := ⟨4, 3⟩
abbrev F.fltStatus_ready : Fld := ⟨0, 0⟩
abbrev F.fltStatusC_sources : Fld := ⟨63, 0⟩
abbrev F.fltStatusU_sources : Fld := ⟨63, 0⟩
abbrev F.fltStatusD_sources : Fld := ⟨63, 0⟩
abbrev F.fltStatusF_sources : Fld := ⟨63, 0⟩
abbrev F.fltWire_sources : Fld := ⟨63, 0⟩
abbrev F.fltMaskErr_sources : Fld := ⟨63, 0⟩
abbrev F.fltRestarting_sources : Fld := ⟨63, 0⟩
abbrev F.fltFirstInfo_valid : Fld := ⟨63, 63⟩
abbrev F.fltFirstInfo_wire : Fld := ⟨62, 62⟩
abbrev F.fltFirstInfo_source : Fld := ⟨61, 56⟩
abbrev F.fltFirstInfo_class : Fld := ⟨55, 54⟩
abbrev F.fltFirstInfo_code : Fld := ⟨47, 32⟩
abbrev F.fltFirstSec_seconds : Fld := ⟨63, 0⟩
abbrev F.fltFirstNs_stamp : Fld := ⟨63, 0⟩
abbrev F.fltCapInfo_valid : Fld := ⟨63, 63⟩
abbrev F.fltCapInfo_wire : Fld := ⟨62, 62⟩
abbrev F.fltCapInfo_source : Fld := ⟨61, 56⟩
abbrev F.fltCapInfo_class : Fld := ⟨55, 54⟩
abbrev F.fltCapInfo_code : Fld := ⟨47, 32⟩
abbrev F.fltCapSec_seconds : Fld := ⟨63, 0⟩
abbrev F.fltCapNs_stamp : Fld := ⟨63, 0⟩
abbrev F.fltDispCtl_pop : Fld := ⟨0, 0⟩
abbrev F.fltDisp_word : Fld := ⟨63, 0⟩
abbrev F.fltCCount_count : Fld := ⟨31, 0⟩
abbrev F.pwrStatus_logLost : Fld := ⟨63, 48⟩
abbrev F.pwrStatus_waking : Fld := ⟨12, 8⟩
abbrev F.pwrStatus_thermalOff : Fld := ⟨4, 4⟩
abbrev F.pwrStatus_startDone : Fld := ⟨3, 3⟩
abbrev F.pwrStatus_seqBusy : Fld := ⟨2, 2⟩
abbrev F.pwrStatus_opChg : Fld := ⟨1, 1⟩
abbrev F.pwrStatus_domChg : Fld := ⟨0, 0⟩
abbrev F.pwrReq_target : Fld := ⟨63, 62⟩
abbrev F.pwrReq_mask : Fld := ⟨29, 0⟩
abbrev F.pwrDegrade_level : Fld := ⟨1, 0⟩
abbrev F.pwrOp_pktReq : Fld := ⟨29, 28⟩
abbrev F.pwrOp_lim0Req : Fld := ⟨27, 26⟩
abbrev F.pwrOp_lim1Req : Fld := ⟨25, 24⟩
abbrev F.pwrOp_pktF : Fld := ⟨9, 8⟩
abbrev F.pwrOp_pktV : Fld := ⟨7, 6⟩
abbrev F.pwrOp_lim0F : Fld := ⟨5, 4⟩
abbrev F.pwrOp_lim1F : Fld := ⟨3, 2⟩
abbrev F.pwrOp_limV : Fld := ⟨1, 0⟩
abbrev F.pwrAvsStatus_errors : Fld := ⟨63, 48⟩
abbrev F.pwrAvsStatus_opAborted : Fld := ⟨47, 32⟩
abbrev F.pwrAvsStatus_limErr : Fld := ⟨21, 21⟩
abbrev F.pwrAvsStatus_pktErr : Fld := ⟨20, 20⟩
abbrev F.pwrAvsStatus_pktMv : Fld := ⟨19, 10⟩
abbrev F.pwrAvsStatus_limMv : Fld := ⟨9, 0⟩
abbrev F.pwrOpVolt_pktOp0 : Fld := ⟨59, 50⟩
abbrev F.pwrOpVolt_pktOp1 : Fld := ⟨49, 40⟩
abbrev F.pwrOpVolt_pktOp2 : Fld := ⟨39, 30⟩
abbrev F.pwrOpVolt_limLp0 : Fld := ⟨29, 20⟩
abbrev F.pwrOpVolt_limLp1 : Fld := ⟨19, 10⟩
abbrev F.pwrOpVolt_limLp2 : Fld := ⟨9, 0⟩
abbrev F.pwrChipReset_key : Fld := ⟨15, 0⟩
abbrev F.pwrDom_lastRefuser : Fld := ⟨63, 56⟩
abbrev F.pwrDom_refused : Fld := ⟨55, 40⟩
abbrev F.pwrDom_aborted : Fld := ⟨39, 24⟩
abbrev F.pwrDom_reEnPending : Fld := ⟨11, 11⟩
abbrev F.pwrDom_pending : Fld := ⟨10, 9⟩
abbrev F.pwrDom_phase : Fld := ⟨8, 6⟩
abbrev F.pwrDom_target : Fld := ⟨3, 2⟩
abbrev F.pwrDom_state : Fld := ⟨1, 0⟩
abbrev F.clkPllStatus_lock : Fld := ⟨7, 0⟩
abbrev F.clkRefStatus_loss : Fld := ⟨13, 8⟩
abbrev F.clkRefStatus_present : Fld := ⟨5, 0⟩
abbrev F.clkRunning_clocks : Fld := ⟨39, 0⟩
abbrev F.clkCounts_refLosses : Fld := ⟨63, 48⟩
abbrev F.clkCounts_pllUnlocks : Fld := ⟨47, 32⟩
abbrev F.monStatus_dumps : Fld := ⟨63, 48⟩
abbrev F.monStatus_skipped : Fld := ⟨47, 32⟩
abbrev F.monStatus_lost : Fld := ⟨31, 16⟩
abbrev F.monStatus_missed : Fld := ⟨15, 0⟩
abbrev F.monBwCfg_en : Fld := ⟨13, 13⟩
abbrev F.monBwCfg_winFrames : Fld := ⟨12, 0⟩
abbrev F.monBwStatus_seq : Fld := ⟨63, 48⟩
abbrev F.monBwStatus_frame : Fld := ⟨47, 0⟩
abbrev F.monDumpCtl_valid : Fld := ⟨63, 63⟩
abbrev F.monDumpCtl_period : Fld := ⟨47, 32⟩
abbrev F.monDumpCtl_first : Fld := ⟨31, 24⟩
abbrev F.monDumpCtl_count : Fld := ⟨23, 17⟩
abbrev F.monDumpCtl_queue : Fld := ⟨13, 0⟩
abbrev F.monDumpLp_lp : Fld := ⟨63, 0⟩
abbrev F.monBwRx_absent : Fld := ⟨63, 63⟩
abbrev F.monBwRx_bytes : Fld := ⟨47, 0⟩
abbrev F.monBwTx_absent : Fld := ⟨63, 63⟩
abbrev F.monBwTx_bytes : Fld := ⟨47, 0⟩
abbrev F.pmcCtl_evselBad : Fld := ⟨24, 24⟩
abbrev F.pmcCtl_ovf : Fld := ⟨23, 16⟩
abbrev F.pmcCtl_freeze : Fld := ⟨8, 8⟩
abbrev F.pmcCtl_en : Fld := ⟨7, 0⟩
abbrev F.pmcSel_evsel : Fld := ⟨63, 0⟩
abbrev F.pmcCycles_count : Fld := ⟨63, 0⟩
abbrev F.pmcCnt_count : Fld := ⟨47, 0⟩

/-! ## Field maps, unit kind by unit kind -/

/-- The field maps of the MED registers. -/
def medMap : List RegDesc :=
  [⟨0x0, 0x0, 1, 0x0, 1, [⟨5, 5, .rw, 0x0⟩, ⟨4, 4, .rw, 0x0⟩, ⟨3, 2, .rw, 0x2⟩, ⟨0, 0, .rw, 0x0⟩]⟩,
   ⟨0x8, 0x0, 1, 0x0, 1, [⟨31, 26, .rw, 0x0⟩, ⟨25, 22, .rw, 0x0⟩, ⟨21, 21, .rw, 0x0⟩, ⟨13, 8, .rw, 0x10⟩, ⟨7, 0, .rw, 0x40⟩]⟩,
   ⟨0x10, 0x0, 1, 0x0, 1, [⟨29, 24, .rw, 0x30⟩, ⟨23, 18, .rw, 0x3C⟩, ⟨17, 12, .rw, 0x34⟩, ⟨11, 6, .rw, 0x38⟩, ⟨5, 0, .rw, 0x0⟩]⟩,
   ⟨0x18, 0x0, 1, 0x0, 1, [⟨26, 26, .rw, 0x0⟩, ⟨25, 24, .rw, 0x2⟩, ⟨23, 20, .rw, 0x4⟩, ⟨15, 8, .rw, 0xA⟩, ⟨7, 0, .rw, 0xA⟩]⟩,
   ⟨0x20, 0x0, 1, 0x0, 1, [⟨8, 8, .ro, 0x0⟩, ⟨7, 7, .ro, 0x0⟩, ⟨6, 6, .ro, 0x1⟩, ⟨5, 5, .ro, 0x0⟩, ⟨4, 4, .ro, 0x1⟩, ⟨3, 3, .ro, 0x1⟩, ⟨2, 2, .ro, 0x0⟩, ⟨1, 0, .ro, 0x0⟩]⟩,
   ⟨0x28, 0x0, 1, 0x0, 1, [⟨4, 4, .w1c, 0x0⟩, ⟨3, 3, .w1c, 0x0⟩, ⟨2, 2, .w1c, 0x0⟩, ⟨1, 1, .w1c, 0x0⟩, ⟨0, 0, .w1c, 0x0⟩]⟩,
   ⟨0x30, 0x0, 1, 0x0, 1, [⟨47, 0, .rc, 0x0⟩]⟩,
   ⟨0x38, 0x0, 1, 0x0, 1, [⟨47, 0, .rc, 0x0⟩]⟩,
   ⟨0x40, 0x0, 1, 0x0, 1, [⟨47, 0, .rc, 0x0⟩]⟩,
   ⟨0x48, 0x0, 1, 0x0, 1, [⟨31, 0, .rc, 0x0⟩]⟩,
   ⟨0x50, 0x0, 1, 0x0, 1, [⟨8, 8, .ro, 0x0⟩, ⟨7, 7, .rw, 0x0⟩, ⟨6, 5, .rw, 0x0⟩, ⟨2, 0, .rw, 0x0⟩]⟩,
   ⟨0x58, 0x0, 1, 0x0, 1, [⟨47, 0, .rc, 0x0⟩]⟩]

/-- The field maps of the DFP registers. -/
def dfpMap : List RegDesc :=
  [⟨0x0, 0x0, 1, 0x0, 1, [⟨23, 16, .rw, 0x40⟩, ⟨15, 12, .rw, 0x8⟩, ⟨1, 1, .rw, 0x1⟩, ⟨0, 0, .rw, 0x1⟩]⟩,
   ⟨0x8, 0x0, 1, 0x0, 1, [⟨9, 0, .pw, 0x3FE⟩]⟩,
   ⟨0x10, 0x0, 1, 0x0, 1, [⟨25, 16, .ro, 0x0⟩, ⟨2, 2, .ro, 0x0⟩, ⟨1, 1, .w1c, 0x0⟩, ⟨0, 0, .ro, 0x0⟩]⟩,
   ⟨0x18, 0x0, 1, 0x0, 1, [⟨31, 16, .rw, 0x1⟩, ⟨15, 0, .rw, 0xA⟩]⟩,
   ⟨0x20, 0x0, 1, 0x0, 1, [⟨47, 32, .rw, 0x3E8⟩, ⟨24, 16, .rw, 0x100⟩]⟩,
   ⟨0x28, 0x0, 1, 0x0, 1, [⟨63, 32, .rc, 0x0⟩, ⟨16, 0, .ro, 0x0⟩]⟩,
   ⟨0x50, 0x0, 1, 0x0, 1, [⟨51, 32, .rw, 0x0⟩, ⟨31, 0, .rw, 0x0⟩]⟩,
   ⟨0x58, 0x0, 1, 0x0, 1, [⟨51, 32, .rw, 0x0⟩, ⟨31, 0, .ro, 0x0⟩]⟩,
   ⟨0x30, 0x8, 4, 0x0, 1, [⟨31, 16, .rw, 0x0⟩, ⟨15, 0, .rw, 0x0⟩]⟩,
   ⟨0x60, 0x8, 4, 0x0, 1, [⟨63, 0, .rw, 0x0⟩]⟩,
   ⟨0x80, 0x8, 16, 0x0, 1, [⟨47, 0, .rc, 0x0⟩]⟩,
   ⟨0x1000, 0x80, 24, 0x0, 1, [⟨15, 13, .ro, 0x0⟩, ⟨12, 12, .ro, 0x0⟩, ⟨11, 11, .ro, 0x0⟩, ⟨10, 10, .ro, 0x0⟩, ⟨9, 7, .ro, 0x0⟩, ⟨1, 0, .ro, 0x0⟩]⟩]
  ++
  [⟨0x1008, 0x80, 24, 0x0, 1, [⟨8, 8, .w1c, 0x0⟩, ⟨7, 7, .w1c, 0x0⟩, ⟨6, 6, .w1c, 0x0⟩, ⟨5, 5, .w1c, 0x0⟩, ⟨4, 4, .w1c, 0x0⟩, ⟨3, 3, .w1c, 0x0⟩, ⟨2, 2, .w1c, 0x0⟩, ⟨1, 1, .w1c, 0x0⟩, ⟨0, 0, .w1c, 0x0⟩]⟩,
   ⟨0x1010, 0x80, 24, 0x0, 1, [⟨47, 0, .ro, 0x0⟩]⟩,
   ⟨0x1018, 0x80, 24, 0x0, 1, [⟨31, 0, .ro, 0x0⟩]⟩,
   ⟨0x1020, 0x80, 24, 0x0, 1, [⟨47, 0, .rc, 0x0⟩]⟩,
   ⟨0x1028, 0x80, 24, 0x0, 1, [⟨47, 0, .rc, 0x0⟩]⟩,
   ⟨0x1030, 0x80, 24, 0x0, 1, [⟨47, 0, .rc, 0x0⟩]⟩,
   ⟨0x1038, 0x80, 24, 0x0, 1, [⟨63, 48, .rc, 0x0⟩, ⟨47, 0, .rc, 0x0⟩]⟩,
   ⟨0x1040, 0x80, 24, 0x0, 1, [⟨47, 0, .rc, 0x0⟩]⟩,
   ⟨0x1048, 0x80, 24, 0x0, 1, [⟨47, 0, .rc, 0x0⟩]⟩,
   ⟨0x1050, 0x80, 24, 0x0, 1, [⟨47, 0, .rc, 0x0⟩]⟩,
   ⟨0x1058, 0x80, 24, 0x0, 1, [⟨47, 0, .rc, 0x0⟩]⟩,
   ⟨0x1060, 0x80, 24, 0x0, 1, [⟨47, 0, .rc, 0x0⟩]⟩]
  ++
  [⟨0x1068, 0x80, 24, 0x0, 1, [⟨47, 0, .rc, 0x0⟩]⟩]

/-- The field maps of the UBB registers. -/
def ubbMap : List RegDesc :=
  [⟨0x0, 0x0, 1, 0x0, 1, [⟨39, 32, .rw, 0x20⟩, ⟨31, 16, .rw, 0x40⟩, ⟨15, 9, .rw, 0x19⟩, ⟨0, 0, .rw, 0x0⟩]⟩,
   ⟨0x8, 0x0, 1, 0x0, 1, [⟨31, 16, .ro, 0x0⟩, ⟨2, 2, .w1c, 0x0⟩, ⟨1, 1, .ro, 0x0⟩, ⟨0, 0, .ro, 0x0⟩]⟩,
   ⟨0x10, 0x0, 1, 0x0, 1, [⟨59, 40, .rw, 0x0⟩, ⟨39, 39, .rw, 0x0⟩, ⟨38, 38, .rw, 0x0⟩, ⟨37, 37, .rw, 0x0⟩, ⟨36, 36, .rw, 0x0⟩, ⟨35, 32, .rw, 0x0⟩, ⟨31, 20, .rw, 0x0⟩, ⟨16, 16, .rw, 0x0⟩, ⟨15, 0, .rw, 0x0⟩]⟩,
   ⟨0x18, 0x0, 1, 0x0, 1, [⟨59, 40, .rw, 0x0⟩, ⟨39, 39, .ro, 0x0⟩, ⟨38, 38, .ro, 0x0⟩, ⟨37, 37, .ro, 0x0⟩, ⟨36, 36, .ro, 0x0⟩, ⟨35, 32, .ro, 0x0⟩, ⟨31, 20, .ro, 0x0⟩, ⟨16, 16, .ro, 0x0⟩, ⟨15, 0, .ro, 0x0⟩]⟩,
   ⟨0x80, 0x8, 16, 0x0, 1, [⟨47, 0, .rc, 0x0⟩]⟩,
   ⟨0x100, 0x8, 16, 0x0, 1, [⟨47, 0, .rc, 0x0⟩]⟩,
   ⟨0x1000, 0x80, 24, 0x0, 1, [⟨1, 0, .pw, 0x0⟩]⟩,
   ⟨0x1008, 0x80, 24, 0x0, 1, [⟨31, 0, .pw, 0x0⟩]⟩,
   ⟨0x1010, 0x80, 24, 0x0, 1, [⟨63, 0, .pw, 0x0⟩]⟩,
   ⟨0x1018, 0x80, 24, 0x0, 1, [⟨3, 3, .w1c, 0x0⟩, ⟨2, 2, .w1c, 0x0⟩, ⟨1, 1, .w1c, 0x0⟩, ⟨0, 0, .w1c, 0x0⟩]⟩,
   ⟨0x1060, 0x80, 24, 0x0, 1, [⟨47, 0, .rc, 0x0⟩]⟩,
   ⟨0x1068, 0x80, 24, 0x0, 1, [⟨47, 0, .rc, 0x0⟩]⟩]
  ++
  [⟨0x1070, 0x80, 24, 0x0, 1, [⟨63, 0, .ro, 0x0⟩]⟩,
   ⟨0x1020, 0x80, 24, 0x8, 8, [⟨31, 31, .pw, 0x0⟩, ⟨27, 16, .pw, 0x0⟩, ⟨15, 13, .pw, 0x0⟩, ⟨12, 0, .pw, 0x0⟩]⟩]

/-- The field maps of the WARD registers. -/
def wardMap : List RegDesc :=
  [⟨0x0, 0x0, 1, 0x0, 1, [⟨6, 5, .ro, 0x0⟩, ⟨4, 4, .ro, 0x0⟩, ⟨3, 3, .ro, 0x0⟩, ⟨2, 2, .ro, 0x0⟩, ⟨1, 1, .ro, 0x0⟩, ⟨0, 0, .ro, 0x0⟩]⟩,
   ⟨0x8, 0x0, 1, 0x0, 1, [⟨63, 0, .wo, 0x0⟩]⟩,
   ⟨0x10, 0x0, 1, 0x0, 1, [⟨31, 0, .ro, 0x0⟩]⟩,
   ⟨0x18, 0x0, 1, 0x0, 1, [⟨63, 63, .w1c, 0x0⟩, ⟨62, 58, .ro, 0x0⟩, ⟨57, 57, .ro, 0x0⟩, ⟨47, 0, .ro, 0x0⟩]⟩,
   ⟨0x20, 0x0, 1, 0x0, 1, [⟨63, 48, .rc, 0x0⟩, ⟨47, 32, .rc, 0x0⟩, ⟨31, 16, .rc, 0x0⟩, ⟨15, 0, .rc, 0x0⟩]⟩,
   ⟨0x100, 0x8, 24, 0x0, 1, [⟨31, 0, .pw, 0x0⟩]⟩]

/-- The field maps of the SYS registers. -/
def sysMap : List RegDesc :=
  [⟨0x0, 0x0, 1, 0x0, 1, [⟨63, 48, .ro, 0x4B5A⟩, ⟨47, 32, .ro, 0x9616⟩, ⟨31, 28, .ro, 0x0⟩, ⟨27, 24, .ro, 0x2⟩, ⟨23, 20, .ro, 0x1⟩, ⟨7, 0, .ro, 0x2⟩]⟩,
   ⟨0x8, 0x0, 1, 0x0, 1, [⟨63, 0, .ro, 0x0⟩]⟩,
   ⟨0x10, 0x0, 1, 0x0, 1, [⟨3, 3, .ro, 0x0⟩, ⟨2, 2, .ro, 0x0⟩, ⟨1, 0, .ro, 0x0⟩]⟩,
   ⟨0x18, 0x0, 1, 0x0, 1, [⟨1, 0, .ro, 0x0⟩]⟩,
   ⟨0x40, 0x0, 1, 0x0, 1, [⟨27, 24, .pw, 0x0⟩, ⟨23, 20, .pw, 0x0⟩, ⟨19, 18, .pw, 0x0⟩, ⟨11, 8, .pw, 0x0⟩, ⟨7, 0, .pw, 0x0⟩]⟩,
   ⟨0x48, 0x0, 1, 0x0, 1, [⟨47, 0, .pw, 0x0⟩]⟩,
   ⟨0x50, 0x0, 1, 0x0, 1, [⟨23, 0, .pw, 0x0⟩]⟩,
   ⟨0x58, 0x0, 1, 0x0, 1, [⟨31, 0, .ro, 0xEF03E00⟩]⟩,
   ⟨0x60, 0x0, 1, 0x0, 1, [⟨31, 0, .ro, 0x0⟩]⟩,
   ⟨0x68, 0x0, 1, 0x0, 1, [⟨63, 48, .pw, 0x0⟩, ⟨47, 32, .pw, 0x0⟩, ⟨31, 16, .pw, 0x0⟩, ⟨15, 0, .pw, 0x0⟩]⟩,
   ⟨0x70, 0x0, 1, 0x0, 1, [⟨63, 48, .pw, 0x0⟩, ⟨47, 32, .pw, 0x0⟩, ⟨31, 16, .pw, 0x0⟩, ⟨15, 0, .pw, 0x0⟩]⟩,
   ⟨0x78, 0x0, 1, 0x0, 1, [⟨63, 48, .pw, 0x0⟩, ⟨47, 32, .pw, 0x0⟩, ⟨31, 16, .pw, 0x0⟩, ⟨15, 0, .pw, 0x0⟩]⟩]

/-- The field maps of the TIME registers. -/
def timeMap : List RegDesc :=
  [⟨0x0, 0x0, 1, 0x0, 1, [⟨47, 40, .rw, 0x2⟩, ⟨31, 16, .rw, 0x4⟩, ⟨15, 0, .rw, 0x400⟩]⟩,
   ⟨0x8, 0x0, 1, 0x0, 1, [⟨11, 11, .ro, 0x0⟩, ⟨10, 10, .ro, 0x0⟩, ⟨9, 9, .ro, 0x0⟩, ⟨8, 8, .ro, 0x0⟩, ⟨7, 0, .ro, 0x0⟩]⟩,
   ⟨0x10, 0x0, 1, 0x0, 1, [⟨5, 5, .rw, 0x0⟩, ⟨4, 0, .rw, 0x0⟩]⟩,
   ⟨0x18, 0x0, 1, 0x0, 1, [⟨63, 48, .rc, 0x0⟩, ⟨47, 16, .ro, 0x0⟩, ⟨6, 6, .ro, 0x0⟩, ⟨5, 5, .ro, 0x1⟩, ⟨4, 0, .ro, 0x0⟩]⟩,
   ⟨0x20, 0x0, 1, 0x0, 1, [⟨12, 12, .rw, 0x0⟩, ⟨11, 0, .rw, 0x0⟩]⟩,
   ⟨0x28, 0x0, 1, 0x0, 1, [⟨0, 0, .wo, 0x0⟩]⟩,
   ⟨0x30, 0x0, 1, 0x0, 1, [⟨63, 63, .ro, 0x0⟩, ⟨62, 62, .ro, 0x0⟩, ⟨47, 0, .ro, 0x0⟩]⟩,
   ⟨0x38, 0x0, 1, 0x0, 1, [⟨25, 5, .ro, 0x0⟩, ⟨4, 0, .ro, 0x0⟩]⟩,
   ⟨0x40, 0x0, 1, 0x0, 1, [⟨63, 0, .ro, 0x0⟩]⟩,
   ⟨0x48, 0x0, 1, 0x0, 1, [⟨63, 0, .ro, 0x0⟩]⟩,
   ⟨0x50, 0x0, 1, 0x0, 1, [⟨63, 0, .ro, 0x0⟩]⟩,
   ⟨0x58, 0x0, 1, 0x0, 1, [⟨63, 48, .rc, 0x0⟩, ⟨47, 32, .rc, 0x0⟩, ⟨31, 16, .rc, 0x0⟩, ⟨15, 0, .rc, 0x0⟩]⟩]
  ++
  [⟨0x60, 0x0, 1, 0x0, 1, [⟨47, 0, .ro, 0x0⟩]⟩,
   ⟨0x68, 0x0, 1, 0x0, 1, [⟨63, 0, .ro, 0x0⟩]⟩,
   ⟨0x70, 0x0, 1, 0x0, 1, [⟨47, 0, .ro, 0x0⟩]⟩,
   ⟨0x100, 0x8, 24, 0x0, 1, [⟨63, 63, .pw, 0x0⟩, ⟨31, 0, .pw, 0x0⟩]⟩,
   ⟨0x200, 0x8, 24, 0x0, 1, [⟨31, 0, .pw, 0x0⟩]⟩,
   ⟨0x300, 0x20, 8, 0x0, 1, [⟨63, 48, .rw, 0x0⟩, ⟨47, 24, .rw, 0x1⟩, ⟨6, 6, .w1c, 0x0⟩, ⟨5, 5, .w1c, 0x0⟩, ⟨4, 4, .rw, 0x1⟩, ⟨3, 3, .rw, 0x0⟩, ⟨1, 1, .rw, 0x0⟩, ⟨0, 0, .rw, 0x0⟩]⟩,
   ⟨0x308, 0x20, 8, 0x0, 1, [⟨63, 0, .rw, 0x0⟩]⟩,
   ⟨0x310, 0x20, 8, 0x0, 1, [⟨63, 0, .rw, 0x0⟩]⟩,
   ⟨0x318, 0x20, 8, 0x0, 1, [⟨63, 48, .rc, 0x0⟩, ⟨47, 0, .rw, 0x0⟩]⟩,
   ⟨0x400, 0x20, 5, 0x0, 1, [⟨63, 48, .rc, 0x0⟩, ⟨47, 32, .rw, 0x0⟩, ⟨7, 3, .ro, 0x0⟩, ⟨2, 1, .rw, 0x1⟩]⟩,
   ⟨0x408, 0x20, 5, 0x0, 1, [⟨63, 0, .ro, 0x0⟩]⟩,
   ⟨0x410, 0x20, 5, 0x0, 1, [⟨63, 0, .rc, 0x0⟩]⟩]

/-- The field maps of the CLS registers. -/
def clsMap : List RegDesc :=
  [⟨0x0, 0x0, 1, 0x0, 1, [⟨63, 50, .pw, 0x0⟩, ⟨49, 48, .pw, 0x0⟩, ⟨1, 1, .pw, 0x0⟩, ⟨0, 0, .pw, 0x0⟩]⟩,
   ⟨0x8, 0x0, 1, 0x0, 1, [⟨2, 2, .ro, 0x0⟩, ⟨1, 1, .w1c, 0x0⟩, ⟨0, 0, .ro, 0x0⟩]⟩,
   ⟨0x10, 0x0, 1, 0x0, 1, [⟨1, 0, .pw, 0x0⟩]⟩,
   ⟨0x18, 0x0, 1, 0x0, 1, [⟨63, 48, .ro, 0x0⟩, ⟨47, 32, .ro, 0x0⟩, ⟨15, 15, .ro, 0x0⟩, ⟨14, 14, .ro, 0x0⟩, ⟨13, 13, .ro, 0x0⟩, ⟨3, 0, .ro, 0x0⟩]⟩,
   ⟨0x20, 0x0, 1, 0x0, 1, [⟨4, 0, .pw, 0x0⟩]⟩,
   ⟨0x28, 0x0, 1, 0x0, 1, [⟨62, 60, .pw, 0x0⟩, ⟨57, 56, .pw, 0x0⟩, ⟨55, 55, .pw, 0x0⟩, ⟨51, 32, .pw, 0x0⟩, ⟨3, 0, .ro, 0x0⟩]⟩,
   ⟨0x30, 0x0, 1, 0x0, 1, [⟨11, 0, .pw, 0x800⟩]⟩,
   ⟨0x38, 0x0, 1, 0x0, 1, [⟨47, 0, .rc, 0x0⟩]⟩,
   ⟨0x100, 0x8, 18, 0x0, 1, [⟨63, 0, .pw, 0x0⟩]⟩,
   ⟨0x190, 0x8, 1, 0x0, 1, [⟨47, 0, .ro, 0x0⟩]⟩,
   ⟨0x198, 0x8, 1, 0x0, 1, [⟨55, 0, .ro, 0x0⟩]⟩,
   ⟨0x200, 0x8, 16, 0x0, 1, [⟨13, 0, .pw, 0x0⟩]⟩,
   ⟨0x280, 0x8, 8, 0x0, 1, [⟨47, 0, .rc, 0x0⟩]⟩]

/-- The field maps of the QM registers. -/
def qmMap : List RegDesc :=
  [⟨0x0, 0x0, 1, 0x0, 1, [⟨2, 2, .w1c, 0x0⟩, ⟨1, 1, .w1c, 0x0⟩, ⟨0, 0, .ro, 0x0⟩]⟩,
   ⟨0x8, 0x0, 1, 0x0, 1, [⟨63, 44, .pw, 0x20000⟩, ⟨43, 28, .pw, 0x1000⟩, ⟨27, 12, .pw, 0x800⟩]⟩,
   ⟨0x10, 0x0, 1, 0x0, 1, [⟨63, 44, .pw, 0x10000⟩, ⟨43, 32, .pw, 0x40⟩, ⟨15, 10, .pw, 0x30⟩, ⟨9, 8, .pw, 0x3⟩]⟩,
   ⟨0x18, 0x0, 1, 0x0, 1, [⟨39, 20, .ro, 0x0⟩, ⟨19, 0, .ro, 0x0⟩]⟩,
   ⟨0x20, 0x0, 1, 0x0, 1, [⟨39, 20, .ro, 0x0⟩, ⟨19, 0, .ro, 0x0⟩]⟩,
   ⟨0x28, 0x0, 1, 0x0, 1, [⟨63, 36, .ro, 0x0⟩, ⟨35, 8, .ro, 0x0⟩]⟩,
   ⟨0x30, 0x0, 1, 0x0, 1, [⟨59, 32, .ro, 0x0⟩, ⟨27, 0, .ro, 0x0⟩]⟩,
   ⟨0x38, 0x0, 1, 0x0, 1, [⟨57, 56, .pw, 0x0⟩, ⟨45, 32, .pw, 0x0⟩, ⟨3, 0, .ro, 0x0⟩]⟩,
   ⟨0x100, 0x0, 1, 0x0, 1, [⟨63, 63, .pw, 0x0⟩, ⟨62, 62, .pw, 0x0⟩, ⟨61, 56, .pw, 0x0⟩, ⟨47, 44, .pw, 0x0⟩, ⟨43, 40, .pw, 0x0⟩, ⟨19, 0, .pw, 0x0⟩]⟩,
   ⟨0x108, 0x0, 1, 0x0, 1, [⟨63, 40, .ro, 0x0⟩, ⟨39, 0, .ro, 0x0⟩]⟩,
   ⟨0x110, 0x0, 1, 0x0, 1, [⟨47, 0, .ro, 0x0⟩]⟩,
   ⟨0x118, 0x0, 1, 0x0, 1, [⟨47, 0, .ro, 0x0⟩]⟩]
  ++
  [⟨0x200, 0x8, 16, 0x0, 1, [⟨47, 0, .rc, 0x0⟩]⟩]

/-- The field maps of the SCH registers. -/
def schMap : List RegDesc :=
  [⟨0x0, 0x0, 1, 0x0, 1, [⟨6, 0, .pw, 0x40⟩]⟩,
   ⟨0x8, 0x0, 1, 0x0, 1, [⟨1, 1, .w1c, 0x0⟩, ⟨0, 0, .ro, 0x0⟩]⟩,
   ⟨0x10, 0x0, 1, 0x0, 1, [⟨61, 60, .pw, 0x0⟩, ⟨57, 56, .pw, 0x0⟩, ⟨45, 32, .pw, 0x0⟩, ⟨3, 0, .ro, 0x0⟩]⟩,
   ⟨0x18, 0x0, 1, 0x0, 1, [⟨47, 0, .rc, 0x0⟩]⟩,
   ⟨0x100, 0x0, 1, 0x0, 1, [⟨63, 63, .pw, 0x0⟩, ⟨62, 62, .pw, 0x0⟩, ⟨55, 46, .pw, 0x0⟩, ⟨45, 43, .pw, 0x0⟩, ⟨42, 40, .pw, 0x0⟩, ⟨39, 28, .pw, 0x0⟩, ⟨20, 14, .pw, 0x0⟩]⟩,
   ⟨0x108, 0x0, 1, 0x0, 1, [⟨63, 63, .pw, 0x0⟩, ⟨62, 61, .pw, 0x0⟩, ⟨60, 53, .pw, 0x0⟩, ⟨51, 36, .pw, 0x0⟩, ⟨19, 0, .pw, 0x0⟩]⟩,
   ⟨0x110, 0x0, 1, 0x0, 1, [⟨63, 0, .ro, 0x0⟩]⟩,
   ⟨0x118, 0x0, 1, 0x0, 1, [⟨63, 63, .ro, 0x0⟩, ⟨62, 62, .ro, 0x0⟩, ⟨11, 0, .ro, 0x0⟩]⟩]

/-- The field maps of the PIPE registers. -/
def pipeMap : List RegDesc :=
  [⟨0x0, 0x8, 8, 0x0, 1, [⟨47, 0, .rc, 0x0⟩]⟩,
   ⟨0x40, 0x8, 8, 0x0, 1, [⟨47, 0, .rc, 0x0⟩]⟩]

/-- The field maps of the CLI registers. -/
def cliMap : List RegDesc :=
  [⟨0x0, 0x0, 1, 0x0, 1, [⟨35, 32, .rw, 0x0⟩, ⟨31, 31, .rw, 0x0⟩, ⟨30, 30, .rw, 0x0⟩, ⟨29, 28, .rw, 0x0⟩, ⟨26, 24, .rw, 0x0⟩, ⟨23, 0, .rw, 0xFAC688⟩]⟩,
   ⟨0x8, 0x0, 1, 0x0, 1, [⟨16, 16, .w1c, 0x0⟩, ⟨15, 8, .ro, 0x0⟩, ⟨7, 7, .ro, 0x0⟩, ⟨6, 6, .w1c, 0x0⟩, ⟨5, 5, .ro, 0x0⟩, ⟨4, 4, .ro, 0x0⟩, ⟨3, 3, .ro, 0x0⟩, ⟨2, 2, .ro, 0x0⟩, ⟨1, 1, .ro, 0x0⟩, ⟨0, 0, .ro, 0x0⟩]⟩,
   ⟨0x10, 0x0, 1, 0x0, 1, [⟨39, 38, .rw, 0x0⟩, ⟨37, 37, .rw, 0x0⟩, ⟨36, 36, .rw, 0x0⟩, ⟨35, 35, .rw, 0x1⟩, ⟨29, 24, .rw, 0x30⟩, ⟨23, 18, .rw, 0x3C⟩, ⟨17, 12, .rw, 0x34⟩, ⟨11, 6, .rw, 0x38⟩, ⟨5, 0, .rw, 0x0⟩]⟩,
   ⟨0x18, 0x0, 1, 0x0, 1, [⟨47, 0, .rw, 0x0⟩]⟩,
   ⟨0x20, 0x0, 1, 0x0, 1, [⟨30, 16, .rw, 0x5EE⟩, ⟨2, 2, .rw, 0x0⟩, ⟨1, 1, .rw, 0x0⟩, ⟨0, 0, .rw, 0x1⟩]⟩,
   ⟨0x28, 0x0, 1, 0x0, 1, [⟨63, 48, .rw, 0xFFFF⟩, ⟨47, 32, .rw, 0x8000⟩, ⟨31, 12, .rw, 0x2000⟩, ⟨7, 0, .rw, 0x0⟩]⟩,
   ⟨0x30, 0x0, 1, 0x0, 1, [⟨31, 16, .rw, 0x200⟩, ⟨15, 0, .rw, 0x100⟩]⟩,
   ⟨0x38, 0x0, 1, 0x0, 1, [⟨63, 32, .rw, 0x0⟩, ⟨31, 0, .rw, 0x0⟩]⟩,
   ⟨0x40, 0x0, 1, 0x0, 1, [⟨31, 16, .rw, 0x64⟩, ⟨15, 15, .rw, 0x0⟩, ⟨14, 14, .rw, 0x1⟩, ⟨13, 13, .rw, 0x0⟩, ⟨12, 8, .rw, 0x0⟩, ⟨7, 0, .rw, 0x20⟩]⟩,
   ⟨0x48, 0x0, 1, 0x0, 1, [⟨41, 32, .rw, 0x0⟩, ⟨29, 0, .rw, 0xF4240⟩]⟩,
   ⟨0x50, 0x0, 1, 0x0, 1, [⟨63, 0, .rw, 0x0⟩]⟩,
   ⟨0x58, 0x0, 1, 0x0, 1, [⟨31, 0, .rw, 0x0⟩]⟩]
  ++
  [⟨0x60, 0x0, 1, 0x0, 1, [⟨9, 2, .rw, 0xFF⟩, ⟨1, 0, .rw, 0x0⟩]⟩,
   ⟨0x68, 0x0, 1, 0x0, 1, [⟨47, 40, .ro, 0xFF⟩, ⟨39, 30, .ro, 0x0⟩, ⟨5, 5, .w1c, 0x0⟩, ⟨4, 4, .w1c, 0x0⟩, ⟨3, 3, .w1c, 0x0⟩, ⟨2, 2, .ro, 0x0⟩, ⟨1, 1, .ro, 0x0⟩, ⟨0, 0, .ro, 0x0⟩]⟩,
   ⟨0x70, 0x0, 1, 0x0, 1, [⟨10, 10, .rw, 0x0⟩, ⟨9, 0, .rw, 0x0⟩]⟩,
   ⟨0x78, 0x0, 1, 0x0, 1, [⟨39, 32, .rw, 0x0⟩, ⟨29, 0, .rw, 0x0⟩]⟩,
   ⟨0x100, 0x0, 1, 0x0, 1, [⟨47, 0, .rc, 0x0⟩]⟩,
   ⟨0x108, 0x0, 1, 0x0, 1, [⟨47, 0, .rc, 0x0⟩]⟩,
   ⟨0x110, 0x0, 1, 0x0, 1, [⟨47, 0, .rc, 0x0⟩]⟩,
   ⟨0x118, 0x0, 1, 0x0, 1, [⟨47, 0, .rc, 0x0⟩]⟩,
   ⟨0x80, 0x8, 16, 0x0, 1, [⟨63, 63, .rw, 0x0⟩, ⟨47, 0, .rw, 0x0⟩]⟩,
   ⟨0x180, 0x8, 16, 0x0, 1, [⟨47, 0, .rc, 0x0⟩]⟩]

/-- The field maps of the CIRC registers. -/
def circMap : List RegDesc :=
  [⟨0x0, 0x0, 1, 0x0, 1, [⟨52, 32, .pw, 0x0⟩, ⟨0, 0, .pw, 0x0⟩]⟩,
   ⟨0x8, 0x0, 1, 0x0, 1, [⟨1, 1, .w1c, 0x0⟩, ⟨0, 0, .ro, 0x0⟩]⟩,
   ⟨0x10, 0x0, 1, 0x0, 1, [⟨61, 60, .pw, 0x0⟩, ⟨57, 56, .pw, 0x0⟩, ⟨44, 32, .pw, 0x0⟩, ⟨3, 0, .ro, 0x0⟩]⟩,
   ⟨0x100, 0x0, 1, 0x0, 1, [⟨63, 8, .pw, 0x0⟩, ⟨4, 0, .pw, 0x2⟩]⟩,
   ⟨0x108, 0x0, 1, 0x0, 1, [⟨63, 0, .ro, 0x0⟩]⟩,
   ⟨0x110, 0x0, 1, 0x0, 1, [⟨63, 0, .ro, 0x0⟩]⟩,
   ⟨0x200, 0x8, 16, 0x0, 1, [⟨47, 0, .rc, 0x0⟩]⟩,
   ⟨0x4000, 0x8, 192, 0x0, 1, [⟨9, 8, .pw, 0x0⟩, ⟨6, 0, .pw, 0x0⟩]⟩,
   ⟨0x1000, 0x40, 96, 0x0, 1, [⟨39, 32, .pw, 0x1⟩, ⟨31, 24, .pw, 0xF⟩, ⟨2, 2, .pw, 0x1⟩, ⟨1, 1, .pw, 0x0⟩, ⟨0, 0, .pw, 0x0⟩]⟩,
   ⟨0x1008, 0x40, 96, 0x0, 1, [⟨47, 32, .ro, 0x0⟩, ⟨15, 0, .pw, 0x0⟩]⟩,
   ⟨0x1010, 0x40, 96, 0x0, 1, [⟨31, 24, .ro, 0x0⟩, ⟨23, 16, .ro, 0x0⟩, ⟨5, 1, .ro, 0x0⟩, ⟨0, 0, .ro, 0x0⟩]⟩,
   ⟨0x1018, 0x40, 96, 0x0, 1, [⟨6, 6, .w1c, 0x0⟩, ⟨5, 1, .w1c, 0x0⟩]⟩]
  ++
  [⟨0x1020, 0x40, 96, 0x0, 1, [⟨63, 32, .rc, 0x0⟩, ⟨31, 0, .rc, 0x0⟩]⟩]

/-- The field maps of the CIPH registers. -/
def ciphMap : List RegDesc :=
  [⟨0x0, 0x0, 1, 0x0, 1, [⟨3, 0, .pw, 0x0⟩]⟩,
   ⟨0x8, 0x0, 1, 0x0, 1, [⟨24, 16, .ro, 0x0⟩, ⟨15, 8, .ro, 0x0⟩, ⟨1, 1, .w1c, 0x0⟩, ⟨0, 0, .ro, 0x0⟩]⟩,
   ⟨0x10, 0x0, 1, 0x0, 1, [⟨59, 48, .pw, 0x0⟩, ⟨7, 4, .ro, 0x0⟩, ⟨1, 0, .pw, 0x0⟩]⟩,
   ⟨0x18, 0x0, 1, 0x0, 1, [⟨35, 20, .ro, 0x0⟩, ⟨19, 4, .ro, 0x0⟩, ⟨3, 2, .ro, 0x0⟩, ⟨1, 0, .ro, 0x0⟩]⟩,
   ⟨0x20, 0x0, 1, 0x0, 1, [⟨63, 32, .ro, 0x0⟩, ⟨31, 0, .ro, 0x0⟩]⟩,
   ⟨0x48, 0x0, 1, 0x0, 1, [⟨63, 62, .pw, 0x0⟩, ⟨57, 56, .pw, 0x0⟩, ⟨43, 32, .pw, 0x0⟩, ⟨3, 0, .ro, 0x0⟩]⟩,
   ⟨0x28, 0x8, 4, 0x0, 1, [⟨63, 0, .wo, 0x0⟩]⟩,
   ⟨0x50, 0x8, 4, 0x0, 1, [⟨63, 0, .pw, 0x0⟩]⟩,
   ⟨0x100, 0x8, 16, 0x0, 1, [⟨47, 0, .rc, 0x0⟩]⟩,
   ⟨0x200, 0x8, 64, 0x0, 1, [⟨63, 63, .pw, 0x0⟩, ⟨62, 62, .pw, 0x0⟩, ⟨61, 61, .pw, 0x0⟩, ⟨56, 48, .pw, 0x0⟩, ⟨40, 32, .ro, 0x0⟩]⟩]

/-- The field maps of the LSCH registers. -/
def lschMap : List RegDesc :=
  [⟨0x0, 0x0, 1, 0x0, 1, [⟨47, 32, .pw, 0x3E8⟩]⟩,
   ⟨0x8, 0x0, 1, 0x0, 1, [⟨35, 27, .ro, 0x0⟩, ⟨26, 18, .ro, 0x0⟩, ⟨17, 9, .ro, 0x0⟩, ⟨3, 3, .w1c, 0x0⟩, ⟨2, 2, .w1c, 0x0⟩, ⟨1, 1, .ro, 0x0⟩, ⟨0, 0, .ro, 0x0⟩]⟩,
   ⟨0x10, 0x0, 1, 0x0, 1, [⟨61, 60, .pw, 0x0⟩, ⟨57, 56, .pw, 0x0⟩, ⟨47, 32, .pw, 0x0⟩, ⟨3, 0, .ro, 0x0⟩]⟩,
   ⟨0x18, 0x0, 1, 0x0, 1, [⟨63, 0, .pw, 0x0⟩]⟩,
   ⟨0x20, 0x0, 1, 0x0, 1, [⟨63, 0, .pw, 0x0⟩]⟩,
   ⟨0x28, 0x0, 1, 0x0, 1, [⟨3, 0, .pw, 0x0⟩]⟩,
   ⟨0x30, 0x0, 1, 0x0, 1, [⟨32, 0, .pw, 0x0⟩]⟩,
   ⟨0x38, 0x0, 1, 0x0, 1, [⟨15, 8, .ro, 0x0⟩, ⟨7, 4, .ro, 0x0⟩, ⟨1, 0, .pw, 0x0⟩]⟩,
   ⟨0x40, 0x0, 1, 0x0, 1, [⟨47, 0, .pw, 0x0⟩]⟩,
   ⟨0x48, 0x0, 1, 0x0, 1, [⟨52, 32, .pw, 0x0⟩, ⟨4, 4, .w1c, 0x0⟩, ⟨3, 3, .w1c, 0x0⟩, ⟨2, 2, .ro, 0x0⟩, ⟨1, 0, .pw, 0x0⟩]⟩,
   ⟨0x100, 0x8, 16, 0x0, 1, [⟨47, 0, .rc, 0x0⟩]⟩]

/-- The field maps of the LATCH registers. -/
def latchMap : List RegDesc :=
  [⟨0x0, 0x0, 1, 0x0, 1, [⟨42, 32, .ro, 0x0⟩, ⟨26, 16, .ro, 0x0⟩]⟩,
   ⟨0x8, 0x0, 1, 0x0, 1, [⟨57, 48, .pw, 0x0⟩, ⟨47, 47, .ro, 0x0⟩, ⟨46, 46, .ro, 0x0⟩, ⟨45, 40, .ro, 0x0⟩, ⟨37, 32, .ro, 0x0⟩, ⟨31, 30, .ro, 0x0⟩]⟩,
   ⟨0x10, 0x0, 1, 0x0, 1, [⟨63, 48, .rc, 0x0⟩, ⟨47, 32, .rc, 0x0⟩, ⟨31, 16, .rc, 0x0⟩]⟩]

/-- The field maps of the CORE registers. -/
def coreMap : List RegDesc :=
  [⟨0x0, 0x0, 1, 0x0, 1, [⟨0, 0, .pw, 0x1⟩]⟩,
   ⟨0x8, 0x0, 1, 0x0, 1, [⟨23, 16, .ro, 0x0⟩, ⟨11, 8, .ro, 0x0⟩, ⟨5, 5, .ro, 0x0⟩, ⟨4, 4, .ro, 0x0⟩, ⟨3, 3, .ro, 0x0⟩, ⟨2, 0, .ro, 0x0⟩]⟩]

/-- The field maps of the GATE registers. -/
def gateMap : List RegDesc :=
  [⟨0x0, 0x0, 1, 0x0, 1, [⟨11, 11, .w1c, 0x0⟩, ⟨10, 10, .ro, 0x0⟩, ⟨9, 8, .ro, 0x0⟩, ⟨7, 4, .ro, 0x0⟩]⟩,
   ⟨0x8, 0x0, 1, 0x0, 1, [⟨6, 6, .w1c, 0x0⟩, ⟨5, 5, .w1c, 0x0⟩, ⟨4, 4, .w1c, 0x0⟩, ⟨3, 3, .w1c, 0x0⟩, ⟨2, 2, .w1c, 0x0⟩, ⟨1, 1, .w1c, 0x0⟩]⟩,
   ⟨0x10, 0x0, 1, 0x0, 1, [⟨12, 8, .rw, 0x0⟩, ⟨6, 1, .rw, 0x0⟩]⟩,
   ⟨0x18, 0x0, 1, 0x0, 1, [⟨63, 48, .rc, 0x0⟩, ⟨47, 32, .rc, 0x0⟩, ⟨31, 16, .rc, 0x0⟩, ⟨15, 0, .rc, 0x0⟩]⟩,
   ⟨0x20, 0x0, 1, 0x0, 1, [⟨63, 63, .rw, 0x0⟩, ⟨39, 0, .rw, 0x0⟩]⟩,
   ⟨0x28, 0x0, 1, 0x0, 1, [⟨63, 0, .ro, 0x0⟩]⟩,
   ⟨0x30, 0x0, 1, 0x0, 1, [⟨63, 63, .w1c, 0x0⟩, ⟨39, 0, .ro, 0x0⟩]⟩,
   ⟨0x40, 0x0, 1, 0x0, 1, [⟨63, 0, .rw, 0x0⟩]⟩,
   ⟨0x48, 0x0, 1, 0x0, 1, [⟨63, 63, .rw, 0x0⟩, ⟨3, 0, .rw, 0x4⟩]⟩,
   ⟨0x50, 0x0, 1, 0x0, 1, [⟨47, 32, .ro, 0x0⟩, ⟨15, 0, .rw, 0x0⟩]⟩,
   ⟨0x58, 0x0, 1, 0x0, 1, [⟨63, 0, .rw, 0x0⟩]⟩,
   ⟨0x60, 0x0, 1, 0x0, 1, [⟨63, 63, .rw, 0x0⟩, ⟨14, 14, .rw, 0x0⟩, ⟨12, 8, .rw, 0x0⟩, ⟨3, 0, .rw, 0x4⟩]⟩]
  ++
  [⟨0x68, 0x0, 1, 0x0, 1, [⟨47, 32, .ro, 0x0⟩, ⟨15, 0, .rw, 0x0⟩]⟩,
   ⟨0x70, 0x0, 1, 0x0, 1, [⟨63, 0, .rw, 0x0⟩]⟩,
   ⟨0x80, 0x0, 1, 0x0, 1, [⟨63, 62, .rw, 0x0⟩, ⟨39, 36, .rw, 0x0⟩, ⟨32, 0, .rw, 0x0⟩]⟩,
   ⟨0x88, 0x0, 1, 0x0, 1, [⟨15, 8, .ro, 0x0⟩, ⟨7, 4, .ro, 0x0⟩]⟩,
   ⟨0x1000, 0x8, 512, 0x0, 1, [⟨5, 0, .rw, 0x0⟩]⟩]

/-- The field maps of the PCIE registers. -/
def pcieMap : List RegDesc :=
  [⟨0x0, 0x0, 1, 0x0, 1, [⟨31, 28, .ro, 0x0⟩, ⟨20, 16, .ro, 0x0⟩, ⟨13, 8, .ro, 0x0⟩, ⟨1, 1, .ro, 0x0⟩, ⟨0, 0, .ro, 0x0⟩]⟩,
   ⟨0x8, 0x0, 1, 0x0, 1, [⟨23, 8, .rw, 0x2710⟩, ⟨7, 4, .rw, 0x7⟩]⟩,
   ⟨0x10, 0x0, 1, 0x0, 1, [⟨63, 48, .rc, 0x0⟩, ⟨47, 32, .rc, 0x0⟩, ⟨31, 16, .rc, 0x0⟩, ⟨15, 0, .rc, 0x0⟩]⟩]

/-- The field maps of the DMA registers. -/
def dmaMap : List RegDesc :=
  [⟨0x0, 0x0, 1, 0x0, 1, [⟨9, 0, .ro, 0x0⟩]⟩,
   ⟨0x10000, 0x1000, 512, 0x0, 1, [⟨63, 62, .rw, 0x0⟩, ⟨61, 59, .rw, 0x0⟩, ⟨57, 48, .rw, 0x0⟩, ⟨45, 40, .rw, 0x0⟩, ⟨35, 32, .rw, 0x1⟩, ⟨20, 16, .rw, 0x0⟩, ⟨7, 0, .rw, 0x0⟩]⟩,
   ⟨0x10008, 0x1000, 512, 0x0, 1, [⟨63, 0, .rw, 0x0⟩]⟩,
   ⟨0x10010, 0x1000, 512, 0x0, 1, [⟨63, 0, .rw, 0x0⟩]⟩,
   ⟨0x10018, 0x1000, 512, 0x0, 1, [⟨63, 63, .rw, 0x0⟩, ⟨62, 62, .rw, 0x0⟩, ⟨3, 0, .rw, 0x4⟩]⟩,
   ⟨0x10020, 0x1000, 512, 0x0, 1, [⟨63, 0, .rw, 0x0⟩]⟩,
   ⟨0x10080, 0x1000, 512, 0x0, 1, [⟨2, 0, .rw, 0x0⟩]⟩,
   ⟨0x10088, 0x1000, 512, 0x0, 1, [⟨63, 0, .wo, 0x0⟩]⟩,
   ⟨0x10090, 0x1000, 512, 0x0, 1, [⟨63, 60, .ro, 0x0⟩, ⟨10, 10, .w1c, 0x0⟩, ⟨9, 9, .ro, 0x0⟩, ⟨8, 8, .ro, 0x0⟩, ⟨2, 0, .ro, 0x0⟩]⟩,
   ⟨0x10098, 0x1000, 512, 0x0, 1, [⟨63, 0, .ro, 0x0⟩]⟩,
   ⟨0x100A0, 0x1000, 512, 0x0, 1, [⟨31, 0, .ro, 0x0⟩]⟩,
   ⟨0x100A8, 0x1000, 512, 0x0, 1, [⟨47, 32, .ro, 0x0⟩, ⟨15, 0, .rw, 0x0⟩]⟩]
  ++
  [⟨0x100B0, 0x1000, 512, 0x0, 1, [⟨63, 32, .rc, 0x0⟩, ⟨31, 16, .rc, 0x0⟩, ⟨15, 0, .rc, 0x0⟩]⟩,
   ⟨0x100B8, 0x1000, 512, 0x0, 1, [⟨14, 9, .ro, 0x0⟩, ⟨8, 0, .ro, 0x0⟩]⟩,
   ⟨0x10040, 0x1000, 512, 0x0, 1, [⟨63, 62, .ro, 0x0⟩, ⟨61, 59, .ro, 0x0⟩, ⟨57, 48, .ro, 0x0⟩, ⟨45, 40, .ro, 0x0⟩, ⟨35, 32, .ro, 0x1⟩, ⟨20, 16, .ro, 0x0⟩, ⟨7, 0, .ro, 0x0⟩]⟩,
   ⟨0x10048, 0x1000, 512, 0x0, 1, [⟨63, 0, .ro, 0x0⟩]⟩,
   ⟨0x10050, 0x1000, 512, 0x0, 1, [⟨63, 0, .ro, 0x0⟩]⟩,
   ⟨0x10058, 0x1000, 512, 0x0, 1, [⟨63, 63, .ro, 0x0⟩, ⟨62, 62, .ro, 0x0⟩, ⟨3, 0, .ro, 0x4⟩]⟩,
   ⟨0x10060, 0x1000, 512, 0x0, 1, [⟨63, 0, .ro, 0x0⟩]⟩]

/-- The field maps of the HINGE registers. -/
def hingeMap : List RegDesc :=
  [⟨0x0, 0x0, 1, 0x0, 1, [⟨45, 32, .pw, 0x400⟩, ⟨0, 0, .pw, 0x0⟩]⟩,
   ⟨0x8, 0x0, 1, 0x0, 1, [⟨15, 0, .pw, 0x0⟩]⟩,
   ⟨0x10, 0x0, 1, 0x0, 1, [⟨31, 31, .ro, 0x0⟩, ⟨30, 29, .ro, 0x0⟩, ⟨28, 28, .ro, 0x0⟩, ⟨27, 26, .ro, 0x0⟩, ⟨25, 24, .ro, 0x0⟩, ⟨23, 23, .ro, 0x0⟩, ⟨22, 22, .ro, 0x0⟩, ⟨21, 21, .ro, 0x0⟩, ⟨20, 17, .ro, 0x0⟩, ⟨16, 7, .ro, 0x3FE⟩, ⟨6, 6, .w1c, 0x0⟩, ⟨5, 5, .w1c, 0x0⟩, ⟨4, 4, .w1c, 0x0⟩, ⟨3, 3, .w1c, 0x0⟩, ⟨2, 2, .w1c, 0x0⟩, ⟨1, 1, .w1c, 0x0⟩, ⟨0, 0, .w1c, 0x0⟩]⟩,
   ⟨0x18, 0x0, 1, 0x0, 1, [⟨63, 0, .ro, 0x0⟩]⟩,
   ⟨0x20, 0x0, 1, 0x0, 1, [⟨63, 48, .rc, 0x0⟩, ⟨47, 32, .rc, 0x0⟩, ⟨31, 16, .rc, 0x0⟩, ⟨15, 0, .rc, 0x0⟩]⟩,
   ⟨0x28, 0x0, 1, 0x0, 1, [⟨63, 48, .rc, 0x0⟩, ⟨47, 32, .rc, 0x0⟩, ⟨31, 16, .rc, 0x0⟩]⟩,
   ⟨0x40, 0x8, 4, 0x0, 1, [⟨39, 38, .rw, 0x0⟩, ⟨37, 37, .rw, 0x0⟩, ⟨36, 36, .rw, 0x0⟩, ⟨35, 35, .rw, 0x1⟩, ⟨29, 24, .rw, 0x30⟩, ⟨23, 18, .rw, 0x3C⟩, ⟨17, 12, .rw, 0x34⟩, ⟨11, 6, .rw, 0x38⟩, ⟨5, 0, .rw, 0x0⟩]⟩]

/-- The field maps of the MBOX registers. -/
def mboxMap : List RegDesc :=
  [⟨0x0, 0x0, 1, 0x0, 1, [⟨63, 48, .rc, 0x0⟩, ⟨47, 32, .rc, 0x0⟩, ⟨31, 16, .rc, 0x0⟩, ⟨7, 7, .w1c, 0x0⟩, ⟨6, 6, .w1c, 0x0⟩, ⟨4, 2, .ro, 0x0⟩, ⟨1, 1, .ro, 0x0⟩, ⟨0, 0, .ro, 0x0⟩]⟩,
   ⟨0x8, 0x0, 1, 0x0, 1, [⟨63, 48, .pw, 0x0⟩, ⟨47, 40, .pw, 0x0⟩, ⟨39, 31, .pw, 0x0⟩, ⟨1, 1, .pw, 0x0⟩, ⟨0, 0, .ro, 0x0⟩]⟩,
   ⟨0x10, 0x0, 1, 0x0, 1, [⟨63, 48, .ro, 0x0⟩, ⟨47, 40, .ro, 0x0⟩, ⟨39, 31, .ro, 0x0⟩, ⟨1, 1, .pw, 0x0⟩, ⟨0, 0, .ro, 0x0⟩]⟩,
   ⟨0x18, 0x0, 1, 0x0, 1, [⟨0, 0, .pw, 0x0⟩]⟩,
   ⟨0x20, 0x0, 1, 0x0, 1, [⟨47, 32, .ro, 0x3E8⟩, ⟨7, 4, .ro, 0x0⟩, ⟨3, 0, .ro, 0x0⟩]⟩,
   ⟨0x28, 0x0, 1, 0x0, 1, [⟨3, 3, .ro, 0x0⟩, ⟨2, 0, .ro, 0x0⟩]⟩,
   ⟨0x30, 0x0, 1, 0x0, 1, [⟨63, 0, .ro, 0x0⟩]⟩,
   ⟨0x38, 0x0, 1, 0x0, 1, [⟨63, 0, .ro, 0x0⟩]⟩,
   ⟨0x40, 0x0, 1, 0x0, 1, [⟨63, 0, .ro, 0x0⟩]⟩,
   ⟨0x48, 0x0, 1, 0x0, 1, [⟨63, 0, .ro, 0x0⟩]⟩,
   ⟨0x50, 0x0, 1, 0x0, 1, [⟨63, 0, .ro, 0x0⟩]⟩,
   ⟨0x58, 0x0, 1, 0x0, 1, [⟨63, 0, .ro, 0x0⟩]⟩]
  ++
  [⟨0x80, 0x8, 32, 0x0, 1, [⟨63, 0, .pw, 0x0⟩]⟩,
   ⟨0x180, 0x8, 32, 0x0, 1, [⟨63, 0, .ro, 0x0⟩]⟩,
   ⟨0x300, 0x8, 6, 0x0, 1, [⟨63, 0, .ro, 0x0⟩]⟩,
   ⟨0x340, 0x8, 8, 0x0, 1, [⟨63, 0, .ro, 0x0⟩]⟩]

/-- The field maps of the FLT registers. -/
def fltMap : List RegDesc :=
  [⟨0x0, 0x0, 1, 0x0, 1, [⟨63, 48, .rc, 0x0⟩, ⟨31, 19, .ro, 0x0⟩, ⟨7, 7, .w1c, 0x0⟩, ⟨6, 6, .w1c, 0x0⟩, ⟨5, 5, .ro, 0x0⟩, ⟨4, 3, .ro, 0x0⟩, ⟨0, 0, .ro, 0x0⟩]⟩,
   ⟨0x8, 0x0, 1, 0x0, 1, [⟨63, 0, .w1c, 0x0⟩]⟩,
   ⟨0x10, 0x0, 1, 0x0, 1, [⟨63, 0, .w1c, 0x0⟩]⟩,
   ⟨0x18, 0x0, 1, 0x0, 1, [⟨63, 0, .w1c, 0x0⟩]⟩,
   ⟨0x20, 0x0, 1, 0x0, 1, [⟨63, 0, .ro, 0x0⟩]⟩,
   ⟨0x28, 0x0, 1, 0x0, 1, [⟨63, 0, .w1c, 0x0⟩]⟩,
   ⟨0x30, 0x0, 1, 0x0, 1, [⟨63, 0, .pw, 0x0⟩]⟩,
   ⟨0x38, 0x0, 1, 0x0, 1, [⟨63, 0, .ro, 0x0⟩]⟩,
   ⟨0x40, 0x18, 2, 0x0, 1, [⟨63, 63, .w1c, 0x0⟩, ⟨62, 62, .ro, 0x0⟩, ⟨61, 56, .ro, 0x0⟩, ⟨55, 54, .ro, 0x0⟩, ⟨47, 32, .ro, 0x0⟩]⟩,
   ⟨0x70, 0x0, 1, 0x0, 1, [⟨63, 63, .ro, 0x0⟩, ⟨62, 62, .ro, 0x0⟩, ⟨61, 56, .ro, 0x0⟩, ⟨55, 54, .ro, 0x0⟩, ⟨47, 32, .ro, 0x0⟩]⟩,
   ⟨0x48, 0x18, 3, 0x0, 1, [⟨63, 0, .ro, 0x0⟩]⟩,
   ⟨0x50, 0x18, 3, 0x0, 1, [⟨63, 0, .ro, 0x0⟩]⟩,
   ⟨0x88, 0x0, 1, 0x0, 1, [⟨63, 63, .ro, 0x0⟩, ⟨62, 62, .ro, 0x0⟩, ⟨61, 56, .ro, 0x0⟩, ⟨55, 54, .ro, 0x0⟩, ⟨47, 32, .ro, 0x0⟩]⟩]
  ++
  [⟨0x90, 0x0, 1, 0x0, 1, [⟨63, 0, .ro, 0x0⟩]⟩,
   ⟨0x98, 0x0, 1, 0x0, 1, [⟨63, 0, .ro, 0x0⟩]⟩,
   ⟨0xA0, 0x0, 1, 0x0, 1, [⟨0, 0, .pw, 0x0⟩]⟩,
   ⟨0x100, 0x8, 8, 0x0, 1, [⟨63, 0, .ro, 0x0⟩]⟩,
   ⟨0x200, 0x8, 64, 0x0, 1, [⟨31, 0, .rc, 0x0⟩]⟩]

/-- The field maps of the PWR registers. -/
def pwrMap : List RegDesc :=
  [⟨0x0, 0x0, 1, 0x0, 1, [⟨63, 48, .rc, 0x0⟩, ⟨12, 8, .ro, 0x1F⟩, ⟨4, 4, .ro, 0x0⟩, ⟨3, 3, .ro, 0x0⟩, ⟨2, 2, .ro, 0x0⟩, ⟨1, 1, .w1c, 0x0⟩, ⟨0, 0, .w1c, 0x0⟩]⟩,
   ⟨0x8, 0x0, 1, 0x0, 1, [⟨63, 62, .rw, 0x0⟩, ⟨29, 0, .rw, 0x0⟩]⟩,
   ⟨0x10, 0x0, 1, 0x0, 1, [⟨1, 0, .rw, 0x0⟩]⟩,
   ⟨0x18, 0x0, 1, 0x0, 1, [⟨29, 28, .rw, 0x0⟩, ⟨27, 26, .rw, 0x0⟩, ⟨25, 24, .rw, 0x0⟩, ⟨9, 8, .ro, 0x0⟩, ⟨7, 6, .ro, 0x0⟩, ⟨5, 4, .ro, 0x0⟩, ⟨3, 2, .ro, 0x0⟩, ⟨1, 0, .ro, 0x0⟩]⟩,
   ⟨0x20, 0x0, 1, 0x0, 1, [⟨63, 48, .rc, 0x0⟩, ⟨47, 32, .rc, 0x0⟩, ⟨21, 21, .w1c, 0x0⟩, ⟨20, 20, .w1c, 0x0⟩, ⟨19, 10, .ro, 0x0⟩, ⟨9, 0, .ro, 0x0⟩]⟩,
   ⟨0x28, 0x0, 1, 0x0, 1, [⟨59, 50, .ro, 0x0⟩, ⟨49, 40, .ro, 0x0⟩, ⟨39, 30, .ro, 0x0⟩, ⟨29, 20, .ro, 0x0⟩, ⟨19, 10, .ro, 0x0⟩, ⟨9, 0, .ro, 0x0⟩]⟩,
   ⟨0x30, 0x0, 1, 0x0, 1, [⟨15, 0, .wo, 0x0⟩]⟩,
   ⟨0x100, 0x8, 30, 0x0, 1, [⟨63, 56, .ro, 0x0⟩, ⟨55, 40, .rc, 0x0⟩, ⟨39, 24, .rc, 0x0⟩, ⟨11, 11, .ro, 0x0⟩, ⟨10, 9, .ro, 0x0⟩, ⟨8, 6, .ro, 0x0⟩, ⟨3, 2, .ro, 0x0⟩, ⟨1, 0, .ro, 0x0⟩]⟩]

/-- The field maps of the CLK registers. -/
def clkMap : List RegDesc :=
  [⟨0x0, 0x0, 1, 0x0, 1, [⟨7, 0, .ro, 0x0⟩]⟩,
   ⟨0x8, 0x0, 1, 0x0, 1, [⟨13, 8, .w1c, 0x0⟩, ⟨5, 0, .ro, 0x0⟩]⟩,
   ⟨0x10, 0x0, 1, 0x0, 1, [⟨39, 0, .ro, 0x0⟩]⟩,
   ⟨0x18, 0x0, 1, 0x0, 1, [⟨63, 48, .rc, 0x0⟩, ⟨47, 32, .rc, 0x0⟩]⟩]

/-- The field maps of the MON registers. -/
def monMap : List RegDesc :=
  [⟨0x8, 0x0, 1, 0x0, 1, [⟨63, 48, .rc, 0x0⟩, ⟨47, 32, .rc, 0x0⟩, ⟨31, 16, .rc, 0x0⟩, ⟨15, 0, .rc, 0x0⟩]⟩,
   ⟨0x10, 0x0, 1, 0x0, 1, [⟨13, 13, .rw, 0x0⟩, ⟨12, 0, .rw, 0x1F40⟩]⟩,
   ⟨0x18, 0x0, 1, 0x0, 1, [⟨63, 48, .ro, 0x0⟩, ⟨47, 0, .ro, 0x0⟩]⟩,
   ⟨0x100, 0x10, 16, 0x0, 1, [⟨63, 63, .rw, 0x0⟩, ⟨47, 32, .rw, 0x0⟩, ⟨31, 24, .rw, 0x0⟩, ⟨23, 17, .rw, 0x1⟩, ⟨13, 0, .rw, 0x3E00⟩]⟩,
   ⟨0x108, 0x10, 16, 0x0, 1, [⟨63, 0, .rw, 0x0⟩]⟩,
   ⟨0x1000, 0x10, 120, 0x0, 1, [⟨63, 63, .ro, 0x0⟩, ⟨47, 0, .ro, 0x0⟩]⟩,
   ⟨0x1008, 0x10, 120, 0x0, 1, [⟨63, 63, .ro, 0x0⟩, ⟨47, 0, .ro, 0x0⟩]⟩]

/-- The field maps of the PMC registers. -/
def pmcMap : List RegDesc :=
  [⟨0xF000, 0x0, 1, 0x0, 1, [⟨24, 24, .w1c, 0x0⟩, ⟨23, 16, .w1c, 0x0⟩, ⟨8, 8, .rw, 0x0⟩, ⟨7, 0, .rw, 0x0⟩]⟩,
   ⟨0xF008, 0x0, 1, 0x0, 1, [⟨63, 0, .rw, 0x0⟩]⟩,
   ⟨0xF010, 0x0, 1, 0x0, 1, [⟨63, 0, .ro, 0x0⟩]⟩,
   ⟨0xF018, 0x8, 8, 0x0, 1, [⟨47, 0, .ro, 0x0⟩]⟩]

/-- The register families of a unit id (R23), its counter block (R551) last; none for an unassigned id. -/
def unitMap (u : Nat) : List RegDesc :=
  if u = 0x00 then gateMap ++ pmcMap
  else if u = 0x01 then sysMap ++ pmcMap
  else if u = 0x02 then pwrMap ++ pmcMap
  else if u = 0x03 then clkMap ++ pmcMap
  else if u = 0x04 then fltMap ++ pmcMap
  else if u = 0x05 then timeMap ++ pmcMap
  else if u = 0x06 then monMap ++ pmcMap
  else if 0x10 ≤ u ∧ u ≤ 0x27 then medMap ++ pmcMap
  else if 0x30 ≤ u ∧ u ≤ 0x8F then cliMap ++ pmcMap
  else if u = 0x90 then clsMap ++ pmcMap
  else if u = 0x91 then qmMap ++ pmcMap
  else if u = 0x92 then schMap ++ pmcMap
  else if u = 0x93 ∨ u = 0x94 then pipeMap ++ pmcMap
  else if u = 0x95 then ciphMap ++ pmcMap
  else if u = 0x96 then circMap ++ pmcMap
  else if u = 0x97 then hingeMap ++ pmcMap
  else if u = 0x98 then dmaMap ++ pmcMap
  else if u = 0x99 then pcieMap ++ pmcMap
  else if u = 0x9A then lschMap ++ pmcMap
  else if u = 0x9B then latchMap ++ pmcMap
  else if u = 0x9C then wardMap ++ pmcMap
  else if u = 0x9D then mboxMap ++ pmcMap
  else if 0xA0 ≤ u ∧ u ≤ 0xDF then coreMap ++ pmcMap
  else if u = 0xE0 ∨ u = 0xE1 then pmcMap
  else if u = 0xF0 then dfpMap ++ pmcMap
  else if u = 0xF1 then ubbMap ++ pmcMap
  else []

/-- Whether the family `d` has a register at offset `o`. -/
def RegDesc.covers (d : RegDesc) (o : Nat) : Bool :=
  decide (d.base ≤ o) &&
  (let r := o - d.base
   if d.stride = 0 then r == 0
   else
     let q := r % d.stride
     decide (r / d.stride < d.count) &&
       (if d.stride2 = 0 then q == 0
        else q % d.stride2 == 0 && decide (q / d.stride2 < d.count2)))

/-- The field map of the register at a control-space address; `none` where no register exists (R24). [DESIGN CHOICE, log entry 7] -/
def regDesc (a : Nat) : Option RegDesc :=
  (unitMap (unitOf a)).find? (fun d => d.covers (offOf a))

/-- The reset word of a field map: every field at its reset value, every reserved bit zero (R6). -/
def fieldsReset : List FieldDesc → Nat
  | [] => 0
  | f :: fs => f.reset * 2 ^ f.lo + fieldsReset fs

/-- Reset values that depend on the register's index or on a fuse rather than on the field map alone (R3, R4, R110,
R256, R463, R506, R547, R554); `none` for every other register. [DESIGN CHOICE, log entry 157] -/
def resetSpecial (a : Nat) : Option Nat :=
  let u := unitOf a
  let o := offOf a
  if u = 0x01 then
    if o = 0x00 then some (0x4B5A961602100002 + (if Config.gradeE then 2 else 1) * 2 ^ 28)
    else if o = 0x08 then some Config.serialNumber.toNat
    else none
  else if u = 0x02 ∧ o = 0x28 then some (Config.operatingVoltages.toNat % 2 ^ 60)
  else if u = 0xF0 ∧ 0x30 ≤ o ∧ o ≤ 0x48 then
    some (if o = 0x30 then 1024 * 2 ^ 16 + 150
      else if o = 0x38 then 4096 * 2 ^ 16 + 150
      else if o = 0x40 then 16384 * 2 ^ 16 + 300
      else 256 * 2 ^ 16 + 20)
  else if u = 0x90 ∧ 0x200 ≤ o ∧ o ≤ 0x278 then some (0x3FF0 + (o - 0x200) / 8)
  else if u = 0x98 ∧ 0x10000 ≤ o ∧ o % 0x1000 = 0xB8 then some ((o - 0x10000) / 0x1000)
  else if u = 0x9D ∧ 0x300 ≤ o ∧ o ≤ 0x378 then some 0x8000800080008000
  else if 0xA0 ≤ u ∧ u ≤ 0xDF ∧ o = 0xF000 then some 0xFF
  else if 0xA0 ≤ u ∧ u ≤ 0xDF ∧ o = 0xF008 then some 0x1716151413121110
  else none

/-- The reset value of the register at a control-space address; zero where no register exists (R24). -/
def regReset (a : Nat) : BitVec 64 :=
  match regDesc a with
  | none => 0
  | some d =>
    match resetSpecial a with
    | some v => BitVec.ofNat 64 v
    | none => BitVec.ofNat 64 (fieldsReset d.fields)

end Sys2Proof.Machine
end

