-- ==== Sys2Proof/Machine/Tbl.lean ====
section
/-!
DEFINITION. Sparse tables in one canonical form: a list of key and value pairs, keys strictly rising, no entry equal to
what an unlisted key reads as.  The register file, the memories and every large table of the spec are such tables, so
equal contents are equal data and the state after reset lists nothing.
-/

namespace Sys2Proof.Machine

/-- A sparse table: pairs of key and value. -/
abbrev Tbl (α : Type) := List (Nat × α)

/-- The listed value of key `k`, if any. -/
def Tbl.find {α : Type} : Tbl α → Nat → Option α
  | [], _ => none
  | (k', v) :: t, k => if k = k' then some v else Tbl.find t k

/-- The value of key `k`; an unlisted key reads as `d k`. [DESIGN CHOICE, log entry 4] -/
def Tbl.get {α : Type} (d : Nat → α) (t : Tbl α) (k : Nat) : α :=
  (Tbl.find t k).getD (d k)

/-- Place `v` at `k`, keeping the keys rising. -/
def Tbl.put {α : Type} : Tbl α → Nat → α → Tbl α
  | [], k, v => [(k, v)]
  | (k', v') :: t, k, v =>
    if k < k' then (k, v) :: (k', v') :: t
    else if k = k' then (k, v) :: t
    else (k', v') :: Tbl.put t k v

/-- Remove every entry of `k`. -/
def Tbl.del {α : Type} : Tbl α → Nat → Tbl α
  | [], _ => []
  | (k', v') :: t, k => if k = k' then Tbl.del t k else (k', v') :: Tbl.del t k

/-- Set key `k` to `v`, keeping the keys rising: setting what an unlisted key reads as removes the entry. [DESIGN CHOICE, log entry 4] -/
def Tbl.set {α : Type} [DecidableEq α] (d : Nat → α) : Tbl α → Nat → α → Tbl α
  | [], k, v => if v = d k then [] else [(k, v)]
  | (k', v') :: t, k, v =>
    if k < k' then (if v = d k then (k', v') :: Tbl.del t k else (k, v) :: (k', v') :: t)
    else if k = k' then (if v = d k then Tbl.del t k else (k, v) :: t)
    else (k', v') :: Tbl.set d t k v

/-- Every listed key lies above `b`, the keys rise strictly, and no entry equals its default. -/
def Tbl.wfFrom {α : Type} [DecidableEq α] (d : Nat → α) : Nat → Tbl α → Bool
  | _, [] => true
  | b, (k, v) :: t => decide (b ≤ k) && decide (v ≠ d k) && Tbl.wfFrom d (k + 1) t

/-- The canonical form. -/
def Tbl.wf {α : Type} [DecidableEq α] (d : Nat → α) (t : Tbl α) : Bool :=
  Tbl.wfFrom d 0 t

/-- Keep the entries whose key satisfies `p`; every other key returns to its default. -/
def Tbl.keep {α : Type} (p : Nat → Bool) : Tbl α → Tbl α
  | [] => []
  | (k, v) :: t => if p k then (k, v) :: Tbl.keep p t else Tbl.keep p t

end Sys2Proof.Machine
end

