-- ==== Sys2Proof/Machine/State.lean ====
section
/-!
DEFINITION. The state of the NX9616 as plain data: every control-space register in one sparse table (its default is the
reset value of the register map), the memories, and per unit a record of what the unit keeps outside its registers.
-/

namespace Sys2Proof.Machine

/-! ## Medium lanes (R30 to R58) -/

/-- What a medium lane keeps outside its registers: the receive line (level and run counter, R38, R42), the transmit
line (R38, R39), the run of good CDR windows (R54), the PRBS31 checker (register, error-free run, and which of the last
64 symbols were wrong, newest first, R58), the transmit and the receive scrambler (R35), whether a dwell was extended by a
confirmation (R32), the line levels sent last; the level of the MSD ball (R52), whether LOS stood and whether the receive rate changed
in the lock window in progress (R54), the pattern generator (Gen-2 symbol periods since it started, its PRBS31 register, R58), whether the
driver sends fill between two joined bursts (R49). -/
structure MedLane where
  rx : LineState := ⟨0, 0⟩
  tx : LineState := ⟨0, 0⟩
  good : Nat := 0
  chk : Nat := 0
  chkRun : Nat := 0
  chkErr : List Bool := []
  txScr : Nat := 0
  rxScr : Nat := 0
  dwellOver : Bool := false
  sent : List Nat := []
  pin : Bool := false
  losWin : Bool := true
  rateWin : Bool := false
  patAt : Nat := 0
  patQ : Nat := 0
  fill : Bool := false
  deriving DecidableEq, Repr

/-- The medium lanes; `txLock` is the lock of the CK_MTX transmit PLL, the same for every plane (R64), `txWait` the 10 µs
after a relock (R51). -/
structure MedState where
  lanes : Tbl MedLane := []
  txLock : Bool := false
  txWait : Bool := true
  deriving DecidableEq, Repr

/-! ## Downstream frame processor (R68 to R105) -/

/-- An accepted grant entry (R73, R85) with its plane, its target frame and the symbol count at its acceptance.
[DESIGN CHOICE, log entry 8] -/
structure Grant where
  plane : Nat
  frame : Nat
  start : Nat
  length : Nat
  profile : Nat
  kind : Nat
  bonded : Bool
  report : Bool
  keep : Bool
  accepted : Nat
  deriving DecidableEq, Repr

/-- One plane of the DFP: the symbol position X of the last delimiter taken up, in the plane's own symbols (R78), and how many of its
symbols disagree (R77); the FRAME the next header must carry; the frame in progress (whether its content is taken, its
FRAME, GEN and the header fields), the bits of its data stream so far (R68), its slots marked uncorrectable and received, the cut made by an abandon (R55), the
uncorrectable codewords of the frame before, the SD runs (R82), the grants accepted in the frame, the messages still
unparsed and the bit where the next begins, the bit where the next parcel header begins, whether the DFP hunts (R93) or
ignores the rest, whether the circuit engine was told of loss (R83), the delimiter's symbol in local time and from LP(0, 0, 0), whether
the frame's header and its grant area have been judged. -/
structure DfpPlane where
  at_ : Nat := 0
  delimBad : Nat := 256
  expect : Nat := 0
  taking : Bool := false
  frame : Nat := 0
  hdrLen : Nat := 0
  grantCount : Nat := 0
  stream : List Bool := []
  marks : List Nat := []
  slots : Nat := 0
  cut : Option Nat := none
  uncorrPrev : Nat := 0
  sdCounted : Bool := false
  sdSet : Nat := 0
  sdClr : Nat := 0
  grants : List Grant := []
  msgLeft : Nat := 0
  msgPos : Nat := 0
  pos : Nat := 0
  hunting : Bool := false
  ignoring : Bool := false
  circLost : Bool := true
  delimAt : Int := 0
  delimSym : Int := 0
  judged : Bool := false
  grantsDone : Bool := true
  deriving DecidableEq, Repr

/-- A parcel submitted for decryption (R97): its plane, header, ownership entry, carrying frame, ingress stamp, the
cipher request, and whether containers of its plane and frame count as lost (R83). -/
structure Opening where
  plane : Nat
  hdr : BitVec 128
  own : BitVec 32
  frame : Nat
  stamp : Stamp
  req : Nat
  lost : Bool
  deriving DecidableEq, Repr

/-- A verified parcel on its way to reassembly, with the symbol count of its arrival and its number in the order of arrival. -/
structure Parcel where
  plane : Nat
  hdr : BitVec 128
  own : BitVec 32
  frame : Nat
  stamp : Stamp
  data : List Byte
  arrival : Nat
  order : Nat
  deriving DecidableEq, Repr

/-- The resequencer's record of a flow (R99): EXP, VALID, LAST, the held parcels in order of distance from EXP. -/
structure RsqFlow where
  exp : Nat := 0
  valid : Bool := false
  last : Nat := 0
  held : List Parcel := []
  deriving DecidableEq, Repr

/-- An open reassembly of a flow (R103): the parcels taken so far and the SEQ of the next. -/
structure Reasm where
  parts : List Parcel := []
  next : Nat := 0
  deriving DecidableEq, Repr

/-- The DFP: planes, message slow-path queue (R88), messages delivered to the time unit, the ward and HINGE (R87),
ownership table (R94), parcels in CIPH per submission order (R97), resequencer and reassembly, the number of the next verified
parcel. -/
structure DfpState where
  planes : Tbl DfpPlane := []
  msgq : List Msg := []
  inbox : List Msg := []
  own : Tbl (BitVec 32) := []
  opening : List Opening := []
  rsq : Tbl RsqFlow := []
  reasm : Tbl Reasm := []
  arrivals : Nat := 0
  deriving DecidableEq, Repr

/-! ## Upstream burst builder and ward (R114 to R145) -/

/-- An entry of the upstream message queue (R128, R172, R429): envelope and body, marks, class, its number. -/
structure UpMsg where
  env : BitVec 64
  body : List Byte
  pair : Bool
  enrol : Bool
  cls : Nat
  num : Nat
  deriving DecidableEq, Repr

/-- A circuit container (R330): circuit, plane, target frame, header fields, the data bytes, its flow, and of one received the frame at which
it plays out (R337). -/
structure Container where
  circ : Nat
  plane : Nat
  frame : Nat
  ptr : Nat
  just : Nat
  ais : Bool
  data : List Byte
  flow : Nat := 0
  play : Nat := 0
  deriving DecidableEq, Repr

/-- One parcel of a burst under build (R124): header, plaintext, cipher request, sealed text and tag once returned, and
what it carries (packet with bytes still unsent after it, container or message; an idle parcel carries none). -/
structure Piece where
  hdr : BitVec 128
  bytes : List Byte
  req : Option Nat
  sealed : Option (List Byte)
  pkt : Option Pkt
  cont : Option Container
  msg : Option UpMsg
  last : Bool
  dead : Bool
  deriving DecidableEq, Repr

/-- What the build of a burst samples of one plane's settings (R13, R116): launch instant in sixteenths of a symbol from LP(0, 0, 0),
TRAIN, DELIM and GUARD of its profile, whether the plane runs at Gen-1, TX_INV, MBEN_LEAD and MBEN_LAG. [DEDUCED, log entry 36] -/
structure BurstLine where
  plane : Nat
  start : Int
  train : Nat
  delim : Nat
  guard : Nat
  genOne : Bool
  inv : Bool
  lead : Nat
  lag : Nat
  deriving DecidableEq, Repr

/-- A burst under build or in progress on the planes of its grants: N, the snapshot of the report, the TID, LEAD and
ALARM and the settings of each plane sampled at the start of the build, the content, whether it is committed or launched, the launch instant
of POSITION 0 in sixteenths of a symbol counted from LP(0, 0, 0), its length in Gen-2 symbols, and whether the ward cut it.
[DESIGN CHOICE, log entry 8] -/
structure Build where
  grants : List Grant
  lines : List BurstLine
  n : Nat
  rpt : List Nat
  tid : Nat
  lead : Bool
  alarm : Bool
  pieces : List Piece
  committed : Bool
  launched : Bool
  launch : Int
  symbols : Nat
  cut : Bool
  deriving DecidableEq, Repr

/-- One plane of the UBB: the entries held (R114), the EQD latched per target frame (R126, newest first), the end of the
last burst launched (R127), in sixteenths of a symbol from LP(0, 0, 0), whether the UBB requests MBEN (R50), the start of the lead and the
end of the lag of a burst that has ended, while its lag runs (R48), the build starts that fell in a restart (R142). -/
structure UbbPlane where
  entries : List Grant := []
  eqd : List (Nat × Nat) := []
  lastEnd : Option Int := none
  req : Bool := false
  lag : Option (Int × Int) := none
  missed : Nat := 0
  deriving DecidableEq, Repr

/-- The UBB: planes, builds, flow table (R148) with the flows still marked for a SEQ advance (R475), upstream message
queue, the packets whose LAST part has left while an earlier part is still in a burst (R139). -/
structure UbbState where
  planes : Tbl UbbPlane := []
  builds : List Build := []
  flows : Tbl (BitVec 40) := []
  marked : Bool := false
  unmarked : List Nat := []
  msgs : List UpMsg := []
  msgNum : Nat := 0
  lastGone : List Nat := []
  deriving DecidableEq, Repr

/-- The ward (R140 to R145): its own copy of the entries, its own latched EQD per plane and target frame, the instants of
its violations, the instant at which its last hold ended, in sixteenths of a symbol from LP(0, 0, 0). -/
structure WardState where
  entries : List Grant := []
  eqd : Tbl (List (Nat × Nat)) := []
  violations : List Nat := []
  freeFrom : Int := 0
  deriving DecidableEq, Repr

/-! ## Base program: enrolment and ranging (R156 to R186) -/

/-- One plane of the base program: T_RANGE running, the frame from which T_HOLD runs, GROUPS held for activation. -/
structure EnrolPlane where
  tRange : Bool := false
  tHold : Option Nat := none
  groups : BitVec 64 := 0
  deriving DecidableEq, Repr

/-- The base program: running timers, values of ENROL_PARAMS (R170), the attempt of R171 (first frame a, draw r, target
frame t of the window that took the ANNOUNCE), prior state of HOLDOVER, START waiting for the tables. -/
structure EnrolState where
  planes : Tbl EnrolPlane := []
  tAlign : Bool := false
  tEnrol : Bool := false
  tHold : Option Nat := none
  preEqd : Nat := 0
  enrolPlanes : Nat := 0
  beMin : Nat := 0
  beMax : Nat := 0
  answer : Nat := 0
  answerNow : Nat := 1
  attempt : Option (Nat × Nat) := none
  taken : Option Nat := none
  prior : Nat := 0
  startWaiting : Bool := false
  deriving DecidableEq, Repr

/-! ## Time unit (R192 to R218) -/

/-- An anchor's estimate (R201): its plane, the frame M it arrived in, E in 2^-16 ns, whether it is the primary's. -/
structure Estimate where
  plane : Nat
  frame : Nat
  value : Int
  primary : Bool
  deriving DecidableEq, Repr

/-- A pulse output (R215, R216): next edge k, start and period in force (sixteenths of a symbol from LP(0, 0, 0), or 2^-16 ns of
medium time), the stamp of the last edge emitted (R209), edges converted to line positions with their numbers; while the pulse is
active, its trailing edge in sixteenths of a symbol since the release of PORST_N (R215). -/
structure Pulse where
  k : Nat := 0
  start : Int := 0
  period : Nat := 0
  last : Option Stamp := none
  converted : List (Int × Nat) := []
  fall : Option Int := none
  deriving DecidableEq, Repr

/-- The state in which the base program keeps a PTP port (R211): never SLAVE. -/
inductive PtpPort where
  | disabled
  | passive
  | master
  deriving DecidableEq, Repr

/-- The time unit: frame counter F and symbol 25c + s of the line position, symbols since the release of PORST_N, medium
time T_F at LP(F, 0, 0) in 2^-16 ns, the residual of R202, the estimates of the frame, the frame at which T_ANCHOR
expires (R203), the first boundary without an aligned plane (R196), pulse outputs, capture queues, the PTP state in which the base program keeps
each client port (R211). -/
structure TimeState where
  frame : Nat := 0
  sym : Nat := 0
  now : Nat := 0
  tF : Int := 0
  residual : Int := 0
  estimates : List Estimate := []
  tAnchor : Option Nat := none
  fly : Option Nat := none
  pulses : Tbl Pulse := []
  captures : Tbl (List Stamp) := []
  ptp : Tbl PtpPort := []
  deriving DecidableEq, Repr

/-! ## Packet pipes and classifier (R226 to R254) -/

/-- A meter's buckets (R244): what the committed and the peak bucket lack of full, in 2^-20 bytes, and the symbol count at the
last update. -/
structure MeterRun where
  lackC : Nat := 0
  lackP : Nat := 0
  last : Nat := 0
  deriving DecidableEq, Repr

/-- One entry of a classifier table: its data window words, VALID, V (visibility to edition slots), packet and byte
counters. -/
structure ClsEntry where
  words : List (BitVec 64) := []
  valid : Bool := false
  v : Nat := 0
  pkts : Nat := 0
  bytes : Nat := 0
  deriving DecidableEq, Repr

/-- The classifier: the tables by key (table × 2^21 + index; the selector and the profiles in banks of 4,096, one per edition
slot, bank 3 for ATOMIC_ENTRY), meters' buckets, packets per pipe before and after classification, the table modes that a sweep in
progress will set, the number of the current edition (CUR shows its low 16 bits). -/
structure ClsState where
  tables : Tbl ClsEntry := []
  meterRun : Tbl MeterRun := []
  pipes : Tbl (List Pkt) := []
  done : Tbl (List Pkt) := []
  modeNext : Option Nat := none
  edition : Nat := 0
  deriving DecidableEq, Repr

/-! ## Queue manager and scheduler (R260 to R286) -/

/-- A packet in a queue: where its data is (on die, being written to HBM, in HBM, being read back), its enqueue index,
how many of its bytes have been sent, the channels of its HBM cells in order (16 to a stack, R271). -/
inductive Medium where
  | die | writing | hbm | reading
  deriving DecidableEq, Repr

structure QPkt where
  pkt : Pkt
  medium : Medium
  index : Nat
  sent : Nat
  cells : List Nat := []
  deriving DecidableEq, Repr

/-- A queue: descriptor, packets oldest first, counters (R289). -/
structure Queue where
  desc : BitVec 64 := 0
  pkts : List QPkt := []
  enq : Nat := 0
  drop : Nat := 0
  deriving DecidableEq, Repr

/-- A scheduler node (R275 to R280): its two data words, credit in 2^-20 bytes, the tick it was last touched, deficit in
bytes, the tick it is held until, the child that last had the turn at each level. -/
structure Node where
  d0 : BitVec 64 := 0
  d1 : BitVec 64 := 0
  credit : Int := 0
  touched : Nat := 0
  deficit : Int := 0
  held : Option Nat := none
  coarse : Bool := false
  turn : Tbl Nat := []
  deriving DecidableEq, Repr

/-- One HBM channel (R271 to R274): positions in rank order, the transfer in progress, hints given. -/
structure HbmChan where
  ranks : List HbmReq := [.upWr, .upRd, .dnWr, .upWr, .upRd, .dnRd, .upWr, .upRd, .circ, .lim]
  busy : Option HbmReq := none
  hints : List (HbmReq × Nat) := []
  deriving DecidableEq, Repr

/-- The QM and the SCH. On-die cells in use per pool, of those in slow-path queues, HBM cells in use per region and per
stack; queues; nodes (queue q at q, group g at 65536 + g, channel c at 131072 + c); the upstream root at 262144); wheel time in ticks, the
order in which held nodes were placed, the number the next packet gets, the number of the next HBM cell to be taken. -/
structure QmState where
  queues : Tbl Queue := []
  diePool : Tbl Nat := []
  slowUsed : Tbl Nat := []
  hbmUsed : Tbl Nat := []
  stackUsed : Tbl Nat := []
  nodes : Tbl Node := []
  tick : Nat := 0
  wheel : List Nat := []
  hbm : Tbl HbmChan := []
  ids : Nat := 1
  nextCell : Nat := 0
  deriving DecidableEq, Repr

/-! ## Client ports (R293 to R318) -/

/-- A received frame under verification (R360): its request, the frame and its ingress stamp, the receive SA (its number and the version that
the frame is handled under), the port entry, PN, the length of the addresses and SecTAG, whether it is encrypted, the secured bytes. -/
structure MacRx where
  req : Nat
  frame : ClientFrame
  stamp : Stamp
  entry : Nat
  sa : List (BitVec 64)
  port : Nat
  pn : Nat
  enc : Bool
  text : List Byte
  deriving DecidableEq, Repr

/-- A frame under protection (R361): its request, its packet, addresses with SecTAG, the secured bytes where they are not encrypted. -/
structure MacTx where
  req : Nat
  pkt : Nat
  head : List Byte
  text : Option (List Byte)
  deriving DecidableEq, Repr

/-- A client port outside its registers: egress buffer in the order selected, the priorities for which a stop is requested of the
client (R308), generated MAC control frames waiting, the frame sent last, whether it sends remote fault (R298), whether PORT_EN = 0
stopped it while a frame may have been arriving (R299), gate-list banks (index 1024 × bank + i), frozen commit
(length - 1, cycle in ns, start in 2^-16 ns), operating list (the same), packets already counted as GUARD_HOLDS, the frames under
verification in the order of arrival, the frame under protection. -/
structure CliPort where
  egress : List Pkt := []
  stop : Nat := 0
  control : List (List Byte) := []
  sent : Option (List Byte) := none
  remoteOut : Bool := false
  cut : Bool := false
  banks : Tbl (BitVec 64) := []
  frozen : Option (Nat × Nat × Int) := none
  oper : Option (Nat × Nat × Int) := none
  guarded : List Nat := []
  verify : List MacRx := []
  sealing : Option MacTx := none
  deriving DecidableEq, Repr

/-- A recovery group (R316): the number last accepted in order, which of the HISTORY numbers below were seen (newest
first), whether the next frame restarts it. -/
structure Recov where
  seq : Nat := 0
  hist : List Bool := []
  take : Bool := true
  deriving DecidableEq, Repr

structure CliState where
  ports : Tbl CliPort := []
  recov : Tbl Recov := []
  deriving DecidableEq, Repr

/-! ## Circuit engine (R325 to R347) -/

/-- A circuit outside its entry. Upstream: the VC-4 bytes that wait to be packed, the places of the J1s among them each with its
multiframe indicator, the pointer that the next container is to carry, whether it carries NDF, the containers left of the three after a
justification, the frames by which a group member is delayed (R339). The AU-4 interpreter: runs of invalid, NDF, all-ones and equal
pointers, for HP-RDI, LOM, MEMBER_DELAY and LCAS IDLE, the accepted pointer, how many bytes remain to the next J1; the VC-4 frame arriving
(none before a first J1) and the instant of its J1, the BIP-8 of the last whole one, the instant of that one's J1, its multiframe
indicator, whether a member belongs to the alignment. Downstream: containers held, predicted pointer of the playout stream, what the
timeslot carries now, playout run, the playout buffer with the places of its J1s, the pointer sent, whether the next one carries NDF, the
frames since a justification. Defects [6:0] as DATA1, the counters of DATA2, the channels of its HBM cells (R338). -/
structure Circuit where
  entry : BitVec 64 := 2
  buffer : List Byte := []
  marks : List (Nat × Nat) := []
  ptr : Nat := 0
  ndfDue : Bool := true
  just3 : Nat := 0
  hold : Nat := 0
  runs : Tbl Nat := []
  rxPtr : Nat := 0
  toJ1 : Nat := 0
  vc : Option (List Byte) := none
  vcAt : Nat := 0
  bip : Option (BitVec 8) := none
  ref : Option Nat := none
  mfi : Nat := 0
  aligned : Bool := true
  held : List Container := []
  predict : Option Nat := none
  out : Option Container := none
  okRun : Nat := 0
  play : List Byte := []
  playMarks : List Nat := []
  txPtr : Nat := 0
  txNdf : Bool := true
  txWait : Nat := 0
  defects : Nat := 0
  b3 : Nat := 0
  justs : Nat := 0
  lost : Nat := 0
  cells : List Nat := []
  deriving DecidableEq, Repr

/-- An SDH lane: runs of OOF, MS-AIS, MS-RDI and K1/K2 frames, last K value; the instant of the last frame received, its BIP-8 and its
BIP-24n; the bits of the two DCCs waiting to be inserted, each with the instant from which it may be; the B2 error count sent back as REI;
the rows of the frame sent last and its BIP-24n; where in the 125 µs of a medium frame the next frame sent begins, in symbols. -/
structure SdhLane where
  runs : Tbl Nat := []
  lastK : Nat := 0
  last : Nat := 0
  b1 : Option (BitVec 8) := none
  b2 : Option (List Byte) := none
  insR : List (Nat × List Bool) := []
  insM : List (Nat × List Bool) := []
  rei : Nat := 0
  tx : List (List Byte) := []
  txB2 : List Byte := []
  phase : Nat := 0
  deriving DecidableEq, Repr

/-- The circuit engine: circuits, groups, containers that wait for a window, SDH lanes, received DCC bytes waiting per timeslot
n = 16i + j, each with the instant of its last byte, the bits of the port frame each DCC port sends (none while its outputs are held low) and
the medium frame in which it began. -/
structure CircState where
  circuits : Tbl Circuit := []
  groups : Tbl (BitVec 64) := []
  queue : List Container := []
  lanes : Tbl SdhLane := []
  dccWait : Tbl (List (Nat × List Byte)) := []
  dccOut : Tbl (List Bool) := []
  dccAt : Tbl Nat := []
  deriving DecidableEq, Repr

/-! ## Cipher unit (R353 to R369) -/

/-- Who waits for a cipher request. -/
inductive CiphFor where
  | down (plane : Nat) | burst (plane : Nat) | look (queue : Nat) | macRx (port : Nat) | macTx (port : Nat)
  deriving DecidableEq, Repr

/-- A cipher request: its number, for whom, its class, what to do (0 seal, 1 open, 2 GMAC) under which slot, IV, AAD,
text and (for an open) expected tag; for a lookaside request its TAG_ID, submitting core, output addresses, where its completion
goes (address, clause node or DMA channel) and whether it is BAD_DESC or met a bus error; the key it is bound to once started and
the generation of the slot half, when it started, how many of its writes are done. [DESIGN CHOICE, log entry 8] -/
structure CiphReq where
  num : Nat
  who : CiphFor
  urgent : Bool
  op : Nat
  slot : Nat
  iv : BitVec 96
  aad : List Byte
  text : List Byte
  tag : BitVec 128
  tagId : Nat := 0
  submitter : Nat := 0
  outAddr : Nat := 0
  tagAddr : Nat := 0
  recAddr : Nat := 0
  reply : Option Nat := none
  chan : Option Nat := none
  bad : Bool := false
  busError : Bool := false
  bound : Option (BitVec 256) := none
  gen : Nat := 0
  started : Nat := 0
  out : Nat := 0
  deriving DecidableEq, Repr

/-- A finished request: status of R369, text and tag. -/
structure CiphDone where
  num : Nat
  status : Nat
  text : List Byte
  tag : BitVec 128
  deriving DecidableEq, Repr

/-- One half of a key slot: 0 EMPTY, 1 LOADED, 2 DRAINING; its key; its generation, which requests bind to. -/
structure KeyHalf where
  st : Nat := 0
  key : BitVec 256 := 0
  gen : Nat := 0
  deriving DecidableEq, Repr

structure KeySlot where
  act : KeyHalf := {}
  pend : KeyHalf := {}
  deriving DecidableEq, Repr

/-- The cipher unit: slots, engines with their running requests, waiting and suspended requests, results not yet taken,
lookaside queues, MACsec entries (TABLE × 4096 + index), numbering. -/
structure CiphState where
  slots : Tbl KeySlot := []
  running : Tbl (Option CiphReq) := []
  waiting : List CiphReq := []
  suspended : List CiphReq := []
  results : List CiphDone := []
  look : Tbl (List CiphReq) := []
  sa : Tbl (List (BitVec 64)) := []
  num : Nat := 1
  gen : Nat := 1
  deriving DecidableEq, Repr

/-! ## Fault collector (R507 to R519) -/

/-- The fault collector outside its registers: capture queue (info word and stamp, R515), disposition records of eight
words (R517), lost items per source and kind (16 × source + kind, R518), number of the next record, the sources whose pairs are clamped (R508), CODE and stamp of the last class D latched of each source, with
which the items its restart destroys are reported. -/
structure FltState where
  captures : List (BitVec 64 × Stamp) := []
  disp : List (List (BitVec 64)) := []
  lostCnt : Tbl Nat := []
  index : Nat := 0
  clamped : List Nat := []
  latched : Tbl (Option (Nat × Stamp)) := []
  deriving DecidableEq, Repr

/-! ## Limtin: cores, task scheduler, latch bank (R374 to R432) -/

/-- An object held by a handle (R425): 0 a taken packet, 1 a message, 2 a new packet; a message's envelope and body are the
bytes of `pkt`, its plane and FRAME stand beside it. -/
structure Held where
  kind : Nat
  pkt : Pkt
  plane : Nat := 0
  frame : Nat := 0
  deriving DecidableEq, Repr

/-- A context's time capture (R421). -/
structure Capture where
  lp : BitVec 64
  stamp : Stamp
  status : BitVec 64
  deriving DecidableEq, Repr

/-- What a context waits for (R374): the data of a load (register, address, bytes) or of an XADD (register, address, addend), a control-space read
(register, address), a latch (register, number). -/
inductive CtxWait where
  | load (rd addr size : Nat)
  | xadd (rd addr : Nat) (add : BitVec 64)
  | ctl (rd addr : Nat)
  | latch (rd n : Nat)
  deriving DecidableEq, Repr

/-- The clause a context runs: its number in order of dispatch, whether it is a command block, its node or store slot,
priority, subject, sentence base and length minus one, bank it bound to, LEN_M1 of its block, SEQ of its block, whether it
was dispatched LATE, the latches it holds, the core and the context it runs on or was evicted from. [DESIGN CHOICE, log entry 8] -/
structure Clause where
  uid : Nat
  block : Bool
  node : Nat
  prio : Nat
  subject : Nat
  sentBase : Nat
  sentLenM1 : Nat
  bank : Nat
  lenM1 : Nat
  seq : Nat
  late : Bool
  latches : List Nat
  core : Nat
  place : Nat
  deriving DecidableEq, Repr

/-- A hardware context (R406): free while it runs no clause. `wait` is none while it is runnable; `refused` holds the
instruction address and word of a posted write that met R24 (R419). `stall` is what is left of the 2 cycles behind a taken branch (R416),
`slow` the registers whose results are not there yet, each with the cycles left (R412). -/
structure Ctx where
  clause : Option Clause := none
  g : Tbl (BitVec 64) := []
  pc : BitVec 17 := 0
  h : Tbl (Option Held) := []
  capture : Option Capture := none
  wait : Option CtxWait := none
  refused : Option (Nat × Nat) := none
  stall : Nat := 0
  slow : List (Nat × Nat) := []
  deriving DecidableEq, Repr

/-- A posted control-space write (R418): address, value, the clause that made it, instruction address and word. -/
structure Posted where
  addr : Nat
  value : BitVec 64
  uid : Nat
  pc : Nat
  word : Nat
  deriving DecidableEq, Repr

/-- A core: its four contexts, instruction banks (bank × 8192 + index), sections and images of the banks (active and
standby), posted control-space writes oldest first, the context in the swap buffer, the context that issued last. -/
structure Core where
  ctxs : Tbl Ctx := []
  code : Tbl (BitVec 32) := []
  active : Nat := 0
  activeLoaded : Bool := false
  standbyLoaded : Bool := false
  section0 : Nat := 0
  section1 : Nat := 0
  posted : List Posted := []
  swapBuf : Option Ctx := none
  turn : Nat := 0
  deriving DecidableEq, Repr

/-- A firing that waits for dispatch: a node's, with the kind and data of its trigger word, or a command block's (R384). -/
structure Firing where
  block : Bool
  node : Nat
  prio : Nat
  subject : Nat
  kind : Nat
  late : Bool
  info : Nat
  deriving DecidableEq, Repr

/-- The runtime of a clause node (R378, R380): its configuration word [127:64], the tokens held. -/
structure GNode where
  cfg : BitVec 64 := 0
  tokens : List (BitVec 64) := []
  deriving DecidableEq, Repr

/-- A latch (R387 to R390): the clause that holds it and its BROKEN mark. -/
structure Latch where
  holder : Option Nat := none
  broken : Bool := false
  deriving DecidableEq, Repr

/-- A command block in the store (R391, R392): its header, code, place on the ring, whether it is ready (and LATE). -/
structure CmdBlock where
  slot : Nat
  order : Nat
  seq : Nat
  subject : Nat
  prio : Nat
  immediate : Bool
  sec : Nat
  lenM1 : Nat
  frame : Nat
  cell : Nat
  args : List (BitVec 64)
  code : List (BitVec 32)
  ready : Bool := false
  late : Bool := false
  deriving DecidableEq, Repr

/-- The loaded image (R395): its IMAGE_ID and, per section, index and core mask. -/
structure Image where
  ident : BitVec 64
  masks : List (BitVec 64)
  deriving DecidableEq, Repr

/-- LSCH with the cores and the latch bank: graph store, alarms and bindings as 128-bit entries, alarms found passed and due at
once, firings in the order in which they fired, contexts in the save stores with their core, command store, completion
records waiting for the completion ring, loader at work, image last loaded, clusters to be reloaded (R398, R525), cores whose standby
bank becomes active at the next frame boundary, clauses waiting for a latch with its number, in the order in which they began to
wait, numbering of clauses and blocks. -/
structure LschState where
  cores : Tbl Core := []
  nodes : Tbl GNode := []
  alarms : Tbl (BitVec 128) := []
  dueLate : List Nat := []
  bindings : Tbl (BitVec 128) := []
  ready : List Firing := []
  saved : List (Nat × Ctx) := []
  store : List CmdBlock := []
  cpl : List (List (BitVec 64)) := []
  latches : Tbl Latch := []
  waits : List (Nat × Nat) := []
  loading : Bool := false
  image : Option Image := none
  reload : List Nat := []
  becoming : List Nat := []
  uid : Nat := 0
  blocks : Nat := 0
  deriving DecidableEq, Repr

/-! ## Host interface (R434 to R463) -/

/-- What the terminal sends to the host: a memory write of a function, or an MSI-X message. -/
inductive HostOut where
  | write (func addr : Nat) (bytes : List Byte)
  | msix (func vector : Nat)
  deriving DecidableEq, Repr

/-- A disposition record that waits for its ring (R451). -/
structure DmaRecord where
  tag : Nat
  status : Nat
  rkind : Nat
  bytes : Nat
  stamp : BitVec 64
  deriving DecidableEq, Repr

/-- A DMA channel outside its registers: words 0 to 4 of the descriptor in progress, whether it is being read, whether its
chain end is being checked, the packet a PKT_TX channel offers, the rest of the packet a PKT_RX channel is writing, whether the channel was
parked when it paused, records that wait for the ring, whether the interrupt holdoff runs and events are merged in it, the bytes of the
descriptor in progress that turns before this one have moved (R454; those of a COPY stand in CH_DONE), whether its next read is held back
because the channel drains (R452). -/
structure Chan where
  desc : Option (List (BitVec 64)) := none
  fetching : Bool := false
  checking : Bool := false
  offer : Option Pkt := none
  rx : Option (Pkt × Nat) := none
  wasParked : Bool := false
  recs : List DmaRecord := []
  holdoff : Bool := false
  merged : Bool := false
  share : Nat := 0
  held : Bool := false
  deriving DecidableEq, Repr

/-- The host interface: channels, what was sent to the host in order, whether a command-ring fetch is in progress, whether the port
trains and whether it is ready, the value the last read command returned to its reader, the channel whose turn it is on the link and the
bytes left of the turn (R454). -/
structure HostState where
  chans : Tbl Chan := []
  out : List HostOut := []
  fetching : Bool := false
  training : Bool := false
  ready : Bool := false
  rdata : BitVec 64 := 0
  turn : Nat := 0
  left : Nat := 0
  deriving DecidableEq, Repr



/-! ## Twin operation and the hinge link (R464 to R481) -/

/-- A lane of the hinge link (R467): its last line level and its scrambler, and the levels that passed on it last. -/
structure HingeLane where
  last : Nat := 0
  scr : Nat := 0
  levels : List Nat := []
  deriving DecidableEq, Repr

/-- The hinge unit outside its registers: a lead change that waits for its boundary and the pin level last acted on (R474);
NEXT_SEQ changes waiting as flow and value, one per flow, oldest first (R477); control blocks waiting (R470) and received
blocks not yet acted on; CW_SEQ of the next codeword sent; consecutive valid HEARTBEATs (R472); the bulk transfer being
sent (index of the next body), its GEN and the CRC register over its bodies; the same of the transfer being received; the codeword sent last;
the four lanes, sent and received (R467); the codewords received since the lanes locked. -/
structure TwinState where
  leadNext : Option Bool := none
  pinActed : Bool := false
  updates : List (Nat × Nat) := []
  blocks : List (BitVec 512) := []
  inbox : List (BitVec 512) := []
  txSeq : Nat := 0
  good : Nat := 0
  bulk : Option Nat := none
  bulkGen : Nat := 0
  bulkCrc : Nat := 2 ^ 32 - 1
  rxIndex : Nat := 0
  rxGen : Nat := 0
  rxCrc : Nat := 2 ^ 32 - 1
  tx : BitVec 5140 := 0
  txLanes : Tbl HingeLane := []
  rxLanes : Tbl HingeLane := []
  rxCount : Nat := 0
  deriving DecidableEq, Repr


/-! ## Preura, the mailbox and the sentinel (R484 to R506) -/

/-- A mailbox message (R498, R499): TAG, TYPE and body. -/
structure MboxMsg where
  tag : Nat
  kind : Nat
  body : List Byte
  deriving DecidableEq, Repr

/-- A log entry that waits for flash (R489, R490): TYPE, DETAIL, stamp, DATA0 to DATA3. -/
structure LogEntry where
  typ : Nat
  detail : Nat
  stamp : Stamp
  data : List (BitVec 64)
  deriving DecidableEq, Repr

/-- Preura, its flash and its ports. Flash slots as words (slot × 131,072 + word; erased words read all ones), the SRAM image of
DOWNLOAD; the event log as 64-byte entries by INDEX, LOG_FIRST and LOG_NEXT, entries waiting and dropped; the slot running and
whether as a trial; MP_ADDR, ERR and READY of the management port, the word fetched and the word waiting to be taken; STAGE (open, next
offset); COMMAND (OP, BUSY, result, detail, BOARD_OUT words, BOARD_IN body with its length while unread); messages taken
from TO and not yet served, messages waiting for FROM; swap records; the KICK awaited (0: either); sums and numbers of samples per sensor
(voltages from 24), the last reading of each; transfers per optical-engine bus. -/
structure PreuraState where
  flash : Tbl (BitVec 64) := []
  sram : Tbl (BitVec 64) := []
  log : Tbl (List (BitVec 64)) := []
  logFirst : Nat := 0
  logNext : Nat := 0
  logQueue : List LogEntry := []
  logDropped : Nat := 0
  slot : Nat := 0
  trial : Bool := false
  mpAddr : BitVec 64 := 0
  mpErr : Nat := 0
  mpReady : Bool := true
  mpRead : BitVec 64 := 0
  mpWord : Option (BitVec 64) := none
  mpOut : BitVec 64 := 0
  stageOpen : Bool := false
  stageOff : Nat := 0
  cmdOp : Nat := 0
  cmdBusy : Bool := false
  cmdResult : Nat := 0
  cmdDetail : Nat := 0
  boardOut : Tbl (BitVec 64) := []
  boardIn : List Byte := []
  boardLen : Nat := 0
  inbox : List MboxMsg := []
  outbox : List MboxMsg := []
  swaps : List (List (BitVec 64)) := []
  kick : Nat := 0
  samples : Tbl (Int × Nat) := []
  readings : Tbl Int := []
  transfers : Tbl (List MboxMsg) := []
  deriving DecidableEq, Repr

/-! ## Power, clocks and reset (R524 to R550) -/

/-- A rail (R536): the point of the change in progress and of the pending one, and whether its start-up write was confirmed. -/
structure Rail where
  change : Option Nat := none
  pending : Option Nat := none
  ok : Bool := false
  deriving DecidableEq, Repr

/-- PWR outside its registers: records for Preura (DETAIL, DATA0 and stamp of their POWER entries), requesters of pending requests, the two
rails, whether start-up waits for the rails, whether PORST_N is low,
whether a chip reset is held, domains placed by the start-up sequence that have not ended, whether PORST_N was released
before. -/
structure PwrState where
  log : List (Nat × BitVec 64 × Stamp) := []
  asker : Tbl Nat := []
  rails : Tbl Rail := []
  starting : Bool := false
  porst : Bool := true
  hold : Bool := false
  started : List Nat := []
  released : Bool := false
  deriving DecidableEq, Repr

/-! ## Performance monitoring (R551 to R561) -/

/-- MON outside its registers: per dump entry the packet built and not yet offered, and how many it has built since it was armed;
entries armed with a target that had passed; the byte sums of the window in progress per channel (receive, transmit), whether a
window runs, channels whose domain was not ON in it. -/
structure MonState where
  built : Tbl (Option Pkt) := []
  seqs : Tbl Nat := []
  late : List Nat := []
  rx : Tbl Nat := []
  tx : Tbl Nat := []
  running : Bool := false
  dark : List Nat := []
  deriving DecidableEq, Repr

/-! ## The boundary-scan TAP (R578) -/

/-- The states of the TAP controller of IEEE 1149.1. -/
inductive TapPhase where
  | testLogicReset | runTestIdle | selectDr | captureDr | shiftDr | exit1Dr | pauseDr | exit2Dr | updateDr
  | selectIr | captureIr | shiftIr | exit1Ir | pauseIr | exit2Ir | updateIr
  deriving DecidableEq, Repr

/-- The TAP: controller state, instruction in force (none: IDCODE, the one of Test-Logic-Reset), the shift stages of the instruction
and the data register (the stage nearest TDO first), the update stage of the boundary register, TDO (none: not driven). -/
structure TapState where
  phase : TapPhase := .testLogicReset
  instr : Option (List Bool) := none
  ir : List Bool := []
  dr : List Bool := []
  cells : List Bool := []
  tdo : Option Bool := none
  deriving DecidableEq, Repr

/-! ## The whole machine -/

/-- The state of the terminal. -/
structure State where
  /-- The commands that are waiting, first in, first out. -/
  pending : List Instr := []
  /-- Every control-space register, by its 40-bit address. -/
  regs : Tbl (BitVec 64) := []
  /-- Core data memories, cluster shared memories and the HBM program area (R375), one byte per cell. -/
  mem : List Host.Cell := []
  /-- How many free values the run has used (the model's own field, log entry 3). -/
  free : Nat := 0
  /-- Edge sources raised and not yet taken by LSCH (R382), oldest first. -/
  edges : List Nat := []
  /-- Errors signalled on error pairs and not yet latched by the collector (R507): source, class, code. -/
  wires : List (Nat × Nat × Nat) := []
  med : MedState := {}
  dfp : DfpState := {}
  ubb : UbbState := {}
  ward : WardState := {}
  enrol : EnrolState := {}
  time : TimeState := {}
  cls : ClsState := {}
  qm : QmState := {}
  cli : CliState := {}
  circ : CircState := {}
  ciph : CiphState := {}
  flt : FltState := {}
  lsch : LschState := {}
  host : HostState := {}
  twin : TwinState := {}
  preura : PreuraState := {}
  pwr : PwrState := {}
  mon : MonState := {}
  tap : TapState := {}
  deriving DecidableEq, Repr

/-- Why the machine stops. No meaning of this model raises one: every row of the command table has an effect in the
spec, and a command whose event cannot happen in the present state changes nothing (log entry 2). -/
inductive Fault where
  /-- Raised by nobody: the spec names no condition that stops the block. Safe. -/
  | none
  deriving DecidableEq, Repr

/-- Why a command has no meaning. -/
inductive Refusal where
  /-- Raised by the dispatch of a command whose meaning is not written yet, by its mnemonic. Safe: nothing is claimed. -/
  | notModelled (mnemonic : String)
  deriving DecidableEq, Repr

/-- The machine right after reset: every register at the reset value of its field map, every memory, queue and table
empty, no command waiting. [DESIGN CHOICE, log entries 7 and 157; DEDUCED, log entries 139 and 156] -/
def State.reset : State := {}

end Sys2Proof.Machine
end

