-- ==== Sys2Proof/Machine/Ops.lean ====
section
/-!
DEFINITION. The named operations on registers, events, faults, time and stamps that every meaning is built from.
-/

namespace Sys2Proof.Machine

/-! ## Registers -/

/-- The word of the register at a control-space address. [DESIGN CHOICE, log entry 4] -/
def State.reg (s : State) (a : Nat) : BitVec 64 := Tbl.get regReset s.regs a

/-- The state with the register at `a` holding `w`. -/
def State.setReg (s : State) (a : Nat) (w : BitVec 64) : State :=
  { s with regs := Tbl.set regReset s.regs a w }

/-- The value of a field. -/
def State.fld (s : State) (a : Nat) (f : Fld) : Nat := bitsOf (s.reg a).toNat f.hi f.lo

/-- The state with a field set to the low bits of `v`. -/
def State.setFld (s : State) (a : Nat) (f : Fld) (v : Nat) : State :=
  s.setReg a (BitVec.ofNat 64 (setBitsOf (s.reg a).toNat f.hi f.lo v))

/-- Whether a one-bit field is set. -/
def State.bit (s : State) (a : Nat) (f : Fld) : Bool := s.fld a f != 0

/-- Set or clear a one-bit field. -/
def State.setBit (s : State) (a : Nat) (f : Fld) (b : Bool) : State := s.setFld a f (b2n b)

/-- Add `n` to a counter field, saturating at its greatest value. [DEDUCED, log entry 159] -/
def State.count (s : State) (a : Nat) (f : Fld) (n : Nat := 1) : State :=
  s.setFld a f (satAdd (f.hi + 1 - f.lo) (s.fld a f) n)

/-- Add `n` to a counter field that wraps. -/
def State.wrap (s : State) (a : Nat) (f : Fld) (n : Nat := 1) : State :=
  s.setFld a f (s.fld a f + n)

/-- Put back to their reset values the registers of every unit that `p` selects. -/
def State.clearUnits (s : State) (p : Nat → Bool) : State :=
  { s with regs := Tbl.keep (fun a => !p (unitOf a)) s.regs }

/-! ## Events and faults -/

/-- Raise an edge source (R382). -/
def State.edge (s : State) (src : Nat) : State := { s with edges := s.edges ++ [src] }

/-- Set a W1C bit by hardware; a bit newly set raises the unit event of its unit (R382). [DEDUCED, log entry 9] -/
def State.latch (s : State) (a : Nat) (f : Fld) : State :=
  if s.bit a f then s else (s.setFld a f 1).edge (32 * unitOf a)

/-- `latch` where a condition holds. -/
def State.latchIf (s : State) (b : Bool) (a : Nat) (f : Fld) : State := if b then s.latch a f else s

/-- Signal an error on a source's error pair: class 0 = C, 1 = U, 2 = D, 3 = F (R507, R511). The collector latches it
in a step of its own. [DEDUCED, log entry 142] -/
def State.signal (s : State) (src cls code : Nat) : State := { s with wires := s.wires ++ [(src, cls, code)] }

/-! ## Counter blocks (R551 to R553) and bandwidth sums (R558) -/

/-- The fault source whose class D restarts a unit (R509). -/
def unitSource (u : Nat) : Option Nat :=
  if 0x10 ≤ u ∧ u ≤ 0x27 then some (5 + (u - 0x10) / 4)
  else if 0x30 ≤ u ∧ u ≤ 0x8F then some (11 + (u - 0x30) / 8)
  else if 0xA0 ≤ u ∧ u ≤ 0xBF then some 34
  else if 0xC0 ≤ u ∧ u ≤ 0xDF then some 35
  else
    match u with
    | 0x05 => some 3 | 0x9C => some 1 | 0x9D => some 0 | 0x00 | 0x98 | 0x99 => some 23
    | 0xE0 => some 24 | 0xE1 => some 25 | 0x93 => some 26 | 0x94 => some 27 | 0xF1 => some 28 | 0xF0 => some 29
    | 0x90 => some 30 | 0x91 | 0x92 => some 31 | 0x95 => some 32 | 0x96 => some 33 | 0x9A | 0x9B => some 34 | 0x97 => some 37
    | _ => none

/-- How many event codes from 0x10 on are specific to a unit (R553). -/
def unitEvents (u : Nat) : Nat :=
  if 0x10 ≤ u ∧ u ≤ 0x27 then 4
  else if 0x30 ≤ u ∧ u ≤ 0x8F then 6
  else if 0xA0 ≤ u ∧ u ≤ 0xDF then 8
  else
    match u with
    | 0xF0 => 6 | 0xF1 => 6 | 0x91 => 5 | 0x92 => 3 | 0x95 => 4
    | _ => 0

/-- Whether an event code is assigned for a unit. -/
def eventCode (u code : Nat) : Bool := decide (code ≤ 6) || (decide (0x10 ≤ code) && decide (code < 0x10 + unitEvents u))

/-- The code that programmable counter `i` of a unit selects. [DESIGN CHOICE, log entry 6] -/
def State.evsel (s : State) (u i : Nat) : Nat := bitsOf (s.reg (R.pmcSel u)).toNat (8 * i + 7) (8 * i)

/-- `n` events of a code in a unit: every enabled counter that selects it adds them and wraps at 48 bits, unless the block is frozen or
the unit restarts. [DEDUCED, log entry 159] -/
def State.pmcEvent (s : State) (u code : Nat) (n : Nat := 1) : State :=
  let down := match unitSource u with | some x => s.bit R.fltRestarting ⟨x, x⟩ | none => false
  if s.bit (R.pmcCtl u) F.pmcCtl_freeze || down then s
  else
    (List.range 8).foldl (fun (s : State) i =>
      if s.bit (R.pmcCtl u) ⟨i, i⟩ && s.evsel u i == code then
        let v := s.fld (R.pmcCnt u i) F.pmcCnt_count + n
        (s.setFld (R.pmcCnt u i) F.pmcCnt_count v).latchIf (decide (2 ^ 48 ≤ v)) (R.pmcCtl u) ⟨16 + i, 16 + i⟩
      else s) s

/-- `n` received (or transmitted) bytes of a bandwidth channel in the window in progress. -/
def State.bandwidth (s : State) (rx : Bool) (c n : Nat) : State :=
  let add := fun (t : Tbl Nat) => Tbl.set (fun _ => 0) t c (Tbl.get (fun _ => 0) t c + n)
  if !s.mon.running then s
  else if rx then { s with mon := { s.mon with rx := add s.mon.rx } }
  else { s with mon := { s.mon with tx := add s.mon.tx } }

/-- A domain is not ON: the channels that lie in it are ABSENT from the window in progress. -/
def State.wentDark (s : State) (d : Nat) : State :=
  if s.mon.dark.contains d then s else { s with mon := { s.mon with dark := s.mon.dark ++ [d] } }

/-- Take a free value: the one of the present count, which then advances. [DESIGN CHOICE, log entry 3] -/
def State.takeFree (s : State) : BitVec 64 × State := (Config.freeValue s.free, { s with free := s.free + 1 })

/-! ## Time (R193, R199, R205) -/

/-- Gen-2 symbols per frame. -/
def frameSymbols : Nat := 26562500

/-- The length of `n` Gen-2 symbols in 2^-16 ns: one symbol is 1/212.5 ns. [DEDUCED, log entry 55] -/
def symbolTime (n : Int) : Int := n * 131072 / 425

/-- One frame in 2^-16 ns. -/
def frameTime : Int := 125000 * 65536

/-- Medium time at a symbol of the present frame (R199), local time while MT_VALID = 0 (R205), in 2^-16 ns. [DEDUCED, log entry 55] -/
def State.timeAt (s : State) (sym : Int) : Int :=
  if s.bit R.timeStatus F.timeStatus_mtValid then s.time.tF + symbolTime sym
  else symbolTime ((s.time.now : Int) + (sym - s.time.sym))

/-- Medium or local time now. [DEDUCED, log entry 55] -/
def State.timeNow (s : State) : Int := s.timeAt s.time.sym

/-- The full stamp of a time in 2^-16 ns (R206). -/
def stampOf (t : Int) (src : Nat) : Stamp :=
  let n := t.toNat
  ⟨n / (65536 * 1000000000), n / 65536 % 1000000000, n % 65536, src⟩

/-- Gen-2 symbols per cycle of CK_TIME (R197). -/
abbrev ckTime : Nat := 170

/-- The symbol of the last edge of CK_TIME: a frame lasts a whole number of its cycles (R197). [DEDUCED, log entry 55] -/
def State.ckSym (s : State) : Int :=
  if s.bit R.timeStatus F.timeStatus_lpValid then ((s.time.sym / ckTime * ckTime : Nat) : Int)
  else (s.time.sym : Int) - (s.time.now % ckTime : Nat)

/-- The full stamp of an internal event: now, at the resolution of CK_TIME (R209). [DEDUCED, log entry 55] -/
def State.stamp (s : State) (src : Nat) : Stamp := stampOf (s.timeAt s.ckSym) src

end Sys2Proof.Machine

namespace Sys2Proof

/-- The time of a full stamp in 2^-16 ns. -/
def Stamp.time (t : Stamp) : Int := (((t.sec * 1000000000 + t.ns) * 65536 + t.frac : Nat) : Int)

/-- Full stamp bits [127:64] (R206). -/
def Stamp.hiWord (t : Stamp) : BitVec 64 := BitVec.ofNat 64 t.sec

/-- Full stamp bits [63:0] (R206). -/
def Stamp.loWord (t : Stamp) : BitVec 64 := BitVec.ofNat 64 (t.ns % 2 ^ 32 * 2 ^ 32 + t.frac % 2 ^ 16 * 2 ^ 16 + t.src % 2 ^ 16)

/-- The short stamp (R207). -/
def Stamp.short (t : Stamp) : BitVec 64 :=
  BitVec.ofNat 64 (t.sec % 2 ^ 24 * 2 ^ 40 + t.ns % 2 ^ 30 * 2 ^ 10 + t.frac / 64 % 2 ^ 10)

end Sys2Proof

namespace Sys2Proof.Machine

/-- The Gen-2 symbol of the present instant, counted from LP(0, 0, 0). -/
def State.lpNow (s : State) : Int := ((s.time.frame * frameSymbols + s.time.sym : Nat) : Int)

/-- Whether the line position runs (R194). -/
def State.lpValid (s : State) : Bool := s.bit R.timeStatus F.timeStatus_lpValid

/-! ## Planes -/

/-- Whether plane `p` is aligned: DFP.PLANE_STATUS.ALIGN shows IN_FRAME (R157). -/
def State.aligned (s : State) (p : Nat) : Bool := s.fld (R.dfpPlaneStatus p) F.dfpPlaneStatus_align == 2

/-- The planes that satisfy a predicate, ascending. -/
def planesWhere (f : Nat → Bool) : List Nat := (List.range 24).filter f

/-- T_HOLD at a frame boundary (R157): it runs from the first boundary that finds the terminal without an aligned plane, or a given
plane not aligned. -/
def State.holdOrigins (s : State) : State :=
  let s := (List.range 24).foldl (fun (s : State) p =>
    let e := Tbl.get (fun _ => {}) s.enrol.planes p
    let t := if s.aligned p then none else some (e.tHold.getD s.time.frame)
    { s with enrol := { s.enrol with planes := Tbl.set (fun _ => {}) s.enrol.planes p { e with tHold := t } } }) s
  let t := if (planesWhere s.aligned).isEmpty then some (s.enrol.tHold.getD s.time.frame) else none
  { s with enrol := { s.enrol with tHold := t } }

/-- The state of plane `p` as SYS.PLANE_STATE0 and 1 record it (R189). -/
def State.planeState (s : State) (p : Nat) : Nat :=
  if p < 16 then s.fld R.sysPlaneState0 ⟨3 * p + 2, 3 * p⟩
  else s.fld R.sysPlaneState1 ⟨3 * (p - 16) + 2, 3 * (p - 16)⟩

/-- Record the state of plane `p`. -/
def State.setPlaneState (s : State) (p v : Nat) : State :=
  if p < 16 then s.setFld R.sysPlaneState0 ⟨3 * p + 2, 3 * p⟩ v
  else s.setFld R.sysPlaneState1 ⟨3 * (p - 16) + 2, 3 * (p - 16)⟩ v

/-- The strapped twin role: 1 is A, 2 is B; the strap value 3 is no role (R464). -/
def State.role (s : State) : Nat :=
  let r := s.fld R.sysStraps F.sysStraps_twinRole
  if r = 3 then 0 else r

/-- Whether the LEAD_SEL pin decides the lead (LEAD_SRC, R464). -/
def State.pinMode (s : State) : Bool := s.bit R.sysStraps F.sysStraps_leadSrc

/-- Whether the terminal is lead; an unpaired terminal always is (R483). -/
def State.isLead (s : State) : Bool := s.role == 0 || s.bit R.hingeStatus F.hingeStatus_lead

/-- Whether a domain is ON (R524): PWR.DOMd.STATE = 2. -/
def State.domOn (s : State) (d : Nat) : Bool := s.fld (R.pwrDom d) F.pwrDom_state == 2

/-! ## Records of the units -/

def State.lane (s : State) (p : Nat) : MedLane := Tbl.get (fun _ => {}) s.med.lanes p
def State.setLane (s : State) (p : Nat) (l : MedLane) : State :=
  { s with med := { s.med with lanes := Tbl.set (fun _ => {}) s.med.lanes p l } }
def State.dplane (s : State) (p : Nat) : DfpPlane := Tbl.get (fun _ => {}) s.dfp.planes p
def State.setDplane (s : State) (p : Nat) (l : DfpPlane) : State :=
  { s with dfp := { s.dfp with planes := Tbl.set (fun _ => {}) s.dfp.planes p l } }
def State.uplane (s : State) (p : Nat) : UbbPlane := Tbl.get (fun _ => {}) s.ubb.planes p
def State.setUplane (s : State) (p : Nat) (l : UbbPlane) : State :=
  { s with ubb := { s.ubb with planes := Tbl.set (fun _ => {}) s.ubb.planes p l } }
def State.eplane (s : State) (p : Nat) : EnrolPlane := Tbl.get (fun _ => {}) s.enrol.planes p
def State.setEplane (s : State) (p : Nat) (l : EnrolPlane) : State :=
  { s with enrol := { s.enrol with planes := Tbl.set (fun _ => {}) s.enrol.planes p l } }
def State.queue (s : State) (q : Nat) : Queue := Tbl.get (fun _ => {}) s.qm.queues q
def State.setQueue (s : State) (q : Nat) (v : Queue) : State :=
  { s with qm := { s.qm with queues := Tbl.set (fun _ => {}) s.qm.queues q v } }
def State.node (s : State) (n : Nat) : Node := Tbl.get (fun _ => {}) s.qm.nodes n
def State.setNode (s : State) (n : Nat) (v : Node) : State :=
  { s with qm := { s.qm with nodes := Tbl.set (fun _ => {}) s.qm.nodes n v } }
def State.port (s : State) (k : Nat) : CliPort := Tbl.get (fun _ => {}) s.cli.ports k
def State.setPort (s : State) (k : Nat) (v : CliPort) : State :=
  { s with cli := { s.cli with ports := Tbl.set (fun _ => {}) s.cli.ports k v } }
def State.circuit (s : State) (c : Nat) : Circuit := Tbl.get (fun _ => {}) s.circ.circuits c
def State.setCircuit (s : State) (c : Nat) (v : Circuit) : State :=
  { s with circ := { s.circ with circuits := Tbl.set (fun _ => {}) s.circ.circuits c v } }
def State.slot (s : State) (n : Nat) : KeySlot := Tbl.get (fun _ => {}) s.ciph.slots n
def State.setSlot (s : State) (n : Nat) (v : KeySlot) : State :=
  { s with ciph := { s.ciph with slots := Tbl.set (fun _ => {}) s.ciph.slots n v } }
/-- The flow entry of the UBB flow table (R148). -/
def State.flow (s : State) (f : Nat) : BitVec 40 := Tbl.get (fun _ => 0) s.ubb.flows f
def State.setFlow (s : State) (f : Nat) (v : BitVec 40) : State :=
  { s with ubb := { s.ubb with flows := Tbl.set (fun _ => 0) s.ubb.flows f v } }
/-- The ownership entry of a flow (R94). -/
def State.own (s : State) (f : Nat) : BitVec 32 := Tbl.get (fun _ => 0) s.dfp.own f

end Sys2Proof.Machine
end

