-- ==== Sys2Proof/Machine/Access.lean ====
section
/-!
DEFINITION. Which control-space addresses an access can reach (R10, R22 to R24, R524).
-/

namespace Sys2Proof.Machine

/-- The switched domain a unit lies in; units of AON have none (R10, R524). -/
def domainOf (u : Nat) : Option Nat :=
  if u = 0 ∨ u = 0x98 ∨ u = 0x99 then some 0
  else if u = 0x9A ∨ u = 0x9B ∨ (0xA0 ≤ u ∧ u ≤ 0xBF) then some 1
  else if 0xC0 ≤ u ∧ u ≤ 0xDF then some 2
  else if u = 0xE0 then some 3
  else if u = 0xE1 then some 4
  else if u = 0x91 ∨ u = 0x92 then some 5
  else if u = 0x95 then some 6
  else if u = 0x90 then some 7
  else if u = 0x94 ∨ u = 0xF0 then some 8
  else if u = 0x93 ∨ u = 0xF1 then some 9
  else if u = 0x96 then some 10
  else if 0x10 ≤ u ∧ u ≤ 0x27 then some (11 + (u - 0x10) / 4)
  else if 0x30 ≤ u ∧ u ≤ 0x8F then some (17 + (u - 0x30) / 8)
  else if u = 0x97 then some 29
  else none

/-- Whether the domain of a unit is on. -/
def State.unitOn (s : State) (u : Nat) : Bool :=
  match domainOf u with
  | none => true
  | some d => s.domOn d

/-- Whether an access meets no case of R24: a register at an aligned address of a unit whose domain is on. -/
def State.accessOk (s : State) (a : Nat) : Bool :=
  a % 8 == 0 && decide (a < 2 ^ 40) && (regDesc a).isSome && s.unitOn (unitOf a)

end Sys2Proof.Machine
end

