-- ==== Sys2Proof/Machine/Aes.lean ====
section
/-!
DEFINITION. AES-256 in Galois counter mode, the one algorithm of the cipher unit (R353, R356, R359, R364, R367).  Bytes and
words are numbers; a block is a 128-bit number whose first byte is the most significant.
-/

namespace Sys2Proof.Machine

/-- The substitution table of AES. -/
def aesSbox : List Nat :=
  [99, 124, 119, 123, 242, 107, 111, 197, 48, 1, 103, 43, 254, 215, 171, 118] ++
  [202, 130, 201, 125, 250, 89, 71, 240, 173, 212, 162, 175, 156, 164, 114, 192] ++
  [183, 253, 147, 38, 54, 63, 247, 204, 52, 165, 229, 241, 113, 216, 49, 21] ++
  [4, 199, 35, 195, 24, 150, 5, 154, 7, 18, 128, 226, 235, 39, 178, 117] ++
  [9, 131, 44, 26, 27, 110, 90, 160, 82, 59, 214, 179, 41, 227, 47, 132] ++
  [83, 209, 0, 237, 32, 252, 177, 91, 106, 203, 190, 57, 74, 76, 88, 207] ++
  [208, 239, 170, 251, 67, 77, 51, 133, 69, 249, 2, 127, 80, 60, 159, 168] ++
  [81, 163, 64, 143, 146, 157, 56, 245, 188, 182, 218, 33, 16, 255, 243, 210] ++
  [205, 12, 19, 236, 95, 151, 68, 23, 196, 167, 126, 61, 100, 93, 25, 115] ++
  [96, 129, 79, 220, 34, 42, 144, 136, 70, 238, 184, 20, 222, 94, 11, 219] ++
  [224, 50, 58, 10, 73, 6, 36, 92, 194, 211, 172, 98, 145, 149, 228, 121] ++
  [231, 200, 55, 109, 141, 213, 78, 169, 108, 86, 244, 234, 101, 122, 174, 8] ++
  [186, 120, 37, 46, 28, 166, 180, 198, 232, 221, 116, 31, 75, 189, 139, 138] ++
  [112, 62, 181, 102, 72, 3, 246, 14, 97, 53, 87, 185, 134, 193, 29, 158] ++
  [225, 248, 152, 17, 105, 217, 142, 148, 155, 30, 135, 233, 206, 85, 40, 223] ++
  [140, 161, 137, 13, 191, 230, 66, 104, 65, 153, 45, 15, 176, 84, 187, 22]

def aesSub (b : Nat) : Nat := aesSbox.getD (b % 256) 0

/-- Multiplication by x in GF(2^8). -/
def aesX (b : Nat) : Nat := if b < 128 then 2 * b else (2 * b) % 256 ^^^ 27

/-- The four bytes of a 32-bit word, first byte highest. -/
def wordBytes (w : Nat) : List Nat := [w / 2 ^ 24 % 256, w / 2 ^ 16 % 256, w / 2 ^ 8 % 256, w % 256]

def bytesWord (l : List Nat) : Nat := l.foldl (fun a b => a * 256 + b) 0

def subWord (w : Nat) : Nat := bytesWord ((wordBytes w).map aesSub)

def rotWord (w : Nat) : Nat := w % 2 ^ 24 * 256 + w / 2 ^ 24

/-- The next word of the key schedule, from the words so far, newest first; `i` is its index. -/
def keyWord (i rcon : Nat) (ws : List Nat) : Nat :=
  let t := ws.getD 0 0
  let t := if i % 8 = 0 then subWord (rotWord t) ^^^ rcon * 2 ^ 24 else if i % 8 = 4 then subWord t else t
  ws.getD 7 0 ^^^ t

/-- `n` further words of the key schedule. -/
def keyExpand : Nat → Nat → Nat → List Nat → List Nat
  | 0, _, _, ws => ws
  | n + 1, i, rcon, ws =>
    keyExpand n (i + 1) (if i % 8 = 0 then aesX rcon else rcon) (keyWord i rcon ws :: ws)

/-- The 15 round keys of a 256-bit key, as 128-bit numbers. -/
def roundKeys (key : Nat) : List Nat :=
  let ws := (keyExpand 52 8 1 ((List.range 8).map (fun i => key / 2 ^ (32 * i) % 2 ^ 32))).reverse
  (List.range 15).map (fun r => (List.range 4).foldl (fun a j => a * 2 ^ 32 + ws.getD (4 * r + j) 0) 0)

def blockBytes (b : Nat) : List Nat := (List.range 16).map (fun i => b / 2 ^ (8 * (15 - i)) % 256)

/-- ShiftRows of a block's bytes. -/
def shiftRows (l : List Nat) : List Nat :=
  [0, 5, 10, 15, 4, 9, 14, 3, 8, 13, 2, 7, 12, 1, 6, 11].map (fun i => l.getD i 0)

/-- MixColumns of a block's bytes, column by column. -/
def mixColumns : List Nat → List Nat
  | a :: b :: c :: d :: t =>
    (aesX a ^^^ aesX b ^^^ b ^^^ c ^^^ d) :: (a ^^^ aesX b ^^^ aesX c ^^^ c ^^^ d) ::
      (a ^^^ b ^^^ aesX c ^^^ aesX d ^^^ d) :: (aesX a ^^^ a ^^^ b ^^^ c ^^^ aesX d) :: mixColumns t
  | _ => []

/-- The rounds of a block under round keys; the last round mixes no columns. -/
def aesRounds : List Nat → Nat → Nat
  | [], b => b
  | [k], b => bytesWord (shiftRows ((blockBytes b).map aesSub)) ^^^ k
  | k :: ks, b => aesRounds ks (bytesWord (mixColumns (shiftRows ((blockBytes b).map aesSub))) ^^^ k)

/-- AES under expanded round keys. -/
def aesBlock (rk : List Nat) (b : Nat) : Nat :=
  match rk with
  | [] => b
  | k :: ks => aesRounds ks (b ^^^ k)

/-- AES-256 of one block. -/
def aes256 (key : BitVec 256) (b : Nat) : Nat := aesBlock (roundKeys key.toNat) b

/-- Multiplication in GF(2^128) of GHASH: `n` bits of `x` from bit `n - 1` down, with `v` the running multiple of the
second factor and `z` the sum so far. -/
def ghMul : Nat → Nat → Nat → Nat → Nat
  | 0, _, _, z => z
  | n + 1, x, v, z =>
    ghMul n x (if v % 2 = 0 then v / 2 else v / 2 ^^^ 0xE1 * 2 ^ 120) (if bitOf x n then z ^^^ v else z)

/-- Cut bytes into 16-byte blocks, the last one filled with zeros. -/
def blocksOf : Nat → List Byte → List Nat
  | 0, _ => []
  | _ + 1, [] => []
  | n + 1, l => beNat (takePad 16 l) :: blocksOf n (l.drop 16)

/-- GHASH under the hash key `h`. -/
def ghash (h : Nat) (blocks : List Nat) : Nat := blocks.foldl (fun y b => ghMul 128 (y ^^^ b) h 0) 0

/-- Counter-mode text: the 32-bit counter in the low bits of `ctr` counts up from its value. -/
def ctrText (rk : List Nat) (iv : Nat) : Nat → Nat → List Byte → List Byte
  | 0, _, _ => []
  | _ + 1, _, [] => []
  | n + 1, c, l =>
    let ks := beBytes 16 (aesBlock rk (iv * 2 ^ 32 + c % 2 ^ 32))
    (List.zipWith (fun a b => a ^^^ b) (l.take 16) ks) ++ ctrText rk iv n (c + 1) (l.drop 16)

/-- The tag of ciphertext and additional authenticated data. -/
def gcmTag (rk : List Nat) (iv : Nat) (aad text : List Byte) : BitVec 128 :=
  let h := aesBlock rk 0
  let y := ghash h (blocksOf (aad.length + 1) aad ++ blocksOf (text.length + 1) text ++
    [8 * aad.length * 2 ^ 64 + 8 * text.length])
  BitVec.ofNat 128 (y ^^^ aesBlock rk (iv * 2 ^ 32 + 1))

/-- Seal a text: ciphertext and tag. -/
def gcmSeal (key : BitVec 256) (iv : BitVec 96) (aad text : List Byte) : List Byte × BitVec 128 :=
  let rk := roundKeys key.toNat
  let c := ctrText rk iv.toNat (text.length + 1) 2 text
  (c, gcmTag rk iv.toNat aad c)

/-- Open a ciphertext: the text, if the tag matches. -/
def gcmOpen (key : BitVec 256) (iv : BitVec 96) (aad text : List Byte) (tag : BitVec 128) : Option (List Byte) :=
  let rk := roundKeys key.toNat
  if gcmTag rk iv.toNat aad text = tag then some (ctrText rk iv.toNat (text.length + 1) 2 text) else none

/-- The key check value of R364: the first 32 bits of the encrypted zero block. -/
def keyCheck (key : BitVec 256) : BitVec 32 := BitVec.ofNat 32 (aes256 key 0 / 2 ^ 96)

end Sys2Proof.Machine
end

