-- ==== Sys2Proof/Machine/CiphOps.lean ====
section
/-!
DEFINITION. The cipher unit's requests: submission, the choice of the next request and its binding to a key half (R354,
R355, R362), and the result (R357, R368).
-/

namespace Sys2Proof.Machine

/-- Submit a request; it waits for an engine. Returns its number. -/
def State.ciphSubmit (s : State) (q : CiphReq) : Nat × State :=
  let n := s.ciph.num
  (n, { s with ciph := { s.ciph with waiting := s.ciph.waiting ++ [{ q with num := n }], num := n + 1 } })

/-- The rank of a waiting request's class (R354): lower is served first. -/
def CiphReq.rank (q : CiphReq) : Nat :=
  if q.urgent then 0 else match q.who with | .look _ => 3 | _ => 1

/-- The oldest request of the lowest rank. [DEDUCED, log entry 87] -/
def pickReq (l : List CiphReq) : Option CiphReq :=
  match l with
  | [] => none
  | q :: _ => l.find? (fun r => r.rank == l.foldl (fun m x => min m x.rank) q.rank)

/-- The request an engine runs. -/
def State.engine (s : State) (e : Nat) : Option CiphReq := Tbl.get (fun _ => none) s.ciph.running e
def State.setEngine (s : State) (e : Nat) (q : Option CiphReq) : State :=
  { s with ciph := { s.ciph with running := Tbl.set (fun _ => none) s.ciph.running e q } }

/-- Requests on engines. -/
def State.runningReqs (s : State) : List CiphReq := s.ciph.running.filterMap (·.2)

/-- The first of the 96 engines that is free (R353). -/
def State.freeEngine (s : State) : Option Nat := (List.range 96).find? (fun e => (s.engine e).isNone)

/-- Requests bound to a half of slot `n` (R362, R371). [DEDUCED, log entry 92] -/
def State.halfUsers (s : State) (n : Nat) (h : KeyHalf) : Nat :=
  ((s.runningReqs ++ s.ciph.suspended).filter (fun q => q.bound.isSome && q.slot == n && q.gen == h.gen)).length

/-- A request starts on an engine: it binds to the slot's active half if that is LOADED. [DEDUCED, log entry 87] -/
def State.startReq (s : State) (e : Nat) (q : CiphReq) : State :=
  let h := (s.slot q.slot).act
  let q := { q with started := s.ciph.num }
  let s := (s.pmcEvent 0x95 1).pmcEvent 0x95 0x12 (b2n q.urgent)
  let q := if h.st = 1 ∧ !q.bad then { q with bound := some h.key, gen := h.gen } else q
  ({ s with ciph := { s.ciph with num := s.ciph.num + 1, waiting := s.ciph.waiting.filter (fun x => x.num != q.num) } }).setEngine
    e (some q)

/-- The engines that run non-urgent lookaside requests (R354). -/
def CiphReq.isLook (q : CiphReq) : Bool := match q.who with | .look _ => !q.urgent | _ => false

def State.lookEngines (s : State) : List Nat :=
  (List.range 96).filter (fun e => match s.engine e with | some q => q.isLook | none => false)

/-- LA_ENGINES: the engines that run lookaside requests, urgent ones too (R371). -/
def State.laEngines (s : State) : Nat :=
  (s.runningReqs.filter (fun q => match q.who with | .look _ => true | _ => false)).length

/-- LA_MIN as it is treated (R371). -/
def State.laMin (s : State) : Nat := min 12 (s.fld R.ciphCfg F.ciphCfg_laMin)

/-- The lookaside engine whose current request started most recently. -/
def State.latestLook (s : State) : Option Nat :=
  s.lookEngines.foldl (fun b e =>
    match b with
    | none => some e
    | some c => if ((s.engine c).map (·.started)).getD 0 < ((s.engine e).map (·.started)).getD 0 then some e else b) none

/-- Cipher counters (R373). -/
def State.ciphCount (s : State) (c : Nat) (n : Nat := 1) : State := s.count (R.ciphCount c) F.ciphCount_count n

/-- One decision of the dispatcher (R354): a free engine takes the next request; with none free an urgent or inline request
takes the engine of a suspended lookaside request. [DEDUCED, log entry 87] -/
def State.dispatchReq (s : State) : State :=
  match s.freeEngine with
  | some e =>
    match pickReq (s.ciph.waiting.filter (fun q => q.rank ≤ 1)) with
    | some q => s.startReq e q
    | none =>
      match s.ciph.suspended with
      | q :: t =>
        { s with ciph := { s.ciph with suspended := t, num := s.ciph.num + 1 } }.setEngine e
          (some { q with started := s.ciph.num })
      | [] =>
        match pickReq s.ciph.waiting with
        | some q => s.startReq e q
        | none => s
  | none =>
    match pickReq (s.ciph.waiting.filter (fun q => q.rank ≤ 1)) with
    | none => s
    | some q =>
      if s.lookEngines.length ≤ s.laMin ∨ 256 ≤ s.ciph.suspended.length then s
      else
        match s.latestLook with
        | none => s
        | some e =>
          match s.engine e with
          | none => s
          | some v =>
            let s := ({ s with ciph := { s.ciph with suspended := s.ciph.suspended ++ [v] } }).ciphCount 4 |>.pmcEvent 0x95 0x11
            s.startReq e q

/-- The outcome of a request under its key: status of R369, text and tag. -/
def CiphReq.outcome (q : CiphReq) : Nat × List Byte × BitVec 128 :=
  if q.bad then (3, [], 0)
  else if q.busError then (4, [], 0)
  else
    match q.bound with
    | none => (2, [], 0)
    | some k =>
      if q.op = 1 then
        match gcmOpen k q.iv q.aad q.text q.tag with
        | some t => (0, t, q.tag)
        | none => (1, [], 0)
      else
        let (c, t) := gcmSeal k q.iv q.aad (if q.op = 2 then [] else q.text)
        (0, c, t)

/-- Take the result of request `n`, if it has ended. -/
def State.takeResult (s : State) (n : Nat) : Option CiphDone × State :=
  match takeFirst (fun (r : CiphDone) => r.num == n) s.ciph.results with
  | none => (none, s)
  | some (r, t) => (some r, { s with ciph := { s.ciph with results := t } })

/-- Withdraw a request that nobody waits for any more. -/
def State.dropReq (s : State) (n : Nat) : State :=
  { s with ciph := { s.ciph with
    waiting := s.ciph.waiting.filter (fun q => q.num != n)
    results := s.ciph.results.filter (fun r => r.num != n) } }

end Sys2Proof.Machine
end

