-- ==== Sys2Proof/Machine/Outbox.lean ====
section
/-!
DEFINITION. What units hand to others at the end of an item's way: a token to a clause node and the firing of a node (R379,
R380), writes and MSI-X messages to the host (R455), disposition records of DMA channels (R451), and the report of a
packet's departure (R212, R428, R448).
-/

namespace Sys2Proof.Machine

/-! ## Clause nodes (R378 to R380) -/

/-- Counters of LSCH (R402). -/
def State.lschCount (s : State) (c : Nat) (n : Nat := 1) : State := s.count (R.lschCount c) F.lschCount_count n

def State.gnode (s : State) (i : Nat) : GNode := Tbl.get (fun _ => {}) s.lsch.nodes i
def State.setGnode (s : State) (i : Nat) (v : GNode) : State :=
  { s with lsch := { s.lsch with nodes := Tbl.set (fun _ => {}) s.lsch.nodes i v } }

def GNode.valid (n : GNode) : Bool := bitOf n.cfg.toNat 63
def GNode.trig (n : GNode) : Nat := bitsOf n.cfg.toNat 62 61
def GNode.prio (n : GNode) : Nat := bitsOf n.cfg.toNat 60 58
def GNode.subject (n : GNode) : Nat := bitsOf n.cfg.toNat 57 46
def GNode.sec (n : GNode) : Nat := bitsOf n.cfg.toNat 45 42
def GNode.entry (n : GNode) : Nat := bitsOf n.cfg.toNat 41 34
def GNode.need (n : GNode) : Nat := max 1 (bitsOf n.cfg.toNat 33 30)
def GNode.sentBase (n : GNode) : Nat := bitsOf n.cfg.toNat 29 14
def GNode.sentLenM1 (n : GNode) : Nat := bitsOf n.cfg.toNat 13 6

/-- The firings of a node that wait for dispatch. -/
def State.firings (s : State) (node : Nat) : List Firing := s.lsch.ready.filter (fun f => !f.block && f.node == node)

def State.pushFiring (s : State) (f : Firing) : State := { s with lsch := { s.lsch with ready := s.lsch.ready ++ [f] } }

/-- One token to a node (R380): 0 sent, 1 the node is not valid, 2 it holds 15 tokens. -/
def State.token (s : State) (node : Nat) (v : BitVec 64) : State × Nat :=
  let n := s.gnode node
  if !n.valid then (s, 1)
  else if 15 ≤ n.tokens.length then (s, 2)
  else
    let n' := { n with tokens := n.tokens ++ [v] }
    let s := s.setGnode node n'
    if n.trig = 0 ∧ ((s.firings node).length + 1) * n.need ≤ n'.tokens.length then
      (s.pushFiring ⟨false, node, n.prio, n.subject, 0, false, 0⟩, 0)
    else (s, 0)

/-- A token sent by hardware; one that its node cannot take is counted as TOKENS_DROPPED (R428, R430). -/
def State.tokenOrDrop (s : State) (node : Nat) (v : BitVec 64) : State :=
  let (s', r) := s.token node v
  if r = 0 then s' else s.lschCount 6

/-- An alarm or an event fires its node (R379): `kind` is 1 or 2. A firing that finds one pending merges with it. -/
def State.fireNode (s : State) (node kind : Nat) (late : Bool) (info : Nat) : State :=
  let n := s.gnode node
  if !n.valid || n.trig != kind then s
  else if (s.firings node).isEmpty then s.pushFiring ⟨false, node, n.prio, n.subject, kind, late, info⟩
  else s.lschCount 2

/-! ## To the host -/

def State.hostOut (s : State) (o : HostOut) : State := { s with host := { s.host with out := s.host.out ++ [o] } }

/-- Raise a bit of GATE.EVENT; a bit newly set whose enable is 1 raises the PF vector of EVENT_CFG (R455). -/
def State.gateEvent (s : State) (k : Nat) : State :=
  if s.bit R.gateEvent ⟨k, k⟩ then s
  else
    let s := s.latch R.gateEvent ⟨k, k⟩
    if s.bit R.gateEventCfg ⟨k, k⟩ then s.hostOut (.msix 0 (s.fld R.gateEventCfg F.gateEventCfg_vector)) else s

/-! ## DMA channels (R451, R455) -/

def State.chan (s : State) (c : Nat) : Chan := Tbl.get (fun _ => {}) s.host.chans c
def State.setChan (s : State) (c : Nat) (v : Chan) : State :=
  { s with host := { s.host with chans := Tbl.set (fun _ => {}) s.host.chans c v } }

/-- CH_STATUS.STATE. -/
def State.chState (s : State) (c : Nat) : Nat := s.fld (R.dmaChStatus c) F.dmaChStatus_state

/-- The function that owns a channel (R460). -/
def State.chOwner (s : State) (c : Nat) : Nat := s.fld (R.gateChOwner c) F.gateChOwner_func

/-- A channel raises its function's vector, or merges the event while its holdoff runs (R455). -/
def State.chIrq (s : State) (c : Nat) : State :=
  let ch := s.chan c
  if ch.holdoff then s.setChan c { ch with merged := true }
  else
    let s := s.hostOut (.msix (s.chOwner c) (s.fld (R.dmaChActCfg c) F.dmaChActCfg_vector))
    if s.fld (R.dmaChActCfg c) F.dmaChActCfg_holdoff = 0 then s else s.setChan c { ch with holdoff := true }

/-- Entries of a channel's disposition ring (R463). -/
def State.chRingSize (s : State) (c : Nat) : Nat := 2 ^ max 4 (s.fld (R.dmaChActRingCfg c) F.dmaChActRingCfg_log2Size)

/-- Whether a channel's disposition ring is full. -/
def State.chRingFull (s : State) (c : Nat) : Bool :=
  (s.fld (R.dmaChRingIdx c) F.dmaChRingIdx_tail + 1) % s.chRingSize c == s.fld (R.dmaChRingIdx c) F.dmaChRingIdx_head % s.chRingSize c

/-- The sixteen bytes of a record. -/
def DmaRecord.bytes16 (r : DmaRecord) : List Byte :=
  beBytes 8 (r.tag % 65536 * 2 ^ 48 + r.status % 16 * 2 ^ 44 + r.rkind % 16 * 2 ^ 40 + r.bytes % 2 ^ 32) ++ beBytes 8 r.stamp.toNat

/-- Write one record at TAIL, then TAIL where TAILWB_EN = 1. -/
def State.writeRecord (s : State) (c : Nat) (r : DmaRecord) : State :=
  let t := s.fld (R.dmaChRingIdx c) F.dmaChRingIdx_tail
  let base := (s.reg (R.dmaChActRing c)).toNat / 16 * 16
  let s := s.hostOut (.write (s.chOwner c) (base + 16 * t) r.bytes16)
  let t' := (t + 1) % s.chRingSize c
  let s := s.setFld (R.dmaChRingIdx c) F.dmaChRingIdx_tail t'
  if s.bit (R.dmaChActRingCfg c) F.dmaChActRingCfg_tailwbEn then
    s.hostOut (.write (s.chOwner c) ((s.reg (R.dmaChActTailwb c)).toNat / 8 * 8) (beBytes 8 t'))
  else s

/-- Write waiting records while the ring has room, at most `fuel` of them. -/
def State.flushRecords (s : State) (c : Nat) : Nat → State
  | 0 => s
  | fuel + 1 =>
    match (s.chan c).recs with
    | [] => s
    | r :: rs =>
      if s.chRingFull c then s
      else ((s.writeRecord c r).setChan c { s.chan c with recs := rs }).flushRecords c fuel

/-- A record goes to a channel's disposition ring, or waits while it is full; with EN = 0 none is made (R451). -/
def State.pushRecord (s : State) (c : Nat) (r : DmaRecord) : State :=
  if !s.bit (R.dmaChActRingCfg c) F.dmaChActRingCfg_en then s
  else
    let ch := s.chan c
    let s := s.setChan c { ch with recs := ch.recs ++ [r] }
    s.flushRecords c (ch.recs.length + 1)

/-! ## Departures (R212, R428, R448) -/

/-- The report of a packet with stamp action RECORD, or of one whose insertion was refused (R213): its status in R446 (0 departed,
7 DROPPED, 8 ONE_STEP_REFUSED, 9 FAULT) and stamp go to the DMA channel or the clause node that `ret` names; a program gets the stamp
of a packet that left. [DEDUCED, log entry 121] -/
def State.departure (s : State) (p : Pkt) (status : Nat) (stamp : BitVec 64) : State :=
  if p.ret = 0 ∨ (p.act ≠ 1 ∧ status ≠ 8) then s
  else if p.ret ≤ 512 then s.pushRecord (p.ret - 1) ⟨p.tag, status, 1, p.bytes.length, stamp⟩
  else if status = 0 ∨ status = 8 then s.tokenOrDrop (p.ret - 1024) stamp
  else s

/-- A packet is dropped: a RECORD packet's report is made with the drop's stamp. -/
def State.departDrop (s : State) (p : Pkt) : State := s.departure p 7 (s.stamp (0x300 + p.chan)).short

end Sys2Proof.Machine
end

