-- ==== Sys2Proof/Machine/Buffers.lean ====
section
/-!
DEFINITION. Fault sources and disposition records (R509, R516 to R518), on-die cells and pools (R263, R264), the entry
of a packet into its pipe (R226 to R229) and the drop of a packet (R268).
-/

namespace Sys2Proof.Machine

/-! ## Fault sources (R509) -/

abbrev Src.preura : Nat := 0
abbrev Src.ward : Nat := 1
abbrev Src.thermal : Nat := 2
abbrev Src.time : Nat := 3
abbrev Src.medTxpll : Nat := 4
abbrev Src.med (q : Nat) : Nat := 5 + q
abbrev Src.cli (o : Nat) : Nat := 11 + o
abbrev Src.pcie : Nat := 23
abbrev Src.hbm (k : Nat) : Nat := 24 + k
abbrev Src.pktu : Nat := 26
abbrev Src.pktd : Nat := 27
abbrev Src.ubb : Nat := 28
abbrev Src.dfp : Nat := 29
abbrev Src.cls : Nat := 30
abbrev Src.qm : Nat := 31
abbrev Src.ciph : Nat := 32
abbrev Src.circ : Nat := 33
abbrev Src.lim0 : Nat := 34
abbrev Src.lim1 : Nat := 35
abbrev Src.lim : Nat := 36
abbrev Src.hinge : Nat := 37

/-- Whether a source's unit restarts (R512). -/
def State.restarting (s : State) (src : Nat) : Bool := s.bit R.fltRestarting ⟨src, src⟩

/-- `f` where the unit of a source does not restart: a unit that restarts takes no event. -/
def State.whenUp (s : State) (src : Nat) (f : State → State) : State := if s.restarting src then s else f s

/-- CODE and stamp of the last class D latched of a source. -/
def State.lastLatch (s : State) (src : Nat) : Option (Nat × Stamp) := Tbl.get (fun _ => none) s.flt.latched src

/-- CODE of the last class D latched of a source. -/
def State.lostCode (s : State) (src : Nat) : Nat := ((s.lastLatch src).map (·.1)).getD 0

/-- Whether the UBB restarts: of its own class D, or of the ward's (R142, R509). [DEDUCED, log entry 38] -/
def State.ubbDown (s : State) : Bool := s.restarting Src.ubb || s.restarting Src.ward

/-- The source that destroys what the UBB gives FAULT: the ward, the UBB, else the cipher unit. -/
def State.ubbSource (s : State) : Nat :=
  if s.restarting Src.ward then Src.ward else if s.restarting Src.ubb then Src.ubb else Src.ciph

/-! ## Disposition records (R516 to R518) -/

/-- One item, or a run of items of one kind, given FAULT: its source, class, kind, channel, code, how many, first and last
item, detail, TRAP immediate. -/
structure Lost where
  src : Nat
  cls : Nat
  kind : Nat
  channel : Nat
  code : Nat
  n : Nat
  first : Nat
  last : Nat
  detail : Nat
  trapImm : Nat
  deriving DecidableEq, Repr

/-- The eight words of a record. -/
def Lost.words (l : Lost) (index : Nat) (t : Stamp) : List (BitVec 64) :=
  [BitVec.ofNat 64 (l.src % 64 * 2 ^ 58 + l.cls % 4 * 2 ^ 56 + l.kind % 16 * 2 ^ 52 + l.channel % 128 * 2 ^ 45
      + l.code % 2 ^ 16 * 2 ^ 16),
   BitVec.ofNat 64 (l.n % 2 ^ 32 * 2 ^ 32 + index % 2 ^ 32),
   BitVec.ofNat 64 l.first, BitVec.ofNat 64 l.last, t.hiWord, t.loWord, BitVec.ofNat 64 l.detail,
   BitVec.ofNat 64 (l.trapImm % 1024)]

/-- Write one record, or count its items while the queue of 4,096 is full (R518). -/
def State.report (s : State) (l : Lost) : State :=
  if l.n = 0 then s
  else if s.flt.disp.length < 4096 ∧ s.flt.lostCnt = [] then
    let t := if l.cls = 2 then ((s.lastLatch l.src).map (·.2)).getD (s.stamp 1) else s.stamp 1
    let s := { s with flt := { s.flt with disp := s.flt.disp ++ [l.words s.flt.index t], index := s.flt.index + 1 } }
    s.latch R.fltStatus F.fltStatus_dispAdded
  else
    let k := 16 * l.src + l.kind
    let s := { s with flt := { s.flt with
      lostCnt := Tbl.set (fun _ => 0) s.flt.lostCnt k (Tbl.get (fun _ => 0) s.flt.lostCnt k + l.n) } }
    s.setFld R.fltStatus F.fltStatus_overflow 1

/-- A packet in transit lost with its unit (KIND 1). -/
def Lost.packet (src cls code : Nat) (p : Pkt) : Lost :=
  ⟨src, cls, 1, p.chan, code, 1, p.stamp.short.toNat, p.stamp.short.toNat, p.bytes.length, 0⟩

/-! ## Cells and pools (R263, R264) -/

end Sys2Proof.Machine

namespace Sys2Proof

/-- The pool of a direction: 0 UP, 1 DN. -/
def Dir.pool : Dir → Nat
  | .up => 0
  | .dn => 1

/-- The unit of a direction's pipe counters: 0 PKTU, 1 PKTD. -/
def Dir.unit : Dir → Nat
  | .up => 0
  | .dn => 1

/-- The source and the domain of a direction's pipes. -/
def Dir.src (d : Dir) : Nat := if d = .up then 26 else 27
def Dir.domain (d : Dir) : Nat := if d = .up then 9 else 8

end Sys2Proof

namespace Sys2Proof.Machine

/-- On-die cells of a pool. -/
def State.poolSize (s : State) (d : Dir) : Nat :=
  let up := s.fld R.qmPoolCfg F.qmPoolCfg_upCells
  match d with
  | .up => up
  | .dn => 786432 - up

/-- On-die cells of a pool in use. -/
def State.dieUsed (s : State) (d : Dir) : Nat := Tbl.get (fun _ => 0) s.qm.diePool d.pool

/-- Free on-die cells of a pool. -/
def State.dieFree (s : State) (d : Dir) : Nat := s.poolSize d - s.dieUsed d

/-- The cells of `n` bytes (R263). -/
def cellsOf (n : Nat) : Nat := max 1 ((n + 255) / 256)

def State.setDieUsed (s : State) (d : Dir) (n : Nat) : State :=
  { s with qm := { s.qm with diePool := Tbl.set (fun _ => 0) s.qm.diePool d.pool n } }

/-- Give back on-die cells. -/
def State.freeCells (s : State) (d : Dir) (n : Nat) : State := s.setDieUsed d (s.dieUsed d - n)

/-- Whether a domain takes new items: on and not draining (R528). -/
def State.domTakes (s : State) (d : Nat) : Bool := s.domOn d && s.fld (R.pwrDom d) F.pwrDom_phase == 0

/-- Take the cells of a packet (R264): a forwarded packet only while more than SLOW_RES cells are free, an injected one
any free cell; none while the QM restarts (R286). [DEDUCED, log entry 65] -/
def State.takeCells (s : State) (d : Dir) (inject : Bool) (n : Nat) : Option State :=
  let room := if inject then s.dieFree d else s.dieFree d - s.fld R.qmPoolCfg F.qmPoolCfg_slowRes
  if s.restarting Src.qm || !s.domTakes 5 then none
  else if n ≤ room then some (s.setDieUsed d (s.dieUsed d + n))
  else none

def State.slowUsed (s : State) (d : Dir) : Nat := Tbl.get (fun _ => 0) s.qm.slowUsed d.pool
def State.setSlowUsed (s : State) (d : Dir) (n : Nat) : State :=
  { s with qm := { s.qm with slowUsed := Tbl.set (fun _ => 0) s.qm.slowUsed d.pool n } }
def State.hbmUsed (s : State) (d : Dir) : Nat := Tbl.get (fun _ => 0) s.qm.hbmUsed d.pool
def State.setHbmUsed (s : State) (d : Dir) (n : Nat) : State :=
  { s with qm := { s.qm with hbmUsed := Tbl.set (fun _ => 0) s.qm.hbmUsed d.pool n } }

/-- Cells of one GiB of HBM. -/
def cellsPerGib : Nat := 4194304

/-- GiB of the enabled stacks. -/
def State.hbmGib (s : State) : Nat :=
  let e := s.fld R.qmHbmCfg F.qmHbmCfg_stackEn
  32 * (e % 2 + e / 2 % 2)

/-- HBM cells of a region: UP_GIB, and the rest of the enabled stacks less the program area (R263, R377). -/
def State.hbmSize (s : State) (d : Dir) : Nat :=
  let up := s.fld R.qmHbmCfg F.qmHbmCfg_upGib
  match d with
  | .up => up * cellsPerGib
  | .dn => (s.hbmGib - up - min 8 (s.fld R.lschHbmArea F.lschHbmArea_gib)) * cellsPerGib

/-- The stacks that allocate cells (R270). -/
def State.stackEn (s : State) : Nat := s.fld R.qmHbmCfg F.qmHbmCfg_stackEn

/-- The channel that holds cell `k` of the enabled HBM (R271): `k` mod 32, or `k` mod 16 of the one stack enabled. Channels 0 to 15 are
those of stack 0. [DESIGN CHOICE, log entry 171] -/
def hbmChannel (en k : Nat) : Nat := if en = 3 then k % 32 else if en = 2 then 16 + k % 16 else k % 16

/-- The cells of a stack in use. -/
def State.stackUsed (s : State) (k : Nat) : Nat := Tbl.get (fun _ => 0) s.qm.stackUsed k

/-- How many of some cells lie in stack `k`. -/
def inStackOf (k : Nat) (cells : List Nat) : Nat := (cells.filter (fun c => c / 16 == k)).length

/-- The cells in use in the two stacks. -/
def State.setStacks (s : State) (a b : Nat) : State :=
  { s with qm := { s.qm with stackUsed := Tbl.set (fun _ => 0) (Tbl.set (fun _ => 0) s.qm.stackUsed 0 a) 1 b } }

/-- The channels of the next `n` cells to be taken: cells are taken in rotation. [DESIGN CHOICE, log entry 171] -/
def State.nextCells (s : State) (n : Nat) : List Nat := (List.range n).map (fun i => hbmChannel s.stackEn (s.qm.nextCell + i))

/-- Take the next `n` HBM cells for a region. [DESIGN CHOICE, log entry 171] -/
def State.hbmTake (s : State) (d : Dir) (n : Nat) : State :=
  let l := s.nextCells n
  let s := (s.setHbmUsed d (s.hbmUsed d + n)).setStacks (s.stackUsed 0 + inStackOf 0 l) (s.stackUsed 1 + inStackOf 1 l)
  { s with qm := { s.qm with nextCell := (s.qm.nextCell + n) % 32 } }

/-- Give back HBM cells of a region, each in its own stack (R270). [DESIGN CHOICE, log entry 171] -/
def State.hbmGive (s : State) (d : Dir) (cells : List Nat) : State :=
  (s.setHbmUsed d (s.hbmUsed d - cells.length)).setStacks (s.stackUsed 0 - inStackOf 0 cells) (s.stackUsed 1 - inStackOf 1 cells)

/-! ## Drops and pipes -/

/-- Count a drop of cause `c` (R268). -/
def State.qmDrop (s : State) (c : Nat) : State :=
  ((s.count (R.qmDropCount c) F.qmDropCount_count).pmcEvent 0x91 0x11).pmcEvent 0x91 (if c = 8 then 3 else 2)

/-- The packets waiting at the input of a pipe, or classified and not yet admitted. -/
def State.pipe (s : State) (d : Dir) (n : Nat) : List Pkt := Tbl.get (fun _ => []) s.cls.pipes (8 * d.pool + n)
def State.setPipe (s : State) (d : Dir) (n : Nat) (l : List Pkt) : State :=
  { s with cls := { s.cls with pipes := Tbl.set (fun _ => []) s.cls.pipes (8 * d.pool + n) l } }
def State.classified (s : State) (d : Dir) (n : Nat) : List Pkt := Tbl.get (fun _ => []) s.cls.done (8 * d.pool + n)
def State.setClassified (s : State) (d : Dir) (n : Nat) (l : List Pkt) : State :=
  { s with cls := { s.cls with done := Tbl.set (fun _ => []) s.cls.done (8 * d.pool + n) l } }

/-- The pipe of a packet (R226): by its medium flow for a parcel's packet, else by its channel. -/
def pipeOf (p : Pkt) : Nat :=
  match p.dir with
  | .dn => if p.inject then p.chan % 8 else p.flow % 8
  | .up => p.chan % 8

/-- A packet with its cells taken enters its pipe and is counted there (R228, R259). -/
def State.enterPipe (s : State) (p : Pkt) : State :=
  let n := pipeOf p
  let s := s.setPipe p.dir n (s.pipe p.dir n ++ [{ p with id := s.qm.ids }])
  { s with qm := { s.qm with ids := s.qm.ids + 1 } }.count (R.pipePkts p.dir.unit n) F.pipePkts_count |>.pmcEvent (0x93 + p.dir.unit) 1

/-- Whether the input of a pipe takes no packet: full (R229), or its unit restarts or takes no new items. -/
def State.pipeFull (s : State) (d : Dir) (n : Nat) : Bool :=
  decide (Config.pipeInput + 1 ≤ (s.pipe d n).length) || s.restarting d.src || !s.domTakes d.domain

/-! ## The message slow-path queue (R88) -/

/-- Event source of the message slow-path queue (R382). -/
abbrev msgqSource : Nat := 32 * 0xF0 + 1

/-- Place a message of the header region before the first one of a later frame, or of the same frame and a higher plane (R88); a message
that came as a parcel takes its place as it is completed, behind all (R579). [DEDUCED, log entry 31] -/
def msgInsert : List Msg → Msg → List Msg
  | [], m => [m]
  | x :: t, m =>
    if !m.parcel && !x.parcel && (decide (m.frame < x.frame) || (x.frame == m.frame && decide (m.plane < x.plane))) then m :: x :: t
    else x :: msgInsert t m

/-- A message enters the message slow-path queue of 512, which it finds with room or full; the queue's event source fires
when it stops being empty (R88, R382). [DEDUCED, log entry 31] -/
def State.msgEnqueue (s : State) (m : Msg) : State × Bool :=
  if 512 ≤ s.dfp.msgq.length then (s.count (R.dfpMsgDisc m.plane) F.dfpMsgDisc_count, false)
  else
    let was := s.dfp.msgq.isEmpty
    let s := { s with dfp := { s.dfp with msgq := msgInsert s.dfp.msgq m } }
    (if was then s.edge msgqSource else s, true)

end Sys2Proof.Machine
end

