-- ==== Sys2Proof/Machine/Queues.lean ====
section
/-!
DEFINITION. The queue manager: descriptors, admission and drops (R260 to R269), the way of a packet through HBM (R265,
R266), its commands (R289) and the HBM arbiter (R271 to R274).
-/

namespace Sys2Proof.Machine

/-! ## Descriptors (R289) -/

def Queue.valid (q : Queue) : Bool := bitOf q.desc.toNat 63
def Queue.slow (q : Queue) : Bool := bitOf q.desc.toNat 62
def Queue.rgroup (q : Queue) : Nat := bitsOf q.desc.toNat 61 56
def Queue.yel (q : Queue) : Nat := bitsOf q.desc.toNat 47 44
def Queue.redF (q : Queue) : Nat := bitsOf q.desc.toNat 43 40
def Queue.limit (q : Queue) : Nat := bitsOf q.desc.toNat 19 0

/-- The packets that have joined the queue (R265: one still being written to HBM has not). [DEDUCED, log entry 66] -/
def Queue.joined (q : Queue) : List QPkt := q.pkts.filter (fun p => p.medium != .writing)

/-- Bytes of a packet still to be sent. -/
def QPkt.rest (p : QPkt) : Nat := p.pkt.bytes.length - p.sent

/-- OCC_BYTES. [DEDUCED, log entry 66] -/
def Queue.occBytes (q : Queue) : Nat := q.joined.foldl (fun n p => n + p.rest) 0

/-- The queue's bytes on die (R266). -/
def Queue.dieBytes (q : Queue) : Nat := (q.pkts.filter (fun p => p.medium == .die)).foldl (fun n p => n + p.rest) 0

/-- Whether the range of queue `q` is the upstream one (R260). -/
def qUp (q : Nat) : Bool := decide (q < 0x2000)

/-- Whether queue `q` may be a slow-path queue: host or control plane (R262). -/
def qSlowRange (q : Nat) : Bool := decide (0x3800 ≤ q)

/-- Whether a packet of a direction's pipe may enter queue `q` (R261). -/
def rangeOk (d : Dir) (q : Nat) : Bool :=
  match d with
  | .up => qUp q || qSlowRange q
  | .dn => !qUp q

/-- Whether queue `q` draws on the slow-path reserve (R262). -/
def State.isSlow (s : State) (q : Nat) : Bool := qSlowRange q && (s.queue q).slow

/-! ## Drops (R267, R268) -/

/-- Drop a packet whose on-die cells are held: cells freed, cause counted in QM.DROP_COUNT and in the queue. -/
def State.dropPkt (s : State) (p : Pkt) (cause : Nat) : State :=
  let s := (s.freeCells p.dir (cellsOf p.bytes.length)).qmDrop cause
  let q := s.queue p.queue
  let s := s.setQueue p.queue { q with drop := (q.drop + 1) % 2 ^ 48 }
  s.departDrop p

/-- A packet that meets the restarting QM is dropped as FAULT and reported as a packet in transit (R286); its queue counts the drop. -/
def State.dropFault (s : State) (p : Pkt) : State :=
  let s := ((s.freeCells p.dir (cellsOf p.bytes.length)).qmDrop 8).report (Lost.packet Src.qm 2 (s.lostCode Src.qm) p)
  let v := s.queue p.queue
  (s.setQueue p.queue { v with drop := (v.drop + 1) % 2 ^ 48 }).departure p 9 (s.stamp (0x300 + p.chan)).short

/-! ## Admission (R265 to R267) -/

/-- The share of LIMIT in sixteenths that a colour may use: 0 green, 1 yellow, 2 red. -/
def Queue.share (q : Queue) (colour : Nat) : Nat := if colour = 0 then 16 else if colour = 1 then q.yel else q.redF

/-- The cause for which the admission test refuses a packet, if any (R267). [DEDUCED, log entry 64] -/
def State.admitCause (s : State) (p : Pkt) : Option Nat :=
  let q := s.queue p.queue
  let n := cellsOf p.bytes.length
  if !q.valid then some 0
  else if !rangeOk p.dir p.queue then some 1
  else if q.limit * 4096 * q.share p.colour < (q.occBytes + p.bytes.length) * 16 then
    some (if p.colour = 0 then 2 else 3)
  else if s.isSlow p.queue && decide (s.fld R.qmPoolCfg F.qmPoolCfg_slowMax * 16 < s.slowUsed p.dir + n) then some 5
  else if qUp p.queue && decide (s.hbmSize .up < s.hbmUsed .up + n) then some 6
  else none

/-- Start the reads of spilled packets among the first four of a list (R266). [DEDUCED, log entry 66] -/
def startReads : Nat → List QPkt → List QPkt
  | 0, l => l
  | _ + 1, [] => []
  | n + 1, p :: t => (if p.medium == .hbm then { p with medium := .reading } else p) :: startReads n t

/-- The queue's spilled packets among its first four are being read; upstream packets stay in HBM until a build. -/
def State.refreshReads (s : State) (q : Nat) : State :=
  if qUp q then s else s.setQueue q { s.queue q with pkts := startReads 4 (s.queue q).pkts }

/-- Event source of a control-plane queue (R382). -/
def ctlSource (q : Nat) : Nat := 0x2000 + (q - 0x3E00)

/-- A packet joins a queue; a control-plane queue that stops being empty raises its event source (R382). -/
def State.joinQueue (s : State) (q : Nat) (p : QPkt) : State :=
  let was := (s.queue q).joined.isEmpty
  let v := s.queue q
  let s := (s.setQueue q { v with pkts := v.pkts ++ [p], enq := (v.enq + 1) % 2 ^ 48 }).refreshReads q
  let s := if s.isSlow q then s.setSlowUsed p.pkt.dir (s.slowUsed p.pkt.dir + cellsOf p.pkt.bytes.length) else s
  if was && decide (0x3E00 ≤ q) && p.medium != .writing then s.edge (ctlSource q) else s

/-- Whether a DN-pool packet is spilled at admission (R266); with no free cell in the region it stays on die. -/
def State.spills (s : State) (p : Pkt) : Bool :=
  p.dir == .dn && !qUp p.queue && decide (s.dieFree .dn < s.fld R.qmHbmCfg F.qmHbmCfg_spillOn) &&
    decide (s.fld R.qmHbmCfg F.qmHbmCfg_spillQ * 4096 < (s.queue p.queue).dieBytes) &&
    decide (s.hbmUsed .dn + cellsOf p.bytes.length ≤ s.hbmSize .dn)

/-- The admission test and what follows it. [DEDUCED, log entry 64] -/
def State.takeIn (s : State) (p : Pkt) : State :=
  let n := cellsOf p.bytes.length
  let s := (s.pmcEvent 0x91 1).pmcEvent (0x93 + p.dir.unit) 2
  if s.restarting Src.qm then s.dropFault p
  else
    match s.admitCause p with
    | some c => s.dropPkt p c
    | none =>
      let s := s.pmcEvent 0x91 0x10
      let idx := (s.queue p.queue).enq
      if qUp p.queue then (s.hbmTake .up n).joinQueue p.queue ⟨p, .writing, idx, 0, s.nextCells n⟩
      else if s.spills p then (((s.pmcEvent 0x91 0x12).freeCells .dn n).hbmTake .dn n).joinQueue p.queue ⟨p, .hbm, idx, 0, s.nextCells n⟩
      else s.joinQueue p.queue ⟨p, .die, idx, 0, []⟩

/-! ## Leaving a queue -/

/-- Give back the cells of a packet that leaves its queue, and its share of the slow-path reserve. -/
def State.releaseCells (s : State) (q : Nat) (p : QPkt) : State :=
  let n := cellsOf p.pkt.bytes.length
  let s := if s.isSlow q then s.setSlowUsed p.pkt.dir (s.slowUsed p.pkt.dir - n) else s
  match p.medium with
  | .die => s.freeCells p.pkt.dir n
  | .writing => (s.freeCells p.pkt.dir n).hbmGive .up p.cells
  | .hbm | .reading => s.hbmGive (if qUp q then .up else p.pkt.dir) p.cells

/-- Remove the packet numbered `id` from a queue, its cells freed. -/
def State.removePkt (s : State) (q id : Nat) : State :=
  match (s.queue q).pkts.find? (fun p => p.pkt.id == id) with
  | none => s
  | some p =>
    let v := s.queue q
    (((s.releaseCells q p).setQueue q { v with pkts := v.pkts.filter (fun x => x.pkt.id != id) }).refreshReads q).pmcEvent 0x91 2

/-- The head packet of a queue, if it is ready (R276): wholly in the buffer and, if spilled, read back. -/
def State.head (s : State) (q : Nat) : Option QPkt :=
  match (s.queue q).joined with
  | [] => none
  | p :: _ => if p.medium == .die || (qUp q && p.medium == .hbm) then some p else none

/-! ## Commands (R289) -/

/-- The common part of a table command's write: refused while BUSY (bit `coll` of the unit's status latched), else the
fields of OP, TABLE and INDEX taken and STATUS set to BUSY, or at once to NOT_READY while the unit's table is being
cleared. [DEDUCED, log entry 67] -/
def State.startCmd (s : State) (cmd : Nat) (status : Fld) (stReg : Nat) (coll ready : Fld) (notReady : Nat)
    (mask : Nat) (v : BitVec 64) : State :=
  if s.fld cmd status = 1 then s.latch stReg coll
  else
    let s := s.setReg cmd (BitVec.ofNat 64 (v.toNat &&& mask))
    s.setFld cmd status (if s.bit stReg ready then 1 else notReady)

/-- A written word whose OP field names the command's operation. -/
def withOp (hi lo op : Nat) (v : Word) : Word := BitVec.ofNat 64 (setBitsOf v.toNat hi lo op)

/-- The fields of QM.CMD that a write sets. -/
def qmCmdMask : Nat := 3 * 2 ^ 56 + (2 ^ 14 - 1) * 2 ^ 32

/-- A write of QM.CMD. -/
def State.qmCmdWrite (s : State) (v : BitVec 64) : State :=
  s.startCmd R.qmCmd F.qmCmd_status R.qmStatus F.qmStatus_cmdCollide F.qmStatus_ready 2 qmCmdMask v

/-- The cells of a queue's packets of a pool. -/
def Queue.cells (q : Queue) (d : Dir) : Nat := (q.pkts.filter (fun p => p.pkt.dir == d)).foldl (fun n p => n + cellsOf p.pkt.bytes.length) 0

/-- A queue becomes, or stops being, a slow-path queue: its waiting packets count in slow_used, or no longer (R267). -/
def State.slowMoves (s : State) (q : Nat) (was : Bool) : State :=
  if s.isSlow q = was then s
  else [Dir.up, .dn].foldl (fun (s : State) d =>
    s.setSlowUsed d (if was then s.slowUsed d - (s.queue q).cells d else s.slowUsed d + (s.queue q).cells d)) s

/-- Replace a queue's descriptor: VALID from 0 to 1 clears its counters. -/
def State.putDesc (s : State) (q : Nat) (d : BitVec 64) : State :=
  let v := s.queue q
  let d := BitVec.ofNat 64 (d.toNat &&& (0xFF * 2 ^ 56 + 0xFF * 2 ^ 40 + (2 ^ 20 - 1)))
  if !v.valid && bitOf d.toNat 63 then s.setQueue q { v with desc := d, enq := 0, drop := 0 }
  else s.setQueue q { v with desc := d }

/-- A queue's WRITE (R289). -/
def State.writeDesc (s : State) (q : Nat) (d : BitVec 64) : State := (s.putDesc q d).slowMoves q (s.isSlow q)

/-- Load QM.DATA0 to DATA3 with a queue. -/
def State.readDesc (s : State) (q : Nat) : State :=
  let v := s.queue q
  let s := s.setReg R.qmData0 v.desc
  let s := s.setReg R.qmData1 (BitVec.ofNat 64 (v.joined.length % 2 ^ 24 * 2 ^ 40 + v.occBytes % 2 ^ 40))
  let s := s.setReg R.qmData2 (BitVec.ofNat 64 v.enq)
  s.setReg R.qmData3 (BitVec.ofNat 64 v.drop)

/-! ## Pool settings (R269) -/

/-- A write to QM.POOL_CFG: refused where a pool would fall below 65,536 cells or lose cells that hold packets. -/
def State.writePoolCfg (s : State) (v : BitVec 64) : State :=
  let up := bitsOf v.toNat 63 44
  if up < 65536 ∨ 786432 < up + 65536 ∨ up < s.dieUsed .up ∨ 786432 < up + s.dieUsed .dn then
    s.latch R.qmStatus F.qmStatus_poolRefused
  else s.setReg R.qmPoolCfg (BitVec.ofNat 64 (v.toNat / 2 ^ 12 * 2 ^ 12))

/-- A write to QM.HBM_CFG: refused where a region would fall below 4 GiB or lose cells that hold packets, or UP_GIB exceeds
the enabled stacks less 4 GiB; the DN region is what UP_GIB and the program area leave (R377). -/
def State.writeHbmCfg (s : State) (v : BitVec 64) : State :=
  let up := bitsOf v.toNat 15 10
  let e := bitsOf v.toNat 9 8
  let gib := 32 * (e % 2 + e / 2)
  let area := min 8 (s.fld R.lschHbmArea F.lschHbmArea_gib)
  if gib < up + 4 ∨ up < 4 ∨ gib < up + area + 4 ∨ up * cellsPerGib < s.hbmUsed .up ∨
      (gib - up - area) * cellsPerGib < s.hbmUsed .dn then
    s.latch R.qmStatus F.qmStatus_poolRefused
  else s.setReg R.qmHbmCfg (BitVec.ofNat 64 (v.toNat &&& ((2 ^ 32 - 1) * 2 ^ 32 + 0xFF00)))

/-! ## The HBM arbiter (R272, R274) -/

/-- The rank order after the winner at index `i` dropped to the lowest rank. [DESIGN CHOICE, log entry 71; DEDUCED, log entry 72] -/
def rotateRank (l : List HbmReq) (i : Nat) : List HbmReq :=
  l.take i ++ l.drop (i + 1) ++ (l.drop i).take 1

/-- The turn hint of a pending loser: four beats for the winner's transfer and for each position of another pending
requester above the loser's highest position after the rotation. [DESIGN CHOICE, log entry 71; DEDUCED, log entry 72] -/
def turnHint (ranks : List HbmReq) (pending : List HbmReq) (r : HbmReq) : Nat :=
  4 * (1 + ((ranks.takeWhile (fun x => x != r)).filter (fun x => pending.contains x)).length)

/-- One decision of a channel's arbiter among the pending requesters; one that has further requests pending behind its first is listed
twice, and after it has won it still counts in the hints of the others. [DESIGN CHOICE, log entry 71; DEDUCED, log entry 72] -/
def HbmChan.decide (c : HbmChan) (pending : List HbmReq) : HbmChan :=
  match c.ranks.findIdx? (fun x => pending.contains x) with
  | none => { c with busy := none, hints := [] }
  | some i =>
    let w := c.ranks.getD i .upWr
    let ranks := rotateRank c.ranks i
    let losers := [HbmReq.upWr, .upRd, .dnWr, .dnRd, .circ, .lim].filter (fun r => pending.contains r && r != w)
    { ranks := ranks, busy := some w, hints := losers.map (fun r => (r, turnHint ranks (pending.erase w) r)) }

end Sys2Proof.Machine
end

