-- ==== Sys2Proof/Machine/ClsOps.lean ====
section
/-!
DEFINITION. The classifier: its tables, their visibility and the commands on them (R231 to R237, R241, R248 to R254), and the
classification of a packet (R230 to R247).
-/

namespace Sys2Proof.Machine

/-! ## Tables (R231 to R237, R241, R244, R248, R249) -/

/-- The entries of a table: 0 selector, 1 profiles, 2 flow, 3 ternary, 4 pattern, 5 meters. -/
def clsSize (t : Nat) : Nat :=
  match t with
  | 0 => 256
  | 1 => 64
  | 2 => 1048576
  | 3 => 65536
  | 4 => 4096
  | 5 => 4096
  | _ => 0

def clsKey (t i : Nat) : Nat := t * 2 ^ 21 + i

def State.clsEntry (s : State) (t i : Nat) : ClsEntry := Tbl.get (fun _ => {}) s.cls.tables (clsKey t i)
def State.setClsEntry (s : State) (t i : Nat) (e : ClsEntry) : State :=
  { s with cls := { s.cls with tables := Tbl.set (fun _ => {}) s.cls.tables (clsKey t i) e } }

/-- The entries of table `t` with their indexes, ascending. -/
def State.clsEntries (s : State) (t : Nat) : List (Nat × ClsEntry) :=
  (s.cls.tables.filter (fun e => e.1 / 2 ^ 21 == t)).map (fun e => (e.1 % 2 ^ 21, e.2))

/-- Word `k` of an entry. -/
def ClsEntry.word (e : ClsEntry) (k : Nat) : Nat := (e.words.getD k 0).toNat

/-- Whether table `t` is in EDITION mode. -/
def State.edMode (s : State) (t : Nat) : Bool := decide (t ≤ 4) && bitOf (s.fld R.clsTableMode F.clsTableMode_mode) t

/-- The current edition and the one before it. -/
def State.edCur (s : State) : Nat := s.cls.edition
def State.edOld (s : State) : Nat := s.cls.edition - 1
def State.edOldLive (s : State) : Bool := s.bit R.clsEdStatus F.clsEdStatus_oldLive
def State.edStage (s : State) : Bool := s.bit R.clsEdStatus F.clsEdStatus_stageOpen
def State.edSweep (s : State) : Bool := s.bit R.clsEdStatus F.clsEdStatus_sweeping

/-- The slot of the staging edition. -/
def State.stageSlot (s : State) : Nat := (s.edCur + 1) % 3

/-- Whether an entry of table `t` is in use for edition slot `e` (R248, R249). -/
def State.clsUse (s : State) (t e : Nat) (x : ClsEntry) : Bool := if s.edMode t then bitOf x.v e else x.valid

/-- The bank of the selector or the profiles for edition slot `e`. -/
def State.clsBank (s : State) (t e : Nat) : Nat := 4096 * (if s.edMode t then e else 3)

/-- Whether an entry serves no live edition nor the staging one (R251). -/
def State.clsFree (s : State) (t : Nat) (x : ClsEntry) : Bool :=
  if s.edMode t then
    !(bitOf x.v (s.edCur % 3)) && !(s.edOldLive && bitOf x.v (s.edOld % 3)) && !(s.edStage && bitOf x.v s.stageSlot)
  else !x.valid

/-- The word and the meaning of VALID within an entry's words; none for the flow table and the meters. -/
def validWord (t : Nat) : Option Nat :=
  match t with
  | 0 => some 4
  | 1 => some 7
  | 3 => some 17
  | 4 => some 9
  | _ => none

/-- How many data words a table's entry has. -/
def clsWords (t : Nat) : Nat :=
  match t with
  | 0 => 5
  | 1 => 8
  | 2 => 5
  | 3 => 18
  | 4 => 10
  | _ => 3

/-- The bits of DATAk that an entry of table `t` keeps (R258). -/
def clsMask (t k : Nat) : Nat :=
  match t, k with
  | 0, 1 => (2 ^ 40 - 1) * 2 ^ 24
  | 0, 3 => (2 ^ 40 - 1) * 2 ^ 24
  | 0, 4 => 2 ^ 63 + 63
  | 1, 7 => 2 ^ 63 + 0x7FF
  | 2, 0 => 63
  | 2, 1 => 2 ^ 32 - 1
  | 3, 17 => 2 ^ 63 + 2 ^ 59 + 63 * 2 ^ 48 + 0xFFFF
  | 4, 9 => 2 ^ 63 + 2 ^ 59 + 0x7FF * 2 ^ 48 + 0x7F * 2 ^ 40 + 0x3F * 2 ^ 32 + 0x7F03
  | 5, 0 => 2 ^ 48 - 1
  | 5, 1 => 2 ^ 48 - 1
  | 5, 2 => 3
  | _, _ => 2 ^ 64 - 1

/-- The words of the data window as an entry of table `t`. -/
def State.clsWindow (s : State) (t : Nat) : List (BitVec 64) :=
  (List.range (clsWords t)).map (fun k => BitVec.ofNat 64 ((s.reg (R.clsData k)).toNat &&& clsMask t k))

/-- VALID as the window words give it. -/
def windowValid (t : Nat) (w : List (BitVec 64)) : Bool :=
  match validWord t with
  | some k => bitOf (w.getD k 0).toNat 63
  | none => true

/-! ## Profiles (R232 to R235) -/

/-- Extractor `k` of a profile. -/
def ClsEntry.extractor (e : ClsEntry) (k : Nat) : Nat := bitsOf (e.word (k / 4)) (63 - 16 * (k % 4)) (48 - 16 * (k % 4))
def exDest (x : Nat) : Nat := bitsOf x 15 14
def exMeta (x : Nat) : Bool := bitOf x 13
def exLen (x : Nat) : Nat := bitsOf x 12 9 + 1
def exOff (x : Nat) : Nat := bitsOf x 7 0

/-- Check `i` of a profile. -/
def ClsEntry.checkWord (e : ClsEntry) (i : Nat) : Nat :=
  bitsOf (e.word 4 * 2 ^ 128 + e.word 5 * 2 ^ 64 + e.word 6) (191 - 48 * i) (144 - 48 * i)
def ckEn (c : Nat) : Bool := bitOf c 47
def ckSense (c : Nat) : Bool := bitOf c 46
def ckOff (c : Nat) : Nat := bitsOf c 45 38

/-- The sixteen extractors and the four checks. -/
def ClsEntry.extractors (e : ClsEntry) : List Nat := (List.range 16).map e.extractor
def ClsEntry.checks (e : ClsEntry) : List Nat := (List.range 4).map e.checkWord

/-- A profile write that R233 refuses: an extractor or a check need not be in use for it. -/
def badProfile (e : ClsEntry) : Bool :=
  let sum := fun (b : Nat) => (e.extractors.filter (fun x => bitOf (exDest x) b)).foldl (fun n x => n + exLen x) 0
  decide (20 < sum 0) || decide (64 < sum 1) ||
    e.extractors.any (fun x => decide ((if exMeta x then 8 else 256) < exOff x + exLen x)) ||
    e.checks.any (fun c => decide (254 < ckOff c))

/-! ## Commands (R252, R253) -/

/-- The fields of CLS.CMD that a write sets. -/
def clsCmdMask : Nat := 7 * 2 ^ 60 + 3 * 2 ^ 56 + 2 ^ 55 + (2 ^ 20 - 1) * 2 ^ 32

/-- The write of a ternary or pattern entry in ATOMIC_ENTRY mode begins: VALID is cleared first, so that a packet that looks up before
the command is done misses the entry (R248). While a sweep runs, no command has begun (R250). [DEDUCED, log entry 67] -/
def State.clsBegin (s : State) : State :=
  let t := s.fld R.clsCmd F.clsCmd_table
  let i := s.fld R.clsCmd F.clsCmd_index
  if s.fld R.clsCmd F.clsCmd_status = 1 ∧ s.fld R.clsCmd F.clsCmd_op = 1 ∧ (t = 3 ∨ t = 4) ∧ !s.edMode t ∧ !s.edSweep ∧ i < clsSize t then
    s.setClsEntry t i { s.clsEntry t i with valid := false }
  else s

/-- A write of CLS.CMD. -/
def State.clsCmdWrite (s : State) (v : Word) : State :=
  let busy := s.fld R.clsCmd F.clsCmd_status = 1
  let s := s.startCmd R.clsCmd F.clsCmd_status R.clsStatus F.clsStatus_cmdCollide F.clsStatus_ready 6 clsCmdMask v
  if busy then s else s.clsBegin

/-- Load the data window with an entry: its words, VALID and V where the window shows them, its counter. [DEDUCED, log entry 58] -/
def State.clsShow (s : State) (t i : Nat) (e : ClsEntry) : State :=
  let word := fun k =>
    let w := e.word k
    let w := if validWord t = some k then setBitsOf w 63 63 (b2n e.valid) else w
    if (t = 3 ∧ k = 17) ∨ (t = 4 ∧ k = 9) then setBitsOf w 62 60 e.v else w
  let s := (List.range (clsWords t)).foldl (fun s k => s.setReg (R.clsData k) (BitVec.ofNat 64 (word k))) s
  let s := if t = 2 then s.setReg (R.clsData 7) (BitVec.ofNat 64 (b2n e.valid * 2 ^ 63 + e.v % 8 * 2 ^ 60 + i % 2 ^ 20)) else s
  let s := s.setReg (R.clsData 18) (BitVec.ofNat 64 (e.pkts % 2 ^ 48))
  s.setReg (R.clsData 19) (BitVec.ofNat 64 (e.bytes % 2 ^ 56))

/-- PROFILE and KEY of a flow row. -/
def ClsEntry.flowProfile (e : ClsEntry) : Nat := e.word 0 % 64
def ClsEntry.flowKeyOf (e : ClsEntry) : Nat := e.word 1 % 2 ^ 32 * 2 ^ 128 + e.word 2 * 2 ^ 64 + e.word 3

/-- The flow row with a profile and key that satisfies a predicate. -/
def State.flowRow (s : State) (prof key : Nat) (p : ClsEntry → Bool) : Option (Nat × ClsEntry) :=
  (s.clsEntries 2).find? (fun e => e.2.flowProfile == prof && e.2.flowKeyOf == key && p e.2)

/-- A bucket of the flow table for a profile and key. [DESIGN CHOICE, log entry 57] -/
def flowBucket (b : Bool) (prof key : Nat) : Nat := Config.flowHash b prof key % 262144

/-- The first free row of a bucket. [DESIGN CHOICE, log entry 57] -/
def State.freeRow (s : State) (bucket : Nat) : Option Nat :=
  ((List.range 4).map (fun i => 4 * bucket + i)).find? (fun r => s.clsFree 2 (s.clsEntry 2 r))

/-- Free a row of a bucket by displacing rows into their other buckets, at most `fuel` of them. [DESIGN CHOICE, log entry 57] -/
def State.displace (s : State) (bucket : Nat) : Nat → Option (Nat × State)
  | 0 => (s.freeRow bucket).map (fun r => (r, s))
  | fuel + 1 =>
    match s.freeRow bucket with
    | some r => some (r, s)
    | none =>
      let r := 4 * bucket + fuel % 4
      let e := s.clsEntry 2 r
      let b1 := flowBucket false e.flowProfile e.flowKeyOf
      let other := if b1 = bucket then flowBucket true e.flowProfile e.flowKeyOf else b1
      match s.displace other fuel with
      | none => none
      | some (r', s) => some (r, (s.setClsEntry 2 r' (s.clsEntry 2 r)).setClsEntry 2 r {})

/-- A free row for a profile and key in either bucket, with up to 64 displacements. [DESIGN CHOICE, log entry 57] -/
def State.flowPlace (s : State) (prof key : Nat) : Option (Nat × State) :=
  match s.freeRow (flowBucket false prof key), s.freeRow (flowBucket true prof key) with
  | some r, _ => some (r, s)
  | none, some r => some (r, s)
  | none, none => s.displace (flowBucket false prof key) 64

/-- A new flow row is written; its INDEX returns in DATA7. -/
def State.flowNew (s : State) (w : List (BitVec 64)) (prof key : Nat) (ed : Bool) : State × Nat :=
  match s.flowPlace prof key with
  | none => (s, 2)
  | some (r, s) =>
    let e : ClsEntry := { words := w, valid := !ed, v := if ed then 2 ^ s.stageSlot else 0 }
    ((s.setClsEntry 2 r e).setReg (R.clsData 7) (BitVec.ofNat 64 (b2n e.valid * 2 ^ 63 + e.v * 2 ^ 60 + r)), 0)

/-- WRITE of a flow row by PROFILE and KEY. -/
def State.flowPut (s : State) (w : List (BitVec 64)) : State × Nat :=
  let x : ClsEntry := { words := w }
  let (prof, key) := (x.flowProfile, x.flowKeyOf)
  let st := s.stageSlot
  let over_ := fun (r v : Nat) (valid : Bool) =>
    ((s.setClsEntry 2 r { words := w, valid := valid, v := v }).setReg (R.clsData 7)
      (BitVec.ofNat 64 (b2n valid * 2 ^ 63 + v * 2 ^ 60 + r)), 0)
  if s.edMode 2 then
    match s.flowRow prof key (fun e => bitOf e.v st) with
    | none => s.flowNew w prof key true
    | some (r, e) =>
      let live := bitOf e.v (s.edCur % 3) || (s.edOldLive && bitOf e.v (s.edOld % 3))
      if live then (s.setClsEntry 2 r { e with v := setBitsOf e.v st st 0 }).flowNew w prof key true
      else over_ r (2 ^ st) false
  else
    match s.flowRow prof key (·.valid) with
    | none => s.flowNew w prof key false
    | some (r, _) => over_ r 0 true

/-- DELETE of a flow row. -/
def State.flowDelete (s : State) (prof key : Nat) : State × Nat :=
  let st := s.stageSlot
  if s.edMode 2 then
    match s.flowRow prof key (fun e => bitOf e.v st) with
    | none => (s, 3)
    | some (r, e) => (s.setClsEntry 2 r { e with v := setBitsOf e.v st st 0 }, 0)
  else
    match s.flowRow prof key (·.valid) with
    | none => (s, 3)
    | some (r, e) => (s.setClsEntry 2 r { e with valid := false }, 0)

/-- WRITE of another table's entry at INDEX. -/
def State.entryPut (s : State) (t i : Nat) (w : List (BitVec 64)) : State × Nat :=
  let e : ClsEntry := { words := w, valid := windowValid t w }
  if t = 1 && badProfile e then (s, 5)
  else if t ≤ 1 then (s.setClsEntry t (s.clsBank t s.stageSlot + i) e, 0)
  else if t = 5 then
    let s := s.setClsEntry t i e
    ({ s with cls := { s.cls with meterRun := Tbl.set (fun _ => {}) s.cls.meterRun i { last := s.time.now } } }, 0)
  else if s.edMode t then
    if s.clsFree t (s.clsEntry t i) then (s.setClsEntry t i { e with valid := false, v := 2 ^ s.stageSlot }, 0) else (s, 4)
  else (s.setClsEntry t i e, 0)

/-- DELETE of another table's entry at INDEX. -/
def State.entryDelete (s : State) (t i : Nat) : State × Nat :=
  if t ≤ 1 then
    let k := s.clsBank t s.stageSlot + i
    (s.setClsEntry t k { s.clsEntry t k with valid := false }, 0)
  else if t = 5 then (s.setClsEntry t i {}, 0)
  else
    let e := s.clsEntry t i
    if s.edMode t then (s.setClsEntry t i { e with v := setBitsOf e.v s.stageSlot s.stageSlot 0 }, 0)
    else (s.setClsEntry t i { e with valid := false }, 0)

/-- What a table command does, and its status. [DEDUCED, log entry 58] -/
def State.clsPerform (s : State) : State × Nat :=
  let t := s.fld R.clsCmd F.clsCmd_table
  let op := s.fld R.clsCmd F.clsCmd_op
  let i := s.fld R.clsCmd F.clsCmd_index
  let view := s.bit R.clsCmd F.clsCmd_view
  let ed := s.edMode t
  let w := s.clsWindow t
  let x : ClsEntry := { words := w }
  let slot := if view then s.stageSlot else s.edCur % 3
  if 6 ≤ t ∨ (op = 3 ∧ t ≠ 2) then (s, 7)
  else if clsSize t ≤ i ∧ ¬ (t = 2 ∧ op ≠ 0) then (s, 7)
  else if ed && !s.edStage && (op == 1 || op == 2 || view) then (s, 8)
  else
    match op with
    | 0 => let k := if t ≤ 1 then s.clsBank t slot + i else i
           (s.clsShow t i (s.clsEntry t k), 0)
    | 1 => if t = 2 then s.flowPut w else s.entryPut t i w
    | 2 => if t = 2 then s.flowDelete x.flowProfile x.flowKeyOf else s.entryDelete t i
    | _ =>
      match s.flowRow x.flowProfile x.flowKeyOf (s.clsUse 2 slot) with
      | none => (s, 3)
      | some (r, e) => (s.setReg (R.clsData 7) (BitVec.ofNat 64 (b2n e.valid * 2 ^ 63 + e.v % 8 * 2 ^ 60 + r)), 0)

/-- A CLS command completes; it waits while a sweep runs (R250). [DEDUCED, log entries 58 and 67] -/
def State.clsCmdDone (s : State) : State :=
  if s.fld R.clsCmd F.clsCmd_status ≠ 1 || s.edSweep then s
  else
    let r := s.clsPerform
    (r.1.setFld R.clsCmd F.clsCmd_status r.2).pmcEvent 0x90 5

/-! ## Editions (R250, R251, R254) -/

/-- A refused operation records its cause. -/
def State.edRefuse (s : State) (c : Nat) : State := s.setFld R.clsEdStatus F.clsEdStatus_refusal c

/-- OPEN. -/
def State.edOpen (s : State) : State :=
  if s.edSweep then s.edRefuse 4
  else if s.edStage then s.edRefuse 1
  else s.setBit R.clsEdStatus F.clsEdStatus_sweeping true

/-- COMMIT; a command in progress completes first. [DEDUCED, log entry 60] -/
def State.edCommit (s : State) : State :=
  if s.edSweep then s.edRefuse 4
  else if !s.edStage then s.edRefuse 2
  else if s.edOldLive then s.edRefuse 3
  else
    let s := s.clsCmdDone
    let n := s.edCur
    let s := { s with cls := { s.cls with edition := n + 1 } }
    let s := (s.setFld R.clsEdStatus F.clsEdStatus_old n).setFld R.clsEdStatus F.clsEdStatus_cur (n + 1)
    (s.setBit R.clsEdStatus F.clsEdStatus_oldLive true).setBit R.clsEdStatus F.clsEdStatus_stageOpen false

/-- ABANDON; a command in progress completes first. [DEDUCED, log entry 60] -/
def State.edAbandon (s : State) : State :=
  if s.edSweep then s.edRefuse 4
  else if !s.edStage then s.edRefuse 2
  else s.clsCmdDone.setBit R.clsEdStatus F.clsEdStatus_stageOpen false

/-- Every entry of a table is changed. -/
def State.clsMap (s : State) (t : Nat) (f : ClsEntry → ClsEntry) : State :=
  (s.clsEntries t).foldl (fun s e => s.setClsEntry t e.1 (f e.2)) s

/-- Copy a bank of the selector or the profiles into another. -/
def State.copyBank (s : State) (t from_ to_ : Nat) : State :=
  (List.range (clsSize t)).foldl (fun s i => s.setClsEntry t (4096 * to_ + i) (s.clsEntry t (4096 * from_ + i))) s

/-- The sweep of OPEN: slot n mod 3 is copied into slot (n + 1) mod 3. -/
def State.sweepOpen (s : State) : State :=
  let a := s.edCur % 3
  let b := s.stageSlot
  let s := [0, 1].foldl (fun s t => s.copyBank t a b) s
  let s := [2, 3, 4].foldl (fun s t => s.clsMap t (fun e => { e with v := setBitsOf e.v b b (b2n (bitOf e.v a)) })) s
  s.setBit R.clsEdStatus F.clsEdStatus_stageOpen true

/-- The sweep of a mode change, table by table. [DEDUCED, log entry 59] -/
def State.sweepMode (s : State) (m : Nat) : State :=
  let n := s.edCur % 3
  let s := (List.range 5).foldl (fun s t =>
    let old := s.edMode t
    let new := bitOf m t
    if old = new then s
    else if t ≤ 1 then (if new then s.copyBank t 3 n else s.copyBank t n 3)
    else if new then s.clsMap t (fun e => { e with v := setBitsOf e.v n n (b2n e.valid) })
    else s.clsMap t (fun e => { e with valid := bitOf e.v n })) s
  (s.setFld R.clsTableMode F.clsTableMode_mode m)

/-- A sweep ends. [DEDUCED, log entry 59] -/
def State.sweepDone (s : State) : State :=
  if !s.edSweep then s
  else
    let s := match s.cls.modeNext with
      | some m => { s with cls := { s.cls with modeNext := none } }.sweepMode m
      | none => s.sweepOpen
    (s.setBit R.clsEdStatus F.clsEdStatus_sweeping false).clsBegin

/-- A write to CLS.TABLE_MODE. [DEDUCED, log entry 59] -/
def State.tableModeWrite (s : State) (v : Word) : State :=
  if s.edStage || s.edOldLive || s.edSweep then s.edRefuse 5
  else { s with cls := { s.cls with modeNext := some (v.toNat % 32) } }.setBit R.clsEdStatus F.clsEdStatus_sweeping true

/-! ## Classification (R230 to R247) -/

/-- The metadata block (R230). -/
def metaBytes (p : Pkt) : List Byte :=
  let d := match p.dir with | .up => 0 | .dn => 128
  let f := match p.dir with | .up => 0 | .dn => p.flow
  beBytes 8 ((d + p.chan % 128) * 2 ^ 56 + f % 2 ^ 24 * 2 ^ 32 + p.bytes.length % 2 ^ 16 * 2 ^ 16)

/-- The 13 bytes of the selector key. -/
def selectorKey (p : Pkt) : Nat := beNat ((metaBytes p).take 1 ++ takePad 12 (p.bytes.drop 12))

/-- The profile the selector names, if an entry matches (R231). -/
def State.select (s : State) (p : Pkt) (slot : Nat) : Option Nat :=
  let b := s.clsBank 0 slot
  let key := selectorKey p
  let hit := (s.clsEntries 0).find? (fun e =>
    decide (b ≤ e.1) && decide (e.1 < b + 256) && e.2.valid &&
      ((key ^^^ (e.2.word 0 * 2 ^ 40 + e.2.word 1 / 2 ^ 24)) &&& (e.2.word 2 * 2 ^ 40 + e.2.word 3 / 2 ^ 24)) == 0)
  hit.map (fun e => e.2.word 4 % 64)

/-- Whether a check fails on a packet (R235); a field past the end of the packet neither passes nor fails. -/
def checkFails (p : Pkt) (c : Nat) : Bool :=
  ckEn c && decide (ckOff c + 2 ≤ p.bytes.length) &&
    ((((beNat ((p.bytes.drop (ckOff c)).take 2)) &&& bitsOf c 31 16) == bitsOf c 15 0) == ckSense c)

/-- Whether an enabled extractor or check reaches past the end of the packet. -/
def tooShort (p : Pkt) (e : ClsEntry) : Bool :=
  e.extractors.any (fun x => exDest x != 0 && !exMeta x && decide (p.bytes.length < exOff x + exLen x)) ||
    e.checks.any (fun c => ckEn c && decide (p.bytes.length < ckOff c + 2))

/-- A key of `n` bytes: the bytes of the extractors with DEST bit `b`, in order, zeros behind (R234). -/
def clsKeyBytes (p : Pkt) (e : ClsEntry) (b n : Nat) : Nat :=
  beNat (takePad n ((e.extractors.filter (fun x => bitOf (exDest x) b)).flatMap (fun x =>
    takePad (exLen x) ((if exMeta x then metaBytes p else p.bytes).drop (exOff x)))))

/-- A 512-bit number from eight words. -/
def words8 (e : ClsEntry) (k : Nat) : Nat := (List.range 8).foldl (fun n i => n * 2 ^ 64 + e.word (k + i)) 0

/-- The ternary entry that wins (R237). -/
def State.ternHit (s : State) (slot prof key : Nat) : Option (Nat × ClsEntry) :=
  ((s.clsEntries 3).filter (fun e => s.clsUse 3 slot e.2 && ((key ^^^ words8 e.2 0) &&& words8 e.2 8) == 0 &&
    (bitOf (e.2.word 17) 59 || bitsOf (e.2.word 17) 53 48 == prof))).foldl (fun b e =>
      match b with
      | none => some e
      | some c => if e.2.word 17 % 2 ^ 16 < c.2.word 17 % 2 ^ 16 then some e else some c) none

/-- Count a hit (R245). -/
def State.clsHit (s : State) (t i n : Nat) : State :=
  let e := s.clsEntry t i
  s.setClsEntry t i { e with pkts := (e.pkts + 1) % 2 ^ 48, bytes := (e.bytes + n) % 2 ^ 56 }

/-- The throttle limit (R242). [DEDUCED, log entry 63] -/
def State.throttle (s : State) : Nat := if s.fld R.pwrDegrade F.pwrDegrade_level = 0 then 2048 else 256

/-- Whether a pattern entry matches in a window (R243). -/
def patternMatches (e : ClsEntry) (w : List Byte) : Bool :=
  let c := e.word 9
  let len := clampN 1 64 (bitsOf c 46 40)
  let at_ := fun j => decide (j + len ≤ w.length) && (List.range len).all (fun b =>
    !bitOf (e.word 8) (63 - b) || (w.getD (j + b) 0).toNat == bitsOf (e.word (b / 8)) (63 - 8 * (b % 8)) (56 - 8 * (b % 8)))
  if bitOf c 59 then at_ (bitsOf c 58 48) else (List.range w.length).any at_

/-- The result of classification before it is carried out: OP (0 forward, 1 action drop, 2 punt, 3 pattern drop, 4 miss drop, 5 meter
drop), the punt reason and the failing check, and the packet with its queue, class, colour and flow. -/
structure ClsResult where
  op : Nat
  reason : Nat
  pkt : Pkt
  deriving DecidableEq, Repr

/-- The pattern matcher on an action's packet (R241 to R243). -/
def State.pattern (s : State) (slot off group : Nat) (r : ClsResult) : ClsResult × State :=
  let depth := min 2048 (s.fld R.clsPatCfg F.clsPatCfg_depth)
  if depth = 0 then (r, s)
  else
    let full := (r.pkt.bytes.drop off).take depth
    let w := full.take s.throttle
    let s := if w.length < full.length then s.count R.clsPatTrunc F.clsPatTrunc_count else s
    match (s.clsEntries 4).find? (fun e => s.clsUse 4 slot e.2 && bitsOf (e.2.word 9) 37 32 == group && patternMatches e.2 w) with
    | none => (r, s)
    | some (i, e) =>
      let c := e.word 9
      let s := s.clsHit 4 i r.pkt.bytes.length
      let p := if bitOf c 11 then { r.pkt with cls := bitsOf c 10 8 } else r.pkt
      let p := if bitOf c 14 then { p with colour := bitsOf c 13 12 % 3 } else p
      match bitsOf c 1 0 with
      | 1 => ({ r with op := 3, pkt := p }, s)
      | 2 => ({ r with op := 2, reason := 8, pkt := p }, s)
      | _ => ({ r with pkt := p }, s)

/-- A meter's buckets at a symbol count (R244): a rate of `r` Mb/s fills r × 2^20 / 1,700,000 units of 2^-20 bytes a symbol.
[DEDUCED, log entry 61] -/
def meterFill (lack rate elapsed : Nat) : Nat := lack - rate * elapsed * 2 ^ 20 / 1700000

/-- The two-rate three-colour meter of RFC 2698: the colour, and the buckets after. [DEDUCED, log entry 61] -/
def meterColour (m : MeterRun) (cbs pbs : Nat) (aware : Bool) (pre n : Nat) : Nat × MeterRun :=
  let b := n * 2 ^ 20
  let tc := cbs * 2 ^ 20 - m.lackC
  let tp := pbs * 2 ^ 20 - m.lackP
  if (aware && pre == 2) || decide (tp < b) then (2, m)
  else if (aware && pre == 1) || decide (tc < b) then (1, { m with lackP := m.lackP + b })
  else (0, { m with lackC := m.lackC + b, lackP := m.lackP + b })

/-- Apply meter `i` (R244): a RED result with RED_DROP is a METER_DROP, whatever the action. [DEDUCED, log entry 61] -/
def State.meter (s : State) (i : Nat) (r : ClsResult) : ClsResult × State :=
  let e := s.clsEntry 5 i
  let m : MeterRun := Tbl.get (fun _ => {}) s.cls.meterRun i
  let dt := s.time.now - m.last
  let m := { lackC := meterFill m.lackC (bitsOf (e.word 0) 47 24) dt, lackP := meterFill m.lackP (bitsOf (e.word 0) 23 0) dt
             last := s.time.now : MeterRun }
  let (c, m) := meterColour m (max 16384 (bitsOf (e.word 1) 47 24)) (max 16384 (bitsOf (e.word 1) 23 0)) (bitOf (e.word 2) 0)
    r.pkt.colour r.pkt.bytes.length
  let s := { s with cls := { s.cls with meterRun := Tbl.set (fun _ => {}) s.cls.meterRun i m } }
  let op := if c = 2 && bitOf (e.word 2) 1 then 5 else r.op
  ({ r with op := op, pkt := { r.pkt with colour := c } }, s)

/-- The action word of a hit is applied to the packet (R239). -/
def State.applyAction (s : State) (slot off a : Nat) (p : Pkt) : ClsResult × State :=
  let flow := match p.dir with | .up => bitsOf a 47 28 | .dn => p.flow
  let p := { p with queue := bitsOf a 61 48, flow := flow, cls := bitsOf a 27 25, colour := bitsOf a 24 23 % 3 }
  let op := match bitsOf a 63 62 with | 0 => 0 | 1 => 1 | _ => 2
  let (r, s) := if bitOf a 8 then s.pattern slot off (bitsOf a 7 2) ⟨op, 7, p⟩ else (⟨op, 7, p⟩, s)
  if bitOf a 22 then s.meter (bitsOf a 21 10) r else (r, s)

/-- Lookups and their resolution (R238). -/
def State.resolve (s : State) (slot prof : Nat) (e : ClsEntry) (p : Pkt) : ClsResult × State :=
  let w7 := e.word 7
  let off := w7 % 256
  let flow := if bitOf w7 10 then s.flowRow prof (clsKeyBytes p e 0 20) (s.clsUse 2 slot) else none
  let tern := if bitOf w7 9 then s.ternHit slot prof (clsKeyBytes p e 1 64) else none
  let useTern := match tern with | some (_, x) => bitOf (x.word 16) 9 || flow.isNone | none => false
  match tern, flow with
  | some (i, x), none => (s.clsHit 3 i p.bytes.length).applyAction slot off (x.word 16) p
  | some (i, x), some (j, y) =>
    if useTern then (s.clsHit 3 i p.bytes.length).applyAction slot off (x.word 16) p
    else (s.clsHit 2 j p.bytes.length).applyAction slot off (y.word 4) p
  | none, some (j, y) => (s.clsHit 2 j p.bytes.length).applyAction slot off (y.word 4) p
  | none, none => (⟨if bitOf w7 8 then 4 else 2, 6, p⟩, s)

/-- Selection, checks and lookups of a packet (R231 to R238). [DESIGN CHOICE, log entry 56] -/
def State.classify (s : State) (p : Pkt) : ClsResult × State :=
  let slot := s.edCur % 3
  let p := { p with edition := s.edCur }
  match s.select p slot with
  | none => (⟨2, 0, p⟩, s)
  | some prof =>
    let e := s.clsEntry 1 (s.clsBank 1 slot + prof)
    let p := { p with profile := prof }
    if !e.valid then (⟨2, 10, p⟩, s)
    else
      match e.checks.findIdx? (checkFails p) with
      | some i => (⟨2, 1 + i, { p with check := i }⟩, s)
      | none => if tooShort p e then (⟨2, 5, p⟩, s) else s.resolve slot prof e p

/-- Count an outcome. -/
def State.clsOut (s : State) (c : Nat) : State := s.count (R.clsOutCount c) F.clsOutCount_count

/-- A packet leaves classification toward admission. -/
def State.clsForward (s : State) (n : Nat) (p : Pkt) : State := s.setClassified p.dir n (s.classified p.dir n ++ [p])

/-- A packet is dropped in classification: its cells are freed. -/
def State.clsDrop (s : State) (p : Pkt) : State := (s.freeCells p.dir (cellsOf p.bytes.length)).departDrop p

/-- A packet goes to the slow-path queue of its reason (R247). -/
def State.clsPunt (s : State) (n r : Nat) (p : Pkt) : State :=
  (s.clsOut 4).clsForward n { p with queue := s.fld (R.clsPuntQ r) F.clsPuntQ_queue, reason := some r }

/-- Carry out a result in SERVICE (R246). [DEDUCED, log entry 62] -/
def State.clsService (s : State) (n : Nat) (r : ClsResult) : State :=
  match r.op with
  | 0 => (s.clsOut 0).clsForward n r.pkt
  | 1 => (s.clsOut 1).clsDrop r.pkt
  | 2 => s.clsPunt n r.reason r.pkt
  | 3 => (s.clsOut 7).clsDrop r.pkt
  | 4 => (s.clsOut 2).clsDrop r.pkt
  | _ => (s.clsOut 3).clsDrop r.pkt

/-- Carry out OBS_ACT in OBSERVE (R246). [DEDUCED, log entry 62] -/
def State.clsObserve (s : State) (n : Nat) (r : ClsResult) : State :=
  match s.fld R.clsCfg F.clsCfg_obsAct with
  | 1 => s.clsPunt n 9 r.pkt
  | 2 => (s.clsOut 6).clsForward n { r.pkt with queue := s.fld R.clsCfg F.clsCfg_obsQueue }
  | _ => (s.clsOut 5).clsDrop r.pkt

/-- Whether a direction is in SERVICE. -/
def State.service (s : State) (d : Dir) : Bool :=
  match d with
  | .up => s.bit R.clsCfg F.clsCfg_modeUp
  | .dn => s.bit R.clsCfg F.clsCfg_modeDn

/-- A received PTP event message (R214): Sync, Delay_Req, Pdelay_Req or Pdelay_Resp from a client port. [DESIGN CHOICE, log entry 170] -/
def ptpEvent (p : Pkt) : Bool :=
  p.dir == .up && !p.inject && decide (p.chan < 96) &&
    (match ptpHeader p.bytes with | some h => decide ((p.bytes.getD h 0).toNat % 16 < 4) | none => false)

/-- The oldest packet of a pipe is classified; a received PTP event message goes to the slow path in any case (R214).
[DESIGN CHOICE, log entries 56 and 170] -/
def State.packetClassify (s : State) (d : Dir) (n : Nat) : State :=
  match s.pipe d n with
  | [] => s
  | p :: t =>
    let (r, s) := (((s.setPipe d n t).pmcEvent 0x90 1).pmcEvent 0x90 2).classify p
    if ptpEvent p then s.clsPunt n (if r.op = 2 then r.reason else 7) r.pkt
    else if s.service d then s.clsService n r else s.clsObserve n r

end Sys2Proof.Machine
end

