-- ==== Sys2Proof/Machine/Lead.lean ====
section
/-!
DEFINITION. The lead state of a twin (R464 to R475), the sequence numbers of upstream flows with their mark for advance
(R130, R475) and the mirror of them to the other twin (R477).
-/

namespace Sys2Proof.Machine

/-! ## Flow entries (R148) -/

def flowValid (e : BitVec 40) : Bool := bitOf e.toNat 39
def flowFragOk (e : BitVec 40) : Bool := bitOf e.toNat 38
def flowTag (e : BitVec 40) : Bool := bitOf e.toNat 37
def flowLeadOnly (e : BitVec 40) : Bool := bitOf e.toNat 36
def flowKeysel (e : BitVec 40) : Nat := bitsOf e.toNat 35 32
def flowKeySlot (e : BitVec 40) : Nat := bitsOf e.toNat 31 20
def flowSeq (e : BitVec 40) : Nat := bitsOf e.toNat 15 0

/-- A flow entry with another NEXT_SEQ. -/
def flowWithSeq (e : BitVec 40) (n : Nat) : BitVec 40 := BitVec.ofNat 40 (setBitsOf e.toNat 15 0 n)

/-- Whether the flow's numbers are the lead's alone (R475, R477). -/
def flowMirrored (e : BitVec 40) : Bool := flowLeadOnly e && !flowTag e

/-! ## The mirror (R477, R480) -/

def State.link (s : State) : Nat := s.fld R.hingeStatus F.hingeStatus_link

/-- Queue a control block (R470). -/
def State.pushBlock (s : State) (b : Nat) : State :=
  { s with twin := { s.twin with blocks := s.twin.blocks ++ [BitVec.ofNat 512 b] } }

/-- Start a bulk transfer: SYNC_START queued with a GEN, whose value the spec leaves open (a free value, log entry 3).
[DESIGN CHOICE, log entry 128] -/
def State.startBulk (s : State) : State :=
  let (v, s) := s.takeFree
  let g := v.toNat % 65536
  let s := { s with twin := { s.twin with bulkGen := g, bulk := some 0, bulkCrc := 2 ^ 32 - 1 } }
  s.pushBlock (0x04 * 2 ^ 504 + g * 2 ^ 488)

/-- A change of NEXT_SEQ of a mirrored flow waits for the next UPDATE; the latest value of a flow stands. More than 4,096
waiting entries are discarded and a bulk transfer starts. -/
def State.mirrorSeq (s : State) (f n : Nat) : State :=
  if s.link = 3 ∧ s.role ≠ 0 ∧ s.isLead then
    let l := if s.twin.updates.any (fun e => e.1 == f) then s.twin.updates.map (fun e => if e.1 = f then (f, n) else e)
      else s.twin.updates ++ [(f, n)]
    if 4096 < l.length then
      ({ s with twin := { s.twin with updates := [] } }.latch R.hingeStatus F.hingeStatus_mirrorOvf).startBulk
    else { s with twin := { s.twin with updates := l } }
  else s

/-! ## Taking a sequence number (R130, R475) -/

/-- Whether a flow is still marked for an advance. -/
def State.flowMarked (s : State) (f : Nat) : Bool := s.ubb.marked && !s.ubb.unmarked.contains f

/-- Clear a flow's mark. -/
def State.unmark (s : State) (f : Nat) : State :=
  if s.flowMarked f then { s with ubb := { s.ubb with unmarked := f :: s.ubb.unmarked } } else s

/-- The next SEQ of a COUNTER flow: a pending advance is added first, and NEXT_SEQ moves on by one. -/
def State.takeSeq (s : State) (f : Nat) : Nat × State :=
  let e := s.flow f
  let adv := if flowMirrored e && s.flowMarked f then s.fld R.hingeCfg F.hingeCfg_seqAdvance else 0
  let n := (flowSeq e + adv) % 65536
  let s := if flowMirrored e then s.unmark f else s
  let s := s.setFlow f (flowWithSeq e ((n + 1) % 65536))
  (n, if flowMirrored e then s.mirrorSeq f ((n + 1) % 65536) else s)

/-! ## Upstream messages marked PAIR -/

/-- Withdraw the entries of the upstream message queue that a predicate selects (R429). -/
def State.withdraw (s : State) (p : UpMsg → Bool) : State :=
  { s with ubb := { s.ubb with msgs := s.ubb.msgs.filter (fun m => !p m) } }

/-! ## PTP ports (R211, R475) -/

def State.ptpPort (s : State) (k : Nat) : PtpPort := Tbl.get (fun _ => .disabled) s.time.ptp k
def State.setPtp (s : State) (k : Nat) (v : PtpPort) : State :=
  { s with time := { s.time with ptp := Tbl.set (fun _ => .disabled) s.time.ptp k v } }

/-- The base program enables the PTP port of a client port whose link is up: MASTER, but PASSIVE in a twin that is not lead.
[DESIGN CHOICE, log entry 169] -/
def State.ptpEnable (s : State) (k : Nat) : State := s.setPtp k (if s.isLead then .master else .passive)

/-- The base program disables it. [DESIGN CHOICE, log entry 169] -/
def State.ptpDisable (s : State) (k : Nat) : State := s.setPtp k .disabled

/-- A change of lead moves the enabled ports between MASTER and PASSIVE (R475). [DESIGN CHOICE, log entry 169] -/
def State.ptpMove (s : State) : State :=
  (List.range 96).foldl (fun s k => if s.ptpPort k = .disabled then s else s.ptpEnable k) s

/-- The clockClass of a time status (R211). [DESIGN CHOICE, log entry 169] -/
def clockClass (code : Nat) : Nat :=
  match code with
  | 2 => 6
  | 3 => 135
  | 4 => 135
  | _ => 248

/-- The clockClass that the base program announces at a port, which only a MASTER does (R211). [DESIGN CHOICE, log entry 169] -/
def State.ptpAnnounce (s : State) (k : Nat) : Option Nat :=
  if s.ptpPort k = .master then some (clockClass (s.fld R.timeStatus F.timeStatus_code)) else none

/-! ## The lead state (R474, R475) -/

/-- Make a paired terminal lead or not: LEAD_CHG, LEAD_CHANGES; on a gain every flow is marked and ADVANCES counts, on a
loss the PAIR entries are withdrawn; the PTP ports move. [DESIGN CHOICE, log entry 128] -/
def State.setLead (s : State) (b : Bool) : State :=
  if s.role = 0 ∨ s.bit R.hingeStatus F.hingeStatus_lead = b then s
  else
    let s := s.setBit R.hingeStatus F.hingeStatus_lead b
    let s := s.latch R.hingeStatus F.hingeStatus_leadChg
    let s := (s.count R.hingeCounts0 F.hingeCounts0_leadChanges).ptpMove
    if b then
      ({ s with ubb := { s.ubb with marked := true, unmarked := [] } }).count R.hingeCounts1 F.hingeCounts1_advances
    else s.withdraw (·.pair)

/-- A change of lead that waits for its boundary takes effect. -/
def State.applyLead (s : State) : State :=
  match s.twin.leadNext with
  | none => s
  | some b => { s with twin := { s.twin with leadNext := none } }.setLead b

/-- A change of lead is due at the next frame boundary, or takes effect at once while the line position does not run. -/
def State.dueLead (s : State) (b : Bool) : State :=
  let s := { s with twin := { s.twin with leadNext := some b } }
  if s.lpValid then s else s.applyLead

/-- Write DFP.IDENT.TID; in hub mode a paired terminal that loses its id is not lead at once. -/
def State.writeTid (s : State) (tid : Nat) : State :=
  let s := s.setFld R.dfpIdent F.dfpIdent_tid tid
  if tid = 0x3FE ∧ !s.pinMode ∧ s.role ≠ 0 then
    { s with twin := { s.twin with leadNext := none } }.setLead false
  else s

/-- The level of LEAD_OUT: high while lead, floating (none) while the HINGE domain is off (R475). -/
def State.leadOut (s : State) (hingeOn : Bool) : Option Bool := if hingeOn then some s.isLead else none

end Sys2Proof.Machine
end

