-- ==== Sys2Proof/Machine/Receive.lean ====
section
/-!
DEFINITION. From a verified parcel to a packet or a message: dispositions (R105), resequencer (R99 to R102), reassembly
(R103), message parcels (R579) and the hand-off to the downstream pipes (R98, R226).
-/

namespace Sys2Proof.Machine

/-! ## Parcel headers (R90) -/

def phFlow (h : BitVec 128) : Nat := bitsOf h.toNat 127 108
def phLength (h : BitVec 128) : Nat := bitsOf h.toNat 107 94
def phFrag (h : BitVec 128) : Nat := bitsOf h.toNat 93 92
def phSeq (h : BitVec 128) : Nat := bitsOf h.toNat 91 76
def phStampNs (h : BitVec 128) : Nat := bitsOf h.toNat 75 50
def phStampFrac (h : BitVec 128) : Nat := bitsOf h.toNat 49 36
def phKeysel (h : BitVec 128) : Nat := bitsOf h.toNat 35 32
def phType (h : BitVec 128) : Nat := bitsOf h.toNat 31 28
def phCrc (h : BitVec 128) : Nat := bitsOf h.toNat 15 0

/-- A header passes HCRC16 (R90). -/
def phOk (h : BitVec 128) : Bool := parcelCrc h.toNat == phCrc h

/-- Bytes a parcel occupies (R91): an idle parcel carries no tag. -/
def phExtent (h : BitVec 128) : Nat :=
  if phType h = 0 then roundUp (16 + phLength h) 8 else roundUp (16 + phLength h + 16) 8

/-! ## Dispositions (R105) -/

/-- Count `n` dispositions of a code. -/
def State.disp (s : State) (code : Nat) (n : Nat := 1) : State :=
  let s := s.count (R.dfpDispCount code) F.dfpDispCount_count n
  let s := s.pmcEvent 0xF0 (if code = 15 then 3 else if code = 10 then 0x15 else 2) n
  if code = 0 then s.pmcEvent 0xF0 0x12 n else s

/-- Parcels of a plane with `n` LENGTH bytes in all are DELIVERED (R553, R558). -/
def State.delivered (s : State) (plane parts n : Nat) : State :=
  ((s.disp 0 parts).pmcEvent 0xF0 0x13 n).bandwidth true (96 + plane) n

/-! ## Hand-off (R98, R579) -/

/-- The on-die cells of the parcels of a packet under reassembly (R264); a message takes none. [DEDUCED, log entry 172] -/
def partCells (parts : List Parcel) : Nat :=
  if parts.all (fun p => phType p.hdr == 3) then 0 else cellsOf (parts.flatMap (·.data)).length

/-- Parcels of a packet that finds no free cell end NO_BUFFER (R98, R264), or FAULT while the QM restarts, the packet counted and reported
there (R286); the cells `held` for them are freed. [DEDUCED, log entry 172] -/
def State.noCell (s : State) (parts : List Parcel) (held : Nat) : State :=
  let s := s.freeCells .dn held
  match parts with
  | [] => s
  | first :: _ =>
    if s.restarting Src.qm then
      ((s.disp 15 parts.length).qmDrop 8).report
        ⟨Src.qm, 2, 1, 96 + first.plane, s.lostCode Src.qm, 1, first.stamp.short.toNat, first.stamp.short.toNat,
          (parts.flatMap (·.data)).length, 0⟩
    else s.disp 13 parts.length

/-- The parcels of a packet, with `held` cells, take the further cells they need as their bytes arrive, and go on (R264).
[DEDUCED, log entry 172] -/
def State.withCells (s : State) (parts : List Parcel) (held : Nat) (go : State → State) : State :=
  let n := partCells parts
  if n ≤ held then go (s.freeCells .dn (held - n))
  else
    match s.takeCells .dn false (n - held) with
    | some s => go s
    | none => s.noCell parts held

/-- A whole packet of a data flow, its cells held, goes to its downstream pipe, or ends NO_BUFFER where the pipe is full (R229).
[DEDUCED, log entry 173] -/
def State.handPacket (s : State) (parts : List Parcel) : State :=
  match parts with
  | [] => s
  | first :: _ =>
    let bytes := parts.flatMap (·.data)
    let flow := phFlow first.hdr
    let p : Pkt := { bytes := bytes, dir := .dn, chan := 96 + first.plane, flow := flow, stamp := first.stamp,
                     seq := if bitOf first.own.toNat 27 then some (phSeq first.hdr) else none }
    if s.pipeFull .dn (flow % 8) then
      ((s.freeCells .dn (cellsOf bytes.length)).disp 13 parts.length).count (R.pipeDrop 1 (flow % 8)) ⟨47, 0⟩
    else (s.enterPipe p).delivered first.plane parts.length bytes.length

/-- The parcel of a packet that arrived last: its frame completed the packet (R579). [DEDUCED, log entry 31] -/
def completing (last : Parcel) (parts : List Parcel) : Parcel :=
  parts.foldl (fun b p => if b.order < p.order then p else b) last

/-- A reassembled message parcel (R579). -/
def State.handMessage (s : State) (parts : List Parcel) (last : Parcel) : State :=
  let last := completing last parts
  let bytes := parts.flatMap (·.data)
  let env := BitVec.ofNat 64 (beNat (bytes.take 8))
  let body := bytes.drop 8
  if decide (8 ≤ bytes.length) && body.length == bitsOf env.toNat 45 34 &&
      messageCrc env.toNat body == bitsOf env.toNat 15 0 then
    let (s', ok) := s.msgEnqueue ⟨env, body, last.plane, last.frame, s.stamp (0x100 + last.plane), true⟩
    if ok then s'.delivered last.plane parts.length bytes.length else s'.disp 12 parts.length
  else (s.disp 8 parts.length).count (R.dfpMsgDisc last.plane) F.dfpMsgDisc_count

/-- A complete run of parcels is handed on by its TYPE; a message gives back the cells of other parcels. -/
def State.handOff (s : State) (parts : List Parcel) (last : Parcel) : State :=
  if phType last.hdr = 3 then (s.freeCells .dn (partCells parts)).handMessage parts last else s.handPacket parts

/-! ## Reassembly (R103) -/

def State.reasm (s : State) (f : Nat) : Reasm := Tbl.get (fun _ => {}) s.dfp.reasm f
def State.setReasm (s : State) (f : Nat) (r : Reasm) : State :=
  { s with dfp := { s.dfp with reasm := Tbl.set (fun _ => {}) s.dfp.reasm f r } }

/-- A parcel, with `own` cells of its own, that meets no open reassembly. -/
def State.reasmFresh (s : State) (f : Nat) (p : Parcel) (own : Nat) : State :=
  match phFrag p.hdr with
  | 0 => s.withCells [p] own (·.handOff [p] p)
  | 1 => s.withCells [p] own (·.setReasm f ⟨[p], (phSeq p.hdr + 1) % 65536⟩)
  | _ => (s.freeCells .dn own).disp 6

/-- A parcel reaches reassembly, with the cells that the resequencer held for it. [DEDUCED, log entry 172] -/
def State.reassemble (s : State) (p : Parcel) (own : Nat := 0) : State :=
  let f := phFlow p.hdr
  let r := s.reasm f
  let frag := phFrag p.hdr
  let held := partCells r.parts
  if r.parts = [] then s.reasmFresh f p own
  else if frag ≤ 1 ∨ phSeq p.hdr ≠ r.next then
    (((s.freeCells .dn held).disp 7 r.parts.length).setReasm f {}).reasmFresh f p own
  else
    let parts := r.parts ++ [p]
    let s := s.setReasm f {}
    if 16383 < (parts.flatMap (·.data)).length then (s.freeCells .dn (held + own)).disp 8 parts.length
    else s.withCells parts (held + own) (fun s => if frag = 2 then s.setReasm f ⟨parts, (r.next + 1) % 65536⟩ else s.handOff parts p)

/-! ## Resequencer (R99 to R102) -/

def State.rsq (s : State) (f : Nat) : RsqFlow := Tbl.get (fun _ => {}) s.dfp.rsq f
def State.setRsq (s : State) (f : Nat) (r : RsqFlow) : State :=
  { s with dfp := { s.dfp with rsq := Tbl.set (fun _ => {}) s.dfp.rsq f r } }

/-- WINDOW of a profile (R110). -/
def State.rsqWindow (s : State) (k : Nat) : Nat := clampN 1 16384 (s.fld (R.dfpRsqProfile k) F.dfpRsqProfile_window)

/-- TIMEOUT of a profile in µs (R110). -/
def State.rsqTimeout (s : State) (k : Nat) : Nat := max 1 (s.fld (R.dfpRsqProfile k) F.dfpRsqProfile_timeout)

/-- IDLE in µs (R102). -/
def State.rsqIdle (s : State) : Nat :=
  let m := ((List.range 4).map s.rsqTimeout).foldl max 0
  let i := s.fld R.dfpRsqCfg F.dfpRsqCfg_idle
  if i ≤ m then m + 1 else i

/-- The distance of a parcel from EXP. -/
def seqDist (exp : Nat) (p : Parcel) : Nat := (phSeq p.hdr + 65536 - exp % 65536) % 65536

/-- Insert a parcel among the held ones, which lie in order of distance from EXP. -/
def holdInsert (exp : Nat) (p : Parcel) : List Parcel → List Parcel
  | [] => [p]
  | q :: t => if seqDist exp p < seqDist exp q then p :: q :: t else q :: holdInsert exp p t

/-- A held parcel leaves the resequencer with its cells. -/
def State.unhold (s : State) (p : Parcel) : State := s.reassemble p (cellsOf p.data.length)

/-- Deliver held parcels while the lowest equals EXP, advancing EXP. -/
def State.rsqDrain (s : State) (f : Nat) : Nat → List Parcel → State
  | exp, [] => s.setRsq f { s.rsq f with exp := exp, held := [] }
  | exp, p :: t =>
    if seqDist exp p = 0 then (s.unhold p).rsqDrain f ((exp + 1) % 65536) t
    else s.setRsq f { s.rsq f with exp := exp, held := p :: t }

/-- Deliver every held parcel in SEQ order. -/
def State.rsqAll (s : State) (l : List Parcel) : State := l.foldl (fun s p => s.unhold p) s

/-- A flow's hole is given up (R100): EXP goes to the lowest held SEQ, the numbers passed over are RSQ_LOST, and held
parcels are delivered from there. -/
def State.rsqRelease (s : State) (f : Nat) : State :=
  let r := s.rsq f
  match r.held with
  | [] => s
  | p :: t => (s.disp 10 (seqDist r.exp p)).rsqDrain f (phSeq p.hdr) (p :: t)

/-- The flows that hold parcels, ascending. -/
def State.rsqHolding (s : State) : List Nat := (s.dfp.rsq.filter (fun e => !e.2.held.isEmpty)).map (·.1)

/-- The on-die cells that the resequencer and the reassembly hold. [DEDUCED, log entry 172] -/
def State.dfpCells (s : State) : Nat :=
  s.dfp.rsq.foldl (fun n e => e.2.held.foldl (fun n p => n + cellsOf p.data.length) n) 0 +
    s.dfp.reasm.foldl (fun n e => n + partCells e.2.parts) 0

/-- Bytes of the DN pool used by held parcels, in whole cells. -/
def State.heldBytes (s : State) : Nat :=
  s.dfp.rsq.foldl (fun n e => e.2.held.foldl (fun n p => n + 256 * cellsOf p.data.length) n) 0

/-- The flow whose timer started earliest; of several the lowest. -/
def State.rsqOldest (s : State) : Option Nat :=
  (s.dfp.rsq.foldl (fun (b : Option (Nat × Nat)) e =>
    match e.2.held with
    | [] => b
    | p :: _ =>
      match b with
      | some (_, a) => if p.arrival < a then some (e.1, p.arrival) else b
      | none => some (e.1, p.arrival)) none).map (·.1)

/-- How many parcels are held; every release delivers one at least. -/
def State.heldCount (s : State) : Nat := s.dfp.rsq.foldl (fun n e => n + e.2.held.length) 0

/-- One forced release (R101). [DEDUCED, log entry 33] -/
def State.rsqForce (s : State) : State :=
  match s.rsqOldest with
  | some f => (s.rsqRelease f).count R.dfpRsqStatus F.dfpRsqStatus_forced
  | none => s

/-- Release flows until a parcel of `n` bytes of cells fits the hold space, at most `fuel` times. -/
def State.rsqMakeRoom (s : State) (n : Nat) : Nat → State
  | 0 => s
  | fuel + 1 =>
    if s.heldBytes + n ≤ max 1 (s.fld R.dfpRsqCfg F.dfpRsqCfg_holdMax) * 65536 ∨ s.rsqOldest = none then s
    else s.rsqForce.rsqMakeRoom n fuel

/-- Every running timer is treated as expired at once (R101): each flow that holds parcels gives up one hole; the timer of parcels that
remain held restarts (R100). -/
def State.rsqFlush (s : State) : State := s.rsqHolding.foldl (fun s f => s.rsqRelease f) s

/-- Release flows until fewer than 65,536 hold parcels, at most `fuel` times (R101). -/
def State.rsqFewer (s : State) : Nat → State
  | 0 => s
  | fuel + 1 => if s.rsqHolding.length < 65536 then s else s.rsqForce.rsqFewer fuel

/-- Deliver a parcel at the given place of a flow. -/
def State.rsqDeliver (s : State) (f : Nat) (p : Parcel) : State :=
  let s := s.reassemble p
  s.rsqDrain f ((phSeq p.hdr + 1) % 65536) (s.rsq f).held

/-- A parcel that follows a hole is held (R99, R101), or ends NO_BUFFER where the pool has no cell for it. A forced
release may be of the parcel's own flow: it is then placed against EXP as the release leaves it. -/
def State.rsqHold (s : State) (f : Nat) (p : Parcel) : State :=
  let n := cellsOf p.data.length
  let s := if (s.rsq f).held = [] then s.rsqFewer s.heldCount else s
  let s := s.rsqMakeRoom (256 * n) s.heldCount
  let d := seqDist (s.rsq f).exp p
  if d = 0 then s.rsqDeliver f p
  else if 32768 ≤ d then s.disp 9
  else
    match s.takeCells .dn false n with
    | none => s.noCell [p] 0
    | some s =>
      let r := s.rsq f
      (s.setRsq f { r with held := holdInsert r.exp p r.held }).pmcEvent 0xF0 0x14

/-- A parcel arrives at the resequencer (R99). -/
def State.rsqArrive (s : State) (p : Parcel) : State :=
  let f := phFlow p.hdr
  let r := s.rsq f
  let idle := decide (s.rsqIdle * 212500 < s.time.now - r.last)
  let s := s.setRsq f { r with last := s.time.now, valid := true }
  let d := seqDist r.exp p
  let w := s.rsqWindow (bitsOf p.own.toNat 29 28)
  if !r.valid || idle then
    (s.rsqAll r.held).setRsq f { s.rsq f with held := [] } |>.rsqDeliver f p
  else if d = 0 then s.rsqDeliver f p
  else if d < w then
    if r.held.any (fun q => phSeq q.hdr == phSeq p.hdr) then s.disp 9 else s.rsqHold f p
  else if d < 32768 then
    let s := (s.rsqAll r.held).setRsq f { s.rsq f with held := [] }
    (s.disp 10 (d - r.held.length)).rsqDeliver f p
  else s.disp 9

end Sys2Proof.Machine
end

