-- ==== Sys2Proof/Machine/Sched.lean ====
section
/-!
DEFINITION. The scheduler: nodes, eligibility and deficit round robin (R275, R276), shapers and calendar wheels (R277 to
R280), the selection of a packet for a channel (R281) and for a window (R282, R283), and its commands (R291, R292).
-/

namespace Sys2Proof.Machine

/-! ## Nodes (R292) -/

/-- Keys of the node table: queues at their number, groups from 65536, channels from 131072, the root of upstream selection.
[DEDUCED, log entry 70] -/
def groupKey (g : Nat) : Nat := 65536 + g
def chanKey (c : Nat) : Nat := 131072 + c
def upRoot : Nat := 262144

def Node.attached (n : Node) : Bool := bitOf n.d0.toNat 63
def Node.twinQ (n : Node) : Bool := bitOf n.d0.toNat 62
def Node.group (n : Node) : Nat := bitsOf n.d0.toNat 55 46
def Node.level (n : Node) : Nat := bitsOf n.d0.toNat 45 43
def Node.pri (n : Node) : Nat := bitsOf n.d0.toNat 42 40
def Node.quantum (n : Node) : Nat := 64 * max 1 (bitsOf n.d0.toNat 39 28)
def Node.channel (n : Node) : Nat := bitsOf n.d0.toNat 20 14
def Node.shapeEn (n : Node) : Bool := bitOf n.d1.toNat 63
def Node.resetMode (n : Node) : Nat := bitsOf n.d1.toNat 62 61
def Node.adj (n : Node) : Int := sext 8 (bitsOf n.d1.toNat 60 53)
def Node.rate (n : Node) : Nat := max 2 (bitsOf n.d1.toNat 19 0)

/-- The credit cap in 2^-20 bytes. -/
def Node.cap (n : Node) : Int := ((256 * 2 ^ 20 * max 1 (bitsOf n.d1.toNat 51 36) : Nat) : Int)

/-- The charged length of `len` bytes at a node (R276). -/
def Node.charge (n : Node) (len : Nat) : Int := (len : Int) + n.adj

/-! ## Shapers (R277, R278) -/

/-- Whether a node's shaper counts: shapers of medium channels are ignored. [DEDUCED, log entry 70] -/
def shaperCounts (key : Nat) : Bool := !(decide (chanKey 96 ≤ key) && decide (key ≤ chanKey 119))

/-- The credit brought up to date at a tick: RATE Mb/s for 5 ns is RATE × 655.36 units of 2^-20 bytes. [DEDUCED, log entry 68] -/
def Node.touch (n : Node) (tick : Nat) : Node :=
  if !n.shapeEn then { n with touched := tick }
  else
    let grown := (((tick - n.touched) * n.rate * 65536 / 100 : Nat) : Int)
    { n with credit := min n.cap (n.credit + grown), touched := tick }

/-- The ticks for which a credit below 0 holds a node. [DEDUCED, log entry 68] -/
def Node.holdTicks (n : Node) : Nat := ((-n.credit).toNat * 1600 + (2 ^ 20 * n.rate - 1)) / (2 ^ 20 * n.rate)

/-- Place a node on a wheel while its credit is below 0, else take it off. [DEDUCED, log entry 68] -/
def State.placeNode (s : State) (key : Nat) (n : Node) : State :=
  let wheel := s.qm.wheel.filter (· != key)
  if n.shapeEn && decide (n.credit < 0) && shaperCounts key then
    let s := s.setNode key { n with held := some (s.qm.tick + n.holdTicks), coarse := decide (4096 ≤ n.holdTicks) }
    { s with qm := { s.qm with wheel := wheel ++ [key] } }
  else
    let s := s.setNode key { n with held := none, coarse := false }
    { s with qm := { s.qm with wheel := wheel } }

/-- Charge a departure of `len` bytes at a node: its credit, and its deficit where `drr`. -/
def State.chargeNode (s : State) (key len : Nat) (drr : Bool) : State :=
  let n := (s.node key).touch s.qm.tick
  let c := n.charge len
  let n := if drr then { n with deficit := n.deficit - c } else n
  if n.shapeEn && shaperCounts key then s.placeNode key { n with credit := n.credit - c * 2 ^ 20 }
  else s.setNode key n

/-- Whether a node's shaper holds it. -/
def State.heldBy (s : State) (key : Nat) : Bool := (s.node key).held.isSome && (s.node key).shapeEn && shaperCounts key

/-! ## Deficit round robin (R276) -/

/-- Turns go round: each grows a deficit by the quantum; the first child whose head fits is chosen. [DEDUCED, log entry 69] -/
def drrGo (quantum : Nat → Nat) (cost : Nat → Int) : Nat → List Nat → Tbl Int → Option (Nat × Tbl Int)
  | 0, _, _ => none
  | _ + 1, [], _ => none
  | fuel + 1, k :: ks, d =>
    let dk := Tbl.get (fun _ => 0) d k + quantum k
    let d' := Tbl.set (fun _ => 0) d k dk
    if cost k ≤ dk then some (k, d') else drrGo quantum cost fuel (ks ++ [k]) d'

/-- The child that sends next among `kids` (ascending): the one whose turn it is while its head fits, else the turns go on
to the next children. [DEDUCED, log entry 69] -/
def drrPick (quantum : Nat → Nat) (cost : Nat → Int) (kids : List Nat) (turn : Option Nat) (d : Tbl Int) : Option (Nat × Tbl Int) :=
  match turn with
  | some t =>
    if kids.contains t && decide (cost t ≤ Tbl.get (fun _ => 0) d t) then some (t, d)
    else drrGo quantum cost (300 * (kids.length + 1)) (kids.filter (fun k => decide (t < k)) ++ kids.filter (fun k => decide (k ≤ t))) d
  | none => drrGo quantum cost (300 * (kids.length + 1)) kids d

/-- The deficits of some nodes as a table. -/
def State.deficits (s : State) (keys : List Nat) : Tbl Int :=
  keys.foldl (fun d k => Tbl.set (fun _ => 0) d k (s.node k).deficit) []

/-- Write deficits back. -/
def State.setDeficits (s : State) (d : Tbl Int) (keys : List Nat) : State :=
  keys.foldl (fun s k => s.setNode k { s.node k with deficit := Tbl.get (fun _ => 0) d k }) s

/-- Select among children of a parent: the lowest LEVEL first, deficit round robin within it; the turn and the grown
deficits are recorded. `cost` is the charged length of each child's head. [DEDUCED, log entry 69] -/
def State.selectChild (s : State) (parent : Nat) (kids : List Nat) (cost : Nat → Int) : Option (Nat × State) :=
  match kids with
  | [] => none
  | k0 :: _ =>
    let lvl := kids.foldl (fun m k => min m (s.node k).level) (s.node k0).level
    let ks := kids.filter (fun k => (s.node k).level == lvl)
    let t := Tbl.get (fun _ => 0) (s.node parent).turn lvl
    match drrPick (fun k => (s.node k).quantum) cost ks (if t = 0 then none else some (t - 1)) (s.deficits ks) with
    | none => none
    | some (k, d) =>
      let s := s.setDeficits d ks
      some (k, s.setNode parent { s.node parent with turn := Tbl.set (fun _ => 0) (s.node parent).turn lvl (k + 1) })

/-- The length a queue would offer: the unsent bytes of its head. -/
def State.headLen (s : State) (q : Nat) : Nat :=
  match s.head q with
  | some p => p.rest
  | none => 0

/-- The queue a group would send from, among eligible queues `qs`. -/
def State.pickQueue (s : State) (g : Nat) (qs : List Nat) : Option (Nat × State) :=
  s.selectChild (groupKey g) (qs.filter (fun q => (s.node q).group == g)) (fun q => (s.node q).charge (s.headLen q))

/-- The groups of some queues, ascending and without repeats. -/
def State.groupsOf (s : State) (qs : List Nat) : List Nat :=
  (List.range 1024).filter (fun g => qs.any (fun q => (s.node q).group == g))

/-- Select a queue below a parent, from groups to queues, among eligible queues. A group is eligible while its shaper does
not hold it. [DEDUCED, log entry 70] -/
def State.pickBelow (s : State) (parent : Nat) (qs : List Nat) : Option (Nat × State) :=
  let gs := ((s.groupsOf qs).filter (fun g => !s.heldBy (groupKey g))).map groupKey
  let cost := fun key =>
    match s.pickQueue (key - 65536) qs with
    | some (q, _) => (s.node key).charge (s.headLen q)
    | none => 0
  match s.selectChild parent gs cost with
  | none => none
  | some (key, s) => s.pickQueue (key - 65536) qs

/-- The attached queues of the node table, ascending. -/
def State.attachedQueues (s : State) : List Nat := (s.qm.nodes.filter (fun e => decide (e.1 < 16384) && e.2.attached)).map (·.1)

/-- The channel of a queue's group. -/
def State.queueChan (s : State) (q : Nat) : Nat := (s.node (groupKey (s.node q).group)).channel

/-- After a departure a child that has emptied has its deficit set to 0 (R276). [DEDUCED, log entry 69] -/
def State.settle (s : State) (q : Nat) : State :=
  let s := if (s.queue q).joined.isEmpty then s.setNode q { s.node q with deficit := 0 } else s
  let g := (s.node q).group
  if s.attachedQueues.all (fun x => (s.node x).group != g || (s.queue x).joined.isEmpty) then
    s.setNode (groupKey g) { s.node (groupKey g) with deficit := 0 }
  else s

/-- Drop every packet that has joined a queue, each as FLUSHED; the queue has emptied (R276, R286). -/
def State.flushQueue (s : State) (q : Nat) : State :=
  (s.queue q).joined.foldl (fun s p =>
    let s := ((s.removePkt q p.pkt.id).settle q).qmDrop 7
    let v := s.queue q
    (s.setQueue q { v with drop := (v.drop + 1) % 2 ^ 48 }).departDrop p.pkt) s

/-- Charge a departure of `len` bytes from queue `q` at the queue, its group and its channel. -/
def State.chargePath (s : State) (q len : Nat) : State :=
  let g := groupKey (s.node q).group
  let c := chanKey (s.queueChan q)
  ((s.chargeNode q len true).chargeNode g len true).chargeNode c len false

/-- The packet channel `c` takes next: among its eligible queues, none of whose priority its egress stops, through its groups
(R281). It leaves its queue and is charged. [DEDUCED, log entry 70] -/
def State.selectFor (s : State) (c : Nat) (stopped : Nat → Bool) (groupOk : Nat → Bool) : Option (Pkt × State) :=
  if s.heldBy (chanKey c) then none
  else
    let qs := s.attachedQueues.filter (fun q =>
      s.queueChan q == c && !s.heldBy q && (s.head q).isSome && !stopped (s.node q).pri && groupOk (s.node q).group)
    match s.pickBelow (chanKey c) qs with
    | none => none
    | some (q, s) =>
      match s.head q with
      | none => none
      | some p =>
        let t := ((s.chargePath q p.rest).removePkt q p.pkt.id).settle q
        some ({ p.pkt with pri := (s.node q).pri }, ((t.pmcEvent 0x92 1).pmcEvent 0x92 2).pmcEvent 0x92 0x10)

/-! ## The end of a QM command (R289) -/

/-- A QM command ends. [DEDUCED, log entry 67] -/
def State.qmCmdDone (s : State) : State :=
  if s.fld R.qmCmd F.qmCmd_status ≠ 1 then s
  else
    let q := s.fld R.qmCmd F.qmCmd_index
    let s := s.pmcEvent 0x91 5
    match s.fld R.qmCmd F.qmCmd_op with
    | 0 => (s.readDesc q).setFld R.qmCmd F.qmCmd_status 0
    | 1 => (s.writeDesc q (s.reg R.qmData0)).setFld R.qmCmd F.qmCmd_status 0
    | 2 => (s.flushQueue q).setFld R.qmCmd F.qmCmd_status 0
    | _ => s.setFld R.qmCmd F.qmCmd_status 3

/-! ## The wheel (R278, R279) -/

/-- One tick: nodes whose coarse slot fires move to the fine wheel, behind those placed before; then up to BATCH nodes whose
slot has come are released in the order in which they were placed, and each one beyond that number is counted. [DEDUCED, log entry 68] -/
def State.wheelTick (s : State) : State :=
  let t := s.qm.tick + 1
  let s := { s with qm := { s.qm with tick := t } }
  let fires := fun key => (s.node key).coarse && (match (s.node key).held with | some e => e / 4096 * 4096 == t | none => false)
  let moved := s.qm.wheel.filter fires
  let s := { s with qm := { s.qm with wheel := s.qm.wheel.filter (fun k => !fires k) ++ moved } }
  let s := moved.foldl (fun s k => s.setNode k { s.node k with coarse := false }) s
  let due := s.qm.wheel.filter (fun k => !(s.node k).coarse && (match (s.node k).held with | some e => decide (e ≤ t) | none => false))
  let batch := clampN 1 64 (s.fld R.schCfg F.schCfg_batch)
  let now := due.take batch
  let late := (due.drop batch).filter (fun k => (s.node k).held == some t)
  let s := now.foldl (fun s k => s.setNode k { s.node k with held := none }) s
  let s := { s with qm := { s.qm with wheel := s.qm.wheel.filter (fun k => !now.contains k) } }
  ((s.pmcEvent 0x92 0x11 now.length).pmcEvent 0x92 0x12 late.length).count R.schWheelLate F.schWheelLate_count late.length

/-! ## Commands (R280, R291, R292) -/

def schCmdMask : Nat := 3 * 2 ^ 60 + 3 * 2 ^ 56 + (2 ^ 14 - 1) * 2 ^ 32

/-- A write of SCH.CMD. -/
def State.schCmdWrite (s : State) (v : BitVec 64) : State :=
  s.startCmd R.schCmd F.schCmd_status R.schStatus F.schStatus_cmdCollide F.schStatus_ready 3 schCmdMask v

/-- The bits of DATA0 that a node of table `t` holds, and of DATA1. -/
def schD0Mask (t : Nat) : Nat :=
  if t = 0 then 2 ^ 63 + 2 ^ 62 + 0x3FF * 2 ^ 46 + 7 * 2 ^ 43 + 7 * 2 ^ 40 + 0xFFF * 2 ^ 28
  else if t = 1 then 7 * 2 ^ 43 + 0xFFF * 2 ^ 28 + 0x7F * 2 ^ 14
  else 0
def schD1Mask : Nat := 2 ^ 63 + 3 * 2 ^ 61 + 0xFF * 2 ^ 53 + 0xFFFF * 2 ^ 36 + (2 ^ 20 - 1)

/-- Whether a channel is of the kind a queue's range requires (R260). -/
def chanKindOk (q c : Nat) : Bool :=
  if q < 0x2000 then decide (96 ≤ c) && decide (c ≤ 119)
  else if q < 0x3800 then decide (c ≤ 95)
  else if q < 0x3E00 then decide (120 ≤ c) && decide (c ≤ 126)
  else c == 127

/-- Whether a shaper change applies R280: SHAPE_EN, RATE or BURST differ. -/
def shaperChanged (a b : BitVec 64) : Bool :=
  bitOf a.toNat 63 != bitOf b.toNat 63 || bitsOf a.toNat 51 36 != bitsOf b.toNat 51 36 || bitsOf a.toNat 19 0 != bitsOf b.toNat 19 0

/-- Replace a node's words; a shaper change first brings the credit up to date at the old rate (R280). -/
def State.writeNode (s : State) (key : Nat) (d0 d1 : BitVec 64) : State :=
  let old := (s.node key).touch s.qm.tick
  let n := { old with d0 := d0, d1 := d1 }
  if !shaperChanged old.d1 d1 then s.setNode key n
  else
    match n.resetMode with
    | 1 => s.placeNode key { n with credit := 0 }
    | 2 => s.placeNode key { n with credit := min n.cap old.credit }
    | _ => s.placeNode key { n with credit := n.cap }

/-- Load SCH.DATA0 to DATA3 with a node. -/
def State.readNode (s : State) (key : Nat) : State :=
  let n := (s.node key).touch s.qm.tick
  let s := s.setNode key n
  let s := (s.setReg R.schData0 n.d0).setReg R.schData1 n.d1
  let s := s.setReg R.schData2 (BitVec.ofNat 64 (toTwos 64 n.credit))
  let e := n.held.getD 0
  let slot := if n.coarse then e / 4096 % 4096 else e % 4096
  s.setReg R.schData3 (BitVec.ofNat 64
    (if n.held.isSome then 2 ^ 63 + b2n n.coarse * 2 ^ 62 + slot else 0))

/-- The key of a node of table `t`, if the index lies within the table. -/
def schKey (t i : Nat) : Option Nat :=
  if t = 0 then some i
  else if t = 1 then (if i < 1024 then some (groupKey i) else none)
  else if t = 2 then (if i < 128 then some (chanKey i) else none)
  else none

/-- An SCH command ends. [DEDUCED, log entry 67] -/
def State.schCmdDone (s : State) : State :=
  if s.fld R.schCmd F.schCmd_status ≠ 1 then s
  else
    let t := s.fld R.schCmd F.schCmd_table
    let i := s.fld R.schCmd F.schCmd_index
    let fin := fun (s : State) (st : Nat) => (s.setFld R.schCmd F.schCmd_status st).pmcEvent 0x92 5
    match schKey t i, s.fld R.schCmd F.schCmd_op with
    | none, _ => fin s 2
    | some key, 0 => fin (s.readNode key) 0
    | some key, 1 =>
      let d0 := BitVec.ofNat 64 ((s.reg R.schData0).toNat &&& schD0Mask t)
      let d1 := BitVec.ofNat 64 ((s.reg R.schData1).toNat &&& schD1Mask)
      if t = 0 ∧ bitOf d0.toNat 63 ∧ !chanKindOk i (s.node (groupKey (bitsOf d0.toNat 55 46))).channel then fin s 4
      else if t = 1 ∧ bitsOf d0.toNat 20 14 ≠ (s.node key).channel ∧
          s.attachedQueues.any (fun q => (s.node q).group == i) then fin s 5
      else fin (s.writeNode key d0 d1) 0
    | some _, _ => fin s 2

end Sys2Proof.Machine
end

