-- ==== Sys2Proof/Machine/UbbOps.lean ====
section
/-!
DEFINITION. The upstream burst builder's operations: placement of a window (R121, R125), dispositions of entries and packets
(R138, R139), the selection and sealing of a window's content (R128 to R135, R172, R282, R283), and what becomes of a
burst that is not sent (R136, R137).  Instants are kept in sixteenths of a Gen-2 symbol counted from LP(0, 0, 0).
-/

namespace Sys2Proof.Machine

/-- The type of a message (R74). -/
def msgType (m : Msg) : Nat := bitsOf m.env.toNat 53 46

/-! ## Placement (R114, R121, R125) -/

/-- Whether plane `p` runs at Gen-1. -/
def State.genOne (s : State) (p : Nat) : Bool := s.fld (R.medLaneStatus p) F.medLaneStatus_rate == 1

/-- Gen-2 symbols per symbol of plane `p`. -/
def State.symScale (s : State) (p : Nat) : Nat := if s.genOne p then 4 else 1

/-! ## The transmit driver (R47, R56, R58) -/

/-- LOOPBACK as it is treated: 4 to 7 act as 0 (R56). -/
def State.loopback (s : State) (p : Nat) : Nat :=
  let m := s.fld (R.medTest p) F.medTest_loopback
  if m ≤ 3 then m else 0

/-- PAT_GEN. -/
def State.patGen (s : State) (p : Nat) : Nat := s.fld (R.medTest p) F.medTest_patGen

/-- Whether a test setting drives the transmit lane: far-end loopback, or a pattern outside the near-end loopbacks (R56, R58), once the
transmit PLL has its lock (R51). [DEDUCED, log entry 23] -/
def State.testDrives (s : State) (p : Nat) : Bool :=
  s.bit (R.medLaneCfg p) F.medLaneCfg_laneEn && (s.loopback p == 3 || (s.loopback p == 0 && s.patGen p != 0)) &&
    s.med.txLock && !s.med.txWait

/-- No burst drives the lane any longer: electrical idle, unless a test setting drives it. [DEDUCED, log entry 23] -/
def State.driverRest (s : State) (p : Nat) : State :=
  let s := s.setLane p { s.lane p with fill := false }
  s.setBit (R.medLaneStatus p) F.medLaneStatus_txIdle (!s.testDrives p)

/-- The UBB's request for MBEN on a plane ends, and with it MBEN and a lag that runs. -/
def State.stopPlane (s : State) (p : Nat) : State :=
  let s := s.setUplane p { s.uplane p with req := false, lag := none }
  (s.driverRest p).setBit (R.medLaneStatus p) F.medLaneStatus_mben false

/-- The trim of a lane in sixteenths of a symbol (R46). -/
def State.trim16 (s : State) (p : Nat) : Nat :=
  16 * s.fld (R.medTxCfg p) F.medTxCfg_skewInt + s.fld (R.medTxCfg p) F.medTxCfg_skewFrac

/-- The EQD in force for a target frame from a list of latched values, newest first (R126). -/
def eqdFor (l : List (Nat × Nat)) (frame now : Nat) : Nat :=
  match l.find? (fun e => e.1 == frame) with
  | some e => e.2
  | none => now

/-- EQD_LATCH at LP(G, 0, 0): the values for target frame G + 1 (R126). Four frames of values are kept. -/
def State.latchEqd (s : State) : State :=
  let g := s.time.frame + 1
  (List.range 24).foldl (fun (s : State) p =>
    let u := s.uplane p
    let s := s.setUplane p { u with eqd := (g, s.fld (R.ubbPlaneEqd p) F.ubbPlaneEqd_eqd) :: u.eqd.take 3 }
    let w := Tbl.get (fun _ => []) s.ward.eqd p
    let l := (g, s.fld (R.wardPlaneEqd p) F.wardPlaneEqd_eqd) :: w.take 3
    { s with ward := { s.ward with eqd := Tbl.set (fun _ => []) s.ward.eqd p l } }) s

/-- The UBB's EQD of plane `p` in force for frame `f`. -/
def State.ubbEqd (s : State) (p f : Nat) : Nat := eqdFor (s.uplane p).eqd f (s.fld (R.ubbPlaneEqd p) F.ubbPlaneEqd_eqd)

/-- The launch instant of cell `c` (in plane cells) of frame `f` on plane `p` under an EQD. -/
def State.instant (s : State) (p f c eqd : Nat) : Int :=
  ((16 * (f * frameSymbols + 25 * c * s.symScale p + eqd) + s.trim16 p : Nat) : Int)

/-- The launch instant of an entry (R125). -/
def State.launchAt (s : State) (g : Grant) : Int := s.instant g.plane g.frame g.start (s.ubbEqd g.plane g.frame)

/-- Now, in the same units. -/
def State.now16 (s : State) : Int := 16 * s.lpNow

/-- 2 µs in the same units. -/
def twoMicros : Int := 16 * 425000

/-- The medium time of an instant (R199). -/
def State.timeOf16 (s : State) (i : Int) : Int :=
  if s.bit R.timeStatus F.timeStatus_mtValid then s.time.tF + symbolTime (i - 16 * (s.time.frame * frameSymbols : Nat)) / 16
  else symbolTime ((s.time.now : Int) * 16 + (i - s.now16)) / 16

/-- The profile register an entry names. -/
def Grant.profileReg (g : Grant) : Nat := R.ubbProfile g.plane g.profile

/-- T of an entry's profile. -/
def State.train (s : State) (g : Grant) : Nat := s.fld g.profileReg F.ubbProfile_train

/-- Whether a profile is valid (R118). -/
def State.profileOk (s : State) (g : Grant) : Bool :=
  let t := s.train g
  s.bit g.profileReg F.ubbProfile_valid && t % 2 == 0 && decide (512 ≤ t) && decide (t ≤ 2048) &&
    decide (256 ≤ s.fld g.profileReg F.ubbProfile_guard)

/-- M of R121: symbols of the lane marker. -/
def Grant.marker (g : Grant) : Nat := if g.bonded then 48 else 0

/-- N_max of an entry, with its sign (R121). -/
def State.nMax (s : State) (g : Grant) : Int :=
  ((25 * g.length : Nat) - (s.train g : Int) - 96 - g.marker) / 2736 - 1

/-- B of R121 in plane symbols. -/
def State.burstLen (s : State) (g : Grant) (n : Nat) : Nat := s.train g + 96 + g.marker + 2736 * (n + 1)

/-- MBEN_LEAD and MBEN_LAG as they are treated (R48). -/
def State.mbenLead (s : State) (p : Nat) : Nat := min 192 (s.fld (R.medTxCfg p) F.medTxCfg_mbenLead)
def State.mbenLag (s : State) (p : Nat) : Nat := min 48 (s.fld (R.medTxCfg p) F.medTxCfg_mbenLag)

/-- What a build samples of the plane of an entry (R13, R116). [DEDUCED, log entry 36] -/
def State.lineOf (s : State) (g : Grant) : BurstLine :=
  ⟨g.plane, s.launchAt g, s.train g, s.fld g.profileReg F.ubbProfile_delim, s.fld g.profileReg F.ubbProfile_guard, s.genOne g.plane,
    s.bit (R.medLaneCfg g.plane) F.medLaneCfg_txInv, s.mbenLead g.plane, s.mbenLag g.plane⟩

/-- What a build sampled of a plane. -/
def Build.line (b : Build) (p : Nat) : BurstLine :=
  (b.lines.find? (fun l => l.plane == p)).getD ⟨p, b.launch, 512, 0, 256, false, false, 0, 0⟩

/-- The start of the MBEN lead (R48). -/
def BurstLine.leadAt (l : BurstLine) : Int := l.start - 16 * (l.lead : Int)

/-- The end of a burst on a plane, in sixteenths of a symbol. -/
def Build.endAt (b : Build) (p : Nat) : Int := (b.line p).start + 16 * (b.symbols : Int)

/-- Whether a build sends on plane `p`. -/
def Build.on (b : Build) (p : Nat) : Bool := b.grants.any (fun g => g.plane == p)

/-- Whether a burst holds MBEN of plane `p` on past the instant `e`: one in progress, or a committed one whose lead begins by then (R49, R127).
[DEDUCED, log entry 41] -/
def State.joins (s : State) (p : Nat) (e : Int) : Bool :=
  s.ubb.builds.any (fun b => b.on p && (b.launched || (b.committed && decide ((b.line p).leadAt ≤ e))))

/-- A burst of plane `p` whose lead began at `e` does not take place: its request for MBEN ends unless another burst holds it; while the
lag of the burst before runs, only the fill ends (R49, R50). -/
def State.restPlane (s : State) (p : Nat) (e : Int) : State :=
  if s.joins p e then s
  else
    match (s.uplane p).lag with
    | some _ => s.driverRest p
    | none => s.stopPlane p

/-! ## Dispositions (R138, R139) -/

/-- Count a burst disposition. -/
def State.bdisp (s : State) (code : Nat) : State :=
  (s.count (R.ubbBdispCount code) F.ubbBdispCount_count).pmcEvent 0xF1 (if code = 15 then 3 else 2)

/-- Count a packet disposition. -/
def State.pdisp (s : State) (code : Nat) (n : Nat := 1) : State :=
  let s := s.count (R.ubbPdispCount code) F.ubbPdispCount_count n
  if code = 5 then s.pmcEvent 0xF1 0x14 n else s

/-- The defect bit that a disposition sets. -/
def State.bdefect (s : State) (p code : Nat) : State :=
  if code = 3 then s.latch (R.ubbPlaneDefect p) F.ubbPlaneDefect_noProfile
  else if code = 4 then s.latch (R.ubbPlaneDefect p) F.ubbPlaneDefect_bondBad
  else if code = 7 then s.latch (R.ubbPlaneDefect p) F.ubbPlaneDefect_late
  else s

/-- An entry ends with a disposition and leaves the UBB. -/
def State.endEntry (s : State) (g : Grant) (code : Nat) : State :=
  let u := s.uplane g.plane
  ((s.setUplane g.plane { u with entries := u.entries.filter (fun x => x != g) }).bdisp code).bdefect g.plane code

/-- The entry of plane `p` whose launch comes first among those not yet built. [DESIGN CHOICE, log entry 35] -/
def State.nextEntry (s : State) (p : Nat) : Option Grant :=
  (s.uplane p).entries.foldl (fun b g =>
    match b with
    | none => some g
    | some c => if s.launchAt g < s.launchAt c then some g else some c) none

/-- The entries of a bond in ascending plane order (R134); an entry alone where it is not bonded. -/
def State.bondOf (s : State) (g : Grant) : List Grant :=
  if !g.bonded then [g]
  else (List.range 24).flatMap (fun p => ((s.uplane p).entries.filter (fun x =>
    x.bonded && x.frame == g.frame && x.start == g.start && x.length == g.length && x.kind == g.kind)).take 1)

/-- Whether PERMIT allows a kind (R115). -/
def permits (permit kind : Nat) : Bool :=
  if kind = 2 then permit == 1
  else if kind = 3 then permit == 2 || permit == 3
  else decide (kind ≤ 5) && permit == 3

/-- The disposition of an entry that precedes those of a bond: LATE, NO_PERMIT, NOT_LEAD or NO_PROFILE.
[DEDUCED, log entries 36 and 37] -/
def State.ownDisp (s : State) (g : Grant) : Option Nat :=
  if s.launchAt g - g.accepted * 16 < twoMicros then some 7
  else if !permits (s.fld (R.ubbPlaneCtl g.plane) F.ubbPlaneCtl_permit) g.kind then some 5
  else if g.kind = 5 ∧ !s.isLead then some 6
  else if !s.profileOk g then some 3
  else none

/-- Whether the planes of a bond differ in generation or TRAIN. [DEDUCED, log entry 37] -/
def State.bondBad (s : State) : List Grant → Bool
  | [] => false
  | g :: t => t.any (fun x => s.genOne x.plane != s.genOne g.plane || s.train x != s.train g)

/-! ## Parcels of a burst (R90, R124, R129) -/

/-- The header of an upstream parcel. -/
def parcelHdr (flow len frag seq stampNs stampFrac keysel typ : Nat) : BitVec 128 :=
  let h := flow % 2 ^ 20 * 2 ^ 108 + len % 2 ^ 14 * 2 ^ 94 + frag % 4 * 2 ^ 92 + seq % 2 ^ 16 * 2 ^ 76 +
    stampNs % 2 ^ 26 * 2 ^ 50 + stampFrac % 2 ^ 14 * 2 ^ 36 + keysel % 16 * 2 ^ 32 + typ % 16 * 2 ^ 28
  BitVec.ofNat 128 (h + parcelCrc h)

/-- Bytes of the parcel of a payload of `n` bytes. -/
def parcelSize (n : Nat) : Nat := roundUp (32 + n) 8

/-- Bytes of the whole 64-bit words of the stream of `n` slots on each of `k` planes (R124, R135). -/
def streamBytes (k n : Nat) : Nat := k * n * 5140 / 64 * 8

/-- What a selection works with: the entries in position order, N_max, the TID of the header, the launch instant's medium
time in 2^-16 ns. -/
structure Window where
  grants : List Grant
  n : Nat
  tid : Nat
  time : Int
  deriving DecidableEq, Repr

/-- A selection in progress: the pieces so far, the bytes they take, the queues passed over. -/
structure Fill where
  pieces : List Piece
  used : Nat
  passed : List Nat
  deriving DecidableEq, Repr

/-- Free space of a window. -/
def Window.free (w : Window) (f : Fill) : Nat := streamBytes w.grants.length w.n - f.used

/-- The IV of a parcel whose header starts at byte `o` of the burst data stream (R356). -/
def State.upIv (s : State) (w : Window) (o : Nat) (h : BitVec 128) : BitVec 96 :=
  let k := w.grants.length
  let j := 8 * o / 5140
  let g := w.grants.getD (j % k) ⟨0, 0, 0, 0, 0, 0, false, false, false, 0⟩
  let pos := 25 * g.start + s.train g + 64 + g.marker + 2736 * (1 + j / k) + 8 * o % 5140 / 2
  BitVec.ofNat 96 (w.tid % 2 ^ 10 * 2 ^ 86 + g.plane % 2 ^ 5 * 2 ^ 81 + g.frame % 2 ^ 44 * 2 ^ 37 + pos % 2 ^ 25 * 2 ^ 12 +
    phSeq h % 2 ^ 12)

/-- Place a parcel: its number taken, its header formed, its sealing requested. [DEDUCED, log entry 44] -/
def State.place (s : State) (w : Window) (f : Fill) (flow typ frag seq stampNs stampFrac : Nat) (data : List Byte)
    (p : Piece) : State × Fill :=
  let e := s.flow flow
  let h := parcelHdr flow data.length frag seq stampNs stampFrac (flowKeysel e) typ
  let (num, s) := s.ciphSubmit
    { num := 0, who := .burst ((w.grants.head?.map (·.plane)).getD 0), urgent := typ != 1, op := 0,
      slot := (flowKeySlot e + flowKeysel e) % 4096, iv := s.upIv w f.used h, aad := beBytes 16 h.toNat, text := data, tag := 0 }
  (s, { f with pieces := f.pieces ++ [{ p with hdr := h, bytes := data, req := some num }], used := f.used + parcelSize data.length })

/-- A piece that carries nothing yet. -/
def Piece.blank : Piece := ⟨0, [], none, none, none, none, none, false, false⟩

/-- The SEQ of a flow that is not tagged, or of its tag. [DEDUCED, log entry 44] -/
def State.seqOf (s : State) (flow : Nat) (tag : Option Nat) : Nat × State :=
  match flowTag (s.flow flow), tag with
  | true, some n => (n, s)
  | _, _ => s.takeSeq flow

/-- An upstream message as a parcel of flow 0 (R166, R174). The stamp of a message parcel is left open: a free value.
[DESIGN CHOICE, log entry 40] -/
def State.placeMsg (s : State) (w : Window) (f : Fill) (m : UpMsg) : State × Fill :=
  let s := { s with ubb := { s.ubb with msgs := s.ubb.msgs.filter (fun x => x.num != m.num) } }
  if !flowValid (s.flow 0) then (s.pdisp 1, f)
  else
    let (seq, s) := s.takeSeq 0
    let (v, s) := s.takeFree
    s.place w f 0 3 0 seq (v.toNat / 2 ^ 14) v.toNat (beBytes 8 m.env.toNat ++ m.body) { Piece.blank with msg := some m, last := true }

/-- Messages in order while they fit. [DESIGN CHOICE, log entry 40] -/
def State.placeMsgs (s : State) (w : Window) (f : Fill) : List UpMsg → State × Fill
  | [] => (s, f)
  | m :: t =>
    if w.free f < parcelSize (8 + m.body.length) then (s, f)
    else
      let (s, f) := s.placeMsg w f m
      s.placeMsgs w f t

/-! ## Packets (R129 to R132, R282, R283, R139) -/

/-- The discard that an offered packet meets first, if any. -/
def State.offerDiscard (s : State) (w : Window) (p : Pkt) : Option Nat :=
  let e := s.flow p.flow
  let age := clampN 1 32 (s.fld R.ubbCfg F.ubbCfg_maxAge)
  if !flowValid e then some 1
  else if flowLeadOnly e && !s.isLead then some 3
  else if flowTag e && p.seq.isNone then some 4
  else if (age * 1000000 * 65536 : Nat) < w.time - p.stamp.time then some 2
  else none

/-- Parts of a packet in bursts no longer stand for it: the packet has ended otherwise (R139). [DEDUCED, log entry 167] -/
def State.unlinkPkt (s : State) (id : Nat) : State :=
  { s with ubb := { s.ubb with lastGone := s.ubb.lastGone.filter (· != id), builds := s.ubb.builds.map (fun b => { b with pieces := b.pieces.map (fun x =>
    if (x.pkt.map (·.id)) = some id then { x with pkt := none } else x) }) } }

/-- An offered packet is taken from its queue and discarded, without charge. -/
def State.offerDrop (s : State) (q : Nat) (p : Pkt) (code : Nat) : State :=
  (((((s.removePkt q p.id).settle q).unlinkPkt p.id).pdisp code).departDrop p)

/-- The bytes of the parcel header stamp of a packet. -/
def stampNsOf (t : Stamp) : Nat := t.sec * 1000000000 + t.ns

/-- Place the next part of a packet, `n` bytes of it. -/
def State.placePart (s : State) (w : Window) (f : Fill) (q : Nat) (x : QPkt) (n : Nat) : State × Fill :=
  let p := x.pkt
  let last := n == x.rest
  let frag := if x.sent = 0 then (if last then 0 else 1) else (if last then 3 else 2)
  let (seq, s) := s.seqOf p.flow p.seq
  let (s, f) := s.place w f p.flow 1 frag seq (stampNsOf p.stamp) (p.stamp.frac / 4) ((p.bytes.drop x.sent).take n)
    { Piece.blank with pkt := some p, last := last }
  let s := s.chargePath q n
  if last then ((s.removePkt q p.id).settle q, f)
  else
    let v := s.queue q
    (s.setQueue q { v with pkts := v.pkts.map (fun y => if y.pkt.id = p.id then { y with sent := y.sent + n } else y) }, f)

/-- MIN_FRAG as it is treated. -/
def State.minFrag (s : State) : Nat := max 8 (s.fld R.ubbCfg F.ubbCfg_minFrag)

/-- One offered packet: discarded, placed whole, split, or its queue passed over. -/
def State.offer (s : State) (w : Window) (f : Fill) (q : Nat) (x : QPkt) : State × Fill :=
  let e := s.flow x.pkt.flow
  match s.offerDiscard w x.pkt with
  | some c => (s.offerDrop q x.pkt c, f)
  | none =>
    let room := w.free f
    if parcelSize x.rest ≤ room ∧ x.rest ≤ 16383 then s.placePart w f q x x.rest
    else if flowFragOk e && !flowTag e && decide (32 + s.minFrag ≤ room) then
      s.placePart w f q x (min (min (room - 32) 16383) x.rest)
    else (s, { f with passed := q :: f.passed })

/-- The queues eligible for a window (R282). -/
def State.windowQueues (s : State) (w : Window) (twin : Bool) (f : Fill) : List Nat :=
  s.attachedQueues.filter (fun q => qUp q && !f.passed.contains q && (s.node q).twinQ == twin && !s.heldBy q &&
    (s.head q).isSome &&
    w.grants.all (fun g => bitOf (s.reg (R.ubbPlaneGroups g.plane)).toNat (s.queue q).rgroup))

/-- Packets are offered one at a time until no eligible queue remains. -/
def State.offerAll (s : State) (w : Window) (twin : Bool) : Nat → Fill → State × Fill
  | 0, f => (s, f)
  | fuel + 1, f =>
    match s.pickBelow upRoot (s.windowQueues w twin f) with
    | none => (s, f)
    | some (q, s) =>
      match s.head q with
      | none => (s, f)
      | some x =>
        let (s, f) := s.offer w f q x
        s.offerAll w twin fuel f

/-- A bound on the offers of one window. -/
def State.offerFuel (s : State) : Nat := s.qm.queues.foldl (fun n e => n + e.2.pkts.length + 1) 1

/-- While the terminal is not lead, packets of LEAD_ONLY flows, or of no flow, at the heads of TWIN_Q queues are discarded, NO_FLOW before
NOT_LEAD (R132, R139, R283). -/
def State.dropNotLead (s : State) : Nat → State
  | 0 => s
  | fuel + 1 =>
    if s.isLead then s
    else
      match s.attachedQueues.find? (fun q => qUp q && (s.node q).twinQ &&
          (match s.head q with | some x => !flowValid (s.flow x.pkt.flow) || flowLeadOnly (s.flow x.pkt.flow) | none => false)) with
      | none => s
      | some q =>
        match s.head q with
        | none => s
        | some x => (s.offerDrop q x.pkt (if flowValid (s.flow x.pkt.flow) then 3 else 1)).dropNotLead fuel

/-- The heads that the scheduler presents while the terminal is not lead, to a UBB that works. -/
def State.presentNotLead (s : State) : State := if s.ubbDown || !s.domOn 9 then s else s.dropNotLead s.offerFuel

/-! ## Containers (R133, R330, R333, R334) -/

/-- The 2,360 bytes of a container. -/
def Container.bytes (c : Container) : List Byte :=
  let hdr := beBytes 8 (c.frame % 2 ^ 32 * 2 ^ 32 + c.ptr % 2 ^ 10 * 2 ^ 22 + c.just % 4 * 2 ^ 20 + b2n c.ais * 2 ^ 19)
  let njo := if c.just = 2 then c.data.take 3 else zeroBytes 3
  let area := if c.just = 2 then c.data.drop 3 else if c.just = 1 then zeroBytes 3 ++ c.data else c.data
  if c.ais then hdr ++ List.replicate 2352 0xFF else hdr ++ njo ++ takePad 2349 area

/-- Count an event of CIRC (R352). -/
def State.circCount (s : State) (c : Nat) (n : Nat := 1) : State :=
  let s := s.count (R.circCount c) F.circCount_count n
  if c = 0 ∨ c = 2 then s.pmcEvent 0x96 1 n
  else if c = 12 then s.pmcEvent 0x96 3 n
  else if c = 1 ∨ c = 3 ∨ c = 5 ∨ c = 6 ∨ c = 7 then s.pmcEvent 0x96 2 n
  else s

/-- UP_FLOW of a circuit (R350). -/
def Circuit.upFlow (c : Circuit) : Nat := bitsOf c.entry.toNat 56 37

/-- Containers queued for a plane and frame, in order while they fit. One whose flow entry is not valid is CONT_UNSENT.
[DESIGN CHOICE, log entry 40] -/
def State.placeConts (s : State) (w : Window) (f : Fill) : List Container → State × Fill
  | [] => (s, f)
  | c :: t =>
    let flow := c.flow
    let gone := { s with circ := { s.circ with queue := s.circ.queue.filter (fun x => x != c) } }
    if !flowValid (s.flow flow) then (gone.circCount 1).placeConts w f t
    else if w.free f < parcelSize 2360 then (s, f)
    else
      let (seq, s) := gone.takeSeq flow
      let (v, s) := s.takeFree
      let (s, f) := s.place w f flow 2 0 seq (v.toNat / 2 ^ 14) v.toNat c.bytes { Piece.blank with cont := some c, last := true }
      s.placeConts w f t

/-! ## Idle fill (R124) -/

/-- An idle parcel of `n` bytes of payload. [DEDUCED, log entry 39] -/
def idlePiece (n : Nat) : Piece :=
  { Piece.blank with hdr := parcelHdr 0 n 0 0 0 0 0 0, bytes := (List.range n).map Config.idleByte, last := true }

/-- The words of the idle parcel that comes first in `w` remaining words. [DEDUCED, log entry 39] -/
def idleWords (w : Nat) : Nat := if w ≤ 2050 then w else if w - 2050 = 1 then 2049 else 2050

/-- Idle parcels for `w` remaining words. [DEDUCED, log entry 39] -/
def idleFill : Nat → Nat → List Piece
  | 0, _ => []
  | fuel + 1, w => if w < 2 then [] else idlePiece (min 16383 (8 * idleWords w - 16)) :: idleFill fuel (w - idleWords w)

/-! ## Selection by kind (R115, R172) -/

/-- The content of a window. -/
def State.selectContent (s : State) (w : Window) (g : Grant) : State × Fill :=
  let f : Fill := ⟨[], 0, []⟩
  match g.kind with
  | 0 =>
    let (s, f) := s.placeMsgs w f (s.ubb.msgs.filter (fun m => !m.pair && !m.enrol))
    s.offerAll w false s.offerFuel f
  | 2 =>
    match s.ubb.msgs.find? (·.enrol) with
    | some m => { s with enrol := { s.enrol with taken := some g.frame } }.placeMsgs { w with n := 1 } f [m]
    | none => (s, f)
  | 4 => s.placeConts w f (s.circ.queue.filter (fun c => some c.plane == w.grants.head?.map (·.plane) && c.frame == g.frame))
  | 5 =>
    let (s, f) := s.placeMsgs w f (s.ubb.msgs.filter (fun m => m.pair))
    s.offerAll w true s.offerFuel f
  | _ => (s, f)

/-- The smallest N that carries `n` bytes on `k` planes (R121). -/
def slotsFor (k n : Nat) : Nat :=
  if n = 0 then 0 else
    let m := (8 * n + (5140 * k - 1)) / (5140 * k)
    if streamBytes k m < n then m + 1 else m

/-! ## The report (R123) -/

/-- The count of report group `g`. -/
def State.reportCount (s : State) (g : Nat) : Nat :=
  let n := (s.qm.queues.filter (fun e => qUp e.1 && e.2.rgroup == g)).foldl (fun n e => n + e.2.occBytes) 0
  min ((n + 255) / 256) 0xFFFFFF

/-- Whether a report is due in a bond (R115). -/
def State.reportDue (s : State) (gs : List Grant) : Bool :=
  s.bit R.ubbCfg F.ubbCfg_reportAlways || gs.any (fun g => g.report || g.kind == 1)

/-! ## What becomes of content that is not sent (R136, R137) -/

/-- A part of a packet that has ended, in a burst: an uncommitted one sends idle parcels of the same size in its place (R136), a
committed one the part itself, for nothing. [DEDUCED, log entry 167] -/
def Build.dropPart (b : Build) (id : Nat) : Build :=
  { b with pieces := b.pieces.flatMap (fun x =>
      if (x.pkt.map (·.id)) ≠ some id then [x]
      else if b.committed then [{ x with pkt := none, dead := true }]
      else idleFill 4 (parcelSize x.bytes.length / 8)) }

/-- The cipher requests of the parts of a packet in bursts not yet committed. -/
def State.partReqs (s : State) (id : Nat) : List Nat :=
  s.ubb.builds.flatMap (fun b => if b.committed then [] else b.pieces.filterMap (fun x => if (x.pkt.map (·.id)) = some id then x.req else none))

/-- The rest of a partly sent packet is discarded: it leaves its queue, which may empty, and its parts leave the bursts under build.
[DEDUCED, log entry 167] -/
def State.loseRest (s : State) (p : Pkt) : State :=
  let s := (s.partReqs p.id).foldl (fun s n => s.dropReq n) ((s.removePkt p.queue p.id).settle p.queue)
  { s with ubb := { s.ubb with lastGone := s.ubb.lastGone.filter (· != p.id), builds := s.ubb.builds.map (·.dropPart p.id) } }

/-- A packet of a burst ends with a disposition; FAULT is reported item by item. -/
def State.losePkt (s : State) (p : Pkt) (code : Nat) : State :=
  let s := ((s.loseRest p).pdisp code).departDrop p
  if code = 15 then s.report (Lost.packet s.ubbSource 2 (s.lostCode s.ubbSource) p) else s

/-- The content of a burst that is not sent or is cut. -/
def State.loseContent (s : State) (b : Build) (code : Nat) : State :=
  b.pieces.foldl (fun s x =>
    let s := match x.pkt with | some p => s.losePkt p code | none => s
    let s := match x.cont with | some _ => s.circCount (if code = 15 then 12 else 1) | none => s
    match x.msg with | some _ => s.pdisp code | none => s) s

/-- Remove a build. -/
def State.dropBuild (s : State) (b : Build) : State :=
  { s with ubb := { s.ubb with builds := s.ubb.builds.filter (fun x => x.grants != b.grants) } }

/-- Replace a build by its new form. -/
def State.putBuild (s : State) (b : Build) : State :=
  { s with ubb := { s.ubb with builds := s.ubb.builds.map (fun x => if x.grants = b.grants then b else x) } }

/-- A burst that ends FAULT is reported (KIND 3). [DEDUCED, log entry 38] -/
def State.burstLost (s : State) (g : Grant) (disp : Nat) : State :=
  let w := g.plane % 32 * 2 ^ 48 + g.frame % 2 ^ 48
  if disp = 15 then s.report ⟨s.ubbSource, 2, 3, 0, s.lostCode s.ubbSource, 1, w, w, 0, 0⟩ else s

/-- A burst ends unsent: each plane's disposition is counted and its content lost. [DEDUCED, log entry 38] -/
def State.failBuild (s : State) (b : Build) (disp : Grant → Nat) (code : Nat) : State :=
  let s := b.grants.foldl (fun s g =>
    (((s.bdisp (disp g)).bdefect g.plane (disp g)).burstLost g (disp g)).restPlane g.plane (b.line g.plane).leadAt) (s.dropBuild b)
  let s := b.pieces.foldl (fun s x => match x.req with | some n => s.dropReq n | none => s) s
  s.loseContent b code

/-- The burst in progress on plane `p` stops with a disposition (CUT, or ABANDONED with the transmit PLL): MBEN falls, the
content is lost once. -/
def State.cutPlane (s : State) (p : Nat) (code : Nat := 10) : State :=
  match s.ubb.builds.find? (fun b => b.launched && b.grants.any (fun g => g.plane == p)) with
  | none => s
  | some b =>
    let gs := b.grants.filter (fun g => g.plane != p)
    let s := ((s.stopPlane p).bdisp code).pmcEvent (0x10 + p) 2
    let s := if gs = [] then s.dropBuild b
      else { s with ubb := { s.ubb with builds := s.ubb.builds.map (fun x => if x.grants = b.grants then { b with grants := gs, cut := true, pieces := [] } else x) } }
    if b.cut then s else s.loseContent b 6

/-- Everything that plane `p` sends stops: a burst in progress, a lead, a lag, the fill of a gap; MBEN is inactive (R50, R51).
[DEDUCED, log entry 23] -/
def State.haltPlane (s : State) (p : Nat) (code : Nat := 10) : State := (s.cutPlane p code).stopPlane p

/-- Every burst in progress is cut and every MBEN inactive. -/
def State.cutAll (s : State) : State := (List.range 24).foldl (fun s p => s.haltPlane p) s

/-- Every entry and burst not yet launched of plane `p` ends ABANDONED, as when the line position stops (R114). -/
def State.abandonEntries (s : State) : State :=
  let s := (List.range 24).foldl (fun s p => (s.uplane p).entries.foldl (fun s g => s.endEntry g 8) s) s
  (s.ubb.builds.filter (fun b => !b.launched)).foldl (fun s b => s.failBuild b (fun _ => 8) 6) s

end Sys2Proof.Machine
end

