-- ==== Sys2Proof/Machine/DfpTake.lean ====
section
/-!
DEFINITION. What the DFP takes out of a frame data stream (R68): the grant area (R84, R85), the message area (R86, R87), and the parcel
area (R91 to R97).
-/

namespace Sys2Proof.Machine

/-! ## The frame data stream (R68) -/

/-- Codeword slots of a frame at plane `p`'s rate. -/
def State.slotsPerFrame (s : State) (p : Nat) : Nat := if s.genOne p then 2427 else 9708

/-- Whether slot `i` of the frame in progress is marked uncorrectable, or lies behind the point of abandon (R55). -/
def DfpPlane.bad (d : DfpPlane) (i : Nat) : Bool :=
  d.marks.contains i || (match d.cut with | some c => decide (c ≤ i) | none => false)

/-- Whether some slot that holds bits `a` to `b` of the stream is marked. -/
def DfpPlane.badBits (d : DfpPlane) (a b : Nat) : Bool :=
  (List.range (b / 5140 + 1 - a / 5140)).any (fun i => d.bad (a / 5140 + i))

/-- Whether every slot up to bit `b` has been received, or will not be. -/
def DfpPlane.has (d : DfpPlane) (b : Nat) : Bool := decide (b / 5140 < d.slots) || d.cut.isSome

/-- `n` bits of the stream from bit `a` on. -/
def DfpPlane.bits (d : DfpPlane) (a n : Nat) : List Bool := (d.stream.drop a).take n

/-- A word of `n` bits of the stream, whose highest-numbered bit is sent first. -/
def DfpPlane.word (d : DfpPlane) (a n : Nat) : Nat := natOfBits (d.bits a n)

/-- `n` bytes of the stream from bit `a` on. -/
def DfpPlane.bytes (d : DfpPlane) (a n : Nat) : List Byte := (List.range n).map (fun i => BitVec.ofNat 8 (d.word (a + 8 * i) 8))

/-- The frame header (R69). -/
def DfpPlane.header (d : DfpPlane) : BitVec 256 := BitVec.ofNat 256 (d.word 0 256)

/-! ## Frame headers (R69 to R71, R80, R81) -/

def fhFrame (h : BitVec 256) : Nat := bitsOf h.toNat 255 208
def fhPlane (h : BitVec 256) : Nat := bitsOf h.toNat 207 203
def fhGen (h : BitVec 256) : Nat := bitsOf h.toNat 202 200
def fhPalm (h : BitVec 256) : Bool := bitOf h.toNat 199
def fhHdrLen (h : BitVec 256) : Nat := bitsOf h.toNat 191 182
def fhGrants (h : BitVec 256) : Nat := bitsOf h.toNat 181 171
def fhMsgs (h : BitVec 256) : Nat := bitsOf h.toNat 170 159
def fhCrc (h : BitVec 256) : Nat := bitsOf h.toNat 31 0

/-! ## Grants (R84, R85) -/

/-- Cells of a frame on plane `p`. -/
def State.cellsPerFrame (s : State) (p : Nat) : Nat := if s.genOne p then 265625 else 1062500

/-- MAX_GRANTS as it is treated (R107). -/
def State.maxGrants (s : State) : Nat := clampN 1 64 (s.fld R.dfpCfg F.dfpCfg_maxGrants)

/-- A grant entry of this terminal, as R73 lays it out. -/
def grantOf (e : BitVec 64) (p f now : Nat) : Grant :=
  let w := e.toNat
  ⟨p, f, bitsOf w 53 33, bitsOf w 32 12, bitsOf w 11 9, bitsOf w 8 5, bitOf w 4, bitOf w 3, bitOf w 2, now⟩

/-- Whether an entry of its own meets R85 after those accepted. -/
def State.grantOk (s : State) (p : Nat) (got : List Grant) (g : Grant) : Bool :=
  decide (g.kind ≤ 5) && decide (1 ≤ g.length) && decide (g.start + g.length ≤ s.cellsPerFrame p) &&
    got.all (fun x => decide (g.start + g.length ≤ x.start) || decide (x.start + x.length ≤ g.start)) &&
    decide (got.length < s.maxGrants)

/-- One entry of a valid area. -/
def State.grantEntry (s : State) (p : Nat) (e : BitVec 64) : State :=
  if bitsOf e.toNat 63 54 ≠ s.fld R.dfpIdent F.dfpIdent_tid then s
  else
    let d := s.dplane p
    let g := grantOf e p (d.frame + 4) (s.time.frame * frameSymbols + s.time.sym)
    if !s.grantOk p d.grants g then s.count (R.dfpGrantsDisc p) F.dfpGrantsDisc_count
    else
      let s := (s.setDplane p { d with grants := d.grants ++ [g] }).count (R.dfpGrantsAcc p) F.dfpGrantsAcc_count
      if !s.lpValid then s.bdisp 8
      else
        let u := s.uplane p
        { s.setUplane p { u with entries := u.entries ++ [g] } with ward := { s.ward with entries := s.ward.entries ++ [g] } }

/-- The entries of a grant area of `n` entries (R72). -/
def DfpPlane.entries (d : DfpPlane) (n : Nat) : List (BitVec 64) := (List.range n).map (fun k => BitVec.ofNat 64 (d.word (256 + 64 * k) 64))

/-- The grant area of the frame in progress (R72, R84). -/
def State.grantArea (s : State) (p : Nat) : State :=
  let d := s.dplane p
  let n := d.grantCount
  let last := 319 + 64 * n
  if d.grantsDone || !d.taking || !d.has last then s
  else
    let s := s.setDplane p { d with grantsDone := true }
    if d.badBits 0 last || crc32 (d.bits 256 (64 * n)) != d.word (256 + 64 * n) 32 then
      (s.count (R.dfpGrantsDisc p) F.dfpGrantsDisc_areas).latch (R.dfpPlaneDefect p) F.dfpPlaneDefect_grantCrc
    else (d.entries n).foldl (fun s e => s.grantEntry p e) s

/-! ## Messages of the header region (R86, R87) -/

/-- The bits a message takes. -/
def msgBits (len : Nat) : Nat := 64 + 8 * roundUp len 8

/-- Parsing stops: everything left is lost. -/
def State.msgStop (s : State) (p : Nat) : State :=
  let d := s.dplane p
  (s.setDplane p { d with msgLeft := 0 }).count (R.dfpMsgDisc p) F.dfpMsgDisc_count d.msgLeft

/-- Deliver to the time unit, the ward or HINGE. [DESIGN CHOICE, log entry 30] -/
def State.deliver (s : State) (m : Msg) : State := { s with dfp := { s.dfp with inbox := s.dfp.inbox ++ [m] } }

/-- Count a routed message. -/
def State.msgRouted (s : State) (p : Nat) : State := s.count (R.dfpMsgRx p) F.dfpMsgRx_count

/-- Whether DFP.MSG_ACCEPT accepts a type. -/
def State.msgAccept (s : State) (t : Nat) : Bool := bitOf (s.reg (R.dfpMsgAccept (t / 64))).toNat (t % 64)

/-- A message addressed to this terminal is routed by its type (R87). [DESIGN CHOICE, log entry 30; DEDUCED, log entry 31] -/
def State.routeMsg (s : State) (m : Msg) : State :=
  let p := m.plane
  let t := msgType m
  if t = 0x01 then
    if m.body.length < 24 then s.count (R.dfpMsgDisc p) F.dfpMsgDisc_count else (s.deliver m).msgRouted p
  else if t = 0x0B ∨ t = 0x0C ∨ t = 0x0D ∨ t = 0x0E then
    let short := decide (m.body.length < (if t = 0x0E then 8 else 16))
    let (s, ok) := (if short then s else s.deliver m).msgEnqueue m
    if short && !ok then s else s.msgRouted p
  else if s.msgAccept t then
    let (s, ok) := s.msgEnqueue m
    if ok then s.msgRouted p else s
  else s.count (R.dfpMsgUnknown p) F.dfpMsgUnknown_count

/-- The stamp of a message: the first symbol of its last slot (R209). -/
def State.msgStamp (s : State) (p slot : Nat) : Stamp :=
  let n : Int := (s.symScale p * (256 + 2736 * slot) : Nat)
  stampOf (if s.bit R.timeStatus F.timeStatus_mtValid then s.timeAt ((s.dplane p).delimSym + n - (s.time.frame * frameSymbols : Nat))
    else symbolTime ((s.dplane p).delimAt + n)) (0x100 + p)

/-- The next message of the area is parsed. [DEDUCED, log entry 126] -/
def State.messageRx (s : State) (p : Nat) : State :=
  let d := s.dplane p
  let env := BitVec.ofNat 64 (d.word d.msgPos 64)
  let len := bitsOf env.toNat 45 34
  let last := d.msgPos + msgBits len - 1
  let region := 5140 * d.hdrLen
  if !d.taking || d.msgLeft == 0 then s
  else if region < d.msgPos + 64 then (s.latch (R.dfpPlaneDefect p) F.dfpPlaneDefect_msgOverrun).msgStop p
  else if !d.has (d.msgPos + 63) then s
  else if d.badBits d.msgPos (d.msgPos + 63) then s.msgStop p
  else if region ≤ last then (s.latch (R.dfpPlaneDefect p) F.dfpPlaneDefect_msgOverrun).msgStop p
  else if !d.has last then s
  else if d.badBits d.msgPos last || crc16 (d.bits d.msgPos 48 ++ d.bits (d.msgPos + 64) (8 * roundUp len 8)) != bitsOf env.toNat 15 0 then
    s.msgStop p
  else
    let stamp := s.msgStamp p (last / 5140)
    let s := s.setDplane p { d with msgLeft := d.msgLeft - 1, msgPos := last + 1 }
    let dest := bitsOf env.toNat 63 54
    if dest = s.fld R.dfpIdent F.dfpIdent_tid ∨ dest = 0x3FF then
      s.routeMsg ⟨env, d.bytes (d.msgPos + 64) len, p, d.frame, stamp, false⟩
    else s

/-! ## Parcels (R91 to R98) -/

/-- The end of the parcel area. -/
def State.areaEnd (s : State) (p : Nat) : Nat := 5140 * s.slotsPerFrame p

/-- Move on in the parcel area, counting the bits passed over. -/
def State.passOver (s : State) (p to_ : Nat) : State :=
  let d := s.dplane p
  let s := s.count (R.dfpHuntBits p) F.dfpHuntBits_count (to_ - d.pos)
  s.setDplane p { d with pos := to_, hunting := true, ignoring := decide (s.areaEnd p < to_ + 128) }

/-- The position of the next header is lost: the hunt begins at `from_`, or the rest of the area is ignored. -/
def State.beginHunt (s : State) (p from_ : Nat) : State :=
  if s.bit R.dfpCfg F.dfpCfg_huntEn then s.passOver p (min from_ (s.areaEnd p))
  else
    let d := s.dplane p
    (s.count (R.dfpHuntBits p) F.dfpHuntBits_count (s.areaEnd p - d.pos)).setDplane p { d with ignoring := true }

/-- The first grid point at or after the end of the last marked slot that holds bits of a header at `pos`. -/
def DfpPlane.afterMarks (d : DfpPlane) : Nat :=
  let slot := if d.bad ((d.pos + 127) / 5140) then (d.pos + 127) / 5140 else d.pos / 5140
  let start := 5140 * d.hdrLen
  start + roundUp (5140 * (slot + 1) - start) 64

/-- The stamp of a parcel (R92). -/
def State.parcelStamp (s : State) (p : Nat) (h : BitVec 128) : Stamp :=
  let d := s.dplane p
  if s.bit R.timeStatus F.timeStatus_mtValid then
    let t := s.timeAt (((d.frame : Int) - s.time.frame) * 26562500) / 65536
    let lo := t - 33554432
    let n := lo + ((phStampNs h : Int) - lo) % 67108864
    stampOf (n * 65536 + (phStampFrac h * 4 : Nat)) (0x100 + p)
  else stampOf (symbolTime d.delimAt) (0x100 + p)

/-- The IV of a downstream parcel whose header starts at bit `pos` of the frame data stream (R356). -/
def downIv (p frame hdrLen pos : Nat) (h : BitVec 128) : BitVec 96 :=
  BitVec.ofNat 96 (0x3FF * 2 ^ 86 + p % 32 * 2 ^ 81 + frame % 2 ^ 44 * 2 ^ 37 + (pos - 5140 * hdrLen) / 64 % 2 ^ 25 * 2 ^ 12 +
    phSeq h % 2 ^ 12)

/-- An owned parcel is submitted for decryption (R97). -/
def State.submitParcel (s : State) (p pos : Nat) (h : BitVec 128) (own : BitVec 32) (payload : List Byte) (tag : BitVec 128) : State :=
  let d := s.dplane p
  let typ := phType h
  let (n, s) := s.ciphSubmit { num := 0, who := .down p, urgent := typ == 2 || typ == 3, op := 1
                               slot := (bitsOf own.toNat 23 12 + phKeysel h) % 4096, iv := downIv p d.frame d.hdrLen pos h
                               aad := beBytes 16 h.toNat, text := takePad (phLength h) payload, tag := tag }
  { s with dfp := { s.dfp with opening := s.dfp.opening ++ [⟨p, h, own, d.frame, s.parcelStamp p h, n, d.circLost⟩] } }

/-- A header that passes HCRC16 and whose parcel begins at `pos` (R93, R96, R105). -/
def State.parcelRead (s : State) (p : Nat) (h : BitVec 128) (payload : List Byte) (tag : BitVec 128) : State :=
  let d := s.dplane p
  let next := d.pos + 8 * phExtent h
  let s := s.pmcEvent 0xF0 1
  let s := if phType h = 0 then s
    else (s.count (R.dfpParcels p) F.dfpParcels_count).count (R.dfpParcelBytes p) F.dfpParcelBytes_count (phLength h)
  if s.areaEnd p < next then (s.disp 8).setDplane p { d with ignoring := true, hunting := false }
  else
    let s := s.setDplane p { d with pos := next, hunting := false, ignoring := decide (s.areaEnd p < next + 128) }
    if d.badBits d.pos (next - 1) then s.disp 3
    else if phType h = 0 then s.disp 14
    else if phLength h = 0 ∧ phType h ≤ 3 then s.disp 8
    else
      let own := s.own (phFlow h)
      if !s.bit R.dfpStatus F.dfpStatus_ownReady || !bitOf own.toNat 31 then s.disp 1
      else s.submitParcel p d.pos h own payload tag

/-- header_ok of R93: the header at bit `a` lies in unmarked slots and passes HCRC16. -/
def DfpPlane.headerOk (d : DfpPlane) (a : Nat) : Bool := !d.badBits a (a + 127) && phOk (BitVec.ofNat 128 (d.word a 128))

/-- The next header of the parcel area, or the next candidate of the hunt, once the bits that decide on it have been received. -/
def State.parcelRx (s : State) (p : Nat) : State :=
  let d := s.dplane p
  let h := BitVec.ofNat 128 (d.word d.pos 128)
  if !d.taking || d.ignoring || decide (s.areaEnd p < d.pos + 128) || !d.has (d.pos + 127) then s
  else if (match d.cut with | some c => decide (5140 * c < d.pos + 128) | none => false) then s.setDplane p { d with ignoring := true }
  else
    let next := d.pos + 8 * phExtent h
    let payload := d.bytes (d.pos + 128) (phLength h)
    let tag := BitVec.ofNat 128 (d.word (d.pos + 128 + 8 * phLength h) 128)
    if d.hunting then
      if !d.headerOk d.pos then s.passOver p (d.pos + 64)
      else if s.areaEnd p ≤ next + 127 then (if next ≤ s.areaEnd p && !d.has (next - 1) then s else s.parcelRead p h payload tag)
      else if !d.has (next + 127) then s
      else if d.headerOk next then s.parcelRead p h payload tag
      else s.passOver p (d.pos + 64)
    else if d.badBits d.pos (d.pos + 127) then s.beginHunt p d.afterMarks
    else if !phOk h then (s.disp 2).beginHunt p (d.pos + 64)
    else if next ≤ s.areaEnd p && !d.has (next - 1) then s
    else s.parcelRead p h payload tag

/-! ## The point of abandon (R55) -/

/-- Headers read until one changes nothing, at most `fuel` of them. -/
def State.drainParcels (s : State) (p : Nat) : Nat → State
  | 0 => s
  | fuel + 1 =>
    let d := s.dplane p
    if !d.taking || d.ignoring then s else (s.parcelRx p).drainParcels p fuel

/-- What an abandoned frame still yields: what was complete at the point of abandon is taken, a parcel whose header was read there ends
UNCORRECTABLE, grant entries and messages not complete are lost (R55, R84, R86); then nothing more is taken from it (R82).
[DEDUCED, log entry 166] -/
def State.drainFrame (s : State) (p : Nat) : State :=
  let s := s.grantArea p
  let s := (List.range (s.dplane p).msgLeft).foldl (fun s _ => s.messageRx p) s
  let s := s.drainParcels p ((s.dplane p).stream.length / 64 + 1)
  s.setDplane p { s.dplane p with taking := false, grantsDone := true, msgLeft := 0, ignoring := true }

end Sys2Proof.Machine
end

