-- ==== Sys2Proof/Machine/Align.lean ====
section
/-!
DEFINITION. The alignment of a plane and what hangs on it: the choice of the timing plane (R192, R195, R196), the time
status (R205), the entry into LOF (R82, R83, R101), the hunt's restart (R32) and the abandon of a frame (R55, R78).
-/

namespace Sys2Proof.Machine

/-! ## Time status (R204, R205) -/

/-- Set TIME.STATUS.CODE; a change raises event source 32 × 0x05 + 1 (R382). -/
def State.setCode (s : State) (c : Nat) : State :=
  if s.fld R.timeStatus F.timeStatus_code = c then s
  else (s.setFld R.timeStatus F.timeStatus_code c).edge (32 * 0x05 + 1)

/-! ## The timing plane (R192 to R196) -/

/-- Whether TIME.PLANE_RTDp.VALID is set. -/
def State.rtdValid (s : State) (p : Nat) : Bool := s.bit (R.timePlaneRtd p) F.timePlaneRtd_valid

/-- The planes that are aligned. -/
def State.alignedPlanes (s : State) : List Nat := planesWhere s.aligned

/-- The AUTO choice: the lowest aligned plane with VALID = 1, else the lowest aligned plane. -/
def State.autoChoice (s : State) : Option Nat :=
  match s.alignedPlanes.filter s.rtdValid with
  | p :: _ => some p
  | [] => s.alignedPlanes.head?

/-- The current timing plane. -/
def State.timingPlane (s : State) : Option Nat :=
  if s.bit R.timeRefStatus F.timeRefStatus_none then none
  else some (s.fld R.timeRefStatus F.timeRefStatus_plane)

/-- The AUTO choice as it is re-made: the current plane stays while it is aligned, unless it has VALID = 0 and another
aligned plane has VALID = 1. -/
def State.autoKeep (s : State) : Option Nat :=
  match s.timingPlane with
  | some c => if s.aligned c && (s.rtdValid c || (s.alignedPlanes.filter s.rtdValid).isEmpty) then some c else s.autoChoice
  | none => s.autoChoice

/-- The timing plane that R192 names now; `boundary` at LP(F, 0, 0), where a fixed plane that was not aligned is taken back. -/
def State.timingWanted (s : State) (boundary : Bool) : Option Nat :=
  if s.bit R.timeRefCfg F.timeRefCfg_mode then
    let p := s.fld R.timeRefCfg F.timeRefCfg_plane
    if s.aligned p then
      match s.timingPlane with
      | some c => if boundary ∨ ¬ s.aligned c ∨ s.bit R.timeRefStatus F.timeRefStatus_fallback = false then some p else some c
      | none => some p
    else s.autoKeep
  else s.autoKeep

/-- Make `p` the timing plane: the line position does not step, the plane's offset becomes the build-out (R195). -/
def State.switchTiming (s : State) (p : Nat) : State :=
  let s := s.setFld R.timeRefStatus F.timeRefStatus_buildOut (s.fld (R.dfpPlaneOffset p) F.dfpPlaneOffset_offset)
  let s := s.setFld R.timeRefStatus F.timeRefStatus_plane p
  let s := s.setBit R.timeRefStatus F.timeRefStatus_none false
  s.count R.timeRefStatus F.timeRefStatus_switches

/-- Re-choose the timing plane, and keep FALLBACK, FLYWHEEL and the status in step (R192, R195, R196, R205). -/
def State.retime (s : State) (boundary : Bool) : State :=
  if !s.lpValid then s
  else
    let fixed := s.bit R.timeRefCfg F.timeRefCfg_mode
    let s' := match s.timingWanted boundary with
      | some p =>
        let s1 := if s.timingPlane = some p then s else s.switchTiming p
        let s2 := s1.setBit R.timeStatus F.timeStatus_flywheel false
        let s3 := if s2.fld R.timeStatus F.timeStatus_code = 4 then s2.setCode 3 else s2
        let s4 := { s3 with time := { s3.time with fly := none } }
        s4.setBit R.timeRefStatus F.timeRefStatus_fallback (fixed && p != s.fld R.timeRefCfg F.timeRefCfg_plane)
      | none =>
        let s1 := (s.setBit R.timeRefStatus F.timeRefStatus_none true).setBit R.timeStatus F.timeStatus_flywheel true
        let c := s1.fld R.timeStatus F.timeStatus_code
        let s2 := if c = 2 ∨ c = 3 then s1.setCode 4 else s1
        s2.setBit R.timeRefStatus F.timeRefStatus_fallback fixed
    s'

/-! ## The hunt (R32) -/

/-- Whether GEN_MODE selects the hunt (3 is treated as 2). -/
def State.huntMode (s : State) (p : Nat) : Bool := decide (2 ≤ s.fld (R.medLaneCfg p) F.medLaneCfg_genMode)

/-- Change the receive rate: the run of good windows restarts (R54), and the frame in progress is abandoned at this point (R55, R78).
[DEDUCED, log entry 24] -/
def State.setRate (s : State) (p rate : Nat) : State :=
  if s.fld (R.medLaneStatus p) F.medLaneStatus_rate = rate then s
  else
    let s := s.setFld (R.medLaneStatus p) F.medLaneStatus_rate rate
    let s := s.setLane p { s.lane p with good := 0, rateWin := true }
    let d := s.dplane p
    s.setDplane p { d with cut := some (d.cut.getD d.slots) }

/-- The rate at which a lane starts to receive: Gen-2 in a hunt, else the fixed rate; none while LANE_EN = 0. -/
def State.startRate (s : State) (p : Nat) : Nat :=
  if !s.bit (R.medLaneCfg p) F.medLaneCfg_laneEn then 0
  else if s.huntMode p then 2
  else if s.fld (R.medLaneCfg p) F.medLaneCfg_genMode = 0 then 2 else 1

/-- (Re)start the receive half: the hunt begins again at Gen-2, and while it lasts the transmit half is idle (R32).
[DEDUCED, log entry 24] -/
def State.huntRestart (s : State) (p : Nat) : State :=
  let s := s.setRate p (s.startRate p)
  let s := s.setLane p { s.lane p with dwellOver := false }
  let hunt := s.bit (R.medLaneCfg p) F.medLaneCfg_laneEn && s.huntMode p
  let s := s.setBit (R.medLaneStatus p) F.medLaneStatus_hunting hunt
  if hunt then s.haltPlane p 8 else s

/-! ## Leaving alignment (R55, R78, R82, R83) -/

/-- Alignment of plane `p` moves to SEARCH. From IN_FRAME the plane enters LOF: SD and its runs end, the circuit engine is
told of the loss, running resequencing timers expire under FLUSH_ON_LOF, and the timing plane is re-chosen. From CONFIRM a hunt
whose dwell was extended moves to the other rate (R32). [DESIGN CHOICE, log entry 165; DEDUCED, log entry 166] -/
def State.toSearch (s : State) (p : Nat) : State :=
  if s.aligned p then
    let s := s.setFld (R.dfpPlaneStatus p) F.dfpPlaneStatus_align 0
    let s := s.setFld (R.dfpPlaneStatus p) F.dfpPlaneStatus_miss 0
    let s := s.setFld (R.dfpPlaneStatus p) F.dfpPlaneStatus_sd 0
    let f := (s.dplane p).frame
    let s := s.setDplane p { s.dplane p with circLost := true, sdSet := 0, sdClr := 0 }
    let s := { s with dfp := { s.dfp with opening := s.dfp.opening.map (fun (o : Opening) => if o.plane = p ∧ o.frame = f then { o with lost := true } else o) } }
    let s := s.latch (R.dfpPlaneDefect p) F.dfpPlaneDefect_lof
    let s := if s.bit R.dfpCfg F.dfpCfg_flushOnLof then s.rsqFlush else s
    let s := s.huntRestart p
    s.retime false
  else
    let confirm := s.fld (R.dfpPlaneStatus p) F.dfpPlaneStatus_align == 1
    let s := s.setFld (R.dfpPlaneStatus p) F.dfpPlaneStatus_align 0
    if confirm && (s.lane p).dwellOver && s.bit (R.medLaneStatus p) F.medLaneStatus_hunting then
      let s := s.setRate p (3 - s.fld (R.medLaneStatus p) F.medLaneStatus_rate)
      s.setLane p { s.lane p with dwellOver := false }
    else s

/-- The frame in progress is abandoned at this point (R55): slots from here on count as marked, and nothing more is taken from it.
[DEDUCED, log entry 166] -/
def State.abandonFrame (s : State) (p : Nat) : State :=
  let d := s.dplane p
  let s := s.setDplane p { d with cut := some (d.cut.getD d.slots) }
  (s.drainFrame p).toSearch p

end Sys2Proof.Machine
end

