-- ==== Sys2Proof/Machine/EnrolOps.lean ====
section
/-!
DEFINITION. What the base program keeps of the terminal and its planes (R156 to R186): the terminal and plane state machines, the
upstream messages it queues, and the judgement of a hub message (R580).
-/

namespace Sys2Proof.Machine

/-! ## States (R162 to R165, R188) -/

def State.under (s : State) : Nat := s.fld R.sysTermState F.sysTermState_under
def State.termState (s : State) : Nat := s.fld R.sysTermState F.sysTermState_state

/-- Whether the ward shows LOCKED. -/
def State.locked (s : State) : Bool := s.bit R.wardStatus F.wardStatus_locked

/-- Move the underlying state; the reported state follows by priority: STOPPED, LOCKED_OUT, the underlying one. -/
def State.setTerm (s : State) (u : Nat) : State :=
  (s.setFld R.sysTermState F.sysTermState_under u).setFld R.sysTermState F.sysTermState_state
    (if u = 8 then 8 else if s.locked then 7 else u)

def State.setPermit (s : State) (p v : Nat) : State := s.setFld (R.ubbPlaneCtl p) F.ubbPlaneCtl_permit v

/-- Both copies of a plane's EQD. -/
def State.setEqd (s : State) (p v : Nat) : State :=
  (s.setFld (R.ubbPlaneEqd p) F.ubbPlaneEqd_eqd v).setFld (R.wardPlaneEqd p) F.wardPlaneEqd_eqd v

/-- PERMIT NONE on every plane. -/
def State.permitNone (s : State) : State := (List.range 24).foldl (fun s p => s.setPermit p 0) s

/-- The actions of PLANE_RELEASE (R165), the plane's round trip no longer valid (R200). -/
def State.clearPlane (s : State) (p : Nat) : State :=
  let s := ((s.setPermit p 0).setEqd p 0).setReg (R.ubbPlaneGroups p) 0
  let s := s.setEplane p {}
  if s.rtdValid p then (s.setBit (R.timePlaneRtd p) F.timePlaneRtd_valid false).retime false else s

/-- T_RANGE has expired: an ASSIGNED plane returns to IN_FRAME, PERMIT NONE and both copies of its EQD 0 (R165). -/
def State.rangeOut (s : State) (p : Nat) : State :=
  let s := (((s.setPermit p 0).setEqd p 0).setEplane p {}).setPlaneState p 2
  if s.rtdValid p then (s.setBit (R.timePlaneRtd p) F.timePlaneRtd_valid false).retime false else s

/-- A plane falls to a state with the actions of PLANE_RELEASE. -/
def State.releaseTo (s : State) (p st : Nat) : State := (s.clearPlane p).setPlaneState p st

/-- The mask of the planes in a state. -/
def State.planesIn (s : State) (st : Nat) : Nat :=
  (List.range 24).foldl (fun m p => if s.planeState p = st then m + 2 ^ p else m) 0

def anyPlane (f : Nat → Bool) : Bool := (List.range 24).any f

/-- Whether the plane is marked unsupported (R81). -/
def State.unsup (s : State) (p : Nat) : Bool := s.bit (R.dfpPlaneStatus p) F.dfpPlaneStatus_unsup

/-! ## Upstream messages (R166, R169, R172, R429) -/

/-- An envelope with its MCRC (R74). -/
def envelope (dest typ : Nat) (body : List Byte) : BitVec 64 :=
  let e := dest % 2 ^ 10 * 2 ^ 54 + typ % 2 ^ 8 * 2 ^ 46 + body.length % 2 ^ 12 * 2 ^ 34
  BitVec.ofNat 64 (e + messageCrc e body)

/-- Place an entry in the upstream message queue of 64, unless it is full. [DEDUCED, log entry 50] -/
def State.upPost (s : State) (env : BitVec 64) (body : List Byte) (mark : Nat) : State × Bool :=
  if 64 ≤ s.ubb.msgs.length then (s, false)
  else
    let m : UpMsg := ⟨env, body, mark == 2, mark == 1, mark, s.ubb.msgNum⟩
    ({ s with ubb := { s.ubb with msgs := s.ubb.msgs ++ [m], msgNum := s.ubb.msgNum + 1 } }, true)

/-- The type of a queued message. -/
def UpMsg.typ (m : UpMsg) : Nat := bitsOf m.env.toNat 53 46

/-- A STATE_REPORT (R169). -/
def State.stateReport (s : State) : State :=
  let body := beBytes 16 (s.under % 16 * 2 ^ 124 + s.planesIn 4 * 2 ^ 96 + s.planesIn 3 * 2 ^ 72 + s.planesIn 2 * 2 ^ 48 +
    s.fld R.timeStatus F.timeStatus_code % 256 * 2 ^ 40 + s.fld R.sysMediumCounts F.sysMediumCounts_lateApply % 256 * 2 ^ 32)
  (s.upPost (envelope (s.fld R.dfpIdent F.dfpIdent_tid) 0x82 body) body 0).1

/-- An ANNOUNCE marked ENROL (R169, R180). [DEDUCED, log entry 48] -/
def State.announce (s : State) : State :=
  let cap := setBitsOf (s.fld R.sysCapability F.sysCapability_cap) 20 14 s.maxGrants
  let body := beBytes 24 ((s.reg R.sysSerial).toNat * 2 ^ 128 + cap % 2 ^ 32 * 2 ^ 96 +
    s.fld R.hingePair F.hingePair_pairId * 2 ^ 80 + s.role * 2 ^ 78 + s.planesIn 2 * 2 ^ 48 +
    s.fld R.sysTermState F.sysTermState_attempts * 2 ^ 40)
  (s.upPost (envelope 0x3FE 0x81 body) body 1).1

/-! ## The terminal state machine (R163) -/

/-- Enter LISTENING: T_ALIGN starts. -/
def State.toListening (s : State) : State :=
  { s.setTerm 1 with enrol := { s.enrol with tAlign := true, tEnrol := false, attempt := none, taken := none } }

/-- Leave ANNOUNCING for ALIGNED or LISTENING: PERMIT NONE everywhere, the queued ANNOUNCE withdrawn. -/
def State.leaveAnnouncing (s : State) : State :=
  let s := (s.permitNone).withdraw (·.enrol)
  { s with enrol := { s.enrol with tEnrol := false, attempt := none, taken := none } }

/-- RANGING with a plane aligned: OPERATING once a plane is ACTIVE, ALIGNED without an id once none is ASSIGNED or ACTIVE. -/
def State.rangingStep (s : State) : State :=
  if anyPlane (fun p => s.planeState p == 4) then (s.setTerm 5).stateReport
  else if anyPlane (fun p => s.planeState p == 3) then s
  else (s.writeTid 0x3FE).setTerm 2

/-- The transitions that follow from the planes' alignment and states: every one that holds, the prior state's after HOLDOVER too.
[DESIGN CHOICE, log entry 46] -/
def State.termStep (s : State) : State :=
  let anyAligned := anyPlane s.aligned
  match s.under with
  | 1 => if anyAligned then { s.setTerm 2 with enrol := { s.enrol with tAlign := false } } else s
  | 2 | 3 => if anyAligned then s else s.leaveAnnouncing.toListening
  | 4 =>
    if !anyAligned then
      { (s.count R.sysMediumCounts F.sysMediumCounts_holdovers).setTerm 6 with enrol := { s.enrol with prior := 4 } }
    else s.rangingStep
  | 5 =>
    if !anyAligned then
      { (s.count R.sysMediumCounts F.sysMediumCounts_holdovers).setTerm 6 with enrol := { s.enrol with prior := 5 } }
    else s
  | 6 =>
    if !anyAligned then s
    else if s.enrol.prior = 4 then (s.setTerm 4).rangingStep
    else s.setTerm s.enrol.prior
  | _ => s

/-- Whether plane `p` may carry enrolment windows. -/
def State.inEnrolPlanes (s : State) (p : Nat) : Bool := bitOf s.enrol.enrolPlanes p

/-- PERMIT and EQD of an IN_FRAME plane while ANNOUNCING (R164, R171). -/
def State.enrolPlane (s : State) (p : Nat) : State :=
  if s.planeState p = 2 then
    if s.inEnrolPlanes p then (s.setPermit p 1).setEqd p s.enrol.preEqd else s.setPermit p 0
  else s

/-- A plane that becomes aligned and supported leaves ACQUIRING (R165). -/
def State.planeUp (s : State) (p : Nat) : State :=
  if s.planeState p = 1 ∧ s.aligned p ∧ !s.unsup p then
    let s := s.setPlaneState p 2
    if s.under = 3 ∧ s.inEnrolPlanes p then (s.setPermit p 1).setEqd p s.enrol.preEqd else s
  else s

/-- A plane that is no longer aligned, or is unsupported (R165). -/
def State.planeDown (s : State) (p : Nat) : State :=
  let st := s.planeState p
  if st = 2 ∧ (!s.aligned p ∨ s.unsup p) then (s.setPermit p 0).setPlaneState p 1
  else if (st = 3 ∨ st = 4) ∧ s.unsup p then s.releaseTo p 1
  else s

/-- The terminal drops its id (R165, R184). -/
def State.dropId (s : State) : State :=
  (List.range 24).foldl (fun s p =>
    if s.planeState p = 3 ∨ s.planeState p = 4 then s.releaseTo p (if s.aligned p then 2 else 1) else s) (s.writeTid 0x3FE)

/-- Leave HOLDOVER for LISTENING (R186). -/
def State.holdExpired (s : State) : State :=
  let s := s.writeTid 0x3FE
  let s := (List.range 24).foldl (fun s p =>
    s.releaseTo p (if s.bit (R.medLaneCfg p) F.medLaneCfg_laneEn then 1 else 0)) s
  (s.count R.sysMediumCounts F.sysMediumCounts_holdExpired).toListening

/-- STOPPED: PERMIT NONE and both EQD copies 0 on every plane, no id (R163). -/
def State.stopTerm (s : State) (cause : Nat) : State :=
  let s := (List.range 24).foldl (fun s p => (s.setPermit p 0).setEqd p 0) s
  let s := ((s.writeTid 0x3FE).setFld R.sysTermState F.sysTermState_stopCause cause).setTerm 8
  { s with enrol := { s.enrol with tAlign := false, tEnrol := false, tHold := none, attempt := none, taken := none, startWaiting := false } }

/-! ## Enrolment (R170, R171, R174, R356) -/

/-- The flow entry of flow 0 (R174), its NEXT_SEQ kept. -/
def State.writeFlowZero (s : State) : State :=
  s.setFlow 0 (BitVec.ofNat 40 (2 ^ 39 + 4095 * 2 ^ 20 + flowSeq (s.flow 0)))

/-- A draw of SYS.RANDOM modulo 2^be: a free value. [DEDUCED, log entry 48] -/
def State.draw (s : State) (be : Nat) : Nat × State :=
  let (v, s) := s.takeFree
  (v.toNat % 2 ^ 32 % 2 ^ be, s)

/-- Begin an attempt whose first frame is `a`. [DEDUCED, log entry 48] -/
def State.beginAttempt (s : State) (a : Nat) : State :=
  let (r, s) := s.draw (s.fld R.sysTermState F.sysTermState_be)
  { s with enrol := { s.enrol with attempt := some (a, r), taken := none, answerNow := s.enrol.answer } }

/-- A base program reloaded after a restart of its cluster resumes from the recorded states (R156): in ANNOUNCING it withdraws a queued
ANNOUNCE and begins a new attempt at the recorded BE. [DESIGN CHOICE, log entry 46] -/
def State.baseResumes (s : State) : State :=
  if s.under = 3 then (s.withdraw (·.enrol)).beginAttempt (s.time.frame + 1) else s

/-- Enter ANNOUNCING (R171). -/
def State.toAnnouncing (s : State) : State :=
  let s := s.setTerm 3
  let s := (List.range 24).foldl (fun s p => s.enrolPlane p) s
  let s := (s.setFld R.sysTermState F.sysTermState_be s.enrol.beMin).setFld R.sysTermState F.sysTermState_attempts 0
  let (v, s) := s.takeFree
  let s := s.setFlow 0 (flowWithSeq (s.flow 0) (v.toNat % 65536))
  let s := { s with enrol := { s.enrol with tEnrol := true } }
  s.beginAttempt (s.time.frame + 1)

/-- The values of an ENROL_PARAMS as R170 treats them. -/
def State.keepEnrol (s : State) (m : Msg) : State :=
  let f := bodyField m.body 16
  let mx := min 12 (f 67 64)
  { s with enrol := { s.enrol with
      preEqd := f 127 96, enrolPlanes := f 95 72, beMax := mx, beMin := min (f 71 68) mx, answer := max 1 (f 63 56) } }

/-! ## The judgement of a message (R158, R159, R168, R580) -/

/-- The types that are applied at an application point (R158). -/
def msgApplies (m : Msg) : Bool := (decide (2 ≤ msgType m) && decide (msgType m ≤ 10)) || msgType m == 15

/-- Whether `m`, of type `t`, is the message whose turn it is: the first of the queue that is applied at an application point, and its
own point LP(M + 1, 531,250, 0) comes in the present frame, or has passed (R88, R158, R159). [DEDUCED, log entry 47] -/
def State.turnOf (s : State) (m : Msg) (t : Nat) : Bool :=
  msgType m == t && (s.dfp.msgq.find? msgApplies == some m) &&
    ((s.lpValid && s.time.frame == m.frame + 1) || decide (m.frame + 2 ≤ s.time.frame))

/-- Whether the application point has passed without the message being applied: LP(M + 2, 0, 0) has come (R159). -/
def State.lateFor (s : State) (m : Msg) : Bool := decide (m.frame + 2 ≤ s.time.frame)

/-- The first symbol of the application point's cell (R158). -/
abbrev applySymbol : Nat := 531250 * 25

/-- The line position reaches the application point of the present frame, unless it lies behind. [DEDUCED, log entry 47] -/
def State.toPoint (s : State) : State :=
  if s.time.sym < applySymbol then
    { s with time := { s.time with now := s.time.now + (applySymbol - s.time.sym), sym := applySymbol } }
  else s

/-- Take a message from the message slow-path queue. [DESIGN CHOICE, log entry 30] -/
def State.takeMsg (s : State) (m : Msg) : State := { s with dfp := { s.dfp with msgq := s.dfp.msgq.erase m } }

def State.badState (s : State) : State := s.count R.sysRejectCounts F.sysRejectCounts_badState
def State.badValue (s : State) : State := s.count R.sysRejectCounts F.sysRejectCounts_badValue
def State.countShort (s : State) : State := s.count R.sysRejectCounts F.sysRejectCounts_shortBody

/-- The judgement of a message of `n` body bytes (R580): `other` what befalls one that names another terminal, or that its step 3
ignores; `stopped` whether it is ignored while STOPPED; `okState` the terminal state's condition, `okValue` the fields' ranges, `okPlane`
the named plane's condition. [DEDUCED, log entry 47] -/
def State.verdict (s : State) (m : Msg) (n : Nat) (other : Option (State → State)) (stopped okState okValue okPlane : Bool)
    (apply : State → State) : State :=
  if m.body.length < n then s.countShort
  else match other with
  | some f => f s
  | none =>
    if stopped && s.termState == 8 then s
    else if !okState then s.badState
    else if !okValue then s.badValue
    else if !okPlane then s.badState
    else apply s

/-- A message of type `t` at its application point: taken from the queue and judged there, or counted in LATE_APPLY (R158, R159).
[DESIGN CHOICE, log entry 46; DEDUCED, log entry 47] -/
def State.judge (s : State) (m : Msg) (t n : Nat) (other : Option (State → State)) (stopped okState okValue okPlane : Bool)
    (apply : State → State) : State :=
  if !s.turnOf m t then s
  else if s.lateFor m then (s.takeMsg m).count R.sysMediumCounts F.sysMediumCounts_lateApply
  else (s.takeMsg m).toPoint.verdict m n other stopped okState okValue okPlane apply

/-- The greatest EQD (R170, R176). [DEDUCED, log entry 49] -/
def eqdMax : Nat := 42500000

/-- Write a plane's round trip (R200). -/
def State.setRtd (s : State) (p rtd : Nat) : State :=
  (s.setReg (R.timePlaneRtd p) (BitVec.ofNat 64 (2 ^ 63 + rtd % 2 ^ 32))).retime false

/-- The planes a mask names, ascending. -/
def planesOf (mask : Nat) : List Nat := (List.range 24).filter (fun p => bitOf mask p)

end Sys2Proof.Machine
end

