-- ==== Sys2Proof/Machine/LimIsa.lean ====
section
/-!
DEFINITION. The Limtin instruction set: the instructions, their 32-bit encodings (R409, R411) and the decoder, which answers
none where the word raises ILLEGAL (R410, R414).
-/

namespace Sys2Proof.Machine

/-- A Limtin instruction with its fields (R409). -/
inductive LimInstr where
  | add (rd ra rb : GReg)
  | sub (rd ra rb : GReg)
  | and (rd ra rb : GReg)
  | or (rd ra rb : GReg)
  | xor (rd ra rb : GReg)
  | shl (rd ra rb : GReg)
  | shr (rd ra rb : GReg)
  | sar (rd ra rb : GReg)
  | mul (rd ra rb : GReg)
  | mulhu (rd ra rb : GReg)
  | slt (rd ra rb : GReg)
  | sltu (rd ra rb : GReg)
  | seq (rd ra rb : GReg)
  | addi (rd ra : GReg) (imm : BitVec 14)
  | subi (rd ra : GReg) (imm : BitVec 14)
  | andi (rd ra : GReg) (imm : BitVec 14)
  | ori (rd ra : GReg) (imm : BitVec 14)
  | xori (rd ra : GReg) (imm : BitVec 14)
  | shli (rd ra : GReg) (amt : BitVec 6)
  | shri (rd ra : GReg) (amt : BitVec 6)
  | sari (rd ra : GReg) (amt : BitVec 6)
  | slti (rd ra : GReg) (imm : BitVec 14)
  | sltui (rd ra : GReg) (imm : BitVec 14)
  | seqi (rd ra : GReg) (imm : BitVec 14)
  | shori (rd ra : GReg) (imm : BitVec 14)
  | ext (rd ra : GReg) (lo len1 : BitVec 6)
  | exts (rd ra : GReg) (lo len1 : BitVec 6)
  | ins (rd ra : GReg) (lo len1 : BitVec 6)
  | ld (rd ra : GReg) (imm : BitVec 14)
  | lw (rd ra : GReg) (imm : BitVec 14)
  | lb (rd ra : GReg) (imm : BitVec 14)
  | st (rs ra : GReg) (imm : BitVec 14)
  | sw (rs ra : GReg) (imm : BitVec 14)
  | sb (rs ra : GReg) (imm : BitVec 14)
  | xadd (rd ra rb : GReg)
  | br (off : BitVec 20)
  | bz (ra : GReg) (off : BitVec 20)
  | bnz (ra : GReg) (off : BitVec 20)
  | bltz (ra : GReg) (off : BitVec 20)
  | bgez (ra : GReg) (off : BitVec 20)
  | call (off : BitVec 20)
  | jr (ra : GReg)
  | callr (ra : GReg)
  | ctlr (rd : GReg) (unit : BitVec 8) (word : BitVec 12)
  | ctlw (rs : GReg) (unit : BitVec 8) (word : BitVec 12)
  | ctlrx (rd ra : GReg)
  | ctlwx (rs ra : GReg)
  | emit (ra : GReg) (k : BitVec 10)
  | endClause
  | fence
  | trap (imm : BitVec 10)
  | arm (rd ra rb : GReg)
  | tcap (rd : GReg) (sel : BitVec 10)
  | emitx (ra rb : GReg)
  | acq (rd ra : GReg) (imm : BitVec 10)
  | rel (ra : GReg) (imm : BitVec 10)
  | lfix (ra : GReg) (imm : BitVec 10)
  | ptake (rd ra : GReg)
  | mtake (rd : GReg)
  | pnew (rd ra : GReg)
  | pld (rd ra rb : GReg) (imm : BitVec 10)
  | pst (rs ra rb : GReg) (imm : BitVec 10)
  | plen (rd ra rb : GReg)
  | pmeta (rd ra : GReg) (imm : BitVec 10)
  | psend (rd ra rb : GReg)
  | pfree (ra : GReg)
  | mpost (rd ra rb : GReg)
  | mdrop (rd ra : GReg)
  | creq (rd ra rb : GReg)
  deriving DecidableEq, Repr

/-- The registers whose values an instruction uses. -/
def LimInstr.reads : LimInstr → List GReg
  | .add _ a b | .sub _ a b | .and _ a b | .or _ a b | .xor _ a b | .shl _ a b | .shr _ a b | .sar _ a b | .mul _ a b
  | .mulhu _ a b | .slt _ a b | .sltu _ a b | .seq _ a b | .xadd _ a b | .arm _ a b | .emitx a b | .pld _ a b _ | .plen _ a b
  | .psend _ a b | .mpost _ a b | .creq _ a b => [a, b]
  | .addi _ a _ | .subi _ a _ | .andi _ a _ | .ori _ a _ | .xori _ a _ | .shli _ a _ | .shri _ a _ | .sari _ a _ | .slti _ a _
  | .sltui _ a _ | .seqi _ a _ | .shori _ a _ | .ext _ a _ _ | .exts _ a _ _ | .ld _ a _ | .lw _ a _ | .lb _ a _ | .bz a _
  | .bnz a _ | .bltz a _ | .bgez a _ | .jr a | .callr a | .ctlw a _ _ | .ctlrx _ a | .emit a _ | .acq _ a _ | .rel a _
  | .lfix a _ | .ptake _ a | .pnew _ a | .pmeta _ a _ | .pfree a | .mdrop _ a => [a]
  | .ins d a _ _ | .st d a _ | .sw d a _ | .sb d a _ | .ctlwx d a => [d, a]
  | .pst d a b _ => [d, a, b]
  | .endClause => [2]
  | .br _ | .call _ | .ctlr _ _ _ | .fence | .trap _ | .tcap _ _ | .mtake _ => []

/-- The register whose value a dependent instruction of the context waits for, and for how many cycles (R412, R421, R427). -/
def LimInstr.latency : LimInstr → Option (GReg × Nat)
  | .mul d _ _ | .mulhu d _ _ => some (d, 4)
  | .tcap d sel => if sel = 0 then some (d, 8) else none
  | .pmeta d _ _ => some (d, 8)
  | .pld d _ _ _ => some (d, 40)
  | _ => none

/-- A word of format A or E: opcode and fields [24:20], [19:15], [14:10], [9:0] (R409). -/
def wordE (op f1 f2 f3 f4 : Nat) : BitVec 32 := BitVec.ofNat 32 (op * 2 ^ 25 + f1 * 2 ^ 20 + f2 * 2 ^ 15 + f3 * 2 ^ 10 + f4)

/-- A word of format B (R409). -/
def wordB (op f1 f2 imm : Nat) : BitVec 32 := BitVec.ofNat 32 (op * 2 ^ 25 + f1 * 2 ^ 20 + f2 * 2 ^ 15 + imm)

/-- A word of format C or D: opcode, field [24:20] and 20 bits below (R409). -/
def wordC (op f1 low : Nat) : BitVec 32 := BitVec.ofNat 32 (op * 2 ^ 25 + f1 * 2 ^ 20 + low)

/-- The word of an instruction (R411). -/
def encodeLim : LimInstr → BitVec 32
  | .add rd ra rb => wordE 0x01 rd.toNat ra.toNat rb.toNat 0
  | .sub rd ra rb => wordE 0x02 rd.toNat ra.toNat rb.toNat 0
  | .and rd ra rb => wordE 0x03 rd.toNat ra.toNat rb.toNat 0
  | .or rd ra rb => wordE 0x04 rd.toNat ra.toNat rb.toNat 0
  | .xor rd ra rb => wordE 0x05 rd.toNat ra.toNat rb.toNat 0
  | .shl rd ra rb => wordE 0x06 rd.toNat ra.toNat rb.toNat 0
  | .shr rd ra rb => wordE 0x07 rd.toNat ra.toNat rb.toNat 0
  | .sar rd ra rb => wordE 0x08 rd.toNat ra.toNat rb.toNat 0
  | .mul rd ra rb => wordE 0x09 rd.toNat ra.toNat rb.toNat 0
  | .mulhu rd ra rb => wordE 0x0A rd.toNat ra.toNat rb.toNat 0
  | .slt rd ra rb => wordE 0x0B rd.toNat ra.toNat rb.toNat 0
  | .sltu rd ra rb => wordE 0x0C rd.toNat ra.toNat rb.toNat 0
  | .seq rd ra rb => wordE 0x0D rd.toNat ra.toNat rb.toNat 0
  | .addi rd ra imm => wordB 0x10 rd.toNat ra.toNat imm.toNat
  | .subi rd ra imm => wordB 0x11 rd.toNat ra.toNat imm.toNat
  | .andi rd ra imm => wordB 0x12 rd.toNat ra.toNat imm.toNat
  | .ori rd ra imm => wordB 0x13 rd.toNat ra.toNat imm.toNat
  | .xori rd ra imm => wordB 0x14 rd.toNat ra.toNat imm.toNat
  | .shli rd ra amt => wordB 0x15 rd.toNat ra.toNat amt.toNat
  | .shri rd ra amt => wordB 0x16 rd.toNat ra.toNat amt.toNat
  | .sari rd ra amt => wordB 0x17 rd.toNat ra.toNat amt.toNat
  | .slti rd ra imm => wordB 0x18 rd.toNat ra.toNat imm.toNat
  | .sltui rd ra imm => wordB 0x19 rd.toNat ra.toNat imm.toNat
  | .seqi rd ra imm => wordB 0x1A rd.toNat ra.toNat imm.toNat
  | .shori rd ra imm => wordB 0x1B rd.toNat ra.toNat imm.toNat
  | .ext rd ra lo len1 => wordB 0x1C rd.toNat ra.toNat (lo.toNat * 64 + len1.toNat)
  | .exts rd ra lo len1 => wordB 0x1D rd.toNat ra.toNat (lo.toNat * 64 + len1.toNat)
  | .ins rd ra lo len1 => wordB 0x1E rd.toNat ra.toNat (lo.toNat * 64 + len1.toNat)
  | .ld rd ra imm => wordB 0x20 rd.toNat ra.toNat imm.toNat
  | .lw rd ra imm => wordB 0x21 rd.toNat ra.toNat imm.toNat
  | .lb rd ra imm => wordB 0x22 rd.toNat ra.toNat imm.toNat
  | .st rs ra imm => wordB 0x23 rs.toNat ra.toNat imm.toNat
  | .sw rs ra imm => wordB 0x24 rs.toNat ra.toNat imm.toNat
  | .sb rs ra imm => wordB 0x25 rs.toNat ra.toNat imm.toNat
  | .xadd rd ra rb => wordE 0x26 rd.toNat ra.toNat rb.toNat 0
  | .br off => wordC 0x28 0 off.toNat
  | .bz ra off => wordC 0x29 ra.toNat off.toNat
  | .bnz ra off => wordC 0x2A ra.toNat off.toNat
  | .bltz ra off => wordC 0x2B ra.toNat off.toNat
  | .bgez ra off => wordC 0x2C ra.toNat off.toNat
  | .call off => wordC 0x2D 0 off.toNat
  | .jr ra => wordE 0x2E 0 ra.toNat 0 0
  | .callr ra => wordE 0x2F 0 ra.toNat 0 0
  | .ctlr rd unit word => wordC 0x30 rd.toNat (unit.toNat * 4096 + word.toNat)
  | .ctlw rs unit word => wordC 0x31 rs.toNat (unit.toNat * 4096 + word.toNat)
  | .ctlrx rd ra => wordE 0x32 rd.toNat ra.toNat 0 0
  | .ctlwx rs ra => wordE 0x33 rs.toNat ra.toNat 0 0
  | .emit ra k => wordE 0x38 0 ra.toNat 0 k.toNat
  | .endClause => wordE 0x39 0 0 0 0
  | .fence => wordE 0x3A 0 0 0 0
  | .trap imm => wordE 0x3B 0 0 0 imm.toNat
  | .arm rd ra rb => wordE 0x3C rd.toNat ra.toNat rb.toNat 0
  | .tcap rd sel => wordE 0x3D rd.toNat 0 0 sel.toNat
  | .emitx ra rb => wordE 0x3E 0 ra.toNat rb.toNat 0
  | .acq rd ra imm => wordE 0x40 rd.toNat ra.toNat 0 imm.toNat
  | .rel ra imm => wordE 0x41 0 ra.toNat 0 imm.toNat
  | .lfix ra imm => wordE 0x42 0 ra.toNat 0 imm.toNat
  | .ptake rd ra => wordE 0x48 rd.toNat ra.toNat 0 0
  | .mtake rd => wordE 0x49 rd.toNat 0 0 0
  | .pnew rd ra => wordE 0x4A rd.toNat ra.toNat 0 0
  | .pld rd ra rb imm => wordE 0x4B rd.toNat ra.toNat rb.toNat imm.toNat
  | .pst rs ra rb imm => wordE 0x4C rs.toNat ra.toNat rb.toNat imm.toNat
  | .plen rd ra rb => wordE 0x4D rd.toNat ra.toNat rb.toNat 0
  | .pmeta rd ra imm => wordE 0x4E rd.toNat ra.toNat 0 imm.toNat
  | .psend rd ra rb => wordE 0x4F rd.toNat ra.toNat rb.toNat 0
  | .pfree ra => wordE 0x50 0 ra.toNat 0 0
  | .mpost rd ra rb => wordE 0x51 rd.toNat ra.toNat rb.toNat 0
  | .mdrop rd ra => wordE 0x52 rd.toNat ra.toNat 0 0
  | .creq rd ra rb => wordE 0x58 rd.toNat ra.toNat rb.toNat 0

/-- The instructions that have a word: a bit field must end at bit 63 or below (R414). -/
def LimInstr.wf : LimInstr → Bool
  | .ext _ _ lo len1 => decide (lo.toNat + len1.toNat + 1 ≤ 64)
  | .exts _ _ lo len1 => decide (lo.toNat + len1.toNat + 1 ≤ 64)
  | .ins _ _ lo len1 => decide (lo.toNat + len1.toNat + 1 ≤ 64)
  | _ => true

/-- Field [24:20]. -/
def fRd (w : BitVec 32) : BitVec 5 := BitVec.ofNat 5 (w.toNat / 2 ^ 20)
/-- Field [19:15]. -/
def fRa (w : BitVec 32) : BitVec 5 := BitVec.ofNat 5 (w.toNat / 2 ^ 15)
/-- Field [14:10]. -/
def fRb (w : BitVec 32) : BitVec 5 := BitVec.ofNat 5 (w.toNat / 2 ^ 10)
/-- Field [9:0]. -/
def fImm10 (w : BitVec 32) : BitVec 10 := BitVec.ofNat 10 w.toNat
/-- imm14 (R409). -/
def fImm14 (w : BitVec 32) : BitVec 14 := BitVec.ofNat 14 w.toNat
/-- off20 (R409). -/
def fOff20 (w : BitVec 32) : BitVec 20 := BitVec.ofNat 20 w.toNat
/-- The unit field of format D. -/
def fUnit (w : BitVec 32) : BitVec 8 := BitVec.ofNat 8 (w.toNat / 2 ^ 12)
/-- The word field of format D. -/
def fWord (w : BitVec 32) : BitVec 12 := BitVec.ofNat 12 w.toNat
/-- LO of a bit field (R414). -/
def fLo (w : BitVec 32) : BitVec 6 := BitVec.ofNat 6 (w.toNat / 2 ^ 6)
/-- LEN - 1 of a bit field, or the amount of an immediate shift. -/
def fLow6 (w : BitVec 32) : BitVec 6 := BitVec.ofNat 6 w.toNat

/-- An instruction whose reserved fields hold what they must, else none. -/
def whenOk (b : Bool) (i : LimInstr) : Option LimInstr := if b then some i else none

/-- Bits [9:0], [14:10], [19:15] and [24:20] are zero where an instruction does not use them. -/
def z10 (w : BitVec 32) : Bool := w.toNat % 2 ^ 10 == 0
def zRb (w : BitVec 32) : Bool := w.toNat / 2 ^ 10 % 2 ^ 5 == 0
def zRa (w : BitVec 32) : Bool := w.toNat / 2 ^ 15 % 2 ^ 5 == 0
def zRd (w : BitVec 32) : Bool := w.toNat / 2 ^ 20 % 2 ^ 5 == 0
/-- Bit [14] of format B. -/
def zB (w : BitVec 32) : Bool := w.toNat / 2 ^ 14 % 2 == 0
/-- Bits [14:6] of an immediate shift, bits [14:12] of a bit field. -/
def zSh (w : BitVec 32) : Bool := w.toNat / 2 ^ 6 % 2 ^ 9 == 0
def zFld (w : BitVec 32) : Bool := w.toNat / 2 ^ 12 % 2 ^ 3 == 0 && decide ((fLo w).toNat + (fLow6 w).toNat + 1 ≤ 64)

/-- The instruction of a word with opcode `op`, or none (R411, R414). -/
def decodeOp (op : Nat) (w : BitVec 32) : Option LimInstr :=
  match op with
  | 0x01 => whenOk (z10 w) (.add (fRd w) (fRa w) (fRb w))
  | 0x02 => whenOk (z10 w) (.sub (fRd w) (fRa w) (fRb w))
  | 0x03 => whenOk (z10 w) (.and (fRd w) (fRa w) (fRb w))
  | 0x04 => whenOk (z10 w) (.or (fRd w) (fRa w) (fRb w))
  | 0x05 => whenOk (z10 w) (.xor (fRd w) (fRa w) (fRb w))
  | 0x06 => whenOk (z10 w) (.shl (fRd w) (fRa w) (fRb w))
  | 0x07 => whenOk (z10 w) (.shr (fRd w) (fRa w) (fRb w))
  | 0x08 => whenOk (z10 w) (.sar (fRd w) (fRa w) (fRb w))
  | 0x09 => whenOk (z10 w) (.mul (fRd w) (fRa w) (fRb w))
  | 0x0A => whenOk (z10 w) (.mulhu (fRd w) (fRa w) (fRb w))
  | 0x0B => whenOk (z10 w) (.slt (fRd w) (fRa w) (fRb w))
  | 0x0C => whenOk (z10 w) (.sltu (fRd w) (fRa w) (fRb w))
  | 0x0D => whenOk (z10 w) (.seq (fRd w) (fRa w) (fRb w))
  | 0x10 => whenOk (zB w) (.addi (fRd w) (fRa w) (fImm14 w))
  | 0x11 => whenOk (zB w) (.subi (fRd w) (fRa w) (fImm14 w))
  | 0x12 => whenOk (zB w) (.andi (fRd w) (fRa w) (fImm14 w))
  | 0x13 => whenOk (zB w) (.ori (fRd w) (fRa w) (fImm14 w))
  | 0x14 => whenOk (zB w) (.xori (fRd w) (fRa w) (fImm14 w))
  | 0x15 => whenOk (zSh w) (.shli (fRd w) (fRa w) (fLow6 w))
  | 0x16 => whenOk (zSh w) (.shri (fRd w) (fRa w) (fLow6 w))
  | 0x17 => whenOk (zSh w) (.sari (fRd w) (fRa w) (fLow6 w))
  | 0x18 => whenOk (zB w) (.slti (fRd w) (fRa w) (fImm14 w))
  | 0x19 => whenOk (zB w) (.sltui (fRd w) (fRa w) (fImm14 w))
  | 0x1A => whenOk (zB w) (.seqi (fRd w) (fRa w) (fImm14 w))
  | 0x1B => whenOk (zB w) (.shori (fRd w) (fRa w) (fImm14 w))
  | 0x1C => whenOk (zFld w) (.ext (fRd w) (fRa w) (fLo w) (fLow6 w))
  | 0x1D => whenOk (zFld w) (.exts (fRd w) (fRa w) (fLo w) (fLow6 w))
  | 0x1E => whenOk (zFld w) (.ins (fRd w) (fRa w) (fLo w) (fLow6 w))
  | 0x20 => whenOk (zB w) (.ld (fRd w) (fRa w) (fImm14 w))
  | 0x21 => whenOk (zB w) (.lw (fRd w) (fRa w) (fImm14 w))
  | 0x22 => whenOk (zB w) (.lb (fRd w) (fRa w) (fImm14 w))
  | 0x23 => whenOk (zB w) (.st (fRd w) (fRa w) (fImm14 w))
  | 0x24 => whenOk (zB w) (.sw (fRd w) (fRa w) (fImm14 w))
  | 0x25 => whenOk (zB w) (.sb (fRd w) (fRa w) (fImm14 w))
  | 0x26 => whenOk (z10 w) (.xadd (fRd w) (fRa w) (fRb w))
  | 0x28 => whenOk (zRd w) (.br (fOff20 w))
  | 0x29 => some (.bz (fRd w) (fOff20 w))
  | 0x2A => some (.bnz (fRd w) (fOff20 w))
  | 0x2B => some (.bltz (fRd w) (fOff20 w))
  | 0x2C => some (.bgez (fRd w) (fOff20 w))
  | 0x2D => whenOk (zRd w) (.call (fOff20 w))
  | 0x2E => whenOk (zRd w && zRb w && z10 w) (.jr (fRa w))
  | 0x2F => whenOk (zRd w && zRb w && z10 w) (.callr (fRa w))
  | 0x30 => some (.ctlr (fRd w) (fUnit w) (fWord w))
  | 0x31 => some (.ctlw (fRd w) (fUnit w) (fWord w))
  | 0x32 => whenOk (zRb w && z10 w) (.ctlrx (fRd w) (fRa w))
  | 0x33 => whenOk (zRb w && z10 w) (.ctlwx (fRd w) (fRa w))
  | 0x38 => whenOk (zRd w && zRb w) (.emit (fRa w) (fImm10 w))
  | 0x39 => whenOk (zRd w && zRa w && zRb w && z10 w) .endClause
  | 0x3A => whenOk (zRd w && zRa w && zRb w && z10 w) .fence
  | 0x3B => whenOk (zRd w && zRa w && zRb w) (.trap (fImm10 w))
  | 0x3C => whenOk (z10 w) (.arm (fRd w) (fRa w) (fRb w))
  | 0x3D => whenOk (zRa w && zRb w) (.tcap (fRd w) (fImm10 w))
  | 0x3E => whenOk (zRd w && z10 w) (.emitx (fRa w) (fRb w))
  | 0x40 => whenOk (zRb w) (.acq (fRd w) (fRa w) (fImm10 w))
  | 0x41 => whenOk (zRd w && zRb w) (.rel (fRa w) (fImm10 w))
  | 0x42 => whenOk (zRd w && zRb w) (.lfix (fRa w) (fImm10 w))
  | 0x48 => whenOk (zRb w && z10 w) (.ptake (fRd w) (fRa w))
  | 0x49 => whenOk (zRa w && zRb w && z10 w) (.mtake (fRd w))
  | 0x4A => whenOk (zRb w && z10 w) (.pnew (fRd w) (fRa w))
  | 0x4B => some (.pld (fRd w) (fRa w) (fRb w) (fImm10 w))
  | 0x4C => some (.pst (fRd w) (fRa w) (fRb w) (fImm10 w))
  | 0x4D => whenOk (z10 w) (.plen (fRd w) (fRa w) (fRb w))
  | 0x4E => whenOk (zRb w) (.pmeta (fRd w) (fRa w) (fImm10 w))
  | 0x4F => whenOk (z10 w) (.psend (fRd w) (fRa w) (fRb w))
  | 0x50 => whenOk (zRd w && zRb w && z10 w) (.pfree (fRa w))
  | 0x51 => whenOk (z10 w) (.mpost (fRd w) (fRa w) (fRb w))
  | 0x52 => whenOk (zRb w && z10 w) (.mdrop (fRd w) (fRa w))
  | 0x58 => whenOk (z10 w) (.creq (fRd w) (fRa w) (fRb w))
  | _ => none

/-- The instruction of a word, or none where it raises ILLEGAL (R410). [DEDUCED, log entry 93] -/
def decodeLim (w : BitVec 32) : Option LimInstr := decodeOp (w.toNat / 2 ^ 25) w

end Sys2Proof.Machine
end

