-- ==== Sys2Proof/Machine/LimOps.lean ====
section
/-!
DEFINITION. The Limtin machine below the instructions: cores and contexts (R374, R406), data memories (R375), instruction fetch
(R407), clauses and how they end (R386, R390, R393, R431), latches (R387 to R390) and event bindings (R382).
-/

namespace Sys2Proof.Machine

/-! ## Cores and contexts -/

def State.core (s : State) (c : Nat) : Core := Tbl.get (fun _ => {}) s.lsch.cores c
def State.setCore (s : State) (c : Nat) (v : Core) : State :=
  { s with lsch := { s.lsch with cores := Tbl.set (fun _ => {}) s.lsch.cores c v } }
def State.ctx (s : State) (c x : Nat) : Ctx := Tbl.get (fun _ => {}) (s.core c).ctxs x
def State.setCtx (s : State) (c x : Nat) (v : Ctx) : State :=
  s.setCore c { s.core c with ctxs := Tbl.set (fun _ => {}) (s.core c).ctxs x v }

/-- A general register; g0 reads zero (R406). -/
def Ctx.gr (t : Ctx) (r : BitVec 5) : BitVec 64 := if r = 0 then 0 else Tbl.get (fun _ => 0) t.g r.toNat

/-- Write a general register; a write to g0 is discarded (R406). -/
def Ctx.setG (t : Ctx) (r : BitVec 5) (v : BitVec 64) : Ctx :=
  if r = 0 then t else { t with g := Tbl.set (fun _ => 0) t.g r.toNat v }

/-- Go on to the next instruction. -/
def Ctx.forth (t : Ctx) : Ctx := { t with pc := t.pc + 1 }

/-- The object in a handle slot. -/
def Ctx.handle (t : Ctx) (h : Nat) : Option Held := Tbl.get (fun _ => none) t.h h
def Ctx.setHandle (t : Ctx) (h : Nat) (v : Option Held) : Ctx := { t with h := Tbl.set (fun _ => none) t.h h v }

/-- The lowest empty handle slot (R425). -/
def Ctx.emptySlot (t : Ctx) : Option Nat := (List.range 4).find? (fun h => (t.handle h).isNone)

/-- The objects a context holds. -/
def Ctx.objects (t : Ctx) : List Held := (List.range 4).filterMap (fun h => t.handle h)

/-- Whether a cluster's domain is on and the cluster does not restart. -/
def State.clusterUp (s : State) (k : Nat) : Bool := s.domOn (1 + k) && !s.restarting (Src.lim0 + k)

/-- Every context: on a core, in a swap buffer, in the store of evicted contexts. -/
def State.allCtxs (s : State) : List Ctx :=
  s.lsch.cores.flatMap (fun e => e.2.ctxs.map (·.2) ++ e.2.swapBuf.toList) ++ s.lsch.saved.map (·.2)

/-- Change every context. -/
def State.mapCtxs (s : State) (f : Ctx → Ctx) : State :=
  let core := fun (c : Core) => { c with ctxs := c.ctxs.map (fun x => (x.1, f x.2)), swapBuf := c.swapBuf.map f }
  { s with lsch := { s.lsch with cores := s.lsch.cores.map (fun e => (e.1, core e.2)), saved := s.lsch.saved.map (fun e => (e.1, f e.2)) } }

/-- PWR.DOMd.PHASE. -/
def State.domPhase (s : State) (d : Nat) : Nat := s.fld (R.pwrDom d) F.pwrDom_phase

/-! ## Data memories (R375) -/

/-- What an unlisted cell reads as (log entry 4). [DESIGN CHOICE, log entry 4] -/
def memDefault : Nat → Byte := fun _ => 0

/-- The canonical form of memory: addresses strictly rising and no cell listed that holds what an unlisted cell reads as.
[DESIGN CHOICE, log entry 4] -/
def Memory.wf (m : List Host.Cell) : Bool := Tbl.wf memDefault m

/-- The first cell of memory space `k`: cores 0 to 63, shared memories 64 and 65, program area 66. -/
def spaceBase (k : Nat) : Nat := k * 2 ^ 40

/-- `n` bytes from cell `a`. [DESIGN CHOICE, log entry 4] -/
def State.readBytes (s : State) (a n : Nat) : List Byte := (List.range n).map (fun i => Tbl.get memDefault s.mem (a + i))

/-- Write bytes from cell `a`. -/
def writeCells (m : List Host.Cell) : Nat → List Byte → List Host.Cell
  | _, [] => m
  | a, b :: t => writeCells (Tbl.set memDefault m a b) (a + 1) t

def State.writeBytes (s : State) (a : Nat) (v : List Byte) : State := { s with mem := writeCells s.mem a v }

/-- The cells of a memory space all read as an unlisted cell does. -/
def State.clearSpace (s : State) (k : Nat) : State :=
  { s with mem := Tbl.keep (fun a => a / 2 ^ 40 != k) s.mem }

/-- The HBM program area in GiB (R377). -/
def State.areaGib (s : State) : Nat := min 8 (s.fld R.lschHbmArea F.lschHbmArea_gib)

/-- Whether every enabled HBM stack is on and does not restart. -/
def State.hbmUp (s : State) : Bool :=
  let e := s.fld R.qmHbmCfg F.qmHbmCfg_stackEn
  (List.range 2).all (fun k => !bitOf e k || (s.domOn (3 + k) && !s.restarting (Src.hbm k)))

/-- The cell of `n` bytes at data address `a` of core `c`, where an access is possible (R375); `hbm` is false for XADD. -/
def State.limCell (s : State) (c a n : Nat) (hbm : Bool) : Option Nat :=
  let k := c / 32
  if a + n ≤ 0x20000 then (if s.clusterUp k then some (spaceBase c + a) else none)
  else if 0x100000000 ≤ a ∧ a + n ≤ 0x1007F0000 then
    (if s.clusterUp k then some (spaceBase (64 + k) + (a - 0x100000000)) else none)
  else if 0x200000000 ≤ a ∧ a + n ≤ 0x2007F0000 then
    (if s.clusterUp (1 - k) then some (spaceBase (65 - k) + (a - 0x200000000)) else none)
  else if 0x1000000000 ≤ a ∧ a + n ≤ 0x1000000000 + s.areaGib * 2 ^ 30 then
    (if hbm && s.hbmUp then some (spaceBase 66 + (a - 0x1000000000)) else none)
  else none

/-! ## Instruction fetch (R407) -/

def State.blockAt (s : State) (slot : Nat) : Option CmdBlock := s.lsch.store.find? (fun b => b.slot == slot)

/-- The instruction word at a context's PC: the bank the clause bound to, the block in service, and zero elsewhere.
[DEDUCED, log entry 93] -/
def State.fetchLim (s : State) (c : Nat) (t : Ctx) (cl : Clause) : BitVec 32 :=
  let p := t.pc.toNat
  if p < 0x2000 then Tbl.get (fun _ => 0) (s.core c).code (cl.bank * 8192 + p)
  else if cl.block ∧ 0x10000 ≤ p then
    match s.blockAt cl.node with
    | some b => b.code.getD (p - 0x10000) 0
    | none => 0
  else 0

/-! ## Latches (R387 to R390) -/

def State.lbank (s : State) (n : Nat) : Latch := Tbl.get (fun _ => {}) s.lsch.latches n
def State.setLbank (s : State) (n : Nat) (v : Latch) : State :=
  { s with lsch := { s.lsch with latches := Tbl.set (fun _ => {}) s.lsch.latches n v } }

/-- Release a clause's latches and mark each BROKEN (R390). -/
def State.breakLatches (s : State) (l : List Nat) : State :=
  l.foldl (fun s n => (s.setLbank n ⟨none, true⟩).count R.latchCounts F.latchCounts_brokenSet) s

/-! ## Event bindings (R382) -/

/-- The node a source is bound to. -/
def State.binding (s : State) (src : Nat) : Option Nat :=
  let b := (Tbl.get (fun _ => 0) s.lsch.bindings src).toNat
  if bitOf b 127 then some (bitsOf b 126 111) else none

/-- Whether the condition of a level source holds. -/
def State.levelHolds (s : State) (src : Nat) : Bool :=
  if src = msgqSource then !s.dfp.msgq.isEmpty
  else if src = 32 * 0x9D + 1 then s.bit R.mboxFromCtl F.mboxFromCtl_full
  else if 0x2000 ≤ src ∧ src < 0x2200 then !(s.queue (0x3E00 + (src - 0x2000))).joined.isEmpty
  else false

/-- At the end of a clause of `node` its level sources that still hold fire again. -/
def State.levelAgain (s : State) (node : Nat) : State :=
  s.lsch.bindings.foldl (fun s e =>
    if s.binding e.1 = some node ∧ s.levelHolds e.1 then s.fireNode node 2 false e.1 else s) s

/-! ## Clauses in service -/

/-- Contexts in service: running, in swap buffers and in save stores, each with its core. -/
def State.inService (s : State) : List (Nat × Ctx) :=
  s.lsch.cores.flatMap (fun e => (e.2.ctxs.map (fun x => (e.1, x.2))) ++ (e.2.swapBuf.toList.map (fun t => (e.1, t)))) ++ s.lsch.saved

/-- The clauses in service. -/
def State.clauses (s : State) : List Clause := s.inService.filterMap (fun e => e.2.clause)

/-- The clause numbered `uid`, if it is in service. -/
def State.clauseOf (s : State) (uid : Nat) : Option Clause := s.clauses.find? (fun c => c.uid == uid)

/-- A completion record of a command block (R393) waits for the completion ring; its counter advances (R402). -/
def State.completeBlock (s : State) (seq status cause src : Nat) (result : BitVec 64) : State :=
  let t := s.stamp src
  let w0 := BitVec.ofNat 64 (seq % 2 ^ 32 * 2 ^ 32 + status * 2 ^ 28 + cause % 2 ^ 16)
  ({ s with lsch := { s.lsch with cpl := s.lsch.cpl ++ [[w0, t.hiWord, t.loWord, result]] } }).lschCount (10 + status)

/-- Free a store slot (R392). -/
def State.freeStore (s : State) (slot : Nat) : State :=
  { s with lsch := { s.lsch with store := s.lsch.store.filter (fun b => b.slot != slot) } }

/-- The ordinary end of a clause: its block's completion, then its node's level sources. -/
def State.clauseEnds (s : State) (cl : Clause) (result : BitVec 64) : State :=
  let s := s.pmcEvent (0xA0 + cl.core) 2
  if cl.block then (s.completeBlock cl.seq (b2n cl.late) 0 (0x700 + cl.core) result).freeStore cl.node
  else s.levelAgain cl.node

/-- Discard an object: a packet's cells are freed. -/
def State.discardHeld (s : State) (h : Held) : State := if h.kind = 1 then s else s.freeCells h.pkt.dir (cellsOf h.pkt.bytes.length)

/-- An object lost with its clause (R425, R516). -/
def State.loseHeld (s : State) (src cls code : Nat) (h : Held) : State :=
  let s := s.discardHeld h
  if h.kind = 1 then
    let f := h.plane % 32 * 2 ^ 48 + h.frame % 2 ^ 48
    (s.count (R.dfpMsgDisc h.plane) F.dfpMsgDisc_count).report ⟨src, cls, 8, 0, code, 1, f, f, 0, 0⟩
  else (s.qmDrop 8).report (Lost.packet src cls code h.pkt)

/-- The end of a clause FAULTED (R386, R431): latches BROKEN, objects lost, its disposition record, its block's completion. The
record names source `src`, class `cls`, the exception and the instruction at `pc` with its word. -/
def State.clauseFaults (s : State) (cl : Clause) (t : Ctx) (src cls code pc word imm : Nat) : State :=
  let s := (s.breakLatches cl.latches).pmcEvent (0xA0 + cl.core) 3
  let s := { s with lsch := { s.lsch with waits := s.lsch.waits.filter (fun w => w.1 != cl.uid) } }
  let s := t.objects.foldl (fun s h => s.loseHeld src cls code h) s
  let item := if cl.block then 2 ^ 63 + cl.seq else cl.node
  let detail := cl.core % 64 * 2 ^ 58 + cl.place % 4 * 2 ^ 56 + pc % 2 ^ 17 * 2 ^ 32 + word % 2 ^ 32
  let s := (s.lschCount 8).report ⟨src, cls, 7, 0, code, 1, item, item, detail, imm⟩
  if cl.block then (s.completeBlock cl.seq 2 code (0x700 + cl.core) 0).freeStore cl.node else s.levelAgain cl.node

/-- A context's clause raises an exception: class U on source LIM (R386). [DEDUCED, log entry 97] -/
def State.limFault (s : State) (c x code pc word : Nat) : State :=
  let t := s.ctx c x
  match t.clause with
  | none => s
  | some cl =>
    let s := (s.setCtx c x {}).clauseFaults cl t Src.lim 1 code pc word (if code = 0x11 then word % 1024 else 0)
    let s := if code = 9 then s.count R.latchCounts F.latchCounts_orderFaults else if code = 8 then s.lschCount 5 else s
    s.signal Src.lim 1 code

/-! ## Exceptions (R432) -/

abbrev Exc.illegal : Nat := 1
abbrev Exc.memory : Nat := 2
abbrev Exc.align : Nat := 3
abbrev Exc.ctlAccess : Nat := 4
abbrev Exc.branchRange : Nat := 5
abbrev Exc.emitRange : Nat := 6
abbrev Exc.nodeInvalid : Nat := 7
abbrev Exc.tokenFull : Nat := 8
abbrev Exc.latchOrder : Nat := 9
abbrev Exc.latchNotHeld : Nat := 10
abbrev Exc.latchHeld : Nat := 11
abbrev Exc.latchRange : Nat := 12
abbrev Exc.handle : Nat := 13
abbrev Exc.handleHeld : Nat := 14
abbrev Exc.badOperand : Nat := 15
abbrev Exc.runLimit : Nat := 16
abbrev Exc.trap : Nat := 17
abbrev Exc.clusterRestart : Nat := 18

/-! ## Line positions (R420) -/

/-- The LP word of now, or 0 while LP_VALID = 0. -/
def State.lpWord (s : State) : BitVec 64 :=
  if s.lpValid then BitVec.ofNat 64 (s.time.frame % 2 ^ 43 * 2 ^ 21 + s.time.sym / 25) else 0

/-- The frame of an LP word: the one within 2^42 frames of the present frame. -/
def State.lpFrame (s : State) (w : BitVec 64) : Nat :=
  let d := sext 43 (toTwos 43 ((w.toNat / 2 ^ 21 : Nat) - (s.time.frame : Int)))
  (((s.time.frame : Int) + d) % (2 ^ 48 : Nat)).toNat

/-- Whether LP(F, c, 0) has been reached. [DESIGN CHOICE, log entry 163] -/
def State.lpPassed (s : State) (f c : Nat) : Bool := decide (f * frameSymbols + 25 * c ≤ s.time.frame * frameSymbols + s.time.sym)

/-! ## Alarms (R381, R403) -/

def alarmValid (e : BitVec 128) : Bool := bitOf e.toNat 127
def alarmNode (e : BitVec 128) : Nat := bitsOf e.toNat 125 110
def alarmFrame (e : BitVec 128) : Nat := bitsOf e.toNat 109 62
def alarmCell (e : BitVec 128) : Nat := bitsOf e.toNat 61 41
def alarmPeriod (e : BitVec 128) : Nat := bitsOf e.toNat 40 25
def alarmMissed (e : BitVec 128) : Nat := bitsOf e.toNat 24 9

/-- An alarm entry. [DEDUCED, log entry 105] -/
def mkAlarm (valid : Bool) (node f c period missed : Nat) : BitVec 128 :=
  BitVec.ofNat 128 (b2n valid * 2 ^ 127 + node % 2 ^ 16 * 2 ^ 110 + f % 2 ^ 48 * 2 ^ 62 + c % 2 ^ 21 * 2 ^ 41 + period % 2 ^ 16 * 2 ^ 25 +
    missed % 2 ^ 16 * 2 ^ 9)

def State.alarm (s : State) (i : Nat) : BitVec 128 := Tbl.get (fun _ => 0) s.lsch.alarms i
def State.setAlarm (s : State) (i : Nat) (e : BitVec 128) : State :=
  { s with lsch := { s.lsch with alarms := Tbl.set (fun _ => 0) s.lsch.alarms i e } }

/-- Mark or unmark an alarm as found passed. -/
def State.markLate (s : State) (i : Nat) (b : Bool) : State :=
  let l := s.lsch.dueLate.filter (· != i)
  { s with lsch := { s.lsch with dueLate := if b then l ++ [i] else l } }

/-- Replace an alarm entry whole; one armed with a target that has passed falls due at once with LATE. -/
def State.armAlarm (s : State) (i : Nat) (e : BitVec 128) : State :=
  (s.setAlarm i e).markLate i (alarmValid e && s.lpValid && s.lpPassed (alarmFrame e) (alarmCell e))

/-- Alarms whose targets have passed become due with LATE: at the start of the line position and at the end of a restart of
LIM0 (R381, R398). [DEDUCED, log entries 29, 102 and 111; DESIGN CHOICE, log entry 163] -/
def State.alarmsPassed (s : State) : State :=
  s.lsch.alarms.foldl (fun s e =>
    if alarmValid e.2 && s.lpPassed (alarmFrame e.2) (alarmCell e.2) then s.markLate e.1 true else s) s

/-- Mark or unmark a counter dump entry as one whose target had passed when it falls due (R555). -/
def State.markDump (s : State) (k : Nat) (b : Bool) : State :=
  let l := s.mon.late.filter (· != k)
  { s with mon := { s.mon with late := if b then l ++ [k] else l } }

/-- Whether a dump entry is armed and its target has passed. -/
def State.dumpPassed (s : State) (k : Nat) : Bool :=
  s.bit (R.monDumpCtl k) F.monDumpCtl_valid && s.lpPassed (s.lpFrame (s.reg (R.monDumpLp k))) ((s.reg (R.monDumpLp k)).toNat % 2 ^ 21)

/-- Dump entries whose targets have passed when the line position starts (R381, R555). [DEDUCED, log entry 29] -/
def State.dumpsPassed (s : State) : State :=
  (List.range 16).foldl (fun (s : State) k => if s.dumpPassed k then s.markDump k true else s) s

/-- Command blocks that still wait and whose targets have passed become LATE (R28).
[DEDUCED, log entries 29 and 102; DESIGN CHOICE, log entry 163] -/
def State.blocksPassed (s : State) : State :=
  let late := fun (b : CmdBlock) => !b.ready && !b.immediate && s.lpPassed b.frame b.cell
  { s with lsch := { s.lsch with store := s.lsch.store.map (fun b => if late b then { b with late := true } else b) } }

/-- The first multiple of `period` frames after the target that lies ahead of the line position, with how many were passed. -/
def futureTarget (s : State) (f c period : Nat) : Nat × Nat :=
  let now := s.time.frame
  let k := (now - f) / period
  let f' := f + k * period
  if s.lpPassed f' c then (f' + period, k) else (f', k - 1)

/-- An alarm falls due (R381). [DEDUCED, log entry 111] -/
def State.alarmDue (s : State) (i : Nat) : State :=
  let e := s.alarm i
  let f := alarmFrame e
  let c := alarmCell e
  if !s.clusterUp 0 || !alarmValid e || !s.lpValid || !s.lpPassed f c then s
  else
    let late := s.lsch.dueLate.contains i
    let s := s.markLate i false
    let s := if late then s.lschCount 4 else s
    let s := s.fireNode (alarmNode e) 1 late f
    if alarmPeriod e = 0 then s.setAlarm i (mkAlarm false (alarmNode e) f c 0 (alarmMissed e))
    else if late then
      let (f', m) := futureTarget s f c (alarmPeriod e)
      (s.setAlarm i (mkAlarm true (alarmNode e) f' c (alarmPeriod e) (satAdd 16 (alarmMissed e) m))).lschCount 3 m
    else s.setAlarm i (mkAlarm true (alarmNode e) (f + alarmPeriod e) c (alarmPeriod e) (alarmMissed e))

end Sys2Proof.Machine
end

