-- ==== Sys2Proof/Machine/LschOps.lean ====
section
/-!
DEFINITION. The task scheduler LSCH and the latch bank: firings and dispatch (R383, R384), eviction and resumption (R385), latch
grants and the wait-for detector (R388, R389), table commands (R402, R403), the loader (R394, R395), swaps (R396), the program area
(R377) and the restart of a cluster (R398).
-/

namespace Sys2Proof.Machine

/-! ## Dispatch (R384, R385) -/

/-- Whether core `c` takes new clauses of a section: DISPATCH_EN, its domain on, not draining nor restarting, and a loaded active
bank of that section (R384, R397, R405, R529). -/
def State.coreTakes (s : State) (sec c : Nat) : Bool :=
  let k := s.core c
  s.bit (R.coreCfg c) F.coreCfg_dispatchEn && s.clusterUp (c / 32) && s.domTakes (1 + c / 32) && k.activeLoaded &&
    (if k.active = 0 then k.section0 else k.section1) == sec

/-- The cores that run a section. -/
def State.coresOf (s : State) (sec : Nat) : List Nat := (List.range 64).filter (s.coreTakes sec)

/-- The free contexts of a core. -/
def State.freeCtxs (s : State) (c : Nat) : List Nat := (List.range 4).filter (fun x => (s.ctx c x).clause.isNone)

/-- The evicted clauses that wait for a context of core `c`, oldest first. -/
def State.evicted (s : State) (c : Nat) : List Ctx :=
  (s.lsch.saved.filter (fun e => e.1 == c)).map (·.2) ++ (s.core c).swapBuf.toList

/-- The priority of a context's clause. -/
def Ctx.prio (t : Ctx) : Nat := (t.clause.map (·.prio)).getD 8

/-- Free contexts of a core that evicted clauses of no lower priority leave to a firing of priority `p` (R385). [DEDUCED, log entry 99] -/
def State.roomFor (s : State) (p c : Nat) : Nat :=
  (s.freeCtxs c).length - ((s.evicted c).filter (fun t => decide (t.prio ≤ p))).length

/-- The core with the fewest busy contexts, the lowest-numbered on ties. -/
def State.quietest (s : State) (l : List Nat) : Option Nat :=
  l.foldl (fun b c =>
    match b with
    | none => some c
    | some d => if (s.freeCtxs d).length < (s.freeCtxs c).length then some c else b) none

/-- Contexts in a cluster's save store, the swap buffers on their way to it included. -/
def State.saveLevel (s : State) (k : Nat) : Nat :=
  (s.lsch.saved.filter (fun e => e.1 / 32 == k)).length +
    ((List.range 32).filter (fun c => (s.core (32 * k + c)).swapBuf.isSome)).length

/-- Whether a context is waiting for a latch. -/
def Ctx.atLatch (t : Ctx) : Bool := match t.wait with | some (.latch _ _) => true | _ => false

/-- The context to evict for a firing of priority `p` on some cores: the lowest priority below `p`, the one dispatched most
recently (R385). [DEDUCED, log entry 99] -/
def State.victim (s : State) (p : Nat) (cores : List Nat) : Option (Nat × Nat) :=
  let ok := cores.filter (fun c => (s.core c).swapBuf.isNone && decide (s.saveLevel (c / 32) < 256))
  let cand := ok.flatMap (fun c => (List.range 4).filterMap (fun x =>
    let t := s.ctx c x
    match t.clause with
    | some cl => if p < cl.prio ∧ !t.atLatch then some (cl.prio, cl.uid, c, x) else none
    | none => none))
  (cand.foldl (fun (b : Option (Nat × Nat × Nat × Nat)) e =>
    match b with
    | none => some e
    | some d => if d.1 < e.1 ∨ (d.1 = e.1 ∧ d.2.1 < e.2.1) then some e else b) none).map (fun e => e.2.2)

/-- The section a firing needs. -/
def State.firingSec (s : State) (f : Firing) : Nat :=
  if f.block then ((s.blockAt f.node).map (·.sec)).getD 16 else (s.gnode f.node).sec

/-- Whether a firing's subject holds it back: a clause of the subject is in service, or a firing of it that fired earlier still waits
(R383). [DEDUCED, log entry 98] -/
def State.subjectHolds (s : State) (f : Firing) : Bool :=
  f.subject != 0 && (s.clauses.any (fun c => c.subject == f.subject) ||
    (s.lsch.ready.takeWhile (fun e => e != f)).any (fun e => e.subject == f.subject))

/-- Where a firing can go now: a core and context, and whether a clause is evicted there. -/
def State.placeFor (s : State) (f : Firing) : Option (Nat × Nat × Bool) :=
  if s.subjectHolds f then none
  else
    let cores := s.coresOf (s.firingSec f)
    match s.quietest (cores.filter (fun c => decide (0 < s.roomFor f.prio c))) with
    | some c => ((s.freeCtxs c).head?).map (fun x => (c, x, false))
    | none =>
      match s.victim f.prio (cores.filter (fun c => (s.freeCtxs c).isEmpty)) with
      | some (c, x) => if (s.ctx c x).wait.isNone then some (c, x, true) else none
      | none => none

/-- The registers at dispatch (R384). -/
def dispatchRegs (f : Firing) (vals : List (BitVec 64)) (queued g6 : Nat) : Tbl (BitVec 64) :=
  let low := if f.kind = 0 then queued else f.info
  let g1 := BitVec.ofNat 64 (f.kind * 2 ^ 62 + b2n f.late * 2 ^ 61 + low % 2 ^ 48)
  let put := fun (t : Tbl (BitVec 64)) (k : Nat) (v : BitVec 64) => Tbl.set (fun _ => 0) t k v
  put (put (put (put (put (put [] 1 g1) 2 (vals.getD 0 0)) 3 (vals.getD 1 0)) 4 (vals.getD 2 0)) 5 (vals.getD 3 0)) 6 (BitVec.ofNat 64 g6)

/-- Dispatch a firing to a context of a core. -/
def State.dispatch (s : State) (f : Firing) (c x : Nat) : State :=
  let s := { s with lsch := { s.lsch with ready := s.lsch.ready.erase f, uid := s.lsch.uid + 1 } }
  let uid := s.lsch.uid
  let bank := (s.core c).active
  let s := ((s.lschCount 0).pmcEvent (0xA0 + c) 1).pmcEvent (0xA0 + c) 0x16
  if f.block then
    match s.blockAt f.node with
    | none => s
    | some b =>
      let cl : Clause := ⟨uid, true, f.node, f.prio, f.subject, 0, 0, bank, b.lenM1, b.seq, f.late, [], c, x⟩
      s.setCtx c x { clause := some cl, g := dispatchRegs f b.args 0 0x10000, pc := 0x10000 }
  else
    let n := s.gnode f.node
    let cl : Clause := ⟨uid, false, f.node, f.prio, f.subject, n.sentBase, n.sentLenM1, bank, 0, 0, f.late, [], c, x⟩
    let (vals, rest) := if n.trig = 0 then (n.tokens.take (min 4 n.need), n.tokens.drop n.need) else ([], n.tokens)
    let s := s.setGnode f.node { n with tokens := rest }
    s.setCtx c x { clause := some cl, g := dispatchRegs f vals (s.firings f.node).length f.node, pc := BitVec.ofNat 17 n.entry }

/-- Evict the clause of a context into the core's swap buffer. [DEDUCED, log entry 99] -/
def State.evict (s : State) (c x : Nat) : State :=
  let t := s.ctx c x
  let s := ((s.pmcEvent (0xA0 + c) 0x17).pmcEvent (0xA0 + c) 0x10).pmcEvent (0xA0 + c) 0x12
  let s := s.setCtx c x {}
  (s.setCore c { s.core c with swapBuf := some t }).lschCount 1

/-- The firings from the highest priority to the lowest, oldest first within one. -/
def byPrio (l : List Firing) : List Firing := (List.range 8).flatMap (fun p => l.filter (fun f => f.prio == p))

/-- LSCH dispatches the first ready firing that can go (R384). -/
def State.clauseDispatch (s : State) : State :=
  if !s.clusterUp 0 then s
  else
    match (byPrio s.lsch.ready).find? (fun f => (s.placeFor f).isSome) with
    | none => s
    | some f =>
      match s.placeFor f with
      | none => s
      | some (c, x, ev) => (if ev then s.evict c x else s).dispatch f c x

/-- An evicted clause resumes on its core (R385): one of the highest priority, oldest first, while no higher-priority firing waits
for that core. -/
def State.clauseResume (s : State) (c : Nat) : State :=
  let mine := s.lsch.saved.filter (fun e => e.1 == c)
  let p := mine.foldl (fun m e => min m e.2.prio) 8
  match mine.find? (fun e => e.2.prio == p), (s.freeCtxs c).head? with
  | some e, some x =>
    if !s.clusterUp (c / 32) || s.lsch.ready.any (fun f => decide (f.prio < p) && (s.coresOf (s.firingSec f)).contains c &&
        (s.placeFor f).isSome) then s
    else
      let s := { s with lsch := { s.lsch with saved := s.lsch.saved.erase e } }
      s.setCtx c x { e.2 with clause := e.2.clause.map (fun cl => { cl with place := x }) }
  | _, _ => s

/-- The swap buffer of a core has drained to the cluster's save store (R385). [DEDUCED, log entry 99] -/
def State.swapDrain (s : State) (c : Nat) : State :=
  match (s.core c).swapBuf with
  | none => s
  | some t =>
    let s := s.setCore c { s.core c with swapBuf := none }
    { s with lsch := { s.lsch with saved := s.lsch.saved ++ [(c, t)] } }

/-- A clause has been in service longer than RUN_LIMIT: it ends at an instruction boundary with every access in flight returned
(R386, R432). [DEDUCED, log entries 103 and 112] -/
def State.runLimit (s : State) (c x : Nat) : State :=
  let t := s.ctx c x
  match t.clause with
  | none => s
  | some cl =>
    if s.fld R.lschCfg F.lschCfg_runLimit = 0 ∨ (t.wait.isSome ∧ !t.atLatch) ∨ (s.core c).posted.any (fun w => w.uid == cl.uid) then s
    else
      match t.refused with
      | some (pc, w) => s.limFault c x Exc.ctlAccess pc w
      | none => s.limFault c x Exc.runLimit t.pc.toNat (s.fetchLim c t cl).toNat

/-! ## Latches (R388, R389) -/

/-- Give a latch to the clause of a context that waits in ACQ: its status, and on to the next instruction. -/
def State.grantTo (s : State) (n uid : Nat) : State :=
  let l := s.lbank n
  let give := fun (t : Ctx) => match t.clause, t.wait with
    | some cl, some (.latch rd _) =>
      if cl.uid = uid then
        { (t.setG (BitVec.ofNat 5 rd) (if l.broken then 1 else 0)).forth with
          wait := none, clause := some { cl with latches := cl.latches ++ [n] } }
      else t
    | _, _ => t
  match s.clauseOf uid with
  | none => s
  | some cl =>
    let s := s.setLbank n { l with holder := some uid }
    let s := { s with lsch := { s.lsch with waits := s.lsch.waits.filter (fun w => w.1 != uid) } }
    s.setCtx cl.core cl.place (give (s.ctx cl.core cl.place))

/-- A released latch goes to one of its waiters, in priority order and in the order in which they waited (R388).
[DEDUCED, log entry 100] -/
def State.latchGrant (s : State) (n : Nat) : State :=
  if (s.lbank n).holder.isSome ∨ !s.clusterUp 0 then s
  else
    let ws := (s.lsch.waits.filter (fun w => w.2 == n)).map (·.1)
    let pr := fun u => ((s.clauseOf u).map (·.prio)).getD 8
    match ws.find? (fun u => pr u == ws.foldl (fun m v => min m (pr v)) 8) with
    | none => s
    | some u => s.grantTo n u

/-- The clauses that clause `u` waits for: the holder of its latch, or, evicted with no context free, those in its core's contexts.
[DEDUCED, log entry 101] -/
def State.waitsFor (s : State) (u : Nat) : List Nat :=
  match s.lsch.waits.find? (fun w => w.1 == u) with
  | some (_, n) => (s.lbank n).holder.toList
  | none =>
    match s.lsch.saved.find? (fun e => (e.2.clause.map (·.uid)) == some u) with
    | some (c, _) =>
      if (s.freeCtxs c).isEmpty then (List.range 4).filterMap (fun x => (s.ctx c x).clause.map (·.uid)) else []
    | none => []

/-- Clauses that stay blocked for ever among `l`: drop those that wait for nobody, and those one of whose latch or contexts is not
blocked, until none is dropped. [DEDUCED, log entry 101] -/
def State.stuck (s : State) : Nat → List Nat → List Nat
  | 0, l => l
  | fuel + 1, l => s.stuck fuel (l.filter (fun u => !(s.waitsFor u).isEmpty && (s.waitsFor u).all (fun v => l.contains v)))

/-- The clauses reachable from `seen` within a set. -/
def State.reach (s : State) (l : List Nat) : Nat → List Nat → List Nat
  | 0, seen => seen
  | fuel + 1, seen => s.reach l fuel (seen ++ (l.filter (fun v => !seen.contains v && seen.any (fun u => (s.waitsFor u).contains v))))

/-- The wait-for detector (R389): the youngest acquisition of a cycle fails with DEADLOCK. [DEDUCED, log entry 101] -/
def State.deadlockDetect (s : State) : State :=
  let us := s.clauses.map (·.uid)
  let dead := s.stuck us.length us
  let inCycle := fun u => (s.reach dead dead.length (s.waitsFor u)).contains u
  match (s.lsch.waits.filter (fun w => dead.contains w.1 && inCycle w.1)).getLast? with
  | none => s
  | some (u, _) =>
    match s.clauseOf u with
    | none => s
    | some cl =>
      let s := { s with lsch := { s.lsch with waits := s.lsch.waits.filter (fun w => w.1 != u) } }
      let t := s.ctx cl.core cl.place
      let t' := match t.wait with
        | some (.latch rd _) => { (t.setG (BitVec.ofNat 5 rd) 2).forth with wait := none }
        | _ => t
      (s.setCtx cl.core cl.place t').count R.latchCounts F.latchCounts_deadlocks

/-- A write of LATCH.PROBE.INDEX loads the state of that latch (R404). -/
def State.latchProbe (s : State) (v : BitVec 64) : State :=
  let n := bitsOf v.toNat 57 48
  let l := s.lbank n
  let w := (s.lsch.waits.filter (fun e => e.2 == n)).length
  let h := l.holder.bind (fun u => s.clauseOf u)
  s.setReg R.latchProbe (BitVec.ofNat 64 (n * 2 ^ 48 + b2n l.holder.isSome * 2 ^ 47 + b2n l.broken * 2 ^ 46 + min 63 w * 2 ^ 40 +
    (h.map (·.core)).getD 0 % 64 * 2 ^ 32 + (h.map (·.place)).getD 0 % 4 * 2 ^ 30))

/-! ## Command blocks becoming ready (R27, R28, R392) -/

/-- A block of the store becomes ready: at once, at its target, or late; its section is checked. Of the blocks with one target those of
higher priority, and of equal priority those earlier on the ring, become ready first (R27). [DEDUCED, log entry 109] -/
def State.cbReady (s : State) (slot : Nat) : State :=
  match s.blockAt slot with
  | none => s
  | some b =>
    let due := b.immediate || (s.lpValid && s.lpPassed b.frame b.cell)
    let before := s.lsch.store.any (fun (d : CmdBlock) => !d.ready && d.immediate == b.immediate &&
      ((d.prio == b.prio && decide (d.order < b.order) && (b.immediate || (d.frame == b.frame && d.cell == b.cell))) ||
        (decide (d.prio < b.prio) && !b.immediate && d.frame == b.frame && d.cell == b.cell)))
    if b.ready || !due || before || !s.clusterUp 0 then s
    else if (s.coresOf b.sec).isEmpty then
      (s.completeBlock b.seq 3 1 0x740 0).freeStore slot
    else
      let s := { s with lsch := { s.lsch with store := s.lsch.store.map (fun (d : CmdBlock) => if d.slot = slot then { d with ready := true } else d) } }
      s.pushFiring ⟨true, slot, b.prio, b.subject, 3, b.late, b.seq⟩

/-! ## Table commands (R378, R386, R402, R403) -/

/-- Whether clauses of a node are in service. -/
def State.nodeServing (s : State) (i : Nat) : Bool := s.clauses.any (fun c => !c.block && c.node == i)

/-- Bits [63:0] of a node as they read. -/
def State.nodeRuntime (s : State) (i : Nat) : BitVec 64 :=
  BitVec.ofNat 64 ((s.gnode i).tokens.length % 16 * 2 ^ 60 + b2n (!(s.firings i).isEmpty) * 2 ^ 59 + b2n (s.nodeServing i) * 2 ^ 58)

/-- The fields of LSCH.CMD that a write sets. -/
def lschCmdMask : Nat := 3 * 2 ^ 60 + 3 * 2 ^ 56 + (2 ^ 16 - 1) * 2 ^ 32

/-- A write of LSCH.CMD. -/
def State.lschCmdWrite (s : State) (v : BitVec 64) : State :=
  s.startCmd R.lschCmd F.lschCmd_status R.lschStatus F.lschStatus_cmdCollide F.lschStatus_ready 3 lschCmdMask v

/-- The size of a table: 65,536 nodes (R378), 4,096 alarms (R381), and a binding for each event source, whose numbers end at 0x21FF
(R382). [DEDUCED, log entry 67] -/
def lschSize (t : Nat) : Nat := if t = 0 then 65536 else if t = 1 then 4096 else if t = 2 then 8704 else 0

/-- Bits [127:64] of a node that a write sets. -/
def nodeMask : Nat := 2 ^ 64 - 2 ^ 6

/-- A node's tokens and pending firings are discarded (R386). -/
def State.dropNode (s : State) (i : Nat) : State :=
  let n := s.gnode i
  let s := (s.lschCount 6 n.tokens.length).lschCount 7 (s.firings i).length
  let s := s.setGnode i { n with tokens := [] }
  { s with lsch := { s.lsch with ready := s.lsch.ready.filter (fun f => f.block || f.node != i) } }

/-- A WRITE of a node, with its status. -/
def State.writeGnode (s : State) (i : Nat) (d : BitVec 64) : State × Nat :=
  let d := BitVec.ofNat 64 (d.toNat &&& nodeMask)
  if !bitOf d.toNat 63 then
    let s := s.dropNode i
    (s.setGnode i { s.gnode i with cfg := d }, 0)
  else if bitsOf d.toNat 62 61 = 3 then (s, 5)
  else if !(s.gnode i).tokens.isEmpty || !(s.firings i).isEmpty || s.nodeServing i then (s, 4)
  else (s.setGnode i { s.gnode i with cfg := d }, 0)

/-- An LSCH command ends. [DEDUCED, log entry 67] -/
def State.lschCmdDone (s : State) : State :=
  if s.fld R.lschCmd F.lschCmd_status ≠ 1 ∨ !s.clusterUp 0 then s
  else
    let t := s.fld R.lschCmd F.lschCmd_table
    let i := s.fld R.lschCmd F.lschCmd_index
    let op := s.fld R.lschCmd F.lschCmd_op
    let fin := fun (s : State) (st : Nat) => (s.setFld R.lschCmd F.lschCmd_status st).pmcEvent 0x9A 5
    let both := fun (s : State) (e : BitVec 128) =>
      (s.setReg R.lschData0 (BitVec.ofNat 64 (e.toNat / 2 ^ 64))).setReg R.lschData1 (BitVec.ofNat 64 e.toNat)
    let data := BitVec.ofNat 128 ((s.reg R.lschData0).toNat * 2 ^ 64 + (s.reg R.lschData1).toNat)
    if lschSize t ≤ i ∨ 2 ≤ op then fin s 2
    else if t = 0 then
      if op = 0 then fin ((s.setReg R.lschData0 (s.gnode i).cfg).setReg R.lschData1 (s.nodeRuntime i)) 0
      else let (s', st) := s.writeGnode i (s.reg R.lschData0); fin s' st
    else if t = 1 then
      if op = 0 then fin (both s (s.alarm i)) 0
      else
        let e := mkAlarm (alarmValid data) (alarmNode data) (alarmFrame data) (alarmCell data) (alarmPeriod data) (alarmMissed (s.alarm i))
        fin (s.armAlarm i e) 0
    else
      if op = 0 then fin (both s (Tbl.get (fun _ => 0) s.lsch.bindings i)) 0
      else
        let e := BitVec.ofNat 128 (data.toNat / 2 ^ 111 * 2 ^ 111)
        fin { s with lsch := { s.lsch with bindings := Tbl.set (fun _ => 0) s.lsch.bindings i e } } 0

/-! ## Events (R382) -/

/-- An event source is raised: its bound node fires, or it is counted. -/
def State.eventRaise (s : State) (src : Nat) : State :=
  if !s.clusterUp 0 then s
  else
    match takeFirst (· == src) s.edges with
    | none => s
    | some (_, rest) =>
      let s := { s with edges := rest }
      match s.binding src with
      | some n => s.fireNode n 2 false src
      | none => s.lschCount 9

/-! ## The loader (R394, R395) -/

/-- The section `i` of an image whose bytes start at cell `a`: core mask, code offset and length, data offset and length. -/
def State.imgSection (s : State) (a i : Nat) : Nat × Nat × Nat × Nat × Nat :=
  let b := s.readBytes (a + 0x20 + 32 * i) 24
  (beNat (b.take 8), beNat ((b.drop 8).take 4), beNat ((b.drop 12).take 4), beNat ((b.drop 16).take 4), beNat ((b.drop 20).take 4))

/-- Whether core masks overlap. -/
def masksMeet : Nat → List Nat → Bool
  | _, [] => false
  | seen, m :: t => (seen &&& m) != 0 || masksMeet (seen ||| m) t

/-- The check of an image (R395): 0 when right, else the CAUSE. -/
def State.imgCheck (s : State) (a : Nat) : Nat :=
  let h := s.readBytes a 32
  let total := beNat ((h.drop 16).take 4)
  let n := beNat ((h.drop 20).take 4)
  if beNat (h.take 4) ≠ 0x4B5A4C54 then 1
  else if beNat ((h.drop 4).take 4) ≠ 1 then 2
  else if total < 0x24 ∨ crc32 (bitsOfBytes (s.readBytes a (total - 4))) ≠ beNat (s.readBytes (a + total - 4) 4) then 3
  else
    let secs := (List.range n).map (s.imgSection a)
    if n = 0 ∨ 16 < n ∨ secs.any (fun (_, co, cl, d, dl) => cl % 4 != 0 || decide (cl < 1024) || decide (32768 < cl) ||
        decide (131072 < dl) || decide (total < co + cl + 4) || decide (total < d + dl + 4) || decide (co < 0x220) ||
        (dl != 0 && decide (d < 0x220))) then 4
    else if masksMeet 0 (secs.map (·.1)) then 5
    else 0

/-- The words of big-endian code bytes. -/
def codeWords : Nat → List Byte → List (BitVec 32)
  | 0, _ => []
  | n + 1, l => BitVec.ofNat 32 (beNat (l.take 4)) :: codeWords n (l.drop 4)

/-- Fill a bank of 8,192 instructions, zero words behind the code (R407). -/
def fillBank (code : Tbl (BitVec 32)) (bank : Nat) (ws : List (BitVec 32)) : Tbl (BitVec 32) :=
  let clean := Tbl.keep (fun k => k / 8192 != bank) code
  ((List.range ws.length).zip ws).foldl (fun t e => Tbl.set (fun _ => 0) t (bank * 8192 + e.1) e.2) clean

/-- Clauses of a core that still run on a bank. -/
def State.bankUsers (s : State) (c bank : Nat) : Nat := (s.clauses.filter (fun k => k.core == c && k.bank == bank)).length

/-- Write section `i` to core `c`; `cold` also loads its data, and the bank becomes active unless the line position is awaited
(R395, R398). -/
def State.loadCore (s : State) (a i c : Nat) (later : Bool) : State :=
  let (_, co, cl, d, dl) := s.imgSection a i
  let k := s.core c
  let b := 1 - k.active
  let code := fillBank k.code b (codeWords (cl / 4) (s.readBytes (a + co) cl))
  let k := { k with code := code, section0 := if b = 0 then i else k.section0, section1 := if b = 1 then i else k.section1 }
  if k.activeLoaded then s.setCore c { k with standbyLoaded := true }
  else
    let s := s.writeBytes (spaceBase c) (s.readBytes (a + d) dl)
    if later then
      let s := s.setCore c { k with standbyLoaded := true }
      { s with lsch := { s.lsch with becoming := s.lsch.becoming ++ [c] } }
    else s.setCore c { k with active := b, activeLoaded := true, standbyLoaded := false }

/-- Load every section of an image onto those of its cores that a predicate selects. [DEDUCED, log entry 104] -/
def State.loadImage (s : State) (a : Nat) (p : Nat → Bool) (later : Bool) : State :=
  let n := beNat (s.readBytes (a + 20) 4)
  (List.range n).foldl (fun s i =>
    ((List.range 64).filter (fun c => p c && bitOf (s.imgSection a i).1 c)).foldl (fun s c => s.loadCore a i c later) s) s

/-- The image at LSCH.IMG_ADDR, as a cell. -/
def State.imgCell (s : State) : Nat := spaceBase 66 + s.fld R.lschImgAddr F.lschImgAddr_offset / 8 * 8

/-- Whether the image's header and its TOTAL_LEN lie within the program area. -/
def State.imgInArea (s : State) : Bool :=
  let o := s.fld R.lschImgAddr F.lschImgAddr_offset / 8 * 8
  s.areaGib != 0 && decide (o + 32 ≤ s.areaGib * 2 ^ 30) &&
    decide (o + beNat (s.readBytes (s.imgCell + 16) 4) ≤ s.areaGib * 2 ^ 30)

/-- A write of LSCH.LOAD_CTL: OP = LOAD starts the loader. -/
def State.lschLoad (s : State) (v : BitVec 64) : State :=
  if v.toNat % 4 ≠ 1 ∨ s.lsch.loading ∨ !s.clusterUp 0 then s
  else ({ s with lsch := { s.lsch with loading := true } }.setFld R.lschLoadCtl F.lschLoadCtl_status 1).setFld R.lschLoadCtl F.lschLoadCtl_cause 0

/-- The core masks of the image, section by section. -/
def State.imgMasks (s : State) (a : Nat) : List (BitVec 64) :=
  (List.range (beNat (s.readBytes (a + 20) 4))).map (fun i => BitVec.ofNat 64 (s.imgSection a i).1)

/-- The cores an image names. -/
def Image.cores (m : Image) : List Nat := (List.range 64).filter (fun c => m.masks.any (fun w => bitOf w.toNat c))

/-- The loader ends: the load that was asked for, or the reload of a cluster after its restart or its wake (R395, R398, R525). -/
def State.loadDone (s : State) : State :=
  let fin := fun (s : State) (st cause : Nat) =>
    (({ s with lsch := { s.lsch with loading := false } }.setFld R.lschLoadCtl F.lschLoadCtl_status st).setFld R.lschLoadCtl
      F.lschLoadCtl_cause cause).gateEvent 4
  let a := s.imgCell
  if !s.clusterUp 0 then s
  else if s.lsch.loading then
    if !s.imgInArea then fin s 4 0
    else
      let e := s.imgCheck a
      if e ≠ 0 then fin s 2 e
      else
        let img : Image := ⟨BitVec.ofNat 64 (beNat (s.readBytes (a + 8) 8)), s.imgMasks a⟩
        if img.cores.any (fun c => decide (0 < s.bankUsers c (1 - (s.core c).active))) then fin s 3 0
        else
          let s := s.loadImage a (fun c => s.domOn (1 + c / 32)) false
          fin { s with lsch := { s.lsch with image := some img } } 0 0
  else
    match s.lsch.reload with
    | [] => s
    | k :: rest =>
      let s := { s with lsch := { s.lsch with reload := rest } }
      if !s.clusterUp k ∨ !s.imgInArea ∨ s.imgCheck a ≠ 0 then s
      else s.loadImage a (fun c => c / 32 == k) true

/-- At a frame boundary the banks of reloaded cores become active (R398). -/
def State.banksBecome (s : State) : State :=
  let s' := s.lsch.becoming.foldl (fun s c =>
    let k := s.core c
    if k.standbyLoaded ∧ !k.activeLoaded then
      s.setCore c { k with active := 1 - k.active, activeLoaded := true, standbyLoaded := false }
    else s) s
  { s' with lsch := { s'.lsch with becoming := [] } }

/-! ## Swaps (R396, R500) -/

/-- The swap record waits in MBOX's queue of four, or is counted. -/
def State.swapRecord (s : State) (r : List (BitVec 64)) : State :=
  if 4 ≤ s.preura.swaps.length then s.count R.mboxStatus F.mboxStatus_swapLost
  else { s with preura := { s.preura with swaps := s.preura.swaps ++ [r] } }

/-- Every core of the image makes its standby bank active, one that lost it to a restart since the ARM apart. -/
def State.doSwap (s : State) (img : Image) : State :=
  let s := img.cores.foldl (fun s c =>
    let k := s.core c
    if k.standbyLoaded then s.setCore c { k with active := 1 - k.active, activeLoaded := true, standbyLoaded := false } else s) s
  let t := s.stamp 0
  let target := s.fld R.lschSwapF F.lschSwapF_f % 2 ^ 43 * 2 ^ 21 + s.fld R.lschSwapCtl F.lschSwapCtl_cell
  let cores := img.cores.foldl (fun n c => n + 2 ^ c) 0
  ((s.setBit R.lschSwapCtl F.lschSwapCtl_armed false).lschCount 14).swapRecord
    [img.ident, BitVec.ofNat 64 target, t.hiWord, t.loWord, BitVec.ofNat 64 cores]

/-- Whether LOAD_CTL shows DONE and STANDBY_LOADED holds on every core of the image last loaded. -/
def State.swapReady (s : State) : Option Image :=
  match s.lsch.image with
  | none => none
  | some img =>
    if s.fld R.lschLoadCtl F.lschLoadCtl_status = 0 ∧ !img.cores.isEmpty ∧ img.cores.all (fun c => (s.core c).standbyLoaded) then some img
    else none

/-- A write of LSCH.SWAP_CTL: the target cell, W1C flags, and OP ARM or CANCEL. [DEDUCED, log entry 104] -/
def State.swapCtlWrite (s : State) (v : BitVec 64) : State :=
  let s := if bitOf v.toNat 4 then s.setBit R.lschSwapCtl F.lschSwapCtl_refused false else s
  let s := if bitOf v.toNat 3 then s.setBit R.lschSwapCtl F.lschSwapCtl_late false else s
  let s := s.setFld R.lschSwapCtl F.lschSwapCtl_cell (bitsOf v.toNat 52 32)
  match v.toNat % 4 with
  | 1 =>
    match s.swapReady with
    | none => s.latch R.lschSwapCtl F.lschSwapCtl_refused
    | some img =>
      let s := s.setBit R.lschSwapCtl F.lschSwapCtl_armed true
      if s.lpValid ∧ s.lpPassed (s.fld R.lschSwapF F.lschSwapF_f) (min 1062499 (s.fld R.lschSwapCtl F.lschSwapCtl_cell)) then
        (s.latch R.lschSwapCtl F.lschSwapCtl_late).doSwap img
      else s
  | 2 => s.setBit R.lschSwapCtl F.lschSwapCtl_armed false
  | _ => s

/-- The line position reaches the swap target. -/
def State.swapTarget (s : State) : State :=
  if s.bit R.lschSwapCtl F.lschSwapCtl_armed ∧ s.lpValid ∧
      s.lpPassed (s.fld R.lschSwapF F.lschSwapF_f) (min 1062499 (s.fld R.lschSwapCtl F.lschSwapCtl_cell)) then
    match s.lsch.image with
    | some img => s.doSwap img
    | none => s
  else s

/-! ## The program area (R377) -/

/-- A write of LSCH.HBM_AREA: refused where it would take cells that hold packets or leave the DN region below 4 GiB. -/
def State.hbmAreaWrite (s : State) (v : BitVec 64) : State :=
  let g := min 8 (v.toNat % 16)
  let up := s.fld R.qmHbmCfg F.qmHbmCfg_upGib
  if s.hbmGib < up + g + 4 ∨ (s.hbmGib - up - g) * cellsPerGib < s.hbmUsed .dn then s.latch R.lschStatus F.lschStatus_areaRefused
  else s.setFld R.lschHbmArea F.lschHbmArea_gib (v.toNat % 16)

/-! ## Restart of a cluster (R398) -/

/-- Every clause of cluster `k` ends FAULTED with CLUSTER_RESTART; `code` and class are those of the record. -/
def State.clusterFaults (s : State) (k : Nat) : State :=
  let mine := s.inService.filter (fun e => e.1 / 32 == k)
  let s := ((List.range 32).map (· + 32 * k)).foldl (fun s c =>
    s.setCore c { s.core c with ctxs := [], swapBuf := none, posted := [] }) s
  let s := { s with lsch := { s.lsch with saved := s.lsch.saved.filter (fun e => e.1 / 32 != k) } }
  mine.foldl (fun s e =>
    match e.2.clause with
    | none => s
    | some cl => s.clauseFaults cl e.2 (Src.lim0 + k) 2 Exc.clusterRestart e.2.pc.toNat (s.fetchLim cl.core e.2 cl).toNat 0) s

/-- The cluster's banks and memories are cleared. -/
def State.clearCluster (s : State) (k : Nat) : State :=
  let cs := (List.range 32).map (· + 32 * k)
  let s := cs.foldl (fun s c => (s.setCore c {}).clearSpace c) s
  s.clearSpace (64 + k)

/-- The latch bank restarts: every latch held returns BROKEN and no clause holds one any more. [DEDUCED, log entry 102] -/
def State.latchRestart (s : State) : State :=
  let s := s.lsch.latches.foldl (fun s e => if e.2.holder.isSome then s.breakLatches [e.1] else s) s
  s.mapCtxs (fun t => { t with clause := t.clause.map (fun cl => { cl with latches := [] }) })

/-- A class D fault on cluster `k`. [DEDUCED, log entry 113] -/
def State.clusterLost (s : State) (k : Nat) : State :=
  let s := (s.clusterFaults k).clearCluster k
  if k = 0 then
    let s := s.latchRestart.setBit R.lschStatus F.lschStatus_restarting true
    { s with lsch := { s.lsch with loading := false } }
  else s

/-- The restart of a cluster ends: LSCH works again, the loader reloads the cluster's cores; alarms and blocks whose targets passed
meanwhile are LATE. [DEDUCED, log entries 102 and 114] -/
def State.clusterBack (s : State) (k : Nat) : State :=
  let s := { s with lsch := { s.lsch with reload := s.lsch.reload ++ [k] } }
  if k = 0 then
    let s := s.setBit R.lschStatus F.lschStatus_restarting false
    if s.lpValid then s.alarmsPassed.blocksPassed else s
  else s

end Sys2Proof.Machine
end

