-- ==== Sys2Proof/Machine/LimExec.lean ====
section
/-!
DEFINITION. What each Limtin instruction does (R412 to R430): an instruction answers the state after it, or the exception it raises
(R431, R432). An instruction that must wait answers the state unchanged.
-/

namespace Sys2Proof.Machine

/-- The outcome of an instruction. -/
abbrev LimOut := Except Nat State

/-- imm14 sign-extended and zero-extended (R413). -/
def sImm (i : BitVec 14) : BitVec 64 := i.signExtend 64
def zImm (i : BitVec 14) : BitVec 64 := i.setWidth 64

/-- 1 or 0. -/
def flag (b : Bool) : BitVec 64 := if b then 1 else 0

/-- A mask of `n` ones. -/
def ones (n : Nat) : BitVec 64 := BitVec.ofNat 64 (2 ^ n - 1)

/-- Write a result and go on. -/
def State.limPut (s : State) (c x : Nat) (t : Ctx) (rd : BitVec 5) (v : BitVec 64) : LimOut := .ok (s.setCtx c x (t.setG rd v).forth)

/-- Go on. -/
def State.limNext (s : State) (c x : Nat) (t : Ctx) : LimOut := .ok (s.setCtx c x t.forth)

/-! ## Arithmetic, logic, bit fields (R412, R414) -/

/-- The high 64 bits of an unsigned product. -/
def mulHigh (a b : BitVec 64) : BitVec 64 := BitVec.ofNat 64 (a.toNat * b.toNat / 2 ^ 64)

/-- EXT, EXTS and INS on a field of `len` bits at `lo`. -/
def extOp (a : BitVec 64) (lo len : Nat) : BitVec 64 := (a >>> lo) &&& ones len
def extsOp (a : BitVec 64) (lo len : Nat) : BitVec 64 := BitVec.ofInt 64 (sext len (extOp a lo len).toNat)
def insOp (d a : BitVec 64) (lo len : Nat) : BitVec 64 := (d &&& ~~~(ones len <<< lo)) ||| ((a &&& ones len) <<< lo)

/-- The value of a register or immediate operation, none for an instruction of another kind. -/
def aluResult (t : Ctx) : LimInstr → Option (BitVec 5 × BitVec 64)
  | .add rd ra rb => some (rd, t.gr ra + t.gr rb)
  | .sub rd ra rb => some (rd, t.gr ra - t.gr rb)
  | .and rd ra rb => some (rd, t.gr ra &&& t.gr rb)
  | .or rd ra rb => some (rd, t.gr ra ||| t.gr rb)
  | .xor rd ra rb => some (rd, t.gr ra ^^^ t.gr rb)
  | .shl rd ra rb => some (rd, t.gr ra <<< ((t.gr rb).toNat % 64))
  | .shr rd ra rb => some (rd, t.gr ra >>> ((t.gr rb).toNat % 64))
  | .sar rd ra rb => some (rd, (t.gr ra).sshiftRight ((t.gr rb).toNat % 64))
  | .mul rd ra rb => some (rd, t.gr ra * t.gr rb)
  | .mulhu rd ra rb => some (rd, mulHigh (t.gr ra) (t.gr rb))
  | .slt rd ra rb => some (rd, flag ((t.gr ra).slt (t.gr rb)))
  | .sltu rd ra rb => some (rd, flag ((t.gr ra).ult (t.gr rb)))
  | .seq rd ra rb => some (rd, flag (t.gr ra == t.gr rb))
  | .addi rd ra imm => some (rd, t.gr ra + sImm imm)
  | .subi rd ra imm => some (rd, t.gr ra - sImm imm)
  | .andi rd ra imm => some (rd, t.gr ra &&& zImm imm)
  | .ori rd ra imm => some (rd, t.gr ra ||| zImm imm)
  | .xori rd ra imm => some (rd, t.gr ra ^^^ zImm imm)
  | .shli rd ra amt => some (rd, t.gr ra <<< amt.toNat)
  | .shri rd ra amt => some (rd, t.gr ra >>> amt.toNat)
  | .sari rd ra amt => some (rd, (t.gr ra).sshiftRight amt.toNat)
  | .slti rd ra imm => some (rd, flag ((t.gr ra).slt (sImm imm)))
  | .sltui rd ra imm => some (rd, flag ((t.gr ra).ult (zImm imm)))
  | .seqi rd ra imm => some (rd, flag (t.gr ra == sImm imm))
  | .shori rd ra imm => some (rd, (t.gr ra <<< 14) ||| zImm imm)
  | .ext rd ra lo len1 => some (rd, extOp (t.gr ra) lo.toNat (len1.toNat + 1))
  | .exts rd ra lo len1 => some (rd, extsOp (t.gr ra) lo.toNat (len1.toNat + 1))
  | .ins rd ra lo len1 => some (rd, insOp (t.gr rd) (t.gr ra) lo.toNat (len1.toNat + 1))
  | _ => none

/-! ## Loads, stores, XADD (R415) -/

/-- The cell of an access of `n` bytes at `a`, or its exception: ALIGN before MEMORY. [DEDUCED, log entry 108] -/
def State.access (s : State) (c a n : Nat) (hbm : Bool) : Except Nat Nat :=
  if a % n ≠ 0 then .error Exc.align
  else match s.limCell c a n hbm with
    | none => .error Exc.memory
    | some k => .ok k

/-- A load: the context waits for its data. [DEDUCED, log entry 95] -/
def State.limLoad (s : State) (c x : Nat) (t : Ctx) (rd ra : BitVec 5) (imm : BitVec 14) (n : Nat) : LimOut :=
  let a := (t.gr ra + sImm imm).toNat
  match s.access c a n true with
  | .error e => .error e
  | .ok _ => .ok (s.setCtx c x { t with wait := some (.load rd.toNat a n) })

/-- A store of the low `n` bytes. [DEDUCED, log entry 95] -/
def State.limStore (s : State) (c x : Nat) (t : Ctx) (rs ra : BitVec 5) (imm : BitVec 14) (n : Nat) : LimOut :=
  let a := (t.gr ra + sImm imm).toNat
  match s.access c a n true with
  | .error e => .error e
  | .ok k => (s.writeBytes k (beBytes n ((t.gr rs).toNat % 256 ^ n))).limNext c x t

/-- XADD: the context waits for the memory. [DEDUCED, log entry 95] -/
def State.limXadd (s : State) (c x : Nat) (t : Ctx) (rd ra rb : BitVec 5) : LimOut :=
  let a := (t.gr ra).toNat
  match s.access c a 8 false with
  | .error e => .error e
  | .ok _ => .ok (s.setCtx c x { t with wait := some (.xadd rd.toNat a (t.gr rb)) })

/-! ## Branches (R416, R417) -/

/-- Whether a target is valid. -/
def targetOk (cl : Clause) (a : Nat) : Bool :=
  decide (a ≤ 0x1FFF) || (cl.block && decide (0x10000 ≤ a) && decide (a ≤ 0x10000 + cl.lenM1))

/-- Take a branch to `a`, writing g31 where `link`; `a` is an integer before it is checked. -/
def State.limJump (s : State) (c x : Nat) (t : Ctx) (cl : Clause) (a : Int) (link : Bool) (ok : Bool) : LimOut :=
  if a < 0 ∨ !targetOk cl a.toNat ∨ !ok then .error Exc.branchRange
  else
    let t := if link then t.setG 31 ((t.pc + 1).setWidth 64) else t
    .ok (s.setCtx c x { t with pc := BitVec.ofNat 17 a.toNat })

/-- A format C branch: its target lies in the space of the branch. -/
def State.limBranch (s : State) (c x : Nat) (t : Ctx) (cl : Clause) (taken : Bool) (off : BitVec 20) (link : Bool) : LimOut :=
  if !taken then s.limNext c x t
  else
    let a : Int := t.pc.toNat + off.toInt
    s.limJump c x t cl a link (decide (0x10000 ≤ t.pc.toNat) == decide (0x10000 ≤ a))

/-- JR and CALLR. -/
def State.limJr (s : State) (c x : Nat) (t : Ctx) (cl : Clause) (ra : BitVec 5) (link : Bool) : LimOut :=
  s.limJump c x t cl (t.gr ra).toNat link (decide ((t.gr ra).toNat < 2 ^ 17))

/-! ## Control space (R418, R419) -/

/-- The address of format D. -/
def ctlAddr (unit : BitVec 8) (word : BitVec 12) : Nat := unit.toNat * 2 ^ 32 + 8 * word.toNat

/-- A read: refused at once under R24, else the context waits. [DEDUCED, log entry 95] -/
def State.limCtlRead (s : State) (c x : Nat) (t : Ctx) (rd : BitVec 5) (a : Nat) : LimOut :=
  if !s.accessOk a then .error Exc.ctlAccess else .ok (s.setCtx c x { t with wait := some (.ctl rd.toNat a) })

/-- A posted write, behind at most 15 others of the core. [DEDUCED, log entry 95] -/
def State.limCtlWrite (s : State) (c x : Nat) (t : Ctx) (cl : Clause) (a : Nat) (v : BitVec 64) (w : BitVec 32) : LimOut :=
  if 16 ≤ (s.core c).posted.length then .ok s
  else
    let k := s.core c
    (s.setCore c { k with posted := k.posted ++ [⟨a, v, cl.uid, t.pc.toNat, w.toNat⟩] }).limNext c x t

/-! ## Waiting for earlier writes, and for LSCH (R376, R398, R423) -/

/-- Whether control-space writes of a clause have still to land. -/
def State.writesOut (s : State) (c : Nat) (cl : Clause) : Bool := (s.core c).posted.any (fun w => w.uid == cl.uid)

/-- An instruction that waits until every earlier write of its clause has landed. [DEDUCED, log entry 96] -/
def State.afterWrites (s : State) (c : Nat) (cl : Clause) (r : LimOut) : LimOut := if s.writesOut c cl then .ok s else r

/-- An instruction that stops while LSCH restarts. [DEDUCED, log entry 96] -/
def State.whileLsch (s : State) (r : LimOut) : LimOut := if s.clusterUp 0 then r else .ok s

/-! ## Dataflow (R380, R423) -/

/-- One token to a node, or its exception. [DEDUCED, log entry 97] -/
def State.limToken (s : State) (c x : Nat) (t : Ctx) (node : Nat) (v : BitVec 64) : LimOut :=
  match s.token node v with
  | (_, 1) => .error Exc.nodeInvalid
  | (s', 0) => s'.limNext c x t
  | (_, _) => .error Exc.tokenFull

/-- EMIT. [DEDUCED, log entry 110] -/
def State.limEmit (s : State) (c x : Nat) (t : Ctx) (cl : Clause) (ra : BitVec 5) (k : BitVec 10) : LimOut :=
  if cl.block ∨ cl.sentLenM1 < k.toNat then .error Exc.emitRange
  else s.limToken c x t ((cl.sentBase + k.toNat) % 65536) (t.gr ra)

/-- EMITX. -/
def State.limEmitx (s : State) (c x : Nat) (t : Ctx) (ra rb : BitVec 5) : LimOut :=
  if 65536 ≤ (t.gr rb).toNat then .error Exc.badOperand else s.limToken c x t (t.gr rb).toNat (t.gr ra)

/-- END (R386, R425). -/
def State.limEnd (s : State) (c x : Nat) (t : Ctx) (cl : Clause) : LimOut :=
  if !cl.latches.isEmpty then .error Exc.latchHeld
  else if !t.objects.isEmpty then .error Exc.handleHeld
  else .ok ((s.setCtx c x {}).clauseEnds cl (t.gr 2))

/-! ## Alarms and time (R421, R422) -/

/-- ARM. [DEDUCED, log entry 105] -/
def State.limArm (s : State) (c x : Nat) (t : Ctx) (rd ra rb : BitVec 5) : LimOut :=
  let w := (t.gr rb).toNat
  let i := bitsOf w 11 0
  if bitOf w 63 then
    let e := s.alarm i
    (s.armAlarm i (mkAlarm false (alarmNode e) (alarmFrame e) (alarmCell e) (alarmPeriod e) 0)).limPut c x t rd 2
  else
    let lp := t.gr ra
    let cell := lp.toNat % 2 ^ 21
    if bitsOf w 62 44 ≠ 0 ∨ 1062499 < cell then .error Exc.badOperand
    else
      let f := s.lpFrame lp
      let rc : BitVec 64 := if !s.lpValid then 3 else if s.lpPassed f cell then 1 else 0
      (s.armAlarm i (mkAlarm true (bitsOf w 27 12) f cell (bitsOf w 43 28) 0)).limPut c x t rd rc

/-- TCAP. -/
def State.limTcap (s : State) (c x : Nat) (t : Ctx) (rd : BitVec 5) (sel : BitVec 10) : LimOut :=
  let cap := fun (f : Capture → BitVec 64) => (t.capture.map f).getD 0
  match sel.toNat with
  | 0 => s.limPut c x { t with capture := some ⟨s.lpWord, s.stamp (0x700 + c), s.reg R.timeStatus⟩ } rd s.lpWord
  | 1 => s.limPut c x t rd (cap (fun k => k.stamp.hiWord))
  | 2 => s.limPut c x t rd (cap (fun k => k.stamp.loWord))
  | 3 => s.limPut c x t rd (cap (fun k => k.stamp.short))
  | 4 => s.limPut c x t rd (cap (fun k => k.status))
  | _ => .error Exc.badOperand

/-! ## Latches (R387, R424) -/

/-- ACQ: a free latch that nobody waits for is granted, else the context waits. [DEDUCED, log entries 100 and 110] -/
def State.limAcq (s : State) (c x : Nat) (t : Ctx) (cl : Clause) (rd ra : BitVec 5) (imm : BitVec 10) : LimOut :=
  let n := (t.gr ra + imm.setWidth 64).toNat
  if 1024 ≤ n then .error Exc.latchRange
  else if 8 ≤ cl.latches.length ∨ cl.latches.any (fun m => decide (n ≤ m)) then .error Exc.latchOrder
  else
    let s := s.setCtx c x { t with wait := some (.latch rd.toNat n) }
    if (s.lbank n).holder.isNone ∧ !s.lsch.waits.any (fun w => w.2 == n) then .ok (s.grantTo n cl.uid)
    else .ok { s with lsch := { s.lsch with waits := s.lsch.waits ++ [(cl.uid, n)] } }

/-- REL. -/
def State.limRel (s : State) (c x : Nat) (t : Ctx) (cl : Clause) (ra : BitVec 5) (imm : BitVec 10) : LimOut :=
  let n := (t.gr ra + imm.setWidth 64).toNat
  if 1024 ≤ n then .error Exc.latchRange
  else if !cl.latches.contains n then .error Exc.latchNotHeld
  else
    (s.setLbank n { s.lbank n with holder := none }).limNext c x
      { t with clause := some { cl with latches := cl.latches.filter (· != n) } }

/-- LFIX. -/
def State.limLfix (s : State) (c x : Nat) (t : Ctx) (cl : Clause) (ra : BitVec 5) (imm : BitVec 10) : LimOut :=
  let n := (t.gr ra + imm.setWidth 64).toNat
  if 1024 ≤ n then .error Exc.latchRange
  else if !cl.latches.contains n then .error Exc.latchNotHeld
  else (s.setLbank n { s.lbank n with broken := false }).limNext c x t

/-! ## Packets and messages (R425 to R429) -/

/-- The slot and object a handle operand names. -/
def Ctx.operand (t : Ctx) (ra : BitVec 5) : Option (Nat × Held) :=
  let h := (t.gr ra).toNat
  if 4 ≤ h then none else (t.handle h).map (fun o => (h, o))

/-- Fill the lowest empty slot with an object, or answer -1 where nothing was obtained; HANDLE with every slot full. -/
def State.limTake (s : State) (c x : Nat) (t : Ctx) (rd : BitVec 5) (got : Option (Held × State)) : LimOut :=
  match t.emptySlot with
  | none => .error Exc.handle
  | some h =>
    match got with
    | none => s.limPut c x t rd (BitVec.allOnes 64)
    | some (o, s') => s'.limPut c x (t.setHandle h (some o)) rd (BitVec.ofNat 64 h)

/-- The head packet of a control-plane queue leaves it, charged (R276, R426); its cells stay held. -/
def State.takePacket (s : State) (q : Nat) : Option (Held × State) :=
  match s.head q with
  | none => none
  | some p =>
    let n := cellsOf p.pkt.bytes.length
    let s := ((s.chargePath q p.rest).removePkt q p.pkt.id).settle q
    some (⟨0, p.pkt, 0, 0⟩, s.setDieUsed p.pkt.dir (s.dieUsed p.pkt.dir + n))

/-- PTAKE. [DEDUCED, log entry 190] -/
def State.limPtake (s : State) (c x : Nat) (t : Ctx) (rd ra : BitVec 5) : LimOut :=
  let q := (t.gr ra).toNat
  if q < 0x3E00 ∨ 0x3FFF < q then .error Exc.badOperand else s.limTake c x t rd (s.takePacket q)

/-- The head of the message slow-path queue (R88): its envelope followed by its body. -/
def State.takeMessage (s : State) : Option (Held × State) :=
  match s.dfp.msgq with
  | [] => none
  | m :: rest =>
    let p : Pkt := { bytes := beBytes 8 m.env.toNat ++ m.body, dir := .dn, chan := 127, stamp := m.stamp }
    some (⟨1, p, m.plane, m.frame⟩, { s with dfp := { s.dfp with msgq := rest } })

/-- PNEW (R264): a zero-filled packet in the pool named. [DEDUCED, log entries 65 and 106] -/
def State.newPacket (s : State) (c : Nat) (v : Nat) : Option (Held × State) :=
  let n := v % 2 ^ 14
  let d : Dir := if bitOf v 14 then .dn else .up
  match s.takeCells d true (cellsOf n) with
  | none => none
  | some s => some (⟨2, { bytes := zeroBytes n, dir := d, chan := 127, stamp := s.stamp (0x700 + c), inject := true }, 0, 0⟩, s)

def State.limPnew (s : State) (c x : Nat) (t : Ctx) (rd ra : BitVec 5) : LimOut :=
  let v := (t.gr ra).toNat
  if 2 ^ 15 ≤ v ∨ v % 2 ^ 14 = 0 then .error Exc.badOperand else s.limTake c x t rd (s.newPacket c v)

/-- The byte offset of PLD and PST. -/
def Ctx.offset (t : Ctx) (rb : BitVec 5) (imm : BitVec 10) : Nat := (t.gr rb).toNat + imm.toNat

/-- PLD. [DEDUCED, log entry 110] -/
def State.limPld (s : State) (c x : Nat) (t : Ctx) (rd ra rb : BitVec 5) (imm : BitVec 10) : LimOut :=
  let o := t.offset rb imm
  if 16376 < o then .error Exc.badOperand
  else match t.operand ra with
    | none => .error Exc.handle
    | some (_, h) => s.limPut c x t rd (BitVec.ofNat 64 (beNat (takePad 8 (h.pkt.bytes.drop o))))

/-- PST. [DEDUCED, log entry 110] -/
def State.limPst (s : State) (c x : Nat) (t : Ctx) (rs ra rb : BitVec 5) (imm : BitVec 10) : LimOut :=
  let o := t.offset rb imm
  if 16376 < o then .error Exc.badOperand
  else match t.operand ra with
    | none => .error Exc.handle
    | some (n, h) =>
      let p := { h.pkt with bytes := patchBytes h.pkt.bytes o (beBytes 8 (t.gr rs).toNat) }
      s.limNext c x (t.setHandle n (some { h with pkt := p }))

/-- The cells a change of length takes or gives back; none where cells are short. Messages hold no cells of the pools. -/
def State.resizeCells (s : State) (h : Held) (n : Nat) : Option State :=
  let old := cellsOf h.pkt.bytes.length
  let new := cellsOf n
  if h.kind = 1 then some s
  else if new ≤ old then some (s.freeCells h.pkt.dir (old - new))
  else s.takeCells h.pkt.dir true (new - old)

/-- PLEN. -/
def State.limPlen (s : State) (c x : Nat) (t : Ctx) (rd ra rb : BitVec 5) : LimOut :=
  let n := (t.gr rb).toNat
  if n = 0 ∨ 16383 < n then .error Exc.badOperand
  else match t.operand ra with
    | none => .error Exc.handle
    | some (k, h) =>
      match s.resizeCells h n with
      | none => s.limPut c x t rd 1
      | some s => s.limPut c x (t.setHandle k (some { h with pkt := { h.pkt with bytes := takePad n h.pkt.bytes } })) rd 0

/-- The item PMETA returns (R427). -/
def metaItem (h : Held) (k : Nat) : BitVec 64 :=
  let p := h.pkt
  match k with
  | 0 => BitVec.ofNat 64 (h.kind * 2 ^ 14 + p.bytes.length % 2 ^ 14)
  | 1 => BitVec.ofNat 64 (beNat (metaBytes p))
  | 2 =>
    match p.reason with
    | some r => BitVec.ofNat 64 (p.edition % 2 ^ 16 * 2 ^ 12 + p.profile % 2 ^ 6 * 2 ^ 6 + p.check % 4 * 2 ^ 4 + r % 16)
    | none => 0
  | 3 => p.stamp.short
  | 4 => match p.seq with | some n => BitVec.ofNat 64 (2 ^ 16 + n % 2 ^ 16) | none => 0
  | _ => if h.kind = 1 then BitVec.ofNat 64 (h.plane % 32 * 2 ^ 48 + h.frame % 2 ^ 48) else 0

/-- PMETA. -/
def State.limPmeta (s : State) (c x : Nat) (t : Ctx) (rd ra : BitVec 5) (imm : BitVec 10) : LimOut :=
  if 5 < imm.toNat then .error Exc.badOperand
  else match t.operand ra with
    | none => .error Exc.handle
    | some (_, h) => s.limPut c x t rd (metaItem h imm.toNat)

/-- An object with its cells in the pool of a direction (R263): cells of the other pool are exchanged. [DEDUCED, log entry 106] -/
def State.cellsFor (s : State) (h : Held) (d : Dir) : Option State :=
  let n := cellsOf h.pkt.bytes.length
  if h.kind = 1 then s.takeCells d true n
  else if h.pkt.dir = d then some s
  else (s.takeCells d true n).map (fun s => s.freeCells h.pkt.dir n)

/-- PSEND (R428). [DEDUCED, log entries 106, 110, 121 and 190] -/
def State.limPsend (s : State) (c x : Nat) (t : Ctx) (cl : Clause) (rd ra rb : BitVec 5) : LimOut :=
  let v := (t.gr rb).toNat
  let act := bitsOf v 2 1
  let k := bitsOf v 15 8
  let d : Dir := if bitOf v 0 then .dn else .up
  if act = 1 ∧ (cl.block ∨ cl.sentLenM1 < k) then .error Exc.emitRange
  else if bitsOf v 7 3 ≠ 0 ∨ 2 ^ 16 ≤ v ∨ (act ≠ 1 ∧ k ≠ 0) then .error Exc.badOperand
  else match t.operand ra with
    | none => .error Exc.handle
    | some (n, h) =>
      let p : Pkt := { bytes := h.pkt.bytes, dir := d, chan := 127, stamp := s.stamp (0x700 + c), inject := true, act := act,
                       ret := if act ≠ 0 ∧ !cl.block then 1024 + (cl.sentBase + k) % 65536 else 0 }
      if s.pipeFull d (pipeOf p) then s.limPut c x t rd 1
      else match s.cellsFor h d with
        | none => s.limPut c x t rd 1
        | some s => (s.enterPipe p).limPut c x (t.setHandle n none) rd 0

/-- PFREE. -/
def State.limPfree (s : State) (c x : Nat) (t : Ctx) (ra : BitVec 5) : LimOut :=
  match t.operand ra with
  | none => .error Exc.handle
  | some (n, h) => (s.discardHeld h).limNext c x (t.setHandle n none)

/-- MPOST (R429): MCRC is computed, and the reserved bits of the envelope are sent as zero (R6, R74). -/
def State.limMpost (s : State) (c x : Nat) (t : Ctx) (rd ra rb : BitVec 5) : LimOut :=
  let mark := (t.gr rb).toNat
  if 2 < mark then .error Exc.badOperand
  else match t.operand ra with
    | none => .error Exc.handle
    | some (n, h) =>
      let b := h.pkt.bytes
      let e := setBitsOf (beNat (takePad 8 b)) 33 0 0
      let body := b.drop 8
      if 64 ≤ s.ubb.msgs.length then s.limPut c x t rd 1
      else if b.length ≠ 8 + bitsOf e 45 34 ∨ 4103 < b.length then s.limPut c x t rd 2
      else
        let s := (s.upPost (BitVec.ofNat 64 (e + messageCrc e body)) body mark).1
        (s.discardHeld h).limPut c x (t.setHandle n none) rd 0

/-- The entries MDROP withdraws. -/
def dropClass (k : Nat) (m : UpMsg) : Bool :=
  if k = 0 then true else if k = 1 then m.enrol else if k = 2 then m.pair else !m.enrol && !m.pair

/-- MDROP. -/
def State.limMdrop (s : State) (c x : Nat) (t : Ctx) (rd ra : BitVec 5) : LimOut :=
  let k := (t.gr ra).toNat % 4
  (s.withdraw (dropClass k)).limPut c x t rd (BitVec.ofNat 64 (s.ubb.msgs.filter (dropClass k)).length)

/-! ## Crypto requests (R366 to R368, R430) -/

/-- The eight words of a lookaside descriptor. -/
def laWords (b : List Byte) : List Nat := (List.range 8).map (fun i => beNat ((b.drop (8 * i)).take 8))

/-- Whether a lookaside descriptor is BAD_DESC (R368). -/
def laBad (w : List Nat) : Bool :=
  let op := bitsOf (w.getD 0 0) 63 62
  let aad := bitsOf (w.getD 2 0) 31 0
  let n := bitsOf (w.getD 3 0) 29 0
  let i := w.getD 5 0
  let o := w.getD 6 0
  op == 3 || decide (65536 < aad) || (op == 2 && n != 0) || (op != 2 && i != o && decide (i < o + n) && decide (o < i + n) && n != 0)

/-- The request of a descriptor, its data given. -/
def laRequest (w : List Nat) (q : Nat) (urgent bad busError : Bool) (aad text : List Byte) (tag : BitVec 128) : CiphReq :=
  { num := 0, who := .look q, urgent := urgent, op := bitsOf (w.getD 0 0) 63 62, slot := bitsOf (w.getD 0 0) 59 48,
    iv := BitVec.ofNat 96 (w.getD 1 0 * 2 ^ 32 + bitsOf (w.getD 2 0) 63 32), aad := aad, text := text, tag := tag,
    tagId := bitsOf (w.getD 0 0) 47 32, outAddr := w.getD 6 0, tagAddr := w.getD 7 0, bad := bad, busError := busError }

/-- Whether URGENT is honoured. -/
def State.laUrgent (s : State) (q : Nat) (w : List Nat) : Bool := bitOf (w.getD 0 0) 61 && s.bit (R.ciphLaqCfg q) F.ciphLaqCfg_urgentOk

/-- Place a request on a lookaside queue. [DEDUCED, log entry 107] -/
def State.laSubmit (s : State) (q : Nat) (r : CiphReq) : State :=
  let (n, s) := s.ciphSubmit r
  { s with ciph := { s.ciph with look := Tbl.set (fun _ => []) s.ciph.look q (Tbl.get (fun _ => []) s.ciph.look q ++ [{ r with num := n }]) } }

/-- Descriptors queued at a lookaside queue. -/
def State.laLevel (s : State) (q : Nat) : Nat := (Tbl.get (fun _ => []) s.ciph.look q).length

/-- Bytes a lookaside request of core `c` reads, none on a bus error. -/
def State.laRead (s : State) (c a n : Nat) : Option (List Byte) :=
  if n = 0 then some [] else (s.limCell c a n true).map (fun k => s.readBytes k n)

/-- CREQ. [DEDUCED, log entry 107] -/
def State.limCreq (s : State) (c x : Nat) (t : Ctx) (cl : Clause) (rd ra rb : BitVec 5) : LimOut :=
  let a := (t.gr ra).toNat
  let v := (t.gr rb).toNat
  let q := v % 64
  let k := bitsOf v 15 8
  let reply := !bitOf v 16
  if (if cl.block then reply else cl.sentLenM1 < k) then .error Exc.emitRange
  else if bitsOf v 7 6 ≠ 0 ∨ 2 ^ 17 ≤ v then .error Exc.badOperand
  else if a % 8 ≠ 0 then .error Exc.align
  else match s.limCell c a 64 true with
    | none => .error Exc.memory
    | some cell =>
      if !s.domTakes 6 ∨ s.restarting Src.ciph ∨ !s.bit (R.ciphLaqCfg q) F.ciphLaqCfg_en then s.limPut c x t rd 2
      else if s.bit (R.ciphLaqCfg q) F.ciphLaqCfg_src then s.limPut c x t rd 3
      else if 256 ≤ s.laLevel q then s.limPut c x t rd 1
      else
        let w := laWords (s.readBytes cell 64)
        let bad := laBad w
        let aad := s.laRead c (w.getD 4 0) (bitsOf (w.getD 2 0) 31 0)
        let text := s.laRead c (w.getD 5 0) (bitsOf (w.getD 3 0) 29 0)
        let tag := if bitsOf (w.getD 0 0) 63 62 = 1 then s.laRead c (w.getD 7 0) 16 else some []
        let bus := aad.isNone || text.isNone || tag.isNone
        let r := laRequest w q (s.laUrgent q w) bad (bus && !bad) (aad.getD []) (text.getD []) (BitVec.ofNat 128 (beNat (tag.getD [])))
        (s.laSubmit q { r with submitter := c, recAddr := a + 64, reply := if reply then some ((cl.sentBase + k) % 65536) else none }).limPut
          c x t rd 0

/-! ## One instruction -/

/-- What an instruction of a context's clause does. [DEDUCED, log entry 108] -/
def State.limStep (s : State) (c x : Nat) (t : Ctx) (cl : Clause) (w : BitVec 32) (i : LimInstr) : LimOut :=
  match i with
  | .ld rd ra imm => s.limLoad c x t rd ra imm 8
  | .lw rd ra imm => s.limLoad c x t rd ra imm 4
  | .lb rd ra imm => s.limLoad c x t rd ra imm 1
  | .st rs ra imm => s.limStore c x t rs ra imm 8
  | .sw rs ra imm => s.limStore c x t rs ra imm 4
  | .sb rs ra imm => s.limStore c x t rs ra imm 1
  | .xadd rd ra rb => s.limXadd c x t rd ra rb
  | .br off => s.limBranch c x t cl true off false
  | .bz ra off => s.limBranch c x t cl (t.gr ra == 0) off false
  | .bnz ra off => s.limBranch c x t cl (t.gr ra != 0) off false
  | .bltz ra off => s.limBranch c x t cl (t.gr ra).msb off false
  | .bgez ra off => s.limBranch c x t cl (!(t.gr ra).msb) off false
  | .call off => s.limBranch c x t cl true off true
  | .jr ra => s.limJr c x t cl ra false
  | .callr ra => s.limJr c x t cl ra true
  | .ctlr rd unit word => s.limCtlRead c x t rd (ctlAddr unit word)
  | .ctlw rs unit word => s.limCtlWrite c x t cl (ctlAddr unit word) (t.gr rs) w
  | .ctlrx rd ra => if 2 ^ 40 ≤ (t.gr ra).toNat then .error Exc.ctlAccess else s.limCtlRead c x t rd (t.gr ra).toNat
  | .ctlwx rs ra => if 2 ^ 40 ≤ (t.gr ra).toNat then .error Exc.ctlAccess else s.limCtlWrite c x t cl (t.gr ra).toNat (t.gr rs) w
  | .emit ra k => s.whileLsch (s.afterWrites c cl (s.limEmit c x t cl ra k))
  | .emitx ra rb => s.whileLsch (s.afterWrites c cl (s.limEmitx c x t ra rb))
  | .endClause => s.whileLsch (s.afterWrites c cl (s.limEnd c x t cl))
  | .fence => s.afterWrites c cl (s.limNext c x t)
  | .trap _ => s.afterWrites c cl (.error Exc.trap)
  | .arm rd ra rb => s.whileLsch (s.limArm c x t rd ra rb)
  | .tcap rd sel => s.limTcap c x t rd sel
  | .acq rd ra imm => s.whileLsch (s.limAcq c x t cl rd ra imm)
  | .rel ra imm => s.whileLsch (s.afterWrites c cl (s.limRel c x t cl ra imm))
  | .lfix ra imm => s.whileLsch (s.limLfix c x t cl ra imm)
  | .ptake rd ra => s.limPtake c x t rd ra
  | .mtake rd => s.limTake c x t rd s.takeMessage
  | .pnew rd ra => s.limPnew c x t rd ra
  | .pld rd ra rb imm => s.limPld c x t rd ra rb imm
  | .pst rs ra rb imm => s.limPst c x t rs ra rb imm
  | .plen rd ra rb => s.limPlen c x t rd ra rb
  | .pmeta rd ra imm => s.limPmeta c x t rd ra imm
  | .psend rd ra rb => s.limPsend c x t cl rd ra rb
  | .pfree ra => s.limPfree c x t ra
  | .mpost rd ra rb => s.limMpost c x t rd ra rb
  | .mdrop rd ra => s.limMdrop c x t rd ra
  | .creq rd ra rb => s.limCreq c x t cl rd ra rb
  | .add .. | .sub .. | .and .. | .or .. | .xor .. | .shl .. | .shr .. | .sar .. | .mul .. | .mulhu .. | .slt .. | .sltu .. | .seq ..
  | .addi .. | .subi .. | .andi .. | .ori .. | .xori .. | .shli .. | .shri .. | .sari .. | .slti .. | .sltui .. | .seqi .. | .shori ..
  | .ext .. | .exts .. | .ins .. =>
    match aluResult t i with
    | some (rd, v) => s.limPut c x t rd v
    | none => .error Exc.illegal

/-- Whether an instruction branches: one that may leave its context as it was. -/
def LimInstr.branches (i : LimInstr) : Bool :=
  match i with
  | .br _ | .bz _ _ | .bnz _ _ | .bltz _ _ | .bgez _ _ | .jr _ => true
  | _ => false

/-- Whether a context is runnable (R374): it runs a clause and waits neither for an access in flight or a latch nor, at its next instruction,
for what must have landed before it. [DESIGN CHOICE, log entry 94] -/
def State.runnable (s : State) (c x : Nat) : Bool :=
  let t := s.ctx c x
  match t.clause with
  | none => false
  | some cl =>
    let w := s.fetchLim c t cl
    t.wait.isNone && (t.refused.isSome ||
      (match decodeLim w with
      | none => true
      | some i => match s.limStep c x t cl w i with
        | .ok s' => i.branches || s'.ctx c x != t
        | .error _ => true))

/-- CK_LIM cycles until a runnable context can issue its next instruction: what is left of the 2 cycles behind a taken branch (R416) and
of the latency of a register the instruction uses (R412). [DESIGN CHOICE, log entry 94] -/
def State.issueDelay (s : State) (c x : Nat) : Nat :=
  let t := s.ctx c x
  let used := match t.clause with
    | none => []
    | some cl => ((decodeLim (s.fetchLim c t cl)).map LimInstr.reads).getD []
  ((t.slow.filter (fun e => used.any (fun r => r.toNat == e.1))).map (·.2)).foldl max t.stall

/-- The contexts of core `c` in turn, from the one behind the context that issued last. [DESIGN CHOICE, log entry 94] -/
def State.turns (s : State) (c : Nat) : List Nat := (List.range 4).map (fun i => ((s.core c).turn + 1 + i) % 4)

/-- Whether context `y` issues before context `x` where both can: it has a higher priority, or the same one and its turn comes first.
[DESIGN CHOICE, log entry 94] -/
def State.outranks (s : State) (c y x : Nat) : Bool :=
  let p := (s.ctx c y).prio
  let q := (s.ctx c x).prio
  decide (p < q) || (p == q && y != x && (s.turns c).find? (fun i => i == x || i == y) == some y)

/-- Whether core `c` can issue from context `x` (R374): it is runnable, and no runnable context that outranks it can issue as early.
[DESIGN CHOICE, log entry 94] -/
def State.mayIssue (s : State) (c x : Nat) : Bool :=
  s.runnable c x && (List.range 4).all (fun y =>
    !(s.runnable c y && s.outranks c y x && decide (s.issueDelay c y ≤ s.issueDelay c x)))

/-- Whether an instruction branches from a context as it stands (R416). -/
def LimInstr.taken (t : Ctx) : LimInstr → Bool
  | .br _ | .call _ | .jr _ | .callr _ => true
  | .bz a _ => t.gr a == 0
  | .bnz a _ => t.gr a != 0
  | .bltz a _ => (t.gr a).msb
  | .bgez a _ => !(t.gr a).msb
  | _ => false

/-- A context after `n` cycles of its core. -/
def Ctx.after (t : Ctx) (n : Nat) : Ctx :=
  { t with stall := t.stall - n, slow := (t.slow.map (fun e => (e.1, e.2 - n))).filter (fun e => decide (0 < e.2)) }

/-- What an instruction leaves its context waiting for: the 2 cycles behind a taken branch, the latency of its result. -/
def Ctx.holdOff (t : Ctx) (i : LimInstr) (taken : Bool) : Ctx :=
  if taken then { t with stall := 2 }
  else match i.latency with
    | some (d, n) => { t with slow := t.slow.filter (fun e => e.1 != d.toNat) ++ [(d.toNat, n - 1)] }
    | none => t

/-- The instruction of a context is done: its issue is counted, the turn passes on, and the cycles it waited for and its own pass for
every context of the core. [DESIGN CHOICE, log entry 94] -/
def State.issued (s : State) (c x n : Nat) : State :=
  let k := s.core c
  (s.setCore c { k with turn := x, ctxs := k.ctxs.map (fun e => (e.1, e.2.after n)) }).pmcEvent (0xA0 + c) 0x10

/-- A context issues its next instruction, which the command says is `i` (none: a word that raises ILLEGAL). Nothing happens where the
core does not issue from that context, or the context stands at another instruction; a refused posted write goes before everything
(R374, R419, R432). [DEDUCED, log entries 93 and 96; DESIGN CHOICE, log entry 94] -/
def State.limRun (s : State) (c x : Nat) (i : Option LimInstr) : State :=
  let t := s.ctx c x
  match t.clause with
  | none => s
  | some cl =>
    let w := s.fetchLim c t cl
    let n := s.issueDelay c x + 1
    if !s.mayIssue c x ∨ decodeLim w ≠ i then s
    else match t.refused with
      | some (pc, rw) => s.limFault c x Exc.ctlAccess pc rw
      | none =>
        match i with
        | none => s.limFault c x Exc.illegal t.pc.toNat w.toNat
        | some i =>
          match s.limStep c x t cl w i with
          | .ok s' =>
            let s' := s'.issued c x n
            let t' := s'.ctx c x
            (if t'.clause.isSome then s'.setCtx c x (t'.holdOff i (i.taken t)) else s').pmcEvent (0xA0 + c) 0x11
          | .error e => ((s.limFault c x e t.pc.toNat w.toNat).issued c x n).pmcEvent (0xA0 + c) 0x12

/-- The data of a load or of an XADD returns (R415). [DEDUCED, log entry 95] -/
def State.limReturn (s : State) (c x : Nat) : State :=
  let t := s.ctx c x
  let t' := { t with wait := none }
  let lost := fun (_ : Unit) =>
    match t.clause with
    | some cl => s.limFault c x Exc.memory t.pc.toNat (s.fetchLim c t cl).toNat
    | none => s
  match t.wait with
  | some (.load rd a n) =>
    match s.limCell c a n true with
    | none => lost ()
    | some k => s.setCtx c x (t'.setG (BitVec.ofNat 5 rd) (BitVec.ofNat 64 (beNat (s.readBytes k n)))).forth
  | some (.xadd rd a v) =>
    match s.limCell c a 8 false with
    | none => lost ()
    | some k =>
      let old := BitVec.ofNat 64 (beNat (s.readBytes k 8))
      (s.writeBytes k (beBytes 8 (old + v).toNat)).setCtx c x (t'.setG (BitVec.ofNat 5 rd) old).forth
  | _ => s

end Sys2Proof.Machine
end

