-- ==== Sys2Proof/Machine/Gates.lean ====
section
/-!
DEFINITION. The gate lists of scheduled traffic: the cycle of the operating list and the place in it (R309, R312).
-/

namespace Sys2Proof.Machine

/-- An entry of a gate-list bank. -/
def State.gclEntry (s : State) (k bank i : Nat) : BitVec 64 := Tbl.get (fun _ => 0) (s.port k).banks (1024 * bank + i)
def gclGates (w : BitVec 64) : Nat := bitsOf w.toNat 39 32
def gclInterval (w : BitVec 64) : Nat := bitsOf w.toNat 29 0

/-- OPER_BANK. -/
def State.operBank (s : State) (k : Nat) : Nat := s.fld (R.cliGclStatus k) F.cliGclStatus_operBank

/-- A stretch of the cycle: entry, gates and length in ns. -/
structure GateSpan where
  entry : Nat
  gates : Nat
  ns : Nat
  deriving DecidableEq, Repr

/-- The entries cut at the end of the cycle, `left` ns of which remain; the last one holds to its end. [DEDUCED, log entries 76 and 79] -/
def cutSpans : Nat → List GateSpan → List GateSpan
  | _, [] => []
  | left, [e] => if left = 0 then [] else [{ e with ns := left }]
  | left, e :: t => if left ≤ e.ns then (if left = 0 then [] else [{ e with ns := left }]) else e :: cutSpans (left - e.ns) t

/-- The cycle of the operating list of port `k`: entries of INTERVAL 0 are skipped. [DEDUCED, log entries 76 and 79] -/
def State.gateSpans (s : State) (k : Nat) : List GateSpan :=
  match (s.port k).oper with
  | none => []
  | some (m1, cycle, _) =>
    let all := (List.range (m1 + 1)).map (fun i =>
      let w := s.gclEntry k (s.operBank k) i
      (⟨i, gclGates w, gclInterval w⟩ : GateSpan))
    match all.filter (fun e => e.ns != 0) with
    | [] => cutSpans cycle (all.drop m1)
    | l => cutSpans cycle l

/-- The gates of port `k` (R309). -/
def State.gates (s : State) (k : Nat) : Nat :=
  if (s.port k).oper.isSome then s.fld (R.cliGclStatus k) F.cliGclStatus_gates
  else s.fld (R.cliGclCtl k) F.cliGclCtl_adminGates

/-- Show an entry as the current one. -/
def State.showSpan (s : State) (k : Nat) (e : GateSpan) : State :=
  (s.setFld (R.cliGclStatus k) F.cliGclStatus_gates e.gates).setFld (R.cliGclStatus k) F.cliGclStatus_index e.entry

/-- The place of the current entry in the cycle. -/
def State.spanIndex (s : State) (k : Nat) : Nat :=
  let i := s.fld (R.cliGclStatus k) F.cliGclStatus_index
  ((s.gateSpans k).findIdx? (fun e => e.entry == i)).getD 0

/-- The entry in force at a place of the cycle, with what has passed of it, both in 2^-16 ns. -/
def spanAt : Nat → List GateSpan → Option (GateSpan × Nat)
  | _, [] => none
  | pos, e :: t => if pos < e.ns * 65536 then some (e, pos) else spanAt (pos - e.ns * 65536) t

/-- The position in the cycle at the present time. -/
def State.gatePos (s : State) (k : Nat) : Option (GateSpan × Nat) :=
  match (s.port k).oper with
  | none => none
  | some (_, cycle, start) => spanAt (((s.timeNow - start) % ((cycle * 65536 : Nat) : Int)).toNat) (s.gateSpans k)

/-- After a step of time, or a change between medium and local time, the position is recomputed (R312). [DEDUCED, log entry 76] -/
def State.gateResync (s : State) : State :=
  s.cli.ports.foldl (fun s e => match s.gatePos e.1 with | some (x, _) => s.showSpan e.1 x | none => s) s

end Sys2Proof.Machine
end

