-- ==== Sys2Proof/Machine/Macsec.lean ====
section
/-!
DEFINITION. MACsec on client frames (R359 to R361) with the tables of R372.
-/

namespace Sys2Proof.Machine

/-- A MACsec table entry: 0 port, 1 transmit SA, 2 receive SC, 3 receive SA; four data words. -/
def State.sa (s : State) (t i : Nat) : List (BitVec 64) := Tbl.get (fun _ => []) s.ciph.sa (4096 * t + i)
def State.setSa (s : State) (t i : Nat) (w : List (BitVec 64)) : State :=
  { s with ciph := { s.ciph with sa := Tbl.set (fun _ => []) s.ciph.sa (4096 * t + i) w } }
/-- Word `k` of an entry. -/
def saWord (w : List (BitVec 64)) (k : Nat) : Nat := (w.getD k 0).toNat
/-- An SA with another PN, 2^64 - 1 at most. [PRESUMED, log entry 90] -/
def saWithPn (w : List (BitVec 64)) (pn : Nat) : List (BitVec 64) :=
  [w.getD 0 0, w.getD 1 0, w.getD 2 0, BitVec.ofNat 64 (min (2 ^ 64 - 1) pn)]

/-- Whether port `p` runs a SecY. -/
def State.macsecOn (s : State) (p : Nat) : Bool := bitOf (saWord (s.sa 0 p) 0) 63

/-- The IV of GCM-AES-XPN-256: (SSCI, PN) xor the salt. [PRESUMED, log entry 90] -/
def xpnIv (w : List (BitVec 64)) (pn : Nat) : BitVec 96 :=
  BitVec.ofNat 96 ((saWord w 0 % 2 ^ 32 * 2 ^ 64 + pn % 2 ^ 64) ^^^ (saWord w 1 * 2 ^ 32 + saWord w 2 / 2 ^ 32))

/-- The 64-bit PN that a received 32-bit PN stands for, given LOWEST_PN; no PN is 2^64 or more. [PRESUMED, log entry 90] -/
def xpnRecover (lowest pn : Nat) : Nat :=
  let hi := lowest / 2 ^ 32
  (if bitOf lowest 31 && !bitOf pn 31 && hi + 1 < 2 ^ 32 then hi + 1 else hi) * 2 ^ 32 + pn % 2 ^ 32

/-- The receive SC of port `p` with an SCI. -/
def State.rxSc (s : State) (p sci : Nat) : Option Nat :=
  (List.range 8).find? (fun sc => bitOf (saWord (s.sa 2 (8 * p + sc)) 0) 63 && saWord (s.sa 2 (8 * p + sc)) 1 == sci)

/-- The parts of a SecTAG: AN, encrypted, its length, PN, SCI if explicit, short length. -/
structure SecTag where
  an : Nat
  enc : Bool
  len : Nat
  pn : Nat
  sci : Nat
  short : Nat
  deriving DecidableEq, Repr

/-- Read the SecTAG of a frame (without FCS), if it carries one. [PRESUMED, log entry 90] -/
def secTag (b : List Byte) : Option SecTag :=
  if etherType b 12 ≠ 0x88E5 ∨ b.length < 20 then none
  else
    let tci := (b.getD 14 0).toNat
    let sc := bitOf tci 5
    let sci := if sc then beNat (takePad 8 (b.drop 20)) else beNat ((b.drop 6).take 6) * 65536 + 1
    some ⟨tci % 4, bitOf tci 3, if sc then 16 else 8, beNat ((b.drop 16).take 4), sci, (b.getD 15 0).toNat % 64⟩

/-- The bytes behind a SecTAG that are secured, and the ICV: a short length says where it stands ahead of padding.
[PRESUMED, log entry 90] -/
def secParts (t : SecTag) (b : List Byte) : List Byte × List Byte :=
  let body := b.drop (12 + t.len)
  let n := if t.short = 0 then body.length - 16 else t.short
  (body.take n, takePad 16 (body.drop n))

/-- Whether a frame (without FCS) passes the SecY of port `p` by (R359). -/
def State.macBypass (s : State) (p : Nat) (b : List Byte) : Bool := !s.macsecOn p || etherType b 12 == 0x888E

/-- Whether PN is below the replay window (R360); `port` is the port entry's word 0. -/
def replayed (port pn low : Nat) : Bool := bitOf port 60 && decide (pn + port % 2 ^ 30 < low)

/-- A request of the Inline MACsec class (R353). -/
def macReq (who : CiphFor) (op slot : Nat) (iv : BitVec 96) (aad text : List Byte) (tag : BitVec 128) : CiphReq :=
  { num := 0, who := who, urgent := false, op := op, slot := slot, iv := iv, aad := aad, text := text, tag := tag }

/-- The verification that a frame received on port `p` needs, or the cause for which it is discarded before (R360: 7 UNTAGGED, 8 NO_SA,
9 REPLAY). [DESIGN CHOICE, log entry 89] -/
def State.verifyReq (s : State) (p : Nat) (f : ClientFrame) (b : List Byte) (stamp : Stamp) : Except Nat (MacRx × CiphReq) :=
  match secTag b with
  | none => .error 7
  | some t =>
    match s.rxSc p t.sci with
    | none => .error 8
    | some sc =>
      let i := 32 * p + 4 * sc + t.an
      let w := s.sa 3 i
      let pn := xpnRecover (saWord w 3) t.pn
      let port := saWord (s.sa 0 p) 0
      if !bitOf (saWord w 0) 63 then .error 8
      else if replayed port pn (saWord w 3) then .error 9
      else
        let hdr := b.take (12 + t.len)
        let (text, icv) := secParts t b
        let (aad, ct) := if t.enc then (hdr, text) else (hdr ++ text, [])
        .ok (⟨0, f, stamp, i, w, port, pn, t.enc, text⟩,
          macReq (.macRx p) 1 (bitsOf (saWord w 0) 59 48) (xpnIv w pn) aad ct (BitVec.ofNat 128 (beNat icv)))

/-- The SecTAG of a frame that port `p` sends with `n` bytes behind it (R359). [PRESUMED, log entry 90] -/
def State.secTagTx (s : State) (p pn n : Nat) : List Byte :=
  let port := saWord (s.sa 0 p) 0
  let sci := bitOf port 61
  let tci := b2n sci * 32 + (if bitOf port 62 then 12 else 0) + bitsOf port 57 56
  beBytes 2 0x88E5 ++ beBytes 1 tci ++ beBytes 1 (if n < 48 then n else 0) ++ beBytes 4 (pn % 2 ^ 32) ++
    (if sci then beBytes 8 (saWord (s.sa 0 p) 1) else [])

/-- Begin the protection of a frame (without FCS) of packet `id` on port `p`, or give the cause for which it is discarded (R361: 8 NO_SA,
11 TX_EXHAUSTED); NEXT_PN is taken. [DESIGN CHOICE, log entry 89] -/
def State.protectReq (s : State) (p id : Nat) (b : List Byte) : Except Nat (MacTx × CiphReq × State) :=
  let port := saWord (s.sa 0 p) 0
  let i := 4 * p + bitsOf port 57 56
  let w := s.sa 1 i
  let pn := saWord w 3
  if !bitOf (saWord w 0) 63 then .error 8
  else if 2 ^ 64 - 1 ≤ pn then .error 11
  else
    let conf := bitOf port 62
    let text := b.drop 12
    let hdr := b.take 12 ++ s.secTagTx p pn text.length
    .ok (⟨0, id, hdr, if conf then none else some text⟩,
      macReq (.macTx p) 0 (bitsOf (saWord w 0) 59 48) (xpnIv w pn) (if conf then hdr else hdr ++ text) (if conf then text else []) 0,
      s.setSa 1 i (saWithPn w (pn + 1)))

/-- How many bytes protection adds to a frame. -/
def State.macsecExtra (s : State) (p : Nat) (b : List Byte) : Nat :=
  if s.macBypass p b then 0
  else if bitOf (saWord (s.sa 0 p) 0) 61 then 32 else 24

end Sys2Proof.Machine
end

