-- ==== Sys2Proof/Machine/Sdh.lean ====
section
/-!
DEFINITION. The frames of an SDH lane (R325, R326): scrambling, framing, BIP checks, section overhead, the bytes of each AU-4 on receive,
and the frame built for transmission. The places of bytes are those of ITU-T G.707, which R325 names.
-/

namespace Sys2Proof.Machine

/-! ## Scrambler and parity -/

/-- `k` bits of the sequence 1 + x^6 + x^7 from a state of seven bits. [PRESUMED, log entry 176] -/
def scrGo : Nat → Nat → List Bool
  | 0, _ => []
  | k + 1, st => bitOf st 6 :: scrGo k (st % 64 * 2 + b2n (bitOf st 6 != bitOf st 5))

/-- One period of the frame scrambler, begun at all ones (R325). [PRESUMED, log entry 176] -/
def scrBits : List Bool := scrGo 127 127

/-- Byte `j` of the scrambling sequence. [PRESUMED, log entry 176] -/
def scrByte (j : Nat) : Byte := BitVec.ofNat 8 (natOfBits ((List.range 8).map (fun b => scrBits.getD ((8 * j + b) % 127) false)))

/-- Even parity over bytes, bit by bit (BIP-8). -/
def bip8 (l : List Byte) : Byte := l.foldl (· ^^^ ·) 0

/-- Bytewise difference of two strings. -/
def xorBytes (a b : List Byte) : List Byte := List.zipWith (· ^^^ ·) a b

/-- BIP over `k` groups of `m` bytes. -/
def bipN (m k : Nat) (l : List Byte) : List Byte :=
  (List.range k).foldl (fun acc j => xorBytes acc (takePad m (l.drop (m * j)))) (zeroBytes m)

/-- How many bits of two byte strings differ. -/
def diffBits (a b : List Byte) : Nat := ((xorBytes a b).map (fun x => (bitsMsb 8 x.toNat).countP id)).foldl (· + ·) 0

/-- The place of byte `c` of row `r` in the scrambling sequence; none for the first row of the section overhead.
[PRESUMED, log entry 176] -/
def scrPlace (n r c : Nat) : Option Nat := if r = 0 ∧ c < 9 * n then none else some (270 * n * r + c - 9 * n)

/-- A byte of an STM-n frame scrambled, or descrambled: row `r` and column `c` count from 0. [PRESUMED, log entry 176] -/
def scrambled (n r c : Nat) (b : Byte) : Byte :=
  match scrPlace n r c with
  | none => b
  | some j => b ^^^ scrByte j

/-! ## Received frames -/

/-- Byte at row `r` and column `c` of a received frame, descrambled. -/
def sdhByte (f : SdhFrame) (n r c : Nat) : Byte := scrambled n r c ((f.rows.getD r []).getD c 0)

/-- The overhead byte of row `r`, multi-column `x` and depth `y`, each from 1. [PRESUMED, log entry 176] -/
def sohByte (f : SdhFrame) (n r x y : Nat) : Byte := sdhByte f n (r - 1) (n * (x - 1) + (y - 1))

/-- A1 and A2 of an STM-n frame, each in 3n columns. -/
def framing (n : Nat) : List Byte := List.replicate (3 * n) 0xF6 ++ List.replicate (3 * n) 0x28

/-- Whether A1 and A2 are right, every one of them. [DESIGN CHOICE, log entry 177] -/
def sdhFramed (f : SdhFrame) (n : Nat) : Bool := (f.rows.getD 0 []).take (6 * n) == framing n

/-- A row of a received frame, descrambled. -/
def sdhRow (f : SdhFrame) (n r : Nat) : List Byte := (List.range (270 * n)).map (sdhByte f n r)

/-- The BIP-24n of a frame but for its regenerator section overhead (R325). [PRESUMED, log entry 176] -/
def rowsBip (n : Nat) (rows : Nat → List Byte) : List Byte :=
  (List.range 9).foldl (fun acc r => xorBytes acc
    (if r < 3 then bipN (3 * n) 87 ((rows r).drop (9 * n)) else bipN (3 * n) 90 (rows r))) (zeroBytes (3 * n))

/-- The bytes of row `r`, from 0, of AU-4 `a`, from 0. -/
def au4Row (f : SdhFrame) (n a r : Nat) : List Byte := (List.range 261).map (fun q => sdhByte f n r (9 * n + n * q + a))

/-- One AU-4 of a received frame: H1 and H2, the payload bytes ahead of H3 (rows 1 to 3), H3, the payload bytes behind it. -/
structure Au4Rx where
  a : Nat
  h : Nat
  top : List Byte
  h3 : List Byte
  rest : List Byte
  deriving DecidableEq, Repr

/-- AU-4 `a` of a frame (R326). [PRESUMED, log entry 176] -/
def au4Of (f : SdhFrame) (n a : Nat) : Au4Rx :=
  { a := a, h := (sohByte f n 4 1 (a + 1)).toNat * 256 + (sohByte f n 4 4 (a + 1)).toNat
    top := (List.range 3).flatMap (au4Row f n a)
    h3 := [sohByte f n 4 7 (a + 1), sohByte f n 4 8 (a + 1), sohByte f n 4 9 (a + 1)]
    rest := (List.range 6).flatMap (fun r => au4Row f n a (r + 3)) }

/-- D1 to D3, and D4 to D12. [PRESUMED, log entry 176] -/
def dccROf (f : SdhFrame) (n : Nat) : List Byte := [1, 4, 7].map (fun x => sohByte f n 3 x 1)
def dccMOf (f : SdhFrame) (n : Nat) : List Byte := [6, 7, 8].flatMap (fun r => [1, 4, 7].map (fun x => sohByte f n r x 1))

/-- K1 and K2. [PRESUMED, log entry 176] -/
def k1k2Of (f : SdhFrame) (n : Nat) : Nat := (sohByte f n 5 4 1).toNat * 256 + (sohByte f n 5 7 1).toNat

/-- The B2 bytes of a frame. [PRESUMED, log entry 176] -/
def b2Of (f : SdhFrame) (n : Nat) : List Byte := (List.range (3 * n)).map (sdhByte f n 4)

/-! ## Lanes -/

/-- n of a lane's STM-n: MODE 10 is STM64, 11 is STM16 (R294). -/
def State.stmN (s : State) (k : Nat) : Nat := if s.fld (R.cliCfg k) F.cliCfg_mode = 11 then 16 else 64

/-- LOOPBACK of a lane (R321). -/
def State.serdesLoop (s : State) (k : Nat) : Nat :=
  let m := s.fld (R.cliSerdes k) F.cliSerdes_loopback
  if m = 3 then 0 else m

def State.sdh (s : State) (k : Nat) : SdhLane := Tbl.get (fun _ => {}) s.circ.lanes k
def State.setSdh (s : State) (k : Nat) (l : SdhLane) : State :=
  { s with circ := { s.circ with lanes := Tbl.set (fun _ => {}) s.circ.lanes k l } }
def SdhLane.runOf (l : SdhLane) (i : Nat) : Nat := Tbl.get (fun _ => 0) l.runs i
def SdhLane.setRun (l : SdhLane) (i n : Nat) : SdhLane := { l with runs := Tbl.set (fun _ => 0) l.runs i n }

/-- The stream of a circuit is given up on receive: its next container begins a stream anew (R332). -/
def Circuit.noStream (c : Circuit) : Circuit :=
  { c with buffer := [], marks := [], vc := none, bip := none, ref := none, hold := 0, ndfDue := true }

/-- The AU-4s of a lane under LOS, LOF or MS-AIS, or out of the SDH modes: no defect of theirs is declared (R329, R341). -/
def State.clearAu4s (s : State) (k : Nat) : State :=
  (s.circ.circuits.filter (fun e => e.1 / 64 == k)).foldl (fun s e =>
    let c := s.circuit e.1
    s.setCircuit e.1 { c.noStream with defects := c.defects % 4, runs := [] }) s

/-! ## DCC ports held -/

/-- Whether the DCC ports run (R344). -/
def State.dccRuns (s : State) : Bool := s.bit R.circCfg F.circCfg_dccEn && s.lpValid

/-- The outputs of the DCC ports are held low while the ports do not run. [DESIGN CHOICE, log entry 186] -/
def State.dccHold (s : State) : State := if s.dccRuns then s else { s with circ := { s.circ with dccOut := [], dccAt := [] } }

/-! ## Frames sent -/

/-- What one AU-4 of a sent frame carries: H1 and H2, H3, the 2,349 payload bytes from row 1 on. -/
structure Au4Tx where
  h : Nat
  h3 : List Byte
  bytes : List Byte
  deriving DecidableEq, Repr

/-- An AU-4 all ones, and one unequipped: pointer 0, zeros (R342). [PRESUMED, log entry 176] -/
def Au4Tx.ais : Au4Tx := ⟨0xFFFF, List.replicate 3 0xFF, List.replicate 2349 0xFF⟩
def Au4Tx.unequipped : Au4Tx := ⟨0x6800, zeroBytes 3, zeroBytes 2349⟩

/-- The section overhead of a sent frame (R325): J0, S1, K1 and K2, M1, D1 to D3 and D4 to D12, B1 and B2; with MS-AIS all after the
regenerator section overhead is ones. -/
structure SdhSent where
  j0 : Nat
  s1 : Nat
  k : Nat
  m1 : Nat
  dccR : List Byte
  dccM : List Byte
  b1 : Byte
  b2 : List Byte
  msAis : Bool
  deriving DecidableEq, Repr

/-- The overhead byte of row `r`, multi-column `x` and depth `y`; every other byte is zero (R325). [PRESUMED, log entry 176] -/
def SdhSent.soh (f : SdhSent) (n : Nat) (au : List Au4Tx) (r x y : Nat) : Byte :=
  let d := fun (i : Nat) => f.dccM.getD i 0
  let u := au.getD (y - 1) Au4Tx.unequipped
  if r = 1 then (if x ≤ 3 then 0xF6 else if x ≤ 6 then 0x28 else if x = 7 ∧ y = 1 then BitVec.ofNat 8 f.j0 else 0)
  else if r = 2 then (if x = 1 ∧ y = 1 then f.b1 else 0)
  else if r = 3 then (if y = 1 ∧ x % 3 = 1 then f.dccR.getD (x / 3) 0 else 0)
  else if f.msAis then 0xFF
  else if r = 4 then
    (if x = 1 then BitVec.ofNat 8 (u.h / 256) else if x ≤ 3 then (if u.h = 0xFFFF then 0xFF else 0x9B)
    else if x = 4 then BitVec.ofNat 8 u.h else if x ≤ 6 then 0xFF else u.h3.getD (x - 7) 0)
  else if r = 5 then
    (if x ≤ 3 then f.b2.getD (n * (x - 1) + (y - 1)) 0 else if x = 4 ∧ y = 1 then BitVec.ofNat 8 (f.k / 256)
    else if x = 7 ∧ y = 1 then BitVec.ofNat 8 f.k else 0)
  else if r ≤ 8 then (if y = 1 ∧ x % 3 = 1 then d (3 * (r - 6) + x / 3) else 0)
  else if x = 1 ∧ y = 1 then BitVec.ofNat 8 f.s1
  else if x = 4 ∧ y = 3 then BitVec.ofNat 8 f.m1
  else 0

/-- A row of the frame before scrambling, `r` from 0: the overhead, then the AU-4s byte by byte in turn. [PRESUMED, log entry 176] -/
def SdhSent.row (f : SdhSent) (n : Nat) (au : List Au4Tx) (r : Nat) : List Byte :=
  (List.range (9 * n)).map (fun c => f.soh n au (r + 1) (c / n + 1) (c % n + 1)) ++
    (List.range 261).flatMap (fun q => (List.range n).map (fun a =>
      if f.msAis then 0xFF else (au.getD a Au4Tx.unequipped).bytes.getD (261 * r + q) 0))

/-- The rows of the frame as it leaves the lane. [PRESUMED, log entry 176] -/
def SdhSent.rows (f : SdhSent) (n : Nat) (au : List Au4Tx) : List (List Byte) :=
  (List.range 9).map (fun r => (f.row n au r).mapIdx (fun c b => scrambled n r c b))

end Sys2Proof.Machine
end

