-- ==== Sys2Proof/Machine/CliOps.lean ====
section
/-!
DEFINITION. The client ports: modes and links (R294 to R298), received frames (R299 to R303, R315 to R317), flow control (R306 to
R308), scheduled traffic (R309 to R313) and transmission (R213, R304, R318).
-/

/-- Whether the last four bytes of a received frame are the FCS of the rest (R299). -/
def Sys2Proof.ClientFrame.fcsOk (f : Sys2Proof.ClientFrame) : Bool :=
  Sys2Proof.Machine.ethFcs (f.bytes.take (f.bytes.length - 4)) == f.bytes.drop (f.bytes.length - 4)

namespace Sys2Proof.Machine

/-! ## Modes and links (R294 to R298, R305) -/

/-- MODE of lane `k`. -/
def State.portMode (s : State) (k : Nat) : Nat := s.fld (R.cliCfg k) F.cliCfg_mode

/-- Lanes of a mode. -/
def modeLanes (m : Nat) : Nat :=
  match m with
  | 5 => 2
  | 6 => 2
  | 7 => 4
  | 8 => 4
  | 9 => 8
  | _ => 1

/-- Whether a mode is an Ethernet one. -/
def modeEth (m : Nat) : Bool := decide (1 ≤ m) && decide (m ≤ 9)

/-- The data rate of a mode in Gb/s. -/
def modeRate (m : Nat) : Nat :=
  match m with
  | 1 => 100
  | 2 => 50
  | 3 => 25
  | 4 => 10
  | 5 => 100
  | 6 => 200
  | 7 => 200
  | 8 => 400
  | 9 => 400
  | _ => 10

/-- Whether a port runs: an Ethernet mode and PORT_EN. -/
def State.portRuns (s : State) (k : Nat) : Bool := modeEth (s.portMode k) && s.bit (R.cliCfg k) F.cliCfg_portEn

def State.linkIsUp (s : State) (k : Nat) : Bool := s.bit (R.cliStatus k) F.cliStatus_linkUp

/-- Count an event of port `k` (R324). -/
def State.cliCount (s : State) (k c : Nat) (n : Nat := 1) : State :=
  let s := s.count (R.cliCount k c) F.cliCount_count n
  if c = 10 then s.pmcEvent (0x30 + k) 0x15 n
  else if c = 8 ∨ c = 9 ∨ c = 14 then s
  else s.pmcEvent (0x30 + k) (if c = 15 then 3 else 2) n

/-- LINK_UP changes: LINK_CHG and a unit event (R298). -/
def State.setLink (s : State) (k : Nat) (b : Bool) : State :=
  if s.linkIsUp k = b then s
  else ((s.setBit (R.cliStatus k) F.cliStatus_linkUp b).setBit (R.cliStatus k) F.cliStatus_linkChg true).edge (32 * (0x30 + k))

/-- The egress buffer of a port is discarded, each packet counted under a code. -/
def State.dropEgress (s : State) (k code : Nat) : State :=
  let l := (s.port k).egress
  let s := s.setPort k { s.port k with egress := [], guarded := [], sealing := none }
  l.foldl (fun s p => (s.cliCount k code).departDrop p) s

/-- The link goes down, or PORT_EN becomes 0 (R298, R305): control frames not yet sent are given up, since a link that comes up signals
anew (R308). -/
def State.linkFalls (s : State) (k : Nat) : State :=
  let s := (s.ptpDisable k).setLink k false
  (s.setPort k { s.port k with control := [] }).dropEgress k 12

/-- A port is stopped by PORT_EN = 0: its link goes down, it sends no remote fault, and a frame it was receiving is cut short (R299). -/
def State.portStops (s : State) (k : Nat) : State :=
  let s := s.linkFalls k
  s.setPort k { s.port k with cut := true, remoteOut := false }

/-- The lanes that a mode of lane `k` takes as members. -/
def memberLanes (k m : Nat) : List Nat := (List.range (modeLanes m - 1)).map (fun i => k + 1 + i)

/-- Whether a mode may be written to lane `k` now (R294, R295). -/
def State.modeOk (s : State) (k m : Nat) : Bool :=
  decide (m ≤ 11) && k % modeLanes m == 0 &&
    (memberLanes k m).all (fun j => s.portMode j == 0 && !s.bit (R.cliCfg j) F.cliCfg_portEn)

/-- The bits of CLI.CFG that a write sets. -/
def cliCfgMask : Nat := 0xFF7FFFFFF

/-- A write to CLI.CFG (R294 to R296). -/
def State.cliCfgWrite (s : State) (k : Nat) (v : Word) : State :=
  let w := v.toNat &&& cliCfgMask
  let old := s.portMode k
  let new := bitsOf w 35 32
  let changes := old != new || s.bit (R.cliCfg k) F.cliCfg_rsfec25 != bitOf w 30
  let was := s.bit (R.cliCfg k) F.cliCfg_portEn
  if old = 15 then s
  else if changes && (was || (old != new && !s.modeOk k new)) then s.latch (R.cliStatus k) F.cliStatus_modeRefused
  else
    let s := if old = new then s else
      (memberLanes k new).foldl (fun s j => s.setFld (R.cliCfg j) F.cliCfg_mode 15)
        ((memberLanes k old).foldl (fun s j => s.setFld (R.cliCfg j) F.cliCfg_mode 0) s)
    let s := s.setReg (R.cliCfg k) (BitVec.ofNat 64 w)
    let s := if bitOf w 31 then s.setPort k { s.port k with cut := false } else s
    let s := if (old = 10 ∨ old = 11) ∧ old ≠ new then s.clearAu4s k else s
    if was && !bitOf w 31 then s.portStops k else s

/-- Alignment markers and FEC of a mode. -/
def modeMarkers (m : Nat) : Bool := decide (5 ≤ m) && decide (m ≤ 9)
def State.portFec (s : State) (k : Nat) : Bool :=
  let m := s.portMode k
  m == 1 || m == 2 || modeMarkers m || (m == 3 && s.bit (R.cliCfg k) F.cliCfg_rsfec25)

/-! ## MAC control frames (R306 to R308) -/

/-- FC_MODE as it is treated. -/
def State.fcMode (s : State) (k : Nat) : Nat :=
  let m := s.fld (R.cliCfg k) F.cliCfg_fcMode
  if m = 3 then 0 else m

/-- PAUSED of a port. -/
def State.paused (s : State) (k : Nat) : Nat := s.fld (R.cliStatus k) F.cliStatus_paused
def State.setPaused (s : State) (k v : Nat) : State := s.setFld (R.cliStatus k) F.cliStatus_paused v

/-- A received PAUSE frame (R307). [DEDUCED, log entry 80] -/
def State.pauseRx (s : State) (k time : Nat) : State :=
  if s.fcMode k = 1 then (s.setPaused k (if time = 0 then 0 else 255)).cliCount k 8 else s.cliCount k 4

/-- A received priority flow control frame (R307). [DEDUCED, log entry 80] -/
def State.pfcRx (s : State) (k enable : Nat) (times : List Nat) : State :=
  if s.fcMode k = 2 then
    let v := (List.range 8).foldl (fun m p =>
      if bitOf enable p then setBitsOf m p p (if times.getD p 0 = 0 then 0 else 1) else m) (s.paused k)
    (s.setPaused k v).cliCount k 8
  else s.cliCount k 4

/-- A priority's pause timer runs out. -/
def State.pauseExpiry (s : State) (k p : Nat) : State := s.setPaused k (setBitsOf (s.paused k) p p 0)

/-- On-die cells held by packets that port `k` received, of priority `p` or of any (R308): in the pipes, in queues, taken by a clause. -/
def State.ingressCells (s : State) (k : Nat) (p : Option Nat) : Nat :=
  let mine := fun (x : Pkt) => x.dir == .up && x.chan == k && !x.inject && (match p with | some q => x.pri == q | none => true)
  let sum := fun (l : List Pkt) => (l.filter mine).foldl (fun n x => n + cellsOf x.bytes.length) 0
  let held := sum ((s.allCtxs.flatMap (·.objects)).filter (fun h => h.kind == 0) |>.map (·.pkt))
  let waiting := held + s.cls.pipes.foldl (fun n e => n + sum e.2) 0 + s.cls.done.foldl (fun n e => n + sum e.2) 0
  waiting + s.qm.queues.foldl (fun n e =>
    n + sum ((e.2.pkts.filter (fun x => x.medium == .die || x.medium == .writing)).map (·.pkt))) 0

/-- Whether a stop condition holds for priority `p` (of any in PAUSE mode). -/
def State.wantsStop (s : State) (k p : Nat) : Bool :=
  let force := s.fld (R.cliFcCfg k) F.cliFcCfg_force
  let pool := decide (s.dieFree .up < s.fld (R.cliFcCfg k) F.cliFcCfg_poolLow)
  let xoff := s.fld (R.cliFcThr k) F.cliFcThr_xoffCells
  if s.fcMode k = 1 then decide (xoff ≤ s.ingressCells k none) || pool || force != 0
  else s.fcMode k == 2 && (decide (xoff ≤ s.ingressCells k (some p)) || pool || bitOf force p)

/-- Whether a stop of priority `p` is released. -/
def State.wantsGo (s : State) (k p : Nat) : Bool :=
  let force := s.fld (R.cliFcCfg k) F.cliFcCfg_force
  let pool := decide (s.dieFree .up < s.fld (R.cliFcCfg k) F.cliFcCfg_poolLow)
  let xon := s.fld (R.cliFcThr k) F.cliFcThr_xonCells
  if s.fcMode k = 1 then decide (s.ingressCells k none ≤ xon) && !pool && force == 0
  else decide (s.ingressCells k (some p) ≤ xon) && !pool && !bitOf force p

/-- The mask of the priorities that satisfy a predicate. -/
def priMask (f : Nat → Bool) : Nat := (List.range 8).foldl (fun m p => if f p then m + 2 ^ p else m) 0

/-- A generated MAC control frame for the priorities of a mask: PAUSE, or priority flow control. -/
def State.fcFrame (s : State) (k mask quanta : Nat) : List Byte :=
  let head := beBytes 6 0x0180C2000001 ++ beBytes 6 (s.fld (R.cliMacAddr k) F.cliMacAddr_addr) ++ beBytes 2 0x8808
  let body := if s.fcMode k = 1 then beBytes 2 1 ++ beBytes 2 quanta
    else beBytes 2 0x0101 ++ beBytes 2 mask ++ (List.range 8).flatMap (fun p => beBytes 2 (if bitOf mask p then quanta else 0))
  takePad 60 (head ++ body)

/-- A control frame waits ahead of every packet; FC_TX. -/
def State.fcSend (s : State) (k mask quanta : Nat) : State :=
  if mask = 0 then s
  else (s.setPort k { s.port k with control := (s.port k).control ++ [s.fcFrame k mask quanta] }).cliCount k 9

/-- The priorities with a stop in force. -/
def State.setStop (s : State) (k mask : Nat) : State :=
  (s.setPort k { s.port k with stop := mask }).setBit (R.cliStatus k) F.cliStatus_xoffTx (mask != 0)

/-- Whether a port may send control frames. -/
def State.fcRuns (s : State) (k : Nat) : Bool := s.portRuns k && s.linkIsUp k && s.fcMode k != 0

/-- A stop condition arises (R308). -/
def State.fcXoff (s : State) (k : Nat) : State :=
  if !s.fcRuns k then s
  else
    let m := priMask (fun p => !bitOf (s.port k).stop p && s.wantsStop k p)
    if m = 0 then s
    else (s.fcSend k m (s.fld (R.cliFcCfg k) F.cliFcCfg_quanta)).setStop k ((s.port k).stop ||| m)

/-- A stop condition ends. -/
def State.fcXon (s : State) (k : Nat) : State :=
  if !s.fcRuns k then s
  else
    let m := priMask (fun p => bitOf (s.port k).stop p && s.wantsGo k p)
    if m = 0 then s else (s.fcSend k m 0).setStop k ((s.port k).stop - m)

/-- The priorities whose stop condition is still in force. [DEDUCED, log entry 175] -/
def State.stopsInForce (s : State) (k : Nat) : Nat := priMask (fun p => bitOf (s.port k).stop p && !s.wantsGo k p)

/-- The stop frame is repeated for the priorities whose condition lasts. [DEDUCED, log entry 175] -/
def State.fcRefresh (s : State) (k : Nat) : State :=
  if !s.fcRuns k then s else s.fcSend k (s.stopsInForce k) (s.fld (R.cliFcCfg k) F.cliFcCfg_quanta)

/-- Every link condition has held for 1 ms (R298); a stop still in force is signalled anew (R308).
[DESIGN CHOICE, log entry 78; DEDUCED, log entry 175] -/
def State.linkRises (s : State) (k : Nat) : State :=
  if !s.portRuns k || s.linkIsUp k then s
  else
    let a := R.cliStatus k
    let s := (s.setBit a F.cliStatus_blockLock true).setBit a F.cliStatus_amLock (modeMarkers (s.portMode k))
    let s := (s.setBit a F.cliStatus_fecLock (s.portFec k)).setBit a F.cliStatus_localFault false
    let s := ((s.setBit a F.cliStatus_remoteFault false).setLink k true).ptpEnable k
    let s := s.setPort k { s.port k with remoteOut := false }
    (s.setStop k (s.stopsInForce k)).fcRefresh k

/-- The link conditions as they are now; the link falls as soon as one of them fails; remote fault is sent while there is a local fault.
[DESIGN CHOICE, log entry 78] -/
def State.linkState (s : State) (k : Nat) (localFault remoteFault blockLock amLock fecLock : Bool) : State :=
  if !s.portRuns k then s
  else
    let a := R.cliStatus k
    let am := modeMarkers (s.portMode k)
    let fec := s.portFec k
    let s := (s.setBit a F.cliStatus_blockLock blockLock).setBit a F.cliStatus_amLock (am && amLock)
    let s := (s.setBit a F.cliStatus_fecLock (fec && fecLock)).setBit a F.cliStatus_localFault localFault
    let s := s.setBit a F.cliStatus_remoteFault remoteFault
    let s := s.setPort k { s.port k with remoteOut := localFault }
    if localFault || remoteFault || !blockLock || (am && !amLock) || (fec && !fecLock) then s.linkFalls k else s

/-! ## Received frames (R299 to R303, R315 to R317) -/

/-- The offset behind up to two VLAN tags. -/
def afterVlans (b : List Byte) : Nat :=
  if isVlan (etherType b 12) then (if isVlan (etherType b 16) then 20 else 16) else 12

/-- Where an R-TAG stands: after the source address or after the first or second VLAN tag (R315). [PRESUMED, log entry 74] -/
def rtagAt (b : List Byte) : Option Nat :=
  if etherType b 12 = 0xF1C1 then some 12
  else if isVlan (etherType b 12) then
    if etherType b 16 = 0xF1C1 then some 16
    else if isVlan (etherType b 16) && etherType b 20 == 0xF1C1 then some 20 else none
  else none

/-- The ingress priority (R308). -/
def State.ingressPri (s : State) (k : Nat) (b : List Byte) : Nat :=
  if isVlan (etherType b 12) then
    let v := (b.getD 14 0).toNat / 32
    bitsOf (s.fld (R.cliCfg k) F.cliCfg_pcpMap) (3 * v + 2) (3 * v)
  else s.fld (R.cliCfg k) F.cliCfg_defaultPri

/-- The address filter (R302). -/
def State.daAccepted (s : State) (k : Nat) (b : List Byte) : Bool :=
  let da := beNat (takePad 6 b)
  (List.range 16).any (fun f => s.bit (R.cliFilter k f) F.cliFilter_en && s.fld (R.cliFilter k f) F.cliFilter_addr == da) ||
    (da == 2 ^ 48 - 1 && s.bit (R.cliRxCfg k) F.cliRxCfg_bcastEn) ||
    (bitOf da 40 && s.bit (R.cliRxCfg k) F.cliRxCfg_mcastAll) ||
    s.bit (R.cliRxCfg k) F.cliRxCfg_promisc || (da == 0x0180C2000001 && etherType b 12 == 0x8808)

/-- A MAC control frame is consumed (R299, R307): its opcode and mode are judged before its FCS.
[PRESUMED, log entry 74; DEDUCED, log entry 80] -/
def State.macControl (s : State) (k : Nat) (b : List Byte) (fcsOk : Bool) : State :=
  let op := etherType b 14
  let accepted := (op == 1 && s.fcMode k == 1) || (op == 0x0101 && s.fcMode k == 2)
  if accepted && !fcsOk then s.cliCount k 0
  else
    if op = 1 then s.pauseRx k (etherType b 16)
    else if op = 0x0101 then s.pfcRx k (etherType b 16 % 256) ((List.range 8).map (fun p => etherType b (18 + 2 * p)))
    else s.cliCount k 4

/-- A recovery group. [PRESUMED, log entry 75] -/
def State.recov (s : State) (g : Nat) : Recov := Tbl.get (fun _ => {}) s.cli.recov g
def State.setRecov (s : State) (g : Nat) (r : Recov) : State :=
  { s with cli := { s.cli with recov := Tbl.set (fun _ => {}) s.cli.recov g r } }

/-- The vector recovery algorithm of IEEE 802.1CB with history length `h`: accepted (none) or the code of the discard.
[PRESUMED, log entry 75] -/
def Recov.judge (r : Recov) (h n : Nat) : Option Nat × Recov :=
  let d := sext 16 (n + 65536 - r.seq % 65536)
  if r.take then (none, { seq := n, hist := [true], take := false })
  else if (h : Int) ≤ d ∨ d ≤ -(h : Int) then (some 13, r)
  else if d ≤ 0 then
    let i := (-d).toNat
    if r.hist.getD i false then (some 6, r)
    else (none, { r with hist := (r.hist ++ List.replicate (i + 1 - r.hist.length) false).set i true })
  else (none, { r with seq := n, hist := (true :: List.replicate (d.toNat - 1) false ++ r.hist).take h })

/-- R-TAG handling: the discard's code, or the frame and its number (R315, R316). -/
def State.rtagRx (s : State) (k : Nat) (b : List Byte) : (Option Nat × List Byte × Option Nat) × State :=
  let a := R.cliRtagCfg k
  if !s.bit a F.cliRtagCfg_rxEn then ((none, b, none), s)
  else
    match rtagAt b with
    | none => ((none, b, none), s)
    | some o =>
      let n := etherType b (o + 4)
      let b' := if s.bit a F.cliRtagCfg_strip then b.take o ++ b.drop (o + 6) else b
      if s.bit a F.cliRtagCfg_recovEn then
        let g := s.fld a F.cliRtagCfg_recovGroup
        let (c, r) := (s.recov g).judge (clampN 2 64 (s.fld a F.cliRtagCfg_history)) n
        ((c, b', some n), s.setRecov g r)
      else ((none, b', some n), s)

/-- A packet takes its cells and enters its pipe, or is dropped (R229, R264, R286); one that failed a check is never counted here (R300).
[DEDUCED, log entry 65] -/
def State.clientPacket (s : State) (p : Pkt) : State :=
  let n := cellsOf p.bytes.length
  match s.takeCells .up false n with
  | none =>
    if p.bad then s
    else if s.restarting Src.qm then (s.qmDrop 8).report (Lost.packet Src.qm 2 (s.lostCode Src.qm) p) else s.qmDrop 4
  | some t =>
    if p.bad && t.pipeFull .up (p.chan % 8) then s
    else if t.pipeFull .up (p.chan % 8) then (t.freeCells .up n).count (R.pipeDrop 0 (p.chan % 8)) ⟨47, 0⟩
    else t.enterPipe p

/-- The packet of a received frame. -/
def State.rxPkt (s : State) (k : Nat) (stamp : Stamp) (b : List Byte) (seq : Option Nat) (bad : Bool) : Pkt :=
  { bytes := b, dir := .up, chan := k, stamp := stamp, seq := seq, pri := s.ingressPri k b, bad := bad }

/-- A frame that fails after its classification may have begun: 256 bytes and more are a packet until then (R300). -/
def State.rxFails (s : State) (k : Nat) (stamp : Stamp) (b : List Byte) (seq : Option Nat) : State :=
  if 256 ≤ b.length then s.clientPacket (s.rxPkt k stamp b seq true) else s

/-- The steps of R299 behind MACsec. `b` is the frame without SecTAG, ICV and FCS. -/
def State.clientPassed (s : State) (k : Nat) (f : ClientFrame) (stamp : Stamp) (b : List Byte) : State :=
  let ((c, b, seq), s) := s.rtagRx k b
  match c with
  | some code => s.cliCount k code
  | none =>
    if !f.fcsOk then (s.cliCount k 0).rxFails k stamp b seq
    else
      let s := (s.count (R.cliRxFrames k) F.cliRxFrames_count).count (R.cliRxBytes k) F.cliRxBytes_count f.bytes.length
      let s := ((s.pmcEvent (0x30 + k) 0x10).pmcEvent (0x30 + k) 0x11 f.bytes.length).pmcEvent (0x30 + k) 2
      let s := s.bandwidth true k f.bytes.length
      s.clientPacket (s.rxPkt k stamp b seq false)

/-- The steps of R299 from MACsec on: a frame that the SecY verifies waits for the cipher unit (R353).
[DESIGN CHOICE, log entries 73 and 89] -/
def State.clientData (s : State) (k : Nat) (f : ClientFrame) : State :=
  let comp := sext 32 (s.fld (R.cliTsComp k) F.cliTsComp_rxComp)
  let stamp := stampOf (s.timeNow + comp) (0x200 + k)
  let b := f.bytes.take (f.bytes.length - 4)
  if s.macBypass k b then s.clientPassed k f stamp b
  else
    match s.verifyReq k f b stamp with
    | .error c => (s.ciphCount c).cliCount k 5
    | .ok (m, q) =>
      let (n, s) := s.ciphSubmit q
      s.setPort k { s.port k with verify := (s.port k).verify ++ [{ m with req := n }] }

/-- A received client frame (R299); of a port stopped by PORT_EN = 0 the frame it was receiving, cut short.
[DESIGN CHOICE, log entry 73] -/
def State.clientFrame (s : State) (k : Nat) (f : ClientFrame) : State :=
  if !s.portRuns k then
    (if (s.port k).cut && f.pcsError then (s.setPort k { s.port k with cut := false }).cliCount k 7 else s)
  else
  let s := s.pmcEvent (0x30 + k) 1
  if f.pcsError then s.cliCount k 7
  else if f.bytes.length < 64 then s.cliCount k 1
  else if clampN 64 16387 (s.fld (R.cliRxCfg k) F.cliRxCfg_maxLen) < f.bytes.length then s.cliCount k 2
  else if !s.daAccepted k f.bytes then s.cliCount k 3
  else if etherType f.bytes 12 = 0x8808 then s.macControl k f.bytes f.fcsOk
  else s.clientData k f

/-! ## Gate lists (R309 to R313) -/

/-- The gates take the next entry's states. -/
def State.gateNext (s : State) (k : Nat) : State :=
  let l := s.gateSpans k
  match l[(s.spanIndex k + 1) % max 1 l.length]? with
  | some e => s.showSpan k e
  | none => s

/-- How long, in ns, gate `p` stays open over a cyclic run of spans beginning with the list's first. -/
def openRun (p : Nat) : List GateSpan → Nat
  | [] => 0
  | e :: t => if bitOf e.gates p then e.ns + openRun p t else 0

/-- Whether gate `p` is open for the whole cycle. -/
def alwaysOpen (p : Nat) (l : List GateSpan) : Bool := l.all (fun e => bitOf e.gates p)

/-- The open span of gate `p` from now in 2^-16 ns; none for no end. [DEDUCED, log entry 76] -/
def State.openSpan (s : State) (k p : Nat) : Option Nat :=
  let l := s.gateSpans k
  if (s.port k).oper.isNone then (if bitOf (s.gates k) p then none else some 0)
  else if !bitOf (s.gates k) p then some 0
  else if alwaysOpen p l then none
  else
    let i := s.spanIndex k
    let gone := match s.gatePos k with | some (e, n) => if e.entry = (l.getD i ⟨0, 0, 0⟩).entry then n else 0 | none => 0
    some (openRun p (l.drop i ++ l.take i) * 65536 - gone)

/-- The longest open span of gate `p` in the operating list; none for no end. [DEDUCED, log entry 76] -/
def State.longestSpan (s : State) (k p : Nat) : Option Nat :=
  let l := s.gateSpans k
  if (s.port k).oper.isNone || alwaysOpen p l then none
  else some ((List.range l.length).foldl (fun m i => max m (openRun p (l.drop i ++ l.take i))) 0)

/-- The bit times a frame of `n` bytes takes, with preamble and gap, in 2^-16: at a rate of r Gb/s the frame ends within `d` of 2^-16 ns
where this is at most `d` × r (R313). [DEDUCED, log entry 76] -/
def frameBits (n : Nat) : Nat := (n + 20) * 8 * 65536

/-- Whether a pending list starts before a frame of `n` bytes ends. [DEDUCED, log entry 76] -/
def State.pendingFirst (s : State) (k n : Nat) : Bool :=
  match (s.port k).frozen with
  | some (_, _, start) => decide (s.timeNow < start) && decide ((start - s.timeNow) * (modeRate (s.portMode k) : Int) < (frameBits n : Int))
  | none => false

/-- COMMIT (R310, R311); a member lane ignores it (R295). -/
def State.gclCommit (s : State) (k : Nat) : State :=
  if s.portMode k = 15 then s else
  let a := R.cliGclStatus k
  let ns := s.fld (R.cliGclBaseNs k) F.cliGclBaseNs_ns
  if s.bit a F.cliGclStatus_pending || decide (999999999 < ns) then s.latch a F.cliGclStatus_refused
  else
    let cycle := clampN 100 1000000000 (s.fld (R.cliGclCfg k) F.cliGclCfg_cycleNs)
    let base : Int := ((((s.reg (R.cliGclBaseSec k)).toNat * 1000000000 + ns) * 65536 : Nat) : Int)
    let least := s.timeNow + 2000 * 65536
    let c : Int := ((cycle * 65536 : Nat) : Int)
    let n : Int := if least ≤ base then 0 else (least - base + (c - 1)) / c
    let s := s.setPort k { s.port k with frozen := some (s.fld (R.cliGclCfg k) F.cliGclCfg_lengthM1, cycle, base + n * c) }
    (s.setBit a F.cliGclStatus_pending true).latchIf (n != 0) a F.cliGclStatus_lateStart

/-- A pending commit is withdrawn. -/
def State.gclUncommit (s : State) (k : Nat) : State :=
  (s.setPort k { s.port k with frozen := none }).setBit (R.cliGclStatus k) F.cliGclStatus_pending false

/-- CANCEL. -/
def State.gclCancel (s : State) (k : Nat) : State :=
  if s.portMode k = 15 then s else
  if s.bit (R.cliGclStatus k) F.cliGclStatus_pending then s.gclUncommit k
  else s.latch (R.cliGclStatus k) F.cliGclStatus_refused

/-- DISABLE. -/
def State.gclDisable (s : State) (k : Nat) : State :=
  if s.portMode k = 15 then s else
  let s := s.gclUncommit k
  let s := s.setPort k { s.port k with oper := none }
  let s := s.setBit (R.cliGclStatus k) F.cliGclStatus_running false
  s.showSpan k ⟨0, s.fld (R.cliGclCtl k) F.cliGclCtl_adminGates, 0⟩

/-- An access to GCL_DATA: the value goes to the reader, INDEX advances (R310, R323). -/
def State.gclData (s : State) (k : Nat) (write : Bool) (v : Word) : State :=
  if s.portMode k = 15 then (if write then s else { s with host := { s.host with rdata := 0 } }) else
  let a := R.cliGclAddr k
  let i := s.fld a F.cliGclAddr_index
  let oper := s.bit a F.cliGclAddr_bank
  let bank := if oper then s.operBank k else 1 - s.operBank k
  let s :=
    if write then
      if oper || s.bit (R.cliGclStatus k) F.cliGclStatus_pending then s.latch (R.cliGclStatus k) F.cliGclStatus_writeRefused
      else
        let w := BitVec.ofNat 64 (v.toNat &&& (0xFF * 2 ^ 32 + 0x3FFFFFFF))
        s.setPort k { s.port k with banks := Tbl.set (fun _ => 0) (s.port k).banks (1024 * bank + i) w }
    else { s with host := { s.host with rdata := s.gclEntry k bank i } }
  s.setFld a F.cliGclAddr_index (i + 1)

/-- A committed list starts (R311). -/
def State.gclStart (s : State) (k : Nat) : State :=
  match (s.port k).frozen with
  | none => s
  | some l =>
    let s := s.gclUncommit k
    let s := s.setPort k { s.port k with oper := some l }
    let s := s.setFld (R.cliGclStatus k) F.cliGclStatus_operBank (1 - s.operBank k)
    let s := s.setBit (R.cliGclStatus k) F.cliGclStatus_running true
    match s.gateSpans k with
    | e :: _ => s.showSpan k e
    | [] => s

/-! ## Transmission (R213, R304, R313, R318) -/

/-- Bytes of a port's egress buffer. -/
def State.egressSize (s : State) (k : Nat) : Nat := 65536 * modeLanes (s.portMode k)
def State.egressUsed (s : State) (k : Nat) : Nat := (s.port k).egress.foldl (fun n p => n + p.bytes.length) 0

/-- Whether the egress of port `k` stops priority `p`: PAUSE or flow control, a closed gate, or two packets held already.
[DEDUCED, log entry 77] -/
def State.egressStops (s : State) (k p : Nat) : Bool :=
  bitOf (s.paused k) p || !bitOf (s.gates k) p || decide (2 ≤ ((s.port k).egress.filter (fun x => x.pri == p)).length)

/-- The port takes a packet from the scheduler (R281, R304). -/
def State.portSelect (s : State) (k : Nat) : State :=
  if !s.portRuns k || !s.linkIsUp k || s.restarting (Src.cli (k / 8)) then s
  else
    match s.selectFor k (s.egressStops k) (fun _ => true) with
    | none => s
    | some (p, t) =>
      if s.egressUsed k + p.bytes.length ≤ s.egressSize k then (t.pmcEvent (0x30 + k) 1).setPort k { t.port k with egress := (t.port k).egress ++ [p] } else s

/-- A frame with the R-TAG of R318. -/
def withRtag (b : List Byte) (seq : Nat) : List Byte :=
  let o := afterVlans b
  if etherType b o = 0xF1C1 then patchBytes b (o + 4) (beBytes 2 seq)
  else b.take o ++ beBytes 2 0xF1C1 ++ beBytes 2 0 ++ beBytes 2 seq ++ b.drop o

/-- A packet's frame with its R-TAG. -/
def taggedFrame (p : Pkt) : List Byte :=
  match p.dir, p.seq with
  | .dn, some n => withRtag p.bytes n
  | _, _ => p.bytes

/-- Add to the correctionField of a PTP header. [DEDUCED, log entry 77] -/
def addCorrection (b : List Byte) (h : Nat) (d : Int) : List Byte :=
  patchBytes b (h + 8) (beBytes 8 (toTwos 64 ((beNat ((b.drop (h + 8)).take 8) : Int) + d)))

/-- The frame after its stamp action, and the report due: status 0 departed, 8 ONE_STEP_REFUSED, none for no report.
[DEDUCED, log entry 77] -/
def stampAction (p : Pkt) (b : List Byte) (t : Stamp) (macsec : Bool) : List Byte × Option Nat :=
  match p.act with
  | 0 => (b, none)
  | 1 => (b, some 0)
  | a =>
    match (if macsec then none else ptpHeader b) with
    | none => (b, some 8)
    | some h =>
      if a = 2 then
        (addCorrection (patchBytes b (h + 34) (beBytes 6 t.sec ++ beBytes 4 t.ns)) h t.frac, none)
      else (addCorrection b h (t.time - p.stamp.time), none)

/-- The length of a packet's frame on the wire. -/
def State.wireLen (s : State) (k : Nat) (p : Pkt) : Nat :=
  let b := taggedFrame p
  b.length + s.macsecExtra k b + 4

/-- A packet is taken out of the egress buffer. -/
def State.takeEgress (s : State) (k : Nat) (p : Pkt) : State :=
  let q := s.port k
  s.setPort k { q with egress := q.egress.filter (fun x => x.id != p.id), guarded := q.guarded.erase p.id }

/-- The departure stamp of port `k` (R303). -/
def State.txStamp (s : State) (k : Nat) : Stamp := stampOf (s.timeNow + sext 32 (s.fld (R.cliTsComp k) F.cliTsComp_txComp)) (0x300 + k)

/-- A packet leaves the port as the frame `b`, the report of its stamp action being due. -/
def State.emitFrame (s : State) (k : Nat) (p : Pkt) (b : List Byte) (rep : Option Nat) : State :=
  let t := s.txStamp k
  let s := s.takeEgress k p
  let wire := b ++ ethFcs b
  let s := s.setPort k { s.port k with sent := some wire }
  let s := (s.count (R.cliTxFrames k) F.cliTxFrames_count).count (R.cliTxBytes k) F.cliTxBytes_count wire.length
  let s := ((s.pmcEvent (0x30 + k) 0x12).pmcEvent (0x30 + k) 0x13 wire.length).pmcEvent (0x30 + k) 2
  let s := s.bandwidth false k wire.length
  let s := if rep = some 8 then s.cliCount k 14 else s
  match rep with
  | some st => s.departure p st t.short
  | none => s

/-- The port starts a packet's frame; one that the SecY protects waits for the cipher unit (R353), its packet in the egress buffer.
[DEDUCED, log entry 77; DESIGN CHOICE, log entry 89] -/
def State.sendPacket (s : State) (k : Nat) (p : Pkt) : State :=
  let b := taggedFrame p
  if s.macBypass k b then
    let (b, rep) := stampAction p b (s.txStamp k) false
    s.emitFrame k p b rep
  else
    match s.protectReq k p.id b with
    | .error c => ((s.takeEgress k p).ciphCount c).departDrop p
    | .ok (m, q, s) =>
      let (n, s) := s.ciphSubmit q
      s.setPort k { s.port k with sealing := some { m with req := n } }

/-- Try the oldest packet of each priority in turn (R304, R313). -/
def State.trySend (s : State) (k : Nat) : List Nat → List Pkt → State
  | _, [] => s
  | blocked, p :: t =>
    if blocked.contains p.pri then s.trySend k blocked t
    else
      let n := s.wireLen k p
      let rate := modeRate (s.portMode k)
      let over_ := match s.longestSpan k p.pri with | some m => decide (m * 65536 * rate < frameBits n) | none => false
      if over_ then
        let s := s.takeEgress k p
        ((s.cliCount k 11).departDrop p).trySend k blocked t
      else if bitOf (s.paused k) p.pri then s.trySend k (p.pri :: blocked) t
      else
        let late := match s.openSpan k p.pri with | some m => decide (m * rate < frameBits n) | none => false
        if late || s.pendingFirst k n then
          let opened := bitOf (s.gates k) p.pri
          let s := if opened && !(s.port k).guarded.contains p.id then
              (s.setPort k { s.port k with guarded := p.id :: (s.port k).guarded }).cliCount k 10 else s
          s.trySend k (p.pri :: blocked) t
        else s.sendPacket k p

/-- Whether a lane of a port loops, near end (1) or far end (2). [DESIGN CHOICE, log entry 174] -/
def State.portLoops (s : State) (k c : Nat) : Bool := (k :: memberLanes k (s.portMode k)).any (fun j => s.serdesLoop j == c)

/-- A frame arrives at the pins of a port: with a near-end loop the receiver does not see it, with a far-end loop the port also sends it
(R321). [DESIGN CHOICE, log entry 174] -/
def State.frameArrives (s : State) (k : Nat) (f : ClientFrame) : State :=
  if s.portLoops k 1 then s
  else
    let s := s.clientFrame k f
    if s.portLoops k 2 then s.setPort k { s.port k with sent := some f.bytes } else s

/-- The port starts its next frame: generated control frames first. -/
def State.nextFrame (s : State) (k : Nat) : State :=
  if !s.portRuns k || !s.linkIsUp k then s
  else
    match (s.port k).control with
    | c :: t => s.setPort k { s.port k with control := t, sent := some (c ++ ethFcs c) }
    | [] => if (s.port k).sealing.isSome then s else s.trySend k [] (s.port k).egress

/-- What a port sends in `act`, through its loops: with a near-end loop its own receiver takes it, with a far-end loop the pins do not carry
it (R321). [DESIGN CHOICE, log entry 174] -/
def State.throughLoop (s : State) (k : Nat) (act : State → State) : State :=
  let old := (s.port k).sent
  if !s.portLoops k 1 && !s.portLoops k 2 then act s
  else
    let s := act (s.setPort k { s.port k with sent := none })
    let t := s.setPort k { s.port k with sent := old }
    match (s.port k).sent with
    | some w => if s.portLoops k 1 then t.clientFrame k ⟨w, false⟩ else t
    | none => t

/-- The port sends its next frame. [DESIGN CHOICE, log entry 174] -/
def State.clientTx (s : State) (k : Nat) : State := s.throughLoop k (·.nextFrame k)

end Sys2Proof.Machine
end

