-- ==== Sys2Proof/Machine/MacFlow.lean ====
section
/-!
DEFINITION. The ends of the MACsec requests of the cipher unit (R353, R360, R361): verified frames go on, protected frames leave.
-/

namespace Sys2Proof.Machine

/-- LOWEST_PN as it is now for a frame under verification: that of the entry, unless the entry was written since (R13).
[DESIGN CHOICE, log entry 89] -/
def State.lowestPn (s : State) (m : MacRx) : Nat :=
  let w := s.sa 3 m.entry
  if w.take 3 = m.sa.take 3 then saWord w 3 else saWord m.sa 3

/-- LOWEST_PN rises with an accepted frame (R360). [DESIGN CHOICE, log entry 89] -/
def State.raisePn (s : State) (m : MacRx) : State :=
  let w := s.sa 3 m.entry
  if w.take 3 = m.sa.take 3 ∧ saWord w 3 < m.pn + 1 then s.setSa 3 m.entry (saWithPn w (m.pn + 1)) else s

/-- A frame of port `k` whose verification has ended: passed, REPLAY since an earlier frame raised LOWEST_PN, ICV_FAIL, or ended without a
key or with FAULT, which are counted already (R360). [DESIGN CHOICE, log entry 89] -/
def State.macVerified (s : State) (k : Nat) (m : MacRx) (d : CiphDone) : State :=
  let b := m.frame.bytes.take 12 ++ (if m.enc then d.text else m.text)
  if 2 ≤ d.status then s.cliCount k 5
  else if replayed m.port m.pn (s.lowestPn m) then (s.ciphCount 9).cliCount k 5
  else if d.status = 1 then ((s.ciphCount 10).cliCount k 5).rxFails k m.stamp b none
  else (s.raisePn m).clientPassed k m.frame m.stamp b

/-- The frames of port `k` whose verification has ended go on in the order of arrival, at most `fuel` of them.
[DESIGN CHOICE, log entry 89] -/
def State.verifyFlush (s : State) (k : Nat) : Nat → State
  | 0 => s
  | fuel + 1 =>
    match (s.port k).verify with
    | [] => s
    | m :: rest =>
      match s.takeResult m.req with
      | (none, _) => s
      | (some d, s) => ((s.setPort k { s.port k with verify := rest }).macVerified k m d).verifyFlush k fuel

/-- The frame of port `k` whose protection has ended: it leaves, or is discarded; one that ended with FAULT is TX_FAULT (R361, R365).
[DESIGN CHOICE, log entry 89] -/
def State.macSealed (s : State) (k : Nat) (m : MacTx) (d : CiphDone) : State :=
  match (s.port k).egress.find? (fun p => p.id == m.pkt) with
  | none => s
  | some p =>
    if d.status = 0 then
      let body := match m.text with | some l => l | none => d.text
      let rep := if p.act = 0 then none else if p.act = 1 then some 0 else some 8
      s.throughLoop k (·.emitFrame k p (m.head ++ body ++ beBytes 16 d.tag.toNat) rep)
    else if d.status = 5 then ((s.takeEgress k p).cliCount k 15).departure p 9 (s.stamp (0x300 + k)).short
    else (s.takeEgress k p).departDrop p

/-- The end of the protection that port `k` waits for. [DESIGN CHOICE, log entry 89] -/
def State.sealFlush (s : State) (k : Nat) : State :=
  match (s.port k).sealing with
  | none => s
  | some m =>
    match s.takeResult m.req with
    | (none, _) => s
    | (some d, s) => (s.setPort k { s.port k with sealing := none }).macSealed k m d

/-- Whether somebody still waits for an inline result. -/
def State.awaited (s : State) (n : Nat) : Bool :=
  s.dfp.opening.any (fun o => o.req == n) || s.ubb.builds.any (fun b => b.pieces.any (fun p => p.req == some n)) ||
    s.cli.ports.any (fun e => e.2.verify.any (fun m => m.req == n) || e.2.sealing.any (fun m => m.req == n))

/-- The result of an inline request: kept while somebody waits for it; a port takes its own at once. [DESIGN CHOICE, log entry 89] -/
def State.inlineEnd (s : State) (r : CiphReq) (status : Nat) (text : List Byte) (tag : BitVec 128) : State :=
  if !s.awaited r.num then s
  else
    let s := { s with ciph := { s.ciph with results := s.ciph.results ++ [CiphDone.mk r.num status text tag] } }
    match r.who with
    | .macRx k => s.verifyFlush k (s.port k).verify.length
    | .macTx k => s.sealFlush k
    | _ => s

end Sys2Proof.Machine
end

