-- ==== Sys2Proof/Machine/CiphDone.lean ====
section
/-!
DEFINITION. How cipher requests end (R357, R362, R369, R371): results to the DFP and the UBB, completions of lookaside requests in
queue order, and the zeroising of a DRAINING half; the key operations (R363, R364) and the MACsec table commands (R372).
-/

namespace Sys2Proof.Machine

/-! ## Lookaside completions (R366 to R369) -/

/-- The entries of a lookaside queue. -/
def State.look (s : State) (q : Nat) : List CiphReq := Tbl.get (fun _ => []) s.ciph.look q
def State.setLook (s : State) (q : Nat) (l : List CiphReq) : State :=
  { s with ciph := { s.ciph with look := Tbl.set (fun _ => []) s.ciph.look q l } }

/-- Word 0 of a completion. -/
def laWord0 (r : CiphReq) (status : Nat) : BitVec 64 := BitVec.ofNat 64 (r.tagId % 2 ^ 16 * 2 ^ 48 + status % 16 * 2 ^ 44)

/-- Write output of a lookaside request: to the host through its channel's function, or to the submitting core's memory; false where
an address of a program cannot be written. [DEDUCED, log entry 91] -/
def State.laWrite (s : State) (r : CiphReq) (a : Nat) (b : List Byte) : State × Bool :=
  if b.isEmpty then (s, true)
  else match r.chan with
    | some c => (s.hostOut (.write (s.chOwner c) a b), true)
    | none =>
      match s.limCell r.submitter a b.length true with
      | none => (s, false)
      | some k => (s.writeBytes k b, true)

/-- Bytes in blocks of 16, at their addresses from `a` on; `fuel` bounds their number. -/
def blocksAt (a : Nat) : Nat → List Byte → List (Nat × List Byte)
  | 0, _ => []
  | fuel + 1, l => if l.isEmpty then [] else (a, l.take 16) :: blocksAt (a + 16) fuel (l.drop 16)
def blocks16 (a : Nat) (l : List Byte) : List (Nat × List Byte) := blocksAt a ((l.length + 15) / 16) l

/-- The text that a request produces under its key, block by block: of a GMAC none. [DEDUCED, log entry 91] -/
def CiphReq.produced (q : CiphReq) : List Byte :=
  match q.bound with
  | some k => if q.bad ∨ q.busError ∨ q.op = 2 then [] else (gcmSeal k q.iv q.aad q.text).1
  | none => []

/-- The writes of a lookaside request in order: the text as it is produced, then the tag of a SEAL or GMAC, or zeros over the plaintext of an
OPEN whose tag fails (R368). [DEDUCED, log entry 91] -/
def CiphReq.writes (q : CiphReq) (status : Nat) (tag : BitVec 128) : List (Nat × List Byte) :=
  if 2 ≤ status then []
  else blocks16 q.outAddr q.produced ++
    (if q.op ≠ 1 then [(q.tagAddr, beBytes 16 tag.toNat)] else if status = 1 then blocks16 q.outAddr (zeroBytes q.text.length) else [])

/-- Writes done in order up to the first that fails: the state, and how many were done. [DEDUCED, log entry 91] -/
def State.laRun (s : State) (r : CiphReq) : List (Nat × List Byte) → State × Nat
  | [] => (s, 0)
  | w :: t =>
    match s.laWrite r w.1 w.2 with
    | (s, false) => (s, 0)
    | (s, true) => ((s.laRun r t).1, (s.laRun r t).2 + 1)

/-- The rest of the writes of a request that ends: with a bus error of the host one of them fails, the spec does not say which. A request
one of whose writes fails ends BUS_ERROR and writes no more (R368). [DEDUCED, log entry 91] -/
def State.laOutput (s : State) (r : CiphReq) (status : Nat) (tag : BitVec 128) (hostError : Bool) : State × Nat :=
  let w := (r.writes status tag).drop r.out
  if w.isEmpty then (s, status)
  else if hostError && r.chan.isSome then
    let (v, s) := s.takeFree
    ((s.laRun r (w.take (v.toNat % w.length))).1, 4)
  else
    let (t, n) := s.laRun r w
    (t, if n = w.length then status else 4)

/-- A request on an engine writes some more of its text: how much has been produced at an instant is a free value (R368).
[DEDUCED, log entry 91] -/
def State.laProduce (s : State) (r : CiphReq) : State × CiphReq :=
  let w := (blocks16 r.outAddr r.produced).drop r.out
  if w.isEmpty then (s, r)
  else
    let (v, s) := s.takeFree
    let (t, n) := s.laRun r (w.take (v.toNat % (w.length + 1)))
    (t, { r with out := r.out + n })

/-- Every lookaside request on an engine goes on. [DEDUCED, log entry 91] -/
def State.laTick (s : State) : State :=
  s.ciph.running.foldl (fun s e =>
    match e.2 with
    | some r => (match r.who with
      | .look _ => ((s.laProduce r).1).setEngine e.1 (some (s.laProduce r).2)
      | _ => s)
    | none => s) s

/-- The completion of one lookaside request (R369), with its counters (R373). [DEDUCED, log entry 91] -/
def State.laComplete (s : State) (r : CiphReq) (status : Nat) : State :=
  let s := if status = 0 then s.ciphCount 5 else s.ciphCount 6
  match r.chan with
  | some c => s.pushRecord c ⟨r.tagId, status, 0, 0, (s.stamp (0x400 + c)).short⟩
  | none =>
    let w0 := laWord0 r status
    let rec16 := beBytes 8 w0.toNat ++ beBytes 8 (s.stamp (0x700 + r.submitter)).short.toNat
    let s := (s.laWrite r r.recAddr rec16).1
    match r.reply with
    | some n => s.tokenOrDrop n w0
    | none => s

/-- Complete the ended requests at the head of a lookaside queue, in submission order; at most `fuel` of them. [DEDUCED, log entry 91] -/
def State.laFlush (s : State) (q : Nat) : Nat → State
  | 0 => s
  | fuel + 1 =>
    match s.look q with
    | [] => s
    | r :: rest =>
      match takeFirst (fun (d : CiphDone) => d.num == r.num) s.ciph.results with
      | none => s
      | some (d, rs) =>
        let s := { s with ciph := { s.ciph with results := rs } }
        ((s.setLook q rest).laComplete r d.status).laFlush q fuel

/-! ## Ends (R362, R369) -/

/-- Empty a DRAINING half without users. [DEDUCED, log entry 92] -/
def State.zeroise (s : State) (n : Nat) : State :=
  let k := s.slot n
  let fix := fun (h : KeyHalf) => if h.st = 2 ∧ s.halfUsers n h = 0 then { } else h
  s.setSlot n { act := fix k.act, pend := fix k.pend }

/-- Count the end of a request by its status. -/
def State.countEnd (s : State) (r : CiphReq) (status : Nat) : State :=
  let s := s.pmcEvent 0x95 (if status = 5 then 3 else 2)
  let s := s.pmcEvent 0x95 0x10 ((r.text.length + 15) / 16)
  match status with
  | 0 => if r.op = 1 then s.ciphCount 1 else s.ciphCount 0
  | 1 => (match r.who with | .macRx _ => s | _ => s.ciphCount 2)
  | 2 => s.ciphCount 3
  | 5 => s.ciphCount 13
  | _ => s

/-- The request that engine `e` runs ends (R369); `hostError` says that a write of its output met a bus error of the host.
[DEDUCED, log entry 87] -/
def State.reqDone (s : State) (e : Nat) (hostError : Bool) : State :=
  match s.engine e with
  | none => s
  | some r =>
    let (status, text, tag) := r.outcome
    let s := s.setEngine e none
    let s := (s.zeroise r.slot).countEnd r status
    match r.who with
    | .look q =>
      let (s, status) := s.laOutput r status tag hostError
      let s := { s with ciph := { s.ciph with results := s.ciph.results ++ [CiphDone.mk r.num status [] 0] } }
      s.laFlush q (s.laLevel q)
    | .macRx _ => s.inlineEnd r status (if status = 1 then r.produced else text) tag
    | _ => s.inlineEnd r status text tag

/-! ## Keys (R363, R364) -/

/-- The fields of CIPH.KEY_CTL that a write sets; OP is held while BUSY. [DEDUCED, log entry 88] -/
def State.keyCtlWrite (s : State) (v : BitVec 64) : State :=
  if s.fld R.ciphKeyCtl F.ciphKeyCtl_status = 1 then s
  else
    let s := s.setReg R.ciphKeyCtl (BitVec.ofNat 64 (v.toNat &&& (0xFFF * 2 ^ 48 + 3)))
    if v.toNat % 4 = 0 then s
    else s.setFld R.ciphKeyCtl F.ciphKeyCtl_status (if s.bit R.ciphStatus F.ciphStatus_ready then 1 else 4)

/-- The key in KEY_DATA0 to KEY_DATA3. -/
def State.keyData (s : State) : BitVec 256 :=
  BitVec.ofNat 256 ((List.range 4).foldl (fun n i => n * 2 ^ 64 + (s.reg (R.ciphKeyData i)).toNat) 0)

/-- A half leaves service: DRAINING while requests are bound to it, else EMPTY. [DEDUCED, log entry 92] -/
def State.retireHalf (s : State) (n : Nat) (h : KeyHalf) : KeyHalf :=
  if h.st = 0 then h else if s.halfUsers n h = 0 then {} else { h with st := 2 }

/-- A key operation on slot `n`: the state after it and its status. [DEDUCED, log entries 88 and 190] -/
def State.keyOp (s : State) (op n : Nat) : State × Nat :=
  let k := s.slot n
  match op with
  | 1 =>
    if k.pend.st = 2 then (s, 2)
    else
      let s := s.setSlot n { k with pend := ⟨1, s.keyData, s.ciph.gen⟩ }
      let s := { s with ciph := { s.ciph with gen := s.ciph.gen + 1 } }
      ((List.range 4).foldl (fun s i => s.setReg (R.ciphKeyData i) 0) s, 0)
  | 2 =>
    if k.pend.st ≠ 1 then (s, 3)
    else (s.setSlot n { act := k.pend, pend := s.retireHalf n k.act }, 0)
  | 3 =>
    (s.setSlot n { act := s.retireHalf n k.act, pend := if k.pend.st = 1 then s.retireHalf n k.pend else k.pend }, 0)
  | _ => (s, 0)

/-- A key operation ends within its 64 cycles. [DEDUCED, log entry 88] -/
def State.keyOpDone (s : State) : State :=
  if s.fld R.ciphKeyCtl F.ciphKeyCtl_status ≠ 1 then s
  else
    let (s, st) := s.keyOp (s.fld R.ciphKeyCtl F.ciphKeyCtl_op) (s.fld R.ciphKeyCtl F.ciphKeyCtl_slot)
    (s.setFld R.ciphKeyCtl F.ciphKeyCtl_op 0).setFld R.ciphKeyCtl F.ciphKeyCtl_status st

/-- The key check value of a half (R364). -/
def halfCheck (h : KeyHalf) : Nat := if h.st = 0 then 0 else (keyCheck h.key).toNat

/-! ## MACsec tables (R372) -/

def saCmdMask : Nat := 3 * 2 ^ 62 + 3 * 2 ^ 56 + 0xFFF * 2 ^ 32

/-- A write of CIPH.SA_CMD. -/
def State.saCmdWrite (s : State) (v : BitVec 64) : State :=
  s.startCmd R.ciphSaCmd F.ciphSaCmd_status R.ciphStatus F.ciphStatus_cmdCollide F.ciphStatus_ready 3 saCmdMask v

/-- Entries of a MACsec table. -/
def saSize (t : Nat) : Nat := if t = 0 then 96 else if t = 1 then 384 else if t = 2 then 768 else 3072

/-- The bits of word `w` that an entry of table `t` holds. -/
def saMask (t w : Nat) : Nat :=
  if t = 0 then (if w = 0 then 15 * 2 ^ 60 + 3 * 2 ^ 56 + (2 ^ 30 - 1) else if w = 1 then 2 ^ 64 - 1 else 0)
  else if t = 2 then (if w = 0 then 2 ^ 63 else if w = 1 then 2 ^ 64 - 1 else 0)
  else if w = 0 then 2 ^ 63 + 0xFFF * 2 ^ 48 + (2 ^ 32 - 1)
  else if w = 2 then (2 ^ 32 - 1) * 2 ^ 32
  else 2 ^ 64 - 1

/-- A MACsec table command ends. [DEDUCED, log entries 67 and 190] -/
def State.saCmdDone (s : State) : State :=
  if s.fld R.ciphSaCmd F.ciphSaCmd_status ≠ 1 then s
  else
    let t := s.fld R.ciphSaCmd F.ciphSaCmd_table
    let i := s.fld R.ciphSaCmd F.ciphSaCmd_index
    let op := s.fld R.ciphSaCmd F.ciphSaCmd_op
    let old := s.sa t i
    let fin := fun (s : State) (st : Nat) => (s.setFld R.ciphSaCmd F.ciphSaCmd_status st).pmcEvent 0x95 5
    if saSize t ≤ i ∨ 2 ≤ op then fin s 2
    else if op = 0 then fin ((List.range 4).foldl (fun s w => s.setReg (R.ciphSaData w) (old.getD w 0)) s) 0
    else
      let new := (List.range 4).map (fun w => BitVec.ofNat 64 ((s.reg (R.ciphSaData w)).toNat &&& saMask t w))
      let m := s.fld (R.cliCfg i) F.cliCfg_mode
      if t = 0 ∧ bitOf (new.getD 0 0).toNat 63 ∧ (m < 1 ∨ 9 < m) then fin s 4
      else
        let new := if new.all (· == 0) then [] else new
        fin (s.setSa t i new) 0

end Sys2Proof.Machine
end

