-- ==== Sys2Proof/Machine/CircOps.lean ====
section
/-!
DEFINITION. The circuit engine's operations: the cross-connect and its entries (R327 to R329, R338, R350), containers received and
played out (R336, R337), the closing of containers (R332, R333), group alignment (R339, R340), the SDH receiver (R341), the
DCC ports (R345, R346) and the loss of everything held by a restart (R343).
-/

namespace Sys2Proof.Machine

/-! ## Entries (R350) -/

def Circuit.upEn (c : Circuit) : Bool := bitOf c.entry.toNat 63
def Circuit.dnEn (c : Circuit) : Bool := bitOf c.entry.toNat 62
def Circuit.plane (c : Circuit) : Nat := bitsOf c.entry.toNat 61 57
def Circuit.dnFlow (c : Circuit) : Nat := bitsOf c.entry.toNat 36 17
def Circuit.grpEn (c : Circuit) : Bool := bitOf c.entry.toNat 16
def Circuit.group (c : Circuit) : Nat := bitsOf c.entry.toNat 15 8
/-- A defect bit of DATA1. -/
def Circuit.defect (c : Circuit) (i : Nat) : Bool := bitOf c.defects i
/-- Set or clear a defect bit. -/
def Circuit.setDefect (c : Circuit) (i : Nat) (b : Bool) : Circuit := { c with defects := setBitsOf c.defects i i (b2n b) }
/-- A run counter of the interpreter. -/
def Circuit.runOf (c : Circuit) (k : Nat) : Nat := Tbl.get (fun _ => 0) c.runs k
def Circuit.setRun (c : Circuit) (k n : Nat) : Circuit := { c with runs := Tbl.set (fun _ => 0) c.runs k n }

abbrev Cd.lop : Nat := 6
abbrev Cd.auAis : Nat := 5
abbrev Cd.hpRdi : Nat := 4
abbrev Cd.lom : Nat := 3
abbrev Cd.memberDelay : Nat := 2
abbrev Cd.closs : Nat := 1
abbrev Cd.cais : Nat := 0

/-- A group entry: EN and PLAY_DELAY, which is 2 at reset. -/
def State.cgroup (s : State) (g : Nat) : BitVec 64 := Tbl.get (fun _ => 2) s.circ.groups g
def State.setCgroup (s : State) (g : Nat) (v : BitVec 64) : State :=
  { s with circ := { s.circ with groups := Tbl.set (fun _ => 2) s.circ.groups g v } }
def State.groupEn (s : State) (g : Nat) : Bool := bitOf (s.cgroup g).toNat 63

/-- The circuits of the table, ascending. -/
def State.circuitsWhere (s : State) (p : Circuit → Bool) : List Nat := (s.circ.circuits.filter (fun e => p e.2)).map (·.1)

/-- Member circuits of group `g`. -/
def State.members (s : State) (g : Nat) : List Nat := s.circuitsWhere (fun c => c.grpEn && c.group == g)

/-- PLAY_DELAY as it is treated, of the circuit or of its group (R336). -/
def State.playDelay (s : State) (c : Circuit) : Nat :=
  clampN 1 16 (if c.grpEn then bitsOf (s.cgroup c.group).toNat 4 0 else bitsOf c.entry.toNat 4 0)

/-- MODE of a client lane (R294): 10 is STM64, 11 is STM16. -/
def State.cliMode (s : State) (k : Nat) : Nat := s.fld (R.cliCfg k) F.cliCfg_mode
/-- Whether a lane is in an SDH mode. -/
def State.sdhLane (s : State) (k : Nat) : Bool := s.cliMode k == 10 || s.cliMode k == 11

/-- A lane defect (1 LOS, 2 OOF, 3 LOF, 4 MS_AIS, 5 MS_RDI). -/
def State.laneDefect (s : State) (k i : Nat) : Bool := s.bit (R.circLaneStatus k) ⟨i, i⟩

/-- Whether a lane's AU-4s are lost: LOS, LOF or MS-AIS, or no SDH mode (R329, R342). -/
def State.laneLost (s : State) (k : Nat) : Bool :=
  !s.sdhLane k || s.laneDefect k 1 || s.laneDefect k 3 || s.laneDefect k 4

/-! ## Buffers in HBM (R338) -/

/-- Cells an entry takes: 160 for playout, 147 for the differential delay of a member of a group in use. -/
def circCells (c : Circuit) (groupInUse : Bool) : Nat :=
  (if c.dnEn then 160 else 0) + (if c.upEn && c.grpEn && groupInUse then 147 else 0)

/-- Exchange `old` cells of the DN region for `n`, if they fit: cells it keeps do not move.
[DEDUCED, log entry 85; DESIGN CHOICE, log entry 171] -/
def State.exchangeCells (s : State) (old : List Nat) (n : Nat) : Option (List Nat × State) :=
  if s.hbmSize .dn + old.length < s.hbmUsed .dn + n then none
  else some (old.take n ++ s.nextCells (n - old.length), (s.hbmGive .dn (old.drop n)).hbmTake .dn (n - old.length))

/-! ## Commands (R328, R329, R338, R339, R349, R350) -/

/-- The fields of CIRC.CMD that a write sets. -/
def circCmdMask : Nat := 3 * 2 ^ 60 + 3 * 2 ^ 56 + (2 ^ 13 - 1) * 2 ^ 32

/-- A write of CIRC.CMD. -/
def State.circCmdWrite (s : State) (v : Word) : State :=
  s.startCmd R.circCmd F.circCmd_status R.circStatus F.circStatus_cmdCollide F.circStatus_ready 3 circCmdMask v

/-- The status that refuses a circuit write, if any. [DEDUCED, log entry 85] -/
def State.circRefusal (s : State) (i : Nat) (new : Circuit) : Option Nat :=
  let k := i / 64
  if (new.upEn || new.dnEn) && !s.sdhLane k then some 6
  else if (new.upEn || new.dnEn) && s.cliMode k == 11 && decide (16 ≤ i % 64) then some 2
  else if new.dnEn && (s.circuitsWhere (fun c => c.dnEn && c.dnFlow == new.dnFlow)).any (· != i) then some 7
  else if new.grpEn && decide (64 ≤ ((s.members new.group).filter (· != i)).length) then some 5
  else none

/-- Take `n` bytes from the head of a circuit's stream. -/
def Circuit.skip (c : Circuit) (n : Nat) : Circuit :=
  { c with buffer := c.buffer.drop n, marks := (c.marks.filter (fun m => decide (n ≤ m.1))).map (fun m => (m.1 - n, m.2)) }

/-- What a circuit that leaves its group gives up: the defects of a member, its delay, its LCAS state (R340, R341).
[DESIGN CHOICE, log entry 183] -/
def Circuit.leave (c : Circuit) : Circuit :=
  let runs := c.runs.filter (fun e => decide (e.1 < 8))
  { ((c.setDefect Cd.lom false).setDefect Cd.memberDelay false).skip (2349 * c.hold) with hold := 0, aligned := true, runs := runs }

/-- A circuit takes a new entry: counters cleared where UP_EN or DN_EN rises, what a disabled side held given up, and the group's part
where the group changes. [DEDUCED, log entry 82] -/
def Circuit.write (c : Circuit) (d : BitVec 64) : Circuit :=
  let n := { c with entry := d }
  let n := if (n.upEn && !c.upEn) || (n.dnEn && !c.dnEn) then { n with b3 := 0, justs := 0, lost := 0 } else n
  let n := if n.grpEn && c.grpEn && n.group == c.group then n else n.leave
  let n := if n.upEn && c.upEn then n else { n with buffer := [], marks := [], hold := 0, ndfDue := true, just3 := 0 }
  if n.dnEn && c.dnEn then n
  else { n with held := [], out := none, predict := none, okRun := 0, play := [], playMarks := [], txPtr := 0, txNdf := true
                txWait := 0, defects := n.defects / 4 * 4 }

/-- WRITE of a circuit. -/
def State.writeCircuit (s : State) (i : Nat) (d : BitVec 64) : State × Nat :=
  let c := s.circuit i
  let d := BitVec.ofNat 64 (d.toNat / 2 ^ 8 * 2 ^ 8 + d.toNat % 2 ^ 5)
  let new := c.write d
  match s.circRefusal i new with
  | some st => (s, st)
  | none =>
    match s.exchangeCells c.cells (circCells new (s.groupEn new.group)) with
    | none => (s, 4)
    | some (l, s) => (s.setCircuit i { new with cells := l }, 0)

/-- The cells of a member follow its group's EN. -/
def State.memberCells (s : State) (en : Bool) (i : Nat) : State :=
  let c := s.circuit i
  match s.exchangeCells c.cells (circCells c en) with
  | none => s
  | some (l, s) => s.setCircuit i { c with cells := l }

/-- WRITE of a group: EN changes the cells of every member. [DEDUCED, log entry 85] -/
def State.writeGroup (s : State) (g : Nat) (d : BitVec 64) : State × Nat :=
  let d := BitVec.ofNat 64 (d.toNat / 2 ^ 63 * 2 ^ 63 + d.toNat % 2 ^ 5)
  let en := bitOf d.toNat 63
  let l := s.members g
  let old := l.foldl (fun n i => n + (s.circuit i).cells.length) 0
  let new := l.foldl (fun n i => n + circCells (s.circuit i) en) 0
  if s.hbmSize .dn + old < s.hbmUsed .dn + new then (s, 4)
  else
    let s := l.foldl (·.memberCells en) s
    ((if en then s else l.foldl (fun s i => s.setCircuit i (s.circuit i).leave) s).setCgroup g d, 0)

/-! ## Group alignment (R339, R340) -/

/-- Whether a circuit's stream is aligned with its group's: a member, not left by IDLE, whose MFI and AU-4 are sound.
[DEDUCED, log entry 184] -/
def State.inAlignment (s : State) (i : Nat) : Bool :=
  let c := s.circuit i
  c.upEn && c.grpEn && c.aligned && s.groupEn c.group && !c.defect Cd.lom && !c.defect Cd.lop && !c.defect Cd.auAis && !s.laneLost (i / 64)

/-- The span of the multiframe indicator, in symbols: 4,096 frames. -/
def mfiSpan : Int := 4096 * (frameSymbols : Int)

/-- A difference brought into the half range about 0. [DEDUCED, log entry 184] -/
def nearZero (m d : Int) : Int := (d + m / 2) % m - m / 2

/-- The instant at which a member's stream would have carried MFI 0, known once a whole VC-4 frame has come; in symbols.
[DEDUCED, log entry 184] -/
def Circuit.origin (c : Circuit) : Option Int := c.ref.map (fun t => (t : Int) - (c.mfi : Int) * (frameSymbols : Int))

/-- The least of some numbers taken about the first of them. [DEDUCED, log entry 184] -/
def earliest (m : Int) : List Int → Int
  | [] => 0
  | t :: l => l.foldl (fun r x => if nearZero m (x - r) < 0 then x else r) t

/-- Lag of every aligned member of group `g` behind the earliest one, in symbols. [DEDUCED, log entry 184] -/
def State.lags (s : State) (g : Nat) : List (Nat × Nat) :=
  let ms := ((s.members g).filter s.inAlignment).filterMap (fun i => (s.circuit i).origin.map (fun t => (i, t)))
  let r := earliest mfiSpan (ms.map (·.2))
  ms.map (fun m => (m.1, (nearZero mfiSpan (m.2 - r)).toNat))

/-- 2 ms, which is 16 frames. -/
def maxLag : Nat := 16 * frameSymbols

/-- DIFF: the greatest lag found, in µs. -/
def State.groupDiff (s : State) (g : Nat) : Nat := min 4095 ((s.lags g).foldl (fun m e => max m e.2) 0 / 212500)

/-- The J1 that the next container is to carry. -/
def Circuit.headMark (c : Circuit) : Option (Nat × Nat) := c.marks.find? (fun m => decide (m.1 < 2349))

/-- `n` bytes that the spec leaves open: free values. [DEDUCED, log entry 82] -/
def State.freeBytes (s : State) (n : Nat) : List Byte × State :=
  ((List.range n).map (fun i => (Config.freeValue (s.free + i)).truncate 8), { s with free := s.free + n })

/-- Put bytes ahead of a circuit's stream. -/
def Circuit.ahead (c : Circuit) (l : List Byte) : Circuit :=
  { c with buffer := l ++ c.buffer, marks := c.marks.map (fun m => (m.1 + l.length, m.2)) }

/-- A member's stream is delayed by `h` frames from now on: further frames of delay are bytes that the spec leaves open, frames of delay
given up are dropped. [DESIGN CHOICE, log entry 183] -/
def State.setHold (s : State) (i h : Nat) : State :=
  let c := s.circuit i
  if h ≤ c.hold then s.setCircuit i { c.skip (2349 * (c.hold - h)) with hold := h }
  else
    let (l, s) := s.freeBytes (2349 * (h - c.hold))
    s.setCircuit i { c.ahead l with hold := h }

/-- MEMBER_DELAY of a member that lags by `lag` symbols (R341): entered above 2 ms, left after 16 frames within it.
[DEDUCED, log entry 184] -/
def Circuit.delayDefect (c : Circuit) (lag : Nat) : Circuit :=
  let ok := if lag ≤ maxLag then c.runOf 10 + 1 else 0
  let c := c.setRun 10 (min 16 ok)
  if maxLag < lag then c.setDefect Cd.memberDelay true
  else if 16 ≤ ok then c.setDefect Cd.memberDelay false else c

/-- The multiframe indicator that a member's next container would carry without delay, relative to `base`. [DEDUCED, log entry 184] -/
def Circuit.natural (c : Circuit) (base : Nat) : Option Int :=
  c.headMark.map (fun m => nearZero 4096 ((m.2 + c.hold : Nat) - (base : Int)))

/-- Align the members of group `g` before containers close: each within 2 ms is delayed so that its next container carries the J1 of the
multiframe indicator that the latest of them carries; a member out of the alignment is carried with its own delay.
[DESIGN CHOICE, log entry 183] -/
def State.alignGroup (s : State) (g : Nat) : State :=
  let l := s.lags g
  let s := (s.members g).foldl (fun s i =>
    match l.find? (fun e => e.1 == i) with
    | some e => s.setCircuit i ((s.circuit i).delayDefect e.2)
    | none => (s.setCircuit i (((s.circuit i).setDefect Cd.memberDelay false).setRun 10 0)).setHold i 0) s
  let ok := (l.filter (fun e => decide (e.2 ≤ maxLag))).map (·.1)
  let base := (((ok.head?.map s.circuit).bind (·.headMark)).map (·.2)).getD 0
  let ns := ok.filterMap (fun i => ((s.circuit i).natural base).map (fun n => (i, n)))
  match ns with
  | [] => s
  | n0 :: _ =>
    let least := ns.foldl (fun m e => min m e.2) n0.2
    ns.foldl (fun s e => s.setHold e.1 (min 16 (e.2 - least).toNat)) s

/-- Align every group that has members. [DEDUCED, log entry 81] -/
def State.alignGroups (s : State) : State :=
  ((List.range 256).filter (fun g => !(s.members g).isEmpty)).foldl (·.alignGroup) s


/-- Load CIRC.DATA0 to DATA2 with a circuit or a group. -/
def State.readCircuit (s : State) (i : Nat) : State :=
  let c := s.circuit i
  let s := s.setReg R.circData0 c.entry
  let s := s.setReg R.circData1 (BitVec.ofNat 64 (c.rxPtr % 1024 * 2 ^ 54 + c.txPtr % 1024 * 2 ^ 44 + c.defects % 128))
  s.setReg R.circData2 (BitVec.ofNat 64 (c.b3 % 2 ^ 32 * 2 ^ 32 + c.justs % 2 ^ 16 * 2 ^ 16 + c.lost % 2 ^ 16))

def State.readGroup (s : State) (g : Nat) : State :=
  s.setReg R.circData0 (BitVec.ofNat 64 ((s.cgroup g).toNat + (s.members g).length % 128 * 2 ^ 56 + s.groupDiff g * 2 ^ 44))

/-- A CIRC command ends. [DEDUCED, log entry 67] -/
def State.circCmdDone (s : State) : State :=
  if s.fld R.circCmd F.circCmd_status ≠ 1 then s
  else
    let i := s.fld R.circCmd F.circCmd_index
    let fin := fun (s : State) (st : Nat) => (s.setFld R.circCmd F.circCmd_status st).pmcEvent 0x96 5
    match s.fld R.circCmd F.circCmd_table, s.fld R.circCmd F.circCmd_op with
    | 0, 0 => if i < 6144 then fin (s.readCircuit i) 0 else fin s 2
    | 0, 1 => if i < 6144 then let r := s.writeCircuit i (s.reg R.circData0); fin r.1 r.2 else fin s 2
    | 1, 0 => if i < 256 then fin (s.readGroup i) 0 else fin s 2
    | 1, 1 => if i < 256 then let r := s.writeGroup i (s.reg R.circData0); fin r.1 r.2 else fin s 2
    | _, _ => fin s 2

/-! ## Containers received (R328, R331, R336) -/

/-- The header of a container. -/
def contFrame (b : List Byte) : Nat := beNat (b.take 4)
def contPtr (b : List Byte) : Nat := bitsOf (beNat (takePad 8 b)) 31 22
def contJust (b : List Byte) : Nat := bitsOf (beNat (takePad 8 b)) 21 20
def contAis (b : List Byte) : Bool := bitOf (beNat (takePad 8 b)) 19

/-- The data bytes of a container (R331). -/
def contData (b : List Byte) : List Byte :=
  match contJust b with
  | 1 => b.drop 14
  | 2 => b.drop 8
  | _ => b.drop 11

/-- The restored frame of a container carried by downstream frame `m`. -/
def contRestore (f32 m : Nat) : Int :=
  let lo : Int := (m : Int) - 2 ^ 31
  lo + ((f32 : Int) - lo) % 2 ^ 32

/-- A container parcel of flow `f` verified by the DFP on plane `p` in downstream frame `m`. [DESIGN CHOICE, log entry 182] -/
def State.containerRx (s : State) (f : Nat) (bytes : List Byte) (m p : Nat) : State :=
  if s.restarting Src.circ then s.circCount 12
  else
    match s.circuitsWhere (fun c => c.dnEn && c.dnFlow == f) with
    | [] => s.circCount 7
    | i :: _ =>
      let c := s.circuit i
      let fr := contRestore (contFrame bytes) m
      if bytes.length ≠ 2360 ∨ 782 < contPtr bytes ∨ (m : Int) + 2 < fr then s.circCount 5
      else if fr + s.playDelay c ≤ s.time.frame then s.circCount 3
      else if c.held.any (fun x => (x.frame : Int) == fr) then s.circCount 6
      else
        let x : Container := ⟨i, p, fr.toNat, contPtr bytes, contJust bytes, contAis bytes, contData bytes, f, fr.toNat + s.playDelay c⟩
        (s.setCircuit i { c with held := c.held ++ [x] }).circCount 2

/-! ## Playout (R337, R341) -/

/-- The pointer that the stream predicts after a container (R331). [DEDUCED, log entry 82] -/
def nextPtr (ptr just : Nat) : Nat :=
  if just = 1 then (ptr + 1) % 783 else if just = 2 then (ptr + 782) % 783 else ptr

/-- The places of the J1s among the data bytes of a container. -/
def Container.j1s (x : Container) : List Nat := [3 * x.ptr, 3 * x.ptr + 2349].filter (fun n => decide (n < x.data.length))

/-- Where in the 125 µs of a medium frame the lane of circuit `i` begins its next SDH frame, in VC-4 bytes. [DEDUCED, log entry 180] -/
def State.phaseBytes (s : State) (i : Nat) : Nat := (s.sdh (i / 64)).phase * 2349 / frameSymbols

/-- The data bytes of a container become the input of the pointer generator; a stream that begins anew does so with NDF, the fill of the
playout buffer at its centre (R337). [DESIGN CHOICE, log entry 181] -/
def State.playInput (s : State) (i : Nat) (x : Container) (anew : Bool) : State :=
  let c := s.circuit i
  if anew then
    let (l, s) := s.freeBytes ((2349 - s.phaseBytes i) / 3 * 3)
    s.setCircuit i { c with play := l ++ x.data, playMarks := x.j1s.map (· + l.length), txNdf := true, txWait := 0 }
  else s.setCircuit i { c with play := c.play ++ x.data, playMarks := c.playMarks ++ x.j1s.map (· + c.play.length) }

/-- Containers of circuit `i` that a later one overtook, its PLAY_DELAY being less: no instant is left for them.
[DESIGN CHOICE, log entry 182] -/
def State.dropOvertaken (s : State) (g i : Nat) (keep : Option Container) : State :=
  let c := s.circuit i
  let gone := c.held.filter (fun x => decide (x.play ≤ g) && some x != keep)
  (s.setCircuit i { c with held := c.held.filter (fun x => decide (g < x.play)) }).circCount 3 gone.length

/-- The container that circuit `i` plays out at LP(G, 0, 0): of several due, the one of the latest frame.
[DESIGN CHOICE, log entry 182] -/
def Circuit.due (c : Circuit) (g : Nat) : Option Container :=
  (c.held.filter (fun x => x.play == g)).foldl (fun (b : Option Container) x =>
    match b with
    | some y => if y.frame < x.frame then some x else b
    | none => some x) none

/-- The playout of circuit `i` at LP(G, 0, 0): the container due then, or AU-AIS for want of one. [DESIGN CHOICE, log entry 182] -/
def State.playOut (s : State) (g i : Nat) : State :=
  let was := s.circuit i
  let x := was.due g
  let s := s.dropOvertaken g i x
  let c := s.circuit i
  match x with
  | none =>
    let c := { c with out := none, predict := none, okRun := 0, play := [], playMarks := [], lost := (c.lost + 1) % 2 ^ 16 }
    (s.setCircuit i (c.setDefect Cd.closs true)).circCount 4
  | some x =>
    let run := c.okRun + 1
    let jump := !x.ais && x.just == 0 && (match c.predict with | some q => q != x.ptr | none => false)
    let s := if jump then s.circCount 8 else s
    let c := { c with out := some x, okRun := min 3 run
                      predict := if x.ais then none else some (nextPtr x.ptr (if jump then 3 else x.just)) }
    let c := if 3 ≤ run then c.setDefect Cd.closs false else c
    let s := s.setCircuit i (c.setDefect Cd.cais x.ais)
    if x.ais then s.setCircuit i { s.circuit i with play := [], playMarks := [] }
    else s.playInput i x (was.predict.isNone || jump || x.just == 3)

/-- Playout of every circuit with DN_EN = 1. [DEDUCED, log entry 81] -/
def State.playAll (s : State) (g : Nat) : State := (s.circuitsWhere (·.dnEn)).foldl (fun s i => s.playOut g i) s

/-! ## Closing containers (R332, R333, R342) -/

/-- Whether a circuit's containers carry AIS now. -/
def State.upAis (s : State) (i : Nat) (c : Circuit) : Bool :=
  s.laneLost (i / 64) || c.defect Cd.lop || c.defect Cd.auAis || c.defect Cd.lom || c.defect Cd.memberDelay

/-- Bytes taken by a justification. -/
def justBytes (j : Nat) : Nat := if j = 1 then 2346 else if j = 2 then 2352 else 2349

/-- Queue a closed container and count it. -/
def State.queueCont (s : State) (x : Container) : State :=
  { s with circ := { s.circ with queue := s.circ.queue ++ [x] } }.circCount 0

/-- VC-4 bytes of the SDH frame in progress on a lane: a frame is taken at its end. [DEDUCED, log entry 179] -/
def State.partBytes (s : State) (k : Nat) : Nat := min 2349 ((s.time.now - (s.sdh k).last) * 2349 / frameSymbols)

/-- The fill of a circuit's elastic buffer in whole bytes: the bytes that have come and are not packed, less those that delay a member, and
less one frame, by which the model's stream lies behind the lane's. [DEDUCED, log entry 179] -/
def State.fillOf (s : State) (i : Nat) : Int :=
  let c := s.circuit i
  (c.buffer.length : Int) + s.partBytes (i / 64) - 2349 * (1 + c.hold : Nat)

/-- Close a container with the bytes of justification `just` from the head of the buffer; bytes that have not come are left open by the
spec. Its pointer is that of the J1 among them (R331). [DEDUCED, log entry 82] -/
def State.closeWith (s : State) (i fr just : Nat) : State :=
  let c := s.circuit i
  let n := justBytes just
  let (l, s) := s.freeBytes (n - c.buffer.length)
  let ptr := match c.headMark with | some m => m.1 / 3 % 783 | none => c.ptr
  let x : Container := ⟨i, c.plane, fr, ptr, just, false, c.buffer.take n ++ l, c.upFlow, 0⟩
  let moved := just = 1 ∨ just = 2
  (s.setCircuit i { c.skip n with ptr := nextPtr ptr just, ndfDue := false, just3 := if moved then 3 else c.just3 - 1 }).queueCont x

/-- The buffer is recentred (R332): after the close its fill is 1,536, to within the three bytes of a pointer unit; a surplus of the oldest
bytes is dropped, a shortfall made up with bytes that the spec leaves open. [DEDUCED, log entry 82] -/
def State.recentre (s : State) (i : Nat) : State :=
  let d := (s.fillOf i - 2349 - 1536) / 3 * 3
  let c := s.circuit i
  if 0 ≤ d then s.setCircuit i (c.skip d.toNat)
  else
    let (l, s) := s.freeBytes (-d).toNat
    s.setCircuit i (c.ahead l)

/-- Close the container of circuit `i` for target frame `fr` (R332). [DEDUCED, log entries 82 and 179] -/
def State.closeCont (s : State) (fr i : Nat) : State :=
  let c := s.circuit i
  if s.upAis i c then
    let x : Container := ⟨i, c.plane, fr, 0, 0, true, [], c.upFlow, 0⟩
    (s.setCircuit i { c.skip 2349 with ndfDue := true, just3 := c.just3 - 1 }).queueCont x
  else
    let e := s.fillOf i - 2349 - 1536
    if c.ndfDue then s.closeWith i fr 3
    else if 768 < e ∨ e < -768 then
      let s := ((s.circCount 9).recentre i).closeWith i fr 3
      s.setCircuit i { s.circuit i with ndfDue := true }
    else if c.just3 ≠ 0 then s.closeWith i fr 0
    else if 6 ≤ e then s.closeWith i fr 2
    else if e ≤ -6 then s.closeWith i fr 1
    else s.closeWith i fr 0


/-- Close one container for each circuit with UP_EN = 1, ascending; none while the engine restarts (R343). [DEDUCED, log entry 81] -/
def State.closeAll (s : State) (fr : Nat) : State :=
  if s.restarting Src.circ then s
  else
    let s := s.alignGroups
    (s.circuitsWhere (·.upEn)).foldl (fun s i => s.closeCont fr i) s

/-- Containers of frames before `g` that no window took (R333). [DEDUCED, log entry 81] -/
def State.purgeConts (s : State) (g : Nat) : State :=
  let gone := s.circ.queue.filter (fun x => decide (x.frame + 1 ≤ g))
  { s with circ := { s.circ with queue := s.circ.queue.filter (fun x => !decide (x.frame + 1 ≤ g)) } }.circCount 1 gone.length

/-- A container lost (KIND 4). -/
def Container.lost (x : Container) (src cls code : Nat) : Lost :=
  let w := x.circ % 2 ^ 13 * 2 ^ 32 + x.frame % 2 ^ 32
  ⟨src, cls, 4, 0, code, 1, w, w, 0, 0⟩

/-- Everything held or queued is lost with the engine (R343): counted as FAULT and reported item by item; circuits resume with
NDF. -/
def State.circLose (s : State) (cls code : Nat) : State :=
  let held := s.circ.circuits.flatMap (fun e => e.2.held)
  let items := s.circ.queue ++ held
  let s := items.foldl (fun s x => (s.circCount 12).report (x.lost Src.circ cls code)) s
  let s := { s with circ := { s.circ with queue := [] } }
  s.circ.circuits.foldl (fun s e => s.setCircuit e.1 { (s.circuit e.1).noStream with
    held := [], out := none, predict := none, okRun := 0, play := [], playMarks := [], just3 := 0 }) s

/-! ## The SDH receiver (R340, R341, R347) -/

/-- A lane defect is entered or left: LANE_DEFECT set, a unit event raised. -/
def State.setLaneDefect (s : State) (k i : Nat) (b : Bool) : State :=
  if s.laneDefect k i = b then s
  else
    let s := (s.setBit (R.circLaneStatus k) ⟨i, i⟩ b).setBit (R.circLaneDefect k) ⟨i, i⟩ true
    let s := s.edge (32 * 0x96)
    if b && (i == 1 || i == 3 || i == 4) then s.clearAu4s k else s

/-- Runs of frames with and without a condition: the defect enters after `n` in a row and leaves after `m` in a row without. -/
def State.laneRun (s : State) (k i : Nat) (cond : Bool) (n m : Nat) : State :=
  let l := s.sdh k
  let a := if cond then l.runOf (2 * i) + 1 else 0
  let b := if cond then 0 else l.runOf (2 * i + 1) + 1
  let s := s.setSdh k ((l.setRun (2 * i) (min n a)).setRun (2 * i + 1) (min m b))
  if n ≤ a then s.setLaneDefect k i true else if m ≤ b then s.setLaneDefect k i false else s

/-- K1 and K2: a value received equal in three consecutive frames is placed in RX_K (R347). -/
def State.laneK (s : State) (k kk : Nat) : State :=
  let l := s.sdh k
  let n := if l.lastK = kk then l.runOf 20 + 1 else 1
  let s := s.setSdh k { l.setRun 20 (min 3 n) with lastK := kk }
  if 3 ≤ n ∧ s.fld (R.circLaneK k) F.circLaneK_rxK ≠ kk then
    ((s.setFld (R.circLaneK k) F.circLaneK_rxK kk).setBit (R.circLaneDefect k) F.circLaneDefect_kChg true).edge (32 * 0x96)
  else s

/-- What an AU-4 pointer says (R341): nothing new, an increment, a decrement, a new value. -/
inductive PtrEvent where
  | none | inc | dec | new
  deriving DecidableEq, Repr

/-- How many bits of `v` under a mask are set. -/
def maskBits (m v : Nat) : Nat := (bitsMsb 10 (m &&& v)).countP id

/-- The reading of H1 and H2: NDF enabled or normal by at least three of its four bits; the SS bits are ignored.
[PRESUMED, log entry 86] -/
def ndfEnabled (h : Nat) : Bool := [9, 1, 13, 11, 8].contains (h / 4096)
def ndfNormal (h : Nat) : Bool := [6, 14, 2, 4, 7].contains (h / 4096)
def ptrValue (h : Nat) : Nat := h % 1024

/-- Whether the interpreter has a pointer. -/
def Circuit.locked (c : Circuit) : Bool := !c.defect Cd.lop && !c.defect Cd.auAis && c.runOf 5 == 1

/-- What H1 and H2 say to the interpreter: an increment or a decrement inverts most of the I, or of the D, bits of the pointer in use.
[PRESUMED, log entry 86] -/
def Circuit.reads (c : Circuit) (h : Nat) : PtrEvent :=
  let d := ptrValue h ^^^ c.rxPtr % 1024
  let i := maskBits 0x2AA d
  let j := maskBits 0x155 d
  if h = 0xFFFF then .none
  else if ndfEnabled h && decide (ptrValue h ≤ 782) then .new
  else if c.locked && ndfNormal h && decide (3 ≤ i) && decide (j ≤ 2) then .inc
  else if c.locked && ndfNormal h && decide (3 ≤ j) && decide (i ≤ 2) then .dec
  else .none

/-- Whether H1 and H2 are a normal pointer in range. -/
def ptrNormal (h : Nat) : Bool := h != 0xFFFF && ndfNormal h && decide (ptrValue h ≤ 782)

/-- The AU-4 pointer interpreter on one frame: defects and the pointer in use (R341). A pointer that carries a concatenation indication is
out of range and so invalid (R325). Runs 0 invalid, 1 NDF, 2 all ones, 3 equal pointers (candidate at 4); 5 marks that a pointer was ever
accepted. [PRESUMED, log entry 86] -/
def Circuit.interpret (c : Circuit) (h : Nat) : Circuit × PtrEvent :=
  let ev := c.reads h
  let moved := ev == .inc || ev == .dec
  let normal := ptrNormal h && !moved
  let same := normal && c.locked && ptrValue h == c.rxPtr
  let invalid := h != 0xFFFF && ev != .new && !moved && !(normal && (!c.locked || same))
  let eq := if normal then (if c.runOf 4 = ptrValue h + 1 then c.runOf 3 + 1 else 1) else 0
  let c' := (((c.setRun 0 (if invalid then min 8 (c.runOf 0 + 1) else 0)).setRun 1 (if ev == .new then min 8 (c.runOf 1 + 1) else 0)).setRun
    2 (if h = 0xFFFF then min 3 (c.runOf 2 + 1) else 0)).setRun 3 (min 3 eq)
  let c' := c'.setRun 4 (if normal then ptrValue h + 1 else 0)
  let c' := if 3 ≤ c'.runOf 2 then (c'.setDefect Cd.auAis true).setDefect Cd.lop false
    else if (8 ≤ c'.runOf 0 ∧ eq < 3) ∨ 8 ≤ c'.runOf 1 then (c'.setDefect Cd.lop true).setDefect Cd.auAis false else c'
  let c' := if 3 ≤ eq then ((c'.setDefect Cd.lop false).setDefect Cd.auAis false).setRun 0 0
    else if ev == .new ∧ c'.defect Cd.auAis then c'.setDefect Cd.auAis false else c'
  if c'.defect Cd.lop || c'.defect Cd.auAis then (c'.noStream, .none)
  else if (3 ≤ eq ∧ !same) ∨ ev == .new then ({ c' with rxPtr := ptrValue h }.setRun 5 1, .new)
  else if ev == .inc then ({ c' with rxPtr := (c'.rxPtr + 1) % 783 }, .inc)
  else if ev == .dec then ({ c' with rxPtr := (c'.rxPtr + 782) % 783 }, .dec)
  else (c', .none)

/-- Runs with and without a condition on a circuit: defect `i` enters after `n` and leaves after `m`. Runs at `r` and `r + 1`.
[PRESUMED, log entry 86] -/
def Circuit.runDefect (c : Circuit) (i r : Nat) (cond : Bool) (n m : Nat) : Circuit :=
  let a := if cond then c.runOf r + 1 else 0
  let b := if cond then 0 else c.runOf (r + 1) + 1
  let c := (c.setRun r (min n a)).setRun (r + 1) (min m b)
  if n ≤ a then c.setDefect i true else if m ≤ b then c.setDefect i false else c

/-- The LCAS control word of a member (G.7042: 1 ADD, 2 NORM, 3 EOS, 5 IDLE, 15 DNU), which H4 carries in the frame whose MFI1 is 2; a
member that leaves the alignment leaves its defects with it (R340). [PRESUMED, log entry 83] -/
def Circuit.lcas (c : Circuit) (h4 : Nat) : Circuit :=
  if h4 % 16 ≠ 2 then c
  else
    let ctrl := h4 / 16 % 16
    let idle := if ctrl = 5 then c.runOf 12 + 1 else 0
    let c := c.setRun 12 (min 2 idle)
    if 2 ≤ idle then ({ c with aligned := false }.setDefect Cd.lom false).setDefect Cd.memberDelay false
    else if ctrl = 1 ∨ ctrl = 2 ∨ ctrl = 3 ∨ ctrl = 15 then { c with aligned := true } else c

/-- The multiframe indicator that H4 says, where `exp` was expected: MFI1, and of MFI2 the half that its frame carries (G.707).
[PRESUMED, log entry 83] -/
def mfiOf (exp h4 : Nat) : Nat :=
  let lo := h4 % 16
  let hi := h4 / 16 % 16
  if lo = 0 then hi * 256 + exp / 16 % 16 * 16 else if lo = 1 then exp / 256 % 16 * 256 + hi * 16 + 1 else exp / 16 % 256 * 16 + lo

/-- Put `m` for the multiframe indicator of the last J1 of a stream. -/
def Circuit.fixMark (c : Circuit) (m : Nat) : Circuit :=
  match c.marks.getLast? with
  | some (p, _) => { c with marks := c.marks.dropLast ++ [(p, m)] }
  | none => c

/-- H4 of a group member: LCAS, the multiframe indicator and LOM, which only an aligned member declares (R340, R341).
[PRESUMED, log entry 83] -/
def Circuit.member (c : Circuit) (h4 : Nat) : Circuit :=
  let c := c.lcas h4
  let exp := (c.mfi + 1) % 4096
  let m := mfiOf exp h4
  let c := if c.aligned then c.runDefect Cd.lom 8 (m != exp) 3 16 else ((c.setDefect Cd.lom false).setRun 8 0).setRun 9 0
  { c.fixMark m with mfi := m }

/-- A whole VC-4 frame has come (R325, R341): B3 is checked against the frame before it, G1 and, of a group member, H4 are read. -/
def Circuit.vcDone (c : Circuit) (v : List Byte) (member : Bool) : Circuit :=
  let poh := fun (r : Nat) => v.getD (261 * r) 0
  let errs := match c.bip with | some b => diffBits [b] [poh 1] | none => 0
  let c := { c with b3 := (c.b3 + errs) % 2 ^ 32, bip := some (bip8 v), ref := some c.vcAt }
  let c := c.runDefect Cd.hpRdi 6 (bitOf (poh 3).toNat 3) 5 5
  if member then c.member (poh 5).toNat else c

/-- Bytes of a VC-4 go to the frame arriving and, of a circuit that is packed, to the elastic buffer. -/
def Circuit.push (c : Circuit) (l : List Byte) : Circuit :=
  { c with vc := c.vc.map (· ++ l), buffer := if c.upEn then c.buffer ++ l else c.buffer }

/-- A J1 comes at instant `t`: the frame before it is whole if 2,349 bytes of it came. -/
def Circuit.newVc (c : Circuit) (t : Nat) (member : Bool) : Circuit :=
  let c := match c.vc with
    | some v => if v.length = 2349 then c.vcDone v member else { c with bip := none }
    | none => c
  { c with vc := some [], vcAt := t, marks := if c.upEn then c.marks ++ [(c.buffer.length, (c.mfi + 1) % 4096)] else c.marks }

/-- Bytes of a VC-4 come in order, the first of them in slot `p` of its SDH frame, which began at instant `t0`; among them at most one J1. -/
def Circuit.feed (c : Circuit) (l : List Byte) (p t0 : Nat) (member : Bool) : Circuit :=
  if l.length ≤ c.toJ1 then { c.push l with toJ1 := c.toJ1 - l.length }
  else
    let n := c.toJ1
    let q := p + n
    let c := (c.push (l.take n)).newVc (t0 + (q / 261 * 270 + 9 + q % 261) * frameSymbols / 2430) member
    { c.push (l.drop n) with toJ1 := 2349 - (l.length - n) }

/-- One AU-4 of a received frame, which began at instant `t0`: its pointer is interpreted, the bytes of its VC-4 are those of rows 1 to 3,
of H3 after a decrement, and of the rest without its first three after an increment. A stream begins behind H3.
[PRESUMED, log entry 86] -/
def State.au4Rx (s : State) (i : Nat) (x : Au4Rx) (t0 : Nat) : State :=
  let old := s.circuit i
  let member := old.grpEn && s.groupEn old.group
  let (c, ev) := old.interpret x.h
  if c.defect Cd.lop || c.defect Cd.auAis || !c.locked then s.setCircuit i c
  else
    let c := if old.locked then c.feed x.top 0 t0 member else c
    let c := if ev == .new then { c with toJ1 := 3 * ptrValue x.h } else c
    let c := if ev == .dec then c.feed x.h3 783 t0 member else c
    let c := if ev == .inc then c.feed (x.rest.drop 3) 786 t0 member else c.feed x.rest 783 t0 member
    s.setCircuit i c

/-- SEL of a DCC timeslot as it is treated. -/
def State.dccSel (s : State) (n : Nat) : Nat :=
  let v := s.fld (R.circDccMap n) F.circDccMap_sel
  if v = 3 then 0 else v
def State.dccLane (s : State) (n : Nat) : Nat := s.fld (R.circDccMap n) F.circDccMap_lane

def State.dccWait (s : State) (n : Nat) : List (Nat × List Byte) := Tbl.get (fun _ => []) s.circ.dccWait n
def State.setDccWait (s : State) (n : Nat) (l : List (Nat × List Byte)) : State :=
  { s with circ := { s.circ with dccWait := Tbl.set (fun _ => []) s.circ.dccWait n l } }

/-- The instant at which the D byte of multi-column 7 in row `r` of a frame begun at `t0` has been received, or sent.
[DESIGN CHOICE, log entry 186] -/
def dccInstant (t0 r : Nat) : Nat := t0 + ((r - 1) * 270 + 7) * frameSymbols / 2430

/-- The D bytes of a received frame wait at every timeslot that selects them (R345, R346). -/
def State.dccPush (s : State) (k t0 : Nat) (r m : List Byte) : State :=
  (List.range 192).foldl (fun s n =>
    if s.dccLane n = k ∧ s.dccSel n ≠ 0 then
      s.setDccWait n (s.dccWait n ++ [if s.dccSel n = 1 then (dccInstant t0 3, takePad 3 r) else (dccInstant t0 8, takePad 9 m)])
    else s) s

/-- The BIPs of a frame received are kept, those of the frame before it are checked against B1 and B2: the error counts. -/
def State.sdhParity (s : State) (k : Nat) (f : SdhFrame) : (Nat × Nat) × State :=
  let n := s.stmN k
  let l := s.sdh k
  let e1 := match l.b1 with | some b => diffBits [b] [sohByte f n 2 1 1] | none => 0
  let e2 := match l.b2 with | some b => diffBits b (b2Of f n) | none => 0
  ((e1, e2), s.setSdh k { l with b1 := some (bip8 f.rows.flatten), b2 := some (rowsBip n (sdhRow f n)), rei := e2 })

/-- One received SDH frame, taken at its end. [DEDUCED, log entry 179] -/
def State.sdhFrame (s : State) (k : Nat) (f : SdhFrame) : State :=
  if !s.sdhLane k || s.restarting Src.circ then s
  else
    let n := s.stmN k
    let t0 := s.time.now - frameSymbols
    let s := s.setSdh k { s.sdh k with last := s.time.now }
    let s := s.laneRun k 2 (!sdhFramed f n) 4 2
    if s.laneDefect k 1 || s.laneDefect k 2 then s.setSdh k { s.sdh k with b1 := none, b2 := none }
    else
      let s := (s.setFld (R.circLaneStatus k) F.circLaneStatus_j0Rx (sohByte f n 1 7 1).toNat).setFld (R.circLaneStatus k) F.circLaneStatus_s1Rx
        (sohByte f n 9 1 1).toNat
      let ((e1, e2), s) := s.sdhParity k f
      let s := (s.count (R.circLaneBip k) F.circLaneBip_b1 e1).count (R.circLaneBip k) F.circLaneBip_b2 e2
      let kk := k1k2Of f n
      let s := s.laneRun k 4 (kk % 8 == 7) 3 3
      let s := s.laneRun k 5 (kk % 8 == 6) 5 5
      let s := s.laneK k kk
      let s := if s.laneLost k then s else
        (List.range n).foldl (fun s a => s.au4Rx (64 * k + a) (au4Of f n a) t0) s
      s.dccPush k t0 (dccROf f n) (dccMOf f n)


/-- Whether a lane sends MS-RDI (R342, R351). [DESIGN CHOICE, log entry 84] -/
def State.sendsRdi (s : State) (k : Nat) : Bool :=
  s.bit (R.circLaneCfg k) F.circLaneCfg_forceRdi ||
    (s.bit (R.circLaneCfg k) F.circLaneCfg_rdiAuto && (s.laneDefect k 1 || s.laneDefect k 3 || s.laneDefect k 4))

/-- Whether a lane sends MS-AIS: forced, or while the engine restarts (R342, R343). [DESIGN CHOICE, log entry 84] -/
def State.sendsMsAis (s : State) (k : Nat) : Bool :=
  s.bit (R.circLaneCfg k) F.circLaneCfg_forceAis || s.restarting Src.circ

/-- K1 and K2 as a lane sends them (R351): K2 bits 6 to 8 are 110 while MS-RDI is sent. [DESIGN CHOICE, log entry 84] -/
def State.sentK (s : State) (k : Nat) : Nat :=
  let w := s.fld (R.circLaneK k) F.circLaneK_txK
  if s.sendsRdi k then w / 8 * 8 + 6 else w

/-! ## DCC ports (R344 to R346) -/

/-- 2 µs in symbols. -/
def dccGap : Nat := 425000

/-- The 96 bits of one timeslot of a port frame that begins at instant `t`: of the frames whose bytes have waited for 2 µs, the older are
dropped. [DESIGN CHOICE, log entry 186] -/
def State.dccSlot (s : State) (n t : Nat) : List Bool × State :=
  let sel := s.dccSel n
  if sel = 0 then (List.replicate 96 true, s)
  else
    let (w, later) := (s.dccWait n).partition (fun e => decide (e.1 + dccGap ≤ t))
    let s := if w.length ≠ 1 then s.circCount 10 else s
    match w.getLast? with
    | none => (List.replicate 96 true, s)
    | some b => ((bitsOfBytes b.2 ++ List.replicate 96 true).take 96, s.setDccWait n later)

/-- Whether a lane's transmit clock is the medium (R198): CTX_SRC of its octet. [DESIGN CHOICE, log entry 185] -/
def State.laneMedium (s : State) (k : Nat) : Bool := bitOf (s.fld R.timeClkCfg F.timeClkCfg_ctxSrc) (k / 8)

/-- A DCC slips on insertion (R346); a lane whose transmit clock is the medium never does. -/
def State.dccSlip (s : State) (k : Nat) : State := if s.laneMedium k then s else s.circCount 11

/-- The bits of a port frame are kept for insertion from instant `t`, from the lowest timeslot that selects a DCC (R345).
[DESIGN CHOICE, log entry 186] -/
def State.dccInsert (s : State) (n t : Nat) (bits : List Bool) : State :=
  let sel := s.dccSel n
  let k := s.dccLane n
  if sel = 0 ∨ (List.range n).any (fun m => s.dccSel m == sel && s.dccLane m == k) then s
  else if sel = 1 then s.setSdh k { s.sdh k with insR := (s.sdh k).insR ++ [(t, bits.take 24)] }
  else s.setSdh k { s.sdh k with insM := (s.sdh k).insM ++ [(t, bits.take 72)] }

/-- DCC_PHASE in symbols of the frame, a cell being 25 of them; values above 1,062,499 are treated as 1,062,499 (R344, R349). -/
def State.dccPhase (s : State) : Nat := 25 * min 1062499 (s.fld R.circCfg F.circCfg_dccPhase)

/-- What the balls of a port carry now (R344): clock, frame signal and data; low while the ports do not run, none while the CIRC domain is
off and they float. [DESIGN CHOICE, log entry 186] -/
def State.dccBalls (s : State) (i : Nat) : Option (Bool × Bool × Bool) :=
  if !s.domOn 10 then none
  else
    let out := Tbl.get (fun _ => []) s.circ.dccOut i
    if !s.dccRuns || out.isEmpty then some (false, false, false)
    else
      let f := Tbl.get (fun _ => 0) s.circ.dccAt i
      let since := s.time.frame * frameSymbols + s.time.sym - (f * frameSymbols + s.dccPhase)
      let half := since * 3072 / frameSymbols
      some (half % 2 == 0, half / 2 == 0, out.getD (half / 2) true)

/-- A port frame of port `i` begins, at LP(F, DCC_PHASE, 0): the line position goes on to that point if it lies ahead in this frame, else
nothing begins. Its bits are those sent and those sampled; those of frame F are inserted from 2 µs after its end.
[DESIGN CHOICE, log entry 186] -/
def State.dccFrame (s : State) (i : Nat) (dataIn : List Bool) : State :=
  if !s.dccRuns || decide (s.dccPhase < s.time.sym) then s
  else
    let s := { s with time := { s.time with now := s.time.now + (s.dccPhase - s.time.sym), sym := s.dccPhase } }
    let t := s.time.now
    let (out, s) := (List.range 16).foldl (fun (a : List Bool × State) j =>
      let (b, s) := a.2.dccSlot (16 * i + j) t
      (a.1 ++ b, s)) ([], s)
    let circ := { s.circ with dccOut := Tbl.set (fun _ => []) s.circ.dccOut i out, dccAt := Tbl.set (fun _ => 0) s.circ.dccAt i s.time.frame }
    let s := { s with circ := circ }
    (List.range 16).foldl (fun s j => s.dccInsert (16 * i + j) (t + frameSymbols + dccGap) ((dataIn.drop (96 * j)).take 96)) s

/-! ## The SDH transmitter (R325, R337, R342, R346, R351) -/

/-- The bits of a DCC in the frame that lane `k` sends, whose D bytes begin at instant `t`, `w` being those that wait; the others wait on.
Ones where no timeslot selects it, and ones with a shortfall counted where the ports run and none wait; of several the older are dropped,
as a surplus. [DESIGN CHOICE, log entry 84] -/
def State.dccSend (s : State) (k sel n t : Nat) (w : List (Nat × List Bool)) : (List Bool × List (Nat × List Bool)) × State :=
  let ones := List.replicate n true
  if !(List.range 192).any (fun m => s.dccSel m == sel && s.dccLane m == k) then ((ones, []), s)
  else
    let (due, later) := w.partition (fun e => decide (e.1 ≤ t))
    match due.getLast? with
    | some b => ((b.2, later), if 1 < due.length then s.dccSlip k else s)
    | none => ((ones, later), if s.dccRuns then s.dccSlip k else s)

/-- Eight bits each, most significant first. -/
def bytesOfBits (n : Nat) (l : List Bool) : List Byte := (List.range n).map (fun i => BitVec.ofNat 8 (natOfBits ((l.drop (8 * i)).take 8)))

/-- What timeslot (circuit) `i` transmits (R342): unequipped, AU-AIS or the VC-4 bytes that the pointer generator takes from the playout
buffer. [DESIGN CHOICE, log entry 84] -/
inductive Timeslot where
  | unequipped
  | auAis
  | vc4
  deriving DecidableEq, Repr

def State.timeslot (s : State) (i : Nat) : Timeslot :=
  let c := s.circuit i
  if !c.dnEn then .unequipped
  else
    match c.out with
    | some x => if x.ais then .auAis else .vc4
    | none => .auAis

/-- The fill of circuit `i`'s playout buffer off its centre as its lane begins a frame: bytes of a container come evenly over its 125 µs.
[DEDUCED, log entry 180] -/
def State.playFill (s : State) (i : Nat) : Int := ((s.circuit i).play.length : Int) + s.phaseBytes i - 2 * 2349

/-- H1 and H2 (R337): NDF 1001 or normal 0110, SS 10, the pointer with its I bits (1) or its D bits (2) inverted.
[PRESUMED, log entry 176] -/
def ptrWord (ndf : Bool) (p just : Nat) : Nat :=
  (if ndf then 0x9800 else 0x6800) + ((p % 1024) ^^^ (if just = 1 then 0x2AA else if just = 2 then 0x155 else 0))

/-- Six bytes off the centre the pointer generator justifies, at most once in any four frames (R337).
[DEDUCED, log entry 180; DESIGN CHOICE, log entry 181] -/
def State.txJust (s : State) (i : Nat) : Nat :=
  let c := s.circuit i
  let e := s.playFill i
  if c.txWait < 3 then 0 else if 6 ≤ e then 2 else if e ≤ -6 then 1 else 0

/-- Take `n` bytes from the head of the playout buffer; bytes that have not come are left open by the spec.
[DESIGN CHOICE, log entry 181] -/
def State.playTake (s : State) (i n : Nat) : List Byte × State :=
  let c := s.circuit i
  let (l, s) := s.freeBytes (n - c.play.length)
  (c.play.take n ++ l, s.setCircuit i { c with play := c.play.drop n
                                               playMarks := (c.playMarks.filter (fun m => decide (n ≤ m))).map (· - n) })

/-- The AU-4 of circuit `i` in the frame that its lane sends: rows 1 to 3, the pointer, H3 and the rest. A J1 that does not stand where the
pointer in use says makes a new pointer with NDF. -/
def State.au4Send (s : State) (i : Nat) : Au4Tx × State :=
  match s.timeslot i with
  | .unequipped => (.unequipped, s)
  | .auAis => (.ais, s)
  | .vc4 =>
    let (top, s) := s.playTake i 783
    let c := s.circuit i
    let p := match c.playMarks.head? with | some m => m / 3 % 783 | none => c.txPtr
    let ndf := c.txNdf || p != c.txPtr
    let just := if ndf then 0 else s.txJust i
    let (h3, s) := if just = 2 then s.playTake i 3 else (zeroBytes 3, s)
    let (rest, s) := if just = 1 then
        let (l, s) := s.playTake i 1563
        (zeroBytes 3 ++ l, s)
      else s.playTake i 1566
    let wait := if just = 0 then min 3 (c.txWait + 1) else 0
    (⟨ptrWord ndf p just, h3, top ++ rest⟩, s.setCircuit i { s.circuit i with txPtr := nextPtr p just, txNdf := false, txWait := wait })

/-- The AU-4s of a frame in order. -/
def State.au4sSend (s : State) : List Nat → List Au4Tx × State
  | [] => ([], s)
  | i :: t =>
    let (u, s) := s.au4Send i
    let (us, s) := s.au4sSend t
    (u :: us, s)

/-- Lane `k` sends one SDH frame, begun at instant `t`: REI and the DCC bits are used up. With a near-end loop its own receiver takes it, with
a far-end loop the pins do not carry it (R321). [DESIGN CHOICE, log entries 84 and 178] -/
def State.sdhSend (s : State) (k t : Nat) : State :=
  let n := s.stmN k
  let l := s.sdh k
  let ((r, restR), s) := s.dccSend k 1 24 (t + 2 * 270 * frameSymbols / 2430) l.insR
  let ((m, restM), s) := s.dccSend k 2 72 (t + 2 * 270 * frameSymbols / 2430) l.insM
  let (au, s) := s.au4sSend ((List.range n).map (64 * k + ·))
  let cfg := R.circLaneCfg k
  let f : SdhSent :=
    { j0 := s.fld cfg F.circLaneCfg_j0Tx, s1 := s.fld cfg F.circLaneCfg_s1Tx, k := s.sentK k, m1 := min 255 l.rei
      dccR := bytesOfBits 3 r, dccM := bytesOfBits 9 m, b1 := bip8 l.tx.flatten, b2 := l.txB2, msAis := s.sendsMsAis k }
  let rows := f.rows n au
  let sent := { s.sdh k with insR := restR, insM := restM, rei := 0, tx := rows, txB2 := rowsBip n (f.row n au) }
  match s.serdesLoop k with
  | 1 => (s.setSdh k sent).sdhFrame k ⟨rows⟩
  | 2 => s.setSdh k { sent with tx := l.tx }
  | _ => s.setSdh k sent

/-- How far, in symbols, a lane's own clock has moved against the line position in 125 µs: 4.6 parts in a million at most (R541), a free value.
[DESIGN CHOICE, log entry 185] -/
def clockDrift (v : BitVec 64) : Int := (v.toNat % 245 : Nat) - (122 : Int)

/-- The SDH frames that lane `k` begins in the 125 µs to come: one where its transmit clock is the medium; on another the place at which it
begins one moves with its clock, and it begins one, none or two. [DESIGN CHOICE, log entry 185] -/
def State.laneSends (s : State) (k : Nat) : State :=
  if s.laneMedium k then (s.setSdh k { s.sdh k with phase := 0 }).sdhSend k s.time.now
  else
    let (v, s) := s.takeFree
    let p : Int := (s.sdh k).phase + clockDrift v
    if p < 0 then
      let s := (s.setSdh k { s.sdh k with phase := 0 }).sdhSend k s.time.now
      let s := s.setSdh k { s.sdh k with phase := (p + frameSymbols).toNat }
      s.sdhSend k (s.time.now + (p + frameSymbols).toNat)
    else if (frameSymbols : Int) ≤ p then s.setSdh k { s.sdh k with phase := (p - frameSymbols).toNat }
    else (s.setSdh k { s.sdh k with phase := p.toNat }).sdhSend k (s.time.now + p.toNat)

/-- The SDH frames of all lanes. [DESIGN CHOICE, log entry 84] -/
def State.sdhSendAll (s : State) : State := ((List.range 96).filter s.sdhLane).foldl (·.laneSends) s

/-- A frame arrives at the pins of an SDH lane: with a near-end loop the receiver does not see it, with a far-end loop the lane sends it
again (R321). [DESIGN CHOICE, log entry 178] -/
def State.sdhArrives (s : State) (k : Nat) (f : SdhFrame) : State :=
  if !s.sdhLane k then s else
  match s.serdesLoop k with
  | 1 => s
  | 2 => (s.sdhFrame k f).setSdh k { (s.sdhFrame k f).sdh k with tx := f.rows }
  | _ => s.sdhFrame k f

/-- Everything the circuit engine does at LP(G, 0, 0): containers not taken, playout, closing for G + 1, the frames of the SDH lanes.
[DEDUCED, log entry 81] -/
def State.circBoundary (s : State) (g : Nat) : State := (((s.purgeConts g).playAll g).closeAll (g + 1)).sdhSendAll

end Sys2Proof.Machine
end

