-- ==== Sys2Proof/Machine/MedOps.lean ====
section
/-!
DEFINITION. The medium lane's operations: enabling and disabling a lane (R32, R47, R60, R165), its detectors (R53 to R56), the PRBS31
checker (R58) and the transmit PLL (R51).
-/

namespace Sys2Proof.Machine

/-! ## LANE_EN (R60, R165) -/

/-- LANE_EN from 0 to 1: the lane starts to receive, the plane leaves DOWN. -/
def State.laneUp (s : State) (p : Nat) : State :=
  let s := s.setBit (R.medLaneCfg p) F.medLaneCfg_laneEn true
  let s := s.huntRestart p
  let s := s.setLane p { s.lane p with good := 0, dwellOver := false, losWin := s.bit (R.medLaneStatus p) F.medLaneStatus_los, rateWin := false }
  let s := s.setBit (R.medLaneStatus p) F.medLaneStatus_txIdle (!s.testDrives p)
  if s.planeState p = 0 then s.setPlaneState p 1 else s

/-- LANE_EN from 1 to 0: the lane falls to electrical idle, its frame is abandoned, the plane goes to DOWN as for PLANE_RELEASE. That an aligned
plane is aligned no longer is PLANE_ALIGN_LOST; of an ASSIGNED or ACTIVE plane that was not, the terminal sees the fall here (R163). -/
def State.laneDown (s : State) (p : Nat) : State :=
  let s := s.setBit (R.medLaneCfg p) F.medLaneCfg_laneEn false
  let s := s.haltPlane p 8
  let s := (s.setFld (R.medLaneStatus p) F.medLaneStatus_rate 0).setBit (R.medLaneStatus p) F.medLaneStatus_hunting false
  let unheard := (s.planeState p = 3 ∨ s.planeState p = 4) ∧ !s.aligned p
  let s := s.abandonFrame p
  if s.planeState p = 0 then s else if unheard then (s.releaseTo p 0).termStep else s.releaseTo p 0

/-- LANE_EN set to a value. -/
def State.laneEnable (s : State) (p : Nat) (b : Bool) : State :=
  if s.bit (R.medLaneCfg p) F.medLaneCfg_laneEn = b then s else if b then s.laneUp p else s.laneDown p

/-- A change of GEN_MODE on a running lane (R32). [DEDUCED, log entry 24] -/
def State.modeChanged (s : State) (p : Nat) : State :=
  if s.huntMode p then
    if s.aligned p then s.setBit (R.medLaneStatus p) F.medLaneStatus_hunting false
    else (s.abandonFrame p).huntRestart p
  else
    let s := s.setBit (R.medLaneStatus p) F.medLaneStatus_hunting false
    if s.fld (R.medLaneStatus p) F.medLaneStatus_rate = s.startRate p then s
    else (s.setRate p (s.startRate p)).abandonFrame p

/-- GEN_MODE set to a value by the base program (R163, R179): the hunt of a running lane follows. -/
def State.setMode (s : State) (p m : Nat) : State :=
  let new := min 2 (s.fld (R.medLaneCfg p) F.medLaneCfg_genMode) ≠ min 2 m
  let s := s.setFld (R.medLaneCfg p) F.medLaneCfg_genMode m
  if new ∧ s.bit (R.medLaneCfg p) F.medLaneCfg_laneEn then s.modeChanged p else s

/-! ## LOS and LOL (R53 to R56) -/

/-- The amplitude detector reports signal absent: the differential peak-to-peak amplitude, in mV, is below 20 mV + 10 mV × LOS_THR (R52).
[DESIGN CHOICE, log entry 22] -/
def State.ampAbsent (s : State) (p millivolts : Nat) : Bool := decide (millivolts < 20 + 10 * s.fld (R.medRxCfg p) F.medRxCfg_losThr)

/-- Whether the lane's signal counts as absent, from the MSD ball and the amplitude detector, or from the looped signal (R53, R56).
[DESIGN CHOICE, log entry 22] -/
def State.signalAbsent (s : State) (p : Nat) (msdPin : Bool) (millivolts : Nat) : Bool :=
  let ampAbsent := s.ampAbsent p millivolts
  let m := s.loopback p
  if m = 1 ∨ m = 2 then s.patGen p == 0
  else
    let msdAbsent := msdPin == s.bit (R.medRxCfg p) F.medRxCfg_msdPol
    match s.fld (R.medRxCfg p) F.medRxCfg_losSrc with
    | 0 => msdAbsent
    | 1 => ampAbsent
    | 2 => msdAbsent || ampAbsent
    | _ => msdAbsent && ampAbsent

/-- The MSD field after polarity, of a ball at a level (R64). [DESIGN CHOICE, log entry 22] -/
def State.showMsd (s : State) (p : Nat) (msdPin : Bool) : State :=
  let s := s.setLane p { s.lane p with pin := msdPin }
  s.setBit (R.medLaneStatus p) F.medLaneStatus_msd (msdPin != s.bit (R.medRxCfg p) F.medRxCfg_msdPol)

/-- LOL asserted: the run of good windows ends and the frame is abandoned (R54, R55). -/
def State.setLol (s : State) (p : Nat) : State :=
  let s := s.setLane p { s.lane p with good := 0 }
  if s.bit (R.medLaneStatus p) F.medLaneStatus_lol then s
  else ((s.setBit (R.medLaneStatus p) F.medLaneStatus_lol true).latch (R.medDefect p) F.medDefect_lol).abandonFrame p

/-- LOS asserted; LOL is asserted with it (R54, R55). -/
def State.setLos (s : State) (p : Nat) : State :=
  if s.bit (R.medLaneStatus p) F.medLaneStatus_los then s
  else
    let s := (s.setBit (R.medLaneStatus p) F.medLaneStatus_los true).latch (R.medDefect p) F.medDefect_los
    let s := s.setLane p { s.lane p with losWin := true }
    (s.abandonFrame p).setLol p

/-- LOS cleared; in the near-end parallel loopback lock follows at once (R56). -/
def State.clearLos (s : State) (p : Nat) : State :=
  let s := s.setBit (R.medLaneStatus p) F.medLaneStatus_los false
  if s.loopback p = 2 then s.setBit (R.medLaneStatus p) F.medLaneStatus_lol false else s

/-! ## The PRBS31 checker (R58) -/

/-- One received symbol: while unlocked the register takes the received bits; 64 error-free symbols lock, more than 32 errors in
64 symbols unlock. Returns the lane and whether an error counts. [DEDUCED, log entry 25] -/
def prbsStep (l : MedLane) (locked : Bool) (y : Nat) : MedLane × Bool × Nat :=
  let (x, q) := prbsSymbol l.chk
  let ok := x == y && l.chk != 0
  if locked then
    let errs := ((!ok) :: l.chkErr).take 64
    if 32 < (errs.filter (· == true)).length then ({ l with chk := 0, chkRun := 0, chkErr := [] }, false, b2n !ok)
    else ({ l with chk := q, chkErr := errs }, true, b2n !ok)
  else
    let seen := (grayBits y).foldl (fun a b => (2 * a + b2n b) % 2 ^ 31) l.chk
    let run := if ok then l.chkRun + 1 else 0
    if 64 ≤ run then ({ l with chk := seen, chkRun := 0, chkErr := [] }, true, 0)
    else ({ l with chk := seen, chkRun := run }, false, 0)

/-- Check a string of received levels. [DEDUCED, log entry 25] -/
def prbsCheck : MedLane → Bool → List Nat → MedLane × Bool × Nat
  | l, k, [] => (l, k, 0)
  | l, k, y :: ys =>
    let (l, k, n) := prbsStep l k y
    let (l, k, m) := prbsCheck l k ys
    (l, k, n + m)

/-- The checker on the levels of a slot, while PAT_CHK = 1. [DEDUCED, log entry 25] -/
def State.checkPattern (s : State) (p : Nat) (levels : List Nat) : State :=
  if s.bit (R.medTest p) F.medTest_patChk then
    let (l, k, n) := prbsCheck (s.lane p) (s.bit (R.medTest p) F.medTest_chkLock) levels
    ((s.setLane p l).setBit (R.medTest p) F.medTest_chkLock k).count (R.medTestErr p) F.medTestErr_count n
  else s

/-- Received levels after RX_INV (R60). -/
def State.rxLevels (s : State) (p : Nat) (levels : List Nat) : List Nat :=
  if s.bit (R.medLaneCfg p) F.medLaneCfg_rxInv then levels.map (fun y => 3 - y % 4) else levels.map (· % 4)

/-! ## Generated patterns and far-end loopback (R56, R58) -/

/-- Transmit levels after TX_INV (R60). -/
def State.txLevels (s : State) (p : Nat) (levels : List Nat) : List Nat :=
  if s.bit (R.medLaneCfg p) F.medLaneCfg_txInv then levels.map (fun y => 3 - y % 4) else levels

/-- The pattern generator starts anew, at the register value the model leaves open. [DEDUCED, log entry 25] -/
def State.startPattern (s : State) (p : Nat) : State :=
  s.setLane p { s.lane p with patAt := 0, patQ := seedFix (Config.prbsStart p).toNat }

/-- The next `n` symbols of the pattern, which the lane's transmit levels carry. [DEDUCED, log entry 25] -/
def State.sendPattern (s : State) (p n : Nat) : List Nat × State :=
  let l := s.lane p
  let (ys, q) := patternSymbols n (s.patGen p) (l.patAt / s.symScale p) l.patQ
  let ys := s.txLevels p ys
  (ys, s.setLane p { l with patAt := l.patAt + n * s.symScale p, patQ := q, sent := ys })

/-- In far-end loopback received levels are sent on the transmit lane (R56). [DEDUCED, log entry 23] -/
def State.farEnd (s : State) (p : Nat) (levels : List Nat) : State :=
  if s.loopback p = 3 ∧ s.testDrives p then s.setLane p { s.lane p with sent := s.txLevels p levels } else s

/-- One Gen-2 symbol period of the transmit half: the next symbol of a pattern, or of the fill between joined bursts (R49, R58); at
Gen-1 a symbol lasts four periods (R31). [DEDUCED, log entry 25] -/
def State.laneTick (s : State) (p : Nat) (l : MedLane) : MedLane :=
  let fresh := l.patAt % s.symScale p == 0
  if s.bit (R.medLaneCfg p) F.medLaneCfg_laneEn && s.patGen p != 0 && s.loopback p != 3 then
    if fresh then
      let (y, q) := patternSymbol (s.patGen p) (l.patAt / s.symScale p) l.patQ
      { l with patAt := l.patAt + 1, patQ := q, sent := s.txLevels p [y] }
    else { l with patAt := l.patAt + 1 }
  else if l.fill then
    if fresh then
      let y := reserveLevel l.tx.level
      { l with patAt := l.patAt + 1, tx := trackLevels l.tx [y], sent := s.txLevels p [y] }
    else { l with patAt := l.patAt + 1 }
  else l

/-- Every lane for one Gen-2 symbol period. -/
def State.lanesTick (s : State) : State :=
  { s with med := { s.med with lanes := (List.range 24).foldl (fun t p =>
      Tbl.set (fun _ => {}) t p (s.laneTick p (Tbl.get (fun _ => {}) t p))) s.med.lanes } }

/-! ## The transmit PLL (R51, R64) -/

/-- TXPLL_LOCK, the same in every plane unit whose domain has power, and bit MTX of CLK.PLL_STATUS (R549). -/
def State.showTxLock (s : State) : State :=
  let s := s.setFld R.clkPllStatus ⟨1, 1⟩ (b2n s.med.txLock)
  (List.range 24).foldl (fun s p => s.setBit (R.medLaneStatus p) F.medLaneStatus_txpllLock s.med.txLock) s

end Sys2Proof.Machine
end

