-- ==== Sys2Proof/Machine/WardOps.lean ====
section
/-!
DEFINITION. The ward: its permit intervals (R140, R142), its holds (R141), violations (R142, R143) and the messages it acts on
(R145).
-/

namespace Sys2Proof.Machine

/-- Set or clear a bit of WARD.STATUS; a change raises event source 32 × 0x9C + 1 (R382). -/
def State.setWard (s : State) (f : Fld) (b : Bool) : State :=
  if s.bit R.wardStatus f = b then s else (s.setBit R.wardStatus f b).edge (32 * 0x9C + 1)

/-- Set several fields of WARD.STATUS at once: one change, raised once (R382). -/
def State.setWards (s : State) (l : List (Fld × Nat)) : State :=
  let t := l.foldl (fun s e => s.setFld R.wardStatus e.1 e.2) s
  if t.reg R.wardStatus = s.reg R.wardStatus then t else t.edge (32 * 0x9C + 1)

/-- Violations within 1 s (R142). -/
def State.recentViolations (s : State) : List Nat := s.ward.violations.filter (fun t => decide (s.time.now - t ≤ 212500000000))

/-- VIOL_1S falls as violations come to lie more than 1 s back. -/
def State.wardAge (s : State) : State := s.setWards [(F.wardStatus_viol1s, min 3 s.recentViolations.length)]

/-- Whether the ward holds every MBEN inactive (R141). -/
def State.wardHolds (s : State) : Bool :=
  !s.lpValid || s.bit R.wardStatus F.wardStatus_locked || s.bit R.wardStatus F.wardStatus_permanent ||
    s.bit R.wardStatus F.wardStatus_fatal || s.bit R.wardStatus F.wardStatus_restartHold

/-- A hold of the ward ends: the bursts whose lead lies wholly after this instant are sent (R145). -/
def State.wardFree (s : State) : State := { s with ward := { s.ward with freeFrom := s.now16 } }

/-- The ward's EQD of plane `p` in force for frame `f` (R126). -/
def State.wardEqd (s : State) (p f : Nat) : Nat :=
  eqdFor (Tbl.get (fun _ => []) s.ward.eqd p) f (s.fld (R.wardPlaneEqd p) F.wardPlaneEqd_eqd)

/-- The permit interval of an entry (R140). [DEDUCED, log entry 41] -/
def State.permitOf (s : State) (g : Grant) : Int × Int :=
  let e := s.wardEqd g.plane g.frame
  (s.instant g.plane g.frame g.start e - 16 * 200, s.instant g.plane g.frame (g.start + g.length) e + 16 * 64)

/-- The permit intervals of plane `p`. [DEDUCED, log entry 41] -/
def State.permitsOf (s : State) (p : Nat) : List (Int × Int) :=
  (s.ward.entries.filter (fun g => g.plane == p)).map s.permitOf

/-- How far a request that starts at `x` may run inside the union of intervals that overlap or touch (R142). [DEDUCED, log entry 41] -/
def unionEnd (l : List (Int × Int)) : Nat → Int → Int
  | 0, x => x
  | fuel + 1, x =>
    let y := l.foldl (fun m i => if i.1 ≤ x ∧ m < i.2 then i.2 else m) x
    if y = x then x else unionEnd l fuel y

/-- Whether an instant lies in some interval. -/
def inUnion (l : List (Int × Int)) (x : Int) : Bool := l.any (fun i => decide (i.1 ≤ x) && decide (x < i.2))

/-- A violation (R142, R143): every burst in progress is cut, the violation counted and logged, and WARD raises class D and holds
for the UBB's restart, or, at the third within 1 s, class F and FATAL. [DEDUCED, log entries 42 and 148] -/
def State.violation (s : State) (p : Nat) (overrun : Bool) : State :=
  if !s.lpValid then s
  else
    let l := s.recentViolations ++ [s.time.now]
    let n := min 3 l.length
    let s := { s with ward := { s.ward with violations := l } }
    let s := s.cutAll.count R.wardCounts F.wardCounts_violations
    let s := if s.bit R.wardViolLog F.wardViolLog_valid then s
      else (s.setReg R.wardViolLog (BitVec.ofNat 64 (p % 32 * 2 ^ 58 + b2n overrun * 2 ^ 57 + s.time.frame % 2 ^ 48))).latch
        R.wardViolLog F.wardViolLog_valid
    let s := s.setWards [(F.wardStatus_viol1s, n), (if n = 3 then F.wardStatus_fatal else F.wardStatus_restartHold, 1)]
    let code := 5 * 4096 + p % 32 + b2n overrun * 32 + n * 64
    s.signal Src.ward (if n = 3 then 3 else 2) code

/-! ## Requests for MBEN (R48 to R50, R142) -/

/-- Whether the UBB restarts: as a unit lost, or from the moment a violation sets RESTART_HOLD (R142). [DEDUCED, log entry 38] -/
def State.ubbRestarts (s : State) : Bool := s.ubbDown || s.bit R.wardStatus F.wardStatus_restartHold

/-- Whether a burst cannot start on a lane (R50, R51, R57, R137, R509). [DEDUCED, log entry 36] -/
def State.laneBlocked (s : State) (p : Nat) : Bool :=
  !s.med.txLock || s.med.txWait || s.restarting (Src.med (p / 4)) || !s.bit (R.medLaneCfg p) F.medLaneCfg_laneEn ||
    s.bit (R.medLaneStatus p) F.medLaneStatus_hunting || s.fld (R.medLaneStatus p) F.medLaneStatus_rate == 0 ||
    s.loopback p != 0 || s.patGen p != 0

/-- The burst of plane `p` under build that launches first among those a predicate selects. -/
def State.buildOf (s : State) (p : Nat) (f : Build → Bool) : Option Build :=
  (s.ubb.builds.filter (fun b => f b && b.on p)).foldl (fun b x =>
    match b with
    | none => some x
    | some y => if x.launch < y.launch then some x else b) none

/-- Whether the request for MBEN of a burst would be a violation: its lead begins outside every permit interval, or the lag of the burst
before, to which it is joined, runs out of them first (shown as an overrun). A request already made has been judged. -/
def State.badRequest (s : State) (p : Nat) (l : BurstLine) : Option Bool :=
  match (s.uplane p).lag with
  | some (a, e) => if unionEnd (s.permitsOf p) 400 a < min e l.leadAt then some true else if inUnion (s.permitsOf p) l.leadAt then none else some false
  | none => if (s.uplane p).req || inUnion (s.permitsOf p) l.leadAt then none else some false

/-- The lead of a committed burst begins: the UBB requests MBEN, which goes active unless the ward holds it.
[DESIGN CHOICE, log entry 35] -/
def State.leadStart (s : State) (p : Nat) (l : BurstLine) : State :=
  match if s.lpValid then s.badRequest p l else none with
  | some o => s.violation p o
  | none => (s.setUplane p { s.uplane p with req := true }).setBit (R.medLaneStatus p) F.medLaneStatus_mben (!s.wardHolds)

/-- The lag of a burst ends: MBEN goes inactive, unless another burst holds it (R48, R49). [DESIGN CHOICE, log entry 35] -/
def State.lagEnd (s : State) (p : Nat) (a e : Int) : State :=
  let t := s.setUplane p { s.uplane p with lag := none }
  if s.lpValid && decide (unionEnd (s.permitsOf p) 400 a < e) then t.violation p true
  else if t.joins p e then t else t.stopPlane p

/-- What falls due on a plane as time passes: the end of a lag, the start of a committed burst's lead (R48).
[DESIGN CHOICE, log entry 35] -/
def State.mbenTick (s : State) (p : Nat) : State :=
  let s := match (s.uplane p).lag with
    | some (a, e) => if e ≤ s.now16 then s.lagEnd p a e else s
    | none => s
  match s.buildOf p (fun b => b.committed && !b.launched) with
  | some b =>
    if !(s.uplane p).req && !s.laneBlocked p && !s.ubbRestarts && decide ((b.line p).leadAt ≤ s.now16) then s.leadStart p (b.line p) else s
  | none => s

/-- A message's CODE compared with WARD.CODE (R144, R145, R169). [DEDUCED, log entry 43] -/
def State.codeMatches (s : State) (m : Msg) : Bool :=
  bodyField m.body 16 127 64 == (s.reg R.wardCode).toNat

/-- Take a message from those delivered by the DFP, if it is there. -/
def State.takeInbox (s : State) (m : Msg) : State :=
  { s with dfp := { s.dfp with inbox := s.dfp.inbox.erase m } }

/-- A message whose LENGTH is shorter than its body is not acted on by hardware (R168). -/
def shortBody (m : Msg) (n : Nat) : Bool := decide (m.body.length < n)

/-- The base program records the REASON of a LOCKOUT, LOCKOUT_PERMANENT or RELEASE by a LOG message: the message's type and the REASON
(R169, R499). [DESIGN CHOICE, log entry 134] -/
def State.logReason (s : State) (m : Msg) : State :=
  let body := beBytes 8 (msgType m * 2 ^ 16 + bodyField m.body 16 63 48)
  { s with preura := { s.preura with inbox := s.preura.inbox ++ [⟨0, 1, body⟩] } }

/-- The base program takes the copy of a message that hardware acts on (R87): one that is too short is counted (R168), the REASON of
the ward's messages is logged. -/
def State.readCopy (s : State) (m : Msg) (n : Nat) : State :=
  if s.dfp.msgq.contains m then
    let s := { s with dfp := { s.dfp with msgq := s.dfp.msgq.erase m } }
    if shortBody m n then s.count R.sysRejectCounts F.sysRejectCounts_shortBody
    else if msgType m = 0x0E then s else s.logReason m
  else s

/-- LOCKOUT (R145). -/
def State.wardLockout (s : State) (m : Msg) (permanent : Bool) : State :=
  let s := s.takeInbox m
  if !s.codeMatches m then s.count R.wardCounts F.wardCounts_mismatch
  else
    let s := s.count R.wardCounts F.wardCounts_lockouts
    let l := if permanent then [(F.wardStatus_permanent, 1)] else []
    (s.setWards ((F.wardStatus_locked, 1) :: l)).cutAll

/-- RELEASE (R145). -/
def State.wardRelease (s : State) (m : Msg) : State :=
  let s := s.takeInbox m
  if !s.codeMatches m then s.count R.wardCounts F.wardCounts_mismatch
  else
    let s := s.count R.wardCounts F.wardCounts_releases
    if s.bit R.wardStatus F.wardStatus_permanent || !s.bit R.wardStatus F.wardStatus_locked then s
    else (s.setWard F.wardStatus_locked false).wardFree

/-- A message of the ward as it comes: the program's copy, and the ward's own act, which a message parcel (R166) or a short message has
not. -/
def State.wardMessage (s : State) (m : Msg) (act : State → State) : State :=
  let s := s.readCopy m 16
  if m.parcel then s else if shortBody m 16 then s.takeInbox m else act s

end Sys2Proof.Machine
end

