-- ==== Sys2Proof/Machine/TimeOps.lean ====
section
/-!
DEFINITION. The time unit: anchors and medium time (R199 to R203), the end of the line position (R196, R205), pulse outputs (R215 to
R217), capture inputs (R218) and snapshots (R221), with the meanings of their commands.
-/

namespace Sys2Proof.Machine

/-! ## Anchors (R200, R201) -/

/-- The estimate E of an anchor in 2^-16 ns, rounded to the nearest: hub time, one-way delay of the plane, its offset, and the
frames between. [DEDUCED, log entry 51] -/
def State.anchorTime (s : State) (m : Msg) : Int :=
  let f := bodyField m.body 24
  let rtd : Int := (s.fld (R.timePlaneRtd m.plane) F.timePlaneRtd_rtd : Int)
  let coeff := sext 32 (s.fld (R.timePlaneAsym m.plane) F.timePlaneAsym_coeff)
  let off := sext 32 (s.fld (R.dfpPlaneOffset m.plane) F.dfpPlaneOffset_offset)
  let num := rtd * (2 ^ 31 + coeff) - off * 2 ^ 36
  let den : Int := 425 * 2 ^ 19
  let hub : Int := (((f 143 80 * 1000000000 + f 79 48) * 65536 + f 47 32 : Nat) : Int)
  hub + (2 * num + den) / (2 * den) + ((m.frame : Int) + 1 - f 191 144) * frameTime

/-- The primary plane (R201). -/
def State.primaryPlane (s : State) : Option Nat :=
  match s.timingPlane with
  | some p => if s.rtdValid p then some p else (planesWhere s.rtdValid).head?
  | none => (planesWhere s.rtdValid).head?

/-- An anchor is accepted as an estimate, or rejected (R201). [DEDUCED, log entry 52] -/
def State.anchorMessage (s : State) (m : Msg) : State :=
  let s := s.takeInbox m
  let f := bodyField m.body 24 191 144
  if shortBody m 24 then s
  else if s.lpValid && s.rtdValid m.plane && decide (m.frame ≤ f + 15) && decide (f ≤ m.frame) then
    let e : Estimate := ⟨m.plane, m.frame, s.anchorTime m, s.primaryPlane == some m.plane⟩
    { s with time := { s.time with estimates := s.time.estimates ++ [e] } }
  else s.count R.timeCounts F.timeCounts_anchorReject

/-- ANCHOR (R201). -/
def execAnchor (m : Msg) (s : State) : Host.Outcome State Fault Refusal := .next (s.anchorMessage m)

/-! ## Medium time at a boundary (R199, R202) -/

/-- Record a step from `before` to `after` at the present frame (R202, R222). [DEDUCED, log entry 52] -/
def State.recordStep (s : State) (before after : Int) : State :=
  let d := after - before
  let sec := d / (65536 * 1000000000)
  let ns := d - sec * (65536 * 1000000000)
  let s := s.setReg R.timeStepFrame (BitVec.ofNat 64 (s.time.frame % 2 ^ 48))
  (s.setReg R.timeStepSec (BitVec.ofNat 64 (toTwos 64 sec))).setReg R.timeStepNs (BitVec.ofNat 64 ns.toNat)

/-- STEP_THR in 2^-16 ns. -/
def State.stepThr (s : State) : Int := ((max 1 (s.fld R.timeCfg F.timeCfg_stepThr) * 65536 : Nat) : Int)

/-- Apply an estimate at the boundary it names (R202, R203, R205). [DEDUCED, log entry 52] -/
def State.applyEstimate (s : State) (e : Int) : State :=
  let mt := s.bit R.timeStatus F.timeStatus_mtValid
  let before := if mt then s.time.tF else symbolTime (s.time.now : Int)
  let err := e - before
  let s := s.setReg R.timeAnchorErr (BitVec.ofNat 64 (toTwos 64 err))
  let s : State :=
    if !mt then
      let s := { s with time := { s.time with tF := e, residual := 0 } }
      (s.setBit R.timeStatus F.timeStatus_mtValid true).recordStep before e
    else if s.stepThr < err ∨ err < -s.stepThr then
      ({ s with time := { s.time with tF := e, residual := 0 } }.recordStep before e).count R.timeCounts F.timeCounts_steps
    else { s with time := { s.time with residual := err } }
  let s := s.count R.timeCounts F.timeCounts_applied
  let s : State := { s with time := { s.time with tAnchor := some (s.time.frame + 64) } }
  let c : Nat := s.fld R.timeStatus F.timeStatus_code
  if c = 1 ∨ c = 3 then s.setCode 2 else s

/-- The estimates of the frame before: the primary's last one is applied, each other one compared with it (R201, R202). Those of this
frame wait for their own boundary; one whose boundary has passed is not applied, and counted. [DEDUCED, log entry 52] -/
def State.anchorBoundary (s : State) : State :=
  let l := s.time.estimates.filter (fun (x : Estimate) => x.frame + 1 == s.time.frame)
  let late := (s.time.estimates.filter (fun (x : Estimate) => decide (x.frame + 1 < s.time.frame))).length
  let s := { s with time := { s.time with
    estimates := s.time.estimates.filter (fun (x : Estimate) => decide (s.time.frame ≤ x.frame)) } }
  let s := s.count R.timeCounts F.timeCounts_anchorReject late
  match (l.filter (·.primary)).getLast? with
  | none => s
  | some e =>
    let thr : Int := ((s.fld R.timeCfg F.timeCfg_checkThr * 65536 : Nat) : Int)
    let n := (l.filter (fun x => !x.primary && x.frame == e.frame && (decide (thr < x.value - e.value) || decide (thr < e.value - x.value)))).length
    (s.applyEstimate e.value).count R.timeCounts F.timeCounts_anchorDisagree n

/-- The slew of a boundary (R202). -/
def State.slew (s : State) : State :=
  let m : Int := ((max 1 (s.fld R.timeCfg F.timeCfg_slewStep) : Nat) : Int)
  let d := clampI m s.time.residual
  let r := s.time.residual - d
  { s with time := { s.time with tF := s.time.tF + d, residual := r } }.setBit R.timeStatus F.timeStatus_slewing (r != 0)

/-- T_ANCHOR_EXPIRY (R203, R205). [DESIGN CHOICE, log entry 45] -/
def execTAnchorExpiry (s : State) : Host.Outcome State Fault Refusal :=
  .next (match s.time.tAnchor with
    | some f =>
      if f ≤ s.time.frame then
        let s := { s with time := { s.time with tAnchor := none } }
        if s.fld R.timeStatus F.timeStatus_code = 2 then s.setCode 3 else s
      else s
    | none => s)

/-! ## Pulse outputs (R215 to R217) -/

def State.pulse (s : State) (i : Nat) : Pulse := Tbl.get (fun _ => {}) s.time.pulses i
def State.setPulse (s : State) (i : Nat) (v : Pulse) : State :=
  { s with time := { s.time with pulses := Tbl.set (fun _ => {}) s.time.pulses i v } }

def State.tpoArmed (s : State) (i : Nat) : Bool := s.bit (R.timeTpoCfg i) F.timeTpoCfg_armed
def State.tpoTimeMode (s : State) (i : Nat) : Bool := s.bit (R.timeTpoCfg i) F.timeTpoCfg_mode

/-- Whether an output is held inactive because the terminal is not lead (R217). -/
def State.tpoHeld (s : State) (i : Nat) : Bool := s.bit (R.timeTpoCfg i) F.timeTpoCfg_leadOnly && !s.isLead

/-- The level of ball TPO[i]: active high, or active low with POL = 1 (R217, R224). -/
def State.tpoBall (s : State) (i : Nat) : Bool :=
  ((s.pulse i).fall.isSome && !s.tpoHeld i) != s.bit (R.timeTpoCfg i) F.timeTpoCfg_pol

/-- Whether medium time can place an edge. -/
def State.mediumTime (s : State) : Bool := s.lpValid && s.bit R.timeStatus F.timeStatus_mtValid

/-- Count an edge that is not emitted. -/
def State.tpoMissed (s : State) (i : Nat) (n : Nat := 1) : State := s.count (R.timeTpoPeriod i) F.timeTpoPeriod_missed n

/-- A one-shot disarms after its edge. -/
def State.tpoAfter (s : State) (i : Nat) : State :=
  if (s.pulse i).period = 0 then s.setBit (R.timeTpoCfg i) F.timeTpoCfg_armed false else s

/-- The start of a pulse output from T0 and T1 (R224). -/
def State.tpoStart (s : State) (i : Nat) (time : Bool) : Int :=
  let hi := (s.reg (R.timeTpoT0 i)).toNat
  let lo := (s.reg (R.timeTpoT1 i)).toNat
  if time then (((hi * 1000000000 + bitsOf lo 63 32) * 65536 + bitsOf lo 31 16 : Nat) : Int)
  else ((16 * (hi % 2 ^ 48 * frameSymbols + 25 * bitsOf lo 29 9 + bitsOf lo 8 4) + bitsOf lo 3 0 : Nat) : Int)

/-- Now and 1 µs in a mode's units; none while the mode's scale does not run: no start counts as passed then.
[DESIGN CHOICE, log entry 168] -/
def State.tpoNow (s : State) (time : Bool) : Option (Int × Int) :=
  if time then (if s.mediumTime then some (s.timeNow, 65536000) else none)
  else if s.lpValid then some (16 * s.lpNow, 16 * 212500) else none

/-- The first edge at `start` plus a multiple of `period` that lies at `now` or later. -/
def firstEdge (start period now : Int) : Nat :=
  if now ≤ start then 0 else ((now - start + (period - 1)) / period).toNat

/-- Skip the edges of a time-mode output that T_F has left behind (R217). [DEDUCED, log entry 54] -/
def State.tpoSkip (s : State) (i : Nat) : State :=
  let u := s.pulse i
  let t := u.start + (u.k * u.period : Nat)
  let n := if u.period = 0 then b2n (decide (t < s.time.tF)) else firstEdge t u.period s.time.tF
  if n = 0 then s else ((s.setPulse i { u with k := u.k + n }).tpoMissed i n).tpoAfter i

/-- The line position, in sixteenths of a symbol, of an instant of medium time (R215), under the T_F in force. -/
def State.tpoPlace (s : State) (t : Int) : Int :=
  16 * (s.time.frame * frameSymbols : Nat) + (t - s.time.tF) * 425 / 8192

/-- Convert the edges that lie before the medium time of LP(F + 2, 0, 0) into line positions (R215). [DEDUCED, log entry 54] -/
def State.tpoConvert (s : State) (i : Nat) : State :=
  let u := s.pulse i
  let lim := s.time.tF + 2 * frameTime
  let t := u.start + (u.k * u.period : Nat)
  let n := if u.period = 0 then b2n (u.k == 0 && decide (t < lim)) else firstEdge t u.period lim
  let new : List (Int × Nat) := (List.range n).map (fun j => (s.tpoPlace (t + (j * u.period : Nat)), u.k + j))
  s.setPulse i { u with k := u.k + n, converted := u.converted ++ new }

/-- The edges of the armed time-mode outputs at a boundary (R215, R217). [DEDUCED, log entry 54] -/
def State.tpoBoundary (s : State) : State :=
  if !s.mediumTime then s
  else (List.range 8).foldl (fun s i =>
    if s.tpoArmed i && s.tpoTimeMode i then
      let s := s.tpoSkip i
      if s.tpoArmed i then s.tpoConvert i else s
    else s) s

/-- A write to TIME.TPO_CFGi. A refused arm write stores nothing; one that arms an armed output arms it anew; edges that a boundary
would have converted are converted at once. [DEDUCED, log entry 54; DESIGN CHOICE, log entry 168] -/
def State.tpoWrite (s : State) (i : Nat) (v : Word) : State :=
  let w := v.toNat
  let a := R.timeTpoCfg i
  let time := bitOf w 1
  let per := s.fld (R.timeTpoPeriod i) F.timeTpoPeriod_period
  let width := max 1 (bitsOf w 47 24)
  let short := per != 0 && (if time then decide (per < (8 * width + 16) * 65536)
    else decide (per * 131072 < (8 * width + 16) * 65536 * 425))
  if bitOf w 0 && short then s.latch a F.timeTpoCfg_refused
  else
    let keep := bitsOf (s.reg a).toNat 6 5 &&& (3 - bitsOf w 6 5)
    let s := s.setReg a (BitVec.ofNat 64 ((w &&& 0xFFFFFFFFFF00001B) + keep * 32))
    if !bitOf w 0 then s.setPulse i { s.pulse i with converted := [] }
    else
      let start := s.tpoStart i time
      let period := if time then per else 16 * per
      let (late, k) := match s.tpoNow time with
        | none => (false, 0)
        | some (now, us) => if start - now < us then (true, if period = 0 then 0 else firstEdge start period now) else (false, 0)
      let s := s.setPulse i { s.pulse i with k := k, start := start, period := period, converted := [] }
      let s := s.latchIf late a F.timeTpoCfg_late
      if late && period == 0 then s.setBit a F.timeTpoCfg_armed false
      else if time && s.mediumTime then s.tpoConvert i else s

/-- TPO_ARM (R216). -/
def execTpoArm (i : Fin 8) (v : Word) (s : State) : Host.Outcome State Fault Refusal := .next (s.tpoWrite i v)

/-- An edge at a line position: the pulse begins, COMP sixteenths of a symbol later, and ends WIDTH × 8 ns after that; while the
output is held inactive the edge is missed (R209, R215, R217). [DEDUCED, log entry 54] -/
def State.tpoEmit (s : State) (i : Nat) (pos : Int) : State :=
  if s.tpoHeld i then s.tpoMissed i
  else
    let edge := pos + sext 16 (s.fld (R.timeTpoCfg i) F.timeTpoCfg_comp)
    let fall := 16 * (s.time.now : Int) + (edge - 16 * s.lpNow) + (max 1 (s.fld (R.timeTpoCfg i) F.timeTpoCfg_width) * 27200 : Nat)
    s.setPulse i { s.pulse i with last := some (stampOf (s.timeOf16 edge) (0x20 + i)), fall := some fall }

/-- The trailing edges that have fallen due (R215). [DEDUCED, log entry 54] -/
def State.tpoFalls (s : State) : State :=
  (List.range 8).foldl (fun s i =>
    match (s.pulse i).fall with
    | some f => if f ≤ 16 * (s.time.now : Int) then s.setPulse i { s.pulse i with fall := none } else s
    | none => s) s

/-- An edge falls due. -/
def State.tpoEdge (s : State) (i : Nat) : State :=
  if !s.tpoArmed i then s
  else
    let u := s.pulse i
    if s.tpoTimeMode i then
      match u.converted with
      | (pos, _) :: t =>
        let s := s.setPulse i { u with converted := t }
        (if s.mediumTime then s.tpoEmit i pos else s.tpoMissed i).tpoAfter i
      | [] => if s.mediumTime then s else ((s.setPulse i { u with k := u.k + 1 }).tpoMissed i).tpoAfter i
    else if !s.lpValid then s
    else
      let s := s.setPulse i { u with k := u.k + 1 }
      (s.tpoEmit i (u.start + (u.k * u.period : Nat))).tpoAfter i

/-- TPO_EDGE (R215, R217). -/
def execTpoEdge (i : Fin 8) (s : State) : Host.Outcome State Fault Refusal := .next (s.tpoFalls.tpoEdge i)

/-! ## The line position stops (R114, R196, R201, R205, R474) -/

/-- LP_VALID is cleared, and MT_VALID with it: gate lists go on by local time (R312). -/
def State.lpStop (s : State) : State :=
  let s := ((s.cutAll).abandonEntries)
  let s := { s with ward := { s.ward with entries := [] } }
  let s := s.count R.timeCounts F.timeCounts_anchorReject s.time.estimates.length
  let s := { s with time := { s.time with estimates := [], residual := 0, tAnchor := none, fly := none } }
  let s := (s.setBit R.timeStatus F.timeStatus_lpValid false).setBit R.timeStatus F.timeStatus_mtValid false
  let s := (s.setBit R.timeStatus F.timeStatus_flywheel false).setBit R.timeStatus F.timeStatus_slewing false
  let s := s.setBit R.timeRefStatus F.timeRefStatus_none true
  let s := (List.range 24).foldl (fun s p => s.setFld (R.dfpPlaneOffset p) F.dfpPlaneOffset_offset 0) s
  let s := (List.range 8).foldl (fun s i =>
    if s.tpoArmed i && !s.tpoTimeMode i then s.setBit (R.timeTpoCfg i) F.timeTpoCfg_armed false else s) s
  ((s.setCode 0).setWard F.wardStatus_lpValid false).applyLead.gateResync.dccHold

/-- FLYWHEEL_EXPIRY (R196): no plane has aligned by LP(F + 8, 0, 0). [DESIGN CHOICE, log entry 45] -/
def execFlywheelExpiry (s : State) : Host.Outcome State Fault Refusal :=
  .next (match s.time.fly with
    | some f => if s.lpValid && s.alignedPlanes.isEmpty && decide (f + 8 ≤ s.time.frame) then s.lpStop else s
    | none => s)

/-! ## Capture inputs (R218) -/

def State.capture (s : State) (j : Nat) : List Stamp := Tbl.get (fun _ => []) s.time.captures j
def State.setCapture (s : State) (j : Nat) (l : List Stamp) : State :=
  { s with time := { s.time with captures := Tbl.set (fun _ => []) s.time.captures j l } }

/-- An edge on a capture input. -/
def State.tciEdge (s : State) (j : Nat) (rising : Bool) : State :=
  let e := s.fld (R.timeTciCfg j) F.timeTciCfg_edge
  if (if rising then e % 2 else e / 2) = 0 then s
  else if 16 ≤ (s.capture j).length then s.count (R.timeTciCfg j) F.timeTciCfg_overflow
  else
    let c := sext 16 (s.fld (R.timeTciCfg j) F.timeTciCfg_comp)
    s.setCapture j (s.capture j ++ [stampOf (s.timeNow + c) (0x10 + j)])

/-- TCI_EDGE (R218). -/
def execTciEdge (j : Fin 5) (rising : Bool) (s : State) : Host.Outcome State Fault Refusal := .next (s.tciEdge j rising)

/-- TCI_HIj and TCI_LOj: the oldest stamp. -/
def State.tciHi (s : State) (j : Nat) : BitVec 64 := match s.capture j with | t :: _ => t.hiWord | [] => 0
def State.tciLo (s : State) (j : Nat) : BitVec 64 := match s.capture j with | t :: _ => t.loWord | [] => 0

/-- TCI_LO_READ (R218): the value goes to the reader and the entry is removed. -/
def execTciLoRead (j : Fin 5) (s : State) : Host.Outcome State Fault Refusal :=
  .next ({ s with host := { s.host with rdata := s.tciLo j } }.setCapture j ((s.capture j).drop 1))

/-! ## Snapshots (R221) -/

/-- Capture the line position and the time at one CK_TIME edge. -/
def State.snapshot (s : State) : State :=
  let t := s.stamp 0
  let sym := s.ckSym.toNat
  let lp := b2n s.lpValid * 2 ^ 63 + b2n (s.bit R.timeStatus F.timeStatus_mtValid) * 2 ^ 62 + s.time.frame % 2 ^ 48
  let s := (s.setReg R.timeSnapLpF (BitVec.ofNat 64 lp)).setReg R.timeSnapLpCs
    (BitVec.ofNat 64 (sym / 25 % 2 ^ 21 * 32 + sym % 25))
  (s.setReg R.timeSnapSec t.hiWord).setReg R.timeSnapNs t.loWord

/-- SNAP_TAKE (R221). -/
def execSnapTake (v : Word) (s : State) : Host.Outcome State Fault Refusal :=
  .next (if bitOf v.toNat 0 then s.snapshot else s)

end Sys2Proof.Machine
end

