-- ==== Sys2Proof/Machine/DfpOps.lean ====
section
/-!
DEFINITION. The downstream frame processor: codeword slots (R42, R55), frame search and alignment (R77 to R83, R194), the grant
area (R84, R85), the message area (R86, R87), and the parcel area (R91 to R98).
-/

namespace Sys2Proof.Machine

/-! ## Codeword slots (R34 to R42) -/

/-- What the receiver makes of a slot: the symbols corrected, or none for an uncorrectable codeword; the 5,140 data bits; the stuff symbols;
the line and the scrambler after it. -/
structure SlotResult where
  corrected : Option Nat
  data : List Bool
  stuffs : Nat
  stuffErr : Bool
  line : LineState
  scr : Nat
  deriving DecidableEq, Repr

/-- Destuff, recover the bits, descramble, decode (R33): `seed` gives the scrambler from the first 48 scrambled bits.
[DEDUCED, log entry 21] -/
def receiveCodeword (line : LineState) (seed : Nat → Nat) (levels : List Nat) : SlotResult :=
  let r := receiveSlot line 2720 0 levels
  let bits := (r.labels.flatMap grayBits ++ List.replicate 5440 false).take 5440
  let (b, scr) := scramble (seed (natOfBits (bits.take 48))) bits
  let whole := !r.stuffErr && r.labels.length == 2720
  let c := symbolsOf 544 b
  match if whole then rsDecode c else none with
  | some x => ⟨some (rsDistance c x), (x.take 514).flatMap (bitsMsb 10), r.stuffs, r.stuffErr, r.line, scr⟩
  | none => ⟨none, b.take 5140, r.stuffs, r.stuffErr, r.line, scr⟩

/-- Symbols of a frame at plane `p`'s rate, in the plane's own symbols (R31). -/
def State.frameLength (s : State) (p : Nat) : Nat := if s.genOne p then 6640625 else 26562500

/-- Whether a slot 0 whose delimiter begins at symbol `x` is one the DFP looks at: any while it searches, else the one at X + L (R78).
[DEDUCED, log entry 27; DESIGN CHOICE, log entry 28] -/
def State.takesFrame (s : State) (p x : Nat) : Bool :=
  s.fld (R.dfpPlaneStatus p) F.dfpPlaneStatus_align == 0 || x == (s.dplane p).at_ + s.frameLength p

/-- What the receive half takes: the levels from outside, or in a near-end loopback the pattern that the lane sends, none of it without a
pattern (R56). -/
def State.receivedLevels (s : State) (p : Nat) (levels : List Nat) : Option (List Nat × State) :=
  if s.loopback p = 1 ∨ s.loopback p = 2 then
    if s.patGen p = 0 then none else some (s.sendPattern p levels.length)
  else some (levels, s)

/-- The line counted over a delimiter, and how many of its symbols disagree with the pattern (R42, R77). -/
def delimLine (line : LineState) (levels : List Nat) : LineState × Nat := (trackLevels line (levels.take 256), delimDisagree (levels.take 256))

/-- A codeword slot of plane `p` is received; slot 0 comes with its delimiter and begins a frame, and the slots after it follow in order.
In SEARCH the seed comes from the header's own scrambled FRAME, else from the FRAME expected (R35). In far-end loopback the levels are sent
back (R56). [DEDUCED, log entries 21 and 27] -/
def State.codeword (s : State) (p slot x : Nat) (levels : List Nat) : State :=
  let d := s.dplane p
  if s.fld (R.medLaneStatus p) F.medLaneStatus_rate = 0 ∨ (slot ≠ 0 ∧ slot ≠ d.slots) then s
  else
    match s.receivedLevels p levels with
    | none => s
    | some (lv, s) =>
      let lv := s.rxLevels p lv
      let s := (s.checkPattern p lv).farEnd p lv
      if slot = 0 ∧ !s.takesFrame p x then s
      else
        let l := s.lane p
        let search := s.fld (R.dfpPlaneStatus p) F.dfpPlaneStatus_align == 0
        let (line, wrong) := delimLine l.rx lv
        let d := if slot = 0 then { d with at_ := x, delimBad := wrong, uncorrPrev := d.marks.length, stream := [], marks := [], slots := 0, cut := none,
                                           judged := false, taking := false, grantsDone := true, msgLeft := 0, hunting := false, ignoring := true } else d
        let r :=
          if slot = 0 then receiveCodeword line (fun b => seedDown (if search then frameOf p b else d.expect) p) (lv.drop 256)
          else receiveCodeword l.rx (fun _ => l.rxScr) lv
        let bad := r.corrected.isNone || d.cut.isSome
        let s := s.setLane p { l with rx := r.line, rxScr := r.scr }
        let s := s.setDplane p { d with slots := slot + 1, stream := d.stream ++ r.data, marks := if bad then d.marks ++ [slot] else d.marks }
        let s := ((s.count (R.medFecCw p) F.medFecCw_count).pmcEvent (0x10 + p) 0x10).pmcEvent (0x10 + p) 0x13 r.stuffs
        let s := if bad then (s.count (R.medFecUncorr p) F.medFecUncorr_count).pmcEvent 0xF0 0x11
          else (s.count (R.medFecCorr p) F.medFecCorr_count (r.corrected.getD 0)).pmcEvent (0x10 + p) 0x11 (r.corrected.getD 0)
        if r.stuffErr then (s.count (R.medStuffErr p) F.medStuffErr_count).latch (R.medDefect p) F.medDefect_stuff else s

/-! ## Frame headers (R71, R80, R81) -/

/-- HCRC is correct. -/
def fhCrcOk (h : BitVec 256) : Bool := crc32 (bitsMsb 224 (bitsOf h.toNat 255 32)) == fhCrc h

/-- A header is well-formed on plane `p` (R71). -/
def State.wellFormedHdr (s : State) (p : Nat) (h : BitVec 256) : Bool :=
  !(s.dplane p).bad 0 && fhCrcOk h && fhPlane h == p &&
    !((fhGen h == 1 || fhGen h == 2) && fhGen h != s.fld (R.medLaneStatus p) F.medLaneStatus_rate) &&
    decide (1 ≤ fhHdrLen h) && decide (fhHdrLen h ≤ 512) && decide (fhGrants h ≤ 1024) &&
    decide (320 + 64 * fhGrants h ≤ 5140 * fhHdrLen h)

/-- The frame whose LP(G, 0, 0) lies nearest to a delimiter `x` symbols from LP(0, 0, 0), and the distance. -/
def nearestFrame (x : Int) : Int × Int :=
  let g := (x + 13281250) / 26562500
  (g, x - g * 26562500)

/-- The window check (R80): it passes, and the defect a failure sets. -/
def State.windowCheck (s : State) (p : Nat) (h : BitVec 256) (x : Int) : Bool × State :=
  if !s.lpValid then (true, s)
  else
    let (g, off) := nearestFrame x
    if 16384 < off ∨ off < -16384 then (false, s.latch (R.dfpPlaneDefect p) F.dfpPlaneDefect_skew)
    else if g ≠ (fhFrame h : Int) then (false, s.latch (R.dfpPlaneDefect p) F.dfpPlaneDefect_counter)
    else (true, s)

/-! ## Good frames (R82, R83, R194) -/

/-- Enter or leave a plane defect shown in PLANE_STATUS and latched in PLANE_DEFECT. -/
def State.planeDefect (s : State) (p : Nat) (shown latched : Fld) (b : Bool) : State :=
  let was := s.bit (R.dfpPlaneStatus p) shown
  let s := s.setBit (R.dfpPlaneStatus p) shown b
  s.latchIf (b && !was) (R.dfpPlaneDefect p) latched

/-- The line position starts at a delimiter, `age` symbols ago (R194). [DEDUCED, log entry 29] -/
def State.lpStart (s : State) (p f age : Nat) : State :=
  if s.restarting Src.time then s else
  let s := { s with time := { s.time with frame := f, sym := min age (frameSymbols - 1), fly := none, tAnchor := none, residual := 0, estimates := [] } }
  let s := (List.range 24).foldl (fun s q => s.setUplane q { s.uplane q with eqd := [] }) s
  let s := { s with ward := { s.ward with eqd := [] } }
  let s := (s.setBit R.timeStatus F.timeStatus_lpValid true).setWard F.wardStatus_lpValid true
  let s := s.setFld R.timeRefStatus F.timeRefStatus_buildOut 0
  let s := (s.setFld R.timeRefStatus F.timeRefStatus_plane p).setBit R.timeRefStatus F.timeRefStatus_none false
  let s := s.setBit R.timeRefStatus F.timeRefStatus_fallback
    (s.bit R.timeRefCfg F.timeRefCfg_mode && s.fld R.timeRefCfg F.timeRefCfg_plane != p)
  ((s.setCode 1).wardFree.latchEqd.holdOrigins.alarmsPassed.blocksPassed).dumpsPassed

/-- A good frame is processed: its fields shown, defects entered or left, its content taken unless the generation is not
supported. Its delimiter came `x` symbols after LP(0, 0, 0), where the line position runs, and `at_` symbols of local time ago or ahead of
the present instant. PLANE_OFFSET stays 0 while the line position does not run (R80, R113). [DESIGN CHOICE, log entry 164] -/
def State.goodFrame (s : State) (p : Nat) (h : BitVec 256) (x ago : Int) : State :=
  let f := fhFrame h
  let gen := fhGen h
  let unsup := !(gen == 1 || gen == 2)
  let s := ((s.count (R.dfpFramesGood p) F.dfpFramesGood_count).pmcEvent 0xF0 0x10).setFld (R.dfpPlaneStatus p) F.dfpPlaneStatus_miss 0
  let s := (s.setFld (R.dfpPlaneStatus p) F.dfpPlaneStatus_gen gen).setFld (R.dfpPlaneFrame p) F.dfpPlaneFrame_frame f
  let s := s.planeDefect p F.dfpPlaneStatus_palm F.dfpPlaneDefect_palm (fhPalm h)
  let s := s.planeDefect p F.dfpPlaneStatus_unsup F.dfpPlaneDefect_unsup unsup
  let ran := s.lpValid
  let s := if ran then s else s.lpStart p f (-ago).toNat
  let s := if ran then s.setFld (R.dfpPlaneOffset p) F.dfpPlaneOffset_offset (toTwos 32 (x - (nearestFrame x).1 * 26562500)) else s
  s.setDplane p { s.dplane p with
    expect := f + 1, taking := !unsup, frame := f, hdrLen := fhHdrLen h, grantCount := fhGrants h, grants := [], grantsDone := unsup
    msgLeft := if unsup then 0 else fhMsgs h, msgPos := 320 + 64 * fhGrants h, pos := 5140 * fhHdrLen h, hunting := false
    ignoring := unsup, circLost := fhPalm h || unsup, sdCounted := true
    delimSym := if ran then x else (f * frameSymbols : Nat), delimAt := (s.time.now : Int) + ago }

/-- SD after a frame at the expected position had `n` uncorrectable codewords (R82, R109). -/
def State.judgeSd (s : State) (p : Nat) : State :=
  let d := s.dplane p
  if !d.sdCounted then s
  else
    let n := d.uncorrPrev
    let a := if max 1 (s.fld R.dfpSdCfg F.dfpSdCfg_sdSet) ≤ n then d.sdSet + 1 else 0
    let b := if n < s.fld R.dfpSdCfg F.dfpSdCfg_sdClr then d.sdClr + 1 else 0
    let s := s.setDplane p { d with sdCounted := false, sdSet := min 8 a, sdClr := min 64 b }
    if 8 ≤ a then s.planeDefect p F.dfpPlaneStatus_sd F.dfpPlaneDefect_sd true
    else if 64 ≤ b then s.setBit (R.dfpPlaneStatus p) F.dfpPlaneStatus_sd false
    else s

/-- Alignment enters IN_FRAME: the hunt ends, LOF is left. -/
def State.enterFrame (s : State) (p : Nat) : State :=
  let s := s.setFld (R.dfpPlaneStatus p) F.dfpPlaneStatus_align 2
  let s := s.setLane p { s.lane p with dwellOver := false }
  let s := s.setBit (R.medLaneStatus p) F.medLaneStatus_hunting false
  let s := s.setEplane p { s.eplane p with tHold := none }
  let s := { s with enrol := { s.enrol with tHold := none } }
  s.setDplane p { s.dplane p with sdSet := 0, sdClr := 0, sdCounted := false }

/-- A bad frame of a plane in frame (R78, R79). [DESIGN CHOICE, log entry 164] -/
def State.badFrame (s : State) (p : Nat) : State :=
  let s := s.count (R.dfpFramesBad p) F.dfpFramesBad_count
  let m := s.fld (R.dfpPlaneStatus p) F.dfpPlaneStatus_miss
  if 3 ≤ m then s.toSearch p
  else
    let d := s.dplane p
    (s.setFld (R.dfpPlaneStatus p) F.dfpPlaneStatus_miss (m + 1)).setDplane p { d with expect := d.expect + 1, sdCounted := true }

/-- A delimiter and its header are judged (R78). `off` counts Gen-2 symbols to the delimiter from LP(F, 0, 0) of the present frame, or
from the present instant while the line position does not run. A header that passes R80 and does not carry the expected FRAME, or fails R80
by its FRAME, sets COUNTER; so does one outside every window whose FRAME is not the expected one (R112). [DESIGN CHOICE, log entry 28] -/
def State.frameAlign (s : State) (p : Nat) (off : Int) : State :=
  let d := s.dplane p
  let h := d.header
  if d.judged || d.slots == 0 || s.bit (R.medLaneStatus p) F.medLaneStatus_los || s.bit (R.medLaneStatus p) F.medLaneStatus_lol ||
      s.fld (R.medLaneStatus p) F.medLaneStatus_rate == 0 then s
  else
    let s := s.setDplane p { d with judged := true }
    let x := (s.time.frame * frameSymbols : Nat) + off
    let ago := if s.lpValid then off - s.time.sym else off
    let delim := decide (d.delimBad ≤ s.fld R.dfpCfg F.dfpCfg_delimTol)
    let s := if s.aligned p then s.judgeSd p else s
    let s := s.latchIf (delim && !d.bad 0 && fhCrcOk h && fhPlane h != p) (R.dfpPlaneDefect p) F.dfpPlaneDefect_mismatch
    let wf := delim && s.wellFormedHdr p h
    let (ok, s) := if wf then s.windowCheck p h x else (false, s)
    let align := s.fld (R.dfpPlaneStatus p) F.dfpPlaneStatus_align
    if align = 0 then
      if ok then (s.setFld (R.dfpPlaneStatus p) F.dfpPlaneStatus_align 1).setDplane p { s.dplane p with expect := fhFrame h + 1 }
      else s
    else
      let next := fhFrame h == d.expect
      let s := s.latchIf (wf && !next) (R.dfpPlaneDefect p) F.dfpPlaneDefect_counter
      if align = 1 then
        if ok && next then ((s.enterFrame p).goodFrame p h x ago).retime false else s.toSearch p
      else if ok && next then (s.goodFrame p h x ago).retime false
      else s.badFrame p

/-- A verified parcel goes on by its TYPE (R98). -/
def State.routeParcel (s : State) (o : Opening) (text : List Byte) : State :=
  let typ := phType o.hdr
  if typ = 2 then
    if phFrag o.hdr ≠ 0 then s.disp 6
    else
      let s := s.delivered o.plane 1 (phLength o.hdr)
      if o.lost then s else s.containerRx (phFlow o.hdr) text o.frame o.plane
  else if typ = 1 ∨ typ = 3 then
    let x : Parcel := ⟨o.plane, o.hdr, o.own, o.frame, o.stamp, text, s.time.now, s.dfp.arrivals⟩
    let s := { s with dfp := { s.dfp with arrivals := s.dfp.arrivals + 1 } }
    if bitOf o.own.toNat 30 then s.rsqArrive x else s.reassemble x
  else s.disp 11

/-- A parcel destroyed by a fault: DFP disposition FAULT and a record of KIND 2. -/
def State.loseParcel (s : State) (src cls code plane frame : Nat) (h : BitVec 128) : State :=
  let w := phFlow h % 2 ^ 20 * 2 ^ 44 + phSeq h % 2 ^ 16 * 2 ^ 28
  (s.disp 15).report ⟨src, cls, 2, 0, code, 1, w, w, plane % 32 * 2 ^ 48 + frame % 2 ^ 48, 0⟩

/-- The oldest submitted parcel of plane `p` returns from CIPH. -/
def State.parcelOpened (s : State) (p : Nat) : State :=
  match takeFirst (fun (o : Opening) => o.plane == p) s.dfp.opening with
  | none => s
  | some (o, rest) =>
    match s.takeResult o.req with
    | (none, _) => s
    | (some r, s) =>
      let s := { s with dfp := { s.dfp with opening := rest } }
      if r.status = 2 then s.disp 5 else if r.status = 0 then s.routeParcel o r.text else if r.status = 5 then s.loseParcel Src.ciph 2 (s.lostCode Src.ciph) o.plane o.frame o.hdr else s.disp 4

end Sys2Proof.Machine
end

