-- ==== Sys2Proof/Machine/Enrol.lean ====
section
/-!
DEFINITION. The meanings of the commands of enrolment, ranging and lockout (R156 to R186, R580).
-/

namespace Sys2Proof.Machine

/-! ## Hub messages at their application point (R158, R166 to R184, R580) -/

/-- The register word of a PROFILE (R150, R169). -/
def profileWord (m : Msg) : BitVec 64 :=
  let f := bodyField m.body 8
  BitVec.ofNat 64 (f 55 55 * 2 ^ 31 + f 43 32 * 2 ^ 16 + f 31 29 * 2 ^ 13 + f 28 16)

/-- PROFILE (R158): a burst profile of its plane is loaded. -/
def execProfile (m : Msg) (s : State) : Host.Outcome State Fault Refusal :=
  .next (s.judge m 3 8 none false true (decide (bodyField m.body 8 63 59 < 24)) true
    (fun s => s.setReg (R.ubbProfile (bodyField m.body 8 63 59) (bodyField m.body 8 58 56)) (profileWord m)))

/-- ASYMMETRY (R200): the plane's coefficient goes to the time unit. -/
def execAsymmetry (m : Msg) (s : State) : Host.Outcome State Fault Refusal :=
  .next (s.judge m 2 8 none true true (decide (bodyField m.body 8 63 59 < 24)) true
    (fun s => s.setFld (R.timePlaneAsym (bodyField m.body 8 63 59)) F.timePlaneAsym_coeff (bodyField m.body 8 31 0)))

/-- ENROL_PARAMS in ALIGNED and in ANNOUNCING (R163, R171). -/
def State.enrolParams (s : State) (m : Msg) : State :=
  let was := s.under
  let s := s.keepEnrol m
  if was = 2 then s.toAnnouncing else (List.range 24).foldl (fun s p => s.enrolPlane p) s

/-- ENROL_PARAMS (R171): in every other state it is ignored without count (R580). -/
def execEnrolParams (m : Msg) (s : State) : Host.Outcome State Fault Refusal :=
  .next (s.judge m 4 16 (if s.under ≠ 2 ∧ s.under ≠ 3 then some (fun s => s) else none) true true (decide (bodyField m.body 16 127 96 ≤ eqdMax)) true (fun s => s.enrolParams m))

/-- An accepted ID_ASSIGN (R165, R173). -/
def State.idAssign (s : State) (m : Msg) : State :=
  let f := bodyField m.body 24
  let p := f 117 113
  let s := s.writeTid (f 127 118)
  let s := (List.range 24).foldl (fun s q => if q ≠ p ∧ s.fld (R.ubbPlaneCtl q) F.ubbPlaneCtl_permit = 1 then s.setPermit q 0 else s) s
  let s := ((s.setPlaneState p 3).setPermit p 2).setEqd p s.enrol.preEqd
  let s := s.setEplane p { s.eplane p with tRange := true, groups := BitVec.ofNat 64 (f 63 0) }
  let s := s.withdraw (·.enrol)
  let s := { s with enrol := { s.enrol with tEnrol := false, attempt := none, taken := none } }
  s.setTerm 4

/-- ID_ASSIGN (R173): another terminal's is ignored without count. -/
def execIdAssign (m : Msg) (s : State) : Host.Outcome State Fault Refusal :=
  let f := bodyField m.body 24
  .next (s.judge m 5 24 (if f 191 128 ≠ (s.reg R.sysSerial).toNat then some (fun s => s) else none) true (s.under == 3) (decide (f 127 118 ≤ 0x3FB) && decide (f 117 113 < 24))
      (s.planeState (f 117 113) == 2) (fun s => s.idAssign m))

/-- An applied RANGE_RESULT (R165, R176). -/
def State.rangeResult (s : State) (p eqd rtd : Nat) : State :=
  let s := (s.setEqd p eqd).setRtd p rtd
  if s.planeState p = 3 then
    let s := ((s.setPlaneState p 4).setPermit p 3).setReg (R.ubbPlaneGroups p) (s.eplane p).groups
    (s.setEplane p { s.eplane p with tRange := false }).termStep
  else s

/-- RANGE_RESULT (R176). -/
def execRangeResult (m : Msg) (s : State) : Host.Outcome State Fault Refusal :=
  let f := bodyField m.body 16
  let p := f 127 123
  .next (s.judge m 6 16 none true true (decide (p < 24) && decide (f 95 64 ≤ eqdMax)) (s.planeState p == 3 || s.planeState p == 4)
    (fun s => s.rangeResult p (f 95 64) (f 63 32)))

/-- EQD after an EQD_ADJUST (R177). [DEDUCED, log entry 49] -/
def State.adjusted (s : State) (m : Msg) : Int :=
  (s.fld (R.ubbPlaneEqd (bodyField m.body 16 127 123)) F.ubbPlaneEqd_eqd : Int) + sext 32 (bodyField m.body 16 95 64)

/-- EQD_ADJUST (R177). [DEDUCED, log entry 49] -/
def execEqdAdjust (m : Msg) (s : State) : Host.Outcome State Fault Refusal :=
  let p := bodyField m.body 16 127 123
  let e := s.adjusted m
  .next (s.judge m 7 16 none true true (decide (p < 24) && decide (0 ≤ e) && decide (e ≤ (eqdMax : Int))) (s.planeState p == 4)
    (fun s => (s.setEqd p e.toNat).setRtd p (bodyField m.body 16 63 32)))

/-- One plane named by a PLANE_ASSIGN (R178). -/
def State.assignPlane (s : State) (g : BitVec 64) (p : Nat) : State :=
  match s.planeState p with
  | 2 =>
    let s := ((s.setPlaneState p 3).setPermit p 2).setEqd p s.enrol.preEqd
    s.setEplane p { s.eplane p with tRange := true, groups := g }
  | 3 => s.setEplane p { s.eplane p with groups := g }
  | 4 => s.setReg (R.ubbPlaneGroups p) g
  | _ => s.badState

/-- PLANE_ASSIGN (R178): acted on in RANGING and OPERATING. -/
def execPlaneAssign (m : Msg) (s : State) : Host.Outcome State Fault Refusal :=
  let f := bodyField m.body 16
  .next (s.judge m 8 16 none true (s.under == 4 || s.under == 5) true true
    (fun s => (planesOf (f 127 104)).foldl (fun s p => s.assignPlane (BitVec.ofNat 64 (f 63 0)) p) s))

/-- One plane named by a PLANE_RELEASE (R165, R178). -/
def State.releasePlane (s : State) (p : Nat) : State :=
  if s.planeState p = 3 ∨ s.planeState p = 4 then s.releaseTo p 2 else s.badState

/-- PLANE_RELEASE (R178). -/
def execPlaneRelease (m : Msg) (s : State) : Host.Outcome State Fault Refusal :=
  .next (s.judge m 9 8 none true true true true
    (fun s => ((planesOf (bodyField m.body 8 63 40)).foldl (fun s p => s.releasePlane p) s).termStep))

/-- DEREGISTER (R184): another serial is counted in SERIAL_MISMATCH. -/
def execDeregister (m : Msg) (s : State) : Host.Outcome State Fault Refusal :=
  .next (s.judge m 10 8 (if bodyField m.body 8 63 0 ≠ (s.reg R.sysSerial).toNat then
      some (fun s => s.count R.sysRejectCounts F.sysRejectCounts_serialMismatch) else none) true (s.under == 4 || s.under == 5) true true
      (fun s => (s.dropId.withdraw (fun _ => true)).setTerm 2))

/-- STATE_REQUEST (R169): one STATE_REPORT is queued, unless one is queued already. -/
def execStateRequest (m : Msg) (s : State) : Host.Outcome State Fault Refusal :=
  .next (s.judge m 15 0 none true true true true (fun s => if s.ubb.msgs.any (fun x => x.typ == 0x82) then s else s.stateReport))

/-- LATE_APPLY (R159): the message is not applied, and counted. [DEDUCED, log entry 47] -/
def execLateApply (m : Msg) (s : State) : Host.Outcome State Fault Refusal :=
  .next (if s.turnOf m (msgType m) && s.lateFor m then (s.takeMsg m).count R.sysMediumCounts F.sysMediumCounts_lateApply else s)

/-- LEAD (R474, R465): delivered to the lead logic. -/
def State.leadMessage (s : State) (m : Msg) : State :=
  let s := (s.readCopy m 8).takeInbox m
  let f := bodyField m.body 8
  if m.parcel || shortBody m 8 then s
  else if s.role = 0 ∨ s.pinMode ∨ f 63 48 ≠ s.fld R.hingePair F.hingePair_pairId then
    s.count R.hingeCounts1 F.hingeCounts1_leadMsgIgnored
  else s.dueLead (f 47 38 == s.fld R.dfpIdent F.dfpIdent_tid)

/-- LEAD (R474). -/
def execLead (m : Msg) (s : State) : Host.Outcome State Fault Refusal := .next (s.leadMessage m)

/-! ## Host commands (R163) -/

/-- The types that the base program accepts (R167): DFP.MSG_ACCEPT0. [DEDUCED, log entry 49] -/
def acceptMask : Nat := 0x87FC

/-- START acted on (R163, R167, R174). [DESIGN CHOICE, log entry 46; DEDUCED, log entry 49] -/
def State.startTerm (s : State) : State :=
  let s := { s with enrol := { s.enrol with startWaiting := false } }
  let s := s.setReg (R.dfpMsgAccept 0) (s.reg (R.dfpMsgAccept 0) ||| BitVec.ofNat 64 acceptMask)
  let s := (s.writeFlowZero).setFld R.sysTermState F.sysTermState_stopCause 0
  let s := (List.range 24).foldl (fun s p =>
    if s.domOn (11 + p / 4) then (s.setMode p 2).laneEnable p true else s) s
  s.toListening

/-- Whether the tables that START waits for are ready (R163). -/
def State.startReady (s : State) : Bool :=
  s.bit R.dfpStatus F.dfpStatus_ownReady && s.bit R.ubbStatus F.ubbStatus_flowReady

/-- Whether START is accepted in the present state. -/
def State.startable (s : State) : Bool :=
  s.under == 0 || (s.under == 8 && s.fld R.sysTermState F.sysTermState_stopCause == 1)

/-- HOST_START (R163): it waits until the tables are cleared. -/
def execHostStart (s : State) : Host.Outcome State Fault Refusal :=
  .next (if !s.startable then s
    else if s.startReady then s.startTerm
    else { s with enrol := { s.enrol with startWaiting := true } })

/-- HOST_STOP (R163). -/
def execHostStop (s : State) : Host.Outcome State Fault Refusal :=
  .next (if s.termState = 8 then s
    else (List.range 24).foldl (fun s p => s.laneEnable p false) (s.stopTerm 1))

/-! ## Planes (R165) -/

/-- PLANE_ALIGNED (R165). -/
def execPlaneAligned (p : Plane) (s : State) : Host.Outcome State Fault Refusal :=
  .next (if s.aligned p then (s.planeUp p).termStep else s)

/-- PLANE_ALIGN_LOST (R165). -/
def execPlaneAlignLost (p : Plane) (s : State) : Host.Outcome State Fault Refusal :=
  .next (if s.aligned p && !s.unsup p then s else (s.planeDown p).termStep)

/-- WARD_STATUS_CHANGE (R163). -/
def execWardStatusChange (s : State) : Host.Outcome State Fault Refusal :=
  .next (if s.bit R.wardStatus F.wardStatus_fatal then s.stopTerm 3
    else if s.bit R.wardStatus F.wardStatus_permanent then s.stopTerm 2
    else if s.termState = 8 then s
    else if s.locked then s.setTerm s.under
    else if s.termState = 7 then
      let s := s.setTerm s.under
      if s.under = 4 ∨ s.under = 5 then s.stateReport else s
    else s)

/-! ## Timers (R157, R163, R165, R186) -/

/-- T_ALIGN_EXPIRY (R163): every enabled lane is reinitialised. [DESIGN CHOICE, log entry 45] -/
def execTAlignExpiry (s : State) : Host.Outcome State Fault Refusal :=
  .next (if s.under = 1 ∧ s.enrol.tAlign then
      ((List.range 24).foldl (fun s p =>
        if s.bit (R.medLaneCfg p) F.medLaneCfg_laneEn then (s.laneDown p).laneUp p else s) s).count
        R.sysEnrolCounts F.sysEnrolCounts_alignTimeouts
    else s)

/-- T_ENROL_EXPIRY (R163). [DESIGN CHOICE, log entry 45] -/
def execTEnrolExpiry (s : State) : Host.Outcome State Fault Refusal :=
  .next (if s.under = 3 ∧ s.enrol.tEnrol then
      (s.leaveAnnouncing.count R.sysEnrolCounts F.sysEnrolCounts_enrolTimeouts).setTerm 2
    else s)

/-- T_RANGE_EXPIRY (R165). [DESIGN CHOICE, log entry 45] -/
def execTRangeExpiry (p : Plane) (s : State) : Host.Outcome State Fault Refusal :=
  .next (if s.planeState p = 3 ∧ (s.eplane p).tRange then
      (((s.rangeOut p).count R.sysMediumCounts F.sysMediumCounts_rangeTimeouts)).termStep
    else s)

/-- Whether eight frames have passed since a T_HOLD origin, or the line position no longer runs (R157, R163).
[DESIGN CHOICE, log entry 45] -/
def State.heldOut (s : State) (t : Option Nat) : Bool :=
  !s.lpValid || (match t with | some f => decide (f + 8 ≤ s.time.frame) | none => false)

/-- T_HOLD_EXPIRY (R186). -/
def execTHoldExpiry (s : State) : Host.Outcome State Fault Refusal :=
  .next (if s.under = 6 ∧ s.heldOut s.enrol.tHold then s.holdExpired else s)

/-- PLANE_T_HOLD_EXPIRY (R165). -/
def execPlaneTHoldExpiry (p : Plane) (s : State) : Host.Outcome State Fault Refusal :=
  .next (if (s.planeState p = 3 ∨ s.planeState p = 4) ∧ !s.aligned p ∧ s.heldOut (s.eplane p).tHold then
      (s.releaseTo p 1).termStep
    else s)

/-! ## Announcing (R171) -/

/-- Whether the backoff wait has ended: LP(a + r, 0, 0) has come (R171). [DESIGN CHOICE, log entry 45] -/
def State.backoffOver (s : State) : Bool :=
  match s.enrol.attempt with
  | some (a, r) => s.lpValid && decide (a + r ≤ s.time.frame)
  | none => false

/-- ANNOUNCE_BACKOFF (R171): the draw's wait ends and an ANNOUNCE is queued. [DESIGN CHOICE, log entry 45] -/
def execAnnounceBackoff (s : State) : Host.Outcome State Fault Refusal :=
  .next (if s.under = 3 ∧ s.backoffOver then
      let s := { s.announce with enrol := { s.enrol with attempt := none } }
      (s.count R.sysTermState F.sysTermState_attempts).count R.sysEnrolCounts F.sysEnrolCounts_announces
    else s)

/-- NO_ANSWER (R171): the answer wait ends at LP(t + ANSWER_FRAMES + 1, 0, 0). [DESIGN CHOICE, log entry 45] -/
def execNoAnswer (s : State) : Host.Outcome State Fault Refusal :=
  .next (match s.enrol.taken with
    | some t =>
      let a := t + s.enrol.answerNow + 1
      if s.under = 3 ∧ a ≤ s.time.frame then
        let s := s.count R.sysEnrolCounts F.sysEnrolCounts_noAnswer
        let be := min (s.fld R.sysTermState F.sysTermState_be + 1) s.enrol.beMax
        (s.setFld R.sysTermState F.sysTermState_be be).beginAttempt a
      else s
    | none => s)

end Sys2Proof.Machine
end

