-- ==== Sys2Proof/Machine/HostOps.lean ====
section
/-!
DEFINITION. The host interface: command and completion rings (R439 to R441), the program-load path (R442), DMA channels (R443 to
R453), interrupts (R455), owners and functions (R435, R460), the link (R461).
-/

namespace Sys2Proof.Machine

/-- A bus error counts as poisoned data, or as an Unsupported Request or Completer Abort completion (R446, R461). -/
def State.busError (s : State) (poisoned : Bool) : State :=
  s.count R.pcieErrCounts (if poisoned then F.pcieErrCounts_poisoned else F.pcieErrCounts_urCa)

/-! ## Command ring (R439, R440) -/

/-- Entries of the command ring, and of the completion ring (R459). -/
def State.cmdSize (s : State) : Nat := 2 ^ clampN 4 12 (s.fld R.gateCmdCtl F.gateCmdCtl_log2Size)
def State.cplSize (s : State) : Nat := 2 ^ clampN 4 12 (s.fld R.gateCplCtl F.gateCplCtl_log2Size)

/-- Whether GATE fetches: the ring runs and is not empty, and LSCH takes new items (R528) and has room for the block and for its record.
[DEDUCED, log entry 115] -/
def State.cmdFetches (s : State) : Bool :=
  s.bit R.gateCmdCtl F.gateCmdCtl_en && s.fld R.gateStatus F.gateStatus_cmdState == 1 &&
    s.fld R.gateCmdIdx F.gateCmdIdx_head != s.fld R.gateCmdIdx F.gateCmdIdx_tail % s.cmdSize && s.clusterUp 0 &&
    s.domPhase 1 == 0 &&
    decide (s.lsch.store.length < 256) && decide (s.lsch.cpl.length < 256)

/-- A write of TAIL, the doorbell. -/
def State.cmdDoorbell (s : State) (v : BitVec 64) : State := s.setFld R.gateCmdIdx F.gateCmdIdx_tail v.toNat

/-- EN = 1 takes effect: the ring runs, CAUSE returns to none. -/
def State.cmdEnable (s : State) : State :=
  let s := s.setBit R.gateCmdCtl F.gateCmdCtl_en true
  let s := s.setBit R.gateStatus F.gateStatus_cmdEnPending false
  (s.setFld R.gateStatus F.gateStatus_cmdState 1).setFld R.gateStatus F.gateStatus_cmdCause 0

/-- The fetch in progress ends; a held EN = 1 takes effect. [DEDUCED, log entry 115] -/
def State.fetchEnds (s : State) : State :=
  let s := { s with host := { s.host with fetching := false } }
  if s.bit R.gateStatus F.gateStatus_cmdEnPending then s.cmdEnable else s

/-- The ring stops in BROKEN. -/
def State.cmdBreak (s : State) (cause : Nat) : State :=
  let s := (s.setFld R.gateStatus F.gateStatus_cmdState 2).setFld R.gateStatus F.gateStatus_cmdCause cause
  (s.gateEvent 3).fetchEnds

/-- The lowest free slot of the command store. [DEDUCED, log entry 115] -/
def State.freeSlot (s : State) : Option Nat := (List.range 256).find? (fun n => (s.blockAt n).isNone)

/-- The block that a header and instructions make (R391). -/
def mkBlock (slot order : Nat) (h : List (BitVec 64)) (code : List (BitVec 32)) : CmdBlock :=
  let w := fun i => (h.getD i 0).toNat
  let n := bitsOf (w 0) 7 0
  { slot := slot, order := order, seq := bitsOf (w 0) 63 32, subject := bitsOf (w 0) 31 20, prio := bitsOf (w 0) 19 17,
    immediate := bitOf (w 0) 16, sec := bitsOf (w 0) 15 12, lenM1 := n, frame := bitsOf (w 1) 47 0,
    cell := min 1062499 (bitsOf (w 2) 20 0), args := [h.getD 3 0, h.getD 4 0, h.getD 5 0, h.getD 6 0], code := code.take (n + 1) }

/-- GATE completes a fetch: the entry, the header and the instructions, or a bus error. [DEDUCED, log entry 118] -/
def State.cmdFetch (s : State) (err poisoned : Bool) (entry : BitVec 64) (h : List (BitVec 64)) (code : List (BitVec 32)) : State :=
  if !(s.host.fetching || s.cmdFetches) || !s.clusterUp 0 then s
  else if err then (s.busError poisoned).cmdBreak 1
  else if entry.toNat % 64 ≠ 0 then s.cmdBreak 2
  else match s.freeSlot with
    | none => s
    | some n =>
      let b := mkBlock n s.lsch.blocks h code
      let b := { b with late := !b.immediate && s.lpValid && s.lpPassed b.frame b.cell }
      let s := { s with lsch := { s.lsch with store := s.lsch.store ++ [b], blocks := s.lsch.blocks + 1 } }
      (s.setFld R.gateCmdIdx F.gateCmdIdx_head ((s.fld R.gateCmdIdx F.gateCmdIdx_head + 1) % s.cmdSize)).fetchEnds

/-- Empty the command ring. -/
def State.cmdIdxZero (s : State) : State := s.setReg R.gateCmdIdx 0

/-- A write of GATE.CMD_BASE. -/
def State.cmdBaseWrite (s : State) (v : BitVec 64) : State :=
  if s.bit R.gateCmdCtl F.gateCmdCtl_en ∨ s.host.fetching then s else (s.setReg R.gateCmdBase v).cmdIdxZero

/-- A write of GATE.CMD_CTL: LOG2_SIZE changes only where EN was 0 and no fetch runs; EN = 0 lets a fetch complete.
[DEDUCED, log entry 115] -/
def State.cmdCtlWrite (s : State) (v : BitVec 64) : State :=
  let was := s.bit R.gateCmdCtl F.gateCmdCtl_en
  let size := bitsOf v.toNat 3 0
  let fetch := s.host.fetching || s.cmdFetches
  let s := if was ∨ s.host.fetching ∨ size = s.fld R.gateCmdCtl F.gateCmdCtl_log2Size then s
    else (s.setFld R.gateCmdCtl F.gateCmdCtl_log2Size size).cmdIdxZero
  if bitOf v.toNat 63 then
    if s.host.fetching ∧ !was then s.setBit R.gateStatus F.gateStatus_cmdEnPending true
    else if was then s
    else s.cmdEnable
  else
    let s := { s with host := { s.host with fetching := fetch } }
    let s := (s.setBit R.gateCmdCtl F.gateCmdCtl_en false).setBit R.gateStatus F.gateStatus_cmdEnPending false
    if s.fld R.gateStatus F.gateStatus_cmdState = 2 then s else s.setFld R.gateStatus F.gateStatus_cmdState 0

/-! ## Completion ring (R441) -/

/-- A waiting completion record is written at TAIL, TAIL is written back, and the CPL event is raised. -/
def State.cplWrite (s : State) : State :=
  let t := s.fld R.gateCplIdx F.gateCplIdx_tail
  match s.lsch.cpl with
  | [] => s
  | r :: rest =>
    if !s.bit R.gateCplCtl F.gateCplCtl_en ∨ (t + 1) % s.cplSize = s.fld R.gateCplIdx F.gateCplIdx_head % s.cplSize then s
    else
      let base := (s.reg R.gateCplBase).toNat / 32 * 32
      let s := { s with lsch := { s.lsch with cpl := rest } }
      let s := s.hostOut (.write 0 (base + 32 * t) (r.flatMap (fun w => beBytes 8 w.toNat)))
      let t' := (t + 1) % s.cplSize
      let s := s.setFld R.gateCplIdx F.gateCplIdx_tail t'
      let s := if s.bit R.gateCplCtl F.gateCplCtl_tailwbEn then
          s.hostOut (.write 0 ((s.reg R.gateCplTailwb).toNat / 8 * 8) (beBytes 8 t')) else s
      s.gateEvent 1

/-! ## Program-load path (R442) -/

/-- Whether some core runs a program. -/
def State.anyActive (s : State) : Bool := s.lsch.cores.any (fun e => e.2.activeLoaded)

/-- PL_STATUS shows RUNNING. -/
def State.plRunning (s : State) : State := s.setFld R.gatePlStatus F.gatePlStatus_status 5

/-- SET_AREA. -/
def State.plSetArea (s : State) (v : BitVec 64) : State :=
  if s.anyActive then s.plRunning
  else if !s.domOn 1 then s
  else (s.setFld R.gatePlStatus F.gatePlStatus_status 0).hbmAreaWrite (BitVec.ofNat 64 (bitsOf v.toNat 39 36))

/-- LOAD. -/
def State.plLoad (s : State) (v : BitVec 64) : State :=
  if s.anyActive then s.plRunning
  else if !s.domOn 1 then s
  else ((s.setFld R.gatePlStatus F.gatePlStatus_status 0).setFld R.lschImgAddr F.lschImgAddr_offset (bitsOf v.toNat 32 0)).lschLoad 1

/-- A write of GATE.PL_CTL. -/
def State.plCtlWrite (s : State) (v : BitVec 64) : State :=
  let s := (s.setFld R.gatePlCtl F.gatePlCtl_gib (bitsOf v.toNat 39 36)).setFld R.gatePlCtl F.gatePlCtl_offset (bitsOf v.toNat 32 0)
  match bitsOf v.toNat 63 62 with
  | 1 => s.plSetArea v
  | 2 => s.plLoad v
  | _ => s

/-! ## Channels: registers (R462, R463) -/

def State.setChState (s : State) (c v : Nat) : State := s.setFld (R.dmaChStatus c) F.dmaChStatus_state v
def State.chKind (s : State) (c : Nat) : Nat := s.fld (R.dmaChActCfg c) F.dmaChActCfg_kind
def State.chCur (s : State) (c : Nat) : Nat := (s.reg (R.dmaChCur c)).toNat

/-- The shadow set is copied into the active set in one step. [DEDUCED, log entry 119] -/
def State.chCopy (s : State) (c : Nat) : State :=
  let s := s.setReg (R.dmaChActCfg c) (s.reg (R.dmaChCfg c))
  let s := s.setReg (R.dmaChActHead c) (s.reg (R.dmaChHead c))
  let s := s.setReg (R.dmaChActRing c) (s.reg (R.dmaChRing c))
  let s := s.setReg (R.dmaChActRingCfg c) (s.reg (R.dmaChRingCfg c))
  s.setReg (R.dmaChActTailwb c) (s.reg (R.dmaChTailwb c))

/-- Whether a channel drains, PAUSING or STOPPING, and issues no new read (R452). [DEDUCED, log entry 187] -/
def State.chDrains (s : State) (c : Nat) : Bool := s.chState c == 3 || s.chState c == 5

/-- Read the descriptor at an address next. [DEDUCED, log entry 187] -/
def State.chGoto (s : State) (c a : Nat) : State :=
  let s := (s.setReg (R.dmaChCur c) (BitVec.ofNat 64 (a / 64 * 64))).setReg (R.dmaChDone c) 0
  s.setChan c { s.chan c with desc := none, fetching := true, checking := false, offer := none, held := s.chDrains c }

/-- A channel starts (R452). -/
def State.chBegin (s : State) (c : Nat) : State :=
  let s := ((s.chCopy c).setChState c 1).setFld (R.dmaChStatus c) F.dmaChStatus_cause 0
  let s := s.setBit (R.dmaChStatus c) F.dmaChStatus_startPending false
  s.chGoto c (s.reg (R.dmaChActHead c)).toNat

/-- An OP the state does not take. -/
def State.chRefuse (s : State) (c : Nat) : State := s.latch (R.dmaChStatus c) F.dmaChStatus_opRefused

/-- The chain-end check begins: DB_PENDING cleared, the flag word being read (R453). [DEDUCED, log entry 187] -/
def State.chCheck (s : State) (c : Nat) : State :=
  (s.setBit (R.dmaChStatus c) F.dmaChStatus_dbPending false).setChan c
    { s.chan c with checking := true, fetching := false, held := s.chDrains c }

def State.chStart (s : State) (c : Nat) : State :=
  let st := s.chState c
  if s.fld (R.dmaChCfg c) F.dmaChCfg_hch = 7 then s.chRefuse c
  else if st = 0 ∨ st = 6 ∨ st = 7 then s.chBegin c
  else if st = 5 then s.setBit (R.dmaChStatus c) F.dmaChStatus_startPending true
  else s.chRefuse c

def State.chPause (s : State) (c : Nat) : State :=
  let st := s.chState c
  if st = 1 ∨ st = 2 then (s.setChan c { s.chan c with wasParked := st == 2 }).setChState c 3 else s.chRefuse c

def State.chResume (s : State) (c : Nat) : State :=
  if s.chState c ≠ 4 then s.chRefuse c
  else if (s.chan c).wasParked then (s.setChState c 2).chCheck c
  else (s.setChan c { s.chan c with held := false }).setChState c 1

def State.chStop (s : State) (c : Nat) : State :=
  let st := s.chState c
  if st = 1 ∨ st = 2 ∨ st = 3 ∨ st = 4 then s.setChState c 5
  else if st = 5 then s.setBit (R.dmaChStatus c) F.dmaChStatus_startPending false
  else s.chRefuse c

/-- A write of CH_CTL. [DEDUCED, log entry 119] -/
def State.chCtlWrite (s : State) (c : Nat) (v : BitVec 64) : State :=
  match v.toNat % 8 with
  | 1 => s.chStart c
  | 2 => s.chPause c
  | 3 => s.chResume c
  | 4 => s.chStop c
  | _ => s

/-- A doorbell (R453). -/
def State.chDoorbell (s : State) (c : Nat) : State :=
  let s := s.setBit (R.dmaChStatus c) F.dmaChStatus_dbPending true
  if s.chState c = 2 ∧ !(s.chan c).checking then s.chCheck c else s

/-! ## Breaks and losses (R435, R446, R452) -/

/-- The packet that a PKT_RX channel was writing is lost with its descriptor. [DEDUCED, log entry 125] -/
def State.rxLose (s : State) (c cls code : Nat) : State :=
  match (s.chan c).rx with
  | some (p, _) => (s.qmDrop 8).report (Lost.packet Src.pcie cls code p)
  | none => s

/-- A descriptor in flight is lost: counted, and reported (R516). [DEDUCED, log entry 120] -/
def State.chLose (s : State) (c cls code : Nat) : State :=
  if (s.chan c).desc.isSome ∨ ((s.chan c).fetching ∧ !(s.chan c).held) then
    let a := s.chCur c
    (((s.count (R.dmaChCounts c) F.dmaChCounts_lost).pmcEvent 0x98 3).report ⟨Src.pcie, cls, 5, 0, code, 1, a, a, c, 0⟩).rxLose c cls code
  else s.rxLose c cls code

/-- Give back the cells of a packet a PKT_TX channel still holds. -/
def State.chDropOffer (s : State) (c : Nat) : State :=
  match (s.chan c).offer with
  | some p => s.freeCells p.dir (cellsOf p.bytes.length)
  | none => s

/-- A channel enters CHAIN_BROKEN with a cause and raises its vector. [DEDUCED, log entry 125] -/
def State.chBreak (s : State) (c cause : Nat) : State :=
  let s := s.chDropOffer c
  let s := s.setChan c { s.chan c with desc := none, fetching := false, checking := false, offer := none, rx := none }
  let s := (s.setBit (R.dmaChStatus c) F.dmaChStatus_startPending false).setFld (R.dmaChStatus c) F.dmaChStatus_cause cause
  (s.setChState c 7).chIrq c

/-- The channels that a predicate selects among those not IDLE break with a cause, their descriptors lost. -/
def State.chBreakAll (s : State) (p : Nat → Bool) (cause cls code : Nat) : State :=
  (List.range 512).foldl (fun s c => if s.chState c ≠ 0 ∧ p c then (s.chLose c cls code).chBreak c cause else s) s

/-- A channel returns to IDLE with its shadow set at reset values (R435). [DEDUCED, log entries 119 and 125] -/
def State.chIdle (s : State) (c : Nat) : State :=
  let s := (s.chLose c 2 0).chDropOffer c
  let zero := fun (s : State) (a : Nat) => s.setReg a (regReset a)
  let s := zero (zero (zero (zero (zero s (R.dmaChCfg c)) (R.dmaChHead c)) (R.dmaChRing c)) (R.dmaChRingCfg c)) (R.dmaChTailwb c)
  let s := s.setReg (R.dmaChStatus c) 0
  s.setChan c {}

/-- Function-level reset of a function: its channels go to IDLE. [DEDUCED, log entry 120] -/
def State.functionReset (s : State) (f : Nat) : State :=
  (List.range 512).foldl (fun s c => if s.chOwner c = f then s.chIdle c else s) s

/-- PERST_N or hot reset: GATE, DMA and PCIE at their reset values. [DEDUCED, log entry 120] -/
def State.perst (s : State) : State :=
  let s := (List.range 512).foldl (fun s c => if s.chState c ≠ 0 then (s.chLose c 2 0).chDropOffer c else s) s
  let s := s.clearUnits (fun u => u == 0 || u == 0x98 || u == 0x99)
  { s with host := { chans := [], out := s.host.out, fetching := false, training := true, ready := false, rdata := s.host.rdata } }

/-! ## Descriptors (R444 to R450) -/

def dEnd (w : List (BitVec 64)) : Bool := bitOf (w.getD 0 0).toNat 63
def dIrq (w : List (BitVec 64)) : Bool := bitOf (w.getD 0 0).toNat 62
def dRec (w : List (BitVec 64)) : Bool := bitOf (w.getD 0 0).toNat 61
def dOp (w : List (BitVec 64)) : Nat := bitsOf (w.getD 0 0).toNat 59 56
def dTag (w : List (BitVec 64)) : Nat := bitsOf (w.getD 0 0).toNat 47 32
def dLen (w : List (BitVec 64)) : Nat := bitsOf (w.getD 0 0).toNat 31 0
def dNext (w : List (BitVec 64)) : Nat := (w.getD 1 0).toNat
def dSrc (w : List (BitVec 64)) : Nat := (w.getD 2 0).toNat
def dDst (w : List (BitVec 64)) : Nat := (w.getD 3 0).toNat
def dParam (w : List (BitVec 64)) : Nat := (w.getD 4 0).toNat

/-- Whether a descriptor breaks a "must" of R444 or has a LENGTH outside its kind's range. [DEDUCED, log entry 117] -/
def dBad (kind : Nat) (w : List (BitVec 64)) : Bool :=
  let n := dLen w
  let xfer := dOp w == 1
  decide (1 < dOp w) || (!dEnd w && dNext w % 64 != 0) ||
    (xfer && (n == 0 || (kind == 1 && decide (16383 < n)) || (kind == 3 && n != 64))) ||
    (kind == 2 && dSrc w != 0) || ((kind == 1 || kind == 3) && dDst w != 0) ||
    (kind == 0 && (decide (16 ≤ dParam w) || decide (1 < bitsOf (dParam w) 3 2) || decide (1 < bitsOf (dParam w) 1 0))) ||
    (kind == 1 && decide (8 ≤ dParam w)) || (decide (2 ≤ kind) && dParam w != 0)

/-- What follows a writeback: the end of the chain is checked, or NEXT is read. [DEDUCED, log entry 116] -/
def State.chForward (s : State) (c : Nat) (w : List (BitVec 64)) : State :=
  let s := s.setChan c { s.chan c with desc := none, fetching := false, offer := none }
  if dEnd w then s.chCheck c else s.chGoto c (dNext w)

/-- A descriptor is written back with a status, then its record, tail writeback and interrupt follow (R445). `flags` is FIRST and LAST;
`stamp` that of word 6; `meta` the metadata written to PARAM on LAST of a PKT_RX packet. -/
def State.writeback (s : State) (c : Nat) (w : List (BitVec 64)) (status bytes flags : Nat) (stamp : BitVec 64)
    (mw : Option (BitVec 64)) (wbFail ringFail : Bool) : State :=
  if wbFail then s.chBreak c 3
  else
    let bad := b2n (status != 0)
    let w5 := 2 ^ 63 + bad * 2 ^ 62 + flags % 4 * 2 ^ 60 + status % 16 * 2 ^ 56 + bytes % 2 ^ 32
    let body := beBytes 8 w5 ++ beBytes 8 stamp.toNat
    let a := s.chCur c
    let s := match mw with
      | some m => s.hostOut (.write (s.chOwner c) (a + 32) (beBytes 8 m.toNat ++ body))
      | none => s.hostOut (.write (s.chOwner c) (a + 40) body)
    let s := ((s.count (R.dmaChCounts c) F.dmaChCounts_descDone).pmcEvent 0x98 2).count (R.dmaChCounts c) F.dmaChCounts_descBad bad
    if dRec w ∧ s.chKind c ≠ 3 ∧ s.bit (R.dmaChActRingCfg c) F.dmaChActRingCfg_en ∧ ringFail then s.chBreak c 4
    else
      let s := if dRec w ∧ s.chKind c ≠ 3 then s.pushRecord c ⟨dTag w, status, 0, bytes, stamp⟩ else s
      let s := if dIrq w then s.chIrq c else s
      s.chForward c w

/-- The completion stamp of a channel. -/
def State.chStamp (s : State) (c : Nat) : BitVec 64 := (s.stamp (0x400 + c)).short

/-- An ordinary writeback. -/
def State.wbPlain (s : State) (c : Nat) (w : List (BitVec 64)) (status bytes : Nat) (t : Bool × Bool) : State :=
  s.writeback c w status bytes 0 (s.chStamp c) none t.1 t.2

/-- Whether a channel reads or completes descriptors: RUNNING, or draining to PAUSED. -/
def State.chWorks (s : State) (c : Nat) : Bool := s.chState c == 1 || s.chState c == 3

/-- A descriptor read returns (R444, R446). [DEDUCED, log entries 118 and 187] -/
def State.descFetch (s : State) (c : Nat) (words : Option (List (BitVec 64))) (poisoned : Bool) (t : Bool × Bool) : State :=
  let ch := s.chan c
  if !s.chWorks c ∨ !ch.fetching ∨ ch.held ∨ !ch.recs.isEmpty then s
  else match words with
    | none => (s.busError poisoned).chBreak c 1
    | some w =>
      let s := (s.pmcEvent 0x98 1).setChan c { ch with desc := some (w.take 5), fetching := false, share := 0 }
      if dBad (s.chKind c) w then s.wbPlain c w 3 0 t
      else if dOp w = 0 then s.wbPlain c w 0 0 t
      else s

/-- The cell of a range of device space, for a channel the PF owns (R443). [DEDUCED, log entry 117] -/
def State.devCell (s : State) (c a n : Nat) : Option Nat :=
  if s.chOwner c ≠ 0 then none
  else if 0x100000000 ≤ a ∧ a + n ≤ 0x1007F0000 then (if s.domOn 1 then some (spaceBase 64 + (a - 0x100000000)) else none)
  else if 0x200000000 ≤ a ∧ a + n ≤ 0x2007F0000 then (if s.domOn 2 then some (spaceBase 65 + (a - 0x200000000)) else none)
  else if 0x1000000000 ≤ a ∧ a + n ≤ 0x1000000000 + s.areaGib * 2 ^ 30 then
    (if s.hbmUp then some (spaceBase 66 + (a - 0x1000000000)) else none)
  else none

/-- Whether a COPY descends (R447). -/
def copyDown (w : List (BitVec 64)) : Bool :=
  bitsOf (dParam w) 3 2 == bitsOf (dParam w) 1 0 && decide (dSrc w < dDst w) && decide (dDst w < dSrc w + dLen w)

/-- The device addresses of a COPY lie in device space. [DEDUCED, log entry 117] -/
def State.copyOk (s : State) (c : Nat) (w : List (BitVec 64)) : Bool :=
  (bitsOf (dParam w) 3 2 == 0 || (s.devCell c (dSrc w) (dLen w)).isSome) &&
    (bitsOf (dParam w) 1 0 == 0 || (s.devCell c (dDst w) (dLen w)).isSome)

/-- Move `n` more bytes of a COPY of which `done` are complete; host data come with the command. [DEDUCED, log entry 118] -/
def State.copyMove (s : State) (c : Nat) (w : List (BitVec 64)) (done n : Nat) (data : List Byte) : State :=
  let o := if copyDown w then dLen w - done - n else done
  let b := if bitsOf (dParam w) 3 2 = 0 then takePad n data
    else match s.devCell c (dSrc w + o) n with
      | some k => s.readBytes k n
      | none => []
  if n = 0 then s
  else if bitsOf (dParam w) 1 0 = 0 then s.hostOut (.write (s.chOwner c) (dDst w + o) b)
  else match s.devCell c (dDst w + o) n with
    | some k => s.writeBytes k b
    | none => s

/-! ## Turns on the link (R454) -/

/-- The bytes of a turn of channel `c`: WEIGHT × 4 KiB, a WEIGHT of 0 being 1. [DESIGN CHOICE, log entry 124] -/
def State.turnBytes (s : State) (c : Nat) : Nat := 4096 * max 1 (s.fld (R.dmaChActCfg c) F.dmaChActCfg_weight)

/-- Whether a channel has data to move now and waits for no read: a COPY out of device space, a packet on its way into a receive buffer.
[DESIGN CHOICE, log entry 124] -/
def State.wantsLink (s : State) (c : Nat) : Bool :=
  s.chState c == 1 && (match (s.chan c).desc with
    | none => false
    | some w => (s.chKind c == 0 && bitsOf (dParam w) 3 2 == 1 && s.copyOk c w) || (s.chKind c == 2 && (s.chan c).rx.isSome))

/-- Who holds the link next, channel `c` wanting it too. [DESIGN CHOICE, log entry 124] -/
def State.nextTurn (s : State) (c : Nat) : Option Nat :=
  ((List.range 512).map (fun i => (s.host.turn + 1 + i) % 512)).find? (fun d => d == c || s.wantsLink d)

/-- What is left of channel `c`'s turn, a new one being begun where the turn comes to it; none while it is another's.
[DESIGN CHOICE, log entry 124] -/
def State.turnLeft (s : State) (c : Nat) : Option Nat :=
  let h := s.host.turn
  if h = c ∧ 0 < s.host.left then some s.host.left
  else if h ≠ c ∧ 0 < s.host.left ∧ s.wantsLink h then none
  else if s.nextTurn c = some c then some (s.turnBytes c)
  else none

/-- Channel `c` moves up to `n` bytes in its turns, as many turns as it gets in a row: how many bytes it moves, none while it is another's turn.
[DESIGN CHOICE, log entry 124] -/
def State.linkTake (s : State) (c n : Nat) : Option (Nat × State) :=
  (s.turnLeft c).map (fun l =>
    let b := s.turnBytes c
    let alone := !(List.range 512).any (fun d => d != c && s.wantsLink d)
    let m := if alone then n else min n l
    let left := if m ≤ l then l - m else (b - (m - l) % b) % b
    (m, { s with host := { s.host with turn := c, left := left } }))

/-- A data command of channel `c` that has `n` bytes of its descriptor to move, the turns before counted in `share`: `act` where its turns
suffice, else the part is counted, or nothing happens while it is another's turn. [DESIGN CHOICE, log entry 124] -/
def State.inTurn (s : State) (c n : Nat) (act : State → State) : State :=
  if n ≤ (s.chan c).share then act s
  else match s.linkTake c (n - (s.chan c).share) with
  | none => s
  | some (m, t) =>
    if m < n - (s.chan c).share then t.setChan c { t.chan c with share := (t.chan c).share + m } else act t

/-- CH_DONE. -/
def State.chDone (s : State) (c : Nat) : Nat := s.fld (R.dmaChDone c) F.dmaChDone_bytes
def State.setChDone (s : State) (c n : Nat) : State := s.setFld (R.dmaChDone c) F.dmaChDone_bytes n

/-- The bus error that a transfer met on its reads of host memory: of its data, or of what a lookaside descriptor names. -/
def State.readErrors (s : State) (t : Transfer) : State :=
  if t.status = 1 ∨ (t.status = 0 ∧ t.busError) then s.busError t.poisoned else s

/-- A COPY completes or stops at a bus error, or its turn ends first (R454). [DEDUCED, log entry 117; DESIGN CHOICE, log entry 124] -/
def State.copyDone (s : State) (c : Nat) (w : List (BitVec 64)) (t : Transfer) : State :=
  let done := s.chDone c
  let rest := dLen w - done
  if !s.copyOk c w then s.wbPlain c w 6 done (t.wbFail, t.ringFail)
  else
    let n := if t.status = 0 then rest else min rest t.moved
    match s.linkTake c n with
    | none => s
    | some (m, s) =>
      let s := (s.copyMove c w done m t.data).setChDone c (done + m)
      if m < n then s
      else (if t.status = 1 then s.readErrors t else s).wbPlain c w t.status (done + m) (t.wbFail, t.ringFail)

/-- A receive buffer takes the next part of the packet a PKT_RX channel writes (R449). [DESIGN CHOICE, log entry 124] -/
def State.rxDone (s : State) (c : Nat) (w : List (BitVec 64)) (t : Transfer) : State :=
  let ch := s.chan c
  match ch.rx with
  | none => s
  | some (p, sent) =>
    let n := min (dLen w) (p.bytes.length - sent)
    let part := (p.bytes.drop sent).take n
    let last := sent + n == p.bytes.length
    s.inTurn c (if t.status ≠ 0 then min n t.moved else n) fun s =>
    if t.status ≠ 0 then (s.setChan c { s.chan c with rx := none }).wbPlain c w t.status (min n t.moved) (t.wbFail, t.ringFail)
    else
      let s := s.hostOut (.write (s.chOwner c) (dDst w) part)
      let s := s.setChan c { s.chan c with rx := if last then none else some (p, sent + n) }
      let flags := b2n (sent == 0) * 2 + b2n last
      if last then s.writeback c w 0 n flags p.stamp.short (some (BitVec.ofNat 64 (beNat (metaBytes p)))) t.wbFail t.ringFail
      else s.writeback c w 0 n flags (s.chStamp c) none t.wbFail t.ringFail

/-- A CRYPTO descriptor: the lookaside descriptor goes to its queue (R450). A full queue makes the engine wait.
[DEDUCED, log entry 117; DESIGN CHOICE, log entry 124] -/
def State.cryptoDone (s : State) (c : Nat) (w : List (BitVec 64)) (t : Transfer) : State :=
  let q := s.fld (R.dmaChActCfg c) F.dmaChActCfg_laq
  let cfg := R.ciphLaqCfg q
  if t.status ≠ 0 then (s.readErrors t).wbPlain c w t.status t.moved (t.wbFail, t.ringFail)
  else if !s.domTakes 6 ∨ !s.bit cfg F.ciphLaqCfg_en ∨ !s.bit cfg F.ciphLaqCfg_src ∨ s.fld cfg F.ciphLaqCfg_dmaCh ≠ c then
    s.wbPlain c w 6 0 (t.wbFail, t.ringFail)
  else if 256 ≤ s.laLevel q ∨ s.restarting Src.ciph then s
  else
    let d := laWords (takePad 64 t.data)
    let bad := laBad d
    let aad := takePad (bitsOf (d.getD 2 0) 31 0) t.aad
    let text := takePad (bitsOf (d.getD 3 0) 29 0) t.text
    let r := laRequest d q (s.laUrgent q d) bad (t.busError && !bad) (if bad then [] else aad) (if bad then [] else text) t.tag
    s.inTurn c 64 fun s =>
      (((if bad then s else s.readErrors t).laSubmit q { r with chan := some c }).wbPlain c w 0 64 (t.wbFail, t.ringFail))

/-- A descriptor's transfer completes (R445). A PKT_TX descriptor completes here only with a bus error. -/
def State.descDone (s : State) (c : Nat) (t : Transfer) : State :=
  match (s.chan c).desc with
  | none => s
  | some w =>
    if !s.chWorks c then s
    else match s.chKind c with
      | 0 => s.copyDone c w t
      | 1 => if t.status = 0 ∨ (s.chan c).offer.isSome then s else (s.readErrors t).wbPlain c w t.status t.moved (t.wbFail, t.ringFail)
      | 2 => s.rxDone c w t
      | _ => s.cryptoDone c w t

/-- A PKT_TX packet read whole is offered to its pipe; the descriptor is written back when the pipe takes it (R448).
[DEDUCED, log entries 65 and 121; DESIGN CHOICE, log entry 124] -/
def State.pktTx (s : State) (c : Nat) (data : List Byte) (t : Bool × Bool) : State :=
  match (s.chan c).desc with
  | none => s
  | some w =>
    if !(s.chWorks c || (s.chState c == 5 && (s.chan c).offer.isSome)) ∨ s.chKind c ≠ 1 then s
    else
      let d : Dir := if bitOf (dParam w) 0 then .dn else .up
      let act := bitsOf (dParam w) 2 1
      let p : Pkt := { bytes := takePad (dLen w) data, dir := d, chan := 120 + s.fld (R.dmaChActCfg c) F.dmaChActCfg_hch,
                       stamp := s.stamp (0x400 + c), inject := true, act := act,
                       ret := if act ≠ 0 then c + 1 else 0, tag := dTag w }
      let fresh := (s.chan c).offer.isNone
      s.inTurn c (if fresh then dLen w else 0) fun s =>
      let got := match (s.chan c).offer with
        | some o => some (o, s)
        | none => (s.takeCells d true (cellsOf (dLen w))).map (fun s => (p, s))
      match got with
      | none =>
        if s.restarting Src.qm then ((s.qmDrop 8).report (Lost.packet Src.qm 2 (s.lostCode Src.qm) p)).wbPlain c w 9 0 t
        else (s.qmDrop 4).wbPlain c w 5 0 t
      | some (p, s) =>
        if s.pipeFull d (pipeOf p) then
          (if fresh then s.setChan c { s.chan c with offer := some p } else s)
        else (s.enterPipe p).wbPlain c w 0 (dLen w) t

/-- The flag word of the last descriptor returns, and NEXT where END is clear (R453). [DEDUCED, log entries 116 and 187] -/
def State.chainEnd (s : State) (c : Nat) (endBit : Option Bool) (next : Option (BitVec 64)) (poisoned : Bool) : State :=
  let st := s.chState c
  if !(s.chan c).checking ∨ (s.chan c).held ∨ !(st = 1 ∨ st = 2 ∨ st = 3) then s
  else match endBit with
    | none => (s.busError poisoned).chBreak c 1
    | some true =>
      if s.bit (R.dmaChStatus c) F.dmaChStatus_dbPending then s.chCheck c
      else
        let s := s.setChan c { s.chan c with checking := false, wasParked := true }
        if st = 3 then s else if st = 2 then s else (s.setChState c 2).chIrq c
    | some false =>
      match next with
      | none => (s.busError poisoned).chBreak c 2
      | some a =>
        let s := (s.chGoto c a.toNat).setChan c { (s.chGoto c a.toNat).chan c with wasParked := false }
        if st = 3 then s else s.setChState c 1

/-- A drain completes (R452): the part read is written; a stopping channel's descriptor is written back ABORTED. A packet that a PKT_TX
channel has read and offers to its pipe is completed first. -/
def State.drainDone (s : State) (c : Nat) (t : Transfer) : State :=
  let st := s.chState c
  if (s.chan c).offer.isSome then s else
  let part := fun (s : State) =>
    match (s.chan c).desc with
    | some w =>
      if s.chKind c = 0 ∧ s.copyOk c w then
        let n := min t.moved (dLen w - s.chDone c)
        (s.copyMove c w (s.chDone c) n t.data).setChDone c (s.chDone c + n)
      else s
    | none => s
  if st = 3 then ((part s).setChState c 4).chIrq c
  else if st = 5 then
    let s : State := part s
    let s : State := match (s.chan c).desc with
      | some w =>
        let cur := s.reg (R.dmaChCur c)
        let done := s.reg (R.dmaChDone c)
        let db := s.bit (R.dmaChStatus c) F.dmaChStatus_dbPending
        let s := s.wbPlain c w 4 (s.chDone c) (t.wbFail, t.ringFail)
        ((s.setReg (R.dmaChCur c) cur).setReg (R.dmaChDone c) done).setBit (R.dmaChStatus c) F.dmaChStatus_dbPending db
      | none => s
    if s.chState c = 7 then s
    else
      let s := s.setChan c { s.chan c with desc := none, fetching := false, checking := false, offer := none, rx := none }
      let again := s.bit (R.dmaChStatus c) F.dmaChStatus_startPending
      let s := (s.setChState c 6).chIrq c
      if again then s.chBegin c else s
  else s

/-- A read meets no completion within CPL_TIMEOUT and ends as a bus error (R446, R461). -/
def State.cplTimeout (s : State) (c : Option Nat) : State :=
  let s := s.count R.pcieErrCounts F.pcieErrCounts_timeouts
  match c with
  | none => if s.host.fetching || s.cmdFetches then s.cmdBreak 1 else s
  | some c =>
    let ch := s.chan c
    if !(s.chWorks c) ∧ s.chState c ≠ 2 then s
    else if (ch.fetching || ch.checking) && !ch.held then s.chBreak c 1
    else match ch.desc with
      | some w => if ch.offer.isSome ∨ s.chKind c = 2 ∨ (s.chKind c = 0 ∧ bitsOf (dParam w) 3 2 = 1) then s else s.wbPlain c w 1 (s.chDone c) (false, false)
      | none => s

/-- The receive buffers of a host channel: the DMA channel that serves queue group `g` and holds an unused buffer (R449).
[DESIGN CHOICE, log entry 122] -/
def State.rxChannel (s : State) (h g : Nat) : Option Nat :=
  (List.range 512).find? (fun c => s.chState c == 1 && s.chKind c == 2 && s.fld (R.dmaChActCfg c) F.dmaChActCfg_hch == h &&
    s.fld (R.dmaChActCfg c) F.dmaChActCfg_group == g && (s.chan c).desc.isSome && (s.chan c).rx.isNone)

/-- Host channel `120 + h` selects a packet for one of its receive buffers (R281, R449).
[DESIGN CHOICE, log entry 122; DEDUCED, log entry 125] -/
def State.hostSelect (s : State) (h : Nat) : State :=
  match s.selectFor (120 + h) (fun _ => false) (fun g => (s.rxChannel h g).isSome) with
  | none => s
  | some (p, s') =>
    match s.rxChannel h (s.node p.queue).group with
    | none => s
    | some c => s'.setChan c { s'.chan c with rx := some (p, 0) }

/-! ## Owners, functions, interrupts (R455, R460) -/

/-- A write of GATE.CH_OWNERc. -/
def State.ownerWrite (s : State) (c : Nat) (v : BitVec 64) : State :=
  let st := s.chState c
  if (st = 0 ∨ st = 6 ∨ st = 7) ∧ v.toNat % 64 ≤ s.fld R.pcieStatus F.pcieStatus_numVfs then
    s.setFld (R.gateChOwner c) F.gateChOwner_func (v.toNat % 64)
  else s.latch R.gateStatus F.gateStatus_ownerRefused

/-- Virtual functions are disabled: their channels return to the PF and to IDLE. -/
def State.vfDisable (s : State) : State :=
  let s := s.setFld R.pcieStatus F.pcieStatus_numVfs 0
  (List.range 512).foldl (fun s c =>
    if s.chOwner c = 0 then s else (s.chIdle c).setFld (R.gateChOwner c) F.gateChOwner_func 0) s

/-- A channel's interrupt holdoff ends. -/
def State.holdoffEnds (s : State) (c : Nat) : State :=
  let ch := s.chan c
  let s := s.setChan c { ch with holdoff := false, merged := false }
  if ch.holdoff && ch.merged then s.chIrq c else s

/-- The host writes the disposition ring's HEAD: waiting records go out. -/
def State.ringHead (s : State) (c : Nat) (v : BitVec 64) : State :=
  let s := s.setFld (R.dmaChRingIdx c) F.dmaChRingIdx_head v.toNat
  s.flushRecords c (s.chan c).recs.length

/-- The link trains, at most to MAX_SPEED (R461). [DEDUCED, log entry 123] -/
def State.linkTrained (s : State) (speed width : Nat) (flit : Bool) : State :=
  let speed := min speed (s.fld R.pcieCfg F.pcieCfg_maxSpeed)
  let s := (s.setFld R.pcieStatus F.pcieStatus_speed speed).setFld R.pcieStatus F.pcieStatus_width width
  (s.setBit R.pcieStatus F.pcieStatus_flit flit).setBit R.pcieStatus F.pcieStatus_dlUp true

/-- The link goes down (R452). [DEDUCED, log entry 123] -/
def State.linkLost (s : State) (cls code : Nat) : State :=
  (s.setBit R.pcieStatus F.pcieStatus_dlUp false).chBreakAll (fun _ => true) 5 cls code

end Sys2Proof.Machine
end

