-- ==== Sys2Proof/Machine/Med.lean ====
section
/-!
DEFINITION. The meanings of the medium lane commands (R32, R51 to R60).
-/

namespace Sys2Proof.Machine

/-! ## Lane settings (R60) -/

/-- A write to MED.LANE_CFG. -/
def State.laneCfg (s : State) (p : Nat) (v : Word) : State :=
  let old := s.reg (R.medLaneCfg p)
  let st := s.planeState p
  if (st = 3 ∨ st = 4) ∧ bitsOf old.toNat 5 2 ≠ bitsOf v.toNat 5 2 then s.latch (R.medDefect p) F.medDefect_testRefused
  else
    let modeNew := min 2 (bitsOf old.toNat 3 2) ≠ min 2 (bitsOf v.toNat 3 2)
    let s := s.setReg (R.medLaneCfg p) (BitVec.ofNat 64 (bitsOf v.toNat 5 2 * 4 + old.toNat % 2))
    let s := if modeNew ∧ bitOf old.toNat 0 ∧ bitOf v.toNat 0 then s.modeChanged p else s
    s.laneEnable p (bitOf v.toNat 0)

/-- MED_LANE_CFG_WRITE (R60). -/
def execMedLaneCfgWrite (p : Plane) (v : Word) (s : State) : Host.Outcome State Fault Refusal := .next (s.laneCfg p v)

/-! ## Test modes (R56 to R58) -/

/-- A write to MED.TEST (R57): a write that changes neither LOOPBACK nor PAT_GEN leaves the transmit half alone.
[DEDUCED, log entry 23] -/
def State.testWrite (s : State) (p : Nat) (v : Word) : State :=
  let st := s.planeState p
  if (bitsOf v.toNat 6 5 ≠ 0 ∨ bitsOf v.toNat 2 0 ≠ 0) ∧ 2 ≤ st then s.latch (R.medDefect p) F.medDefect_testRefused
  else
    let pat := s.patGen p
    let loop := s.fld (R.medTest p) F.medTest_loopback
    let s := s.setFld (R.medTest p) ⟨7, 5⟩ (bitsOf v.toNat 7 5)
    let s := s.setFld (R.medTest p) F.medTest_loopback (bitsOf v.toNat 2 0)
    let s := if bitOf v.toNat 7 then s
      else (s.setBit (R.medTest p) F.medTest_chkLock false).setLane p { s.lane p with chk := 0, chkRun := 0, chkErr := [] }
    if bitsOf v.toNat 6 5 = pat ∧ bitsOf v.toNat 2 0 = loop then s
    else
      let s := if bitsOf v.toNat 6 5 = pat then s else s.startPattern p
      let s := s.haltPlane p 8
      if s.loopback p = 2 then
        if s.patGen p = 0 then s.setLol p
        else if s.bit (R.medLaneStatus p) F.medLaneStatus_los then s
        else s.setBit (R.medLaneStatus p) F.medLaneStatus_lol false
      else s

/-- MED_TEST_WRITE (R57). -/
def execMedTestWrite (p : Plane) (v : Word) (s : State) : Host.Outcome State Fault Refusal := .next (s.testWrite p v)

/-! ## The hunt (R32) -/

/-- The dwell ends: extended in CONFIRM, void in frame, else the other rate. -/
def State.dwellEnd (s : State) (p : Nat) : State :=
  if !s.bit (R.medLaneStatus p) F.medLaneStatus_hunting || s.aligned p then s
  else if s.fld (R.dfpPlaneStatus p) F.dfpPlaneStatus_align = 1 then s.setLane p { s.lane p with dwellOver := true }
  else s.setRate p (3 - s.fld (R.medLaneStatus p) F.medLaneStatus_rate)

/-- HUNT_DWELL_EXPIRY (R32). -/
def execHuntDwellExpiry (p : Plane) (s : State) : Host.Outcome State Fault Refusal := .next (s.dwellEnd p)

/-! ## Detectors (R53, R54) -/

/-- LOS_SET (R53): the signal has been absent for the set time. [DESIGN CHOICE, log entry 22] -/
def execLosSet (p : Plane) (msdPin : Bool) (millivolts : Nat) (s : State) : Host.Outcome State Fault Refusal :=
  .next (if s.signalAbsent p msdPin millivolts then (s.showMsd p msdPin).setLos p else s)

/-- LOS_CLEAR (R53): the signal has been present for the clear time. [DESIGN CHOICE, log entry 22] -/
def execLosClear (p : Plane) (msdPin : Bool) (millivolts : Nat) (s : State) : Host.Outcome State Fault Refusal :=
  .next (if s.signalAbsent p msdPin millivolts then s else (s.showMsd p msdPin).clearLos p)

/-- What a lock window's end decides (R54). -/
def State.cdrJudge (s : State) (p : Nat) (w : CdrWindow) : State :=
  if decide (200 < w.offsetPpm) || decide (4 ≤ w.slips) || s.bit (R.medLaneStatus p) F.medLaneStatus_los then s.setLol p
  else if (s.lane p).losWin || (s.lane p).rateWin || decide (100 < w.offsetPpm) || w.slips != 0 then s.setLane p { s.lane p with good := 0 }
  else
    let n := (s.lane p).good + 1
    let s := s.setLane p { s.lane p with good := min 16 n }
    if 16 ≤ n then s.setBit (R.medLaneStatus p) F.medLaneStatus_lol false else s

/-- The end of a lock window: LOL is judged, except where near-end loopback bypasses the detector (R56), and the next window begins. -/
def State.cdrWindow (s : State) (p : Nat) (w : CdrWindow) : State :=
  if !s.bit (R.medLaneCfg p) F.medLaneCfg_laneEn then s
  else
    let s := if s.loopback p = 2 then s else s.cdrJudge p w
    s.setLane p { s.lane p with losWin := s.bit (R.medLaneStatus p) F.medLaneStatus_los, rateWin := false }

/-- CDR_WINDOW_END (R54). -/
def execCdrWindowEnd (p : Plane) (w : CdrWindow) (s : State) : Host.Outcome State Fault Refusal := .next (s.cdrWindow p w)

/-! ## The transmit PLL (R51) -/

/-- CODE of a fault whose cause the spec names and whose other bits it leaves open (R510). -/
def faultCode (src cause : Nat) : Nat := cause * 4096 + (Config.faultDetail src cause).toNat

/-- The PLL loses lock: every lane idle, bursts abandoned, class D on MED_TXPLL. [DESIGN CHOICE, log entry 26] -/
def State.txUnlock (s : State) : State :=
  if !s.med.txLock then s
  else
    let s := { s with med := { s.med with txLock := false, txWait := true } }.showTxLock.count R.clkCounts F.clkCounts_pllUnlocks
    let s := (List.range 24).foldl (fun s p =>
      (s.haltPlane p 8).latch (R.medDefect p) F.medDefect_txpll) s
    s.signal Src.medTxpll 2 (faultCode Src.medTxpll 3)

/-- TXPLL_UNLOCK (R51). -/
def execTxpllUnlock (s : State) : Host.Outcome State Fault Refusal := .next s.txUnlock

/-- TXPLL_RELOCK (R51, R64): lock is shown at once; transmission waits for 10 µs. [DESIGN CHOICE, log entry 26] -/
def execTxpllRelock (s : State) : Host.Outcome State Fault Refusal :=
  .next (if s.med.txLock then s else { s with med := { s.med with txLock := true, txWait := true } }.showTxLock)

/-- The lanes that a test setting drives leave electrical idle. -/
def State.testResumes (s : State) : State :=
  (List.range 24).foldl (fun s p => if s.testDrives p then s.setBit (R.medLaneStatus p) F.medLaneStatus_txIdle false else s) s

/-- TXPLL_RESUME (R51): the PLL has stayed locked for 10 µs. [DESIGN CHOICE, log entry 26] -/
def execTxpllResume (s : State) : Host.Outcome State Fault Refusal :=
  .next (if s.med.txLock then { s with med := { s.med with txWait := false } }.testResumes else s)

end Sys2Proof.Machine
end

