-- ==== Sys2Proof/Machine/PwrOps.lean ====
section
/-!
DEFINITION. The power controller's operations: what a domain keeps and loses (R525, R581), requests and their refusals (R527 to
R532), the wake sequence and the forced shutdown (R533, R534), operating points (R535 to R538), reset (R542) and start-up
(R545).
-/

namespace Sys2Proof.Machine

/-! ## Domains (R524, R525) -/

def State.domState (s : State) (d : Nat) : Nat := s.fld (R.pwrDom d) F.pwrDom_state
def State.setPhase (s : State) (d v : Nat) : State := s.setFld (R.pwrDom d) F.pwrDom_phase v

/-- The fault sources of a domain's units (R509, R524). -/
def sourcesOf (d : Nat) : List Nat :=
  match d with
  | 0 => [Src.pcie]
  | 1 => [Src.lim0]
  | 2 => [Src.lim1]
  | 3 => [Src.hbm 0]
  | 4 => [Src.hbm 1]
  | 5 => [Src.qm]
  | 6 => [Src.ciph]
  | 7 => [Src.cls]
  | 8 => [Src.pktd, Src.dfp]
  | 9 => [Src.pktu, Src.ubb]
  | 10 => [Src.circ]
  | 29 => [Src.hinge]
  | _ => if d < 17 then [Src.med (d - 11)] else if d < 29 then [Src.cli (d - 17)] else []

/-- Put the pairs of a domain's sources under the clamp, or release them (R508). [DEDUCED, log entry 154] -/
def State.clamp (s : State) (d : Nat) (b : Bool) : State :=
  let l := s.flt.clamped.filter (fun x => !(sourcesOf d).contains x)
  { s with flt := { s.flt with clamped := if b then l ++ sourcesOf d else l } }

/-- A restart in progress when the domain leaves ON is abandoned (R508). -/
def State.dropRestarts (s : State) (d : Nat) : State :=
  (sourcesOf d).foldl (fun s x => s.setFld R.fltRestarting ⟨x, x⟩ 0) s

/-- The packets of a direction's pipes are gone. -/
def State.clearPipes (s : State) (d : Dir) : State :=
  (List.range 8).foldl (fun s n => (s.setPipe d n []).setClassified d n []) s

/-- No cell of a stack without power is in use. -/
def State.emptyStack (s : State) (k : Nat) : State :=
  { s with qm := { s.qm with stackUsed := Tbl.set (fun _ => 0) s.qm.stackUsed k 0 } }

/-- What the units of a domain keep outside their registers is gone. -/
def State.clearInside (s : State) (d : Nat) : State :=
  match d with
  | 0 => { s with host := { out := s.host.out } }
  | 1 =>
    let s := s.clearCluster 0
    { s with lsch := { cores := s.lsch.cores, saved := s.lsch.saved.filter (fun e => e.1 / 32 != 0),
                       uid := s.lsch.uid, blocks := s.lsch.blocks }, edges := [] }
  | 2 =>
    let s := s.clearCluster 1
    { s with lsch := { s.lsch with saved := s.lsch.saved.filter (fun e => e.1 / 32 != 1) } }
  | 3 | 4 =>
    (s.clearSpace 66).emptyStack (d - 3)
  | 5 => { s with qm := { ids := s.qm.ids } }
  | 6 => { s with ciph := { num := s.ciph.num, gen := s.ciph.gen } }
  | 7 => { s with cls := { pipes := s.cls.pipes, done := s.cls.done } }
  | 8 => { s.freeCells .dn s.dfpCells with dfp := {} }.clearPipes .dn
  | 9 => { s with ubb := {}, cli := { s.cli with recov := [] } }.clearPipes .up
  | 10 => { s with circ := {} }
  | 29 => { s with twin := {} }
  | _ =>
    if d < 17 then (List.range 4).foldl (fun s i => s.setLane (4 * (d - 11) + i) {}) s
    else if d < 29 then (List.range 8).foldl (fun s i => (s.setPort (8 * (d - 17) + i) {}).ptpDisable (8 * (d - 17) + i)) s
    else s

/-- A domain that is OFF keeps nothing: its registers stand at their reset values, its tables and buffers are empty (R525). -/
def State.clearDomain (s : State) (d : Nat) : State :=
  let s := (s.clearUnits (fun u => domainOf u == some d)).clearInside d
  if d = 8 then s.retime false else if 11 ≤ d ∧ d ≤ 16 then s.showTxLock else s

/-! ## Records and refusals (R532) -/

/-- A record for Preura's POWER entries, or a lost one. -/
def State.pwrRecord (s : State) (detail : Nat) (w : BitVec 64) : State :=
  if s.pwr.log.length < 32 then { s with pwr := { s.pwr with log := s.pwr.log ++ [(detail, w, s.stamp 2)] } }
  else s.count R.pwrStatus F.pwrStatus_logLost

/-- A completion, refusal or abort: DOM_CHG and a record. [DEDUCED, log entry 149] -/
def State.pwrNote (s : State) (d : Nat) : State :=
  (s.latch R.pwrStatus F.pwrStatus_domChg).pwrRecord d (s.reg (R.pwrDom d))

def State.pwrRefuse (s : State) (d unit : Nat) : State :=
  ((s.count (R.pwrDom d) F.pwrDom_refused).setFld (R.pwrDom d) F.pwrDom_lastRefuser unit).pwrNote d

def State.pwrAbort (s : State) (d unit : Nat) : State :=
  ((s.count (R.pwrDom d) F.pwrDom_aborted).setFld (R.pwrDom d) F.pwrDom_lastRefuser unit).pwrNote d

/-- Whether a domain is neither OFF nor to stay so: a domain that waits for its wake or wakes counts (R11, R529).
[DEDUCED, log entry 150] -/
def State.notOff (s : State) (d : Nat) : Bool := s.domState d != 0 || decide (3 ≤ s.domPhase d)

/-- The lowest of a list of candidates that a predicate selects, as a unit id from `base`. -/
def firstUnit (base : Nat) (l : List Nat) (p : Nat → Bool) : Option Nat := (l.find? p).map (base + ·)

/-- Cells in use in a pool or an HBM region. -/
def State.cellsUsed (s : State) : Bool :=
  [Dir.up, Dir.dn].any (fun d => decide (0 < s.dieUsed d) || decide (0 < s.hbmUsed d))

/-- The refuser of a request to put a domain into RETENTION or OFF (R529, R270, R365, R466). [DEDUCED, log entry 150] -/
def State.downRefuser (s : State) (d : Nat) : Option Nat :=
  let lane := fun (p : Nat) => s.bit (R.medLaneCfg p) F.medLaneCfg_laneEn
  let mode := fun (k : Nat) => s.cliMode k != 0
  match d with
  | 0 => if s.bit R.pcieStatus F.pcieStatus_dlUp then some 0x99 else none
  | 1 => if s.notOff 2 then some 0xC0 else if s.termState ≠ 0 ∧ s.termState ≠ 8 then some 0x01 else none
  | 3 | 4 =>
    let k := d - 3
    if (s.domState 5 != 0 && bitOf (s.fld R.qmHbmCfg F.qmHbmCfg_stackEn) k) || 0 < s.stackUsed k then some 0x91
    else none
  | 5 => if s.notOff 9 then some 0x93 else if s.notOff 8 then some 0x94 else if s.notOff 10 then some 0x96
    else if s.cellsUsed then some 0x91 else none
  | 6 => if s.domOn 9 || s.domOn 8 || (List.range 96).any (fun p => s.domOn (17 + p / 8) && s.macsecOn p) then some 0x95 else none
  | 7 => if s.notOff 9 then some 0x93 else if s.notOff 8 then some 0x94 else none
  | 8 => firstUnit 0x10 (List.range 24) lane
  | 9 => (firstUnit 0x30 (List.range 96) mode).or
      (if (List.range 24).any (fun p => s.fld (R.ubbPlaneCtl p) F.ubbPlaneCtl_permit != 0) then some 0xF1 else none)
  | 10 => if s.circ.circuits.any (fun e => e.2.upEn || e.2.dnEn) || s.bit R.circCfg F.circCfg_dccEn then some 0x96 else none
  | 29 => if s.role ≠ 0 then some 0x97 else none
  | _ =>
    if 11 ≤ d ∧ d ≤ 16 then firstUnit 0x10 ((List.range 4).map (· + 4 * (d - 11))) lane
    else if 17 ≤ d ∧ d ≤ 28 then firstUnit 0x30 ((List.range 8).map (· + 8 * (d - 17))) mode
    else none

/-- Whether a prerequisite of domain `d` is ON, or waits or wakes before it (R530). LIM0 on its way down does not count for LIM1, which
would be left on while LIM0 is off (R11). [DEDUCED, log entry 150] -/
def State.onBefore (s : State) (d p : Nat) : Bool :=
  (s.domOn p && !(d == 2 && (s.domPhase p == 1 || s.domPhase p == 2))) || s.domPhase p == 4 || (s.domPhase p == 3 && decide (p < d))

/-- The refuser of a request for ON (R530). -/
def State.onRefuser (s : State) (d : Nat) : Option Nat :=
  let on := s.onBefore d
  if s.fld R.fltStatusF F.fltStatusF_sources ≠ 0 then some 0x04
  else if d = 2 ∧ !on 1 then some 0xA0
  else if d = 5 ∧ !on 3 ∧ !on 4 then some 0xE0
  else if d = 8 ∨ d = 9 then
    if !on 5 then some 0x91 else if !on 7 then some 0x90 else if !on 6 then some 0x95 else none
  else if d = 10 ∧ !on 5 then some 0x91
  else none

/-! ## Requests (R527 to R531) -/

/-- The STATE code of a target code (1 ON, 2 RETENTION, 3 OFF). -/
def targetState (t : Nat) : Nat := 3 - t

/-- A request becomes current: it completes at once, is refused, drains, or waits for its wake turn. [DEDUCED, log entry 149] -/
def State.pwrBegin (s : State) (t unit d : Nat) : State :=
  let enter := fun (phase : Nat) => { (s.setFld (R.pwrDom d) F.pwrDom_target (targetState t)).setPhase d phase with
    pwr := { s.pwr with asker := Tbl.set (fun _ => 0) s.pwr.asker d unit } }
  if s.domState d = targetState t then s.pwrNote d
  else if t = 2 ∧ s.domState d = 0 then s.pwrRefuse d 0x02
  else
    match (if t = 1 then s.onRefuser d else s.downRefuser d) with
    | some u => s.pwrRefuse d u
    | none => enter (if t = 1 then 3 else 1)

/-- A request for a domain (R527, R531): it becomes current, or takes the place of the pending one. [DEDUCED, log entry 149] -/
def State.pwrRequest (s : State) (t unit d : Nat) : State :=
  if s.domPhase d = 0 then s.pwrBegin t unit d
  else
    let s := if s.fld (R.pwrDom d) F.pwrDom_pending = 0 then s else s.pwrAbort d unit
    let s := s.setFld (R.pwrDom d) F.pwrDom_pending t
    let s := s.setBit (R.pwrDom d) F.pwrDom_reEnPending (t == 1 && decide (s.domPhase d < 3))
    { s with pwr := { s.pwr with asker := Tbl.set (fun _ => 0) s.pwr.asker d unit } }

/-- A write of PWR.REQ: each domain of the mask receives one request; TARGET 0 is ignored. [DEDUCED, log entry 149] -/
def State.pwrReq (s : State) (t unit mask : Nat) : State :=
  if t = 0 then s else ((List.range 30).filter (fun d => bitOf mask d)).foldl (fun s d => s.pwrRequest t unit d) s

/-- A domain that the start-up sequence placed has ended (R545). [DEDUCED, log entry 151] -/
def State.startEnded (s : State) (d : Nat) : State :=
  if s.pwr.started.contains d then
    { s with pwr := { s.pwr with started := s.pwr.started.filter (· != d) } }
  else s

/-- Once every domain placed has ended, the start-up sequence ends (R545). [DEDUCED, log entry 151] -/
def State.startDone (s : State) : State :=
  if !s.pwr.porst ∧ !s.pwr.starting ∧ s.pwr.started = [] then s.setBit R.pwrStatus F.pwrStatus_startDone true else s

/-- A transition ends: the pending request becomes current (R531). A request that finds its target reached ends without count. -/
def State.pwrSettle (s : State) (d : Nat) : State :=
  let s := (s.setPhase d 0).startEnded d
  let t := s.fld (R.pwrDom d) F.pwrDom_pending
  if t = 0 then s
  else
    let s := (s.setFld (R.pwrDom d) F.pwrDom_pending 0).setFld (R.pwrDom d) F.pwrDom_reEnPending 0
    s.pwrBegin t (Tbl.get (fun _ => 0) s.pwr.asker d) d

/-! ## Draining (R528, R529) -/

/-- The unit that still holds an item of a domain, if any. -/
def State.holder (s : State) (d : Nat) : Option Nat :=
  let cl := fun (k : Nat) => (s.inService.find? (fun e => e.1 / 32 == k)).map (fun e => 0xA0 + e.1)
  let quad := fun (p : Nat) => s.ubb.builds.any (fun b => b.launched && b.grants.any (fun g => g.plane == p))
  let busy := (sourcesOf d).any s.restarting
  let own := match d with
    | 0 => if s.host.chans.any (fun e => e.2.desc.isSome || e.2.fetching || e.2.offer.isSome) then some 0x98
        else if s.host.fetching then some 0x00 else none
    | 1 => (cl 0).or (if s.lsch.store ≠ [] ∨ s.lsch.cpl ≠ [] then some 0x9A else if s.host.fetching then some 0x00 else none)
    | 2 => cl 1
    | 3 | 4 => if 0 < s.stackUsed (d - 3) then some (0xE0 + (d - 3)) else none
    | 5 => if s.cellsUsed then some 0x91 else none
    | 6 => if s.runningReqs = [] ∧ s.ciph.waiting = [] ∧ s.ciph.suspended = [] then none else some 0x95
    | 7 => if (List.range 8).all (fun n => s.pipe .up n == [] && s.pipe .dn n == []) then none else some 0x90
    | 8 => if s.dfp.opening ≠ [] ∨ s.dfp.rsq.any (fun e => e.2.held != []) then some 0xF0
        else if (List.range 8).any (fun n => s.pipe .dn n != [] || s.classified .dn n != []) then some 0x94 else none
    | 9 => if s.ubb.builds ≠ [] ∨ (List.range 24).any (fun p => (s.uplane p).entries != []) then some 0xF1
        else if (List.range 8).any (fun n => s.pipe .up n != [] || s.classified .up n != []) then some 0x93 else none
    | 10 => if s.circ.queue ≠ [] ∨ s.circ.circuits.any (fun e => e.2.held != []) then some 0x96 else none
    | 29 => if s.twin.blocks ≠ [] ∨ s.twin.inbox ≠ [] then some 0x97 else none
    | _ =>
      if d < 17 then firstUnit 0x10 ((List.range 4).map (· + 4 * (d - 11))) quad
      else firstUnit 0x30 ((List.range 8).map (· + 8 * (d - 17))) (fun k => (s.port k).egress != [])
  own.or (if busy then some ((List.range 256).find? (fun u => domainOf u == some d) |>.getD 0x02) else none)

/-- A draining domain that holds no item goes down: isolation is enabled (R508, R528). -/
def State.drainDoneDom (s : State) (d : Nat) : State :=
  if s.domPhase d = 1 ∧ s.holder d = none then (s.setPhase d 2).clamp d true else s

/-- The drain bound runs out with items held: the entry is aborted (R528). -/
def State.drainAbort (s : State) (d : Nat) : State :=
  match s.holder d with
  | some u => if s.domPhase d = 1 then (s.pwrAbort d u).pwrSettle d else s
  | none => s

/-! ## Operating points (R535 to R538) -/

/-- A point code: 3 is treated as 2 (R547). -/
def point (n : Nat) : Nat := min n 2

/-- The point that VDD_PKT, or a cluster, runs at for its request under the degradation level (R538). -/
def State.pktPoint (s : State) : Nat :=
  let r := point (s.fld R.pwrOp F.pwrOp_pktReq)
  if s.fld R.pwrDegrade F.pwrDegrade_level = 3 then max r 1 else r
def State.limPoint (s : State) (k : Nat) : Nat :=
  let r := point (s.fld R.pwrOp (if k = 0 then F.pwrOp_lim0Req else F.pwrOp_lim1Req))
  if k = 1 ∧ 2 ≤ s.fld R.pwrDegrade F.pwrDegrade_level then max r 1 else r

def railV (r : Nat) : Fld := if r = 0 then F.pwrOp_pktV else F.pwrOp_limV

/-- The fused voltage of a rail's point in mV. [DESIGN CHOICE, log entry 157] -/
def State.opVolt (s : State) (r n : Nat) : Nat :=
  s.fld R.pwrOpVolt (if r = 0 then (if n = 0 then F.pwrOpVolt_pktOp0 else if n = 1 then F.pwrOpVolt_pktOp1 else F.pwrOpVolt_pktOp2)
    else (if n = 0 then F.pwrOpVolt_limLp0 else if n = 1 then F.pwrOpVolt_limLp1 else F.pwrOpVolt_limLp2))

def State.rail (s : State) (r : Nat) : Rail := Tbl.get (fun _ => {}) s.pwr.rails r
def State.setRail (s : State) (r : Nat) (v : Rail) : State :=
  { s with pwr := { s.pwr with rails := Tbl.set (fun _ => {}) s.pwr.rails r v } }

/-- A clock steps to a point. -/
def State.stepClock (s : State) (f : Fld) (n : Nat) : State :=
  if s.fld R.pwrOp f = n then s else (s.setFld R.pwrOp f n).latch R.pwrStatus F.pwrStatus_opChg

/-- The fastest point that a rail's confirmed voltage allows for sure: the one shown, or the slower one while a change to it runs; the
slowest of all after a change that failed (R536). [DEDUCED, log entry 152] -/
def State.safePoint (s : State) (r : Nat) : Nat :=
  let v := s.rail r
  if v.ok then max (s.fld R.pwrOp (railV r)) (v.change.getD 0) else 2

/-- The clocks step to their points: to a slower one at once, to a faster one only where the rail's confirmed voltage allows it (R536,
R537). -/
def State.stepClocks (s : State) : State :=
  let go := fun (s : State) (r : Nat) (f : Fld) (n : Nat) => if s.fld R.pwrOp f ≤ n ∨ s.safePoint r ≤ n then s.stepClock f n else s
  let s := go s 0 F.pwrOp_pktF s.pktPoint
  let s := go s 1 F.pwrOp_lim0F (s.limPoint 0)
  go s 1 F.pwrOp_lim1F (s.limPoint 1)

/-- A cluster that wakes runs no faster than the confirmed voltage of its rail allows (R536, R537). [DEDUCED, log entry 152] -/
def State.slowCluster (s : State) (k : Nat) : State :=
  let f := if k = 0 then F.pwrOp_lim0F else F.pwrOp_lim1F
  s.stepClock f (max (s.fld R.pwrOp f) (s.safePoint 1))

/-- The point whose voltage a rail needs: that of the fastest cluster that is ON for VDD_LIM (R537). [DEDUCED, log entry 152] -/
def State.railPoint (s : State) (r : Nat) : Nat :=
  if r = 0 then s.pktPoint
  else
    match (List.range 2).filter (fun k => s.domOn (1 + k)) with
    | [] => s.fld R.pwrOp F.pwrOp_limV
    | l => l.foldl (fun m k => min m (s.limPoint k)) 2

/-- A rail asks for a point: the change starts, or takes the place of the pending one (R536). -/
def State.railAsk (s : State) (r n : Nat) : State :=
  let v := s.rail r
  if v.change.isNone then s.setRail r { v with change := some n }
  else if v.pending = some n ∨ (v.pending = none ∧ v.change = some n) then s
  else
    let s := if v.pending.isSome then s.count R.pwrAvsStatus F.pwrAvsStatus_opAborted else s
    s.setRail r { v with pending := some n }

/-- The rails and clocks follow the points in force; `again` also repeats a voltage that is already shown, as new points do where the last
change of the rail failed or its error still stands. [DEDUCED, log entry 152] -/
def State.followPoints (s : State) (again : Bool) : State :=
  let s := s.stepClocks
  (List.range 2).foldl (fun s r =>
    let n := s.railPoint r
    let err := s.bit R.pwrAvsStatus (if r = 0 then F.pwrAvsStatus_pktErr else F.pwrAvsStatus_limErr)
    let busy := (s.rail r).change.isSome
    if busy ∨ s.fld R.pwrOp (railV r) ≠ n ∨ (again ∧ (err ∨ !(s.rail r).ok)) then s.railAsk r n else s) s

/-- A write of PWR.OP: the requested points (R536). -/
def State.opWrite (s : State) (v : BitVec 64) : State :=
  (s.setFld R.pwrOp ⟨29, 24⟩ (bitsOf v.toNat 29 24)).followPoints true

/-- A write of PWR.DEGRADE.LEVEL (R538). -/
def State.degradeWrite (s : State) (n : Nat) : State := (s.setFld R.pwrDegrade F.pwrDegrade_level n).followPoints true

/-- An AVS error of a rail: ERR and ERRORS, a POWER record, and the faster of the two points shown (R536).
[DESIGN CHOICE, log entry 134] -/
def State.avsError (s : State) (r n : Nat) : State :=
  let s := s.latch R.pwrAvsStatus (if r = 0 then F.pwrAvsStatus_pktErr else F.pwrAvsStatus_limErr)
  let s := s.count R.pwrAvsStatus F.pwrAvsStatus_errors
  let s := s.pwrRecord (0x20 + r) (s.reg R.pwrAvsStatus)
  s.setFld R.pwrOp (railV r) (min n (s.fld R.pwrOp (railV r)))

/-- Every domain enters WAITING at the end of the start-up writes, or is refused (R545). -/
def State.wakeAll (s : State) : State :=
  let s := { s with pwr := { s.pwr with starting := false, started := List.range 30 } }
  (List.range 30).foldl (fun s d =>
    let s := s.pwrRequest 1 0x02 d
    if s.domPhase d = 0 then s.startEnded d else s) s

/-- The change of a rail ends: `mv` is the voltage read back, none where VDone did not arrive within 1 ms (R536). -/
def State.avsEnds (s : State) (r : Nat) (mv : Option Nat) : State :=
  match (s.rail r).change with
  | none => s
  | some n =>
    let s := match mv with
      | some m => s.setFld R.pwrAvsStatus (if r = 0 then F.pwrAvsStatus_pktMv else F.pwrAvsStatus_limMv) m
      | none => s
    let ok := match mv with | some m => decide (s.opVolt r n ≤ m + 10) | none => false
    let s := s.setRail r { change := (s.rail r).pending, pending := none, ok := ok }
    if s.pwr.starting then
      if ok then
        let s := s.setFld R.pwrOp (railV r) n
        if (s.rail 0).ok && (s.rail 1).ok then s.wakeAll else s
      else s.avsError r n
    else if ok then
      let was := s.fld R.pwrOp (railV r)
      let s := s.setFld R.pwrOp (railV r) n
      let s := if was = n then s else s.latch R.pwrStatus F.pwrStatus_opChg
      s.followPoints false
    else s.avsError r n

/-- The start-up writes of both rails (R545). -/
def State.startRails (s : State) : State :=
  (s.setRail 0 { change := some 0 }).setRail 1 { change := some 0 }

/-- A failed start-up write is retried: both rails are written again. -/
def State.avsRetry (s : State) : State :=
  if s.pwr.starting ∧ (s.rail 0).change.isNone ∧ (s.rail 1).change.isNone then s.startRails else s

/-! ## Wake sequence (R524, R533) -/

/-- A ready bit and the unit it belongs to (R581). -/
def readyBits : List (Nat × Nat × Fld) :=
  [(8, R.dfpStatus, F.dfpStatus_ownReady), (9, R.ubbStatus, F.ubbStatus_flowReady), (7, R.clsStatus, F.clsStatus_ready),
   (5, R.qmStatus, F.qmStatus_ready), (5, R.schStatus, F.schStatus_ready), (6, R.ciphStatus, F.ciphStatus_ready),
   (10, R.circStatus, F.circStatus_ready), (1, R.lschStatus, F.lschStatus_ready)]

/-- START acted on once its tables are ready (R163). -/
def State.startIfReady (s : State) : State := if s.enrol.startWaiting && s.startReady then s.startTerm else s

/-- The sequencer takes the lowest-numbered WAITING domain and checks it again; a domain refused is dropped. -/
def State.wakeTurn (s : State) : State :=
  if s.bit R.pwrStatus F.pwrStatus_seqBusy then s
  else
    match (List.range 30).find? (fun d => s.domPhase d == 3) with
    | none => s
    | some d =>
      match s.onRefuser d with
      | some u => (s.pwrRefuse d u).pwrSettle d
      | none => ((s.setPhase d 4).setFld R.pwrStatus F.pwrStatus_waking d).setBit R.pwrStatus F.pwrStatus_seqBusy true

/-- A domain is ON: from RETENTION with what it held and its ready bits set, from OFF at reset values; a cluster woken from OFF is
reloaded if LIM0 is ON (R525, R581). -/
def State.domainOnNow (s : State) (d : Nat) : State :=
  if s.domPhase d ≠ 4 then s
  else
    let off := s.domState d = 0
    let s := (s.setFld R.pwrStatus F.pwrStatus_waking 31).setBit R.pwrStatus F.pwrStatus_seqBusy false
    let s := s.setFld (R.pwrDom d) F.pwrDom_state 2
    let s := if off then s.clearDomain d
      else (readyBits.foldl (fun s e => if e.1 = d then s.setBit e.2.1 e.2.2 true else s) s).startIfReady
    let s := if off ∧ d = 2 ∧ s.domOn 1 then { s with lsch := { s.lsch with reload := s.lsch.reload ++ [1] } } else s
    let s := if d = 1 ∨ d = 2 then (s.slowCluster (d - 1)).followPoints true else s
    (((s.clamp d true).setPhase d 0).pwrNote d).pwrSettle d

/-- A unit has cleared its tables and sets its ready bit (R581). -/
def State.tablesCleared (s : State) (u : Nat) : State :=
  match readyBits.find? (fun e => unitOf e.2.1 == u) with
  | none => s
  | some (d, a, f) => if s.domOn d then (s.setBit a f true).startIfReady else s

/-- The switch of a domain going down opens (R528): it keeps what RETENTION keeps, or nothing. -/
def State.domainDown (s : State) (d : Nat) : State :=
  if s.domPhase d ≠ 2 then s
  else
    let s := s.setFld (R.pwrDom d) F.pwrDom_state (s.fld (R.pwrDom d) F.pwrDom_target)
    let s := (s.dropRestarts d).wentDark d
    let s := if s.domState d = 0 then s.clearDomain d else s
    let s := if d = 1 ∨ d = 2 then s.followPoints false else s
    ((s.setPhase d 0).pwrNote d).pwrSettle d

/-- 1 µs after a domain is on again the clamp releases and its pairs are sampled once more (R508): what was signalled before is
gone. [DEDUCED, log entry 154] -/
def State.clampRelease (s : State) (d : Nat) : State := if s.domOn d then s.clamp d false else s

/-! ## Forced shutdown and reset (R534, R542 to R545) -/

/-- One domain's switch opens at once. -/
def State.switchOpen (s : State) (d : Nat) : State :=
  let s := ((s.clamp d true).dropRestarts d).wentDark d
  let s := s.setReg (R.pwrDom d) (BitVec.ofNat 64 (setBitsOf (s.reg (R.pwrDom d)).toNat 11 0 0))
  { s.clearDomain d with pwr := { s.pwr with asker := Tbl.set (fun _ => 0) s.pwr.asker d 0 } }

/-- A class F of THERMAL: every domain ends OFF, in descending number; one POWER record per domain (R534). -/
def State.forcedShutdown (s : State) : State :=
  let s := (s.setFld R.pwrStatus F.pwrStatus_waking 31).setBit R.pwrStatus F.pwrStatus_seqBusy false
  let s := (List.range 30).reverse.foldl (fun s d => ((s.switchOpen d).startEnded d).pwrNote d) s
  s.setBit R.pwrStatus F.pwrStatus_thermalOff true

/-- The registers that a reset of AON spares (R542). [DEDUCED, log entry 155] -/
def State.survivors (s : State) : Tbl (BitVec 64) :=
  let keep := [R.fltStatusF, R.fltFirstInfo 2, R.fltFirstSec 2, R.fltFirstNs 2]
  let term := decide (2 ≤ s.fld R.sysTermState F.sysTermState_stopCause)
  let regs := Tbl.keep (fun a => keep.contains a || (term && a == R.sysTermState)) s.regs
  let t : State := { regs := regs }
  ((t.setBit R.wardStatus F.wardStatus_fatal (s.bit R.wardStatus F.wardStatus_fatal)).setBit R.wardStatus F.wardStatus_permanent
    (s.bit R.wardStatus F.wardStatus_permanent)).regs

/-- PORST_N low, or a chip reset: AON resets, every switched domain is OFF, Preura is reset; flash stays (R542).
[DEDUCED, log entry 155] -/
def State.aonReset (s : State) (hold : Bool) : State :=
  { pending := s.pending, free := s.free, regs := s.survivors, host := { out := s.host.out }
    preura := { flash := s.preura.flash, log := s.preura.log, logFirst := s.preura.logFirst, logNext := s.preura.logNext }
    pwr := { released := s.pwr.released, hold := hold }, tap := s.tap }

/-- VDD_AON is lost and returns: everything but flash stands at its reset value (R565). [DEDUCED, log entry 155] -/
def State.aonPowerLoss (s : State) : State :=
  { pending := s.pending, free := s.free, host := { out := s.host.out }
    preura := { flash := s.preura.flash, log := s.preura.log, logFirst := s.preura.logFirst, logNext := s.preura.logNext } }

/-- The straps are sampled and the start-up sequence begins; `cause` is what SYS.RESET_CAUSE shows (R544, R545, R550). -/
def State.release (s : State) (cause boot lead role : Nat) : State :=
  let s := s.setFld R.sysResetCause F.sysResetCause_cause cause
  let s := ((s.setFld R.sysStraps F.sysStraps_bootSrc boot).setFld R.sysStraps F.sysStraps_leadSrc lead).setFld R.sysStraps
    F.sysStraps_twinRole role
  { s with pwr := { s.pwr with porst := false, hold := false, released := true, starting := true } }.startRails

end Sys2Proof.Machine
end

