-- ==== Sys2Proof/Machine/MonOps.lean ====
section
/-!
DEFINITION. The operations of MON: selections of events (R553), counter dumps (R555 to R557) and bandwidth windows (R558).
-/

namespace Sys2Proof.Machine

/-! ## Selections (R552, R553) -/

/-- Whether the count of an event code is a number of cycles, which this model leaves free: no clock cycle passes in it but those of
the line position (log entry 6). [DESIGN CHOICE, log entries 3 and 6] -/
def cycleCode (u code : Nat) : Bool :=
  code == 4 || (decide (0xA0 ≤ u) && decide (u ≤ 0xDF) && (code == 0x10 || code == 0x13 || code == 0x14 || code == 0x15)) ||
    (decide (0x30 ≤ u) && decide (u ≤ 0x8F) && code == 0x14) || (u == 0x91 && code == 0x14) || (u == 0x95 && code == 0x13)

/-- One byte of a write to PMC_SEL: a code reserved for the unit leaves the selection in force and sets EVSEL_BAD. What a counter of
cycles holds when it stops selecting them is a free value. -/
def State.selectEvent (s : State) (u i code : Nat) : State :=
  if !eventCode u code then s.latch (R.pmcCtl u) F.pmcCtl_evselBad
  else
    let old := s.evsel u i
    let s := s.setFld (R.pmcSel u) ⟨8 * i + 7, 8 * i⟩ code
    if cycleCode u old && old != code then
      let (v, s) := s.takeFree
      s.setFld (R.pmcCnt u i) F.pmcCnt_count v.toNat
    else s

/-- A write to PMC_SEL of a unit. -/
def State.pmcSelWrite (s : State) (u : Nat) (v : BitVec 64) : State :=
  (List.range 8).foldl (fun (s : State) i => s.selectEvent u i (bitsOf v.toNat (8 * i + 7) (8 * i))) s

/-- A programmable counter as it reads now: free while it counts cycles. -/
def State.pmcShown (s : State) (u i : Nat) : BitVec 64 :=
  if cycleCode u (s.evsel u i) then BitVec.ofNat 64 ((Config.freeValue (s.free + i)).toNat % 2 ^ 48) else s.reg (R.pmcCnt u i)

/-! ## Counter dumps (R555 to R557) -/

/-- Whether a unit id is assigned (R23): whether it has a counter block. -/
def unitAssigned (u : Nat) : Bool := decide (u < 256) && (regDesc (R.pmcCtl u)).isSome

/-- COUNT as it is treated. -/
def State.dumpCount (s : State) (k : Nat) : Nat := clampN 1 64 (s.fld (R.monDumpCtl k) F.monDumpCtl_count)

/-- The assigned unit ids of an entry's range. -/
def State.dumpUnits (s : State) (k : Nat) : List Nat :=
  let first := s.fld (R.monDumpCtl k) F.monDumpCtl_first
  ((List.range (s.dumpCount k)).map (first + ·)).filter unitAssigned

/-- The record of one unit, with the state after its free values are taken. [DESIGN CHOICE, log entry 6] -/
def State.dumpRecord (s : State) (u : Nat) : List Byte × State :=
  if !s.unitOn u then (beBytes 8 (u * 2 ^ 56 + 2 ^ 55) ++ zeroBytes 80, s)
  else
    let ctl := (s.reg (R.pmcCtl u)).toNat
    let w0 := u * 2 ^ 56 + b2n (s.bit (R.pmcCtl u) F.pmcCtl_freeze) * 2 ^ 54 + bitsOf ctl 23 16
    let cnt := (List.range 8).flatMap (fun i => beBytes 8 (s.pmcShown u i).toNat)
    let cyc := Config.freeValue (s.free + 8)
    (beBytes 8 w0 ++ beBytes 8 (s.reg (R.pmcSel u)).toNat ++ beBytes 8 cyc.toNat ++ cnt, { s with free := s.free + 9 })

/-- The records of a list of units. -/
def State.dumpRecords (s : State) : List Nat → List Byte × State
  | [] => ([], s)
  | u :: t =>
    let (r, s) := s.dumpRecord u
    let (rs, s) := s.dumpRecords t
    (r ++ rs, s)

/-- An LP word (R420). -/
def lpWordOf (f c : Nat) : Nat := f % 2 ^ 43 * 2 ^ 21 + c % 2 ^ 21

/-- The packet of one dump is built in the DN pool; where no cell is free it is dropped and LOST.
[DEDUCED, log entry 65; DESIGN CHOICE, log entry 158] -/
def State.buildDump (s : State) (k f c : Nat) (late : Bool) : State :=
  let us := s.dumpUnits k
  let (body, s) := s.dumpRecords us
  let seq := Tbl.get (fun _ => 0) s.mon.seqs k
  let t := s.stamp (0x600 + s.fld (R.monDumpCtl k) F.monDumpCtl_first)
  let w0 := 2 ^ 56 + us.length * 2 ^ 48 + k * 2 ^ 44 + b2n late * 2 ^ 43 + seq % 2 ^ 32
  let bytes := beBytes 8 w0 ++ beBytes 8 (lpWordOf f c) ++ beBytes 8 t.hiWord.toNat ++ beBytes 8 t.loWord.toNat ++ body
  let s := { s with mon := { s.mon with seqs := Tbl.set (fun _ => 0) s.mon.seqs k (seq + 1) } }
  let p : Pkt := { bytes := bytes, dir := .dn, chan := 127, stamp := t, inject := true,
                   queue := s.fld (R.monDumpCtl k) F.monDumpCtl_queue }
  match s.takeCells .dn true (cellsOf bytes.length) with
  | none =>
    let s := if s.restarting Src.qm then (s.qmDrop 8).report (Lost.packet Src.qm 2 (s.lostCode Src.qm) p) else s.qmDrop 4
    s.count R.monStatus F.monStatus_lost
  | some s =>
    { s with mon := { s.mon with built := Tbl.set (fun _ => none) s.mon.built k (some p) } }

/-- The packet of an entry that is built and not yet offered. -/
def State.dumpBuilt (s : State) (k : Nat) : Option Pkt := Tbl.get (fun _ => none) s.mon.built k

/-- After a dump entry has fallen due: a one-shot entry is no longer armed, a periodic one moves on (R381). -/
def State.dumpAfter (s : State) (k f c : Nat) (late : Bool) : State :=
  let period := s.fld (R.monDumpCtl k) F.monDumpCtl_period
  if period = 0 then s.setBit (R.monDumpCtl k) F.monDumpCtl_valid false
  else if late then
    let (f', m) := futureTarget s f c period
    (s.setReg (R.monDumpLp k) (BitVec.ofNat 64 (lpWordOf f' c))).count R.monStatus F.monStatus_missed m
  else s.setReg (R.monDumpLp k) (BitVec.ofNat 64 (lpWordOf (f + period) c))

/-- A dump entry falls due. While LP_VALID = 0 nothing is built and the entry stays as it is. [DESIGN CHOICE, log entry 158] -/
def State.dumpDue (s : State) (k : Nat) : State :=
  let w := s.reg (R.monDumpLp k)
  let f := s.lpFrame w
  let c := w.toNat % 2 ^ 21
  if !s.bit (R.monDumpCtl k) F.monDumpCtl_valid then s
  else if !s.lpValid then s.count R.monStatus F.monStatus_missed
  else if !s.lpPassed f c then s
  else
    let late := s.mon.late.contains k
    let s := s.markDump k false
    let s :=
      if !s.domOn 5 then s.count R.monStatus F.monStatus_missed
      else if (s.dumpBuilt k).isSome then s.count R.monStatus F.monStatus_skipped
      else s.buildDump k f c late
    s.dumpAfter k f c late

/-- A built dump is offered to its queue under the admission test (R267); a queue that is neither a host nor a control-plane queue
is refused as out of range. [DESIGN CHOICE, log entry 158] -/
def State.dumpOffer (s : State) (k : Nat) : State :=
  match s.dumpBuilt k with
  | none => s
  | some p =>
    let s := { s with mon := { s.mon with built := Tbl.set (fun _ => none) s.mon.built k none } }
    let s := { s with qm := { s.qm with ids := s.qm.ids + 1 } }.count R.monStatus F.monStatus_dumps
    let p := { p with id := s.qm.ids }
    let refused := !qSlowRange p.queue || (s.admitCause p).isSome || s.restarting Src.qm
    let s := if qSlowRange p.queue then s.takeIn p else s.dropPkt p 1
    if refused then s.count R.monStatus F.monStatus_lost else s

/-- A write of DUMP_CTLk: with VALID the entry is armed, LATE if its target has passed. [DESIGN CHOICE, log entry 158] -/
def State.dumpCtlWrite (s : State) (k : Nat) (v : BitVec 64) : State :=
  let s := s.setReg (R.monDumpCtl k) (v &&& 0x8000FFFFFFFE3FFF)
  let s := if bitOf v.toNat 63 then { s with mon := { s.mon with seqs := Tbl.set (fun _ => 0) s.mon.seqs k 0 } } else s
  s.markDump k (s.lpValid && s.dumpPassed k)

/-! ## Bandwidth windows (R558) -/

/-- WIN_FRAMES as it is treated. -/
def State.winFrames (s : State) : Nat := clampN 1 8000 (s.fld R.monBwCfg F.monBwCfg_winFrames)

/-- The domains that are not ON now. -/
def State.darkNow (s : State) : List Nat := (List.range 30).filter (fun d => !s.domOn d)

/-- A write of BW_CFG discards the window in progress; a new one starts at the next boundary. -/
def State.bwCfgWrite (s : State) (v : BitVec 64) : State :=
  let s := s.setReg R.monBwCfg (BitVec.ofNat 64 (v.toNat % 2 ^ 14))
  { s with mon := { s.mon with rx := [], tx := [], running := false, dark := [] } }

/-- A channel's result: its sum, or ABSENT with it where its domain was not ON for the whole window; a member lane reads zero (R558).
[DEDUCED, log entry 160] -/
def State.bwWord (s : State) (t : Tbl Nat) (c d : Nat) : BitVec 64 :=
  if decide (c < 96) && s.cliMode c == 15 then 0
  else BitVec.ofNat 64 (b2n (s.mon.dark.contains d) * 2 ^ 63 + Tbl.get (fun _ => 0) t c % 2 ^ 48)

/-- The domain of a channel: the port's octet; of a plane the DFP for what it receives, the UBB for what it sends.
[DEDUCED, log entry 160] -/
def bwDomain (rx : Bool) (c : Nat) : Nat := if c < 96 then 17 + c / 8 else if rx then 8 else 9

/-- A window ends or starts at LP(F, 0, 0). [DEDUCED, log entry 160] -/
def State.bwBoundary (s : State) : State :=
  if !s.bit R.monBwCfg F.monBwCfg_en ∨ s.time.frame % s.winFrames ≠ 0 then s
  else
    let s := if !s.mon.running then s
      else
        let s' := (List.range 120).foldl (fun (a : State) c =>
          (a.setReg (R.monBwRx c) (s.bwWord s.mon.rx c (bwDomain true c))).setReg (R.monBwTx c) (s.bwWord s.mon.tx c (bwDomain false c))) s
        (s'.wrap R.monBwStatus F.monBwStatus_seq).setFld R.monBwStatus F.monBwStatus_frame s.time.frame
    { s with mon := { s.mon with rx := [], tx := [], running := true, dark := s.darkNow } }

end Sys2Proof.Machine
end

