-- ==== Sys2Proof/Machine/Boundary.lean ====
section
/-!
DEFINITION. The frame boundary LP(F, 0, 0) and all that happens at it (R126, R192, R199, R202, R215, R312, R333, R337, R398, R475,
R558), and the tick of one Gen-2 symbol.
-/

namespace Sys2Proof.Machine

/-- Permit entries of frames long past are given up: no instant of theirs can lie ahead (R140). [DEDUCED, log entry 41] -/
def State.purgePermits (s : State) : State :=
  { s with ward := { s.ward with entries := s.ward.entries.filter (fun x => !decide (x.frame + 3 ≤ s.time.frame)) } }

/-- The boundary without an aligned plane from which the flywheel counts (R196). -/
def State.flyOrigin (s : State) : State :=
  if s.alignedPlanes.isEmpty then { s with time := { s.time with fly := some (s.time.fly.getD s.time.frame) } }
  else { s with time := { s.time with fly := none } }

/-- Medium time at the boundary: 125 µs more, the anchor's estimate, the slew; after a step the gates find their place anew (R312).
[DEDUCED, log entry 53] -/
def State.timeBoundary (s : State) : State :=
  let s := { s with time := { s.time with tF := s.time.tF + frameTime } }
  let mt := s.bit R.timeStatus F.timeStatus_mtValid
  let t := s.anchorBoundary
  let stepped := !mt && t.bit R.timeStatus F.timeStatus_mtValid || t.time.tF != s.time.tF
  let t := t.slew
  let t := if stepped then t.gateResync else t
  t.tpoBoundary

/-- The line position reaches LP(F, 0, 0) of the next frame. [DEDUCED, log entries 53 and 114; DESIGN CHOICE, log entry 164] -/
def State.frameBoundary (s : State) : State :=
  if !s.lpValid then s
  else
    let s := { s with time := { s.time with frame := s.time.frame + 1, now := s.time.now + (frameSymbols - s.time.sym), sym := 0 } }
    let s := s.wardAge.latchEqd.purgePermits
    let s := (s.applyLead).retime true
    let s := s.flyOrigin.holdOrigins
    let s := s.timeBoundary.tpoFalls
    let s := s.presentNotLead
    let s := s.circBoundary s.time.frame
    let resumes := s.lsch.becoming.any (· < 16)
    let s := s.banksBecome
    (if resumes then s.baseResumes else s).bwBoundary

/-- LP_FRAME_BOUNDARY (R199). [DESIGN CHOICE, log entry 161] -/
def execLpFrameBoundary (s : State) : Host.Outcome State Fault Refusal := .next s.frameBoundary

/-- One Gen-2 symbol passes while no command waits: the counters of symbols move, but not past the end of the frame, which
LP_FRAME_BOUNDARY brings, and local time stands while PORST_N is low (R205); patterns and fill are sent, leads and lags of MBEN and
pulses begin and end, lookaside requests produce their output. [DESIGN CHOICE, log entry 1] -/
def State.tick (s : State) : State :=
  if s.lpValid && decide (frameSymbols ≤ s.time.sym + 1) then s
  else
    let s := { s with time := { s.time with
      sym := if s.lpValid then s.time.sym + 1 else s.time.sym, now := if s.pwr.porst then s.time.now else s.time.now + 1 } }
    ((List.range 24).foldl (fun s p => s.mbenTick p) s.lanesTick.tpoFalls).wardAge.presentNotLead.laTick

end Sys2Proof.Machine
end

