-- ==== Sys2Proof/Machine/Ciph.lean ====
section
/-!
DEFINITION. The meanings of the cipher unit's commands (R354, R363, R369, R372).
-/

namespace Sys2Proof.Machine

/-- CIPH_DISPATCH (R354). A free engine takes the oldest waiting request of the highest class, suspending a lookaside request if needed. -/
def execCiphDispatch (s : State) : Host.Outcome State Fault Refusal :=
  .next (s.whenUp Src.ciph (·.dispatchReq))

/-- CIPH_REQUEST_DONE (R369). A cipher request ends, returning its result or completion, and a DRAINING key half with no users is zeroised. -/
def execCiphRequestDone (engine : Fin 96) (hostError : Bool) (s : State) : Host.Outcome State Fault Refusal :=
  .next (s.reqDone engine hostError)

/-- KEY_LOAD (R363). CIPH.KEY_CTL operation LOAD copies KEY_DATA into the pending half. -/
def execKeyLoad (v : Word) (s : State) : Host.Outcome State Fault Refusal :=
  .next (s.keyCtlWrite (withOp 1 0 1 v))

/-- KEY_COMMIT (R363). CIPH.KEY_CTL operation COMMIT swaps the halves of a slot. -/
def execKeyCommit (v : Word) (s : State) : Host.Outcome State Fault Refusal :=
  .next (s.keyCtlWrite (withOp 1 0 2 v))

/-- KEY_ERASE (R363). CIPH.KEY_CTL operation ERASE empties or drains both halves of a slot. -/
def execKeyErase (v : Word) (s : State) : Host.Outcome State Fault Refusal :=
  .next (s.keyCtlWrite (withOp 1 0 3 v))

/-- KEY_OP_DONE (R363). A key operation completes within 64 cycles and KEY_CTL.STATUS leaves BUSY. -/
def execKeyOpDone (s : State) : Host.Outcome State Fault Refusal :=
  .next (s.keyOpDone)

/-- SA_READ (R372). CIPH.SA_CMD operation READ reads a MACsec port, SC or SA entry. -/
def execSaRead (v : Word) (s : State) : Host.Outcome State Fault Refusal :=
  .next (s.saCmdWrite (withOp 57 56 0 v))

/-- SA_WRITE (R372). CIPH.SA_CMD operation WRITE replaces a MACsec table entry in one step. -/
def execSaWrite (v : Word) (s : State) : Host.Outcome State Fault Refusal :=
  .next (s.saCmdWrite (withOp 57 56 1 v))

/-- SA_CMD_DONE (R372). A MACsec table command completes and STATUS leaves BUSY. -/
def execSaCmdDone (s : State) : Host.Outcome State Fault Refusal :=
  .next (s.saCmdDone)

end Sys2Proof.Machine
end

