-- ==== Sys2Proof/Machine/Circ.lean ====
section
/-!
DEFINITION. The meanings of the circuit engine's commands: table commands (R329, R349, R350), SDH receive events (R341) and DCC port
frames (R346).
-/

namespace Sys2Proof.Machine

/-- CIRC_READ (R350): a write of CIRC.CMD with OP READ. -/
def execCircRead (v : Word) (s : State) : Host.Outcome State Fault Refusal := .next (s.circCmdWrite (withOp 57 56 0 v))

/-- CIRC_WRITE (R329): a write of CIRC.CMD with OP WRITE. -/
def execCircWrite (v : Word) (s : State) : Host.Outcome State Fault Refusal := .next (s.circCmdWrite (withOp 57 56 1 v))

/-- CIRC_CMD_DONE (R349). -/
def execCircCmdDone (s : State) : Host.Outcome State Fault Refusal := .next s.circCmdDone

/-- SDH_FRAME_RX (R341). -/
def execSdhFrameRx (k : Port) (f : SdhFrame) (s : State) : Host.Outcome State Fault Refusal := .next (s.sdhArrives k f)

/-- SDH_LOS_TIMER (R341): transitions absent for 50 µs, or present for 250 µs. -/
def execSdhLosTimer (k : Port) (absent : Bool) (s : State) : Host.Outcome State Fault Refusal :=
  .next (if s.sdhLane k then s.setLaneDefect k 1 absent else s)

/-- SDH_LOF_TIMER (R341): OOF present, or absent, for 3 ms. -/
def execSdhLofTimer (k : Port) (present : Bool) (s : State) : Host.Outcome State Fault Refusal :=
  .next (if s.sdhLane k && s.laneDefect k 2 == present then s.setLaneDefect k 3 present else s)

/-- DCC_PORT_FRAME (R346). -/
def execDccPortFrame (i : Fin 12) (dataIn : List Bool) (s : State) : Host.Outcome State Fault Refusal := .next (s.dccFrame i dataIn)

end Sys2Proof.Machine
end

