-- ==== Sys2Proof/Machine/Cli.lean ====
section
/-!
DEFINITION. The meanings of the client ports' commands (R296 to R316).
-/

namespace Sys2Proof.Machine

/-- CLI_CFG_WRITE (R296). -/
def execCliCfgWrite (k : Port) (v : Word) (s : State) : Host.Outcome State Fault Refusal := .next (s.cliCfgWrite k v)

/-- LINK_UP (R298). -/
def execLinkUp (k : Port) (s : State) : Host.Outcome State Fault Refusal := .next (s.whenUp (Src.cli (k / 8)) (·.linkRises k))

/-- LINK_DOWN (R298): the link conditions, of which one fails. -/
def execLinkDown (k : Port) (localFault remoteFault blockLock amLock fecLock : Bool) (s : State) :
    Host.Outcome State Fault Refusal := .next (s.linkState k localFault remoteFault blockLock amLock fecLock)

/-- CLIENT_FRAME_RX (R299). -/
def execClientFrameRx (k : Port) (f : ClientFrame) (s : State) : Host.Outcome State Fault Refusal := .next (s.whenUp (Src.cli (k / 8)) (·.frameArrives k f))

/-- RECOV_RESET_EXPIRY (R316). [PRESUMED, log entry 75] -/
def execRecovResetExpiry (g : Fin 32) (s : State) : Host.Outcome State Fault Refusal :=
  .next (s.setRecov g { s.recov g with take := true })

/-- PAUSE_RX (R307). -/
def execPauseRx (k : Port) (time : BitVec 16) (s : State) : Host.Outcome State Fault Refusal :=
  .next (if s.portRuns k then s.pauseRx k time.toNat else s)

/-- PFC_RX (R307). -/
def execPfcRx (k : Port) (enable : BitVec 8) (times : List (BitVec 16)) (s : State) : Host.Outcome State Fault Refusal :=
  .next (if s.portRuns k then s.pfcRx k enable.toNat (times.map (·.toNat)) else s)

/-- PAUSE_TIMER_EXPIRY (R307). -/
def execPauseTimerExpiry (k : Port) (pri : Fin 8) (s : State) : Host.Outcome State Fault Refusal := .next (s.pauseExpiry k pri)

/-- FC_XOFF (R308). -/
def execFcXoff (k : Port) (s : State) : Host.Outcome State Fault Refusal := .next (s.fcXoff k)

/-- FC_XON (R308). -/
def execFcXon (k : Port) (s : State) : Host.Outcome State Fault Refusal := .next (s.fcXon k)

/-- FC_REFRESH (R308). -/
def execFcRefresh (k : Port) (s : State) : Host.Outcome State Fault Refusal := .next (s.fcRefresh k)

/-- CLIENT_FRAME_TX (R304). -/
def execClientFrameTx (k : Port) (s : State) : Host.Outcome State Fault Refusal := .next (s.clientTx k)

/-- GCL_COMMIT (R310, R311). -/
def execGclCommit (k : Port) (s : State) : Host.Outcome State Fault Refusal := .next (s.gclCommit k)

/-- GCL_CANCEL (R310). -/
def execGclCancel (k : Port) (s : State) : Host.Outcome State Fault Refusal := .next (s.gclCancel k)

/-- GCL_DISABLE (R310). -/
def execGclDisable (k : Port) (s : State) : Host.Outcome State Fault Refusal := .next (s.gclDisable k)

/-- GCL_DATA_ACCESS (R310). -/
def execGclDataAccess (k : Port) (write : Bool) (v : Word) (s : State) : Host.Outcome State Fault Refusal := .next (s.gclData k write v)

/-- GCL_START (R311). -/
def execGclStart (k : Port) (s : State) : Host.Outcome State Fault Refusal := .next (s.gclStart k)

/-- GATE_ENTRY_CHANGE (R309). -/
def execGateEntryChange (k : Port) (s : State) : Host.Outcome State Fault Refusal := .next (s.gateNext k)

end Sys2Proof.Machine
end

