-- ==== Sys2Proof/Machine/Cls.lean ====
section
/-!
DEFINITION. The meanings of the classifier's commands (R238, R250 to R254).
-/

namespace Sys2Proof.Machine

/-- PACKET_CLASSIFY (R238). -/
def execPacketClassify (dir : Dir) (pipe : Fin 8) (s : State) : Host.Outcome State Fault Refusal := .next (s.whenUp Src.cls (·.whenUp dir.src (·.packetClassify dir pipe)))

/-- CLS_READ (R252). -/
def execClsRead (v : Word) (s : State) : Host.Outcome State Fault Refusal := .next (s.clsCmdWrite (withOp 57 56 0 v))

/-- CLS_WRITE (R253). -/
def execClsWrite (v : Word) (s : State) : Host.Outcome State Fault Refusal := .next (s.clsCmdWrite (withOp 57 56 1 v))

/-- CLS_DELETE (R253). -/
def execClsDelete (v : Word) (s : State) : Host.Outcome State Fault Refusal := .next (s.clsCmdWrite (withOp 57 56 2 v))

/-- CLS_FIND (R252). -/
def execClsFind (v : Word) (s : State) : Host.Outcome State Fault Refusal := .next (s.clsCmdWrite (withOp 57 56 3 v))

/-- CLS_CMD_DONE (R252). -/
def execClsCmdDone (s : State) : Host.Outcome State Fault Refusal := .next s.clsCmdDone

/-- ED_OPEN (R250). -/
def execEdOpen (s : State) : Host.Outcome State Fault Refusal := .next s.edOpen

/-- ED_COMMIT (R250). -/
def execEdCommit (s : State) : Host.Outcome State Fault Refusal := .next s.edCommit

/-- ED_ABANDON (R250). -/
def execEdAbandon (s : State) : Host.Outcome State Fault Refusal := .next s.edAbandon

/-- SWEEP_DONE (R250, R254). -/
def execSweepDone (s : State) : Host.Outcome State Fault Refusal := .next s.sweepDone

/-- EDITION_RETIRE (R251): no packet tagged with the older edition remains in classification. -/
def execEditionRetire (s : State) : Host.Outcome State Fault Refusal :=
  .next (s.setBit R.clsEdStatus F.clsEdStatus_oldLive false)

/-- TABLE_MODE_WRITE (R254). -/
def execTableModeWrite (v : Word) (s : State) : Host.Outcome State Fault Refusal := .next (s.tableModeWrite v)

end Sys2Proof.Machine
end

