-- ==== Sys2Proof/Machine/Dfp.lean ====
section
/-!
DEFINITION. The meanings of the downstream frame processor's commands (R42, R78, R84, R87, R93, R98, R100, R95, R111).
-/

namespace Sys2Proof.Machine

/-- CODEWORD_RX (R42). -/
def execCodewordRx (p : Plane) (slot at_ : Nat) (levels : List Nat) (s : State) : Host.Outcome State Fault Refusal :=
  .next (s.whenUp Src.dfp (·.whenUp (Src.med (p / 4)) (·.codeword p slot at_ levels)))

/-- FRAME_ALIGN (R78). -/
def execFrameAlign (p : Plane) (offset : Int) (s : State) : Host.Outcome State Fault Refusal :=
  .next (s.whenUp Src.dfp (·.whenUp (Src.med (p / 4)) (·.frameAlign p offset)))

/-- GRANT_AREA (R84). -/
def execGrantArea (p : Plane) (s : State) : Host.Outcome State Fault Refusal := .next (s.grantArea p)

/-- MESSAGE_RX (R87). [DEDUCED, log entry 126] -/
def execMessageRx (p : Plane) (s : State) : Host.Outcome State Fault Refusal := .next (s.messageRx p)

/-- PARCEL_RX (R93). -/
def execParcelRx (p : Plane) (s : State) : Host.Outcome State Fault Refusal := .next (s.parcelRx p)

/-- PARCEL_OPEN_DONE (R98). -/
def execParcelOpenDone (p : Plane) (s : State) : Host.Outcome State Fault Refusal := .next (s.parcelOpened p)

/-- RSQ_TIMER_EXPIRY (R100). [DEDUCED, log entry 32] -/
def execRsqTimerExpiry (flow : Fin 1048576) (s : State) : Host.Outcome State Fault Refusal := .next (s.rsqRelease flow)

/-- A write to DFP.OWN_WRITE: the entry stored in one step, or discarded before OWN_READY. -/
def State.ownWrite (s : State) (v : Word) : State :=
  if s.bit R.dfpStatus F.dfpStatus_ownReady then
    let s := s.setReg R.dfpOwnWrite (BitVec.ofNat 64 (v.toNat % 2 ^ 52))
    let e := BitVec.ofNat 32 (v.toNat &&& 0xF8FFF000)
    { s with dfp := { s.dfp with own := Tbl.set (fun _ => 0) s.dfp.own (bitsOf v.toNat 51 32) e } }
  else s.latch R.dfpStatus F.dfpStatus_ownLost

/-- OWN_WRITE (R95). -/
def execOwnWrite (v : Word) (s : State) : Host.Outcome State Fault Refusal := .next (s.ownWrite v)

/-- A write of DFP.OWN_PROBE.INDEX loads ENTRY. [DEDUCED, log entry 34] -/
def State.ownProbe (s : State) (v : Word) : State :=
  let i := bitsOf v.toNat 51 32
  s.setReg R.dfpOwnProbe (BitVec.ofNat 64 (i * 2 ^ 32 + (s.own i).toNat))

/-- OWN_PROBE (R111). -/
def execOwnProbe (v : Word) (s : State) : Host.Outcome State Fault Refusal := .next (s.ownProbe v)

end Sys2Proof.Machine
end

