-- ==== Sys2Proof/Machine/Lsch.lean ====
section
/-!
DEFINITION. The meanings of the commands of LSCH and the latch bank (R381 to R402).
-/

namespace Sys2Proof.Machine

/-- ALARM_DUE (R381). An alarm reaches its target line position, fires its node and advances if periodic. -/
def execAlarmDue (i : Fin 4096) (s : State) : Host.Outcome State Fault Refusal :=
  .next (s.alarmDue i)

/-- EVENT_RAISE (R382). An event source is raised and fires its bound node, or is counted when unbound. -/
def execEventRaise (src : Nat) (s : State) : Host.Outcome State Fault Refusal :=
  .next (s.eventRaise src)

/-- CLAUSE_DISPATCH (R384). LSCH dispatches a ready firing to a free context of its section, loading g1 to g6, evicting a lower-priority clause if needed. -/
def execClauseDispatch (s : State) : Host.Outcome State Fault Refusal :=
  .next (s.clauseDispatch)

/-- CLAUSE_RESUME (R385). An evicted clause resumes on its core when a context is free and no higher firing waits. -/
def execClauseResume (c : CoreId) (s : State) : Host.Outcome State Fault Refusal :=
  .next (s.clauseResume c)

/-- RUN_LIMIT (R386). A clause in service longer than RUN_LIMIT ends FAULTED. -/
def execRunLimit (c : CoreId) (x : CtxId) (s : State) : Host.Outcome State Fault Refusal :=
  .next (s.runLimit c x)

/-- LATCH_GRANT (R388). A waiting ACQ is granted a released latch in priority and arrival order. -/
def execLatchGrant (n : Fin 1024) (s : State) : Host.Outcome State Fault Refusal :=
  .next (s.latchGrant n)

/-- DEADLOCK_DETECT (R389). The wait-for detector finds a cycle and fails the youngest acquisition with DEADLOCK. -/
def execDeadlockDetect (s : State) : Host.Outcome State Fault Refusal :=
  .next (s.deadlockDetect)

/-- LSCH_READ (R402). LSCH.CMD operation READ reads a node, alarm or binding entry. -/
def execLschRead (v : Word) (s : State) : Host.Outcome State Fault Refusal :=
  .next (s.lschCmdWrite (withOp 57 56 0 v))

/-- LSCH_WRITE (R402). LSCH.CMD operation WRITE replaces a node, alarm or binding entry, refusing as NODE_BUSY or BAD_NODE. -/
def execLschWrite (v : Word) (s : State) : Host.Outcome State Fault Refusal :=
  .next (s.lschCmdWrite (withOp 57 56 1 v))

/-- LSCH_CMD_DONE (R402). An LSCH table command completes and STATUS leaves BUSY. -/
def execLschCmdDone (s : State) : Host.Outcome State Fault Refusal :=
  .next (s.lschCmdDone)

/-- LSCH_LOAD (R395). LSCH.LOAD_CTL operation LOAD starts the loader on the image at IMG_ADDR. -/
def execLschLoad (v : Word) (s : State) : Host.Outcome State Fault Refusal :=
  .next (s.lschLoad (withOp 1 0 1 v))

/-- LOAD_DONE (R395). The loader ends DONE, BAD_IMAGE, BANK_BUSY or NO_AREA after writing standby banks. -/
def execLoadDone (s : State) : Host.Outcome State Fault Refusal :=
  .next (s.loadDone)

/-- SWAP_ARM (R396). LSCH.SWAP_CTL operation ARM arms a swap at a target line position or refuses it. -/
def execSwapArm (v : Word) (s : State) : Host.Outcome State Fault Refusal :=
  .next (s.swapCtlWrite (withOp 1 0 1 v))

/-- SWAP_CANCEL (R396). LSCH.SWAP_CTL operation CANCEL disarms an armed swap. -/
def execSwapCancel (s : State) : Host.Outcome State Fault Refusal :=
  .next (s.swapCtlWrite (s.reg R.lschSwapCtl &&& 0x1FFFFF00000000#64 ||| 2))

/-- SWAP_TARGET (R396). At the swap target every core of the image makes its standby bank active and a swap record goes to Preura. -/
def execSwapTarget (s : State) : Host.Outcome State Fault Refusal :=
  .next (s.swapTarget)

/-- HBM_AREA_WRITE (R377). A write to LSCH.HBM_AREA reserves the program area or is refused with AREA_REFUSED. -/
def execHbmAreaWrite (v : Word) (s : State) : Host.Outcome State Fault Refusal :=
  .next (s.hbmAreaWrite v)

/-- SWAP_BUFFER_DRAIN (R385). An evicted context finishes draining from the core's swap buffer to the cluster's save store, and the core may again be chosen for eviction. -/
def execSwapBufferDrain (c : CoreId) (s : State) : Host.Outcome State Fault Refusal :=
  .next (s.swapDrain c)

/-- CB_READY (R28). A command block becomes ready at its target line position, or at once when IMMEDIATE or late, and is dispatched or ends REFUSED with NO_SECTION. -/
def execCbReady (slot : Fin 256) (s : State) : Host.Outcome State Fault Refusal :=
  .next (s.cbReady slot)

end Sys2Proof.Machine
end

