-- ==== Sys2Proof/Machine/Mon.lean ====
section
/-!
DEFINITION. The meanings of the commands of MON and of the counter blocks (R553 to R558).
-/

namespace Sys2Proof.Machine

/-- PMC_SEL_WRITE (R553). -/
def execPmcSelWrite (u : Fin 256) (v : Word) (s : State) : Host.Outcome State Fault Refusal :=
  .next (if unitAssigned u && s.unitOn u then s.pmcSelWrite u v else s)

/-- DUMP_DUE (R555). -/
def execDumpDue (k : Fin 16) (s : State) : Host.Outcome State Fault Refusal := .next (s.dumpDue k)

/-- DUMP_OFFER (R556). -/
def execDumpOffer (k : Fin 16) (s : State) : Host.Outcome State Fault Refusal := .next (s.dumpOffer k)

/-- BW_CFG_WRITE (R558). -/
def execBwCfgWrite (v : Word) (s : State) : Host.Outcome State Fault Refusal := .next (s.bwCfgWrite v)

end Sys2Proof.Machine
end

