-- ==== Sys2Proof/Machine/PreuraOps.lean ====
section
/-!
DEFINITION. Preura's operations: its event log (R489 to R491), boot and slots (R485 to R487), sensors and the degradation level
(R488, R572), the sentinel and the reset of Preura alone (R501, R502), the mailbox (R498 to R500), the optical-engine buses (R503)
and the COMMAND space (R497).
-/

namespace Sys2Proof.Machine

/-! ## State of Preura -/

/-- MBOX.STATUS.STATE: 0 ROM, 1 FIRMWARE, 2 DOWNLOAD, 3 STOPPED, 4 RESETTING. -/
def State.preuraState (s : State) : Nat := s.fld R.mboxStatus F.mboxStatus_state
def State.setPreura (s : State) (n : Nat) : State :=
  (s.setFld R.mboxStatus F.mboxStatus_state n).setBit R.mboxStatus F.mboxStatus_preuraUp (n == 1)

/-- Whether firmware runs. -/
def State.firmware (s : State) : Bool := s.preuraState == 1

/-! ## The event log (R489 to R491) -/

/-- An entry waits for flash, or is dropped where 1,024 wait. -/
def State.logPut (s : State) (typ detail : Nat) (t : Stamp) (data : List (BitVec 64)) : State :=
  if s.preura.logQueue.length < 1024 then
    { s with preura := { s.preura with logQueue := s.preura.logQueue ++ [⟨typ, detail, { t with src := 2 }, data⟩] } }
  else { s with preura := { s.preura with logDropped := s.preura.logDropped + 1 } }

/-- An entry with the stamp of now. -/
def State.logNow (s : State) (typ detail : Nat) (data : List (BitVec 64)) : State := s.logPut typ detail (s.stamp 2) data

/-- Bytes of words, most significant first, and back. -/
def bytesOf (l : List (BitVec 64)) : List Byte := l.flatMap (fun w => beBytes 8 w.toNat)
def wordsOf (n : Nat) (l : List Byte) : List (BitVec 64) :=
  (List.range n).map (fun k => BitVec.ofNat 64 (beNat (takePad 8 (l.drop (8 * k)))))

/-- The eight words of an entry, committed. -/
def LogEntry.words (e : LogEntry) (index : Nat) : List (BitVec 64) :=
  let d := fun (k : Nat) => e.data.getD k 0
  let w := [BitVec.ofNat 64 (index % 2 ^ 32 * 2 ^ 32 + e.typ % 2 ^ 16 * 2 ^ 16 + e.detail % 2 ^ 16), e.stamp.hiWord, e.stamp.loWord, d 0, d 1, d 2, d 3]
  w ++ [BitVec.ofNat 64 (crc32 (bitsOfBytes (bytesOf w)) * 2 ^ 32)]

/-- Sectors of the log, of 1,024 entries each (R486). -/
def logSectors : Nat := 16 * (min (clampN 4 256 Config.flashMib - 2) 32)

/-- Records of PWR are taken as POWER entries (R532). -/
def State.takePower (s : State) : State :=
  let l := s.pwr.log
  l.foldl (fun s r => s.logPut 3 r.1 r.2.2 [r.2.1]) { s with pwr := { s.pwr with log := [] } }

/-- The oldest waiting entry is written and committed; before the first entry of a sector the oldest sector is erased, so that one
erased sector stays ahead. A LOST entry follows when entries were dropped. [DEDUCED, log entry 139; DESIGN CHOICE, log entry 141] -/
def State.logWrite (s : State) : State :=
  if !s.firmware || s.bit R.mboxStatus F.mboxStatus_sealed then s
  else
    let s := s.takePower
    match s.preura.logQueue with
    | [] => s
    | e :: rest =>
      let n := s.preura.logNext
      let old := decide (n % 1024 = 0) && decide ((logSectors - 1) * 1024 ≤ n - s.preura.logFirst)
      let first := if old then s.preura.logFirst + 1024 else s.preura.logFirst
      let log := (Tbl.keep (fun i => decide (first ≤ i)) s.preura.log)
      let lost := s.preura.logDropped
      let s := { s with preura := { s.preura with
        logQueue := rest, logFirst := first, logNext := n + 1, logDropped := 0, log := Tbl.set (fun _ => []) log n (e.words n) } }
      if lost = 0 then s else s.logNow 0x0B 0 [BitVec.ofNat 64 lost]

/-! ## Messages from Preura (R498, R499) -/

/-- Preura posts a message: it waits for the FROM slot; of more than 16 held behind a full slot the oldest is dropped and logged as
LOST. -/
def State.fromPut (s : State) (m : MboxMsg) : State :=
  let l := s.preura.outbox ++ [m]
  let most := if s.bit R.mboxFromCtl F.mboxFromCtl_full then 16 else 17
  if most < l.length then ({ s with preura := { s.preura with outbox := l.drop 1 } }).logNow 0x0B 0 [1]
  else { s with preura := { s.preura with outbox := l } }

/-- The oldest waiting message enters the FROM slot and the mailbox event is raised. -/
def State.mboxPost (s : State) : State :=
  if s.preuraState = 3 ∨ s.bit R.mboxFromCtl F.mboxFromCtl_full then s
  else
    match s.preura.outbox with
    | [] => s
    | m :: rest =>
      let s := { s with preura := { s.preura with outbox := rest } }
      let n := min 256 m.body.length
      let s := ((wordsOf 32 (takePad 256 m.body)).foldl (fun (a : State × Nat) w => (a.1.setReg (R.mboxFromData a.2) w, a.2 + 1)) (s, 0)).1
      (s.setReg R.mboxFromCtl (BitVec.ofNat 64 (m.tag % 2 ^ 16 * 2 ^ 48 + m.kind % 256 * 2 ^ 40 + n * 2 ^ 31 + 1))).edge (32 * 0x9D + 1)

/-- A write of FROM_CTL with DONE (R498). -/
def State.mboxDone (s : State) (v : BitVec 64) : State :=
  if bitOf v.toNat 1 then s.setFld R.mboxFromCtl F.mboxFromCtl_full 0 else s

/-- A write of TO_CTL: the message is posted, or refused while the slot is full; a write without SEND sets the fields alone. -/
def State.mboxSend (s : State) (v : BitVec 64) : State :=
  if s.bit R.mboxToCtl F.mboxToCtl_full then
    (if bitOf v.toNat 1 then s.latch R.mboxStatus F.mboxStatus_toRefused
     else s.setReg R.mboxToCtl (BitVec.ofNat 64 (bitsOf v.toNat 63 31 * 2 ^ 31 + 1)))
  else s.setReg R.mboxToCtl (BitVec.ofNat 64 (bitsOf v.toNat 63 31 * 2 ^ 31 + b2n (bitOf v.toNat 1)))

/-- A write of TO_DATAk: discarded while the slot is full. -/
def State.toDataWrite (s : State) (k : Nat) (v : BitVec 64) : State :=
  if s.bit R.mboxToCtl F.mboxToCtl_full then s.latch R.mboxStatus F.mboxStatus_toRefused else s.setReg (R.mboxToData k) v

/-- Preura takes the message in the TO slot; one of a type it does not know is answered at once. -/
def State.mboxTake (s : State) : State :=
  if !s.firmware || !s.bit R.mboxToCtl F.mboxToCtl_full then s
  else
    let n := min 256 (s.fld R.mboxToCtl F.mboxToCtl_length)
    let m : MboxMsg := ⟨s.fld R.mboxToCtl F.mboxToCtl_tag, s.fld R.mboxToCtl F.mboxToCtl_type,
      (bytesOf ((List.range 32).map (fun k => s.reg (R.mboxToData k)))).take n⟩
    let s := s.setFld R.mboxToCtl F.mboxToCtl_full 0
    if m.kind = 1 ∨ m.kind = 2 ∨ m.kind = 3 then { s with preura := { s.preura with inbox := s.preura.inbox ++ [m] } }
    else s.fromPut ⟨m.tag, 0xFF, [BitVec.ofNat 8 m.kind]⟩

/-- Serve the oldest taken message of a type. -/
def State.serveMsg (s : State) (kind : Nat) (f : State → MboxMsg → State) : State :=
  if !s.firmware then s
  else
    match takeFirst (fun (m : MboxMsg) => m.kind == kind) s.preura.inbox with
    | none => s
    | some (m, rest) => f { s with preura := { s.preura with inbox := rest } } m

/-- A LOG message: up to 32 bytes in a PROGRAM entry. -/
def State.serveLog (s : State) (m : MboxMsg) : State :=
  if 32 < m.body.length then s.fromPut ⟨m.tag, 0xFF, [0x01]⟩ else s.logNow 8 0 (wordsOf 4 (takePad 32 m.body))

/-- A RELAY_TO_BOARD message: its body in BOARD_IN. -/
def State.serveBoard (s : State) (m : MboxMsg) : State :=
  { s with preura := { s.preura with boardIn := m.body, boardLen := m.body.length } }

/-! ## Optical-engine buses (R503) -/

def State.busQueue (s : State) (q : Nat) : List MboxMsg := Tbl.get (fun _ => []) s.preura.transfers q
def State.setBus (s : State) (q : Nat) (l : List MboxMsg) : State :=
  { s with preura := { s.preura with transfers := Tbl.set (fun _ => []) s.preura.transfers q l } }

/-- Whether an OE_XFER is well formed. -/
def oeOk (b : List Byte) : Bool :=
  let n := fun (k : Nat) => (b.getD k 0).toNat
  decide (4 ≤ b.length) && decide (n 0 < 6) && decide (n 1 < 128) && decide (n 2 ≤ 248) && decide (n 3 ≤ 252) && decide (4 + n 2 ≤ b.length)

/-- An OE_XFER message joins its bus, or ends BAD_REQ. [DEDUCED, log entry 138] -/
def State.serveXfer (s : State) (m : MboxMsg) : State :=
  if oeOk m.body then
    let q := (m.body.getD 0 0).toNat
    s.setBus q (s.busQueue q ++ [m])
  else s.fromPut ⟨m.tag, 0x81, [4]⟩

/-- The transfer at the head of a bus ends with a status and the bytes read. [DEDUCED, log entry 138] -/
def State.xferEnds (s : State) (q status : Nat) (data : List Byte) : State :=
  match s.busQueue q with
  | [] => s
  | m :: rest =>
    let n := (m.body.getD 3 0).toNat
    (s.setBus q rest).fromPut ⟨m.tag, 0x81, BitVec.ofNat 8 status :: (if status = 0 then takePad n data else [])⟩

/-- An engine's alarm: its alarm bytes are logged and posted. -/
def State.oeAlarm (s : State) (q : Nat) (data : List Byte) : State :=
  if !s.firmware then s
  else (s.logNow 0x0A q (wordsOf 4 (takePad 32 data))).fromPut ⟨0, 0x85, BitVec.ofNat 8 q :: data.take 32⟩

/-- A bus held low for 25 ms: the transfer ends BUS_STUCK, logged as OPTICAL. -/
def State.busStuck (s : State) (q : Nat) : State :=
  if !s.firmware then s else (s.xferEnds q 3 []).logNow 0x0A q []

/-! ## The sentinel and the reset of Preura alone (R501, R502) -/

/-- A trip: Preura is held stopped, class D on PREURA, the event, the log sealed, the cause recorded. -/
def State.sentinelTrip (s : State) (cause : Nat) : State :=
  if s.preuraState = 3 ∨ s.preuraState = 4 then s
  else
    let s := (s.setPreura 3).setBit R.mboxStatus F.mboxStatus_sealed true
    let s := (s.setFld R.mboxSentinel F.mboxSentinel_cause cause).count R.mboxStatus F.mboxStatus_trips
    let s := if s.domOn 0 then s.gateEvent 6 else s
    s.signal Src.preura 2 (faultCode Src.preura (if cause = 4 then 0 else 4))

/-- A write of KICK: alternately 0x5 and 0xA, the first of the two free. [DEDUCED, log entry 137] -/
def State.kickWrite (s : State) (v : Nat) : State :=
  if s.preuraState = 3 ∨ s.preuraState = 4 then s
  else if (v = 5 ∨ v = 0xA) ∧ v ≠ s.preura.kick then { s with preura := { s.preura with kick := v } }
  else s.sentinelTrip 2

/-- A reset of Preura alone: SRAM cleared, a TO message lost, the FROM message and the swap records kept. -/
def State.preuraReset (s : State) : State :=
  if s.preuraState = 4 then s
  else
    let s := s.latchIf (s.bit R.mboxToCtl F.mboxToCtl_full) R.mboxStatus F.mboxStatus_toLost
    let s := (s.setFld R.mboxToCtl F.mboxToCtl_full 0).count R.mboxStatus F.mboxStatus_resets
    let s := (s.setFld R.mboxSentinel F.mboxSentinel_timeoutMs 1000).setFld R.fltRestarting ⟨0, 0⟩ 0
    let p := s.preura
    { s.setPreura 4 with preura := { flash := p.flash, log := p.log, logFirst := p.logFirst, logNext := p.logNext, mpAddr := p.mpAddr,
                                     mpErr := p.mpErr, mpReady := p.mpReady, mpRead := p.mpRead, mpOut := p.mpOut, swaps := p.swaps } }

/-- A write of MBOX.PREURA_CTL. -/
def State.preuraCtl (s : State) (v : BitVec 64) : State := if bitOf v.toNat 0 then s.preuraReset else s

/-! ## Flash slots (R486, R487) -/

/-- What an unlisted word of flash reads as: erased. [DEDUCED, log entry 139] -/
def flashDefault : Nat → BitVec 64 := fun _ => BitVec.allOnes 64
def State.flashWord (s : State) (slot w : Nat) : Nat := (Tbl.get flashDefault s.preura.flash (131072 * slot + w)).toNat
def State.setFlash (s : State) (slot w v : Nat) : State :=
  { s with preura := { s.preura with flash := Tbl.set flashDefault s.preura.flash (131072 * slot + w) (BitVec.ofNat 64 v) } }

/-- The CRC of the first `n` bytes of the words that `f` gives. -/
def imageCrc (f : Nat → Nat) (n : Nat) : Nat := crc32 ((List.range (n / 8)).flatMap (fun k => bitsMsb 64 (f k)))

def State.slotGen (s : State) (k : Nat) : Nat := bitsOf (s.flashWord k 1) 63 32
def State.slotCommit (s : State) (k : Nat) : Bool := bitsOf (s.flashWord k 4) 31 24 == 0
def State.slotTried (s : State) (k : Nat) : Bool := bitsOf (s.flashWord k 4) 23 16 != 0xFF
def State.slotConfirm (s : State) (k : Nat) : Bool := bitsOf (s.flashWord k 4) 15 8 == 0

/-- HDR_CRC of a slot's words 0 to 3. -/
def State.headerCrc (s : State) (k : Nat) : Nat := crc32 ((List.range 4).flatMap (fun w => bitsMsb 64 (s.flashWord k w)))

/-- Whether a slot is a candidate whose image is whole. [DEDUCED, log entry 139] -/
def State.slotRuns (s : State) (k : Nat) : Bool :=
  let len := bitsOf (s.flashWord k 1) 31 0
  s.flashWord k 0 == 0x4B5A505200000001 && bitsOf (s.flashWord k 4) 63 32 == s.headerCrc k && s.slotCommit k &&
    !(s.slotTried k && !s.slotConfirm k) && imageCrc (fun w => s.flashWord k (512 + w)) len == bitsOf (s.flashWord k 2) 63 32

/-- FW_INFO (R497). -/
def State.fwInfo (s : State) : Nat :=
  let fl := fun (k : Nat) => 2 * b2n (s.slotCommit k) + b2n (s.slotConfirm k)
  fl 0 * 2 ^ 62 + fl 1 * 2 ^ 60 + bitsOf (s.flashWord s.preura.slot 3) 31 0

/-- A change of slot state is posted as UPDATE. -/
def State.postUpdate (s : State) : State := s.fromPut ⟨0, 0x84, beBytes 8 s.fwInfo⟩

/-- An image starts: FIRMWARE, its sentinel timeout, the seal lifted, BOOT logged (DETAIL: slot, and 2 for a trial).
[DESIGN CHOICE, log entry 134] -/
def State.startImage (s : State) (slot : Nat) (trial : Bool) (ms : Nat) : State :=
  let s := ((s.setPreura 1).setBit R.mboxStatus F.mboxStatus_sealed false).setFld R.mboxSentinel F.mboxSentinel_timeoutMs (clampN 10 1000 ms)
  ({ s with preura := { s.preura with slot := slot, trial := trial, kick := 0 } }).logNow 1 (slot + 2 * b2n trial)
    [BitVec.ofNat 64 (s.fld R.mboxSentinel F.mboxSentinel_cause)]

/-- DOWNLOAD: STAGE is SRAM, empty and open at offset 0 (R485, R494). [DEDUCED, log entry 131] -/
def State.download (s : State) : State :=
  let s := s.setPreura 2
  { s with preura := { s.preura with sram := [], stageOpen := true, stageOff := 0 } }

/-- The boot ROM (R485, R487). -/
def State.preuraBoot (s : State) : State :=
  if s.pwr.porst ∨ ¬ (s.preuraState = 0 ∨ s.preuraState = 4) then s
  else if s.bit R.sysStraps F.sysStraps_bootSrc then s.download
  else
    let order := if s.slotGen 0 < s.slotGen 1 then [1, 0] else [0, 1]
    match order.find? s.slotRuns with
    | none => s.download
    | some k =>
      let trial := !s.slotConfirm k
      let s := if trial then s.setFlash k 4 (setBitsOf (s.flashWord k 4) 23 16 0) else s
      s.startImage k trial (bitsOf (s.flashWord k 2) 31 16)

/-- The firmware accepts itself: CONFIRM is set and the trial ends. -/
def State.slotConfirmNow (s : State) : State :=
  if !s.firmware || !s.preura.trial then s
  else
    let k := s.preura.slot
    let s := s.setFlash k 4 (setBitsOf (s.flashWord k 4) 15 8 0)
    ({ s with preura := { s.preura with trial := false } }.logNow 6 k []).postUpdate

/-! ## Sensors (R488) and the degradation level (R572) -/

/-- Whether a sensor's domain is on: sensors 0 to 23 are thermal, 24 to 54 voltage. [DEDUCED, log entry 135] -/
def State.sensorOn (s : State) (n : Nat) : Bool :=
  if n < 8 then s.domOn 5 || s.domOn 7 || s.domOn 8 || s.domOn 9
  else if n < 10 then s.domOn (n - 7)
  else if n < 12 then s.domOn (n - 7)
  else if n < 18 then s.domOn (n - 1)
  else if n < 22 then (List.range 3).any (fun i => s.domOn (17 + 3 * (n - 18) + i))
  else if n = 22 then s.domOn 6
  else true

/-- A sample: it joins the average, and 115 °C trips in hardware. [DEDUCED, log entry 135] -/
def State.sensorSample (s : State) (n : Nat) (v : BitVec 16) : State :=
  if !s.sensorOn n then s
  else
    let x := sext 16 v.toNat
    let a := Tbl.get (fun _ => ((0 : Int), 0)) s.preura.samples n
    let s := { s with preura := { s.preura with samples := Tbl.set (fun _ => (0, 0)) s.preura.samples n (a.1 + x, a.2 + 1) } }
    if n < 24 ∧ 920 ≤ x then s.signal Src.thermal 3 (faultCode Src.thermal 5) else s

/-- The reading of a sensor at a publication: its average, else the last one. [DEDUCED, log entry 135] -/
def State.sensorRead (s : State) (n : Nat) : Int :=
  let a := Tbl.get (fun _ => ((0 : Int), 0)) s.preura.samples n
  if !s.sensorOn n then -32768
  else if a.2 = 0 then Tbl.get (fun _ => -32768) s.preura.readings n
  else a.1 / (a.2 : Int)

/-- Place a reading in its field of TEMPn or VOLTn. -/
def State.showReading (s : State) (n : Nat) (x : Int) : State :=
  let (a, i) := if n < 24 then (R.mboxTemp (n / 4), n % 4) else (R.mboxVolt ((n - 24) / 4), (n - 24) % 4)
  s.setFld a ⟨63 - 16 * i, 48 - 16 * i⟩ (toTwos 16 x)

/-- A publication (R488). [DEDUCED, log entry 135] -/
def State.sensorPublish (s : State) : State :=
  if !s.firmware then s
  else
    let r := (List.range 55).map (fun n => (n, s.sensorRead n))
    let s := r.foldl (fun s e => s.showReading e.1 e.2) s
    let s := { s with preura := { s.preura with samples := [], readings := r.foldl (fun (t : Tbl Int) (e : Nat × Int) => Tbl.set (fun _ => -32768) t e.1 e.2) [] } }
    s.setReg R.mboxSenseStamp (s.stamp 2).short

/-- The last readings of the thermal sensors that were on. -/
def State.temps (s : State) : List Int :=
  ((List.range 24).map (fun n => Tbl.get (fun _ => -32768) s.preura.readings n)).filter (· != -32768)

/-- Preura changes the degradation level: logged and posted as THERMAL. -/
def State.degradeTo (s : State) (n : Nat) : State :=
  ((s.degradeWrite n).logNow 4 n [BitVec.ofNat 64 n]).fromPut ⟨0, 0x83, [BitVec.ofNat 8 n]⟩

/-- A publication at 105 °C or above raises the level. [DEDUCED, log entry 136] -/
def State.degradeRaise (s : State) : State :=
  let n := s.fld R.pwrDegrade F.pwrDegrade_level
  if s.firmware && s.temps.any (fun x => decide (840 ≤ x)) && decide (n < 3) then s.degradeTo (n + 1) else s

/-- Every sensor at 100 °C or below for 1 s lowers it. [DEDUCED, log entry 136] -/
def State.degradeLower (s : State) : State :=
  let n := s.fld R.pwrDegrade F.pwrDegrade_level
  if s.firmware && s.temps.all (fun x => decide (x ≤ 800)) && decide (0 < n) then s.degradeTo (n - 1) else s

/-- The stamp that words 2 and 3 of a swap record hold (R206, R396). -/
def swapStamp (r : List (BitVec 64)) : Stamp :=
  let w := (r.getD 3 0).toNat
  { sec := (r.getD 2 0).toNat, ns := bitsOf w 63 32, frac := bitsOf w 31 16, src := bitsOf w 15 0 }

/-- Preura logs the oldest swap record, under its own stamp, and removes it (R500). [DESIGN CHOICE, log entry 134] -/
def State.swapPop (s : State) : State :=
  if !s.firmware then s
  else
    match s.preura.swaps with
    | [] => s
    | r :: rest => ({ s with preura := { s.preura with swaps := rest } }).logPut 5 0 (swapStamp r) [r.getD 0 0, r.getD 1 0, r.getD 4 0]

/-! ## COMMAND space (R497) -/

/-- The slot that is not running. -/
def State.idleSlot (s : State) : Nat := 1 - s.preura.slot

/-- A command begins: BUSY until COMMAND_DONE shows its result. -/
def State.cmdBegin (s : State) (op result detail : Nat) : State :=
  { s with preura := { s.preura with cmdOp := op, cmdBusy := true, cmdResult := result, cmdDetail := detail } }

/-- STAGE_OPEN: the idle slot is erased and STAGE opens at offset 0; in DOWNLOAD STAGE is SRAM. [DEDUCED, log entry 131] -/
def State.stageOpen (s : State) (_arg : Nat) : State :=
  let s := s.cmdBegin 1 0 0
  if s.preuraState = 2 then { s with preura := { s.preura with sram := [], stageOpen := true, stageOff := 0 } }
  else
    let k := s.idleSlot
    let flash := Tbl.keep (fun a => !(decide (131072 * k ≤ a) && decide (a < 131072 * (k + 1)))) s.preura.flash
    ({ s with preura := { s.preura with flash := flash, stageOpen := true, stageOff := 0 } }.logNow 6 k [1]).postUpdate

/-- Whether a LENGTH lies within the limits of R487. [DEDUCED, log entry 140] -/
def lengthOk (n : Nat) : Bool := n % 8 == 0 && decide (1024 ≤ n) && decide (n ≤ 458752)

/-- STAGE_COMMIT: the image read back is checked against the CRC of what was written; header words, then COMMIT. VERSION comes from no
source that the spec names (a free value). [DEDUCED, log entries 131 and 140; DESIGN CHOICE, log entry 133] -/
def State.stageCommit (s : State) (arg : Nat) : State :=
  let len := bitsOf arg 31 0
  let k := s.idleSlot
  if s.preuraState = 2 ∨ !s.preura.stageOpen then s.cmdBegin 2 2 0
  else if !lengthOk len ∨ len ≠ s.preura.stageOff then s.cmdBegin 2 3 0
  else
    let (ver, s) := s.takeFree
    let crc := imageCrc (fun w => s.flashWord k (512 + w)) len
    let s := s.setFlash k 0 0x4B5A505200000001
    let s := s.setFlash k 1 ((s.slotGen s.preura.slot + 1) % 2 ^ 32 * 2 ^ 32 + len)
    let s := s.setFlash k 2 (crc * 2 ^ 32 + bitsOf arg 47 32 * 2 ^ 16)
    let s := s.setFlash k 3 ver.toNat
    let s := s.setFlash k 4 (s.headerCrc k * 2 ^ 32 + 0x00FFFFFF)
    let s := { s with preura := { s.preura with stageOpen := false } }
    ((s.cmdBegin 2 0 0).logNow 6 k [2]).postUpdate

/-- ACTIVATE: a reset to boot a committed slot, or the start of a DOWNLOAD image in place. [DEDUCED, log entry 131] -/
def State.activate (s : State) (arg : Nat) : State :=
  let len := bitsOf arg 31 0
  if s.preuraState = 2 then
    if !lengthOk len ∨ s.preura.stageOff < len then s.cmdBegin 3 2 0
    else if len ≠ s.preura.stageOff then s.cmdBegin 3 3 0
    else (s.cmdBegin 3 0 0).startImage 0 false (bitsOf arg 47 32)
  else if s.slotCommit s.idleSlot then ((s.cmdBegin 3 0 0).logNow 6 s.idleSlot [3]).preuraReset
  else s.cmdBegin 3 2 0

/-- LOG_MARK. [DEDUCED, log entry 131] -/
def State.logMark (s : State) (arg : Nat) : State :=
  if s.preuraState = 2 then s.cmdBegin 4 2 0
  else (s.cmdBegin 4 0 0).logNow 9 0 [BitVec.ofNat 64 (arg % 2 ^ 56)]

/-- RELAY. [DEDUCED, log entry 131] -/
def State.relay (s : State) (arg : Nat) : State :=
  if s.preuraState = 2 then s.cmdBegin 5 2 0
  else
    let body := bytesOf ((List.range 32).map (fun k => Tbl.get (fun _ => 0) s.preura.boardOut k))
    (s.cmdBegin 5 0 0).fromPut ⟨0, 0x82, body.take (min 256 (bitsOf arg 8 0))⟩

/-- A command written while it can be served: firmware or DOWNLOAD, and no other one BUSY; while BUSY it is discarded with OVERRUN.
[DEDUCED, log entry 130] -/
def State.cmdRun (s : State) (f : State → State) : State :=
  if s.preuraState ≠ 1 ∧ s.preuraState ≠ 2 then { s with preura := { s.preura with mpErr := 2 } }
  else if s.preura.cmdBusy then { s with preura := { s.preura with mpErr := 5 } }
  else f s

/-- A word written to CMD. [DEDUCED, log entry 130] -/
def State.cmdWord (s : State) (v : Nat) : State :=
  let arg := bitsOf v 55 0
  s.cmdRun (fun s =>
    match bitsOf v 63 56 with
    | 1 => s.stageOpen arg
    | 2 => s.stageCommit arg
    | 3 => s.activate arg
    | 4 => s.logMark arg
    | 5 => s.relay arg
    | op => s.cmdBegin op 2 0)

end Sys2Proof.Machine
end

