-- ==== Sys2Proof/Machine/Preura.lean ====
section
/-!
DEFINITION. The meanings of Preura's commands (R485 to R503, R572) but for the management port's data accesses.
-/

namespace Sys2Proof.Machine

/-- PREURA_BOOT (R485, R487). -/
def execPreuraBoot (s : State) : Host.Outcome State Fault Refusal := .next s.preuraBoot

/-- SENSOR_SAMPLE (R488): sensors 0 to 23 are thermal, 24 to 54 voltage. -/
def execSensorSample (n : Fin 55) (v : BitVec 16) (s : State) : Host.Outcome State Fault Refusal := .next (s.sensorSample n v)

/-- SENSOR_PUBLISH (R488). -/
def execSensorPublish (s : State) : Host.Outcome State Fault Refusal := .next s.sensorPublish

/-- DEGRADE_RAISE (R572). -/
def execDegradeRaise (s : State) : Host.Outcome State Fault Refusal := .next s.degradeRaise

/-- DEGRADE_LOWER (R572). -/
def execDegradeLower (s : State) : Host.Outcome State Fault Refusal := .next s.degradeLower

/-- LOG_WRITE (R490). [DESIGN CHOICE, log entry 141] -/
def execLogWrite (s : State) : Host.Outcome State Fault Refusal := .next s.logWrite

/-! ## The management port (R492, R493) -/

/-- MP_ADDR without its reserved bits. -/
def mpAddrMask : BitVec 64 := BitVec.ofNat 64 (7 * 2 ^ 61 + (2 ^ 40 - 1))

/-- MP_STATUS (R493). RESETTING shows as ROM. -/
def State.mpStatus (s : State) : Nat :=
  s.preura.mpErr % 256 * 2 ^ 8 + (if s.preuraState = 4 then 0 else s.preuraState % 4) * 2 ^ 5 + s.preura.slot % 2 * 2 ^ 4 +
    b2n (s.bit R.mboxStatus F.mboxStatus_sealed) * 2 ^ 3 + b2n s.preura.trial * 2 ^ 2 + b2n s.firmware * 2 + b2n s.preura.mpReady

/-- `f` while the AON domain is out of PORST_N: the port is hardware there. [DEDUCED, log entry 132] -/
def State.portUp (s : State) (f : State → State) : State := if s.pwr.porst then s else f s

/-- What a read transaction shifts out on MP_DO. -/
def State.mpShow (s : State) (v : BitVec 64) : State := { s with preura := { s.preura with mpOut := v } }

/-- A failed access: ERR, and nothing else. -/
def State.mpFail (s : State) (e : Nat) : State := { s with preura := { s.preura with mpErr := e } }

/-- MP_ADDR_WRITE: READY is cleared until the next word is fetched (R495). -/
def execMpAddrWrite (v : Word) (s : State) : Host.Outcome State Fault Refusal :=
  .next (s.portUp (fun s => { s with preura := { s.preura with mpAddr := v &&& mpAddrMask, mpReady := false, mpWord := none } }))

/-- MP_ADDR_READ. -/
def execMpAddrRead (s : State) : Host.Outcome State Fault Refusal := .next (s.portUp (fun s => s.mpShow s.preura.mpAddr))

/-- MP_STATUS_READ. -/
def execMpStatusRead (s : State) : Host.Outcome State Fault Refusal :=
  .next (s.portUp (fun s => s.mpShow (BitVec.ofNat 64 s.mpStatus)))

/-- MP_STATUS_WRITE: any value clears ERR. -/
def execMpStatusWrite (_v : Word) (s : State) : Host.Outcome State Fault Refusal := .next (s.portUp (fun s => s.mpFail 0))

/-- MP_PREURA_RESET: acted on only with the key word. -/
def execMpPreuraReset (v : Word) (s : State) : Host.Outcome State Fault Refusal :=
  .next (s.portUp (fun s => if v = 0xA5C3 then s.preuraReset else s))

/-- The assigned opcodes (R492). -/
def mpOpcodes : List Nat := [0x10, 0x11, 0x20, 0x21, 0x31, 0x3C, 0x5A]

/-- BAD_OPCODE. -/
def execBadOpcode (op : Byte) (s : State) : Host.Outcome State Fault Refusal :=
  .next (s.portUp (fun s => if mpOpcodes.contains op.toNat then s else s.mpFail 7))

/-! ## Operations of COMMAND space (R497) -/

/-- STAGE_OPEN. -/
def execStageOpen (arg : BitVec 56) (s : State) : Host.Outcome State Fault Refusal := .next (s.cmdRun (·.stageOpen arg.toNat))

/-- STAGE_COMMIT. -/
def execStageCommit (arg : BitVec 56) (s : State) : Host.Outcome State Fault Refusal := .next (s.cmdRun (·.stageCommit arg.toNat))

/-- ACTIVATE. -/
def execActivate (arg : BitVec 56) (s : State) : Host.Outcome State Fault Refusal := .next (s.cmdRun (·.activate arg.toNat))

/-- LOG_MARK. -/
def execLogMark (arg : BitVec 56) (s : State) : Host.Outcome State Fault Refusal := .next (s.cmdRun (·.logMark arg.toNat))

/-- RELAY. -/
def execRelay (arg : BitVec 56) (s : State) : Host.Outcome State Fault Refusal := .next (s.cmdRun (·.relay arg.toNat))

/-- COMMAND_DONE: CMD_STATUS leaves BUSY and shows the result. [DEDUCED, log entry 130] -/
def execCommandDone (s : State) : Host.Outcome State Fault Refusal :=
  .next { s with preura := { s.preura with cmdBusy := false } }

/-! ## The mailbox (R498 to R500) -/

/-- MBOX_SEND: a write of MBOX.TO_CTL. -/
def execMboxSend (v : Word) (s : State) : Host.Outcome State Fault Refusal := .next (s.mboxSend v)

/-- MBOX_TAKE. -/
def execMboxTake (s : State) : Host.Outcome State Fault Refusal := .next s.mboxTake

/-- MBOX_POST. -/
def execMboxPost (s : State) : Host.Outcome State Fault Refusal := .next s.mboxPost

/-- MBOX_DONE: a write of MBOX.FROM_CTL. -/
def execMboxDone (v : Word) (s : State) : Host.Outcome State Fault Refusal := .next (s.mboxDone v)

/-- LOG: the oldest taken LOG message. -/
def execLog (s : State) : Host.Outcome State Fault Refusal := .next (s.serveMsg 1 State.serveLog)

/-- OE_XFER: the oldest taken OE_XFER message joins its bus. -/
def execOeXfer (s : State) : Host.Outcome State Fault Refusal := .next (s.serveMsg 2 State.serveXfer)

/-- OE_XFER_DONE: the transfer at the head of bus `q` ends DONE, NACK_ADDR or NACK_DATA with the bytes read. [DEDUCED, log entry 138] -/
def execOeXferDone (q : Fin 6) (status : Fin 3) (data : List Byte) (s : State) : Host.Outcome State Fault Refusal :=
  .next (if s.firmware then s.xferEnds q status data else s)

/-- RELAY_TO_BOARD: the oldest taken message of that type. -/
def execRelayToBoard (s : State) : Host.Outcome State Fault Refusal := .next (s.serveMsg 3 State.serveBoard)

/-- OE_ALARM (R503). -/
def execOeAlarm (q : Fin 6) (data : List Byte) (s : State) : Host.Outcome State Fault Refusal := .next (s.oeAlarm q data)

/-- BUS_STUCK (R503). -/
def execBusStuck (q : Fin 6) (s : State) : Host.Outcome State Fault Refusal := .next (s.busStuck q)

/-- SWAP_POP (R500). -/
def execSwapPop (s : State) : Host.Outcome State Fault Refusal := .next s.swapPop

/-! ## The sentinel and reset (R487, R501, R502) -/

/-- SENTINEL_KICK: Preura writes KICK. -/
def execSentinelKick (v : BitVec 4) (s : State) : Host.Outcome State Fault Refusal := .next (s.kickWrite v.toNat)

/-- The CAUSE of a trip (R505). -/
def tripCode (c : TripCause) : Nat :=
  match c with
  | .timeout => 1
  | .lockup => 3
  | .sram => 4

/-- SENTINEL_TRIP. -/
def execSentinelTrip (cause : TripCause) (s : State) : Host.Outcome State Fault Refusal := .next (s.sentinelTrip (tripCode cause))

/-- PREURA_RESET: a write of MBOX.PREURA_CTL. -/
def execPreuraReset (v : Word) (s : State) : Host.Outcome State Fault Refusal := .next (s.preuraCtl v)

/-- SLOT_CONFIRM. -/
def execSlotConfirm (s : State) : Host.Outcome State Fault Refusal := .next s.slotConfirmNow

end Sys2Proof.Machine
end

