-- ==== Sys2Proof/Machine/Pwr.lean ====
section
/-!
DEFINITION. The meanings of the commands of power, clocks, reset and start-up (R508, R524 to R550, R581).
-/

namespace Sys2Proof.Machine

/-- The fault sources that a system PLL's clock feeds, with their domains, by its bit in CLK.PLL_STATUS (R539, R540). -/
def pllSources (b : Nat) : List (Nat × Nat) :=
  match b with
  | 6 => [(9, Src.pktu), (8, Src.pktd), (9, Src.ubb), (8, Src.dfp), (7, Src.cls), (5, Src.qm), (6, Src.ciph), (10, Src.circ)]
  | 5 => [(1, Src.lim0), (2, Src.lim1)]
  | 4 => [(3, Src.hbm 0)]
  | 3 => [(4, Src.hbm 1)]
  | 2 => [(0, Src.pcie)]
  | _ => []

/-- A PLL loses lock (R540): CK_MTX by R51, else class D, cause 3, on the sources it feeds whose domains are ON.
[DEDUCED, log entry 153] -/
def State.pllLost (s : State) (b : Nat) : State :=
  if b = 1 then s.txUnlock
  else if s.fld R.clkPllStatus ⟨b, b⟩ = 0 then s
  else
    let s := (s.setFld R.clkPllStatus ⟨b, b⟩ 0).count R.clkCounts F.clkCounts_pllUnlocks
    (pllSources b).foldl (fun s e => if s.domOn e.1 then s.signal e.2 2 (faultCode e.2 3) else s) s

/-- A PLL is locked. -/
def State.pllBack (s : State) (b : Nat) : State :=
  if b = 1 then (if s.med.txLock then s else { s with med := { s.med with txLock := true, txWait := true } }.showTxLock)
  else s.setFld R.clkPllStatus ⟨b, b⟩ 1

/-- A reference input is absent (R541). [DEDUCED, log entry 153] -/
def State.refLost (s : State) (i : Nat) : State :=
  ((s.setFld R.clkRefStatus ⟨i, i⟩ 0).latch R.clkRefStatus ⟨8 + i, 8 + i⟩).count R.clkCounts F.clkCounts_refLosses

/-- A write of PWR.CHIP_RESET (R542). -/
def State.chipReset (s : State) (v : BitVec 64) : State := if bitsOf v.toNat 15 0 = 0xA5C3 then s.aonReset true else s

/-- The release of PORST_N (R543 to R545, R550). [DEDUCED, log entry 156] -/
def State.porstRelease (s : State) (boot lead role : Nat) : State :=
  if s.pwr.porst ∧ !s.pwr.hold then s.release (b2n s.pwr.released) boot lead role else s

/-- The end of a chip reset's hold (R542, R544). -/
def State.holdEnd (s : State) (boot lead role : Nat) : State := if s.pwr.hold then s.release 2 boot lead role else s

/-- PWR_REQ_ON (R530): a write of PWR.REQ with TARGET ON by unit `by_`. -/
def execPwrReqOn (by_ : Fin 256) (mask : BitVec 30) (s : State) : Host.Outcome State Fault Refusal :=
  .next (s.pwrReq 1 by_ mask.toNat)

/-- PWR_REQ_RETENTION (R529). -/
def execPwrReqRetention (by_ : Fin 256) (mask : BitVec 30) (s : State) : Host.Outcome State Fault Refusal :=
  .next (s.pwrReq 2 by_ mask.toNat)

/-- PWR_REQ_OFF (R529). -/
def execPwrReqOff (by_ : Fin 256) (mask : BitVec 30) (s : State) : Host.Outcome State Fault Refusal :=
  .next (s.pwrReq 3 by_ mask.toNat)

/-- DOMAIN_DRAIN_DONE (R528). -/
def execDomainDrainDone (d : Fin 30) (s : State) : Host.Outcome State Fault Refusal := .next (s.drainDoneDom d)

/-- DRAIN_ABORT (R528). -/
def execDrainAbort (d : Fin 30) (s : State) : Host.Outcome State Fault Refusal := .next (s.drainAbort d)

/-- DOMAIN_DOWN (R528). -/
def execDomainDown (d : Fin 30) (s : State) : Host.Outcome State Fault Refusal := .next (s.domainDown d)

/-- WAKE_TURN (R533). -/
def execWakeTurn (s : State) : Host.Outcome State Fault Refusal := .next s.wakeTurn

/-- DOMAIN_ON (R524): the wake delay of the waking domain ends. -/
def execDomainOn (d : Fin 30) (s : State) : Host.Outcome State Fault Refusal := .next (s.domainOnNow d)

/-- PWR_OP_WRITE (R536). -/
def execPwrOpWrite (v : Word) (s : State) : Host.Outcome State Fault Refusal := .next (s.opWrite v)

/-- AVS_DONE (R536): VDone, with the voltage read back. -/
def execAvsDone (rail : Fin 2) (mv : Fin 1024) (s : State) : Host.Outcome State Fault Refusal := .next (s.avsEnds rail (some mv))

/-- AVS_TIMEOUT (R536). -/
def execAvsTimeout (rail : Fin 2) (s : State) : Host.Outcome State Fault Refusal := .next (s.avsEnds rail none)

/-- AVS_RETRY (R545). -/
def execAvsRetry (s : State) : Host.Outcome State Fault Refusal := .next s.avsRetry

/-- CHIP_RESET (R542): a write of PWR.CHIP_RESET. -/
def execChipReset (v : Word) (s : State) : Host.Outcome State Fault Refusal := .next (s.chipReset v)

/-- PORST_N_ASSERT (R542). -/
def execPorstNAssert (s : State) : Host.Outcome State Fault Refusal := .next (s.aonReset false)

/-- PORST_N_RELEASE (R545): the levels of BOOT_SRC, LEAD_SRC and TWIN_ROLE are sampled. -/
def execPorstNRelease (boot lead : Bool) (role : Fin 4) (s : State) : Host.Outcome State Fault Refusal :=
  .next (s.porstRelease (b2n boot) (b2n lead) role)

/-- START_DONE (R545). -/
def execStartDone (s : State) : Host.Outcome State Fault Refusal := .next s.startDone

/-- AON_POWER_LOSS (R565). -/
def execAonPowerLoss (s : State) : Host.Outcome State Fault Refusal := .next s.aonPowerLoss

/-- PLL_UNLOCK (R540): `pll` is the PLL's bit in CLK.PLL_STATUS. -/
def execPllUnlock (pll : Fin 8) (s : State) : Host.Outcome State Fault Refusal := .next (s.pllLost pll)

/-- REF_LOSS (R541): `ref` is the input's bit in CLK.REF_STATUS.PRESENT. -/
def execRefLoss (ref : Fin 6) (s : State) : Host.Outcome State Fault Refusal := .next (s.refLost ref)

/-- CHIP_RESET_END (R542, R544). -/
def execChipResetEnd (boot lead : Bool) (role : Fin 4) (s : State) : Host.Outcome State Fault Refusal :=
  .next (s.holdEnd (b2n boot) (b2n lead) role)

/-- PLL_RELOCK (R540). -/
def execPllRelock (pll : Fin 8) (s : State) : Host.Outcome State Fault Refusal := .next (s.pllBack pll)

/-- REF_PRESENT (R541). -/
def execRefPresent (ref : Fin 6) (s : State) : Host.Outcome State Fault Refusal := .next (s.setFld R.clkRefStatus ⟨ref, ref⟩ 1)

/-- ISOLATION_CLAMP_RELEASE (R508). -/
def execIsolationClampRelease (d : Fin 30) (s : State) : Host.Outcome State Fault Refusal := .next (s.clampRelease d)

/-- UNIT_TABLES_CLEARED (R581). [DEDUCED, log entry 34] -/
def execUnitTablesCleared (unit : Fin 256) (s : State) : Host.Outcome State Fault Refusal := .next (s.tablesCleared unit)

end Sys2Proof.Machine
end

