-- ==== Sys2Proof/Machine/Ubb.lean ====
section
/-!
DEFINITION. The meanings of the commands of the upstream burst builder and the ward (R114 to R148).
-/

namespace Sys2Proof.Machine

/-! ## Build (R116, R117, R134, R138) -/

/-- GUARD_TIGHT of an entry (R119). -/
def State.guardTight (s : State) (g : Grant) : State :=
  s.latchIf (decide (s.fld g.profileReg F.ubbProfile_guard ≤ s.mbenLead g.plane + s.mbenLag g.plane))
    (R.ubbPlaneDefect g.plane) F.ubbPlaneDefect_guardTight

/-- Whether a class D or F fault is present (R122). -/
def State.alarmed (s : State) : Bool :=
  s.fld R.fltStatusD F.fltStatusD_sources != 0 || s.fld R.fltStatusF F.fltStatusF_sources != 0

/-- A burst whose content was selected is sent, or ends EMPTY (R115, R172). -/
def State.finishBuild (s : State) (gs : List Grant) (g : Grant) (w : Window) (f : Fill) (rpt : List Nat) : State :=
  let always := g.kind == 1 || g.kind == 3
  let headerOnly := always || (g.kind != 2 && (gs.any (·.keep) || s.reportDue gs))
  if f.pieces = [] ∧ !headerOnly then gs.foldl (fun s x => s.endEntry x 1) s
  else
    let n := if g.kind = 1 then 0 else slotsFor gs.length f.used
    let idle := idleFill 64000 ((streamBytes gs.length n - f.used) / 8)
    let s := gs.foldl (fun s x =>
      let u := s.uplane x.plane
      (s.setUplane x.plane { u with entries := u.entries.filter (fun y => y != x) }).guardTight x) s
    let b : Build := { grants := gs, lines := gs.map s.lineOf, n := n, rpt := rpt, tid := w.tid, lead := s.isLead, alarm := s.alarmed,
                       pieces := f.pieces ++ idle, committed := false, launched := false, launch := s.launchAt g,
                       symbols := s.burstLen g n * s.symScale g.plane, cut := false }
    { s with ubb := { s.ubb with builds := s.ubb.builds ++ [b] } }.pmcEvent 0xF1 1 gs.length

/-- The build of the window of plane `p` that launches next, with the bond in its position order; a build start that falls in a restart is
kept for the restart's end (R142). [DESIGN CHOICE, log entry 35; DEDUCED, log entry 37] -/
def State.buildStart (s : State) (p : Nat) : State :=
  if !s.lpValid then s
  else if s.ubbRestarts then s.setUplane p { s.uplane p with missed := (s.uplane p).missed + 1 }
  else
    match s.nextEntry p with
    | none => s
    | some e =>
      let gs := s.bondOf e
      let g := gs.headD e
      let bad := s.bondBad gs
      let failing := bad || gs.any (fun x => (s.ownDisp x).isSome)
      if failing then
        gs.foldl (fun t x => t.endEntry x ((s.ownDisp x).getD (if bad then 4 else 8))) s
      else
        let n := s.nMax g
        if n < 0 ∨ (g.kind = 2 ∧ n < 1) then gs.foldl (fun s x => s.endEntry x 2) s
        else
          let s := s.presentNotLead
          let rpt := if s.reportDue gs then (List.range 64).map s.reportCount else []
          let w : Window := ⟨gs, n.toNat, s.fld R.dfpIdent F.dfpIdent_tid, s.timeOf16 (s.launchAt g)⟩
          let (s, f) := s.selectContent w g
          s.finishBuild gs g w f rpt

/-- The UBB's restart ends: the builds whose start fell in it, and whose commit points still lie ahead, start now (R142).
[DEDUCED, log entry 38] -/
def State.lateBuilds (s : State) : State :=
  (List.range 24).foldl (fun s p =>
    let n := (s.uplane p).missed
    (List.range n).foldl (fun s _ => s.buildStart p) (s.setUplane p { s.uplane p with missed := 0 })) s

/-- BURST_BUILD_START: launch minus BUILD_AHEAD. -/
def execBurstBuildStart (p : Plane) (s : State) : Host.Outcome State Fault Refusal := .next (s.buildStart p)

/-! ## Commit (R136) -/

/-- A parcel whose sealing is complete takes its result; one that is not is replaced by idle parcels of the same size. -/
def State.commitPiece (s : State) (x : Piece) : State × List Piece :=
  match x.req with
  | none => (s, [x])
  | some n =>
    let idle := idleFill 4 (parcelSize x.bytes.length / 8)
    match s.takeResult n with
    | (some r, s) =>
      if r.status = 0 then (s, [{ x with sealed := some (r.text ++ beBytes 16 r.tag.toNat) }])
      else
        let s := match x.pkt with | some p => s.losePkt p (if r.status = 5 then 15 else 7) | none => s
        let s := match x.cont with | some _ => s.circCount (if r.status = 5 then 12 else 1) | none => s
        let s := match x.msg with | some _ => s.pdisp 7 | none => s
        (s, idle)
    | (none, s) =>
      let s := s.dropReq n
      let s := match x.pkt with | some p => s.losePkt p 5 | none => s
      let s := match x.cont with | some _ => s.circCount 1 | none => s
      let s := match x.msg with | some _ => s.pdisp 5 | none => s
      (s, idle)

/-- The parcels of a burst in their order. -/
def State.commitPieces (s : State) : List Piece → State × List Piece
  | [] => (s, [])
  | x :: t =>
    let (s, y) := s.commitPiece x
    let (s, ys) := s.commitPieces t
    (s, y ++ ys)

/-- The commit of the burst of plane `p`; an entry whose build a restart put off past its commit point ends FAULT (R142).
[DESIGN CHOICE, log entry 35; DEDUCED, log entry 38] -/
def State.commit (s : State) (p : Nat) : State :=
  match s.buildOf p (fun b => !b.committed) with
  | none =>
    if s.ubbRestarts then
      match s.nextEntry p with
      | some g => ((s.setUplane p { s.uplane p with missed := (s.uplane p).missed - 1 }).endEntry g 15).burstLost g 15
      | none => s
    else s
  | some b =>
    let (s, ys) := s.commitPieces b.pieces
    s.putBuild { b with pieces := ys, committed := true }

/-- BURST_COMMIT: launch minus 2 µs. -/
def execBurstCommit (p : Plane) (s : State) : Host.Outcome State Fault Refusal := .next (s.commit p)

/-! ## Launch (R44, R120 to R127, R137) -/

/-- The bytes of a parcel on the medium. -/
def Piece.stream (x : Piece) : List Byte :=
  let body := beBytes 16 x.hdr.toNat ++ (match x.sealed with | some l => l | none => x.bytes)
  takePad (roundUp body.length 8) body

/-- The header codeword's data bits of the plane of an entry (R122). LAUNCH is that of POSITION 0 on every plane of a bond, whose headers
differ only in PLANE, RPT and REPORT (R135). [DEDUCED, log entry 37] -/
def State.headerBits (s : State) (b : Build) (g : Grant) (first : Bool) : List Bool :=
  let rpt := first && !b.rpt.isEmpty
  let head := bitsMsb 10 b.tid ++ bitsMsb 48 g.frame ++ bitsMsb 5 g.plane ++ bitsMsb 3 (if (b.line g.plane).genOne then 1 else 2) ++
    bitsMsb 4 g.kind ++ bitsMsb 21 g.start ++ bitsMsb 14 b.n ++ [rpt, b.lead, b.alarm] ++
    bitsMsb 64 (stampOf (s.timeOf16 b.launch) 0).short.toNat ++ bitsMsb 84 0 ++
    (List.range 64).flatMap (fun i => bitsMsb 24 (if rpt then b.rpt.getD i 0 else 0))
  let body := head ++ List.replicate (5108 - head.length) false
  body ++ bitsMsb 32 (crc32 body)

/-- The data bits of slot `i` (from 1) of the plane at position `k` of a bond of `n` planes (R135). -/
def slotBits (stream : List Bool) (n k i : Nat) : List Bool :=
  let l := (stream.drop (((i - 1) * n + k) * 5140)).take 5140
  l ++ List.replicate (5140 - l.length) false

/-- The line levels of a codeword slot: encoded, scrambled, mapped, precoded and stuffed (R33). -/
def slotLevels (scr : Nat) (l : LineState) (data : List Bool) : List Nat × Nat × LineState :=
  let cw := (rsEncode (symbolsOf 514 data)).flatMap (bitsMsb 10)
  let (c, scr') := scramble scr cw
  let (ys, l') := sendSlot l (labelsOf c)
  (ys, scr', l')

/-- The line levels of several slots. -/
def slotsLevels : Nat → LineState → List (List Bool) → List Nat × Nat × LineState
  | scr, l, [] => ([], scr, l)
  | scr, l, d :: ds =>
    let (ys, scr, l) := slotLevels scr l d
    let (zs, scr, l) := slotsLevels scr l ds
    (ys ++ zs, scr, l)

/-- The fixed patterns before the header codeword (R120). -/
def Build.preamble (b : Build) (g : Grant) (k : Nat) : List Nat :=
  let l := b.line g.plane
  trainingBurst l.train ++ burstDelimiter l.delim ++ (if g.bonded then laneMarker k (b.grants.length - 1) g.plane else [])

/-- The data bits of the slots of a burst on the plane of entry `g` at position `k`. -/
def State.burstData (s : State) (b : Build) (g : Grant) (k : Nat) : List (List Bool) :=
  let stream := bitsOfBytes (b.pieces.flatMap Piece.stream)
  s.headerBits b g (k == 0) :: (List.range b.n).map (fun i => slotBits stream b.grants.length k (i + 1))

/-- The line levels of a burst on the plane of entry `g` at position `k`, and the line and scrambler after them (R120). -/
def State.burstLevels (s : State) (b : Build) (g : Grant) (k : Nat) : List Nat × Nat × LineState :=
  let pre := b.preamble g k
  let l0 := trackLevels ⟨(s.lane g.plane).tx.level, 0⟩ pre
  let (ys, scr, l1) := slotsLevels (seedFix (seedBurst b.tid g.frame)) l0 (s.burstData b g k)
  ((pre ++ ys ++ endMarker).map (fun y => if (b.line g.plane).inv then 3 - y else y), scr, trackLevels l1 endMarker)

/-- The disposition that stops a committed burst at its launch on a plane, if any: LATE under R127, ABANDONED, or WARD_HELD, also where
its lead began before the last hold ended (R145). [DEDUCED, log entry 36] -/
def State.launchStop (s : State) (b : Build) (g : Grant) : Option Nat :=
  let l := b.line g.plane
  let late := match (s.uplane g.plane).lastEnd with | some e => decide (l.start < e) | none => false
  if late then some 7 else if s.laneBlocked g.plane then some 8
  else if s.wardHolds || decide (l.leadAt < s.ward.freeFrom) then some 9 else none

/-- Stuff symbols of several slots, from a scrambler and a line. -/
def stuffsOf : Nat → LineState → List (List Bool) → Nat
  | _, _, [] => 0
  | scr, l, d :: ds =>
    let cw := (rsEncode (symbolsOf 514 d)).flatMap (bitsMsb 10)
    let (_, scr', l') := slotLevels scr l d
    stuffsSent l (labelsOf (scramble scr cw).1) + stuffsOf scr' l' ds

/-- The stuff symbols that the burst sends on the plane of entry `g` at position `k` (R553). -/
def State.burstStuffs (s : State) (b : Build) (g : Grant) (k : Nat) : Nat :=
  stuffsOf (seedFix (seedBurst b.tid g.frame)) (trackLevels ⟨(s.lane g.plane).tx.level, 0⟩ (b.preamble g k)) (s.burstData b g k)

/-- The parcels that a burst carries, in the counter block of the UBB and in the sums of the plane of its first entry (R553, R558). -/
def State.parcelsSent (s : State) (b : Build) : State :=
  let real := b.pieces.filter (fun x => phType x.hdr != 0)
  let bytes := fun (l : List Piece) => l.foldl (fun n x => n + phLength x.hdr) 0
  let s := (s.pmcEvent 0xF1 0x12 (bytes real)).pmcEvent 0xF1 0x13 (bytes (b.pieces.filter (fun x => phType x.hdr == 0)))
  let s := s.pmcEvent 0xF1 0x15 (real.filter (fun x => phFrag x.hdr != 0)).length
  match b.grants with
  | g :: _ => s.bandwidth false (96 + g.plane) (bytes real)
  | [] => s

/-- The burst starts on one plane: levels sent, the driver out of idle, counters. -/
def State.launchPlane (s : State) (b : Build) (g : Grant) (k : Nat) : State :=
  let p := g.plane
  let (ys, scr, l) := s.burstLevels b g k
  let s := ((s.pmcEvent (0x10 + p) 1).pmcEvent (0x10 + p) 0x12 (s.burstStuffs b g k)).pmcEvent 0xF1 0x10
  let s := s.pmcEvent 0xF1 0x11 (b.n + 1)
  let s := s.setLane p { s.lane p with sent := ys, txScr := scr, tx := l, fill := false }
  let s := (s.setBit (R.medLaneStatus p) F.medLaneStatus_mben true).setBit (R.medLaneStatus p) F.medLaneStatus_txIdle false
  let s := s.setUplane p { s.uplane p with lastEnd := some (b.endAt p), req := true, lag := none }
  let s := s.count (R.ubbBursts p) F.ubbBursts_count
  let s := s.count (R.ubbSlots p) F.ubbSlots_count (b.n + 1)
  s.setReg (R.ubbLastBurst p) (stampOf (s.timeOf16 (b.line p).start) 0).short

/-- The burst starts on every plane of its bond in position order. -/
def State.launchPlanes (s : State) (b : Build) : Nat → List Grant → State
  | _, [] => s
  | k, g :: t => (s.launchPlane b g k).launchPlanes b (k + 1) t

/-- The first plane whose request for MBEN would run outside every permit interval (R142), and whether it overruns the burst before, to
which it is joined. A request made in the lead has been judged. -/
def State.badStart (s : State) (b : Build) : Option (Nat × Bool) :=
  if !s.lpValid then none
  else (b.grants.map (·.plane)).findSome? (fun p => (s.badRequest p (b.line p)).map (fun o => (p, o)))

/-- The launch of the committed burst of plane `p` and of the other planes of its bond. A burst whose request is a violation meets the
UBB's restart, and ends FAULT; at the third violation the ward holds it (R137, R142, R143).
[DESIGN CHOICE, log entry 35; DEDUCED, log entry 38] -/
def State.launch (s : State) (p : Nat) : State :=
  match s.buildOf p (fun b => !b.launched) with
  | none => s
  | some b =>
    if s.ubbRestarts then s.failBuild b (fun _ => 15) 15
    else if !b.committed then s
    else if b.grants.any (fun g => (s.launchStop b g).isSome) then
      s.failBuild b (fun g => (s.launchStop b g).getD 8) 6
    else
      match s.badStart b with
      | some (q, overrun) =>
        let s := s.violation q overrun
        if s.bit R.wardStatus F.wardStatus_fatal then s.failBuild b (fun _ => 9) 6 else s.failBuild b (fun _ => 15) 15
      | none => ((s.parcelsSent b).launchPlanes b 0 b.grants).putBuild { b with launched := true }

/-- BURST_LAUNCH: the launch instant. -/
def execBurstLaunch (p : Plane) (s : State) : Host.Outcome State Fault Refusal := .next (s.launch p)

/-! ## End (R48, R49, R137) -/

/-- A packet's part has left with its burst: the packet is SENT once its last part has left and no earlier one is still in a burst (R139).
[DEDUCED, log entry 167] -/
def State.partSent (s : State) (p : Pkt) (last : Bool) : State :=
  let gone := last || s.ubb.lastGone.contains p.id
  let others := s.ubb.builds.any (fun b => b.pieces.any (fun x => (x.pkt.map (·.id)) == some p.id))
  let l := s.ubb.lastGone.filter (· != p.id)
  if !gone then s
  else if others then { s with ubb := { s.ubb with lastGone := l ++ [p.id] } }
  else { s with ubb := { s.ubb with lastGone := l } }.pdisp 0

/-- A container with INC or DEC has been sent: JUSTS of its circuit (R350). -/
def State.justSent (s : State) (x : Container) : State :=
  let c := s.circuit x.circ
  if !x.ais && (x.just == 1 || x.just == 2) then s.setCircuit x.circ { c with justs := (c.justs + 1) % 2 ^ 16 } else s

/-- The content of a burst that was sent. -/
def State.contentSent (s : State) (b : Build) : State :=
  b.pieces.foldl (fun s x =>
    let s := match x.pkt with | some p => s.partSent p x.last | none => s
    let s := match x.cont with | some c => s.justSent c | none => s
    match x.msg with | some _ => s.pdisp 0 | none => s) s

/-- The last end-marker symbol of the burst of plane `p` has left: the driver goes idle, or sends fill up to a burst that joins (R49),
and the lag runs. With no burst in progress it is the lag that ends. [DESIGN CHOICE, log entry 35] -/
def State.endBurst (s : State) (p : Nat) : State :=
  match s.buildOf p (·.launched) with
  | none => match (s.uplane p).lag with | some (a, e) => s.lagEnd p a e | none => s
  | some b =>
    let start := (b.line p).leadAt
    if s.lpValid && decide (unionEnd (s.permitsOf p) 400 start < b.endAt p) then s.violation p true
    else
      let gs := b.grants.filter (fun x => x.plane != p)
      let s := (s.bdisp 0).pmcEvent (0x10 + p) 2
      let s := if gs = [] then s.dropBuild b
        else { s with ubb := { s.ubb with builds := s.ubb.builds.map (fun x => if x.grants = b.grants then { b with grants := gs } else x) } }
      let s := if gs = [] && !b.cut then s.contentSent b else s
      let e := b.endAt p + 16 * ((b.line p).lag : Int)
      let s := s.setUplane p { s.uplane p with lag := some (start, e) }
      if (s.buildOf p (·.launched)).isSome then s
      else if s.joins p e then s.setLane p { s.lane p with fill := true }
      else s.driverRest p

/-- BURST_END: the end of the burst, and then of its MBEN lag. -/
def execBurstEnd (p : Plane) (s : State) : Host.Outcome State Fault Refusal := .next (s.endBurst p)

/-! ## Ward -/

/-- WARD_VIOLATION: the UBB requests MBEN outside every permit interval. -/
def execWardViolation (p : Plane) (overrun : Bool) (s : State) : Host.Outcome State Fault Refusal :=
  .next (s.violation p overrun)

/-- A write of WARD.CODE shows its check value. [DEDUCED, log entry 43] -/
def State.writeCode (s : State) (v : Word) : State :=
  (s.setReg R.wardCode v).setFld R.wardCodeCheck F.wardCodeCheck_check (wardCheck v.toNat)

/-- WARD_CODE_WRITE (R144). -/
def execWardCodeWrite (v : Word) (s : State) : Host.Outcome State Fault Refusal := .next (s.writeCode v)

/-- LOCKOUT (R145, R168). -/
def execLockout (m : Msg) (s : State) : Host.Outcome State Fault Refusal :=
  .next (s.wardMessage m (fun s => s.wardLockout m false))

/-- LOCKOUT_PERMANENT (R145, R168). -/
def execLockoutPermanent (m : Msg) (s : State) : Host.Outcome State Fault Refusal :=
  .next (s.wardMessage m (fun s => s.wardLockout m true))

/-- RELEASE (R145, R168). -/
def execRelease (m : Msg) (s : State) : Host.Outcome State Fault Refusal :=
  .next (s.wardMessage m (fun s => s.wardRelease m))

/-! ## Flow table (R147, R148) -/

/-- A write of UBB.FLOW_WRITE: one entry replaced in one step. -/
def State.flowWrite (s : State) (v : Word) : State :=
  let f := bitsOf v.toNat 59 40
  let s := s.setReg R.ubbFlowWrite (v &&& 0x0FFFFFFFFFF1FFFF)
  if !s.bit R.ubbStatus F.ubbStatus_flowReady then s.latch R.ubbStatus F.ubbStatus_flowLost
  else
    let e := BitVec.ofNat 40 (v.toNat &&& 0xFFFFF0FFFF)
    if bitOf v.toNat 16 then s.setFlow f (flowWithSeq e (flowSeq (s.flow f)))
    else
      let s := (s.setFlow f e).unmark f
      if flowMirrored e then s.mirrorSeq f (flowSeq e) else s

/-- FLOW_WRITE (R148). -/
def execFlowWrite (v : Word) (s : State) : Host.Outcome State Fault Refusal := .next (s.flowWrite v)

/-- A write of UBB.FLOW_PROBE.INDEX loads the entry. [DEDUCED, log entry 34] -/
def State.flowProbe (s : State) (v : Word) : State :=
  let f := bitsOf v.toNat 59 40
  s.setReg R.ubbFlowProbe (BitVec.ofNat 64 (f * 2 ^ 40 + (s.flow f).toNat))

/-- FLOW_PROBE (R148). -/
def execFlowProbe (v : Word) (s : State) : Host.Outcome State Fault Refusal := .next (s.flowProbe v)

end Sys2Proof.Machine
end

