-- ==== Sys2Proof/Machine/Hinge.lean ====
section
/-!
DEFINITION. The meanings of the commands of the hinge link and of the lead by pin (R467 to R480).
-/

namespace Sys2Proof.Machine

/-! ## The link (R472) -/

/-- The link changes its state. -/
def State.setLinkState (s : State) (n : Nat) : State :=
  if s.link = n then s else (s.setFld R.hingeStatus F.hingeStatus_link n).latch R.hingeStatus F.hingeStatus_linkChg

def State.setSync (s : State) (n : Nat) : State := s.setFld R.hingeStatus F.hingeStatus_sync n

/-- SYNC as it reads: a lead's reads IN_SYNC (R480). [DEDUCED, log entry 129] -/
def State.syncShown (s : State) : Nat := if s.isLead then 2 else s.fld R.hingeStatus F.hingeStatus_sync

/-- The link goes OFF: SYNC NONE, waiting blocks discarded. -/
def State.hingeOff (s : State) : State :=
  let s := { s with twin := { s.twin with blocks := [], inbox := [], updates := [], bulk := none, good := 0 } }
  (s.setLinkState 0).setSync 0

/-- The link returns to ACQUIRE; a peer that was there is lost. -/
def State.hingeAcquire (s : State) : State :=
  let s := s.latchIf (s.link == 3) R.hingeStatus F.hingeStatus_peerLost
  let s := { s with twin := { s.twin with bulk := none, good := 0 } }
  (s.setLinkState 1).setSync 0

/-- A write of HINGE.CFG. -/
def State.hingeCfgWrite (s : State) (v : BitVec 64) : State :=
  let was := s.bit R.hingeCfg F.hingeCfg_en
  let s := (s.setFld R.hingeCfg F.hingeCfg_seqAdvance (bitsOf v.toNat 45 32)).setFld R.hingeCfg F.hingeCfg_en v.toNat
  let now := s.bit R.hingeCfg F.hingeCfg_en
  if was && !now then s.hingeOff
  else if now && s.link == 0 && !s.restarting Src.hinge then s.setLinkState 1
  else s

/-! ## Heartbeats (R471) -/

/-- The HEARTBEAT this terminal sends. -/
def State.heartbeat (s : State) : Nat :=
  0x01 * 2 ^ 504 + s.fld R.hingePair F.hingePair_pairId * 2 ^ 488 + s.role * 2 ^ 486 + b2n s.isLead * 2 ^ 485 + b2n s.alarmed * 2 ^ 484 +
    s.syncShown * 2 ^ 482 + s.termState * 2 ^ 478 + s.fld R.dfpIdent F.dfpIdent_tid * 2 ^ 468 + (s.reg R.sysSerial).toNat * 2 ^ 384 +
    (s.stamp 0x800).short.toNat * 2 ^ 320

/-- Whether a HEARTBEAT is valid. -/
def State.heartbeatOk (s : State) (b : Nat) : Bool :=
  let id := bitsOf b 503 488
  id == s.fld R.hingePair F.hingePair_pairId && id != 0 && s.role != 0 && bitsOf b 487 486 == 3 - s.role

/-- A received HEARTBEAT. -/
def State.heartbeatRx (s : State) (b : Nat) : State :=
  if s.link < 2 then s
  else if s.heartbeatOk b then
    let s := (s.setFld R.hingeStatus F.hingeStatus_peerLead (bitsOf b 485 485)).setFld R.hingeStatus F.hingeStatus_peerFault (bitsOf b 484 484)
    let s := (s.setFld R.hingeStatus F.hingeStatus_peerState (bitsOf b 481 478)).setFld R.hingeStatus F.hingeStatus_peerTid (bitsOf b 477 468)
    let s := s.setReg R.hingePeerSerial (BitVec.ofNat 64 (bitsOf b 447 384))
    let s := { s with twin := { s.twin with good := s.twin.good + 1 } }
    if s.link = 2 ∧ 2 ≤ s.twin.good then s.setLinkState 3 else s
  else
    let s := { s with twin := { s.twin with good := 0 } }.latch R.hingeStatus F.hingeStatus_mismatch
    if s.link = 3 then s.hingeAcquire else s

/-! ## The mirror (R477 to R480) -/

/-- A received NEXT_SEQ goes to the terminal's own entry while it is not lead (R478). [DEDUCED, log entry 129] -/
def State.applySeq (s : State) (f n : Nat) : State :=
  if !s.isLead && flowMirrored (s.flow f) then s.setFlow f (flowWithSeq (s.flow f) n) else s

/-- A received UPDATE. -/
def State.updateRx (s : State) (b : Nat) : State :=
  (List.range (bitsOf b 503 501)).foldl (fun s k =>
    let e := bitsOf b (447 - 64 * k) (384 - 64 * k)
    s.applySeq (bitsOf e 63 44) (bitsOf e 43 28)) s

/-- An UPDATE block of up to seven entries. -/
def updateBlock (l : List (Nat × Nat)) : Nat :=
  (l.foldl (fun (a : Nat × Nat) e => (a.1 + (e.1 % 2 ^ 20 * 2 ^ 44 + e.2 % 2 ^ 16 * 2 ^ 28) * 2 ^ (384 - 64 * a.2), a.2 + 1))
    (0x02 * 2 ^ 504 + l.length * 2 ^ 501, 0)).1

/-- The waiting entries leave as UPDATE blocks; `fuel` bounds their number. -/
def State.updateTx (s : State) : Nat → State
  | 0 => s
  | fuel + 1 =>
    if s.twin.updates = [] ∨ s.link ≠ 3 then s
    else
      let b := updateBlock (s.twin.updates.take 7)
      ({ s with twin := { s.twin with updates := s.twin.updates.drop 7 } }.pushBlock b).updateTx fuel

/-- A received SYNC_REQ: a lead answers it, unless its sender is itself lead (R480). [DEDUCED, log entry 129] -/
def State.syncReqRx (s : State) : State :=
  if s.link = 3 ∧ s.role ≠ 0 ∧ s.isLead ∧ !s.bit R.hingeStatus F.hingeStatus_peerLead ∧ s.twin.bulk.isNone then s.startBulk else s

/-- A received SYNC_START: a lead has no SYNC state of its own to move. [DEDUCED, log entry 129] -/
def State.syncStartRx (s : State) (b : Nat) : State :=
  if s.isLead then s
  else { s with twin := { s.twin with rxIndex := 0, rxGen := bitsOf b 503 488, rxCrc := 2 ^ 32 - 1 } }.setSync 1

/-- The transfer that is being received fails. -/
def State.syncFails (s : State) : State :=
  ((s.setSync 0).latch R.hingeStatus F.hingeStatus_syncFail).count R.hingeCounts0 F.hingeCounts0_syncFails

/-- A received SYNC_END. -/
def State.syncEndRx (s : State) (b : Nat) : State :=
  if s.isLead ∨ s.fld R.hingeStatus F.hingeStatus_sync ≠ 1 then s
  else if bitsOf b 503 488 = s.twin.rxGen ∧ s.twin.rxIndex = 3277 ∧ bitsOf b 487 456 = 2 ^ 32 - 1 - s.twin.rxCrc then
    (s.setSync 2).count R.hingeCounts0 F.hingeCounts0_syncs
  else s.syncFails

/-- The body of bulk codeword `k` as this terminal's entries stand (R479). -/
def State.bulkBody (s : State) (k : Nat) : Nat :=
  (List.range 320).foldl (fun a i => if 320 * k + i < 2 ^ 20 then a + flowSeq (s.flow (320 * k + i)) * 2 ^ (5104 - 16 * i) else a) 0

/-- A received bulk body. -/
def State.bulkRx (s : State) (body : Nat) : State :=
  if s.isLead ∨ s.fld R.hingeStatus F.hingeStatus_sync ≠ 1 then s
  else
    let k := s.twin.rxIndex
    let s := (List.range 320).foldl (fun s i =>
      if 320 * k + i < 2 ^ 20 then s.applySeq (320 * k + i) (bitsOf body (5119 - 16 * i) (5104 - 16 * i)) else s) s
    { s with twin := { s.twin with rxIndex := k + 1, rxCrc := crcRun 32 0x04C11DB7 s.twin.rxCrc (bitsMsb 5120 body) } }

/-! ## The lines of the lanes (R467) -/

/-- The seed of a lane's scrambler. -/
def hingeSeed (lane : Nat) : Nat := seedFix (0x2468ACE1 ^^^ lane)

/-- A lane marker of the hinge link: bits [15:14] the lane, the others 0. -/
def hingeMarker (lane : Nat) : List Nat := (bitsMsb 16 (lane * 2 ^ 14)).flatMap (fun b => if b then [3, 0, 3] else [0, 3, 0])

/-- Whether codeword `n` of the link has a lane marker before it: every 1,024th of its lane, from the first on.
[DESIGN CHOICE, log entry 188] -/
def markerDue (n : Nat) : Bool := n / 4 % 1024 == 0

/-- A lane after its marker: the marker's last level, the scrambler reloaded. -/
def markedLane (lane : Nat) : HingeLane := ⟨(hingeMarker lane).getLastD 0, hingeSeed lane, []⟩

/-- A lane as codeword `n` of the link finds it. -/
def laneFor (l : Tbl HingeLane) (n : Nat) : HingeLane :=
  if markerDue n then markedLane (n % 4) else Tbl.get (fun _ => {}) l (n % 4)

/-- The line levels of labels after level `y`. -/
def precodeAll : Nat → List Nat → List Nat
  | _, [] => []
  | y, l :: t => precode y l :: precodeAll (precode y l) t

/-- The labels of line levels after level `y`. -/
def unprecodeAll : Nat → List Nat → List Nat
  | _, [] => []
  | y, x :: t => unprecode y x :: unprecodeAll x t

/-- The levels of a codeword with 5,140 data bits on a lane, and the lane after them: encoded, scrambled, mapped, precoded. -/
def hingeLevels (lane : HingeLane) (data : BitVec 5140) : List Nat × HingeLane :=
  let c := (rsEncode (symbolsOf 514 (bitsMsb 5140 data.toNat))).flatMap (bitsMsb 10)
  let (b, scr) := scramble lane.scr c
  let l := precodeAll lane.last (labelsOf b)
  (l, ⟨l.getLastD lane.last, scr, l⟩)

/-- What the receiver makes of a codeword's levels on a lane: whether it is uncorrectable, its data bits, the lane after it. -/
def hingeReceive (lane : HingeLane) (levels : List Nat) : Bool × BitVec 5140 × HingeLane :=
  let (b, scr) := scramble lane.scr ((unprecodeAll lane.last levels).flatMap grayBits)
  let after : HingeLane := ⟨levels.getLastD lane.last, scr, levels⟩
  match rsDecode (symbolsOf 544 b) with
  | some c => (false, BitVec.ofNat 5140 (natOfBits ((c.take 514).flatMap (bitsMsb 10))), after)
  | none => (true, BitVec.ofNat 5140 (natOfBits (b.take 5140)), after)

/-! ## Codewords (R468 to R470) -/

/-- The effect of a received control block by its type; a reserved type is counted where the codeword is taken apart. -/
def State.hingeBlock (s : State) (b : BitVec 512) : State :=
  let n := b.toNat
  match bitsOf n 511 504 with
  | 1 => s.heartbeatRx n
  | 2 => s.updateRx n
  | 3 => s.syncReqRx
  | 4 => s.syncStartRx n
  | 5 => s.syncEndRx n
  | _ => s

/-- Take a received block out of those not yet acted on, the blocks before it being acted on first. [DEDUCED, log entry 127] -/
def State.takeBlock (s : State) (b : BitVec 512) : State :=
  match s.twin.inbox.findIdx? (· == b) with
  | none => s
  | some k => (s.twin.inbox.take k).foldl (fun s b => s.hingeBlock b) { s with twin := { s.twin with inbox := s.twin.inbox.drop (k + 1) } }

/-- Blocks of earlier codewords are acted on before a codeword is. [DEDUCED, log entry 127] -/
def State.hingeDrain (s : State) : State :=
  let l := s.twin.inbox
  l.foldl (fun s b => s.hingeBlock b) { s with twin := { s.twin with inbox := [] } }

/-- HINGE.SERDESl.LOOPBACK: 1 near-end serial, 2 far-end. -/
def State.hingeLoop (s : State) (lane : Nat) : Nat := s.fld (R.hingeSerdes lane) F.hingeSerdes_loopback

/-- What the next codeword's levels carry, and the state after its lane took them; in near-end loopback the lane takes what it sent (R56,
R321). [DEDUCED, log entry 127] -/
def State.hingeLine (s : State) (levels : List Nat) : Bool × BitVec 5140 × State :=
  let n := s.twin.rxCount
  let levels := if s.hingeLoop (n % 4) = 1 then (Tbl.get (fun _ => {}) s.twin.txLanes (n % 4)).levels else levels
  let (u, d, l) := hingeReceive (laneFor s.twin.rxLanes n) levels
  (u, d, { s with twin := { s.twin with rxCount := n + 1, rxLanes := Tbl.set (fun _ => {}) s.twin.rxLanes (n % 4) l } })

/-- A codeword is received. Its control blocks wait for the commands that act on them; a bulk body is applied. [DEDUCED, log entry 127] -/
def State.hingeCodeword (s : State) (levels : List Nat) : State :=
  if s.link < 2 then s
  else
    let (uncorr, data, s) := s.hingeDrain.hingeLine levels
    let n := data.toNat
    let kind := bitsOf n 5139 5136
    if uncorr then
      let s := s.count R.hingeCounts0 F.hingeCounts0_uncorr
      if kind = 1 ∧ !s.isLead ∧ s.fld R.hingeStatus F.hingeStatus_sync = 1 then s.syncFails else s
    else if kind = 0 then
      let l := (List.range 10).map (fun j => BitVec.ofNat 512 (bitsOf n (5119 - 512 * j) (4608 - 512 * j)))
      let typ := fun (b : BitVec 512) => bitsOf b.toNat 511 504
      let s := s.count R.hingeCounts1 F.hingeCounts1_unknown (l.filter (fun b => decide (6 ≤ typ b))).length
      { s with twin := { s.twin with inbox := l.filter (fun b => decide (1 ≤ typ b) && decide (typ b ≤ 5)) } }
    else if kind = 1 then s.bulkRx (bitsOf n 5119 0)
    else s.count R.hingeCounts1 F.hingeCounts1_unknown

/-- The next codeword is sent on its lane, behind a lane marker where one is due; a lane in far-end loopback sends what it received. -/
def State.hingeSend (s : State) : State :=
  if s.link = 0 then s
  else
    let out := fun (s : State) (kind body : Nat) =>
      let n := s.twin.txSeq
      let d := BitVec.ofNat 5140 (kind * 2 ^ 5136 + n % 2 ^ 16 * 2 ^ 5120 + body)
      let lane := (hingeLevels (laneFor s.twin.txLanes n) d).2
      let lane := if s.hingeLoop (n % 4) = 2 then { lane with levels := (Tbl.get (fun _ => {}) s.twin.rxLanes (n % 4)).levels } else lane
      { s with twin := { s.twin with
        tx := d, txLanes := Tbl.set (fun _ => {}) s.twin.txLanes (n % 4) lane, txSeq := (n + 1) % 2 ^ 16 } }
    if s.twin.blocks ≠ [] then
      let l := s.twin.blocks.take 10
      let body := (l.foldl (fun (a : Nat × Nat) b => (a.1 + b.toNat * 2 ^ (4608 - 512 * a.2), a.2 + 1)) (0, 0)).1
      out { s with twin := { s.twin with blocks := s.twin.blocks.drop 10 } } 0 body
    else
      match s.twin.bulk with
      | none => out s 0 0
      | some k =>
        let body := s.bulkBody k
        let crc := crcRun 32 0x04C11DB7 s.twin.bulkCrc (bitsMsb 5120 body)
        let s := out { s with twin := { s.twin with bulk := some (k + 1), bulkCrc := crc } } 1 body
        if k + 1 < 3277 then s
        else { s with twin := { s.twin with bulk := none } }.pushBlock (0x05 * 2 ^ 504 + s.twin.bulkGen * 2 ^ 488 + (2 ^ 32 - 1 - crc) * 2 ^ 456)

/-! ## The lead by pin (R474) -/

/-- LEAD_SEL has held a level for 1 µs. -/
def State.leadSel (s : State) (level : Bool) : State :=
  if s.role = 0 ∨ !s.pinMode ∨ !s.domOn 29 ∨ s.twin.pinActed = level then s
  else { s with twin := { s.twin with pinActed := level } }.dueLead level

/-! ## Commands -/

/-- HINGE_EN_WRITE (R472): a write of HINGE.CFG. -/
def execHingeEnWrite (v : Word) (s : State) : Host.Outcome State Fault Refusal := .next (s.hingeCfgWrite v)

/-- HINGE_LANES_LOCKED (R472): the next codeword is the first after a marker of lane 0. [DEDUCED, log entry 127] -/
def execHingeLanesLocked (s : State) : Host.Outcome State Fault Refusal :=
  .next (if s.link = 1 then { s with twin := { s.twin with good := 0, rxCount := 0 } }.setLinkState 2 else s)

/-- HINGE_LOCK_LOST (R472). -/
def execHingeLockLost (s : State) : Host.Outcome State Fault Refusal := .next (if 2 ≤ s.link then s.hingeAcquire else s)

/-- HINGE_CODEWORD_RX (R468). -/
def execHingeCodewordRx (levels : List Nat) (s : State) : Host.Outcome State Fault Refusal :=
  .next (s.hingeCodeword levels)

/-- HEARTBEAT_TX (R471). -/
def execHeartbeatTx (s : State) : Host.Outcome State Fault Refusal :=
  .next (if 2 ≤ s.link then s.pushBlock s.heartbeat else s)

/-- HEARTBEAT (R471). -/
def execHeartbeat (b : BitVec 512) (s : State) : Host.Outcome State Fault Refusal := .next ((s.takeBlock b).heartbeatRx b.toNat)

/-- HEARTBEAT_TIMEOUT (R472). -/
def execHeartbeatTimeout (s : State) : Host.Outcome State Fault Refusal := .next (if s.link = 3 then s.hingeAcquire else s)

/-- UPDATE (R478). -/
def execUpdate (b : BitVec 512) (s : State) : Host.Outcome State Fault Refusal := .next ((s.takeBlock b).updateRx b.toNat)

/-- UPDATE_TX (R477). -/
def execUpdateTx (s : State) : Host.Outcome State Fault Refusal := .next (s.updateTx 4097)

/-- SYNC_REQ (R480). -/
def execSyncReq (b : BitVec 512) (s : State) : Host.Outcome State Fault Refusal := .next (s.takeBlock b).syncReqRx

/-- SYNC_REQ_TX (R480): every 100 µs while SYNC is NONE and the link UP. -/
def execSyncReqTx (s : State) : Host.Outcome State Fault Refusal :=
  .next (if s.link = 3 ∧ s.syncShown = 0 then s.pushBlock (0x03 * 2 ^ 504) else s)

/-- SYNC_START (R480). -/
def execSyncStart (b : BitVec 512) (s : State) : Host.Outcome State Fault Refusal := .next ((s.takeBlock b).syncStartRx b.toNat)

/-- SYNC_END (R480). -/
def execSyncEnd (b : BitVec 512) (s : State) : Host.Outcome State Fault Refusal := .next ((s.takeBlock b).syncEndRx b.toNat)

/-- LEAD_SEL_CHANGE (R474). -/
def execLeadSelChange (level : Bool) (s : State) : Host.Outcome State Fault Refusal := .next (s.leadSel level)

/-- DUAL_LEAD (R476): both twins have reported lead for 100 µs. -/
def execDualLead (s : State) : Host.Outcome State Fault Refusal :=
  .next (if s.role ≠ 0 ∧ s.isLead ∧ s.bit R.hingeStatus F.hingeStatus_peerLead ∧ 2 ≤ s.link then
    s.latch R.hingeStatus F.hingeStatus_dualLead else s)

/-- HINGE_CODEWORD_TX (R470). -/
def execHingeCodewordTx (s : State) : Host.Outcome State Fault Refusal := .next s.hingeSend

end Sys2Proof.Machine
end

