-- ==== Sys2Proof/Machine/FltOps.lean ====
section
/-!
DEFINITION. The fault collector's operations: latching (R507, R511 to R515), what each class D loses with its unit (R509), the one item
of a class U (R516), class F (R520, R521), the end of a restart (R512), the disposition queue (R518) and the ERR pair (R519).
-/

namespace Sys2Proof.Machine

/-! ## Items lost (R516) -/

/-- A packet in transit is given FAULT: its on-die cells freed, QM.DROP_COUNT cause FAULT, a record of KIND 1. -/
def State.losePiped (s : State) (src cls code : Nat) (p : Pkt) : State :=
  let s := (s.freeCells p.dir (cellsOf p.bytes.length)).qmDrop 8
  (s.departure p 9 (s.stamp (0x300 + p.chan)).short).report (Lost.packet src cls code p)

/-- Every packet that waits at a direction's pipes for classification. -/
def State.loseWaiting (s : State) (d : Dir) (src cls code : Nat) : State :=
  (List.range 8).foldl (fun s n => (s.pipe d n).foldl (fun s p => s.losePiped src cls code p) (s.setPipe d n [])) s

/-- Every packet of a direction's pipes. -/
def State.losePipes (s : State) (d : Dir) (src cls code : Nat) : State :=
  let s := s.loseWaiting d src cls code
  (List.range 8).foldl (fun s n => (s.classified d n).foldl (fun s p => s.losePiped src cls code p) (s.setClassified d n [])) s

/-- Packets of one queue that fall together: cells freed, counted as FAULT, one record of KIND 0 for the run. -/
def State.loseQueued (s : State) (q src cls code : Nat) (l : List QPkt) : State :=
  match l with
  | [] => s
  | x :: _ =>
    let item := fun (p : QPkt) => q * 2 ^ 48 + p.index % 2 ^ 48
    let last := l.getLast?.getD x
    let s := l.foldl (fun s p =>
      let s := (s.loseRest p.pkt).qmDrop 8
      let v := s.queue q
      (s.setQueue q { v with drop := (v.drop + 1) % 2 ^ 48 }).departure p.pkt 9 (s.stamp (0x300 + p.pkt.chan)).short) s
    s.report ⟨src, cls, 0, 0, code, l.length, item x, item last, l.foldl (fun n p => n + p.rest) 0, 0⟩

/-- The packets of every queue that a predicate selects, in ascending queue number. -/
def State.loseQueues (s : State) (src cls code : Nat) (f : QPkt → Bool) : State :=
  s.qm.queues.foldl (fun s e => s.loseQueued e.1 src cls code (e.2.pkts.filter f)) s

/-- A packet of an egress buffer: CLI TX_FAULT. -/
def State.loseEgress (s : State) (k src cls code : Nat) (p : Pkt) : State :=
  let s := s.cliCount k 15
  (s.departure p 9 (s.stamp (0x300 + k)).short).report (Lost.packet src cls code p)

/-- A cipher request ends with FAULT (R365): its record is of KIND 6. -/
def State.loseReq (s : State) (cls code : Nat) (r : CiphReq) : State :=
  let q := match r.who with | .look q => q | _ => 0x3F
  let w := r.tagId % 2 ^ 16 * 2 ^ 48 + q % 64
  let s := (s.ciphCount 13).report ⟨Src.ciph, cls, 6, 0, code, 1, w, w, 0, 0⟩
  match r.who with
  | .look q =>
    let s := if r.bound.isSome then (s.laProduce r).1 else s
    { s with ciph := { s.ciph with results := s.ciph.results ++ [CiphDone.mk r.num 5 [] 0] } }.laFlush q (s.laLevel q)
  | _ => s.inlineEnd r 5 [] 0

/-- Remove a request from engines and queues. -/
def State.pullReq (s : State) (n : Nat) : State :=
  let s := { s with ciph := { s.ciph with
    waiting := s.ciph.waiting.filter (fun r => r.num != n), suspended := s.ciph.suspended.filter (fun r => r.num != n) } }
  (List.range 96).foldl (fun s e => if (s.engine e).any (fun r => r.num == n) then s.setEngine e none else s) s

/-- The requests in the cipher unit. -/
def State.allReqs (s : State) : List CiphReq := s.runningReqs ++ s.ciph.suspended ++ s.ciph.waiting

/-! ## Class D: the unit is lost (R509) -/

/-- The UBB is lost: bursts under build and in progress end FAULT; entries survive (R142). [DEDUCED, log entry 144] -/
def State.ubbLost (s : State) : State :=
  let s := s.count R.ubbStatus F.ubbStatus_restarts
  let s := s.ubb.builds.foldl (fun s b => s.failBuild b (fun _ => 15) 15) s
  (List.range 24).foldl (fun s p => s.stopPlane p) s

/-- A medium quad is lost: its bursts ABANDONED, its planes in SEARCH. -/
def State.quadLost (s : State) (q : Nat) : State :=
  (List.range 4).foldl (fun s i => (s.haltPlane (4 * q + i) 8).abandonFrame (4 * q + i)) s

/-- A client octet is lost: egress buffers TX_FAULT, links down (R305). -/
def State.octetLost (s : State) (o code : Nat) : State :=
  (List.range 8).foldl (fun s i =>
    let k := 8 * o + i
    let l := (s.port k).egress
    let s := ((s.setPort k { s.port k with egress := [], guarded := [], sealing := none }).setLink k false).ptpDisable k
    l.foldl (fun s p => s.loseEgress k (Src.cli o) 2 code p) s) s

/-- Whether a packet has a cell in HBM stack `k` (R271). [DEDUCED, log entry 144; DESIGN CHOICE, log entry 171] -/
def QPkt.inStack (p : QPkt) (k : Nat) : Bool := decide (0 < inStackOf k p.cells)

/-- The downstream pipes are lost with the parcels that the resequencer and the reassembly hold. [DEDUCED, log entry 144] -/
def State.pktdLost (s : State) (code : Nat) : State :=
  let s := s.losePipes .dn Src.pktd 2 code
  let s := s.dfp.rsq.foldl (fun s e =>
    let s := e.2.held.foldl (fun s x => (s.freeCells .dn (cellsOf x.data.length)).loseParcel Src.pktd 2 code x.plane x.frame x.hdr) s
    s.setRsq e.1 { s.rsq e.1 with held := [] }) s
  let s := s.dfp.reasm.foldl (fun (s : State) e => s.freeCells .dn (partCells e.2.parts)) s
  let parts := s.dfp.reasm.flatMap (fun e => e.2.parts)
  parts.foldl (fun s x => s.loseParcel Src.pktd 2 code x.plane x.frame x.hdr) { s with dfp := { s.dfp with reasm := [] } }

/-- The DFP is lost: the frames in progress, and the parcels it has submitted. -/
def State.dfpLost (s : State) (code : Nat) : State :=
  let l := s.dfp.opening
  let s := { s with dfp := { s.dfp with opening := [] } }
  let s := l.foldl (fun s o => (s.dropReq o.req).loseParcel Src.dfp 2 code o.plane o.frame o.hdr) s
  (List.range 24).foldl (fun s p => (s.abandonFrame p).setDplane p { (s.abandonFrame p).dplane p with taking := false, ignoring := true, grantsDone := true, msgLeft := 0 }) s

/-- The parcels whose cells the resequencer and the reassembly hold fall with the QM (R264, R286). [DEDUCED, log entry 172] -/
def State.loseParcelCells (s : State) : State :=
  let s := s.dfp.rsq.foldl (fun s e =>
    e.2.held.foldl (fun s x => s.noCell [x] (cellsOf x.data.length)) (s.setRsq e.1 { s.rsq e.1 with held := [] })) s
  s.dfp.reasm.foldl (fun s e => if partCells e.2.parts = 0 then s else (s.setReasm e.1 {}).noCell e.2.parts (partCells e.2.parts)) s

/-- A packet in transit whose cells a pool holds outside the pipes and queues falls with the QM. [DEDUCED, log entry 144] -/
def State.loseCells (s : State) (code : Nat) (p : Pkt) : State :=
  ((s.freeCells p.dir (cellsOf p.bytes.length)).qmDrop 8).report (Lost.packet Src.qm 2 code p)

/-- The dumps built, the packets that PKT_TX channels offer and the packets that clauses hold fall with the QM (R264, R286).
[DEDUCED, log entry 144] -/
def State.loseHandled (s : State) (code : Nat) : State :=
  let dumps := s.mon.built.filterMap (·.2)
  let s := dumps.foldl (fun s p => (s.loseCells code p).count R.monStatus F.monStatus_lost) { s with mon := { s.mon with built := [] } }
  let s := s.host.chans.foldl (fun s e =>
    match e.2.offer, e.2.desc with
    | some p, some w => (s.loseCells code p).wbPlain e.1 w 9 0 (false, false)
    | some p, none => (s.loseCells code p).setChan e.1 { s.chan e.1 with offer := none }
    | none, _ => s) s
  let packet := fun (h : Held) => h.kind != 1
  let held := s.allCtxs.flatMap (fun t => t.objects.filter packet)
  held.foldl (fun s h => s.loseCells code h.pkt) (s.mapCtxs (fun t => { t with h := t.h.filter (fun e => !(e.2.any packet)) }))

/-- The QM is lost: every packet in its pools; descriptors and counters survive, shaper credits are FULL (R286).
[DEDUCED, log entry 144] -/
def State.qmLost (s : State) (code : Nat) : State :=
  let s := s.loseQueues Src.qm 2 code (fun _ => true)
  let s := (s.losePipes .up Src.qm 2 code).losePipes .dn Src.qm 2 code
  let s := s.loseParcelCells.loseHandled code
  let full := fun (n : Node) => if n.shapeEn then { n with credit := n.cap, touched := s.qm.tick, held := none } else n
  { s with qm := { s.qm with nodes := s.qm.nodes.map (fun e => (e.1, full e.2)) } }

/-- The cipher unit is lost: every queued, running and suspended request ends with FAULT (R365). [DEDUCED, log entry 144] -/
def State.ciphLost (s : State) (code : Nat) : State :=
  let l := s.allReqs
  let s := { s with ciph := { s.ciph with running := [], waiting := [], suspended := [] } }
  let s := l.foldl (fun s r => s.loseReq 2 code r) s
  s.ciph.slots.foldl (fun s e => s.zeroise e.1) s

/-- What a class D fault of a source loses. [DEDUCED, log entry 144] -/
def State.unitLost (s : State) (src code : Nat) : State :=
  if src = Src.preura then (if s.preuraState = 3 then s else s.setPreura 3)
  else if src = Src.ward then (s.setWard F.wardStatus_restartHold true).ubbLost
  else if src = Src.time then s.lpStop
  else if src = Src.medTxpll then
    { (List.range 24).foldl (fun s p => s.haltPlane p 8) s with med := { s.med with txWait := true } }
  else if src ≤ 10 then s.quadLost (src - 5)
  else if src ≤ 22 then s.octetLost (src - 11) code
  else if src = Src.pcie then { s.linkLost 2 code with host := { (s.linkLost 2 code).host with fetching := false } }
  else if src = Src.hbm 0 ∨ src = Src.hbm 1 then s.loseQueues src 2 code (·.inStack (src - 24))
  else if src = Src.pktu then s.losePipes .up Src.pktu 2 code
  else if src = Src.pktd then s.pktdLost code
  else if src = Src.ubb then s.ubbLost
  else if src = Src.dfp then s.dfpLost code
  else if src = Src.cls then (s.loseWaiting .up Src.cls 2 code).loseWaiting .dn Src.cls 2 code
  else if src = Src.qm then s.qmLost code
  else if src = Src.ciph then s.ciphLost code
  else if src = Src.circ then s.circLose 2 code
  else if src = Src.lim0 ∨ src = Src.lim1 then s.clusterLost (src - Src.lim0)
  else if src = Src.hinge then s.hingeOff
  else s

/-! ## Class U: one item -/

/-- Take the item at a place out of a list. -/
def pickAt {α : Type} (l : List α) (i : Nat) : Option (α × List α) := (l[i]?).map (fun x => (x, l.eraseIdx i))

/-- The one item that a class U fault of a source strikes is given FAULT. An item that the source does not hold is none.
[DEDUCED, log entry 142] -/
def State.itemLost (s : State) (src code : Nat) (i : FaultItem) : State :=
  match i with
  | .piped d n done pos =>
    if src = d.src ∨ (src = Src.cls ∧ done = false) then
      match pickAt (if done then s.classified d n else s.pipe d n) pos with
      | some (p, l) => (if done then s.setClassified d n l else s.setPipe d n l).losePiped src 1 code p
      | none => s
    else s
  | .queued q pos =>
    match (s.queue q).pkts[pos]? with
    | some p => if src = Src.qm ∨ ((src = Src.hbm 0 ∨ src = Src.hbm 1) ∧ p.inStack (src - 24)) then s.loseQueued q src 1 code [p] else s
    | none => s
  | .egress k pos =>
    if src = Src.cli (k / 8) then
      match pickAt (s.port k).egress pos with
      | some (p, l) => (s.setPort k { s.port k with egress := l }).loseEgress k src 1 code p
      | none => s
    else s
  | .burst p =>
    match s.ubb.builds.find? (fun b => !b.launched && b.grants.any (fun g => g.plane == p.val)) with
    | some b => if src = Src.ubb then
        let w := p.val * 2 ^ 48 + (b.grants.map (·.frame)).headD 0
        (s.failBuild b (fun _ => 15) 6).report ⟨src, 1, 3, 0, code, 1, w, w, 0, 0⟩ else s
    | none => s
  | .opening pos =>
    match pickAt s.dfp.opening pos with
    | some (o, l) => if src = Src.dfp then
        ({ s with dfp := { s.dfp with opening := l } }.dropReq o.req).loseParcel src 1 code o.plane o.frame o.hdr else s
    | none => s
  | .held f pos =>
    match pickAt (s.rsq f).held pos with
    | some (x, l) => if src = Src.pktd then
        ((s.setRsq f { s.rsq f with held := l }).freeCells .dn (cellsOf x.data.length)).loseParcel src 1 code x.plane x.frame x.hdr else s
    | none => s
  | .container queued c pos =>
    if src ≠ Src.circ then s
    else if queued then
      match pickAt s.circ.queue pos with
      | some (x, l) => ({ s with circ := { s.circ with queue := l } }.circCount 12).report (x.lost src 1 code)
      | none => s
    else
      match pickAt (s.circuit c).held pos with
      | some (x, l) => ((s.setCircuit c { s.circuit c with held := l }).circCount 12).report (x.lost src 1 code)
      | none => s
  | .request n =>
    match s.allReqs.find? (fun r => r.num == n) with
    | some r => if src = Src.ciph then ((s.pullReq n).loseReq 1 code r).zeroise r.slot else s
    | none => s
  | .keySlot n =>
    if src = Src.ciph then
      ((s.setSlot n {}).ciphCount 12).report ⟨src, 1, 9, 0, code, 1, n, n, 0, 0⟩
    else s
  | .none => s

/-! ## Latching (R507, R511 to R515) -/

/-- The classes a source can raise (R509): 0 C, 1 U, 2 D, 3 F. -/
def raises (src cls : Nat) : Bool :=
  if src = 0 ∨ src = 4 then cls == 2
  else if src = 1 then cls == 2 || cls == 3
  else if src = 2 then cls == 3
  else if src = 3 ∨ (5 ≤ src ∧ src ≤ 10) ∨ src = 23 ∨ src = 34 ∨ src = 35 ∨ src = 37 then cls == 0 || cls == 2
  else if src = 36 then cls == 1
  else decide (src < 36) && decide (cls < 3)

/-- The domain of a source; none for one in AON. -/
def sourceDomain (src : Nat) : Option Nat := (List.range 30).find? (fun d => (sourcesOf d).contains src)

/-- Whether a source's pairs are clamped (R508): its domain is not ON, or was not for 1 µs yet. [DEDUCED, log entry 154] -/
def State.clamped (s : State) (src : Nat) : Bool :=
  s.flt.clamped.contains src || (match sourceDomain src with | some d => !s.domOn d | none => false)

/-- The info word of a capture (R515). [DEDUCED, log entry 143] -/
def capInfo (src cls code : Nat) (wire : Bool) : Nat :=
  2 ^ 63 + b2n wire * 2 ^ 62 + src % 64 * 2 ^ 56 + cls % 4 * 2 ^ 54 + code % 2 ^ 16 * 2 ^ 32

/-- The first-fault capture of a class and the capture queue of 64. [DEDUCED, log entry 143] -/
def State.capture515 (s : State) (src cls code : Nat) (wire : Bool) : State :=
  let t := s.stamp 1
  let w := BitVec.ofNat 64 (capInfo src cls code wire)
  let k := cls - 1
  let s := if s.bit (R.fltFirstInfo k) F.fltFirstInfo_valid then s
    else ((s.setReg (R.fltFirstInfo k) w).setReg (R.fltFirstSec k) t.hiWord).setReg (R.fltFirstNs k) t.loWord
  if s.flt.captures.length < 64 then { s with flt := { s.flt with captures := s.flt.captures ++ [(w, t)] } }
  else s.count R.fltStatus F.fltStatus_capLost

/-- A class F (R521): FATAL, transmit off, the terminal STOPPED by hardware, and for THERMAL the forced shutdown.
[DEDUCED, log entries 145 and 148] -/
def State.fatal (s : State) (src : Nat) : State :=
  let s := (s.setWard F.wardStatus_fatal true).cutAll
  let s := (s.setTerm 8).setFld R.sysTermState F.sysTermState_stopCause 3
  if src = Src.thermal then s.forcedShutdown else s

/-- GATE.EVENT.FAULT, where the PCIE domain has power. -/
def State.gateFault (s : State) : State := if s.domOn 0 then s.gateEvent 5 else s

/-- The collector latches an error of a source. A wire fault is of class D for every source but WARD and THERMAL (R507), for LIM too,
which has no unit to restart (R509). [DEDUCED, log entries 142 and 143] -/
def State.faultLatch (s : State) (src cls code : Nat) (item : FaultItem) (wire : Bool) : State :=
  if (!raises src cls && !wire) || s.clamped src then s
  else
    let b : Fld := ⟨src, src⟩
    match cls with
    | 0 =>
      let s := (s.latch R.fltStatusC b).count (R.fltCCount src) F.fltCCount_count
      ((List.range 256).filter (fun u => unitSource u == some src)).foldl (fun (s : State) u => s.pmcEvent u 6) s
    | 1 => ((s.capture515 src 1 code wire).latch R.fltStatusU b).itemLost src code item
    | 2 =>
      let s := { s with flt := { s.flt with latched := Tbl.set (fun _ => none) s.flt.latched src (some (code, s.stamp 1)) } }
      let s := ((s.capture515 src 2 code wire).latch R.fltStatusD b).setFld R.fltRestarting b (b2n (src != Src.lim))
      let s := if s.fld R.fltMaskErr b = 0 then s.gateFault else s
      s.unitLost src code
    | _ => (((s.capture515 src 3 code wire).setFld R.fltStatusF b 1).gateFault).fatal src

/-- Take an error that a unit signalled off its pair. [DEDUCED, log entry 142] -/
def State.takeWire (s : State) (src cls code : Nat) : State := { s with wires := s.wires.erase (src, cls, code) }

/-- A wire fault (R507). [DEDUCED, log entries 145 and 189] -/
def State.wireFault (s : State) (src : Nat) : State :=
  if s.clamped src then s
  else
    let s := s.latch R.fltWire ⟨src, src⟩
    let cls := if src = Src.ward ∨ src = Src.thermal then 3 else 2
    s.faultLatch src cls (faultCode src 6) .none true

/-! ## The end of a restart (R512) -/

/-- A unit has completed its restart interval with no new class D. [DEDUCED, log entry 146] -/
def State.restartDone (s : State) (src : Nat) : State :=
  if !s.restarting src || src == Src.preura || (src == Src.medTxpll && (!s.med.txLock || s.med.txWait)) then s
  else
    let s := s.setFld R.fltRestarting ⟨src, src⟩ 0
    if src = Src.ward then (s.setWard F.wardStatus_restartHold false).wardFree.lateBuilds
    else if src = Src.ubb then s.lateBuilds
    else if src = Src.lim0 ∨ src = Src.lim1 then s.clusterBack (src - Src.lim0)
    else if src = Src.hinge then (if s.bit R.hingeCfg F.hingeCfg_en then s.setLinkState 1 else s)
    else s

/-! ## Registers of the collector (R513, R515, R518, R519) -/

/-- A W1C write of STATUS_C (0), STATUS_U (1) or STATUS_D (2): bits of STATUS_D whose sources restart stay. -/
def State.statusClear (s : State) (k : Nat) (v : BitVec 64) : State :=
  let a := if k = 0 then R.fltStatusC else if k = 1 then R.fltStatusU else R.fltStatusD
  let v := if k = 2 then v &&& ~~~(s.reg R.fltRestarting) else v
  s.setReg a (s.reg a &&& ~~~v)

/-- Preura removes the head of the capture queue and logs it as FAULT (R491, R515).
[DESIGN CHOICE, log entry 134; DEDUCED, log entry 147] -/
def State.capPop (s : State) : State :=
  match s.flt.captures with
  | [] => s
  | (w, t) :: rest =>
    if s.firmware then ({ s with flt := { s.flt with captures := rest } }).logPut 2 0 t [w] else s

/-- Overflow records, one for each source and kind that holds a count, while there is room. -/
def State.dispOverflow (s : State) : Nat → State
  | 0 => s
  | fuel + 1 =>
    match s.flt.lostCnt with
    | [] => s.setFld R.fltStatus F.fltStatus_overflow 0
    | (k, n) :: rest =>
      if 4096 ≤ s.flt.disp.length then s
      else
        let src := k / 16
        let l : Lost := ⟨src, if src = Src.lim then 1 else 2, 10, 0, s.lostCode src, n, 0, 0, k % 16, 0⟩
        let s := { s with flt := { s.flt with lostCnt := rest, index := s.flt.index + 1, disp := s.flt.disp ++ [l.words s.flt.index (s.stamp 1)] } }
        (s.latch R.fltStatus F.fltStatus_dispAdded).dispOverflow fuel

/-- A write of DISP_CTL with POP. -/
def State.dispPop (s : State) (v : BitVec 64) : State :=
  if !bitOf v.toNat 0 ∨ s.flt.disp = [] then s
  else
    let s := { s with flt := { s.flt with disp := s.flt.disp.drop 1 } }
    if s.flt.lostCnt = [] then s else s.dispOverflow (s.flt.lostCnt.length + 1)

/-- Whether the ERR pair is asserted (R519). -/
def State.errAsserted (s : State) : Bool :=
  (s.reg R.fltStatusD &&& ~~~(s.reg R.fltMaskErr)) != 0 || s.reg R.fltStatusF != 0

/-- What drives ERR_P and ERR_N: 0 low/low, 1 high/low, 2 low/high. -/
def State.errDrive (s : State) : Nat :=
  if !s.bit R.fltStatus F.fltStatus_ready then 0 else if s.errAsserted then 2 else 1

end Sys2Proof.Machine
end

