-- ==== Sys2Proof/Machine/Flt.lean ====
section
/-!
DEFINITION. The meanings of the fault collector's commands (R507 to R519).
-/

namespace Sys2Proof.Machine

/-- FAULT_LATCH (R511): an error of a source on its pair of a class, with the CODE of the fault and, for class U, the item it strikes. -/
def execFaultLatch (src : Fin 38) (cls : Fin 4) (code : BitVec 16) (item : FaultItem) (s : State) : Host.Outcome State Fault Refusal :=
  .next ((s.takeWire src cls code.toNat).faultLatch src cls code.toNat item false)

/-- WIRE_FAULT (R507). -/
def execWireFault (src : Fin 38) (s : State) : Host.Outcome State Fault Refusal := .next (s.wireFault src)

/-- UNIT_RESTART_DONE (R512). -/
def execUnitRestartDone (src : Fin 38) (s : State) : Host.Outcome State Fault Refusal := .next (s.restartDone src)

/-- FLT_STATUS_CLEAR (R513): a W1C write of STATUS_C, STATUS_U or STATUS_D. -/
def execFltStatusClear (k : Fin 3) (v : Word) (s : State) : Host.Outcome State Fault Refusal := .next (s.statusClear k v)

/-- CAP_POP (R515). -/
def execCapPop (s : State) : Host.Outcome State Fault Refusal := .next s.capPop

/-- DISP_POP (R518): a write of FLT.DISP_CTL. -/
def execDispPop (v : Word) (s : State) : Host.Outcome State Fault Refusal := .next (s.dispPop v)

/-- PIN_FAULT (R519). -/
def execPinFault (s : State) : Host.Outcome State Fault Refusal := .next (s.latch R.fltStatus F.fltStatus_pinFault)

/-- FLT_READY (R519): within 20 µs of the release of PORST_N. -/
def execFltReady (s : State) : Host.Outcome State Fault Refusal :=
  .next (if s.pwr.porst then s else s.setBit R.fltStatus F.fltStatus_ready true)

end Sys2Proof.Machine
end

