-- ==== Sys2Proof/Machine/HostCmd.lean ====
section
/-!
DEFINITION. The meanings of the commands of GATE, DMA and PCIE (R434 to R463).
-/

namespace Sys2Proof.Machine

/-- CMD_DOORBELL (R439). A write of TAIL to GATE.CMD_IDX submits command blocks for fetching. -/
def execCmdDoorbell (v : Word) (s : State) : Host.Outcome State Fault Refusal :=
  .next (s.cmdDoorbell v)

/-- CMD_FETCH (R439). GATE completes the fetch of a ring entry, its block header and its instructions into the command store, and HEAD advances. -/
def execCmdFetch (err poisoned : Bool) (entry : Word) (hdr : List Word) (code : List (BitVec 32)) (s : State) :
    Host.Outcome State Fault Refusal :=
  .next (s.cmdFetch err poisoned entry hdr code)

/-- CMD_CTL_WRITE (R440). A write to GATE.CMD_CTL or CMD_BASE enables, disables or restarts the ring and changes base or size only while EN was 0 and no fetch runs. -/
def execCmdCtlWrite (base : Bool) (v : Word) (s : State) : Host.Outcome State Fault Refusal :=
  .next (if base then s.cmdBaseWrite v else s.cmdCtlWrite v)

/-- CPL_RECORD_WRITE (R441). A waiting completion record is written to the completion ring once it has room, TAIL is written back and the CPL event is raised. -/
def execCplRecordWrite (s : State) : Host.Outcome State Fault Refusal :=
  .next (s.cplWrite)

/-- CPL_HEAD_WRITE (R441). The host writes the completion ring HEAD to free records. -/
def execCplHeadWrite (v : Word) (s : State) : Host.Outcome State Fault Refusal :=
  .next (s.setFld R.gateCplIdx F.gateCplIdx_head v.toNat)

/-- PL_SET_AREA (R442). GATE.PL_CTL operation SET_AREA sets the HBM program area while no core has a loaded active bank. -/
def execPlSetArea (v : Word) (s : State) : Host.Outcome State Fault Refusal :=
  .next (s.plCtlWrite (withOp 63 62 1 v))

/-- PL_LOAD (R442). GATE.PL_CTL operation LOAD sets LSCH.IMG_ADDR and starts the loader while no core has a loaded active bank. -/
def execPlLoad (v : Word) (s : State) : Host.Outcome State Fault Refusal :=
  .next (s.plCtlWrite (withOp 63 62 2 v))

/-- PERST_N (R435). PERST_N or hot reset sets GATE, DMA and PCIE to reset values and starts link training. -/
def execPerstN (s : State) : Host.Outcome State Fault Refusal :=
  .next (s.perst)

/-- FUNCTION_LEVEL_RESET (R435). A function-level reset sets the function's channels to IDLE and loses descriptors in flight. -/
def execFunctionLevelReset (func : Fin 64) (s : State) : Host.Outcome State Fault Refusal :=
  .next (s.functionReset func)

/-- PCIE_READY (R435). The port becomes ready and stops answering configuration requests with Request Retry Status.
[DEDUCED, log entry 123] -/
def execPcieReady (s : State) : Host.Outcome State Fault Refusal :=
  .next ({ s with host := { s.host with ready := true, training := false } })

/-- CH_START (R452). CH_CTL operation START copies the shadow set and starts the channel at HEAD. -/
def execChStart (c : Fin 512) (s : State) : Host.Outcome State Fault Refusal :=
  .next (s.chStart c)

/-- CH_PAUSE (R452). CH_CTL operation PAUSE stops new reads and drains the channel. -/
def execChPause (c : Fin 512) (s : State) : Host.Outcome State Fault Refusal :=
  .next (s.chPause c)

/-- CH_RESUME (R452). CH_CTL operation RESUME continues a paused channel from its saved point. -/
def execChResume (c : Fin 512) (s : State) : Host.Outcome State Fault Refusal :=
  .next (s.chResume c)

/-- CH_STOP (R452). CH_CTL operation STOP drains the channel and aborts the descriptor in progress. -/
def execChStop (c : Fin 512) (s : State) : Host.Outcome State Fault Refusal :=
  .next (s.chStop c)

/-- CH_DOORBELL (R453). A write to CH_DOORBELL sets DB_PENDING and runs the chain check while PARKED. -/
def execChDoorbell (c : Fin 512) (s : State) : Host.Outcome State Fault Refusal :=
  .next (s.chDoorbell c)

/-- CHAIN_END_CHECK (R453). The flag-word read of the last descriptor returns and the engine continues the chain, reads again or parks. -/
def execChainEndCheck (c : Fin 512) (endBit : Option Bool) (next : Option Word) (poisoned : Bool) (s : State) :
    Host.Outcome State Fault Refusal :=
  .next (s.chainEnd c endBit next poisoned)

/-- DESC_FETCH (R444). A descriptor read returns and its transfer starts, or it is written back BAD_DESC. -/
def execDescFetch (c : Fin 512) (words : Option (List Word)) (poisoned wbFail ringFail : Bool) (s : State) :
    Host.Outcome State Fault Refusal :=
  .next (s.descFetch c words poisoned (wbFail, ringFail))

/-- DESC_DONE (R445). A descriptor's transfer completes and it is written back, with record, tail writeback and interrupt in order. -/
def execDescDone (c : Fin 512) (t : Transfer) (s : State) : Host.Outcome State Fault Refusal :=
  .next (s.descDone c t)

/-- CH_DRAIN_DONE (R452). A pausing or stopping channel completes its drain and becomes PAUSED, STOPPED or RUNNING. -/
def execChDrainDone (c : Fin 512) (t : Transfer) (s : State) : Host.Outcome State Fault Refusal :=
  .next (s.drainDone c t)

/-- PCIE_LINK_DOWN (R452). The link goes down and every channel not IDLE enters CHAIN_BROKEN with CAUSE LINK. -/
def execPcieLinkDown (s : State) : Host.Outcome State Fault Refusal :=
  .next (s.linkLost 2 0)

/-- BME_CLEAR (R452). Bus Master Enable is cleared or D3hot entered, breaking the function's channels with CAUSE BME.
[DEDUCED, log entry 123] -/
def execBmeClear (func : Fin 64) (s : State) : Host.Outcome State Fault Refusal :=
  .next (s.chBreakAll (fun c => s.chOwner c == func) 6 2 0)

/-- PKT_TX_INJECT (R448). A PKT_TX packet read whole is taken by its pipe and the descriptor written back. -/
def execPktTxInject (c : Fin 512) (data : List Byte) (wbFail ringFail : Bool) (s : State) : Host.Outcome State Fault Refusal :=
  .next (s.pktTx c data (wbFail, ringFail))

/-- CH_RING_HEAD_WRITE (R451). The host writes a disposition ring HEAD, freeing space for a waiting record. -/
def execChRingHeadWrite (c : Fin 512) (v : Word) (s : State) : Host.Outcome State Fault Refusal :=
  .next (s.ringHead c v)

/-- IRQ_HOLDOFF_EXPIRY (R455). A channel's interrupt holdoff ends and merged events are sent as one message. -/
def execIrqHoldoffExpiry (c : Fin 512) (s : State) : Host.Outcome State Fault Refusal :=
  .next (s.holdoffEnds c)

/-- CH_OWNER_WRITE (R460). A write to GATE.CH_OWNER assigns a channel to a function or is refused with OWNER_REFUSED. -/
def execChOwnerWrite (c : Fin 512) (v : Word) (s : State) : Host.Outcome State Fault Refusal :=
  .next (s.ownerWrite c v)

/-- VF_DISABLE (R460). Disabling VFs returns their channels to the PF and to IDLE. [DEDUCED, log entry 123] -/
def execVfDisable (s : State) : Host.Outcome State Fault Refusal :=
  .next (s.vfDisable)

/-- VF_ENABLE (R460). The host enables virtual functions under SR-IOV, and NUM_VFS rises so channels may be given to them.
[DEDUCED, log entry 123] -/
def execVfEnable (n : Fin 64) (s : State) : Host.Outcome State Fault Refusal :=
  .next (s.setFld R.pcieStatus F.pcieStatus_numVfs n)

/-- PCIE_LINK_UP (R461). The PCI Express link trains and DL_UP becomes 1. -/
def execPcieLinkUp (speed : Fin 8) (width : Fin 17) (flit : Bool) (s : State) : Host.Outcome State Fault Refusal :=
  .next (s.whenUp Src.pcie (·.linkTrained speed width flit))

/-- COMPLETION_TIMEOUT (R446). A DMA or command-ring read gets no completion within PCIE.CFG.CPL_TIMEOUT and ends as a bus error. -/
def execCompletionTimeout (c : Option (Fin 512)) (s : State) : Host.Outcome State Fault Refusal :=
  .next (s.cplTimeout (c.map (·.val)))

end Sys2Proof.Machine
end

