-- ==== Sys2Proof/Machine/Qm.lean ====
section
/-!
DEFINITION. The meanings of the commands of the queue manager and the scheduler (R264 to R292).
-/

namespace Sys2Proof.Machine

/-- The first classified packet of a pipe meets the admission test; one whose FCS or MACsec failed is freed without a count (R300).
[DEDUCED, log entry 65] -/
def State.packetAdmit (s : State) (d : Dir) (n : Nat) : State :=
  match s.classified d n with
  | [] => s
  | p :: rest =>
    let s := s.setClassified d n rest
    if p.bad then s.freeCells p.dir (cellsOf p.bytes.length) else s.takeIn p

/-- The oldest packet of an upstream queue that is being written to HBM is there: it joins its queue, its on-die cells are freed
and its head is presented (R265, R283). -/
def State.hbmWritten (s : State) (q : Nat) : State :=
  match (s.queue q).pkts.find? (fun p => p.medium == .writing) with
  | none => s
  | some p =>
    let put := fun (x : QPkt) => if x.pkt.id = p.pkt.id then { x with medium := Medium.hbm } else x
    let s := (s.freeCells p.pkt.dir (cellsOf p.pkt.bytes.length)).setQueue q { s.queue q with pkts := (s.queue q).pkts.map put }
    s.presentNotLead

/-- The oldest packet of a queue that is being read back is on die again (R266), once cells are free. [DEDUCED, log entry 66] -/
def State.spillRead (s : State) (q : Nat) : State :=
  match (s.queue q).pkts.find? (fun p => p.medium == .reading) with
  | none => s
  | some p =>
    let n := cellsOf p.pkt.bytes.length
    if s.dieFree p.pkt.dir < n then s
    else
      let put := fun (x : QPkt) => if x.pkt.id = p.pkt.id then { x with medium := Medium.die, cells := [] } else x
      ((s.setDieUsed p.pkt.dir (s.dieUsed p.pkt.dir + n)).hbmGive p.pkt.dir p.cells).setQueue q
        { s.queue q with pkts := (s.queue q).pkts.map put }

/-- Whether an HBM channel serves: its stack allocates cells, or holds some still (R270, R271). -/
def State.hbmServes (s : State) (ch : Nat) : Bool := bitOf s.stackEn (ch / 16) || decide (0 < s.stackUsed (ch / 16))

/-- A transfer of an HBM channel ends and its arbiter decides among the pending requesters (R272, R273). [DESIGN CHOICE, log entry 71] -/
def State.hbmTransfer (s : State) (ch : Nat) (pending : List HbmReq) : State :=
  if !s.hbmServes ch then s else
  let c := Tbl.get (fun _ => {}) s.qm.hbm ch
  let s := s.pmcEvent 0x91 0x13
  { s with qm := { s.qm with hbm := Tbl.set (fun _ => {}) s.qm.hbm ch (c.decide pending) } }

/-- An egress with room asks for a packet (R281): a client port, or a host channel with a receive buffer. Medium channels are served by
builds and the control-plane channel by PTAKE. -/
def State.egressSelect (s : State) (c : Nat) : State :=
  if c < 96 then s.portSelect c
  else if 120 ≤ c ∧ c ≤ 126 then s.hostSelect (c - 120)
  else s

/-- PACKET_ADMIT (R267). A packet whose last byte is buffered and whose classification is complete is admitted to its queue or dropped with a cause. -/
def execPacketAdmit (dir : Dir) (pipe : Fin 8) (s : State) : Host.Outcome State Fault Refusal :=
  .next (s.packetAdmit dir pipe)

/-- UP_HBM_WRITE_DONE (R265). An upstream packet's last cell is written to HBM, it joins its queue and its on-die cells are freed. -/
def execUpHbmWriteDone (q : Fin 16384) (s : State) : Host.Outcome State Fault Refusal :=
  .next (s.hbmWritten q)

/-- SPILL_READ_DONE (R266). The read-back of a spilled packet completes and its queue head becomes eligible. -/
def execSpillReadDone (q : Fin 16384) (s : State) : Host.Outcome State Fault Refusal :=
  .next (s.spillRead q)

/-- HBM_TRANSFER (R273). An HBM channel transfer reaches its last beat and the arbiter picks the next winner, rotating ranks and giving turn hints. -/
def execHbmTransfer (channel : Fin 32) (pending : List HbmReq) (s : State) : Host.Outcome State Fault Refusal :=
  .next (s.hbmTransfer channel pending)

/-- POOL_CFG_WRITE (R269). A write to QM.POOL_CFG or QM.HBM_CFG moves free cells between pools or is refused with POOL_REFUSED. -/
def execPoolCfgWrite (hbm : Bool) (v : Word) (s : State) : Host.Outcome State Fault Refusal :=
  .next (if hbm then s.writeHbmCfg v else s.writePoolCfg v)

/-- QM_READ (R289). QM.CMD operation READ reads a queue descriptor and its counters. -/
def execQmRead (v : Word) (s : State) : Host.Outcome State Fault Refusal :=
  .next (s.qmCmdWrite (withOp 57 56 0 v))

/-- QM_WRITE (R289). QM.CMD operation WRITE replaces a queue descriptor in one step. -/
def execQmWrite (v : Word) (s : State) : Host.Outcome State Fault Refusal :=
  .next (s.qmCmdWrite (withOp 57 56 1 v))

/-- QM_FLUSH (R286). QM.CMD operation FLUSH drops every packet of the queue as FLUSHED. -/
def execQmFlush (v : Word) (s : State) : Host.Outcome State Fault Refusal :=
  .next (s.qmCmdWrite (withOp 57 56 2 v))

/-- QM_CMD_DONE (R289). A QM command completes and STATUS leaves BUSY. -/
def execQmCmdDone (s : State) : Host.Outcome State Fault Refusal :=
  .next (s.qmCmdDone)

/-- EGRESS_SELECT (R281). An egress with room asks the scheduler, which selects a packet through channel, group and queue and removes it. -/
def execEgressSelect (channel : Fin 128) (s : State) : Host.Outcome State Fault Refusal :=
  .next (s.whenUp Src.qm (·.egressSelect channel))

/-- WHEEL_FIRE (R278). A tick fires a fine wheel slot, making held nodes eligible, or a coarse slot moving nodes to the fine wheel. -/
def execWheelFire (s : State) : Host.Outcome State Fault Refusal :=
  .next (s.wheelTick)

/-- SCH_READ (R291). SCH.CMD operation READ reads a queue, group or channel node. -/
def execSchRead (v : Word) (s : State) : Host.Outcome State Fault Refusal :=
  .next (s.schCmdWrite (withOp 57 56 0 v))

/-- SCH_WRITE (R291). SCH.CMD operation WRITE replaces a node and applies any shaper change under RESET_MODE. -/
def execSchWrite (v : Word) (s : State) : Host.Outcome State Fault Refusal :=
  .next (s.schCmdWrite (withOp 57 56 1 v))

/-- SCH_CMD_DONE (R291). An SCH command completes and STATUS leaves BUSY. -/
def execSchCmdDone (s : State) : Host.Outcome State Fault Refusal :=
  .next (s.schCmdDone)

end Sys2Proof.Machine
end

