-- ==== Sys2Proof/Machine/Views.lean ====
section
/-!
DEFINITION. What a control-space register reads as (R6, R7): the stored word, with the fields that hardware derives from its state laid
over it, every write-only field and every reserved bit zero.
-/

namespace Sys2Proof.Machine

/-- A word with a field replaced. -/
def lay (w : Nat) (f : Fld) (v : Nat) : Nat := setBitsOf w f.hi f.lo v

/-- The violations of the last second (R142). -/
def State.violations1s (s : State) : Nat :=
  min 3 s.recentViolations.length

/-- The domains whose clock is bit `b` of CLK.RUNNING; `none` for the clocks that never stop (R539, R540). -/
def clockFeeds (b : Nat) : Option (List Nat) :=
  if b = 0 then some [5, 6, 7, 8, 9, 10]
  else if b = 1 then some [1, 2]
  else if b = 2 then some [3]
  else if b = 3 then some [4]
  else if b = 4 then some [0]
  else if b ≤ 7 then none
  else if b ≤ 13 then some [11 + (b - 8)]
  else if b ≤ 25 then some [17 + (b - 14)]
  else if b ≤ 37 then some [17 + (b - 26)]
  else some [29]

/-- Whether a clock runs. -/
def State.clockRuns (s : State) (b : Nat) : Bool :=
  !s.pwr.porst && (match clockFeeds b with | none => true | some l => l.any s.domOn)

/-- CLK.RUNNING. -/
def State.clocks (s : State) : Nat := (List.range 40).foldl (fun w b => w + b2n (s.clockRuns b) * 2 ^ b) 0

/-- CTX of CORE.STATUS: 0 FREE, 1 RUNNABLE, 2 WAITING (R405). -/
def Ctx.shown (t : Ctx) : Nat := if t.clause.isNone then 0 else if t.wait.isNone then 1 else 2

/-- CORE.STATUS (R405). -/
def State.coreView (s : State) (c : Nat) : Nat :=
  let k := s.core c
  let ctx := (List.range 4).foldl (fun w x => w + (s.ctx c x).shown * 2 ^ (2 * x)) 0
  let sec := if k.active = 0 then k.section0 else k.section1
  ctx * 2 ^ 16 + sec % 16 * 2 ^ 8 + b2n k.standbyLoaded * 2 ^ 5 + b2n k.activeLoaded * 2 ^ 4 + k.active % 2 * 2 ^ 3 +
    min 7 (s.bankUsers c (1 - k.active))

/-- Registers of the hubward units: DFP (R108), UBB (R147), WARD (R153), TIME (R225), HINGE (R483). -/
def State.mediumView (s : State) (a w : Nat) : Nat :=
  if a = R.dfpStatus then
    lay (lay w F.dfpStatus_msgqLevel s.dfp.msgq.length) F.dfpStatus_msgqFull (b2n (decide (512 ≤ s.dfp.msgq.length)))
  else if a = R.dfpRsqStatus then lay w F.dfpRsqStatus_active s.rsqHolding.length
  else if a = R.ubbStatus then lay w F.ubbStatus_ready (b2n (s.domOn 9 && !s.ubbDown))
  else if a = R.wardStatus then lay w F.wardStatus_viol1s s.violations1s
  else if unitOf a = 0x05 ∧ 0x400 ≤ offOf a then
    let j := (offOf a - 0x400) / 0x20
    if a = R.timeTciCfg j then lay w F.timeTciCfg_level (s.capture j).length
    else if a = R.timeTciHi j then (s.tciHi j).toNat
    else (s.tciLo j).toNat
  else if a = R.hingeStatus then
    let w := lay (lay w F.hingeStatus_leadSrc (b2n s.pinMode)) F.hingeStatus_role s.role
    let w := lay w F.hingeStatus_strapBad (b2n (s.fld R.sysStraps F.sysStraps_twinRole == 3))
    lay (lay w F.hingeStatus_sync s.syncShown) F.hingeStatus_lead (b2n s.isLead)
  else w

/-- Registers of the packet path: CLS (R255), QM (R287), CIPH (R364, R371, R373), CIRC (R348). -/
def State.packetView (s : State) (a w : Nat) : Nat :=
  if a = R.clsStatus then lay w F.clsStatus_patThrottled (b2n (decide (0 < s.fld R.pwrDegrade F.pwrDegrade_level)))
  else if a = R.qmPoolUp then lay (lay w F.qmPoolUp_free (s.dieFree .up)) F.qmPoolUp_slowUsed (s.slowUsed .up)
  else if a = R.qmPoolDn then lay (lay w F.qmPoolDn_free (s.dieFree .dn)) F.qmPoolDn_slowUsed (s.slowUsed .dn)
  else if a = R.qmHbmUse then lay (lay w F.qmHbmUse_upUsed (s.hbmUsed .up)) F.qmHbmUse_dnUsed (s.hbmUsed .dn)
  else if a = R.qmHbmStack then
    lay (lay w F.qmHbmStack_used1 (s.stackUsed 1)) F.qmHbmStack_used0 (s.stackUsed 0)
  else if a = R.ciphStatus then
    lay (lay w F.ciphStatus_suspended s.ciph.suspended.length) F.ciphStatus_laEngines s.laEngines
  else if a = R.ciphKeyCtl then lay w F.ciphKeyCtl_op 0
  else if a = R.ciphKeyStatus then
    let n := s.fld R.ciphKeyCtl F.ciphKeyCtl_slot
    let k := s.slot n
    min 65535 (s.halfUsers n k.act) * 2 ^ 20 + min 65535 (s.halfUsers n k.pend) * 2 ^ 4 + k.pend.st % 4 * 4 + k.act.st % 4
  else if a = R.ciphKeyCheck then
    let k := s.slot (s.fld R.ciphKeyCtl F.ciphKeyCtl_slot)
    halfCheck k.act * 2 ^ 32 + halfCheck k.pend
  else if unitOf a = 0x95 ∧ 0x200 ≤ offOf a then lay w F.ciphLaqCfg_level (s.laLevel ((offOf a - 0x200) / 8))
  else if unitOf a = 0x96 ∧ 0x1000 ≤ offOf a ∧ offOf a < 0x4000 ∧ offOf a % 0x40 = 0x10 then
    if s.sdhLane ((offOf a - 0x1000) / 0x40) then lay w F.circLaneStatus_sdh 1 else 0
  else w

/-- Registers of client port `k` (R295, R296, R309, R323): those of a member lane read zero but for CFG and SERDES; in the SDH modes the
link, MAC and flow-control fields, the MAC counters among them, read zero. -/
def State.portView (s : State) (k a w : Nat) : Nat :=
  if s.cliMode k = 15 then (if a = R.cliCfg k ∨ a = R.cliSerdes k then w else 0)
  else if a = R.cliGclStatus k then lay w F.cliGclStatus_gates (s.gates k)
  else if a = R.cliGclData k then
    let bank := if s.bit (R.cliGclAddr k) F.cliGclAddr_bank then s.operBank k else 1 - s.operBank k
    (s.gclEntry k bank (s.fld (R.cliGclAddr k) F.cliGclAddr_index)).toNat
  else if s.sdhLane k then
    if a = R.cliStatus k then lay 0 F.cliStatus_modeRefused (bitsOf w 6 6)
    else if a = R.cliMacAddr k ∨ a = R.cliRxCfg k ∨ a = R.cliFcCfg k ∨ a = R.cliFcThr k ∨ (0x80 ≤ offOf a ∧ offOf a < 0x200) then 0
    else if a = R.cliCfg k then lay w F.cliCfg_fcMode 0
    else w
  else w

/-- Registers of the control plane: LSCH (R402), LATCH (R404), the cores (R405), DMA (R462, R463), GATE (R459). -/
def State.controlView (s : State) (a w : Nat) : Nat :=
  if a = R.lschStatus then
    let w := lay (lay w F.lschStatus_save0 (s.saveLevel 0)) F.lschStatus_save1 (s.saveLevel 1)
    lay w F.lschStatus_cbStore s.lsch.store.length
  else if a = R.latchStatus then
    lay (lay w F.latchStatus_held (s.lsch.latches.filter (fun e => e.2.holder.isSome)).length) F.latchStatus_broken
      (s.lsch.latches.filter (fun e => e.2.broken)).length
  else if 0xA0 ≤ unitOf a ∧ unitOf a ≤ 0xDF ∧ offOf a = 8 then s.coreView (unitOf a - 0xA0)
  else if a = R.dmaStatus then ((List.range 512).filter (fun c => s.chState c == 1 || s.chState c == 2)).length
  else if unitOf a = 0x98 ∧ offOf a % 0x1000 = 0xB8 then
    lay w F.dmaChId_func (s.chOwner ((offOf a - 0x10000) / 0x1000))
  else if a = R.gatePlStatus then (s.reg R.lschLoadCtl).toNat
  else w

/-- Registers of the management plane: FLT (R515, R518, R522), CLK (R549), MBOX (R504), SYS.RANDOM (R171). -/
def State.adminView (s : State) (a w : Nat) : Nat :=
  if a = R.fltStatus then lay (lay w F.fltStatus_dispLevel s.flt.disp.length) F.fltStatus_err s.errDrive
  else if a = R.fltCapInfo ∨ a = R.fltCapSec ∨ a = R.fltCapNs then
    match s.flt.captures with
    | [] => 0
    | (i, t) :: _ => if a = R.fltCapInfo then i.toNat else if a = R.fltCapSec then t.hiWord.toNat else t.loWord.toNat
  else if unitOf a = 0x04 ∧ 0x100 ≤ offOf a ∧ offOf a < 0x140 then
    match s.flt.disp with
    | [] => 0
    | r :: _ => (r.getD ((offOf a - 0x100) / 8) 0).toNat
  else if a = R.clkRunning then s.clocks
  else if a = R.mboxSwapCtl then lay w F.mboxSwapCtl_level s.preura.swaps.length
  else if unitOf a = 0x9D ∧ 0x30 ≤ offOf a ∧ offOf a ≤ 0x50 then
    match s.preura.swaps with
    | [] => 0
    | r :: _ => (r.getD ((offOf a - 0x30) / 8) 0).toNat
  else if a = R.sysRandom then (Config.freeValue s.free).toNat % 2 ^ 32
  else w

/-- The counter block of a unit (R551): PMC_CYCLES and the counters; the model counts no clock cycles, so cycle counts are free values.
[DESIGN CHOICE, log entry 6] -/
def State.pmcView (s : State) (a w : Nat) : Nat :=
  if offOf a = 0xF010 then (Config.freeValue s.free).toNat
  else if 0xF018 ≤ offOf a then (s.pmcShown (unitOf a) ((offOf a - 0xF018) / 8)).toNat
  else w

/-- The bits of a register that a read can show: its fields, write-only ones apart (R6, R7). -/
def readMask : List FieldDesc → Nat
  | [] => 0
  | f :: fs => (if f.access = .wo then 0 else (2 ^ (f.hi + 1 - f.lo) - 1) * 2 ^ f.lo) ||| readMask fs

/-- What the register at `a` reads as; zero where no register exists. [DEDUCED, log entries 16 and 19] -/
def State.regView (s : State) (a : Nat) : BitVec 64 :=
  match regDesc a with
  | none => 0
  | some d =>
    let u := unitOf a
    let w := (s.reg a).toNat
    let v :=
      if 0x30 ≤ u ∧ u ≤ 0x8F ∧ (offOf a < 0xF000 ∨ s.cliMode (u - 0x30) = 15) then s.portView (u - 0x30) a w
      else if 0xF000 ≤ offOf a ∧ offOf a < 0x10000 then s.pmcView a w
      else if u = 0xF0 ∨ u = 0xF1 ∨ u = 0x9C ∨ u = 0x05 ∨ u = 0x97 then s.mediumView a w
      else if u = 0x90 ∨ u = 0x91 ∨ u = 0x95 ∨ u = 0x96 then s.packetView a w
      else if u = 0x9A ∨ u = 0x9B ∨ u = 0x98 ∨ u = 0 ∨ (0xA0 ≤ u ∧ u ≤ 0xDF) then s.controlView a w
      else s.adminView a w
    BitVec.ofNat 64 (v &&& readMask d.fields)

/-- Whether a read of a register shows a free value. [DESIGN CHOICE, log entry 3] -/
def State.freeShown (s : State) (a : Nat) : Bool :=
  a == R.sysRandom || (decide (0xF010 ≤ offOf a) && decide (offOf a < 0x10000) &&
    (offOf a == 0xF010 || cycleCode (unitOf a) (s.evsel (unitOf a) ((offOf a - 0xF018) / 8))))

/-- The next read of a free value finds another. [DESIGN CHOICE, log entry 3; DEDUCED, log entry 16] -/
def State.afterFree (s : State) (a : Nat) : State := if s.freeShown a then { s with free := s.free + 8 } else s

end Sys2Proof.Machine
end

