-- ==== Sys2Proof/Machine/Control.lean ====
section
/-!
DEFINITION. Reads and writes of control-space registers (R7, R13, R22 to R26): by programs, by the host through its BARs (R436, R437) and
the inspection window (R438), and by Preura; the landing of a program's posted writes and the return of its reads (R418, R419).  A
register with a behaviour of its own is written through the operation that its unit's command performs.
-/

namespace Sys2Proof.Machine

/-! ## Writes -/

/-- A field after a write (R7): PW fields take only a program's. [DEDUCED, log entry 9] -/
def FieldDesc.write (f : FieldDesc) (program : Bool) (old v : Nat) : Nat :=
  match f.access with
  | .rw => setBitsOf old f.hi f.lo (bitsOf v f.hi f.lo)
  | .wo => setBitsOf old f.hi f.lo (bitsOf v f.hi f.lo)
  | .pw => if program then setBitsOf old f.hi f.lo (bitsOf v f.hi f.lo) else old
  | .w1c => setBitsOf old f.hi f.lo (bitsOf old f.hi f.lo - (bitsOf old f.hi f.lo &&& bitsOf v f.hi f.lo))
  | .ro => old
  | .rc => old

/-- A word after a write of its fields. -/
def writeFields (program : Bool) (v : Nat) : List FieldDesc → Nat → Nat
  | [], w => w
  | f :: fs, w => writeFields program v fs (f.write program w v)

/-- The plain write of a register: its fields, and nothing else (R13). -/
def State.storeReg (s : State) (program : Bool) (a : Nat) (v : Word) : State :=
  match regDesc a with
  | none => s
  | some d => s.setReg a (BitVec.ofNat 64 (writeFields program v.toNat d.fields (s.reg a).toNat))

/-- Whether the magnitudes of the taps of a transmit equaliser sum to more than full scale: C_PRE2, C_PRE1 and C_POST in two's complement,
C_MAIN from 0 to 63 (R62). -/
def tapsOver (v : Word) : Bool :=
  let mag := fun (f : Fld) => (sext 6 (bitsOf v.toNat f.hi f.lo)).natAbs
  decide (64 < mag F.medTxEq_cPre2 + mag F.medTxEq_cPre1 + bitsOf v.toNat 17 12 + mag F.medTxEq_cPost)

/-- Writes of MED registers (R57, R60, R62, R64). [DESIGN CHOICE, log entry 20] -/
def State.medWrite (s : State) (p o : Nat) (v : Word) : Option State :=
  if o = 0 then some (s.laneCfg p v)
  else if o = 0x50 then some (s.testWrite p v)
  else if o = 0x10 ∧ tapsOver v then some s
  else if o = 0x18 then
    let s := s.storeReg true (R.medRxCfg p) v
    some (s.showMsd p (s.lane p).pin)
  else none

/-- Writes of client port registers (R295, R310, R323); a member lane keeps its own SERDES and nothing else; taps that
break the rule of R62 are ignored with their write (R321). [DEDUCED, log entry 19] -/
def State.portWrite (s : State) (k o : Nat) (v : Word) : Option State :=
  if o = 0 then some (s.cliCfgWrite k v)
  else if o = 0x10 then (if tapsOver v then some s else none)
  else if s.cliMode k = 15 then some s
  else if o = 0x60 then
    let s := s.setFld (R.cliGclCtl k) F.cliGclCtl_adminGates (bitsOf v.toNat 9 2)
    match v.toNat % 4 with
    | 1 => some (s.gclCommit k)
    | 2 => some (s.gclCancel k)
    | 3 => some (s.gclDisable k)
    | _ => some s
  else if o = 0x78 then some (s.gclData k true v)
  else none

/-- Writes of DFP, UBB, WARD and HINGE registers by a program (R95, R108, R111, R144, R148, R470). [DESIGN CHOICE, log entry 20] -/
def State.lineWrite (s : State) (a : Nat) (v : Word) : Option State :=
  if a = R.dfpIdent then
    (if v.toNat % 1024 = 0x3FC ∨ v.toNat % 1024 = 0x3FD ∨ v.toNat % 1024 = 0x3FF then some s else some (s.writeTid (v.toNat % 1024)))
  else if a = R.dfpOwnWrite then some (s.ownWrite v)
  else if a = R.dfpOwnProbe then some (s.ownProbe v)
  else if a = R.ubbFlowWrite then some (s.flowWrite v)
  else if a = R.ubbFlowProbe then some (s.flowProbe v)
  else if a = R.wardCode then some (s.writeCode v)
  else if a = R.hingeCfg then some (s.hingeCfgWrite v)
  else if R.hingeSerdes 0 ≤ a ∧ a ≤ R.hingeSerdes 3 ∧ tapsOver v then some s
  else none

/-- Writes of TIME registers (R200, R215, R221): a new choice of timing plane is judged at once. [DESIGN CHOICE, log entry 20] -/
def State.timeWrite (s : State) (a : Nat) (v : Word) : Option State :=
  if a = R.timeSnapCtl then some (if bitOf v.toNat 0 then s.snapshot else s)
  else if 0x300 ≤ offOf a ∧ offOf a < 0x400 ∧ offOf a % 0x20 = 0 then some (s.tpoWrite ((offOf a - 0x300) / 0x20) v)
  else if a = R.timeRefCfg then
    let t := s.storeReg true a v
    some ((if t.reg a = s.reg a then t else t.setBit R.timeRefStatus F.timeRefStatus_fallback false).retime false)
  else if 0x100 ≤ offOf a ∧ offOf a < 0x200 then some ((s.storeReg true a v).retime false)
  else none

/-- Writes of CLS, QM, SCH, CIRC and CIPH registers by a program. [DESIGN CHOICE, log entry 20] -/
def State.packetWrite (s : State) (a : Nat) (v : Word) : Option State :=
  if a = R.clsCmd then some (s.clsCmdWrite v)
  else if a = R.clsEdCtl then
    match v.toNat % 4 with
    | 1 => some s.edOpen
    | 2 => some s.edCommit
    | 3 => some s.edAbandon
    | _ => some s
  else if a = R.clsTableMode then some (s.tableModeWrite v)
  else if a = R.qmCmd then some (s.qmCmdWrite v)
  else if a = R.qmPoolCfg then some (s.writePoolCfg v)
  else if a = R.qmHbmCfg then some (s.writeHbmCfg v)
  else if a = R.schCmd then some (s.schCmdWrite v)
  else if a = R.circCmd then some (s.circCmdWrite v)
  else if a = R.circCfg then some (s.storeReg true a v).dccHold
  else if a = R.ciphKeyCtl then some (s.keyCtlWrite v)
  else if a = R.ciphSaCmd then some (s.saCmdWrite v)
  else none

/-- Writes of LSCH and LATCH registers by a program. -/
def State.schedWrite (s : State) (a : Nat) (v : Word) : Option State :=
  if a = R.lschCmd then some (s.lschCmdWrite v)
  else if a = R.lschLoadCtl then some (s.lschLoad v)
  else if a = R.lschSwapCtl then some (s.swapCtlWrite v)
  else if a = R.lschHbmArea then some (s.hbmAreaWrite v)
  else if a = R.latchProbe then some (s.latchProbe v)
  else none

/-- Writes of GATE and DMA registers (R436 to R460); INSP_DATA takes none (R438). -/
def State.gateWrite (s : State) (a : Nat) (v : Word) : Option State :=
  let c := (offOf a - 0x10000) / 0x1000
  let r := offOf a % 0x1000
  if a = R.gateCmdBase then some (s.cmdBaseWrite v)
  else if a = R.gateCmdCtl then some (s.cmdCtlWrite v)
  else if a = R.gateCmdIdx then some (s.cmdDoorbell v)
  else if a = R.gatePlCtl then some (s.plCtlWrite v)
  else if unitOf a = 0 ∧ 0x1000 ≤ offOf a ∧ offOf a < 0x2000 then some (s.ownerWrite ((offOf a - 0x1000) / 8) v)
  else if unitOf a = 0x98 ∧ 0x10000 ≤ offOf a then
    if r = 0x80 then some (s.chCtlWrite c v)
    else if r = 0x88 then some (s.chDoorbell c)
    else if r = 0xA8 then some (s.ringHead c v)
    else none
  else none

/-- Writes of MBOX, FLT, PWR and MON registers; `unit` is the requester's unit id (R527). [DEDUCED, log entry 14] -/
def State.adminWrite (s : State) (program : Bool) (unit a : Nat) (v : Word) : Option State :=
  if a = R.pwrReq then some ((s.storeReg program a v).pwrReq (bitsOf v.toNat 63 62) unit (bitsOf v.toNat 29 0))
  else if a = R.pwrDegrade then some (s.degradeWrite (v.toNat % 4))
  else if a = R.pwrOp then some (s.opWrite v)
  else if a = R.pwrChipReset then some (s.chipReset v)
  else if a = R.monBwCfg then some (s.bwCfgWrite v)
  else if unitOf a = 0x06 ∧ 0x100 ≤ offOf a ∧ offOf a < 0x200 ∧ offOf a % 0x10 = 0 then some (s.dumpCtlWrite ((offOf a - 0x100) / 0x10) v)
  else if !program then
    if a = R.mboxSentinel then some (s.kickWrite (v.toNat % 16))
    else if a = R.mboxSwapCtl then some (if bitOf v.toNat 3 then s.swapPop else s)
    else none
  else if a = R.mboxToCtl then some (s.mboxSend v)
  else if unitOf a = 0x9D ∧ 0x80 ≤ offOf a ∧ offOf a < 0x180 then some (s.toDataWrite ((offOf a - 0x80) / 8) v)
  else if a = R.mboxFromCtl then some (s.mboxDone v)
  else if a = R.mboxPreuraCtl then some (s.preuraCtl v)
  else if a = R.fltStatusC then some (s.statusClear 0 v)
  else if a = R.fltStatusU then some (s.statusClear 1 v)
  else if a = R.fltStatusD then some (s.statusClear 2 v)
  else if a = R.fltDispCtl then some (s.dispPop v)
  else none

/-- What a write of a register with a behaviour of its own does; `none` for a plain register. [DEDUCED, log entries 10 and 19] -/
def State.writeActs (s : State) (program : Bool) (unit a : Nat) (v : Word) : Option State :=
  let u := unitOf a
  let o := offOf a
  if o = 0xF008 ∧ (u < 0x30 ∨ 0x8F < u ∨ s.cliMode (u - 0x30) ≠ 15) then some (s.pmcSelWrite u v)
  else if 0x10 ≤ u ∧ u ≤ 0x27 then s.medWrite (u - 0x10) o v
  else if 0x30 ≤ u ∧ u ≤ 0x8F then s.portWrite (u - 0x30) o v
  else if u = 0 ∨ u = 0x98 then s.gateWrite a v
  else if u = 0x02 ∨ u = 0x04 ∨ u = 0x06 ∨ u = 0x9D then s.adminWrite program unit a v
  else if !program then none
  else if u = 0x05 then s.timeWrite a v
  else if u = 0x9A ∨ u = 0x9B then s.schedWrite a v
  else if 0x90 ≤ u ∧ u ≤ 0x96 then s.packetWrite a v
  else s.lineWrite a v

/-- Whether a register has a PW field. [DEDUCED, log entry 13] -/
def hasPw (a : Nat) : Bool :=
  match regDesc a with
  | none => false
  | some d => d.fields.any (fun f => f.access == .pw)

/-- A write that reaches the register at `a`; one of the host or of Preura that meets a PW register is counted (R7, R457).
[DEDUCED, log entries 10 and 13] -/
def State.ctlWrite (s : State) (program : Bool) (unit a : Nat) (v : Word) : State :=
  let s := if !program && hasPw a && s.domOn 0 then s.count R.gateCounts F.gateCounts_pwDiscards else s
  (s.writeActs program unit a v).getD (s.storeReg program a v)

/-! ## Reads -/

/-- A field after a read that clears. [DEDUCED, log entry 9] -/
def FieldDesc.cleared (f : FieldDesc) (w : Nat) : Nat :=
  match f.access with
  | .rc => setBitsOf w f.hi f.lo 0
  | _ => w

/-- A word after a read that clears its RC fields (R7). -/
def clearFields : List FieldDesc → Nat → Nat
  | [], w => w
  | f :: fs, w => clearFields fs (f.cleared w)

/-- The register at `a` after such a read. -/
def State.clearRc (s : State) (a : Nat) : State :=
  match regDesc a with
  | none => s
  | some d => s.setReg a (BitVec.ofNat 64 (clearFields d.fields (s.reg a).toNat))

/-- What a program's read takes beside RC fields: the oldest capture at TIME.TCI_LO (R218), the place in a gate list at GCL_DATA (R310). -/
def State.readTakes (s : State) (a : Nat) : State :=
  let u := unitOf a
  let j := (offOf a - 0x410) / 0x20
  if u = 0x05 ∧ 0x410 ≤ offOf a ∧ a = R.timeTciLo j then s.setCapture j ((s.capture j).drop 1)
  else if 0x30 ≤ u ∧ u ≤ 0x8F ∧ offOf a = 0x78 ∧ s.cliMode (u - 0x30) ≠ 15 then
    s.setFld (R.cliGclAddr (u - 0x30)) F.cliGclAddr_index (s.fld (R.cliGclAddr (u - 0x30)) F.cliGclAddr_index + 1)
  else s

/-- The state after a program, or the host through its BARs, has read the register at `a`. -/
def State.afterRead (s : State) (a : Nat) : State := ((s.clearRc a).readTakes a).afterFree a

/-- The reader gets `w`. -/
def State.shows (s : State) (w : BitVec 64) : State := { s with host := { s.host with rdata := w } }

/-! ## The host (R24, R436 to R438) -/

/-- A host access that meets R24: the inspection window's error status, and the count. [DEDUCED, log entry 11] -/
def State.hostMiss (s : State) (a : Nat) : State :=
  ((s.latch R.gateInspStatus F.gateInspStatus_err).setFld R.gateInspStatus F.gateInspStatus_errAddr a).count
    R.gateCounts F.gateCounts_noReg

/-- INSP_READ (R438): the register at INSP_ADDR, changing nothing of it; ADDR advances under AUTOINC. [DEDUCED, log entries 11 and 16] -/
def State.inspRead (s : State) : State :=
  let a := s.fld R.gateInspAddr F.gateInspAddr_addr
  let ok := s.accessOk a
  let v := if ok then s.regView a else 0
  let s := if ok then s.afterFree a else (s.hostMiss a).gateEvent 2
  let s := (s.setReg R.gateInspData v).shows v
  if s.bit R.gateInspAddr F.gateInspAddr_autoinc then s.setFld R.gateInspAddr F.gateInspAddr_addr (a + 8) else s

/-- The channels that function `f` owns, ascending. [DEDUCED, log entry 12] -/
def State.ownedBy (s : State) (f : Nat) : List Nat := (List.range 512).filter (fun c => s.chOwner c == f)

/-- The address that a BAR access of function `f` reaches: the PF names it as it is; page k of a VF is its k-th owned channel, for k from 0 to 63 (R436, R437), and
`none` lies beyond its owned count. [DEDUCED, log entry 12] -/
def State.barAddr (s : State) (f a : Nat) : Option Nat :=
  if f = 0 then some a
  else if unitOf a = 0x98 ∧ 0x10000 ≤ offOf a ∧ offOf a < 0x50000 then
    ((s.ownedBy f)[(offOf a - 0x10000) / 0x1000]?).map (fun c => R.dmaChCfg c + offOf a % 0x1000)
  else none

/-- Whether the BARs lead to an address (R436). -/
def barUnit (a : Nat) : Bool := unitOf a == 0 || unitOf a == 0x98 || unitOf a == 0x99

/-- Whether the host may write the register at an address of its BARs: of DMA, the channel register sets only (R25). -/
def barWrites (a : Nat) : Bool := unitOf a != 0x98 || decide (0x10000 ≤ offOf a)

/-- A write of another agent than a program that reaches a PW register it may not write is discarded and counted (R7, R26). -/
def State.pwDiscard (s : State) : State := if s.domOn 0 then s.count R.gateCounts F.gateCounts_pwDiscards else s

/-- A write of the host through its BARs. [DEDUCED, log entries 11 and 12] -/
def State.hostWrite (s : State) (f a : Nat) (v : Word) : State :=
  if !s.domOn 0 then s
  else
    match s.barAddr f a with
    | none => s
    | some a =>
      if !barUnit a && s.accessOk a && hasPw a then s.pwDiscard
      else if !barUnit a || !s.accessOk a then s.hostMiss a
      else if !barWrites a then s
      else if a = R.gateInspData then s.count R.gateCounts F.gateCounts_inspWrites
      else if f = 0 ∧ unitOf a = 0x98 ∧ 0x10000 ≤ offOf a ∧ s.chOwner ((offOf a - 0x10000) / 0x1000) ≠ 0 then
        s.count R.gateCounts F.gateCounts_foreign
      else s.ctlWrite false 0 a v

/-- A read of the host through its BARs. [DEDUCED, log entry 11] -/
def State.hostRead (s : State) (f a : Nat) : State :=
  if !s.domOn 0 then s.shows 0
  else
    match s.barAddr f a with
    | none => s.shows 0
    | some a =>
      if !barUnit a || !s.accessOk a then (s.hostMiss a).shows 0
      else if a = R.gateInspData then s.inspRead
      else (s.afterRead a).shows (s.regView a)

/-! ## Preura (R24, R25) -/

/-- The units that Preura reads, and those that it writes. [DEDUCED, log entry 14] -/
def preuraReads (u : Nat) : Bool := (decide (1 ≤ u) && decide (u ≤ 6)) || u == 0x9D
def preuraWrites (u : Nat) : Bool := u == 0x02 || u == 0x03 || u == 0x06 || u == 0x9D

/-- Whether Preura runs. [DEDUCED, log entry 15] -/
def State.preuraRuns (s : State) : Bool := s.preuraState != 3 && s.preuraState != 4

/-- An access of Preura that meets R24 is logged (R491). [DEDUCED, log entry 14] -/
def State.preuraMiss (s : State) (a : Nat) : State := s.logNow 7 0 [BitVec.ofNat 64 a]

/-- A write of Preura. [DEDUCED, log entry 14] -/
def State.preuraWrite (s : State) (a : Nat) (v : Word) : State :=
  if !s.preuraRuns then s
  else if !s.accessOk a then s.preuraMiss a
  else if preuraWrites (unitOf a) then s.ctlWrite false 0x9D a v
  else if hasPw a then s.pwDiscard
  else s

/-- A read of Preura: nothing is cleared, but the read of FLT.CAP_INFO removes the capture at the head (R515).
[DEDUCED, log entries 14 and 147] -/
def State.preuraRead (s : State) (a : Nat) : State :=
  if !s.preuraRuns then s.shows 0
  else if !s.accessOk a then (s.preuraMiss a).shows 0
  else if preuraReads (unitOf a) then ((if a = R.fltCapInfo then s.capPop else s).afterFree a).shows (s.regView a)
  else s.shows 0

/-! ## The commands -/

/-- A program's write that meets R24: a refused posted write, whose CTL_ACCESS its clause raises next (R24, R419). -/
def State.programRefused (s : State) (c x : Nat) : State :=
  let t := s.ctx c x
  match t.clause with
  | some cl => if t.refused.isSome then s else s.setCtx c x { t with refused := some (t.pc.toNat, (s.fetchLim c t cl).toNat) }
  | none => s

/-- A program's read that meets R24 raises CTL_ACCESS at once (R24, R418). -/
def State.programRaises (s : State) (c x : Nat) : State :=
  let t := s.ctx c x
  match t.clause with
  | some cl => s.limFault c x Exc.ctlAccess t.pc.toNat (s.fetchLim c t cl).toNat
  | none => s

/-- REG_WRITE (R13, R24, R25). [DEDUCED, log entries 10 and 190] -/
def execRegWrite (src : Agent) (a : BitVec 40) (v : Word) (s : State) : Host.Outcome State Fault Refusal :=
  .next (match src with
    | .program c x => if s.accessOk a.toNat then s.ctlWrite true (0xA0 + c) a.toNat v else s.programRefused c x
    | .host f => s.hostWrite f a.toNat v
    | .preura => s.preuraWrite a.toNat v)

/-- RC_READ (R7, R24, R25). -/
def execRcRead (src : Agent) (a : BitVec 40) (s : State) : Host.Outcome State Fault Refusal :=
  .next (match src with
    | .program c x => if s.accessOk a.toNat then (s.afterRead a.toNat).shows (s.regView a.toNat) else (s.programRaises c x).shows 0
    | .host f => s.hostRead f a.toNat
    | .preura => s.preuraRead a.toNat)

/-- INSP_READ (R438). -/
def execInspRead (s : State) : Host.Outcome State Fault Refusal := .next (if s.domOn 0 then s.inspRead else s.shows 0)

/-- INSP_WRITE (R26, R438). -/
def execInspWrite (_v : Word) (s : State) : Host.Outcome State Fault Refusal :=
  .next (if s.domOn 0 then s.count R.gateCounts F.gateCounts_inspWrites else s)

/-- The return of a context's control-space read: R24 is judged at the register; the core's earlier writes to the unit land first.
[DEDUCED, log entry 17] -/
def State.ctlReturn (s : State) (c x : Nat) : State :=
  let t := s.ctx c x
  match t.wait, t.clause with
  | some (.ctl rd a), some cl =>
    if (s.core c).posted.any (fun w => unitOf w.addr == unitOf a) then s
    else if !s.accessOk a then
      (s.setCtx c x { t with wait := none }).limFault c x Exc.ctlAccess t.pc.toNat (s.fetchLim c t cl).toNat
    else (s.afterRead a).setCtx c x ({ t with wait := none }.setG (BitVec.ofNat 5 rd) (s.regView a)).forth
  | _, _ => s

/-- CTL_READ_RETURN (R418). -/
def execCtlReadReturn (c : CoreId) (x : CtxId) (s : State) : Host.Outcome State Fault Refusal := .next (s.ctlReturn c x)

/-- A refused posted write waits in its clause as a deferred CTL_ACCESS; the first one stands. [DEDUCED, log entry 18] -/
def Ctx.defer (t : Ctx) (w : Posted) : Ctx :=
  match t.clause with
  | some cl => if cl.uid = w.uid ∧ t.refused.isNone then { t with refused := some (w.pc, w.word) } else t
  | none => t

/-- The clause that made a refused write gets it, wherever its context is. [DEDUCED, log entry 18] -/
def State.deferWrite (s : State) (c : Nat) (w : Posted) : State :=
  let s := (List.range 4).foldl (fun s x => s.setCtx c x ((s.ctx c x).defer w)) s
  let k := s.core c
  let s := s.setCore c { k with swapBuf := k.swapBuf.map (fun t => t.defer w) }
  { s with lsch := { s.lsch with saved := s.lsch.saved.map (fun e => (e.1, e.2.defer w)) } }

/-- The landing of core `c`'s oldest posted write. [DEDUCED, log entry 17] -/
def State.ctlLand (s : State) (c : Nat) : State :=
  let k := s.core c
  match k.posted with
  | [] => s
  | w :: rest =>
    let s := s.setCore c { k with posted := rest }
    if s.accessOk w.addr then s.ctlWrite true (0xA0 + c) w.addr w.value else s.deferWrite c w

/-- CTL_WRITE_LAND (R419). -/
def execCtlWriteLand (c : CoreId) (s : State) : Host.Outcome State Fault Refusal := .next (s.ctlLand c)

end Sys2Proof.Machine
end

