-- ==== Sys2Proof/Machine/Lim.lean ====
section
/-!
DEFINITION. The meanings of the Limtin instructions (R412 to R430): each runs the instruction named where the context stands at it.
-/

namespace Sys2Proof.Machine

/-- ILLEGAL (R410). Opcode 0x00, an unassigned opcode or a non-zero reserved field raises ILLEGAL. -/
def execIllegal (c : CoreId) (x : CtxId) (s : State) : Host.Outcome State Fault Refusal :=
  .next (s.limRun c x none)

/-- ADD (R412). Adds two registers. -/
def execAdd (c : CoreId) (x : CtxId) (rd ra rb : GReg) (s : State) : Host.Outcome State Fault Refusal :=
  .next (s.limRun c x (some (.add rd ra rb)))

/-- SUB (R412). Subtracts two registers. -/
def execSub (c : CoreId) (x : CtxId) (rd ra rb : GReg) (s : State) : Host.Outcome State Fault Refusal :=
  .next (s.limRun c x (some (.sub rd ra rb)))

/-- AND (R412). Bitwise AND of two registers. -/
def execAnd (c : CoreId) (x : CtxId) (rd ra rb : GReg) (s : State) : Host.Outcome State Fault Refusal :=
  .next (s.limRun c x (some (.and rd ra rb)))

/-- OR (R412). Bitwise OR of two registers. -/
def execOr (c : CoreId) (x : CtxId) (rd ra rb : GReg) (s : State) : Host.Outcome State Fault Refusal :=
  .next (s.limRun c x (some (.or rd ra rb)))

/-- XOR (R412). Bitwise XOR of two registers. -/
def execXor (c : CoreId) (x : CtxId) (rd ra rb : GReg) (s : State) : Host.Outcome State Fault Refusal :=
  .next (s.limRun c x (some (.xor rd ra rb)))

/-- SHL (R412). Shifts a register left by rb [5:0]. -/
def execShl (c : CoreId) (x : CtxId) (rd ra rb : GReg) (s : State) : Host.Outcome State Fault Refusal :=
  .next (s.limRun c x (some (.shl rd ra rb)))

/-- SHR (R412). Shifts a register right logically by rb [5:0]. -/
def execShr (c : CoreId) (x : CtxId) (rd ra rb : GReg) (s : State) : Host.Outcome State Fault Refusal :=
  .next (s.limRun c x (some (.shr rd ra rb)))

/-- SAR (R412). Shifts a register right arithmetically by rb [5:0]. -/
def execSar (c : CoreId) (x : CtxId) (rd ra rb : GReg) (s : State) : Host.Outcome State Fault Refusal :=
  .next (s.limRun c x (some (.sar rd ra rb)))

/-- MUL (R412). Writes the low 64 bits of a product. -/
def execMul (c : CoreId) (x : CtxId) (rd ra rb : GReg) (s : State) : Host.Outcome State Fault Refusal :=
  .next (s.limRun c x (some (.mul rd ra rb)))

/-- MULHU (R412). Writes the high 64 bits of an unsigned product. -/
def execMulhu (c : CoreId) (x : CtxId) (rd ra rb : GReg) (s : State) : Host.Outcome State Fault Refusal :=
  .next (s.limRun c x (some (.mulhu rd ra rb)))

/-- SLT (R412). Signed less-than comparison giving 0 or 1. -/
def execSlt (c : CoreId) (x : CtxId) (rd ra rb : GReg) (s : State) : Host.Outcome State Fault Refusal :=
  .next (s.limRun c x (some (.slt rd ra rb)))

/-- SLTU (R412). Unsigned less-than comparison giving 0 or 1. -/
def execSltu (c : CoreId) (x : CtxId) (rd ra rb : GReg) (s : State) : Host.Outcome State Fault Refusal :=
  .next (s.limRun c x (some (.sltu rd ra rb)))

/-- SEQ (R412). Equality comparison giving 0 or 1. -/
def execSeq (c : CoreId) (x : CtxId) (rd ra rb : GReg) (s : State) : Host.Outcome State Fault Refusal :=
  .next (s.limRun c x (some (.seq rd ra rb)))

/-- ADDI (R412). Adds a sign-extended immediate. -/
def execAddi (c : CoreId) (x : CtxId) (rd ra : GReg) (imm : BitVec 14) (s : State) : Host.Outcome State Fault Refusal :=
  .next (s.limRun c x (some (.addi rd ra imm)))

/-- SUBI (R412). Subtracts a sign-extended immediate. -/
def execSubi (c : CoreId) (x : CtxId) (rd ra : GReg) (imm : BitVec 14) (s : State) : Host.Outcome State Fault Refusal :=
  .next (s.limRun c x (some (.subi rd ra imm)))

/-- ANDI (R412). ANDs a zero-extended immediate. -/
def execAndi (c : CoreId) (x : CtxId) (rd ra : GReg) (imm : BitVec 14) (s : State) : Host.Outcome State Fault Refusal :=
  .next (s.limRun c x (some (.andi rd ra imm)))

/-- ORI (R412). ORs a zero-extended immediate. -/
def execOri (c : CoreId) (x : CtxId) (rd ra : GReg) (imm : BitVec 14) (s : State) : Host.Outcome State Fault Refusal :=
  .next (s.limRun c x (some (.ori rd ra imm)))

/-- XORI (R412). XORs a zero-extended immediate. -/
def execXori (c : CoreId) (x : CtxId) (rd ra : GReg) (imm : BitVec 14) (s : State) : Host.Outcome State Fault Refusal :=
  .next (s.limRun c x (some (.xori rd ra imm)))

/-- SHLI (R412). Shifts left by an immediate amount. -/
def execShli (c : CoreId) (x : CtxId) (rd ra : GReg) (amt : BitVec 6) (s : State) : Host.Outcome State Fault Refusal :=
  .next (s.limRun c x (some (.shli rd ra amt)))

/-- SHRI (R412). Shifts right logically by an immediate amount. -/
def execShri (c : CoreId) (x : CtxId) (rd ra : GReg) (amt : BitVec 6) (s : State) : Host.Outcome State Fault Refusal :=
  .next (s.limRun c x (some (.shri rd ra amt)))

/-- SARI (R412). Shifts right arithmetically by an immediate amount. -/
def execSari (c : CoreId) (x : CtxId) (rd ra : GReg) (amt : BitVec 6) (s : State) : Host.Outcome State Fault Refusal :=
  .next (s.limRun c x (some (.sari rd ra amt)))

/-- SLTI (R412). Signed less-than against an immediate. -/
def execSlti (c : CoreId) (x : CtxId) (rd ra : GReg) (imm : BitVec 14) (s : State) : Host.Outcome State Fault Refusal :=
  .next (s.limRun c x (some (.slti rd ra imm)))

/-- SLTUI (R412). Unsigned less-than against an immediate. -/
def execSltui (c : CoreId) (x : CtxId) (rd ra : GReg) (imm : BitVec 14) (s : State) : Host.Outcome State Fault Refusal :=
  .next (s.limRun c x (some (.sltui rd ra imm)))

/-- SEQI (R412). Equality against an immediate. -/
def execSeqi (c : CoreId) (x : CtxId) (rd ra : GReg) (imm : BitVec 14) (s : State) : Host.Outcome State Fault Refusal :=
  .next (s.limRun c x (some (.seqi rd ra imm)))

/-- SHORI (R412). Shifts left by 14 and ORs a zero-extended immediate. -/
def execShori (c : CoreId) (x : CtxId) (rd ra : GReg) (imm : BitVec 14) (s : State) : Host.Outcome State Fault Refusal :=
  .next (s.limRun c x (some (.shori rd ra imm)))

/-- EXT (R414). Extracts a zero-extended bit field. -/
def execExt (c : CoreId) (x : CtxId) (rd ra : GReg) (lo len1 : BitVec 6) (s : State) : Host.Outcome State Fault Refusal :=
  .next (s.limRun c x (some (.ext rd ra lo len1)))

/-- EXTS (R414). Extracts a sign-extended bit field. -/
def execExts (c : CoreId) (x : CtxId) (rd ra : GReg) (lo len1 : BitVec 6) (s : State) : Host.Outcome State Fault Refusal :=
  .next (s.limRun c x (some (.exts rd ra lo len1)))

/-- INS (R414). Inserts a bit field into rd. -/
def execIns (c : CoreId) (x : CtxId) (rd ra : GReg) (lo len1 : BitVec 6) (s : State) : Host.Outcome State Fault Refusal :=
  .next (s.limRun c x (some (.ins rd ra lo len1)))

/-- LD (R415). Loads 8 bytes from data memory. -/
def execLd (c : CoreId) (x : CtxId) (rd ra : GReg) (imm : BitVec 14) (s : State) : Host.Outcome State Fault Refusal :=
  .next (s.limRun c x (some (.ld rd ra imm)))

/-- LW (R415). Loads 4 bytes zero-extended. -/
def execLw (c : CoreId) (x : CtxId) (rd ra : GReg) (imm : BitVec 14) (s : State) : Host.Outcome State Fault Refusal :=
  .next (s.limRun c x (some (.lw rd ra imm)))

/-- LB (R415). Loads 1 byte zero-extended. -/
def execLb (c : CoreId) (x : CtxId) (rd ra : GReg) (imm : BitVec 14) (s : State) : Host.Outcome State Fault Refusal :=
  .next (s.limRun c x (some (.lb rd ra imm)))

/-- ST (R415). Stores 8 bytes, posted. -/
def execSt (c : CoreId) (x : CtxId) (rs ra : GReg) (imm : BitVec 14) (s : State) : Host.Outcome State Fault Refusal :=
  .next (s.limRun c x (some (.st rs ra imm)))

/-- SW (R415). Stores 4 bytes, posted. -/
def execSw (c : CoreId) (x : CtxId) (rs ra : GReg) (imm : BitVec 14) (s : State) : Host.Outcome State Fault Refusal :=
  .next (s.limRun c x (some (.sw rs ra imm)))

/-- SB (R415). Stores 1 byte, posted. -/
def execSb (c : CoreId) (x : CtxId) (rs ra : GReg) (imm : BitVec 14) (s : State) : Host.Outcome State Fault Refusal :=
  .next (s.limRun c x (some (.sb rs ra imm)))

/-- XADD (R415). Atomically adds to an 8-byte memory word and returns the old value. -/
def execXadd (c : CoreId) (x : CtxId) (rd ra rb : GReg) (s : State) : Host.Outcome State Fault Refusal :=
  .next (s.limRun c x (some (.xadd rd ra rb)))

/-- BR (R416). Branches unconditionally by off20. -/
def execBr (c : CoreId) (x : CtxId) (off : BitVec 20) (s : State) : Host.Outcome State Fault Refusal :=
  .next (s.limRun c x (some (.br off)))

/-- BZ (R416). Branches when ra is zero. -/
def execBz (c : CoreId) (x : CtxId) (ra : GReg) (off : BitVec 20) (s : State) : Host.Outcome State Fault Refusal :=
  .next (s.limRun c x (some (.bz ra off)))

/-- BNZ (R416). Branches when ra is not zero. -/
def execBnz (c : CoreId) (x : CtxId) (ra : GReg) (off : BitVec 20) (s : State) : Host.Outcome State Fault Refusal :=
  .next (s.limRun c x (some (.bnz ra off)))

/-- BLTZ (R416). Branches when ra is negative. -/
def execBltz (c : CoreId) (x : CtxId) (ra : GReg) (off : BitVec 20) (s : State) : Host.Outcome State Fault Refusal :=
  .next (s.limRun c x (some (.bltz ra off)))

/-- BGEZ (R416). Branches when ra is zero or positive. -/
def execBgez (c : CoreId) (x : CtxId) (ra : GReg) (off : BitVec 20) (s : State) : Host.Outcome State Fault Refusal :=
  .next (s.limRun c x (some (.bgez ra off)))

/-- CALL (R416). Branches and writes the return address to g31. -/
def execCall (c : CoreId) (x : CtxId) (off : BitVec 20) (s : State) : Host.Outcome State Fault Refusal :=
  .next (s.limRun c x (some (.call off)))

/-- JR (R416). Jumps to the address in ra. -/
def execJr (c : CoreId) (x : CtxId) (ra : GReg) (s : State) : Host.Outcome State Fault Refusal :=
  .next (s.limRun c x (some (.jr ra)))

/-- CALLR (R416). Jumps to the address in ra and writes the return address to g31. -/
def execCallr (c : CoreId) (x : CtxId) (ra : GReg) (s : State) : Host.Outcome State Fault Refusal :=
  .next (s.limRun c x (some (.callr ra)))

/-- CTLR (R418). Reads a control-space register named by unit and word fields. -/
def execCtlr (c : CoreId) (x : CtxId) (rd : GReg) (unit : BitVec 8) (word : BitVec 12) (s : State) : Host.Outcome State Fault Refusal :=
  .next (s.limRun c x (some (.ctlr rd unit word)))

/-- CTLW (R418). Posts a write to a control-space register named by unit and word fields. -/
def execCtlw (c : CoreId) (x : CtxId) (rs : GReg) (unit : BitVec 8) (word : BitVec 12) (s : State) : Host.Outcome State Fault Refusal :=
  .next (s.limRun c x (some (.ctlw rs unit word)))

/-- CTLRX (R418). Reads the control-space register at the address in ra. -/
def execCtlrx (c : CoreId) (x : CtxId) (rd ra : GReg) (s : State) : Host.Outcome State Fault Refusal :=
  .next (s.limRun c x (some (.ctlrx rd ra)))

/-- CTLWX (R418). Posts a write to the control-space register at the address in ra. -/
def execCtlwx (c : CoreId) (x : CtxId) (rs ra : GReg) (s : State) : Host.Outcome State Fault Refusal :=
  .next (s.limRun c x (some (.ctlwx rs ra)))

/-- EMIT (R423). Sends one token to a clause node of the emitter's sentence. -/
def execEmit (c : CoreId) (x : CtxId) (ra : GReg) (k : BitVec 10) (s : State) : Host.Outcome State Fault Refusal :=
  .next (s.limRun c x (some (.emit ra k)))

/-- EMITX (R423). Sends one token to any node by index. -/
def execEmitx (c : CoreId) (x : CtxId) (ra rb : GReg) (s : State) : Host.Outcome State Fault Refusal :=
  .next (s.limRun c x (some (.emitx ra rb)))

/-- END (R386). Ends the clause, releasing its subject and context and returning a command block's result. -/
def execEndClause (c : CoreId) (x : CtxId) (s : State) : Host.Outcome State Fault Refusal :=
  .next (s.limRun c x (some .endClause))

/-- FENCE (R423). Waits until earlier stores and control-space writes have landed. -/
def execFence (c : CoreId) (x : CtxId) (s : State) : Host.Outcome State Fault Refusal :=
  .next (s.limRun c x (some .fence))

/-- TRAP (R423). Raises the TRAP exception with its immediate. -/
def execTrap (c : CoreId) (x : CtxId) (imm : BitVec 10) (s : State) : Host.Outcome State Fault Refusal :=
  .next (s.limRun c x (some (.trap imm)))

/-- ARM (R422). Writes or disarms an alarm entry and reports its state. -/
def execArm (c : CoreId) (x : CtxId) (rd ra rb : GReg) (s : State) : Host.Outcome State Fault Refusal :=
  .next (s.limRun c x (some (.arm rd ra rb)))

/-- TCAP (R421). Captures or returns the line position, medium time and time status. -/
def execTcap (c : CoreId) (x : CtxId) (rd : GReg) (sel : BitVec 10) (s : State) : Host.Outcome State Fault Refusal :=
  .next (s.limRun c x (some (.tcap rd sel)))

/-- ACQ (R387). Acquires a latch in ascending order, waiting if held. -/
def execAcq (c : CoreId) (x : CtxId) (rd ra : GReg) (imm : BitVec 10) (s : State) : Host.Outcome State Fault Refusal :=
  .next (s.limRun c x (some (.acq rd ra imm)))

/-- REL (R424). Releases a held latch after earlier writes land. -/
def execRel (c : CoreId) (x : CtxId) (ra : GReg) (imm : BitVec 10) (s : State) : Host.Outcome State Fault Refusal :=
  .next (s.limRun c x (some (.rel ra imm)))

/-- LFIX (R390). Clears the BROKEN mark of a held latch. -/
def execLfix (c : CoreId) (x : CtxId) (ra : GReg) (imm : BitVec 10) (s : State) : Host.Outcome State Fault Refusal :=
  .next (s.limRun c x (some (.lfix ra imm)))

/-- PTAKE (R426). Takes the head packet of a control-plane queue into a handle slot. -/
def execPtake (c : CoreId) (x : CtxId) (rd ra : GReg) (s : State) : Host.Outcome State Fault Refusal :=
  .next (s.limRun c x (some (.ptake rd ra)))

/-- MTAKE (R426). Takes the head of the message slow-path queue into a handle slot. -/
def execMtake (c : CoreId) (x : CtxId) (rd : GReg) (s : State) : Host.Outcome State Fault Refusal :=
  .next (s.limRun c x (some (.mtake rd)))

/-- PNEW (R426). Creates a zero-filled packet in a handle slot. -/
def execPnew (c : CoreId) (x : CtxId) (rd ra : GReg) (s : State) : Host.Outcome State Fault Refusal :=
  .next (s.limRun c x (some (.pnew rd ra)))

/-- PLD (R427). Reads 8 bytes from a held object. -/
def execPld (c : CoreId) (x : CtxId) (rd ra rb : GReg) (imm : BitVec 10) (s : State) : Host.Outcome State Fault Refusal :=
  .next (s.limRun c x (some (.pld rd ra rb imm)))

/-- PST (R427). Writes 8 bytes into a held object. -/
def execPst (c : CoreId) (x : CtxId) (rs ra rb : GReg) (imm : BitVec 10) (s : State) : Host.Outcome State Fault Refusal :=
  .next (s.limRun c x (some (.pst rs ra rb imm)))

/-- PLEN (R427). Sets the length of a held object. -/
def execPlen (c : CoreId) (x : CtxId) (rd ra rb : GReg) (s : State) : Host.Outcome State Fault Refusal :=
  .next (s.limRun c x (some (.plen rd ra rb)))

/-- PMETA (R427). Returns a metadata item of a held object. -/
def execPmeta (c : CoreId) (x : CtxId) (rd ra : GReg) (imm : BitVec 10) (s : State) : Host.Outcome State Fault Refusal :=
  .next (s.limRun c x (some (.pmeta rd ra imm)))

/-- PSEND (R428). Hands a held packet to a pipe as an injected packet. -/
def execPsend (c : CoreId) (x : CtxId) (rd ra rb : GReg) (s : State) : Host.Outcome State Fault Refusal :=
  .next (s.limRun c x (some (.psend rd ra rb)))

/-- PFREE (R428). Discards the object in a handle slot. -/
def execPfree (c : CoreId) (x : CtxId) (ra : GReg) (s : State) : Host.Outcome State Fault Refusal :=
  .next (s.limRun c x (some (.pfree ra)))

/-- MPOST (R429). Posts a held object as an upstream message to the upstream message queue. -/
def execMpost (c : CoreId) (x : CtxId) (rd ra rb : GReg) (s : State) : Host.Outcome State Fault Refusal :=
  .next (s.limRun c x (some (.mpost rd ra rb)))

/-- MDROP (R429). Withdraws queued upstream message entries of a class. -/
def execMdrop (c : CoreId) (x : CtxId) (rd ra : GReg) (s : State) : Host.Outcome State Fault Refusal :=
  .next (s.limRun c x (some (.mdrop rd ra)))

/-- CREQ (R430). Submits a lookaside descriptor to a cipher queue. -/
def execCreq (c : CoreId) (x : CtxId) (rd ra rb : GReg) (s : State) : Host.Outcome State Fault Refusal :=
  .next (s.limRun c x (some (.creq rd ra rb)))

/-- MEM_LOAD_RETURN (R415). The data of a load returns and the waiting context becomes runnable. -/
def execMemLoadReturn (c : CoreId) (x : CtxId) (s : State) : Host.Outcome State Fault Refusal :=
  .next (s.limReturn c x)

end Sys2Proof.Machine
end

