-- ==== Sys2Proof/Machine/MgmtPort.lean ====
section
/-!
DEFINITION. The data accesses of the management port (R493 to R497).
-/

namespace Sys2Proof.Machine

/-- SPACE, ADDRESS without its low three bits, AUTOINC. -/
def State.mpSpace (s : State) : Nat := bitsOf s.preura.mpAddr.toNat 63 62
def State.mpOffset (s : State) : Nat := bitsOf s.preura.mpAddr.toNat 39 3 * 8
def State.mpAuto (s : State) : Bool := bitOf s.preura.mpAddr.toNat 61

/-- Whether Preura serves STAGE and COMMAND: its firmware, or the boot ROM of DOWNLOAD (R485, R494). [DEDUCED, log entry 132] -/
def State.mpServed (s : State) : Bool := s.firmware || s.preuraState == 2

/-- The committed log entry at a byte address. -/
def State.mpEntry (s : State) (a : Nat) : Option (List (BitVec 64)) :=
  if s.preura.logFirst ≤ a / 64 ∧ a / 64 < s.preura.logNext then Tbl.find s.preura.log (a / 64) else none

/-- Why a read of MP_DATA fails: 0 where it does not. -/
def State.mpReadError (s : State) : Nat :=
  let a := s.mpOffset
  match s.mpSpace with
  | 0 => if preuraReads (unitOf a) then 0 else 3
  | 1 => if !s.firmware then 2 else if (s.mpEntry a).isSome then 0 else 3
  | 2 => if !s.mpServed then 2 else if a < 458752 then 0 else 3
  | _ =>
    if !s.mpServed then 2
    else if a = 8 ∨ a = 0x10 ∨ a = 0x18 ∨ (0x500 ≤ a ∧ a ≤ 0x5F8) then 0
    else 3

/-- CMD_STATUS (R497). -/
def State.cmdStatus (s : State) : Nat :=
  let p := s.preura
  let detail := if p.boardLen ≠ 0 ∧ !p.cmdBusy then p.boardLen % 512 else p.cmdDetail
  p.cmdOp % 256 * 2 ^ 56 + (if p.cmdBusy then 1 else p.cmdResult % 256) * 2 ^ 48 + detail % 2 ^ 48

/-- The word at the port's address. -/
def State.mpValue (s : State) : BitVec 64 :=
  let a := s.mpOffset
  match s.mpSpace with
  | 0 => if s.accessOk a then s.regView a else 0
  | 1 => ((s.mpEntry a).getD []).getD (a % 64 / 8) 0
  | 2 =>
    if s.preuraState = 2 then Tbl.get (fun _ => 0) s.preura.sram (a / 8)
    else BitVec.ofNat 64 (s.flashWord s.idleSlot (512 + a / 8))
  | _ =>
    if a = 8 then BitVec.ofNat 64 s.cmdStatus
    else if a = 0x10 then BitVec.ofNat 64 s.fwInfo
    else if a = 0x18 then BitVec.ofNat 64 (s.preura.logFirst % 2 ^ 32 * 2 ^ 32 + s.preura.logNext % 2 ^ 32)
    else (wordsOf 32 s.preura.boardIn).getD ((a - 0x500) / 8) 0

/-- An MP_DATA access completes: READY is cleared, ADDRESS advances under AUTOINC (R493, R495). -/
def State.mpComplete (s : State) : State :=
  let a := s.preura.mpAddr
  let next := BitVec.ofNat 64 (setBitsOf a.toNat 39 0 (s.mpOffset + 8))
  { s with preura := { s.preura with mpReady := false, mpAddr := if s.mpAuto then next else a } }

/-- Reading the last word of an unread BOARD_IN body frees it (R497, R499). [DEDUCED, log entry 132] -/
def State.boardTaken (s : State) : State :=
  let a := s.mpOffset
  if s.mpSpace = 3 ∧ s.preura.boardLen ≠ 0 ∧ a = 0x500 + (s.preura.boardLen - 1) / 8 * 8 then
    { s with preura := { s.preura with boardLen := 0 } }
  else s

/-- A read transaction of MP_DATA. [DEDUCED, log entry 132] -/
def State.mpDataRead (s : State) : State :=
  if !s.preura.mpReady then (s.mpShow 0).mpFail 1
  else if s.mpReadError ≠ 0 then (s.mpShow 0).mpFail s.mpReadError
  else ((s.mpShow s.preura.mpRead).boardTaken).mpComplete

/-- MP_DATA_READ (R494, R495). -/
def execMpDataRead (s : State) : Host.Outcome State Fault Refusal := .next (s.portUp State.mpDataRead)

/-- Why a write of MP_DATA fails: 0 where it does not. -/
def State.mpWriteError (s : State) : Nat :=
  let a := s.mpOffset
  match s.mpSpace with
  | 0 => 4
  | 1 => if s.firmware then 4 else 2
  | 2 =>
    if !s.mpServed then 2
    else if !s.preura.stageOpen ∨ a ≠ s.preura.stageOff ∨ 458752 ≤ a then 3
    else if s.preuraState ≠ 2 ∧ s.bit R.mboxStatus F.mboxStatus_sealed then 6
    else 0
  | _ =>
    if !s.mpServed then 2
    else if a = 0 then (if s.preura.cmdBusy then 5 else 0)
    else if 0x400 ≤ a ∧ a ≤ 0x4F8 then 0
    else if a = 8 ∨ a = 0x10 ∨ a = 0x18 ∨ (0x500 ≤ a ∧ a ≤ 0x5F8) then 4
    else 3

/-- A word of STAGE waits to be taken; a word of COMMAND acts as it is written. -/
def State.mpTakes (s : State) (v : Word) : State :=
  let a := s.mpOffset
  if s.mpSpace = 2 then { s with preura := { s.preura with mpWord := some v } }
  else if a = 0 then s.cmdWord v.toNat
  else { s with preura := { s.preura with boardOut := Tbl.set (fun _ => 0) s.preura.boardOut ((a - 0x400) / 8) v } }

/-- A write transaction of MP_DATA. [DEDUCED, log entry 132] -/
def State.mpDataWrite (s : State) (v : Word) : State :=
  if !s.preura.mpReady then s.mpFail 5
  else if s.mpWriteError ≠ 0 then s.mpFail s.mpWriteError
  else (s.mpTakes v).mpComplete

/-- MP_DATA_WRITE (R494, R495). -/
def execMpDataWrite (v : Word) (s : State) : Host.Outcome State Fault Refusal := .next (s.portUp (·.mpDataWrite v))

/-- The word of STAGE that waits is taken: programmed into the slot being staged, or stored in SRAM in DOWNLOAD.
[DEDUCED, log entry 132] -/
def State.stageTake (s : State) : State :=
  match s.preura.mpWord with
  | none => s
  | some v =>
    let off := s.preura.stageOff
    let s := if s.preuraState = 2 then { s with preura := { s.preura with sram := Tbl.set (fun _ => 0) s.preura.sram (off / 8) v } }
      else s.setFlash s.idleSlot (512 + off / 8) v.toNat
    { s with preura := { s.preura with mpWord := none, stageOff := off + 8 } }

/-- The word written is taken, the next one fetched, and READY set. [DEDUCED, log entry 132] -/
def State.mpBecomesReady (s : State) : State :=
  if s.preura.mpReady then s
  else
    let s := s.stageTake
    let v := if s.mpReadError = 0 then s.mpValue else 0
    { s with preura := { s.preura with mpReady := true, mpRead := v } }

/-- MP_READY (R495). -/
def execMpReady (s : State) : Host.Outcome State Fault Refusal := .next (s.portUp State.mpBecomesReady)

end Sys2Proof.Machine
end

