-- ==== Sys2Proof/Machine/Tap.lean ====
section
/-!
DEFINITION. The boundary-scan TAP (R578): the controller of IEEE 1149.1, its instruction and data registers, TRST_N and the edges of
TCK, and the level of a ball that it drives, MBEN.  What the standard fixes and the spec only names is PRESUMED (log entry 5).
-/

namespace Sys2Proof.Machine

/-- The controller's next state on a rising edge of TCK. [PRESUMED, log entry 5] -/
def TapPhase.step (p : TapPhase) (tms : Bool) : TapPhase :=
  match p with
  | .testLogicReset => if tms then .testLogicReset else .runTestIdle
  | .runTestIdle => if tms then .selectDr else .runTestIdle
  | .selectDr => if tms then .selectIr else .captureDr
  | .captureDr => if tms then .exit1Dr else .shiftDr
  | .shiftDr => if tms then .exit1Dr else .shiftDr
  | .exit1Dr => if tms then .updateDr else .pauseDr
  | .pauseDr => if tms then .exit2Dr else .pauseDr
  | .exit2Dr => if tms then .updateDr else .shiftDr
  | .updateDr => if tms then .selectDr else .runTestIdle
  | .selectIr => if tms then .testLogicReset else .captureIr
  | .captureIr => if tms then .exit1Ir else .shiftIr
  | .shiftIr => if tms then .exit1Ir else .shiftIr
  | .exit1Ir => if tms then .updateIr else .pauseIr
  | .pauseIr => if tms then .exit2Ir else .pauseIr
  | .exit2Ir => if tms then .updateIr else .shiftIr
  | .updateIr => if tms then .selectDr else .runTestIdle

/-- `n` bits that the spec leaves open: free values. -/
def State.freeBits (s : State) (n : Nat) : List Bool × State :=
  ((List.range n).map (fun i => bitOf (Config.freeValue (s.free + i)).toNat 0), { s with free := s.free + n })

/-- The IDCODE register: STEP_MAJOR, 0x9616, a manufacturer id that the spec does not give, and 1 in bit 0. -/
def State.idcode (s : State) : Nat :=
  s.fld R.sysDeviceId F.sysDeviceId_stepMajor % 16 * 2 ^ 28 + 0x9616 * 2 ^ 12 + Config.tapMaker.toNat / 2 * 2 + 1

/-- Which data register the instruction in force selects: 0 BYPASS, 1 IDCODE, 2 the boundary cells. -/
def State.tapSelected (s : State) : Nat :=
  match s.tap.instr with
  | none => 1
  | some i => Config.tapSelects i

/-- Bits of a number, lowest first. -/
def bitsLow (n v : Nat) : List Bool := (List.range n).map (fun i => bitOf v i)

/-- Whether the domain of a boundary cell is ON. -/
def State.cellOn (s : State) (i : Nat) : Bool :=
  match Config.tapCellDomain i with
  | none => true
  | some d => s.domOn d

/-- What Capture-DR loads. The cells show the levels of the pins, which come from outside; those of a domain that is not ON read zero
(R578). [PRESUMED, log entry 5] -/
def State.captureDr (s : State) : State :=
  match s.tapSelected with
  | 1 => { s with tap := { s.tap with dr := bitsLow 32 s.idcode } }
  | 2 =>
    let (b, t) := s.freeBits Config.tapCells
    { t with tap := { t.tap with dr := (List.range Config.tapCells).map (fun i => b.getD i false && s.cellOn i) } }
  | _ => { s with tap := { s.tap with dr := [false] } }

/-- What Capture-IR loads: 01 in the two stages nearest TDO, open bits in the others. [PRESUMED, log entry 5] -/
def State.captureIr (s : State) : State :=
  let (b, s) := s.freeBits (Config.tapIrLength - 2)
  { s with tap := { s.tap with ir := [true, false] ++ b } }

/-- A stage shifts toward TDO. -/
def shiftIn (l : List Bool) (b : Bool) : List Bool := l.drop 1 ++ [b]

/-- A rising edge of TCK. [PRESUMED, log entry 5] -/
def State.tckRise (s : State) (tms tdi : Bool) : State :=
  let s : State :=
    match s.tap.phase with
    | .captureDr => s.captureDr
    | .captureIr => s.captureIr
    | .shiftDr => { s with tap := { s.tap with dr := shiftIn s.tap.dr tdi } }
    | .shiftIr => { s with tap := { s.tap with ir := shiftIn s.tap.ir tdi } }
    | _ => s
  { s with tap := { s.tap with phase := s.tap.phase.step tms } }

/-- A falling edge of TCK: updates, and TDO, which is driven only while shifting. [PRESUMED, log entry 5] -/
def State.tckFall (s : State) : State :=
  let t := { s.tap with tdo := none }
  match s.tap.phase with
  | .testLogicReset => { s with tap := { t with instr := none } }
  | .updateIr => { s with tap := { t with instr := some s.tap.ir } }
  | .updateDr => { s with tap := if s.tapSelected = 2 then { t with cells := s.tap.dr } else t }
  | .shiftDr => { s with tap := { t with tdo := s.tap.dr.head? } }
  | .shiftIr => { s with tap := { t with tdo := s.tap.ir.head? } }
  | _ => { s with tap := t }

/-- Whether the ward lets MBEN of a plane be active now: inside a permit interval, with no hold (R141). -/
def State.wardAllows (s : State) (p : Nat) : Bool := !s.wardHolds && inUnion (s.permitsOf p) s.now16

/-- What ball MBEN[n] shows, none where it floats: before PORST_N is released, and while its domain is not ON or isolated (R526, R567).
Its active level is high, or low with MBEN_POL = 1 (R48). Under EXTEST its cell drives it, the ward letting the active level pass only
where it allows MBEN (R141, R578). [PRESUMED, log entry 5] -/
def State.mbenBall (s : State) (p : Nat) : Option Bool :=
  let low := s.bit (R.medTxCfg p) F.medTxCfg_mbenPol
  if s.pwr.porst || !s.domOn (11 + p / 4) || s.flt.clamped.contains (Src.med (p / 4)) then none
  else if s.tap.instr.any Config.tapExtest then some (if s.wardAllows p then s.tap.cells.getD (Config.tapMbenCell p) low else low)
  else some (s.bit (R.medLaneStatus p) F.medLaneStatus_mben != low)

/-- TAP_RESET (R578): TRST_N, asynchronously. [PRESUMED, log entry 5] -/
def execTapReset (s : State) : Host.Outcome State Fault Refusal :=
  .next { s with tap := { s.tap with phase := .testLogicReset, instr := none, tdo := none } }

/-- TCK_EDGE (R578): TMS and TDI are sampled on rising edges. -/
def execTckEdge (rising tms tdi : Bool) (s : State) : Host.Outcome State Fault Refusal :=
  .next (if rising then s.tckRise tms tdi else s.tckFall)

end Sys2Proof.Machine
end

