-- ==== Sys2Proof/Machine/Dispatch.lean ====
section
/-! DEFINITION. The dispatch: one arm per command of the table, each a direct call of its meaning. -/

namespace Sys2Proof.Machine

def exec (i : Instr) (s : State) : Host.Outcome State Fault Refusal :=
  match i with
  | .medLaneCfgWrite p v => Sys2Proof.Machine.execMedLaneCfgWrite p v s
  | .medTestWrite p v => Sys2Proof.Machine.execMedTestWrite p v s
  | .huntDwellExpiry p => Sys2Proof.Machine.execHuntDwellExpiry p s
  | .losSet p msdPin millivolts => Sys2Proof.Machine.execLosSet p msdPin millivolts s
  | .losClear p msdPin millivolts => Sys2Proof.Machine.execLosClear p msdPin millivolts s
  | .cdrWindowEnd p w => Sys2Proof.Machine.execCdrWindowEnd p w s
  | .txpllUnlock => Sys2Proof.Machine.execTxpllUnlock s
  | .txpllRelock => Sys2Proof.Machine.execTxpllRelock s
  | .txpllResume => Sys2Proof.Machine.execTxpllResume s
  | .codewordRx p slot at_ levels => Sys2Proof.Machine.execCodewordRx p slot at_ levels s
  | .frameAlign p offset => Sys2Proof.Machine.execFrameAlign p offset s
  | .grantArea p => Sys2Proof.Machine.execGrantArea p s
  | .messageRx p => Sys2Proof.Machine.execMessageRx p s
  | .parcelRx p => Sys2Proof.Machine.execParcelRx p s
  | .parcelOpenDone p => Sys2Proof.Machine.execParcelOpenDone p s
  | .rsqTimerExpiry flow => Sys2Proof.Machine.execRsqTimerExpiry flow s
  | .ownWrite v => Sys2Proof.Machine.execOwnWrite v s
  | .ownProbe v => Sys2Proof.Machine.execOwnProbe v s
  | .unitTablesCleared unit => Sys2Proof.Machine.execUnitTablesCleared unit s
  | .lpFrameBoundary => Sys2Proof.Machine.execLpFrameBoundary s
  | .burstBuildStart p => Sys2Proof.Machine.execBurstBuildStart p s
  | .burstCommit p => Sys2Proof.Machine.execBurstCommit p s
  | .burstLaunch p => Sys2Proof.Machine.execBurstLaunch p s
  | .burstEnd p => Sys2Proof.Machine.execBurstEnd p s
  | .wardViolation p overrun => Sys2Proof.Machine.execWardViolation p overrun s
  | .wardCodeWrite v => Sys2Proof.Machine.execWardCodeWrite v s
  | .flowWrite v => Sys2Proof.Machine.execFlowWrite v s
  | .flowProbe v => Sys2Proof.Machine.execFlowProbe v s
  | .anchor m => Sys2Proof.Machine.execAnchor m s
  | .lockout m => Sys2Proof.Machine.execLockout m s
  | .lockoutPermanent m => Sys2Proof.Machine.execLockoutPermanent m s
  | .release m => Sys2Proof.Machine.execRelease m s
  | .lead m => Sys2Proof.Machine.execLead m s
  | .profile m => Sys2Proof.Machine.execProfile m s
  | .asymmetry m => Sys2Proof.Machine.execAsymmetry m s
  | .enrolParams m => Sys2Proof.Machine.execEnrolParams m s
  | .idAssign m => Sys2Proof.Machine.execIdAssign m s
  | .rangeResult m => Sys2Proof.Machine.execRangeResult m s
  | .eqdAdjust m => Sys2Proof.Machine.execEqdAdjust m s
  | .planeAssign m => Sys2Proof.Machine.execPlaneAssign m s
  | .planeRelease m => Sys2Proof.Machine.execPlaneRelease m s
  | .deregister m => Sys2Proof.Machine.execDeregister m s
  | .stateRequest m => Sys2Proof.Machine.execStateRequest m s
  | .lateApply m => Sys2Proof.Machine.execLateApply m s
  | .hostStart => Sys2Proof.Machine.execHostStart s
  | .hostStop => Sys2Proof.Machine.execHostStop s
  | .planeAligned p => Sys2Proof.Machine.execPlaneAligned p s
  | .planeAlignLost p => Sys2Proof.Machine.execPlaneAlignLost p s
  | .wardStatusChange => Sys2Proof.Machine.execWardStatusChange s
  | .tAlignExpiry => Sys2Proof.Machine.execTAlignExpiry s
  | .tEnrolExpiry => Sys2Proof.Machine.execTEnrolExpiry s
  | .tRangeExpiry p => Sys2Proof.Machine.execTRangeExpiry p s
  | .tHoldExpiry => Sys2Proof.Machine.execTHoldExpiry s
  | .planeTHoldExpiry p => Sys2Proof.Machine.execPlaneTHoldExpiry p s
  | .announceBackoff => Sys2Proof.Machine.execAnnounceBackoff s
  | .noAnswer => Sys2Proof.Machine.execNoAnswer s
  | .tAnchorExpiry => Sys2Proof.Machine.execTAnchorExpiry s
  | .flywheelExpiry => Sys2Proof.Machine.execFlywheelExpiry s
  | .tpoArm ix v => Sys2Proof.Machine.execTpoArm ix v s
  | .tpoEdge ix => Sys2Proof.Machine.execTpoEdge ix s
  | .tciEdge j rising => Sys2Proof.Machine.execTciEdge j rising s
  | .tciLoRead j => Sys2Proof.Machine.execTciLoRead j s
  | .snapTake v => Sys2Proof.Machine.execSnapTake v s
  | .packetClassify dir pipe => Sys2Proof.Machine.execPacketClassify dir pipe s
  | .clsRead v => Sys2Proof.Machine.execClsRead v s
  | .clsWrite v => Sys2Proof.Machine.execClsWrite v s
  | .clsDelete v => Sys2Proof.Machine.execClsDelete v s
  | .clsFind v => Sys2Proof.Machine.execClsFind v s
  | .clsCmdDone => Sys2Proof.Machine.execClsCmdDone s
  | .edOpen => Sys2Proof.Machine.execEdOpen s
  | .edCommit => Sys2Proof.Machine.execEdCommit s
  | .edAbandon => Sys2Proof.Machine.execEdAbandon s
  | .sweepDone => Sys2Proof.Machine.execSweepDone s
  | .editionRetire => Sys2Proof.Machine.execEditionRetire s
  | .tableModeWrite v => Sys2Proof.Machine.execTableModeWrite v s
  | .packetAdmit dir pipe => Sys2Proof.Machine.execPacketAdmit dir pipe s
  | .upHbmWriteDone q => Sys2Proof.Machine.execUpHbmWriteDone q s
  | .spillReadDone q => Sys2Proof.Machine.execSpillReadDone q s
  | .hbmTransfer channel pending => Sys2Proof.Machine.execHbmTransfer channel pending s
  | .poolCfgWrite hbm v => Sys2Proof.Machine.execPoolCfgWrite hbm v s
  | .qmRead v => Sys2Proof.Machine.execQmRead v s
  | .qmWrite v => Sys2Proof.Machine.execQmWrite v s
  | .qmFlush v => Sys2Proof.Machine.execQmFlush v s
  | .qmCmdDone => Sys2Proof.Machine.execQmCmdDone s
  | .egressSelect channel => Sys2Proof.Machine.execEgressSelect channel s
  | .wheelFire => Sys2Proof.Machine.execWheelFire s
  | .schRead v => Sys2Proof.Machine.execSchRead v s
  | .schWrite v => Sys2Proof.Machine.execSchWrite v s
  | .schCmdDone => Sys2Proof.Machine.execSchCmdDone s
  | .cliCfgWrite k v => Sys2Proof.Machine.execCliCfgWrite k v s
  | .linkUp k => Sys2Proof.Machine.execLinkUp k s
  | .linkDown k localFault remoteFault blockLock amLock fecLock => Sys2Proof.Machine.execLinkDown k localFault remoteFault blockLock amLock fecLock s
  | .clientFrameRx k f => Sys2Proof.Machine.execClientFrameRx k f s
  | .recovResetExpiry g => Sys2Proof.Machine.execRecovResetExpiry g s
  | .pauseRx k time => Sys2Proof.Machine.execPauseRx k time s
  | .pfcRx k enable times => Sys2Proof.Machine.execPfcRx k enable times s
  | .pauseTimerExpiry k pri => Sys2Proof.Machine.execPauseTimerExpiry k pri s
  | .fcXoff k => Sys2Proof.Machine.execFcXoff k s
  | .fcXon k => Sys2Proof.Machine.execFcXon k s
  | .fcRefresh k => Sys2Proof.Machine.execFcRefresh k s
  | .clientFrameTx k => Sys2Proof.Machine.execClientFrameTx k s
  | .gclCommit k => Sys2Proof.Machine.execGclCommit k s
  | .gclCancel k => Sys2Proof.Machine.execGclCancel k s
  | .gclDisable k => Sys2Proof.Machine.execGclDisable k s
  | .gclDataAccess k write v => Sys2Proof.Machine.execGclDataAccess k write v s
  | .gclStart k => Sys2Proof.Machine.execGclStart k s
  | .gateEntryChange k => Sys2Proof.Machine.execGateEntryChange k s
  | .circRead v => Sys2Proof.Machine.execCircRead v s
  | .circWrite v => Sys2Proof.Machine.execCircWrite v s
  | .circCmdDone => Sys2Proof.Machine.execCircCmdDone s
  | .sdhFrameRx k f => Sys2Proof.Machine.execSdhFrameRx k f s
  | .sdhLosTimer k absent => Sys2Proof.Machine.execSdhLosTimer k absent s
  | .sdhLofTimer k present => Sys2Proof.Machine.execSdhLofTimer k present s
  | .dccPortFrame ix dataIn => Sys2Proof.Machine.execDccPortFrame ix dataIn s
  | .ciphDispatch => Sys2Proof.Machine.execCiphDispatch s
  | .ciphRequestDone engine hostError => Sys2Proof.Machine.execCiphRequestDone engine hostError s
  | .keyLoad v => Sys2Proof.Machine.execKeyLoad v s
  | .keyCommit v => Sys2Proof.Machine.execKeyCommit v s
  | .keyErase v => Sys2Proof.Machine.execKeyErase v s
  | .keyOpDone => Sys2Proof.Machine.execKeyOpDone s
  | .saRead v => Sys2Proof.Machine.execSaRead v s
  | .saWrite v => Sys2Proof.Machine.execSaWrite v s
  | .saCmdDone => Sys2Proof.Machine.execSaCmdDone s
  | .alarmDue ix => Sys2Proof.Machine.execAlarmDue ix s
  | .eventRaise src => Sys2Proof.Machine.execEventRaise src s
  | .clauseDispatch => Sys2Proof.Machine.execClauseDispatch s
  | .clauseResume c => Sys2Proof.Machine.execClauseResume c s
  | .runLimit c x => Sys2Proof.Machine.execRunLimit c x s
  | .latchGrant n => Sys2Proof.Machine.execLatchGrant n s
  | .deadlockDetect => Sys2Proof.Machine.execDeadlockDetect s
  | .lschRead v => Sys2Proof.Machine.execLschRead v s
  | .lschWrite v => Sys2Proof.Machine.execLschWrite v s
  | .lschLoad v => Sys2Proof.Machine.execLschLoad v s
  | .swapArm v => Sys2Proof.Machine.execSwapArm v s
  | .hbmAreaWrite v => Sys2Proof.Machine.execHbmAreaWrite v s
  | .lschCmdDone => Sys2Proof.Machine.execLschCmdDone s
  | .loadDone => Sys2Proof.Machine.execLoadDone s
  | .swapCancel => Sys2Proof.Machine.execSwapCancel s
  | .swapTarget => Sys2Proof.Machine.execSwapTarget s
  | .swapBufferDrain c => Sys2Proof.Machine.execSwapBufferDrain c s
  | .memLoadReturn c x => Sys2Proof.Machine.execMemLoadReturn c x s
  | .ctlReadReturn c x => Sys2Proof.Machine.execCtlReadReturn c x s
  | .ctlWriteLand c => Sys2Proof.Machine.execCtlWriteLand c s
  | .illegal c x => Sys2Proof.Machine.execIllegal c x s
  | .add c x rd ra rb => Sys2Proof.Machine.execAdd c x rd ra rb s
  | .sub c x rd ra rb => Sys2Proof.Machine.execSub c x rd ra rb s
  | .and c x rd ra rb => Sys2Proof.Machine.execAnd c x rd ra rb s
  | .or c x rd ra rb => Sys2Proof.Machine.execOr c x rd ra rb s
  | .xor c x rd ra rb => Sys2Proof.Machine.execXor c x rd ra rb s
  | .shl c x rd ra rb => Sys2Proof.Machine.execShl c x rd ra rb s
  | .shr c x rd ra rb => Sys2Proof.Machine.execShr c x rd ra rb s
  | .sar c x rd ra rb => Sys2Proof.Machine.execSar c x rd ra rb s
  | .mul c x rd ra rb => Sys2Proof.Machine.execMul c x rd ra rb s
  | .mulhu c x rd ra rb => Sys2Proof.Machine.execMulhu c x rd ra rb s
  | .slt c x rd ra rb => Sys2Proof.Machine.execSlt c x rd ra rb s
  | .sltu c x rd ra rb => Sys2Proof.Machine.execSltu c x rd ra rb s
  | .seq c x rd ra rb => Sys2Proof.Machine.execSeq c x rd ra rb s
  | .addi c x rd ra imm => Sys2Proof.Machine.execAddi c x rd ra imm s
  | .subi c x rd ra imm => Sys2Proof.Machine.execSubi c x rd ra imm s
  | .andi c x rd ra imm => Sys2Proof.Machine.execAndi c x rd ra imm s
  | .ori c x rd ra imm => Sys2Proof.Machine.execOri c x rd ra imm s
  | .xori c x rd ra imm => Sys2Proof.Machine.execXori c x rd ra imm s
  | .slti c x rd ra imm => Sys2Proof.Machine.execSlti c x rd ra imm s
  | .sltui c x rd ra imm => Sys2Proof.Machine.execSltui c x rd ra imm s
  | .seqi c x rd ra imm => Sys2Proof.Machine.execSeqi c x rd ra imm s
  | .shori c x rd ra imm => Sys2Proof.Machine.execShori c x rd ra imm s
  | .shli c x rd ra amt => Sys2Proof.Machine.execShli c x rd ra amt s
  | .shri c x rd ra amt => Sys2Proof.Machine.execShri c x rd ra amt s
  | .sari c x rd ra amt => Sys2Proof.Machine.execSari c x rd ra amt s
  | .ext c x rd ra lo len1 => Sys2Proof.Machine.execExt c x rd ra lo len1 s
  | .exts c x rd ra lo len1 => Sys2Proof.Machine.execExts c x rd ra lo len1 s
  | .ins c x rd ra lo len1 => Sys2Proof.Machine.execIns c x rd ra lo len1 s
  | .ld c x rd ra imm => Sys2Proof.Machine.execLd c x rd ra imm s
  | .lw c x rd ra imm => Sys2Proof.Machine.execLw c x rd ra imm s
  | .lb c x rd ra imm => Sys2Proof.Machine.execLb c x rd ra imm s
  | .st c x rs ra imm => Sys2Proof.Machine.execSt c x rs ra imm s
  | .sw c x rs ra imm => Sys2Proof.Machine.execSw c x rs ra imm s
  | .sb c x rs ra imm => Sys2Proof.Machine.execSb c x rs ra imm s
  | .xadd c x rd ra rb => Sys2Proof.Machine.execXadd c x rd ra rb s
  | .br c x off => Sys2Proof.Machine.execBr c x off s
  | .call c x off => Sys2Proof.Machine.execCall c x off s
  | .bz c x ra off => Sys2Proof.Machine.execBz c x ra off s
  | .bnz c x ra off => Sys2Proof.Machine.execBnz c x ra off s
  | .bltz c x ra off => Sys2Proof.Machine.execBltz c x ra off s
  | .bgez c x ra off => Sys2Proof.Machine.execBgez c x ra off s
  | .jr c x ra => Sys2Proof.Machine.execJr c x ra s
  | .callr c x ra => Sys2Proof.Machine.execCallr c x ra s
  | .ctlr c x rd unit word => Sys2Proof.Machine.execCtlr c x rd unit word s
  | .ctlw c x rs unit word => Sys2Proof.Machine.execCtlw c x rs unit word s
  | .ctlrx c x rd ra => Sys2Proof.Machine.execCtlrx c x rd ra s
  | .ctlwx c x rs ra => Sys2Proof.Machine.execCtlwx c x rs ra s
  | .emit c x ra k => Sys2Proof.Machine.execEmit c x ra k s
  | .emitx c x ra rb => Sys2Proof.Machine.execEmitx c x ra rb s
  | .endClause c x => Sys2Proof.Machine.execEndClause c x s
  | .fence c x => Sys2Proof.Machine.execFence c x s
  | .trap c x imm => Sys2Proof.Machine.execTrap c x imm s
  | .arm c x rd ra rb => Sys2Proof.Machine.execArm c x rd ra rb s
  | .tcap c x rd sel => Sys2Proof.Machine.execTcap c x rd sel s
  | .acq c x rd ra imm => Sys2Proof.Machine.execAcq c x rd ra imm s
  | .rel c x ra imm => Sys2Proof.Machine.execRel c x ra imm s
  | .lfix c x ra imm => Sys2Proof.Machine.execLfix c x ra imm s
  | .ptake c x rd ra => Sys2Proof.Machine.execPtake c x rd ra s
  | .mtake c x rd => Sys2Proof.Machine.execMtake c x rd s
  | .pnew c x rd ra => Sys2Proof.Machine.execPnew c x rd ra s
  | .pld c x rd ra rb imm => Sys2Proof.Machine.execPld c x rd ra rb imm s
  | .pst c x rs ra rb imm => Sys2Proof.Machine.execPst c x rs ra rb imm s
  | .plen c x rd ra rb => Sys2Proof.Machine.execPlen c x rd ra rb s
  | .pmeta c x rd ra imm => Sys2Proof.Machine.execPmeta c x rd ra imm s
  | .psend c x rd ra rb => Sys2Proof.Machine.execPsend c x rd ra rb s
  | .pfree c x ra => Sys2Proof.Machine.execPfree c x ra s
  | .mpost c x rd ra rb => Sys2Proof.Machine.execMpost c x rd ra rb s
  | .mdrop c x rd ra => Sys2Proof.Machine.execMdrop c x rd ra s
  | .creq c x rd ra rb => Sys2Proof.Machine.execCreq c x rd ra rb s
  | .cmdDoorbell v => Sys2Proof.Machine.execCmdDoorbell v s
  | .cmdFetch err poisoned entry hdr code => Sys2Proof.Machine.execCmdFetch err poisoned entry hdr code s
  | .cmdCtlWrite base v => Sys2Proof.Machine.execCmdCtlWrite base v s
  | .cplRecordWrite => Sys2Proof.Machine.execCplRecordWrite s
  | .cplHeadWrite v => Sys2Proof.Machine.execCplHeadWrite v s
  | .plSetArea v => Sys2Proof.Machine.execPlSetArea v s
  | .plLoad v => Sys2Proof.Machine.execPlLoad v s
  | .cbReady slot => Sys2Proof.Machine.execCbReady slot s
  | .regWrite src a v => Sys2Proof.Machine.execRegWrite src a v s
  | .rcRead src a => Sys2Proof.Machine.execRcRead src a s
  | .inspRead => Sys2Proof.Machine.execInspRead s
  | .inspWrite v => Sys2Proof.Machine.execInspWrite v s
  | .perstN => Sys2Proof.Machine.execPerstN s
  | .functionLevelReset func => Sys2Proof.Machine.execFunctionLevelReset func s
  | .pcieReady => Sys2Proof.Machine.execPcieReady s
  | .chStart c => Sys2Proof.Machine.execChStart c s
  | .chPause c => Sys2Proof.Machine.execChPause c s
  | .chResume c => Sys2Proof.Machine.execChResume c s
  | .chStop c => Sys2Proof.Machine.execChStop c s
  | .chDoorbell c => Sys2Proof.Machine.execChDoorbell c s
  | .chainEndCheck c endBit next poisoned => Sys2Proof.Machine.execChainEndCheck c endBit next poisoned s
  | .descFetch c words poisoned wbFail ringFail => Sys2Proof.Machine.execDescFetch c words poisoned wbFail ringFail s
  | .descDone c t => Sys2Proof.Machine.execDescDone c t s
  | .chDrainDone c t => Sys2Proof.Machine.execChDrainDone c t s
  | .pcieLinkDown => Sys2Proof.Machine.execPcieLinkDown s
  | .bmeClear func => Sys2Proof.Machine.execBmeClear func s
  | .pktTxInject c data wbFail ringFail => Sys2Proof.Machine.execPktTxInject c data wbFail ringFail s
  | .chRingHeadWrite c v => Sys2Proof.Machine.execChRingHeadWrite c v s
  | .irqHoldoffExpiry c => Sys2Proof.Machine.execIrqHoldoffExpiry c s
  | .chOwnerWrite c v => Sys2Proof.Machine.execChOwnerWrite c v s
  | .vfDisable => Sys2Proof.Machine.execVfDisable s
  | .vfEnable n => Sys2Proof.Machine.execVfEnable n s
  | .pcieLinkUp speed width flit => Sys2Proof.Machine.execPcieLinkUp speed width flit s
  | .completionTimeout c => Sys2Proof.Machine.execCompletionTimeout c s
  | .pwrReqOn by_ mask => Sys2Proof.Machine.execPwrReqOn by_ mask s
  | .pwrReqRetention by_ mask => Sys2Proof.Machine.execPwrReqRetention by_ mask s
  | .pwrReqOff by_ mask => Sys2Proof.Machine.execPwrReqOff by_ mask s
  | .domainDrainDone d => Sys2Proof.Machine.execDomainDrainDone d s
  | .drainAbort d => Sys2Proof.Machine.execDrainAbort d s
  | .domainDown d => Sys2Proof.Machine.execDomainDown d s
  | .wakeTurn => Sys2Proof.Machine.execWakeTurn s
  | .domainOn d => Sys2Proof.Machine.execDomainOn d s
  | .pwrOpWrite v => Sys2Proof.Machine.execPwrOpWrite v s
  | .avsDone rail mv => Sys2Proof.Machine.execAvsDone rail mv s
  | .avsTimeout rail => Sys2Proof.Machine.execAvsTimeout rail s
  | .avsRetry => Sys2Proof.Machine.execAvsRetry s
  | .chipReset v => Sys2Proof.Machine.execChipReset v s
  | .porstNAssert => Sys2Proof.Machine.execPorstNAssert s
  | .porstNRelease boot lead role => Sys2Proof.Machine.execPorstNRelease boot lead role s
  | .startDone => Sys2Proof.Machine.execStartDone s
  | .aonPowerLoss => Sys2Proof.Machine.execAonPowerLoss s
  | .pllUnlock pll => Sys2Proof.Machine.execPllUnlock pll s
  | .refLoss ref => Sys2Proof.Machine.execRefLoss ref s
  | .chipResetEnd boot lead role => Sys2Proof.Machine.execChipResetEnd boot lead role s
  | .pllRelock pll => Sys2Proof.Machine.execPllRelock pll s
  | .refPresent ref => Sys2Proof.Machine.execRefPresent ref s
  | .isolationClampRelease d => Sys2Proof.Machine.execIsolationClampRelease d s
  | .hingeEnWrite v => Sys2Proof.Machine.execHingeEnWrite v s
  | .hingeLanesLocked => Sys2Proof.Machine.execHingeLanesLocked s
  | .hingeLockLost => Sys2Proof.Machine.execHingeLockLost s
  | .hingeCodewordRx levels => Sys2Proof.Machine.execHingeCodewordRx levels s
  | .heartbeatTx => Sys2Proof.Machine.execHeartbeatTx s
  | .heartbeat b => Sys2Proof.Machine.execHeartbeat b s
  | .heartbeatTimeout => Sys2Proof.Machine.execHeartbeatTimeout s
  | .update b => Sys2Proof.Machine.execUpdate b s
  | .updateTx => Sys2Proof.Machine.execUpdateTx s
  | .syncReq b => Sys2Proof.Machine.execSyncReq b s
  | .syncReqTx => Sys2Proof.Machine.execSyncReqTx s
  | .syncStart b => Sys2Proof.Machine.execSyncStart b s
  | .syncEnd b => Sys2Proof.Machine.execSyncEnd b s
  | .leadSelChange level => Sys2Proof.Machine.execLeadSelChange level s
  | .dualLead => Sys2Proof.Machine.execDualLead s
  | .hingeCodewordTx => Sys2Proof.Machine.execHingeCodewordTx s
  | .faultLatch src cls code item => Sys2Proof.Machine.execFaultLatch src cls code item s
  | .wireFault src => Sys2Proof.Machine.execWireFault src s
  | .unitRestartDone src => Sys2Proof.Machine.execUnitRestartDone src s
  | .fltStatusClear k v => Sys2Proof.Machine.execFltStatusClear k v s
  | .capPop => Sys2Proof.Machine.execCapPop s
  | .dispPop v => Sys2Proof.Machine.execDispPop v s
  | .pinFault => Sys2Proof.Machine.execPinFault s
  | .fltReady => Sys2Proof.Machine.execFltReady s
  | .preuraBoot => Sys2Proof.Machine.execPreuraBoot s
  | .sensorSample n v => Sys2Proof.Machine.execSensorSample n v s
  | .sensorPublish => Sys2Proof.Machine.execSensorPublish s
  | .degradeRaise => Sys2Proof.Machine.execDegradeRaise s
  | .degradeLower => Sys2Proof.Machine.execDegradeLower s
  | .logWrite => Sys2Proof.Machine.execLogWrite s
  | .mpAddrWrite v => Sys2Proof.Machine.execMpAddrWrite v s
  | .mpAddrRead => Sys2Proof.Machine.execMpAddrRead s
  | .mpDataWrite v => Sys2Proof.Machine.execMpDataWrite v s
  | .mpDataRead => Sys2Proof.Machine.execMpDataRead s
  | .mpStatusRead => Sys2Proof.Machine.execMpStatusRead s
  | .mpStatusWrite v => Sys2Proof.Machine.execMpStatusWrite v s
  | .mpPreuraReset v => Sys2Proof.Machine.execMpPreuraReset v s
  | .badOpcode op => Sys2Proof.Machine.execBadOpcode op s
  | .mpReady => Sys2Proof.Machine.execMpReady s
  | .stageOpen arg => Sys2Proof.Machine.execStageOpen arg s
  | .stageCommit arg => Sys2Proof.Machine.execStageCommit arg s
  | .activate arg => Sys2Proof.Machine.execActivate arg s
  | .logMark arg => Sys2Proof.Machine.execLogMark arg s
  | .relay arg => Sys2Proof.Machine.execRelay arg s
  | .commandDone => Sys2Proof.Machine.execCommandDone s
  | .mboxSend v => Sys2Proof.Machine.execMboxSend v s
  | .mboxTake => Sys2Proof.Machine.execMboxTake s
  | .mboxPost => Sys2Proof.Machine.execMboxPost s
  | .mboxDone v => Sys2Proof.Machine.execMboxDone v s
  | .log => Sys2Proof.Machine.execLog s
  | .oeXfer => Sys2Proof.Machine.execOeXfer s
  | .oeXferDone q status data => Sys2Proof.Machine.execOeXferDone q status data s
  | .relayToBoard => Sys2Proof.Machine.execRelayToBoard s
  | .oeAlarm q data => Sys2Proof.Machine.execOeAlarm q data s
  | .busStuck q => Sys2Proof.Machine.execBusStuck q s
  | .swapPop => Sys2Proof.Machine.execSwapPop s
  | .sentinelKick v => Sys2Proof.Machine.execSentinelKick v s
  | .sentinelTrip cause => Sys2Proof.Machine.execSentinelTrip cause s
  | .preuraReset v => Sys2Proof.Machine.execPreuraReset v s
  | .slotConfirm => Sys2Proof.Machine.execSlotConfirm s
  | .pmcSelWrite u v => Sys2Proof.Machine.execPmcSelWrite u v s
  | .dumpDue k => Sys2Proof.Machine.execDumpDue k s
  | .dumpOffer k => Sys2Proof.Machine.execDumpOffer k s
  | .bwCfgWrite v => Sys2Proof.Machine.execBwCfgWrite v s
  | .tapReset => Sys2Proof.Machine.execTapReset s
  | .tckEdge rising tms tdi => Sys2Proof.Machine.execTckEdge rising tms tdi s

end Sys2Proof.Machine
end

