-- ==== Sys2Proof/Machine/Step.lean ====
section
/-!
DEFINITION. One step of the block: the command at the front of the queue, or one symbol of time on an empty queue.
-/

namespace Sys2Proof.Machine

/-- The machine takes the command that waits longest and runs it with the rest of the queue; with none waiting, one Gen-2 symbol passes
(log entry 1). [DESIGN CHOICE, log entry 1; DEDUCED, log entry 162] -/
def step (s : State) : Host.Outcome State Fault Refusal :=
  match s.pending with
  | [] => .next s.tick
  | c :: rest => exec c { s with pending := rest }

/-- `s` with the command that a table word spells at the front of its queue; the table gives no row a bit, so every word spells none.
[DEDUCED, log entry 156] -/
def State.withFetchWord (s : State) (nbits w : Nat) : State :=
  match Sys2Proof.decodeTableWord nbits w with
  | some c => { s with pending := c :: s.pending }
  | none => s

end Sys2Proof.Machine
end

