-- ==== Sys2Proof/WellFormed.lean ====
section
/-!
DEFINITION. Which commands the outside can give: the lengths and ranges of what a command carries, where the types of Syntax.lean do not
fix them.  The meanings are total; an ill-formed command stands for nothing that arrives.
-/

namespace Sys2Proof

/-- Bits `hi` down to `lo` of a number. -/
def fieldOf (n hi lo : Nat) : Nat := n / 2 ^ lo % 2 ^ (hi + 1 - lo)

/-- LENGTH of a message envelope (R74). -/
def envLength (env : BitVec 64) : Nat := fieldOf env.toNat 45 34

/-- TYPE of a message envelope (R74). -/
def envType (env : BitVec 64) : Nat := fieldOf env.toNat 53 46

/-- Line levels of PAM4 (R38). -/
def levelsWf (l : List Nat) : Bool := l.all (fun x => decide (x < 4))

/-- A message: its plane, and a body as long as LENGTH says. -/
def msgWf (m : Msg) : Bool := decide (m.plane < 24) && decide (m.body.length = envLength m.env)

/-- A message of a given TYPE (R167). -/
def msgOf (t : Nat) (m : Msg) : Bool := msgWf m && decide (envType m.env = t)

/-- A received SDH frame: nine rows of 270 bytes for each n of STM-16 or STM-64. -/
def sdhWf (f : SdhFrame) : Bool := decide (f.rows.length = 9) && [16, 64].any (fun n => f.rows.all (fun r => r.length == 270 * n))

/-- The well-formed commands. -/
def Instr.wf (i : Instr) : Bool :=
  match i with
  | .medLaneCfgWrite _ _ => true
  | .medTestWrite _ _ => true
  | .huntDwellExpiry _ => true
  | .losSet _ _ _ => true
  | .losClear _ _ _ => true
  | .cdrWindowEnd _ _ => true
  | .txpllUnlock => true
  | .txpllRelock => true
  | .txpllResume => true
  | .codewordRx _ slot _ levels => decide (slot < 9708) && levelsWf levels &&
      decide ((if slot = 0 then 2992 else 2736) ≤ levels.length)
  | .frameAlign _ _ => true
  | .grantArea _ => true
  | .messageRx _ => true
  | .parcelRx _ => true
  | .parcelOpenDone _ => true
  | .rsqTimerExpiry _ => true
  | .ownWrite _ => true
  | .ownProbe _ => true
  | .unitTablesCleared _ => true
  | .lpFrameBoundary => true
  | .burstBuildStart _ => true
  | .burstCommit _ => true
  | .burstLaunch _ => true
  | .burstEnd _ => true
  | .wardViolation _ _ => true
  | .wardCodeWrite _ => true
  | .flowWrite _ => true
  | .flowProbe _ => true
  | .anchor m => msgOf 1 m
  | .lockout m => msgOf 11 m
  | .lockoutPermanent m => msgOf 12 m
  | .release m => msgOf 13 m
  | .lead m => msgOf 14 m
  | .profile m => msgOf 3 m
  | .asymmetry m => msgOf 2 m
  | .enrolParams m => msgOf 4 m
  | .idAssign m => msgOf 5 m
  | .rangeResult m => msgOf 6 m
  | .eqdAdjust m => msgOf 7 m
  | .planeAssign m => msgOf 8 m
  | .planeRelease m => msgOf 9 m
  | .deregister m => msgOf 10 m
  | .stateRequest m => msgOf 15 m
  | .lateApply m => msgWf m
  | .hostStart => true
  | .hostStop => true
  | .planeAligned _ => true
  | .planeAlignLost _ => true
  | .wardStatusChange => true
  | .tAlignExpiry => true
  | .tEnrolExpiry => true
  | .tRangeExpiry _ => true
  | .tHoldExpiry => true
  | .planeTHoldExpiry _ => true
  | .announceBackoff => true
  | .noAnswer => true
  | .tAnchorExpiry => true
  | .flywheelExpiry => true
  | .tpoArm _ _ => true
  | .tpoEdge _ => true
  | .tciEdge _ _ => true
  | .tciLoRead _ => true
  | .snapTake _ => true
  | .packetClassify _ _ => true
  | .clsRead _ => true
  | .clsWrite _ => true
  | .clsDelete _ => true
  | .clsFind _ => true
  | .clsCmdDone => true
  | .edOpen => true
  | .edCommit => true
  | .edAbandon => true
  | .sweepDone => true
  | .editionRetire => true
  | .tableModeWrite _ => true
  | .packetAdmit _ _ => true
  | .upHbmWriteDone _ => true
  | .spillReadDone _ => true
  | .hbmTransfer _ pending => [HbmReq.upWr, .upRd, .dnWr, .dnRd, .circ, .lim].all (fun r => decide (pending.count r ≤ 2))
  | .poolCfgWrite _ _ => true
  | .qmRead _ => true
  | .qmWrite _ => true
  | .qmFlush _ => true
  | .qmCmdDone => true
  | .egressSelect _ => true
  | .wheelFire => true
  | .schRead _ => true
  | .schWrite _ => true
  | .schCmdDone => true
  | .cliCfgWrite _ _ => true
  | .linkUp _ => true
  | .linkDown _ _ _ _ _ _ => true
  | .clientFrameRx _ _ => true
  | .recovResetExpiry _ => true
  | .pauseRx _ _ => true
  | .pfcRx _ _ times => decide (times.length = 8)
  | .pauseTimerExpiry _ _ => true
  | .fcXoff _ => true
  | .fcXon _ => true
  | .fcRefresh _ => true
  | .clientFrameTx _ => true
  | .gclCommit _ => true
  | .gclCancel _ => true
  | .gclDisable _ => true
  | .gclDataAccess _ _ _ => true
  | .gclStart _ => true
  | .gateEntryChange _ => true
  | .circRead _ => true
  | .circWrite _ => true
  | .circCmdDone => true
  | .sdhFrameRx _ f => sdhWf f
  | .sdhLosTimer _ _ => true
  | .sdhLofTimer _ _ => true
  | .dccPortFrame _ dataIn => decide (dataIn.length = 1536)
  | .ciphDispatch => true
  | .ciphRequestDone _ _ => true
  | .keyLoad _ => true
  | .keyCommit _ => true
  | .keyErase _ => true
  | .keyOpDone => true
  | .saRead _ => true
  | .saWrite _ => true
  | .saCmdDone => true
  | .alarmDue _ => true
  | .eventRaise src => decide (src < 8192)
  | .clauseDispatch => true
  | .clauseResume _ => true
  | .runLimit _ _ => true
  | .latchGrant _ => true
  | .deadlockDetect => true
  | .lschRead _ => true
  | .lschWrite _ => true
  | .lschLoad _ => true
  | .swapArm _ => true
  | .hbmAreaWrite _ => true
  | .lschCmdDone => true
  | .loadDone => true
  | .swapCancel => true
  | .swapTarget => true
  | .swapBufferDrain _ => true
  | .memLoadReturn _ _ => true
  | .ctlReadReturn _ _ => true
  | .ctlWriteLand _ => true
  | .illegal _ _ => true
  | .add _ _ _ _ _ => true
  | .sub _ _ _ _ _ => true
  | .and _ _ _ _ _ => true
  | .or _ _ _ _ _ => true
  | .xor _ _ _ _ _ => true
  | .shl _ _ _ _ _ => true
  | .shr _ _ _ _ _ => true
  | .sar _ _ _ _ _ => true
  | .mul _ _ _ _ _ => true
  | .mulhu _ _ _ _ _ => true
  | .slt _ _ _ _ _ => true
  | .sltu _ _ _ _ _ => true
  | .seq _ _ _ _ _ => true
  | .addi _ _ _ _ _ => true
  | .subi _ _ _ _ _ => true
  | .andi _ _ _ _ _ => true
  | .ori _ _ _ _ _ => true
  | .xori _ _ _ _ _ => true
  | .slti _ _ _ _ _ => true
  | .sltui _ _ _ _ _ => true
  | .seqi _ _ _ _ _ => true
  | .shori _ _ _ _ _ => true
  | .shli _ _ _ _ _ => true
  | .shri _ _ _ _ _ => true
  | .sari _ _ _ _ _ => true
  | .ext _ _ _ _ lo len1 => decide (lo.toNat + len1.toNat + 1 ≤ 64)
  | .exts _ _ _ _ lo len1 => decide (lo.toNat + len1.toNat + 1 ≤ 64)
  | .ins _ _ _ _ lo len1 => decide (lo.toNat + len1.toNat + 1 ≤ 64)
  | .ld _ _ _ _ _ => true
  | .lw _ _ _ _ _ => true
  | .lb _ _ _ _ _ => true
  | .st _ _ _ _ _ => true
  | .sw _ _ _ _ _ => true
  | .sb _ _ _ _ _ => true
  | .xadd _ _ _ _ _ => true
  | .br _ _ _ => true
  | .call _ _ _ => true
  | .bz _ _ _ _ => true
  | .bnz _ _ _ _ => true
  | .bltz _ _ _ _ => true
  | .bgez _ _ _ _ => true
  | .jr _ _ _ => true
  | .callr _ _ _ => true
  | .ctlr _ _ _ _ _ => true
  | .ctlw _ _ _ _ _ => true
  | .ctlrx _ _ _ _ => true
  | .ctlwx _ _ _ _ => true
  | .emit _ _ _ _ => true
  | .emitx _ _ _ _ => true
  | .endClause _ _ => true
  | .fence _ _ => true
  | .trap _ _ _ => true
  | .arm _ _ _ _ _ => true
  | .tcap _ _ _ _ => true
  | .acq _ _ _ _ _ => true
  | .rel _ _ _ _ => true
  | .lfix _ _ _ _ => true
  | .ptake _ _ _ _ => true
  | .mtake _ _ _ => true
  | .pnew _ _ _ _ => true
  | .pld _ _ _ _ _ _ => true
  | .pst _ _ _ _ _ _ => true
  | .plen _ _ _ _ _ => true
  | .pmeta _ _ _ _ _ => true
  | .psend _ _ _ _ _ => true
  | .pfree _ _ _ => true
  | .mpost _ _ _ _ _ => true
  | .mdrop _ _ _ _ => true
  | .creq _ _ _ _ _ => true
  | .cmdDoorbell _ => true
  | .cmdFetch err _ _ hdr code => err || (decide (hdr.length = 8) && decide (1 ≤ code.length) && decide (code.length ≤ 256))
  | .cmdCtlWrite _ _ => true
  | .cplRecordWrite => true
  | .cplHeadWrite _ => true
  | .plSetArea _ => true
  | .plLoad _ => true
  | .cbReady _ => true
  | .regWrite _ _ _ => true
  | .rcRead _ _ => true
  | .inspRead => true
  | .inspWrite _ => true
  | .perstN => true
  | .functionLevelReset _ => true
  | .pcieReady => true
  | .chStart _ => true
  | .chPause _ => true
  | .chResume _ => true
  | .chStop _ => true
  | .chDoorbell _ => true
  | .chainEndCheck _ _ _ _ => true
  | .descFetch _ words _ _ _ => match words with | some w => decide (5 ≤ w.length) | none => true
  | .descDone _ t => decide (t.status ≤ 2)
  | .chDrainDone _ t => decide (t.status ≤ 2)
  | .pcieLinkDown => true
  | .bmeClear _ => true
  | .pktTxInject _ _ _ _ => true
  | .chRingHeadWrite _ _ => true
  | .irqHoldoffExpiry _ => true
  | .chOwnerWrite _ _ => true
  | .vfDisable => true
  | .vfEnable _ => true
  | .pcieLinkUp _ _ _ => true
  | .completionTimeout _ => true
  | .pwrReqOn _ _ => true
  | .pwrReqRetention _ _ => true
  | .pwrReqOff _ _ => true
  | .domainDrainDone _ => true
  | .drainAbort _ => true
  | .domainDown _ => true
  | .wakeTurn => true
  | .domainOn _ => true
  | .pwrOpWrite _ => true
  | .avsDone _ _ => true
  | .avsTimeout _ => true
  | .avsRetry => true
  | .chipReset _ => true
  | .porstNAssert => true
  | .porstNRelease _ _ _ => true
  | .startDone => true
  | .aonPowerLoss => true
  | .pllUnlock _ => true
  | .refLoss _ => true
  | .chipResetEnd _ _ _ => true
  | .pllRelock _ => true
  | .refPresent _ => true
  | .isolationClampRelease _ => true
  | .hingeEnWrite _ => true
  | .hingeLanesLocked => true
  | .hingeLockLost => true
  | .hingeCodewordRx levels => levelsWf levels && decide (levels.length = 2720)
  | .heartbeatTx => true
  | .heartbeat _ => true
  | .heartbeatTimeout => true
  | .update _ => true
  | .updateTx => true
  | .syncReq _ => true
  | .syncReqTx => true
  | .syncStart _ => true
  | .syncEnd _ => true
  | .leadSelChange _ => true
  | .dualLead => true
  | .hingeCodewordTx => true
  | .faultLatch _ _ _ _ => true
  | .wireFault _ => true
  | .unitRestartDone _ => true
  | .fltStatusClear _ _ => true
  | .capPop => true
  | .dispPop _ => true
  | .pinFault => true
  | .fltReady => true
  | .preuraBoot => true
  | .sensorSample _ _ => true
  | .sensorPublish => true
  | .degradeRaise => true
  | .degradeLower => true
  | .logWrite => true
  | .mpAddrWrite _ => true
  | .mpAddrRead => true
  | .mpDataWrite _ => true
  | .mpDataRead => true
  | .mpStatusRead => true
  | .mpStatusWrite _ => true
  | .mpPreuraReset _ => true
  | .badOpcode _ => true
  | .mpReady => true
  | .stageOpen _ => true
  | .stageCommit _ => true
  | .activate _ => true
  | .logMark _ => true
  | .relay _ => true
  | .commandDone => true
  | .mboxSend _ => true
  | .mboxTake => true
  | .mboxPost => true
  | .mboxDone _ => true
  | .log => true
  | .oeXfer => true
  | .oeXferDone _ _ data => decide (data.length ≤ 252)
  | .relayToBoard => true
  | .oeAlarm _ data => decide (data.length ≤ 32)
  | .busStuck _ => true
  | .swapPop => true
  | .sentinelKick _ => true
  | .sentinelTrip _ => true
  | .preuraReset _ => true
  | .slotConfirm => true
  | .pmcSelWrite _ _ => true
  | .dumpDue _ => true
  | .dumpOffer _ => true
  | .bwCfgWrite _ => true
  | .tapReset => true
  | .tckEdge _ _ _ => true

end Sys2Proof
end

