-- ==== Sys2Proof/Safety.lean ====
section
/-!
DEFINITION. What counts as a sound state and a safe run, in the terms the claims use: every table and the memory in canonical form, and
no step that ends in a fault or a refusal.
-/

namespace Sys2Proof.Machine

/-- The register table is in canonical form: equal register files are equal data. -/
def State.regsWf (s : State) : Bool := Tbl.wf regReset s.regs

/-- The byte that a memory cell reads as. [DESIGN CHOICE, log entry 4] -/
def State.cell (s : State) (a : Nat) : Byte := Tbl.get memDefault s.mem a

/-- Every byte of memory reads as before. -/
def memKept (s t : State) : Prop := ∀ a, t.cell a = s.cell a

/-- Every register outside a list of addresses reads as before. -/
def regsKept (s t : State) (l : List Nat) : Prop := ∀ a, a ∉ l → t.reg a = s.reg a

/-- Every register outside a list of units reads as before. -/
def unitsKept (s t : State) (us : List Nat) : Prop := ∀ a, unitOf a ∉ us → t.reg a = s.reg a

/-- A counter field has gone up by `n`, or stands at its greatest value. -/
def counted (s t : State) (a : Nat) (f : Fld) (n : Nat := 1) : Prop :=
  t.fld a f = min (s.fld a f + n) (2 ^ (f.hi + 1 - f.lo) - 1)

/-- The fields of a register after a write of `v` by their access types (R7): PW fields take only a program's. -/
def fieldsTaken (program : Bool) (s t : State) (a : Nat) (v : Word) (d : RegDesc) : Prop :=
  ∀ f ∈ d.fields, bitsOf (t.reg a).toNat f.hi f.lo =
    match f.access with
    | .rw | .wo => bitsOf v.toNat f.hi f.lo
    | .pw => if program then bitsOf v.toNat f.hi f.lo else bitsOf (s.reg a).toNat f.hi f.lo
    | .w1c => bitsOf ((s.reg a) &&& ~~~v).toNat f.hi f.lo
    | .ro | .rc => bitsOf (s.reg a).toNat f.hi f.lo

/-- A write of another agent than a program is counted in PW_DISCARDS where it reaches a register with a PW field, and else not. -/
def discardCounted (s t : State) (a : Nat) : Prop :=
  if hasPw a then counted s t R.gateCounts F.gateCounts_pwDiscards
  else t.fld R.gateCounts F.gateCounts_pwDiscards = s.fld R.gateCounts F.gateCounts_pwDiscards

/-- What a write of a table command does: while BUSY it only latches the collision; else the operation and the index are taken, and STATUS
is BUSY, or the not-ready code while the unit's table is being cleared; no other register changes. -/
def takesTable (s : State) (c : Instr) (v : BitVec 64) (reg : Nat) (status op idx : Fld) (n stReg : Nat) (coll ready : Fld) (notReady : Nat) : Prop :=
  (s.fld reg status = 1 → ∃ t, exec c s = .next t ∧ t.bit stReg coll = true ∧ memKept s t ∧ regsKept s t [stReg]) ∧
  (s.fld reg status ≠ 1 → ∃ t, exec c s = .next t ∧ t.fld reg op = n ∧ t.fld reg idx = bitsOf v.toNat idx.hi idx.lo ∧
    t.fld reg status = (if s.bit stReg ready then 1 else notReady) ∧ memKept s t ∧ regsKept s t [reg])

/-- A hub message of type `t` whose turn it is stands at its application point (R158), which has not passed (R159). -/
def State.atPoint (s : State) (m : Msg) (t : Nat) : Prop := s.turnOf m t = true ∧ s.lateFor m = false

/-! ## Limtin instructions -/

/-- A context stands at an instruction: it runs the clause, waits for nothing in flight, and the word at its pc decodes to it. -/
def State.atInstr (s : State) (c x : Nat) (cl : Clause) (i : LimInstr) : Prop :=
  (s.ctx c x).clause = some cl ∧ (s.ctx c x).wait = none ∧ (s.ctx c x).refused = none ∧ decodeLim (s.fetchLim c (s.ctx c x) cl) = some i

/-- A context stands at an instruction and is the one its core issues from next (R374). -/
def State.standsAt (s : State) (c x : Nat) (cl : Clause) (i : LimInstr) : Prop := s.atInstr c x cl i ∧ s.mayIssue c x = true

/-- A context but for the cycles until its next issue (R412, R416). -/
def Ctx.untimed (t : Ctx) : Ctx := { t with stall := 0, slow := [] }

/-- Every context but one is as before; for those of its own core, cycles until their next issue may have passed. -/
def ctxKept (s t : State) (c x : Nat) : Prop :=
  ∀ d y, (d ≠ c ∨ y ≠ x) → (t.ctx d y).untimed = (s.ctx d y).untimed ∧ (d ≠ c → t.ctx d y = s.ctx d y)

/-- Every general register of a context but one is as before. -/
def gregsKept (a b : Ctx) (rd : BitVec 5) : Prop := ∀ r, r ≠ rd → b.gr r = a.gr r

/-- The context is as before but that it goes on to the next instruction. -/
def goesOn (s t : State) (c x : Nat) : Prop := (t.ctx c x).untimed = ({ s.ctx c x with pc := (s.ctx c x).pc + 1 } : Ctx).untimed

/-- An instruction of a context writes `v` to `rd`, or nothing where `rd` is g0, and goes on to the next one: no other register of the
context, no other context, no byte of memory and no register outside the core's own unit changes. -/
def limPuts (s : State) (i : Instr) (c x : Nat) (rd : BitVec 5) (v : BitVec 64) : Prop :=
  ∃ t, exec i s = .next t ∧ (t.ctx c x).gr rd = (if rd = 0 then 0 else v) ∧ gregsKept (s.ctx c x) (t.ctx c x) rd ∧
    (t.ctx c x).pc = (s.ctx c x).pc + 1 ∧ (t.ctx c x).wait = none ∧ (t.ctx c x).clause = (s.ctx c x).clause ∧ (t.ctx c x).h = (s.ctx c x).h ∧
    ctxKept s t c x ∧ memKept s t ∧ unitsKept s t [0xA0 + c]

/-- A clause of a node that holds no object and whose node no source fires. -/
def State.plainClause (s : State) (c x : Nat) (cl : Clause) : Prop :=
  cl.block = false ∧ cl.core = c ∧ (s.ctx c x).objects = [] ∧ s.lsch.bindings = []

/-- An instruction of a context raises an exception: the context is freed, a class U fault of LIM is signalled with the exception's code,
no byte of memory and no other context changes, and, for a clause that holds nothing, the clause's end FAULTED is counted and only
registers of the log, the scheduler, the latch bank and the core change. -/
def limFaults (s : State) (i : Instr) (c x : Nat) (cl : Clause) (code : Nat) : Prop :=
  ∃ t, exec i s = .next t ∧ t.ctx c x = {} ∧ t.wires = s.wires ++ [(Src.lim, 1, code)] ∧ ctxKept s t c x ∧ memKept s t ∧
    (s.plainClause c x cl → counted s t (R.lschCount 8) F.lschCount_count ∧ unitsKept s t [0x04, 0x9A, 0x9B, 0xA0 + c])

/-- A block of the hinge link whose turn it is: no received block that came before it waits to be acted on. -/
def State.blockTurn (s : State) (b : BitVec 512) : Prop := b ∉ s.twin.inbox ∨ s.twin.inbox.head? = some b

/-! ## Descriptors -/

/-- The turns of channel `c` on the link suffice now for what is left of `n` bytes of its descriptor (R454). -/
def State.turnsFor (s : State) (c n : Nat) : Prop :=
  n ≤ (s.chan c).share ∨ ∃ u, s.linkTake c (n - (s.chan c).share) = some (n - (s.chan c).share, u)

/-- Channel `c` writes descriptor `w` back from its byte `off` on, after the writes `pre`: DONE, BAD, FIRST and LAST, the status `e` and `n`
bytes in word 5, its counters, and then the end of the chain is checked or NEXT is read (R445). -/
def wroteBack (s t : State) (c : Nat) (w : List Word) (pre : List HostOut) (off flags e n : Nat) : Prop :=
  ∃ b o w5, t.host.out = s.host.out ++ pre ++ .write (s.chOwner c) (s.chCur c + off) b :: o ∧ w5 = beNat ((b.drop (40 - off)).take 8) ∧
    bitOf w5 63 = true ∧ bitOf w5 62 = decide (e ≠ 0) ∧ bitsOf w5 61 60 = flags ∧ bitsOf w5 59 56 = e ∧ bitsOf w5 31 0 = n % 2 ^ 32 ∧
    counted s t (R.dmaChCounts c) F.dmaChCounts_descDone ∧ counted s t (R.dmaChCounts c) F.dmaChCounts_descBad (if e = 0 then 0 else 1) ∧
    t.chState c = s.chState c ∧ (t.chan c).desc = none ∧ (t.chan c).checking = dEnd w ∧
    (dEnd w = false → t.chCur c = dNext w / 64 * 64 ∧ (t.chan c).fetching = true)

/-- A step that answers a next state. -/
def stepsOn (s : State) : Prop := ∃ t, step s = .next t

/-- Every waiting command is well-formed. -/
def State.queueWf (s : State) : Bool := s.pending.all Instr.wf

end Sys2Proof.Machine
end

