-- ==== Sys2Proof/Certificates/Slice0/Obligations.lean ====
section
/-!
DEFINITION. The statements of this row: what the commands of every family do, what a step does, what reset leaves, and the invariants
that every step keeps. `counted`, `memKept`, `regsKept` and `unitsKept` are defined in Safety.
-/

open Sys2Proof Sys2Proof.Machine

/-- A step with the command c at the front of the queue is the execution of c with the queue's rest. -/
def Obligations.StepRunsFrontCommand : Prop :=
  ∀ (s : State) (c : Instr), step { s with pending := c :: s.pending } = exec c s

/-- With no command waiting, a step advances the symbol of the line position by one while it runs, and the count of symbols of local
time by one while PORST_N is high, leaves the frame as it is and stops before a frame's end. While no burst, lead or lag stands in
the UBB, no violation is remembered, no packet waits in a queue, no request is in the cipher unit, no pulse is out and no lane
generates a pattern, it changes no register, no memory, no packet, parcel, grant or clause. The idle step itself is the model's
choice (log entry 1). -/
def Obligations.EmptyQueueCountsOneSymbol : Prop :=
  ∀ s : State, s.pending = [] →
    ((s.lpValid = true → s.time.sym + 1 < frameSymbols) →
      ∃ t : State, step s = .next t ∧ t.time.sym = s.time.sym + (if s.lpValid then 1 else 0) ∧
        t.time.now = s.time.now + (if s.pwr.porst then 0 else 1) ∧ t.time.frame = s.time.frame ∧ t.pending = [] ∧
        (s.ubb.planes = [] → s.ubb.builds = [] → s.ward.violations = [] → s.fld R.wardStatus F.wardStatus_viol1s = 0 →
          s.qm.queues = [] →
          s.ciph.running = [] → s.time.pulses = [] → (∀ p : Plane, s.patGen p = 0 ∧ (s.lane p).fill = false) →
          memKept s t ∧ regsKept s t [] ∧ t.qm = s.qm ∧ t.dfp = s.dfp ∧ t.ubb = s.ubb ∧ t.lsch = s.lsch ∧ t.edges = s.edges)) ∧
    (s.lpValid = true → frameSymbols ≤ s.time.sym + 1 → step s = .next s)

/-- No command stops the block: whatever the command and the state, the execution answers a next state, never a fault or a refusal.
Where it rests on the model's own reading or choice, that is log entry 2. -/
def Obligations.EveryCommandAnswersANextState : Prop :=
  ∀ (c : Instr) (s : State), ∃ t : State, exec c s = .next t

/-- A bit of a register that lies in no readable field reads as zero, whatever the state, and an address at which no register exists
reads as zero.
Where it rests on the model's own reading or choice, that is log entry 16. -/
def Obligations.ReservedBitsReadZero : Prop :=
  ∀ (s : State) (a : Nat),
    (regDesc a = none → s.regView a = 0) ∧
    (∀ (d : RegDesc) (i : Nat), regDesc a = some d → (∀ f ∈ d.fields, f.access = .wo ∨ i < f.lo ∨ f.hi < i) →
      (s.regView a).getLsbD i = false)

/-- At reset SYS.DEVICE_ID at 0x01_0000_0000 shows the vendor, part, stepping and generation, SYS.SERIAL the fused serial number, every
lane is disabled with LOS and LOL, no plane has a state beyond DOWN, and TID is unassigned (0x3FE).
Where it rests on the model's own reading or choice, that is log entry 157. -/
def Obligations.ResetIdentificationAndStatus : Prop :=
  R.sysDeviceId = 0x0100000000 ∧ State.reset.fld R.sysDeviceId ⟨63, 48⟩ = 0x4B5A ∧ State.reset.fld R.sysDeviceId ⟨47, 32⟩ = 0x9616 ∧
  State.reset.fld R.sysDeviceId ⟨27, 20⟩ = 0x21 ∧ State.reset.fld R.sysDeviceId ⟨7, 0⟩ = 2 ∧
    State.reset.reg R.sysSerial = Config.serialNumber ∧
  State.reset.fld R.dfpIdent F.dfpIdent_tid = 0x3FE ∧
  (∀ p : Plane, State.reset.planeState p = 0 ∧ State.reset.bit (R.medLaneCfg p) F.medLaneCfg_laneEn = false ∧
    State.reset.bit (R.medLaneStatus p) F.medLaneStatus_los = true ∧ State.reset.bit (R.medLaneStatus p) F.medLaneStatus_lol = true)

/-- A write to a register with no behaviour of its own, whose fields do not overlap. From a program: an RW, PW or WO field takes the
value written, a W1C field keeps the bits where no one is written, an RO or RC field stays, and no other register changes. From the
PF of the host, or from Preura, to a unit they may write: the same, but a PW field stays, and a write that reaches a PW register is
counted in PW_DISCARDS. A host write to a missing register sets the inspection window's error status and is counted in NO_REG; one
to the counter block of DMA changes nothing; and a program's write that meets R24 changes no register and leaves its clause a
deferred CTL_ACCESS.
Where it rests on the model's own reading or choice, that is log entries 11, 13 and 14. -/
def Obligations.RegisterWritesFollowAccessTypes : Prop :=
  ∀ (s : State) (a : BitVec 40) (v : Word) (d : RegDesc), regDesc a.toNat = some d →
    d.fields.Pairwise (fun f g => f.hi < g.lo ∨ g.hi < f.lo) →
    (∀ f ∈ d.fields, f.lo ≤ f.hi ∧ f.hi < 64) →
    (∀ (c : CoreId) (x : CtxId), s.accessOk a.toNat = true → s.writeActs true (0xA0 + c) a.toNat v = none →
      ∃ t : State, exec (.regWrite (.program c x) a v) s = .next t ∧ memKept s t ∧ regsKept s t [a.toNat] ∧
        fieldsTaken true s t a.toNat v d) ∧
    (s.domOn 0 = true → barUnit a.toNat = true → barWrites a.toNat = true → s.accessOk a.toNat = true → a.toNat ≠ R.gateInspData →
      a.toNat ≠ R.gateCounts → offOf a.toNat < 0x10000 → (∀ u : State, u.writeActs false 0 a.toNat v = none) →
      ∃ t : State, exec (.regWrite (.host 0) a v) s = .next t ∧ memKept s t ∧ regsKept s t [a.toNat, R.gateCounts] ∧
        discardCounted s t a.toNat ∧ fieldsTaken false s t a.toNat v d) ∧
    (s.preuraRuns = true → preuraWrites (unitOf a.toNat) = true → s.accessOk a.toNat = true →
      (∀ u : State, u.writeActs false 0x9D a.toNat v = none) →
      ∃ t : State, exec (.regWrite .preura a v) s = .next t ∧ memKept s t ∧ regsKept s t [a.toNat, R.gateCounts] ∧
        (s.domOn 0 = true → discardCounted s t a.toNat) ∧ fieldsTaken false s t a.toNat v d) ∧
    (s.domOn 0 = true → unitOf a.toNat = 0x98 → offOf a.toNat < 0x10000 → s.accessOk a.toNat = true →
      exec (.regWrite (.host 0) a v) s = .next s) ∧
    (∀ b : BitVec 40, s.domOn 0 = true → regDesc b.toNat = none →
      ∃ t : State, exec (.regWrite (.host 0) b v) s = .next t ∧ t.bit R.gateInspStatus F.gateInspStatus_err = true ∧
        t.fld R.gateInspStatus F.gateInspStatus_errAddr = b.toNat ∧ counted s t R.gateCounts F.gateCounts_noReg ∧ memKept s t ∧
        regsKept s t [R.gateInspStatus, R.gateCounts]) ∧
    (∀ (c : CoreId) (x : CtxId) (cl : Clause), s.accessOk a.toNat = false → (s.ctx c x).clause = some cl → (s.ctx c x).refused = none →
      ∃ t : State, exec (.regWrite (.program c x) a v) s = .next t ∧ (t.ctx c x).refused.isSome = true ∧
        (t.ctx c x).pc = (s.ctx c x).pc ∧
        memKept s t ∧ regsKept s t [])

/-- A program's read of a register that exists, is powered and hands out no queue entry shows its value and then clears its RC fields
and no other field or register. A read through the inspection window shows the value at INSP_ADDR and changes no register but
INSP_DATA and, under AUTOINC, INSP_ADDR, which moves to the next register. A write through the window is discarded and counted.
Where it rests on the model's own reading or choice, that is log entry 16. -/
def Obligations.ReadsClearRcFieldsExceptByInspection : Prop :=
  ∀ (s : State),
    (∀ (c : CoreId) (x : CtxId) (a : BitVec 40) (d : RegDesc), regDesc a.toNat = some d →
      d.fields.Pairwise (fun f g => f.hi < g.lo ∨ g.hi < f.lo) →
      (∀ f ∈ d.fields, f.lo ≤ f.hi ∧ f.hi < 64) → s.accessOk a.toNat = true → unitOf a.toNat ≠ 5 →
        (unitOf a.toNat < 0x30 ∨ 0x8F < unitOf a.toNat) →
      ∃ t : State, exec (.rcRead (.program c x) a) s = .next t ∧ t.host.rdata = s.regView a.toNat ∧ memKept s t ∧
        regsKept s t [a.toNat] ∧
        ∀ f ∈ d.fields, bitsOf (t.reg a.toNat).toNat f.hi f.lo = if f.access = .rc then 0 else bitsOf (s.reg a.toNat).toNat f.hi f.lo) ∧
    (s.domOn 0 = true → s.accessOk (s.fld R.gateInspAddr F.gateInspAddr_addr) = true →
      ∃ t : State, exec .inspRead s = .next t ∧ t.host.rdata = s.regView (s.fld R.gateInspAddr F.gateInspAddr_addr) ∧
        (s.bit R.gateInspAddr F.gateInspAddr_autoinc = true →
          t.fld R.gateInspAddr F.gateInspAddr_addr = (s.fld R.gateInspAddr F.gateInspAddr_addr + 8) % 2 ^ 40) ∧
        memKept s t ∧ regsKept s t [R.gateInspData, R.gateInspAddr]) ∧
    (∀ v : Word, s.domOn 0 = true →
      ∃ t : State, exec (.inspWrite v) s = .next t ∧ counted s t R.gateCounts F.gateCounts_inspWrites ∧ memKept s t ∧
        regsKept s t [R.gateCounts])

/-- Every Limtin instruction with a word decodes from its own word with every operand at every value, every word that decodes is the
word of the instruction it decodes to (so no reserved bit is ever dropped), and opcode 0x00 decodes to nothing. -/
def Obligations.LimtinWordsDecodeBothWays : Prop :=
  (∀ i : LimInstr, i.wf = true → decodeLim (encodeLim i) = some i) ∧
  (∀ (w : BitVec 32) (i : LimInstr), decodeLim w = some i → i.wf = true ∧ encodeLim i = w) ∧
  (∀ w : BitVec 32, w.toNat < 2 ^ 25 → decodeLim w = none)

/-- A write of MED.LANE_CFG that changes GEN_MODE, TX_INV or RX_INV on an ASSIGNED or ACTIVE plane, and a write of MED.TEST that sets
LOOPBACK or PAT_GEN on a plane beyond ACQUIRING, changes nothing but TEST_REFUSED, which is set. Every other write of MED.LANE_CFG
takes TX_INV, RX_INV, GEN_MODE and LANE_EN as written: a lane that it enables starts at Gen-1 for GEN_MODE 1 and else at Gen-2,
hunting exactly for GEN_MODE 2 and 3; one that it disables ends with no rate, no hunt, no alignment and its plane in DOWN. Every
other write of MED.TEST takes LOOPBACK, PAT_GEN and PAT_CHK as written. When the dwell of a hunting lane ends with its plane in
SEARCH, the lane moves to the other rate; in CONFIRM the dwell is extended. Where no burst is in progress and the plane is not in
frame, these writes change no register but those of the lane and its plane's state.
Where it rests on the model's own reading or choice, that is log entries 23 and 24. -/
def Obligations.LaneSettingsTaken : Prop :=
  ∀ (s : State) (p : Plane) (v : Word),
    ((s.planeState p = 3 ∨ s.planeState p = 4) → bitsOf (s.reg (R.medLaneCfg p)).toNat 5 2 ≠ bitsOf v.toNat 5 2 →
      ∃ t : State, exec (.medLaneCfgWrite p v) s = .next t ∧ t.bit (R.medDefect p) F.medDefect_testRefused = true ∧
        regsKept s t [R.medDefect p] ∧ memKept s t) ∧
    (2 ≤ s.planeState p → (bitsOf v.toNat 6 5 ≠ 0 ∨ bitsOf v.toNat 2 0 ≠ 0) →
      ∃ t : State, exec (.medTestWrite p v) s = .next t ∧ t.bit (R.medDefect p) F.medDefect_testRefused = true ∧
        regsKept s t [R.medDefect p] ∧ memKept s t) ∧
    (¬((s.planeState p = 3 ∨ s.planeState p = 4) ∧ bitsOf (s.reg (R.medLaneCfg p)).toNat 5 2 ≠ bitsOf v.toNat 5 2) →
      ∃ t : State, exec (.medLaneCfgWrite p v) s = .next t ∧
        t.fld (R.medLaneCfg p) ⟨5, 2⟩ = bitsOf v.toNat 5 2 ∧ t.bit (R.medLaneCfg p) F.medLaneCfg_laneEn = bitOf v.toNat 0 ∧
        (s.bit (R.medLaneCfg p) F.medLaneCfg_laneEn = false → bitOf v.toNat 0 = true →
          t.fld (R.medLaneStatus p) F.medLaneStatus_rate = (if bitsOf v.toNat 3 2 = 1 then 1 else 2) ∧
          t.bit (R.medLaneStatus p) F.medLaneStatus_hunting = decide (2 ≤ bitsOf v.toNat 3 2)) ∧
        (s.bit (R.medLaneCfg p) F.medLaneCfg_laneEn = true → bitOf v.toNat 0 = false →
          t.fld (R.medLaneStatus p) F.medLaneStatus_rate = 0 ∧ t.bit (R.medLaneStatus p) F.medLaneStatus_hunting = false ∧
          t.fld (R.dfpPlaneStatus p) F.dfpPlaneStatus_align = 0 ∧ t.planeState p = 0) ∧
        ((∀ b ∈ s.ubb.builds, b.launched = false) → s.bit (R.medLaneCfg p) F.medLaneCfg_laneEn = false →
          memKept s t ∧ regsKept s t [R.medLaneCfg p, R.medLaneStatus p, R.sysPlaneState0, R.sysPlaneState1])) ∧
    (¬((bitsOf v.toNat 6 5 ≠ 0 ∨ bitsOf v.toNat 2 0 ≠ 0) ∧ 2 ≤ s.planeState p) →
      ∃ t : State, exec (.medTestWrite p v) s = .next t ∧
        t.fld (R.medTest p) F.medTest_loopback = bitsOf v.toNat 2 0 ∧ t.fld (R.medTest p) F.medTest_patGen = bitsOf v.toNat 6 5 ∧
        t.bit (R.medTest p) F.medTest_patChk = bitOf v.toNat 7 ∧
        ((∀ b ∈ s.ubb.builds, b.launched = false) → s.aligned p = false → (s.dplane p).taking = false →
          memKept s t ∧ regsKept s t [R.medTest p, R.medLaneStatus p, R.medDefect p, R.dfpPlaneStatus p])) ∧
    (s.bit (R.medLaneStatus p) F.medLaneStatus_hunting = true →
      (s.fld (R.dfpPlaneStatus p) F.dfpPlaneStatus_align = 0 →
        (s.fld (R.medLaneStatus p) F.medLaneStatus_rate = 1 ∨ s.fld (R.medLaneStatus p) F.medLaneStatus_rate = 2) →
        ∃ t : State, exec (.huntDwellExpiry p) s = .next t ∧
          t.fld (R.medLaneStatus p) F.medLaneStatus_rate = 3 - s.fld (R.medLaneStatus p) F.medLaneStatus_rate ∧
          regsKept s t [R.medLaneStatus p] ∧ memKept s t) ∧
      (s.fld (R.dfpPlaneStatus p) F.dfpPlaneStatus_align = 1 →
        ∃ t : State, exec (.huntDwellExpiry p) s = .next t ∧ (t.lane p).dwellOver = true ∧ regsKept s t [] ∧ memKept s t))

/-- On any lane whose LOS is clear, a signal that counts as absent (from the MSD ball, the amplitude in mV, or the looped pattern) sets
LOS and LOL with their defects and ends the alignment; a signal that counts as present clears LOS. A lock window of an enabled lane
in no parallel near-end loopback with more than 200 ppm, four slips or LOS sets LOL and ends the run of good windows; one with up to
100 ppm, no slip, LOS clear and the rate unchanged throughout counts as good, and the 16th in a row clears LOL; one between ends the
run and leaves LOL. On a plane that is not in frame and takes nothing, these change no register but those of the lane and
PLANE_STATUS, and no memory.
Where it rests on the model's own reading or choice, that is log entry 22. -/
def Obligations.SignalAndLockDefects : Prop :=
  ∀ (s : State) (p : Plane) (msd : Bool) (mv : Nat) (w : CdrWindow),
    (s.signalAbsent p msd mv = true → s.bit (R.medLaneStatus p) F.medLaneStatus_los = false →
      ∃ t : State, exec (.losSet p msd mv) s = .next t ∧ t.bit (R.medLaneStatus p) F.medLaneStatus_los = true ∧
        t.bit (R.medLaneStatus p) F.medLaneStatus_lol = true ∧ t.bit (R.medDefect p) F.medDefect_los = true ∧
        t.fld (R.dfpPlaneStatus p) F.dfpPlaneStatus_align = 0 ∧ (t.lane p).good = 0 ∧
        (s.aligned p = false → (s.dplane p).taking = false →
          memKept s t ∧ regsKept s t [R.medLaneStatus p, R.medDefect p, R.dfpPlaneStatus p])) ∧
    (s.signalAbsent p msd mv = false →
      ∃ t : State, exec (.losClear p msd mv) s = .next t ∧ t.bit (R.medLaneStatus p) F.medLaneStatus_los = false ∧
        (s.loopback p = 2 → t.bit (R.medLaneStatus p) F.medLaneStatus_lol = false) ∧
        memKept s t ∧ regsKept s t [R.medLaneStatus p]) ∧
    (s.bit (R.medLaneCfg p) F.medLaneCfg_laneEn = true → s.loopback p ≠ 2 →
      ((200 < w.offsetPpm ∨ 4 ≤ w.slips ∨ s.bit (R.medLaneStatus p) F.medLaneStatus_los = true) →
        ∃ t : State, exec (.cdrWindowEnd p w) s = .next t ∧ t.bit (R.medLaneStatus p) F.medLaneStatus_lol = true ∧ (t.lane p).good = 0 ∧
          (s.aligned p = false → (s.dplane p).taking = false →
            memKept s t ∧ regsKept s t [R.medLaneStatus p, R.medDefect p, R.dfpPlaneStatus p])) ∧
      (w.offsetPpm ≤ 200 → w.slips < 4 → s.bit (R.medLaneStatus p) F.medLaneStatus_los = false →
        (w.offsetPpm ≤ 100 → w.slips = 0 → (s.lane p).losWin = false → (s.lane p).rateWin = false →
          ∃ t : State, exec (.cdrWindowEnd p w) s = .next t ∧ (t.lane p).good = min 16 ((s.lane p).good + 1) ∧
            t.bit (R.medLaneStatus p) F.medLaneStatus_lol = (if 15 ≤ (s.lane p).good then false else s.bit (R.medLaneStatus p) F.medLaneStatus_lol) ∧
            memKept s t ∧ regsKept s t [R.medLaneStatus p]) ∧
        ((100 < w.offsetPpm ∨ w.slips ≠ 0 ∨ (s.lane p).losWin = true ∨ (s.lane p).rateWin = true) →
          ∃ t : State, exec (.cdrWindowEnd p w) s = .next t ∧ (t.lane p).good = 0 ∧ (t.lane p).losWin = false ∧
            (t.lane p).rateWin = false ∧
            memKept s t ∧ regsKept s t [])))

/-- Loss of lock of the transmit PLL shows no lock, marks every lane idle with MBEN inactive, latches the defect of every plane and
signals class D on MED_TXPLL, whatever bursts are in progress. A relock shows lock on every plane while the 10 µs wait runs. The
wait's end lets transmission resume: it changes nothing but the idle bits of the lanes that a test setting drives.
Where it rests on the model's own reading or choice, that is log entry 26. -/
def Obligations.TransmitPllLockAndLoss : Prop :=
  ∀ s : State,
    (s.med.txLock = true →
      ∃ t : State, exec .txpllUnlock s = .next t ∧ t.med.txLock = false ∧ t.med.txWait = true ∧
        (∃ l code, t.wires = l ++ [(Src.medTxpll, 2, code)] ∧ code / 4096 = 3 ∧
          ((∀ b ∈ s.ubb.builds, b.launched = false) → l = s.wires)) ∧
        (∀ p : Plane, t.bit (R.medLaneStatus p) F.medLaneStatus_txpllLock = false ∧
          t.bit (R.medLaneStatus p) F.medLaneStatus_mben = false ∧
          t.bit (R.medLaneStatus p) F.medLaneStatus_txIdle = true ∧ t.bit (R.medDefect p) F.medDefect_txpll = true) ∧
        ((∀ b ∈ s.ubb.builds, b.launched = false) → memKept s t)) ∧
    (s.med.txLock = false →
      ∃ t : State, exec .txpllRelock s = .next t ∧ t.med.txLock = true ∧ t.med.txWait = true ∧
        (∀ p : Plane, t.bit (R.medLaneStatus p) F.medLaneStatus_txpllLock = true) ∧ memKept s t) ∧
    (s.med.txLock = true →
      ∃ t : State, exec .txpllResume s = .next t ∧ t.med.txLock = true ∧ t.med.txWait = false ∧ memKept s t ∧
        (∀ p : Plane, t.testDrives p = true → t.bit (R.medLaneStatus p) F.medLaneStatus_txIdle = false) ∧
        (∀ p : Plane, t.testDrives p = false → t.reg (R.medLaneStatus p) = s.reg (R.medLaneStatus p)) ∧
        (∀ a, (∀ p : Plane, a ≠ R.medLaneStatus p) → t.reg a = s.reg a))

/-- A slot in order that the receive half gets is taken and counted as one codeword; a delimiter's slot 0 while searching, or at the
position expected. The header is read from the frame data stream. In SEARCH a well-formed header behind a delimiter that passes the
window check leads to CONFIRM; in CONFIRM the expected one leads to IN_FRAME and its frame is counted good, as in IN_FRAME; a
delimiter that fails in IN_FRAME is a bad frame: MISS goes up, and with MISS at 3 alignment and the frame are lost (LOF). A grant
area with a marked slot or a failing CRC gives no entry and is counted once; an area that passes is taken, and one entry of this
terminal that meets R85 is written to the UBB and to the ward alike.
Where it rests on the model's own reading or choice, that is log entries 21, 28, 163, 164, 165 and 166. -/
def Obligations.FramesAlignAndGrantsReachBothCopies : Prop :=
  ∀ (s : State) (p : Plane) (slot x : Nat) (levels : List Nat) (off : Int) (hdr : BitVec 256),
    s.restarting Src.dfp = false → s.restarting (Src.med (p / 4)) = false → (s.dplane p).header = hdr →
    (s.fld (R.medLaneStatus p) F.medLaneStatus_rate ≠ 0 → (slot = 0 ∨ slot = (s.dplane p).slots) →
      (slot = 0 → s.takesFrame p x = true) →
      ((s.loopback p ≠ 1 ∧ s.loopback p ≠ 2) ∨ s.patGen p ≠ 0) →
      ∃ t : State, exec (.codewordRx p slot x levels) s = .next t ∧ (t.dplane p).slots = slot + 1 ∧
        counted s t (R.medFecCw p) F.medFecCw_count ∧ memKept s t ∧ unitsKept s t [0x10 + p, 0xF0]) ∧
    ((s.dplane p).judged = false → (s.dplane p).slots ≠ 0 → s.bit (R.medLaneStatus p) F.medLaneStatus_los = false →
      s.bit (R.medLaneStatus p) F.medLaneStatus_lol = false → s.fld (R.medLaneStatus p) F.medLaneStatus_rate ≠ 0 →
      ((s.dplane p).delimBad ≤ s.fld R.dfpCfg F.dfpCfg_delimTol → s.wellFormedHdr p hdr = true →
        (s.windowCheck p hdr ((s.time.frame * frameSymbols : Nat) + off)).1 = true →
        (s.fld (R.dfpPlaneStatus p) F.dfpPlaneStatus_align = 0 →
          ∃ t : State, exec (.frameAlign p off) s = .next t ∧ t.fld (R.dfpPlaneStatus p) F.dfpPlaneStatus_align = 1 ∧
            (t.dplane p).expect = fhFrame hdr + 1 ∧ memKept s t ∧ unitsKept s t [0xF0]) ∧
        ((s.fld (R.dfpPlaneStatus p) F.dfpPlaneStatus_align = 1 ∨ s.fld (R.dfpPlaneStatus p) F.dfpPlaneStatus_align = 2) →
          fhFrame hdr = (s.dplane p).expect →
          ∃ t : State, exec (.frameAlign p off) s = .next t ∧ t.fld (R.dfpPlaneStatus p) F.dfpPlaneStatus_align = 2 ∧
            t.fld (R.dfpPlaneStatus p) F.dfpPlaneStatus_miss = 0 ∧
            t.fld (R.dfpPlaneFrame p) F.dfpPlaneFrame_frame = fhFrame hdr ∧ counted s t (R.dfpFramesGood p) F.dfpFramesGood_count ∧
            (t.dplane p).expect = fhFrame hdr + 1 ∧ memKept s t)) ∧
      (s.fld (R.dfpPlaneStatus p) F.dfpPlaneStatus_align = 2 → s.fld R.dfpCfg F.dfpCfg_delimTol < (s.dplane p).delimBad →
        (s.fld (R.dfpPlaneStatus p) F.dfpPlaneStatus_miss < 3 →
          ∃ t : State, exec (.frameAlign p off) s = .next t ∧ t.fld (R.dfpPlaneStatus p) F.dfpPlaneStatus_align = 2 ∧
            t.fld (R.dfpPlaneStatus p) F.dfpPlaneStatus_miss = s.fld (R.dfpPlaneStatus p) F.dfpPlaneStatus_miss + 1 ∧
            counted s t (R.dfpFramesBad p) F.dfpFramesBad_count ∧ memKept s t ∧ unitsKept s t [0xF0]) ∧
        (3 ≤ s.fld (R.dfpPlaneStatus p) F.dfpPlaneStatus_miss →
          ∃ t : State, exec (.frameAlign p off) s = .next t ∧ t.fld (R.dfpPlaneStatus p) F.dfpPlaneStatus_align = 0 ∧
            t.bit (R.dfpPlaneDefect p) F.dfpPlaneDefect_lof = true ∧ counted s t (R.dfpFramesBad p) F.dfpFramesBad_count))) ∧
    (∀ n : Nat, (s.dplane p).grantsDone = false → (s.dplane p).taking = true → (s.dplane p).grantCount = n →
      (s.dplane p).has (319 + 64 * n) = true →
      (((s.dplane p).badBits 0 (319 + 64 * n) = true ∨ crc32 ((s.dplane p).bits 256 (64 * n)) ≠ (s.dplane p).word (256 + 64 * n) 32) →
        ∃ t : State, exec (.grantArea p) s = .next t ∧ counted s t (R.dfpGrantsDisc p) F.dfpGrantsDisc_areas ∧
          t.bit (R.dfpPlaneDefect p) F.dfpPlaneDefect_grantCrc = true ∧ t.ubb = s.ubb ∧ t.ward = s.ward ∧ memKept s t ∧
          regsKept s t [R.dfpGrantsDisc p, R.dfpPlaneDefect p]) ∧
      ((s.dplane p).badBits 0 (319 + 64 * n) = false → crc32 ((s.dplane p).bits 256 (64 * n)) = (s.dplane p).word (256 + 64 * n) 32 →
        (∃ t : State, exec (.grantArea p) s = .next t ∧ (t.dplane p).grantsDone = true ∧ memKept s t ∧ unitsKept s t [0xF0, 0xF1]) ∧
        (∀ e : BitVec 64, (s.dplane p).entries n = [e] → s.lpValid = true → bitsOf e.toNat 63 54 = s.fld R.dfpIdent F.dfpIdent_tid →
          s.grantOk p (s.dplane p).grants (grantOf e p ((s.dplane p).frame + 4) (s.time.frame * frameSymbols + s.time.sym)) = true →
          ∃ t : State, exec (.grantArea p) s = .next t ∧ counted s t (R.dfpGrantsAcc p) F.dfpGrantsAcc_count ∧
            (∃ g, (t.uplane p).entries = (s.uplane p).entries ++ [g] ∧ t.ward.entries = s.ward.entries ++ [g] ∧ g.plane = p.val ∧
              g.frame = (s.dplane p).frame + 4 ∧ g.start = bitsOf e.toNat 53 33 ∧ g.length = bitsOf e.toNat 32 12) ∧
            memKept s t ∧ regsKept s t [R.dfpGrantsAcc p])))

/-- A message for this terminal that lies whole and unmarked in its region and whose type is accepted enters the message slow-path queue
and is counted. A parcel whose header is read in unmarked slots is counted; if its flow is owned it is submitted for decryption, in
order, and else not. A submitted parcel that returns leaves the order: unverified it ends DECRYPT_FAIL or with the other disposition
of its status; a first fragment of a flow that is not resequenced opens a reassembly, its cells taken. An expired resequencing timer
counts the numbers of the hole; where one first fragment is held, EXP moves past it and nothing stays held.
Where it rests on the model's own reading or choice, that is log entries 30, 31, 32, 166 and 172. -/
def Obligations.MessagesAndParcelsRouted : Prop :=
  ∀ (s : State) (p : Plane),
    (∀ (env : BitVec 64) (n last : Nat), env = BitVec.ofNat 64 ((s.dplane p).word (s.dplane p).msgPos 64) → n = bitsOf env.toNat 45 34 →
      last = (s.dplane p).msgPos + msgBits n - 1 → (s.dplane p).taking = true → (s.dplane p).msgLeft ≠ 0 →
      last < 5140 * (s.dplane p).hdrLen → (s.dplane p).has ((s.dplane p).msgPos + 63) = true → (s.dplane p).has last = true →
      (s.dplane p).badBits (s.dplane p).msgPos ((s.dplane p).msgPos + 63) = false →
        (s.dplane p).badBits (s.dplane p).msgPos last = false →
      crc16 ((s.dplane p).bits (s.dplane p).msgPos 48 ++ (s.dplane p).bits ((s.dplane p).msgPos + 64) (8 * roundUp n 8)) = bitsOf env.toNat 15 0 →
      (bitsOf env.toNat 63 54 = s.fld R.dfpIdent F.dfpIdent_tid ∨ bitsOf env.toNat 63 54 = 0x3FF) →
      bitsOf env.toNat 53 46 ∉ [0x01, 0x0B, 0x0C, 0x0D, 0x0E] → s.msgAccept (bitsOf env.toNat 53 46) = true → s.dfp.msgq.length < 512 →
      ∃ t : State, exec (.messageRx p) s = .next t ∧ t.dfp.msgq.length = s.dfp.msgq.length + 1 ∧
        (∃ m ∈ t.dfp.msgq, m.env = env ∧ m.body = (s.dplane p).bytes ((s.dplane p).msgPos + 64) n ∧ m.plane = p.val ∧
          m.frame = (s.dplane p).frame) ∧
        (t.dplane p).msgLeft = (s.dplane p).msgLeft - 1 ∧ (t.dplane p).msgPos = last + 1 ∧ counted s t (R.dfpMsgRx p) F.dfpMsgRx_count ∧
        memKept s t ∧ regsKept s t [R.dfpMsgRx p]) ∧
    (∀ (hdr : BitVec 128) (pos next : Nat), hdr = BitVec.ofNat 128 ((s.dplane p).word (s.dplane p).pos 128) → pos = (s.dplane p).pos →
      next = pos + 8 * phExtent hdr → (s.dplane p).taking = true → (s.dplane p).ignoring = false →
      (s.dplane p).hunting = false → (s.dplane p).cut = none → pos + 128 ≤ s.areaEnd p → next ≤ s.areaEnd p →
      (s.dplane p).has (pos + 127) = true → (s.dplane p).has (next - 1) = true → (s.dplane p).badBits pos (pos + 127) = false →
      (s.dplane p).badBits pos (next - 1) = false → phOk hdr = true → phType hdr ≠ 0 →
      phLength hdr ≠ 0 → s.bit R.dfpStatus F.dfpStatus_ownReady = true →
      ∃ t : State, exec (.parcelRx p) s = .next t ∧ (t.dplane p).pos = next ∧
        counted s t (R.dfpParcels p) F.dfpParcels_count ∧ memKept s t ∧ unitsKept s t [0xF0] ∧
        (bitOf (s.own (phFlow hdr)).toNat 31 = true →
          ∃ o, t.dfp.opening = s.dfp.opening ++ [o] ∧ o.plane = p.val ∧ o.hdr = hdr ∧ o.own = s.own (phFlow hdr) ∧
            o.frame = (s.dplane p).frame ∧
            ∃ q, t.ciph.waiting = s.ciph.waiting ++ [q] ∧ q.num = o.req ∧
              q.text = takePad (phLength hdr) ((s.dplane p).bytes (pos + 128) (phLength hdr)) ∧
              q.tag = BitVec.ofNat 128 ((s.dplane p).word (pos + 128 + 8 * phLength hdr) 128)) ∧
        (bitOf (s.own (phFlow hdr)).toNat 31 = false → t.dfp.opening = s.dfp.opening ∧ t.ciph = s.ciph)) ∧
    (∀ (o : Opening) (rest : List Opening) (r : CiphDone) (rs : List CiphDone), s.dfp.opening = o :: rest → o.plane = p.val →
      s.ciph.results = r :: rs → r.num = o.req →
      (r.status ≠ 0 → r.status ≠ 5 →
        ∃ t : State, exec (.parcelOpenDone p) s = .next t ∧ t.dfp.opening = rest ∧ t.ciph.results = rs ∧
          counted s t (R.dfpDispCount (if r.status = 2 then 5 else 4)) F.dfpDispCount_count ∧ memKept s t ∧ unitsKept s t [0xF0]) ∧
      (r.status = 0 → phType o.hdr = 1 → phFrag o.hdr = 1 → bitOf o.own.toNat 30 = false →
        (s.reasm (phFlow o.hdr)).parts = [] → (s.takeCells .dn false (cellsOf r.text.length)).isSome = true →
        ∃ t : State, exec (.parcelOpenDone p) s = .next t ∧ t.dfp.opening = rest ∧ t.ciph.results = rs ∧
          (∃ x, (t.reasm (phFlow o.hdr)).parts = [x] ∧ x.data = r.text ∧ x.hdr = o.hdr ∧ x.stamp = o.stamp) ∧
          (t.reasm (phFlow o.hdr)).next = (phSeq o.hdr + 1) % 65536 ∧ memKept s t ∧ regsKept s t [])) ∧
    (∀ (flow : Fin 1048576) (q : Parcel) (l : List Parcel), (s.rsq flow).held = q :: l →
      ∃ t : State, exec (.rsqTimerExpiry flow) s = .next t ∧
        counted s t (R.dfpDispCount 10) F.dfpDispCount_count (seqDist (s.rsq flow).exp q) ∧
        (l = [] → phType q.hdr = 1 → phFrag q.hdr = 1 → (s.reasm (phFlow q.hdr)).parts = [] →
          (t.rsq flow).held = [] ∧ (t.rsq flow).exp = (phSeq q.hdr + 1) % 65536 ∧
          (t.reasm (phFlow q.hdr)).parts = [q] ∧ memKept s t ∧ unitsKept s t [0xF0]))

/-- Once OWN_READY is set a write of OWN_WRITE stores its ENTRY at its INDEX and no other entry changes; before, the write only sets
OWN_LOST. A write of OWN_PROBE shows the entry at INDEX. A unit of R581 whose domain is ON sets its ready bit when its tables are
clear, and nothing else changes unless a START waits for it.
Where it rests on the model's own reading or choice, that is log entry 34. -/
def Obligations.OwnershipTableWrittenWhole : Prop :=
  ∀ (s : State) (v : Word),
    (s.bit R.dfpStatus F.dfpStatus_ownReady = true →
      ∃ t : State, exec (.ownWrite v) s = .next t ∧ (t.own (bitsOf v.toNat 51 32)).toNat = v.toNat &&& 0xF8FFF000 ∧
        (∀ f, f ≠ bitsOf v.toNat 51 32 → t.own f = s.own f) ∧ memKept s t ∧ regsKept s t [R.dfpOwnWrite]) ∧
    (s.bit R.dfpStatus F.dfpStatus_ownReady = false →
      ∃ t : State, exec (.ownWrite v) s = .next t ∧ t.bit R.dfpStatus F.dfpStatus_ownLost = true ∧ t.dfp.own = s.dfp.own ∧ memKept s t ∧
        regsKept s t [R.dfpStatus]) ∧
    (∃ t : State, exec (.ownProbe v) s = .next t ∧ t.fld R.dfpOwnProbe F.dfpOwnProbe_index = bitsOf v.toNat 51 32 ∧
      t.fld R.dfpOwnProbe F.dfpOwnProbe_entry = (s.own (bitsOf v.toNat 51 32)).toNat ∧ t.dfp = s.dfp ∧ memKept s t ∧
        regsKept s t [R.dfpOwnProbe]) ∧
    (∀ e ∈ ([(0xF0, 8, R.dfpStatus, F.dfpStatus_ownReady), (0xF1, 9, R.ubbStatus, F.ubbStatus_flowReady),
      (0x90, 7, R.clsStatus, F.clsStatus_ready),
        (0x91, 5, R.qmStatus, F.qmStatus_ready), (0x92, 5, R.schStatus, F.schStatus_ready), (0x95, 6, R.ciphStatus, F.ciphStatus_ready),
        (0x96, 10, R.circStatus, F.circStatus_ready), (0x9A, 1, R.lschStatus, F.lschStatus_ready)] : List (Fin 256 × Nat × Nat × Fld)),
      s.domOn e.2.1 = true →
      ∃ t : State, exec (.unitTablesCleared e.1) s = .next t ∧ t.bit e.2.2.1 e.2.2.2 = true ∧
        (s.enrol.startWaiting = false → regsKept s t [e.2.2.1] ∧ memKept s t))

/-- While the line position runs and the UBB does not restart, the build of the next entry of a plane takes it from the held entries: a
REPORT or RANGE entry that meets no disposition becomes one header-only burst, one that meets one of R138 ends with it and is
counted, and so do those too short for a codeword. A commit marks the burst that launches next on the plane committed. A committed
burst that no lane, ward or earlier burst stops is launched: MBEN active and no idle on all its planes, counted for each. One that
is stopped ends with the disposition of the stop, its request for MBEN withdrawn. At a burst's end it counts SENT and the lag runs;
at the lag's end MBEN falls unless another burst holds it.
Where it rests on the model's own reading or choice, that is log entries 35, 36, 37 and 167. -/
def Obligations.GrantEntryLifeOfABurst : Prop :=
  ∀ (s : State) (p : Plane),
    (∀ g : Grant, s.lpValid = true → s.ubbRestarts = false → s.nextEntry p = some g → g.plane = p.val → g.bonded = false →
      (∃ t : State, exec (.burstBuildStart p) s = .next t ∧ g ∉ (t.uplane p).entries) ∧
      (∀ c, s.ownDisp g = some c →
        ∃ t : State, exec (.burstBuildStart p) s = .next t ∧ t.ubb.builds = s.ubb.builds ∧
          counted s t (R.ubbBdispCount c) F.ubbBdispCount_count ∧ memKept s t ∧ unitsKept s t [0xF1]) ∧
      (s.ownDisp g = none → s.nMax g < 0 →
        ∃ t : State, exec (.burstBuildStart p) s = .next t ∧ t.ubb.builds = s.ubb.builds ∧
          counted s t (R.ubbBdispCount 2) F.ubbBdispCount_count ∧ memKept s t ∧ unitsKept s t [0xF1]) ∧
      (s.ownDisp g = none → (g.kind = 1 ∨ g.kind = 3) → 0 ≤ s.nMax g →
        ∃ t b, exec (.burstBuildStart p) s = .next t ∧ b ∈ t.ubb.builds ∧ b.grants = [g] ∧ b.n = 0 ∧ b.pieces = [] ∧
          b.committed = false ∧
          b.launched = false ∧ b.launch = s.launchAt g ∧ b.lead = s.isLead ∧ b.tid = s.fld R.dfpIdent F.dfpIdent_tid ∧
          (s.isLead = true → t.ubb.builds = s.ubb.builds ++ [b] ∧ memKept s t))) ∧
    (∀ b : Build, s.buildOf p (fun x => !x.committed) = some b →
      ∃ t y, exec (.burstCommit p) s = .next t ∧ y ∈ t.ubb.builds ∧ y.grants = b.grants ∧ y.committed = true ∧ y.launched = b.launched ∧
        (s.ubb.builds = [b] → (∀ x ∈ b.pieces, x.req = none) → t.ubb.builds = [{ b with committed := true }] ∧ memKept s t ∧
          regsKept s t [])) ∧
    (∀ b : Build, s.ubbRestarts = false → s.buildOf p (fun x => !x.launched) = some b → b.committed = true →
      (∀ g ∈ b.grants, g.plane < 24) →
      ((∀ g ∈ b.grants, s.launchStop b g = none) → s.badStart b = none →
        ∃ t : State, exec (.burstLaunch p) s = .next t ∧ { b with launched := true } ∈ t.ubb.builds ∧
          (∀ g ∈ b.grants, t.bit (R.medLaneStatus g.plane) F.medLaneStatus_mben = true ∧
            t.bit (R.medLaneStatus g.plane) F.medLaneStatus_txIdle = false ∧
            (t.uplane g.plane).lastEnd = some (b.endAt g.plane)) ∧ memKept s t ∧
          (∀ g, b.grants = [g] → counted s t (R.ubbBursts g.plane) F.ubbBursts_count ∧
            counted s t (R.ubbSlots g.plane) F.ubbSlots_count (b.n + 1) ∧
            unitsKept s t [0x10 + g.plane, 0xF1])) ∧
      (∀ g c, b.grants = [g] → s.launchStop b g = some c →
        ∃ t : State, exec (.burstLaunch p) s = .next t ∧ b ∉ t.ubb.builds ∧ counted s t (R.ubbBdispCount c) F.ubbBdispCount_count ∧
          (s.ubb.builds = [b] → b.pieces = [] → c ≠ 15 → memKept s t ∧ unitsKept s t [0x10 + g.plane, 0xF1] ∧
            ((s.uplane g.plane).lag = none → t.bit (R.medLaneStatus g.plane) F.medLaneStatus_mben = false)))) ∧
    (∀ b : Build, s.buildOf p (·.launched) = some b →
      (s.lpValid = false ∨ b.endAt p ≤ unionEnd (s.permitsOf p) 400 (b.line p).leadAt) →
      ∃ t : State, exec (.burstEnd p) s = .next t ∧ counted s t (R.ubbBdispCount 0) F.ubbBdispCount_count ∧
        (t.uplane p).lag = some ((b.line p).leadAt, b.endAt p + 16 * ((b.line p).lag : Int)) ∧
        t.bit (R.medLaneStatus p) F.medLaneStatus_mben = s.bit (R.medLaneStatus p) F.medLaneStatus_mben ∧
        (s.ubb.builds = [b] → b.on p = true → b.grants.all (fun g => g.plane == p.val) = true → b.pieces = [] → t.ubb.builds = [] ∧
          t.bit (R.medLaneStatus p) F.medLaneStatus_txIdle = (!s.testDrives p) ∧ memKept s t ∧ unitsKept s t [0x10 + p.val, 0xF1])) ∧
    (∀ a e : Int, s.buildOf p (·.launched) = none → (s.uplane p).lag = some (a, e) →
      (s.lpValid = false ∨ e ≤ unionEnd (s.permitsOf p) 400 a) →
      ∃ t : State, exec (.burstEnd p) s = .next t ∧ (t.uplane p).lag = none ∧
        (s.joins p e = false → t.bit (R.medLaneStatus p) F.medLaneStatus_mben = false ∧
          t.bit (R.medLaneStatus p) F.medLaneStatus_txIdle = (!s.testDrives p)) ∧
        (s.joins p e = true → t.bit (R.medLaneStatus p) F.medLaneStatus_mben = s.bit (R.medLaneStatus p) F.medLaneStatus_mben) ∧
        t.ubb.builds = s.ubb.builds ∧ memKept s t ∧ regsKept s t [R.medLaneStatus p])

/-- None is judged while the line position is not valid; else a violation is counted and stops every MBEN: the first and second within 1
s raise class D on WARD and set RESTART_HOLD, the third and later class F and FATAL. A LOCKOUT of full length in the header region
whose code matches sets LOCKED and stops every MBEN, a LOCKOUT_PERMANENT sets PERMANENT too, a RELEASE clears LOCKED unless
PERMANENT is set, and each is counted; a message whose code does not match only counts a mismatch.
Where it rests on the model's own reading or choice, that is log entries 41 and 42. -/
def Obligations.WardHoldsTheTransmitter : Prop :=
  ∀ (s : State) (p : Plane) (overrun : Bool) (m : Msg),
    (s.lpValid = false → exec (.wardViolation p overrun) s = .next s) ∧
    (∀ n, s.lpValid = true → n = min 3 (s.recentViolations.length + 1) →
      ∃ t : State, exec (.wardViolation p overrun) s = .next t ∧ counted s t R.wardCounts F.wardCounts_violations ∧
        t.fld R.wardStatus F.wardStatus_viol1s = n ∧
          t.bit R.wardStatus (if n = 3 then F.wardStatus_fatal else F.wardStatus_restartHold) = true ∧
        (∃ l, t.wires = l ++ [(Src.ward, if n = 3 then 3 else 2, 5 * 4096 + p.val + b2n overrun * 32 + n * 64)]) ∧
        (∀ q : Plane, t.bit (R.medLaneStatus q) F.medLaneStatus_mben = false) ∧
        ((∀ b ∈ s.ubb.builds, b.launched = false) →
          memKept s t ∧ regsKept s t (R.wardCounts :: R.wardStatus :: R.wardViolLog :: (List.range 24).map R.medLaneStatus))) ∧
    (16 ≤ m.body.length → m.parcel = false → s.codeMatches m = true →
      (∃ t : State, exec (.lockout m) s = .next t ∧ t.bit R.wardStatus F.wardStatus_locked = true ∧
        t.bit R.wardStatus F.wardStatus_permanent = s.bit R.wardStatus F.wardStatus_permanent ∧
        counted s t R.wardCounts F.wardCounts_lockouts ∧ t.dfp.inbox = s.dfp.inbox.erase m ∧
        (∀ q : Plane, t.bit (R.medLaneStatus q) F.medLaneStatus_mben = false) ∧
        ((∀ b ∈ s.ubb.builds, b.launched = false) →
          memKept s t ∧ regsKept s t (R.wardCounts :: R.wardStatus :: (List.range 24).map R.medLaneStatus))) ∧
      (∃ t : State, exec (.lockoutPermanent m) s = .next t ∧ t.bit R.wardStatus F.wardStatus_locked = true ∧
        t.bit R.wardStatus F.wardStatus_permanent = true ∧ counted s t R.wardCounts F.wardCounts_lockouts ∧
        t.dfp.inbox = s.dfp.inbox.erase m ∧ (∀ q : Plane, t.bit (R.medLaneStatus q) F.medLaneStatus_mben = false) ∧
        ((∀ b ∈ s.ubb.builds, b.launched = false) →
          memKept s t ∧ regsKept s t (R.wardCounts :: R.wardStatus :: (List.range 24).map R.medLaneStatus))) ∧
      (∃ t : State, exec (.release m) s = .next t ∧
        t.bit R.wardStatus F.wardStatus_locked =
          (s.bit R.wardStatus F.wardStatus_permanent && s.bit R.wardStatus F.wardStatus_locked) ∧
        counted s t R.wardCounts F.wardCounts_releases ∧ t.dfp.inbox = s.dfp.inbox.erase m ∧ memKept s t ∧
        regsKept s t [R.wardCounts, R.wardStatus])) ∧
    (16 ≤ m.body.length → m.parcel = false → s.codeMatches m = false → ∀ c ∈ [Instr.lockout m, .lockoutPermanent m, .release m],
      ∃ t : State, exec c s = .next t ∧ counted s t R.wardCounts F.wardCounts_mismatch ∧ t.dfp.inbox = s.dfp.inbox.erase m ∧
        memKept s t ∧
        regsKept s t [R.wardCounts])

/-- A write of WARD.CODE holds the code and CODE_CHECK shows the CRC-32 of it with the register preset to zero. Before FLOW_READY a flow
write is discarded and sets FLOW_LOST. After it, a write with KEEP_SEQ = 1 replaces every field of its entry but NEXT_SEQ, and a
write with KEEP_SEQ = 0 replaces the entry whole; no other entry changes, and unless the flow is mirrored to the twin nothing else.
A write of FLOW_PROBE shows the entry at INDEX.
Where it rests on the model's own reading or choice, that is log entry 43. -/
def Obligations.FlowEntriesReplacedWhole : Prop :=
  ∀ (s : State) (v : Word),
    (∃ t : State, exec (.wardCodeWrite v) s = .next t ∧ t.reg R.wardCode = v ∧
      t.fld R.wardCodeCheck F.wardCodeCheck_check = crcRun 32 0x04C11DB7 0 (bitsMsb 64 v.toNat) ∧ memKept s t ∧
      regsKept s t [R.wardCode, R.wardCodeCheck]) ∧
    (s.bit R.ubbStatus F.ubbStatus_flowReady = false →
      ∃ t : State, exec (.flowWrite v) s = .next t ∧ t.bit R.ubbStatus F.ubbStatus_flowLost = true ∧ t.ubb = s.ubb ∧ memKept s t ∧
        regsKept s t [R.ubbFlowWrite, R.ubbStatus]) ∧
    (s.bit R.ubbStatus F.ubbStatus_flowReady = true → bitOf v.toNat 16 = true →
      ∃ t : State, exec (.flowWrite v) s = .next t ∧
        (t.flow (bitsOf v.toNat 59 40)).toNat = (v.toNat &&& 0xFFFFF00000) + flowSeq (s.flow (bitsOf v.toNat 59 40)) ∧
        (∀ f, f ≠ bitsOf v.toNat 59 40 → t.flow f = s.flow f) ∧ t.ubb.unmarked = s.ubb.unmarked ∧ memKept s t ∧
          regsKept s t [R.ubbFlowWrite]) ∧
    (s.bit R.ubbStatus F.ubbStatus_flowReady = true → bitOf v.toNat 16 = false →
      ∃ t : State, exec (.flowWrite v) s = .next t ∧ (t.flow (bitsOf v.toNat 59 40)).toNat = v.toNat &&& 0xFFFFF0FFFF ∧
        (∀ f, f ≠ bitsOf v.toNat 59 40 → t.flow f = s.flow f) ∧ t.flowMarked (bitsOf v.toNat 59 40) = false ∧ memKept s t ∧
        ((bitOf v.toNat 36 = false ∨ bitOf v.toNat 37 = true) → regsKept s t [R.ubbFlowWrite])) ∧
    (∃ t : State, exec (.flowProbe v) s = .next t ∧ t.fld R.ubbFlowProbe F.ubbFlowProbe_index = bitsOf v.toNat 59 40 ∧
      t.fld R.ubbFlowProbe ⟨39, 0⟩ = (s.flow (bitsOf v.toNat 59 40)).toNat ∧ t.ubb = s.ubb ∧ memKept s t ∧
        regsKept s t [R.ubbFlowProbe])

/-- A message whose turn it is and whose application clause has not started by LP(M + 2, 0, 0) is not applied: it leaves the message
queue, the event is counted in SYS.MEDIUM_COUNTS.LATE_APPLY, and everything else, states and timers among it, is as if the message
had not arrived. -/
def Obligations.LateMessageIsOnlyCounted : Prop :=
  ∀ (s : State) (m : Msg), s.turnOf m (msgType m) = true → s.time.frame ≥ m.frame + 2 →
    ∃ t : State, exec (.lateApply m) s = .next t ∧ counted s t R.sysMediumCounts F.sysMediumCounts_lateApply ∧
      regsKept s t [R.sysMediumCounts] ∧
      (∀ i j : Nat, i ≤ j → j < 64 → (F.sysMediumCounts_lateApply.hi < i ∨ j < F.sysMediumCounts_lateApply.lo) →
        t.fld R.sysMediumCounts ⟨j, i⟩ = s.fld R.sysMediumCounts ⟨j, i⟩) ∧
      { t with regs := s.regs, dfp := s.dfp } = s ∧ t.dfp = { s.dfp with msgq := s.dfp.msgq.erase m }

/-- An ENROL_PARAMS of full length at its application point, in ALIGNED or ANNOUNCING, the terminal not STOPPED. With PRE_EQD above
42,500,000 the whole message is discarded and counted in BAD_VALUE. Otherwise BE_MAX above 12 is kept as 12, BE_MIN above BE_MAX as
BE_MAX, and ANSWER_FRAMES of 0 as 1. -/
def Obligations.EnrolParamsRanges : Prop :=
  ∀ (s : State) (m : Msg), s.atPoint m 4 → 16 ≤ m.body.length → (s.under = 2 ∨ s.under = 3) → s.termState ≠ 8 →
    (42500000 < bodyField m.body 16 127 96 →
      ∃ t : State, exec (.enrolParams m) s = .next t ∧ counted s t R.sysRejectCounts F.sysRejectCounts_badValue ∧ t.enrol = s.enrol ∧
        t.dfp.msgq = s.dfp.msgq.erase m ∧ memKept s t ∧ regsKept s t [R.sysRejectCounts]) ∧
    (bodyField m.body 16 127 96 ≤ 42500000 →
      ∃ t : State, exec (.enrolParams m) s = .next t ∧
        t.enrol.beMax = (if 12 < bodyField m.body 16 67 64 then 12 else bodyField m.body 16 67 64) ∧
        t.enrol.beMin = (if t.enrol.beMax < bodyField m.body 16 71 68 then t.enrol.beMax else bodyField m.body 16 71 68) ∧
        t.enrol.answer = (if bodyField m.body 16 63 56 = 0 then 1 else bodyField m.body 16 63 56) ∧
        t.enrol.preEqd = bodyField m.body 16 127 96 ∧ t.enrol.enrolPlanes = bodyField m.body 16 95 72 ∧
        t.dfp.msgq = s.dfp.msgq.erase m ∧ memKept s t)

/-- When T_HOLD expires in HOLDOVER (eight frames after its origin, or with the line position no longer running), TID becomes 0x3FE;
every plane becomes ACQUIRING, or DOWN where LANE_EN is 0, with PERMIT NONE, both EQD copies 0 and PLANE_GROUPS 0; HOLD_EXPIRED
counts; and the terminal enters LISTENING with T_ALIGN running and no enrolment in progress. -/
def Obligations.HoldoverExpires : Prop :=
  ∀ (s : State), s.under = 6 → s.heldOut s.enrol.tHold = true →
    ∃ t : State, exec .tHoldExpiry s = .next t ∧ t.fld R.dfpIdent F.dfpIdent_tid = 0x3FE ∧
      (∀ p : Plane, t.planeState p = (if s.bit (R.medLaneCfg p) F.medLaneCfg_laneEn then 1 else 0) ∧
        t.fld (R.ubbPlaneCtl p) F.ubbPlaneCtl_permit = 0 ∧
        t.fld (R.ubbPlaneEqd p) F.ubbPlaneEqd_eqd = 0 ∧ t.fld (R.wardPlaneEqd p) F.wardPlaneEqd_eqd = 0 ∧
          t.reg (R.ubbPlaneGroups p) = 0) ∧
      counted s t R.sysMediumCounts F.sysMediumCounts_holdExpired ∧ t.under = 1 ∧ t.enrol.tAlign = true ∧ t.enrol.tEnrol = false ∧
      t.enrol.attempt = none ∧ t.termState = (if s.locked then 7 else 1) ∧ memKept s t

/-- For a message of full length at its application point, the terminal not STOPPED: PROFILE loads its burst profile and ASYMMETRY its
coefficient; ENROL_PARAMS in ALIGNED enters ANNOUNCING with an attempt drawn for the next frame; an accepted ID_ASSIGN takes the id
and makes its plane ASSIGNED under PERMIT RANGE with both EQD copies at PRE_EQD; RANGE_RESULT sets both EQD copies and the round
trip and makes an ASSIGNED plane ACTIVE, under PERMIT SERVICE, with the held groups; EQD_ADJUST moves both EQD copies of an ACTIVE
plane; PLANE_ASSIGN and PLANE_RELEASE move every plane named to ASSIGNED and back to IN_FRAME; DEREGISTER drops the id and the
queued upstream messages and enters ALIGNED; STATE_REQUEST queues one STATE_REPORT. Every message leaves the message queue, and
memory stays.
Where it rests on the model's own reading or choice, that is log entries 46, 47, 48 and 49. -/
def Obligations.HubMessagesApplied : Prop :=
  ∀ (s : State) (m : Msg),
    (8 ≤ m.body.length → bodyField m.body 8 63 59 < 24 →
      (s.atPoint m 3 → ∃ t : State, exec (.profile m) s = .next t ∧
        t.reg (R.ubbProfile (bodyField m.body 8 63 59) (bodyField m.body 8 58 56)) = profileWord m ∧
        t.dfp.msgq = s.dfp.msgq.erase m ∧ memKept s t ∧
          regsKept s t [R.ubbProfile (bodyField m.body 8 63 59) (bodyField m.body 8 58 56)]) ∧
      (s.atPoint m 2 → s.termState ≠ 8 → ∃ t : State, exec (.asymmetry m) s = .next t ∧
        t.fld (R.timePlaneAsym (bodyField m.body 8 63 59)) F.timePlaneAsym_coeff = bodyField m.body 8 31 0 ∧
        t.dfp.msgq = s.dfp.msgq.erase m ∧ memKept s t ∧ regsKept s t [R.timePlaneAsym (bodyField m.body 8 63 59)])) ∧
    (s.atPoint m 4 → s.termState ≠ 8 → 16 ≤ m.body.length → s.under = 2 → bodyField m.body 16 127 96 ≤ 42500000 →
      ∃ t : State, exec (.enrolParams m) s = .next t ∧ t.under = 3 ∧ t.fld R.sysTermState F.sysTermState_attempts = 0 ∧
        t.fld R.sysTermState F.sysTermState_be = t.enrol.beMin ∧ t.enrol.tEnrol = true ∧
        (∃ r, r < 2 ^ t.enrol.beMin ∧ t.enrol.attempt = some (s.time.frame + 1, r)) ∧
        (∀ p : Plane, s.planeState p = 2 → t.planeState p = 2 ∧ t.fld (R.ubbPlaneCtl p) F.ubbPlaneCtl_permit =
          (if bitOf (bodyField m.body 16 95 72) p then 1 else 0)) ∧ memKept s t) ∧
    (∀ p : Plane, s.atPoint m 5 → s.termState ≠ 8 → 24 ≤ m.body.length → bodyField m.body 24 191 128 = (s.reg R.sysSerial).toNat →
      s.under = 3 →
      bodyField m.body 24 127 118 ≤ 0x3FB → bodyField m.body 24 117 113 = p.val → s.planeState p = 2 →
      ∃ t : State, exec (.idAssign m) s = .next t ∧ t.fld R.dfpIdent F.dfpIdent_tid = bodyField m.body 24 127 118 ∧ t.under = 4 ∧
        t.planeState p = 3 ∧
        t.fld (R.ubbPlaneCtl p) F.ubbPlaneCtl_permit = 2 ∧ t.fld (R.ubbPlaneEqd p) F.ubbPlaneEqd_eqd = s.enrol.preEqd % 2 ^ 32 ∧
        t.fld (R.wardPlaneEqd p) F.wardPlaneEqd_eqd = s.enrol.preEqd % 2 ^ 32 ∧ (t.eplane p).tRange = true ∧ t.enrol.tEnrol = false ∧
        (∀ q : Plane, q ≠ p → t.fld (R.ubbPlaneCtl q) F.ubbPlaneCtl_permit ≠ 1) ∧ (∀ x ∈ t.ubb.msgs, x.enrol = false) ∧
        t.dfp.msgq = s.dfp.msgq.erase m ∧ memKept s t) ∧
    (∀ p : Plane, s.atPoint m 6 → s.termState ≠ 8 → 16 ≤ m.body.length → bodyField m.body 16 127 123 = p.val →
      bodyField m.body 16 95 64 ≤ 42500000 →
      (s.planeState p = 3 ∨ s.planeState p = 4) →
      ∃ t : State, exec (.rangeResult m) s = .next t ∧ t.planeState p = 4 ∧
        t.fld (R.ubbPlaneEqd p) F.ubbPlaneEqd_eqd = bodyField m.body 16 95 64 ∧
          t.fld (R.wardPlaneEqd p) F.wardPlaneEqd_eqd = bodyField m.body 16 95 64 ∧
        t.reg (R.timePlaneRtd p) = BitVec.ofNat 64 (2 ^ 63 + bodyField m.body 16 63 32) ∧
        (s.planeState p = 3 → t.reg (R.ubbPlaneGroups p) = (s.eplane p).groups ∧ (t.eplane p).tRange = false ∧
          (4 ≤ s.under → t.fld (R.ubbPlaneCtl p) F.ubbPlaneCtl_permit = 3) ∧ (s.under = 4 → s.aligned p = true → t.under = 5)) ∧
        t.dfp.msgq = s.dfp.msgq.erase m ∧ memKept s t) ∧
    (∀ p : Plane, s.atPoint m 7 → s.termState ≠ 8 → 16 ≤ m.body.length → bodyField m.body 16 127 123 = p.val → s.planeState p = 4 →
      (0 ≤ s.adjusted m → s.adjusted m ≤ 42500000 →
        ∃ t : State, exec (.eqdAdjust m) s = .next t ∧ (t.fld (R.ubbPlaneEqd p) F.ubbPlaneEqd_eqd : Int) = s.adjusted m ∧
          (t.fld (R.wardPlaneEqd p) F.wardPlaneEqd_eqd : Int) = s.adjusted m ∧ t.planeState p = 4 ∧ t.dfp.msgq = s.dfp.msgq.erase m ∧
            memKept s t) ∧
      ((s.adjusted m < 0 ∨ 42500000 < s.adjusted m) →
        ∃ t : State, exec (.eqdAdjust m) s = .next t ∧ counted s t R.sysRejectCounts F.sysRejectCounts_badValue ∧ memKept s t ∧
          regsKept s t [R.sysRejectCounts])) ∧
    (s.atPoint m 8 → s.termState ≠ 8 → 16 ≤ m.body.length → (s.under = 4 ∨ s.under = 5) →
      ∃ t : State, exec (.planeAssign m) s = .next t ∧ t.dfp.msgq = s.dfp.msgq.erase m ∧ memKept s t ∧
        (∀ p : Plane, bitOf (bodyField m.body 16 127 104) p = true → s.planeState p = 2 →
          t.planeState p = 3 ∧ t.fld (R.ubbPlaneCtl p) F.ubbPlaneCtl_permit = 2 ∧ (t.eplane p).tRange = true ∧
          (t.eplane p).groups.toNat = bodyField m.body 16 63 0) ∧
        (∀ p : Plane, bodyField m.body 16 127 104 = 2 ^ p.val → s.planeState p = 2 →
          regsKept s t [R.sysPlaneState0, R.sysPlaneState1, R.ubbPlaneCtl p, R.ubbPlaneEqd p, R.wardPlaneEqd p])) ∧
    (s.atPoint m 9 → s.termState ≠ 8 → 8 ≤ m.body.length →
      ∃ t : State, exec (.planeRelease m) s = .next t ∧ t.dfp.msgq = s.dfp.msgq.erase m ∧ memKept s t ∧
        (∀ p : Plane, bitOf (bodyField m.body 8 63 40) p = true → (s.planeState p = 3 ∨ s.planeState p = 4) →
          t.planeState p = 2 ∧ t.fld (R.ubbPlaneCtl p) F.ubbPlaneCtl_permit = 0 ∧
          t.fld (R.ubbPlaneEqd p) F.ubbPlaneEqd_eqd = 0 ∧ t.fld (R.wardPlaneEqd p) F.wardPlaneEqd_eqd = 0 ∧
            t.reg (R.ubbPlaneGroups p) = 0) ∧
        (∀ p : Plane, s.under = 5 → s.aligned p = true → t.under = 5)) ∧
    (s.atPoint m 10 → s.termState ≠ 8 → 8 ≤ m.body.length → bodyField m.body 8 63 0 = (s.reg R.sysSerial).toNat →
      (s.under = 4 ∨ s.under = 5) →
      ∃ t : State, exec (.deregister m) s = .next t ∧ t.fld R.dfpIdent F.dfpIdent_tid = 0x3FE ∧ t.under = 2 ∧ t.ubb.msgs = [] ∧
        (∀ p : Plane, t.planeState p ≠ 3 ∧ t.planeState p ≠ 4) ∧ memKept s t) ∧
    (s.atPoint m 10 → 8 ≤ m.body.length → bodyField m.body 8 63 0 ≠ (s.reg R.sysSerial).toNat →
      ∃ t : State, exec (.deregister m) s = .next t ∧ counted s t R.sysRejectCounts F.sysRejectCounts_serialMismatch ∧ memKept s t ∧
        regsKept s t [R.sysRejectCounts]) ∧
    (s.atPoint m 15 → s.termState ≠ 8 → (∀ x ∈ s.ubb.msgs, x.typ ≠ 0x82) → s.ubb.msgs.length < 64 →
      ∃ t x, exec (.stateRequest m) s = .next t ∧ t.ubb.msgs = s.ubb.msgs ++ [x] ∧ x.typ = 0x82 ∧ x.body.length = 16 ∧
        bitsOf x.env.toNat 63 54 = s.fld R.dfpIdent F.dfpIdent_tid ∧ t.dfp.msgq = s.dfp.msgq.erase m ∧ memKept s t ∧ regsKept s t []) ∧
    (s.atPoint m 6 → m.body.length < 16 →
      ∃ t : State, exec (.rangeResult m) s = .next t ∧ counted s t R.sysRejectCounts F.sysRejectCounts_shortBody ∧ memKept s t ∧
        regsKept s t [R.sysRejectCounts])

/-- START from INITIAL or a host's STOPPED enters LISTENING with every powered lane enabled and hunting once both tables are ready, and
waits before; STOP enters STOPPED with cause host, every lane disabled, PERMIT NONE and EQD 0. A plane that becomes aligned and
supported goes from ACQUIRING to IN_FRAME, and one no longer aligned back under PERMIT NONE. WARD.STATUS.FATAL and PERMANENT stop
the terminal, LOCKED reports LOCKED_OUT over the underlying state until it is released. T_ENROL returns to ALIGNED, T_RANGE and a
plane's T_HOLD drop an assigned plane, T_ALIGN counts in LISTENING and starts the enabled lanes anew, the backoff's end at LP(a + r,
0, 0) queues one ANNOUNCE, and a wait without an answer raises BE and draws again.
Where it rests on the model's own reading or choice, that is log entries 45, 46 and 169. -/
def Obligations.TerminalAndPlaneEvents : Prop :=
  ∀ (s : State) (p : Plane),
    (s.startable = true →
      (s.startReady = true →
        ∃ t : State, exec .hostStart s = .next t ∧ t.under = 1 ∧ t.enrol.tAlign = true ∧ t.enrol.startWaiting = false ∧
          (t.flow 0).toNat = 2 ^ 39 + 4095 * 2 ^ 20 + flowSeq (s.flow 0) ∧
          (∀ q : Plane, s.domOn (11 + q / 4) = true → t.bit (R.medLaneCfg q) F.medLaneCfg_laneEn = true ∧
            t.fld (R.medLaneCfg q) F.medLaneCfg_genMode = 2) ∧
          ((∀ q, q < 24 → s.domOn (11 + q / 4) = false) → memKept s t ∧ regsKept s t [R.sysTermState, R.dfpMsgAccept 0])) ∧
      (s.startReady = false →
        ∃ t : State, exec .hostStart s = .next t ∧ t.enrol.startWaiting = true ∧ t.under = s.under ∧ memKept s t ∧ regsKept s t [])) ∧
    (s.termState ≠ 8 →
      ∃ t : State, exec .hostStop s = .next t ∧ t.termState = 8 ∧ t.under = 8 ∧ t.fld R.sysTermState F.sysTermState_stopCause = 1 ∧
        t.fld R.dfpIdent F.dfpIdent_tid = 0x3FE ∧ (∀ q : Plane, t.fld (R.ubbPlaneCtl q) F.ubbPlaneCtl_permit = 0 ∧
          t.fld (R.ubbPlaneEqd q) F.ubbPlaneEqd_eqd = 0 ∧ t.fld (R.wardPlaneEqd q) F.wardPlaneEqd_eqd = 0 ∧
          t.bit (R.medLaneCfg q) F.medLaneCfg_laneEn = false) ∧
        ((∀ q : Plane, s.bit (R.medLaneCfg q) F.medLaneCfg_laneEn = false) → memKept s t)) ∧
    (s.aligned p = true → s.unsup p = false → s.planeState p = 1 →
      ∃ t : State, exec (.planeAligned p) s = .next t ∧ t.planeState p = 2 ∧ (s.under = 1 → t.under = 2 ∧ t.enrol.tAlign = false) ∧
        memKept s t) ∧
    (s.aligned p = false → s.planeState p = 2 →
      ∃ t : State, exec (.planeAlignLost p) s = .next t ∧ t.planeState p = 1 ∧ t.fld (R.ubbPlaneCtl p) F.ubbPlaneCtl_permit = 0 ∧
        ((s.under = 4 ∨ s.under = 5) → (∀ q : Plane, s.aligned q = false) → t.under = 6 ∧ t.enrol.prior = s.under) ∧ memKept s t) ∧
    (s.bit R.wardStatus F.wardStatus_fatal = true →
      ∃ t : State, exec .wardStatusChange s = .next t ∧ t.termState = 8 ∧ t.fld R.sysTermState F.sysTermState_stopCause = 3 ∧
        t.fld R.dfpIdent F.dfpIdent_tid = 0x3FE ∧ memKept s t) ∧
    (s.bit R.wardStatus F.wardStatus_fatal = false → s.bit R.wardStatus F.wardStatus_permanent = true →
      ∃ t : State, exec .wardStatusChange s = .next t ∧ t.termState = 8 ∧ t.fld R.sysTermState F.sysTermState_stopCause = 2 ∧
        memKept s t) ∧
    (s.bit R.wardStatus F.wardStatus_fatal = false → s.bit R.wardStatus F.wardStatus_permanent = false → s.termState ≠ 8 → s.under ≠ 8 →
      s.locked = true →
      ∃ t : State, exec .wardStatusChange s = .next t ∧ t.termState = 7 ∧ t.under = s.under ∧ memKept s t ∧
        regsKept s t [R.sysTermState]) ∧
    (s.bit R.wardStatus F.wardStatus_fatal = false → s.bit R.wardStatus F.wardStatus_permanent = false → s.termState = 7 → s.under ≠ 8 →
      s.locked = false →
      ∃ t : State, exec .wardStatusChange s = .next t ∧ t.termState = s.under ∧ t.under = s.under ∧ memKept s t ∧
        regsKept s t [R.sysTermState]) ∧
    (s.under = 1 → s.enrol.tAlign = true →
      ∃ t : State, exec .tAlignExpiry s = .next t ∧ counted s t R.sysEnrolCounts F.sysEnrolCounts_alignTimeouts ∧
        (∀ q : Plane, t.bit (R.medLaneCfg q) F.medLaneCfg_laneEn = s.bit (R.medLaneCfg q) F.medLaneCfg_laneEn) ∧
        ((∀ q : Plane, s.bit (R.medLaneCfg q) F.medLaneCfg_laneEn = false) → t.enrol = s.enrol ∧ memKept s t ∧
          regsKept s t [R.sysEnrolCounts])) ∧
    (s.under = 3 → s.enrol.tEnrol = true →
      ∃ t : State, exec .tEnrolExpiry s = .next t ∧ t.under = 2 ∧ t.enrol.tEnrol = false ∧ t.enrol.attempt = none ∧
        counted s t R.sysEnrolCounts F.sysEnrolCounts_enrolTimeouts ∧ (∀ q : Plane, t.fld (R.ubbPlaneCtl q) F.ubbPlaneCtl_permit = 0) ∧
        (∀ x ∈ t.ubb.msgs, x.enrol = false) ∧ memKept s t) ∧
    (s.planeState p = 3 → (s.eplane p).tRange = true →
      ∃ t : State, exec (.tRangeExpiry p) s = .next t ∧ t.planeState p = 2 ∧ t.fld (R.ubbPlaneCtl p) F.ubbPlaneCtl_permit = 0 ∧
        t.fld (R.ubbPlaneEqd p) F.ubbPlaneEqd_eqd = 0 ∧ t.fld (R.wardPlaneEqd p) F.wardPlaneEqd_eqd = 0 ∧ (t.eplane p).tRange = false ∧
        counted s t R.sysMediumCounts F.sysMediumCounts_rangeTimeouts ∧ memKept s t) ∧
    ((s.planeState p = 3 ∨ s.planeState p = 4) → s.aligned p = false → s.heldOut (s.eplane p).tHold = true →
      ∃ t : State, exec (.planeTHoldExpiry p) s = .next t ∧ t.planeState p = 1 ∧ t.fld (R.ubbPlaneCtl p) F.ubbPlaneCtl_permit = 0 ∧
        t.fld (R.ubbPlaneEqd p) F.ubbPlaneEqd_eqd = 0 ∧ t.reg (R.ubbPlaneGroups p) = 0 ∧ memKept s t) ∧
    (∀ a w : Nat, s.under = 3 → s.enrol.attempt = some (a, w) → s.lpValid = true → a + w ≤ s.time.frame → s.ubb.msgs.length < 64 →
      ∃ t x, exec .announceBackoff s = .next t ∧ t.ubb.msgs = s.ubb.msgs ++ [x] ∧ x.enrol = true ∧ x.typ = 0x81 ∧ x.body.length = 24 ∧
        t.enrol.attempt = none ∧ counted s t R.sysTermState F.sysTermState_attempts ∧
          counted s t R.sysEnrolCounts F.sysEnrolCounts_announces ∧
        memKept s t ∧ regsKept s t [R.sysTermState, R.sysEnrolCounts]) ∧
    (∀ f : Nat, s.under = 3 → s.enrol.taken = some f → f + s.enrol.answerNow + 1 ≤ s.time.frame → s.enrol.beMax ≤ 12 →
      ∃ t r, exec .noAnswer s = .next t ∧ counted s t R.sysEnrolCounts F.sysEnrolCounts_noAnswer ∧
        t.fld R.sysTermState F.sysTermState_be = min (s.fld R.sysTermState F.sysTermState_be + 1) s.enrol.beMax ∧
        t.enrol.attempt = some (f + s.enrol.answerNow + 1, r) ∧ t.enrol.taken = none ∧ memKept s t ∧
          regsKept s t [R.sysTermState, R.sysEnrolCounts])

/-- An anchor of a plane with a valid round trip, with FRAME from M - 15 to M and the line position running, adds an estimate that lies
within half a 2^-16 ns of the one-way delay formula; any other is counted in ANCHOR_REJECT. At a frame boundary T advances by
125,000 ns plus the residual clamped to SLEW_STEP; an estimate of the primary from the frame before steps T when it lies beyond
STEP_THR or when medium time is not known, else it is slewed; later frames' estimates wait. T_ANCHOR's expiry ages a LOCKED status.
Eight frames without an aligned plane stop the line position: LP_VALID and MT_VALID clear, status FREE.
Where it rests on the model's own reading or choice, that is log entries 51, 52, 53 and 55. -/
def Obligations.MediumTimeFollowsAnchors : Prop :=
  ∀ s : State,
    (∀ m : Msg, 24 ≤ m.body.length → s.lpValid = true → s.rtdValid m.plane = true → bodyField m.body 24 191 144 ≤ m.frame →
      m.frame ≤ bodyField m.body 24 191 144 + 15 →
      ∃ t e, exec (.anchor m) s = .next t ∧ t.time.estimates = s.time.estimates ++ [e] ∧ e.plane = m.plane ∧ e.frame = m.frame ∧
        e.primary = (s.primaryPlane == some m.plane) ∧
        (∀ d : Int,
          d = (s.fld (R.timePlaneRtd m.plane) F.timePlaneRtd_rtd : Int) * (2 ^ 31 + sext 32 (s.fld (R.timePlaneAsym m.plane) F.timePlaneAsym_coeff)) -
            sext 32 (s.fld (R.dfpPlaneOffset m.plane) F.dfpPlaneOffset_offset) * 2 ^ 36 →
          ∀ x : Int,
            x = (e.value - ((bodyField m.body 24 143 80 * 1000000000 + bodyField m.body 24 79 48) * 65536 + bodyField m.body 24 47 32 : Nat) -
            (m.frame + 1 - bodyField m.body 24 191 144 : Int) * (125000 * 65536)) * (425 * 2 ^ 19) - d →
          2 * x ≤ 425 * 2 ^ 19 ∧ -(425 * 2 ^ 19) < 2 * x) ∧
        t.dfp.inbox = s.dfp.inbox.erase m ∧ memKept s t ∧ regsKept s t []) ∧
    (∀ m : Msg, 24 ≤ m.body.length → (s.lpValid = false ∨ s.rtdValid m.plane = false ∨ m.frame < bodyField m.body 24 191 144 ∨
        bodyField m.body 24 191 144 + 15 < m.frame) →
      ∃ t : State, exec (.anchor m) s = .next t ∧ counted s t R.timeCounts F.timeCounts_anchorReject ∧ t.time = s.time ∧ memKept s t ∧
        regsKept s t [R.timeCounts]) ∧
    (s.lpValid = false → exec .lpFrameBoundary s = .next s) ∧
    (s.lpValid = true → ∃ t : State, exec .lpFrameBoundary s = .next t ∧ t.time.frame = s.time.frame + 1 ∧ t.time.sym = 0 ∧
      t.time.now = s.time.now + (frameSymbols - s.time.sym) ∧
        t.time.estimates = s.time.estimates.filter (fun x => decide (s.time.frame + 1 ≤ x.frame)) ∧
      (∀ d : Int, d = clampI ((max 1 (s.fld R.timeCfg F.timeCfg_slewStep) : Nat) : Int) s.time.residual →
        (∀ e ∈ s.time.estimates, e.frame = s.time.frame → e.primary = false) → t.time.tF = s.time.tF + 125000 * 65536 + d ∧
          t.time.residual = s.time.residual - d) ∧
      (∀ e : Estimate, s.time.estimates = [e] → e.primary = true → e.frame = s.time.frame →
        (s.bit R.timeStatus F.timeStatus_mtValid = false → t.time.tF = e.value ∧ t.time.residual = 0 ∧
          t.bit R.timeStatus F.timeStatus_mtValid = true) ∧
        (s.bit R.timeStatus F.timeStatus_mtValid = true → ∀ err : Int, err = e.value - (s.time.tF + 125000 * 65536) →
          ((s.stepThr < err ∨ err < -s.stepThr) → t.time.tF = e.value ∧ t.time.residual = 0) ∧
          (¬(s.stepThr < err ∨ err < -s.stepThr) →
            t.time.tF = s.time.tF + 125000 * 65536 + clampI ((max 1 (s.fld R.timeCfg F.timeCfg_slewStep) : Nat) : Int) err ∧
            t.time.residual = err - clampI ((max 1 (s.fld R.timeCfg F.timeCfg_slewStep) : Nat) : Int) err)) ∧
        t.time.tAnchor = some (s.time.frame + 65))) ∧
    (∀ f : Nat, s.time.tAnchor = some f → f ≤ s.time.frame →
      ∃ t : State, exec .tAnchorExpiry s = .next t ∧ t.time.tAnchor = none ∧ memKept s t ∧ regsKept s t [R.timeStatus] ∧
        (s.fld R.timeStatus F.timeStatus_code = 2 → t.fld R.timeStatus F.timeStatus_code = 3 ∧ t.edges = s.edges ++ [32 * 5 + 1]) ∧
        (s.fld R.timeStatus F.timeStatus_code ≠ 2 → regsKept s t [])) ∧
    (∀ f : Nat, s.time.fly = some f → s.lpValid = true → (∀ p : Plane, s.aligned p = false) → f + 8 ≤ s.time.frame →
      ∃ t : State, exec .flywheelExpiry s = .next t ∧ t.bit R.timeStatus F.timeStatus_lpValid = false ∧
        t.bit R.timeStatus F.timeStatus_mtValid = false ∧
        t.bit R.timeStatus F.timeStatus_flywheel = false ∧ t.fld R.timeStatus F.timeStatus_code = 0 ∧
          t.bit R.timeRefStatus F.timeRefStatus_none = true ∧
        t.ward.entries = [] ∧ t.time.tAnchor = none ∧ t.time.fly = none ∧
        (∀ p : Plane, t.fld (R.dfpPlaneOffset p) F.dfpPlaneOffset_offset = 0) ∧
          (∀ i : Fin 8, s.tpoTimeMode i = false → t.tpoArmed i = false) ∧
        (s.ubb.builds = [] → s.twin.leadNext = none → memKept s t))

/-- An arm write whose non-zero period is shorter than WIDTH x 8 ns + 16 ns only sets REFUSED. Any other that arms an output with a
start at least 1 µs ahead arms it, in line-position mode and, where medium time is known, in time mode; a one-shot with a passed
start is left disarmed with LATE; a periodic output with a passed start begins at the first edge not passed. An edge of an output
that is not held by LEAD_ONLY is stamped with its own instant, COMP and source, and its pulse begins; a one-shot then disarms; one
of an output that is held counts MISSED. A capture input stamps the edge selected, or counts OVERFLOW with 16 stamps waiting; a read
of TCI_LO shows and removes the oldest; a snapshot captures line position and time with source 0.
Where it rests on the model's own reading or choice, that is log entries 54, 55 and 168. -/
def Obligations.PulsesCapturesAndSnapshots : Prop :=
  ∀ s : State,
    (∀ (i : Fin 8) (v : Word) (per : Nat), bitOf v.toNat 0 = true → s.fld (R.timeTpoPeriod i) F.timeTpoPeriod_period = per → per ≠ 0 →
      ((bitOf v.toNat 1 = true ∧ per < (8 * max 1 (bitsOf v.toNat 47 24) + 16) * 65536) ∨
        (bitOf v.toNat 1 = false ∧ per * 131072 < (8 * max 1 (bitsOf v.toNat 47 24) + 16) * 65536 * 425)) →
      ∃ t : State, exec (.tpoArm i v) s = .next t ∧ t.bit (R.timeTpoCfg i) F.timeTpoCfg_refused = true ∧ t.tpoArmed i = s.tpoArmed i ∧
        t.time = s.time ∧
        memKept s t ∧ regsKept s t [R.timeTpoCfg i]) ∧
    (∀ (i : Fin 8) (v : Word) (per : Nat), bitOf v.toNat 0 = true → bitOf v.toNat 1 = false → s.lpValid = true →
      s.fld (R.timeTpoPeriod i) F.timeTpoPeriod_period = per →
        (per = 0 ∨ (8 * max 1 (bitsOf v.toNat 47 24) + 16) * 65536 * 425 ≤ per * 131072) →
      (16 * s.lpNow + 16 * 212500 ≤ s.tpoStart i false →
        ∃ t : State, exec (.tpoArm i v) s = .next t ∧ t.tpoArmed i = true ∧ (t.pulse i).k = 0 ∧ (t.pulse i).start = s.tpoStart i false ∧
          (t.pulse i).period = 16 * per ∧ memKept s t ∧ regsKept s t [R.timeTpoCfg i]) ∧
      (per = 0 → s.tpoStart i false < 16 * s.lpNow + 16 * 212500 →
        ∃ t : State, exec (.tpoArm i v) s = .next t ∧ t.tpoArmed i = false ∧ t.bit (R.timeTpoCfg i) F.timeTpoCfg_late = true ∧
          memKept s t ∧
          regsKept s t [R.timeTpoCfg i]) ∧
      (0 < per → s.tpoStart i false < 16 * s.lpNow →
        ∃ t : State, exec (.tpoArm i v) s = .next t ∧ t.tpoArmed i = true ∧ t.bit (R.timeTpoCfg i) F.timeTpoCfg_late = true ∧
          16 * s.lpNow ≤ (t.pulse i).start + (t.pulse i).k * (16 * per) ∧
            (t.pulse i).start + (t.pulse i).k * (16 * per) < 16 * s.lpNow + 16 * per ∧
          memKept s t ∧ regsKept s t [R.timeTpoCfg i])) ∧
    (∀ (i : Fin 8) (v : Word) (per : Nat), bitOf v.toNat 0 = true → bitOf v.toNat 1 = true → s.mediumTime = true →
      s.fld (R.timeTpoPeriod i) F.timeTpoPeriod_period = per → (per = 0 ∨ (8 * max 1 (bitsOf v.toNat 47 24) + 16) * 65536 ≤ per) →
      s.timeNow + 65536000 ≤ s.tpoStart i true →
      ∃ t : State, exec (.tpoArm i v) s = .next t ∧ t.tpoArmed i = true ∧ t.tpoTimeMode i = true ∧
        (t.pulse i).start = s.tpoStart i true ∧
        (t.pulse i).period = per ∧ memKept s t ∧ regsKept s t [R.timeTpoCfg i]) ∧
    (∀ (i : Fin 8) (pos : Int), s.tpoArmed i = true →
      (s.tpoTimeMode i = false ∧ s.lpValid = true ∧ pos = (s.pulse i).start + ((s.pulse i).k * (s.pulse i).period : Nat)) ∨
        (s.tpoTimeMode i = true ∧ s.mediumTime = true ∧ (s.pulse i).converted.head?.map (·.1) = some pos) →
      ∃ t : State, exec (.tpoEdge i) s = .next t ∧ t.tpoArmed i = decide ((s.pulse i).period ≠ 0) ∧
        (s.tpoTimeMode i = false → (t.pulse i).k = (s.pulse i).k + 1) ∧
          (s.tpoTimeMode i = true → (t.pulse i).converted = (s.pulse i).converted.tail) ∧
        (s.tpoHeld i = false → (t.pulse i).fall.isSome = true ∧ (t.pulse i).last =
            some (stampOf (s.timeOf16 (pos + sext 16 (s.fld (R.timeTpoCfg i) F.timeTpoCfg_comp))) (0x20 + i.val)) ∧
              regsKept s t [R.timeTpoCfg i]) ∧
        (s.tpoHeld i = true → counted s t (R.timeTpoPeriod i) F.timeTpoPeriod_missed ∧ (t.pulse i).last = (s.pulse i).last ∧
          regsKept s t [R.timeTpoCfg i, R.timeTpoPeriod i]) ∧ memKept s t) ∧
    (∀ (j : Fin 5) (rising : Bool),
      (if rising then s.fld (R.timeTciCfg j) F.timeTciCfg_edge % 2 else s.fld (R.timeTciCfg j) F.timeTciCfg_edge / 2) ≠ 0 →
      ((s.capture j).length < 16 →
        ∃ t x, exec (.tciEdge j rising) s = .next t ∧ t.capture j = s.capture j ++ [x] ∧ x.src = 0x10 + j.val ∧
          (0 ≤ s.timeNow + sext 16 (s.fld (R.timeTciCfg j) F.timeTciCfg_comp) →
            x.time = s.timeNow + sext 16 (s.fld (R.timeTciCfg j) F.timeTciCfg_comp)) ∧ memKept s t ∧ regsKept s t []) ∧
      (16 ≤ (s.capture j).length →
        ∃ t : State, exec (.tciEdge j rising) s = .next t ∧ t.capture j = s.capture j ∧
          counted s t (R.timeTciCfg j) F.timeTciCfg_overflow ∧ memKept s t ∧
          regsKept s t [R.timeTciCfg j])) ∧
    (∀ (j : Fin 5) (x : Stamp) (l : List Stamp), s.capture j = x :: l →
      ∃ t : State, exec (.tciLoRead j) s = .next t ∧ t.host.rdata = x.loWord ∧ t.capture j = l ∧ memKept s t ∧ regsKept s t []) ∧
    (∀ v : Word, bitOf v.toNat 0 = true →
      ∃ t : State, exec (.snapTake v) s = .next t ∧ t.bit R.timeSnapLpF F.timeSnapLpF_lpValid = s.lpValid ∧
        t.fld R.timeSnapLpF F.timeSnapLpF_frame = s.time.frame % 2 ^ 48 ∧
          t.fld R.timeSnapLpCs F.timeSnapLpCs_symbol = s.ckSym.toNat % 25 ∧
        t.fld R.timeSnapLpCs F.timeSnapLpCs_cell = s.ckSym.toNat / 25 % 2 ^ 21 ∧ t.reg R.timeSnapSec = (s.stamp 0).hiWord ∧
        t.reg R.timeSnapNs = (s.stamp 0).loWord ∧ memKept s t ∧
          regsKept s t [R.timeSnapLpF, R.timeSnapLpCs, R.timeSnapSec, R.timeSnapNs])

/-- Every table command of CLS, QM, SCH, CIRC, CIPH and LSCH: while the command register is BUSY a further command only latches
CMD_COLLIDE; else its operation and its index are taken, STATUS becomes BUSY once the unit's tables are ready and the unit's
not-ready code before, and no other register changes.
Where it rests on the model's own reading or choice, that is log entry 67. -/
def Obligations.TableCommandsAreTakenOneAtATime : Prop :=
  ∀ (s : State) (v : Word),
    (∀ c ∈ [(Instr.clsRead v, 0), (.clsWrite v, 1), (.clsDelete v, 2), (.clsFind v, 3)],
      takesTable s c.1 v R.clsCmd F.clsCmd_status F.clsCmd_op F.clsCmd_index c.2 R.clsStatus F.clsStatus_cmdCollide F.clsStatus_ready 6) ∧
    (∀ c ∈ [(Instr.qmRead v, 0), (.qmWrite v, 1), (.qmFlush v, 2)],
      takesTable s c.1 v R.qmCmd F.qmCmd_status F.qmCmd_op F.qmCmd_index c.2 R.qmStatus F.qmStatus_cmdCollide F.qmStatus_ready 2) ∧
    (∀ c ∈ [(Instr.schRead v, 0), (.schWrite v, 1)],
      takesTable s c.1 v R.schCmd F.schCmd_status F.schCmd_op F.schCmd_index c.2 R.schStatus F.schStatus_cmdCollide F.schStatus_ready 3) ∧
    (∀ c ∈ [(Instr.circRead v, 0), (.circWrite v, 1)],
      takesTable s c.1 v R.circCmd F.circCmd_status F.circCmd_op F.circCmd_index c.2 R.circStatus F.circStatus_cmdCollide F.circStatus_ready 3) ∧
    (∀ c ∈ [(Instr.saRead v, 0), (.saWrite v, 1)],
      takesTable s c.1 v R.ciphSaCmd F.ciphSaCmd_status F.ciphSaCmd_op F.ciphSaCmd_index c.2 R.ciphStatus F.ciphStatus_cmdCollide F.ciphStatus_ready 3) ∧
    (∀ c ∈ [(Instr.lschRead v, 0), (.lschWrite v, 1)],
      takesTable s c.1 v R.lschCmd F.lschCmd_status F.lschCmd_op F.lschCmd_index c.2 R.lschStatus F.lschStatus_cmdCollide F.lschStatus_ready 3)

/-- With no restart, the oldest packet of a pipe leaves it, one outcome is counted, and it goes on toward admission or its cells are
freed. In SERVICE a packet whose selector key matches nothing goes on to the slow-path queue of SEL_MISS; a packet whose profile
looks nothing up and has MISS set is dropped; in OBSERVE a result whose OBS_ACT is 1 is punted as observed; a received PTP event
message always goes to the slow path. A write of a ternary or pattern entry in ATOMIC_ENTRY mode clears VALID as it begins. A
command that ends outside a sweep leaves BUSY and performs its operation: in ATOMIC_ENTRY mode a meter or ternary entry is written
with VALID as the window gives it, a flow DELETE of an absent key ends NOT_FOUND, and in EDITION mode a change without a staging
edition ends NO_STAGE and a ternary entry in use ends ROW_LIVE, both with every table unchanged.
Where it rests on the model's own reading or choice, that is log entries 56, 58, 61, 62 and 170. -/
def Obligations.ClassifierRunsPacketsAndCommands : Prop :=
  ∀ s : State,
    (∀ (d : Dir) (n : Fin 8) (p : Pkt) (l : List Pkt), s.restarting Src.cls = false → s.restarting d.src = false → s.pipe d n = p :: l →
      (∃ t : State, exec (.packetClassify d n) s = .next t ∧ t.pipe d n = l ∧ memKept s t ∧
        (∃ k, k < 8 ∧ counted s t (R.clsOutCount k) F.clsOutCount_count) ∧
        ((∃ q : Pkt, t.classified p.dir n = s.classified p.dir n ++ [q] ∧ q.bytes = p.bytes ∧ t.dieUsed p.dir = s.dieUsed p.dir) ∨
          (t.classified p.dir n = s.classified p.dir n ∧ t.dieUsed p.dir = s.dieUsed p.dir - cellsOf p.bytes.length))) ∧
      (ptpEvent p = true →
        ∃ t r q, exec (.packetClassify d n) s = .next t ∧ r < 11 ∧ counted s t (R.clsOutCount 4) F.clsOutCount_count ∧
          t.classified p.dir n = s.classified p.dir n ++ [q] ∧ q.bytes = p.bytes ∧ q.queue = s.fld (R.clsPuntQ r) F.clsPuntQ_queue ∧
            q.reason = some r) ∧
      (p.dir = d → ptpEvent p = false → s.service d = true → s.select { p with edition := s.edCur } (s.edCur % 3) = none →
        ∃ t : State, exec (.packetClassify d n) s = .next t ∧ t.pipe d n = l ∧ counted s t (R.clsOutCount 4) F.clsOutCount_count ∧
          t.classified d n = s.classified d n ++ [{ p with edition := s.edCur, queue := s.fld (R.clsPuntQ 0) F.clsPuntQ_queue, reason := some 0 }] ∧
          memKept s t ∧ unitsKept s t [0x90]) ∧
      (∀ (k : Nat) (e : ClsEntry), p.dir = d → p.ret = 0 → ptpEvent p = false → s.service d = true →
        s.select { p with edition := s.edCur } (s.edCur % 3) = some k →
        s.clsEntry 1 (s.clsBank 1 (s.edCur % 3) + k) = e → e.valid = true →
        (∀ c ∈ e.checks, ckEn c = false) → (∀ x ∈ e.extractors, exDest x = 0) → bitsOf (e.word 7) 10 9 = 0 → bitOf (e.word 7) 8 = true →
        ∃ t : State, exec (.packetClassify d n) s = .next t ∧ t.pipe d n = l ∧ counted s t (R.clsOutCount 2) F.clsOutCount_count ∧
          t.classified d n = s.classified d n ∧ t.dieUsed d = s.dieUsed d - cellsOf p.bytes.length ∧ memKept s t ∧
            unitsKept s t [0x90]) ∧
      (p.dir = d → ptpEvent p = false → s.service d = false → s.fld R.clsCfg F.clsCfg_obsAct = 1 →
        s.select { p with edition := s.edCur } (s.edCur % 3) = none →
        ∃ t : State, exec (.packetClassify d n) s = .next t ∧ t.pipe d n = l ∧
          t.classified d n = s.classified d n ++ [{ p with edition := s.edCur, queue := s.fld (R.clsPuntQ 9) F.clsPuntQ_queue, reason := some 9 }] ∧
          memKept s t ∧ unitsKept s t [0x90])) ∧
    (∀ (v : Word) (u i : Nat), bitsOf v.toNat 62 60 = u → bitsOf v.toNat 51 32 = i → (u = 3 ∨ u = 4) → i < clsSize u →
      s.edMode u = false → s.edSweep = false →
      s.fld R.clsCmd F.clsCmd_status ≠ 1 → s.bit R.clsStatus F.clsStatus_ready = true →
      ∃ t : State, exec (.clsWrite v) s = .next t ∧ (t.clsEntry u i).valid = false ∧ (t.clsEntry u i).words = (s.clsEntry u i).words) ∧
    (s.fld R.clsCmd F.clsCmd_status = 1 → s.edSweep = false →
      (∃ t : State, exec .clsCmdDone s = .next t ∧ t.fld R.clsCmd F.clsCmd_status ≠ 1 ∧ memKept s t ∧ unitsKept s t [0x90]) ∧
      (∀ i, s.fld R.clsCmd F.clsCmd_table = 5 → s.fld R.clsCmd F.clsCmd_op = 1 → s.fld R.clsCmd F.clsCmd_index = i → i < 4096 →
        ∃ t : State, exec .clsCmdDone s = .next t ∧ t.fld R.clsCmd F.clsCmd_status = 0 ∧ (t.clsEntry 5 i).words = s.clsWindow 5 ∧
          (∀ u j, u < 6 → j < 2 ^ 21 → ¬(u = 5 ∧ j = i) → t.clsEntry u j = s.clsEntry u j)) ∧
      (∀ i, s.fld R.clsCmd F.clsCmd_table = 3 → s.fld R.clsCmd F.clsCmd_op = 1 → s.fld R.clsCmd F.clsCmd_index = i → i < 65536 →
        (s.edMode 3 = false → ∃ t : State, exec .clsCmdDone s = .next t ∧ t.fld R.clsCmd F.clsCmd_status = 0 ∧
          (t.clsEntry 3 i).words = s.clsWindow 3 ∧
          (t.clsEntry 3 i).valid = s.bit (R.clsData 17) ⟨63, 63⟩ ∧
          (∀ u j, u < 6 → j < 2 ^ 21 → ¬(u = 3 ∧ j = i) → t.clsEntry u j = s.clsEntry u j)) ∧
        (s.edMode 3 = true → s.edStage = false →
          ∃ t : State, exec .clsCmdDone s = .next t ∧ t.fld R.clsCmd F.clsCmd_status = 8 ∧ t.cls = s.cls) ∧
        (s.edMode 3 = true → s.edStage = true → bitOf (s.clsEntry 3 i).v (s.edCur % 3) = true →
          ∃ t : State, exec .clsCmdDone s = .next t ∧ t.fld R.clsCmd F.clsCmd_status = 4 ∧ t.cls = s.cls)) ∧
      (s.fld R.clsCmd F.clsCmd_table = 2 → s.fld R.clsCmd F.clsCmd_op = 2 → s.edMode 2 = false →
        (∀ e ∈ s.clsEntries 2, e.2.valid = true → ¬(e.2.flowProfile = (ClsEntry.flowProfile { words := s.clsWindow 2 }) ∧
          e.2.flowKeyOf = (ClsEntry.flowKeyOf { words := s.clsWindow 2 }))) →
        ∃ t : State, exec .clsCmdDone s = .next t ∧ t.fld R.clsCmd F.clsCmd_status = 3 ∧ t.cls = s.cls))

/-- OPEN starts a sweep when none runs and no staging edition is open; the sweep's end opens the staging edition with the current
edition's ternary, pattern and flow visibility and its selector and profile banks. COMMIT, with the older edition retired, makes the
staging edition current and the current one the older live one. ABANDON closes the staging edition. A command in progress completes
first. A refused operation changes nothing and records SWEEPING, STAGE_OPEN, NO_STAGE or OLD_LIVE in that order. The older edition's
retirement clears OLD_LIVE. A write of TABLE_MODE starts a sweep that sets the mode, or is refused as MODE while a staging edition
is open, the older one lives or a sweep runs.
Where it rests on the model's own reading or choice, that is log entries 59 and 60. -/
def Obligations.EditionsFollowTheirRules : Prop :=
  ∀ s : State,
    (∀ c ∈ [Instr.edOpen, .edCommit, .edAbandon], s.edSweep = true →
      ∃ t : State, exec c s = .next t ∧ t.fld R.clsEdStatus F.clsEdStatus_refusal = 4 ∧ t.cls = s.cls ∧ memKept s t ∧
        regsKept s t [R.clsEdStatus]) ∧
    (s.edSweep = false → s.edStage = true →
      ∃ t : State, exec .edOpen s = .next t ∧ t.fld R.clsEdStatus F.clsEdStatus_refusal = 1 ∧ t.edSweep = false ∧ t.cls = s.cls ∧
        memKept s t ∧ regsKept s t [R.clsEdStatus]) ∧
    (s.edSweep = false → s.edStage = false →
      (∃ t : State, exec .edOpen s = .next t ∧ t.edSweep = true ∧ t.cls = s.cls ∧ memKept s t ∧ regsKept s t [R.clsEdStatus]) ∧
      (∀ c ∈ [Instr.edCommit, .edAbandon],
        ∃ t : State, exec c s = .next t ∧ t.fld R.clsEdStatus F.clsEdStatus_refusal = 2 ∧ t.cls = s.cls ∧ memKept s t ∧
          regsKept s t [R.clsEdStatus])) ∧
    (s.edSweep = false → s.edStage = true →
      (s.edOldLive = true → ∃ t : State, exec .edCommit s = .next t ∧ t.fld R.clsEdStatus F.clsEdStatus_refusal = 3 ∧ t.cls = s.cls ∧
        memKept s t ∧
        regsKept s t [R.clsEdStatus]) ∧
      (s.edOldLive = false → ∃ t : State, exec .edCommit s = .next t ∧ t.edCur = s.edCur + 1 ∧
        t.fld R.clsEdStatus F.clsEdStatus_cur = (s.edCur + 1) % 2 ^ 16 ∧
        t.fld R.clsEdStatus F.clsEdStatus_old = s.edCur % 2 ^ 16 ∧ t.edOldLive = true ∧ t.edStage = false ∧
          t.fld R.clsCmd F.clsCmd_status ≠ 1 ∧
        memKept s t ∧ unitsKept s t [0x90] ∧ (s.fld R.clsCmd F.clsCmd_status ≠ 1 → t.cls.tables = s.cls.tables ∧
          regsKept s t [R.clsEdStatus])) ∧
      (∃ t : State, exec .edAbandon s = .next t ∧ t.edStage = false ∧ t.edCur = s.edCur ∧ t.fld R.clsCmd F.clsCmd_status ≠ 1 ∧
        memKept s t ∧
        unitsKept s t [0x90] ∧ (s.fld R.clsCmd F.clsCmd_status ≠ 1 → t.cls = s.cls ∧ regsKept s t [R.clsEdStatus]))) ∧
    (s.edSweep = true → s.cls.modeNext = none →
      ∃ t : State, exec .sweepDone s = .next t ∧ t.edSweep = false ∧ t.edStage = true ∧ t.edCur = s.edCur ∧ memKept s t ∧
        regsKept s t [R.clsEdStatus] ∧
        (Tbl.wf (fun _ => {}) s.cls.tables = true → s.edMode 0 = true → s.edMode 1 = true →
          (∀ u i, 2 ≤ u → u ≤ 4 → i < clsSize u → bitOf (t.clsEntry u i).v s.stageSlot = bitOf (s.clsEntry u i).v (s.edCur % 3) ∧
            bitOf (t.clsEntry u i).v (s.edCur % 3) = bitOf (s.clsEntry u i).v (s.edCur % 3) ∧
              (t.clsEntry u i).words = (s.clsEntry u i).words) ∧
          (∀ u i, u ≤ 1 → i < clsSize u → t.clsEntry u (t.clsBank u s.stageSlot + i) = s.clsEntry u (s.clsBank u (s.edCur % 3) + i)))) ∧
    (∃ t : State, exec .editionRetire s = .next t ∧ t.edOldLive = false ∧ t.cls = s.cls ∧ memKept s t ∧ regsKept s t [R.clsEdStatus]) ∧
    (∀ v : Word, ((s.edStage = true ∨ s.edOldLive = true ∨ s.edSweep = true) →
        ∃ t : State, exec (.tableModeWrite v) s = .next t ∧ t.fld R.clsEdStatus F.clsEdStatus_refusal = 5 ∧ t.cls = s.cls ∧
          memKept s t ∧ regsKept s t [R.clsEdStatus]) ∧
      (s.edStage = false → s.edOldLive = false → s.edSweep = false →
        ∃ t : State, exec (.tableModeWrite v) s = .next t ∧ t.edSweep = true ∧ t.cls.modeNext = some (v.toNat % 32) ∧
          t.cls.tables = s.cls.tables ∧ memKept s t ∧
          regsKept s t [R.clsEdStatus])) ∧
    (∀ m, s.edSweep = true → s.cls.modeNext = some m →
      ∃ t : State, exec .sweepDone s = .next t ∧ t.edSweep = false ∧ t.cls.modeNext = none ∧
        t.fld R.clsTableMode F.clsTableMode_mode = m % 32 ∧ t.edStage = s.edStage ∧
        memKept s t ∧ regsKept s t [R.clsEdStatus, R.clsTableMode])

/-- A classified packet leaves its pipe's output; one received with an error only frees its cells. While the QM does not restart, one
without stamp report that meets a cause of R267 is dropped: its cells are freed and the cause is counted. One that meets none joins
its queue: an upstream queue takes it as being written to HBM with its HBM cells, and a write's end frees its on-die cells; a queue
outside the upstream range takes it on die. A spilled packet read back takes on-die cells and frees its HBM cells. A pool split or
an HBM setting outside the bounds of R269, or below what is in use, is refused with POOL_REFUSED, else it takes effect. A queue's
READ shows its descriptor, WRITE replaces it, FLUSH empties the queue.
Where it rests on the model's own reading or choice, that is log entries 64, 65, 66 and 171. -/
def Obligations.QueuesAdmitSpillAndFlush : Prop :=
  ∀ s : State,
    (∀ (d : Dir) (n : Fin 8) (p : Pkt) (l : List Pkt), s.classified d n = p :: l →
      ∃ t : State, exec (.packetAdmit d n) s = .next t ∧ t.classified d n = l ∧ memKept s t ∧
        (p.bad = true → t.dieUsed p.dir = s.dieUsed p.dir - cellsOf p.bytes.length ∧ regsKept s t [])) ∧
    (∀ (d : Dir) (n : Fin 8) (p : Pkt) (l : List Pkt), s.restarting Src.qm = false → s.classified d n = p :: l → p.bad = false →
      p.ret = 0 → p.dir = d →
      (∀ c, s.admitCause p = some c →
        ∃ t : State, exec (.packetAdmit d n) s = .next t ∧ t.classified d n = l ∧ counted s t (R.qmDropCount c) F.qmDropCount_count ∧
          t.dieUsed d = s.dieUsed d - cellsOf p.bytes.length ∧ (t.queue p.queue).drop = ((s.queue p.queue).drop + 1) % 2 ^ 48 ∧
          (t.queue p.queue).pkts = (s.queue p.queue).pkts ∧ memKept s t) ∧
      (s.admitCause p = none → qUp p.queue = true →
        ∃ t : State, exec (.packetAdmit d n) s = .next t ∧ t.classified d n = l ∧
          (t.queue p.queue).pkts = (s.queue p.queue).pkts ++ [⟨p, .writing, (s.queue p.queue).enq, 0,
            s.nextCells (cellsOf p.bytes.length)⟩] ∧
          (t.queue p.queue).enq = ((s.queue p.queue).enq + 1) % 2 ^ 48 ∧ t.hbmUsed .up = s.hbmUsed .up + cellsOf p.bytes.length ∧
          t.dieUsed d = s.dieUsed d ∧ memKept s t ∧ unitsKept s t [0x91, 0x93, 0x94]) ∧
      (s.admitCause p = none → qUp p.queue = false → s.spills p = false →
        ∃ t : State, exec (.packetAdmit d n) s = .next t ∧ t.classified d n = l ∧
          (t.queue p.queue).pkts.map (·.pkt) = (s.queue p.queue).pkts.map (·.pkt) ++ [p] ∧
          (t.queue p.queue).pkts.getLast?.map (·.medium) = some .die ∧ t.dieUsed d = s.dieUsed d ∧ memKept s t ∧
            unitsKept s t [0x91, 0x93, 0x94])) ∧
    (∀ (q : Fin 16384) (x : QPkt), (s.queue q).pkts.find? (fun p => p.medium == .writing) = some x →
      ∃ t : State, exec (.upHbmWriteDone q) s = .next t ∧ (∀ y ∈ (t.queue q).pkts, y.pkt.id = x.pkt.id → y.medium = .hbm) ∧
        memKept s t ∧
        (s.isLead = true → t.dieUsed x.pkt.dir = s.dieUsed x.pkt.dir - cellsOf x.pkt.bytes.length ∧ regsKept s t [] ∧
          (∀ a b : List QPkt, (s.queue q).pkts = a ++ x :: b → (∀ y ∈ a ++ b, y.pkt.id ≠ x.pkt.id) →
            (t.queue q).pkts = a ++ { x with medium := .hbm } :: b))) ∧
    (∀ (q : Fin 16384) (x : QPkt), (s.queue q).pkts.find? (fun p => p.medium == .reading) = some x →
      cellsOf x.pkt.bytes.length ≤ s.dieFree x.pkt.dir →
      ∃ t : State, exec (.spillReadDone q) s = .next t ∧ (∀ y ∈ (t.queue q).pkts, y.pkt.id = x.pkt.id → y.medium = .die) ∧
        t.dieUsed x.pkt.dir = s.dieUsed x.pkt.dir + cellsOf x.pkt.bytes.length ∧
          t.hbmUsed x.pkt.dir = s.hbmUsed x.pkt.dir - x.cells.length ∧
        (∀ a b : List QPkt, (s.queue q).pkts = a ++ x :: b → (∀ y ∈ a ++ b, y.pkt.id ≠ x.pkt.id) →
          (t.queue q).pkts = a ++ { x with medium := .die, cells := [] } :: b) ∧ memKept s t ∧ regsKept s t []) ∧
    (∀ v : Word,
      ((bitsOf v.toNat 63 44 < 65536 ∨ 786432 < bitsOf v.toNat 63 44 + 65536 ∨ bitsOf v.toNat 63 44 < s.dieUsed .up ∨
          786432 < bitsOf v.toNat 63 44 + s.dieUsed .dn) →
        ∃ t : State, exec (.poolCfgWrite false v) s = .next t ∧ t.bit R.qmStatus F.qmStatus_poolRefused = true ∧ t.qm = s.qm ∧
          memKept s t ∧ regsKept s t [R.qmStatus]) ∧
      (65536 ≤ bitsOf v.toNat 63 44 → bitsOf v.toNat 63 44 + 65536 ≤ 786432 → s.dieUsed .up ≤ bitsOf v.toNat 63 44 →
          bitsOf v.toNat 63 44 + s.dieUsed .dn ≤ 786432 →
        ∃ t : State, exec (.poolCfgWrite false v) s = .next t ∧ t.poolSize .up = bitsOf v.toNat 63 44 ∧
          t.poolSize .dn = 786432 - bitsOf v.toNat 63 44 ∧
          t.qm = s.qm ∧ memKept s t ∧ regsKept s t [R.qmPoolCfg]) ∧
      (∀ gib area up : Nat, gib = 32 * (bitsOf v.toNat 9 8 % 2 + bitsOf v.toNat 9 8 / 2) →
        area = min 8 (s.fld R.lschHbmArea F.lschHbmArea_gib) → up = bitsOf v.toNat 15 10 →
        ((gib < up + 4 ∨ up < 4 ∨ gib < up + area + 4 ∨ up * cellsPerGib < s.hbmUsed .up ∨
          (gib - up - area) * cellsPerGib < s.hbmUsed .dn) →
          ∃ t : State, exec (.poolCfgWrite true v) s = .next t ∧ t.bit R.qmStatus F.qmStatus_poolRefused = true ∧ t.qm = s.qm ∧
            memKept s t ∧ regsKept s t [R.qmStatus]) ∧
        (¬(gib < up + 4 ∨ up < 4 ∨ gib < up + area + 4 ∨ up * cellsPerGib < s.hbmUsed .up ∨
          (gib - up - area) * cellsPerGib < s.hbmUsed .dn) →
          ∃ t : State, exec (.poolCfgWrite true v) s = .next t ∧ t.hbmSize .up = up * cellsPerGib ∧
            t.hbmSize .dn = (gib - up - area) * cellsPerGib ∧
            t.qm = s.qm ∧ memKept s t ∧ regsKept s t [R.qmHbmCfg]))) ∧
    (s.fld R.qmCmd F.qmCmd_status = 1 → ∃ t : State, exec .qmCmdDone s = .next t ∧ t.fld R.qmCmd F.qmCmd_status ≠ 1 ∧ memKept s t) ∧
    (s.fld R.qmCmd F.qmCmd_status = 1 → ∀ q, s.fld R.qmCmd F.qmCmd_index = q →
      (s.fld R.qmCmd F.qmCmd_op = 0 → ∃ t : State, exec .qmCmdDone s = .next t ∧ t.fld R.qmCmd F.qmCmd_status = 0 ∧
        t.reg R.qmData0 = (s.queue q).desc ∧
        t.fld R.qmData1 ⟨39, 0⟩ = (s.queue q).occBytes % 2 ^ 40 ∧ t.qm = s.qm ∧ memKept s t ∧ unitsKept s t [0x91]) ∧
      (s.fld R.qmCmd F.qmCmd_op = 1 → ∃ t : State, exec .qmCmdDone s = .next t ∧ t.fld R.qmCmd F.qmCmd_status = 0 ∧
        (t.queue q).valid = s.bit R.qmData0 ⟨63, 63⟩ ∧ (t.queue q).limit = s.fld R.qmData0 ⟨19, 0⟩ ∧
          (t.queue q).pkts = (s.queue q).pkts ∧
        (∀ p, p ≠ q → t.queue p = s.queue p) ∧ memKept s t ∧ unitsKept s t [0x91]) ∧
      (s.fld R.qmCmd F.qmCmd_op = 2 → ∃ t : State, exec .qmCmdDone s = .next t ∧ t.fld R.qmCmd F.qmCmd_status = 0 ∧
        (t.queue q).joined = [] ∧ memKept s t))

/-- When a transfer of a serving HBM channel ends, the highest-ranked pending requester wins and drops to the lowest rank, and with none
pending the channel rests. A tick advances wheel time by one and releases every node of the fine wheel whose slot has come, while
BATCH has room. A medium channel's egress takes nothing of its own; a client port that runs, has its link up and room takes the
packet the scheduler selects at the end of its egress buffer, and a host channel into its receive buffer. A node READ shows its
words, a WRITE without a shaper change replaces them, and one that attaches a queue to a channel of another kind ends with its
status and changes no node.
Where it rests on the model's own reading or choice, that is log entries 68, 69, 71 and 171. -/
def Obligations.ArbiterWheelAndScheduler : Prop :=
  ∀ s : State,
    (∀ (ch : Fin 32) (pending : List HbmReq) (c : HbmChan), s.hbmServes ch = true → Tbl.get (fun _ => {}) s.qm.hbm ch = c →
      (∀ (a b : List HbmReq) (w : HbmReq), c.ranks = a ++ w :: b → w ∈ pending → (∀ x ∈ a, x ∉ pending) →
        ∃ t : State, exec (.hbmTransfer ch pending) s = .next t ∧ (Tbl.get (fun _ => {}) t.qm.hbm ch).busy = some w ∧
          (Tbl.get (fun _ => {}) t.qm.hbm ch).ranks = a ++ b ++ [w] ∧ memKept s t ∧ unitsKept s t [0x91]) ∧
      ((∀ x ∈ c.ranks, x ∉ pending) →
        ∃ t : State, exec (.hbmTransfer ch pending) s = .next t ∧ (Tbl.get (fun _ => {}) t.qm.hbm ch).busy = none ∧
          (Tbl.get (fun _ => {}) t.qm.hbm ch).ranks = c.ranks ∧ memKept s t ∧ unitsKept s t [0x91])) ∧
    (∃ t : State, exec .wheelFire s = .next t ∧ t.qm.tick = s.qm.tick + 1 ∧
      (s.qm.wheel.length ≤ clampN 1 64 (s.fld R.schCfg F.schCfg_batch) → ∀ k ∈ s.qm.wheel, (s.node k).coarse = false →
        (∃ e, (s.node k).held = some e ∧ e ≤ s.qm.tick + 1) → (t.node k).held = none ∧ k ∉ t.qm.wheel) ∧
      (∀ k, (t.node k).credit = (s.node k).credit ∧ (t.node k).d0 = (s.node k).d0 ∧ (t.node k).d1 = (s.node k).d1) ∧ memKept s t ∧
        unitsKept s t [0x92]) ∧
    (∀ c : Fin 128, 96 ≤ c.val → c.val ≤ 119 → ∃ t : State, exec (.egressSelect c) s = .next t ∧ t = s) ∧
    (∀ (c : Fin 128) (p : Pkt) (u : State), c.val < 96 → s.restarting Src.qm = false → s.restarting (Src.cli (c.val / 8)) = false →
      s.portRuns c = true →
      s.linkIsUp c = true → s.selectFor c (s.egressStops c) (fun _ => true) = some (p, u) →
        s.egressUsed c + p.bytes.length ≤ s.egressSize c →
      ∃ t : State, exec (.egressSelect c) s = .next t ∧ (t.port c).egress = (u.port c).egress ++ [p] ∧ t.qm = u.qm) ∧
    (∀ (h c : Nat) (e : Fin 128) (p : Pkt) (u : State), e.val = 120 + h → h ≤ 6 → s.restarting Src.qm = false →
      s.selectFor e (fun _ => false) (fun g => (s.rxChannel h g).isSome) = some (p, u) → s.rxChannel h (s.node p.queue).group = some c →
      ∃ t : State, exec (.egressSelect e) s = .next t ∧ (t.chan c).rx = some (p, 0) ∧ t.qm = u.qm ∧ t.regs = u.regs ∧ memKept u t) ∧
    (s.fld R.schCmd F.schCmd_status = 1 →
      ∃ t : State, exec .schCmdDone s = .next t ∧ t.fld R.schCmd F.schCmd_status ≠ 1 ∧ memKept s t ∧ unitsKept s t [0x92]) ∧
    (∀ i key, s.fld R.schCmd F.schCmd_status = 1 → s.fld R.schCmd F.schCmd_index = i →
      schKey (s.fld R.schCmd F.schCmd_table) i = some key →
      (s.fld R.schCmd F.schCmd_op = 0 → ∃ t : State, exec .schCmdDone s = .next t ∧ t.fld R.schCmd F.schCmd_status = 0 ∧
        t.reg R.schData0 = (s.node key).d0 ∧
        t.reg R.schData1 = (s.node key).d1 ∧ (∀ k, k ≠ key → t.node k = s.node k) ∧ memKept s t ∧ unitsKept s t [0x92]) ∧
      (∀ d1 : Word, s.fld R.schCmd F.schCmd_op = 1 → s.fld R.schCmd F.schCmd_table = 2 →
        d1.toNat = (s.reg R.schData1).toNat &&& schD1Mask →
        shaperChanged (s.node key).d1 d1 = false →
        ∃ t : State, exec .schCmdDone s = .next t ∧ t.fld R.schCmd F.schCmd_status = 0 ∧ (t.node key).d1 = d1 ∧
          (∀ k, k ≠ key → t.node k = s.node k) ∧ memKept s t ∧
          unitsKept s t [0x92]) ∧
      (s.fld R.schCmd F.schCmd_op = 1 → s.fld R.schCmd F.schCmd_table = 0 → s.bit R.schData0 ⟨63, 63⟩ = true →
        chanKindOk i (s.node (groupKey (s.fld R.schData0 ⟨55, 46⟩))).channel = false →
        ∃ t : State, exec .schCmdDone s = .next t ∧ t.fld R.schCmd F.schCmd_status = 4 ∧ t.qm = s.qm ∧ memKept s t ∧
          unitsKept s t [0x92]))

/-- A write of CLI.CFG that changes the mode of an enabled port, or names a mode whose lanes are not free, is ignored and sets
MODE_REFUSED. An accepted write takes every field written, and a port that it stops loses its link. When the link conditions have
held, the link of a running port rises with LINK_CHG and its event; when one fails, it falls and the egress buffer is discarded.
Where it rests on the model's own reading or choice, that is log entry 78. -/
def Obligations.PortModesAndLinks : Prop :=
  ∀ (s : State) (k : Port) (v : Word),
    (s.portMode k ≠ 15 → bitsOf v.toNat 35 32 ≠ s.portMode k →
      (s.bit (R.cliCfg k) F.cliCfg_portEn = true ∨ s.modeOk k (bitsOf v.toNat 35 32) = false) →
      ∃ t : State, exec (.cliCfgWrite k v) s = .next t ∧ t.bit (R.cliStatus k) F.cliStatus_modeRefused = true ∧
        t.portMode k = s.portMode k ∧ memKept s t ∧
        regsKept s t [R.cliStatus k]) ∧
    (s.portMode k = 15 → exec (.cliCfgWrite k v) s = .next s) ∧
    (s.portMode k ≠ 15 → ((bitsOf v.toNat 35 32 = s.portMode k ∧
      (s.bit (R.cliCfg k) F.cliCfg_portEn = false ∨ bitOf v.toNat 30 = s.bit (R.cliCfg k) F.cliCfg_rsfec25)) ∨
        (s.bit (R.cliCfg k) F.cliCfg_portEn = false ∧ s.modeOk k (bitsOf v.toNat 35 32) = true)) →
      ∃ t : State, exec (.cliCfgWrite k v) s = .next t ∧ t.portMode k = bitsOf v.toNat 35 32 ∧
        t.bit (R.cliCfg k) F.cliCfg_portEn = bitOf v.toNat 31 ∧
        t.fld (R.cliCfg k) ⟨30, 28⟩ = bitsOf v.toNat 30 28 ∧ t.fld (R.cliCfg k) ⟨26, 0⟩ = bitsOf v.toNat 26 0 ∧ memKept s t ∧
        (s.bit (R.cliCfg k) F.cliCfg_portEn = true → bitOf v.toNat 31 = false → t.linkIsUp k = false ∧ (t.port k).egress = []) ∧
        (modeLanes (s.portMode k) = 1 → modeLanes (bitsOf v.toNat 35 32) = 1 →
          (s.bit (R.cliCfg k) F.cliCfg_portEn = false ∨ bitOf v.toNat 31 = true) →
          regsKept s t [R.cliCfg k])) ∧
    (s.restarting (Src.cli (k.val / 8)) = false → s.portRuns k = true → s.linkIsUp k = false →
      ∃ t : State, exec (.linkUp k) s = .next t ∧ t.linkIsUp k = true ∧ t.bit (R.cliStatus k) F.cliStatus_linkChg = true ∧
        t.bit (R.cliStatus k) F.cliStatus_localFault = false ∧ (t.port k).remoteOut = false ∧
          t.edges = s.edges ++ [32 * (0x30 + k.val)] ∧ memKept s t ∧
        (s.fcMode k = 0 → regsKept s t [R.cliStatus k])) ∧
    (∀ (lf rf bl am fl : Bool), s.portRuns k = true →
      ((lf = true ∨ rf = true ∨ bl = false ∨ (modeMarkers (s.portMode k) = true ∧ am = false) ∨ (s.portFec k = true ∧ fl = false)) →
        ∃ t : State, exec (.linkDown k lf rf bl am fl) s = .next t ∧ t.linkIsUp k = false ∧
          (s.linkIsUp k = true → t.bit (R.cliStatus k) F.cliStatus_linkChg = true) ∧
          t.bit (R.cliStatus k) F.cliStatus_localFault = lf ∧ t.bit (R.cliStatus k) F.cliStatus_remoteFault = rf ∧
            (t.port k).remoteOut = lf ∧
          (t.port k).egress = [] ∧ counted s t (R.cliCount k 12) F.cliCount_count (s.port k).egress.length ∧ memKept s t ∧
          ((∀ p ∈ (s.port k).egress, p.ret = 0) → unitsKept s t [0x30 + k.val])))

/-- A running port counts a frame under the first check of R299 that fails: PCS, runt, oversize, address filter; a good frame of a port
without MACsec and R-TAG handling is counted and handed to its pipe without its FCS as a packet of that port. A recovery group's
silence restarts its history. PAUSE in mode 1 stops every priority or releases it at time 0; priority flow control in mode 2 stops
the enabled priorities; a timer's end releases its priority; in other modes both are discarded. A stop condition sends one control
frame of 60 bytes, its end another, and a refresh repeats it; a waiting control frame goes out before any packet with its check
sequence.
Where it rests on the model's own reading or choice, that is log entries 73, 75, 80, 174 and 175. -/
def Obligations.ClientFramesAndFlowControl : Prop :=
  ∀ (s : State) (k : Port),
    (∀ f : ClientFrame, s.portRuns k = true → s.restarting (Src.cli (k.val / 8)) = false → s.portLoops k 1 = false →
      (∀ c : Nat, c = (if f.pcsError then 7 else if f.bytes.length < 64 then 1
          else if clampN 64 16387 (s.fld (R.cliRxCfg k) F.cliRxCfg_maxLen) < f.bytes.length then 2 else if s.daAccepted k f.bytes = false then 3 else 99) → c ≠ 99 →
        ∃ t : State, exec (.clientFrameRx k f) s = .next t ∧ counted s t (R.cliCount k c) F.cliCount_count ∧ t.cls = s.cls ∧
          t.qm = s.qm ∧ memKept s t ∧
          unitsKept s t [0x30 + k.val]) ∧
      (f.pcsError = false → f.fcsOk = true → 64 ≤ f.bytes.length →
        f.bytes.length ≤ clampN 64 16387 (s.fld (R.cliRxCfg k) F.cliRxCfg_maxLen) →
        s.daAccepted k f.bytes = true → etherType f.bytes 12 ≠ 0x8808 → s.macsecOn k = false →
          s.bit (R.cliRtagCfg k) F.cliRtagCfg_rxEn = false →
        s.restarting Src.qm = false → s.domTakes 5 = true →
          cellsOf (f.bytes.length - 4) + s.fld R.qmPoolCfg F.qmPoolCfg_slowRes ≤ s.dieFree .up →
        s.pipeFull .up (k.val % 8) = false →
        ∃ t x, exec (.clientFrameRx k f) s = .next t ∧ t.pipe .up (k.val % 8) = s.pipe .up (k.val % 8) ++ [x] ∧
          x.bytes = f.bytes.take (f.bytes.length - 4) ∧ x.dir = .up ∧ x.chan = k.val ∧ x.bad = false ∧ x.seq = none ∧
          counted s t (R.cliRxFrames k) F.cliRxFrames_count ∧ counted s t (R.cliRxBytes k) F.cliRxBytes_count f.bytes.length ∧
          t.dieUsed .up = s.dieUsed .up + cellsOf (f.bytes.length - 4) ∧ memKept s t ∧ unitsKept s t [0x30 + k.val, 0x93])) ∧
    (∀ g : Fin 32, ∃ t : State, exec (.recovResetExpiry g) s = .next t ∧ (t.recov g).take = true ∧ (t.recov g).seq = (s.recov g).seq ∧
      (∀ h, h ≠ g.val → t.recov h = s.recov h) ∧ memKept s t ∧ regsKept s t []) ∧
    (∀ time : BitVec 16, s.portRuns k = true →
      (s.fcMode k = 1 → ∃ t : State, exec (.pauseRx k time) s = .next t ∧ t.paused k = (if time = 0 then 0 else 255) ∧
        counted s t (R.cliCount k 8) F.cliCount_count ∧
        memKept s t ∧ unitsKept s t [0x30 + k.val]) ∧
      (s.fcMode k ≠ 1 → ∃ t : State, exec (.pauseRx k time) s = .next t ∧ t.paused k = s.paused k ∧
        counted s t (R.cliCount k 4) F.cliCount_count ∧
        memKept s t ∧ unitsKept s t [0x30 + k.val])) ∧
    (∀ (en : BitVec 8) (ts : List (BitVec 16)), s.portRuns k = true → ts.length = 8 →
      (s.fcMode k = 2 → ∃ t : State, exec (.pfcRx k en ts) s = .next t ∧ counted s t (R.cliCount k 8) F.cliCount_count ∧
        (∀ p, p < 8 → bitOf (t.paused k) p = (if bitOf en.toNat p then (ts.getD p 0) != 0 else bitOf (s.paused k) p)) ∧ memKept s t ∧
        unitsKept s t [0x30 + k.val]) ∧
      (s.fcMode k ≠ 2 → ∃ t : State, exec (.pfcRx k en ts) s = .next t ∧ t.paused k = s.paused k ∧
        counted s t (R.cliCount k 4) F.cliCount_count ∧ memKept s t ∧
        unitsKept s t [0x30 + k.val])) ∧
    (∀ pri : Fin 8, ∃ t : State, exec (.pauseTimerExpiry k pri) s = .next t ∧
      (∀ p, p < 8 → bitOf (t.paused k) p = (if p = pri.val then false else bitOf (s.paused k) p)) ∧ memKept s t ∧
        regsKept s t [R.cliStatus k]) ∧
    (∀ q : Nat, s.fcRuns k = true → q < 8 →
      (bitOf (s.port k).stop q = false → s.wantsStop k q = true →
        ∃ t x, exec (.fcXoff k) s = .next t ∧ (t.port k).control = (s.port k).control ++ [x] ∧ x.length = 60 ∧ etherType x 12 = 0x8808 ∧
          bitOf (t.port k).stop q = true ∧ t.bit (R.cliStatus k) F.cliStatus_xoffTx = true ∧
            counted s t (R.cliCount k 9) F.cliCount_count ∧ memKept s t ∧
          unitsKept s t [0x30 + k.val] ∧ (s.fcMode k = 1 → (s.port k).stop = 0 → (t.port k).stop = 255 ∧ etherType x 14 = 1 ∧
            etherType x 16 = s.fld (R.cliFcCfg k) F.cliFcCfg_quanta)) ∧
      (bitOf (s.port k).stop q = true → s.wantsGo k q = true →
        ∃ t x, exec (.fcXon k) s = .next t ∧ (t.port k).control = (s.port k).control ++ [x] ∧ x.length = 60 ∧ etherType x 12 = 0x8808 ∧
          bitOf (t.port k).stop q = false ∧ counted s t (R.cliCount k 9) F.cliCount_count ∧ memKept s t ∧ unitsKept s t [0x30 + k.val] ∧
          (s.fcMode k = 1 → (s.port k).stop = 255 → (t.port k).stop = 0 ∧ etherType x 14 = 1 ∧ etherType x 16 = 0 ∧
            t.bit (R.cliStatus k) F.cliStatus_xoffTx = false)) ∧
      (bitOf (s.port k).stop q = true → s.wantsGo k q = false →
        ∃ t x, exec (.fcRefresh k) s = .next t ∧ (t.port k).control = (s.port k).control ++ [x] ∧ x.length = 60 ∧
          etherType x 12 = 0x8808 ∧
          (t.port k).stop = (s.port k).stop ∧ counted s t (R.cliCount k 9) F.cliCount_count ∧ memKept s t ∧
            unitsKept s t [0x30 + k.val] ∧
          (s.fcMode k = 1 → etherType x 14 = 1 ∧ etherType x 16 = s.fld (R.cliFcCfg k) F.cliFcCfg_quanta))) ∧
    (∀ (c : List Byte) (l : List (List Byte)), s.portRuns k = true → s.linkIsUp k = true → s.portLoops k 1 = false →
      s.portLoops k 2 = false → (s.port k).control = c :: l →
      ∃ t : State, exec (.clientFrameTx k) s = .next t ∧ (t.port k).sent = some (c ++ ethFcs c) ∧ (t.port k).control = l ∧
        (t.port k).egress = (s.port k).egress ∧
        memKept s t ∧ regsKept s t []) ∧
    (∀ p : Pkt, s.portRuns k = true → s.linkIsUp k = true → s.portLoops k 1 = false → s.portLoops k 2 = false →
      (s.port k).control = [] →
      (s.port k).sealing = none → (s.port k).egress = [p] → (s.port k).oper = none →
      (s.port k).frozen = none → bitOf (s.paused k) p.pri = false → bitOf (s.gates k) p.pri = true → s.macsecOn k = false → p.act = 0 →
        (p.dir = .up ∨ p.seq = none) →
      ∃ t : State, exec (.clientFrameTx k) s = .next t ∧ (t.port k).egress = [] ∧ (t.port k).sent = some (p.bytes ++ ethFcs p.bytes) ∧
        counted s t (R.cliTxFrames k) F.cliTxFrames_count ∧ counted s t (R.cliTxBytes k) F.cliTxBytes_count (p.bytes.length + 4) ∧
          memKept s t ∧
        unitsKept s t [0x30 + k.val])

/-- COMMIT with no commit pending and a base NS of at most 999,999,999 freezes the list and sets its start at base + k x cycle, the
smallest k that lies at least 2 µs ahead, with LATE_START where k is not 0; else it is refused. CANCEL withdraws a pending commit
and is refused without one; DISABLE stops the operating list and shows ADMIN_GATES. An access to GCL_DATA reads or writes the entry
at INDEX of the bank named and advances INDEX; a member lane ignores these writes and reads zero; a write to the operating bank or
while pending is refused. At its start the committed list becomes the operating one and the banks swap; at an entry's end the next
entry's gates are shown.
Where it rests on the model's own reading or choice, that is log entries 76 and 79. -/
def Obligations.GateLists : Prop :=
  ∀ (s : State) (k : Port),
    (s.portMode k = 15 → (∀ c ∈ [Instr.gclCommit k, .gclCancel k, .gclDisable k], exec c s = .next s) ∧
      (∀ v : Word, exec (.gclDataAccess k true v) s = .next s ∧
        ∃ t : State, exec (.gclDataAccess k false v) s = .next t ∧ t.host.rdata = 0 ∧ t.cli = s.cli ∧ memKept s t ∧ regsKept s t [])) ∧
    (s.portMode k ≠ 15 → (s.bit (R.cliGclStatus k) F.cliGclStatus_pending = true ∨
      999999999 < s.fld (R.cliGclBaseNs k) F.cliGclBaseNs_ns) →
      ∃ t : State, exec (.gclCommit k) s = .next t ∧ t.bit (R.cliGclStatus k) F.cliGclStatus_refused = true ∧ t.cli = s.cli ∧
        memKept s t ∧ regsKept s t [R.cliGclStatus k]) ∧
    (∀ (cycle base now : Int), s.portMode k ≠ 15 → s.bit (R.cliGclStatus k) F.cliGclStatus_pending = false →
      s.fld (R.cliGclBaseNs k) F.cliGclBaseNs_ns ≤ 999999999 →
      cycle = 65536 * (clampN 100 1000000000 (s.fld (R.cliGclCfg k) F.cliGclCfg_cycleNs) : Nat) →
      base = 65536 * ((s.reg (R.cliGclBaseSec k)).toNat * 1000000000 + s.fld (R.cliGclBaseNs k) F.cliGclBaseNs_ns : Nat) →
      now = s.timeNow →
      ∃ t st, exec (.gclCommit k) s = .next t ∧
        (t.port k).frozen = some (s.fld (R.cliGclCfg k) F.cliGclCfg_lengthM1,
          clampN 100 1000000000 (s.fld (R.cliGclCfg k) F.cliGclCfg_cycleNs), st) ∧
        now + 2000 * 65536 ≤ st ∧ base ≤ st ∧ (st - base) % cycle = 0 ∧ (base < st → st < now + 2000 * 65536 + cycle) ∧
        t.bit (R.cliGclStatus k) F.cliGclStatus_pending = true ∧
        (base < st → t.bit (R.cliGclStatus k) F.cliGclStatus_lateStart = true) ∧ memKept s t ∧ regsKept s t [R.cliGclStatus k]) ∧
    (s.portMode k ≠ 15 → s.bit (R.cliGclStatus k) F.cliGclStatus_pending = true →
      ∃ t : State, exec (.gclCancel k) s = .next t ∧ t.bit (R.cliGclStatus k) F.cliGclStatus_pending = false ∧
        (t.port k).frozen = none ∧
        (t.port k).oper = (s.port k).oper ∧ (t.port k).banks = (s.port k).banks ∧ memKept s t ∧ regsKept s t [R.cliGclStatus k]) ∧
    (s.portMode k ≠ 15 → s.bit (R.cliGclStatus k) F.cliGclStatus_pending = false →
      ∃ t : State, exec (.gclCancel k) s = .next t ∧ t.bit (R.cliGclStatus k) F.cliGclStatus_refused = true ∧ t.cli = s.cli ∧
        memKept s t ∧ regsKept s t [R.cliGclStatus k]) ∧
    (s.portMode k ≠ 15 → ∃ t : State, exec (.gclDisable k) s = .next t ∧ (t.port k).oper = none ∧ (t.port k).frozen = none ∧
      t.bit (R.cliGclStatus k) F.cliGclStatus_running = false ∧
      t.bit (R.cliGclStatus k) F.cliGclStatus_pending = false ∧ t.gates k = s.fld (R.cliGclCtl k) F.cliGclCtl_adminGates ∧ memKept s t ∧
      regsKept s t [R.cliGclStatus k]) ∧
    (∀ v : Word, s.portMode k ≠ 15 → s.bit (R.cliGclAddr k) F.cliGclAddr_bank = false →
      s.bit (R.cliGclStatus k) F.cliGclStatus_pending = false →
      ∃ t : State, exec (.gclDataAccess k true v) s = .next t ∧
        gclGates (t.gclEntry k (1 - s.operBank k) (s.fld (R.cliGclAddr k) F.cliGclAddr_index)) = bitsOf v.toNat 39 32 ∧
        gclInterval (t.gclEntry k (1 - s.operBank k) (s.fld (R.cliGclAddr k) F.cliGclAddr_index)) = bitsOf v.toNat 29 0 ∧
        t.fld (R.cliGclAddr k) F.cliGclAddr_index = (s.fld (R.cliGclAddr k) F.cliGclAddr_index + 1) % 1024 ∧ memKept s t ∧
          regsKept s t [R.cliGclAddr k]) ∧
    (∀ v : Word, s.portMode k ≠ 15 → (s.bit (R.cliGclAddr k) F.cliGclAddr_bank = true ∨
      s.bit (R.cliGclStatus k) F.cliGclStatus_pending = true) →
      ∃ t : State, exec (.gclDataAccess k true v) s = .next t ∧ t.bit (R.cliGclStatus k) F.cliGclStatus_writeRefused = true ∧
        t.cli = s.cli ∧ memKept s t ∧
        regsKept s t [R.cliGclAddr k, R.cliGclStatus k]) ∧
    (∀ v : Word, s.portMode k ≠ 15 → ∃ t : State, exec (.gclDataAccess k false v) s = .next t ∧ t.host.rdata =
        s.gclEntry k (if s.bit (R.cliGclAddr k) F.cliGclAddr_bank then s.operBank k else 1 - s.operBank k) (s.fld (R.cliGclAddr k) F.cliGclAddr_index) ∧
        t.cli = s.cli ∧ memKept s t ∧ regsKept s t [R.cliGclAddr k]) ∧
    (∀ l, (s.port k).frozen = some l →
      ∃ t : State, exec (.gclStart k) s = .next t ∧ (t.port k).oper = some l ∧ (t.port k).frozen = none ∧
        t.operBank k = 1 - s.operBank k ∧
        t.bit (R.cliGclStatus k) F.cliGclStatus_running = true ∧ t.bit (R.cliGclStatus k) F.cliGclStatus_pending = false ∧ memKept s t ∧
        regsKept s t [R.cliGclStatus k]) ∧
    (∀ e, (s.gateSpans k)[(s.spanIndex k + 1) % max 1 (s.gateSpans k).length]? = some e → (s.port k).oper.isSome = true →
      ∃ t : State, exec (.gateEntryChange k) s = .next t ∧ t.gates k = e.gates % 256 ∧
        t.fld (R.cliGclStatus k) F.cliGclStatus_index = e.entry % 1024 ∧
        t.cli = s.cli ∧ memKept s t ∧ regsKept s t [R.cliGclStatus k])

/-- CIRC_CMD_DONE with no command BUSY changes nothing; one that was BUSY no longer is. READ of a circuit loads its entry, pointers,
defects and counters into DATA0 to DATA2; READ of a group loads its entry and its number of members. A WRITE that enables a circuit
on a lane in no SDH mode is refused with status 6, one of a downstream flow that another circuit takes with 7, one past the AU-4s of
an STM-16 lane with 2, and one whose buffers do not fit with 4, the tables unchanged. Any other WRITE replaces the entry, its
reserved bits zero, with its counters cleared where a side is enabled; a WRITE of a group likewise. An index past the table answers
2.
Where it rests on the model's own reading or choice, that is log entries 67 and 85. -/
def Obligations.CircuitCommandsComplete : Prop :=
  ∀ (s : State) (i op tb : Nat) (d : BitVec 64), s.fld R.circCmd F.circCmd_index = i → s.fld R.circCmd F.circCmd_op = op →
    s.fld R.circCmd F.circCmd_table = tb → s.reg R.circData0 = d →
    (s.fld R.circCmd F.circCmd_status ≠ 1 → exec .circCmdDone s = .next s) ∧
    (s.fld R.circCmd F.circCmd_status = 1 →
      (∃ t : State, exec .circCmdDone s = .next t ∧ t.fld R.circCmd F.circCmd_status ≠ 1 ∧ memKept s t ∧ unitsKept s t [0x96] ∧
        (t.fld R.circCmd F.circCmd_status ≠ 0 → t.circ = s.circ ∧ t.qm = s.qm) ∧
        (tb = 0 → op = 1 → i < 6144 → t.fld R.circCmd F.circCmd_status = 0 →
          bitsOf (t.circuit i).entry.toNat 63 8 = bitsOf d.toNat 63 8 ∧
          bitsOf (t.circuit i).entry.toNat 4 0 = bitsOf d.toNat 4 0 ∧ (∀ j, j ≠ i → t.circuit j = s.circuit j)) ∧
        (tb = 1 → op = 1 → i < 256 → t.fld R.circCmd F.circCmd_status = 0 → t.groupEn i = bitOf d.toNat 63 ∧
          bitsOf (t.cgroup i).toNat 4 0 = bitsOf d.toNat 4 0 ∧ (∀ j, j ≠ i → t.cgroup j = s.cgroup j))) ∧
      (tb = 0 → op = 0 → i < 6144 →
        ∃ t : State, exec .circCmdDone s = .next t ∧ t.fld R.circCmd F.circCmd_status = 0 ∧ t.circ = s.circ ∧
          t.reg R.circData0 = (s.circuit i).entry ∧
          bitsOf (t.reg R.circData1).toNat 63 54 = (s.circuit i).rxPtr % 1024 ∧
            bitsOf (t.reg R.circData1).toNat 53 44 = (s.circuit i).txPtr % 1024 ∧
          bitsOf (t.reg R.circData1).toNat 6 0 = (s.circuit i).defects % 128 ∧
            bitsOf (t.reg R.circData2).toNat 63 32 = (s.circuit i).b3 % 2 ^ 32 ∧
          bitsOf (t.reg R.circData2).toNat 31 16 = (s.circuit i).justs % 2 ^ 16 ∧
            bitsOf (t.reg R.circData2).toNat 15 0 = (s.circuit i).lost % 2 ^ 16 ∧
          memKept s t ∧ unitsKept s t [0x96]) ∧
      (tb = 1 → op = 0 → i < 256 → (s.members i).length < 128 → (s.cgroup i).toNat &&& 0x7FFFFFFFFFFFFFE0 = 0 →
        ∃ t : State, exec .circCmdDone s = .next t ∧ t.fld R.circCmd F.circCmd_status = 0 ∧ t.circ = s.circ ∧
          bitOf (t.reg R.circData0).toNat 63 = s.groupEn i ∧ bitsOf (t.reg R.circData0).toNat 62 56 = (s.members i).length ∧
          bitsOf (t.reg R.circData0).toNat 55 44 = s.groupDiff i ∧
            bitsOf (t.reg R.circData0).toNat 4 0 = bitsOf (s.cgroup i).toNat 4 0 ∧
          memKept s t ∧ unitsKept s t [0x96]) ∧
      (tb = 0 → op = 1 → i < 6144 →
        (∀ st, (st = 6 ∧ (bitOf d.toNat 63 = true ∨ bitOf d.toNat 62 = true) ∧ s.sdhLane (i / 64) = false) ∨
            (st = 2 ∧ (bitOf d.toNat 63 = true ∨ bitOf d.toNat 62 = true) ∧ s.cliMode (i / 64) = 11 ∧ 16 ≤ i % 64) ∨
            (st = 7 ∧ bitOf d.toNat 62 = true ∧ s.cliMode (i / 64) = 10 ∧
              ∃ j, j ≠ i ∧ ∃ c, (j, c) ∈ s.circ.circuits ∧ c.dnEn = true ∧ c.dnFlow = bitsOf d.toNat 36 17) ∨
            (st = 4 ∧ bitOf d.toNat 62 = true ∧ bitOf d.toNat 16 = false ∧ s.cliMode (i / 64) = 10 ∧
              (∀ e ∈ s.circ.circuits, e.1 ≠ i → e.2.dnEn = true → e.2.dnFlow ≠ bitsOf d.toNat 36 17) ∧
              s.hbmSize .dn + (s.circuit i).cells.length < s.hbmUsed .dn + 160) →
          ∃ t : State, exec .circCmdDone s = .next t ∧ t.fld R.circCmd F.circCmd_status = st ∧ t.circ = s.circ ∧ t.qm = s.qm ∧
            memKept s t ∧ unitsKept s t [0x96]) ∧
        (bitOf d.toNat 62 = true → bitOf d.toNat 16 = false → s.cliMode (i / 64) = 10 → (s.circuit i).dnEn = false →
          (s.circuit i).cells = [] →
          (∀ e ∈ s.circ.circuits, e.1 ≠ i → e.2.dnEn = true → e.2.dnFlow ≠ bitsOf d.toNat 36 17) → s.hbmUsed .dn + 160 ≤ s.hbmSize .dn →
          ∃ t : State, exec .circCmdDone s = .next t ∧ t.fld R.circCmd F.circCmd_status = 0 ∧
            bitsOf (t.circuit i).entry.toNat 63 8 = bitsOf d.toNat 63 8 ∧
            bitsOf (t.circuit i).entry.toNat 4 0 = bitsOf d.toNat 4 0 ∧ bitsOf (t.circuit i).entry.toNat 7 5 = 0 ∧
              (t.circuit i).b3 = 0 ∧ (t.circuit i).justs = 0 ∧
            (t.circuit i).lost = 0 ∧ t.hbmUsed .dn = s.hbmUsed .dn + 160 ∧ (∀ j, j ≠ i → t.circuit j = s.circuit j) ∧ memKept s t ∧
              unitsKept s t [0x96])) ∧
      (tb = 1 → op = 1 → i < 256 → s.members i = [] → s.hbmUsed .dn ≤ s.hbmSize .dn →
        ∃ t : State, exec .circCmdDone s = .next t ∧ t.fld R.circCmd F.circCmd_status = 0 ∧ t.groupEn i = bitOf d.toNat 63 ∧
          bitsOf (t.cgroup i).toNat 4 0 = bitsOf d.toNat 4 0 ∧ bitsOf (t.cgroup i).toNat 62 5 = 0 ∧
            (∀ j, j ≠ i → t.cgroup j = s.cgroup j) ∧
          t.circ.circuits = s.circ.circuits ∧ memKept s t ∧ unitsKept s t [0x96]) ∧
      ((tb = 0 ∧ 6144 ≤ i) ∨ (tb = 1 ∧ 256 ≤ i) →
        ∃ t : State, exec .circCmdDone s = .next t ∧ t.fld R.circCmd F.circCmd_status = 2 ∧ t.circ = s.circ ∧ memKept s t ∧
          unitsKept s t [0x96]))

/-- On a lane in an SDH mode, without a near-end loop, the loss-of-signal and loss-of-frame timers set and clear their defects, each
change latched with an event. A framed frame shows J0 and S1, counts the B1 and B2 errors of the frame before it and keeps the B2
count as REI; the fourth errored frame in a row enters OOF and the second good one leaves it; a third equal K value is shown with
K_CHG. Of one AU-4, the eighth invalid pointer enters LOP, the third all-ones pointer AU-AIS, and the third equal normal pointer
clears both and is taken. A DCC port frame, at its phase, sends at each of its timeslots the bytes of its DCC that have waited for 2
µs, ones elsewhere, and keeps what it sampled for insertion. Elsewhere these commands change nothing.
Where it rests on the model's own reading or choice, that is log entries 84, 86, 176, 177, 178 and 186. -/
def Obligations.SdhLanesAndDccPorts : Prop :=
  ∀ (s : State) (k : Port),
    (s.sdhLane k = false → ∀ (b : Bool) (f : SdhFrame), exec (.sdhLosTimer k b) s = .next s ∧ exec (.sdhLofTimer k b) s = .next s ∧
      exec (.sdhFrameRx k f) s = .next s) ∧
    (s.sdhLane k = true →
      (∀ b : Bool, ∃ t : State, exec (.sdhLosTimer k b) s = .next t ∧ t.laneDefect k 1 = b ∧
        (s.laneDefect k 1 ≠ b → t.bit (R.circLaneDefect k) ⟨1, 1⟩ = true ∧ t.edges = s.edges ++ [32 * 0x96]) ∧ memKept s t ∧
        regsKept s t [R.circLaneStatus k, R.circLaneDefect k]) ∧
      (∀ b : Bool, s.laneDefect k 2 = b → ∃ t : State, exec (.sdhLofTimer k b) s = .next t ∧ t.laneDefect k 3 = b ∧
        (s.laneDefect k 3 ≠ b → t.bit (R.circLaneDefect k) ⟨3, 3⟩ = true ∧ t.edges = s.edges ++ [32 * 0x96]) ∧ memKept s t ∧
        regsKept s t [R.circLaneStatus k, R.circLaneDefect k]) ∧
      (∀ (f : SdhFrame) (n : Nat), s.restarting Src.circ = false → s.serdesLoop k ≠ 1 → s.stmN k = n →
        (∃ t : State, exec (.sdhFrameRx k f) s = .next t ∧ (t.sdh k).last = s.time.now ∧ memKept s t ∧ unitsKept s t [0x96]) ∧
        (sdhFramed f n = false → (s.sdh k).runOf 4 = 3 → ∃ t : State, exec (.sdhFrameRx k f) s = .next t ∧ t.laneDefect k 2 = true) ∧
        (sdhFramed f n = true → (s.sdh k).runOf 5 = 1 → ∃ t : State, exec (.sdhFrameRx k f) s = .next t ∧ t.laneDefect k 2 = false) ∧
        (sdhFramed f n = true → s.laneDefect k 1 = false → s.laneDefect k 2 = false →
          ∃ t : State, exec (.sdhFrameRx k f) s = .next t ∧
            t.fld (R.circLaneStatus k) F.circLaneStatus_j0Rx = (sohByte f n 1 7 1).toNat ∧
            t.fld (R.circLaneStatus k) F.circLaneStatus_s1Rx = (sohByte f n 9 1 1).toNat ∧
            (∀ b, (s.sdh k).b1 = some b → counted s t (R.circLaneBip k) F.circLaneBip_b1 (diffBits [b] [sohByte f n 2 1 1])) ∧
            (∀ b, (s.sdh k).b2 = some b → counted s t (R.circLaneBip k) F.circLaneBip_b2 (diffBits b (b2Of f n)) ∧
              (t.sdh k).rei = diffBits b (b2Of f n)) ∧
            (t.sdh k).b1 = some (bip8 f.rows.flatten) ∧
            ((s.sdh k).runOf 20 = 2 → (s.sdh k).lastK = k1k2Of f n → s.fld (R.circLaneK k) F.circLaneK_rxK ≠ k1k2Of f n →
              t.fld (R.circLaneK k) F.circLaneK_rxK = k1k2Of f n ∧ t.bit (R.circLaneDefect k) F.circLaneDefect_kChg = true)) ∧
        (∀ a i h : Nat, i = 64 * k.val + a → a < n → (au4Of f n a).h = h → sdhFramed f n = true → s.laneLost k = false →
          s.laneDefect k 2 = false →
          k1k2Of f n % 8 ≠ 7 →
          (h ≠ 0xFFFF → ptrNormal h = false → (s.circuit i).reads h = .none → (s.circuit i).runOf 0 = 7 →
            ∃ t : State, exec (.sdhFrameRx k f) s = .next t ∧ (t.circuit i).defect Cd.lop = true ∧
              (t.circuit i).rxPtr = (s.circuit i).rxPtr ∧
              (t.circuit i).buffer = [] ∧ (t.circuit i).ndfDue = true) ∧
          (h = 0xFFFF → (s.circuit i).runOf 2 = 2 →
            ∃ t : State, exec (.sdhFrameRx k f) s = .next t ∧ (t.circuit i).defect Cd.auAis = true ∧
              (t.circuit i).defect Cd.lop = false) ∧
          (ptrNormal h = true → (s.circuit i).reads h = .none → (s.circuit i).runOf 3 = 2 → (s.circuit i).runOf 4 = ptrValue h + 1 →
            ∃ t : State, exec (.sdhFrameRx k f) s = .next t ∧ (t.circuit i).defect Cd.lop = false ∧
              (t.circuit i).defect Cd.auAis = false ∧
              (t.circuit i).rxPtr = ptrValue h)))) ∧
    (∀ (i : Fin 12) (l : List Bool),
      ((s.dccRuns = false ∨ s.dccPhase < s.time.sym) → exec (.dccPortFrame i l) s = .next s) ∧
      (∀ at_ : Nat, s.dccRuns = true → s.time.sym ≤ s.dccPhase → at_ = s.time.now + (s.dccPhase - s.time.sym) →
        ∃ t : State, exec (.dccPortFrame i l) s = .next t ∧ t.time.now = at_ ∧ t.time.sym = s.dccPhase ∧
          (∀ j : Nat, j < 16 → ∀ n : Nat, n = 16 * i.val + j →
            ((Tbl.get (fun _ => []) t.circ.dccOut i.val).drop (96 * j)).take 96 =
              (match s.dccSel n, ((s.dccWait n).filter (fun e => decide (e.1 + dccGap ≤ at_))).getLast? with
                | 0, _ => List.replicate 96 true
                | _, none => List.replicate 96 true
                | _, some b => (bitsOfBytes b.2 ++ List.replicate 96 true).take 96) ∧
            (s.dccSel n ≠ 0 → t.dccWait n = (s.dccWait n).filter (fun e => !decide (e.1 + dccGap ≤ at_))) ∧
            (s.dccSel n = 1 → (∀ m, m < n → ¬ (s.dccSel m = 1 ∧ s.dccLane m = s.dccLane n)) →
              (t.sdh (s.dccLane n)).insR = (s.sdh (s.dccLane n)).insR ++ [(at_ + frameSymbols + dccGap,
                ((l.drop (96 * j)).take 96).take 24)])) ∧
          t.circ.circuits = s.circ.circuits ∧ memKept s t ∧ unitsKept s t [0x96]))

/-- With an engine free, the first free engine takes the oldest urgent request, or with no urgent and no inline request waiting the
oldest suspended one; a request that starts binds to the active half of its slot if that is LOADED. With no engine free and more
than LA_MIN lookaside engines, an inline request takes the engine of the lookaside request that started last, which is suspended and
counted. The end of a request frees its engine; an awaited inline request leaves its result: status 2 without a LOADED key, 1 and no
text where the tag of an OPEN fails, else 0 with the text; a MACsec verification that fails discards its frame as ICV_FAIL; a
lookaside request alone in its queue is completed by a 16-byte record where its submitter asked.
Where it rests on the model's own reading or choice, that is log entries 87, 89 and 91. -/
def Obligations.CipherRequestsRunAndEnd : Prop :=
  ∀ (s : State),
    (s.restarting Src.ciph = true → exec .ciphDispatch s = .next s) ∧
    (∀ e : Nat, s.restarting Src.ciph = false → e < 96 → s.engine e = none → (∀ f, f < e → (s.engine f).isSome = true) →
      (s.ciph.waiting ≠ [] ∨ s.ciph.suspended ≠ []) →
      ∃ t r, exec .ciphDispatch s = .next t ∧ t.engine e = some r ∧ (∃ x ∈ s.ciph.waiting ++ s.ciph.suspended, x.num = r.num) ∧
        (∀ f, f ≠ e → t.engine f = s.engine f) ∧ memKept s t ∧ unitsKept s t [0x95]) ∧
    (∀ (e : Nat) (q : CiphReq) (a b : List CiphReq), s.restarting Src.ciph = false → e < 96 → s.engine e = none →
      (∀ f, f < e → (s.engine f).isSome = true) →
      s.ciph.waiting = a ++ q :: b → q.urgent = true → (∀ x ∈ a, x.urgent = false) →
      ∃ t r, exec .ciphDispatch s = .next t ∧ t.engine e = some r ∧ r.num = q.num ∧
        r.bound = (if (s.slot q.slot).act.st = 1 ∧ q.bad = false then some (s.slot q.slot).act.key else q.bound) ∧
        t.ciph.waiting = s.ciph.waiting.filter (fun x => x.num != q.num) ∧ (∀ f, f ≠ e → t.engine f = s.engine f) ∧ memKept s t ∧
          unitsKept s t [0x95]) ∧
    (∀ (e : Nat) (q : CiphReq) (l : List CiphReq), s.restarting Src.ciph = false → e < 96 → s.engine e = none →
      (∀ f, f < e → (s.engine f).isSome = true) →
      (∀ x ∈ s.ciph.waiting, 1 < x.rank) → s.ciph.suspended = q :: l →
      ∃ t r, exec .ciphDispatch s = .next t ∧ t.engine e = some r ∧ r.num = q.num ∧ r.bound = q.bound ∧ t.ciph.suspended = l ∧
        t.ciph.waiting = s.ciph.waiting ∧ (∀ f, f ≠ e → t.engine f = s.engine f) ∧ memKept s t ∧ regsKept s t []) ∧
    (∀ q ∈ s.ciph.waiting, s.restarting Src.ciph = false → (∀ f, f < 96 → (s.engine f).isSome = true) → q.rank ≤ 1 →
      s.laMin < s.lookEngines.length →
      s.ciph.suspended.length < 256 →
      ∃ t e v r, exec .ciphDispatch s = .next t ∧ s.engine e = some v ∧ v.isLook = true ∧
        (∀ f w, f < 96 → s.engine f = some w → w.isLook = true → w.started ≤ v.started) ∧ t.ciph.suspended = s.ciph.suspended ++ [v] ∧
          t.engine e = some r ∧
        (∃ x ∈ s.ciph.waiting, x.num = r.num ∧ x.rank ≤ 1) ∧ counted s t (R.ciphCount 4) F.ciphCount_count ∧ memKept s t ∧
          unitsKept s t [0x95]) ∧
    (∀ (e : Fin 96) (h : Bool), s.engine e = none → exec (.ciphRequestDone e h) s = .next s) ∧
    (∀ (e : Fin 96) (h : Bool) (r : CiphReq), s.engine e = some r →
      ∃ t : State, exec (.ciphRequestDone e h) s = .next t ∧ t.engine e = none ∧ (∀ f, f ≠ e.val → t.engine f = s.engine f)) ∧
    (∀ (e : Fin 96) (h : Bool) (k : Port) (r : CiphReq) (m : MacRx) (key : BitVec 256), s.engine e = some r → r.who = .macRx k →
      (s.port k).verify = [m] → m.req = r.num →
      s.ciph.results = [] → r.bad = false → r.busError = false → r.bound = some key → r.op = 1 →
        gcmOpen key r.iv r.aad r.text r.tag = none →
      replayed m.port m.pn (s.lowestPn m) = false →
      ∃ t : State, exec (.ciphRequestDone e h) s = .next t ∧ (t.port k).verify = [] ∧ counted s t (R.ciphCount 10) F.ciphCount_count ∧
        counted s t (R.cliCount k 5) F.cliCount_count ∧ memKept s t) ∧
    (∀ (e : Fin 96) (h : Bool) (r : CiphReq), s.engine e = some r → (∀ q, r.who ≠ .look q ∧ r.who ≠ .macRx q ∧ r.who ≠ .macTx q) →
      s.awaited r.num = true → r.bad = false → r.busError = false →
      (r.bound = none → ∃ t : State, exec (.ciphRequestDone e h) s = .next t ∧ t.engine e = none ∧
        t.ciph.results = s.ciph.results ++ [⟨r.num, 2, [], 0⟩] ∧
        counted s t (R.ciphCount 3) F.ciphCount_count ∧ (∀ f, f ≠ e.val → t.engine f = s.engine f) ∧ memKept s t ∧
          unitsKept s t [0x95]) ∧
      (∀ k, r.bound = some k → r.op = 1 → gcmOpen k r.iv r.aad r.text r.tag = none →
        ∃ t : State, exec (.ciphRequestDone e h) s = .next t ∧ t.engine e = none ∧
          t.ciph.results = s.ciph.results ++ [⟨r.num, 1, [], 0⟩] ∧
          counted s t (R.ciphCount 2) F.ciphCount_count ∧ (∀ f, f ≠ e.val → t.engine f = s.engine f) ∧ memKept s t ∧
            unitsKept s t [0x95]) ∧
      (∀ k p, r.bound = some k → r.op = 1 → gcmOpen k r.iv r.aad r.text r.tag = some p →
        ∃ t : State, exec (.ciphRequestDone e h) s = .next t ∧ t.engine e = none ∧
          t.ciph.results = s.ciph.results ++ [⟨r.num, 0, p, r.tag⟩] ∧
          counted s t (R.ciphCount 1) F.ciphCount_count ∧ memKept s t ∧ unitsKept s t [0x95]) ∧
      (∀ k, r.bound = some k → r.op = 0 →
        ∃ t : State, exec (.ciphRequestDone e h) s = .next t ∧ t.engine e = none ∧
          t.ciph.results = s.ciph.results ++ [⟨r.num, 0, (gcmSeal k r.iv r.aad r.text).1, (gcmSeal k r.iv r.aad r.text).2⟩] ∧
          counted s t (R.ciphCount 0) F.ciphCount_count ∧ memKept s t ∧ unitsKept s t [0x95])) ∧
    (∀ (e : Fin 96) (h : Bool) (r x : CiphReq) (q k : Nat), s.engine e = some r → r.who = .look q → s.look q = [x] → x.num = r.num →
      s.ciph.results = [] →
      x.chan = none → x.reply = none → r.bad = false → r.busError = false → r.bound = none →
        s.limCell x.submitter x.recAddr 16 true = some k →
      ∃ t w, exec (.ciphRequestDone e h) s = .next t ∧ t.engine e = none ∧ t.look q = [] ∧ t.ciph.results = [] ∧ w.length = 16 ∧
        w.take 8 = beBytes 8 (laWord0 x 2).toNat ∧ t.readBytes k 16 = w ∧ (∀ a, (a < k ∨ k + 16 ≤ a) → t.cell a = s.cell a) ∧
        counted s t (R.ciphCount 6) F.ciphCount_count ∧ unitsKept s t [0x95])

/-- LOAD, COMMIT and ERASE are ignored while KEY_CTL is BUSY, else they take slot and operation and become BUSY, or refused 4 before the
tables are cleared. When the operation ends, LOAD is refused 2 on a DRAINING pending half, else copies KEY_DATA into the pending
half, which becomes LOADED, and zeroes KEY_DATA; COMMIT is refused 3 without a LOADED pending half, else it makes that half the
active one; ERASE leaves no half LOADED; a half with users drains, one without is EMPTY with its key zero. A MACsec table READ loads
the entry, a WRITE replaces it with the words' reserved bits zero, a port entry that is enabled outside an Ethernet mode is refused
4, and an index past the table answers 2.
Where it rests on the model's own reading or choice, that is log entries 88, 90 and 92. -/
def Obligations.KeysAndMacsecTables : Prop :=
  ∀ (s : State) (v : Word),
    (∀ c ∈ [(Instr.keyLoad v, 1), (.keyCommit v, 2), (.keyErase v, 3)],
      (s.fld R.ciphKeyCtl F.ciphKeyCtl_status = 1 → exec c.1 s = .next s) ∧
      (s.fld R.ciphKeyCtl F.ciphKeyCtl_status ≠ 1 → ∃ t : State, exec c.1 s = .next t ∧ t.fld R.ciphKeyCtl F.ciphKeyCtl_op = c.2 ∧
        t.fld R.ciphKeyCtl F.ciphKeyCtl_slot = bitsOf v.toNat 59 48 ∧
        t.fld R.ciphKeyCtl F.ciphKeyCtl_status = (if s.bit R.ciphStatus F.ciphStatus_ready then 1 else 4) ∧ t.ciph = s.ciph ∧
          memKept s t ∧
        regsKept s t [R.ciphKeyCtl])) ∧
    (s.fld R.ciphKeyCtl F.ciphKeyCtl_status ≠ 1 → exec .keyOpDone s = .next s) ∧
    (∀ n op : Nat, s.fld R.ciphKeyCtl F.ciphKeyCtl_status = 1 → s.fld R.ciphKeyCtl F.ciphKeyCtl_slot = n →
      s.fld R.ciphKeyCtl F.ciphKeyCtl_op = op →
      ∃ t : State, exec .keyOpDone s = .next t ∧ t.fld R.ciphKeyCtl F.ciphKeyCtl_op = 0 ∧ t.fld R.ciphKeyCtl F.ciphKeyCtl_slot = n ∧
        (op = 1 → (s.slot n).pend.st = 2 → t.fld R.ciphKeyCtl F.ciphKeyCtl_status = 2 ∧ t.ciph = s.ciph) ∧
        (op = 1 → (s.slot n).pend.st ≠ 2 → t.fld R.ciphKeyCtl F.ciphKeyCtl_status = 0 ∧ (t.slot n).pend.st = 1 ∧
          (t.slot n).pend.key = s.keyData ∧
          (t.slot n).act = (s.slot n).act ∧ (∀ i, i < 4 → t.reg (R.ciphKeyData i) = 0)) ∧
        (op = 2 → (s.slot n).pend.st ≠ 1 → t.fld R.ciphKeyCtl F.ciphKeyCtl_status = 3 ∧ t.ciph = s.ciph) ∧
        (op = 2 → (s.slot n).pend.st = 1 → t.fld R.ciphKeyCtl F.ciphKeyCtl_status = 0 ∧ (t.slot n).act = (s.slot n).pend ∧
          ((s.slot n).act.st = 1 →
            (t.slot n).pend = (if s.halfUsers n (s.slot n).act = 0 then {} else { (s.slot n).act with st := 2 }))) ∧
        (op = 3 → t.fld R.ciphKeyCtl F.ciphKeyCtl_status = 0 ∧
          (∀ h, h = (s.slot n).act → h.st = 1 → (t.slot n).act = (if s.halfUsers n h = 0 then {} else { h with st := 2 })) ∧
          (∀ h, h = (s.slot n).pend → h.st = 1 → (t.slot n).pend = (if s.halfUsers n h = 0 then {} else { h with st := 2 }))) ∧
        (∀ m, m ≠ n → t.slot m = s.slot m) ∧ memKept s t ∧
          regsKept s t [R.ciphKeyCtl, R.ciphKeyData 0, R.ciphKeyData 1, R.ciphKeyData 2, R.ciphKeyData 3]) ∧
    (s.fld R.ciphSaCmd F.ciphSaCmd_status ≠ 1 → exec .saCmdDone s = .next s) ∧
    (∀ tb i op : Nat, s.fld R.ciphSaCmd F.ciphSaCmd_status = 1 → s.fld R.ciphSaCmd F.ciphSaCmd_table = tb →
      s.fld R.ciphSaCmd F.ciphSaCmd_index = i →
      s.fld R.ciphSaCmd F.ciphSaCmd_op = op →
      (saSize tb ≤ i → ∃ t : State, exec .saCmdDone s = .next t ∧ t.fld R.ciphSaCmd F.ciphSaCmd_status = 2 ∧ t.ciph = s.ciph ∧
        memKept s t ∧ unitsKept s t [0x95]) ∧
      (i < saSize tb → op = 0 → ∃ t : State, exec .saCmdDone s = .next t ∧ t.fld R.ciphSaCmd F.ciphSaCmd_status = 0 ∧
        (∀ w, w < 4 → (t.reg (R.ciphSaData w)).toNat = saWord (s.sa tb i) w) ∧ t.ciph = s.ciph ∧ memKept s t ∧ unitsKept s t [0x95]) ∧
      (i < saSize tb → op = 1 →
        (tb = 0 → bitOf (s.reg (R.ciphSaData 0)).toNat 63 = true →
          (s.fld (R.cliCfg i) F.cliCfg_mode < 1 ∨ 9 < s.fld (R.cliCfg i) F.cliCfg_mode) →
          ∃ t : State, exec .saCmdDone s = .next t ∧ t.fld R.ciphSaCmd F.ciphSaCmd_status = 4 ∧ t.ciph = s.ciph ∧ memKept s t ∧
            unitsKept s t [0x95]) ∧
        ((tb ≠ 0 ∨ bitOf (s.reg (R.ciphSaData 0)).toNat 63 = false ∨
          (1 ≤ s.fld (R.cliCfg i) F.cliCfg_mode ∧ s.fld (R.cliCfg i) F.cliCfg_mode ≤ 9)) →
          ∃ t : State, exec .saCmdDone s = .next t ∧ t.fld R.ciphSaCmd F.ciphSaCmd_status = 0 ∧
            (∀ w, w < 4 → saWord (t.sa tb i) w = (s.reg (R.ciphSaData w)).toNat &&& saMask tb w) ∧
            (∀ tc j, j < 4096 → tc < 4 → (tc ≠ tb ∨ j ≠ i) → t.sa tc j = s.sa tc j) ∧ memKept s t ∧ unitsKept s t [0x95])))

/-- An armed alarm whose target is reached fires its node with the target's frame: a one-shot alarm is then disarmed, a periodic one
moves by its period. A raised event fires the node its source is bound to, merges with a firing of that node that waits, or is
counted where nothing is bound. The first ready firing by priority that has a place is dispatched there. A lone ready firing of a
node takes the first free context of the one core that runs its section: g1 holds the trigger word, g2 to g5 the first four tokens
of a TOKENS node, g6 the node, every other register zero, the pc the entry. With every context of that core running a clause of
lower priority, the clause of the lowest priority dispatched last moves to the swap buffer. With LIM0 down or nothing to do, the
state stays.
Where it rests on the model's own reading or choice, that is log entries 2, 94, 98, 99 and 163. -/
def Obligations.AlarmsEventsAndDispatch : Prop :=
  ∀ (s : State),
    (∀ i : Fin 4096, (s.clusterUp 0 = false ∨ alarmValid (s.alarm i) = false ∨ s.lpValid = false ∨
      s.lpPassed (alarmFrame (s.alarm i)) (alarmCell (s.alarm i)) = false) →
      exec (.alarmDue i) s = .next s) ∧
    (∀ i : Fin 4096, s.clusterUp 0 = true → s.lpValid = true → alarmValid (s.alarm i) = true →
      s.lpPassed (alarmFrame (s.alarm i)) (alarmCell (s.alarm i)) = true →
      ∃ t : State, exec (.alarmDue i) s = .next t ∧ alarmValid (t.alarm i) = (alarmPeriod (s.alarm i) != 0) ∧ i.val ∉ t.lsch.dueLate ∧
        (i.val ∈ s.lsch.dueLate → counted s t (R.lschCount 4) F.lschCount_count) ∧ (∀ j, j ≠ i.val → t.alarm j = s.alarm j) ∧
          memKept s t) ∧
    (∀ (i : Fin 4096) (n : Nat), s.clusterUp 0 = true → s.lpValid = true → alarmValid (s.alarm i) = true →
      s.lpPassed (alarmFrame (s.alarm i)) (alarmCell (s.alarm i)) = true → i.val ∉ s.lsch.dueLate → alarmNode (s.alarm i) = n →
        (s.gnode n).valid = true →
      (s.gnode n).trig = 1 → s.firings n = [] →
      ∃ t : State, exec (.alarmDue i) s = .next t ∧
        t.lsch.ready = s.lsch.ready ++ [⟨false, n, (s.gnode n).prio, (s.gnode n).subject, 1, false, alarmFrame (s.alarm i)⟩] ∧
        alarmValid (t.alarm i) = (alarmPeriod (s.alarm i) != 0) ∧
        (alarmPeriod (s.alarm i) ≠ 0 → alarmFrame (t.alarm i) = (alarmFrame (s.alarm i) + alarmPeriod (s.alarm i)) % 2 ^ 48 ∧
          alarmCell (t.alarm i) = alarmCell (s.alarm i) ∧ alarmNode (t.alarm i) = n) ∧
        (∀ j, j ≠ i.val → t.alarm j = s.alarm j) ∧ memKept s t ∧ regsKept s t []) ∧
    (∀ src : Nat, (s.clusterUp 0 = false ∨ src ∉ s.edges) → exec (.eventRaise src) s = .next s) ∧
    (∀ (src : Nat) (a b : List Nat), s.clusterUp 0 = true → s.edges = a ++ src :: b → src ∉ a →
      (∃ t : State, exec (.eventRaise src) s = .next t ∧ t.edges = a ++ b ∧ memKept s t) ∧
      (s.binding src = none → ∃ t : State, exec (.eventRaise src) s = .next t ∧ t.edges = a ++ b ∧ t.lsch = s.lsch ∧
        counted s t (R.lschCount 9) F.lschCount_count ∧
        memKept s t ∧ regsKept s t [R.lschCount 9]) ∧
      (∀ n, s.binding src = some n → (s.gnode n).valid = true → (s.gnode n).trig = 2 →
        (s.firings n = [] → ∃ t : State, exec (.eventRaise src) s = .next t ∧ t.edges = a ++ b ∧
          t.lsch.ready = s.lsch.ready ++ [⟨false, n, (s.gnode n).prio, (s.gnode n).subject, 2, false, src⟩] ∧ memKept s t ∧
            regsKept s t []) ∧
        (s.firings n ≠ [] → ∃ t : State, exec (.eventRaise src) s = .next t ∧ t.edges = a ++ b ∧ t.lsch = s.lsch ∧
          counted s t (R.lschCount 2) F.lschCount_count ∧
          memKept s t ∧ regsKept s t [R.lschCount 2]))) ∧
    ((s.clusterUp 0 = false ∨ s.lsch.ready = []) → exec .clauseDispatch s = .next s) ∧
    (∀ (f : Firing) (c x : Nat) (ev : Bool), s.clusterUp 0 = true →
      (byPrio s.lsch.ready).find? (fun f => (s.placeFor f).isSome) = some f →
      s.placeFor f = some (c, x, ev) → (f.block = true → (s.blockAt f.node).isSome = true) →
      ∃ t cl, exec .clauseDispatch s = .next t ∧ t.lsch.ready = s.lsch.ready.erase f ∧ (t.ctx c x).clause = some cl ∧ cl.node = f.node ∧
        cl.block = f.block ∧
        cl.prio = f.prio ∧ cl.core = c ∧ cl.place = x ∧ (t.ctx c x).wait = none ∧ (∀ d y, (d ≠ c ∨ y ≠ x) → t.ctx d y = s.ctx d y) ∧
        counted s t (R.lschCount 0) F.lschCount_count ∧ memKept s t) ∧
    (∀ (f : Firing) (c : CoreId) (n : GNode), s.clusterUp 0 = true → s.lsch.ready = [f] → f.block = false → f.prio < 8 → f.subject = 0 →
      s.gnode f.node = n →
      s.coreTakes n.sec c = true → (∀ d : CoreId, d ≠ c → s.coreTakes n.sec d = false) → s.evicted c = [] →
      (∀ x : Nat, x < 4 → (s.ctx c x).clause = none → (∀ y, y < x → (s.ctx c y).clause ≠ none) →
        ∃ t cl, exec .clauseDispatch s = .next t ∧ t.lsch.ready = [] ∧ (t.ctx c x).clause = some cl ∧ cl.node = f.node ∧
          cl.prio = f.prio ∧
          cl.bank = (s.core c).active ∧ cl.core = c.val ∧ cl.place = x ∧ cl.latches = [] ∧ (t.ctx c x).pc = BitVec.ofNat 17 n.entry ∧
            (t.ctx c x).wait = none ∧
          (t.ctx c x).gr 1 = BitVec.ofNat 64 (f.kind * 2 ^ 62 + b2n f.late * 2 ^ 61 + (if f.kind = 0 then 0 else f.info) % 2 ^ 48) ∧
          (∀ k : Nat, k < 4 →
            (t.ctx c x).gr (BitVec.ofNat 5 (2 + k)) = (if n.trig = 0 then (n.tokens.take (min 4 n.need)).getD k 0 else 0)) ∧
          (t.ctx c x).gr 6 = BitVec.ofNat 64 f.node ∧ (∀ r : BitVec 5, 7 ≤ r.toNat → (t.ctx c x).gr r = 0) ∧
          (t.gnode f.node).tokens = (if n.trig = 0 then n.tokens.drop n.need else n.tokens) ∧ (∀ y, y ≠ x → t.ctx c y = s.ctx c y) ∧
          counted s t (R.lschCount 0) F.lschCount_count ∧ memKept s t ∧ unitsKept s t [0x9A, 0xA0 + c.val]) ∧
      ((∀ x : Nat, x < 4 → ∃ cl, (s.ctx c x).clause = some cl ∧ f.prio < cl.prio ∧ (s.ctx c x).wait = none) →
        (s.core c).swapBuf = none →
        s.saveLevel (c.val / 32) < 256 →
        ∃ t x v cl, exec .clauseDispatch s = .next t ∧ x < 4 ∧ (s.ctx c x).clause = some v ∧ (t.core c).swapBuf = some (s.ctx c x) ∧
          (∀ y w, y < 4 → (s.ctx c y).clause = some w → w.prio < v.prio ∨ (w.prio = v.prio ∧ w.uid ≤ v.uid)) ∧
          (t.ctx c x).clause = some cl ∧ cl.node = f.node ∧ (∀ y, y ≠ x → t.ctx c y = s.ctx c y) ∧
            counted s t (R.lschCount 1) F.lschCount_count ∧
          memKept s t ∧ unitsKept s t [0x9A, 0xA0 + c.val]))

/-- A swap buffer drains to the save store; an evicted clause, of a core's the one of the highest priority and the oldest, resumes in
the first free context with no firing of a higher priority able to go there. A clause past RUN_LIMIT, with nothing in flight, ends
FAULTED: its context is freed, its latches are released BROKEN, its end is counted and a class U fault of LIM is signalled; with
RUN_LIMIT 0 nothing happens. A free latch goes to the waiter of the highest priority that waited first, whose ACQ then answers 0, or
1 where the latch is BROKEN. Of two clauses that wait for each other's latches, the one whose acquisition is the younger is answered
2 and no longer waits. A due command block, none of a higher priority or earlier of equal priority waiting, becomes ready and fires,
or is completed REFUSED and leaves the store where no core runs its section; one that is not due stays.
Where it rests on the model's own reading or choice, that is log entries 100, 101 and 103. -/
def Obligations.ClausesResumeWaitAndFail : Prop :=
  ∀ (s : State),
    (∀ c : CoreId, (s.core c).swapBuf = none → exec (.swapBufferDrain c) s = .next s) ∧
    (∀ (c : CoreId) (x : Ctx), (s.core c).swapBuf = some x → ∃ t : State, exec (.swapBufferDrain c) s = .next t ∧
      (t.core c).swapBuf = none ∧
      t.lsch.saved = s.lsch.saved ++ [(c.val, x)] ∧ (t.core c).ctxs = (s.core c).ctxs ∧ memKept s t ∧ regsKept s t []) ∧
    (∀ (c : CoreId) (e : Ctx) (x : Nat) (a b : List (Nat × Ctx)), s.lsch.saved = a ++ (c.val, e) :: b → e.prio ≤ 8 →
      (∀ o ∈ a, o.1 = c.val → e.prio < o.2.prio) → (∀ o ∈ b, o.1 = c.val → e.prio ≤ o.2.prio) →
      (∀ f ∈ s.lsch.ready, f.prio < e.prio → c.val ∉ s.coresOf (s.firingSec f) ∨ s.placeFor f = none) →
      s.clusterUp (c.val / 32) = true → (s.freeCtxs c).head? = some x →
      ∃ t : State, exec (.clauseResume c) s = .next t ∧ t.lsch.saved = a ++ b ∧
        t.ctx c x = { e with clause := e.clause.map (fun cl => { cl with place := x }) } ∧ (∀ y, y ≠ x → t.ctx c y = s.ctx c y) ∧
          memKept s t ∧ regsKept s t []) ∧
    (∀ (c : CoreId) (x : CtxId), (s.fld R.lschCfg F.lschCfg_runLimit = 0 ∨ (s.ctx c x).clause = none) →
      exec (.runLimit c x) s = .next s) ∧
    (∀ (c : CoreId) (x : CtxId) (cl : Clause), s.fld R.lschCfg F.lschCfg_runLimit ≠ 0 → (s.ctx c x).clause = some cl →
      ((s.ctx c x).wait = none ∨ (s.ctx c x).atLatch = true) → (s.ctx c x).refused = none → (∀ w ∈ (s.core c).posted, w.uid ≠ cl.uid) →
      ∃ t : State, exec (.runLimit c x) s = .next t ∧ t.ctx c x = {} ∧ t.wires = s.wires ++ [(Src.lim, 1, Exc.runLimit)] ∧
        (∀ n ∈ cl.latches, t.lbank n = ⟨none, true⟩) ∧ (∀ n, n ∉ cl.latches → t.lbank n = s.lbank n) ∧
          counted s t (R.lschCount 8) F.lschCount_count ∧
        memKept s t ∧ ((s.ctx c x).objects = [] → cl.block = false → cl.core = c.val → s.lsch.bindings = [] →
          unitsKept s t [0x04, 0x9A, 0x9B, 0xA0 + c.val])) ∧
    (∀ n : Fin 1024, (s.clusterUp 0 = false ∨ (s.lbank n).holder.isSome = true ∨ (∀ w ∈ s.lsch.waits, w.2 ≠ n.val)) →
      exec (.latchGrant n) s = .next s) ∧
    (∀ (n : Fin 1024) (u : Nat) (a b : List (Nat × Nat)) (cl k : Clause) (rd : BitVec 5), s.clusterUp 0 = true →
      (s.lbank n).holder = none →
      s.lsch.waits = a ++ (u, n.val) :: b → s.clauseOf u = some cl → cl.prio < 8 →
      (∀ w ∈ a, w.2 = n.val → ∀ k, s.clauseOf w.1 = some k → cl.prio < k.prio) →
        (∀ w ∈ b, w.2 = n.val → ∀ k, s.clauseOf w.1 = some k → cl.prio ≤ k.prio) →
      (s.ctx cl.core cl.place).clause = some k → k.uid = u → (s.ctx cl.core cl.place).wait = some (.latch rd.toNat n.val) →
      ∃ t : State, exec (.latchGrant n) s = .next t ∧ (t.lbank n).holder = some u ∧ (t.lbank n).broken = (s.lbank n).broken ∧
        (∀ w, w ∈ t.lsch.waits ↔ w ∈ s.lsch.waits ∧ w.1 ≠ u) ∧ (t.ctx cl.core cl.place).wait = none ∧
        (rd ≠ 0 → (t.ctx cl.core cl.place).gr rd = (if (s.lbank n).broken then 1 else 0)) ∧
        (t.ctx cl.core cl.place).pc = (s.ctx cl.core cl.place).pc + 1 ∧ (∀ m, m ≠ n.val → t.lbank m = s.lbank m) ∧ memKept s t ∧
          regsKept s t []) ∧
    (s.lsch.waits = [] → s.lsch.saved = [] → exec .deadlockDetect s = .next s) ∧
    (∀ (us dead : List Nat) (u n : Nat) (cl : Clause) (rd : BitVec 5), us = s.clauses.map (·.uid) → dead = s.stuck us.length us →
      (s.lsch.waits.filter (fun w => dead.contains w.1 && (s.reach dead dead.length (s.waitsFor w.1)).contains w.1)).getLast? = some (u,
        n) →
      s.clauseOf u = some cl → (s.ctx cl.core cl.place).wait = some (.latch rd.toNat n) →
      ∃ t : State, exec .deadlockDetect s = .next t ∧ t.lsch.waits = s.lsch.waits.filter (fun w => w.1 != u) ∧
        (t.ctx cl.core cl.place).wait = none ∧
        (rd ≠ 0 → (t.ctx cl.core cl.place).gr rd = 2) ∧ (t.ctx cl.core cl.place).pc = (s.ctx cl.core cl.place).pc + 1 ∧
        counted s t R.latchCounts F.latchCounts_deadlocks ∧ t.lsch.latches = s.lsch.latches ∧ memKept s t ∧
          regsKept s t [R.latchCounts]) ∧
    (∀ (u v m n : Nat) (cl k : Clause) (rd : BitVec 5), u ≠ v → s.lsch.waits = [(u, m), (v, n)] → (s.lbank m).holder = some v →
      (s.lbank n).holder = some u →
      s.lsch.saved = [] → (s.clauseOf u).isSome = true → s.clauseOf v = some cl → (s.ctx cl.core cl.place).clause = some k →
      (s.ctx cl.core cl.place).wait = some (.latch rd.toNat n) →
      ∃ t : State, exec .deadlockDetect s = .next t ∧ t.lsch.waits = [(u, m)] ∧ (t.ctx cl.core cl.place).wait = none ∧
        (rd ≠ 0 → (t.ctx cl.core cl.place).gr rd = 2) ∧ (t.ctx cl.core cl.place).pc = (s.ctx cl.core cl.place).pc + 1 ∧
        counted s t R.latchCounts F.latchCounts_deadlocks ∧ t.lsch.latches = s.lsch.latches ∧ memKept s t ∧
          regsKept s t [R.latchCounts]) ∧
    (∀ (n : Fin 256) (b : CmdBlock), s.blockAt n = some b → b.ready = false → s.clusterUp 0 = true →
      (b.immediate = false → (s.lpValid = false ∨ s.lpPassed b.frame b.cell = false) → exec (.cbReady n) s = .next s) ∧
      ((b.immediate = true ∨ (s.lpValid = true ∧ s.lpPassed b.frame b.cell = true)) →
        (∀ d ∈ s.lsch.store, d.ready = true ∨ b.prio < d.prio ∨ (d.prio = b.prio ∧ b.order ≤ d.order)) →
        (s.coresOf b.sec = [] → ∃ t w, exec (.cbReady n) s = .next t ∧ t.lsch.store = s.lsch.store.filter (fun d => d.slot != n.val) ∧
          t.lsch.cpl = s.lsch.cpl ++ [w] ∧ bitsOf (w.getD 0 0).toNat 31 28 = 3 ∧ bitsOf (w.getD 0 0).toNat 63 32 = b.seq % 2 ^ 32 ∧
            t.lsch.ready = s.lsch.ready ∧
          counted s t (R.lschCount 13) F.lschCount_count ∧ memKept s t ∧ regsKept s t [R.lschCount 13]) ∧
        (s.coresOf b.sec ≠ [] → ∃ t : State, exec (.cbReady n) s = .next t ∧
          t.lsch.store = s.lsch.store.map (fun (d : CmdBlock) => if d.slot = n.val then { d with ready := true } else d) ∧
          t.lsch.ready = s.lsch.ready ++ [⟨true, n.val, b.prio, b.subject, 3, b.late, b.seq⟩] ∧ memKept s t ∧ regsKept s t [])))

/-- LSCH_CMD_DONE answers a READ of a node with its word and runtime, takes a WRITE of a node with VALID = 0 at any time with its tokens
dropped and counted, refuses TRIG 3 with status 5 and a busy node with 4, replaces an idle node, an alarm or a binding, and answers
2 past the end of a table. LOAD starts the loader, which ends NO_AREA, BAD_IMAGE with its cause or BANK_BUSY, loading nothing, or
DONE with its image, each with an event to the host; a reload goes on with the next cluster. ARM is refused without a loaded image
on the standby banks, else arms a swap, which takes place at once with LATE where the target has passed; CANCEL disarms; at the
target every loaded core of the image makes its standby bank active and the swap counts. A program area that would take cells in
use, or leave the downstream region less than 4 GiB, is refused with AREA_REFUSED, and any other is taken.
Where it rests on the model's own reading or choice, that is log entries 67 and 104. -/
def Obligations.LschTablesLoaderAndSwaps : Prop :=
  ∀ (s : State) (v : Word),
    ((s.fld R.lschCmd F.lschCmd_status ≠ 1 ∨ s.clusterUp 0 = false) → exec .lschCmdDone s = .next s) ∧
    (∀ tb i op : Nat, ∀ d : BitVec 64, s.fld R.lschCmd F.lschCmd_status = 1 → s.clusterUp 0 = true →
      s.fld R.lschCmd F.lschCmd_table = tb →
      s.fld R.lschCmd F.lschCmd_index = i → s.fld R.lschCmd F.lschCmd_op = op → s.reg R.lschData0 = d →
      (∃ t : State, exec .lschCmdDone s = .next t ∧ t.fld R.lschCmd F.lschCmd_status ≠ 1 ∧ memKept s t ∧ unitsKept s t [0x9A]) ∧
      (lschSize tb ≤ i → ∃ t : State, exec .lschCmdDone s = .next t ∧ t.fld R.lschCmd F.lschCmd_status = 2 ∧ t.lsch = s.lsch ∧
        memKept s t ∧ unitsKept s t [0x9A]) ∧
      (tb = 0 → op = 0 → ∃ t : State, exec .lschCmdDone s = .next t ∧ t.fld R.lschCmd F.lschCmd_status = 0 ∧
        t.reg R.lschData0 = (s.gnode i).cfg ∧
        bitsOf (t.reg R.lschData1).toNat 63 60 = (s.gnode i).tokens.length % 16 ∧
          bitOf (t.reg R.lschData1).toNat 59 = !(s.firings i).isEmpty ∧
        bitOf (t.reg R.lschData1).toNat 58 = s.nodeServing i ∧ t.lsch = s.lsch ∧ memKept s t ∧ unitsKept s t [0x9A]) ∧
      (tb = 0 → op = 1 → bitOf d.toNat 63 = false → ∃ t : State, exec .lschCmdDone s = .next t ∧ t.fld R.lschCmd F.lschCmd_status = 0 ∧
        (t.gnode i).valid = false ∧
        (t.gnode i).tokens = [] ∧ t.firings i = [] ∧ counted s t (R.lschCount 6) F.lschCount_count (s.gnode i).tokens.length ∧
        counted s t (R.lschCount 7) F.lschCount_count (s.firings i).length ∧ (∀ j, j ≠ i → t.gnode j = s.gnode j) ∧ memKept s t ∧
          unitsKept s t [0x9A]) ∧
      (tb = 0 → op = 1 → bitOf d.toNat 63 = true → bitsOf d.toNat 62 61 = 3 →
        ∃ t : State, exec .lschCmdDone s = .next t ∧ t.fld R.lschCmd F.lschCmd_status = 5 ∧ t.lsch = s.lsch ∧ memKept s t ∧
          unitsKept s t [0x9A]) ∧
      (tb = 0 → op = 1 → bitOf d.toNat 63 = true → bitsOf d.toNat 62 61 ≠ 3 →
        (((s.gnode i).tokens ≠ [] ∨ s.firings i ≠ [] ∨ s.nodeServing i = true) →
          ∃ t : State, exec .lschCmdDone s = .next t ∧ t.fld R.lschCmd F.lschCmd_status = 4 ∧ t.lsch = s.lsch ∧ memKept s t ∧
            unitsKept s t [0x9A]) ∧
        ((s.gnode i).tokens = [] → s.firings i = [] → s.nodeServing i = false →
          ∃ t : State, exec .lschCmdDone s = .next t ∧ t.fld R.lschCmd F.lschCmd_status = 0 ∧
            bitsOf (t.gnode i).cfg.toNat 63 6 = bitsOf d.toNat 63 6 ∧
            bitsOf (t.gnode i).cfg.toNat 5 0 = 0 ∧ (∀ j, j ≠ i → t.gnode j = s.gnode j) ∧ memKept s t ∧ unitsKept s t [0x9A])) ∧
      (tb = 1 → op = 1 → i < 4096 → ∃ t : State, exec .lschCmdDone s = .next t ∧ t.fld R.lschCmd F.lschCmd_status = 0 ∧
        alarmValid (t.alarm i) = bitOf d.toNat 63 ∧
        alarmNode (t.alarm i) = bitsOf d.toNat 61 46 ∧
          alarmFrame (t.alarm i) = bitsOf d.toNat 45 0 * 4 + bitsOf (s.reg R.lschData1).toNat 63 62 ∧
        alarmCell (t.alarm i) = bitsOf (s.reg R.lschData1).toNat 61 41 ∧
          alarmPeriod (t.alarm i) = bitsOf (s.reg R.lschData1).toNat 40 25 ∧
        alarmMissed (t.alarm i) = alarmMissed (s.alarm i) ∧ (∀ j, j ≠ i → t.alarm j = s.alarm j) ∧ memKept s t ∧ unitsKept s t [0x9A]) ∧
      (tb = 2 → op = 1 → i < 16384 → ∃ t : State, exec .lschCmdDone s = .next t ∧ t.fld R.lschCmd F.lschCmd_status = 0 ∧
        t.binding i = (if bitOf d.toNat 63 then some (bitsOf d.toNat 62 47) else none) ∧ (∀ j, j ≠ i → t.binding j = s.binding j) ∧
          memKept s t ∧
        unitsKept s t [0x9A])) ∧
    (s.lsch.loading = false → s.clusterUp 0 = true → ∃ t : State, exec (.lschLoad v) s = .next t ∧ t.lsch.loading = true ∧
      t.fld R.lschLoadCtl F.lschLoadCtl_status = 1 ∧ t.fld R.lschLoadCtl F.lschLoadCtl_cause = 0 ∧ memKept s t ∧
        regsKept s t [R.lschLoadCtl]) ∧
    ((s.lsch.loading = true ∨ s.clusterUp 0 = false) → exec (.lschLoad v) s = .next s) ∧
    (s.lsch.loading = true → s.clusterUp 0 = true →
      ∃ t : State, exec .loadDone s = .next t ∧ t.lsch.loading = false ∧ t.fld R.lschLoadCtl F.lschLoadCtl_status ≠ 1 ∧
        t.bit R.gateEvent ⟨4, 4⟩ = true ∧
        (s.imgInArea = true → s.imgCheck s.imgCell = 0 → (∀ c : CoreId, s.bankUsers c (1 - (s.core c).active) = 0) →
          t.fld R.lschLoadCtl F.lschLoadCtl_status = 0 ∧
          t.lsch.image = some ⟨BitVec.ofNat 64 (beNat (s.readBytes (s.imgCell + 8) 8)), s.imgMasks s.imgCell⟩)) ∧
    (∀ (k : Nat) (l : List Nat), s.lsch.loading = false → s.clusterUp 0 = true → s.lsch.reload = k :: l →
      ∃ t : State, exec .loadDone s = .next t ∧ t.lsch.reload = l ∧ t.lsch.image = s.lsch.image ∧ regsKept s t []) ∧
    (s.lsch.loading = true → s.clusterUp 0 = true → ∀ st cause : Nat,
      (st = 4 ∧ cause = 0 ∧ s.fld R.lschHbmArea F.lschHbmArea_gib = 0) ∨
        (st = 2 ∧ cause = 1 ∧ s.imgInArea = true ∧ beNat (s.readBytes s.imgCell 4) ≠ 0x4B5A4C54) ∨
        (st = 2 ∧ cause ≠ 0 ∧ s.imgInArea = true ∧ s.imgCheck s.imgCell = cause) ∨
        (st = 3 ∧ cause = 0 ∧ s.imgInArea = true ∧ s.imgCheck s.imgCell = 0 ∧
          ∃ c : CoreId, 0 < s.bankUsers c (1 - (s.core c).active) ∧ ∃ w ∈ s.imgMasks s.imgCell, bitOf w.toNat c.val = true) →
      ∃ t : State, exec .loadDone s = .next t ∧ t.fld R.lschLoadCtl F.lschLoadCtl_status = st ∧
        t.fld R.lschLoadCtl F.lschLoadCtl_cause = cause ∧
        t.lsch.loading = false ∧ t.lsch.cores = s.lsch.cores ∧ t.bit R.gateEvent ⟨4, 4⟩ = true ∧ memKept s t ∧
          unitsKept s t [0x9A, 0x00]) ∧
    (s.swapReady = none →
      ∃ t : State, exec (.swapArm v) s = .next t ∧ t.bit R.lschSwapCtl F.lschSwapCtl_refused = true ∧
        t.bit R.lschSwapCtl F.lschSwapCtl_armed = s.bit R.lschSwapCtl F.lschSwapCtl_armed ∧ t.lsch = s.lsch ∧ memKept s t ∧
          regsKept s t [R.lschSwapCtl]) ∧
    (∀ g : Nat, s.swapReady.isSome = true → g = min 1062499 (bitsOf v.toNat 52 32) →
      ((s.lpValid = false ∨ s.lpPassed (s.fld R.lschSwapF F.lschSwapF_f) g = false) →
        ∃ t : State, exec (.swapArm v) s = .next t ∧ t.bit R.lschSwapCtl F.lschSwapCtl_armed = true ∧
          t.fld R.lschSwapCtl F.lschSwapCtl_cell = bitsOf v.toNat 52 32 ∧
          t.lsch = s.lsch ∧ memKept s t ∧ regsKept s t [R.lschSwapCtl]) ∧
      (s.lpValid = true → s.lpPassed (s.fld R.lschSwapF F.lschSwapF_f) g = true →
        ∃ t : State, exec (.swapArm v) s = .next t ∧ t.bit R.lschSwapCtl F.lschSwapCtl_armed = false ∧
          t.bit R.lschSwapCtl F.lschSwapCtl_late = true ∧
          counted s t (R.lschCount 14) F.lschCount_count ∧ memKept s t)) ∧
    (∃ t : State, exec .swapCancel s = .next t ∧ t.bit R.lschSwapCtl F.lschSwapCtl_armed = false ∧
      t.fld R.lschSwapCtl F.lschSwapCtl_cell = s.fld R.lschSwapCtl F.lschSwapCtl_cell ∧ t.lsch = s.lsch ∧ memKept s t ∧
        regsKept s t [R.lschSwapCtl]) ∧
    (s.bit R.lschSwapCtl F.lschSwapCtl_armed = false → exec .swapTarget s = .next s) ∧
    (∀ img : Image, s.bit R.lschSwapCtl F.lschSwapCtl_armed = true → s.lpValid = true → s.lsch.image = some img →
      s.lpPassed (s.fld R.lschSwapF F.lschSwapF_f) (min 1062499 (s.fld R.lschSwapCtl F.lschSwapCtl_cell)) = true →
      ∃ t : State, exec .swapTarget s = .next t ∧
        (∀ c ∈ img.cores, (s.core c).standbyLoaded = true → (t.core c).active = 1 - (s.core c).active ∧ (t.core c).activeLoaded = true ∧
          (t.core c).standbyLoaded = false ∧ (t.core c).ctxs = (s.core c).ctxs) ∧
            (∀ c, (c ∉ img.cores ∨ (s.core c).standbyLoaded = false) → t.core c = s.core c) ∧
        t.bit R.lschSwapCtl F.lschSwapCtl_armed = false ∧ counted s t (R.lschCount 14) F.lschCount_count ∧
        (s.preura.swaps.length < 4 → ∃ w, t.preura.swaps = s.preura.swaps ++ [w] ∧ w.head? = some img.ident) ∧ memKept s t ∧
          unitsKept s t [0x9A, 0x9D]) ∧
    (∀ g up : Nat, g = min 8 (v.toNat % 16) → up = s.fld R.qmHbmCfg F.qmHbmCfg_upGib →
      ((s.hbmGib < up + g + 4 ∨ (s.hbmGib - up - g) * cellsPerGib < s.hbmUsed .dn) →
        ∃ t : State, exec (.hbmAreaWrite v) s = .next t ∧ t.bit R.lschStatus F.lschStatus_areaRefused = true ∧
          t.fld R.lschHbmArea F.lschHbmArea_gib = s.fld R.lschHbmArea F.lschHbmArea_gib ∧ memKept s t ∧ regsKept s t [R.lschStatus]) ∧
      (up + g + 4 ≤ s.hbmGib → s.hbmUsed .dn ≤ (s.hbmGib - up - g) * cellsPerGib →
        ∃ t : State, exec (.hbmAreaWrite v) s = .next t ∧ t.areaGib = g ∧ memKept s t ∧ regsKept s t [R.lschHbmArea]))

/-- For every register, immediate and bit-field operation: a context that stands at it, the one its core issues from, writes the result
to rd (nothing where rd is g0, which reads zero), keeps every other register, its handles, every other context, all memory and every
register outside its core's unit, and goes on to the next instruction.
Where it rests on the model's own reading or choice, that is log entries 93 and 94. -/
def Obligations.LimArithmeticAndFields : Prop :=
  ∀ (s : State) (c : CoreId) (x : CtxId) (cl : Clause) (rd ra rb : GReg) (imm : BitVec 14) (amt lo len : BitVec 6) (a b d : BitVec 64),
    (s.ctx c x).gr ra = a → (s.ctx c x).gr rb = b → (s.ctx c x).gr rd = d →
    (∀ e ∈ [(Instr.add c x rd ra rb, LimInstr.add rd ra rb, a + b), (.sub c x rd ra rb, .sub rd ra rb, a - b),
        (.and c x rd ra rb, .and rd ra rb, a &&& b), (.or c x rd ra rb, .or rd ra rb, a ||| b),
          (.xor c x rd ra rb, .xor rd ra rb, a ^^^ b),
        (.shl c x rd ra rb, .shl rd ra rb, a <<< (b.toNat % 64)), (.shr c x rd ra rb, .shr rd ra rb, a >>> (b.toNat % 64)),
        (.sar c x rd ra rb, .sar rd ra rb, a.sshiftRight (b.toNat % 64)), (.mul c x rd ra rb, .mul rd ra rb, a * b),
        (.mulhu c x rd ra rb, .mulhu rd ra rb, BitVec.ofNat 64 (a.toNat * b.toNat / 2 ^ 64)),
        (.slt c x rd ra rb, .slt rd ra rb, if a.toInt < b.toInt then 1 else 0),
          (.sltu c x rd ra rb, .sltu rd ra rb, if a.toNat < b.toNat then 1 else 0),
        (.seq c x rd ra rb, .seq rd ra rb, if a = b then 1 else 0),
        (.addi c x rd ra imm, .addi rd ra imm, a + imm.signExtend 64), (.subi c x rd ra imm, .subi rd ra imm, a - imm.signExtend 64),
        (.andi c x rd ra imm, .andi rd ra imm, a &&& imm.setWidth 64), (.ori c x rd ra imm, .ori rd ra imm, a ||| imm.setWidth 64),
        (.xori c x rd ra imm, .xori rd ra imm, a ^^^ imm.setWidth 64), (.shli c x rd ra amt, .shli rd ra amt, a <<< amt.toNat),
        (.shri c x rd ra amt, .shri rd ra amt, a >>> amt.toNat), (.sari c x rd ra amt, .sari rd ra amt, a.sshiftRight amt.toNat),
        (.slti c x rd ra imm, .slti rd ra imm, if a.toInt < imm.toInt then 1 else 0),
          (.sltui c x rd ra imm, .sltui rd ra imm, if a.toNat < imm.toNat then 1 else 0),
        (.seqi c x rd ra imm, .seqi rd ra imm, if a = imm.signExtend 64 then 1 else 0),
          (.shori c x rd ra imm, .shori rd ra imm, (a <<< 14) ||| imm.setWidth 64)],
      s.standsAt c x cl e.2.1 → limPuts s e.1 c x rd e.2.2) ∧
    (s.standsAt c x cl (.ext rd ra lo len) →
      limPuts s (.ext c x rd ra lo len) c x rd (BitVec.ofNat 64 (a.toNat / 2 ^ lo.toNat % 2 ^ (len.toNat + 1)))) ∧
    (s.standsAt c x cl (.exts rd ra lo len) →
      limPuts s (.exts c x rd ra lo len) c x rd (BitVec.ofInt 64 (sext (len.toNat + 1) (a.toNat / 2 ^ lo.toNat % 2 ^ (len.toNat + 1))))) ∧
    (s.standsAt c x cl (.ins rd ra lo len) → lo.toNat + len.toNat < 64 →
      ∃ v, limPuts s (.ins c x rd ra lo len) c x rd v ∧ ∀ i, i < 64 →
        v.getLsbD i = (if lo.toNat ≤ i ∧ i ≤ lo.toNat + len.toNat then a.getLsbD (i - lo.toNat) else d.getLsbD i))

/-- A load or XADD of an aligned address with memory behind it makes its context wait, the pc at the instruction; when the data returns,
rd takes the bytes there, big-endian and zero-extended, XADD stores their sum with rb, and the context goes on. A store writes the
low bytes of its register, big-endian, and no byte outside them. A misaligned address raises ALIGN and one without memory behind it
MEMORY, before anything is written; a load whose memory is gone when its data is due raises MEMORY.
Where it rests on the model's own reading or choice, that is log entries 93, 94 and 95. -/
def Obligations.LimLoadsAndStores : Prop :=
  ∀ (s : State) (c : CoreId) (x : CtxId) (cl : Clause) (rd ra rb : GReg) (imm : BitVec 14),
    (∀ e ∈ [(Instr.ld c x rd ra imm, LimInstr.ld rd ra imm, 8), (.lw c x rd ra imm, .lw rd ra imm, 4),
      (.lb c x rd ra imm, .lb rd ra imm, 1)],
      ∀ a k : Nat, a = ((s.ctx c x).gr ra + imm.signExtend 64).toNat → s.standsAt c x cl e.2.1 →
      (a % e.2.2 = 0 → s.limCell c a e.2.2 true = some k →
        ∃ t : State, exec e.1 s = .next t ∧
          (t.ctx c x).untimed = ({ s.ctx c x with wait := some (.load rd.toNat a e.2.2) } : Ctx).untimed ∧ ctxKept s t c x ∧
          memKept s t ∧
          unitsKept s t [0xA0 + c.val]) ∧
      (a % e.2.2 ≠ 0 → limFaults s e.1 c x cl 3) ∧
      (a % e.2.2 = 0 → s.limCell c a e.2.2 true = none → limFaults s e.1 c x cl 2)) ∧
    (∀ e ∈ [(Instr.st c x rd ra imm, LimInstr.st rd ra imm, 8), (.sw c x rd ra imm, .sw rd ra imm, 4),
      (.sb c x rd ra imm, .sb rd ra imm, 1)],
      ∀ a k : Nat, a = ((s.ctx c x).gr ra + imm.signExtend 64).toNat → s.standsAt c x cl e.2.1 →
      (a % e.2.2 = 0 → s.limCell c a e.2.2 true = some k →
        ∃ t : State, exec e.1 s = .next t ∧ beNat (t.readBytes k e.2.2) = ((s.ctx c x).gr rd).toNat % 256 ^ e.2.2 ∧
          (∀ j, (j < k ∨ k + e.2.2 ≤ j) → t.cell j = s.cell j) ∧ goesOn s t c x ∧ ctxKept s t c x ∧
          unitsKept s t [0xA0 + c.val]) ∧
      (a % e.2.2 ≠ 0 → limFaults s e.1 c x cl 3) ∧
      (a % e.2.2 = 0 → s.limCell c a e.2.2 true = none → limFaults s e.1 c x cl 2)) ∧
    (∀ a k : Nat, a = ((s.ctx c x).gr ra).toNat → s.standsAt c x cl (.xadd rd ra rb) →
      (a % 8 = 0 → s.limCell c a 8 false = some k →
        ∃ t : State, exec (.xadd c x rd ra rb) s = .next t ∧
          (t.ctx c x).untimed = ({ s.ctx c x with wait := some (.xadd rd.toNat a ((s.ctx c x).gr rb)) } : Ctx).untimed ∧
          ctxKept s t c x ∧ memKept s t ∧ unitsKept s t [0xA0 + c.val]) ∧
      (a % 8 ≠ 0 → limFaults s (.xadd c x rd ra rb) c x cl 3) ∧
      (a % 8 = 0 → s.limCell c a 8 false = none → limFaults s (.xadd c x rd ra rb) c x cl 2)) ∧
    (∀ a n k : Nat, (s.ctx c x).wait = some (.load rd.toNat a n) → s.limCell c a n true = some k → n ≤ 8 →
      ∃ t : State, exec (.memLoadReturn c x) s = .next t ∧
        (t.ctx c x).gr rd = (if rd = 0 then 0 else BitVec.ofNat 64 (beNat (s.readBytes k n))) ∧
        gregsKept (s.ctx c x) (t.ctx c x) rd ∧ (t.ctx c x).wait = none ∧ (t.ctx c x).pc = (s.ctx c x).pc + 1 ∧ ctxKept s t c x ∧
          memKept s t ∧ regsKept s t []) ∧
    (∀ a n : Nat, (s.ctx c x).wait = some (.load rd.toNat a n) → (s.ctx c x).clause = some cl → s.limCell c a n true = none →
      limFaults s (.memLoadReturn c x) c x cl 2) ∧
    (∀ (a k : Nat) (v old : BitVec 64), (s.ctx c x).wait = some (.xadd rd.toNat a v) → s.limCell c a 8 false = some k →
      old = BitVec.ofNat 64 (beNat (s.readBytes k 8)) →
      ∃ t : State, exec (.memLoadReturn c x) s = .next t ∧ (t.ctx c x).gr rd = (if rd = 0 then 0 else old) ∧
        gregsKept (s.ctx c x) (t.ctx c x) rd ∧
        beNat (t.readBytes k 8) = (old + v).toNat ∧ (∀ j, (j < k ∨ k + 8 ≤ j) → t.cell j = s.cell j) ∧ (t.ctx c x).wait = none ∧
        (t.ctx c x).pc = (s.ctx c x).pc + 1 ∧ ctxKept s t c x ∧ regsKept s t [])

/-- A branch that is not taken goes on to the next instruction. A taken one goes to its pc plus the offset, CALL and CALLR also writing
the return address to g31, where the target lies in the bank or in the block's own instructions and, for an offset branch, in the
space it branches from; any other target raises BRANCH_RANGE.
Where it rests on the model's own reading or choice, that is log entries 93 and 94. -/
def Obligations.LimBranches : Prop :=
  ∀ (s : State) (c : CoreId) (x : CtxId) (cl : Clause) (ra : GReg) (off : BitVec 20) (a : BitVec 64) (p : Nat),
    (s.ctx c x).gr ra = a → (s.ctx c x).pc.toNat = p →
    (∀ e ∈ [(Instr.br c x off, LimInstr.br off, true, false), (.bz c x ra off, .bz ra off, decide (a = 0), false),
        (.bnz c x ra off, .bnz ra off, decide (a ≠ 0), false), (.bltz c x ra off, .bltz ra off, decide (a.toInt < 0), false),
        (.bgez c x ra off, .bgez ra off, decide (0 ≤ a.toInt), false), (.call c x off, .call off, true, true)],
      s.standsAt c x cl e.2.1 →
      (e.2.2.1 = false → ∃ t : State, exec e.1 s = .next t ∧ goesOn s t c x ∧ ctxKept s t c x ∧ memKept s t ∧
        unitsKept s t [0xA0 + c.val]) ∧
      (∀ q : Nat, e.2.2.1 = true → (q : Int) = p + off.toInt →
        (q ≤ 0x1FFF ∧ p < 0x10000 ∨ cl.block = true ∧ 0x10000 ≤ q ∧ q ≤ 0x10000 + cl.lenM1 ∧ 0x10000 ≤ p) → q < 2 ^ 17 →
        ∃ t : State, exec e.1 s = .next t ∧ (t.ctx c x).pc.toNat = q ∧
          (∀ r, (t.ctx c x).gr r = (if e.2.2.2 = true ∧ r = 31 then ((s.ctx c x).pc + 1).setWidth 64 else (s.ctx c x).gr r)) ∧
          (t.ctx c x).clause = (s.ctx c x).clause ∧ ctxKept s t c x ∧ memKept s t ∧ unitsKept s t [0xA0 + c.val]) ∧
      (∀ q : Int, e.2.2.1 = true → q = p + off.toInt →
        ¬ (0 ≤ q ∧ q ≤ 0x1FFF ∧ p < 0x10000 ∨ cl.block = true ∧ 0x10000 ≤ q ∧ q ≤ 0x10000 + cl.lenM1 ∧ 0x10000 ≤ p) →
        limFaults s e.1 c x cl 5)) ∧
    (∀ e ∈ [(Instr.jr c x ra, LimInstr.jr ra, false), (.callr c x ra, .callr ra, true)], s.standsAt c x cl e.2.1 →
      (a.toNat < 2 ^ 17 → (a.toNat ≤ 0x1FFF ∨ cl.block = true ∧ 0x10000 ≤ a.toNat ∧ a.toNat ≤ 0x10000 + cl.lenM1) →
        ∃ t : State, exec e.1 s = .next t ∧ (t.ctx c x).pc.toNat = a.toNat ∧
          (∀ r, (t.ctx c x).gr r = (if e.2.2 = true ∧ r = 31 then ((s.ctx c x).pc + 1).setWidth 64 else (s.ctx c x).gr r)) ∧
          (t.ctx c x).clause = (s.ctx c x).clause ∧ ctxKept s t c x ∧ memKept s t ∧ unitsKept s t [0xA0 + c.val]) ∧
      (¬ (a.toNat < 2 ^ 17 ∧ (a.toNat ≤ 0x1FFF ∨ cl.block = true ∧ 0x10000 ≤ a.toNat ∧ a.toNat ≤ 0x10000 + cl.lenM1)) →
        limFaults s e.1 c x cl 5))

/-- CTLR and CTLRX of an address that exists make the context wait, and of one that meets R24 raise CTL_ACCESS; CTLW and CTLWX post a
write behind at most 15 others of the core and go on, or wait behind 16; an address above 40 bits raises CTL_ACCESS. A read returns,
once the core's earlier writes to its unit have landed, what the register shows. The oldest posted write lands as the program's
register write does, or, refused, waits in its clause as a deferred CTL_ACCESS.
Where it rests on the model's own reading or choice, that is log entries 17, 18, 94, 95 and 96. -/
def Obligations.LimControlSpace : Prop :=
  ∀ (s : State) (c : CoreId) (x : CtxId) (cl : Clause) (rd ra : GReg) (u : BitVec 8) (k : BitVec 12) (a : Nat),
    (∀ e ∈ [(Instr.ctlr c x rd u k, LimInstr.ctlr rd u k, u.toNat * 2 ^ 32 + 8 * k.toNat),
      (.ctlrx c x rd ra, .ctlrx rd ra, ((s.ctx c x).gr ra).toNat)],
      s.standsAt c x cl e.2.1 → e.2.2 = a →
      (s.accessOk a = true → ∃ t : State, exec e.1 s = .next t ∧
        (t.ctx c x).untimed = ({ s.ctx c x with wait := some (.ctl rd.toNat a) } : Ctx).untimed ∧ ctxKept s t c x ∧ memKept s t ∧
        unitsKept s t [0xA0 + c.val]) ∧
      (s.accessOk a = false → limFaults s e.1 c x cl 4)) ∧
    (∀ e ∈ [(Instr.ctlw c x rd u k, LimInstr.ctlw rd u k, u.toNat * 2 ^ 32 + 8 * k.toNat),
      (.ctlwx c x rd ra, .ctlwx rd ra, ((s.ctx c x).gr ra).toNat)],
      s.standsAt c x cl e.2.1 → e.2.2 = a →
      (a < 2 ^ 40 → (s.core c).posted.length < 16 →
        ∃ t w, exec e.1 s = .next t ∧ (t.core c).posted = (s.core c).posted ++ [w] ∧ w.addr = a ∧ w.value = (s.ctx c x).gr rd ∧
          w.uid = cl.uid ∧
          goesOn s t c x ∧ ctxKept s t c x ∧ memKept s t ∧ unitsKept s t [0xA0 + c.val]) ∧
      (2 ^ 40 ≤ a → limFaults s e.1 c x cl 4)) ∧
    (∀ e ∈ [(Instr.ctlw c x rd u k, LimInstr.ctlw rd u k, u.toNat * 2 ^ 32 + 8 * k.toNat),
      (.ctlwx c x rd ra, .ctlwx rd ra, ((s.ctx c x).gr ra).toNat)],
      s.atInstr c x cl e.2.1 → e.2.2 < 2 ^ 40 → 16 ≤ (s.core c).posted.length → exec e.1 s = .next s) ∧
    ((s.ctx c x).wait = some (.ctl rd.toNat a) → (s.ctx c x).clause = some cl →
      ((∃ w ∈ (s.core c).posted, unitOf w.addr = unitOf a) → exec (.ctlReadReturn c x) s = .next s) ∧
      ((∀ w ∈ (s.core c).posted, unitOf w.addr ≠ unitOf a) → s.accessOk a = true →
        ∃ t : State, exec (.ctlReadReturn c x) s = .next t ∧ (t.ctx c x).gr rd = (if rd = 0 then 0 else s.regView a) ∧
          gregsKept (s.ctx c x) (t.ctx c x) rd ∧
          (t.ctx c x).wait = none ∧ (t.ctx c x).pc = (s.ctx c x).pc + 1 ∧ ctxKept s t c x ∧ memKept s t ∧ unitsKept s t [unitOf a])) ∧
    ((s.core c).posted = [] → exec (.ctlWriteLand c) s = .next s) ∧
    (∀ (w : Posted) (l : List Posted), (s.core c).posted = w :: l →
      (s.accessOk w.addr = true → ∃ t : State, exec (.ctlWriteLand c) s = .next t ∧
        exec (.regWrite (.program c x) (BitVec.ofNat 40 w.addr) w.value) (s.setCore c { s.core c with posted := l }) = .next t ∧
        (w.addr = R.lschImgAddr → t.fld R.lschImgAddr F.lschImgAddr_offset = bitsOf w.value.toNat 32 0 ∧ (t.core c).posted = l ∧
          memKept s t ∧
          regsKept s t [R.lschImgAddr])) ∧
      (s.accessOk w.addr = false → (s.ctx c x).clause = some cl → cl.uid = w.uid → (s.ctx c x).refused = none →
        ∃ t : State, exec (.ctlWriteLand c) s = .next t ∧ (t.core c).posted = l ∧
          (t.ctx c x).untimed = ({ s.ctx c x with refused := some (w.pc, w.word) } : Ctx).untimed ∧ memKept s t ∧
          regsKept s t []))

/-- EMIT and EMITX add a token to their node and, once it holds enough, a firing; they raise EMIT_RANGE, NODE_INVALID or TOKEN_FULL. END
frees the context, with a block's completion carrying g2, or raises LATCH_HELD or HANDLE_HELD. FENCE only goes on. TRAP raises its
exception, and a word with no meaning raises ILLEGAL. EMIT, EMITX, END, FENCE and TRAP wait while a write of the clause has still to
land. ARM replaces its alarm and answers 0, 1, 2 or 3; TCAP 0 captures line position, time and status and answers the line position,
TCAP 1 to 4 answer parts of the capture, others raise BAD_OPERAND.
Where it rests on the model's own reading or choice, that is log entries 94, 96, 97 and 105. -/
def Obligations.LimTokensEndsAndTime : Prop :=
  ∀ (s : State) (c : CoreId) (x : CtxId) (cl : Clause) (rd ra rb : GReg) (k : BitVec 10), s.clusterUp 0 = true →
    (∀ e ∈ [(Instr.emit c x ra k, LimInstr.emit ra k), (.emitx c x ra rb, .emitx ra rb), (.endClause c x, .endClause),
      (.fence c x, .fence), (.trap c x k, .trap k)],
      s.atInstr c x cl e.2 → (∃ w ∈ (s.core c).posted, w.uid = cl.uid) → exec e.1 s = .next s) ∧
    ((∀ w ∈ (s.core c).posted, w.uid ≠ cl.uid) →
      (∀ e ∈ [(Instr.emit c x ra k, LimInstr.emit ra k, (cl.sentBase + k.toNat) % 65536,
        decide (cl.block = false ∧ k.toNat ≤ cl.sentLenM1)),
          (.emitx c x ra rb, .emitx ra rb, ((s.ctx c x).gr rb).toNat, decide (((s.ctx c x).gr rb).toNat < 65536))],
        ∀ n : Nat, e.2.2.1 = n → s.standsAt c x cl e.2.1 → e.2.2.2 = true →
        ((s.gnode n).valid = true → (s.gnode n).tokens.length < 15 →
          ∃ t : State, exec e.1 s = .next t ∧ (t.gnode n).tokens = (s.gnode n).tokens ++ [(s.ctx c x).gr ra] ∧
            (∀ m, m ≠ n → t.gnode m = s.gnode m) ∧
            t.lsch.ready = s.lsch.ready ++ (if (s.gnode n).trig = 0 ∧
              ((s.firings n).length + 1) * (s.gnode n).need ≤ (s.gnode n).tokens.length + 1 then
              [⟨false, n, (s.gnode n).prio, (s.gnode n).subject, 0, false, 0⟩] else []) ∧
            goesOn s t c x ∧ ctxKept s t c x ∧ memKept s t ∧ unitsKept s t [0xA0 + c.val]) ∧
        ((s.gnode n).valid = false → limFaults s e.1 c x cl 7) ∧
        ((s.gnode n).valid = true → 15 ≤ (s.gnode n).tokens.length → limFaults s e.1 c x cl 8)) ∧
      (s.standsAt c x cl (.emit ra k) → (cl.block = true ∨ cl.sentLenM1 < k.toNat) → limFaults s (.emit c x ra k) c x cl 6) ∧
      (s.standsAt c x cl (.emitx ra rb) → 65536 ≤ ((s.ctx c x).gr rb).toNat → limFaults s (.emitx c x ra rb) c x cl 15) ∧
      (s.standsAt c x cl .endClause → cl.latches = [] → (s.ctx c x).objects = [] →
        ∃ t : State, exec (.endClause c x) s = .next t ∧ t.ctx c x = {} ∧ t.wires = s.wires ∧ ctxKept s t c x ∧ memKept s t ∧
          (s.plainClause c x cl → unitsKept s t [0xA0 + c.val])) ∧
      (s.standsAt c x cl .endClause → cl.latches = [] → (s.ctx c x).objects = [] → cl.block = true → cl.core = c.val →
        ∃ t w, exec (.endClause c x) s = .next t ∧ t.ctx c x = {} ∧ t.lsch.cpl = s.lsch.cpl ++ [w] ∧ w.getD 3 0 = (s.ctx c x).gr 2 ∧
          bitsOf (w.getD 0 0).toNat 63 32 = cl.seq % 2 ^ 32 ∧ bitsOf (w.getD 0 0).toNat 31 28 = (if cl.late then 1 else 0) ∧
          (∀ b ∈ t.lsch.store, b.slot ≠ cl.node) ∧ ctxKept s t c x ∧ memKept s t ∧ unitsKept s t [0x9A, 0xA0 + c.val]) ∧
      (s.standsAt c x cl .endClause → cl.latches ≠ [] → limFaults s (.endClause c x) c x cl 11) ∧
      (s.standsAt c x cl .endClause → cl.latches = [] → (s.ctx c x).objects ≠ [] → limFaults s (.endClause c x) c x cl 14) ∧
      (s.standsAt c x cl .fence → ∃ t : State, exec (.fence c x) s = .next t ∧ goesOn s t c x ∧ ctxKept s t c x ∧ memKept s t ∧
        unitsKept s t [0xA0 + c.val]) ∧
      (s.standsAt c x cl (.trap k) → limFaults s (.trap c x k) c x cl 17)) ∧
    ((s.ctx c x).clause = some cl → s.mayIssue c x = true → (s.ctx c x).refused = none →
      decodeLim (s.fetchLim c (s.ctx c x) cl) = none →
      limFaults s (.illegal c x) c x cl 1) ∧
    (∀ i : Nat, s.standsAt c x cl (.arm rd ra rb) → i = bitsOf ((s.ctx c x).gr rb).toNat 11 0 →
      (bitOf ((s.ctx c x).gr rb).toNat 63 = true →
        ∃ t : State, exec (.arm c x rd ra rb) s = .next t ∧ alarmValid (t.alarm i) = false ∧ (∀ j, j ≠ i → t.alarm j = s.alarm j) ∧
          (t.ctx c x).gr rd = (if rd = 0 then 0 else 2) ∧ gregsKept (s.ctx c x) (t.ctx c x) rd ∧ (t.ctx c x).pc = (s.ctx c x).pc + 1 ∧
            ctxKept s t c x ∧
          memKept s t ∧ unitsKept s t [0xA0 + c.val]) ∧
      (bitsOf ((s.ctx c x).gr rb).toNat 63 44 = 0 → ((s.ctx c x).gr ra).toNat % 2 ^ 21 ≤ 1062499 →
        ∃ t : State, exec (.arm c x rd ra rb) s = .next t ∧ alarmValid (t.alarm i) = true ∧
          alarmNode (t.alarm i) = bitsOf ((s.ctx c x).gr rb).toNat 27 12 ∧
          alarmPeriod (t.alarm i) = bitsOf ((s.ctx c x).gr rb).toNat 43 28 ∧
            alarmCell (t.alarm i) = ((s.ctx c x).gr ra).toNat % 2 ^ 21 ∧
          alarmFrame (t.alarm i) = s.lpFrame ((s.ctx c x).gr ra) ∧ alarmMissed (t.alarm i) = 0 ∧ (∀ j, j ≠ i → t.alarm j = s.alarm j) ∧
          (t.ctx c x).gr rd = (if rd = 0 then 0 else if s.lpValid = false then 3
            else if s.lpPassed (s.lpFrame ((s.ctx c x).gr ra)) (((s.ctx c x).gr ra).toNat % 2 ^ 21) then 1 else 0) ∧
          gregsKept (s.ctx c x) (t.ctx c x) rd ∧ (t.ctx c x).pc = (s.ctx c x).pc + 1 ∧ ctxKept s t c x ∧ memKept s t ∧
            unitsKept s t [0xA0 + c.val]) ∧
      (bitOf ((s.ctx c x).gr rb).toNat 63 = false → bitsOf ((s.ctx c x).gr rb).toNat 62 44 ≠ 0 →
        limFaults s (.arm c x rd ra rb) c x cl 15)) ∧
    (∀ sel : BitVec 10, s.standsAt c x cl (.tcap rd sel) →
      (sel = 0 → ∃ t p, exec (.tcap c x rd sel) s = .next t ∧ (t.ctx c x).gr rd = (if rd = 0 then 0 else s.lpWord) ∧
        gregsKept (s.ctx c x) (t.ctx c x) rd ∧
        (t.ctx c x).capture = some p ∧ p.lp = s.lpWord ∧ p.status = s.reg R.timeStatus ∧ p.stamp = s.stamp (0x700 + c.val) ∧
        (t.ctx c x).pc = (s.ctx c x).pc + 1 ∧ ctxKept s t c x ∧ memKept s t ∧ unitsKept s t [0xA0 + c.val]) ∧
      (∀ p, (s.ctx c x).capture = some p →
        (sel = 1 → limPuts s (.tcap c x rd sel) c x rd p.stamp.hiWord) ∧
          (sel = 2 → limPuts s (.tcap c x rd sel) c x rd p.stamp.loWord) ∧
        (sel = 3 → limPuts s (.tcap c x rd sel) c x rd p.stamp.short) ∧ (sel = 4 → limPuts s (.tcap c x rd sel) c x rd p.status)) ∧
      ((s.ctx c x).capture = none → 1 ≤ sel.toNat → sel.toNat ≤ 4 → limPuts s (.tcap c x rd sel) c x rd 0) ∧
      (4 < sel.toNat → limFaults s (.tcap c x rd sel) c x cl 15))

/-- ACQ of a free latch nobody waits for takes it and answers 0, or 1 where it is BROKEN; of a held one it waits; out of ascending
order, or past eight held, it raises LATCH_ORDER. REL gives a held latch up, keeping its BROKEN mark; LFIX clears the mark of a held
latch; both raise LATCH_NOT_HELD otherwise. A number of 1,024 or more raises LATCH_RANGE.
Where it rests on the model's own reading or choice, that is log entries 94, 100 and 110. -/
def Obligations.LimLatchInstructions : Prop :=
  ∀ (s : State) (c : CoreId) (x : CtxId) (cl : Clause) (rd ra : GReg) (imm : BitVec 10) (n : Nat), s.clusterUp 0 = true →
    n = ((s.ctx c x).gr ra + imm.setWidth 64).toNat → cl.core = c.val → cl.place = x.val →
    (s.standsAt c x cl (.acq rd ra imm) →
      (n < 1024 → cl.latches.length < 8 → (∀ m ∈ cl.latches, m < n) → s.clauseOf cl.uid = some cl → (s.lbank n).holder = none →
        (∀ w ∈ s.lsch.waits, w.2 ≠ n ∧ w.1 ≠ cl.uid) →
        ∃ t : State, exec (.acq c x rd ra imm) s = .next t ∧ (t.lbank n).holder = some cl.uid ∧
          (t.lbank n).broken = (s.lbank n).broken ∧
          (∀ m, m ≠ n → t.lbank m = s.lbank m) ∧ (t.ctx c x).clause = some { cl with latches := cl.latches ++ [n] } ∧
          (t.ctx c x).gr rd = (if rd = 0 then 0 else if (s.lbank n).broken then 1 else 0) ∧ gregsKept (s.ctx c x) (t.ctx c x) rd ∧
          (t.ctx c x).wait = none ∧ (t.ctx c x).pc = (s.ctx c x).pc + 1 ∧ t.lsch.waits = s.lsch.waits ∧ ctxKept s t c x ∧ memKept s t ∧
          unitsKept s t [0xA0 + c.val]) ∧
      (n < 1024 → cl.latches.length < 8 → (∀ m ∈ cl.latches, m < n) → (s.lbank n).holder.isSome = true →
        ∃ t : State, exec (.acq c x rd ra imm) s = .next t ∧
          (t.ctx c x).untimed = ({ s.ctx c x with wait := some (.latch rd.toNat n) } : Ctx).untimed ∧
          t.lsch.waits = s.lsch.waits ++ [(cl.uid, n)] ∧ t.lsch.latches = s.lsch.latches ∧ ctxKept s t c x ∧ memKept s t ∧
            unitsKept s t [0xA0 + c.val]) ∧
      (n < 1024 → (8 ≤ cl.latches.length ∨ ∃ m ∈ cl.latches, n ≤ m) → limFaults s (.acq c x rd ra imm) c x cl 9) ∧
      (1024 ≤ n → limFaults s (.acq c x rd ra imm) c x cl 12)) ∧
    (s.standsAt c x cl (.rel ra imm) → (∀ w ∈ (s.core c).posted, w.uid ≠ cl.uid) →
      (n < 1024 → n ∈ cl.latches →
        ∃ t : State, exec (.rel c x ra imm) s = .next t ∧ (t.lbank n).holder = none ∧ (t.lbank n).broken = (s.lbank n).broken ∧
          (∀ m, m ≠ n → t.lbank m = s.lbank m) ∧
          (t.ctx c x).untimed = ({ s.ctx c x with pc := (s.ctx c x).pc + 1, clause := some { cl with latches := cl.latches.filter (· != n) } } : Ctx).untimed ∧ ctxKept s t c x ∧
          memKept s t ∧ unitsKept s t [0xA0 + c.val]) ∧
      (n < 1024 → n ∉ cl.latches → limFaults s (.rel c x ra imm) c x cl 10)) ∧
    (s.standsAt c x cl (.lfix ra imm) →
      (n < 1024 → n ∈ cl.latches →
        ∃ t : State, exec (.lfix c x ra imm) s = .next t ∧ (t.lbank n).broken = false ∧ (t.lbank n).holder = (s.lbank n).holder ∧
          (∀ m, m ≠ n → t.lbank m = s.lbank m) ∧
          goesOn s t c x ∧ ctxKept s t c x ∧ memKept s t ∧ unitsKept s t [0xA0 + c.val]) ∧
      (n < 1024 → n ∉ cl.latches → limFaults s (.lfix c x ra imm) c x cl 10))

/-- PTAKE, MTAKE and PNEW fill the lowest empty slot with the head of a control-plane queue, the head of the message queue or a new
zero-filled packet whose cells are taken, and answer the slot; they answer -1 where nothing is obtained, and raise HANDLE with every
slot full. PLD reads eight bytes of a held object, zeros past its end, PST writes them within its length, PLEN sets its length with
its cells, or answers 1 where cells are short, PMETA answers an item; an empty or unnamed slot raises HANDLE, an operand out of
range BAD_OPERAND.
Where it rests on the model's own reading or choice, that is log entries 94 and 110. -/
def Obligations.LimTakesAndReadsObjects : Prop :=
  ∀ (s : State) (c : CoreId) (x : CtxId) (cl : Clause) (rd ra rb : GReg) (imm : BitVec 10) (a b : BitVec 64),
    (s.ctx c x).gr ra = a → (s.ctx c x).gr rb = b →
    (∀ q : Nat, s.standsAt c x cl (.ptake rd ra) → q = a.toNat →
      (0x3E00 ≤ q → q ≤ 0x3FFF → s.head q = none → (s.ctx c x).emptySlot.isSome = true →
        limPuts s (.ptake c x rd ra) c x rd (BitVec.allOnes 64)) ∧
      (∀ h p, 0x3E00 ≤ q → q ≤ 0x3FFF → s.head q = some p → (s.ctx c x).emptySlot = some h →
        ∃ t o, exec (.ptake c x rd ra) s = .next t ∧ (t.ctx c x).handle h = some o ∧ o.kind = 0 ∧ o.pkt = p.pkt ∧
          (t.ctx c x).gr rd = (if rd = 0 then 0 else BitVec.ofNat 64 h) ∧
          gregsKept (s.ctx c x) (t.ctx c x) rd ∧ (∀ y ∈ (t.queue q).pkts, y.pkt.id ≠ p.pkt.id) ∧ (t.ctx c x).pc = (s.ctx c x).pc + 1 ∧
            ctxKept s t c x ∧ memKept s t) ∧
      ((q < 0x3E00 ∨ 0x3FFF < q) → limFaults s (.ptake c x rd ra) c x cl 15)) ∧
    (s.standsAt c x cl (.mtake rd) →
      (s.dfp.msgq = [] → (s.ctx c x).emptySlot.isSome = true → limPuts s (.mtake c x rd) c x rd (BitVec.allOnes 64)) ∧
      (∀ m l h, s.dfp.msgq = m :: l → (s.ctx c x).emptySlot = some h →
        ∃ t o, exec (.mtake c x rd) s = .next t ∧ (t.ctx c x).handle h = some o ∧ o.kind = 1 ∧
          o.pkt.bytes = beBytes 8 m.env.toNat ++ m.body ∧ o.plane = m.plane ∧
          o.frame = m.frame ∧ t.dfp.msgq = l ∧ (t.ctx c x).gr rd = (if rd = 0 then 0 else BitVec.ofNat 64 h) ∧
            gregsKept (s.ctx c x) (t.ctx c x) rd ∧
          (t.ctx c x).pc = (s.ctx c x).pc + 1 ∧ ctxKept s t c x ∧ memKept s t ∧ unitsKept s t [0xA0 + c.val])) ∧
    (∀ (n : Nat) (d : Dir), s.standsAt c x cl (.pnew rd ra) → n = a.toNat % 2 ^ 14 → d = (if bitOf a.toNat 14 then Dir.dn else .up) →
      (a.toNat < 2 ^ 15 → n ≠ 0 →
        ((s.restarting Src.qm = true ∨ s.domTakes 5 = false ∨ s.dieFree d < cellsOf n) → (s.ctx c x).emptySlot.isSome = true →
          limPuts s (.pnew c x rd ra) c x rd (BitVec.allOnes 64)) ∧
        (∀ h, s.restarting Src.qm = false → s.domTakes 5 = true → cellsOf n ≤ s.dieFree d → (s.ctx c x).emptySlot = some h →
          ∃ t o, exec (.pnew c x rd ra) s = .next t ∧ (t.ctx c x).handle h = some o ∧ o.kind = 2 ∧ o.pkt.bytes = List.replicate n 0 ∧
            o.pkt.dir = d ∧
            t.dieUsed d = s.dieUsed d + cellsOf n ∧ (t.ctx c x).gr rd = (if rd = 0 then 0 else BitVec.ofNat 64 h) ∧
              gregsKept (s.ctx c x) (t.ctx c x) rd ∧
            (t.ctx c x).pc = (s.ctx c x).pc + 1 ∧ ctxKept s t c x ∧ memKept s t ∧ unitsKept s t [0xA0 + c.val])) ∧
      ((2 ^ 15 ≤ a.toNat ∨ n = 0) → limFaults s (.pnew c x rd ra) c x cl 15)) ∧
    (∀ e ∈ [(Instr.mtake c x rd, LimInstr.mtake rd), (.ptake c x rd ra, .ptake rd ra), (.pnew c x rd ra, .pnew rd ra)],
      s.standsAt c x cl e.2 →
      0x3E00 ≤ a.toNat → a.toNat ≤ 0x3FFF → (s.ctx c x).emptySlot = none → limFaults s e.1 c x cl 13) ∧
    (∀ (h o : Nat) (v : Held), a.toNat = h → o = b.toNat + imm.toNat → h < 4 → (s.ctx c x).handle h = some v →
      (s.standsAt c x cl (.pld rd ra rb imm) → o ≤ 16376 →
        ∃ w, limPuts s (.pld c x rd ra rb imm) c x rd w ∧ ∀ i, i < 8 →
          bitsOf w.toNat (63 - 8 * i) (56 - 8 * i) = (v.pkt.bytes.getD (o + i) 0).toNat) ∧
      (s.standsAt c x cl (.pst rd ra rb imm) → o ≤ 16376 →
        ∃ t w, exec (.pst c x rd ra rb imm) s = .next t ∧ (t.ctx c x).handle h = some w ∧ w.kind = v.kind ∧
          w.pkt.bytes.length = v.pkt.bytes.length ∧
          (∀ i, i < v.pkt.bytes.length → w.pkt.bytes.getD i 0 = (if o ≤ i ∧
            i < o + 8 then (beBytes 8 ((s.ctx c x).gr rd).toNat).getD (i - o) 0 else v.pkt.bytes.getD i 0)) ∧
          (∀ r, (t.ctx c x).gr r = (s.ctx c x).gr r) ∧ (t.ctx c x).pc = (s.ctx c x).pc + 1 ∧ ctxKept s t c x ∧ memKept s t ∧
            unitsKept s t [0xA0 + c.val]) ∧
      (s.standsAt c x cl (.plen rd ra rb) → 1 ≤ b.toNat → b.toNat ≤ 16383 →
        ((v.kind = 1 ∨ cellsOf b.toNat ≤ cellsOf v.pkt.bytes.length ∨
            s.restarting Src.qm = false ∧ s.domTakes 5 = true ∧ cellsOf b.toNat ≤ cellsOf v.pkt.bytes.length + s.dieFree v.pkt.dir) →
          ∃ t w, exec (.plen c x rd ra rb) s = .next t ∧ (t.ctx c x).handle h = some w ∧ w.pkt.bytes.length = b.toNat ∧
            (∀ i, i < b.toNat → w.pkt.bytes.getD i 0 = v.pkt.bytes.getD i 0) ∧ (t.ctx c x).gr rd = 0 ∧
              gregsKept (s.ctx c x) (t.ctx c x) rd ∧
            (t.ctx c x).pc = (s.ctx c x).pc + 1 ∧ ctxKept s t c x ∧ memKept s t ∧ unitsKept s t [0xA0 + c.val]) ∧
        (v.kind ≠ 1 → cellsOf v.pkt.bytes.length < cellsOf b.toNat →
          (s.restarting Src.qm = true ∨ s.domTakes 5 = false ∨ cellsOf v.pkt.bytes.length + s.dieFree v.pkt.dir < cellsOf b.toNat) →
          limPuts s (.plen c x rd ra rb) c x rd 1)) ∧
      (s.standsAt c x cl (.pmeta rd ra imm) →
        (imm.toNat ≤ 5 → ∃ w, limPuts s (.pmeta c x rd ra imm) c x rd w) ∧
        (imm = 0 → limPuts s (.pmeta c x rd ra imm) c x rd (BitVec.ofNat 64 (v.kind * 2 ^ 14 + v.pkt.bytes.length % 2 ^ 14))) ∧
        (imm = 3 → limPuts s (.pmeta c x rd ra imm) c x rd v.pkt.stamp.short) ∧
        (imm = 5 → v.kind = 1 →
          limPuts s (.pmeta c x rd ra imm) c x rd (BitVec.ofNat 64 (v.plane % 32 * 2 ^ 48 + v.frame % 2 ^ 48))))) ∧
    (∀ e ∈ [(Instr.pld c x rd ra rb imm, LimInstr.pld rd ra rb imm), (.pst c x rd ra rb imm, .pst rd ra rb imm),
      (.plen c x rd ra rb, .plen rd ra rb),
        (.pmeta c x rd ra imm, .pmeta rd ra imm)], s.standsAt c x cl e.2 → 1 ≤ b.toNat → b.toNat + imm.toNat ≤ 16376 → imm.toNat ≤ 5 →
      (4 ≤ a.toNat ∨ (s.ctx c x).handle a.toNat = none) → limFaults s e.1 c x cl 13)

/-- PSEND puts the object, with cells of its direction's pool, into the pipe of channel 127 with its stamp action and answers 0, the
slot empty, or 1 with the pipe full or no cells. PFREE gives the object's cells back. MPOST queues a message, its envelope's
reserved bits zero, answering 0, or keeps the object and answers 1 with the queue full, 2 with a wrong length; MDROP withdraws the
entries of a class and answers how many. CREQ answers 2 or 3 where its queue is disabled or fed by a channel, 1 where it is full,
else queues the request and answers 0; a reply clause out of range, or any in a command block, raises EMIT_RANGE.
Where it rests on the model's own reading or choice, that is log entries 94, 106 and 107. -/
def Obligations.LimSendsAndSubmits : Prop :=
  ∀ (s : State) (c : CoreId) (x : CtxId) (cl : Clause) (rd ra rb : GReg) (h : Nat) (v : Held) (a b : BitVec 64),
    (s.ctx c x).gr ra = a → (s.ctx c x).gr rb = b →
    (∀ d : Dir, s.standsAt c x cl (.psend rd ra rb) → a.toNat = h → h < 4 → (s.ctx c x).handle h = some v →
      d = (if bitOf b.toNat 0 then Dir.dn else .up) →
      bitsOf b.toNat 7 3 = 0 → b.toNat < 2 ^ 16 → (bitsOf b.toNat 2 1 = 1 → cl.block = false ∧ bitsOf b.toNat 15 8 ≤ cl.sentLenM1) →
      (bitsOf b.toNat 2 1 ≠ 1 → bitsOf b.toNat 15 8 = 0) →
      ((s.pipeFull d 7 = true ∨ s.cellsFor v d = none) → limPuts s (.psend c x rd ra rb) c x rd 1) ∧
      (s.pipeFull d 7 = false → s.cellsFor v d ≠ none →
        ∃ t p, exec (.psend c x rd ra rb) s = .next t ∧ t.pipe d 7 = s.pipe d 7 ++ [p] ∧ p.bytes = v.pkt.bytes ∧ p.dir = d ∧
          p.chan = 127 ∧ p.inject = true ∧
          p.act = bitsOf b.toNat 2 1 ∧
          p.ret = (if bitsOf b.toNat 2 1 ≠ 0 ∧ cl.block = false then 1024 + (cl.sentBase + bitsOf b.toNat 15 8) % 65536 else 0) ∧
          (t.ctx c x).handle h = none ∧ (t.ctx c x).gr rd = 0 ∧ gregsKept (s.ctx c x) (t.ctx c x) rd ∧
          (t.ctx c x).pc = (s.ctx c x).pc + 1 ∧ ctxKept s t c x ∧ memKept s t ∧ unitsKept s t [0x93, 0x94, 0xA0 + c.val])) ∧
    (s.standsAt c x cl (.psend rd ra rb) → bitsOf b.toNat 2 1 = 1 → (cl.block = true ∨ cl.sentLenM1 < bitsOf b.toNat 15 8) →
      limFaults s (.psend c x rd ra rb) c x cl 6) ∧
    (s.standsAt c x cl (.pfree ra) → a.toNat = h → h < 4 → (s.ctx c x).handle h = some v →
      ∃ t : State, exec (.pfree c x ra) s = .next t ∧ (t.ctx c x).handle h = none ∧
        t.dieUsed v.pkt.dir = s.dieUsed v.pkt.dir - (if v.kind = 1 then 0 else cellsOf v.pkt.bytes.length) ∧
        (∀ r, (t.ctx c x).gr r = (s.ctx c x).gr r) ∧ (t.ctx c x).pc = (s.ctx c x).pc + 1 ∧ ctxKept s t c x ∧ memKept s t ∧
          unitsKept s t [0xA0 + c.val]) ∧
    (s.standsAt c x cl (.pfree ra) → (4 ≤ a.toNat ∨ (s.ctx c x).handle a.toNat = none) → limFaults s (.pfree c x ra) c x cl 13) ∧
    (s.standsAt c x cl (.mpost rd ra rb) → a.toNat = h → h < 4 → (s.ctx c x).handle h = some v → b.toNat ≤ 2 →
      (64 ≤ s.ubb.msgs.length → limPuts s (.mpost c x rd ra rb) c x rd 1) ∧
      (s.ubb.msgs.length < 64 → (v.pkt.bytes.length ≠ 8 + bitsOf (beNat (takePad 8 v.pkt.bytes)) 45 34 ∨ 4103 < v.pkt.bytes.length) →
        limPuts s (.mpost c x rd ra rb) c x rd 2) ∧
      (s.ubb.msgs.length < 64 → v.pkt.bytes.length = 8 + bitsOf (beNat (takePad 8 v.pkt.bytes)) 45 34 → v.pkt.bytes.length ≤ 4103 →
        ∃ t m, exec (.mpost c x rd ra rb) s = .next t ∧ t.ubb.msgs = s.ubb.msgs ++ [m] ∧ m.body = v.pkt.bytes.drop 8 ∧
          m.enrol = (b.toNat == 1) ∧
          m.pair = (b.toNat == 2) ∧ bitsOf m.env.toNat 63 34 = bitsOf (beNat (takePad 8 v.pkt.bytes)) 63 34 ∧
            bitsOf m.env.toNat 33 16 = 0 ∧ (t.ctx c x).handle h = none ∧
          (t.ctx c x).gr rd = 0 ∧ gregsKept (s.ctx c x) (t.ctx c x) rd ∧ (t.ctx c x).pc = (s.ctx c x).pc + 1 ∧ ctxKept s t c x ∧
            memKept s t ∧
          unitsKept s t [0xA0 + c.val])) ∧
    (s.standsAt c x cl (.mdrop rd ra) →
      ∃ t : State, exec (.mdrop c x rd ra) s = .next t ∧
        t.ubb.msgs = s.ubb.msgs.filter (fun m => !(if a.toNat % 4 = 0 then true else if a.toNat % 4 = 1 then m.enrol
          else if a.toNat % 4 = 2 then m.pair else !m.enrol && !m.pair)) ∧
        (t.ctx c x).gr rd = (if rd = 0 then 0 else BitVec.ofNat 64 (s.ubb.msgs.filter (fun m => if a.toNat % 4 = 0 then true else if a.toNat % 4 = 1 then m.enrol
          else if a.toNat % 4 = 2 then m.pair else !m.enrol && !m.pair)).length) ∧
        gregsKept (s.ctx c x) (t.ctx c x) rd ∧ (t.ctx c x).pc = (s.ctx c x).pc + 1 ∧ ctxKept s t c x ∧ memKept s t ∧
          unitsKept s t [0xA0 + c.val]) ∧
    (∀ q k : Nat, s.standsAt c x cl (.creq rd ra rb) → b.toNat < 2 ^ 17 → bitsOf b.toNat 7 6 = 0 → q = b.toNat % 64 →
      (cl.block = true → bitOf b.toNat 16 = true) → (cl.block = false → bitsOf b.toNat 15 8 ≤ cl.sentLenM1) →
      a.toNat % 8 = 0 → s.limCell c a.toNat 64 true = some k →
      ((s.domTakes 6 = false ∨ s.restarting Src.ciph = true ∨ s.bit (R.ciphLaqCfg q) F.ciphLaqCfg_en = false) →
        limPuts s (.creq c x rd ra rb) c x rd 2) ∧
      (s.domTakes 6 = true → s.restarting Src.ciph = false → s.bit (R.ciphLaqCfg q) F.ciphLaqCfg_en = true →
        (s.bit (R.ciphLaqCfg q) F.ciphLaqCfg_src = true → limPuts s (.creq c x rd ra rb) c x rd 3) ∧
        (s.bit (R.ciphLaqCfg q) F.ciphLaqCfg_src = false → 256 ≤ (s.look q).length → limPuts s (.creq c x rd ra rb) c x rd 1) ∧
        (s.bit (R.ciphLaqCfg q) F.ciphLaqCfg_src = false → (s.look q).length < 256 →
          ∃ t r, exec (.creq c x rd ra rb) s = .next t ∧ t.look q = s.look q ++ [r] ∧ t.ciph.waiting = s.ciph.waiting ++ [r] ∧
            r.who = .look q ∧
            r.op = bitsOf (beNat (s.readBytes k 8)) 63 62 ∧ r.slot = bitsOf (beNat (s.readBytes k 8)) 59 48 ∧ r.submitter = c.val ∧
              r.recAddr = a.toNat + 64 ∧
            r.reply = (if bitOf b.toNat 16 then none else some ((cl.sentBase + bitsOf b.toNat 15 8) % 65536)) ∧ (t.ctx c x).gr rd = 0 ∧
              gregsKept (s.ctx c x) (t.ctx c x) rd ∧ (t.ctx c x).pc = (s.ctx c x).pc + 1 ∧ ctxKept s t c x ∧ memKept s t ∧
            unitsKept s t [0xA0 + c.val]))) ∧
    (s.standsAt c x cl (.creq rd ra rb) → (cl.block = true ∧ bitOf b.toNat 16 = false ∨ cl.block = false ∧
      cl.sentLenM1 < bitsOf b.toNat 15 8) →
      limFaults s (.creq c x rd ra rb) c x cl 6) ∧
    (s.standsAt c x cl (.creq rd ra rb) → (cl.block = true → bitOf b.toNat 16 = true) →
      (cl.block = false → bitsOf b.toNat 15 8 ≤ cl.sentLenM1) →
      bitsOf b.toNat 7 6 = 0 → b.toNat < 2 ^ 17 → a.toNat % 8 ≠ 0 →
      limFaults s (.creq c x rd ra rb) c x cl 3)

/-- The doorbell sets TAIL. A fetch of a running ring takes its block into the lowest free slot of the store and moves HEAD by one; a
bus error or a misaligned entry stops the ring in BROKEN with its cause and the CMD_BROKEN event, HEAD in place. CMD_BASE is ignored
while EN is 1 or a fetch runs, else taken with the ring emptied; EN = 1 starts a stopped ring, EN = 0 stops it. A waiting completion
record is written at TAIL of a ring with room, TAIL moves and the CPL event is raised; with the ring full or EN 0 it waits. The
host's HEAD is taken. SET_AREA and LOAD show RUNNING, and do nothing else, while a core has an active bank loaded; else they set the
area, or the image's offset and start the loader.
Where it rests on the model's own reading or choice, that is log entries 115 and 163. -/
def Obligations.RingsAndProgramLoad : Prop :=
  ∀ (s : State) (v : Word),
    (∃ t : State, exec (.cmdDoorbell v) s = .next t ∧ t.fld R.gateCmdIdx F.gateCmdIdx_tail = v.toNat % 2 ^ 16 ∧
      t.fld R.gateCmdIdx F.gateCmdIdx_head = s.fld R.gateCmdIdx F.gateCmdIdx_head ∧ memKept s t ∧ regsKept s t [R.gateCmdIdx]) ∧
    (∀ (err poisoned : Bool) (h : List Word) (code : List (BitVec 32)),
      (s.host.fetching = false → s.cmdFetches = false → exec (.cmdFetch err poisoned v h code) s = .next s) ∧
      ((s.host.fetching = true ∨ s.cmdFetches = true) → s.clusterUp 0 = true →
        (∀ cause, (err = true ∧ cause = 1 ∨ err = false ∧ v.toNat % 64 ≠ 0 ∧ cause = 2) →
          ∃ t : State, exec (.cmdFetch err poisoned v h code) s = .next t ∧ t.bit R.gateEvent F.gateEvent_cmdBroken = true ∧
            t.lsch = s.lsch ∧
            (err = true → counted s t R.pcieErrCounts (if poisoned then F.pcieErrCounts_poisoned else F.pcieErrCounts_urCa)) ∧
              memKept s t ∧
            (s.bit R.gateStatus F.gateStatus_cmdEnPending = false → t.fld R.gateStatus F.gateStatus_cmdState = 2 ∧
              t.fld R.gateStatus F.gateStatus_cmdCause = cause ∧ regsKept s t [R.gateStatus, R.gateEvent, R.pcieErrCounts])) ∧
        (∀ n : Nat, err = false → v.toNat % 64 = 0 → n < 256 → (∀ b ∈ s.lsch.store, b.slot ≠ n) →
          (∀ m, m < n → ∃ b ∈ s.lsch.store, b.slot = m) →
          ∃ t b, exec (.cmdFetch err poisoned v h code) s = .next t ∧ t.lsch.store = s.lsch.store ++ [b] ∧ b.slot = n ∧
            b.seq = bitsOf (h.getD 0 0).toNat 63 32 ∧
            b.subject = bitsOf (h.getD 0 0).toNat 31 20 ∧ b.prio = bitsOf (h.getD 0 0).toNat 19 17 ∧
              b.immediate = bitOf (h.getD 0 0).toNat 16 ∧
            b.sec = bitsOf (h.getD 0 0).toNat 15 12 ∧ b.frame = bitsOf (h.getD 1 0).toNat 47 0 ∧
              b.args = [h.getD 3 0, h.getD 4 0, h.getD 5 0, h.getD 6 0] ∧
            b.ready = false ∧ t.fld R.gateCmdIdx F.gateCmdIdx_head = (s.fld R.gateCmdIdx F.gateCmdIdx_head + 1) % s.cmdSize ∧
              memKept s t ∧
            (s.bit R.gateStatus F.gateStatus_cmdEnPending = false → regsKept s t [R.gateCmdIdx])))) ∧
    ((s.bit R.gateCmdCtl F.gateCmdCtl_en = true ∨ s.host.fetching = true) → exec (.cmdCtlWrite true v) s = .next s) ∧
    (s.bit R.gateCmdCtl F.gateCmdCtl_en = false → s.host.fetching = false →
      (∃ t : State, exec (.cmdCtlWrite true v) s = .next t ∧ t.reg R.gateCmdBase = v ∧ t.reg R.gateCmdIdx = 0 ∧ memKept s t ∧
        regsKept s t [R.gateCmdBase, R.gateCmdIdx]) ∧
      (bitOf v.toNat 63 = true → ∃ t : State, exec (.cmdCtlWrite false v) s = .next t ∧ t.bit R.gateCmdCtl F.gateCmdCtl_en = true ∧
        t.fld R.gateCmdCtl F.gateCmdCtl_log2Size = bitsOf v.toNat 3 0 ∧ t.fld R.gateStatus F.gateStatus_cmdState = 1 ∧
          t.fld R.gateStatus F.gateStatus_cmdCause = 0 ∧
        (bitsOf v.toNat 3 0 = s.fld R.gateCmdCtl F.gateCmdCtl_log2Size → t.reg R.gateCmdIdx = s.reg R.gateCmdIdx) ∧
        (bitsOf v.toNat 3 0 ≠ s.fld R.gateCmdCtl F.gateCmdCtl_log2Size → t.reg R.gateCmdIdx = 0) ∧ memKept s t ∧
        regsKept s t [R.gateCmdCtl, R.gateStatus, R.gateCmdIdx])) ∧
    (bitOf v.toNat 63 = false →
      ∃ t : State, exec (.cmdCtlWrite false v) s = .next t ∧ t.bit R.gateCmdCtl F.gateCmdCtl_en = false ∧
        (s.fld R.gateStatus F.gateStatus_cmdState ≠ 2 → t.fld R.gateStatus F.gateStatus_cmdState = 0) ∧ memKept s t ∧
        regsKept s t [R.gateCmdCtl, R.gateStatus, R.gateCmdIdx] ∧
        (s.bit R.gateCmdCtl F.gateCmdCtl_en = true →
          t.fld R.gateCmdCtl F.gateCmdCtl_log2Size = s.fld R.gateCmdCtl F.gateCmdCtl_log2Size ∧
          t.reg R.gateCmdIdx = s.reg R.gateCmdIdx)) ∧
    (∀ k : Nat, k = s.fld R.gateCplIdx F.gateCplIdx_tail →
      ((s.lsch.cpl = [] ∨ s.bit R.gateCplCtl F.gateCplCtl_en = false ∨
        (k + 1) % s.cplSize = s.fld R.gateCplIdx F.gateCplIdx_head % s.cplSize) →
        exec .cplRecordWrite s = .next s) ∧
      (∀ w l, s.lsch.cpl = w :: l → s.bit R.gateCplCtl F.gateCplCtl_en = true →
        (k + 1) % s.cplSize ≠ s.fld R.gateCplIdx F.gateCplIdx_head % s.cplSize →
        ∃ t o, exec .cplRecordWrite s = .next t ∧ t.lsch.cpl = l ∧ t.fld R.gateCplIdx F.gateCplIdx_tail = (k + 1) % s.cplSize ∧
          t.host.out = s.host.out ++ .write 0 ((s.reg R.gateCplBase).toNat / 32 * 32 + 32 * k) (w.flatMap (fun x => beBytes 8 x.toNat)) :: o ∧
          t.bit R.gateEvent F.gateEvent_cpl = true ∧ memKept s t ∧ regsKept s t [R.gateCplIdx, R.gateEvent])) ∧
    (∃ t : State, exec (.cplHeadWrite v) s = .next t ∧ t.fld R.gateCplIdx F.gateCplIdx_head = v.toNat % 2 ^ 16 ∧ memKept s t ∧
      regsKept s t [R.gateCplIdx]) ∧
    (s.anyActive = true → ∀ i ∈ [Instr.plSetArea v, .plLoad v],
      ∃ t : State, exec i s = .next t ∧ t.fld R.gatePlStatus F.gatePlStatus_status = 5 ∧ t.lsch = s.lsch ∧ memKept s t ∧
        regsKept s t [R.gatePlCtl, R.gatePlStatus]) ∧
    (s.anyActive = false → s.domOn 1 = true →
      (∀ g, g = min 8 (bitsOf v.toNat 39 36) → s.fld R.qmHbmCfg F.qmHbmCfg_upGib + g + 4 ≤ s.hbmGib →
        s.hbmUsed .dn ≤ (s.hbmGib - s.fld R.qmHbmCfg F.qmHbmCfg_upGib - g) * cellsPerGib →
        ∃ t : State, exec (.plSetArea v) s = .next t ∧ t.areaGib = g ∧ memKept s t ∧
          regsKept s t [R.gatePlCtl, R.gatePlStatus, R.lschHbmArea]) ∧
      (s.lsch.loading = false → s.clusterUp 0 = true →
        ∃ t : State, exec (.plLoad v) s = .next t ∧ t.fld R.lschImgAddr F.lschImgAddr_offset = bitsOf v.toNat 32 0 ∧
          t.lsch.loading = true ∧
          t.fld R.lschLoadCtl F.lschLoadCtl_status = 1 ∧ memKept s t ∧
            regsKept s t [R.gatePlCtl, R.gatePlStatus, R.lschImgAddr, R.lschLoadCtl]))

/-- PERST_N returns GATE, DMA and PCIE to their reset values and trains the link; with every channel idle nothing else changes. A
function-level reset puts the function's channels in IDLE with their shadow sets at reset, and keeps the others. The link up is
shown, its speed at most MAX_SPEED; going down breaks every channel not IDLE with cause 5, a function's loss of bus mastering its
channels with 6. VFs are counted as enabled; disabling them gives their channels back to the PF, IDLE. A channel that is idle,
stopped or broken takes an owner that exists, any other write is refused. A holdoff's end sends one message for merged events. A
ring's HEAD is taken. A timeout is counted, breaking a channel that was reading a descriptor or a flag word, or the command ring,
with cause 1.
Where it rests on the model's own reading or choice, that is log entry 120. -/
def Obligations.FunctionsLinkAndInterrupts : Prop :=
  ∀ (s : State),
    (∃ t : State, exec .perstN s = .next t ∧ (∀ a, unitOf a ∈ [0x00, 0x98, 0x99] → t.reg a = regReset a) ∧ t.host.training = true ∧
      t.host.ready = false ∧
      t.host.fetching = false ∧ (∀ c, t.chan c = {}) ∧ t.host.out = s.host.out ∧ t.lsch = s.lsch ∧ memKept s t ∧
      ((∀ c : Fin 512, s.chState c = 0) → unitsKept s t [0x00, 0x98, 0x99])) ∧
    (∀ f : Fin 64, ∃ t : State, exec (.functionLevelReset f) s = .next t ∧
      (∀ c : Fin 512, s.chOwner c = f.val → t.chState c = 0 ∧ t.chan c = {} ∧ t.reg (R.dmaChCfg c) = regReset (R.dmaChCfg c) ∧
        t.reg (R.dmaChHead c) = regReset (R.dmaChHead c) ∧ t.chOwner c = f.val) ∧
      (∀ c : Fin 512, s.chOwner c ≠ f.val → t.reg (R.dmaChStatus c) = s.reg (R.dmaChStatus c) ∧
        t.reg (R.dmaChCfg c) = s.reg (R.dmaChCfg c) ∧ t.chan c = s.chan c) ∧
      t.lsch = s.lsch ∧ memKept s t ∧ unitsKept s t [0x04, 0x91, 0x98]) ∧
    (∃ t : State, exec .pcieReady s = .next t ∧ t.host.ready = true ∧ t.host.training = false ∧ memKept s t ∧ regsKept s t []) ∧
    (∀ (sp : Fin 8) (w : Fin 17) (fl : Bool), s.restarting Src.pcie = false →
      ∃ t : State, exec (.pcieLinkUp sp w fl) s = .next t ∧ t.bit R.pcieStatus F.pcieStatus_dlUp = true ∧
        t.fld R.pcieStatus F.pcieStatus_speed = min sp.val (s.fld R.pcieCfg F.pcieCfg_maxSpeed) ∧
        t.fld R.pcieStatus F.pcieStatus_width = w.val ∧ t.bit R.pcieStatus F.pcieStatus_flit = fl ∧ memKept s t ∧
          regsKept s t [R.pcieStatus]) ∧
    (∃ t : State, exec .pcieLinkDown s = .next t ∧ t.bit R.pcieStatus F.pcieStatus_dlUp = false ∧
      (∀ c : Fin 512, (s.chState c = 0 → t.reg (R.dmaChStatus c) = s.reg (R.dmaChStatus c)) ∧
        (s.chState c ≠ 0 → t.chState c = 7 ∧ t.fld (R.dmaChStatus c) F.dmaChStatus_cause = 5)) ∧ memKept s t ∧
          unitsKept s t [0x04, 0x91, 0x98, 0x99]) ∧
    (∀ f : Fin 64, ∃ t : State, exec (.bmeClear f) s = .next t ∧
      (∀ c : Fin 512, ((s.chState c = 0 ∨ s.chOwner c ≠ f.val) → t.reg (R.dmaChStatus c) = s.reg (R.dmaChStatus c)) ∧
        (s.chState c ≠ 0 → s.chOwner c = f.val → t.chState c = 7 ∧ t.fld (R.dmaChStatus c) F.dmaChStatus_cause = 6)) ∧ memKept s t ∧
          unitsKept s t [0x04, 0x91, 0x98]) ∧
    (∀ n : Fin 64, ∃ t : State, exec (.vfEnable n) s = .next t ∧ t.fld R.pcieStatus F.pcieStatus_numVfs = n.val ∧ memKept s t ∧
      regsKept s t [R.pcieStatus]) ∧
    (∃ t : State, exec .vfDisable s = .next t ∧ t.fld R.pcieStatus F.pcieStatus_numVfs = 0 ∧
      (∀ c : Fin 512, t.chOwner c = 0 ∧ (s.chOwner c ≠ 0 → t.chState c = 0) ∧
        (s.chOwner c = 0 → t.reg (R.dmaChStatus c) = s.reg (R.dmaChStatus c))) ∧
      memKept s t ∧ unitsKept s t [0x00, 0x04, 0x91, 0x98, 0x99]) ∧
    (∀ (c : Fin 512) (v : Word),
      ((s.chState c = 0 ∨ s.chState c = 6 ∨ s.chState c = 7) → v.toNat % 64 ≤ s.fld R.pcieStatus F.pcieStatus_numVfs →
        ∃ t : State, exec (.chOwnerWrite c v) s = .next t ∧ t.chOwner c = v.toNat % 64 ∧ memKept s t ∧ regsKept s t [R.gateChOwner c]) ∧
      ((1 ≤ s.chState c ∧ s.chState c ≤ 5 ∨ s.fld R.pcieStatus F.pcieStatus_numVfs < v.toNat % 64) →
        ∃ t : State, exec (.chOwnerWrite c v) s = .next t ∧ t.bit R.gateStatus F.gateStatus_ownerRefused = true ∧
          t.chOwner c = s.chOwner c ∧ memKept s t ∧
          regsKept s t [R.gateStatus])) ∧
    (∀ c : Fin 512,
      ((s.chan c).holdoff = true → (s.chan c).merged = true →
        ∃ t : State, exec (.irqHoldoffExpiry c) s = .next t ∧
          t.host.out = s.host.out ++ [.msix (s.chOwner c) (s.fld (R.dmaChActCfg c) F.dmaChActCfg_vector)] ∧
          (t.chan c).merged = false ∧ memKept s t ∧ regsKept s t []) ∧
      (((s.chan c).holdoff = false ∨ (s.chan c).merged = false) → ∃ t : State, exec (.irqHoldoffExpiry c) s = .next t ∧
        t.host.out = s.host.out ∧ (t.chan c).holdoff = false ∧ memKept s t ∧ regsKept s t []) ∧
      (∀ v : Word, ∃ t : State, exec (.chRingHeadWrite c v) s = .next t ∧
        t.fld (R.dmaChRingIdx c) F.dmaChRingIdx_head = v.toNat % 2 ^ 16 ∧
        memKept s t ∧ regsKept s t [R.dmaChRingIdx c] ∧ ((s.chan c).recs = [] → t.host = s.host)) ∧
      ((s.chState c = 1 ∨ s.chState c = 2 ∨ s.chState c = 3) → ((s.chan c).fetching = true ∨ (s.chan c).checking = true) →
        (s.chan c).held = false →
        ∃ t : State, exec (.completionTimeout (some c)) s = .next t ∧ counted s t R.pcieErrCounts F.pcieErrCounts_timeouts ∧
          t.chState c = 7 ∧
          t.fld (R.dmaChStatus c) F.dmaChStatus_cause = 1 ∧ memKept s t ∧ regsKept s t [R.pcieErrCounts, R.dmaChStatus c])) ∧
    (∀ c : Option (Fin 512), ∃ t : State, exec (.completionTimeout c) s = .next t ∧
      counted s t R.pcieErrCounts F.pcieErrCounts_timeouts ∧ memKept s t) ∧
    (s.cmdFetches = true → s.bit R.gateStatus F.gateStatus_cmdEnPending = false →
      ∃ t : State, exec (.completionTimeout none) s = .next t ∧ counted s t R.pcieErrCounts F.pcieErrCounts_timeouts ∧
        t.fld R.gateStatus F.gateStatus_cmdState = 2 ∧
        t.fld R.gateStatus F.gateStatus_cmdCause = 1 ∧ memKept s t ∧ regsKept s t [R.pcieErrCounts, R.gateStatus, R.gateEvent])

/-- START of an idle, stopped or broken channel copies its shadow set, makes it RUNNING and reads the descriptor at HEAD; of a stopping
one it is held; of any other, or for HCH 7, it is refused. PAUSE of a running or parked channel drains it, RESUME takes a paused one
back, STOP stops one, and each is refused elsewhere. A doorbell is noted and starts the chain check of a parked channel. The check
of a running channel with END set parks it with an interrupt, or checks again for a doorbell; with END clear it goes on at NEXT; a
failed read breaks the channel and is counted. A drain ends PAUSED, or STOPPED, its descriptor written back ABORTED (4), and then
RUNNING where a START was held; a packet still offered to its pipe holds it back.
Where it rests on the model's own reading or choice, that is log entries 116, 119, 125 and 187. -/
def Obligations.ChannelStates : Prop :=
  ∀ (s : State) (c : Fin 512) (st : Nat), s.chState c = st →
    (s.fld (R.dmaChCfg c) F.dmaChCfg_hch ≠ 7 → (st = 0 ∨ st = 6 ∨ st = 7) →
      ∃ t : State, exec (.chStart c) s = .next t ∧ t.chState c = 1 ∧ t.reg (R.dmaChActCfg c) = s.reg (R.dmaChCfg c) ∧
        t.reg (R.dmaChActRing c) = s.reg (R.dmaChRing c) ∧
        t.chCur c = (s.reg (R.dmaChHead c)).toNat / 64 * 64 ∧ t.chDone c = 0 ∧ (t.chan c).fetching = true ∧ (t.chan c).desc = none ∧
        t.fld (R.dmaChStatus c) F.dmaChStatus_cause = 0 ∧ (∀ d : Fin 512, d ≠ c → t.chan d = s.chan d) ∧ memKept s t ∧
        regsKept s t [R.dmaChActCfg c, R.dmaChActHead c, R.dmaChActRing c, R.dmaChActRingCfg c, R.dmaChActTailwb c, R.dmaChStatus c,
          R.dmaChCur c, R.dmaChDone c]) ∧
    (s.fld (R.dmaChCfg c) F.dmaChCfg_hch ≠ 7 → st = 5 → ∃ t : State, exec (.chStart c) s = .next t ∧
      t.bit (R.dmaChStatus c) F.dmaChStatus_startPending = true ∧
      t.chState c = 5 ∧ memKept s t ∧ regsKept s t [R.dmaChStatus c]) ∧
    (∀ i : Instr, (i = Instr.chStart c ∧ (s.fld (R.dmaChCfg c) F.dmaChCfg_hch = 7 ∨ 1 ≤ st ∧ st ≤ 4)) ∨
      (i = .chPause c ∧ st ≠ 1 ∧ st ≠ 2) ∨ (i = .chResume c ∧ st ≠ 4) ∨
        (i = .chStop c ∧ (st = 0 ∨ st = 6 ∨ st = 7)) →
      ∃ t : State, exec i s = .next t ∧ t.bit (R.dmaChStatus c) F.dmaChStatus_opRefused = true ∧ t.chState c = st ∧ t.host = s.host ∧
        memKept s t ∧
        regsKept s t [R.dmaChStatus c]) ∧
    ((st = 1 ∨ st = 2) → ∃ t : State, exec (.chPause c) s = .next t ∧ t.chState c = 3 ∧ (t.chan c).wasParked = (st == 2) ∧
      (t.chan c).desc = (s.chan c).desc ∧ memKept s t ∧
      regsKept s t [R.dmaChStatus c]) ∧
    (st = 4 → ∃ t : State, exec (.chResume c) s = .next t ∧ t.chState c = (if (s.chan c).wasParked then 2 else 1) ∧
      ((s.chan c).wasParked = true → (t.chan c).checking = true) ∧ memKept s t ∧ regsKept s t [R.dmaChStatus c]) ∧
    ((1 ≤ st ∧ st ≤ 4) → ∃ t : State, exec (.chStop c) s = .next t ∧ t.chState c = 5 ∧ t.host = s.host ∧ memKept s t ∧
      regsKept s t [R.dmaChStatus c]) ∧
    (st = 5 → ∃ t : State, exec (.chStop c) s = .next t ∧ t.bit (R.dmaChStatus c) F.dmaChStatus_startPending = false ∧ t.chState c = 5 ∧
      t.host = s.host ∧ memKept s t ∧
      regsKept s t [R.dmaChStatus c]) ∧
    ((st ≠ 2 ∨ (s.chan c).checking = true) → ∃ t : State, exec (.chDoorbell c) s = .next t ∧
      t.bit (R.dmaChStatus c) F.dmaChStatus_dbPending = true ∧ t.host = s.host ∧ t.chState c = st ∧ memKept s t ∧
      regsKept s t [R.dmaChStatus c]) ∧
    (st = 2 → (s.chan c).checking = false → ∃ t : State, exec (.chDoorbell c) s = .next t ∧
      t.bit (R.dmaChStatus c) F.dmaChStatus_dbPending = false ∧
      (t.chan c).checking = true ∧ t.chState c = 2 ∧ memKept s t ∧ regsKept s t [R.dmaChStatus c]) ∧
    ((s.chan c).checking = true → (s.chan c).held = false → (st = 1 ∨ st = 2 ∨ st = 3) → ∀ (poisoned : Bool) (x : Option Word),
      (s.bit (R.dmaChStatus c) F.dmaChStatus_dbPending = false →
        ∃ t : State, exec (.chainEndCheck c (some true) x poisoned) s = .next t ∧ t.chState c = (if st = 1 then 2 else st) ∧
          (t.chan c).checking = false ∧
          (st = 1 → (s.chan c).holdoff = false →
            t.host.out = s.host.out ++ [.msix (s.chOwner c) (s.fld (R.dmaChActCfg c) F.dmaChActCfg_vector)]) ∧
          (st ≠ 1 → t.host.out = s.host.out) ∧ memKept s t ∧ regsKept s t [R.dmaChStatus c]) ∧
      (s.bit (R.dmaChStatus c) F.dmaChStatus_dbPending = true →
        ∃ t : State, exec (.chainEndCheck c (some true) x poisoned) s = .next t ∧ t.chState c = st ∧ (t.chan c).checking = true ∧
          t.bit (R.dmaChStatus c) F.dmaChStatus_dbPending = false ∧ memKept s t ∧ regsKept s t [R.dmaChStatus c]) ∧
      (∀ a : Word, ∃ t : State, exec (.chainEndCheck c (some false) (some a) poisoned) s = .next t ∧
        t.chState c = (if st = 3 then 3 else 1) ∧
        t.chCur c = a.toNat / 64 * 64 ∧ (t.chan c).fetching = true ∧ (t.chan c).checking = false ∧ memKept s t ∧
        regsKept s t [R.dmaChStatus c, R.dmaChCur c, R.dmaChDone c]) ∧
      (∀ e ∈ [(none, x, 1), (some false, none, 2)], ∃ t : State, exec (.chainEndCheck c e.1 e.2.1 poisoned) s = .next t ∧
        t.chState c = 7 ∧
        t.fld (R.dmaChStatus c) F.dmaChStatus_cause = e.2.2 ∧
          counted s t R.pcieErrCounts (if poisoned then F.pcieErrCounts_poisoned else F.pcieErrCounts_urCa) ∧
        memKept s t ∧ regsKept s t [R.dmaChStatus c, R.pcieErrCounts])) ∧
    ((s.chan c).checking = false → ∀ e a d, exec (.chainEndCheck c e a d) s = .next s) ∧
    (∀ x : Transfer,
      ((s.chan c).offer = none → st = 3 → ∃ t : State, exec (.chDrainDone c x) s = .next t ∧ t.chState c = 4 ∧
        (t.chan c).desc = (s.chan c).desc ∧
        ((s.chan c).desc = none → memKept s t ∧ regsKept s t [R.dmaChStatus c])) ∧
      ((s.chan c).offer = none → st = 5 → x.wbFail = false → x.ringFail = false →
        (s.bit (R.dmaChStatus c) F.dmaChStatus_startPending = false → ∃ t : State, exec (.chDrainDone c x) s = .next t ∧
          t.chState c = 6 ∧
          (t.chan c).desc = none ∧ (t.chan c).fetching = false ∧ (t.chan c).checking = false ∧
          (∀ w, (s.chan c).desc = some w →
            ∃ b, HostOut.write (s.chOwner c) (s.chCur c + 40) b ∈ t.host.out ∧ bitsOf (beNat (b.take 8)) 59 56 = 4) ∧
          ((s.chan c).desc = none → memKept s t ∧ regsKept s t [R.dmaChStatus c])) ∧
        (s.bit (R.dmaChStatus c) F.dmaChStatus_startPending = true → ∃ t : State, exec (.chDrainDone c x) s = .next t ∧
          t.chState c = 1 ∧
          t.bit (R.dmaChStatus c) F.dmaChStatus_startPending = false ∧ t.chCur c = (s.reg (R.dmaChHead c)).toNat / 64 * 64 ∧
            (t.chan c).fetching = true)) ∧
      (((s.chan c).offer ≠ none ∨ st ≠ 3 ∧ st ≠ 5) → exec (.chDrainDone c x) s = .next s))

/-- A descriptor read that fails breaks the channel with cause 1; one that breaks a rule of R444 is written back BAD_DESC (3), and a NOP
at once with 0; any other starts its transfer. A COPY from the host to device space stores its bytes at its destination, and one to
the host sends them, before the writeback with its length; addresses outside device space end 6; a COPY waits for its turns on the
link. A PKT_TX packet read whole enters the pipe of its host channel and is written back 0, or waits while the pipe is full, or ends
5, a POOL_FULL drop, where no cells are free. A receive buffer gets the next part of its packet, its writeback marking the first and
the last, with the packet's metadata before the last. A CRYPTO descriptor joins its lookaside queue, waiting while that holds 256.
Each writeback counts, goes to the host at the descriptor, and the channel checks its chain where END is set, else reads NEXT.
Where it rests on the model's own reading or choice, that is log entries 117, 118, 121 and 124. -/
def Obligations.DescriptorsRunAndWriteBack : Prop :=
  ∀ (s : State) (c : Fin 512) (w : List Word), s.chWorks c = true →
    (∀ (x : Option (List Word)) (p f r : Bool), ((s.chan c).fetching = false ∨ (s.chan c).held = true) →
      exec (.descFetch c x p f r) s = .next s) ∧
    ((s.chan c).fetching = true → (s.chan c).held = false → (s.chan c).recs = [] → w.length = 8 → ∀ poisoned r : Bool,
      (∀ f : Bool, ∃ t : State, exec (.descFetch c none poisoned f r) s = .next t ∧ t.chState c = 7 ∧
        t.fld (R.dmaChStatus c) F.dmaChStatus_cause = 1 ∧
        counted s t R.pcieErrCounts (if poisoned then F.pcieErrCounts_poisoned else F.pcieErrCounts_urCa) ∧
          (t.chan c).fetching = false ∧ memKept s t ∧
        unitsKept s t [0x98, 0x99]) ∧
      (∀ e : Nat, (e = 3 ∧ dBad (s.chKind c) w = true) ∨ (e = 0 ∧ dBad (s.chKind c) w = false ∧ dOp w = 0) →
        ∃ t : State, exec (.descFetch c (some w) poisoned false false) s = .next t ∧ wroteBack s t c w [] 40 0 e 0 ∧ memKept s t ∧
          unitsKept s t [0x98]) ∧
      (dBad (s.chKind c) w = true → ∃ t : State, exec (.descFetch c (some w) poisoned true r) s = .next t ∧ t.chState c = 7 ∧
        t.fld (R.dmaChStatus c) F.dmaChStatus_cause = 3 ∧ memKept s t ∧ unitsKept s t [0x98]) ∧
      (∀ f : Bool, dBad (s.chKind c) w = false → dOp w = 1 →
        ∃ t : State, exec (.descFetch c (some w) poisoned f r) s = .next t ∧ (t.chan c).desc = some (w.take 5) ∧
          (t.chan c).fetching = false ∧
          t.chState c = s.chState c ∧ t.host.out = s.host.out ∧ memKept s t ∧ unitsKept s t [0x98])) ∧
    (∀ x : Transfer, (s.chan c).desc = none → exec (.descDone c x) s = .next s) ∧
    (∀ x : Transfer, (s.chan c).desc = some w → x.wbFail = false → x.ringFail = false →
      (s.chKind c = 0 → x.status = 0 → s.copyOk c w = true → (∃ u, s.linkTake c (dLen w - s.chDone c) = some (dLen w - s.chDone c, u)) →
        (∃ (t : State) (pre : List HostOut), exec (.descDone c x) s = .next t ∧
          wroteBack s t c w pre 40 0 0 (s.chDone c + (dLen w - s.chDone c)) ∧
          unitsKept s t [0x98]) ∧
        (∀ k : Nat, s.chDone c = 0 → dParam w = 1 → s.devCell c (dDst w) (dLen w) = some k → 0 < dLen w → x.data.length = dLen w →
          ∃ t : State, exec (.descDone c x) s = .next t ∧ t.readBytes k (dLen w) = x.data ∧
            (∀ a, (a < k ∨ k + dLen w ≤ a) → t.cell a = s.cell a) ∧
            wroteBack s t c w [] 40 0 0 (dLen w)) ∧
        (∀ k : Nat, s.chDone c = 0 → dParam w = 4 → s.devCell c (dSrc w) (dLen w) = some k → 0 < dLen w →
          ∃ t : State, exec (.descDone c x) s = .next t ∧
            wroteBack s t c w [.write (s.chOwner c) (dDst w) (s.readBytes k (dLen w))] 40 0 0 (dLen w) ∧ memKept s t)) ∧
      (s.chKind c = 0 → s.copyOk c w = false →
        ∃ t : State, exec (.descDone c x) s = .next t ∧ wroteBack s t c w [] 40 0 6 (s.chDone c) ∧ memKept s t ∧ unitsKept s t [0x98]) ∧
      (s.chKind c = 1 → x.status ≠ 0 → x.status < 16 → (s.chan c).offer = none →
        ∃ t : State, exec (.descDone c x) s = .next t ∧ wroteBack s t c w [] 40 0 x.status x.moved ∧ memKept s t ∧
          unitsKept s t [0x98, 0x99]) ∧
      (∀ (p : Pkt) (n : Nat), s.chKind c = 2 → x.status = 0 → (s.chan c).rx = some (p, n) → n < p.bytes.length →
        s.turnsFor c (min (dLen w) (p.bytes.length - n)) →
        (n + dLen w < p.bytes.length → ∃ t : State, exec (.descDone c x) s = .next t ∧
          wroteBack s t c w [.write (s.chOwner c) (dDst w) ((p.bytes.drop n).take (dLen w))] 40 (if n = 0 then 2 else 0) 0 (dLen w) ∧
          (t.chan c).rx = some (p, n + dLen w) ∧ memKept s t ∧ unitsKept s t [0x98]) ∧
        (p.bytes.length ≤ n + dLen w → ∃ t : State, exec (.descDone c x) s = .next t ∧
          wroteBack s t c w [.write (s.chOwner c) (dDst w) (p.bytes.drop n)] 32 (if n = 0 then 3 else 1) 0 (p.bytes.length - n) ∧
          (t.chan c).rx = none ∧ memKept s t ∧ unitsKept s t [0x98])) ∧
      (∀ q : Nat, s.chKind c = 3 → x.status = 0 → q = s.fld (R.dmaChActCfg c) F.dmaChActCfg_laq → s.domTakes 6 = true →
        s.bit (R.ciphLaqCfg q) F.ciphLaqCfg_en = true →
        s.bit (R.ciphLaqCfg q) F.ciphLaqCfg_src = true → s.fld (R.ciphLaqCfg q) F.ciphLaqCfg_dmaCh = c →
        (256 ≤ s.laLevel q → exec (.descDone c x) s = .next s) ∧
        (s.laLevel q < 256 → s.restarting Src.ciph = false → s.turnsFor c 64 → ∃ t : State, exec (.descDone c x) s = .next t ∧
          t.laLevel q = s.laLevel q + 1 ∧ wroteBack s t c w [] 40 0 0 64 ∧ memKept s t ∧ unitsKept s t [0x98, 0x99])) ∧
      (∀ q : Nat, s.chKind c = 3 → x.status = 0 → q = s.fld (R.dmaChActCfg c) F.dmaChActCfg_laq →
        (s.domTakes 6 = false ∨ s.bit (R.ciphLaqCfg q) F.ciphLaqCfg_en = false ∨ s.bit (R.ciphLaqCfg q) F.ciphLaqCfg_src = false ∨
          s.fld (R.ciphLaqCfg q) F.ciphLaqCfg_dmaCh ≠ c) →
        ∃ t : State, exec (.descDone c x) s = .next t ∧ wroteBack s t c w [] 40 0 6 0 ∧ t.ciph = s.ciph ∧ memKept s t ∧
          unitsKept s t [0x98])) ∧
    (∀ (data : List Byte) (d : Dir), (s.chan c).desc = some w → s.chKind c = 1 →
      ((s.chan c).offer = none → d = (if bitOf (dParam w) 0 then .dn else .up) → data.length = dLen w → s.turnsFor c (dLen w) →
        (s.restarting Src.qm = false → (s.domTakes 5 = false ∨ s.dieFree d < cellsOf (dLen w)) →
          ∃ t : State, exec (.pktTxInject c data false false) s = .next t ∧ wroteBack s t c w [] 40 0 5 0 ∧
            counted s t (R.qmDropCount 4) F.qmDropCount_count ∧
            t.cls = s.cls ∧ memKept s t ∧ unitsKept s t [0x91, 0x98]) ∧
        (∀ n : Nat, n = (120 + s.fld (R.dmaChActCfg c) F.dmaChActCfg_hch) % 8 → s.restarting Src.qm = false → s.domTakes 5 = true →
          cellsOf (dLen w) ≤ s.dieFree d →
          (s.pipeFull d n = false →
            ∃ (t : State) (p : Pkt), exec (.pktTxInject c data false false) s = .next t ∧ t.pipe d n = s.pipe d n ++ [p] ∧
              p.bytes = data ∧ p.inject = true ∧
              p.chan = 120 + s.fld (R.dmaChActCfg c) F.dmaChActCfg_hch ∧ t.dieUsed d = s.dieUsed d + cellsOf (dLen w) ∧
              wroteBack s t c w [] 40 0 0 (dLen w) ∧ memKept s t ∧ unitsKept s t [0x93, 0x94, 0x98]) ∧
          (s.pipeFull d n = true → ∀ f r : Bool,
            ∃ (t : State) (p : Pkt), exec (.pktTxInject c data f r) s = .next t ∧ (t.chan c).offer = some p ∧ p.bytes = data ∧
              t.host.out = s.host.out ∧
              t.cls = s.cls ∧ memKept s t ∧ regsKept s t []))) ∧
      (∀ p : Pkt, (s.chan c).offer = some p → s.pipeFull p.dir (pipeOf p) = false →
        ∃ (t : State) (o : Pkt), exec (.pktTxInject c data false false) s = .next t ∧
          t.pipe p.dir (pipeOf p) = s.pipe p.dir (pipeOf p) ++ [o] ∧ o.bytes = p.bytes ∧
          wroteBack s t c w [] 40 0 0 (dLen w) ∧ memKept s t ∧ unitsKept s t [0x93, 0x94, 0x98]))

/-- A request for one domain whose phase is STABLE completes at once where the state is already reached, is refused by 0x02 for
RETENTION of an OFF domain and by its first refuser else, or makes the domain DRAINING (WAITING for ON); completions and refusals
set DOM_CHG and queue a record for Preura. In another phase it becomes the pending one, and the one it replaces is counted ABORTED.
A mask asks for its domains in ascending order. A drained domain goes down under the clamp; a drain that meets its bound with an
item held is aborted and settles. The wake sequencer takes the lowest WAITING domain, and drops one refused at its turn. The
statement also gives refusers of R529 and R530: LIM0 that is off or on its way down refuses LIM1.
Where it rests on the model's own reading or choice, that is log entries 149 and 150. -/
def Obligations.DomainRequests : Prop :=
  ∀ (s : State) (d : Fin 30) (b : Fin 256) (m : BitVec 30), m = 1#30 <<< d.val →
    (∀ x ∈ [(Instr.pwrReqOn b m, 1), (.pwrReqRetention b m, 2), (.pwrReqOff b m, 3)],
      (s.domPhase d = 0 → s.domState d + x.2 = 3 → ∃ t : State, exec x.1 s = .next t ∧ t.bit R.pwrStatus F.pwrStatus_domChg = true ∧
        (s.pwr.log.length < 32 → t.pwr.log = s.pwr.log ++ [(d.val, s.reg (R.pwrDom d), s.stamp 2)]) ∧ memKept s t ∧
          regsKept s t [R.pwrStatus]) ∧
      (∀ u : Nat, s.domPhase d = 0 → s.domState d + x.2 ≠ 3 →
        (if x.2 = 2 ∧ s.domState d = 0 then some 2 else if x.2 = 1 then s.onRefuser d else s.downRefuser d) = some u → u < 256 →
        ∃ t : State, exec x.1 s = .next t ∧ counted s t (R.pwrDom d) F.pwrDom_refused ∧ t.fld (R.pwrDom d) F.pwrDom_lastRefuser = u ∧
          t.domState d = s.domState d ∧
          t.domPhase d = 0 ∧ t.bit R.pwrStatus F.pwrStatus_domChg = true ∧
            (s.pwr.log.length < 32 → t.pwr.log = s.pwr.log ++ [(d.val, t.reg (R.pwrDom d), s.stamp 2)]) ∧
          memKept s t ∧ regsKept s t [R.pwrDom d, R.pwrStatus]) ∧
      (s.domPhase d = 0 → s.domState d + x.2 ≠ 3 →
        (if x.2 = 2 ∧ s.domState d = 0 then some 2 else if x.2 = 1 then s.onRefuser d else s.downRefuser d) = none →
        ∃ t : State, exec x.1 s = .next t ∧ t.domPhase d = (if x.2 = 1 then 3 else 1) ∧ t.fld (R.pwrDom d) F.pwrDom_target = 3 - x.2 ∧
          t.domState d = s.domState d ∧
          t.pwr.log = s.pwr.log ∧ memKept s t ∧ regsKept s t [R.pwrDom d]) ∧
      (s.domPhase d ≠ 0 → ∃ t : State, exec x.1 s = .next t ∧ t.fld (R.pwrDom d) F.pwrDom_pending = x.2 ∧
        t.bit (R.pwrDom d) F.pwrDom_reEnPending = (x.2 == 1 && decide (s.domPhase d < 3)) ∧ t.domPhase d = s.domPhase d ∧
          t.domState d = s.domState d ∧
        (s.fld (R.pwrDom d) F.pwrDom_pending = 0 → t.fld (R.pwrDom d) F.pwrDom_aborted = s.fld (R.pwrDom d) F.pwrDom_aborted ∧
          regsKept s t [R.pwrDom d]) ∧
        (s.fld (R.pwrDom d) F.pwrDom_pending ≠ 0 → counted s t (R.pwrDom d) F.pwrDom_aborted ∧
          t.fld (R.pwrDom d) F.pwrDom_lastRefuser = b ∧
          regsKept s t [R.pwrDom d, R.pwrStatus]) ∧ memKept s t)) ∧
    (∀ k l : BitVec 30, (∀ i j : Nat, k.getLsbD i = true → l.getLsbD j = true → i < j) →
      (∃ t : State, exec (.pwrReqOn b k) s = .next t ∧ exec (.pwrReqOn b (k ||| l)) s = exec (.pwrReqOn b l) t) ∧
      (∃ t : State, exec (.pwrReqRetention b k) s = .next t ∧ exec (.pwrReqRetention b (k ||| l)) s = exec (.pwrReqRetention b l) t) ∧
      (∃ t : State, exec (.pwrReqOff b k) s = .next t ∧ exec (.pwrReqOff b (k ||| l)) s = exec (.pwrReqOff b l) t)) ∧
    (s.fld R.fltStatusF F.fltStatusF_sources ≠ 0 → s.onRefuser d = some 4) ∧
    (s.fld R.fltStatusF F.fltStatusF_sources = 0 → (s.domOn 1 = false ∧ s.domPhase 1 = 0 ∨ s.domPhase 1 = 1 ∨ s.domPhase 1 = 2) →
      s.onRefuser 2 = some 0xA0) ∧
    s.downRefuser 0 = (if s.bit R.pcieStatus F.pcieStatus_dlUp then some 0x99 else none) ∧ s.downRefuser 2 = none ∧
    (s.domState 2 ≠ 0 → s.downRefuser 1 = some 0xC0) ∧
    (∀ p : Fin 24, s.bit (R.medLaneCfg p) F.medLaneCfg_laneEn = true →
      (∀ q, q < p.val → s.bit (R.medLaneCfg q) F.medLaneCfg_laneEn = false) →
      s.downRefuser 8 = some (0x10 + p.val) ∧ s.downRefuser (11 + p.val / 4) = some (0x10 + p.val)) ∧
    (s.domPhase d = 1 → s.holder d = none → ∃ t : State, exec (.domainDrainDone d) s = .next t ∧ t.domPhase d = 2 ∧
      t.domState d = s.domState d ∧
      (∀ x ∈ sourcesOf d, x ∈ t.flt.clamped) ∧ memKept s t ∧ regsKept s t [R.pwrDom d]) ∧
    ((s.domPhase d ≠ 1 ∨ s.holder d ≠ none) → exec (.domainDrainDone d) s = .next s) ∧
    (∀ u : Nat, s.domPhase d = 1 → s.holder d = some u →
      ∃ t : State, exec (.drainAbort d) s = .next t ∧ counted s t (R.pwrDom d) F.pwrDom_aborted ∧ t.domState d = s.domState d ∧
        t.fld (R.pwrDom d) F.pwrDom_pending = 0 ∧ t.bit R.pwrStatus F.pwrStatus_domChg = true ∧ memKept s t ∧
          regsKept s t [R.pwrDom d, R.pwrStatus]) ∧
    (∀ u : Nat, s.domPhase d = 1 → s.domState d = 2 → s.holder d = some u → u < 256 → s.fld (R.pwrDom d) F.pwrDom_pending ≤ 1 →
      ∃ t : State, exec (.drainAbort d) s = .next t ∧ counted s t (R.pwrDom d) F.pwrDom_aborted ∧
        t.fld (R.pwrDom d) F.pwrDom_lastRefuser = u ∧ t.domState d = 2 ∧
        t.domPhase d = 0 ∧ t.fld (R.pwrDom d) F.pwrDom_pending = 0 ∧ t.bit R.pwrStatus F.pwrStatus_domChg = true ∧ memKept s t ∧
        regsKept s t [R.pwrDom d, R.pwrStatus]) ∧
    ((s.domPhase d ≠ 1 ∨ s.holder d = none) → exec (.drainAbort d) s = .next s) ∧
    (s.bit R.pwrStatus F.pwrStatus_seqBusy = true ∨ (∀ e, e < 30 → s.domPhase e ≠ 3) → exec .wakeTurn s = .next s) ∧
    (s.bit R.pwrStatus F.pwrStatus_seqBusy = false → s.domPhase d = 3 → (∀ e, e < d.val → s.domPhase e ≠ 3) →
      (s.onRefuser d = none → ∃ t : State, exec .wakeTurn s = .next t ∧ t.domPhase d = 4 ∧ t.fld R.pwrStatus F.pwrStatus_waking = d ∧
        t.bit R.pwrStatus F.pwrStatus_seqBusy = true ∧ t.domState d = s.domState d ∧ memKept s t ∧
          regsKept s t [R.pwrDom d, R.pwrStatus]) ∧
      (∀ u : Nat, s.onRefuser d = some u → u < 256 → s.fld (R.pwrDom d) F.pwrDom_pending = 0 →
        ∃ t : State, exec .wakeTurn s = .next t ∧ t.domPhase d = 0 ∧ counted s t (R.pwrDom d) F.pwrDom_refused ∧
          t.fld (R.pwrDom d) F.pwrDom_lastRefuser = u ∧
          t.domState d = s.domState d ∧ t.bit R.pwrStatus F.pwrStatus_seqBusy = false ∧ memKept s t ∧
            regsKept s t [R.pwrDom d, R.pwrStatus]))

/-- A domain going down takes its target state; one that ends OFF keeps no register, one in RETENTION every one. A waking domain is ON:
from OFF at its reset values, from RETENTION as it was, with its ready bits set; the clamp goes 1 µs later. A change of VDD_PKT to a
slower point steps its clock first, one to a faster point only when the voltage read back is no more than 10 mV below the fused one;
else the error is latched and counted. A chip reset takes only its key; a reset keeps what R542 keeps, and its release samples the
straps and writes both rails; once both are confirmed the domains wait for their turns. A PLL that loses lock is a class D fault of
the sources of its domains that are ON (CK_MTX apart); references are shown and their losses counted.
Where it rests on the model's own reading or choice, that is log entries 152, 153, 154 and 155. -/
def Obligations.TransitionsPointsResetsAndClocks : Prop :=
  ∀ (s : State) (d : Fin 30),
    (s.domPhase d ≠ 2 → exec (.domainDown d) s = .next s) ∧
    (s.domPhase d = 2 → ∃ t : State, exec (.domainDown d) s = .next t ∧ t.domState d = s.fld (R.pwrDom d) F.pwrDom_target ∧
      t.bit R.pwrStatus F.pwrStatus_domChg = true ∧ t.fld (R.pwrDom d) F.pwrDom_pending = 0) ∧
    (s.domPhase d = 2 → s.fld (R.pwrDom d) F.pwrDom_pending = 0 → ∃ t : State, exec (.domainDown d) s = .next t ∧
      t.domState d = s.fld (R.pwrDom d) F.pwrDom_target ∧
      t.domPhase d = 0 ∧ t.bit R.pwrStatus F.pwrStatus_domChg = true ∧
      (s.fld (R.pwrDom d) F.pwrDom_target ≠ 0 → memKept s t ∧ unitsKept s t [2, 4]) ∧
      (s.fld (R.pwrDom d) F.pwrDom_target = 0 → (d.val < 11 ∨ 16 < d.val) →
        (∀ a, domainOf (unitOf a) = some d.val → t.reg a = regReset a) ∧
        (∀ a, domainOf (unitOf a) ≠ some d.val → unitOf a ≠ 2 → unitOf a ≠ 4 → unitOf a ≠ 5 → t.reg a = s.reg a))) ∧
    (s.domPhase d ≠ 4 → exec (.domainOn d) s = .next s) ∧
    (s.domPhase d = 4 → ∃ t : State, exec (.domainOn d) s = .next t ∧ t.domState d = 2 ∧ t.fld R.pwrStatus F.pwrStatus_waking = 31 ∧
      t.bit R.pwrStatus F.pwrStatus_seqBusy = false ∧ t.bit R.pwrStatus F.pwrStatus_domChg = true ∧
        t.fld (R.pwrDom d) F.pwrDom_pending = 0 ∧
      (∀ x ∈ sourcesOf d, x ∈ t.flt.clamped)) ∧
    (s.domPhase d = 4 → s.fld (R.pwrDom d) F.pwrDom_pending = 0 → s.enrol.startWaiting = false → ∃ t : State,
      exec (.domainOn d) s = .next t ∧ t.domState d = 2 ∧ t.domPhase d = 0 ∧
      t.fld R.pwrStatus F.pwrStatus_waking = 31 ∧ t.bit R.pwrStatus F.pwrStatus_seqBusy = false ∧
        (∀ x ∈ sourcesOf d, x ∈ t.flt.clamped) ∧
      (s.domState d = 0 → (d.val < 11 ∨ 16 < d.val) → (∀ a, domainOf (unitOf a) = some d.val → t.reg a = regReset a) ∧
        (∀ a, domainOf (unitOf a) ≠ some d.val → unitOf a ≠ 2 → unitOf a ≠ 5 → t.reg a = s.reg a)) ∧
      (s.domState d ≠ 0 → (∀ e ∈ readyBits, e.1 = d.val → t.bit e.2.1 e.2.2 = true) ∧ memKept s t ∧
        (∀ a, unitOf a ≠ 2 → a ∉ readyBits.map (fun e => e.2.1) → t.reg a = s.reg a))) ∧
    (s.domOn d = false → exec (.isolationClampRelease d) s = .next s) ∧
    (s.domOn d = true → ∃ t : State, exec (.isolationClampRelease d) s = .next t ∧
      (∀ x, x ∈ t.flt.clamped ↔ x ∈ s.flt.clamped ∧ x ∉ sourcesOf d) ∧ memKept s t ∧ regsKept s t []) ∧
    (∃ t : State, exec .startDone s = .next t ∧ memKept s t ∧ regsKept s t [R.pwrStatus] ∧ t.bit R.pwrStatus F.pwrStatus_startDone =
      (s.bit R.pwrStatus F.pwrStatus_startDone || (!s.pwr.porst && !s.pwr.starting && s.pwr.started.isEmpty))) ∧
    (∀ v : Word, ∃ t : State, exec (.pwrOpWrite v) s = .next t ∧ t.fld R.pwrOp ⟨29, 24⟩ = bitsOf v.toNat 29 24 ∧ memKept s t ∧
      regsKept s t [R.pwrOp, R.pwrStatus, R.pwrAvsStatus]) ∧
    (∀ (v : Word) (n : Nat), n = bitsOf v.toNat 29 28 → n < 3 → s.fld R.pwrDegrade F.pwrDegrade_level = 0 → s.domOn 1 = false →
      s.domOn 2 = false →
      s.fld R.pwrOp F.pwrOp_pktV = s.fld R.pwrOp F.pwrOp_pktF → (s.rail 0).change = none → (s.rail 0).pending = none →
        (s.rail 1).change = none → (s.rail 0).ok = true → (s.rail 1).ok = true →
      s.bit R.pwrAvsStatus F.pwrAvsStatus_pktErr = false → s.bit R.pwrAvsStatus F.pwrAvsStatus_limErr = false →
      ∃ t : State, exec (.pwrOpWrite v) s = .next t ∧ t.fld R.pwrOp ⟨29, 24⟩ = bitsOf v.toNat 29 24 ∧
        t.fld R.pwrOp F.pwrOp_pktV = s.fld R.pwrOp F.pwrOp_pktV ∧
        t.fld R.pwrOp F.pwrOp_pktF = max n (s.fld R.pwrOp F.pwrOp_pktF) ∧
          (t.rail 0).change = (if n = s.fld R.pwrOp F.pwrOp_pktV then none else some n) ∧
        (t.rail 1).change = none ∧ memKept s t ∧ regsKept s t [R.pwrOp, R.pwrStatus]) ∧
    (∀ r : Fin 2, (s.rail r).change = none → (∀ mv, exec (.avsDone r mv) s = .next s) ∧ exec (.avsTimeout r) s = .next s) ∧
    (∀ (r : Fin 2) (n : Nat) (mv : Fin 1024), (s.rail r).change = some n → n < 4 →
      (s.opVolt r n ≤ mv.val + 10 → ∃ t : State, exec (.avsDone r mv) s = .next t ∧ t.fld R.pwrOp (railV r) = n ∧
        t.fld R.pwrAvsStatus (if r = 0 then F.pwrAvsStatus_pktMv else F.pwrAvsStatus_limMv) = mv ∧ memKept s t) ∧
      (∀ i ∈ (if mv.val + 10 < s.opVolt r n then [Instr.avsDone r mv, .avsTimeout r] else [.avsTimeout r]), ∃ t : State,
        exec i s = .next t ∧
        t.bit R.pwrAvsStatus (if r = 0 then F.pwrAvsStatus_pktErr else F.pwrAvsStatus_limErr) = true ∧
          counted s t R.pwrAvsStatus F.pwrAvsStatus_errors ∧
        t.fld R.pwrOp (railV r) = min n (s.fld R.pwrOp (railV r)) ∧ memKept s t ∧
          regsKept s t [R.pwrOp, R.pwrAvsStatus, R.pwrStatus])) ∧
    (∀ (n : Nat) (mv : Fin 1024), (s.rail 0).change = some n → (s.rail 0).pending = none → s.pwr.starting = false → s.pktPoint = n →
      (s.rail 1).change = none →
      s.domOn 1 = false → s.domOn 2 = false → s.fld R.pwrOp F.pwrOp_limV = s.limPoint 0 → s.limPoint 0 = s.limPoint 1 →
        s.fld R.pwrOp F.pwrOp_lim0F = s.limPoint 0 →
      s.fld R.pwrOp F.pwrOp_lim1F = s.limPoint 0 →
      (s.opVolt 0 n ≤ mv.val + 10 → ∃ t : State, exec (.avsDone 0 mv) s = .next t ∧ t.fld R.pwrOp F.pwrOp_pktV = n ∧
        t.fld R.pwrOp F.pwrOp_pktF = n ∧
        t.fld R.pwrAvsStatus F.pwrAvsStatus_pktMv = mv ∧ (t.rail 0).change = none ∧ memKept s t ∧
          regsKept s t [R.pwrOp, R.pwrAvsStatus, R.pwrStatus]) ∧
      (∀ i ∈ (if mv.val + 10 < s.opVolt 0 n then [Instr.avsDone 0 mv, .avsTimeout 0] else [.avsTimeout 0]), ∃ t : State,
        exec i s = .next t ∧
        t.bit R.pwrAvsStatus F.pwrAvsStatus_pktErr = true ∧ counted s t R.pwrAvsStatus F.pwrAvsStatus_errors ∧
        t.fld R.pwrOp F.pwrOp_pktV = min n (s.fld R.pwrOp F.pwrOp_pktV) ∧ t.fld R.pwrOp F.pwrOp_pktF = s.fld R.pwrOp F.pwrOp_pktF ∧
          (t.rail 0).change = none ∧
        memKept s t ∧ regsKept s t [R.pwrOp, R.pwrAvsStatus, R.pwrStatus])) ∧
    (s.pwr.starting = true → (s.rail 0).change = none → (s.rail 1).change = none → ∃ t : State, exec .avsRetry s = .next t ∧
      (t.rail 0).change = some 0 ∧
      (t.rail 1).change = some 0 ∧ memKept s t ∧ regsKept s t []) ∧
    (s.pwr.starting = false → exec .avsRetry s = .next s) ∧
    (∀ v : Word, v.toNat % 65536 ≠ 0xA5C3 → exec (.chipReset v) s = .next s) ∧
    (∀ (v : Word) (i : Instr), v.toNat % 65536 = 0xA5C3 → (i = .chipReset v ∨ i = .porstNAssert) → ∃ t : State, exec i s = .next t ∧
      (∀ e : Nat, e < 30 → t.domState e = 0 ∧ t.domPhase e = 0) ∧
      t.reg R.fltStatusF = s.reg R.fltStatusF ∧ t.bit R.wardStatus F.wardStatus_fatal = s.bit R.wardStatus F.wardStatus_fatal ∧
      t.bit R.wardStatus F.wardStatus_permanent = s.bit R.wardStatus F.wardStatus_permanent ∧
      t.reg R.sysTermState = (if 2 ≤ s.fld R.sysTermState F.sysTermState_stopCause then s.reg R.sysTermState else regReset R.sysTermState) ∧ t.mem = [] ∧
      t.preura.flash = s.preura.flash ∧ (∀ a, unitOf a ∉ [1, 4, 5, 0x9C] → t.reg a = regReset a) ∧ t.pwr.porst = true ∧
        t.pwr.hold = (i == .chipReset v)) ∧
    (∃ t : State, exec .aonPowerLoss s = .next t ∧ (∀ a, t.reg a = regReset a) ∧ t.mem = [] ∧ t.preura.flash = s.preura.flash) ∧
    (∀ (boot lead : Bool) (role : Fin 4) (i : Instr) (n : Nat),
      ((i = .porstNRelease boot lead role ∧ s.pwr.porst = true ∧ s.pwr.hold = false ∧ n = b2n s.pwr.released) ∨
        (i = .chipResetEnd boot lead role ∧ s.pwr.hold = true ∧ n = 2)) →
      ∃ t : State, exec i s = .next t ∧ t.fld R.sysResetCause F.sysResetCause_cause = n ∧ t.bit R.sysStraps F.sysStraps_bootSrc = boot ∧
        t.bit R.sysStraps F.sysStraps_leadSrc = lead ∧ t.fld R.sysStraps F.sysStraps_twinRole = role ∧ t.pwr.porst = false ∧
          t.pwr.starting = true ∧
        (t.rail 0).change = some 0 ∧ (t.rail 1).change = some 0 ∧ memKept s t ∧ regsKept s t [R.sysResetCause, R.sysStraps]) ∧
    (∀ (boot lead : Bool) (role : Fin 4), (s.pwr.porst = false ∨ s.pwr.hold = true → exec (.porstNRelease boot lead role) s = .next s) ∧
      (s.pwr.hold = false → exec (.chipResetEnd boot lead role) s = .next s)) ∧
    exec (.pllUnlock 1) s = exec .txpllUnlock s ∧ exec (.pllRelock 1) s = exec .txpllRelock s ∧
    (∀ b : Fin 8, b.val ≠ 1 → (s.fld R.clkPllStatus ⟨b, b⟩ = 0 → exec (.pllUnlock b) s = .next s) ∧
      (s.fld R.clkPllStatus ⟨b, b⟩ = 1 → ∃ t : State, exec (.pllUnlock b) s = .next t ∧ t.fld R.clkPllStatus ⟨b, b⟩ = 0 ∧
        counted s t R.clkCounts F.clkCounts_pllUnlocks ∧
        t.wires = s.wires ++ ((pllSources b).filter (fun e => s.domOn e.1)).map (fun e => (e.2, 2, faultCode e.2 3)) ∧ memKept s t ∧
        regsKept s t [R.clkPllStatus, R.clkCounts]) ∧
      (∃ t : State, exec (.pllRelock b) s = .next t ∧ t.fld R.clkPllStatus ⟨b, b⟩ = 1 ∧ memKept s t ∧ regsKept s t [R.clkPllStatus])) ∧
    (∀ i : Fin 6, (∃ t : State, exec (.refLoss i) s = .next t ∧ t.fld R.clkRefStatus ⟨i, i⟩ = 0 ∧
      t.fld R.clkRefStatus ⟨8 + i, 8 + i⟩ = 1 ∧
        counted s t R.clkCounts F.clkCounts_refLosses ∧ memKept s t ∧ regsKept s t [R.clkRefStatus, R.clkCounts]) ∧
      (∃ t : State, exec (.refPresent i) s = .next t ∧ t.fld R.clkRefStatus ⟨i, i⟩ = 1 ∧ memKept s t ∧ regsKept s t [R.clkRefStatus]))

/-- An error that its source cannot raise, or whose domain is clamped, only leaves its pair. A class C is latched and counted. A class
U, D or F is latched, enters the capture queue and its class's first-fault capture if that is free: a class U takes its one item,
such as a packet of a pipe, from the unit and records it; a class D of the classifier marks it restarting, tells the host unless
masked and empties the pipes of what waited; a class F of the ward sets FATAL, STOPPED and cause 3, and one of THERMAL also turns
every domain off. A wire fault sets its bit and is class F for WARD and THERMAL, else D. A restart that ends clears its bit; a
status write clears bits, not those of restarting sources in STATUS_D. Preura takes the head of the capture queue into its log, POP
removes a record, PIN_FAULT and READY are set.
Where it rests on the model's own reading or choice, that is log entries 142, 143, 144, 145 and 189. -/
def Obligations.FaultCollectorLatchesAndReleases : Prop :=
  ∀ (s : State) (src : Fin 38) (k : Fin 4) (code : BitVec 16),
    ((raises src k = false ∨ s.clamped src = true) → ∀ item, ∃ t : State, exec (.faultLatch src k code item) s = .next t ∧
      t.wires = s.wires.erase (src.val, k.val, code.toNat) ∧ t.flt = s.flt ∧ memKept s t ∧ regsKept s t []) ∧
    (s.clamped src = false → raises src 0 = true → ∀ item, ∃ t : State, exec (.faultLatch src 0 code item) s = .next t ∧
      t.bit R.fltStatusC ⟨src, src⟩ = true ∧
      counted s t (R.fltCCount src) F.fltCCount_count ∧ t.flt = s.flt ∧ memKept s t ∧
      (∀ a, unitSource (unitOf a) ≠ some src.val → a ≠ R.fltStatusC → a ≠ R.fltCCount src → t.reg a = s.reg a)) ∧
    (s.clamped src = false → raises src 1 = true →
      (∃ t : State, exec (.faultLatch src 1 code .none) s = .next t ∧ t.bit R.fltStatusU ⟨src, src⟩ = true ∧
        (s.flt.captures.length < 64 → t.flt.captures = s.flt.captures ++ [(BitVec.ofNat 64 (capInfo src 1 code.toNat false),
          s.stamp 1)]) ∧
        (64 ≤ s.flt.captures.length → t.flt.captures = s.flt.captures ∧ counted s t R.fltStatus F.fltStatus_capLost) ∧
        t.reg (R.fltFirstInfo 0) = (if s.bit (R.fltFirstInfo 0) F.fltFirstInfo_valid then s.reg (R.fltFirstInfo 0)
          else BitVec.ofNat 64 (capInfo src 1 code.toNat false)) ∧
        t.flt.disp = s.flt.disp ∧ memKept s t ∧ regsKept s t [R.fltStatusU, R.fltStatus, R.fltFirstInfo 0, R.fltFirstSec 0,
          R.fltFirstNs 0]) ∧
      (∀ (d : Dir) (n : Fin 8) (pos : Nat) (p : Pkt), src.val = d.src → (s.pipe d n)[pos]? = some p → p.dir = d → p.ret = 0 →
        ∃ t : State, exec (.faultLatch src 1 code (.piped d n false pos)) s = .next t ∧ t.pipe d n = (s.pipe d n).eraseIdx pos ∧
          t.dieUsed d = s.dieUsed d - cellsOf p.bytes.length ∧ counted s t (R.qmDropCount 8) F.qmDropCount_count ∧
          (s.flt.disp.length < 4096 → s.flt.lostCnt = [] → t.flt.disp = s.flt.disp ++
            [Lost.words ⟨src.val, 1, 1, p.chan, code.toNat, 1, p.stamp.short.toNat, p.stamp.short.toNat, p.bytes.length,
              0⟩ s.flt.index (s.stamp 1)] ∧
            t.bit R.fltStatus F.fltStatus_dispAdded = true) ∧ memKept s t ∧ unitsKept s t [4, 0x91])) ∧
    (s.clamped Src.cls = false → ∃ t : State, exec (.faultLatch ⟨Src.cls, by decide⟩ 2 code .none) s = .next t ∧
      t.bit R.fltStatusD ⟨Src.cls, Src.cls⟩ = true ∧
      t.bit R.fltRestarting ⟨Src.cls, Src.cls⟩ = true ∧
        (∀ (d : Dir) (n : Nat), n < 8 → t.pipe d n = [] ∧ t.classified d n = s.classified d n) ∧
      (s.domOn 0 = true → s.fld R.fltMaskErr ⟨Src.cls, Src.cls⟩ = 0 → t.bit R.gateEvent ⟨5, 5⟩ = true) ∧
      (s.fld R.fltMaskErr ⟨Src.cls, Src.cls⟩ = 1 → t.reg R.gateEvent = s.reg R.gateEvent) ∧
      (s.flt.captures.length < 64 → t.flt.captures = s.flt.captures ++ [(BitVec.ofNat 64 (capInfo Src.cls 2 code.toNat false),
        s.stamp 1)])) ∧
    (s.clamped Src.ward = false → ∃ t : State, exec (.faultLatch ⟨Src.ward, by decide⟩ 3 code .none) s = .next t ∧
      t.bit R.fltStatusF ⟨Src.ward, Src.ward⟩ = true ∧
      t.bit R.wardStatus F.wardStatus_fatal = true ∧ t.fld R.sysTermState F.sysTermState_state = 8 ∧
        t.fld R.sysTermState F.sysTermState_under = 8 ∧
      t.fld R.sysTermState F.sysTermState_stopCause = 3 ∧ (s.ubb.builds = [] → memKept s t ∧
        ∀ a, unitOf a ∉ [0, 1, 4, 0x9C] → ¬ (0x10 ≤ unitOf a ∧ unitOf a ≤ 0x27) → t.reg a = s.reg a)) ∧
    (s.clamped Src.thermal = false → ∃ t : State, exec (.faultLatch ⟨Src.thermal, by decide⟩ 3 code .none) s = .next t ∧
      t.bit R.fltStatusF ⟨Src.thermal, Src.thermal⟩ = true ∧
      t.bit R.wardStatus F.wardStatus_fatal = true ∧ t.fld R.sysTermState F.sysTermState_state = 8 ∧
        (∀ d : Nat, d < 30 → t.domState d = 0) ∧
      t.bit R.pwrStatus F.pwrStatus_thermalOff = true) ∧
    ((s.clamped src = true → exec (.wireFault src) s = .next s) ∧
      (s.clamped Src.cls = false → ∃ t : State, exec (.wireFault ⟨Src.cls, by decide⟩) s = .next t ∧
        t.bit R.fltWire ⟨Src.cls, Src.cls⟩ = true ∧
        t.bit R.fltStatusD ⟨Src.cls, Src.cls⟩ = true ∧
        (s.flt.captures.length < 64 →
          t.flt.captures = s.flt.captures ++ [(BitVec.ofNat 64 (capInfo Src.cls 2 (faultCode Src.cls 6) true), s.stamp 1)])) ∧
      (s.clamped Src.thermal = false → ∃ t : State, exec (.wireFault ⟨Src.thermal, by decide⟩) s = .next t ∧
        t.bit R.fltWire ⟨Src.thermal, Src.thermal⟩ = true ∧
        t.bit R.fltStatusF ⟨Src.thermal, Src.thermal⟩ = true)) ∧
    ((s.restarting src = false ∨ src.val = Src.preura → exec (.unitRestartDone src) s = .next s) ∧
      (s.restarting src = true → src.val ≠ Src.preura → (src.val = Src.medTxpll → s.med.txLock = true ∧ s.med.txWait = false) →
        (∃ t : State, exec (.unitRestartDone src) s = .next t ∧ t.restarting src = false) ∧
        (src.val ≠ Src.ward → src.val ≠ Src.ubb → src.val ≠ Src.lim0 → src.val ≠ Src.lim1 → src.val ≠ Src.hinge →
          ∃ t : State, exec (.unitRestartDone src) s = .next t ∧ memKept s t ∧ regsKept s t [R.fltRestarting])) ∧
      (s.restarting Src.ward = true → (∀ p, (s.uplane p).missed = 0) → ∃ t : State,
        exec (.unitRestartDone ⟨Src.ward, by decide⟩) s = .next t ∧
        t.restarting Src.ward = false ∧ t.bit R.wardStatus F.wardStatus_restartHold = false ∧ memKept s t ∧ unitsKept s t [4, 0x9C])) ∧
    (∀ v : Word, (∃ t : State, exec (.fltStatusClear 0 v) s = .next t ∧ t.reg R.fltStatusC = s.reg R.fltStatusC &&& ~~~v ∧ memKept s t ∧
      regsKept s t [R.fltStatusC]) ∧
      (∃ t : State, exec (.fltStatusClear 1 v) s = .next t ∧ t.reg R.fltStatusU = s.reg R.fltStatusU &&& ~~~v ∧ memKept s t ∧
        regsKept s t [R.fltStatusU]) ∧
      (∃ t : State, exec (.fltStatusClear 2 v) s = .next t ∧
        t.reg R.fltStatusD = s.reg R.fltStatusD &&& ~~~(v &&& ~~~(s.reg R.fltRestarting)) ∧ memKept s t ∧
        regsKept s t [R.fltStatusD])) ∧
    (s.flt.captures = [] → exec .capPop s = .next s) ∧
    (s.firmware = false → exec .capPop s = .next s) ∧
    (∀ c l, s.flt.captures = c :: l → s.firmware = true → ∃ t : State, exec .capPop s = .next t ∧ t.flt.captures = l ∧ memKept s t ∧
      regsKept s t []) ∧
    (∀ c l, s.flt.captures = c :: l → s.firmware = true → s.preura.logQueue.length < 1024 → ∃ t : State, exec .capPop s = .next t ∧
      t.flt.captures = l ∧
      t.preura.logQueue = s.preura.logQueue ++ [⟨2, 0, { c.2 with src := 2 }, [c.1]⟩] ∧ memKept s t ∧ regsKept s t []) ∧
    (∀ v : Word, (v.getLsbD 0 = false ∨ s.flt.disp = [] → exec (.dispPop v) s = .next s) ∧
      (∀ x l, v.getLsbD 0 = true → s.flt.disp = x :: l →
        (∃ t o, exec (.dispPop v) s = .next t ∧ t.flt.disp = l ++ o ∧ t.flt.captures = s.flt.captures ∧ memKept s t ∧
          regsKept s t [R.fltStatus]) ∧
        (s.flt.lostCnt = [] → ∃ t : State, exec (.dispPop v) s = .next t ∧ t.flt.disp = l ∧ t.flt.captures = s.flt.captures ∧
          memKept s t ∧ regsKept s t []) ∧
        (∀ i n, s.flt.lostCnt = [(i, n)] → l.length < 4096 → ∃ t y, exec (.dispPop v) s = .next t ∧ t.flt.disp = l ++ [y] ∧
          t.flt.lostCnt = [] ∧
          (y.getD 0 0).extractLsb' 52 4 = 10#4 ∧ (y.getD 1 0).toNat = n % 2 ^ 32 * 2 ^ 32 + s.flt.index % 2 ^ 32 ∧
            t.bit R.fltStatus F.fltStatus_overflow = false ∧
          t.bit R.fltStatus F.fltStatus_dispAdded = true ∧ memKept s t ∧ regsKept s t [R.fltStatus]))) ∧
    (∃ t : State, exec .pinFault s = .next t ∧ t.bit R.fltStatus F.fltStatus_pinFault = true ∧ memKept s t ∧
      regsKept s t [R.fltStatus]) ∧
    (s.pwr.porst = true → exec .fltReady s = .next s) ∧
    (s.pwr.porst = false → ∃ t : State, exec .fltReady s = .next t ∧ t.bit R.fltStatus F.fltStatus_ready = true ∧
      t.errDrive = (if t.errAsserted then 2 else 1) ∧ memKept s t ∧ regsKept s t [R.fltStatus])

/-- EN takes the link from OFF to ACQUIRE and back to OFF; locked lanes give HELLO, the second valid HEARTBEAT in a row gives UP, and
lost lock, an invalid HEARTBEAT or none in time takes UP back to ACQUIRE with PEER_LOST and SYNC NONE. A HEARTBEAT sent shows pair
id, role, lead, state, id and serial. A terminal that is not lead takes UPDATE entries and bulk values into its mirrored flows only;
a SYNC_REQ of a peer that is not lead starts a transfer at the lead; SYNC goes to SYNCING, then IN_SYNC on the right generation,
count and CRC, else NONE. A codeword takes up to ten waiting blocks, else the next bulk body, else nothing, and leaves on its lane;
of what a lane's levels carry, blocks wait in order, reserved ones and uncorrectable codewords are counted. A new LEAD_SEL level
waits for the frame boundary, or acts at once without a line position: a gain marks every flow, a loss withdraws PAIR messages. A
LEAD message of the pair acts the same way in hub mode, and is counted as ignored otherwise.
Where it rests on the model's own reading or choice, that is log entries 127, 128, 129 and 188. -/
def Obligations.HingeLinkMirrorAndLead : Prop :=
  ∀ (s : State),
    (∀ v : Word, ∃ t : State, exec (.hingeEnWrite v) s = .next t ∧ t.fld R.hingeCfg F.hingeCfg_seqAdvance = bitsOf v.toNat 45 32 ∧
      t.bit R.hingeCfg F.hingeCfg_en = v.getLsbD 0 ∧
      (s.bit R.hingeCfg F.hingeCfg_en = true → v.getLsbD 0 = false → t.link = 0 ∧ t.fld R.hingeStatus F.hingeStatus_sync = 0 ∧
        t.twin.blocks = [] ∧
        (s.link ≠ 0 → t.bit R.hingeStatus F.hingeStatus_linkChg = true)) ∧
      (v.getLsbD 0 = true → s.link = 0 → s.restarting Src.hinge = false → t.link = 1 ∧
        t.bit R.hingeStatus F.hingeStatus_linkChg = true) ∧
      (v.getLsbD 0 = s.bit R.hingeCfg F.hingeCfg_en → s.link ≠ 0 → t.reg R.hingeStatus = s.reg R.hingeStatus) ∧ memKept s t ∧
        regsKept s t [R.hingeCfg, R.hingeStatus]) ∧
    (s.link ≠ 1 → exec .hingeLanesLocked s = .next s) ∧
    (s.link = 1 → ∃ t : State, exec .hingeLanesLocked s = .next t ∧ t.link = 2 ∧ t.bit R.hingeStatus F.hingeStatus_linkChg = true ∧
      t.twin.good = 0 ∧ t.twin.rxCount = 0 ∧ memKept s t ∧
      regsKept s t [R.hingeStatus]) ∧
    (s.link < 2 → exec .hingeLockLost s = .next s) ∧ (s.link ≠ 3 → exec .heartbeatTimeout s = .next s) ∧
    (∀ i, (i = Instr.hingeLockLost ∧ 2 ≤ s.link) ∨ (i = .heartbeatTimeout ∧ s.link = 3) → ∃ t : State, exec i s = .next t ∧ t.link = 1 ∧
      t.bit R.hingeStatus F.hingeStatus_linkChg = true ∧
        t.bit R.hingeStatus F.hingeStatus_peerLost = (s.bit R.hingeStatus F.hingeStatus_peerLost || s.link == 3) ∧
      t.fld R.hingeStatus F.hingeStatus_sync = 0 ∧ memKept s t ∧ regsKept s t [R.hingeStatus]) ∧
    (s.link < 2 → exec .heartbeatTx s = .next s) ∧
    (2 ≤ s.link → ∃ t x, exec .heartbeatTx s = .next t ∧ t.twin.blocks = s.twin.blocks ++ [x] ∧ x.extractLsb' 504 8 = 1#8 ∧
      (x.extractLsb' 488 16).toNat = s.fld R.hingePair F.hingePair_pairId ∧ (x.extractLsb' 486 2).toNat = s.role ∧
        x.getLsbD 485 = s.isLead ∧
      x.getLsbD 484 = (s.fld R.fltStatusD F.fltStatusD_sources != 0 || s.fld R.fltStatusF F.fltStatusF_sources != 0) ∧
        (x.extractLsb' 478 4).toNat = s.termState ∧
      (x.extractLsb' 468 10).toNat = s.fld R.dfpIdent F.dfpIdent_tid ∧ x.extractLsb' 384 64 = s.reg R.sysSerial ∧ memKept s t ∧
        regsKept s t []) ∧
    (∀ b : BitVec 512, s.blockTurn b → (s.link < 2 → ∃ t : State, exec (.heartbeat b) s = .next t ∧
      t.twin.inbox = s.twin.inbox.erase b ∧ memKept s t ∧ regsKept s t []) ∧
      (∀ ok : Bool,
        ok = (decide ((b.extractLsb' 488 16).toNat = s.fld R.hingePair F.hingePair_pairId) && b.extractLsb' 488 16 != 0 && s.role != 0 &&
          decide ((b.extractLsb' 486 2).toNat = 3 - s.role)) → 2 ≤ s.link →
        (ok = true → ∃ t : State, exec (.heartbeat b) s = .next t ∧ t.bit R.hingeStatus F.hingeStatus_peerLead = b.getLsbD 485 ∧
          t.bit R.hingeStatus F.hingeStatus_peerFault = b.getLsbD 484 ∧
            t.fld R.hingeStatus F.hingeStatus_peerState = (b.extractLsb' 478 4).toNat ∧
          t.fld R.hingeStatus F.hingeStatus_peerTid = (b.extractLsb' 468 10).toNat ∧ t.reg R.hingePeerSerial = b.extractLsb' 384 64 ∧
          t.link = (if s.link = 2 ∧ s.twin.good = 0 then 2 else 3) ∧ memKept s t ∧ regsKept s t [R.hingeStatus, R.hingePeerSerial]) ∧
        (ok = false → ∃ t : State, exec (.heartbeat b) s = .next t ∧ t.bit R.hingeStatus F.hingeStatus_mismatch = true ∧
          t.twin.good = 0 ∧ t.link = (if s.link = 3 then 1 else 2) ∧
          (s.link = 3 → t.bit R.hingeStatus F.hingeStatus_peerLost = true ∧ t.fld R.hingeStatus F.hingeStatus_sync = 0) ∧ memKept s t ∧
          regsKept s t [R.hingeStatus]))) ∧
    (∀ b : BitVec 512, s.blockTurn b → ∃ t : State, exec (.update b) s = .next t ∧ memKept s t ∧ regsKept s t [] ∧
      (s.isLead = true → t.ubb = s.ubb) ∧
      (s.isLead = false → ∀ k, k < bitsOf b.toNat 503 501 →
        (∀ j, k < j → j < bitsOf b.toNat 503 501 → bitsOf b.toNat (447 - 64 * j) (428 - 64 * j) ≠
          bitsOf b.toNat (447 - 64 * k) (428 - 64 * k)) → ∀ f, f = bitsOf b.toNat (447 - 64 * k) (428 - 64 * k) →
        t.flow f = if flowMirrored (s.flow f) then flowWithSeq (s.flow f) (bitsOf b.toNat (427 - 64 * k) (412 - 64 * k)) else s.flow f) ∧
      (∀ f, (∀ k, k < bitsOf b.toNat 503 501 → f ≠ bitsOf b.toNat (447 - 64 * k) (428 - 64 * k)) → t.flow f = s.flow f)) ∧
    ((s.twin.updates = [] ∨ s.link ≠ 3) → exec .updateTx s = .next s) ∧
    (s.twin.updates ≠ [] → s.twin.updates.length ≤ 7 → s.link = 3 → ∃ t x, exec .updateTx s = .next t ∧ t.twin.updates = [] ∧
      t.twin.blocks = s.twin.blocks ++ [x] ∧
      x.extractLsb' 504 8 = 2#8 ∧ (x.extractLsb' 501 3).toNat = s.twin.updates.length ∧ memKept s t ∧ regsKept s t [] ∧
      ∀ k e, s.twin.updates[k]? = some e → bitsOf x.toNat (447 - 64 * k) (428 - 64 * k) = e.1 % 2 ^ 20 ∧
        bitsOf x.toNat (427 - 64 * k) (412 - 64 * k) = e.2 % 2 ^ 16) ∧
    (∀ b : BitVec 512, s.blockTurn b → ∃ t : State, exec (.syncReq b) s = .next t ∧ memKept s t ∧ regsKept s t [] ∧
      (s.link = 3 → s.role ≠ 0 → s.isLead = true → s.bit R.hingeStatus F.hingeStatus_peerLead = false → s.twin.bulk = none →
        t.twin.bulk = some 0 ∧ ∃ x, t.twin.blocks = s.twin.blocks ++ [x] ∧ x.extractLsb' 504 8 = 4#8 ∧
        (x.extractLsb' 488 16).toNat = t.twin.bulkGen) ∧
      ((s.link ≠ 3 ∨ s.role = 0 ∨ s.isLead = false ∨ s.bit R.hingeStatus F.hingeStatus_peerLead = true ∨ s.twin.bulk ≠ none) →
        t.twin.bulk = s.twin.bulk ∧ t.twin.blocks = s.twin.blocks)) ∧
    ((s.link ≠ 3 ∨ s.isLead = true ∨ s.fld R.hingeStatus F.hingeStatus_sync ≠ 0) → exec .syncReqTx s = .next s) ∧
    (s.link = 3 → s.isLead = false → s.fld R.hingeStatus F.hingeStatus_sync = 0 → ∃ t : State, exec .syncReqTx s = .next t ∧
      t.twin.blocks = s.twin.blocks ++ [BitVec.ofNat 512 (3 * 2 ^ 504)] ∧ memKept s t ∧ regsKept s t []) ∧
    (∀ b : BitVec 512, s.blockTurn b → (s.isLead = true → ∀ i ∈ [Instr.syncStart b, .syncEnd b], ∃ t : State, exec i s = .next t ∧
      memKept s t ∧ regsKept s t []) ∧
      (s.isLead = false → ∃ t : State, exec (.syncStart b) s = .next t ∧ t.fld R.hingeStatus F.hingeStatus_sync = 1 ∧
        t.twin.rxIndex = 0 ∧
        t.twin.rxGen = (b.extractLsb' 488 16).toNat ∧ memKept s t ∧ regsKept s t [R.hingeStatus]) ∧
      (∀ ok : Prop, (ok ↔ (b.extractLsb' 488 16).toNat = s.twin.rxGen ∧ s.twin.rxIndex = 3277 ∧
        (b.extractLsb' 456 32).toNat = 2 ^ 32 - 1 - s.twin.rxCrc) →
        s.isLead = false → s.fld R.hingeStatus F.hingeStatus_sync = 1 →
        (ok → ∃ t : State, exec (.syncEnd b) s = .next t ∧ t.fld R.hingeStatus F.hingeStatus_sync = 2 ∧
          counted s t R.hingeCounts0 F.hingeCounts0_syncs ∧ memKept s t ∧
          regsKept s t [R.hingeStatus, R.hingeCounts0]) ∧
        (¬ ok → ∃ t : State, exec (.syncEnd b) s = .next t ∧ t.fld R.hingeStatus F.hingeStatus_sync = 0 ∧
          t.bit R.hingeStatus F.hingeStatus_syncFail = true ∧
          counted s t R.hingeCounts0 F.hingeCounts0_syncFails ∧ memKept s t ∧ regsKept s t [R.hingeStatus, R.hingeCounts0]))) ∧
    (∀ (l : List Nat) (u : Bool) (d : BitVec 5140) (x : State) (kind : Nat), s.hingeLine l = (u, d, x) →
      kind = (d.extractLsb' 5136 4).toNat →
      (s.link < 2 → exec (.hingeCodewordRx l) s = .next s) ∧
      (2 ≤ s.link → s.twin.inbox = [] → ∃ t : State, exec (.hingeCodewordRx l) s = .next t ∧ t.twin.rxCount = s.twin.rxCount + 1 ∧
        t.twin.rxLanes = x.twin.rxLanes ∧
        (u = true → counted s t R.hingeCounts0 F.hingeCounts0_uncorr ∧ t.ubb = s.ubb ∧
          t.fld R.hingeStatus F.hingeStatus_sync = (if kind = 1 ∧ s.isLead = false ∧ s.fld R.hingeStatus F.hingeStatus_sync = 1 then 0
            else s.fld R.hingeStatus F.hingeStatus_sync) ∧ memKept s t ∧ regsKept s t [R.hingeCounts0, R.hingeStatus]) ∧
        (u = false → kind = 0 → ∀ b, b = (List.range 10).map (fun j => d.extractLsb' (4608 - 512 * j) 512) →
          t.twin.inbox = b.filter (fun b => decide (1 ≤ (b.extractLsb' 504 8).toNat) && decide ((b.extractLsb' 504 8).toNat ≤ 5)) ∧
          counted s t R.hingeCounts1 F.hingeCounts1_unknown (b.filter (fun b => decide (6 ≤ (b.extractLsb' 504 8).toNat))).length ∧
            t.ubb = s.ubb ∧ memKept s t ∧
          regsKept s t [R.hingeCounts1]) ∧
        (u = false → kind = 1 → s.isLead = false → s.fld R.hingeStatus F.hingeStatus_sync = 1 → ∀ k, k = s.twin.rxIndex →
          t.twin.rxIndex = k + 1 ∧
          (∀ i, i < 320 → 320 * k + i < 2 ^ 20 → t.flow (320 * k + i) = if flowMirrored (s.flow (320 * k + i)) then
            flowWithSeq (s.flow (320 * k + i)) (d.extractLsb' (5104 - 16 * i) 16).toNat else s.flow (320 * k + i)) ∧
          (∀ f, (f < 320 * k ∨ 320 * k + 320 ≤ f) → t.flow f = s.flow f) ∧ memKept s t ∧ regsKept s t []) ∧
        (u = false → 2 ≤ kind → counted s t R.hingeCounts1 F.hingeCounts1_unknown ∧ t.ubb = s.ubb ∧ memKept s t ∧
          regsKept s t [R.hingeCounts1]))) ∧
    (s.link = 0 → exec .hingeCodewordTx s = .next s) ∧
    (s.link ≠ 0 → ∃ t : State, exec .hingeCodewordTx s = .next t ∧ memKept s t ∧ regsKept s t [] ∧
      (t.twin.tx.extractLsb' 5120 16).toNat = s.twin.txSeq % 2 ^ 16 ∧
      t.twin.txSeq = (s.twin.txSeq + 1) % 2 ^ 16 ∧
      (s.hingeLoop (s.twin.txSeq % 4) ≠ 2 → (Tbl.get (fun _ => {}) t.twin.txLanes (s.twin.txSeq % 4)).levels =
        (hingeLevels (laneFor s.twin.txLanes s.twin.txSeq) t.twin.tx).1) ∧
      (s.twin.blocks ≠ [] → t.twin.blocks = s.twin.blocks.drop 10 ∧ t.twin.bulk = s.twin.bulk ∧ t.twin.tx.extractLsb' 5136 4 = 0 ∧
        ∀ j b, j < 10 → s.twin.blocks[j]? = some b → t.twin.tx.extractLsb' (4608 - 512 * j) 512 = b) ∧
      (s.twin.blocks = [] → s.twin.bulk = none → t.twin.blocks = [] ∧ t.twin.tx.extractLsb' 5136 4 = 0 ∧
        t.twin.tx.extractLsb' 0 5120 = 0) ∧
      (∀ k, s.twin.blocks = [] → s.twin.bulk = some k → t.twin.tx.extractLsb' 5136 4 = 1 ∧
        (∀ i, i < 320 → 320 * k + i < 2 ^ 20 → (t.twin.tx.extractLsb' (5104 - 16 * i) 16).toNat = flowSeq (s.flow (320 * k + i))) ∧
        (k + 1 < 3277 → t.twin.bulk = some (k + 1) ∧ t.twin.blocks = []) ∧
        (3277 ≤ k + 1 → t.twin.bulk = none ∧ ∃ x, t.twin.blocks = [x] ∧ x.extractLsb' 504 8 = 5#8))) ∧
    (∀ l : Bool, (s.role = 0 ∨ s.pinMode = false ∨ s.domOn 29 = false ∨ s.twin.pinActed = l → exec (.leadSelChange l) s = .next s) ∧
      (s.role ≠ 0 → s.pinMode = true → s.domOn 29 = true → s.twin.pinActed ≠ l → ∃ t : State, exec (.leadSelChange l) s = .next t ∧
        t.twin.pinActed = l ∧ memKept s t ∧
        (s.lpValid = true → t.twin.leadNext = some l ∧ regsKept s t []) ∧
        (s.lpValid = false → t.isLead = l ∧ t.twin.leadNext = none ∧ regsKept s t [R.hingeStatus, R.hingeCounts0, R.hingeCounts1] ∧
          (s.isLead ≠ l → t.bit R.hingeStatus F.hingeStatus_leadChg = true ∧ counted s t R.hingeCounts0 F.hingeCounts0_leadChanges ∧
            (l = true → counted s t R.hingeCounts1 F.hingeCounts1_advances ∧ ∀ f, t.flowMarked f = true) ∧
            (l = false → t.ubb.msgs = s.ubb.msgs.filter (fun m => !m.pair)))))) ∧
    (∀ (m : Msg) (b : Bool), m.parcel = false → 8 ≤ m.body.length → b = (bodyField m.body 8 47 38 == s.fld R.dfpIdent F.dfpIdent_tid) →
      (s.role = 0 ∨ s.pinMode = true ∨ bodyField m.body 8 63 48 ≠ s.fld R.hingePair F.hingePair_pairId → ∃ t : State,
        exec (.lead m) s = .next t ∧
        counted s t R.hingeCounts1 F.hingeCounts1_leadMsgIgnored ∧ t.twin = s.twin ∧ memKept s t ∧ regsKept s t [R.hingeCounts1]) ∧
      (s.role ≠ 0 → s.pinMode = false → bodyField m.body 8 63 48 = s.fld R.hingePair F.hingePair_pairId → ∃ t : State,
        exec (.lead m) s = .next t ∧ memKept s t ∧
        (s.lpValid = true → t.twin.leadNext = some b ∧ t.isLead = s.isLead ∧ regsKept s t []) ∧
        (s.lpValid = false → t.isLead = b ∧ t.twin.leadNext = none ∧ regsKept s t [R.hingeStatus, R.hingeCounts0, R.hingeCounts1]))) ∧
    ((s.role = 0 ∨ s.isLead = false ∨ s.bit R.hingeStatus F.hingeStatus_peerLead = false ∨ s.link < 2) → exec .dualLead s = .next s) ∧
    (s.role ≠ 0 → s.isLead = true → s.bit R.hingeStatus F.hingeStatus_peerLead = true → 2 ≤ s.link → ∃ t : State,
      exec .dualLead s = .next t ∧
      t.bit R.hingeStatus F.hingeStatus_dualLead = true ∧ t.isLead = true ∧ memKept s t ∧ regsKept s t [R.hingeStatus])

/-- The boot ROM starts the runnable slot of the highest generation, marking an unconfirmed one tried and a trial, else enters DOWNLOAD.
A sample joins its average and trips at 115 °C; a publication shows the averages, 0x8000 for a sensor that is off; 105 °C raises the
degradation level and 100 °C everywhere lowers it. The log writes its oldest entry at the next index. The mailbox posts, takes,
answers and frees its slots; LOG, OE_XFER and RELAY_TO_BOARD messages are served oldest first, transfers end with their status,
alarms and stuck buses are logged. A swap record is logged and removed. A wrong kick, as any trip, stops and seals Preura, counts,
tells the host and signals class D. A reset of Preura loses what SRAM held and keeps flash; a confirmed slot ends its trial.
Where it rests on the model's own reading or choice, that is log entries 134, 135, 136 and 137. -/
def Obligations.PreuraRunsAndServes : Prop :=
  ∀ (s : State),
    ((s.pwr.porst = true ∨ (s.preuraState ≠ 0 ∧ s.preuraState ≠ 4)) → exec .preuraBoot s = .next s) ∧
    (s.pwr.porst = false → (s.preuraState = 0 ∨ s.preuraState = 4) →
      ((s.bit R.sysStraps F.sysStraps_bootSrc = true ∨ (s.slotRuns 0 = false ∧ s.slotRuns 1 = false)) →
        ∃ t : State, exec .preuraBoot s = .next t ∧ t.preuraState = 2 ∧ t.bit R.mboxStatus F.mboxStatus_preuraUp = false ∧
          t.preura = { s.preura with sram := [], stageOpen := true, stageOff := 0 } ∧ memKept s t ∧
          regsKept s t [R.mboxStatus]) ∧
      (∀ k, k < 2 → s.bit R.sysStraps F.sysStraps_bootSrc = false → s.slotRuns k = true →
        (s.slotRuns (1 - k) = false ∨ s.slotGen (1 - k) < s.slotGen k ∨ (s.slotGen (1 - k) = s.slotGen k ∧ k = 0)) →
        ∃ t : State, exec .preuraBoot s = .next t ∧ t.preuraState = 1 ∧ t.bit R.mboxStatus F.mboxStatus_preuraUp = true ∧
          t.bit R.mboxStatus F.mboxStatus_sealed = false ∧
          t.fld R.mboxSentinel F.mboxSentinel_timeoutMs = max 10 (min 1000 (bitsOf (s.flashWord k 2) 31 16)) ∧ t.preura.slot = k ∧
          t.preura.trial = !s.slotConfirm k ∧ (s.slotConfirm k = false → t.slotTried k = true) ∧ t.slotConfirm k = s.slotConfirm k ∧
          (s.preura.logQueue.length < 1024 → ∃ e, t.preura.logQueue = s.preura.logQueue ++ [e] ∧ e.typ = 1 ∧
            e.data = [BitVec.ofNat 64 (s.fld R.mboxSentinel F.mboxSentinel_cause)]) ∧ memKept s t ∧
              regsKept s t [R.mboxStatus, R.mboxSentinel])) ∧
    (∀ (n : Fin 55) (v : BitVec 16), (s.sensorOn n = false → exec (.sensorSample n v) s = .next s) ∧
      (s.sensorOn n = true → ∃ t : State, exec (.sensorSample n v) s = .next t ∧
        (∀ (x : Int) (c : Nat), Tbl.get (fun _ => ((0 : Int), (0 : Nat))) s.preura.samples n = (x, c) →
          Tbl.get (fun _ => ((0 : Int), (0 : Nat))) t.preura.samples n = (x + v.toInt, c + 1)) ∧
        t.wires = (if n.val < 24 ∧ 920 ≤ v.toInt then s.wires ++ [(Src.thermal, 3, faultCode Src.thermal 5)] else s.wires) ∧
          memKept s t ∧ regsKept s t [])) ∧
    (s.firmware = false → ∀ i ∈ [Instr.sensorPublish, .degradeRaise, .degradeLower, .logWrite, .mboxTake, .log, .oeXfer, .relayToBoard,
      .swapPop, .slotConfirm],
      exec i s = .next s) ∧
    (s.firmware = true → ∃ t : State, exec .sensorPublish s = .next t ∧ t.preura.samples = [] ∧
      t.reg R.mboxSenseStamp = (s.stamp 2).short ∧ memKept s t ∧ unitsKept s t [0x9D] ∧
      ∀ (n a i : Nat), n < 55 → (a, i) = (if n < 24 then (R.mboxTemp (n / 4), n % 4) else (R.mboxVolt ((n - 24) / 4), (n - 24) % 4)) →
        (s.sensorOn n = false → t.fld a ⟨63 - 16 * i, 48 - 16 * i⟩ = 0x8000) ∧
        (∀ (x : Int) (c : Nat), s.sensorOn n = true → Tbl.get (fun _ => ((0 : Int), (0 : Nat))) s.preura.samples n = (x, c + 1) →
          t.fld a ⟨63 - 16 * i, 48 - 16 * i⟩ = toTwos 16 (x / ((c : Int) + 1)))) ∧
    (∀ n, s.firmware = true → n = s.fld R.pwrDegrade F.pwrDegrade_level →
      (n < 3 → (∃ x ∈ s.temps, 840 ≤ x) → ∃ t : State, exec .degradeRaise s = .next t ∧ t.fld R.pwrDegrade F.pwrDegrade_level = n + 1 ∧
        (s.preura.outbox.length < 16 → t.preura.outbox = s.preura.outbox ++ [MboxMsg.mk 0 0x83 [BitVec.ofNat 8 (n + 1)]]) ∧
          memKept s t ∧ unitsKept s t [2]) ∧
      ((n = 3 ∨ ∀ x ∈ s.temps, x < 840) → exec .degradeRaise s = .next s) ∧
      (0 < n → (∀ x ∈ s.temps, x ≤ 800) → ∃ t : State, exec .degradeLower s = .next t ∧ t.fld R.pwrDegrade F.pwrDegrade_level = n - 1 ∧
        (s.preura.outbox.length < 16 → t.preura.outbox = s.preura.outbox ++ [MboxMsg.mk 0 0x83 [BitVec.ofNat 8 (n - 1)]]) ∧
          memKept s t ∧ unitsKept s t [2]) ∧
      ((n = 0 ∨ ∃ x ∈ s.temps, 800 < x) → exec .degradeLower s = .next s)) ∧
    (∀ (e : LogEntry) (l : List LogEntry), s.firmware = true → s.bit R.mboxStatus F.mboxStatus_sealed = false →
      s.takePower.preura.logQueue = e :: l →
      ∃ t : State, exec .logWrite s = .next t ∧ t.pwr.log = [] ∧ t.preura.logNext = s.preura.logNext + 1 ∧
        Tbl.get (fun _ => []) t.preura.log s.preura.logNext = e.words s.preura.logNext ∧
          (s.takePower.preura.logDropped = 0 → t.preura.logQueue = l) ∧
        (s.pwr.log = [] → s.preura.logQueue = e :: l) ∧ (s.preura.logNext % 1024 ≠ 0 → t.preura.logFirst = s.preura.logFirst) ∧
        memKept s t ∧ regsKept s t []) ∧
    (∀ v : Word,
      (s.bit R.mboxToCtl F.mboxToCtl_full = true → v.getLsbD 1 = true → ∃ t : State, exec (.mboxSend v) s = .next t ∧
        t.bit R.mboxStatus F.mboxStatus_toRefused = true ∧
        memKept s t ∧ regsKept s t [R.mboxStatus]) ∧
      (s.bit R.mboxToCtl F.mboxToCtl_full = true → v.getLsbD 1 = false → ∃ t : State, exec (.mboxSend v) s = .next t ∧
        t.bit R.mboxToCtl F.mboxToCtl_full = true ∧
        (t.reg R.mboxToCtl).extractLsb' 31 33 = v.extractLsb' 31 33 ∧ memKept s t ∧ regsKept s t [R.mboxToCtl]) ∧
      (s.bit R.mboxToCtl F.mboxToCtl_full = false → ∃ t : State, exec (.mboxSend v) s = .next t ∧
        t.bit R.mboxToCtl F.mboxToCtl_full = v.getLsbD 1 ∧
        (t.reg R.mboxToCtl).extractLsb' 31 33 = v.extractLsb' 31 33 ∧ memKept s t ∧ regsKept s t [R.mboxToCtl]) ∧
      (v.getLsbD 1 = false → exec (.mboxDone v) s = .next s) ∧
      (v.getLsbD 1 = true → ∃ t : State, exec (.mboxDone v) s = .next t ∧ t.bit R.mboxFromCtl F.mboxFromCtl_full = false ∧ memKept s t ∧
        regsKept s t [R.mboxFromCtl])) ∧
    (s.bit R.mboxToCtl F.mboxToCtl_full = false → exec .mboxTake s = .next s) ∧
    (s.firmware = true → s.bit R.mboxToCtl F.mboxToCtl_full = true → ∃ t : State, exec .mboxTake s = .next t ∧
      t.bit R.mboxToCtl F.mboxToCtl_full = false ∧ memKept s t ∧ regsKept s t [R.mboxToCtl] ∧
      (∀ k, k = s.fld R.mboxToCtl F.mboxToCtl_type →
        (1 ≤ k → k ≤ 3 → t.preura.outbox = s.preura.outbox ∧ ∃ m, t.preura.inbox = s.preura.inbox ++ [m] ∧ m.kind = k ∧
          m.tag = s.fld R.mboxToCtl F.mboxToCtl_tag ∧
          m.body.length = min 256 (s.fld R.mboxToCtl F.mboxToCtl_length)) ∧
        ((k = 0 ∨ 3 < k) → t.preura.inbox = s.preura.inbox ∧ (s.preura.outbox.length < 16 →
          t.preura.outbox = s.preura.outbox ++ [MboxMsg.mk (s.fld R.mboxToCtl F.mboxToCtl_tag) 0xFF [BitVec.ofNat 8 k]])))) ∧
    ((s.preuraState = 3 ∨ s.bit R.mboxFromCtl F.mboxFromCtl_full = true ∨ s.preura.outbox = []) → exec .mboxPost s = .next s) ∧
    (∀ (m : MboxMsg) (l : List MboxMsg), s.preuraState ≠ 3 → s.bit R.mboxFromCtl F.mboxFromCtl_full = false → s.preura.outbox = m :: l →
      ∃ t : State, exec .mboxPost s = .next t ∧ t.preura.outbox = l ∧
      t.bit R.mboxFromCtl F.mboxFromCtl_full = true ∧ t.fld R.mboxFromCtl F.mboxFromCtl_tag = m.tag % 2 ^ 16 ∧
        t.fld R.mboxFromCtl F.mboxFromCtl_type = m.kind % 256 ∧
      t.fld R.mboxFromCtl F.mboxFromCtl_length = min 256 m.body.length ∧ t.edges = s.edges ++ [32 * 0x9D + 1] ∧
      (∀ k, k < 32 → 8 * k + 8 ≤ m.body.length → t.reg (R.mboxFromData k) = BitVec.ofNat 64 (beNat ((m.body.drop (8 * k)).take 8))) ∧
        memKept s t ∧
      regsKept s t (R.mboxFromCtl :: (List.range 32).map R.mboxFromData)) ∧
    (∀ (a : List MboxMsg) (m : MboxMsg) (b : List MboxMsg), s.firmware = true → s.preura.inbox = a ++ m :: b →
      (∀ x ∈ a, x.kind ≠ m.kind) →
      (m.kind = 1 → ∃ t : State, exec .log s = .next t ∧ t.preura.inbox = a ++ b ∧ memKept s t ∧ regsKept s t [] ∧
        (m.body.length ≤ 32 → s.preura.logQueue.length < 1024 →
          ∃ e, t.preura.logQueue = s.preura.logQueue ++ [e] ∧ e.typ = 8 ∧ e.data.length = 4 ∧ t.preura.outbox = s.preura.outbox) ∧
        (32 < m.body.length → s.preura.outbox.length < 16 →
          t.preura.logQueue = s.preura.logQueue ∧ t.preura.outbox = s.preura.outbox ++ [MboxMsg.mk m.tag 0xFF [1]])) ∧
      (m.kind = 2 → ∃ t : State, exec .oeXfer s = .next t ∧ t.preura.inbox = a ++ b ∧ memKept s t ∧ regsKept s t [] ∧
        (oeOk m.body = true → t.busQueue (m.body.getD 0 0).toNat = s.busQueue (m.body.getD 0 0).toNat ++ [m] ∧
          t.preura.outbox = s.preura.outbox) ∧
        (oeOk m.body = false → t.preura.transfers = s.preura.transfers ∧
          (s.preura.outbox.length < 16 → t.preura.outbox = s.preura.outbox ++ [MboxMsg.mk m.tag 0x81 [4]]))) ∧
      (m.kind = 3 → ∃ t : State, exec .relayToBoard s = .next t ∧ t.preura.inbox = a ++ b ∧ t.preura.boardIn = m.body ∧
        t.preura.boardLen = m.body.length ∧ memKept s t ∧
        regsKept s t [])) ∧
    (∀ (q : Fin 6) (st : Fin 3) (data : List Byte) (m : MboxMsg) (l : List MboxMsg), s.firmware = true → s.busQueue q = m :: l →
      (∃ t : State, exec (.oeXferDone q st data) s = .next t ∧ t.busQueue q = l ∧ memKept s t ∧ regsKept s t [] ∧
        (s.preura.outbox.length < 16 → ∃ x, t.preura.outbox = s.preura.outbox ++ [MboxMsg.mk m.tag 0x81 (BitVec.ofNat 8 st :: x)] ∧
          (st = 0 → x.length = (m.body.getD 3 0).toNat ∧ (x.length ≤ data.length → x = data.take x.length)) ∧ (st ≠ 0 → x = []))) ∧
      (∃ t : State, exec (.busStuck q) s = .next t ∧ t.busQueue q = l ∧ memKept s t ∧ regsKept s t [] ∧
        (s.preura.outbox.length < 16 → s.preura.logQueue.length < 1024 →
          t.preura.outbox = s.preura.outbox ++ [MboxMsg.mk m.tag 0x81 [3]] ∧
          ∃ e, t.preura.logQueue = s.preura.logQueue ++ [e] ∧ e.typ = 0x0A))) ∧
    (∀ (q : Fin 6) (data : List Byte), s.firmware = true → ∃ t : State, exec (.oeAlarm q data) s = .next t ∧
      t.preura.transfers = s.preura.transfers ∧ memKept s t ∧
      regsKept s t [] ∧ (s.preura.outbox.length < 16 → s.preura.logQueue.length < 1024 →
        t.preura.outbox = s.preura.outbox ++ [MboxMsg.mk 0 0x85 (BitVec.ofNat 8 q :: data.take 32)] ∧
        ∃ e, t.preura.logQueue = s.preura.logQueue ++ [e] ∧ e.typ = 0x0A)) ∧
    (s.preura.swaps = [] → exec .swapPop s = .next s) ∧
    (∀ (r : List Word) (l : List (List Word)), s.firmware = true → s.preura.swaps = r :: l → ∃ t : State, exec .swapPop s = .next t ∧
      t.preura.swaps = l ∧
      (s.preura.logQueue.length < 1024 → ∃ e, t.preura.logQueue = s.preura.logQueue ++ [e] ∧ e.typ = 5) ∧ memKept s t ∧
        regsKept s t []) ∧
    (∀ v : BitVec 4, (s.preuraState = 3 ∨ s.preuraState = 4) → exec (.sentinelKick v) s = .next s ∧ ∀ c,
      exec (.sentinelTrip c) s = .next s) ∧
    (∀ v : BitVec 4, s.preuraState ≠ 3 → s.preuraState ≠ 4 → (v = 5 ∨ v = 10) → v.toNat ≠ s.preura.kick →
      ∃ t : State, exec (.sentinelKick v) s = .next t ∧ t.preura.kick = v.toNat ∧ t.wires = s.wires ∧ memKept s t ∧ regsKept s t []) ∧
    (∀ (v : BitVec 4) (x : TripCause) (i : Instr) (n : Nat), s.preuraState ≠ 3 → s.preuraState ≠ 4 →
      (i = .sentinelKick v ∧ n = 2 ∧ ¬ ((v = 5 ∨ v = 10) ∧ v.toNat ≠ s.preura.kick)) ∨ (i = .sentinelTrip x ∧ n = tripCode x) →
      ∃ t : State, exec i s = .next t ∧ t.preuraState = 3 ∧ t.bit R.mboxStatus F.mboxStatus_preuraUp = false ∧
        t.bit R.mboxStatus F.mboxStatus_sealed = true ∧
        t.fld R.mboxSentinel F.mboxSentinel_cause = n ∧ counted s t R.mboxStatus F.mboxStatus_trips ∧
        t.wires = s.wires ++ [(Src.preura, 2, faultCode Src.preura (if n = 4 then 0 else 4))] ∧
          (s.domOn 0 = true → t.bit R.gateEvent ⟨6, 6⟩ = true) ∧ memKept s t ∧
        regsKept s t [R.mboxStatus, R.mboxSentinel, R.gateEvent]) ∧
    (∀ v : Word, (v.getLsbD 0 = false ∨ s.preuraState = 4 → exec (.preuraReset v) s = .next s) ∧
      (v.getLsbD 0 = true → s.preuraState ≠ 4 → ∃ t : State, exec (.preuraReset v) s = .next t ∧ t.preuraState = 4 ∧
        counted s t R.mboxStatus F.mboxStatus_resets ∧
        t.bit R.mboxStatus F.mboxStatus_toLost = (s.bit R.mboxStatus F.mboxStatus_toLost || s.bit R.mboxToCtl F.mboxToCtl_full) ∧
        t.bit R.mboxToCtl F.mboxToCtl_full = false ∧ t.fld R.mboxSentinel F.mboxSentinel_timeoutMs = 1000 ∧
          t.restarting Src.preura = false ∧
        t.preura.flash = s.preura.flash ∧ t.preura.swaps = s.preura.swaps ∧ t.preura.logQueue = [] ∧ t.preura.inbox = [] ∧
          t.preura.outbox = [] ∧ memKept s t ∧
        regsKept s t [R.mboxStatus, R.mboxToCtl, R.mboxSentinel, R.fltRestarting])) ∧
    (s.preura.trial = false → exec .slotConfirm s = .next s) ∧
    (s.firmware = true → s.preura.trial = true → ∃ t : State, exec .slotConfirm s = .next t ∧ t.slotConfirm s.preura.slot = true ∧
      t.preura.trial = false ∧ (s.preura.outbox.length < 16 → ∃ b, t.preura.outbox = s.preura.outbox ++ [MboxMsg.mk 0 0x84 b]) ∧
        memKept s t ∧ regsKept s t [])

/-- In PORST_N the port does nothing. MP_ADDR is written without its reserved bits and READY falls; MP_ADDR, MP_STATUS and MP_DATA are
shifted out; a write of MP_STATUS clears ERR, and an unassigned opcode gives BAD_OPCODE. A data access before READY gives NOT_READY
or OVERRUN, a write outside STAGE and COMMAND READ_ONLY, and neither moves the address; an access that completes advances it under
AUTOINC. READY fetches the word, having taken a waiting STAGE word into flash, in DOWNLOAD into SRAM. A write of CMD runs its
command, one of BOARD_OUT is kept. STAGE_OPEN erases the slot that does not run; STAGE_COMMIT of the length written gives it header
and COMMIT, else BAD_IMAGE; ACTIVATE resets Preura if that slot is committed, else is refused; LOG_MARK logs; RELAY posts. In
DOWNLOAD the image in SRAM starts, and what needs flash or firmware is refused. With neither a command fails NO_PREURA, while BUSY
OVERRUN; COMMAND_DONE ends BUSY. No register outside Preura's changes.
Where it rests on the model's own reading or choice, that is log entries 130, 131, 132, 133 and 140. -/
def Obligations.ManagementPortAndCommands : Prop :=
  ∀ (s : State) (v : Word) (op : Byte) (arg : BitVec 56),
    (s.pwr.porst = true → ∀ i ∈ [Instr.mpAddrWrite v, .mpAddrRead, .mpDataWrite v, .mpDataRead, .mpStatusRead, .mpStatusWrite v,
      .mpPreuraReset v, .badOpcode op, .mpReady],
      exec i s = .next s) ∧
    (s.pwr.porst = false →
      (∃ t : State, exec (.mpAddrWrite v) s = .next t ∧ t.preura.mpReady = false ∧
        t.preura.mpAddr.extractLsb' 61 3 = v.extractLsb' 61 3 ∧
        t.preura.mpAddr.extractLsb' 40 21 = 0 ∧ t.preura.mpAddr.extractLsb' 0 40 = v.extractLsb' 0 40 ∧ memKept s t ∧ regsKept s t []) ∧
      (∃ t : State, exec .mpAddrRead s = .next t ∧ t.preura.mpOut = s.preura.mpAddr ∧ t.preura.mpAddr = s.preura.mpAddr ∧ memKept s t ∧
        regsKept s t []) ∧
      (∃ t : State, exec .mpStatusRead s = .next t ∧ (t.preura.mpOut.extractLsb' 8 8).toNat = s.preura.mpErr % 256 ∧
        (t.preura.mpOut.extractLsb' 5 2).toNat = (if s.preuraState = 4 then 0 else s.preuraState % 4) ∧
          t.preura.mpOut.getLsbD 1 = s.firmware ∧
        t.preura.mpOut.getLsbD 0 = s.preura.mpReady ∧ memKept s t ∧ regsKept s t []) ∧
      (∃ t : State, exec (.mpStatusWrite v) s = .next t ∧ t.preura.mpErr = 0 ∧ memKept s t ∧ regsKept s t []) ∧
      (v ≠ 0xA5C3 → exec (.mpPreuraReset v) s = .next s) ∧
      (v = 0xA5C3 → s.preuraState ≠ 4 → ∃ t : State, exec (.mpPreuraReset v) s = .next t ∧ t.preuraState = 4 ∧
        counted s t R.mboxStatus F.mboxStatus_resets ∧
        t.preura.flash = s.preura.flash ∧ memKept s t ∧ regsKept s t [R.mboxStatus, R.mboxToCtl, R.mboxSentinel, R.fltRestarting]) ∧
      (op.toNat ∈ [0x10, 0x11, 0x20, 0x21, 0x31, 0x3C, 0x5A] → exec (.badOpcode op) s = .next s) ∧
      (op.toNat ∉ [0x10, 0x11, 0x20, 0x21, 0x31, 0x3C, 0x5A] → ∃ t : State, exec (.badOpcode op) s = .next t ∧ t.preura.mpErr = 7 ∧
        memKept s t ∧ regsKept s t []) ∧
      (s.preura.mpReady = false →
        (∃ t : State, exec .mpDataRead s = .next t ∧ t.preura.mpOut = 0 ∧ t.preura.mpErr = 1 ∧ t.preura.mpAddr = s.preura.mpAddr ∧
          memKept s t ∧ regsKept s t []) ∧
        (∃ t : State, exec (.mpDataWrite v) s = .next t ∧ t.preura.mpErr = 5 ∧ t.preura.mpAddr = s.preura.mpAddr ∧
          t.preura.flash = s.preura.flash ∧ memKept s t ∧
          regsKept s t [])) ∧
      (s.preura.mpReady = true →
        (s.mpReadError = 0 → ∃ t : State, exec .mpDataRead s = .next t ∧ t.preura.mpOut = s.preura.mpRead ∧ t.preura.mpReady = false ∧
          t.preura.mpErr = s.preura.mpErr ∧
          t.mpOffset = (if s.mpAuto then (s.mpOffset + 8) % 2 ^ 40 else s.mpOffset) ∧ t.mpSpace = s.mpSpace ∧
          t.preura.boardLen = (if s.mpSpace = 3 ∧ s.preura.boardLen ≠ 0 ∧
            s.mpOffset = 0x500 + (s.preura.boardLen - 1) / 8 * 8 then 0 else s.preura.boardLen) ∧
          memKept s t ∧ regsKept s t []) ∧
        (s.mpReadError ≠ 0 → ∃ t : State, exec .mpDataRead s = .next t ∧ t.preura.mpOut = 0 ∧ t.preura.mpErr = s.mpReadError ∧
          t.preura.mpAddr = s.preura.mpAddr ∧
          memKept s t ∧ regsKept s t []) ∧
        ((s.mpSpace = 0 ∨ (s.mpSpace = 1 ∧ s.firmware = true)) → ∃ t : State, exec (.mpDataWrite v) s = .next t ∧ t.preura.mpErr = 4 ∧
          t.preura.mpAddr = s.preura.mpAddr ∧ memKept s t ∧ regsKept s t []) ∧
        (1 ≤ s.mpSpace → s.preuraState ≠ 1 → s.preuraState ≠ 2 → ∃ t : State, exec (.mpDataWrite v) s = .next t ∧ t.preura.mpErr = 2 ∧
          t.preura.mpAddr = s.preura.mpAddr ∧ memKept s t ∧ regsKept s t []) ∧
        (s.mpSpace = 1 → s.firmware = false → ∃ t : State, exec (.mpDataWrite v) s = .next t ∧ t.preura.mpErr = 2 ∧
          t.preura.mpAddr = s.preura.mpAddr ∧ memKept s t ∧
          regsKept s t []) ∧
        ((s.firmware = true ∨ s.preuraState = 2) →
          (s.mpSpace = 2 → s.preura.stageOpen = true → s.mpOffset = s.preura.stageOff → s.mpOffset < 458752 →
            (s.preuraState = 2 ∨ s.bit R.mboxStatus F.mboxStatus_sealed = false) → ∃ t : State, exec (.mpDataWrite v) s = .next t ∧
              t.preura.mpWord = some v ∧
              t.preura.mpReady = false ∧ t.mpOffset = (if s.mpAuto then (s.mpOffset + 8) % 2 ^ 40 else s.mpOffset) ∧
                t.preura.flash = s.preura.flash ∧
              t.preura.sram = s.preura.sram ∧ memKept s t ∧ regsKept s t []) ∧
          (s.mpSpace = 2 → (s.preura.stageOpen = false ∨ s.mpOffset ≠ s.preura.stageOff ∨ 458752 ≤ s.mpOffset) →
            ∃ t : State, exec (.mpDataWrite v) s = .next t ∧ t.preura.mpErr = 3 ∧ t.preura.mpAddr = s.preura.mpAddr ∧
              t.preura.mpWord = s.preura.mpWord ∧ memKept s t ∧
              regsKept s t []) ∧
          (s.mpSpace = 3 → s.mpOffset = 0 → s.preura.cmdBusy = true → ∃ t : State, exec (.mpDataWrite v) s = .next t ∧
            t.preura.mpErr = 5 ∧
            t.preura.mpAddr = s.preura.mpAddr ∧ t.preura.flash = s.preura.flash ∧ memKept s t ∧ regsKept s t []) ∧
          (s.mpSpace = 3 → s.mpOffset = 0 → s.preura.cmdBusy = false →
            (∀ e ∈ [(1, Instr.stageOpen arg), (2, .stageCommit arg), (3, .activate arg), (4, .logMark arg), (5, .relay arg)],
              bitsOf v.toNat 63 56 = e.1 → arg = v.setWidth 56 → ∃ t u : State, exec (.mpDataWrite v) s = .next t ∧
                exec e.2 s = .next u ∧ t = u.mpComplete) ∧
            ((bitsOf v.toNat 63 56 = 0 ∨ 5 < bitsOf v.toNat 63 56) → ∃ t : State, exec (.mpDataWrite v) s = .next t ∧
              t.preura.cmdOp = bitsOf v.toNat 63 56 ∧
              t.preura.cmdBusy = true ∧ t.preura.cmdResult = 2 ∧ t.preura.flash = s.preura.flash ∧ memKept s t ∧ regsKept s t [])) ∧
          (∀ k, k < 32 → s.mpSpace = 3 → s.mpOffset = 0x400 + 8 * k → ∃ t : State, exec (.mpDataWrite v) s = .next t ∧
            t.preura.mpErr = s.preura.mpErr ∧
            Tbl.get (fun _ => 0) t.preura.boardOut k = v ∧ t.preura.mpReady = false ∧ memKept s t ∧ regsKept s t [])) ∧
        exec .mpReady s = .next s) ∧
      (s.preura.mpReady = false →
        (s.preura.mpWord = none → ∃ t : State, exec .mpReady s = .next t ∧ t.preura.mpReady = true ∧
          t.preura.mpRead = (if s.mpReadError = 0 then s.mpValue else 0) ∧ t.preura.flash = s.preura.flash ∧ memKept s t ∧
            regsKept s t []) ∧
        (∀ w : Word, s.preura.mpWord = some w → s.firmware = true → ∃ t : State, exec .mpReady s = .next t ∧ t.preura.mpReady = true ∧
          t.preura.mpWord = none ∧
          t.preura.stageOff = s.preura.stageOff + 8 ∧ t.flashWord s.idleSlot (512 + s.preura.stageOff / 8) = w.toNat ∧ memKept s t ∧
            regsKept s t []) ∧
        (∀ w : Word, s.preura.mpWord = some w → s.preuraState = 2 → ∃ t : State, exec .mpReady s = .next t ∧ t.preura.mpReady = true ∧
          t.preura.mpWord = none ∧
          t.preura.stageOff = s.preura.stageOff + 8 ∧ Tbl.get (fun _ => 0) t.preura.sram (s.preura.stageOff / 8) = w ∧
            t.preura.flash = s.preura.flash ∧ memKept s t ∧
          regsKept s t []))) ∧
    (∀ i ∈ [Instr.stageOpen arg, .stageCommit arg, .activate arg, .logMark arg, .relay arg],
      (s.preuraState ≠ 1 → s.preuraState ≠ 2 → ∃ t : State, exec i s = .next t ∧ t.preura.mpErr = 2 ∧ t.preura.flash = s.preura.flash ∧
        memKept s t ∧ regsKept s t []) ∧
      ((s.preuraState = 1 ∨ s.preuraState = 2) → s.preura.cmdBusy = true → ∃ t : State, exec i s = .next t ∧ t.preura.mpErr = 5 ∧
        t.preura.flash = s.preura.flash ∧
        memKept s t ∧ regsKept s t [])) ∧
    (s.firmware = true → s.preura.cmdBusy = false →
      (∃ t : State, exec (.stageOpen arg) s = .next t ∧ t.preura.cmdBusy = true ∧ t.preura.cmdOp = 1 ∧ t.preura.cmdResult = 0 ∧
        t.preura.stageOpen = true ∧
        t.preura.stageOff = 0 ∧ (∀ w, w < 131072 → t.flashWord s.idleSlot w = 2 ^ 64 - 1) ∧
          (∀ w, w < 131072 → t.flashWord s.preura.slot w = s.flashWord s.preura.slot w) ∧
        memKept s t ∧ regsKept s t []) ∧
      (∀ n : Nat, n = bitsOf arg.toNat 31 0 → s.preura.stageOpen = true →
        (n = s.preura.stageOff → lengthOk n = true → ∃ t : State, exec (.stageCommit arg) s = .next t ∧ t.preura.cmdBusy = true ∧
          t.preura.cmdOp = 2 ∧
          t.preura.cmdResult = 0 ∧ t.slotCommit s.idleSlot = true ∧ t.slotTried s.idleSlot = false ∧ t.slotConfirm s.idleSlot = false ∧
          t.slotGen s.idleSlot = (s.slotGen s.preura.slot + 1) % 2 ^ 32 ∧ bitsOf (t.flashWord s.idleSlot 1) 31 0 = n ∧
          bitsOf (t.flashWord s.idleSlot 2) 31 16 = bitsOf arg.toNat 47 32 ∧ t.slotRuns s.idleSlot = true ∧ memKept s t ∧
            regsKept s t []) ∧
        ((n ≠ s.preura.stageOff ∨ lengthOk n = false) → ∃ t : State, exec (.stageCommit arg) s = .next t ∧ t.preura.cmdBusy = true ∧
          t.preura.cmdResult = 3 ∧
          t.preura.flash = s.preura.flash ∧ memKept s t ∧ regsKept s t [])) ∧
      (s.preura.stageOpen = false → ∃ t : State, exec (.stageCommit arg) s = .next t ∧ t.preura.cmdResult = 2 ∧
        t.preura.flash = s.preura.flash ∧ memKept s t ∧
        regsKept s t []) ∧
      (s.slotCommit s.idleSlot = true → ∃ t : State, exec (.activate arg) s = .next t ∧ t.preuraState = 4 ∧
        counted s t R.mboxStatus F.mboxStatus_resets ∧
        t.preura.flash = s.preura.flash ∧ memKept s t ∧ regsKept s t [R.mboxStatus, R.mboxToCtl, R.mboxSentinel, R.fltRestarting]) ∧
      (s.slotCommit s.idleSlot = false → ∃ t : State, exec (.activate arg) s = .next t ∧ t.preura.cmdBusy = true ∧ t.preura.cmdOp = 3 ∧
        t.preura.cmdResult = 2 ∧
        t.preuraState = 1 ∧ memKept s t ∧ regsKept s t []) ∧
      (∃ t : State, exec (.logMark arg) s = .next t ∧ t.preura.cmdOp = 4 ∧ t.preura.cmdResult = 0 ∧ memKept s t ∧ regsKept s t [] ∧
        (s.preura.logQueue.length < 1024 → ∃ e : LogEntry, t.preura.logQueue = s.preura.logQueue ++ [e] ∧ e.typ = 9 ∧
          e.data = [arg.setWidth 64]) ∧
        (1024 ≤ s.preura.logQueue.length → t.preura.logQueue = s.preura.logQueue ∧ t.preura.logDropped = s.preura.logDropped + 1)) ∧
      (∃ (t : State) (m : MboxMsg), exec (.relay arg) s = .next t ∧ t.preura.cmdOp = 5 ∧ t.preura.cmdResult = 0 ∧
        t.preura.outbox = (if (if s.bit R.mboxFromCtl F.mboxFromCtl_full then 16 else 17) < s.preura.outbox.length + 1 then (s.preura.outbox ++ [m]).drop 1
          else s.preura.outbox ++ [m]) ∧ m.kind = 0x82 ∧ m.body.length = min 256 (bitsOf arg.toNat 8 0) ∧
        (∀ k, k < m.body.length → m.body[k]? = (beBytes 8 (Tbl.get (fun _ => 0) s.preura.boardOut (k / 8)).toNat)[k % 8]?) ∧
          memKept s t ∧ regsKept s t [])) ∧
    (s.preuraState = 2 → s.preura.cmdBusy = false →
      (∃ t : State, exec (.stageOpen arg) s = .next t ∧ t.preura.stageOpen = true ∧ t.preura.stageOff = 0 ∧ t.preura.sram = [] ∧
        t.preura.flash = s.preura.flash ∧
        memKept s t ∧ regsKept s t []) ∧
      (∀ i ∈ [Instr.stageCommit arg, .logMark arg, .relay arg], ∃ t : State, exec i s = .next t ∧ t.preura.cmdBusy = true ∧
        t.preura.cmdResult = 2 ∧
        t.preura.flash = s.preura.flash ∧ t.preura.sram = s.preura.sram ∧ memKept s t ∧ regsKept s t []) ∧
      (∀ n : Nat, n = bitsOf arg.toNat 31 0 →
        (n = s.preura.stageOff → lengthOk n = true → ∃ t : State, exec (.activate arg) s = .next t ∧ t.preuraState = 1 ∧
          t.preura.sram = s.preura.sram ∧ t.fld R.mboxSentinel F.mboxSentinel_timeoutMs = max 10 (min 1000 (bitsOf arg.toNat 47 32)) ∧
            memKept s t ∧
          regsKept s t [R.mboxStatus, R.mboxSentinel]) ∧
        ((lengthOk n = false ∨ n ≠ s.preura.stageOff) → ∃ t : State, exec (.activate arg) s = .next t ∧ t.preuraState = 2 ∧
          t.preura.cmdOp = 3 ∧
          t.preura.cmdBusy = true ∧ t.preura.cmdResult = (if lengthOk n = true ∧ n < s.preura.stageOff then 3 else 2) ∧ memKept s t ∧
            regsKept s t []))) ∧
    (∃ t : State, exec .commandDone s = .next t ∧ t.preura.cmdBusy = false ∧ t.preura.cmdResult = s.preura.cmdResult ∧ memKept s t ∧
      regsKept s t [])

/-- A write of PMC_SEL selects each assigned code; a reserved one leaves its counter's selection and sets EVSEL_BAD. A dump entry that
is not armed, or not reached, does nothing; with no line position, or the QM off, it counts MISSED; with a packet still to be
offered, SKIPPED; else a packet of a header and a record of 88 bytes per unit is built in the DN pool, or, where no cell is to be
had, dropped and LOST (the model's choice, log entry 158). The entry ends, or moves by its period, a late one to the first such
frame ahead. An offered packet counts DUMPS and joins its queue; refused by the admission test, meeting a restart of the queue
manager, or for a queue that is not a host or control-plane one, it is dropped under its cause, its cells freed, and LOST. BW_CFG
discards the window in progress. TRST_N resets the TAP, whose states are the model's reading of IEEE 1149.1 (PRESUMED, log entry 5):
rising edges shift TDI in, falling edges drive TDO while shifting, and IDCODE shows the part.
Where it rests on the model's own reading or choice, that is log entries 5, 6, 158 and 163. -/
def Obligations.CountersDumpsWindowsAndTap : Prop :=
  ∀ (s : State),
    (∀ (u : Fin 256) (v : Word), ((unitAssigned u = false ∨ s.unitOn u = false) → exec (.pmcSelWrite u v) s = .next s) ∧
      (unitAssigned u = true → s.unitOn u = true → ∃ t : State, exec (.pmcSelWrite u v) s = .next t ∧ memKept s t ∧ unitsKept s t [u] ∧
        (∀ i, i < 8 →
          t.evsel u i = if eventCode u (bitsOf v.toNat (8 * i + 7) (8 * i)) then bitsOf v.toNat (8 * i + 7) (8 * i) else s.evsel u i) ∧
        t.bit (R.pmcCtl u) F.pmcCtl_evselBad = (s.bit (R.pmcCtl u) F.pmcCtl_evselBad ||
          (List.range 8).any (fun i => !eventCode u (bitsOf v.toNat (8 * i + 7) (8 * i)))) ∧
        (∀ i, i < 8 → cycleCode u (s.evsel u i) = false → t.reg (R.pmcCnt u i) = s.reg (R.pmcCnt u i)))) ∧
    (∀ (k : Fin 16) (f c p : Nat), f = s.lpFrame (s.reg (R.monDumpLp k)) → c = (s.reg (R.monDumpLp k)).toNat % 2 ^ 21 →
      p = s.fld (R.monDumpCtl k) F.monDumpCtl_period →
      (s.bit (R.monDumpCtl k) F.monDumpCtl_valid = false → exec (.dumpDue k) s = .next s) ∧
      (s.bit (R.monDumpCtl k) F.monDumpCtl_valid = true →
        (s.lpValid = false → ∃ t : State, exec (.dumpDue k) s = .next t ∧ counted s t R.monStatus F.monStatus_missed ∧ memKept s t ∧
          regsKept s t [R.monStatus]) ∧
        (s.lpValid = true → s.lpPassed f c = false → exec (.dumpDue k) s = .next s) ∧
        (s.lpValid = true → s.lpPassed f c = true →
          ∃ t : State, exec (.dumpDue k) s = .next t ∧ (p = 0 → t.bit (R.monDumpCtl k) F.monDumpCtl_valid = false) ∧
            (p ≠ 0 → t.reg (R.monDumpCtl k) = s.reg (R.monDumpCtl k)) ∧
            (p ≠ 0 → k.val ∉ s.mon.late → t.reg (R.monDumpLp k) = BitVec.ofNat 64 (lpWordOf (f + p) c)) ∧
            (p ≠ 0 → k.val ∈ s.mon.late → t.reg (R.monDumpLp k) = BitVec.ofNat 64 (lpWordOf (futureTarget s f c p).1 c)) ∧ memKept s t ∧
              unitsKept s t [4, 6, 0x91] ∧
            (s.domOn 5 = false → (k.val ∉ s.mon.late → counted s t R.monStatus F.monStatus_missed) ∧ t.dumpBuilt k = s.dumpBuilt k) ∧
            (s.domOn 5 = true → s.dumpBuilt k ≠ none → counted s t R.monStatus F.monStatus_skipped ∧ t.dumpBuilt k = s.dumpBuilt k) ∧
            (∀ n : Nat, n = 32 + 88 * (s.dumpUnits k).length → s.domOn 5 = true → s.dumpBuilt k = none →
              (s.domTakes 5 = true → s.restarting Src.qm = false → cellsOf n ≤ s.dieFree .dn →
                ∃ x : Pkt, t.dumpBuilt k = some x ∧ x.bytes.length = n ∧ x.dir = .dn ∧
                  x.queue = s.fld (R.monDumpCtl k) F.monDumpCtl_queue ∧
                  beNat (x.bytes.take 8) = 2 ^ 56 + (s.dumpUnits k).length * 2 ^ 48 + k.val * 2 ^ 44 + (if k.val ∈ s.mon.late then 2 ^ 43 else 0) +
                    Tbl.get (fun _ => 0) s.mon.seqs k % 2 ^ 32 ∧
                  beNat ((x.bytes.drop 8).take 8) = lpWordOf f c ∧ t.dieUsed .dn = s.dieUsed .dn + cellsOf n) ∧
              ((s.domTakes 5 = false ∨ s.restarting Src.qm = true ∨ s.dieFree .dn < cellsOf n) → t.dumpBuilt k = none ∧
                t.dieUsed .dn = s.dieUsed .dn ∧
                counted s t R.monStatus F.monStatus_lost ∧
                  counted s t (R.qmDropCount (if s.restarting Src.qm then 8 else 4)) F.qmDropCount_count))))) ∧
    (∀ k : Fin 16, s.dumpBuilt k = none → exec (.dumpOffer k) s = .next s) ∧
    (∀ (k : Fin 16) (x : Pkt), s.dumpBuilt k = some x → ∃ t : State, exec (.dumpOffer k) s = .next t ∧ t.dumpBuilt k = none ∧
      counted s t R.monStatus F.monStatus_dumps ∧ memKept s t ∧ (x.ret = 0 → unitsKept s t [4, 6, 0x91, 0x93, 0x94]) ∧
      (qSlowRange x.queue = true → s.admitCause x = none → s.restarting Src.qm = false →
        t.fld R.monStatus F.monStatus_lost = s.fld R.monStatus F.monStatus_lost ∧
        ∃ e : QPkt, (t.queue x.queue).pkts.length = (s.queue x.queue).pkts.length + 1 ∧ (t.queue x.queue).pkts.getLast? = some e ∧
          e.pkt.bytes = x.bytes) ∧
      ((qSlowRange x.queue = false ∨ (s.admitCause x).isSome = true ∨ s.restarting Src.qm = true) →
        counted s t R.monStatus F.monStatus_lost ∧
        t.dieUsed x.dir = s.dieUsed x.dir - cellsOf x.bytes.length ∧ (t.queue x.queue).pkts = (s.queue x.queue).pkts ∧
        ∀ c, c = (if qSlowRange x.queue = false then 1 else if s.restarting Src.qm then 8 else (s.admitCause x).getD 0) →
          counted s t (R.qmDropCount c) F.qmDropCount_count)) ∧
    (∀ v : Word, ∃ t : State, exec (.bwCfgWrite v) s = .next t ∧ t.reg R.monBwCfg = BitVec.ofNat 64 (v.toNat % 2 ^ 14) ∧
      t.mon.running = false ∧ t.mon.rx = [] ∧
      t.mon.tx = [] ∧ memKept s t ∧ regsKept s t [R.monBwCfg]) ∧
    (∃ t : State, exec .tapReset s = .next t ∧ t.tap.phase = .testLogicReset ∧ t.tapSelected = 1 ∧ t.tap.tdo = none ∧ memKept s t ∧
      regsKept s t []) ∧
    (∀ tms tdi : Bool,
      (∃ t : State, exec (.tckEdge true tms tdi) s = .next t ∧ t.tap.phase = s.tap.phase.step tms ∧ memKept s t ∧ regsKept s t [] ∧
        (s.tap.phase = .shiftDr → t.tap.dr = s.tap.dr.drop 1 ++ [tdi]) ∧
          (s.tap.phase = .shiftIr → t.tap.ir = s.tap.ir.drop 1 ++ [tdi]) ∧
        (s.tap.phase = .captureDr → s.tap.instr = none → t.tap.dr.length = 32 ∧ t.tap.dr[0]? = some true ∧
          ∀ i, i < 16 → t.tap.dr[12 + i]? = some (Nat.testBit 0x9616 i)) ∧
            (s.tap.phase = .captureDr → s.tapSelected = 0 → t.tap.dr = [false])) ∧
      (∃ t : State, exec (.tckEdge false tms tdi) s = .next t ∧ t.tap.phase = s.tap.phase ∧ memKept s t ∧ regsKept s t [] ∧
        t.tap.tdo = (if s.tap.phase = .shiftDr then s.tap.dr.head? else if s.tap.phase = .shiftIr then s.tap.ir.head? else none) ∧
        (s.tap.phase = .testLogicReset → t.tap.instr = none) ∧ (s.tap.phase = .updateIr → t.tap.instr = some s.tap.ir) ∧
        (s.tap.phase = .updateDr → s.tapSelected = 2 → t.tap.cells = s.tap.dr)))

/-- At reset the register table and the memory are in canonical form: no address is listed twice or out of order, and no entry equals
what an unlisted address reads as. The form is the model's own (log entry 4). -/
def Obligations.ResetIsCanonical : Prop := State.reset.regsWf = true ∧ Memory.wf State.reset.mem = true

/-- From every state whose register table and memory are in canonical form, every step of every command leads to such a state: equal
registers and equal memories stay equal data. The form is the model's own (log entry 4). -/
def Obligations.StepsKeepCanonicalForm : Prop :=
  ∀ s t : State, s.regsWf = true → Memory.wf s.mem = true → step s = .next t → t.regsWf = true ∧ Memory.wf t.mem = true
end

