-- ==== Sys2Proof/Laws/Tbl.lean ====
section
/-!
SUPPORT. The laws of sparse tables: a read after a write, and every operation keeps the canonical form.
-/

namespace Sys2Proof.Machine

variable {α : Type}

theorem Tbl.find_put_same (t : Tbl α) (k : Nat) (v : α) : Tbl.find (Tbl.put t k v) k = some v := by
  induction t with
  | nil => simp [Tbl.put, Tbl.find]
  | cons h t ih =>
    obtain ⟨k', v'⟩ := h
    simp only [Tbl.put]
    split_ifs with h1 h2
    · simp [Tbl.find]
    · simp [Tbl.find]
    · simp [Tbl.find, h2, ih]

theorem Tbl.find_put_other (t : Tbl α) {k j : Nat} (v : α) (hj : j ≠ k) :
    Tbl.find (Tbl.put t k v) j = Tbl.find t j := by
  induction t with
  | nil => simp [Tbl.put, Tbl.find, hj]
  | cons h t ih =>
    obtain ⟨k', v'⟩ := h
    simp only [Tbl.put]
    split_ifs with h1 h2
    · simp [Tbl.find, hj]
    · subst h2; simp [Tbl.find, hj]
    · simp only [Tbl.find, ih]

theorem Tbl.find_del_other (t : Tbl α) {k j : Nat} (hj : j ≠ k) :
    Tbl.find (Tbl.del t k) j = Tbl.find t j := by
  induction t with
  | nil => rfl
  | cons h t ih =>
    obtain ⟨k', v'⟩ := h
    simp only [Tbl.del]
    split_ifs with h1
    · subst h1; simp [Tbl.find, hj, ih]
    · simp only [Tbl.find, ih]

theorem Tbl.find_del_same (t : Tbl α) (k : Nat) : Tbl.find (Tbl.del t k) k = none := by
  induction t with
  | nil => rfl
  | cons h' t ih =>
    obtain ⟨k', v'⟩ := h'
    simp only [Tbl.del]
    split_ifs with h1
    · exact ih
    · simp only [Tbl.find, if_neg h1]
      exact ih

variable [DecidableEq α]

/-- Setting a key removes its entries or places the value. -/
theorem Tbl.set_eq (d : Nat → α) (t : Tbl α) (k : Nat) (v : α) :
    Tbl.set d t k v = if v = d k then Tbl.del t k else Tbl.put t k v := by
  induction t with
  | nil => simp [Tbl.set, Tbl.del, Tbl.put]
  | cons h t ih =>
    obtain ⟨k', v'⟩ := h
    simp only [Tbl.set, Tbl.del, Tbl.put, ih]
    by_cases h1 : v = d k
    · by_cases h2 : k = k'
      · subst h2; simp [h1]
      · simp [h1, h2]
    · simp [h1]

/-- A read of another key after a write. -/
@[simp] theorem Tbl.get_set_other (d : Nat → α) (t : Tbl α) {k j : Nat} (v : α) (hj : j ≠ k) :
    Tbl.get d (Tbl.set d t k v) j = Tbl.get d t j := by
  rw [Tbl.set_eq]
  unfold Tbl.get
  split_ifs
  · rw [Tbl.find_del_other t hj]
  · rw [Tbl.find_put_other t v hj]

/-- A read of the key just written. -/
@[simp] theorem Tbl.get_set_same (d : Nat → α) (t : Tbl α) (k : Nat) (v : α) :
    Tbl.get d (Tbl.set d t k v) k = v := by
  rw [Tbl.set_eq]
  unfold Tbl.get
  split_ifs with h1
  · rw [Tbl.find_del_same]; simp [h1]
  · rw [Tbl.find_put_same]; rfl

theorem Tbl.wfFrom_mono (d : Nat → α) (t : Tbl α) {a b : Nat} (h : Tbl.wfFrom d b t = true) (hab : a ≤ b) :
    Tbl.wfFrom d a t = true := by
  cases t with
  | nil => rfl
  | cons h' t =>
    obtain ⟨k', v'⟩ := h'
    simp only [Tbl.wfFrom, Bool.and_eq_true, decide_eq_true_eq] at h ⊢
    exact ⟨⟨by omega, h.1.2⟩, h.2⟩

theorem Tbl.wfFrom_put (d : Nat → α) (t : Tbl α) {b k : Nat} {v : α} (h : Tbl.wfFrom d b t = true)
    (hv : v ≠ d k) (hb : b ≤ k) : Tbl.wfFrom d b (Tbl.put t k v) = true := by
  induction t generalizing b with
  | nil => simp [Tbl.put, Tbl.wfFrom, hv, hb]
  | cons h' t ih =>
    obtain ⟨k', v'⟩ := h'
    simp only [Tbl.wfFrom, Bool.and_eq_true, decide_eq_true_eq] at h
    simp only [Tbl.put]
    split_ifs with h1 h2
    · simp only [Tbl.wfFrom, Bool.and_eq_true, decide_eq_true_eq]
      exact ⟨⟨hb, hv⟩, ⟨by omega, h.1.2⟩, h.2⟩
    · subst h2
      simp only [Tbl.wfFrom, Bool.and_eq_true, decide_eq_true_eq]
      exact ⟨⟨hb, hv⟩, h.2⟩
    · simp only [Tbl.wfFrom, Bool.and_eq_true, decide_eq_true_eq]
      exact ⟨h.1, ih h.2 (by omega)⟩

theorem Tbl.wfFrom_del (d : Nat → α) (t : Tbl α) {b k : Nat} (h : Tbl.wfFrom d b t = true) :
    Tbl.wfFrom d b (Tbl.del t k) = true := by
  induction t generalizing b with
  | nil => rfl
  | cons h' t ih =>
    obtain ⟨k', v'⟩ := h'
    simp only [Tbl.wfFrom, Bool.and_eq_true, decide_eq_true_eq] at h
    simp only [Tbl.del]
    split_ifs with h1
    · exact ih (Tbl.wfFrom_mono d t h.2 (by omega))
    · simp only [Tbl.wfFrom, Bool.and_eq_true, decide_eq_true_eq]
      exact ⟨h.1, ih h.2⟩

/-- Writing keeps the canonical form. -/
theorem Tbl.wf_set (d : Nat → α) (t : Tbl α) (k : Nat) (v : α) (h : Tbl.wf d t = true) :
    Tbl.wf d (Tbl.set d t k v) = true := by
  rw [Tbl.set_eq]
  split_ifs with h1
  · exact Tbl.wfFrom_del d t h
  · exact Tbl.wfFrom_put d t h h1 (Nat.zero_le _)

theorem Tbl.wfFrom_keep (d : Nat → α) (p : Nat → Bool) (t : Tbl α) {b : Nat} (h : Tbl.wfFrom d b t = true) :
    Tbl.wfFrom d b (Tbl.keep p t) = true := by
  induction t generalizing b with
  | nil => rfl
  | cons h' t ih =>
    obtain ⟨k', v'⟩ := h'
    simp only [Tbl.wfFrom, Bool.and_eq_true, decide_eq_true_eq] at h
    simp only [Tbl.keep]
    split_ifs
    · simp only [Tbl.wfFrom, Bool.and_eq_true, decide_eq_true_eq]
      exact ⟨h.1, ih h.2⟩
    · exact ih (Tbl.wfFrom_mono d t h.2 (by omega))

/-- Clearing keys keeps the canonical form. -/
theorem Tbl.wf_keep (d : Nat → α) (p : Nat → Bool) (t : Tbl α) (h : Tbl.wf d t = true) :
    Tbl.wf d (Tbl.keep p t) = true :=
  Tbl.wfFrom_keep d p t h

end Sys2Proof.Machine
end

