-- ==== Sys2Proof/Laws/Memory.lean ====
section
/-!
SUPPORT. The laws of memory: a read after a write, what a write leaves alone, and that every memory operation keeps the canonical form.
-/

namespace Sys2Proof.Machine

/-- A cell below or above the bytes written reads as before. -/
theorem cell_writeCells_other (m : List Host.Cell) (v : List Byte) (a x : Nat) (h : x < a ∨ a + v.length ≤ x) :
    Tbl.get memDefault (writeCells m a v) x = Tbl.get memDefault m x := by
  induction v generalizing m a with
  | nil => rfl
  | cons b v ih =>
    simp only [List.length_cons] at h
    simp only [writeCells]
    rw [ih _ _ (by omega), Tbl.get_set_other _ _ _ (by omega)]

/-- A cell among the bytes written reads as the byte written there. -/
theorem cell_writeCells_same (m : List Host.Cell) (v : List Byte) (a i : Nat) (h : i < v.length) :
    Tbl.get memDefault (writeCells m a v) (a + i) = v[i] := by
  induction v generalizing m a i with
  | nil => simp at h
  | cons b v ih =>
    cases i with
    | zero =>
      simp only [writeCells]
      rw [cell_writeCells_other _ _ _ _ (by omega)]
      simp
    | succ i =>
      simp only [List.length_cons, Nat.add_lt_add_iff_right] at h
      simp only [writeCells, List.getElem_cons_succ]
      rw [← ih (Tbl.set memDefault m a b) (a + 1) i h]
      congr 1
      omega

/-- Writing bytes keeps the canonical form. -/
theorem wf_writeCells (m : List Host.Cell) (v : List Byte) (a : Nat) (h : Memory.wf m = true) : Memory.wf (writeCells m a v) = true := by
  induction v generalizing m a with
  | nil => exact h
  | cons b v ih => exact ih _ _ (Tbl.wf_set memDefault m a b h)

@[simp] theorem cell_writeBytes_other (s : State) (v : List Byte) (a x : Nat) (h : x < a ∨ a + v.length ≤ x) :
    (s.writeBytes a v).cell x = s.cell x := cell_writeCells_other s.mem v a x h

theorem cell_writeBytes_same (s : State) (v : List Byte) (a i : Nat) (h : i < v.length) :
    (s.writeBytes a v).cell (a + i) = v[i] := cell_writeCells_same s.mem v a i h

theorem wf_writeBytes (s : State) (v : List Byte) (a : Nat) (h : Memory.wf s.mem = true) : Memory.wf (s.writeBytes a v).mem = true :=
  wf_writeCells s.mem v a h

/-- Clearing a memory space keeps the canonical form. -/
theorem wf_clearSpace (s : State) (k : Nat) (h : Memory.wf s.mem = true) : Memory.wf (s.clearSpace k).mem = true :=
  Tbl.wf_keep memDefault _ s.mem h

/-- A read of the bytes just written. -/
theorem readBytes_writeBytes (s : State) (v : List Byte) (a : Nat) : (s.writeBytes a v).readBytes a v.length = v := by
  apply List.ext_getElem
  · simp [State.readBytes]
  · intro i h1 h2
    simp only [State.readBytes, List.getElem_map, List.getElem_range]
    exact cell_writeCells_same s.mem v a i h2

theorem wf_reset_mem : Memory.wf State.reset.mem = true := rfl

end Sys2Proof.Machine
end

