-- ==== Sys2Proof/Laws/Regs.lean ====
section
/-!
SUPPORT. The laws of the register file: what a register and a field read as after `setReg`, `setFld`, `setBit`, `count`, `latch`.
-/

namespace Sys2Proof.Machine

@[simp] theorem reg_setReg_same (s : State) (a : Nat) (w : BitVec 64) : (s.setReg a w).reg a = w := by
  simp [State.reg, State.setReg]

theorem reg_setReg_other (s : State) {a b : Nat} (w : BitVec 64) (h : b ≠ a) : (s.setReg a w).reg b = s.reg b := by
  simp [State.reg, State.setReg, h]

theorem reg_setFld_other (s : State) {a b : Nat} (f : Fld) (v : Nat) (h : b ≠ a) : (s.setFld a f v).reg b = s.reg b :=
  reg_setReg_other s _ h

/-- A field just written. -/
theorem fld_setFld_same (s : State) (a : Nat) (f : Fld) (v : Nat) (h : f.lo ≤ f.hi) (h2 : f.hi < 64) :
    (s.setFld a f v).fld a f = v % 2 ^ (f.hi + 1 - f.lo) := by
  have hl := setBitsOf_lt (s.reg a).toNat f.hi f.lo v 64 (by omega) h2 (s.reg a).isLt
  simp only [State.fld, State.setFld, reg_setReg_same, BitVec.toNat_ofNat]
  rw [Nat.mod_eq_of_lt hl, bitsOf_setBitsOf_same _ _ _ _ (by omega)]

/-- Another field of the same register. -/
theorem fld_setFld_field (s : State) (a : Nat) (f g : Fld) (v : Nat) (h : f.lo ≤ f.hi) (h2 : f.hi < 64)
    (hd : g.hi < f.lo ∨ f.hi < g.lo) : (s.setFld a f v).fld a g = s.fld a g := by
  have hl := setBitsOf_lt (s.reg a).toNat f.hi f.lo v 64 (by omega) h2 (s.reg a).isLt
  simp only [State.fld, State.setFld, reg_setReg_same, BitVec.toNat_ofNat]
  rw [Nat.mod_eq_of_lt hl, bitsOf_setBitsOf_other _ _ _ _ _ _ (by omega) hd]

/-- A field of another register. -/
theorem fld_setFld_other (s : State) {a b : Nat} (f g : Fld) (v : Nat) (h : b ≠ a) : (s.setFld a f v).fld b g = s.fld b g := by
  simp [State.fld, reg_setFld_other s f v h]

theorem fld_setReg_other (s : State) {a b : Nat} (w : BitVec 64) (g : Fld) (h : b ≠ a) : (s.setReg a w).fld b g = s.fld b g := by
  simp [State.fld, reg_setReg_other s w h]

theorem bit_setBit_same (s : State) (a : Nat) (f : Fld) (b : Bool) (h : f.lo = f.hi) (h2 : f.hi < 64) :
    (s.setBit a f b).bit a f = b := by
  simp only [State.bit, State.setBit]
  rw [fld_setFld_same s a f _ (by omega) h2]
  have e : f.hi + 1 - f.lo = 1 := by omega
  cases b <;> simp [b2n, e]

theorem reg_setBit_other (s : State) {a b : Nat} (f : Fld) (v : Bool) (h : b ≠ a) : (s.setBit a f v).reg b = s.reg b :=
  reg_setFld_other s f _ h

theorem reg_count_other (s : State) {a b : Nat} (f : Fld) (n : Nat) (h : b ≠ a) : (s.count a f n).reg b = s.reg b :=
  reg_setFld_other s f _ h

/-- A counter after an event: one more, or its greatest value. -/
theorem fld_count_same (s : State) (a : Nat) (f : Fld) (n : Nat) (h : f.lo ≤ f.hi) (h2 : f.hi < 64) :
    (s.count a f n).fld a f = min (s.fld a f + n) (2 ^ (f.hi + 1 - f.lo) - 1) := by
  simp only [State.count]
  rw [fld_setFld_same s a f _ h h2]
  apply Nat.mod_eq_of_lt
  have : 0 < 2 ^ (f.hi + 1 - f.lo) := by positivity
  simp only [satAdd]; omega

theorem fld_setBit_other (s : State) {a b : Nat} (f g : Fld) (v : Bool) (h : b ≠ a) : (s.setBit a f v).fld b g = s.fld b g :=
  fld_setFld_other s f g _ h

theorem fld_setBit_field (s : State) (a : Nat) (f g : Fld) (v : Bool) (h : f.lo ≤ f.hi) (h2 : f.hi < 64)
    (hd : g.hi < f.lo ∨ f.hi < g.lo) : (s.setBit a f v).fld a g = s.fld a g := fld_setFld_field s a f g _ h h2 hd

theorem bit_setBit_other (s : State) {a b : Nat} (f g : Fld) (v : Bool) (h : b ≠ a) : (s.setBit a f v).bit b g = s.bit b g := by
  simp [State.bit, fld_setBit_other s f g v h]

theorem bit_setBit_field (s : State) (a : Nat) (f g : Fld) (v : Bool) (h : f.lo ≤ f.hi) (h2 : f.hi < 64)
    (hd : g.hi < f.lo ∨ f.hi < g.lo) : (s.setBit a f v).bit a g = s.bit a g := by
  simp [State.bit, fld_setBit_field s a f g v h h2 hd]

theorem bit_setFld_other (s : State) {a b : Nat} (f g : Fld) (v : Nat) (h : b ≠ a) : (s.setFld a f v).bit b g = s.bit b g := by
  simp [State.bit, fld_setFld_other s f g v h]

theorem bit_setFld_field (s : State) (a : Nat) (f g : Fld) (v : Nat) (h : f.lo ≤ f.hi) (h2 : f.hi < 64)
    (hd : g.hi < f.lo ∨ f.hi < g.lo) : (s.setFld a f v).bit a g = s.bit a g := by
  simp [State.bit, fld_setFld_field s a f g v h h2 hd]

theorem bit_setReg_other (s : State) {a b : Nat} (w : BitVec 64) (g : Fld) (h : b ≠ a) : (s.setReg a w).bit b g = s.bit b g := by
  simp [State.bit, fld_setReg_other s w g h]

theorem fld_count_other (s : State) {a b : Nat} (f g : Fld) (n : Nat) (h : b ≠ a) : (s.count a f n).fld b g = s.fld b g :=
  fld_setFld_other s f g _ h

theorem fld_count_field (s : State) (a : Nat) (f g : Fld) (n : Nat) (h : f.lo ≤ f.hi) (h2 : f.hi < 64)
    (hd : g.hi < f.lo ∨ f.hi < g.lo) : (s.count a f n).fld a g = s.fld a g := fld_setFld_field s a f g _ h h2 hd

theorem bit_count_other (s : State) {a b : Nat} (f g : Fld) (n : Nat) (h : b ≠ a) : (s.count a f n).bit b g = s.bit b g :=
  bit_setFld_other s f g _ h

@[simp] theorem reg_edge (s : State) (src a : Nat) : (s.edge src).reg a = s.reg a := of_eq_true (eq_self _)
@[simp] theorem fld_edge (s : State) (src a : Nat) (f : Fld) : (s.edge src).fld a f = s.fld a f := of_eq_true (eq_self _)
@[simp] theorem bit_edge (s : State) (src a : Nat) (f : Fld) : (s.edge src).bit a f = s.bit a f := of_eq_true (eq_self _)
@[simp] theorem reg_signal (s : State) (src c code a : Nat) : (s.signal src c code).reg a = s.reg a := of_eq_true (eq_self _)
@[simp] theorem fld_signal (s : State) (src c code a : Nat) (f : Fld) : (s.signal src c code).fld a f = s.fld a f := of_eq_true (eq_self _)
@[simp] theorem bit_signal (s : State) (src c code a : Nat) (f : Fld) : (s.signal src c code).bit a f = s.bit a f := of_eq_true (eq_self _)

/-- A W1C bit set by hardware is set. -/
theorem bit_latch_same (s : State) (a : Nat) (f : Fld) (h : f.lo = f.hi) (h2 : f.hi < 64) : (s.latch a f).bit a f = true := by
  unfold State.latch
  split_ifs with hb
  · exact hb
  · have := bit_setBit_same s a f true h h2
    simpa [State.setBit, b2n] using this

theorem reg_latch_other (s : State) {a b : Nat} (f : Fld) (h : b ≠ a) : (s.latch a f).reg b = s.reg b := by
  unfold State.latch
  split_ifs
  · rfl
  · simp [reg_setFld_other s f 1 h]

theorem fld_latch_other (s : State) {a b : Nat} (f g : Fld) (h : b ≠ a) : (s.latch a f).fld b g = s.fld b g := by
  simp [State.fld, reg_latch_other s f h]

theorem bit_latch_other (s : State) {a b : Nat} (f g : Fld) (h : b ≠ a) : (s.latch a f).bit b g = s.bit b g := by
  simp [State.bit, fld_latch_other s f g h]

theorem fld_latch_field (s : State) (a : Nat) (f g : Fld) (h : f.lo ≤ f.hi) (h2 : f.hi < 64)
    (hd : g.hi < f.lo ∨ f.hi < g.lo) : (s.latch a f).fld a g = s.fld a g := by
  unfold State.latch
  split_ifs
  · rfl
  · simp [fld_setFld_field s a f g 1 h h2 hd]

theorem bit_latch_field (s : State) (a : Nat) (f g : Fld) (h : f.lo ≤ f.hi) (h2 : f.hi < 64)
    (hd : g.hi < f.lo ∨ f.hi < g.lo) : (s.latch a f).bit a g = s.bit a g := by
  simp [State.bit, fld_latch_field s a f g h h2 hd]

/-- A bit newly set raises the unit event. -/
theorem edges_latch (s : State) (a : Nat) (f : Fld) :
    (s.latch a f).edges = if s.bit a f then s.edges else s.edges ++ [32 * unitOf a] := by
  unfold State.latch
  split_ifs <;> rfl


theorem reg_latchIf_other (s : State) {a b : Nat} (c : Bool) (f : Fld) (h : b ≠ a) : (s.latchIf c a f).reg b = s.reg b := by
  unfold State.latchIf
  split
  · exact reg_latch_other s f h
  · rfl

theorem fld_latchIf_other (s : State) {a b : Nat} (c : Bool) (f g : Fld) (h : b ≠ a) : (s.latchIf c a f).fld b g = s.fld b g := by
  simp [State.fld, reg_latchIf_other s c f h]

theorem bit_latchIf_other (s : State) {a b : Nat} (c : Bool) (f g : Fld) (h : b ≠ a) : (s.latchIf c a f).bit b g = s.bit b g := by
  simp [State.bit, fld_latchIf_other s c f g h]

/-- An event of a unit changes no register outside the unit's counter block. -/
theorem reg_pmcEvent_other (s : State) (u code n : Nat) {a : Nat}
    (h : a < 0x100000000 * u + 0xF000 ∨ 0x100000000 * u + 0xF058 ≤ a) : (s.pmcEvent u code n).reg a = s.reg a := by
  have fold : ∀ (l : List Nat) (s : State), (∀ i ∈ l, i < 8) → (l.foldl (fun (s : State) i =>
      if s.bit (R.pmcCtl u) ⟨i, i⟩ && s.evsel u i == code then
        (s.setFld (R.pmcCnt u i) F.pmcCnt_count (s.fld (R.pmcCnt u i) F.pmcCnt_count + n)).latchIf
          (decide (2 ^ 48 ≤ s.fld (R.pmcCnt u i) F.pmcCnt_count + n)) (R.pmcCtl u) ⟨16 + i, 16 + i⟩
      else s) s).reg a = s.reg a := by
    intro l
    induction l with
    | nil => intro s _; rfl
    | cons i l ih =>
      intro s hl
      have hi := hl i (by simp)
      simp only [List.foldl_cons]
      rw [ih _ (fun j hj => hl j (by simp [hj]))]
      split
      · rw [reg_latchIf_other _ _ _ (by simp only [R.pmcCtl]; omega), reg_setFld_other _ _ _ (by simp only [R.pmcCnt]; omega)]
      · rfl
  unfold State.pmcEvent
  simp only
  split
  all_goals
    split
    · rfl
    · exact fold _ s (fun i hi => by simpa using hi)

theorem fld_pmcEvent_other (s : State) (u code n : Nat) {a : Nat} (f : Fld)
    (h : a < 0x100000000 * u + 0xF000 ∨ 0x100000000 * u + 0xF058 ≤ a) : (s.pmcEvent u code n).fld a f = s.fld a f := by
  simp [State.fld, reg_pmcEvent_other s u code n h]

theorem bit_pmcEvent_other (s : State) (u code n : Nat) {a : Nat} (f : Fld)
    (h : a < 0x100000000 * u + 0xF000 ∨ 0x100000000 * u + 0xF058 ≤ a) : (s.pmcEvent u code n).bit a f = s.bit a f := by
  simp [State.bit, fld_pmcEvent_other s u code n f h]

/-- Every write of a register keeps the register table canonical. -/
theorem regsWf_setReg (s : State) (a : Nat) (w : BitVec 64) (h : Tbl.wf regReset s.regs = true) :
    Tbl.wf regReset (s.setReg a w).regs = true := Tbl.wf_set regReset s.regs a w h

theorem regsWf_clearUnits (s : State) (p : Nat → Bool) (h : Tbl.wf regReset s.regs = true) :
    Tbl.wf regReset (s.clearUnits p).regs = true := Tbl.wf_keep regReset _ s.regs h

end Sys2Proof.Machine
end

