-- ==== Sys2Proof/Laws/State.lean ====
section
/-!
SUPPORT. What the named updates of the state leave alone: one lemma for each update and each field that it does not touch.
-/

namespace Sys2Proof.Machine

variable (s : State)

@[simp] theorem setReg_pending (a : Nat) (w : BitVec 64) : (s.setReg a w).pending = s.pending := of_eq_true (eq_self _)
@[simp] theorem setReg_mem (a : Nat) (w : BitVec 64) : (s.setReg a w).mem = s.mem := of_eq_true (eq_self _)
@[simp] theorem setReg_free (a : Nat) (w : BitVec 64) : (s.setReg a w).free = s.free := of_eq_true (eq_self _)
@[simp] theorem setReg_edges (a : Nat) (w : BitVec 64) : (s.setReg a w).edges = s.edges := of_eq_true (eq_self _)
@[simp] theorem setReg_wires (a : Nat) (w : BitVec 64) : (s.setReg a w).wires = s.wires := of_eq_true (eq_self _)
@[simp] theorem setReg_med (a : Nat) (w : BitVec 64) : (s.setReg a w).med = s.med := of_eq_true (eq_self _)
@[simp] theorem setReg_dfp (a : Nat) (w : BitVec 64) : (s.setReg a w).dfp = s.dfp := of_eq_true (eq_self _)
@[simp] theorem setReg_ubb (a : Nat) (w : BitVec 64) : (s.setReg a w).ubb = s.ubb := of_eq_true (eq_self _)
@[simp] theorem setReg_ward (a : Nat) (w : BitVec 64) : (s.setReg a w).ward = s.ward := of_eq_true (eq_self _)
@[simp] theorem setReg_enrol (a : Nat) (w : BitVec 64) : (s.setReg a w).enrol = s.enrol := of_eq_true (eq_self _)
@[simp] theorem setReg_time (a : Nat) (w : BitVec 64) : (s.setReg a w).time = s.time := of_eq_true (eq_self _)
@[simp] theorem setReg_cls (a : Nat) (w : BitVec 64) : (s.setReg a w).cls = s.cls := of_eq_true (eq_self _)
@[simp] theorem setReg_qm (a : Nat) (w : BitVec 64) : (s.setReg a w).qm = s.qm := of_eq_true (eq_self _)
@[simp] theorem setReg_cli (a : Nat) (w : BitVec 64) : (s.setReg a w).cli = s.cli := of_eq_true (eq_self _)
@[simp] theorem setReg_circ (a : Nat) (w : BitVec 64) : (s.setReg a w).circ = s.circ := of_eq_true (eq_self _)
@[simp] theorem setReg_ciph (a : Nat) (w : BitVec 64) : (s.setReg a w).ciph = s.ciph := of_eq_true (eq_self _)
@[simp] theorem setReg_flt (a : Nat) (w : BitVec 64) : (s.setReg a w).flt = s.flt := of_eq_true (eq_self _)
@[simp] theorem setReg_lsch (a : Nat) (w : BitVec 64) : (s.setReg a w).lsch = s.lsch := of_eq_true (eq_self _)
@[simp] theorem setReg_host (a : Nat) (w : BitVec 64) : (s.setReg a w).host = s.host := of_eq_true (eq_self _)
@[simp] theorem setReg_twin (a : Nat) (w : BitVec 64) : (s.setReg a w).twin = s.twin := of_eq_true (eq_self _)
@[simp] theorem setReg_preura (a : Nat) (w : BitVec 64) : (s.setReg a w).preura = s.preura := of_eq_true (eq_self _)
@[simp] theorem setReg_pwr (a : Nat) (w : BitVec 64) : (s.setReg a w).pwr = s.pwr := of_eq_true (eq_self _)
@[simp] theorem setReg_mon (a : Nat) (w : BitVec 64) : (s.setReg a w).mon = s.mon := of_eq_true (eq_self _)
@[simp] theorem setReg_tap (a : Nat) (w : BitVec 64) : (s.setReg a w).tap = s.tap := of_eq_true (eq_self _)

@[simp] theorem setFld_pending (a : Nat) (f : Fld) (v : Nat) : (s.setFld a f v).pending = s.pending := of_eq_true (eq_self _)
@[simp] theorem setFld_mem (a : Nat) (f : Fld) (v : Nat) : (s.setFld a f v).mem = s.mem := of_eq_true (eq_self _)
@[simp] theorem setFld_free (a : Nat) (f : Fld) (v : Nat) : (s.setFld a f v).free = s.free := of_eq_true (eq_self _)
@[simp] theorem setFld_edges (a : Nat) (f : Fld) (v : Nat) : (s.setFld a f v).edges = s.edges := of_eq_true (eq_self _)
@[simp] theorem setFld_wires (a : Nat) (f : Fld) (v : Nat) : (s.setFld a f v).wires = s.wires := of_eq_true (eq_self _)
@[simp] theorem setFld_med (a : Nat) (f : Fld) (v : Nat) : (s.setFld a f v).med = s.med := of_eq_true (eq_self _)
@[simp] theorem setFld_dfp (a : Nat) (f : Fld) (v : Nat) : (s.setFld a f v).dfp = s.dfp := of_eq_true (eq_self _)
@[simp] theorem setFld_ubb (a : Nat) (f : Fld) (v : Nat) : (s.setFld a f v).ubb = s.ubb := of_eq_true (eq_self _)
@[simp] theorem setFld_ward (a : Nat) (f : Fld) (v : Nat) : (s.setFld a f v).ward = s.ward := of_eq_true (eq_self _)
@[simp] theorem setFld_enrol (a : Nat) (f : Fld) (v : Nat) : (s.setFld a f v).enrol = s.enrol := of_eq_true (eq_self _)
@[simp] theorem setFld_time (a : Nat) (f : Fld) (v : Nat) : (s.setFld a f v).time = s.time := of_eq_true (eq_self _)
@[simp] theorem setFld_cls (a : Nat) (f : Fld) (v : Nat) : (s.setFld a f v).cls = s.cls := of_eq_true (eq_self _)
@[simp] theorem setFld_qm (a : Nat) (f : Fld) (v : Nat) : (s.setFld a f v).qm = s.qm := of_eq_true (eq_self _)
@[simp] theorem setFld_cli (a : Nat) (f : Fld) (v : Nat) : (s.setFld a f v).cli = s.cli := of_eq_true (eq_self _)
@[simp] theorem setFld_circ (a : Nat) (f : Fld) (v : Nat) : (s.setFld a f v).circ = s.circ := of_eq_true (eq_self _)
@[simp] theorem setFld_ciph (a : Nat) (f : Fld) (v : Nat) : (s.setFld a f v).ciph = s.ciph := of_eq_true (eq_self _)
@[simp] theorem setFld_flt (a : Nat) (f : Fld) (v : Nat) : (s.setFld a f v).flt = s.flt := of_eq_true (eq_self _)
@[simp] theorem setFld_lsch (a : Nat) (f : Fld) (v : Nat) : (s.setFld a f v).lsch = s.lsch := of_eq_true (eq_self _)
@[simp] theorem setFld_host (a : Nat) (f : Fld) (v : Nat) : (s.setFld a f v).host = s.host := of_eq_true (eq_self _)
@[simp] theorem setFld_twin (a : Nat) (f : Fld) (v : Nat) : (s.setFld a f v).twin = s.twin := of_eq_true (eq_self _)
@[simp] theorem setFld_preura (a : Nat) (f : Fld) (v : Nat) : (s.setFld a f v).preura = s.preura := of_eq_true (eq_self _)
@[simp] theorem setFld_pwr (a : Nat) (f : Fld) (v : Nat) : (s.setFld a f v).pwr = s.pwr := of_eq_true (eq_self _)
@[simp] theorem setFld_mon (a : Nat) (f : Fld) (v : Nat) : (s.setFld a f v).mon = s.mon := of_eq_true (eq_self _)
@[simp] theorem setFld_tap (a : Nat) (f : Fld) (v : Nat) : (s.setFld a f v).tap = s.tap := of_eq_true (eq_self _)

@[simp] theorem setBit_pending (a : Nat) (f : Fld) (b : Bool) : (s.setBit a f b).pending = s.pending := of_eq_true (eq_self _)
@[simp] theorem setBit_mem (a : Nat) (f : Fld) (b : Bool) : (s.setBit a f b).mem = s.mem := of_eq_true (eq_self _)
@[simp] theorem setBit_free (a : Nat) (f : Fld) (b : Bool) : (s.setBit a f b).free = s.free := of_eq_true (eq_self _)
@[simp] theorem setBit_edges (a : Nat) (f : Fld) (b : Bool) : (s.setBit a f b).edges = s.edges := of_eq_true (eq_self _)
@[simp] theorem setBit_wires (a : Nat) (f : Fld) (b : Bool) : (s.setBit a f b).wires = s.wires := of_eq_true (eq_self _)
@[simp] theorem setBit_med (a : Nat) (f : Fld) (b : Bool) : (s.setBit a f b).med = s.med := of_eq_true (eq_self _)
@[simp] theorem setBit_dfp (a : Nat) (f : Fld) (b : Bool) : (s.setBit a f b).dfp = s.dfp := of_eq_true (eq_self _)
@[simp] theorem setBit_ubb (a : Nat) (f : Fld) (b : Bool) : (s.setBit a f b).ubb = s.ubb := of_eq_true (eq_self _)
@[simp] theorem setBit_ward (a : Nat) (f : Fld) (b : Bool) : (s.setBit a f b).ward = s.ward := of_eq_true (eq_self _)
@[simp] theorem setBit_enrol (a : Nat) (f : Fld) (b : Bool) : (s.setBit a f b).enrol = s.enrol := of_eq_true (eq_self _)
@[simp] theorem setBit_time (a : Nat) (f : Fld) (b : Bool) : (s.setBit a f b).time = s.time := of_eq_true (eq_self _)
@[simp] theorem setBit_cls (a : Nat) (f : Fld) (b : Bool) : (s.setBit a f b).cls = s.cls := of_eq_true (eq_self _)
@[simp] theorem setBit_qm (a : Nat) (f : Fld) (b : Bool) : (s.setBit a f b).qm = s.qm := of_eq_true (eq_self _)
@[simp] theorem setBit_cli (a : Nat) (f : Fld) (b : Bool) : (s.setBit a f b).cli = s.cli := of_eq_true (eq_self _)
@[simp] theorem setBit_circ (a : Nat) (f : Fld) (b : Bool) : (s.setBit a f b).circ = s.circ := of_eq_true (eq_self _)
@[simp] theorem setBit_ciph (a : Nat) (f : Fld) (b : Bool) : (s.setBit a f b).ciph = s.ciph := of_eq_true (eq_self _)
@[simp] theorem setBit_flt (a : Nat) (f : Fld) (b : Bool) : (s.setBit a f b).flt = s.flt := of_eq_true (eq_self _)
@[simp] theorem setBit_lsch (a : Nat) (f : Fld) (b : Bool) : (s.setBit a f b).lsch = s.lsch := of_eq_true (eq_self _)
@[simp] theorem setBit_host (a : Nat) (f : Fld) (b : Bool) : (s.setBit a f b).host = s.host := of_eq_true (eq_self _)
@[simp] theorem setBit_twin (a : Nat) (f : Fld) (b : Bool) : (s.setBit a f b).twin = s.twin := of_eq_true (eq_self _)
@[simp] theorem setBit_preura (a : Nat) (f : Fld) (b : Bool) : (s.setBit a f b).preura = s.preura := of_eq_true (eq_self _)
@[simp] theorem setBit_pwr (a : Nat) (f : Fld) (b : Bool) : (s.setBit a f b).pwr = s.pwr := of_eq_true (eq_self _)
@[simp] theorem setBit_mon (a : Nat) (f : Fld) (b : Bool) : (s.setBit a f b).mon = s.mon := of_eq_true (eq_self _)
@[simp] theorem setBit_tap (a : Nat) (f : Fld) (b : Bool) : (s.setBit a f b).tap = s.tap := of_eq_true (eq_self _)

@[simp] theorem count_pending (a : Nat) (f : Fld) (n : Nat) : (s.count a f n).pending = s.pending := of_eq_true (eq_self _)
@[simp] theorem count_mem (a : Nat) (f : Fld) (n : Nat) : (s.count a f n).mem = s.mem := of_eq_true (eq_self _)
@[simp] theorem count_free (a : Nat) (f : Fld) (n : Nat) : (s.count a f n).free = s.free := of_eq_true (eq_self _)
@[simp] theorem count_edges (a : Nat) (f : Fld) (n : Nat) : (s.count a f n).edges = s.edges := of_eq_true (eq_self _)
@[simp] theorem count_wires (a : Nat) (f : Fld) (n : Nat) : (s.count a f n).wires = s.wires := of_eq_true (eq_self _)
@[simp] theorem count_med (a : Nat) (f : Fld) (n : Nat) : (s.count a f n).med = s.med := of_eq_true (eq_self _)
@[simp] theorem count_dfp (a : Nat) (f : Fld) (n : Nat) : (s.count a f n).dfp = s.dfp := of_eq_true (eq_self _)
@[simp] theorem count_ubb (a : Nat) (f : Fld) (n : Nat) : (s.count a f n).ubb = s.ubb := of_eq_true (eq_self _)
@[simp] theorem count_ward (a : Nat) (f : Fld) (n : Nat) : (s.count a f n).ward = s.ward := of_eq_true (eq_self _)
@[simp] theorem count_enrol (a : Nat) (f : Fld) (n : Nat) : (s.count a f n).enrol = s.enrol := of_eq_true (eq_self _)
@[simp] theorem count_time (a : Nat) (f : Fld) (n : Nat) : (s.count a f n).time = s.time := of_eq_true (eq_self _)
@[simp] theorem count_cls (a : Nat) (f : Fld) (n : Nat) : (s.count a f n).cls = s.cls := of_eq_true (eq_self _)
@[simp] theorem count_qm (a : Nat) (f : Fld) (n : Nat) : (s.count a f n).qm = s.qm := of_eq_true (eq_self _)
@[simp] theorem count_cli (a : Nat) (f : Fld) (n : Nat) : (s.count a f n).cli = s.cli := of_eq_true (eq_self _)
@[simp] theorem count_circ (a : Nat) (f : Fld) (n : Nat) : (s.count a f n).circ = s.circ := of_eq_true (eq_self _)
@[simp] theorem count_ciph (a : Nat) (f : Fld) (n : Nat) : (s.count a f n).ciph = s.ciph := of_eq_true (eq_self _)
@[simp] theorem count_flt (a : Nat) (f : Fld) (n : Nat) : (s.count a f n).flt = s.flt := of_eq_true (eq_self _)
@[simp] theorem count_lsch (a : Nat) (f : Fld) (n : Nat) : (s.count a f n).lsch = s.lsch := of_eq_true (eq_self _)
@[simp] theorem count_host (a : Nat) (f : Fld) (n : Nat) : (s.count a f n).host = s.host := of_eq_true (eq_self _)
@[simp] theorem count_twin (a : Nat) (f : Fld) (n : Nat) : (s.count a f n).twin = s.twin := of_eq_true (eq_self _)
@[simp] theorem count_preura (a : Nat) (f : Fld) (n : Nat) : (s.count a f n).preura = s.preura := of_eq_true (eq_self _)
@[simp] theorem count_pwr (a : Nat) (f : Fld) (n : Nat) : (s.count a f n).pwr = s.pwr := of_eq_true (eq_self _)
@[simp] theorem count_mon (a : Nat) (f : Fld) (n : Nat) : (s.count a f n).mon = s.mon := of_eq_true (eq_self _)
@[simp] theorem count_tap (a : Nat) (f : Fld) (n : Nat) : (s.count a f n).tap = s.tap := of_eq_true (eq_self _)

@[simp] theorem wrap_pending (a : Nat) (f : Fld) (n : Nat) : (s.wrap a f n).pending = s.pending := of_eq_true (eq_self _)
@[simp] theorem wrap_mem (a : Nat) (f : Fld) (n : Nat) : (s.wrap a f n).mem = s.mem := of_eq_true (eq_self _)
@[simp] theorem wrap_free (a : Nat) (f : Fld) (n : Nat) : (s.wrap a f n).free = s.free := of_eq_true (eq_self _)
@[simp] theorem wrap_edges (a : Nat) (f : Fld) (n : Nat) : (s.wrap a f n).edges = s.edges := of_eq_true (eq_self _)
@[simp] theorem wrap_wires (a : Nat) (f : Fld) (n : Nat) : (s.wrap a f n).wires = s.wires := of_eq_true (eq_self _)
@[simp] theorem wrap_med (a : Nat) (f : Fld) (n : Nat) : (s.wrap a f n).med = s.med := of_eq_true (eq_self _)
@[simp] theorem wrap_dfp (a : Nat) (f : Fld) (n : Nat) : (s.wrap a f n).dfp = s.dfp := of_eq_true (eq_self _)
@[simp] theorem wrap_ubb (a : Nat) (f : Fld) (n : Nat) : (s.wrap a f n).ubb = s.ubb := of_eq_true (eq_self _)
@[simp] theorem wrap_ward (a : Nat) (f : Fld) (n : Nat) : (s.wrap a f n).ward = s.ward := of_eq_true (eq_self _)
@[simp] theorem wrap_enrol (a : Nat) (f : Fld) (n : Nat) : (s.wrap a f n).enrol = s.enrol := of_eq_true (eq_self _)
@[simp] theorem wrap_time (a : Nat) (f : Fld) (n : Nat) : (s.wrap a f n).time = s.time := of_eq_true (eq_self _)
@[simp] theorem wrap_cls (a : Nat) (f : Fld) (n : Nat) : (s.wrap a f n).cls = s.cls := of_eq_true (eq_self _)
@[simp] theorem wrap_qm (a : Nat) (f : Fld) (n : Nat) : (s.wrap a f n).qm = s.qm := of_eq_true (eq_self _)
@[simp] theorem wrap_cli (a : Nat) (f : Fld) (n : Nat) : (s.wrap a f n).cli = s.cli := of_eq_true (eq_self _)
@[simp] theorem wrap_circ (a : Nat) (f : Fld) (n : Nat) : (s.wrap a f n).circ = s.circ := of_eq_true (eq_self _)
@[simp] theorem wrap_ciph (a : Nat) (f : Fld) (n : Nat) : (s.wrap a f n).ciph = s.ciph := of_eq_true (eq_self _)
@[simp] theorem wrap_flt (a : Nat) (f : Fld) (n : Nat) : (s.wrap a f n).flt = s.flt := of_eq_true (eq_self _)
@[simp] theorem wrap_lsch (a : Nat) (f : Fld) (n : Nat) : (s.wrap a f n).lsch = s.lsch := of_eq_true (eq_self _)
@[simp] theorem wrap_host (a : Nat) (f : Fld) (n : Nat) : (s.wrap a f n).host = s.host := of_eq_true (eq_self _)
@[simp] theorem wrap_twin (a : Nat) (f : Fld) (n : Nat) : (s.wrap a f n).twin = s.twin := of_eq_true (eq_self _)
@[simp] theorem wrap_preura (a : Nat) (f : Fld) (n : Nat) : (s.wrap a f n).preura = s.preura := of_eq_true (eq_self _)
@[simp] theorem wrap_pwr (a : Nat) (f : Fld) (n : Nat) : (s.wrap a f n).pwr = s.pwr := of_eq_true (eq_self _)
@[simp] theorem wrap_mon (a : Nat) (f : Fld) (n : Nat) : (s.wrap a f n).mon = s.mon := of_eq_true (eq_self _)
@[simp] theorem wrap_tap (a : Nat) (f : Fld) (n : Nat) : (s.wrap a f n).tap = s.tap := of_eq_true (eq_self _)

@[simp] theorem clearUnits_pending (p : Nat → Bool) : (s.clearUnits p).pending = s.pending := of_eq_true (eq_self _)
@[simp] theorem clearUnits_mem (p : Nat → Bool) : (s.clearUnits p).mem = s.mem := of_eq_true (eq_self _)
@[simp] theorem clearUnits_free (p : Nat → Bool) : (s.clearUnits p).free = s.free := of_eq_true (eq_self _)
@[simp] theorem clearUnits_edges (p : Nat → Bool) : (s.clearUnits p).edges = s.edges := of_eq_true (eq_self _)
@[simp] theorem clearUnits_wires (p : Nat → Bool) : (s.clearUnits p).wires = s.wires := of_eq_true (eq_self _)
@[simp] theorem clearUnits_med (p : Nat → Bool) : (s.clearUnits p).med = s.med := of_eq_true (eq_self _)
@[simp] theorem clearUnits_dfp (p : Nat → Bool) : (s.clearUnits p).dfp = s.dfp := of_eq_true (eq_self _)
@[simp] theorem clearUnits_ubb (p : Nat → Bool) : (s.clearUnits p).ubb = s.ubb := of_eq_true (eq_self _)
@[simp] theorem clearUnits_ward (p : Nat → Bool) : (s.clearUnits p).ward = s.ward := of_eq_true (eq_self _)
@[simp] theorem clearUnits_enrol (p : Nat → Bool) : (s.clearUnits p).enrol = s.enrol := of_eq_true (eq_self _)
@[simp] theorem clearUnits_time (p : Nat → Bool) : (s.clearUnits p).time = s.time := of_eq_true (eq_self _)
@[simp] theorem clearUnits_cls (p : Nat → Bool) : (s.clearUnits p).cls = s.cls := of_eq_true (eq_self _)
@[simp] theorem clearUnits_qm (p : Nat → Bool) : (s.clearUnits p).qm = s.qm := of_eq_true (eq_self _)
@[simp] theorem clearUnits_cli (p : Nat → Bool) : (s.clearUnits p).cli = s.cli := of_eq_true (eq_self _)
@[simp] theorem clearUnits_circ (p : Nat → Bool) : (s.clearUnits p).circ = s.circ := of_eq_true (eq_self _)
@[simp] theorem clearUnits_ciph (p : Nat → Bool) : (s.clearUnits p).ciph = s.ciph := of_eq_true (eq_self _)
@[simp] theorem clearUnits_flt (p : Nat → Bool) : (s.clearUnits p).flt = s.flt := of_eq_true (eq_self _)
@[simp] theorem clearUnits_lsch (p : Nat → Bool) : (s.clearUnits p).lsch = s.lsch := of_eq_true (eq_self _)
@[simp] theorem clearUnits_host (p : Nat → Bool) : (s.clearUnits p).host = s.host := of_eq_true (eq_self _)
@[simp] theorem clearUnits_twin (p : Nat → Bool) : (s.clearUnits p).twin = s.twin := of_eq_true (eq_self _)
@[simp] theorem clearUnits_preura (p : Nat → Bool) : (s.clearUnits p).preura = s.preura := of_eq_true (eq_self _)
@[simp] theorem clearUnits_pwr (p : Nat → Bool) : (s.clearUnits p).pwr = s.pwr := of_eq_true (eq_self _)
@[simp] theorem clearUnits_mon (p : Nat → Bool) : (s.clearUnits p).mon = s.mon := of_eq_true (eq_self _)
@[simp] theorem clearUnits_tap (p : Nat → Bool) : (s.clearUnits p).tap = s.tap := of_eq_true (eq_self _)

@[simp] theorem edge_pending (src : Nat) : (s.edge src).pending = s.pending := of_eq_true (eq_self _)
@[simp] theorem edge_regs (src : Nat) : (s.edge src).regs = s.regs := of_eq_true (eq_self _)
@[simp] theorem edge_mem (src : Nat) : (s.edge src).mem = s.mem := of_eq_true (eq_self _)
@[simp] theorem edge_free (src : Nat) : (s.edge src).free = s.free := of_eq_true (eq_self _)
@[simp] theorem edge_wires (src : Nat) : (s.edge src).wires = s.wires := of_eq_true (eq_self _)
@[simp] theorem edge_med (src : Nat) : (s.edge src).med = s.med := of_eq_true (eq_self _)
@[simp] theorem edge_dfp (src : Nat) : (s.edge src).dfp = s.dfp := of_eq_true (eq_self _)
@[simp] theorem edge_ubb (src : Nat) : (s.edge src).ubb = s.ubb := of_eq_true (eq_self _)
@[simp] theorem edge_ward (src : Nat) : (s.edge src).ward = s.ward := of_eq_true (eq_self _)
@[simp] theorem edge_enrol (src : Nat) : (s.edge src).enrol = s.enrol := of_eq_true (eq_self _)
@[simp] theorem edge_time (src : Nat) : (s.edge src).time = s.time := of_eq_true (eq_self _)
@[simp] theorem edge_cls (src : Nat) : (s.edge src).cls = s.cls := of_eq_true (eq_self _)
@[simp] theorem edge_qm (src : Nat) : (s.edge src).qm = s.qm := of_eq_true (eq_self _)
@[simp] theorem edge_cli (src : Nat) : (s.edge src).cli = s.cli := of_eq_true (eq_self _)
@[simp] theorem edge_circ (src : Nat) : (s.edge src).circ = s.circ := of_eq_true (eq_self _)
@[simp] theorem edge_ciph (src : Nat) : (s.edge src).ciph = s.ciph := of_eq_true (eq_self _)
@[simp] theorem edge_flt (src : Nat) : (s.edge src).flt = s.flt := of_eq_true (eq_self _)
@[simp] theorem edge_lsch (src : Nat) : (s.edge src).lsch = s.lsch := of_eq_true (eq_self _)
@[simp] theorem edge_host (src : Nat) : (s.edge src).host = s.host := of_eq_true (eq_self _)
@[simp] theorem edge_twin (src : Nat) : (s.edge src).twin = s.twin := of_eq_true (eq_self _)
@[simp] theorem edge_preura (src : Nat) : (s.edge src).preura = s.preura := of_eq_true (eq_self _)
@[simp] theorem edge_pwr (src : Nat) : (s.edge src).pwr = s.pwr := of_eq_true (eq_self _)
@[simp] theorem edge_mon (src : Nat) : (s.edge src).mon = s.mon := of_eq_true (eq_self _)
@[simp] theorem edge_tap (src : Nat) : (s.edge src).tap = s.tap := of_eq_true (eq_self _)

@[simp] theorem signal_pending (src c code : Nat) : (s.signal src c code).pending = s.pending := of_eq_true (eq_self _)
@[simp] theorem signal_regs (src c code : Nat) : (s.signal src c code).regs = s.regs := of_eq_true (eq_self _)
@[simp] theorem signal_mem (src c code : Nat) : (s.signal src c code).mem = s.mem := of_eq_true (eq_self _)
@[simp] theorem signal_free (src c code : Nat) : (s.signal src c code).free = s.free := of_eq_true (eq_self _)
@[simp] theorem signal_edges (src c code : Nat) : (s.signal src c code).edges = s.edges := of_eq_true (eq_self _)
@[simp] theorem signal_med (src c code : Nat) : (s.signal src c code).med = s.med := of_eq_true (eq_self _)
@[simp] theorem signal_dfp (src c code : Nat) : (s.signal src c code).dfp = s.dfp := of_eq_true (eq_self _)
@[simp] theorem signal_ubb (src c code : Nat) : (s.signal src c code).ubb = s.ubb := of_eq_true (eq_self _)
@[simp] theorem signal_ward (src c code : Nat) : (s.signal src c code).ward = s.ward := of_eq_true (eq_self _)
@[simp] theorem signal_enrol (src c code : Nat) : (s.signal src c code).enrol = s.enrol := of_eq_true (eq_self _)
@[simp] theorem signal_time (src c code : Nat) : (s.signal src c code).time = s.time := of_eq_true (eq_self _)
@[simp] theorem signal_cls (src c code : Nat) : (s.signal src c code).cls = s.cls := of_eq_true (eq_self _)
@[simp] theorem signal_qm (src c code : Nat) : (s.signal src c code).qm = s.qm := of_eq_true (eq_self _)
@[simp] theorem signal_cli (src c code : Nat) : (s.signal src c code).cli = s.cli := of_eq_true (eq_self _)
@[simp] theorem signal_circ (src c code : Nat) : (s.signal src c code).circ = s.circ := of_eq_true (eq_self _)
@[simp] theorem signal_ciph (src c code : Nat) : (s.signal src c code).ciph = s.ciph := of_eq_true (eq_self _)
@[simp] theorem signal_flt (src c code : Nat) : (s.signal src c code).flt = s.flt := of_eq_true (eq_self _)
@[simp] theorem signal_lsch (src c code : Nat) : (s.signal src c code).lsch = s.lsch := of_eq_true (eq_self _)
@[simp] theorem signal_host (src c code : Nat) : (s.signal src c code).host = s.host := of_eq_true (eq_self _)
@[simp] theorem signal_twin (src c code : Nat) : (s.signal src c code).twin = s.twin := of_eq_true (eq_self _)
@[simp] theorem signal_preura (src c code : Nat) : (s.signal src c code).preura = s.preura := of_eq_true (eq_self _)
@[simp] theorem signal_pwr (src c code : Nat) : (s.signal src c code).pwr = s.pwr := of_eq_true (eq_self _)
@[simp] theorem signal_mon (src c code : Nat) : (s.signal src c code).mon = s.mon := of_eq_true (eq_self _)
@[simp] theorem signal_tap (src c code : Nat) : (s.signal src c code).tap = s.tap := of_eq_true (eq_self _)

@[simp] theorem latch_pending (a : Nat) (f : Fld) : (s.latch a f).pending = s.pending := by unfold State.latch; split_ifs <;> rfl
@[simp] theorem latch_mem (a : Nat) (f : Fld) : (s.latch a f).mem = s.mem := by unfold State.latch; split_ifs <;> rfl
@[simp] theorem latch_free (a : Nat) (f : Fld) : (s.latch a f).free = s.free := by unfold State.latch; split_ifs <;> rfl
@[simp] theorem latch_wires (a : Nat) (f : Fld) : (s.latch a f).wires = s.wires := by unfold State.latch; split_ifs <;> rfl
@[simp] theorem latch_med (a : Nat) (f : Fld) : (s.latch a f).med = s.med := by unfold State.latch; split_ifs <;> rfl
@[simp] theorem latch_dfp (a : Nat) (f : Fld) : (s.latch a f).dfp = s.dfp := by unfold State.latch; split_ifs <;> rfl
@[simp] theorem latch_ubb (a : Nat) (f : Fld) : (s.latch a f).ubb = s.ubb := by unfold State.latch; split_ifs <;> rfl
@[simp] theorem latch_ward (a : Nat) (f : Fld) : (s.latch a f).ward = s.ward := by unfold State.latch; split_ifs <;> rfl
@[simp] theorem latch_enrol (a : Nat) (f : Fld) : (s.latch a f).enrol = s.enrol := by unfold State.latch; split_ifs <;> rfl
@[simp] theorem latch_time (a : Nat) (f : Fld) : (s.latch a f).time = s.time := by unfold State.latch; split_ifs <;> rfl
@[simp] theorem latch_cls (a : Nat) (f : Fld) : (s.latch a f).cls = s.cls := by unfold State.latch; split_ifs <;> rfl
@[simp] theorem latch_qm (a : Nat) (f : Fld) : (s.latch a f).qm = s.qm := by unfold State.latch; split_ifs <;> rfl
@[simp] theorem latch_cli (a : Nat) (f : Fld) : (s.latch a f).cli = s.cli := by unfold State.latch; split_ifs <;> rfl
@[simp] theorem latch_circ (a : Nat) (f : Fld) : (s.latch a f).circ = s.circ := by unfold State.latch; split_ifs <;> rfl
@[simp] theorem latch_ciph (a : Nat) (f : Fld) : (s.latch a f).ciph = s.ciph := by unfold State.latch; split_ifs <;> rfl
@[simp] theorem latch_flt (a : Nat) (f : Fld) : (s.latch a f).flt = s.flt := by unfold State.latch; split_ifs <;> rfl
@[simp] theorem latch_lsch (a : Nat) (f : Fld) : (s.latch a f).lsch = s.lsch := by unfold State.latch; split_ifs <;> rfl
@[simp] theorem latch_host (a : Nat) (f : Fld) : (s.latch a f).host = s.host := by unfold State.latch; split_ifs <;> rfl
@[simp] theorem latch_twin (a : Nat) (f : Fld) : (s.latch a f).twin = s.twin := by unfold State.latch; split_ifs <;> rfl
@[simp] theorem latch_preura (a : Nat) (f : Fld) : (s.latch a f).preura = s.preura := by unfold State.latch; split_ifs <;> rfl
@[simp] theorem latch_pwr (a : Nat) (f : Fld) : (s.latch a f).pwr = s.pwr := by unfold State.latch; split_ifs <;> rfl
@[simp] theorem latch_mon (a : Nat) (f : Fld) : (s.latch a f).mon = s.mon := by unfold State.latch; split_ifs <;> rfl
@[simp] theorem latch_tap (a : Nat) (f : Fld) : (s.latch a f).tap = s.tap := by unfold State.latch; split_ifs <;> rfl

@[simp] theorem setLane_pending (p : Nat) (l : MedLane) : (s.setLane p l).pending = s.pending := of_eq_true (eq_self _)
@[simp] theorem setLane_regs (p : Nat) (l : MedLane) : (s.setLane p l).regs = s.regs := of_eq_true (eq_self _)
@[simp] theorem setLane_mem (p : Nat) (l : MedLane) : (s.setLane p l).mem = s.mem := of_eq_true (eq_self _)
@[simp] theorem setLane_free (p : Nat) (l : MedLane) : (s.setLane p l).free = s.free := of_eq_true (eq_self _)
@[simp] theorem setLane_edges (p : Nat) (l : MedLane) : (s.setLane p l).edges = s.edges := of_eq_true (eq_self _)
@[simp] theorem setLane_wires (p : Nat) (l : MedLane) : (s.setLane p l).wires = s.wires := of_eq_true (eq_self _)
@[simp] theorem setLane_dfp (p : Nat) (l : MedLane) : (s.setLane p l).dfp = s.dfp := of_eq_true (eq_self _)
@[simp] theorem setLane_ubb (p : Nat) (l : MedLane) : (s.setLane p l).ubb = s.ubb := of_eq_true (eq_self _)
@[simp] theorem setLane_ward (p : Nat) (l : MedLane) : (s.setLane p l).ward = s.ward := of_eq_true (eq_self _)
@[simp] theorem setLane_enrol (p : Nat) (l : MedLane) : (s.setLane p l).enrol = s.enrol := of_eq_true (eq_self _)
@[simp] theorem setLane_time (p : Nat) (l : MedLane) : (s.setLane p l).time = s.time := of_eq_true (eq_self _)
@[simp] theorem setLane_cls (p : Nat) (l : MedLane) : (s.setLane p l).cls = s.cls := of_eq_true (eq_self _)
@[simp] theorem setLane_qm (p : Nat) (l : MedLane) : (s.setLane p l).qm = s.qm := of_eq_true (eq_self _)
@[simp] theorem setLane_cli (p : Nat) (l : MedLane) : (s.setLane p l).cli = s.cli := of_eq_true (eq_self _)
@[simp] theorem setLane_circ (p : Nat) (l : MedLane) : (s.setLane p l).circ = s.circ := of_eq_true (eq_self _)
@[simp] theorem setLane_ciph (p : Nat) (l : MedLane) : (s.setLane p l).ciph = s.ciph := of_eq_true (eq_self _)
@[simp] theorem setLane_flt (p : Nat) (l : MedLane) : (s.setLane p l).flt = s.flt := of_eq_true (eq_self _)
@[simp] theorem setLane_lsch (p : Nat) (l : MedLane) : (s.setLane p l).lsch = s.lsch := of_eq_true (eq_self _)
@[simp] theorem setLane_host (p : Nat) (l : MedLane) : (s.setLane p l).host = s.host := of_eq_true (eq_self _)
@[simp] theorem setLane_twin (p : Nat) (l : MedLane) : (s.setLane p l).twin = s.twin := of_eq_true (eq_self _)
@[simp] theorem setLane_preura (p : Nat) (l : MedLane) : (s.setLane p l).preura = s.preura := of_eq_true (eq_self _)
@[simp] theorem setLane_pwr (p : Nat) (l : MedLane) : (s.setLane p l).pwr = s.pwr := of_eq_true (eq_self _)
@[simp] theorem setLane_mon (p : Nat) (l : MedLane) : (s.setLane p l).mon = s.mon := of_eq_true (eq_self _)
@[simp] theorem setLane_tap (p : Nat) (l : MedLane) : (s.setLane p l).tap = s.tap := of_eq_true (eq_self _)

@[simp] theorem setDplane_pending (p : Nat) (l : DfpPlane) : (s.setDplane p l).pending = s.pending := of_eq_true (eq_self _)
@[simp] theorem setDplane_regs (p : Nat) (l : DfpPlane) : (s.setDplane p l).regs = s.regs := of_eq_true (eq_self _)
@[simp] theorem setDplane_mem (p : Nat) (l : DfpPlane) : (s.setDplane p l).mem = s.mem := of_eq_true (eq_self _)
@[simp] theorem setDplane_free (p : Nat) (l : DfpPlane) : (s.setDplane p l).free = s.free := of_eq_true (eq_self _)
@[simp] theorem setDplane_edges (p : Nat) (l : DfpPlane) : (s.setDplane p l).edges = s.edges := of_eq_true (eq_self _)
@[simp] theorem setDplane_wires (p : Nat) (l : DfpPlane) : (s.setDplane p l).wires = s.wires := of_eq_true (eq_self _)
@[simp] theorem setDplane_med (p : Nat) (l : DfpPlane) : (s.setDplane p l).med = s.med := of_eq_true (eq_self _)
@[simp] theorem setDplane_ubb (p : Nat) (l : DfpPlane) : (s.setDplane p l).ubb = s.ubb := of_eq_true (eq_self _)
@[simp] theorem setDplane_ward (p : Nat) (l : DfpPlane) : (s.setDplane p l).ward = s.ward := of_eq_true (eq_self _)
@[simp] theorem setDplane_enrol (p : Nat) (l : DfpPlane) : (s.setDplane p l).enrol = s.enrol := of_eq_true (eq_self _)
@[simp] theorem setDplane_time (p : Nat) (l : DfpPlane) : (s.setDplane p l).time = s.time := of_eq_true (eq_self _)
@[simp] theorem setDplane_cls (p : Nat) (l : DfpPlane) : (s.setDplane p l).cls = s.cls := of_eq_true (eq_self _)
@[simp] theorem setDplane_qm (p : Nat) (l : DfpPlane) : (s.setDplane p l).qm = s.qm := of_eq_true (eq_self _)
@[simp] theorem setDplane_cli (p : Nat) (l : DfpPlane) : (s.setDplane p l).cli = s.cli := of_eq_true (eq_self _)
@[simp] theorem setDplane_circ (p : Nat) (l : DfpPlane) : (s.setDplane p l).circ = s.circ := of_eq_true (eq_self _)
@[simp] theorem setDplane_ciph (p : Nat) (l : DfpPlane) : (s.setDplane p l).ciph = s.ciph := of_eq_true (eq_self _)
@[simp] theorem setDplane_flt (p : Nat) (l : DfpPlane) : (s.setDplane p l).flt = s.flt := of_eq_true (eq_self _)
@[simp] theorem setDplane_lsch (p : Nat) (l : DfpPlane) : (s.setDplane p l).lsch = s.lsch := of_eq_true (eq_self _)
@[simp] theorem setDplane_host (p : Nat) (l : DfpPlane) : (s.setDplane p l).host = s.host := of_eq_true (eq_self _)
@[simp] theorem setDplane_twin (p : Nat) (l : DfpPlane) : (s.setDplane p l).twin = s.twin := of_eq_true (eq_self _)
@[simp] theorem setDplane_preura (p : Nat) (l : DfpPlane) : (s.setDplane p l).preura = s.preura := of_eq_true (eq_self _)
@[simp] theorem setDplane_pwr (p : Nat) (l : DfpPlane) : (s.setDplane p l).pwr = s.pwr := of_eq_true (eq_self _)
@[simp] theorem setDplane_mon (p : Nat) (l : DfpPlane) : (s.setDplane p l).mon = s.mon := of_eq_true (eq_self _)
@[simp] theorem setDplane_tap (p : Nat) (l : DfpPlane) : (s.setDplane p l).tap = s.tap := of_eq_true (eq_self _)

@[simp] theorem setUplane_pending (p : Nat) (l : UbbPlane) : (s.setUplane p l).pending = s.pending := of_eq_true (eq_self _)
@[simp] theorem setUplane_regs (p : Nat) (l : UbbPlane) : (s.setUplane p l).regs = s.regs := of_eq_true (eq_self _)
@[simp] theorem setUplane_mem (p : Nat) (l : UbbPlane) : (s.setUplane p l).mem = s.mem := of_eq_true (eq_self _)
@[simp] theorem setUplane_free (p : Nat) (l : UbbPlane) : (s.setUplane p l).free = s.free := of_eq_true (eq_self _)
@[simp] theorem setUplane_edges (p : Nat) (l : UbbPlane) : (s.setUplane p l).edges = s.edges := of_eq_true (eq_self _)
@[simp] theorem setUplane_wires (p : Nat) (l : UbbPlane) : (s.setUplane p l).wires = s.wires := of_eq_true (eq_self _)
@[simp] theorem setUplane_med (p : Nat) (l : UbbPlane) : (s.setUplane p l).med = s.med := of_eq_true (eq_self _)
@[simp] theorem setUplane_dfp (p : Nat) (l : UbbPlane) : (s.setUplane p l).dfp = s.dfp := of_eq_true (eq_self _)
@[simp] theorem setUplane_ward (p : Nat) (l : UbbPlane) : (s.setUplane p l).ward = s.ward := of_eq_true (eq_self _)
@[simp] theorem setUplane_enrol (p : Nat) (l : UbbPlane) : (s.setUplane p l).enrol = s.enrol := of_eq_true (eq_self _)
@[simp] theorem setUplane_time (p : Nat) (l : UbbPlane) : (s.setUplane p l).time = s.time := of_eq_true (eq_self _)
@[simp] theorem setUplane_cls (p : Nat) (l : UbbPlane) : (s.setUplane p l).cls = s.cls := of_eq_true (eq_self _)
@[simp] theorem setUplane_qm (p : Nat) (l : UbbPlane) : (s.setUplane p l).qm = s.qm := of_eq_true (eq_self _)
@[simp] theorem setUplane_cli (p : Nat) (l : UbbPlane) : (s.setUplane p l).cli = s.cli := of_eq_true (eq_self _)
@[simp] theorem setUplane_circ (p : Nat) (l : UbbPlane) : (s.setUplane p l).circ = s.circ := of_eq_true (eq_self _)
@[simp] theorem setUplane_ciph (p : Nat) (l : UbbPlane) : (s.setUplane p l).ciph = s.ciph := of_eq_true (eq_self _)
@[simp] theorem setUplane_flt (p : Nat) (l : UbbPlane) : (s.setUplane p l).flt = s.flt := of_eq_true (eq_self _)
@[simp] theorem setUplane_lsch (p : Nat) (l : UbbPlane) : (s.setUplane p l).lsch = s.lsch := of_eq_true (eq_self _)
@[simp] theorem setUplane_host (p : Nat) (l : UbbPlane) : (s.setUplane p l).host = s.host := of_eq_true (eq_self _)
@[simp] theorem setUplane_twin (p : Nat) (l : UbbPlane) : (s.setUplane p l).twin = s.twin := of_eq_true (eq_self _)
@[simp] theorem setUplane_preura (p : Nat) (l : UbbPlane) : (s.setUplane p l).preura = s.preura := of_eq_true (eq_self _)
@[simp] theorem setUplane_pwr (p : Nat) (l : UbbPlane) : (s.setUplane p l).pwr = s.pwr := of_eq_true (eq_self _)
@[simp] theorem setUplane_mon (p : Nat) (l : UbbPlane) : (s.setUplane p l).mon = s.mon := of_eq_true (eq_self _)
@[simp] theorem setUplane_tap (p : Nat) (l : UbbPlane) : (s.setUplane p l).tap = s.tap := of_eq_true (eq_self _)

@[simp] theorem setEplane_pending (p : Nat) (l : EnrolPlane) : (s.setEplane p l).pending = s.pending := of_eq_true (eq_self _)
@[simp] theorem setEplane_regs (p : Nat) (l : EnrolPlane) : (s.setEplane p l).regs = s.regs := of_eq_true (eq_self _)
@[simp] theorem setEplane_mem (p : Nat) (l : EnrolPlane) : (s.setEplane p l).mem = s.mem := of_eq_true (eq_self _)
@[simp] theorem setEplane_free (p : Nat) (l : EnrolPlane) : (s.setEplane p l).free = s.free := of_eq_true (eq_self _)
@[simp] theorem setEplane_edges (p : Nat) (l : EnrolPlane) : (s.setEplane p l).edges = s.edges := of_eq_true (eq_self _)
@[simp] theorem setEplane_wires (p : Nat) (l : EnrolPlane) : (s.setEplane p l).wires = s.wires := of_eq_true (eq_self _)
@[simp] theorem setEplane_med (p : Nat) (l : EnrolPlane) : (s.setEplane p l).med = s.med := of_eq_true (eq_self _)
@[simp] theorem setEplane_dfp (p : Nat) (l : EnrolPlane) : (s.setEplane p l).dfp = s.dfp := of_eq_true (eq_self _)
@[simp] theorem setEplane_ubb (p : Nat) (l : EnrolPlane) : (s.setEplane p l).ubb = s.ubb := of_eq_true (eq_self _)
@[simp] theorem setEplane_ward (p : Nat) (l : EnrolPlane) : (s.setEplane p l).ward = s.ward := of_eq_true (eq_self _)
@[simp] theorem setEplane_time (p : Nat) (l : EnrolPlane) : (s.setEplane p l).time = s.time := of_eq_true (eq_self _)
@[simp] theorem setEplane_cls (p : Nat) (l : EnrolPlane) : (s.setEplane p l).cls = s.cls := of_eq_true (eq_self _)
@[simp] theorem setEplane_qm (p : Nat) (l : EnrolPlane) : (s.setEplane p l).qm = s.qm := of_eq_true (eq_self _)
@[simp] theorem setEplane_cli (p : Nat) (l : EnrolPlane) : (s.setEplane p l).cli = s.cli := of_eq_true (eq_self _)
@[simp] theorem setEplane_circ (p : Nat) (l : EnrolPlane) : (s.setEplane p l).circ = s.circ := of_eq_true (eq_self _)
@[simp] theorem setEplane_ciph (p : Nat) (l : EnrolPlane) : (s.setEplane p l).ciph = s.ciph := of_eq_true (eq_self _)
@[simp] theorem setEplane_flt (p : Nat) (l : EnrolPlane) : (s.setEplane p l).flt = s.flt := of_eq_true (eq_self _)
@[simp] theorem setEplane_lsch (p : Nat) (l : EnrolPlane) : (s.setEplane p l).lsch = s.lsch := of_eq_true (eq_self _)
@[simp] theorem setEplane_host (p : Nat) (l : EnrolPlane) : (s.setEplane p l).host = s.host := of_eq_true (eq_self _)
@[simp] theorem setEplane_twin (p : Nat) (l : EnrolPlane) : (s.setEplane p l).twin = s.twin := of_eq_true (eq_self _)
@[simp] theorem setEplane_preura (p : Nat) (l : EnrolPlane) : (s.setEplane p l).preura = s.preura := of_eq_true (eq_self _)
@[simp] theorem setEplane_pwr (p : Nat) (l : EnrolPlane) : (s.setEplane p l).pwr = s.pwr := of_eq_true (eq_self _)
@[simp] theorem setEplane_mon (p : Nat) (l : EnrolPlane) : (s.setEplane p l).mon = s.mon := of_eq_true (eq_self _)
@[simp] theorem setEplane_tap (p : Nat) (l : EnrolPlane) : (s.setEplane p l).tap = s.tap := of_eq_true (eq_self _)

@[simp] theorem setQueue_pending (q : Nat) (v : Queue) : (s.setQueue q v).pending = s.pending := of_eq_true (eq_self _)
@[simp] theorem setQueue_regs (q : Nat) (v : Queue) : (s.setQueue q v).regs = s.regs := of_eq_true (eq_self _)
@[simp] theorem setQueue_mem (q : Nat) (v : Queue) : (s.setQueue q v).mem = s.mem := of_eq_true (eq_self _)
@[simp] theorem setQueue_free (q : Nat) (v : Queue) : (s.setQueue q v).free = s.free := of_eq_true (eq_self _)
@[simp] theorem setQueue_edges (q : Nat) (v : Queue) : (s.setQueue q v).edges = s.edges := of_eq_true (eq_self _)
@[simp] theorem setQueue_wires (q : Nat) (v : Queue) : (s.setQueue q v).wires = s.wires := of_eq_true (eq_self _)
@[simp] theorem setQueue_med (q : Nat) (v : Queue) : (s.setQueue q v).med = s.med := of_eq_true (eq_self _)
@[simp] theorem setQueue_dfp (q : Nat) (v : Queue) : (s.setQueue q v).dfp = s.dfp := of_eq_true (eq_self _)
@[simp] theorem setQueue_ubb (q : Nat) (v : Queue) : (s.setQueue q v).ubb = s.ubb := of_eq_true (eq_self _)
@[simp] theorem setQueue_ward (q : Nat) (v : Queue) : (s.setQueue q v).ward = s.ward := of_eq_true (eq_self _)
@[simp] theorem setQueue_enrol (q : Nat) (v : Queue) : (s.setQueue q v).enrol = s.enrol := of_eq_true (eq_self _)
@[simp] theorem setQueue_time (q : Nat) (v : Queue) : (s.setQueue q v).time = s.time := of_eq_true (eq_self _)
@[simp] theorem setQueue_cls (q : Nat) (v : Queue) : (s.setQueue q v).cls = s.cls := of_eq_true (eq_self _)
@[simp] theorem setQueue_cli (q : Nat) (v : Queue) : (s.setQueue q v).cli = s.cli := of_eq_true (eq_self _)
@[simp] theorem setQueue_circ (q : Nat) (v : Queue) : (s.setQueue q v).circ = s.circ := of_eq_true (eq_self _)
@[simp] theorem setQueue_ciph (q : Nat) (v : Queue) : (s.setQueue q v).ciph = s.ciph := of_eq_true (eq_self _)
@[simp] theorem setQueue_flt (q : Nat) (v : Queue) : (s.setQueue q v).flt = s.flt := of_eq_true (eq_self _)
@[simp] theorem setQueue_lsch (q : Nat) (v : Queue) : (s.setQueue q v).lsch = s.lsch := of_eq_true (eq_self _)
@[simp] theorem setQueue_host (q : Nat) (v : Queue) : (s.setQueue q v).host = s.host := of_eq_true (eq_self _)
@[simp] theorem setQueue_twin (q : Nat) (v : Queue) : (s.setQueue q v).twin = s.twin := of_eq_true (eq_self _)
@[simp] theorem setQueue_preura (q : Nat) (v : Queue) : (s.setQueue q v).preura = s.preura := of_eq_true (eq_self _)
@[simp] theorem setQueue_pwr (q : Nat) (v : Queue) : (s.setQueue q v).pwr = s.pwr := of_eq_true (eq_self _)
@[simp] theorem setQueue_mon (q : Nat) (v : Queue) : (s.setQueue q v).mon = s.mon := of_eq_true (eq_self _)
@[simp] theorem setQueue_tap (q : Nat) (v : Queue) : (s.setQueue q v).tap = s.tap := of_eq_true (eq_self _)

@[simp] theorem setNode_pending (n : Nat) (v : Node) : (s.setNode n v).pending = s.pending := of_eq_true (eq_self _)
@[simp] theorem setNode_regs (n : Nat) (v : Node) : (s.setNode n v).regs = s.regs := of_eq_true (eq_self _)
@[simp] theorem setNode_mem (n : Nat) (v : Node) : (s.setNode n v).mem = s.mem := of_eq_true (eq_self _)
@[simp] theorem setNode_free (n : Nat) (v : Node) : (s.setNode n v).free = s.free := of_eq_true (eq_self _)
@[simp] theorem setNode_edges (n : Nat) (v : Node) : (s.setNode n v).edges = s.edges := of_eq_true (eq_self _)
@[simp] theorem setNode_wires (n : Nat) (v : Node) : (s.setNode n v).wires = s.wires := of_eq_true (eq_self _)
@[simp] theorem setNode_med (n : Nat) (v : Node) : (s.setNode n v).med = s.med := of_eq_true (eq_self _)
@[simp] theorem setNode_dfp (n : Nat) (v : Node) : (s.setNode n v).dfp = s.dfp := of_eq_true (eq_self _)
@[simp] theorem setNode_ubb (n : Nat) (v : Node) : (s.setNode n v).ubb = s.ubb := of_eq_true (eq_self _)
@[simp] theorem setNode_ward (n : Nat) (v : Node) : (s.setNode n v).ward = s.ward := of_eq_true (eq_self _)
@[simp] theorem setNode_enrol (n : Nat) (v : Node) : (s.setNode n v).enrol = s.enrol := of_eq_true (eq_self _)
@[simp] theorem setNode_time (n : Nat) (v : Node) : (s.setNode n v).time = s.time := of_eq_true (eq_self _)
@[simp] theorem setNode_cls (n : Nat) (v : Node) : (s.setNode n v).cls = s.cls := of_eq_true (eq_self _)
@[simp] theorem setNode_cli (n : Nat) (v : Node) : (s.setNode n v).cli = s.cli := of_eq_true (eq_self _)
@[simp] theorem setNode_circ (n : Nat) (v : Node) : (s.setNode n v).circ = s.circ := of_eq_true (eq_self _)
@[simp] theorem setNode_ciph (n : Nat) (v : Node) : (s.setNode n v).ciph = s.ciph := of_eq_true (eq_self _)
@[simp] theorem setNode_flt (n : Nat) (v : Node) : (s.setNode n v).flt = s.flt := of_eq_true (eq_self _)
@[simp] theorem setNode_lsch (n : Nat) (v : Node) : (s.setNode n v).lsch = s.lsch := of_eq_true (eq_self _)
@[simp] theorem setNode_host (n : Nat) (v : Node) : (s.setNode n v).host = s.host := of_eq_true (eq_self _)
@[simp] theorem setNode_twin (n : Nat) (v : Node) : (s.setNode n v).twin = s.twin := of_eq_true (eq_self _)
@[simp] theorem setNode_preura (n : Nat) (v : Node) : (s.setNode n v).preura = s.preura := of_eq_true (eq_self _)
@[simp] theorem setNode_pwr (n : Nat) (v : Node) : (s.setNode n v).pwr = s.pwr := of_eq_true (eq_self _)
@[simp] theorem setNode_mon (n : Nat) (v : Node) : (s.setNode n v).mon = s.mon := of_eq_true (eq_self _)
@[simp] theorem setNode_tap (n : Nat) (v : Node) : (s.setNode n v).tap = s.tap := of_eq_true (eq_self _)

@[simp] theorem setPort_pending (k : Nat) (v : CliPort) : (s.setPort k v).pending = s.pending := of_eq_true (eq_self _)
@[simp] theorem setPort_regs (k : Nat) (v : CliPort) : (s.setPort k v).regs = s.regs := of_eq_true (eq_self _)
@[simp] theorem setPort_mem (k : Nat) (v : CliPort) : (s.setPort k v).mem = s.mem := of_eq_true (eq_self _)
@[simp] theorem setPort_free (k : Nat) (v : CliPort) : (s.setPort k v).free = s.free := of_eq_true (eq_self _)
@[simp] theorem setPort_edges (k : Nat) (v : CliPort) : (s.setPort k v).edges = s.edges := of_eq_true (eq_self _)
@[simp] theorem setPort_wires (k : Nat) (v : CliPort) : (s.setPort k v).wires = s.wires := of_eq_true (eq_self _)
@[simp] theorem setPort_med (k : Nat) (v : CliPort) : (s.setPort k v).med = s.med := of_eq_true (eq_self _)
@[simp] theorem setPort_dfp (k : Nat) (v : CliPort) : (s.setPort k v).dfp = s.dfp := of_eq_true (eq_self _)
@[simp] theorem setPort_ubb (k : Nat) (v : CliPort) : (s.setPort k v).ubb = s.ubb := of_eq_true (eq_self _)
@[simp] theorem setPort_ward (k : Nat) (v : CliPort) : (s.setPort k v).ward = s.ward := of_eq_true (eq_self _)
@[simp] theorem setPort_enrol (k : Nat) (v : CliPort) : (s.setPort k v).enrol = s.enrol := of_eq_true (eq_self _)
@[simp] theorem setPort_time (k : Nat) (v : CliPort) : (s.setPort k v).time = s.time := of_eq_true (eq_self _)
@[simp] theorem setPort_cls (k : Nat) (v : CliPort) : (s.setPort k v).cls = s.cls := of_eq_true (eq_self _)
@[simp] theorem setPort_qm (k : Nat) (v : CliPort) : (s.setPort k v).qm = s.qm := of_eq_true (eq_self _)
@[simp] theorem setPort_circ (k : Nat) (v : CliPort) : (s.setPort k v).circ = s.circ := of_eq_true (eq_self _)
@[simp] theorem setPort_ciph (k : Nat) (v : CliPort) : (s.setPort k v).ciph = s.ciph := of_eq_true (eq_self _)
@[simp] theorem setPort_flt (k : Nat) (v : CliPort) : (s.setPort k v).flt = s.flt := of_eq_true (eq_self _)
@[simp] theorem setPort_lsch (k : Nat) (v : CliPort) : (s.setPort k v).lsch = s.lsch := of_eq_true (eq_self _)
@[simp] theorem setPort_host (k : Nat) (v : CliPort) : (s.setPort k v).host = s.host := of_eq_true (eq_self _)
@[simp] theorem setPort_twin (k : Nat) (v : CliPort) : (s.setPort k v).twin = s.twin := of_eq_true (eq_self _)
@[simp] theorem setPort_preura (k : Nat) (v : CliPort) : (s.setPort k v).preura = s.preura := of_eq_true (eq_self _)
@[simp] theorem setPort_pwr (k : Nat) (v : CliPort) : (s.setPort k v).pwr = s.pwr := of_eq_true (eq_self _)
@[simp] theorem setPort_mon (k : Nat) (v : CliPort) : (s.setPort k v).mon = s.mon := of_eq_true (eq_self _)
@[simp] theorem setPort_tap (k : Nat) (v : CliPort) : (s.setPort k v).tap = s.tap := of_eq_true (eq_self _)

@[simp] theorem setCircuit_pending (c : Nat) (v : Circuit) : (s.setCircuit c v).pending = s.pending := of_eq_true (eq_self _)
@[simp] theorem setCircuit_regs (c : Nat) (v : Circuit) : (s.setCircuit c v).regs = s.regs := of_eq_true (eq_self _)
@[simp] theorem setCircuit_mem (c : Nat) (v : Circuit) : (s.setCircuit c v).mem = s.mem := of_eq_true (eq_self _)
@[simp] theorem setCircuit_free (c : Nat) (v : Circuit) : (s.setCircuit c v).free = s.free := of_eq_true (eq_self _)
@[simp] theorem setCircuit_edges (c : Nat) (v : Circuit) : (s.setCircuit c v).edges = s.edges := of_eq_true (eq_self _)
@[simp] theorem setCircuit_wires (c : Nat) (v : Circuit) : (s.setCircuit c v).wires = s.wires := of_eq_true (eq_self _)
@[simp] theorem setCircuit_med (c : Nat) (v : Circuit) : (s.setCircuit c v).med = s.med := of_eq_true (eq_self _)
@[simp] theorem setCircuit_dfp (c : Nat) (v : Circuit) : (s.setCircuit c v).dfp = s.dfp := of_eq_true (eq_self _)
@[simp] theorem setCircuit_ubb (c : Nat) (v : Circuit) : (s.setCircuit c v).ubb = s.ubb := of_eq_true (eq_self _)
@[simp] theorem setCircuit_ward (c : Nat) (v : Circuit) : (s.setCircuit c v).ward = s.ward := of_eq_true (eq_self _)
@[simp] theorem setCircuit_enrol (c : Nat) (v : Circuit) : (s.setCircuit c v).enrol = s.enrol := of_eq_true (eq_self _)
@[simp] theorem setCircuit_time (c : Nat) (v : Circuit) : (s.setCircuit c v).time = s.time := of_eq_true (eq_self _)
@[simp] theorem setCircuit_cls (c : Nat) (v : Circuit) : (s.setCircuit c v).cls = s.cls := of_eq_true (eq_self _)
@[simp] theorem setCircuit_qm (c : Nat) (v : Circuit) : (s.setCircuit c v).qm = s.qm := of_eq_true (eq_self _)
@[simp] theorem setCircuit_cli (c : Nat) (v : Circuit) : (s.setCircuit c v).cli = s.cli := of_eq_true (eq_self _)
@[simp] theorem setCircuit_ciph (c : Nat) (v : Circuit) : (s.setCircuit c v).ciph = s.ciph := of_eq_true (eq_self _)
@[simp] theorem setCircuit_flt (c : Nat) (v : Circuit) : (s.setCircuit c v).flt = s.flt := of_eq_true (eq_self _)
@[simp] theorem setCircuit_lsch (c : Nat) (v : Circuit) : (s.setCircuit c v).lsch = s.lsch := of_eq_true (eq_self _)
@[simp] theorem setCircuit_host (c : Nat) (v : Circuit) : (s.setCircuit c v).host = s.host := of_eq_true (eq_self _)
@[simp] theorem setCircuit_twin (c : Nat) (v : Circuit) : (s.setCircuit c v).twin = s.twin := of_eq_true (eq_self _)
@[simp] theorem setCircuit_preura (c : Nat) (v : Circuit) : (s.setCircuit c v).preura = s.preura := of_eq_true (eq_self _)
@[simp] theorem setCircuit_pwr (c : Nat) (v : Circuit) : (s.setCircuit c v).pwr = s.pwr := of_eq_true (eq_self _)
@[simp] theorem setCircuit_mon (c : Nat) (v : Circuit) : (s.setCircuit c v).mon = s.mon := of_eq_true (eq_self _)
@[simp] theorem setCircuit_tap (c : Nat) (v : Circuit) : (s.setCircuit c v).tap = s.tap := of_eq_true (eq_self _)

@[simp] theorem setSlot_pending (n : Nat) (v : KeySlot) : (s.setSlot n v).pending = s.pending := of_eq_true (eq_self _)
@[simp] theorem setSlot_regs (n : Nat) (v : KeySlot) : (s.setSlot n v).regs = s.regs := of_eq_true (eq_self _)
@[simp] theorem setSlot_mem (n : Nat) (v : KeySlot) : (s.setSlot n v).mem = s.mem := of_eq_true (eq_self _)
@[simp] theorem setSlot_free (n : Nat) (v : KeySlot) : (s.setSlot n v).free = s.free := of_eq_true (eq_self _)
@[simp] theorem setSlot_edges (n : Nat) (v : KeySlot) : (s.setSlot n v).edges = s.edges := of_eq_true (eq_self _)
@[simp] theorem setSlot_wires (n : Nat) (v : KeySlot) : (s.setSlot n v).wires = s.wires := of_eq_true (eq_self _)
@[simp] theorem setSlot_med (n : Nat) (v : KeySlot) : (s.setSlot n v).med = s.med := of_eq_true (eq_self _)
@[simp] theorem setSlot_dfp (n : Nat) (v : KeySlot) : (s.setSlot n v).dfp = s.dfp := of_eq_true (eq_self _)
@[simp] theorem setSlot_ubb (n : Nat) (v : KeySlot) : (s.setSlot n v).ubb = s.ubb := of_eq_true (eq_self _)
@[simp] theorem setSlot_ward (n : Nat) (v : KeySlot) : (s.setSlot n v).ward = s.ward := of_eq_true (eq_self _)
@[simp] theorem setSlot_enrol (n : Nat) (v : KeySlot) : (s.setSlot n v).enrol = s.enrol := of_eq_true (eq_self _)
@[simp] theorem setSlot_time (n : Nat) (v : KeySlot) : (s.setSlot n v).time = s.time := of_eq_true (eq_self _)
@[simp] theorem setSlot_cls (n : Nat) (v : KeySlot) : (s.setSlot n v).cls = s.cls := of_eq_true (eq_self _)
@[simp] theorem setSlot_qm (n : Nat) (v : KeySlot) : (s.setSlot n v).qm = s.qm := of_eq_true (eq_self _)
@[simp] theorem setSlot_cli (n : Nat) (v : KeySlot) : (s.setSlot n v).cli = s.cli := of_eq_true (eq_self _)
@[simp] theorem setSlot_circ (n : Nat) (v : KeySlot) : (s.setSlot n v).circ = s.circ := of_eq_true (eq_self _)
@[simp] theorem setSlot_flt (n : Nat) (v : KeySlot) : (s.setSlot n v).flt = s.flt := of_eq_true (eq_self _)
@[simp] theorem setSlot_lsch (n : Nat) (v : KeySlot) : (s.setSlot n v).lsch = s.lsch := of_eq_true (eq_self _)
@[simp] theorem setSlot_host (n : Nat) (v : KeySlot) : (s.setSlot n v).host = s.host := of_eq_true (eq_self _)
@[simp] theorem setSlot_twin (n : Nat) (v : KeySlot) : (s.setSlot n v).twin = s.twin := of_eq_true (eq_self _)
@[simp] theorem setSlot_preura (n : Nat) (v : KeySlot) : (s.setSlot n v).preura = s.preura := of_eq_true (eq_self _)
@[simp] theorem setSlot_pwr (n : Nat) (v : KeySlot) : (s.setSlot n v).pwr = s.pwr := of_eq_true (eq_self _)
@[simp] theorem setSlot_mon (n : Nat) (v : KeySlot) : (s.setSlot n v).mon = s.mon := of_eq_true (eq_self _)
@[simp] theorem setSlot_tap (n : Nat) (v : KeySlot) : (s.setSlot n v).tap = s.tap := of_eq_true (eq_self _)

@[simp] theorem setFlow_pending (f : Nat) (v : BitVec 40) : (s.setFlow f v).pending = s.pending := of_eq_true (eq_self _)
@[simp] theorem setFlow_regs (f : Nat) (v : BitVec 40) : (s.setFlow f v).regs = s.regs := of_eq_true (eq_self _)
@[simp] theorem setFlow_mem (f : Nat) (v : BitVec 40) : (s.setFlow f v).mem = s.mem := of_eq_true (eq_self _)
@[simp] theorem setFlow_free (f : Nat) (v : BitVec 40) : (s.setFlow f v).free = s.free := of_eq_true (eq_self _)
@[simp] theorem setFlow_edges (f : Nat) (v : BitVec 40) : (s.setFlow f v).edges = s.edges := of_eq_true (eq_self _)
@[simp] theorem setFlow_wires (f : Nat) (v : BitVec 40) : (s.setFlow f v).wires = s.wires := of_eq_true (eq_self _)
@[simp] theorem setFlow_med (f : Nat) (v : BitVec 40) : (s.setFlow f v).med = s.med := of_eq_true (eq_self _)
@[simp] theorem setFlow_dfp (f : Nat) (v : BitVec 40) : (s.setFlow f v).dfp = s.dfp := of_eq_true (eq_self _)
@[simp] theorem setFlow_ward (f : Nat) (v : BitVec 40) : (s.setFlow f v).ward = s.ward := of_eq_true (eq_self _)
@[simp] theorem setFlow_enrol (f : Nat) (v : BitVec 40) : (s.setFlow f v).enrol = s.enrol := of_eq_true (eq_self _)
@[simp] theorem setFlow_time (f : Nat) (v : BitVec 40) : (s.setFlow f v).time = s.time := of_eq_true (eq_self _)
@[simp] theorem setFlow_cls (f : Nat) (v : BitVec 40) : (s.setFlow f v).cls = s.cls := of_eq_true (eq_self _)
@[simp] theorem setFlow_qm (f : Nat) (v : BitVec 40) : (s.setFlow f v).qm = s.qm := of_eq_true (eq_self _)
@[simp] theorem setFlow_cli (f : Nat) (v : BitVec 40) : (s.setFlow f v).cli = s.cli := of_eq_true (eq_self _)
@[simp] theorem setFlow_circ (f : Nat) (v : BitVec 40) : (s.setFlow f v).circ = s.circ := of_eq_true (eq_self _)
@[simp] theorem setFlow_ciph (f : Nat) (v : BitVec 40) : (s.setFlow f v).ciph = s.ciph := of_eq_true (eq_self _)
@[simp] theorem setFlow_flt (f : Nat) (v : BitVec 40) : (s.setFlow f v).flt = s.flt := of_eq_true (eq_self _)
@[simp] theorem setFlow_lsch (f : Nat) (v : BitVec 40) : (s.setFlow f v).lsch = s.lsch := of_eq_true (eq_self _)
@[simp] theorem setFlow_host (f : Nat) (v : BitVec 40) : (s.setFlow f v).host = s.host := of_eq_true (eq_self _)
@[simp] theorem setFlow_twin (f : Nat) (v : BitVec 40) : (s.setFlow f v).twin = s.twin := of_eq_true (eq_self _)
@[simp] theorem setFlow_preura (f : Nat) (v : BitVec 40) : (s.setFlow f v).preura = s.preura := of_eq_true (eq_self _)
@[simp] theorem setFlow_pwr (f : Nat) (v : BitVec 40) : (s.setFlow f v).pwr = s.pwr := of_eq_true (eq_self _)
@[simp] theorem setFlow_mon (f : Nat) (v : BitVec 40) : (s.setFlow f v).mon = s.mon := of_eq_true (eq_self _)
@[simp] theorem setFlow_tap (f : Nat) (v : BitVec 40) : (s.setFlow f v).tap = s.tap := of_eq_true (eq_self _)

@[simp] theorem hostOut_pending (o : HostOut) : (s.hostOut o).pending = s.pending := of_eq_true (eq_self _)
@[simp] theorem hostOut_regs (o : HostOut) : (s.hostOut o).regs = s.regs := of_eq_true (eq_self _)
@[simp] theorem hostOut_mem (o : HostOut) : (s.hostOut o).mem = s.mem := of_eq_true (eq_self _)
@[simp] theorem hostOut_free (o : HostOut) : (s.hostOut o).free = s.free := of_eq_true (eq_self _)
@[simp] theorem hostOut_edges (o : HostOut) : (s.hostOut o).edges = s.edges := of_eq_true (eq_self _)
@[simp] theorem hostOut_wires (o : HostOut) : (s.hostOut o).wires = s.wires := of_eq_true (eq_self _)
@[simp] theorem hostOut_med (o : HostOut) : (s.hostOut o).med = s.med := of_eq_true (eq_self _)
@[simp] theorem hostOut_dfp (o : HostOut) : (s.hostOut o).dfp = s.dfp := of_eq_true (eq_self _)
@[simp] theorem hostOut_ubb (o : HostOut) : (s.hostOut o).ubb = s.ubb := of_eq_true (eq_self _)
@[simp] theorem hostOut_ward (o : HostOut) : (s.hostOut o).ward = s.ward := of_eq_true (eq_self _)
@[simp] theorem hostOut_enrol (o : HostOut) : (s.hostOut o).enrol = s.enrol := of_eq_true (eq_self _)
@[simp] theorem hostOut_time (o : HostOut) : (s.hostOut o).time = s.time := of_eq_true (eq_self _)
@[simp] theorem hostOut_cls (o : HostOut) : (s.hostOut o).cls = s.cls := of_eq_true (eq_self _)
@[simp] theorem hostOut_qm (o : HostOut) : (s.hostOut o).qm = s.qm := of_eq_true (eq_self _)
@[simp] theorem hostOut_cli (o : HostOut) : (s.hostOut o).cli = s.cli := of_eq_true (eq_self _)
@[simp] theorem hostOut_circ (o : HostOut) : (s.hostOut o).circ = s.circ := of_eq_true (eq_self _)
@[simp] theorem hostOut_ciph (o : HostOut) : (s.hostOut o).ciph = s.ciph := of_eq_true (eq_self _)
@[simp] theorem hostOut_flt (o : HostOut) : (s.hostOut o).flt = s.flt := of_eq_true (eq_self _)
@[simp] theorem hostOut_lsch (o : HostOut) : (s.hostOut o).lsch = s.lsch := of_eq_true (eq_self _)
@[simp] theorem hostOut_twin (o : HostOut) : (s.hostOut o).twin = s.twin := of_eq_true (eq_self _)
@[simp] theorem hostOut_preura (o : HostOut) : (s.hostOut o).preura = s.preura := of_eq_true (eq_self _)
@[simp] theorem hostOut_pwr (o : HostOut) : (s.hostOut o).pwr = s.pwr := of_eq_true (eq_self _)
@[simp] theorem hostOut_mon (o : HostOut) : (s.hostOut o).mon = s.mon := of_eq_true (eq_self _)
@[simp] theorem hostOut_tap (o : HostOut) : (s.hostOut o).tap = s.tap := of_eq_true (eq_self _)

@[simp] theorem setCore_pending (c : Nat) (v : Core) : (s.setCore c v).pending = s.pending := of_eq_true (eq_self _)
@[simp] theorem setCore_regs (c : Nat) (v : Core) : (s.setCore c v).regs = s.regs := of_eq_true (eq_self _)
@[simp] theorem setCore_mem (c : Nat) (v : Core) : (s.setCore c v).mem = s.mem := of_eq_true (eq_self _)
@[simp] theorem setCore_free (c : Nat) (v : Core) : (s.setCore c v).free = s.free := of_eq_true (eq_self _)
@[simp] theorem setCore_edges (c : Nat) (v : Core) : (s.setCore c v).edges = s.edges := of_eq_true (eq_self _)
@[simp] theorem setCore_wires (c : Nat) (v : Core) : (s.setCore c v).wires = s.wires := of_eq_true (eq_self _)
@[simp] theorem setCore_med (c : Nat) (v : Core) : (s.setCore c v).med = s.med := of_eq_true (eq_self _)
@[simp] theorem setCore_dfp (c : Nat) (v : Core) : (s.setCore c v).dfp = s.dfp := of_eq_true (eq_self _)
@[simp] theorem setCore_ubb (c : Nat) (v : Core) : (s.setCore c v).ubb = s.ubb := of_eq_true (eq_self _)
@[simp] theorem setCore_ward (c : Nat) (v : Core) : (s.setCore c v).ward = s.ward := of_eq_true (eq_self _)
@[simp] theorem setCore_enrol (c : Nat) (v : Core) : (s.setCore c v).enrol = s.enrol := of_eq_true (eq_self _)
@[simp] theorem setCore_time (c : Nat) (v : Core) : (s.setCore c v).time = s.time := of_eq_true (eq_self _)
@[simp] theorem setCore_cls (c : Nat) (v : Core) : (s.setCore c v).cls = s.cls := of_eq_true (eq_self _)
@[simp] theorem setCore_qm (c : Nat) (v : Core) : (s.setCore c v).qm = s.qm := of_eq_true (eq_self _)
@[simp] theorem setCore_cli (c : Nat) (v : Core) : (s.setCore c v).cli = s.cli := of_eq_true (eq_self _)
@[simp] theorem setCore_circ (c : Nat) (v : Core) : (s.setCore c v).circ = s.circ := of_eq_true (eq_self _)
@[simp] theorem setCore_ciph (c : Nat) (v : Core) : (s.setCore c v).ciph = s.ciph := of_eq_true (eq_self _)
@[simp] theorem setCore_flt (c : Nat) (v : Core) : (s.setCore c v).flt = s.flt := of_eq_true (eq_self _)
@[simp] theorem setCore_host (c : Nat) (v : Core) : (s.setCore c v).host = s.host := of_eq_true (eq_self _)
@[simp] theorem setCore_twin (c : Nat) (v : Core) : (s.setCore c v).twin = s.twin := of_eq_true (eq_self _)
@[simp] theorem setCore_preura (c : Nat) (v : Core) : (s.setCore c v).preura = s.preura := of_eq_true (eq_self _)
@[simp] theorem setCore_pwr (c : Nat) (v : Core) : (s.setCore c v).pwr = s.pwr := of_eq_true (eq_self _)
@[simp] theorem setCore_mon (c : Nat) (v : Core) : (s.setCore c v).mon = s.mon := of_eq_true (eq_self _)
@[simp] theorem setCore_tap (c : Nat) (v : Core) : (s.setCore c v).tap = s.tap := of_eq_true (eq_self _)

@[simp] theorem setCtx_pending (c x : Nat) (v : Ctx) : (s.setCtx c x v).pending = s.pending := of_eq_true (eq_self _)
@[simp] theorem setCtx_regs (c x : Nat) (v : Ctx) : (s.setCtx c x v).regs = s.regs := of_eq_true (eq_self _)
@[simp] theorem setCtx_mem (c x : Nat) (v : Ctx) : (s.setCtx c x v).mem = s.mem := of_eq_true (eq_self _)
@[simp] theorem setCtx_free (c x : Nat) (v : Ctx) : (s.setCtx c x v).free = s.free := of_eq_true (eq_self _)
@[simp] theorem setCtx_edges (c x : Nat) (v : Ctx) : (s.setCtx c x v).edges = s.edges := of_eq_true (eq_self _)
@[simp] theorem setCtx_wires (c x : Nat) (v : Ctx) : (s.setCtx c x v).wires = s.wires := of_eq_true (eq_self _)
@[simp] theorem setCtx_med (c x : Nat) (v : Ctx) : (s.setCtx c x v).med = s.med := of_eq_true (eq_self _)
@[simp] theorem setCtx_dfp (c x : Nat) (v : Ctx) : (s.setCtx c x v).dfp = s.dfp := of_eq_true (eq_self _)
@[simp] theorem setCtx_ubb (c x : Nat) (v : Ctx) : (s.setCtx c x v).ubb = s.ubb := of_eq_true (eq_self _)
@[simp] theorem setCtx_ward (c x : Nat) (v : Ctx) : (s.setCtx c x v).ward = s.ward := of_eq_true (eq_self _)
@[simp] theorem setCtx_enrol (c x : Nat) (v : Ctx) : (s.setCtx c x v).enrol = s.enrol := of_eq_true (eq_self _)
@[simp] theorem setCtx_time (c x : Nat) (v : Ctx) : (s.setCtx c x v).time = s.time := of_eq_true (eq_self _)
@[simp] theorem setCtx_cls (c x : Nat) (v : Ctx) : (s.setCtx c x v).cls = s.cls := of_eq_true (eq_self _)
@[simp] theorem setCtx_qm (c x : Nat) (v : Ctx) : (s.setCtx c x v).qm = s.qm := of_eq_true (eq_self _)
@[simp] theorem setCtx_cli (c x : Nat) (v : Ctx) : (s.setCtx c x v).cli = s.cli := of_eq_true (eq_self _)
@[simp] theorem setCtx_circ (c x : Nat) (v : Ctx) : (s.setCtx c x v).circ = s.circ := of_eq_true (eq_self _)
@[simp] theorem setCtx_ciph (c x : Nat) (v : Ctx) : (s.setCtx c x v).ciph = s.ciph := of_eq_true (eq_self _)
@[simp] theorem setCtx_flt (c x : Nat) (v : Ctx) : (s.setCtx c x v).flt = s.flt := of_eq_true (eq_self _)
@[simp] theorem setCtx_host (c x : Nat) (v : Ctx) : (s.setCtx c x v).host = s.host := of_eq_true (eq_self _)
@[simp] theorem setCtx_twin (c x : Nat) (v : Ctx) : (s.setCtx c x v).twin = s.twin := of_eq_true (eq_self _)
@[simp] theorem setCtx_preura (c x : Nat) (v : Ctx) : (s.setCtx c x v).preura = s.preura := of_eq_true (eq_self _)
@[simp] theorem setCtx_pwr (c x : Nat) (v : Ctx) : (s.setCtx c x v).pwr = s.pwr := of_eq_true (eq_self _)
@[simp] theorem setCtx_mon (c x : Nat) (v : Ctx) : (s.setCtx c x v).mon = s.mon := of_eq_true (eq_self _)
@[simp] theorem setCtx_tap (c x : Nat) (v : Ctx) : (s.setCtx c x v).tap = s.tap := of_eq_true (eq_self _)

@[simp] theorem setChan_pending (c : Nat) (v : Chan) : (s.setChan c v).pending = s.pending := of_eq_true (eq_self _)
@[simp] theorem setChan_regs (c : Nat) (v : Chan) : (s.setChan c v).regs = s.regs := of_eq_true (eq_self _)
@[simp] theorem setChan_mem (c : Nat) (v : Chan) : (s.setChan c v).mem = s.mem := of_eq_true (eq_self _)
@[simp] theorem setChan_free (c : Nat) (v : Chan) : (s.setChan c v).free = s.free := of_eq_true (eq_self _)
@[simp] theorem setChan_edges (c : Nat) (v : Chan) : (s.setChan c v).edges = s.edges := of_eq_true (eq_self _)
@[simp] theorem setChan_wires (c : Nat) (v : Chan) : (s.setChan c v).wires = s.wires := of_eq_true (eq_self _)
@[simp] theorem setChan_med (c : Nat) (v : Chan) : (s.setChan c v).med = s.med := of_eq_true (eq_self _)
@[simp] theorem setChan_dfp (c : Nat) (v : Chan) : (s.setChan c v).dfp = s.dfp := of_eq_true (eq_self _)
@[simp] theorem setChan_ubb (c : Nat) (v : Chan) : (s.setChan c v).ubb = s.ubb := of_eq_true (eq_self _)
@[simp] theorem setChan_ward (c : Nat) (v : Chan) : (s.setChan c v).ward = s.ward := of_eq_true (eq_self _)
@[simp] theorem setChan_enrol (c : Nat) (v : Chan) : (s.setChan c v).enrol = s.enrol := of_eq_true (eq_self _)
@[simp] theorem setChan_time (c : Nat) (v : Chan) : (s.setChan c v).time = s.time := of_eq_true (eq_self _)
@[simp] theorem setChan_cls (c : Nat) (v : Chan) : (s.setChan c v).cls = s.cls := of_eq_true (eq_self _)
@[simp] theorem setChan_qm (c : Nat) (v : Chan) : (s.setChan c v).qm = s.qm := of_eq_true (eq_self _)
@[simp] theorem setChan_cli (c : Nat) (v : Chan) : (s.setChan c v).cli = s.cli := of_eq_true (eq_self _)
@[simp] theorem setChan_circ (c : Nat) (v : Chan) : (s.setChan c v).circ = s.circ := of_eq_true (eq_self _)
@[simp] theorem setChan_ciph (c : Nat) (v : Chan) : (s.setChan c v).ciph = s.ciph := of_eq_true (eq_self _)
@[simp] theorem setChan_flt (c : Nat) (v : Chan) : (s.setChan c v).flt = s.flt := of_eq_true (eq_self _)
@[simp] theorem setChan_lsch (c : Nat) (v : Chan) : (s.setChan c v).lsch = s.lsch := of_eq_true (eq_self _)
@[simp] theorem setChan_twin (c : Nat) (v : Chan) : (s.setChan c v).twin = s.twin := of_eq_true (eq_self _)
@[simp] theorem setChan_preura (c : Nat) (v : Chan) : (s.setChan c v).preura = s.preura := of_eq_true (eq_self _)
@[simp] theorem setChan_pwr (c : Nat) (v : Chan) : (s.setChan c v).pwr = s.pwr := of_eq_true (eq_self _)
@[simp] theorem setChan_mon (c : Nat) (v : Chan) : (s.setChan c v).mon = s.mon := of_eq_true (eq_self _)
@[simp] theorem setChan_tap (c : Nat) (v : Chan) : (s.setChan c v).tap = s.tap := of_eq_true (eq_self _)

@[simp] theorem setRecov_pending (g : Nat) (r : Recov) : (s.setRecov g r).pending = s.pending := of_eq_true (eq_self _)
@[simp] theorem setRecov_regs (g : Nat) (r : Recov) : (s.setRecov g r).regs = s.regs := of_eq_true (eq_self _)
@[simp] theorem setRecov_mem (g : Nat) (r : Recov) : (s.setRecov g r).mem = s.mem := of_eq_true (eq_self _)
@[simp] theorem setRecov_free (g : Nat) (r : Recov) : (s.setRecov g r).free = s.free := of_eq_true (eq_self _)
@[simp] theorem setRecov_edges (g : Nat) (r : Recov) : (s.setRecov g r).edges = s.edges := of_eq_true (eq_self _)
@[simp] theorem setRecov_wires (g : Nat) (r : Recov) : (s.setRecov g r).wires = s.wires := of_eq_true (eq_self _)
@[simp] theorem setRecov_med (g : Nat) (r : Recov) : (s.setRecov g r).med = s.med := of_eq_true (eq_self _)
@[simp] theorem setRecov_dfp (g : Nat) (r : Recov) : (s.setRecov g r).dfp = s.dfp := of_eq_true (eq_self _)
@[simp] theorem setRecov_ubb (g : Nat) (r : Recov) : (s.setRecov g r).ubb = s.ubb := of_eq_true (eq_self _)
@[simp] theorem setRecov_ward (g : Nat) (r : Recov) : (s.setRecov g r).ward = s.ward := of_eq_true (eq_self _)
@[simp] theorem setRecov_enrol (g : Nat) (r : Recov) : (s.setRecov g r).enrol = s.enrol := of_eq_true (eq_self _)
@[simp] theorem setRecov_time (g : Nat) (r : Recov) : (s.setRecov g r).time = s.time := of_eq_true (eq_self _)
@[simp] theorem setRecov_cls (g : Nat) (r : Recov) : (s.setRecov g r).cls = s.cls := of_eq_true (eq_self _)
@[simp] theorem setRecov_qm (g : Nat) (r : Recov) : (s.setRecov g r).qm = s.qm := of_eq_true (eq_self _)
@[simp] theorem setRecov_circ (g : Nat) (r : Recov) : (s.setRecov g r).circ = s.circ := of_eq_true (eq_self _)
@[simp] theorem setRecov_ciph (g : Nat) (r : Recov) : (s.setRecov g r).ciph = s.ciph := of_eq_true (eq_self _)
@[simp] theorem setRecov_flt (g : Nat) (r : Recov) : (s.setRecov g r).flt = s.flt := of_eq_true (eq_self _)
@[simp] theorem setRecov_lsch (g : Nat) (r : Recov) : (s.setRecov g r).lsch = s.lsch := of_eq_true (eq_self _)
@[simp] theorem setRecov_host (g : Nat) (r : Recov) : (s.setRecov g r).host = s.host := of_eq_true (eq_self _)
@[simp] theorem setRecov_twin (g : Nat) (r : Recov) : (s.setRecov g r).twin = s.twin := of_eq_true (eq_self _)
@[simp] theorem setRecov_preura (g : Nat) (r : Recov) : (s.setRecov g r).preura = s.preura := of_eq_true (eq_self _)
@[simp] theorem setRecov_pwr (g : Nat) (r : Recov) : (s.setRecov g r).pwr = s.pwr := of_eq_true (eq_self _)
@[simp] theorem setRecov_mon (g : Nat) (r : Recov) : (s.setRecov g r).mon = s.mon := of_eq_true (eq_self _)
@[simp] theorem setRecov_tap (g : Nat) (r : Recov) : (s.setRecov g r).tap = s.tap := of_eq_true (eq_self _)

@[simp] theorem setGnode_pending (i : Nat) (v : GNode) : (s.setGnode i v).pending = s.pending := of_eq_true (eq_self _)
@[simp] theorem setGnode_regs (i : Nat) (v : GNode) : (s.setGnode i v).regs = s.regs := of_eq_true (eq_self _)
@[simp] theorem setGnode_mem (i : Nat) (v : GNode) : (s.setGnode i v).mem = s.mem := of_eq_true (eq_self _)
@[simp] theorem setGnode_free (i : Nat) (v : GNode) : (s.setGnode i v).free = s.free := of_eq_true (eq_self _)
@[simp] theorem setGnode_edges (i : Nat) (v : GNode) : (s.setGnode i v).edges = s.edges := of_eq_true (eq_self _)
@[simp] theorem setGnode_wires (i : Nat) (v : GNode) : (s.setGnode i v).wires = s.wires := of_eq_true (eq_self _)
@[simp] theorem setGnode_med (i : Nat) (v : GNode) : (s.setGnode i v).med = s.med := of_eq_true (eq_self _)
@[simp] theorem setGnode_dfp (i : Nat) (v : GNode) : (s.setGnode i v).dfp = s.dfp := of_eq_true (eq_self _)
@[simp] theorem setGnode_ubb (i : Nat) (v : GNode) : (s.setGnode i v).ubb = s.ubb := of_eq_true (eq_self _)
@[simp] theorem setGnode_ward (i : Nat) (v : GNode) : (s.setGnode i v).ward = s.ward := of_eq_true (eq_self _)
@[simp] theorem setGnode_enrol (i : Nat) (v : GNode) : (s.setGnode i v).enrol = s.enrol := of_eq_true (eq_self _)
@[simp] theorem setGnode_time (i : Nat) (v : GNode) : (s.setGnode i v).time = s.time := of_eq_true (eq_self _)
@[simp] theorem setGnode_cls (i : Nat) (v : GNode) : (s.setGnode i v).cls = s.cls := of_eq_true (eq_self _)
@[simp] theorem setGnode_qm (i : Nat) (v : GNode) : (s.setGnode i v).qm = s.qm := of_eq_true (eq_self _)
@[simp] theorem setGnode_cli (i : Nat) (v : GNode) : (s.setGnode i v).cli = s.cli := of_eq_true (eq_self _)
@[simp] theorem setGnode_circ (i : Nat) (v : GNode) : (s.setGnode i v).circ = s.circ := of_eq_true (eq_self _)
@[simp] theorem setGnode_ciph (i : Nat) (v : GNode) : (s.setGnode i v).ciph = s.ciph := of_eq_true (eq_self _)
@[simp] theorem setGnode_flt (i : Nat) (v : GNode) : (s.setGnode i v).flt = s.flt := of_eq_true (eq_self _)
@[simp] theorem setGnode_host (i : Nat) (v : GNode) : (s.setGnode i v).host = s.host := of_eq_true (eq_self _)
@[simp] theorem setGnode_twin (i : Nat) (v : GNode) : (s.setGnode i v).twin = s.twin := of_eq_true (eq_self _)
@[simp] theorem setGnode_preura (i : Nat) (v : GNode) : (s.setGnode i v).preura = s.preura := of_eq_true (eq_self _)
@[simp] theorem setGnode_pwr (i : Nat) (v : GNode) : (s.setGnode i v).pwr = s.pwr := of_eq_true (eq_self _)
@[simp] theorem setGnode_mon (i : Nat) (v : GNode) : (s.setGnode i v).mon = s.mon := of_eq_true (eq_self _)
@[simp] theorem setGnode_tap (i : Nat) (v : GNode) : (s.setGnode i v).tap = s.tap := of_eq_true (eq_self _)

@[simp] theorem setRsq_pending (f : Nat) (r : RsqFlow) : (s.setRsq f r).pending = s.pending := of_eq_true (eq_self _)
@[simp] theorem setRsq_regs (f : Nat) (r : RsqFlow) : (s.setRsq f r).regs = s.regs := of_eq_true (eq_self _)
@[simp] theorem setRsq_mem (f : Nat) (r : RsqFlow) : (s.setRsq f r).mem = s.mem := of_eq_true (eq_self _)
@[simp] theorem setRsq_free (f : Nat) (r : RsqFlow) : (s.setRsq f r).free = s.free := of_eq_true (eq_self _)
@[simp] theorem setRsq_edges (f : Nat) (r : RsqFlow) : (s.setRsq f r).edges = s.edges := of_eq_true (eq_self _)
@[simp] theorem setRsq_wires (f : Nat) (r : RsqFlow) : (s.setRsq f r).wires = s.wires := of_eq_true (eq_self _)
@[simp] theorem setRsq_med (f : Nat) (r : RsqFlow) : (s.setRsq f r).med = s.med := of_eq_true (eq_self _)
@[simp] theorem setRsq_ubb (f : Nat) (r : RsqFlow) : (s.setRsq f r).ubb = s.ubb := of_eq_true (eq_self _)
@[simp] theorem setRsq_ward (f : Nat) (r : RsqFlow) : (s.setRsq f r).ward = s.ward := of_eq_true (eq_self _)
@[simp] theorem setRsq_enrol (f : Nat) (r : RsqFlow) : (s.setRsq f r).enrol = s.enrol := of_eq_true (eq_self _)
@[simp] theorem setRsq_time (f : Nat) (r : RsqFlow) : (s.setRsq f r).time = s.time := of_eq_true (eq_self _)
@[simp] theorem setRsq_cls (f : Nat) (r : RsqFlow) : (s.setRsq f r).cls = s.cls := of_eq_true (eq_self _)
@[simp] theorem setRsq_qm (f : Nat) (r : RsqFlow) : (s.setRsq f r).qm = s.qm := of_eq_true (eq_self _)
@[simp] theorem setRsq_cli (f : Nat) (r : RsqFlow) : (s.setRsq f r).cli = s.cli := of_eq_true (eq_self _)
@[simp] theorem setRsq_circ (f : Nat) (r : RsqFlow) : (s.setRsq f r).circ = s.circ := of_eq_true (eq_self _)
@[simp] theorem setRsq_ciph (f : Nat) (r : RsqFlow) : (s.setRsq f r).ciph = s.ciph := of_eq_true (eq_self _)
@[simp] theorem setRsq_flt (f : Nat) (r : RsqFlow) : (s.setRsq f r).flt = s.flt := of_eq_true (eq_self _)
@[simp] theorem setRsq_lsch (f : Nat) (r : RsqFlow) : (s.setRsq f r).lsch = s.lsch := of_eq_true (eq_self _)
@[simp] theorem setRsq_host (f : Nat) (r : RsqFlow) : (s.setRsq f r).host = s.host := of_eq_true (eq_self _)
@[simp] theorem setRsq_twin (f : Nat) (r : RsqFlow) : (s.setRsq f r).twin = s.twin := of_eq_true (eq_self _)
@[simp] theorem setRsq_preura (f : Nat) (r : RsqFlow) : (s.setRsq f r).preura = s.preura := of_eq_true (eq_self _)
@[simp] theorem setRsq_pwr (f : Nat) (r : RsqFlow) : (s.setRsq f r).pwr = s.pwr := of_eq_true (eq_self _)
@[simp] theorem setRsq_mon (f : Nat) (r : RsqFlow) : (s.setRsq f r).mon = s.mon := of_eq_true (eq_self _)
@[simp] theorem setRsq_tap (f : Nat) (r : RsqFlow) : (s.setRsq f r).tap = s.tap := of_eq_true (eq_self _)

@[simp] theorem setReasm_pending (f : Nat) (r : Reasm) : (s.setReasm f r).pending = s.pending := of_eq_true (eq_self _)
@[simp] theorem setReasm_regs (f : Nat) (r : Reasm) : (s.setReasm f r).regs = s.regs := of_eq_true (eq_self _)
@[simp] theorem setReasm_mem (f : Nat) (r : Reasm) : (s.setReasm f r).mem = s.mem := of_eq_true (eq_self _)
@[simp] theorem setReasm_free (f : Nat) (r : Reasm) : (s.setReasm f r).free = s.free := of_eq_true (eq_self _)
@[simp] theorem setReasm_edges (f : Nat) (r : Reasm) : (s.setReasm f r).edges = s.edges := of_eq_true (eq_self _)
@[simp] theorem setReasm_wires (f : Nat) (r : Reasm) : (s.setReasm f r).wires = s.wires := of_eq_true (eq_self _)
@[simp] theorem setReasm_med (f : Nat) (r : Reasm) : (s.setReasm f r).med = s.med := of_eq_true (eq_self _)
@[simp] theorem setReasm_ubb (f : Nat) (r : Reasm) : (s.setReasm f r).ubb = s.ubb := of_eq_true (eq_self _)
@[simp] theorem setReasm_ward (f : Nat) (r : Reasm) : (s.setReasm f r).ward = s.ward := of_eq_true (eq_self _)
@[simp] theorem setReasm_enrol (f : Nat) (r : Reasm) : (s.setReasm f r).enrol = s.enrol := of_eq_true (eq_self _)
@[simp] theorem setReasm_time (f : Nat) (r : Reasm) : (s.setReasm f r).time = s.time := of_eq_true (eq_self _)
@[simp] theorem setReasm_cls (f : Nat) (r : Reasm) : (s.setReasm f r).cls = s.cls := of_eq_true (eq_self _)
@[simp] theorem setReasm_qm (f : Nat) (r : Reasm) : (s.setReasm f r).qm = s.qm := of_eq_true (eq_self _)
@[simp] theorem setReasm_cli (f : Nat) (r : Reasm) : (s.setReasm f r).cli = s.cli := of_eq_true (eq_self _)
@[simp] theorem setReasm_circ (f : Nat) (r : Reasm) : (s.setReasm f r).circ = s.circ := of_eq_true (eq_self _)
@[simp] theorem setReasm_ciph (f : Nat) (r : Reasm) : (s.setReasm f r).ciph = s.ciph := of_eq_true (eq_self _)
@[simp] theorem setReasm_flt (f : Nat) (r : Reasm) : (s.setReasm f r).flt = s.flt := of_eq_true (eq_self _)
@[simp] theorem setReasm_lsch (f : Nat) (r : Reasm) : (s.setReasm f r).lsch = s.lsch := of_eq_true (eq_self _)
@[simp] theorem setReasm_host (f : Nat) (r : Reasm) : (s.setReasm f r).host = s.host := of_eq_true (eq_self _)
@[simp] theorem setReasm_twin (f : Nat) (r : Reasm) : (s.setReasm f r).twin = s.twin := of_eq_true (eq_self _)
@[simp] theorem setReasm_preura (f : Nat) (r : Reasm) : (s.setReasm f r).preura = s.preura := of_eq_true (eq_self _)
@[simp] theorem setReasm_pwr (f : Nat) (r : Reasm) : (s.setReasm f r).pwr = s.pwr := of_eq_true (eq_self _)
@[simp] theorem setReasm_mon (f : Nat) (r : Reasm) : (s.setReasm f r).mon = s.mon := of_eq_true (eq_self _)
@[simp] theorem setReasm_tap (f : Nat) (r : Reasm) : (s.setReasm f r).tap = s.tap := of_eq_true (eq_self _)

@[simp] theorem setPulse_pending (i : Nat) (v : Pulse) : (s.setPulse i v).pending = s.pending := of_eq_true (eq_self _)
@[simp] theorem setPulse_regs (i : Nat) (v : Pulse) : (s.setPulse i v).regs = s.regs := of_eq_true (eq_self _)
@[simp] theorem setPulse_mem (i : Nat) (v : Pulse) : (s.setPulse i v).mem = s.mem := of_eq_true (eq_self _)
@[simp] theorem setPulse_free (i : Nat) (v : Pulse) : (s.setPulse i v).free = s.free := of_eq_true (eq_self _)
@[simp] theorem setPulse_edges (i : Nat) (v : Pulse) : (s.setPulse i v).edges = s.edges := of_eq_true (eq_self _)
@[simp] theorem setPulse_wires (i : Nat) (v : Pulse) : (s.setPulse i v).wires = s.wires := of_eq_true (eq_self _)
@[simp] theorem setPulse_med (i : Nat) (v : Pulse) : (s.setPulse i v).med = s.med := of_eq_true (eq_self _)
@[simp] theorem setPulse_dfp (i : Nat) (v : Pulse) : (s.setPulse i v).dfp = s.dfp := of_eq_true (eq_self _)
@[simp] theorem setPulse_ubb (i : Nat) (v : Pulse) : (s.setPulse i v).ubb = s.ubb := of_eq_true (eq_self _)
@[simp] theorem setPulse_ward (i : Nat) (v : Pulse) : (s.setPulse i v).ward = s.ward := of_eq_true (eq_self _)
@[simp] theorem setPulse_enrol (i : Nat) (v : Pulse) : (s.setPulse i v).enrol = s.enrol := of_eq_true (eq_self _)
@[simp] theorem setPulse_cls (i : Nat) (v : Pulse) : (s.setPulse i v).cls = s.cls := of_eq_true (eq_self _)
@[simp] theorem setPulse_qm (i : Nat) (v : Pulse) : (s.setPulse i v).qm = s.qm := of_eq_true (eq_self _)
@[simp] theorem setPulse_cli (i : Nat) (v : Pulse) : (s.setPulse i v).cli = s.cli := of_eq_true (eq_self _)
@[simp] theorem setPulse_circ (i : Nat) (v : Pulse) : (s.setPulse i v).circ = s.circ := of_eq_true (eq_self _)
@[simp] theorem setPulse_ciph (i : Nat) (v : Pulse) : (s.setPulse i v).ciph = s.ciph := of_eq_true (eq_self _)
@[simp] theorem setPulse_flt (i : Nat) (v : Pulse) : (s.setPulse i v).flt = s.flt := of_eq_true (eq_self _)
@[simp] theorem setPulse_lsch (i : Nat) (v : Pulse) : (s.setPulse i v).lsch = s.lsch := of_eq_true (eq_self _)
@[simp] theorem setPulse_host (i : Nat) (v : Pulse) : (s.setPulse i v).host = s.host := of_eq_true (eq_self _)
@[simp] theorem setPulse_twin (i : Nat) (v : Pulse) : (s.setPulse i v).twin = s.twin := of_eq_true (eq_self _)
@[simp] theorem setPulse_preura (i : Nat) (v : Pulse) : (s.setPulse i v).preura = s.preura := of_eq_true (eq_self _)
@[simp] theorem setPulse_pwr (i : Nat) (v : Pulse) : (s.setPulse i v).pwr = s.pwr := of_eq_true (eq_self _)
@[simp] theorem setPulse_mon (i : Nat) (v : Pulse) : (s.setPulse i v).mon = s.mon := of_eq_true (eq_self _)
@[simp] theorem setPulse_tap (i : Nat) (v : Pulse) : (s.setPulse i v).tap = s.tap := of_eq_true (eq_self _)

@[simp] theorem setCapture_pending (j : Nat) (l : List Stamp) : (s.setCapture j l).pending = s.pending := of_eq_true (eq_self _)
@[simp] theorem setCapture_regs (j : Nat) (l : List Stamp) : (s.setCapture j l).regs = s.regs := of_eq_true (eq_self _)
@[simp] theorem setCapture_mem (j : Nat) (l : List Stamp) : (s.setCapture j l).mem = s.mem := of_eq_true (eq_self _)
@[simp] theorem setCapture_free (j : Nat) (l : List Stamp) : (s.setCapture j l).free = s.free := of_eq_true (eq_self _)
@[simp] theorem setCapture_edges (j : Nat) (l : List Stamp) : (s.setCapture j l).edges = s.edges := of_eq_true (eq_self _)
@[simp] theorem setCapture_wires (j : Nat) (l : List Stamp) : (s.setCapture j l).wires = s.wires := of_eq_true (eq_self _)
@[simp] theorem setCapture_med (j : Nat) (l : List Stamp) : (s.setCapture j l).med = s.med := of_eq_true (eq_self _)
@[simp] theorem setCapture_dfp (j : Nat) (l : List Stamp) : (s.setCapture j l).dfp = s.dfp := of_eq_true (eq_self _)
@[simp] theorem setCapture_ubb (j : Nat) (l : List Stamp) : (s.setCapture j l).ubb = s.ubb := of_eq_true (eq_self _)
@[simp] theorem setCapture_ward (j : Nat) (l : List Stamp) : (s.setCapture j l).ward = s.ward := of_eq_true (eq_self _)
@[simp] theorem setCapture_enrol (j : Nat) (l : List Stamp) : (s.setCapture j l).enrol = s.enrol := of_eq_true (eq_self _)
@[simp] theorem setCapture_cls (j : Nat) (l : List Stamp) : (s.setCapture j l).cls = s.cls := of_eq_true (eq_self _)
@[simp] theorem setCapture_qm (j : Nat) (l : List Stamp) : (s.setCapture j l).qm = s.qm := of_eq_true (eq_self _)
@[simp] theorem setCapture_cli (j : Nat) (l : List Stamp) : (s.setCapture j l).cli = s.cli := of_eq_true (eq_self _)
@[simp] theorem setCapture_circ (j : Nat) (l : List Stamp) : (s.setCapture j l).circ = s.circ := of_eq_true (eq_self _)
@[simp] theorem setCapture_ciph (j : Nat) (l : List Stamp) : (s.setCapture j l).ciph = s.ciph := of_eq_true (eq_self _)
@[simp] theorem setCapture_flt (j : Nat) (l : List Stamp) : (s.setCapture j l).flt = s.flt := of_eq_true (eq_self _)
@[simp] theorem setCapture_lsch (j : Nat) (l : List Stamp) : (s.setCapture j l).lsch = s.lsch := of_eq_true (eq_self _)
@[simp] theorem setCapture_host (j : Nat) (l : List Stamp) : (s.setCapture j l).host = s.host := of_eq_true (eq_self _)
@[simp] theorem setCapture_twin (j : Nat) (l : List Stamp) : (s.setCapture j l).twin = s.twin := of_eq_true (eq_self _)
@[simp] theorem setCapture_preura (j : Nat) (l : List Stamp) : (s.setCapture j l).preura = s.preura := of_eq_true (eq_self _)
@[simp] theorem setCapture_pwr (j : Nat) (l : List Stamp) : (s.setCapture j l).pwr = s.pwr := of_eq_true (eq_self _)
@[simp] theorem setCapture_mon (j : Nat) (l : List Stamp) : (s.setCapture j l).mon = s.mon := of_eq_true (eq_self _)
@[simp] theorem setCapture_tap (j : Nat) (l : List Stamp) : (s.setCapture j l).tap = s.tap := of_eq_true (eq_self _)

@[simp] theorem setDieUsed_pending (d : Dir) (n : Nat) : (s.setDieUsed d n).pending = s.pending := of_eq_true (eq_self _)
@[simp] theorem setDieUsed_regs (d : Dir) (n : Nat) : (s.setDieUsed d n).regs = s.regs := of_eq_true (eq_self _)
@[simp] theorem setDieUsed_mem (d : Dir) (n : Nat) : (s.setDieUsed d n).mem = s.mem := of_eq_true (eq_self _)
@[simp] theorem setDieUsed_free (d : Dir) (n : Nat) : (s.setDieUsed d n).free = s.free := of_eq_true (eq_self _)
@[simp] theorem setDieUsed_edges (d : Dir) (n : Nat) : (s.setDieUsed d n).edges = s.edges := of_eq_true (eq_self _)
@[simp] theorem setDieUsed_wires (d : Dir) (n : Nat) : (s.setDieUsed d n).wires = s.wires := of_eq_true (eq_self _)
@[simp] theorem setDieUsed_med (d : Dir) (n : Nat) : (s.setDieUsed d n).med = s.med := of_eq_true (eq_self _)
@[simp] theorem setDieUsed_dfp (d : Dir) (n : Nat) : (s.setDieUsed d n).dfp = s.dfp := of_eq_true (eq_self _)
@[simp] theorem setDieUsed_ubb (d : Dir) (n : Nat) : (s.setDieUsed d n).ubb = s.ubb := of_eq_true (eq_self _)
@[simp] theorem setDieUsed_ward (d : Dir) (n : Nat) : (s.setDieUsed d n).ward = s.ward := of_eq_true (eq_self _)
@[simp] theorem setDieUsed_enrol (d : Dir) (n : Nat) : (s.setDieUsed d n).enrol = s.enrol := of_eq_true (eq_self _)
@[simp] theorem setDieUsed_time (d : Dir) (n : Nat) : (s.setDieUsed d n).time = s.time := of_eq_true (eq_self _)
@[simp] theorem setDieUsed_cls (d : Dir) (n : Nat) : (s.setDieUsed d n).cls = s.cls := of_eq_true (eq_self _)
@[simp] theorem setDieUsed_cli (d : Dir) (n : Nat) : (s.setDieUsed d n).cli = s.cli := of_eq_true (eq_self _)
@[simp] theorem setDieUsed_circ (d : Dir) (n : Nat) : (s.setDieUsed d n).circ = s.circ := of_eq_true (eq_self _)
@[simp] theorem setDieUsed_ciph (d : Dir) (n : Nat) : (s.setDieUsed d n).ciph = s.ciph := of_eq_true (eq_self _)
@[simp] theorem setDieUsed_flt (d : Dir) (n : Nat) : (s.setDieUsed d n).flt = s.flt := of_eq_true (eq_self _)
@[simp] theorem setDieUsed_lsch (d : Dir) (n : Nat) : (s.setDieUsed d n).lsch = s.lsch := of_eq_true (eq_self _)
@[simp] theorem setDieUsed_host (d : Dir) (n : Nat) : (s.setDieUsed d n).host = s.host := of_eq_true (eq_self _)
@[simp] theorem setDieUsed_twin (d : Dir) (n : Nat) : (s.setDieUsed d n).twin = s.twin := of_eq_true (eq_self _)
@[simp] theorem setDieUsed_preura (d : Dir) (n : Nat) : (s.setDieUsed d n).preura = s.preura := of_eq_true (eq_self _)
@[simp] theorem setDieUsed_pwr (d : Dir) (n : Nat) : (s.setDieUsed d n).pwr = s.pwr := of_eq_true (eq_self _)
@[simp] theorem setDieUsed_mon (d : Dir) (n : Nat) : (s.setDieUsed d n).mon = s.mon := of_eq_true (eq_self _)
@[simp] theorem setDieUsed_tap (d : Dir) (n : Nat) : (s.setDieUsed d n).tap = s.tap := of_eq_true (eq_self _)

@[simp] theorem setSlowUsed_pending (d : Dir) (n : Nat) : (s.setSlowUsed d n).pending = s.pending := of_eq_true (eq_self _)
@[simp] theorem setSlowUsed_regs (d : Dir) (n : Nat) : (s.setSlowUsed d n).regs = s.regs := of_eq_true (eq_self _)
@[simp] theorem setSlowUsed_mem (d : Dir) (n : Nat) : (s.setSlowUsed d n).mem = s.mem := of_eq_true (eq_self _)
@[simp] theorem setSlowUsed_free (d : Dir) (n : Nat) : (s.setSlowUsed d n).free = s.free := of_eq_true (eq_self _)
@[simp] theorem setSlowUsed_edges (d : Dir) (n : Nat) : (s.setSlowUsed d n).edges = s.edges := of_eq_true (eq_self _)
@[simp] theorem setSlowUsed_wires (d : Dir) (n : Nat) : (s.setSlowUsed d n).wires = s.wires := of_eq_true (eq_self _)
@[simp] theorem setSlowUsed_med (d : Dir) (n : Nat) : (s.setSlowUsed d n).med = s.med := of_eq_true (eq_self _)
@[simp] theorem setSlowUsed_dfp (d : Dir) (n : Nat) : (s.setSlowUsed d n).dfp = s.dfp := of_eq_true (eq_self _)
@[simp] theorem setSlowUsed_ubb (d : Dir) (n : Nat) : (s.setSlowUsed d n).ubb = s.ubb := of_eq_true (eq_self _)
@[simp] theorem setSlowUsed_ward (d : Dir) (n : Nat) : (s.setSlowUsed d n).ward = s.ward := of_eq_true (eq_self _)
@[simp] theorem setSlowUsed_enrol (d : Dir) (n : Nat) : (s.setSlowUsed d n).enrol = s.enrol := of_eq_true (eq_self _)
@[simp] theorem setSlowUsed_time (d : Dir) (n : Nat) : (s.setSlowUsed d n).time = s.time := of_eq_true (eq_self _)
@[simp] theorem setSlowUsed_cls (d : Dir) (n : Nat) : (s.setSlowUsed d n).cls = s.cls := of_eq_true (eq_self _)
@[simp] theorem setSlowUsed_cli (d : Dir) (n : Nat) : (s.setSlowUsed d n).cli = s.cli := of_eq_true (eq_self _)
@[simp] theorem setSlowUsed_circ (d : Dir) (n : Nat) : (s.setSlowUsed d n).circ = s.circ := of_eq_true (eq_self _)
@[simp] theorem setSlowUsed_ciph (d : Dir) (n : Nat) : (s.setSlowUsed d n).ciph = s.ciph := of_eq_true (eq_self _)
@[simp] theorem setSlowUsed_flt (d : Dir) (n : Nat) : (s.setSlowUsed d n).flt = s.flt := of_eq_true (eq_self _)
@[simp] theorem setSlowUsed_lsch (d : Dir) (n : Nat) : (s.setSlowUsed d n).lsch = s.lsch := of_eq_true (eq_self _)
@[simp] theorem setSlowUsed_host (d : Dir) (n : Nat) : (s.setSlowUsed d n).host = s.host := of_eq_true (eq_self _)
@[simp] theorem setSlowUsed_twin (d : Dir) (n : Nat) : (s.setSlowUsed d n).twin = s.twin := of_eq_true (eq_self _)
@[simp] theorem setSlowUsed_preura (d : Dir) (n : Nat) : (s.setSlowUsed d n).preura = s.preura := of_eq_true (eq_self _)
@[simp] theorem setSlowUsed_pwr (d : Dir) (n : Nat) : (s.setSlowUsed d n).pwr = s.pwr := of_eq_true (eq_self _)
@[simp] theorem setSlowUsed_mon (d : Dir) (n : Nat) : (s.setSlowUsed d n).mon = s.mon := of_eq_true (eq_self _)
@[simp] theorem setSlowUsed_tap (d : Dir) (n : Nat) : (s.setSlowUsed d n).tap = s.tap := of_eq_true (eq_self _)

@[simp] theorem setSdh_pending (k : Nat) (v : SdhLane) : (s.setSdh k v).pending = s.pending := of_eq_true (eq_self _)
@[simp] theorem setSdh_regs (k : Nat) (v : SdhLane) : (s.setSdh k v).regs = s.regs := of_eq_true (eq_self _)
@[simp] theorem setSdh_mem (k : Nat) (v : SdhLane) : (s.setSdh k v).mem = s.mem := of_eq_true (eq_self _)
@[simp] theorem setSdh_free (k : Nat) (v : SdhLane) : (s.setSdh k v).free = s.free := of_eq_true (eq_self _)
@[simp] theorem setSdh_edges (k : Nat) (v : SdhLane) : (s.setSdh k v).edges = s.edges := of_eq_true (eq_self _)
@[simp] theorem setSdh_wires (k : Nat) (v : SdhLane) : (s.setSdh k v).wires = s.wires := of_eq_true (eq_self _)
@[simp] theorem setSdh_med (k : Nat) (v : SdhLane) : (s.setSdh k v).med = s.med := of_eq_true (eq_self _)
@[simp] theorem setSdh_dfp (k : Nat) (v : SdhLane) : (s.setSdh k v).dfp = s.dfp := of_eq_true (eq_self _)
@[simp] theorem setSdh_ubb (k : Nat) (v : SdhLane) : (s.setSdh k v).ubb = s.ubb := of_eq_true (eq_self _)
@[simp] theorem setSdh_ward (k : Nat) (v : SdhLane) : (s.setSdh k v).ward = s.ward := of_eq_true (eq_self _)
@[simp] theorem setSdh_enrol (k : Nat) (v : SdhLane) : (s.setSdh k v).enrol = s.enrol := of_eq_true (eq_self _)
@[simp] theorem setSdh_time (k : Nat) (v : SdhLane) : (s.setSdh k v).time = s.time := of_eq_true (eq_self _)
@[simp] theorem setSdh_cls (k : Nat) (v : SdhLane) : (s.setSdh k v).cls = s.cls := of_eq_true (eq_self _)
@[simp] theorem setSdh_qm (k : Nat) (v : SdhLane) : (s.setSdh k v).qm = s.qm := of_eq_true (eq_self _)
@[simp] theorem setSdh_cli (k : Nat) (v : SdhLane) : (s.setSdh k v).cli = s.cli := of_eq_true (eq_self _)
@[simp] theorem setSdh_ciph (k : Nat) (v : SdhLane) : (s.setSdh k v).ciph = s.ciph := of_eq_true (eq_self _)
@[simp] theorem setSdh_flt (k : Nat) (v : SdhLane) : (s.setSdh k v).flt = s.flt := of_eq_true (eq_self _)
@[simp] theorem setSdh_lsch (k : Nat) (v : SdhLane) : (s.setSdh k v).lsch = s.lsch := of_eq_true (eq_self _)
@[simp] theorem setSdh_host (k : Nat) (v : SdhLane) : (s.setSdh k v).host = s.host := of_eq_true (eq_self _)
@[simp] theorem setSdh_twin (k : Nat) (v : SdhLane) : (s.setSdh k v).twin = s.twin := of_eq_true (eq_self _)
@[simp] theorem setSdh_preura (k : Nat) (v : SdhLane) : (s.setSdh k v).preura = s.preura := of_eq_true (eq_self _)
@[simp] theorem setSdh_pwr (k : Nat) (v : SdhLane) : (s.setSdh k v).pwr = s.pwr := of_eq_true (eq_self _)
@[simp] theorem setSdh_mon (k : Nat) (v : SdhLane) : (s.setSdh k v).mon = s.mon := of_eq_true (eq_self _)
@[simp] theorem setSdh_tap (k : Nat) (v : SdhLane) : (s.setSdh k v).tap = s.tap := of_eq_true (eq_self _)

@[simp] theorem setLane_med (p : Nat) (l : MedLane) : (s.setLane p l).med = { s.med with lanes := Tbl.set (fun _ => {}) s.med.lanes p l } := of_eq_true (eq_self _)
@[simp] theorem setDplane_dfp (p : Nat) (l : DfpPlane) : (s.setDplane p l).dfp = { s.dfp with planes := Tbl.set (fun _ => {}) s.dfp.planes p l } := of_eq_true (eq_self _)
@[simp] theorem setUplane_ubb (p : Nat) (l : UbbPlane) : (s.setUplane p l).ubb = { s.ubb with planes := Tbl.set (fun _ => {}) s.ubb.planes p l } := of_eq_true (eq_self _)
@[simp] theorem setEplane_enrol (p : Nat) (l : EnrolPlane) : (s.setEplane p l).enrol = { s.enrol with planes := Tbl.set (fun _ => {}) s.enrol.planes p l } := of_eq_true (eq_self _)
@[simp] theorem setQueue_qm (q : Nat) (v : Queue) : (s.setQueue q v).qm = { s.qm with queues := Tbl.set (fun _ => {}) s.qm.queues q v } := of_eq_true (eq_self _)
@[simp] theorem setNode_qm (n : Nat) (v : Node) : (s.setNode n v).qm = { s.qm with nodes := Tbl.set (fun _ => {}) s.qm.nodes n v } := of_eq_true (eq_self _)
@[simp] theorem setPort_cli (k : Nat) (v : CliPort) : (s.setPort k v).cli = { s.cli with ports := Tbl.set (fun _ => {}) s.cli.ports k v } := of_eq_true (eq_self _)
@[simp] theorem setCircuit_circ (c : Nat) (v : Circuit) : (s.setCircuit c v).circ = { s.circ with circuits := Tbl.set (fun _ => {}) s.circ.circuits c v } := of_eq_true (eq_self _)
@[simp] theorem setSlot_ciph (n : Nat) (v : KeySlot) : (s.setSlot n v).ciph = { s.ciph with slots := Tbl.set (fun _ => {}) s.ciph.slots n v } := of_eq_true (eq_self _)
@[simp] theorem setFlow_ubb (f : Nat) (v : BitVec 40) : (s.setFlow f v).ubb = { s.ubb with flows := Tbl.set (fun _ => 0) s.ubb.flows f v } := of_eq_true (eq_self _)
@[simp] theorem setCore_lsch (c : Nat) (v : Core) : (s.setCore c v).lsch = { s.lsch with cores := Tbl.set (fun _ => {}) s.lsch.cores c v } := of_eq_true (eq_self _)
@[simp] theorem setChan_host (c : Nat) (v : Chan) : (s.setChan c v).host = { s.host with chans := Tbl.set (fun _ => {}) s.host.chans c v } := of_eq_true (eq_self _)
@[simp] theorem setRecov_cli (g : Nat) (r : Recov) : (s.setRecov g r).cli = { s.cli with recov := Tbl.set (fun _ => {}) s.cli.recov g r } := of_eq_true (eq_self _)
@[simp] theorem setGnode_lsch (i : Nat) (v : GNode) : (s.setGnode i v).lsch = { s.lsch with nodes := Tbl.set (fun _ => {}) s.lsch.nodes i v } := of_eq_true (eq_self _)
@[simp] theorem setRsq_dfp (f : Nat) (r : RsqFlow) : (s.setRsq f r).dfp = { s.dfp with rsq := Tbl.set (fun _ => {}) s.dfp.rsq f r } := of_eq_true (eq_self _)
@[simp] theorem setReasm_dfp (f : Nat) (r : Reasm) : (s.setReasm f r).dfp = { s.dfp with reasm := Tbl.set (fun _ => {}) s.dfp.reasm f r } := of_eq_true (eq_self _)
@[simp] theorem setPulse_time (i : Nat) (v : Pulse) : (s.setPulse i v).time = { s.time with pulses := Tbl.set (fun _ => {}) s.time.pulses i v } := of_eq_true (eq_self _)
@[simp] theorem setCapture_time (j : Nat) (l : List Stamp) : (s.setCapture j l).time = { s.time with captures := Tbl.set (fun _ => []) s.time.captures j l } := of_eq_true (eq_self _)

/-- A fold of steps that each keep a part of the state keeps it. -/
theorem foldl_keep {β γ : Type} (p : State → γ) (f : State → β → State) (h : ∀ s x, p (f s x) = p s) (l : List β) (s : State) :
    p (l.foldl f s) = p s := by
  induction l generalizing s with
  | nil => rfl
  | cons x l ih => simp only [List.foldl_cons, ih, h]

/-- A fold keeps what each of its steps keeps on the elements of the list. -/
theorem foldl_keep_mem {β γ : Type} (p : State → γ) (f : State → β → State) (l : List β) (h : ∀ s, ∀ x ∈ l, p (f s x) = p s) (s : State) :
    p (l.foldl f s) = p s := by
  induction l generalizing s with
  | nil => rfl
  | cons x l ih =>
    simp only [List.foldl_cons]
    rw [ih (fun s y hy => h s y (List.mem_cons_of_mem _ hy)), h s x (List.mem_cons_self ..)]

/-- A counter block event only writes fields of its block and latches its overflow bits. -/
theorem pmcEvent_keep {γ : Type} (p : State → γ) (h1 : ∀ s a f v, p (s.setFld a f v) = p s) (h2 : ∀ s a f, p (s.latch a f) = p s)
    (s : State) (u code n : Nat) : p (s.pmcEvent u code n) = p s := by
  unfold State.pmcEvent
  simp only
  have fold : ∀ l : List Nat, p (l.foldl (fun (s : State) i =>
      if s.bit (R.pmcCtl u) ⟨i, i⟩ && s.evsel u i == code then
        (s.setFld (R.pmcCnt u i) F.pmcCnt_count (s.fld (R.pmcCnt u i) F.pmcCnt_count + n)).latchIf
          (decide (2 ^ 48 ≤ s.fld (R.pmcCnt u i) F.pmcCnt_count + n)) (R.pmcCtl u) ⟨16 + i, 16 + i⟩
      else s) s) = p s := fun l => by
    refine foldl_keep p _ (fun s i => ?_) l s
    unfold State.latchIf
    split
    · split
      · rw [h2, h1]
      · rw [h1]
    · rfl
  split
  all_goals
    split
    · rfl
    · exact fold _

@[simp] theorem latchIf_pending (b : Bool) (a : Nat) (f : Fld) : (s.latchIf b a f).pending = s.pending := by unfold State.latchIf; (repeat' split) <;> simp
@[simp] theorem latchIf_mem (b : Bool) (a : Nat) (f : Fld) : (s.latchIf b a f).mem = s.mem := by unfold State.latchIf; (repeat' split) <;> simp
@[simp] theorem latchIf_free (b : Bool) (a : Nat) (f : Fld) : (s.latchIf b a f).free = s.free := by unfold State.latchIf; (repeat' split) <;> simp
@[simp] theorem latchIf_wires (b : Bool) (a : Nat) (f : Fld) : (s.latchIf b a f).wires = s.wires := by unfold State.latchIf; (repeat' split) <;> simp
@[simp] theorem latchIf_med (b : Bool) (a : Nat) (f : Fld) : (s.latchIf b a f).med = s.med := by unfold State.latchIf; (repeat' split) <;> simp
@[simp] theorem latchIf_dfp (b : Bool) (a : Nat) (f : Fld) : (s.latchIf b a f).dfp = s.dfp := by unfold State.latchIf; (repeat' split) <;> simp
@[simp] theorem latchIf_ubb (b : Bool) (a : Nat) (f : Fld) : (s.latchIf b a f).ubb = s.ubb := by unfold State.latchIf; (repeat' split) <;> simp
@[simp] theorem latchIf_ward (b : Bool) (a : Nat) (f : Fld) : (s.latchIf b a f).ward = s.ward := by unfold State.latchIf; (repeat' split) <;> simp
@[simp] theorem latchIf_enrol (b : Bool) (a : Nat) (f : Fld) : (s.latchIf b a f).enrol = s.enrol := by unfold State.latchIf; (repeat' split) <;> simp
@[simp] theorem latchIf_time (b : Bool) (a : Nat) (f : Fld) : (s.latchIf b a f).time = s.time := by unfold State.latchIf; (repeat' split) <;> simp
@[simp] theorem latchIf_cls (b : Bool) (a : Nat) (f : Fld) : (s.latchIf b a f).cls = s.cls := by unfold State.latchIf; (repeat' split) <;> simp
@[simp] theorem latchIf_qm (b : Bool) (a : Nat) (f : Fld) : (s.latchIf b a f).qm = s.qm := by unfold State.latchIf; (repeat' split) <;> simp
@[simp] theorem latchIf_cli (b : Bool) (a : Nat) (f : Fld) : (s.latchIf b a f).cli = s.cli := by unfold State.latchIf; (repeat' split) <;> simp
@[simp] theorem latchIf_circ (b : Bool) (a : Nat) (f : Fld) : (s.latchIf b a f).circ = s.circ := by unfold State.latchIf; (repeat' split) <;> simp
@[simp] theorem latchIf_ciph (b : Bool) (a : Nat) (f : Fld) : (s.latchIf b a f).ciph = s.ciph := by unfold State.latchIf; (repeat' split) <;> simp
@[simp] theorem latchIf_flt (b : Bool) (a : Nat) (f : Fld) : (s.latchIf b a f).flt = s.flt := by unfold State.latchIf; (repeat' split) <;> simp
@[simp] theorem latchIf_lsch (b : Bool) (a : Nat) (f : Fld) : (s.latchIf b a f).lsch = s.lsch := by unfold State.latchIf; (repeat' split) <;> simp
@[simp] theorem latchIf_host (b : Bool) (a : Nat) (f : Fld) : (s.latchIf b a f).host = s.host := by unfold State.latchIf; (repeat' split) <;> simp
@[simp] theorem latchIf_twin (b : Bool) (a : Nat) (f : Fld) : (s.latchIf b a f).twin = s.twin := by unfold State.latchIf; (repeat' split) <;> simp
@[simp] theorem latchIf_preura (b : Bool) (a : Nat) (f : Fld) : (s.latchIf b a f).preura = s.preura := by unfold State.latchIf; (repeat' split) <;> simp
@[simp] theorem latchIf_pwr (b : Bool) (a : Nat) (f : Fld) : (s.latchIf b a f).pwr = s.pwr := by unfold State.latchIf; (repeat' split) <;> simp
@[simp] theorem latchIf_mon (b : Bool) (a : Nat) (f : Fld) : (s.latchIf b a f).mon = s.mon := by unfold State.latchIf; (repeat' split) <;> simp
@[simp] theorem latchIf_tap (b : Bool) (a : Nat) (f : Fld) : (s.latchIf b a f).tap = s.tap := by unfold State.latchIf; (repeat' split) <;> simp

@[simp] theorem pmcEvent_pending (u code n : Nat) : (s.pmcEvent u code n).pending = s.pending := pmcEvent_keep (fun s => s.pending) (by simp) (by simp) s u code n
@[simp] theorem pmcEvent_mem (u code n : Nat) : (s.pmcEvent u code n).mem = s.mem := pmcEvent_keep (fun s => s.mem) (by simp) (by simp) s u code n
@[simp] theorem pmcEvent_free (u code n : Nat) : (s.pmcEvent u code n).free = s.free := pmcEvent_keep (fun s => s.free) (by simp) (by simp) s u code n
@[simp] theorem pmcEvent_wires (u code n : Nat) : (s.pmcEvent u code n).wires = s.wires := pmcEvent_keep (fun s => s.wires) (by simp) (by simp) s u code n
@[simp] theorem pmcEvent_med (u code n : Nat) : (s.pmcEvent u code n).med = s.med := pmcEvent_keep (fun s => s.med) (by simp) (by simp) s u code n
@[simp] theorem pmcEvent_dfp (u code n : Nat) : (s.pmcEvent u code n).dfp = s.dfp := pmcEvent_keep (fun s => s.dfp) (by simp) (by simp) s u code n
@[simp] theorem pmcEvent_ubb (u code n : Nat) : (s.pmcEvent u code n).ubb = s.ubb := pmcEvent_keep (fun s => s.ubb) (by simp) (by simp) s u code n
@[simp] theorem pmcEvent_ward (u code n : Nat) : (s.pmcEvent u code n).ward = s.ward := pmcEvent_keep (fun s => s.ward) (by simp) (by simp) s u code n
@[simp] theorem pmcEvent_enrol (u code n : Nat) : (s.pmcEvent u code n).enrol = s.enrol := pmcEvent_keep (fun s => s.enrol) (by simp) (by simp) s u code n
@[simp] theorem pmcEvent_time (u code n : Nat) : (s.pmcEvent u code n).time = s.time := pmcEvent_keep (fun s => s.time) (by simp) (by simp) s u code n
@[simp] theorem pmcEvent_cls (u code n : Nat) : (s.pmcEvent u code n).cls = s.cls := pmcEvent_keep (fun s => s.cls) (by simp) (by simp) s u code n
@[simp] theorem pmcEvent_qm (u code n : Nat) : (s.pmcEvent u code n).qm = s.qm := pmcEvent_keep (fun s => s.qm) (by simp) (by simp) s u code n
@[simp] theorem pmcEvent_cli (u code n : Nat) : (s.pmcEvent u code n).cli = s.cli := pmcEvent_keep (fun s => s.cli) (by simp) (by simp) s u code n
@[simp] theorem pmcEvent_circ (u code n : Nat) : (s.pmcEvent u code n).circ = s.circ := pmcEvent_keep (fun s => s.circ) (by simp) (by simp) s u code n
@[simp] theorem pmcEvent_ciph (u code n : Nat) : (s.pmcEvent u code n).ciph = s.ciph := pmcEvent_keep (fun s => s.ciph) (by simp) (by simp) s u code n
@[simp] theorem pmcEvent_flt (u code n : Nat) : (s.pmcEvent u code n).flt = s.flt := pmcEvent_keep (fun s => s.flt) (by simp) (by simp) s u code n
@[simp] theorem pmcEvent_lsch (u code n : Nat) : (s.pmcEvent u code n).lsch = s.lsch := pmcEvent_keep (fun s => s.lsch) (by simp) (by simp) s u code n
@[simp] theorem pmcEvent_host (u code n : Nat) : (s.pmcEvent u code n).host = s.host := pmcEvent_keep (fun s => s.host) (by simp) (by simp) s u code n
@[simp] theorem pmcEvent_twin (u code n : Nat) : (s.pmcEvent u code n).twin = s.twin := pmcEvent_keep (fun s => s.twin) (by simp) (by simp) s u code n
@[simp] theorem pmcEvent_preura (u code n : Nat) : (s.pmcEvent u code n).preura = s.preura := pmcEvent_keep (fun s => s.preura) (by simp) (by simp) s u code n
@[simp] theorem pmcEvent_pwr (u code n : Nat) : (s.pmcEvent u code n).pwr = s.pwr := pmcEvent_keep (fun s => s.pwr) (by simp) (by simp) s u code n
@[simp] theorem pmcEvent_mon (u code n : Nat) : (s.pmcEvent u code n).mon = s.mon := pmcEvent_keep (fun s => s.mon) (by simp) (by simp) s u code n
@[simp] theorem pmcEvent_tap (u code n : Nat) : (s.pmcEvent u code n).tap = s.tap := pmcEvent_keep (fun s => s.tap) (by simp) (by simp) s u code n

@[simp] theorem setWard_pending (f : Fld) (b : Bool) : (s.setWard f b).pending = s.pending := by unfold State.setWard; (repeat' split) <;> simp
@[simp] theorem setWard_mem (f : Fld) (b : Bool) : (s.setWard f b).mem = s.mem := by unfold State.setWard; (repeat' split) <;> simp
@[simp] theorem setWard_free (f : Fld) (b : Bool) : (s.setWard f b).free = s.free := by unfold State.setWard; (repeat' split) <;> simp
@[simp] theorem setWard_wires (f : Fld) (b : Bool) : (s.setWard f b).wires = s.wires := by unfold State.setWard; (repeat' split) <;> simp
@[simp] theorem setWard_med (f : Fld) (b : Bool) : (s.setWard f b).med = s.med := by unfold State.setWard; (repeat' split) <;> simp
@[simp] theorem setWard_dfp (f : Fld) (b : Bool) : (s.setWard f b).dfp = s.dfp := by unfold State.setWard; (repeat' split) <;> simp
@[simp] theorem setWard_ubb (f : Fld) (b : Bool) : (s.setWard f b).ubb = s.ubb := by unfold State.setWard; (repeat' split) <;> simp
@[simp] theorem setWard_ward (f : Fld) (b : Bool) : (s.setWard f b).ward = s.ward := by unfold State.setWard; (repeat' split) <;> simp
@[simp] theorem setWard_enrol (f : Fld) (b : Bool) : (s.setWard f b).enrol = s.enrol := by unfold State.setWard; (repeat' split) <;> simp
@[simp] theorem setWard_time (f : Fld) (b : Bool) : (s.setWard f b).time = s.time := by unfold State.setWard; (repeat' split) <;> simp
@[simp] theorem setWard_cls (f : Fld) (b : Bool) : (s.setWard f b).cls = s.cls := by unfold State.setWard; (repeat' split) <;> simp
@[simp] theorem setWard_qm (f : Fld) (b : Bool) : (s.setWard f b).qm = s.qm := by unfold State.setWard; (repeat' split) <;> simp
@[simp] theorem setWard_cli (f : Fld) (b : Bool) : (s.setWard f b).cli = s.cli := by unfold State.setWard; (repeat' split) <;> simp
@[simp] theorem setWard_circ (f : Fld) (b : Bool) : (s.setWard f b).circ = s.circ := by unfold State.setWard; (repeat' split) <;> simp
@[simp] theorem setWard_ciph (f : Fld) (b : Bool) : (s.setWard f b).ciph = s.ciph := by unfold State.setWard; (repeat' split) <;> simp
@[simp] theorem setWard_flt (f : Fld) (b : Bool) : (s.setWard f b).flt = s.flt := by unfold State.setWard; (repeat' split) <;> simp
@[simp] theorem setWard_lsch (f : Fld) (b : Bool) : (s.setWard f b).lsch = s.lsch := by unfold State.setWard; (repeat' split) <;> simp
@[simp] theorem setWard_host (f : Fld) (b : Bool) : (s.setWard f b).host = s.host := by unfold State.setWard; (repeat' split) <;> simp
@[simp] theorem setWard_twin (f : Fld) (b : Bool) : (s.setWard f b).twin = s.twin := by unfold State.setWard; (repeat' split) <;> simp
@[simp] theorem setWard_preura (f : Fld) (b : Bool) : (s.setWard f b).preura = s.preura := by unfold State.setWard; (repeat' split) <;> simp
@[simp] theorem setWard_pwr (f : Fld) (b : Bool) : (s.setWard f b).pwr = s.pwr := by unfold State.setWard; (repeat' split) <;> simp
@[simp] theorem setWard_mon (f : Fld) (b : Bool) : (s.setWard f b).mon = s.mon := by unfold State.setWard; (repeat' split) <;> simp
@[simp] theorem setWard_tap (f : Fld) (b : Bool) : (s.setWard f b).tap = s.tap := by unfold State.setWard; (repeat' split) <;> simp

@[simp] theorem disp_pending (code n : Nat) : (s.disp code n).pending = s.pending := by unfold State.disp; (repeat' split) <;> simp
@[simp] theorem disp_mem (code n : Nat) : (s.disp code n).mem = s.mem := by unfold State.disp; (repeat' split) <;> simp
@[simp] theorem disp_free (code n : Nat) : (s.disp code n).free = s.free := by unfold State.disp; (repeat' split) <;> simp
@[simp] theorem disp_wires (code n : Nat) : (s.disp code n).wires = s.wires := by unfold State.disp; (repeat' split) <;> simp
@[simp] theorem disp_med (code n : Nat) : (s.disp code n).med = s.med := by unfold State.disp; (repeat' split) <;> simp
@[simp] theorem disp_dfp (code n : Nat) : (s.disp code n).dfp = s.dfp := by unfold State.disp; (repeat' split) <;> simp
@[simp] theorem disp_ubb (code n : Nat) : (s.disp code n).ubb = s.ubb := by unfold State.disp; (repeat' split) <;> simp
@[simp] theorem disp_ward (code n : Nat) : (s.disp code n).ward = s.ward := by unfold State.disp; (repeat' split) <;> simp
@[simp] theorem disp_enrol (code n : Nat) : (s.disp code n).enrol = s.enrol := by unfold State.disp; (repeat' split) <;> simp
@[simp] theorem disp_time (code n : Nat) : (s.disp code n).time = s.time := by unfold State.disp; (repeat' split) <;> simp
@[simp] theorem disp_cls (code n : Nat) : (s.disp code n).cls = s.cls := by unfold State.disp; (repeat' split) <;> simp
@[simp] theorem disp_qm (code n : Nat) : (s.disp code n).qm = s.qm := by unfold State.disp; (repeat' split) <;> simp
@[simp] theorem disp_cli (code n : Nat) : (s.disp code n).cli = s.cli := by unfold State.disp; (repeat' split) <;> simp
@[simp] theorem disp_circ (code n : Nat) : (s.disp code n).circ = s.circ := by unfold State.disp; (repeat' split) <;> simp
@[simp] theorem disp_ciph (code n : Nat) : (s.disp code n).ciph = s.ciph := by unfold State.disp; (repeat' split) <;> simp
@[simp] theorem disp_flt (code n : Nat) : (s.disp code n).flt = s.flt := by unfold State.disp; (repeat' split) <;> simp
@[simp] theorem disp_lsch (code n : Nat) : (s.disp code n).lsch = s.lsch := by unfold State.disp; (repeat' split) <;> simp
@[simp] theorem disp_host (code n : Nat) : (s.disp code n).host = s.host := by unfold State.disp; (repeat' split) <;> simp
@[simp] theorem disp_twin (code n : Nat) : (s.disp code n).twin = s.twin := by unfold State.disp; (repeat' split) <;> simp
@[simp] theorem disp_preura (code n : Nat) : (s.disp code n).preura = s.preura := by unfold State.disp; (repeat' split) <;> simp
@[simp] theorem disp_pwr (code n : Nat) : (s.disp code n).pwr = s.pwr := by unfold State.disp; (repeat' split) <;> simp
@[simp] theorem disp_mon (code n : Nat) : (s.disp code n).mon = s.mon := by unfold State.disp; (repeat' split) <;> simp
@[simp] theorem disp_tap (code n : Nat) : (s.disp code n).tap = s.tap := by unfold State.disp; (repeat' split) <;> simp

@[simp] theorem bdisp_pending (code : Nat) : (s.bdisp code).pending = s.pending := by unfold State.bdisp; (repeat' split) <;> simp
@[simp] theorem bdisp_mem (code : Nat) : (s.bdisp code).mem = s.mem := by unfold State.bdisp; (repeat' split) <;> simp
@[simp] theorem bdisp_free (code : Nat) : (s.bdisp code).free = s.free := by unfold State.bdisp; (repeat' split) <;> simp
@[simp] theorem bdisp_wires (code : Nat) : (s.bdisp code).wires = s.wires := by unfold State.bdisp; (repeat' split) <;> simp
@[simp] theorem bdisp_med (code : Nat) : (s.bdisp code).med = s.med := by unfold State.bdisp; (repeat' split) <;> simp
@[simp] theorem bdisp_dfp (code : Nat) : (s.bdisp code).dfp = s.dfp := by unfold State.bdisp; (repeat' split) <;> simp
@[simp] theorem bdisp_ubb (code : Nat) : (s.bdisp code).ubb = s.ubb := by unfold State.bdisp; (repeat' split) <;> simp
@[simp] theorem bdisp_ward (code : Nat) : (s.bdisp code).ward = s.ward := by unfold State.bdisp; (repeat' split) <;> simp
@[simp] theorem bdisp_enrol (code : Nat) : (s.bdisp code).enrol = s.enrol := by unfold State.bdisp; (repeat' split) <;> simp
@[simp] theorem bdisp_time (code : Nat) : (s.bdisp code).time = s.time := by unfold State.bdisp; (repeat' split) <;> simp
@[simp] theorem bdisp_cls (code : Nat) : (s.bdisp code).cls = s.cls := by unfold State.bdisp; (repeat' split) <;> simp
@[simp] theorem bdisp_qm (code : Nat) : (s.bdisp code).qm = s.qm := by unfold State.bdisp; (repeat' split) <;> simp
@[simp] theorem bdisp_cli (code : Nat) : (s.bdisp code).cli = s.cli := by unfold State.bdisp; (repeat' split) <;> simp
@[simp] theorem bdisp_circ (code : Nat) : (s.bdisp code).circ = s.circ := by unfold State.bdisp; (repeat' split) <;> simp
@[simp] theorem bdisp_ciph (code : Nat) : (s.bdisp code).ciph = s.ciph := by unfold State.bdisp; (repeat' split) <;> simp
@[simp] theorem bdisp_flt (code : Nat) : (s.bdisp code).flt = s.flt := by unfold State.bdisp; (repeat' split) <;> simp
@[simp] theorem bdisp_lsch (code : Nat) : (s.bdisp code).lsch = s.lsch := by unfold State.bdisp; (repeat' split) <;> simp
@[simp] theorem bdisp_host (code : Nat) : (s.bdisp code).host = s.host := by unfold State.bdisp; (repeat' split) <;> simp
@[simp] theorem bdisp_twin (code : Nat) : (s.bdisp code).twin = s.twin := by unfold State.bdisp; (repeat' split) <;> simp
@[simp] theorem bdisp_preura (code : Nat) : (s.bdisp code).preura = s.preura := by unfold State.bdisp; (repeat' split) <;> simp
@[simp] theorem bdisp_pwr (code : Nat) : (s.bdisp code).pwr = s.pwr := by unfold State.bdisp; (repeat' split) <;> simp
@[simp] theorem bdisp_mon (code : Nat) : (s.bdisp code).mon = s.mon := by unfold State.bdisp; (repeat' split) <;> simp
@[simp] theorem bdisp_tap (code : Nat) : (s.bdisp code).tap = s.tap := by unfold State.bdisp; (repeat' split) <;> simp

@[simp] theorem pdisp_pending (code n : Nat) : (s.pdisp code n).pending = s.pending := by unfold State.pdisp; (repeat' split) <;> simp
@[simp] theorem pdisp_mem (code n : Nat) : (s.pdisp code n).mem = s.mem := by unfold State.pdisp; (repeat' split) <;> simp
@[simp] theorem pdisp_free (code n : Nat) : (s.pdisp code n).free = s.free := by unfold State.pdisp; (repeat' split) <;> simp
@[simp] theorem pdisp_wires (code n : Nat) : (s.pdisp code n).wires = s.wires := by unfold State.pdisp; (repeat' split) <;> simp
@[simp] theorem pdisp_med (code n : Nat) : (s.pdisp code n).med = s.med := by unfold State.pdisp; (repeat' split) <;> simp
@[simp] theorem pdisp_dfp (code n : Nat) : (s.pdisp code n).dfp = s.dfp := by unfold State.pdisp; (repeat' split) <;> simp
@[simp] theorem pdisp_ubb (code n : Nat) : (s.pdisp code n).ubb = s.ubb := by unfold State.pdisp; (repeat' split) <;> simp
@[simp] theorem pdisp_ward (code n : Nat) : (s.pdisp code n).ward = s.ward := by unfold State.pdisp; (repeat' split) <;> simp
@[simp] theorem pdisp_enrol (code n : Nat) : (s.pdisp code n).enrol = s.enrol := by unfold State.pdisp; (repeat' split) <;> simp
@[simp] theorem pdisp_time (code n : Nat) : (s.pdisp code n).time = s.time := by unfold State.pdisp; (repeat' split) <;> simp
@[simp] theorem pdisp_cls (code n : Nat) : (s.pdisp code n).cls = s.cls := by unfold State.pdisp; (repeat' split) <;> simp
@[simp] theorem pdisp_qm (code n : Nat) : (s.pdisp code n).qm = s.qm := by unfold State.pdisp; (repeat' split) <;> simp
@[simp] theorem pdisp_cli (code n : Nat) : (s.pdisp code n).cli = s.cli := by unfold State.pdisp; (repeat' split) <;> simp
@[simp] theorem pdisp_circ (code n : Nat) : (s.pdisp code n).circ = s.circ := by unfold State.pdisp; (repeat' split) <;> simp
@[simp] theorem pdisp_ciph (code n : Nat) : (s.pdisp code n).ciph = s.ciph := by unfold State.pdisp; (repeat' split) <;> simp
@[simp] theorem pdisp_flt (code n : Nat) : (s.pdisp code n).flt = s.flt := by unfold State.pdisp; (repeat' split) <;> simp
@[simp] theorem pdisp_lsch (code n : Nat) : (s.pdisp code n).lsch = s.lsch := by unfold State.pdisp; (repeat' split) <;> simp
@[simp] theorem pdisp_host (code n : Nat) : (s.pdisp code n).host = s.host := by unfold State.pdisp; (repeat' split) <;> simp
@[simp] theorem pdisp_twin (code n : Nat) : (s.pdisp code n).twin = s.twin := by unfold State.pdisp; (repeat' split) <;> simp
@[simp] theorem pdisp_preura (code n : Nat) : (s.pdisp code n).preura = s.preura := by unfold State.pdisp; (repeat' split) <;> simp
@[simp] theorem pdisp_pwr (code n : Nat) : (s.pdisp code n).pwr = s.pwr := by unfold State.pdisp; (repeat' split) <;> simp
@[simp] theorem pdisp_mon (code n : Nat) : (s.pdisp code n).mon = s.mon := by unfold State.pdisp; (repeat' split) <;> simp
@[simp] theorem pdisp_tap (code n : Nat) : (s.pdisp code n).tap = s.tap := by unfold State.pdisp; (repeat' split) <;> simp

@[simp] theorem bdefect_pending (p code : Nat) : (s.bdefect p code).pending = s.pending := by unfold State.bdefect; (repeat' split) <;> simp
@[simp] theorem bdefect_mem (p code : Nat) : (s.bdefect p code).mem = s.mem := by unfold State.bdefect; (repeat' split) <;> simp
@[simp] theorem bdefect_free (p code : Nat) : (s.bdefect p code).free = s.free := by unfold State.bdefect; (repeat' split) <;> simp
@[simp] theorem bdefect_wires (p code : Nat) : (s.bdefect p code).wires = s.wires := by unfold State.bdefect; (repeat' split) <;> simp
@[simp] theorem bdefect_med (p code : Nat) : (s.bdefect p code).med = s.med := by unfold State.bdefect; (repeat' split) <;> simp
@[simp] theorem bdefect_dfp (p code : Nat) : (s.bdefect p code).dfp = s.dfp := by unfold State.bdefect; (repeat' split) <;> simp
@[simp] theorem bdefect_ubb (p code : Nat) : (s.bdefect p code).ubb = s.ubb := by unfold State.bdefect; (repeat' split) <;> simp
@[simp] theorem bdefect_ward (p code : Nat) : (s.bdefect p code).ward = s.ward := by unfold State.bdefect; (repeat' split) <;> simp
@[simp] theorem bdefect_enrol (p code : Nat) : (s.bdefect p code).enrol = s.enrol := by unfold State.bdefect; (repeat' split) <;> simp
@[simp] theorem bdefect_time (p code : Nat) : (s.bdefect p code).time = s.time := by unfold State.bdefect; (repeat' split) <;> simp
@[simp] theorem bdefect_cls (p code : Nat) : (s.bdefect p code).cls = s.cls := by unfold State.bdefect; (repeat' split) <;> simp
@[simp] theorem bdefect_qm (p code : Nat) : (s.bdefect p code).qm = s.qm := by unfold State.bdefect; (repeat' split) <;> simp
@[simp] theorem bdefect_cli (p code : Nat) : (s.bdefect p code).cli = s.cli := by unfold State.bdefect; (repeat' split) <;> simp
@[simp] theorem bdefect_circ (p code : Nat) : (s.bdefect p code).circ = s.circ := by unfold State.bdefect; (repeat' split) <;> simp
@[simp] theorem bdefect_ciph (p code : Nat) : (s.bdefect p code).ciph = s.ciph := by unfold State.bdefect; (repeat' split) <;> simp
@[simp] theorem bdefect_flt (p code : Nat) : (s.bdefect p code).flt = s.flt := by unfold State.bdefect; (repeat' split) <;> simp
@[simp] theorem bdefect_lsch (p code : Nat) : (s.bdefect p code).lsch = s.lsch := by unfold State.bdefect; (repeat' split) <;> simp
@[simp] theorem bdefect_host (p code : Nat) : (s.bdefect p code).host = s.host := by unfold State.bdefect; (repeat' split) <;> simp
@[simp] theorem bdefect_twin (p code : Nat) : (s.bdefect p code).twin = s.twin := by unfold State.bdefect; (repeat' split) <;> simp
@[simp] theorem bdefect_preura (p code : Nat) : (s.bdefect p code).preura = s.preura := by unfold State.bdefect; (repeat' split) <;> simp
@[simp] theorem bdefect_pwr (p code : Nat) : (s.bdefect p code).pwr = s.pwr := by unfold State.bdefect; (repeat' split) <;> simp
@[simp] theorem bdefect_mon (p code : Nat) : (s.bdefect p code).mon = s.mon := by unfold State.bdefect; (repeat' split) <;> simp
@[simp] theorem bdefect_tap (p code : Nat) : (s.bdefect p code).tap = s.tap := by unfold State.bdefect; (repeat' split) <;> simp

@[simp] theorem circCount_pending (c n : Nat) : (s.circCount c n).pending = s.pending := by unfold State.circCount; (repeat' split) <;> simp
@[simp] theorem circCount_mem (c n : Nat) : (s.circCount c n).mem = s.mem := by unfold State.circCount; (repeat' split) <;> simp
@[simp] theorem circCount_free (c n : Nat) : (s.circCount c n).free = s.free := by unfold State.circCount; (repeat' split) <;> simp
@[simp] theorem circCount_wires (c n : Nat) : (s.circCount c n).wires = s.wires := by unfold State.circCount; (repeat' split) <;> simp
@[simp] theorem circCount_med (c n : Nat) : (s.circCount c n).med = s.med := by unfold State.circCount; (repeat' split) <;> simp
@[simp] theorem circCount_dfp (c n : Nat) : (s.circCount c n).dfp = s.dfp := by unfold State.circCount; (repeat' split) <;> simp
@[simp] theorem circCount_ubb (c n : Nat) : (s.circCount c n).ubb = s.ubb := by unfold State.circCount; (repeat' split) <;> simp
@[simp] theorem circCount_ward (c n : Nat) : (s.circCount c n).ward = s.ward := by unfold State.circCount; (repeat' split) <;> simp
@[simp] theorem circCount_enrol (c n : Nat) : (s.circCount c n).enrol = s.enrol := by unfold State.circCount; (repeat' split) <;> simp
@[simp] theorem circCount_time (c n : Nat) : (s.circCount c n).time = s.time := by unfold State.circCount; (repeat' split) <;> simp
@[simp] theorem circCount_cls (c n : Nat) : (s.circCount c n).cls = s.cls := by unfold State.circCount; (repeat' split) <;> simp
@[simp] theorem circCount_qm (c n : Nat) : (s.circCount c n).qm = s.qm := by unfold State.circCount; (repeat' split) <;> simp
@[simp] theorem circCount_cli (c n : Nat) : (s.circCount c n).cli = s.cli := by unfold State.circCount; (repeat' split) <;> simp
@[simp] theorem circCount_circ (c n : Nat) : (s.circCount c n).circ = s.circ := by unfold State.circCount; (repeat' split) <;> simp
@[simp] theorem circCount_ciph (c n : Nat) : (s.circCount c n).ciph = s.ciph := by unfold State.circCount; (repeat' split) <;> simp
@[simp] theorem circCount_flt (c n : Nat) : (s.circCount c n).flt = s.flt := by unfold State.circCount; (repeat' split) <;> simp
@[simp] theorem circCount_lsch (c n : Nat) : (s.circCount c n).lsch = s.lsch := by unfold State.circCount; (repeat' split) <;> simp
@[simp] theorem circCount_host (c n : Nat) : (s.circCount c n).host = s.host := by unfold State.circCount; (repeat' split) <;> simp
@[simp] theorem circCount_twin (c n : Nat) : (s.circCount c n).twin = s.twin := by unfold State.circCount; (repeat' split) <;> simp
@[simp] theorem circCount_preura (c n : Nat) : (s.circCount c n).preura = s.preura := by unfold State.circCount; (repeat' split) <;> simp
@[simp] theorem circCount_pwr (c n : Nat) : (s.circCount c n).pwr = s.pwr := by unfold State.circCount; (repeat' split) <;> simp
@[simp] theorem circCount_mon (c n : Nat) : (s.circCount c n).mon = s.mon := by unfold State.circCount; (repeat' split) <;> simp
@[simp] theorem circCount_tap (c n : Nat) : (s.circCount c n).tap = s.tap := by unfold State.circCount; (repeat' split) <;> simp

@[simp] theorem report_pending (l : Lost) : (s.report l).pending = s.pending := by unfold State.report; (repeat' split) <;> simp
@[simp] theorem report_mem (l : Lost) : (s.report l).mem = s.mem := by unfold State.report; (repeat' split) <;> simp
@[simp] theorem report_free (l : Lost) : (s.report l).free = s.free := by unfold State.report; (repeat' split) <;> simp
@[simp] theorem report_wires (l : Lost) : (s.report l).wires = s.wires := by unfold State.report; (repeat' split) <;> simp
@[simp] theorem report_med (l : Lost) : (s.report l).med = s.med := by unfold State.report; (repeat' split) <;> simp
@[simp] theorem report_dfp (l : Lost) : (s.report l).dfp = s.dfp := by unfold State.report; (repeat' split) <;> simp
@[simp] theorem report_ubb (l : Lost) : (s.report l).ubb = s.ubb := by unfold State.report; (repeat' split) <;> simp
@[simp] theorem report_ward (l : Lost) : (s.report l).ward = s.ward := by unfold State.report; (repeat' split) <;> simp
@[simp] theorem report_enrol (l : Lost) : (s.report l).enrol = s.enrol := by unfold State.report; (repeat' split) <;> simp
@[simp] theorem report_time (l : Lost) : (s.report l).time = s.time := by unfold State.report; (repeat' split) <;> simp
@[simp] theorem report_cls (l : Lost) : (s.report l).cls = s.cls := by unfold State.report; (repeat' split) <;> simp
@[simp] theorem report_qm (l : Lost) : (s.report l).qm = s.qm := by unfold State.report; (repeat' split) <;> simp
@[simp] theorem report_cli (l : Lost) : (s.report l).cli = s.cli := by unfold State.report; (repeat' split) <;> simp
@[simp] theorem report_circ (l : Lost) : (s.report l).circ = s.circ := by unfold State.report; (repeat' split) <;> simp
@[simp] theorem report_ciph (l : Lost) : (s.report l).ciph = s.ciph := by unfold State.report; (repeat' split) <;> simp
@[simp] theorem report_lsch (l : Lost) : (s.report l).lsch = s.lsch := by unfold State.report; (repeat' split) <;> simp
@[simp] theorem report_host (l : Lost) : (s.report l).host = s.host := by unfold State.report; (repeat' split) <;> simp
@[simp] theorem report_twin (l : Lost) : (s.report l).twin = s.twin := by unfold State.report; (repeat' split) <;> simp
@[simp] theorem report_preura (l : Lost) : (s.report l).preura = s.preura := by unfold State.report; (repeat' split) <;> simp
@[simp] theorem report_pwr (l : Lost) : (s.report l).pwr = s.pwr := by unfold State.report; (repeat' split) <;> simp
@[simp] theorem report_mon (l : Lost) : (s.report l).mon = s.mon := by unfold State.report; (repeat' split) <;> simp
@[simp] theorem report_tap (l : Lost) : (s.report l).tap = s.tap := by unfold State.report; (repeat' split) <;> simp

@[simp] theorem takeInbox_pending (m : Msg) : (s.takeInbox m).pending = s.pending := of_eq_true (eq_self _)
@[simp] theorem takeInbox_regs (m : Msg) : (s.takeInbox m).regs = s.regs := of_eq_true (eq_self _)
@[simp] theorem takeInbox_mem (m : Msg) : (s.takeInbox m).mem = s.mem := of_eq_true (eq_self _)
@[simp] theorem takeInbox_free (m : Msg) : (s.takeInbox m).free = s.free := of_eq_true (eq_self _)
@[simp] theorem takeInbox_edges (m : Msg) : (s.takeInbox m).edges = s.edges := of_eq_true (eq_self _)
@[simp] theorem takeInbox_wires (m : Msg) : (s.takeInbox m).wires = s.wires := of_eq_true (eq_self _)
@[simp] theorem takeInbox_med (m : Msg) : (s.takeInbox m).med = s.med := of_eq_true (eq_self _)
@[simp] theorem takeInbox_ubb (m : Msg) : (s.takeInbox m).ubb = s.ubb := of_eq_true (eq_self _)
@[simp] theorem takeInbox_ward (m : Msg) : (s.takeInbox m).ward = s.ward := of_eq_true (eq_self _)
@[simp] theorem takeInbox_enrol (m : Msg) : (s.takeInbox m).enrol = s.enrol := of_eq_true (eq_self _)
@[simp] theorem takeInbox_time (m : Msg) : (s.takeInbox m).time = s.time := of_eq_true (eq_self _)
@[simp] theorem takeInbox_cls (m : Msg) : (s.takeInbox m).cls = s.cls := of_eq_true (eq_self _)
@[simp] theorem takeInbox_qm (m : Msg) : (s.takeInbox m).qm = s.qm := of_eq_true (eq_self _)
@[simp] theorem takeInbox_cli (m : Msg) : (s.takeInbox m).cli = s.cli := of_eq_true (eq_self _)
@[simp] theorem takeInbox_circ (m : Msg) : (s.takeInbox m).circ = s.circ := of_eq_true (eq_self _)
@[simp] theorem takeInbox_ciph (m : Msg) : (s.takeInbox m).ciph = s.ciph := of_eq_true (eq_self _)
@[simp] theorem takeInbox_flt (m : Msg) : (s.takeInbox m).flt = s.flt := of_eq_true (eq_self _)
@[simp] theorem takeInbox_lsch (m : Msg) : (s.takeInbox m).lsch = s.lsch := of_eq_true (eq_self _)
@[simp] theorem takeInbox_host (m : Msg) : (s.takeInbox m).host = s.host := of_eq_true (eq_self _)
@[simp] theorem takeInbox_twin (m : Msg) : (s.takeInbox m).twin = s.twin := of_eq_true (eq_self _)
@[simp] theorem takeInbox_preura (m : Msg) : (s.takeInbox m).preura = s.preura := of_eq_true (eq_self _)
@[simp] theorem takeInbox_pwr (m : Msg) : (s.takeInbox m).pwr = s.pwr := of_eq_true (eq_self _)
@[simp] theorem takeInbox_mon (m : Msg) : (s.takeInbox m).mon = s.mon := of_eq_true (eq_self _)
@[simp] theorem takeInbox_tap (m : Msg) : (s.takeInbox m).tap = s.tap := of_eq_true (eq_self _)

@[simp] theorem reg_setLane (p : Nat) (l : MedLane) (ad : Nat) : (s.setLane p l).reg ad = s.reg ad := of_eq_true (eq_self _)
@[simp] theorem fld_setLane (p : Nat) (l : MedLane) (ad : Nat) (fl : Fld) : (s.setLane p l).fld ad fl = s.fld ad fl := of_eq_true (eq_self _)
@[simp] theorem bit_setLane (p : Nat) (l : MedLane) (ad : Nat) (fl : Fld) : (s.setLane p l).bit ad fl = s.bit ad fl := of_eq_true (eq_self _)
@[simp] theorem reg_setDplane (p : Nat) (l : DfpPlane) (ad : Nat) : (s.setDplane p l).reg ad = s.reg ad := of_eq_true (eq_self _)
@[simp] theorem fld_setDplane (p : Nat) (l : DfpPlane) (ad : Nat) (fl : Fld) : (s.setDplane p l).fld ad fl = s.fld ad fl := of_eq_true (eq_self _)
@[simp] theorem bit_setDplane (p : Nat) (l : DfpPlane) (ad : Nat) (fl : Fld) : (s.setDplane p l).bit ad fl = s.bit ad fl := of_eq_true (eq_self _)
@[simp] theorem reg_setUplane (p : Nat) (l : UbbPlane) (ad : Nat) : (s.setUplane p l).reg ad = s.reg ad := of_eq_true (eq_self _)
@[simp] theorem fld_setUplane (p : Nat) (l : UbbPlane) (ad : Nat) (fl : Fld) : (s.setUplane p l).fld ad fl = s.fld ad fl := of_eq_true (eq_self _)
@[simp] theorem bit_setUplane (p : Nat) (l : UbbPlane) (ad : Nat) (fl : Fld) : (s.setUplane p l).bit ad fl = s.bit ad fl := of_eq_true (eq_self _)
@[simp] theorem reg_setEplane (p : Nat) (l : EnrolPlane) (ad : Nat) : (s.setEplane p l).reg ad = s.reg ad := of_eq_true (eq_self _)
@[simp] theorem fld_setEplane (p : Nat) (l : EnrolPlane) (ad : Nat) (fl : Fld) : (s.setEplane p l).fld ad fl = s.fld ad fl := of_eq_true (eq_self _)
@[simp] theorem bit_setEplane (p : Nat) (l : EnrolPlane) (ad : Nat) (fl : Fld) : (s.setEplane p l).bit ad fl = s.bit ad fl := of_eq_true (eq_self _)
@[simp] theorem reg_setQueue (q : Nat) (v : Queue) (ad : Nat) : (s.setQueue q v).reg ad = s.reg ad := of_eq_true (eq_self _)
@[simp] theorem fld_setQueue (q : Nat) (v : Queue) (ad : Nat) (fl : Fld) : (s.setQueue q v).fld ad fl = s.fld ad fl := of_eq_true (eq_self _)
@[simp] theorem bit_setQueue (q : Nat) (v : Queue) (ad : Nat) (fl : Fld) : (s.setQueue q v).bit ad fl = s.bit ad fl := of_eq_true (eq_self _)
@[simp] theorem reg_setNode (n : Nat) (v : Node) (ad : Nat) : (s.setNode n v).reg ad = s.reg ad := of_eq_true (eq_self _)
@[simp] theorem fld_setNode (n : Nat) (v : Node) (ad : Nat) (fl : Fld) : (s.setNode n v).fld ad fl = s.fld ad fl := of_eq_true (eq_self _)
@[simp] theorem bit_setNode (n : Nat) (v : Node) (ad : Nat) (fl : Fld) : (s.setNode n v).bit ad fl = s.bit ad fl := of_eq_true (eq_self _)
@[simp] theorem reg_setPort (k : Nat) (v : CliPort) (ad : Nat) : (s.setPort k v).reg ad = s.reg ad := of_eq_true (eq_self _)
@[simp] theorem fld_setPort (k : Nat) (v : CliPort) (ad : Nat) (fl : Fld) : (s.setPort k v).fld ad fl = s.fld ad fl := of_eq_true (eq_self _)
@[simp] theorem bit_setPort (k : Nat) (v : CliPort) (ad : Nat) (fl : Fld) : (s.setPort k v).bit ad fl = s.bit ad fl := of_eq_true (eq_self _)
@[simp] theorem reg_setCircuit (c : Nat) (v : Circuit) (ad : Nat) : (s.setCircuit c v).reg ad = s.reg ad := of_eq_true (eq_self _)
@[simp] theorem fld_setCircuit (c : Nat) (v : Circuit) (ad : Nat) (fl : Fld) : (s.setCircuit c v).fld ad fl = s.fld ad fl := of_eq_true (eq_self _)
@[simp] theorem bit_setCircuit (c : Nat) (v : Circuit) (ad : Nat) (fl : Fld) : (s.setCircuit c v).bit ad fl = s.bit ad fl := of_eq_true (eq_self _)
@[simp] theorem reg_setSlot (n : Nat) (v : KeySlot) (ad : Nat) : (s.setSlot n v).reg ad = s.reg ad := of_eq_true (eq_self _)
@[simp] theorem fld_setSlot (n : Nat) (v : KeySlot) (ad : Nat) (fl : Fld) : (s.setSlot n v).fld ad fl = s.fld ad fl := of_eq_true (eq_self _)
@[simp] theorem bit_setSlot (n : Nat) (v : KeySlot) (ad : Nat) (fl : Fld) : (s.setSlot n v).bit ad fl = s.bit ad fl := of_eq_true (eq_self _)
@[simp] theorem reg_setFlow (f : Nat) (v : BitVec 40) (ad : Nat) : (s.setFlow f v).reg ad = s.reg ad := of_eq_true (eq_self _)
@[simp] theorem fld_setFlow (f : Nat) (v : BitVec 40) (ad : Nat) (fl : Fld) : (s.setFlow f v).fld ad fl = s.fld ad fl := of_eq_true (eq_self _)
@[simp] theorem bit_setFlow (f : Nat) (v : BitVec 40) (ad : Nat) (fl : Fld) : (s.setFlow f v).bit ad fl = s.bit ad fl := of_eq_true (eq_self _)
@[simp] theorem reg_hostOut (o : HostOut) (ad : Nat) : (s.hostOut o).reg ad = s.reg ad := of_eq_true (eq_self _)
@[simp] theorem fld_hostOut (o : HostOut) (ad : Nat) (fl : Fld) : (s.hostOut o).fld ad fl = s.fld ad fl := of_eq_true (eq_self _)
@[simp] theorem bit_hostOut (o : HostOut) (ad : Nat) (fl : Fld) : (s.hostOut o).bit ad fl = s.bit ad fl := of_eq_true (eq_self _)
@[simp] theorem reg_setCore (c : Nat) (v : Core) (ad : Nat) : (s.setCore c v).reg ad = s.reg ad := of_eq_true (eq_self _)
@[simp] theorem fld_setCore (c : Nat) (v : Core) (ad : Nat) (fl : Fld) : (s.setCore c v).fld ad fl = s.fld ad fl := of_eq_true (eq_self _)
@[simp] theorem bit_setCore (c : Nat) (v : Core) (ad : Nat) (fl : Fld) : (s.setCore c v).bit ad fl = s.bit ad fl := of_eq_true (eq_self _)
@[simp] theorem reg_setCtx (c x : Nat) (v : Ctx) (ad : Nat) : (s.setCtx c x v).reg ad = s.reg ad := of_eq_true (eq_self _)
@[simp] theorem fld_setCtx (c x : Nat) (v : Ctx) (ad : Nat) (fl : Fld) : (s.setCtx c x v).fld ad fl = s.fld ad fl := of_eq_true (eq_self _)
@[simp] theorem bit_setCtx (c x : Nat) (v : Ctx) (ad : Nat) (fl : Fld) : (s.setCtx c x v).bit ad fl = s.bit ad fl := of_eq_true (eq_self _)
@[simp] theorem reg_setChan (c : Nat) (v : Chan) (ad : Nat) : (s.setChan c v).reg ad = s.reg ad := of_eq_true (eq_self _)
@[simp] theorem fld_setChan (c : Nat) (v : Chan) (ad : Nat) (fl : Fld) : (s.setChan c v).fld ad fl = s.fld ad fl := of_eq_true (eq_self _)
@[simp] theorem bit_setChan (c : Nat) (v : Chan) (ad : Nat) (fl : Fld) : (s.setChan c v).bit ad fl = s.bit ad fl := of_eq_true (eq_self _)
@[simp] theorem reg_setRecov (g : Nat) (r : Recov) (ad : Nat) : (s.setRecov g r).reg ad = s.reg ad := of_eq_true (eq_self _)
@[simp] theorem fld_setRecov (g : Nat) (r : Recov) (ad : Nat) (fl : Fld) : (s.setRecov g r).fld ad fl = s.fld ad fl := of_eq_true (eq_self _)
@[simp] theorem bit_setRecov (g : Nat) (r : Recov) (ad : Nat) (fl : Fld) : (s.setRecov g r).bit ad fl = s.bit ad fl := of_eq_true (eq_self _)
@[simp] theorem reg_setGnode (i : Nat) (v : GNode) (ad : Nat) : (s.setGnode i v).reg ad = s.reg ad := of_eq_true (eq_self _)
@[simp] theorem fld_setGnode (i : Nat) (v : GNode) (ad : Nat) (fl : Fld) : (s.setGnode i v).fld ad fl = s.fld ad fl := of_eq_true (eq_self _)
@[simp] theorem bit_setGnode (i : Nat) (v : GNode) (ad : Nat) (fl : Fld) : (s.setGnode i v).bit ad fl = s.bit ad fl := of_eq_true (eq_self _)
@[simp] theorem reg_setRsq (f : Nat) (r : RsqFlow) (ad : Nat) : (s.setRsq f r).reg ad = s.reg ad := of_eq_true (eq_self _)
@[simp] theorem fld_setRsq (f : Nat) (r : RsqFlow) (ad : Nat) (fl : Fld) : (s.setRsq f r).fld ad fl = s.fld ad fl := of_eq_true (eq_self _)
@[simp] theorem bit_setRsq (f : Nat) (r : RsqFlow) (ad : Nat) (fl : Fld) : (s.setRsq f r).bit ad fl = s.bit ad fl := of_eq_true (eq_self _)
@[simp] theorem reg_setReasm (f : Nat) (r : Reasm) (ad : Nat) : (s.setReasm f r).reg ad = s.reg ad := of_eq_true (eq_self _)
@[simp] theorem fld_setReasm (f : Nat) (r : Reasm) (ad : Nat) (fl : Fld) : (s.setReasm f r).fld ad fl = s.fld ad fl := of_eq_true (eq_self _)
@[simp] theorem bit_setReasm (f : Nat) (r : Reasm) (ad : Nat) (fl : Fld) : (s.setReasm f r).bit ad fl = s.bit ad fl := of_eq_true (eq_self _)
@[simp] theorem reg_setPulse (i : Nat) (v : Pulse) (ad : Nat) : (s.setPulse i v).reg ad = s.reg ad := of_eq_true (eq_self _)
@[simp] theorem fld_setPulse (i : Nat) (v : Pulse) (ad : Nat) (fl : Fld) : (s.setPulse i v).fld ad fl = s.fld ad fl := of_eq_true (eq_self _)
@[simp] theorem bit_setPulse (i : Nat) (v : Pulse) (ad : Nat) (fl : Fld) : (s.setPulse i v).bit ad fl = s.bit ad fl := of_eq_true (eq_self _)
@[simp] theorem reg_setCapture (j : Nat) (l : List Stamp) (ad : Nat) : (s.setCapture j l).reg ad = s.reg ad := of_eq_true (eq_self _)
@[simp] theorem fld_setCapture (j : Nat) (l : List Stamp) (ad : Nat) (fl : Fld) : (s.setCapture j l).fld ad fl = s.fld ad fl := of_eq_true (eq_self _)
@[simp] theorem bit_setCapture (j : Nat) (l : List Stamp) (ad : Nat) (fl : Fld) : (s.setCapture j l).bit ad fl = s.bit ad fl := of_eq_true (eq_self _)
@[simp] theorem reg_setDieUsed (d : Dir) (n : Nat) (ad : Nat) : (s.setDieUsed d n).reg ad = s.reg ad := of_eq_true (eq_self _)
@[simp] theorem fld_setDieUsed (d : Dir) (n : Nat) (ad : Nat) (fl : Fld) : (s.setDieUsed d n).fld ad fl = s.fld ad fl := of_eq_true (eq_self _)
@[simp] theorem bit_setDieUsed (d : Dir) (n : Nat) (ad : Nat) (fl : Fld) : (s.setDieUsed d n).bit ad fl = s.bit ad fl := of_eq_true (eq_self _)
@[simp] theorem reg_setSlowUsed (d : Dir) (n : Nat) (ad : Nat) : (s.setSlowUsed d n).reg ad = s.reg ad := of_eq_true (eq_self _)
@[simp] theorem fld_setSlowUsed (d : Dir) (n : Nat) (ad : Nat) (fl : Fld) : (s.setSlowUsed d n).fld ad fl = s.fld ad fl := of_eq_true (eq_self _)
@[simp] theorem bit_setSlowUsed (d : Dir) (n : Nat) (ad : Nat) (fl : Fld) : (s.setSlowUsed d n).bit ad fl = s.bit ad fl := of_eq_true (eq_self _)
@[simp] theorem reg_setSdh (k : Nat) (v : SdhLane) (ad : Nat) : (s.setSdh k v).reg ad = s.reg ad := of_eq_true (eq_self _)
@[simp] theorem fld_setSdh (k : Nat) (v : SdhLane) (ad : Nat) (fl : Fld) : (s.setSdh k v).fld ad fl = s.fld ad fl := of_eq_true (eq_self _)
@[simp] theorem bit_setSdh (k : Nat) (v : SdhLane) (ad : Nat) (fl : Fld) : (s.setSdh k v).bit ad fl = s.bit ad fl := of_eq_true (eq_self _)
@[simp] theorem reg_takeInbox (m : Msg) (ad : Nat) : (s.takeInbox m).reg ad = s.reg ad := of_eq_true (eq_self _)
@[simp] theorem fld_takeInbox (m : Msg) (ad : Nat) (fl : Fld) : (s.takeInbox m).fld ad fl = s.fld ad fl := of_eq_true (eq_self _)
@[simp] theorem bit_takeInbox (m : Msg) (ad : Nat) (fl : Fld) : (s.takeInbox m).bit ad fl = s.bit ad fl := of_eq_true (eq_self _)

end Sys2Proof.Machine
end

