-- ==== Sys2Proof/Tests/Slice0.lean ====
section
/-!
SUPPORT. Tests.  First helpers that build small states; then one witness for each obligation that has hypotheses, clause by clause:
concrete operands and a state that meet the hypotheses of that clause together; then an ill-formed command for each check of
WellFormed.lean, and worked values that come from the manual's examples or from published standards.
-/

section
set_option linter.unusedVariables false
set_option maxRecDepth 100000
set_option Elab.async false

namespace Sys2Proof.Machine
/-- PORST_N released. -/
def State.porst (s : State) : State := { s with pwr := { s.pwr with porst := false } }
/-- A start-up in progress. -/
def State.starting (s : State) : State := { s with pwr := { s.pwr with starting := true } }
/-- A client port in mode 1, enabled. -/
def State.runPort (s : State) (k : Nat) : State := (s.setFld (R.cliCfg k) F.cliCfg_mode 1).setBit (R.cliCfg k) F.cliCfg_portEn true
/-- A client port whose link is up. -/
def State.upLink (s : State) (k : Nat) : State := s.setBit (R.cliStatus k) F.cliStatus_linkUp true
/-- A running Ethernet port with its link up. -/
def State.runFc (s : State) (k : Nat) : State := ((s.runPort k).upLink k).setFld (R.cliCfg k) F.cliCfg_fcMode 1
/-- A lane in SDH mode, enabled. -/
def State.runSdh (s : State) (k : Nat) : State := (s.setFld (R.cliCfg k) F.cliCfg_mode 11).setBit (R.cliCfg k) F.cliCfg_portEn true
/-- A pipe in service mode. -/
def State.svc (s : State) (d : Dir) : State := match d with
  | .up => s.setBit R.clsCfg F.clsCfg_modeUp true
  | .dn => s.setBit R.clsCfg F.clsCfg_modeDn true
/-- A clause in a context, with one instruction at its pc. -/
def State.putInstr (s : State) (c x : Nat) (cl : Clause) (i : LimInstr) : State :=
  let s := s.setCtx c x { s.ctx c x with clause := some cl }
  s.setCore c { s.core c with code := [(cl.bank * 8192 + (s.ctx c x).pc.toNat, encodeLim i)] }
/-- A clause where it says it is placed. -/
def State.placeClause (s : State) (cl : Clause) : State := s.setCtx cl.core cl.place { s.ctx cl.core cl.place with clause := some cl }
/-- A plane aligned. -/
def State.alignAt (s : State) (p : Nat) : State := s.setFld (R.dfpPlaneStatus p) F.dfpPlaneStatus_align 2
/-- An entry of the ownership table. -/
def State.setOwnW (s : State) (f : Nat) (v : BitVec 32) : State := { s with dfp := { s.dfp with own := Tbl.set (fun _ => 0) s.dfp.own f v } }
/-- The command ring with a block to fetch. -/
def State.cmdFetching (s : State) : State :=
  (((s.setBit R.gateCmdCtl F.gateCmdCtl_en true).setFld R.gateStatus F.gateStatus_cmdState 1).setFld R.gateCmdIdx F.gateCmdIdx_tail 1).setFld (R.pwrDom 1) F.pwrDom_state 2
/-- A flash slot with a good image header. -/
def State.goodSlot (s : State) (k gen : Nat) : State :=
  let s := s.setFlash k 0 0x4B5A505200000001
  let s := s.setFlash k 1 (gen * 2 ^ 32)
  let s := s.setFlash k 2 (imageCrc (fun w => s.flashWord k (512 + w)) 0 * 2 ^ 32 + 100 * 2 ^ 16)
  let s := s.setFlash k 3 0
  s.setFlash k 4 (s.headerCrc k * 2 ^ 32 + 0x00FF0000)
end Sys2Proof.Machine
namespace Sys2Proof.Tests
open Sys2Proof Sys2Proof.Machine
/-- A clause of node 9 under uid 7. -/
def dClause : Clause := ⟨7, false, 9, 3, 0, 0, 0, 0, 0, 0, false, [], 1, 1⟩
/-- A message of plane 1. -/
def dMsg : Msg := ⟨1, List.replicate 24 0, 1, 3, ⟨0, 0, 0, 0⟩, false⟩
/-- A packet of three bytes. -/
def dPkt : Pkt := { bytes := [1, 2, 3], dir := .up, chan := 1, stamp := ⟨0, 0, 0, 0⟩ }
/-- A taken packet. -/
def dHeld : Held := { kind := 0, pkt := dPkt }
/-- A grant. -/
def dGrant : Grant := ⟨1, 5, 100, 50, 0, 0, false, false, false, 0⟩
/-- A burst of plane 1. -/
def dLine : BurstLine := ⟨1, 100, 0, 64, 64, false, false, 0, 0⟩
/-- A burst build of that grant. -/
def dBuild : Build := ⟨[dGrant], [dLine], 1, [], 0, false, false, [], false, false, 0, 0, false⟩
/-- A cipher request of the downstream path. -/
def dReq : CiphReq := { num := 1, who := .down 1, urgent := true, op := 0, slot := 1, iv := 0, aad := [], text := [], tag := 0 }
/-- A log entry. -/
def dLog : LogEntry := ⟨1, 2, ⟨0, 0, 0, 0⟩, []⟩
/-- A transfer without data. -/
def dXfer : Transfer := ⟨[], [], [], 0, 0, 0, false, false, false, false⟩
/-- A good SDH frame without content. -/
def dSdh : SdhFrame := ⟨[]⟩
/-- An STM-16 frame whose AU-4 0 has the pointer bytes h. -/
def dFrame (h : Nat) : SdhFrame := ⟨[framing 16, [], [], (List.range 49).map (fun c =>
  sdhByte ⟨[]⟩ 16 3 c ^^^ (if c = 0 then BitVec.ofNat 8 (h / 256) else if c = 48 then BitVec.ofNat 8 h else 0))]⟩
/-- A command block of one instruction. -/
def dBlock : CmdBlock := { slot := 1, order := 0, seq := 0, subject := 0, prio := 0, immediate := true, sec := 0, lenM1 := 0, frame := 0, cell := 0, args := [], code := [0] }
/-- A posted write of clause 7. -/
def dPosted : Posted := ⟨0, 0, 7, 0, 0⟩
/-- A parcel being opened. -/
def dOpening : Opening := ⟨1, 0, 0, 0, ⟨0, 0, 0, 0⟩, 1, false⟩
/-- A parcel. -/
def dParcel : Parcel := ⟨1, 0, 0, 0, ⟨0, 0, 0, 0⟩, [], 0, 0⟩
/-- An upstream message. -/
def dUp : UpMsg := ⟨0, [], false, false, 0, 0⟩
theorem prod3 {α β γ : Type} (x : α × β × γ) : x = (x.1, x.2.1, x.2.2) := rfl
theorem takes {s : State} {c n m : Nat} (h : (s.linkTake c n).map (·.1) = some m) : ∃ u, s.linkTake c n = some (m, u) := by
  cases e : s.linkTake c n with
  | none => rw [e] at h; cases h
  | some x => rw [e] at h; obtain ⟨y, u⟩ := x; cases h; exact ⟨u, rfl⟩

/-! ## Witnesses -/

/-- Operands and states that meet the hypotheses of `Obligations.EmptyQueueCountsOneSymbol`, in the order of its clauses. -/
theorem witness_EmptyQueueCountsOneSymbol :
    (let s : State := State.reset; s.pending = [] ∧ (s.lpValid = true → s.time.sym + 1 < frameSymbols)) ∧
    (let s : State := State.reset; let s : State := s.setBit R.timeStatus F.timeStatus_lpValid true;
     let s : State := { s with time := { s.time with sym := frameSymbols } }; s.pending = [] ∧ s.lpValid = true ∧ frameSymbols ≤ s.time.sym + 1) ∧
    (let s : State := State.reset; let s : State := { s with ubb := { s.ubb with planes := [] } };
     let s : State := { s with ubb := { s.ubb with builds := [] } }; let s : State := { s with ward := { s.ward with violations := [] } };
     let s : State := s.setFld R.wardStatus F.wardStatus_viol1s 0; let s : State := { s with qm := { s.qm with queues := [] } };
     let s : State := { s with ciph := { s.ciph with running := [] } }; let s : State := { s with time := { s.time with pulses := [] } };
     s.pending = [] ∧ (s.lpValid = true → s.time.sym + 1 < frameSymbols) ∧ s.ubb.planes = [] ∧ s.ubb.builds = [] ∧ s.ward.violations = [] ∧
     s.fld R.wardStatus F.wardStatus_viol1s = 0 ∧ s.qm.queues = [] ∧ s.ciph.running = [] ∧ s.time.pulses = [] ∧ (∀ p : Plane, s.patGen p = 0 ∧
     (s.lane p).fill = false)) := by
  refine ⟨?_, ?_, ?_⟩ <;> decide +kernel

/-- Operands and states that meet the hypotheses of `Obligations.ReservedBitsReadZero`, in the order of its clauses. -/
theorem witness_ReservedBitsReadZero :
    (let a : Nat := 7 * 2 ^ 32; regDesc a = none) ∧
    (let a : Nat := R.sysStraps; let d : RegDesc := (regDesc R.sysStraps).getD ⟨0, 0, 0, 0, 0, []⟩; let i : Nat := 63; regDesc a = some d ∧
     (∀ f ∈ d.fields, f.access = .wo ∨ i < f.lo ∨ f.hi < i)) := by
  refine ⟨?_, ?_⟩ <;> decide +kernel

/-- Operands and states that meet the hypotheses of `Obligations.RegisterWritesFollowAccessTypes`, in the order of its clauses. -/
theorem witness_RegisterWritesFollowAccessTypes :
    (let a : BitVec 40 := 0x9900000008; let v : Word := 0x12345678; let d : RegDesc := (regDesc a.toNat).getD ⟨0, 0, 0, 0, 0, []⟩;
     let c : CoreId := 1; let s : State := State.reset; let s : State := s.setFld (R.pwrDom 0) F.pwrDom_state 2; regDesc a.toNat = some d ∧
     (d.fields.Pairwise (fun f g => f.hi < g.lo ∨ g.hi < f.lo)) ∧ (∀ f ∈ d.fields, f.lo ≤ f.hi ∧ f.hi < 64) ∧ s.accessOk a.toNat = true ∧
     s.writeActs true (0xA0 + c) a.toNat v = none) ∧
    (let a : BitVec 40 := 0x9900000008; let v : Word := 0x12345678; let d : RegDesc := (regDesc a.toNat).getD ⟨0, 0, 0, 0, 0, []⟩;
     let s : State := State.reset; let s : State := s.setFld (R.pwrDom 0) F.pwrDom_state 2; let s : State := s.setFld (R.pwrDom 0) F.pwrDom_state 2;
     regDesc a.toNat = some d ∧ (d.fields.Pairwise (fun f g => f.hi < g.lo ∨ g.hi < f.lo)) ∧ (∀ f ∈ d.fields, f.lo ≤ f.hi ∧ f.hi < 64) ∧
     s.domOn 0 = true ∧ barUnit a.toNat = true ∧ barWrites a.toNat = true ∧ s.accessOk a.toNat = true ∧ a.toNat ≠ R.gateInspData ∧
     a.toNat ≠ R.gateCounts ∧ offOf a.toNat < 0x10000 ∧ (∀ u : State, u.writeActs false 0 a.toNat v = none)) ∧
    (let a : BitVec 40 := BitVec.ofNat 40 R.mboxPreuraCtl; let v : Word := 0; let d : RegDesc := (regDesc a.toNat).getD ⟨0, 0, 0, 0, 0, []⟩;
     let s : State := State.reset; regDesc a.toNat = some d ∧ (d.fields.Pairwise (fun f g => f.hi < g.lo ∨ g.hi < f.lo)) ∧
     (∀ f ∈ d.fields, f.lo ≤ f.hi ∧ f.hi < 64) ∧ s.preuraRuns = true ∧ preuraWrites (unitOf a.toNat) = true ∧ s.accessOk a.toNat = true ∧
     (∀ u : State, u.writeActs false 0x9D a.toNat v = none)) ∧
    (let a : BitVec 40 := 0x9800000000 + 0xF000; let d : RegDesc := (regDesc a.toNat).getD ⟨0, 0, 0, 0, 0, []⟩; let s : State := State.reset;
     let s : State := s.setFld (R.pwrDom 0) F.pwrDom_state 2; let s : State := s.setFld (R.pwrDom 0) F.pwrDom_state 2; regDesc a.toNat = some d ∧
     (d.fields.Pairwise (fun f g => f.hi < g.lo ∨ g.hi < f.lo)) ∧ (∀ f ∈ d.fields, f.lo ≤ f.hi ∧ f.hi < 64) ∧ s.domOn 0 = true ∧
     unitOf a.toNat = 0x98 ∧ offOf a.toNat < 0x10000 ∧ s.accessOk a.toNat = true) ∧
    (let a : BitVec 40 := 0x9900000008; let d : RegDesc := (regDesc a.toNat).getD ⟨0, 0, 0, 0, 0, []⟩; let b : BitVec 40 := 0x7FFFFFF8;
     let s : State := State.reset; let s : State := s.setFld (R.pwrDom 0) F.pwrDom_state 2; let s : State := s.setFld (R.pwrDom 0) F.pwrDom_state 2;
     regDesc a.toNat = some d ∧ (d.fields.Pairwise (fun f g => f.hi < g.lo ∨ g.hi < f.lo)) ∧ (∀ f ∈ d.fields, f.lo ≤ f.hi ∧ f.hi < 64) ∧
     s.domOn 0 = true ∧ regDesc b.toNat = none) ∧
    (let a : BitVec 40 := 0x9900000008; let d : RegDesc := (regDesc a.toNat).getD ⟨0, 0, 0, 0, 0, []⟩; let c : CoreId := 1; let x : CtxId := 1;
     let cl : Clause := dClause; let s : State := State.reset; let s : State := s.setCtx c x { s.ctx c x with clause := some cl };
     let s : State := s.setCtx c x { s.ctx c x with refused := none }; let s : State := s.setFld (R.pwrDom 0) F.pwrDom_state 0;
     regDesc a.toNat = some d ∧ (d.fields.Pairwise (fun f g => f.hi < g.lo ∨ g.hi < f.lo)) ∧ (∀ f ∈ d.fields, f.lo ≤ f.hi ∧ f.hi < 64) ∧
     s.accessOk a.toNat = false ∧ (s.ctx c x).clause = some cl ∧ (s.ctx c x).refused = none) ∧
    (let a : BitVec 40 := BitVec.ofNat 40 R.mboxPreuraCtl; let v : Word := 0; let d : RegDesc := (regDesc a.toNat).getD ⟨0, 0, 0, 0, 0, []⟩;
     let s : State := State.reset; let s : State := s.setFld (R.pwrDom 0) F.pwrDom_state 2; regDesc a.toNat = some d ∧
     (d.fields.Pairwise (fun f g => f.hi < g.lo ∨ g.hi < f.lo)) ∧ (∀ f ∈ d.fields, f.lo ≤ f.hi ∧ f.hi < 64) ∧ s.preuraRuns = true ∧
     preuraWrites (unitOf a.toNat) = true ∧ s.accessOk a.toNat = true ∧ (∀ u : State, u.writeActs false 0x9D a.toNat v = none) ∧ s.domOn 0 = true) := by
  refine ⟨?_, ?_, ?_, ?_, ?_, ?_, ?_⟩
  · decide +kernel
  · exact ⟨by decide +kernel, by decide +kernel, by decide +kernel, by decide +kernel, by decide +kernel, by decide +kernel, by decide +kernel, by decide +kernel, by decide +kernel, by decide +kernel, fun u => rfl⟩
  · exact ⟨by decide +kernel, by decide +kernel, by decide +kernel, by decide +kernel, by decide +kernel, by decide +kernel, fun u => rfl⟩
  · decide +kernel
  · decide +kernel
  · decide +kernel
  · exact ⟨by decide +kernel, by decide +kernel, by decide +kernel, by decide +kernel, by decide +kernel, by decide +kernel, fun u => rfl, by decide +kernel⟩

/-- Operands and states that meet the hypotheses of `Obligations.ReadsClearRcFieldsExceptByInspection`, in the order of its clauses. -/
theorem witness_ReadsClearRcFieldsExceptByInspection :
    (let a : BitVec 40 := 0x9900000008; let d : RegDesc := (regDesc a.toNat).getD ⟨0, 0, 0, 0, 0, []⟩; let s : State := State.reset;
     let s : State := s.setFld (R.pwrDom 0) F.pwrDom_state 2; regDesc a.toNat = some d ∧ (d.fields.Pairwise (fun f g => f.hi < g.lo ∨ g.hi < f.lo)) ∧
     (∀ f ∈ d.fields, f.lo ≤ f.hi ∧ f.hi < 64) ∧ s.accessOk a.toNat = true ∧ unitOf a.toNat ≠ 5 ∧ (unitOf a.toNat < 0x30 ∨ 0x8F < unitOf a.toNat)) ∧
    (let s : State := State.reset; let s : State := s.setFld (R.pwrDom 0) F.pwrDom_state 2; s.domOn 0 = true ∧
     s.accessOk (s.fld R.gateInspAddr F.gateInspAddr_addr) = true) ∧
    (let s : State := State.reset; let s : State := s.setFld (R.pwrDom 0) F.pwrDom_state 2; s.domOn 0 = true) ∧
    (let s : State := State.reset; let s : State := s.setFld (R.pwrDom 0) F.pwrDom_state 2;
     let s : State := s.setBit R.gateInspAddr F.gateInspAddr_autoinc true; s.domOn 0 = true ∧
     s.accessOk (s.fld R.gateInspAddr F.gateInspAddr_addr) = true ∧ s.bit R.gateInspAddr F.gateInspAddr_autoinc = true) := by
  refine ⟨?_, ?_, ?_, ?_⟩ <;> decide +kernel

/-- Operands and states that meet the hypotheses of `Obligations.LimtinWordsDecodeBothWays`, in the order of its clauses. -/
theorem witness_LimtinWordsDecodeBothWays :
    (let i : LimInstr := .fence; i.wf = true) ∧
    (let w : BitVec 32 := 0x08000000; let i : LimInstr := .or 0 0 0; decodeLim w = some i) ∧
    (let w : BitVec 32 := 0x08000000; let i : LimInstr := .or 0 0 0; decodeLim w = some i) ∧
    (let w : BitVec 32 := 0; w.toNat < 2 ^ 25) := by
  refine ⟨?_, ?_, ?_, ?_⟩ <;> decide +kernel

/-- Operands and states that meet the hypotheses of `Obligations.LaneSettingsTaken`, in the order of its clauses. -/
theorem witness_LaneSettingsTaken :
    (let p : Plane := 1; let v : Word := 0; let s : State := State.reset; let s : State := s.setPlaneState p 3;
     (s.planeState p = 3 ∨ s.planeState p = 4) ∧ bitsOf (s.reg (R.medLaneCfg p)).toNat 5 2 ≠ bitsOf v.toNat 5 2) ∧
    (let p : Plane := 1; let v : Word := 0x60; let s : State := State.reset; let s : State := s.setPlaneState p 2; 2 ≤ s.planeState p ∧
     (bitsOf v.toNat 6 5 ≠ 0 ∨ bitsOf v.toNat 2 0 ≠ 0)) ∧
    (let p : Plane := 1; let v : Word := 0; let s : State := State.reset; (¬((s.planeState p = 3 ∨ s.planeState p = 4) ∧
     bitsOf (s.reg (R.medLaneCfg p)).toNat 5 2 ≠ bitsOf v.toNat 5 2))) ∧
    (let p : Plane := 1; let v : Word := 0; let s : State := State.reset; (¬((bitsOf v.toNat 6 5 ≠ 0 ∨ bitsOf v.toNat 2 0 ≠ 0) ∧ 2 ≤ s.planeState p))) ∧
    (let p : Plane := 1; let s : State := State.reset; let s : State := s.setBit (R.medLaneStatus p) F.medLaneStatus_hunting true;
     let s : State := s.setFld (R.dfpPlaneStatus p) F.dfpPlaneStatus_align 0; let s : State := s.setFld (R.medLaneStatus p) F.medLaneStatus_rate 2;
     s.bit (R.medLaneStatus p) F.medLaneStatus_hunting = true ∧ s.fld (R.dfpPlaneStatus p) F.dfpPlaneStatus_align = 0 ∧
     (s.fld (R.medLaneStatus p) F.medLaneStatus_rate = 1 ∨ s.fld (R.medLaneStatus p) F.medLaneStatus_rate = 2)) ∧
    (let p : Plane := 1; let s : State := State.reset; let s : State := s.setBit (R.medLaneStatus p) F.medLaneStatus_hunting true;
     let s : State := s.setFld (R.dfpPlaneStatus p) F.dfpPlaneStatus_align 1; s.bit (R.medLaneStatus p) F.medLaneStatus_hunting = true ∧
     s.fld (R.dfpPlaneStatus p) F.dfpPlaneStatus_align = 1) ∧
    (let p : Plane := 1; let v : Word := 1; let s : State := State.reset; let s : State := s.setBit (R.medLaneCfg p) F.medLaneCfg_laneEn false;
     (¬((s.planeState p = 3 ∨ s.planeState p = 4) ∧ bitsOf (s.reg (R.medLaneCfg p)).toNat 5 2 ≠ bitsOf v.toNat 5 2)) ∧
     s.bit (R.medLaneCfg p) F.medLaneCfg_laneEn = false ∧ bitOf v.toNat 0 = true) ∧
    (let p : Plane := 1; let v : Word := 0; let s : State := State.reset; let s : State := s.setBit (R.medLaneCfg p) F.medLaneCfg_laneEn true;
     (¬((s.planeState p = 3 ∨ s.planeState p = 4) ∧ bitsOf (s.reg (R.medLaneCfg p)).toNat 5 2 ≠ bitsOf v.toNat 5 2)) ∧
     s.bit (R.medLaneCfg p) F.medLaneCfg_laneEn = true ∧ bitOf v.toNat 0 = false) ∧
    (let p : Plane := 1; let v : Word := 0; let s : State := State.reset; let s : State := s.setBit (R.medLaneCfg p) F.medLaneCfg_laneEn false;
     (¬((s.planeState p = 3 ∨ s.planeState p = 4) ∧ bitsOf (s.reg (R.medLaneCfg p)).toNat 5 2 ≠ bitsOf v.toNat 5 2)) ∧
     (∀ b ∈ s.ubb.builds, b.launched = false) ∧ s.bit (R.medLaneCfg p) F.medLaneCfg_laneEn = false) ∧
    (let p : Plane := 1; let v : Word := 0; let s : State := State.reset; let s : State := s.setDplane p { s.dplane p with taking := false };
     (¬((bitsOf v.toNat 6 5 ≠ 0 ∨ bitsOf v.toNat 2 0 ≠ 0) ∧ 2 ≤ s.planeState p)) ∧ (∀ b ∈ s.ubb.builds, b.launched = false) ∧ s.aligned p = false ∧
     (s.dplane p).taking = false) := by
  refine ⟨?_, ?_, ?_, ?_, ?_, ?_, ?_, ?_, ?_, ?_⟩ <;> decide +kernel

/-- Operands and states that meet the hypotheses of `Obligations.SignalAndLockDefects`, in the order of its clauses. -/
theorem witness_SignalAndLockDefects :
    (let p : Plane := 1; let msd : Bool := false; let mv : Nat := 0; let s : State := State.reset;
     let s : State := s.setBit (R.medLaneStatus p) F.medLaneStatus_los false; s.signalAbsent p msd mv = true ∧
     s.bit (R.medLaneStatus p) F.medLaneStatus_los = false) ∧
    (let p : Plane := 1; let msd : Bool := true; let mv : Nat := 100; let s : State := State.reset; s.signalAbsent p msd mv = false) ∧
    (let p : Plane := 1; let w : CdrWindow := ⟨201, 0⟩; let s : State := State.reset;
     let s : State := s.setBit (R.medLaneCfg p) F.medLaneCfg_laneEn true; s.bit (R.medLaneCfg p) F.medLaneCfg_laneEn = true ∧ s.loopback p ≠ 2 ∧
     (200 < w.offsetPpm ∨ 4 ≤ w.slips ∨ s.bit (R.medLaneStatus p) F.medLaneStatus_los = true)) ∧
    (let p : Plane := 1; let w : CdrWindow := ⟨50, 0⟩; let s : State := State.reset;
     let s : State := s.setBit (R.medLaneCfg p) F.medLaneCfg_laneEn true; let s : State := s.setBit (R.medLaneStatus p) F.medLaneStatus_los false;
     let s : State := s.setLane p { s.lane p with losWin := false }; let s : State := s.setLane p { s.lane p with rateWin := false };
     s.bit (R.medLaneCfg p) F.medLaneCfg_laneEn = true ∧ s.loopback p ≠ 2 ∧ w.offsetPpm ≤ 200 ∧ w.slips < 4 ∧
     s.bit (R.medLaneStatus p) F.medLaneStatus_los = false ∧ w.offsetPpm ≤ 100 ∧ w.slips = 0 ∧ (s.lane p).losWin = false ∧ (s.lane p).rateWin = false) ∧
    (let p : Plane := 1; let w : CdrWindow := ⟨50, 0⟩; let s : State := State.reset;
     let s : State := s.setBit (R.medLaneCfg p) F.medLaneCfg_laneEn true; let s : State := s.setBit (R.medLaneStatus p) F.medLaneStatus_los false;
     s.bit (R.medLaneCfg p) F.medLaneCfg_laneEn = true ∧ s.loopback p ≠ 2 ∧ w.offsetPpm ≤ 200 ∧ w.slips < 4 ∧
     s.bit (R.medLaneStatus p) F.medLaneStatus_los = false ∧ (100 < w.offsetPpm ∨ w.slips ≠ 0 ∨ (s.lane p).losWin = true ∨ (s.lane p).rateWin = true)) ∧
    (let p : Plane := 1; let msd : Bool := false; let mv : Nat := 0; let s : State := State.reset;
     let s : State := s.setBit (R.medLaneStatus p) F.medLaneStatus_los false; let s : State := s.setDplane p { s.dplane p with taking := false };
     s.signalAbsent p msd mv = true ∧ s.bit (R.medLaneStatus p) F.medLaneStatus_los = false ∧ s.aligned p = false ∧ (s.dplane p).taking = false) ∧
    (let p : Plane := 1; let msd : Bool := false; let mv : Nat := 100; let s : State := State.reset;
     let s : State := s.setFld (R.medTest p) F.medTest_loopback 2; let s : State := s.setFld (R.medTest p) F.medTest_patGen 1;
     s.signalAbsent p msd mv = false ∧ s.loopback p = 2) ∧
    (let p : Plane := 1; let w : CdrWindow := ⟨201, 0⟩; let s : State := State.reset;
     let s : State := s.setBit (R.medLaneCfg p) F.medLaneCfg_laneEn true; let s : State := s.setDplane p { s.dplane p with taking := false };
     s.bit (R.medLaneCfg p) F.medLaneCfg_laneEn = true ∧ s.loopback p ≠ 2 ∧
     (200 < w.offsetPpm ∨ 4 ≤ w.slips ∨ s.bit (R.medLaneStatus p) F.medLaneStatus_los = true) ∧ s.aligned p = false ∧ (s.dplane p).taking = false) := by
  refine ⟨?_, ?_, ?_, ?_, ?_, ?_, ?_, ?_⟩ <;> decide +kernel

/-- Operands and states that meet the hypotheses of `Obligations.TransmitPllLockAndLoss`, in the order of its clauses. -/
theorem witness_TransmitPllLockAndLoss :
    (let s : State := State.reset; let s : State := { s with med := { s.med with txLock := true } }; s.med.txLock = true) ∧
    (let s : State := State.reset; let s : State := { s with med := { s.med with txLock := false } }; s.med.txLock = false) ∧
    (let s : State := State.reset; let s : State := { s with med := { s.med with txLock := true } }; s.med.txLock = true) ∧
    (let s : State := State.reset; let s : State := { s with med := { s.med with txLock := true } }; s.med.txLock = true ∧
     (∀ b ∈ s.ubb.builds, b.launched = false)) ∧
    (let a : Nat := 0; let s : State := State.reset; let s : State := { s with med := { s.med with txLock := true } }; s.med.txLock = true ∧
     (∀ p : Plane, a ≠ R.medLaneStatus p)) := by
  refine ⟨?_, ?_, ?_, ?_, ?_⟩ <;> decide +kernel

/-- Operands and states that meet the hypotheses of `Obligations.FramesAlignAndGrantsReachBothCopies`, in the order of its clauses. -/
theorem witness_FramesAlignAndGrantsReachBothCopies :
    (let p : Plane := 1; let slot : Nat := 5; let x : Nat := 0; let hdr : BitVec 256 := 0; let s : State := State.reset;
     let s : State := s.setFld (R.medLaneStatus p) F.medLaneStatus_rate 1; let s : State := s.setFld (R.medLaneStatus p) F.medLaneStatus_rate 2;
     let s : State := s.setDplane p { s.dplane p with stream := bitsMsb 256 hdr.toNat, slots := 5 }; s.restarting Src.dfp = false ∧
     s.restarting (Src.med (p / 4)) = false ∧ (s.dplane p).header = hdr ∧ s.fld (R.medLaneStatus p) F.medLaneStatus_rate ≠ 0 ∧
     (slot = 0 ∨ slot = (s.dplane p).slots) ∧ (slot = 0 → s.takesFrame p x = true) ∧ ((s.loopback p ≠ 1 ∧ s.loopback p ≠ 2) ∨ s.patGen p ≠ 0)) ∧
    (let p : Plane := 1; let off : Int := 0;
     let hdr : BitVec 256 := (let h : BitVec 256 := BitVec.ofNat 256 (9 * 2 ^ 208 + p.val * 2 ^ 203 + 1 * 2 ^ 182 + 0 * 2 ^ 171);
     BitVec.ofNat 256 (h.toNat + crc32 (bitsMsb 224 (bitsOf h.toNat 255 32)))); let s : State := State.reset;
     let s : State := s.setDplane p { s.dplane p with judged := false }; let s : State := s.setBit (R.medLaneStatus p) F.medLaneStatus_los false;
     let s : State := s.setBit (R.medLaneStatus p) F.medLaneStatus_lol false; let s : State := s.setFld (R.medLaneStatus p) F.medLaneStatus_rate 1;
     let s : State := s.setFld (R.dfpPlaneStatus p) F.dfpPlaneStatus_align 0; let s : State := s.setFld (R.medLaneStatus p) F.medLaneStatus_rate 2;
     let s : State := s.setDplane p { s.dplane p with delimBad := 0, slots := 1, stream := bitsMsb 256 hdr.toNat }; s.restarting Src.dfp = false ∧
     s.restarting (Src.med (p / 4)) = false ∧ (s.dplane p).header = hdr ∧ (s.dplane p).judged = false ∧ (s.dplane p).slots ≠ 0 ∧
     s.bit (R.medLaneStatus p) F.medLaneStatus_los = false ∧ s.bit (R.medLaneStatus p) F.medLaneStatus_lol = false ∧
     s.fld (R.medLaneStatus p) F.medLaneStatus_rate ≠ 0 ∧ (s.dplane p).delimBad ≤ s.fld R.dfpCfg F.dfpCfg_delimTol ∧ s.wellFormedHdr p hdr = true ∧
     (s.windowCheck p hdr ((s.time.frame * frameSymbols : Nat) + off)).1 = true ∧ s.fld (R.dfpPlaneStatus p) F.dfpPlaneStatus_align = 0) ∧
    (let p : Plane := 1; let off : Int := 0;
     let hdr : BitVec 256 := (let h : BitVec 256 := BitVec.ofNat 256 (9 * 2 ^ 208 + p.val * 2 ^ 203 + 1 * 2 ^ 182 + 0 * 2 ^ 171);
     BitVec.ofNat 256 (h.toNat + crc32 (bitsMsb 224 (bitsOf h.toNat 255 32)))); let s : State := State.reset;
     let s : State := s.setDplane p { s.dplane p with judged := false }; let s : State := s.setBit (R.medLaneStatus p) F.medLaneStatus_los false;
     let s : State := s.setBit (R.medLaneStatus p) F.medLaneStatus_lol false; let s : State := s.setFld (R.medLaneStatus p) F.medLaneStatus_rate 1;
     let s : State := s.setFld (R.dfpPlaneStatus p) F.dfpPlaneStatus_align 1; let s : State := s.setFld (R.medLaneStatus p) F.medLaneStatus_rate 2;
     let s : State := s.setDplane p { s.dplane p with delimBad := 0, slots := 1, expect := 9, stream := bitsMsb 256 hdr.toNat };
     s.restarting Src.dfp = false ∧ s.restarting (Src.med (p / 4)) = false ∧ (s.dplane p).header = hdr ∧ (s.dplane p).judged = false ∧
     (s.dplane p).slots ≠ 0 ∧ s.bit (R.medLaneStatus p) F.medLaneStatus_los = false ∧ s.bit (R.medLaneStatus p) F.medLaneStatus_lol = false ∧
     s.fld (R.medLaneStatus p) F.medLaneStatus_rate ≠ 0 ∧ (s.dplane p).delimBad ≤ s.fld R.dfpCfg F.dfpCfg_delimTol ∧ s.wellFormedHdr p hdr = true ∧
     (s.windowCheck p hdr ((s.time.frame * frameSymbols : Nat) + off)).1 = true ∧
     (s.fld (R.dfpPlaneStatus p) F.dfpPlaneStatus_align = 1 ∨ s.fld (R.dfpPlaneStatus p) F.dfpPlaneStatus_align = 2) ∧
     fhFrame hdr = (s.dplane p).expect) ∧
    (let p : Plane := 1; let hdr : BitVec 256 := 0; let s : State := State.reset; let s : State := s.setDplane p { s.dplane p with judged := false };
     let s : State := s.setBit (R.medLaneStatus p) F.medLaneStatus_los false;
     let s : State := s.setBit (R.medLaneStatus p) F.medLaneStatus_lol false; let s : State := s.setFld (R.medLaneStatus p) F.medLaneStatus_rate 1;
     let s : State := s.setFld (R.dfpPlaneStatus p) F.dfpPlaneStatus_align 2; let s : State := s.setFld (R.medLaneStatus p) F.medLaneStatus_rate 2;
     let s : State := s.setDplane p { s.dplane p with delimBad := 200, slots := 1 }; s.restarting Src.dfp = false ∧
     s.restarting (Src.med (p / 4)) = false ∧ (s.dplane p).header = hdr ∧ (s.dplane p).judged = false ∧ (s.dplane p).slots ≠ 0 ∧
     s.bit (R.medLaneStatus p) F.medLaneStatus_los = false ∧ s.bit (R.medLaneStatus p) F.medLaneStatus_lol = false ∧
     s.fld (R.medLaneStatus p) F.medLaneStatus_rate ≠ 0 ∧ s.fld (R.dfpPlaneStatus p) F.dfpPlaneStatus_align = 2 ∧
     s.fld R.dfpCfg F.dfpCfg_delimTol < (s.dplane p).delimBad ∧ s.fld (R.dfpPlaneStatus p) F.dfpPlaneStatus_miss < 3) ∧
    (let p : Plane := 1; let hdr : BitVec 256 := 0; let s : State := State.reset; let s : State := s.setDplane p { s.dplane p with judged := false };
     let s : State := s.setBit (R.medLaneStatus p) F.medLaneStatus_los false;
     let s : State := s.setBit (R.medLaneStatus p) F.medLaneStatus_lol false; let s : State := s.setFld (R.medLaneStatus p) F.medLaneStatus_rate 1;
     let s : State := s.setFld (R.dfpPlaneStatus p) F.dfpPlaneStatus_align 2; let s : State := s.setFld (R.medLaneStatus p) F.medLaneStatus_rate 2;
     let s : State := s.setDplane p { s.dplane p with delimBad := 200, slots := 1 };
     let s : State := s.setFld (R.dfpPlaneStatus p) F.dfpPlaneStatus_miss 3; s.restarting Src.dfp = false ∧ s.restarting (Src.med (p / 4)) = false ∧
     (s.dplane p).header = hdr ∧ (s.dplane p).judged = false ∧ (s.dplane p).slots ≠ 0 ∧ s.bit (R.medLaneStatus p) F.medLaneStatus_los = false ∧
     s.bit (R.medLaneStatus p) F.medLaneStatus_lol = false ∧ s.fld (R.medLaneStatus p) F.medLaneStatus_rate ≠ 0 ∧
     s.fld (R.dfpPlaneStatus p) F.dfpPlaneStatus_align = 2 ∧ s.fld R.dfpCfg F.dfpCfg_delimTol < (s.dplane p).delimBad ∧
     3 ≤ s.fld (R.dfpPlaneStatus p) F.dfpPlaneStatus_miss) ∧
    (let p : Plane := 1; let hdr : BitVec 256 := 0; let n : Nat := 1; let s : State := State.reset;
     let s : State := s.setDplane p { s.dplane p with grantsDone := false }; let s : State := s.setDplane p { s.dplane p with taking := true };
     let s : State := s.setDplane p { s.dplane p with grantCount := n }; let s : State := s.setFld (R.medLaneStatus p) F.medLaneStatus_rate 2;
     let s : State := s.setDplane p { s.dplane p with slots := 1, stream := bitsMsb 256 hdr.toNat ++ bitsMsb 64 5 ++ bitsMsb 32 7 };
     s.restarting Src.dfp = false ∧ s.restarting (Src.med (p / 4)) = false ∧ (s.dplane p).header = hdr ∧ (s.dplane p).grantsDone = false ∧
     (s.dplane p).taking = true ∧ (s.dplane p).grantCount = n ∧ (s.dplane p).has (319 + 64 * n) = true ∧
     ((s.dplane p).badBits 0 (319 + 64 * n) = true ∨ crc32 ((s.dplane p).bits 256 (64 * n)) ≠ (s.dplane p).word (256 + 64 * n) 32)) ∧
    (let p : Plane := 1; let hdr : BitVec 256 := 0; let n : Nat := 1; let s : State := State.reset;
     let s : State := s.setDplane p { s.dplane p with grantsDone := false }; let s : State := s.setDplane p { s.dplane p with taking := true };
     let s : State := s.setDplane p { s.dplane p with grantCount := n }; let s : State := s.setFld (R.medLaneStatus p) F.medLaneStatus_rate 2;
     let s : State := s.setDplane p { s.dplane p with slots := 1, stream := bitsMsb 256 hdr.toNat ++ bitsMsb 64 5 ++ bitsMsb 32 (crc32 (bitsMsb 64 5)) };
     s.restarting Src.dfp = false ∧ s.restarting (Src.med (p / 4)) = false ∧ (s.dplane p).header = hdr ∧ (s.dplane p).grantsDone = false ∧
     (s.dplane p).taking = true ∧ (s.dplane p).grantCount = n ∧ (s.dplane p).has (319 + 64 * n) = true ∧
     (s.dplane p).badBits 0 (319 + 64 * n) = false ∧ crc32 ((s.dplane p).bits 256 (64 * n)) = (s.dplane p).word (256 + 64 * n) 32) ∧
    (let p : Plane := 1; let hdr : BitVec 256 := 0; let n : Nat := 1; let e : BitVec 64 := 0x0000000000001020; let s : State := State.reset;
     let s : State := s.setDplane p { s.dplane p with grantsDone := false }; let s : State := s.setDplane p { s.dplane p with taking := true };
     let s : State := s.setDplane p { s.dplane p with grantCount := n }; let s : State := s.setBit R.timeStatus F.timeStatus_lpValid true;
     let s : State := s.setFld (R.medLaneStatus p) F.medLaneStatus_rate 2; let s : State := s.setFld R.dfpIdent F.dfpIdent_tid 0;
     let s : State := { s with time := { s.time with frame := 5 } };
     let s : State := s.setDplane p { s.dplane p with slots := 1, stream := bitsMsb 256 hdr.toNat ++ bitsMsb 64 e.toNat ++ bitsMsb 32 (crc32 (bitsMsb 64 e.toNat)) };
     s.restarting Src.dfp = false ∧ s.restarting (Src.med (p / 4)) = false ∧ (s.dplane p).header = hdr ∧ (s.dplane p).grantsDone = false ∧
     (s.dplane p).taking = true ∧ (s.dplane p).grantCount = n ∧ (s.dplane p).has (319 + 64 * n) = true ∧
     (s.dplane p).badBits 0 (319 + 64 * n) = false ∧ crc32 ((s.dplane p).bits 256 (64 * n)) = (s.dplane p).word (256 + 64 * n) 32 ∧
     (s.dplane p).entries n = [e] ∧ s.lpValid = true ∧ bitsOf e.toNat 63 54 = s.fld R.dfpIdent F.dfpIdent_tid ∧
     s.grantOk p (s.dplane p).grants (grantOf e p ((s.dplane p).frame + 4) (s.time.frame * frameSymbols + s.time.sym)) = true) := by
  refine ⟨?_, ?_, ?_, ?_, ?_, ?_, ?_, ?_⟩ <;> decide +kernel

/-- Operands and states that meet the hypotheses of `Obligations.MessagesAndParcelsRouted`, in the order of its clauses. -/
theorem witness_MessagesAndParcelsRouted :
    (let p : Plane := 1; let env : BitVec 64 := (let e : Nat := 0x3FF * 2 ^ 54 + 0x20 * 2 ^ 46 + 8 * 2 ^ 34;
     BitVec.ofNat 64 (e + messageCrc e [1, 2, 3, 4, 5, 6, 7, 8])); let n : Nat := 8; let last : Nat := 127; let s : State := State.reset;
     let s : State := s.setDplane p { s.dplane p with taking := true };
     let s : State := s.setDplane p { s.dplane p with stream := bitsMsb 64 env.toNat ++ bitsOfBytes [1, 2, 3, 4, 5, 6, 7, 8], hdrLen := 1, slots := 1, msgPos := 0, msgLeft := 1 };
     let s : State := s.setReg (R.dfpMsgAccept 0) 0x100000000; env = BitVec.ofNat 64 ((s.dplane p).word (s.dplane p).msgPos 64) ∧
     n = bitsOf env.toNat 45 34 ∧ last = (s.dplane p).msgPos + msgBits n - 1 ∧ (s.dplane p).taking = true ∧ (s.dplane p).msgLeft ≠ 0 ∧
     last < 5140 * (s.dplane p).hdrLen ∧ (s.dplane p).has ((s.dplane p).msgPos + 63) = true ∧ (s.dplane p).has last = true ∧
     (s.dplane p).badBits (s.dplane p).msgPos ((s.dplane p).msgPos + 63) = false ∧ (s.dplane p).badBits (s.dplane p).msgPos last = false ∧
     crc16 ((s.dplane p).bits (s.dplane p).msgPos 48 ++ (s.dplane p).bits ((s.dplane p).msgPos + 64) (8 * roundUp n 8)) = bitsOf env.toNat 15 0 ∧
     (bitsOf env.toNat 63 54 = s.fld R.dfpIdent F.dfpIdent_tid ∨ bitsOf env.toNat 63 54 = 0x3FF) ∧
     bitsOf env.toNat 53 46 ∉ [0x01, 0x0B, 0x0C, 0x0D, 0x0E] ∧ s.msgAccept (bitsOf env.toNat 53 46) = true ∧ s.dfp.msgq.length < 512) ∧
    (let p : Plane := 1; let hdr : BitVec 128 := (let h : Nat := 5 * 2 ^ 108 + 8 * 2 ^ 94 + 2 ^ 28; BitVec.ofNat 128 (h + parcelCrc h));
     let pos : Nat := 0; let next : Nat := 8 * phExtent hdr; let s : State := State.reset;
     let s : State := s.setDplane p { s.dplane p with taking := true }; let s : State := s.setDplane p { s.dplane p with ignoring := false };
     let s : State := s.setDplane p { s.dplane p with hunting := false }; let s : State := s.setDplane p { s.dplane p with cut := none };
     let s : State := s.setBit R.dfpStatus F.dfpStatus_ownReady true;
     let s : State := s.setDplane p { s.dplane p with slots := s.slotsPerFrame p, stream := bitsMsb 128 hdr.toNat ++ bitsOfBytes (List.replicate 60 7) };
     let s : State := s.setOwnW 5 0x80000001; hdr = BitVec.ofNat 128 ((s.dplane p).word (s.dplane p).pos 128) ∧ pos = (s.dplane p).pos ∧
     next = pos + 8 * phExtent hdr ∧ (s.dplane p).taking = true ∧ (s.dplane p).ignoring = false ∧ (s.dplane p).hunting = false ∧
     (s.dplane p).cut = none ∧ pos + 128 ≤ s.areaEnd p ∧ next ≤ s.areaEnd p ∧ (s.dplane p).has (pos + 127) = true ∧
     (s.dplane p).has (next - 1) = true ∧ (s.dplane p).badBits pos (pos + 127) = false ∧ (s.dplane p).badBits pos (next - 1) = false ∧
     phOk hdr = true ∧ phType hdr ≠ 0 ∧ phLength hdr ≠ 0 ∧ s.bit R.dfpStatus F.dfpStatus_ownReady = true) ∧
    (let p : Plane := 1; let o : Opening := dOpening; let rest : List Opening := []; let r : CiphDone := ⟨1, 1, [], 0⟩; let rs : List CiphDone := [];
     let s : State := State.reset; let s : State := { s with dfp := { s.dfp with opening := o :: rest } };
     let s : State := { s with ciph := { s.ciph with results := r :: rs } }; s.dfp.opening = o :: rest ∧ o.plane = p.val ∧ s.ciph.results = r :: rs ∧
     r.num = o.req ∧ r.status ≠ 0 ∧ r.status ≠ 5) ∧
    (let p : Plane := 1; let o : Opening := { dOpening with hdr := 2 ^ 92 + 2 ^ 28 }; let rest : List Opening := [];
     let r : CiphDone := ⟨1, 0, [1, 2], 0⟩; let rs : List CiphDone := []; let s : State := State.reset;
     let s : State := { s with dfp := { s.dfp with opening := o :: rest } }; let s : State := { s with ciph := { s.ciph with results := r :: rs } };
     let s : State := s.setFld (R.pwrDom 5) F.pwrDom_state 2; s.dfp.opening = o :: rest ∧ o.plane = p.val ∧ s.ciph.results = r :: rs ∧
     r.num = o.req ∧ r.status = 0 ∧ phType o.hdr = 1 ∧ phFrag o.hdr = 1 ∧ bitOf o.own.toNat 30 = false ∧ (s.reasm (phFlow o.hdr)).parts = [] ∧
     (s.takeCells .dn false (cellsOf r.text.length)).isSome = true) ∧
    (let flow : Fin 1048576 := 5; let q : Parcel := { dParcel with hdr := 3 * 2 ^ 76 + 2 ^ 92 + 2 ^ 28 }; let l : List Parcel := [];
     let s : State := State.reset; let s : State := s.setRsq flow { held := [q], exp := 1, valid := true }; (s.rsq flow).held = q :: l) ∧
    (let p : Plane := 1; let hdr : BitVec 128 := (let h : Nat := 5 * 2 ^ 108 + 8 * 2 ^ 94 + 2 ^ 28; BitVec.ofNat 128 (h + parcelCrc h));
     let pos : Nat := 0; let next : Nat := 8 * phExtent hdr; let s : State := State.reset;
     let s : State := s.setDplane p { s.dplane p with taking := true }; let s : State := s.setDplane p { s.dplane p with ignoring := false };
     let s : State := s.setDplane p { s.dplane p with hunting := false }; let s : State := s.setDplane p { s.dplane p with cut := none };
     let s : State := s.setBit R.dfpStatus F.dfpStatus_ownReady true;
     let s : State := s.setDplane p { s.dplane p with slots := s.slotsPerFrame p, stream := bitsMsb 128 hdr.toNat ++ bitsOfBytes (List.replicate 60 7) };
     let s : State := s.setOwnW 5 0x80000001; hdr = BitVec.ofNat 128 ((s.dplane p).word (s.dplane p).pos 128) ∧ pos = (s.dplane p).pos ∧
     next = pos + 8 * phExtent hdr ∧ (s.dplane p).taking = true ∧ (s.dplane p).ignoring = false ∧ (s.dplane p).hunting = false ∧
     (s.dplane p).cut = none ∧ pos + 128 ≤ s.areaEnd p ∧ next ≤ s.areaEnd p ∧ (s.dplane p).has (pos + 127) = true ∧
     (s.dplane p).has (next - 1) = true ∧ (s.dplane p).badBits pos (pos + 127) = false ∧ (s.dplane p).badBits pos (next - 1) = false ∧
     phOk hdr = true ∧ phType hdr ≠ 0 ∧ phLength hdr ≠ 0 ∧ s.bit R.dfpStatus F.dfpStatus_ownReady = true ∧ bitOf (s.own (phFlow hdr)).toNat 31 = true) ∧
    (let p : Plane := 1; let hdr : BitVec 128 := (let h : Nat := 5 * 2 ^ 108 + 8 * 2 ^ 94 + 2 ^ 28; BitVec.ofNat 128 (h + parcelCrc h));
     let pos : Nat := 0; let next : Nat := 8 * phExtent hdr; let s : State := State.reset;
     let s : State := s.setDplane p { s.dplane p with taking := true }; let s : State := s.setDplane p { s.dplane p with ignoring := false };
     let s : State := s.setDplane p { s.dplane p with hunting := false }; let s : State := s.setDplane p { s.dplane p with cut := none };
     let s : State := s.setBit R.dfpStatus F.dfpStatus_ownReady true;
     let s : State := s.setDplane p { s.dplane p with slots := s.slotsPerFrame p, stream := bitsMsb 128 hdr.toNat ++ bitsOfBytes (List.replicate 60 7) };
     let s : State := s.setOwnW 5 0x80000001; let s : State := s.setOwnW 5 1; hdr = BitVec.ofNat 128 ((s.dplane p).word (s.dplane p).pos 128) ∧
     pos = (s.dplane p).pos ∧ next = pos + 8 * phExtent hdr ∧ (s.dplane p).taking = true ∧ (s.dplane p).ignoring = false ∧
     (s.dplane p).hunting = false ∧ (s.dplane p).cut = none ∧ pos + 128 ≤ s.areaEnd p ∧ next ≤ s.areaEnd p ∧ (s.dplane p).has (pos + 127) = true ∧
     (s.dplane p).has (next - 1) = true ∧ (s.dplane p).badBits pos (pos + 127) = false ∧ (s.dplane p).badBits pos (next - 1) = false ∧
     phOk hdr = true ∧ phType hdr ≠ 0 ∧ phLength hdr ≠ 0 ∧ s.bit R.dfpStatus F.dfpStatus_ownReady = true ∧
     bitOf (s.own (phFlow hdr)).toNat 31 = false) ∧
    (let flow : Fin 1048576 := 5; let q : Parcel := { dParcel with hdr := 3 * 2 ^ 76 + 2 ^ 92 + 2 ^ 28 }; let l : List Parcel := [];
     let s : State := State.reset; let s : State := s.setRsq flow { held := [q], exp := 1, valid := true }; (s.rsq flow).held = q :: l ∧ l = [] ∧
     phType q.hdr = 1 ∧ phFrag q.hdr = 1 ∧ (s.reasm (phFlow q.hdr)).parts = []) := by
  refine ⟨?_, ?_, ?_, ?_, ?_, ?_, ?_, ?_⟩ <;> decide +kernel

/-- Operands and states that meet the hypotheses of `Obligations.OwnershipTableWrittenWhole`, in the order of its clauses. -/
theorem witness_OwnershipTableWrittenWhole :
    (let s : State := State.reset; let s : State := s.setBit R.dfpStatus F.dfpStatus_ownReady true; s.bit R.dfpStatus F.dfpStatus_ownReady = true) ∧
    (let s : State := State.reset; let s : State := s.setBit R.dfpStatus F.dfpStatus_ownReady false; s.bit R.dfpStatus F.dfpStatus_ownReady = false) ∧
    (let e := (((0xF0 : Fin 256), (8 : Nat), R.dfpStatus, F.dfpStatus_ownReady) : Fin 256 × Nat × Nat × Fld); let s : State := State.reset;
     let s : State := s.setFld (R.pwrDom e.2.1) F.pwrDom_state 2; let s : State := s.setFld (R.pwrDom 8) F.pwrDom_state 2;
     e ∈ ([(0xF0, 8, R.dfpStatus, F.dfpStatus_ownReady), (0xF1, 9, R.ubbStatus, F.ubbStatus_flowReady), (0x90, 7, R.clsStatus, F.clsStatus_ready), (0x91, 5, R.qmStatus, F.qmStatus_ready), (0x92, 5, R.schStatus, F.schStatus_ready), (0x95, 6, R.ciphStatus, F.ciphStatus_ready), (0x96, 10, R.circStatus, F.circStatus_ready), (0x9A, 1, R.lschStatus, F.lschStatus_ready)] : List (Fin 256 × Nat × Nat × Fld)) ∧
     s.domOn e.2.1 = true) ∧
    (let v : Word := 0; let f : Nat := bitsOf v.toNat 51 32 + 1; let s : State := State.reset;
     let s : State := s.setBit R.dfpStatus F.dfpStatus_ownReady true; s.bit R.dfpStatus F.dfpStatus_ownReady = true ∧ f ≠ bitsOf v.toNat 51 32) ∧
    (let e := (((0xF0 : Fin 256), (8 : Nat), R.dfpStatus, F.dfpStatus_ownReady) : Fin 256 × Nat × Nat × Fld); let s : State := State.reset;
     let s : State := s.setFld (R.pwrDom e.2.1) F.pwrDom_state 2; let s : State := { s with enrol := { s.enrol with startWaiting := false } };
     let s : State := s.setFld (R.pwrDom 8) F.pwrDom_state 2;
     e ∈ ([(0xF0, 8, R.dfpStatus, F.dfpStatus_ownReady), (0xF1, 9, R.ubbStatus, F.ubbStatus_flowReady), (0x90, 7, R.clsStatus, F.clsStatus_ready), (0x91, 5, R.qmStatus, F.qmStatus_ready), (0x92, 5, R.schStatus, F.schStatus_ready), (0x95, 6, R.ciphStatus, F.ciphStatus_ready), (0x96, 10, R.circStatus, F.circStatus_ready), (0x9A, 1, R.lschStatus, F.lschStatus_ready)] : List (Fin 256 × Nat × Nat × Fld)) ∧
     s.domOn e.2.1 = true ∧ s.enrol.startWaiting = false) := by
  refine ⟨?_, ?_, ?_, ?_, ?_⟩ <;> decide +kernel

/-- Operands and states that meet the hypotheses of `Obligations.GrantEntryLifeOfABurst`, in the order of its clauses. -/
theorem witness_GrantEntryLifeOfABurst :
    (let p : Plane := 1; let g : Grant := { dGrant with frame := 9 }; let s : State := State.reset;
     let s : State := s.setBit R.timeStatus F.timeStatus_lpValid true; let s : State := s.setUplane p { s.uplane p with entries := [g] };
     s.lpValid = true ∧ s.ubbRestarts = false ∧ s.nextEntry p = some g ∧ g.plane = p.val ∧ g.bonded = false) ∧
    (let p : Plane := 1; let g : Grant := { dGrant with frame := 9 }; let c := (5 : Nat); let s : State := State.reset;
     let s : State := s.setBit R.timeStatus F.timeStatus_lpValid true; let s : State := s.setUplane p { s.uplane p with entries := [g] };
     s.lpValid = true ∧ s.ubbRestarts = false ∧ s.nextEntry p = some g ∧ g.plane = p.val ∧ g.bonded = false ∧ s.ownDisp g = some c) ∧
    (let p : Plane := 1; let g : Grant := { dGrant with kind := 1, frame := 9, length := 1 }; let s : State := State.reset;
     let s : State := s.setBit R.timeStatus F.timeStatus_lpValid true; let s : State := s.setUplane p { s.uplane p with entries := [g] };
     let s : State := s.setFld (R.ubbPlaneCtl p) F.ubbPlaneCtl_permit 3; let s : State := s.setFld g.profileReg F.ubbProfile_train 512;
     let s : State := s.setFld g.profileReg F.ubbProfile_guard 256; let s : State := s.setBit g.profileReg F.ubbProfile_valid true;
     s.lpValid = true ∧ s.ubbRestarts = false ∧ s.nextEntry p = some g ∧ g.plane = p.val ∧ g.bonded = false ∧ s.ownDisp g = none ∧ s.nMax g < 0) ∧
    (let p : Plane := 1; let g : Grant := { dGrant with kind := 1, frame := 9, length := 300 }; let s : State := State.reset;
     let s : State := s.setBit R.timeStatus F.timeStatus_lpValid true; let s : State := s.setUplane p { s.uplane p with entries := [g] };
     let s : State := s.setFld (R.ubbPlaneCtl p) F.ubbPlaneCtl_permit 3; let s : State := s.setFld g.profileReg F.ubbProfile_train 512;
     let s : State := s.setFld g.profileReg F.ubbProfile_guard 256; let s : State := s.setBit g.profileReg F.ubbProfile_valid true;
     s.lpValid = true ∧ s.ubbRestarts = false ∧ s.nextEntry p = some g ∧ g.plane = p.val ∧ g.bonded = false ∧ s.ownDisp g = none ∧
     (g.kind = 1 ∨ g.kind = 3) ∧ 0 ≤ s.nMax g) ∧
    (let p : Plane := 1; let b : Build := dBuild; let s : State := State.reset; let s : State := { s with ubb := { s.ubb with builds := [b] } };
     s.buildOf p (fun x => !x.committed) = some b) ∧
    (let p : Plane := 1;
     let b : Build := { dBuild with committed := true, lines := [{ dLine with start := (State.reset.permitOf dGrant).1 + 100 }] };
     let s : State := State.reset; let s : State := { s with ubb := { s.ubb with builds := [b] } };
     let s : State := s.setBit R.timeStatus F.timeStatus_lpValid true; let s : State := { s with ward := { s.ward with entries := [dGrant] } };
     let s : State := s.setBit (R.medLaneCfg p) F.medLaneCfg_laneEn true; let s : State := s.setFld (R.medLaneStatus p) F.medLaneStatus_rate 2;
     let s : State := { s with med := { s.med with txLock := true, txWait := false } }; s.ubbRestarts = false ∧
     s.buildOf p (fun x => !x.launched) = some b ∧ b.committed = true ∧ (∀ g ∈ b.grants, g.plane < 24) ∧ (∀ g ∈ b.grants, s.launchStop b g = none) ∧
     s.badStart b = none) ∧
    (let p : Plane := 1; let b : Build := { dBuild with committed := true }; let g := dGrant; let s : State := State.reset;
     let s : State := { s with ubb := { s.ubb with builds := [b] } }; let s : State := s.setBit (R.medLaneCfg p) F.medLaneCfg_laneEn true;
     let s : State := s.setFld (R.medLaneStatus p) F.medLaneStatus_rate 2;
     let s : State := { s with med := { s.med with txLock := true, txWait := false } }; let c := (s.launchStop b g).getD 0; s.ubbRestarts = false ∧
     s.buildOf p (fun x => !x.launched) = some b ∧ b.committed = true ∧ (∀ g ∈ b.grants, g.plane < 24) ∧ b.grants = [g] ∧ s.launchStop b g = some c) ∧
    (let p : Plane := 1; let b : Build := { dBuild with committed := true, launched := true }; let s : State := State.reset;
     let s : State := { s with ubb := { s.ubb with builds := [b] } }; s.buildOf p (·.launched) = some b ∧
     (s.lpValid = false ∨ b.endAt p ≤ unionEnd (s.permitsOf p) 400 (b.line p).leadAt)) ∧
    (let p : Plane := 1; let a : Int := 0; let e : Int := 5; let s : State := State.reset;
     let s : State := s.setUplane p { s.uplane p with lag := some (a, e) }; s.buildOf p (·.launched) = none ∧ (s.uplane p).lag = some (a, e) ∧
     (s.lpValid = false ∨ e ≤ unionEnd (s.permitsOf p) 400 a)) ∧
    (let p : Plane := 1; let g : Grant := { dGrant with kind := 1, frame := 9, length := 300 }; let s : State := State.reset;
     let s : State := s.setBit R.timeStatus F.timeStatus_lpValid true; let s : State := s.setUplane p { s.uplane p with entries := [g] };
     let s : State := s.setFld (R.ubbPlaneCtl p) F.ubbPlaneCtl_permit 3; let s : State := s.setFld g.profileReg F.ubbProfile_train 512;
     let s : State := s.setFld g.profileReg F.ubbProfile_guard 256; let s : State := s.setBit g.profileReg F.ubbProfile_valid true;
     s.lpValid = true ∧ s.ubbRestarts = false ∧ s.nextEntry p = some g ∧ g.plane = p.val ∧ g.bonded = false ∧ s.ownDisp g = none ∧
     (g.kind = 1 ∨ g.kind = 3) ∧ 0 ≤ s.nMax g ∧ s.isLead = true) ∧
    (let p : Plane := 1; let b : Build := dBuild; let s : State := State.reset; let s : State := { s with ubb := { s.ubb with builds := [b] } };
     s.buildOf p (fun x => !x.committed) = some b ∧ s.ubb.builds = [b] ∧ (∀ x ∈ b.pieces, x.req = none)) ∧
    (let p : Plane := 1;
     let b : Build := { dBuild with committed := true, lines := [{ dLine with start := (State.reset.permitOf dGrant).1 + 100 }] };
     let g : Grant := dGrant; let s : State := State.reset; let s : State := { s with ubb := { s.ubb with builds := [b] } };
     let s : State := s.setBit R.timeStatus F.timeStatus_lpValid true; let s : State := { s with ward := { s.ward with entries := [dGrant] } };
     let s : State := s.setBit (R.medLaneCfg p) F.medLaneCfg_laneEn true; let s : State := s.setFld (R.medLaneStatus p) F.medLaneStatus_rate 2;
     let s : State := { s with med := { s.med with txLock := true, txWait := false } }; s.ubbRestarts = false ∧
     s.buildOf p (fun x => !x.launched) = some b ∧ b.committed = true ∧ (∀ g ∈ b.grants, g.plane < 24) ∧ (∀ g ∈ b.grants, s.launchStop b g = none) ∧
     s.badStart b = none ∧ g ∈ b.grants) ∧
    (let p : Plane := 1;
     let b : Build := { dBuild with committed := true, lines := [{ dLine with start := (State.reset.permitOf dGrant).1 + 100 }] };
     let g : Grant := dGrant; let s : State := State.reset; let s : State := { s with ubb := { s.ubb with builds := [b] } };
     let s : State := s.setBit R.timeStatus F.timeStatus_lpValid true; let s : State := { s with ward := { s.ward with entries := [dGrant] } };
     let s : State := s.setBit (R.medLaneCfg p) F.medLaneCfg_laneEn true; let s : State := s.setFld (R.medLaneStatus p) F.medLaneStatus_rate 2;
     let s : State := { s with med := { s.med with txLock := true, txWait := false } }; s.ubbRestarts = false ∧
     s.buildOf p (fun x => !x.launched) = some b ∧ b.committed = true ∧ (∀ g ∈ b.grants, g.plane < 24) ∧ (∀ g ∈ b.grants, s.launchStop b g = none) ∧
     s.badStart b = none ∧ b.grants = [g]) ∧
    (let p : Plane := 1; let b : Build := { dBuild with committed := true }; let g := dGrant; let s : State := State.reset;
     let s : State := { s with ubb := { s.ubb with builds := [b] } }; let s : State := s.setBit (R.medLaneCfg p) F.medLaneCfg_laneEn true;
     let s : State := s.setFld (R.medLaneStatus p) F.medLaneStatus_rate 2;
     let s : State := { s with med := { s.med with txLock := true, txWait := false } }; let c := (s.launchStop b g).getD 0; s.ubbRestarts = false ∧
     s.buildOf p (fun x => !x.launched) = some b ∧ b.committed = true ∧ (∀ g ∈ b.grants, g.plane < 24) ∧ b.grants = [g] ∧ s.launchStop b g = some c ∧
     s.ubb.builds = [b] ∧ b.pieces = [] ∧ c ≠ 15) ∧
    (let p : Plane := 1; let b : Build := { dBuild with committed := true }; let g := dGrant; let s : State := State.reset;
     let s : State := { s with ubb := { s.ubb with builds := [b] } }; let s : State := s.setUplane g.plane { s.uplane g.plane with lag := none };
     let s : State := s.setBit (R.medLaneCfg p) F.medLaneCfg_laneEn true; let s : State := s.setFld (R.medLaneStatus p) F.medLaneStatus_rate 2;
     let s : State := { s with med := { s.med with txLock := true, txWait := false } }; let c := (s.launchStop b g).getD 0; s.ubbRestarts = false ∧
     s.buildOf p (fun x => !x.launched) = some b ∧ b.committed = true ∧ (∀ g ∈ b.grants, g.plane < 24) ∧ b.grants = [g] ∧ s.launchStop b g = some c ∧
     s.ubb.builds = [b] ∧ b.pieces = [] ∧ c ≠ 15 ∧ (s.uplane g.plane).lag = none) ∧
    (let p : Plane := 1; let b : Build := { dBuild with committed := true, launched := true }; let s : State := State.reset;
     let s : State := { s with ubb := { s.ubb with builds := [b] } }; s.buildOf p (·.launched) = some b ∧
     (s.lpValid = false ∨ b.endAt p ≤ unionEnd (s.permitsOf p) 400 (b.line p).leadAt) ∧ s.ubb.builds = [b] ∧ b.on p = true ∧
     b.grants.all (fun g => g.plane == p.val) = true ∧ b.pieces = []) ∧
    (let p : Plane := 1; let a : Int := 0; let e : Int := 5; let s : State := State.reset;
     let s : State := s.setUplane p { s.uplane p with lag := some (a, e) }; s.buildOf p (·.launched) = none ∧ (s.uplane p).lag = some (a, e) ∧
     (s.lpValid = false ∨ e ≤ unionEnd (s.permitsOf p) 400 a) ∧ s.joins p e = false) ∧
    (let p : Plane := 1; let a : Int := 0; let e : Int := 5; let s : State := State.reset;
     let s : State := s.setUplane p { s.uplane p with lag := some (a, e) };
     let s : State := { s with ubb := { s.ubb with builds := [{ dBuild with committed := true, lines := [{ dLine with plane := p.val, start := 3, lead := 0 }] }] } };
     s.buildOf p (·.launched) = none ∧ (s.uplane p).lag = some (a, e) ∧ (s.lpValid = false ∨ e ≤ unionEnd (s.permitsOf p) 400 a) ∧ s.joins p e = true) := by
  refine ⟨?_, ?_, ?_, ?_, ?_, ?_, ?_, ?_, ?_, ?_, ?_, ?_, ?_, ?_, ?_, ?_, ?_, ?_⟩ <;> decide +kernel

/-- Operands and states that meet the hypotheses of `Obligations.WardHoldsTheTransmitter`, in the order of its clauses. -/
theorem witness_WardHoldsTheTransmitter :
    (let s : State := State.reset; s.lpValid = false) ∧
    (let n := (1 : Nat); let s : State := State.reset; let s : State := s.setBit R.timeStatus F.timeStatus_lpValid true; s.lpValid = true ∧
     n = min 3 (s.recentViolations.length + 1)) ∧
    (let m : Msg := dMsg; let s : State := State.reset; 16 ≤ m.body.length ∧ m.parcel = false ∧ s.codeMatches m = true) ∧
    (let m : Msg := dMsg; let s : State := State.reset; 16 ≤ m.body.length ∧ m.parcel = false ∧ s.codeMatches m = true) ∧
    (let m : Msg := dMsg; let s : State := State.reset; 16 ≤ m.body.length ∧ m.parcel = false ∧ s.codeMatches m = true) ∧
    (let m : Msg := dMsg; let s : State := State.reset; let s : State := s.setReg R.wardCode 7; 16 ≤ m.body.length ∧ m.parcel = false ∧
     s.codeMatches m = false) ∧
    (let m : Msg := dMsg; let s : State := State.reset; let s : State := s.setReg R.wardCode 7; 16 ≤ m.body.length ∧ m.parcel = false ∧
     s.codeMatches m = false) ∧
    (let m : Msg := dMsg; let s : State := State.reset; let s : State := s.setReg R.wardCode 7; 16 ≤ m.body.length ∧ m.parcel = false ∧
     s.codeMatches m = false) ∧
    (let n := (1 : Nat); let s : State := State.reset; let s : State := s.setBit R.timeStatus F.timeStatus_lpValid true; s.lpValid = true ∧
     n = min 3 (s.recentViolations.length + 1) ∧ (∀ b ∈ s.ubb.builds, b.launched = false)) ∧
    (let m : Msg := dMsg; let s : State := State.reset; 16 ≤ m.body.length ∧ m.parcel = false ∧ s.codeMatches m = true ∧
     (∀ b ∈ s.ubb.builds, b.launched = false)) ∧
    (let m : Msg := dMsg; let s : State := State.reset; 16 ≤ m.body.length ∧ m.parcel = false ∧ s.codeMatches m = true ∧
     (∀ b ∈ s.ubb.builds, b.launched = false)) := by
  refine ⟨?_, ?_, ?_, ?_, ?_, ?_, ?_, ?_, ?_, ?_, ?_⟩ <;> decide +kernel

/-- Operands and states that meet the hypotheses of `Obligations.FlowEntriesReplacedWhole`, in the order of its clauses. -/
theorem witness_FlowEntriesReplacedWhole :
    (let s : State := State.reset; let s : State := s.setBit R.ubbStatus F.ubbStatus_flowReady false; s.bit R.ubbStatus F.ubbStatus_flowReady = false) ∧
    (let v : Word := 0x10000 + 5 * 2 ^ 40; let s : State := State.reset; let s : State := s.setBit R.ubbStatus F.ubbStatus_flowReady true;
     s.bit R.ubbStatus F.ubbStatus_flowReady = true ∧ bitOf v.toNat 16 = true) ∧
    (let v : Word := 0; let s : State := State.reset; let s : State := s.setBit R.ubbStatus F.ubbStatus_flowReady true;
     s.bit R.ubbStatus F.ubbStatus_flowReady = true ∧ bitOf v.toNat 16 = false) ∧
    (let v : Word := 0x10000 + 5 * 2 ^ 40; let f : Nat := 0; let s : State := State.reset;
     let s : State := s.setBit R.ubbStatus F.ubbStatus_flowReady true; s.bit R.ubbStatus F.ubbStatus_flowReady = true ∧ bitOf v.toNat 16 = true ∧
     f ≠ bitsOf v.toNat 59 40) ∧
    (let v : Word := 0; let f : Nat := bitsOf v.toNat 59 40 + 1; let s : State := State.reset;
     let s : State := s.setBit R.ubbStatus F.ubbStatus_flowReady true; s.bit R.ubbStatus F.ubbStatus_flowReady = true ∧ bitOf v.toNat 16 = false ∧
     f ≠ bitsOf v.toNat 59 40) ∧
    (let v : Word := 0; let s : State := State.reset; let s : State := s.setBit R.ubbStatus F.ubbStatus_flowReady true;
     s.bit R.ubbStatus F.ubbStatus_flowReady = true ∧ bitOf v.toNat 16 = false ∧ (bitOf v.toNat 36 = false ∨ bitOf v.toNat 37 = true)) := by
  refine ⟨?_, ?_, ?_, ?_, ?_, ?_⟩ <;> decide +kernel

/-- Operands and states that meet the hypotheses of `Obligations.LateMessageIsOnlyCounted`, in the order of its clauses. -/
theorem witness_LateMessageIsOnlyCounted :
    (let m : Msg := { dMsg with env := BitVec.ofNat 64 (3 * 2 ^ 46) }; let s : State := State.reset;
     let s : State := { s with dfp := { s.dfp with msgq := [m] }, time := { s.time with frame := 9 } }; s.turnOf m (msgType m) = true ∧
     s.time.frame ≥ m.frame + 2) ∧
    (let m : Msg := { dMsg with env := BitVec.ofNat 64 (3 * 2 ^ 46) }; let i : Nat := 62; let j : Nat := 63; let s : State := State.reset;
     let s : State := { s with dfp := { s.dfp with msgq := [m] }, time := { s.time with frame := 9 } }; s.turnOf m (msgType m) = true ∧
     s.time.frame ≥ m.frame + 2 ∧ i ≤ j ∧ j < 64 ∧ (F.sysMediumCounts_lateApply.hi < i ∨ j < F.sysMediumCounts_lateApply.lo)) := by
  refine ⟨?_, ?_⟩ <;> decide +kernel

/-- Operands and states that meet the hypotheses of `Obligations.EnrolParamsRanges`, in the order of its clauses. -/
theorem witness_EnrolParamsRanges :
    (let m : Msg := { dMsg with env := BitVec.ofNat 64 (4 * 2 ^ 46), body := beBytes 16 (42500001 * 2 ^ 96) }; let s : State := State.reset;
     let s : State := ({ s with dfp := { s.dfp with msgq := [m] }, time := { s.time with frame := 4 } } : State).setBit R.timeStatus F.timeStatus_lpValid true;
     let s : State := s.setFld R.sysTermState F.sysTermState_under 2; s.atPoint m 4 ∧ 16 ≤ m.body.length ∧ (s.under = 2 ∨ s.under = 3) ∧
     s.termState ≠ 8 ∧ 42500000 < bodyField m.body 16 127 96) ∧
    (let m : Msg := { dMsg with env := BitVec.ofNat 64 (4 * 2 ^ 46) }; let s : State := State.reset;
     let s : State := ({ s with dfp := { s.dfp with msgq := [m] }, time := { s.time with frame := 4 } } : State).setBit R.timeStatus F.timeStatus_lpValid true;
     let s : State := s.setFld R.sysTermState F.sysTermState_under 2; s.atPoint m 4 ∧ 16 ≤ m.body.length ∧ (s.under = 2 ∨ s.under = 3) ∧
     s.termState ≠ 8 ∧ bodyField m.body 16 127 96 ≤ 42500000) := by
  refine ⟨?_, ?_⟩ <;> (delta State.atPoint; decide +kernel)

/-- Operands and states that meet the hypotheses of `Obligations.HoldoverExpires`, in the order of its clauses. -/
theorem witness_HoldoverExpires :
    (let s : State := State.reset; let s : State := s.setFld R.sysTermState F.sysTermState_under 6; s.under = 6 ∧ s.heldOut s.enrol.tHold = true) := by decide +kernel

/-- Operands and states that meet the hypotheses of `Obligations.HubMessagesApplied`, in the order of its clauses. -/
theorem witness_HubMessagesApplied :
    (let m : Msg := { dMsg with env := BitVec.ofNat 64 (3 * 2 ^ 46) }; let s : State := State.reset;
     let s : State := ({ s with dfp := { s.dfp with msgq := [m] }, time := { s.time with frame := 4 } } : State).setBit R.timeStatus F.timeStatus_lpValid true;
     8 ≤ m.body.length ∧ bodyField m.body 8 63 59 < 24 ∧ s.atPoint m 3) ∧
    (let m : Msg := { dMsg with env := BitVec.ofNat 64 (2 * 2 ^ 46) }; let s : State := State.reset;
     let s : State := ({ s with dfp := { s.dfp with msgq := [m] }, time := { s.time with frame := 4 } } : State).setBit R.timeStatus F.timeStatus_lpValid true;
     8 ≤ m.body.length ∧ bodyField m.body 8 63 59 < 24 ∧ s.atPoint m 2 ∧ s.termState ≠ 8) ∧
    (let m : Msg := { dMsg with env := BitVec.ofNat 64 (4 * 2 ^ 46) }; let s : State := State.reset;
     let s : State := ({ s with dfp := { s.dfp with msgq := [m] }, time := { s.time with frame := 4 } } : State).setBit R.timeStatus F.timeStatus_lpValid true;
     let s : State := s.setFld R.sysTermState F.sysTermState_under 2; s.atPoint m 4 ∧ s.termState ≠ 8 ∧ 16 ≤ m.body.length ∧ s.under = 2 ∧
     bodyField m.body 16 127 96 ≤ 42500000) ∧
    (let p : Plane := 1;
     let m : Msg := { dMsg with env := BitVec.ofNat 64 (5 * 2 ^ 46), body := beBytes 24 (7 * 2 ^ 128 + 7 * 2 ^ 118 + p.val * 2 ^ 113) };
     let s : State := { State.reset with regs := [(R.sysSerial, 7)] };
     let s : State := ({ s with dfp := { s.dfp with msgq := [m] }, time := { s.time with frame := 4 } } : State).setBit R.timeStatus F.timeStatus_lpValid true;
     let s : State := s.setFld R.sysTermState F.sysTermState_under 3; let s : State := s.setPlaneState p 2; s.atPoint m 5 ∧ s.termState ≠ 8 ∧
     24 ≤ m.body.length ∧ bodyField m.body 24 191 128 = (s.reg R.sysSerial).toNat ∧ s.under = 3 ∧ bodyField m.body 24 127 118 ≤ 0x3FB ∧
     bodyField m.body 24 117 113 = p.val ∧ s.planeState p = 2) ∧
    (let p : Plane := 1; let m : Msg := { dMsg with env := BitVec.ofNat 64 (6 * 2 ^ 46), body := beBytes 16 (p.val * 2 ^ 123 + 1000 * 2 ^ 64) };
     let s : State := State.reset;
     let s : State := ({ s with dfp := { s.dfp with msgq := [m] }, time := { s.time with frame := 4 } } : State).setBit R.timeStatus F.timeStatus_lpValid true;
     let s : State := s.setPlaneState p 3; s.atPoint m 6 ∧ s.termState ≠ 8 ∧ 16 ≤ m.body.length ∧ bodyField m.body 16 127 123 = p.val ∧
     bodyField m.body 16 95 64 ≤ 42500000 ∧ (s.planeState p = 3 ∨ s.planeState p = 4)) ∧
    (let p : Plane := 1; let m : Msg := { dMsg with env := BitVec.ofNat 64 (7 * 2 ^ 46), body := beBytes 16 (p.val * 2 ^ 123) };
     let s : State := State.reset;
     let s : State := ({ s with dfp := { s.dfp with msgq := [m] }, time := { s.time with frame := 4 } } : State).setBit R.timeStatus F.timeStatus_lpValid true;
     let s : State := s.setPlaneState p 4; s.atPoint m 7 ∧ s.termState ≠ 8 ∧ 16 ≤ m.body.length ∧ bodyField m.body 16 127 123 = p.val ∧
     s.planeState p = 4 ∧ 0 ≤ s.adjusted m ∧ s.adjusted m ≤ 42500000) ∧
    (let p : Plane := 1; let m : Msg := { dMsg with env := BitVec.ofNat 64 (7 * 2 ^ 46), body := beBytes 16 (p.val * 2 ^ 123) };
     let s : State := State.reset;
     let s : State := ({ s with dfp := { s.dfp with msgq := [m] }, time := { s.time with frame := 4 } } : State).setBit R.timeStatus F.timeStatus_lpValid true;
     let s : State := s.setPlaneState p 4; let s : State := s.setFld (R.ubbPlaneEqd p) F.ubbPlaneEqd_eqd 42500001; s.atPoint m 7 ∧ s.termState ≠ 8 ∧
     16 ≤ m.body.length ∧ bodyField m.body 16 127 123 = p.val ∧ s.planeState p = 4 ∧ (s.adjusted m < 0 ∨ 42500000 < s.adjusted m)) ∧
    (let m : Msg := { dMsg with env := BitVec.ofNat 64 (8 * 2 ^ 46), body := beBytes 16 (2 ^ 1 * 2 ^ 104 + 5 * 2 ^ 0) };
     let s : State := State.reset;
     let s : State := ({ s with dfp := { s.dfp with msgq := [m] }, time := { s.time with frame := 4 } } : State).setBit R.timeStatus F.timeStatus_lpValid true;
     let s : State := s.setFld R.sysTermState F.sysTermState_under 4; s.atPoint m 8 ∧ s.termState ≠ 8 ∧ 16 ≤ m.body.length ∧
     (s.under = 4 ∨ s.under = 5)) ∧
    (let m : Msg := { dMsg with env := BitVec.ofNat 64 (9 * 2 ^ 46) }; let s : State := State.reset;
     let s : State := ({ s with dfp := { s.dfp with msgq := [m] }, time := { s.time with frame := 4 } } : State).setBit R.timeStatus F.timeStatus_lpValid true;
     s.atPoint m 9 ∧ s.termState ≠ 8 ∧ 8 ≤ m.body.length) ∧
    (let m : Msg := { dMsg with env := BitVec.ofNat 64 (10 * 2 ^ 46) }; let s : State := { State.reset with regs := [(R.sysSerial, 0)] };
     let s : State := ({ s with dfp := { s.dfp with msgq := [m] }, time := { s.time with frame := 4 } } : State).setBit R.timeStatus F.timeStatus_lpValid true;
     let s : State := s.setFld R.sysTermState F.sysTermState_under 4; s.atPoint m 10 ∧ s.termState ≠ 8 ∧ 8 ≤ m.body.length ∧
     bodyField m.body 8 63 0 = (s.reg R.sysSerial).toNat ∧ (s.under = 4 ∨ s.under = 5)) ∧
    (let m : Msg := { dMsg with env := BitVec.ofNat 64 (10 * 2 ^ 46), body := beBytes 8 (77 * 2 ^ 0) };
     let s : State := { State.reset with regs := [(R.sysSerial, 5)] };
     let s : State := ({ s with dfp := { s.dfp with msgq := [m] }, time := { s.time with frame := 4 } } : State).setBit R.timeStatus F.timeStatus_lpValid true;
     s.atPoint m 10 ∧ 8 ≤ m.body.length ∧ bodyField m.body 8 63 0 ≠ (s.reg R.sysSerial).toNat) ∧
    (let m : Msg := { dMsg with env := BitVec.ofNat 64 (15 * 2 ^ 46) }; let s : State := State.reset;
     let s : State := ({ s with dfp := { s.dfp with msgq := [m] }, time := { s.time with frame := 4 } } : State).setBit R.timeStatus F.timeStatus_lpValid true;
     s.atPoint m 15 ∧ s.termState ≠ 8 ∧ (∀ x ∈ s.ubb.msgs, x.typ ≠ 0x82) ∧ s.ubb.msgs.length < 64) ∧
    (let m : Msg := { dMsg with env := BitVec.ofNat 64 (6 * 2 ^ 46), body := [1] }; let s : State := State.reset;
     let s : State := ({ s with dfp := { s.dfp with msgq := [m] }, time := { s.time with frame := 4 } } : State).setBit R.timeStatus F.timeStatus_lpValid true;
     s.atPoint m 6 ∧ m.body.length < 16) ∧
    (let m : Msg := { dMsg with env := BitVec.ofNat 64 (4 * 2 ^ 46) }; let p : Plane := 1; let s : State := State.reset;
     let s : State := ({ s with dfp := { s.dfp with msgq := [m] }, time := { s.time with frame := 4 } } : State).setBit R.timeStatus F.timeStatus_lpValid true;
     let s : State := s.setFld R.sysTermState F.sysTermState_under 2; let s : State := s.setPlaneState p 2; s.atPoint m 4 ∧ s.termState ≠ 8 ∧
     16 ≤ m.body.length ∧ s.under = 2 ∧ bodyField m.body 16 127 96 ≤ 42500000 ∧ s.planeState p = 2) ∧
    (let p : Plane := 1; let q : Plane := 2;
     let m : Msg := { dMsg with env := BitVec.ofNat 64 (5 * 2 ^ 46), body := beBytes 24 (7 * 2 ^ 128 + 7 * 2 ^ 118 + p.val * 2 ^ 113) };
     let s : State := { State.reset with regs := [(R.sysSerial, 7)] };
     let s : State := ({ s with dfp := { s.dfp with msgq := [m] }, time := { s.time with frame := 4 } } : State).setBit R.timeStatus F.timeStatus_lpValid true;
     let s : State := s.setFld R.sysTermState F.sysTermState_under 3; let s : State := s.setPlaneState p 2; s.atPoint m 5 ∧ s.termState ≠ 8 ∧
     24 ≤ m.body.length ∧ bodyField m.body 24 191 128 = (s.reg R.sysSerial).toNat ∧ s.under = 3 ∧ bodyField m.body 24 127 118 ≤ 0x3FB ∧
     bodyField m.body 24 117 113 = p.val ∧ s.planeState p = 2 ∧ q ≠ p) ∧
    (let p : Plane := 1; let m : Msg := { dMsg with env := BitVec.ofNat 64 (6 * 2 ^ 46), body := beBytes 16 (p.val * 2 ^ 123 + 1000 * 2 ^ 64) };
     let s : State := State.reset;
     let s : State := ({ s with dfp := { s.dfp with msgq := [m] }, time := { s.time with frame := 4 } } : State).setBit R.timeStatus F.timeStatus_lpValid true;
     let s : State := s.setPlaneState p 3; s.atPoint m 6 ∧ s.termState ≠ 8 ∧ 16 ≤ m.body.length ∧ bodyField m.body 16 127 123 = p.val ∧
     bodyField m.body 16 95 64 ≤ 42500000 ∧ (s.planeState p = 3 ∨ s.planeState p = 4) ∧ s.planeState p = 3) ∧
    (let p : Plane := 1; let m : Msg := { dMsg with env := BitVec.ofNat 64 (6 * 2 ^ 46), body := beBytes 16 (p.val * 2 ^ 123 + 1000 * 2 ^ 64) };
     let s : State := State.reset;
     let s : State := ({ s with dfp := { s.dfp with msgq := [m] }, time := { s.time with frame := 4 } } : State).setBit R.timeStatus F.timeStatus_lpValid true;
     let s : State := s.setPlaneState p 3; let s : State := s.setFld R.sysTermState F.sysTermState_under 4; s.atPoint m 6 ∧ s.termState ≠ 8 ∧
     16 ≤ m.body.length ∧ bodyField m.body 16 127 123 = p.val ∧ bodyField m.body 16 95 64 ≤ 42500000 ∧ (s.planeState p = 3 ∨ s.planeState p = 4) ∧
     s.planeState p = 3 ∧ 4 ≤ s.under) ∧
    (let p : Plane := 1; let m : Msg := { dMsg with env := BitVec.ofNat 64 (6 * 2 ^ 46), body := beBytes 16 (p.val * 2 ^ 123 + 1000 * 2 ^ 64) };
     let s : State := State.reset;
     let s : State := ({ s with dfp := { s.dfp with msgq := [m] }, time := { s.time with frame := 4 } } : State).setBit R.timeStatus F.timeStatus_lpValid true;
     let s : State := s.setPlaneState p 3; let s : State := s.setFld R.sysTermState F.sysTermState_under 4; let s : State := s.alignAt p;
     s.atPoint m 6 ∧ s.termState ≠ 8 ∧ 16 ≤ m.body.length ∧ bodyField m.body 16 127 123 = p.val ∧ bodyField m.body 16 95 64 ≤ 42500000 ∧
     (s.planeState p = 3 ∨ s.planeState p = 4) ∧ s.planeState p = 3 ∧ s.under = 4 ∧ s.aligned p = true) ∧
    (let m : Msg := { dMsg with env := BitVec.ofNat 64 (8 * 2 ^ 46), body := beBytes 16 (2 ^ 1 * 2 ^ 104 + 5 * 2 ^ 0) }; let p : Plane := 1;
     let s : State := State.reset;
     let s : State := ({ s with dfp := { s.dfp with msgq := [m] }, time := { s.time with frame := 4 } } : State).setBit R.timeStatus F.timeStatus_lpValid true;
     let s : State := s.setFld R.sysTermState F.sysTermState_under 4; let s : State := s.setPlaneState p 2; s.atPoint m 8 ∧ s.termState ≠ 8 ∧
     16 ≤ m.body.length ∧ (s.under = 4 ∨ s.under = 5) ∧ bitOf (bodyField m.body 16 127 104) p = true ∧ s.planeState p = 2) ∧
    (let m : Msg := { dMsg with env := BitVec.ofNat 64 (8 * 2 ^ 46), body := beBytes 16 (2 ^ 1 * 2 ^ 104 + 5 * 2 ^ 0) }; let p : Plane := 1;
     let s : State := State.reset;
     let s : State := ({ s with dfp := { s.dfp with msgq := [m] }, time := { s.time with frame := 4 } } : State).setBit R.timeStatus F.timeStatus_lpValid true;
     let s : State := s.setFld R.sysTermState F.sysTermState_under 4; let s : State := s.setPlaneState p 2; s.atPoint m 8 ∧ s.termState ≠ 8 ∧
     16 ≤ m.body.length ∧ (s.under = 4 ∨ s.under = 5) ∧ bodyField m.body 16 127 104 = 2 ^ p.val ∧ s.planeState p = 2) ∧
    (let m : Msg := { dMsg with env := BitVec.ofNat 64 (9 * 2 ^ 46), body := beBytes 8 (2 ^ 41) }; let p : Plane := 1; let s : State := State.reset;
     let s : State := ({ s with dfp := { s.dfp with msgq := [m] }, time := { s.time with frame := 4 } } : State).setBit R.timeStatus F.timeStatus_lpValid true;
     let s : State := s.setPlaneState p 3; s.atPoint m 9 ∧ s.termState ≠ 8 ∧ 8 ≤ m.body.length ∧ bitOf (bodyField m.body 8 63 40) p = true ∧
     (s.planeState p = 3 ∨ s.planeState p = 4)) ∧
    (let m : Msg := { dMsg with env := BitVec.ofNat 64 (9 * 2 ^ 46) }; let p : Plane := 1; let s : State := State.reset;
     let s : State := ({ s with dfp := { s.dfp with msgq := [m] }, time := { s.time with frame := 4 } } : State).setBit R.timeStatus F.timeStatus_lpValid true;
     let s : State := s.setFld R.sysTermState F.sysTermState_under 5; let s : State := s.alignAt p; s.atPoint m 9 ∧ s.termState ≠ 8 ∧
     8 ≤ m.body.length ∧ s.under = 5 ∧ s.aligned p = true) := by
  refine ⟨?_, ?_, ?_, ?_, ?_, ?_, ?_, ?_, ?_, ?_, ?_, ?_, ?_, ?_, ?_, ?_, ?_, ?_, ?_, ?_, ?_, ?_⟩ <;> (delta State.atPoint; decide +kernel)

/-- Operands and states that meet the hypotheses of `Obligations.TerminalAndPlaneEvents`, in the order of its clauses. -/
theorem witness_TerminalAndPlaneEvents :
    (let s : State := State.reset; let s : State := s.setBit R.dfpStatus F.dfpStatus_ownReady true;
     let s : State := s.setBit R.ubbStatus F.ubbStatus_flowReady true; s.startable = true ∧ s.startReady = true) ∧
    (let s : State := State.reset; s.startable = true ∧ s.startReady = false) ∧
    (let s : State := State.reset; s.termState ≠ 8) ∧
    (let p : Plane := 1; let s : State := State.reset; let s : State := s.alignAt p; let s : State := s.setPlaneState p 1; s.aligned p = true ∧
     s.unsup p = false ∧ s.planeState p = 1) ∧
    (let p : Plane := 1; let s : State := State.reset; let s : State := s.setPlaneState p 2; s.aligned p = false ∧ s.planeState p = 2) ∧
    (let s : State := State.reset; let s : State := s.setBit R.wardStatus F.wardStatus_fatal true; s.bit R.wardStatus F.wardStatus_fatal = true) ∧
    (let s : State := State.reset; let s : State := s.setBit R.wardStatus F.wardStatus_fatal false;
     let s : State := s.setBit R.wardStatus F.wardStatus_permanent true; s.bit R.wardStatus F.wardStatus_fatal = false ∧
     s.bit R.wardStatus F.wardStatus_permanent = true) ∧
    (let s : State := State.reset; let s : State := s.setBit R.wardStatus F.wardStatus_fatal false;
     let s : State := s.setBit R.wardStatus F.wardStatus_permanent false; let s : State := s.setBit R.wardStatus F.wardStatus_locked true;
     s.bit R.wardStatus F.wardStatus_fatal = false ∧ s.bit R.wardStatus F.wardStatus_permanent = false ∧ s.termState ≠ 8 ∧ s.under ≠ 8 ∧
     s.locked = true) ∧
    (let s : State := State.reset; let s : State := s.setBit R.wardStatus F.wardStatus_fatal false;
     let s : State := s.setBit R.wardStatus F.wardStatus_permanent false; let s : State := s.setFld R.sysTermState F.sysTermState_state 7;
     s.bit R.wardStatus F.wardStatus_fatal = false ∧ s.bit R.wardStatus F.wardStatus_permanent = false ∧ s.termState = 7 ∧ s.under ≠ 8 ∧
     s.locked = false) ∧
    (let s : State := State.reset; let s : State := s.setFld R.sysTermState F.sysTermState_under 1;
     let s : State := { s with enrol := { s.enrol with tAlign := true } }; s.under = 1 ∧ s.enrol.tAlign = true) ∧
    (let s : State := State.reset; let s : State := s.setFld R.sysTermState F.sysTermState_under 3;
     let s : State := { s with enrol := { s.enrol with tEnrol := true } }; s.under = 3 ∧ s.enrol.tEnrol = true) ∧
    (let p : Plane := 1; let s : State := State.reset; let s : State := s.setPlaneState p 3;
     let s : State := s.setEplane p { s.eplane p with tRange := true }; s.planeState p = 3 ∧ (s.eplane p).tRange = true) ∧
    (let p : Plane := 1; let s : State := State.reset; let s : State := s.setPlaneState p 3; (s.planeState p = 3 ∨ s.planeState p = 4) ∧
     s.aligned p = false ∧ s.heldOut (s.eplane p).tHold = true) ∧
    (let a : Nat := 1; let w : Nat := 2; let s : State := State.reset; let s : State := s.setFld R.sysTermState F.sysTermState_under 3;
     let s : State := s.setBit R.timeStatus F.timeStatus_lpValid true; let s : State := { s with enrol := { s.enrol with attempt := some (1, 2) } };
     let s : State := { s with time := { s.time with frame := 5 } }; s.under = 3 ∧ s.enrol.attempt = some (a, w) ∧ s.lpValid = true ∧
     a + w ≤ s.time.frame ∧ s.ubb.msgs.length < 64) ∧
    (let f : Nat := 0; let s : State := State.reset; let s : State := s.setFld R.sysTermState F.sysTermState_under 3;
     let s : State := { s with enrol := { s.enrol with taken := some f } }; let s : State := { s with time := { s.time with frame := 2 } };
     s.under = 3 ∧ s.enrol.taken = some f ∧ f + s.enrol.answerNow + 1 ≤ s.time.frame ∧ s.enrol.beMax ≤ 12) ∧
    (let q : Plane := 1; let s : State := State.reset; let s : State := s.setFld (R.pwrDom (11 + q / 4)) F.pwrDom_state 2;
     let s : State := s.setBit R.dfpStatus F.dfpStatus_ownReady true; let s : State := s.setBit R.ubbStatus F.ubbStatus_flowReady true;
     s.startable = true ∧ s.startReady = true ∧ s.domOn (11 + q / 4) = true) ∧
    (let s : State := State.reset; let s : State := s.setBit R.dfpStatus F.dfpStatus_ownReady true;
     let s : State := s.setBit R.ubbStatus F.ubbStatus_flowReady true; s.startable = true ∧ s.startReady = true ∧
     (∀ q, q < 24 → s.domOn (11 + q / 4) = false)) ∧
    (let s : State := State.reset; s.termState ≠ 8 ∧ (∀ q : Plane, s.bit (R.medLaneCfg q) F.medLaneCfg_laneEn = false)) ∧
    (let p : Plane := 1; let s : State := State.reset; let s : State := s.alignAt p; let s : State := s.setPlaneState p 1;
     let s : State := s.setFld R.sysTermState F.sysTermState_under 1; s.aligned p = true ∧ s.unsup p = false ∧ s.planeState p = 1 ∧ s.under = 1) ∧
    (let p : Plane := 1; let s : State := State.reset; let s : State := s.setPlaneState p 2;
     let s : State := s.setFld R.sysTermState F.sysTermState_under 4; s.aligned p = false ∧ s.planeState p = 2 ∧ (s.under = 4 ∨ s.under = 5) ∧
     (∀ q : Plane, s.aligned q = false)) ∧
    (let s : State := State.reset; let s : State := s.setFld R.sysTermState F.sysTermState_under 1;
     let s : State := { s with enrol := { s.enrol with tAlign := true } }; s.under = 1 ∧ s.enrol.tAlign = true ∧
     (∀ q : Plane, s.bit (R.medLaneCfg q) F.medLaneCfg_laneEn = false)) := by
  refine ⟨?_, ?_, ?_, ?_, ?_, ?_, ?_, ?_, ?_, ?_, ?_, ?_, ?_, ?_, ?_, ?_, ?_, ?_, ?_, ?_, ?_⟩ <;> decide +kernel

/-- Operands and states that meet the hypotheses of `Obligations.MediumTimeFollowsAnchors`, in the order of its clauses. -/
theorem witness_MediumTimeFollowsAnchors :
    (let m : Msg := dMsg; let s : State := State.reset; let s : State := s.setBit R.timeStatus F.timeStatus_lpValid true;
     let s : State := s.setBit (R.timePlaneRtd m.plane) F.timePlaneRtd_valid true; 24 ≤ m.body.length ∧ s.lpValid = true ∧
     s.rtdValid m.plane = true ∧ bodyField m.body 24 191 144 ≤ m.frame ∧ m.frame ≤ bodyField m.body 24 191 144 + 15) ∧
    (let m : Msg := dMsg; let s : State := State.reset; 24 ≤ m.body.length ∧
     (s.lpValid = false ∨ s.rtdValid m.plane = false ∨ m.frame < bodyField m.body 24 191 144 ∨ bodyField m.body 24 191 144 + 15 < m.frame)) ∧
    (let s : State := State.reset; s.lpValid = false) ∧
    (let s : State := State.reset; let s : State := s.setBit R.timeStatus F.timeStatus_lpValid true; s.lpValid = true) ∧
    (let f : Nat := 0; let s : State := State.reset; let s : State := { s with time := { s.time with tAnchor := some f } }; s.time.tAnchor = some f ∧
     f ≤ s.time.frame) ∧
    (let f : Nat := 0; let s : State := State.reset; let s : State := { s with time := { s.time with fly := some f } };
     let s : State := s.setBit R.timeStatus F.timeStatus_lpValid true; let s : State := { s with time := { s.time with frame := 9 } };
     s.time.fly = some f ∧ s.lpValid = true ∧ (∀ p : Plane, s.aligned p = false) ∧ f + 8 ≤ s.time.frame) ∧
    (let s : State := State.reset; let s : State := s.setBit R.timeStatus F.timeStatus_lpValid true;
     let d : Int := clampI ((max 1 (s.fld R.timeCfg F.timeCfg_slewStep) : Nat) : Int) s.time.residual; s.lpValid = true ∧
     d = clampI ((max 1 (s.fld R.timeCfg F.timeCfg_slewStep) : Nat) : Int) s.time.residual ∧
     (∀ e ∈ s.time.estimates, e.frame = s.time.frame → e.primary = false)) ∧
    (let e : Estimate := ⟨1, 5, 7, true⟩; let s : State := State.reset; let s : State := s.setBit R.timeStatus F.timeStatus_lpValid true;
     let s : State := s.setBit R.timeStatus F.timeStatus_mtValid false;
     let s : State := { s with time := { s.time with estimates := [e], frame := 5, tF := 0 } }; s.lpValid = true ∧ s.time.estimates = [e] ∧
     e.primary = true ∧ e.frame = s.time.frame ∧ s.bit R.timeStatus F.timeStatus_mtValid = false) ∧
    (let e : Estimate := ⟨1, 5, 10 ^ 15, true⟩; let s : State := State.reset; let s : State := s.setBit R.timeStatus F.timeStatus_lpValid true;
     let s : State := s.setBit R.timeStatus F.timeStatus_mtValid true;
     let s : State := { s with time := { s.time with estimates := [e], frame := 5, tF := 0 } };
     let s : State := s.setBit R.timeStatus F.timeStatus_mtValid true; let err : Int := e.value - (s.time.tF + 125000 * 65536); s.lpValid = true ∧
     s.time.estimates = [e] ∧ e.primary = true ∧ e.frame = s.time.frame ∧ s.bit R.timeStatus F.timeStatus_mtValid = true ∧
     err = e.value - (s.time.tF + 125000 * 65536) ∧ (s.stepThr < err ∨ err < -s.stepThr)) ∧
    (let e : Estimate := ⟨1, 5, 125000 * 65536 + 1, true⟩; let s : State := State.reset;
     let s : State := s.setBit R.timeStatus F.timeStatus_lpValid true; let s : State := s.setBit R.timeStatus F.timeStatus_mtValid true;
     let s : State := { s with time := { s.time with estimates := [e], frame := 5, tF := 0 } };
     let s : State := s.setBit R.timeStatus F.timeStatus_mtValid true; let err : Int := e.value - (s.time.tF + 125000 * 65536); s.lpValid = true ∧
     s.time.estimates = [e] ∧ e.primary = true ∧ e.frame = s.time.frame ∧ s.bit R.timeStatus F.timeStatus_mtValid = true ∧
     err = e.value - (s.time.tF + 125000 * 65536) ∧ (¬(s.stepThr < err ∨ err < -s.stepThr))) ∧
    (let e : Estimate := ⟨1, 5, 7, true⟩; let s : State := State.reset; let s : State := s.setBit R.timeStatus F.timeStatus_lpValid true;
     let s : State := { s with time := { s.time with estimates := [e], frame := 5, tF := 0 } }; s.lpValid = true ∧ s.time.estimates = [e] ∧
     e.primary = true ∧ e.frame = s.time.frame) ∧
    (let f : Nat := 0; let s : State := State.reset; let s : State := { s with time := { s.time with tAnchor := some f } };
     let s : State := s.setFld R.timeStatus F.timeStatus_code 2; s.time.tAnchor = some f ∧ f ≤ s.time.frame ∧
     s.fld R.timeStatus F.timeStatus_code = 2) ∧
    (let f : Nat := 0; let s : State := State.reset; let s : State := { s with time := { s.time with tAnchor := some f } };
     let s : State := s.setFld R.timeStatus F.timeStatus_code 0; s.time.tAnchor = some f ∧ f ≤ s.time.frame ∧
     s.fld R.timeStatus F.timeStatus_code ≠ 2) ∧
    (let f : Nat := 0; let i : Fin 8 := 1; let s : State := State.reset; let s : State := { s with time := { s.time with fly := some f } };
     let s : State := s.setBit R.timeStatus F.timeStatus_lpValid true; let s : State := { s with time := { s.time with frame := 9 } };
     s.time.fly = some f ∧ s.lpValid = true ∧ (∀ p : Plane, s.aligned p = false) ∧ f + 8 ≤ s.time.frame ∧ s.tpoTimeMode i = false) ∧
    (let f : Nat := 0; let s : State := State.reset; let s : State := { s with time := { s.time with fly := some f } };
     let s : State := s.setBit R.timeStatus F.timeStatus_lpValid true; let s : State := { s with ubb := { s.ubb with builds := [] } };
     let s : State := { s with twin := { s.twin with leadNext := none } }; let s : State := { s with time := { s.time with frame := 9 } };
     s.time.fly = some f ∧ s.lpValid = true ∧ (∀ p : Plane, s.aligned p = false) ∧ f + 8 ≤ s.time.frame ∧ s.ubb.builds = [] ∧ s.twin.leadNext = none) := by
  refine ⟨?_, ?_, ?_, ?_, ?_, ?_, ?_, ?_, ?_, ?_, ?_, ?_, ?_, ?_, ?_⟩ <;> decide +kernel

/-- Operands and states that meet the hypotheses of `Obligations.PulsesCapturesAndSnapshots`, in the order of its clauses. -/
theorem witness_PulsesCapturesAndSnapshots :
    (let i : Fin 8 := 1; let v : Word := 3; let per : Nat := 1; let s : State := State.reset;
     let s : State := s.setFld (R.timeTpoPeriod i) F.timeTpoPeriod_period per;
     let s : State := s.setFld (R.timeTpoPeriod i) F.timeTpoPeriod_period 1; bitOf v.toNat 0 = true ∧
     s.fld (R.timeTpoPeriod i) F.timeTpoPeriod_period = per ∧ per ≠ 0 ∧ ((bitOf v.toNat 1 = true ∧
     per < (8 * max 1 (bitsOf v.toNat 47 24) + 16) * 65536) ∨ (bitOf v.toNat 1 = false ∧
     per * 131072 < (8 * max 1 (bitsOf v.toNat 47 24) + 16) * 65536 * 425))) ∧
    (let i : Fin 8 := 1; let v : Word := 1; let per : Nat := 0; let s : State := State.reset;
     let s : State := s.setBit R.timeStatus F.timeStatus_lpValid true; let s : State := s.setFld (R.timeTpoPeriod i) F.timeTpoPeriod_period per;
     let s : State := { s with time := { s.time with frame := 0 } }; let s : State := s.setReg (R.timeTpoT0 i) 3; bitOf v.toNat 0 = true ∧
     bitOf v.toNat 1 = false ∧ s.lpValid = true ∧ s.fld (R.timeTpoPeriod i) F.timeTpoPeriod_period = per ∧
     (per = 0 ∨ (8 * max 1 (bitsOf v.toNat 47 24) + 16) * 65536 * 425 ≤ per * 131072) ∧ 16 * s.lpNow + 16 * 212500 ≤ s.tpoStart i false) ∧
    (let i : Fin 8 := 1; let v : Word := 1; let per : Nat := 0; let s : State := State.reset;
     let s : State := s.setBit R.timeStatus F.timeStatus_lpValid true; let s : State := s.setFld (R.timeTpoPeriod i) F.timeTpoPeriod_period per;
     bitOf v.toNat 0 = true ∧ bitOf v.toNat 1 = false ∧ s.lpValid = true ∧ s.fld (R.timeTpoPeriod i) F.timeTpoPeriod_period = per ∧
     (per = 0 ∨ (8 * max 1 (bitsOf v.toNat 47 24) + 16) * 65536 * 425 ≤ per * 131072) ∧ per = 0 ∧ s.tpoStart i false < 16 * s.lpNow + 16 * 212500) ∧
    (let i : Fin 8 := 1; let v : Word := 1; let per : Nat := 16000000; let s : State := State.reset;
     let s : State := s.setBit R.timeStatus F.timeStatus_lpValid true; let s : State := s.setFld (R.timeTpoPeriod i) F.timeTpoPeriod_period per;
     let s : State := s.setFld (R.timeTpoPeriod i) F.timeTpoPeriod_period 16000000; let s : State := { s with time := { s.time with frame := 2 } };
     bitOf v.toNat 0 = true ∧ bitOf v.toNat 1 = false ∧ s.lpValid = true ∧ s.fld (R.timeTpoPeriod i) F.timeTpoPeriod_period = per ∧
     (per = 0 ∨ (8 * max 1 (bitsOf v.toNat 47 24) + 16) * 65536 * 425 ≤ per * 131072) ∧ 0 < per ∧ s.tpoStart i false < 16 * s.lpNow) ∧
    (let i : Fin 8 := 1; let v : Word := 3; let per : Nat := 0; let s : State := State.reset;
     let s : State := s.setFld (R.timeTpoPeriod i) F.timeTpoPeriod_period per; let s : State := s.setBit R.timeStatus F.timeStatus_lpValid true;
     let s : State := s.setBit R.timeStatus F.timeStatus_mtValid true; let s : State := s.setReg (R.timeTpoT0 i) 1; bitOf v.toNat 0 = true ∧
     bitOf v.toNat 1 = true ∧ s.mediumTime = true ∧ s.fld (R.timeTpoPeriod i) F.timeTpoPeriod_period = per ∧
     (per = 0 ∨ (8 * max 1 (bitsOf v.toNat 47 24) + 16) * 65536 ≤ per) ∧ s.timeNow + 65536000 ≤ s.tpoStart i true) ∧
    (let i : Fin 8 := 1; let pos : Int := 0; let s : State := State.reset; let s : State := s.setBit (R.timeTpoCfg i) F.timeTpoCfg_armed true;
     let s : State := s.setBit R.timeStatus F.timeStatus_lpValid true; s.tpoArmed i = true ∧ ((s.tpoTimeMode i = false ∧ s.lpValid = true ∧
     pos = (s.pulse i).start + ((s.pulse i).k * (s.pulse i).period : Nat)) ∨ (s.tpoTimeMode i = true ∧ s.mediumTime = true ∧
     (s.pulse i).converted.head?.map (·.1) = some pos))) ∧
    (let j : Fin 5 := 1; let rising : Bool := true; let s : State := State.reset; let s : State := s.setFld (R.timeTciCfg j) F.timeTciCfg_edge 1;
     (if rising then s.fld (R.timeTciCfg j) F.timeTciCfg_edge % 2 else s.fld (R.timeTciCfg j) F.timeTciCfg_edge / 2) ≠ 0 ∧ (s.capture j).length < 16) ∧
    (let j : Fin 5 := 1; let rising : Bool := true; let s : State := State.reset; let s : State := s.setFld (R.timeTciCfg j) F.timeTciCfg_edge 1;
     let s : State := s.setCapture j (List.replicate 16 ⟨1, 2, 3, 4⟩);
     (if rising then s.fld (R.timeTciCfg j) F.timeTciCfg_edge % 2 else s.fld (R.timeTciCfg j) F.timeTciCfg_edge / 2) ≠ 0 ∧ 16 ≤ (s.capture j).length) ∧
    (let j : Fin 5 := 1; let x : Stamp := ⟨0,0,0,0⟩; let l : List Stamp := []; let s : State := State.reset;
     let s : State := s.setCapture j (x :: l); s.capture j = x :: l) ∧
    (let v : Word := 1; bitOf v.toNat 0 = true) ∧
    (let i : Fin 8 := 1; let pos : Int := 0; let s : State := State.reset; let s : State := s.setBit (R.timeTpoCfg i) F.timeTpoCfg_armed true;
     let s : State := s.setBit R.timeStatus F.timeStatus_lpValid true; s.tpoArmed i = true ∧ ((s.tpoTimeMode i = false ∧ s.lpValid = true ∧
     pos = (s.pulse i).start + ((s.pulse i).k * (s.pulse i).period : Nat)) ∨ (s.tpoTimeMode i = true ∧ s.mediumTime = true ∧
     (s.pulse i).converted.head?.map (·.1) = some pos)) ∧ s.tpoTimeMode i = false) ∧
    (let i : Fin 8 := 1; let pos : Int := 0; let s : State := State.reset; let s : State := s.setBit (R.timeTpoCfg i) F.timeTpoCfg_armed true;
     let s : State := s.setBit R.timeStatus F.timeStatus_lpValid true; let s : State := s.setBit (R.timeTpoCfg i) F.timeTpoCfg_mode true;
     let s : State := s.setBit R.timeStatus F.timeStatus_mtValid true; let s : State := s.setPulse i { s.pulse i with converted := [(0, 0)] };
     s.tpoArmed i = true ∧ ((s.tpoTimeMode i = false ∧ s.lpValid = true ∧
     pos = (s.pulse i).start + ((s.pulse i).k * (s.pulse i).period : Nat)) ∨ (s.tpoTimeMode i = true ∧ s.mediumTime = true ∧
     (s.pulse i).converted.head?.map (·.1) = some pos)) ∧ s.tpoTimeMode i = true) ∧
    (let i : Fin 8 := 1; let pos : Int := 0; let s : State := State.reset; let s : State := s.setBit (R.timeTpoCfg i) F.timeTpoCfg_armed true;
     let s : State := s.setBit R.timeStatus F.timeStatus_lpValid true; s.tpoArmed i = true ∧ ((s.tpoTimeMode i = false ∧ s.lpValid = true ∧
     pos = (s.pulse i).start + ((s.pulse i).k * (s.pulse i).period : Nat)) ∨ (s.tpoTimeMode i = true ∧ s.mediumTime = true ∧
     (s.pulse i).converted.head?.map (·.1) = some pos)) ∧ s.tpoHeld i = false) ∧
    (let i : Fin 8 := 1; let pos : Int := 0; let s : State := State.reset; let s : State := s.setBit (R.timeTpoCfg i) F.timeTpoCfg_armed true;
     let s : State := s.setBit R.timeStatus F.timeStatus_lpValid true; let s : State := s.setBit (R.timeTpoCfg i) F.timeTpoCfg_leadOnly true;
     let s : State := s.setFld R.sysStraps F.sysStraps_twinRole 1; let s : State := s.setBit R.hingeStatus F.hingeStatus_lead false;
     s.tpoArmed i = true ∧ ((s.tpoTimeMode i = false ∧ s.lpValid = true ∧
     pos = (s.pulse i).start + ((s.pulse i).k * (s.pulse i).period : Nat)) ∨ (s.tpoTimeMode i = true ∧ s.mediumTime = true ∧
     (s.pulse i).converted.head?.map (·.1) = some pos)) ∧ s.tpoHeld i = true) ∧
    (let j : Fin 5 := 1; let rising : Bool := true; let s : State := State.reset; let s : State := s.setFld (R.timeTciCfg j) F.timeTciCfg_edge 1;
     (if rising then s.fld (R.timeTciCfg j) F.timeTciCfg_edge % 2 else s.fld (R.timeTciCfg j) F.timeTciCfg_edge / 2) ≠ 0 ∧
     (s.capture j).length < 16 ∧ 0 ≤ s.timeNow + sext 16 (s.fld (R.timeTciCfg j) F.timeTciCfg_comp)) := by
  refine ⟨?_, ?_, ?_, ?_, ?_, ?_, ?_, ?_, ?_, ?_, ?_, ?_, ?_, ?_, ?_⟩ <;> decide +kernel

/-- Operands and states that meet the hypotheses of `Obligations.ClassifierRunsPacketsAndCommands`, in the order of its clauses. -/
theorem witness_ClassifierRunsPacketsAndCommands :
    (let d : Dir := .up; let n : Fin 8 := 1; let p : Pkt := dPkt; let l : List Pkt := []; let s : State := State.reset;
     let s : State := s.setPipe d n (p :: l); s.restarting Src.cls = false ∧ s.restarting d.src = false ∧ s.pipe d n = p :: l) ∧
    (let d : Dir := .up; let n : Fin 8 := 7;
     let p : Pkt := { dPkt with chan := 7, bytes := List.replicate 12 0 ++ [0x88, 0xF7] ++ List.replicate 44 0 }; let l : List Pkt := [];
     let s : State := State.reset; let s : State := s.setPipe d n (p :: l); s.restarting Src.cls = false ∧ s.restarting d.src = false ∧
     s.pipe d n = p :: l ∧ ptpEvent p = true) ∧
    (let d : Dir := .up; let n : Fin 8 := 1; let p : Pkt := dPkt; let l : List Pkt := []; let s : State := State.reset;
     let s : State := s.setPipe d n (p :: l); let s : State := s.svc d; s.restarting Src.cls = false ∧ s.restarting d.src = false ∧
     s.pipe d n = p :: l ∧ p.dir = d ∧ ptpEvent p = false ∧ s.service d = true ∧ (s.select { p with edition := s.edCur } (s.edCur % 3) = none)) ∧
    (let d : Dir := .up; let n : Fin 8 := 1; let p : Pkt := dPkt; let l : List Pkt := []; let k : Nat := 5;
     let e : ClsEntry := { words := [0, 0, 0, 0, 0, 0, 0, 0x100], valid := true }; let s : State := State.reset;
     let s : State := s.setPipe d n (p :: l); let s : State := s.svc d; let s : State := s.setClsEntry 1 (s.clsBank 1 (s.edCur % 3) + k) (e);
     let s : State := s.setClsEntry 0 (s.clsBank 0 (s.edCur % 3)) { words := [0, 0, 0, 0, 5], valid := true }; s.restarting Src.cls = false ∧
     s.restarting d.src = false ∧ s.pipe d n = p :: l ∧ p.dir = d ∧ p.ret = 0 ∧ ptpEvent p = false ∧ s.service d = true ∧
     (s.select { p with edition := s.edCur } (s.edCur % 3) = some k) ∧ s.clsEntry 1 (s.clsBank 1 (s.edCur % 3) + k) = e ∧ e.valid = true ∧
     (∀ c ∈ e.checks, ckEn c = false) ∧ (∀ x ∈ e.extractors, exDest x = 0) ∧ bitsOf (e.word 7) 10 9 = 0 ∧ bitOf (e.word 7) 8 = true) ∧
    (let d : Dir := .up; let n : Fin 8 := 1; let p : Pkt := dPkt; let l : List Pkt := []; let s : State := State.reset;
     let s : State := s.setPipe d n (p :: l); let s : State := s.setFld R.clsCfg F.clsCfg_obsAct 1; s.restarting Src.cls = false ∧
     s.restarting d.src = false ∧ s.pipe d n = p :: l ∧ p.dir = d ∧ ptpEvent p = false ∧ s.service d = false ∧ s.fld R.clsCfg F.clsCfg_obsAct = 1 ∧
     (s.select { p with edition := s.edCur } (s.edCur % 3) = none)) ∧
    (let v : Word := 3 * 2 ^ 60 + 7 * 2 ^ 32; let u : Nat := 3; let i : Nat := 7; let s : State := State.reset;
     let s : State := s.setFld R.clsCmd F.clsCmd_status 0; let s : State := s.setBit R.clsStatus F.clsStatus_ready true; bitsOf v.toNat 62 60 = u ∧
     bitsOf v.toNat 51 32 = i ∧ (u = 3 ∨ u = 4) ∧ i < clsSize u ∧ s.edMode u = false ∧ s.edSweep = false ∧ s.fld R.clsCmd F.clsCmd_status ≠ 1 ∧
     s.bit R.clsStatus F.clsStatus_ready = true) ∧
    (let s : State := State.reset; let s : State := s.setFld R.clsCmd F.clsCmd_status 1; s.fld R.clsCmd F.clsCmd_status = 1 ∧ s.edSweep = false) ∧
    (let s : State := State.reset; let s : State := s.setFld R.clsCmd F.clsCmd_status 1; let s : State := s.setFld R.clsCmd F.clsCmd_table 5;
     let s : State := s.setFld R.clsCmd F.clsCmd_op 1; let i := s.fld R.clsCmd F.clsCmd_index; s.fld R.clsCmd F.clsCmd_status = 1 ∧
     s.edSweep = false ∧ s.fld R.clsCmd F.clsCmd_table = 5 ∧ s.fld R.clsCmd F.clsCmd_op = 1 ∧ s.fld R.clsCmd F.clsCmd_index = i ∧ i < 4096) ∧
    (let s : State := State.reset; let s : State := s.setFld R.clsCmd F.clsCmd_status 1; let s : State := s.setFld R.clsCmd F.clsCmd_table 3;
     let s : State := s.setFld R.clsCmd F.clsCmd_op 1; let i := s.fld R.clsCmd F.clsCmd_index; s.fld R.clsCmd F.clsCmd_status = 1 ∧
     s.edSweep = false ∧ s.fld R.clsCmd F.clsCmd_table = 3 ∧ s.fld R.clsCmd F.clsCmd_op = 1 ∧ s.fld R.clsCmd F.clsCmd_index = i ∧ i < 65536 ∧
     s.edMode 3 = false) ∧
    (let i := 7; let s : State := State.reset; let s : State := s.setFld R.clsCmd F.clsCmd_status 1;
     let s : State := s.setFld R.clsCmd F.clsCmd_table 3; let s : State := s.setFld R.clsCmd F.clsCmd_op 1;
     let s : State := s.setFld R.clsCmd F.clsCmd_index i;
     let s : State := s.setFld R.clsTableMode F.clsTableMode_mode (s.fld R.clsTableMode F.clsTableMode_mode ||| 2 ^ 3);
     s.fld R.clsCmd F.clsCmd_status = 1 ∧ s.edSweep = false ∧ s.fld R.clsCmd F.clsCmd_table = 3 ∧ s.fld R.clsCmd F.clsCmd_op = 1 ∧
     s.fld R.clsCmd F.clsCmd_index = i ∧ i < 65536 ∧ s.edMode 3 = true ∧ s.edStage = false) ∧
    (let i := 7; let s : State := State.reset; let s : State := s.setFld R.clsCmd F.clsCmd_status 1;
     let s : State := s.setFld R.clsCmd F.clsCmd_table 3; let s : State := s.setFld R.clsCmd F.clsCmd_op 1;
     let s : State := s.setFld R.clsCmd F.clsCmd_index i;
     let s : State := s.setFld R.clsTableMode F.clsTableMode_mode (s.fld R.clsTableMode F.clsTableMode_mode ||| 2 ^ 3);
     let s : State := s.setBit R.clsEdStatus F.clsEdStatus_stageOpen true; let s : State := s.setClsEntry 3 i { words := [], v := 1 };
     s.fld R.clsCmd F.clsCmd_status = 1 ∧ s.edSweep = false ∧ s.fld R.clsCmd F.clsCmd_table = 3 ∧ s.fld R.clsCmd F.clsCmd_op = 1 ∧
     s.fld R.clsCmd F.clsCmd_index = i ∧ i < 65536 ∧ s.edMode 3 = true ∧ s.edStage = true ∧ bitOf (s.clsEntry 3 i).v (s.edCur % 3) = true) ∧
    (let s : State := State.reset; let s : State := s.setFld R.clsCmd F.clsCmd_status 1; let s : State := s.setFld R.clsCmd F.clsCmd_table 2;
     let s : State := s.setFld R.clsCmd F.clsCmd_op 2; s.fld R.clsCmd F.clsCmd_status = 1 ∧ s.edSweep = false ∧ s.fld R.clsCmd F.clsCmd_table = 2 ∧
     s.fld R.clsCmd F.clsCmd_op = 2 ∧ s.edMode 2 = false ∧
     (∀ e ∈ s.clsEntries 2, e.2.valid = true → ¬(e.2.flowProfile = (ClsEntry.flowProfile { words := s.clsWindow 2 }) ∧
     e.2.flowKeyOf = (ClsEntry.flowKeyOf { words := s.clsWindow 2 })))) ∧
    (let u : Nat := 0; let j : Nat := 0; let s : State := State.reset; let s : State := s.setFld R.clsCmd F.clsCmd_status 1;
     let s : State := s.setFld R.clsCmd F.clsCmd_table 5; let s : State := s.setFld R.clsCmd F.clsCmd_op 1; let i := s.fld R.clsCmd F.clsCmd_index;
     s.fld R.clsCmd F.clsCmd_status = 1 ∧ s.edSweep = false ∧ s.fld R.clsCmd F.clsCmd_table = 5 ∧ s.fld R.clsCmd F.clsCmd_op = 1 ∧
     s.fld R.clsCmd F.clsCmd_index = i ∧ i < 4096 ∧ u < 6 ∧ j < 2 ^ 21 ∧ ¬(u = 5 ∧ j = i)) ∧
    (let u : Nat := 0; let j : Nat := 0; let s : State := State.reset; let s : State := s.setFld R.clsCmd F.clsCmd_status 1;
     let s : State := s.setFld R.clsCmd F.clsCmd_table 3; let s : State := s.setFld R.clsCmd F.clsCmd_op 1; let i := s.fld R.clsCmd F.clsCmd_index;
     s.fld R.clsCmd F.clsCmd_status = 1 ∧ s.edSweep = false ∧ s.fld R.clsCmd F.clsCmd_table = 3 ∧ s.fld R.clsCmd F.clsCmd_op = 1 ∧
     s.fld R.clsCmd F.clsCmd_index = i ∧ i < 65536 ∧ s.edMode 3 = false ∧ u < 6 ∧ j < 2 ^ 21 ∧ ¬(u = 3 ∧ j = i)) := by
  refine ⟨?_, ?_, ?_, ?_, ?_, ?_, ?_, ?_, ?_, ?_, ?_, ?_, ?_, ?_⟩ <;> decide +kernel

/-- Operands and states that meet the hypotheses of `Obligations.EditionsFollowTheirRules`, in the order of its clauses. -/
theorem witness_EditionsFollowTheirRules :
    (let s : State := State.reset; let s : State := s.setBit R.clsEdStatus F.clsEdStatus_sweeping true; s.edSweep = true) ∧
    (let s : State := State.reset; let s : State := s.setBit R.clsEdStatus F.clsEdStatus_sweeping true; s.edSweep = true) ∧
    (let s : State := State.reset; let s : State := s.setBit R.clsEdStatus F.clsEdStatus_sweeping true; s.edSweep = true) ∧
    (let s : State := State.reset; let s : State := s.setBit R.clsEdStatus F.clsEdStatus_stageOpen true; s.edSweep = false ∧ s.edStage = true) ∧
    (let s : State := State.reset; s.edSweep = false ∧ s.edStage = false) ∧
    (let s : State := State.reset; s.edSweep = false ∧ s.edStage = false) ∧
    (let s : State := State.reset; s.edSweep = false ∧ s.edStage = false) ∧
    (let s : State := State.reset; let s : State := s.setBit R.clsEdStatus F.clsEdStatus_stageOpen true;
     let s : State := s.setBit R.clsEdStatus F.clsEdStatus_oldLive true; s.edSweep = false ∧ s.edStage = true ∧ s.edOldLive = true) ∧
    (let s : State := State.reset; let s : State := s.setBit R.clsEdStatus F.clsEdStatus_stageOpen true; s.edSweep = false ∧ s.edStage = true ∧
     s.edOldLive = false) ∧
    (let s : State := State.reset; let s : State := s.setBit R.clsEdStatus F.clsEdStatus_stageOpen true; s.edSweep = false ∧ s.edStage = true) ∧
    (let s : State := State.reset; let s : State := s.setBit R.clsEdStatus F.clsEdStatus_sweeping true;
     let s : State := { s with cls := { s.cls with modeNext := none } }; s.edSweep = true ∧ s.cls.modeNext = none) ∧
    (let s : State := State.reset; let s : State := s.setBit R.clsEdStatus F.clsEdStatus_stageOpen true;
     (s.edStage = true ∨ s.edOldLive = true ∨ s.edSweep = true)) ∧
    (let s : State := State.reset; s.edStage = false ∧ s.edOldLive = false ∧ s.edSweep = false) ∧
    (let m := 3; let s : State := State.reset; let s : State := s.setBit R.clsEdStatus F.clsEdStatus_sweeping true;
     let s : State := { s with cls := { s.cls with modeNext := some m } }; s.edSweep = true ∧ s.cls.modeNext = some m) ∧
    (let s : State := State.reset; let s : State := s.setBit R.clsEdStatus F.clsEdStatus_stageOpen true;
     let s : State := s.setFld R.clsCmd F.clsCmd_status 0; s.edSweep = false ∧ s.edStage = true ∧ s.edOldLive = false ∧
     s.fld R.clsCmd F.clsCmd_status ≠ 1) ∧
    (let s : State := State.reset; let s : State := s.setBit R.clsEdStatus F.clsEdStatus_stageOpen true;
     let s : State := s.setFld R.clsCmd F.clsCmd_status 0; s.edSweep = false ∧ s.edStage = true ∧ s.fld R.clsCmd F.clsCmd_status ≠ 1) ∧
    (let u : Nat := 2; let i : Nat := 0; let s : State := State.reset; let s : State := s.setBit R.clsEdStatus F.clsEdStatus_sweeping true;
     let s : State := { s with cls := { s.cls with modeNext := none } };
     let s : State := s.setFld R.clsTableMode F.clsTableMode_mode (s.fld R.clsTableMode F.clsTableMode_mode ||| 2 ^ 0);
     let s : State := s.setFld R.clsTableMode F.clsTableMode_mode (s.fld R.clsTableMode F.clsTableMode_mode ||| 2 ^ 1); s.edSweep = true ∧
     s.cls.modeNext = none ∧ Tbl.wf (fun _ => {}) s.cls.tables = true ∧ s.edMode 0 = true ∧ s.edMode 1 = true ∧ 2 ≤ u ∧ u ≤ 4 ∧ i < clsSize u) ∧
    (let u : Nat := 0; let i : Nat := 0; let s : State := State.reset; let s : State := s.setBit R.clsEdStatus F.clsEdStatus_sweeping true;
     let s : State := { s with cls := { s.cls with modeNext := none } };
     let s : State := s.setFld R.clsTableMode F.clsTableMode_mode (s.fld R.clsTableMode F.clsTableMode_mode ||| 2 ^ 0);
     let s : State := s.setFld R.clsTableMode F.clsTableMode_mode (s.fld R.clsTableMode F.clsTableMode_mode ||| 2 ^ 1); s.edSweep = true ∧
     s.cls.modeNext = none ∧ Tbl.wf (fun _ => {}) s.cls.tables = true ∧ s.edMode 0 = true ∧ s.edMode 1 = true ∧ u ≤ 1 ∧ i < clsSize u) := by
  refine ⟨?_, ?_, ?_, ?_, ?_, ?_, ?_, ?_, ?_, ?_, ?_, ?_, ?_, ?_, ?_, ?_, ?_, ?_⟩ <;> decide +kernel

/-- Operands and states that meet the hypotheses of `Obligations.QueuesAdmitSpillAndFlush`, in the order of its clauses. -/
theorem witness_QueuesAdmitSpillAndFlush :
    (let d : Dir := .up; let n : Fin 8 := 1; let p : Pkt := dPkt; let l : List Pkt := []; let s : State := State.reset;
     let s : State := s.setClassified d n (p :: l); s.classified d n = p :: l) ∧
    (let d : Dir := .up; let n : Fin 8 := 1; let p : Pkt := dPkt; let l : List Pkt := []; let c := 0; let s : State := State.reset;
     let s : State := s.setClassified d n (p :: l); s.restarting Src.qm = false ∧ s.classified d n = p :: l ∧ p.bad = false ∧ p.ret = 0 ∧ p.dir = d ∧
     s.admitCause p = some c) ∧
    (let d : Dir := .up; let n : Fin 8 := 1; let p : Pkt := { dPkt with queue := 5 }; let l : List Pkt := []; let s : State := State.reset;
     let s : State := s.setClassified d n (p :: l); let s : State := s.setQueue 5 { desc := 2 ^ 63 + 100 };
     let s : State := s.setFld R.qmHbmCfg F.qmHbmCfg_stackEn 3; let s : State := s.setFld R.qmHbmCfg F.qmHbmCfg_upGib 8;
     s.restarting Src.qm = false ∧ s.classified d n = p :: l ∧ p.bad = false ∧ p.ret = 0 ∧ p.dir = d ∧ s.admitCause p = none ∧ qUp p.queue = true) ∧
    (let d : Dir := .dn; let n : Fin 8 := 1; let p : Pkt := { dPkt with dir := .dn, queue := 0x2005 }; let l : List Pkt := [];
     let s : State := State.reset; let s : State := s.setClassified d n (p :: l); let s : State := s.setQueue 0x2005 { desc := 2 ^ 63 + 100 };
     s.restarting Src.qm = false ∧ s.classified d n = p :: l ∧ p.bad = false ∧ p.ret = 0 ∧ p.dir = d ∧ s.admitCause p = none ∧ qUp p.queue = false ∧
     s.spills p = false) ∧
    (let q : Fin 16384 := 1; let x : QPkt := ⟨dPkt, .writing, 0, 0, []⟩; let s : State := State.reset;
     let s : State := s.setQueue q { desc := 2 ^ 63, pkts := [x] }; (s.queue q).pkts.find? (fun p => p.medium == .writing) = some x) ∧
    (let q : Fin 16384 := 1; let x : QPkt := ⟨{ dPkt with dir := .dn }, .reading, 0, 0, [1]⟩; let s : State := State.reset;
     let s : State := s.setQueue q { desc := 2 ^ 63, pkts := [x] }; (s.queue q).pkts.find? (fun p => p.medium == .reading) = some x ∧
     cellsOf x.pkt.bytes.length ≤ s.dieFree x.pkt.dir) ∧
    (let v : Word := 0; let s : State := State.reset;
     (bitsOf v.toNat 63 44 < 65536 ∨ 786432 < bitsOf v.toNat 63 44 + 65536 ∨ bitsOf v.toNat 63 44 < s.dieUsed .up ∨ 786432 < bitsOf v.toNat 63 44 + s.dieUsed .dn)) ∧
    (let v : Word := 65536 * 2 ^ 44; let s : State := State.reset; 65536 ≤ bitsOf v.toNat 63 44 ∧ bitsOf v.toNat 63 44 + 65536 ≤ 786432 ∧
     s.dieUsed .up ≤ bitsOf v.toNat 63 44 ∧ bitsOf v.toNat 63 44 + s.dieUsed .dn ≤ 786432) ∧
    (let v : Word := 0; let gib : Nat := 32 * (bitsOf v.toNat 9 8 % 2 + bitsOf v.toNat 9 8 / 2); let up : Nat := bitsOf v.toNat 15 10;
     let s : State := State.reset; let area : Nat := min 8 (s.fld R.lschHbmArea F.lschHbmArea_gib);
     gib = 32 * (bitsOf v.toNat 9 8 % 2 + bitsOf v.toNat 9 8 / 2) ∧ area = min 8 (s.fld R.lschHbmArea F.lschHbmArea_gib) ∧
     up = bitsOf v.toNat 15 10 ∧
     (gib < up + 4 ∨ up < 4 ∨ gib < up + area + 4 ∨ up * cellsPerGib < s.hbmUsed .up ∨ (gib - up - area) * cellsPerGib < s.hbmUsed .dn)) ∧
    (let v : Word := 0x2300; let gib : Nat := 32 * (bitsOf v.toNat 9 8 % 2 + bitsOf v.toNat 9 8 / 2); let up : Nat := bitsOf v.toNat 15 10;
     let s : State := State.reset; let area : Nat := min 8 (s.fld R.lschHbmArea F.lschHbmArea_gib);
     gib = 32 * (bitsOf v.toNat 9 8 % 2 + bitsOf v.toNat 9 8 / 2) ∧ area = min 8 (s.fld R.lschHbmArea F.lschHbmArea_gib) ∧
     up = bitsOf v.toNat 15 10 ∧
     (¬(gib < up + 4 ∨ up < 4 ∨ gib < up + area + 4 ∨ up * cellsPerGib < s.hbmUsed .up ∨ (gib - up - area) * cellsPerGib < s.hbmUsed .dn))) ∧
    (let s : State := State.reset; let s : State := s.setFld R.qmCmd F.qmCmd_status 1; s.fld R.qmCmd F.qmCmd_status = 1) ∧
    (let s : State := State.reset; let s : State := s.setFld R.qmCmd F.qmCmd_status 1; let s : State := s.setFld R.qmCmd F.qmCmd_op 0;
     let q := s.fld R.qmCmd F.qmCmd_index; s.fld R.qmCmd F.qmCmd_status = 1 ∧ s.fld R.qmCmd F.qmCmd_index = q ∧ s.fld R.qmCmd F.qmCmd_op = 0) ∧
    (let s : State := State.reset; let s : State := s.setFld R.qmCmd F.qmCmd_status 1; let s : State := s.setFld R.qmCmd F.qmCmd_op 1;
     let q := s.fld R.qmCmd F.qmCmd_index; s.fld R.qmCmd F.qmCmd_status = 1 ∧ s.fld R.qmCmd F.qmCmd_index = q ∧ s.fld R.qmCmd F.qmCmd_op = 1) ∧
    (let s : State := State.reset; let s : State := s.setFld R.qmCmd F.qmCmd_status 1; let s : State := s.setFld R.qmCmd F.qmCmd_op 2;
     let q := s.fld R.qmCmd F.qmCmd_index; s.fld R.qmCmd F.qmCmd_status = 1 ∧ s.fld R.qmCmd F.qmCmd_index = q ∧ s.fld R.qmCmd F.qmCmd_op = 2) ∧
    (let d : Dir := .up; let n : Fin 8 := 1; let p : Pkt := { dPkt with bad := true }; let l : List Pkt := []; let s : State := State.reset;
     let s : State := s.setClassified d n (p :: l); s.classified d n = p :: l ∧ p.bad = true) ∧
    (let q : Fin 16384 := 1; let x : QPkt := ⟨dPkt, .writing, 0, 0, []⟩; let s : State := State.reset;
     let s : State := s.setQueue q { desc := 2 ^ 63, pkts := [x] }; (s.queue q).pkts.find? (fun p => p.medium == .writing) = some x ∧ s.isLead = true) ∧
    (let q : Fin 16384 := 1; let x : QPkt := ⟨dPkt, .writing, 0, 0, []⟩; let a : List QPkt := []; let b : List QPkt := [];
     let s : State := State.reset; let s : State := s.setQueue q { s.queue q with pkts := a ++ x :: b };
     let s : State := s.setQueue q { desc := 2 ^ 63, pkts := [x] }; (s.queue q).pkts.find? (fun p => p.medium == .writing) = some x ∧
     s.isLead = true ∧ (s.queue q).pkts = a ++ x :: b ∧ (∀ y ∈ a ++ b, y.pkt.id ≠ x.pkt.id)) ∧
    (let q : Fin 16384 := 1; let x : QPkt := ⟨{ dPkt with dir := .dn }, .reading, 0, 0, [1]⟩; let a : List QPkt := []; let b : List QPkt := [];
     let s : State := State.reset; let s : State := s.setQueue q { s.queue q with pkts := a ++ x :: b };
     let s : State := s.setQueue q { desc := 2 ^ 63, pkts := [x] }; (s.queue q).pkts.find? (fun p => p.medium == .reading) = some x ∧
     cellsOf x.pkt.bytes.length ≤ s.dieFree x.pkt.dir ∧ (s.queue q).pkts = a ++ x :: b ∧ (∀ y ∈ a ++ b, y.pkt.id ≠ x.pkt.id)) ∧
    (let s : State := State.reset; let s : State := s.setFld R.qmCmd F.qmCmd_status 1; let s : State := s.setFld R.qmCmd F.qmCmd_op 1;
     let q := s.fld R.qmCmd F.qmCmd_index; let p : Nat := q + 1; s.fld R.qmCmd F.qmCmd_status = 1 ∧ s.fld R.qmCmd F.qmCmd_index = q ∧
     s.fld R.qmCmd F.qmCmd_op = 1 ∧ p ≠ q) := by
  refine ⟨?_, ?_, ?_, ?_, ?_, ?_, ?_, ?_, ?_, ?_, ?_, ?_, ?_, ?_, ?_, ?_, ?_, ?_, ?_⟩ <;> decide +kernel

/-- Operands and states that meet the hypotheses of `Obligations.ArbiterWheelAndScheduler`, in the order of its clauses. -/
theorem witness_ArbiterWheelAndScheduler :
    (let ch : Fin 32 := 1; let pending : List HbmReq := [.dnWr, .lim]; let c : HbmChan := {}; let a : List HbmReq := [.upWr, .upRd];
     let b : List HbmReq := [.upWr, .upRd, .dnRd, .upWr, .upRd, .circ, .lim]; let w : HbmReq := .dnWr; let s : State := State.reset;
     s.hbmServes ch = true ∧ Tbl.get (fun _ => {}) s.qm.hbm ch = c ∧ c.ranks = a ++ w :: b ∧ w ∈ pending ∧ (∀ x ∈ a, x ∉ pending)) ∧
    (let ch : Fin 32 := 1; let pending : List HbmReq := []; let c : HbmChan := {}; let s : State := State.reset; s.hbmServes ch = true ∧
     Tbl.get (fun _ => {}) s.qm.hbm ch = c ∧ (∀ x ∈ c.ranks, x ∉ pending)) ∧
    (let c : Fin 128 := 96; 96 ≤ c.val ∧ c.val ≤ 119) ∧
    (let c : Fin 128 := 3; let p : Pkt := dPkt; let s : State := State.reset; let s : State := s.runPort c; let s : State := s.upLink c;
     let s : State := s.setQueue 0x2005 { desc := 2 ^ 63 + 100, pkts := [⟨dPkt, .die, 0, 0, []⟩] };
     let s : State := s.setNode 0x2005 { d0 := 2 ^ 63 + 7 * 2 ^ 46 + 1000 }; let s : State := s.setNode (groupKey 7) { d0 := 3 * 2 ^ 14 + 1000 };
     let u : State := ((s.selectFor 3 (s.egressStops 3) (fun _ => true)).map (·.2)).getD s; c.val < 96 ∧ s.restarting Src.qm = false ∧
     s.restarting (Src.cli (c.val / 8)) = false ∧ s.portRuns c = true ∧ s.linkIsUp c = true ∧
     s.selectFor c (s.egressStops c) (fun _ => true) = some (p, u) ∧ s.egressUsed c + p.bytes.length ≤ s.egressSize c) ∧
    (let h : Nat := 0; let c : Nat := 1; let e : Fin 128 := 120; let p : Pkt := { dPkt with queue := 0x3800 }; let s : State := State.reset;
     let s : State := s.setChState 1 1; let s : State := s.setFld (R.dmaChActCfg 1) F.dmaChActCfg_kind 2;
     let s : State := s.setFld (R.dmaChActCfg 1) F.dmaChActCfg_group 7; let s : State := s.setChan 1 { s.chan 1 with desc := some [] };
     let s : State := s.setQueue 0x3800 { desc := 2 ^ 63 + 100, pkts := [⟨{ dPkt with queue := 0x3800 }, .die, 0, 0, []⟩] };
     let s : State := s.setNode 0x3800 { d0 := 2 ^ 63 + 7 * 2 ^ 46 + 1000 }; let s : State := s.setNode (groupKey 7) { d0 := 120 * 2 ^ 14 + 1000 };
     let u : State := ((s.selectFor 120 (fun _ => false) (fun g => (s.rxChannel 0 g).isSome)).map (·.2)).getD s; e.val = 120 + h ∧ h ≤ 6 ∧
     s.restarting Src.qm = false ∧ s.selectFor e (fun _ => false) (fun g => (s.rxChannel h g).isSome) = some (p, u) ∧
     s.rxChannel h (s.node p.queue).group = some c) ∧
    (let s : State := State.reset; let s : State := s.setFld R.schCmd F.schCmd_status 1; s.fld R.schCmd F.schCmd_status = 1) ∧
    (let i := 7; let key := 7; let s : State := State.reset; let s : State := s.setFld R.schCmd F.schCmd_status 1;
     let s : State := s.setFld R.schCmd F.schCmd_index i; let s : State := s.setFld R.schCmd F.schCmd_op 0; s.fld R.schCmd F.schCmd_status = 1 ∧
     s.fld R.schCmd F.schCmd_index = i ∧ schKey (s.fld R.schCmd F.schCmd_table) i = some key ∧ s.fld R.schCmd F.schCmd_op = 0) ∧
    (let i := 7; let key := chanKey 7; let d1 : Word := 0; let s : State := State.reset; let s : State := s.setFld R.schCmd F.schCmd_status 1;
     let s : State := s.setFld R.schCmd F.schCmd_index i; let s : State := s.setFld R.schCmd F.schCmd_op 1;
     let s : State := s.setFld R.schCmd F.schCmd_table 2; s.fld R.schCmd F.schCmd_status = 1 ∧ s.fld R.schCmd F.schCmd_index = i ∧
     schKey (s.fld R.schCmd F.schCmd_table) i = some key ∧ s.fld R.schCmd F.schCmd_op = 1 ∧ s.fld R.schCmd F.schCmd_table = 2 ∧
     d1.toNat = (s.reg R.schData1).toNat &&& schD1Mask ∧ shaperChanged (s.node key).d1 d1 = false) ∧
    (let i := 7; let key := 7; let s : State := State.reset; let s : State := s.setFld R.schCmd F.schCmd_status 1;
     let s : State := s.setFld R.schCmd F.schCmd_index i; let s : State := s.setFld R.schCmd F.schCmd_op 1;
     let s : State := s.setFld R.schCmd F.schCmd_table 0; let s : State := s.setBit R.schData0 ⟨63, 63⟩ true;
     let s : State := s.setBit R.schData0 ⟨63, 63⟩ true; s.fld R.schCmd F.schCmd_status = 1 ∧ s.fld R.schCmd F.schCmd_index = i ∧
     schKey (s.fld R.schCmd F.schCmd_table) i = some key ∧ s.fld R.schCmd F.schCmd_op = 1 ∧ s.fld R.schCmd F.schCmd_table = 0 ∧
     s.bit R.schData0 ⟨63, 63⟩ = true ∧ chanKindOk i (s.node (groupKey (s.fld R.schData0 ⟨55, 46⟩))).channel = false) ∧
    (let k : Nat := 5; let s : State := State.reset; let s : State := s.setNode 5 { s.node 5 with held := some 1 };
     let s : State := { s with qm := { s.qm with wheel := [5] } }; s.qm.wheel.length ≤ clampN 1 64 (s.fld R.schCfg F.schCfg_batch) ∧ k ∈ s.qm.wheel ∧
     (s.node k).coarse = false ∧ (∃ e, (s.node k).held = some e ∧ e ≤ s.qm.tick + 1)) ∧
    (let i := 7; let key := 7; let k : Nat := 0; let s : State := State.reset; let s : State := s.setFld R.schCmd F.schCmd_status 1;
     let s : State := s.setFld R.schCmd F.schCmd_index i; let s : State := s.setFld R.schCmd F.schCmd_op 0; s.fld R.schCmd F.schCmd_status = 1 ∧
     s.fld R.schCmd F.schCmd_index = i ∧ schKey (s.fld R.schCmd F.schCmd_table) i = some key ∧ s.fld R.schCmd F.schCmd_op = 0 ∧ k ≠ key) ∧
    (let i := 7; let key := chanKey 7; let d1 : Word := 0; let k : Nat := 0; let s : State := State.reset;
     let s : State := s.setFld R.schCmd F.schCmd_status 1; let s : State := s.setFld R.schCmd F.schCmd_index i;
     let s : State := s.setFld R.schCmd F.schCmd_op 1; let s : State := s.setFld R.schCmd F.schCmd_table 2; s.fld R.schCmd F.schCmd_status = 1 ∧
     s.fld R.schCmd F.schCmd_index = i ∧ schKey (s.fld R.schCmd F.schCmd_table) i = some key ∧ s.fld R.schCmd F.schCmd_op = 1 ∧
     s.fld R.schCmd F.schCmd_table = 2 ∧ d1.toNat = (s.reg R.schData1).toNat &&& schD1Mask ∧ shaperChanged (s.node key).d1 d1 = false ∧ k ≠ key) := by
  refine ⟨?_, ?_, ?_, ?_, ?_, ?_, ?_, ?_, ?_, ?_, ?_, ?_⟩ <;> decide +kernel

/-- Operands and states that meet the hypotheses of `Obligations.PortModesAndLinks`, in the order of its clauses. -/
theorem witness_PortModesAndLinks :
    (let k : Port := 3; let v : Word := 2 * 2 ^ 32; let s : State := State.reset; let s : State := s.setBit (R.cliCfg k) F.cliCfg_portEn true;
     let s : State := s.runPort k; s.portMode k ≠ 15 ∧ bitsOf v.toNat 35 32 ≠ s.portMode k ∧
     (s.bit (R.cliCfg k) F.cliCfg_portEn = true ∨ s.modeOk k (bitsOf v.toNat 35 32) = false)) ∧
    (let k : Port := 3; let s : State := State.reset; let s : State := s.setFld (R.cliCfg k) F.cliCfg_mode 15; s.portMode k = 15) ∧
    (let k : Port := 3; let v : Word := 0; let s : State := State.reset; s.portMode k ≠ 15 ∧ ((bitsOf v.toNat 35 32 = s.portMode k ∧
     (s.bit (R.cliCfg k) F.cliCfg_portEn = false ∨ bitOf v.toNat 30 = s.bit (R.cliCfg k) F.cliCfg_rsfec25)) ∨ (s.bit (R.cliCfg k) F.cliCfg_portEn = false ∧
     s.modeOk k (bitsOf v.toNat 35 32) = true))) ∧
    (let k : Port := 3; let s : State := State.reset; let s : State := s.runPort k; s.restarting (Src.cli (k.val / 8)) = false ∧
     s.portRuns k = true ∧ s.linkIsUp k = false) ∧
    (let k : Port := 3; let lf : Bool := true; let rf : Bool := false; let bl : Bool := false; let am : Bool := false; let fl : Bool := false;
     let s : State := State.reset; let s : State := s.runPort k; s.portRuns k = true ∧
     (lf = true ∨ rf = true ∨ bl = false ∨ (modeMarkers (s.portMode k) = true ∧ am = false) ∨ (s.portFec k = true ∧ fl = false))) ∧
    (let k : Port := 3; let v : Word := 0; let s : State := State.reset; let s : State := s.setBit (R.cliCfg k) F.cliCfg_portEn true;
     s.portMode k ≠ 15 ∧ ((bitsOf v.toNat 35 32 = s.portMode k ∧
     (s.bit (R.cliCfg k) F.cliCfg_portEn = false ∨ bitOf v.toNat 30 = s.bit (R.cliCfg k) F.cliCfg_rsfec25)) ∨ (s.bit (R.cliCfg k) F.cliCfg_portEn = false ∧
     s.modeOk k (bitsOf v.toNat 35 32) = true)) ∧ s.bit (R.cliCfg k) F.cliCfg_portEn = true ∧ bitOf v.toNat 31 = false) ∧
    (let k : Port := 3; let v : Word := 0; let s : State := State.reset; let s : State := s.setBit (R.cliCfg k) F.cliCfg_portEn false;
     s.portMode k ≠ 15 ∧ ((bitsOf v.toNat 35 32 = s.portMode k ∧
     (s.bit (R.cliCfg k) F.cliCfg_portEn = false ∨ bitOf v.toNat 30 = s.bit (R.cliCfg k) F.cliCfg_rsfec25)) ∨ (s.bit (R.cliCfg k) F.cliCfg_portEn = false ∧
     s.modeOk k (bitsOf v.toNat 35 32) = true)) ∧ modeLanes (s.portMode k) = 1 ∧ modeLanes (bitsOf v.toNat 35 32) = 1 ∧
     (s.bit (R.cliCfg k) F.cliCfg_portEn = false ∨ bitOf v.toNat 31 = true)) ∧
    (let k : Port := 3; let s : State := State.reset; let s : State := s.runPort k; let s : State := s.setFld (R.cliCfg k) F.cliCfg_fcMode 0;
     s.restarting (Src.cli (k.val / 8)) = false ∧ s.portRuns k = true ∧ s.linkIsUp k = false ∧ s.fcMode k = 0) ∧
    (let k : Port := 3; let lf : Bool := true; let rf : Bool := false; let bl : Bool := false; let am : Bool := false; let fl : Bool := false;
     let s : State := State.reset; let s : State := s.runPort k; let s : State := s.upLink k; s.portRuns k = true ∧
     (lf = true ∨ rf = true ∨ bl = false ∨ (modeMarkers (s.portMode k) = true ∧ am = false) ∨ (s.portFec k = true ∧ fl = false)) ∧
     s.linkIsUp k = true) ∧
    (let k : Port := 3; let lf : Bool := true; let rf : Bool := false; let bl : Bool := false; let am : Bool := false; let fl : Bool := false;
     let s : State := State.reset; let s : State := s.runPort k; s.portRuns k = true ∧
     (lf = true ∨ rf = true ∨ bl = false ∨ (modeMarkers (s.portMode k) = true ∧ am = false) ∨ (s.portFec k = true ∧ fl = false)) ∧
     (∀ p ∈ (s.port k).egress, p.ret = 0)) := by
  refine ⟨?_, ?_, ?_, ?_, ?_, ?_, ?_, ?_, ?_, ?_⟩ <;> decide +kernel

/-- Operands and states that meet the hypotheses of `Obligations.ClientFramesAndFlowControl`, in the order of its clauses. -/
theorem witness_ClientFramesAndFlowControl :
    (let k : Port := 3; let f : ClientFrame := ⟨[], false⟩; let c : Nat := 1; let s : State := State.reset; let s : State := s.runPort k;
     s.portRuns k = true ∧ s.restarting (Src.cli (k.val / 8)) = false ∧ s.portLoops k 1 = false ∧
     c = (if f.pcsError then 7 else if f.bytes.length < 64 then 1 else if clampN 64 16387 (s.fld (R.cliRxCfg k) F.cliRxCfg_maxLen) < f.bytes.length then 2 else if s.daAccepted k f.bytes = false then 3 else 99) ∧
     c ≠ 99) ∧
    (let k : Port := 3; let f : ClientFrame := ⟨List.replicate 60 0 ++ ethFcs (List.replicate 60 0), false⟩; let s : State := State.reset;
     let s : State := s.runPort k; let s : State := s.setBit (R.cliRtagCfg k) F.cliRtagCfg_rxEn false;
     let s : State := s.setFld (R.pwrDom 5) F.pwrDom_state 2; let s : State := s.setBit (R.cliRxCfg k) F.cliRxCfg_promisc true;
     let s : State := s.setFld (R.pwrDom (Dir.up).domain) F.pwrDom_state 2; s.portRuns k = true ∧ s.restarting (Src.cli (k.val / 8)) = false ∧
     s.portLoops k 1 = false ∧ f.pcsError = false ∧ f.fcsOk = true ∧ 64 ≤ f.bytes.length ∧
     f.bytes.length ≤ clampN 64 16387 (s.fld (R.cliRxCfg k) F.cliRxCfg_maxLen) ∧ s.daAccepted k f.bytes = true ∧ etherType f.bytes 12 ≠ 0x8808 ∧
     s.macsecOn k = false ∧ s.bit (R.cliRtagCfg k) F.cliRtagCfg_rxEn = false ∧ s.restarting Src.qm = false ∧ s.domTakes 5 = true ∧
     cellsOf (f.bytes.length - 4) + s.fld R.qmPoolCfg F.qmPoolCfg_slowRes ≤ s.dieFree .up ∧ s.pipeFull .up (k.val % 8) = false) ∧
    (let k : Port := 3; let s : State := State.reset; let s : State := s.runPort k; let s : State := s.setFld (R.cliCfg k) F.cliCfg_fcMode 1;
     s.portRuns k = true ∧ s.fcMode k = 1) ∧
    (let k : Port := 3; let s : State := State.reset; let s : State := s.runPort k; s.portRuns k = true ∧ s.fcMode k ≠ 1) ∧
    (let k : Port := 3; let ts : List (BitVec 16) := [0, 1, 0, 0, 0, 0, 0, 0]; let s : State := State.reset; let s : State := s.runPort k;
     let s : State := s.setFld (R.cliCfg k) F.cliCfg_fcMode 2; s.portRuns k = true ∧ ts.length = 8 ∧ s.fcMode k = 2) ∧
    (let k : Port := 3; let ts : List (BitVec 16) := [0, 1, 0, 0, 0, 0, 0, 0]; let s : State := State.reset; let s : State := s.runPort k;
     s.portRuns k = true ∧ ts.length = 8 ∧ s.fcMode k ≠ 2) ∧
    (let k : Port := 3; let q : Nat := 0; let s : State := State.reset; let s : State := s.runFc k;
     let s : State := s.setFld (R.cliFcCfg k) F.cliFcCfg_force 1; s.fcRuns k = true ∧ q < 8 ∧ bitOf (s.port k).stop q = false ∧
     s.wantsStop k q = true) ∧
    (let k : Port := 3; let q : Nat := 0; let s : State := State.reset; let s : State := s.runFc k;
     let s : State := s.setPort k { s.port k with stop := 1 }; s.fcRuns k = true ∧ q < 8 ∧ bitOf (s.port k).stop q = true ∧ s.wantsGo k q = true) ∧
    (let k : Port := 3; let q : Nat := 0; let s : State := State.reset; let s : State := s.runFc k;
     let s : State := s.setPort k { s.port k with stop := 1 }; let s : State := s.setFld (R.cliFcCfg k) F.cliFcCfg_force 1; s.fcRuns k = true ∧
     q < 8 ∧ bitOf (s.port k).stop q = true ∧ s.wantsGo k q = false) ∧
    (let k : Port := 3; let c : List Byte := []; let l : List (List Byte) := []; let s : State := State.reset; let s : State := s.runPort k;
     let s : State := s.upLink k; let s : State := s.setPort k { s.port k with control := c :: l }; s.portRuns k = true ∧ s.linkIsUp k = true ∧
     s.portLoops k 1 = false ∧ s.portLoops k 2 = false ∧ (s.port k).control = c :: l) ∧
    (let k : Port := 3; let p : Pkt := dPkt; let s : State := State.reset; let s : State := s.runPort k; let s : State := s.upLink k;
     let s : State := s.setPort k { s.port k with control := [] }; let s : State := s.setPort k { s.port k with sealing := none };
     let s : State := s.setPort k { s.port k with egress := [p] }; let s : State := s.setPort k { s.port k with oper := none };
     let s : State := s.setPort k { s.port k with frozen := none }; s.portRuns k = true ∧ s.linkIsUp k = true ∧ s.portLoops k 1 = false ∧
     s.portLoops k 2 = false ∧ (s.port k).control = [] ∧ (s.port k).sealing = none ∧ (s.port k).egress = [p] ∧ (s.port k).oper = none ∧
     (s.port k).frozen = none ∧ bitOf (s.paused k) p.pri = false ∧ bitOf (s.gates k) p.pri = true ∧ s.macsecOn k = false ∧ p.act = 0 ∧
     (p.dir = .up ∨ p.seq = none)) ∧
    (let g : Fin 32 := 1; let h : Nat := 0; h ≠ g.val) ∧
    (let k : Port := 3; let ts : List (BitVec 16) := [0, 1, 0, 0, 0, 0, 0, 0]; let p : Nat := 0; let s : State := State.reset;
     let s : State := s.runPort k; let s : State := s.setFld (R.cliCfg k) F.cliCfg_fcMode 2; s.portRuns k = true ∧ ts.length = 8 ∧ s.fcMode k = 2 ∧
     p < 8) ∧
    (let p : Nat := 0; p < 8) ∧
    (let k : Port := 3; let q : Nat := 0; let s : State := State.reset; let s : State := s.runFc k;
     let s : State := s.setFld (R.cliCfg k) F.cliCfg_fcMode 1; let s : State := s.setPort k { s.port k with stop := 0 };
     let s : State := s.setFld (R.cliFcCfg k) F.cliFcCfg_force 1; s.fcRuns k = true ∧ q < 8 ∧ bitOf (s.port k).stop q = false ∧
     s.wantsStop k q = true ∧ s.fcMode k = 1 ∧ (s.port k).stop = 0) ∧
    (let k : Port := 3; let q : Nat := 0; let s : State := State.reset; let s : State := s.runFc k;
     let s : State := s.setFld (R.cliCfg k) F.cliCfg_fcMode 1; let s : State := s.setPort k { s.port k with stop := 1 };
     let s : State := s.setPort k { s.port k with stop := 255 }; s.fcRuns k = true ∧ q < 8 ∧ bitOf (s.port k).stop q = true ∧ s.wantsGo k q = true ∧
     s.fcMode k = 1 ∧ (s.port k).stop = 255) ∧
    (let k : Port := 3; let q : Nat := 0; let s : State := State.reset; let s : State := s.runFc k;
     let s : State := s.setFld (R.cliCfg k) F.cliCfg_fcMode 1; let s : State := s.setPort k { s.port k with stop := 1 };
     let s : State := s.setFld (R.cliFcCfg k) F.cliFcCfg_force 1; s.fcRuns k = true ∧ q < 8 ∧ bitOf (s.port k).stop q = true ∧
     s.wantsGo k q = false ∧ s.fcMode k = 1) := by
  refine ⟨?_, ?_, ?_, ?_, ?_, ?_, ?_, ?_, ?_, ?_, ?_, ?_, ?_, ?_, ?_, ?_, ?_⟩ <;> decide +kernel

/-- Operands and states that meet the hypotheses of `Obligations.GateLists`, in the order of its clauses. -/
theorem witness_GateLists :
    (let k : Port := 3; let s : State := State.reset; let s : State := s.setFld (R.cliCfg k) F.cliCfg_mode 15; s.portMode k = 15) ∧
    (let k : Port := 3; let s : State := State.reset; let s : State := s.setFld (R.cliCfg k) F.cliCfg_mode 15; s.portMode k = 15) ∧
    (let k : Port := 3; let s : State := State.reset; let s : State := s.setFld (R.cliCfg k) F.cliCfg_mode 15; s.portMode k = 15) ∧
    (let k : Port := 3; let s : State := State.reset; let s : State := s.setFld (R.cliCfg k) F.cliCfg_mode 15; s.portMode k = 15) ∧
    (let k : Port := 3; let s : State := State.reset; let s : State := s.setFld (R.cliCfg k) F.cliCfg_mode 15; s.portMode k = 15) ∧
    (let k : Port := 3; let s : State := State.reset; let s : State := s.setBit (R.cliGclStatus k) F.cliGclStatus_pending true; s.portMode k ≠ 15 ∧
     (s.bit (R.cliGclStatus k) F.cliGclStatus_pending = true ∨ 999999999 < s.fld (R.cliGclBaseNs k) F.cliGclBaseNs_ns)) ∧
    (let k : Port := 3; let s : State := State.reset; let s : State := s.setBit (R.cliGclStatus k) F.cliGclStatus_pending false;
     let cycle : Int := 65536 * (clampN 100 1000000000 (s.fld (R.cliGclCfg k) F.cliGclCfg_cycleNs) : Nat);
     let base : Int := 65536 * ((s.reg (R.cliGclBaseSec k)).toNat * 1000000000 + s.fld (R.cliGclBaseNs k) F.cliGclBaseNs_ns : Nat);
     let now : Int := s.timeNow; s.portMode k ≠ 15 ∧ s.bit (R.cliGclStatus k) F.cliGclStatus_pending = false ∧
     s.fld (R.cliGclBaseNs k) F.cliGclBaseNs_ns ≤ 999999999 ∧
     cycle = 65536 * (clampN 100 1000000000 (s.fld (R.cliGclCfg k) F.cliGclCfg_cycleNs) : Nat) ∧
     base = 65536 * ((s.reg (R.cliGclBaseSec k)).toNat * 1000000000 + s.fld (R.cliGclBaseNs k) F.cliGclBaseNs_ns : Nat) ∧ now = s.timeNow) ∧
    (let k : Port := 3; let s : State := State.reset; let s : State := s.setBit (R.cliGclStatus k) F.cliGclStatus_pending true; s.portMode k ≠ 15 ∧
     s.bit (R.cliGclStatus k) F.cliGclStatus_pending = true) ∧
    (let k : Port := 3; let s : State := State.reset; let s : State := s.setBit (R.cliGclStatus k) F.cliGclStatus_pending false; s.portMode k ≠ 15 ∧
     s.bit (R.cliGclStatus k) F.cliGclStatus_pending = false) ∧
    (let k : Port := 3; let s : State := State.reset; s.portMode k ≠ 15) ∧
    (let k : Port := 3; let s : State := State.reset; let s : State := s.setBit (R.cliGclAddr k) F.cliGclAddr_bank false;
     let s : State := s.setBit (R.cliGclStatus k) F.cliGclStatus_pending false; s.portMode k ≠ 15 ∧
     s.bit (R.cliGclAddr k) F.cliGclAddr_bank = false ∧ s.bit (R.cliGclStatus k) F.cliGclStatus_pending = false) ∧
    (let k : Port := 3; let s : State := State.reset; let s : State := s.setBit (R.cliGclAddr k) F.cliGclAddr_bank true; s.portMode k ≠ 15 ∧
     (s.bit (R.cliGclAddr k) F.cliGclAddr_bank = true ∨ s.bit (R.cliGclStatus k) F.cliGclStatus_pending = true)) ∧
    (let k : Port := 3; let s : State := State.reset; s.portMode k ≠ 15) ∧
    (let k : Port := 3; let l := default; let s : State := State.reset; let s : State := s.setPort k { s.port k with frozen := some l };
     (s.port k).frozen = some l) ∧
    (let k : Port := 3; let s : State := State.reset; let s : State := s.setPort k { s.port k with oper := some (0, 1000, 0) };
     let e := ((s.gateSpans k)[(s.spanIndex k + 1) % max 1 (s.gateSpans k).length]?).getD ⟨0, 0, 0⟩;
     (s.gateSpans k)[(s.spanIndex k + 1) % max 1 (s.gateSpans k).length]? = some e ∧ (s.port k).oper.isSome = true) := by
  refine ⟨?_, ?_, ?_, ?_, ?_, ?_, ?_, ?_, ?_, ?_, ?_, ?_, ?_, ?_, ?_⟩ <;> decide +kernel

/-- Operands and states that meet the hypotheses of `Obligations.CircuitCommandsComplete`, in the order of its clauses. -/
theorem witness_CircuitCommandsComplete :
    (let s : State := State.reset; let s : State := s.setFld R.circCmd F.circCmd_status 0; let i : Nat := s.fld R.circCmd F.circCmd_index;
     let op : Nat := s.fld R.circCmd F.circCmd_op; let tb : Nat := s.fld R.circCmd F.circCmd_table; let d : BitVec 64 := s.reg R.circData0;
     s.fld R.circCmd F.circCmd_index = i ∧ s.fld R.circCmd F.circCmd_op = op ∧ s.fld R.circCmd F.circCmd_table = tb ∧ s.reg R.circData0 = d ∧
     s.fld R.circCmd F.circCmd_status ≠ 1) ∧
    (let s : State := State.reset; let s : State := s.setFld R.circCmd F.circCmd_status 1; let i : Nat := s.fld R.circCmd F.circCmd_index;
     let op : Nat := s.fld R.circCmd F.circCmd_op; let tb : Nat := s.fld R.circCmd F.circCmd_table; let d : BitVec 64 := s.reg R.circData0;
     s.fld R.circCmd F.circCmd_index = i ∧ s.fld R.circCmd F.circCmd_op = op ∧ s.fld R.circCmd F.circCmd_table = tb ∧ s.reg R.circData0 = d ∧
     s.fld R.circCmd F.circCmd_status = 1) ∧
    (let op : Nat := 0; let tb : Nat := 0; let s : State := State.reset; let s : State := s.setFld R.circCmd F.circCmd_op op;
     let s : State := s.setFld R.circCmd F.circCmd_table tb; let s : State := s.setFld R.circCmd F.circCmd_status 1;
     let i : Nat := s.fld R.circCmd F.circCmd_index; let d : BitVec 64 := s.reg R.circData0; s.fld R.circCmd F.circCmd_index = i ∧
     s.fld R.circCmd F.circCmd_op = op ∧ s.fld R.circCmd F.circCmd_table = tb ∧ s.reg R.circData0 = d ∧ s.fld R.circCmd F.circCmd_status = 1 ∧
     tb = 0 ∧ op = 0 ∧ i < 6144) ∧
    (let i : Nat := 7; let op : Nat := 0; let tb : Nat := 1; let s : State := State.reset; let s : State := s.setFld R.circCmd F.circCmd_index i;
     let s : State := s.setFld R.circCmd F.circCmd_op op; let s : State := s.setFld R.circCmd F.circCmd_table tb;
     let s : State := s.setFld R.circCmd F.circCmd_status 1; let d : BitVec 64 := s.reg R.circData0; s.fld R.circCmd F.circCmd_index = i ∧
     s.fld R.circCmd F.circCmd_op = op ∧ s.fld R.circCmd F.circCmd_table = tb ∧ s.reg R.circData0 = d ∧ s.fld R.circCmd F.circCmd_status = 1 ∧
     tb = 1 ∧ op = 0 ∧ i < 256 ∧ (s.members i).length < 128 ∧ (s.cgroup i).toNat &&& 0x7FFFFFFFFFFFFFE0 = 0) ∧
    (let i : Nat := 64; let op : Nat := 1; let tb : Nat := 0; let d : BitVec 64 := 2 ^ 63; let st := 6; let s : State := State.reset;
     let s : State := s.setFld R.circCmd F.circCmd_index i; let s : State := s.setFld R.circCmd F.circCmd_op op;
     let s : State := s.setFld R.circCmd F.circCmd_table tb; let s : State := s.setReg R.circData0 d;
     let s : State := s.setFld R.circCmd F.circCmd_status 1; s.fld R.circCmd F.circCmd_index = i ∧ s.fld R.circCmd F.circCmd_op = op ∧
     s.fld R.circCmd F.circCmd_table = tb ∧ s.reg R.circData0 = d ∧ s.fld R.circCmd F.circCmd_status = 1 ∧ tb = 0 ∧ op = 1 ∧ i < 6144 ∧ ((st = 6 ∧
     (bitOf d.toNat 63 = true ∨ bitOf d.toNat 62 = true) ∧ s.sdhLane (i / 64) = false) ∨ (st = 2 ∧
     (bitOf d.toNat 63 = true ∨ bitOf d.toNat 62 = true) ∧ s.cliMode (i / 64) = 11 ∧ 16 ≤ i % 64) ∨ (st = 7 ∧ bitOf d.toNat 62 = true ∧
     s.cliMode (i / 64) = 10 ∧ ∃ j, j ≠ i ∧ ∃ c, (j, c) ∈ s.circ.circuits ∧ c.dnEn = true ∧ c.dnFlow = bitsOf d.toNat 36 17) ∨ (st = 4 ∧
     bitOf d.toNat 62 = true ∧ bitOf d.toNat 16 = false ∧ s.cliMode (i / 64) = 10 ∧
     (∀ e ∈ s.circ.circuits, e.1 ≠ i → e.2.dnEn = true → e.2.dnFlow ≠ bitsOf d.toNat 36 17) ∧
     s.hbmSize .dn + (s.circuit i).cells.length < s.hbmUsed .dn + 160))) ∧
    (let i : Nat := 192; let op : Nat := 1; let tb : Nat := 0; let d : BitVec 64 := 2 ^ 62 + 5 * 2 ^ 17; let s : State := State.reset;
     let s : State := s.setFld R.circCmd F.circCmd_index i; let s : State := s.setFld R.circCmd F.circCmd_op op;
     let s : State := s.setFld R.circCmd F.circCmd_table tb; let s : State := s.setReg R.circData0 d;
     let s : State := s.setFld R.circCmd F.circCmd_status 1; let s : State := s.setFld (R.cliCfg 3) F.cliCfg_mode 10;
     let s : State := s.setFld R.qmHbmCfg F.qmHbmCfg_stackEn 3; s.fld R.circCmd F.circCmd_index = i ∧ s.fld R.circCmd F.circCmd_op = op ∧
     s.fld R.circCmd F.circCmd_table = tb ∧ s.reg R.circData0 = d ∧ s.fld R.circCmd F.circCmd_status = 1 ∧ tb = 0 ∧ op = 1 ∧ i < 6144 ∧
     bitOf d.toNat 62 = true ∧ bitOf d.toNat 16 = false ∧ s.cliMode (i / 64) = 10 ∧ (s.circuit i).dnEn = false ∧ (s.circuit i).cells = [] ∧
     (∀ e ∈ s.circ.circuits, e.1 ≠ i → e.2.dnEn = true → e.2.dnFlow ≠ bitsOf d.toNat 36 17) ∧ s.hbmUsed .dn + 160 ≤ s.hbmSize .dn) ∧
    (let i : Nat := 7; let op : Nat := 1; let tb : Nat := 1; let d : BitVec 64 := 2 ^ 63 + 3; let s : State := State.reset;
     let s : State := s.setFld R.circCmd F.circCmd_index i; let s : State := s.setFld R.circCmd F.circCmd_op op;
     let s : State := s.setFld R.circCmd F.circCmd_table tb; let s : State := s.setReg R.circData0 d;
     let s : State := s.setFld R.circCmd F.circCmd_status 1; s.fld R.circCmd F.circCmd_index = i ∧ s.fld R.circCmd F.circCmd_op = op ∧
     s.fld R.circCmd F.circCmd_table = tb ∧ s.reg R.circData0 = d ∧ s.fld R.circCmd F.circCmd_status = 1 ∧ tb = 1 ∧ op = 1 ∧ i < 256 ∧
     s.members i = [] ∧ s.hbmUsed .dn ≤ s.hbmSize .dn) ∧
    (let i : Nat := 6144; let tb : Nat := 0; let s : State := State.reset; let s : State := s.setFld R.circCmd F.circCmd_index i;
     let s : State := s.setFld R.circCmd F.circCmd_table tb; let s : State := s.setFld R.circCmd F.circCmd_status 1;
     let op : Nat := s.fld R.circCmd F.circCmd_op; let d : BitVec 64 := s.reg R.circData0; s.fld R.circCmd F.circCmd_index = i ∧
     s.fld R.circCmd F.circCmd_op = op ∧ s.fld R.circCmd F.circCmd_table = tb ∧ s.reg R.circData0 = d ∧ s.fld R.circCmd F.circCmd_status = 1 ∧
     ((tb = 0 ∧ 6144 ≤ i) ∨ (tb = 1 ∧ 256 ≤ i))) ∧
    (let i : Nat := 192; let op : Nat := 1; let tb : Nat := 0; let d : BitVec 64 := 2 ^ 62 + 5 * 2 ^ 17; let j : Nat := 0;
     let s : State := State.reset; let s : State := s.setFld R.circCmd F.circCmd_index i; let s : State := s.setFld R.circCmd F.circCmd_op op;
     let s : State := s.setFld R.circCmd F.circCmd_table tb; let s : State := s.setReg R.circData0 d;
     let s : State := s.setFld R.circCmd F.circCmd_status 1; let s : State := s.setFld (R.cliCfg 3) F.cliCfg_mode 10;
     let s : State := s.setFld R.qmHbmCfg F.qmHbmCfg_stackEn 3; s.fld R.circCmd F.circCmd_index = i ∧ s.fld R.circCmd F.circCmd_op = op ∧
     s.fld R.circCmd F.circCmd_table = tb ∧ s.reg R.circData0 = d ∧ s.fld R.circCmd F.circCmd_status = 1 ∧ tb = 0 ∧ op = 1 ∧ i < 6144 ∧
     bitOf d.toNat 62 = true ∧ bitOf d.toNat 16 = false ∧ s.cliMode (i / 64) = 10 ∧ (s.circuit i).dnEn = false ∧ (s.circuit i).cells = [] ∧
     (∀ e ∈ s.circ.circuits, e.1 ≠ i → e.2.dnEn = true → e.2.dnFlow ≠ bitsOf d.toNat 36 17) ∧ s.hbmUsed .dn + 160 ≤ s.hbmSize .dn ∧ j ≠ i) ∧
    (let i : Nat := 7; let op : Nat := 1; let tb : Nat := 1; let d : BitVec 64 := 2 ^ 63 + 3; let j : Nat := 0; let s : State := State.reset;
     let s : State := s.setFld R.circCmd F.circCmd_index i; let s : State := s.setFld R.circCmd F.circCmd_op op;
     let s : State := s.setFld R.circCmd F.circCmd_table tb; let s : State := s.setReg R.circData0 d;
     let s : State := s.setFld R.circCmd F.circCmd_status 1; s.fld R.circCmd F.circCmd_index = i ∧ s.fld R.circCmd F.circCmd_op = op ∧
     s.fld R.circCmd F.circCmd_table = tb ∧ s.reg R.circData0 = d ∧ s.fld R.circCmd F.circCmd_status = 1 ∧ tb = 1 ∧ op = 1 ∧ i < 256 ∧
     s.members i = [] ∧ s.hbmUsed .dn ≤ s.hbmSize .dn ∧ j ≠ i) := by
  refine ⟨?_, ?_, ?_, ?_, ?_, ?_, ?_, ?_, ?_, ?_⟩
  · decide +kernel
  · decide +kernel
  · decide +kernel
  · decide +kernel
  · exact ⟨by decide +kernel, by decide +kernel, by decide +kernel, by decide +kernel, by decide +kernel, by decide +kernel, by decide +kernel, by decide +kernel, .inl ⟨rfl, by decide +kernel, by decide +kernel⟩⟩
  · decide +kernel
  · decide +kernel
  · decide +kernel
  · decide +kernel
  · decide +kernel

/-- Operands and states that meet the hypotheses of `Obligations.SdhLanesAndDccPorts`, in the order of its clauses. -/
theorem witness_SdhLanesAndDccPorts :
    (let k : Port := 3; let s : State := State.reset; s.sdhLane k = false) ∧
    (let k : Port := 3; let s : State := State.reset; s.sdhLane k = false) ∧
    (let k : Port := 3; let s : State := State.reset; s.sdhLane k = false) ∧
    (let k : Port := 3; let s : State := State.reset; let s : State := s.runSdh k; s.sdhLane k = true) ∧
    (let k : Port := 3; let s : State := State.reset; let s : State := s.runSdh k; let b : Bool := s.laneDefect k 2; s.sdhLane k = true ∧
     s.laneDefect k 2 = b) ∧
    (let k : Port := 3; let s : State := State.reset; let s : State := s.runSdh k; let n : Nat := s.stmN k; s.sdhLane k = true ∧
     s.restarting Src.circ = false ∧ s.serdesLoop k ≠ 1 ∧ s.stmN k = n) ∧
    (let k : Port := 3; let f : SdhFrame := dSdh; let n : Nat := 16; let s : State := State.reset; let s : State := s.runSdh k;
     let s : State := s.setSdh k ((s.sdh k).setRun 4 3); s.sdhLane k = true ∧ s.restarting Src.circ = false ∧ s.serdesLoop k ≠ 1 ∧ s.stmN k = n ∧
     sdhFramed f n = false ∧ (s.sdh k).runOf 4 = 3) ∧
    (let k : Port := 3; let f : SdhFrame := dFrame 0; let n : Nat := 16; let s : State := State.reset; let s : State := s.runSdh k;
     let s : State := s.setSdh k ((s.sdh k).setRun 5 1); let s : State := s.setLaneDefect k 2 true; s.sdhLane k = true ∧
     s.restarting Src.circ = false ∧ s.serdesLoop k ≠ 1 ∧ s.stmN k = n ∧ sdhFramed f n = true ∧ (s.sdh k).runOf 5 = 1) ∧
    (let k : Port := 3; let f : SdhFrame := dFrame 0; let n : Nat := 16; let s : State := State.reset; let s : State := s.runSdh k;
     s.sdhLane k = true ∧ s.restarting Src.circ = false ∧ s.serdesLoop k ≠ 1 ∧ s.stmN k = n ∧ sdhFramed f n = true ∧ s.laneDefect k 1 = false ∧
     s.laneDefect k 2 = false) ∧
    (let k : Port := 3; let f : SdhFrame := dFrame 0; let n : Nat := 16; let a : Nat := 0; let i : Nat := 192; let h : Nat := 0;
     let s : State := State.reset; let s : State := s.runSdh k; let s : State := s.setCircuit i ((s.circuit i).setRun 0 7); s.sdhLane k = true ∧
     s.restarting Src.circ = false ∧ s.serdesLoop k ≠ 1 ∧ s.stmN k = n ∧ i = 64 * k.val + a ∧ a < n ∧ (au4Of f n a).h = h ∧ sdhFramed f n = true ∧
     s.laneLost k = false ∧ s.laneDefect k 2 = false ∧ k1k2Of f n % 8 ≠ 7 ∧ h ≠ 0xFFFF ∧ ptrNormal h = false ∧ (s.circuit i).reads h = .none ∧
     (s.circuit i).runOf 0 = 7) ∧
    (let k : Port := 3; let f : SdhFrame := dFrame 0xFFFF; let n : Nat := 16; let a : Nat := 0; let i : Nat := 192; let h : Nat := 0xFFFF;
     let s : State := State.reset; let s : State := s.runSdh k; let s : State := s.setCircuit i ((s.circuit i).setRun 2 2); s.sdhLane k = true ∧
     s.restarting Src.circ = false ∧ s.serdesLoop k ≠ 1 ∧ s.stmN k = n ∧ i = 64 * k.val + a ∧ a < n ∧ (au4Of f n a).h = h ∧ sdhFramed f n = true ∧
     s.laneLost k = false ∧ s.laneDefect k 2 = false ∧ k1k2Of f n % 8 ≠ 7 ∧ h = 0xFFFF ∧ (s.circuit i).runOf 2 = 2) ∧
    (let k : Port := 3; let f : SdhFrame := dFrame 0x6805; let n : Nat := 16; let a : Nat := 0; let i : Nat := 192; let h : Nat := 0x6805;
     let s : State := State.reset; let s : State := s.runSdh k; let s : State := s.setCircuit i (((s.circuit i).setRun 3 2).setRun 4 6);
     s.sdhLane k = true ∧ s.restarting Src.circ = false ∧ s.serdesLoop k ≠ 1 ∧ s.stmN k = n ∧ i = 64 * k.val + a ∧ a < n ∧ (au4Of f n a).h = h ∧
     sdhFramed f n = true ∧ s.laneLost k = false ∧ s.laneDefect k 2 = false ∧ k1k2Of f n % 8 ≠ 7 ∧ ptrNormal h = true ∧
     (s.circuit i).reads h = .none ∧ (s.circuit i).runOf 3 = 2 ∧ (s.circuit i).runOf 4 = ptrValue h + 1) ∧
    (let s : State := State.reset; (s.dccRuns = false ∨ s.dccPhase < s.time.sym)) ∧
    (let s : State := State.reset; let s : State := s.setBit R.circCfg F.circCfg_dccEn true;
     let s : State := s.setBit R.timeStatus F.timeStatus_lpValid true; let at_ : Nat := s.time.now + (s.dccPhase - s.time.sym); s.dccRuns = true ∧
     s.time.sym ≤ s.dccPhase ∧ at_ = s.time.now + (s.dccPhase - s.time.sym)) ∧
    (let k : Port := 3; let b : Bool := true; let s : State := State.reset; let s : State := s.runSdh k; s.sdhLane k = true ∧ s.laneDefect k 1 ≠ b) ∧
    (let k : Port := 3; let b : Bool := true; let s : State := State.reset; let s : State := s.runSdh k; let s : State := s.setLaneDefect k 2 true;
     let s : State := s.setLaneDefect k 3 false; s.sdhLane k = true ∧ s.laneDefect k 2 = b ∧ s.laneDefect k 3 ≠ b) ∧
    (let k : Port := 3; let f : SdhFrame := dFrame 0; let n : Nat := 16; let b : BitVec 8 := 5; let s : State := State.reset;
     let s : State := s.runSdh k; let s : State := s.setSdh k { s.sdh k with b1 := some 5 }; s.sdhLane k = true ∧ s.restarting Src.circ = false ∧
     s.serdesLoop k ≠ 1 ∧ s.stmN k = n ∧ sdhFramed f n = true ∧ s.laneDefect k 1 = false ∧ s.laneDefect k 2 = false ∧ (s.sdh k).b1 = some b) ∧
    (let k : Port := 3; let f : SdhFrame := dFrame 0; let n : Nat := 16; let b : List (BitVec 8) := [5]; let s : State := State.reset;
     let s : State := s.runSdh k; let s : State := s.setSdh k { s.sdh k with b2 := some [5] }; s.sdhLane k = true ∧ s.restarting Src.circ = false ∧
     s.serdesLoop k ≠ 1 ∧ s.stmN k = n ∧ sdhFramed f n = true ∧ s.laneDefect k 1 = false ∧ s.laneDefect k 2 = false ∧ (s.sdh k).b2 = some b) ∧
    (let k : Port := 3; let f : SdhFrame := dFrame 0; let n : Nat := 16; let s : State := State.reset; let s : State := s.runSdh k;
     let s : State := s.setSdh k { (s.sdh k).setRun 20 2 with lastK := k1k2Of f n };
     let s : State := s.setFld (R.circLaneK k) F.circLaneK_rxK (k1k2Of f n + 1); s.sdhLane k = true ∧ s.restarting Src.circ = false ∧
     s.serdesLoop k ≠ 1 ∧ s.stmN k = n ∧ sdhFramed f n = true ∧ s.laneDefect k 1 = false ∧ s.laneDefect k 2 = false ∧ (s.sdh k).runOf 20 = 2 ∧
     (s.sdh k).lastK = k1k2Of f n ∧ s.fld (R.circLaneK k) F.circLaneK_rxK ≠ k1k2Of f n) ∧
    (let i : Fin 12 := 0; let j : Nat := 0; let n : Nat := 16 * i.val + j; let s : State := State.reset;
     let s : State := s.setBit R.circCfg F.circCfg_dccEn true; let s : State := s.setBit R.timeStatus F.timeStatus_lpValid true;
     let at_ : Nat := s.time.now + (s.dccPhase - s.time.sym); s.dccRuns = true ∧ s.time.sym ≤ s.dccPhase ∧
     at_ = s.time.now + (s.dccPhase - s.time.sym) ∧ j < 16 ∧ n = 16 * i.val + j) ∧
    (let i : Fin 12 := 0; let j : Nat := 3; let n : Nat := 16 * i.val + 3; let s : State := State.reset;
     let s : State := s.setBit R.circCfg F.circCfg_dccEn true; let s : State := s.setBit R.timeStatus F.timeStatus_lpValid true;
     let s : State := s.setFld (R.circDccMap n) F.circDccMap_sel 1; let at_ : Nat := s.time.now + (s.dccPhase - s.time.sym); s.dccRuns = true ∧
     s.time.sym ≤ s.dccPhase ∧ at_ = s.time.now + (s.dccPhase - s.time.sym) ∧ j < 16 ∧ n = 16 * i.val + j ∧ s.dccSel n ≠ 0) ∧
    (let i : Fin 12 := 0; let j : Nat := 0; let n : Nat := 16 * i.val; let s : State := State.reset;
     let s : State := s.setBit R.circCfg F.circCfg_dccEn true; let s : State := s.setBit R.timeStatus F.timeStatus_lpValid true;
     let s : State := s.setFld (R.circDccMap n) F.circDccMap_sel 1; let at_ : Nat := s.time.now + (s.dccPhase - s.time.sym); s.dccRuns = true ∧
     s.time.sym ≤ s.dccPhase ∧ at_ = s.time.now + (s.dccPhase - s.time.sym) ∧ j < 16 ∧ n = 16 * i.val + j ∧ s.dccSel n = 1 ∧
     (∀ m, m < n → ¬ (s.dccSel m = 1 ∧ s.dccLane m = s.dccLane n))) := by
  refine ⟨?_, ?_, ?_, ?_, ?_, ?_, ?_, ?_, ?_, ?_, ?_, ?_, ?_, ?_, ?_, ?_, ?_, ?_, ?_, ?_, ?_, ?_⟩ <;> decide +kernel

/-- Operands and states that meet the hypotheses of `Obligations.CipherRequestsRunAndEnd`, in the order of its clauses. -/
theorem witness_CipherRequestsRunAndEnd :
    (let s : State := State.reset; let s : State := s.setBit R.fltRestarting ⟨Src.ciph, Src.ciph⟩ true; s.restarting Src.ciph = true) ∧
    (let e : Nat := 0; let s : State := State.reset; let s : State := s.setEngine e (none);
     let s : State := { s with ciph := { s.ciph with waiting := [dReq] } }; s.restarting Src.ciph = false ∧ e < 96 ∧ s.engine e = none ∧
     (∀ f, f < e → (s.engine f).isSome = true) ∧ (s.ciph.waiting ≠ [] ∨ s.ciph.suspended ≠ [])) ∧
    (let e : Nat := 0; let q : CiphReq := dReq; let a : List CiphReq := []; let b : List CiphReq := []; let s : State := State.reset;
     let s : State := s.setEngine e (none); let s : State := { s with ciph := { s.ciph with waiting := a ++ q :: b } };
     s.restarting Src.ciph = false ∧ e < 96 ∧ s.engine e = none ∧ (∀ f, f < e → (s.engine f).isSome = true) ∧ s.ciph.waiting = a ++ q :: b ∧
     q.urgent = true ∧ (∀ x ∈ a, x.urgent = false)) ∧
    (let e : Nat := 0; let q : CiphReq := dReq; let l : List CiphReq := []; let s : State := State.reset; let s : State := s.setEngine e (none);
     let s : State := { s with ciph := { s.ciph with suspended := q :: l } }; s.restarting Src.ciph = false ∧ e < 96 ∧ s.engine e = none ∧
     (∀ f, f < e → (s.engine f).isSome = true) ∧ (∀ x ∈ s.ciph.waiting, 1 < x.rank) ∧ s.ciph.suspended = q :: l) ∧
    (let q := dReq; let s : State := State.reset;
     let s : State := { s with ciph := { s.ciph with waiting := [q], running := (List.range 96).map (fun e => (e, some { dReq with num := 2 + e, urgent := false, who := .look 1, started := e })) } };
     q ∈ s.ciph.waiting ∧ s.restarting Src.ciph = false ∧ (∀ f, f < 96 → (s.engine f).isSome = true) ∧ q.rank ≤ 1 ∧ s.laMin < s.lookEngines.length ∧
     s.ciph.suspended.length < 256) ∧
    (let e : Fin 96 := 1; let s : State := State.reset; let s : State := s.setEngine e (none); s.engine e = none) ∧
    (let e : Fin 96 := 1; let r : CiphReq := dReq; let s : State := State.reset; let s : State := s.setEngine e (some r); s.engine e = some r) ∧
    (let e : Fin 96 := 1; let k : Port := 3; let r : CiphReq := { dReq with op := 1, who := .macRx 3, bound := some 5 };
     let m : MacRx := ⟨1, ⟨[], false⟩, ⟨0, 0, 0, 0⟩, 0, [], 3, 0, true, []⟩; let key : BitVec 256 := 5; let s : State := State.reset;
     let s : State := s.setEngine e (some r); let s : State := s.setPort k { s.port k with verify := [m] };
     let s : State := { s with ciph := { s.ciph with results := [] } }; s.engine e = some r ∧ r.who = .macRx k ∧ (s.port k).verify = [m] ∧
     m.req = r.num ∧ s.ciph.results = [] ∧ r.bad = false ∧ r.busError = false ∧ r.bound = some key ∧ r.op = 1 ∧
     gcmOpen key r.iv r.aad r.text r.tag = none ∧ replayed m.port m.pn (s.lowestPn m) = false) ∧
    (let e : Fin 96 := 1; let r : CiphReq := dReq; let s : State := State.reset; let s : State := s.setEngine e (some r);
     let s : State := { s with dfp := { s.dfp with opening := [{ dOpening with req := r.num }] } }; s.engine e = some r ∧ (∀ q, r.who ≠ .look q ∧
     r.who ≠ .macRx q ∧ r.who ≠ .macTx q) ∧ s.awaited r.num = true ∧ r.bad = false ∧ r.busError = false ∧ r.bound = none) ∧
    (let e : Fin 96 := 1; let r : CiphReq := { dReq with op := 1, tag := 0, bound := some 0 }; let k := 0; let s : State := State.reset;
     let s : State := s.setEngine e (some r); let s : State := { s with dfp := { s.dfp with opening := [{ dOpening with req := r.num }] } };
     s.engine e = some r ∧ (∀ q, r.who ≠ .look q ∧ r.who ≠ .macRx q ∧ r.who ≠ .macTx q) ∧ s.awaited r.num = true ∧ r.bad = false ∧
     r.busError = false ∧ r.bound = some k ∧ r.op = 1 ∧ gcmOpen k r.iv r.aad r.text r.tag = none) ∧
    (let e : Fin 96 := 1;
     let r : CiphReq := { dReq with op := 1, tag := (gcmSeal 0 0 [] [1, 2]).2, text := (gcmSeal 0 0 [] [1, 2]).1, bound := some 0 }; let k := 0;
     let p := ([1, 2] : List Byte); let s : State := State.reset; let s : State := s.setEngine e (some r);
     let s : State := { s with dfp := { s.dfp with opening := [{ dOpening with req := r.num }] } }; s.engine e = some r ∧ (∀ q, r.who ≠ .look q ∧
     r.who ≠ .macRx q ∧ r.who ≠ .macTx q) ∧ s.awaited r.num = true ∧ r.bad = false ∧ r.busError = false ∧ r.bound = some k ∧ r.op = 1 ∧
     gcmOpen k r.iv r.aad r.text r.tag = some p) ∧
    (let e : Fin 96 := 1; let r : CiphReq := { dReq with op := 0, text := [1, 2], bound := some 0 }; let k := 0; let s : State := State.reset;
     let s : State := s.setEngine e (some r); let s : State := { s with dfp := { s.dfp with opening := [{ dOpening with req := r.num }] } };
     s.engine e = some r ∧ (∀ q, r.who ≠ .look q ∧ r.who ≠ .macRx q ∧ r.who ≠ .macTx q) ∧ s.awaited r.num = true ∧ r.bad = false ∧
     r.busError = false ∧ r.bound = some k ∧ r.op = 0) ∧
    (let e : Fin 96 := 1; let r : CiphReq := { dReq with who := .look 1, urgent := false }; let x : CiphReq := dReq; let q : Nat := 1;
     let s : State := State.reset; let s : State := s.setEngine e (some r); let s : State := s.setLook q ([x]);
     let s : State := { s with ciph := { s.ciph with results := [] } }; let s : State := s.setFld (R.pwrDom 1) F.pwrDom_state 2;
     let k : Nat := (s.limCell r.submitter r.recAddr 16 true).getD 0; s.engine e = some r ∧ r.who = .look q ∧ s.look q = [x] ∧ x.num = r.num ∧
     s.ciph.results = [] ∧ x.chan = none ∧ x.reply = none ∧ r.bad = false ∧ r.busError = false ∧ r.bound = none ∧
     s.limCell x.submitter x.recAddr 16 true = some k) ∧
    (let e : Nat := 0; let f : Nat := 5; let s : State := State.reset; let s : State := s.setEngine e (none);
     let s : State := { s with ciph := { s.ciph with waiting := [dReq] } }; s.restarting Src.ciph = false ∧ e < 96 ∧ s.engine e = none ∧
     (∀ f, f < e → (s.engine f).isSome = true) ∧ (s.ciph.waiting ≠ [] ∨ s.ciph.suspended ≠ []) ∧ f ≠ e) ∧
    (let e : Nat := 0; let q : CiphReq := dReq; let a : List CiphReq := []; let b : List CiphReq := []; let f : Nat := 5;
     let s : State := State.reset; let s : State := s.setEngine e (none); let s : State := { s with ciph := { s.ciph with waiting := a ++ q :: b } };
     s.restarting Src.ciph = false ∧ e < 96 ∧ s.engine e = none ∧ (∀ f, f < e → (s.engine f).isSome = true) ∧ s.ciph.waiting = a ++ q :: b ∧
     q.urgent = true ∧ (∀ x ∈ a, x.urgent = false) ∧ f ≠ e) ∧
    (let e : Nat := 0; let q : CiphReq := dReq; let l : List CiphReq := []; let f : Nat := 5; let s : State := State.reset;
     let s : State := s.setEngine e (none); let s : State := { s with ciph := { s.ciph with suspended := q :: l } }; s.restarting Src.ciph = false ∧
     e < 96 ∧ s.engine e = none ∧ (∀ f, f < e → (s.engine f).isSome = true) ∧ (∀ x ∈ s.ciph.waiting, 1 < x.rank) ∧ s.ciph.suspended = q :: l ∧ f ≠ e) ∧
    (let e : Fin 96 := 1; let r : CiphReq := dReq; let f : Nat := 0; let s : State := State.reset; let s : State := s.setEngine e (some r);
     s.engine e = some r ∧ f ≠ e.val) ∧
    (let e : Fin 96 := 1; let r : CiphReq := dReq; let f : Nat := 0; let s : State := State.reset; let s : State := s.setEngine e (some r);
     let s : State := { s with dfp := { s.dfp with opening := [{ dOpening with req := r.num }] } }; s.engine e = some r ∧ (∀ q, r.who ≠ .look q ∧
     r.who ≠ .macRx q ∧ r.who ≠ .macTx q) ∧ s.awaited r.num = true ∧ r.bad = false ∧ r.busError = false ∧ r.bound = none ∧ f ≠ e.val) ∧
    (let e : Fin 96 := 1; let r : CiphReq := { dReq with op := 1, tag := 0, bound := some 0 }; let k := 0; let f : Nat := 0;
     let s : State := State.reset; let s : State := s.setEngine e (some r);
     let s : State := { s with dfp := { s.dfp with opening := [{ dOpening with req := r.num }] } }; s.engine e = some r ∧ (∀ q, r.who ≠ .look q ∧
     r.who ≠ .macRx q ∧ r.who ≠ .macTx q) ∧ s.awaited r.num = true ∧ r.bad = false ∧ r.busError = false ∧ r.bound = some k ∧ r.op = 1 ∧
     gcmOpen k r.iv r.aad r.text r.tag = none ∧ f ≠ e.val) ∧
    (let e : Fin 96 := 1; let r : CiphReq := { dReq with who := .look 1, urgent := false }; let x : CiphReq := dReq; let q : Nat := 1;
     let s : State := State.reset; let s : State := s.setEngine e (some r); let s : State := s.setLook q ([x]);
     let s : State := { s with ciph := { s.ciph with results := [] } }; let s : State := s.setFld (R.pwrDom 1) F.pwrDom_state 2;
     let k : Nat := (s.limCell r.submitter r.recAddr 16 true).getD 0; let a : Nat := k + 16; s.engine e = some r ∧ r.who = .look q ∧ s.look q = [x] ∧
     x.num = r.num ∧ s.ciph.results = [] ∧ x.chan = none ∧ x.reply = none ∧ r.bad = false ∧ r.busError = false ∧ r.bound = none ∧
     s.limCell x.submitter x.recAddr 16 true = some k ∧ (a < k ∨ k + 16 ≤ a)) := by
  refine ⟨?_, ?_, ?_, ?_, ?_, ?_, ?_, ?_, ?_, ?_, ?_, ?_, ?_, ?_, ?_, ?_, ?_, ?_, ?_, ?_⟩
  · decide +kernel
  · decide +kernel
  · decide +kernel
  · decide +kernel
  · decide +kernel
  · decide +kernel
  · decide +kernel
  · decide +kernel
  · exact ⟨by decide +kernel, fun q => ⟨(fun h => by cases h), (fun h => by cases h), (fun h => by cases h)⟩, by decide +kernel, by decide +kernel, by decide +kernel, by decide +kernel⟩
  · exact ⟨by decide +kernel, fun q => ⟨(fun h => by cases h), (fun h => by cases h), (fun h => by cases h)⟩, by decide +kernel, by decide +kernel, by decide +kernel, by decide +kernel, by decide +kernel, by decide +kernel⟩
  · exact ⟨by decide +kernel, fun q => ⟨(fun h => by cases h), (fun h => by cases h), (fun h => by cases h)⟩, by decide +kernel, by decide +kernel, by decide +kernel, by decide +kernel, by decide +kernel, by decide +kernel⟩
  · exact ⟨by decide +kernel, fun q => ⟨(fun h => by cases h), (fun h => by cases h), (fun h => by cases h)⟩, by decide +kernel, by decide +kernel, by decide +kernel, by decide +kernel, by decide +kernel⟩
  · decide +kernel
  · decide +kernel
  · decide +kernel
  · decide +kernel
  · decide +kernel
  · exact ⟨by decide +kernel, fun q => ⟨(fun h => by cases h), (fun h => by cases h), (fun h => by cases h)⟩, by decide +kernel, by decide +kernel, by decide +kernel, by decide +kernel, by decide +kernel⟩
  · exact ⟨by decide +kernel, fun q => ⟨(fun h => by cases h), (fun h => by cases h), (fun h => by cases h)⟩, by decide +kernel, by decide +kernel, by decide +kernel, by decide +kernel, by decide +kernel, by decide +kernel, by decide +kernel⟩
  · decide +kernel

/-- Operands and states that meet the hypotheses of `Obligations.KeysAndMacsecTables`, in the order of its clauses. -/
theorem witness_KeysAndMacsecTables_1 :
    (let s : State := State.reset; let s : State := s.setFld R.ciphKeyCtl F.ciphKeyCtl_status 1; s.fld R.ciphKeyCtl F.ciphKeyCtl_status = 1) ∧
    (let s : State := State.reset; let s : State := s.setFld R.ciphKeyCtl F.ciphKeyCtl_status 1; s.fld R.ciphKeyCtl F.ciphKeyCtl_status = 1) ∧
    (let s : State := State.reset; let s : State := s.setFld R.ciphKeyCtl F.ciphKeyCtl_status 1; s.fld R.ciphKeyCtl F.ciphKeyCtl_status = 1) ∧
    (let s : State := State.reset; let s : State := s.setFld R.ciphKeyCtl F.ciphKeyCtl_status 0; s.fld R.ciphKeyCtl F.ciphKeyCtl_status ≠ 1) ∧
    (let s : State := State.reset; let s : State := s.setFld R.ciphKeyCtl F.ciphKeyCtl_status 0; s.fld R.ciphKeyCtl F.ciphKeyCtl_status ≠ 1) ∧
    (let s : State := State.reset; let s : State := s.setFld R.ciphKeyCtl F.ciphKeyCtl_status 0; s.fld R.ciphKeyCtl F.ciphKeyCtl_status ≠ 1) ∧
    (let s : State := State.reset; let s : State := s.setFld R.ciphKeyCtl F.ciphKeyCtl_status 0; s.fld R.ciphKeyCtl F.ciphKeyCtl_status ≠ 1) ∧
    (let n : Nat := 7; let op : Nat := 3; let s : State := State.reset; let s : State := s.setFld R.ciphKeyCtl F.ciphKeyCtl_status 1;
     let s : State := s.setFld R.ciphKeyCtl F.ciphKeyCtl_slot n; let s : State := s.setFld R.ciphKeyCtl F.ciphKeyCtl_op op;
     let s : State := s.setSlot 7 { act := { st := 1, key := 5 } }; s.fld R.ciphKeyCtl F.ciphKeyCtl_status = 1 ∧
     s.fld R.ciphKeyCtl F.ciphKeyCtl_slot = n ∧ s.fld R.ciphKeyCtl F.ciphKeyCtl_op = op) ∧
    (let s : State := State.reset; let s : State := s.setFld R.ciphSaCmd F.ciphSaCmd_status 0; s.fld R.ciphSaCmd F.ciphSaCmd_status ≠ 1) ∧
    (let tb : Nat := 0; let i : Nat := 96; let s : State := State.reset; let s : State := s.setFld R.ciphSaCmd F.ciphSaCmd_status 1;
     let s : State := s.setFld R.ciphSaCmd F.ciphSaCmd_table tb; let s : State := s.setFld R.ciphSaCmd F.ciphSaCmd_index i;
     let op : Nat := s.fld R.ciphSaCmd F.ciphSaCmd_op; s.fld R.ciphSaCmd F.ciphSaCmd_status = 1 ∧ s.fld R.ciphSaCmd F.ciphSaCmd_table = tb ∧
     s.fld R.ciphSaCmd F.ciphSaCmd_index = i ∧ s.fld R.ciphSaCmd F.ciphSaCmd_op = op ∧ saSize tb ≤ i) ∧
    (let op : Nat := 0; let s : State := State.reset; let s : State := s.setFld R.ciphSaCmd F.ciphSaCmd_status 1;
     let s : State := s.setFld R.ciphSaCmd F.ciphSaCmd_op op; let tb : Nat := s.fld R.ciphSaCmd F.ciphSaCmd_table;
     let i : Nat := s.fld R.ciphSaCmd F.ciphSaCmd_index; s.fld R.ciphSaCmd F.ciphSaCmd_status = 1 ∧ s.fld R.ciphSaCmd F.ciphSaCmd_table = tb ∧
     s.fld R.ciphSaCmd F.ciphSaCmd_index = i ∧ s.fld R.ciphSaCmd F.ciphSaCmd_op = op ∧ i < saSize tb ∧ op = 0) ∧
    (let tb : Nat := 0; let i : Nat := 5; let op : Nat := 1; let s : State := State.reset;
     let s : State := s.setFld R.ciphSaCmd F.ciphSaCmd_status 1; let s : State := s.setFld R.ciphSaCmd F.ciphSaCmd_table tb;
     let s : State := s.setFld R.ciphSaCmd F.ciphSaCmd_index i; let s : State := s.setFld R.ciphSaCmd F.ciphSaCmd_op op;
     let s : State := s.setReg (R.ciphSaData 0) (2 ^ 63); s.fld R.ciphSaCmd F.ciphSaCmd_status = 1 ∧ s.fld R.ciphSaCmd F.ciphSaCmd_table = tb ∧
     s.fld R.ciphSaCmd F.ciphSaCmd_index = i ∧ s.fld R.ciphSaCmd F.ciphSaCmd_op = op ∧ i < saSize tb ∧ op = 1 ∧ tb = 0 ∧
     bitOf (s.reg (R.ciphSaData 0)).toNat 63 = true ∧ (s.fld (R.cliCfg i) F.cliCfg_mode < 1 ∨ 9 < s.fld (R.cliCfg i) F.cliCfg_mode)) ∧
    (let tb : Nat := 1; let i : Nat := 5; let op : Nat := 1; let s : State := State.reset;
     let s : State := s.setFld R.ciphSaCmd F.ciphSaCmd_status 1; let s : State := s.setFld R.ciphSaCmd F.ciphSaCmd_table tb;
     let s : State := s.setFld R.ciphSaCmd F.ciphSaCmd_index i; let s : State := s.setFld R.ciphSaCmd F.ciphSaCmd_op op;
     s.fld R.ciphSaCmd F.ciphSaCmd_status = 1 ∧ s.fld R.ciphSaCmd F.ciphSaCmd_table = tb ∧ s.fld R.ciphSaCmd F.ciphSaCmd_index = i ∧
     s.fld R.ciphSaCmd F.ciphSaCmd_op = op ∧ i < saSize tb ∧ op = 1 ∧
     (tb ≠ 0 ∨ bitOf (s.reg (R.ciphSaData 0)).toNat 63 = false ∨ (1 ≤ s.fld (R.cliCfg i) F.cliCfg_mode ∧ s.fld (R.cliCfg i) F.cliCfg_mode ≤ 9))) ∧
    (let n : Nat := 7; let op : Nat := 1; let s : State := State.reset; let s : State := s.setFld R.ciphKeyCtl F.ciphKeyCtl_status 1;
     let s : State := s.setFld R.ciphKeyCtl F.ciphKeyCtl_slot n; let s : State := s.setFld R.ciphKeyCtl F.ciphKeyCtl_op op;
     let s : State := s.setSlot 7 { act := { st := 1, key := 5 } };
     let s : State := s.setSlot 7 { act := { st := 1, key := 5 }, pend := { st := 2, key := 6 } }; s.fld R.ciphKeyCtl F.ciphKeyCtl_status = 1 ∧
     s.fld R.ciphKeyCtl F.ciphKeyCtl_slot = n ∧ s.fld R.ciphKeyCtl F.ciphKeyCtl_op = op ∧ op = 1 ∧ (s.slot n).pend.st = 2) ∧
    (let n : Nat := 7; let op : Nat := 1; let s : State := State.reset; let s : State := s.setFld R.ciphKeyCtl F.ciphKeyCtl_status 1;
     let s : State := s.setFld R.ciphKeyCtl F.ciphKeyCtl_slot n; let s : State := s.setFld R.ciphKeyCtl F.ciphKeyCtl_op op;
     let s : State := s.setSlot 7 { act := { st := 1, key := 5 } };
     let s : State := s.setSlot 7 { act := { st := 1, key := 5 }, pend := { st := 0, key := 6 } }; s.fld R.ciphKeyCtl F.ciphKeyCtl_status = 1 ∧
     s.fld R.ciphKeyCtl F.ciphKeyCtl_slot = n ∧ s.fld R.ciphKeyCtl F.ciphKeyCtl_op = op ∧ op = 1 ∧ (s.slot n).pend.st ≠ 2) ∧
    (let n : Nat := 7; let op : Nat := 1; let i : Nat := 3; let s : State := State.reset;
     let s : State := s.setFld R.ciphKeyCtl F.ciphKeyCtl_status 1; let s : State := s.setFld R.ciphKeyCtl F.ciphKeyCtl_slot n;
     let s : State := s.setFld R.ciphKeyCtl F.ciphKeyCtl_op op; let s : State := s.setSlot 7 { act := { st := 1, key := 5 } };
     let s : State := s.setSlot 7 { act := { st := 1, key := 5 }, pend := { st := 0, key := 6 } }; s.fld R.ciphKeyCtl F.ciphKeyCtl_status = 1 ∧
     s.fld R.ciphKeyCtl F.ciphKeyCtl_slot = n ∧ s.fld R.ciphKeyCtl F.ciphKeyCtl_op = op ∧ op = 1 ∧ (s.slot n).pend.st ≠ 2 ∧ i < 4) ∧
    (let n : Nat := 7; let op : Nat := 2; let s : State := State.reset; let s : State := s.setFld R.ciphKeyCtl F.ciphKeyCtl_status 1;
     let s : State := s.setFld R.ciphKeyCtl F.ciphKeyCtl_slot n; let s : State := s.setFld R.ciphKeyCtl F.ciphKeyCtl_op op;
     let s : State := s.setSlot 7 { act := { st := 1, key := 5 } };
     let s : State := s.setSlot 7 { act := { st := 1, key := 5 }, pend := { st := 0, key := 6 } }; s.fld R.ciphKeyCtl F.ciphKeyCtl_status = 1 ∧
     s.fld R.ciphKeyCtl F.ciphKeyCtl_slot = n ∧ s.fld R.ciphKeyCtl F.ciphKeyCtl_op = op ∧ op = 2 ∧ (s.slot n).pend.st ≠ 1) ∧
    (let n : Nat := 7; let op : Nat := 2; let s : State := State.reset; let s : State := s.setFld R.ciphKeyCtl F.ciphKeyCtl_status 1;
     let s : State := s.setFld R.ciphKeyCtl F.ciphKeyCtl_slot n; let s : State := s.setFld R.ciphKeyCtl F.ciphKeyCtl_op op;
     let s : State := s.setSlot 7 { act := { st := 1, key := 5 } };
     let s : State := s.setSlot 7 { act := { st := 0, key := 5 }, pend := { st := 1, key := 6 } }; s.fld R.ciphKeyCtl F.ciphKeyCtl_status = 1 ∧
     s.fld R.ciphKeyCtl F.ciphKeyCtl_slot = n ∧ s.fld R.ciphKeyCtl F.ciphKeyCtl_op = op ∧ op = 2 ∧ (s.slot n).pend.st = 1) ∧
    (let n : Nat := 7; let op : Nat := 2; let s : State := State.reset; let s : State := s.setFld R.ciphKeyCtl F.ciphKeyCtl_status 1;
     let s : State := s.setFld R.ciphKeyCtl F.ciphKeyCtl_slot n; let s : State := s.setFld R.ciphKeyCtl F.ciphKeyCtl_op op;
     let s : State := s.setSlot 7 { act := { st := 1, key := 5 } };
     let s : State := s.setSlot 7 { act := { st := 1, key := 5 }, pend := { st := 1, key := 6 } }; s.fld R.ciphKeyCtl F.ciphKeyCtl_status = 1 ∧
     s.fld R.ciphKeyCtl F.ciphKeyCtl_slot = n ∧ s.fld R.ciphKeyCtl F.ciphKeyCtl_op = op ∧ op = 2 ∧ (s.slot n).pend.st = 1 ∧ (s.slot n).act.st = 1) ∧
    (let n : Nat := 7; let op : Nat := 3; let s : State := State.reset; let s : State := s.setFld R.ciphKeyCtl F.ciphKeyCtl_status 1;
     let s : State := s.setFld R.ciphKeyCtl F.ciphKeyCtl_slot n; let s : State := s.setFld R.ciphKeyCtl F.ciphKeyCtl_op op;
     let s : State := s.setSlot 7 { act := { st := 1, key := 5 } }; s.fld R.ciphKeyCtl F.ciphKeyCtl_status = 1 ∧
     s.fld R.ciphKeyCtl F.ciphKeyCtl_slot = n ∧ s.fld R.ciphKeyCtl F.ciphKeyCtl_op = op ∧ op = 3) ∧
    (let n : Nat := 7; let op : Nat := 3; let s : State := State.reset; let s : State := s.setFld R.ciphKeyCtl F.ciphKeyCtl_status 1;
     let s : State := s.setFld R.ciphKeyCtl F.ciphKeyCtl_slot n; let s : State := s.setFld R.ciphKeyCtl F.ciphKeyCtl_op op;
     let s : State := s.setSlot 7 { act := { st := 1, key := 5 } };
     let s : State := s.setSlot 7 { act := { st := 1, key := 5 }, pend := { st := 0, key := 6 } }; let h : KeyHalf := (s.slot 7).act;
     s.fld R.ciphKeyCtl F.ciphKeyCtl_status = 1 ∧ s.fld R.ciphKeyCtl F.ciphKeyCtl_slot = n ∧ s.fld R.ciphKeyCtl F.ciphKeyCtl_op = op ∧ op = 3 ∧
     h = (s.slot n).act ∧ h.st = 1) ∧
    (let n : Nat := 7; let op : Nat := 3; let s : State := State.reset; let s : State := s.setFld R.ciphKeyCtl F.ciphKeyCtl_status 1;
     let s : State := s.setFld R.ciphKeyCtl F.ciphKeyCtl_slot n; let s : State := s.setFld R.ciphKeyCtl F.ciphKeyCtl_op op;
     let s : State := s.setSlot 7 { act := { st := 1, key := 5 } };
     let s : State := s.setSlot 7 { act := { st := 0, key := 5 }, pend := { st := 1, key := 6 } }; let h : KeyHalf := (s.slot 7).pend;
     s.fld R.ciphKeyCtl F.ciphKeyCtl_status = 1 ∧ s.fld R.ciphKeyCtl F.ciphKeyCtl_slot = n ∧ s.fld R.ciphKeyCtl F.ciphKeyCtl_op = op ∧ op = 3 ∧
     h = (s.slot n).pend ∧ h.st = 1) ∧
    (let n : Nat := 7; let op : Nat := 3; let m : Nat := 0; let s : State := State.reset;
     let s : State := s.setFld R.ciphKeyCtl F.ciphKeyCtl_status 1; let s : State := s.setFld R.ciphKeyCtl F.ciphKeyCtl_slot n;
     let s : State := s.setFld R.ciphKeyCtl F.ciphKeyCtl_op op; let s : State := s.setSlot 7 { act := { st := 1, key := 5 } };
     s.fld R.ciphKeyCtl F.ciphKeyCtl_status = 1 ∧ s.fld R.ciphKeyCtl F.ciphKeyCtl_slot = n ∧ s.fld R.ciphKeyCtl F.ciphKeyCtl_op = op ∧ m ≠ n) ∧
    (let op : Nat := 0; let w : Nat := 0; let s : State := State.reset; let s : State := s.setFld R.ciphSaCmd F.ciphSaCmd_status 1;
     let s : State := s.setFld R.ciphSaCmd F.ciphSaCmd_op op; let tb : Nat := s.fld R.ciphSaCmd F.ciphSaCmd_table;
     let i : Nat := s.fld R.ciphSaCmd F.ciphSaCmd_index; s.fld R.ciphSaCmd F.ciphSaCmd_status = 1 ∧ s.fld R.ciphSaCmd F.ciphSaCmd_table = tb ∧
     s.fld R.ciphSaCmd F.ciphSaCmd_index = i ∧ s.fld R.ciphSaCmd F.ciphSaCmd_op = op ∧ i < saSize tb ∧ op = 0 ∧ w < 4) := by
  refine ⟨?_, ?_, ?_, ?_, ?_, ?_, ?_, ?_, ?_, ?_, ?_, ?_, ?_, ?_, ?_, ?_, ?_, ?_, ?_, ?_, ?_, ?_, ?_, ?_⟩ <;> decide +kernel

/-- Operands and states that meet the hypotheses of `Obligations.KeysAndMacsecTables`, in the order of its clauses. -/
theorem witness_KeysAndMacsecTables_2 :
    (let tb : Nat := 1; let i : Nat := 5; let op : Nat := 1; let w : Nat := 0; let s : State := State.reset;
     let s : State := s.setFld R.ciphSaCmd F.ciphSaCmd_status 1; let s : State := s.setFld R.ciphSaCmd F.ciphSaCmd_table tb;
     let s : State := s.setFld R.ciphSaCmd F.ciphSaCmd_index i; let s : State := s.setFld R.ciphSaCmd F.ciphSaCmd_op op;
     s.fld R.ciphSaCmd F.ciphSaCmd_status = 1 ∧ s.fld R.ciphSaCmd F.ciphSaCmd_table = tb ∧ s.fld R.ciphSaCmd F.ciphSaCmd_index = i ∧
     s.fld R.ciphSaCmd F.ciphSaCmd_op = op ∧ i < saSize tb ∧ op = 1 ∧
     (tb ≠ 0 ∨ bitOf (s.reg (R.ciphSaData 0)).toNat 63 = false ∨ (1 ≤ s.fld (R.cliCfg i) F.cliCfg_mode ∧ s.fld (R.cliCfg i) F.cliCfg_mode ≤ 9)) ∧
     w < 4) ∧
    (let tb : Nat := 1; let i : Nat := 5; let op : Nat := 1; let tc : Nat := 0; let j : Nat := 0; let s : State := State.reset;
     let s : State := s.setFld R.ciphSaCmd F.ciphSaCmd_status 1; let s : State := s.setFld R.ciphSaCmd F.ciphSaCmd_table tb;
     let s : State := s.setFld R.ciphSaCmd F.ciphSaCmd_index i; let s : State := s.setFld R.ciphSaCmd F.ciphSaCmd_op op;
     s.fld R.ciphSaCmd F.ciphSaCmd_status = 1 ∧ s.fld R.ciphSaCmd F.ciphSaCmd_table = tb ∧ s.fld R.ciphSaCmd F.ciphSaCmd_index = i ∧
     s.fld R.ciphSaCmd F.ciphSaCmd_op = op ∧ i < saSize tb ∧ op = 1 ∧
     (tb ≠ 0 ∨ bitOf (s.reg (R.ciphSaData 0)).toNat 63 = false ∨ (1 ≤ s.fld (R.cliCfg i) F.cliCfg_mode ∧ s.fld (R.cliCfg i) F.cliCfg_mode ≤ 9)) ∧
     j < 4096 ∧ tc < 4 ∧ (tc ≠ tb ∨ j ≠ i)) := by
  refine ⟨?_, ?_⟩ <;> decide +kernel

/-- Operands and states that meet the hypotheses of `Obligations.AlarmsEventsAndDispatch`, in the order of its clauses. -/
theorem witness_AlarmsEventsAndDispatch :
    (let i : Fin 4096 := 1; let s : State := State.reset;
     (s.clusterUp 0 = false ∨ alarmValid (s.alarm i) = false ∨ s.lpValid = false ∨ s.lpPassed (alarmFrame (s.alarm i)) (alarmCell (s.alarm i)) = false)) ∧
    (let i : Fin 4096 := 1; let s : State := State.reset; let s : State := s.setFld (R.pwrDom (1 + 0)) F.pwrDom_state 2;
     let s : State := s.setBit R.timeStatus F.timeStatus_lpValid true; let s : State := s.setAlarm i (2 ^ 127 + 9 * 2 ^ 110 + 2 ^ 62 + 2 ^ 25);
     let s : State := { s with time := { s.time with frame := 5 } }; s.clusterUp 0 = true ∧ s.lpValid = true ∧ alarmValid (s.alarm i) = true ∧
     s.lpPassed (alarmFrame (s.alarm i)) (alarmCell (s.alarm i)) = true) ∧
    (let i : Fin 4096 := 1; let n : Nat := 9; let s : State := State.reset; let s : State := s.setFld (R.pwrDom (1 + 0)) F.pwrDom_state 2;
     let s : State := s.setBit R.timeStatus F.timeStatus_lpValid true; let s : State := s.setAlarm i (2 ^ 127 + 9 * 2 ^ 110 + 2 ^ 62 + 2 ^ 25);
     let s : State := s.setGnode 9 { cfg := 2 ^ 63 + 2 ^ 61 }; let s : State := { s with time := { s.time with frame := 5 } }; s.clusterUp 0 = true ∧
     s.lpValid = true ∧ alarmValid (s.alarm i) = true ∧ s.lpPassed (alarmFrame (s.alarm i)) (alarmCell (s.alarm i)) = true ∧ i.val ∉ s.lsch.dueLate ∧
     alarmNode (s.alarm i) = n ∧ (s.gnode n).valid = true ∧ (s.gnode n).trig = 1 ∧ s.firings n = []) ∧
    (let src : Nat := 0; let s : State := State.reset; (s.clusterUp 0 = false ∨ src ∉ s.edges)) ∧
    (let src : Nat := 0; let a : List Nat := []; let b : List Nat := []; let s : State := State.reset;
     let s : State := s.setFld (R.pwrDom (1 + 0)) F.pwrDom_state 2; let s : State := { s with edges := a ++ src :: b }; s.clusterUp 0 = true ∧
     s.edges = a ++ src :: b ∧ src ∉ a) ∧
    (let src : Nat := 0; let a : List Nat := []; let b : List Nat := []; let s : State := State.reset;
     let s : State := s.setFld (R.pwrDom (1 + 0)) F.pwrDom_state 2; let s : State := { s with edges := a ++ src :: b }; s.clusterUp 0 = true ∧
     s.edges = a ++ src :: b ∧ src ∉ a ∧ s.binding src = none) ∧
    (let src : Nat := 100; let a : List Nat := []; let b : List Nat := []; let n := 9; let s : State := State.reset;
     let s : State := s.setFld (R.pwrDom (1 + 0)) F.pwrDom_state 2; let s : State := { s with edges := a ++ src :: b };
     let s : State := { s with lsch := { s.lsch with bindings := [(src, (2 ^ 127 + 9 * 2 ^ 111))] } };
     let s : State := s.setGnode n { cfg := 2 ^ 63 + 2 ^ 62 }; s.clusterUp 0 = true ∧ s.edges = a ++ src :: b ∧ src ∉ a ∧ s.binding src = some n ∧
     (s.gnode n).valid = true ∧ (s.gnode n).trig = 2 ∧ s.firings n = []) ∧
    (let src : Nat := 100; let a : List Nat := []; let b : List Nat := []; let n := 9; let s : State := State.reset;
     let s : State := s.setFld (R.pwrDom (1 + 0)) F.pwrDom_state 2; let s : State := { s with edges := a ++ src :: b };
     let s : State := { s with lsch := { s.lsch with bindings := [(src, (2 ^ 127 + 9 * 2 ^ 111))] } };
     let s : State := s.setGnode n { cfg := 2 ^ 63 + 2 ^ 62 };
     let s : State := { s with lsch := { s.lsch with ready := [⟨false, 9, 0, 0, 2, false, 100⟩] } }; s.clusterUp 0 = true ∧ s.edges = a ++ src :: b ∧
     src ∉ a ∧ s.binding src = some n ∧ (s.gnode n).valid = true ∧ (s.gnode n).trig = 2 ∧ s.firings n ≠ []) ∧
    (let s : State := State.reset; (s.clusterUp 0 = false ∨ s.lsch.ready = [])) ∧
    (let f : Firing := ⟨false, 9, 0, 0, 2, false, 100⟩; let c : Nat := 1; let x : Nat := 0; let ev : Bool := false; let s : State := State.reset;
     let s : State := s.setFld (R.pwrDom (1 + 0)) F.pwrDom_state 2; let s : State := s.setGnode 9 { cfg := 2 ^ 63 + 2 ^ 62 };
     let s : State := { s with lsch := { s.lsch with ready := [f] } }; let s : State := s.setCore 1 { s.core 1 with activeLoaded := true };
     let s : State := s.setBit (R.coreCfg 1) F.coreCfg_dispatchEn true; let s : State := s.setFld (R.pwrDom 1) F.pwrDom_state 2;
     s.clusterUp 0 = true ∧ (byPrio s.lsch.ready).find? (fun f => (s.placeFor f).isSome) = some f ∧ s.placeFor f = some (c, x, ev) ∧
     (f.block = true → (s.blockAt f.node).isSome = true)) ∧
    (let f : Firing := ⟨false, 9, 3, 0, 1, false, 0⟩; let c : CoreId := 1; let n : GNode := { cfg := 2 ^ 63 + 5 * 2 ^ 34 }; let x : Nat := 0;
     let s : State := State.reset; let s : State := s.setFld (R.pwrDom (1 + 0)) F.pwrDom_state 2;
     let s : State := { s with lsch := { s.lsch with ready := [f] } }; let s : State := s.setGnode f.node (n);
     let s : State := s.setCtx c x { s.ctx c x with clause := none }; let s : State := s.setCore c { s.core c with activeLoaded := true };
     let s : State := s.setBit (R.coreCfg c) F.coreCfg_dispatchEn true; let s : State := s.setFld (R.pwrDom 1) F.pwrDom_state 2;
     s.clusterUp 0 = true ∧ s.lsch.ready = [f] ∧ f.block = false ∧ f.prio < 8 ∧ f.subject = 0 ∧ s.gnode f.node = n ∧ s.coreTakes n.sec c = true ∧
     (∀ d : CoreId, d ≠ c → s.coreTakes n.sec d = false) ∧ s.evicted c = [] ∧ x < 4 ∧ (s.ctx c x).clause = none ∧
     (∀ y, y < x → (s.ctx c y).clause ≠ none)) ∧
    (let f : Firing := ⟨false, 9, 3, 0, 1, false, 0⟩; let c : CoreId := 1; let n : GNode := { cfg := 2 ^ 63 + 5 * 2 ^ 34 };
     let s : State := State.reset; let s : State := s.setFld (R.pwrDom (1 + 0)) F.pwrDom_state 2;
     let s : State := { s with lsch := { s.lsch with ready := [f] } }; let s : State := s.setGnode f.node (n);
     let s : State := s.setCore c { s.core c with swapBuf := none };
     let s : State := s.setCore c { ctxs := (List.range 4).map (fun x => (x, { clause := some { dClause with uid := x, prio := 6, place := x } })) };
     let s : State := s.setCore c { s.core c with activeLoaded := true }; let s : State := s.setBit (R.coreCfg c) F.coreCfg_dispatchEn true;
     let s : State := s.setFld (R.pwrDom 1) F.pwrDom_state 2; s.clusterUp 0 = true ∧ s.lsch.ready = [f] ∧ f.block = false ∧ f.prio < 8 ∧
     f.subject = 0 ∧ s.gnode f.node = n ∧ s.coreTakes n.sec c = true ∧ (∀ d : CoreId, d ≠ c → s.coreTakes n.sec d = false) ∧ s.evicted c = [] ∧
     (∀ x : Nat, x < 4 → ∃ cl, (s.ctx c x).clause = some cl ∧ f.prio < cl.prio ∧ (s.ctx c x).wait = none) ∧ (s.core c).swapBuf = none ∧
     s.saveLevel (c.val / 32) < 256) ∧
    (let i : Fin 4096 := 1; let s : State := State.reset; let s : State := s.setFld (R.pwrDom (1 + 0)) F.pwrDom_state 2;
     let s : State := s.setBit R.timeStatus F.timeStatus_lpValid true; let s : State := s.setAlarm i (2 ^ 127 + 9 * 2 ^ 110 + 2 ^ 62 + 2 ^ 25);
     let s : State := { s with time := { s.time with frame := 5 } }; let s : State := { s with lsch := { s.lsch with dueLate := [i.val] } };
     s.clusterUp 0 = true ∧ s.lpValid = true ∧ alarmValid (s.alarm i) = true ∧ s.lpPassed (alarmFrame (s.alarm i)) (alarmCell (s.alarm i)) = true ∧
     i.val ∈ s.lsch.dueLate) ∧
    (let i : Fin 4096 := 1; let j : Nat := 0; let s : State := State.reset; let s : State := s.setFld (R.pwrDom (1 + 0)) F.pwrDom_state 2;
     let s : State := s.setBit R.timeStatus F.timeStatus_lpValid true; let s : State := s.setAlarm i (2 ^ 127 + 9 * 2 ^ 110 + 2 ^ 62 + 2 ^ 25);
     let s : State := { s with time := { s.time with frame := 5 } }; s.clusterUp 0 = true ∧ s.lpValid = true ∧ alarmValid (s.alarm i) = true ∧
     s.lpPassed (alarmFrame (s.alarm i)) (alarmCell (s.alarm i)) = true ∧ j ≠ i.val) ∧
    (let i : Fin 4096 := 1; let n : Nat := 9; let s : State := State.reset; let s : State := s.setFld (R.pwrDom (1 + 0)) F.pwrDom_state 2;
     let s : State := s.setBit R.timeStatus F.timeStatus_lpValid true; let s : State := s.setAlarm i (2 ^ 127 + 9 * 2 ^ 110 + 2 ^ 62 + 2 ^ 25);
     let s : State := s.setGnode 9 { cfg := 2 ^ 63 + 2 ^ 61 }; let s : State := { s with time := { s.time with frame := 5 } }; s.clusterUp 0 = true ∧
     s.lpValid = true ∧ alarmValid (s.alarm i) = true ∧ s.lpPassed (alarmFrame (s.alarm i)) (alarmCell (s.alarm i)) = true ∧ i.val ∉ s.lsch.dueLate ∧
     alarmNode (s.alarm i) = n ∧ (s.gnode n).valid = true ∧ (s.gnode n).trig = 1 ∧ s.firings n = [] ∧ alarmPeriod (s.alarm i) ≠ 0) ∧
    (let i : Fin 4096 := 1; let n : Nat := 9; let j : Nat := 0; let s : State := State.reset;
     let s : State := s.setFld (R.pwrDom (1 + 0)) F.pwrDom_state 2; let s : State := s.setBit R.timeStatus F.timeStatus_lpValid true;
     let s : State := s.setAlarm i (2 ^ 127 + 9 * 2 ^ 110 + 2 ^ 62 + 2 ^ 25); let s : State := s.setGnode 9 { cfg := 2 ^ 63 + 2 ^ 61 };
     let s : State := { s with time := { s.time with frame := 5 } }; s.clusterUp 0 = true ∧ s.lpValid = true ∧ alarmValid (s.alarm i) = true ∧
     s.lpPassed (alarmFrame (s.alarm i)) (alarmCell (s.alarm i)) = true ∧ i.val ∉ s.lsch.dueLate ∧ alarmNode (s.alarm i) = n ∧
     (s.gnode n).valid = true ∧ (s.gnode n).trig = 1 ∧ s.firings n = [] ∧ j ≠ i.val) ∧
    (let f : Firing := ⟨false, 9, 0, 0, 2, false, 100⟩; let c : Nat := 1; let x : Nat := 0; let ev : Bool := false; let d : Nat := 0;
     let y : Nat := 0; let s : State := State.reset; let s : State := s.setFld (R.pwrDom (1 + 0)) F.pwrDom_state 2;
     let s : State := s.setGnode 9 { cfg := 2 ^ 63 + 2 ^ 62 }; let s : State := { s with lsch := { s.lsch with ready := [f] } };
     let s : State := s.setCore 1 { s.core 1 with activeLoaded := true }; let s : State := s.setBit (R.coreCfg 1) F.coreCfg_dispatchEn true;
     let s : State := s.setFld (R.pwrDom 1) F.pwrDom_state 2; s.clusterUp 0 = true ∧
     (byPrio s.lsch.ready).find? (fun f => (s.placeFor f).isSome) = some f ∧ s.placeFor f = some (c, x, ev) ∧
     (f.block = true → (s.blockAt f.node).isSome = true) ∧ (d ≠ c ∨ y ≠ x)) ∧
    (let f : Firing := ⟨false, 9, 3, 0, 1, false, 0⟩; let c : CoreId := 1; let n : GNode := { cfg := 2 ^ 63 + 5 * 2 ^ 34 }; let x : Nat := 0;
     let k : Nat := 0; let s : State := State.reset; let s : State := s.setFld (R.pwrDom (1 + 0)) F.pwrDom_state 2;
     let s : State := { s with lsch := { s.lsch with ready := [f] } }; let s : State := s.setGnode f.node (n);
     let s : State := s.setCtx c x { s.ctx c x with clause := none }; let s : State := s.setCore c { s.core c with activeLoaded := true };
     let s : State := s.setBit (R.coreCfg c) F.coreCfg_dispatchEn true; let s : State := s.setFld (R.pwrDom 1) F.pwrDom_state 2;
     s.clusterUp 0 = true ∧ s.lsch.ready = [f] ∧ f.block = false ∧ f.prio < 8 ∧ f.subject = 0 ∧ s.gnode f.node = n ∧ s.coreTakes n.sec c = true ∧
     (∀ d : CoreId, d ≠ c → s.coreTakes n.sec d = false) ∧ s.evicted c = [] ∧ x < 4 ∧ (s.ctx c x).clause = none ∧
     (∀ y, y < x → (s.ctx c y).clause ≠ none) ∧ k < 4) ∧
    (let f : Firing := ⟨false, 9, 3, 0, 1, false, 0⟩; let c : CoreId := 1; let n : GNode := { cfg := 2 ^ 63 + 5 * 2 ^ 34 }; let x : Nat := 0;
     let r : BitVec 5 := 7; let s : State := State.reset; let s : State := s.setFld (R.pwrDom (1 + 0)) F.pwrDom_state 2;
     let s : State := { s with lsch := { s.lsch with ready := [f] } }; let s : State := s.setGnode f.node (n);
     let s : State := s.setCtx c x { s.ctx c x with clause := none }; let s : State := s.setCore c { s.core c with activeLoaded := true };
     let s : State := s.setBit (R.coreCfg c) F.coreCfg_dispatchEn true; let s : State := s.setFld (R.pwrDom 1) F.pwrDom_state 2;
     s.clusterUp 0 = true ∧ s.lsch.ready = [f] ∧ f.block = false ∧ f.prio < 8 ∧ f.subject = 0 ∧ s.gnode f.node = n ∧ s.coreTakes n.sec c = true ∧
     (∀ d : CoreId, d ≠ c → s.coreTakes n.sec d = false) ∧ s.evicted c = [] ∧ x < 4 ∧ (s.ctx c x).clause = none ∧
     (∀ y, y < x → (s.ctx c y).clause ≠ none) ∧ 7 ≤ r.toNat) ∧
    (let f : Firing := ⟨false, 9, 3, 0, 1, false, 0⟩; let c : CoreId := 1; let n : GNode := { cfg := 2 ^ 63 + 5 * 2 ^ 34 }; let x : Nat := 0;
     let y : Nat := 1; let s : State := State.reset; let s : State := s.setFld (R.pwrDom (1 + 0)) F.pwrDom_state 2;
     let s : State := { s with lsch := { s.lsch with ready := [f] } }; let s : State := s.setGnode f.node (n);
     let s : State := s.setCtx c x { s.ctx c x with clause := none }; let s : State := s.setCore c { s.core c with activeLoaded := true };
     let s : State := s.setBit (R.coreCfg c) F.coreCfg_dispatchEn true; let s : State := s.setFld (R.pwrDom 1) F.pwrDom_state 2;
     s.clusterUp 0 = true ∧ s.lsch.ready = [f] ∧ f.block = false ∧ f.prio < 8 ∧ f.subject = 0 ∧ s.gnode f.node = n ∧ s.coreTakes n.sec c = true ∧
     (∀ d : CoreId, d ≠ c → s.coreTakes n.sec d = false) ∧ s.evicted c = [] ∧ x < 4 ∧ (s.ctx c x).clause = none ∧
     (∀ y, y < x → (s.ctx c y).clause ≠ none) ∧ y ≠ x) := by
  refine ⟨?_, ?_, ?_, ?_, ?_, ?_, ?_, ?_, ?_, ?_, ?_, ?_, ?_, ?_, ?_, ?_, ?_, ?_, ?_, ?_⟩ <;> decide +kernel

/-- Operands and states that meet the hypotheses of `Obligations.ClausesResumeWaitAndFail`, in the order of its clauses. -/
theorem witness_ClausesResumeWaitAndFail :
    (let c : CoreId := 1; let s : State := State.reset; let s : State := s.setCore c { s.core c with swapBuf := none }; (s.core c).swapBuf = none) ∧
    (let c : CoreId := 1; let x : Ctx := {}; let s : State := State.reset; let s : State := s.setCore c { s.core c with swapBuf := some x };
     (s.core c).swapBuf = some x) ∧
    (let c : CoreId := 1; let e : Ctx := { clause := some dClause }; let x : Nat := 0; let a : List (Nat × Ctx) := ([] : List (Nat × Ctx));
     let b : List (Nat × Ctx) := ([] : List (Nat × Ctx)); let s : State := State.reset;
     let s : State := { s with lsch := { s.lsch with saved := a ++ (c.val, e) :: b } };
     let s : State := s.setFld (R.pwrDom (1 + (c.val / 32))) F.pwrDom_state 2; s.lsch.saved = a ++ (c.val, e) :: b ∧ e.prio ≤ 8 ∧
     (∀ o ∈ a, o.1 = c.val → e.prio < o.2.prio) ∧ (∀ o ∈ b, o.1 = c.val → e.prio ≤ o.2.prio) ∧
     (∀ f ∈ s.lsch.ready, f.prio < e.prio → c.val ∉ s.coresOf (s.firingSec f) ∨ s.placeFor f = none) ∧ s.clusterUp (c.val / 32) = true ∧
     (s.freeCtxs c).head? = some x) ∧
    (let c : CoreId := 1; let x : CtxId := 1; let s : State := State.reset; let s : State := s.setFld R.lschCfg F.lschCfg_runLimit 0;
     (s.fld R.lschCfg F.lschCfg_runLimit = 0 ∨ (s.ctx c x).clause = none)) ∧
    (let c : CoreId := 1; let x : CtxId := 1; let cl : Clause := dClause; let s : State := State.reset;
     let s : State := s.setFld R.lschCfg F.lschCfg_runLimit 1; let s : State := s.setCtx c x { s.ctx c x with clause := some cl };
     let s : State := s.setCtx c x { s.ctx c x with wait := none }; let s : State := s.setCtx c x { s.ctx c x with refused := none };
     s.fld R.lschCfg F.lschCfg_runLimit ≠ 0 ∧ (s.ctx c x).clause = some cl ∧ ((s.ctx c x).wait = none ∨ (s.ctx c x).atLatch = true) ∧
     (s.ctx c x).refused = none ∧ (∀ w ∈ (s.core c).posted, w.uid ≠ cl.uid)) ∧
    (let n : Fin 1024 := 1; let s : State := State.reset;
     (s.clusterUp 0 = false ∨ (s.lbank n).holder.isSome = true ∨ (∀ w ∈ s.lsch.waits, w.2 ≠ n.val))) ∧
    (let n : Fin 1024 := 1; let u : Nat := 7; let a : List (Nat × Nat) := []; let b : List (Nat × Nat) := []; let cl : Clause := dClause;
     let k : Clause := dClause; let rd : BitVec 5 := 5; let s : State := State.reset; let s : State := s.setFld (R.pwrDom (1 + 0)) F.pwrDom_state 2;
     let s : State := s.setLbank n { s.lbank n with holder := none };
     let s : State := { s with lsch := { s.lsch with waits := a ++ (u, n.val) :: b } }; let s : State := s.placeClause cl;
     let s : State := s.setCtx cl.core cl.place { s.ctx cl.core cl.place with clause := some k };
     let s : State := s.setCtx cl.core cl.place { s.ctx cl.core cl.place with wait := some (.latch rd.toNat n.val) }; s.clusterUp 0 = true ∧
     (s.lbank n).holder = none ∧ s.lsch.waits = a ++ (u, n.val) :: b ∧ s.clauseOf u = some cl ∧ cl.prio < 8 ∧
     (∀ w ∈ a, w.2 = n.val → ∀ k, s.clauseOf w.1 = some k → cl.prio < k.prio) ∧
     (∀ w ∈ b, w.2 = n.val → ∀ k, s.clauseOf w.1 = some k → cl.prio ≤ k.prio) ∧ (s.ctx cl.core cl.place).clause = some k ∧ k.uid = u ∧
     (s.ctx cl.core cl.place).wait = some (.latch rd.toNat n.val)) ∧
    (let s : State := State.reset; let s : State := { s with lsch := { s.lsch with waits := [] } };
     let s : State := { s with lsch := { s.lsch with saved := [] } }; s.lsch.waits = [] ∧ s.lsch.saved = []) ∧
    (let us : List Nat := ([7, 8] : List Nat); let dead : List Nat := ([7, 8] : List Nat); let u : Nat := 7; let n : Nat := 1;
     let cl : Clause := dClause; let rd : BitVec 5 := 1; let s : State := State.reset;
     let s : State := s.setCtx cl.core cl.place { s.ctx cl.core cl.place with wait := some (.latch rd.toNat n) };
     let s : State := s.setCtx 1 1 { clause := some dClause, wait := some (.latch 1 1) };
     let s : State := s.setCtx 2 1 { clause := some { dClause with uid := 8, core := 2 }, wait := some (.latch 5 2) };
     let s : State := s.setLbank 1 { holder := some 8 }; let s : State := s.setLbank 2 { holder := some 7 };
     let s : State := { s with lsch := { s.lsch with waits := [(8, 2), (7, 1)] } }; us = s.clauses.map (·.uid) ∧ dead = s.stuck us.length us ∧
     (s.lsch.waits.filter (fun w => dead.contains w.1 && (s.reach dead dead.length (s.waitsFor w.1)).contains w.1)).getLast? = some (u, n) ∧
     s.clauseOf u = some cl ∧ (s.ctx cl.core cl.place).wait = some (.latch rd.toNat n)) ∧
    (let u : Nat := 7; let v : Nat := 8; let m : Nat := 1; let n : Nat := 2; let cl : Clause := { dClause with uid := 8, core := 2 };
     let k : Clause := cl; let rd : BitVec 5 := 5; let s : State := State.reset;
     let s : State := { s with lsch := { s.lsch with waits := [(u, m), (v, n)] } };
     let s : State := s.setLbank m { s.lbank m with holder := some v }; let s : State := s.setLbank n { s.lbank n with holder := some u };
     let s : State := { s with lsch := { s.lsch with saved := [] } }; let s : State := s.placeClause cl;
     let s : State := s.setCtx cl.core cl.place { s.ctx cl.core cl.place with clause := some k };
     let s : State := s.setCtx cl.core cl.place { s.ctx cl.core cl.place with wait := some (.latch rd.toNat n) };
     let s : State := s.setCtx 1 1 { clause := some dClause, wait := some (.latch 1 1) }; u ≠ v ∧ s.lsch.waits = [(u, m), (v, n)] ∧
     (s.lbank m).holder = some v ∧ (s.lbank n).holder = some u ∧ s.lsch.saved = [] ∧ (s.clauseOf u).isSome = true ∧ s.clauseOf v = some cl ∧
     (s.ctx cl.core cl.place).clause = some k ∧ (s.ctx cl.core cl.place).wait = some (.latch rd.toNat n)) ∧
    (let n : Fin 256 := 1; let b : CmdBlock := { dBlock with immediate := false }; let s : State := State.reset;
     let s : State := { s with lsch := { s.lsch with store := [b] } }; let s : State := s.setFld (R.pwrDom (1 + 0)) F.pwrDom_state 2;
     s.blockAt n = some b ∧ b.ready = false ∧ s.clusterUp 0 = true ∧ b.immediate = false ∧ (s.lpValid = false ∨ s.lpPassed b.frame b.cell = false)) ∧
    (let n : Fin 256 := 1; let b : CmdBlock := dBlock; let s : State := State.reset;
     let s : State := { s with lsch := { s.lsch with store := [b] } }; let s : State := s.setFld (R.pwrDom (1 + 0)) F.pwrDom_state 2;
     s.blockAt n = some b ∧ b.ready = false ∧ s.clusterUp 0 = true ∧ (b.immediate = true ∨ (s.lpValid = true ∧ s.lpPassed b.frame b.cell = true)) ∧
     (∀ d ∈ s.lsch.store, d.ready = true ∨ b.prio < d.prio ∨ (d.prio = b.prio ∧ b.order ≤ d.order)) ∧ s.coresOf b.sec = []) ∧
    (let n : Fin 256 := 1; let b : CmdBlock := dBlock; let s : State := State.reset;
     let s : State := { s with lsch := { s.lsch with store := [b] } }; let s : State := s.setFld (R.pwrDom (1 + 0)) F.pwrDom_state 2;
     let s : State := s.setCore 1 { s.core 1 with activeLoaded := true }; let s : State := s.setBit (R.coreCfg 1) F.coreCfg_dispatchEn true;
     let s : State := s.setFld (R.pwrDom 1) F.pwrDom_state 2; s.blockAt n = some b ∧ b.ready = false ∧ s.clusterUp 0 = true ∧
     (b.immediate = true ∨ (s.lpValid = true ∧ s.lpPassed b.frame b.cell = true)) ∧
     (∀ d ∈ s.lsch.store, d.ready = true ∨ b.prio < d.prio ∨ (d.prio = b.prio ∧ b.order ≤ d.order)) ∧ s.coresOf b.sec ≠ []) ∧
    (let c : CoreId := 1; let e : Ctx := { clause := some dClause }; let x : Nat := 0; let a : List (Nat × Ctx) := ([] : List (Nat × Ctx));
     let b : List (Nat × Ctx) := ([] : List (Nat × Ctx)); let y : Nat := 3; let s : State := State.reset;
     let s : State := { s with lsch := { s.lsch with saved := a ++ (c.val, e) :: b } };
     let s : State := s.setFld (R.pwrDom (1 + (c.val / 32))) F.pwrDom_state 2; s.lsch.saved = a ++ (c.val, e) :: b ∧ e.prio ≤ 8 ∧
     (∀ o ∈ a, o.1 = c.val → e.prio < o.2.prio) ∧ (∀ o ∈ b, o.1 = c.val → e.prio ≤ o.2.prio) ∧
     (∀ f ∈ s.lsch.ready, f.prio < e.prio → c.val ∉ s.coresOf (s.firingSec f) ∨ s.placeFor f = none) ∧ s.clusterUp (c.val / 32) = true ∧
     (s.freeCtxs c).head? = some x ∧ y ≠ x) ∧
    (let c : CoreId := 1; let x : CtxId := 1; let cl : Clause := { dClause with latches := [4] }; let n : Nat := 4; let s : State := State.reset;
     let s : State := s.setFld R.lschCfg F.lschCfg_runLimit 1; let s : State := s.setCtx c x { s.ctx c x with clause := some cl };
     let s : State := s.setCtx c x { s.ctx c x with wait := none }; let s : State := s.setCtx c x { s.ctx c x with refused := none };
     s.fld R.lschCfg F.lschCfg_runLimit ≠ 0 ∧ (s.ctx c x).clause = some cl ∧ ((s.ctx c x).wait = none ∨ (s.ctx c x).atLatch = true) ∧
     (s.ctx c x).refused = none ∧ (∀ w ∈ (s.core c).posted, w.uid ≠ cl.uid) ∧ n ∈ cl.latches) ∧
    (let c : CoreId := 1; let x : CtxId := 1; let cl : Clause := dClause; let n : Nat := 0; let s : State := State.reset;
     let s : State := s.setFld R.lschCfg F.lschCfg_runLimit 1; let s : State := s.setCtx c x { s.ctx c x with clause := some cl };
     let s : State := s.setCtx c x { s.ctx c x with wait := none }; let s : State := s.setCtx c x { s.ctx c x with refused := none };
     s.fld R.lschCfg F.lschCfg_runLimit ≠ 0 ∧ (s.ctx c x).clause = some cl ∧ ((s.ctx c x).wait = none ∨ (s.ctx c x).atLatch = true) ∧
     (s.ctx c x).refused = none ∧ (∀ w ∈ (s.core c).posted, w.uid ≠ cl.uid) ∧ n ∉ cl.latches) ∧
    (let c : CoreId := 1; let x : CtxId := 1; let cl : Clause := dClause; let s : State := State.reset;
     let s : State := s.setFld R.lschCfg F.lschCfg_runLimit 1; let s : State := s.setCtx c x { s.ctx c x with clause := some cl };
     let s : State := s.setCtx c x { s.ctx c x with wait := none }; let s : State := s.setCtx c x { s.ctx c x with refused := none };
     let s : State := { s with lsch := { s.lsch with bindings := [] } }; s.fld R.lschCfg F.lschCfg_runLimit ≠ 0 ∧ (s.ctx c x).clause = some cl ∧
     ((s.ctx c x).wait = none ∨ (s.ctx c x).atLatch = true) ∧ (s.ctx c x).refused = none ∧ (∀ w ∈ (s.core c).posted, w.uid ≠ cl.uid) ∧
     (s.ctx c x).objects = [] ∧ cl.block = false ∧ cl.core = c.val ∧ s.lsch.bindings = []) ∧
    (let n : Fin 1024 := 1; let u : Nat := 7; let a : List (Nat × Nat) := []; let b : List (Nat × Nat) := []; let cl : Clause := dClause;
     let k : Clause := dClause; let rd : BitVec 5 := 5; let s : State := State.reset; let s : State := s.setFld (R.pwrDom (1 + 0)) F.pwrDom_state 2;
     let s : State := s.setLbank n { s.lbank n with holder := none };
     let s : State := { s with lsch := { s.lsch with waits := a ++ (u, n.val) :: b } }; let s : State := s.placeClause cl;
     let s : State := s.setCtx cl.core cl.place { s.ctx cl.core cl.place with clause := some k };
     let s : State := s.setCtx cl.core cl.place { s.ctx cl.core cl.place with wait := some (.latch rd.toNat n.val) }; s.clusterUp 0 = true ∧
     (s.lbank n).holder = none ∧ s.lsch.waits = a ++ (u, n.val) :: b ∧ s.clauseOf u = some cl ∧ cl.prio < 8 ∧
     (∀ w ∈ a, w.2 = n.val → ∀ k, s.clauseOf w.1 = some k → cl.prio < k.prio) ∧
     (∀ w ∈ b, w.2 = n.val → ∀ k, s.clauseOf w.1 = some k → cl.prio ≤ k.prio) ∧ (s.ctx cl.core cl.place).clause = some k ∧ k.uid = u ∧
     (s.ctx cl.core cl.place).wait = some (.latch rd.toNat n.val) ∧ rd ≠ 0) ∧
    (let n : Fin 1024 := 1; let u : Nat := 7; let a : List (Nat × Nat) := []; let b : List (Nat × Nat) := []; let cl : Clause := dClause;
     let k : Clause := dClause; let rd : BitVec 5 := 5; let m : Nat := 0; let s : State := State.reset;
     let s : State := s.setFld (R.pwrDom (1 + 0)) F.pwrDom_state 2; let s : State := s.setLbank n { s.lbank n with holder := none };
     let s : State := { s with lsch := { s.lsch with waits := a ++ (u, n.val) :: b } }; let s : State := s.placeClause cl;
     let s : State := s.setCtx cl.core cl.place { s.ctx cl.core cl.place with clause := some k };
     let s : State := s.setCtx cl.core cl.place { s.ctx cl.core cl.place with wait := some (.latch rd.toNat n.val) }; s.clusterUp 0 = true ∧
     (s.lbank n).holder = none ∧ s.lsch.waits = a ++ (u, n.val) :: b ∧ s.clauseOf u = some cl ∧ cl.prio < 8 ∧
     (∀ w ∈ a, w.2 = n.val → ∀ k, s.clauseOf w.1 = some k → cl.prio < k.prio) ∧
     (∀ w ∈ b, w.2 = n.val → ∀ k, s.clauseOf w.1 = some k → cl.prio ≤ k.prio) ∧ (s.ctx cl.core cl.place).clause = some k ∧ k.uid = u ∧
     (s.ctx cl.core cl.place).wait = some (.latch rd.toNat n.val) ∧ m ≠ n.val) ∧
    (let us : List Nat := ([7, 8] : List Nat); let dead : List Nat := ([7, 8] : List Nat); let u : Nat := 7; let n : Nat := 1;
     let cl : Clause := dClause; let rd : BitVec 5 := 1; let s : State := State.reset;
     let s : State := s.setCtx cl.core cl.place { s.ctx cl.core cl.place with wait := some (.latch rd.toNat n) };
     let s : State := s.setCtx 1 1 { clause := some dClause, wait := some (.latch 1 1) };
     let s : State := s.setCtx 2 1 { clause := some { dClause with uid := 8, core := 2 }, wait := some (.latch 5 2) };
     let s : State := s.setLbank 1 { holder := some 8 }; let s : State := s.setLbank 2 { holder := some 7 };
     let s : State := { s with lsch := { s.lsch with waits := [(8, 2), (7, 1)] } }; us = s.clauses.map (·.uid) ∧ dead = s.stuck us.length us ∧
     (s.lsch.waits.filter (fun w => dead.contains w.1 && (s.reach dead dead.length (s.waitsFor w.1)).contains w.1)).getLast? = some (u, n) ∧
     s.clauseOf u = some cl ∧ (s.ctx cl.core cl.place).wait = some (.latch rd.toNat n) ∧ rd ≠ 0) ∧
    (let u : Nat := 7; let v : Nat := 8; let m : Nat := 1; let n : Nat := 2; let cl : Clause := { dClause with uid := 8, core := 2 };
     let k : Clause := cl; let rd : BitVec 5 := 5; let s : State := State.reset;
     let s : State := { s with lsch := { s.lsch with waits := [(u, m), (v, n)] } };
     let s : State := s.setLbank m { s.lbank m with holder := some v }; let s : State := s.setLbank n { s.lbank n with holder := some u };
     let s : State := { s with lsch := { s.lsch with saved := [] } }; let s : State := s.placeClause cl;
     let s : State := s.setCtx cl.core cl.place { s.ctx cl.core cl.place with clause := some k };
     let s : State := s.setCtx cl.core cl.place { s.ctx cl.core cl.place with wait := some (.latch rd.toNat n) };
     let s : State := s.setCtx 1 1 { clause := some dClause, wait := some (.latch 1 1) }; u ≠ v ∧ s.lsch.waits = [(u, m), (v, n)] ∧
     (s.lbank m).holder = some v ∧ (s.lbank n).holder = some u ∧ s.lsch.saved = [] ∧ (s.clauseOf u).isSome = true ∧ s.clauseOf v = some cl ∧
     (s.ctx cl.core cl.place).clause = some k ∧ (s.ctx cl.core cl.place).wait = some (.latch rd.toNat n) ∧ rd ≠ 0) := by
  refine ⟨?_, ?_, ?_, ?_, ?_, ?_, ?_, ?_, ?_, ?_, ?_, ?_, ?_, ?_, ?_, ?_, ?_, ?_, ?_, ?_, ?_⟩ <;> decide +kernel

/-- Operands and states that meet the hypotheses of `Obligations.LschTablesLoaderAndSwaps`, in the order of its clauses. -/
theorem witness_LschTablesLoaderAndSwaps_1 :
    (let s : State := State.reset; let s : State := s.setFld R.lschCmd F.lschCmd_status 0;
     (s.fld R.lschCmd F.lschCmd_status ≠ 1 ∨ s.clusterUp 0 = false)) ∧
    (let s : State := State.reset; let s : State := s.setFld R.lschCmd F.lschCmd_status 1;
     let s : State := s.setFld (R.pwrDom (1 + 0)) F.pwrDom_state 2; let tb : Nat := s.fld R.lschCmd F.lschCmd_table;
     let i : Nat := s.fld R.lschCmd F.lschCmd_index; let op : Nat := s.fld R.lschCmd F.lschCmd_op; let d : BitVec 64 := s.reg R.lschData0;
     s.fld R.lschCmd F.lschCmd_status = 1 ∧ s.clusterUp 0 = true ∧ s.fld R.lschCmd F.lschCmd_table = tb ∧ s.fld R.lschCmd F.lschCmd_index = i ∧
     s.fld R.lschCmd F.lschCmd_op = op ∧ s.reg R.lschData0 = d) ∧
    (let tb : Nat := 1; let i : Nat := 4096; let s : State := State.reset; let s : State := s.setFld R.lschCmd F.lschCmd_status 1;
     let s : State := s.setFld (R.pwrDom (1 + 0)) F.pwrDom_state 2; let s : State := s.setFld R.lschCmd F.lschCmd_table tb;
     let s : State := s.setFld R.lschCmd F.lschCmd_index i; let op : Nat := s.fld R.lschCmd F.lschCmd_op; let d : BitVec 64 := s.reg R.lschData0;
     s.fld R.lschCmd F.lschCmd_status = 1 ∧ s.clusterUp 0 = true ∧ s.fld R.lschCmd F.lschCmd_table = tb ∧ s.fld R.lschCmd F.lschCmd_index = i ∧
     s.fld R.lschCmd F.lschCmd_op = op ∧ s.reg R.lschData0 = d ∧ lschSize tb ≤ i) ∧
    (let tb : Nat := 0; let op : Nat := 0; let s : State := State.reset; let s : State := s.setFld R.lschCmd F.lschCmd_status 1;
     let s : State := s.setFld (R.pwrDom (1 + 0)) F.pwrDom_state 2; let s : State := s.setFld R.lschCmd F.lschCmd_table tb;
     let s : State := s.setFld R.lschCmd F.lschCmd_op op; let i : Nat := s.fld R.lschCmd F.lschCmd_index; let d : BitVec 64 := s.reg R.lschData0;
     s.fld R.lschCmd F.lschCmd_status = 1 ∧ s.clusterUp 0 = true ∧ s.fld R.lschCmd F.lschCmd_table = tb ∧ s.fld R.lschCmd F.lschCmd_index = i ∧
     s.fld R.lschCmd F.lschCmd_op = op ∧ s.reg R.lschData0 = d ∧ tb = 0 ∧ op = 0) ∧
    (let tb : Nat := 0; let i : Nat := 9; let op : Nat := 1; let d : BitVec 64 := 0; let s : State := State.reset;
     let s : State := s.setFld R.lschCmd F.lschCmd_status 1; let s : State := s.setFld (R.pwrDom (1 + 0)) F.pwrDom_state 2;
     let s : State := s.setFld R.lschCmd F.lschCmd_table tb; let s : State := s.setFld R.lschCmd F.lschCmd_index i;
     let s : State := s.setFld R.lschCmd F.lschCmd_op op; let s : State := s.setReg R.lschData0 d;
     let s : State := s.setGnode 9 { cfg := 2 ^ 63, tokens := [1, 2] }; s.fld R.lschCmd F.lschCmd_status = 1 ∧ s.clusterUp 0 = true ∧
     s.fld R.lschCmd F.lschCmd_table = tb ∧ s.fld R.lschCmd F.lschCmd_index = i ∧ s.fld R.lschCmd F.lschCmd_op = op ∧ s.reg R.lschData0 = d ∧
     tb = 0 ∧ op = 1 ∧ bitOf d.toNat 63 = false) ∧
    (let tb : Nat := 0; let i : Nat := 9; let op : Nat := 1; let d : BitVec 64 := 7 * 2 ^ 61; let s : State := State.reset;
     let s : State := s.setFld R.lschCmd F.lschCmd_status 1; let s : State := s.setFld (R.pwrDom (1 + 0)) F.pwrDom_state 2;
     let s : State := s.setFld R.lschCmd F.lschCmd_table tb; let s : State := s.setFld R.lschCmd F.lschCmd_index i;
     let s : State := s.setFld R.lschCmd F.lschCmd_op op; let s : State := s.setReg R.lschData0 d; s.fld R.lschCmd F.lschCmd_status = 1 ∧
     s.clusterUp 0 = true ∧ s.fld R.lschCmd F.lschCmd_table = tb ∧ s.fld R.lschCmd F.lschCmd_index = i ∧ s.fld R.lschCmd F.lschCmd_op = op ∧
     s.reg R.lschData0 = d ∧ tb = 0 ∧ op = 1 ∧ bitOf d.toNat 63 = true ∧ bitsOf d.toNat 62 61 = 3) ∧
    (let tb : Nat := 0; let i : Nat := 9; let op : Nat := 1; let d : BitVec 64 := 2 ^ 63; let s : State := State.reset;
     let s : State := s.setFld R.lschCmd F.lschCmd_status 1; let s : State := s.setFld (R.pwrDom (1 + 0)) F.pwrDom_state 2;
     let s : State := s.setFld R.lschCmd F.lschCmd_table tb; let s : State := s.setFld R.lschCmd F.lschCmd_index i;
     let s : State := s.setFld R.lschCmd F.lschCmd_op op; let s : State := s.setReg R.lschData0 d;
     let s : State := s.setGnode 9 { cfg := 2 ^ 63, tokens := [1, 2] }; s.fld R.lschCmd F.lschCmd_status = 1 ∧ s.clusterUp 0 = true ∧
     s.fld R.lschCmd F.lschCmd_table = tb ∧ s.fld R.lschCmd F.lschCmd_index = i ∧ s.fld R.lschCmd F.lschCmd_op = op ∧ s.reg R.lschData0 = d ∧
     tb = 0 ∧ op = 1 ∧ bitOf d.toNat 63 = true ∧ bitsOf d.toNat 62 61 ≠ 3 ∧ ((s.gnode i).tokens ≠ [] ∨ s.firings i ≠ [] ∨ s.nodeServing i = true)) ∧
    (let tb : Nat := 0; let i : Nat := 9; let op : Nat := 1; let d : BitVec 64 := 2 ^ 63; let s : State := State.reset;
     let s : State := s.setFld R.lschCmd F.lschCmd_status 1; let s : State := s.setFld (R.pwrDom (1 + 0)) F.pwrDom_state 2;
     let s : State := s.setFld R.lschCmd F.lschCmd_table tb; let s : State := s.setFld R.lschCmd F.lschCmd_index i;
     let s : State := s.setFld R.lschCmd F.lschCmd_op op; let s : State := s.setReg R.lschData0 d;
     let s : State := s.setGnode i { s.gnode i with tokens := [] }; s.fld R.lschCmd F.lschCmd_status = 1 ∧ s.clusterUp 0 = true ∧
     s.fld R.lschCmd F.lschCmd_table = tb ∧ s.fld R.lschCmd F.lschCmd_index = i ∧ s.fld R.lschCmd F.lschCmd_op = op ∧ s.reg R.lschData0 = d ∧
     tb = 0 ∧ op = 1 ∧ bitOf d.toNat 63 = true ∧ bitsOf d.toNat 62 61 ≠ 3 ∧ (s.gnode i).tokens = [] ∧ s.firings i = [] ∧ s.nodeServing i = false) ∧
    (let tb : Nat := 1; let i : Nat := 9; let op : Nat := 1; let d : BitVec 64 := 2 ^ 63 + 7 * 2 ^ 46; let s : State := State.reset;
     let s : State := s.setFld R.lschCmd F.lschCmd_status 1; let s : State := s.setFld (R.pwrDom (1 + 0)) F.pwrDom_state 2;
     let s : State := s.setFld R.lschCmd F.lschCmd_table tb; let s : State := s.setFld R.lschCmd F.lschCmd_index i;
     let s : State := s.setFld R.lschCmd F.lschCmd_op op; let s : State := s.setReg R.lschData0 d; s.fld R.lschCmd F.lschCmd_status = 1 ∧
     s.clusterUp 0 = true ∧ s.fld R.lschCmd F.lschCmd_table = tb ∧ s.fld R.lschCmd F.lschCmd_index = i ∧ s.fld R.lschCmd F.lschCmd_op = op ∧
     s.reg R.lschData0 = d ∧ tb = 1 ∧ op = 1 ∧ i < 4096) ∧
    (let tb : Nat := 2; let i : Nat := 9; let op : Nat := 1; let d : BitVec 64 := 2 ^ 63 + 7 * 2 ^ 47; let s : State := State.reset;
     let s : State := s.setFld R.lschCmd F.lschCmd_status 1; let s : State := s.setFld (R.pwrDom (1 + 0)) F.pwrDom_state 2;
     let s : State := s.setFld R.lschCmd F.lschCmd_table tb; let s : State := s.setFld R.lschCmd F.lschCmd_index i;
     let s : State := s.setFld R.lschCmd F.lschCmd_op op; let s : State := s.setReg R.lschData0 d; s.fld R.lschCmd F.lschCmd_status = 1 ∧
     s.clusterUp 0 = true ∧ s.fld R.lschCmd F.lschCmd_table = tb ∧ s.fld R.lschCmd F.lschCmd_index = i ∧ s.fld R.lschCmd F.lschCmd_op = op ∧
     s.reg R.lschData0 = d ∧ tb = 2 ∧ op = 1 ∧ i < 16384) ∧
    (let s : State := State.reset; let s : State := { s with lsch := { s.lsch with loading := false } };
     let s : State := s.setFld (R.pwrDom (1 + 0)) F.pwrDom_state 2; s.lsch.loading = false ∧ s.clusterUp 0 = true) ∧
    (let s : State := State.reset; let s : State := { s with lsch := { s.lsch with loading := true } };
     (s.lsch.loading = true ∨ s.clusterUp 0 = false)) ∧
    (let s : State := State.reset; let s : State := { s with lsch := { s.lsch with loading := true } };
     let s : State := s.setFld (R.pwrDom (1 + 0)) F.pwrDom_state 2; s.lsch.loading = true ∧ s.clusterUp 0 = true) ∧
    (let k : Nat := 0; let l : List Nat := []; let s : State := State.reset; let s : State := { s with lsch := { s.lsch with loading := false } };
     let s : State := s.setFld (R.pwrDom (1 + 0)) F.pwrDom_state 2; let s : State := { s with lsch := { s.lsch with reload := k :: l } };
     s.lsch.loading = false ∧ s.clusterUp 0 = true ∧ s.lsch.reload = k :: l) ∧
    (let st : Nat := 4; let cause : Nat := 0; let s : State := State.reset; let s : State := { s with lsch := { s.lsch with loading := true } };
     let s : State := s.setFld (R.pwrDom (1 + 0)) F.pwrDom_state 2; s.lsch.loading = true ∧ s.clusterUp 0 = true ∧ ((st = 4 ∧ cause = 0 ∧
     s.fld R.lschHbmArea F.lschHbmArea_gib = 0) ∨ (st = 2 ∧ cause = 1 ∧ s.imgInArea = true ∧
     beNat (s.readBytes s.imgCell 4) ≠ 0x4B5A4C54) ∨ (st = 2 ∧ cause ≠ 0 ∧ s.imgInArea = true ∧ s.imgCheck s.imgCell = cause) ∨ (st = 3 ∧ cause = 0 ∧
     s.imgInArea = true ∧ s.imgCheck s.imgCell = 0 ∧ ∃ c : CoreId, 0 < s.bankUsers c (1 - (s.core c).active) ∧
     ∃ w ∈ s.imgMasks s.imgCell, bitOf w.toNat c.val = true))) ∧
    (let s : State := State.reset; s.swapReady = none) ∧
    (let v : Word := 0; let g : Nat := min 1062499 (bitsOf v.toNat 52 32); let s : State := State.reset;
     let s : State := { s with lsch := { s.lsch with image := some ⟨1, [2]⟩ } };
     let s : State := s.setCore 1 { s.core 1 with standbyLoaded := true }; let s : State := s.setFld R.lschLoadCtl F.lschLoadCtl_status 0;
     s.swapReady.isSome = true ∧ g = min 1062499 (bitsOf v.toNat 52 32) ∧
     (s.lpValid = false ∨ s.lpPassed (s.fld R.lschSwapF F.lschSwapF_f) g = false)) ∧
    (let v : Word := 1; let g : Nat := min 1062499 (bitsOf v.toNat 52 32); let s : State := State.reset;
     let s : State := s.setBit R.timeStatus F.timeStatus_lpValid true; let s : State := { s with lsch := { s.lsch with image := some ⟨1, [2]⟩ } };
     let s : State := s.setCore 1 { s.core 1 with standbyLoaded := true }; let s : State := s.setFld R.lschLoadCtl F.lschLoadCtl_status 0;
     s.swapReady.isSome = true ∧ g = min 1062499 (bitsOf v.toNat 52 32) ∧ s.lpValid = true ∧ s.lpPassed (s.fld R.lschSwapF F.lschSwapF_f) g = true) ∧
    (let s : State := State.reset; let s : State := s.setBit R.lschSwapCtl F.lschSwapCtl_armed false; s.bit R.lschSwapCtl F.lschSwapCtl_armed = false) ∧
    (let img : Image := ⟨1, [2]⟩; let s : State := State.reset; let s : State := s.setBit R.lschSwapCtl F.lschSwapCtl_armed true;
     let s : State := s.setBit R.timeStatus F.timeStatus_lpValid true; let s : State := { s with lsch := { s.lsch with image := some img } };
     let s : State := { s with time := { s.time with frame := 5 } }; s.bit R.lschSwapCtl F.lschSwapCtl_armed = true ∧ s.lpValid = true ∧
     s.lsch.image = some img ∧ s.lpPassed (s.fld R.lschSwapF F.lschSwapF_f) (min 1062499 (s.fld R.lschSwapCtl F.lschSwapCtl_cell)) = true) ∧
    (let v : Word := 1; let g : Nat := min 8 (v.toNat % 16); let s : State := State.reset; let s : State := s.setFld R.qmHbmCfg F.qmHbmCfg_upGib 60;
     let up : Nat := s.fld R.qmHbmCfg F.qmHbmCfg_upGib; g = min 8 (v.toNat % 16) ∧ up = s.fld R.qmHbmCfg F.qmHbmCfg_upGib ∧
     (s.hbmGib < up + g + 4 ∨ (s.hbmGib - up - g) * cellsPerGib < s.hbmUsed .dn)) ∧
    (let v : Word := 0; let g : Nat := min 8 (v.toNat % 16); let s : State := State.reset; let up : Nat := s.fld R.qmHbmCfg F.qmHbmCfg_upGib;
     g = min 8 (v.toNat % 16) ∧ up = s.fld R.qmHbmCfg F.qmHbmCfg_upGib ∧ up + g + 4 ≤ s.hbmGib ∧ s.hbmUsed .dn ≤ (s.hbmGib - up - g) * cellsPerGib) ∧
    (let tb : Nat := 0; let i : Nat := 9; let op : Nat := 1; let d : BitVec 64 := 0; let j : Nat := 0; let s : State := State.reset;
     let s : State := s.setFld R.lschCmd F.lschCmd_status 1; let s : State := s.setFld (R.pwrDom (1 + 0)) F.pwrDom_state 2;
     let s : State := s.setFld R.lschCmd F.lschCmd_table tb; let s : State := s.setFld R.lschCmd F.lschCmd_index i;
     let s : State := s.setFld R.lschCmd F.lschCmd_op op; let s : State := s.setReg R.lschData0 d;
     let s : State := s.setGnode 9 { cfg := 2 ^ 63, tokens := [1, 2] }; s.fld R.lschCmd F.lschCmd_status = 1 ∧ s.clusterUp 0 = true ∧
     s.fld R.lschCmd F.lschCmd_table = tb ∧ s.fld R.lschCmd F.lschCmd_index = i ∧ s.fld R.lschCmd F.lschCmd_op = op ∧ s.reg R.lschData0 = d ∧
     tb = 0 ∧ op = 1 ∧ bitOf d.toNat 63 = false ∧ j ≠ i) ∧
    (let tb : Nat := 0; let i : Nat := 9; let op : Nat := 1; let d : BitVec 64 := 2 ^ 63; let j : Nat := 0; let s : State := State.reset;
     let s : State := s.setFld R.lschCmd F.lschCmd_status 1; let s : State := s.setFld (R.pwrDom (1 + 0)) F.pwrDom_state 2;
     let s : State := s.setFld R.lschCmd F.lschCmd_table tb; let s : State := s.setFld R.lschCmd F.lschCmd_index i;
     let s : State := s.setFld R.lschCmd F.lschCmd_op op; let s : State := s.setReg R.lschData0 d;
     let s : State := s.setGnode i { s.gnode i with tokens := [] }; s.fld R.lschCmd F.lschCmd_status = 1 ∧ s.clusterUp 0 = true ∧
     s.fld R.lschCmd F.lschCmd_table = tb ∧ s.fld R.lschCmd F.lschCmd_index = i ∧ s.fld R.lschCmd F.lschCmd_op = op ∧ s.reg R.lschData0 = d ∧
     tb = 0 ∧ op = 1 ∧ bitOf d.toNat 63 = true ∧ bitsOf d.toNat 62 61 ≠ 3 ∧ (s.gnode i).tokens = [] ∧ s.firings i = [] ∧ s.nodeServing i = false ∧
     j ≠ i) := by
  refine ⟨?_, ?_, ?_, ?_, ?_, ?_, ?_, ?_, ?_, ?_, ?_, ?_, ?_, ?_, ?_, ?_, ?_, ?_, ?_, ?_, ?_, ?_, ?_, ?_⟩ <;> decide +kernel

/-- Operands and states that meet the hypotheses of `Obligations.LschTablesLoaderAndSwaps`, in the order of its clauses. -/
theorem witness_LschTablesLoaderAndSwaps_2 :
    (let tb : Nat := 1; let i : Nat := 9; let op : Nat := 1; let d : BitVec 64 := 2 ^ 63 + 7 * 2 ^ 46; let j : Nat := 0;
     let s : State := State.reset; let s : State := s.setFld R.lschCmd F.lschCmd_status 1;
     let s : State := s.setFld (R.pwrDom (1 + 0)) F.pwrDom_state 2; let s : State := s.setFld R.lschCmd F.lschCmd_table tb;
     let s : State := s.setFld R.lschCmd F.lschCmd_index i; let s : State := s.setFld R.lschCmd F.lschCmd_op op;
     let s : State := s.setReg R.lschData0 d; s.fld R.lschCmd F.lschCmd_status = 1 ∧ s.clusterUp 0 = true ∧ s.fld R.lschCmd F.lschCmd_table = tb ∧
     s.fld R.lschCmd F.lschCmd_index = i ∧ s.fld R.lschCmd F.lschCmd_op = op ∧ s.reg R.lschData0 = d ∧ tb = 1 ∧ op = 1 ∧ i < 4096 ∧ j ≠ i) ∧
    (let tb : Nat := 2; let i : Nat := 9; let op : Nat := 1; let d : BitVec 64 := 2 ^ 63 + 7 * 2 ^ 47; let j : Nat := 0;
     let s : State := State.reset; let s : State := s.setFld R.lschCmd F.lschCmd_status 1;
     let s : State := s.setFld (R.pwrDom (1 + 0)) F.pwrDom_state 2; let s : State := s.setFld R.lschCmd F.lschCmd_table tb;
     let s : State := s.setFld R.lschCmd F.lschCmd_index i; let s : State := s.setFld R.lschCmd F.lschCmd_op op;
     let s : State := s.setReg R.lschData0 d; s.fld R.lschCmd F.lschCmd_status = 1 ∧ s.clusterUp 0 = true ∧ s.fld R.lschCmd F.lschCmd_table = tb ∧
     s.fld R.lschCmd F.lschCmd_index = i ∧ s.fld R.lschCmd F.lschCmd_op = op ∧ s.reg R.lschData0 = d ∧ tb = 2 ∧ op = 1 ∧ i < 16384 ∧ j ≠ i) ∧
    (let img : Image := ⟨1, [2]⟩; let c : Nat := 0; let s : State := State.reset; let s : State := s.setBit R.lschSwapCtl F.lschSwapCtl_armed true;
     let s : State := s.setBit R.timeStatus F.timeStatus_lpValid true; let s : State := { s with lsch := { s.lsch with image := some img } };
     let s : State := { s with time := { s.time with frame := 5 } }; s.bit R.lschSwapCtl F.lschSwapCtl_armed = true ∧ s.lpValid = true ∧
     s.lsch.image = some img ∧ s.lpPassed (s.fld R.lschSwapF F.lschSwapF_f) (min 1062499 (s.fld R.lschSwapCtl F.lschSwapCtl_cell)) = true ∧
     (c ∉ img.cores ∨ (s.core c).standbyLoaded = false)) ∧
    (let img : Image := ⟨1, [2]⟩; let s : State := State.reset; let s : State := s.setBit R.lschSwapCtl F.lschSwapCtl_armed true;
     let s : State := s.setBit R.timeStatus F.timeStatus_lpValid true; let s : State := { s with lsch := { s.lsch with image := some img } };
     let s : State := { s with time := { s.time with frame := 5 } }; s.bit R.lschSwapCtl F.lschSwapCtl_armed = true ∧ s.lpValid = true ∧
     s.lsch.image = some img ∧ s.lpPassed (s.fld R.lschSwapF F.lschSwapF_f) (min 1062499 (s.fld R.lschSwapCtl F.lschSwapCtl_cell)) = true ∧
     s.preura.swaps.length < 4) := by
  refine ⟨?_, ?_, ?_, ?_⟩ <;> decide +kernel

/-- Operands and states that meet the hypotheses of `Obligations.LimArithmeticAndFields`, in the order of its clauses. -/
theorem witness_LimArithmeticAndFields :
    (let c : CoreId := 1; let x : CtxId := 1; let cl : Clause := dClause; let rd : GReg := 3; let ra : GReg := 1; let rb : GReg := 2;
     let a : BitVec 64 := 0xFEDCBA9876543210; let b : BitVec 64 := 0x8000000000000013; let d : BitVec 64 := 0x55AA55AA55AA55AA;
     let s : State := State.reset; let s : State := s.putInstr c x cl ((.add rd ra rb));
     let s : State := s.setCtx c x { s.ctx c x with g := [(1, 0xFEDCBA9876543210), (2, 0x8000000000000013), (3, 0x55AA55AA55AA55AA)] };
     (s.ctx c x).gr ra = a ∧ (s.ctx c x).gr rb = b ∧ (s.ctx c x).gr rd = d ∧ s.standsAt c x cl (.add rd ra rb)) ∧
    (let c : CoreId := 1; let x : CtxId := 1; let cl : Clause := dClause; let rd : GReg := 3; let ra : GReg := 1; let rb : GReg := 2;
     let imm : BitVec 14 := 0x2ABC; let a : BitVec 64 := 0xFEDCBA9876543210; let b : BitVec 64 := 0x8000000000000013;
     let d : BitVec 64 := 0x55AA55AA55AA55AA; let s : State := State.reset; let s : State := s.putInstr c x cl ((.addi rd ra imm));
     let s : State := s.setCtx c x { s.ctx c x with g := [(1, 0xFEDCBA9876543210), (2, 0x8000000000000013), (3, 0x55AA55AA55AA55AA)] };
     (s.ctx c x).gr ra = a ∧ (s.ctx c x).gr rb = b ∧ (s.ctx c x).gr rd = d ∧ s.standsAt c x cl (.addi rd ra imm)) ∧
    (let c : CoreId := 1; let x : CtxId := 1; let cl : Clause := dClause; let rd : GReg := 3; let ra : GReg := 1; let rb : GReg := 2;
     let amt : BitVec 6 := 9; let a : BitVec 64 := 0xFEDCBA9876543210; let b : BitVec 64 := 0x8000000000000013;
     let d : BitVec 64 := 0x55AA55AA55AA55AA; let s : State := State.reset; let s : State := s.putInstr c x cl ((.shli rd ra amt));
     let s : State := s.setCtx c x { s.ctx c x with g := [(1, 0xFEDCBA9876543210), (2, 0x8000000000000013), (3, 0x55AA55AA55AA55AA)] };
     (s.ctx c x).gr ra = a ∧ (s.ctx c x).gr rb = b ∧ (s.ctx c x).gr rd = d ∧ s.standsAt c x cl (.shli rd ra amt)) ∧
    (let c : CoreId := 1; let x : CtxId := 1; let cl : Clause := dClause; let rd : GReg := 3; let ra : GReg := 1; let rb : GReg := 2;
     let lo : BitVec 6 := 11; let len : BitVec 6 := 20; let a : BitVec 64 := 0xFEDCBA9876543210; let b : BitVec 64 := 0x8000000000000013;
     let d : BitVec 64 := 0x55AA55AA55AA55AA; let s : State := State.reset; let s : State := s.putInstr c x cl ((.ext rd ra lo len));
     let s : State := s.setCtx c x { s.ctx c x with g := [(1, 0xFEDCBA9876543210), (2, 0x8000000000000013), (3, 0x55AA55AA55AA55AA)] };
     (s.ctx c x).gr ra = a ∧ (s.ctx c x).gr rb = b ∧ (s.ctx c x).gr rd = d ∧ s.standsAt c x cl (.ext rd ra lo len)) ∧
    (let c : CoreId := 1; let x : CtxId := 1; let cl : Clause := dClause; let rd : GReg := 3; let ra : GReg := 1; let rb : GReg := 2;
     let lo : BitVec 6 := 11; let len : BitVec 6 := 20; let a : BitVec 64 := 0xFEDCBA9876543210; let b : BitVec 64 := 0x8000000000000013;
     let d : BitVec 64 := 0x55AA55AA55AA55AA; let s : State := State.reset; let s : State := s.putInstr c x cl ((.exts rd ra lo len));
     let s : State := s.setCtx c x { s.ctx c x with g := [(1, 0xFEDCBA9876543210), (2, 0x8000000000000013), (3, 0x55AA55AA55AA55AA)] };
     (s.ctx c x).gr ra = a ∧ (s.ctx c x).gr rb = b ∧ (s.ctx c x).gr rd = d ∧ s.standsAt c x cl (.exts rd ra lo len)) ∧
    (let c : CoreId := 1; let x : CtxId := 1; let cl : Clause := dClause; let rd : GReg := 3; let ra : GReg := 1; let rb : GReg := 2;
     let lo : BitVec 6 := 11; let len : BitVec 6 := 20; let a : BitVec 64 := 0xFEDCBA9876543210; let b : BitVec 64 := 0x8000000000000013;
     let d : BitVec 64 := 0x55AA55AA55AA55AA; let s : State := State.reset; let s : State := s.putInstr c x cl ((.ins rd ra lo len));
     let s : State := s.setCtx c x { s.ctx c x with g := [(1, 0xFEDCBA9876543210), (2, 0x8000000000000013), (3, 0x55AA55AA55AA55AA)] };
     (s.ctx c x).gr ra = a ∧ (s.ctx c x).gr rb = b ∧ (s.ctx c x).gr rd = d ∧ s.standsAt c x cl (.ins rd ra lo len) ∧ lo.toNat + len.toNat < 64) ∧
    (let c : CoreId := 1; let x : CtxId := 1; let cl : Clause := dClause; let rd : GReg := 3; let ra : GReg := 1; let rb : GReg := 2;
     let lo : BitVec 6 := 11; let len : BitVec 6 := 20; let a : BitVec 64 := 0xFEDCBA9876543210; let b : BitVec 64 := 0x8000000000000013;
     let d : BitVec 64 := 0x55AA55AA55AA55AA; let i : Nat := 0; let s : State := State.reset;
     let s : State := s.putInstr c x cl ((.ins rd ra lo len));
     let s : State := s.setCtx c x { s.ctx c x with g := [(1, 0xFEDCBA9876543210), (2, 0x8000000000000013), (3, 0x55AA55AA55AA55AA)] };
     (s.ctx c x).gr ra = a ∧ (s.ctx c x).gr rb = b ∧ (s.ctx c x).gr rd = d ∧ s.standsAt c x cl (.ins rd ra lo len) ∧ lo.toNat + len.toNat < 64 ∧
     i < 64) := by
  refine ⟨?_, ?_, ?_, ?_, ?_, ?_, ?_⟩ <;> (delta State.standsAt; delta State.atInstr; decide +kernel)

/-- Operands and states that meet the hypotheses of `Obligations.LimLoadsAndStores`, in the order of its clauses. -/
theorem witness_LimLoadsAndStores_1 :
    (let c : CoreId := 1; let x : CtxId := 1; let cl : Clause := dClause; let rd : GReg := 3; let ra : GReg := 1; let imm : BitVec 14 := 0;
     let s : State := State.reset; let s : State := s.putInstr c x cl ((.ld rd ra imm)); let s : State := s.setFld (R.pwrDom 1) F.pwrDom_state 2;
     let a : Nat := ((s.ctx c x).gr ra + imm.signExtend 64).toNat; let k : Nat := (s.limCell c a 8 true).getD 0;
     a = ((s.ctx c x).gr ra + imm.signExtend 64).toNat ∧ s.standsAt c x cl (.ld rd ra imm) ∧ a % 8 = 0 ∧ s.limCell c a 8 true = some k) ∧
    (let c : CoreId := 1; let x : CtxId := 1; let cl : Clause := dClause; let rd : GReg := 3; let ra : GReg := 1; let imm : BitVec 14 := 0;
     let s : State := State.reset; let s : State := s.putInstr c x cl ((.lw rd ra imm)); let s : State := s.setFld (R.pwrDom 1) F.pwrDom_state 2;
     let a : Nat := ((s.ctx c x).gr ra + imm.signExtend 64).toNat; let k : Nat := (s.limCell c a 8 true).getD 0;
     a = ((s.ctx c x).gr ra + imm.signExtend 64).toNat ∧ s.standsAt c x cl (.lw rd ra imm) ∧ a % 4 = 0 ∧ s.limCell c a 4 true = some k) ∧
    (let c : CoreId := 1; let x : CtxId := 1; let cl : Clause := dClause; let rd : GReg := 3; let ra : GReg := 1; let imm : BitVec 14 := 0;
     let s : State := State.reset; let s : State := s.putInstr c x cl ((.lb rd ra imm)); let s : State := s.setFld (R.pwrDom 1) F.pwrDom_state 2;
     let a : Nat := ((s.ctx c x).gr ra + imm.signExtend 64).toNat; let k : Nat := (s.limCell c a 8 true).getD 0;
     a = ((s.ctx c x).gr ra + imm.signExtend 64).toNat ∧ s.standsAt c x cl (.lb rd ra imm) ∧ a % 1 = 0 ∧ s.limCell c a 1 true = some k) ∧
    (let c : CoreId := 1; let x : CtxId := 1; let cl : Clause := dClause; let rd : GReg := 3; let ra : GReg := 1; let imm : BitVec 14 := 1;
     let s : State := State.reset; let s : State := s.putInstr c x cl ((.ld rd ra imm));
     let a : Nat := ((s.ctx c x).gr ra + imm.signExtend 64).toNat; a = ((s.ctx c x).gr ra + imm.signExtend 64).toNat ∧
     s.standsAt c x cl (.ld rd ra imm) ∧ a % 8 ≠ 0) ∧
    (let c : CoreId := 1; let x : CtxId := 1; let cl : Clause := dClause; let rd : GReg := 3; let ra : GReg := 1; let imm : BitVec 14 := 1;
     let s : State := State.reset; let s : State := s.putInstr c x cl ((.lw rd ra imm));
     let a : Nat := ((s.ctx c x).gr ra + imm.signExtend 64).toNat; a = ((s.ctx c x).gr ra + imm.signExtend 64).toNat ∧
     s.standsAt c x cl (.lw rd ra imm) ∧ a % 4 ≠ 0) ∧
    (let c : CoreId := 1; let x : CtxId := 1; let cl : Clause := dClause; let rd : GReg := 3; let ra : GReg := 1; let imm : BitVec 14 := 0;
     let s : State := State.reset; let s : State := s.putInstr c x cl ((.ld rd ra imm));
     let a : Nat := ((s.ctx c x).gr ra + imm.signExtend 64).toNat; a = ((s.ctx c x).gr ra + imm.signExtend 64).toNat ∧
     s.standsAt c x cl (.ld rd ra imm) ∧ a % 8 = 0 ∧ s.limCell c a 8 true = none) ∧
    (let c : CoreId := 1; let x : CtxId := 1; let cl : Clause := dClause; let rd : GReg := 3; let ra : GReg := 1; let imm : BitVec 14 := 0;
     let s : State := State.reset; let s : State := s.putInstr c x cl ((.lw rd ra imm));
     let a : Nat := ((s.ctx c x).gr ra + imm.signExtend 64).toNat; a = ((s.ctx c x).gr ra + imm.signExtend 64).toNat ∧
     s.standsAt c x cl (.lw rd ra imm) ∧ a % 4 = 0 ∧ s.limCell c a 4 true = none) ∧
    (let c : CoreId := 1; let x : CtxId := 1; let cl : Clause := dClause; let rd : GReg := 3; let ra : GReg := 1; let imm : BitVec 14 := 0;
     let s : State := State.reset; let s : State := s.putInstr c x cl ((.lb rd ra imm));
     let a : Nat := ((s.ctx c x).gr ra + imm.signExtend 64).toNat; a = ((s.ctx c x).gr ra + imm.signExtend 64).toNat ∧
     s.standsAt c x cl (.lb rd ra imm) ∧ a % 1 = 0 ∧ s.limCell c a 1 true = none) ∧
    (let c : CoreId := 1; let x : CtxId := 1; let cl : Clause := dClause; let rd : GReg := 3; let ra : GReg := 1; let imm : BitVec 14 := 0;
     let s : State := State.reset; let s : State := s.putInstr c x cl ((.st rd ra imm)); let s : State := s.setFld (R.pwrDom 1) F.pwrDom_state 2;
     let s : State := s.setCtx c x { s.ctx c x with g := [(1, 64), (3, 0x1122334455667788)] };
     let a : Nat := ((s.ctx c x).gr ra + imm.signExtend 64).toNat; let k : Nat := (s.limCell c a 8 true).getD 0;
     a = ((s.ctx c x).gr ra + imm.signExtend 64).toNat ∧ s.standsAt c x cl (.st rd ra imm) ∧ a % 8 = 0 ∧ s.limCell c a 8 true = some k) ∧
    (let c : CoreId := 1; let x : CtxId := 1; let cl : Clause := dClause; let rd : GReg := 3; let ra : GReg := 1; let imm : BitVec 14 := 0;
     let s : State := State.reset; let s : State := s.putInstr c x cl ((.sw rd ra imm)); let s : State := s.setFld (R.pwrDom 1) F.pwrDom_state 2;
     let s : State := s.setCtx c x { s.ctx c x with g := [(1, 64), (3, 0x1122334455667788)] };
     let a : Nat := ((s.ctx c x).gr ra + imm.signExtend 64).toNat; let k : Nat := (s.limCell c a 8 true).getD 0;
     a = ((s.ctx c x).gr ra + imm.signExtend 64).toNat ∧ s.standsAt c x cl (.sw rd ra imm) ∧ a % 4 = 0 ∧ s.limCell c a 4 true = some k) ∧
    (let c : CoreId := 1; let x : CtxId := 1; let cl : Clause := dClause; let rd : GReg := 3; let ra : GReg := 1; let imm : BitVec 14 := 0;
     let s : State := State.reset; let s : State := s.putInstr c x cl ((.sb rd ra imm)); let s : State := s.setFld (R.pwrDom 1) F.pwrDom_state 2;
     let s : State := s.setCtx c x { s.ctx c x with g := [(1, 64), (3, 0x1122334455667788)] };
     let a : Nat := ((s.ctx c x).gr ra + imm.signExtend 64).toNat; let k : Nat := (s.limCell c a 8 true).getD 0;
     a = ((s.ctx c x).gr ra + imm.signExtend 64).toNat ∧ s.standsAt c x cl (.sb rd ra imm) ∧ a % 1 = 0 ∧ s.limCell c a 1 true = some k) ∧
    (let c : CoreId := 1; let x : CtxId := 1; let cl : Clause := dClause; let rd : GReg := 3; let ra : GReg := 1; let imm : BitVec 14 := 1;
     let s : State := State.reset; let s : State := s.putInstr c x cl ((.st rd ra imm));
     let a : Nat := ((s.ctx c x).gr ra + imm.signExtend 64).toNat; a = ((s.ctx c x).gr ra + imm.signExtend 64).toNat ∧
     s.standsAt c x cl (.st rd ra imm) ∧ a % 8 ≠ 0) ∧
    (let c : CoreId := 1; let x : CtxId := 1; let cl : Clause := dClause; let rd : GReg := 3; let ra : GReg := 1; let imm : BitVec 14 := 1;
     let s : State := State.reset; let s : State := s.putInstr c x cl ((.sw rd ra imm));
     let a : Nat := ((s.ctx c x).gr ra + imm.signExtend 64).toNat; a = ((s.ctx c x).gr ra + imm.signExtend 64).toNat ∧
     s.standsAt c x cl (.sw rd ra imm) ∧ a % 4 ≠ 0) ∧
    (let c : CoreId := 1; let x : CtxId := 1; let cl : Clause := dClause; let rd : GReg := 3; let ra : GReg := 1; let imm : BitVec 14 := 0;
     let s : State := State.reset; let s : State := s.putInstr c x cl ((.st rd ra imm));
     let a : Nat := ((s.ctx c x).gr ra + imm.signExtend 64).toNat; a = ((s.ctx c x).gr ra + imm.signExtend 64).toNat ∧
     s.standsAt c x cl (.st rd ra imm) ∧ a % 8 = 0 ∧ s.limCell c a 8 true = none) ∧
    (let c : CoreId := 1; let x : CtxId := 1; let cl : Clause := dClause; let rd : GReg := 3; let ra : GReg := 1; let imm : BitVec 14 := 0;
     let s : State := State.reset; let s : State := s.putInstr c x cl ((.sw rd ra imm));
     let a : Nat := ((s.ctx c x).gr ra + imm.signExtend 64).toNat; a = ((s.ctx c x).gr ra + imm.signExtend 64).toNat ∧
     s.standsAt c x cl (.sw rd ra imm) ∧ a % 4 = 0 ∧ s.limCell c a 4 true = none) ∧
    (let c : CoreId := 1; let x : CtxId := 1; let cl : Clause := dClause; let rd : GReg := 3; let ra : GReg := 1; let imm : BitVec 14 := 0;
     let s : State := State.reset; let s : State := s.putInstr c x cl ((.sb rd ra imm));
     let a : Nat := ((s.ctx c x).gr ra + imm.signExtend 64).toNat; a = ((s.ctx c x).gr ra + imm.signExtend 64).toNat ∧
     s.standsAt c x cl (.sb rd ra imm) ∧ a % 1 = 0 ∧ s.limCell c a 1 true = none) ∧
    (let c : CoreId := 1; let x : CtxId := 1; let cl : Clause := dClause; let rd : GReg := 3; let ra : GReg := 1; let rb : GReg := 2;
     let s : State := State.reset; let s : State := s.putInstr c x cl ((.xadd rd ra rb)); let s : State := s.setFld (R.pwrDom 1) F.pwrDom_state 2;
     let a : Nat := ((s.ctx c x).gr ra).toNat; let k : Nat := (s.limCell c a 8 false).getD 0; a = ((s.ctx c x).gr ra).toNat ∧
     s.standsAt c x cl (.xadd rd ra rb) ∧ a % 8 = 0 ∧ s.limCell c a 8 false = some k) ∧
    (let c : CoreId := 1; let x : CtxId := 1; let cl : Clause := dClause; let rd : GReg := 3; let ra : GReg := 1; let rb : GReg := 2;
     let s : State := State.reset; let s : State := s.putInstr c x cl ((.xadd rd ra rb));
     let s : State := s.setCtx c x { s.ctx c x with g := [(1, 4)] }; let a : Nat := ((s.ctx c x).gr ra).toNat; a = ((s.ctx c x).gr ra).toNat ∧
     s.standsAt c x cl (.xadd rd ra rb) ∧ a % 8 ≠ 0) ∧
    (let c : CoreId := 1; let x : CtxId := 1; let cl : Clause := dClause; let rd : GReg := 3; let ra : GReg := 1; let rb : GReg := 2;
     let s : State := State.reset; let s : State := s.putInstr c x cl ((.xadd rd ra rb)); let a : Nat := ((s.ctx c x).gr ra).toNat;
     a = ((s.ctx c x).gr ra).toNat ∧ s.standsAt c x cl (.xadd rd ra rb) ∧ a % 8 = 0 ∧ s.limCell c a 8 false = none) ∧
    (let c : CoreId := 1; let x : CtxId := 1; let rd : GReg := 3; let a : Nat := 64; let n : Nat := 4; let s : State := State.reset;
     let s : State := s.setCtx c x { s.ctx c x with wait := some (.load rd.toNat a n) }; let s : State := s.setFld (R.pwrDom 1) F.pwrDom_state 2;
     let k : Nat := (s.limCell c 64 4 true).getD 0; (s.ctx c x).wait = some (.load rd.toNat a n) ∧ s.limCell c a n true = some k ∧ n ≤ 8) ∧
    (let c : CoreId := 1; let x : CtxId := 1; let cl : Clause := dClause; let rd : GReg := 3; let a : Nat := 0; let n : Nat := 0;
     let s : State := State.reset; let s : State := s.setCtx c x { s.ctx c x with wait := some (.load rd.toNat a n) };
     let s : State := s.setCtx c x { s.ctx c x with clause := some cl }; (s.ctx c x).wait = some (.load rd.toNat a n) ∧
     (s.ctx c x).clause = some cl ∧ s.limCell c a n true = none) ∧
    (let c : CoreId := 1; let x : CtxId := 1; let rd : GReg := 3; let a : Nat := 64; let v : BitVec 64 := 5; let s : State := State.reset;
     let s : State := s.setCtx c x { s.ctx c x with wait := some (.xadd rd.toNat a v) }; let s : State := s.setFld (R.pwrDom 1) F.pwrDom_state 2;
     let s : State := s.writeBytes 64 [0, 0, 0, 0, 0, 0, 0, 9]; let k : Nat := (s.limCell c 64 8 false).getD 0;
     let old : BitVec 64 := BitVec.ofNat 64 (beNat (s.readBytes k 8)); (s.ctx c x).wait = some (.xadd rd.toNat a v) ∧
     s.limCell c a 8 false = some k ∧ old = BitVec.ofNat 64 (beNat (s.readBytes k 8))) ∧
    (let c : CoreId := 1; let x : CtxId := 1; let cl : Clause := dClause; let rd : GReg := 3; let ra : GReg := 1; let imm : BitVec 14 := 0;
     let j := default; let s : State := State.reset; let s : State := s.putInstr c x cl ((.st rd ra imm));
     let s : State := s.setFld (R.pwrDom 1) F.pwrDom_state 2;
     let s : State := s.setCtx c x { s.ctx c x with g := [(1, 64), (3, 0x1122334455667788)] };
     let a : Nat := ((s.ctx c x).gr ra + imm.signExtend 64).toNat; let k : Nat := (s.limCell c a 8 true).getD 0;
     a = ((s.ctx c x).gr ra + imm.signExtend 64).toNat ∧ s.standsAt c x cl (.st rd ra imm) ∧ a % 8 = 0 ∧ s.limCell c a 8 true = some k ∧
     (j < k ∨ k + 8 ≤ j)) ∧
    (let c : CoreId := 1; let x : CtxId := 1; let cl : Clause := dClause; let rd : GReg := 3; let ra : GReg := 1; let imm : BitVec 14 := 0;
     let j := default; let s : State := State.reset; let s : State := s.putInstr c x cl ((.sw rd ra imm));
     let s : State := s.setFld (R.pwrDom 1) F.pwrDom_state 2;
     let s : State := s.setCtx c x { s.ctx c x with g := [(1, 64), (3, 0x1122334455667788)] };
     let a : Nat := ((s.ctx c x).gr ra + imm.signExtend 64).toNat; let k : Nat := (s.limCell c a 8 true).getD 0;
     a = ((s.ctx c x).gr ra + imm.signExtend 64).toNat ∧ s.standsAt c x cl (.sw rd ra imm) ∧ a % 4 = 0 ∧ s.limCell c a 4 true = some k ∧
     (j < k ∨ k + 4 ≤ j)) := by
  refine ⟨?_, ?_, ?_, ?_, ?_, ?_, ?_, ?_, ?_, ?_, ?_, ?_, ?_, ?_, ?_, ?_, ?_, ?_, ?_, ?_, ?_, ?_, ?_, ?_⟩
  · delta State.standsAt; delta State.atInstr; decide +kernel
  · delta State.standsAt; delta State.atInstr; decide +kernel
  · delta State.standsAt; delta State.atInstr; decide +kernel
  · delta State.standsAt; delta State.atInstr; decide +kernel
  · delta State.standsAt; delta State.atInstr; decide +kernel
  · delta State.standsAt; delta State.atInstr; decide +kernel
  · delta State.standsAt; delta State.atInstr; decide +kernel
  · delta State.standsAt; delta State.atInstr; decide +kernel
  · delta State.standsAt; delta State.atInstr; decide +kernel
  · delta State.standsAt; delta State.atInstr; decide +kernel
  · delta State.standsAt; delta State.atInstr; decide +kernel
  · delta State.standsAt; delta State.atInstr; decide +kernel
  · delta State.standsAt; delta State.atInstr; decide +kernel
  · delta State.standsAt; delta State.atInstr; decide +kernel
  · delta State.standsAt; delta State.atInstr; decide +kernel
  · delta State.standsAt; delta State.atInstr; decide +kernel
  · delta State.standsAt; delta State.atInstr; decide +kernel
  · delta State.standsAt; delta State.atInstr; decide +kernel
  · delta State.standsAt; delta State.atInstr; decide +kernel
  · decide +kernel
  · decide +kernel
  · decide +kernel
  · delta State.standsAt; delta State.atInstr; decide +kernel
  · delta State.standsAt; delta State.atInstr; decide +kernel

/-- Operands and states that meet the hypotheses of `Obligations.LimLoadsAndStores`, in the order of its clauses. -/
theorem witness_LimLoadsAndStores_2 :
    (let c : CoreId := 1; let x : CtxId := 1; let cl : Clause := dClause; let rd : GReg := 3; let ra : GReg := 1; let imm : BitVec 14 := 0;
     let j := default; let s : State := State.reset; let s : State := s.putInstr c x cl ((.sb rd ra imm));
     let s : State := s.setFld (R.pwrDom 1) F.pwrDom_state 2;
     let s : State := s.setCtx c x { s.ctx c x with g := [(1, 64), (3, 0x1122334455667788)] };
     let a : Nat := ((s.ctx c x).gr ra + imm.signExtend 64).toNat; let k : Nat := (s.limCell c a 8 true).getD 0;
     a = ((s.ctx c x).gr ra + imm.signExtend 64).toNat ∧ s.standsAt c x cl (.sb rd ra imm) ∧ a % 1 = 0 ∧ s.limCell c a 1 true = some k ∧
     (j < k ∨ k + 1 ≤ j)) ∧
    (let c : CoreId := 1; let x : CtxId := 1; let rd : GReg := 3; let a : Nat := 64; let v : BitVec 64 := 5; let j : Nat := 0;
     let s : State := State.reset; let s : State := s.setCtx c x { s.ctx c x with wait := some (.xadd rd.toNat a v) };
     let s : State := s.setFld (R.pwrDom 1) F.pwrDom_state 2; let s : State := s.writeBytes 64 [0, 0, 0, 0, 0, 0, 0, 9];
     let k : Nat := (s.limCell c 64 8 false).getD 0; let old : BitVec 64 := BitVec.ofNat 64 (beNat (s.readBytes k 8));
     (s.ctx c x).wait = some (.xadd rd.toNat a v) ∧ s.limCell c a 8 false = some k ∧ old = BitVec.ofNat 64 (beNat (s.readBytes k 8)) ∧
     (j < k ∨ k + 8 ≤ j)) := by
  refine ⟨?_, ?_⟩
  · delta State.standsAt; delta State.atInstr; decide +kernel
  · decide +kernel

/-- Operands and states that meet the hypotheses of `Obligations.LimBranches`, in the order of its clauses. -/
theorem witness_LimBranches :
    (let c : CoreId := 1; let x : CtxId := 1; let cl : Clause := dClause; let ra : GReg := 1; let off : BitVec 20 := 0; let s : State := State.reset;
     let s : State := s.putInstr c x cl ((.bz ra off)); let s : State := s.setCtx c x { s.ctx c x with g := [(1, 5)] };
     let a : BitVec 64 := (s.ctx c x).gr ra; let p : Nat := (s.ctx c x).pc.toNat; (s.ctx c x).gr ra = a ∧ (s.ctx c x).pc.toNat = p ∧
     s.standsAt c x cl (.bz ra off) ∧ (decide (a = 0)) = false) ∧
    (let c : CoreId := 1; let x : CtxId := 1; let cl : Clause := dClause; let ra : GReg := 1; let off : BitVec 20 := 0; let s : State := State.reset;
     let s : State := s.putInstr c x cl ((.bnz ra off)); let a : BitVec 64 := (s.ctx c x).gr ra; let p : Nat := (s.ctx c x).pc.toNat;
     (s.ctx c x).gr ra = a ∧ (s.ctx c x).pc.toNat = p ∧ s.standsAt c x cl (.bnz ra off) ∧ (decide (a ≠ 0)) = false) ∧
    (let c : CoreId := 1; let x : CtxId := 1; let cl : Clause := dClause; let ra : GReg := 1; let off : BitVec 20 := 0; let s : State := State.reset;
     let s : State := s.putInstr c x cl ((.bltz ra off)); let a : BitVec 64 := (s.ctx c x).gr ra; let p : Nat := (s.ctx c x).pc.toNat;
     (s.ctx c x).gr ra = a ∧ (s.ctx c x).pc.toNat = p ∧ s.standsAt c x cl (.bltz ra off) ∧ (decide (a.toInt < 0)) = false) ∧
    (let c : CoreId := 1; let x : CtxId := 1; let cl : Clause := dClause; let ra : GReg := 1; let off : BitVec 20 := 0; let s : State := State.reset;
     let s : State := s.putInstr c x cl ((.bgez ra off)); let s : State := s.setCtx c x { s.ctx c x with g := [(1, 2 ^ 64 - 1)] };
     let a : BitVec 64 := (s.ctx c x).gr ra; let p : Nat := (s.ctx c x).pc.toNat; (s.ctx c x).gr ra = a ∧ (s.ctx c x).pc.toNat = p ∧
     s.standsAt c x cl (.bgez ra off) ∧ (decide (0 ≤ a.toInt)) = false) ∧
    (let c : CoreId := 1; let x : CtxId := 1; let cl : Clause := dClause; let ra : GReg := 1; let off : BitVec 20 := 0; let q : Nat := 0;
     let s : State := State.reset; let s : State := s.putInstr c x cl ((.br off)); let a : BitVec 64 := (s.ctx c x).gr ra;
     let p : Nat := (s.ctx c x).pc.toNat; (s.ctx c x).gr ra = a ∧ (s.ctx c x).pc.toNat = p ∧ s.standsAt c x cl (.br off) ∧ true = true ∧
     (q : Int) = p + off.toInt ∧ (q ≤ 0x1FFF ∧ p < 0x10000 ∨ cl.block = true ∧ 0x10000 ≤ q ∧ q ≤ 0x10000 + cl.lenM1 ∧ 0x10000 ≤ p) ∧ q < 2 ^ 17) ∧
    (let c : CoreId := 1; let x : CtxId := 1; let cl : Clause := dClause; let ra : GReg := 1; let off : BitVec 20 := 0; let q : Nat := 0;
     let s : State := State.reset; let s : State := s.putInstr c x cl ((.bz ra off)); let a : BitVec 64 := (s.ctx c x).gr ra;
     let p : Nat := (s.ctx c x).pc.toNat; (s.ctx c x).gr ra = a ∧ (s.ctx c x).pc.toNat = p ∧ s.standsAt c x cl (.bz ra off) ∧
     (decide (a = 0)) = true ∧ (q : Int) = p + off.toInt ∧ (q ≤ 0x1FFF ∧ p < 0x10000 ∨ cl.block = true ∧ 0x10000 ≤ q ∧ q ≤ 0x10000 + cl.lenM1 ∧
     0x10000 ≤ p) ∧ q < 2 ^ 17) ∧
    (let c : CoreId := 1; let x : CtxId := 1; let cl : Clause := dClause; let ra : GReg := 1; let off : BitVec 20 := 0; let q : Nat := 0;
     let s : State := State.reset; let s : State := s.putInstr c x cl ((.bnz ra off));
     let s : State := s.setCtx c x { s.ctx c x with g := [(1, 5)] }; let a : BitVec 64 := (s.ctx c x).gr ra; let p : Nat := (s.ctx c x).pc.toNat;
     (s.ctx c x).gr ra = a ∧ (s.ctx c x).pc.toNat = p ∧ s.standsAt c x cl (.bnz ra off) ∧ (decide (a ≠ 0)) = true ∧ (q : Int) = p + off.toInt ∧
     (q ≤ 0x1FFF ∧ p < 0x10000 ∨ cl.block = true ∧ 0x10000 ≤ q ∧ q ≤ 0x10000 + cl.lenM1 ∧ 0x10000 ≤ p) ∧ q < 2 ^ 17) ∧
    (let c : CoreId := 1; let x : CtxId := 1; let cl : Clause := dClause; let ra : GReg := 1; let off : BitVec 20 := 0; let q : Nat := 0;
     let s : State := State.reset; let s : State := s.putInstr c x cl ((.bltz ra off));
     let s : State := s.setCtx c x { s.ctx c x with g := [(1, 2 ^ 64 - 1)] }; let a : BitVec 64 := (s.ctx c x).gr ra;
     let p : Nat := (s.ctx c x).pc.toNat; (s.ctx c x).gr ra = a ∧ (s.ctx c x).pc.toNat = p ∧ s.standsAt c x cl (.bltz ra off) ∧
     (decide (a.toInt < 0)) = true ∧ (q : Int) = p + off.toInt ∧ (q ≤ 0x1FFF ∧ p < 0x10000 ∨ cl.block = true ∧ 0x10000 ≤ q ∧ q ≤ 0x10000 + cl.lenM1 ∧
     0x10000 ≤ p) ∧ q < 2 ^ 17) ∧
    (let c : CoreId := 1; let x : CtxId := 1; let cl : Clause := dClause; let ra : GReg := 1; let off : BitVec 20 := 0; let q : Nat := 0;
     let s : State := State.reset; let s : State := s.putInstr c x cl ((.bgez ra off)); let a : BitVec 64 := (s.ctx c x).gr ra;
     let p : Nat := (s.ctx c x).pc.toNat; (s.ctx c x).gr ra = a ∧ (s.ctx c x).pc.toNat = p ∧ s.standsAt c x cl (.bgez ra off) ∧
     (decide (0 ≤ a.toInt)) = true ∧ (q : Int) = p + off.toInt ∧ (q ≤ 0x1FFF ∧ p < 0x10000 ∨ cl.block = true ∧ 0x10000 ≤ q ∧ q ≤ 0x10000 + cl.lenM1 ∧
     0x10000 ≤ p) ∧ q < 2 ^ 17) ∧
    (let c : CoreId := 1; let x : CtxId := 1; let cl : Clause := dClause; let ra : GReg := 1; let off : BitVec 20 := 0; let q : Nat := 0;
     let s : State := State.reset; let s : State := s.putInstr c x cl ((.call off)); let a : BitVec 64 := (s.ctx c x).gr ra;
     let p : Nat := (s.ctx c x).pc.toNat; (s.ctx c x).gr ra = a ∧ (s.ctx c x).pc.toNat = p ∧ s.standsAt c x cl (.call off) ∧ true = true ∧
     (q : Int) = p + off.toInt ∧ (q ≤ 0x1FFF ∧ p < 0x10000 ∨ cl.block = true ∧ 0x10000 ≤ q ∧ q ≤ 0x10000 + cl.lenM1 ∧ 0x10000 ≤ p) ∧ q < 2 ^ 17) ∧
    (let c : CoreId := 1; let x : CtxId := 1; let cl : Clause := dClause; let ra : GReg := 1; let off : BitVec 20 := 0xFFFFF;
     let s : State := State.reset; let s : State := s.putInstr c x cl ((.br off)); let a : BitVec 64 := (s.ctx c x).gr ra;
     let p : Nat := (s.ctx c x).pc.toNat; let q : Int := p + off.toInt; (s.ctx c x).gr ra = a ∧ (s.ctx c x).pc.toNat = p ∧
     s.standsAt c x cl (.br off) ∧ true = true ∧ q = p + off.toInt ∧ (¬ (0 ≤ q ∧ q ≤ 0x1FFF ∧ p < 0x10000 ∨ cl.block = true ∧ 0x10000 ≤ q ∧
     q ≤ 0x10000 + cl.lenM1 ∧ 0x10000 ≤ p))) ∧
    (let c : CoreId := 1; let x : CtxId := 1; let cl : Clause := dClause; let ra : GReg := 1; let off : BitVec 20 := 0xFFFFF;
     let s : State := State.reset; let s : State := s.putInstr c x cl ((.bz ra off)); let a : BitVec 64 := (s.ctx c x).gr ra;
     let p : Nat := (s.ctx c x).pc.toNat; let q : Int := p + off.toInt; (s.ctx c x).gr ra = a ∧ (s.ctx c x).pc.toNat = p ∧
     s.standsAt c x cl (.bz ra off) ∧ (decide (a = 0)) = true ∧ q = p + off.toInt ∧ (¬ (0 ≤ q ∧ q ≤ 0x1FFF ∧ p < 0x10000 ∨ cl.block = true ∧
     0x10000 ≤ q ∧ q ≤ 0x10000 + cl.lenM1 ∧ 0x10000 ≤ p))) ∧
    (let c : CoreId := 1; let x : CtxId := 1; let cl : Clause := dClause; let ra : GReg := 1; let off : BitVec 20 := 0xFFFFF;
     let s : State := State.reset; let s : State := s.putInstr c x cl ((.bnz ra off));
     let s : State := s.setCtx c x { s.ctx c x with g := [(1, 5)] }; let a : BitVec 64 := (s.ctx c x).gr ra; let p : Nat := (s.ctx c x).pc.toNat;
     let q : Int := p + off.toInt; (s.ctx c x).gr ra = a ∧ (s.ctx c x).pc.toNat = p ∧ s.standsAt c x cl (.bnz ra off) ∧ (decide (a ≠ 0)) = true ∧
     q = p + off.toInt ∧ (¬ (0 ≤ q ∧ q ≤ 0x1FFF ∧ p < 0x10000 ∨ cl.block = true ∧ 0x10000 ≤ q ∧ q ≤ 0x10000 + cl.lenM1 ∧ 0x10000 ≤ p))) ∧
    (let c : CoreId := 1; let x : CtxId := 1; let cl : Clause := dClause; let ra : GReg := 1; let off : BitVec 20 := 0xFFFFF;
     let s : State := State.reset; let s : State := s.putInstr c x cl ((.bltz ra off));
     let s : State := s.setCtx c x { s.ctx c x with g := [(1, 2 ^ 64 - 1)] }; let a : BitVec 64 := (s.ctx c x).gr ra;
     let p : Nat := (s.ctx c x).pc.toNat; let q : Int := p + off.toInt; (s.ctx c x).gr ra = a ∧ (s.ctx c x).pc.toNat = p ∧
     s.standsAt c x cl (.bltz ra off) ∧ (decide (a.toInt < 0)) = true ∧ q = p + off.toInt ∧ (¬ (0 ≤ q ∧ q ≤ 0x1FFF ∧ p < 0x10000 ∨ cl.block = true ∧
     0x10000 ≤ q ∧ q ≤ 0x10000 + cl.lenM1 ∧ 0x10000 ≤ p))) ∧
    (let c : CoreId := 1; let x : CtxId := 1; let cl : Clause := dClause; let ra : GReg := 1; let off : BitVec 20 := 0xFFFFF;
     let s : State := State.reset; let s : State := s.putInstr c x cl ((.bgez ra off)); let a : BitVec 64 := (s.ctx c x).gr ra;
     let p : Nat := (s.ctx c x).pc.toNat; let q : Int := p + off.toInt; (s.ctx c x).gr ra = a ∧ (s.ctx c x).pc.toNat = p ∧
     s.standsAt c x cl (.bgez ra off) ∧ (decide (0 ≤ a.toInt)) = true ∧ q = p + off.toInt ∧ (¬ (0 ≤ q ∧ q ≤ 0x1FFF ∧ p < 0x10000 ∨ cl.block = true ∧
     0x10000 ≤ q ∧ q ≤ 0x10000 + cl.lenM1 ∧ 0x10000 ≤ p))) ∧
    (let c : CoreId := 1; let x : CtxId := 1; let cl : Clause := dClause; let ra : GReg := 1; let off : BitVec 20 := 0xFFFFF;
     let s : State := State.reset; let s : State := s.putInstr c x cl ((.call off)); let a : BitVec 64 := (s.ctx c x).gr ra;
     let p : Nat := (s.ctx c x).pc.toNat; let q : Int := p + off.toInt; (s.ctx c x).gr ra = a ∧ (s.ctx c x).pc.toNat = p ∧
     s.standsAt c x cl (.call off) ∧ true = true ∧ q = p + off.toInt ∧ (¬ (0 ≤ q ∧ q ≤ 0x1FFF ∧ p < 0x10000 ∨ cl.block = true ∧ 0x10000 ≤ q ∧
     q ≤ 0x10000 + cl.lenM1 ∧ 0x10000 ≤ p))) ∧
    (let c : CoreId := 1; let x : CtxId := 1; let cl : Clause := dClause; let ra : GReg := 1; let s : State := State.reset;
     let s : State := s.putInstr c x cl ((.jr ra)); let a : BitVec 64 := (s.ctx c x).gr ra; let p : Nat := (s.ctx c x).pc.toNat;
     (s.ctx c x).gr ra = a ∧ (s.ctx c x).pc.toNat = p ∧ s.standsAt c x cl (.jr ra) ∧ a.toNat < 2 ^ 17 ∧ (a.toNat ≤ 0x1FFF ∨ cl.block = true ∧
     0x10000 ≤ a.toNat ∧ a.toNat ≤ 0x10000 + cl.lenM1)) ∧
    (let c : CoreId := 1; let x : CtxId := 1; let cl : Clause := dClause; let ra : GReg := 1; let s : State := State.reset;
     let s : State := s.putInstr c x cl ((.callr ra)); let a : BitVec 64 := (s.ctx c x).gr ra; let p : Nat := (s.ctx c x).pc.toNat;
     (s.ctx c x).gr ra = a ∧ (s.ctx c x).pc.toNat = p ∧ s.standsAt c x cl (.callr ra) ∧ a.toNat < 2 ^ 17 ∧ (a.toNat ≤ 0x1FFF ∨ cl.block = true ∧
     0x10000 ≤ a.toNat ∧ a.toNat ≤ 0x10000 + cl.lenM1)) ∧
    (let c : CoreId := 1; let x : CtxId := 1; let cl : Clause := dClause; let ra : GReg := 1; let s : State := State.reset;
     let s : State := s.putInstr c x cl ((.jr ra)); let s : State := s.setCtx c x { s.ctx c x with g := [(1, 0x2000)] };
     let a : BitVec 64 := (s.ctx c x).gr ra; let p : Nat := (s.ctx c x).pc.toNat; (s.ctx c x).gr ra = a ∧ (s.ctx c x).pc.toNat = p ∧
     s.standsAt c x cl (.jr ra) ∧ (¬ (a.toNat < 2 ^ 17 ∧ (a.toNat ≤ 0x1FFF ∨ cl.block = true ∧ 0x10000 ≤ a.toNat ∧ a.toNat ≤ 0x10000 + cl.lenM1)))) ∧
    (let c : CoreId := 1; let x : CtxId := 1; let cl : Clause := dClause; let ra : GReg := 1; let s : State := State.reset;
     let s : State := s.putInstr c x cl ((.callr ra)); let s : State := s.setCtx c x { s.ctx c x with g := [(1, 0x2000)] };
     let a : BitVec 64 := (s.ctx c x).gr ra; let p : Nat := (s.ctx c x).pc.toNat; (s.ctx c x).gr ra = a ∧ (s.ctx c x).pc.toNat = p ∧
     s.standsAt c x cl (.callr ra) ∧ (¬ (a.toNat < 2 ^ 17 ∧ (a.toNat ≤ 0x1FFF ∨ cl.block = true ∧ 0x10000 ≤ a.toNat ∧ a.toNat ≤ 0x10000 + cl.lenM1)))) := by
  refine ⟨?_, ?_, ?_, ?_, ?_, ?_, ?_, ?_, ?_, ?_, ?_, ?_, ?_, ?_, ?_, ?_, ?_, ?_, ?_, ?_⟩ <;> (delta State.standsAt; delta State.atInstr; decide +kernel)

/-- Operands and states that meet the hypotheses of `Obligations.LimControlSpace`, in the order of its clauses. -/
theorem witness_LimControlSpace :
    (let c : CoreId := 1; let x : CtxId := 1; let cl : Clause := dClause; let rd : GReg := 3; let u : BitVec 8 := 0xA1; let k : BitVec 12 := 0;
     let a : Nat := (u.toNat * 2 ^ 32 + 8 * k.toNat); let s : State := State.reset; let s : State := s.putInstr c x cl ((.ctlr rd u k));
     let s : State := s.setFld (R.pwrDom 1) F.pwrDom_state 2; s.standsAt c x cl (.ctlr rd u k) ∧ (u.toNat * 2 ^ 32 + 8 * k.toNat) = a ∧
     s.accessOk a = true) ∧
    (let c : CoreId := 1; let x : CtxId := 1; let cl : Clause := dClause; let rd : GReg := 3; let ra : GReg := 1; let a : Nat := 0xA1 * 2 ^ 32;
     let s : State := State.reset; let s : State := s.putInstr c x cl ((.ctlrx rd ra)); let s : State := s.setFld (R.pwrDom 1) F.pwrDom_state 2;
     let s : State := s.setCtx c x { s.ctx c x with g := [(1, 0xA1 * 2 ^ 32)] }; s.standsAt c x cl (.ctlrx rd ra) ∧ (((s.ctx c x).gr ra).toNat) = a ∧
     s.accessOk a = true) ∧
    (let c : CoreId := 1; let x : CtxId := 1; let cl : Clause := dClause; let rd : GReg := 3; let u : BitVec 8 := 0xF0; let k : BitVec 12 := 0;
     let a : Nat := (u.toNat * 2 ^ 32 + 8 * k.toNat); let s : State := State.reset; let s : State := s.putInstr c x cl ((.ctlr rd u k));
     s.standsAt c x cl (.ctlr rd u k) ∧ (u.toNat * 2 ^ 32 + 8 * k.toNat) = a ∧ s.accessOk a = false) ∧
    (let c : CoreId := 1; let x : CtxId := 1; let cl : Clause := dClause; let rd : GReg := 3; let ra : GReg := 1; let s : State := State.reset;
     let s : State := s.putInstr c x cl ((.ctlrx rd ra)); let s : State := s.setCtx c x { s.ctx c x with g := [(1, 2 ^ 39 + 4)] };
     let a : Nat := (((s.ctx c x).gr ra).toNat); s.standsAt c x cl (.ctlrx rd ra) ∧ (((s.ctx c x).gr ra).toNat) = a ∧ s.accessOk a = false) ∧
    (let c : CoreId := 1; let x : CtxId := 1; let cl : Clause := dClause; let rd : GReg := 3; let u : BitVec 8 := 0x10; let k : BitVec 12 := 0;
     let a : Nat := (u.toNat * 2 ^ 32 + 8 * k.toNat); let s : State := State.reset; let s : State := s.putInstr c x cl ((.ctlw rd u k));
     s.standsAt c x cl (.ctlw rd u k) ∧ (u.toNat * 2 ^ 32 + 8 * k.toNat) = a ∧ a < 2 ^ 40 ∧ (s.core c).posted.length < 16) ∧
    (let c : CoreId := 1; let x : CtxId := 1; let cl : Clause := dClause; let rd : GReg := 3; let ra : GReg := 1; let a : Nat := 2 ^ 36 + 8;
     let s : State := State.reset; let s : State := s.putInstr c x cl ((.ctlwx rd ra));
     let s : State := s.setCtx c x { s.ctx c x with g := [(1, 2 ^ 36 + 8)] }; s.standsAt c x cl (.ctlwx rd ra) ∧ (((s.ctx c x).gr ra).toNat) = a ∧
     a < 2 ^ 40 ∧ (s.core c).posted.length < 16) ∧
    (let c : CoreId := 1; let x : CtxId := 1; let cl : Clause := dClause; let rd : GReg := 3; let ra : GReg := 1; let a : Nat := 2 ^ 40;
     let s : State := State.reset; let s : State := s.putInstr c x cl ((.ctlwx rd ra));
     let s : State := s.setCtx c x { s.ctx c x with g := [(1, 2 ^ 40)] }; s.standsAt c x cl (.ctlwx rd ra) ∧ (((s.ctx c x).gr ra).toNat) = a ∧
     2 ^ 40 ≤ a) ∧
    (let c : CoreId := 1; let x : CtxId := 1; let cl : Clause := dClause; let rd : GReg := 3; let u : BitVec 8 := 0; let k : BitVec 12 := 0;
     let s : State := State.reset; let s : State := s.putInstr c x cl ((.ctlw rd u k));
     let s : State := s.setCore c { s.core c with posted := List.replicate 16 dPosted }; s.atInstr c x cl (.ctlw rd u k) ∧
     (u.toNat * 2 ^ 32 + 8 * k.toNat) < 2 ^ 40 ∧ 16 ≤ (s.core c).posted.length) ∧
    (let c : CoreId := 1; let x : CtxId := 1; let cl : Clause := dClause; let rd : GReg := 3; let ra : GReg := 1; let s : State := State.reset;
     let s : State := s.putInstr c x cl ((.ctlwx rd ra)); let s : State := s.setCore c { s.core c with posted := List.replicate 16 dPosted };
     s.atInstr c x cl (.ctlwx rd ra) ∧ (((s.ctx c x).gr ra).toNat) < 2 ^ 40 ∧ 16 ≤ (s.core c).posted.length) ∧
    (let c : CoreId := 1; let x : CtxId := 1; let cl : Clause := dClause; let rd : GReg := 3; let a : Nat := 8; let s : State := State.reset;
     let s : State := s.setCtx c x { s.ctx c x with wait := some (.ctl rd.toNat a) };
     let s : State := s.setCtx c x { s.ctx c x with clause := some cl }; let s : State := s.setCore c { s.core c with posted := [dPosted] };
     (s.ctx c x).wait = some (.ctl rd.toNat a) ∧ (s.ctx c x).clause = some cl ∧ (∃ w ∈ (s.core c).posted, unitOf w.addr = unitOf a)) ∧
    (let c : CoreId := 1; let x : CtxId := 1; let cl : Clause := dClause; let rd : GReg := 3; let a : Nat := 0xA1 * 2 ^ 32;
     let s : State := State.reset; let s : State := s.setCtx c x { s.ctx c x with wait := some (.ctl rd.toNat a) };
     let s : State := s.setCtx c x { s.ctx c x with clause := some cl }; let s : State := s.setFld (R.pwrDom 1) F.pwrDom_state 2;
     (s.ctx c x).wait = some (.ctl rd.toNat a) ∧ (s.ctx c x).clause = some cl ∧ (∀ w ∈ (s.core c).posted, unitOf w.addr ≠ unitOf a) ∧
     s.accessOk a = true) ∧
    (let c : CoreId := 1; let s : State := State.reset; let s : State := s.setCore c { s.core c with posted := [] }; (s.core c).posted = []) ∧
    (let c : CoreId := 1; let w : Posted := { dPosted with addr := R.lschImgAddr, value := 5 }; let l : List Posted := [];
     let s : State := State.reset; let s : State := s.setCore c { s.core c with posted := w :: l };
     let s : State := s.setFld (R.pwrDom 1) F.pwrDom_state 2; (s.core c).posted = w :: l ∧ s.accessOk w.addr = true) ∧
    (let c : CoreId := 1; let x : CtxId := 1; let cl : Clause := dClause; let w : Posted := { dPosted with addr := 0xF000000000 };
     let l : List Posted := []; let s : State := State.reset; let s : State := s.setCore c { s.core c with posted := w :: l };
     let s : State := s.setCtx c x { s.ctx c x with clause := some cl }; let s : State := s.setCtx c x { s.ctx c x with refused := none };
     (s.core c).posted = w :: l ∧ s.accessOk w.addr = false ∧ (s.ctx c x).clause = some cl ∧ cl.uid = w.uid ∧ (s.ctx c x).refused = none) ∧
    (let c : CoreId := 1; let w : Posted := { dPosted with addr := R.lschImgAddr, value := 5 }; let l : List Posted := [];
     let s : State := State.reset; let s : State := s.setCore c { s.core c with posted := w :: l };
     let s : State := s.setFld (R.pwrDom 1) F.pwrDom_state 2; (s.core c).posted = w :: l ∧ s.accessOk w.addr = true ∧ w.addr = R.lschImgAddr) := by
  refine ⟨?_, ?_, ?_, ?_, ?_, ?_, ?_, ?_, ?_, ?_, ?_, ?_, ?_, ?_, ?_⟩
  · delta State.standsAt; delta State.atInstr; decide +kernel
  · delta State.standsAt; delta State.atInstr; decide +kernel
  · delta State.standsAt; delta State.atInstr; decide +kernel
  · delta State.standsAt; delta State.atInstr; decide +kernel
  · delta State.standsAt; delta State.atInstr; decide +kernel
  · delta State.standsAt; delta State.atInstr; decide +kernel
  · delta State.standsAt; delta State.atInstr; decide +kernel
  · delta State.atInstr; decide +kernel
  · delta State.atInstr; decide +kernel
  · decide +kernel
  · decide +kernel
  · decide +kernel
  · decide +kernel
  · decide +kernel
  · decide +kernel

/-- Operands and states that meet the hypotheses of `Obligations.LimTokensEndsAndTime`, in the order of its clauses. -/
theorem witness_LimTokensEndsAndTime_1 :
    (let c : CoreId := 1; let x : CtxId := 1; let cl : Clause := dClause; let ra : GReg := 1; let k : BitVec 10 := 0; let s : State := State.reset;
     let s : State := s.setFld (R.pwrDom (1 + 0)) F.pwrDom_state 2; let s : State := s.putInstr c x cl ((.emit ra k));
     let s : State := s.setCore c { s.core c with posted := [dPosted] }; s.clusterUp 0 = true ∧ s.atInstr c x cl (.emit ra k) ∧
     (∃ w ∈ (s.core c).posted, w.uid = cl.uid)) ∧
    (let c : CoreId := 1; let x : CtxId := 1; let cl : Clause := dClause; let ra : GReg := 1; let rb : GReg := 2; let s : State := State.reset;
     let s : State := s.setFld (R.pwrDom (1 + 0)) F.pwrDom_state 2; let s : State := s.putInstr c x cl ((.emitx ra rb));
     let s : State := s.setCore c { s.core c with posted := [dPosted] }; s.clusterUp 0 = true ∧ s.atInstr c x cl (.emitx ra rb) ∧
     (∃ w ∈ (s.core c).posted, w.uid = cl.uid)) ∧
    (let c : CoreId := 1; let x : CtxId := 1; let cl : Clause := dClause; let s : State := State.reset;
     let s : State := s.setFld (R.pwrDom (1 + 0)) F.pwrDom_state 2; let s : State := s.putInstr c x cl (.endClause);
     let s : State := s.setCore c { s.core c with posted := [dPosted] }; s.clusterUp 0 = true ∧ s.atInstr c x cl .endClause ∧
     (∃ w ∈ (s.core c).posted, w.uid = cl.uid)) ∧
    (let c : CoreId := 1; let x : CtxId := 1; let cl : Clause := dClause; let s : State := State.reset;
     let s : State := s.setFld (R.pwrDom (1 + 0)) F.pwrDom_state 2; let s : State := s.putInstr c x cl (.fence);
     let s : State := s.setCore c { s.core c with posted := [dPosted] }; s.clusterUp 0 = true ∧ s.atInstr c x cl .fence ∧
     (∃ w ∈ (s.core c).posted, w.uid = cl.uid)) ∧
    (let c : CoreId := 1; let x : CtxId := 1; let cl : Clause := dClause; let k : BitVec 10 := 0; let s : State := State.reset;
     let s : State := s.setFld (R.pwrDom (1 + 0)) F.pwrDom_state 2; let s : State := s.putInstr c x cl ((.trap k));
     let s : State := s.setCore c { s.core c with posted := [dPosted] }; s.clusterUp 0 = true ∧ s.atInstr c x cl (.trap k) ∧
     (∃ w ∈ (s.core c).posted, w.uid = cl.uid)) ∧
    (let c : CoreId := 1; let x : CtxId := 1; let cl : Clause := { dClause with sentBase := 50, sentLenM1 := 3 }; let ra : GReg := 1;
     let k : BitVec 10 := 2; let n : Nat := 52; let s : State := State.reset; let s : State := s.setFld (R.pwrDom (1 + 0)) F.pwrDom_state 2;
     let s : State := s.putInstr c x cl ((.emit ra k)); let s : State := s.setGnode 52 { s.gnode 52 with cfg := 2 ^ 63 }; s.clusterUp 0 = true ∧
     (∀ w ∈ (s.core c).posted, w.uid ≠ cl.uid) ∧ ((cl.sentBase + k.toNat) % 65536) = n ∧ s.standsAt c x cl (.emit ra k) ∧ (decide (cl.block = false ∧
     k.toNat ≤ cl.sentLenM1)) = true ∧ (s.gnode n).valid = true ∧ (s.gnode n).tokens.length < 15) ∧
    (let c : CoreId := 1; let x : CtxId := 1; let cl : Clause := dClause; let ra : GReg := 1; let rb : GReg := 2; let n : Nat := 60;
     let s : State := State.reset; let s : State := s.setFld (R.pwrDom (1 + 0)) F.pwrDom_state 2;
     let s : State := s.putInstr c x cl ((.emitx ra rb)); let s : State := s.setGnode 60 { s.gnode 60 with cfg := 2 ^ 63 };
     let s : State := s.setCtx c x { s.ctx c x with g := [(1, 9), (2, 60)] }; s.clusterUp 0 = true ∧ (∀ w ∈ (s.core c).posted, w.uid ≠ cl.uid) ∧
     (((s.ctx c x).gr rb).toNat) = n ∧ s.standsAt c x cl (.emitx ra rb) ∧ (decide (((s.ctx c x).gr rb).toNat < 65536)) = true ∧
     (s.gnode n).valid = true ∧ (s.gnode n).tokens.length < 15) ∧
    (let c : CoreId := 1; let x : CtxId := 1; let cl : Clause := { dClause with sentBase := 50, sentLenM1 := 3 }; let ra : GReg := 1;
     let k : BitVec 10 := 2; let n : Nat := 52; let s : State := State.reset; let s : State := s.setFld (R.pwrDom (1 + 0)) F.pwrDom_state 2;
     let s : State := s.putInstr c x cl ((.emit ra k)); s.clusterUp 0 = true ∧ (∀ w ∈ (s.core c).posted, w.uid ≠ cl.uid) ∧
     ((cl.sentBase + k.toNat) % 65536) = n ∧ s.standsAt c x cl (.emit ra k) ∧ (decide (cl.block = false ∧ k.toNat ≤ cl.sentLenM1)) = true ∧
     (s.gnode n).valid = false) ∧
    (let c : CoreId := 1; let x : CtxId := 1; let cl : Clause := dClause; let ra : GReg := 1; let rb : GReg := 2; let n : Nat := 60;
     let s : State := State.reset; let s : State := s.setFld (R.pwrDom (1 + 0)) F.pwrDom_state 2;
     let s : State := s.putInstr c x cl ((.emitx ra rb)); let s : State := s.setCtx c x { s.ctx c x with g := [(1, 9), (2, 60)] };
     s.clusterUp 0 = true ∧ (∀ w ∈ (s.core c).posted, w.uid ≠ cl.uid) ∧ (((s.ctx c x).gr rb).toNat) = n ∧ s.standsAt c x cl (.emitx ra rb) ∧
     (decide (((s.ctx c x).gr rb).toNat < 65536)) = true ∧ (s.gnode n).valid = false) ∧
    (let c : CoreId := 1; let x : CtxId := 1; let cl : Clause := { dClause with sentBase := 50, sentLenM1 := 3 }; let ra : GReg := 1;
     let k : BitVec 10 := 2; let n : Nat := 52; let s : State := State.reset; let s : State := s.setFld (R.pwrDom (1 + 0)) F.pwrDom_state 2;
     let s : State := s.putInstr c x cl ((.emit ra k));
     let s : State := s.setGnode 52 { s.gnode 52 with cfg := 2 ^ 63, tokens := List.replicate 15 0 }; s.clusterUp 0 = true ∧
     (∀ w ∈ (s.core c).posted, w.uid ≠ cl.uid) ∧ ((cl.sentBase + k.toNat) % 65536) = n ∧ s.standsAt c x cl (.emit ra k) ∧ (decide (cl.block = false ∧
     k.toNat ≤ cl.sentLenM1)) = true ∧ (s.gnode n).valid = true ∧ 15 ≤ (s.gnode n).tokens.length) ∧
    (let c : CoreId := 1; let x : CtxId := 1; let cl : Clause := dClause; let ra : GReg := 1; let rb : GReg := 2; let n : Nat := 60;
     let s : State := State.reset; let s : State := s.setFld (R.pwrDom (1 + 0)) F.pwrDom_state 2;
     let s : State := s.putInstr c x cl ((.emitx ra rb));
     let s : State := s.setGnode 60 { s.gnode 60 with cfg := 2 ^ 63, tokens := List.replicate 15 0 };
     let s : State := s.setCtx c x { s.ctx c x with g := [(1, 9), (2, 60)] }; s.clusterUp 0 = true ∧ (∀ w ∈ (s.core c).posted, w.uid ≠ cl.uid) ∧
     (((s.ctx c x).gr rb).toNat) = n ∧ s.standsAt c x cl (.emitx ra rb) ∧ (decide (((s.ctx c x).gr rb).toNat < 65536)) = true ∧
     (s.gnode n).valid = true ∧ 15 ≤ (s.gnode n).tokens.length) ∧
    (let c : CoreId := 1; let x : CtxId := 1; let cl : Clause := dClause; let ra : GReg := 1; let k : BitVec 10 := 5; let s : State := State.reset;
     let s : State := s.setFld (R.pwrDom (1 + 0)) F.pwrDom_state 2; let s : State := s.putInstr c x cl ((.emit ra k)); s.clusterUp 0 = true ∧
     (∀ w ∈ (s.core c).posted, w.uid ≠ cl.uid) ∧ s.standsAt c x cl (.emit ra k) ∧ (cl.block = true ∨ cl.sentLenM1 < k.toNat)) ∧
    (let c : CoreId := 1; let x : CtxId := 1; let cl : Clause := dClause; let ra : GReg := 1; let rb : GReg := 2; let s : State := State.reset;
     let s : State := s.setFld (R.pwrDom (1 + 0)) F.pwrDom_state 2; let s : State := s.putInstr c x cl ((.emitx ra rb));
     let s : State := s.setCtx c x { s.ctx c x with g := [(2, 65536)] }; s.clusterUp 0 = true ∧ (∀ w ∈ (s.core c).posted, w.uid ≠ cl.uid) ∧
     s.standsAt c x cl (.emitx ra rb) ∧ 65536 ≤ ((s.ctx c x).gr rb).toNat) ∧
    (let c : CoreId := 1; let x : CtxId := 1; let cl : Clause := dClause; let s : State := State.reset;
     let s : State := s.setFld (R.pwrDom (1 + 0)) F.pwrDom_state 2; let s : State := s.putInstr c x cl (.endClause); s.clusterUp 0 = true ∧
     (∀ w ∈ (s.core c).posted, w.uid ≠ cl.uid) ∧ s.standsAt c x cl .endClause ∧ cl.latches = [] ∧ (s.ctx c x).objects = []) ∧
    (let c : CoreId := 1; let x : CtxId := 1; let cl : Clause := { dClause with block := true, seq := 6, core := 1, place := 1 };
     let s : State := State.reset; let s : State := s.setFld (R.pwrDom (1 + 0)) F.pwrDom_state 2; let s : State := s.putInstr c x cl (.endClause);
     let s : State := { s with lsch := { s.lsch with store := [{ dBlock with slot := 9 }] } }; s.clusterUp 0 = true ∧
     (∀ w ∈ (s.core c).posted, w.uid ≠ cl.uid) ∧ s.standsAt c x cl .endClause ∧ cl.latches = [] ∧ (s.ctx c x).objects = [] ∧ cl.block = true ∧
     cl.core = c.val) ∧
    (let c : CoreId := 1; let x : CtxId := 1; let cl : Clause := { dClause with latches := [3] }; let s : State := State.reset;
     let s : State := s.setFld (R.pwrDom (1 + 0)) F.pwrDom_state 2; let s : State := s.putInstr c x cl (.endClause); s.clusterUp 0 = true ∧
     (∀ w ∈ (s.core c).posted, w.uid ≠ cl.uid) ∧ s.standsAt c x cl .endClause ∧ cl.latches ≠ []) ∧
    (let c : CoreId := 1; let x : CtxId := 1; let cl : Clause := dClause; let s : State := State.reset;
     let s : State := s.setFld (R.pwrDom (1 + 0)) F.pwrDom_state 2; let s : State := s.putInstr c x cl (.endClause);
     let s : State := s.setCtx c x { s.ctx c x with h := [(0, some dHeld)] }; s.clusterUp 0 = true ∧ (∀ w ∈ (s.core c).posted, w.uid ≠ cl.uid) ∧
     s.standsAt c x cl .endClause ∧ cl.latches = [] ∧ (s.ctx c x).objects ≠ []) ∧
    (let c : CoreId := 1; let x : CtxId := 1; let cl : Clause := dClause; let s : State := State.reset;
     let s : State := s.setFld (R.pwrDom (1 + 0)) F.pwrDom_state 2; let s : State := s.putInstr c x cl (.fence); s.clusterUp 0 = true ∧
     (∀ w ∈ (s.core c).posted, w.uid ≠ cl.uid) ∧ s.standsAt c x cl .fence) ∧
    (let c : CoreId := 1; let x : CtxId := 1; let cl : Clause := dClause; let k : BitVec 10 := 0; let s : State := State.reset;
     let s : State := s.setFld (R.pwrDom (1 + 0)) F.pwrDom_state 2; let s : State := s.putInstr c x cl ((.trap k)); s.clusterUp 0 = true ∧
     (∀ w ∈ (s.core c).posted, w.uid ≠ cl.uid) ∧ s.standsAt c x cl (.trap k)) ∧
    (let c : CoreId := 1; let x : CtxId := 1; let cl : Clause := dClause; let s : State := State.reset;
     let s : State := s.setFld (R.pwrDom (1 + 0)) F.pwrDom_state 2; let s : State := s.setCtx c x { s.ctx c x with clause := some cl };
     let s : State := s.setCtx c x { s.ctx c x with refused := none }; s.clusterUp 0 = true ∧ (s.ctx c x).clause = some cl ∧ s.mayIssue c x = true ∧
     (s.ctx c x).refused = none ∧ decodeLim (s.fetchLim c (s.ctx c x) cl) = none) ∧
    (let c : CoreId := 1; let x : CtxId := 1; let cl : Clause := dClause; let rd : GReg := 3; let ra : GReg := 1; let rb : GReg := 2;
     let s : State := State.reset; let s : State := s.setFld (R.pwrDom (1 + 0)) F.pwrDom_state 2;
     let s : State := s.putInstr c x cl ((.arm rd ra rb)); let s : State := s.setCtx c x { s.ctx c x with g := [(2, 2 ^ 63 + 5)] };
     let i : Nat := bitsOf ((s.ctx c x).gr rb).toNat 11 0; s.clusterUp 0 = true ∧ s.standsAt c x cl (.arm rd ra rb) ∧
     i = bitsOf ((s.ctx c x).gr rb).toNat 11 0 ∧ bitOf ((s.ctx c x).gr rb).toNat 63 = true) ∧
    (let c : CoreId := 1; let x : CtxId := 1; let cl : Clause := dClause; let rd : GReg := 3; let ra : GReg := 1; let rb : GReg := 2;
     let s : State := State.reset; let s : State := s.setFld (R.pwrDom (1 + 0)) F.pwrDom_state 2;
     let s : State := s.putInstr c x cl ((.arm rd ra rb)); let s : State := s.setCtx c x { s.ctx c x with g := [(1, 100), (2, 5 + 9 * 2 ^ 12)] };
     let i : Nat := bitsOf ((s.ctx c x).gr rb).toNat 11 0; s.clusterUp 0 = true ∧ s.standsAt c x cl (.arm rd ra rb) ∧
     i = bitsOf ((s.ctx c x).gr rb).toNat 11 0 ∧ bitsOf ((s.ctx c x).gr rb).toNat 63 44 = 0 ∧ ((s.ctx c x).gr ra).toNat % 2 ^ 21 ≤ 1062499) ∧
    (let c : CoreId := 1; let x : CtxId := 1; let cl : Clause := dClause; let rd : GReg := 3; let ra : GReg := 1; let rb : GReg := 2;
     let s : State := State.reset; let s : State := s.setFld (R.pwrDom (1 + 0)) F.pwrDom_state 2;
     let s : State := s.putInstr c x cl ((.arm rd ra rb)); let s : State := s.setCtx c x { s.ctx c x with g := [(2, 2 ^ 50)] };
     let i : Nat := bitsOf ((s.ctx c x).gr rb).toNat 11 0; s.clusterUp 0 = true ∧ s.standsAt c x cl (.arm rd ra rb) ∧
     i = bitsOf ((s.ctx c x).gr rb).toNat 11 0 ∧ bitOf ((s.ctx c x).gr rb).toNat 63 = false ∧ bitsOf ((s.ctx c x).gr rb).toNat 62 44 ≠ 0) ∧
    (let c : CoreId := 1; let x : CtxId := 1; let cl : Clause := dClause; let rd : GReg := 3; let sel : BitVec 10 := 0; let s : State := State.reset;
     let s : State := s.setFld (R.pwrDom (1 + 0)) F.pwrDom_state 2; let s : State := s.putInstr c x cl ((.tcap rd sel)); s.clusterUp 0 = true ∧
     s.standsAt c x cl (.tcap rd sel) ∧ sel = 0) := by
  refine ⟨?_, ?_, ?_, ?_, ?_, ?_, ?_, ?_, ?_, ?_, ?_, ?_, ?_, ?_, ?_, ?_, ?_, ?_, ?_, ?_, ?_, ?_, ?_, ?_⟩
  · delta State.atInstr; decide +kernel
  · delta State.atInstr; decide +kernel
  · delta State.atInstr; decide +kernel
  · delta State.atInstr; decide +kernel
  · delta State.atInstr; decide +kernel
  · delta State.standsAt; delta State.atInstr; decide +kernel
  · delta State.standsAt; delta State.atInstr; decide +kernel
  · delta State.standsAt; delta State.atInstr; decide +kernel
  · delta State.standsAt; delta State.atInstr; decide +kernel
  · delta State.standsAt; delta State.atInstr; decide +kernel
  · delta State.standsAt; delta State.atInstr; decide +kernel
  · delta State.standsAt; delta State.atInstr; decide +kernel
  · delta State.standsAt; delta State.atInstr; decide +kernel
  · delta State.standsAt; delta State.atInstr; decide +kernel
  · delta State.standsAt; delta State.atInstr; decide +kernel
  · delta State.standsAt; delta State.atInstr; decide +kernel
  · delta State.standsAt; delta State.atInstr; decide +kernel
  · delta State.standsAt; delta State.atInstr; decide +kernel
  · delta State.standsAt; delta State.atInstr; decide +kernel
  · decide +kernel
  · delta State.standsAt; delta State.atInstr; decide +kernel
  · delta State.standsAt; delta State.atInstr; decide +kernel
  · delta State.standsAt; delta State.atInstr; decide +kernel
  · delta State.standsAt; delta State.atInstr; decide +kernel

/-- Operands and states that meet the hypotheses of `Obligations.LimTokensEndsAndTime`, in the order of its clauses. -/
theorem witness_LimTokensEndsAndTime_2 :
    (let c : CoreId := 1; let x : CtxId := 1; let cl : Clause := dClause; let rd : GReg := 3; let sel : BitVec 10 := 1;
     let p := ⟨0, ⟨1, 2, 3, 4⟩, 0⟩; let s : State := State.reset; let s : State := s.setFld (R.pwrDom (1 + 0)) F.pwrDom_state 2;
     let s : State := s.putInstr c x cl ((.tcap rd sel)); let s : State := s.setCtx c x { s.ctx c x with capture := some p }; s.clusterUp 0 = true ∧
     s.standsAt c x cl (.tcap rd sel) ∧ (s.ctx c x).capture = some p ∧ sel = 1) ∧
    (let c : CoreId := 1; let x : CtxId := 1; let cl : Clause := dClause; let rd : GReg := 3; let sel : BitVec 10 := 2;
     let p := ⟨0, ⟨1, 2, 3, 4⟩, 0⟩; let s : State := State.reset; let s : State := s.setFld (R.pwrDom (1 + 0)) F.pwrDom_state 2;
     let s : State := s.putInstr c x cl ((.tcap rd sel)); let s : State := s.setCtx c x { s.ctx c x with capture := some p }; s.clusterUp 0 = true ∧
     s.standsAt c x cl (.tcap rd sel) ∧ (s.ctx c x).capture = some p ∧ sel = 2) ∧
    (let c : CoreId := 1; let x : CtxId := 1; let cl : Clause := dClause; let rd : GReg := 3; let sel : BitVec 10 := 3;
     let p := ⟨0, ⟨1, 2, 3, 4⟩, 0⟩; let s : State := State.reset; let s : State := s.setFld (R.pwrDom (1 + 0)) F.pwrDom_state 2;
     let s : State := s.putInstr c x cl ((.tcap rd sel)); let s : State := s.setCtx c x { s.ctx c x with capture := some p }; s.clusterUp 0 = true ∧
     s.standsAt c x cl (.tcap rd sel) ∧ (s.ctx c x).capture = some p ∧ sel = 3) ∧
    (let c : CoreId := 1; let x : CtxId := 1; let cl : Clause := dClause; let rd : GReg := 3; let sel : BitVec 10 := 4;
     let p := ⟨0, ⟨1, 2, 3, 4⟩, 0⟩; let s : State := State.reset; let s : State := s.setFld (R.pwrDom (1 + 0)) F.pwrDom_state 2;
     let s : State := s.putInstr c x cl ((.tcap rd sel)); let s : State := s.setCtx c x { s.ctx c x with capture := some p }; s.clusterUp 0 = true ∧
     s.standsAt c x cl (.tcap rd sel) ∧ (s.ctx c x).capture = some p ∧ sel = 4) ∧
    (let c : CoreId := 1; let x : CtxId := 1; let cl : Clause := dClause; let rd : GReg := 3; let sel : BitVec 10 := 2; let s : State := State.reset;
     let s : State := s.setFld (R.pwrDom (1 + 0)) F.pwrDom_state 2; let s : State := s.putInstr c x cl ((.tcap rd sel));
     let s : State := s.setCtx c x { s.ctx c x with capture := none }; s.clusterUp 0 = true ∧ s.standsAt c x cl (.tcap rd sel) ∧
     (s.ctx c x).capture = none ∧ 1 ≤ sel.toNat ∧ sel.toNat ≤ 4) ∧
    (let c : CoreId := 1; let x : CtxId := 1; let cl : Clause := dClause; let rd : GReg := 3; let sel : BitVec 10 := 5; let s : State := State.reset;
     let s : State := s.setFld (R.pwrDom (1 + 0)) F.pwrDom_state 2; let s : State := s.putInstr c x cl ((.tcap rd sel)); s.clusterUp 0 = true ∧
     s.standsAt c x cl (.tcap rd sel) ∧ 4 < sel.toNat) ∧
    (let c : CoreId := 1; let x : CtxId := 1; let cl : Clause := { dClause with sentBase := 50, sentLenM1 := 3 }; let ra : GReg := 1;
     let k : BitVec 10 := 2; let n : Nat := 52; let m := default; let s : State := State.reset;
     let s : State := s.setFld (R.pwrDom (1 + 0)) F.pwrDom_state 2; let s : State := s.putInstr c x cl ((.emit ra k));
     let s : State := s.setGnode 52 { s.gnode 52 with cfg := 2 ^ 63 }; s.clusterUp 0 = true ∧ (∀ w ∈ (s.core c).posted, w.uid ≠ cl.uid) ∧
     ((cl.sentBase + k.toNat) % 65536) = n ∧ s.standsAt c x cl (.emit ra k) ∧ (decide (cl.block = false ∧ k.toNat ≤ cl.sentLenM1)) = true ∧
     (s.gnode n).valid = true ∧ (s.gnode n).tokens.length < 15 ∧ m ≠ n) ∧
    (let c : CoreId := 1; let x : CtxId := 1; let cl : Clause := dClause; let ra : GReg := 1; let rb : GReg := 2; let n : Nat := 60;
     let m := default; let s : State := State.reset; let s : State := s.setFld (R.pwrDom (1 + 0)) F.pwrDom_state 2;
     let s : State := s.putInstr c x cl ((.emitx ra rb)); let s : State := s.setGnode 60 { s.gnode 60 with cfg := 2 ^ 63 };
     let s : State := s.setCtx c x { s.ctx c x with g := [(1, 9), (2, 60)] }; s.clusterUp 0 = true ∧ (∀ w ∈ (s.core c).posted, w.uid ≠ cl.uid) ∧
     (((s.ctx c x).gr rb).toNat) = n ∧ s.standsAt c x cl (.emitx ra rb) ∧ (decide (((s.ctx c x).gr rb).toNat < 65536)) = true ∧
     (s.gnode n).valid = true ∧ (s.gnode n).tokens.length < 15 ∧ m ≠ n) ∧
    (let c : CoreId := 1; let x : CtxId := 1; let cl : Clause := dClause; let s : State := State.reset;
     let s : State := s.setFld (R.pwrDom (1 + 0)) F.pwrDom_state 2; let s : State := s.putInstr c x cl (.endClause); s.clusterUp 0 = true ∧
     (∀ w ∈ (s.core c).posted, w.uid ≠ cl.uid) ∧ s.standsAt c x cl .endClause ∧ cl.latches = [] ∧ (s.ctx c x).objects = [] ∧ s.plainClause c x cl) ∧
    (let c : CoreId := 1; let x : CtxId := 1; let cl : Clause := dClause; let rd : GReg := 3; let ra : GReg := 1; let rb : GReg := 2;
     let j : Nat := 0; let s : State := State.reset; let s : State := s.setFld (R.pwrDom (1 + 0)) F.pwrDom_state 2;
     let s : State := s.putInstr c x cl ((.arm rd ra rb)); let s : State := s.setCtx c x { s.ctx c x with g := [(2, 2 ^ 63 + 5)] };
     let i : Nat := bitsOf ((s.ctx c x).gr rb).toNat 11 0; s.clusterUp 0 = true ∧ s.standsAt c x cl (.arm rd ra rb) ∧
     i = bitsOf ((s.ctx c x).gr rb).toNat 11 0 ∧ bitOf ((s.ctx c x).gr rb).toNat 63 = true ∧ j ≠ i) ∧
    (let c : CoreId := 1; let x : CtxId := 1; let cl : Clause := dClause; let rd : GReg := 3; let ra : GReg := 1; let rb : GReg := 2;
     let j : Nat := 0; let s : State := State.reset; let s : State := s.setFld (R.pwrDom (1 + 0)) F.pwrDom_state 2;
     let s : State := s.putInstr c x cl ((.arm rd ra rb)); let s : State := s.setCtx c x { s.ctx c x with g := [(1, 100), (2, 5 + 9 * 2 ^ 12)] };
     let i : Nat := bitsOf ((s.ctx c x).gr rb).toNat 11 0; s.clusterUp 0 = true ∧ s.standsAt c x cl (.arm rd ra rb) ∧
     i = bitsOf ((s.ctx c x).gr rb).toNat 11 0 ∧ bitsOf ((s.ctx c x).gr rb).toNat 63 44 = 0 ∧ ((s.ctx c x).gr ra).toNat % 2 ^ 21 ≤ 1062499 ∧ j ≠ i) := by
  refine ⟨?_, ?_, ?_, ?_, ?_, ?_, ?_, ?_, ?_, ?_, ?_⟩
  · delta State.standsAt; delta State.atInstr; decide +kernel
  · delta State.standsAt; delta State.atInstr; decide +kernel
  · delta State.standsAt; delta State.atInstr; decide +kernel
  · delta State.standsAt; delta State.atInstr; decide +kernel
  · delta State.standsAt; delta State.atInstr; decide +kernel
  · delta State.standsAt; delta State.atInstr; decide +kernel
  · delta State.standsAt; delta State.atInstr; decide +kernel
  · delta State.standsAt; delta State.atInstr; decide +kernel
  · delta State.standsAt; delta State.atInstr State.plainClause; decide +kernel
  · delta State.standsAt; delta State.atInstr; decide +kernel
  · delta State.standsAt; delta State.atInstr; decide +kernel

/-- Operands and states that meet the hypotheses of `Obligations.LimLatchInstructions`, in the order of its clauses. -/
theorem witness_LimLatchInstructions :
    (let c : CoreId := 1; let x : CtxId := 1; let cl : Clause := { dClause with core := 1, place := 1 }; let rd : GReg := 3; let ra : GReg := 1;
     let imm : BitVec 10 := 5; let n : Nat := 5; let s : State := State.reset; let s : State := s.setFld (R.pwrDom (1 + 0)) F.pwrDom_state 2;
     let s : State := s.putInstr c x cl ((.acq rd ra imm)); let s : State := s.placeClause cl;
     let s : State := s.setLbank n { s.lbank n with holder := none }; s.clusterUp 0 = true ∧ n = ((s.ctx c x).gr ra + imm.setWidth 64).toNat ∧
     cl.core = c.val ∧ cl.place = x.val ∧ s.standsAt c x cl (.acq rd ra imm) ∧ n < 1024 ∧ cl.latches.length < 8 ∧ (∀ m ∈ cl.latches, m < n) ∧
     s.clauseOf cl.uid = some cl ∧ (s.lbank n).holder = none ∧ (∀ w ∈ s.lsch.waits, w.2 ≠ n ∧ w.1 ≠ cl.uid)) ∧
    (let c : CoreId := 1; let x : CtxId := 1; let cl : Clause := { dClause with core := 1, place := 1 }; let rd : GReg := 3; let ra : GReg := 1;
     let imm : BitVec 10 := 5; let s : State := State.reset; let s : State := s.setFld (R.pwrDom (1 + 0)) F.pwrDom_state 2;
     let s : State := s.putInstr c x cl ((.acq rd ra imm)); let s : State := s.setLbank 5 { holder := some 4 };
     let n : Nat := ((s.ctx c x).gr ra + imm.setWidth 64).toNat; s.clusterUp 0 = true ∧ n = ((s.ctx c x).gr ra + imm.setWidth 64).toNat ∧
     cl.core = c.val ∧ cl.place = x.val ∧ s.standsAt c x cl (.acq rd ra imm) ∧ n < 1024 ∧ cl.latches.length < 8 ∧ (∀ m ∈ cl.latches, m < n) ∧
     (s.lbank n).holder.isSome = true) ∧
    (let c : CoreId := 1; let x : CtxId := 1; let cl : Clause := { dClause with core := 1, place := 1, latches := [5] }; let rd : GReg := 3;
     let ra : GReg := 1; let imm : BitVec 10 := 5; let s : State := State.reset; let s : State := s.setFld (R.pwrDom (1 + 0)) F.pwrDom_state 2;
     let s : State := s.putInstr c x cl ((.acq rd ra imm)); let n : Nat := ((s.ctx c x).gr ra + imm.setWidth 64).toNat; s.clusterUp 0 = true ∧
     n = ((s.ctx c x).gr ra + imm.setWidth 64).toNat ∧ cl.core = c.val ∧ cl.place = x.val ∧ s.standsAt c x cl (.acq rd ra imm) ∧ n < 1024 ∧
     (8 ≤ cl.latches.length ∨ ∃ m ∈ cl.latches, n ≤ m)) ∧
    (let c : CoreId := 1; let x : CtxId := 1; let cl : Clause := { dClause with core := 1, place := 1 }; let rd : GReg := 3; let ra : GReg := 1;
     let imm : BitVec 10 := 0; let n : Nat := 1024; let s : State := State.reset; let s : State := s.setFld (R.pwrDom (1 + 0)) F.pwrDom_state 2;
     let s : State := s.putInstr c x cl ((.acq rd ra imm)); let s : State := s.setCtx c x { s.ctx c x with g := [(1, 1024)] }; s.clusterUp 0 = true ∧
     n = ((s.ctx c x).gr ra + imm.setWidth 64).toNat ∧ cl.core = c.val ∧ cl.place = x.val ∧ s.standsAt c x cl (.acq rd ra imm) ∧ 1024 ≤ n) ∧
    (let c : CoreId := 1; let x : CtxId := 1; let cl : Clause := { dClause with core := 1, place := 1, latches := [5] }; let ra : GReg := 1;
     let imm : BitVec 10 := 5; let s : State := State.reset; let s : State := s.setFld (R.pwrDom (1 + 0)) F.pwrDom_state 2;
     let s : State := s.putInstr c x cl ((.rel ra imm)); let s : State := s.setLbank 5 { holder := some 7 };
     let n : Nat := ((s.ctx c x).gr ra + imm.setWidth 64).toNat; s.clusterUp 0 = true ∧ n = ((s.ctx c x).gr ra + imm.setWidth 64).toNat ∧
     cl.core = c.val ∧ cl.place = x.val ∧ s.standsAt c x cl (.rel ra imm) ∧ (∀ w ∈ (s.core c).posted, w.uid ≠ cl.uid) ∧ n < 1024 ∧ n ∈ cl.latches) ∧
    (let c : CoreId := 1; let x : CtxId := 1; let cl : Clause := { dClause with core := 1, place := 1 }; let ra : GReg := 1;
     let imm : BitVec 10 := 5; let s : State := State.reset; let s : State := s.setFld (R.pwrDom (1 + 0)) F.pwrDom_state 2;
     let s : State := s.putInstr c x cl ((.rel ra imm)); let n : Nat := ((s.ctx c x).gr ra + imm.setWidth 64).toNat; s.clusterUp 0 = true ∧
     n = ((s.ctx c x).gr ra + imm.setWidth 64).toNat ∧ cl.core = c.val ∧ cl.place = x.val ∧ s.standsAt c x cl (.rel ra imm) ∧
     (∀ w ∈ (s.core c).posted, w.uid ≠ cl.uid) ∧ n < 1024 ∧ n ∉ cl.latches) ∧
    (let c : CoreId := 1; let x : CtxId := 1; let cl : Clause := { dClause with core := 1, place := 1, latches := [5] }; let ra : GReg := 1;
     let imm : BitVec 10 := 5; let s : State := State.reset; let s : State := s.setFld (R.pwrDom (1 + 0)) F.pwrDom_state 2;
     let s : State := s.putInstr c x cl ((.lfix ra imm)); let s : State := s.setLbank 5 { holder := some 7, broken := true };
     let n : Nat := ((s.ctx c x).gr ra + imm.setWidth 64).toNat; s.clusterUp 0 = true ∧ n = ((s.ctx c x).gr ra + imm.setWidth 64).toNat ∧
     cl.core = c.val ∧ cl.place = x.val ∧ s.standsAt c x cl (.lfix ra imm) ∧ n < 1024 ∧ n ∈ cl.latches) ∧
    (let c : CoreId := 1; let x : CtxId := 1; let cl : Clause := { dClause with core := 1, place := 1 }; let ra : GReg := 1;
     let imm : BitVec 10 := 5; let s : State := State.reset; let s : State := s.setFld (R.pwrDom (1 + 0)) F.pwrDom_state 2;
     let s : State := s.putInstr c x cl ((.lfix ra imm)); let n : Nat := ((s.ctx c x).gr ra + imm.setWidth 64).toNat; s.clusterUp 0 = true ∧
     n = ((s.ctx c x).gr ra + imm.setWidth 64).toNat ∧ cl.core = c.val ∧ cl.place = x.val ∧ s.standsAt c x cl (.lfix ra imm) ∧ n < 1024 ∧
     n ∉ cl.latches) ∧
    (let c : CoreId := 1; let x : CtxId := 1; let cl : Clause := { dClause with core := 1, place := 1 }; let rd : GReg := 3; let ra : GReg := 1;
     let imm : BitVec 10 := 5; let n : Nat := 5; let m : Nat := 0; let s : State := State.reset;
     let s : State := s.setFld (R.pwrDom (1 + 0)) F.pwrDom_state 2; let s : State := s.putInstr c x cl ((.acq rd ra imm));
     let s : State := s.placeClause cl; let s : State := s.setLbank n { s.lbank n with holder := none }; s.clusterUp 0 = true ∧
     n = ((s.ctx c x).gr ra + imm.setWidth 64).toNat ∧ cl.core = c.val ∧ cl.place = x.val ∧ s.standsAt c x cl (.acq rd ra imm) ∧ n < 1024 ∧
     cl.latches.length < 8 ∧ (∀ m ∈ cl.latches, m < n) ∧ s.clauseOf cl.uid = some cl ∧ (s.lbank n).holder = none ∧ (∀ w ∈ s.lsch.waits, w.2 ≠ n ∧
     w.1 ≠ cl.uid) ∧ m ≠ n) ∧
    (let c : CoreId := 1; let x : CtxId := 1; let cl : Clause := { dClause with core := 1, place := 1, latches := [5] }; let ra : GReg := 1;
     let imm : BitVec 10 := 5; let m : Nat := 0; let s : State := State.reset; let s : State := s.setFld (R.pwrDom (1 + 0)) F.pwrDom_state 2;
     let s : State := s.putInstr c x cl ((.rel ra imm)); let s : State := s.setLbank 5 { holder := some 7 };
     let n : Nat := ((s.ctx c x).gr ra + imm.setWidth 64).toNat; s.clusterUp 0 = true ∧ n = ((s.ctx c x).gr ra + imm.setWidth 64).toNat ∧
     cl.core = c.val ∧ cl.place = x.val ∧ s.standsAt c x cl (.rel ra imm) ∧ (∀ w ∈ (s.core c).posted, w.uid ≠ cl.uid) ∧ n < 1024 ∧ n ∈ cl.latches ∧
     m ≠ n) ∧
    (let c : CoreId := 1; let x : CtxId := 1; let cl : Clause := { dClause with core := 1, place := 1, latches := [5] }; let ra : GReg := 1;
     let imm : BitVec 10 := 5; let m : Nat := 0; let s : State := State.reset; let s : State := s.setFld (R.pwrDom (1 + 0)) F.pwrDom_state 2;
     let s : State := s.putInstr c x cl ((.lfix ra imm)); let s : State := s.setLbank 5 { holder := some 7, broken := true };
     let n : Nat := ((s.ctx c x).gr ra + imm.setWidth 64).toNat; s.clusterUp 0 = true ∧ n = ((s.ctx c x).gr ra + imm.setWidth 64).toNat ∧
     cl.core = c.val ∧ cl.place = x.val ∧ s.standsAt c x cl (.lfix ra imm) ∧ n < 1024 ∧ n ∈ cl.latches ∧ m ≠ n) := by
  refine ⟨?_, ?_, ?_, ?_, ?_, ?_, ?_, ?_, ?_, ?_, ?_⟩ <;> (delta State.standsAt; delta State.atInstr; decide +kernel)

/-- Operands and states that meet the hypotheses of `Obligations.LimTakesAndReadsObjects`, in the order of its clauses. -/
theorem witness_LimTakesAndReadsObjects_1 :
    (let c : CoreId := 1; let x : CtxId := 1; let cl : Clause := dClause; let rd : GReg := 3; let ra : GReg := 1; let rb : GReg := 2;
     let a : BitVec 64 := 0x3E01; let b : BitVec 64 := 0; let q : Nat := a.toNat; let s : State := State.reset;
     let s : State := s.putInstr c x cl ((.ptake rd ra)); let s : State := s.setCtx c x { s.ctx c x with g := [(1, 0x3E01), (2, 0)] };
     (s.ctx c x).gr ra = a ∧ (s.ctx c x).gr rb = b ∧ s.standsAt c x cl (.ptake rd ra) ∧ q = a.toNat ∧ 0x3E00 ≤ q ∧ q ≤ 0x3FFF ∧ s.head q = none ∧
     (s.ctx c x).emptySlot.isSome = true) ∧
    (let c : CoreId := 1; let x : CtxId := 1; let cl : Clause := dClause; let rd : GReg := 3; let ra : GReg := 1; let rb : GReg := 2;
     let a : BitVec 64 := 0x3E01; let b : BitVec 64 := 0; let q : Nat := a.toNat; let h := 0; let p := ⟨dPkt, .die, 0, 0, []⟩;
     let s : State := State.reset; let s : State := s.putInstr c x cl ((.ptake rd ra));
     let s : State := s.setCtx c x { s.ctx c x with g := [(1, 0x3E01), (2, 0)] };
     let s : State := s.setQueue 0x3E01 { desc := 2 ^ 63 + 100, pkts := [p] }; (s.ctx c x).gr ra = a ∧ (s.ctx c x).gr rb = b ∧
     s.standsAt c x cl (.ptake rd ra) ∧ q = a.toNat ∧ 0x3E00 ≤ q ∧ q ≤ 0x3FFF ∧ s.head q = some p ∧ (s.ctx c x).emptySlot = some h) ∧
    (let c : CoreId := 1; let x : CtxId := 1; let cl : Clause := dClause; let rd : GReg := 3; let ra : GReg := 1; let rb : GReg := 2;
     let a : BitVec 64 := 5; let b : BitVec 64 := 0; let q : Nat := a.toNat; let s : State := State.reset;
     let s : State := s.putInstr c x cl ((.ptake rd ra)); let s : State := s.setCtx c x { s.ctx c x with g := [(1, 5), (2, 0)] };
     (s.ctx c x).gr ra = a ∧ (s.ctx c x).gr rb = b ∧ s.standsAt c x cl (.ptake rd ra) ∧ q = a.toNat ∧ (q < 0x3E00 ∨ 0x3FFF < q)) ∧
    (let c : CoreId := 1; let x : CtxId := 1; let cl : Clause := dClause; let rd : GReg := 3; let ra : GReg := 1; let rb : GReg := 2;
     let s : State := State.reset; let s : State := s.putInstr c x cl ((.mtake rd)); let s : State := { s with dfp := { s.dfp with msgq := [] } };
     let a : BitVec 64 := (s.ctx c x).gr ra; let b : BitVec 64 := (s.ctx c x).gr rb; (s.ctx c x).gr ra = a ∧ (s.ctx c x).gr rb = b ∧
     s.standsAt c x cl (.mtake rd) ∧ s.dfp.msgq = [] ∧ (s.ctx c x).emptySlot.isSome = true) ∧
    (let c : CoreId := 1; let x : CtxId := 1; let cl : Clause := dClause; let rd : GReg := 3; let ra : GReg := 1; let rb : GReg := 2;
     let a : BitVec 64 := 0; let b : BitVec 64 := 0; let m := dMsg; let l := []; let h := 0; let s : State := State.reset;
     let s : State := s.putInstr c x cl ((.mtake rd)); let s : State := { s with dfp := { s.dfp with msgq := m :: l } }; (s.ctx c x).gr ra = a ∧
     (s.ctx c x).gr rb = b ∧ s.standsAt c x cl (.mtake rd) ∧ s.dfp.msgq = m :: l ∧ (s.ctx c x).emptySlot = some h) ∧
    (let c : CoreId := 1; let x : CtxId := 1; let cl : Clause := dClause; let rd : GReg := 3; let ra : GReg := 1; let rb : GReg := 2;
     let a : BitVec 64 := 100; let b : BitVec 64 := 0; let n : Nat := a.toNat % 2 ^ 14; let d : Dir := (if bitOf a.toNat 14 then Dir.dn else .up);
     let s : State := State.reset; let s : State := s.putInstr c x cl ((.pnew rd ra));
     let s : State := s.setBit R.fltRestarting ⟨Src.qm, Src.qm⟩ true; let s : State := s.setCtx c x { s.ctx c x with g := [(1, 100), (2, 0)] };
     let s : State := s.setDieUsed .up (s.poolSize .up); (s.ctx c x).gr ra = a ∧ (s.ctx c x).gr rb = b ∧ s.standsAt c x cl (.pnew rd ra) ∧
     n = a.toNat % 2 ^ 14 ∧ d = (if bitOf a.toNat 14 then Dir.dn else .up) ∧ a.toNat < 2 ^ 15 ∧ n ≠ 0 ∧
     (s.restarting Src.qm = true ∨ s.domTakes 5 = false ∨ s.dieFree d < cellsOf n) ∧ (s.ctx c x).emptySlot.isSome = true) ∧
    (let c : CoreId := 1; let x : CtxId := 1; let cl : Clause := dClause; let rd : GReg := 3; let ra : GReg := 1; let rb : GReg := 2;
     let a : BitVec 64 := 2 ^ 14 + 100; let b : BitVec 64 := 0; let n : Nat := a.toNat % 2 ^ 14;
     let d : Dir := (if bitOf a.toNat 14 then Dir.dn else .up); let h := 0; let s : State := State.reset;
     let s : State := s.putInstr c x cl ((.pnew rd ra)); let s : State := s.setFld (R.pwrDom 5) F.pwrDom_state 2;
     let s : State := s.setCtx c x { s.ctx c x with g := [(1, 2 ^ 14 + 100), (2, 0)] }; (s.ctx c x).gr ra = a ∧ (s.ctx c x).gr rb = b ∧
     s.standsAt c x cl (.pnew rd ra) ∧ n = a.toNat % 2 ^ 14 ∧ d = (if bitOf a.toNat 14 then Dir.dn else .up) ∧ a.toNat < 2 ^ 15 ∧ n ≠ 0 ∧
     s.restarting Src.qm = false ∧ s.domTakes 5 = true ∧ cellsOf n ≤ s.dieFree d ∧ (s.ctx c x).emptySlot = some h) ∧
    (let c : CoreId := 1; let x : CtxId := 1; let cl : Clause := dClause; let rd : GReg := 3; let ra : GReg := 1; let rb : GReg := 2;
     let a : BitVec 64 := 2 ^ 15; let b : BitVec 64 := 0; let n : Nat := a.toNat % 2 ^ 14; let d : Dir := (if bitOf a.toNat 14 then Dir.dn else .up);
     let s : State := State.reset; let s : State := s.putInstr c x cl ((.pnew rd ra));
     let s : State := s.setCtx c x { s.ctx c x with g := [(1, 2 ^ 15), (2, 0)] }; (s.ctx c x).gr ra = a ∧ (s.ctx c x).gr rb = b ∧
     s.standsAt c x cl (.pnew rd ra) ∧ n = a.toNat % 2 ^ 14 ∧ d = (if bitOf a.toNat 14 then Dir.dn else .up) ∧ (2 ^ 15 ≤ a.toNat ∨ n = 0)) ∧
    (let c : CoreId := 1; let x : CtxId := 1; let cl : Clause := { dClause with block := false }; let rd : GReg := 3; let ra : GReg := 1;
     let rb : GReg := 2; let a : BitVec 64 := 0x3E01; let b : BitVec 64 := 0; let s : State := State.reset;
     let s : State := s.putInstr c x cl ((.mtake rd));
     let s : State := s.setCtx c x { s.ctx c x with g := [(1, 0x3E01), (2, 0)], h := (List.range 4).map (fun y => (y, some dHeld)) };
     (s.ctx c x).gr ra = a ∧ (s.ctx c x).gr rb = b ∧ s.standsAt c x cl (.mtake rd) ∧ 0x3E00 ≤ a.toNat ∧ a.toNat ≤ 0x3FFF ∧
     (s.ctx c x).emptySlot = none) ∧
    (let c : CoreId := 1; let x : CtxId := 1; let cl : Clause := { dClause with block := false }; let rd : GReg := 3; let ra : GReg := 1;
     let rb : GReg := 2; let a : BitVec 64 := 0x3E01; let b : BitVec 64 := 0; let s : State := State.reset;
     let s : State := s.putInstr c x cl ((.ptake rd ra));
     let s : State := s.setCtx c x { s.ctx c x with g := [(1, 0x3E01), (2, 0)], h := (List.range 4).map (fun y => (y, some dHeld)) };
     (s.ctx c x).gr ra = a ∧ (s.ctx c x).gr rb = b ∧ s.standsAt c x cl (.ptake rd ra) ∧ 0x3E00 ≤ a.toNat ∧ a.toNat ≤ 0x3FFF ∧
     (s.ctx c x).emptySlot = none) ∧
    (let c : CoreId := 1; let x : CtxId := 1; let cl : Clause := { dClause with block := false }; let rd : GReg := 3; let ra : GReg := 1;
     let rb : GReg := 2; let a : BitVec 64 := 0x3E01; let b : BitVec 64 := 0; let s : State := State.reset;
     let s : State := s.putInstr c x cl ((.pnew rd ra));
     let s : State := s.setCtx c x { s.ctx c x with g := [(1, 0x3E01), (2, 0)], h := (List.range 4).map (fun y => (y, some dHeld)) };
     (s.ctx c x).gr ra = a ∧ (s.ctx c x).gr rb = b ∧ s.standsAt c x cl (.pnew rd ra) ∧ 0x3E00 ≤ a.toNat ∧ a.toNat ≤ 0x3FFF ∧
     (s.ctx c x).emptySlot = none) ∧
    (let c : CoreId := 1; let x : CtxId := 1; let cl : Clause := dClause; let rd : GReg := 3; let ra : GReg := 1; let rb : GReg := 2;
     let imm : BitVec 10 := 2; let a : BitVec 64 := 0; let b : BitVec 64 := 1; let h : Nat := 0; let o : Nat := 3; let v : Held := dHeld;
     let s : State := State.reset; let s : State := s.putInstr c x cl ((.pld rd ra rb imm));
     let s : State := s.setCtx c x { s.ctx c x with g := [(1, 0), (2, 1)], h := [(0, some v)] }; (s.ctx c x).gr ra = a ∧ (s.ctx c x).gr rb = b ∧
     a.toNat = h ∧ o = b.toNat + imm.toNat ∧ h < 4 ∧ (s.ctx c x).handle h = some v ∧ s.standsAt c x cl (.pld rd ra rb imm) ∧ o ≤ 16376) ∧
    (let c : CoreId := 1; let x : CtxId := 1; let cl : Clause := dClause; let rd : GReg := 3; let ra : GReg := 1; let rb : GReg := 2;
     let imm : BitVec 10 := 0; let a : BitVec 64 := 0; let b : BitVec 64 := 1; let h : Nat := 0; let o : Nat := 1; let v : Held := dHeld;
     let s : State := State.reset; let s : State := s.putInstr c x cl ((.pst rd ra rb imm));
     let s : State := s.setCtx c x { s.ctx c x with g := [(1, 0), (2, 1)], h := [(0, some v)] }; (s.ctx c x).gr ra = a ∧ (s.ctx c x).gr rb = b ∧
     a.toNat = h ∧ o = b.toNat + imm.toNat ∧ h < 4 ∧ (s.ctx c x).handle h = some v ∧ s.standsAt c x cl (.pst rd ra rb imm) ∧ o ≤ 16376) ∧
    (let c : CoreId := 1; let x : CtxId := 1; let cl : Clause := dClause; let rd : GReg := 3; let ra : GReg := 1; let rb : GReg := 2;
     let imm : BitVec 10 := 2; let a : BitVec 64 := 0; let b : BitVec 64 := 200; let h : Nat := 0; let o : Nat := 202; let v : Held := dHeld;
     let s : State := State.reset; let s : State := s.putInstr c x cl ((.plen rd ra rb));
     let s : State := s.setCtx c x { s.ctx c x with g := [(1, 0), (2, 200)], h := [(0, some v)] }; (s.ctx c x).gr ra = a ∧ (s.ctx c x).gr rb = b ∧
     a.toNat = h ∧ o = b.toNat + imm.toNat ∧ h < 4 ∧ (s.ctx c x).handle h = some v ∧ s.standsAt c x cl (.plen rd ra rb) ∧ 1 ≤ b.toNat ∧
     b.toNat ≤ 16383 ∧ (v.kind = 1 ∨ cellsOf b.toNat ≤ cellsOf v.pkt.bytes.length ∨ s.restarting Src.qm = false ∧ s.domTakes 5 = true ∧
     cellsOf b.toNat ≤ cellsOf v.pkt.bytes.length + s.dieFree v.pkt.dir)) ∧
    (let c : CoreId := 1; let x : CtxId := 1; let cl : Clause := dClause; let rd : GReg := 3; let ra : GReg := 1; let rb : GReg := 2;
     let imm : BitVec 10 := 2; let a : BitVec 64 := 0; let b : BitVec 64 := 2000; let h : Nat := 0; let o : Nat := 2002; let v : Held := dHeld;
     let s : State := State.reset; let s : State := s.putInstr c x cl ((.plen rd ra rb));
     let s : State := s.setBit R.fltRestarting ⟨Src.qm, Src.qm⟩ true;
     let s : State := s.setCtx c x { s.ctx c x with g := [(1, 0), (2, 2000)], h := [(0, some v)] };
     let s : State := s.setDieUsed .up (s.poolSize .up); (s.ctx c x).gr ra = a ∧ (s.ctx c x).gr rb = b ∧ a.toNat = h ∧ o = b.toNat + imm.toNat ∧
     h < 4 ∧ (s.ctx c x).handle h = some v ∧ s.standsAt c x cl (.plen rd ra rb) ∧ 1 ≤ b.toNat ∧ b.toNat ≤ 16383 ∧ v.kind ≠ 1 ∧
     cellsOf v.pkt.bytes.length < cellsOf b.toNat ∧
     (s.restarting Src.qm = true ∨ s.domTakes 5 = false ∨ cellsOf v.pkt.bytes.length + s.dieFree v.pkt.dir < cellsOf b.toNat)) ∧
    (let c : CoreId := 1; let x : CtxId := 1; let cl : Clause := dClause; let rd : GReg := 3; let ra : GReg := 1; let rb : GReg := 2;
     let imm : BitVec 10 := 2; let a : BitVec 64 := 0; let b : BitVec 64 := 0; let h : Nat := 0; let o : Nat := 2; let v : Held := dHeld;
     let s : State := State.reset; let s : State := s.putInstr c x cl ((.pmeta rd ra imm));
     let s : State := s.setCtx c x { s.ctx c x with g := [(1, 0), (2, 0)], h := [(0, some v)] }; (s.ctx c x).gr ra = a ∧ (s.ctx c x).gr rb = b ∧
     a.toNat = h ∧ o = b.toNat + imm.toNat ∧ h < 4 ∧ (s.ctx c x).handle h = some v ∧ s.standsAt c x cl (.pmeta rd ra imm) ∧ imm.toNat ≤ 5) ∧
    (let c : CoreId := 1; let x : CtxId := 1; let cl : Clause := dClause; let rd : GReg := 3; let ra : GReg := 1; let rb : GReg := 2;
     let imm : BitVec 10 := 0; let a : BitVec 64 := 0; let b : BitVec 64 := 0; let h : Nat := 0; let o : Nat := 0; let v : Held := dHeld;
     let s : State := State.reset; let s : State := s.putInstr c x cl ((.pmeta rd ra imm));
     let s : State := s.setCtx c x { s.ctx c x with g := [(1, 0), (2, 0)], h := [(0, some v)] }; (s.ctx c x).gr ra = a ∧ (s.ctx c x).gr rb = b ∧
     a.toNat = h ∧ o = b.toNat + imm.toNat ∧ h < 4 ∧ (s.ctx c x).handle h = some v ∧ s.standsAt c x cl (.pmeta rd ra imm) ∧ imm = 0) ∧
    (let c : CoreId := 1; let x : CtxId := 1; let cl : Clause := dClause; let rd : GReg := 3; let ra : GReg := 1; let rb : GReg := 2;
     let imm : BitVec 10 := 3; let a : BitVec 64 := 0; let b : BitVec 64 := 0; let h : Nat := 0; let o : Nat := 3; let v : Held := dHeld;
     let s : State := State.reset; let s : State := s.putInstr c x cl ((.pmeta rd ra imm));
     let s : State := s.setCtx c x { s.ctx c x with g := [(1, 0), (2, 0)], h := [(0, some v)] }; (s.ctx c x).gr ra = a ∧ (s.ctx c x).gr rb = b ∧
     a.toNat = h ∧ o = b.toNat + imm.toNat ∧ h < 4 ∧ (s.ctx c x).handle h = some v ∧ s.standsAt c x cl (.pmeta rd ra imm) ∧ imm = 3) ∧
    (let c : CoreId := 1; let x : CtxId := 1; let cl : Clause := dClause; let rd : GReg := 3; let ra : GReg := 1; let rb : GReg := 2;
     let imm : BitVec 10 := 5; let a : BitVec 64 := 0; let b : BitVec 64 := 0; let h : Nat := 0; let o : Nat := 5;
     let v : Held := { dHeld with kind := 1, plane := 3, frame := 77 }; let s : State := State.reset;
     let s : State := s.putInstr c x cl ((.pmeta rd ra imm));
     let s : State := s.setCtx c x { s.ctx c x with g := [(1, 0), (2, 0)], h := [(0, some v)] }; (s.ctx c x).gr ra = a ∧ (s.ctx c x).gr rb = b ∧
     a.toNat = h ∧ o = b.toNat + imm.toNat ∧ h < 4 ∧ (s.ctx c x).handle h = some v ∧ s.standsAt c x cl (.pmeta rd ra imm) ∧ imm = 5 ∧ v.kind = 1) ∧
    (let c : CoreId := 1; let x : CtxId := 1; let cl : Clause := dClause; let rd : GReg := 3; let ra : GReg := 1; let rb : GReg := 2;
     let imm : BitVec 10 := 2; let a : BitVec 64 := 0; let b : BitVec 64 := 1; let s : State := State.reset;
     let s : State := s.putInstr c x cl ((.pld rd ra rb imm)); let s : State := s.setCtx c x { s.ctx c x with g := [(1, 0), (2, 1)] };
     (s.ctx c x).gr ra = a ∧ (s.ctx c x).gr rb = b ∧ s.standsAt c x cl (.pld rd ra rb imm) ∧ 1 ≤ b.toNat ∧ b.toNat + imm.toNat ≤ 16376 ∧
     imm.toNat ≤ 5 ∧ (4 ≤ a.toNat ∨ (s.ctx c x).handle a.toNat = none)) ∧
    (let c : CoreId := 1; let x : CtxId := 1; let cl : Clause := dClause; let rd : GReg := 3; let ra : GReg := 1; let rb : GReg := 2;
     let imm : BitVec 10 := 2; let a : BitVec 64 := 0; let b : BitVec 64 := 1; let s : State := State.reset;
     let s : State := s.putInstr c x cl ((.pst rd ra rb imm)); let s : State := s.setCtx c x { s.ctx c x with g := [(1, 0), (2, 1)] };
     (s.ctx c x).gr ra = a ∧ (s.ctx c x).gr rb = b ∧ s.standsAt c x cl (.pst rd ra rb imm) ∧ 1 ≤ b.toNat ∧ b.toNat + imm.toNat ≤ 16376 ∧
     imm.toNat ≤ 5 ∧ (4 ≤ a.toNat ∨ (s.ctx c x).handle a.toNat = none)) ∧
    (let c : CoreId := 1; let x : CtxId := 1; let cl : Clause := dClause; let rd : GReg := 3; let ra : GReg := 1; let rb : GReg := 2;
     let imm : BitVec 10 := 2; let a : BitVec 64 := 0; let b : BitVec 64 := 1; let s : State := State.reset;
     let s : State := s.putInstr c x cl ((.plen rd ra rb)); let s : State := s.setCtx c x { s.ctx c x with g := [(1, 0), (2, 1)] };
     (s.ctx c x).gr ra = a ∧ (s.ctx c x).gr rb = b ∧ s.standsAt c x cl (.plen rd ra rb) ∧ 1 ≤ b.toNat ∧ b.toNat + imm.toNat ≤ 16376 ∧ imm.toNat ≤ 5 ∧
     (4 ≤ a.toNat ∨ (s.ctx c x).handle a.toNat = none)) ∧
    (let c : CoreId := 1; let x : CtxId := 1; let cl : Clause := dClause; let rd : GReg := 3; let ra : GReg := 1; let rb : GReg := 2;
     let imm : BitVec 10 := 2; let a : BitVec 64 := 0; let b : BitVec 64 := 1; let s : State := State.reset;
     let s : State := s.putInstr c x cl ((.pmeta rd ra imm)); let s : State := s.setCtx c x { s.ctx c x with g := [(1, 0), (2, 1)] };
     (s.ctx c x).gr ra = a ∧ (s.ctx c x).gr rb = b ∧ s.standsAt c x cl (.pmeta rd ra imm) ∧ 1 ≤ b.toNat ∧ b.toNat + imm.toNat ≤ 16376 ∧
     imm.toNat ≤ 5 ∧ (4 ≤ a.toNat ∨ (s.ctx c x).handle a.toNat = none)) ∧
    (let c : CoreId := 1; let x : CtxId := 1; let cl : Clause := dClause; let rd : GReg := 3; let ra : GReg := 1; let rb : GReg := 2;
     let imm : BitVec 10 := 2; let a : BitVec 64 := 0; let b : BitVec 64 := 1; let h : Nat := 0; let o : Nat := 3; let v : Held := dHeld;
     let i : Nat := 0; let s : State := State.reset; let s : State := s.putInstr c x cl ((.pld rd ra rb imm));
     let s : State := s.setCtx c x { s.ctx c x with g := [(1, 0), (2, 1)], h := [(0, some v)] }; (s.ctx c x).gr ra = a ∧ (s.ctx c x).gr rb = b ∧
     a.toNat = h ∧ o = b.toNat + imm.toNat ∧ h < 4 ∧ (s.ctx c x).handle h = some v ∧ s.standsAt c x cl (.pld rd ra rb imm) ∧ o ≤ 16376 ∧ i < 8) := by
  refine ⟨?_, ?_, ?_, ?_, ?_, ?_, ?_, ?_, ?_, ?_, ?_, ?_, ?_, ?_, ?_, ?_, ?_, ?_, ?_, ?_, ?_, ?_, ?_, ?_⟩ <;> (delta State.standsAt; delta State.atInstr; decide +kernel)

/-- Operands and states that meet the hypotheses of `Obligations.LimTakesAndReadsObjects`, in the order of its clauses. -/
theorem witness_LimTakesAndReadsObjects_2 :
    (let c : CoreId := 1; let x : CtxId := 1; let cl : Clause := dClause; let rd : GReg := 3; let ra : GReg := 1; let rb : GReg := 2;
     let imm : BitVec 10 := 0; let a : BitVec 64 := 0; let b : BitVec 64 := 1; let h : Nat := 0; let o : Nat := 1; let v : Held := dHeld;
     let i : Nat := 0; let s : State := State.reset; let s : State := s.putInstr c x cl ((.pst rd ra rb imm));
     let s : State := s.setCtx c x { s.ctx c x with g := [(1, 0), (2, 1)], h := [(0, some v)] }; (s.ctx c x).gr ra = a ∧ (s.ctx c x).gr rb = b ∧
     a.toNat = h ∧ o = b.toNat + imm.toNat ∧ h < 4 ∧ (s.ctx c x).handle h = some v ∧ s.standsAt c x cl (.pst rd ra rb imm) ∧ o ≤ 16376 ∧
     i < v.pkt.bytes.length) ∧
    (let c : CoreId := 1; let x : CtxId := 1; let cl : Clause := dClause; let rd : GReg := 3; let ra : GReg := 1; let rb : GReg := 2;
     let imm : BitVec 10 := 2; let a : BitVec 64 := 0; let b : BitVec 64 := 200; let h : Nat := 0; let o : Nat := 202; let v : Held := dHeld;
     let i : Nat := 0; let s : State := State.reset; let s : State := s.putInstr c x cl ((.plen rd ra rb));
     let s : State := s.setCtx c x { s.ctx c x with g := [(1, 0), (2, 200)], h := [(0, some v)] }; (s.ctx c x).gr ra = a ∧ (s.ctx c x).gr rb = b ∧
     a.toNat = h ∧ o = b.toNat + imm.toNat ∧ h < 4 ∧ (s.ctx c x).handle h = some v ∧ s.standsAt c x cl (.plen rd ra rb) ∧ 1 ≤ b.toNat ∧
     b.toNat ≤ 16383 ∧ (v.kind = 1 ∨ cellsOf b.toNat ≤ cellsOf v.pkt.bytes.length ∨ s.restarting Src.qm = false ∧ s.domTakes 5 = true ∧
     cellsOf b.toNat ≤ cellsOf v.pkt.bytes.length + s.dieFree v.pkt.dir) ∧ i < b.toNat) := by
  refine ⟨?_, ?_⟩ <;> (delta State.standsAt; delta State.atInstr; decide +kernel)

/-- Operands and states that meet the hypotheses of `Obligations.LimSendsAndSubmits`, in the order of its clauses. -/
theorem witness_LimSendsAndSubmits :
    (let c : CoreId := 1; let x : CtxId := 1; let cl : Clause := dClause; let rd : GReg := 3; let ra : GReg := 1; let rb : GReg := 2;
     let h : Nat := 0; let v : Held := dHeld; let a : BitVec 64 := 0; let b : BitVec 64 := 0;
     let d : Dir := (if bitOf b.toNat 0 then Dir.dn else .up); let s : State := State.reset; let s : State := s.putInstr c x cl ((.psend rd ra rb));
     let s : State := s.setCtx c x { s.ctx c x with g := [(1, 0), (2, 0)], h := [(0, some v)] }; (s.ctx c x).gr ra = a ∧ (s.ctx c x).gr rb = b ∧
     s.standsAt c x cl (.psend rd ra rb) ∧ a.toNat = h ∧ h < 4 ∧ (s.ctx c x).handle h = some v ∧ d = (if bitOf b.toNat 0 then Dir.dn else .up) ∧
     bitsOf b.toNat 7 3 = 0 ∧ b.toNat < 2 ^ 16 ∧ (bitsOf b.toNat 2 1 = 1 → cl.block = false ∧ bitsOf b.toNat 15 8 ≤ cl.sentLenM1) ∧
     (bitsOf b.toNat 2 1 ≠ 1 → bitsOf b.toNat 15 8 = 0) ∧ (s.pipeFull d 7 = true ∨ s.cellsFor v d = none)) ∧
    (let c : CoreId := 1; let x : CtxId := 1; let cl : Clause := dClause; let rd : GReg := 3; let ra : GReg := 1; let rb : GReg := 2;
     let h : Nat := 0; let v : Held := dHeld; let a : BitVec 64 := 0; let b : BitVec 64 := 0;
     let d : Dir := (if bitOf b.toNat 0 then Dir.dn else .up); let s : State := State.reset; let s : State := s.putInstr c x cl ((.psend rd ra rb));
     let s : State := s.setCtx c x { s.ctx c x with g := [(1, 0), (2, 0)], h := [(0, some v)] };
     let s : State := s.setFld (R.pwrDom Dir.up.domain) F.pwrDom_state 2; (s.ctx c x).gr ra = a ∧ (s.ctx c x).gr rb = b ∧
     s.standsAt c x cl (.psend rd ra rb) ∧ a.toNat = h ∧ h < 4 ∧ (s.ctx c x).handle h = some v ∧ d = (if bitOf b.toNat 0 then Dir.dn else .up) ∧
     bitsOf b.toNat 7 3 = 0 ∧ b.toNat < 2 ^ 16 ∧ (bitsOf b.toNat 2 1 = 1 → cl.block = false ∧ bitsOf b.toNat 15 8 ≤ cl.sentLenM1) ∧
     (bitsOf b.toNat 2 1 ≠ 1 → bitsOf b.toNat 15 8 = 0) ∧ s.pipeFull d 7 = false ∧ s.cellsFor v d ≠ none) ∧
    (let c : CoreId := 1; let x : CtxId := 1; let cl : Clause := dClause; let rd : GReg := 3; let ra : GReg := 1; let rb : GReg := 2;
     let a : BitVec 64 := 0; let b : BitVec 64 := 2 + 5 * 2 ^ 8; let s : State := State.reset;
     let s : State := s.putInstr c x cl ((.psend rd ra rb)); let s : State := s.setCtx c x { s.ctx c x with g := [(2, 2 + 5 * 2 ^ 8)] };
     (s.ctx c x).gr ra = a ∧ (s.ctx c x).gr rb = b ∧ s.standsAt c x cl (.psend rd ra rb) ∧ bitsOf b.toNat 2 1 = 1 ∧
     (cl.block = true ∨ cl.sentLenM1 < bitsOf b.toNat 15 8)) ∧
    (let c : CoreId := 1; let x : CtxId := 1; let cl : Clause := dClause; let ra : GReg := 1; let rb : GReg := 2; let h : Nat := 0;
     let v : Held := dHeld; let a : BitVec 64 := 0; let b : BitVec 64 := 0; let s : State := State.reset;
     let s : State := s.putInstr c x cl ((.pfree ra)); let s : State := s.setCtx c x { s.ctx c x with g := [(1, 0), (2, 0)], h := [(0, some v)] };
     (s.ctx c x).gr ra = a ∧ (s.ctx c x).gr rb = b ∧ s.standsAt c x cl (.pfree ra) ∧ a.toNat = h ∧ h < 4 ∧ (s.ctx c x).handle h = some v) ∧
    (let c : CoreId := 1; let x : CtxId := 1; let cl : Clause := dClause; let ra : GReg := 1; let rb : GReg := 2; let s : State := State.reset;
     let s : State := s.putInstr c x cl ((.pfree ra)); let a : BitVec 64 := (s.ctx c x).gr ra; let b : BitVec 64 := (s.ctx c x).gr rb;
     (s.ctx c x).gr ra = a ∧ (s.ctx c x).gr rb = b ∧ s.standsAt c x cl (.pfree ra) ∧ (4 ≤ a.toNat ∨ (s.ctx c x).handle a.toNat = none)) ∧
    (let c : CoreId := 1; let x : CtxId := 1; let cl : Clause := dClause; let rd : GReg := 3; let ra : GReg := 1; let rb : GReg := 2;
     let h : Nat := 0; let v : Held := dHeld; let a : BitVec 64 := 0; let b : BitVec 64 := 0; let s : State := State.reset;
     let s : State := s.putInstr c x cl ((.mpost rd ra rb));
     let s : State := s.setCtx c x { s.ctx c x with g := [(1, 0), (2, 0)], h := [(0, some v)] };
     let s : State := { s with ubb := { s.ubb with msgs := List.replicate 64 dUp } }; (s.ctx c x).gr ra = a ∧ (s.ctx c x).gr rb = b ∧
     s.standsAt c x cl (.mpost rd ra rb) ∧ a.toNat = h ∧ h < 4 ∧ (s.ctx c x).handle h = some v ∧ b.toNat ≤ 2 ∧ 64 ≤ s.ubb.msgs.length) ∧
    (let c : CoreId := 1; let x : CtxId := 1; let cl : Clause := dClause; let rd : GReg := 3; let ra : GReg := 1; let rb : GReg := 2;
     let h : Nat := 0; let v : Held := dHeld; let a : BitVec 64 := 0; let b : BitVec 64 := 1; let s : State := State.reset;
     let s : State := s.putInstr c x cl ((.mpost rd ra rb));
     let s : State := s.setCtx c x { s.ctx c x with g := [(1, 0), (2, 1)], h := [(0, some v)] }; (s.ctx c x).gr ra = a ∧ (s.ctx c x).gr rb = b ∧
     s.standsAt c x cl (.mpost rd ra rb) ∧ a.toNat = h ∧ h < 4 ∧ (s.ctx c x).handle h = some v ∧ b.toNat ≤ 2 ∧ s.ubb.msgs.length < 64 ∧
     (v.pkt.bytes.length ≠ 8 + bitsOf (beNat (takePad 8 v.pkt.bytes)) 45 34 ∨ 4103 < v.pkt.bytes.length)) ∧
    (let c : CoreId := 1; let x : CtxId := 1; let cl : Clause := dClause; let rd : GReg := 3; let ra : GReg := 1; let rb : GReg := 2;
     let h : Nat := 0; let v : Held := { dHeld with pkt := { dPkt with bytes := [1, 2, 0, 4, 0, 0, 0, 0, 9] } }; let a : BitVec 64 := 0;
     let b : BitVec 64 := 2; let s : State := State.reset; let s : State := s.putInstr c x cl ((.mpost rd ra rb));
     let s : State := s.setCtx c x { s.ctx c x with g := [(1, 0), (2, 2)], h := [(0, some v)] }; (s.ctx c x).gr ra = a ∧ (s.ctx c x).gr rb = b ∧
     s.standsAt c x cl (.mpost rd ra rb) ∧ a.toNat = h ∧ h < 4 ∧ (s.ctx c x).handle h = some v ∧ b.toNat ≤ 2 ∧ s.ubb.msgs.length < 64 ∧
     v.pkt.bytes.length = 8 + bitsOf (beNat (takePad 8 v.pkt.bytes)) 45 34 ∧ v.pkt.bytes.length ≤ 4103) ∧
    (let c : CoreId := 1; let x : CtxId := 1; let cl : Clause := dClause; let rd : GReg := 3; let ra : GReg := 1; let rb : GReg := 2;
     let s : State := State.reset; let s : State := s.putInstr c x cl ((.mdrop rd ra));
     let s : State := { s with ubb := { s.ubb with msgs := [dUp, { dUp with enrol := true }] } }; let a : BitVec 64 := (s.ctx c x).gr ra;
     let b : BitVec 64 := (s.ctx c x).gr rb; (s.ctx c x).gr ra = a ∧ (s.ctx c x).gr rb = b ∧ s.standsAt c x cl (.mdrop rd ra)) ∧
    (let c : CoreId := 1; let x : CtxId := 1; let cl : Clause := dClause; let rd : GReg := 3; let ra : GReg := 1; let rb : GReg := 2;
     let a : BitVec 64 := 64; let b : BitVec 64 := 2 ^ 16 + 5; let q : Nat := 5; let s : State := State.reset;
     let s : State := s.putInstr c x cl ((.creq rd ra rb)); let s : State := s.setFld (R.pwrDom 1) F.pwrDom_state 2;
     let s : State := s.setCtx c x { s.ctx c x with g := [(1, 64), (2, 2 ^ 16 + 5)] }; let k : Nat := (s.limCell c 64 64 true).getD 0;
     (s.ctx c x).gr ra = a ∧ (s.ctx c x).gr rb = b ∧ s.standsAt c x cl (.creq rd ra rb) ∧ b.toNat < 2 ^ 17 ∧ bitsOf b.toNat 7 6 = 0 ∧
     q = b.toNat % 64 ∧ (cl.block = true → bitOf b.toNat 16 = true) ∧ (cl.block = false → bitsOf b.toNat 15 8 ≤ cl.sentLenM1) ∧ a.toNat % 8 = 0 ∧
     s.limCell c a.toNat 64 true = some k ∧ (s.domTakes 6 = false ∨ s.restarting Src.ciph = true ∨ s.bit (R.ciphLaqCfg q) F.ciphLaqCfg_en = false)) ∧
    (let c : CoreId := 1; let x : CtxId := 1; let cl : Clause := dClause; let rd : GReg := 3; let ra : GReg := 1; let rb : GReg := 2;
     let a : BitVec 64 := 64; let b : BitVec 64 := 2 ^ 16 + 5; let q : Nat := 5; let s : State := State.reset;
     let s : State := s.putInstr c x cl ((.creq rd ra rb)); let s : State := s.setFld (R.pwrDom 6) F.pwrDom_state 2;
     let s : State := s.setBit (R.ciphLaqCfg q) F.ciphLaqCfg_en true; let s : State := s.setBit (R.ciphLaqCfg q) F.ciphLaqCfg_src true;
     let s : State := s.setFld (R.pwrDom 1) F.pwrDom_state 2; let s : State := s.setCtx c x { s.ctx c x with g := [(1, 64), (2, 2 ^ 16 + 5)] };
     let k : Nat := (s.limCell c 64 64 true).getD 0; (s.ctx c x).gr ra = a ∧ (s.ctx c x).gr rb = b ∧ s.standsAt c x cl (.creq rd ra rb) ∧
     b.toNat < 2 ^ 17 ∧ bitsOf b.toNat 7 6 = 0 ∧ q = b.toNat % 64 ∧ (cl.block = true → bitOf b.toNat 16 = true) ∧
     (cl.block = false → bitsOf b.toNat 15 8 ≤ cl.sentLenM1) ∧ a.toNat % 8 = 0 ∧ s.limCell c a.toNat 64 true = some k ∧ s.domTakes 6 = true ∧
     s.restarting Src.ciph = false ∧ s.bit (R.ciphLaqCfg q) F.ciphLaqCfg_en = true ∧ s.bit (R.ciphLaqCfg q) F.ciphLaqCfg_src = true) ∧
    (let c : CoreId := 1; let x : CtxId := 1; let cl : Clause := dClause; let rd : GReg := 3; let ra : GReg := 1; let rb : GReg := 2;
     let a : BitVec 64 := 64; let b : BitVec 64 := 2 ^ 16 + 5; let q : Nat := 5; let s : State := State.reset;
     let s : State := s.putInstr c x cl ((.creq rd ra rb)); let s : State := s.setFld (R.pwrDom 6) F.pwrDom_state 2;
     let s : State := s.setBit (R.ciphLaqCfg q) F.ciphLaqCfg_en true; let s : State := s.setBit (R.ciphLaqCfg q) F.ciphLaqCfg_src false;
     let s : State := s.setFld (R.pwrDom 1) F.pwrDom_state 2; let s : State := s.setCtx c x { s.ctx c x with g := [(1, 64), (2, 2 ^ 16 + 5)] };
     let s : State := s.setLook 5 (List.replicate 256 dReq); let k : Nat := (s.limCell c 64 64 true).getD 0; (s.ctx c x).gr ra = a ∧
     (s.ctx c x).gr rb = b ∧ s.standsAt c x cl (.creq rd ra rb) ∧ b.toNat < 2 ^ 17 ∧ bitsOf b.toNat 7 6 = 0 ∧ q = b.toNat % 64 ∧
     (cl.block = true → bitOf b.toNat 16 = true) ∧ (cl.block = false → bitsOf b.toNat 15 8 ≤ cl.sentLenM1) ∧ a.toNat % 8 = 0 ∧
     s.limCell c a.toNat 64 true = some k ∧ s.domTakes 6 = true ∧ s.restarting Src.ciph = false ∧ s.bit (R.ciphLaqCfg q) F.ciphLaqCfg_en = true ∧
     s.bit (R.ciphLaqCfg q) F.ciphLaqCfg_src = false ∧ 256 ≤ (s.look q).length) ∧
    (let c : CoreId := 1; let x : CtxId := 1; let cl : Clause := dClause; let rd : GReg := 3; let ra : GReg := 1; let rb : GReg := 2;
     let a : BitVec 64 := 64; let b : BitVec 64 := 2 ^ 16 + 5; let q : Nat := 5; let s : State := State.reset;
     let s : State := s.putInstr c x cl ((.creq rd ra rb)); let s : State := s.setFld (R.pwrDom 6) F.pwrDom_state 2;
     let s : State := s.setBit (R.ciphLaqCfg q) F.ciphLaqCfg_en true; let s : State := s.setBit (R.ciphLaqCfg q) F.ciphLaqCfg_src false;
     let s : State := s.setFld (R.pwrDom 1) F.pwrDom_state 2; let s : State := s.setCtx c x { s.ctx c x with g := [(1, 64), (2, 2 ^ 16 + 5)] };
     let k : Nat := (s.limCell c 64 64 true).getD 0; (s.ctx c x).gr ra = a ∧ (s.ctx c x).gr rb = b ∧ s.standsAt c x cl (.creq rd ra rb) ∧
     b.toNat < 2 ^ 17 ∧ bitsOf b.toNat 7 6 = 0 ∧ q = b.toNat % 64 ∧ (cl.block = true → bitOf b.toNat 16 = true) ∧
     (cl.block = false → bitsOf b.toNat 15 8 ≤ cl.sentLenM1) ∧ a.toNat % 8 = 0 ∧ s.limCell c a.toNat 64 true = some k ∧ s.domTakes 6 = true ∧
     s.restarting Src.ciph = false ∧ s.bit (R.ciphLaqCfg q) F.ciphLaqCfg_en = true ∧ s.bit (R.ciphLaqCfg q) F.ciphLaqCfg_src = false ∧
     (s.look q).length < 256) ∧
    (let c : CoreId := 1; let x : CtxId := 1; let cl : Clause := dClause; let rd : GReg := 3; let ra : GReg := 1; let rb : GReg := 2;
     let a : BitVec 64 := 64; let b : BitVec 64 := 2 ^ 16 + 255 * 2 ^ 8 + 5; let s : State := State.reset;
     let s : State := s.putInstr c x cl ((.creq rd ra rb));
     let s : State := s.setCtx c x { s.ctx c x with g := [(1, 64), (2, 2 ^ 16 + 255 * 2 ^ 8 + 5)] }; (s.ctx c x).gr ra = a ∧ (s.ctx c x).gr rb = b ∧
     s.standsAt c x cl (.creq rd ra rb) ∧ (cl.block = true ∧ bitOf b.toNat 16 = false ∨ cl.block = false ∧ cl.sentLenM1 < bitsOf b.toNat 15 8)) ∧
    (let c : CoreId := 1; let x : CtxId := 1; let cl : Clause := dClause; let rd : GReg := 3; let ra : GReg := 1; let rb : GReg := 2;
     let a : BitVec 64 := 4; let b : BitVec 64 := 2 ^ 16 + 5; let s : State := State.reset; let s : State := s.putInstr c x cl ((.creq rd ra rb));
     let s : State := s.setCtx c x { s.ctx c x with g := [(1, 4), (2, 2 ^ 16 + 5)] }; (s.ctx c x).gr ra = a ∧ (s.ctx c x).gr rb = b ∧
     s.standsAt c x cl (.creq rd ra rb) ∧ (cl.block = true → bitOf b.toNat 16 = true) ∧ (cl.block = false → bitsOf b.toNat 15 8 ≤ cl.sentLenM1) ∧
     bitsOf b.toNat 7 6 = 0 ∧ b.toNat < 2 ^ 17 ∧ a.toNat % 8 ≠ 0) := by
  refine ⟨?_, ?_, ?_, ?_, ?_, ?_, ?_, ?_, ?_, ?_, ?_, ?_, ?_, ?_, ?_⟩ <;> (delta State.standsAt; delta State.atInstr; decide +kernel)

/-- Operands and states that meet the hypotheses of `Obligations.RingsAndProgramLoad`, in the order of its clauses. -/
theorem witness_RingsAndProgramLoad :
    (let s : State := State.reset; let s : State := { s with host := { s.host with fetching := false } }; s.host.fetching = false ∧
     s.cmdFetches = false) ∧
    (let v : Word := 1; let err : Bool := false; let cause := 2; let s : State := State.reset;
     let s : State := { s with host := { s.host with fetching := true } }; let s : State := s.setFld (R.pwrDom (1 + 0)) F.pwrDom_state 2;
     (s.host.fetching = true ∨ s.cmdFetches = true) ∧ s.clusterUp 0 = true ∧ (err = true ∧ cause = 1 ∨ err = false ∧ v.toNat % 64 ≠ 0 ∧ cause = 2)) ∧
    (let v : Word := 0; let err : Bool := false; let n : Nat := 0; let s : State := State.reset;
     let s : State := { s with host := { s.host with fetching := true } }; let s : State := s.setFld (R.pwrDom (1 + 0)) F.pwrDom_state 2;
     (s.host.fetching = true ∨ s.cmdFetches = true) ∧ s.clusterUp 0 = true ∧ err = false ∧ v.toNat % 64 = 0 ∧ n < 256 ∧
     (∀ b ∈ s.lsch.store, b.slot ≠ n) ∧ (∀ m, m < n → ∃ b ∈ s.lsch.store, b.slot = m)) ∧
    (let s : State := State.reset; let s : State := s.setBit R.gateCmdCtl F.gateCmdCtl_en true;
     let s : State := s.setBit R.gateCmdCtl F.gateCmdCtl_en true; (s.bit R.gateCmdCtl F.gateCmdCtl_en = true ∨ s.host.fetching = true)) ∧
    (let s : State := State.reset; let s : State := s.setBit R.gateCmdCtl F.gateCmdCtl_en false;
     let s : State := { s with host := { s.host with fetching := false } }; s.bit R.gateCmdCtl F.gateCmdCtl_en = false ∧ s.host.fetching = false) ∧
    (let v : Word := 2 ^ 63 + 5; let s : State := State.reset; let s : State := s.setBit R.gateCmdCtl F.gateCmdCtl_en false;
     let s : State := { s with host := { s.host with fetching := false } }; s.bit R.gateCmdCtl F.gateCmdCtl_en = false ∧ s.host.fetching = false ∧
     bitOf v.toNat 63 = true) ∧
    (let v : Word := 0; bitOf v.toNat 63 = false) ∧
    (let s : State := State.reset; let k : Nat := s.fld R.gateCplIdx F.gateCplIdx_tail; k = s.fld R.gateCplIdx F.gateCplIdx_tail ∧
     (s.lsch.cpl = [] ∨ s.bit R.gateCplCtl F.gateCplCtl_en = false ∨ (k + 1) % s.cplSize = s.fld R.gateCplIdx F.gateCplIdx_head % s.cplSize)) ∧
    (let w := ([1, 2, 3, 4] : List Word); let l := ([] : List (List Word)); let s : State := State.reset;
     let s : State := { s with lsch := { s.lsch with cpl := w :: l } }; let s : State := s.setBit R.gateCplCtl F.gateCplCtl_en true;
     let k : Nat := s.fld R.gateCplIdx F.gateCplIdx_tail; k = s.fld R.gateCplIdx F.gateCplIdx_tail ∧ s.lsch.cpl = w :: l ∧
     s.bit R.gateCplCtl F.gateCplCtl_en = true ∧ (k + 1) % s.cplSize ≠ s.fld R.gateCplIdx F.gateCplIdx_head % s.cplSize) ∧
    (let s : State := State.reset; let s : State := s.setCore 1 { s.core 1 with activeLoaded := true }; s.anyActive = true) ∧
    (let s : State := State.reset; let s : State := s.setCore 1 { s.core 1 with activeLoaded := true }; s.anyActive = true) ∧
    (let v : Word := 0; let g := min 8 (bitsOf v.toNat 39 36); let s : State := State.reset; let s : State := s.setFld (R.pwrDom 1) F.pwrDom_state 2;
     s.anyActive = false ∧ s.domOn 1 = true ∧ g = min 8 (bitsOf v.toNat 39 36) ∧ s.fld R.qmHbmCfg F.qmHbmCfg_upGib + g + 4 ≤ s.hbmGib ∧
     s.hbmUsed .dn ≤ (s.hbmGib - s.fld R.qmHbmCfg F.qmHbmCfg_upGib - g) * cellsPerGib) ∧
    (let s : State := State.reset; let s : State := s.setFld (R.pwrDom 1) F.pwrDom_state 2;
     let s : State := { s with lsch := { s.lsch with loading := false } }; let s : State := s.setFld (R.pwrDom (1 + 0)) F.pwrDom_state 2;
     s.anyActive = false ∧ s.domOn 1 = true ∧ s.lsch.loading = false ∧ s.clusterUp 0 = true) ∧
    (let v : Word := 1; let err : Bool := true; let cause := 1; let s : State := State.reset;
     let s : State := { s with host := { s.host with fetching := true } }; let s : State := s.setFld (R.pwrDom (1 + 0)) F.pwrDom_state 2;
     (s.host.fetching = true ∨ s.cmdFetches = true) ∧ s.clusterUp 0 = true ∧ (err = true ∧ cause = 1 ∨ err = false ∧ v.toNat % 64 ≠ 0 ∧ cause = 2) ∧
     err = true) ∧
    (let v : Word := 1; let err : Bool := false; let cause := 2; let s : State := State.reset;
     let s : State := { s with host := { s.host with fetching := true } }; let s : State := s.setFld (R.pwrDom (1 + 0)) F.pwrDom_state 2;
     let s : State := s.setBit R.gateStatus F.gateStatus_cmdEnPending false; (s.host.fetching = true ∨ s.cmdFetches = true) ∧ s.clusterUp 0 = true ∧
     (err = true ∧ cause = 1 ∨ err = false ∧ v.toNat % 64 ≠ 0 ∧ cause = 2) ∧ s.bit R.gateStatus F.gateStatus_cmdEnPending = false) ∧
    (let v : Word := 0; let err : Bool := false; let n : Nat := 0; let s : State := State.reset;
     let s : State := { s with host := { s.host with fetching := true } }; let s : State := s.setFld (R.pwrDom (1 + 0)) F.pwrDom_state 2;
     let s : State := s.setBit R.gateStatus F.gateStatus_cmdEnPending false; (s.host.fetching = true ∨ s.cmdFetches = true) ∧ s.clusterUp 0 = true ∧
     err = false ∧ v.toNat % 64 = 0 ∧ n < 256 ∧ (∀ b ∈ s.lsch.store, b.slot ≠ n) ∧ (∀ m, m < n → ∃ b ∈ s.lsch.store, b.slot = m) ∧
     s.bit R.gateStatus F.gateStatus_cmdEnPending = false) ∧
    (let s : State := State.reset; let s : State := s.setBit R.gateCmdCtl F.gateCmdCtl_en false;
     let s : State := { s with host := { s.host with fetching := false } };
     let v : Word := BitVec.ofNat 64 (2 ^ 63 + s.fld R.gateCmdCtl F.gateCmdCtl_log2Size); s.bit R.gateCmdCtl F.gateCmdCtl_en = false ∧
     s.host.fetching = false ∧ bitOf v.toNat 63 = true ∧ bitsOf v.toNat 3 0 = s.fld R.gateCmdCtl F.gateCmdCtl_log2Size) ∧
    (let v : Word := 2 ^ 63 + 5; let s : State := State.reset; let s : State := s.setBit R.gateCmdCtl F.gateCmdCtl_en false;
     let s : State := { s with host := { s.host with fetching := false } }; s.bit R.gateCmdCtl F.gateCmdCtl_en = false ∧ s.host.fetching = false ∧
     bitOf v.toNat 63 = true ∧ bitsOf v.toNat 3 0 ≠ s.fld R.gateCmdCtl F.gateCmdCtl_log2Size) ∧
    (let v : Word := 0; let s : State := State.reset; let s : State := s.setFld R.gateStatus F.gateStatus_cmdState 0; bitOf v.toNat 63 = false ∧
     s.fld R.gateStatus F.gateStatus_cmdState ≠ 2) ∧
    (let v : Word := 0; let s : State := State.reset; let s : State := s.setBit R.gateCmdCtl F.gateCmdCtl_en true; bitOf v.toNat 63 = false ∧
     s.bit R.gateCmdCtl F.gateCmdCtl_en = true) := by
  refine ⟨?_, ?_, ?_, ?_, ?_, ?_, ?_, ?_, ?_, ?_, ?_, ?_, ?_, ?_, ?_, ?_, ?_, ?_, ?_, ?_⟩ <;> decide +kernel

/-- Operands and states that meet the hypotheses of `Obligations.FunctionsLinkAndInterrupts`, in the order of its clauses. -/
theorem witness_FunctionsLinkAndInterrupts :
    (let s : State := State.reset; s.restarting Src.pcie = false) ∧
    (let c : Fin 512 := 1; let v : Word := 0; let s : State := State.reset; let s : State := s.setChState c 0;
     (s.chState c = 0 ∨ s.chState c = 6 ∨ s.chState c = 7) ∧ v.toNat % 64 ≤ s.fld R.pcieStatus F.pcieStatus_numVfs) ∧
    (let c : Fin 512 := 1; let v : Word := 1; let s : State := State.reset; (1 ≤ s.chState c ∧
     s.chState c ≤ 5 ∨ s.fld R.pcieStatus F.pcieStatus_numVfs < v.toNat % 64)) ∧
    (let c : Fin 512 := 1; let s : State := State.reset; let s : State := s.setChan c { s.chan c with holdoff := true };
     let s : State := s.setChan c { s.chan c with merged := true }; (s.chan c).holdoff = true ∧ (s.chan c).merged = true) ∧
    (let c : Fin 512 := 1; let s : State := State.reset; let s : State := s.setChan c { s.chan c with holdoff := false };
     ((s.chan c).holdoff = false ∨ (s.chan c).merged = false)) ∧
    (let c : Fin 512 := 1; let s : State := State.reset; let s : State := s.setChState c 1;
     let s : State := s.setChan c { s.chan c with fetching := true }; let s : State := s.setChan c { s.chan c with held := false };
     (s.chState c = 1 ∨ s.chState c = 2 ∨ s.chState c = 3) ∧ ((s.chan c).fetching = true ∨ (s.chan c).checking = true) ∧ (s.chan c).held = false) ∧
    (let s : State := State.reset; let s : State := s.cmdFetching; let s : State := s.setBit R.gateStatus F.gateStatus_cmdEnPending false;
     s.cmdFetches = true ∧ s.bit R.gateStatus F.gateStatus_cmdEnPending = false) ∧
    (let a : Nat := 0; unitOf a ∈ [0x00, 0x98, 0x99]) ∧
    (let s : State := State.reset; (∀ c : Fin 512, s.chState c = 0)) ∧
    (let f : Fin 64 := 0; let c : Fin 512 := 3; let s : State := State.reset; s.chOwner c = f.val) ∧
    (let f : Fin 64 := 1; let c : Fin 512 := 1; let s : State := State.reset; s.chOwner c ≠ f.val) ∧
    (let c : Fin 512 := 1; let s : State := State.reset; let s : State := s.setChState c 0; s.chState c = 0) ∧
    (let c : Fin 512 := 1; let s : State := State.reset; let s : State := s.setChState c 2; s.chState c ≠ 0) ∧
    (let f : Fin 64 := 1; let c : Fin 512 := 1; let s : State := State.reset; let s : State := s.setChState c 0;
     (s.chState c = 0 ∨ s.chOwner c ≠ f.val)) ∧
    (let f : Fin 64 := 0; let c : Fin 512 := 3; let s : State := State.reset; let s : State := s.setChState c 2; s.chState c ≠ 0 ∧
     s.chOwner c = f.val) ∧
    (let c : Fin 512 := 3; let s : State := State.reset; let s : State := s.setFld (R.gateChOwner c) F.gateChOwner_func 2; s.chOwner c ≠ 0) ∧
    (let c : Fin 512 := 1; let s : State := State.reset; s.chOwner c = 0) ∧
    (let c : Fin 512 := 1; let s : State := State.reset; let s : State := s.setChan c { s.chan c with recs := [] }; (s.chan c).recs = []) := by
  refine ⟨?_, ?_, ?_, ?_, ?_, ?_, ?_, ?_, ?_, ?_, ?_, ?_, ?_, ?_, ?_, ?_, ?_, ?_⟩ <;> decide +kernel

/-- Operands and states that meet the hypotheses of `Obligations.ChannelStates`, in the order of its clauses. -/
theorem witness_ChannelStates_1 :
    (let c : Fin 512 := 1; let st : Nat := 0; let s : State := State.reset; let s : State := s.setChState c st;
     let s : State := s.setFld (R.dmaChCfg c) F.dmaChCfg_hch 0; s.chState c = st ∧ s.fld (R.dmaChCfg c) F.dmaChCfg_hch ≠ 7 ∧
     (st = 0 ∨ st = 6 ∨ st = 7)) ∧
    (let c : Fin 512 := 1; let st : Nat := 5; let s : State := State.reset; let s : State := s.setChState c st;
     let s : State := s.setFld (R.dmaChCfg c) F.dmaChCfg_hch 0; s.chState c = st ∧ s.fld (R.dmaChCfg c) F.dmaChCfg_hch ≠ 7 ∧ st = 5) ∧
    (let c : Fin 512 := 1; let st : Nat := 1; let s : State := State.reset; let s : State := s.setChState c st; s.chState c = st) ∧
    (let c : Fin 512 := 1; let st : Nat := 1; let s : State := State.reset; let s : State := s.setChState c st; s.chState c = st ∧ (st = 1 ∨ st = 2)) ∧
    (let c : Fin 512 := 1; let st : Nat := 4; let s : State := State.reset; let s : State := s.setChState c st; s.chState c = st ∧ st = 4) ∧
    (let c : Fin 512 := 1; let st : Nat := 1; let s : State := State.reset; let s : State := s.setChState c st; s.chState c = st ∧ 1 ≤ st ∧ st ≤ 4) ∧
    (let c : Fin 512 := 1; let st : Nat := 5; let s : State := State.reset; let s : State := s.setChState c st; s.chState c = st ∧ st = 5) ∧
    (let c : Fin 512 := 1; let st : Nat := 0; let s : State := State.reset; let s : State := s.setChState c st; s.chState c = st ∧
     (st ≠ 2 ∨ (s.chan c).checking = true)) ∧
    (let c : Fin 512 := 1; let st : Nat := 2; let s : State := State.reset; let s : State := s.setChState c st;
     let s : State := s.setChan c { s.chan c with checking := false }; s.chState c = st ∧ st = 2 ∧ (s.chan c).checking = false) ∧
    (let c : Fin 512 := 1; let st : Nat := 1; let s : State := State.reset; let s : State := s.setChState c st;
     let s : State := s.setChan c { s.chan c with checking := true }; let s : State := s.setChan c { s.chan c with held := false };
     let s : State := s.setBit (R.dmaChStatus c) F.dmaChStatus_dbPending false; s.chState c = st ∧ (s.chan c).checking = true ∧
     (s.chan c).held = false ∧ (st = 1 ∨ st = 2 ∨ st = 3) ∧ s.bit (R.dmaChStatus c) F.dmaChStatus_dbPending = false) ∧
    (let c : Fin 512 := 1; let st : Nat := 1; let s : State := State.reset; let s : State := s.setChState c st;
     let s : State := s.setChan c { s.chan c with checking := true }; let s : State := s.setChan c { s.chan c with held := false };
     let s : State := s.setBit (R.dmaChStatus c) F.dmaChStatus_dbPending true; s.chState c = st ∧ (s.chan c).checking = true ∧
     (s.chan c).held = false ∧ (st = 1 ∨ st = 2 ∨ st = 3) ∧ s.bit (R.dmaChStatus c) F.dmaChStatus_dbPending = true) ∧
    (let c : Fin 512 := 1; let st : Nat := 1; let s : State := State.reset; let s : State := s.setChState c st;
     let s : State := s.setChan c { s.chan c with checking := true }; let s : State := s.setChan c { s.chan c with held := false };
     s.chState c = st ∧ (s.chan c).checking = true ∧ (s.chan c).held = false ∧ (st = 1 ∨ st = 2 ∨ st = 3)) ∧
    (let c : Fin 512 := 1; let st : Nat := 1; let s : State := State.reset; let s : State := s.setChState c st;
     let s : State := s.setChan c { s.chan c with checking := true }; let s : State := s.setChan c { s.chan c with held := false };
     s.chState c = st ∧ (s.chan c).checking = true ∧ (s.chan c).held = false ∧ (st = 1 ∨ st = 2 ∨ st = 3)) ∧
    (let c : Fin 512 := 1; let st : Nat := 1; let s : State := State.reset; let s : State := s.setChState c st;
     let s : State := s.setChan c { s.chan c with checking := true }; let s : State := s.setChan c { s.chan c with held := false };
     s.chState c = st ∧ (s.chan c).checking = true ∧ (s.chan c).held = false ∧ (st = 1 ∨ st = 2 ∨ st = 3)) ∧
    (let c : Fin 512 := 1; let st : Nat := 0; let s : State := State.reset; let s : State := s.setChState c st;
     let s : State := s.setChan c { s.chan c with checking := false }; s.chState c = st ∧ (s.chan c).checking = false) ∧
    (let c : Fin 512 := 1; let st : Nat := 3; let s : State := State.reset; let s : State := s.setChState c st;
     let s : State := s.setChan c { s.chan c with offer := none }; s.chState c = st ∧ (s.chan c).offer = none ∧ st = 3) ∧
    (let c : Fin 512 := 1; let st : Nat := 5; let x : Transfer := dXfer; let s : State := State.reset; let s : State := s.setChState c st;
     let s : State := s.setChan c { s.chan c with offer := none }; let s : State := s.setBit (R.dmaChStatus c) F.dmaChStatus_startPending false;
     s.chState c = st ∧ (s.chan c).offer = none ∧ st = 5 ∧ x.wbFail = false ∧ x.ringFail = false ∧
     s.bit (R.dmaChStatus c) F.dmaChStatus_startPending = false) ∧
    (let c : Fin 512 := 1; let st : Nat := 5; let x : Transfer := dXfer; let s : State := State.reset; let s : State := s.setChState c st;
     let s : State := s.setChan c { s.chan c with offer := none }; let s : State := s.setBit (R.dmaChStatus c) F.dmaChStatus_startPending true;
     s.chState c = st ∧ (s.chan c).offer = none ∧ st = 5 ∧ x.wbFail = false ∧ x.ringFail = false ∧
     s.bit (R.dmaChStatus c) F.dmaChStatus_startPending = true) ∧
    (let c : Fin 512 := 1; let st : Nat := 1; let s : State := State.reset; let s : State := s.setChState c st; s.chState c = st ∧
     ((s.chan c).offer ≠ none ∨ st ≠ 3 ∧ st ≠ 5)) ∧
    (let c : Fin 512 := 1; let st : Nat := 0; let d : Fin 512 := 2; let s : State := State.reset; let s : State := s.setChState c st;
     let s : State := s.setFld (R.dmaChCfg c) F.dmaChCfg_hch 0; s.chState c = st ∧ s.fld (R.dmaChCfg c) F.dmaChCfg_hch ≠ 7 ∧
     (st = 0 ∨ st = 6 ∨ st = 7) ∧ d ≠ c) ∧
    (let c : Fin 512 := 1; let st : Nat := 4; let s : State := State.reset; let s : State := s.setChState c st;
     let s : State := s.setChan c { s.chan c with wasParked := true }; s.chState c = st ∧ st = 4 ∧ (s.chan c).wasParked = true) ∧
    (let c : Fin 512 := 1; let st : Nat := 1; let s : State := State.reset; let s : State := s.setChState c st;
     let s : State := s.setChan c { s.chan c with checking := true }; let s : State := s.setChan c { s.chan c with held := false };
     let s : State := s.setBit (R.dmaChStatus c) F.dmaChStatus_dbPending false; let s : State := s.setChan c { s.chan c with holdoff := false };
     s.chState c = st ∧ (s.chan c).checking = true ∧ (s.chan c).held = false ∧ (st = 1 ∨ st = 2 ∨ st = 3) ∧
     s.bit (R.dmaChStatus c) F.dmaChStatus_dbPending = false ∧ st = 1 ∧ (s.chan c).holdoff = false) ∧
    (let c : Fin 512 := 1; let st : Nat := 2; let s : State := State.reset; let s : State := s.setChState c st;
     let s : State := s.setChan c { s.chan c with checking := true }; let s : State := s.setChan c { s.chan c with held := false };
     let s : State := s.setBit (R.dmaChStatus c) F.dmaChStatus_dbPending false; s.chState c = st ∧ (s.chan c).checking = true ∧
     (s.chan c).held = false ∧ (st = 1 ∨ st = 2 ∨ st = 3) ∧ s.bit (R.dmaChStatus c) F.dmaChStatus_dbPending = false ∧ st ≠ 1) ∧
    (let c : Fin 512 := 1; let st : Nat := 3; let s : State := State.reset; let s : State := s.setChState c st;
     let s : State := s.setChan c { s.chan c with offer := none }; let s : State := s.setChan c { s.chan c with desc := none }; s.chState c = st ∧
     (s.chan c).offer = none ∧ st = 3 ∧ (s.chan c).desc = none) := by
  refine ⟨?_, ?_, ?_, ?_, ?_, ?_, ?_, ?_, ?_, ?_, ?_, ?_, ?_, ?_, ?_, ?_, ?_, ?_, ?_, ?_, ?_, ?_, ?_, ?_⟩ <;> decide +kernel

/-- Operands and states that meet the hypotheses of `Obligations.ChannelStates`, in the order of its clauses. -/
theorem witness_ChannelStates_2 :
    (let c : Fin 512 := 1; let st : Nat := 5; let x : Transfer := dXfer; let w : List Word := [1]; let s : State := State.reset;
     let s : State := s.setChState c st; let s : State := s.setChan c { s.chan c with offer := none };
     let s : State := s.setBit (R.dmaChStatus c) F.dmaChStatus_startPending false; let s : State := s.setChan c { s.chan c with desc := some w };
     let s : State := s.setChan c { s.chan c with desc := some [1] }; s.chState c = st ∧ (s.chan c).offer = none ∧ st = 5 ∧ x.wbFail = false ∧
     x.ringFail = false ∧ s.bit (R.dmaChStatus c) F.dmaChStatus_startPending = false ∧ (s.chan c).desc = some w) ∧
    (let c : Fin 512 := 1; let st : Nat := 5; let x : Transfer := dXfer; let s : State := State.reset; let s : State := s.setChState c st;
     let s : State := s.setChan c { s.chan c with offer := none }; let s : State := s.setBit (R.dmaChStatus c) F.dmaChStatus_startPending false;
     let s : State := s.setChan c { s.chan c with desc := none }; s.chState c = st ∧ (s.chan c).offer = none ∧ st = 5 ∧ x.wbFail = false ∧
     x.ringFail = false ∧ s.bit (R.dmaChStatus c) F.dmaChStatus_startPending = false ∧ (s.chan c).desc = none) := by
  refine ⟨?_, ?_⟩ <;> decide +kernel

/-- Operands and states that meet the hypotheses of `Obligations.DescriptorsRunAndWriteBack`, in the order of its clauses. -/
theorem witness_DescriptorsRunAndWriteBack :
    (let c : Fin 512 := 1; let s : State := State.reset; let s : State := s.setChState c 1;
     let s : State := s.setChan c { s.chan c with fetching := false }; s.chWorks c = true ∧ ((s.chan c).fetching = false ∨ (s.chan c).held = true)) ∧
    (let c : Fin 512 := 1; let w : List Word := [2 ^ 56 + 4, 0, 0, 0x100000000, 1, 0, 0, 0]; let s : State := State.reset;
     let s : State := s.setChState c 1; let s : State := s.setChan c { s.chan c with fetching := true };
     let s : State := s.setChan c { s.chan c with held := false }; let s : State := s.setChan c { s.chan c with recs := [] }; s.chWorks c = true ∧
     (s.chan c).fetching = true ∧ (s.chan c).held = false ∧ (s.chan c).recs = [] ∧ w.length = 8) ∧
    (let c : Fin 512 := 1; let w : List Word := [0, 0, 0, 0, 0, 0, 0, 0]; let e : Nat := 0; let s : State := State.reset;
     let s : State := s.setChState c 1; let s : State := s.setChan c { s.chan c with fetching := true };
     let s : State := s.setChan c { s.chan c with held := false }; let s : State := s.setChan c { s.chan c with recs := [] }; s.chWorks c = true ∧
     (s.chan c).fetching = true ∧ (s.chan c).held = false ∧ (s.chan c).recs = [] ∧ w.length = 8 ∧ ((e = 3 ∧ dBad (s.chKind c) w = true) ∨ (e = 0 ∧
     dBad (s.chKind c) w = false ∧ dOp w = 0))) ∧
    (let c : Fin 512 := 1; let w : List Word := [2 * 2 ^ 56, 0, 0, 0, 0, 0, 0, 0]; let s : State := State.reset; let s : State := s.setChState c 1;
     let s : State := s.setChan c { s.chan c with fetching := true }; let s : State := s.setChan c { s.chan c with held := false };
     let s : State := s.setChan c { s.chan c with recs := [] }; s.chWorks c = true ∧ (s.chan c).fetching = true ∧ (s.chan c).held = false ∧
     (s.chan c).recs = [] ∧ w.length = 8 ∧ dBad (s.chKind c) w = true) ∧
    (let c : Fin 512 := 1; let w : List Word := [2 ^ 56 + 4, 0, 0, 0x100000000, 1, 0, 0, 0]; let s : State := State.reset;
     let s : State := s.setChState c 1; let s : State := s.setChan c { s.chan c with fetching := true };
     let s : State := s.setChan c { s.chan c with held := false }; let s : State := s.setChan c { s.chan c with recs := [] }; s.chWorks c = true ∧
     (s.chan c).fetching = true ∧ (s.chan c).held = false ∧ (s.chan c).recs = [] ∧ w.length = 8 ∧ dBad (s.chKind c) w = false ∧ dOp w = 1) ∧
    (let c : Fin 512 := 1; let s : State := State.reset; let s : State := s.setChState c 1;
     let s : State := s.setChan c { s.chan c with desc := none }; s.chWorks c = true ∧ (s.chan c).desc = none) ∧
    (let c : Fin 512 := 1; let w : List Word := [2 ^ 56 + 4, 0, 0, 0x100000000, 1]; let x : Transfer := { dXfer with data := [1, 2, 3, 4] };
     let s : State := State.reset; let s : State := s.setChState c 1; let s : State := s.setChan c { s.chan c with desc := some w };
     let s : State := s.setFld (R.dmaChActCfg c) F.dmaChActCfg_kind 0; let s : State := s.setFld (R.pwrDom 1) F.pwrDom_state 2; s.chWorks c = true ∧
     (s.chan c).desc = some w ∧ x.wbFail = false ∧ x.ringFail = false ∧ s.chKind c = 0 ∧ x.status = 0 ∧ s.copyOk c w = true ∧
     (∃ u, s.linkTake c (dLen w - s.chDone c) = some (dLen w - s.chDone c, u))) ∧
    (let c : Fin 512 := 1; let w : List Word := [2 ^ 56 + 4, 0, 0, 0x100000000, 1]; let x : Transfer := { dXfer with data := [1, 2, 3, 4] };
     let s : State := State.reset; let s : State := s.setChState c 1; let s : State := s.setChan c { s.chan c with desc := some w };
     let s : State := s.setFld (R.dmaChActCfg c) F.dmaChActCfg_kind 0; let s : State := s.setFld (R.pwrDom 1) F.pwrDom_state 2;
     let k : Nat := (s.devCell c (dDst w) (dLen w)).getD 0; s.chWorks c = true ∧ (s.chan c).desc = some w ∧ x.wbFail = false ∧ x.ringFail = false ∧
     s.chKind c = 0 ∧ x.status = 0 ∧ s.copyOk c w = true ∧ (∃ u, s.linkTake c (dLen w - s.chDone c) = some (dLen w - s.chDone c, u)) ∧
     s.chDone c = 0 ∧ dParam w = 1 ∧ s.devCell c (dDst w) (dLen w) = some k ∧ 0 < dLen w ∧ x.data.length = dLen w) ∧
    (let c : Fin 512 := 1; let w : List Word := [2 ^ 56 + 4, 0, 0x100000000, 0x2000, 4]; let x : Transfer := dXfer; let s : State := State.reset;
     let s : State := s.setChState c 1; let s : State := s.setChan c { s.chan c with desc := some w };
     let s : State := s.setFld (R.dmaChActCfg c) F.dmaChActCfg_kind 0; let s : State := s.setFld (R.pwrDom 1) F.pwrDom_state 2;
     let k : Nat := (s.devCell c (dSrc w) (dLen w)).getD 0; s.chWorks c = true ∧ (s.chan c).desc = some w ∧ x.wbFail = false ∧ x.ringFail = false ∧
     s.chKind c = 0 ∧ x.status = 0 ∧ s.copyOk c w = true ∧ (∃ u, s.linkTake c (dLen w - s.chDone c) = some (dLen w - s.chDone c, u)) ∧
     s.chDone c = 0 ∧ dParam w = 4 ∧ s.devCell c (dSrc w) (dLen w) = some k ∧ 0 < dLen w) ∧
    (let c : Fin 512 := 1; let w : List Word := [2 ^ 56 + 4, 0, 0, 0x100000000, 1]; let x : Transfer := dXfer; let s : State := State.reset;
     let s : State := s.setChState c 1; let s : State := s.setChan c { s.chan c with desc := some w };
     let s : State := s.setFld (R.dmaChActCfg c) F.dmaChActCfg_kind 0; s.chWorks c = true ∧ (s.chan c).desc = some w ∧ x.wbFail = false ∧
     x.ringFail = false ∧ s.chKind c = 0 ∧ s.copyOk c w = false) ∧
    (let c : Fin 512 := 1; let w : List Word := [2 ^ 56 + 4, 0, 0, 0x100000000, 1]; let x : Transfer := { dXfer with status := 3 };
     let s : State := State.reset; let s : State := s.setChState c 1; let s : State := s.setChan c { s.chan c with desc := some w };
     let s : State := s.setFld (R.dmaChActCfg c) F.dmaChActCfg_kind 1; let s : State := s.setChan c { s.chan c with offer := none };
     s.chWorks c = true ∧ (s.chan c).desc = some w ∧ x.wbFail = false ∧ x.ringFail = false ∧ s.chKind c = 1 ∧ x.status ≠ 0 ∧ x.status < 16 ∧
     (s.chan c).offer = none) ∧
    (let c : Fin 512 := 1; let w : List Word := [2 ^ 56 + 4, 0, 0, 0x2000, 0]; let x : Transfer := dXfer;
     let p : Pkt := { dPkt with bytes := List.replicate 9 1 }; let n : Nat := 0; let s : State := State.reset; let s : State := s.setChState c 1;
     let s : State := s.setChan c { s.chan c with desc := some w }; let s : State := s.setFld (R.dmaChActCfg c) F.dmaChActCfg_kind 2;
     let s : State := s.setChan c { s.chan c with rx := some (p, n) }; s.chWorks c = true ∧ (s.chan c).desc = some w ∧ x.wbFail = false ∧
     x.ringFail = false ∧ s.chKind c = 2 ∧ x.status = 0 ∧ (s.chan c).rx = some (p, n) ∧ n < p.bytes.length ∧
     s.turnsFor c (min (dLen w) (p.bytes.length - n)) ∧ n + dLen w < p.bytes.length) ∧
    (let c : Fin 512 := 1; let w : List Word := [2 ^ 56 + 4, 0, 0, 0x2000, 0]; let x : Transfer := dXfer; let p : Pkt := dPkt; let n : Nat := 0;
     let s : State := State.reset; let s : State := s.setChState c 1; let s : State := s.setChan c { s.chan c with desc := some w };
     let s : State := s.setFld (R.dmaChActCfg c) F.dmaChActCfg_kind 2; let s : State := s.setChan c { s.chan c with rx := some (p, n) };
     s.chWorks c = true ∧ (s.chan c).desc = some w ∧ x.wbFail = false ∧ x.ringFail = false ∧ s.chKind c = 2 ∧ x.status = 0 ∧
     (s.chan c).rx = some (p, n) ∧ n < p.bytes.length ∧ s.turnsFor c (min (dLen w) (p.bytes.length - n)) ∧ p.bytes.length ≤ n + dLen w) ∧
    (let c : Fin 512 := 1; let w : List Word := [2 ^ 56 + 64, 0, 0, 0, 0]; let x : Transfer := dXfer; let q : Nat := 0; let s : State := State.reset;
     let s : State := s.setChState c 1; let s : State := s.setChan c { s.chan c with desc := some w };
     let s : State := s.setFld (R.dmaChActCfg c) F.dmaChActCfg_kind 3; let s : State := s.setFld (R.pwrDom 6) F.pwrDom_state 2;
     let s : State := s.setBit (R.ciphLaqCfg q) F.ciphLaqCfg_en true; let s : State := s.setBit (R.ciphLaqCfg q) F.ciphLaqCfg_src true;
     let s : State := s.setFld (R.dmaChActCfg c) F.dmaChActCfg_laq 0; let s : State := s.setFld (R.ciphLaqCfg q) F.ciphLaqCfg_dmaCh c;
     let s : State := s.setLook q (List.replicate 256 dReq); s.chWorks c = true ∧ (s.chan c).desc = some w ∧ x.wbFail = false ∧ x.ringFail = false ∧
     s.chKind c = 3 ∧ x.status = 0 ∧ q = s.fld (R.dmaChActCfg c) F.dmaChActCfg_laq ∧ s.domTakes 6 = true ∧
     s.bit (R.ciphLaqCfg q) F.ciphLaqCfg_en = true ∧ s.bit (R.ciphLaqCfg q) F.ciphLaqCfg_src = true ∧ s.fld (R.ciphLaqCfg q) F.ciphLaqCfg_dmaCh = c ∧
     256 ≤ s.laLevel q) ∧
    (let c : Fin 512 := 1; let w : List Word := [2 ^ 56 + 64, 0, 0, 0, 0]; let x : Transfer := dXfer; let q : Nat := 0; let s : State := State.reset;
     let s : State := s.setChState c 1; let s : State := s.setChan c { s.chan c with desc := some w };
     let s : State := s.setFld (R.dmaChActCfg c) F.dmaChActCfg_kind 3; let s : State := s.setFld (R.pwrDom 6) F.pwrDom_state 2;
     let s : State := s.setBit (R.ciphLaqCfg q) F.ciphLaqCfg_en true; let s : State := s.setBit (R.ciphLaqCfg q) F.ciphLaqCfg_src true;
     let s : State := s.setFld (R.dmaChActCfg c) F.dmaChActCfg_laq 0; let s : State := s.setFld (R.ciphLaqCfg q) F.ciphLaqCfg_dmaCh c;
     s.chWorks c = true ∧ (s.chan c).desc = some w ∧ x.wbFail = false ∧ x.ringFail = false ∧ s.chKind c = 3 ∧ x.status = 0 ∧
     q = s.fld (R.dmaChActCfg c) F.dmaChActCfg_laq ∧ s.domTakes 6 = true ∧ s.bit (R.ciphLaqCfg q) F.ciphLaqCfg_en = true ∧
     s.bit (R.ciphLaqCfg q) F.ciphLaqCfg_src = true ∧ s.fld (R.ciphLaqCfg q) F.ciphLaqCfg_dmaCh = c ∧ s.laLevel q < 256 ∧
     s.restarting Src.ciph = false ∧ s.turnsFor c 64) ∧
    (let c : Fin 512 := 1; let w : List Word := [2 ^ 56 + 64, 0, 0, 0, 0]; let x : Transfer := dXfer; let q : Nat := 0; let s : State := State.reset;
     let s : State := s.setChState c 1; let s : State := s.setChan c { s.chan c with desc := some w };
     let s : State := s.setFld (R.dmaChActCfg c) F.dmaChActCfg_kind 3; let s : State := s.setFld (R.dmaChActCfg c) F.dmaChActCfg_laq 0;
     let s : State := s.setFld (R.ciphLaqCfg q) F.ciphLaqCfg_dmaCh c; s.chWorks c = true ∧ (s.chan c).desc = some w ∧ x.wbFail = false ∧
     x.ringFail = false ∧ s.chKind c = 3 ∧ x.status = 0 ∧ q = s.fld (R.dmaChActCfg c) F.dmaChActCfg_laq ∧
     (s.domTakes 6 = false ∨ s.bit (R.ciphLaqCfg q) F.ciphLaqCfg_en = false ∨ s.bit (R.ciphLaqCfg q) F.ciphLaqCfg_src = false ∨ s.fld (R.ciphLaqCfg q) F.ciphLaqCfg_dmaCh ≠ c)) ∧
    (let c : Fin 512 := 1; let w : List Word := [2 ^ 56 + 4, 0, 0x2000, 0, 0]; let data : List Byte := [1, 2, 3, 4]; let d : Dir := .up;
     let s : State := State.reset; let s : State := s.setChState c 1; let s : State := s.setChan c { s.chan c with desc := some w };
     let s : State := s.setFld (R.dmaChActCfg c) F.dmaChActCfg_kind 1; let s : State := s.setChan c { s.chan c with offer := none };
     s.chWorks c = true ∧ (s.chan c).desc = some w ∧ s.chKind c = 1 ∧ (s.chan c).offer = none ∧ d = (if bitOf (dParam w) 0 then .dn else .up) ∧
     data.length = dLen w ∧ s.turnsFor c (dLen w) ∧ s.restarting Src.qm = false ∧ (s.domTakes 5 = false ∨ s.dieFree d < cellsOf (dLen w))) ∧
    (let c : Fin 512 := 1; let w : List Word := [2 ^ 56 + 4, 0, 0x2000, 0, 0]; let data : List Byte := [1, 2, 3, 4]; let d : Dir := .up;
     let s : State := State.reset; let s : State := s.setChState c 1; let s : State := s.setChan c { s.chan c with desc := some w };
     let s : State := s.setFld (R.dmaChActCfg c) F.dmaChActCfg_kind 1; let s : State := s.setChan c { s.chan c with offer := none };
     let s : State := s.setFld (R.pwrDom 5) F.pwrDom_state 2; let s : State := s.setFld (R.pwrDom 9) F.pwrDom_state 2;
     let n : Nat := (120 + s.fld (R.dmaChActCfg c) F.dmaChActCfg_hch) % 8; s.chWorks c = true ∧ (s.chan c).desc = some w ∧ s.chKind c = 1 ∧
     (s.chan c).offer = none ∧ d = (if bitOf (dParam w) 0 then .dn else .up) ∧ data.length = dLen w ∧ s.turnsFor c (dLen w) ∧
     n = (120 + s.fld (R.dmaChActCfg c) F.dmaChActCfg_hch) % 8 ∧ s.restarting Src.qm = false ∧ s.domTakes 5 = true ∧ cellsOf (dLen w) ≤ s.dieFree d ∧
     s.pipeFull d n = false) ∧
    (let c : Fin 512 := 1; let w : List Word := [2 ^ 56 + 4, 0, 0x2000, 0, 0]; let data : List Byte := [1, 2, 3, 4]; let d : Dir := .up;
     let s : State := State.reset; let s : State := s.setChState c 1; let s : State := s.setChan c { s.chan c with desc := some w };
     let s : State := s.setFld (R.dmaChActCfg c) F.dmaChActCfg_kind 1; let s : State := s.setChan c { s.chan c with offer := none };
     let s : State := s.setFld (R.pwrDom 5) F.pwrDom_state 2; let n : Nat := (120 + s.fld (R.dmaChActCfg c) F.dmaChActCfg_hch) % 8;
     s.chWorks c = true ∧ (s.chan c).desc = some w ∧ s.chKind c = 1 ∧ (s.chan c).offer = none ∧ d = (if bitOf (dParam w) 0 then .dn else .up) ∧
     data.length = dLen w ∧ s.turnsFor c (dLen w) ∧ n = (120 + s.fld (R.dmaChActCfg c) F.dmaChActCfg_hch) % 8 ∧ s.restarting Src.qm = false ∧
     s.domTakes 5 = true ∧ cellsOf (dLen w) ≤ s.dieFree d ∧ s.pipeFull d n = true) ∧
    (let c : Fin 512 := 1; let w : List Word := [2 ^ 56 + 4, 0, 0x2000, 0, 0]; let p : Pkt := dPkt; let s : State := State.reset;
     let s : State := s.setChState c 1; let s : State := s.setChan c { s.chan c with desc := some w };
     let s : State := s.setFld (R.dmaChActCfg c) F.dmaChActCfg_kind 1; let s : State := s.setChan c { s.chan c with offer := some p };
     let s : State := s.setFld (R.pwrDom 9) F.pwrDom_state 2; s.chWorks c = true ∧ (s.chan c).desc = some w ∧ s.chKind c = 1 ∧
     (s.chan c).offer = some p ∧ s.pipeFull p.dir (pipeOf p) = false) ∧
    (let c : Fin 512 := 1; let w : List Word := [2 ^ 56 + 4, 0, 0, 0x100000000, 1]; let x : Transfer := { dXfer with data := [1, 2, 3, 4] };
     let a : Nat := 0; let s : State := State.reset; let s : State := s.setChState c 1;
     let s : State := s.setChan c { s.chan c with desc := some w }; let s : State := s.setFld (R.dmaChActCfg c) F.dmaChActCfg_kind 0;
     let s : State := s.setFld (R.pwrDom 1) F.pwrDom_state 2; let k : Nat := (s.devCell c (dDst w) (dLen w)).getD 0; s.chWorks c = true ∧
     (s.chan c).desc = some w ∧ x.wbFail = false ∧ x.ringFail = false ∧ s.chKind c = 0 ∧ x.status = 0 ∧ s.copyOk c w = true ∧
     (∃ u, s.linkTake c (dLen w - s.chDone c) = some (dLen w - s.chDone c, u)) ∧ s.chDone c = 0 ∧ dParam w = 1 ∧
     s.devCell c (dDst w) (dLen w) = some k ∧ 0 < dLen w ∧ x.data.length = dLen w ∧ (a < k ∨ k + dLen w ≤ a)) := by
  refine ⟨?_, ?_, ?_, ?_, ?_, ?_, ?_, ?_, ?_, ?_, ?_, ?_, ?_, ?_, ?_, ?_, ?_, ?_, ?_, ?_, ?_⟩
  · decide +kernel
  · decide +kernel
  · decide +kernel
  · decide +kernel
  · decide +kernel
  · decide +kernel
  · exact ⟨by decide +kernel, by decide +kernel, by decide +kernel, by decide +kernel, by decide +kernel, by decide +kernel, by decide +kernel, takes (by decide +kernel)⟩
  · exact ⟨by decide +kernel, by decide +kernel, by decide +kernel, by decide +kernel, by decide +kernel, by decide +kernel, by decide +kernel, takes (by decide +kernel), by decide +kernel, by decide +kernel, by decide +kernel, by decide +kernel, by decide +kernel⟩
  · exact ⟨by decide +kernel, by decide +kernel, by decide +kernel, by decide +kernel, by decide +kernel, by decide +kernel, by decide +kernel, takes (by decide +kernel), by decide +kernel, by decide +kernel, by decide +kernel, by decide +kernel⟩
  · decide +kernel
  · decide +kernel
  · exact ⟨by decide +kernel, by decide +kernel, by decide +kernel, by decide +kernel, by decide +kernel, by decide +kernel, by decide +kernel, by decide +kernel, .inr (takes (by decide +kernel)), by decide +kernel⟩
  · exact ⟨by decide +kernel, by decide +kernel, by decide +kernel, by decide +kernel, by decide +kernel, by decide +kernel, by decide +kernel, by decide +kernel, .inr (takes (by decide +kernel)), by decide +kernel⟩
  · decide +kernel
  · exact ⟨by decide +kernel, by decide +kernel, by decide +kernel, by decide +kernel, by decide +kernel, by decide +kernel, by decide +kernel, by decide +kernel, by decide +kernel, by decide +kernel, by decide +kernel, by decide +kernel, by decide +kernel, .inr (takes (by decide +kernel))⟩
  · decide +kernel
  · exact ⟨by decide +kernel, by decide +kernel, by decide +kernel, by decide +kernel, by decide +kernel, by decide +kernel, .inr (takes (by decide +kernel)), by decide +kernel, by decide +kernel⟩
  · exact ⟨by decide +kernel, by decide +kernel, by decide +kernel, by decide +kernel, by decide +kernel, by decide +kernel, .inr (takes (by decide +kernel)), by decide +kernel, by decide +kernel, by decide +kernel, by decide +kernel, by decide +kernel⟩
  · exact ⟨by decide +kernel, by decide +kernel, by decide +kernel, by decide +kernel, by decide +kernel, by decide +kernel, .inr (takes (by decide +kernel)), by decide +kernel, by decide +kernel, by decide +kernel, by decide +kernel, by decide +kernel⟩
  · decide +kernel
  · exact ⟨by decide +kernel, by decide +kernel, by decide +kernel, by decide +kernel, by decide +kernel, by decide +kernel, by decide +kernel, takes (by decide +kernel), by decide +kernel, by decide +kernel, by decide +kernel, by decide +kernel, by decide +kernel, by decide +kernel⟩

/-- Operands and states that meet the hypotheses of `Obligations.DomainRequests`, in the order of its clauses. -/
theorem witness_DomainRequests_1 :
    (let d : Fin 30 := 1; let m : BitVec 30 := 1#30 <<< d.val; let s : State := State.reset; let s : State := s.setFld (R.pwrDom d) F.pwrDom_phase 0;
     let s : State := s.setFld (R.pwrDom d) F.pwrDom_state 2; m = 1#30 <<< d.val ∧ s.domPhase d = 0 ∧ s.domState d + 1 = 3) ∧
    (let d : Fin 30 := 1; let m : BitVec 30 := 1#30 <<< d.val; let s : State := State.reset; let s : State := s.setFld (R.pwrDom d) F.pwrDom_phase 0;
     let s : State := s.setFld (R.pwrDom d) F.pwrDom_state 1; m = 1#30 <<< d.val ∧ s.domPhase d = 0 ∧ s.domState d + 2 = 3) ∧
    (let d : Fin 30 := 1; let m : BitVec 30 := 1#30 <<< d.val; let s : State := State.reset; let s : State := s.setFld (R.pwrDom d) F.pwrDom_phase 0;
     m = 1#30 <<< d.val ∧ s.domPhase d = 0 ∧ s.domState d + 3 = 3) ∧
    (let d : Fin 30 := 1; let m : BitVec 30 := 1#30 <<< d.val; let u : Nat := 4; let s : State := State.reset;
     let s : State := s.setFld (R.pwrDom d) F.pwrDom_phase 0; let s : State := s.setFld R.fltStatusF F.fltStatusF_sources 4; m = 1#30 <<< d.val ∧
     s.domPhase d = 0 ∧ s.domState d + 1 ≠ 3 ∧ (if 1 = 2 ∧
     s.domState d = 0 then some 2 else if 1 = 1 then s.onRefuser d else s.downRefuser d) = some u ∧ u < 256) ∧
    (let d : Fin 30 := 1; let m : BitVec 30 := 1#30 <<< d.val; let u : Nat := 2; let s : State := State.reset;
     let s : State := s.setFld (R.pwrDom d) F.pwrDom_phase 0; m = 1#30 <<< d.val ∧ s.domPhase d = 0 ∧ s.domState d + 2 ≠ 3 ∧ (if 2 = 2 ∧
     s.domState d = 0 then some 2 else if 2 = 1 then s.onRefuser d else s.downRefuser d) = some u ∧ u < 256) ∧
    (let d : Fin 30 := 1; let m : BitVec 30 := 1#30 <<< d.val; let u : Nat := 0xC0; let s : State := State.reset;
     let s : State := s.setFld (R.pwrDom d) F.pwrDom_phase 0; let s : State := s.setFld (R.pwrDom 1) F.pwrDom_state 2;
     let s : State := s.setFld (R.pwrDom 2) F.pwrDom_state 2; m = 1#30 <<< d.val ∧ s.domPhase d = 0 ∧ s.domState d + 3 ≠ 3 ∧ (if 3 = 2 ∧
     s.domState d = 0 then some 2 else if 3 = 1 then s.onRefuser d else s.downRefuser d) = some u ∧ u < 256) ∧
    (let d : Fin 30 := 1; let m : BitVec 30 := 1#30 <<< d.val; let s : State := State.reset; let s : State := s.setFld (R.pwrDom d) F.pwrDom_phase 0;
     m = 1#30 <<< d.val ∧ s.domPhase d = 0 ∧ s.domState d + 1 ≠ 3 ∧ (if 1 = 2 ∧
     s.domState d = 0 then some 2 else if 1 = 1 then s.onRefuser d else s.downRefuser d) = none) ∧
    (let d : Fin 30 := 1; let m : BitVec 30 := 1#30 <<< d.val; let s : State := State.reset; let s : State := s.setFld (R.pwrDom d) F.pwrDom_phase 0;
     let s : State := s.setFld (R.pwrDom d) F.pwrDom_state 2; m = 1#30 <<< d.val ∧ s.domPhase d = 0 ∧ s.domState d + 2 ≠ 3 ∧ (if 2 = 2 ∧
     s.domState d = 0 then some 2 else if 2 = 1 then s.onRefuser d else s.downRefuser d) = none) ∧
    (let d : Fin 30 := 1; let m : BitVec 30 := 1#30 <<< d.val; let s : State := State.reset; let s : State := s.setFld (R.pwrDom d) F.pwrDom_phase 0;
     let s : State := s.setFld (R.pwrDom d) F.pwrDom_state 2; m = 1#30 <<< d.val ∧ s.domPhase d = 0 ∧ s.domState d + 3 ≠ 3 ∧ (if 3 = 2 ∧
     s.domState d = 0 then some 2 else if 3 = 1 then s.onRefuser d else s.downRefuser d) = none) ∧
    (let d : Fin 30 := 1; let m : BitVec 30 := 1#30 <<< d.val; let s : State := State.reset; let s : State := s.setFld (R.pwrDom d) F.pwrDom_phase 1;
     m = 1#30 <<< d.val ∧ s.domPhase d ≠ 0) ∧
    (let d : Fin 30 := 1; let m : BitVec 30 := 1#30 <<< d.val; let s : State := State.reset; let s : State := s.setFld (R.pwrDom d) F.pwrDom_phase 1;
     m = 1#30 <<< d.val ∧ s.domPhase d ≠ 0) ∧
    (let d : Fin 30 := 1; let m : BitVec 30 := 1#30 <<< d.val; let s : State := State.reset; let s : State := s.setFld (R.pwrDom d) F.pwrDom_phase 1;
     m = 1#30 <<< d.val ∧ s.domPhase d ≠ 0) ∧
    (let d : Fin 30 := 1; let m : BitVec 30 := 1#30 <<< d.val; let k : BitVec 30 := 1; let l : BitVec 30 := 4; m = 1#30 <<< d.val ∧
     (∀ i j : Nat, k.getLsbD i = true → l.getLsbD j = true → i < j)) ∧
    (let d : Fin 30 := 1; let m : BitVec 30 := 1#30 <<< d.val; let k : BitVec 30 := 1; let l : BitVec 30 := 4; m = 1#30 <<< d.val ∧
     (∀ i j : Nat, k.getLsbD i = true → l.getLsbD j = true → i < j)) ∧
    (let d : Fin 30 := 1; let m : BitVec 30 := 1#30 <<< d.val; let k : BitVec 30 := 1; let l : BitVec 30 := 4; m = 1#30 <<< d.val ∧
     (∀ i j : Nat, k.getLsbD i = true → l.getLsbD j = true → i < j)) ∧
    (let d : Fin 30 := 1; let m : BitVec 30 := 1#30 <<< d.val; let s : State := State.reset;
     let s : State := s.setFld R.fltStatusF F.fltStatusF_sources 1; m = 1#30 <<< d.val ∧ s.fld R.fltStatusF F.fltStatusF_sources ≠ 0) ∧
    (let d : Fin 30 := 1; let m : BitVec 30 := 1#30 <<< d.val; let s : State := State.reset;
     let s : State := s.setFld R.fltStatusF F.fltStatusF_sources 0; m = 1#30 <<< d.val ∧ s.fld R.fltStatusF F.fltStatusF_sources = 0 ∧
     (s.domOn 1 = false ∧ s.domPhase 1 = 0 ∨ s.domPhase 1 = 1 ∨ s.domPhase 1 = 2)) ∧
    (let d : Fin 30 := 1; let m : BitVec 30 := 1#30 <<< d.val; m = 1#30 <<< d.val) ∧
    (let d : Fin 30 := 1; let m : BitVec 30 := 1#30 <<< d.val; m = 1#30 <<< d.val) ∧
    (let d : Fin 30 := 1; let m : BitVec 30 := 1#30 <<< d.val; let s : State := State.reset; let s : State := s.setFld (R.pwrDom 2) F.pwrDom_state 1;
     m = 1#30 <<< d.val ∧ s.domState 2 ≠ 0) ∧
    (let d : Fin 30 := 1; let m : BitVec 30 := 1#30 <<< d.val; let p : Fin 24 := 1; let s : State := State.reset;
     let s : State := s.setBit (R.medLaneCfg p) F.medLaneCfg_laneEn true; m = 1#30 <<< d.val ∧ s.bit (R.medLaneCfg p) F.medLaneCfg_laneEn = true ∧
     (∀ q, q < p.val → s.bit (R.medLaneCfg q) F.medLaneCfg_laneEn = false)) ∧
    (let d : Fin 30 := 1; let m : BitVec 30 := 1#30 <<< d.val; let p : Fin 24 := 1; let s : State := State.reset;
     let s : State := s.setBit (R.medLaneCfg p) F.medLaneCfg_laneEn true; m = 1#30 <<< d.val ∧ s.bit (R.medLaneCfg p) F.medLaneCfg_laneEn = true ∧
     (∀ q, q < p.val → s.bit (R.medLaneCfg q) F.medLaneCfg_laneEn = false)) ∧
    (let d : Fin 30 := 1; let m : BitVec 30 := 1#30 <<< d.val; let s : State := State.reset; let s : State := s.setFld (R.pwrDom d) F.pwrDom_phase 1;
     m = 1#30 <<< d.val ∧ s.domPhase d = 1 ∧ s.holder d = none) ∧
    (let d : Fin 30 := 1; let m : BitVec 30 := 1#30 <<< d.val; let s : State := State.reset; m = 1#30 <<< d.val ∧
     (s.domPhase d ≠ 1 ∨ s.holder d ≠ none)) := by
  refine ⟨?_, ?_, ?_, ?_, ?_, ?_, ?_, ?_, ?_, ?_, ?_, ?_, ?_, ?_, ?_, ?_, ?_, ?_, ?_, ?_, ?_, ?_, ?_, ?_⟩
  · decide +kernel
  · decide +kernel
  · decide +kernel
  · decide +kernel
  · decide +kernel
  · decide +kernel
  · decide +kernel
  · decide +kernel
  · decide +kernel
  · decide +kernel
  · decide +kernel
  · decide +kernel
  · exact ⟨by decide +kernel, fun i j hi hj => by simp only [BitVec.getLsbD] at hi hj; rcases i with _ | i <;> rcases j with _ | _ | _ | j <;> simp_all [Nat.testBit_succ]⟩
  · exact ⟨by decide +kernel, fun i j hi hj => by simp only [BitVec.getLsbD] at hi hj; rcases i with _ | i <;> rcases j with _ | _ | _ | j <;> simp_all [Nat.testBit_succ]⟩
  · exact ⟨by decide +kernel, fun i j hi hj => by simp only [BitVec.getLsbD] at hi hj; rcases i with _ | i <;> rcases j with _ | _ | _ | j <;> simp_all [Nat.testBit_succ]⟩
  · decide +kernel
  · decide +kernel
  · decide +kernel
  · decide +kernel
  · decide +kernel
  · decide +kernel
  · decide +kernel
  · decide +kernel
  · decide +kernel

/-- Operands and states that meet the hypotheses of `Obligations.DomainRequests`, in the order of its clauses. -/
theorem witness_DomainRequests_2 :
    (let d : Fin 30 := 1; let m : BitVec 30 := 1#30 <<< d.val; let u : Nat := 0x9A; let s : State := State.reset;
     let s : State := s.setFld (R.pwrDom d) F.pwrDom_phase 1; let s : State := { s with lsch := { s.lsch with store := [dBlock] } };
     m = 1#30 <<< d.val ∧ s.domPhase d = 1 ∧ s.holder d = some u) ∧
    (let d : Fin 30 := 1; let m : BitVec 30 := 1#30 <<< d.val; let u : Nat := 0x9A; let s : State := State.reset;
     let s : State := s.setFld (R.pwrDom d) F.pwrDom_phase 1; let s : State := s.setFld (R.pwrDom d) F.pwrDom_state 2;
     let s : State := { s with lsch := { s.lsch with store := [dBlock] } }; m = 1#30 <<< d.val ∧ s.domPhase d = 1 ∧ s.domState d = 2 ∧
     s.holder d = some u ∧ u < 256 ∧ s.fld (R.pwrDom d) F.pwrDom_pending ≤ 1) ∧
    (let d : Fin 30 := 1; let m : BitVec 30 := 1#30 <<< d.val; let s : State := State.reset; m = 1#30 <<< d.val ∧
     (s.domPhase d ≠ 1 ∨ s.holder d = none)) ∧
    (let d : Fin 30 := 1; let m : BitVec 30 := 1#30 <<< d.val; let s : State := State.reset;
     let s : State := s.setBit R.pwrStatus F.pwrStatus_seqBusy true; m = 1#30 <<< d.val ∧
     (s.bit R.pwrStatus F.pwrStatus_seqBusy = true ∨ (∀ e, e < 30 → s.domPhase e ≠ 3))) ∧
    (let d : Fin 30 := 1; let m : BitVec 30 := 1#30 <<< d.val; let s : State := State.reset;
     let s : State := s.setBit R.pwrStatus F.pwrStatus_seqBusy false; let s : State := s.setFld (R.pwrDom d) F.pwrDom_phase 3; m = 1#30 <<< d.val ∧
     s.bit R.pwrStatus F.pwrStatus_seqBusy = false ∧ s.domPhase d = 3 ∧ (∀ e, e < d.val → s.domPhase e ≠ 3) ∧ s.onRefuser d = none) ∧
    (let d : Fin 30 := 1; let m : BitVec 30 := 1#30 <<< d.val; let u : Nat := 4; let s : State := State.reset;
     let s : State := s.setBit R.pwrStatus F.pwrStatus_seqBusy false; let s : State := s.setFld (R.pwrDom d) F.pwrDom_phase 3;
     let s : State := s.setFld (R.pwrDom d) F.pwrDom_pending 0; let s : State := s.setFld R.fltStatusF F.fltStatusF_sources 4; m = 1#30 <<< d.val ∧
     s.bit R.pwrStatus F.pwrStatus_seqBusy = false ∧ s.domPhase d = 3 ∧ (∀ e, e < d.val → s.domPhase e ≠ 3) ∧ s.onRefuser d = some u ∧ u < 256 ∧
     s.fld (R.pwrDom d) F.pwrDom_pending = 0) ∧
    (let d : Fin 30 := 1; let m : BitVec 30 := 1#30 <<< d.val; let s : State := State.reset; let s : State := s.setFld (R.pwrDom d) F.pwrDom_phase 0;
     let s : State := s.setFld (R.pwrDom d) F.pwrDom_state 2; m = 1#30 <<< d.val ∧ s.domPhase d = 0 ∧ s.domState d + 1 = 3 ∧ s.pwr.log.length < 32) ∧
    (let d : Fin 30 := 1; let m : BitVec 30 := 1#30 <<< d.val; let s : State := State.reset; let s : State := s.setFld (R.pwrDom d) F.pwrDom_phase 0;
     let s : State := s.setFld (R.pwrDom d) F.pwrDom_state 1; m = 1#30 <<< d.val ∧ s.domPhase d = 0 ∧ s.domState d + 2 = 3 ∧ s.pwr.log.length < 32) ∧
    (let d : Fin 30 := 1; let m : BitVec 30 := 1#30 <<< d.val; let s : State := State.reset; let s : State := s.setFld (R.pwrDom d) F.pwrDom_phase 0;
     m = 1#30 <<< d.val ∧ s.domPhase d = 0 ∧ s.domState d + 3 = 3 ∧ s.pwr.log.length < 32) ∧
    (let d : Fin 30 := 1; let m : BitVec 30 := 1#30 <<< d.val; let u : Nat := 4; let s : State := State.reset;
     let s : State := s.setFld (R.pwrDom d) F.pwrDom_phase 0; let s : State := s.setFld R.fltStatusF F.fltStatusF_sources 4; m = 1#30 <<< d.val ∧
     s.domPhase d = 0 ∧ s.domState d + 1 ≠ 3 ∧ (if 1 = 2 ∧
     s.domState d = 0 then some 2 else if 1 = 1 then s.onRefuser d else s.downRefuser d) = some u ∧ u < 256 ∧ s.pwr.log.length < 32) ∧
    (let d : Fin 30 := 1; let m : BitVec 30 := 1#30 <<< d.val; let u : Nat := 2; let s : State := State.reset;
     let s : State := s.setFld (R.pwrDom d) F.pwrDom_phase 0; m = 1#30 <<< d.val ∧ s.domPhase d = 0 ∧ s.domState d + 2 ≠ 3 ∧ (if 2 = 2 ∧
     s.domState d = 0 then some 2 else if 2 = 1 then s.onRefuser d else s.downRefuser d) = some u ∧ u < 256 ∧ s.pwr.log.length < 32) ∧
    (let d : Fin 30 := 1; let m : BitVec 30 := 1#30 <<< d.val; let u : Nat := 0xC0; let s : State := State.reset;
     let s : State := s.setFld (R.pwrDom d) F.pwrDom_phase 0; let s : State := s.setFld (R.pwrDom 1) F.pwrDom_state 2;
     let s : State := s.setFld (R.pwrDom 2) F.pwrDom_state 2; m = 1#30 <<< d.val ∧ s.domPhase d = 0 ∧ s.domState d + 3 ≠ 3 ∧ (if 3 = 2 ∧
     s.domState d = 0 then some 2 else if 3 = 1 then s.onRefuser d else s.downRefuser d) = some u ∧ u < 256 ∧ s.pwr.log.length < 32) ∧
    (let d : Fin 30 := 1; let m : BitVec 30 := 1#30 <<< d.val; let s : State := State.reset; let s : State := s.setFld (R.pwrDom d) F.pwrDom_phase 1;
     let s : State := s.setFld (R.pwrDom d) F.pwrDom_pending 0; m = 1#30 <<< d.val ∧ s.domPhase d ≠ 0 ∧ s.fld (R.pwrDom d) F.pwrDom_pending = 0) ∧
    (let d : Fin 30 := 1; let m : BitVec 30 := 1#30 <<< d.val; let s : State := State.reset; let s : State := s.setFld (R.pwrDom d) F.pwrDom_phase 1;
     let s : State := s.setFld (R.pwrDom d) F.pwrDom_pending 0; m = 1#30 <<< d.val ∧ s.domPhase d ≠ 0 ∧ s.fld (R.pwrDom d) F.pwrDom_pending = 0) ∧
    (let d : Fin 30 := 1; let m : BitVec 30 := 1#30 <<< d.val; let s : State := State.reset; let s : State := s.setFld (R.pwrDom d) F.pwrDom_phase 1;
     let s : State := s.setFld (R.pwrDom d) F.pwrDom_pending 0; m = 1#30 <<< d.val ∧ s.domPhase d ≠ 0 ∧ s.fld (R.pwrDom d) F.pwrDom_pending = 0) ∧
    (let d : Fin 30 := 1; let m : BitVec 30 := 1#30 <<< d.val; let s : State := State.reset; let s : State := s.setFld (R.pwrDom d) F.pwrDom_phase 1;
     let s : State := s.setFld (R.pwrDom d) F.pwrDom_pending 1; m = 1#30 <<< d.val ∧ s.domPhase d ≠ 0 ∧ s.fld (R.pwrDom d) F.pwrDom_pending ≠ 0) ∧
    (let d : Fin 30 := 1; let m : BitVec 30 := 1#30 <<< d.val; let s : State := State.reset; let s : State := s.setFld (R.pwrDom d) F.pwrDom_phase 1;
     let s : State := s.setFld (R.pwrDom d) F.pwrDom_pending 1; m = 1#30 <<< d.val ∧ s.domPhase d ≠ 0 ∧ s.fld (R.pwrDom d) F.pwrDom_pending ≠ 0) ∧
    (let d : Fin 30 := 1; let m : BitVec 30 := 1#30 <<< d.val; let s : State := State.reset; let s : State := s.setFld (R.pwrDom d) F.pwrDom_phase 1;
     let s : State := s.setFld (R.pwrDom d) F.pwrDom_pending 1; m = 1#30 <<< d.val ∧ s.domPhase d ≠ 0 ∧ s.fld (R.pwrDom d) F.pwrDom_pending ≠ 0) ∧
    (let d : Fin 30 := 5; let m : BitVec 30 := 1#30 <<< d.val; let x : Nat := (sourcesOf d).headD 0; let s : State := State.reset;
     let s : State := s.setFld (R.pwrDom d) F.pwrDom_phase 1; m = 1#30 <<< d.val ∧ s.domPhase d = 1 ∧ s.holder d = none ∧ x ∈ sourcesOf d) := by
  refine ⟨?_, ?_, ?_, ?_, ?_, ?_, ?_, ?_, ?_, ?_, ?_, ?_, ?_, ?_, ?_, ?_, ?_, ?_, ?_⟩ <;> decide +kernel

/-- Operands and states that meet the hypotheses of `Obligations.TransitionsPointsResetsAndClocks`, in the order of its clauses. -/
theorem witness_TransitionsPointsResetsAndClocks_1 :
    (let d : Fin 30 := 1; let s : State := State.reset; s.domPhase d ≠ 2) ∧
    (let d : Fin 30 := 1; let s : State := State.reset; let s : State := s.setFld (R.pwrDom d) F.pwrDom_phase 2; s.domPhase d = 2) ∧
    (let d : Fin 30 := 1; let s : State := State.reset; let s : State := s.setFld (R.pwrDom d) F.pwrDom_phase 2;
     let s : State := s.setFld (R.pwrDom d) F.pwrDom_pending 0; s.domPhase d = 2 ∧ s.fld (R.pwrDom d) F.pwrDom_pending = 0) ∧
    (let d : Fin 30 := 1; let s : State := State.reset; s.domPhase d ≠ 4) ∧
    (let d : Fin 30 := 1; let s : State := State.reset; let s : State := s.setFld (R.pwrDom d) F.pwrDom_phase 4; s.domPhase d = 4) ∧
    (let d : Fin 30 := 1; let s : State := State.reset; let s : State := s.setFld (R.pwrDom d) F.pwrDom_phase 4;
     let s : State := s.setFld (R.pwrDom d) F.pwrDom_pending 0; let s : State := { s with enrol := { s.enrol with startWaiting := false } };
     s.domPhase d = 4 ∧ s.fld (R.pwrDom d) F.pwrDom_pending = 0 ∧ s.enrol.startWaiting = false) ∧
    (let d : Fin 30 := 1; let s : State := State.reset; s.domOn d = false) ∧
    (let d : Fin 30 := 1; let s : State := State.reset; let s : State := s.setFld (R.pwrDom d) F.pwrDom_state 2; s.domOn d = true) ∧
    (let v : Word := 0; let n : Nat := bitsOf v.toNat 29 28; let s : State := State.reset;
     let s : State := s.setFld R.pwrDegrade F.pwrDegrade_level 0; let s : State := s.setRail 0 { s.rail 0 with change := none };
     let s : State := s.setRail 0 { s.rail 0 with pending := none }; let s : State := s.setRail 1 { s.rail 1 with change := none };
     let s : State := s.setRail 0 { s.rail 0 with ok := true }; let s : State := s.setRail 1 { s.rail 1 with ok := true };
     let s : State := s.setBit R.pwrAvsStatus F.pwrAvsStatus_pktErr false; let s : State := s.setBit R.pwrAvsStatus F.pwrAvsStatus_limErr false;
     let s : State := s.setRail 0 { ok := true }; let s : State := s.setRail 1 { ok := true }; n = bitsOf v.toNat 29 28 ∧ n < 3 ∧
     s.fld R.pwrDegrade F.pwrDegrade_level = 0 ∧ s.domOn 1 = false ∧ s.domOn 2 = false ∧ s.fld R.pwrOp F.pwrOp_pktV = s.fld R.pwrOp F.pwrOp_pktF ∧
     (s.rail 0).change = none ∧ (s.rail 0).pending = none ∧ (s.rail 1).change = none ∧ (s.rail 0).ok = true ∧ (s.rail 1).ok = true ∧
     s.bit R.pwrAvsStatus F.pwrAvsStatus_pktErr = false ∧ s.bit R.pwrAvsStatus F.pwrAvsStatus_limErr = false) ∧
    (let r : Fin 2 := 1; let s : State := State.reset; let s : State := s.setRail r { s.rail r with change := none }; (s.rail r).change = none) ∧
    (let r : Fin 2 := 1; let s : State := State.reset; let s : State := s.setRail r { s.rail r with change := none }; (s.rail r).change = none) ∧
    (let r : Fin 2 := 1; let n : Nat := 0; let mv : Fin 1024 := 1; let s : State := { State.reset with regs := [(R.pwrOpVolt, 0)] };
     let s : State := s.setRail r { s.rail r with change := some n }; (s.rail r).change = some n ∧ n < 4 ∧ s.opVolt r n ≤ mv.val + 10) ∧
    (let r : Fin 2 := 1; let n : Nat := 1; let s : State := State.reset; let s : State := s.setRail r { s.rail r with change := some n };
     (s.rail r).change = some n ∧ n < 4) ∧
    (let n : Nat := 0; let mv : Fin 1024 := 1; let s : State := { State.reset with regs := [(R.pwrOpVolt, 0)] };
     let s : State := s.setRail 0 { s.rail 0 with change := some n }; let s : State := s.setRail 0 { s.rail 0 with pending := none };
     let s : State := { s with pwr := { s.pwr with starting := false } }; let s : State := s.setRail 1 { s.rail 1 with change := none };
     (s.rail 0).change = some n ∧ (s.rail 0).pending = none ∧ s.pwr.starting = false ∧ s.pktPoint = n ∧ (s.rail 1).change = none ∧
     s.domOn 1 = false ∧ s.domOn 2 = false ∧ s.fld R.pwrOp F.pwrOp_limV = s.limPoint 0 ∧ s.limPoint 0 = s.limPoint 1 ∧
     s.fld R.pwrOp F.pwrOp_lim0F = s.limPoint 0 ∧ s.fld R.pwrOp F.pwrOp_lim1F = s.limPoint 0 ∧ s.opVolt 0 n ≤ mv.val + 10) ∧
    (let n : Nat := 1; let s : State := State.reset; let s : State := s.setRail 0 { s.rail 0 with change := some n };
     let s : State := s.setRail 0 { s.rail 0 with pending := none }; let s : State := { s with pwr := { s.pwr with starting := false } };
     let s : State := s.setRail 1 { s.rail 1 with change := none }; let s : State := s.setFld R.pwrOp F.pwrOp_pktReq 1; (s.rail 0).change = some n ∧
     (s.rail 0).pending = none ∧ s.pwr.starting = false ∧ s.pktPoint = n ∧ (s.rail 1).change = none ∧ s.domOn 1 = false ∧ s.domOn 2 = false ∧
     s.fld R.pwrOp F.pwrOp_limV = s.limPoint 0 ∧ s.limPoint 0 = s.limPoint 1 ∧ s.fld R.pwrOp F.pwrOp_lim0F = s.limPoint 0 ∧
     s.fld R.pwrOp F.pwrOp_lim1F = s.limPoint 0) ∧
    (let s : State := State.reset; let s : State := { s with pwr := { s.pwr with starting := true } };
     let s : State := s.setRail 0 { s.rail 0 with change := none }; let s : State := s.setRail 1 { s.rail 1 with change := none };
     s.pwr.starting = true ∧ (s.rail 0).change = none ∧ (s.rail 1).change = none) ∧
    (let s : State := State.reset; let s : State := { s with pwr := { s.pwr with starting := false } }; s.pwr.starting = false) ∧
    (let v : Word := 0; v.toNat % 65536 ≠ 0xA5C3) ∧
    (let v : Word := 0xA5C3; v.toNat % 65536 = 0xA5C3) ∧
    (let s : State := State.reset; let s : State := { s with pwr := { s.pwr with porst := false } }; (s.pwr.porst = false ∨ s.pwr.hold = true)) ∧
    (let s : State := State.reset; let s : State := { s with pwr := { s.pwr with hold := false } }; s.pwr.hold = false) ∧
    (let b : Fin 8 := 2; let s : State := State.reset; let s : State := s.setFld R.clkPllStatus ⟨b, b⟩ 0; b.val ≠ 1 ∧ s.fld R.clkPllStatus ⟨b, b⟩ = 0) ∧
    (let b : Fin 8 := 2; let s : State := State.reset; let s : State := s.setFld R.clkPllStatus ⟨b, b⟩ 1; b.val ≠ 1 ∧ s.fld R.clkPllStatus ⟨b, b⟩ = 1) ∧
    (let b : Fin 8 := 2; b.val ≠ 1) := by
  refine ⟨?_, ?_, ?_, ?_, ?_, ?_, ?_, ?_, ?_, ?_, ?_, ?_, ?_, ?_, ?_, ?_, ?_, ?_, ?_, ?_, ?_, ?_, ?_, ?_⟩ <;> decide +kernel

/-- Operands and states that meet the hypotheses of `Obligations.TransitionsPointsResetsAndClocks`, in the order of its clauses. -/
theorem witness_TransitionsPointsResetsAndClocks_2 :
    (let d : Fin 30 := 1; let s : State := State.reset; let s : State := s.setFld (R.pwrDom d) F.pwrDom_phase 2;
     let s : State := s.setFld (R.pwrDom d) F.pwrDom_pending 0; let s : State := s.setFld (R.pwrDom d) F.pwrDom_target 1; s.domPhase d = 2 ∧
     s.fld (R.pwrDom d) F.pwrDom_pending = 0 ∧ s.fld (R.pwrDom d) F.pwrDom_target ≠ 0) ∧
    (let d : Fin 30 := 5; let a : Nat := 0x9100000000; let s : State := State.reset; let s : State := s.setFld (R.pwrDom d) F.pwrDom_phase 2;
     let s : State := s.setFld (R.pwrDom d) F.pwrDom_pending 0; let s : State := s.setFld (R.pwrDom d) F.pwrDom_target 0; s.domPhase d = 2 ∧
     s.fld (R.pwrDom d) F.pwrDom_pending = 0 ∧ s.fld (R.pwrDom d) F.pwrDom_target = 0 ∧ (d.val < 11 ∨ 16 < d.val) ∧ domainOf (unitOf a) = some d.val) ∧
    (let d : Fin 30 := 1; let a : Nat := 0; let s : State := State.reset; let s : State := s.setFld (R.pwrDom d) F.pwrDom_phase 2;
     let s : State := s.setFld (R.pwrDom d) F.pwrDom_pending 0; let s : State := s.setFld (R.pwrDom d) F.pwrDom_target 0; s.domPhase d = 2 ∧
     s.fld (R.pwrDom d) F.pwrDom_pending = 0 ∧ s.fld (R.pwrDom d) F.pwrDom_target = 0 ∧ (d.val < 11 ∨ 16 < d.val) ∧
     domainOf (unitOf a) ≠ some d.val ∧ unitOf a ≠ 2 ∧ unitOf a ≠ 4 ∧ unitOf a ≠ 5) ∧
    (let d : Fin 30 := 5; let x : Nat := (sourcesOf d).headD 0; let s : State := State.reset;
     let s : State := s.setFld (R.pwrDom d) F.pwrDom_phase 4; s.domPhase d = 4 ∧ x ∈ sourcesOf d) ∧
    (let d : Fin 30 := 5; let x : Nat := (sourcesOf d).headD 0; let s : State := State.reset;
     let s : State := s.setFld (R.pwrDom d) F.pwrDom_phase 4; let s : State := s.setFld (R.pwrDom d) F.pwrDom_pending 0;
     let s : State := { s with enrol := { s.enrol with startWaiting := false } }; s.domPhase d = 4 ∧ s.fld (R.pwrDom d) F.pwrDom_pending = 0 ∧
     s.enrol.startWaiting = false ∧ x ∈ sourcesOf d) ∧
    (let d : Fin 30 := 5; let a : Nat := 0x9100000000; let s : State := State.reset; let s : State := s.setFld (R.pwrDom d) F.pwrDom_phase 4;
     let s : State := s.setFld (R.pwrDom d) F.pwrDom_pending 0; let s : State := { s with enrol := { s.enrol with startWaiting := false } };
     let s : State := s.setFld (R.pwrDom d) F.pwrDom_state 0; s.domPhase d = 4 ∧ s.fld (R.pwrDom d) F.pwrDom_pending = 0 ∧
     s.enrol.startWaiting = false ∧ s.domState d = 0 ∧ (d.val < 11 ∨ 16 < d.val) ∧ domainOf (unitOf a) = some d.val) ∧
    (let d : Fin 30 := 1; let a : Nat := 0; let s : State := State.reset; let s : State := s.setFld (R.pwrDom d) F.pwrDom_phase 4;
     let s : State := s.setFld (R.pwrDom d) F.pwrDom_pending 0; let s : State := { s with enrol := { s.enrol with startWaiting := false } };
     let s : State := s.setFld (R.pwrDom d) F.pwrDom_state 0; s.domPhase d = 4 ∧ s.fld (R.pwrDom d) F.pwrDom_pending = 0 ∧
     s.enrol.startWaiting = false ∧ s.domState d = 0 ∧ (d.val < 11 ∨ 16 < d.val) ∧ domainOf (unitOf a) ≠ some d.val ∧ unitOf a ≠ 2 ∧ unitOf a ≠ 5) ∧
    (let d : Fin 30 := 8; let e : Nat × Nat × Fld := (readyBits.find? (fun e => e.1 == 8)).getD (8, 0, ⟨0, 0⟩); let s : State := State.reset;
     let s : State := s.setFld (R.pwrDom d) F.pwrDom_phase 4; let s : State := s.setFld (R.pwrDom d) F.pwrDom_pending 0;
     let s : State := { s with enrol := { s.enrol with startWaiting := false } }; let s : State := s.setFld (R.pwrDom d) F.pwrDom_state 1;
     s.domPhase d = 4 ∧ s.fld (R.pwrDom d) F.pwrDom_pending = 0 ∧ s.enrol.startWaiting = false ∧ s.domState d ≠ 0 ∧ e ∈ readyBits ∧ e.1 = d.val) ∧
    (let d : Fin 30 := 1; let s : State := State.reset; let s : State := s.setFld (R.pwrDom d) F.pwrDom_phase 4;
     let s : State := s.setFld (R.pwrDom d) F.pwrDom_pending 0; let s : State := { s with enrol := { s.enrol with startWaiting := false } };
     let s : State := s.setFld (R.pwrDom d) F.pwrDom_state 1; s.domPhase d = 4 ∧ s.fld (R.pwrDom d) F.pwrDom_pending = 0 ∧
     s.enrol.startWaiting = false ∧ s.domState d ≠ 0) ∧
    (let d : Fin 30 := 1; let a : Nat := 0; let s : State := State.reset; let s : State := s.setFld (R.pwrDom d) F.pwrDom_phase 4;
     let s : State := s.setFld (R.pwrDom d) F.pwrDom_pending 0; let s : State := { s with enrol := { s.enrol with startWaiting := false } };
     let s : State := s.setFld (R.pwrDom d) F.pwrDom_state 1; s.domPhase d = 4 ∧ s.fld (R.pwrDom d) F.pwrDom_pending = 0 ∧
     s.enrol.startWaiting = false ∧ s.domState d ≠ 0 ∧ unitOf a ≠ 2 ∧ a ∉ readyBits.map (fun e => e.2.1)) ∧
    (let v : Word := 0xA5C3; let e : Nat := 0; v.toNat % 65536 = 0xA5C3 ∧ e < 30) ∧
    (let v : Word := 0xA5C3; let a : Nat := 0; v.toNat % 65536 = 0xA5C3 ∧ unitOf a ∉ [1, 4, 5, 0x9C]) := by
  refine ⟨?_, ?_, ?_, ?_, ?_, ?_, ?_, ?_, ?_, ?_, ?_, ?_⟩ <;> decide +kernel

/-- Operands and states that meet the hypotheses of `Obligations.FaultCollectorLatchesAndReleases`, in the order of its clauses. -/
theorem witness_FaultCollectorLatchesAndReleases_1 :
    (let src : Fin 38 := 1; let k : Fin 4 := 0; let s : State := State.reset; (raises src k = false ∨ s.clamped src = true)) ∧
    (let src : Fin 38 := 3; let s : State := State.reset; s.clamped src = false ∧ raises src 0 = true) ∧
    (let src : Fin 38 := 11; let s : State := State.reset; let s : State := s.setFld (R.pwrDom 14) F.pwrDom_state 2;
     let s : State := s.setFld (R.pwrDom 15) F.pwrDom_state 2; let s : State := s.setFld (R.pwrDom 16) F.pwrDom_state 2;
     let s : State := s.setFld (R.pwrDom 17) F.pwrDom_state 2; s.clamped src = false ∧ raises src 1 = true) ∧
    (let src : Fin 38 := 26; let d : Dir := .up; let n : Fin 8 := 0; let pos : Nat := 0; let p : Pkt := dPkt; let s : State := State.reset;
     let s : State := s.setPipe d n [dPkt]; let s : State := s.setFld (R.pwrDom 9) F.pwrDom_state 2; s.clamped src = false ∧ raises src 1 = true ∧
     src.val = d.src ∧ (s.pipe d n)[pos]? = some p ∧ p.dir = d ∧ p.ret = 0) ∧
    (let s : State := State.reset; let s : State := s.setFld (R.pwrDom 7) F.pwrDom_state 2; s.clamped Src.cls = false) ∧
    (let s : State := State.reset; s.clamped Src.ward = false) ∧
    (let s : State := State.reset; s.clamped Src.thermal = false) ∧
    (let src : Fin 38 := 1; let s : State := State.reset; let s : State := { s with flt := { s.flt with clamped := [src] } }; s.clamped src = true) ∧
    (let s : State := State.reset; let s : State := s.setFld (R.pwrDom 7) F.pwrDom_state 2; s.clamped Src.cls = false) ∧
    (let s : State := State.reset; s.clamped Src.thermal = false) ∧
    (let src : Fin 38 := 1; let s : State := State.reset; (s.restarting src = false ∨ src.val = Src.preura)) ∧
    (let src : Fin 38 := 1; let s : State := State.reset; let s : State := s.setBit R.fltRestarting ⟨src, src⟩ true; s.restarting src = true ∧
     src.val ≠ Src.preura ∧ (src.val = Src.medTxpll → s.med.txLock = true ∧ s.med.txWait = false)) ∧
    (let src : Fin 38 := 5; let s : State := State.reset; let s : State := s.setBit R.fltRestarting ⟨src, src⟩ true; s.restarting src = true ∧
     src.val ≠ Src.preura ∧ (src.val = Src.medTxpll → s.med.txLock = true ∧ s.med.txWait = false) ∧ src.val ≠ Src.ward ∧ src.val ≠ Src.ubb ∧
     src.val ≠ Src.lim0 ∧ src.val ≠ Src.lim1 ∧ src.val ≠ Src.hinge) ∧
    (let s : State := State.reset; let s : State := s.setBit R.fltRestarting ⟨Src.ward, Src.ward⟩ true; s.restarting Src.ward = true ∧
     (∀ p, (s.uplane p).missed = 0)) ∧
    (let s : State := State.reset; let s : State := { s with flt := { s.flt with captures := [] } }; s.flt.captures = []) ∧
    (let s : State := State.reset; s.firmware = false) ∧
    (let c := ((5 : Word), (⟨1, 2, 3, 4⟩ : Stamp)); let l := ([] : List (Word × Stamp)); let s : State := State.reset;
     let s : State := { s with flt := { s.flt with captures := c :: l } }; let s : State := s.setPreura 1; s.flt.captures = c :: l ∧
     s.firmware = true) ∧
    (let c := ((5 : Word), (⟨1, 2, 3, 4⟩ : Stamp)); let l := ([] : List (Word × Stamp)); let s : State := State.reset;
     let s : State := { s with flt := { s.flt with captures := c :: l } }; let s : State := s.setPreura 1; s.flt.captures = c :: l ∧
     s.firmware = true ∧ s.preura.logQueue.length < 1024) ∧
    (let v : Word := 0; let s : State := State.reset; (v.getLsbD 0 = false ∨ s.flt.disp = [])) ∧
    (let v : Word := 1; let x := ([1] : List Word); let l := ([] : List (List Word)); let s : State := State.reset;
     let s : State := { s with flt := { s.flt with disp := x :: l } }; v.getLsbD 0 = true ∧ s.flt.disp = x :: l) ∧
    (let v : Word := 1; let x := ([1] : List Word); let l := ([] : List (List Word)); let s : State := State.reset;
     let s : State := { s with flt := { s.flt with disp := x :: l } }; let s : State := { s with flt := { s.flt with lostCnt := [] } };
     v.getLsbD 0 = true ∧ s.flt.disp = x :: l ∧ s.flt.lostCnt = []) ∧
    (let v : Word := 1; let x := ([1] : List Word); let l := ([] : List (List Word)); let i := 5; let n := 7; let s : State := State.reset;
     let s : State := { s with flt := { s.flt with disp := x :: l } }; let s : State := { s with flt := { s.flt with lostCnt := [(i, n)] } };
     v.getLsbD 0 = true ∧ s.flt.disp = x :: l ∧ s.flt.lostCnt = [(i, n)] ∧ l.length < 4096) ∧
    (let s : State := State.reset; let s : State := { s with pwr := { s.pwr with porst := true } }; s.pwr.porst = true) ∧
    (let s : State := State.reset; let s : State := { s with pwr := { s.pwr with porst := false } }; s.pwr.porst = false) := by
  refine ⟨?_, ?_, ?_, ?_, ?_, ?_, ?_, ?_, ?_, ?_, ?_, ?_, ?_, ?_, ?_, ?_, ?_, ?_, ?_, ?_, ?_, ?_, ?_, ?_⟩
  · decide +kernel
  · decide +kernel
  · decide +kernel
  · decide +kernel
  · decide +kernel
  · decide +kernel
  · decide +kernel
  · decide +kernel
  · decide +kernel
  · decide +kernel
  · decide +kernel
  · decide +kernel
  · decide +kernel
  · exact ⟨by decide +kernel, fun p => rfl⟩
  · decide +kernel
  · decide +kernel
  · decide +kernel
  · decide +kernel
  · decide +kernel
  · decide +kernel
  · decide +kernel
  · decide +kernel
  · decide +kernel
  · decide +kernel

/-- Operands and states that meet the hypotheses of `Obligations.FaultCollectorLatchesAndReleases`, in the order of its clauses. -/
theorem witness_FaultCollectorLatchesAndReleases_2 :
    (let src : Fin 38 := 3; let a : Nat := 0; let s : State := State.reset; s.clamped src = false ∧ raises src 0 = true ∧
     unitSource (unitOf a) ≠ some src.val ∧ a ≠ R.fltStatusC ∧ a ≠ R.fltCCount src) ∧
    (let src : Fin 38 := 11; let s : State := State.reset; let s : State := s.setFld (R.pwrDom 14) F.pwrDom_state 2;
     let s : State := s.setFld (R.pwrDom 15) F.pwrDom_state 2; let s : State := s.setFld (R.pwrDom 16) F.pwrDom_state 2;
     let s : State := s.setFld (R.pwrDom 17) F.pwrDom_state 2; s.clamped src = false ∧ raises src 1 = true ∧ s.flt.captures.length < 64) ∧
    (let src : Fin 38 := 11; let s : State := State.reset; let s : State := s.setFld (R.pwrDom 14) F.pwrDom_state 2;
     let s : State := s.setFld (R.pwrDom 15) F.pwrDom_state 2; let s : State := s.setFld (R.pwrDom 16) F.pwrDom_state 2;
     let s : State := s.setFld (R.pwrDom 17) F.pwrDom_state 2;
     let s : State := { s with flt := { s.flt with captures := List.replicate 64 ((1 : Word), (⟨1, 2, 3, 4⟩ : Stamp)) } }; s.clamped src = false ∧
     raises src 1 = true ∧ 64 ≤ s.flt.captures.length) ∧
    (let src : Fin 38 := 26; let d : Dir := .up; let n : Fin 8 := 0; let pos : Nat := 0; let p : Pkt := dPkt; let s : State := State.reset;
     let s : State := { s with flt := { s.flt with lostCnt := [] } }; let s : State := s.setPipe d n [dPkt];
     let s : State := s.setFld (R.pwrDom 9) F.pwrDom_state 2; s.clamped src = false ∧ raises src 1 = true ∧ src.val = d.src ∧
     (s.pipe d n)[pos]? = some p ∧ p.dir = d ∧ p.ret = 0 ∧ s.flt.disp.length < 4096 ∧ s.flt.lostCnt = []) ∧
    (let n : Nat := 0; let s : State := State.reset; let s : State := s.setFld (R.pwrDom 7) F.pwrDom_state 2; s.clamped Src.cls = false ∧ n < 8) ∧
    (let s : State := State.reset; let s : State := s.setFld (R.pwrDom 0) F.pwrDom_state 2;
     let s : State := s.setFld R.fltMaskErr ⟨Src.cls, Src.cls⟩ 0; let s : State := s.setFld (R.pwrDom 7) F.pwrDom_state 2;
     s.clamped Src.cls = false ∧ s.domOn 0 = true ∧ s.fld R.fltMaskErr ⟨Src.cls, Src.cls⟩ = 0) ∧
    (let s : State := State.reset; let s : State := s.setFld R.fltMaskErr ⟨Src.cls, Src.cls⟩ 1;
     let s : State := s.setFld (R.pwrDom 7) F.pwrDom_state 2; s.clamped Src.cls = false ∧ s.fld R.fltMaskErr ⟨Src.cls, Src.cls⟩ = 1) ∧
    (let s : State := State.reset; let s : State := s.setFld (R.pwrDom 7) F.pwrDom_state 2; s.clamped Src.cls = false ∧ s.flt.captures.length < 64) ∧
    (let s : State := State.reset; let s : State := { s with ubb := { s.ubb with builds := [] } }; s.clamped Src.ward = false ∧ s.ubb.builds = []) ∧
    (let a : Nat := 0x9800000000; let s : State := State.reset; let s : State := { s with ubb := { s.ubb with builds := [] } };
     s.clamped Src.ward = false ∧ s.ubb.builds = [] ∧ unitOf a ∉ [0, 1, 4, 0x9C] ∧ ¬ (0x10 ≤ unitOf a ∧ unitOf a ≤ 0x27)) ∧
    (let d : Nat := 0; let s : State := State.reset; s.clamped Src.thermal = false ∧ d < 30) ∧
    (let s : State := State.reset; let s : State := s.setFld (R.pwrDom 7) F.pwrDom_state 2; s.clamped Src.cls = false ∧ s.flt.captures.length < 64) := by
  refine ⟨?_, ?_, ?_, ?_, ?_, ?_, ?_, ?_, ?_, ?_, ?_, ?_⟩ <;> decide +kernel

/-- Operands and states that meet the hypotheses of `Obligations.HingeLinkMirrorAndLead`, in the order of its clauses. -/
theorem witness_HingeLinkMirrorAndLead_1 :
    (let s : State := State.reset; s.link ≠ 1) ∧
    (let s : State := State.reset; let s : State := s.setFld R.hingeStatus F.hingeStatus_link 1; s.link = 1) ∧
    (let s : State := State.reset; s.link < 2) ∧
    (let s : State := State.reset; s.link ≠ 3) ∧
    (let s : State := State.reset; s.link < 2) ∧
    (let s : State := State.reset; let s : State := s.setFld R.hingeStatus F.hingeStatus_link 2; 2 ≤ s.link) ∧
    (let b : BitVec 512 := 0; let s : State := State.reset; s.blockTurn b ∧ s.link < 2) ∧
    (let b : BitVec 512 := BitVec.ofNat 512 (5 * 2 ^ 488 + 2 * 2 ^ 486 + 2 ^ 485 + 3 * 2 ^ 478 + 9 * 2 ^ 468); let ok : Bool := true;
     let s : State := State.reset; let s : State := s.setFld R.hingeStatus F.hingeStatus_link 2;
     let s : State := s.setFld R.sysStraps F.sysStraps_twinRole 1; let s : State := s.setFld R.hingePair F.hingePair_pairId 5; s.blockTurn b ∧
     ok = (decide ((b.extractLsb' 488 16).toNat = s.fld R.hingePair F.hingePair_pairId) && b.extractLsb' 488 16 != 0 && s.role != 0 && decide ((b.extractLsb' 486 2).toNat = 3 - s.role)) ∧
     2 ≤ s.link ∧ ok = true) ∧
    (let b : BitVec 512 := 0; let ok : Bool := false; let s : State := State.reset; let s : State := s.setFld R.hingeStatus F.hingeStatus_link 2;
     s.blockTurn b ∧
     ok = (decide ((b.extractLsb' 488 16).toNat = s.fld R.hingePair F.hingePair_pairId) && b.extractLsb' 488 16 != 0 && s.role != 0 && decide ((b.extractLsb' 486 2).toNat = 3 - s.role)) ∧
     2 ≤ s.link ∧ ok = false) ∧
    (let b : BitVec 512 := 0; let s : State := State.reset; s.blockTurn b) ∧
    (let s : State := State.reset; (s.twin.updates = [] ∨ s.link ≠ 3)) ∧
    (let s : State := State.reset; let s : State := s.setFld R.hingeStatus F.hingeStatus_link 3;
     let s : State := { s with twin := { s.twin with updates := [(3, 7), (9, 65535)] } }; s.twin.updates ≠ [] ∧ s.twin.updates.length ≤ 7 ∧
     s.link = 3) ∧
    (let b : BitVec 512 := 0; let s : State := State.reset; s.blockTurn b) ∧
    (let s : State := State.reset; (s.link ≠ 3 ∨ s.isLead = true ∨ s.fld R.hingeStatus F.hingeStatus_sync ≠ 0)) ∧
    (let s : State := State.reset; let s : State := s.setFld R.hingeStatus F.hingeStatus_link 3;
     let s : State := s.setFld R.sysStraps F.sysStraps_twinRole 1; let s : State := s.setFld R.hingeStatus F.hingeStatus_sync 0; s.link = 3 ∧
     s.isLead = false ∧ s.fld R.hingeStatus F.hingeStatus_sync = 0) ∧
    (let b : BitVec 512 := 0; let s : State := State.reset; s.blockTurn b ∧ s.isLead = true) ∧
    (let b : BitVec 512 := 0; let s : State := State.reset; s.blockTurn b ∧ s.isLead = true) ∧
    (let b : BitVec 512 := 0; let s : State := State.reset; let s : State := s.setFld R.sysStraps F.sysStraps_twinRole 1; s.blockTurn b ∧
     s.isLead = false) ∧
    (let b : BitVec 512 := 0; let ok : Prop := True; let s : State := State.reset; let s : State := s.setFld R.sysStraps F.sysStraps_twinRole 1;
     let s : State := s.setFld R.hingeStatus F.hingeStatus_sync 1; let s : State := s.setFld R.hingeStatus F.hingeStatus_sync 1;
     let s : State := { s with twin := { s.twin with rxIndex := 3277 } }; s.blockTurn b ∧ (ok ↔ (b.extractLsb' 488 16).toNat = s.twin.rxGen ∧
     s.twin.rxIndex = 3277 ∧ (b.extractLsb' 456 32).toNat = 2 ^ 32 - 1 - s.twin.rxCrc) ∧ s.isLead = false ∧
     s.fld R.hingeStatus F.hingeStatus_sync = 1 ∧ ok) ∧
    (let b : BitVec 512 := 0; let ok : Prop := False; let s : State := State.reset; let s : State := s.setFld R.sysStraps F.sysStraps_twinRole 1;
     let s : State := s.setFld R.hingeStatus F.hingeStatus_sync 1; let s : State := s.setFld R.hingeStatus F.hingeStatus_sync 1; s.blockTurn b ∧
     (ok ↔ (b.extractLsb' 488 16).toNat = s.twin.rxGen ∧ s.twin.rxIndex = 3277 ∧ (b.extractLsb' 456 32).toNat = 2 ^ 32 - 1 - s.twin.rxCrc) ∧
     s.isLead = false ∧ s.fld R.hingeStatus F.hingeStatus_sync = 1 ∧ ¬ ok) ∧
    (let l : List Nat := List.replicate 2720 0; let s : State := State.reset; let u : Bool := (s.hingeLine l).1;
     let d : BitVec 5140 := (s.hingeLine l).2.1; let x : State := (s.hingeLine l).2.2; let kind : Nat := (d.extractLsb' 5136 4).toNat;
     s.hingeLine l = (u, d, x) ∧ kind = (d.extractLsb' 5136 4).toNat ∧ s.link < 2) ∧
    (let l : List Nat := (hingeLevels {} (BitVec.ofNat 5140 (2 ^ (504 + 4608)))).1; let s : State := State.reset;
     let s : State := s.setFld R.hingeStatus F.hingeStatus_link 2; let s : State := { s with twin := { s.twin with inbox := [] } };
     let s : State := s.setFld R.hingeStatus F.hingeStatus_link 2; let u : Bool := (s.hingeLine l).1; let d : BitVec 5140 := (s.hingeLine l).2.1;
     let x : State := (s.hingeLine l).2.2; let kind : Nat := (d.extractLsb' 5136 4).toNat; s.hingeLine l = (u, d, x) ∧
     kind = (d.extractLsb' 5136 4).toNat ∧ 2 ≤ s.link ∧ s.twin.inbox = []) ∧
    (let s : State := State.reset; let s : State := s.setFld R.hingeStatus F.hingeStatus_link 0; s.link = 0) ∧
    (let s : State := State.reset; let s : State := s.setFld R.hingeStatus F.hingeStatus_link 1; s.link ≠ 0) := by
  refine ⟨?_, ?_, ?_, ?_, ?_, ?_, ?_, ?_, ?_, ?_, ?_, ?_, ?_, ?_, ?_, ?_, ?_, ?_, ?_, ?_, ?_, ?_, ?_, ?_⟩
  · decide +kernel
  · decide +kernel
  · decide +kernel
  · decide +kernel
  · decide +kernel
  · decide +kernel
  · delta State.blockTurn; decide +kernel
  · delta State.blockTurn; decide +kernel
  · delta State.blockTurn; decide +kernel
  · delta State.blockTurn; decide +kernel
  · decide +kernel
  · decide +kernel
  · delta State.blockTurn; decide +kernel
  · decide +kernel
  · decide +kernel
  · delta State.blockTurn; decide +kernel
  · delta State.blockTurn; decide +kernel
  · delta State.blockTurn; decide +kernel
  · delta State.blockTurn; decide +kernel
  · delta State.blockTurn; decide +kernel
  · exact ⟨prod3 _, rfl, by decide +kernel⟩
  · exact ⟨prod3 _, rfl, by decide +kernel, by decide +kernel⟩
  · decide +kernel
  · decide +kernel

/-- Operands and states that meet the hypotheses of `Obligations.HingeLinkMirrorAndLead`, in the order of its clauses. -/
theorem witness_HingeLinkMirrorAndLead_2 :
    (let l : Bool := false; let s : State := State.reset; (s.role = 0 ∨ s.pinMode = false ∨ s.domOn 29 = false ∨ s.twin.pinActed = l)) ∧
    (let l : Bool := true; let s : State := State.reset; let s : State := s.setFld R.sysStraps F.sysStraps_twinRole 1;
     let s : State := s.setBit R.sysStraps F.sysStraps_leadSrc true; let s : State := s.setFld (R.pwrDom 29) F.pwrDom_state 2; s.role ≠ 0 ∧
     s.pinMode = true ∧ s.domOn 29 = true ∧ s.twin.pinActed ≠ l) ∧
    (let m : Msg := dMsg; let s : State := State.reset; let b : Bool := (bodyField m.body 8 47 38 == s.fld R.dfpIdent F.dfpIdent_tid);
     m.parcel = false ∧ 8 ≤ m.body.length ∧ b = (bodyField m.body 8 47 38 == s.fld R.dfpIdent F.dfpIdent_tid) ∧
     (s.role = 0 ∨ s.pinMode = true ∨ bodyField m.body 8 63 48 ≠ s.fld R.hingePair F.hingePair_pairId)) ∧
    (let m : Msg := dMsg; let s : State := State.reset; let s : State := s.setFld R.sysStraps F.sysStraps_twinRole 1;
     let b : Bool := (bodyField m.body 8 47 38 == s.fld R.dfpIdent F.dfpIdent_tid); m.parcel = false ∧ 8 ≤ m.body.length ∧
     b = (bodyField m.body 8 47 38 == s.fld R.dfpIdent F.dfpIdent_tid) ∧ s.role ≠ 0 ∧ s.pinMode = false ∧
     bodyField m.body 8 63 48 = s.fld R.hingePair F.hingePair_pairId) ∧
    (let s : State := State.reset; (s.role = 0 ∨ s.isLead = false ∨ s.bit R.hingeStatus F.hingeStatus_peerLead = false ∨ s.link < 2)) ∧
    (let s : State := State.reset; let s : State := s.setFld R.sysStraps F.sysStraps_twinRole 1;
     let s : State := s.setBit R.hingeStatus F.hingeStatus_peerLead true; let s : State := s.setFld R.hingeStatus F.hingeStatus_link 2;
     let s : State := s.setFld R.sysStraps F.sysStraps_twinRole 1; let s : State := s.setBit R.hingeStatus F.hingeStatus_lead true; s.role ≠ 0 ∧
     s.isLead = true ∧ s.bit R.hingeStatus F.hingeStatus_peerLead = true ∧ 2 ≤ s.link) ∧
    (let v : Word := 0; let s : State := State.reset; let s : State := s.setBit R.hingeCfg F.hingeCfg_en true;
     s.bit R.hingeCfg F.hingeCfg_en = true ∧ v.getLsbD 0 = false) ∧
    (let v : Word := 0; let s : State := State.reset; let s : State := s.setBit R.hingeCfg F.hingeCfg_en true;
     let s : State := s.setFld R.hingeStatus F.hingeStatus_link 1; s.bit R.hingeCfg F.hingeCfg_en = true ∧ v.getLsbD 0 = false ∧ s.link ≠ 0) ∧
    (let v : Word := 1; let s : State := State.reset; let s : State := s.setFld R.hingeStatus F.hingeStatus_link 0; v.getLsbD 0 = true ∧ s.link = 0 ∧
     s.restarting Src.hinge = false) ∧
    (let v : Word := 0; let s : State := State.reset; let s : State := s.setFld R.hingeStatus F.hingeStatus_link 1;
     v.getLsbD 0 = s.bit R.hingeCfg F.hingeCfg_en ∧ s.link ≠ 0) ∧
    (let b : BitVec 512 := 0; let ok : Bool := false; let s : State := State.reset; let s : State := s.setFld R.hingeStatus F.hingeStatus_link 2;
     let s : State := s.setFld R.hingeStatus F.hingeStatus_link 3; s.blockTurn b ∧
     ok = (decide ((b.extractLsb' 488 16).toNat = s.fld R.hingePair F.hingePair_pairId) && b.extractLsb' 488 16 != 0 && s.role != 0 && decide ((b.extractLsb' 486 2).toNat = 3 - s.role)) ∧
     2 ≤ s.link ∧ ok = false ∧ s.link = 3) ∧
    (let b : BitVec 512 := 0; let s : State := State.reset; s.blockTurn b ∧ s.isLead = true) ∧
    (let b : BitVec 512 := 0; let f : Nat := 0; let s : State := State.reset; s.blockTurn b ∧
     (∀ k, k < bitsOf b.toNat 503 501 → f ≠ bitsOf b.toNat (447 - 64 * k) (428 - 64 * k))) ∧
    (let k : Nat := 0; let e : Nat × Nat := (3, 7); let s : State := State.reset; let s : State := s.setFld R.hingeStatus F.hingeStatus_link 3;
     let s : State := { s with twin := { s.twin with updates := [(3, 7), (9, 65535)] } }; s.twin.updates ≠ [] ∧ s.twin.updates.length ≤ 7 ∧
     s.link = 3 ∧ s.twin.updates[k]? = some e) ∧
    (let b : BitVec 512 := 0; let s : State := State.reset; let s : State := s.setFld R.hingeStatus F.hingeStatus_link 3;
     let s : State := s.setFld R.sysStraps F.sysStraps_twinRole 1; let s : State := s.setBit R.hingeStatus F.hingeStatus_peerLead false;
     let s : State := { s with twin := { s.twin with bulk := none } }; let s : State := s.setBit R.hingeStatus F.hingeStatus_lead true;
     let s : State := s.setFld R.sysStraps F.sysStraps_twinRole 1; let s : State := s.setFld R.hingeStatus F.hingeStatus_link 3; s.blockTurn b ∧
     s.link = 3 ∧ s.role ≠ 0 ∧ s.isLead = true ∧ s.bit R.hingeStatus F.hingeStatus_peerLead = false ∧ s.twin.bulk = none) ∧
    (let b : BitVec 512 := 0; let s : State := State.reset; s.blockTurn b ∧
     (s.link ≠ 3 ∨ s.role = 0 ∨ s.isLead = false ∨ s.bit R.hingeStatus F.hingeStatus_peerLead = true ∨ s.twin.bulk ≠ none)) ∧
    (let s : State := State.reset; let s : State := s.setFld R.hingeStatus F.hingeStatus_link 1; s.link ≠ 0 ∧ s.hingeLoop (s.twin.txSeq % 4) ≠ 2) ∧
    (let s : State := State.reset; let s : State := s.setFld R.hingeStatus F.hingeStatus_link 1;
     let s : State := { s with twin := { s.twin with blocks := [5] } }; s.link ≠ 0 ∧ s.twin.blocks ≠ []) ∧
    (let j : Nat := 0; let b : BitVec 512 := 5; let s : State := State.reset; let s : State := s.setFld R.hingeStatus F.hingeStatus_link 1;
     let s : State := { s with twin := { s.twin with blocks := [5] } }; s.link ≠ 0 ∧ s.twin.blocks ≠ [] ∧ j < 10 ∧ s.twin.blocks[j]? = some b) ∧
    (let s : State := State.reset; let s : State := s.setFld R.hingeStatus F.hingeStatus_link 1;
     let s : State := { s with twin := { s.twin with blocks := [] } }; let s : State := { s with twin := { s.twin with bulk := none } }; s.link ≠ 0 ∧
     s.twin.blocks = [] ∧ s.twin.bulk = none) ∧
    (let k : Nat := 0; let s : State := State.reset; let s : State := s.setFld R.hingeStatus F.hingeStatus_link 1;
     let s : State := { s with twin := { s.twin with blocks := [] } }; let s : State := { s with twin := { s.twin with bulk := some k } };
     s.link ≠ 0 ∧ s.twin.blocks = [] ∧ s.twin.bulk = some k) ∧
    (let k : Nat := 0; let i : Nat := 0; let s : State := State.reset; let s : State := s.setFld R.hingeStatus F.hingeStatus_link 1;
     let s : State := { s with twin := { s.twin with blocks := [] } }; let s : State := { s with twin := { s.twin with bulk := some k } };
     s.link ≠ 0 ∧ s.twin.blocks = [] ∧ s.twin.bulk = some k ∧ i < 320 ∧ 320 * k + i < 2 ^ 20) ∧
    (let k : Nat := 0; let s : State := State.reset; let s : State := s.setFld R.hingeStatus F.hingeStatus_link 1;
     let s : State := { s with twin := { s.twin with blocks := [] } }; let s : State := { s with twin := { s.twin with bulk := some k } };
     s.link ≠ 0 ∧ s.twin.blocks = [] ∧ s.twin.bulk = some k ∧ k + 1 < 3277) ∧
    (let k : Nat := 3276; let s : State := State.reset; let s : State := s.setFld R.hingeStatus F.hingeStatus_link 1;
     let s : State := { s with twin := { s.twin with blocks := [] } }; let s : State := { s with twin := { s.twin with bulk := some k } };
     s.link ≠ 0 ∧ s.twin.blocks = [] ∧ s.twin.bulk = some k ∧ 3277 ≤ k + 1) := by
  refine ⟨?_, ?_, ?_, ?_, ?_, ?_, ?_, ?_, ?_, ?_, ?_, ?_, ?_, ?_, ?_, ?_, ?_, ?_, ?_, ?_, ?_, ?_, ?_, ?_⟩
  · decide +kernel
  · decide +kernel
  · decide +kernel
  · decide +kernel
  · decide +kernel
  · decide +kernel
  · decide +kernel
  · decide +kernel
  · decide +kernel
  · decide +kernel
  · delta State.blockTurn; decide +kernel
  · delta State.blockTurn; decide +kernel
  · delta State.blockTurn; decide +kernel
  · decide +kernel
  · delta State.blockTurn; decide +kernel
  · delta State.blockTurn; decide +kernel
  · decide +kernel
  · decide +kernel
  · decide +kernel
  · decide +kernel
  · decide +kernel
  · decide +kernel
  · decide +kernel
  · decide +kernel

/-- Operands and states that meet the hypotheses of `Obligations.HingeLinkMirrorAndLead`, in the order of its clauses. -/
theorem witness_HingeLinkMirrorAndLead_3 :
    (let l : Bool := true; let s : State := State.reset; let s : State := s.setFld R.sysStraps F.sysStraps_twinRole 1;
     let s : State := s.setBit R.sysStraps F.sysStraps_leadSrc true; let s : State := s.setFld (R.pwrDom 29) F.pwrDom_state 2;
     let s : State := s.setBit R.timeStatus F.timeStatus_lpValid true; s.role ≠ 0 ∧ s.pinMode = true ∧ s.domOn 29 = true ∧ s.twin.pinActed ≠ l ∧
     s.lpValid = true) ∧
    (let l : Bool := true; let s : State := State.reset; let s : State := s.setFld R.sysStraps F.sysStraps_twinRole 1;
     let s : State := s.setBit R.sysStraps F.sysStraps_leadSrc true; let s : State := s.setFld (R.pwrDom 29) F.pwrDom_state 2; s.role ≠ 0 ∧
     s.pinMode = true ∧ s.domOn 29 = true ∧ s.twin.pinActed ≠ l ∧ s.lpValid = false) ∧
    (let l : Bool := true; let s : State := State.reset; let s : State := s.setFld R.sysStraps F.sysStraps_twinRole 1;
     let s : State := s.setBit R.sysStraps F.sysStraps_leadSrc true; let s : State := s.setFld (R.pwrDom 29) F.pwrDom_state 2; s.role ≠ 0 ∧
     s.pinMode = true ∧ s.domOn 29 = true ∧ s.twin.pinActed ≠ l ∧ s.lpValid = false ∧ s.isLead ≠ l) ∧
    (let l : Bool := true; let s : State := State.reset; let s : State := s.setFld R.sysStraps F.sysStraps_twinRole 1;
     let s : State := s.setBit R.sysStraps F.sysStraps_leadSrc true; let s : State := s.setFld (R.pwrDom 29) F.pwrDom_state 2; s.role ≠ 0 ∧
     s.pinMode = true ∧ s.domOn 29 = true ∧ s.twin.pinActed ≠ l ∧ s.lpValid = false ∧ s.isLead ≠ l ∧ l = true) ∧
    (let l : Bool := false; let s : State := State.reset; let s : State := s.setFld R.sysStraps F.sysStraps_twinRole 1;
     let s : State := s.setBit R.sysStraps F.sysStraps_leadSrc true; let s : State := s.setFld (R.pwrDom 29) F.pwrDom_state 2;
     let s : State := { s with twin := { s.twin with pinActed := true } }; let s : State := s.setBit R.hingeStatus F.hingeStatus_lead true;
     s.role ≠ 0 ∧ s.pinMode = true ∧ s.domOn 29 = true ∧ s.twin.pinActed ≠ l ∧ s.lpValid = false ∧ s.isLead ≠ l ∧ l = false) ∧
    (let m : Msg := dMsg; let s : State := State.reset; let s : State := s.setFld R.sysStraps F.sysStraps_twinRole 1;
     let s : State := s.setBit R.timeStatus F.timeStatus_lpValid true; let b : Bool := (bodyField m.body 8 47 38 == s.fld R.dfpIdent F.dfpIdent_tid);
     m.parcel = false ∧ 8 ≤ m.body.length ∧ b = (bodyField m.body 8 47 38 == s.fld R.dfpIdent F.dfpIdent_tid) ∧ s.role ≠ 0 ∧ s.pinMode = false ∧
     bodyField m.body 8 63 48 = s.fld R.hingePair F.hingePair_pairId ∧ s.lpValid = true) ∧
    (let m : Msg := dMsg; let s : State := State.reset; let s : State := s.setFld R.sysStraps F.sysStraps_twinRole 1;
     let b : Bool := (bodyField m.body 8 47 38 == s.fld R.dfpIdent F.dfpIdent_tid); m.parcel = false ∧ 8 ≤ m.body.length ∧
     b = (bodyField m.body 8 47 38 == s.fld R.dfpIdent F.dfpIdent_tid) ∧ s.role ≠ 0 ∧ s.pinMode = false ∧
     bodyField m.body 8 63 48 = s.fld R.hingePair F.hingePair_pairId ∧ s.lpValid = false) := by
  refine ⟨?_, ?_, ?_, ?_, ?_, ?_, ?_⟩ <;> decide +kernel

/-- Operands and states that meet the hypotheses of `Obligations.PreuraRunsAndServes`, in the order of its clauses. -/
theorem witness_PreuraRunsAndServes_1 :
    (let s : State := State.reset; let s : State := { s with pwr := { s.pwr with porst := true } }; (s.pwr.porst = true ∨ (s.preuraState ≠ 0 ∧
     s.preuraState ≠ 4))) ∧
    (let s : State := State.reset; let s : State := { s with pwr := { s.pwr with porst := false } }; let s : State := s.setPreura 0;
     let s : State := s.setBit R.sysStraps F.sysStraps_bootSrc true; s.pwr.porst = false ∧ (s.preuraState = 0 ∨ s.preuraState = 4) ∧
     (s.bit R.sysStraps F.sysStraps_bootSrc = true ∨ (s.slotRuns 0 = false ∧ s.slotRuns 1 = false))) ∧
    (let k := 0; let s : State := State.reset; let s : State := { s with pwr := { s.pwr with porst := false } }; let s : State := s.setPreura 0;
     let s : State := s.setBit R.sysStraps F.sysStraps_bootSrc false; let s : State := s.goodSlot 0 3; s.pwr.porst = false ∧
     (s.preuraState = 0 ∨ s.preuraState = 4) ∧ k < 2 ∧ s.bit R.sysStraps F.sysStraps_bootSrc = false ∧ s.slotRuns k = true ∧
     (s.slotRuns (1 - k) = false ∨ s.slotGen (1 - k) < s.slotGen k ∨ (s.slotGen (1 - k) = s.slotGen k ∧ k = 0))) ∧
    (let n : Fin 55 := 1; let s : State := State.reset; s.sensorOn n = false) ∧
    (let n : Fin 55 := 1; let s : State := State.reset; let s : State := s.setFld (R.pwrDom 5) F.pwrDom_state 2; s.sensorOn n = true) ∧
    (let s : State := State.reset; s.firmware = false) ∧
    (let s : State := State.reset; s.firmware = false) ∧
    (let s : State := State.reset; s.firmware = false) ∧
    (let s : State := State.reset; s.firmware = false) ∧
    (let s : State := State.reset; s.firmware = false) ∧
    (let s : State := State.reset; s.firmware = false) ∧
    (let s : State := State.reset; s.firmware = false) ∧
    (let s : State := State.reset; s.firmware = false) ∧
    (let s : State := State.reset; s.firmware = false) ∧
    (let s : State := State.reset; s.firmware = false) ∧
    (let s : State := State.reset; let s : State := s.setPreura 1; s.firmware = true) ∧
    (let s : State := State.reset; let s : State := s.setPreura 1; let s : State := { s with preura := { s.preura with readings := [(3, 840)] } };
     let n := s.fld R.pwrDegrade F.pwrDegrade_level; s.firmware = true ∧ n = s.fld R.pwrDegrade F.pwrDegrade_level ∧ n < 3 ∧ (∃ x ∈ s.temps, 840 ≤ x)) ∧
    (let n := 3; let s : State := State.reset; let s : State := s.setPreura 1; let s : State := s.setFld R.pwrDegrade F.pwrDegrade_level 3;
     s.firmware = true ∧ n = s.fld R.pwrDegrade F.pwrDegrade_level ∧ (n = 3 ∨ ∀ x ∈ s.temps, x < 840)) ∧
    (let n := 2; let s : State := State.reset; let s : State := s.setPreura 1; let s : State := s.setFld R.pwrDegrade F.pwrDegrade_level 2;
     s.firmware = true ∧ n = s.fld R.pwrDegrade F.pwrDegrade_level ∧ 0 < n ∧ (∀ x ∈ s.temps, x ≤ 800)) ∧
    (let n := 0; let s : State := State.reset; let s : State := s.setPreura 1; s.firmware = true ∧ n = s.fld R.pwrDegrade F.pwrDegrade_level ∧
     (n = 0 ∨ ∃ x ∈ s.temps, 800 < x)) ∧
    (let e : LogEntry := dLog; let l : List LogEntry := []; let s : State := State.reset; let s : State := s.setPreura 1;
     let s : State := s.setBit R.mboxStatus F.mboxStatus_sealed false; let s : State := { s with preura := { s.preura with logQueue := [dLog] } };
     s.firmware = true ∧ s.bit R.mboxStatus F.mboxStatus_sealed = false ∧ s.takePower.preura.logQueue = e :: l) ∧
    (let v : Word := 2; let s : State := State.reset; let s : State := s.setBit R.mboxToCtl F.mboxToCtl_full true;
     s.bit R.mboxToCtl F.mboxToCtl_full = true ∧ v.getLsbD 1 = true) ∧
    (let v : Word := 0; let s : State := State.reset; let s : State := s.setBit R.mboxToCtl F.mboxToCtl_full true;
     s.bit R.mboxToCtl F.mboxToCtl_full = true ∧ v.getLsbD 1 = false) ∧
    (let s : State := State.reset; let s : State := s.setBit R.mboxToCtl F.mboxToCtl_full false; s.bit R.mboxToCtl F.mboxToCtl_full = false) := by
  refine ⟨?_, ?_, ?_, ?_, ?_, ?_, ?_, ?_, ?_, ?_, ?_, ?_, ?_, ?_, ?_, ?_, ?_, ?_, ?_, ?_, ?_, ?_, ?_, ?_⟩ <;> decide +kernel

/-- Operands and states that meet the hypotheses of `Obligations.PreuraRunsAndServes`, in the order of its clauses. -/
theorem witness_PreuraRunsAndServes_2 :
    (let v : Word := 0; v.getLsbD 1 = false) ∧
    (let v : Word := 2; v.getLsbD 1 = true) ∧
    (let s : State := State.reset; let s : State := s.setBit R.mboxToCtl F.mboxToCtl_full false; s.bit R.mboxToCtl F.mboxToCtl_full = false) ∧
    (let s : State := State.reset; let s : State := s.setPreura 1; let s : State := s.setBit R.mboxToCtl F.mboxToCtl_full true; s.firmware = true ∧
     s.bit R.mboxToCtl F.mboxToCtl_full = true) ∧
    (let s : State := State.reset; let s : State := s.setPreura 3;
     (s.preuraState = 3 ∨ s.bit R.mboxFromCtl F.mboxFromCtl_full = true ∨ s.preura.outbox = [])) ∧
    (let m : MboxMsg := ⟨5, 1, [1]⟩; let l : List MboxMsg := []; let s : State := State.reset;
     let s : State := s.setBit R.mboxFromCtl F.mboxFromCtl_full false; let s : State := { s with preura := { s.preura with outbox := m :: l } };
     s.preuraState ≠ 3 ∧ s.bit R.mboxFromCtl F.mboxFromCtl_full = false ∧ s.preura.outbox = m :: l) ∧
    (let a : List MboxMsg := []; let m : MboxMsg := ⟨5, 1, [1]⟩; let b : List MboxMsg := []; let s : State := State.reset;
     let s : State := s.setPreura 1; let s : State := { s with preura := { s.preura with inbox := a ++ m :: b } }; s.firmware = true ∧
     s.preura.inbox = a ++ m :: b ∧ (∀ x ∈ a, x.kind ≠ m.kind) ∧ m.kind = 1) ∧
    (let a : List MboxMsg := []; let m : MboxMsg := ⟨5, 2, [1, 0, 0, 4]⟩; let b : List MboxMsg := []; let s : State := State.reset;
     let s : State := s.setPreura 1; let s : State := { s with preura := { s.preura with inbox := a ++ m :: b } }; s.firmware = true ∧
     s.preura.inbox = a ++ m :: b ∧ (∀ x ∈ a, x.kind ≠ m.kind) ∧ m.kind = 2) ∧
    (let a : List MboxMsg := []; let m : MboxMsg := ⟨5, 3, [1, 0, 0, 4]⟩; let b : List MboxMsg := []; let s : State := State.reset;
     let s : State := s.setPreura 1; let s : State := { s with preura := { s.preura with inbox := a ++ m :: b } }; s.firmware = true ∧
     s.preura.inbox = a ++ m :: b ∧ (∀ x ∈ a, x.kind ≠ m.kind) ∧ m.kind = 3) ∧
    (let q : Fin 6 := 1; let m : MboxMsg := ⟨5, 1, [1]⟩; let l : List MboxMsg := []; let s : State := State.reset; let s : State := s.setPreura 1;
     let s : State := s.setBus q (m :: l); s.firmware = true ∧ s.busQueue q = m :: l) ∧
    (let q : Fin 6 := 1; let m : MboxMsg := ⟨5, 1, [1]⟩; let l : List MboxMsg := []; let s : State := State.reset; let s : State := s.setPreura 1;
     let s : State := s.setBus q (m :: l); s.firmware = true ∧ s.busQueue q = m :: l) ∧
    (let s : State := State.reset; let s : State := s.setPreura 1; s.firmware = true) ∧
    (let s : State := State.reset; let s : State := { s with preura := { s.preura with swaps := [] } }; s.preura.swaps = []) ∧
    (let r : List Word := []; let l : List (List Word) := []; let s : State := State.reset; let s : State := s.setPreura 1;
     let s : State := { s with preura := { s.preura with swaps := r :: l } }; s.firmware = true ∧ s.preura.swaps = r :: l) ∧
    (let s : State := State.reset; let s : State := s.setPreura 3; (s.preuraState = 3 ∨ s.preuraState = 4)) ∧
    (let s : State := State.reset; let s : State := s.setPreura 3; (s.preuraState = 3 ∨ s.preuraState = 4)) ∧
    (let v : BitVec 4 := 5; let s : State := State.reset; let s : State := { s with preura := { s.preura with kick := 10 } }; s.preuraState ≠ 3 ∧
     s.preuraState ≠ 4 ∧ (v = 5 ∨ v = 10) ∧ v.toNat ≠ s.preura.kick) ∧
    (let s : State := State.reset; s.preuraState ≠ 3 ∧ s.preuraState ≠ 4) ∧
    (let v : Word := 0; let s : State := State.reset; (v.getLsbD 0 = false ∨ s.preuraState = 4)) ∧
    (let v : Word := 1; let s : State := State.reset; v.getLsbD 0 = true ∧ s.preuraState ≠ 4) ∧
    (let s : State := State.reset; let s : State := { s with preura := { s.preura with trial := false } }; s.preura.trial = false) ∧
    (let s : State := State.reset; let s : State := s.setPreura 1; let s : State := { s with preura := { s.preura with trial := true } };
     s.firmware = true ∧ s.preura.trial = true) ∧
    (let k := 0; let s : State := State.reset; let s : State := { s with pwr := { s.pwr with porst := false } }; let s : State := s.setPreura 0;
     let s : State := s.setBit R.sysStraps F.sysStraps_bootSrc false; let s : State := s.goodSlot 0 3; s.pwr.porst = false ∧
     (s.preuraState = 0 ∨ s.preuraState = 4) ∧ k < 2 ∧ s.bit R.sysStraps F.sysStraps_bootSrc = false ∧ s.slotRuns k = true ∧
     (s.slotRuns (1 - k) = false ∨ s.slotGen (1 - k) < s.slotGen k ∨ (s.slotGen (1 - k) = s.slotGen k ∧ k = 0)) ∧ s.preura.logQueue.length < 1024) ∧
    (let n : Fin 55 := 1; let x : Int := 0; let c : Nat := 0; let s : State := State.reset; let s : State := s.setFld (R.pwrDom 5) F.pwrDom_state 2;
     s.sensorOn n = true ∧ Tbl.get (fun _ => ((0 : Int), (0 : Nat))) s.preura.samples n = (x, c)) := by
  refine ⟨?_, ?_, ?_, ?_, ?_, ?_, ?_, ?_, ?_, ?_, ?_, ?_, ?_, ?_, ?_, ?_, ?_, ?_, ?_, ?_, ?_, ?_, ?_, ?_⟩ <;> decide +kernel

/-- Operands and states that meet the hypotheses of `Obligations.PreuraRunsAndServes`, in the order of its clauses. -/
theorem witness_PreuraRunsAndServes_3 :
    (let n : Nat := 3; let a : Nat := R.mboxTemp 0; let i : Nat := 3; let s : State := State.reset; let s : State := s.setPreura 1;
     s.firmware = true ∧ n < 55 ∧ (a, i) = (if n < 24 then (R.mboxTemp (n / 4), n % 4) else (R.mboxVolt ((n - 24) / 4), (n - 24) % 4)) ∧
     s.sensorOn n = false) ∧
    (let n : Nat := 10; let a : Nat := R.mboxTemp 2; let i : Nat := 2; let x : Int := 40; let c : Nat := 1; let s : State := State.reset;
     let s : State := s.setPreura 1; let s : State := s.setFld (R.pwrDom 3) F.pwrDom_state 2;
     let s : State := { s with preura := { s.preura with samples := [(10, ((40 : Int), (2 : Nat)))] } }; s.firmware = true ∧ n < 55 ∧
     (a, i) = (if n < 24 then (R.mboxTemp (n / 4), n % 4) else (R.mboxVolt ((n - 24) / 4), (n - 24) % 4)) ∧ s.sensorOn n = true ∧
     Tbl.get (fun _ => ((0 : Int), (0 : Nat))) s.preura.samples n = (x, c + 1)) ∧
    (let s : State := State.reset; let s : State := s.setPreura 1; let s : State := { s with preura := { s.preura with readings := [(3, 840)] } };
     let n := s.fld R.pwrDegrade F.pwrDegrade_level; s.firmware = true ∧ n = s.fld R.pwrDegrade F.pwrDegrade_level ∧ n < 3 ∧
     (∃ x ∈ s.temps, 840 ≤ x) ∧ s.preura.outbox.length < 16) ∧
    (let n := 2; let s : State := State.reset; let s : State := s.setPreura 1; let s : State := s.setFld R.pwrDegrade F.pwrDegrade_level 2;
     s.firmware = true ∧ n = s.fld R.pwrDegrade F.pwrDegrade_level ∧ 0 < n ∧ (∀ x ∈ s.temps, x ≤ 800) ∧ s.preura.outbox.length < 16) ∧
    (let e : LogEntry := dLog; let l : List LogEntry := []; let s : State := State.reset; let s : State := s.setPreura 1;
     let s : State := s.setBit R.mboxStatus F.mboxStatus_sealed false; let s : State := { s with preura := { s.preura with logQueue := [dLog] } };
     s.firmware = true ∧ s.bit R.mboxStatus F.mboxStatus_sealed = false ∧ s.takePower.preura.logQueue = e :: l ∧ s.takePower.preura.logDropped = 0) ∧
    (let e : LogEntry := dLog; let l : List LogEntry := []; let s : State := State.reset; let s : State := s.setPreura 1;
     let s : State := s.setBit R.mboxStatus F.mboxStatus_sealed false; let s : State := { s with pwr := { s.pwr with log := [] } };
     let s : State := { s with preura := { s.preura with logQueue := [dLog] } }; s.firmware = true ∧ s.bit R.mboxStatus F.mboxStatus_sealed = false ∧
     s.takePower.preura.logQueue = e :: l ∧ s.pwr.log = []) ∧
    (let e : LogEntry := dLog; let l : List LogEntry := []; let s : State := State.reset; let s : State := s.setPreura 1;
     let s : State := s.setBit R.mboxStatus F.mboxStatus_sealed false; let s : State := { s with preura := { s.preura with logQueue := [dLog] } };
     let s : State := { s with preura := { s.preura with logNext := 3 } }; s.firmware = true ∧ s.bit R.mboxStatus F.mboxStatus_sealed = false ∧
     s.takePower.preura.logQueue = e :: l ∧ s.preura.logNext % 1024 ≠ 0) ∧
    (let k : Nat := 2; let s : State := State.reset; let s : State := s.setPreura 1; let s : State := s.setBit R.mboxToCtl F.mboxToCtl_full true;
     let s : State := s.setFld R.mboxToCtl F.mboxToCtl_type 2; s.firmware = true ∧ s.bit R.mboxToCtl F.mboxToCtl_full = true ∧
     k = s.fld R.mboxToCtl F.mboxToCtl_type ∧ 1 ≤ k ∧ k ≤ 3) ∧
    (let k : Nat := 0; let s : State := State.reset; let s : State := s.setPreura 1; let s : State := s.setBit R.mboxToCtl F.mboxToCtl_full true;
     s.firmware = true ∧ s.bit R.mboxToCtl F.mboxToCtl_full = true ∧ k = s.fld R.mboxToCtl F.mboxToCtl_type ∧ (k = 0 ∨ 3 < k)) ∧
    (let k : Nat := 0; let s : State := State.reset; let s : State := s.setPreura 1; let s : State := s.setBit R.mboxToCtl F.mboxToCtl_full true;
     s.firmware = true ∧ s.bit R.mboxToCtl F.mboxToCtl_full = true ∧ k = s.fld R.mboxToCtl F.mboxToCtl_type ∧ (k = 0 ∨ 3 < k) ∧
     s.preura.outbox.length < 16) ∧
    (let m : MboxMsg := ⟨5, 2, List.replicate 16 7⟩; let l : List MboxMsg := []; let k : Nat := 1; let s : State := State.reset;
     let s : State := s.setBit R.mboxFromCtl F.mboxFromCtl_full false; let s : State := { s with preura := { s.preura with outbox := m :: l } };
     s.preuraState ≠ 3 ∧ s.bit R.mboxFromCtl F.mboxFromCtl_full = false ∧ s.preura.outbox = m :: l ∧ k < 32 ∧ 8 * k + 8 ≤ m.body.length) ∧
    (let a : List MboxMsg := []; let m : MboxMsg := ⟨5, 1, [1]⟩; let b : List MboxMsg := []; let s : State := State.reset;
     let s : State := s.setPreura 1; let s : State := { s with preura := { s.preura with inbox := a ++ m :: b } }; s.firmware = true ∧
     s.preura.inbox = a ++ m :: b ∧ (∀ x ∈ a, x.kind ≠ m.kind) ∧ m.kind = 1 ∧ m.body.length ≤ 32 ∧ s.preura.logQueue.length < 1024) ∧
    (let a : List MboxMsg := []; let m : MboxMsg := ⟨5, 1, List.replicate 40 7⟩; let b : List MboxMsg := []; let s : State := State.reset;
     let s : State := s.setPreura 1; let s : State := { s with preura := { s.preura with inbox := a ++ m :: b } }; s.firmware = true ∧
     s.preura.inbox = a ++ m :: b ∧ (∀ x ∈ a, x.kind ≠ m.kind) ∧ m.kind = 1 ∧ 32 < m.body.length ∧ s.preura.outbox.length < 16) ∧
    (let a : List MboxMsg := []; let m : MboxMsg := ⟨5, 2, [1, 0, 0, 4]⟩; let b : List MboxMsg := []; let s : State := State.reset;
     let s : State := s.setPreura 1; let s : State := { s with preura := { s.preura with inbox := a ++ m :: b } }; s.firmware = true ∧
     s.preura.inbox = a ++ m :: b ∧ (∀ x ∈ a, x.kind ≠ m.kind) ∧ m.kind = 2 ∧ oeOk m.body = true) ∧
    (let a : List MboxMsg := []; let m : MboxMsg := ⟨5, 2, []⟩; let b : List MboxMsg := []; let s : State := State.reset;
     let s : State := s.setPreura 1; let s : State := { s with preura := { s.preura with inbox := a ++ m :: b } }; s.firmware = true ∧
     s.preura.inbox = a ++ m :: b ∧ (∀ x ∈ a, x.kind ≠ m.kind) ∧ m.kind = 2 ∧ oeOk m.body = false) ∧
    (let a : List MboxMsg := []; let m : MboxMsg := ⟨5, 2, []⟩; let b : List MboxMsg := []; let s : State := State.reset;
     let s : State := s.setPreura 1; let s : State := { s with preura := { s.preura with inbox := a ++ m :: b } }; s.firmware = true ∧
     s.preura.inbox = a ++ m :: b ∧ (∀ x ∈ a, x.kind ≠ m.kind) ∧ m.kind = 2 ∧ oeOk m.body = false ∧ s.preura.outbox.length < 16) ∧
    (let q : Fin 6 := 1; let m : MboxMsg := ⟨5, 1, [1]⟩; let l : List MboxMsg := []; let s : State := State.reset; let s : State := s.setPreura 1;
     let s : State := s.setBus q (m :: l); s.firmware = true ∧ s.busQueue q = m :: l ∧ s.preura.outbox.length < 16) ∧
    (let q : Fin 6 := 1; let m : MboxMsg := ⟨5, 1, [1]⟩; let l : List MboxMsg := []; let s : State := State.reset; let s : State := s.setPreura 1;
     let s : State := s.setBus q (m :: l); s.firmware = true ∧ s.busQueue q = m :: l ∧ s.preura.outbox.length < 16 ∧ s.preura.logQueue.length < 1024) ∧
    (let s : State := State.reset; let s : State := s.setPreura 1; s.firmware = true ∧ s.preura.outbox.length < 16 ∧ s.preura.logQueue.length < 1024) ∧
    (let r : List Word := []; let l : List (List Word) := []; let s : State := State.reset; let s : State := s.setPreura 1;
     let s : State := { s with preura := { s.preura with swaps := r :: l } }; s.firmware = true ∧ s.preura.swaps = r :: l ∧
     s.preura.logQueue.length < 1024) ∧
    (let s : State := State.reset; let s : State := s.setFld (R.pwrDom 0) F.pwrDom_state 2; s.preuraState ≠ 3 ∧ s.preuraState ≠ 4 ∧ s.domOn 0 = true) ∧
    (let s : State := State.reset; let s : State := s.setPreura 1; let s : State := { s with preura := { s.preura with trial := true } };
     s.firmware = true ∧ s.preura.trial = true ∧ s.preura.outbox.length < 16) := by
  refine ⟨?_, ?_, ?_, ?_, ?_, ?_, ?_, ?_, ?_, ?_, ?_, ?_, ?_, ?_, ?_, ?_, ?_, ?_, ?_, ?_, ?_, ?_⟩ <;> decide +kernel

/-- Operands and states that meet the hypotheses of `Obligations.ManagementPortAndCommands`, in the order of its clauses. -/
theorem witness_ManagementPortAndCommands_1 :
    (let s : State := State.reset; let s : State := { s with pwr := { s.pwr with porst := true } }; s.pwr.porst = true) ∧
    (let s : State := State.reset; let s : State := { s with pwr := { s.pwr with porst := true } }; s.pwr.porst = true) ∧
    (let s : State := State.reset; let s : State := { s with pwr := { s.pwr with porst := true } }; s.pwr.porst = true) ∧
    (let s : State := State.reset; let s : State := { s with pwr := { s.pwr with porst := true } }; s.pwr.porst = true) ∧
    (let s : State := State.reset; let s : State := { s with pwr := { s.pwr with porst := true } }; s.pwr.porst = true) ∧
    (let s : State := State.reset; let s : State := { s with pwr := { s.pwr with porst := true } }; s.pwr.porst = true) ∧
    (let s : State := State.reset; let s : State := { s with pwr := { s.pwr with porst := true } }; s.pwr.porst = true) ∧
    (let s : State := State.reset; let s : State := { s with pwr := { s.pwr with porst := true } }; s.pwr.porst = true) ∧
    (let s : State := State.reset; let s : State := { s with pwr := { s.pwr with porst := true } }; s.pwr.porst = true) ∧
    (let s : State := State.reset; let s : State := { s with pwr := { s.pwr with porst := false } }; s.pwr.porst = false) ∧
    (let s : State := State.reset; let s : State := { s with pwr := { s.pwr with porst := false } }; s.pwr.porst = false) ∧
    (let s : State := State.reset; let s : State := { s with pwr := { s.pwr with porst := false } }; s.pwr.porst = false) ∧
    (let s : State := State.reset; let s : State := { s with pwr := { s.pwr with porst := false } }; s.pwr.porst = false) ∧
    (let v : Word := 0; let s : State := State.reset; let s : State := { s with pwr := { s.pwr with porst := false } }; s.pwr.porst = false ∧
     v ≠ 0xA5C3) ∧
    (let v : Word := 0xA5C3; let s : State := State.reset; let s : State := { s with pwr := { s.pwr with porst := false } }; s.pwr.porst = false ∧
     v = 0xA5C3 ∧ s.preuraState ≠ 4) ∧
    (let op : Byte := 0x10; let s : State := State.reset; let s : State := { s with pwr := { s.pwr with porst := false } }; s.pwr.porst = false ∧
     op.toNat ∈ [0x10, 0x11, 0x20, 0x21, 0x31, 0x3C, 0x5A]) ∧
    (let op : Byte := 0; let s : State := State.reset; let s : State := { s with pwr := { s.pwr with porst := false } }; s.pwr.porst = false ∧
     op.toNat ∉ [0x10, 0x11, 0x20, 0x21, 0x31, 0x3C, 0x5A]) ∧
    (let s : State := State.reset; let s : State := { s with pwr := { s.pwr with porst := false } };
     let s : State := { s with preura := { s.preura with mpReady := false } }; s.pwr.porst = false ∧ s.preura.mpReady = false) ∧
    (let s : State := State.reset; let s : State := { s with pwr := { s.pwr with porst := false } };
     let s : State := { s with preura := { s.preura with mpReady := false } }; s.pwr.porst = false ∧ s.preura.mpReady = false) ∧
    (let s : State := State.reset; let s : State := { s with pwr := { s.pwr with porst := false } };
     let s : State := { s with preura := { s.preura with mpReady := true } };
     let s : State := { s with preura := { s.preura with mpAddr := 0x0000000100000000 } }; s.pwr.porst = false ∧ s.preura.mpReady = true ∧
     s.mpReadError = 0) ∧
    (let s : State := State.reset; let s : State := { s with pwr := { s.pwr with porst := false } };
     let s : State := { s with preura := { s.preura with mpReady := true } }; s.pwr.porst = false ∧ s.preura.mpReady = true ∧ s.mpReadError ≠ 0) ∧
    (let s : State := State.reset; let s : State := { s with pwr := { s.pwr with porst := false } };
     let s : State := { s with preura := { s.preura with mpReady := true } }; s.pwr.porst = false ∧ s.preura.mpReady = true ∧
     (s.mpSpace = 0 ∨ (s.mpSpace = 1 ∧ s.firmware = true))) ∧
    (let s : State := State.reset; let s : State := { s with pwr := { s.pwr with porst := false } };
     let s : State := { s with preura := { s.preura with mpReady := true } };
     let s : State := { s with preura := { s.preura with mpAddr := 2 ^ 62 } }; s.pwr.porst = false ∧ s.preura.mpReady = true ∧ 1 ≤ s.mpSpace ∧
     s.preuraState ≠ 1 ∧ s.preuraState ≠ 2) ∧
    (let s : State := State.reset; let s : State := { s with pwr := { s.pwr with porst := false } };
     let s : State := { s with preura := { s.preura with mpReady := true } };
     let s : State := { s with preura := { s.preura with mpAddr := 2 ^ 62 } }; s.pwr.porst = false ∧ s.preura.mpReady = true ∧ s.mpSpace = 1 ∧
     s.firmware = false) := by
  refine ⟨?_, ?_, ?_, ?_, ?_, ?_, ?_, ?_, ?_, ?_, ?_, ?_, ?_, ?_, ?_, ?_, ?_, ?_, ?_, ?_, ?_, ?_, ?_, ?_⟩ <;> decide +kernel

/-- Operands and states that meet the hypotheses of `Obligations.ManagementPortAndCommands`, in the order of its clauses. -/
theorem witness_ManagementPortAndCommands_2 :
    (let s : State := State.reset; let s : State := { s with pwr := { s.pwr with porst := false } };
     let s : State := { s with preura := { s.preura with mpReady := true } }; let s : State := s.setPreura 1;
     let s : State := { s with preura := { s.preura with stageOpen := true } }; let s : State := s.setPreura 2;
     let s : State := { s with preura := { s.preura with mpAddr := 2 ^ 63 } }; s.pwr.porst = false ∧ s.preura.mpReady = true ∧
     (s.firmware = true ∨ s.preuraState = 2) ∧ s.mpSpace = 2 ∧ s.preura.stageOpen = true ∧ s.mpOffset = s.preura.stageOff ∧ s.mpOffset < 458752 ∧
     (s.preuraState = 2 ∨ s.bit R.mboxStatus F.mboxStatus_sealed = false)) ∧
    (let s : State := State.reset; let s : State := { s with pwr := { s.pwr with porst := false } };
     let s : State := { s with preura := { s.preura with mpReady := true } }; let s : State := s.setPreura 1;
     let s : State := { s with preura := { s.preura with stageOpen := false } };
     let s : State := { s with preura := { s.preura with mpAddr := 2 ^ 63 } }; s.pwr.porst = false ∧ s.preura.mpReady = true ∧
     (s.firmware = true ∨ s.preuraState = 2) ∧ s.mpSpace = 2 ∧ (s.preura.stageOpen = false ∨ s.mpOffset ≠ s.preura.stageOff ∨ 458752 ≤ s.mpOffset)) ∧
    (let s : State := State.reset; let s : State := { s with pwr := { s.pwr with porst := false } };
     let s : State := { s with preura := { s.preura with mpReady := true } }; let s : State := s.setPreura 1;
     let s : State := { s with preura := { s.preura with cmdBusy := true } };
     let s : State := { s with preura := { s.preura with mpAddr := 3 * 2 ^ 62 } }; s.pwr.porst = false ∧ s.preura.mpReady = true ∧
     (s.firmware = true ∨ s.preuraState = 2) ∧ s.mpSpace = 3 ∧ s.mpOffset = 0 ∧ s.preura.cmdBusy = true) ∧
    (let v : Word := 1 * 2 ^ 56; let arg : BitVec 56 := 0; let s : State := State.reset;
     let s : State := { s with pwr := { s.pwr with porst := false } }; let s : State := { s with preura := { s.preura with mpReady := true } };
     let s : State := s.setPreura 1; let s : State := { s with preura := { s.preura with cmdBusy := false } };
     let s : State := { s with preura := { s.preura with mpAddr := 3 * 2 ^ 62 } }; s.pwr.porst = false ∧ s.preura.mpReady = true ∧
     (s.firmware = true ∨ s.preuraState = 2) ∧ s.mpSpace = 3 ∧ s.mpOffset = 0 ∧ s.preura.cmdBusy = false ∧ bitsOf v.toNat 63 56 = 1 ∧
     arg = v.setWidth 56) ∧
    (let v : Word := 2 * 2 ^ 56; let arg : BitVec 56 := 0; let s : State := State.reset;
     let s : State := { s with pwr := { s.pwr with porst := false } }; let s : State := { s with preura := { s.preura with mpReady := true } };
     let s : State := s.setPreura 1; let s : State := { s with preura := { s.preura with cmdBusy := false } };
     let s : State := { s with preura := { s.preura with mpAddr := 3 * 2 ^ 62 } }; s.pwr.porst = false ∧ s.preura.mpReady = true ∧
     (s.firmware = true ∨ s.preuraState = 2) ∧ s.mpSpace = 3 ∧ s.mpOffset = 0 ∧ s.preura.cmdBusy = false ∧ bitsOf v.toNat 63 56 = 2 ∧
     arg = v.setWidth 56) ∧
    (let v : Word := 3 * 2 ^ 56; let arg : BitVec 56 := 0; let s : State := State.reset;
     let s : State := { s with pwr := { s.pwr with porst := false } }; let s : State := { s with preura := { s.preura with mpReady := true } };
     let s : State := s.setPreura 1; let s : State := { s with preura := { s.preura with cmdBusy := false } };
     let s : State := { s with preura := { s.preura with mpAddr := 3 * 2 ^ 62 } }; s.pwr.porst = false ∧ s.preura.mpReady = true ∧
     (s.firmware = true ∨ s.preuraState = 2) ∧ s.mpSpace = 3 ∧ s.mpOffset = 0 ∧ s.preura.cmdBusy = false ∧ bitsOf v.toNat 63 56 = 3 ∧
     arg = v.setWidth 56) ∧
    (let v : Word := 4 * 2 ^ 56; let arg : BitVec 56 := 0; let s : State := State.reset;
     let s : State := { s with pwr := { s.pwr with porst := false } }; let s : State := { s with preura := { s.preura with mpReady := true } };
     let s : State := s.setPreura 1; let s : State := { s with preura := { s.preura with cmdBusy := false } };
     let s : State := { s with preura := { s.preura with mpAddr := 3 * 2 ^ 62 } }; s.pwr.porst = false ∧ s.preura.mpReady = true ∧
     (s.firmware = true ∨ s.preuraState = 2) ∧ s.mpSpace = 3 ∧ s.mpOffset = 0 ∧ s.preura.cmdBusy = false ∧ bitsOf v.toNat 63 56 = 4 ∧
     arg = v.setWidth 56) ∧
    (let v : Word := 5 * 2 ^ 56; let arg : BitVec 56 := 0; let s : State := State.reset;
     let s : State := { s with pwr := { s.pwr with porst := false } }; let s : State := { s with preura := { s.preura with mpReady := true } };
     let s : State := s.setPreura 1; let s : State := { s with preura := { s.preura with cmdBusy := false } };
     let s : State := { s with preura := { s.preura with mpAddr := 3 * 2 ^ 62 } }; s.pwr.porst = false ∧ s.preura.mpReady = true ∧
     (s.firmware = true ∨ s.preuraState = 2) ∧ s.mpSpace = 3 ∧ s.mpOffset = 0 ∧ s.preura.cmdBusy = false ∧ bitsOf v.toNat 63 56 = 5 ∧
     arg = v.setWidth 56) ∧
    (let v : Word := 0; let s : State := State.reset; let s : State := { s with pwr := { s.pwr with porst := false } };
     let s : State := { s with preura := { s.preura with mpReady := true } }; let s : State := s.setPreura 1;
     let s : State := { s with preura := { s.preura with cmdBusy := false } };
     let s : State := { s with preura := { s.preura with mpAddr := 3 * 2 ^ 62 } }; s.pwr.porst = false ∧ s.preura.mpReady = true ∧
     (s.firmware = true ∨ s.preuraState = 2) ∧ s.mpSpace = 3 ∧ s.mpOffset = 0 ∧ s.preura.cmdBusy = false ∧
     (bitsOf v.toNat 63 56 = 0 ∨ 5 < bitsOf v.toNat 63 56)) ∧
    (let k := 3; let s : State := State.reset; let s : State := { s with pwr := { s.pwr with porst := false } };
     let s : State := { s with preura := { s.preura with mpReady := true } }; let s : State := s.setPreura 1;
     let s : State := { s with preura := { s.preura with mpAddr := 3 * 2 ^ 62 + 0x418 } }; s.pwr.porst = false ∧ s.preura.mpReady = true ∧
     (s.firmware = true ∨ s.preuraState = 2) ∧ k < 32 ∧ s.mpSpace = 3 ∧ s.mpOffset = 0x400 + 8 * k) ∧
    (let s : State := State.reset; let s : State := { s with pwr := { s.pwr with porst := false } };
     let s : State := { s with preura := { s.preura with mpReady := true } }; s.pwr.porst = false ∧ s.preura.mpReady = true) ∧
    (let s : State := State.reset; let s : State := { s with pwr := { s.pwr with porst := false } };
     let s : State := { s with preura := { s.preura with mpReady := false } };
     let s : State := { s with preura := { s.preura with mpWord := none } }; s.pwr.porst = false ∧ s.preura.mpReady = false ∧ s.preura.mpWord = none) ∧
    (let w : Word := 0; let s : State := State.reset; let s : State := { s with pwr := { s.pwr with porst := false } };
     let s : State := { s with preura := { s.preura with mpReady := false } };
     let s : State := { s with preura := { s.preura with mpWord := some w } }; let s : State := s.setPreura 1; s.pwr.porst = false ∧
     s.preura.mpReady = false ∧ s.preura.mpWord = some w ∧ s.firmware = true) ∧
    (let w : Word := 0; let s : State := State.reset; let s : State := { s with pwr := { s.pwr with porst := false } };
     let s : State := { s with preura := { s.preura with mpReady := false } };
     let s : State := { s with preura := { s.preura with mpWord := some w } }; let s : State := s.setPreura 2; s.pwr.porst = false ∧
     s.preura.mpReady = false ∧ s.preura.mpWord = some w ∧ s.preuraState = 2) ∧
    (let s : State := State.reset; s.preuraState ≠ 1 ∧ s.preuraState ≠ 2) ∧
    (let s : State := State.reset; s.preuraState ≠ 1 ∧ s.preuraState ≠ 2) ∧
    (let s : State := State.reset; s.preuraState ≠ 1 ∧ s.preuraState ≠ 2) ∧
    (let s : State := State.reset; s.preuraState ≠ 1 ∧ s.preuraState ≠ 2) ∧
    (let s : State := State.reset; s.preuraState ≠ 1 ∧ s.preuraState ≠ 2) ∧
    (let s : State := State.reset; let s : State := s.setPreura 1; let s : State := { s with preura := { s.preura with cmdBusy := true } };
     (s.preuraState = 1 ∨ s.preuraState = 2) ∧ s.preura.cmdBusy = true) ∧
    (let s : State := State.reset; let s : State := s.setPreura 1; let s : State := { s with preura := { s.preura with cmdBusy := true } };
     (s.preuraState = 1 ∨ s.preuraState = 2) ∧ s.preura.cmdBusy = true) ∧
    (let s : State := State.reset; let s : State := s.setPreura 1; let s : State := { s with preura := { s.preura with cmdBusy := true } };
     (s.preuraState = 1 ∨ s.preuraState = 2) ∧ s.preura.cmdBusy = true) ∧
    (let s : State := State.reset; let s : State := s.setPreura 1; let s : State := { s with preura := { s.preura with cmdBusy := true } };
     (s.preuraState = 1 ∨ s.preuraState = 2) ∧ s.preura.cmdBusy = true) ∧
    (let s : State := State.reset; let s : State := s.setPreura 1; let s : State := { s with preura := { s.preura with cmdBusy := true } };
     (s.preuraState = 1 ∨ s.preuraState = 2) ∧ s.preura.cmdBusy = true) := by
  refine ⟨?_, ?_, ?_, ?_, ?_, ?_, ?_, ?_, ?_, ?_, ?_, ?_, ?_, ?_, ?_, ?_, ?_, ?_, ?_, ?_, ?_, ?_, ?_, ?_⟩ <;> decide +kernel

/-- Operands and states that meet the hypotheses of `Obligations.ManagementPortAndCommands`, in the order of its clauses. -/
theorem witness_ManagementPortAndCommands_3 :
    (let s : State := State.reset; let s : State := s.setPreura 1; let s : State := { s with preura := { s.preura with cmdBusy := false } };
     s.firmware = true ∧ s.preura.cmdBusy = false) ∧
    (let arg : BitVec 56 := 1024; let n : Nat := 1024; let s : State := State.reset; let s : State := s.setPreura 1;
     let s : State := { s with preura := { s.preura with cmdBusy := false } };
     let s : State := { s with preura := { s.preura with stageOpen := true } };
     let s : State := { s with preura := { s.preura with stageOff := 1024 } }; s.firmware = true ∧ s.preura.cmdBusy = false ∧
     n = bitsOf arg.toNat 31 0 ∧ s.preura.stageOpen = true ∧ n = s.preura.stageOff ∧ lengthOk n = true) ∧
    (let arg : BitVec 56 := 0; let n : Nat := bitsOf arg.toNat 31 0; let s : State := State.reset; let s : State := s.setPreura 1;
     let s : State := { s with preura := { s.preura with cmdBusy := false } };
     let s : State := { s with preura := { s.preura with stageOpen := true } }; s.firmware = true ∧ s.preura.cmdBusy = false ∧
     n = bitsOf arg.toNat 31 0 ∧ s.preura.stageOpen = true ∧ (n ≠ s.preura.stageOff ∨ lengthOk n = false)) ∧
    (let s : State := State.reset; let s : State := s.setPreura 1; let s : State := { s with preura := { s.preura with cmdBusy := false } };
     let s : State := { s with preura := { s.preura with stageOpen := false } }; s.firmware = true ∧ s.preura.cmdBusy = false ∧
     s.preura.stageOpen = false) ∧
    (let s : State := State.reset; let s : State := s.setPreura 1; let s : State := { s with preura := { s.preura with cmdBusy := false } };
     let s : State := s.goodSlot 1 3; s.firmware = true ∧ s.preura.cmdBusy = false ∧ s.slotCommit s.idleSlot = true) ∧
    (let s : State := State.reset; let s : State := s.setPreura 1; let s : State := { s with preura := { s.preura with cmdBusy := false } };
     s.firmware = true ∧ s.preura.cmdBusy = false ∧ s.slotCommit s.idleSlot = false) ∧
    (let s : State := State.reset; let s : State := s.setPreura 1; let s : State := { s with preura := { s.preura with cmdBusy := false } };
     s.firmware = true ∧ s.preura.cmdBusy = false) ∧
    (let s : State := State.reset; let s : State := s.setPreura 1; let s : State := { s with preura := { s.preura with cmdBusy := false } };
     s.firmware = true ∧ s.preura.cmdBusy = false) ∧
    (let s : State := State.reset; let s : State := s.setPreura 2; let s : State := { s with preura := { s.preura with cmdBusy := false } };
     s.preuraState = 2 ∧ s.preura.cmdBusy = false) ∧
    (let s : State := State.reset; let s : State := s.setPreura 2; let s : State := { s with preura := { s.preura with cmdBusy := false } };
     s.preuraState = 2 ∧ s.preura.cmdBusy = false) ∧
    (let s : State := State.reset; let s : State := s.setPreura 2; let s : State := { s with preura := { s.preura with cmdBusy := false } };
     s.preuraState = 2 ∧ s.preura.cmdBusy = false) ∧
    (let s : State := State.reset; let s : State := s.setPreura 2; let s : State := { s with preura := { s.preura with cmdBusy := false } };
     s.preuraState = 2 ∧ s.preura.cmdBusy = false) ∧
    (let arg : BitVec 56 := 1024; let n : Nat := 1024; let s : State := State.reset; let s : State := s.setPreura 2;
     let s : State := { s with preura := { s.preura with cmdBusy := false } };
     let s : State := { s with preura := { s.preura with stageOff := 1024 } }; s.preuraState = 2 ∧ s.preura.cmdBusy = false ∧
     n = bitsOf arg.toNat 31 0 ∧ n = s.preura.stageOff ∧ lengthOk n = true) ∧
    (let arg : BitVec 56 := 0; let n : Nat := bitsOf arg.toNat 31 0; let s : State := State.reset; let s : State := s.setPreura 2;
     let s : State := { s with preura := { s.preura with cmdBusy := false } }; s.preuraState = 2 ∧ s.preura.cmdBusy = false ∧
     n = bitsOf arg.toNat 31 0 ∧ (lengthOk n = false ∨ n ≠ s.preura.stageOff)) ∧
    (let w : Nat := 0; let s : State := State.reset; let s : State := s.setPreura 1;
     let s : State := { s with preura := { s.preura with cmdBusy := false } }; s.firmware = true ∧ s.preura.cmdBusy = false ∧ w < 131072) ∧
    (let s : State := State.reset; let s : State := s.setPreura 1; let s : State := { s with preura := { s.preura with cmdBusy := false } };
     s.firmware = true ∧ s.preura.cmdBusy = false ∧ s.preura.logQueue.length < 1024) ∧
    (let s : State := State.reset; let s : State := s.setPreura 1; let s : State := { s with preura := { s.preura with cmdBusy := false } };
     let s : State := { s with preura := { s.preura with logQueue := List.replicate 1024 dLog } }; s.firmware = true ∧ s.preura.cmdBusy = false ∧
     1024 ≤ s.preura.logQueue.length) := by
  refine ⟨?_, ?_, ?_, ?_, ?_, ?_, ?_, ?_, ?_, ?_, ?_, ?_, ?_, ?_, ?_, ?_, ?_⟩ <;> decide +kernel

/-- Operands and states that meet the hypotheses of `Obligations.CountersDumpsWindowsAndTap`, in the order of its clauses. -/
theorem witness_CountersDumpsWindowsAndTap_1 :
    (let u : Fin 256 := 7; let s : State := State.reset; (unitAssigned u = false ∨ s.unitOn u = false)) ∧
    (let u : Fin 256 := 1; let s : State := State.reset; unitAssigned u = true ∧ s.unitOn u = true) ∧
    (let k : Fin 16 := 1; let s : State := State.reset; let s : State := s.setBit (R.monDumpCtl k) F.monDumpCtl_valid false;
     let f : Nat := s.lpFrame (s.reg (R.monDumpLp k)); let c : Nat := (s.reg (R.monDumpLp k)).toNat % 2 ^ 21;
     let p : Nat := s.fld (R.monDumpCtl k) F.monDumpCtl_period; f = s.lpFrame (s.reg (R.monDumpLp k)) ∧ c = (s.reg (R.monDumpLp k)).toNat % 2 ^ 21 ∧
     p = s.fld (R.monDumpCtl k) F.monDumpCtl_period ∧ s.bit (R.monDumpCtl k) F.monDumpCtl_valid = false) ∧
    (let k : Fin 16 := 1; let s : State := State.reset; let s : State := s.setBit (R.monDumpCtl k) F.monDumpCtl_valid true;
     let f : Nat := s.lpFrame (s.reg (R.monDumpLp k)); let c : Nat := (s.reg (R.monDumpLp k)).toNat % 2 ^ 21;
     let p : Nat := s.fld (R.monDumpCtl k) F.monDumpCtl_period; f = s.lpFrame (s.reg (R.monDumpLp k)) ∧ c = (s.reg (R.monDumpLp k)).toNat % 2 ^ 21 ∧
     p = s.fld (R.monDumpCtl k) F.monDumpCtl_period ∧ s.bit (R.monDumpCtl k) F.monDumpCtl_valid = true ∧ s.lpValid = false) ∧
    (let k : Fin 16 := 1; let s : State := State.reset; let s : State := s.setBit (R.monDumpCtl k) F.monDumpCtl_valid true;
     let s : State := s.setBit R.timeStatus F.timeStatus_lpValid true; let s : State := s.setReg (R.monDumpLp k) 0x200000;
     let f : Nat := s.lpFrame (s.reg (R.monDumpLp k)); let c : Nat := (s.reg (R.monDumpLp k)).toNat % 2 ^ 21;
     let p : Nat := s.fld (R.monDumpCtl k) F.monDumpCtl_period; f = s.lpFrame (s.reg (R.monDumpLp k)) ∧ c = (s.reg (R.monDumpLp k)).toNat % 2 ^ 21 ∧
     p = s.fld (R.monDumpCtl k) F.monDumpCtl_period ∧ s.bit (R.monDumpCtl k) F.monDumpCtl_valid = true ∧ s.lpValid = true ∧ s.lpPassed f c = false) ∧
    (let k : Fin 16 := 1; let s : State := State.reset; let s : State := s.setBit (R.monDumpCtl k) F.monDumpCtl_valid true;
     let s : State := s.setBit R.timeStatus F.timeStatus_lpValid true; let f : Nat := s.lpFrame (s.reg (R.monDumpLp k));
     let c : Nat := (s.reg (R.monDumpLp k)).toNat % 2 ^ 21; let p : Nat := s.fld (R.monDumpCtl k) F.monDumpCtl_period;
     f = s.lpFrame (s.reg (R.monDumpLp k)) ∧ c = (s.reg (R.monDumpLp k)).toNat % 2 ^ 21 ∧ p = s.fld (R.monDumpCtl k) F.monDumpCtl_period ∧
     s.bit (R.monDumpCtl k) F.monDumpCtl_valid = true ∧ s.lpValid = true ∧ s.lpPassed f c = true) ∧
    (let k : Fin 16 := 1; let s : State := State.reset; s.dumpBuilt k = none) ∧
    (let k : Fin 16 := 1; let x : Pkt := dPkt; let s : State := State.reset;
     let s : State := { s with mon := { s.mon with built := [(k.val, some x)] } }; s.dumpBuilt k = some x) ∧
    (let u : Fin 256 := 1; let i : Nat := 0; let s : State := State.reset; unitAssigned u = true ∧ s.unitOn u = true ∧ i < 8) ∧
    (let u : Fin 256 := 1; let i : Nat := 0; let s : State := State.reset; unitAssigned u = true ∧ s.unitOn u = true ∧ i < 8 ∧
     cycleCode u (s.evsel u i) = false) ∧
    (let k : Fin 16 := 1; let p : Nat := 0; let s : State := State.reset; let s : State := s.setBit (R.monDumpCtl k) F.monDumpCtl_valid true;
     let s : State := s.setBit R.timeStatus F.timeStatus_lpValid true; let f : Nat := s.lpFrame (s.reg (R.monDumpLp k));
     let c : Nat := (s.reg (R.monDumpLp k)).toNat % 2 ^ 21; f = s.lpFrame (s.reg (R.monDumpLp k)) ∧ c = (s.reg (R.monDumpLp k)).toNat % 2 ^ 21 ∧
     p = s.fld (R.monDumpCtl k) F.monDumpCtl_period ∧ s.bit (R.monDumpCtl k) F.monDumpCtl_valid = true ∧ s.lpValid = true ∧ s.lpPassed f c = true ∧
     p = 0) ∧
    (let k : Fin 16 := 1; let p : Nat := 4; let s : State := State.reset; let s : State := s.setBit (R.monDumpCtl k) F.monDumpCtl_valid true;
     let s : State := s.setBit R.timeStatus F.timeStatus_lpValid true; let s : State := s.setFld (R.monDumpCtl k) F.monDumpCtl_period 4;
     let s : State := s.setBit (R.monDumpCtl k) F.monDumpCtl_valid true; let f : Nat := s.lpFrame (s.reg (R.monDumpLp k));
     let c : Nat := (s.reg (R.monDumpLp k)).toNat % 2 ^ 21; f = s.lpFrame (s.reg (R.monDumpLp k)) ∧ c = (s.reg (R.monDumpLp k)).toNat % 2 ^ 21 ∧
     p = s.fld (R.monDumpCtl k) F.monDumpCtl_period ∧ s.bit (R.monDumpCtl k) F.monDumpCtl_valid = true ∧ s.lpValid = true ∧ s.lpPassed f c = true ∧
     p ≠ 0) ∧
    (let k : Fin 16 := 1; let p : Nat := 4; let s : State := State.reset; let s : State := s.setBit (R.monDumpCtl k) F.monDumpCtl_valid true;
     let s : State := s.setBit R.timeStatus F.timeStatus_lpValid true; let s : State := s.setFld (R.monDumpCtl k) F.monDumpCtl_period 4;
     let s : State := s.setBit (R.monDumpCtl k) F.monDumpCtl_valid true; let f : Nat := s.lpFrame (s.reg (R.monDumpLp k));
     let c : Nat := (s.reg (R.monDumpLp k)).toNat % 2 ^ 21; f = s.lpFrame (s.reg (R.monDumpLp k)) ∧ c = (s.reg (R.monDumpLp k)).toNat % 2 ^ 21 ∧
     p = s.fld (R.monDumpCtl k) F.monDumpCtl_period ∧ s.bit (R.monDumpCtl k) F.monDumpCtl_valid = true ∧ s.lpValid = true ∧ s.lpPassed f c = true ∧
     p ≠ 0 ∧ k.val ∉ s.mon.late) ∧
    (let k : Fin 16 := 1; let p : Nat := 4; let s : State := State.reset; let s : State := s.setBit (R.monDumpCtl k) F.monDumpCtl_valid true;
     let s : State := s.setBit R.timeStatus F.timeStatus_lpValid true; let s : State := s.setFld (R.monDumpCtl k) F.monDumpCtl_period 4;
     let s : State := s.setBit (R.monDumpCtl k) F.monDumpCtl_valid true; let s : State := { s with mon := { s.mon with late := [k.val] } };
     let f : Nat := s.lpFrame (s.reg (R.monDumpLp k)); let c : Nat := (s.reg (R.monDumpLp k)).toNat % 2 ^ 21; f = s.lpFrame (s.reg (R.monDumpLp k)) ∧
     c = (s.reg (R.monDumpLp k)).toNat % 2 ^ 21 ∧ p = s.fld (R.monDumpCtl k) F.monDumpCtl_period ∧ s.bit (R.monDumpCtl k) F.monDumpCtl_valid = true ∧
     s.lpValid = true ∧ s.lpPassed f c = true ∧ p ≠ 0 ∧ k.val ∈ s.mon.late) ∧
    (let k : Fin 16 := 1; let s : State := State.reset; let s : State := s.setBit (R.monDumpCtl k) F.monDumpCtl_valid true;
     let s : State := s.setBit R.timeStatus F.timeStatus_lpValid true; let f : Nat := s.lpFrame (s.reg (R.monDumpLp k));
     let c : Nat := (s.reg (R.monDumpLp k)).toNat % 2 ^ 21; let p : Nat := s.fld (R.monDumpCtl k) F.monDumpCtl_period;
     f = s.lpFrame (s.reg (R.monDumpLp k)) ∧ c = (s.reg (R.monDumpLp k)).toNat % 2 ^ 21 ∧ p = s.fld (R.monDumpCtl k) F.monDumpCtl_period ∧
     s.bit (R.monDumpCtl k) F.monDumpCtl_valid = true ∧ s.lpValid = true ∧ s.lpPassed f c = true ∧ s.domOn 5 = false ∧ k.val ∉ s.mon.late) ∧
    (let k : Fin 16 := 1; let s : State := State.reset; let s : State := s.setBit (R.monDumpCtl k) F.monDumpCtl_valid true;
     let s : State := s.setBit R.timeStatus F.timeStatus_lpValid true; let f : Nat := s.lpFrame (s.reg (R.monDumpLp k));
     let c : Nat := (s.reg (R.monDumpLp k)).toNat % 2 ^ 21; let p : Nat := s.fld (R.monDumpCtl k) F.monDumpCtl_period;
     f = s.lpFrame (s.reg (R.monDumpLp k)) ∧ c = (s.reg (R.monDumpLp k)).toNat % 2 ^ 21 ∧ p = s.fld (R.monDumpCtl k) F.monDumpCtl_period ∧
     s.bit (R.monDumpCtl k) F.monDumpCtl_valid = true ∧ s.lpValid = true ∧ s.lpPassed f c = true ∧ s.domOn 5 = false) ∧
    (let k : Fin 16 := 1; let s : State := State.reset; let s : State := s.setBit (R.monDumpCtl k) F.monDumpCtl_valid true;
     let s : State := s.setBit R.timeStatus F.timeStatus_lpValid true; let s : State := s.setFld (R.pwrDom 5) F.pwrDom_state 2;
     let s : State := { s with mon := { s.mon with built := [(k.val, some dPkt)] } }; let s : State := s.setFld (R.pwrDom 5) F.pwrDom_state 2;
     let f : Nat := s.lpFrame (s.reg (R.monDumpLp k)); let c : Nat := (s.reg (R.monDumpLp k)).toNat % 2 ^ 21;
     let p : Nat := s.fld (R.monDumpCtl k) F.monDumpCtl_period; f = s.lpFrame (s.reg (R.monDumpLp k)) ∧ c = (s.reg (R.monDumpLp k)).toNat % 2 ^ 21 ∧
     p = s.fld (R.monDumpCtl k) F.monDumpCtl_period ∧ s.bit (R.monDumpCtl k) F.monDumpCtl_valid = true ∧ s.lpValid = true ∧ s.lpPassed f c = true ∧
     s.domOn 5 = true ∧ s.dumpBuilt k ≠ none) ∧
    (let k : Fin 16 := 1; let s : State := State.reset; let s : State := s.setBit (R.monDumpCtl k) F.monDumpCtl_valid true;
     let s : State := s.setBit R.timeStatus F.timeStatus_lpValid true; let s : State := s.setFld (R.pwrDom 5) F.pwrDom_state 2;
     let s : State := s.setFld (R.pwrDom 5) F.pwrDom_state 2; let f : Nat := s.lpFrame (s.reg (R.monDumpLp k));
     let c : Nat := (s.reg (R.monDumpLp k)).toNat % 2 ^ 21; let p : Nat := s.fld (R.monDumpCtl k) F.monDumpCtl_period;
     let n : Nat := 32 + 88 * (s.dumpUnits k).length; f = s.lpFrame (s.reg (R.monDumpLp k)) ∧ c = (s.reg (R.monDumpLp k)).toNat % 2 ^ 21 ∧
     p = s.fld (R.monDumpCtl k) F.monDumpCtl_period ∧ s.bit (R.monDumpCtl k) F.monDumpCtl_valid = true ∧ s.lpValid = true ∧ s.lpPassed f c = true ∧
     n = 32 + 88 * (s.dumpUnits k).length ∧ s.domOn 5 = true ∧ s.dumpBuilt k = none ∧ s.domTakes 5 = true ∧ s.restarting Src.qm = false ∧
     cellsOf n ≤ s.dieFree .dn) ∧
    (let k : Fin 16 := 1; let s : State := State.reset; let s : State := s.setBit (R.monDumpCtl k) F.monDumpCtl_valid true;
     let s : State := s.setBit R.timeStatus F.timeStatus_lpValid true; let s : State := s.setFld (R.pwrDom 5) F.pwrDom_state 2;
     let s : State := s.setFld (R.pwrDom 5) F.pwrDom_state 2; let s : State := s.setDieUsed .dn (s.poolSize .dn);
     let f : Nat := s.lpFrame (s.reg (R.monDumpLp k)); let c : Nat := (s.reg (R.monDumpLp k)).toNat % 2 ^ 21;
     let p : Nat := s.fld (R.monDumpCtl k) F.monDumpCtl_period; let n : Nat := 32 + 88 * (s.dumpUnits k).length;
     f = s.lpFrame (s.reg (R.monDumpLp k)) ∧ c = (s.reg (R.monDumpLp k)).toNat % 2 ^ 21 ∧ p = s.fld (R.monDumpCtl k) F.monDumpCtl_period ∧
     s.bit (R.monDumpCtl k) F.monDumpCtl_valid = true ∧ s.lpValid = true ∧ s.lpPassed f c = true ∧ n = 32 + 88 * (s.dumpUnits k).length ∧
     s.domOn 5 = true ∧ s.dumpBuilt k = none ∧ (s.domTakes 5 = false ∨ s.restarting Src.qm = true ∨ s.dieFree .dn < cellsOf n)) ∧
    (let k : Fin 16 := 1; let x : Pkt := dPkt; let s : State := State.reset;
     let s : State := { s with mon := { s.mon with built := [(k.val, some x)] } }; s.dumpBuilt k = some x ∧ x.ret = 0) ∧
    (let k : Fin 16 := 1; let x : Pkt := { dPkt with queue := 0x3C00, bytes := List.replicate 60 1 }; let s : State := State.reset;
     let s : State := { s with mon := { s.mon with built := [(k.val, some x)] } }; let s : State := s.setQueue 0x3C00 { desc := 2 ^ 63 + 100 };
     s.dumpBuilt k = some x ∧ qSlowRange x.queue = true ∧ s.admitCause x = none ∧ s.restarting Src.qm = false) ∧
    (let k : Fin 16 := 1; let x : Pkt := dPkt; let s : State := State.reset;
     let s : State := { s with mon := { s.mon with built := [(k.val, some x)] } }; s.dumpBuilt k = some x ∧
     (qSlowRange x.queue = false ∨ (s.admitCause x).isSome = true ∨ s.restarting Src.qm = true)) ∧
    (let k : Fin 16 := 1; let x : Pkt := dPkt; let s : State := State.reset;
     let s : State := { s with mon := { s.mon with built := [(k.val, some x)] } };
     let c : Nat := (if qSlowRange x.queue = false then 1 else if s.restarting Src.qm then 8 else (s.admitCause x).getD 0); s.dumpBuilt k = some x ∧
     (qSlowRange x.queue = false ∨ (s.admitCause x).isSome = true ∨ s.restarting Src.qm = true) ∧
     c = (if qSlowRange x.queue = false then 1 else if s.restarting Src.qm then 8 else (s.admitCause x).getD 0)) ∧
    (let s : State := State.reset; let s : State := { s with tap := { s.tap with phase := .shiftDr, instr := none } }; s.tap.phase = .shiftDr) := by
  refine ⟨?_, ?_, ?_, ?_, ?_, ?_, ?_, ?_, ?_, ?_, ?_, ?_, ?_, ?_, ?_, ?_, ?_, ?_, ?_, ?_, ?_, ?_, ?_, ?_⟩ <;> decide +kernel

/-- Operands and states that meet the hypotheses of `Obligations.CountersDumpsWindowsAndTap`, in the order of its clauses. -/
theorem witness_CountersDumpsWindowsAndTap_2 :
    (let s : State := State.reset; let s : State := { s with tap := { s.tap with phase := .shiftIr, instr := none } }; s.tap.phase = .shiftIr) ∧
    (let s : State := State.reset; let s : State := { s with tap := { s.tap with phase := .captureDr, instr := none } }; s.tap.phase = .captureDr ∧
     s.tap.instr = none) ∧
    (let i : Nat := 3; let s : State := State.reset; let s : State := { s with tap := { s.tap with phase := .captureDr, instr := none } };
     s.tap.phase = .captureDr ∧ s.tap.instr = none ∧ i < 16) ∧
    (let s : State := State.reset; s.tap.phase = .testLogicReset) ∧
    (let s : State := State.reset; let s : State := { s with tap := { s.tap with phase := .updateIr, instr := none } }; s.tap.phase = .updateIr) := by
  refine ⟨?_, ?_, ?_, ?_, ?_⟩ <;> decide +kernel

/-- A state that is not reset, in canonical form, and the step it takes. -/
theorem witness_StepsKeepCanonicalForm :
    let s : State := { State.reset with regs := [(R.lschImgAddr, 5)], mem := [(3, 7)] }
    ∃ t : State, s.regsWf = true ∧ Memory.wf s.mem = true ∧ step s = .next t :=
  ⟨_, by decide +kernel, by decide +kernel, rfl⟩

/-! ## Ill-formed commands -/

/-- Each check of `Instr.wf` refuses a command that breaks it. -/
theorem test_wf_lanes :
    (Instr.codewordRx 1 9708 0 (List.replicate 2736 0)).wf = false ∧ (Instr.codewordRx 1 0 0 (List.replicate 2736 0)).wf = false ∧
    (Instr.codewordRx 1 1 0 (List.replicate 2735 0)).wf = false ∧ (Instr.codewordRx 1 1 0 (4 :: List.replicate 2736 0)).wf = false ∧
    (Instr.hingeCodewordRx (List.replicate 2719 0)).wf = false ∧ (Instr.hingeCodewordRx (4 :: List.replicate 2719 0)).wf = false := by decide +kernel

theorem test_wf_messages :
    (Instr.anchor dMsg).wf = false ∧ (Instr.lateApply dMsg).wf = false ∧ (Instr.lateApply { dMsg with plane := 24, body := [] }).wf = false := by
  decide +kernel

theorem test_wf_packets :
    (Instr.hbmTransfer 0 [.upWr, .upWr, .upWr]).wf = false ∧ (Instr.pfcRx 1 0 [1]).wf = false ∧ (Instr.sdhFrameRx 1 ⟨[]⟩).wf = false ∧
    (Instr.sdhFrameRx 1 ⟨List.replicate 9 [1]⟩).wf = false ∧ (Instr.dccPortFrame 1 [true]).wf = false := by decide +kernel

theorem test_wf_lim :
    (Instr.eventRaise 8192).wf = false ∧ (Instr.ext 1 1 3 1 60 4).wf = false ∧ (Instr.exts 1 1 3 1 60 4).wf = false ∧
    (Instr.ins 1 1 3 1 60 4).wf = false := by decide +kernel

theorem test_wf_host :
    (Instr.cmdFetch false false 0 [1] [1]).wf = false ∧ (Instr.descFetch 1 (some [1]) false false false).wf = false ∧
    (Instr.descDone 1 { dXfer with status := 3 }).wf = false ∧ (Instr.chDrainDone 1 { dXfer with status := 3 }).wf = false ∧
    (Instr.oeXferDone 1 0 (List.replicate 253 0)).wf = false ∧ (Instr.oeAlarm 1 (List.replicate 33 0)).wf = false := by decide +kernel

/-! ## Worked values -/

/-- The first symbols of frame 1,000 on plane 5 (example of 02_medium_lanes.md): scrambler outputs, labels and levels. -/
theorem test_first_symbols :
    seedDown 1000 5 = 0x2F1DFBA6 ∧
    (scramble (seedDown 1000 5) (List.replicate 12 false)).1 = [true, false, true, false, true, true, true, true, true, true, true, false] ∧
    labelsOf (scramble (seedDown 1000 5) (List.replicate 12 false)).1 = [3, 3, 2, 2, 2, 3] ∧
    (sendLabels ⟨0, 1⟩ [3, 3, 2, 2, 2, 3]).1 = [3, 0, 2, 0, 2, 1] := by decide +kernel

/-- The command block of 13_limtin_isa.md: every word of its table decodes to the instruction it stands for. -/
theorem test_limtin_words :
    decodeLim 0x62292002 = some (.ctlw 2 0x92 2) ∧ decodeLim 0x60692002 = some (.ctlr 6 0x92 2) ∧ decodeLim 0x2463000F = some (.andi 6 6 0xF) ∧
    decodeLim 0x22730001 = some (.subi 7 6 1) ∧ decodeLim 0x527FFFFD = some (.bz 7 0xFFFFD) ∧ decodeLim 0x54600007 = some (.bnz 6 7) ∧
    decodeLim 0x62492021 = some (.ctlw 4 0x92 0x21) ∧ decodeLim 0x08230000 = some (.or 2 6 0) ∧ decodeLim 0x72000000 = some .endClause ∧
    decodeLim 0 = none := by decide +kernel

/-- `LI g5, 80000` (13_limtin_isa.md): 80,000 is (4 << 14) OR 0x3880. -/
theorem test_shori :
    let s : State := State.reset.putInstr 1 1 dClause (.shori 5 5 0x3880)
    ∃ t : State, exec (.shori 1 1 5 5 0x3880) (s.setCtx 1 1 { s.ctx 1 1 with g := [(5, 4)] }) = .next t ∧ (t.ctx 1 1).gr 5 = 80000 :=
  ⟨_, rfl, by decide +kernel⟩

/-- The anchor over 12 km with asymmetry (example of 06_time.md): E ends in 250,433,993 ns and fraction 0x999A. -/
theorem test_anchor :
    let s := (((State.reset.setReg (R.timePlaneRtd 5) 0).setFld (R.timePlaneRtd 5) F.timePlaneRtd_rtd 401200000).setFld (R.timePlaneAsym 5)
      F.timePlaneAsym_coeff 0xFFFCAAEC).setFld (R.dfpPlaneOffset 5) F.dfpPlaneOffset_offset 85
    s.anchorTime { dMsg with plane := 5, frame := 12800002, body := beBytes 24 (12800000 * 2 ^ 144 + 1700000000 * 2 ^ 80 + 250000000 * 2 ^ 48) } =
      (1700000000 * 1000000000 + 250433993) * 65536 + 0x999A := by decide +kernel

/-- The window of 44,000 cells under T = 1,024 and GUARD = 256 (example of 04_upstream.md): 400 slots, 1,098,256 symbols. -/
theorem test_window :
    let g : Grant := { dGrant with start := 500000, length := 44000, plane := 2, profile := 1 }
    let s := (State.reset.setFld (R.ubbProfile 2 1) F.ubbProfile_train 1024).setFld (R.ubbProfile 2 1) F.ubbProfile_guard 256
    s.nMax g = 400 ∧ s.burstLen g 400 = 1098256 := by decide +kernel

/-- The profile for untagged IPv4 TCP (example of 07_classification.md): a good profile, with the exact key of its first segment. -/
theorem test_profile :
    let e : ClsEntry := { words := [0x60004017CE1AC622, 0x820E000000000000, 0, 0, 0x8380FF0045008500, 0x3FFF0000858000FF, 0x00068B80F0005000, 0x8000000000000636] }
    let p : Pkt := { dPkt with chan := 7, bytes := List.replicate 12 0 ++ [0x08, 0x00, 0x45, 0, 0, 40, 0, 0, 0, 0, 64, 6, 0, 0, 10, 1, 2, 3, 192, 0, 2, 7,
      0x9C, 0x40, 0x01, 0xBB] ++ List.replicate 8 0 ++ [0x50, 0] ++ List.replicate 12 0 }
    badProfile e = false ∧ e.checks.map (checkFails p) = [false, false, false, false] ∧
    clsKeyBytes p e 0 20 = 0x07060A010203C00002079C4001BB * 2 ^ 48 := by decide +kernel

/-- The check value of CRC-32 of IEEE 802.3 over the nine bytes "123456789" is 0xCBF43926, sent lowest byte first. -/
theorem test_fcs : ethFcs [0x31, 0x32, 0x33, 0x34, 0x35, 0x36, 0x37, 0x38, 0x39] = [0x26, 0x39, 0xF4, 0xCB] := by decide +kernel

/-- AES-256 of FIPS 197, appendix C.3. -/
theorem test_aes : aes256 0x000102030405060708090a0b0c0d0e0f101112131415161718191a1b1c1d1e1f 0x00112233445566778899aabbccddeeff =
    0x8ea2b7ca516745bfeafc49904b496089 := by decide +kernel

/-- GCM test case 14 of the specification of GCM: one block of zeros under the zero key. -/
theorem test_gcm : gcmSeal 0 0 [] (List.replicate 16 0) =
    (beBytes 16 0xcea7403d4d606b6e074ec5d3baf39d18, 0xd0d1c8a799996bf0265b98b5d48ab919) := by decide +kernel

/-- The table gives its rows no bits, so no word spells a command. -/
theorem test_table_words : decodeTableWord 0 0 = none ∧ decodeTableWord 32 0x62292002 = none := by decide +kernel

/-- The pulse per second of 06_time.md: at frame 12,805,998 the edge lies in frame 12,805,999 at cell 561,054, symbol 10, phase 0. -/
theorem test_pulse :
    let s : State := { State.reset with time := { State.reset.time with
      frame := 12805998, tF := (1700000000 * 1000000000 + 250433993 + 5995 * 125000) * 65536 + 0x9999 } }
    let s := (s.setBit R.timeStatus F.timeStatus_lpValid true).setBit R.timeStatus F.timeStatus_mtValid true
    let s := (s.setBit (R.timeTpoCfg 2) F.timeTpoCfg_armed true).setBit (R.timeTpoCfg 2) F.timeTpoCfg_mode true
    let s := s.setPulse 2 { start := 1700000001 * 1000000000 * 65536, period := 1000000000 * 65536 }
    (s.tpoBoundary.pulse 2).converted = [(16 * (12805999 * 26562500 + 561054 * 25 + 10), 0)] := by decide +kernel

/-- A step runs the command in front and keeps the rest. -/
theorem test_step :
    ∃ t : State, step { State.reset with pending := [.inspWrite 5, .txpllUnlock] } = .next t ∧ t.pending = [.txpllUnlock] :=
  ⟨_, rfl, by decide +kernel⟩

end Sys2Proof.Tests

end
end

section
/-!
SUPPORT. Canonical form (log entry 4): one lemma per operation of the model, in the model's order, says that the operation keeps the
register table and the memory in canonical form. Four rules carry it: `setReg` and `clearUnits` on the table (`Tbl.wf_set`,
`Tbl.wf_keep`) and `writeBytes` and `clearSpace` on the memory (`wf_writeBytes`, `wf_clearSpace`); every other operation is made of
these, of updates of other components (`Canon.frame`), of choices (`Canon.ite`) and of folds (`Canon.foldl`), so that its lemma is a
term of the same shape, or the split of its branches followed by `simp` with the lemmas of its parts. `simp` is given the depth 20
there because the operations nest deeper than its default bound on side conditions.
-/

namespace Sys2Proof.Machine

/-- The register table and the memory of `s` are in canonical form: what O60 keeps. -/
def State.Canon (s : State) : Prop := Tbl.wf regReset s.regs = true ∧ Memory.wf s.mem = true

/-- The state that `o` holds, if it holds one, is canonical. -/
def OptCanon (o : Option State) : Prop := ∀ t ∈ o, t.Canon

/-- A command that is not refused leaves a canonical state. -/
def OutCanon (o : Host.Outcome State Fault Refusal) : Prop := ∀ t, o = .next t → t.Canon

@[simp] theorem optCanon_some {s : State} : OptCanon (some s) ↔ s.Canon := by simp [OptCanon]

@[simp] theorem optCanon_none : OptCanon none := by simp [OptCanon]

@[simp] theorem optCanon_ite {c : Prop} [Decidable c] {a b : Option State} :
    OptCanon (if c then a else b) ↔ (c → OptCanon a) ∧ (¬c → OptCanon b) := by
  split <;> simp [*]

@[simp] theorem outCanon_next {s : State} : OutCanon (.next s) ↔ s.Canon := by simp [OutCanon]

/-- The state that a Limtin instruction leaves, where it raises nothing, is canonical. -/
def LimCanon (o : LimOut) : Prop := ∀ t, o = .ok t → t.Canon

@[simp] theorem limCanon_ok {s : State} : LimCanon (.ok s) ↔ s.Canon := by simp [LimCanon]

@[simp] theorem limCanon_error {e : Nat} : LimCanon (.error e) := by simp [LimCanon]

@[simp] theorem limCanon_ite {c : Prop} [Decidable c] {a b : LimOut} :
    LimCanon (if c then a else b) ↔ (c → LimCanon a) ∧ (¬c → LimCanon b) := by
  split <;> simp [*]

theorem OptCanon.ite {c : Prop} [Decidable c] {a b : Option State} (ha : OptCanon a) (hb : OptCanon b) : OptCanon (if c then a else b) :=
  optCanon_ite.2 ⟨fun _ => ha, fun _ => hb⟩

theorem OptCanon.of {o : Option State} {t} (h : OptCanon o) (e : o = some t) : t.Canon := h t e

theorem OptCanon.of_map {α} {o : Option (α × State)} {a t} (h : OptCanon (o.map (·.2))) (e : o = some (a, t)) : t.Canon :=
  h t (by simp [e])

theorem OptCanon.getD {o : Option State} {d : State} (h : OptCanon o) (hd : d.Canon) : (o.getD d).Canon := by
  cases o with
  | none => exact hd
  | some s => exact h s rfl

theorem OptCanon.map {o : Option State} {f : State → State} (h : OptCanon o) (hf : ∀ s, s.Canon → (f s).Canon) : OptCanon (o.map f) := by
  cases o with
  | none => exact optCanon_none
  | some s => exact optCanon_some.2 (hf s (h s rfl))

namespace State
variable {s : State}

theorem Canon.frame {p f e w md df ub wd en ti cl qm ci cr cp fl ls ho tw pr pw mo ta} (h : s.Canon) :
    State.Canon ⟨p, s.regs, s.mem, f, e, w, md, df, ub, wd, en, ti, cl, qm, ci, cr, cp, fl, ls, ho, tw, pr, pw, mo, ta⟩ := h

@[simp] theorem canon_mk {p r m f e w md df ub wd en ti cl qm ci cr cp fl ls ho tw pr pw mo ta} :
    State.Canon ⟨p, r, m, f, e, w, md, df, ub, wd, en, ti, cl, qm, ci, cr, cp, fl, ls, ho, tw, pr, pw, mo, ta⟩ ↔
      Tbl.wf regReset r = true ∧ Memory.wf m = true := Iff.rfl

@[simp] theorem Canon.regs (h : s.Canon) : Tbl.wf regReset s.regs = true := h.1

@[simp] theorem Canon.mem (h : s.Canon) : Memory.wf s.mem = true := h.2

@[simp] theorem Canon.setReg {a w} (h : s.Canon) : (s.setReg a w).Canon := ⟨Tbl.wf_set regReset s.regs a w h.1, h.2⟩

@[simp] theorem Canon.clearUnits {p} (h : s.Canon) : (s.clearUnits p).Canon := ⟨Tbl.wf_keep regReset _ s.regs h.1, h.2⟩

@[simp] theorem Canon.writeBytes {a v} (h : s.Canon) : (s.writeBytes a v).Canon := ⟨h.1, wf_writeBytes s v a h.2⟩

@[simp] theorem Canon.clearSpace {k} (h : s.Canon) : (s.clearSpace k).Canon := ⟨h.1, wf_clearSpace s k h.2⟩

@[simp] theorem canon_ite {c : Prop} [Decidable c] {a b : State} : (if c then a else b).Canon ↔ (c → a.Canon) ∧ (¬c → b.Canon) := by
  split <;> simp [*]

theorem Canon.ite {c : Prop} [Decidable c] {a b : State} (ha : a.Canon) (hb : b.Canon) : (if c then a else b).Canon :=
  canon_ite.2 ⟨fun _ => ha, fun _ => hb⟩

@[simp] theorem canon_ite_fst {α} {c : Prop} [Decidable c] {a b : State × α} :
    (if c then a else b).1.Canon ↔ (c → a.1.Canon) ∧ (¬c → b.1.Canon) := by
  split <;> simp [*]

@[simp] theorem canon_ite_snd {α} {c : Prop} [Decidable c] {a b : α × State} :
    (if c then a else b).2.Canon ↔ (c → a.2.Canon) ∧ (¬c → b.2.Canon) := by
  split <;> simp [*]

@[simp] theorem Canon.foldl {α} {f : State → α → State} {l : List α} (h : s.Canon) (hf : ∀ s x, s.Canon → (f s x).Canon) :
    (l.foldl f s).Canon := by
  induction l generalizing s with
  | nil => exact h
  | cons x l ih => exact ih (hf s x h)

theorem Canon.foldl_fst {α β} {f : State × α → β → State × α} {l : List β} {a : State × α} (h : a.1.Canon)
    (hf : ∀ a x, a.1.Canon → (f a x).1.Canon) : (l.foldl f a).1.Canon :=
  List.foldlRecOn (motive := fun a : State × α => a.1.Canon) l f h fun a ha x _ => hf a x ha

theorem Canon.foldl_snd {α β} {f : α × State → β → α × State} {l : List β} {a : α × State} (h : a.2.Canon)
    (hf : ∀ a x, a.2.Canon → (f a x).2.Canon) : (l.foldl f a).2.Canon :=
  List.foldlRecOn (motive := fun a : α × State => a.2.Canon) l f h fun a ha x _ => hf a x ha

theorem Canon.fst_of {α} {p : State × α} {t x} (h : p.1.Canon) (e : p = (t, x)) : t.Canon := by subst e; exact h

theorem Canon.snd_of {α} {p : α × State} {t x} (h : p.2.Canon) (e : p = (x, t)) : t.Canon := by subst e; exact h

@[simp] theorem Canon.setFld {a f v} (h : s.Canon) : (s.setFld a f v).Canon := h.setReg

@[simp] theorem Canon.setBit {a f b} (h : s.Canon) : (s.setBit a f b).Canon := h.setReg

@[simp] theorem Canon.count {a f n} (h : s.Canon) : (s.count a f n).Canon := h.setReg

@[simp] theorem Canon.wrap {a f n} (h : s.Canon) : (s.wrap a f n).Canon := h.setReg

/-! ### Operations of `Ops` -/

@[simp] theorem Canon.edge {src} (h : s.Canon) : (s.edge src).Canon := h.frame

@[simp] theorem Canon.latch {a f} (h : s.Canon) : (s.latch a f).Canon := .ite h h.setFld.edge

@[simp] theorem Canon.latchIf {b a f} (h : s.Canon) : (s.latchIf b a f).Canon := .ite h.latch h

@[simp] theorem Canon.signal {src cls code} (h : s.Canon) : (s.signal src cls code).Canon := h.frame

@[simp] theorem Canon.pmcEvent {u code n} (h : s.Canon) : (s.pmcEvent u code n).Canon :=
  .ite h (h.foldl fun _ _ h => .ite h.setFld.latchIf h)

@[simp] theorem Canon.bandwidth {rx c n} (h : s.Canon) : (s.bandwidth rx c n).Canon := .ite h (.ite h.frame h.frame)

@[simp] theorem Canon.wentDark {d} (h : s.Canon) : (s.wentDark d).Canon := .ite h h.frame

@[simp] theorem Canon.takeFree (h : s.Canon) : s.takeFree.2.Canon := h.frame

@[simp] theorem Canon.holdOrigins (h : s.Canon) : s.holdOrigins.Canon := Canon.frame (h.foldl fun _ _ h => h.frame)

@[simp] theorem Canon.setPlaneState {p v} (h : s.Canon) : (s.setPlaneState p v).Canon := .ite h.setFld h.setFld

@[simp] theorem Canon.setLane {p l} (h : s.Canon) : (s.setLane p l).Canon := h.frame

@[simp] theorem Canon.setDplane {p l} (h : s.Canon) : (s.setDplane p l).Canon := h.frame

@[simp] theorem Canon.setUplane {p l} (h : s.Canon) : (s.setUplane p l).Canon := h.frame

@[simp] theorem Canon.setEplane {p l} (h : s.Canon) : (s.setEplane p l).Canon := h.frame

@[simp] theorem Canon.setQueue {q v} (h : s.Canon) : (s.setQueue q v).Canon := h.frame

@[simp] theorem Canon.setNode {n v} (h : s.Canon) : (s.setNode n v).Canon := h.frame

@[simp] theorem Canon.setPort {k v} (h : s.Canon) : (s.setPort k v).Canon := h.frame

@[simp] theorem Canon.setCircuit {c v} (h : s.Canon) : (s.setCircuit c v).Canon := h.frame

@[simp] theorem Canon.setSlot {n v} (h : s.Canon) : (s.setSlot n v).Canon := h.frame

@[simp] theorem Canon.setFlow {f v} (h : s.Canon) : (s.setFlow f v).Canon := h.frame

/-! ### Operations of `CiphOps` -/

@[simp] theorem Canon.ciphSubmit {q} (h : s.Canon) : (s.ciphSubmit q).2.Canon := h.frame

@[simp] theorem Canon.setEngine {e q} (h : s.Canon) : (s.setEngine e q).Canon := h.frame

@[simp] theorem Canon.startReq {e q} (h : s.Canon) : (s.startReq e q).Canon := h.pmcEvent.pmcEvent.frame.setEngine

@[simp] theorem Canon.ciphCount {c n} (h : s.Canon) : (s.ciphCount c n).Canon := h.count

@[simp] theorem Canon.dispatchReq (h : s.Canon) : s.dispatchReq.Canon := by
  unfold State.dispatchReq
  (repeat' split) <;> simp (maxDischargeDepth := 20) [h]

@[simp] theorem Canon.takeResult {n} (h : s.Canon) : (s.takeResult n).2.Canon := by
  unfold State.takeResult
  (repeat' split) <;> simp (maxDischargeDepth := 20) [h]

@[simp] theorem Canon.dropReq {n} (h : s.Canon) : (s.dropReq n).Canon := h.frame

/-! ### Operations of `Outbox` -/

@[simp] theorem Canon.lschCount {c n} (h : s.Canon) : (s.lschCount c n).Canon := h.count

@[simp] theorem Canon.setGnode {i v} (h : s.Canon) : (s.setGnode i v).Canon := h.frame

@[simp] theorem Canon.pushFiring {f} (h : s.Canon) : (s.pushFiring f).Canon := h.frame

@[simp] theorem Canon.token {node v} (h : s.Canon) : (s.token node v).1.Canon := by
  simp [State.token, h]

@[simp] theorem Canon.tokenOrDrop {node v} (h : s.Canon) : (s.tokenOrDrop node v).Canon := .ite h.token h.lschCount

@[simp] theorem Canon.fireNode {node kind late info} (h : s.Canon) : (s.fireNode node kind late info).Canon :=
  .ite h (.ite h.pushFiring h.lschCount)

@[simp] theorem Canon.hostOut {o} (h : s.Canon) : (s.hostOut o).Canon := h.frame

@[simp] theorem Canon.gateEvent {k} (h : s.Canon) : (s.gateEvent k).Canon := .ite h (.ite h.latch.hostOut h.latch)

@[simp] theorem Canon.setChan {c v} (h : s.Canon) : (s.setChan c v).Canon := h.frame

@[simp] theorem Canon.chIrq {c} (h : s.Canon) : (s.chIrq c).Canon := .ite h.setChan (.ite h.hostOut h.hostOut.setChan)

@[simp] theorem Canon.writeRecord {c r} (h : s.Canon) : (s.writeRecord c r).Canon := .ite h.hostOut.setFld.hostOut h.hostOut.setFld

@[simp] theorem Canon.flushRecords {c fuel} (h : s.Canon) : (s.flushRecords c fuel).Canon := by
  induction fuel generalizing s with
  | zero => exact h
  | succ fuel ih =>
    unfold State.flushRecords
    (repeat' split) <;> simp (maxDischargeDepth := 20) [h, ih]

@[simp] theorem Canon.pushRecord {c r} (h : s.Canon) : (s.pushRecord c r).Canon := .ite h h.setChan.flushRecords

@[simp] theorem Canon.departure {p status stamp} (h : s.Canon) : (s.departure p status stamp).Canon :=
  .ite h (.ite h.pushRecord (.ite h.tokenOrDrop h))

@[simp] theorem Canon.departDrop {p} (h : s.Canon) : (s.departDrop p).Canon := h.departure

/-! ### Operations of `Buffers` -/

@[simp] theorem Canon.whenUp {src f} (h : s.Canon) (hf : ∀ s : State, s.Canon → (f s).Canon) : (s.whenUp src f).Canon := by
  simp [State.whenUp, h, hf]

@[simp] theorem Canon.report {l} (h : s.Canon) : (s.report l).Canon := .ite h (.ite h.frame.latch h.frame.setFld)

@[simp] theorem Canon.setDieUsed {d n} (h : s.Canon) : (s.setDieUsed d n).Canon := h.frame

@[simp] theorem Canon.freeCells {d n} (h : s.Canon) : (s.freeCells d n).Canon := h.setDieUsed

@[simp] theorem Canon.takeCells {d inject n} (h : s.Canon) : OptCanon (s.takeCells d inject n) := by
  simp [State.takeCells, h]

@[simp] theorem Canon.setSlowUsed {d n} (h : s.Canon) : (s.setSlowUsed d n).Canon := h.frame

@[simp] theorem Canon.setHbmUsed {d n} (h : s.Canon) : (s.setHbmUsed d n).Canon := h.frame

@[simp] theorem Canon.setStacks {a b} (h : s.Canon) : (s.setStacks a b).Canon := h.frame

@[simp] theorem Canon.hbmTake {d n} (h : s.Canon) : (s.hbmTake d n).Canon := h.setHbmUsed.setStacks.frame

@[simp] theorem Canon.hbmGive {d cells} (h : s.Canon) : (s.hbmGive d cells).Canon := h.setHbmUsed.setStacks

@[simp] theorem Canon.qmDrop {c} (h : s.Canon) : (s.qmDrop c).Canon := h.count.pmcEvent.pmcEvent

@[simp] theorem Canon.setPipe {d n l} (h : s.Canon) : (s.setPipe d n l).Canon := h.frame

@[simp] theorem Canon.setClassified {d n l} (h : s.Canon) : (s.setClassified d n l).Canon := h.frame

@[simp] theorem Canon.enterPipe {p} (h : s.Canon) : (s.enterPipe p).Canon := h.setPipe.frame.count.pmcEvent

@[simp] theorem Canon.msgEnqueue {m} (h : s.Canon) : (s.msgEnqueue m).1.Canon := by
  simp [State.msgEnqueue, h]

/-! ### Operations of `Queues` -/

@[simp] theorem Canon.dropPkt {p cause} (h : s.Canon) : (s.dropPkt p cause).Canon := h.freeCells.qmDrop.setQueue.departDrop

@[simp] theorem Canon.dropFault {p} (h : s.Canon) : (s.dropFault p).Canon := h.freeCells.qmDrop.report.setQueue.departure

@[simp] theorem Canon.refreshReads {q} (h : s.Canon) : (s.refreshReads q).Canon := .ite h h.setQueue

@[simp] theorem Canon.joinQueue {q p} (h : s.Canon) : (s.joinQueue q p).Canon := by
  simp (maxDischargeDepth := 20) [State.joinQueue, h]

@[simp] theorem Canon.takeIn {p} (h : s.Canon) : (s.takeIn p).Canon := by
  unfold State.takeIn
  dsimp only
  (repeat' split) <;> simp (maxDischargeDepth := 20) [h]

@[simp] theorem Canon.releaseCells {q p} (h : s.Canon) : (s.releaseCells q p).Canon := by
  unfold State.releaseCells
  (repeat' split) <;> simp (maxDischargeDepth := 20) [h]

@[simp] theorem Canon.removePkt {q id} (h : s.Canon) : (s.removePkt q id).Canon := by
  unfold State.removePkt
  (repeat' split) <;> simp (maxDischargeDepth := 20) [h]

@[simp] theorem Canon.startCmd {cmd status stReg coll ready notReady mask v} (h : s.Canon) :
    (s.startCmd cmd status stReg coll ready notReady mask v).Canon :=
  .ite h.latch h.setReg.setFld

@[simp] theorem Canon.qmCmdWrite {v} (h : s.Canon) : (s.qmCmdWrite v).Canon := h.startCmd

@[simp] theorem Canon.slowMoves {q was} (h : s.Canon) : (s.slowMoves q was).Canon := .ite h (h.foldl fun _ _ h => h.setSlowUsed)

@[simp] theorem Canon.putDesc {q d} (h : s.Canon) : (s.putDesc q d).Canon := .ite h.setQueue h.setQueue

@[simp] theorem Canon.writeDesc {q d} (h : s.Canon) : (s.writeDesc q d).Canon := h.putDesc.slowMoves

@[simp] theorem Canon.readDesc {q} (h : s.Canon) : (s.readDesc q).Canon := h.setReg.setReg.setReg.setReg

@[simp] theorem Canon.writePoolCfg {v} (h : s.Canon) : (s.writePoolCfg v).Canon := .ite h.latch h.setReg

@[simp] theorem Canon.writeHbmCfg {v} (h : s.Canon) : (s.writeHbmCfg v).Canon := .ite h.latch h.setReg

/-! ### Operations of `ClsOps` -/

@[simp] theorem Canon.setClsEntry {t i e} (h : s.Canon) : (s.setClsEntry t i e).Canon := h.frame

@[simp] theorem Canon.clsBegin (h : s.Canon) : s.clsBegin.Canon := .ite h.setClsEntry h

@[simp] theorem Canon.clsCmdWrite {v} (h : s.Canon) : (s.clsCmdWrite v).Canon := .ite h.startCmd h.startCmd.clsBegin

@[simp] theorem Canon.clsShow {t i e} (h : s.Canon) : (s.clsShow t i e).Canon :=
  Canon.setReg (Canon.setReg (.ite (Canon.setReg (h.foldl fun _ _ h => h.setReg)) (h.foldl fun _ _ h => h.setReg)))

@[simp] theorem Canon.displace {bucket fuel} (h : s.Canon) : OptCanon ((s.displace bucket fuel).map (·.2)) := by
  induction fuel generalizing s bucket with
  | zero => cases e : s.freeRow bucket <;> simp [State.displace, e, h]
  | succ fuel ih =>
    unfold State.displace
    dsimp only
    (repeat' split) <;> simp [h]
    exact ((ih h).of_map ‹_›).setClsEntry.setClsEntry

@[simp] theorem Canon.flowPlace {prof key} (h : s.Canon) : OptCanon ((s.flowPlace prof key).map (·.2)) := by
  unfold State.flowPlace
  (repeat' split) <;> simp (maxDischargeDepth := 20) [h]

@[simp] theorem Canon.flowNew {w prof key ed} (h : s.Canon) : (s.flowNew w prof key ed).1.Canon := by
  unfold State.flowNew
  split
  · exact h
  · exact (h.flowPlace.of_map ‹_›).setClsEntry.setReg

@[simp] theorem Canon.flowPut {w} (h : s.Canon) : (s.flowPut w).1.Canon := by
  unfold State.flowPut
  dsimp only
  (repeat' split) <;> simp (maxDischargeDepth := 20) [h]

@[simp] theorem Canon.flowDelete {prof key} (h : s.Canon) : (s.flowDelete prof key).1.Canon := by
  unfold State.flowDelete
  dsimp only
  (repeat' split) <;> simp (maxDischargeDepth := 20) [h]

@[simp] theorem Canon.entryPut {t i w} (h : s.Canon) : (s.entryPut t i w).1.Canon := by
  simp [State.entryPut, h]

@[simp] theorem Canon.entryDelete {t i} (h : s.Canon) : (s.entryDelete t i).1.Canon := by
  simp [State.entryDelete, h]

@[simp] theorem Canon.clsPerform (h : s.Canon) : s.clsPerform.1.Canon := by
  unfold State.clsPerform
  dsimp only
  (repeat' split) <;> simp (maxDischargeDepth := 20) [h]

@[simp] theorem Canon.clsCmdDone (h : s.Canon) : s.clsCmdDone.Canon := .ite h h.clsPerform.setFld.pmcEvent

@[simp] theorem Canon.edRefuse {c} (h : s.Canon) : (s.edRefuse c).Canon := h.setFld

@[simp] theorem Canon.edOpen (h : s.Canon) : s.edOpen.Canon := .ite h.edRefuse (.ite h.edRefuse h.setBit)

@[simp] theorem Canon.edCommit (h : s.Canon) : s.edCommit.Canon :=
  .ite h.edRefuse (.ite h.edRefuse (.ite h.edRefuse h.clsCmdDone.frame.setFld.setFld.setBit.setBit))

@[simp] theorem Canon.edAbandon (h : s.Canon) : s.edAbandon.Canon := .ite h.edRefuse (.ite h.edRefuse h.clsCmdDone.setBit)

@[simp] theorem Canon.clsMap {t f} (h : s.Canon) : (s.clsMap t f).Canon := h.foldl fun _ _ h => h.setClsEntry

@[simp] theorem Canon.copyBank {t from_ to_} (h : s.Canon) : (s.copyBank t from_ to_).Canon := h.foldl fun _ _ h => h.setClsEntry

@[simp] theorem Canon.sweepOpen (h : s.Canon) : s.sweepOpen.Canon :=
  Canon.setBit (Canon.foldl (h.foldl fun _ _ h => h.copyBank) fun _ _ h => h.clsMap)

@[simp] theorem Canon.sweepMode {m} (h : s.Canon) : (s.sweepMode m).Canon :=
  Canon.setFld (h.foldl fun _ _ h => .ite h (.ite (.ite h.copyBank h.copyBank) (.ite h.clsMap h.clsMap)))

@[simp] theorem Canon.sweepDone (h : s.Canon) : s.sweepDone.Canon := by
  unfold State.sweepDone
  (repeat' split) <;> simp (maxDischargeDepth := 20) [h]

@[simp] theorem Canon.tableModeWrite {v} (h : s.Canon) : (s.tableModeWrite v).Canon := .ite h.edRefuse h.frame.setBit

@[simp] theorem Canon.clsHit {t i n} (h : s.Canon) : (s.clsHit t i n).Canon := h.setClsEntry

@[simp] theorem Canon.pattern {slot off group r} (h : s.Canon) : (s.pattern slot off group r).2.Canon := by
  unfold State.pattern
  extract_lets depth full w t
  have ht : t.Canon := by simp [t, h]
  split
  · exact h
  · split
    · exact ht
    · extract_lets
      split <;> exact ht.clsHit

@[simp] theorem Canon.meter {i r} (h : s.Canon) : (s.meter i r).2.Canon := h.frame

@[simp] theorem Canon.applyAction {slot off a p} (h : s.Canon) : (s.applyAction slot off a p).2.Canon := by
  simp [State.applyAction, h]

@[simp] theorem Canon.resolve {slot prof e p} (h : s.Canon) : (s.resolve slot prof e p).2.Canon := by
  unfold State.resolve
  dsimp only
  (repeat' split) <;> simp (maxDischargeDepth := 20) [h]

@[simp] theorem Canon.classify {p} (h : s.Canon) : (s.classify p).2.Canon := by
  unfold State.classify
  extract_lets
  split
  · exact h
  · extract_lets
    (repeat' split) <;> simp [h]

@[simp] theorem Canon.clsOut {c} (h : s.Canon) : (s.clsOut c).Canon := h.count

@[simp] theorem Canon.clsForward {n p} (h : s.Canon) : (s.clsForward n p).Canon := h.setClassified

@[simp] theorem Canon.clsDrop {p} (h : s.Canon) : (s.clsDrop p).Canon := h.freeCells.departDrop

@[simp] theorem Canon.clsPunt {n r p} (h : s.Canon) : (s.clsPunt n r p).Canon := h.clsOut.clsForward

@[simp] theorem Canon.clsService {n r} (h : s.Canon) : (s.clsService n r).Canon := by
  unfold State.clsService
  (repeat' split) <;> simp (maxDischargeDepth := 20) [h]

@[simp] theorem Canon.clsObserve {n r} (h : s.Canon) : (s.clsObserve n r).Canon := by
  unfold State.clsObserve
  (repeat' split) <;> simp (maxDischargeDepth := 20) [h]

@[simp] theorem Canon.packetClassify {d n} (h : s.Canon) : (s.packetClassify d n).Canon := by
  unfold State.packetClassify
  dsimp only
  (repeat' split) <;> simp (maxDischargeDepth := 20) [h]

/-! ### Operations of `Lead` -/

@[simp] theorem Canon.pushBlock {b} (h : s.Canon) : (s.pushBlock b).Canon := h.frame

@[simp] theorem Canon.startBulk (h : s.Canon) : s.startBulk.Canon := h.frame.frame.pushBlock

@[simp] theorem Canon.mirrorSeq {f n} (h : s.Canon) : (s.mirrorSeq f n).Canon := .ite (.ite h.frame.latch.startBulk h.frame) h

@[simp] theorem Canon.unmark {f} (h : s.Canon) : (s.unmark f).Canon := .ite h.frame h

@[simp] theorem Canon.takeSeq {f} (h : s.Canon) : (s.takeSeq f).2.Canon :=
  .ite (Canon.mirrorSeq (Canon.setFlow (.ite h.unmark h))) (Canon.setFlow (.ite h.unmark h))

@[simp] theorem Canon.withdraw {p} (h : s.Canon) : (s.withdraw p).Canon := h.frame

@[simp] theorem Canon.setPtp {k v} (h : s.Canon) : (s.setPtp k v).Canon := h.frame

@[simp] theorem Canon.ptpEnable {k} (h : s.Canon) : (s.ptpEnable k).Canon := h.setPtp

@[simp] theorem Canon.ptpDisable {k} (h : s.Canon) : (s.ptpDisable k).Canon := h.setPtp

@[simp] theorem Canon.ptpMove (h : s.Canon) : s.ptpMove.Canon := h.foldl fun _ _ h => .ite h h.ptpEnable

@[simp] theorem Canon.setLead {b} (h : s.Canon) : (s.setLead b).Canon :=
  .ite h (.ite h.setBit.latch.count.ptpMove.frame.count h.setBit.latch.count.ptpMove.withdraw)

@[simp] theorem Canon.applyLead (h : s.Canon) : s.applyLead.Canon := by
  unfold State.applyLead
  (repeat' split) <;> simp (maxDischargeDepth := 20) [h]

@[simp] theorem Canon.dueLead {b} (h : s.Canon) : (s.dueLead b).Canon := .ite h.frame h.frame.applyLead

@[simp] theorem Canon.writeTid {tid} (h : s.Canon) : (s.writeTid tid).Canon := .ite h.setFld.frame.setLead h.setFld

/-! ### Operations of `Receive` -/

@[simp] theorem Canon.disp {code n} (h : s.Canon) : (s.disp code n).Canon := .ite h.count.pmcEvent.pmcEvent h.count.pmcEvent

@[simp] theorem Canon.delivered {plane parts n} (h : s.Canon) : (s.delivered plane parts n).Canon := h.disp.pmcEvent.bandwidth

@[simp] theorem Canon.noCell {parts held} (h : s.Canon) : (s.noCell parts held).Canon := by
  unfold State.noCell
  (repeat' split) <;> simp (maxDischargeDepth := 20) [h]

@[simp] theorem Canon.withCells {parts held go} (h : s.Canon) (hgo : ∀ s : State, s.Canon → (go s).Canon) :
    (s.withCells parts held go).Canon := by
  unfold State.withCells
  extract_lets
  (repeat' split)
  · exact hgo _ h.freeCells
  · exact hgo _ (h.takeCells.of ‹_›)
  · exact h.noCell

@[simp] theorem Canon.handPacket {parts} (h : s.Canon) : (s.handPacket parts).Canon := by
  unfold State.handPacket
  (repeat' split) <;> simp (maxDischargeDepth := 20) [h]

@[simp] theorem Canon.handMessage {parts last} (h : s.Canon) : (s.handMessage parts last).Canon :=
  .ite (.ite h.msgEnqueue.delivered h.msgEnqueue.disp) h.disp.count

@[simp] theorem Canon.handOff {parts last} (h : s.Canon) : (s.handOff parts last).Canon := .ite h.freeCells.handMessage h.handPacket

@[simp] theorem Canon.setReasm {f r} (h : s.Canon) : (s.setReasm f r).Canon := h.frame

@[simp] theorem Canon.reasmFresh {f p own} (h : s.Canon) : (s.reasmFresh f p own).Canon := by
  unfold State.reasmFresh
  (repeat' split) <;> simp +contextual (maxDischargeDepth := 20) [h]

@[simp] theorem Canon.reassemble {p own} (h : s.Canon) : (s.reassemble p own).Canon := by
  simp +contextual (maxDischargeDepth := 20) [State.reassemble, h]

@[simp] theorem Canon.setRsq {f r} (h : s.Canon) : (s.setRsq f r).Canon := h.frame

@[simp] theorem Canon.unhold {p} (h : s.Canon) : (s.unhold p).Canon := h.reassemble

@[simp] theorem Canon.rsqDrain {f exp l} (h : s.Canon) : (s.rsqDrain f exp l).Canon := by
  induction l generalizing s exp with
  | nil => exact h.setRsq
  | cons p l ih => unfold State.rsqDrain; simp (maxDischargeDepth := 20) [h, ih]

@[simp] theorem Canon.rsqAll {l} (h : s.Canon) : (s.rsqAll l).Canon := h.foldl fun _ _ h => h.unhold

@[simp] theorem Canon.rsqRelease {f} (h : s.Canon) : (s.rsqRelease f).Canon := by
  unfold State.rsqRelease
  dsimp only
  (repeat' split) <;> simp (maxDischargeDepth := 20) [h]

@[simp] theorem Canon.rsqForce (h : s.Canon) : s.rsqForce.Canon := by
  unfold State.rsqForce
  (repeat' split) <;> simp (maxDischargeDepth := 20) [h]

@[simp] theorem Canon.rsqMakeRoom {n fuel} (h : s.Canon) : (s.rsqMakeRoom n fuel).Canon := by
  induction fuel generalizing s with
  | zero => exact h
  | succ fuel ih => unfold State.rsqMakeRoom; simp (maxDischargeDepth := 20) [h, ih]

@[simp] theorem Canon.rsqFlush (h : s.Canon) : s.rsqFlush.Canon := h.foldl fun _ _ h => h.rsqRelease

@[simp] theorem Canon.rsqFewer {fuel} (h : s.Canon) : (s.rsqFewer fuel).Canon := by
  induction fuel generalizing s with
  | zero => exact h
  | succ fuel ih => unfold State.rsqFewer; simp (maxDischargeDepth := 20) [h, ih]

@[simp] theorem Canon.rsqDeliver {f p} (h : s.Canon) : (s.rsqDeliver f p).Canon := h.reassemble.rsqDrain

@[simp] theorem Canon.rsqHold {f p} (h : s.Canon) : (s.rsqHold f p).Canon := by
  unfold State.rsqHold
  extract_lets n t u d
  have hu : u.Canon := by simp [u, t, h]
  (repeat' split)
  · exact hu.rsqDeliver
  · exact hu.disp
  · exact hu.noCell
  · exact (hu.takeCells.of ‹_›).setRsq.pmcEvent

@[simp] theorem Canon.rsqArrive {p} (h : s.Canon) : (s.rsqArrive p).Canon := by
  simp (maxDischargeDepth := 20) [State.rsqArrive, h]

/-! ### Operations of `Sched` -/

@[simp] theorem Canon.placeNode {key n} (h : s.Canon) : (s.placeNode key n).Canon := .ite h.setNode.frame h.setNode.frame

@[simp] theorem Canon.chargeNode {key len drr} (h : s.Canon) : (s.chargeNode key len drr).Canon := .ite h.placeNode h.setNode

@[simp] theorem Canon.setDeficits {d keys} (h : s.Canon) : (s.setDeficits d keys).Canon := h.foldl fun _ _ h => h.setNode

@[simp] theorem Canon.selectChild {parent kids cost} (h : s.Canon) : OptCanon ((s.selectChild parent kids cost).map (·.2)) := by
  unfold State.selectChild
  dsimp only
  (repeat' split) <;> simp (maxDischargeDepth := 20) [h]

@[simp] theorem Canon.pickQueue {g qs} (h : s.Canon) : OptCanon ((s.pickQueue g qs).map (·.2)) := h.selectChild

@[simp] theorem Canon.pickBelow {parent qs} (h : s.Canon) : OptCanon ((s.pickBelow parent qs).map (·.2)) := by
  unfold State.pickBelow
  extract_lets
  split
  · exact optCanon_none
  · exact (h.selectChild.of_map ‹_›).pickQueue

@[simp] theorem Canon.settle {q} (h : s.Canon) : (s.settle q).Canon := .ite (Canon.setNode (.ite h.setNode h)) (.ite h.setNode h)

@[simp] theorem Canon.flushQueue {q} (h : s.Canon) : (s.flushQueue q).Canon :=
  h.foldl fun _ _ h => h.removePkt.settle.qmDrop.setQueue.departDrop

@[simp] theorem Canon.chargePath {q len} (h : s.Canon) : (s.chargePath q len).Canon := h.chargeNode.chargeNode.chargeNode

@[simp] theorem Canon.selectFor {c stopped groupOk} (h : s.Canon) : OptCanon ((s.selectFor c stopped groupOk).map (·.2)) := by
  unfold State.selectFor
  extract_lets qs
  split
  · exact optCanon_none
  · split
    · exact optCanon_none
    · rename_i e
      split
      · exact optCanon_none
      · exact optCanon_some.2 (h.pickBelow.of_map e).chargePath.removePkt.settle.pmcEvent.pmcEvent.pmcEvent

@[simp] theorem Canon.qmCmdDone (h : s.Canon) : s.qmCmdDone.Canon := by
  unfold State.qmCmdDone
  dsimp only
  (repeat' split) <;> simp (maxDischargeDepth := 20) [h]

@[simp] theorem Canon.wheelTick (h : s.Canon) : s.wheelTick.Canon := by
  simp +contextual (maxDischargeDepth := 20) [State.wheelTick, h]

@[simp] theorem Canon.schCmdWrite {v} (h : s.Canon) : (s.schCmdWrite v).Canon := h.startCmd

@[simp] theorem Canon.writeNode {key d0 d1} (h : s.Canon) : (s.writeNode key d0 d1).Canon := by
  unfold State.writeNode
  dsimp only
  (repeat' split) <;> simp (maxDischargeDepth := 20) [h]

@[simp] theorem Canon.readNode {key} (h : s.Canon) : (s.readNode key).Canon := h.setNode.setReg.setReg.setReg.setReg

@[simp] theorem Canon.schCmdDone (h : s.Canon) : s.schCmdDone.Canon := by
  unfold State.schCmdDone
  dsimp only
  (repeat' split) <;> simp (maxDischargeDepth := 20) [h]

/-! ### Operations of `UbbOps` -/

@[simp] theorem Canon.driverRest {p} (h : s.Canon) : (s.driverRest p).Canon := h.setLane.setBit

@[simp] theorem Canon.stopPlane {p} (h : s.Canon) : (s.stopPlane p).Canon := h.setUplane.driverRest.setBit

@[simp] theorem Canon.latchEqd (h : s.Canon) : s.latchEqd.Canon := h.foldl fun _ _ h => h.setUplane.frame

@[simp] theorem Canon.restPlane {p e} (h : s.Canon) : (s.restPlane p e).Canon := by
  unfold State.restPlane
  (repeat' split) <;> simp (maxDischargeDepth := 20) [h]

@[simp] theorem Canon.bdisp {code} (h : s.Canon) : (s.bdisp code).Canon := h.count.pmcEvent

@[simp] theorem Canon.pdisp {code n} (h : s.Canon) : (s.pdisp code n).Canon := .ite h.count.pmcEvent h.count

@[simp] theorem Canon.bdefect {p code} (h : s.Canon) : (s.bdefect p code).Canon := .ite h.latch (.ite h.latch (.ite h.latch h))

@[simp] theorem Canon.endEntry {g code} (h : s.Canon) : (s.endEntry g code).Canon := h.setUplane.bdisp.bdefect

@[simp] theorem Canon.place {w f flow typ frag seq stampNs stampFrac data p} (h : s.Canon) :
    (s.place w f flow typ frag seq stampNs stampFrac data p).1.Canon :=
  h.frame

@[simp] theorem Canon.seqOf {flow tag} (h : s.Canon) : (s.seqOf flow tag).2.Canon := by
  unfold State.seqOf
  (repeat' split) <;> simp (maxDischargeDepth := 20) [h]

@[simp] theorem Canon.placeMsg {w f m} (h : s.Canon) : (s.placeMsg w f m).1.Canon := by
  simp (maxDischargeDepth := 20) [State.placeMsg, h]

@[simp] theorem Canon.placeMsgs {w f l} (h : s.Canon) : (s.placeMsgs w f l).1.Canon := by
  induction l generalizing s f with
  | nil => exact h
  | cons m l ih => unfold State.placeMsgs; simp (maxDischargeDepth := 20) [h, ih]

@[simp] theorem Canon.unlinkPkt {id} (h : s.Canon) : (s.unlinkPkt id).Canon := h.frame

@[simp] theorem Canon.offerDrop {q p code} (h : s.Canon) : (s.offerDrop q p code).Canon := h.removePkt.settle.unlinkPkt.pdisp.departDrop

@[simp] theorem Canon.placePart {w f q x n} (h : s.Canon) : (s.placePart w f q x n).1.Canon := by
  simp (maxDischargeDepth := 20) [State.placePart, h]

@[simp] theorem Canon.offer {w f q x} (h : s.Canon) : (s.offer w f q x).1.Canon := by
  unfold State.offer
  (repeat' split) <;> simp (maxDischargeDepth := 20) [h]

/- The equation holds by definition, but the two sides share a `Window`, whose unfolding the elaborator follows deep. -/
set_option maxRecDepth 20000 in
theorem offerAll_succ {w twin fuel f} : s.offerAll w twin (fuel + 1) f =
    match s.pickBelow upRoot (s.windowQueues w twin f) with
    | none => (s, f)
    | some (q, s) =>
      match s.head q with
      | none => (s, f)
      | some x => (s.offer w f q x).1.offerAll w twin fuel (s.offer w f q x).2 := rfl

@[simp] theorem Canon.offerAll {w twin fuel f} (h : s.Canon) : (s.offerAll w twin fuel f).1.Canon := by
  induction fuel generalizing s f with
  | zero => exact h
  | succ fuel ih =>
    rw [offerAll_succ]
    split
    · exact h
    · rename_i e
      have ht := h.pickBelow.of_map e
      split
      · exact ht
      · exact ih ht.offer

@[simp] theorem Canon.dropNotLead {fuel} (h : s.Canon) : (s.dropNotLead fuel).Canon := by
  induction fuel generalizing s with
  | zero => exact h
  | succ fuel ih =>
    unfold State.dropNotLead
    (repeat' split) <;> simp (maxDischargeDepth := 20) [h, ih]

@[simp] theorem Canon.presentNotLead (h : s.Canon) : s.presentNotLead.Canon := .ite h h.dropNotLead

@[simp] theorem Canon.circCount {c n} (h : s.Canon) : (s.circCount c n).Canon :=
  .ite h.count.pmcEvent (.ite h.count.pmcEvent (.ite h.count.pmcEvent h.count))

@[simp] theorem Canon.placeConts {w f l} (h : s.Canon) : (s.placeConts w f l).1.Canon := by
  induction l generalizing s f with
  | nil => exact h
  | cons c l ih =>
    unfold State.placeConts
    (repeat' split) <;> simp (maxDischargeDepth := 20) [h, ih]

@[simp] theorem Canon.selectContent {w g} (h : s.Canon) : (s.selectContent w g).1.Canon := by
  unfold State.selectContent
  (repeat' split) <;> simp (maxDischargeDepth := 20) [h]

@[simp] theorem Canon.loseRest {p} (h : s.Canon) : (s.loseRest p).Canon := Canon.frame (h.removePkt.settle.foldl fun _ _ h => h.dropReq)

@[simp] theorem Canon.losePkt {p code} (h : s.Canon) : (s.losePkt p code).Canon :=
  .ite h.loseRest.pdisp.departDrop.report h.loseRest.pdisp.departDrop

@[simp] theorem Canon.loseContent {b code} (h : s.Canon) : (s.loseContent b code).Canon := by
  refine h.foldl fun s x h => ?_
  cases x.pkt <;> cases x.cont <;> cases x.msg <;> simp (maxDischargeDepth := 20) [h]

@[simp] theorem Canon.dropBuild {b} (h : s.Canon) : (s.dropBuild b).Canon := h.frame

@[simp] theorem Canon.putBuild {b} (h : s.Canon) : (s.putBuild b).Canon := h.frame

@[simp] theorem Canon.burstLost {g disp} (h : s.Canon) : (s.burstLost g disp).Canon := .ite h.report h

@[simp] theorem Canon.failBuild {b disp code} (h : s.Canon) : (s.failBuild b disp code).Canon := by
  refine Canon.loseContent (Canon.foldl ?_ fun s x h => ?_)
  · exact h.dropBuild.foldl fun s g h => h.bdisp.bdefect.burstLost.restPlane
  · split <;> simp [h]

@[simp] theorem Canon.cutPlane {p code} (h : s.Canon) : (s.cutPlane p code).Canon := by
  unfold State.cutPlane
  (repeat' split) <;> simp (maxDischargeDepth := 20) [h]

@[simp] theorem Canon.haltPlane {p code} (h : s.Canon) : (s.haltPlane p code).Canon := h.cutPlane.stopPlane

@[simp] theorem Canon.cutAll (h : s.Canon) : s.cutAll.Canon := h.foldl fun _ _ h => h.haltPlane

@[simp] theorem Canon.abandonEntries (h : s.Canon) : s.abandonEntries.Canon :=
  Canon.foldl (h.foldl fun _ _ h => h.foldl fun _ _ h => h.endEntry) fun _ _ h => h.failBuild

/-! ### Operations of `DfpTake` -/

@[simp] theorem Canon.grantEntry {p e} (h : s.Canon) : (s.grantEntry p e).Canon :=
  .ite h (.ite h.count (.ite h.setDplane.count.bdisp h.setDplane.count.setUplane.frame))

@[simp] theorem Canon.grantArea {p} (h : s.Canon) : (s.grantArea p).Canon :=
  .ite h (.ite h.setDplane.count.latch (h.setDplane.foldl fun _ _ h => h.grantEntry))

@[simp] theorem Canon.msgStop {p} (h : s.Canon) : (s.msgStop p).Canon := h.setDplane.count

@[simp] theorem Canon.deliver {m} (h : s.Canon) : (s.deliver m).Canon := h.frame

@[simp] theorem Canon.msgRouted {p} (h : s.Canon) : (s.msgRouted p).Canon := h.count

@[simp] theorem Canon.routeMsg {m} (h : s.Canon) : (s.routeMsg m).Canon := by
  simp [State.routeMsg, h]

@[simp] theorem Canon.messageRx {p} (h : s.Canon) : (s.messageRx p).Canon := by
  simp [State.messageRx, h]

@[simp] theorem Canon.passOver {p to_} (h : s.Canon) : (s.passOver p to_).Canon := h.count.setDplane

@[simp] theorem Canon.beginHunt {p from_} (h : s.Canon) : (s.beginHunt p from_).Canon := .ite h.passOver h.count.setDplane

@[simp] theorem Canon.submitParcel {p pos h' own payload tag} (h : s.Canon) : (s.submitParcel p pos h' own payload tag).Canon :=
  h.frame.frame

@[simp] theorem Canon.parcelRead {p h' payload tag} (h : s.Canon) : (s.parcelRead p h' payload tag).Canon := by
  simp (maxDischargeDepth := 20) [State.parcelRead, h]

@[simp] theorem Canon.parcelRx {p} (h : s.Canon) : (s.parcelRx p).Canon := by
  simp [State.parcelRx, h]

@[simp] theorem Canon.drainParcels {p fuel} (h : s.Canon) : (s.drainParcels p fuel).Canon := by
  induction fuel generalizing s with
  | zero => exact h
  | succ fuel ih => unfold State.drainParcels; simp (maxDischargeDepth := 20) [h, ih]

@[simp] theorem Canon.drainFrame {p} (h : s.Canon) : (s.drainFrame p).Canon :=
  Canon.setDplane (Canon.drainParcels (h.grantArea.foldl fun _ _ h => h.messageRx))

/-! ### Operations of `Align` -/

@[simp] theorem Canon.setCode {c} (h : s.Canon) : (s.setCode c).Canon := .ite h h.setFld.edge

@[simp] theorem Canon.switchTiming {p} (h : s.Canon) : (s.switchTiming p).Canon := h.setFld.setFld.setBit.count

@[simp] theorem Canon.retime {boundary} (h : s.Canon) : (s.retime boundary).Canon := by
  unfold State.retime
  (repeat' split) <;> simp (maxDischargeDepth := 20) [h]

@[simp] theorem Canon.setRate {p rate} (h : s.Canon) : (s.setRate p rate).Canon := .ite h h.setFld.setLane.setDplane

@[simp] theorem Canon.huntRestart {p} (h : s.Canon) : (s.huntRestart p).Canon :=
  .ite h.setRate.setLane.setBit.haltPlane h.setRate.setLane.setBit

@[simp] theorem Canon.toSearch {p} (h : s.Canon) : (s.toSearch p).Canon := by
  simp (maxDischargeDepth := 20) [State.toSearch, h]

@[simp] theorem Canon.abandonFrame {p} (h : s.Canon) : (s.abandonFrame p).Canon := h.setDplane.drainFrame.toSearch

/-! ### Operations of `EnrolOps` -/

@[simp] theorem Canon.setTerm {u} (h : s.Canon) : (s.setTerm u).Canon := h.setFld.setFld

@[simp] theorem Canon.setPermit {p v} (h : s.Canon) : (s.setPermit p v).Canon := h.setFld

@[simp] theorem Canon.setEqd {p v} (h : s.Canon) : (s.setEqd p v).Canon := h.setFld.setFld

@[simp] theorem Canon.permitNone (h : s.Canon) : s.permitNone.Canon := h.foldl fun _ _ h => h.setPermit

@[simp] theorem Canon.clearPlane {p} (h : s.Canon) : (s.clearPlane p).Canon :=
  .ite h.setPermit.setEqd.setReg.setEplane.setBit.retime h.setPermit.setEqd.setReg.setEplane

@[simp] theorem Canon.rangeOut {p} (h : s.Canon) : (s.rangeOut p).Canon :=
  .ite h.setPermit.setEqd.setEplane.setPlaneState.setBit.retime h.setPermit.setEqd.setEplane.setPlaneState

@[simp] theorem Canon.releaseTo {p st} (h : s.Canon) : (s.releaseTo p st).Canon := h.clearPlane.setPlaneState

@[simp] theorem Canon.upPost {env body mark} (h : s.Canon) : (s.upPost env body mark).1.Canon := by
  simp [State.upPost, h]

@[simp] theorem Canon.stateReport (h : s.Canon) : s.stateReport.Canon := h.upPost

@[simp] theorem Canon.announce (h : s.Canon) : s.announce.Canon := h.upPost

@[simp] theorem Canon.toListening (h : s.Canon) : s.toListening.Canon := h.setTerm.frame

@[simp] theorem Canon.leaveAnnouncing (h : s.Canon) : s.leaveAnnouncing.Canon := h.permitNone.withdraw.frame

@[simp] theorem Canon.rangingStep (h : s.Canon) : s.rangingStep.Canon := .ite h.setTerm.stateReport (.ite h h.writeTid.setTerm)

@[simp] theorem Canon.termStep (h : s.Canon) : s.termStep.Canon := by
  unfold State.termStep
  (repeat' split) <;> simp (maxDischargeDepth := 20) [h]

@[simp] theorem Canon.enrolPlane {p} (h : s.Canon) : (s.enrolPlane p).Canon := .ite (.ite h.setPermit.setEqd h.setPermit) h

@[simp] theorem Canon.planeUp {p} (h : s.Canon) : (s.planeUp p).Canon := .ite (.ite h.setPlaneState.setPermit.setEqd h.setPlaneState) h

@[simp] theorem Canon.planeDown {p} (h : s.Canon) : (s.planeDown p).Canon := .ite h.setPermit.setPlaneState (.ite h.releaseTo h)

@[simp] theorem Canon.dropId (h : s.Canon) : s.dropId.Canon := h.writeTid.foldl fun _ _ h => .ite h.releaseTo h

@[simp] theorem Canon.holdExpired (h : s.Canon) : s.holdExpired.Canon :=
  Canon.toListening (Canon.count (h.writeTid.foldl fun _ _ h => h.releaseTo))

@[simp] theorem Canon.stopTerm {cause} (h : s.Canon) : (s.stopTerm cause).Canon :=
  Canon.frame (Canon.setTerm (Canon.setFld (Canon.writeTid (h.foldl fun _ _ h => h.setPermit.setEqd))))

@[simp] theorem Canon.writeFlowZero (h : s.Canon) : s.writeFlowZero.Canon := h.setFlow

@[simp] theorem Canon.beginAttempt {a} (h : s.Canon) : (s.beginAttempt a).Canon := h.frame.frame

@[simp] theorem Canon.baseResumes (h : s.Canon) : s.baseResumes.Canon := .ite h.withdraw.beginAttempt h

@[simp] theorem Canon.toAnnouncing (h : s.Canon) : s.toAnnouncing.Canon :=
  Canon.beginAttempt (Canon.frame (Canon.setFlow (Canon.frame (Canon.setFld (Canon.setFld (h.setTerm.foldl fun _ _ h => h.enrolPlane))))))

@[simp] theorem Canon.keepEnrol {m} (h : s.Canon) : (s.keepEnrol m).Canon := h.frame

@[simp] theorem Canon.toPoint (h : s.Canon) : s.toPoint.Canon := .ite h.frame h

@[simp] theorem Canon.takeMsg {m} (h : s.Canon) : (s.takeMsg m).Canon := h.frame

@[simp] theorem Canon.badState (h : s.Canon) : s.badState.Canon := h.count

@[simp] theorem Canon.badValue (h : s.Canon) : s.badValue.Canon := h.count

@[simp] theorem Canon.countShort (h : s.Canon) : s.countShort.Canon := h.count

@[simp] theorem Canon.verdict {m n other stopped okState okValue okPlane apply} (h : s.Canon)
    (ho : ∀ f ∈ other, ∀ s : State, s.Canon → (f s).Canon) (ha : ∀ s : State, s.Canon → (apply s).Canon) :
    (s.verdict m n other stopped okState okValue okPlane apply).Canon := by
  unfold State.verdict
  cases other <;> simp [h, ha, ho]

@[simp] theorem Canon.judge {m t n other stopped okState okValue okPlane apply} (h : s.Canon)
    (ho : ∀ f ∈ other, ∀ s : State, s.Canon → (f s).Canon) (ha : ∀ s : State, s.Canon → (apply s).Canon) :
    (s.judge m t n other stopped okState okValue okPlane apply).Canon := by
  unfold State.judge
  (repeat' split)
  · exact h
  · exact h.takeMsg.count
  · exact h.takeMsg.toPoint.verdict ho ha

@[simp] theorem Canon.setRtd {p rtd} (h : s.Canon) : (s.setRtd p rtd).Canon := h.setReg.retime

/-! ### Operations of `LimOps` -/

@[simp] theorem Canon.setCore {c v} (h : s.Canon) : (s.setCore c v).Canon := h.frame

@[simp] theorem Canon.setCtx {c x v} (h : s.Canon) : (s.setCtx c x v).Canon := h.setCore

@[simp] theorem Canon.mapCtxs {f} (h : s.Canon) : (s.mapCtxs f).Canon := h.frame

@[simp] theorem Canon.setLbank {n v} (h : s.Canon) : (s.setLbank n v).Canon := h.frame

@[simp] theorem Canon.breakLatches {l} (h : s.Canon) : (s.breakLatches l).Canon := h.foldl fun _ _ h => h.setLbank.count

@[simp] theorem Canon.levelAgain {node} (h : s.Canon) : (s.levelAgain node).Canon := h.foldl fun _ _ h => .ite h.fireNode h

@[simp] theorem Canon.completeBlock {seq status cause src result} (h : s.Canon) : (s.completeBlock seq status cause src result).Canon :=
  h.frame.lschCount

@[simp] theorem Canon.freeStore {slot} (h : s.Canon) : (s.freeStore slot).Canon := h.frame

@[simp] theorem Canon.clauseEnds {cl result} (h : s.Canon) : (s.clauseEnds cl result).Canon :=
  .ite h.pmcEvent.completeBlock.freeStore h.pmcEvent.levelAgain

@[simp] theorem Canon.discardHeld {h'} (h : s.Canon) : (s.discardHeld h').Canon := .ite h h.freeCells

@[simp] theorem Canon.loseHeld {src cls code h'} (h : s.Canon) : (s.loseHeld src cls code h').Canon :=
  .ite h.discardHeld.count.report h.discardHeld.qmDrop.report

@[simp] theorem Canon.clauseFaults {cl t src cls code pc word imm} (h : s.Canon) : (s.clauseFaults cl t src cls code pc word imm).Canon := by
  simp +contextual (maxDischargeDepth := 20) [State.clauseFaults, h]

@[simp] theorem Canon.limFault {c x code pc word} (h : s.Canon) : (s.limFault c x code pc word).Canon := by
  unfold State.limFault
  dsimp only
  (repeat' split) <;> simp (maxDischargeDepth := 20) [h]

@[simp] theorem Canon.setAlarm {i e} (h : s.Canon) : (s.setAlarm i e).Canon := h.frame

@[simp] theorem Canon.markLate {i b} (h : s.Canon) : (s.markLate i b).Canon := h.frame

@[simp] theorem Canon.armAlarm {i e} (h : s.Canon) : (s.armAlarm i e).Canon := h.setAlarm.markLate

@[simp] theorem Canon.alarmsPassed (h : s.Canon) : s.alarmsPassed.Canon := h.foldl fun _ _ h => .ite h.markLate h

@[simp] theorem Canon.markDump {k b} (h : s.Canon) : (s.markDump k b).Canon := h.frame

@[simp] theorem Canon.dumpsPassed (h : s.Canon) : s.dumpsPassed.Canon := h.foldl fun _ _ h => .ite h.markDump h

@[simp] theorem Canon.blocksPassed (h : s.Canon) : s.blocksPassed.Canon := h.frame

@[simp] theorem Canon.alarmDue {i} (h : s.Canon) : (s.alarmDue i).Canon := by
  unfold State.alarmDue
  extract_lets e f c late t u v
  have hv : v.Canon := by simp (maxDischargeDepth := 20) [v, u, t, h]
  (repeat' split)
  · exact h
  · exact hv.setAlarm
  · exact hv.setAlarm.lschCount
  · exact hv.setAlarm

/-! ### Operations of `LschOps` -/

@[simp] theorem Canon.dispatch {f c x} (h : s.Canon) : (s.dispatch f c x).Canon := by
  unfold State.dispatch
  dsimp only
  (repeat' split) <;> simp (maxDischargeDepth := 20) [h]

@[simp] theorem Canon.evict {c x} (h : s.Canon) : (s.evict c x).Canon := h.pmcEvent.pmcEvent.pmcEvent.setCtx.setCore.lschCount

@[simp] theorem Canon.clauseDispatch (h : s.Canon) : s.clauseDispatch.Canon := by
  unfold State.clauseDispatch
  (repeat' split) <;> simp (maxDischargeDepth := 20) [h]

@[simp] theorem Canon.clauseResume {c} (h : s.Canon) : (s.clauseResume c).Canon := by
  unfold State.clauseResume
  dsimp only
  (repeat' split) <;> simp (maxDischargeDepth := 20) [h]

@[simp] theorem Canon.swapDrain {c} (h : s.Canon) : (s.swapDrain c).Canon := by
  unfold State.swapDrain
  (repeat' split) <;> simp (maxDischargeDepth := 20) [h]

@[simp] theorem Canon.runLimit {c x} (h : s.Canon) : (s.runLimit c x).Canon := by
  unfold State.runLimit
  dsimp only
  (repeat' split) <;> simp (maxDischargeDepth := 20) [h]

@[simp] theorem Canon.grantTo {n uid} (h : s.Canon) : (s.grantTo n uid).Canon := by
  unfold State.grantTo
  (repeat' split) <;> simp (maxDischargeDepth := 20) [h]

@[simp] theorem Canon.latchGrant {n} (h : s.Canon) : (s.latchGrant n).Canon := by
  unfold State.latchGrant
  dsimp only
  (repeat' split) <;> simp (maxDischargeDepth := 20) [h]

@[simp] theorem Canon.deadlockDetect (h : s.Canon) : s.deadlockDetect.Canon := by
  unfold State.deadlockDetect
  dsimp only
  (repeat' split) <;> simp (maxDischargeDepth := 20) [h]

@[simp] theorem Canon.latchProbe {v} (h : s.Canon) : (s.latchProbe v).Canon := h.setReg

@[simp] theorem Canon.cbReady {slot} (h : s.Canon) : (s.cbReady slot).Canon := by
  unfold State.cbReady
  (repeat' split) <;> simp (maxDischargeDepth := 20) [h]

@[simp] theorem Canon.lschCmdWrite {v} (h : s.Canon) : (s.lschCmdWrite v).Canon := h.startCmd

@[simp] theorem Canon.dropNode {i} (h : s.Canon) : (s.dropNode i).Canon := h.lschCount.lschCount.setGnode.frame

@[simp] theorem Canon.writeGnode {i d} (h : s.Canon) : (s.writeGnode i d).1.Canon := by
  simp [State.writeGnode, h]

@[simp] theorem Canon.lschCmdDone (h : s.Canon) : s.lschCmdDone.Canon := by
  simp (maxDischargeDepth := 20) [State.lschCmdDone, h]

@[simp] theorem Canon.eventRaise {src} (h : s.Canon) : (s.eventRaise src).Canon := by
  unfold State.eventRaise
  dsimp only
  (repeat' split) <;> simp (maxDischargeDepth := 20) [h]

@[simp] theorem Canon.loadCore {a i c later} (h : s.Canon) : (s.loadCore a i c later).Canon :=
  .ite h.setCore (.ite h.writeBytes.setCore.frame h.writeBytes.setCore)

@[simp] theorem Canon.loadImage {a p later} (h : s.Canon) : (s.loadImage a p later).Canon :=
  h.foldl fun _ _ h => h.foldl fun _ _ h => h.loadCore

@[simp] theorem Canon.lschLoad {v} (h : s.Canon) : (s.lschLoad v).Canon := .ite h h.frame.setFld.setFld

@[simp] theorem Canon.loadDone (h : s.Canon) : s.loadDone.Canon := by
  unfold State.loadDone
  (repeat' split) <;> simp (maxDischargeDepth := 20) [h]

@[simp] theorem Canon.banksBecome (h : s.Canon) : s.banksBecome.Canon := Canon.frame (h.foldl fun _ _ h => .ite h.setCore h)

@[simp] theorem Canon.swapRecord {r} (h : s.Canon) : (s.swapRecord r).Canon := .ite h.count h.frame

@[simp] theorem Canon.doSwap {img} (h : s.Canon) : (s.doSwap img).Canon :=
  Canon.swapRecord (Canon.lschCount (Canon.setBit (h.foldl fun _ _ h => .ite h.setCore h)))

@[simp] theorem Canon.swapCtlWrite {v} (h : s.Canon) : (s.swapCtlWrite v).Canon := by
  unfold State.swapCtlWrite
  dsimp only
  (repeat' split) <;> simp (maxDischargeDepth := 20) [h]

@[simp] theorem Canon.swapTarget (h : s.Canon) : s.swapTarget.Canon := by
  unfold State.swapTarget
  (repeat' split) <;> simp (maxDischargeDepth := 20) [h]

@[simp] theorem Canon.hbmAreaWrite {v} (h : s.Canon) : (s.hbmAreaWrite v).Canon := .ite h.latch h.setFld

@[simp] theorem Canon.clusterFaults {k} (h : s.Canon) : (s.clusterFaults k).Canon := by
  refine Canon.foldl (Canon.frame (h.foldl fun s c h => h.setCore)) fun s e h => ?_
  split <;> simp [h]

@[simp] theorem Canon.clearCluster {k} (h : s.Canon) : (s.clearCluster k).Canon :=
  Canon.clearSpace (h.foldl fun _ _ h => h.setCore.clearSpace)

@[simp] theorem Canon.latchRestart (h : s.Canon) : s.latchRestart.Canon := Canon.mapCtxs (h.foldl fun _ _ h => .ite h.breakLatches h)

@[simp] theorem Canon.clusterLost {k} (h : s.Canon) : (s.clusterLost k).Canon :=
  .ite h.clusterFaults.clearCluster.latchRestart.setBit.frame h.clusterFaults.clearCluster

@[simp] theorem Canon.clusterBack {k} (h : s.Canon) : (s.clusterBack k).Canon :=
  .ite (.ite h.frame.setBit.alarmsPassed.blocksPassed h.frame.setBit) h.frame

/-! ### Operations of `LimExec` -/

@[simp] theorem Canon.limPut {c x t rd v} (h : s.Canon) : LimCanon (s.limPut c x t rd v) := by
  simp [State.limPut, h]

@[simp] theorem Canon.limNext {c x t} (h : s.Canon) : LimCanon (s.limNext c x t) := by
  simp [State.limNext, h]

@[simp] theorem Canon.limLoad {c x t rd ra imm n} (h : s.Canon) : LimCanon (s.limLoad c x t rd ra imm n) := by
  unfold State.limLoad
  dsimp only
  (repeat' split) <;> simp (maxDischargeDepth := 20) [h]

@[simp] theorem Canon.limStore {c x t rs ra imm n} (h : s.Canon) : LimCanon (s.limStore c x t rs ra imm n) := by
  unfold State.limStore
  dsimp only
  (repeat' split) <;> simp (maxDischargeDepth := 20) [h]

@[simp] theorem Canon.limXadd {c x t rd ra rb} (h : s.Canon) : LimCanon (s.limXadd c x t rd ra rb) := by
  unfold State.limXadd
  dsimp only
  (repeat' split) <;> simp (maxDischargeDepth := 20) [h]

@[simp] theorem Canon.limJump {c x t cl a link ok} (h : s.Canon) : LimCanon (s.limJump c x t cl a link ok) := by
  simp [State.limJump, h]

@[simp] theorem Canon.limBranch {c x t cl taken off link} (h : s.Canon) : LimCanon (s.limBranch c x t cl taken off link) := by
  simp [State.limBranch, h]

@[simp] theorem Canon.limJr {c x t cl ra link} (h : s.Canon) : LimCanon (s.limJr c x t cl ra link) := h.limJump

@[simp] theorem Canon.limCtlRead {c x t rd a} (h : s.Canon) : LimCanon (s.limCtlRead c x t rd a) := by
  simp [State.limCtlRead, h]

@[simp] theorem Canon.limCtlWrite {c x t cl a v w} (h : s.Canon) : LimCanon (s.limCtlWrite c x t cl a v w) := by
  simp [State.limCtlWrite, h]

@[simp] theorem Canon.afterWrites {c cl r} (h : s.Canon) (hr : LimCanon r) : LimCanon (s.afterWrites c cl r) := by
  simp [State.afterWrites, h, hr]

@[simp] theorem Canon.whileLsch {r} (h : s.Canon) (hr : LimCanon r) : LimCanon (s.whileLsch r) := by
  simp [State.whileLsch, h, hr]

@[simp] theorem Canon.limToken {c x t node v} (h : s.Canon) : LimCanon (s.limToken c x t node v) := by
  unfold State.limToken
  split
  · exact limCanon_error
  · exact (h.token.fst_of ‹_›).limNext
  · exact limCanon_error

@[simp] theorem Canon.limEmit {c x t cl ra k} (h : s.Canon) : LimCanon (s.limEmit c x t cl ra k) := by
  simp [State.limEmit, h]

@[simp] theorem Canon.limEmitx {c x t ra rb} (h : s.Canon) : LimCanon (s.limEmitx c x t ra rb) := by
  simp [State.limEmitx, h]

@[simp] theorem Canon.limEnd {c x t cl} (h : s.Canon) : LimCanon (s.limEnd c x t cl) := by
  simp [State.limEnd, h]

@[simp] theorem Canon.limArm {c x t rd ra rb} (h : s.Canon) : LimCanon (s.limArm c x t rd ra rb) := by
  simp [State.limArm, h]

@[simp] theorem Canon.limTcap {c x t rd sel} (h : s.Canon) : LimCanon (s.limTcap c x t rd sel) := by
  unfold State.limTcap
  (repeat' split) <;> simp (maxDischargeDepth := 20) [h]

@[simp] theorem Canon.limAcq {c x t cl rd ra imm} (h : s.Canon) : LimCanon (s.limAcq c x t cl rd ra imm) := by
  simp [State.limAcq, h]

@[simp] theorem Canon.limRel {c x t cl ra imm} (h : s.Canon) : LimCanon (s.limRel c x t cl ra imm) := by
  simp [State.limRel, h]

@[simp] theorem Canon.limLfix {c x t cl ra imm} (h : s.Canon) : LimCanon (s.limLfix c x t cl ra imm) := by
  simp [State.limLfix, h]

@[simp] theorem Canon.limTake {c x t rd got} (h : s.Canon) (hg : OptCanon (got.map (·.2))) : LimCanon (s.limTake c x t rd got) := by
  unfold State.limTake
  (repeat' split)
  · exact limCanon_error
  · exact h.limPut
  · exact (optCanon_some.1 hg).limPut

@[simp] theorem Canon.takePacket {q} (h : s.Canon) : OptCanon ((s.takePacket q).map (·.2)) := by
  unfold State.takePacket
  (repeat' split) <;> simp (maxDischargeDepth := 20) [h]

@[simp] theorem Canon.limPtake {c x t rd ra} (h : s.Canon) : LimCanon (s.limPtake c x t rd ra) := by
  simp [State.limPtake, h]

@[simp] theorem Canon.takeMessage (h : s.Canon) : OptCanon (s.takeMessage.map (·.2)) := by
  unfold State.takeMessage
  (repeat' split) <;> simp (maxDischargeDepth := 20) [h]

@[simp] theorem Canon.newPacket {c v} (h : s.Canon) : OptCanon ((s.newPacket c v).map (·.2)) := by
  unfold State.newPacket
  extract_lets
  split
  · exact optCanon_none
  · exact optCanon_some.2 (h.takeCells.of ‹_›)

@[simp] theorem Canon.limPnew {c x t rd ra} (h : s.Canon) : LimCanon (s.limPnew c x t rd ra) := by
  simp [State.limPnew, h]

@[simp] theorem Canon.limPld {c x t rd ra rb imm} (h : s.Canon) : LimCanon (s.limPld c x t rd ra rb imm) := by
  unfold State.limPld
  (repeat' split) <;> simp (maxDischargeDepth := 20) [h]

@[simp] theorem Canon.limPst {c x t rs ra rb imm} (h : s.Canon) : LimCanon (s.limPst c x t rs ra rb imm) := by
  unfold State.limPst
  (repeat' split) <;> simp (maxDischargeDepth := 20) [h]

@[simp] theorem Canon.resizeCells {h' n} (h : s.Canon) : OptCanon (s.resizeCells h' n) := by
  simp [State.resizeCells, h]

@[simp] theorem Canon.limPlen {c x t rd ra rb} (h : s.Canon) : LimCanon (s.limPlen c x t rd ra rb) := by
  unfold State.limPlen
  extract_lets n
  (repeat' split)
  · exact limCanon_error
  · exact limCanon_error
  · exact h.limPut
  · exact (h.resizeCells.of ‹_›).limPut

@[simp] theorem Canon.limPmeta {c x t rd ra imm} (h : s.Canon) : LimCanon (s.limPmeta c x t rd ra imm) := by
  unfold State.limPmeta
  (repeat' split) <;> simp (maxDischargeDepth := 20) [h]

@[simp] theorem Canon.cellsFor {p d} (h : s.Canon) : OptCanon (s.cellsFor p d) := by
  unfold State.cellsFor
  extract_lets n
  (repeat' split)
  · exact h.takeCells
  · exact optCanon_some.2 h
  · exact h.takeCells.map fun s h => h.freeCells

@[simp] theorem Canon.limPsend {c x t cl rd ra rb} (h : s.Canon) : LimCanon (s.limPsend c x t cl rd ra rb) := by
  unfold State.limPsend
  extract_lets v act k d
  split
  · exact limCanon_error
  split
  · exact limCanon_error
  split
  · exact limCanon_error
  · extract_lets p
    split
    · exact h.limPut
    split
    · exact h.limPut
    · exact (h.cellsFor.of ‹_›).enterPipe.limPut

@[simp] theorem Canon.limPfree {c x t ra} (h : s.Canon) : LimCanon (s.limPfree c x t ra) := by
  unfold State.limPfree
  (repeat' split) <;> simp (maxDischargeDepth := 20) [h]

@[simp] theorem Canon.limMpost {c x t rd ra rb} (h : s.Canon) : LimCanon (s.limMpost c x t rd ra rb) := by
  unfold State.limMpost
  (repeat' split) <;> simp (maxDischargeDepth := 20) [h]

@[simp] theorem Canon.limMdrop {c x t rd ra} (h : s.Canon) : LimCanon (s.limMdrop c x t rd ra) := h.withdraw.limPut

@[simp] theorem Canon.laSubmit {q r} (h : s.Canon) : (s.laSubmit q r).Canon := h.frame.frame

@[simp] theorem Canon.limCreq {c x t cl rd ra rb} (h : s.Canon) : LimCanon (s.limCreq c x t cl rd ra rb) := by
  unfold State.limCreq
  extract_lets a v q k reply
  generalize (if cl.block = true then reply else decide (cl.sentLenM1 < k)) = c1
  split
  · exact limCanon_error
  split
  · exact limCanon_error
  split
  · exact limCanon_error
  split
  · exact limCanon_error
  · split
    · exact h.limPut
    split
    · exact h.limPut
    split
    · exact h.limPut
    extract_lets
    exact h.laSubmit.limPut

@[simp] theorem Canon.limStep {c x t cl w i} (h : s.Canon) : LimCanon (s.limStep c x t cl w i) := by
  unfold State.limStep
  (repeat' split) <;> simp (maxDischargeDepth := 20) [h]

@[simp] theorem Canon.issued {c x n} (h : s.Canon) : (s.issued c x n).Canon := h.setCore.pmcEvent

@[simp] theorem Canon.limRun {c x i} (h : s.Canon) : (s.limRun c x i).Canon := by
  unfold State.limRun
  extract_lets t
  split
  · exact h
  · extract_lets w
    split
    · exact h
    split
    · exact h.limFault
    split
    · exact h.limFault
    split
    · have ht := h.limStep _ ‹_›
      simp (maxDischargeDepth := 20) [ht]
    · exact h.limFault.issued.pmcEvent

@[simp] theorem Canon.limReturn {c x} (h : s.Canon) : (s.limReturn c x).Canon := by
  unfold State.limReturn
  dsimp only
  (repeat' split) <;> simp (maxDischargeDepth := 20) [h]

/-! ### Operations of `Gates` -/

@[simp] theorem Canon.showSpan {k e} (h : s.Canon) : (s.showSpan k e).Canon := h.setFld.setFld

@[simp] theorem Canon.gateResync (h : s.Canon) : s.gateResync.Canon := by
  refine h.foldl fun s e h => ?_
  split <;> simp [h]

/-! ### Operations of `Macsec` -/

@[simp] theorem Canon.setSa {t i w} (h : s.Canon) : (s.setSa t i w).Canon := h.frame

@[simp] theorem Canon.protectReq {p id b} (h : s.Canon) : LimCanon ((s.protectReq p id b).map (·.2.2)) := by
  unfold State.protectReq
  extract_lets
  split
  · exact limCanon_error
  split
  · exact limCanon_error
  · exact limCanon_ok.2 h.setSa

/-! ### Operations of `Sdh` -/

@[simp] theorem Canon.setSdh {k l} (h : s.Canon) : (s.setSdh k l).Canon := h.frame

@[simp] theorem Canon.clearAu4s {k} (h : s.Canon) : (s.clearAu4s k).Canon := h.foldl fun _ _ h => h.setCircuit

@[simp] theorem Canon.dccHold (h : s.Canon) : s.dccHold.Canon := .ite h h.frame

/-! ### Operations of `CliOps` -/

@[simp] theorem Canon.cliCount {k c n} (h : s.Canon) : (s.cliCount k c n).Canon := .ite h.count.pmcEvent (.ite h.count h.count.pmcEvent)

@[simp] theorem Canon.setLink {k b} (h : s.Canon) : (s.setLink k b).Canon := .ite h h.setBit.setBit.edge

@[simp] theorem Canon.dropEgress {k code} (h : s.Canon) : (s.dropEgress k code).Canon := h.setPort.foldl fun _ _ h => h.cliCount.departDrop

@[simp] theorem Canon.linkFalls {k} (h : s.Canon) : (s.linkFalls k).Canon := h.ptpDisable.setLink.setPort.dropEgress

@[simp] theorem Canon.portStops {k} (h : s.Canon) : (s.portStops k).Canon := h.linkFalls.setPort

@[simp] theorem Canon.cliCfgWrite {k v} (h : s.Canon) : (s.cliCfgWrite k v).Canon := by
  unfold State.cliCfgWrite
  dsimp only
  (repeat' split) <;> simp +contextual (maxDischargeDepth := 20) [h]

@[simp] theorem Canon.setPaused {k v} (h : s.Canon) : (s.setPaused k v).Canon := h.setFld

@[simp] theorem Canon.pauseRx {k time} (h : s.Canon) : (s.pauseRx k time).Canon := .ite h.setPaused.cliCount h.cliCount

@[simp] theorem Canon.pfcRx {k enable times} (h : s.Canon) : (s.pfcRx k enable times).Canon := .ite h.setPaused.cliCount h.cliCount

@[simp] theorem Canon.pauseExpiry {k p} (h : s.Canon) : (s.pauseExpiry k p).Canon := h.setPaused

@[simp] theorem Canon.fcSend {k mask quanta} (h : s.Canon) : (s.fcSend k mask quanta).Canon := .ite h h.setPort.cliCount

@[simp] theorem Canon.setStop {k mask} (h : s.Canon) : (s.setStop k mask).Canon := h.setPort.setBit

@[simp] theorem Canon.fcXoff {k} (h : s.Canon) : (s.fcXoff k).Canon := .ite h (.ite h h.fcSend.setStop)

@[simp] theorem Canon.fcXon {k} (h : s.Canon) : (s.fcXon k).Canon := .ite h (.ite h h.fcSend.setStop)

@[simp] theorem Canon.fcRefresh {k} (h : s.Canon) : (s.fcRefresh k).Canon := .ite h h.fcSend

@[simp] theorem Canon.linkRises {k} (h : s.Canon) : (s.linkRises k).Canon :=
  .ite h h.setBit.setBit.setBit.setBit.setBit.setLink.ptpEnable.setPort.setStop.fcRefresh

@[simp] theorem Canon.linkState {k localFault remoteFault blockLock amLock fecLock} (h : s.Canon) :
    (s.linkState k localFault remoteFault blockLock amLock fecLock).Canon :=
  .ite h (.ite h.setBit.setBit.setBit.setBit.setBit.setPort.linkFalls h.setBit.setBit.setBit.setBit.setBit.setPort)

@[simp] theorem Canon.macControl {k b fcsOk} (h : s.Canon) : (s.macControl k b fcsOk).Canon :=
  .ite h.cliCount (.ite h.pauseRx (.ite h.pfcRx h.cliCount))

@[simp] theorem Canon.setRecov {g r} (h : s.Canon) : (s.setRecov g r).Canon := h.frame

@[simp] theorem Canon.rtagRx {k b} (h : s.Canon) : (s.rtagRx k b).2.Canon := by
  unfold State.rtagRx
  (repeat' split) <;> simp (maxDischargeDepth := 20) [h]

@[simp] theorem Canon.clientPacket {p} (h : s.Canon) : (s.clientPacket p).Canon := by
  unfold State.clientPacket
  extract_lets n
  split
  · simp [h]
  · have ht := h.takeCells.of ‹_›
    simp [h, ht]

@[simp] theorem Canon.rxFails {k stamp b seq} (h : s.Canon) : (s.rxFails k stamp b seq).Canon := .ite h.clientPacket h

@[simp] theorem Canon.clientPassed {k f stamp b} (h : s.Canon) : (s.clientPassed k f stamp b).Canon := by
  unfold State.clientPassed
  dsimp only
  (repeat' split) <;> simp (maxDischargeDepth := 20) [h]

@[simp] theorem Canon.clientData {k f} (h : s.Canon) : (s.clientData k f).Canon := by
  unfold State.clientData
  dsimp only
  (repeat' split) <;> simp (maxDischargeDepth := 20) [h]

@[simp] theorem Canon.clientFrame {k f} (h : s.Canon) : (s.clientFrame k f).Canon := by
  simp [State.clientFrame, h]

@[simp] theorem Canon.gateNext {k} (h : s.Canon) : (s.gateNext k).Canon := by
  unfold State.gateNext
  dsimp only
  (repeat' split) <;> simp (maxDischargeDepth := 20) [h]

@[simp] theorem Canon.gclCommit {k} (h : s.Canon) : (s.gclCommit k).Canon := .ite h (.ite h.latch h.setPort.setBit.latchIf)

@[simp] theorem Canon.gclUncommit {k} (h : s.Canon) : (s.gclUncommit k).Canon := h.setPort.setBit

@[simp] theorem Canon.gclCancel {k} (h : s.Canon) : (s.gclCancel k).Canon := .ite h (.ite h.gclUncommit h.latch)

@[simp] theorem Canon.gclDisable {k} (h : s.Canon) : (s.gclDisable k).Canon := .ite h h.gclUncommit.setPort.setBit.showSpan

@[simp] theorem Canon.gclData {k write v} (h : s.Canon) : (s.gclData k write v).Canon :=
  .ite (.ite h h.frame) (Canon.setFld (.ite (.ite h.latch h.setPort) h.frame))

@[simp] theorem Canon.gclStart {k} (h : s.Canon) : (s.gclStart k).Canon := by
  unfold State.gclStart
  dsimp only
  (repeat' split) <;> simp (maxDischargeDepth := 20) [h]

@[simp] theorem Canon.portSelect {k} (h : s.Canon) : (s.portSelect k).Canon := by
  unfold State.portSelect
  (repeat' split) <;> simp [h]
  exact (h.selectFor.of_map ‹_›).pmcEvent.setPort

@[simp] theorem Canon.takeEgress {k p} (h : s.Canon) : (s.takeEgress k p).Canon := h.setPort

@[simp] theorem Canon.emitFrame {k p b rep} (h : s.Canon) : (s.emitFrame k p b rep).Canon := by
  unfold State.emitFrame
  (repeat' split) <;> simp (maxDischargeDepth := 20) [h]

@[simp] theorem Canon.sendPacket {k p} (h : s.Canon) : (s.sendPacket k p).Canon := by
  unfold State.sendPacket
  extract_lets
  split
  · exact h.emitFrame
  · split
    · exact h.takeEgress.ciphCount.departDrop
    · rename_i e
      exact (Canon.ciphSubmit (h.protectReq _ (by rw [e]; rfl))).setPort

@[simp] theorem Canon.trySend {k blocked l} (h : s.Canon) : (s.trySend k blocked l).Canon := by
  induction l generalizing s blocked with
  | nil => exact h
  | cons p l ih =>
    unfold State.trySend
    extract_lets n rate over_ t late opened _ u
    have hu : u.Canon := by simp (maxDischargeDepth := 20) [u, h]
    split
    · exact ih h
    split
    · exact ih (Canon.departDrop (Canon.cliCount h.takeEgress))
    split
    · exact ih h
    split
    · exact ih hu
    · exact h.sendPacket

@[simp] theorem Canon.frameArrives {k f} (h : s.Canon) : (s.frameArrives k f).Canon := .ite h (.ite h.clientFrame.setPort h.clientFrame)

@[simp] theorem Canon.nextFrame {k} (h : s.Canon) : (s.nextFrame k).Canon := by
  unfold State.nextFrame
  (repeat' split) <;> simp (maxDischargeDepth := 20) [h]

@[simp] theorem Canon.throughLoop {k act} (h : s.Canon) (ha : ∀ s : State, s.Canon → (act s).Canon) : (s.throughLoop k act).Canon := by
  unfold State.throughLoop
  extract_lets old _ t _ u
  have hu : u.Canon := Canon.setPort (ha _ h.setPort)
  (repeat' split)
  · exact ha s h
  · exact hu.clientFrame
  · exact hu
  · exact hu

@[simp] theorem Canon.clientTx {k} (h : s.Canon) : (s.clientTx k).Canon := h.throughLoop (fun _ h => h.nextFrame)

/-! ### Operations of `MacFlow` -/

@[simp] theorem Canon.raisePn {m} (h : s.Canon) : (s.raisePn m).Canon := .ite h.setSa h

@[simp] theorem Canon.macVerified {k m d} (h : s.Canon) : (s.macVerified k m d).Canon :=
  .ite h.cliCount (.ite h.ciphCount.cliCount (.ite h.ciphCount.cliCount.rxFails h.raisePn.clientPassed))

@[simp] theorem Canon.verifyFlush {k fuel} (h : s.Canon) : (s.verifyFlush k fuel).Canon := by
  induction fuel generalizing s with
  | zero => exact h
  | succ fuel ih =>
    unfold State.verifyFlush
    (repeat' split)
    · exact h
    · exact h
    · exact ih (h.takeResult.snd_of ‹_›).setPort.macVerified

@[simp] theorem Canon.macSealed {k m d} (h : s.Canon) : (s.macSealed k m d).Canon := by
  unfold State.macSealed
  (repeat' split) <;> simp +contextual (maxDischargeDepth := 20) [h]

@[simp] theorem Canon.sealFlush {k} (h : s.Canon) : (s.sealFlush k).Canon := by
  unfold State.sealFlush
  (repeat' split)
  · exact h
  · exact h
  · exact (h.takeResult.snd_of ‹_›).setPort.macSealed

@[simp] theorem Canon.inlineEnd {r status text tag} (h : s.Canon) : (s.inlineEnd r status text tag).Canon := by
  unfold State.inlineEnd
  (repeat' split) <;> simp (maxDischargeDepth := 20) [h]

/-! ### Operations of `CiphDone` -/

@[simp] theorem Canon.setLook {q l} (h : s.Canon) : (s.setLook q l).Canon := h.frame

@[simp] theorem Canon.laWrite {r a b} (h : s.Canon) : (s.laWrite r a b).1.Canon := by
  unfold State.laWrite
  (repeat' split) <;> simp (maxDischargeDepth := 20) [h]

@[simp] theorem Canon.laRun {r l} (h : s.Canon) : (s.laRun r l).1.Canon := by
  induction l generalizing s with
  | nil => exact h
  | cons w l ih =>
    unfold State.laRun
    split
    · exact h.laWrite.fst_of ‹_›
    · exact ih (h.laWrite.fst_of ‹_›)

@[simp] theorem Canon.laOutput {r status tag hostError} (h : s.Canon) : (s.laOutput r status tag hostError).1.Canon := by
  simp [State.laOutput, h]

@[simp] theorem Canon.laProduce {r} (h : s.Canon) : (s.laProduce r).1.Canon := by
  simp [State.laProduce, h]

@[simp] theorem Canon.laTick (h : s.Canon) : s.laTick.Canon := by
  refine h.foldl fun s e h => ?_
  (repeat' split) <;> simp [h]

@[simp] theorem Canon.laComplete {r status} (h : s.Canon) : (s.laComplete r status).Canon := by
  unfold State.laComplete
  (repeat' split) <;> simp (maxDischargeDepth := 20) [h]

@[simp] theorem Canon.laFlush {q fuel} (h : s.Canon) : (s.laFlush q fuel).Canon := by
  induction fuel generalizing s with
  | zero => exact h
  | succ fuel ih =>
    unfold State.laFlush
    (repeat' split)
    · exact h
    · exact h
    · exact ih (Canon.setLook h.frame).laComplete

@[simp] theorem Canon.zeroise {n} (h : s.Canon) : (s.zeroise n).Canon := h.setSlot

@[simp] theorem Canon.countEnd {r status} (h : s.Canon) : (s.countEnd r status).Canon := by
  unfold State.countEnd
  (repeat' split) <;> simp (maxDischargeDepth := 20) [h]

@[simp] theorem Canon.reqDone {e hostError} (h : s.Canon) : (s.reqDone e hostError).Canon := by
  unfold State.reqDone
  (repeat' split) <;> simp (maxDischargeDepth := 20) [h]

@[simp] theorem Canon.keyCtlWrite {v} (h : s.Canon) : (s.keyCtlWrite v).Canon := .ite h (.ite h.setReg h.setReg.setFld)

@[simp] theorem Canon.keyOp {op n} (h : s.Canon) : (s.keyOp op n).1.Canon := by
  unfold State.keyOp
  (repeat' split) <;> simp +contextual (maxDischargeDepth := 20) [h]

@[simp] theorem Canon.keyOpDone (h : s.Canon) : s.keyOpDone.Canon := .ite h h.keyOp.setFld.setFld

@[simp] theorem Canon.saCmdWrite {v} (h : s.Canon) : (s.saCmdWrite v).Canon := h.startCmd

@[simp] theorem Canon.saCmdDone (h : s.Canon) : s.saCmdDone.Canon := by
  unfold State.saCmdDone
  (repeat' split) <;> simp +contextual (maxDischargeDepth := 20) [h]

/-! ### Operations of `CircOps` -/

@[simp] theorem Canon.setCgroup {g v} (h : s.Canon) : (s.setCgroup g v).Canon := h.frame

@[simp] theorem Canon.exchangeCells {old n} (h : s.Canon) : OptCanon ((s.exchangeCells old n).map (·.2)) := by
  unfold State.exchangeCells
  (repeat' split) <;> simp (maxDischargeDepth := 20) [h]

@[simp] theorem Canon.circCmdWrite {v} (h : s.Canon) : (s.circCmdWrite v).Canon := h.startCmd

/- The unfolding of `writeCircuit` on its arguments nests too deep for the kernel; `delta` at the function itself does not. -/
@[simp] theorem Canon.writeCircuit {i d} (h : s.Canon) : (s.writeCircuit i d).1.Canon := by
  have e : State.writeCircuit = State.writeCircuit := rfl
  conv_rhs at e => delta State.writeCircuit
  generalize hp : s.writeCircuit i d = p
  rw [e] at hp
  dsimp only at hp
  generalize s.circRefusal i _ = r at hp
  cases r with
  | some n =>
    subst hp
    exact h
  | none =>
    generalize hx : s.exchangeCells _ _ = x at hp
    cases x with
    | none =>
      subst hp
      exact h
    | some x =>
      subst hp
      exact (h.exchangeCells.of_map hx).setCircuit

/- The unfolding of `memberCells` on its arguments nests too deep for the kernel; `delta` at the function itself does not. -/
@[simp] theorem Canon.memberCells {en i} (h : s.Canon) : (s.memberCells en i).Canon := by
  have e : State.memberCells = State.memberCells := rfl
  conv_rhs at e => delta State.memberCells
  rw [e]
  beta_reduce
  extract_lets c
  split
  · exact h
  · exact (h.exchangeCells.of_map ‹_›).setCircuit

@[simp] theorem Canon.writeGroup {g d} (h : s.Canon) : (s.writeGroup g d).1.Canon := by
  simp +contextual (maxDischargeDepth := 20) [State.writeGroup, h]

@[simp] theorem Canon.setHold {i h'} (h : s.Canon) : (s.setHold i h').Canon := .ite h.setCircuit h.frame.setCircuit

@[simp] theorem Canon.alignGroup {g} (h : s.Canon) : (s.alignGroup g).Canon := by
  unfold State.alignGroup
  extract_lets l t ok base ns
  have ht : t.Canon := h.foldl fun s i h => by (repeat' split) <;> simp [h]
  cases ns with
  | nil => exact ht
  | cons n ns => exact ht.foldl fun s e h => h.setHold

@[simp] theorem Canon.alignGroups (h : s.Canon) : s.alignGroups.Canon := by
  simp +contextual (maxDischargeDepth := 20) [State.alignGroups, h]

@[simp] theorem Canon.readCircuit {i} (h : s.Canon) : (s.readCircuit i).Canon := h.setReg.setReg.setReg

@[simp] theorem Canon.readGroup {g} (h : s.Canon) : (s.readGroup g).Canon := h.setReg

@[simp] theorem Canon.circCmdDone (h : s.Canon) : s.circCmdDone.Canon := by
  unfold State.circCmdDone
  (repeat' split) <;> simp (maxDischargeDepth := 20) [h]

@[simp] theorem Canon.containerRx {f bytes m p} (h : s.Canon) : (s.containerRx f bytes m p).Canon := by
  unfold State.containerRx
  (repeat' split) <;> simp (maxDischargeDepth := 20) [h]

@[simp] theorem Canon.playInput {i x anew} (h : s.Canon) : (s.playInput i x anew).Canon := .ite h.frame.setCircuit h.setCircuit

@[simp] theorem Canon.dropOvertaken {g i keep} (h : s.Canon) : (s.dropOvertaken g i keep).Canon := h.setCircuit.circCount

@[simp] theorem Canon.playOut {g i} (h : s.Canon) : (s.playOut g i).Canon := by
  unfold State.playOut
  dsimp only
  (repeat' split) <;> simp (maxDischargeDepth := 20) [h]

@[simp] theorem Canon.playAll {g} (h : s.Canon) : (s.playAll g).Canon := h.foldl fun _ _ h => h.playOut

@[simp] theorem Canon.queueCont {x} (h : s.Canon) : (s.queueCont x).Canon := h.frame.circCount

@[simp] theorem Canon.closeWith {i fr just} (h : s.Canon) : (s.closeWith i fr just).Canon := h.frame.setCircuit.queueCont

@[simp] theorem Canon.recentre {i} (h : s.Canon) : (s.recentre i).Canon := .ite h.setCircuit h.frame.setCircuit

@[simp] theorem Canon.closeCont {fr i} (h : s.Canon) : (s.closeCont fr i).Canon := by
  simp (maxDischargeDepth := 20) [State.closeCont, h]

@[simp] theorem Canon.closeAll {fr} (h : s.Canon) : (s.closeAll fr).Canon := .ite h (h.alignGroups.foldl fun _ _ h => h.closeCont)

@[simp] theorem Canon.purgeConts {g} (h : s.Canon) : (s.purgeConts g).Canon := h.frame.circCount

@[simp] theorem Canon.circLose {cls code} (h : s.Canon) : (s.circLose cls code).Canon :=
  Canon.foldl (Canon.frame (h.foldl fun _ _ h => h.circCount.report)) fun _ _ h => h.setCircuit

@[simp] theorem Canon.setLaneDefect {k i b} (h : s.Canon) : (s.setLaneDefect k i b).Canon :=
  .ite h (.ite h.setBit.setBit.edge.clearAu4s h.setBit.setBit.edge)

@[simp] theorem Canon.laneRun {k i cond n m} (h : s.Canon) : (s.laneRun k i cond n m).Canon :=
  .ite h.setSdh.setLaneDefect (.ite h.setSdh.setLaneDefect h.setSdh)

@[simp] theorem Canon.laneK {k kk} (h : s.Canon) : (s.laneK k kk).Canon := .ite h.setSdh.setFld.setBit.edge h.setSdh

@[simp] theorem Canon.au4Rx {i x t0} (h : s.Canon) : (s.au4Rx i x t0).Canon := .ite h.setCircuit h.setCircuit

@[simp] theorem Canon.setDccWait {n l} (h : s.Canon) : (s.setDccWait n l).Canon := h.frame

@[simp] theorem Canon.dccPush {k t0 r m} (h : s.Canon) : (s.dccPush k t0 r m).Canon := h.foldl fun _ _ h => .ite h.setDccWait h

@[simp] theorem Canon.sdhParity {k f} (h : s.Canon) : (s.sdhParity k f).2.Canon := h.setSdh

@[simp] theorem Canon.sdhFrame {k f} (h : s.Canon) : (s.sdhFrame k f).Canon := by
  simp +contextual (maxDischargeDepth := 20) [State.sdhFrame, h]

@[simp] theorem Canon.dccSlot {n t} (h : s.Canon) : (s.dccSlot n t).2.Canon := by
  unfold State.dccSlot
  (repeat' split) <;> simp (maxDischargeDepth := 20) [h]

@[simp] theorem Canon.dccSlip {k} (h : s.Canon) : (s.dccSlip k).Canon := .ite h h.circCount

@[simp] theorem Canon.dccInsert {n t bits} (h : s.Canon) : (s.dccInsert n t bits).Canon := .ite h (.ite h.setSdh h.setSdh)

@[simp] theorem Canon.dccFrame {i dataIn} (h : s.Canon) : (s.dccFrame i dataIn).Canon := by
  unfold State.dccFrame
  split
  · exact h
  extract_lets _ t n
  have ht : t.Canon := h.frame
  split
  rename_i e
  refine Canon.foldl (Canon.frame ((Canon.foldl_snd ht fun a j ha => ?_).snd_of e)) fun s j h => h.dccInsert
  exact ha.dccSlot

@[simp] theorem Canon.dccSend {k sel n t w} (h : s.Canon) : (s.dccSend k sel n t w).2.Canon := by
  unfold State.dccSend
  (repeat' split) <;> simp (maxDischargeDepth := 20) [h]

@[simp] theorem Canon.playTake {i n} (h : s.Canon) : (s.playTake i n).2.Canon := h.frame.setCircuit

@[simp] theorem Canon.au4Send {i} (h : s.Canon) : (s.au4Send i).2.Canon := by
  unfold State.au4Send
  dsimp only
  (repeat' split) <;> simp (maxDischargeDepth := 20) [h]

@[simp] theorem Canon.au4sSend {l} (h : s.Canon) : (s.au4sSend l).2.Canon := by
  induction l generalizing s with
  | nil => exact h
  | cons i l ih => exact ih h.au4Send

@[simp] theorem Canon.sdhSend {k t} (h : s.Canon) : (s.sdhSend k t).Canon := by
  unfold State.sdhSend
  dsimp only
  (repeat' split) <;> simp (maxDischargeDepth := 20) [h]

@[simp] theorem Canon.laneSends {k} (h : s.Canon) : (s.laneSends k).Canon :=
  .ite h.setSdh.sdhSend (.ite h.frame.setSdh.sdhSend.setSdh.sdhSend (.ite h.frame.setSdh h.frame.setSdh.sdhSend))

@[simp] theorem Canon.sdhSendAll (h : s.Canon) : s.sdhSendAll.Canon := by
  simp +contextual (maxDischargeDepth := 20) [State.sdhSendAll, h]

@[simp] theorem Canon.sdhArrives {k f} (h : s.Canon) : (s.sdhArrives k f).Canon := by
  unfold State.sdhArrives
  (repeat' split) <;> simp (maxDischargeDepth := 20) [h]

@[simp] theorem Canon.circBoundary {g} (h : s.Canon) : (s.circBoundary g).Canon := h.purgeConts.playAll.closeAll.sdhSendAll

/-! ### Operations of `MedOps` -/

@[simp] theorem Canon.laneUp {p} (h : s.Canon) : (s.laneUp p).Canon :=
  .ite h.setBit.huntRestart.setLane.setBit.setPlaneState h.setBit.huntRestart.setLane.setBit

@[simp] theorem Canon.laneDown {p} (h : s.Canon) : (s.laneDown p).Canon := by
  simp (maxDischargeDepth := 20) [State.laneDown, h]

@[simp] theorem Canon.laneEnable {p b} (h : s.Canon) : (s.laneEnable p b).Canon := .ite h (.ite h.laneUp h.laneDown)

@[simp] theorem Canon.modeChanged {p} (h : s.Canon) : (s.modeChanged p).Canon :=
  .ite (.ite h.setBit h.abandonFrame.huntRestart) (.ite h.setBit h.setBit.setRate.abandonFrame)

@[simp] theorem Canon.setMode {p m} (h : s.Canon) : (s.setMode p m).Canon := .ite h.setFld.modeChanged h.setFld

@[simp] theorem Canon.showMsd {p msdPin} (h : s.Canon) : (s.showMsd p msdPin).Canon := h.setLane.setBit

@[simp] theorem Canon.setLol {p} (h : s.Canon) : (s.setLol p).Canon := .ite h.setLane h.setLane.setBit.latch.abandonFrame

@[simp] theorem Canon.setLos {p} (h : s.Canon) : (s.setLos p).Canon := .ite h h.setBit.latch.setLane.abandonFrame.setLol

@[simp] theorem Canon.clearLos {p} (h : s.Canon) : (s.clearLos p).Canon := .ite h.setBit.setBit h.setBit

@[simp] theorem Canon.checkPattern {p levels} (h : s.Canon) : (s.checkPattern p levels).Canon := .ite h.setLane.setBit.count h

@[simp] theorem Canon.startPattern {p} (h : s.Canon) : (s.startPattern p).Canon := h.setLane

@[simp] theorem Canon.sendPattern {p n} (h : s.Canon) : (s.sendPattern p n).2.Canon := h.setLane

@[simp] theorem Canon.farEnd {p levels} (h : s.Canon) : (s.farEnd p levels).Canon := .ite h.setLane h

@[simp] theorem Canon.lanesTick (h : s.Canon) : s.lanesTick.Canon := h.frame

@[simp] theorem Canon.showTxLock (h : s.Canon) : s.showTxLock.Canon := h.setFld.foldl fun _ _ h => h.setBit

/-! ### Operations of `WardOps` -/

@[simp] theorem Canon.setWard {f b} (h : s.Canon) : (s.setWard f b).Canon := .ite h h.setBit.edge

@[simp] theorem Canon.setWards {l} (h : s.Canon) : (s.setWards l).Canon :=
  .ite (h.foldl fun _ _ h => h.setFld) (Canon.edge (h.foldl fun _ _ h => h.setFld))

@[simp] theorem Canon.wardAge (h : s.Canon) : s.wardAge.Canon := h.setWards

@[simp] theorem Canon.wardFree (h : s.Canon) : s.wardFree.Canon := h.frame

@[simp] theorem Canon.violation {p overrun} (h : s.Canon) : (s.violation p overrun).Canon :=
  .ite h (Canon.signal (Canon.setWards (.ite h.frame.cutAll.count h.frame.cutAll.count.setReg.latch)))

@[simp] theorem Canon.leadStart {p l} (h : s.Canon) : (s.leadStart p l).Canon := by
  unfold State.leadStart
  (repeat' split) <;> simp (maxDischargeDepth := 20) [h]

@[simp] theorem Canon.lagEnd {p a e} (h : s.Canon) : (s.lagEnd p a e).Canon :=
  .ite h.setUplane.violation (.ite h.setUplane h.setUplane.stopPlane)

@[simp] theorem Canon.mbenTick {p} (h : s.Canon) : (s.mbenTick p).Canon := by
  unfold State.mbenTick
  dsimp only
  (repeat' split) <;> simp (maxDischargeDepth := 20) [h]

@[simp] theorem Canon.takeInbox {m} (h : s.Canon) : (s.takeInbox m).Canon := h.frame

@[simp] theorem Canon.logReason {m} (h : s.Canon) : (s.logReason m).Canon := h.frame

@[simp] theorem Canon.readCopy {m n} (h : s.Canon) : (s.readCopy m n).Canon := .ite (.ite h.frame.count (.ite h.frame h.frame.logReason)) h

@[simp] theorem Canon.wardLockout {m permanent} (h : s.Canon) : (s.wardLockout m permanent).Canon :=
  .ite h.takeInbox.count h.takeInbox.count.setWards.cutAll

@[simp] theorem Canon.wardRelease {m} (h : s.Canon) : (s.wardRelease m).Canon :=
  .ite h.takeInbox.count (.ite h.takeInbox.count h.takeInbox.count.setWard.wardFree)

@[simp] theorem Canon.wardMessage {m act} (h : s.Canon) (ha : ∀ s : State, s.Canon → (act s).Canon) : (s.wardMessage m act).Canon := by
  simp [State.wardMessage, h, ha]

/-! ### Operations of `TimeOps` -/

@[simp] theorem Canon.anchorMessage {m} (h : s.Canon) : (s.anchorMessage m).Canon :=
  .ite h.takeInbox (.ite h.takeInbox.frame h.takeInbox.count)

@[simp] theorem Canon.recordStep {before after} (h : s.Canon) : (s.recordStep before after).Canon := h.setReg.setReg.setReg

@[simp] theorem Canon.applyEstimate {e} (h : s.Canon) : (s.applyEstimate e).Canon := by
  simp (maxDischargeDepth := 20) [State.applyEstimate, h]

@[simp] theorem Canon.anchorBoundary (h : s.Canon) : s.anchorBoundary.Canon := by
  unfold State.anchorBoundary
  dsimp only
  (repeat' split) <;> simp (maxDischargeDepth := 20) [h]

@[simp] theorem Canon.slew (h : s.Canon) : s.slew.Canon := h.frame.setBit

@[simp] theorem Canon.setPulse {i v} (h : s.Canon) : (s.setPulse i v).Canon := h.frame

@[simp] theorem Canon.tpoMissed {i n} (h : s.Canon) : (s.tpoMissed i n).Canon := h.count

@[simp] theorem Canon.tpoAfter {i} (h : s.Canon) : (s.tpoAfter i).Canon := .ite h.setBit h

@[simp] theorem Canon.tpoSkip {i} (h : s.Canon) : (s.tpoSkip i).Canon := .ite h h.setPulse.tpoMissed.tpoAfter

@[simp] theorem Canon.tpoConvert {i} (h : s.Canon) : (s.tpoConvert i).Canon := h.setPulse

@[simp] theorem Canon.tpoBoundary (h : s.Canon) : s.tpoBoundary.Canon :=
  .ite h (h.foldl fun _ _ h => .ite (.ite h.tpoSkip.tpoConvert h.tpoSkip) h)

@[simp] theorem Canon.tpoWrite {i v} (h : s.Canon) : (s.tpoWrite i v).Canon := by
  simp (maxDischargeDepth := 20) [State.tpoWrite, h]

@[simp] theorem Canon.tpoEmit {i pos} (h : s.Canon) : (s.tpoEmit i pos).Canon := .ite h.tpoMissed h.setPulse

@[simp] theorem Canon.tpoFalls (h : s.Canon) : s.tpoFalls.Canon := by
  refine h.foldl fun s i h => ?_
  (repeat' split) <;> simp [h]

@[simp] theorem Canon.tpoEdge {i} (h : s.Canon) : (s.tpoEdge i).Canon := by
  unfold State.tpoEdge
  dsimp only
  (repeat' split) <;> simp (maxDischargeDepth := 20) [h]

@[simp] theorem Canon.lpStop (h : s.Canon) : s.lpStop.Canon := by
  simp +contextual (maxDischargeDepth := 20) [State.lpStop, h]

@[simp] theorem Canon.setCapture {j l} (h : s.Canon) : (s.setCapture j l).Canon := h.frame

@[simp] theorem Canon.tciEdge {j rising} (h : s.Canon) : (s.tciEdge j rising).Canon := .ite h (.ite h.count h.setCapture)

@[simp] theorem Canon.snapshot (h : s.Canon) : s.snapshot.Canon := h.setReg.setReg.setReg.setReg

/-! ### Operations of `DfpOps` -/

@[simp] theorem Canon.receivedLevels {p levels} (h : s.Canon) : OptCanon ((s.receivedLevels p levels).map (·.2)) := by
  unfold State.receivedLevels
  (repeat' split) <;> simp (maxDischargeDepth := 20) [h]

@[simp] theorem Canon.codeword {p slot x levels} (h : s.Canon) : (s.codeword p slot x levels).Canon := by
  unfold State.codeword
  extract_lets d
  split
  · exact h
  split
  · exact h
  · rename_i e
    extract_lets lv t
    have ht : t.Canon := (h.receivedLevels.of_map e).checkPattern.farEnd
    split
    · exact ht
    dsimp only
    simp (maxDischargeDepth := 20) [ht]

@[simp] theorem Canon.windowCheck {p h' x} (h : s.Canon) : (s.windowCheck p h' x).2.Canon := by
  simp [State.windowCheck, h]

@[simp] theorem Canon.planeDefect {p shown latched b} (h : s.Canon) : (s.planeDefect p shown latched b).Canon := h.setBit.latchIf

@[simp] theorem Canon.lpStart {p f age} (h : s.Canon) : (s.lpStart p f age).Canon := by
  simp +contextual (maxDischargeDepth := 20) [State.lpStart, h]

@[simp] theorem Canon.goodFrame {p h' x ago} (h : s.Canon) : (s.goodFrame p h' x ago).Canon := by
  simp (maxDischargeDepth := 20) [State.goodFrame, h]

@[simp] theorem Canon.judgeSd {p} (h : s.Canon) : (s.judgeSd p).Canon :=
  .ite h (.ite h.setDplane.planeDefect (.ite h.setDplane.setBit h.setDplane))

@[simp] theorem Canon.enterFrame {p} (h : s.Canon) : (s.enterFrame p).Canon := h.setFld.setLane.setBit.setEplane.frame.setDplane

@[simp] theorem Canon.badFrame {p} (h : s.Canon) : (s.badFrame p).Canon := .ite h.count.toSearch h.count.setFld.setDplane

@[simp] theorem Canon.frameAlign {p off} (h : s.Canon) : (s.frameAlign p off).Canon := by
  simp (maxDischargeDepth := 20) [State.frameAlign, h]

@[simp] theorem Canon.routeParcel {o text} (h : s.Canon) : (s.routeParcel o text).Canon :=
  .ite (.ite h.disp (.ite h.delivered h.delivered.containerRx)) (.ite (.ite h.frame.rsqArrive h.frame.reassemble) h.disp)

@[simp] theorem Canon.loseParcel {src cls code plane frame h'} (h : s.Canon) : (s.loseParcel src cls code plane frame h').Canon :=
  h.disp.report

@[simp] theorem Canon.parcelOpened {p} (h : s.Canon) : (s.parcelOpened p).Canon := by
  unfold State.parcelOpened
  split
  · exact h
  split
  · exact h
  · rename_i e
    have ht := h.takeResult.snd_of e
    simp [ht]

/-! ### Operations of `Enrol` -/

@[simp] theorem Canon.enrolParams {m} (h : s.Canon) : (s.enrolParams m).Canon :=
  .ite h.keepEnrol.toAnnouncing (h.keepEnrol.foldl fun _ _ h => h.enrolPlane)

@[simp] theorem Canon.idAssign {m} (h : s.Canon) : (s.idAssign m).Canon := by
  simp +contextual (maxDischargeDepth := 20) [State.idAssign, h]

@[simp] theorem Canon.rangeResult {p eqd rtd} (h : s.Canon) : (s.rangeResult p eqd rtd).Canon :=
  .ite h.setEqd.setRtd.setPlaneState.setPermit.setReg.setEplane.termStep h.setEqd.setRtd

@[simp] theorem Canon.assignPlane {g p} (h : s.Canon) : (s.assignPlane g p).Canon := by
  unfold State.assignPlane
  (repeat' split) <;> simp (maxDischargeDepth := 20) [h]

@[simp] theorem Canon.releasePlane {p} (h : s.Canon) : (s.releasePlane p).Canon := .ite h.releaseTo h.badState

@[simp] theorem Canon.leadMessage {m} (h : s.Canon) : (s.leadMessage m).Canon :=
  .ite h.readCopy.takeInbox (.ite h.readCopy.takeInbox.count h.readCopy.takeInbox.dueLead)

@[simp] theorem Canon.startTerm (h : s.Canon) : s.startTerm.Canon :=
  Canon.toListening (h.frame.setReg.writeFlowZero.setFld.foldl fun _ _ h => .ite h.setMode.laneEnable h)

/-! ### Operations of `HostOps` -/

@[simp] theorem Canon.busError {poisoned} (h : s.Canon) : (s.busError poisoned).Canon := h.count

@[simp] theorem Canon.cmdDoorbell {v} (h : s.Canon) : (s.cmdDoorbell v).Canon := h.setFld

@[simp] theorem Canon.cmdEnable (h : s.Canon) : s.cmdEnable.Canon := h.setBit.setBit.setFld.setFld

@[simp] theorem Canon.fetchEnds (h : s.Canon) : s.fetchEnds.Canon := .ite h.frame.cmdEnable h.frame

@[simp] theorem Canon.cmdBreak {cause} (h : s.Canon) : (s.cmdBreak cause).Canon := h.setFld.setFld.gateEvent.fetchEnds

@[simp] theorem Canon.cmdFetch {err poisoned entry h' code} (h : s.Canon) : (s.cmdFetch err poisoned entry h' code).Canon := by
  unfold State.cmdFetch
  (repeat' split) <;> simp (maxDischargeDepth := 20) [h]

@[simp] theorem Canon.cmdIdxZero (h : s.Canon) : s.cmdIdxZero.Canon := h.setReg

@[simp] theorem Canon.cmdBaseWrite {v} (h : s.Canon) : (s.cmdBaseWrite v).Canon := .ite h h.setReg.cmdIdxZero

@[simp] theorem Canon.cmdCtlWrite {v} (h : s.Canon) : (s.cmdCtlWrite v).Canon := by
  simp (maxDischargeDepth := 20) [State.cmdCtlWrite, h]

@[simp] theorem Canon.cplWrite (h : s.Canon) : s.cplWrite.Canon := by
  unfold State.cplWrite
  (repeat' split) <;> simp (maxDischargeDepth := 20) [h]

@[simp] theorem Canon.plRunning (h : s.Canon) : s.plRunning.Canon := h.setFld

@[simp] theorem Canon.plSetArea {v} (h : s.Canon) : (s.plSetArea v).Canon := .ite h.plRunning (.ite h h.setFld.hbmAreaWrite)

@[simp] theorem Canon.plLoad {v} (h : s.Canon) : (s.plLoad v).Canon := .ite h.plRunning (.ite h h.setFld.setFld.lschLoad)

@[simp] theorem Canon.plCtlWrite {v} (h : s.Canon) : (s.plCtlWrite v).Canon := by
  unfold State.plCtlWrite
  (repeat' split) <;> simp (maxDischargeDepth := 20) [h]

@[simp] theorem Canon.setChState {c v} (h : s.Canon) : (s.setChState c v).Canon := h.setFld

@[simp] theorem Canon.chCopy {c} (h : s.Canon) : (s.chCopy c).Canon := h.setReg.setReg.setReg.setReg.setReg

@[simp] theorem Canon.chGoto {c a} (h : s.Canon) : (s.chGoto c a).Canon := h.setReg.setReg.setChan

@[simp] theorem Canon.chBegin {c} (h : s.Canon) : (s.chBegin c).Canon := h.chCopy.setChState.setFld.setBit.chGoto

@[simp] theorem Canon.chRefuse {c} (h : s.Canon) : (s.chRefuse c).Canon := h.latch

@[simp] theorem Canon.chCheck {c} (h : s.Canon) : (s.chCheck c).Canon := h.setBit.setChan

@[simp] theorem Canon.chStart {c} (h : s.Canon) : (s.chStart c).Canon := .ite h.chRefuse (.ite h.chBegin (.ite h.setBit h.chRefuse))

@[simp] theorem Canon.chPause {c} (h : s.Canon) : (s.chPause c).Canon := .ite h.setChan.setChState h.chRefuse

@[simp] theorem Canon.chResume {c} (h : s.Canon) : (s.chResume c).Canon := .ite h.chRefuse (.ite h.setChState.chCheck h.setChan.setChState)

@[simp] theorem Canon.chStop {c} (h : s.Canon) : (s.chStop c).Canon := .ite h.setChState (.ite h.setBit h.chRefuse)

@[simp] theorem Canon.chCtlWrite {c v} (h : s.Canon) : (s.chCtlWrite c v).Canon := by
  unfold State.chCtlWrite
  (repeat' split) <;> simp (maxDischargeDepth := 20) [h]

@[simp] theorem Canon.chDoorbell {c} (h : s.Canon) : (s.chDoorbell c).Canon := .ite h.setBit.chCheck h.setBit

@[simp] theorem Canon.rxLose {c cls code} (h : s.Canon) : (s.rxLose c cls code).Canon := by
  unfold State.rxLose
  (repeat' split) <;> simp (maxDischargeDepth := 20) [h]

@[simp] theorem Canon.chLose {c cls code} (h : s.Canon) : (s.chLose c cls code).Canon := .ite h.count.pmcEvent.report.rxLose h.rxLose

@[simp] theorem Canon.chDropOffer {c} (h : s.Canon) : (s.chDropOffer c).Canon := by
  unfold State.chDropOffer
  (repeat' split) <;> simp (maxDischargeDepth := 20) [h]

@[simp] theorem Canon.chBreak {c cause} (h : s.Canon) : (s.chBreak c cause).Canon := h.chDropOffer.setChan.setBit.setFld.setChState.chIrq

@[simp] theorem Canon.chBreakAll {p cause cls code} (h : s.Canon) : (s.chBreakAll p cause cls code).Canon :=
  h.foldl fun _ _ h => .ite h.chLose.chBreak h

@[simp] theorem Canon.chIdle {c} (h : s.Canon) : (s.chIdle c).Canon :=
  h.chLose.chDropOffer.setReg.setReg.setReg.setReg.setReg.setReg.setChan

@[simp] theorem Canon.functionReset {f} (h : s.Canon) : (s.functionReset f).Canon := h.foldl fun _ _ h => .ite h.chIdle h

@[simp] theorem Canon.perst (h : s.Canon) : s.perst.Canon :=
  Canon.frame (Canon.clearUnits (h.foldl fun _ _ h => .ite h.chLose.chDropOffer h))

@[simp] theorem Canon.chForward {c w} (h : s.Canon) : (s.chForward c w).Canon := .ite h.setChan.chCheck h.setChan.chGoto

@[simp] theorem Canon.writeback {c w status bytes flags stamp mw wbFail ringFail} (h : s.Canon) :
    (s.writeback c w status bytes flags stamp mw wbFail ringFail).Canon := by
  unfold State.writeback
  split
  · exact h.chBreak
  · extract_lets bad w5 body a t u v w
    have ht : t.Canon := by unfold t; split <;> exact h.hostOut
    have hu : u.Canon := ht.count.pmcEvent.count
    split
    · exact hu.chBreak
    · simp (maxDischargeDepth := 20) [w, v, hu]

@[simp] theorem Canon.wbPlain {c w status bytes t} (h : s.Canon) : (s.wbPlain c w status bytes t).Canon := h.writeback

@[simp] theorem Canon.descFetch {c words poisoned t} (h : s.Canon) : (s.descFetch c words poisoned t).Canon := by
  unfold State.descFetch
  (repeat' split) <;> simp (maxDischargeDepth := 20) [h]

@[simp] theorem Canon.copyMove {c w done n data} (h : s.Canon) : (s.copyMove c w done n data).Canon := by
  unfold State.copyMove
  dsimp only
  (repeat' split) <;> simp (maxDischargeDepth := 20) [h]

@[simp] theorem Canon.linkTake {c n} (h : s.Canon) : OptCanon ((s.linkTake c n).map (·.2)) := by
  unfold State.linkTake
  cases s.turnLeft c
  · exact optCanon_none
  · exact optCanon_some.2 h.frame

@[simp] theorem Canon.inTurn {c n act} (h : s.Canon) (ha : ∀ s : State, s.Canon → (act s).Canon) : (s.inTurn c n act).Canon := by
  unfold State.inTurn
  split
  · exact ha s h
  · split
    · exact h
    · have ht := h.linkTake.of_map ‹_›
      simp [ht, ha]

@[simp] theorem Canon.setChDone {c n} (h : s.Canon) : (s.setChDone c n).Canon := h.setFld

@[simp] theorem Canon.readErrors {t} (h : s.Canon) : (s.readErrors t).Canon := .ite h.busError h

@[simp] theorem Canon.copyDone {c w t} (h : s.Canon) : (s.copyDone c w t).Canon := by
  unfold State.copyDone
  extract_lets done rest n
  split
  · exact h.wbPlain
  · split
    · exact h
    · have ht := h.linkTake.of_map ‹_›
      simp [ht]

@[simp] theorem Canon.rxDone {c w t} (h : s.Canon) : (s.rxDone c w t).Canon := by
  unfold State.rxDone
  dsimp only
  (repeat' split) <;> simp +contextual (maxDischargeDepth := 20) [h]

@[simp] theorem Canon.cryptoDone {c w t} (h : s.Canon) : (s.cryptoDone c w t).Canon :=
  .ite h.readErrors.wbPlain (.ite h.wbPlain (.ite h (h.inTurn (fun _ h => Canon.wbPlain (Canon.laSubmit (.ite h h.readErrors))))))

@[simp] theorem Canon.descDone {c t} (h : s.Canon) : (s.descDone c t).Canon := by
  unfold State.descDone
  (repeat' split) <;> simp (maxDischargeDepth := 20) [h]

@[simp] theorem Canon.pktTx {c data t} (h : s.Canon) : (s.pktTx c data t).Canon := by
  unfold State.pktTx
  split
  · exact h
  split
  · exact h
  extract_lets d act p fresh
  refine h.inTurn fun s h => ?_
  extract_lets got
  have hg : OptCanon (got.map (·.2)) := by
    simp only [got]
    split
    · exact optCanon_some.2 h
    · simpa using h.takeCells
  clear_value got
  cases got with
  | none => simp (maxDischargeDepth := 20) [h]
  | some x => 
    have ht : x.2.Canon := optCanon_some.1 hg
    simp (maxDischargeDepth := 20) [ht]

@[simp] theorem Canon.chainEnd {c endBit next poisoned} (h : s.Canon) : (s.chainEnd c endBit next poisoned).Canon := by
  unfold State.chainEnd
  (repeat' split) <;> simp (maxDischargeDepth := 20) [h]

@[simp] theorem Canon.drainDone {c t} (h : s.Canon) : (s.drainDone c t).Canon := by
  unfold State.drainDone
  extract_lets st part u cur done db v _ w again x
  have hp : ∀ s : State, s.Canon → (part s).Canon := by
    intro s h
    simp only [part]
    (repeat' split) <;> simp (maxDischargeDepth := 20) [h]
  have hv : v.Canon := by
    have hu := hp s h
    simp only [v]
    split
    · exact hu.wbPlain.setReg.setReg.setBit
    · exact hu
  have hx : x.Canon := (Canon.setChState hv.setChan).chIrq
  simp (maxDischargeDepth := 20) [h, hp, hv, hx]

@[simp] theorem Canon.cplTimeout {c} (h : s.Canon) : (s.cplTimeout c).Canon := by
  unfold State.cplTimeout
  dsimp only
  (repeat' split) <;> simp (maxDischargeDepth := 20) [h]

@[simp] theorem Canon.hostSelect {k} (h : s.Canon) : (s.hostSelect k).Canon := by
  unfold State.hostSelect
  split
  · exact h
  · rename_i e
    split
    · exact h
    · exact (h.selectFor.of_map e).setChan

@[simp] theorem Canon.ownerWrite {c v} (h : s.Canon) : (s.ownerWrite c v).Canon := .ite h.setFld h.latch

@[simp] theorem Canon.vfDisable (h : s.Canon) : s.vfDisable.Canon := h.setFld.foldl fun _ _ h => .ite h h.chIdle.setFld

@[simp] theorem Canon.holdoffEnds {c} (h : s.Canon) : (s.holdoffEnds c).Canon := .ite h.setChan.chIrq h.setChan

@[simp] theorem Canon.ringHead {c v} (h : s.Canon) : (s.ringHead c v).Canon := h.setFld.flushRecords

@[simp] theorem Canon.linkTrained {speed width flit} (h : s.Canon) : (s.linkTrained speed width flit).Canon := h.setFld.setFld.setBit.setBit

@[simp] theorem Canon.linkLost {cls code} (h : s.Canon) : (s.linkLost cls code).Canon := h.setBit.chBreakAll

/-! ### Operations of `Med` -/

@[simp] theorem Canon.laneCfg {p v} (h : s.Canon) : (s.laneCfg p v).Canon :=
  .ite h.latch (Canon.laneEnable (.ite h.setReg.modeChanged h.setReg))

@[simp] theorem Canon.testWrite {p v} (h : s.Canon) : (s.testWrite p v).Canon := by
  simp (maxDischargeDepth := 20) [State.testWrite, h]

@[simp] theorem Canon.dwellEnd {p} (h : s.Canon) : (s.dwellEnd p).Canon := .ite h (.ite h.setLane h.setRate)

@[simp] theorem Canon.cdrJudge {p w} (h : s.Canon) : (s.cdrJudge p w).Canon :=
  .ite h.setLol (.ite h.setLane (.ite h.setLane.setBit h.setLane))

@[simp] theorem Canon.cdrWindow {p w} (h : s.Canon) : (s.cdrWindow p w).Canon := .ite h (Canon.setLane (.ite h h.cdrJudge))

@[simp] theorem Canon.txUnlock (h : s.Canon) : s.txUnlock.Canon :=
  .ite h (Canon.signal (h.frame.showTxLock.count.foldl fun _ _ h => h.haltPlane.latch))

@[simp] theorem Canon.testResumes (h : s.Canon) : s.testResumes.Canon := h.foldl fun _ _ h => .ite h.setBit h

/-! ### Operations of `PwrOps` -/

@[simp] theorem Canon.setPhase {d v} (h : s.Canon) : (s.setPhase d v).Canon := h.setFld

@[simp] theorem Canon.clamp {d b} (h : s.Canon) : (s.clamp d b).Canon := h.frame

@[simp] theorem Canon.dropRestarts {d} (h : s.Canon) : (s.dropRestarts d).Canon := h.foldl fun _ _ h => h.setFld

@[simp] theorem Canon.clearPipes {d} (h : s.Canon) : (s.clearPipes d).Canon := h.foldl fun _ _ h => h.setPipe.setClassified

@[simp] theorem Canon.emptyStack {k} (h : s.Canon) : (s.emptyStack k).Canon := h.frame

@[simp] theorem Canon.clearInside {d} (h : s.Canon) : (s.clearInside d).Canon := by
  unfold State.clearInside
  (repeat' split) <;> simp +contextual (maxDischargeDepth := 20) [h]

@[simp] theorem Canon.clearDomain {d} (h : s.Canon) : (s.clearDomain d).Canon :=
  .ite h.clearUnits.clearInside.retime (.ite h.clearUnits.clearInside.showTxLock h.clearUnits.clearInside)

@[simp] theorem Canon.pwrRecord {detail w} (h : s.Canon) : (s.pwrRecord detail w).Canon := .ite h.frame h.count

@[simp] theorem Canon.pwrNote {d} (h : s.Canon) : (s.pwrNote d).Canon := h.latch.pwrRecord

@[simp] theorem Canon.pwrRefuse {d unit} (h : s.Canon) : (s.pwrRefuse d unit).Canon := h.count.setFld.pwrNote

@[simp] theorem Canon.pwrAbort {d unit} (h : s.Canon) : (s.pwrAbort d unit).Canon := h.count.setFld.pwrNote

@[simp] theorem Canon.pwrBegin {t unit d} (h : s.Canon) : (s.pwrBegin t unit d).Canon := by
  unfold State.pwrBegin
  (repeat' split) <;> simp (maxDischargeDepth := 20) [h]

@[simp] theorem Canon.pwrRequest {t unit d} (h : s.Canon) : (s.pwrRequest t unit d).Canon :=
  .ite h.pwrBegin (Canon.frame (Canon.setBit (Canon.setFld (.ite h h.pwrAbort))))

@[simp] theorem Canon.pwrReq {t unit mask} (h : s.Canon) : (s.pwrReq t unit mask).Canon := .ite h (h.foldl fun _ _ h => h.pwrRequest)

@[simp] theorem Canon.startEnded {d} (h : s.Canon) : (s.startEnded d).Canon := .ite h.frame h

@[simp] theorem Canon.startDone (h : s.Canon) : s.startDone.Canon := .ite h.setBit h

@[simp] theorem Canon.pwrSettle {d} (h : s.Canon) : (s.pwrSettle d).Canon :=
  .ite h.setPhase.startEnded h.setPhase.startEnded.setFld.setFld.pwrBegin

@[simp] theorem Canon.drainDoneDom {d} (h : s.Canon) : (s.drainDoneDom d).Canon := .ite h.setPhase.clamp h

@[simp] theorem Canon.drainAbort {d} (h : s.Canon) : (s.drainAbort d).Canon := by
  unfold State.drainAbort
  (repeat' split) <;> simp (maxDischargeDepth := 20) [h]

@[simp] theorem Canon.setRail {r v} (h : s.Canon) : (s.setRail r v).Canon := h.frame

@[simp] theorem Canon.stepClock {f n} (h : s.Canon) : (s.stepClock f n).Canon := .ite h h.setFld.latch

@[simp] theorem Canon.stepClocks (h : s.Canon) : s.stepClocks.Canon := by
  simp (maxDischargeDepth := 20) [State.stepClocks, h]

@[simp] theorem Canon.slowCluster {k} (h : s.Canon) : (s.slowCluster k).Canon := h.stepClock

@[simp] theorem Canon.railAsk {r n} (h : s.Canon) : (s.railAsk r n).Canon := .ite h.setRail (.ite h (Canon.setRail (.ite h.count h)))

@[simp] theorem Canon.followPoints {again} (h : s.Canon) : (s.followPoints again).Canon := h.stepClocks.foldl fun _ _ h => .ite h.railAsk h

@[simp] theorem Canon.opWrite {v} (h : s.Canon) : (s.opWrite v).Canon := h.setFld.followPoints

@[simp] theorem Canon.degradeWrite {n} (h : s.Canon) : (s.degradeWrite n).Canon := h.setFld.followPoints

@[simp] theorem Canon.avsError {r n} (h : s.Canon) : (s.avsError r n).Canon := h.latch.count.pwrRecord.setFld

@[simp] theorem Canon.wakeAll (h : s.Canon) : s.wakeAll.Canon := h.frame.foldl fun _ _ h => .ite h.pwrRequest.startEnded h.pwrRequest

@[simp] theorem Canon.avsEnds {r mv} (h : s.Canon) : (s.avsEnds r mv).Canon := by
  unfold State.avsEnds
  (repeat' split) <;> simp (maxDischargeDepth := 20) [h]

@[simp] theorem Canon.startRails (h : s.Canon) : s.startRails.Canon := h.setRail.setRail

@[simp] theorem Canon.avsRetry (h : s.Canon) : s.avsRetry.Canon := .ite h.startRails h

@[simp] theorem Canon.startIfReady (h : s.Canon) : s.startIfReady.Canon := .ite h.startTerm h

@[simp] theorem Canon.wakeTurn (h : s.Canon) : s.wakeTurn.Canon := by
  unfold State.wakeTurn
  (repeat' split) <;> simp (maxDischargeDepth := 20) [h]

@[simp] theorem Canon.domainOnNow {d} (h : s.Canon) : (s.domainOnNow d).Canon := by
  simp +contextual (maxDischargeDepth := 20) [State.domainOnNow, h]

@[simp] theorem Canon.tablesCleared {u} (h : s.Canon) : (s.tablesCleared u).Canon := by
  unfold State.tablesCleared
  (repeat' split) <;> simp (maxDischargeDepth := 20) [h]

@[simp] theorem Canon.domainDown {d} (h : s.Canon) : (s.domainDown d).Canon := by
  simp (maxDischargeDepth := 20) [State.domainDown, h]

@[simp] theorem Canon.clampRelease {d} (h : s.Canon) : (s.clampRelease d).Canon := .ite h.clamp h

@[simp] theorem Canon.switchOpen {d} (h : s.Canon) : (s.switchOpen d).Canon := h.clamp.dropRestarts.wentDark.setReg.clearDomain.frame

@[simp] theorem Canon.forcedShutdown (h : s.Canon) : s.forcedShutdown.Canon :=
  (h.setFld.setBit.foldl fun _ _ h => h.switchOpen.startEnded.pwrNote).setBit

@[simp] theorem Canon.survivors (h : s.Canon) : Tbl.wf regReset s.survivors = true := by
  unfold State.survivors
  exact (Canon.setBit (Canon.setBit ⟨Tbl.wf_keep regReset _ _ h.1, rfl⟩)).1

@[simp] theorem Canon.aonReset {hold} (h : s.Canon) : (s.aonReset hold).Canon := ⟨h.survivors, rfl⟩

@[simp] theorem canon_aonPowerLoss : s.aonPowerLoss.Canon := ⟨rfl, rfl⟩

@[simp] theorem Canon.release {cause boot lead role} (h : s.Canon) : (s.release cause boot lead role).Canon :=
  h.setFld.setFld.setFld.setFld.frame.startRails

/-! ### Operations of `MonOps` -/

@[simp] theorem Canon.selectEvent {u i code} (h : s.Canon) : (s.selectEvent u i code).Canon :=
  .ite h.latch (.ite h.setFld.frame.setFld h.setFld)

@[simp] theorem Canon.pmcSelWrite {u v} (h : s.Canon) : (s.pmcSelWrite u v).Canon := h.foldl fun _ _ h => h.selectEvent

@[simp] theorem Canon.dumpRecord {u} (h : s.Canon) : (s.dumpRecord u).2.Canon := by
  simp [State.dumpRecord, h]

@[simp] theorem Canon.dumpRecords {l} (h : s.Canon) : (s.dumpRecords l).2.Canon := by
  induction l generalizing s with
  | nil => exact h
  | cons u l ih => exact ih h.dumpRecord

@[simp] theorem Canon.buildDump {k f c late} (h : s.Canon) : (s.buildDump k f c late).Canon := by
  unfold State.buildDump
  extract_lets us
  split
  rename_i e
  have ht := h.dumpRecords.snd_of e
  extract_lets seq t w0 bytes _ u p v
  have hu : u.Canon := ht.frame
  split
  · simp (maxDischargeDepth := 20) [v, hu]
  · exact (hu.takeCells.of ‹_›).frame

@[simp] theorem Canon.dumpAfter {k f c late} (h : s.Canon) : (s.dumpAfter k f c late).Canon := by
  unfold State.dumpAfter
  extract_lets
  (repeat' split)
  · exact h.setBit
  · exact h.setReg.count
  · exact h.setReg

@[simp] theorem Canon.dumpDue {k} (h : s.Canon) : (s.dumpDue k).Canon :=
  .ite h (.ite h.count (.ite h (Canon.dumpAfter (.ite h.markDump.count (.ite h.markDump.count h.markDump.buildDump)))))

@[simp] theorem Canon.dumpOffer {k} (h : s.Canon) : (s.dumpOffer k).Canon := by
  unfold State.dumpOffer
  (repeat' split) <;> simp (maxDischargeDepth := 20) [h]

@[simp] theorem Canon.dumpCtlWrite {k v} (h : s.Canon) : (s.dumpCtlWrite k v).Canon := Canon.markDump (.ite h.setReg.frame h.setReg)

@[simp] theorem Canon.bwCfgWrite {v} (h : s.Canon) : (s.bwCfgWrite v).Canon := h.setReg.frame

@[simp] theorem Canon.bwBoundary (h : s.Canon) : s.bwBoundary.Canon :=
  .ite h (Canon.frame (.ite h (Canon.setFld (Canon.wrap (h.foldl fun _ _ h => h.setReg.setReg)))))

/-! ### Operations of `Boundary` -/

@[simp] theorem Canon.purgePermits (h : s.Canon) : s.purgePermits.Canon := h.frame

@[simp] theorem Canon.flyOrigin (h : s.Canon) : s.flyOrigin.Canon := .ite h.frame h.frame

@[simp] theorem Canon.timeBoundary (h : s.Canon) : s.timeBoundary.Canon :=
  Canon.tpoBoundary (.ite h.frame.anchorBoundary.slew.gateResync h.frame.anchorBoundary.slew)

@[simp] theorem Canon.frameBoundary (h : s.Canon) : s.frameBoundary.Canon := by
  simp (maxDischargeDepth := 20) [State.frameBoundary, h]

@[simp] theorem Canon.tick (h : s.Canon) : s.tick.Canon :=
  .ite h (Canon.laTick (Canon.presentNotLead (Canon.wardAge (h.frame.lanesTick.tpoFalls.foldl fun _ _ h => h.mbenTick))))

/-! ### Operations of `Dfp` -/

@[simp] theorem Canon.ownWrite {v} (h : s.Canon) : (s.ownWrite v).Canon := .ite h.setReg.frame h.latch

@[simp] theorem Canon.ownProbe {v} (h : s.Canon) : (s.ownProbe v).Canon := h.setReg

/-! ### Operations of `PreuraOps` -/

@[simp] theorem Canon.setPreura {n} (h : s.Canon) : (s.setPreura n).Canon := h.setFld.setBit

@[simp] theorem Canon.logPut {typ detail t data} (h : s.Canon) : (s.logPut typ detail t data).Canon := .ite h.frame h.frame

@[simp] theorem Canon.logNow {typ detail data} (h : s.Canon) : (s.logNow typ detail data).Canon := h.logPut

@[simp] theorem Canon.takePower (h : s.Canon) : s.takePower.Canon := h.frame.foldl fun _ _ h => h.logPut

@[simp] theorem Canon.logWrite (h : s.Canon) : s.logWrite.Canon := by
  unfold State.logWrite
  dsimp only
  (repeat' split) <;> simp (maxDischargeDepth := 20) [h]

@[simp] theorem Canon.fromPut {m} (h : s.Canon) : (s.fromPut m).Canon := .ite h.frame.logNow h.frame

@[simp] theorem Canon.mboxPost (h : s.Canon) : s.mboxPost.Canon := by
  unfold State.mboxPost
  (repeat' split)
  · exact h
  · exact h
  extract_lets _ t n u
  have hu : u.Canon := Canon.foldl_fst h.frame fun a w ha => ha.setReg
  exact hu.setReg.edge

@[simp] theorem Canon.mboxDone {v} (h : s.Canon) : (s.mboxDone v).Canon := .ite h.setFld h

@[simp] theorem Canon.mboxSend {v} (h : s.Canon) : (s.mboxSend v).Canon := .ite (.ite h.latch h.setReg) h.setReg

@[simp] theorem Canon.toDataWrite {k v} (h : s.Canon) : (s.toDataWrite k v).Canon := .ite h.latch h.setReg

@[simp] theorem Canon.mboxTake (h : s.Canon) : s.mboxTake.Canon := .ite h (.ite h.setFld.frame h.setFld.fromPut)

@[simp] theorem Canon.serveMsg {kind f} (h : s.Canon) (hf : ∀ (s : State) m, s.Canon → (f s m).Canon) : (s.serveMsg kind f).Canon := by
  unfold State.serveMsg
  (repeat' split)
  · exact h
  · exact h
  · exact hf _ _ h.frame

@[simp] theorem Canon.serveLog {m} (h : s.Canon) : (s.serveLog m).Canon := .ite h.fromPut h.logNow

@[simp] theorem Canon.serveBoard {m} (h : s.Canon) : (s.serveBoard m).Canon := h.frame

@[simp] theorem Canon.setBus {q l} (h : s.Canon) : (s.setBus q l).Canon := h.frame

@[simp] theorem Canon.serveXfer {m} (h : s.Canon) : (s.serveXfer m).Canon := .ite h.setBus h.fromPut

@[simp] theorem Canon.xferEnds {q status data} (h : s.Canon) : (s.xferEnds q status data).Canon := by
  unfold State.xferEnds
  (repeat' split) <;> simp (maxDischargeDepth := 20) [h]

@[simp] theorem Canon.oeAlarm {q data} (h : s.Canon) : (s.oeAlarm q data).Canon := .ite h h.logNow.fromPut

@[simp] theorem Canon.busStuck {q} (h : s.Canon) : (s.busStuck q).Canon := .ite h h.xferEnds.logNow

@[simp] theorem Canon.sentinelTrip {cause} (h : s.Canon) : (s.sentinelTrip cause).Canon :=
  .ite h (Canon.signal (.ite h.setPreura.setBit.setFld.count.gateEvent h.setPreura.setBit.setFld.count))

@[simp] theorem Canon.kickWrite {v} (h : s.Canon) : (s.kickWrite v).Canon := .ite h (.ite h.frame h.sentinelTrip)

@[simp] theorem Canon.preuraReset (h : s.Canon) : s.preuraReset.Canon := .ite h h.latchIf.setFld.count.setFld.setFld.setPreura.frame

@[simp] theorem Canon.preuraCtl {v} (h : s.Canon) : (s.preuraCtl v).Canon := .ite h.preuraReset h

@[simp] theorem Canon.setFlash {slot w v} (h : s.Canon) : (s.setFlash slot w v).Canon := h.frame

@[simp] theorem Canon.postUpdate (h : s.Canon) : s.postUpdate.Canon := h.fromPut

@[simp] theorem Canon.startImage {slot trial ms} (h : s.Canon) : (s.startImage slot trial ms).Canon :=
  h.setPreura.setBit.setFld.frame.logNow

@[simp] theorem Canon.download (h : s.Canon) : s.download.Canon := h.setPreura.frame

@[simp] theorem Canon.preuraBoot (h : s.Canon) : s.preuraBoot.Canon := by
  unfold State.preuraBoot
  dsimp only
  (repeat' split) <;> simp (maxDischargeDepth := 20) [h]

@[simp] theorem Canon.slotConfirmNow (h : s.Canon) : s.slotConfirmNow.Canon := .ite h h.setFlash.frame.logNow.postUpdate

@[simp] theorem Canon.sensorSample {n v} (h : s.Canon) : (s.sensorSample n v).Canon := .ite h (.ite h.frame.signal h.frame)

@[simp] theorem Canon.showReading {n x} (h : s.Canon) : (s.showReading n x).Canon := h.setFld

@[simp] theorem Canon.sensorPublish (h : s.Canon) : s.sensorPublish.Canon :=
  .ite h (Canon.setReg (Canon.frame (h.foldl fun _ _ h => h.showReading)))

@[simp] theorem Canon.degradeTo {n} (h : s.Canon) : (s.degradeTo n).Canon := h.degradeWrite.logNow.fromPut

@[simp] theorem Canon.degradeRaise (h : s.Canon) : s.degradeRaise.Canon := .ite h.degradeTo h

@[simp] theorem Canon.degradeLower (h : s.Canon) : s.degradeLower.Canon := .ite h.degradeTo h

@[simp] theorem Canon.swapPop (h : s.Canon) : s.swapPop.Canon := by
  unfold State.swapPop
  (repeat' split) <;> simp (maxDischargeDepth := 20) [h]

@[simp] theorem Canon.cmdBegin {op result detail} (h : s.Canon) : (s.cmdBegin op result detail).Canon := h.frame

@[simp] theorem Canon.stageOpen {arg} (h : s.Canon) : (s.stageOpen arg).Canon := .ite h.cmdBegin.frame h.cmdBegin.frame.logNow.postUpdate

@[simp] theorem Canon.stageCommit {arg} (h : s.Canon) : (s.stageCommit arg).Canon :=
  .ite h.cmdBegin (.ite h.cmdBegin h.frame.setFlash.setFlash.setFlash.setFlash.setFlash.frame.cmdBegin.logNow.postUpdate)

@[simp] theorem Canon.activate {arg} (h : s.Canon) : (s.activate arg).Canon :=
  .ite (.ite h.cmdBegin (.ite h.cmdBegin h.cmdBegin.startImage)) (.ite h.cmdBegin.logNow.preuraReset h.cmdBegin)

@[simp] theorem Canon.logMark {arg} (h : s.Canon) : (s.logMark arg).Canon := .ite h.cmdBegin h.cmdBegin.logNow

@[simp] theorem Canon.relay {arg} (h : s.Canon) : (s.relay arg).Canon := .ite h.cmdBegin h.cmdBegin.fromPut

@[simp] theorem Canon.cmdRun {f} (h : s.Canon) (hf : ∀ s : State, s.Canon → (f s).Canon) : (s.cmdRun f).Canon := by
  simp [State.cmdRun, h, hf]

@[simp] theorem Canon.cmdWord {v} (h : s.Canon) : (s.cmdWord v).Canon := by
  unfold State.cmdWord
  (repeat' split) <;> simp +contextual (maxDischargeDepth := 20) [h]

/-! ### Operations of `Preura` -/

@[simp] theorem Canon.portUp {f} (h : s.Canon) (hf : ∀ s : State, s.Canon → (f s).Canon) : (s.portUp f).Canon := by
  simp [State.portUp, h, hf]

@[simp] theorem Canon.mpShow {v} (h : s.Canon) : (s.mpShow v).Canon := h.frame

@[simp] theorem Canon.mpFail {e} (h : s.Canon) : (s.mpFail e).Canon := h.frame

/-! ### Operations of `Pwr` -/

@[simp] theorem Canon.pllLost {b} (h : s.Canon) : (s.pllLost b).Canon :=
  .ite h.txUnlock (.ite h (h.setFld.count.foldl fun _ _ h => .ite h.signal h))

@[simp] theorem Canon.pllBack {b} (h : s.Canon) : (s.pllBack b).Canon := .ite (.ite h h.frame.showTxLock) h.setFld

@[simp] theorem Canon.refLost {i} (h : s.Canon) : (s.refLost i).Canon := h.setFld.latch.count

@[simp] theorem Canon.chipReset {v} (h : s.Canon) : (s.chipReset v).Canon := .ite h.aonReset h

@[simp] theorem Canon.porstRelease {boot lead role} (h : s.Canon) : (s.porstRelease boot lead role).Canon := .ite h.release h

@[simp] theorem Canon.holdEnd {boot lead role} (h : s.Canon) : (s.holdEnd boot lead role).Canon := .ite h.release h

/-! ### Operations of `Ubb` -/

@[simp] theorem Canon.guardTight {g} (h : s.Canon) : (s.guardTight g).Canon := h.latchIf

@[simp] theorem Canon.finishBuild {gs g w f rpt} (h : s.Canon) : (s.finishBuild gs g w f rpt).Canon :=
  .ite (h.foldl fun _ _ h => h.endEntry) (Canon.pmcEvent (Canon.frame (h.foldl fun _ _ h => h.setUplane.guardTight)))

@[simp] theorem Canon.buildStart {p} (h : s.Canon) : (s.buildStart p).Canon := by
  unfold State.buildStart
  (repeat' split) <;> simp +contextual (maxDischargeDepth := 20) [h]

@[simp] theorem Canon.lateBuilds (h : s.Canon) : s.lateBuilds.Canon := h.foldl fun _ _ h => h.setUplane.foldl fun _ _ h => h.buildStart

@[simp] theorem Canon.commitPiece {x} (h : s.Canon) : (s.commitPiece x).1.Canon := by
  unfold State.commitPiece
  split
  · exact h
  extract_lets
  split
  · have ht := h.takeResult.snd_of ‹_›
    split
    · exact ht
    · cases x.pkt <;> cases x.cont <;> cases x.msg <;> simp (maxDischargeDepth := 20) [ht]
  · have ht := h.takeResult.snd_of ‹_›
    cases x.pkt <;> cases x.cont <;> cases x.msg <;> simp (maxDischargeDepth := 20) [ht]

@[simp] theorem Canon.commitPieces {l} (h : s.Canon) : (s.commitPieces l).1.Canon := by
  induction l generalizing s with
  | nil => exact h
  | cons x l ih => exact ih h.commitPiece

@[simp] theorem Canon.commit {p} (h : s.Canon) : (s.commit p).Canon := by
  unfold State.commit
  dsimp only
  (repeat' split) <;> simp (maxDischargeDepth := 20) [h]

@[simp] theorem Canon.parcelsSent {b} (h : s.Canon) : (s.parcelsSent b).Canon := by
  unfold State.parcelsSent
  (repeat' split) <;> simp (maxDischargeDepth := 20) [h]

/- The unfolding of `launchPlane` on its arguments nests too deep for the kernel; `delta` at the function itself does not. -/
@[simp] theorem Canon.launchPlane {b g k} (h : s.Canon) : (s.launchPlane b g k).Canon := by
  have e : State.launchPlane = State.launchPlane := rfl
  conv_rhs at e => delta State.launchPlane
  rw [e]
  beta_reduce
  generalize s.burstLevels b g k = x
  obtain ⟨ys, scr, l⟩ := x
  exact Canon.setReg (Canon.count (Canon.count (Canon.setUplane (Canon.setBit (Canon.setBit (Canon.setLane
    h.pmcEvent.pmcEvent.pmcEvent.pmcEvent))))))

@[simp] theorem Canon.launchPlanes {b k l} (h : s.Canon) : (s.launchPlanes b k l).Canon := by
  induction l generalizing s k with
  | nil => exact h
  | cons g l ih => simp [State.launchPlanes, ih, h]

@[simp] theorem Canon.launch {p} (h : s.Canon) : (s.launch p).Canon := by
  unfold State.launch
  (repeat' split) <;> simp (maxDischargeDepth := 20) [h]

@[simp] theorem Canon.partSent {p last} (h : s.Canon) : (s.partSent p last).Canon := .ite h (.ite h.frame h.frame.pdisp)

@[simp] theorem Canon.justSent {x} (h : s.Canon) : (s.justSent x).Canon := .ite h.setCircuit h

@[simp] theorem Canon.contentSent {b} (h : s.Canon) : (s.contentSent b).Canon := by
  refine h.foldl fun s x h => ?_
  cases x.pkt <;> cases x.cont <;> cases x.msg <;> simp (maxDischargeDepth := 20) [h]

@[simp] theorem Canon.endBurst {p} (h : s.Canon) : (s.endBurst p).Canon := by
  unfold State.endBurst
  split
  · split <;> simp [h]
  extract_lets start gs t _ u v e _ w _
  have hu : u.Canon := by simp (maxDischargeDepth := 20) [u, t, h]
  have hw : w.Canon := by simp (maxDischargeDepth := 20) [w, v, hu]
  simp (maxDischargeDepth := 20) [h, hw]

@[simp] theorem Canon.writeCode {v} (h : s.Canon) : (s.writeCode v).Canon := h.setReg.setFld

@[simp] theorem Canon.flowWrite {v} (h : s.Canon) : (s.flowWrite v).Canon :=
  .ite h.setReg.latch (.ite h.setReg.setFlow (.ite h.setReg.setFlow.unmark.mirrorSeq h.setReg.setFlow.unmark))

@[simp] theorem Canon.flowProbe {v} (h : s.Canon) : (s.flowProbe v).Canon := h.setReg

/-! ### Operations of `Hinge` -/

@[simp] theorem Canon.setLinkState {n} (h : s.Canon) : (s.setLinkState n).Canon := .ite h h.setFld.latch

@[simp] theorem Canon.setSync {n} (h : s.Canon) : (s.setSync n).Canon := h.setFld

@[simp] theorem Canon.hingeOff (h : s.Canon) : s.hingeOff.Canon := h.frame.setLinkState.setSync

@[simp] theorem Canon.hingeAcquire (h : s.Canon) : s.hingeAcquire.Canon := h.latchIf.frame.setLinkState.setSync

@[simp] theorem Canon.hingeCfgWrite {v} (h : s.Canon) : (s.hingeCfgWrite v).Canon :=
  .ite h.setFld.setFld.hingeOff (.ite h.setFld.setFld.setLinkState h.setFld.setFld)

@[simp] theorem Canon.heartbeatRx {b} (h : s.Canon) : (s.heartbeatRx b).Canon := by
  simp (maxDischargeDepth := 20) [State.heartbeatRx, h]

@[simp] theorem Canon.applySeq {f n} (h : s.Canon) : (s.applySeq f n).Canon := .ite h.setFlow h

@[simp] theorem Canon.updateRx {b} (h : s.Canon) : (s.updateRx b).Canon := h.foldl fun _ _ h => h.applySeq

@[simp] theorem Canon.updateTx {fuel} (h : s.Canon) : (s.updateTx fuel).Canon := by
  induction fuel generalizing s with
  | zero => exact h
  | succ fuel ih => unfold State.updateTx; simp (maxDischargeDepth := 20) [h, ih]

@[simp] theorem Canon.syncReqRx (h : s.Canon) : s.syncReqRx.Canon := .ite h.startBulk h

@[simp] theorem Canon.syncStartRx {b} (h : s.Canon) : (s.syncStartRx b).Canon := .ite h h.frame.setSync

@[simp] theorem Canon.syncFails (h : s.Canon) : s.syncFails.Canon := h.setSync.latch.count

@[simp] theorem Canon.syncEndRx {b} (h : s.Canon) : (s.syncEndRx b).Canon := .ite h (.ite h.setSync.count h.syncFails)

@[simp] theorem Canon.bulkRx {body} (h : s.Canon) : (s.bulkRx body).Canon := .ite h (Canon.frame (h.foldl fun _ _ h => .ite h.applySeq h))

@[simp] theorem Canon.hingeBlock {b} (h : s.Canon) : (s.hingeBlock b).Canon := by
  unfold State.hingeBlock
  dsimp only
  (repeat' split) <;> simp (maxDischargeDepth := 20) [h]

@[simp] theorem Canon.takeBlock {b} (h : s.Canon) : (s.takeBlock b).Canon := by
  unfold State.takeBlock
  (repeat' split) <;> simp +contextual (maxDischargeDepth := 20) [h]

@[simp] theorem Canon.hingeDrain (h : s.Canon) : s.hingeDrain.Canon := h.frame.foldl fun _ _ h => h.hingeBlock

@[simp] theorem Canon.hingeLine {levels} (h : s.Canon) : (s.hingeLine levels).2.2.Canon := by
  simp [State.hingeLine, h]

@[simp] theorem Canon.hingeCodeword {levels} (h : s.Canon) : (s.hingeCodeword levels).Canon := by
  simp (maxDischargeDepth := 20) [State.hingeCodeword, h]

@[simp] theorem Canon.hingeSend (h : s.Canon) : s.hingeSend.Canon := by
  unfold State.hingeSend
  (repeat' split) <;> simp (maxDischargeDepth := 20) [h]

@[simp] theorem Canon.leadSel {level} (h : s.Canon) : (s.leadSel level).Canon := .ite h h.frame.dueLead

/-! ### Operations of `FltOps` -/

@[simp] theorem Canon.losePiped {src cls code p} (h : s.Canon) : (s.losePiped src cls code p).Canon := h.freeCells.qmDrop.departure.report

@[simp] theorem Canon.loseWaiting {d src cls code} (h : s.Canon) : (s.loseWaiting d src cls code).Canon :=
  h.foldl fun _ _ h => h.setPipe.foldl fun _ _ h => h.losePiped

@[simp] theorem Canon.losePipes {d src cls code} (h : s.Canon) : (s.losePipes d src cls code).Canon :=
  h.loseWaiting.foldl fun _ _ h => h.setClassified.foldl fun _ _ h => h.losePiped

@[simp] theorem Canon.loseQueued {q src cls code l} (h : s.Canon) : (s.loseQueued q src cls code l).Canon := by
  unfold State.loseQueued
  (repeat' split) <;> simp +contextual (maxDischargeDepth := 20) [h]

@[simp] theorem Canon.loseQueues {src cls code f} (h : s.Canon) : (s.loseQueues src cls code f).Canon := h.foldl fun _ _ h => h.loseQueued

@[simp] theorem Canon.loseEgress {k src cls code p} (h : s.Canon) : (s.loseEgress k src cls code p).Canon := h.cliCount.departure.report

@[simp] theorem Canon.loseReq {cls code r} (h : s.Canon) : (s.loseReq cls code r).Canon := by
  unfold State.loseReq
  (repeat' split) <;> simp (maxDischargeDepth := 20) [h]

@[simp] theorem Canon.pullReq {n} (h : s.Canon) : (s.pullReq n).Canon := h.frame.foldl fun _ _ h => .ite h.setEngine h

@[simp] theorem Canon.ubbLost (h : s.Canon) : s.ubbLost.Canon :=
  Canon.foldl (h.count.foldl fun _ _ h => h.failBuild) fun _ _ h => h.stopPlane

@[simp] theorem Canon.quadLost {q} (h : s.Canon) : (s.quadLost q).Canon := h.foldl fun _ _ h => h.haltPlane.abandonFrame

@[simp] theorem Canon.octetLost {o code} (h : s.Canon) : (s.octetLost o code).Canon :=
  h.foldl fun _ _ h => h.setPort.setLink.ptpDisable.foldl fun _ _ h => h.loseEgress

@[simp] theorem Canon.pktdLost {code} (h : s.Canon) : (s.pktdLost code).Canon := by
  simp +contextual (maxDischargeDepth := 20) [State.pktdLost, h]

@[simp] theorem Canon.dfpLost {code} (h : s.Canon) : (s.dfpLost code).Canon :=
  Canon.foldl (h.frame.foldl fun _ _ h => h.dropReq.loseParcel) fun _ _ h => h.abandonFrame.setDplane

@[simp] theorem Canon.loseParcelCells (h : s.Canon) : s.loseParcelCells.Canon :=
  Canon.foldl (h.foldl fun _ _ h => h.setRsq.foldl fun _ _ h => h.noCell) fun _ _ h => .ite h h.setReasm.noCell

@[simp] theorem Canon.loseCells {code p} (h : s.Canon) : (s.loseCells code p).Canon := h.freeCells.qmDrop.report

@[simp] theorem Canon.loseHandled {code} (h : s.Canon) : (s.loseHandled code).Canon := by
  unfold State.loseHandled
  extract_lets dumps _ t u packet held
  have ht : t.Canon := Canon.foldl h.frame fun s p h => h.loseCells.count
  have hu : u.Canon := ht.foldl fun s e h => by split <;> simp [h]
  exact hu.mapCtxs.foldl fun s x h => h.loseCells

@[simp] theorem Canon.qmLost {code} (h : s.Canon) : (s.qmLost code).Canon :=
  h.loseQueues.losePipes.losePipes.loseParcelCells.loseHandled.frame

@[simp] theorem Canon.ciphLost {code} (h : s.Canon) : (s.ciphLost code).Canon :=
  Canon.foldl (h.frame.foldl fun _ _ h => h.loseReq) fun _ _ h => h.zeroise

@[simp] theorem Canon.unitLost {src code} (h : s.Canon) : (s.unitLost src code).Canon :=
  .ite (.ite h h.setPreura) <| .ite h.setWard.ubbLost <| .ite h.lpStop <|
    .ite (h.foldl fun _ _ h => h.haltPlane).frame <| .ite h.quadLost <| .ite h.octetLost <| .ite h.linkLost.frame <|
    .ite h.loseQueues <| .ite h.losePipes <| .ite h.pktdLost <| .ite h.ubbLost <| .ite h.dfpLost <|
    .ite h.loseWaiting.loseWaiting <| .ite h.qmLost <| .ite h.ciphLost <| .ite h.circLose <| .ite h.clusterLost <|
    .ite h.hingeOff h

@[simp] theorem Canon.itemLost {src code i} (h : s.Canon) : (s.itemLost src code i).Canon := by
  unfold State.itemLost
  (repeat' split) <;> simp (maxDischargeDepth := 20) [h]

@[simp] theorem Canon.capture515 {src cls code wire} (h : s.Canon) : (s.capture515 src cls code wire).Canon :=
  .ite (Canon.frame (.ite h h.setReg.setReg.setReg)) (Canon.count (.ite h h.setReg.setReg.setReg))

@[simp] theorem Canon.fatal {src} (h : s.Canon) : (s.fatal src).Canon :=
  .ite h.setWard.cutAll.setTerm.setFld.forcedShutdown h.setWard.cutAll.setTerm.setFld

@[simp] theorem Canon.gateFault (h : s.Canon) : s.gateFault.Canon := .ite h.gateEvent h

@[simp] theorem Canon.faultLatch {src cls code item wire} (h : s.Canon) : (s.faultLatch src cls code item wire).Canon := by
  unfold State.faultLatch
  split
  · exact h
  extract_lets b t _ u v w
  split
  · exact Canon.foldl (Canon.count h.latch) fun s u h => h.pmcEvent
  · exact h.capture515.latch.itemLost
  · have hv : v.Canon := Canon.setFld (Canon.latch (Canon.capture515 h.frame))
    have hw : w.Canon := by simp [w, hv]
    exact hw.unitLost
  · exact h.capture515.setFld.gateFault.fatal

@[simp] theorem Canon.takeWire {src cls code} (h : s.Canon) : (s.takeWire src cls code).Canon := h.frame

@[simp] theorem Canon.wireFault {src} (h : s.Canon) : (s.wireFault src).Canon := .ite h h.latch.faultLatch

@[simp] theorem Canon.restartDone {src} (h : s.Canon) : (s.restartDone src).Canon := by
  simp (maxDischargeDepth := 20) [State.restartDone, h]

@[simp] theorem Canon.statusClear {k v} (h : s.Canon) : (s.statusClear k v).Canon := h.setReg

@[simp] theorem Canon.capPop (h : s.Canon) : s.capPop.Canon := by
  unfold State.capPop
  (repeat' split) <;> simp (maxDischargeDepth := 20) [h]

@[simp] theorem Canon.dispOverflow {fuel} (h : s.Canon) : (s.dispOverflow fuel).Canon := by
  induction fuel generalizing s with
  | zero => exact h
  | succ fuel ih =>
    unfold State.dispOverflow
    (repeat' split)
    · exact h.setFld
    · exact h
    · exact ih (Canon.latch h.frame)

@[simp] theorem Canon.dispPop {v} (h : s.Canon) : (s.dispPop v).Canon := .ite h (.ite h.frame h.frame.dispOverflow)

/-! ### Operations of `Qm` -/

@[simp] theorem Canon.packetAdmit {d n} (h : s.Canon) : (s.packetAdmit d n).Canon := by
  unfold State.packetAdmit
  (repeat' split) <;> simp (maxDischargeDepth := 20) [h]

@[simp] theorem Canon.hbmWritten {q} (h : s.Canon) : (s.hbmWritten q).Canon := by
  unfold State.hbmWritten
  (repeat' split) <;> simp (maxDischargeDepth := 20) [h]

@[simp] theorem Canon.spillRead {q} (h : s.Canon) : (s.spillRead q).Canon := by
  unfold State.spillRead
  (repeat' split) <;> simp (maxDischargeDepth := 20) [h]

@[simp] theorem Canon.hbmTransfer {ch pending} (h : s.Canon) : (s.hbmTransfer ch pending).Canon := .ite h h.pmcEvent.frame

@[simp] theorem Canon.egressSelect {c} (h : s.Canon) : (s.egressSelect c).Canon := .ite h.portSelect (.ite h.hostSelect h)

/-! ### Operations of `Views` -/

@[simp] theorem Canon.afterFree {a} (h : s.Canon) : (s.afterFree a).Canon := .ite h.frame h

/-! ### Operations of `Control` -/

@[simp] theorem Canon.storeReg {program a v} (h : s.Canon) : (s.storeReg program a v).Canon := by
  unfold State.storeReg
  (repeat' split) <;> simp (maxDischargeDepth := 20) [h]

@[simp] theorem Canon.medWrite {p o v} (h : s.Canon) : OptCanon (s.medWrite p o v) := by
  simp [State.medWrite, h]

@[simp] theorem Canon.portWrite {k o v} (h : s.Canon) : OptCanon (s.portWrite k o v) := by
  unfold State.portWrite
  (repeat' split) <;> simp (maxDischargeDepth := 20) [h]

@[simp] theorem Canon.lineWrite {a v} (h : s.Canon) : OptCanon (s.lineWrite a v) := by
  simp [State.lineWrite, h]

@[simp] theorem Canon.timeWrite {a v} (h : s.Canon) : OptCanon (s.timeWrite a v) := by
  simp [State.timeWrite, h]

@[simp] theorem Canon.packetWrite {a v} (h : s.Canon) : OptCanon (s.packetWrite a v) :=
  .ite (optCanon_some.2 h.clsCmdWrite) <| .ite (by split <;> simp [h]) <| .ite (optCanon_some.2 h.tableModeWrite) <|
    .ite (optCanon_some.2 h.qmCmdWrite) <| .ite (optCanon_some.2 h.writePoolCfg) <| .ite (optCanon_some.2 h.writeHbmCfg) <|
    .ite (optCanon_some.2 h.schCmdWrite) <| .ite (optCanon_some.2 h.circCmdWrite) <| .ite (optCanon_some.2 h.storeReg.dccHold) <|
    .ite (optCanon_some.2 h.keyCtlWrite) <| .ite (optCanon_some.2 h.saCmdWrite) optCanon_none

@[simp] theorem Canon.schedWrite {a v} (h : s.Canon) : OptCanon (s.schedWrite a v) := by
  simp [State.schedWrite, h]

@[simp] theorem Canon.gateWrite {a v} (h : s.Canon) : OptCanon (s.gateWrite a v) := by
  simp [State.gateWrite, h]

@[simp] theorem Canon.adminWrite {program unit a v} (h : s.Canon) : OptCanon (s.adminWrite program unit a v) := by
  simp [State.adminWrite, h]

@[simp] theorem Canon.writeActs {program unit a v} (h : s.Canon) : OptCanon (s.writeActs program unit a v) := by
  simp [State.writeActs, h]

@[simp] theorem Canon.ctlWrite {program unit a v} (h : s.Canon) : (s.ctlWrite program unit a v).Canon := by
  unfold State.ctlWrite
  extract_lets t
  have ht : t.Canon := by simp [t, h]
  exact ht.writeActs.getD ht.storeReg

@[simp] theorem Canon.clearRc {a} (h : s.Canon) : (s.clearRc a).Canon := by
  unfold State.clearRc
  (repeat' split) <;> simp (maxDischargeDepth := 20) [h]

@[simp] theorem Canon.readTakes {a} (h : s.Canon) : (s.readTakes a).Canon := .ite h.setCapture (.ite h.setFld h)

@[simp] theorem Canon.afterRead {a} (h : s.Canon) : (s.afterRead a).Canon := h.clearRc.readTakes.afterFree

@[simp] theorem Canon.shows {w} (h : s.Canon) : (s.shows w).Canon := h.frame

@[simp] theorem Canon.hostMiss {a} (h : s.Canon) : (s.hostMiss a).Canon := h.latch.setFld.count

@[simp] theorem Canon.inspRead (h : s.Canon) : s.inspRead.Canon := by
  simp (maxDischargeDepth := 20) [State.inspRead, h]

@[simp] theorem Canon.pwDiscard (h : s.Canon) : s.pwDiscard.Canon := .ite h.count h

@[simp] theorem Canon.hostWrite {f a v} (h : s.Canon) : (s.hostWrite f a v).Canon := by
  unfold State.hostWrite
  (repeat' split) <;> simp (maxDischargeDepth := 20) [h]

@[simp] theorem Canon.hostRead {f a} (h : s.Canon) : (s.hostRead f a).Canon := by
  unfold State.hostRead
  (repeat' split) <;> simp (maxDischargeDepth := 20) [h]

@[simp] theorem Canon.preuraMiss {a} (h : s.Canon) : (s.preuraMiss a).Canon := h.logNow

@[simp] theorem Canon.preuraWrite {a v} (h : s.Canon) : (s.preuraWrite a v).Canon :=
  .ite h (.ite h.preuraMiss (.ite h.ctlWrite (.ite h.pwDiscard h)))

@[simp] theorem Canon.preuraRead {a} (h : s.Canon) : (s.preuraRead a).Canon :=
  .ite h.shows (.ite h.preuraMiss.shows (.ite (Canon.shows (Canon.afterFree (.ite h.capPop h))) h.shows))

@[simp] theorem Canon.programRefused {c x} (h : s.Canon) : (s.programRefused c x).Canon := by
  unfold State.programRefused
  dsimp only
  (repeat' split) <;> simp (maxDischargeDepth := 20) [h]

@[simp] theorem Canon.programRaises {c x} (h : s.Canon) : (s.programRaises c x).Canon := by
  unfold State.programRaises
  dsimp only
  (repeat' split) <;> simp (maxDischargeDepth := 20) [h]

@[simp] theorem Canon.ctlReturn {c x} (h : s.Canon) : (s.ctlReturn c x).Canon := by
  unfold State.ctlReturn
  dsimp only
  (repeat' split) <;> simp (maxDischargeDepth := 20) [h]

@[simp] theorem Canon.deferWrite {c w} (h : s.Canon) : (s.deferWrite c w).Canon :=
  Canon.frame (Canon.setCore (h.foldl fun _ _ h => h.setCtx))

@[simp] theorem Canon.ctlLand {c} (h : s.Canon) : (s.ctlLand c).Canon := by
  unfold State.ctlLand
  dsimp only
  (repeat' split) <;> simp (maxDischargeDepth := 20) [h]

/-! ### Operations of `MgmtPort` -/

@[simp] theorem Canon.mpComplete (h : s.Canon) : s.mpComplete.Canon := h.frame

@[simp] theorem Canon.boardTaken (h : s.Canon) : s.boardTaken.Canon := .ite h.frame h

@[simp] theorem Canon.mpDataRead (h : s.Canon) : s.mpDataRead.Canon :=
  .ite h.mpShow.mpFail (.ite h.mpShow.mpFail h.mpShow.boardTaken.mpComplete)

@[simp] theorem Canon.mpTakes {v} (h : s.Canon) : (s.mpTakes v).Canon := .ite h.frame (.ite h.cmdWord h.frame)

@[simp] theorem Canon.mpDataWrite {v} (h : s.Canon) : (s.mpDataWrite v).Canon := .ite h.mpFail (.ite h.mpFail h.mpTakes.mpComplete)

@[simp] theorem Canon.stageTake (h : s.Canon) : s.stageTake.Canon := by
  unfold State.stageTake
  (repeat' split) <;> simp (maxDischargeDepth := 20) [h]

@[simp] theorem Canon.mpBecomesReady (h : s.Canon) : s.mpBecomesReady.Canon := .ite h h.stageTake.frame

/-! ### Operations of `Tap` -/

@[simp] theorem Canon.freeBits {n} (h : s.Canon) : (s.freeBits n).2.Canon := h.frame

@[simp] theorem Canon.captureDr (h : s.Canon) : s.captureDr.Canon := by
  unfold State.captureDr
  dsimp only
  (repeat' split) <;> simp (maxDischargeDepth := 20) [h]

@[simp] theorem Canon.captureIr (h : s.Canon) : s.captureIr.Canon := h.frame.frame

@[simp] theorem Canon.tckRise {tms tdi} (h : s.Canon) : (s.tckRise tms tdi).Canon := by
  unfold State.tckRise
  (repeat' split) <;> simp (maxDischargeDepth := 20) [h]

@[simp] theorem Canon.tckFall (h : s.Canon) : s.tckFall.Canon := by
  unfold State.tckFall
  (repeat' split) <;> simp (maxDischargeDepth := 20) [h]

/-! ### Commands and steps -/

theorem Canon.execRegWrite {src a v} (h : s.Canon) : OutCanon (execRegWrite src a v s) :=
  match src with
  | .program .. => outCanon_next.2 (.ite h.ctlWrite h.programRefused)
  | .host _ => outCanon_next.2 h.hostWrite
  | .preura => outCanon_next.2 h.preuraWrite

theorem Canon.execRcRead {src a} (h : s.Canon) : OutCanon (execRcRead src a s) :=
  match src with
  | .program .. => outCanon_next.2 (.ite h.afterRead.shows h.programRaises.shows)
  | .host _ => outCanon_next.2 h.hostRead
  | .preura => outCanon_next.2 h.preuraRead

theorem Canon.execNoAnswer (h : s.Canon) : OutCanon (execNoAnswer s) := by
  refine outCanon_next.2 ?_
  split
  · exact .ite h.count.setFld.beginAttempt h
  · exact h

theorem Canon.execTAnchorExpiry (h : s.Canon) : OutCanon (execTAnchorExpiry s) := by
  refine outCanon_next.2 ?_
  split
  · exact .ite (.ite h.frame.setCode h.frame) h
  · exact h

theorem Canon.execFlywheelExpiry (h : s.Canon) : OutCanon (execFlywheelExpiry s) := by
  refine outCanon_next.2 ?_
  split
  · exact .ite h.lpStop h
  · exact h

/-- Every command keeps the canonical form, each by the lemma of the operation it runs. -/
theorem Canon.exec {c : Instr} (h : s.Canon) : OutCanon (exec c s) :=
  match c with
  | .regWrite .. => h.execRegWrite
  | .rcRead .. => h.execRcRead
  | .inspRead => outCanon_next.2 (.ite h.inspRead h.shows)
  | .inspWrite .. => outCanon_next.2 (.ite h.count h)
  | .cmdDoorbell .. => outCanon_next.2 h.cmdDoorbell
  | .cmdFetch .. => outCanon_next.2 h.cmdFetch
  | .cmdCtlWrite .. => outCanon_next.2 (.ite h.cmdBaseWrite h.cmdCtlWrite)
  | .cplRecordWrite => outCanon_next.2 h.cplWrite
  | .cplHeadWrite .. => outCanon_next.2 h.setFld
  | .plSetArea .. => outCanon_next.2 h.plCtlWrite
  | .plLoad .. => outCanon_next.2 h.plCtlWrite
  | .cbReady .. => outCanon_next.2 h.cbReady
  | .medLaneCfgWrite .. => outCanon_next.2 h.laneCfg
  | .medTestWrite .. => outCanon_next.2 h.testWrite
  | .huntDwellExpiry .. => outCanon_next.2 h.dwellEnd
  | .losSet .. => outCanon_next.2 (.ite h.showMsd.setLos h)
  | .losClear .. => outCanon_next.2 (.ite h h.showMsd.clearLos)
  | .cdrWindowEnd .. => outCanon_next.2 h.cdrWindow
  | .txpllUnlock => outCanon_next.2 h.txUnlock
  | .txpllRelock => outCanon_next.2 (.ite h h.frame.showTxLock)
  | .txpllResume => outCanon_next.2 (.ite h.frame.testResumes h)
  | .codewordRx .. => outCanon_next.2 (h.whenUp (fun _ h => h.whenUp (fun _ h => h.codeword)))
  | .frameAlign .. => outCanon_next.2 (h.whenUp (fun _ h => h.whenUp (fun _ h => h.frameAlign)))
  | .grantArea .. => outCanon_next.2 h.grantArea
  | .messageRx .. => outCanon_next.2 h.messageRx
  | .parcelRx .. => outCanon_next.2 h.parcelRx
  | .parcelOpenDone .. => outCanon_next.2 h.parcelOpened
  | .rsqTimerExpiry .. => outCanon_next.2 h.rsqRelease
  | .ownWrite .. => outCanon_next.2 h.ownWrite
  | .ownProbe .. => outCanon_next.2 h.ownProbe
  | .unitTablesCleared .. => outCanon_next.2 h.tablesCleared
  | .lpFrameBoundary => outCanon_next.2 h.frameBoundary
  | .burstBuildStart .. => outCanon_next.2 h.buildStart
  | .burstCommit .. => outCanon_next.2 h.commit
  | .burstLaunch .. => outCanon_next.2 h.launch
  | .burstEnd .. => outCanon_next.2 h.endBurst
  | .wardViolation .. => outCanon_next.2 h.violation
  | .wardCodeWrite .. => outCanon_next.2 h.writeCode
  | .flowWrite .. => outCanon_next.2 h.flowWrite
  | .flowProbe .. => outCanon_next.2 h.flowProbe
  | .anchor .. => outCanon_next.2 h.anchorMessage
  | .lockout .. => outCanon_next.2 (h.wardMessage (fun _ h => h.wardLockout))
  | .lockoutPermanent .. => outCanon_next.2 (h.wardMessage (fun _ h => h.wardLockout))
  | .release .. => outCanon_next.2 (h.wardMessage (fun _ h => h.wardRelease))
  | .lead .. => outCanon_next.2 h.leadMessage
  | .profile .. => outCanon_next.2 (h.judge (by simp) fun _ h => h.setReg)
  | .asymmetry .. => outCanon_next.2 (h.judge (by simp) fun _ h => h.setFld)
  | .enrolParams .. => outCanon_next.2 (h.judge (by simp) fun _ h => h.enrolParams)
  | .idAssign .. => outCanon_next.2 (h.judge (by simp) fun _ h => h.idAssign)
  | .rangeResult .. => outCanon_next.2 (h.judge (by simp) fun _ h => h.rangeResult)
  | .eqdAdjust .. => outCanon_next.2 (h.judge (by simp) fun _ h => h.setEqd.setRtd)
  | .planeAssign .. => outCanon_next.2 (h.judge (by simp) fun _ h => h.foldl fun _ _ h => h.assignPlane)
  | .planeRelease .. => outCanon_next.2 (h.judge (by simp) fun _ h => (h.foldl fun _ _ h => h.releasePlane).termStep)
  | .deregister .. => outCanon_next.2 (h.judge (by simp +contextual) fun _ h => h.dropId.withdraw.setTerm)
  | .stateRequest .. => outCanon_next.2 (h.judge (by simp) fun _ h => .ite h h.stateReport)
  | .lateApply .. => outCanon_next.2 (.ite h.takeMsg.count h)
  | .hostStart => outCanon_next.2 (.ite h (.ite h.startTerm h.frame))
  | .hostStop => outCanon_next.2 (.ite h (h.stopTerm.foldl fun _ _ h => h.laneEnable))
  | .planeAligned .. => outCanon_next.2 (.ite h.planeUp.termStep h)
  | .planeAlignLost .. => outCanon_next.2 (.ite h h.planeDown.termStep)
  | .wardStatusChange => outCanon_next.2 (.ite h.stopTerm (.ite h.stopTerm (.ite h (.ite h.setTerm (.ite (.ite h.setTerm.stateReport h.setTerm) h)))))
  | .tAlignExpiry => outCanon_next.2 (.ite (Canon.count (h.foldl fun _ _ h => .ite h.laneDown.laneUp h)) h)
  | .tEnrolExpiry => outCanon_next.2 (.ite h.leaveAnnouncing.count.setTerm h)
  | .tRangeExpiry .. => outCanon_next.2 (.ite h.rangeOut.count.termStep h)
  | .tHoldExpiry => outCanon_next.2 (.ite h.holdExpired h)
  | .planeTHoldExpiry .. => outCanon_next.2 (.ite h.releaseTo.termStep h)
  | .announceBackoff => outCanon_next.2 (.ite h.announce.frame.count.count h)
  | .noAnswer => h.execNoAnswer
  | .tAnchorExpiry => h.execTAnchorExpiry
  | .flywheelExpiry => h.execFlywheelExpiry
  | .tpoArm .. => outCanon_next.2 h.tpoWrite
  | .tpoEdge .. => outCanon_next.2 h.tpoFalls.tpoEdge
  | .tciEdge .. => outCanon_next.2 h.tciEdge
  | .tciLoRead .. => outCanon_next.2 h.frame.setCapture
  | .snapTake .. => outCanon_next.2 (.ite h.snapshot h)
  | .packetClassify .. => outCanon_next.2 (h.whenUp (fun _ h => h.whenUp (fun _ h => h.packetClassify)))
  | .clsRead .. => outCanon_next.2 h.clsCmdWrite
  | .clsWrite .. => outCanon_next.2 h.clsCmdWrite
  | .clsDelete .. => outCanon_next.2 h.clsCmdWrite
  | .clsFind .. => outCanon_next.2 h.clsCmdWrite
  | .clsCmdDone => outCanon_next.2 h.clsCmdDone
  | .edOpen => outCanon_next.2 h.edOpen
  | .edCommit => outCanon_next.2 h.edCommit
  | .edAbandon => outCanon_next.2 h.edAbandon
  | .sweepDone => outCanon_next.2 h.sweepDone
  | .editionRetire => outCanon_next.2 h.setBit
  | .tableModeWrite .. => outCanon_next.2 h.tableModeWrite
  | .packetAdmit .. => outCanon_next.2 h.packetAdmit
  | .upHbmWriteDone .. => outCanon_next.2 h.hbmWritten
  | .spillReadDone .. => outCanon_next.2 h.spillRead
  | .hbmTransfer .. => outCanon_next.2 h.hbmTransfer
  | .poolCfgWrite .. => outCanon_next.2 (.ite h.writeHbmCfg h.writePoolCfg)
  | .qmRead .. => outCanon_next.2 h.qmCmdWrite
  | .qmWrite .. => outCanon_next.2 h.qmCmdWrite
  | .qmFlush .. => outCanon_next.2 h.qmCmdWrite
  | .qmCmdDone => outCanon_next.2 h.qmCmdDone
  | .egressSelect .. => outCanon_next.2 (h.whenUp (fun _ h => h.egressSelect))
  | .wheelFire => outCanon_next.2 h.wheelTick
  | .schRead .. => outCanon_next.2 h.schCmdWrite
  | .schWrite .. => outCanon_next.2 h.schCmdWrite
  | .schCmdDone => outCanon_next.2 h.schCmdDone
  | .cliCfgWrite .. => outCanon_next.2 h.cliCfgWrite
  | .linkUp .. => outCanon_next.2 (h.whenUp (fun _ h => h.linkRises))
  | .linkDown .. => outCanon_next.2 h.linkState
  | .clientFrameRx .. => outCanon_next.2 (h.whenUp (fun _ h => h.frameArrives))
  | .recovResetExpiry .. => outCanon_next.2 h.setRecov
  | .pauseRx .. => outCanon_next.2 (.ite h.pauseRx h)
  | .pfcRx .. => outCanon_next.2 (.ite h.pfcRx h)
  | .pauseTimerExpiry .. => outCanon_next.2 h.pauseExpiry
  | .fcXoff .. => outCanon_next.2 h.fcXoff
  | .fcXon .. => outCanon_next.2 h.fcXon
  | .fcRefresh .. => outCanon_next.2 h.fcRefresh
  | .clientFrameTx .. => outCanon_next.2 h.clientTx
  | .gclCommit .. => outCanon_next.2 h.gclCommit
  | .gclCancel .. => outCanon_next.2 h.gclCancel
  | .gclDisable .. => outCanon_next.2 h.gclDisable
  | .gclDataAccess .. => outCanon_next.2 h.gclData
  | .gclStart .. => outCanon_next.2 h.gclStart
  | .gateEntryChange .. => outCanon_next.2 h.gateNext
  | .circRead .. => outCanon_next.2 h.circCmdWrite
  | .circWrite .. => outCanon_next.2 h.circCmdWrite
  | .circCmdDone => outCanon_next.2 h.circCmdDone
  | .sdhFrameRx .. => outCanon_next.2 h.sdhArrives
  | .sdhLosTimer .. => outCanon_next.2 (.ite h.setLaneDefect h)
  | .sdhLofTimer .. => outCanon_next.2 (.ite h.setLaneDefect h)
  | .dccPortFrame .. => outCanon_next.2 h.dccFrame
  | .ciphDispatch => outCanon_next.2 (h.whenUp (fun _ h => h.dispatchReq))
  | .ciphRequestDone .. => outCanon_next.2 h.reqDone
  | .keyLoad .. => outCanon_next.2 h.keyCtlWrite
  | .keyCommit .. => outCanon_next.2 h.keyCtlWrite
  | .keyErase .. => outCanon_next.2 h.keyCtlWrite
  | .keyOpDone => outCanon_next.2 h.keyOpDone
  | .saRead .. => outCanon_next.2 h.saCmdWrite
  | .saWrite .. => outCanon_next.2 h.saCmdWrite
  | .saCmdDone => outCanon_next.2 h.saCmdDone
  | .alarmDue .. => outCanon_next.2 h.alarmDue
  | .eventRaise .. => outCanon_next.2 h.eventRaise
  | .clauseDispatch => outCanon_next.2 h.clauseDispatch
  | .clauseResume .. => outCanon_next.2 h.clauseResume
  | .runLimit .. => outCanon_next.2 h.runLimit
  | .latchGrant .. => outCanon_next.2 h.latchGrant
  | .deadlockDetect => outCanon_next.2 h.deadlockDetect
  | .lschRead .. => outCanon_next.2 h.lschCmdWrite
  | .lschWrite .. => outCanon_next.2 h.lschCmdWrite
  | .lschCmdDone => outCanon_next.2 h.lschCmdDone
  | .lschLoad .. => outCanon_next.2 h.lschLoad
  | .loadDone => outCanon_next.2 h.loadDone
  | .swapArm .. => outCanon_next.2 h.swapCtlWrite
  | .swapCancel => outCanon_next.2 h.swapCtlWrite
  | .swapTarget => outCanon_next.2 h.swapTarget
  | .hbmAreaWrite .. => outCanon_next.2 h.hbmAreaWrite
  | .illegal .. => outCanon_next.2 h.limRun
  | .add .. => outCanon_next.2 h.limRun
  | .sub .. => outCanon_next.2 h.limRun
  | .and .. => outCanon_next.2 h.limRun
  | .or .. => outCanon_next.2 h.limRun
  | .xor .. => outCanon_next.2 h.limRun
  | .shl .. => outCanon_next.2 h.limRun
  | .shr .. => outCanon_next.2 h.limRun
  | .sar .. => outCanon_next.2 h.limRun
  | .mul .. => outCanon_next.2 h.limRun
  | .mulhu .. => outCanon_next.2 h.limRun
  | .slt .. => outCanon_next.2 h.limRun
  | .sltu .. => outCanon_next.2 h.limRun
  | .seq .. => outCanon_next.2 h.limRun
  | .addi .. => outCanon_next.2 h.limRun
  | .subi .. => outCanon_next.2 h.limRun
  | .andi .. => outCanon_next.2 h.limRun
  | .ori .. => outCanon_next.2 h.limRun
  | .xori .. => outCanon_next.2 h.limRun
  | .shli .. => outCanon_next.2 h.limRun
  | .shri .. => outCanon_next.2 h.limRun
  | .sari .. => outCanon_next.2 h.limRun
  | .slti .. => outCanon_next.2 h.limRun
  | .sltui .. => outCanon_next.2 h.limRun
  | .seqi .. => outCanon_next.2 h.limRun
  | .shori .. => outCanon_next.2 h.limRun
  | .ext .. => outCanon_next.2 h.limRun
  | .exts .. => outCanon_next.2 h.limRun
  | .ins .. => outCanon_next.2 h.limRun
  | .ld .. => outCanon_next.2 h.limRun
  | .lw .. => outCanon_next.2 h.limRun
  | .lb .. => outCanon_next.2 h.limRun
  | .memLoadReturn .. => outCanon_next.2 h.limReturn
  | .st .. => outCanon_next.2 h.limRun
  | .sw .. => outCanon_next.2 h.limRun
  | .sb .. => outCanon_next.2 h.limRun
  | .xadd .. => outCanon_next.2 h.limRun
  | .br .. => outCanon_next.2 h.limRun
  | .bz .. => outCanon_next.2 h.limRun
  | .bnz .. => outCanon_next.2 h.limRun
  | .bltz .. => outCanon_next.2 h.limRun
  | .bgez .. => outCanon_next.2 h.limRun
  | .call .. => outCanon_next.2 h.limRun
  | .jr .. => outCanon_next.2 h.limRun
  | .callr .. => outCanon_next.2 h.limRun
  | .ctlr .. => outCanon_next.2 h.limRun
  | .ctlw .. => outCanon_next.2 h.limRun
  | .ctlrx .. => outCanon_next.2 h.limRun
  | .ctlwx .. => outCanon_next.2 h.limRun
  | .ctlReadReturn .. => outCanon_next.2 h.ctlReturn
  | .ctlWriteLand .. => outCanon_next.2 h.ctlLand
  | .emit .. => outCanon_next.2 h.limRun
  | .emitx .. => outCanon_next.2 h.limRun
  | .endClause .. => outCanon_next.2 h.limRun
  | .fence .. => outCanon_next.2 h.limRun
  | .trap .. => outCanon_next.2 h.limRun
  | .arm .. => outCanon_next.2 h.limRun
  | .tcap .. => outCanon_next.2 h.limRun
  | .acq .. => outCanon_next.2 h.limRun
  | .rel .. => outCanon_next.2 h.limRun
  | .lfix .. => outCanon_next.2 h.limRun
  | .ptake .. => outCanon_next.2 h.limRun
  | .mtake .. => outCanon_next.2 h.limRun
  | .pnew .. => outCanon_next.2 h.limRun
  | .pld .. => outCanon_next.2 h.limRun
  | .pst .. => outCanon_next.2 h.limRun
  | .plen .. => outCanon_next.2 h.limRun
  | .pmeta .. => outCanon_next.2 h.limRun
  | .psend .. => outCanon_next.2 h.limRun
  | .pfree .. => outCanon_next.2 h.limRun
  | .mpost .. => outCanon_next.2 h.limRun
  | .mdrop .. => outCanon_next.2 h.limRun
  | .creq .. => outCanon_next.2 h.limRun
  | .perstN => outCanon_next.2 h.perst
  | .functionLevelReset .. => outCanon_next.2 h.functionReset
  | .pcieReady => outCanon_next.2 h.frame
  | .chStart .. => outCanon_next.2 h.chStart
  | .chPause .. => outCanon_next.2 h.chPause
  | .chResume .. => outCanon_next.2 h.chResume
  | .chStop .. => outCanon_next.2 h.chStop
  | .chDoorbell .. => outCanon_next.2 h.chDoorbell
  | .chainEndCheck .. => outCanon_next.2 h.chainEnd
  | .descFetch .. => outCanon_next.2 h.descFetch
  | .descDone .. => outCanon_next.2 h.descDone
  | .chDrainDone .. => outCanon_next.2 h.drainDone
  | .pcieLinkDown => outCanon_next.2 h.linkLost
  | .bmeClear .. => outCanon_next.2 h.chBreakAll
  | .pktTxInject .. => outCanon_next.2 h.pktTx
  | .chRingHeadWrite .. => outCanon_next.2 h.ringHead
  | .irqHoldoffExpiry .. => outCanon_next.2 h.holdoffEnds
  | .chOwnerWrite .. => outCanon_next.2 h.ownerWrite
  | .vfDisable => outCanon_next.2 h.vfDisable
  | .hingeEnWrite .. => outCanon_next.2 h.hingeCfgWrite
  | .hingeLanesLocked => outCanon_next.2 (.ite h.frame.setLinkState h)
  | .hingeLockLost => outCanon_next.2 (.ite h.hingeAcquire h)
  | .hingeCodewordRx .. => outCanon_next.2 h.hingeCodeword
  | .heartbeatTx => outCanon_next.2 (.ite h.pushBlock h)
  | .heartbeat .. => outCanon_next.2 h.takeBlock.heartbeatRx
  | .heartbeatTimeout => outCanon_next.2 (.ite h.hingeAcquire h)
  | .update .. => outCanon_next.2 h.takeBlock.updateRx
  | .updateTx => outCanon_next.2 h.updateTx
  | .syncReq .. => outCanon_next.2 h.takeBlock.syncReqRx
  | .syncReqTx => outCanon_next.2 (.ite h.pushBlock h)
  | .syncStart .. => outCanon_next.2 h.takeBlock.syncStartRx
  | .syncEnd .. => outCanon_next.2 h.takeBlock.syncEndRx
  | .leadSelChange .. => outCanon_next.2 h.leadSel
  | .dualLead => outCanon_next.2 (.ite h.latch h)
  | .preuraBoot => outCanon_next.2 h.preuraBoot
  | .sensorSample .. => outCanon_next.2 h.sensorSample
  | .sensorPublish => outCanon_next.2 h.sensorPublish
  | .degradeRaise => outCanon_next.2 h.degradeRaise
  | .degradeLower => outCanon_next.2 h.degradeLower
  | .logWrite => outCanon_next.2 h.logWrite
  | .mpAddrWrite .. => outCanon_next.2 (h.portUp (fun _ h => h.frame))
  | .mpAddrRead => outCanon_next.2 (h.portUp (fun _ h => h.mpShow))
  | .mpDataWrite .. => outCanon_next.2 (h.portUp (fun _ h => h.mpDataWrite))
  | .mpDataRead => outCanon_next.2 (h.portUp (fun _ h => h.mpDataRead))
  | .mpStatusRead => outCanon_next.2 (h.portUp (fun _ h => h.mpShow))
  | .mpStatusWrite .. => outCanon_next.2 (h.portUp (fun _ h => h.mpFail))
  | .mpPreuraReset .. => outCanon_next.2 (h.portUp (fun _ h => .ite h.preuraReset h))
  | .badOpcode .. => outCanon_next.2 (h.portUp (fun _ h => .ite h h.mpFail))
  | .mpReady => outCanon_next.2 (h.portUp (fun _ h => h.mpBecomesReady))
  | .stageOpen .. => outCanon_next.2 (h.cmdRun (fun _ h => h.stageOpen))
  | .stageCommit .. => outCanon_next.2 (h.cmdRun (fun _ h => h.stageCommit))
  | .activate .. => outCanon_next.2 (h.cmdRun (fun _ h => h.activate))
  | .logMark .. => outCanon_next.2 (h.cmdRun (fun _ h => h.logMark))
  | .relay .. => outCanon_next.2 (h.cmdRun (fun _ h => h.relay))
  | .commandDone => outCanon_next.2 h.frame
  | .mboxSend .. => outCanon_next.2 h.mboxSend
  | .mboxTake => outCanon_next.2 h.mboxTake
  | .mboxPost => outCanon_next.2 h.mboxPost
  | .mboxDone .. => outCanon_next.2 h.mboxDone
  | .log => outCanon_next.2 (h.serveMsg fun _ _ h => h.serveLog)
  | .oeXfer => outCanon_next.2 (h.serveMsg fun _ _ h => h.serveXfer)
  | .oeXferDone .. => outCanon_next.2 (.ite h.xferEnds h)
  | .relayToBoard => outCanon_next.2 (h.serveMsg fun _ _ h => h.serveBoard)
  | .oeAlarm .. => outCanon_next.2 h.oeAlarm
  | .busStuck .. => outCanon_next.2 h.busStuck
  | .swapPop => outCanon_next.2 h.swapPop
  | .sentinelKick .. => outCanon_next.2 h.kickWrite
  | .sentinelTrip .. => outCanon_next.2 h.sentinelTrip
  | .preuraReset .. => outCanon_next.2 h.preuraCtl
  | .faultLatch .. => outCanon_next.2 h.takeWire.faultLatch
  | .wireFault .. => outCanon_next.2 h.wireFault
  | .unitRestartDone .. => outCanon_next.2 h.restartDone
  | .fltStatusClear .. => outCanon_next.2 h.statusClear
  | .capPop => outCanon_next.2 h.capPop
  | .dispPop .. => outCanon_next.2 h.dispPop
  | .pinFault => outCanon_next.2 h.latch
  | .fltReady => outCanon_next.2 (.ite h h.setBit)
  | .pwrReqOn .. => outCanon_next.2 h.pwrReq
  | .pwrReqRetention .. => outCanon_next.2 h.pwrReq
  | .pwrReqOff .. => outCanon_next.2 h.pwrReq
  | .domainDrainDone .. => outCanon_next.2 h.drainDoneDom
  | .drainAbort .. => outCanon_next.2 h.drainAbort
  | .domainDown .. => outCanon_next.2 h.domainDown
  | .wakeTurn => outCanon_next.2 h.wakeTurn
  | .domainOn .. => outCanon_next.2 h.domainOnNow
  | .pwrOpWrite .. => outCanon_next.2 h.opWrite
  | .avsDone .. => outCanon_next.2 h.avsEnds
  | .avsTimeout .. => outCanon_next.2 h.avsEnds
  | .avsRetry => outCanon_next.2 h.avsRetry
  | .chipReset .. => outCanon_next.2 h.chipReset
  | .porstNAssert => outCanon_next.2 h.aonReset
  | .porstNRelease .. => outCanon_next.2 h.porstRelease
  | .startDone => outCanon_next.2 h.startDone
  | .aonPowerLoss => outCanon_next.2 canon_aonPowerLoss
  | .pllUnlock .. => outCanon_next.2 h.pllLost
  | .refLoss .. => outCanon_next.2 h.refLost
  | .pmcSelWrite .. => outCanon_next.2 (.ite h.pmcSelWrite h)
  | .dumpDue .. => outCanon_next.2 h.dumpDue
  | .dumpOffer .. => outCanon_next.2 h.dumpOffer
  | .bwCfgWrite .. => outCanon_next.2 h.bwCfgWrite
  | .tapReset => outCanon_next.2 h.frame
  | .slotConfirm => outCanon_next.2 h.slotConfirmNow
  | .swapBufferDrain .. => outCanon_next.2 h.swapDrain
  | .chipResetEnd .. => outCanon_next.2 h.holdEnd
  | .pllRelock .. => outCanon_next.2 h.pllBack
  | .refPresent .. => outCanon_next.2 h.setFld
  | .vfEnable .. => outCanon_next.2 h.setFld
  | .pcieLinkUp .. => outCanon_next.2 (h.whenUp (fun _ h => h.linkTrained))
  | .isolationClampRelease .. => outCanon_next.2 h.clampRelease
  | .hingeCodewordTx => outCanon_next.2 h.hingeSend
  | .completionTimeout .. => outCanon_next.2 h.cplTimeout
  | .tckEdge .. => outCanon_next.2 (.ite h.tckRise h.tckFall)

theorem Canon.step (h : s.Canon) : OutCanon (step s) := by
  unfold Machine.step
  split
  · exact outCanon_next.2 h.tick
  · exact (h.frame : State.Canon _).exec

end State

/-- Settles O60, by the lemma of each operation: a step is a tick or a command, and both keep the canonical form. -/
theorem stepsKeepCanonicalForm : Obligations.StepsKeepCanonicalForm :=
  fun _ t hregs hmem e => State.Canon.step ⟨hregs, hmem⟩ t e

/-- Settles O59: at reset the register table and the memory list no address. -/
theorem resetIsCanonical : Obligations.ResetIsCanonical := ⟨rfl, wf_reset_mem⟩
end Sys2Proof.Machine
end

section
/-!
SUPPORT. The fields of a word set one by one (`setFields`), and a register's write and read as such: a write by access types and a read
that clears RC fields differ only in the new value of each field.
-/

namespace Sys2Proof.Machine

/-! ## The fields of a word -/

/-- Subtracting the bits shared with `y` clears them. -/
theorem sub_and_eq_and_not {w : Nat} (x y : BitVec w) : x - (x &&& y) = x &&& ~~~y := by
  have disjoint : (x &&& ~~~y) &&& (x &&& y) = 0#w := by
    ext i hi
    cases hy : y[i] <;> simp [hy]
  have parts : (x &&& ~~~y) + (x &&& y) = x := by
    rw [BitVec.add_eq_or_of_and_eq_zero _ _ disjoint]
    ext i hi
    cases hy : y[i] <;> simp [hy]
  exact (eq_sub_of_add_eq parts).symm

theorem bitsOf_eq_extract (x : Word) (hi lo : Nat) : bitsOf x.toNat hi lo = (x.extractLsb' lo (hi + 1 - lo)).toNat := by
  rw [BitVec.extractLsb'_toNat, Nat.shiftRight_eq_div_pow, bitsOf]

/-- A field of a word with the bits of another cleared. -/
theorem bitsOf_and_not (x y : Word) (hi lo : Nat) :
    bitsOf (x &&& ~~~y).toNat hi lo = bitsOf x.toNat hi lo - (bitsOf x.toNat hi lo &&& bitsOf y.toNat hi lo) := by
  have extract : (x &&& ~~~y).extractLsb' lo (hi + 1 - lo) =
      x.extractLsb' lo (hi + 1 - lo) &&& ~~~y.extractLsb' lo (hi + 1 - lo) := by
    ext i hi
    by_cases h : lo + i < 64
    · simp [h]
    · simp [BitVec.getLsbD_of_ge x (lo + i) (by omega)]
  rw [bitsOf_eq_extract, bitsOf_eq_extract, bitsOf_eq_extract, extract, ← sub_and_eq_and_not, ← BitVec.toNat_and]
  exact BitVec.toNat_sub_of_le (by rw [BitVec.le_def, BitVec.toNat_and]; exact Nat.and_le_left)

/-- A field set to the value it has. -/
theorem setBitsOf_self (n hi lo : Nat) : setBitsOf n hi lo (bitsOf n hi lo) = n := by
  have hmod : bitsOf n hi lo % 2 ^ (hi + 1 - lo) = bitsOf n hi lo := Nat.mod_eq_of_lt (bitsOf_lt n hi lo)
  have hle : bitsOf n hi lo * 2 ^ lo ≤ n := by
    have := Nat.mod_le (n / 2 ^ lo) (2 ^ (hi + 1 - lo))
    exact (Nat.mul_le_mul_right _ this).trans (Nat.div_mul_le_self n (2 ^ lo))
  rw [setBitsOf, hmod, Nat.sub_add_cancel hle]

/-- The fields of a register do not overlap and lie in its 64 bits. -/
def fieldsApart (fs : List FieldDesc) : Prop :=
  fs.Pairwise (fun f g => f.hi < g.lo ∨ g.hi < f.lo) ∧ ∀ f ∈ fs, f.lo ≤ f.hi ∧ f.hi < 64

theorem fieldsApart_cons {f : FieldDesc} {fs : List FieldDesc} (h : fieldsApart (f :: fs)) :
    fieldsApart fs ∧ (f.lo ≤ f.hi ∧ f.hi < 64) ∧ ∀ g ∈ fs, f.hi < g.lo ∨ g.hi < f.lo := by
  obtain ⟨hd, hw⟩ := h
  obtain ⟨hf, hd⟩ := List.pairwise_cons.1 hd
  obtain ⟨hwf, hw⟩ := List.forall_mem_cons.1 hw
  exact ⟨⟨hd, hw⟩, hwf, hf⟩

/-- A word whose fields are each set to what `new` makes of their value. -/
def setFields (new : FieldDesc → Nat → Nat) : List FieldDesc → Nat → Nat
  | [], w => w
  | f :: fs, w => setFields new fs (setBitsOf w f.hi f.lo (new f (bitsOf w f.hi f.lo)))

section
variable {new : FieldDesc → Nat → Nat} {fs : List FieldDesc}

theorem setFields_lt (h : fieldsApart fs) {w : Nat} (hw : w < 2 ^ 64) : setFields new fs w < 2 ^ 64 := by
  induction fs generalizing w with
  | nil => exact hw
  | cons f fs ih =>
    obtain ⟨hfs, hf, _⟩ := fieldsApart_cons h
    exact ih hfs (setBitsOf_lt w f.hi f.lo _ 64 (by omega) hf.2 hw)

/-- A field outside the list stays. -/
theorem bitsOf_setFields_other (h : fieldsApart fs) {g : FieldDesc} (hg : ∀ f ∈ fs, g.hi < f.lo ∨ f.hi < g.lo) (w : Nat) :
    bitsOf (setFields new fs w) g.hi g.lo = bitsOf w g.hi g.lo := by
  induction fs generalizing w with
  | nil => rfl
  | cons f fs ih =>
    obtain ⟨hfs, hf, _⟩ := fieldsApart_cons h
    obtain ⟨hgf, hg⟩ := List.forall_mem_cons.1 hg
    rw [setFields, ih hfs hg, bitsOf_setBitsOf_other _ _ _ _ _ _ (by omega) hgf]

/-- A field of the list gets its new value, whatever the other fields get. -/
theorem bitsOf_setFields (h : fieldsApart fs) {f : FieldDesc} (hf : f ∈ fs) (w : Nat) :
    bitsOf (setFields new fs w) f.hi f.lo = new f (bitsOf w f.hi f.lo) % 2 ^ (f.hi + 1 - f.lo) := by
  induction fs generalizing w with
  | nil => cases hf
  | cons g fs ih =>
    obtain ⟨hfs, hg, hapart⟩ := fieldsApart_cons h
    rw [setFields]
    rcases List.mem_cons.1 hf with rfl | hf
    · rw [bitsOf_setFields_other hfs hapart, bitsOf_setBitsOf_same _ _ _ _ (by omega)]
    · rw [ih hfs hf, bitsOf_setBitsOf_other _ _ _ _ _ _ (by omega) (hapart f hf).symm]

end

/-! ## The fields after a write and after a read -/

/-- What a write of `v` makes of a field with the value `x` (R7). -/
def FieldDesc.taken (program : Bool) (v : Nat) (f : FieldDesc) (x : Nat) : Nat :=
  match f.access with
  | .rw | .wo => bitsOf v f.hi f.lo
  | .pw => if program then bitsOf v f.hi f.lo else x
  | .w1c => x - (x &&& bitsOf v f.hi f.lo)
  | .ro | .rc => x

/-- What a read that clears leaves of a field with the value `x` (R7). -/
def FieldDesc.left (f : FieldDesc) (x : Nat) : Nat := if f.access = .rc then 0 else x

theorem write_eq_setBitsOf (f : FieldDesc) (program : Bool) (w v : Nat) :
    f.write program w v = setBitsOf w f.hi f.lo (f.taken program v (bitsOf w f.hi f.lo)) := by
  unfold FieldDesc.write FieldDesc.taken
  cases f.access <;> cases program <;> simp [setBitsOf_self]

theorem cleared_eq_setBitsOf (f : FieldDesc) (w : Nat) : f.cleared w = setBitsOf w f.hi f.lo (f.left (bitsOf w f.hi f.lo)) := by
  unfold FieldDesc.cleared FieldDesc.left
  cases f.access <;> simp [setBitsOf_self]

theorem writeFields_eq_setFields (program : Bool) (v : Nat) (fs : List FieldDesc) (w : Nat) :
    writeFields program v fs w = setFields (FieldDesc.taken program v) fs w := by
  induction fs generalizing w with
  | nil => rfl
  | cons f fs ih => rw [writeFields, setFields, ih, write_eq_setBitsOf]

theorem clearFields_eq_setFields (fs : List FieldDesc) (w : Nat) : clearFields fs w = setFields FieldDesc.left fs w := by
  induction fs generalizing w with
  | nil => rfl
  | cons f fs ih => rw [clearFields, setFields, ih, cleared_eq_setBitsOf]

/-- The new value of a field fits the field. -/
theorem taken_lt (program : Bool) (v w : Nat) (f : FieldDesc) :
    f.taken program v (bitsOf w f.hi f.lo) < 2 ^ (f.hi + 1 - f.lo) := by
  have hv := bitsOf_lt v f.hi f.lo
  have hw := bitsOf_lt w f.hi f.lo
  unfold FieldDesc.taken
  cases f.access <;> cases program <;> simp <;> omega

theorem left_le (f : FieldDesc) (x : Nat) : f.left x ≤ x := by
  unfold FieldDesc.left
  split <;> omega

end Sys2Proof.Machine
end

section
/-!
SUPPORT. Reads and writes of plain registers by programs, the host and Preura (R6, R7, R13, R24 to R26, R438), and what registers hold at
reset; O4, O5, O6 and O7 are settled here.
-/

namespace Sys2Proof.Machine

/-! ## What a register reads as -/

/-- A bit that lies in no readable field is not in the mask. -/
theorem testBit_readMask {fs : List FieldDesc} {i : Nat} (h : ∀ f ∈ fs, f.access = .wo ∨ i < f.lo ∨ f.hi < i) :
    (readMask fs).testBit i = false := by
  induction fs with
  | nil => simp [readMask]
  | cons f fs ih =>
    obtain ⟨hf, hfs⟩ := List.forall_mem_cons.1 h
    have hmask : (if f.access = Access.wo then 0 else (2 ^ (f.hi + 1 - f.lo) - 1) * 2 ^ f.lo).testBit i = false := by
      split
      · exact Nat.zero_testBit i
      · rw [Nat.testBit_mul_two_pow, Nat.testBit_two_pow_sub_one]
        have : ¬(f.lo ≤ i ∧ i - f.lo < f.hi + 1 - f.lo) := by have := hf.resolve_left ‹_›; omega
        simpa using this
    rw [readMask, Nat.testBit_or, hmask, ih hfs, Bool.or_self]

theorem regView_of_noReg (s : State) {a : Nat} (h : regDesc a = none) : s.regView a = 0 := by
  simp only [State.regView, h]

/-- Whatever the hardware shows in a register, the mask of its fields covers it. -/
theorem getLsbD_regView (s : State) {a i : Nat} {d : RegDesc} (h : regDesc a = some d)
    (hi : (readMask d.fields).testBit i = false) : (s.regView a).getLsbD i = false := by
  simp only [State.regView, h, BitVec.getLsbD_ofNat, Nat.testBit_and, hi, Bool.and_false]

/-- Settles O4: the value read is masked by the readable fields. -/
theorem reservedBitsReadZero : Obligations.ReservedBitsReadZero :=
  fun s _ => ⟨regView_of_noReg s, fun _ _ hd hi => getLsbD_regView s hd (testBit_readMask hi)⟩

/-! ## The registers at reset -/

/-- The word of SYS.DEVICE_ID, by the grade of the part. -/
theorem reset_sysDeviceId : State.reset.reg R.sysDeviceId = if Config.gradeE then 0x4B5A961622100002 else 0x4B5A961612100002 := by
  have h : State.reset.reg R.sysDeviceId = BitVec.ofNat 64 (0x4B5A961602100002 + (if Config.gradeE then 2 else 1) * 2 ^ 28) := rfl
  rw [h]
  cases Config.gradeE <;> rfl

/-- SYS.SERIAL holds the fused number. -/
theorem reset_sysSerial : State.reset.reg R.sysSerial = Config.serialNumber := by
  have h : State.reset.reg R.sysSerial = BitVec.ofNat 64 Config.serialNumber.toNat := rfl
  rw [h, BitVec.ofNat_toNat, BitVec.setWidth_eq]

theorem reset_deviceId_fields : State.reset.fld R.sysDeviceId ⟨63, 48⟩ = 0x4B5A ∧ State.reset.fld R.sysDeviceId ⟨47, 32⟩ = 0x9616 ∧
    State.reset.fld R.sysDeviceId ⟨27, 20⟩ = 0x21 ∧ State.reset.fld R.sysDeviceId ⟨7, 0⟩ = 2 := by
  simp only [State.fld, reset_sysDeviceId]
  cases Config.gradeE <;> decide

/-- Settles O5: every register is at its reset value, which the register map names. -/
theorem resetIdentificationAndStatus : Obligations.ResetIdentificationAndStatus := by
  obtain ⟨hvendor, hpart, hstep, hgen⟩ := reset_deviceId_fields
  exact ⟨rfl, hvendor, hpart, hstep, hgen, reset_sysSerial, by decide, by decide⟩

/-! ## Plain writes and reads of a register -/

theorem reg_shows (s : State) (w : BitVec 64) (a : Nat) : (s.shows w).reg a = s.reg a := rfl

theorem memKept_of_eq {s t : State} (h : t.mem = s.mem) : memKept s t := fun a => by rw [State.cell, State.cell, h]

theorem storeReg_eq (s : State) (program : Bool) (v : Word) {a : Nat} {d : RegDesc} (hd : regDesc a = some d) :
    s.storeReg program a v = s.setReg a (BitVec.ofNat 64 (setFields (FieldDesc.taken program v.toNat) d.fields (s.reg a).toNat)) := by
  simp only [State.storeReg, hd, writeFields_eq_setFields]

theorem clearRc_eq (s : State) {a : Nat} {d : RegDesc} (hd : regDesc a = some d) :
    s.clearRc a = s.setReg a (BitVec.ofNat 64 (setFields FieldDesc.left d.fields (s.reg a).toNat)) := by
  simp only [State.clearRc, hd, clearFields_eq_setFields]

/-- A field of a register whose fields are each set from their value. -/
theorem bitsOf_ofNat_setFields {new : FieldDesc → Nat → Nat} {fs : List FieldDesc} (h : fieldsApart fs) {f : FieldDesc} (hf : f ∈ fs)
    (w : Word) : bitsOf (BitVec.ofNat 64 (setFields new fs w.toNat)).toNat f.hi f.lo =
      new f (bitsOf w.toNat f.hi f.lo) % 2 ^ (f.hi + 1 - f.lo) := by
  rw [BitVec.toNat_ofNat, Nat.mod_eq_of_lt (setFields_lt h w.isLt), bitsOf_setFields h hf]

/-- A plain write acts on the fields by their access types. -/
theorem fieldsTaken_storeReg (s : State) (program : Bool) (v : Word) {a : Nat} {d : RegDesc} (hd : regDesc a = some d)
    (h : fieldsApart d.fields) : fieldsTaken program s (s.storeReg program a v) a v d := by
  intro f hf
  rw [storeReg_eq s program v hd, reg_setReg_same, bitsOf_ofNat_setFields h hf, Nat.mod_eq_of_lt (taken_lt program _ _ f)]
  unfold FieldDesc.taken
  cases f.access
  case w1c => exact (bitsOf_and_not _ _ _ _).symm
  all_goals rfl

theorem reg_storeReg_other (s : State) (program : Bool) (v : Word) {a b : Nat} (h : b ≠ a) : (s.storeReg program a v).reg b = s.reg b := by
  unfold State.storeReg
  split
  · rfl
  · exact reg_setReg_other s _ h

theorem storeReg_mem (s : State) (program : Bool) (v : Word) (a : Nat) : (s.storeReg program a v).mem = s.mem := by
  unfold State.storeReg
  split <;> rfl

/-- `fieldsTaken` looks only at the register's word. -/
theorem fieldsTaken_congr {s s' t : State} {program : Bool} {a : Nat} {v : Word} {d : RegDesc} (e : s'.reg a = s.reg a)
    (h : fieldsTaken program s' t a v d) : fieldsTaken program s t a v d := by
  intro f hf
  rw [h f hf, e]

/-! ## Writes by access type -/

theorem ctlWrite_program (s : State) {u a : Nat} {v : Word} (h : s.writeActs true u a v = none) :
    s.ctlWrite true u a v = s.storeReg true a v := by
  simp [State.ctlWrite, h]

/-- The state in which a write of the host or of Preura acts: the count of one that meets a PW register. -/
def State.writeCounted (s : State) (a : Nat) : State :=
  if hasPw a && s.domOn 0 then s.count R.gateCounts F.gateCounts_pwDiscards else s

theorem ctlWrite_other (s : State) {u a : Nat} {v : Word} (h : ∀ t : State, t.writeActs false u a v = none) :
    s.ctlWrite false u a v = (s.writeCounted a).storeReg false a v := by
  simp [State.ctlWrite, State.writeCounted, h]

theorem reg_writeCounted_other (s : State) {a b : Nat} (h : b ≠ R.gateCounts) : (s.writeCounted a).reg b = s.reg b := by
  unfold State.writeCounted
  split
  · exact reg_count_other s _ _ h
  · rfl

theorem writeCounted_mem (s : State) (a : Nat) : (s.writeCounted a).mem = s.mem := by
  unfold State.writeCounted
  split <;> rfl

theorem discardCounted_writeCounted (s : State) (a : Nat) (h : s.domOn 0 = true) : discardCounted s (s.writeCounted a) a := by
  unfold discardCounted State.writeCounted
  rw [h, Bool.and_true]
  split
  · exact fld_count_same s _ _ 1 (by decide) (by decide)
  · rfl

/-- A write of the host or of Preura to a plain register other than the counters of GATE. -/
theorem plainWrite_other (s : State) {u a : Nat} (v : Word) {d : RegDesc} (hd : regDesc a = some d) (h : fieldsApart d.fields)
    (ha : a ≠ R.gateCounts) (hplain : ∀ t : State, t.writeActs false u a v = none) :
    memKept s (s.ctlWrite false u a v) ∧ regsKept s (s.ctlWrite false u a v) [a, R.gateCounts] ∧
      (s.domOn 0 = true → discardCounted s (s.ctlWrite false u a v) a) ∧ fieldsTaken false s (s.ctlWrite false u a v) a v d := by
  rw [ctlWrite_other s hplain]
  refine ⟨memKept_of_eq (by rw [storeReg_mem, writeCounted_mem]), fun b hb => ?_, fun hon => ?_, ?_⟩
  · obtain ⟨hba, hbc⟩ : b ≠ a ∧ b ≠ R.gateCounts := by simpa using hb
    rw [reg_storeReg_other _ _ _ hba, reg_writeCounted_other s hbc]
  · have := discardCounted_writeCounted s a hon
    unfold discardCounted counted State.fld at this ⊢
    rwa [reg_storeReg_other _ _ _ ha.symm]
  · exact fieldsTaken_congr (reg_writeCounted_other s ha) (fieldsTaken_storeReg _ false v hd h)

/-- A program's write to a plain register. -/
theorem plainWrite_program (s : State) {u a : Nat} {v : Word} {d : RegDesc} (hd : regDesc a = some d) (h : fieldsApart d.fields)
    (hplain : s.writeActs true u a v = none) :
    memKept s (s.ctlWrite true u a v) ∧ regsKept s (s.ctlWrite true u a v) [a] ∧ fieldsTaken true s (s.ctlWrite true u a v) a v d := by
  rw [ctlWrite_program s hplain]
  refine ⟨memKept_of_eq (storeReg_mem ..), fun b hb => ?_, fieldsTaken_storeReg s true v hd h⟩
  exact reg_storeReg_other s _ _ (by simpa using hb)

theorem barAddr_pf (s : State) (a : Nat) : s.barAddr 0 a = some a := rfl

/-- The PF's write to a register that the host may write, outside the channel pages. -/
theorem hostWrite_pf (s : State) {a : Nat} (v : Word) (hon : s.domOn 0 = true) (hbar : barUnit a = true) (hw : barWrites a = true)
    (hok : s.accessOk a = true) (hinsp : a ≠ R.gateInspData) (hoff : offOf a < 0x10000) : s.hostWrite 0 a v = s.ctlWrite false 0 a v := by
  have hpage : ¬(0x10000 ≤ offOf a) := by omega
  simp [State.hostWrite, barAddr_pf, hon, hbar, hw, hok, hinsp, hpage]

/-- The counter block of DMA takes no write of the host. -/
theorem hostWrite_dmaCounters (s : State) {a : Nat} (v : Word) (hon : s.domOn 0 = true) (hu : unitOf a = 0x98) (hoff : offOf a < 0x10000)
    (hok : s.accessOk a = true) : s.hostWrite 0 a v = s := by
  have hpage : ¬(0x10000 ≤ offOf a) := by omega
  simp [State.hostWrite, barAddr_pf, hon, barUnit, barWrites, hu, hok, hpage]

theorem hostWrite_noReg (s : State) {a : Nat} (v : Word) (hon : s.domOn 0 = true) (hd : regDesc a = none) :
    s.hostWrite 0 a v = s.hostMiss a := by
  have hok : s.accessOk a = false := by simp [State.accessOk, hd]
  simp [State.hostWrite, barAddr_pf, hon, hok]

theorem hostMiss_mem (s : State) (a : Nat) : (s.hostMiss a).mem = s.mem := by
  unfold State.hostMiss State.latch
  split <;> rfl

theorem reg_hostMiss_other (s : State) {a b : Nat} (hs : b ≠ R.gateInspStatus) (hc : b ≠ R.gateCounts) :
    (s.hostMiss a).reg b = s.reg b := by
  rw [State.hostMiss, reg_count_other _ _ _ hc, reg_setFld_other _ _ _ hs, reg_latch_other _ _ hs]

theorem hostMiss_err (s : State) (a : Nat) : (s.hostMiss a).bit R.gateInspStatus F.gateInspStatus_err = true := by
  rw [State.hostMiss, bit_count_other _ _ _ _ (by decide), bit_setFld_field _ _ _ _ _ (by decide) (by decide) (by decide),
    bit_latch_same _ _ _ rfl (by decide)]

theorem hostMiss_errAddr (s : State) (a : BitVec 40) :
    (s.hostMiss a.toNat).fld R.gateInspStatus F.gateInspStatus_errAddr = a.toNat := by
  rw [State.hostMiss, fld_count_other _ _ _ _ (by decide), fld_setFld_same _ _ _ _ (by decide) (by decide)]
  exact Nat.mod_eq_of_lt a.isLt

theorem hostMiss_counted (s : State) (a : Nat) : counted s (s.hostMiss a) R.gateCounts F.gateCounts_noReg := by
  rw [counted, State.hostMiss, fld_count_same _ _ _ _ (by decide) (by decide), fld_setFld_other _ _ _ _ (by decide),
    fld_latch_other _ _ _ (by decide)]

theorem preuraWrite_own (s : State) {a : Nat} (v : Word) (hruns : s.preuraRuns = true) (hw : preuraWrites (unitOf a) = true)
    (hok : s.accessOk a = true) : s.preuraWrite a v = s.ctlWrite false 0x9D a v := by
  simp [State.preuraWrite, hruns, hw, hok]

/-- Preura writes no unit of the host interface. -/
theorem ne_gateCounts_of_preuraWrites {a : Nat} (h : preuraWrites (unitOf a) = true) : a ≠ R.gateCounts := by
  rintro rfl
  exact absurd h (by decide)

@[simp] theorem ctx_setCtx_same (s : State) (c x : Nat) (t : Ctx) : (s.setCtx c x t).ctx c x = t := by
  simp [State.setCtx, State.ctx, State.setCore, State.core]

theorem programRefused_eq (s : State) {c x : Nat} {cl : Clause} (hcl : (s.ctx c x).clause = some cl) (hr : (s.ctx c x).refused = none) :
    s.programRefused c x = s.setCtx c x
      { s.ctx c x with refused := some ((s.ctx c x).pc.toNat, (s.fetchLim c (s.ctx c x) cl).toNat) } := by
  simp [State.programRefused, hcl, hr]

theorem exec_regWrite_program (s : State) (c : CoreId) (x : CtxId) (a : BitVec 40) (v : Word) :
    exec (.regWrite (.program c x) a v) s =
      .next (if s.accessOk a.toNat then s.ctlWrite true (0xA0 + c) a.toNat v else s.programRefused c x) := rfl

theorem exec_regWrite_pf (s : State) (a : BitVec 40) (v : Word) : exec (.regWrite (.host 0) a v) s = .next (s.hostWrite 0 a.toNat v) := rfl

theorem exec_regWrite_preura (s : State) (a : BitVec 40) (v : Word) :
    exec (.regWrite .preura a v) s = .next (s.preuraWrite a.toNat v) := rfl

/-- Settles O6: the write of a plain register is `storeReg`, whose fields are set one by one; the other accesses are those of R24 to R26. -/
theorem registerWritesFollowAccessTypes : Obligations.RegisterWritesFollowAccessTypes := by
  intro s a v d hd hapart hin
  have h : fieldsApart d.fields := ⟨hapart, hin⟩
  refine ⟨fun c x hok hplain => ?program, fun hon hbar hw hok hinsp hcounts hoff hplain => ?pf, fun hruns hw hok hplain => ?preura,
    fun hon hu hoff hok => ?dmaCounters, fun b hon hb => ?noReg, fun c x cl hok hcl hr => ?refused⟩
  case program =>
    rw [exec_regWrite_program, if_pos hok]
    exact ⟨_, rfl, plainWrite_program s hd h hplain⟩
  case pf =>
    obtain ⟨hmem, hregs, hcount, htaken⟩ := plainWrite_other s v hd h hcounts hplain
    rw [exec_regWrite_pf, hostWrite_pf s v hon hbar hw hok hinsp hoff]
    exact ⟨_, rfl, hmem, hregs, hcount hon, htaken⟩
  case preura =>
    rw [exec_regWrite_preura, preuraWrite_own s v hruns hw hok]
    exact ⟨_, rfl, plainWrite_other s v hd h (ne_gateCounts_of_preuraWrites hw) hplain⟩
  case dmaCounters => rw [exec_regWrite_pf, hostWrite_dmaCounters s v hon hu hoff hok]
  case noReg =>
    rw [exec_regWrite_pf, hostWrite_noReg s v hon hb]
    refine ⟨_, rfl, hostMiss_err s _, hostMiss_errAddr s b, hostMiss_counted s _, memKept_of_eq (hostMiss_mem s _), fun r hr => ?_⟩
    obtain ⟨hs, hc⟩ : r ≠ R.gateInspStatus ∧ r ≠ R.gateCounts := by simpa using hr
    exact reg_hostMiss_other s hs hc
  case refused =>
    rw [exec_regWrite_program, if_neg (by simp [hok]), programRefused_eq s hcl hr]
    refine ⟨_, rfl, ?_⟩
    rw [ctx_setCtx_same]
    exact ⟨rfl, rfl, fun _ => rfl, fun _ _ => rfl⟩

/-! ## Reads -/

theorem readTakes_none (s : State) {a : Nat} (h5 : unitOf a ≠ 5) (hcli : unitOf a < 0x30 ∨ 0x8F < unitOf a) : s.readTakes a = s := by
  have h : ¬(0x30 ≤ unitOf a ∧ unitOf a ≤ 0x8F ∧ offOf a = 0x78 ∧ s.cliMode (unitOf a - 0x30) ≠ 15) := by omega
  simp only [State.readTakes, h5, h, false_and, if_false]

theorem reg_afterFree (s : State) (a b : Nat) : (s.afterFree a).reg b = s.reg b := by
  unfold State.afterFree
  split <;> rfl

theorem afterFree_mem (s : State) (a : Nat) : (s.afterFree a).mem = s.mem := by
  unfold State.afterFree
  split <;> rfl

/-- A read that hands out nothing clears the register's RC fields and nothing else. -/
theorem reg_afterRead (s : State) {a : Nat} (h5 : unitOf a ≠ 5) (hcli : unitOf a < 0x30 ∨ 0x8F < unitOf a) (b : Nat) :
    (s.afterRead a).reg b = (s.clearRc a).reg b := by
  rw [State.afterRead, readTakes_none _ h5 hcli, reg_afterFree]

theorem afterRead_mem (s : State) {a : Nat} (h5 : unitOf a ≠ 5) (hcli : unitOf a < 0x30 ∨ 0x8F < unitOf a) :
    (s.afterRead a).mem = (s.clearRc a).mem := by
  rw [State.afterRead, readTakes_none _ h5 hcli, afterFree_mem]

/-- A program's read of a register that hands out nothing. -/
theorem plainRead (s : State) {a : Nat} {d : RegDesc} (hd : regDesc a = some d) (h : fieldsApart d.fields) (h5 : unitOf a ≠ 5)
    (hcli : unitOf a < 0x30 ∨ 0x8F < unitOf a) :
    memKept s (s.afterRead a) ∧ regsKept s (s.afterRead a) [a] ∧ ∀ f ∈ d.fields,
      bitsOf ((s.afterRead a).reg a).toNat f.hi f.lo = if f.access = .rc then 0 else bitsOf (s.reg a).toNat f.hi f.lo := by
  refine ⟨memKept_of_eq ?_, fun b hb => ?_, fun f hf => ?_⟩
  · rw [afterRead_mem s h5 hcli, clearRc_eq s hd]
    rfl
  · rw [reg_afterRead s h5 hcli, clearRc_eq s hd, reg_setReg_other _ _ (by simpa using hb)]
  · have hlt := (left_le f _).trans_lt (bitsOf_lt (s.reg a).toNat f.hi f.lo)
    rw [reg_afterRead s h5 hcli, clearRc_eq s hd, reg_setReg_same, bitsOf_ofNat_setFields h hf, Nat.mod_eq_of_lt hlt]
    rfl

/-- INSP_READ of a register that exists and is powered, before ADDR moves on. -/
def State.inspShown (s : State) (a : Nat) : State := ((s.afterFree a).setReg R.gateInspData (s.regView a)).shows (s.regView a)

theorem reg_inspShown_other (s : State) (a : Nat) {b : Nat} (h : b ≠ R.gateInspData) : (s.inspShown a).reg b = s.reg b := by
  rw [State.inspShown, reg_shows, reg_setReg_other _ _ h, reg_afterFree]

theorem inspShown_mem (s : State) (a : Nat) : (s.inspShown a).mem = s.mem := afterFree_mem s a

/-- INSP_READ shows the register, and ADDR moves on under AUTOINC. -/
theorem inspRead_ok (s : State) {a : Nat} (ha : s.fld R.gateInspAddr F.gateInspAddr_addr = a) (hok : s.accessOk a = true) :
    s.inspRead = if s.bit R.gateInspAddr F.gateInspAddr_autoinc then (s.inspShown a).setFld R.gateInspAddr F.gateInspAddr_addr (a + 8)
      else s.inspShown a := by
  have hauto : (s.inspShown a).bit R.gateInspAddr F.gateInspAddr_autoinc = s.bit R.gateInspAddr F.gateInspAddr_autoinc := by
    rw [State.bit, State.bit, State.fld, State.fld, reg_inspShown_other s a (by decide)]
  subst ha
  rw [← hauto]
  simp only [State.inspRead, hok, if_true]
  rfl

theorem exec_rcRead_program (s : State) (c : CoreId) (x : CtxId) (a : BitVec 40) : exec (.rcRead (.program c x) a) s =
    .next (if s.accessOk a.toNat then (s.afterRead a.toNat).shows (s.regView a.toNat) else (s.programRaises c x).shows 0) := rfl

theorem exec_inspRead (s : State) : exec .inspRead s = .next (if s.domOn 0 then s.inspRead else s.shows 0) := rfl

theorem exec_inspWrite (s : State) (v : Word) :
    exec (.inspWrite v) s = .next (if s.domOn 0 then s.count R.gateCounts F.gateCounts_inspWrites else s) := rfl

/-- Settles O7: a read clears through `clearRc` alone, INSP_READ writes its own two registers, and INSP_WRITE only counts. -/
theorem readsClearRcFieldsExceptByInspection : Obligations.ReadsClearRcFieldsExceptByInspection := by
  intro s
  refine ⟨fun c x a d hd hapart hin hok h5 hcli => ?read, fun hon hok => ?inspRead, fun v hon => ?inspWrite⟩
  case read =>
    rw [exec_rcRead_program, if_pos hok]
    exact ⟨_, rfl, rfl, plainRead s hd ⟨hapart, hin⟩ h5 hcli⟩
  case inspRead =>
    rw [exec_inspRead, if_pos hon, inspRead_ok s rfl hok]
    refine ⟨_, rfl, ?_, fun hauto => ?_, memKept_of_eq ?_, fun b hb => ?_⟩
    · split <;> rfl
    · rw [if_pos hauto]
      exact fld_setFld_same _ _ _ _ (by decide) (by decide)
    · rw [← inspShown_mem s (s.fld R.gateInspAddr F.gateInspAddr_addr)]
      split <;> rfl
    · obtain ⟨hdata, haddr⟩ : b ≠ R.gateInspData ∧ b ≠ R.gateInspAddr := by simpa using hb
      split
      · rw [reg_setFld_other _ _ _ haddr, reg_inspShown_other s _ hdata]
      · exact reg_inspShown_other s _ hdata
  case inspWrite =>
    rw [exec_inspWrite, if_pos hon]
    refine ⟨_, rfl, fld_count_same s _ _ 1 (by decide) (by decide), fun _ => rfl, fun b hb => ?_⟩
    exact reg_count_other s _ _ (by simpa using hb)

end Sys2Proof.Machine
end

section
/-!
SUPPORT. What an operation changes, by fields: `Changes W s t` says that `t` holds the memory of `s` and differs from it in the fields of
`W` at most. The rules follow the operations on registers; the frame clauses of a statement (`memKept`, `regsKept`, `unitsKept`, a field
that stays) are read off with `Changes.reg`, `Changes.fld` and `Changes.regsKept`.
-/

namespace Sys2Proof.Machine

/-- `t` has the memory of `s`, and a register bit of it differs from that of `s` only within a field of `W`. -/
def Changes (W : Nat → Fld → Prop) (s t : State) : Prop :=
  t.mem = s.mem ∧ ∀ a i, (∀ f, W a f → i < f.lo ∨ f.hi < i) → (t.reg a).getLsbD i = (s.reg a).getLsbD i

theorem getLsbD_setFld (s : State) (a : Nat) (f : Fld) (v : Nat) {i : Nat} (h : i < f.lo ∨ f.hi < i) :
    ((s.setFld a f v).reg a).getLsbD i = (s.reg a).getLsbD i := by
  have hbit : (setBitsOf (s.reg a).toNat f.hi f.lo v).testBit i = (s.reg a).toNat.testBit i := by
    by_cases hf : f.lo ≤ f.hi + 1
    · rw [testBit_setBitsOf _ _ _ _ _ hf, if_neg (by omega)]
    · have hw : f.hi + 1 - f.lo = 0 := by omega
      simp [setBitsOf, bitsOf, hw, Nat.mod_one]
  simp only [State.setFld, reg_setReg_same, BitVec.getLsbD_ofNat, hbit]
  by_cases hi : i < 64
  · simp [hi, BitVec.getLsbD]
  · rw [BitVec.getLsbD_of_ge _ i (by omega), decide_eq_false hi, Bool.false_and]

/-- A field is read from its own bits. -/
theorem fld_congr {s t : State} {a : Nat} {f : Fld} (h : ∀ i, f.lo ≤ i → i ≤ f.hi → (t.reg a).getLsbD i = (s.reg a).getLsbD i) :
    t.fld a f = s.fld a f := by
  refine Nat.eq_of_testBit_eq fun i => ?_
  rw [State.fld, State.fld, testBit_bitsOf, testBit_bitsOf]
  by_cases hi : i < f.hi + 1 - f.lo
  · simpa [hi, BitVec.getLsbD] using h (f.lo + i) (by omega) (by omega)
  · simp [hi]

namespace Changes

variable {W W' : Nat → Fld → Prop} {s t u : State}

@[refl] theorem refl : Changes W s s := ⟨rfl, fun _ _ _ => rfl⟩

theorem trans (h : Changes W s t) (h' : Changes W t u) : Changes W s u :=
  ⟨h'.1.trans h.1, fun a i hi => (h'.2 a i hi).trans (h.2 a i hi)⟩

theorem mono (h : Changes W s t) (hw : ∀ a f, W a f → W' a f) : Changes W' s t :=
  ⟨h.1, fun a i hi => h.2 a i fun f hf => hi f (hw a f hf)⟩

/-! ### What is read off -/

theorem reg (h : Changes W s t) {a : Nat} (ha : ∀ f, ¬W a f) : t.reg a = s.reg a :=
  BitVec.eq_of_getLsbD_eq fun i _ => h.2 a i fun f hf => absurd hf (ha f)

theorem fld (h : Changes W s t) {a : Nat} {f : Fld} (hf : ∀ g, W a g → f.hi < g.lo ∨ g.hi < f.lo) : t.fld a f = s.fld a f :=
  fld_congr fun i hlo hhi => h.2 a i fun g hg => by have := hf g hg; omega

theorem bit (h : Changes W s t) {a : Nat} {f : Fld} (hf : ∀ g, W a g → f.hi < g.lo ∨ g.hi < f.lo) : t.bit a f = s.bit a f := by
  rw [State.bit, State.bit, h.fld hf]

theorem memKept (h : Changes W s t) : memKept s t := memKept_of_eq h.1

theorem regsKept {l : List Nat} (h : Changes (fun a _ => a ∈ l) s t) : regsKept s t l := fun _ ha => h.reg fun _ => ha

theorem unitsKept {us : List Nat} (h : Changes (fun a _ => unitOf a ∈ us) s t) : unitsKept s t us := fun _ ha => h.reg fun _ => ha

/-! ### Rules -/

theorem setReg (h : Changes W s t) {a : Nat} {w : Word} (hw : W a ⟨63, 0⟩) : Changes W s (t.setReg a w) := by
  refine ⟨h.1, fun b i hi => ?_⟩
  by_cases hb : b = a
  · subst hb
    have := hi _ hw
    rw [BitVec.getLsbD_of_ge _ _ (by simp at this; omega), BitVec.getLsbD_of_ge _ _ (by simp at this; omega)]
  · rw [reg_setReg_other _ _ hb, h.2 b i hi]

theorem setFld (h : Changes W s t) {a : Nat} {f : Fld} {v : Nat} (hw : W a f) : Changes W s (t.setFld a f v) := by
  refine ⟨h.1, fun b i hi => ?_⟩
  by_cases hb : b = a
  · subst hb
    rw [getLsbD_setFld t b f v (hi f hw), h.2 b i hi]
  · rw [reg_setFld_other _ _ _ hb, h.2 b i hi]

theorem setBit (h : Changes W s t) {a : Nat} {f : Fld} {b : Bool} (hw : W a f) : Changes W s (t.setBit a f b) := h.setFld hw

theorem count (h : Changes W s t) {a : Nat} {f : Fld} {n : Nat} (hw : W a f) : Changes W s (t.count a f n) := h.setFld hw

theorem ite {c : Prop} [Decidable c] (h : c → Changes W s t) (h' : ¬c → Changes W s u) : Changes W s (if c then t else u) := by
  split
  · exact h ‹_›
  · exact h' ‹_›

/-- A component of the state other than the registers and the memory is replaced. -/
theorem frame {p f e w md df ub wd en ti cl qm ci cr cp fl ls ho tw pr pw mo ta} (h : Changes W s t) :
    Changes W s ⟨p, t.regs, t.mem, f, e, w, md, df, ub, wd, en, ti, cl, qm, ci, cr, cp, fl, ls, ho, tw, pr, pw, mo, ta⟩ := h

theorem latch (h : Changes W s t) {a : Nat} {f : Fld} (hw : W a f) : Changes W s (t.latch a f) := .ite (fun _ => h) fun _ => (h.setFld hw).frame

theorem latchIf (h : Changes W s t) {b : Bool} {a : Nat} {f : Fld} (hw : W a f) : Changes W s (t.latchIf b a f) :=
  .ite (fun _ => h.latch hw) fun _ => h

theorem signal (h : Changes W s t) {src cls code : Nat} : Changes W s (t.signal src cls code) := h.frame

theorem foldl {α} {f : State → α → State} {l : List α} (h : Changes W s t) (hf : ∀ t, ∀ x ∈ l, Changes W s t → Changes W s (f t x)) :
    Changes W s (l.foldl f t) :=
  List.foldlRecOn (motive := Changes W s) l f h fun t ht x hx => hf t x hx ht

/-- An event of a unit counts in its counter block. -/
theorem pmcEvent (h : Changes W s t) {v code n : Nat} (hc : ∀ i < 8, W (R.pmcCnt v i) F.pmcCnt_count)
    (ho : ∀ i < 8, W (R.pmcCtl v) ⟨16 + i, 16 + i⟩) : Changes W s (t.pmcEvent v code n) :=
  .ite (fun _ => h) fun _ => h.foldl fun _ i hi h =>
    have hi := List.mem_range.1 hi
    .ite (fun _ => (h.setFld (hc i hi)).latchIf (ho i hi)) fun _ => h

end Changes
end Sys2Proof.Machine
end

section
/-!
SUPPORT. The power controller's operations (R525 to R545): which fields each of them changes, and the values it leaves in them.
-/

namespace Sys2Proof.Machine

/-! ## Which fields an operation changes -/

/-- The fields of a list. -/
abbrev fieldsOf (l : List (Nat × Fld)) (a : Nat) (f : Fld) : Prop := (a, f) ∈ l

/-- A record of a completion, a refusal or an abort (R532). -/
def noteFields : List (Nat × Fld) := [(R.pwrStatus, F.pwrStatus_domChg), (R.pwrStatus, F.pwrStatus_logLost)]

/-- A request that becomes current. -/
def beginFields (d : Nat) : List (Nat × Fld) :=
  (R.pwrDom d, F.pwrDom_refused) :: (R.pwrDom d, F.pwrDom_lastRefuser) :: (R.pwrDom d, F.pwrDom_target) ::
    (R.pwrDom d, F.pwrDom_phase) :: noteFields

/-- A request, or the end of a transition. -/
def requestFields (d : Nat) : List (Nat × Fld) :=
  (R.pwrDom d, F.pwrDom_aborted) :: (R.pwrDom d, F.pwrDom_pending) :: (R.pwrDom d, F.pwrDom_reEnPending) :: beginFields d

/-- The clocks that step to their points (R536, R537). -/
def clockFields : List (Nat × Fld) :=
  [(R.pwrOp, F.pwrOp_pktF), (R.pwrOp, F.pwrOp_lim0F), (R.pwrOp, F.pwrOp_lim1F), (R.pwrStatus, F.pwrStatus_opChg)]

/-- The rails and clocks that follow the points. -/
def followFields : List (Nat × Fld) := (R.pwrAvsStatus, F.pwrAvsStatus_opAborted) :: clockFields

namespace Changes

variable {W : Nat → Fld → Prop} {s t : State} {d : Nat}

theorem pwrRecord (h : Changes W s t) {e : Nat} {w : Word} (hw : W R.pwrStatus F.pwrStatus_logLost) : Changes W s (t.pwrRecord e w) :=
  .ite (fun _ => h.frame) fun _ => h.count hw

theorem pwrNote (h : Changes W s t) (hw : ∀ e ∈ noteFields, W e.1 e.2) : Changes W s (t.pwrNote d) :=
  (h.latch (hw _ (.head _))).pwrRecord (hw _ (.tail _ (.head _)))

theorem setPhase (h : Changes W s t) {v : Nat} (hw : W (R.pwrDom d) F.pwrDom_phase) : Changes W s (t.setPhase d v) := h.setFld hw

theorem pwrRefuse (h : Changes W s t) {v : Nat} (hw : ∀ e ∈ beginFields d, W e.1 e.2) : Changes W s (t.pwrRefuse d v) :=
  ((h.count (hw _ (.head _))).setFld (hw _ (.tail _ (.head _)))).pwrNote fun e he => hw e (by simp [beginFields, he])

theorem pwrBegin (h : Changes W s t) {g v : Nat} (hw : ∀ e ∈ beginFields d, W e.1 e.2) : Changes W s (t.pwrBegin g v d) := by
  refine .ite (fun _ => h.pwrNote fun e he => hw e (by simp [beginFields, he])) fun _ => .ite (fun _ => h.pwrRefuse hw) fun _ => ?_
  split
  · exact h.pwrRefuse hw
  · exact ((h.setFld (hw (R.pwrDom d, F.pwrDom_target) (by simp [beginFields]))).setPhase
      (hw (R.pwrDom d, F.pwrDom_phase) (by simp [beginFields]))).frame

theorem startEnded (h : Changes W s t) : Changes W s (t.startEnded d) := .ite (fun _ => h.frame) fun _ => h

theorem pwrRequest (h : Changes W s t) {g v : Nat} (hw : ∀ e ∈ requestFields d, W e.1 e.2) : Changes W s (t.pwrRequest g v d) := by
  have hbegin : ∀ e ∈ beginFields d, W e.1 e.2 := fun e he => hw e (by simp [requestFields, he])
  have habort : Changes W s (t.pwrAbort d v) :=
    ((h.count (hw _ (.head _))).setFld (hbegin _ (.tail _ (.head _)))).pwrNote fun e he => hbegin e (by simp [beginFields, he])
  refine .ite (fun _ => h.pwrBegin hbegin) fun _ =>
    Changes.frame (Changes.setBit (Changes.setFld ?_ (hw _ (.tail _ (.head _)))) (hw _ (.tail _ (.tail _ (.head _)))))
  exact .ite (fun _ => h) fun _ => habort

theorem pwrSettle (h : Changes W s t) (hw : ∀ e ∈ requestFields d, W e.1 e.2) : Changes W s (t.pwrSettle d) := by
  have hbegin : ∀ e ∈ beginFields d, W e.1 e.2 := fun e he => hw e (by simp [requestFields, he])
  have hphase : Changes W s ((t.setPhase d 0).startEnded d) :=
    (h.setPhase (hw (R.pwrDom d, F.pwrDom_phase) (by simp [requestFields, beginFields]))).startEnded
  exact .ite (fun _ => hphase) fun _ => ((hphase.setFld (hw _ (.tail _ (.head _)))).setFld (hw _ (.tail _ (.tail _ (.head _))))).pwrBegin hbegin

theorem stepClock (h : Changes W s t) {f : Fld} {n : Nat} (hf : W R.pwrOp f) (hs : W R.pwrStatus F.pwrStatus_opChg) :
    Changes W s (t.stepClock f n) :=
  .ite (fun _ => h) fun _ => (h.setFld hf).latch hs

theorem stepClocks (h : Changes W s t) (hw : ∀ e ∈ clockFields, W e.1 e.2) : Changes W s t.stepClocks := by
  have step : ∀ {t : State} {c : Prop} [Decidable c] {f : Fld} {n : Nat}, Changes W s t → (R.pwrOp, f) ∈ clockFields →
      Changes W s (if c then t.stepClock f n else t) := fun h hf =>
    .ite (fun _ => h.stepClock (hw _ hf) (hw (R.pwrStatus, F.pwrStatus_opChg) (by simp [clockFields]))) fun _ => h
  exact step (step (step h (by simp [clockFields])) (by simp [clockFields])) (by simp [clockFields])

theorem slowCluster (h : Changes W s t) {k : Nat} (hw : ∀ e ∈ clockFields, W e.1 e.2) : Changes W s (t.slowCluster k) :=
  have hf : (R.pwrOp, if k = 0 then F.pwrOp_lim0F else F.pwrOp_lim1F) ∈ clockFields := by split <;> simp [clockFields]
  h.stepClock (hw _ hf) (hw (R.pwrStatus, F.pwrStatus_opChg) (by simp [clockFields]))

theorem railAsk (h : Changes W s t) {r n : Nat} (hw : W R.pwrAvsStatus F.pwrAvsStatus_opAborted) : Changes W s (t.railAsk r n) :=
  .ite (fun _ => h.frame) fun _ => .ite (fun _ => h) fun _ => Changes.frame (.ite (fun _ => h.count hw) fun _ => h)

theorem followPoints (h : Changes W s t) {b : Bool} (hw : ∀ e ∈ followFields, W e.1 e.2) : Changes W s (t.followPoints b) :=
  (h.stepClocks fun e he => hw e (.tail _ he)).foldl fun _ _ _ h => .ite (fun _ => h.railAsk (hw _ (.head _))) fun _ => h

theorem wentDark (h : Changes W s t) : Changes W s (t.wentDark d) := .ite (fun _ => h) fun _ => h.frame

theorem clamp (h : Changes W s t) {b : Bool} : Changes W s (t.clamp d b) := h.frame

theorem dropRestarts (h : Changes W s t) (hw : ∀ f, W R.fltRestarting f) : Changes W s (t.dropRestarts d) :=
  h.foldl fun _ _ _ h => h.setFld (hw _)

theorem avsError (h : Changes W s t) {r n : Nat} (hs : ∀ f, W R.pwrAvsStatus f) (ho : W R.pwrOp (railV r))
    (hl : W R.pwrStatus F.pwrStatus_logLost) : Changes W s (t.avsError r n) := (((h.latch (hs _)).count (hs _)).pwrRecord hl).setFld ho

theorem wakeAll (h : Changes W s t) (hw : ∀ d < 30, ∀ e ∈ requestFields d, W e.1 e.2) : Changes W s t.wakeAll :=
  h.frame.foldl fun _ d hd h =>
    have h := h.pwrRequest (hw d (List.mem_range.1 hd))
    .ite (fun _ => h.startEnded) fun _ => h

end Changes

/-! ## The addresses of PWR -/

@[simp] theorem pwrDom_ne_pwrStatus (d : Nat) : R.pwrDom d ≠ R.pwrStatus := by simp only [R.pwrDom, R.pwrStatus]; omega

@[simp] theorem pwrDom_ne_pwrOp (d : Nat) : R.pwrDom d ≠ R.pwrOp := by simp only [R.pwrDom, R.pwrOp]; omega

@[simp] theorem pwrDom_ne_pwrAvsStatus (d : Nat) : R.pwrDom d ≠ R.pwrAvsStatus := by simp only [R.pwrDom, R.pwrAvsStatus]; omega

@[simp] theorem pwrStatus_ne_pwrDom (d : Nat) : R.pwrStatus ≠ R.pwrDom d := (pwrDom_ne_pwrStatus d).symm

@[simp] theorem pwrOp_ne_pwrDom (d : Nat) : R.pwrOp ≠ R.pwrDom d := (pwrDom_ne_pwrOp d).symm

@[simp] theorem pwrAvsStatus_ne_pwrDom (d : Nat) : R.pwrAvsStatus ≠ R.pwrDom d := (pwrDom_ne_pwrAvsStatus d).symm

theorem unitOf_pwrDom (d : Fin 30) : unitOf (R.pwrDom d) = 2 := by simp only [unitOf, R.pwrDom]; omega

/-! ## What a record, a request and the end of a transition leave -/

variable (s : State) (d : Nat)

theorem domChg_pwrNote : (s.pwrNote d).bit R.pwrStatus F.pwrStatus_domChg = true := by
  have h : Changes (fieldsOf [(R.pwrStatus, F.pwrStatus_logLost)]) (s.latch R.pwrStatus F.pwrStatus_domChg) (s.pwrNote d) :=
    Changes.refl.pwrRecord (.head _)
  rw [h.bit (by simp [fieldsOf])]
  exact bit_latch_same s _ _ rfl (by decide)

theorem domChg_pwrRefuse (v : Nat) : (s.pwrRefuse d v).bit R.pwrStatus F.pwrStatus_domChg = true := domChg_pwrNote _ d

/-- A request never clears DOM_CHG. -/
theorem domChg_pwrBegin (g v : Nat) (h : s.bit R.pwrStatus F.pwrStatus_domChg = true) :
    (s.pwrBegin g v d).bit R.pwrStatus F.pwrStatus_domChg = true := by
  unfold State.pwrBegin
  split
  · exact domChg_pwrNote s d
  · split
    · exact domChg_pwrRefuse s d _
    · dsimp only
      split
      · exact domChg_pwrRefuse s d _
      · have hkept : Changes (fieldsOf [(R.pwrDom d, F.pwrDom_target), (R.pwrDom d, F.pwrDom_phase)]) s
            ((s.setFld (R.pwrDom d) F.pwrDom_target (targetState g)).setPhase d (if g = 1 then 3 else 1)) :=
          (Changes.refl.setFld (.head _)).setPhase (.tail _ (.head _))
        exact (hkept.bit (by simp [fieldsOf])).trans h

theorem domPhase_setPhase (v : Nat) : (s.setPhase d v).domPhase d = v % 8 := fld_setFld_same _ _ _ _ (by decide) (by decide)

theorem domPhase_startEnded (e : Nat) : (s.startEnded d).domPhase e = s.domPhase e :=
  (Changes.startEnded (W := fieldsOf []) .refl).fld (by simp [fieldsOf])

/-- The transition of a domain has ended: its phase is 0. -/
def State.transitionEnded (s : State) (d : Nat) : State := (s.setPhase d 0).startEnded d

theorem changes_transitionEnded : Changes (fieldsOf [(R.pwrDom d, F.pwrDom_phase)]) s (s.transitionEnded d) :=
  (Changes.refl.setPhase (.head _)).startEnded

theorem pending_transitionEnded : (s.transitionEnded d).fld (R.pwrDom d) F.pwrDom_pending = s.fld (R.pwrDom d) F.pwrDom_pending :=
  (changes_transitionEnded s d).fld (by simp [fieldsOf])

/-- With no request pending nothing follows the end of a transition. -/
theorem pwrSettle_idle (h : s.fld (R.pwrDom d) F.pwrDom_pending = 0) : s.pwrSettle d = s.transitionEnded d :=
  if_pos ((pending_transitionEnded s d).trans h)

/-- A request that is pending becomes current at the end of a transition (R531). -/
theorem pwrSettle_pending (h : s.fld (R.pwrDom d) F.pwrDom_pending ≠ 0) : ∃ g v, s.pwrSettle d =
    (((s.transitionEnded d).setFld (R.pwrDom d) F.pwrDom_pending 0).setFld (R.pwrDom d) F.pwrDom_reEnPending 0).pwrBegin g v d :=
  ⟨_, _, if_neg (mt (pending_transitionEnded s d).symm.trans h)⟩

theorem domPhase_pwrSettle_idle (h : s.fld (R.pwrDom d) F.pwrDom_pending = 0) : (s.pwrSettle d).domPhase d = 0 := by
  rw [pwrSettle_idle s d h, State.transitionEnded, domPhase_startEnded, domPhase_setPhase]

/-- After the end of a transition no request is pending. -/
theorem pending_pwrSettle : (s.pwrSettle d).fld (R.pwrDom d) F.pwrDom_pending = 0 := by
  by_cases h : s.fld (R.pwrDom d) F.pwrDom_pending = 0
  · rw [pwrSettle_idle s d h, pending_transitionEnded, h]
  · obtain ⟨g, v, e⟩ := pwrSettle_pending s d h
    have hkept : ∀ t : State, Changes (fieldsOf ((R.pwrDom d, F.pwrDom_reEnPending) :: beginFields d)) t
        ((t.setFld (R.pwrDom d) F.pwrDom_reEnPending 0).pwrBegin g v d) := fun t =>
      (Changes.refl.setFld (.head _)).pwrBegin fun _ he => .tail _ he
    rw [e, (hkept _).fld (by simp [fieldsOf, beginFields, noteFields])]
    exact fld_setFld_same _ _ _ _ (by decide) (by decide)

theorem domChg_pwrSettle (h : s.bit R.pwrStatus F.pwrStatus_domChg = true) :
    (s.pwrSettle d).bit R.pwrStatus F.pwrStatus_domChg = true := by
  have hended := (changes_transitionEnded s d).bit (a := R.pwrStatus) (f := F.pwrStatus_domChg) (by simp [fieldsOf])
  by_cases hp : s.fld (R.pwrDom d) F.pwrDom_pending = 0
  · rw [pwrSettle_idle s d hp, hended, h]
  · obtain ⟨g, v, e⟩ := pwrSettle_pending s d hp
    rw [e]
    refine domChg_pwrBegin _ d g v ?_
    rw [bit_setFld_other _ _ _ _ (by simp), bit_setFld_other _ _ _ _ (by simp), hended, h]

/-- The end of a transition: DOM_CHG is latched, the request that was pending becomes current. -/
def State.concluded (s : State) (d : Nat) : State := ((s.setPhase d 0).pwrNote d).pwrSettle d

theorem changes_concluded : Changes (fieldsOf (requestFields d)) s (s.concluded d) :=
  ((Changes.refl.setPhase (by simp [requestFields, beginFields])).pwrNote
    fun e he => by simp [requestFields, beginFields, he]).pwrSettle fun _ he => he

theorem domChg_concluded : (s.concluded d).bit R.pwrStatus F.pwrStatus_domChg = true := domChg_pwrSettle _ d (domChg_pwrNote _ d)

theorem pending_concluded : (s.concluded d).fld (R.pwrDom d) F.pwrDom_pending = 0 := pending_pwrSettle _ d

theorem domPhase_concluded_idle (h : s.fld (R.pwrDom d) F.pwrDom_pending = 0) : (s.concluded d).domPhase d = 0 := by
  have hkept : Changes (fieldsOf ((R.pwrDom d, F.pwrDom_phase) :: noteFields)) s ((s.setPhase d 0).pwrNote d) :=
    (Changes.refl.setPhase (.head _)).pwrNote fun _ he => .tail _ he
  exact domPhase_pwrSettle_idle _ d ((hkept.fld (by simp [fieldsOf, noteFields])).trans h)

theorem domState_concluded : (s.concluded d).domState d = s.domState d :=
  (changes_concluded s d).fld (by simp [fieldsOf, requestFields, beginFields, noteFields])

end Sys2Proof.Machine
end

section
/-!
SUPPORT. A domain that goes down or wakes (R524, R525, R528, R533): the registers it loses, and what START, which a wake may release
(R163), leaves of the registers of PWR.
-/

namespace Sys2Proof.Machine

/-! ## The registers that a domain loses -/

theorem find_keep {α : Type} (p : Nat → Bool) (t : Tbl α) (k : Nat) : Tbl.find (Tbl.keep p t) k = if p k then Tbl.find t k else none := by
  induction t with
  | nil => simp [Tbl.keep, Tbl.find]
  | cons e t ih =>
    obtain ⟨k', v⟩ := e
    simp only [Tbl.keep, Tbl.find]
    by_cases hk : k = k'
    · subst hk
      by_cases hp : p k <;> simp [hp, Tbl.find, ih]
    · by_cases hp : p k' <;> simp [hp, hk, Tbl.find, ih]

theorem get_keep {α : Type} (d : Nat → α) (p : Nat → Bool) (t : Tbl α) (k : Nat) :
    Tbl.get d (Tbl.keep p t) k = if p k then Tbl.get d t k else d k := by
  rw [Tbl.get, find_keep]
  split <;> rfl

theorem reg_clearUnits (s : State) (p : Nat → Bool) (a : Nat) : (s.clearUnits p).reg a = if p (unitOf a) then regReset a else s.reg a := by
  rw [State.reg, State.clearUnits, get_keep]
  cases p (unitOf a) <;> rfl

/-- Two states with the same register table show the same registers. -/
theorem reg_of_regs {s t : State} (h : t.regs = s.regs) (a : Nat) : t.reg a = s.reg a := by rw [State.reg, State.reg, h]

theorem clearCluster_regs (s : State) (k : Nat) : (s.clearCluster k).regs = s.regs := by
  dsimp only [State.clearCluster, State.clearSpace]
  rw [foldl_keep State.regs]
  intro s c
  rfl

theorem clearPipes_regs (s : State) (d : Dir) : (s.clearPipes d).regs = s.regs := by
  rw [State.clearPipes, foldl_keep State.regs]
  intro s n
  rfl

/-- What the units keep outside their registers is no register. -/
theorem clearInside_regs (s : State) (d : Nat) : (s.clearInside d).regs = s.regs := by
  unfold State.clearInside
  split
  · rfl
  · exact clearCluster_regs s 0
  · exact clearCluster_regs s 1
  · rfl
  · rfl
  · rfl
  · rfl
  · rfl
  · exact clearPipes_regs _ .dn
  · exact clearPipes_regs _ .up
  · rfl
  · rfl
  · split
    · exact foldl_keep State.regs (fun s i => s.setLane (4 * (d - 11) + i) {}) (fun _ _ => rfl) _ s
    · split
      · exact foldl_keep State.regs (fun s i => (s.setPort (8 * (d - 17) + i) {}).ptpDisable (8 * (d - 17) + i)) (fun _ _ => rfl) _ s
      · rfl

namespace Changes

variable {W : Nat → Fld → Prop} {s t : State}

theorem setCode (h : Changes W s t) {c : Nat} (hw : ∀ a f, unitOf a = 5 → W a f) : Changes W s (t.setCode c) :=
  .ite (fun _ => h) fun _ => (h.setFld (hw _ _ (by decide))).frame

theorem switchTiming (h : Changes W s t) {p : Nat} (hw : ∀ a f, unitOf a = 5 → W a f) : Changes W s (t.switchTiming p) :=
  (((h.setFld (hw _ _ (by decide))).setFld (hw _ _ (by decide))).setBit (hw _ _ (by decide))).count (hw _ _ (by decide))

/-- The timing plane is chosen in the registers of TIME. -/
theorem retime (h : Changes W s t) {b : Bool} (hw : ∀ a f, unitOf a = 5 → W a f) : Changes W s (t.retime b) := by
  refine .ite (fun _ => h) fun _ => ?_
  dsimp only
  split
  case h_1 p _ =>
    refine Changes.setBit (Changes.frame (.ite (fun _ => Changes.setCode ?_ hw) fun _ => ?_)) (hw _ _ (by decide))
    all_goals exact (Changes.ite (fun _ => h) fun _ => h.switchTiming hw).setBit (hw _ _ (by decide))
  case h_2 =>
    have h1 := (h.setBit (b := true) (hw R.timeRefStatus F.timeRefStatus_none (by decide))).setBit (b := true)
      (hw R.timeStatus F.timeStatus_flywheel (by decide))
    exact Changes.setBit (.ite (fun _ => h1.setCode hw) fun _ => h1) (hw _ _ (by decide))

/-- TXPLL_LOCK is shown in CLK.PLL_STATUS and in the plane units. -/
theorem showTxLock (h : Changes W s t) (hc : W R.clkPllStatus ⟨1, 1⟩) (hm : ∀ p, W (R.medLaneStatus p) F.medLaneStatus_txpllLock) :
    Changes W s t.showTxLock := (h.setFld hc).foldl fun _ _ _ h => h.setBit (hm _)

end Changes

/-- The registers of a domain that is OFF, before the timing plane is chosen again and TXPLL_LOCK is shown. -/
theorem reg_cleared (s : State) (d a : Nat) : ((s.clearUnits fun u => domainOf u == some d).clearInside d).reg a =
    if domainOf (unitOf a) = some d then regReset a else s.reg a := by
  rw [reg_of_regs (clearInside_regs _ d), reg_clearUnits]
  simp only [beq_iff_eq]

/-- Besides its own registers a domain's fall touches at most those of TIME, CLK and the plane units. -/
theorem reg_clearDomain (s : State) (d : Nat) {a : Nat} (h5 : unitOf a ≠ 5)
    (hm : (d < 11 ∨ 16 < d) ∨ (unitOf a ≠ 3 ∧ ¬(0x10 ≤ unitOf a))) :
    (s.clearDomain d).reg a = if domainOf (unitOf a) = some d then regReset a else s.reg a := by
  rw [← reg_cleared]
  unfold State.clearDomain
  split
  · have hc : ∀ t : State, Changes (fun a _ => unitOf a = 5) t (t.retime false) := fun t => Changes.refl.retime fun _ _ h => h
    exact (hc _).reg fun _ => h5
  · dsimp only
    split
    · have hc : ∀ t : State, Changes (fun a _ => unitOf a = 3 ∨ 0x10 ≤ unitOf a) t t.showTxLock := fun t =>
        Changes.refl.showTxLock (.inl (by decide)) fun p => .inr (by simp only [unitOf, R.medLaneStatus]; omega)
      exact (hc _).reg fun _ => by omega
    · rfl

theorem reg_clearDomain_pwr (s : State) (d : Nat) {a : Nat} (h : unitOf a = 2) : (s.clearDomain d).reg a = s.reg a := by
  rw [reg_clearDomain s d (by omega) (.inr (by omega)), h, if_neg (by simp [domainOf])]

end Sys2Proof.Machine
end

section
/-!
SUPPORT. DOMAIN_DOWN (R528): what a domain going down keeps and loses.
-/

namespace Sys2Proof.Machine

variable (s : State) (d : Fin 30)

/-- The switch of a domain opens: its target state is taken, its restarts are abandoned. -/
def State.switched (s : State) (d : Nat) : State :=
  ((s.setFld (R.pwrDom d) F.pwrDom_state (s.fld (R.pwrDom d) F.pwrDom_target)).dropRestarts d).wentDark d

/-- The rails and clocks follow where a cluster's domain changes. -/
def State.clusterFollows (s : State) (d : Nat) (b : Bool) : State := if d = 1 ∨ d = 2 then s.followPoints b else s

/-- A domain that went down has lost what it does not keep, and the rails follow. -/
def State.wentDown (s : State) (d : Nat) : State :=
  (if (s.switched d).domState d = 0 then (s.switched d).clearDomain d else s.switched d).clusterFollows d false

theorem domainDown_eq (h : s.domPhase d = 2) : s.domainDown d = (s.wentDown d).concluded d := if_neg (not_not.2 h)

theorem domainDown_other (h : s.domPhase d ≠ 2) : s.domainDown d = s := if_pos h

theorem pwrDom_ne_fltRestarting : R.pwrDom d ≠ R.fltRestarting := by simp only [R.pwrDom, R.fltRestarting]; omega

theorem changes_switched :
    Changes (fun a f => (a, f) = (R.pwrDom d, F.pwrDom_state) ∨ a = R.fltRestarting) s (s.switched d) :=
  ((Changes.refl.setFld (.inl rfl)).dropRestarts fun _ => .inr rfl).wentDark

theorem domState_switched : (s.switched d).domState d = s.fld (R.pwrDom d) F.pwrDom_target := by
  have hkept : ∀ t : State, Changes (fun a _ => a = R.fltRestarting) t ((t.dropRestarts d).wentDark d) := fun t =>
    (Changes.refl.dropRestarts fun _ => rfl).wentDark
  rw [State.domState, State.switched, (hkept _).fld fun g hg => absurd hg (pwrDom_ne_fltRestarting d),
    fld_setFld_same _ _ _ _ (by decide) (by decide)]
  exact Nat.mod_eq_of_lt (bitsOf_lt (s.reg (R.pwrDom d)).toNat 3 2)

theorem changes_clusterFollows (d : Nat) (b : Bool) : Changes (fieldsOf followFields) s (s.clusterFollows d b) :=
  .ite (fun _ => Changes.refl.followPoints fun _ h => h) fun _ => .refl

theorem unitOf_of_mem_followFields {e : Nat × Fld} (h : e ∈ followFields) : unitOf e.1 = 2 := by
  simp only [followFields, clockFields, List.mem_cons, List.not_mem_nil, or_false] at h
  rcases h with rfl | rfl | rfl | rfl | rfl <;> decide

theorem unitOf_of_mem_requestFields {e : Nat × Fld} (h : e ∈ requestFields d) : unitOf e.1 = 2 := by
  have hreg : e.1 = R.pwrDom d ∨ e.1 = R.pwrStatus := by
    simp only [requestFields, beginFields, noteFields, List.mem_cons, List.not_mem_nil, or_false] at h
    rcases h with rfl | rfl | rfl | rfl | rfl | rfl | rfl | rfl | rfl <;> simp
  rcases hreg with hreg | hreg <;> rw [hreg]
  · exact unitOf_pwrDom d
  · rfl

/-- The end of a transition changes registers of PWR alone. -/
theorem reg_concluded {a : Nat} (h : unitOf a ≠ 2) : (s.concluded d).reg a = s.reg a :=
  (changes_concluded s d).reg fun _ hf => h (unitOf_of_mem_requestFields d hf)

theorem reg_clusterFollows (b : Bool) {a : Nat} (h : unitOf a ≠ 2) : (s.clusterFollows d b).reg a = s.reg a :=
  (changes_clusterFollows s d b).reg fun _ hf => h (unitOf_of_mem_followFields hf)

theorem fld_clusterFollows (b : Bool) (f : Fld) : (s.clusterFollows d b).fld (R.pwrDom d) f = s.fld (R.pwrDom d) f :=
  (changes_clusterFollows s d b).fld (by simp [fieldsOf, followFields, clockFields])

theorem fld_wentDown (f : Fld) : (s.wentDown d).fld (R.pwrDom d) f = (s.switched d).fld (R.pwrDom d) f := by
  rw [State.wentDown, fld_clusterFollows]
  split
  · rw [State.fld, State.fld, reg_clearDomain_pwr _ _ (unitOf_pwrDom d)]
  · rfl

theorem domState_wentDown : (s.wentDown d).domState d = s.fld (R.pwrDom d) F.pwrDom_target :=
  (fld_wentDown s d _).trans (domState_switched s d)

theorem pending_wentDown : (s.wentDown d).fld (R.pwrDom d) F.pwrDom_pending = s.fld (R.pwrDom d) F.pwrDom_pending :=
  (fld_wentDown s d _).trans <| (changes_switched s d).fld fun g hg => by
    rcases hg with hg | hg
    · cases hg; decide
    · exact absurd hg (pwrDom_ne_fltRestarting d)

/-- A domain in RETENTION keeps every register of its units. -/
theorem changes_wentDown_retention (h : s.fld (R.pwrDom d) F.pwrDom_target ≠ 0) :
    Changes (fun a _ => unitOf a ∈ [2, 4]) s (s.wentDown d) := by
  rw [State.wentDown, if_neg (by rwa [domState_switched])]
  refine ((changes_switched s d).mono ?_).trans ((changes_clusterFollows _ d _).mono ?_)
  · rintro a f (hf | rfl)
    · cases hf
      simp [unitOf_pwrDom]
    · decide
  · intro a f hf
    simp [unitOf_of_mem_followFields hf]

/-- A domain that ends OFF keeps no register. -/
theorem reg_wentDown_off (h : s.fld (R.pwrDom d) F.pwrDom_target = 0) (hd : d.val < 11 ∨ 16 < d.val) {a : Nat} (h2 : unitOf a ≠ 2)
    (h4 : unitOf a ≠ 4) (h5 : unitOf a ≠ 5) :
    (s.wentDown d).reg a = if domainOf (unitOf a) = some d.val then regReset a else s.reg a := by
  rw [State.wentDown, if_pos (by rwa [domState_switched]), reg_clusterFollows _ _ _ h2, reg_clearDomain _ _ h5 (.inl hd)]
  congr 1
  refine (changes_switched s d).reg ?_
  rintro f (hf | rfl)
  · cases hf
    exact h2 (unitOf_pwrDom d)
  · exact h4 (by decide)

/-- A register of a switched domain is none of PWR, FLT or TIME. -/
theorem unitOf_of_domain {u d : Nat} (h : domainOf u = some d) : u ≠ 2 ∧ u ≠ 4 ∧ u ≠ 5 := by
  refine ⟨?_, ?_, ?_⟩ <;> rintro rfl <;> simp [domainOf] at h

theorem exec_domainDown : exec (.domainDown d) s = .next (s.domainDown d) := rfl

/-- DOMAIN_DOWN of a domain that does not go down. -/
theorem domainDown_elsewhere (h : s.domPhase d ≠ 2) : exec (.domainDown d) s = .next s := by
  rw [exec_domainDown, domainDown_other s d h]

/-- DOMAIN_DOWN ends the transition in the target state, whatever is pending. -/
theorem domainDown_takes (h : s.domPhase d = 2) : ∃ t : State, exec (.domainDown d) s = .next t ∧
    t.domState d = s.fld (R.pwrDom d) F.pwrDom_target ∧ t.bit R.pwrStatus F.pwrStatus_domChg = true ∧
    t.fld (R.pwrDom d) F.pwrDom_pending = 0 := by
  refine ⟨_, rfl, ?_⟩
  rw [domainDown_eq s d h]
  exact ⟨(domState_concluded _ d).trans (domState_wentDown s d), domChg_concluded _ d, pending_concluded _ d⟩

/-- DOMAIN_DOWN with no request pending: a domain in RETENTION keeps every register, one that is OFF none. -/
theorem domainDown_idle (h : s.domPhase d = 2) (hp : s.fld (R.pwrDom d) F.pwrDom_pending = 0) : ∃ t : State,
    exec (.domainDown d) s = .next t ∧ t.domState d = s.fld (R.pwrDom d) F.pwrDom_target ∧ t.domPhase d = 0 ∧
    t.bit R.pwrStatus F.pwrStatus_domChg = true ∧ (s.fld (R.pwrDom d) F.pwrDom_target ≠ 0 → memKept s t ∧ unitsKept s t [2, 4]) ∧
    (s.fld (R.pwrDom d) F.pwrDom_target = 0 → (d.val < 11 ∨ 16 < d.val) →
      (∀ a, domainOf (unitOf a) = some d.val → t.reg a = regReset a) ∧
      (∀ a, domainOf (unitOf a) ≠ some d.val → unitOf a ≠ 2 → unitOf a ≠ 4 → unitOf a ≠ 5 → t.reg a = s.reg a)) := by
  refine ⟨_, rfl, ?_⟩
  rw [domainDown_eq s d h]
  refine ⟨(domState_concluded _ d).trans (domState_wentDown s d), domPhase_concluded_idle _ d ((pending_wentDown s d).trans hp),
    domChg_concluded _ d, fun ht => ?_, fun ht hd => ⟨fun a ha => ?_, fun a ha h2 h4 h5 => ?_⟩⟩
  · have hc := (changes_wentDown_retention s d ht).trans ((changes_concluded _ d).mono fun a f hf => by
      simp [unitOf_of_mem_requestFields d hf])
    exact ⟨hc.memKept, hc.unitsKept⟩
  · obtain ⟨h2, h4, h5⟩ := unitOf_of_domain ha
    rw [reg_concluded _ _ h2, reg_wentDown_off s d ht hd h2 h4 h5, if_pos ha]
  · rw [reg_concluded _ _ h2, reg_wentDown_off s d ht hd h2 h4 h5, if_neg ha]

end Sys2Proof.Machine
end

section
/-!
SUPPORT. A wake may release a START that waits for its tables (R163), and START moves every plane: lanes are enabled, bursts cut, frames
drained. All of it happens outside PWR. `KeepsPwr s t` says so, with one lemma for each operation on the way, in the model's order.
-/

namespace Sys2Proof.Machine

/-! ## The registers on the way: none is of PWR -/

theorem unitOf_medLaneCfg (i : Nat) : unitOf (R.medLaneCfg i) ≠ 2 := by simp only [unitOf, R.medLaneCfg]; omega
@[simp] theorem unitOf_medLaneStatus (i : Nat) : unitOf (R.medLaneStatus i) ≠ 2 := by simp only [unitOf, R.medLaneStatus]; omega
@[simp] theorem unitOf_dfpMsgDisc (i : Nat) : unitOf (R.dfpMsgDisc i) ≠ 2 := by simp only [unitOf, R.dfpMsgDisc]; omega
@[simp] theorem unitOf_dfpMsgRx (i : Nat) : unitOf (R.dfpMsgRx i) ≠ 2 := by simp only [unitOf, R.dfpMsgRx]; omega
@[simp] theorem unitOf_dfpMsgUnknown (i : Nat) : unitOf (R.dfpMsgUnknown i) ≠ 2 := by simp only [unitOf, R.dfpMsgUnknown]; omega
@[simp] theorem unitOf_dfpDispCount (i : Nat) : unitOf (R.dfpDispCount i) ≠ 2 := by simp only [unitOf, R.dfpDispCount]; omega
@[simp] theorem unitOf_dfpGrantsAcc (i : Nat) : unitOf (R.dfpGrantsAcc i) ≠ 2 := by simp only [unitOf, R.dfpGrantsAcc]; omega
@[simp] theorem unitOf_dfpGrantsDisc (i : Nat) : unitOf (R.dfpGrantsDisc i) ≠ 2 := by simp only [unitOf, R.dfpGrantsDisc]; omega
@[simp] theorem unitOf_dfpPlaneDefect (i : Nat) : unitOf (R.dfpPlaneDefect i) ≠ 2 := by simp only [unitOf, R.dfpPlaneDefect]; omega
@[simp] theorem unitOf_dfpPlaneStatus (i : Nat) : unitOf (R.dfpPlaneStatus i) ≠ 2 := by simp only [unitOf, R.dfpPlaneStatus]; omega
@[simp] theorem unitOf_dfpHuntBits (i : Nat) : unitOf (R.dfpHuntBits i) ≠ 2 := by simp only [unitOf, R.dfpHuntBits]; omega
@[simp] theorem unitOf_dfpParcels (i : Nat) : unitOf (R.dfpParcels i) ≠ 2 := by simp only [unitOf, R.dfpParcels]; omega
@[simp] theorem unitOf_dfpParcelBytes (i : Nat) : unitOf (R.dfpParcelBytes i) ≠ 2 := by simp only [unitOf, R.dfpParcelBytes]; omega
@[simp] theorem unitOf_ubbBdispCount (i : Nat) : unitOf (R.ubbBdispCount i) ≠ 2 := by simp only [unitOf, R.ubbBdispCount]; omega
@[simp] theorem unitOf_ubbPdispCount (i : Nat) : unitOf (R.ubbPdispCount i) ≠ 2 := by simp only [unitOf, R.ubbPdispCount]; omega
@[simp] theorem unitOf_qmDropCount (i : Nat) : unitOf (R.qmDropCount i) ≠ 2 := by simp only [unitOf, R.qmDropCount]; omega
@[simp] theorem unitOf_circCount (i : Nat) : unitOf (R.circCount i) ≠ 2 := by simp only [unitOf, R.circCount]; omega
@[simp] theorem unitOf_lschCount (i : Nat) : unitOf (R.lschCount i) ≠ 2 := by simp only [unitOf, R.lschCount]; omega
@[simp] theorem unitOf_dmaChRingIdx (i : Nat) : unitOf (R.dmaChRingIdx i) ≠ 2 := by simp only [unitOf, R.dmaChRingIdx]; omega
@[simp] theorem unitOf_pipePkts (p i : Nat) : unitOf (R.pipePkts p i) ≠ 2 := by simp only [unitOf, R.pipePkts]; omega
@[simp] theorem unitOf_pipeDrop (p i : Nat) : unitOf (R.pipeDrop p i) ≠ 2 := by simp only [unitOf, R.pipeDrop]; omega
@[simp] theorem unitOf_fltStatus : unitOf R.fltStatus ≠ 2 := by decide
@[simp] theorem unitOf_sysTermState : unitOf R.sysTermState ≠ 2 := by decide
@[simp] theorem unitOf_sysPlaneState0 : unitOf R.sysPlaneState0 ≠ 2 := by decide
@[simp] theorem unitOf_sysPlaneState1 : unitOf R.sysPlaneState1 ≠ 2 := by decide

/-! ## What leaves PWR alone -/

/-- Every register of PWR reads in `t` as in `s`. -/
def KeepsPwr (s t : State) : Prop := ∀ a, unitOf a = 2 → t.reg a = s.reg a

namespace KeepsPwr

variable {s t u : State}

@[refl] theorem refl : KeepsPwr s s := fun _ _ => rfl

theorem of_changes {W : Nat → Fld → Prop} (h : KeepsPwr s t) (hc : Changes W t u) (hw : ∀ a f, W a f → unitOf a ≠ 2) : KeepsPwr s u :=
  fun a ha => (hc.reg fun f hf => hw a f hf ha).trans (h a ha)

/-! ### Rules -/

theorem setReg (h : KeepsPwr s t) {a : Nat} {w : Word} (ha : unitOf a ≠ 2) : KeepsPwr s (t.setReg a w) := fun b hb => by
  rw [reg_setReg_other _ _ (by rintro rfl; exact ha hb), h b hb]

theorem setFld (h : KeepsPwr s t) {a : Nat} {f : Fld} {v : Nat} (ha : unitOf a ≠ 2) : KeepsPwr s (t.setFld a f v) := h.setReg ha

theorem frame {p f e w md df ub wd en ti cl qm ci cr cp fl ls ho tw pr pw mo ta} (h : KeepsPwr s t) :
    KeepsPwr s ⟨p, t.regs, t.mem, f, e, w, md, df, ub, wd, en, ti, cl, qm, ci, cr, cp, fl, ls, ho, tw, pr, pw, mo, ta⟩ := h

theorem ite {c : Prop} [Decidable c] (h : KeepsPwr s t) (h' : KeepsPwr s u) : KeepsPwr s (if c then t else u) := by
  split
  · exact h
  · exact h'

theorem foldl {α} {f : State → α → State} {l : List α} (h : KeepsPwr s t) (hf : ∀ t x, KeepsPwr s t → KeepsPwr s (f t x)) :
    KeepsPwr s (l.foldl f t) :=
  List.foldlRecOn (motive := KeepsPwr s) l f h fun t ht x _ => hf t x ht

theorem latch (h : KeepsPwr s t) {a : Nat} {f : Fld} (ha : unitOf a ≠ 2) : KeepsPwr s (t.latch a f) := .ite h (h.setFld ha).frame

theorem pmcEvent (h : KeepsPwr s t) {v code n : Nat} (hv : v ≠ 2) : KeepsPwr s (t.pmcEvent v code n) :=
  h.of_changes (W := fun a _ => unitOf a ≠ 2) (Changes.refl.pmcEvent (fun i hi => by simp only [unitOf, R.pmcCnt]; omega)
    fun i hi => by simp only [unitOf, R.pmcCtl]; omega) fun _ _ h => h

/-! ### Packets, records and tokens -/

theorem setPlaneState (h : KeepsPwr s t) {p v : Nat} : KeepsPwr s (t.setPlaneState p v) := .ite (h.setFld (by simp)) (h.setFld (by simp))

theorem token (h : KeepsPwr s t) {node : Nat} {v : Word} : KeepsPwr s (t.token node v).1 := by
  simp only [State.token, apply_ite Prod.fst]
  exact .ite h (.ite h (.ite h.frame h.frame))

theorem tokenOrDrop (h : KeepsPwr s t) {node : Nat} {v : Word} : KeepsPwr s (t.tokenOrDrop node v) := .ite h.token (h.setFld (by simp))

theorem writeRecord (h : KeepsPwr s t) {c : Nat} {r : DmaRecord} : KeepsPwr s (t.writeRecord c r) :=
  have hidx := (h.frame : KeepsPwr s (t.hostOut _)).setFld (by simp)
  .ite hidx.frame hidx

theorem flushRecords (h : KeepsPwr s t) {c fuel : Nat} : KeepsPwr s (t.flushRecords c fuel) := by
  induction fuel generalizing t with
  | zero => exact h
  | succ fuel ih =>
    unfold State.flushRecords
    split
    · exact h
    · exact .ite h (ih h.writeRecord.frame)

theorem departure (h : KeepsPwr s t) {p : Pkt} {status : Nat} {stamp : Word} : KeepsPwr s (t.departure p status stamp) :=
  .ite h (.ite (.ite h (h.frame : KeepsPwr s (t.setChan _ _)).flushRecords) (.ite h.tokenOrDrop h))

theorem report (h : KeepsPwr s t) {l : Lost} : KeepsPwr s (t.report l) := by
  unfold State.report
  split
  · exact h
  · split
    · exact KeepsPwr.latch h.frame (by decide)
    · exact KeepsPwr.setFld h.frame (by simp)

theorem qmDrop (h : KeepsPwr s t) {c : Nat} : KeepsPwr s (t.qmDrop c) :=
  ((h.setFld (by simp)).pmcEvent (by omega)).pmcEvent (by omega)

theorem releaseCells (h : KeepsPwr s t) {q : Nat} {p : QPkt} : KeepsPwr s (t.releaseCells q p) := by
  have hslow : KeepsPwr s (if t.isSlow q then t.setSlowUsed p.pkt.dir (t.slowUsed p.pkt.dir - cellsOf p.pkt.bytes.length) else t) :=
    .ite h.frame h
  unfold State.releaseCells
  dsimp only
  split
  · exact hslow.frame
  · exact hslow.frame
  · exact hslow.frame
  · exact hslow.frame

theorem refreshReads (h : KeepsPwr s t) {q : Nat} : KeepsPwr s (t.refreshReads q) := .ite h h.frame

theorem settle (h : KeepsPwr s t) {q : Nat} : KeepsPwr s (t.settle q) :=
  have hq : KeepsPwr s (if (t.queue q).joined.isEmpty then t.setNode q { t.node q with deficit := 0 } else t) := .ite h.frame h
  .ite hq.frame hq

theorem removePkt (h : KeepsPwr s t) {q id : Nat} : KeepsPwr s (t.removePkt q id) := by
  unfold State.removePkt
  split
  · exact h
  · exact (h.releaseCells.frame : KeepsPwr s (State.setQueue _ _ _)).refreshReads.pmcEvent (by omega)

/-! ### Bursts -/

theorem loseRest (h : KeepsPwr s t) {p : Pkt} : KeepsPwr s (t.loseRest p) :=
  KeepsPwr.frame (h.removePkt.settle.foldl fun _ _ h => h.frame)

theorem pdisp (h : KeepsPwr s t) {code n : Nat} : KeepsPwr s (t.pdisp code n) :=
  .ite ((h.setFld (by simp)).pmcEvent (by omega)) (h.setFld (by simp))

theorem bdisp (h : KeepsPwr s t) {code : Nat} : KeepsPwr s (t.bdisp code) := (h.setFld (by simp)).pmcEvent (by omega)

theorem losePkt (h : KeepsPwr s t) {p : Pkt} {code : Nat} : KeepsPwr s (t.losePkt p code) :=
  have hp := h.loseRest.pdisp.departure
  .ite hp.report hp

theorem circCount (h : KeepsPwr s t) {c n : Nat} : KeepsPwr s (t.circCount c n) :=
  have hc := h.setFld (by simp)
  .ite (hc.pmcEvent (by omega)) (.ite (hc.pmcEvent (by omega)) (.ite (hc.pmcEvent (by omega)) hc))

theorem loseContent (h : KeepsPwr s t) {b : Build} {code : Nat} : KeepsPwr s (t.loseContent b code) := by
  refine h.foldl fun t x h => ?_
  have hpkt : KeepsPwr s (match x.pkt with | some p => t.losePkt p code | none => t) := by
    split
    · exact h.losePkt
    · exact h
  have hcont := hpkt.circCount (c := if code = 15 then 12 else 1) (n := 1)
  dsimp only
  split <;> split
  · exact hcont.pdisp
  · exact hpkt.pdisp
  · exact hcont
  · exact hpkt

theorem driverRest (h : KeepsPwr s t) {p : Nat} : KeepsPwr s (t.driverRest p) := (h.frame : KeepsPwr s (t.setLane _ _)).setFld (by simp)

theorem stopPlane (h : KeepsPwr s t) {p : Nat} : KeepsPwr s (t.stopPlane p) :=
  (h.frame : KeepsPwr s (t.setUplane _ _)).driverRest.setFld (by simp)

theorem cutPlane (h : KeepsPwr s t) {p code : Nat} : KeepsPwr s (t.cutPlane p code) := by
  unfold State.cutPlane
  split
  · exact h
  · have hcut : KeepsPwr s (((t.stopPlane p).bdisp code).pmcEvent (0x10 + p) 2) := h.stopPlane.bdisp.pmcEvent (by omega)
    refine .ite ?_ (KeepsPwr.loseContent ?_)
    all_goals exact .ite hcut.frame hcut.frame

theorem haltPlane (h : KeepsPwr s t) {p code : Nat} : KeepsPwr s (t.haltPlane p code) := h.cutPlane.stopPlane

/-! ### Parcels, packets and messages of the medium -/

theorem disp (h : KeepsPwr s t) {code n : Nat} : KeepsPwr s (t.disp code n) :=
  .ite (((h.setFld (by simp)).pmcEvent (by omega)).pmcEvent (by omega)) ((h.setFld (by simp)).pmcEvent (by omega))

theorem noCell (h : KeepsPwr s t) {parts : List Parcel} {held : Nat} : KeepsPwr s (t.noCell parts held) := by
  have hfree : KeepsPwr s (t.freeCells .dn held) := h.frame
  unfold State.noCell
  dsimp only
  split
  · exact hfree
  · exact .ite hfree.disp.qmDrop.report hfree.disp

/-- Cells are taken outside the registers. -/
theorem takeCells_regs {d : Dir} {inject : Bool} {n : Nat} (e : t.takeCells d inject n = some u) : u.regs = t.regs := by
  simp only [State.takeCells, Option.ite_none_left_eq_some, Option.ite_none_right_eq_some, Option.some.injEq] at e
  obtain ⟨_, _, rfl⟩ := e
  rfl

theorem withCells (h : KeepsPwr s t) {parts : List Parcel} {held : Nat} {go : State → State}
    (hgo : ∀ t, KeepsPwr s t → KeepsPwr s (go t)) : KeepsPwr s (t.withCells parts held go) := by
  unfold State.withCells
  dsimp only
  split
  · exact hgo _ h.frame
  · split
    case h_1 u e =>
      exact hgo _ fun a ha => (reg_of_regs (takeCells_regs e) a).trans (h a ha)
    · exact h.noCell

theorem msgEnqueue (h : KeepsPwr s t) {m : Msg} : KeepsPwr s (t.msgEnqueue m).1 := by
  simp only [State.msgEnqueue, apply_ite Prod.fst]
  exact .ite (h.setFld (by simp)) (.ite h.frame h.frame)

theorem delivered (h : KeepsPwr s t) {plane parts n : Nat} : KeepsPwr s (t.delivered plane parts n) :=
  have hd := h.disp.pmcEvent (by omega)
  .ite hd (.ite hd.frame hd.frame)

theorem handMessage (h : KeepsPwr s t) {parts : List Parcel} {last : Parcel} : KeepsPwr s (t.handMessage parts last) :=
  .ite (.ite h.msgEnqueue.delivered h.msgEnqueue.disp) (h.disp.setFld (by simp))

theorem handPacket (h : KeepsPwr s t) {parts : List Parcel} : KeepsPwr s (t.handPacket parts) := by
  unfold State.handPacket
  split
  · exact h
  · exact .ite ((KeepsPwr.disp h.frame).setFld (by simp)) (KeepsPwr.pmcEvent (KeepsPwr.setFld h.frame (by simp)) (by omega)).delivered

theorem handOff (h : KeepsPwr s t) {parts : List Parcel} {last : Parcel} : KeepsPwr s (t.handOff parts last) :=
  .ite (KeepsPwr.handMessage h.frame) h.handPacket

theorem reasmFresh (h : KeepsPwr s t) {f own : Nat} {p : Parcel} : KeepsPwr s (t.reasmFresh f p own) := by
  unfold State.reasmFresh
  split
  · exact h.withCells fun _ h => h.handOff
  · exact h.withCells fun _ h => h.frame
  · exact KeepsPwr.disp h.frame

theorem reassemble (h : KeepsPwr s t) {p : Parcel} {own : Nat} : KeepsPwr s (t.reassemble p own) := by
  have hempty : KeepsPwr s (t.setReasm (phFlow p.hdr) {}) := h.frame
  refine .ite h.reasmFresh (.ite (KeepsPwr.reasmFresh (KeepsPwr.frame (KeepsPwr.disp h.frame))) (.ite (KeepsPwr.disp hempty.frame) ?_))
  exact hempty.withCells fun _ h => .ite h.frame h.handOff

theorem rsqDrain (h : KeepsPwr s t) {f exp : Nat} {l : List Parcel} : KeepsPwr s (t.rsqDrain f exp l) := by
  induction l generalizing t exp with
  | nil => exact h.frame
  | cons p l ih => exact .ite (ih h.reassemble) h.frame

theorem rsqRelease (h : KeepsPwr s t) {f : Nat} : KeepsPwr s (t.rsqRelease f) := by
  unfold State.rsqRelease
  dsimp only
  split
  · exact h
  · exact h.disp.rsqDrain

/-! ### Frames -/

theorem grantEntry (h : KeepsPwr s t) {p : Nat} {e : Word} : KeepsPwr s (t.grantEntry p e) :=
  have hacc := (h.frame : KeepsPwr s (t.setDplane _ _)).setFld (by simp)
  .ite h (.ite (h.setFld (by simp)) (.ite hacc.bdisp hacc.frame))

theorem grantArea (h : KeepsPwr s t) {p : Nat} : KeepsPwr s (t.grantArea p) :=
  have hdone : KeepsPwr s (t.setDplane p _) := h.frame
  .ite h (.ite ((hdone.setFld (by simp)).latch (by simp)) (hdone.foldl fun _ _ h => h.grantEntry))

theorem msgStop (h : KeepsPwr s t) {p : Nat} : KeepsPwr s (t.msgStop p) := (h.frame : KeepsPwr s (t.setDplane _ _)).setFld (by simp)

theorem routeMsg (h : KeepsPwr s t) {m : Msg} : KeepsPwr s (t.routeMsg m) := by
  have hdeliver : KeepsPwr s (t.deliver m) := h.frame
  refine .ite (.ite (h.setFld (by simp)) (hdeliver.setFld (by simp)))
    (.ite ?_ (.ite (.ite (h.msgEnqueue.setFld (by simp)) h.msgEnqueue) (h.setFld (by simp))))
  have henq := (KeepsPwr.ite (c := decide (m.body.length < (if msgType m = 0x0E then 8 else 16)) = true) h hdeliver).msgEnqueue (m := m)
  exact .ite henq (henq.setFld (by simp))

theorem messageRx (h : KeepsPwr s t) {p : Nat} : KeepsPwr s (t.messageRx p) :=
  have hover := (h.latch (a := R.dfpPlaneDefect p) (f := F.dfpPlaneDefect_msgOverrun) (by simp)).msgStop
  .ite h (.ite hover (.ite h (.ite h.msgStop (.ite hover (.ite h (.ite h.msgStop (.ite (KeepsPwr.routeMsg h.frame) h.frame)))))))

theorem passOver (h : KeepsPwr s t) {p to_ : Nat} : KeepsPwr s (t.passOver p to_) := (h.setFld (by simp)).frame

theorem beginHunt (h : KeepsPwr s t) {p from_ : Nat} : KeepsPwr s (t.beginHunt p from_) := .ite h.passOver (h.setFld (by simp)).frame

theorem parcelRead (h : KeepsPwr s t) {p : Nat} {hdr : BitVec 128} {payload : List Byte} {tag : BitVec 128} :
    KeepsPwr s (t.parcelRead p hdr payload tag) := by
  have hread := h.pmcEvent (v := 0xF0) (code := 1) (n := 1) (by decide)
  have hcount : KeepsPwr s (if phType hdr = 0 then t.pmcEvent 0xF0 1 else
      ((t.pmcEvent 0xF0 1).count (R.dfpParcels p) F.dfpParcels_count).count (R.dfpParcelBytes p) F.dfpParcelBytes_count (phLength hdr)) :=
    .ite hread ((hread.setFld (by simp)).setFld (by simp))
  exact .ite hcount.disp.frame (.ite (KeepsPwr.disp hcount.frame) (.ite (KeepsPwr.disp hcount.frame) (.ite (KeepsPwr.disp hcount.frame)
    (.ite (KeepsPwr.disp hcount.frame) hcount.frame))))

theorem parcelRx (h : KeepsPwr s t) {p : Nat} : KeepsPwr s (t.parcelRx p) :=
  .ite h (.ite h.frame (.ite
    (.ite h.passOver (.ite (.ite h h.parcelRead) (.ite h (.ite h.parcelRead h.passOver))))
    (.ite h.beginHunt (.ite h.disp.beginHunt (.ite h h.parcelRead)))))

theorem drainParcels (h : KeepsPwr s t) {p fuel : Nat} : KeepsPwr s (t.drainParcels p fuel) := by
  induction fuel generalizing t with
  | zero => exact h
  | succ fuel ih => exact .ite h (ih h.parcelRx)

theorem drainFrame (h : KeepsPwr s t) {p : Nat} : KeepsPwr s (t.drainFrame p) :=
  KeepsPwr.frame (KeepsPwr.drainParcels (h.grantArea.foldl fun _ _ h => h.messageRx))

/-! ### Lanes -/

theorem setRate (h : KeepsPwr s t) {p rate : Nat} : KeepsPwr s (t.setRate p rate) := .ite h (h.setFld (by simp)).frame

theorem huntRestart (h : KeepsPwr s t) {p : Nat} : KeepsPwr s (t.huntRestart p) :=
  have hunt := (h.setRate.frame : KeepsPwr s (State.setLane _ _ _)).setFld (by simp)
  .ite hunt.haltPlane hunt

theorem retime (h : KeepsPwr s t) {b : Bool} : KeepsPwr s (t.retime b) :=
  h.of_changes (W := fun a _ => unitOf a = 5) (Changes.refl.retime fun _ _ h => h) fun _ _ h => by omega

theorem toSearch (h : KeepsPwr s t) {p : Nat} : KeepsPwr s (t.toSearch p) := by
  have hflush : ∀ u, KeepsPwr s u → KeepsPwr s (if u.bit R.dfpCfg F.dfpCfg_flushOnLof then u.rsqFlush else u) := fun u hu =>
    .ite (hu.foldl fun _ _ h => h.rsqRelease) hu
  have hlost : ∀ {a b c : Nat} {f g k : Fld} {v w y : Nat}, unitOf a ≠ 2 → unitOf b ≠ 2 → unitOf c ≠ 2 →
      KeepsPwr s (((t.setFld a f v).setFld b g w).setFld c k y) := fun ha hb hc => ((h.setFld ha).setFld hb).setFld hc
  exact .ite (KeepsPwr.retime (KeepsPwr.huntRestart (hflush _ (KeepsPwr.latch
      (KeepsPwr.frame (KeepsPwr.frame (hlost (by simp) (by simp) (by simp)))) (by simp)))))
    (.ite (KeepsPwr.frame (h.setFld (by simp)).setRate) (h.setFld (by simp)))

theorem abandonFrame (h : KeepsPwr s t) {p : Nat} : KeepsPwr s (t.abandonFrame p) := (KeepsPwr.drainFrame h.frame).toSearch

theorem laneUp (h : KeepsPwr s t) {p : Nat} : KeepsPwr s (t.laneUp p) :=
  have hup := ((h.setFld (unitOf_medLaneCfg p)).huntRestart.frame : KeepsPwr s (State.setLane _ _ _)).setFld (by simp)
  .ite hup.setPlaneState hup

theorem modeChanged (h : KeepsPwr s t) {p : Nat} : KeepsPwr s (t.modeChanged p) :=
  .ite (.ite (h.setFld (by simp)) h.abandonFrame.huntRestart) (.ite (h.setFld (by simp)) (h.setFld (by simp)).setRate.abandonFrame)

theorem setMode (h : KeepsPwr s t) {p m : Nat} : KeepsPwr s (t.setMode p m) :=
  .ite (h.setFld (unitOf_medLaneCfg p)).modeChanged (h.setFld (unitOf_medLaneCfg p))

/-- LANE_EN to 1. -/
theorem laneEnable_true (h : KeepsPwr s t) {p : Nat} : KeepsPwr s (t.laneEnable p true) := .ite h h.laneUp

/-- START moves lanes, planes and the terminal's state; PWR it leaves alone. -/
theorem startTerm (h : KeepsPwr s t) : KeepsPwr s t.startTerm := by
  have haccept : KeepsPwr s ({ t with enrol := { t.enrol with startWaiting := false } }.setReg (R.dfpMsgAccept 0)
      (t.reg (R.dfpMsgAccept 0) ||| BitVec.ofNat 64 acceptMask)) := KeepsPwr.setReg h.frame (by decide)
  have hflow : KeepsPwr s (State.writeFlowZero _) := haccept.frame
  refine KeepsPwr.frame (KeepsPwr.setFld (KeepsPwr.setFld (KeepsPwr.foldl (hflow.setFld (by simp)) ?_) (by simp)) (by simp))
  exact fun _ _ h => .ite h.setMode.laneEnable_true h

theorem startIfReady (h : KeepsPwr s t) : KeepsPwr s t.startIfReady := .ite h.startTerm h

end KeepsPwr
end Sys2Proof.Machine
end

section
/-!
SUPPORT. DOMAIN_ON (R524, R525, R533, R581), the release of the clamp (R508) and START_DONE (R545).
-/

namespace Sys2Proof.Machine

variable (s : State) (d : Fin 30)

/-! ## A domain that wakes -/

/-- The domain shows ON, and the sequencer is free again. -/
def State.shownOn (s : State) (d : Nat) : State :=
  ((s.setFld R.pwrStatus F.pwrStatus_waking 31).setBit R.pwrStatus F.pwrStatus_seqBusy false).setFld (R.pwrDom d) F.pwrDom_state 2

/-- The ready bits of a domain are set. -/
def State.readyAll (s : State) (d : Nat) : State := readyBits.foldl (fun s e => if e.1 = d then s.setBit e.2.1 e.2.2 true else s) s

/-- A domain that was OFF stands at its reset values; one that was in RETENTION is ready at once. -/
def State.restored (s : State) (d : Nat) : State :=
  if s.domState d = 0 then (s.shownOn d).clearDomain d else ((s.shownOn d).readyAll d).startIfReady

/-- A cluster that wakes runs at a safe point, and the rails follow. -/
def State.clusterWakes (s : State) (d : Nat) : State := if d = 1 ∨ d = 2 then (s.slowCluster (d - 1)).followPoints true else s

/-- A domain that is ON again, before its transition's end is noted. -/
def State.woken (s : State) (d : Nat) : State :=
  (if s.domState d = 0 ∧ d = 2 ∧ (s.restored d).domOn 1 then
    { s.restored d with lsch := { (s.restored d).lsch with reload := (s.restored d).lsch.reload ++ [1] } } else s.restored d).clusterWakes d

theorem domainOnNow_eq (h : s.domPhase d = 4) : s.domainOnNow d = ((s.woken d).clamp d true).concluded d := if_neg (not_not.2 h)

theorem domainOnNow_other (h : s.domPhase d ≠ 4) : s.domainOnNow d = s := if_pos h

theorem changes_clusterWakes (d : Nat) : Changes (fieldsOf followFields) s (s.clusterWakes d) :=
  .ite (fun _ => (Changes.refl.slowCluster fun _ h => .tail _ h).followPoints fun _ h => h) fun _ => .refl

theorem changes_woken (d : Nat) : Changes (fieldsOf followFields) (s.restored d) (s.woken d) := by
  have hc : ∀ t, Changes (fieldsOf []) (s.restored d) t → Changes (fieldsOf followFields) (s.restored d) (t.clusterWakes d) := fun t ht =>
    (ht.mono fun _ _ h => by simp [fieldsOf] at h).trans (changes_clusterWakes t d)
  exact hc _ (.ite (fun _ => Changes.refl.frame) fun _ => .refl)

theorem reg_woken {a : Nat} (h : unitOf a ≠ 2) : (s.woken d).reg a = (s.restored d).reg a :=
  (changes_woken s d).reg fun _ hf => h (unitOf_of_mem_followFields hf)

/-- The bits that a wake sets are those of the domain's entries in `readyBits`. -/
theorem changes_readyAll (d : Nat) : Changes (fun a _ => a ∈ readyBits.map (fun e => e.2.1)) s (s.readyAll d) :=
  Changes.refl.foldl fun _ _ he h => .ite (fun _ => h.setBit (List.mem_map_of_mem he)) fun _ => h

theorem unitOf_readyBits : ∀ e ∈ readyBits, domainOf (unitOf e.2.1) = some e.1 ∧ unitOf e.2.1 ≠ 2 := by decide

/-- Whatever a wake does, PWR shows what the sequencer set. -/
theorem reg_restored_pwr {a : Nat} (ha : unitOf a = 2) : (s.restored d).reg a = (s.shownOn d).reg a := by
  unfold State.restored
  split
  · exact reg_clearDomain_pwr _ _ ha
  · have hready : KeepsPwr (s.shownOn d) ((s.shownOn d).readyAll d) :=
      KeepsPwr.refl.of_changes (changes_readyAll _ d) fun a _ h => by
        obtain ⟨e, he, rfl⟩ := List.mem_map.1 h
        exact (unitOf_readyBits e he).2
    exact hready.startIfReady a ha

theorem changes_shownOn (d : Nat) : Changes
    (fieldsOf [(R.pwrStatus, F.pwrStatus_waking), (R.pwrStatus, F.pwrStatus_seqBusy), (R.pwrDom d, F.pwrDom_state)]) s (s.shownOn d) :=
  ((Changes.refl.setFld (by simp)).setBit (by simp)).setFld (by simp)

theorem fld_restored_pwr {a : Nat} (ha : unitOf a = 2) (f : Fld) : (s.restored d).fld a f = (s.shownOn d).fld a f := by
  rw [State.fld, State.fld, reg_restored_pwr s d ha]

theorem domState_woken : (s.woken d).domState d = 2 := by
  have hw : (s.woken d).domState d = (s.restored d).domState d := (changes_woken s d).fld (by simp [fieldsOf, followFields, clockFields])
  rw [hw, State.domState, fld_restored_pwr s d (unitOf_pwrDom d), State.shownOn]
  exact fld_setFld_same _ _ _ _ (by decide) (by decide)

theorem pending_woken : (s.woken d).fld (R.pwrDom d) F.pwrDom_pending = s.fld (R.pwrDom d) F.pwrDom_pending := by
  rw [(changes_woken s d).fld (by simp [fieldsOf, followFields, clockFields]), fld_restored_pwr s d (unitOf_pwrDom d)]
  exact (changes_shownOn s d).fld (by simp [fieldsOf])

theorem waking_woken : (s.woken d).fld R.pwrStatus F.pwrStatus_waking = 31 := by
  rw [(changes_woken s d).fld (by simp [fieldsOf, followFields, clockFields]), fld_restored_pwr s d (by decide), State.shownOn,
    fld_setFld_other _ _ _ _ (by simp), fld_setBit_field _ _ _ _ _ (by decide) (by decide) (by decide)]
  exact fld_setFld_same _ _ _ _ (by decide) (by decide)

theorem seqBusy_woken : (s.woken d).bit R.pwrStatus F.pwrStatus_seqBusy = false := by
  rw [(changes_woken s d).bit (by simp [fieldsOf, followFields, clockFields]), State.bit, fld_restored_pwr s d (by decide), ← State.bit,
    State.shownOn, bit_setFld_other _ _ _ _ (by simp)]
  exact bit_setBit_same _ _ _ _ rfl (by decide)

/-! ## The clamp -/

theorem mem_clamped_clamp (d : Nat) (b : Bool) (x : Nat) :
    x ∈ (s.clamp d b).flt.clamped ↔ x ∈ s.flt.clamped ∧ x ∉ sourcesOf d ∨ b = true ∧ x ∈ sourcesOf d := by
  cases b <;> simp [State.clamp, List.mem_filter]

@[simp] theorem pwrRecord_flt (e : Nat) (w : Word) : (s.pwrRecord e w).flt = s.flt := by
  unfold State.pwrRecord
  split <;> rfl

@[simp] theorem pwrNote_flt (d : Nat) : (s.pwrNote d).flt = s.flt := by simp [State.pwrNote]

@[simp] theorem pwrRefuse_flt (d v : Nat) : (s.pwrRefuse d v).flt = s.flt := by simp [State.pwrRefuse]

@[simp] theorem pwrBegin_flt (g v d : Nat) : (s.pwrBegin g v d).flt = s.flt := by
  unfold State.pwrBegin
  (repeat' split) <;> simp [State.setPhase]

@[simp] theorem transitionEnded_flt (d : Nat) : (s.transitionEnded d).flt = s.flt := by
  unfold State.transitionEnded State.startEnded
  split <;> rfl

@[simp] theorem concluded_flt (d : Nat) : (s.concluded d).flt = s.flt := by
  unfold State.concluded
  by_cases h : ((s.setPhase d 0).pwrNote d).fld (R.pwrDom d) F.pwrDom_pending = 0
  · rw [pwrSettle_idle _ d h]
    simp [State.setPhase]
  · obtain ⟨g, v, e⟩ := pwrSettle_pending _ d h
    rw [e]
    simp [State.setPhase]

/-! ## The commands -/

/-- Bits of different registers set one after the other are all set. -/
theorem bit_foldl_setBit {d : Nat} {l : List (Nat × Nat × Fld)} (hd : (l.map fun e => e.2.1).Nodup)
    (hf : ∀ e ∈ l, e.2.2.lo = e.2.2.hi ∧ e.2.2.hi < 64) {e : Nat × Nat × Fld} (he : e ∈ l) (hed : e.1 = d) :
    (l.foldl (fun s e => if e.1 = d then s.setBit e.2.1 e.2.2 true else s) s).bit e.2.1 e.2.2 = true := by
  induction l generalizing s with
  | nil => cases he
  | cons x l ih =>
    obtain ⟨hx, hd⟩ := List.nodup_cons.1 hd
    obtain ⟨⟨hbit, hlt⟩, hf⟩ := List.forall_mem_cons.1 hf
    rcases List.mem_cons.1 he with rfl | he
    · have hrest : ∀ s : State, Changes (fun a _ => a ∈ l.map fun e => e.2.1) s
          (l.foldl (fun s e => if e.1 = d then s.setBit e.2.1 e.2.2 true else s) s) := fun _ =>
        Changes.refl.foldl fun _ _ he h => .ite (fun _ => h.setBit (List.mem_map_of_mem he)) fun _ => h
      rw [List.foldl_cons, (hrest _).bit fun _ hg => absurd hg hx, if_pos hed]
      exact bit_setBit_same _ _ _ _ hbit hlt
    · exact ih _ hd hf he

theorem bit_readyAll {e : Nat × Nat × Fld} (he : e ∈ readyBits) (hed : e.1 = d.val) : (s.readyAll d).bit e.2.1 e.2.2 = true :=
  bit_foldl_setBit s (by decide) (by decide) he hed

theorem readyAll_enrol (d : Nat) : (s.readyAll d).enrol = s.enrol := by
  rw [State.readyAll, foldl_keep State.enrol]
  intro t e
  split <;> rfl

/-- A wake from RETENTION that no START waits for. -/
theorem restored_retention (hs : s.domState d ≠ 0) (hw : s.enrol.startWaiting = false) : s.restored d = (s.shownOn d).readyAll d := by
  have henrol : ((s.shownOn d).readyAll d).enrol = s.enrol := readyAll_enrol _ _
  rw [State.restored, if_neg hs, State.startIfReady, henrol, hw]
  rfl

theorem restored_off (hs : s.domState d = 0) : s.restored d = (s.shownOn d).clearDomain d := if_pos hs

theorem reg_shownOn {a : Nat} (ha : unitOf a ≠ 2) : (s.shownOn d).reg a = s.reg a :=
  (changes_shownOn s d).reg fun f hf => by
    have hdom := unitOf_pwrDom d
    simp only [fieldsOf, List.mem_cons, Prod.mk.injEq, List.not_mem_nil, or_false] at hf
    rcases hf with ⟨rfl, _⟩ | ⟨rfl, _⟩ | ⟨rfl, _⟩
    · exact ha (by decide)
    · exact ha (by decide)
    · exact ha hdom

/-- DOMAIN_ON of a domain that does not wake. -/
theorem domainOn_elsewhere (h : s.domPhase d ≠ 4) : exec (.domainOn d) s = .next s := by
  rw [show exec (.domainOn d) s = .next (s.domainOnNow d) from rfl, domainOnNow_other s d h]

/-- What DOMAIN_ON shows in PWR, whatever is pending or waits. -/
theorem domainOn_shows (h : s.domPhase d = 4) : (s.domainOnNow d).domState d = 2 ∧
    (s.domainOnNow d).fld R.pwrStatus F.pwrStatus_waking = 31 ∧ (s.domainOnNow d).bit R.pwrStatus F.pwrStatus_seqBusy = false ∧
    (s.domainOnNow d).bit R.pwrStatus F.pwrStatus_domChg = true ∧ (s.domainOnNow d).fld (R.pwrDom d) F.pwrDom_pending = 0 ∧
    ∀ x ∈ sourcesOf d, x ∈ (s.domainOnNow d).flt.clamped := by
  rw [domainOnNow_eq s d h]
  have hc := changes_concluded ((s.woken d).clamp d true) d
  refine ⟨(domState_concluded _ d).trans (domState_woken s d), ?_, ?_, domChg_concluded _ d, pending_concluded _ d, fun x hx => ?_⟩
  · exact (hc.fld (by simp [fieldsOf, requestFields, beginFields, noteFields])).trans (waking_woken s d)
  · exact (hc.bit (by simp [fieldsOf, requestFields, beginFields, noteFields])).trans (seqBusy_woken s d)
  · rw [concluded_flt, mem_clamped_clamp]
    exact .inr ⟨rfl, hx⟩

theorem domPhase_domainOnNow (h : s.domPhase d = 4) (hp : s.fld (R.pwrDom d) F.pwrDom_pending = 0) : (s.domainOnNow d).domPhase d = 0 := by
  rw [domainOnNow_eq s d h]
  exact domPhase_concluded_idle _ d ((pending_woken s d).trans hp)

theorem reg_domainOnNow (h : s.domPhase d = 4) {a : Nat} (ha : unitOf a ≠ 2) : (s.domainOnNow d).reg a = (s.restored d).reg a := by
  rw [domainOnNow_eq s d h, reg_concluded _ _ ha, ← reg_woken s d ha]
  rfl

/-- The registers of a domain that wakes from OFF stand at their reset values. -/
theorem domainOn_off (h : s.domPhase d = 4) (hs : s.domState d = 0) (hd : d.val < 11 ∨ 16 < d.val) {a : Nat} (h2 : unitOf a ≠ 2)
    (h5 : unitOf a ≠ 5) : (s.domainOnNow d).reg a = if domainOf (unitOf a) = some d.val then regReset a else s.reg a := by
  rw [reg_domainOnNow s d h h2, restored_off s d hs, reg_clearDomain _ _ h5 (.inl hd), reg_shownOn s d h2]

theorem domainOn_retention (h : s.domPhase d = 4) (hs : s.domState d ≠ 0) (hw : s.enrol.startWaiting = false) :
    (∀ e ∈ readyBits, e.1 = d.val → (s.domainOnNow d).bit e.2.1 e.2.2 = true) ∧ memKept s (s.domainOnNow d) ∧
    ∀ a, unitOf a ≠ 2 → a ∉ readyBits.map (fun e => e.2.1) → (s.domainOnNow d).reg a = s.reg a := by
  refine ⟨fun e he hed => ?_, ?_, fun a h2 ha => ?_⟩
  · rw [State.bit, State.fld, reg_domainOnNow s d h (unitOf_readyBits e he).2, restored_retention s d hs hw]
    exact bit_readyAll _ d he hed
  · rw [domainOnNow_eq s d h]
    refine memKept_of_eq ((changes_concluded _ d).1.trans ?_)
    rw [show ((s.woken d).clamp d true).mem = (s.woken d).mem from rfl, (changes_woken s d).1, restored_retention s d hs hw,
      (changes_readyAll _ d).1]
    exact (changes_shownOn s d).1
  · rw [reg_domainOnNow s d h h2, restored_retention s d hs hw, (changes_readyAll _ d).reg fun _ => ha, reg_shownOn s d h2]

/-- DOMAIN_ON with no request pending and no START waiting. -/
theorem domainOn_idle (h : s.domPhase d = 4) (hp : s.fld (R.pwrDom d) F.pwrDom_pending = 0) (hw : s.enrol.startWaiting = false) :
    ∃ t : State, exec (.domainOn d) s = .next t ∧ t.domState d = 2 ∧ t.domPhase d = 0 ∧
      t.fld R.pwrStatus F.pwrStatus_waking = 31 ∧ t.bit R.pwrStatus F.pwrStatus_seqBusy = false ∧
      (∀ x ∈ sourcesOf d, x ∈ t.flt.clamped) ∧
      (s.domState d = 0 → (d.val < 11 ∨ 16 < d.val) → (∀ a, domainOf (unitOf a) = some d.val → t.reg a = regReset a) ∧
        (∀ a, domainOf (unitOf a) ≠ some d.val → unitOf a ≠ 2 → unitOf a ≠ 5 → t.reg a = s.reg a)) ∧
      (s.domState d ≠ 0 → (∀ e ∈ readyBits, e.1 = d.val → t.bit e.2.1 e.2.2 = true) ∧ memKept s t ∧
        (∀ a, unitOf a ≠ 2 → a ∉ readyBits.map (fun e => e.2.1) → t.reg a = s.reg a)) := by
  obtain ⟨hstate, hwaking, hbusy, -, -, hclamped⟩ := domainOn_shows s d h
  refine ⟨_, rfl, hstate, domPhase_domainOnNow s d h hp, hwaking, hbusy, hclamped, fun hs hd => ⟨fun a ha => ?_, fun a ha h2 h5 => ?_⟩,
    fun hs => domainOn_retention s d h hs hw⟩
  · obtain ⟨h2, -, h5⟩ := unitOf_of_domain ha
    rw [domainOn_off s d h hs hd h2 h5, if_pos ha]
  · rw [domainOn_off s d h hs hd h2 h5, if_neg ha]

/-- The clamp goes from the sources of a domain that is ON. -/
theorem isolationClampRelease_on (h : s.domOn d = true) : ∃ t : State, exec (.isolationClampRelease d) s = .next t ∧
    (∀ x, x ∈ t.flt.clamped ↔ x ∈ s.flt.clamped ∧ x ∉ sourcesOf d) ∧ memKept s t ∧ regsKept s t [] := by
  refine ⟨s.clamp d false, congrArg _ (if_pos h), fun x => ?_, fun _ => rfl, fun _ _ => rfl⟩
  simp [mem_clamped_clamp]

theorem isolationClampRelease_off (h : s.domOn d = false) : exec (.isolationClampRelease d) s = .next s :=
  congrArg _ (if_neg (by simp [h]))

/-- START_DONE once every domain placed has ended. -/
theorem startDone_sets : ∃ t : State, exec .startDone s = .next t ∧ memKept s t ∧ regsKept s t [R.pwrStatus] ∧
    t.bit R.pwrStatus F.pwrStatus_startDone =
      (s.bit R.pwrStatus F.pwrStatus_startDone || (!s.pwr.porst && !s.pwr.starting && s.pwr.started.isEmpty)) := by
  refine ⟨s.startDone, rfl, ?_⟩
  by_cases h : !s.pwr.porst ∧ !s.pwr.starting ∧ s.pwr.started = []
  · have hc : Changes (fun a _ => a ∈ [R.pwrStatus]) s (s.setBit R.pwrStatus F.pwrStatus_startDone true) := Changes.refl.setBit (.head _)
    rw [State.startDone, if_pos h]
    refine ⟨hc.memKept, hc.regsKept, ?_⟩
    obtain ⟨h1, h2, h3⟩ := h
    rw [bit_setBit_same _ _ _ _ rfl (by decide), h1, h2, h3]
    simp
  · rw [State.startDone, if_neg h]
    refine ⟨fun _ => rfl, fun _ _ => rfl, ?_⟩
    have hfalse : (!s.pwr.porst && !s.pwr.starting && s.pwr.started.isEmpty) = false := by
      simpa [and_assoc] using h
    rw [hfalse, Bool.or_false]

end Sys2Proof.Machine
end

section
/-!
SUPPORT. Operating points and rails (R535 to R538, R545): the clocks' steps, the rails' changes and the answers of AVS.
-/

namespace Sys2Proof.Machine

variable (s : State)

/-! ## Parts of a field -/

/-- A field within the one that is written. -/
theorem bitsOf_setBitsOf_within (n hi lo v hi' lo' : Nat) (hlo : lo ≤ lo') (hle : lo' ≤ hi') (hhi : hi' ≤ hi) :
    bitsOf (setBitsOf n hi lo v) hi' lo' = bitsOf v (hi' - lo) (lo' - lo) := by
  refine Nat.eq_of_testBit_eq fun i => ?_
  rw [testBit_bitsOf, testBit_bitsOf, testBit_setBitsOf _ _ _ _ _ (by omega), show hi' - lo + 1 - (lo' - lo) = hi' + 1 - lo' by omega]
  by_cases h : i < hi' + 1 - lo'
  · rw [if_pos (by omega), show lo' + i - lo = lo' - lo + i by omega]
  · simp [h]

/-- A field of a field. -/
theorem bitsOf_bitsOf (n hi lo a b : Nat) (h : lo + a ≤ hi) : bitsOf (bitsOf n hi lo) a b = bitsOf n (lo + a) (lo + b) := by
  refine Nat.eq_of_testBit_eq fun i => ?_
  simp only [testBit_bitsOf]
  rw [show lo + a + 1 - (lo + b) = a + 1 - b by omega, Nat.add_assoc]
  by_cases hw : i < a + 1 - b
  · simp [show b + i < hi + 1 - lo by omega]
  · simp [hw]

/-! ## The clocks -/

/-- A clock steps to the point in force where the rail allows it. -/
def State.clockGoes (s : State) (r : Nat) (f : Fld) (n : Nat) : State :=
  if s.fld R.pwrOp f ≤ n ∨ s.safePoint r ≤ n then s.stepClock f n else s

/-- The clock of VDD_PKT has stepped. -/
def State.pktClocked (s : State) : State := s.clockGoes 0 F.pwrOp_pktF s.pktPoint

/-- The clock of cluster 0 has stepped. -/
def State.limClocked (s : State) : State := s.clockGoes 1 F.pwrOp_lim0F (s.limPoint 0)

theorem stepClocks_eq : s.stepClocks = s.pktClocked.limClocked.clockGoes 1 F.pwrOp_lim1F (s.pktClocked.limClocked.limPoint 1) := rfl

variable {s} in
theorem Changes.clockGoes {W : Nat → Fld → Prop} {t : State} (h : Changes W s t) {r : Nat} {f : Fld} {n : Nat} (hf : W R.pwrOp f)
    (hs : W R.pwrStatus F.pwrStatus_opChg) : Changes W s (t.clockGoes r f n) := .ite (fun _ => h.stepClock hf hs) fun _ => h

theorem stepClock_pwr (f : Fld) (n : Nat) : (s.stepClock f n).pwr = s.pwr := by
  unfold State.stepClock
  split <;> simp

theorem clockGoes_pwr (r : Nat) (f : Fld) (n : Nat) : (s.clockGoes r f n).pwr = s.pwr := by
  unfold State.clockGoes
  split
  · exact stepClock_pwr s f n
  · rfl

@[simp] theorem stepClocks_pwr : s.stepClocks.pwr = s.pwr := by
  rw [stepClocks_eq, clockGoes_pwr, State.limClocked, clockGoes_pwr, State.pktClocked, clockGoes_pwr]

theorem fld_stepClock (f : Fld) {n : Nat} (h : f.lo ≤ f.hi) (h2 : f.hi < 64) (hn : n < 2 ^ (f.hi + 1 - f.lo)) :
    (s.stepClock f n).fld R.pwrOp f = n := by
  unfold State.stepClock
  split
  · assumption
  · rw [fld_latch_other _ _ _ (by simp), fld_setFld_same _ _ _ _ h h2, Nat.mod_eq_of_lt hn]

/-- A clock steps to a slower point at once, to a faster one only where the rail allows it. -/
theorem fld_clockGoes (r : Nat) (f : Fld) {n : Nat} (h : f.lo ≤ f.hi) (h2 : f.hi < 64) (hn : n < 2 ^ (f.hi + 1 - f.lo)) :
    (s.clockGoes r f n).fld R.pwrOp f = if s.fld R.pwrOp f ≤ n ∨ s.safePoint r ≤ n then n else s.fld R.pwrOp f := by
  unfold State.clockGoes
  split
  · exact fld_stepClock s f h h2 hn
  · rfl

theorem pktPoint_lt : s.pktPoint < 4 := by
  have hp : ∀ n, point n < 4 := fun n => by unfold point; omega
  unfold State.pktPoint
  dsimp only
  split
  · have := hp (s.fld R.pwrOp F.pwrOp_pktReq)
    omega
  · exact hp _

theorem pktF_stepClocks : s.stepClocks.fld R.pwrOp F.pwrOp_pktF =
    if s.fld R.pwrOp F.pwrOp_pktF ≤ s.pktPoint ∨ s.safePoint 0 ≤ s.pktPoint then s.pktPoint else s.fld R.pwrOp F.pwrOp_pktF := by
  have hlim : Changes (fieldsOf [(R.pwrOp, F.pwrOp_lim0F), (R.pwrOp, F.pwrOp_lim1F), (R.pwrStatus, F.pwrStatus_opChg)]) s.pktClocked
      s.stepClocks := (Changes.refl.clockGoes (by simp) (by simp)).clockGoes (by simp) (by simp)
  rw [hlim.fld (by simp [fieldsOf])]
  exact fld_clockGoes s 0 F.pwrOp_pktF (by decide) (by decide) (pktPoint_lt s)

theorem changes_stepClocks : Changes (fieldsOf clockFields) s s.stepClocks := Changes.refl.stepClocks fun _ h => h

/-! ## The rails -/

/-- A rail follows the point it needs. -/
def State.railFollows (s : State) (again : Bool) (r : Nat) : State :=
  let n := s.railPoint r
  let err := s.bit R.pwrAvsStatus (if r = 0 then F.pwrAvsStatus_pktErr else F.pwrAvsStatus_limErr)
  let busy := (s.rail r).change.isSome
  if busy ∨ s.fld R.pwrOp (railV r) ≠ n ∨ (again ∧ (err ∨ !(s.rail r).ok)) then s.railAsk r n else s

theorem followPoints_eq (b : Bool) : s.followPoints b = (s.stepClocks.railFollows b 0).railFollows b 1 := rfl

/-- A rail that shows its point, with nothing under way, stays. -/
theorem railFollows_quiet {b : Bool} {r : Nat} (hc : (s.rail r).change = none) (hv : s.fld R.pwrOp (railV r) = s.railPoint r)
    (hb : b = true → s.bit R.pwrAvsStatus (if r = 0 then F.pwrAvsStatus_pktErr else F.pwrAvsStatus_limErr) = false ∧ (s.rail r).ok = true) :
    s.railFollows b r = s := by
  refine if_neg ?_
  rintro (h | h | ⟨hb', h⟩)
  · simp [hc] at h
  · exact h hv
  · simp [hb hb'] at h

/-- A rail that shows another point asks for its own. -/
theorem railFollows_asks {b : Bool} {r : Nat} (hc : (s.rail r).change = none) (hv : s.fld R.pwrOp (railV r) ≠ s.railPoint r) :
    s.railFollows b r = s.setRail r { s.rail r with change := some (s.railPoint r) } := by
  refine (if_pos (.inr (.inl hv))).trans ?_
  simp [State.railAsk, hc]

theorem rail_setRail_same (r : Nat) (v : Rail) : (s.setRail r v).rail r = v := by simp [State.rail, State.setRail]

theorem rail_setRail_other {r q : Nat} (v : Rail) (h : q ≠ r) : (s.setRail r v).rail q = s.rail q := by simp [State.rail, State.setRail, h]

theorem rail_congr {t : State} (h : t.pwr = s.pwr) (r : Nat) : t.rail r = s.rail r := by rw [State.rail, State.rail, h]

/-- With both clusters off VDD_LIM stays where it is. -/
theorem railPoint_lim_off (h1 : s.domOn 1 = false) (h2 : s.domOn 2 = false) : s.railPoint 1 = s.fld R.pwrOp F.pwrOp_limV := by
  have hl : (List.range 2).filter (fun k => s.domOn (1 + k)) = [] := by simp [List.range_succ, h1, h2]
  rw [State.railPoint, if_neg (by decide), hl]

theorem pktPoint_congr {t : State} (ho : t.fld R.pwrOp F.pwrOp_pktReq = s.fld R.pwrOp F.pwrOp_pktReq)
    (hd : t.fld R.pwrDegrade F.pwrDegrade_level = s.fld R.pwrDegrade F.pwrDegrade_level) : t.pktPoint = s.pktPoint := by
  rw [State.pktPoint, State.pktPoint, ho, hd]

theorem pktPoint_stepClocks : s.stepClocks.pktPoint = s.pktPoint :=
  pktPoint_congr s ((changes_stepClocks s).fld (by simp [fieldsOf, clockFields])) ((changes_stepClocks s).fld (by simp [fieldsOf, clockFields]))

theorem domOn_stepClocks (d : Nat) : s.stepClocks.domOn d = s.domOn d := by
  rw [State.domOn, State.domOn, (changes_stepClocks s).fld (by simp [fieldsOf, clockFields])]

theorem limV_stepClocks : s.stepClocks.fld R.pwrOp F.pwrOp_limV = s.fld R.pwrOp F.pwrOp_limV :=
  (changes_stepClocks s).fld (by simp [fieldsOf, clockFields])

theorem pktV_stepClocks : s.stepClocks.fld R.pwrOp F.pwrOp_pktV = s.fld R.pwrOp F.pwrOp_pktV :=
  (changes_stepClocks s).fld (by simp [fieldsOf, clockFields])

theorem avsBit_stepClocks (f : Fld) : s.stepClocks.bit R.pwrAvsStatus f = s.bit R.pwrAvsStatus f :=
  (changes_stepClocks s).bit (by simp [fieldsOf, clockFields])

/-- With both clusters off and VDD_LIM at rest, VDD_LIM stays. -/
theorem railFollows_lim_off {b : Bool} (h1 : s.domOn 1 = false) (h2 : s.domOn 2 = false) (hc : (s.rail 1).change = none)
    (hb : b = true → s.bit R.pwrAvsStatus F.pwrAvsStatus_limErr = false ∧ (s.rail 1).ok = true) : s.railFollows b 1 = s :=
  railFollows_quiet s hc (railPoint_lim_off s h1 h2).symm hb

end Sys2Proof.Machine
end

section
/-!
SUPPORT. PWR_OP_WRITE (R536, R537): the points are taken, the clocks step where they may, and a rail is asked for another voltage.
-/

namespace Sys2Proof.Machine

variable (s : State)

/-! ## What a rail that follows leaves -/

theorem changes_railFollows (b : Bool) (r : Nat) : Changes (fieldsOf [(R.pwrAvsStatus, F.pwrAvsStatus_opAborted)]) s (s.railFollows b r) :=
  .ite (fun _ => Changes.refl.railAsk (.head _)) fun _ => .refl

theorem rail_railAsk_other {r q n : Nat} (h : q ≠ r) : (s.railAsk r n).rail q = s.rail q := by
  unfold State.railAsk
  dsimp only
  split
  · exact rail_setRail_other s _ h
  · split
    · rfl
    · rw [rail_setRail_other _ _ h]
      split <;> rfl

theorem rail_railFollows_other {b : Bool} {r q : Nat} (h : q ≠ r) : (s.railFollows b r).rail q = s.rail q := by
  have hite : ∀ (c : Prop) [Decidable c] (n : Nat), (if c then s.railAsk r n else s).rail q = s.rail q := fun c _ n => by
    split
    · exact rail_railAsk_other s h
    · rfl
  exact hite _ _

/-- With both clusters off and VDD_LIM at rest, only VDD_PKT follows. -/
theorem followPoints_lim_off {b : Bool} (h1 : s.domOn 1 = false) (h2 : s.domOn 2 = false) (hc : (s.rail 1).change = none)
    (hb : b = true → s.bit R.pwrAvsStatus F.pwrAvsStatus_limErr = false ∧ (s.rail 1).ok = true) :
    s.followPoints b = s.stepClocks.railFollows b 0 := by
  have hkept := changes_railFollows s.stepClocks b 0
  have hdom : ∀ d, (s.stepClocks.railFollows b 0).domOn d = s.domOn d := fun d => by
    rw [← domOn_stepClocks s d, State.domOn, State.domOn, hkept.fld (by simp [fieldsOf])]
  have hrail : (s.stepClocks.railFollows b 0).rail 1 = s.rail 1 :=
    (rail_railFollows_other _ (by decide)).trans (rail_congr s (stepClocks_pwr s) 1)
  rw [followPoints_eq]
  refine railFollows_lim_off _ (by rw [hdom, h1]) (by rw [hdom, h2]) (by rw [hrail, hc]) fun hbt => ?_
  rw [hkept.bit (by simp [fieldsOf]), avsBit_stepClocks, hrail]
  exact hb hbt

/-! ## PWR_OP_WRITE -/

/-- The requested points are taken. -/
def State.pointsTaken (s : State) (v : Word) : State := s.setFld R.pwrOp ⟨29, 24⟩ (bitsOf v.toNat 29 24)

theorem changes_pointsTaken (v : Word) : Changes (fieldsOf [(R.pwrOp, ⟨29, 24⟩)]) s (s.pointsTaken v) := Changes.refl.setFld (.head _)

theorem fld_pointsTaken (v : Word) : (s.pointsTaken v).fld R.pwrOp ⟨29, 24⟩ = bitsOf v.toNat 29 24 := by
  rw [State.pointsTaken, fld_setFld_same _ _ _ _ (by decide) (by decide)]
  exact Nat.mod_eq_of_lt (bitsOf_lt v.toNat 29 24)

theorem changes_followPoints (b : Bool) : Changes (fieldsOf followFields) s (s.followPoints b) := Changes.refl.followPoints fun _ h => h

theorem points_followPoints (b : Bool) : (s.followPoints b).fld R.pwrOp ⟨29, 24⟩ = s.fld R.pwrOp ⟨29, 24⟩ :=
  (changes_followPoints s b).fld (by simp [fieldsOf, followFields, clockFields])

theorem mem_of_followFields {a : Nat} {f : Fld} (h : fieldsOf followFields a f) : a ∈ [R.pwrOp, R.pwrStatus, R.pwrAvsStatus] := by
  simp only [fieldsOf, followFields, clockFields, List.mem_cons, Prod.mk.injEq, List.not_mem_nil, or_false] at h ⊢
  tauto

/-- PWR_OP_WRITE takes the requested points and changes no register but the three of the operating points. -/
theorem pwrOpWrite_takes (v : Word) : ∃ t : State, exec (.pwrOpWrite v) s = .next t ∧ t.fld R.pwrOp ⟨29, 24⟩ = bitsOf v.toNat 29 24 ∧
    memKept s t ∧ regsKept s t [R.pwrOp, R.pwrStatus, R.pwrAvsStatus] := by
  have hc : Changes (fun a _ => a ∈ [R.pwrOp, R.pwrStatus, R.pwrAvsStatus]) s (s.opWrite v) :=
    ((changes_pointsTaken s v).mono (by simp [fieldsOf])).trans ((changes_followPoints _ true).mono fun _ _ => mem_of_followFields)
  exact ⟨_, rfl, (points_followPoints _ true).trans (fld_pointsTaken s v), hc.memKept, hc.regsKept⟩

/-- The point of VDD_PKT after a write, while no degradation level bounds it. -/
theorem pktPoint_pointsTaken (v : Word) (hn : bitsOf v.toNat 29 28 < 3) (hd : s.fld R.pwrDegrade F.pwrDegrade_level = 0) :
    (s.pointsTaken v).pktPoint = bitsOf v.toNat 29 28 := by
  have hreq : (s.pointsTaken v).fld R.pwrOp F.pwrOp_pktReq = bitsOf v.toNat 29 28 := by
    have hlt := setBitsOf_lt (s.reg R.pwrOp).toNat 29 24 (bitsOf v.toNat 29 24) 64 (by decide) (by decide) (s.reg R.pwrOp).isLt
    rw [State.pointsTaken, State.fld, State.setFld, reg_setReg_same, BitVec.toNat_ofNat, Nat.mod_eq_of_lt hlt,
      bitsOf_setBitsOf_within _ _ _ _ _ _ (by decide) (by decide) (by decide), bitsOf_bitsOf _ _ _ _ _ (by decide)]
    rfl
  have hdeg : (s.pointsTaken v).fld R.pwrDegrade F.pwrDegrade_level = 0 := ((changes_pointsTaken s v).fld (by simp [fieldsOf])).trans hd
  rw [State.pktPoint, hreq, hdeg]
  exact Nat.min_eq_left (by omega)

/-- VDD_PKT at rest, its clock at its voltage's point: after a write the clock stands at the slower of the two points. -/
theorem pktF_opWrite (v : Word) (n : Nat) (hp : (s.pointsTaken v).pktPoint = n)
    (hvf : s.fld R.pwrOp F.pwrOp_pktV = s.fld R.pwrOp F.pwrOp_pktF) (hc : (s.rail 0).change = none) (hok : (s.rail 0).ok = true) :
    (s.pointsTaken v).stepClocks.fld R.pwrOp F.pwrOp_pktF = max n (s.fld R.pwrOp F.pwrOp_pktF) := by
  have hkept : ∀ f : Fld, f.hi < 24 ∨ 29 < f.lo → (s.pointsTaken v).fld R.pwrOp f = s.fld R.pwrOp f := fun f hf =>
    (changes_pointsTaken s v).fld fun g hg => by
      obtain ⟨-, rfl⟩ : R.pwrOp = R.pwrOp ∧ g = ⟨29, 24⟩ := by simpa [fieldsOf] using hg
      exact hf
  have hsafe : (s.pointsTaken v).safePoint 0 = s.fld R.pwrOp F.pwrOp_pktF := by
    have hr : (s.pointsTaken v).rail 0 = s.rail 0 := rfl
    rw [State.safePoint, hr, if_pos hok, hc, ← hvf]
    exact (Nat.max_zero _).trans (hkept _ (by decide))
  rw [pktF_stepClocks, hp, hsafe, hkept _ (by decide)]
  split <;> omega

/-- VDD_PKT at rest, its clock at its voltage's point, both clusters off: a write steps a clock to a slower point at once, and asks for the
voltage of another point. -/
theorem pwrOpWrite_atRest (v : Word) (n : Nat) (hv : n = bitsOf v.toNat 29 28) (hn : n < 3) (hd : s.fld R.pwrDegrade F.pwrDegrade_level = 0)
    (h1 : s.domOn 1 = false) (h2 : s.domOn 2 = false) (hvf : s.fld R.pwrOp F.pwrOp_pktV = s.fld R.pwrOp F.pwrOp_pktF)
    (hc0 : (s.rail 0).change = none) (hc1 : (s.rail 1).change = none) (hok0 : (s.rail 0).ok = true)
    (hok1 : (s.rail 1).ok = true) (he0 : s.bit R.pwrAvsStatus F.pwrAvsStatus_pktErr = false)
    (he1 : s.bit R.pwrAvsStatus F.pwrAvsStatus_limErr = false) :
    ∃ t : State, exec (.pwrOpWrite v) s = .next t ∧ t.fld R.pwrOp ⟨29, 24⟩ = bitsOf v.toNat 29 24 ∧
      t.fld R.pwrOp F.pwrOp_pktV = s.fld R.pwrOp F.pwrOp_pktV ∧ t.fld R.pwrOp F.pwrOp_pktF = max n (s.fld R.pwrOp F.pwrOp_pktF) ∧
      (t.rail 0).change = (if n = s.fld R.pwrOp F.pwrOp_pktV then none else some n) ∧ (t.rail 1).change = none ∧ memKept s t ∧
      regsKept s t [R.pwrOp, R.pwrStatus] := by
  have hpoint : (s.pointsTaken v).pktPoint = n := (pktPoint_pointsTaken s v (hv ▸ hn) hd).trans hv.symm
  have htaken := changes_pointsTaken s v
  have hclocks := changes_stepClocks (s.pointsTaken v)
  have hdom : ∀ e : Nat, (s.pointsTaken v).domOn e = s.domOn e := fun e => by
    rw [State.domOn, State.domOn, htaken.fld (by simp [fieldsOf])]
  have herr : ∀ f, (s.pointsTaken v).bit R.pwrAvsStatus f = s.bit R.pwrAvsStatus f := fun f => htaken.bit (by simp [fieldsOf])
  have hrail : ∀ r, (s.pointsTaken v).stepClocks.rail r = s.rail r := rail_congr s (stepClocks_pwr _)
  have hpktV : (s.pointsTaken v).stepClocks.fld R.pwrOp F.pwrOp_pktV = s.fld R.pwrOp F.pwrOp_pktV :=
    (pktV_stepClocks _).trans (htaken.fld (by simp [fieldsOf]))
  have hrailPoint : (s.pointsTaken v).stepClocks.railPoint 0 = n := (pktPoint_stepClocks _).trans hpoint
  have hregs : Changes (fun a _ => a ∈ [R.pwrOp, R.pwrStatus]) s (s.pointsTaken v).stepClocks :=
    (htaken.mono (by simp [fieldsOf])).trans (hclocks.mono fun a f hf => by
      simp only [fieldsOf, clockFields, List.mem_cons, Prod.mk.injEq, List.not_mem_nil, or_false] at hf ⊢
      tauto)
  have hexec : exec (.pwrOpWrite v) s = .next ((s.pointsTaken v).stepClocks.railFollows true 0) :=
    congrArg _ (followPoints_lim_off _ ((hdom 1).trans h1) ((hdom 2).trans h2) hc1 fun _ => ⟨(herr _).trans he1, hok1⟩)
  have hpoints := ((changes_stepClocks (s.pointsTaken v)).fld (a := R.pwrOp) (f := ⟨29, 24⟩) (by simp [fieldsOf, clockFields])).trans
    (fld_pointsTaken s v)
  have hpktF := pktF_opWrite s v n hpoint hvf hc0 hok0
  by_cases hnv : n = s.fld R.pwrOp F.pwrOp_pktV
  · rw [railFollows_quiet (r := 0) _ (by rw [hrail, hc0]) (hpktV.trans (hnv.symm.trans hrailPoint.symm)) fun _ =>
      ⟨((avsBit_stepClocks _ _).trans (herr _)).trans he0, by rw [hrail, hok0]⟩] at hexec
    exact ⟨_, hexec, hpoints, hpktV, hpktF, by rw [hrail, hc0, if_pos hnv], by rw [hrail, hc1], hregs.memKept, hregs.regsKept⟩
  · rw [railFollows_asks _ (by rw [hrail, hc0]) fun h => hnv (hrailPoint.symm.trans (h.symm.trans hpktV))] at hexec
    refine ⟨_, hexec, hpoints, hpktV, hpktF, ?_, ?_, hregs.memKept, hregs.regsKept⟩
    · rw [rail_setRail_same, if_neg hnv, hrailPoint]
    · rw [rail_setRail_other _ _ (by decide), hrail, hc1]

end Sys2Proof.Machine
end

section
/-!
SUPPORT. AVS_DONE and AVS_TIMEOUT (R536, R538): the voltage read back decides between the new point and the error.
-/

namespace Sys2Proof.Machine

variable (s : State)

/-- A counter that stands untouched before it counts and after. -/
theorem counted_count {s u t : State} {a n : Nat} {f : Fld} (h : u.fld a f = s.fld a f) (h' : t.fld a f = (u.count a f n).fld a f)
    (hf : f.lo ≤ f.hi) (hf' : f.hi < 64) : counted s t a f n := by
  rw [counted, h', fld_count_same u a f n hf hf', h]

/-- The error bit of a rail. -/
def avsErr (r : Nat) : Fld := if r = 0 then F.pwrAvsStatus_pktErr else F.pwrAvsStatus_limErr

/-- The voltage read back of a rail. -/
def avsMv (r : Nat) : Fld := if r = 0 then F.pwrAvsStatus_pktMv else F.pwrAvsStatus_limMv

theorem avsErr_bit (r : Nat) : (avsErr r).lo = (avsErr r).hi ∧ (avsErr r).hi < 64 := by
  unfold avsErr
  split <;> decide

theorem avsMv_width (r : Nat) : (avsMv r).hi + 1 - (avsMv r).lo = 10 ∧ (avsMv r).hi < 64 := by
  unfold avsMv
  split <;> decide

theorem railV_width (r : Nat) : (railV r).hi + 1 - (railV r).lo = 2 ∧ (railV r).hi < 64 := by
  unfold railV
  split <;> decide

/-! ## The error -/

/-- What AVS_ERR changes. -/
def avsErrorFields (r : Nat) : List (Nat × Fld) :=
  [(R.pwrAvsStatus, avsErr r), (R.pwrAvsStatus, F.pwrAvsStatus_errors), (R.pwrStatus, F.pwrStatus_logLost), (R.pwrOp, railV r)]

theorem changes_avsError (r n : Nat) : Changes (fieldsOf (avsErrorFields r)) s (s.avsError r n) :=
  (((Changes.refl.latch (.head _)).count (.tail _ (.head _))).pwrRecord (.tail _ (.tail _ (.head _)))).setFld
    (.tail _ (.tail _ (.tail _ (.head _))))

theorem avsError_err (r n : Nat) : (s.avsError r n).bit R.pwrAvsStatus (avsErr r) = true := by
  have h : Changes (fieldsOf [(R.pwrAvsStatus, F.pwrAvsStatus_errors), (R.pwrStatus, F.pwrStatus_logLost), (R.pwrOp, railV r)])
      (s.latch R.pwrAvsStatus (avsErr r)) (s.avsError r n) :=
    ((Changes.refl.count (.head _)).pwrRecord (.tail _ (.head _))).setFld (.tail _ (.tail _ (.head _)))
  rw [h.bit (by unfold avsErr; split <;> simp [fieldsOf])]
  exact bit_latch_same s _ _ (avsErr_bit r).1 (avsErr_bit r).2

theorem avsError_counted (r n : Nat) : counted s (s.avsError r n) R.pwrAvsStatus F.pwrAvsStatus_errors := by
  have hbefore : Changes (fieldsOf [(R.pwrAvsStatus, avsErr r)]) s (s.latch R.pwrAvsStatus (avsErr r)) := Changes.refl.latch (.head _)
  have hafter : Changes (fieldsOf [(R.pwrStatus, F.pwrStatus_logLost), (R.pwrOp, railV r)])
      ((s.latch R.pwrAvsStatus (avsErr r)).count R.pwrAvsStatus F.pwrAvsStatus_errors) (s.avsError r n) :=
    (Changes.refl.pwrRecord (.head _)).setFld (.tail _ (.head _))
  refine counted_count (hbefore.fld ?_) (hafter.fld (by simp [fieldsOf])) (by decide) (by decide)
  unfold avsErr
  split <;> simp [fieldsOf]

/-- The error is latched, counted and recorded. -/
def State.avsLatched (s : State) (r : Nat) : State :=
  let t := (s.latch R.pwrAvsStatus (avsErr r)).count R.pwrAvsStatus F.pwrAvsStatus_errors
  t.pwrRecord (0x20 + r) (t.reg R.pwrAvsStatus)

theorem avsError_eq (r n : Nat) :
    s.avsError r n = (s.avsLatched r).setFld R.pwrOp (railV r) (min n ((s.avsLatched r).fld R.pwrOp (railV r))) := rfl

/-- The rail shows the slower of the two points. -/
theorem avsError_railV (r n : Nat) : (s.avsError r n).fld R.pwrOp (railV r) = min n (s.fld R.pwrOp (railV r)) := by
  obtain ⟨hw, hhi⟩ := railV_width r
  have hkept : Changes (fieldsOf [(R.pwrAvsStatus, avsErr r), (R.pwrAvsStatus, F.pwrAvsStatus_errors), (R.pwrStatus, F.pwrStatus_logLost)]) s
      (s.avsLatched r) := ((Changes.refl.latch (.head _)).count (.tail _ (.head _))).pwrRecord (.tail _ (.tail _ (.head _)))
  have hlt := bitsOf_lt (s.reg R.pwrOp).toNat (railV r).hi (railV r).lo
  rw [avsError_eq, fld_setFld_same _ _ _ _ (by omega) hhi, hkept.fld (by simp [fieldsOf])]
  exact Nat.mod_eq_of_lt (Nat.lt_of_le_of_lt (Nat.min_le_right _ _) hlt)

theorem pwrRecord_rail (e : Nat) (w : Word) (q : Nat) : (s.pwrRecord e w).rail q = s.rail q := by
  unfold State.pwrRecord
  split <;> rfl

theorem latch_rail (a : Nat) (f : Fld) (q : Nat) : (s.latch a f).rail q = s.rail q := by
  unfold State.latch
  split <;> rfl

theorem avsError_rail (r n q : Nat) : (s.avsError r n).rail q = s.rail q :=
  (pwrRecord_rail _ _ _ q).trans (latch_rail s _ _ q)

/-! ## The answer of AVS -/

/-- The voltage read back is shown, when there is one. -/
def State.measured (s : State) (r : Nat) (mv : Option Nat) : State :=
  match mv with
  | some m => s.setFld R.pwrAvsStatus (avsMv r) m
  | none => s

/-- The change that was under way has ended; the one that waited is under way. -/
def State.answered (s : State) (r : Nat) (mv : Option Nat) (ok : Bool) : State :=
  (s.measured r mv).setRail r { change := (s.rail r).pending, pending := none, ok := ok }

theorem changes_answered (r : Nat) (mv : Option Nat) (ok : Bool) :
    Changes (fieldsOf [(R.pwrAvsStatus, avsMv r)]) s (s.answered r mv ok) := by
  cases mv with
  | none => exact .frame .refl
  | some m => exact .frame (Changes.refl.setFld (.head _))

theorem measured_pwr (r : Nat) (mv : Option Nat) : (s.measured r mv).pwr = s.pwr := by cases mv <;> rfl

theorem rail_answered_same (r : Nat) (mv : Option Nat) (ok : Bool) :
    (s.answered r mv ok).rail r = { change := (s.rail r).pending, pending := none, ok := ok } := rail_setRail_same _ _ _

theorem rail_answered_other {r q : Nat} (mv : Option Nat) (ok : Bool) (h : q ≠ r) : (s.answered r mv ok).rail q = s.rail q :=
  (rail_setRail_other _ _ h).trans (rail_congr s (measured_pwr s r mv) q)

theorem starting_answered (r : Nat) (mv : Option Nat) (ok : Bool) : (s.answered r mv ok).pwr.starting = s.pwr.starting := by
  cases mv <;> rfl

theorem opVolt_setFld_avs (f : Fld) (v r n : Nat) : (s.setFld R.pwrAvsStatus f v).opVolt r n = s.opVolt r n := by
  simp only [State.opVolt]
  exact fld_setFld_other _ _ _ _ (by decide)

theorem avsEnds_idle (r : Nat) (mv : Option Nat) (h : (s.rail r).change = none) : s.avsEnds r mv = s := by
  unfold State.avsEnds
  rw [h]

/-- The voltage read back is no more than 10 mV below the fused one of the point. -/
def State.meets (s : State) (r n : Nat) (mv : Option Nat) : Bool :=
  match mv with
  | some m => decide (s.opVolt r n ≤ m + 10)
  | none => false

theorem meets_measured (r n : Nat) (mv : Option Nat) : (s.measured r mv).meets r n mv = s.meets r n mv := by
  cases mv with
  | none => rfl
  | some m => simp only [State.meets, State.measured, opVolt_setFld_avs]

/-- The rail stands at its new point. -/
def State.reached (s : State) (r n : Nat) : State := s.setFld R.pwrOp (railV r) n

/-- The rail's new point is shown. -/
def State.reachedShown (s : State) (r n : Nat) : State :=
  if s.fld R.pwrOp (railV r) = n then s.reached r n else (s.reached r n).latch R.pwrStatus F.pwrStatus_opChg

/-- What follows the answer of AVS: at the start the domains wake once both rails stand, else clocks and rails follow. -/
def State.followsAnswer (s : State) (r n : Nat) (ok : Bool) : State :=
  if s.pwr.starting then
    if ok then if ((s.reached r n).rail 0).ok && ((s.reached r n).rail 1).ok then (s.reached r n).wakeAll else s.reached r n
    else s.avsError r n
  else if ok then (s.reachedShown r n).followPoints false
  else s.avsError r n

theorem avsEnds_eq (r n : Nat) (mv : Option Nat) (h : (s.rail r).change = some n) :
    s.avsEnds r mv = (s.answered r mv (s.meets r n mv)).followsAnswer r n (s.meets r n mv) := by
  unfold State.avsEnds
  rw [h, ← meets_measured]
  cases mv <;> rfl

/-- No answer, or a voltage more than 10 mV below the fused one, is an error. -/
theorem avsEnds_missed (r n : Nat) (mv : Option Nat) (h : (s.rail r).change = some n) (hmv : s.meets r n mv = false) :
    s.avsEnds r mv = (s.answered r mv false).avsError r n := by
  rw [avsEnds_eq s r n mv h, hmv]
  exact ite_self _

/-- What an answer changes besides the rail's point and its voltage. -/
def answerFields (a : Nat) (f : Fld) : Prop := fieldsOf followFields a f ∨ ∃ d < 30, fieldsOf (requestFields d) a f

theorem changes_reachedShown (r n : Nat) : Changes (fieldsOf [(R.pwrStatus, F.pwrStatus_opChg)]) (s.reached r n) (s.reachedShown r n) :=
  .ite (fun _ => .refl) fun _ => Changes.refl.latch (.head _)

/-- A voltage high enough: the rail is at its point. -/
theorem changes_avsEnds_met (r n : Nat) (mv : Option Nat) (h : (s.rail r).change = some n) (hmv : s.meets r n mv = true) :
    Changes answerFields ((s.answered r mv true).reached r n) (s.avsEnds r mv) := by
  rw [avsEnds_eq s r n mv h, hmv]
  have hwake : Changes answerFields ((s.answered r mv true).reached r n) ((s.answered r mv true).reached r n).wakeAll :=
    Changes.refl.wakeAll fun d hd e he => .inr ⟨d, hd, he⟩
  have hshown : Changes answerFields ((s.answered r mv true).reached r n) ((s.answered r mv true).reachedShown r n) :=
    (changes_reachedShown _ r n).mono fun a f hf => .inl (by
      rw [fieldsOf, List.mem_singleton] at hf
      simp [fieldsOf, followFields, clockFields, hf])
  exact .ite (fun _ => .ite (fun _ => .ite (fun _ => hwake) fun _ => .refl) fun h => absurd rfl h)
    fun _ => .ite (fun _ => hshown.followPoints fun e he => .inl he) fun h => absurd rfl h

theorem not_answerFields_avsMv (r : Nat) {g : Fld} (hg : answerFields R.pwrAvsStatus g) : (avsMv r).hi < g.lo ∨ g.hi < (avsMv r).lo := by
  rcases hg with hg | ⟨d, hd, hg⟩
  · have : g = F.pwrAvsStatus_opAborted := by simpa [fieldsOf, followFields, clockFields] using hg
    subst this
    unfold avsMv
    split <;> decide
  · simp [fieldsOf, requestFields, beginFields, noteFields] at hg

theorem not_answerFields_railV (r : Nat) {g : Fld} (hg : answerFields R.pwrOp g) : (railV r).hi < g.lo ∨ g.hi < (railV r).lo := by
  rcases hg with hg | ⟨d, hd, hg⟩
  · have : g = F.pwrOp_pktF ∨ g = F.pwrOp_lim0F ∨ g = F.pwrOp_lim1F := by simpa [fieldsOf, followFields, clockFields] using hg
    unfold railV
    rcases this with rfl | rfl | rfl <;> split <;> decide
  · simp [fieldsOf, requestFields, beginFields, noteFields] at hg

/-- The rail shows its new point and the voltage read back. -/
theorem avsEnds_met (r n m : Nat) (h : (s.rail r).change = some n) (hn : n < 4) (hm : m < 1024) (hv : s.opVolt r n ≤ m + 10) :
    (s.avsEnds r (some m)).fld R.pwrOp (railV r) = n ∧ (s.avsEnds r (some m)).fld R.pwrAvsStatus (avsMv r) = m ∧
      memKept s (s.avsEnds r (some m)) := by
  obtain ⟨hw, hhi⟩ := railV_width r
  obtain ⟨hw', hhi'⟩ := avsMv_width r
  have hc := changes_avsEnds_met s r n (some m) h (decide_eq_true hv)
  refine ⟨?_, ?_, memKept_of_eq hc.1⟩
  · rw [hc.fld fun g => not_answerFields_railV r, State.reached, fld_setFld_same _ _ _ _ (by omega) hhi, hw]
    exact Nat.mod_eq_of_lt hn
  · rw [hc.fld fun g => not_answerFields_avsMv r, State.reached, fld_setFld_other _ _ _ _ (by decide)]
    refine (fld_setFld_same s R.pwrAvsStatus (avsMv r) m (by omega) hhi').trans ?_
    rw [hw']
    exact Nat.mod_eq_of_lt hm

/-- The error is latched and counted, and the rail shows the slower point. -/
theorem avsEnds_error (r n : Nat) (mv : Option Nat) (h : (s.rail r).change = some n) (hmv : s.meets r n mv = false) :
    (s.avsEnds r mv).bit R.pwrAvsStatus (avsErr r) = true ∧ counted s (s.avsEnds r mv) R.pwrAvsStatus F.pwrAvsStatus_errors ∧
    (s.avsEnds r mv).fld R.pwrOp (railV r) = min n (s.fld R.pwrOp (railV r)) ∧ memKept s (s.avsEnds r mv) ∧
    regsKept s (s.avsEnds r mv) [R.pwrOp, R.pwrAvsStatus, R.pwrStatus] := by
  have hans := changes_answered s r mv false
  have hc : Changes (fun a _ => a ∈ [R.pwrOp, R.pwrAvsStatus, R.pwrStatus]) s ((s.answered r mv false).avsError r n) :=
    (hans.mono (by simp [fieldsOf])).trans ((changes_avsError _ r n).mono fun a f hf => by
      simp only [fieldsOf, avsErrorFields, List.mem_cons, Prod.mk.injEq, List.not_mem_nil, or_false] at hf ⊢
      tauto)
  have hcount := avsError_counted (s.answered r mv false) r n
  rw [counted, hans.fld (by unfold avsMv; split <;> simp [fieldsOf])] at hcount
  rw [avsEnds_missed s r n mv h hmv]
  refine ⟨avsError_err _ r n, hcount, ?_, hc.memKept, hc.regsKept⟩
  rw [avsError_railV, hans.fld (by simp [fieldsOf])]

end Sys2Proof.Machine
end

section
/-!
SUPPORT. The answers of AVS as instructions, VDD_PKT's in full, and AVS_RETRY (R545).
-/

namespace Sys2Proof.Machine

variable (s : State)

/-! ## VDD_PKT with the clusters off -/

/-- VDD_PKT has answered and its point is shown. -/
def State.pktShown (s : State) (m n : Nat) : State := (s.answered 0 (some m) true).reachedShown 0 n

theorem changes_pktShown (m n : Nat) :
    Changes (fieldsOf [(R.pwrAvsStatus, F.pwrAvsStatus_pktMv), (R.pwrOp, F.pwrOp_pktV), (R.pwrStatus, F.pwrStatus_opChg)]) s (s.pktShown m n) :=
  (((changes_answered s 0 (some m) true).mono fun _ _ h => by
    have h := List.mem_singleton.1 h
    simp [fieldsOf, h, avsMv]).setFld (.tail _ (.head _))).trans ((changes_reachedShown _ 0 n).mono fun _ _ h => by
      have h := List.mem_singleton.1 h
      simp [fieldsOf, h])

theorem reachedShown_rail (r n q : Nat) : (s.reachedShown r n).rail q = s.rail q := by
  unfold State.reachedShown
  split
  · rfl
  · exact latch_rail _ _ _ q

theorem pktV_pktShown (m : Nat) {n : Nat} (hn : n < 4) : (s.pktShown m n).fld R.pwrOp F.pwrOp_pktV = n := by
  rw [State.pktShown, (changes_reachedShown _ 0 n).fld (by simp [fieldsOf])]
  exact (fld_setFld_same _ _ _ _ (by decide) (by decide)).trans (Nat.mod_eq_of_lt hn)

theorem pktPoint_pktShown (m n : Nat) : (s.pktShown m n).pktPoint = s.pktPoint :=
  pktPoint_congr s ((changes_pktShown s m n).fld (by simp [fieldsOf])) ((changes_pktShown s m n).fld (by simp [fieldsOf]))

theorem domOn_pktShown (m n d : Nat) : (s.pktShown m n).domOn d = s.domOn d := by
  rw [State.domOn, State.domOn, (changes_pktShown s m n).fld (by simp [fieldsOf])]

/-- With the clusters off a new point of VDD_PKT moves the clocks alone. -/
theorem avsEnds_pkt_met (n m : Nat) (h : (s.rail 0).change = some n) (hp : (s.rail 0).pending = none) (hs : s.pwr.starting = false)
    (hpoint : s.pktPoint = n) (h1 : s.domOn 1 = false) (h2 : s.domOn 2 = false) (hc : (s.rail 1).change = none)
    (hv : s.opVolt 0 n ≤ m + 10) : s.avsEnds 0 (some m) = (s.pktShown m n).stepClocks := by
  have hmet : s.meets 0 n (some m) = true := decide_eq_true hv
  have hends : s.avsEnds 0 (some m) = (s.pktShown m n).followPoints false := by
    rw [avsEnds_eq s 0 n _ h, hmet]
    have hstart : (s.answered 0 (some m) true).pwr.starting = false := (starting_answered s 0 _ true).trans hs
    exact (if_neg (by simp [hstart])).trans (if_pos rfl)
  have hrail0 : ((s.pktShown m n).rail 0).change = none := by rw [State.pktShown, reachedShown_rail, rail_answered_same, hp]
  have hrail1 : ((s.pktShown m n).rail 1).change = none := by
    rw [State.pktShown, reachedShown_rail, rail_answered_other _ _ _ (by decide), hc]
  rw [hends, followPoints_lim_off _ ((domOn_pktShown ..).trans h1) ((domOn_pktShown ..).trans h2) hrail1 (by simp)]
  refine railFollows_quiet _ (by rw [rail_congr _ (stepClocks_pwr _), hrail0]) ?_ (by simp)
  refine (pktV_stepClocks _).trans ((pktV_pktShown s m (hpoint ▸ pktPoint_lt s)).trans ?_)
  exact ((pktPoint_stepClocks _).trans ((pktPoint_pktShown s m n).trans hpoint)).symm

/-- The clock steps to the new point. -/
theorem pktF_pktShown (n m : Nat) (hp : (s.rail 0).pending = none) (hpoint : s.pktPoint = n) :
    (s.pktShown m n).stepClocks.fld R.pwrOp F.pwrOp_pktF = n := by
  have hrail : (s.pktShown m n).rail 0 = { change := none, pending := none, ok := true } := by
    rw [State.pktShown, reachedShown_rail, rail_answered_same, hp]
  have hsafe : (s.pktShown m n).safePoint 0 = n := by
    rw [State.safePoint, hrail]
    exact (Nat.max_zero _).trans (pktV_pktShown s m (hpoint ▸ pktPoint_lt s))
  rw [pktF_stepClocks, pktPoint_pktShown, hpoint, hsafe, if_pos (.inr le_rfl)]

/-! ## The instructions -/

theorem avsErr_fin : ∀ r : Fin 2, (if r = 0 then F.pwrAvsStatus_pktErr else F.pwrAvsStatus_limErr) = avsErr r :=
  Fin.forall_fin_two.2 ⟨rfl, rfl⟩

theorem avsMv_fin : ∀ r : Fin 2, (if r = 0 then F.pwrAvsStatus_pktMv else F.pwrAvsStatus_limMv) = avsMv r :=
  Fin.forall_fin_two.2 ⟨rfl, rfl⟩

theorem exec_avsDone (r : Fin 2) (mv : Fin 1024) : exec (.avsDone r mv) s = .next (s.avsEnds r (some mv)) := rfl

theorem exec_avsTimeout (r : Fin 2) : exec (.avsTimeout r) s = .next (s.avsEnds r none) := rfl

/-- An answer of AVS with no change under way. -/
theorem avs_idle (r : Fin 2) (h : (s.rail r).change = none) :
    (∀ mv, exec (.avsDone r mv) s = .next s) ∧ exec (.avsTimeout r) s = .next s := by
  simp only [exec_avsDone, exec_avsTimeout, avsEnds_idle s r _ h, implies_true, and_self]

/-- A voltage too low and no answer at all are the same error. -/
theorem exec_avs_error {r : Fin 2} {n : Nat} {mv : Fin 1024} {i : Instr}
    (hi : i ∈ (if mv.val + 10 < s.opVolt r n then [Instr.avsDone r mv, .avsTimeout r] else [.avsTimeout r])) :
    ∃ m, exec i s = .next (s.avsEnds r m) ∧ s.meets r n m = false := by
  split at hi
  case isTrue h =>
    simp only [List.mem_cons, List.not_mem_nil, or_false] at hi
    rcases hi with rfl | rfl
    · exact ⟨some mv, rfl, decide_eq_false (by omega)⟩
    · exact ⟨none, rfl, rfl⟩
  case isFalse h =>
    obtain rfl := List.mem_singleton.1 hi
    exact ⟨none, rfl, rfl⟩

/-- AVS_DONE and AVS_TIMEOUT of a change under way. -/
theorem avs_answers (r : Fin 2) (n : Nat) (mv : Fin 1024) (h : (s.rail r).change = some n) (hn : n < 4) :
    (s.opVolt r n ≤ mv.val + 10 → ∃ t : State, exec (.avsDone r mv) s = .next t ∧ t.fld R.pwrOp (railV r) = n ∧
      t.fld R.pwrAvsStatus (if r = 0 then F.pwrAvsStatus_pktMv else F.pwrAvsStatus_limMv) = mv ∧ memKept s t) ∧
    (∀ i ∈ (if mv.val + 10 < s.opVolt r n then [Instr.avsDone r mv, .avsTimeout r] else [.avsTimeout r]), ∃ t : State,
      exec i s = .next t ∧ t.bit R.pwrAvsStatus (if r = 0 then F.pwrAvsStatus_pktErr else F.pwrAvsStatus_limErr) = true ∧
      counted s t R.pwrAvsStatus F.pwrAvsStatus_errors ∧ t.fld R.pwrOp (railV r) = min n (s.fld R.pwrOp (railV r)) ∧ memKept s t ∧
      regsKept s t [R.pwrOp, R.pwrAvsStatus, R.pwrStatus]) := by
  rw [avsErr_fin, avsMv_fin]
  refine ⟨fun hv => ⟨_, rfl, avsEnds_met s r n mv h hn mv.isLt hv⟩, fun i hi => ?_⟩
  obtain ⟨m, hexec, hm⟩ := exec_avs_error s hi
  exact ⟨_, hexec, avsEnds_error s r n m h hm⟩

/-- The answers for VDD_PKT with the clusters off: the clock follows the voltage that is read back. -/
theorem avs_answers_pkt (n : Nat) (mv : Fin 1024) (h : (s.rail 0).change = some n) (hp : (s.rail 0).pending = none)
    (hs : s.pwr.starting = false) (hpoint : s.pktPoint = n) (hc : (s.rail 1).change = none) (h1 : s.domOn 1 = false)
    (h2 : s.domOn 2 = false) :
    (s.opVolt 0 n ≤ mv.val + 10 → ∃ t : State, exec (.avsDone 0 mv) s = .next t ∧ t.fld R.pwrOp F.pwrOp_pktV = n ∧
      t.fld R.pwrOp F.pwrOp_pktF = n ∧ t.fld R.pwrAvsStatus F.pwrAvsStatus_pktMv = mv ∧ (t.rail 0).change = none ∧ memKept s t ∧
      regsKept s t [R.pwrOp, R.pwrAvsStatus, R.pwrStatus]) ∧
    (∀ i ∈ (if mv.val + 10 < s.opVolt 0 n then [Instr.avsDone 0 mv, .avsTimeout 0] else [.avsTimeout 0]), ∃ t : State,
      exec i s = .next t ∧ t.bit R.pwrAvsStatus F.pwrAvsStatus_pktErr = true ∧ counted s t R.pwrAvsStatus F.pwrAvsStatus_errors ∧
      t.fld R.pwrOp F.pwrOp_pktV = min n (s.fld R.pwrOp F.pwrOp_pktV) ∧ t.fld R.pwrOp F.pwrOp_pktF = s.fld R.pwrOp F.pwrOp_pktF ∧
      (t.rail 0).change = none ∧ memKept s t ∧ regsKept s t [R.pwrOp, R.pwrAvsStatus, R.pwrStatus]) := by
  refine ⟨fun hv => ?_, fun i hi => ?_⟩
  · obtain ⟨hpktV, hmv, hmem⟩ := avsEnds_met s 0 n mv h (hpoint ▸ pktPoint_lt s) mv.isLt hv
    have hends := avsEnds_pkt_met s n mv h hp hs hpoint h1 h2 hc hv
    have hregs : Changes (fun a _ => a ∈ [R.pwrOp, R.pwrAvsStatus, R.pwrStatus]) s (s.pktShown mv n).stepClocks :=
      ((changes_pktShown s mv n).mono fun a f hf => by
        simp only [fieldsOf, List.mem_cons, Prod.mk.injEq, List.not_mem_nil, or_false] at hf ⊢
        tauto).trans ((changes_stepClocks _).mono fun a f hf => by
        simp only [fieldsOf, clockFields, List.mem_cons, Prod.mk.injEq, List.not_mem_nil, or_false] at hf ⊢
        tauto)
    refine ⟨_, rfl, hpktV, ?_, hmv, ?_, hmem, ?_⟩
    · exact (congrArg (fun t => State.fld t R.pwrOp F.pwrOp_pktF) hends).trans (pktF_pktShown s n mv hp hpoint)
    · refine (congrArg (fun t => (State.rail t 0).change) hends).trans ?_
      rw [rail_congr _ (stepClocks_pwr _), State.pktShown, reachedShown_rail, rail_answered_same, hp]
    · exact hends ▸ hregs.regsKept
  · obtain ⟨m, hexec, hm⟩ := exec_avs_error (r := 0) s hi
    obtain ⟨herr, hcount, hpktV, hmem, hregs⟩ := avsEnds_error s 0 n m h hm
    refine ⟨_, hexec, herr, hcount, hpktV, ?_, ?_, hmem, hregs⟩
    · have hc := (changes_answered s 0 m false).fld (a := R.pwrOp) (f := F.pwrOp_pktF) (by simp [fieldsOf])
      refine (congrArg (fun t => State.fld t R.pwrOp F.pwrOp_pktF) (avsEnds_missed s 0 n m h hm)).trans (Eq.trans ?_ hc)
      exact (changes_avsError _ 0 n).fld (by simp [fieldsOf, avsErrorFields, railV])
    · refine (congrArg (fun t => (State.rail t 0).change) (avsEnds_missed s 0 n m h hm)).trans ?_
      rw [avsError_rail, rail_answered_same, hp]

/-! ## AVS_RETRY -/

theorem startRails_change (t : State) : (t.startRails.rail 0).change = some 0 ∧ (t.startRails.rail 1).change = some 0 := by
  refine ⟨?_, ?_⟩
  · rw [State.startRails, rail_setRail_other _ _ (by decide), rail_setRail_same]
  · rw [State.startRails, rail_setRail_same]

theorem avsRetry_starting (h : s.pwr.starting = true) (h0 : (s.rail 0).change = none) (h1 : (s.rail 1).change = none) :
    ∃ t : State, exec .avsRetry s = .next t ∧ (t.rail 0).change = some 0 ∧ (t.rail 1).change = some 0 ∧ memKept s t ∧ regsKept s t [] := by
  obtain ⟨hpkt, hlim⟩ := startRails_change s
  exact ⟨s.startRails, congrArg _ (if_pos ⟨h, by rw [h0]; rfl, by rw [h1]; rfl⟩), hpkt, hlim, fun _ => rfl, fun _ _ => rfl⟩

theorem avsRetry_started (h : s.pwr.starting = false) : exec .avsRetry s = .next s := congrArg _ (if_neg (by simp [h]))

end Sys2Proof.Machine
end

section
/-!
SUPPORT. Resets of AON and their release (R542 to R545), PLLs and references (R540, R541).
-/

namespace Sys2Proof.Machine

variable (s : State)

/-! ## Resets -/

/-- The registers that a reset of AON spares as they are. -/
def survives (s : State) (a : Nat) : Bool :=
  [R.fltStatusF, R.fltFirstInfo 2, R.fltFirstSec 2, R.fltFirstNs 2].contains a ||
    (decide (2 ≤ s.fld R.sysTermState F.sysTermState_stopCause) && a == R.sysTermState)

/-- A reset of AON, before the two bits of WARD.STATUS. -/
def State.aonCleared (s : State) : State := { regs := Tbl.keep (survives s) s.regs }

theorem reg_aonCleared (a : Nat) : s.aonCleared.reg a = if survives s a then s.reg a else regReset a := get_keep _ _ _ a

theorem reg_aonReset (b : Bool) (a : Nat) : (s.aonReset b).reg a =
    ((s.aonCleared.setBit R.wardStatus F.wardStatus_fatal (s.bit R.wardStatus F.wardStatus_fatal)).setBit R.wardStatus
      F.wardStatus_permanent (s.bit R.wardStatus F.wardStatus_permanent)).reg a := rfl

theorem reg_aonReset_other (b : Bool) {a : Nat} (h : a ≠ R.wardStatus) :
    (s.aonReset b).reg a = if survives s a then s.reg a else regReset a := by
  rw [reg_aonReset, reg_setBit_other _ _ _ h, reg_setBit_other _ _ _ h, reg_aonCleared]

theorem unitOf_of_survives {a : Nat} (h : survives s a = true) : unitOf a = 1 ∨ unitOf a = 4 := by
  simp only [survives, List.contains_cons, List.contains_nil, Bool.or_false, Bool.or_eq_true, beq_iff_eq, Bool.and_eq_true] at h
  rcases h with (rfl | rfl | rfl | rfl) | ⟨-, rfl⟩ <;> decide

/-- A reset of AON leaves every other unit at its reset values. -/
theorem reg_aonReset_elsewhere (b : Bool) {a : Nat} (h1 : unitOf a ≠ 1) (h4 : unitOf a ≠ 4) (h9c : unitOf a ≠ 0x9C) :
    (s.aonReset b).reg a = regReset a := by
  rw [reg_aonReset_other s b (by rintro rfl; exact h9c (by decide)), if_neg]
  intro h
  rcases unitOf_of_survives s h with h | h <;> omega

theorem pwrDom_reset : ∀ e < 30, bitsOf (regReset (R.pwrDom e)).toNat 1 0 = 0 ∧ bitsOf (regReset (R.pwrDom e)).toNat 8 6 = 0 := by decide

/-- After a reset of AON every domain is OFF and none is in transition. -/
theorem domains_aonReset (b : Bool) {e : Nat} (he : e < 30) : (s.aonReset b).domState e = 0 ∧ (s.aonReset b).domPhase e = 0 := by
  have hu : unitOf (R.pwrDom e) = 2 := unitOf_pwrDom ⟨e, he⟩
  have hreg : (s.aonReset b).reg (R.pwrDom e) = regReset (R.pwrDom e) := reg_aonReset_elsewhere s b (by omega) (by omega) (by omega)
  rw [State.domState, State.domPhase, State.fld, State.fld, hreg]
  exact pwrDom_reset e he

/-- What R542 keeps of the registers. -/
theorem kept_aonReset (b : Bool) : (s.aonReset b).reg R.fltStatusF = s.reg R.fltStatusF ∧
    (s.aonReset b).bit R.wardStatus F.wardStatus_fatal = s.bit R.wardStatus F.wardStatus_fatal ∧
    (s.aonReset b).bit R.wardStatus F.wardStatus_permanent = s.bit R.wardStatus F.wardStatus_permanent ∧
    (s.aonReset b).reg R.sysTermState =
      if 2 ≤ s.fld R.sysTermState F.sysTermState_stopCause then s.reg R.sysTermState else regReset R.sysTermState := by
  refine ⟨?_, ?_, ?_, ?_⟩
  · rw [reg_aonReset_other s b (by decide), if_pos (by simp [survives])]
  · rw [State.bit, State.fld, reg_aonReset]
    exact (bit_setBit_field _ _ F.wardStatus_permanent F.wardStatus_fatal _ (by decide) (by decide) (by decide)).trans
      (bit_setBit_same _ _ _ _ rfl (by decide))
  · rw [State.bit, State.fld, reg_aonReset]
    exact bit_setBit_same _ _ _ _ rfl (by decide)
  · rw [reg_aonReset_other s b (by decide)]
    simp [survives, R.fltStatusF, R.fltFirstInfo, R.fltFirstSec, R.fltFirstNs]

theorem chipReset_wrongKey (v : Word) (h : v.toNat % 65536 ≠ 0xA5C3) : exec (.chipReset v) s = .next s :=
  congrArg _ (if_neg (by simpa [bitsOf] using h))

/-- The key and PORST_N are the same reset; a chip reset holds the chip until its own end. -/
theorem exec_reset (v : Word) (i : Instr) (hv : v.toNat % 65536 = 0xA5C3) (hi : i = .chipReset v ∨ i = .porstNAssert) :
    exec i s = .next (s.aonReset (i == .chipReset v)) := by
  rcases hi with rfl | rfl
  · have hkey : bitsOf v.toNat 15 0 = 0xA5C3 := by simpa [bitsOf] using hv
    rw [beq_self_eq_true]
    exact congrArg _ (if_pos hkey)
  · rfl

/-- A reset keeps what R542 keeps. -/
theorem reset_keeps (v : Word) (i : Instr) (hv : v.toNat % 65536 = 0xA5C3) (hi : i = .chipReset v ∨ i = .porstNAssert) :
    ∃ t : State, exec i s = .next t ∧ (∀ e : Nat, e < 30 → t.domState e = 0 ∧ t.domPhase e = 0) ∧
      t.reg R.fltStatusF = s.reg R.fltStatusF ∧ t.bit R.wardStatus F.wardStatus_fatal = s.bit R.wardStatus F.wardStatus_fatal ∧
      t.bit R.wardStatus F.wardStatus_permanent = s.bit R.wardStatus F.wardStatus_permanent ∧
      t.reg R.sysTermState =
        (if 2 ≤ s.fld R.sysTermState F.sysTermState_stopCause then s.reg R.sysTermState else regReset R.sysTermState) ∧ t.mem = [] ∧
      t.preura.flash = s.preura.flash ∧ (∀ a, unitOf a ∉ [1, 4, 5, 0x9C] → t.reg a = regReset a) ∧ t.pwr.porst = true ∧
      t.pwr.hold = (i == .chipReset v) := by
  obtain ⟨hflt, hfatal, hpermanent, hterm⟩ := kept_aonReset s (i == .chipReset v)
  refine ⟨_, exec_reset s v i hv hi, fun e he => domains_aonReset s _ he, hflt, hfatal, hpermanent, hterm, rfl, rfl, fun a ha => ?_, rfl, rfl⟩
  simp only [List.mem_cons, List.not_mem_nil, or_false, not_or] at ha
  obtain ⟨h1, h4, -, h9c⟩ := ha
  exact reg_aonReset_elsewhere s _ h1 h4 h9c

theorem aonPowerLoss_clears : ∃ t : State, exec .aonPowerLoss s = .next t ∧ (∀ a, t.reg a = regReset a) ∧ t.mem = [] ∧
    t.preura.flash = s.preura.flash := ⟨_, rfl, fun _ => rfl, rfl, rfl⟩

/-! ## Release -/

/-- The cause is shown and the straps are sampled. -/
def State.strapped (s : State) (cause boot lead role : Nat) : State :=
  (((s.setFld R.sysResetCause F.sysResetCause_cause cause).setFld R.sysStraps F.sysStraps_bootSrc boot).setFld R.sysStraps
    F.sysStraps_leadSrc lead).setFld R.sysStraps F.sysStraps_twinRole role

theorem reg_release (n boot lead role a : Nat) : (s.release n boot lead role).reg a = (s.strapped n boot lead role).reg a := rfl

theorem changes_strapped (n boot lead role : Nat) :
    Changes (fun a _ => a ∈ [R.sysResetCause, R.sysStraps]) s (s.strapped n boot lead role) :=
  (((Changes.refl.setFld (.head _)).setFld (.tail _ (.head _))).setFld (.tail _ (.head _))).setFld (.tail _ (.head _))

theorem cause_strapped {n : Nat} (boot lead role : Nat) (hn : n < 4) :
    (s.strapped n boot lead role).fld R.sysResetCause F.sysResetCause_cause = n := by
  rw [State.strapped, fld_setFld_other _ _ _ _ (by decide), fld_setFld_other _ _ _ _ (by decide), fld_setFld_other _ _ _ _ (by decide),
    fld_setFld_same _ _ _ _ (by decide) (by decide)]
  exact Nat.mod_eq_of_lt hn

theorem bootSrc_strapped (n : Nat) (boot lead : Bool) (role : Nat) :
    (s.strapped n (b2n boot) (b2n lead) role).bit R.sysStraps F.sysStraps_bootSrc = boot := by
  rw [State.strapped, bit_setFld_field _ _ _ _ _ (by decide) (by decide) (by decide),
    bit_setFld_field _ _ _ _ _ (by decide) (by decide) (by decide)]
  exact bit_setBit_same _ _ _ _ rfl (by decide)

theorem leadSrc_strapped (n : Nat) (boot lead : Bool) (role : Nat) :
    (s.strapped n (b2n boot) (b2n lead) role).bit R.sysStraps F.sysStraps_leadSrc = lead := by
  rw [State.strapped, bit_setFld_field _ _ _ _ _ (by decide) (by decide) (by decide)]
  exact bit_setBit_same _ _ _ _ rfl (by decide)

theorem twinRole_strapped (n boot lead : Nat) (role : Fin 4) :
    (s.strapped n boot lead role).fld R.sysStraps F.sysStraps_twinRole = role := by
  rw [State.strapped, fld_setFld_same _ _ _ _ (by decide) (by decide)]
  exact Nat.mod_eq_of_lt role.isLt

/-- The two ways in which a reset is released. -/
theorem exec_release (boot lead : Bool) (role : Fin 4) (i : Instr) (n : Nat)
    (h : (i = .porstNRelease boot lead role ∧ s.pwr.porst = true ∧ s.pwr.hold = false ∧ n = b2n s.pwr.released) ∨
      (i = .chipResetEnd boot lead role ∧ s.pwr.hold = true ∧ n = 2)) :
    exec i s = .next (s.release n (b2n boot) (b2n lead) role) ∧ n < 4 := by
  rcases h with ⟨rfl, hporst, hhold, rfl⟩ | ⟨rfl, hhold, rfl⟩
  · refine ⟨congrArg _ (if_pos (by simp [hporst, hhold])), ?_⟩
    cases s.pwr.released <;> decide
  · exact ⟨congrArg _ (if_pos hhold), by decide⟩

/-- The release samples the straps and writes both rails. -/
theorem release_starts (boot lead : Bool) (role : Fin 4) (i : Instr) (n : Nat)
    (h : (i = .porstNRelease boot lead role ∧ s.pwr.porst = true ∧ s.pwr.hold = false ∧ n = b2n s.pwr.released) ∨
      (i = .chipResetEnd boot lead role ∧ s.pwr.hold = true ∧ n = 2)) :
    ∃ t : State, exec i s = .next t ∧ t.fld R.sysResetCause F.sysResetCause_cause = n ∧ t.bit R.sysStraps F.sysStraps_bootSrc = boot ∧
      t.bit R.sysStraps F.sysStraps_leadSrc = lead ∧ t.fld R.sysStraps F.sysStraps_twinRole = role ∧ t.pwr.porst = false ∧
      t.pwr.starting = true ∧ (t.rail 0).change = some 0 ∧ (t.rail 1).change = some 0 ∧ memKept s t ∧
      regsKept s t [R.sysResetCause, R.sysStraps] := by
  obtain ⟨hexec, hn⟩ := exec_release s boot lead role i n h
  have hc := changes_strapped s n (b2n boot) (b2n lead) role
  obtain ⟨hpkt, hlim⟩ := startRails_change
    { s.strapped n (b2n boot) (b2n lead) role with pwr := { s.pwr with porst := false, hold := false, released := true, starting := true } }
  exact ⟨_, hexec, cause_strapped s _ _ _ hn, bootSrc_strapped s n boot lead role, leadSrc_strapped s n boot lead role,
    twinRole_strapped s n _ _ role, rfl, rfl, hpkt, hlim, memKept_of_eq hc.1, hc.regsKept⟩

/-- A release that nothing waits for. -/
theorem release_refused (boot lead : Bool) (role : Fin 4) :
    (s.pwr.porst = false ∨ s.pwr.hold = true → exec (.porstNRelease boot lead role) s = .next s) ∧
    (s.pwr.hold = false → exec (.chipResetEnd boot lead role) s = .next s) := by
  refine ⟨fun h => congrArg _ (if_neg ?_), fun h => congrArg _ (if_neg (by simp [h]))⟩
  rcases h with h | h <;> simp [h]

/-! ## PLLs and references -/

/-- Signals on the pairs of a list's domains that are ON. -/
theorem wires_foldl_signal (c : Nat → Nat) (l : List (Nat × Nat)) (s : State) :
    (l.foldl (fun s e => if s.domOn e.1 then s.signal e.2 2 (c e.2) else s) s).wires =
      s.wires ++ (l.filter fun e => s.domOn e.1).map fun e => (e.2, 2, c e.2) := by
  induction l generalizing s with
  | nil => simp
  | cons e l ih =>
    rw [List.foldl_cons, ih]
    cases hon : s.domOn e.1 with
    | true =>
      have hwires : (s.signal e.2 2 (c e.2)).wires = s.wires ++ [(e.2, 2, c e.2)] := rfl
      have hdom : ∀ d, (s.signal e.2 2 (c e.2)).domOn d = s.domOn d := fun _ => rfl
      simp [hwires, hdom, hon]
    | false => simp [hon]

/-- The lock of a PLL goes, and the loss is counted. -/
def State.pllDropped (s : State) (b : Nat) : State := (s.setFld R.clkPllStatus ⟨b, b⟩ 0).count R.clkCounts F.clkCounts_pllUnlocks

theorem pllUnlock_elsewhere (b : Fin 8) (hb : b.val ≠ 1) (h : s.fld R.clkPllStatus ⟨b, b⟩ = 0) : exec (.pllUnlock b) s = .next s :=
  congrArg _ ((if_neg hb).trans (if_pos h))

theorem exec_pllUnlock (b : Fin 8) (hb : b.val ≠ 1) (h : s.fld R.clkPllStatus ⟨b, b⟩ = 1) : exec (.pllUnlock b) s =
    .next ((pllSources b).foldl (fun s e => if s.domOn e.1 then s.signal e.2 2 (faultCode e.2 3) else s) (s.pllDropped b)) :=
  congrArg _ ((if_neg hb).trans (if_neg (by omega)))

theorem pllSources_domain : ∀ b : Fin 8, ∀ e ∈ pllSources b, e.1 < 30 := by decide

/-- A PLL that loses lock is a class D fault of what it feeds. -/
theorem pllUnlock_locked (b : Fin 8) (hb : b.val ≠ 1) (h : s.fld R.clkPllStatus ⟨b, b⟩ = 1) :
    ∃ t : State, exec (.pllUnlock b) s = .next t ∧ t.fld R.clkPllStatus ⟨b, b⟩ = 0 ∧ counted s t R.clkCounts F.clkCounts_pllUnlocks ∧
      t.wires = s.wires ++ ((pllSources b).filter (fun e => s.domOn e.1)).map (fun e => (e.2, 2, faultCode e.2 3)) ∧ memKept s t ∧
      regsKept s t [R.clkPllStatus, R.clkCounts] := by
  have hsignals : ∀ (W : Nat → Fld → Prop), Changes W (s.pllDropped b) ((pllSources b).foldl
      (fun s e => if s.domOn e.1 then s.signal e.2 2 (faultCode e.2 3) else s) (s.pllDropped b)) := fun W =>
    Changes.refl.foldl fun _ _ _ h => .ite (fun _ => h.signal) fun _ => h
  have hdrop : Changes (fun a _ => a ∈ [R.clkPllStatus, R.clkCounts]) s (s.pllDropped b) :=
    (Changes.refl.setFld (.head _)).count (.tail _ (.head _))
  have hdom : ∀ d : Nat, d < 30 → (s.pllDropped b).domOn d = s.domOn d := fun d _ => by
    rw [State.domOn, State.domOn, State.fld, State.fld, hdrop.reg]
    simp only [List.mem_cons, List.not_mem_nil, or_false, R.pwrDom, R.clkPllStatus, R.clkCounts]
    omega
  have hc := hdrop.trans (hsignals _)
  refine ⟨_, exec_pllUnlock s b hb h, ?_, ?_, ?_, hc.memKept, hc.regsKept⟩
  · rw [(hsignals (fieldsOf [])).fld (by simp [fieldsOf]), State.pllDropped, fld_count_other _ _ _ _ (by decide),
      fld_setFld_same _ _ _ _ le_rfl (by dsimp only; omega), Nat.zero_mod]
  · exact counted_count (u := s.setFld R.clkPllStatus ⟨b, b⟩ 0) (fld_setFld_other _ _ _ _ (by decide))
      ((hsignals (fieldsOf [])).fld (by simp [fieldsOf])) (by decide) (by decide)
  · rw [wires_foldl_signal (faultCode · 3), List.filter_congr fun e he => hdom e.1 (pllSources_domain b e he)]
    rfl

theorem pllRelock_locks (b : Fin 8) (hb : b.val ≠ 1) : ∃ t : State, exec (.pllRelock b) s = .next t ∧
    t.fld R.clkPllStatus ⟨b, b⟩ = 1 ∧ memKept s t ∧ regsKept s t [R.clkPllStatus] := by
  have hc : Changes (fun a _ => a ∈ [R.clkPllStatus]) s (s.setFld R.clkPllStatus ⟨b, b⟩ 1) := Changes.refl.setFld (.head _)
  have hexec : exec (.pllRelock b) s = .next (s.setFld R.clkPllStatus ⟨b, b⟩ 1) := congrArg Host.Outcome.next (if_neg hb)
  refine ⟨_, hexec, ?_, hc.memKept, hc.regsKept⟩
  rw [fld_setFld_same _ _ _ _ le_rfl (by dsimp only; omega), show b.val + 1 - b.val = 1 by omega]
  rfl

theorem fld_of_bit {a : Nat} {f : Fld} (s : State) (hf : f.lo = f.hi) (h : s.bit a f = true) : s.fld a f = 1 := by
  have hlt := bitsOf_lt (s.reg a).toNat f.hi f.lo
  rw [show f.hi + 1 - f.lo = 1 by omega] at hlt
  have hne : s.fld a f ≠ 0 := by simpa [State.bit] using h
  change s.fld a f < 2 ^ 1 at hlt
  omega

theorem refLoss_shown (i : Fin 6) : ∃ t : State, exec (.refLoss i) s = .next t ∧ t.fld R.clkRefStatus ⟨i, i⟩ = 0 ∧
    t.fld R.clkRefStatus ⟨8 + i, 8 + i⟩ = 1 ∧ counted s t R.clkCounts F.clkCounts_refLosses ∧ memKept s t ∧
    regsKept s t [R.clkRefStatus, R.clkCounts] := by
  have hc : Changes (fun a _ => a ∈ [R.clkRefStatus, R.clkCounts]) s (s.refLost i) :=
    ((Changes.refl.setFld (.head _)).latch (.head _)).count (.tail _ (.head _))
  refine ⟨_, rfl, ?_, ?_, ?_, hc.memKept, hc.regsKept⟩
  · rw [State.refLost, fld_count_other _ _ _ _ (by decide), fld_latch_field _ _ _ _ (by dsimp only; omega) (by dsimp only; omega)
        (by dsimp only; omega),
      fld_setFld_same _ _ _ _ le_rfl (by dsimp only; omega), Nat.zero_mod]
  · have hbit := bit_latch_same (s.setFld R.clkRefStatus ⟨i, i⟩ 0) R.clkRefStatus ⟨8 + i, 8 + i⟩ rfl (by dsimp only; omega)
    rw [State.refLost, fld_count_other _ _ _ _ (by decide)]
    exact fld_of_bit _ rfl hbit
  · exact counted_count ((fld_latch_other _ _ _ (by decide)).trans (fld_setFld_other _ _ _ _ (by decide))) rfl (by decide) (by decide)

theorem refPresent_shown (i : Fin 6) : ∃ t : State, exec (.refPresent i) s = .next t ∧ t.fld R.clkRefStatus ⟨i, i⟩ = 1 ∧
    memKept s t ∧ regsKept s t [R.clkRefStatus] := by
  have hc : Changes (fun a _ => a ∈ [R.clkRefStatus]) s (s.setFld R.clkRefStatus ⟨i, i⟩ 1) := Changes.refl.setFld (.head _)
  refine ⟨_, rfl, ?_, hc.memKept, hc.regsKept⟩
  rw [fld_setFld_same _ _ _ _ le_rfl (by dsimp only; omega), show i.val + 1 - i.val = 1 by omega]
  rfl

end Sys2Proof.Machine
end

section
namespace Sys2Proof.Machine

/-- Settles O53: the transitions of a domain, the points, the resets and the clocks each as stated above, instruction by instruction. -/
theorem transitionsPointsResetsAndClocks : Obligations.TransitionsPointsResetsAndClocks := fun s d =>
  ⟨domainDown_elsewhere s d, domainDown_takes s d, domainDown_idle s d, domainOn_elsewhere s d,
    fun h => ⟨_, rfl, domainOn_shows s d h⟩, domainOn_idle s d, isolationClampRelease_off s d, isolationClampRelease_on s d,
    startDone_sets s, pwrOpWrite_takes s,
    fun v n hv hn hd h1 h2 hvf hc0 _ hc1 hok0 hok1 he0 he1 => pwrOpWrite_atRest s v n hv hn hd h1 h2 hvf hc0 hc1 hok0 hok1 he0 he1,
    avs_idle s, avs_answers s,
    fun n mv h hp hs hpoint hc h1 h2 _ _ _ _ => avs_answers_pkt s n mv h hp hs hpoint hc h1 h2,
    avsRetry_starting s, avsRetry_started s, chipReset_wrongKey s, reset_keeps s, aonPowerLoss_clears s, release_starts s,
    release_refused s, rfl, rfl, fun b hb => ⟨pllUnlock_elsewhere s b hb, pllUnlock_locked s b hb, pllRelock_locks s b hb⟩,
    fun i => ⟨refLoss_shown s i, refPresent_shown s i⟩⟩

end Sys2Proof.Machine
end

section
/-!
SUPPORT. Contexts, latches and the choice among waiting clauses (R385, R388): what the operations of LIM leave of them.
-/

namespace Sys2Proof.Machine

variable (s : State)

/-! ## Cores, contexts and latches -/

@[simp] theorem core_setCore_same (c : Nat) (v : Core) : (s.setCore c v).core c = v := by simp [State.core, State.setCore]

theorem core_setCore_other {c e : Nat} (v : Core) (h : e ≠ c) : (s.setCore c v).core e = s.core e := by simp [State.core, State.setCore, h]

theorem ctx_setCtx_place (c : Nat) {x y : Nat} (t : Ctx) (h : y ≠ x) : (s.setCtx c x t).ctx c y = s.ctx c y := by
  simp [State.ctx, State.setCtx, h]

theorem ctx_congr {t : State} (h : t.lsch.cores = s.lsch.cores) (c x : Nat) : t.ctx c x = s.ctx c x := by
  rw [State.ctx, State.ctx, State.core, State.core, h]

theorem lbank_congr {t : State} (h : t.lsch.latches = s.lsch.latches) (n : Nat) : t.lbank n = s.lbank n := by
  rw [State.lbank, State.lbank, h]

@[simp] theorem lbank_setLbank_same (n : Nat) (l : Latch) : (s.setLbank n l).lbank n = l := by simp [State.lbank, State.setLbank]

theorem lbank_setLbank_other {n m : Nat} (l : Latch) (h : m ≠ n) : (s.setLbank n l).lbank m = s.lbank m := by
  simp [State.lbank, State.setLbank, h]

/-- A clause found by its number is in service under it. -/
theorem clauseOf_spec {u : Nat} {cl : Clause} (h : s.clauseOf u = some cl) : cl ∈ s.clauses ∧ cl.uid = u :=
  ⟨List.mem_of_find?_eq_some h, by simpa using List.find?_some h⟩

theorem gr_setG_same (t : Ctx) {r : BitVec 5} (v : BitVec 64) (h : r ≠ 0) : (t.setG r v).gr r = v := by
  rw [Ctx.setG, if_neg h, Ctx.gr, if_neg h]
  exact Tbl.get_set_same _ _ _ _

/-! ## The least of a list -/

theorem foldl_min_of_least {α : Type} (f : α → Nat) {n : Nat} (l : List α) (m : Nat) (hle : ∀ x ∈ l, n ≤ f x) (hm : n ≤ m)
    (hn : n = m ∨ ∃ x ∈ l, f x = n) : l.foldl (fun m x => min m (f x)) m = n := by
  induction l generalizing m with
  | nil => simpa [eq_comm] using hn
  | cons x l ih =>
    have hx : n ≤ f x := hle x (.head _)
    refine ih (min m (f x)) (fun y hy => hle y (.tail _ hy)) (by omega) ?_
    rcases hn with rfl | ⟨y, hy, rfl⟩
    · exact .inl (by omega)
    · rcases List.mem_cons.1 hy with rfl | hy
      · exact .inl (by omega)
      · exact .inr ⟨y, hy, rfl⟩

/-- The first of the least in a list: all before it are greater, none after it is less. -/
theorem find_least {α : Type} (f : α → Nat) (l r : List α) (e : α) {m : Nat} (he : f e ≤ m) (hl : ∀ x ∈ l, f e < f x)
    (hr : ∀ x ∈ r, f e ≤ f x) :
    (l ++ e :: r).foldl (fun m x => min m (f x)) m = f e ∧ (l ++ e :: r).find? (fun x => f x == f e) = some e := by
  refine ⟨foldl_min_of_least f _ m (fun x hx => ?_) he (.inr ⟨e, by simp, rfl⟩), ?_⟩
  · rcases List.mem_append.1 hx with hx | hx
    · exact (hl x hx).le
    · rcases List.mem_cons.1 hx with rfl | hx
      · exact le_rfl
      · exact hr x hx
  · have hnone : l.find? (fun x => f x == f e) = none := List.find?_eq_none.2 fun x hx => by
      have := hl x hx
      simp only [beq_iff_eq]
      omega
    rw [List.find?_append, hnone, Option.none_or, List.find?_cons_of_pos (by simp)]

/-! ## Swap buffers and resumption -/

theorem swapBufferDrain_empty (c : CoreId) (h : (s.core c).swapBuf = none) : exec (.swapBufferDrain c) s = .next s := by
  rw [show exec (.swapBufferDrain c) s = .next (s.swapDrain c) from rfl, State.swapDrain, h]

theorem swapBufferDrain_drains (c : CoreId) (x : Ctx) (h : (s.core c).swapBuf = some x) : ∃ t : State,
    exec (.swapBufferDrain c) s = .next t ∧ (t.core c).swapBuf = none ∧ t.lsch.saved = s.lsch.saved ++ [(c.val, x)] ∧
    (t.core c).ctxs = (s.core c).ctxs ∧ memKept s t ∧ regsKept s t [] := by
  have hexec : exec (.swapBufferDrain c) s = .next (s.swapDrain c) := rfl
  rw [State.swapDrain, h] at hexec
  have hcore := core_setCore_same s c { s.core c with swapBuf := none }
  have hbuf : ((s.setCore c { s.core c with swapBuf := none }).core c).swapBuf = none := by rw [hcore]
  have hctxs : ((s.setCore c { s.core c with swapBuf := none }).core c).ctxs = (s.core c).ctxs := by rw [hcore]
  exact ⟨_, hexec, hbuf, rfl, hctxs, fun _ => rfl, fun _ _ => rfl⟩

/-- The evicted clause that resumes: the first of the least priority number of its core. -/
theorem clauseResume_resumes (c : CoreId) (e : Ctx) (x : Nat) (a b : List (Nat × Ctx)) (h : s.lsch.saved = a ++ (c.val, e) :: b)
    (h8 : e.prio ≤ 8) (ha : ∀ o ∈ a, o.1 = c.val → e.prio < o.2.prio) (hb : ∀ o ∈ b, o.1 = c.val → e.prio ≤ o.2.prio)
    (hf : ∀ f ∈ s.lsch.ready, f.prio < e.prio → c.val ∉ s.coresOf (s.firingSec f) ∨ s.placeFor f = none)
    (hup : s.clusterUp (c.val / 32) = true) (hx : (s.freeCtxs c).head? = some x) :
    ∃ t : State, exec (.clauseResume c) s = .next t ∧ t.lsch.saved = a ++ b ∧
      t.ctx c x = { e with clause := e.clause.map (fun cl => { cl with place := x }) } ∧ (∀ y, y ≠ x → t.ctx c y = s.ctx c y) ∧
      memKept s t ∧ regsKept s t [] := by
  have hmine : s.lsch.saved.filter (fun o => o.1 == c.val) = a.filter (fun o => o.1 == c.val) ++ (c.val, e) :: b.filter (fun o => o.1 == c.val) := by
    simp [h]
  obtain ⟨hleast, hfind⟩ := find_least (fun o : Nat × Ctx => o.2.prio) (a.filter fun o => o.1 == c.val) (b.filter fun o => o.1 == c.val)
    (c.val, e) (m := 8) h8 (fun o ho => by simp only [List.mem_filter, beq_iff_eq] at ho; exact ha o ho.1 ho.2)
    (fun o ho => by simp only [List.mem_filter, beq_iff_eq] at ho; exact hb o ho.1 ho.2)
  have herase : s.lsch.saved.erase (c.val, e) = a ++ b := by
    rw [h, List.erase_append_right _ fun hmem => Nat.lt_irrefl _ (ha _ hmem rfl), List.erase_cons_head]
  have hfree : s.lsch.ready.any (fun f => decide (f.prio < e.prio) && (s.coresOf (s.firingSec f)).contains c.val &&
      (s.placeFor f).isSome) = false := by
    refine List.any_eq_false.2 fun f hmem hgoes => ?_
    simp only [Bool.and_eq_true, decide_eq_true_eq, List.contains_iff_mem, and_assoc] at hgoes
    obtain ⟨hlt, hcore, hplace⟩ := hgoes
    rcases hf f hmem hlt with hno | hno
    · exact hno hcore
    · simp [hno] at hplace
  have hexec : exec (.clauseResume c) s = .next (s.clauseResume c) := rfl
  unfold State.clauseResume at hexec
  simp only [hmine, hleast, hfind, hx, hup, hfree, Bool.not_true, Bool.or_false, Bool.false_eq_true, if_false] at hexec
  exact ⟨_, hexec, herase, ctx_setCtx_same _ _ _ _, fun y hy => (ctx_setCtx_place _ _ _ hy).trans (ctx_congr s rfl c y),
    fun _ => rfl, fun _ _ => rfl⟩

/-! ## Latch grants -/

/-- The priority of a waiting clause; one that is no longer in service comes last. -/
def State.waiterPrio (s : State) (u : Nat) : Nat := ((s.clauseOf u).map (·.prio)).getD 8

theorem latchGrant_nothing (n : Fin 1024)
    (h : s.clusterUp 0 = false ∨ (s.lbank n).holder.isSome = true ∨ ∀ w ∈ s.lsch.waits, w.2 ≠ n.val) :
    exec (.latchGrant n) s = .next s := by
  refine congrArg Host.Outcome.next ?_
  rcases h with h | h | h
  · exact if_pos (.inr (by simp [h]))
  · exact if_pos (.inl h)
  · have hnone : s.lsch.waits.filter (fun w => w.2 == n.val) = [] := by simpa [List.filter_eq_nil_iff] using h
    unfold State.latchGrant
    simp only [hnone, List.map_nil, List.find?_nil, ite_self]

/-- A free latch goes to the waiter of the highest priority that waited first. -/
theorem latchGrant_eq (n u : Nat) (a b : List (Nat × Nat)) (cl : Clause) (hup : s.clusterUp 0 = true) (hfree : (s.lbank n).holder = none)
    (hw : s.lsch.waits = a ++ (u, n) :: b) (hcl : s.clauseOf u = some cl) (h8 : cl.prio < 8)
    (ha : ∀ w ∈ a, w.2 = n → ∀ k, s.clauseOf w.1 = some k → cl.prio < k.prio)
    (hb : ∀ w ∈ b, w.2 = n → ∀ k, s.clauseOf w.1 = some k → cl.prio ≤ k.prio) : s.latchGrant n = s.grantTo n u := by
  have hpu : s.waiterPrio u = cl.prio := by rw [State.waiterPrio, hcl]; rfl
  have hwaiters : (s.lsch.waits.filter (fun w => w.2 == n)).map (·.1) =
      (a.filter (fun w => w.2 == n)).map (·.1) ++ u :: (b.filter (fun w => w.2 == n)).map (·.1) := by simp [hw]
  have hprio : ∀ (v : Nat) (P : Nat → Prop), P 8 → (∀ k, s.clauseOf v = some k → P k.prio) → P (s.waiterPrio v) := fun v P h8 hP => by
    rw [State.waiterPrio]
    cases hv : s.clauseOf v with
    | none => exact h8
    | some k => exact hP k hv
  obtain ⟨hleast, hfind⟩ := find_least s.waiterPrio ((a.filter fun w => w.2 == n).map (·.1)) ((b.filter fun w => w.2 == n).map (·.1)) u
    (m := 8) (by omega) (fun v hv => by
      obtain ⟨w, hmem, rfl⟩ := List.mem_map.1 hv
      obtain ⟨hmem, hn⟩ := List.mem_filter.1 hmem
      rw [hpu]
      exact hprio w.1 (cl.prio < ·) h8 (ha w hmem (by simpa using hn)))
    (fun v hv => by
      obtain ⟨w, hmem, rfl⟩ := List.mem_map.1 hv
      obtain ⟨hmem, hn⟩ := List.mem_filter.1 hmem
      rw [hpu]
      exact hprio w.1 (cl.prio ≤ ·) h8.le (hb w hmem (by simpa using hn)))
  simp only [State.waiterPrio] at hleast hfind
  unfold State.latchGrant
  simp only [hfree, hup, Option.isSome_none, Bool.not_true, Bool.false_eq_true, or_self, if_false, hwaiters, hleast, hfind]

end Sys2Proof.Machine
end

section
/-!
SUPPORT. The answers to ACQ, by a grant or by the wait-for detector (R388, R389), and the blocks that become ready (R27, R392).
-/

namespace Sys2Proof.Machine

variable (s : State)

/-! ## The answer to ACQ -/

/-- A context's wait has ended: its status is in the register, and it goes on to the next instruction. -/
def Ctx.acqAnswered (t : Ctx) (rd : BitVec 5) (v : BitVec 64) : Ctx := { (t.setG rd v).forth with wait := none }

theorem acqAnswered_gr (t : Ctx) {rd : BitVec 5} (v : BitVec 64) (h : rd ≠ 0) : (t.acqAnswered rd v).gr rd = v := gr_setG_same t v h

theorem acqAnswered_pc (t : Ctx) (rd : BitVec 5) (v : BitVec 64) : (t.acqAnswered rd v).pc = t.pc + 1 := by
  have hpc : (t.setG rd v).pc = t.pc := by
    unfold Ctx.setG
    split <;> rfl
  exact congrArg (· + 1) hpc

/-- A latch has a new holder, who no longer waits. -/
def State.latchTaken (s : State) (n u : Nat) : State :=
  let t := s.setLbank n { s.lbank n with holder := some u }
  { t with lsch := { t.lsch with waits := t.lsch.waits.filter (fun w => w.1 != u) } }

theorem grantTo_eq {n u : Nat} {cl k : Clause} {rd : BitVec 5} {m : Nat} (hcl : s.clauseOf u = some cl)
    (hk : (s.ctx cl.core cl.place).clause = some k) (hu : k.uid = u) (hwait : (s.ctx cl.core cl.place).wait = some (.latch rd.toNat m)) :
    s.grantTo n u = (s.latchTaken n u).setCtx cl.core cl.place
      { (s.ctx cl.core cl.place).acqAnswered rd (if (s.lbank n).broken then 1 else 0) with
        clause := some { k with latches := k.latches ++ [n] } } := by
  have hctx : (s.latchTaken n u).ctx cl.core cl.place = s.ctx cl.core cl.place := rfl
  have hk' := (congrArg Ctx.clause hctx).trans hk
  have hwait' := (congrArg Ctx.wait hctx).trans hwait
  simp only [State.latchTaken] at hk' hwait'
  unfold State.grantTo
  simp only [hcl, hk', hwait', hu, if_true, BitVec.ofNat_toNat, BitVec.setWidth_eq]
  rfl

/-- A free latch goes to the first waiter of the highest priority, whose ACQ answers. -/
theorem latchGrant_grants (n : Fin 1024) (u : Nat) (a b : List (Nat × Nat)) (cl k : Clause) (rd : BitVec 5) (hup : s.clusterUp 0 = true)
    (hfree : (s.lbank n).holder = none) (hw : s.lsch.waits = a ++ (u, n.val) :: b) (hcl : s.clauseOf u = some cl) (h8 : cl.prio < 8)
    (ha : ∀ w ∈ a, w.2 = n.val → ∀ k, s.clauseOf w.1 = some k → cl.prio < k.prio)
    (hb : ∀ w ∈ b, w.2 = n.val → ∀ k, s.clauseOf w.1 = some k → cl.prio ≤ k.prio)
    (hk : (s.ctx cl.core cl.place).clause = some k) (hu : k.uid = u)
    (hwait : (s.ctx cl.core cl.place).wait = some (.latch rd.toNat n.val)) :
    ∃ t : State, exec (.latchGrant n) s = .next t ∧ (t.lbank n).holder = some u ∧ (t.lbank n).broken = (s.lbank n).broken ∧
      (∀ w, w ∈ t.lsch.waits ↔ w ∈ s.lsch.waits ∧ w.1 ≠ u) ∧ (t.ctx cl.core cl.place).wait = none ∧
      (rd ≠ 0 → (t.ctx cl.core cl.place).gr rd = (if (s.lbank n).broken then 1 else 0)) ∧
      (t.ctx cl.core cl.place).pc = (s.ctx cl.core cl.place).pc + 1 ∧ (∀ m, m ≠ n.val → t.lbank m = s.lbank m) ∧ memKept s t ∧
      regsKept s t [] := by
  have hexec : exec (.latchGrant n) s = .next (s.latchGrant n) := rfl
  rw [latchGrant_eq s n u a b cl hup hfree hw hcl h8 ha hb, grantTo_eq s hcl hk hu hwait] at hexec
  have hlbank : ∀ (t : Ctx) (m : Nat), ((s.latchTaken n u).setCtx cl.core cl.place t).lbank m =
      (s.setLbank n { s.lbank n with holder := some u }).lbank m := fun _ _ => rfl
  refine ⟨_, hexec, ?_, ?_, fun w => ?_, ?_, fun hrd => ?_, ?_, fun m hm => ?_, fun _ => rfl, fun _ _ => rfl⟩
  · rw [hlbank, lbank_setLbank_same]
  · rw [hlbank, lbank_setLbank_same]
  · have hwaits : ∀ t : Ctx, ((s.latchTaken n u).setCtx cl.core cl.place t).lsch.waits = s.lsch.waits.filter (fun w => w.1 != u) := fun _ => rfl
    simp [hwaits]
  · rw [ctx_setCtx_same]
    rfl
  · rw [ctx_setCtx_same]
    exact acqAnswered_gr _ _ hrd
  · rw [ctx_setCtx_same]
    exact acqAnswered_pc _ rd _
  · rw [hlbank, lbank_setLbank_other _ _ hm]

/-! ## The wait-for detector -/

/-- The clauses that stay blocked for ever. -/
def State.deadClauses (s : State) : List Nat := s.stuck (s.clauses.map (·.uid)).length (s.clauses.map (·.uid))

/-- Whether a clause is in a cycle of blocked ones. -/
def State.inDeadCycle (s : State) (u : Nat) : Bool :=
  s.deadClauses.contains u && (s.reach s.deadClauses s.deadClauses.length (s.waitsFor u)).contains u

theorem deadlockDetect_none (h : s.lsch.waits = []) : exec .deadlockDetect s = .next s := by
  refine congrArg Host.Outcome.next ?_
  unfold State.deadlockDetect
  simp [h]

/-- A clause no longer waits for a latch. -/
def State.waitDropped (s : State) (u : Nat) : State := { s with lsch := { s.lsch with waits := s.lsch.waits.filter (fun w => w.1 != u) } }

theorem deadlockDetect_eq {u n m : Nat} {cl : Clause} {rd : BitVec 5}
    (hlast : (s.lsch.waits.filter (fun w => s.inDeadCycle w.1)).getLast? = some (u, n)) (hcl : s.clauseOf u = some cl)
    (hwait : (s.ctx cl.core cl.place).wait = some (.latch rd.toNat m)) : s.deadlockDetect =
    ((s.waitDropped u).setCtx cl.core cl.place ((s.ctx cl.core cl.place).acqAnswered rd 2)).count R.latchCounts F.latchCounts_deadlocks := by
  have hctx : (s.waitDropped u).ctx cl.core cl.place = s.ctx cl.core cl.place := rfl
  have hwait' := (congrArg Ctx.wait hctx).trans hwait
  simp only [State.waitDropped] at hwait'
  simp only [State.inDeadCycle, State.deadClauses] at hlast
  unfold State.deadlockDetect
  simp only [hlast, hcl, hwait', BitVec.ofNat_toNat, BitVec.setWidth_eq]
  rfl

/-- The clause whose acquisition is the youngest of a cycle is answered 2 and no longer waits. -/
theorem deadlockDetect_answers {u n m : Nat} {cl : Clause} {rd : BitVec 5}
    (hlast : (s.lsch.waits.filter (fun w => s.inDeadCycle w.1)).getLast? = some (u, n)) (hcl : s.clauseOf u = some cl)
    (hwait : (s.ctx cl.core cl.place).wait = some (.latch rd.toNat m)) :
    ∃ t : State, exec .deadlockDetect s = .next t ∧ t.lsch.waits = s.lsch.waits.filter (fun w => w.1 != u) ∧
      (t.ctx cl.core cl.place).wait = none ∧ (rd ≠ 0 → (t.ctx cl.core cl.place).gr rd = 2) ∧
      (t.ctx cl.core cl.place).pc = (s.ctx cl.core cl.place).pc + 1 ∧ counted s t R.latchCounts F.latchCounts_deadlocks ∧
      t.lsch.latches = s.lsch.latches ∧ memKept s t ∧ regsKept s t [R.latchCounts] := by
  have hexec : exec .deadlockDetect s = .next s.deadlockDetect := rfl
  rw [deadlockDetect_eq s hlast hcl hwait] at hexec
  have hctx := ctx_setCtx_same (s.waitDropped u) cl.core cl.place ((s.ctx cl.core cl.place).acqAnswered rd 2)
  exact ⟨_, hexec, rfl, congrArg Ctx.wait hctx, fun hrd => (congrArg (Ctx.gr · rd) hctx).trans (acqAnswered_gr _ _ hrd),
    (congrArg Ctx.pc hctx).trans (acqAnswered_pc _ rd _), counted_count rfl rfl (by decide) (by decide), rfl, fun _ => rfl,
    fun a ha => reg_count_other _ _ _ (by simpa using ha)⟩

/-- Two clauses each blocked on the other are never dropped. -/
theorem mem_stuck {u v : Nat} (hu : s.waitsFor u = [v]) (hv : s.waitsFor v = [u]) (fuel : Nat) (l : List Nat) (hul : u ∈ l) (hvl : v ∈ l) :
    u ∈ s.stuck fuel l ∧ v ∈ s.stuck fuel l := by
  induction fuel generalizing l with
  | zero => exact ⟨hul, hvl⟩
  | succ fuel ih => exact ih _ (by simp [hul, hvl, hu]) (by simp [hul, hvl, hv])

theorem mem_reach_of_mem {l : List Nat} {v : Nat} (fuel : Nat) (seen : List Nat) (h : v ∈ seen) : v ∈ s.reach l fuel seen := by
  induction fuel generalizing seen with
  | zero => exact h
  | succ fuel ih => exact ih _ (by simp [h])

theorem uid_mem_clauses {u : Nat} (h : (s.clauseOf u).isSome = true) : u ∈ s.clauses.map (·.uid) := by
  obtain ⟨cl, hcl⟩ := Option.isSome_iff_exists.1 h
  obtain ⟨hmem, rfl⟩ := clauseOf_spec s hcl
  exact List.mem_map_of_mem hmem

/-- Of two clauses that wait for each other, the second is in a cycle. -/
theorem inDeadCycle_of_mutual {u v : Nat} (hne : u ≠ v) (hwu : s.waitsFor u = [v]) (hwv : s.waitsFor v = [u])
    (hu : (s.clauseOf u).isSome = true) (hv : (s.clauseOf v).isSome = true) : s.inDeadCycle v = true := by
  obtain ⟨-, hdead⟩ : u ∈ s.deadClauses ∧ v ∈ s.deadClauses := mem_stuck s hwu hwv _ _ (uid_mem_clauses s hu) (uid_mem_clauses s hv)
  have hreach : v ∈ s.reach s.deadClauses s.deadClauses.length (s.waitsFor v) := by
    obtain ⟨k, hk⟩ := Nat.exists_eq_succ_of_ne_zero (List.length_pos_of_mem hdead).ne'
    rw [hk, hwv]
    exact mem_reach_of_mem s k _ (by simp [hdead, hwu, Ne.symm hne])
  simp [State.inDeadCycle, hdead, hreach]

theorem deadlockDetect_mutual (u v m n : Nat) (cl : Clause) (rd : BitVec 5) (hne : u ≠ v) (hw : s.lsch.waits = [(u, m), (v, n)])
    (hm : (s.lbank m).holder = some v) (hn : (s.lbank n).holder = some u) (hu : (s.clauseOf u).isSome = true)
    (hcl : s.clauseOf v = some cl) (hwait : (s.ctx cl.core cl.place).wait = some (.latch rd.toNat n)) :
    ∃ t : State, exec .deadlockDetect s = .next t ∧ t.lsch.waits = [(u, m)] ∧ (t.ctx cl.core cl.place).wait = none ∧
      (rd ≠ 0 → (t.ctx cl.core cl.place).gr rd = 2) ∧ (t.ctx cl.core cl.place).pc = (s.ctx cl.core cl.place).pc + 1 ∧
      counted s t R.latchCounts F.latchCounts_deadlocks ∧ t.lsch.latches = s.lsch.latches ∧ memKept s t ∧
      regsKept s t [R.latchCounts] := by
  have hwu : s.waitsFor u = [v] := by simp [State.waitsFor, hw, hm]
  have hwv : s.waitsFor v = [u] := by simp [State.waitsFor, hw, hn, hne]
  have hcycle := inDeadCycle_of_mutual s hne hwu hwv hu (by simp [hcl])
  have hlast : (s.lsch.waits.filter (fun w => s.inDeadCycle w.1)).getLast? = some (v, n) := by
    rw [hw, List.filter_cons, List.filter_cons_of_pos (by exact hcycle)]
    split <;> simp
  obtain ⟨t, hexec, hwaits, hrest⟩ := deadlockDetect_answers s hlast hcl hwait
  exact ⟨t, hexec, hwaits.trans (by simp [hw, hne]), hrest⟩

/-! ## Command blocks -/

/-- What of a block makes it due. -/
def State.blockDue (s : State) (b : CmdBlock) : Bool := b.immediate || (s.lpValid && s.lpPassed b.frame b.cell)

theorem cbReady_notDue (n : Fin 256) (b : CmdBlock) (hb : s.blockAt n = some b) (himm : b.immediate = false)
    (h : s.lpValid = false ∨ s.lpPassed b.frame b.cell = false) : exec (.cbReady n) s = .next s := by
  have hdue : (b.immediate || (s.lpValid && s.lpPassed b.frame b.cell)) = false := by rcases h with h | h <;> simp [himm, h]
  refine congrArg Host.Outcome.next ?_
  unfold State.cbReady
  simp only [hb, hdue, Bool.not_false, Bool.or_true, Bool.true_or, if_true]

/-- The block has become ready and fires. -/
def State.blockFires (s : State) (n : Nat) (b : CmdBlock) : State :=
  State.pushFiring { s with lsch := { s.lsch with store := s.lsch.store.map fun d => if d.slot = n then { d with ready := true } else d } }
    ⟨true, n, b.prio, b.subject, 3, b.late, b.seq⟩

/-- A due block that none comes before is completed REFUSED or becomes ready. -/
theorem cbReady_eq (n : Nat) (b : CmdBlock) (hb : s.blockAt n = some b) (hr : b.ready = false) (hup : s.clusterUp 0 = true)
    (hdue : b.immediate = true ∨ (s.lpValid = true ∧ s.lpPassed b.frame b.cell = true))
    (hfirst : ∀ d ∈ s.lsch.store, d.ready = true ∨ b.prio < d.prio ∨ (d.prio = b.prio ∧ b.order ≤ d.order)) :
    s.cbReady n = if (s.coresOf b.sec).isEmpty then (s.completeBlock b.seq 3 1 0x740 0).freeStore n else s.blockFires n b := by
  have hdue' : (b.immediate || (s.lpValid && s.lpPassed b.frame b.cell)) = true := by
    rcases hdue with h | ⟨h, h'⟩
    · simp [h]
    · simp [h, h']
  have hbefore : s.lsch.store.any (fun (d : CmdBlock) => !d.ready && d.immediate == b.immediate &&
      ((d.prio == b.prio && decide (d.order < b.order) && (b.immediate || (d.frame == b.frame && d.cell == b.cell))) ||
        (decide (d.prio < b.prio) && !b.immediate && d.frame == b.frame && d.cell == b.cell))) = false := by
    refine List.any_eq_false.2 fun d hd hcontra => ?_
    simp only [Bool.and_eq_true, Bool.or_eq_true, Bool.not_eq_true', beq_iff_eq, decide_eq_true_eq, and_assoc] at hcontra
    obtain ⟨hready, -, horder⟩ := hcontra
    rcases hfirst d hd with h | h | h
    · simp [h] at hready
    · rcases horder with ⟨h', -⟩ | ⟨h', -⟩ <;> omega
    · rcases horder with ⟨-, h', -⟩ | ⟨h', -⟩ <;> omega
  unfold State.cbReady
  simp only [hb, hr, hdue', hbefore, hup, Bool.not_true, Bool.or_self, Bool.false_eq_true, if_false]
  rfl

/-- The first word of a REFUSED completion: the status and the sequence number. -/
theorem refused_word (seq : Nat) : bitsOf (BitVec.ofNat 64 (seq % 2 ^ 32 * 2 ^ 32 + 3 * 2 ^ 28 + 1 % 2 ^ 16)).toNat 31 28 = 3 ∧
    bitsOf (BitVec.ofNat 64 (seq % 2 ^ 32 * 2 ^ 32 + 3 * 2 ^ 28 + 1 % 2 ^ 16)).toNat 63 32 = seq % 2 ^ 32 := by
  simp only [bitsOf, BitVec.toNat_ofNat]
  omega

theorem cbReady_refused (n : Fin 256) (b : CmdBlock) (hb : s.blockAt n = some b) (hr : b.ready = false) (hup : s.clusterUp 0 = true)
    (hdue : b.immediate = true ∨ (s.lpValid = true ∧ s.lpPassed b.frame b.cell = true))
    (hfirst : ∀ d ∈ s.lsch.store, d.ready = true ∨ b.prio < d.prio ∨ (d.prio = b.prio ∧ b.order ≤ d.order))
    (hcores : s.coresOf b.sec = []) :
    ∃ t w, exec (.cbReady n) s = .next t ∧ t.lsch.store = s.lsch.store.filter (fun d => d.slot != n.val) ∧
      t.lsch.cpl = s.lsch.cpl ++ [w] ∧ bitsOf (w.getD 0 0).toNat 31 28 = 3 ∧ bitsOf (w.getD 0 0).toNat 63 32 = b.seq % 2 ^ 32 ∧
      t.lsch.ready = s.lsch.ready ∧ counted s t (R.lschCount 13) F.lschCount_count ∧ memKept s t ∧ regsKept s t [R.lschCount 13] := by
  have hexec : exec (.cbReady n) s = .next (s.cbReady n) := rfl
  rw [cbReady_eq s n b hb hr hup hdue hfirst, hcores, List.isEmpty_nil, if_pos rfl] at hexec
  obtain ⟨hstatus, hseq⟩ := refused_word b.seq
  exact ⟨_, _, hexec, rfl, rfl, hstatus, hseq, rfl, counted_count rfl rfl (by decide) (by decide), fun _ => rfl,
    fun a ha => reg_count_other _ _ _ (by simpa using ha)⟩

theorem cbReady_fires (n : Fin 256) (b : CmdBlock) (hb : s.blockAt n = some b) (hr : b.ready = false) (hup : s.clusterUp 0 = true)
    (hdue : b.immediate = true ∨ (s.lpValid = true ∧ s.lpPassed b.frame b.cell = true))
    (hfirst : ∀ d ∈ s.lsch.store, d.ready = true ∨ b.prio < d.prio ∨ (d.prio = b.prio ∧ b.order ≤ d.order))
    (hcores : s.coresOf b.sec ≠ []) :
    ∃ t : State, exec (.cbReady n) s = .next t ∧
      t.lsch.store = s.lsch.store.map (fun (d : CmdBlock) => if d.slot = n.val then { d with ready := true } else d) ∧
      t.lsch.ready = s.lsch.ready ++ [⟨true, n.val, b.prio, b.subject, 3, b.late, b.seq⟩] ∧ memKept s t ∧ regsKept s t [] := by
  have hexec : exec (.cbReady n) s = .next (s.cbReady n) := rfl
  rw [cbReady_eq s n b hb hr hup hdue hfirst, if_neg (by simpa using hcores)] at hexec
  exact ⟨_, hexec, rfl, rfl, fun _ => rfl, fun _ _ => rfl⟩

end Sys2Proof.Machine
end

section
/-!
SUPPORT. The end of a clause FAULTED (R386, R390, R431) and RUN_LIMIT: what it changes of the registers, the contexts and the latches.
-/

namespace Sys2Proof.Machine

variable (s : State)

/-! ## Which registers the end of a clause changes -/

namespace Changes

variable {W : Nat → Fld → Prop} {s t : State}

theorem lschCount (h : Changes W s t) {c n : Nat} (hw : W (R.lschCount c) F.lschCount_count) : Changes W s (t.lschCount c n) := h.count hw

theorem breakLatches (h : Changes W s t) {l : List Nat} (hw : W R.latchCounts F.latchCounts_brokenSet) : Changes W s (t.breakLatches l) :=
  h.foldl fun _ _ _ h => Changes.count h.frame hw

theorem report (h : Changes W s t) {l : Lost} (hw : ∀ f, W R.fltStatus f) : Changes W s (t.report l) :=
  .ite (fun _ => h) fun _ => .ite (fun _ => Changes.latch h.frame (hw _)) fun _ => Changes.setFld h.frame (hw _)

theorem qmDrop (h : Changes W s t) {c : Nat} (hc : W (R.qmDropCount c) F.qmDropCount_count) (hp : ∀ a f, unitOf a = 0x91 → W a f) :
    Changes W s (t.qmDrop c) :=
  have hcnt : ∀ i < 8, W (R.pmcCnt 0x91 i) F.pmcCnt_count := fun i hi => hp _ _ (by simp only [unitOf, R.pmcCnt]; omega)
  have hctl : ∀ i < 8, W (R.pmcCtl 0x91) ⟨16 + i, 16 + i⟩ := fun _ _ => hp _ _ (by decide)
  ((h.count hc).pmcEvent hcnt hctl).pmcEvent hcnt hctl

/-- An object lost is counted where it came from. -/
theorem loseHeld (h : Changes W s t) {src cls code : Nat} {o : Held} (hd : ∀ i, W (R.dfpMsgDisc i) F.dfpMsgDisc_count)
    (hp : ∀ a f, unitOf a = 0x91 → W a f) (hr : ∀ f, W R.fltStatus f) : Changes W s (t.loseHeld src cls code o) := by
  have hheld : Changes W s (t.discardHeld o) := .ite (fun _ => h) fun _ => h.frame
  exact .ite (fun _ => (hheld.count (hd _)).report hr) fun _ => (hheld.qmDrop (hp _ _ (by decide)) hp).report hr

theorem fireNode (h : Changes W s t) {node kind info : Nat} {late : Bool} (hw : W (R.lschCount 2) F.lschCount_count) :
    Changes W s (t.fireNode node kind late info) :=
  .ite (fun _ => h) fun _ => .ite (fun _ => h.frame) fun _ => h.lschCount hw

theorem levelAgain (h : Changes W s t) {node : Nat} (hw : W (R.lschCount 2) F.lschCount_count) : Changes W s (t.levelAgain node) :=
  h.foldl fun _ _ _ h => .ite (fun _ => h.fireNode hw) fun _ => h

end Changes

/-! ## The end FAULTED in its steps -/

/-- The latches of a clause are broken, and it no longer waits. -/
def State.faultBroken (s : State) (cl : Clause) : State :=
  let t := (s.breakLatches cl.latches).pmcEvent (0xA0 + cl.core) 3
  { t with lsch := { t.lsch with waits := t.lsch.waits.filter (fun w => w.1 != cl.uid) } }

/-- The objects of a context are lost. -/
def State.faultLost (s : State) (t : Ctx) (src cls code : Nat) : State := t.objects.foldl (fun s h => s.loseHeld src cls code h) s

/-- A block completes FAULTED, a node's level sources fire again. -/
def State.faultClosed (s : State) (cl : Clause) (code : Nat) : State :=
  if cl.block then (s.completeBlock cl.seq 2 code (0x700 + cl.core) 0).freeStore cl.node else s.levelAgain cl.node

theorem clauseFaults_eq (cl : Clause) (t : Ctx) (src cls code pc word imm : Nat) : ∃ l, s.clauseFaults cl t src cls code pc word imm =
    ((((s.faultBroken cl).faultLost t src cls code).lschCount 8).report l).faultClosed cl code := ⟨_, rfl⟩

variable {s} in
theorem Changes.faultBroken {W : Nat → Fld → Prop} {u : State} (h : Changes W s u) {cl : Clause} (hl : W R.latchCounts F.latchCounts_brokenSet)
    (hc : ∀ i < 8, W (R.pmcCnt (0xA0 + cl.core) i) F.pmcCnt_count) (ho : ∀ i < 8, W (R.pmcCtl (0xA0 + cl.core)) ⟨16 + i, 16 + i⟩) :
    Changes W s (u.faultBroken cl) := ((h.breakLatches hl).pmcEvent hc ho).frame

variable {s} in
theorem Changes.faultClosed {W : Nat → Fld → Prop} {u : State} (h : Changes W s u) {cl : Clause} {code : Nat}
    (h2 : W (R.lschCount 2) F.lschCount_count) (h12 : W (R.lschCount 12) F.lschCount_count) : Changes W s (u.faultClosed cl code) :=
  .ite (fun _ => Changes.frame (Changes.lschCount h.frame h12)) fun _ => h.levelAgain h2

/-- Up to its own count the end FAULTED leaves the counter of such ends. -/
theorem changes_faultLost (cl : Clause) (t : Ctx) (src cls code : Nat) :
    Changes (fun a _ => a ≠ R.lschCount 8) s ((s.faultBroken cl).faultLost t src cls code) := by
  have hbroken : Changes (fun a _ => a ≠ R.lschCount 8) s (s.faultBroken cl) :=
    Changes.refl.faultBroken (by decide) (fun i hi => by simp only [R.pmcCnt, R.lschCount]; omega)
      fun i hi => by simp only [R.pmcCtl, R.lschCount]; omega
  refine hbroken.foldl fun _ _ _ h => h.loseHeld (fun i => ?_) (fun a f ha => ?_) fun _ => by decide
  · simp only [R.dfpMsgDisc, R.lschCount]
    omega
  · rintro rfl
    exact absurd ha (by decide)

theorem clauseFaults_counted (cl : Clause) (t : Ctx) (src cls code pc word imm : Nat) :
    counted s (s.clauseFaults cl t src cls code pc word imm) (R.lschCount 8) F.lschCount_count := by
  obtain ⟨l, heq⟩ := clauseFaults_eq s cl t src cls code pc word imm
  have hafter : ∀ u : State, Changes (fun a _ => a ≠ R.lschCount 8) u ((u.report l).faultClosed cl code) := fun u =>
    (Changes.refl.report fun _ => by decide).faultClosed (by decide) (by decide)
  rw [heq]
  exact counted_count ((changes_faultLost s cl t src cls code).fld fun g hg => absurd rfl hg) ((hafter _).fld fun g hg => absurd rfl hg)
    (by decide) (by decide)

theorem clauseFaults_mem (cl : Clause) (t : Ctx) (src cls code pc word imm : Nat) : (s.clauseFaults cl t src cls code pc word imm).mem = s.mem := by
  obtain ⟨l, heq⟩ := clauseFaults_eq s cl t src cls code pc word imm
  have hafter : ∀ u : State, Changes (fun _ _ => True) u (((u.lschCount 8).report l).faultClosed cl code) := fun u =>
    ((Changes.refl.lschCount trivial).report fun _ => trivial).faultClosed trivial trivial
  rw [heq]
  exact (hafter _).1.trans (changes_faultLost s cl t src cls code).1

/-- A clause that holds no object changes registers of the log, the scheduler, the latch bank and its core alone. -/
theorem clauseFaults_units (cl : Clause) (t : Ctx) (src cls code pc word imm : Nat) (h : t.objects = []) :
    unitsKept s (s.clauseFaults cl t src cls code pc word imm) [0x04, 0x9A, 0x9B, 0xA0 + cl.core] := by
  obtain ⟨l, heq⟩ := clauseFaults_eq s cl t src cls code pc word imm
  have hlost : (s.faultBroken cl).faultLost t src cls code = s.faultBroken cl := by rw [State.faultLost, h, List.foldl_nil]
  have hcore : ∀ {a}, unitOf a = 0xA0 + cl.core → unitOf a ∈ [0x04, 0x9A, 0x9B, 0xA0 + cl.core] := fun h => by simp [h]
  have hsched : ∀ {a}, unitOf a = 0x9A → unitOf a ∈ [0x04, 0x9A, 0x9B, 0xA0 + cl.core] := fun h => by simp [h]
  have hbank : ∀ {a}, unitOf a = 0x9B → unitOf a ∈ [0x04, 0x9A, 0x9B, 0xA0 + cl.core] := fun h => by simp [h]
  have hlog : ∀ {a}, unitOf a = 0x04 → unitOf a ∈ [0x04, 0x9A, 0x9B, 0xA0 + cl.core] := fun h => by simp [h]
  have hbroken : Changes (fun a _ => unitOf a ∈ [0x04, 0x9A, 0x9B, 0xA0 + cl.core]) s (s.faultBroken cl) :=
    Changes.refl.faultBroken (hbank (by decide)) (fun i hi => hcore (by simp only [unitOf, R.pmcCnt]; omega))
      fun i hi => hcore (by simp only [unitOf, R.pmcCtl]; omega)
  rw [heq, hlost]
  exact (((hbroken.lschCount (hsched (by decide))).report fun _ => hlog (by decide)).faultClosed (hsched (by decide))
    (hsched (by decide))).unitsKept

/-! ## What the end FAULTED spares: contexts, latches and wires -/

/-- The contexts, the latch bank and the error pairs of `t` are those of `s`. -/
def SparesLim (s t : State) : Prop := t.lsch.cores = s.lsch.cores ∧ t.lsch.latches = s.lsch.latches ∧ t.wires = s.wires

namespace SparesLim

variable {s t : State}

@[refl] theorem refl : SparesLim s s := ⟨rfl, rfl, rfl⟩

theorem trans {u : State} (h : SparesLim s t) (h' : SparesLim t u) : SparesLim s u :=
  ⟨h'.1.trans h.1, h'.2.1.trans h.2.1, h'.2.2.trans h.2.2⟩

theorem of_lsch {u : State} (h : SparesLim s t) (hl : u.lsch = t.lsch) (hw : u.wires = t.wires) : SparesLim s u :=
  h.trans ⟨by rw [hl], by rw [hl], hw⟩

theorem ite {c : Prop} [Decidable c] {u : State} (h : SparesLim s t) (h' : SparesLim s u) : SparesLim s (if c then t else u) := by
  split
  · exact h
  · exact h'

theorem foldl {α} {f : State → α → State} {l : List α} (h : SparesLim s t) (hf : ∀ t x, SparesLim s t → SparesLim s (f t x)) :
    SparesLim s (l.foldl f t) :=
  List.foldlRecOn (motive := SparesLim s) l f h fun t ht x _ => hf t x ht

theorem count (h : SparesLim s t) {a : Nat} {f : Fld} {n : Nat} : SparesLim s (t.count a f n) := h.of_lsch (by simp) (by simp)

theorem pmcEvent (h : SparesLim s t) {v code n : Nat} : SparesLim s (t.pmcEvent v code n) := h.of_lsch (by simp) (by simp)

theorem report (h : SparesLim s t) {l : Lost} : SparesLim s (t.report l) := h.of_lsch (by simp) (by simp)

theorem loseHeld (h : SparesLim s t) {src cls code : Nat} {o : Held} : SparesLim s (t.loseHeld src cls code o) := by
  have hheld : SparesLim s (t.discardHeld o) := .ite h (h.of_lsch (setDieUsed_lsch ..) (setDieUsed_wires ..))
  exact .ite hheld.count.report hheld.count.pmcEvent.pmcEvent.report

theorem fireNode (h : SparesLim s t) {node kind info : Nat} {late : Bool} : SparesLim s (t.fireNode node kind late info) :=
  .ite h (.ite h h.count)

theorem faultClosed (h : SparesLim s t) {cl : Clause} {code : Nat} : SparesLim s (t.faultClosed cl code) :=
  .ite (h.count (a := R.lschCount 12) (f := F.lschCount_count) (n := 1)) (h.foldl fun _ _ h => .ite h.fireNode h)

end SparesLim

/-- Beyond the broken latches the end of a clause spares contexts, latches and wires. -/
theorem sparesLim_clauseFaults (cl : Clause) (t : Ctx) (src cls code pc word imm : Nat) :
    SparesLim (s.breakLatches cl.latches) (s.clauseFaults cl t src cls code pc word imm) := by
  obtain ⟨l, heq⟩ := clauseFaults_eq s cl t src cls code pc word imm
  have hbroken : SparesLim (s.breakLatches cl.latches) (s.faultBroken cl) := SparesLim.refl.pmcEvent
  rw [heq]
  exact (hbroken.foldl fun _ _ h => h.loseHeld).count.report.faultClosed

theorem breakLatches_cores (l : List Nat) : (s.breakLatches l).lsch.cores = s.lsch.cores :=
  foldl_keep (fun s => s.lsch.cores) (fun s n => (s.setLbank n ⟨none, true⟩).count R.latchCounts F.latchCounts_brokenSet) (fun _ _ => rfl) l s

theorem breakLatches_wires (l : List Nat) : (s.breakLatches l).wires = s.wires :=
  foldl_keep State.wires (fun s n => (s.setLbank n ⟨none, true⟩).count R.latchCounts F.latchCounts_brokenSet) (fun _ _ => rfl) l s

/-- The latches of a list are BROKEN and free, the others stay. -/
theorem lbank_breakLatches (l : List Nat) (n : Nat) : (s.breakLatches l).lbank n = if n ∈ l then ⟨none, true⟩ else s.lbank n := by
  induction l generalizing s with
  | nil => simp [State.breakLatches]
  | cons m l ih =>
    have hbreak : ((s.setLbank m ⟨none, true⟩).count R.latchCounts F.latchCounts_brokenSet).lbank n =
        (s.setLbank m ⟨none, true⟩).lbank n := rfl
    rw [State.breakLatches, List.foldl_cons, ← State.breakLatches, ih, hbreak]
    by_cases hn : n = m
    · subst hn
      simp
    · simp [hn, lbank_setLbank_other s _ hn]

/-! ## RUN_LIMIT -/

theorem runLimit_nothing (c : CoreId) (x : CtxId) (h : s.fld R.lschCfg F.lschCfg_runLimit = 0 ∨ (s.ctx c x).clause = none) :
    exec (.runLimit c x) s = .next s := by
  refine congrArg Host.Outcome.next ?_
  unfold State.runLimit
  rcases h with h | h
  · dsimp only
    split
    · rfl
    · exact if_pos (.inl h)
  · simp only [h]

/-- A clause past RUN_LIMIT with nothing in flight ends FAULTED with that exception. -/
theorem exec_runLimit (c : CoreId) (x : CtxId) (cl : Clause) (hl : s.fld R.lschCfg F.lschCfg_runLimit ≠ 0) (hcl : (s.ctx c x).clause = some cl)
    (hw : (s.ctx c x).wait = none ∨ (s.ctx c x).atLatch = true) (hr : (s.ctx c x).refused = none)
    (hp : ∀ w ∈ (s.core c).posted, w.uid ≠ cl.uid) : ∃ pc word, exec (.runLimit c x) s =
      .next (((s.setCtx c x {}).clauseFaults cl (s.ctx c x) Src.lim 1 Exc.runLimit pc word 0).signal Src.lim 1 Exc.runLimit) := by
  have hflight : ¬((s.ctx c x).wait.isSome = true ∧ (!(s.ctx c x).atLatch) = true) := by
    rintro ⟨h, h'⟩
    rcases hw with hw | hw
    · simp [hw] at h
    · simp [hw] at h'
  have hposted : (s.core c).posted.any (fun w => w.uid == cl.uid) = false := by simpa [List.any_eq_false] using hp
  have hfault : ∀ pc word, s.limFault c x Exc.runLimit pc word =
      ((s.setCtx c x {}).clauseFaults cl (s.ctx c x) Src.lim 1 Exc.runLimit pc word 0).signal Src.lim 1 Exc.runLimit := fun pc word => by
    unfold State.limFault
    simp only [hcl]
    rfl
  refine ⟨(s.ctx c x).pc.toNat, (s.fetchLim c (s.ctx c x) cl).toNat, congrArg Host.Outcome.next ?_⟩
  rw [← hfault]
  unfold State.runLimit
  simp only [hcl, hl, hflight, hposted, hr, false_or, Bool.false_eq_true, if_false]

theorem runLimit_faults (c : CoreId) (x : CtxId) (cl : Clause) (hl : s.fld R.lschCfg F.lschCfg_runLimit ≠ 0) (hcl : (s.ctx c x).clause = some cl)
    (hw : (s.ctx c x).wait = none ∨ (s.ctx c x).atLatch = true) (hr : (s.ctx c x).refused = none)
    (hp : ∀ w ∈ (s.core c).posted, w.uid ≠ cl.uid) :
    ∃ t : State, exec (.runLimit c x) s = .next t ∧ t.ctx c x = {} ∧ t.wires = s.wires ++ [(Src.lim, 1, Exc.runLimit)] ∧
      (∀ n ∈ cl.latches, t.lbank n = ⟨none, true⟩) ∧ (∀ n, n ∉ cl.latches → t.lbank n = s.lbank n) ∧
      counted s t (R.lschCount 8) F.lschCount_count ∧ memKept s t ∧
      ((s.ctx c x).objects = [] → cl.block = false → cl.core = c.val → s.lsch.bindings = [] →
        unitsKept s t [0x04, 0x9A, 0x9B, 0xA0 + c.val]) := by
  obtain ⟨pc, word, hexec⟩ := exec_runLimit s c x cl hl hcl hw hr hp
  obtain ⟨hcores, hlatches, hwires⟩ := sparesLim_clauseFaults (s.setCtx c x {}) cl (s.ctx c x) Src.lim 1 Exc.runLimit pc word 0
  have hcount := clauseFaults_counted (s.setCtx c x {}) cl (s.ctx c x) Src.lim 1 Exc.runLimit pc word 0
  have hmem := clauseFaults_mem (s.setCtx c x {}) cl (s.ctx c x) Src.lim 1 Exc.runLimit pc word 0
  have hunits := clauseFaults_units (s.setCtx c x {}) cl (s.ctx c x) Src.lim 1 Exc.runLimit pc word 0
  generalize (s.setCtx c x {}).clauseFaults cl (s.ctx c x) Src.lim 1 Exc.runLimit pc word 0 = u at hexec hcores hlatches hwires hcount hmem hunits
  have hlbank : ∀ n, u.lbank n = if n ∈ cl.latches then ⟨none, true⟩ else s.lbank n := fun n =>
    (lbank_congr _ hlatches n).trans (lbank_breakLatches _ _ n)
  have hctx : u.ctx c x = {} := (ctx_congr _ (hcores.trans (breakLatches_cores _ _)) c x).trans (ctx_setCtx_same s c x {})
  have hpairs : u.wires = s.wires := hwires.trans (breakLatches_wires _ _)
  exact ⟨u.signal Src.lim 1 Exc.runLimit, hexec, hctx, congrArg (· ++ [(Src.lim, 1, Exc.runLimit)]) hpairs,
    fun n hn => (hlbank n).trans (if_pos hn), fun n hn => (hlbank n).trans (if_neg hn), hcount, memKept_of_eq hmem,
    fun hobj _ hcore _ => hcore ▸ hunits hobj⟩

end Sys2Proof.Machine
end

section
namespace Sys2Proof.Machine

/-- Settles O38: resumption, RUN_LIMIT, grants, the wait-for detector and the blocks each as stated above, instruction by instruction. -/
theorem clausesResumeWaitAndFail : Obligations.ClausesResumeWaitAndFail := fun s =>
  ⟨swapBufferDrain_empty s, swapBufferDrain_drains s, clauseResume_resumes s, runLimit_nothing s, runLimit_faults s, latchGrant_nothing s,
    latchGrant_grants s, fun h _ => deadlockDetect_none s h,
    fun _ _ _ n _ _ hus hdead hlast hcl hwait => deadlockDetect_answers (n := n) s (by subst hus hdead; exact hlast) hcl hwait,
    fun u v m n cl _ rd hne hw hm hn _ hu hcl _ hwait => deadlockDetect_mutual s u v m n cl rd hne hw hm hn hu hcl hwait,
    fun n b hb hr hup => ⟨cbReady_notDue s n b hb, fun hdue hfirst =>
      ⟨cbReady_refused s n b hb hr hup hdue hfirst, cbReady_fires s n b hb hr hup hdue hfirst⟩⟩⟩

end Sys2Proof.Machine
end

section
/-!
SUPPORT. What a lane's operations set in motion on the data path: a frame is drained (R85 to R112), a burst is cut (R50, R51, R136), the
timing plane is chosen again (R192, R195). All of it happens in the registers of `PathReg`, outside the memory and the lanes: `Passes s t` says
so, with one lemma for each operation on the way, in the model's order.
-/

namespace Sys2Proof.Machine

/-! ## The registers of the data path -/

/-- The registers that packets, parcels, messages and bursts change on their way, and those of TIME: FLT, TIME, QM, the pipes, CIRC, DMA,
LSCH and UBB, every counter block, and of DFP the dispositions, the defects of the planes and their counters. -/
def PathReg (a : Nat) : Prop :=
  unitOf a ∈ [0x04, 0x05, 0x91, 0x93, 0x94, 0x96, 0x98, 0x9A] ∨ 0xF100000000 ≤ a ∨ (0xF000 ≤ offOf a ∧ offOf a < 0xF058) ∨
    (unitOf a = 0xF0 ∧ (0x80 ≤ offOf a ∧ offOf a < 0x100 ∨
      0x1000 ≤ offOf a ∧ (offOf a % 0x80 = 0x08 ∨ 0x30 ≤ offOf a % 0x80)))

theorem pathReg_of_unit {a : Nat} (h : unitOf a ∈ [0x04, 0x05, 0x91, 0x93, 0x94, 0x96, 0x98, 0x9A]) : PathReg a := .inl h

/-- A counter or the defects of a plane in DFP, whatever the plane's number. -/
theorem pathReg_plane {a : Nat} (k i : Nat) (ha : a = 0xF000000000 + (0x1000 + k) + 0x80 * i) (hk : k = 0x08 ∨ 0x30 ≤ k ∧ k < 0x80) :
    PathReg a := by
  simp only [PathReg, unitOf, offOf]
  omega

@[simp] theorem pathReg_dfpPlaneDefect (i : Nat) : PathReg (R.dfpPlaneDefect i) := pathReg_plane 0x08 i rfl (by decide)
@[simp] theorem pathReg_dfpGrantsAcc (i : Nat) : PathReg (R.dfpGrantsAcc i) := pathReg_plane 0x30 i rfl (by decide)
@[simp] theorem pathReg_dfpGrantsDisc (i : Nat) : PathReg (R.dfpGrantsDisc i) := pathReg_plane 0x38 i rfl (by decide)
@[simp] theorem pathReg_dfpMsgRx (i : Nat) : PathReg (R.dfpMsgRx i) := pathReg_plane 0x40 i rfl (by decide)
@[simp] theorem pathReg_dfpMsgDisc (i : Nat) : PathReg (R.dfpMsgDisc i) := pathReg_plane 0x48 i rfl (by decide)
@[simp] theorem pathReg_dfpMsgUnknown (i : Nat) : PathReg (R.dfpMsgUnknown i) := pathReg_plane 0x50 i rfl (by decide)
@[simp] theorem pathReg_dfpParcels (i : Nat) : PathReg (R.dfpParcels i) := pathReg_plane 0x58 i rfl (by decide)
@[simp] theorem pathReg_dfpParcelBytes (i : Nat) : PathReg (R.dfpParcelBytes i) := pathReg_plane 0x60 i rfl (by decide)
@[simp] theorem pathReg_dfpHuntBits (i : Nat) : PathReg (R.dfpHuntBits i) := pathReg_plane 0x68 i rfl (by decide)

theorem pathReg_dfpDispCount {i : Nat} (h : i < 16) : PathReg (R.dfpDispCount i) := by
  simp only [PathReg, unitOf, offOf, R.dfpDispCount]
  omega

@[simp] theorem pathReg_ubbBdispCount (i : Nat) : PathReg (R.ubbBdispCount i) := .inr (.inl (by simp only [R.ubbBdispCount]; omega))
@[simp] theorem pathReg_ubbPdispCount (i : Nat) : PathReg (R.ubbPdispCount i) := .inr (.inl (by simp only [R.ubbPdispCount]; omega))
@[simp] theorem pathReg_fltStatus : PathReg R.fltStatus := pathReg_of_unit (by decide)
@[simp] theorem pathReg_lschCount : PathReg (R.lschCount 6) := pathReg_of_unit (by decide)

@[simp] theorem pathReg_qmDropCount : PathReg (R.qmDropCount 8) := pathReg_of_unit (by decide)

theorem pathReg_circCount {i : Nat} (h : i < 16) : PathReg (R.circCount i) :=
  pathReg_of_unit (by simp only [unitOf, R.circCount, List.mem_cons]; omega)

theorem pathReg_dmaChRingIdx {i : Nat} (h : i < 512) : PathReg (R.dmaChRingIdx i) :=
  pathReg_of_unit (by simp only [unitOf, R.dmaChRingIdx, List.mem_cons]; omega)

theorem pathReg_pipePkts (d : Dir) {i : Nat} (h : i < 8) : PathReg (R.pipePkts d.unit i) :=
  pathReg_of_unit (by cases d <;> simp only [unitOf, R.pipePkts, Dir.unit, List.mem_cons] <;> omega)

theorem pathReg_pipeDrop {i : Nat} (h : i < 8) : PathReg (R.pipeDrop 1 i) :=
  pathReg_of_unit (by simp only [unitOf, R.pipeDrop, List.mem_cons]; omega)

theorem pathReg_pmcCnt (v : Nat) {i : Nat} (h : i < 8) : PathReg (R.pmcCnt v i) :=
  .inr (.inr (.inl (by simp only [offOf, R.pmcCnt]; omega)))

theorem pathReg_pmcCtl (v : Nat) : PathReg (R.pmcCtl v) := .inr (.inr (.inl (by simp only [offOf, R.pmcCtl]; omega)))

/-! ## What happens on the data path alone -/

/-- `t` has the memory and the lanes of `s`, and its registers outside the data path. -/
def Passes (s t : State) : Prop := Changes (fun a _ => PathReg a) s t ∧ t.med = s.med

namespace Passes

variable {s t u : State}

@[refl] theorem refl : Passes s s := ⟨.refl, rfl⟩

/-! ### Rules -/

theorem setFld (h : Passes s t) {a : Nat} {f : Fld} {v : Nat} (ha : PathReg a) : Passes s (t.setFld a f v) := ⟨h.1.setFld ha, h.2⟩

theorem count (h : Passes s t) {a : Nat} {f : Fld} {n : Nat} (ha : PathReg a) : Passes s (t.count a f n) := h.setFld ha

/-- A component of the state other than the registers, the memory and the lanes is replaced. -/
theorem frame {p f e w df ub wd en ti cl qm ci cr cp fl ls ho tw pr pw mo ta} (h : Passes s t) :
    Passes s ⟨p, t.regs, t.mem, f, e, w, t.med, df, ub, wd, en, ti, cl, qm, ci, cr, cp, fl, ls, ho, tw, pr, pw, mo, ta⟩ := h

theorem ite {c : Prop} [Decidable c] (h : c → Passes s t) (h' : ¬c → Passes s u) : Passes s (if c then t else u) := by
  split
  · exact h ‹_›
  · exact h' ‹_›

theorem foldl {α} {f : State → α → State} {l : List α} (h : Passes s t) (hf : ∀ t x, Passes s t → Passes s (f t x)) :
    Passes s (l.foldl f t) :=
  List.foldlRecOn (motive := Passes s) l f h fun t ht x _ => hf t x ht

theorem latch (h : Passes s t) {a : Nat} {f : Fld} (ha : PathReg a) : Passes s (t.latch a f) :=
  ⟨h.1.latch ha, (latch_med t a f).trans h.2⟩

theorem pmcEvent (h : Passes s t) {v code n : Nat} : Passes s (t.pmcEvent v code n) :=
  ⟨h.1.pmcEvent (fun _ hi => pathReg_pmcCnt v hi) fun _ _ => pathReg_pmcCtl v, (pmcEvent_med t v code n).trans h.2⟩

/-! ### Packets, records and tokens -/

theorem tokenOrDrop (h : Passes s t) {node : Nat} {v : Word} : Passes s (t.tokenOrDrop node v) := by
  have htoken : Passes s (t.token node v).1 := by
    simp only [State.token, apply_ite Prod.fst]
    exact .ite (fun _ => h) fun _ => .ite (fun _ => h) fun _ => .ite (fun _ => h.frame) fun _ => h.frame
  exact .ite (fun _ => htoken) fun _ => h.count (by simp)

theorem writeRecord (h : Passes s t) {c : Nat} {r : DmaRecord} (hc : c < 512) : Passes s (t.writeRecord c r) :=
  have hidx := (h.frame : Passes s (t.hostOut _)).setFld (pathReg_dmaChRingIdx hc)
  .ite (fun _ => hidx.frame) fun _ => hidx

theorem flushRecords (h : Passes s t) {c fuel : Nat} (hc : c < 512) : Passes s (t.flushRecords c fuel) := by
  induction fuel generalizing t with
  | zero => exact h
  | succ fuel ih =>
    unfold State.flushRecords
    split
    · exact h
    · exact .ite (fun _ => h) fun _ => ih (h.writeRecord hc).frame

theorem departure (h : Passes s t) {p : Pkt} {status : Nat} {stamp : Word} : Passes s (t.departure p status stamp) := by
  refine .ite (fun _ => h) fun hret => .ite (fun hring => .ite (fun _ => h) fun _ => ?_) fun _ =>
    .ite (fun _ => h.tokenOrDrop) fun _ => h
  exact (h.frame : Passes s (t.setChan _ _)).flushRecords (by omega)

theorem report (h : Passes s t) {l : Lost} : Passes s (t.report l) :=
  ⟨h.1.report fun _ => pathReg_fltStatus, (report_med t l).trans h.2⟩

theorem qmDrop (h : Passes s t) : Passes s (t.qmDrop 8) := (h.count (by simp)).pmcEvent.pmcEvent

theorem releaseCells (h : Passes s t) {q : Nat} {p : QPkt} : Passes s (t.releaseCells q p) := by
  have hslow : Passes s (if t.isSlow q then t.setSlowUsed p.pkt.dir (t.slowUsed p.pkt.dir - cellsOf p.pkt.bytes.length) else t) :=
    .ite (fun _ => h.frame) fun _ => h
  unfold State.releaseCells
  cases p.medium <;> exact hslow.frame

theorem refreshReads (h : Passes s t) {q : Nat} : Passes s (t.refreshReads q) := .ite (fun _ => h) fun _ => h.frame

theorem settle (h : Passes s t) {q : Nat} : Passes s (t.settle q) :=
  have hq : Passes s (if (t.queue q).joined.isEmpty then t.setNode q { t.node q with deficit := 0 } else t) :=
    .ite (fun _ => h.frame) fun _ => h
  .ite (fun _ => hq.frame) fun _ => hq

theorem removePkt (h : Passes s t) {q id : Nat} : Passes s (t.removePkt q id) := by
  unfold State.removePkt
  split
  · exact h
  · exact (h.releaseCells.frame : Passes s (State.setQueue _ _ _)).refreshReads.pmcEvent

/-! ### Bursts -/

theorem loseRest (h : Passes s t) {p : Pkt} : Passes s (t.loseRest p) := frame (h.removePkt.settle.foldl fun _ _ h => h.frame)

theorem pdisp (h : Passes s t) {code n : Nat} : Passes s (t.pdisp code n) :=
  have hcount := h.count (by simp)
  .ite (fun _ => hcount.pmcEvent) fun _ => hcount

theorem bdisp (h : Passes s t) {code : Nat} : Passes s (t.bdisp code) := (h.count (by simp)).pmcEvent

theorem losePkt (h : Passes s t) {p : Pkt} {code : Nat} : Passes s (t.losePkt p code) :=
  have hp := h.loseRest.pdisp.departure
  .ite (fun _ => hp.report) fun _ => hp

theorem circCount (h : Passes s t) {c n : Nat} (hc : c < 16) : Passes s (t.circCount c n) :=
  have hcount := h.count (pathReg_circCount hc)
  .ite (fun _ => hcount.pmcEvent) fun _ => .ite (fun _ => hcount.pmcEvent) fun _ => .ite (fun _ => hcount.pmcEvent) fun _ => hcount

/-- What a burst carried is lost part by part: packets, containers, messages. -/
theorem loseContent (h : Passes s t) {b : Build} {code : Nat} : Passes s (t.loseContent b code) := by
  refine h.foldl fun t x h => ?_
  have hpkt : Passes s (match x.pkt with | some p => t.losePkt p code | none => t) := by
    split
    · exact h.losePkt
    · exact h
  have hcont := hpkt.circCount (c := if code = 15 then 12 else 1) (n := 1) (by split <;> decide)
  dsimp only
  split <;> split
  · exact hcont.pdisp
  · exact hpkt.pdisp
  · exact hcont
  · exact hpkt

/-! ### Parcels, packets and messages of the medium -/

theorem disp (h : Passes s t) {code n : Nat} (hc : code < 16) : Passes s (t.disp code n) :=
  have hevent := (h.count (pathReg_dfpDispCount hc)).pmcEvent
  .ite (fun _ => hevent.pmcEvent) fun _ => hevent

theorem noCell (h : Passes s t) {parts : List Parcel} {held : Nat} : Passes s (t.noCell parts held) := by
  have hfree : Passes s (t.freeCells .dn held) := h.frame
  unfold State.noCell
  cases parts
  case nil => exact hfree
  case cons => exact .ite (fun _ => (hfree.disp (by decide)).qmDrop.report) fun _ => hfree.disp (by decide)

/-- Cells are taken outside the registers, the memory and the lanes. -/
theorem takeCells (h : Passes s t) {d : Dir} {inject : Bool} {n : Nat} (e : t.takeCells d inject n = some u) : Passes s u := by
  simp only [State.takeCells, Option.ite_none_left_eq_some, Option.ite_none_right_eq_some, Option.some.injEq] at e
  obtain ⟨_, _, rfl⟩ := e
  exact h.frame

theorem withCells (h : Passes s t) {parts : List Parcel} {held : Nat} {go : State → State}
    (hgo : ∀ t, Passes s t → Passes s (go t)) : Passes s (t.withCells parts held go) := by
  refine .ite (fun _ => hgo _ h.frame) fun _ => ?_
  split
  case h_1 e => exact hgo _ (h.takeCells e)
  case h_2 => exact h.noCell

theorem msgEnqueue (h : Passes s t) {m : Msg} : Passes s (t.msgEnqueue m).1 := by
  simp only [State.msgEnqueue, apply_ite Prod.fst]
  exact .ite (fun _ => h.count (by simp)) fun _ => .ite (fun _ => h.frame) fun _ => h.frame

theorem bandwidth (h : Passes s t) {rx : Bool} {c n : Nat} : Passes s (t.bandwidth rx c n) :=
  .ite (fun _ => h) fun _ => .ite (fun _ => h.frame) fun _ => h.frame

theorem delivered (h : Passes s t) {plane parts n : Nat} : Passes s (t.delivered plane parts n) :=
  (h.disp (by decide)).pmcEvent.bandwidth

theorem handMessage (h : Passes s t) {parts : List Parcel} {last : Parcel} : Passes s (t.handMessage parts last) :=
  .ite (fun _ => .ite (fun _ => h.msgEnqueue.delivered) fun _ => h.msgEnqueue.disp (by decide))
    fun _ => (h.disp (by decide)).count (by simp)

theorem pipeOf_lt (p : Pkt) : pipeOf p < 8 := by
  unfold pipeOf
  cases p.dir
  case up => exact Nat.mod_lt _ (by decide)
  case dn => dsimp only; split <;> exact Nat.mod_lt _ (by decide)

theorem enterPipe (h : Passes s t) {p : Pkt} : Passes s (t.enterPipe p) :=
  (count (t := { t.setPipe _ _ _ with qm := _ }) h.frame (pathReg_pipePkts p.dir (pipeOf_lt p))).pmcEvent

theorem handPacket (h : Passes s t) {parts : List Parcel} : Passes s (t.handPacket parts) := by
  cases parts
  case nil => exact h
  case cons =>
    refine .ite (fun _ => ?_) fun _ => h.enterPipe.delivered
    exact (disp (t := t.freeCells _ _) h.frame (by decide)).count (pathReg_pipeDrop (Nat.mod_lt _ (by decide)))

theorem handOff (h : Passes s t) {parts : List Parcel} {last : Parcel} : Passes s (t.handOff parts last) :=
  .ite (fun _ => handMessage h.frame) fun _ => h.handPacket

theorem reasmFresh (h : Passes s t) {f own : Nat} {p : Parcel} : Passes s (t.reasmFresh f p own) := by
  unfold State.reasmFresh
  split
  · exact h.withCells fun _ h => h.handOff
  · exact h.withCells fun _ h => h.frame
  · exact disp h.frame (by decide)

theorem reassemble (h : Passes s t) {p : Parcel} {own : Nat} : Passes s (t.reassemble p own) := by
  have hempty : Passes s (t.setReasm (phFlow p.hdr) {}) := h.frame
  have hbroken : Passes s ((t.freeCells .dn (partCells (t.reasm (phFlow p.hdr)).parts)).disp 7 (t.reasm (phFlow p.hdr)).parts.length) :=
    disp h.frame (by decide)
  refine .ite (fun _ => h.reasmFresh) fun _ => .ite (fun _ => reasmFresh hbroken.frame) fun _ =>
    .ite (fun _ => disp hempty.frame (by decide)) fun _ => ?_
  exact hempty.withCells fun _ h => .ite (fun _ => h.frame) fun _ => h.handOff

theorem rsqDrain (h : Passes s t) {f exp : Nat} {l : List Parcel} : Passes s (t.rsqDrain f exp l) := by
  induction l generalizing t exp with
  | nil => exact h.frame
  | cons p l ih => exact .ite (fun _ => ih h.reassemble) fun _ => h.frame

theorem rsqFlush (h : Passes s t) : Passes s t.rsqFlush := by
  refine h.foldl fun t f h => ?_
  unfold State.rsqRelease
  dsimp only
  split
  · exact h
  · exact (h.disp (by decide)).rsqDrain

/-! ### Frames -/

theorem grantEntry (h : Passes s t) {p : Nat} {e : Word} : Passes s (t.grantEntry p e) :=
  have hacc := (h.frame : Passes s (t.setDplane _ _)).count (by simp)
  .ite (fun _ => h) fun _ => .ite (fun _ => h.count (by simp)) fun _ => .ite (fun _ => hacc.bdisp) fun _ => hacc.frame

theorem grantArea (h : Passes s t) {p : Nat} : Passes s (t.grantArea p) :=
  have hdone : Passes s (t.setDplane p _) := h.frame
  .ite (fun _ => h) fun _ => .ite (fun _ => (hdone.count (by simp)).latch (by simp)) fun _ => hdone.foldl fun _ _ h => h.grantEntry

theorem msgStop (h : Passes s t) {p : Nat} : Passes s (t.msgStop p) := (h.frame : Passes s (t.setDplane _ _)).count (by simp)

theorem routeMsg (h : Passes s t) {m : Msg} : Passes s (t.routeMsg m) := by
  have hrouted : ∀ {u}, Passes s u → Passes s (u.msgRouted m.plane) := fun h => h.count (by simp)
  have hdeliver : Passes s (t.deliver m) := h.frame
  have henq := (Passes.ite (c := decide (m.body.length < (if msgType m = 0x0E then 8 else 16)) = true) (fun _ => h) fun _ => hdeliver).msgEnqueue (m := m)
  refine .ite (fun _ => .ite (fun _ => h.count (by simp)) fun _ => hrouted hdeliver) fun _ =>
    .ite (fun _ => ?_) fun _ => .ite (fun _ => ?_) fun _ => h.count (by simp)
  · exact .ite (fun _ => henq) fun _ => hrouted henq
  · exact .ite (fun _ => hrouted h.msgEnqueue) fun _ => h.msgEnqueue

theorem messageRx (h : Passes s t) {p : Nat} : Passes s (t.messageRx p) := by
  have hover := (h.latch (a := R.dfpPlaneDefect p) (f := F.dfpPlaneDefect_msgOverrun) (by simp)).msgStop (p := p)
  refine .ite (fun _ => h) fun _ => .ite (fun _ => hover) fun _ => .ite (fun _ => h) fun _ => .ite (fun _ => h.msgStop) fun _ =>
    .ite (fun _ => hover) fun _ => .ite (fun _ => h) fun _ => .ite (fun _ => h.msgStop) fun _ => ?_
  exact .ite (fun _ => routeMsg h.frame) fun _ => h.frame

theorem passOver (h : Passes s t) {p to_ : Nat} : Passes s (t.passOver p to_) := (h.count (by simp)).frame

theorem beginHunt (h : Passes s t) {p from_ : Nat} : Passes s (t.beginHunt p from_) :=
  .ite (fun _ => h.passOver) fun _ => (h.count (by simp)).frame

theorem parcelRead (h : Passes s t) {p : Nat} {hdr : BitVec 128} {payload : List Byte} {tag : BitVec 128} :
    Passes s (t.parcelRead p hdr payload tag) := by
  have hread : Passes s (t.pmcEvent 0xF0 1) := h.pmcEvent
  have hcount : Passes s (if phType hdr = 0 then t.pmcEvent 0xF0 1 else
      ((t.pmcEvent 0xF0 1).count (R.dfpParcels p) F.dfpParcels_count).count (R.dfpParcelBytes p) F.dfpParcelBytes_count (phLength hdr)) :=
    .ite (fun _ => hread) fun _ => (hread.count (by simp)).count (by simp)
  refine .ite (fun _ => (hcount.disp (by decide)).frame) fun _ => .ite (fun _ => disp hcount.frame (by decide)) fun _ =>
    .ite (fun _ => disp hcount.frame (by decide)) fun _ => .ite (fun _ => disp hcount.frame (by decide)) fun _ => ?_
  exact .ite (fun _ => disp hcount.frame (by decide)) fun _ => hcount.frame

theorem parcelRx (h : Passes s t) {p : Nat} : Passes s (t.parcelRx p) := by
  refine .ite (fun _ => h) fun _ => .ite (fun _ => h.frame) fun _ => .ite (fun _ => ?hunting) fun _ => ?reading
  case hunting =>
    refine .ite (fun _ => h.passOver) fun _ => .ite (fun _ => .ite (fun _ => h) fun _ => h.parcelRead) fun _ => .ite (fun _ => h) fun _ => ?_
    exact .ite (fun _ => h.parcelRead) fun _ => h.passOver
  case reading =>
    refine .ite (fun _ => h.beginHunt) fun _ => .ite (fun _ => (h.disp (by decide)).beginHunt) fun _ => ?_
    exact .ite (fun _ => h) fun _ => h.parcelRead

theorem drainParcels (h : Passes s t) {p fuel : Nat} : Passes s (t.drainParcels p fuel) := by
  induction fuel generalizing t with
  | zero => exact h
  | succ fuel ih => exact .ite (fun _ => h) fun _ => ih h.parcelRx

theorem drainFrame (h : Passes s t) {p : Nat} : Passes s (t.drainFrame p) :=
  frame (drainParcels (h.grantArea.foldl fun _ _ h => h.messageRx))

theorem retime (h : Passes s t) {b : Bool} : Passes s (t.retime b) := by
  have hcode : ∀ (t : State) c, (t.setCode c).med = t.med := fun t c => by unfold State.setCode; split <;> rfl
  have hswitch : ∀ (t : State) p, (t.switchTiming p).med = t.med := fun _ _ => rfl
  refine ⟨h.1.retime fun a _ ha => pathReg_of_unit (by simp [ha]), Eq.trans ?_ h.2⟩
  simp only [State.retime]
  split
  · rfl
  · split <;> simp only [setBit_med, apply_ite State.med, hcode, hswitch, ite_self]

end Passes
end Sys2Proof.Machine
end

section
/-!
SUPPORT. What a lane's operations leave (R32, R47, R50 to R56): beside the data path they change only listed fields of the lane's registers,
and neither the transmit PLL nor a run of good windows that has ended. `Moves l s t` says so.
-/

namespace Sys2Proof.Machine

/-! ## The registers of a lane lie beside the data path -/

@[simp] theorem not_pathReg_medLaneCfg (p : Plane) : ¬PathReg (R.medLaneCfg p) := by
  have := p.isLt
  simp only [PathReg, unitOf, offOf, R.medLaneCfg, List.mem_cons, List.not_mem_nil, or_false]
  omega

@[simp] theorem not_pathReg_medLaneStatus (p : Plane) : ¬PathReg (R.medLaneStatus p) := by
  have := p.isLt
  simp only [PathReg, unitOf, offOf, R.medLaneStatus, List.mem_cons, List.not_mem_nil, or_false]
  omega

@[simp] theorem not_pathReg_medDefect (p : Plane) : ¬PathReg (R.medDefect p) := by
  have := p.isLt
  simp only [PathReg, unitOf, offOf, R.medDefect, List.mem_cons, List.not_mem_nil, or_false]
  omega

@[simp] theorem not_pathReg_medTest (p : Plane) : ¬PathReg (R.medTest p) := by
  have := p.isLt
  simp only [PathReg, unitOf, offOf, R.medTest, List.mem_cons, List.not_mem_nil, or_false]
  omega

@[simp] theorem not_pathReg_dfpPlaneStatus (p : Plane) : ¬PathReg (R.dfpPlaneStatus p) := by
  have := p.isLt
  simp only [PathReg, unitOf, offOf, R.dfpPlaneStatus, List.mem_cons, List.not_mem_nil, or_false]
  omega

/-! ## Registers of a lane differ -/

@[simp] theorem dfpPlaneStatus_ne_medLaneStatus (p : Nat) : R.dfpPlaneStatus p ≠ R.medLaneStatus p := by
  simp only [R.dfpPlaneStatus, R.medLaneStatus]; omega

@[simp] theorem medLaneStatus_ne_dfpPlaneStatus (p : Nat) : R.medLaneStatus p ≠ R.dfpPlaneStatus p := (dfpPlaneStatus_ne_medLaneStatus p).symm

@[simp] theorem dfpPlaneStatus_ne_medDefect (p : Nat) : R.dfpPlaneStatus p ≠ R.medDefect p := by
  simp only [R.dfpPlaneStatus, R.medDefect]; omega

@[simp] theorem dfpPlaneStatus_ne_medTest (p : Nat) : R.dfpPlaneStatus p ≠ R.medTest p := by
  simp only [R.dfpPlaneStatus, R.medTest]; omega

@[simp] theorem medLaneCfg_ne_medLaneStatus (p q : Nat) : R.medLaneCfg p ≠ R.medLaneStatus q := by
  simp only [R.medLaneCfg, R.medLaneStatus]; omega

@[simp] theorem medTest_ne_medLaneStatus (p q : Nat) : R.medTest p ≠ R.medLaneStatus q := by
  simp only [R.medTest, R.medLaneStatus]; omega

@[simp] theorem medDefect_ne_medLaneStatus (p q : Nat) : R.medDefect p ≠ R.medLaneStatus q := by
  simp only [R.medDefect, R.medLaneStatus]; omega

@[simp] theorem medLaneCfg_ne_dfpPlaneStatus (p : Plane) (q : Nat) : R.medLaneCfg p ≠ R.dfpPlaneStatus q := by
  simp only [R.medLaneCfg, R.dfpPlaneStatus]; omega

/-! ## The lane's own state -/

@[simp] theorem lane_setLane_same (s : State) (p : Nat) (l : MedLane) : (s.setLane p l).lane p = l := by simp [State.lane, State.setLane]

theorem lane_setLane_other (s : State) {p q : Nat} (l : MedLane) (h : q ≠ p) : (s.setLane p l).lane q = s.lane q := by
  simp [State.lane, State.setLane, h]

theorem lane_congr {s t : State} (h : t.med = s.med) (p : Nat) : t.lane p = s.lane p := by rw [State.lane, State.lane, h]

@[simp] theorem dplane_setDplane_same (s : State) (p : Nat) (d : DfpPlane) : (s.setDplane p d).dplane p = d := by
  simp [State.dplane, State.setDplane]

theorem dplane_congr {s t : State} (h : t.dfp = s.dfp) (p : Nat) : t.dplane p = s.dplane p := by rw [State.dplane, State.dplane, h]

theorem aligned_congr {s t : State} {p : Nat} (h : t.reg (R.dfpPlaneStatus p) = s.reg (R.dfpPlaneStatus p)) : t.aligned p = s.aligned p := by
  rw [State.aligned, State.aligned, State.fld, State.fld, h]

theorem not_aligned {s : State} {p : Nat} (h : s.fld (R.dfpPlaneStatus p) F.dfpPlaneStatus_align ≠ 2) : s.aligned p = false := by
  simpa [State.aligned] using h

/-! ## Fields that operations of a lane change -/

/-- The fields of a list, and the registers of the data path. -/
abbrev besides (l : List (Nat × Fld)) (a : Nat) (f : Fld) : Prop := PathReg a ∨ (a, f) ∈ l

/-- The driver at rest (R47, R51). -/
def driverFields (p : Nat) : List (Nat × Fld) := [(R.medLaneStatus p, F.medLaneStatus_txIdle), (R.medLaneStatus p, F.medLaneStatus_mben)]

/-- A hunt that starts anew (R32). -/
def huntFields (p : Nat) : List (Nat × Fld) :=
  (R.medLaneStatus p, F.medLaneStatus_rate) :: (R.medLaneStatus p, F.medLaneStatus_hunting) :: driverFields p

/-- A plane that goes to SEARCH. -/
def searchFields (p : Nat) : List (Nat × Fld) :=
  (R.dfpPlaneStatus p, F.dfpPlaneStatus_align) :: (R.dfpPlaneStatus p, F.dfpPlaneStatus_miss) ::
    (R.dfpPlaneStatus p, F.dfpPlaneStatus_sd) :: huntFields p

/-- LOL asserted (R54, R55). -/
def lolFields (p : Nat) : List (Nat × Fld) :=
  (R.medLaneStatus p, F.medLaneStatus_lol) :: (R.medDefect p, F.medDefect_lol) :: searchFields p

theorem driverFields_subset (p : Nat) : driverFields p ⊆ huntFields p := fun _ h => .tail _ (.tail _ h)
theorem huntFields_subset (p : Nat) : huntFields p ⊆ searchFields p := fun _ h => .tail _ (.tail _ (.tail _ h))
theorem searchFields_subset (p : Nat) : searchFields p ⊆ lolFields p := fun _ h => .tail _ (.tail _ h)

/-- Beside the data path `t` differs from `s` in the fields of `l` at most, with the transmit PLL as in `s`, and a lane that has no run of
good windows in `s` has none in `t`. -/
structure Moves (l : List (Nat × Fld)) (s t : State) : Prop where
  changes : Changes (besides l) s t
  txLock : t.med.txLock = s.med.txLock
  txWait : t.med.txWait = s.med.txWait
  good : ∀ q, (s.lane q).good = 0 → (t.lane q).good = 0

namespace Moves

variable {l l' : List (Nat × Fld)} {s t u : State} {p : Nat}

@[refl] theorem refl : Moves l s s := ⟨.refl, rfl, rfl, fun _ h => h⟩

theorem trans (h : Moves l s t) (h' : Moves l t u) : Moves l s u :=
  ⟨h.changes.trans h'.changes, h'.txLock.trans h.txLock, h'.txWait.trans h.txWait, fun q hq => h'.good q (h.good q hq)⟩

theorem mono (h : Moves l s t) (hl : l ⊆ l') : Moves l' s t :=
  ⟨h.changes.mono fun _ _ => Or.imp_right (@hl _), h.txLock, h.txWait, h.good⟩

/-! ### What is read off -/

/-- A field of a register beside the data path that is apart from the fields of `l`. -/
theorem fld (h : Moves l s t) {a : Nat} {f : Fld} (ha : ¬PathReg a) (hl : ∀ e ∈ l, e.1 = a → f.hi < e.2.lo ∨ e.2.hi < f.lo) :
    t.fld a f = s.fld a f := h.changes.fld fun _ hg => hl _ (hg.resolve_left ha) rfl

theorem bit (h : Moves l s t) {a : Nat} {f : Fld} (ha : ¬PathReg a) (hl : ∀ e ∈ l, e.1 = a → f.hi < e.2.lo ∨ e.2.hi < f.lo) :
    t.bit a f = s.bit a f := by rw [State.bit, State.bit, h.fld ha hl]

theorem reg (h : Moves l s t) {a : Nat} (ha : ¬PathReg a) (hl : ∀ e ∈ l, e.1 ≠ a) : t.reg a = s.reg a :=
  h.changes.reg fun _ hg => hl _ (hg.resolve_left ha) rfl

/-! ### Rules -/

theorem setFld (h : Moves l s t) {a : Nat} {f : Fld} {v : Nat} (hf : (a, f) ∈ l) : Moves l s (t.setFld a f v) :=
  ⟨h.changes.setFld (.inr hf), h.txLock, h.txWait, h.good⟩

theorem setBit (h : Moves l s t) {a : Nat} {f : Fld} {b : Bool} (hf : (a, f) ∈ l) : Moves l s (t.setBit a f b) := h.setFld hf

theorem ite {c : Prop} [Decidable c] (h : c → Moves l s t) (h' : ¬c → Moves l s u) : Moves l s (if c then t else u) := by
  split
  · exact h ‹_›
  · exact h' ‹_›

/-- A component of the state other than the registers, the memory and the lanes is replaced. -/
theorem frame {p f e w df ub wd en ti cl qm ci cr cp fl ls ho tw pr pw mo ta} (h : Moves l s t) :
    Moves l s ⟨p, t.regs, t.mem, f, e, w, t.med, df, ub, wd, en, ti, cl, qm, ci, cr, cp, fl, ls, ho, tw, pr, pw, mo, ta⟩ :=
  ⟨h.changes.frame, h.txLock, h.txWait, h.good⟩

theorem latch (h : Moves l s t) {a : Nat} {f : Fld} (hf : (a, f) ∈ l) : Moves l s (t.latch a f) :=
  .ite (fun _ => h) fun _ => (h.setFld hf).frame

/-- The lane's own state is replaced. -/
theorem setLane (h : Moves l s t) {v : MedLane} (hv : (t.lane p).good = 0 → v.good = 0) : Moves l s (t.setLane p v) := by
  refine ⟨h.changes.frame, h.txLock, h.txWait, fun q hq => ?_⟩
  by_cases hp : q = p
  · subst hp
    rw [lane_setLane_same]
    exact hv (h.good q hq)
  · rw [lane_setLane_other _ _ hp]
    exact h.good q hq

theorem passes (h : Moves l s t) (hp : Passes t u) : Moves l s u :=
  ⟨h.changes.trans (hp.1.mono fun _ _ => .inl), hp.2 ▸ h.txLock, hp.2 ▸ h.txWait, fun q hq => lane_congr hp.2 q ▸ h.good q hq⟩

/-! ### The driver (R47, R50, R51) -/

theorem stopPlane (h : Moves l s t) (hl : driverFields p ⊆ l) : Moves l s (t.stopPlane p) := by
  have hlane : Moves l s ((t.setUplane p { t.uplane p with req := false, lag := none }).setLane p
      { (t.setUplane p { t.uplane p with req := false, lag := none }).lane p with fill := false }) := setLane h.frame fun h => h
  exact (hlane.setBit (hl (.head _))).setBit (hl (.tail _ (.head _)))

theorem cutPlane (h : Moves l s t) (hl : driverFields p ⊆ l) {code : Nat} : Moves l s (t.cutPlane p code) := by
  unfold State.cutPlane
  split
  · exact h
  · have hcut : Moves l s (((t.stopPlane p).bdisp code).pmcEvent (0x10 + p) 2) :=
      (h.stopPlane hl).passes Passes.refl.bdisp.pmcEvent
    refine .ite (fun _ => ?_) fun _ => .passes ?_ Passes.refl.loseContent
    all_goals exact .ite (fun _ => hcut.frame) fun _ => hcut.frame

theorem haltPlane (h : Moves l s t) (hl : driverFields p ⊆ l) {code : Nat} : Moves l s (t.haltPlane p code) :=
  (h.cutPlane hl).stopPlane hl

/-! ### The hunt (R32) -/

theorem setRate (h : Moves l s t) {rate : Nat} (hl : (R.medLaneStatus p, F.medLaneStatus_rate) ∈ l) : Moves l s (t.setRate p rate) :=
  .ite (fun _ => h) fun _ => frame (setLane (h.setFld hl) fun _ => rfl)

theorem huntRestart (h : Moves l s t) (hl : huntFields p ⊆ l) : Moves l s (t.huntRestart p) := by
  have hlane : Moves l s ((t.setRate p (t.startRate p)).setLane p { (t.setRate p (t.startRate p)).lane p with dwellOver := false }) :=
    setLane (h.setRate (hl (.head _))) fun h => h
  have hhunt := fun b => hlane.setBit (b := b) (hl (.tail _ (.head _)))
  exact .ite (fun _ => (hhunt _).haltPlane fun _ hf => hl (driverFields_subset p hf)) fun _ => hhunt _

end Moves

end Sys2Proof.Machine
end

section
/-!
SUPPORT. A lane's hunt, a plane that goes to SEARCH and LOL (R32, R54, R55): the values they leave, and what they change where no burst is in
progress or no frame is taken.
-/

namespace Sys2Proof.Machine

/-! ## The rate and the hunt -/

theorem startRate_lt (s : State) (p : Nat) : s.startRate p < 4 := by
  unfold State.startRate
  split_ifs <;> decide

theorem startRate_disabled {s : State} {p : Nat} (h : s.bit (R.medLaneCfg p) F.medLaneCfg_laneEn = false) : s.startRate p = 0 :=
  if_pos (by rw [h]; rfl)

/-- Gen-1 for GEN_MODE 1, else Gen-2. -/
theorem startRate_enabled {s : State} {p : Nat} (h : s.bit (R.medLaneCfg p) F.medLaneCfg_laneEn = true) :
    s.startRate p = if s.fld (R.medLaneCfg p) F.medLaneCfg_genMode = 1 then 1 else 2 := by
  simp only [State.startRate, State.huntMode, h, Bool.not_true, Bool.false_eq_true, if_false, decide_eq_true_eq]
  split_ifs <;> omega

theorem Changes.setRate {W : Nat → Fld → Prop} {s t : State} (h : Changes W s t) {p rate : Nat}
    (hw : W (R.medLaneStatus p) F.medLaneStatus_rate) : Changes W s (t.setRate p rate) :=
  .ite (fun _ => h) fun _ => (h.setFld hw).frame

theorem rate_setRate (s : State) (p : Nat) {rate : Nat} (h : rate < 4) : (s.setRate p rate).fld (R.medLaneStatus p) F.medLaneStatus_rate = rate := by
  unfold State.setRate
  split
  · assumption
  · exact (fld_setFld_same s _ F.medLaneStatus_rate rate (by decide) (by decide)).trans (Nat.mod_eq_of_lt h)

/-- A lane starts to receive at its rate and hunts or not, before its driver rests. -/
def State.huntSet (s : State) (p : Nat) : State :=
  ((s.setRate p (s.startRate p)).setLane p { (s.setRate p (s.startRate p)).lane p with dwellOver := false }).setBit
    (R.medLaneStatus p) F.medLaneStatus_hunting (s.bit (R.medLaneCfg p) F.medLaneCfg_laneEn && s.huntMode p)

theorem huntRestart_eq (s : State) (p : Nat) : s.huntRestart p =
    if s.bit (R.medLaneCfg p) F.medLaneCfg_laneEn && s.huntMode p then (s.huntSet p).haltPlane p 8 else s.huntSet p := by
  have hcfg : ∀ l, ((s.setRate p (s.startRate p)).setLane p l).reg (R.medLaneCfg p) = s.reg (R.medLaneCfg p) := fun l =>
    (Changes.refl.setRate (W := fun a _ => a = R.medLaneStatus p) rfl).reg fun _ h => absurd h (medLaneCfg_ne_medLaneStatus p p)
  simp only [State.huntRestart, State.huntSet, State.huntMode, State.bit, State.fld, hcfg]
  rfl

theorem changes_huntSet (s : State) (p : Nat) : Changes (fun a _ => a = R.medLaneStatus p) s (s.huntSet p) :=
  Changes.setBit (Changes.frame (Changes.refl.setRate rfl)) rfl

theorem rate_huntRestart (s : State) (p : Plane) : (s.huntRestart p).fld (R.medLaneStatus p) F.medLaneStatus_rate = s.startRate p := by
  have hset : (s.huntSet p).fld (R.medLaneStatus p) F.medLaneStatus_rate = s.startRate p :=
    (fld_setBit_field _ _ _ _ _ (by decide) (by decide) (by decide)).trans (rate_setRate s p (startRate_lt s p))
  rw [huntRestart_eq]
  split
  · rw [(Moves.refl.haltPlane (List.Subset.refl (driverFields p))).fld (by simp) (by simp [driverFields]), hset]
  · exact hset

theorem hunting_huntRestart (s : State) (p : Plane) : (s.huntRestart p).bit (R.medLaneStatus p) F.medLaneStatus_hunting =
    (s.bit (R.medLaneCfg p) F.medLaneCfg_laneEn && s.huntMode p) := by
  have hset : (s.huntSet p).bit (R.medLaneStatus p) F.medLaneStatus_hunting =
      (s.bit (R.medLaneCfg p) F.medLaneCfg_laneEn && s.huntMode p) := bit_setBit_same _ _ _ _ rfl (by decide)
  rw [huntRestart_eq]
  split
  · rw [(Moves.refl.haltPlane (List.Subset.refl (driverFields p))).bit (by simp) (by simp [driverFields]), hset]
  · exact hset

/-! ## No burst in progress -/

/-- No burst is in progress. -/
abbrev State.noBurst (s : State) : Prop := ∀ b ∈ s.ubb.builds, b.launched = false

/-- With no burst in progress there is nothing to cut. -/
theorem haltPlane_quiet {s : State} (h : s.noBurst) (p code : Nat) : s.haltPlane p code = s.stopPlane p := by
  have hnone : s.ubb.builds.find? (fun b => b.launched && b.grants.any (fun g => g.plane == p)) = none :=
    List.find?_eq_none.2 fun b hb => by simp [h b hb]
  simp only [State.haltPlane, State.cutPlane, hnone]

theorem changes_stopPlane (s : State) (p : Nat) : Changes (fun a _ => a = R.medLaneStatus p) s (s.stopPlane p) :=
  Changes.setBit (Changes.setBit (Changes.frame Changes.refl) rfl) rfl

theorem changes_haltPlane_quiet {s : State} (h : s.noBurst) (p code : Nat) :
    Changes (fun a _ => a = R.medLaneStatus p) s (s.haltPlane p code) := haltPlane_quiet h p code ▸ changes_stopPlane s p

theorem huntSet_ubb (s : State) (p : Nat) : (s.huntSet p).ubb = s.ubb := by
  unfold State.huntSet State.setRate
  split <;> rfl

theorem changes_huntRestart_quiet {s : State} (h : s.noBurst) (p : Nat) :
    Changes (fun a _ => a = R.medLaneStatus p) s (s.huntRestart p) := by
  have hquiet : (s.huntSet p).noBurst := by rwa [State.noBurst, huntSet_ubb]
  rw [huntRestart_eq]
  exact .ite (fun _ => (changes_huntSet s p).trans (changes_haltPlane_quiet hquiet p 8)) fun _ => changes_huntSet s p

/-! ## A plane goes to SEARCH -/

/-- An aligned plane loses its frame, its lane's hunt starts anew, and another plane may give the time. -/
theorem toSearch_aligned {s : State} {p : Nat} (h : s.aligned p = true) :
    ∃ u, Moves [(R.dfpPlaneStatus p, F.dfpPlaneStatus_miss), (R.dfpPlaneStatus p, F.dfpPlaneStatus_sd)]
        (s.setFld (R.dfpPlaneStatus p) F.dfpPlaneStatus_align 0) u ∧ s.toSearch p = (u.huntRestart p).retime false := by
  refine ⟨_, ?_, if_pos h⟩
  have hfields := ((Moves.refl (s := s.setFld (R.dfpPlaneStatus p) F.dfpPlaneStatus_align 0)).setFld
    (l := [(R.dfpPlaneStatus p, F.dfpPlaneStatus_miss), (R.dfpPlaneStatus p, F.dfpPlaneStatus_sd)]) (v := 0) (.head _)).setFld
      (v := 0) (.tail _ (.head _))
  exact hfields.passes (.ite (fun _ => Passes.rsqFlush (Passes.latch (Passes.frame .refl) (by simp))) fun _ =>
    Passes.latch (Passes.frame .refl) (by simp))

/-- A plane that is not aligned ends its search, and a lane whose dwell was extended moves to the other rate. -/
theorem toSearch_unaligned {s : State} {p : Nat} (h : s.aligned p = false) :
    s.toSearch p = s.setFld (R.dfpPlaneStatus p) F.dfpPlaneStatus_align 0 ∨
    s.bit (R.medLaneStatus p) F.medLaneStatus_hunting = true ∧ ∃ rate l, s.toSearch p =
      ((s.setFld (R.dfpPlaneStatus p) F.dfpPlaneStatus_align 0).setRate p rate).setLane p l ∧
      l.good = (((s.setFld (R.dfpPlaneStatus p) F.dfpPlaneStatus_align 0).setRate p rate).lane p).good := by
  unfold State.toSearch
  rw [if_neg (by simp [h])]
  dsimp only
  split
  case isFalse => exact .inl rfl
  case isTrue hc =>
    simp only [Bool.and_eq_true] at hc
    refine .inr ⟨?_, _, _, rfl, rfl⟩
    rw [← hc.2]
    exact (bit_setFld_other _ _ _ _ (dfpPlaneStatus_ne_medLaneStatus p).symm).symm

/-- What a frame that ends early still gives is taken, up to the present slot. -/
def State.drained (s : State) (p : Nat) : State :=
  (s.setDplane p { s.dplane p with cut := some ((s.dplane p).cut.getD (s.dplane p).slots) }).drainFrame p

theorem abandonFrame_eq (s : State) (p : Nat) : s.abandonFrame p = (s.drained p).toSearch p := rfl

theorem passes_drained (s : State) (p : Nat) : Passes s (s.drained p) := Passes.drainFrame (Passes.frame .refl)

namespace Moves

variable {l : List (Nat × Fld)} {s t : State} {p : Nat}

theorem toSearch (h : Moves l s t) (hl : searchFields p ⊆ l) : Moves l s (t.toSearch p) := by
  have halign : Moves l s (t.setFld (R.dfpPlaneStatus p) F.dfpPlaneStatus_align 0) := h.setFld (hl (.head _))
  have hrate : (R.medLaneStatus p, F.medLaneStatus_rate) ∈ l := hl (by simp [searchFields, huntFields])
  cases ha : t.aligned p
  case true =>
    obtain ⟨u, hu, heq⟩ := toSearch_aligned ha
    rw [heq]
    have hlost : Moves l s u := halign.trans (hu.mono fun _ he => hl (.tail _ (List.mem_append_left (huntFields p) he)))
    exact (hlost.huntRestart fun _ he => hl (huntFields_subset p he)).passes Passes.refl.retime
  case false =>
    rcases toSearch_unaligned ha with heq | ⟨_, rate, v, heq, hv⟩
    · rw [heq]
      exact halign
    · rw [heq]
      exact (halign.setRate hrate).setLane fun hgood => hv.trans hgood

theorem abandonFrame (h : Moves l s t) (hl : searchFields p ⊆ l) : Moves l s (t.abandonFrame p) :=
  toSearch (h.passes (passes_drained t p)) hl

theorem setLol (h : Moves l s t) (hl : lolFields p ⊆ l) : Moves l s (t.setLol p) := by
  have hlane : Moves l s (t.setLane p { t.lane p with good := 0 }) := h.setLane fun _ => rfl
  refine .ite (fun _ => hlane) fun _ => abandonFrame ?_ fun _ he => hl (searchFields_subset p he)
  exact (hlane.setBit (hl (.head _))).latch (hl (.tail _ (.head _)))

end Moves

theorem align_toSearch (s : State) (p : Plane) : (s.toSearch p).fld (R.dfpPlaneStatus p) F.dfpPlaneStatus_align = 0 := by
  have hset : (s.setFld (R.dfpPlaneStatus p) F.dfpPlaneStatus_align 0).fld (R.dfpPlaneStatus p) F.dfpPlaneStatus_align = 0 :=
    fld_setFld_same _ _ _ _ (by decide) (by decide)
  cases ha : s.aligned p
  case true =>
    obtain ⟨u, hu, heq⟩ := toSearch_aligned ha
    rw [heq, ← hset, ← hu.fld (f := F.dfpPlaneStatus_align) (not_pathReg_dfpPlaneStatus p) (by simp)]
    exact ((Moves.refl.huntRestart (List.Subset.refl (huntFields p))).passes Passes.refl.retime).fld (by simp)
      (by simp [huntFields, driverFields])
  case false =>
    rcases toSearch_unaligned ha with heq | ⟨_, rate, v, heq, _⟩
    · rw [heq, hset]
    · rw [heq]
      exact ((Changes.refl.setRate (W := fun a _ => a = R.medLaneStatus p) rfl).fld fun _ hg =>
        absurd hg (dfpPlaneStatus_ne_medLaneStatus p)).trans hset

theorem align_abandonFrame (s : State) (p : Plane) : (s.abandonFrame p).fld (R.dfpPlaneStatus p) F.dfpPlaneStatus_align = 0 :=
  align_toSearch _ p

/-- A disabled lane, without a rate and a hunt. -/
def State.laneOff (s : State) (p : Nat) : Prop :=
  s.bit (R.medLaneCfg p) F.medLaneCfg_laneEn = false ∧ s.fld (R.medLaneStatus p) F.medLaneStatus_rate = 0 ∧
    s.bit (R.medLaneStatus p) F.medLaneStatus_hunting = false

theorem laneOff_congr {s t : State} {p : Nat} (hcfg : t.reg (R.medLaneCfg p) = s.reg (R.medLaneCfg p))
    (hstatus : t.reg (R.medLaneStatus p) = s.reg (R.medLaneStatus p)) (h : s.laneOff p) : t.laneOff p := by
  simpa only [State.laneOff, State.bit, State.fld, hcfg, hstatus] using h

theorem laneOff_passes {s t : State} (p : Plane) (h : Passes s t) (hs : s.laneOff p) : t.laneOff p :=
  laneOff_congr (h.1.reg fun _ => not_pathReg_medLaneCfg p) (h.1.reg fun _ => not_pathReg_medLaneStatus p) hs

theorem laneOff_huntRestart {s : State} (p : Plane) (h : s.bit (R.medLaneCfg p) F.medLaneCfg_laneEn = false) :
    (s.huntRestart p).laneOff p := by
  refine ⟨?_, (rate_huntRestart s p).trans (startRate_disabled h), ?_⟩
  · rw [(Moves.refl.huntRestart (List.Subset.refl (huntFields p))).bit (not_pathReg_medLaneCfg p) (by simp [huntFields, driverFields]), h]
  · rw [hunting_huntRestart, h, Bool.false_and]

/-- Whatever becomes of its frame, a disabled lane stays without a rate and a hunt. -/
theorem laneOff_abandonFrame {s : State} (p : Plane) (h : s.laneOff p) : (s.abandonFrame p).laneOff p := by
  have hdrain := laneOff_passes p (passes_drained s p) h
  rw [abandonFrame_eq]
  cases ha : (s.drained p).aligned p
  case true =>
    obtain ⟨v, hv, heq⟩ := toSearch_aligned ha
    have hen : v.bit (R.medLaneCfg p) F.medLaneCfg_laneEn = false := by
      rw [hv.bit (not_pathReg_medLaneCfg p) (by simp), bit_setFld_other _ _ _ _ (medLaneCfg_ne_dfpPlaneStatus p p), hdrain.1]
    rw [heq]
    exact laneOff_passes p Passes.refl.retime (laneOff_huntRestart p hen)
  case false =>
    rcases toSearch_unaligned ha with heq | ⟨hhunt, _⟩
    · rw [heq]
      exact laneOff_congr (reg_setFld_other _ _ _ (medLaneCfg_ne_dfpPlaneStatus p p)) (reg_setFld_other _ _ _ (by simp)) hdrain
    · rw [hdrain.2.2] at hhunt
      cases hhunt

end Sys2Proof.Machine
end

section
/-!
SUPPORT. LOS and LOL (R52 to R56): what the detectors leave of a lane; O10 is settled here.
-/

namespace Sys2Proof.Machine

variable (s : State) (p : Plane)

/-! ## A plane that takes no frame -/

/-- The plane is not in frame and takes nothing. -/
def State.idlePlane (s : State) (p : Nat) : Prop := s.aligned p = false ∧ (s.dplane p).taking = false

variable {s p} in
theorem idlePlane_congr {t : State} (hreg : t.reg (R.dfpPlaneStatus p) = s.reg (R.dfpPlaneStatus p)) (hdfp : t.dfp = s.dfp)
    (h : s.idlePlane p) : t.idlePlane p := by
  rwa [State.idlePlane, aligned_congr hreg, dplane_congr hdfp]

/-- A plane that takes no frame has nothing to drain. -/
theorem drainFrame_idle {s : State} {p : Nat} (h : (s.dplane p).taking = false) : s.drainFrame p =
    s.setDplane p { s.dplane p with taking := false, grantsDone := true, msgLeft := 0, ignoring := true } := by
  have hgrant : s.grantArea p = s := if_pos (by simp [h])
  have hmessage : s.messageRx p = s := if_pos (by simp [h])
  have hmessages : ∀ n, (List.range n).foldl (fun s _ => s.messageRx p) s = s := fun n => List.foldl_fixed' (fun _ => hmessage) _
  have hparcels : ∀ n, s.drainParcels p n = s := fun n => by
    cases n with
    | zero => rfl
    | succ n => exact if_pos (by simp [h])
  simp only [State.drainFrame, hgrant, hmessages, hparcels]

theorem drained_idle {s : State} {p : Nat} (h : (s.dplane p).taking = false) :
    (s.drained p).regs = s.regs ∧ (s.drained p).mem = s.mem ∧ ((s.drained p).dplane p).taking = false := by
  rw [State.drained, drainFrame_idle (by rw [dplane_setDplane_same]; exact h), dplane_setDplane_same]
  exact ⟨rfl, rfl, by rw [dplane_setDplane_same]⟩

theorem taking_setRate (s : State) (p rate : Nat) : ((s.setRate p rate).dplane p).taking = (s.dplane p).taking := by
  unfold State.setRate
  split
  · rfl
  · rw [dplane_setDplane_same]
    rfl

/-- What a plane that goes to SEARCH, a lane that loses lock and their defects change. -/
abbrev lolRegs (p : Nat) : List Nat := [R.medLaneStatus p, R.medDefect p, R.dfpPlaneStatus p]

variable {s p} in
theorem changes_abandonFrame_idle (h : s.idlePlane p) :
    Changes (fun a _ => a ∈ lolRegs p) s (s.abandonFrame p) ∧ (s.abandonFrame p).idlePlane p := by
  obtain ⟨hregs, hmem, htaking⟩ := drained_idle h.2
  have hdrained : Changes (fun a _ => a ∈ lolRegs p) s (s.drained p) := ⟨hmem, fun a _ _ => by rw [reg_of_regs hregs]⟩
  have halign := hdrained.setFld (f := F.dfpPlaneStatus_align) (v := 0) (a := R.dfpPlaneStatus p) (by simp)
  have hnot := not_aligned (s := s.abandonFrame p) (p := p) (by rw [align_abandonFrame]; decide)
  have haligned : (s.drained p).aligned p = false := (aligned_congr (reg_of_regs hregs _)).trans h.1
  have hstill : (((s.drained p).setFld (R.dfpPlaneStatus p) F.dfpPlaneStatus_align 0).dplane p).taking = false := by
    rw [dplane_congr (setFld_dfp _ _ _ _), htaking]
  rw [State.idlePlane, hnot, abandonFrame_eq]
  rcases toSearch_unaligned haligned with heq | ⟨_, rate, l, heq, _⟩ <;> rw [heq]
  · exact ⟨halign, rfl, hstill⟩
  · exact ⟨(halign.setRate (by simp)).frame, rfl, (taking_setRate _ p rate).trans hstill⟩

/-! ## LOL -/

/-- A lane whose run of good windows has ended and that shows no lock. -/
def State.lolShown (s : State) (p : Nat) : State :=
  ((s.setLane p { s.lane p with good := 0 }).setBit (R.medLaneStatus p) F.medLaneStatus_lol true).latch (R.medDefect p) F.medDefect_lol

theorem setLol_eq (s : State) (p : Nat) : s.setLol p = if s.bit (R.medLaneStatus p) F.medLaneStatus_lol then
    s.setLane p { s.lane p with good := 0 } else (s.lolShown p).abandonFrame p := rfl

theorem lol_setLol : (s.setLol p).bit (R.medLaneStatus p) F.medLaneStatus_lol = true := by
  rw [setLol_eq]
  split
  case isTrue h => exact h
  case isFalse =>
    rw [(Moves.refl.abandonFrame (List.Subset.refl (searchFields p))).bit (by simp) (by simp [searchFields, huntFields, driverFields]),
      State.lolShown, bit_latch_other _ _ _ (by simp)]
    exact bit_setBit_same _ _ _ _ rfl (by decide)

theorem good_setLol : ((s.setLol p).lane p).good = 0 := by
  have hset : ((s.setLane p { s.lane p with good := 0 }).lane p).good = 0 := by rw [lane_setLane_same]
  rw [setLol_eq]
  split
  · exact hset
  · refine (Moves.refl.abandonFrame (List.Subset.refl (searchFields p))).good p ?_
    rw [← hset]
    exact congrArg MedLane.good (lane_congr (latch_med _ _ _) p)

variable {s p} in
theorem align_setLol (h : s.fld (R.dfpPlaneStatus p) F.dfpPlaneStatus_align = 0) :
    (s.setLol p).fld (R.dfpPlaneStatus p) F.dfpPlaneStatus_align = 0 := by
  rw [setLol_eq]
  split
  · exact h
  · exact align_abandonFrame _ p

variable {s p} in
theorem changes_setLol_idle (h : s.idlePlane p) : Changes (fun a _ => a ∈ lolRegs p) s (s.setLol p) := by
  have hlane : Changes (fun a _ => a ∈ lolRegs p) s (s.setLane p { s.lane p with good := 0 }) := Changes.refl
  have hshown : Changes (fun a _ => a ∈ lolRegs p) s (s.lolShown p) := (hlane.setBit (by simp)).latch (by simp)
  have hidle : (s.lolShown p).idlePlane p := idlePlane_congr
    ((reg_latch_other _ _ (by simp)).trans (reg_setBit_other _ _ _ (by simp))) (latch_dfp _ _ _) h
  rw [setLol_eq]
  exact .ite (fun _ => hlane) fun _ => hshown.trans (changes_abandonFrame_idle hidle).1

/-! ## LOS -/

/-- A lane that shows loss of signal. -/
def State.losShown (s : State) (p : Nat) : State :=
  let t := (s.setBit (R.medLaneStatus p) F.medLaneStatus_los true).latch (R.medDefect p) F.medDefect_los
  t.setLane p { t.lane p with losWin := true }

variable {s p} in
theorem setLos_eq (h : s.bit (R.medLaneStatus p) F.medLaneStatus_los = false) : s.setLos p = ((s.losShown p).abandonFrame p).setLol p :=
  if_neg (by rw [h]; decide)

theorem changes_showMsd (msd : Bool) : Changes (fun a _ => a ∈ [R.medLaneStatus p]) s (s.showMsd p msd) := Changes.setBit Changes.refl (.head _)

theorem changes_losShown : Changes (fun a _ => a ∈ lolRegs p) s (s.losShown p) :=
  Changes.frame ((Changes.refl.setBit (.head _)).latch (.tail _ (.head _)))

theorem exec_losSet (msd : Bool) (mv : Nat) :
    exec (.losSet p msd mv) s = .next (if s.signalAbsent p msd mv then (s.showMsd p msd).setLos p else s) := rfl

theorem exec_losClear (msd : Bool) (mv : Nat) :
    exec (.losClear p msd mv) s = .next (if s.signalAbsent p msd mv then s else (s.showMsd p msd).clearLos p) := rfl

theorem losSet_absent {msd : Bool} {mv : Nat} (habsent : s.signalAbsent p msd mv = true)
    (hlos : s.bit (R.medLaneStatus p) F.medLaneStatus_los = false) :
    ∃ t : State, exec (.losSet p msd mv) s = .next t ∧ t.bit (R.medLaneStatus p) F.medLaneStatus_los = true ∧
      t.bit (R.medLaneStatus p) F.medLaneStatus_lol = true ∧ t.bit (R.medDefect p) F.medDefect_los = true ∧
      t.fld (R.dfpPlaneStatus p) F.dfpPlaneStatus_align = 0 ∧ (t.lane p).good = 0 ∧
      (s.aligned p = false → (s.dplane p).taking = false →
        memKept s t ∧ regsKept s t [R.medLaneStatus p, R.medDefect p, R.dfpPlaneStatus p]) := by
  have hmsd : (s.showMsd p msd).bit (R.medLaneStatus p) F.medLaneStatus_los = false :=
    (bit_setBit_field _ _ _ _ _ (by decide) (by decide) (by decide)).trans hlos
  rw [exec_losSet, if_pos habsent, setLos_eq hmsd]
  have hmoves : Moves (lolFields p) ((s.showMsd p msd).losShown p) ((((s.showMsd p msd).losShown p).abandonFrame p).setLol p) :=
    (Moves.refl.abandonFrame (searchFields_subset p)).setLol (List.Subset.refl _)
  refine ⟨_, rfl, ?los, lol_setLol _ p, ?defect, align_setLol (align_abandonFrame _ p), good_setLol _ p, fun ha ht => ?frame⟩
  case los =>
    rw [hmoves.bit (by simp) (by simp [lolFields, searchFields, huntFields, driverFields])]
    exact (bit_latch_other _ _ _ (by simp)).trans (bit_setBit_same _ _ _ _ rfl (by decide))
  case defect =>
    rw [hmoves.bit (by simp) (by simp [lolFields, searchFields, huntFields, driverFields])]
    exact bit_latch_same _ _ _ rfl (by decide)
  case frame =>
    have hidle : ((s.showMsd p msd).losShown p).idlePlane p := idlePlane_congr
      (((reg_latch_other _ _ (by simp)).trans (reg_setBit_other _ _ _ (by simp))).trans (reg_setBit_other _ _ _ (by simp)))
      (latch_dfp _ _ _) ⟨ha, ht⟩
    obtain ⟨habandon, hstill⟩ := changes_abandonFrame_idle hidle
    have hc := ((((changes_showMsd s p msd).mono (W' := fun a _ => a ∈ lolRegs p) fun a _ h => by
      rw [List.mem_singleton.1 h]; exact .head _).trans (changes_losShown _ p)).trans habandon).trans (changes_setLol_idle hstill)
    exact ⟨hc.memKept, hc.regsKept⟩

theorem losClear_present {msd : Bool} {mv : Nat} (hpresent : s.signalAbsent p msd mv = false) :
    ∃ t : State, exec (.losClear p msd mv) s = .next t ∧ t.bit (R.medLaneStatus p) F.medLaneStatus_los = false ∧
      (s.loopback p = 2 → t.bit (R.medLaneStatus p) F.medLaneStatus_lol = false) ∧ memKept s t ∧ regsKept s t [R.medLaneStatus p] := by
  have hcleared := (changes_showMsd s p msd).setBit (a := R.medLaneStatus p) (f := F.medLaneStatus_los) (b := false) (.head _)
  have hloop : ((s.showMsd p msd).setBit (R.medLaneStatus p) F.medLaneStatus_los false).loopback p = s.loopback p := by
    rw [State.loopback, State.loopback, hcleared.fld fun _ h => absurd (List.mem_singleton.1 h) (medTest_ne_medLaneStatus p p)]
  have hlos : ((s.showMsd p msd).setBit (R.medLaneStatus p) F.medLaneStatus_los false).bit (R.medLaneStatus p) F.medLaneStatus_los = false :=
    bit_setBit_same _ _ _ _ rfl (by decide)
  have hc : Changes (fun a _ => a ∈ [R.medLaneStatus p]) s ((s.showMsd p msd).clearLos p) :=
    .ite (fun _ => hcleared.setBit (.head _)) fun _ => hcleared
  rw [exec_losClear, if_neg (by rw [hpresent]; decide)]
  refine ⟨_, rfl, ?_, fun hl => ?_, hc.memKept, hc.regsKept⟩
  · simp only [State.clearLos]
    split
    · exact (bit_setBit_field _ _ _ _ _ (by decide) (by decide) (by decide)).trans hlos
    · exact hlos
  · simp only [State.clearLos, hloop, hl, if_true]
    exact bit_setBit_same _ _ _ _ rfl (by decide)

/-! ## The lock window -/

theorem exec_cdrWindowEnd (w : CdrWindow) : exec (.cdrWindowEnd p w) s = .next (s.cdrWindow p w) := rfl

/-- The lane after its lock window was judged. -/
def State.windowEnded (s : State) (p : Nat) : State :=
  s.setLane p { s.lane p with losWin := s.bit (R.medLaneStatus p) F.medLaneStatus_los, rateWin := false }

variable {s p} in
/-- A window neither lost nor without a signal: it ends the run, or the 16th in a row clears LOL. -/
theorem cdrJudge_locked {w : CdrWindow} (hppm : w.offsetPpm ≤ 200) (hslips : w.slips < 4)
    (hlos : s.bit (R.medLaneStatus p) F.medLaneStatus_los = false) : s.cdrJudge p w =
    if (s.lane p).losWin || (s.lane p).rateWin || decide (100 < w.offsetPpm) || w.slips != 0 then s.setLane p { s.lane p with good := 0 }
    else if 16 ≤ (s.lane p).good + 1 then
      (s.setLane p { s.lane p with good := min 16 ((s.lane p).good + 1) }).setBit (R.medLaneStatus p) F.medLaneStatus_lol false
    else s.setLane p { s.lane p with good := min 16 ((s.lane p).good + 1) } :=
  if_neg (by simp [hlos]; omega)

section
variable {s p}
variable (hen : s.bit (R.medLaneCfg p) F.medLaneCfg_laneEn = true) (hloop : s.loopback p ≠ 2) {w : CdrWindow}
include hen hloop

theorem cdrWindow_eq : s.cdrWindow p w = (s.cdrJudge p w).windowEnded p := by
  simp only [State.cdrWindow, hen, hloop, Bool.not_true, Bool.false_eq_true, if_false]
  rfl

theorem cdrWindowEnd_bad (hbad : 200 < w.offsetPpm ∨ 4 ≤ w.slips ∨ s.bit (R.medLaneStatus p) F.medLaneStatus_los = true) :
    ∃ t : State, exec (.cdrWindowEnd p w) s = .next t ∧ t.bit (R.medLaneStatus p) F.medLaneStatus_lol = true ∧ (t.lane p).good = 0 ∧
      (s.aligned p = false → (s.dplane p).taking = false →
        memKept s t ∧ regsKept s t [R.medLaneStatus p, R.medDefect p, R.dfpPlaneStatus p]) := by
  have hjudge : s.cdrJudge p w = s.setLol p := if_pos (by simpa [or_assoc] using hbad)
  rw [exec_cdrWindowEnd, cdrWindow_eq hen hloop, hjudge]
  refine ⟨_, rfl, lol_setLol s p, ?_, fun ha ht => ?_⟩
  · rw [State.windowEnded, lane_setLane_same]
    exact good_setLol s p
  · have hc := changes_setLol_idle ⟨ha, ht⟩
    exact ⟨hc.memKept, hc.regsKept⟩

variable (hppm : w.offsetPpm ≤ 200) (hslips : w.slips < 4) (hlos : s.bit (R.medLaneStatus p) F.medLaneStatus_los = false)
include hppm hslips hlos

theorem cdrWindowEnd_good (hppm' : w.offsetPpm ≤ 100) (hslips' : w.slips = 0) (hlosWin : (s.lane p).losWin = false)
    (hrateWin : (s.lane p).rateWin = false) :
    ∃ t : State, exec (.cdrWindowEnd p w) s = .next t ∧ (t.lane p).good = min 16 ((s.lane p).good + 1) ∧
      t.bit (R.medLaneStatus p) F.medLaneStatus_lol =
        (if 15 ≤ (s.lane p).good then false else s.bit (R.medLaneStatus p) F.medLaneStatus_lol) ∧
      memKept s t ∧ regsKept s t [R.medLaneStatus p] := by
  have hlane : Changes (fun a _ => a ∈ [R.medLaneStatus p]) s (s.setLane p { s.lane p with good := min 16 ((s.lane p).good + 1) }) :=
    Changes.refl
  rw [exec_cdrWindowEnd, cdrWindow_eq hen hloop, cdrJudge_locked hppm hslips hlos,
    if_neg (by simp [hlosWin, hrateWin, hslips', hppm'])]
  by_cases hrun : 15 ≤ (s.lane p).good
  · rw [if_pos (by omega), if_pos hrun]
    have hc := hlane.setBit (f := F.medLaneStatus_lol) (b := false) (.head _)
    refine ⟨_, rfl, ?_, bit_setBit_same _ _ _ _ rfl (by decide), hc.memKept, hc.regsKept⟩
    rw [State.windowEnded, lane_setLane_same]
    exact congrArg MedLane.good (lane_setLane_same s p _)
  · rw [if_neg (by omega), if_neg hrun]
    refine ⟨_, rfl, ?_, rfl, hlane.memKept, hlane.regsKept⟩
    rw [State.windowEnded, lane_setLane_same, lane_setLane_same]

theorem cdrWindowEnd_between
    (hwin : 100 < w.offsetPpm ∨ w.slips ≠ 0 ∨ (s.lane p).losWin = true ∨ (s.lane p).rateWin = true) :
    ∃ t : State, exec (.cdrWindowEnd p w) s = .next t ∧ (t.lane p).good = 0 ∧ (t.lane p).losWin = false ∧ (t.lane p).rateWin = false ∧
      memKept s t ∧ regsKept s t [] := by
  have hlane : Changes (fun a _ => a ∈ []) s (s.setLane p { s.lane p with good := 0 }) := Changes.refl
  rw [exec_cdrWindowEnd, cdrWindow_eq hen hloop, cdrJudge_locked hppm hslips hlos,
    if_pos (by simp only [Bool.or_eq_true, decide_eq_true_eq, bne_iff_ne]; tauto)]
  refine ⟨_, rfl, ?_, ?_, ?_, hlane.memKept, hlane.regsKept⟩ <;> rw [State.windowEnded, lane_setLane_same]
  · rw [lane_setLane_same]
  · exact hlos

end

/-- Settles O10: the detectors' operations each as stated above. -/
theorem signalAndLockDefects : Obligations.SignalAndLockDefects := fun s p _ _ _ =>
  ⟨losSet_absent s p, losClear_present s p, fun hen hloop => ⟨cdrWindowEnd_bad hen hloop, fun hppm hslips hlos =>
    ⟨cdrWindowEnd_good hen hloop hppm hslips hlos, cdrWindowEnd_between hen hloop hppm hslips hlos⟩⟩⟩

end Sys2Proof.Machine
end

section
/-!
SUPPORT. The transmit PLL (R51, R64): every lane at rest when it loses lock; O11 is settled here.
-/

namespace Sys2Proof.Machine

variable (s : State)

/-- A fold establishes for each element of its list what its step establishes and the other steps keep. -/
theorem foldl_forall {α β : Type} {f : β → α → β} {I : β → Prop} {P : α → β → Prop} (hI : ∀ b a, I b → I (f b a))
    (hset : ∀ b a, I b → P a (f b a)) (hkeep : ∀ b a c, I b → P c b → P c (f b a)) (l : List α) {b : β} (hb : I b) :
    I (l.foldl f b) ∧ ∀ a ∈ l, P a (l.foldl f b) := by
  suffices h : I (l.foldl f b) ∧ (∀ a ∈ l, P a (l.foldl f b)) ∧ ∀ a, P a b → P a (l.foldl f b) from ⟨h.1, h.2.1⟩
  induction l generalizing b with
  | nil => exact ⟨hb, by simp, fun _ h => h⟩
  | cons a l ih =>
    obtain ⟨hinv, hall, hkept⟩ := ih (hI b a hb)
    exact ⟨hinv, List.forall_mem_cons.2 ⟨hkept a (hset b a hb), hall⟩, fun c hc => hkept c (hkeep b a c hb hc)⟩

theorem mem_planes (p : Plane) : p.val ∈ List.range 24 := List.mem_range.2 p.isLt

theorem medLaneStatus_inj {p q : Nat} : R.medLaneStatus p = R.medLaneStatus q ↔ p = q := by
  simp only [R.medLaneStatus]; omega

/-! ## TXPLL_LOCK in the plane units -/

/-- Showing the lock changes a field of CLK and one of each plane unit. -/
theorem changes_showTxLock : Changes (fun a f => (a, f) = (R.clkPllStatus, ⟨1, 1⟩) ∨ ∃ p, (a, f) = (R.medLaneStatus p, F.medLaneStatus_txpllLock))
    s s.showTxLock := Changes.refl.showTxLock (.inl rfl) fun p => .inr ⟨p, rfl⟩

/-- Showing the lock touches nothing but registers. -/
theorem showTxLock_frame {γ : Type} (f : State → γ) (h : ∀ (t : State) a g v, f (t.setFld a g v) = f t) : f s.showTxLock = f s := by
  rw [State.showTxLock, foldl_keep f (fun s p => s.setBit (R.medLaneStatus p) F.medLaneStatus_txpllLock s.med.txLock) fun _ _ => h _ _ _ _]
  exact h _ _ _ _

theorem showTxLock_med : s.showTxLock.med = s.med := showTxLock_frame s State.med setFld_med
theorem showTxLock_ubb : s.showTxLock.ubb = s.ubb := showTxLock_frame s State.ubb setFld_ubb
theorem showTxLock_wires : s.showTxLock.wires = s.wires := showTxLock_frame s State.wires setFld_wires

/-- A plane unit shows the lock. -/
def State.lockShown (s : State) (p : Nat) : State := s.setBit (R.medLaneStatus p) F.medLaneStatus_txpllLock s.med.txLock

theorem showTxLock_eq : s.showTxLock = (List.range 24).foldl State.lockShown (s.setFld R.clkPllStatus ⟨1, 1⟩ (b2n s.med.txLock)) := rfl

theorem lockShown_med (p : Nat) : (s.lockShown p).med = s.med := setBit_med _ _ _ _

theorem txpllLock_lockShown (p : Nat) : (s.lockShown p).bit (R.medLaneStatus p) F.medLaneStatus_txpllLock = s.med.txLock :=
  bit_setBit_same _ _ _ _ rfl (by decide)

theorem txpllLock_lockShown_other {p q : Nat} (h : q ≠ p) :
    (s.lockShown p).bit (R.medLaneStatus q) F.medLaneStatus_txpllLock = s.bit (R.medLaneStatus q) F.medLaneStatus_txpllLock :=
  bit_setBit_other _ _ _ _ (by rwa [Ne, medLaneStatus_inj])

theorem txpllLock_showTxLock (p : Plane) : s.showTxLock.bit (R.medLaneStatus p) F.medLaneStatus_txpllLock = s.med.txLock := by
  rw [showTxLock_eq]
  refine (foldl_forall (I := fun t : State => t.med = s.med)
    (P := fun p (t : State) => t.bit (R.medLaneStatus p) F.medLaneStatus_txpllLock = s.med.txLock) (f := State.lockShown)
    (fun t p h => (lockShown_med t p).trans h) (fun t p h => by rw [txpllLock_lockShown, h]) (fun t p q h hq => by
      by_cases hp : q = p
      · rw [hp, txpllLock_lockShown, h]
      · rw [txpllLock_lockShown_other t hp, hq])
    (List.range 24) (setFld_med s _ _ _)).2 p (mem_planes p)

/-! ## Loss of lock -/

/-- The lane is idle with MBEN inactive, and its defect is latched. -/
def State.txHalted (p : Nat) (s : State) : Prop :=
  s.bit (R.medLaneStatus p) F.medLaneStatus_mben = false ∧ s.bit (R.medLaneStatus p) F.medLaneStatus_txIdle = true ∧
    s.bit (R.medDefect p) F.medDefect_txpll = true

theorem testDrives_unlocked {s : State} (h : s.med.txLock = false) (p : Nat) : s.testDrives p = false := by
  simp only [State.testDrives, h, Bool.and_false, Bool.false_and]

/-- The lane's transmitter stops as the PLL loses lock. -/
def State.txHalt (s : State) (p : Nat) : State := (s.haltPlane p 8).latch (R.medDefect p) F.medDefect_txpll

/-- The fields of a lane that the loss of the PLL changes. -/
def txHaltFields (p : Nat) : List (Nat × Fld) := (R.medDefect p, F.medDefect_txpll) :: driverFields p

theorem moves_txHalt (p : Nat) : Moves (txHaltFields p) s (s.txHalt p) :=
  (Moves.refl.haltPlane fun _ h => .tail _ h).latch (.head _)

/-- A driver at rest, without the PLL. -/
theorem stopPlane_unlocked {s : State} (h : s.med.txLock = false) (p : Nat) :
    (s.stopPlane p).bit (R.medLaneStatus p) F.medLaneStatus_mben = false ∧
      (s.stopPlane p).bit (R.medLaneStatus p) F.medLaneStatus_txIdle = true := by
  refine ⟨bit_setBit_same _ _ _ _ rfl (by decide), ?_⟩
  have hrest : ∀ u : State, u.med.txLock = false → (!u.testDrives p) = true := fun u hu => by rw [testDrives_unlocked hu]; rfl
  exact (bit_setBit_field _ _ _ _ _ (by decide) (by decide) (by decide)).trans
    ((bit_setBit_same _ _ _ _ rfl (by decide)).trans (hrest _ h))

theorem txHalted_txHalt {s : State} (h : s.med.txLock = false) (p : Nat) : (s.txHalt p).txHalted p := by
  have hcut : (s.cutPlane p 8).med.txLock = false := (Moves.refl.cutPlane (List.Subset.refl (driverFields p))).txLock.trans h
  obtain ⟨hmben, hidle⟩ := stopPlane_unlocked hcut p
  exact ⟨(bit_latch_other _ _ _ (by simp)).trans hmben, (bit_latch_other _ _ _ (by simp)).trans hidle, bit_latch_same _ _ _ rfl (by decide)⟩

theorem txHalted_txHalt_other {p : Nat} {q : Plane} (hq : q.val ≠ p) (h : s.txHalted q) : (s.txHalt p).txHalted q := by
  obtain ⟨hmben, hidle, hdefect⟩ := h
  have hmoves := moves_txHalt s p
  refine ⟨?_, ?_, ?_⟩
  · rw [hmoves.bit (by simp) (by simp [txHaltFields, driverFields, Ne.symm hq]), hmben]
  · rw [hmoves.bit (by simp) (by simp [txHaltFields, driverFields, Ne.symm hq]), hidle]
  · rw [hmoves.bit (by simp) (by simp [txHaltFields, driverFields, Ne.symm hq]), hdefect]

/-- The PLL without lock, as every lane and the counters show it. -/
def State.txLost (s : State) : State := { s with med := { s.med with txLock := false, txWait := true } }.showTxLock

variable {s} in
theorem txUnlock_eq (h : s.med.txLock = true) : s.txUnlock =
    ((List.range 24).foldl State.txHalt (s.txLost.count R.clkCounts F.clkCounts_pllUnlocks)).signal Src.medTxpll 2
      (faultCode Src.medTxpll 3) := if_neg (by rw [h]; decide)

/-- The PLL's lock is lost, and every lane shows it. -/
def State.unlocked (s : State) : Prop :=
  s.med.txLock = false ∧ s.med.txWait = true ∧ ∀ p : Plane, s.bit (R.medLaneStatus p) F.medLaneStatus_txpllLock = false

theorem unlocked_txLost : (s.txLost.count R.clkCounts F.clkCounts_pllUnlocks).unlocked := by
  refine ⟨?_, ?_, fun p => ?_⟩
  · rw [count_med, State.txLost, showTxLock_med]
  · rw [count_med, State.txLost, showTxLock_med]
  · exact (bit_setFld_other _ _ _ _ (by simp only [R.medLaneStatus, R.clkCounts]; omega)).trans (txpllLock_showTxLock _ p)

variable {s} in
theorem unlocked_txHalt (h : s.unlocked) (p : Nat) : (s.txHalt p).unlocked := by
  obtain ⟨hlock, hwait, hshown⟩ := h
  have hmoves := moves_txHalt s p
  exact ⟨hmoves.txLock.trans hlock, hmoves.txWait.trans hwait, fun q =>
    (hmoves.bit (by simp) (by simp [txHaltFields, driverFields])).trans (hshown q)⟩

/-- All lanes halted. -/
theorem txHalt_planes {s : State} (h : s.unlocked) : ((List.range 24).foldl State.txHalt s).unlocked ∧
    ∀ p : Plane, ((List.range 24).foldl State.txHalt s).txHalted p := by
  have hfold := foldl_forall (I := State.unlocked) (P := fun p t => ∀ q : Plane, q.val = p → t.txHalted q) (f := State.txHalt)
    (fun t p ht => unlocked_txHalt ht p) (fun t p ht q hq => hq ▸ txHalted_txHalt ht.1 q)
    (fun t p c ht hc q hq => by
      by_cases hp : q.val = p
      · exact hp ▸ txHalted_txHalt ht.1 q
      · exact txHalted_txHalt_other t hp (hc q hq))
    (List.range 24) h
  exact ⟨hfold.1, fun p => hfold.2 p (mem_planes p) p rfl⟩

theorem txHalt_quiet {s : State} (h : s.noBurst) (p : Nat) : (s.txHalt p).ubb.builds = s.ubb.builds ∧ (s.txHalt p).wires = s.wires := by
  rw [State.txHalt, haltPlane_quiet h, latch_ubb, latch_wires]
  exact ⟨rfl, rfl⟩

/-- With no burst in progress no error is signalled on the way. -/
theorem wires_txHalt_planes {s : State} (h : s.noBurst) : ((List.range 24).foldl State.txHalt s).wires = s.wires := by
  refine (List.foldlRecOn (motive := fun t : State => t.ubb.builds = s.ubb.builds ∧ t.wires = s.wires) _ _ ⟨rfl, rfl⟩ fun t ht p _ => ?_).2
  have hquiet : t.noBurst := by rwa [State.noBurst, ht.1]
  obtain ⟨hbuilds, hwires⟩ := txHalt_quiet hquiet p
  exact ⟨hbuilds.trans ht.1, hwires.trans ht.2⟩

theorem exec_txpllUnlock : exec .txpllUnlock s = .next s.txUnlock := rfl

theorem faultCode_div (src cause : Nat) : faultCode src cause / 4096 = cause := by
  have := (Config.faultDetail src cause).isLt
  rw [faultCode]
  omega

theorem txpllUnlock_locked (h : s.med.txLock = true) :
    ∃ t : State, exec .txpllUnlock s = .next t ∧ t.med.txLock = false ∧ t.med.txWait = true ∧
      (∃ l code, t.wires = l ++ [(Src.medTxpll, 2, code)] ∧ code / 4096 = 3 ∧ (s.noBurst → l = s.wires)) ∧
      (∀ p : Plane, t.bit (R.medLaneStatus p) F.medLaneStatus_txpllLock = false ∧
        t.bit (R.medLaneStatus p) F.medLaneStatus_mben = false ∧
        t.bit (R.medLaneStatus p) F.medLaneStatus_txIdle = true ∧ t.bit (R.medDefect p) F.medDefect_txpll = true) ∧
      (s.noBurst → memKept s t) := by
  obtain ⟨⟨hlock, hwait, hshown⟩, hhalted⟩ := txHalt_planes (unlocked_txLost s)
  rw [exec_txpllUnlock, txUnlock_eq h]
  refine ⟨_, rfl, hlock, hwait, ⟨_, _, rfl, faultCode_div _ _, fun hquiet => ?wires⟩, fun p => ⟨hshown p, hhalted p⟩, fun _ => ?mem⟩
  case wires =>
    have hbursts : (s.txLost.count R.clkCounts F.clkCounts_pllUnlocks).noBurst := by
      rw [State.noBurst, count_ubb, State.txLost, showTxLock_ubb]
      exact hquiet
    rw [wires_txHalt_planes hbursts, count_wires, State.txLost, showTxLock_wires]
  case mem =>
    have hall : Changes (fun _ _ => True) s ((List.range 24).foldl State.txHalt (s.txLost.count R.clkCounts F.clkCounts_pllUnlocks)) :=
      Changes.foldl (Changes.count (Changes.showTxLock (Changes.frame .refl) trivial fun _ => trivial) trivial) fun t p _ ht =>
        ht.trans ((moves_txHalt t p).changes.mono fun _ _ _ => trivial)
    exact hall.memKept

/-! ## Relock and resumption -/

theorem exec_txpllRelock : exec .txpllRelock s =
    .next (if s.med.txLock then s else { s with med := { s.med with txLock := true, txWait := true } }.showTxLock) := rfl

theorem txpllRelock_unlocked (h : s.med.txLock = false) :
    ∃ t : State, exec .txpllRelock s = .next t ∧ t.med.txLock = true ∧ t.med.txWait = true ∧
      (∀ p : Plane, t.bit (R.medLaneStatus p) F.medLaneStatus_txpllLock = true) ∧ memKept s t := by
  have hmed := showTxLock_med { s with med := { s.med with txLock := true, txWait := true } }
  rw [exec_txpllRelock, if_neg (by rw [h]; decide)]
  exact ⟨_, rfl, congrArg MedState.txLock hmed, congrArg MedState.txWait hmed, txpllLock_showTxLock _,
    (changes_showTxLock { s with med := { s.med with txLock := true, txWait := true } }).memKept⟩

theorem exec_txpllResume : exec .txpllResume s =
    .next (if s.med.txLock then { s with med := { s.med with txWait := false } }.testResumes else s) := rfl

/-- A lane driven by a test setting leaves electrical idle. -/
def State.testResume (s : State) (p : Nat) : State :=
  if s.testDrives p then s.setBit (R.medLaneStatus p) F.medLaneStatus_txIdle false else s

theorem changes_testResume (p : Nat) :
    Changes (fun a f => s.testDrives p = true ∧ (a, f) = (R.medLaneStatus p, F.medLaneStatus_txIdle)) s (s.testResume p) :=
  .ite (fun h => Changes.refl.setBit ⟨h, rfl⟩) fun _ => .refl

theorem testResume_med (p : Nat) : (s.testResume p).med = s.med := by
  unfold State.testResume
  split <;> rfl

/-- Which lanes a test setting drives rests on LANE_EN, MED.TEST and the PLL alone. -/
theorem testDrives_congr {s t : State} (hregs : ∀ a, (∀ p, a ≠ R.medLaneStatus p) → t.reg a = s.reg a) (hmed : t.med = s.med) (p : Nat) :
    t.testDrives p = s.testDrives p := by
  simp only [State.testDrives, State.loopback, State.patGen, State.bit, State.fld, hmed,
    hregs _ (medLaneCfg_ne_medLaneStatus p), hregs _ (medTest_ne_medLaneStatus p)]
  rfl

theorem testDrives_testResume (p q : Nat) : (s.testResume p).testDrives q = s.testDrives q :=
  testDrives_congr (fun _ ha => (changes_testResume s p).reg fun _ hf => ha p (congrArg Prod.fst hf.2)) (testResume_med s p) q

theorem txIdle_testResume {s : State} {p : Nat} (h : s.testDrives p = true) :
    (s.testResume p).bit (R.medLaneStatus p) F.medLaneStatus_txIdle = false := by
  rw [State.testResume, if_pos h]
  exact bit_setBit_same _ _ _ _ rfl (by decide)

/-- The lanes that test settings drive leave electrical idle. -/
theorem testResumes_planes : (∀ q, s.testResumes.testDrives q = s.testDrives q) ∧
    ∀ p : Plane, s.testDrives p = true → s.testResumes.bit (R.medLaneStatus p) F.medLaneStatus_txIdle = false := by
  have hfold := foldl_forall (I := fun t : State => ∀ q, t.testDrives q = s.testDrives q)
    (P := fun p (t : State) => s.testDrives p = true → t.bit (R.medLaneStatus p) F.medLaneStatus_txIdle = false) (f := State.testResume)
    (fun t p ht q => (testDrives_testResume t p q).trans (ht q)) (fun t p ht hp => txIdle_testResume ((ht p).trans hp))
    (fun t p c ht hc hdrives => by
      by_cases hp : c = p
      · exact hp ▸ txIdle_testResume ((ht c).trans hdrives)
      · rw [(changes_testResume t p).bit fun g hg => absurd (medLaneStatus_inj.1 (congrArg Prod.fst hg.2)) hp, hc hdrives])
    (List.range 24) (b := s) fun _ => rfl
  exact ⟨hfold.1, fun p => hfold.2 p (mem_planes p)⟩

theorem changes_testResumes : Changes (fun a _ => ∃ p : Plane, s.testDrives p = true ∧ a = R.medLaneStatus p) s s.testResumes := by
  refine (List.foldlRecOn (motive := fun t : State => Changes (fun a _ => ∃ p : Plane, s.testDrives p = true ∧ a = R.medLaneStatus p) s t ∧
    ∀ q, t.testDrives q = s.testDrives q) _ State.testResume ⟨.refl, fun _ => rfl⟩ fun t ht p hp => ⟨?_, fun q => ?_⟩).1
  · exact ht.1.trans ((changes_testResume t p).mono fun a f hf => ⟨⟨p, List.mem_range.1 hp⟩, (ht.2 p).symm.trans hf.1, congrArg Prod.fst hf.2⟩)
  · exact (testDrives_testResume t p q).trans (ht.2 q)

theorem testResumes_med : s.testResumes.med = s.med := foldl_keep State.med State.testResume testResume_med _ s

theorem txpllResume_locked (h : s.med.txLock = true) :
    ∃ t : State, exec .txpllResume s = .next t ∧ t.med.txLock = true ∧ t.med.txWait = false ∧ memKept s t ∧
      (∀ p : Plane, t.testDrives p = true → t.bit (R.medLaneStatus p) F.medLaneStatus_txIdle = false) ∧
      (∀ p : Plane, t.testDrives p = false → t.reg (R.medLaneStatus p) = s.reg (R.medLaneStatus p)) ∧
      (∀ a, (∀ p : Plane, a ≠ R.medLaneStatus p) → t.reg a = s.reg a) := by
  rw [exec_txpllResume, if_pos h]
  generalize hu : ({ s with med := { s.med with txWait := false } } : State) = u
  have hlock : u.med.txLock = true := hu ▸ h
  have hwait : u.med.txWait = false := hu ▸ rfl
  have hreg : ∀ a, u.reg a = s.reg a := fun _ => hu ▸ rfl
  have hmem : u.mem = s.mem := hu ▸ rfl
  obtain ⟨hdrives, hidle⟩ := testResumes_planes u
  have hc := changes_testResumes u
  refine ⟨_, rfl, ?_, ?_, memKept_of_eq (hc.1.trans hmem), fun p hp => ?_, fun p hp => ?_, fun a ha => ?_⟩
  · rw [testResumes_med, hlock]
  · rw [testResumes_med, hwait]
  · exact hidle p ((hdrives p).symm.trans hp)
  · rw [hc.reg, hreg]
    rintro _ ⟨q, hq, heq⟩
    rw [← medLaneStatus_inj.1 heq, ← hdrives, hp] at hq
    cases hq
  · rw [hc.reg, hreg]
    rintro _ ⟨q, _, heq⟩
    exact ha q heq

/-- Settles O11: loss, relock and resumption each as stated above. -/
theorem transmitPllLockAndLoss : Obligations.TransmitPllLockAndLoss := fun s =>
  ⟨txpllUnlock_locked s, txpllRelock_unlocked s, txpllResume_locked s⟩

end Sys2Proof.Machine
end

section
/-!
SUPPORT. A plane that falls to DOWN with its lane (R60, R163, R165): which registers PLANE_RELEASE and the terminal's step change.
-/

namespace Sys2Proof.Machine

variable (s : State)

/-! ## The terminal's registers -/

/-- The registers that PLANE_RELEASE and a step of the terminal change: those of the data path, HINGE and the ward, and the state of the
terminal with its counters and its id. The planes' states are none of them. -/
def TermReg (a : Nat) : Prop :=
  PathReg a ∨ unitOf a ∈ [0x97, 0x9C] ∨ a ∈ [R.sysTermState, R.sysMediumCounts, R.dfpIdent]

theorem not_termReg_of_unit {a : Nat} (h : ¬PathReg a) (hu : 0x10 ≤ unitOf a ∧ unitOf a < 0x28) : ¬TermReg a := by
  simp only [unitOf] at hu
  simp only [TermReg, h, unitOf, R.sysTermState, R.sysMediumCounts, R.dfpIdent, List.mem_cons, List.not_mem_nil, or_false, false_or]
  omega

theorem not_termReg_medLaneCfg (p : Plane) : ¬TermReg (R.medLaneCfg p) :=
  not_termReg_of_unit (not_pathReg_medLaneCfg p) (by have := p.isLt; simp only [unitOf, R.medLaneCfg]; omega)

theorem not_termReg_medLaneStatus (p : Plane) : ¬TermReg (R.medLaneStatus p) :=
  not_termReg_of_unit (not_pathReg_medLaneStatus p) (by have := p.isLt; simp only [unitOf, R.medLaneStatus]; omega)

theorem not_termReg_dfpPlaneStatus (p : Plane) : ¬TermReg (R.dfpPlaneStatus p) := by
  have := p.isLt
  simp only [TermReg, not_pathReg_dfpPlaneStatus, unitOf, R.dfpPlaneStatus, R.sysTermState, R.sysMediumCounts, R.dfpIdent, List.mem_cons,
    List.not_mem_nil, or_false, false_or]
  omega

theorem not_termReg_sysPlaneState0 : ¬TermReg R.sysPlaneState0 := by unfold TermReg PathReg; decide
theorem not_termReg_sysPlaneState1 : ¬TermReg R.sysPlaneState1 := by unfold TermReg PathReg; decide

/-! ## The plane's state -/

theorem planeState_congr {s t : State} (h0 : t.reg R.sysPlaneState0 = s.reg R.sysPlaneState0) (h1 : t.reg R.sysPlaneState1 = s.reg R.sysPlaneState1)
    (p : Nat) : t.planeState p = s.planeState p := by
  simp only [State.planeState, State.fld, h0, h1]

theorem planeState_setPlaneState (p : Plane) {v : Nat} (hv : v < 8) : (s.setPlaneState p v).planeState p = v := by
  have hp := p.isLt
  have hwidth : ∀ k, k + 2 + 1 - k = 3 := fun k => by omega
  unfold State.setPlaneState State.planeState
  split
  all_goals
    rw [fld_setFld_same _ _ _ _ (by dsimp only; omega) (by dsimp only; omega), hwidth]
    exact Nat.mod_eq_of_lt hv

theorem Changes.setPlaneState {W : Nat → Fld → Prop} {s t : State} (h : Changes W s t) {p v : Nat} (h0 : ∀ f, W R.sysPlaneState0 f)
    (h1 : ∀ f, W R.sysPlaneState1 f) : Changes W s (t.setPlaneState p v) := .ite (fun _ => h.setFld (h0 _)) fun _ => h.setFld (h1 _)

/-! ## PLANE_RELEASE and the terminal's step -/

theorem Passes.termReg {s t : State} (h : Passes s t) : Changes (fun a _ => TermReg a) s t := h.1.mono fun _ _ => .inl

theorem changes_clearPlane (p : Plane) : Changes (fun a _ => TermReg a) s (s.clearPlane p) := by
  have hp := p.isLt
  have hubb : ∀ {a}, 0xF100000000 ≤ a → TermReg a := fun h => .inl (.inr (.inl h))
  have hward : TermReg (R.wardPlaneEqd p) := .inr (.inl (by simp only [unitOf, R.wardPlaneEqd, List.mem_cons]; omega))
  have hrtd : TermReg (R.timePlaneRtd p) := .inl (pathReg_of_unit (by simp only [unitOf, R.timePlaneRtd, List.mem_cons]; omega))
  have hgroups : Changes (fun a _ => TermReg a) s
      ((((s.setPermit p 0).setEqd p 0).setReg (R.ubbPlaneGroups p) 0).setEplane p {}) :=
    Changes.frame (((((Changes.refl.setFld (hubb (by simp only [R.ubbPlaneCtl]; omega))).setFld
      (hubb (by simp only [R.ubbPlaneEqd]; omega))).setFld hward).setReg (hubb (by simp only [R.ubbPlaneGroups]; omega))))
  exact .ite (fun _ => (hgroups.setBit hrtd).trans Passes.refl.retime.termReg) fun _ => hgroups

theorem changes_setTerm (u : Nat) : Changes (fun a _ => TermReg a) s (s.setTerm u) :=
  have hstate : TermReg R.sysTermState := .inr (.inr (.head _))
  (Changes.refl.setFld hstate).setFld hstate

theorem changes_upPost (env : BitVec 64) (body : List Byte) (mark : Nat) : Changes (fun a _ => TermReg a) s (s.upPost env body mark).1 := by
  simp only [State.upPost, apply_ite Prod.fst]
  exact .ite (fun _ => .refl) fun _ => .refl

theorem changes_setLead (b : Bool) : Changes (fun a _ => TermReg a) s (s.setLead b) := by
  have hhinge : ∀ {a}, unitOf a = 0x97 → TermReg a := fun h => .inr (.inl (by simp [h]))
  refine .ite (fun _ => .refl) fun _ => ?_
  have hcount : Changes (fun a _ => TermReg a) s (((s.setBit R.hingeStatus F.hingeStatus_lead b).latch R.hingeStatus
      F.hingeStatus_leadChg).count R.hingeCounts0 F.hingeCounts0_leadChanges) :=
    ((Changes.refl.setBit (hhinge rfl)).latch (hhinge rfl)).count (hhinge rfl)
  have hmoved := hcount.foldl (f := fun t k => if t.ptpPort k = .disabled then t else t.ptpEnable k) (l := List.range 96)
    fun _ _ _ h => .ite (fun _ => h) fun _ => h.frame
  exact .ite (fun _ => Changes.count hmoved.frame (hhinge rfl)) fun _ => hmoved.frame

theorem changes_writeTid (tid : Nat) : Changes (fun a _ => TermReg a) s (s.writeTid tid) := by
  have hident : Changes (fun a _ => TermReg a) s (s.setFld R.dfpIdent F.dfpIdent_tid tid) :=
    Changes.refl.setFld (.inr (.inr (.tail _ (.tail _ (.head _)))))
  exact .ite (fun _ => Changes.trans hident.frame (changes_setLead _ _)) fun _ => hident

theorem changes_rangingStep : Changes (fun a _ => TermReg a) s s.rangingStep :=
  .ite (fun _ => (changes_setTerm s 5).trans (changes_upPost ..)) fun _ => .ite (fun _ => .refl) fun _ =>
    (changes_writeTid s 0x3FE).trans (changes_setTerm _ 2)

theorem changes_leaveAnnouncing : Changes (fun a _ => TermReg a) s s.leaveAnnouncing := by
  have hnone : Changes (fun a _ => TermReg a) s s.permitNone :=
    Changes.refl.foldl fun _ _ _ h => h.setFld (.inl (.inr (.inl (by simp only [R.ubbPlaneCtl]; omega))))
  exact hnone.frame.frame

/-- The terminal goes to HOLDOVER. -/
theorem changes_holdover {prior : Nat} : Changes (fun a _ => TermReg a) s
    { (s.count R.sysMediumCounts F.sysMediumCounts_holdovers).setTerm 6 with
      enrol := { ((s.count R.sysMediumCounts F.sysMediumCounts_holdovers).setTerm 6).enrol with prior := prior } } :=
  Changes.frame ((Changes.refl.count (.inr (.inr (.tail _ (.head _))))).trans (changes_setTerm _ 6))

theorem changes_termStep : Changes (fun a _ => TermReg a) s s.termStep := by
  have hdrop : Changes (fun a _ => TermReg a) s (if anyPlane s.aligned = true then s else s.leaveAnnouncing.toListening) :=
    .ite (fun _ => .refl) fun _ => (changes_leaveAnnouncing s).trans (changes_setTerm _ 1).frame
  unfold State.termStep
  dsimp only
  split
  case h_1 => exact .ite (fun _ => (changes_setTerm s 2).frame) fun _ => .refl
  case h_2 => exact hdrop
  case h_3 => exact hdrop
  case h_4 => exact .ite (fun _ => changes_holdover s) fun _ => changes_rangingStep s
  case h_5 => exact .ite (fun _ => changes_holdover s) fun _ => .refl
  case h_6 => exact .ite (fun _ => .refl) fun _ => .ite (fun _ => (changes_setTerm s 4).trans (changes_rangingStep _)) fun _ => changes_setTerm s _
  case h_7 => exact .refl

end Sys2Proof.Machine
end

section
/-!
SUPPORT. LANE_EN and GEN_MODE (R32, R60, R165): how a lane starts and how it stops.
-/

namespace Sys2Proof.Machine

variable (s : State) (p : Plane)

/-- The registers of the planes' states are none of a lane's. -/
theorem not_planeState_of_unit {a : Nat} (h : 0x10 ≤ unitOf a) : a ∉ [R.sysPlaneState0, R.sysPlaneState1] := by
  simp only [unitOf] at h
  simp only [R.sysPlaneState0, R.sysPlaneState1, List.mem_cons, List.not_mem_nil, or_false]
  omega

theorem medLaneCfg_not_planeState (p : Nat) : R.medLaneCfg p ∉ [R.sysPlaneState0, R.sysPlaneState1] :=
  not_planeState_of_unit (by simp only [unitOf, R.medLaneCfg]; omega)

theorem medLaneStatus_not_planeState (p : Nat) : R.medLaneStatus p ∉ [R.sysPlaneState0, R.sysPlaneState1] :=
  not_planeState_of_unit (by simp only [unitOf, R.medLaneStatus]; omega)

theorem dfpPlaneStatus_not_planeState (p : Nat) : R.dfpPlaneStatus p ∉ [R.sysPlaneState0, R.sysPlaneState1] :=
  not_planeState_of_unit (by simp only [unitOf, R.dfpPlaneStatus]; omega)

/-- LANE_CFG is none of the registers that a plane in SEARCH changes. -/
theorem medLaneCfg_not_searched : ∀ e ∈ searchFields p, e.1 ≠ R.medLaneCfg p := by
  have hplane : R.dfpPlaneStatus p ≠ R.medLaneCfg p := (medLaneCfg_ne_dfpPlaneStatus p p).symm
  have hstatus : R.medLaneStatus p ≠ R.medLaneCfg p := (medLaneCfg_ne_medLaneStatus p p).symm
  simp only [searchFields, huntFields, driverFields, List.forall_mem_cons]
  exact ⟨hplane, hplane, hplane, hstatus, hstatus, hstatus, hstatus, nofun⟩

/-! ## LANE_EN to 1 -/

/-- The lane's hunt starts with LANE_EN at 1. -/
def State.laneHunts (s : State) (p : Nat) : State := (s.setBit (R.medLaneCfg p) F.medLaneCfg_laneEn true).huntRestart p

/-- After its hunt has started a lane shows whether it is driven, and its plane leaves DOWN. -/
theorem changes_laneUp (p : Nat) :
    Changes (fun a f => (a, f) = (R.medLaneStatus p, F.medLaneStatus_txIdle) ∨ a ∈ [R.sysPlaneState0, R.sysPlaneState1])
      (s.laneHunts p) (s.laneUp p) := by
  have hidle : ∀ l b, Changes (fun a f => (a, f) = (R.medLaneStatus p, F.medLaneStatus_txIdle) ∨ a ∈ [R.sysPlaneState0, R.sysPlaneState1])
      (s.laneHunts p) (((s.laneHunts p).setLane p l).setBit (R.medLaneStatus p) F.medLaneStatus_txIdle b) := fun _ _ =>
    Changes.setBit (Changes.frame .refl) (.inl rfl)
  exact .ite (fun _ => (hidle _ _).setPlaneState (fun _ => .inr (.head _)) fun _ => .inr (.tail _ (.head _))) fun _ => hidle _ _

theorem cfg_laneUp : (s.laneUp p).reg (R.medLaneCfg p) = (s.setBit (R.medLaneCfg p) F.medLaneCfg_laneEn true).reg (R.medLaneCfg p) := by
  refine Eq.trans ((changes_laneUp s p).reg ?_) ((Moves.refl.huntRestart (List.Subset.refl (huntFields p))).reg (not_pathReg_medLaneCfg p)
    (by simp [huntFields, driverFields]))
  rintro f (hf | hf)
  · exact medLaneCfg_ne_medLaneStatus p p (congrArg Prod.fst hf)
  · exact medLaneCfg_not_planeState p hf

/-- A field of LANE_STATUS other than TX_IDLE is the one with which the hunt starts. -/
theorem status_laneUp {f : Fld} (hf : f.hi < 6 ∨ 6 < f.lo) :
    (s.laneUp p).fld (R.medLaneStatus p) f = (s.laneHunts p).fld (R.medLaneStatus p) f := by
  refine (changes_laneUp s p).fld ?_
  rintro g (hg | hg)
  · cases hg
    exact hf
  · exact absurd hg (medLaneStatus_not_planeState p)

theorem changes_laneUp_quiet (h : s.noBurst) :
    Changes (fun a _ => a ∈ [R.medLaneCfg p, R.medLaneStatus p, R.sysPlaneState0, R.sysPlaneState1]) s (s.laneUp p) := by
  have hen : Changes (fun a _ => a ∈ [R.medLaneCfg p, R.medLaneStatus p, R.sysPlaneState0, R.sysPlaneState1]) s
      (s.setBit (R.medLaneCfg p) F.medLaneCfg_laneEn true) := Changes.refl.setBit (.head _)
  have hhunt := changes_huntRestart_quiet (s := s.setBit (R.medLaneCfg p) F.medLaneCfg_laneEn true) h p
  refine (hen.trans (hhunt.mono ?_)).trans ((changes_laneUp s p).mono ?_)
  · rintro a _ rfl
    exact .tail _ (.head _)
  · rintro a f (hf | hf)
    · cases hf
      exact .tail _ (.head _)
    · exact .tail _ (.tail _ hf)

/-! ## LANE_EN to 0 -/

/-- The lane's transmitter stops, and the lane receives no longer. -/
def State.laneStops (s : State) (p : Nat) : State :=
  ((((s.setBit (R.medLaneCfg p) F.medLaneCfg_laneEn false).haltPlane p 8).setFld (R.medLaneStatus p) F.medLaneStatus_rate 0).setBit
    (R.medLaneStatus p) F.medLaneStatus_hunting false)

/-- The lane stops, and what its frame still gives is taken. -/
def State.laneStopped (s : State) (p : Nat) : State := (s.laneStops p).abandonFrame p

/-- The plane of a lane that stops goes to DOWN, and the terminal sees it where nobody else does. -/
theorem laneDown_cases : (s.laneStopped p).planeState p = 0 ∧ s.laneDown p = s.laneStopped p ∨
    s.laneDown p = (s.laneStopped p).releaseTo p 0 ∨ s.laneDown p = ((s.laneStopped p).releaseTo p 0).termStep := by
  rw [State.laneDown]
  split
  case isTrue h => exact .inl ⟨h, rfl⟩
  case isFalse =>
    split
    · exact .inr (.inr rfl)
    · exact .inr (.inl rfl)

theorem changes_releaseTo (st : Nat) : Changes (fun a _ => TermReg a ∨ a ∈ [R.sysPlaneState0, R.sysPlaneState1]) s (s.releaseTo p st) :=
  ((changes_clearPlane s p).mono fun _ _ => .inl).setPlaneState (fun _ => .inr (.head _)) fun _ => .inr (.tail _ (.head _))

/-- Beside the planes' states and what the terminal does, the lane is left as its frame was abandoned. -/
theorem changes_laneDown : Changes (fun a _ => TermReg a ∨ a ∈ [R.sysPlaneState0, R.sysPlaneState1])
    (s.laneStopped p) (s.laneDown p) := by
  rcases laneDown_cases s p with ⟨_, heq⟩ | heq | heq <;> rw [heq]
  · exact changes_releaseTo _ p 0
  · exact (changes_releaseTo _ p 0).trans ((changes_termStep _).mono fun _ _ => .inl)

theorem planeState_laneDown : (s.laneDown p).planeState p = 0 := by
  have hreleased : ∀ u : State, (u.releaseTo p 0).planeState p = 0 := fun u => planeState_setPlaneState _ p (by decide)
  rcases laneDown_cases s p with ⟨hst, heq⟩ | heq | heq <;> rw [heq]
  · exact hst
  · exact hreleased _
  · exact (planeState_congr ((changes_termStep _).reg fun _ => not_termReg_sysPlaneState0)
      ((changes_termStep _).reg fun _ => not_termReg_sysPlaneState1) p).trans (hreleased _)

/-- A register of the lane after its frame was abandoned. -/
theorem reg_laneDown {a : Nat} (ht : ¬TermReg a) (hs : a ∉ [R.sysPlaneState0, R.sysPlaneState1]) :
    (s.laneDown p).reg a = (s.laneStopped p).reg a := (changes_laneDown s p).reg fun _ hf => hf.elim ht hs

theorem cfg_laneStops : (s.laneStops p).reg (R.medLaneCfg p) = (s.setBit (R.medLaneCfg p) F.medLaneCfg_laneEn false).reg (R.medLaneCfg p) :=
  (reg_setBit_other _ _ _ (medLaneCfg_ne_medLaneStatus p p)).trans <| (reg_setFld_other _ _ _ (medLaneCfg_ne_medLaneStatus p p)).trans <|
    (Moves.refl.haltPlane (List.Subset.refl (driverFields p))).reg (not_pathReg_medLaneCfg p) (by simp [driverFields])

theorem laneOff_laneStops : (s.laneStops p).laneOff p := by
  refine ⟨?_, ?_, bit_setBit_same _ _ _ _ rfl (by decide)⟩
  · rw [State.bit, State.fld, cfg_laneStops]
    exact bit_setBit_same _ _ _ _ rfl (by decide)
  · exact (fld_setBit_field _ _ _ _ _ (by decide) (by decide) (by decide)).trans (fld_setFld_same _ _ _ _ (by decide) (by decide))

theorem cfg_laneDown : (s.laneDown p).reg (R.medLaneCfg p) = (s.setBit (R.medLaneCfg p) F.medLaneCfg_laneEn false).reg (R.medLaneCfg p) := by
  rw [reg_laneDown s p (not_termReg_medLaneCfg p) (medLaneCfg_not_planeState p), ← cfg_laneStops]
  exact (Moves.refl.abandonFrame (List.Subset.refl (searchFields p))).reg (not_pathReg_medLaneCfg p)
    (medLaneCfg_not_searched p)

theorem laneOff_laneDown : (s.laneDown p).laneOff p :=
  laneOff_congr (reg_laneDown s p (not_termReg_medLaneCfg p) (medLaneCfg_not_planeState p))
    (reg_laneDown s p (not_termReg_medLaneStatus p) (medLaneStatus_not_planeState p)) (laneOff_abandonFrame p (laneOff_laneStops s p))

theorem align_laneDown : (s.laneDown p).fld (R.dfpPlaneStatus p) F.dfpPlaneStatus_align = 0 := by
  rw [State.fld, reg_laneDown s p (not_termReg_dfpPlaneStatus p) (dfpPlaneStatus_not_planeState p)]
  exact align_abandonFrame _ p

/-! ## LANE_EN and GEN_MODE -/

/-- LANE_EN takes its value, the other fields of LANE_CFG stay. -/
theorem cfg_laneEnable (b : Bool) : (s.laneEnable p b).bit (R.medLaneCfg p) F.medLaneCfg_laneEn = b ∧
    ∀ f : Fld, 0 < f.lo → (s.laneEnable p b).fld (R.medLaneCfg p) f = s.fld (R.medLaneCfg p) f := by
  have hset : ∀ t : State, t.reg (R.medLaneCfg p) = (s.setBit (R.medLaneCfg p) F.medLaneCfg_laneEn b).reg (R.medLaneCfg p) →
      t.bit (R.medLaneCfg p) F.medLaneCfg_laneEn = b ∧ ∀ f : Fld, 0 < f.lo → t.fld (R.medLaneCfg p) f = s.fld (R.medLaneCfg p) f := by
    intro t ht
    refine ⟨?_, fun f hf => ?_⟩
    · rw [State.bit, State.fld, ht]
      exact bit_setBit_same _ _ _ _ rfl (by decide)
    · rw [State.fld, ht]
      exact fld_setBit_field _ _ _ _ _ (by decide) (by decide) (.inr hf)
  unfold State.laneEnable
  split
  case isTrue h => exact ⟨h, fun _ _ => rfl⟩
  case isFalse =>
    cases b
    · exact hset _ (cfg_laneDown s p)
    · exact hset _ (cfg_laneUp s p)

/-- A change of GEN_MODE leaves LANE_CFG as written. -/
theorem cfg_modeChanged : (s.modeChanged p).reg (R.medLaneCfg p) = s.reg (R.medLaneCfg p) := by
  have hhunting : ∀ b, Moves (searchFields p) s (s.setBit (R.medLaneStatus p) F.medLaneStatus_hunting b) := fun b =>
    Moves.refl.setBit (by simp [searchFields, huntFields])
  have hmoves : Moves (searchFields p) s (s.modeChanged p) := by
    refine .ite (fun _ => .ite (fun _ => hhunting _) fun _ => ?_) fun _ => .ite (fun _ => hhunting _) fun _ => ?_
    · exact (Moves.refl.abandonFrame (List.Subset.refl _)).huntRestart (huntFields_subset p)
    · exact ((hhunting false).setRate (by simp [searchFields, huntFields])).abandonFrame (List.Subset.refl _)
  exact hmoves.reg (not_pathReg_medLaneCfg p) (medLaneCfg_not_searched p)

end Sys2Proof.Machine
end

section
/-!
SUPPORT. Writes of LANE_CFG and MED.TEST and the end of a dwell (R32, R56 to R58, R60); O9 is settled here.
-/

namespace Sys2Proof.Machine

variable (s : State) (p : Plane) (v : Word)

/-! ## LANE_CFG -/

theorem exec_medLaneCfgWrite : exec (.medLaneCfgWrite p v) s = .next (s.laneCfg p v) := rfl

theorem exec_medTestWrite : exec (.medTestWrite p v) s = .next (s.testWrite p v) := rfl

/-- A refused write latches TEST_REFUSED and changes nothing else. -/
theorem testRefused_latched : (s.latch (R.medDefect p) F.medDefect_testRefused).bit (R.medDefect p) F.medDefect_testRefused = true ∧
    regsKept s (s.latch (R.medDefect p) F.medDefect_testRefused) [R.medDefect p] ∧
    memKept s (s.latch (R.medDefect p) F.medDefect_testRefused) := by
  have hc : Changes (fun a _ => a ∈ [R.medDefect p]) s (s.latch (R.medDefect p) F.medDefect_testRefused) := Changes.refl.latch (.head _)
  exact ⟨bit_latch_same _ _ _ rfl (by decide), hc.regsKept, hc.memKept⟩

/-- LANE_CFG takes its fields, but LANE_EN. -/
def State.cfgTaken (s : State) (p : Nat) (v : Word) : State :=
  s.setReg (R.medLaneCfg p) (BitVec.ofNat 64 (bitsOf v.toNat 5 2 * 4 + (s.reg (R.medLaneCfg p)).toNat % 2))

theorem bitOf_eq_bitsOf (n i : Nat) : bitOf n i = (bitsOf n i i != 0) := by
  rw [bitOf, bitsOf, show i + 1 - i = 1 by omega, pow_one]
  rcases Nat.mod_two_eq_zero_or_one (n / 2 ^ i) with h | h <;> rw [h] <;> rfl

/-- A word made of a field from bit 2 on and of bit 0. -/
theorem toNat_cfgTaken : ((s.cfgTaken p v).reg (R.medLaneCfg p)).toNat = bitsOf v.toNat 5 2 * 4 + (s.reg (R.medLaneCfg p)).toNat % 2 := by
  have hv := bitsOf_lt v.toNat 5 2
  rw [State.cfgTaken, reg_setReg_same, BitVec.toNat_ofNat]
  omega

theorem fields_cfgTaken : (s.cfgTaken p v).fld (R.medLaneCfg p) ⟨5, 2⟩ = bitsOf v.toNat 5 2 := by
  rw [State.fld, toNat_cfgTaken]
  simp only [bitsOf]
  omega

theorem genMode_cfgTaken : (s.cfgTaken p v).fld (R.medLaneCfg p) F.medLaneCfg_genMode = bitsOf v.toNat 3 2 := by
  rw [State.fld, toNat_cfgTaken]
  simp only [bitsOf]
  omega

theorem laneEn_cfgTaken : (s.cfgTaken p v).bit (R.medLaneCfg p) F.medLaneCfg_laneEn = s.bit (R.medLaneCfg p) F.medLaneCfg_laneEn := by
  have hbit : bitsOf ((s.cfgTaken p v).reg (R.medLaneCfg p)).toNat 0 0 = bitsOf (s.reg (R.medLaneCfg p)).toNat 0 0 := by
    rw [toNat_cfgTaken]
    simp only [bitsOf]
    omega
  rw [State.bit, State.fld, hbit]
  rfl

/-- The lane's hunt follows a new GEN_MODE while the lane stays enabled. -/
def State.cfgFollowed (s : State) (p : Nat) (v : Word) : State :=
  if min 2 (bitsOf (s.reg (R.medLaneCfg p)).toNat 3 2) ≠ min 2 (bitsOf v.toNat 3 2) ∧ bitOf (s.reg (R.medLaneCfg p)).toNat 0 ∧
    bitOf v.toNat 0 then (s.cfgTaken p v).modeChanged p else s.cfgTaken p v

section
variable {s p v}

theorem laneCfg_refused (hst : s.planeState p = 3 ∨ s.planeState p = 4)
    (hnew : bitsOf (s.reg (R.medLaneCfg p)).toNat 5 2 ≠ bitsOf v.toNat 5 2) :
    ∃ t : State, exec (.medLaneCfgWrite p v) s = .next t ∧ t.bit (R.medDefect p) F.medDefect_testRefused = true ∧
      regsKept s t [R.medDefect p] ∧ memKept s t := by
  have heq : s.laneCfg p v = s.latch (R.medDefect p) F.medDefect_testRefused := if_pos ⟨hst, hnew⟩
  rw [exec_medLaneCfgWrite, heq]
  exact ⟨_, rfl, testRefused_latched s p⟩

theorem laneCfg_taken (h : ¬((s.planeState p = 3 ∨ s.planeState p = 4) ∧ bitsOf (s.reg (R.medLaneCfg p)).toNat 5 2 ≠ bitsOf v.toNat 5 2)) :
    s.laneCfg p v = (s.cfgFollowed p v).laneEnable p (bitOf v.toNat 0) := if_neg h

theorem cfg_cfgFollowed : (s.cfgFollowed p v).reg (R.medLaneCfg p) = (s.cfgTaken p v).reg (R.medLaneCfg p) := by
  unfold State.cfgFollowed
  split
  · exact cfg_modeChanged _ p
  · rfl

/-- Where LANE_EN is not 1 before and after, the hunt does not follow. -/
theorem cfgFollowed_eq (h : s.bit (R.medLaneCfg p) F.medLaneCfg_laneEn = false ∨ bitOf v.toNat 0 = false) :
    s.cfgFollowed p v = s.cfgTaken p v := by
  refine if_neg fun ⟨_, hold, hnew⟩ => ?_
  rw [bitOf_eq_bitsOf] at hold
  rcases h with h | h
  · rw [State.bit, State.fld, hold] at h
    cases h
  · rw [h] at hnew
    cases hnew

/-- A lane that is enabled starts at the rate of its GEN_MODE, and hunts for GEN_MODE 2 and 3. -/
theorem laneEnable_starts (hen : s.bit (R.medLaneCfg p) F.medLaneCfg_laneEn = false) :
    ((s.cfgTaken p v).laneEnable p true).fld (R.medLaneStatus p) F.medLaneStatus_rate = (if bitsOf v.toNat 3 2 = 1 then 1 else 2) ∧
    ((s.cfgTaken p v).laneEnable p true).bit (R.medLaneStatus p) F.medLaneStatus_hunting = decide (2 ≤ bitsOf v.toNat 3 2) := by
  have hup : (s.cfgTaken p v).laneEnable p true = (s.cfgTaken p v).laneUp p := if_neg (by rw [laneEn_cfgTaken, hen]; decide)
  generalize hu : (s.cfgTaken p v).setBit (R.medLaneCfg p) F.medLaneCfg_laneEn true = u
  have hon : u.bit (R.medLaneCfg p) F.medLaneCfg_laneEn = true := hu ▸ bit_setBit_same _ _ _ _ rfl (by decide)
  have hmode : u.fld (R.medLaneCfg p) F.medLaneCfg_genMode = bitsOf v.toNat 3 2 :=
    hu ▸ (fld_setBit_field _ _ _ _ _ (by decide) (by decide) (by decide)).trans (genMode_cfgTaken s p v)
  rw [hup, State.bit, status_laneUp _ p (by decide), status_laneUp _ p (by decide), State.laneHunts, hu, ← State.bit,
    rate_huntRestart, hunting_huntRestart, startRate_enabled hon, hon, hmode, State.huntMode, hmode]
  exact ⟨rfl, rfl⟩

/-- A lane that is disabled ends with no rate, no hunt, no alignment, and its plane in DOWN. -/
theorem laneEnable_stops (hen : s.bit (R.medLaneCfg p) F.medLaneCfg_laneEn = true) :
    ((s.cfgTaken p v).laneEnable p false).fld (R.medLaneStatus p) F.medLaneStatus_rate = 0 ∧
    ((s.cfgTaken p v).laneEnable p false).bit (R.medLaneStatus p) F.medLaneStatus_hunting = false ∧
    ((s.cfgTaken p v).laneEnable p false).fld (R.dfpPlaneStatus p) F.dfpPlaneStatus_align = 0 ∧
    ((s.cfgTaken p v).laneEnable p false).planeState p = 0 := by
  have hdown : (s.cfgTaken p v).laneEnable p false = (s.cfgTaken p v).laneDown p := if_neg (by rw [laneEn_cfgTaken, hen]; decide)
  obtain ⟨_, hrate, hhunting⟩ := laneOff_laneDown (s.cfgTaken p v) p
  rw [hdown]
  exact ⟨hrate, hhunting, align_laneDown _ p, planeState_laneDown _ p⟩

theorem changes_laneEnable_quiet (hquiet : s.noBurst) (hen : s.bit (R.medLaneCfg p) F.medLaneCfg_laneEn = false) :
    Changes (fun a _ => a ∈ [R.medLaneCfg p, R.medLaneStatus p, R.sysPlaneState0, R.sysPlaneState1]) s
      ((s.cfgTaken p v).laneEnable p (bitOf v.toNat 0)) := by
  have htaken : Changes (fun a _ => a ∈ [R.medLaneCfg p, R.medLaneStatus p, R.sysPlaneState0, R.sysPlaneState1]) s (s.cfgTaken p v) :=
    Changes.refl.setReg (.head _)
  have hup := htaken.trans (changes_laneUp_quiet (s.cfgTaken p v) p hquiet)
  cases bitOf v.toNat 0
  case false =>
    rw [State.laneEnable, laneEn_cfgTaken, if_pos hen]
    exact htaken
  case true => exact .ite (fun _ => htaken) fun _ => hup

theorem laneCfgWrite_taken
    (h : ¬((s.planeState p = 3 ∨ s.planeState p = 4) ∧ bitsOf (s.reg (R.medLaneCfg p)).toNat 5 2 ≠ bitsOf v.toNat 5 2)) :
    ∃ t : State, exec (.medLaneCfgWrite p v) s = .next t ∧
      t.fld (R.medLaneCfg p) ⟨5, 2⟩ = bitsOf v.toNat 5 2 ∧ t.bit (R.medLaneCfg p) F.medLaneCfg_laneEn = bitOf v.toNat 0 ∧
      (s.bit (R.medLaneCfg p) F.medLaneCfg_laneEn = false → bitOf v.toNat 0 = true →
        t.fld (R.medLaneStatus p) F.medLaneStatus_rate = (if bitsOf v.toNat 3 2 = 1 then 1 else 2) ∧
        t.bit (R.medLaneStatus p) F.medLaneStatus_hunting = decide (2 ≤ bitsOf v.toNat 3 2)) ∧
      (s.bit (R.medLaneCfg p) F.medLaneCfg_laneEn = true → bitOf v.toNat 0 = false →
        t.fld (R.medLaneStatus p) F.medLaneStatus_rate = 0 ∧ t.bit (R.medLaneStatus p) F.medLaneStatus_hunting = false ∧
        t.fld (R.dfpPlaneStatus p) F.dfpPlaneStatus_align = 0 ∧ t.planeState p = 0) ∧
      (s.noBurst → s.bit (R.medLaneCfg p) F.medLaneCfg_laneEn = false →
        memKept s t ∧ regsKept s t [R.medLaneCfg p, R.medLaneStatus p, R.sysPlaneState0, R.sysPlaneState1]) := by
  obtain ⟨hlaneEn, hfields⟩ := cfg_laneEnable (s.cfgFollowed p v) p (bitOf v.toNat 0)
  rw [exec_medLaneCfgWrite, laneCfg_taken h]
  refine ⟨_, rfl, ?_, hlaneEn, fun hen hnew => ?_, fun hen hnew => ?_, fun hquiet hen => ?_⟩
  · rw [hfields _ (by decide), State.fld, cfg_cfgFollowed]
    exact fields_cfgTaken s p v
  · rw [cfgFollowed_eq (.inl hen), hnew]
    exact laneEnable_starts hen
  · rw [cfgFollowed_eq (.inr hnew), hnew]
    exact laneEnable_stops hen
  · rw [cfgFollowed_eq (.inl hen)]
    have hc := changes_laneEnable_quiet (v := v) hquiet hen
    exact ⟨hc.memKept, hc.regsKept⟩

end

/-! ## MED.TEST -/

/-- MED.TEST takes its fields; a checker that is switched off starts anew. -/
def State.testTaken (s : State) (p : Nat) (v : Word) : State :=
  let t := (s.setFld (R.medTest p) ⟨7, 5⟩ (bitsOf v.toNat 7 5)).setFld (R.medTest p) F.medTest_loopback (bitsOf v.toNat 2 0)
  if bitOf v.toNat 7 then t
  else (t.setBit (R.medTest p) F.medTest_chkLock false).setLane p { t.lane p with chk := 0, chkRun := 0, chkErr := [] }

/-- A pattern other than the one that is sent starts anew. -/
def State.patternTaken (s : State) (p : Nat) (same : Prop) [Decidable same] : State := if same then s else s.startPattern p

/-- Lock in the near-end parallel loopback follows the looped signal (R56). -/
def State.loopLocked (s : State) (p : Nat) : State :=
  if s.loopback p = 2 then
    if s.patGen p = 0 then s.setLol p
    else if s.bit (R.medLaneStatus p) F.medLaneStatus_los then s
    else s.setBit (R.medLaneStatus p) F.medLaneStatus_lol false
  else s

section
variable {s p v}

theorem testWrite_refused (hst : 2 ≤ s.planeState p) (hset : bitsOf v.toNat 6 5 ≠ 0 ∨ bitsOf v.toNat 2 0 ≠ 0) :
    ∃ t : State, exec (.medTestWrite p v) s = .next t ∧ t.bit (R.medDefect p) F.medDefect_testRefused = true ∧
      regsKept s t [R.medDefect p] ∧ memKept s t := by
  have heq : s.testWrite p v = s.latch (R.medDefect p) F.medDefect_testRefused := if_pos ⟨hset, hst⟩
  rw [exec_medTestWrite, heq]
  exact ⟨_, rfl, testRefused_latched s p⟩

theorem testWrite_taken (h : ¬((bitsOf v.toNat 6 5 ≠ 0 ∨ bitsOf v.toNat 2 0 ≠ 0) ∧ 2 ≤ s.planeState p)) :
    s.testWrite p v =
      if bitsOf v.toNat 6 5 = s.patGen p ∧ bitsOf v.toNat 2 0 = s.fld (R.medTest p) F.medTest_loopback then s.testTaken p v
      else (((s.testTaken p v).patternTaken p (bitsOf v.toNat 6 5 = s.patGen p)).haltPlane p 8).loopLocked p := if_neg h

/-- The fields of MED.TEST as written. -/
theorem fields_testTaken : (s.testTaken p v).fld (R.medTest p) F.medTest_loopback = bitsOf v.toNat 2 0 ∧
    (s.testTaken p v).fld (R.medTest p) ⟨7, 5⟩ = bitsOf v.toNat 7 5 := by
  have hloop : ∀ t : State, (t.setFld (R.medTest p) F.medTest_loopback (bitsOf v.toNat 2 0)).fld (R.medTest p) F.medTest_loopback =
      bitsOf v.toNat 2 0 := fun t => (fld_setFld_same _ _ _ _ (by decide) (by decide)).trans (Nat.mod_eq_of_lt (bitsOf_lt v.toNat 2 0))
  have hpat : ((s.setFld (R.medTest p) ⟨7, 5⟩ (bitsOf v.toNat 7 5)).setFld (R.medTest p) F.medTest_loopback (bitsOf v.toNat 2 0)).fld
      (R.medTest p) ⟨7, 5⟩ = bitsOf v.toNat 7 5 :=
    (fld_setFld_field _ _ _ _ _ (by decide) (by decide) (by decide)).trans
      ((fld_setFld_same _ _ _ _ (by decide) (by decide)).trans (Nat.mod_eq_of_lt (bitsOf_lt v.toNat 7 5)))
  unfold State.testTaken
  dsimp only
  split
  · exact ⟨hloop _, hpat⟩
  · exact ⟨(fld_setBit_field _ _ _ _ _ (by decide) (by decide) (by decide)).trans (hloop _),
      (fld_setBit_field _ _ _ _ _ (by decide) (by decide) (by decide)).trans hpat⟩

theorem moves_patternTaken {l : List (Nat × Fld)} {same : Prop} [Decidable same] : Moves l s (s.patternTaken p same) :=
  .ite (fun _ => .refl) fun _ => Moves.refl.setLane fun h => h

theorem moves_loopLocked : Moves (lolFields p) s (s.loopLocked p) :=
  .ite (fun _ => .ite (fun _ => Moves.refl.setLol (List.Subset.refl _)) fun _ => .ite (fun _ => .refl) fun _ => Moves.refl.setBit (.head _))
    fun _ => .refl

/-- What a new test setting stops and locks leaves MED.TEST as written. -/
theorem test_testWrite (h : ¬((bitsOf v.toNat 6 5 ≠ 0 ∨ bitsOf v.toNat 2 0 ≠ 0) ∧ 2 ≤ s.planeState p)) :
    (s.testWrite p v).reg (R.medTest p) = (s.testTaken p v).reg (R.medTest p) := by
  have hmoves : Moves (lolFields p) (s.testTaken p v) (s.testWrite p v) := by
    rw [testWrite_taken h]
    exact .ite (fun _ => .refl) fun _ => Moves.trans (Moves.haltPlane moves_patternTaken fun _ he =>
      searchFields_subset p (huntFields_subset p (driverFields_subset p he))) moves_loopLocked
  exact hmoves.reg (by simp) (by simp [lolFields, searchFields, huntFields, driverFields])

/-- The registers of a lane that MED.TEST bears on. -/
abbrev testRegs (p : Nat) : List Nat := [R.medTest p, R.medLaneStatus p, R.medDefect p, R.dfpPlaneStatus p]

theorem changes_testTaken : Changes (fun a _ => a ∈ [R.medTest p]) s (s.testTaken p v) := by
  have hset : Changes (fun a _ => a ∈ [R.medTest p]) s
      ((s.setFld (R.medTest p) ⟨7, 5⟩ (bitsOf v.toNat 7 5)).setFld (R.medTest p) F.medTest_loopback (bitsOf v.toNat 2 0)) :=
    (Changes.refl.setFld (.head _)).setFld (.head _)
  exact .ite (fun _ => hset) fun _ => (hset.setBit (.head _)).frame

theorem changes_patternTaken {W : Nat → Fld → Prop} {same : Prop} [Decidable same] : Changes W s (s.patternTaken p same) :=
  .ite (fun _ => .refl) fun _ => Changes.frame .refl

/-- Bursts and frames are as they were when the new setting is in force. -/
theorem taken_frame {same : Prop} [Decidable same] : ((s.testTaken p v).patternTaken p same).ubb = s.ubb ∧
    ((s.testTaken p v).patternTaken p same).dfp = s.dfp := by
  unfold State.patternTaken State.testTaken
  dsimp only
  split <;> split <;> exact ⟨rfl, rfl⟩

theorem changes_loopLocked_idle (h : s.idlePlane p) : Changes (fun a _ => a ∈ lolRegs p) s (s.loopLocked p) :=
  .ite (fun _ => .ite (fun _ => changes_setLol_idle h) fun _ => .ite (fun _ => .refl) fun _ => Changes.refl.setBit (.head _)) fun _ => .refl

/-- With no burst in progress and no frame taken a new test setting changes registers of the lane alone. -/
theorem changes_testWrite_quiet (h : ¬((bitsOf v.toNat 6 5 ≠ 0 ∨ bitsOf v.toNat 2 0 ≠ 0) ∧ 2 ≤ s.planeState p)) (hquiet : s.noBurst)
    (hidle : s.idlePlane p) : Changes (fun a _ => a ∈ testRegs p) s (s.testWrite p v) := by
  have htaken : Changes (fun a _ => a ∈ [R.medTest p]) s (s.testTaken p v) := changes_testTaken
  have htest : Changes (fun a _ => a ∈ testRegs p) s (s.testTaken p v) := htaken.mono fun _ _ ha => List.mem_singleton.1 ha ▸ .head _
  rw [testWrite_taken h]
  refine .ite (fun _ => htest) fun _ => ?_
  generalize hu : (s.testTaken p v).patternTaken p (bitsOf v.toNat 6 5 = s.patGen p) = u
  have hsu : Changes (fun a _ => a ∈ [R.medTest p]) s u := hu ▸ htaken.trans changes_patternTaken
  obtain ⟨hubb, hdfp⟩ : u.ubb = s.ubb ∧ u.dfp = s.dfp := hu ▸ taken_frame
  have hhalt : u.haltPlane p 8 = u.stopPlane p := haltPlane_quiet (by rwa [State.noBurst, hubb]) p 8
  have hstop := changes_stopPlane u p
  have hstill : (u.stopPlane p).idlePlane p := by
    refine idlePlane_congr ?_ (Eq.trans rfl hdfp) hidle
    exact (hstop.reg fun _ => dfpPlaneStatus_ne_medLaneStatus p).trans (hsu.reg fun _ ha =>
      dfpPlaneStatus_ne_medTest p (List.mem_singleton.1 ha))
  rw [hhalt]
  refine ((hsu.mono fun _ _ ha => List.mem_singleton.1 ha ▸ .head _).trans (hstop.mono fun _ _ ha => ha ▸ .tail _ (.head _))).trans
    ((changes_loopLocked_idle hstill).mono fun _ _ ha => .tail _ ha)

theorem medTestWrite_taken (h : ¬((bitsOf v.toNat 6 5 ≠ 0 ∨ bitsOf v.toNat 2 0 ≠ 0) ∧ 2 ≤ s.planeState p)) :
    ∃ t : State, exec (.medTestWrite p v) s = .next t ∧
      t.fld (R.medTest p) F.medTest_loopback = bitsOf v.toNat 2 0 ∧ t.fld (R.medTest p) F.medTest_patGen = bitsOf v.toNat 6 5 ∧
      t.bit (R.medTest p) F.medTest_patChk = bitOf v.toNat 7 ∧
      (s.noBurst → s.aligned p = false → (s.dplane p).taking = false →
        memKept s t ∧ regsKept s t [R.medTest p, R.medLaneStatus p, R.medDefect p, R.dfpPlaneStatus p]) := by
  obtain ⟨hloop, hpat⟩ := fields_testTaken (s := s) (p := p) (v := v)
  have hfield : ∀ f, (s.testWrite p v).fld (R.medTest p) f = (s.testTaken p v).fld (R.medTest p) f := fun f => by
    rw [State.fld, State.fld, test_testWrite h]
  have hpart : ∀ a b, 5 + a ≤ 7 → (s.testTaken p v).fld (R.medTest p) ⟨5 + a, 5 + b⟩ = bitsOf v.toNat (5 + a) (5 + b) := fun a b hab => by
    rw [← bitsOf_bitsOf _ 7 5 a b hab, ← hpat]
    exact (bitsOf_bitsOf _ 7 5 a b hab).symm
  rw [exec_medTestWrite]
  refine ⟨_, rfl, (hfield _).trans hloop, (hfield _).trans (hpart 1 0 (by decide)), ?_, fun hquiet ha ht => ?_⟩
  · rw [bitOf_eq_bitsOf, State.bit, hfield]
    exact congrArg (· != 0) (hpart 2 2 (by decide))
  · have hc := changes_testWrite_quiet h hquiet ⟨ha, ht⟩
    exact ⟨hc.memKept, hc.regsKept⟩

end

/-! ## The dwell -/

theorem exec_huntDwellExpiry : exec (.huntDwellExpiry p) s = .next (s.dwellEnd p) := rfl

section
variable {s p}
variable (hhunt : s.bit (R.medLaneStatus p) F.medLaneStatus_hunting = true)
include hhunt

theorem dwellEnd_search (halign : s.fld (R.dfpPlaneStatus p) F.dfpPlaneStatus_align = 0) :
    ∃ t : State, exec (.huntDwellExpiry p) s = .next t ∧
      t.fld (R.medLaneStatus p) F.medLaneStatus_rate = 3 - s.fld (R.medLaneStatus p) F.medLaneStatus_rate ∧
      regsKept s t [R.medLaneStatus p] ∧ memKept s t := by
  have heq : s.dwellEnd p = s.setRate p (3 - s.fld (R.medLaneStatus p) F.medLaneStatus_rate) := by
    rw [State.dwellEnd, if_neg (by rw [hhunt, not_aligned (by omega)]; decide), if_neg (by omega)]
  have hc : Changes (fun a _ => a ∈ [R.medLaneStatus p]) s (s.setRate p (3 - s.fld (R.medLaneStatus p) F.medLaneStatus_rate)) :=
    Changes.refl.setRate (.head _)
  rw [exec_huntDwellExpiry, heq]
  exact ⟨_, rfl, rate_setRate s p (by omega), hc.regsKept, hc.memKept⟩

theorem dwellEnd_confirm (halign : s.fld (R.dfpPlaneStatus p) F.dfpPlaneStatus_align = 1) :
    ∃ t : State, exec (.huntDwellExpiry p) s = .next t ∧ (t.lane p).dwellOver = true ∧ regsKept s t [] ∧ memKept s t := by
  have heq : s.dwellEnd p = s.setLane p { s.lane p with dwellOver := true } := by
    rw [State.dwellEnd, if_neg (by rw [hhunt, not_aligned (by omega)]; decide), if_pos halign]
  rw [exec_huntDwellExpiry, heq]
  exact ⟨_, rfl, by rw [lane_setLane_same], fun _ _ => rfl, fun _ => rfl⟩

end

/-- Settles O9: the writes of LANE_CFG and MED.TEST, refused and taken, and the dwell's end each as stated above. -/
theorem laneSettingsTaken : Obligations.LaneSettingsTaken := fun _ _ _ =>
  ⟨laneCfg_refused, testWrite_refused, laneCfgWrite_taken, medTestWrite_taken,
    fun hhunt => ⟨fun halign _ => dwellEnd_search hhunt halign, dwellEnd_confirm hhunt⟩⟩

end Sys2Proof.Machine
end

section
/-!
SUPPORT. Which registers packets, parcels and bursts change as they end (R98 to R105, R136, R268): `FlowReg` leaves out the status registers
of the units, the defects of the planes and the count of the numbers that the resequencer gives up. Each rule holds for every set `W` of
fields that contains them.
-/

namespace Sys2Proof.Machine

/-! ## The registers -/

/-- Every counter block, FLT, the pipes and DMA; the counters of QM, CIRC, LSCH and UBB; of DFP the dispositions other than RSQ_LOST (10)
and a plane's count of discarded messages. -/
def FlowReg (a : Nat) : Prop :=
  (0xF000 ≤ offOf a ∧ offOf a < 0xF058) ∨ unitOf a ∈ [0x04, 0x93, 0x94, 0x98] ∨ (unitOf a ∈ [0x91, 0x96, 0x9A] ∧ 0x100 ≤ offOf a) ∨
    (unitOf a = 0xF0 ∧ 0x80 ≤ offOf a ∧ offOf a < 0x100 ∧ offOf a ≠ 0xD0) ∨ (0xF000001000 ≤ a ∧ a % 0x80 = 0x48) ∨ 0xF100000080 ≤ a

theorem flowReg_pmcCnt (v : Nat) {i : Nat} (h : i < 8) : FlowReg (R.pmcCnt v i) := .inl (by simp only [offOf, R.pmcCnt]; omega)

theorem flowReg_pmcCtl (v : Nat) : FlowReg (R.pmcCtl v) := .inl (by simp only [offOf, R.pmcCtl]; omega)

theorem flowReg_of_unit {a : Nat} (h : unitOf a ∈ [0x04, 0x93, 0x94, 0x98]) : FlowReg a := .inr (.inl h)

theorem flowReg_of_counter {a : Nat} (hu : unitOf a ∈ [0x91, 0x96, 0x9A]) (ho : 0x100 ≤ offOf a) : FlowReg a := .inr (.inr (.inl ⟨hu, ho⟩))

theorem flowReg_ubb {a : Nat} (h : 0xF100000080 ≤ a) : FlowReg a := .inr (.inr (.inr (.inr (.inr h))))

theorem flowReg_circCount {i : Nat} (h : i < 16) : FlowReg (R.circCount i) :=
  flowReg_of_counter (by simp only [unitOf, R.circCount, List.mem_cons]; omega) (by simp only [offOf, R.circCount]; omega)

theorem flowReg_dmaChRingIdx {i : Nat} (h : i < 512) : FlowReg (R.dmaChRingIdx i) :=
  flowReg_of_unit (by simp only [unitOf, R.dmaChRingIdx, List.mem_cons]; omega)

theorem flowReg_pipePkts (d : Dir) {i : Nat} (h : i < 8) : FlowReg (R.pipePkts d.unit i) :=
  flowReg_of_unit (by cases d <;> simp only [unitOf, R.pipePkts, Dir.unit, List.mem_cons] <;> omega)

theorem flowReg_pipeDrop {i : Nat} (h : i < 8) : FlowReg (R.pipeDrop 1 i) :=
  flowReg_of_unit (by simp only [unitOf, R.pipeDrop, List.mem_cons]; omega)

theorem flowReg_dfpMsgDisc (i : Nat) : FlowReg (R.dfpMsgDisc i) :=
  .inr (.inr (.inr (.inr (.inl (by simp only [R.dfpMsgDisc]; omega)))))

theorem flowReg_dfpDispCount {i : Nat} (h : i < 16) (h' : i ≠ 10) : FlowReg (R.dfpDispCount i) :=
  .inr (.inr (.inr (.inl (by simp only [unitOf, offOf, R.dfpDispCount]; omega))))

/-! ## What changes them alone -/

namespace Changes

variable {W : Nat → Fld → Prop} {s t u : State} (hw : ∀ {a}, FlowReg a → ∀ f, W a f)
include hw

theorem flowEvent (h : Changes W s t) {v code n : Nat} : Changes W s (t.pmcEvent v code n) :=
  h.pmcEvent (fun _ hi => hw (flowReg_pmcCnt v hi) _) fun _ _ => hw (flowReg_pmcCtl v) _

/-! ### Packets, records and tokens -/

theorem tokenOrDrop (h : Changes W s t) {node : Nat} {v : Word} : Changes W s (t.tokenOrDrop node v) := by
  have htoken : Changes W s (t.token node v).1 := by
    simp only [State.token, apply_ite Prod.fst]
    exact .ite (fun _ => h) fun _ => .ite (fun _ => h) fun _ => .ite (fun _ => h.frame) fun _ => h.frame
  exact .ite (fun _ => htoken) fun _ => h.lschCount (hw (flowReg_of_counter (by decide) (by decide)) _)

theorem writeRecord (h : Changes W s t) {c : Nat} {r : DmaRecord} (hc : c < 512) : Changes W s (t.writeRecord c r) :=
  have hidx := (h.frame : Changes W s (t.hostOut _)).setFld (hw (flowReg_dmaChRingIdx hc) _)
  .ite (fun _ => hidx.frame) fun _ => hidx

theorem flushRecords (h : Changes W s t) {c fuel : Nat} (hc : c < 512) : Changes W s (t.flushRecords c fuel) := by
  induction fuel generalizing t with
  | zero => exact h
  | succ fuel ih =>
    unfold State.flushRecords
    split
    · exact h
    · exact .ite (fun _ => h) fun _ => ih (h.writeRecord hw hc).frame

theorem departure (h : Changes W s t) {p : Pkt} {status : Nat} {stamp : Word} : Changes W s (t.departure p status stamp) := by
  refine .ite (fun _ => h) fun hret => .ite (fun hring => .ite (fun _ => h) fun _ => ?_) fun _ =>
    .ite (fun _ => h.tokenOrDrop hw) fun _ => h
  exact (h.frame : Changes W s (t.setChan _ _)).flushRecords hw (by omega)

theorem flowReport (h : Changes W s t) {l : Lost} : Changes W s (t.report l) := h.report fun _ => hw (flowReg_of_unit (by decide)) _

theorem noCellDrop (h : Changes W s t) : Changes W s (t.qmDrop 8) :=
  ((h.count (hw (flowReg_of_counter (by decide) (by decide)) _)).flowEvent hw).flowEvent hw

theorem removePkt (h : Changes W s t) {q id : Nat} : Changes W s (t.removePkt q id) := by
  unfold State.removePkt
  split
  · exact h
  next p _ =>
    have hcells : Changes W s (t.releaseCells q p) := by
      have hslow : Changes W s (if t.isSlow q then t.setSlowUsed p.pkt.dir (t.slowUsed p.pkt.dir - cellsOf p.pkt.bytes.length) else t) :=
        .ite (fun _ => h.frame) fun _ => h
      unfold State.releaseCells
      cases p.medium <;> exact hslow.frame
    have hreads : ∀ {v : State}, Changes W s v → Changes W s (v.refreshReads q) := fun h => .ite (fun _ => h) fun _ => h.frame
    exact (hreads hcells.frame).flowEvent hw

/-! ### Bursts -/

theorem loseRest (h : Changes W s t) {p : Pkt} : Changes W s (t.loseRest p) := by
  have hsettle : ∀ {v : State} {q}, Changes W s v → Changes W s (v.settle q) := fun {v q} h =>
    have hq : Changes W s (if (v.queue q).joined.isEmpty then v.setNode q { v.node q with deficit := 0 } else v) :=
      .ite (fun _ => h.frame) fun _ => h
    .ite (fun _ => hq.frame) fun _ => hq
  exact frame ((hsettle (h.removePkt hw)).foldl fun _ _ _ h => h.frame)

theorem pdisp (h : Changes W s t) {code n : Nat} : Changes W s (t.pdisp code n) :=
  have hcount := h.count (hw (flowReg_ubb (by simp only [R.ubbPdispCount]; omega)) _)
  .ite (fun _ => hcount.flowEvent hw) fun _ => hcount

theorem bdisp (h : Changes W s t) {code : Nat} : Changes W s (t.bdisp code) :=
  (h.count (hw (flowReg_ubb (by simp only [R.ubbBdispCount]; omega)) _)).flowEvent hw

theorem losePkt (h : Changes W s t) {p : Pkt} {code : Nat} : Changes W s (t.losePkt p code) :=
  have hp := ((h.loseRest hw).pdisp hw).departure hw
  .ite (fun _ => hp.flowReport hw) fun _ => hp

theorem circCount (h : Changes W s t) {c n : Nat} (hc : c < 16) : Changes W s (t.circCount c n) :=
  have hcount := h.count (hw (flowReg_circCount hc) _)
  .ite (fun _ => hcount.flowEvent hw) fun _ => .ite (fun _ => hcount.flowEvent hw) fun _ =>
    .ite (fun _ => hcount.flowEvent hw) fun _ => hcount

theorem loseContent (h : Changes W s t) {b : Build} {code : Nat} : Changes W s (t.loseContent b code) := by
  refine h.foldl fun t x _ h => ?_
  have hpkt : Changes W s (match x.pkt with | some p => t.losePkt p code | none => t) := by
    split
    · exact h.losePkt hw
    · exact h
  have hcont := hpkt.circCount hw (c := if code = 15 then 12 else 1) (n := 1) (by split <;> decide)
  dsimp only
  split <;> split
  · exact hcont.pdisp hw
  · exact hpkt.pdisp hw
  · exact hcont
  · exact hpkt

/-- A burst that is cut changes besides only the status of its lane. -/
theorem haltPlane (h : Changes W s t) {p code : Nat} (hm : ∀ f, W (R.medLaneStatus p) f) : Changes W s (t.haltPlane p code) := by
  have hstop : ∀ {v : State}, Changes W s v → Changes W s (v.stopPlane p) := fun h =>
    setBit (setBit h.frame (hm _)) (hm _)
  refine hstop ?_
  unfold State.cutPlane
  split
  · exact h
  · have hcut : Changes W s (((t.stopPlane p).bdisp code).pmcEvent (0x10 + p) 2) := ((hstop h).bdisp hw).flowEvent hw
    refine .ite (fun _ => ?_) fun _ => .loseContent hw ?_
    all_goals exact .ite (fun _ => hcut.frame) fun _ => hcut.frame

theorem huntRestart (h : Changes W s t) {p : Nat} (hm : ∀ f, W (R.medLaneStatus p) f) : Changes W s (t.huntRestart p) := by
  have hset : Changes W s (t.huntSet p) := h.trans ((changes_huntSet t p).mono fun a f ha => ha ▸ hm f)
  rw [huntRestart_eq]
  exact .ite (fun _ => hset.haltPlane hw hm) fun _ => hset

omit hw in
/-- An entry of a grant area is counted as accepted or discarded; one that no line position can place ends there. -/
theorem grantEntry (h : Changes W s t) {p : Nat} {e : Word} (hacc : W (R.dfpGrantsAcc p) F.dfpGrantsAcc_count)
    (hdisc : W (R.dfpGrantsDisc p) F.dfpGrantsDisc_count) (hend : ∀ {v : State}, Changes W s v → Changes W s (v.bdisp 8)) :
    Changes W s (t.grantEntry p e) := by
  refine .ite (fun _ => h) fun _ => .ite (fun _ => h.count hdisc) fun _ => .ite (fun _ => hend ?_) fun _ => frame ?_
  all_goals exact Changes.frame (Changes.setFld h.frame hacc)

/-! ### Parcels, packets and messages of the medium -/

theorem disp (h : Changes W s t) {code n : Nat} (hc : code < 16) (hc' : code ≠ 10) : Changes W s (t.disp code n) :=
  have hevent := (h.count (hw (flowReg_dfpDispCount hc hc') _)).flowEvent hw
  .ite (fun _ => hevent.flowEvent hw) fun _ => hevent

theorem noCell (h : Changes W s t) {parts : List Parcel} {held : Nat} : Changes W s (t.noCell parts held) := by
  have hfree : Changes W s (t.freeCells .dn held) := h.frame
  unfold State.noCell
  cases parts
  case nil => exact hfree
  case cons =>
    exact .ite (fun _ => ((hfree.disp hw (by decide) (by decide)).noCellDrop hw).flowReport hw) fun _ =>
      hfree.disp hw (by decide) (by decide)

omit hw in
/-- Cells are taken outside the registers and the memory. -/
theorem takeCells (h : Changes W s t) {d : Dir} {inject : Bool} {n : Nat} (e : t.takeCells d inject n = some u) : Changes W s u := by
  simp only [State.takeCells, Option.ite_none_left_eq_some, Option.ite_none_right_eq_some, Option.some.injEq] at e
  obtain ⟨_, _, rfl⟩ := e
  exact h.frame

theorem withCells (h : Changes W s t) {parts : List Parcel} {held : Nat} {go : State → State}
    (hgo : ∀ t, Changes W s t → Changes W s (go t)) : Changes W s (t.withCells parts held go) := by
  refine .ite (fun _ => hgo _ h.frame) fun _ => ?_
  split
  case h_1 e => exact hgo _ (h.takeCells e)
  case h_2 => exact h.noCell hw

theorem msgEnqueue (h : Changes W s t) {m : Msg} : Changes W s (t.msgEnqueue m).1 := by
  simp only [State.msgEnqueue, apply_ite Prod.fst]
  exact .ite (fun _ => h.count (hw (flowReg_dfpMsgDisc _) _)) fun _ => .ite (fun _ => h.frame) fun _ => h.frame

theorem delivered (h : Changes W s t) {plane parts n : Nat} : Changes W s (t.delivered plane parts n) :=
  have hevent := (h.disp hw (code := 0) (n := parts) (by decide) (by decide)).flowEvent hw (v := 0xF0) (code := 0x13) (n := n)
  .ite (fun _ => hevent) fun _ => .ite (fun _ => hevent.frame) fun _ => hevent.frame

theorem handOff (h : Changes W s t) {parts : List Parcel} {last : Parcel} : Changes W s (t.handOff parts last) := by
  refine .ite (fun _ => ?message) fun _ => ?packet
  case message =>
    have hfree : Changes W s (t.freeCells .dn (partCells parts)) := h.frame
    exact .ite (fun _ => .ite (fun _ => (hfree.msgEnqueue hw).delivered hw) fun _ => (hfree.msgEnqueue hw).disp hw (by decide) (by decide))
      fun _ => (hfree.disp hw (by decide) (by decide)).count (hw (flowReg_dfpMsgDisc _) _)
  case packet =>
    cases parts
    case nil => exact h
    case cons first rest =>
      refine .ite (fun _ => ?_) fun _ => delivered hw (flowEvent hw (count (t := { t.setPipe _ _ _ with qm := _ }) h.frame
        (hw (flowReg_pipePkts _ (Passes.pipeOf_lt _)) _)))
      exact (disp hw (t := t.freeCells _ _) h.frame (by decide) (by decide)).count (hw (flowReg_pipeDrop (Nat.mod_lt _ (by decide))) _)

theorem reasmFresh (h : Changes W s t) {f own : Nat} {p : Parcel} : Changes W s (t.reasmFresh f p own) := by
  unfold State.reasmFresh
  split
  · exact h.withCells hw fun _ h => h.handOff hw
  · exact h.withCells hw fun _ h => h.frame
  · exact disp hw h.frame (by decide) (by decide)

theorem reassemble (h : Changes W s t) {p : Parcel} {own : Nat} : Changes W s (t.reassemble p own) := by
  have hempty : Changes W s (t.setReasm (phFlow p.hdr) {}) := h.frame
  have hbroken : Changes W s ((t.freeCells .dn (partCells (t.reasm (phFlow p.hdr)).parts)).disp 7 (t.reasm (phFlow p.hdr)).parts.length) :=
    disp hw h.frame (by decide) (by decide)
  refine .ite (fun _ => h.reasmFresh hw) fun _ => .ite (fun _ => reasmFresh hw hbroken.frame) fun _ =>
    .ite (fun _ => disp hw hempty.frame (by decide) (by decide)) fun _ => ?_
  exact hempty.withCells hw fun _ h => .ite (fun _ => h.frame) fun _ => h.handOff hw

theorem rsqDrain (h : Changes W s t) {f exp : Nat} {l : List Parcel} : Changes W s (t.rsqDrain f exp l) := by
  induction l generalizing t exp with
  | nil => exact h.frame
  | cons p l ih => exact .ite (fun _ => ih (h.reassemble hw)) fun _ => h.frame

/-- A hole given up counts its numbers besides. -/
theorem rsqFlush (h : Changes W s t) (hlost : W (R.dfpDispCount 10) F.dfpDispCount_count) : Changes W s t.rsqFlush := by
  refine h.foldl fun t f _ h => ?_
  unfold State.rsqRelease
  dsimp only
  split
  · exact h
  · exact rsqDrain hw ((h.count hlost).flowEvent hw)

end Changes

/-! ## LOF -/

/-- A plane that loses its frame, before the resequencer, its lane and the time follow. -/
def State.frameLost (s : State) (p : Nat) : State :=
  let t := ((s.setFld (R.dfpPlaneStatus p) F.dfpPlaneStatus_align 0).setFld (R.dfpPlaneStatus p) F.dfpPlaneStatus_miss 0).setFld
    (R.dfpPlaneStatus p) F.dfpPlaneStatus_sd 0
  let f := (t.dplane p).frame
  let t := t.setDplane p { t.dplane p with circLost := true, sdSet := 0, sdClr := 0 }
  let opening := t.dfp.opening.map fun (o : Opening) => if o.plane = p ∧ o.frame = f then { o with lost := true } else o
  { t with dfp := { t.dfp with opening := opening } }.latch (R.dfpPlaneDefect p) F.dfpPlaneDefect_lof

theorem toSearch_lof {s : State} {p : Nat} (h : s.aligned p = true) : s.toSearch p =
    ((if (s.frameLost p).bit R.dfpCfg F.dfpCfg_flushOnLof then (s.frameLost p).rsqFlush else s.frameLost p).huntRestart p).retime false :=
  if_pos h

theorem Changes.frameLost {W : Nat → Fld → Prop} {s t : State} (h : Changes W s t) {p : Nat} (hs : ∀ f, W (R.dfpPlaneStatus p) f)
    (hd : W (R.dfpPlaneDefect p) F.dfpPlaneDefect_lof) : Changes W s (t.frameLost p) :=
  latch (frame (((h.setFld (hs _)).setFld (hs _)).setFld (hs _))) hd

end Sys2Proof.Machine
end

section
/-!
SUPPORT. What START, acted on at the end of a table's clearing (R163, R581), leaves of the ready bits: the frames it abandons, the bursts it
cuts and the lanes it enables change no register that holds one.
-/

namespace Sys2Proof.Machine

/-! ## The registers with a ready bit -/

/-- The registers of R581. -/
def ReadyReg (a : Nat) : Prop := a ∈ readyBits.map (·.2.1)

theorem readyReg_iff {a : Nat} : ReadyReg a ↔ a = R.dfpStatus ∨ a = R.ubbStatus ∨ a = R.clsStatus ∨ a = R.qmStatus ∨ a = R.schStatus ∨
    a = R.ciphStatus ∨ a = R.circStatus ∨ a = R.lschStatus := by
  simp [ReadyReg, readyBits]

theorem not_readyReg_of_flow {a : Nat} (h : FlowReg a) (_ : Fld) : ¬ReadyReg a := by
  rw [readyReg_iff]
  rintro (rfl | rfl | rfl | rfl | rfl | rfl | rfl | rfl) <;> exact absurd h (by unfold FlowReg; decide)

/-- A register of a plane in DFP other than its defects. -/
theorem not_readyReg_dfpPlane (k i : Nat) (hk : k < 0x80 ∧ k ≠ 0x08) : ¬ReadyReg (0xF000000000 + (0x1000 + k) + 0x80 * i) := by
  rw [readyReg_iff]
  simp only [R.dfpStatus, R.ubbStatus, R.clsStatus, R.qmStatus, R.schStatus, R.ciphStatus, R.circStatus, R.lschStatus]
  omega

theorem not_readyReg_dfpPlaneDefect (p : Plane) : ¬ReadyReg (R.dfpPlaneDefect p) := by
  have := p.isLt
  rw [readyReg_iff]
  simp only [R.dfpStatus, R.ubbStatus, R.clsStatus, R.qmStatus, R.schStatus, R.ciphStatus, R.circStatus, R.lschStatus, R.dfpPlaneDefect]
  omega

theorem not_readyReg_of_unit {a : Nat} (h : unitOf a < 0x90) : ¬ReadyReg a := by
  rw [readyReg_iff]
  rintro (rfl | rfl | rfl | rfl | rfl | rfl | rfl | rfl) <;> exact absurd h (by decide)

theorem not_readyReg_medLaneStatus (p : Plane) (_ : Fld) : ¬ReadyReg (R.medLaneStatus p) :=
  not_readyReg_of_unit (by have := p.isLt; simp only [unitOf, R.medLaneStatus]; omega)

theorem not_readyReg_medLaneCfg (p : Plane) : ¬ReadyReg (R.medLaneCfg p) :=
  not_readyReg_of_unit (by have := p.isLt; simp only [unitOf, R.medLaneCfg]; omega)

/-! ## What keeps them -/

/-- `t` has the memory of `s` and its registers with a ready bit. -/
abbrev KeepsReady (s t : State) : Prop := Changes (fun a _ => ¬ReadyReg a) s t

namespace KeepsReady

variable {s t : State} {p : Plane}

/-! ### Frames -/

theorem grantArea (h : KeepsReady s t) : KeepsReady s (t.grantArea p) := by
  have hdone : KeepsReady s (t.setDplane p { t.dplane p with grantsDone := true }) := h.frame
  refine .ite (fun _ => h) fun _ => .ite (fun _ => ?_) fun _ => hdone.foldl fun _ _ _ h => ?_
  · exact (hdone.count (not_readyReg_dfpPlane 0x38 p (by decide))).latch (not_readyReg_dfpPlaneDefect p)
  · exact h.grantEntry (not_readyReg_dfpPlane 0x30 p (by decide)) (not_readyReg_dfpPlane 0x38 p (by decide)) fun h =>
      h.bdisp not_readyReg_of_flow

theorem routeMsg (h : KeepsReady s t) {m : Msg} : KeepsReady s (t.routeMsg m) := by
  have hrouted : ∀ {u : State}, KeepsReady s u → KeepsReady s (u.msgRouted m.plane) := fun h =>
    h.count (not_readyReg_dfpPlane 0x40 m.plane (by decide))
  have hdeliver : KeepsReady s (t.deliver m) := h.frame
  have henq := (Changes.ite (c := decide (m.body.length < (if msgType m = 0x0E then 8 else 16)) = true) (fun _ => h)
    fun _ => hdeliver).msgEnqueue not_readyReg_of_flow (m := m)
  refine .ite (fun _ => .ite (fun _ => h.count (not_readyReg_dfpPlane 0x48 m.plane (by decide))) fun _ => hrouted hdeliver) fun _ =>
    .ite (fun _ => .ite (fun _ => henq) fun _ => hrouted henq) fun _ => .ite (fun _ => ?_) fun _ =>
      h.count (not_readyReg_dfpPlane 0x50 m.plane (by decide))
  exact .ite (fun _ => hrouted (h.msgEnqueue not_readyReg_of_flow)) fun _ => h.msgEnqueue not_readyReg_of_flow

theorem messageRx (h : KeepsReady s t) : KeepsReady s (t.messageRx p) := by
  have hstop : ∀ {u : State}, KeepsReady s u → KeepsReady s (u.msgStop p) := fun h =>
    Changes.count h.frame (not_readyReg_dfpPlane 0x48 p (by decide))
  have hover := hstop (h.latch (f := F.dfpPlaneDefect_msgOverrun) (not_readyReg_dfpPlaneDefect p))
  refine .ite (fun _ => h) fun _ => .ite (fun _ => hover) fun _ => .ite (fun _ => h) fun _ => .ite (fun _ => hstop h) fun _ =>
    .ite (fun _ => hover) fun _ => .ite (fun _ => h) fun _ => .ite (fun _ => hstop h) fun _ => ?_
  exact .ite (fun _ => routeMsg h.frame) fun _ => h.frame

theorem passOver (h : KeepsReady s t) {to_ : Nat} : KeepsReady s (t.passOver p to_) :=
  (h.count (not_readyReg_dfpPlane 0x68 p (by decide))).frame

theorem beginHunt (h : KeepsReady s t) {from_ : Nat} : KeepsReady s (t.beginHunt p from_) :=
  .ite (fun _ => h.passOver) fun _ => (h.count (not_readyReg_dfpPlane 0x68 p (by decide))).frame

theorem parcelRead (h : KeepsReady s t) {hdr : BitVec 128} {payload : List Byte} {tag : BitVec 128} :
    KeepsReady s (t.parcelRead p hdr payload tag) := by
  have hread : KeepsReady s (t.pmcEvent 0xF0 1) := h.flowEvent not_readyReg_of_flow
  have hcount : KeepsReady s (if phType hdr = 0 then t.pmcEvent 0xF0 1 else
      ((t.pmcEvent 0xF0 1).count (R.dfpParcels p) F.dfpParcels_count).count (R.dfpParcelBytes p) F.dfpParcelBytes_count (phLength hdr)) :=
    .ite (fun _ => hread) fun _ =>
      (hread.count (not_readyReg_dfpPlane 0x58 p (by decide))).count (not_readyReg_dfpPlane 0x60 p (by decide))
  have hends : ∀ {u : State} {code}, KeepsReady s u → code < 10 ∨ code = 14 → KeepsReady s (u.disp code) := fun h hc =>
    h.disp not_readyReg_of_flow (by omega) (by omega)
  refine .ite (fun _ => (hends hcount (by decide)).frame) fun _ => .ite (fun _ => hends hcount.frame (by decide)) fun _ =>
    .ite (fun _ => hends hcount.frame (by decide)) fun _ => .ite (fun _ => hends hcount.frame (by decide)) fun _ => ?_
  exact .ite (fun _ => hends hcount.frame (by decide)) fun _ => hcount.frame

theorem parcelRx (h : KeepsReady s t) : KeepsReady s (t.parcelRx p) := by
  refine .ite (fun _ => h) fun _ => .ite (fun _ => h.frame) fun _ => .ite (fun _ => ?hunting) fun _ => ?reading
  case hunting =>
    refine .ite (fun _ => h.passOver) fun _ => .ite (fun _ => .ite (fun _ => h) fun _ => h.parcelRead) fun _ => .ite (fun _ => h) fun _ => ?_
    exact .ite (fun _ => h.parcelRead) fun _ => h.passOver
  case reading =>
    refine .ite (fun _ => h.beginHunt) fun _ => .ite (fun _ => ?_) fun _ => .ite (fun _ => h) fun _ => h.parcelRead
    exact beginHunt (h.disp not_readyReg_of_flow (by decide) (by decide))

theorem drainParcels (h : KeepsReady s t) {fuel : Nat} : KeepsReady s (t.drainParcels p fuel) := by
  induction fuel generalizing t with
  | zero => exact h
  | succ fuel ih => exact .ite (fun _ => h) fun _ => ih h.parcelRx

theorem drained (h : KeepsReady s t) : KeepsReady s (t.drained p) :=
  Changes.frame (drainParcels (Changes.foldl (grantArea h.frame) fun _ _ _ h => messageRx h))

/-! ### Lanes -/

theorem toSearch (h : KeepsReady s t) : KeepsReady s (t.toSearch p) := by
  have halign := h.setFld (f := F.dfpPlaneStatus_align) (v := 0) (not_readyReg_dfpPlane 0 p (by decide))
  cases ha : t.aligned p
  case false =>
    rcases toSearch_unaligned ha with heq | ⟨_, _, _, heq, _⟩ <;> rw [heq]
    · exact halign
    · exact Changes.frame (halign.setRate (not_readyReg_medLaneStatus p F.medLaneStatus_rate))
  case true =>
    have hlost : KeepsReady s (t.frameLost p) := h.frameLost (fun _ => not_readyReg_dfpPlane 0 p (by decide)) (not_readyReg_dfpPlaneDefect p)
    rw [toSearch_lof ha]
    refine Changes.retime (.huntRestart not_readyReg_of_flow ?_ (not_readyReg_medLaneStatus p)) fun a _ ha => not_readyReg_of_unit (by omega)
    exact .ite (fun _ => hlost.rsqFlush not_readyReg_of_flow (by rw [readyReg_iff]; decide)) fun _ => hlost

theorem abandonFrame (h : KeepsReady s t) : KeepsReady s (t.abandonFrame p) := h.drained.toSearch

theorem huntRestart (h : KeepsReady s t) : KeepsReady s (t.huntRestart p) :=
  Changes.huntRestart not_readyReg_of_flow h (not_readyReg_medLaneStatus p)

theorem setMode (h : KeepsReady s t) {m : Nat} : KeepsReady s (t.setMode p m) := by
  have hmode := h.setFld (f := F.medLaneCfg_genMode) (v := m) (not_readyReg_medLaneCfg p)
  have hhunting := hmode.setBit (f := F.medLaneStatus_hunting) (b := false) (not_readyReg_medLaneStatus p F.medLaneStatus_hunting)
  refine .ite (fun _ => .ite (fun _ => .ite (fun _ => hhunting) fun _ => huntRestart (abandonFrame hmode)) fun _ => ?_) fun _ => hmode
  exact .ite (fun _ => hhunting) fun _ => abandonFrame (hhunting.setRate (not_readyReg_medLaneStatus p F.medLaneStatus_rate))

theorem laneUp (h : KeepsReady s t) : KeepsReady s (t.laneUp p) := by
  refine ((huntRestart (h.setBit (not_readyReg_medLaneCfg p))).trans (u := t.laneUp p) ((changes_laneUp t p).mono ?_))
  rintro a f (hf | hf)
  · cases hf
    exact not_readyReg_medLaneStatus p F.medLaneStatus_txIdle
  · simp only [List.mem_cons, List.not_mem_nil, or_false] at hf
    exact not_readyReg_of_unit (by rcases hf with rfl | rfl <;> decide)

/-! ### START -/

theorem startTerm (h : KeepsReady s t) : KeepsReady s t.startTerm := by
  have hterm : ∀ {u : State} {f v}, KeepsReady s u → KeepsReady s (u.setFld R.sysTermState f v) := fun h =>
    h.setFld (not_readyReg_of_unit (by decide))
  have haccept : KeepsReady s ({ t with enrol := { t.enrol with startWaiting := false } }.setReg (R.dfpMsgAccept 0)
      (t.reg (R.dfpMsgAccept 0) ||| BitVec.ofNat 64 acceptMask)) := Changes.setReg h.frame (by rw [readyReg_iff]; decide)
  have hflow : KeepsReady s (State.writeFlowZero _) := haccept.frame
  refine Changes.frame (hterm (hterm ((hterm hflow).foldl fun u i hi h => ?_)))
  have hmode : KeepsReady s (u.setMode i 2) := setMode (p := ⟨i, List.mem_range.1 hi⟩) h
  exact .ite (fun _ => .ite (fun _ => hmode) fun _ => laneUp (p := ⟨i, List.mem_range.1 hi⟩) hmode) fun _ => h

end KeepsReady
end Sys2Proof.Machine
end

section
/-!
SUPPORT. OWN_WRITE and OWN_PROBE (R95, R111) and the ready bits (R581); O14 is settled here.
-/

namespace Sys2Proof.Machine

variable (s : State) (v : Word)

/-! ## The ownership table -/

theorem exec_ownWrite : exec (.ownWrite v) s = .next (s.ownWrite v) := rfl

theorem exec_ownProbe : exec (.ownProbe v) s = .next (s.ownProbe v) := rfl

variable {s} in
/-- Once OWN_READY is set the entry is stored. -/
theorem ownWrite_ready (h : s.bit R.dfpStatus F.dfpStatus_ownReady = true) :
    ∃ t : State, exec (.ownWrite v) s = .next t ∧ (t.own (bitsOf v.toNat 51 32)).toNat = v.toNat &&& 0xF8FFF000 ∧
      (∀ f, f ≠ bitsOf v.toNat 51 32 → t.own f = s.own f) ∧ memKept s t ∧ regsKept s t [R.dfpOwnWrite] := by
  rw [exec_ownWrite, State.ownWrite, if_pos h]
  have hc : ∀ w, Changes (fun a _ => a ∈ [R.dfpOwnWrite]) s (s.setReg R.dfpOwnWrite w) := fun _ => Changes.refl.setReg (.head _)
  refine ⟨_, rfl, ?_, fun f hf => ?_, (hc _).frame.memKept, (hc _).frame.regsKept⟩
  · simp only [State.own, Tbl.get_set_same, BitVec.toNat_ofNat]
    exact Nat.mod_eq_of_lt (Nat.and_le_right.trans_lt (by decide))
  · simp only [State.own, Tbl.get_set_other _ _ _ hf]
    rfl

variable {s} in
/-- Before OWN_READY a write is lost. -/
theorem ownWrite_lost (h : s.bit R.dfpStatus F.dfpStatus_ownReady = false) :
    ∃ t : State, exec (.ownWrite v) s = .next t ∧ t.bit R.dfpStatus F.dfpStatus_ownLost = true ∧ t.dfp.own = s.dfp.own ∧ memKept s t ∧
      regsKept s t [R.dfpStatus] := by
  have hc : Changes (fun a _ => a ∈ [R.dfpStatus]) s (s.latch R.dfpStatus F.dfpStatus_ownLost) := Changes.refl.latch (.head _)
  rw [exec_ownWrite, State.ownWrite, if_neg (by rw [h]; decide)]
  exact ⟨_, rfl, bit_latch_same _ _ _ rfl (by decide), by rw [latch_dfp], hc.memKept, hc.regsKept⟩

/-- INDEX and ENTRY of OWN_PROBE do not overlap. -/
theorem bitsOf_probe {i e : Nat} (hi : i < 2 ^ 20) (he : e < 2 ^ 32) :
    bitsOf (BitVec.ofNat 64 (i * 2 ^ 32 + e)).toNat 51 32 = i ∧ bitsOf (BitVec.ofNat 64 (i * 2 ^ 32 + e)).toNat 31 0 = e := by
  rw [BitVec.toNat_ofNat]
  simp only [bitsOf]
  omega

theorem ownProbe_shows :
    ∃ t : State, exec (.ownProbe v) s = .next t ∧ t.fld R.dfpOwnProbe F.dfpOwnProbe_index = bitsOf v.toNat 51 32 ∧
      t.fld R.dfpOwnProbe F.dfpOwnProbe_entry = (s.own (bitsOf v.toNat 51 32)).toNat ∧ t.dfp = s.dfp ∧ memKept s t ∧
      regsKept s t [R.dfpOwnProbe] := by
  have hc : Changes (fun a _ => a ∈ [R.dfpOwnProbe]) s (s.ownProbe v) := Changes.refl.setReg (.head _)
  obtain ⟨hindex, hentry⟩ := bitsOf_probe (bitsOf_lt v.toNat 51 32) (s.own (bitsOf v.toNat 51 32)).isLt
  rw [exec_ownProbe]
  refine ⟨_, rfl, ?_, ?_, rfl, hc.memKept, hc.regsKept⟩ <;> rw [State.fld, State.ownProbe, reg_setReg_same]
  · exact hindex
  · exact hentry

/-! ## The ready bits -/

theorem exec_unitTablesCleared (u : Fin 256) : exec (.unitTablesCleared u) s = .next (s.tablesCleared u) := rfl

theorem keepsReady_startIfReady : KeepsReady s s.startIfReady := .ite (fun _ => KeepsReady.startTerm .refl) fun _ => .refl

theorem startIfReady_idle {s : State} (h : s.enrol.startWaiting = false) : s.startIfReady = s := if_neg (by simp [h])

/-- A unit whose entry of the list is found sets its bit. -/
theorem tablesCleared_sets {s : State} {u : Fin 256} {d a : Nat} {f : Fld} (hd : s.domOn d = true)
    (hfind : readyBits.find? (fun e => unitOf e.2.1 == u) = some (d, a, f)) (hf : f.lo = f.hi ∧ f.hi < 64) :
    ∃ t : State, exec (.unitTablesCleared u) s = .next t ∧ t.bit a f = true ∧
      (s.enrol.startWaiting = false → regsKept s t [a] ∧ memKept s t) := by
  have hready : ReadyReg a := List.mem_map.2 ⟨_, List.mem_of_find?_eq_some hfind, rfl⟩
  have hcleared : s.tablesCleared u = (s.setBit a f true).startIfReady := by
    unfold State.tablesCleared
    rw [hfind]
    exact if_pos hd
  rw [exec_unitTablesCleared, hcleared]
  refine ⟨_, rfl, ?_, fun hwait => ?_⟩
  · rw [(keepsReady_startIfReady _).bit fun _ hg => absurd hready hg]
    exact bit_setBit_same _ _ _ _ hf.1 hf.2
  · have hc : Changes (fun b _ => b ∈ [a]) s (s.setBit a f true) := Changes.refl.setBit (.head _)
    rw [startIfReady_idle (by rwa [setBit_enrol])]
    exact ⟨hc.regsKept, hc.memKept⟩

/-- Settles O14: the writes of the ownership table and the ready bits each as stated above. -/
theorem ownershipTableWrittenWhole : Obligations.OwnershipTableWrittenWhole := by
  intro s v
  refine ⟨ownWrite_ready v, ownWrite_lost v, ownProbe_shows s v, fun e he hd => ?_⟩
  simp only [List.mem_cons, List.not_mem_nil, or_false] at he
  rcases he with rfl | rfl | rfl | rfl | rfl | rfl | rfl | rfl <;> exact tablesCleared_sets hd (by decide) (by decide)

end Sys2Proof.Machine
end

section
/-!
SUPPORT. What a disposition of the DFP changes, what a message of the header region that is accepted becomes (R86 to R88), and when a parcel
of the area is read and submitted (R93 to R97).
-/

namespace Sys2Proof.Machine

variable {s : State}

/-! ## Dispositions -/

/-- A disposition is counted in its counter, whatever its events count. -/
theorem counted_disp {code : Nat} (n : Nat) (hc : code < 16) : counted s (s.disp code n) (R.dfpDispCount code) F.dfpDispCount_count n := by
  have hevents : Changes (fun a _ => a ≠ R.dfpDispCount code) (s.count (R.dfpDispCount code) F.dfpDispCount_count n) (s.disp code n) := by
    have hevent : ∀ {t u : State} {ev}, Changes (fun a _ => a ≠ R.dfpDispCount code) t u →
        Changes (fun a _ => a ≠ R.dfpDispCount code) t (u.pmcEvent 0xF0 ev n) := fun h =>
      h.pmcEvent (fun i _ => by simp only [R.pmcCnt, R.dfpDispCount]; omega) fun _ _ => by simp only [R.pmcCtl, R.dfpDispCount]; omega
    exact .ite (fun _ => hevent (hevent .refl)) fun _ => hevent .refl
  exact counted_count rfl (hevents.fld fun _ hg => absurd rfl hg) (by decide) (by decide)

/-- An event of the DFP counts in its own unit. -/
theorem Changes.dfpEvent {us : List Nat} {t : State} (h : Changes (fun a _ => unitOf a ∈ us) s t) (hu : 0xF0 ∈ us) {code n : Nat} :
    Changes (fun a _ => unitOf a ∈ us) s (t.pmcEvent 0xF0 code n) := by
  have hunit : ∀ {a : Nat}, unitOf a = 0xF0 → unitOf a ∈ us := fun h => h ▸ hu
  exact h.pmcEvent (fun i hi => hunit (by simp only [unitOf, R.pmcCnt]; omega)) fun _ _ => hunit (by decide)

theorem changes_disp {code : Nat} (n : Nat) (hc : code < 16) : Changes (fun a _ => unitOf a ∈ [0xF0]) s (s.disp code n) := by
  have hcount : Changes (fun a _ => unitOf a ∈ [0xF0]) s (s.count (R.dfpDispCount code) F.dfpDispCount_count n) :=
    Changes.refl.count (List.mem_singleton.2 (by simp only [unitOf, R.dfpDispCount]; omega))
  exact .ite (fun _ => (hcount.dfpEvent (.head _)).dfpEvent (.head _)) fun _ => hcount.dfpEvent (.head _)

/-! ## Messages -/

theorem length_msgInsert (l : List Msg) (m : Msg) : (msgInsert l m).length = l.length + 1 := by
  induction l with
  | nil => rfl
  | cons x l ih =>
    unfold msgInsert
    split
    · rfl
    · rw [List.length_cons, ih, List.length_cons]

theorem mem_msgInsert (l : List Msg) (m : Msg) : m ∈ msgInsert l m := by
  induction l with
  | nil => exact .head _
  | cons x l ih =>
    unfold msgInsert
    split
    · exact .head _
    · exact .tail _ ih

/-- The message queue with one more message, which its event source shows where it was empty. -/
def State.msgQueued (s : State) (m : Msg) : State :=
  let t := { s with dfp := { s.dfp with msgq := msgInsert s.dfp.msgq m } }
  if s.dfp.msgq.isEmpty then t.edge msgqSource else t

theorem msgEnqueue_room {m : Msg} (h : s.dfp.msgq.length < 512) : s.msgEnqueue m = (s.msgQueued m, true) := if_neg (by omega)

theorem msgQueued_dfp (s : State) (m : Msg) : (s.msgQueued m).dfp = { s.dfp with msgq := msgInsert s.dfp.msgq m } := by
  unfold State.msgQueued
  split <;> rfl

theorem changes_msgQueued {W : Nat → Fld → Prop} (s : State) (m : Msg) : Changes W s (s.msgQueued m) :=
  .ite (fun _ => Changes.frame .refl) fun _ => Changes.frame .refl

/-- An accepted type of no unit of its own goes to the slow path. -/
theorem routeMsg_queued {m : Msg} (ht : msgType m ∉ [0x01, 0x0B, 0x0C, 0x0D, 0x0E]) (hacc : s.msgAccept (msgType m) = true)
    (hroom : s.dfp.msgq.length < 512) : s.routeMsg m = (s.msgQueued m).msgRouted m.plane := by
  simp only [List.mem_cons, List.not_mem_nil, or_false, not_or] at ht
  obtain ⟨hanchor, hlock, hperm, hrelease, hlead⟩ := ht
  simp only [State.routeMsg, hanchor, hlock, hperm, hrelease, hlead, or_self, if_false, hacc, if_true, msgEnqueue_room hroom]

/-- The plane once its next message, which ends at bit `last`, is taken. -/
def DfpPlane.msgTaken (d : DfpPlane) (last : Nat) : DfpPlane := { d with msgLeft := d.msgLeft - 1, msgPos := last + 1 }

section
variable {p : Plane} {env : BitVec 64} {n last : Nat}
variable (henv : env = BitVec.ofNat 64 ((s.dplane p).word (s.dplane p).msgPos 64)) (hn : n = bitsOf env.toNat 45 34)
  (hlast : last = (s.dplane p).msgPos + msgBits n - 1) (htaking : (s.dplane p).taking = true) (hleft : (s.dplane p).msgLeft ≠ 0)
  (hregion : last < 5140 * (s.dplane p).hdrLen) (hhas : (s.dplane p).has ((s.dplane p).msgPos + 63) = true)
  (hhasAll : (s.dplane p).has last = true) (hbad : (s.dplane p).badBits (s.dplane p).msgPos ((s.dplane p).msgPos + 63) = false)
  (hbadAll : (s.dplane p).badBits (s.dplane p).msgPos last = false)
  (hcrc : crc16 ((s.dplane p).bits (s.dplane p).msgPos 48 ++ (s.dplane p).bits ((s.dplane p).msgPos + 64) (8 * roundUp n 8)) =
    bitsOf env.toNat 15 0)
  (hdest : bitsOf env.toNat 63 54 = s.fld R.dfpIdent F.dfpIdent_tid ∨ bitsOf env.toNat 63 54 = 0x3FF)
include henv hn hlast htaking hleft hregion hhas hhasAll hbad hbadAll hcrc hdest

/-- A message that lies whole and unmarked in its region and is addressed to this terminal is routed. -/
theorem messageRx_routed : s.messageRx p = (s.setDplane p ((s.dplane p).msgTaken last)).routeMsg
    ⟨env, (s.dplane p).bytes ((s.dplane p).msgPos + 64) n, p, (s.dplane p).frame, s.msgStamp p (last / 5140), false⟩ := by
  have hbits : 64 ≤ msgBits n := by unfold msgBits; omega
  subst henv hn hlast
  refine (if_neg (by simp [htaking, hleft])).trans <| (if_neg (by omega)).trans <| (if_neg (by simp [hhas])).trans <|
    (if_neg (by simp [hbad])).trans <| (if_neg (by omega)).trans <| (if_neg (by rw [hhasAll]; decide)).trans <|
    (if_neg (by rw [hbadAll, hcrc]; simp)).trans (if_pos hdest)

theorem messageRx_queued (htype : bitsOf env.toNat 53 46 ∉ [0x01, 0x0B, 0x0C, 0x0D, 0x0E])
    (hacc : s.msgAccept (bitsOf env.toNat 53 46) = true) (hroom : s.dfp.msgq.length < 512) :
    ∃ t : State, exec (.messageRx p) s = .next t ∧ t.dfp.msgq.length = s.dfp.msgq.length + 1 ∧
      (∃ m ∈ t.dfp.msgq, m.env = env ∧ m.body = (s.dplane p).bytes ((s.dplane p).msgPos + 64) n ∧ m.plane = p.val ∧
        m.frame = (s.dplane p).frame) ∧
      (t.dplane p).msgLeft = (s.dplane p).msgLeft - 1 ∧ (t.dplane p).msgPos = last + 1 ∧ counted s t (R.dfpMsgRx p) F.dfpMsgRx_count ∧
      memKept s t ∧ regsKept s t [R.dfpMsgRx p] := by
  have hexec : exec (.messageRx p) s = .next (s.messageRx p) := rfl
  rw [hexec, messageRx_routed henv hn hlast htaking hleft hregion hhas hhasAll hbad hbadAll hcrc hdest]
  generalize hm : Msg.mk env ((s.dplane p).bytes ((s.dplane p).msgPos + 64) n) p (s.dplane p).frame (s.msgStamp p (last / 5140)) false = m
  rw [routeMsg_queued (s := s.setDplane p _) (by subst hm; exact htype) (by subst hm; exact hacc) hroom]
  have hplane : m.plane = p.val := by rw [← hm]
  have hqueued : ∀ {W : Nat → Fld → Prop}, Changes W s ((s.setDplane p ((s.dplane p).msgTaken last)).msgQueued m) :=
    Changes.trans (Changes.frame .refl) (changes_msgQueued _ m)
  have hc : Changes (fun a _ => a ∈ [R.dfpMsgRx p]) s (((s.setDplane p ((s.dplane p).msgTaken last)).msgQueued m).msgRouted m.plane) :=
    hqueued.count (hplane ▸ .head _)
  have hdfp : (((s.setDplane p ((s.dplane p).msgTaken last)).msgQueued m).msgRouted m.plane).dfp =
      { (s.setDplane p ((s.dplane p).msgTaken last)).dfp with msgq := msgInsert s.dfp.msgq m } := msgQueued_dfp _ m
  have htaken : (((s.setDplane p ((s.dplane p).msgTaken last)).msgQueued m).msgRouted m.plane).dplane p = (s.dplane p).msgTaken last := by
    rw [State.dplane, hdfp]
    exact dplane_setDplane_same s p _
  refine ⟨_, rfl, ?_, ⟨m, ?_, ?_⟩, ?_, ?_, ?_, hc.memKept, hc.regsKept⟩
  · rw [hdfp]
    exact length_msgInsert _ m
  · rw [hdfp]
    exact mem_msgInsert _ m
  · rw [← hm]
    exact ⟨rfl, rfl, rfl, rfl⟩
  · rw [htaken, DfpPlane.msgTaken]
  · rw [htaken, DfpPlane.msgTaken]
  · rw [hplane]
    exact counted_count (hqueued.fld (W := fun _ _ => False) nofun) rfl (by decide) (by decide)

end

/-! ## Parcels of the area -/

/-- A parcel read at its position is counted, and the plane goes on behind it. -/
def State.parcelPassed (s : State) (p : Nat) (hdr : BitVec 128) : State :=
  let d := s.dplane p
  let next := d.pos + 8 * phExtent hdr
  (((s.pmcEvent 0xF0 1).count (R.dfpParcels p) F.dfpParcels_count).count (R.dfpParcelBytes p) F.dfpParcelBytes_count
    (phLength hdr)).setDplane p { d with pos := next, hunting := false, ignoring := decide (s.areaEnd p < next + 128) }

theorem areaEnd_congr {t : State} {p : Nat} (h : t.reg (R.medLaneStatus p) = s.reg (R.medLaneStatus p)) : t.areaEnd p = s.areaEnd p := by
  rw [State.areaEnd, State.areaEnd, State.slotsPerFrame, State.slotsPerFrame, State.genOne, State.genOne, State.fld, State.fld, h]

theorem passes_parcelPassed (s : State) (p : Nat) (hdr : BitVec 128) : Passes s (s.parcelPassed p hdr) :=
  Passes.frame ((Passes.refl.pmcEvent.count (by simp)).count (by simp))

theorem parcelPassed_dfp (s : State) (p : Nat) (hdr : BitVec 128) : (s.parcelPassed p hdr).dfp = (s.setDplane p { s.dplane p with
    pos := (s.dplane p).pos + 8 * phExtent hdr, hunting := false
    ignoring := decide (s.areaEnd p < (s.dplane p).pos + 8 * phExtent hdr + 128) }).dfp := by
  simp [State.parcelPassed]

theorem parcelPassed_ciph (s : State) (p : Nat) (hdr : BitVec 128) : (s.parcelPassed p hdr).ciph = s.ciph := by simp [State.parcelPassed]

theorem changes_parcelPassed (s : State) (p : Plane) (hdr : BitVec 128) :
    Changes (fun a _ => unitOf a ∈ [0xF0]) s (s.parcelPassed p hdr) := by
  have hp := p.isLt
  have hevent : Changes (fun a _ => unitOf a ∈ [0xF0]) s (s.pmcEvent 0xF0 1) := Changes.refl.dfpEvent (.head _)
  exact Changes.frame ((hevent.count (List.mem_singleton.2 (by simp only [unitOf, R.dfpParcels]; omega))).count
    (List.mem_singleton.2 (by simp only [unitOf, R.dfpParcelBytes]; omega)))

/-- The count of parcels goes up by the one that was read. -/
theorem counted_parcelPassed (s : State) (p : Nat) (hdr : BitVec 128) : counted s (s.parcelPassed p hdr) (R.dfpParcels p) F.dfpParcels_count := by
  have hevent : Changes (fun a _ => a ≠ R.dfpParcels p) s (s.pmcEvent 0xF0 1) :=
    Changes.refl.pmcEvent (fun i _ => by simp only [R.pmcCnt, R.dfpParcels]; omega) fun _ _ => by simp only [R.pmcCtl, R.dfpParcels]; omega
  exact counted_count (hevent.fld fun _ hg => absurd rfl hg)
    (fld_count_other _ _ _ _ (by simp only [R.dfpParcels, R.dfpParcelBytes]; omega)) (by decide) (by decide)

/-- A parcel that is submitted waits for the cipher unit, and its opening for the request's result. -/
theorem submitParcel_opens (s : State) (p pos : Nat) (hdr : BitVec 128) (own : BitVec 32) (payload : List Byte) (tag : BitVec 128) :
    ∃ o, (s.submitParcel p pos hdr own payload tag).dfp.opening = s.dfp.opening ++ [o] ∧ o.plane = p ∧ o.hdr = hdr ∧ o.own = own ∧
      o.frame = (s.dplane p).frame ∧ ∃ q, (s.submitParcel p pos hdr own payload tag).ciph.waiting = s.ciph.waiting ++ [q] ∧
        q.num = o.req ∧ q.text = takePad (phLength hdr) payload ∧ q.tag = tag :=
  ⟨_, rfl, rfl, rfl, rfl, rfl, _, rfl, rfl, rfl, rfl⟩

section
variable {p : Plane} {hdr : BitVec 128}

/-- A parcel that lies whole and unmarked in the area, and is neither idle nor empty, goes on by its flow's entry. -/
theorem parcelRead_whole {payload : List Byte} {tag : BitVec 128} (hend : (s.dplane p).pos + 8 * phExtent hdr ≤ s.areaEnd p)
    (hbad : (s.dplane p).badBits (s.dplane p).pos ((s.dplane p).pos + 8 * phExtent hdr - 1) = false) (htype : phType hdr ≠ 0)
    (hlength : phLength hdr ≠ 0) (hready : s.bit R.dfpStatus F.dfpStatus_ownReady = true) :
    s.parcelRead p hdr payload tag = if bitOf (s.own (phFlow hdr)).toNat 31 then
      (s.parcelPassed p hdr).submitParcel p (s.dplane p).pos hdr (s.own (phFlow hdr)) payload tag
    else (s.parcelPassed p hdr).disp 1 := by
  have harea : ∀ {t : State}, Passes s t → t.areaEnd p = s.areaEnd p := fun h =>
    areaEnd_congr (h.1.reg fun _ => not_pathReg_medLaneStatus p)
  have hcount : Passes s (((s.pmcEvent 0xF0 1).count (R.dfpParcels p) F.dfpParcels_count).count (R.dfpParcelBytes p)
      F.dfpParcelBytes_count (phLength hdr)) := (Passes.refl.pmcEvent.count (by simp)).count (by simp)
  have hstatus : (s.parcelPassed p hdr).bit R.dfpStatus F.dfpStatus_ownReady = true :=
    ((passes_parcelPassed s p hdr).1.bit fun _ h => absurd h (by unfold PathReg; decide)).trans hready
  have hown : (s.parcelPassed p hdr).own (phFlow hdr) = s.own (phFlow hdr) := by
    rw [State.own, parcelPassed_dfp]
    rfl
  have hpassed : s.parcelRead p hdr payload tag = if !(s.parcelPassed p hdr).bit R.dfpStatus F.dfpStatus_ownReady ||
      !bitOf ((s.parcelPassed p hdr).own (phFlow hdr)).toNat 31 then (s.parcelPassed p hdr).disp 1
      else (s.parcelPassed p hdr).submitParcel p (s.dplane p).pos hdr ((s.parcelPassed p hdr).own (phFlow hdr)) payload tag := by
    simp only [State.parcelRead, htype, if_false, harea hcount, Nat.not_lt.2 hend, hbad, hlength, false_and, Bool.false_eq_true]
    rfl
  rw [hpassed, hstatus, hown]
  cases bitOf (s.own (phFlow hdr)).toNat 31 <;> rfl

variable {pos next : Nat}
variable (hhdr : hdr = BitVec.ofNat 128 ((s.dplane p).word (s.dplane p).pos 128)) (hpos : pos = (s.dplane p).pos)
  (hnext : next = pos + 8 * phExtent hdr) (htaking : (s.dplane p).taking = true) (hignoring : (s.dplane p).ignoring = false)
  (hhunting : (s.dplane p).hunting = false) (hcut : (s.dplane p).cut = none) (harea : pos + 128 ≤ s.areaEnd p)
  (hend : next ≤ s.areaEnd p) (hhas : (s.dplane p).has (pos + 127) = true) (hhasAll : (s.dplane p).has (next - 1) = true)
  (hbad : (s.dplane p).badBits pos (pos + 127) = false)
include hhdr hpos hnext htaking hignoring hhunting hcut harea hend hhas hhasAll hbad

/-- A header that is well received and stands at its position is read once its whole parcel has come. -/
theorem parcelRx_reads (hok : phOk hdr = true) : s.parcelRx p = s.parcelRead p hdr ((s.dplane p).bytes (pos + 128) (phLength hdr))
    (BitVec.ofNat 128 ((s.dplane p).word (pos + 128 + 8 * phLength hdr) 128)) := by
  subst hhdr hpos hnext
  refine (if_neg ?_).trans <| (if_neg (by simp [hcut])).trans <| (if_neg (by simp [hhunting])).trans <| (if_neg (by simp [hbad])).trans <|
    (if_neg (by simp [hok])).trans (if_neg (by simp [hhasAll]))
  simpa [htaking, hignoring, hhas] using harea

theorem parcelRx_submits (hbadAll : (s.dplane p).badBits pos (next - 1) = false) (hok : phOk hdr = true) (htype : phType hdr ≠ 0)
    (hlength : phLength hdr ≠ 0) (hready : s.bit R.dfpStatus F.dfpStatus_ownReady = true) :
    ∃ t : State, exec (.parcelRx p) s = .next t ∧ (t.dplane p).pos = next ∧
      counted s t (R.dfpParcels p) F.dfpParcels_count ∧ memKept s t ∧ unitsKept s t [0xF0] ∧
      (bitOf (s.own (phFlow hdr)).toNat 31 = true →
        ∃ o, t.dfp.opening = s.dfp.opening ++ [o] ∧ o.plane = p.val ∧ o.hdr = hdr ∧ o.own = s.own (phFlow hdr) ∧
          o.frame = (s.dplane p).frame ∧
          ∃ q, t.ciph.waiting = s.ciph.waiting ++ [q] ∧ q.num = o.req ∧
            q.text = takePad (phLength hdr) ((s.dplane p).bytes (pos + 128) (phLength hdr)) ∧
            q.tag = BitVec.ofNat 128 ((s.dplane p).word (pos + 128 + 8 * phLength hdr) 128)) ∧
      (bitOf (s.own (phFlow hdr)).toNat 31 = false → t.dfp.opening = s.dfp.opening ∧ t.ciph = s.ciph) := by
  have hexec : exec (.parcelRx p) s = .next (s.parcelRx p) := rfl
  have hc := changes_parcelPassed s p hdr
  have hcounted := counted_parcelPassed s p hdr
  have hplane : (s.parcelPassed p hdr).dplane p = { s.dplane p with
      pos := next, hunting := false, ignoring := decide (s.areaEnd p < next + 128) } := by
    rw [dplane_congr (parcelPassed_dfp s p hdr), dplane_setDplane_same, hnext, hpos]
  rw [hexec, parcelRx_reads hhdr hpos hnext htaking hignoring hhunting hcut harea hend hhas hhasAll hbad hok,
    parcelRead_whole (by rwa [← hpos, ← hnext]) (by rwa [← hpos, ← hnext]) htype hlength hready]
  cases hown : bitOf (s.own (phFlow hdr)).toNat 31
  case true =>
    obtain ⟨o, hopening, hoplane, hohdr, hoown, hoframe, q, hwaiting, hq⟩ := submitParcel_opens (s.parcelPassed p hdr) p (s.dplane p).pos
      hdr (s.own (phFlow hdr)) ((s.dplane p).bytes (pos + 128) (phLength hdr))
      (BitVec.ofNat 128 ((s.dplane p).word (pos + 128 + 8 * phLength hdr) 128))
    rw [parcelPassed_dfp] at hopening
    rw [parcelPassed_ciph] at hwaiting
    rw [hplane] at hoframe
    exact ⟨_, rfl, congrArg DfpPlane.pos hplane, hcounted, hc.memKept, hc.unitsKept,
      fun _ => ⟨o, hopening, hoplane, hohdr, hoown, hoframe, q, hwaiting, hq⟩, nofun⟩
  case false =>
    have hdisp := changes_disp (s := s.parcelPassed p hdr) 1 (code := 1) (by decide)
    have hkept : Changes (fun a _ => a ≠ R.dfpParcels p) (s.parcelPassed p hdr) ((s.parcelPassed p hdr).disp 1) :=
      Changes.refl.disp (fun h _ e => by
        subst e
        simp only [FlowReg, unitOf, offOf, R.dfpParcels, List.mem_cons, List.not_mem_nil, or_false] at h
        omega) (by decide) (by decide)
    refine ⟨_, rfl, ?_, ?_, (hc.trans hdisp).memKept, (hc.trans hdisp).unitsKept, nofun, fun _ => ⟨?_, ?_⟩⟩
    · rw [if_neg (by decide), dplane_congr (disp_dfp _ _ _), hplane]
    · rw [if_neg (by decide), counted, hkept.fld fun _ hg => absurd rfl hg]
      exact hcounted
    · rw [if_neg (by decide), disp_dfp, parcelPassed_dfp]
      rfl
    · rw [if_neg (by decide), disp_ciph, parcelPassed_ciph]

end
end Sys2Proof.Machine
end

section
/-!
SUPPORT. Parcels that return from the cipher unit, the reassembly of a first fragment and a hole given up by the resequencer (R98 to R105);
O13 is settled here.
-/

namespace Sys2Proof.Machine

variable {s : State}

/-! ## The first fragment of a packet -/

/-- A first fragment that meets no open reassembly opens one, its cells held. -/
theorem reassemble_first {x : Parcel} {own : Nat} (hfrag : phFrag x.hdr = 1) (hnone : (s.reasm (phFlow x.hdr)).parts = []) :
    s.reassemble x own =
      s.withCells [x] own (·.setReasm (phFlow x.hdr) ⟨[x], (phSeq x.hdr + 1) % 65536⟩) := by
  refine (if_pos hnone).trans ?_
  rw [State.reasmFresh, hfrag]
  rfl

/-- The parcel of a packet takes cells, other than a message's. -/
theorem partCells_packet {x : Parcel} (h : phType x.hdr = 1) : partCells [x] = cellsOf x.data.length := by
  simp [partCells, h]

theorem withCells_held {parts : List Parcel} {held : Nat} {go : State → State} (h : partCells parts ≤ held) :
    s.withCells parts held go = go (s.freeCells .dn (held - partCells parts)) := if_pos h

theorem withCells_taken {parts : List Parcel} {held : Nat} {go : State → State} {t : State} (h : held < partCells parts)
    (ht : s.takeCells .dn false (partCells parts - held) = some t) : s.withCells parts held go = go t := by
  refine (if_neg (by omega)).trans ?_
  rw [ht]

/-- Whether cells are free is told by the pool and the registers. -/
theorem takeCells_isSome {d : Dir} {inject : Bool} {n : Nat} : (s.takeCells d inject n).isSome = true ↔
    (s.restarting Src.qm || !s.domTakes 5) = false ∧
      n ≤ if inject then s.dieFree d else s.dieFree d - s.fld R.qmPoolCfg F.qmPoolCfg_slowRes := by
  unfold State.takeCells
  cases s.restarting Src.qm || !s.domTakes 5
  case true => simp
  case false => simp [apply_ite Option.isSome]

/-- Cells are taken from the pool alone. -/
theorem takeCells_eq_setDieUsed {d : Dir} {inject : Bool} {n : Nat} {t : State} (h : s.takeCells d inject n = some t) :
    t = s.setDieUsed d (s.dieUsed d + n) := by
  simp only [State.takeCells, Option.ite_none_left_eq_some, Option.ite_none_right_eq_some, Option.some.injEq] at h
  obtain ⟨_, _, rfl⟩ := h
  rfl

/-! ## A parcel that returns -/

/-- A parcel's opening and the result it waited for are taken. -/
def State.openedParcel (s : State) (rest : List Opening) (rs : List CiphDone) : State :=
  { s with dfp := { s.dfp with opening := rest }, ciph := { s.ciph with results := rs } }

section
variable {p : Plane} {o : Opening} {rest : List Opening} {r : CiphDone} {rs : List CiphDone}
variable (ho : s.dfp.opening = o :: rest) (hp : o.plane = p.val) (hr : s.ciph.results = r :: rs) (hnum : r.num = o.req)
include ho hp hr hnum

/-- The oldest opening of the plane, whose result has come, goes on by the result's status. -/
theorem parcelOpened_eq : s.parcelOpened p = if r.status = 2 then (s.openedParcel rest rs).disp 5
    else if r.status = 0 then (s.openedParcel rest rs).routeParcel o r.text
    else if r.status = 5 then (s.openedParcel rest rs).loseParcel Src.ciph 2 ((s.openedParcel rest rs).lostCode Src.ciph) o.plane o.frame o.hdr
    else (s.openedParcel rest rs).disp 4 := by
  have hopening : takeFirst (fun (o : Opening) => o.plane == p) s.dfp.opening = some (o, rest) := by
    rw [ho]
    exact if_pos (by simp [hp])
  have hresult : s.takeResult o.req = (some r, { s with ciph := { s.ciph with results := rs } }) := by
    have hfirst : takeFirst (fun (r : CiphDone) => r.num == o.req) s.ciph.results = some (r, rs) := by
      rw [hr]
      exact if_pos (by simp [hnum])
    rw [State.takeResult, hfirst]
  rw [State.parcelOpened, hopening]
  dsimp only
  rw [hresult]
  rfl

/-- A parcel that was not verified ends with the disposition of its status. -/
theorem parcelOpenDone_unverified (h0 : r.status ≠ 0) (h5 : r.status ≠ 5) :
    ∃ t : State, exec (.parcelOpenDone p) s = .next t ∧ t.dfp.opening = rest ∧ t.ciph.results = rs ∧
      counted s t (R.dfpDispCount (if r.status = 2 then 5 else 4)) F.dfpDispCount_count ∧ memKept s t ∧ unitsKept s t [0xF0] := by
  have hexec : exec (.parcelOpenDone p) s = .next (s.parcelOpened p) := rfl
  have heq : s.parcelOpened p = (s.openedParcel rest rs).disp (if r.status = 2 then 5 else 4) := by
    rw [parcelOpened_eq ho hp hr hnum, if_neg h0, if_neg h5]
    split <;> rfl
  have hcode : (if r.status = 2 then 5 else 4) < 16 := by split <;> decide
  have hc := changes_disp (s := s.openedParcel rest rs) 1 hcode
  rw [hexec, heq]
  exact ⟨_, rfl, by rw [disp_dfp]; rfl, by rw [disp_ciph]; rfl, counted_disp 1 hcode, hc.memKept, hc.unitsKept⟩

/-- A first fragment of a packet whose flow is not resequenced waits for the next one. -/
theorem parcelOpenDone_first (h0 : r.status = 0) (htype : phType o.hdr = 1) (hfrag : phFrag o.hdr = 1) (hrsq : bitOf o.own.toNat 30 = false)
    (hnone : (s.reasm (phFlow o.hdr)).parts = []) (hcells : (s.takeCells .dn false (cellsOf r.text.length)).isSome = true) :
    ∃ t : State, exec (.parcelOpenDone p) s = .next t ∧ t.dfp.opening = rest ∧ t.ciph.results = rs ∧
      (∃ x, (t.reasm (phFlow o.hdr)).parts = [x] ∧ x.data = r.text ∧ x.hdr = o.hdr ∧ x.stamp = o.stamp) ∧
      (t.reasm (phFlow o.hdr)).next = (phSeq o.hdr + 1) % 65536 ∧ memKept s t ∧ regsKept s t [] := by
  have hexec : exec (.parcelOpenDone p) s = .next (s.parcelOpened p) := rfl
  generalize hx : Parcel.mk o.plane o.hdr o.own o.frame o.stamp r.text s.time.now s.dfp.arrivals = x
  generalize hu : ({ s.openedParcel rest rs with
    dfp := { (s.openedParcel rest rs).dfp with arrivals := s.dfp.arrivals + 1 } } : State) = u
  obtain ⟨hxhdr, hxdata, hxstamp⟩ : x.hdr = o.hdr ∧ x.data = r.text ∧ x.stamp = o.stamp := by subst hx; exact ⟨rfl, rfl, rfl⟩
  have hroute : s.parcelOpened p = u.reassemble x := by
    rw [parcelOpened_eq ho hp hr hnum, if_neg (by omega), if_pos h0, ← hx, ← hu]
    exact (if_neg (by omega)).trans <| (if_pos (.inl htype)).trans (if_neg (by rw [hrsq]; decide))
  have hpart : partCells [x] = cellsOf r.text.length := by rw [partCells_packet (by rw [hxhdr, htype]), hxdata]
  obtain ⟨v, hv⟩ : ∃ v, u.takeCells .dn false (cellsOf r.text.length) = some v := by
    rw [← Option.isSome_iff_exists, takeCells_isSome, ← hu]
    exact (takeCells_isSome (s := s)).1 hcells
  have hopens : s.parcelOpened p = v.setReasm (phFlow o.hdr) ⟨[x], (phSeq o.hdr + 1) % 65536⟩ := by
    rw [hroute, reassemble_first (by rw [hxhdr, hfrag]) (by rw [hxhdr, ← hu]; exact hnone),
      withCells_taken (by rw [hpart]; unfold cellsOf; omega) (by rw [hpart]; exact hv), hxhdr]
  have hset : (v.setReasm (phFlow o.hdr) ⟨[x], (phSeq o.hdr + 1) % 65536⟩).reasm (phFlow o.hdr) = ⟨[x], (phSeq o.hdr + 1) % 65536⟩ := by
    simp [State.reasm, State.setReasm]
  rw [hexec, hopens]
  obtain rfl := takeCells_eq_setDieUsed hv
  subst hu
  exact ⟨_, rfl, rfl, rfl, ⟨x, by rw [hset], hxdata, hxhdr, hxstamp⟩, by rw [hset], fun _ => rfl, fun _ _ => rfl⟩

end

/-! ## A hole given up -/

/-- The lowest held parcel stands at EXP once its hole is given up. -/
theorem seqDist_self (q : Parcel) : seqDist (phSeq q.hdr) q = 0 := by
  have := bitsOf_lt q.hdr.toNat 91 76
  unfold seqDist phSeq at *
  omega

theorem rsqRelease_eq {f : Nat} {q : Parcel} {l : List Parcel} (h : (s.rsq f).held = q :: l) :
    s.rsqRelease f = (s.disp 10 (seqDist (s.rsq f).exp q)).rsqDrain f (phSeq q.hdr) (q :: l) := by
  simp only [State.rsqRelease, h]

theorem exec_rsqTimerExpiry (flow : Fin 1048576) : exec (.rsqTimerExpiry flow) s = .next (s.rsqRelease flow) := rfl

theorem rsqRelease_counted {f : Nat} {q : Parcel} {l : List Parcel} (h : (s.rsq f).held = q :: l) :
    counted s (s.rsqRelease f) (R.dfpDispCount 10) F.dfpDispCount_count (seqDist (s.rsq f).exp q) := by
  have hdrain : ∀ t : State, Changes (fun a _ => a ≠ R.dfpDispCount 10) t (t.rsqDrain f (phSeq q.hdr) (q :: l)) := fun t =>
    Changes.rsqDrain (fun h _ e => absurd h (by subst e; unfold FlowReg; decide)) .refl
  rw [rsqRelease_eq h, counted, (hdrain _).fld fun _ hg => absurd rfl hg]
  exact counted_disp _ (by decide)

/-- One first fragment behind the hole: EXP moves past it, and it opens a reassembly with the cells it held. -/
theorem rsqRelease_first {f : Nat} {q : Parcel} (h : (s.rsq f).held = [q]) (htype : phType q.hdr = 1) (hfrag : phFrag q.hdr = 1)
    (hnone : (s.reasm (phFlow q.hdr)).parts = []) :
    ((s.rsqRelease f).rsq f).held = [] ∧ ((s.rsqRelease f).rsq f).exp = (phSeq q.hdr + 1) % 65536 ∧
      ((s.rsqRelease f).reasm (phFlow q.hdr)).parts = [q] ∧ memKept s (s.rsqRelease f) ∧ unitsKept s (s.rsqRelease f) [0xF0] := by
  generalize hu : s.disp 10 (seqDist (s.rsq f).exp q) = u
  have hdisp : Changes (fun a _ => unitOf a ∈ [0xF0]) s u := hu ▸ changes_disp _ (by decide)
  have hnone' : (u.reasm (phFlow q.hdr)).parts = [] := by
    rw [← hu, State.reasm, disp_dfp]
    exact hnone
  have hfirst : u.unhold q = (u.freeCells .dn 0).setReasm (phFlow q.hdr) ⟨[q], (phSeq q.hdr + 1) % 65536⟩ := by
    rw [State.unhold, reassemble_first hfrag hnone', withCells_held (partCells_packet htype).le, partCells_packet htype, Nat.sub_self]
  have hdrain : s.rsqRelease f = ((u.freeCells .dn 0).setReasm (phFlow q.hdr) ⟨[q], (phSeq q.hdr + 1) % 65536⟩).rsqDrain f
      ((phSeq q.hdr + 1) % 65536) [] := by
    rw [rsqRelease_eq h, hu, ← hfirst]
    exact if_pos (seqDist_self q)
  have hc : Changes (fun a _ => unitOf a ∈ [0xF0]) s (s.rsqRelease f) := hdrain ▸ hdisp.frame
  rw [hdrain] at hc ⊢
  refine ⟨?_, ?_, ?_, hc.memKept, hc.unitsKept⟩ <;> simp [State.rsqDrain, State.rsq, State.setRsq, State.reasm, State.setReasm]

/-- Settles O13: messages, parcels, openings and holes each as stated above. -/
theorem messagesAndParcelsRouted : Obligations.MessagesAndParcelsRouted := by
  refine fun s p => ⟨fun _ _ _ => messageRx_queued, fun _ _ _ => parcelRx_submits,
    fun _ _ _ _ ho hp hr hnum => ⟨parcelOpenDone_unverified ho hp hr hnum, parcelOpenDone_first ho hp hr hnum⟩, fun flow q l h => ?_⟩
  rw [exec_rsqTimerExpiry]
  refine ⟨_, rfl, rsqRelease_counted h, ?_⟩
  rintro rfl htype hfrag hnone
  exact rsqRelease_first h htype hfrag hnone

end Sys2Proof.Machine
end

section
/-!
SUPPORT. A codeword slot that the receive half takes (R34 to R42, R56) and the grant area of a frame (R72, R84, R85).
-/

namespace Sys2Proof.Machine

variable {s : State} {p : Plane}

theorem whenUp_up {src : Nat} (h : s.restarting src = false) (f : State → State) : s.whenUp src f = f s := if_neg (by rw [h]; decide)

/-! ## Codeword slots -/

/-- The receive half gets levels, from outside or the pattern that its lane sends. -/
theorem receivedLevels_some (levels : List Nat) (h : (s.loopback p ≠ 1 ∧ s.loopback p ≠ 2) ∨ s.patGen p ≠ 0) :
    ∃ lv t, s.receivedLevels p levels = some (lv, t) ∧ t.regs = s.regs ∧ t.mem = s.mem ∧ t.dfp = s.dfp := by
  unfold State.receivedLevels
  split
  case isTrue hloop => exact ⟨_, _, if_neg (by omega), rfl, rfl, rfl⟩
  case isFalse => exact ⟨_, _, rfl, rfl, rfl, rfl⟩

/-- The checker of received levels and the far-end loopback change the test registers of the lane alone. -/
theorem changes_checkedLevels (s : State) (p : Nat) (lv : List Nat) :
    Changes (fun a _ => a ∈ [R.medTest p, R.medTestErr p]) s ((s.checkPattern p lv).farEnd p lv) ∧
      ((s.checkPattern p lv).farEnd p lv).dfp = s.dfp := by
  have hfar : ∀ t : State, Changes (fun a _ => a ∈ [R.medTest p, R.medTestErr p]) t (t.farEnd p lv) ∧ (t.farEnd p lv).dfp = t.dfp := by
    intro t
    unfold State.farEnd
    split
    · exact ⟨Changes.frame .refl, rfl⟩
    · exact ⟨.refl, rfl⟩
  have hcheck : Changes (fun a _ => a ∈ [R.medTest p, R.medTestErr p]) s (s.checkPattern p lv) ∧ (s.checkPattern p lv).dfp = s.dfp := by
    unfold State.checkPattern
    split
    · exact ⟨Changes.count (Changes.setBit (Changes.frame .refl) (.head _)) (.tail _ (.head _)), rfl⟩
    · exact ⟨.refl, rfl⟩
  exact ⟨hcheck.1.trans (hfar _).1, (hfar _).2.trans hcheck.2⟩

theorem takesFrame_congr {t : State} {p x : Nat} (halign : t.reg (R.dfpPlaneStatus p) = s.reg (R.dfpPlaneStatus p))
    (hrate : t.reg (R.medLaneStatus p) = s.reg (R.medLaneStatus p)) (hdfp : t.dfp = s.dfp) : t.takesFrame p x = s.takesFrame p x := by
  rw [State.takesFrame, State.takesFrame, State.frameLength, State.frameLength, State.genOne, State.genOne, State.fld, State.fld, State.fld,
    State.fld, halign, hrate, dplane_congr hdfp]

/-- What a slot changes beside the count of codewords: the other registers of its plane unit and of the DFP. -/
abbrev SlotReg (p : Plane) (a : Nat) (_ : Fld) : Prop := unitOf a ∈ [0x10 + p.val, 0xF0] ∧ a ≠ R.medFecCw p

/-- A register of the plane unit other than the count of codewords. -/
theorem slotReg_med {k : Nat} (hk : k < 0x100000000 ∧ k ≠ 0x30) (f : Fld) : SlotReg p (k + 0x100000000 * (0x10 + p)) f := by
  simp only [SlotReg, unitOf, R.medFecCw, List.mem_cons]
  omega

theorem Changes.slotEvent {t : State} (h : Changes (SlotReg p) s t) {v code n : Nat} (hv : v ∈ [0x10 + p.val, 0xF0]) :
    Changes (SlotReg p) s (t.pmcEvent v code n) := by
  refine h.pmcEvent (fun i hi => ⟨?_, ?_⟩) fun i _ => ⟨?_, ?_⟩
  · rwa [show unitOf (R.pmcCnt v i) = v by simp only [unitOf, R.pmcCnt]; omega]
  · simp only [R.pmcCnt, R.medFecCw]; omega
  · rwa [show unitOf (R.pmcCtl v) = v by simp only [unitOf, R.pmcCtl]; omega]
  · simp only [R.pmcCtl, R.medFecCw]; omega

/-- A slot in order enters the plane's stream and is counted; whatever its codeword is worth is counted besides. -/
theorem codeword_taken {slot x : Nat} (levels : List Nat) (hrate : s.fld (R.medLaneStatus p) F.medLaneStatus_rate ≠ 0)
    (horder : slot = 0 ∨ slot = (s.dplane p).slots) (htakes : slot = 0 → s.takesFrame p x = true)
    (hlevels : (s.loopback p ≠ 1 ∧ s.loopback p ≠ 2) ∨ s.patGen p ≠ 0) :
    ∃ u : State, Changes (SlotReg p) (u.count (R.medFecCw p) F.medFecCw_count) (s.codeword p slot x levels) ∧
      (s.codeword p slot x levels).dfp = u.dfp ∧ Changes (SlotReg p) s u ∧ (u.dplane p).slots = slot + 1 := by
  obtain ⟨lv, v, hreceived, hregs, hmem, hdfp⟩ := receivedLevels_some levels hlevels
  obtain ⟨hchecked, hdfp'⟩ := changes_checkedLevels v p (v.rxLevels p lv)
  have hkept : ∀ {a}, a ∉ [R.medTest p, R.medTestErr p] →
      ((v.checkPattern p (v.rxLevels p lv)).farEnd p (v.rxLevels p lv)).reg a = s.reg a := fun ha =>
    (hchecked.reg fun _ => ha).trans (reg_of_regs hregs _)
  have hframe : ¬(slot = 0 ∧ (!((v.checkPattern p (v.rxLevels p lv)).farEnd p (v.rxLevels p lv)).takesFrame p x) = true) := by
    rintro ⟨h0, hnot⟩
    rw [takesFrame_congr (hkept (by simp only [R.dfpPlaneStatus, R.medTest, R.medTestErr, List.mem_cons, List.not_mem_nil, or_false, not_or]; omega))
      (hkept (by simp only [R.medLaneStatus, R.medTest, R.medTestErr, List.mem_cons, List.not_mem_nil, or_false, not_or]; omega))
      (hdfp'.trans hdfp), htakes h0] at hnot
    cases hnot
  have hbefore : Changes (SlotReg p) s ((v.checkPattern p (v.rxLevels p lv)).farEnd p (v.rxLevels p lv)) := by
    refine Changes.trans (t := v) ⟨hmem, fun a _ _ => by rw [reg_of_regs hregs]⟩ (hchecked.mono fun a f ha => ?_)
    simp only [List.mem_cons, List.not_mem_nil, or_false] at ha
    rcases ha with rfl | rfl
    · exact slotReg_med (by decide) f
    · exact slotReg_med (by decide) f
  have hown : 0x10 + p.val ∈ [0x10 + p.val, 0xF0] := .head _
  have hdfpUnit : 0xF0 ∈ [0x10 + p.val, 0xF0] := .tail _ (.head _)
  unfold State.codeword
  dsimp only
  rw [if_neg (by omega), hreceived]
  dsimp only
  rw [if_neg hframe]
  have hvalue : ∀ {t u : State} {bad : Prop} [Decidable bad] {n : Nat}, Changes (SlotReg p) t u → Changes (SlotReg p) t
      (if bad then (u.count (R.medFecUncorr p) F.medFecUncorr_count).pmcEvent 0xF0 0x11
        else (u.count (R.medFecCorr p) F.medFecCorr_count n).pmcEvent (0x10 + p) 0x11 n) := fun h =>
    .ite (fun _ => (h.count (slotReg_med (by decide) _)).slotEvent hdfpUnit) fun _ =>
      (h.count (slotReg_med (by decide) _)).slotEvent hown
  have hevents : ∀ {t : State} {n : Nat}, Changes (SlotReg p) t ((t.pmcEvent (0x10 + p) 0x10).pmcEvent (0x10 + p) 0x13 n) :=
    (Changes.refl.slotEvent hown).slotEvent hown
  refine ⟨_, .ite (fun _ => ((hvalue hevents).count (slotReg_med (by decide) _)).latch (slotReg_med (by decide) _)) fun _ => hvalue hevents,
    ?_, hbefore.frame, congrArg DfpPlane.slots (dplane_setDplane_same _ _ _)⟩
  simp only [apply_ite State.dfp, latch_dfp, count_dfp, pmcEvent_dfp, ite_self]

theorem codewordRx_counted {slot x : Nat} (levels : List Nat) (hdfp : s.restarting Src.dfp = false)
    (hmed : s.restarting (Src.med (p / 4)) = false) (hrate : s.fld (R.medLaneStatus p) F.medLaneStatus_rate ≠ 0)
    (horder : slot = 0 ∨ slot = (s.dplane p).slots) (htakes : slot = 0 → s.takesFrame p x = true)
    (hlevels : (s.loopback p ≠ 1 ∧ s.loopback p ≠ 2) ∨ s.patGen p ≠ 0) :
    ∃ t : State, exec (.codewordRx p slot x levels) s = .next t ∧ (t.dplane p).slots = slot + 1 ∧
      counted s t (R.medFecCw p) F.medFecCw_count ∧ memKept s t ∧ unitsKept s t [0x10 + p, 0xF0] := by
  have hexec : exec (.codewordRx p slot x levels) s =
    .next (s.whenUp Src.dfp (·.whenUp (Src.med (p / 4)) (·.codeword p slot x levels))) := rfl
  obtain ⟨u, hcount, hdplane, hbefore, hslots⟩ := codeword_taken levels hrate horder htakes hlevels
  rw [hexec, whenUp_up hdfp, whenUp_up hmed]
  have hunits : ∀ {t v : State}, Changes (SlotReg p) t v → Changes (fun a _ => unitOf a ∈ [0x10 + p.val, 0xF0]) t v := fun h =>
    h.mono fun _ _ => And.left
  have hc := ((hunits hbefore).count (a := R.medFecCw p) (f := F.medFecCw_count) (n := 1)
    (by simp only [unitOf, R.medFecCw, List.mem_cons]; omega)).trans (hunits hcount)
  exact ⟨_, rfl, by rw [dplane_congr hdplane, hslots], counted_count (hbefore.fld fun _ hg => absurd rfl hg.2)
    (hcount.fld fun _ hg => absurd rfl hg.2) (by decide) (by decide), hc.memKept, hc.unitsKept⟩

/-! ## The grant area -/

/-- The grant area of the frame in progress has been looked at. -/
def State.grantsSeen (s : State) (p : Nat) : State := s.setDplane p { s.dplane p with grantsDone := true }

/-- An entry joins those accepted of its frame, and is counted. -/
def State.grantCounted (s : State) (p : Nat) (g : Grant) : State :=
  (s.setDplane p { s.dplane p with grants := (s.dplane p).grants ++ [g] }).count (R.dfpGrantsAcc p) F.dfpGrantsAcc_count

/-- The UBB and the ward hold an entry. -/
def State.grantHeld (s : State) (p : Nat) (g : Grant) : State :=
  { s.setUplane p { s.uplane p with entries := (s.uplane p).entries ++ [g] } with ward := { s.ward with entries := s.ward.entries ++ [g] } }

/-- While the line position runs an entry of this terminal that meets R85 is held. -/
theorem grantEntry_accepted {e : BitVec 64} {g : Grant} (htid : bitsOf e.toNat 63 54 = s.fld R.dfpIdent F.dfpIdent_tid)
    (hg : grantOf e p ((s.dplane p).frame + 4) (s.time.frame * frameSymbols + s.time.sym) = g)
    (hok : s.grantOk p (s.dplane p).grants g = true) (hlp : s.lpValid = true) : s.grantEntry p e = (s.grantCounted p g).grantHeld p g := by
  have hlp' : (s.grantCounted p g).lpValid = true :=
    (bit_count_other _ _ _ _ (by simp only [R.timeStatus, R.dfpGrantsAcc]; omega)).trans hlp
  have hruns : ¬(!(s.grantCounted p g).lpValid) = true := by rw [hlp']; decide
  subst hg
  exact (if_neg (not_not.2 htid)).trans <| (if_neg (by rw [hok]; decide)).trans (if_neg hruns)

theorem exec_grantArea : exec (.grantArea p) s = .next (s.grantArea p) := rfl

section
variable {n : Nat}
variable (hdone : (s.dplane p).grantsDone = false) (htaking : (s.dplane p).taking = true) (hn : (s.dplane p).grantCount = n)
  (hhas : (s.dplane p).has (319 + 64 * n) = true)
include hdone htaking hn hhas

theorem grantArea_eq : s.grantArea p =
    if (s.dplane p).badBits 0 (319 + 64 * n) || crc32 ((s.dplane p).bits 256 (64 * n)) != (s.dplane p).word (256 + 64 * n) 32 then
      ((s.grantsSeen p).count (R.dfpGrantsDisc p) F.dfpGrantsDisc_areas).latch (R.dfpPlaneDefect p) F.dfpPlaneDefect_grantCrc
    else ((s.dplane p).entries n).foldl (fun s e => s.grantEntry p e) (s.grantsSeen p) := by
  subst hn
  exact if_neg (by rw [hdone, htaking, hhas]; decide)

/-- An area with a marked slot or a failing CRC gives no entry and is counted once. -/
theorem grantArea_discarded (hfails : (s.dplane p).badBits 0 (319 + 64 * n) = true ∨
      crc32 ((s.dplane p).bits 256 (64 * n)) ≠ (s.dplane p).word (256 + 64 * n) 32) :
    ∃ t : State, exec (.grantArea p) s = .next t ∧ counted s t (R.dfpGrantsDisc p) F.dfpGrantsDisc_areas ∧
      t.bit (R.dfpPlaneDefect p) F.dfpPlaneDefect_grantCrc = true ∧ t.ubb = s.ubb ∧ t.ward = s.ward ∧ memKept s t ∧
      regsKept s t [R.dfpGrantsDisc p, R.dfpPlaneDefect p] := by
  have hseen : Changes (fun a _ => a ∈ [R.dfpGrantsDisc p, R.dfpPlaneDefect p]) s (s.grantsSeen p) := Changes.frame .refl
  have hc := (hseen.count (f := F.dfpGrantsDisc_areas) (n := 1) (.head _)).latch (f := F.dfpPlaneDefect_grantCrc) (.tail _ (.head _))
  rw [exec_grantArea, grantArea_eq hdone htaking hn hhas, if_pos (by simpa using hfails)]
  exact ⟨_, rfl, counted_count rfl (fld_latch_other _ _ _ (by simp only [R.dfpGrantsDisc, R.dfpPlaneDefect]; omega)) (by decide) (by decide),
    bit_latch_same _ _ _ rfl (by decide), by rw [latch_ubb]; rfl, by rw [latch_ward]; rfl, hc.memKept, hc.regsKept⟩

variable (hbad : (s.dplane p).badBits 0 (319 + 64 * n) = false)
  (hcrc : crc32 ((s.dplane p).bits 256 (64 * n)) = (s.dplane p).word (256 + 64 * n) 32)
include hbad hcrc

theorem grantArea_passes : s.grantArea p = ((s.dplane p).entries n).foldl (fun s e => s.grantEntry p e) (s.grantsSeen p) := by
  rw [grantArea_eq hdone htaking hn hhas, if_neg (by simp [hbad, hcrc])]

/-- An area that passes is taken, whatever its entries are. -/
theorem grantArea_taken :
    ∃ t : State, exec (.grantArea p) s = .next t ∧ (t.dplane p).grantsDone = true ∧ memKept s t ∧ unitsKept s t [0xF0, 0xF1] := by
  have hp := p.isLt
  have hentry : ∀ {t : State} {e}, (t.dplane p).grantsDone = true → ((t.grantEntry p e).dplane p).grantsDone = true := by
    intro t e ht
    unfold State.grantEntry
    dsimp only
    split
    · exact ht
    · split
      · exact ht
      · split
        · rw [dplane_congr (bdisp_dfp _ _), dplane_congr (count_dfp _ _ _ _), dplane_setDplane_same, ht]
        · exact (congrArg DfpPlane.grantsDone (dplane_setDplane_same t p _)).trans ht
  have hacc : ∀ {t : State} {c}, Changes (fun a _ => unitOf a ∈ [0xF0, 0xF1]) s t → c < 16 →
      Changes (fun a _ => unitOf a ∈ [0xF0, 0xF1]) s (t.bdisp c) := fun h hc =>
    have hubb : ∀ {a : Nat}, unitOf a = 0xF1 → unitOf a ∈ [0xF0, 0xF1] := fun h => by simp [h]
    (h.count (hubb (by simp only [unitOf, R.ubbBdispCount]; omega))).pmcEvent
      (fun i hi => hubb (by simp only [unitOf, R.pmcCnt]; omega)) fun _ _ => hubb (by decide)
  have hdfp : ∀ {a : Nat}, unitOf a = 0xF0 → unitOf a ∈ [0xF0, 0xF1] := fun h => by simp [h]
  have hc : Changes (fun a _ => unitOf a ∈ [0xF0, 0xF1]) s
      (((s.dplane p).entries n).foldl (fun s e => s.grantEntry p e) (s.grantsSeen p)) :=
    Changes.foldl (Changes.frame .refl) fun _ _ _ h => h.grantEntry (hdfp (by simp only [unitOf, R.dfpGrantsAcc]; omega))
      (hdfp (by simp only [unitOf, R.dfpGrantsDisc]; omega)) fun h => hacc h (by decide)
  rw [exec_grantArea, grantArea_passes hdone htaking hn hhas hbad hcrc]
  refine ⟨_, rfl, ?_, hc.memKept, hc.unitsKept⟩
  exact List.foldlRecOn (motive := fun t : State => (t.dplane p).grantsDone = true) _ _
    (congrArg DfpPlane.grantsDone (dplane_setDplane_same s p _)) fun t ht _ _ => hentry ht

/-- One entry of this terminal that meets R85 goes to the UBB and to the ward alike. -/
theorem grantArea_accepts {e : BitVec 64} (hone : (s.dplane p).entries n = [e]) (hlp : s.lpValid = true)
    (htid : bitsOf e.toNat 63 54 = s.fld R.dfpIdent F.dfpIdent_tid)
    (hok : s.grantOk p (s.dplane p).grants (grantOf e p ((s.dplane p).frame + 4) (s.time.frame * frameSymbols + s.time.sym)) = true) :
    ∃ t : State, exec (.grantArea p) s = .next t ∧ counted s t (R.dfpGrantsAcc p) F.dfpGrantsAcc_count ∧
      (∃ g, (t.uplane p).entries = (s.uplane p).entries ++ [g] ∧ t.ward.entries = s.ward.entries ++ [g] ∧ g.plane = p.val ∧
        g.frame = (s.dplane p).frame + 4 ∧ g.start = bitsOf e.toNat 53 33 ∧ g.length = bitsOf e.toNat 32 12) ∧
      memKept s t ∧ regsKept s t [R.dfpGrantsAcc p] := by
  generalize hg : grantOf e p ((s.dplane p).frame + 4) (s.time.frame * frameSymbols + s.time.sym) = g at hok
  have hseen : (s.grantsSeen p).dplane p = { s.dplane p with grantsDone := true } := dplane_setDplane_same s p _
  have haccepts : s.grantArea p = ((s.grantsSeen p).grantCounted p g).grantHeld p g := by
    rw [grantArea_passes hdone htaking hn hhas hbad hcrc, hone]
    exact grantEntry_accepted htid (by rw [hseen]; exact hg) (by rw [hseen]; exact hok) hlp
  have hc : Changes (fun a _ => a ∈ [R.dfpGrantsAcc p]) s (((s.grantsSeen p).grantCounted p g).grantHeld p g) :=
    Changes.frame (Changes.count (Changes.frame .refl) (.head _))
  have hheld : ∀ t : State, ((t.grantHeld p g).uplane p).entries = (t.uplane p).entries ++ [g] := fun t => by
    simp [State.grantHeld, State.uplane, State.setUplane]
  rw [exec_grantArea, haccepts]
  refine ⟨_, rfl, counted_count rfl rfl (by decide) (by decide), ⟨g, hheld _, rfl, ?_⟩, hc.memKept, hc.regsKept⟩
  rw [← hg]
  exact ⟨rfl, rfl, rfl, rfl⟩

end
end Sys2Proof.Machine
end

section
/-!
SUPPORT. FRAME_ALIGN (R77 to R83, R194): the stages in which a delimiter and its header are judged, what a good frame leaves, and the loss of
the frame.
-/

namespace Sys2Proof.Machine

variable {s : State} {p : Plane}

/-! ## The stages -/

/-- The plane with its delimiter marked as judged and, while aligned, SD of the frame before it (R82). -/
def State.sdJudged (s : State) (p : Nat) : State :=
  if (s.setDplane p { s.dplane p with judged := true }).aligned p then (s.setDplane p { s.dplane p with judged := true }).judgeSd p
  else s.setDplane p { s.dplane p with judged := true }

/-- The delimiter is judged: SD of the frame before it, and a header of another plane (R82, R112). -/
def State.delimJudged (s : State) (p : Nat) : State :=
  (s.sdJudged p).latchIf (decide ((s.dplane p).delimBad ≤ s.fld R.dfpCfg F.dfpCfg_delimTol) && !(s.dplane p).bad 0 &&
    fhCrcOk (s.dplane p).header && fhPlane (s.dplane p).header != p) (R.dfpPlaneDefect p) F.dfpPlaneDefect_mismatch

/-- Alignment moves by the table (R78): `wf` for a well-formed header, `ok` for one that passes the window check besides, `next` for the
FRAME expected. -/
def State.alignBy (s : State) (p : Nat) (h : BitVec 256) (x ago : Int) (wf ok next : Bool) : State :=
  if s.fld (R.dfpPlaneStatus p) F.dfpPlaneStatus_align = 0 then
    if ok then (s.setFld (R.dfpPlaneStatus p) F.dfpPlaneStatus_align 1).setDplane p { s.dplane p with expect := fhFrame h + 1 } else s
  else
    let t := s.latchIf (wf && !next) (R.dfpPlaneDefect p) F.dfpPlaneDefect_counter
    if s.fld (R.dfpPlaneStatus p) F.dfpPlaneStatus_align = 1 then
      if ok && next then ((t.enterFrame p).goodFrame p h x ago).retime false else t.toSearch p
    else if ok && next then (t.goodFrame p h x ago).retime false
    else t.badFrame p

/-! ## Fields of a plane's registers -/

/-- A register of a plane in DFP, by its offset. -/
abbrev planeReg (p k : Nat) : Nat := 0xF000000000 + k + 0x80 * p

/-- The fields of a list, each with its register's offset. -/
abbrev planeFields (l : List (Nat × Fld)) (p a : Nat) (f : Fld) : Prop := ∃ e ∈ l, a = planeReg p e.1 ∧ f = e.2

theorem unitOf_planeReg (p : Plane) {k : Nat} (hk : k < 0x1080) : unitOf (planeReg p k) = 0xF0 := by
  have := p.isLt
  simp only [unitOf, planeReg]
  omega

theorem unitOf_planeFields {l : List (Nat × Fld)} {a : Nat} {f : Fld} (h : planeFields l p a f) (hl : ∀ e ∈ l, e.1 < 0x1080) :
    unitOf a = 0xF0 := by
  obtain ⟨e, he, rfl, -⟩ := h
  exact unitOf_planeReg p (hl e he)

/-- A field apart from those of the list. -/
theorem Changes.planeFld {l : List (Nat × Fld)} {t : State} {p k : Nat} {f : Fld} (h : Changes (planeFields l p) s t)
    (hl : ∀ e ∈ l, e.1 = k → f.hi < e.2.lo ∨ e.2.hi < f.lo) : t.fld (planeReg p k) f = s.fld (planeReg p k) f := by
  refine h.fld fun g hg => ?_
  obtain ⟨e, he, ha, rfl⟩ := hg
  exact hl e he (by simp only [planeReg] at ha; omega)

/-- The fields that the judgement of a delimiter changes. -/
def judgedFields : List (Nat × Fld) :=
  [(0x1000, F.dfpPlaneStatus_sd), (0x1008, F.dfpPlaneDefect_sd), (0x1008, F.dfpPlaneDefect_mismatch)]

/-! ## The judgement of a delimiter -/

theorem Changes.setDplane {W : Nat → Fld → Prop} {s t : State} (h : Changes W s t) {p : Nat} {d : DfpPlane} : Changes W s (t.setDplane p d) :=
  h.frame

theorem Changes.planeDefect {W : Nat → Fld → Prop} {s t : State} (h : Changes W s t) {p : Nat} {shown latched : Fld} {b : Bool}
    (hs : W (R.dfpPlaneStatus p) shown) (hd : W (R.dfpPlaneDefect p) latched) : Changes W s (t.planeDefect p shown latched b) :=
  (h.setBit hs).latchIf hd

theorem planeDefect_dfp (s : State) (p : Nat) (shown latched : Fld) (b : Bool) : (s.planeDefect p shown latched b).dfp = s.dfp := by
  simp [State.planeDefect]

/-- What holds however SD was judged (R82): nothing to judge, or its runs kept in the plane and SD left, set or cleared. -/
theorem judgeSd_cases {P : State → Prop} {s : State} {p : Nat} (hnone : P s)
    (hruns : ∀ d : DfpPlane, d.marks = (s.dplane p).marks → d.cut = (s.dplane p).cut → P (s.setDplane p d) ∧
      P ((s.setDplane p d).planeDefect p F.dfpPlaneStatus_sd F.dfpPlaneDefect_sd true) ∧
      P ((s.setDplane p d).setBit (R.dfpPlaneStatus p) F.dfpPlaneStatus_sd false)) : P (s.judgeSd p) := by
  unfold State.judgeSd
  dsimp only
  generalize (if max 1 (s.fld R.dfpSdCfg F.dfpSdCfg_sdSet) ≤ (s.dplane p).uncorrPrev then (s.dplane p).sdSet + 1 else 0) = a
  generalize (if (s.dplane p).uncorrPrev < s.fld R.dfpSdCfg F.dfpSdCfg_sdClr then (s.dplane p).sdClr + 1 else 0) = b
  obtain ⟨hleft, hset, hclear⟩ := hruns { s.dplane p with sdCounted := false, sdSet := min 8 a, sdClr := min 64 b } rfl rfl
  split
  · exact hnone
  · split
    · exact hset
    · split
      · exact hclear
      · exact hleft

theorem changes_judgeSd (s : State) (p : Nat) : Changes (planeFields judgedFields p) s (s.judgeSd p) :=
  judgeSd_cases .refl fun _ _ _ => ⟨Changes.setDplane .refl,
    Changes.planeDefect (Changes.setDplane .refl) ⟨_, .head _, rfl, rfl⟩ ⟨_, .tail _ (.head _), rfl, rfl⟩,
    Changes.setBit (Changes.setDplane .refl) ⟨_, .head _, rfl, rfl⟩⟩

theorem bad_congr {d e : DfpPlane} (hm : d.marks = e.marks) (hc : d.cut = e.cut) : d.bad = e.bad := by
  funext i
  rw [DfpPlane.bad, DfpPlane.bad, hm, hc]

/-- The judgement of SD leaves the marks of the frame. -/
theorem bad_judgeSd (s : State) (p : Nat) : ((s.judgeSd p).dplane p).bad = (s.dplane p).bad := by
  refine judgeSd_cases (P := fun t => (t.dplane p).bad = (s.dplane p).bad) rfl fun d hm hc => ?_
  have hset : ((s.setDplane p d).dplane p).bad = (s.dplane p).bad := by
    rw [dplane_setDplane_same]
    exact bad_congr hm hc
  exact ⟨hset, by rwa [dplane_congr (planeDefect_dfp _ _ _ _ _)], hset⟩

/-- What holds of the plane marked as judged, and however SD is judged then, holds of the plane with SD judged. -/
theorem sdJudged_cases {P : State → Prop} {s : State} {p : Nat} (hmarked : P (s.setDplane p { s.dplane p with judged := true }))
    (hsd : P ((s.setDplane p { s.dplane p with judged := true }).judgeSd p)) : P (s.sdJudged p) := by
  rw [State.sdJudged]
  split
  · exact hsd
  · exact hmarked

theorem changes_delimJudged (s : State) (p : Nat) : Changes (planeFields judgedFields p) s (s.delimJudged p) :=
  Changes.latchIf (sdJudged_cases (P := Changes (planeFields judgedFields p) s) (Changes.setDplane .refl)
    ((Changes.setDplane .refl).trans (changes_judgeSd _ p))) ⟨_, .tail _ (.tail _ (.head _)), rfl, rfl⟩

theorem bad_delimJudged (s : State) (p : Nat) : ((s.delimJudged p).dplane p).bad = (s.dplane p).bad := by
  have hmarked : ((s.setDplane p { s.dplane p with judged := true }).dplane p).bad = (s.dplane p).bad := by
    rw [dplane_setDplane_same]
    exact bad_congr rfl rfl
  rw [State.delimJudged, dplane_congr (latchIf_dfp _ _ _ _)]
  exact sdJudged_cases (P := fun t => (t.dplane p).bad = (s.dplane p).bad) hmarked ((bad_judgeSd _ p).trans hmarked)

/-! ## The header -/

theorem wellFormedHdr_congr {u : State} {p : Nat} {h : BitVec 256} (hbad : (u.dplane p).bad = (s.dplane p).bad)
    (hlane : u.reg (R.medLaneStatus p) = s.reg (R.medLaneStatus p)) : u.wellFormedHdr p h = s.wellFormedHdr p h := by
  rw [State.wellFormedHdr, State.wellFormedHdr, hbad, State.fld, State.fld, hlane]

/-- The window check that passes changes nothing, and it rests on LP_VALID alone (R80). -/
theorem windowCheck_passes {u : State} {p : Nat} {h : BitVec 256} {x : Int} (hlp : u.lpValid = s.lpValid) (hpass : (s.windowCheck p h x).1 = true) :
    u.windowCheck p h x = (true, u) := by
  unfold State.windowCheck at hpass ⊢
  rw [hlp]
  dsimp only at hpass ⊢
  split_ifs at hpass ⊢ <;> rfl

/-- No register of another unit changes. -/
theorem reg_delimJudged (s : State) (p : Plane) {a : Nat} (ha : unitOf a ≠ 0xF0) : (s.delimJudged p).reg a = s.reg a :=
  (changes_delimJudged s p).reg fun _ h => ha (unitOf_planeFields h (by decide))

theorem wellFormedHdr_delimJudged (s : State) (p : Plane) (h : BitVec 256) : (s.delimJudged p).wellFormedHdr p h = s.wellFormedHdr p h := by
  have := p.isLt
  exact wellFormedHdr_congr (bad_delimJudged s p) (reg_delimJudged s p (by simp only [unitOf, R.medLaneStatus]; omega))

theorem lpValid_delimJudged (s : State) (p : Plane) : (s.delimJudged p).lpValid = s.lpValid := by
  rw [State.lpValid, State.lpValid, State.bit, State.bit, State.fld, State.fld, reg_delimJudged s p (by decide)]

/-! ## Alignment -/

/-- A delimiter not yet judged on a lane that receives is judged, and alignment moves. -/
theorem frameAlign_eq {off : Int} (hjudged : (s.dplane p).judged = false) (hslots : (s.dplane p).slots ≠ 0)
    (hlos : s.bit (R.medLaneStatus p) F.medLaneStatus_los = false) (hlol : s.bit (R.medLaneStatus p) F.medLaneStatus_lol = false)
    (hrate : s.fld (R.medLaneStatus p) F.medLaneStatus_rate ≠ 0) :
    ∃ ago, s.frameAlign p off =
      let u := s.delimJudged p
      let wf := decide ((s.dplane p).delimBad ≤ s.fld R.dfpCfg F.dfpCfg_delimTol) && u.wellFormedHdr p (s.dplane p).header
      let w := if wf then u.windowCheck p (s.dplane p).header ((s.time.frame * frameSymbols : Nat) + off) else (false, u)
      w.2.alignBy p (s.dplane p).header ((s.time.frame * frameSymbols : Nat) + off) ago wf w.1
        (fhFrame (s.dplane p).header == (s.dplane p).expect) :=
  ⟨if s.lpValid then off - s.time.sym else off, if_neg (by simp [hjudged, hslots, hlos, hlol, hrate])⟩

section Judged

variable {off : Int} (hjudged : (s.dplane p).judged = false) (hslots : (s.dplane p).slots ≠ 0)
  (hlos : s.bit (R.medLaneStatus p) F.medLaneStatus_los = false) (hlol : s.bit (R.medLaneStatus p) F.medLaneStatus_lol = false)
  (hrate : s.fld (R.medLaneStatus p) F.medLaneStatus_rate ≠ 0)
include hjudged hslots hlos hlol hrate

/-- A delimiter with a well-formed header that passes the window check (R78, R80). -/
theorem frameAlign_wellFormed (hdelim : (s.dplane p).delimBad ≤ s.fld R.dfpCfg F.dfpCfg_delimTol)
    (hwf : s.wellFormedHdr p (s.dplane p).header = true)
    (hwin : (s.windowCheck p (s.dplane p).header ((s.time.frame * frameSymbols : Nat) + off)).1 = true) :
    ∃ x ago, s.frameAlign p off = (s.delimJudged p).alignBy p (s.dplane p).header x ago true true
      (fhFrame (s.dplane p).header == (s.dplane p).expect) := by
  obtain ⟨ago, heq⟩ := frameAlign_eq (off := off) hjudged hslots hlos hlol hrate
  refine ⟨(s.time.frame * frameSymbols : Nat) + off, ago, heq.trans ?_⟩
  simp only [hdelim, wellFormedHdr_delimJudged, hwf, windowCheck_passes (lpValid_delimJudged s p) hwin, decide_true, Bool.and_true, if_true]

/-- A delimiter with more wrong symbols than DELIM_TOL (R78). -/
theorem frameAlign_failing (hdelim : s.fld R.dfpCfg F.dfpCfg_delimTol < (s.dplane p).delimBad) :
    ∃ x ago, s.frameAlign p off = (s.delimJudged p).alignBy p (s.dplane p).header x ago false false
      (fhFrame (s.dplane p).header == (s.dplane p).expect) := by
  obtain ⟨ago, heq⟩ := frameAlign_eq (off := off) hjudged hslots hlos hlol hrate
  refine ⟨(s.time.frame * frameSymbols : Nat) + off, ago, heq.trans ?_⟩
  simp only [Nat.not_le.2 hdelim, decide_false, Bool.false_and, Bool.false_eq_true, if_false]

end Judged

end Sys2Proof.Machine
end

section
/-!
SUPPORT. What FRAME_ALIGN leaves as alignment moves (R78 to R83, R194): a header accepted in SEARCH, a good frame, a bad frame, and the loss
of the frame.
-/

namespace Sys2Proof.Machine

variable {s t u : State} {p : Plane}

theorem planeFields_mono {l l' : List (Nat × Fld)} (hl : l ⊆ l') {p a : Nat} {f : Fld} : planeFields l p a f → planeFields l' p a f :=
  fun ⟨e, he, h⟩ => ⟨e, hl he, h⟩

theorem unitsKept_plane {l : List (Nat × Fld)} (h : Changes (planeFields l p) s t) (hl : ∀ e ∈ l, e.1 < 0x1080) :
    unitsKept s t [0xF0] :=
  Changes.unitsKept (h.mono fun _ _ hf => by rw [unitOf_planeFields hf hl]; exact .head _)

/-! ## Registers beside a plane's -/

/-- A counter block, or a register of a unit below DFP. -/
def SideReg (a : Nat) : Prop := 0xF000 ≤ offOf a ∨ unitOf a < 0xF0

theorem not_sideReg_plane (p : Plane) {k : Nat} (hk : k < 0x1080) : ¬SideReg (planeReg p k) := by
  have := p.isLt
  simp only [SideReg, unitOf, offOf, planeReg]
  omega

/-- The fields of a list of a plane's, and registers beside them. -/
abbrev alignFields (l : List (Nat × Fld)) (p a : Nat) (f : Fld) : Prop := SideReg a ∨ planeFields l p a f

theorem alignFields_of_unit {l : List (Nat × Fld)} {p n : Nat} (hn : n < 0xF0) (a : Nat) (f : Fld) (ha : unitOf a = n) : alignFields l p a f :=
  .inl (.inr (ha ▸ hn))

theorem Changes.alignFld {l : List (Nat × Fld)} (h : Changes (alignFields l p) s t) {k : Nat} {f : Fld} (hk : k < 0x1080)
    (hl : ∀ e ∈ l, e.1 = k → f.hi < e.2.lo ∨ e.2.hi < f.lo) : t.fld (planeReg p k) f = s.fld (planeReg p k) f := by
  refine h.fld fun g hg => ?_
  obtain ⟨e, he, ha, rfl⟩ := hg.resolve_left (not_sideReg_plane p hk)
  exact hl e he (by simp only [planeReg] at ha; omega)

/-- A field of the list is written. -/
theorem Changes.alignSet {l : List (Nat × Fld)} {p : Nat} (h : Changes (alignFields l p) s t) (e : Nat × Fld) (he : e ∈ l) {v : Nat} :
    Changes (alignFields l p) s (t.setFld (planeReg p e.1) e.2 v) := h.setFld (.inr ⟨e, he, rfl, rfl⟩)

/-! ## The line position starts (R194) -/

namespace Changes

variable {W : Nat → Fld → Prop}

theorem latchEqd (h : Changes W s t) : Changes W s t.latchEqd := h.foldl fun _ _ _ h => h.frame

theorem holdOrigins (h : Changes W s t) : Changes W s t.holdOrigins := frame (h.foldl fun _ _ _ h => h.frame)

theorem alarmsPassed (h : Changes W s t) : Changes W s t.alarmsPassed := h.foldl fun _ _ _ h => .ite (fun _ => h.frame) fun _ => h

theorem dumpsPassed (h : Changes W s t) : Changes W s t.dumpsPassed := h.foldl fun _ _ _ h => .ite (fun _ => h.frame) fun _ => h

theorem setWard (h : Changes W s t) {f : Fld} {b : Bool} (hw : W R.wardStatus f) : Changes W s (t.setWard f b) :=
  .ite (fun _ => h) fun _ => (h.setBit hw).frame

theorem lpStart (h : Changes W s t) {p f age : Nat} (htime : ∀ a f, unitOf a = 5 → W a f) (hward : W R.wardStatus F.wardStatus_lpValid) :
    Changes W s (t.lpStart p f age) := by
  refine .ite (fun _ => h) fun _ => dumpsPassed (frame (alarmsPassed (holdOrigins (latchEqd (frame (setCode ?_ htime))))))
  refine setBit (setBit (setFld (setFld (setWard (setBit (frame (foldl ?_ fun _ _ _ h => ?_)) ?_) hward) ?_) ?_) ?_) ?_
  · exact h.frame
  · exact h.frame
  all_goals exact htime _ _ (by decide)

end Changes

/-! ## A good frame (R78, R82, R83) -/

/-- The frame is counted and MISS is 0. -/
def State.goodCounted (s : State) (p : Nat) : State :=
  ((s.count (R.dfpFramesGood p) F.dfpFramesGood_count).pmcEvent 0xF0 0x10).setFld (R.dfpPlaneStatus p) F.dfpPlaneStatus_miss 0

/-- Its generation and FRAME are shown. -/
def State.goodNumbered (s : State) (p : Nat) (h : BitVec 256) : State :=
  ((s.goodCounted p).setFld (R.dfpPlaneStatus p) F.dfpPlaneStatus_gen (fhGen h)).setFld (R.dfpPlaneFrame p) F.dfpPlaneFrame_frame (fhFrame h)

/-- PALM and UNSUP are entered or left. -/
def State.goodShown (s : State) (p : Nat) (h : BitVec 256) : State :=
  ((s.goodNumbered p h).planeDefect p F.dfpPlaneStatus_palm F.dfpPlaneDefect_palm (fhPalm h)).planeDefect p F.dfpPlaneStatus_unsup
    F.dfpPlaneDefect_unsup !(fhGen h == 1 || fhGen h == 2)

/-- The line position starts, or the plane's offset from it is shown. -/
def State.goodTimed (s : State) (p : Nat) (h : BitVec 256) (x ago : Int) : State :=
  let t := if s.lpValid then s else s.lpStart p (fhFrame h) (-ago).toNat
  if s.lpValid then t.setFld (R.dfpPlaneOffset p) F.dfpPlaneOffset_offset (toTwos 32 (x - (nearestFrame x).1 * 26562500)) else t

/-- The stages of a good frame; the frame after it is expected. -/
theorem goodFrame_eq (s : State) (p : Nat) (h : BitVec 256) (x ago : Int) :
    ∃ d : DfpPlane, d.expect = fhFrame h + 1 ∧ s.goodFrame p h x ago = ((s.goodShown p h).goodTimed p h x ago).setDplane p d := ⟨_, rfl, rfl⟩

/-- The fields that are shown after FRAME. -/
def shownFields : List (Nat × Fld) :=
  [(0x1000, F.dfpPlaneStatus_palm), (0x1008, F.dfpPlaneDefect_palm), (0x1000, F.dfpPlaneStatus_unsup), (0x1008, F.dfpPlaneDefect_unsup),
    (0x1018, F.dfpPlaneOffset_offset)]

/-- The fields of a good frame beside its count. -/
def goodFields : List (Nat × Fld) :=
  (0x1000, F.dfpPlaneStatus_miss) :: (0x1000, F.dfpPlaneStatus_gen) :: (0x1010, F.dfpPlaneFrame_frame) :: shownFields

theorem changes_goodShown (s : State) (p : Nat) (h : BitVec 256) : Changes (alignFields shownFields p) (s.goodNumbered p h) (s.goodShown p h) := by
  refine Changes.planeDefect (Changes.planeDefect .refl ?_ ?_) ?_ ?_
  exacts [.inr ⟨_, .head _, rfl, rfl⟩, .inr ⟨_, .tail _ (.head _), rfl, rfl⟩, .inr ⟨_, .tail _ (.tail _ (.head _)), rfl, rfl⟩,
    .inr ⟨_, .tail _ (.tail _ (.tail _ (.head _))), rfl, rfl⟩]

theorem changes_goodTimed (s : State) (p : Nat) (h : BitVec 256) (x ago : Int) :
    Changes (alignFields shownFields p) s (s.goodTimed p h x ago) := by
  have hstart : Changes (alignFields shownFields p) s (if s.lpValid then s else s.lpStart p (fhFrame h) (-ago).toNat) :=
    .ite (fun _ => .refl) fun _ => Changes.refl.lpStart (alignFields_of_unit (by decide)) (.inl (.inr (by decide)))
  exact .ite (fun _ => hstart.alignSet (0x1018, F.dfpPlaneOffset_offset) (by decide)) fun _ => hstart

/-- After its FRAME is shown. -/
theorem changes_goodFrame_numbered (s : State) (p : Nat) (h : BitVec 256) (x ago : Int) :
    Changes (alignFields shownFields p) (s.goodNumbered p h) ((s.goodFrame p h x ago).retime false) := by
  obtain ⟨d, -, heq⟩ := goodFrame_eq s p h x ago
  rw [heq]
  exact ((changes_goodShown s p h).trans (changes_goodTimed _ p h x ago)).setDplane.retime (alignFields_of_unit (by decide))

theorem changes_goodNumbered (s : State) (p : Nat) (h : BitVec 256) :
    Changes (alignFields goodFields p) (s.count (R.dfpFramesGood p) F.dfpFramesGood_count) (s.goodNumbered p h) := by
  have hevent : Changes (alignFields goodFields p) (s.count (R.dfpFramesGood p) F.dfpFramesGood_count)
      ((s.count (R.dfpFramesGood p) F.dfpFramesGood_count).pmcEvent 0xF0 0x10) :=
    Changes.refl.pmcEvent (fun i hi => .inl (.inl (by simp only [offOf, R.pmcCnt]; omega))) fun _ _ => .inl (.inl (by decide))
  have hmiss := hevent.alignSet (0x1000, F.dfpPlaneStatus_miss) (by decide) (v := 0)
  exact (hmiss.alignSet (0x1000, F.dfpPlaneStatus_gen) (by decide)).alignSet (0x1010, F.dfpPlaneFrame_frame) (by decide)

/-- After it is counted. -/
theorem changes_goodFrame_counted (s : State) (p : Nat) (h : BitVec 256) (x ago : Int) :
    Changes (alignFields goodFields p) (s.count (R.dfpFramesGood p) F.dfpFramesGood_count) ((s.goodFrame p h x ago).retime false) :=
  (changes_goodNumbered s p h).trans ((changes_goodFrame_numbered s p h x ago).mono fun _ _ =>
    Or.imp_right (planeFields_mono (List.subset_cons_of_subset _ (List.subset_cons_of_subset _ (List.subset_cons_self _ _)))))

theorem fhFrame_lt (h : BitVec 256) : fhFrame h < 2 ^ 48 := bitsOf_lt _ _ _

theorem miss_goodNumbered (s : State) (p : Nat) (h : BitVec 256) : (s.goodNumbered p h).fld (R.dfpPlaneStatus p) F.dfpPlaneStatus_miss = 0 := by
  rw [State.goodNumbered, fld_setFld_other _ _ _ _ (by simp only [R.dfpPlaneStatus, R.dfpPlaneFrame]; omega),
    fld_setFld_field _ _ _ _ _ (by decide) (by decide) (by decide)]
  exact fld_setFld_same _ _ _ _ (by decide) (by decide)

theorem frame_goodNumbered (s : State) (p : Nat) (h : BitVec 256) : (s.goodNumbered p h).fld (R.dfpPlaneFrame p) F.dfpPlaneFrame_frame = fhFrame h :=
  (fld_setFld_same _ _ _ _ (by decide) (by decide)).trans (Nat.mod_eq_of_lt (fhFrame_lt h))

theorem retime_dfp (s : State) (b : Bool) : (s.retime b).dfp = s.dfp := by
  have hcode : ∀ (t : State) c, (t.setCode c).dfp = t.dfp := fun t c => by unfold State.setCode; split <;> rfl
  have hswitch : ∀ (t : State) p, (t.switchTiming p).dfp = t.dfp := fun _ _ => rfl
  simp only [State.retime]
  split
  · rfl
  · split <;> simp only [setBit_dfp, apply_ite State.dfp, hcode, hswitch, ite_self]

theorem expect_goodFrame (s : State) (p : Nat) (h : BitVec 256) (x ago : Int) :
    (((s.goodFrame p h x ago).retime false).dplane p).expect = fhFrame h + 1 := by
  obtain ⟨d, hd, heq⟩ := goodFrame_eq s p h x ago
  rw [dplane_congr (retime_dfp _ _), heq, dplane_setDplane_same, hd]

end Sys2Proof.Machine
end

section
/-!
SUPPORT. A bad frame and the loss of the frame (R78, R79), and what FRAME_ALIGN leaves in each case of the table.
-/

namespace Sys2Proof.Machine

variable {s : State} {p : Plane}

/-! ## The frame is lost -/

theorem flowReg_ne_dfpPlaneDefect (p : Plane) {a : Nat} (h : FlowReg a) : a ≠ R.dfpPlaneDefect p := by
  rintro rfl
  have := p.isLt
  simp only [FlowReg, unitOf, offOf, R.dfpPlaneDefect, List.mem_cons, List.not_mem_nil, or_false] at h
  omega

/-- An aligned plane that goes to SEARCH has LOF (R79). -/
theorem lof_toSearch (p : Plane) (h : s.aligned p = true) : (s.toSearch p).bit (R.dfpPlaneDefect p) F.dfpPlaneDefect_lof = true := by
  have hflow : ∀ {a}, FlowReg a → ∀ _ : Fld, a ≠ R.dfpPlaneDefect p := fun ha _ => flowReg_ne_dfpPlaneDefect p ha
  have hlost : (s.frameLost p).bit (R.dfpPlaneDefect p) F.dfpPlaneDefect_lof = true := bit_latch_same _ _ _ rfl (by decide)
  have hflush : Changes (fun a _ => a ≠ R.dfpPlaneDefect p) (s.frameLost p)
      (if (s.frameLost p).bit R.dfpCfg F.dfpCfg_flushOnLof then (s.frameLost p).rsqFlush else s.frameLost p) :=
    .ite (fun _ => Changes.refl.rsqFlush hflow (by simp only [R.dfpDispCount, R.dfpPlaneDefect]; omega)) fun _ => .refl
  have hend := (hflush.huntRestart hflow (p := p) fun _ => ?_).retime (b := false) fun a _ ha => ?_
  · rw [toSearch_lof h]
    exact (hend.bit fun _ hg => absurd rfl hg).trans hlost
  · simp only [R.medLaneStatus, R.dfpPlaneDefect]; omega
  · rintro rfl
    exact absurd ((unitOf_planeReg p (k := 0x1008) (by decide)).symm.trans ha) (by decide)

/-- The bad frames counted stay as they are. -/
theorem framesBad_toSearch (s : State) (p : Plane) :
    (s.toSearch p).fld (R.dfpFramesBad p) F.dfpFramesBad_count = s.fld (R.dfpFramesBad p) F.dfpFramesBad_count := by
  have := p.isLt
  refine (Moves.refl.toSearch (List.Subset.refl (searchFields p))).fld ?_ ?_
  · simp only [PathReg, unitOf, offOf, R.dfpFramesBad, List.mem_cons, List.not_mem_nil, or_false]
    omega
  · simp only [searchFields, huntFields, driverFields, List.forall_mem_cons, R.dfpPlaneStatus, R.medLaneStatus, R.dfpFramesBad]
    refine ⟨?_, ?_, ?_, ?_, ?_, ?_, ?_, nofun⟩ <;> omega

/-! ## A bad frame -/

/-- With MISS below 3 the frame is counted and MISS goes up (R78). -/
theorem badFrame_missed (h : s.fld (R.dfpPlaneStatus p) F.dfpPlaneStatus_miss < 3) : ∃ d, s.badFrame p =
    ((s.count (R.dfpFramesBad p) F.dfpFramesBad_count).setFld (R.dfpPlaneStatus p) F.dfpPlaneStatus_miss
      (s.fld (R.dfpPlaneStatus p) F.dfpPlaneStatus_miss + 1)).setDplane p d := by
  have hmiss : (s.count (R.dfpFramesBad p) F.dfpFramesBad_count).fld (R.dfpPlaneStatus p) F.dfpPlaneStatus_miss =
      s.fld (R.dfpPlaneStatus p) F.dfpPlaneStatus_miss := fld_count_other _ _ _ _ (by simp only [R.dfpPlaneStatus, R.dfpFramesBad]; omega)
  rw [State.badFrame]
  dsimp only
  rw [hmiss, if_neg (by omega)]
  exact ⟨_, rfl⟩

theorem badFrame_lost (h : 3 ≤ s.fld (R.dfpPlaneStatus p) F.dfpPlaneStatus_miss) :
    s.badFrame p = (s.count (R.dfpFramesBad p) F.dfpFramesBad_count).toSearch p := by
  have hmiss : (s.count (R.dfpFramesBad p) F.dfpFramesBad_count).fld (R.dfpPlaneStatus p) F.dfpPlaneStatus_miss =
      s.fld (R.dfpPlaneStatus p) F.dfpPlaneStatus_miss := fld_count_other _ _ _ _ (by simp only [R.dfpPlaneStatus, R.dfpFramesBad]; omega)
  exact if_pos (hmiss ▸ h)

/-! ## Alignment in each state -/

theorem alignBy_search {h : BitVec 256} {x ago : Int} {next : Bool} (halign : s.fld (R.dfpPlaneStatus p) F.dfpPlaneStatus_align = 0) :
    s.alignBy p h x ago true true next =
      (s.setFld (R.dfpPlaneStatus p) F.dfpPlaneStatus_align 1).setDplane p { s.dplane p with expect := fhFrame h + 1 } := if_pos halign

theorem alignBy_confirm {h : BitVec 256} {x ago : Int} (halign : s.fld (R.dfpPlaneStatus p) F.dfpPlaneStatus_align = 1) :
    s.alignBy p h x ago true true true = ((s.enterFrame p).goodFrame p h x ago).retime false :=
  (if_neg (by omega)).trans (if_pos halign)

theorem alignBy_inFrame {h : BitVec 256} {x ago : Int} (halign : s.fld (R.dfpPlaneStatus p) F.dfpPlaneStatus_align = 2) :
    s.alignBy p h x ago true true true = (s.goodFrame p h x ago).retime false := (if_neg (by omega)).trans (if_neg (by omega))

theorem alignBy_bad {h : BitVec 256} {x ago : Int} {next : Bool} (halign : s.fld (R.dfpPlaneStatus p) F.dfpPlaneStatus_align = 2) :
    s.alignBy p h x ago false false next = s.badFrame p := (if_neg (by omega)).trans (if_neg (by omega))

theorem align_delimJudged (s : State) (p : Plane) :
    (s.delimJudged p).fld (R.dfpPlaneStatus p) F.dfpPlaneStatus_align = s.fld (R.dfpPlaneStatus p) F.dfpPlaneStatus_align :=
  (changes_delimJudged s p).planeFld (by decide)

theorem miss_delimJudged (s : State) (p : Plane) :
    (s.delimJudged p).fld (R.dfpPlaneStatus p) F.dfpPlaneStatus_miss = s.fld (R.dfpPlaneStatus p) F.dfpPlaneStatus_miss :=
  (changes_delimJudged s p).planeFld (by decide)

theorem framesBad_delimJudged (s : State) (p : Plane) :
    (s.delimJudged p).fld (R.dfpFramesBad p) F.dfpFramesBad_count = s.fld (R.dfpFramesBad p) F.dfpFramesBad_count :=
  (changes_delimJudged s p).planeFld (by decide)

/-- The fields that change before a good frame. -/
def leadFields : List (Nat × Fld) := (0x1000, F.dfpPlaneStatus_align) :: judgedFields

theorem changes_enterFrame (s : State) (p : Plane) : Changes (alignFields leadFields p) s (s.enterFrame p) := by
  have := p.isLt
  have halign := Changes.alignSet (s := s) (t := s) (l := leadFields) (p := p) .refl (0x1000, F.dfpPlaneStatus_align) (.head _) (v := 2)
  exact Changes.frame (Changes.setBit halign.frame (.inl (.inr (by simp only [unitOf, R.medLaneStatus]; omega))))

theorem align_enterFrame (s : State) (p : Plane) : (s.enterFrame p).fld (R.dfpPlaneStatus p) F.dfpPlaneStatus_align = 2 :=
  (fld_setFld_other _ _ _ _ (dfpPlaneStatus_ne_medLaneStatus p)).trans (fld_setFld_same s _ F.dfpPlaneStatus_align 2 (by decide) (by decide))

/-- The fields that change by a bad frame with MISS below 3. -/
def missedFields : List (Nat × Fld) := (0x1000, F.dfpPlaneStatus_miss) :: (0x1028, F.dfpFramesBad_count) :: judgedFields

/-! ## FRAME_ALIGN -/

section Judged

variable {off : Int} (hjudged : (s.dplane p).judged = false) (hslots : (s.dplane p).slots ≠ 0)
  (hlos : s.bit (R.medLaneStatus p) F.medLaneStatus_los = false) (hlol : s.bit (R.medLaneStatus p) F.medLaneStatus_lol = false)
  (hrate : s.fld (R.medLaneStatus p) F.medLaneStatus_rate ≠ 0)
include hjudged hslots hlos hlol hrate

section WellFormed

variable (hdelim : (s.dplane p).delimBad ≤ s.fld R.dfpCfg F.dfpCfg_delimTol) (hwf : s.wellFormedHdr p (s.dplane p).header = true)
  (hwin : (s.windowCheck p (s.dplane p).header ((s.time.frame * frameSymbols : Nat) + off)).1 = true)
include hdelim hwf hwin

/-- SEARCH to CONFIRM (R78). -/
theorem frameAlign_confirms (halign : s.fld (R.dfpPlaneStatus p) F.dfpPlaneStatus_align = 0) :
    (s.frameAlign p off).fld (R.dfpPlaneStatus p) F.dfpPlaneStatus_align = 1 ∧
      ((s.frameAlign p off).dplane p).expect = fhFrame (s.dplane p).header + 1 ∧ memKept s (s.frameAlign p off) ∧
      unitsKept s (s.frameAlign p off) [0xF0] := by
  obtain ⟨x, ago, heq⟩ := frameAlign_wellFormed hjudged hslots hlos hlol hrate hdelim hwf hwin
  have hc : Changes (planeFields leadFields p) s (s.frameAlign p off) := by
    rw [heq, alignBy_search ((align_delimJudged s p).trans halign)]
    exact (((changes_delimJudged s p).mono fun _ _ => planeFields_mono (List.subset_cons_self _ _)).setFld (a := R.dfpPlaneStatus p)
      ⟨(0x1000, F.dfpPlaneStatus_align), .head _, rfl, rfl⟩).setDplane
  refine ⟨?_, ?_, hc.memKept, unitsKept_plane hc (by decide)⟩
  all_goals rw [heq, alignBy_search ((align_delimJudged s p).trans halign)]
  · exact fld_setFld_same _ _ _ _ (by decide) (by decide)
  · rw [dplane_setDplane_same]

/-- A good frame follows the judgement, in CONFIRM behind the entry to IN_FRAME. -/
theorem frameAlign_good (halign : s.fld (R.dfpPlaneStatus p) F.dfpPlaneStatus_align = 1 ∨ s.fld (R.dfpPlaneStatus p) F.dfpPlaneStatus_align = 2)
    (hnext : fhFrame (s.dplane p).header = (s.dplane p).expect) :
    ∃ u x ago, Changes (alignFields leadFields p) s u ∧ u.fld (R.dfpPlaneStatus p) F.dfpPlaneStatus_align = 2 ∧
      s.frameAlign p off = (u.goodFrame p (s.dplane p).header x ago).retime false := by
  obtain ⟨x, ago, heq⟩ := frameAlign_wellFormed hjudged hslots hlos hlol hrate hdelim hwf hwin
  have hc : Changes (alignFields leadFields p) s (s.delimJudged p) :=
    (changes_delimJudged s p).mono fun _ _ h => .inr (planeFields_mono (List.subset_cons_self _ _) h)
  rw [hnext, beq_self_eq_true] at heq
  obtain h1 | h2 := halign
  · exact ⟨_, x, ago, hc.trans (changes_enterFrame _ p), align_enterFrame _ p, heq.trans (alignBy_confirm ((align_delimJudged s p).trans h1))⟩
  · exact ⟨_, x, ago, hc, (align_delimJudged s p).trans h2, heq.trans (alignBy_inFrame ((align_delimJudged s p).trans h2))⟩

/-- The frame expected, in CONFIRM and in IN_FRAME (R78, R82). -/
theorem frameAlign_inFrame (halign : s.fld (R.dfpPlaneStatus p) F.dfpPlaneStatus_align = 1 ∨ s.fld (R.dfpPlaneStatus p) F.dfpPlaneStatus_align = 2)
    (hnext : fhFrame (s.dplane p).header = (s.dplane p).expect) :
    (s.frameAlign p off).fld (R.dfpPlaneStatus p) F.dfpPlaneStatus_align = 2 ∧
      (s.frameAlign p off).fld (R.dfpPlaneStatus p) F.dfpPlaneStatus_miss = 0 ∧
      (s.frameAlign p off).fld (R.dfpPlaneFrame p) F.dfpPlaneFrame_frame = fhFrame (s.dplane p).header ∧
      counted s (s.frameAlign p off) (R.dfpFramesGood p) F.dfpFramesGood_count ∧
      ((s.frameAlign p off).dplane p).expect = fhFrame (s.dplane p).header + 1 ∧ memKept s (s.frameAlign p off) := by
  obtain ⟨u, x, ago, hu, hin, heq⟩ := frameAlign_good hjudged hslots hlos hlol hrate hdelim hwf hwin halign hnext
  rw [heq]
  have hcounted := changes_goodFrame_counted u p (s.dplane p).header x ago
  have hnumbered := changes_goodFrame_numbered u p (s.dplane p).header x ago
  have hcount : (u.count (R.dfpFramesGood p) F.dfpFramesGood_count).fld (R.dfpPlaneStatus p) F.dfpPlaneStatus_align =
      u.fld (R.dfpPlaneStatus p) F.dfpPlaneStatus_align := fld_count_other _ _ _ _ (by simp only [R.dfpPlaneStatus, R.dfpFramesGood]; omega)
  refine ⟨?_, ?_, ?_, ?_, expect_goodFrame _ _ _ _ _, memKept_of_eq (hcounted.1.trans hu.1)⟩
  · exact ((hcounted.alignFld (k := 0x1000) (by decide) (by decide)).trans hcount).trans hin
  · exact (hnumbered.alignFld (k := 0x1000) (by decide) (by decide)).trans (miss_goodNumbered _ _ _)
  · exact (hnumbered.alignFld (k := 0x1010) (by decide) (by decide)).trans (frame_goodNumbered _ _ _)
  · exact counted_count (hu.alignFld (k := 0x1020) (by decide) (by decide)) (hcounted.alignFld (k := 0x1020) (by decide) (by decide))
      (by decide) (by decide)

end WellFormed

section Failing

variable (halign : s.fld (R.dfpPlaneStatus p) F.dfpPlaneStatus_align = 2) (hdelim : s.fld R.dfpCfg F.dfpCfg_delimTol < (s.dplane p).delimBad)
include halign hdelim

theorem frameAlign_bad : s.frameAlign p off = (s.delimJudged p).badFrame p := by
  obtain ⟨x, ago, heq⟩ := frameAlign_failing (off := off) hjudged hslots hlos hlol hrate hdelim
  exact heq.trans (alignBy_bad ((align_delimJudged s p).trans halign))

/-- A bad frame with MISS below 3 (R78). -/
theorem frameAlign_missed (hmiss : s.fld (R.dfpPlaneStatus p) F.dfpPlaneStatus_miss < 3) :
    (s.frameAlign p off).fld (R.dfpPlaneStatus p) F.dfpPlaneStatus_align = 2 ∧
      (s.frameAlign p off).fld (R.dfpPlaneStatus p) F.dfpPlaneStatus_miss = s.fld (R.dfpPlaneStatus p) F.dfpPlaneStatus_miss + 1 ∧
      counted s (s.frameAlign p off) (R.dfpFramesBad p) F.dfpFramesBad_count ∧ memKept s (s.frameAlign p off) ∧
      unitsKept s (s.frameAlign p off) [0xF0] := by
  obtain ⟨d, heq⟩ := badFrame_missed ((miss_delimJudged s p).trans_lt hmiss)
  rw [miss_delimJudged] at heq
  rw [frameAlign_bad hjudged hslots hlos hlol hrate halign hdelim, heq]
  have hjudge : Changes (planeFields missedFields p) s (s.delimJudged p) := (changes_delimJudged s p).mono fun _ _ => planeFields_mono (by decide)
  have hcount := hjudge.count (a := R.dfpFramesBad p) (n := 1) ⟨_, .tail _ (.head _), rfl, rfl⟩
  have hc := (hcount.setFld (a := R.dfpPlaneStatus p) (v := s.fld (R.dfpPlaneStatus p) F.dfpPlaneStatus_miss + 1)
    ⟨_, .head _, rfl, rfl⟩).setDplane (p := p) (d := d)
  refine ⟨(hc.planeFld (k := 0x1000) (by decide)).trans halign, ?_, ?_, hc.memKept, unitsKept_plane hc (by decide)⟩
  · exact (fld_setFld_same _ _ F.dfpPlaneStatus_miss _ (by decide) (by decide)).trans (Nat.mod_eq_of_lt (show _ + 1 < 2 ^ 3 by omega))
  · exact counted_count (framesBad_delimJudged s p) (fld_setFld_other _ _ _ _ (by simp only [R.dfpPlaneStatus, R.dfpFramesBad]; omega))
      (by decide) (by decide)

/-- A bad frame with MISS at 3: alignment and the frame are lost (R78, R79). -/
theorem frameAlign_lost (hmiss : 3 ≤ s.fld (R.dfpPlaneStatus p) F.dfpPlaneStatus_miss) :
    (s.frameAlign p off).fld (R.dfpPlaneStatus p) F.dfpPlaneStatus_align = 0 ∧
      (s.frameAlign p off).bit (R.dfpPlaneDefect p) F.dfpPlaneDefect_lof = true ∧
      counted s (s.frameAlign p off) (R.dfpFramesBad p) F.dfpFramesBad_count := by
  rw [frameAlign_bad hjudged hslots hlos hlol hrate halign hdelim, badFrame_lost (hmiss.trans_eq (miss_delimJudged s p).symm)]
  refine ⟨align_toSearch _ p, lof_toSearch p ?_, counted_count (framesBad_delimJudged s p) (framesBad_toSearch _ p) (by decide) (by decide)⟩
  rw [State.aligned, fld_count_other _ _ _ _ (by simp only [R.dfpPlaneStatus, R.dfpFramesBad]; omega), align_delimJudged, halign]
  rfl

end Failing
end Judged

end Sys2Proof.Machine
end

section
/-!
SUPPORT. O12, from the slots, the alignment and the grant areas above.
-/

namespace Sys2Proof.Machine

variable {s : State} {p : Plane}

theorem exec_frameAlign {off : Int} (hdfp : s.restarting Src.dfp = false) (hmed : s.restarting (Src.med (p / 4)) = false) :
    exec (.frameAlign p off) s = .next (s.frameAlign p off) := by
  have hexec : exec (.frameAlign p off) s = .next (s.whenUp Src.dfp (·.whenUp (Src.med (p / 4)) (·.frameAlign p off))) := rfl
  rw [hexec, whenUp_up hdfp, whenUp_up hmed]

/-- Settles O12: codeword slots, alignment in each state of the table, and grant areas. -/
theorem framesAlignAndGrantsReachBothCopies : Obligations.FramesAlignAndGrantsReachBothCopies := by
  rintro s p slot x levels off _ hdfp hmed rfl
  refine ⟨fun hrate horder htakes hlevels => codewordRx_counted levels hdfp hmed hrate horder htakes hlevels,
    fun hjudged hslots hlos hlol hrate => ⟨fun hdelim hwf hwin => ⟨fun halign => ?confirms, fun halign hnext => ?inFrame⟩,
      fun halign hdelim => ⟨fun hmiss => ?missed, fun hmiss => ?lost⟩⟩,
    fun n hdone htaking hn hhas => ⟨fun hfails => grantArea_discarded hdone htaking hn hhas hfails,
      fun hbad hcrc => ⟨grantArea_taken hdone htaking hn hhas hbad hcrc,
        fun e hone hlp htid hok => grantArea_accepts hdone htaking hn hhas hbad hcrc hone hlp htid hok⟩⟩⟩
  all_goals refine ⟨_, exec_frameAlign hdfp hmed, ?_⟩
  case confirms => exact frameAlign_confirms hjudged hslots hlos hlol hrate hdelim hwf hwin halign
  case inFrame => exact frameAlign_inFrame hjudged hslots hlos hlol hrate hdelim hwf hwin halign hnext
  case missed => exact frameAlign_missed hjudged hslots hlos hlol hrate halign hdelim hmiss
  case lost => exact frameAlign_lost hjudged hslots hlos hlol hrate halign hdelim hmiss

end Sys2Proof.Machine
end

section
/-!
SUPPORT. The ward code's check value (R144) and the writes and probes of the flow table (R147, R148); O17 is settled here.
-/

namespace Sys2Proof.Machine

variable (s : State) (v : Word)

/-! ## The check value -/

theorem crcStep_lt {w poly reg : Nat} {b : Bool} (hpoly : poly < 2 ^ w) : crcStep w poly reg b < 2 ^ w := by
  have hshift : reg * 2 % 2 ^ w < 2 ^ w := Nat.mod_lt _ (by positivity)
  simp only [crcStep]
  split
  · exact Nat.xor_lt_two_pow hshift hpoly
  · exact hshift

/-- A CRC register keeps to its width. -/
theorem crcRun_lt {w poly preset : Nat} (l : List Bool) (hpoly : poly < 2 ^ w) (hpreset : preset < 2 ^ w) : crcRun w poly preset l < 2 ^ w :=
  List.foldlRecOn (motive := (· < 2 ^ w)) l _ hpreset fun _ _ _ _ => crcStep_lt hpoly

theorem exec_wardCodeWrite : exec (.wardCodeWrite v) s = .next (s.writeCode v) := rfl

theorem wardCodeWrite_checked :
    ∃ t : State, exec (.wardCodeWrite v) s = .next t ∧ t.reg R.wardCode = v ∧
      t.fld R.wardCodeCheck F.wardCodeCheck_check = crcRun 32 0x04C11DB7 0 (bitsMsb 64 v.toNat) ∧ memKept s t ∧
      regsKept s t [R.wardCode, R.wardCodeCheck] := by
  have hc : Changes (fun a _ => a ∈ [R.wardCode, R.wardCodeCheck]) s (s.writeCode v) := (Changes.refl.setReg (.head _)).setFld (.tail _ (.head _))
  refine ⟨_, exec_wardCodeWrite s v, ?_, ?_, hc.memKept, hc.regsKept⟩
  · rw [State.writeCode, reg_setFld_other _ _ _ (by decide), reg_setReg_same]
  · exact (fld_setFld_same _ _ F.wardCodeCheck_check _ (by decide) (by decide)).trans
      (Nat.mod_eq_of_lt (crcRun_lt _ (by decide) (by decide)))

/-! ## A table of the UBB and its marks -/

@[simp] theorem flow_setFlow_same (f : Nat) (e : BitVec 40) : (s.setFlow f e).flow f = e := by simp [State.flow]

theorem flow_setFlow_other {f g : Nat} (e : BitVec 40) (h : g ≠ f) : (s.setFlow f e).flow g = s.flow g := by simp [State.flow, h]

theorem flow_congr {s t : State} (h : t.ubb.flows = s.ubb.flows) (f : Nat) : t.flow f = s.flow f := by rw [State.flow, State.flow, h]

theorem unmark_flows (f : Nat) : (s.unmark f).ubb.flows = s.ubb.flows := by
  unfold State.unmark
  split <;> rfl

theorem unmark_regs (f : Nat) : (s.unmark f).regs = s.regs := by
  unfold State.unmark
  split <;> rfl

theorem unmark_mem (f : Nat) : (s.unmark f).mem = s.mem := by
  unfold State.unmark
  split <;> rfl

theorem flowMarked_unmark (f : Nat) : (s.unmark f).flowMarked f = false := by
  unfold State.unmark
  split
  · simp [State.flowMarked]
  next h => exact Bool.eq_false_iff.2 h

theorem flowMarked_congr {s t : State} (h : t.ubb = s.ubb) (f : Nat) : t.flowMarked f = s.flowMarked f := by
  rw [State.flowMarked, State.flowMarked, h]

/-- The mirror lies outside the UBB. -/
theorem mirrorSeq_ubb (f n : Nat) : (s.mirrorSeq f n).ubb = s.ubb := by
  have hbulk : ∀ t : State, t.startBulk.ubb = t.ubb := fun _ => rfl
  simp only [State.mirrorSeq, apply_ite State.ubb, hbulk, latch_ubb, ite_self]

theorem mirrorSeq_mem (f n : Nat) : (s.mirrorSeq f n).mem = s.mem := by
  have hbulk : ∀ t : State, t.startBulk.mem = t.mem := fun _ => rfl
  simp only [State.mirrorSeq, apply_ite State.mem, hbulk, latch_mem, ite_self]

/-! ## FLOW_WRITE -/

/-- What FLOW_WRITE shows of the word written (R7). -/
def flowWriteShown (v : Word) : Word := v &&& 0x0FFFFFFFFFF1FFFF

/-- The entry that a flow write gives. -/
def flowGiven (v : Word) : BitVec 40 := BitVec.ofNat 40 (v.toNat &&& 0xFFFFF0FFFF)

theorem exec_flowWrite : exec (.flowWrite v) s = .next (s.flowWrite v) := rfl

theorem changes_flowWriteShown : Changes (fun a _ => a ∈ [R.ubbFlowWrite]) s (s.setReg R.ubbFlowWrite (flowWriteShown v)) :=
  Changes.refl.setReg (.head _)

theorem flowReady_shown (w : Word) : (s.setReg R.ubbFlowWrite w).bit R.ubbStatus F.ubbStatus_flowReady = s.bit R.ubbStatus F.ubbStatus_flowReady :=
  bit_setReg_other _ _ _ (by decide)

variable {s} in
/-- Before FLOW_READY a flow write is lost. -/
theorem flowWrite_lost (h : s.bit R.ubbStatus F.ubbStatus_flowReady = false) :
    ∃ t : State, exec (.flowWrite v) s = .next t ∧ t.bit R.ubbStatus F.ubbStatus_flowLost = true ∧ t.ubb = s.ubb ∧ memKept s t ∧
      regsKept s t [R.ubbFlowWrite, R.ubbStatus] := by
  have hlost : s.flowWrite v = (s.setReg R.ubbFlowWrite (flowWriteShown v)).latch R.ubbStatus F.ubbStatus_flowLost :=
    if_pos (by rw [flowReady_shown, h]; rfl)
  have hc : Changes (fun a _ => a ∈ [R.ubbFlowWrite, R.ubbStatus]) s (s.flowWrite v) :=
    hlost ▸ (Changes.refl.setReg (.head _)).latch (.tail _ (.head _))
  refine ⟨_, exec_flowWrite s v, ?_, ?_, hc.memKept, hc.regsKept⟩
  · rw [hlost]
    exact bit_latch_same _ _ _ rfl (by decide)
  · rw [hlost, latch_ubb, setReg_ubb]

variable {s v} in
theorem flowWrite_ready (h : s.bit R.ubbStatus F.ubbStatus_flowReady = true) : s.flowWrite v =
    if bitOf v.toNat 16 then (s.setReg R.ubbFlowWrite (flowWriteShown v)).setFlow (bitsOf v.toNat 59 40)
      (flowWithSeq (flowGiven v) (flowSeq (s.flow (bitsOf v.toNat 59 40))))
    else if flowMirrored (flowGiven v) then
      (((s.setReg R.ubbFlowWrite (flowWriteShown v)).setFlow (bitsOf v.toNat 59 40) (flowGiven v)).unmark (bitsOf v.toNat 59 40)).mirrorSeq
        (bitsOf v.toNat 59 40) (flowSeq (flowGiven v))
    else ((s.setReg R.ubbFlowWrite (flowWriteShown v)).setFlow (bitsOf v.toNat 59 40) (flowGiven v)).unmark (bitsOf v.toNat 59 40) :=
  if_neg (by rw [flowReady_shown, h]; decide)

theorem flowGiven_toNat : (flowGiven v).toNat = v.toNat &&& 0xFFFFF0FFFF :=
  (BitVec.toNat_ofNat _ _).trans (Nat.mod_eq_of_lt (Nat.and_le_right.trans_lt (by decide)))

/-- The low bits cleared of a masked number are cleared of the mask. -/
theorem and_clearLow (n m k : Nat) : (n &&& m) / 2 ^ k * 2 ^ k = n &&& m / 2 ^ k * 2 ^ k := by
  refine Nat.eq_of_testBit_eq fun i => ?_
  simp only [Nat.testBit_mul_two_pow, Nat.testBit_div_two_pow, Nat.testBit_and]
  by_cases hi : k ≤ i
  · simp [hi]
  · simp [hi]

/-- An entry with another NEXT_SEQ keeps its other bits. -/
theorem flowWithSeq_toNat (e : BitVec 40) {n : Nat} (hn : n < 2 ^ 16) : (flowWithSeq e n).toNat = e.toNat / 2 ^ 16 * 2 ^ 16 + n := by
  have he := e.isLt
  have hset : setBitsOf e.toNat 15 0 n = e.toNat / 2 ^ 16 * 2 ^ 16 + n := by
    rw [setBitsOf_split _ _ _ _ (by decide), Nat.mod_eq_of_lt hn, Nat.pow_zero, Nat.mod_one, Nat.mul_one, Nat.add_zero]
  rw [flowWithSeq, hset, BitVec.toNat_ofNat]
  omega

theorem flowKept_toNat {n : Nat} (hn : n < 2 ^ 16) : (flowWithSeq (flowGiven v) n).toNat = (v.toNat &&& 0xFFFFF00000) + n := by
  have hmask : 0xFFFFF0FFFF / 2 ^ 16 * 2 ^ 16 = 0xFFFFF00000 := by norm_num
  rw [flowWithSeq_toNat _ hn, flowGiven_toNat, and_clearLow, hmask]

/-- LEAD_ONLY and SEQ_SRC of the entry are those of the word written. -/
theorem flowMirrored_flowGiven : flowMirrored (flowGiven v) = (bitOf v.toNat 36 && !bitOf v.toNat 37) := by
  have h36 : (0xFFFFF0FFFF : Nat).testBit 36 = true := by decide
  have h37 : (0xFFFFF0FFFF : Nat).testBit 37 = true := by decide
  simp only [flowMirrored, flowLeadOnly, flowTag, flowGiven_toNat, bitOf_eq_testBit, Nat.testBit_and, h36, h37, Bool.and_true]

variable {s v} in
/-- With KEEP_SEQ every field but NEXT_SEQ is replaced. -/
theorem flowWrite_keeps (h : s.bit R.ubbStatus F.ubbStatus_flowReady = true) (hkeep : bitOf v.toNat 16 = true) :
    ∃ t : State, exec (.flowWrite v) s = .next t ∧
      (t.flow (bitsOf v.toNat 59 40)).toNat = (v.toNat &&& 0xFFFFF00000) + flowSeq (s.flow (bitsOf v.toNat 59 40)) ∧
      (∀ f, f ≠ bitsOf v.toNat 59 40 → t.flow f = s.flow f) ∧ t.ubb.unmarked = s.ubb.unmarked ∧ memKept s t ∧
      regsKept s t [R.ubbFlowWrite] := by
  have hc := changes_flowWriteShown s v
  rw [exec_flowWrite, flowWrite_ready h, if_pos hkeep]
  refine ⟨_, rfl, ?_, fun f hf => flow_setFlow_other _ _ hf, rfl, hc.frame.memKept, hc.frame.regsKept⟩
  rw [flow_setFlow_same]
  exact flowKept_toNat v (bitsOf_lt _ 15 0)

variable {s v} in
/-- Without KEEP_SEQ the entry is replaced whole, its mark is cleared, and a mirrored flow is sent to the twin. -/
theorem flowWrite_replaces (h : s.bit R.ubbStatus F.ubbStatus_flowReady = true) (hkeep : bitOf v.toNat 16 = false) :
    ∃ t : State, exec (.flowWrite v) s = .next t ∧ (t.flow (bitsOf v.toNat 59 40)).toNat = v.toNat &&& 0xFFFFF0FFFF ∧
      (∀ f, f ≠ bitsOf v.toNat 59 40 → t.flow f = s.flow f) ∧ t.flowMarked (bitsOf v.toNat 59 40) = false ∧ memKept s t ∧
      ((bitOf v.toNat 36 = false ∨ bitOf v.toNat 37 = true) → regsKept s t [R.ubbFlowWrite]) := by
  generalize hu : ((s.setReg R.ubbFlowWrite (flowWriteShown v)).setFlow (bitsOf v.toNat 59 40) (flowGiven v)).unmark
    (bitsOf v.toNat 59 40) = u
  have hflows : u.ubb.flows = ((s.setReg R.ubbFlowWrite (flowWriteShown v)).setFlow (bitsOf v.toNat 59 40) (flowGiven v)).ubb.flows := by
    rw [← hu, unmark_flows]
  have hmem : u.mem = s.mem := by rw [← hu, unmark_mem, setFlow_mem, setReg_mem]
  have hregs : regsKept s u [R.ubbFlowWrite] := fun a ha => by
    rw [← hu, reg_of_regs (unmark_regs _ _), reg_setFlow, (changes_flowWriteShown s v).regsKept a ha]
  rw [exec_flowWrite, flowWrite_ready h, if_neg (by rw [hkeep]; decide), hu]
  have hwhole : ∀ t : State, t.ubb = u.ubb → t.mem = u.mem → (t.flow (bitsOf v.toNat 59 40)).toNat = v.toNat &&& 0xFFFFF0FFFF ∧
      (∀ f, f ≠ bitsOf v.toNat 59 40 → t.flow f = s.flow f) ∧ t.flowMarked (bitsOf v.toNat 59 40) = false ∧ memKept s t := by
    refine fun t hubb ht => ⟨?_, fun f hf => ?_, ?_, memKept_of_eq (ht.trans hmem)⟩
    · rw [flow_congr ((congrArg UbbState.flows hubb).trans hflows), flow_setFlow_same, flowGiven_toNat]
    · rw [flow_congr ((congrArg UbbState.flows hubb).trans hflows), flow_setFlow_other _ _ hf]
      rfl
    · rw [flowMarked_congr hubb, ← hu, flowMarked_unmark]
  split
  case isTrue hmirror =>
    obtain ⟨hflow, hothers, hmarked, hmem'⟩ := hwhole _ (mirrorSeq_ubb u _ _) (mirrorSeq_mem u _ _)
    refine ⟨_, rfl, hflow, hothers, hmarked, hmem', fun hown => ?_⟩
    rw [flowMirrored_flowGiven] at hmirror
    rcases hown with h36 | h37
    · simp [h36] at hmirror
    · simp [h37] at hmirror
  case isFalse =>
    obtain ⟨hflow, hothers, hmarked, hmem'⟩ := hwhole u rfl rfl
    exact ⟨_, rfl, hflow, hothers, hmarked, hmem', fun _ => hregs⟩

/-! ## FLOW_PROBE -/

theorem exec_flowProbe : exec (.flowProbe v) s = .next (s.flowProbe v) := rfl

/-- INDEX and the entry of FLOW_PROBE do not overlap. -/
theorem bitsOf_flowProbe {i e : Nat} (hi : i < 2 ^ 20) (he : e < 2 ^ 40) :
    bitsOf (BitVec.ofNat 64 (i * 2 ^ 40 + e)).toNat 59 40 = i ∧ bitsOf (BitVec.ofNat 64 (i * 2 ^ 40 + e)).toNat 39 0 = e := by
  rw [BitVec.toNat_ofNat]
  simp only [bitsOf]
  omega

theorem flowProbe_shows :
    ∃ t : State, exec (.flowProbe v) s = .next t ∧ t.fld R.ubbFlowProbe F.ubbFlowProbe_index = bitsOf v.toNat 59 40 ∧
      t.fld R.ubbFlowProbe ⟨39, 0⟩ = (s.flow (bitsOf v.toNat 59 40)).toNat ∧ t.ubb = s.ubb ∧ memKept s t ∧
      regsKept s t [R.ubbFlowProbe] := by
  have hc : Changes (fun a _ => a ∈ [R.ubbFlowProbe]) s (s.flowProbe v) := Changes.refl.setReg (.head _)
  obtain ⟨hindex, hentry⟩ := bitsOf_flowProbe (bitsOf_lt v.toNat 59 40) (s.flow (bitsOf v.toNat 59 40)).isLt
  refine ⟨_, exec_flowProbe s v, ?_, ?_, rfl, hc.memKept, hc.regsKept⟩ <;> rw [State.fld, State.flowProbe, reg_setReg_same]
  · exact hindex
  · exact hentry

/-- Settles O17: the ward code, and the writes and the probe of the flow table, each as stated above. -/
theorem flowEntriesReplacedWhole : Obligations.FlowEntriesReplacedWhole := fun s v =>
  ⟨wardCodeWrite_checked s v, flowWrite_lost v, flowWrite_keeps, flowWrite_replaces, flowProbe_shows s v⟩

end Sys2Proof.Machine
end

section
/-!
SUPPORT. What the content of bursts changes as it is selected, sent or lost (R128 to R139): `Carries s t` says that the registers of
`ContentReg` alone differ, that lanes, parcels received and the planes of the UBB stay, and that the bursts under build stand on the same
grants. One lemma for each operation on the way, in the model's order.
-/

namespace Sys2Proof.Machine

/-! ## The registers -/

/-- The registers of `FlowReg`; of UBB the dispositions of packets and the counter block alone. -/
def ContentReg (a : Nat) : Prop :=
  FlowReg a ∧ (a < 0xF100000000 ∨ (0xF100000100 ≤ a ∧ a < 0xF100000180) ∨ (0xF000 ≤ offOf a ∧ offOf a < 0xF058))

theorem contentReg_of_flow {a : Nat} (h : FlowReg a) (ha : a < 0xF100000000) : ContentReg a := ⟨h, .inl ha⟩

theorem contentReg_pmcCnt (v : Nat) {i : Nat} (h : i < 8) : ContentReg (R.pmcCnt v i) :=
  ⟨flowReg_pmcCnt v h, .inr (.inr (by simp only [offOf, R.pmcCnt]; omega))⟩

theorem contentReg_pmcCtl (v : Nat) : ContentReg (R.pmcCtl v) := ⟨flowReg_pmcCtl v, .inr (.inr (by simp only [offOf, R.pmcCtl]; omega))⟩

theorem contentReg_ubbPdispCount {i : Nat} (h : i < 16) : ContentReg (R.ubbPdispCount i) :=
  ⟨flowReg_ubb (by simp only [R.ubbPdispCount]; omega), .inr (.inl (by simp only [R.ubbPdispCount]; omega))⟩

theorem contentReg_circCount {i : Nat} (h : i < 16) : ContentReg (R.circCount i) :=
  contentReg_of_flow (flowReg_circCount h) (by simp only [R.circCount]; omega)

theorem contentReg_dmaChRingIdx {i : Nat} (h : i < 512) : ContentReg (R.dmaChRingIdx i) :=
  contentReg_of_flow (flowReg_dmaChRingIdx h) (by simp only [R.dmaChRingIdx]; omega)

/-! ## What changes them alone -/

/-- `t` has the memory, the lanes, the parcels received and the UBB's planes of `s`, its registers outside `ContentReg`, and bursts under
build on the same grants. -/
structure Carries (s t : State) : Prop where
  changes : Changes (fun a _ => ContentReg a) s t
  med : t.med = s.med
  dfp : t.dfp = s.dfp
  planes : t.ubb.planes = s.ubb.planes
  grants : t.ubb.builds.map (·.grants) = s.ubb.builds.map (·.grants)

namespace Carries

variable {s t u : State}

@[refl] theorem refl : Carries s s := ⟨.refl, rfl, rfl, rfl, rfl⟩

theorem reg (h : Carries s t) {a : Nat} (ha : ¬ContentReg a) : t.reg a = s.reg a := h.changes.reg fun _ => ha

theorem fld (h : Carries s t) {a : Nat} (f : Fld) (ha : ¬ContentReg a) : t.fld a f = s.fld a f := by rw [State.fld, State.fld, h.reg ha]

theorem bit (h : Carries s t) {a : Nat} (f : Fld) (ha : ¬ContentReg a) : t.bit a f = s.bit a f := by rw [State.bit, State.bit, h.fld f ha]

theorem uplane (h : Carries s t) (p : Nat) : t.uplane p = s.uplane p := by rw [State.uplane, State.uplane, h.planes]

/-! ### Rules -/

/-- A component of the state other than the registers, the memory, the lanes, the DFP and the UBB is replaced. -/
theorem frame {p f e w wd en ti cl qm ci cr cp fl ls ho tw pr pw mo ta} (h : Carries s t) :
    Carries s ⟨p, t.regs, t.mem, f, e, w, t.med, t.dfp, t.ubb, wd, en, ti, cl, qm, ci, cr, cp, fl, ls, ho, tw, pr, pw, mo, ta⟩ :=
  ⟨h.changes.frame, h.med, h.dfp, h.planes, h.grants⟩

/-- The UBB is replaced by one with the same planes and with bursts on the same grants. -/
theorem setUbb (h : Carries s t) {b : UbbState} (hp : b.planes = t.ubb.planes) (hg : b.builds.map (·.grants) = t.ubb.builds.map (·.grants)) :
    Carries s { t with ubb := b } := ⟨h.changes.frame, h.med, h.dfp, hp.trans h.planes, hg.trans h.grants⟩

theorem setFld (h : Carries s t) {a : Nat} {f : Fld} {v : Nat} (ha : ContentReg a) : Carries s (t.setFld a f v) :=
  ⟨h.changes.setFld ha, h.med, h.dfp, h.planes, h.grants⟩

theorem count (h : Carries s t) {a : Nat} {f : Fld} {n : Nat} (ha : ContentReg a) : Carries s (t.count a f n) := h.setFld ha

theorem ite {c : Prop} [Decidable c] (h : c → Carries s t) (h' : ¬c → Carries s u) : Carries s (if c then t else u) := by
  split
  · exact h ‹_›
  · exact h' ‹_›

theorem foldl {α} {f : State → α → State} {l : List α} (h : Carries s t) (hf : ∀ t x, Carries s t → Carries s (f t x)) :
    Carries s (l.foldl f t) := List.foldlRecOn (motive := Carries s) l f h fun t ht x _ => hf t x ht

theorem latch (h : Carries s t) {a : Nat} {f : Fld} (ha : ContentReg a) : Carries s (t.latch a f) :=
  .ite (fun _ => h) fun _ => (h.setFld ha).frame

theorem pmcEvent (h : Carries s t) {v code n : Nat} : Carries s (t.pmcEvent v code n) :=
  ⟨h.changes.pmcEvent (fun _ hi => contentReg_pmcCnt v hi) fun _ _ => contentReg_pmcCtl v, (pmcEvent_med ..).trans h.med,
    (pmcEvent_dfp ..).trans h.dfp, (congrArg UbbState.planes (pmcEvent_ubb ..)).trans h.planes,
    (congrArg (fun b : UbbState => b.builds.map (·.grants)) (pmcEvent_ubb ..)).trans h.grants⟩

/-! ### Requests, records and tokens -/

theorem takeResult (h : Carries s t) {n : Nat} : Carries s (t.takeResult n).2 := by
  unfold State.takeResult
  split
  · exact h
  · exact h.frame

theorem dropReq (h : Carries s t) {n : Nat} : Carries s (t.dropReq n) := h.frame

theorem tokenOrDrop (h : Carries s t) {node : Nat} {v : Word} : Carries s (t.tokenOrDrop node v) := by
  have htoken : Carries s (t.token node v).1 := by
    simp only [State.token, apply_ite Prod.fst]
    exact .ite (fun _ => h) fun _ => .ite (fun _ => h) fun _ => .ite (fun _ => h.frame) fun _ => h.frame
  exact .ite (fun _ => htoken) fun _ => h.count (contentReg_of_flow (flowReg_of_counter (by decide) (by decide)) (by decide))

theorem writeRecord (h : Carries s t) {c : Nat} {r : DmaRecord} (hc : c < 512) : Carries s (t.writeRecord c r) :=
  have hidx := (h.frame : Carries s (t.hostOut _)).setFld (contentReg_dmaChRingIdx hc)
  .ite (fun _ => hidx.frame) fun _ => hidx

theorem flushRecords (h : Carries s t) {c fuel : Nat} (hc : c < 512) : Carries s (t.flushRecords c fuel) := by
  induction fuel generalizing t with
  | zero => exact h
  | succ fuel ih =>
    unfold State.flushRecords
    split
    · exact h
    · exact .ite (fun _ => h) fun _ => ih (h.writeRecord hc).frame

theorem departure (h : Carries s t) {p : Pkt} {status : Nat} {stamp : Word} : Carries s (t.departure p status stamp) := by
  refine .ite (fun _ => h) fun hret => .ite (fun hring => .ite (fun _ => h) fun _ => ?_) fun _ =>
    .ite (fun _ => h.tokenOrDrop) fun _ => h
  exact (h.frame : Carries s (t.setChan _ _)).flushRecords (by omega)

theorem report (h : Carries s t) {l : Lost} : Carries s (t.report l) := by
  have hstatus : ContentReg R.fltStatus := contentReg_of_flow (flowReg_of_unit (by decide)) (by decide)
  exact .ite (fun _ => h) fun _ => .ite (fun _ => latch h.frame hstatus) fun _ => setFld h.frame hstatus

/-! ### Packets leave their queues -/

theorem removePkt (h : Carries s t) {q id : Nat} : Carries s (t.removePkt q id) := by
  unfold State.removePkt
  split
  · exact h
  next p _ =>
    have hcells : Carries s (t.releaseCells q p) := by
      have hslow : Carries s (if t.isSlow q then t.setSlowUsed p.pkt.dir (t.slowUsed p.pkt.dir - cellsOf p.pkt.bytes.length) else t) :=
        .ite (fun _ => h.frame) fun _ => h
      unfold State.releaseCells
      cases p.medium <;> exact hslow.frame
    have hreads : ∀ {v : State}, Carries s v → Carries s (v.refreshReads q) := fun h => .ite (fun _ => h) fun _ => h.frame
    exact (hreads hcells.frame).pmcEvent

theorem settle (h : Carries s t) {q : Nat} : Carries s (t.settle q) :=
  have hq : Carries s (if (t.queue q).joined.isEmpty then t.setNode q { t.node q with deficit := 0 } else t) :=
    .ite (fun _ => h.frame) fun _ => h
  .ite (fun _ => hq.frame) fun _ => hq

theorem pdisp (h : Carries s t) {code n : Nat} (hc : code < 16) : Carries s (t.pdisp code n) :=
  have hcount := h.count (contentReg_ubbPdispCount hc)
  .ite (fun _ => hcount.pmcEvent) fun _ => hcount

theorem unlinkPkt (h : Carries s t) {id : Nat} : Carries s (t.unlinkPkt id) := h.setUbb rfl (by simp only [List.map_map]; rfl)

theorem offerDrop (h : Carries s t) {q code : Nat} {p : Pkt} (hc : code < 16) : Carries s (t.offerDrop q p code) :=
  (pdisp (h.removePkt.settle.unlinkPkt) hc).departure

theorem dropNotLead (h : Carries s t) {fuel : Nat} : Carries s (t.dropNotLead fuel) := by
  induction fuel generalizing t with
  | zero => exact h
  | succ fuel ih =>
    refine .ite (fun _ => h) fun _ => ?_
    split
    · exact h
    · split
      · exact h
      · exact ih (h.offerDrop (by split <;> decide))

theorem presentNotLead (h : Carries s t) : Carries s t.presentNotLead := .ite (fun _ => h) fun _ => h.dropNotLead

/-! ### Content that is lost -/

theorem loseRest (h : Carries s t) {p : Pkt} : Carries s (t.loseRest p) :=
  setUbb (h.removePkt.settle.foldl fun _ _ h => h.dropReq) rfl (by simp only [List.map_map]; rfl)

theorem losePkt (h : Carries s t) {p : Pkt} {code : Nat} (hc : code < 16) : Carries s (t.losePkt p code) :=
  have hp := (h.loseRest.pdisp hc).departure
  .ite (fun _ => hp.report) fun _ => hp

theorem circCount (h : Carries s t) {c n : Nat} (hc : c < 16) : Carries s (t.circCount c n) :=
  have hcount := h.count (contentReg_circCount hc)
  .ite (fun _ => hcount.pmcEvent) fun _ => .ite (fun _ => hcount.pmcEvent) fun _ => .ite (fun _ => hcount.pmcEvent) fun _ => hcount

end Carries

/-- What a parcel of a burst carries ends: its packet, its container, its message, each with a code of its own. -/
def State.losePiece (s : State) (x : Piece) (pkt cont msg : Nat) : State :=
  let s := match x.pkt with | some p => s.losePkt p pkt | none => s
  let s := match x.cont with | some _ => s.circCount cont | none => s
  match x.msg with | some _ => s.pdisp msg | none => s

theorem loseContent_eq (s : State) (b : Build) (code : Nat) :
    s.loseContent b code = b.pieces.foldl (fun s x => s.losePiece x code (if code = 15 then 12 else 1) code) s := rfl

namespace Carries

variable {s t : State}

theorem losePiece (h : Carries s t) {x : Piece} {pkt cont msg : Nat} (hpkt : pkt < 16) (hcont : cont < 16) (hmsg : msg < 16) :
    Carries s (t.losePiece x pkt cont msg) := by
  have hp : Carries s (match x.pkt with | some p => t.losePkt p pkt | none => t) := by
    split
    · exact h.losePkt hpkt
    · exact h
  unfold State.losePiece
  dsimp only
  split <;> split
  · exact (hp.circCount hcont).pdisp hmsg
  · exact hp.pdisp hmsg
  · exact hp.circCount hcont
  · exact hp

theorem loseContent (h : Carries s t) {b : Build} {code : Nat} (hc : code < 16) : Carries s (t.loseContent b code) :=
  loseContent_eq t b code ▸ h.foldl fun _ _ h => h.losePiece hc (by split <;> decide) hc

/-! ### Content that is sealed and sent -/

/-- The result of a request is taken, or the parcel ends with it. -/
theorem commitPiece (h : Carries s t) {x : Piece} : Carries s (t.commitPiece x).1 := by
  unfold State.commitPiece
  split
  · exact h
  next n _ =>
    have htake := h.takeResult (n := n)
    dsimp only
    split
    next r v he =>
      rw [he] at htake
      simp only [apply_ite Prod.fst]
      exact .ite (fun _ => htake) fun _ => htake.losePiece (x := x) (pkt := if r.status = 5 then 15 else 7)
        (cont := if r.status = 5 then 12 else 1) (msg := 7) (by split <;> decide) (by split <;> decide) (by decide)
    next v he =>
      rw [he] at htake
      exact htake.dropReq.losePiece (x := x) (pkt := 5) (cont := 1) (msg := 5) (by decide) (by decide) (by decide)

theorem commitPieces (h : Carries s t) {l : List Piece} : Carries s (t.commitPieces l).1 := by
  induction l generalizing t with
  | nil => exact h
  | cons x l ih => exact ih h.commitPiece

theorem partSent (h : Carries s t) {p : Pkt} {last : Bool} : Carries s (t.partSent p last) :=
  have hgone : ∀ l, Carries s { t with ubb := { t.ubb with lastGone := l } } := fun _ => h.setUbb rfl rfl
  .ite (fun _ => h) fun _ => .ite (fun _ => hgone _) fun _ => (hgone _).pdisp (by decide)

theorem contentSent (h : Carries s t) {b : Build} : Carries s (t.contentSent b) := by
  refine h.foldl fun t x h => ?_
  have hp : Carries s (match x.pkt with | some p => t.partSent p x.last | none => t) := by
    split
    · exact h.partSent
    · exact h
  have hjust : ∀ {u : State} {c}, Carries s u → Carries s (u.justSent c) := fun h => .ite (fun _ => h.frame) fun _ => h
  dsimp only
  split <;> split
  · exact (hjust hp).pdisp (by decide)
  · exact hp.pdisp (by decide)
  · exact hjust hp
  · exact hp

end Carries
end Sys2Proof.Machine
end

section
/-!
SUPPORT. Every burst in progress is cut (R50, R142, R145), the ward's violations (R142, R143) and the messages on which it acts (R145, R168);
O16 is settled here.
-/

namespace Sys2Proof.Machine

variable {s : State}

/-! ## Every MBEN inactive -/

theorem medLaneStatus_ne_of_ward (p : Plane) {a : Nat} (h : unitOf a = 0x9C) : R.medLaneStatus p ≠ a := by
  rintro rfl
  simp only [unitOf, R.medLaneStatus] at h
  omega

theorem not_pathReg_of_ward {a : Nat} (h : unitOf a = 0x9C) (ho : offOf a < 0xF000) : ¬PathReg a := by
  simp only [PathReg, unitOf, offOf, List.mem_cons, List.not_mem_nil, or_false] at h ho ⊢
  omega

/-- The driver of every lane at rest. -/
def driversFields : List (Nat × Fld) := (List.range 24).flatMap driverFields

theorem driverFields_subset_driversFields {p : Nat} (h : p ∈ List.range 24) : driverFields p ⊆ driversFields :=
  fun _ he => List.mem_flatMap.2 ⟨p, h, he⟩

theorem cutAll_eq (s : State) : s.cutAll = (List.range 24).foldl (fun s p => s.haltPlane p) s := rfl

theorem moves_cutAll (s : State) : Moves driversFields s s.cutAll :=
  List.foldlRecOn (motive := Moves driversFields s) _ _ .refl fun _ h _ hp => h.haltPlane (driverFields_subset_driversFields hp)

/-- A register of the ward is the same once every burst is cut. -/
theorem reg_cutAll (s : State) {a : Nat} (h : unitOf a = 0x9C) (ho : offOf a < 0xF000) : s.cutAll.reg a = s.reg a := by
  refine (moves_cutAll s).reg (not_pathReg_of_ward h ho) fun e he => ?_
  obtain ⟨p, hp, he⟩ := List.mem_flatMap.1 he
  simp only [driverFields, List.mem_cons, List.not_mem_nil, or_false] at he
  rcases he with rfl | rfl <;> exact medLaneStatus_ne_of_ward ⟨p, List.mem_range.1 hp⟩ h

theorem mben_stopPlane (s : State) (p : Nat) : (s.stopPlane p).bit (R.medLaneStatus p) F.medLaneStatus_mben = false :=
  bit_setBit_same _ _ _ _ rfl (by decide)

theorem mben_haltPlane (s : State) (p code : Nat) : (s.haltPlane p code).bit (R.medLaneStatus p) F.medLaneStatus_mben = false :=
  mben_stopPlane _ p

theorem mben_haltPlane_other {p code : Nat} {q : Plane} (hq : q.val ≠ p) (h : s.bit (R.medLaneStatus q) F.medLaneStatus_mben = false) :
    (s.haltPlane p code).bit (R.medLaneStatus q) F.medLaneStatus_mben = false := by
  rw [(Moves.refl.haltPlane (List.Subset.refl (driverFields p))).bit (by simp) (by simp [driverFields, Ne.symm hq]), h]

theorem mben_cutAll (s : State) (q : Plane) : s.cutAll.bit (R.medLaneStatus q) F.medLaneStatus_mben = false := by
  have hfold := foldl_forall (I := fun _ => True) (P := fun p (t : State) => ∀ q : Plane, q.val = p →
      t.bit (R.medLaneStatus q) F.medLaneStatus_mben = false) (f := fun t p => State.haltPlane t p)
    (fun _ _ _ => trivial) (fun t p _ q hq => hq ▸ mben_haltPlane t q 10)
    (fun t p c _ hc q hq => by
      by_cases hp : q.val = p
      · exact hp ▸ mben_haltPlane t q 10
      · exact mben_haltPlane_other hp (hc q hq))
    (List.range 24) (b := s) trivial
  rw [cutAll_eq]
  exact hfold.2 q (mem_planes q) q rfl

theorem cutPlane_dfp (s : State) (p code : Nat) : (s.cutPlane p code).dfp = s.dfp := by
  unfold State.cutPlane
  split
  · rfl
  · have hcut : (((s.stopPlane p).bdisp code).pmcEvent (0x10 + p) 2).dfp = s.dfp := by
      rw [pmcEvent_dfp, bdisp_dfp]
      rfl
    refine Eq.trans ?_ hcut
    dsimp only
    split
    · split <;> rfl
    · refine (Carries.refl.loseContent (by decide)).dfp.trans ?_
      split <;> rfl

theorem cutAll_dfp (s : State) : s.cutAll.dfp = s.dfp := by
  rw [cutAll_eq, foldl_keep State.dfp (fun t p => State.haltPlane t p) fun t p => cutPlane_dfp t p 10]

/-- With no burst in progress only the lanes' drivers come to rest. -/
theorem changes_cutAll_quiet (h : s.noBurst) : Changes (fun a _ => a ∈ (List.range 24).map R.medLaneStatus) s s.cutAll := by
  rw [cutAll_eq]
  refine (List.foldlRecOn (motive := fun t : State => Changes (fun a _ => a ∈ (List.range 24).map R.medLaneStatus) s t ∧
    t.ubb.builds = s.ubb.builds) _ _ ⟨.refl, rfl⟩ fun t ht p hp => ?_).1
  have hquiet : t.noBurst := by rwa [State.noBurst, ht.2]
  refine ⟨ht.1.trans ((changes_haltPlane_quiet hquiet p 10).mono fun a _ ha => ha ▸ List.mem_map_of_mem hp), ?_⟩
  rw [haltPlane_quiet hquiet]
  exact ht.2

/-! ## The ward's status -/

/-- Fields set one after the other; whether the event is raised is not a matter of registers. -/
theorem reg_setWards (s : State) (l : List (Fld × Nat)) (a : Nat) :
    (s.setWards l).reg a = (l.foldl (fun s e => s.setFld R.wardStatus e.1 e.2) s).reg a := by
  unfold State.setWards
  dsimp only
  split <;> rfl

theorem fld_setWards (s : State) (l : List (Fld × Nat)) (a : Nat) (f : Fld) :
    (s.setWards l).fld a f = (l.foldl (fun s e => s.setFld R.wardStatus e.1 e.2) s).fld a f := by rw [State.fld, State.fld, reg_setWards]

theorem bit_setWards (s : State) (l : List (Fld × Nat)) (a : Nat) (f : Fld) :
    (s.setWards l).bit a f = (l.foldl (fun s e => s.setFld R.wardStatus e.1 e.2) s).bit a f := by rw [State.bit, State.bit, fld_setWards]

theorem Changes.setWards {W : Nat → Fld → Prop} {t : State} (h : Changes W s t) {l : List (Fld × Nat)} (hw : ∀ f, W R.wardStatus f) :
    Changes W s (t.setWards l) := by
  have hset := h.foldl (f := fun s e => s.setFld R.wardStatus e.1 e.2) (l := l) fun _ _ _ h => h.setFld (hw _)
  exact .ite (fun _ => hset) fun _ => hset.frame

theorem setWards_keep {γ : Type} (g : State → γ) (hset : ∀ t a f v, g (State.setFld t a f v) = g t) (hedge : ∀ t n, g (State.edge t n) = g t)
    (s : State) (l : List (Fld × Nat)) : g (s.setWards l) = g s := by
  have hfold := foldl_keep g (fun (s : State) (e : Fld × Nat) => s.setFld R.wardStatus e.1 e.2) (fun _ _ => hset ..) l s
  unfold State.setWards
  dsimp only
  split
  · exact hfold
  · exact (hedge ..).trans hfold

theorem setWards_dfp (s : State) (l : List (Fld × Nat)) : (s.setWards l).dfp = s.dfp := setWards_keep State.dfp setFld_dfp (fun _ _ => rfl) s l
theorem setWards_ubb (s : State) (l : List (Fld × Nat)) : (s.setWards l).ubb = s.ubb := setWards_keep State.ubb setFld_ubb (fun _ _ => rfl) s l

theorem bit_setWard_same (s : State) (f : Fld) (b : Bool) (h : f.lo = f.hi) (h2 : f.hi < 64) : (s.setWard f b).bit R.wardStatus f = b := by
  unfold State.setWard
  split
  · assumption
  · exact bit_setBit_same _ _ _ _ h h2

/-- The fields that a lockout sets. -/
def lockFields (permanent : Bool) : List (Fld × Nat) := (F.wardStatus_locked, 1) :: if permanent then [(F.wardStatus_permanent, 1)] else []

theorem locked_lockFields (s : State) (permanent : Bool) : (s.setWards (lockFields permanent)).bit R.wardStatus F.wardStatus_locked = true ∧
    (s.setWards (lockFields permanent)).bit R.wardStatus F.wardStatus_permanent =
      (permanent || s.bit R.wardStatus F.wardStatus_permanent) := by
  have hlocked : (s.setFld R.wardStatus F.wardStatus_locked 1).bit R.wardStatus F.wardStatus_locked = true :=
    bit_setBit_same _ _ _ true rfl (by decide)
  rw [bit_setWards, bit_setWards]
  cases permanent
  · exact ⟨hlocked, bit_setFld_field _ _ _ _ _ (by decide) (by decide) (by decide)⟩
  · exact ⟨(bit_setFld_field _ _ _ _ _ (by decide) (by decide) (by decide)).trans hlocked, bit_setBit_same _ _ _ true rfl (by decide)⟩

/-! ## Violations -/

/-- The violation's instant is kept, and every burst is cut. -/
def State.violationCut (s : State) : State := { s with ward := { s.ward with violations := s.recentViolations ++ [s.time.now] } }.cutAll

/-- A violation with its bursts cut, counted and, where none is logged yet, logged. -/
def State.violationLogged (s : State) (p : Nat) (overrun : Bool) : State :=
  let t := s.violationCut.count R.wardCounts F.wardCounts_violations
  if t.bit R.wardViolLog F.wardViolLog_valid then t
  else (t.setReg R.wardViolLog (BitVec.ofNat 64 (p % 32 * 2 ^ 58 + b2n overrun * 2 ^ 57 + t.time.frame % 2 ^ 48))).latch
    R.wardViolLog F.wardViolLog_valid

theorem changes_violationLogged (s : State) (p : Nat) (overrun : Bool) : Changes (fun a _ => a = R.wardViolLog)
    (s.violationCut.count R.wardCounts F.wardCounts_violations) (s.violationLogged p overrun) :=
  .ite (fun _ => .refl) fun _ => (Changes.refl.setReg rfl).latch rfl

/-- The hold that the `n`-th violation within 1 s sets. -/
def holdFld (n : Nat) : Fld := if n = 3 then F.wardStatus_fatal else F.wardStatus_restartHold

theorem violation_eq {p n : Nat} {overrun : Bool} (h : s.lpValid = true) (hn : n = min 3 (s.recentViolations.length + 1)) :
    s.violation p overrun = ((s.violationLogged p overrun).setWards [(F.wardStatus_viol1s, n), (holdFld n, 1)]).signal Src.ward
      (if n = 3 then 3 else 2) (5 * 4096 + p % 32 + b2n overrun * 32 + n * 64) := by
  have hlen : min 3 (s.recentViolations ++ [s.time.now]).length = n := by rw [List.length_append, hn]; rfl
  subst hlen
  exact if_neg (by rw [h]; decide)

theorem counted_violationLogged (s : State) (p : Nat) (overrun : Bool) :
    counted s (s.violationLogged p overrun) R.wardCounts F.wardCounts_violations := by
  refine counted_count (u := s.violationCut) ?_ ((changes_violationLogged s p overrun).fld fun _ hg => absurd hg (by decide))
    (by decide) (by decide)
  rw [State.fld, State.violationCut, reg_cutAll _ (by decide) (by decide)]
  rfl

theorem mben_violationLogged (s : State) (p : Nat) (overrun : Bool) (q : Plane) :
    (s.violationLogged p overrun).bit (R.medLaneStatus q) F.medLaneStatus_mben = false := by
  rw [(changes_violationLogged s p overrun).bit fun _ hg => absurd hg (medLaneStatus_ne_of_ward q (by decide)),
    bit_count_other _ _ _ _ (medLaneStatus_ne_of_ward q (by decide))]
  exact mben_cutAll _ q

/-- The registers that a violation changes where no burst is in progress. -/
abbrev violationRegs : List Nat := R.wardCounts :: R.wardStatus :: R.wardViolLog :: (List.range 24).map R.medLaneStatus

theorem changes_violationLogged_quiet (h : s.noBurst) (p : Nat) (overrun : Bool) :
    Changes (fun a _ => a ∈ violationRegs) s (s.violationLogged p overrun) := by
  have hcut : Changes (fun a _ => a ∈ (List.range 24).map R.medLaneStatus) s s.violationCut :=
    Changes.trans (Changes.frame .refl) (changes_cutAll_quiet h)
  have hcount := (hcut.mono (W' := fun a _ => a ∈ violationRegs) fun _ _ ha => .tail _ (.tail _ (.tail _ ha))).count
    (a := R.wardCounts) (f := F.wardCounts_violations) (n := 1) (.head _)
  exact hcount.trans ((changes_violationLogged s p overrun).mono fun _ _ ha => ha ▸ .tail _ (.tail _ (.head _)))

theorem exec_wardViolation (s : State) (p : Plane) (overrun : Bool) : exec (.wardViolation p overrun) s = .next (s.violation p overrun) := rfl

theorem wardViolation_ignored {p : Plane} {overrun : Bool} (h : s.lpValid = false) : exec (.wardViolation p overrun) s = .next s :=
  congrArg Host.Outcome.next (if_pos (by rw [h]; rfl))

/-- The two fields of WARD.STATUS that a violation sets. -/
theorem wardStatus_violation (s : State) {n : Nat} (hn : n ≤ 3) :
    (s.setWards [(F.wardStatus_viol1s, n), (holdFld n, 1)]).fld R.wardStatus F.wardStatus_viol1s = n ∧
      (s.setWards [(F.wardStatus_viol1s, n), (holdFld n, 1)]).bit R.wardStatus (holdFld n) = true := by
  have hhold : (holdFld n).lo = (holdFld n).hi ∧ (holdFld n).hi < 5 := by unfold holdFld; split <;> decide
  obtain ⟨hbit, hlow⟩ := hhold
  rw [fld_setWards, bit_setWards]
  refine ⟨?_, bit_setBit_same _ _ (holdFld n) true hbit (by omega)⟩
  refine (fld_setFld_field _ _ (holdFld n) _ _ (by omega) (by omega) (.inr hlow)).trans ?_
  exact (fld_setFld_same _ _ F.wardStatus_viol1s n (by decide) (by decide)).trans (Nat.mod_eq_of_lt (show n < 4 by omega))

theorem wardViolation_judged {p : Plane} {overrun : Bool} (n : Nat) (h : s.lpValid = true) (hn : n = min 3 (s.recentViolations.length + 1)) :
    ∃ t : State, exec (.wardViolation p overrun) s = .next t ∧ counted s t R.wardCounts F.wardCounts_violations ∧
      t.fld R.wardStatus F.wardStatus_viol1s = n ∧
        t.bit R.wardStatus (if n = 3 then F.wardStatus_fatal else F.wardStatus_restartHold) = true ∧
      (∃ l, t.wires = l ++ [(Src.ward, if n = 3 then 3 else 2, 5 * 4096 + p.val + b2n overrun * 32 + n * 64)]) ∧
      (∀ q : Plane, t.bit (R.medLaneStatus q) F.medLaneStatus_mben = false) ∧
      (s.noBurst → memKept s t ∧ regsKept s t violationRegs) := by
  obtain ⟨hviol, hhold⟩ := wardStatus_violation (s.violationLogged p overrun) (n := n) (by omega)
  have hwards : ∀ {u : State} {l}, Changes (fun a _ => a = R.wardStatus) u (u.setWards l) := Changes.refl.setWards fun _ => rfl
  rw [exec_wardViolation, violation_eq h hn, Nat.mod_eq_of_lt (show p.val < 32 by omega)]
  refine ⟨_, rfl, ?counted, hviol, hhold, ⟨_, rfl⟩, fun q => ?mben, fun hquiet => ?frame⟩
  case counted =>
    rw [counted, fld_signal, hwards.fld fun _ hg => absurd hg (by decide)]
    exact counted_violationLogged s p overrun
  case mben =>
    rw [bit_signal, hwards.bit fun _ hg => absurd hg (medLaneStatus_ne_of_ward q (by decide)), mben_violationLogged]
  case frame =>
    have hc := ((changes_violationLogged_quiet hquiet p overrun).setWards (l := [(F.wardStatus_viol1s, n), (holdFld n, 1)])
      fun _ => .tail _ (.head _)).signal (src := Src.ward) (cls := if n = 3 then 3 else 2)
        (code := 5 * 4096 + p.val + b2n overrun * 32 + n * 64)
    exact ⟨hc.memKept, hc.regsKept⟩

/-! ## Messages of the ward -/

theorem readCopy_keep {γ : Type} (g : State → γ) (hdfp : ∀ t : State, ∀ l, g { t with dfp := { t.dfp with msgq := l } } = g t)
    (hlog : ∀ t m, g (State.logReason t m) = g t) {m : Msg} (hlen : 16 ≤ m.body.length) : g (s.readCopy m 16) = g s := by
  have hfull : shortBody m 16 = false := decide_eq_false (by omega)
  simp only [State.readCopy, hfull, Bool.false_eq_true, if_false]
  split
  · split
    · exact hdfp ..
    · exact (hlog ..).trans (hdfp ..)
  · rfl

theorem exec_releaseMessage (s : State) (m : Msg) : exec (.release m) s = .next (s.wardMessage m (fun s => s.wardRelease m)) := rfl

section
variable {m : Msg} (hlen : 16 ≤ m.body.length)
include hlen

theorem readCopy_regs : (s.readCopy m 16).regs = s.regs := readCopy_keep State.regs (fun _ _ => rfl) (fun _ _ => rfl) hlen
theorem readCopy_mem : (s.readCopy m 16).mem = s.mem := readCopy_keep State.mem (fun _ _ => rfl) (fun _ _ => rfl) hlen
theorem readCopy_ubb : (s.readCopy m 16).ubb = s.ubb := readCopy_keep State.ubb (fun _ _ => rfl) (fun _ _ => rfl) hlen

theorem readCopy_inbox : (s.readCopy m 16).dfp.inbox = s.dfp.inbox :=
  readCopy_keep (fun t : State => t.dfp.inbox) (fun _ _ => rfl) (fun _ _ => rfl) hlen

/-- A message of full length in the header region is acted on. -/
theorem wardMessage_full (hregion : m.parcel = false) (act : State → State) : s.wardMessage m act = act (s.readCopy m 16) := by
  have hfull : shortBody m 16 = false := decide_eq_false (by omega)
  simp only [State.wardMessage, hregion, hfull, Bool.false_eq_true, if_false]

/-- The ward's message taken from both queues. -/
def State.wardTaken (s : State) (m : Msg) : State := (s.readCopy m 16).takeInbox m

theorem wardTaken_reg (a : Nat) : (s.wardTaken m).reg a = s.reg a := reg_of_regs (readCopy_regs hlen) a

theorem changes_wardTaken {W : Nat → Fld → Prop} : Changes W s (s.wardTaken m) :=
  ⟨readCopy_mem hlen, fun a _ _ => by rw [wardTaken_reg hlen]⟩

theorem wardTaken_inbox : (s.wardTaken m).dfp.inbox = s.dfp.inbox.erase m := congrArg (List.erase · m) (readCopy_inbox hlen)

theorem codeMatches_wardTaken : (s.wardTaken m).codeMatches m = s.codeMatches m := by
  rw [State.codeMatches, State.codeMatches, wardTaken_reg hlen]

variable (hregion : m.parcel = false)
include hregion

/-! ### LOCKOUT and LOCKOUT_PERMANENT -/

theorem lockout_matched (h : s.codeMatches m = true) (permanent : Bool) : s.wardMessage m (fun s => s.wardLockout m permanent) =
    (((s.wardTaken m).count R.wardCounts F.wardCounts_lockouts).setWards (lockFields permanent)).cutAll := by
  rw [wardMessage_full hlen hregion]
  exact if_neg (by rw [← State.wardTaken, codeMatches_wardTaken hlen, h]; decide)

theorem lockout_locks (h : s.codeMatches m = true) (permanent : Bool) {t : State}
    (ht : t = s.wardMessage m (fun s => s.wardLockout m permanent)) :
    t.bit R.wardStatus F.wardStatus_locked = true ∧
      t.bit R.wardStatus F.wardStatus_permanent = (permanent || s.bit R.wardStatus F.wardStatus_permanent) ∧
      counted s t R.wardCounts F.wardCounts_lockouts ∧ t.dfp.inbox = s.dfp.inbox.erase m ∧
      (∀ q : Plane, t.bit (R.medLaneStatus q) F.medLaneStatus_mben = false) ∧
      (s.noBurst → memKept s t ∧ regsKept s t (R.wardCounts :: R.wardStatus :: (List.range 24).map R.medLaneStatus)) := by
  generalize hu : ((s.wardTaken m).count R.wardCounts F.wardCounts_lockouts).setWards (lockFields permanent) = u
  rw [lockout_matched hlen hregion h, hu] at ht
  subst ht
  have hcut : ∀ a ∈ [R.wardStatus, R.wardCounts], u.cutAll.reg a = u.reg a := fun a ha => by
    simp only [List.mem_cons, List.not_mem_nil, or_false] at ha
    rcases ha with rfl | rfl <;> exact reg_cutAll u (by decide) (by decide)
  obtain ⟨hlocked, hpermanent⟩ := locked_lockFields ((s.wardTaken m).count R.wardCounts F.wardCounts_lockouts) permanent
  rw [hu] at hlocked hpermanent
  refine ⟨?locked, ?permanent, ?counted, ?inbox, mben_cutAll u, fun hquiet => ?frame⟩
  case locked => rw [State.bit, State.fld, hcut _ (.head _)]; exact hlocked
  case permanent =>
    rw [State.bit, State.fld, hcut _ (.head _)]
    refine hpermanent.trans (congrArg (permanent || ·) ?_)
    rw [bit_count_other _ _ _ _ (by decide), State.bit, State.fld, wardTaken_reg hlen]
    rfl
  case counted =>
    have hwards : Changes (fun a _ => a = R.wardStatus) ((s.wardTaken m).count R.wardCounts F.wardCounts_lockouts) u :=
      hu ▸ Changes.refl.setWards fun _ => rfl
    refine counted_count (u := s.wardTaken m) ?_ ?_ (by decide) (by decide)
    · rw [State.fld, State.fld, wardTaken_reg hlen]
    · rw [State.fld, hcut _ (.tail _ (.head _))]
      exact hwards.fld fun _ hg => absurd hg (by decide)
  case inbox =>
    rw [cutAll_dfp, ← hu, setWards_dfp, count_dfp]
    exact wardTaken_inbox hlen
  case frame =>
    have hbursts : u.noBurst := by
      rw [State.noBurst, ← hu, setWards_ubb, count_ubb]
      exact (congrArg UbbState.builds (readCopy_ubb hlen : (s.wardTaken m).ubb = s.ubb)) ▸ hquiet
    have hc : Changes (fun a _ => a ∈ R.wardCounts :: R.wardStatus :: (List.range 24).map R.medLaneStatus) s u.cutAll :=
      Changes.trans (hu ▸ ((changes_wardTaken hlen).count (.head _)).setWards fun _ => .tail _ (.head _))
        ((changes_cutAll_quiet hbursts).mono fun _ _ ha => .tail _ (.tail _ ha))
    exact ⟨hc.memKept, hc.regsKept⟩

/-! ### RELEASE -/

theorem release_matched (h : s.codeMatches m = true) : s.wardMessage m (fun s => s.wardRelease m) =
    if ((s.wardTaken m).count R.wardCounts F.wardCounts_releases).bit R.wardStatus F.wardStatus_permanent ||
        !((s.wardTaken m).count R.wardCounts F.wardCounts_releases).bit R.wardStatus F.wardStatus_locked then
      (s.wardTaken m).count R.wardCounts F.wardCounts_releases
    else (((s.wardTaken m).count R.wardCounts F.wardCounts_releases).setWard F.wardStatus_locked false).wardFree := by
  rw [wardMessage_full hlen hregion]
  exact if_neg (by rw [← State.wardTaken, codeMatches_wardTaken hlen, h]; decide)

theorem release_releases (h : s.codeMatches m = true) :
    ∃ t : State, exec (.release m) s = .next t ∧
      t.bit R.wardStatus F.wardStatus_locked = (s.bit R.wardStatus F.wardStatus_permanent && s.bit R.wardStatus F.wardStatus_locked) ∧
      counted s t R.wardCounts F.wardCounts_releases ∧ t.dfp.inbox = s.dfp.inbox.erase m ∧ memKept s t ∧
      regsKept s t [R.wardCounts, R.wardStatus] := by
  generalize hu : (s.wardTaken m).count R.wardCounts F.wardCounts_releases = u
  have hbit : ∀ f, u.bit R.wardStatus f = s.bit R.wardStatus f := fun f => by
    rw [← hu, bit_count_other _ _ _ _ (by decide), State.bit, State.fld, wardTaken_reg hlen]
    rfl
  have hcounted : counted s u R.wardCounts F.wardCounts_releases :=
    counted_count (u := s.wardTaken m) (by rw [State.fld, State.fld, wardTaken_reg hlen]) (by rw [hu]) (by decide) (by decide)
  have hinbox : u.dfp.inbox = s.dfp.inbox.erase m := by rw [← hu, count_dfp]; exact wardTaken_inbox hlen
  have hc : Changes (fun a _ => a ∈ [R.wardCounts, R.wardStatus]) s u := hu ▸ (changes_wardTaken hlen).count (.head _)
  rw [exec_releaseMessage, release_matched hlen hregion h, hu, hbit, hbit]
  split
  case isTrue hheld =>
    refine ⟨_, rfl, ?_, hcounted, hinbox, hc.memKept, hc.regsKept⟩
    rw [hbit]
    revert hheld
    cases s.bit R.wardStatus F.wardStatus_permanent <;> simp
  case isFalse hheld =>
    have hward : Changes (fun a _ => a = R.wardStatus) u (u.setWard F.wardStatus_locked false) := Changes.refl.setWard rfl
    have hfree : Changes (fun a _ => a ∈ [R.wardCounts, R.wardStatus]) s (u.setWard F.wardStatus_locked false).wardFree :=
      (hc.setWard (.tail _ (.head _))).frame
    refine ⟨_, rfl, ?_, ?_, ?_, hfree.memKept, hfree.regsKept⟩
    · simp only [Bool.or_eq_true, not_or, Bool.not_eq_true] at hheld
      rw [hheld.1, Bool.false_and]
      exact bit_setWard_same _ _ _ rfl (by decide)
    · rw [counted, ← hcounted]
      exact hward.fld fun _ hg => absurd hg (by decide)
    · rw [← hinbox, ← setWard_dfp u F.wardStatus_locked false]
      rfl

/-! ### A code that does not match -/

/-- A message of the ward with another code is counted as such. -/
theorem wardMessage_mismatch {act : State → State} (hact : act (s.readCopy m 16) = (s.wardTaken m).count R.wardCounts F.wardCounts_mismatch) {c : Instr}
    (hc : exec c s = .next (s.wardMessage m act)) :
    ∃ t : State, exec c s = .next t ∧ counted s t R.wardCounts F.wardCounts_mismatch ∧ t.dfp.inbox = s.dfp.inbox.erase m ∧ memKept s t ∧
      regsKept s t [R.wardCounts] := by
  have hchanges : Changes (fun a _ => a ∈ [R.wardCounts]) s ((s.wardTaken m).count R.wardCounts F.wardCounts_mismatch) :=
    (changes_wardTaken hlen).count (.head _)
  rw [hc, wardMessage_full hlen hregion, hact]
  refine ⟨_, rfl, counted_count (u := s.wardTaken m) ?_ rfl (by decide) (by decide), ?_, hchanges.memKept, hchanges.regsKept⟩
  · rw [State.fld, State.fld, wardTaken_reg hlen]
  · rw [count_dfp]
    exact wardTaken_inbox hlen

theorem wardMessages_mismatch (h : s.codeMatches m = false) : ∀ c ∈ [Instr.lockout m, .lockoutPermanent m, .release m],
    ∃ t : State, exec c s = .next t ∧ counted s t R.wardCounts F.wardCounts_mismatch ∧ t.dfp.inbox = s.dfp.inbox.erase m ∧ memKept s t ∧
      regsKept s t [R.wardCounts] := by
  have hmismatch : (!(s.wardTaken m).codeMatches m) = true := by rw [codeMatches_wardTaken hlen, h]; rfl
  intro c hc
  simp only [List.mem_cons, List.not_mem_nil, or_false] at hc
  rcases hc with rfl | rfl | rfl
  · exact wardMessage_mismatch hlen hregion (act := (·.wardLockout m false)) (if_pos hmismatch) rfl
  · exact wardMessage_mismatch hlen hregion (act := (·.wardLockout m true)) (if_pos hmismatch) rfl
  · exact wardMessage_mismatch hlen hregion (act := (·.wardRelease m)) (if_pos hmismatch) rfl

end

/-- Settles O16: violations, and each message of the ward with and without its code, as stated above. -/
theorem wardHoldsTheTransmitter : Obligations.WardHoldsTheTransmitter := by
  refine fun s p overrun m => ⟨wardViolation_ignored, wardViolation_judged, fun hlen hregion h => ⟨?lockout, ?permanent, release_releases hlen hregion h⟩,
    wardMessages_mismatch⟩
  case lockout => exact ⟨_, rfl, lockout_locks hlen hregion h false rfl⟩
  case permanent => exact ⟨_, rfl, lockout_locks hlen hregion h true rfl⟩

end Sys2Proof.Machine
end

section
/-!
SUPPORT. What the life of a burst stands on (R116, R120, R137, R138): the planes of the UBB, the bursts under build, the events of a unit and
the counts of dispositions.
-/

namespace Sys2Proof.Machine

/-! ## The planes of the UBB -/

@[simp] theorem uplane_setUplane_same (s : State) (p : Nat) (u : UbbPlane) : (s.setUplane p u).uplane p = u := by
  simp [State.uplane, State.setUplane]

theorem uplane_setUplane_other (s : State) {p q : Nat} (u : UbbPlane) (h : q ≠ p) : (s.setUplane p u).uplane q = s.uplane q := by
  simp [State.uplane, State.setUplane, h]

theorem uplane_congr {s t : State} (h : t.ubb = s.ubb) (p : Nat) : t.uplane p = s.uplane p := by rw [State.uplane, State.uplane, h]

/-- An entry that is withdrawn is no longer held. -/
theorem not_mem_entries_withdrawn (s : State) (g : Grant) (u : UbbPlane) :
    g ∉ ((s.setUplane g.plane { u with entries := u.entries.filter (· != g) }).uplane g.plane).entries := by simp

/-! ## The bursts under build -/

theorem buildOf_some {s : State} {p : Nat} {f : Build → Bool} {b : Build} (h : s.buildOf p f = some b) :
    b ∈ s.ubb.builds ∧ f b = true ∧ b.on p = true := by
  have hfold := List.foldlRecOn (motive := fun o : Option Build => ∀ x, o = some x → x ∈ s.ubb.builds.filter fun b => f b && b.on p)
    (s.ubb.builds.filter fun b => f b && b.on p) (fun b x => match b with
      | none => some x
      | some y => if x.launch < y.launch then some x else b) (b := none) (fun _ h => by cases h) fun o ih x hx y hy => by
    split at hy
    · cases hy; exact hx
    · split at hy
      · cases hy; exact hx
      · exact ih y hy
  have hmem := hfold b h
  simpa [Bool.and_eq_true] using hmem

theorem mem_putBuild {s : State} {b x : Build} (h : b ∈ s.ubb.builds) (hg : x.grants = b.grants) : x ∈ (s.putBuild x).ubb.builds :=
  List.mem_map.2 ⟨b, h, if_pos hg.symm⟩

theorem putBuild_single {s : State} {b x : Build} (h : s.ubb.builds = [b]) (hg : x.grants = b.grants) : (s.putBuild x).ubb.builds = [x] := by
  simp [State.putBuild, h, hg]

theorem dropBuild_single {s : State} {b : Build} (h : s.ubb.builds = [b]) : (s.dropBuild b).ubb.builds = [] := by
  simp [State.dropBuild, h]

theorem joins_of_no_build {s : State} (h : s.ubb.builds = []) (p : Nat) (e : Int) : s.joins p e = false := by simp [State.joins, h]

/-! ## The events of a unit -/

theorem unitOf_pmcCnt (v : Nat) {i : Nat} (h : i < 8) : unitOf (R.pmcCnt v i) = v := by simp only [unitOf, R.pmcCnt]; omega

theorem unitOf_pmcCtl (v : Nat) : unitOf (R.pmcCtl v) = v := by simp only [unitOf, R.pmcCtl]; omega

theorem Changes.unitEvent {us : List Nat} {s t : State} (h : Changes (fun a _ => unitOf a ∈ us) s t) {v code n : Nat} (hv : v ∈ us) :
    Changes (fun a _ => unitOf a ∈ us) s (t.pmcEvent v code n) :=
  h.pmcEvent (fun _ hi => by rwa [unitOf_pmcCnt v hi]) fun _ _ => by rwa [unitOf_pmcCtl v]

/-- A register outside every counter block is the same after an event. -/
theorem reg_pmcEvent_low (s : State) (v code n : Nat) {a : Nat} (h : offOf a < 0xF000) : (s.pmcEvent v code n).reg a = s.reg a :=
  reg_pmcEvent_other s v code n (by simp only [offOf] at h; omega)

theorem fld_pmcEvent_low (s : State) (v code n : Nat) {a : Nat} (f : Fld) (h : offOf a < 0xF000) : (s.pmcEvent v code n).fld a f = s.fld a f := by
  rw [State.fld, State.fld, reg_pmcEvent_low s v code n h]

/-! ## Dispositions of bursts -/

theorem unit_ubbBdispCount {c : Nat} (h : c < 16) : unitOf (R.ubbBdispCount c) = 0xF1 := by simp only [unitOf, R.ubbBdispCount]; omega

theorem offOf_ubbBdispCount {c : Nat} (h : c < 16) : offOf (R.ubbBdispCount c) < 0xF000 := by simp only [offOf, R.ubbBdispCount]; omega

theorem not_contentReg_ubbBdispCount {c : Nat} (h : c < 16) : ¬ContentReg (R.ubbBdispCount c) := by
  simp only [ContentReg, offOf, R.ubbBdispCount]; omega

theorem not_contentReg_medLaneStatus {p : Nat} (h : p < 24) : ¬ContentReg (R.medLaneStatus p) := by
  simp only [ContentReg, FlowReg, unitOf, offOf, R.medLaneStatus, List.mem_cons, List.not_mem_nil, or_false]; omega

theorem counted_bdisp (s : State) {c : Nat} (h : c < 16) : counted s (s.bdisp c) (R.ubbBdispCount c) F.ubbBdispCount_count :=
  counted_count (u := s) rfl (fld_pmcEvent_low _ _ _ _ _ (offOf_ubbBdispCount h)) (by decide) (by decide)

theorem reg_bdisp_other (s : State) {a c : Nat} (h : a ≠ R.ubbBdispCount c) (ho : offOf a < 0xF000) : (s.bdisp c).reg a = s.reg a :=
  (reg_pmcEvent_low _ _ _ _ ho).trans (reg_count_other _ _ _ h)

theorem Changes.bdispUnit {us : List Nat} {s t : State} (h : Changes (fun a _ => unitOf a ∈ us) s t) (hu : 0xF1 ∈ us) {c : Nat} (hc : c < 16) :
    Changes (fun a _ => unitOf a ∈ us) s (t.bdisp c) := (h.count (by rwa [unit_ubbBdispCount hc])).unitEvent hu

theorem changes_bdefect (s : State) (p c : Nat) : Changes (fun a _ => a = R.ubbPlaneDefect p) s (s.bdefect p c) :=
  .ite (fun _ => .latch .refl rfl) fun _ => .ite (fun _ => .latch .refl rfl) fun _ => .ite (fun _ => .latch .refl rfl) fun _ => .refl

theorem unitOf_ubbPlaneDefect {p : Nat} (h : p < 24) : unitOf (R.ubbPlaneDefect p) = 0xF1 := by simp only [unitOf, R.ubbPlaneDefect]; omega

theorem ubbPlaneDefect_ne_ubbBdispCount (p : Nat) {c : Nat} (h : c < 16) : R.ubbPlaneDefect p ≠ R.ubbBdispCount c := by
  simp only [R.ubbPlaneDefect, R.ubbBdispCount]; omega

/-- A disposition and the defect it shows: its count, and what else of UBB's registers. -/
theorem counted_bdefect_bdisp (s : State) (p : Nat) {c : Nat} (h : c < 16) :
    counted s ((s.bdisp c).bdefect p c) (R.ubbBdispCount c) F.ubbBdispCount_count := by
  rw [counted, (changes_bdefect _ p c).fld fun _ hg => absurd hg.symm (ubbPlaneDefect_ne_ubbBdispCount p h)]
  exact counted_bdisp s h

theorem changes_bdefect_bdisp (s : State) {p c : Nat} (hp : p < 24) (hc : c < 16) :
    Changes (fun a _ => unitOf a ∈ [0xF1]) s ((s.bdisp c).bdefect p c) :=
  (Changes.refl.bdispUnit (.head _) hc).trans ((changes_bdefect _ p c).mono fun _ _ ha => by rw [ha, unitOf_ubbPlaneDefect hp]; exact .head _)

end Sys2Proof.Machine
end

section
/-!
SUPPORT. The build of an entry that is not bonded (R115 to R121, R138): one that meets a disposition ends with it, a REPORT or RANGE entry
becomes a header-only burst.
-/

namespace Sys2Proof.Machine

variable {s : State} {g : Grant}

/-! ## The cases of a build start -/

/-- The window of `n` slots that an entry alone fills. -/
def State.windowOf (s : State) (g : Grant) (n : Nat) : Window := ⟨[g], n, s.fld R.dfpIdent F.dfpIdent_tid, s.timeOf16 (s.launchAt g)⟩

/-- The report that an entry's burst carries. -/
def State.reportOf (s : State) (g : Grant) : List Nat := if s.reportDue [g] then (List.range 64).map s.reportCount else []

/-- The content of an entry that meets no disposition, selected, and its burst. -/
def State.buildContent (s : State) (g : Grant) : State :=
  let t := s.presentNotLead
  let w := t.windowOf g (s.nMax g).toNat
  (t.selectContent w g).1.finishBuild [g] g w (t.selectContent w g).2 (t.reportOf g)

/-- Whether an entry is too short for what its kind sends (R121). -/
abbrev State.tooShort (s : State) (g : Grant) : Prop := s.nMax g < 0 ∨ (g.kind = 2 ∧ s.nMax g < 1)

section
variable {p : Nat} (hlp : s.lpValid = true) (hrun : s.ubbRestarts = false) (hnext : s.nextEntry p = some g) (hbond : g.bonded = false)
include hlp hrun hnext hbond

theorem buildStart_alone : s.buildStart p =
    if (s.ownDisp g).isSome then s.endEntry g ((s.ownDisp g).getD 8)
    else if s.tooShort g then s.endEntry g 2 else s.buildContent g := by
  have hgs : s.bondOf g = [g] := if_pos (by rw [hbond]; rfl)
  have hbad : s.bondBad [g] = false := rfl
  simp only [State.buildStart, hlp, hrun, hnext, hgs, hbad, Bool.not_true, Bool.false_eq_true, if_false, Bool.false_or, List.any_cons,
    List.any_nil, Bool.or_false, List.foldl_cons, List.foldl_nil, List.headD_cons, State.tooShort]
  rfl

theorem buildStart_disposed {c : Nat} (h : s.ownDisp g = some c) : s.buildStart p = s.endEntry g c := by
  rw [buildStart_alone hlp hrun hnext hbond, h]
  rfl

theorem buildStart_short (h : s.ownDisp g = none) (hn : s.tooShort g) : s.buildStart p = s.endEntry g 2 := by
  rw [buildStart_alone hlp hrun hnext hbond, h]
  exact if_pos hn

theorem buildStart_content (h : s.ownDisp g = none) (hn : ¬s.tooShort g) : s.buildStart p = s.buildContent g := by
  rw [buildStart_alone hlp hrun hnext hbond, h]
  exact if_neg hn

end

/-! ## An entry that ends -/

theorem ownDisp_lt {c : Nat} (h : s.ownDisp g = some c) : c < 16 := by
  unfold State.ownDisp at h
  split at h
  · cases h; decide
  · split at h
    · cases h; decide
    · split at h
      · cases h; decide
      · split at h
        · cases h; decide
        · cases h

theorem endEntry_ubb (s : State) (g : Grant) (c : Nat) : (s.endEntry g c).ubb =
    (s.setUplane g.plane { s.uplane g.plane with entries := (s.uplane g.plane).entries.filter (· != g) }).ubb := by
  rw [State.endEntry, bdefect_ubb, bdisp_ubb]

theorem endEntry_builds (s : State) (g : Grant) (c : Nat) : (s.endEntry g c).ubb.builds = s.ubb.builds := by rw [endEntry_ubb]; rfl

theorem not_mem_entries_endEntry (s : State) (g : Grant) (c : Nat) : g ∉ ((s.endEntry g c).uplane g.plane).entries := by
  rw [uplane_congr (endEntry_ubb s g c)]
  exact not_mem_entries_withdrawn s g _

/-- An entry that ends is counted with its disposition; of the registers only UBB's change. -/
theorem endEntry_ends (s : State) {g : Grant} (hp : g.plane < 24) {c : Nat} (hc : c < 16) :
    (s.endEntry g c).ubb.builds = s.ubb.builds ∧ counted s (s.endEntry g c) (R.ubbBdispCount c) F.ubbBdispCount_count ∧
      memKept s (s.endEntry g c) ∧ unitsKept s (s.endEntry g c) [0xF1] := by
  have hchanges : Changes (fun a _ => unitOf a ∈ [0xF1]) s (s.endEntry g c) := changes_bdefect_bdisp (s.setUplane g.plane _) hp hc
  exact ⟨endEntry_builds s g c, counted_bdefect_bdisp (s.setUplane g.plane _) g.plane hc, hchanges.memKept, hchanges.unitsKept⟩

/-! ## A burst is built -/

/-- The entry is taken from those held (R116), with GUARD_TIGHT where it applies. -/
def State.takeEntry (s : State) (g : Grant) : State :=
  (s.setUplane g.plane { s.uplane g.plane with entries := (s.uplane g.plane).entries.filter (· != g) }).guardTight g

theorem takeEntry_ubb (s : State) (g : Grant) : (s.takeEntry g).ubb =
    (s.setUplane g.plane { s.uplane g.plane with entries := (s.uplane g.plane).entries.filter (· != g) }).ubb := latchIf_ubb ..

theorem takeEntry_builds (s : State) (g : Grant) : (s.takeEntry g).ubb.builds = s.ubb.builds := by rw [takeEntry_ubb]; rfl

theorem not_mem_entries_takeEntry (s : State) (g : Grant) : g ∉ ((s.takeEntry g).uplane g.plane).entries := by
  rw [uplane_congr (takeEntry_ubb s g)]
  exact not_mem_entries_withdrawn s g _

theorem changes_takeEntry (s : State) (g : Grant) : Changes (fun a _ => a = R.ubbPlaneDefect g.plane) s (s.takeEntry g) :=
  Changes.refl.latchIf rfl

/-- A burst joins those under build. -/
def State.addBuild (s : State) (b : Build) : State := { s with ubb := { s.ubb with builds := s.ubb.builds ++ [b] } }.pmcEvent 0xF1 1

theorem addBuild_builds (s : State) (b : Build) : (s.addBuild b).ubb.builds = s.ubb.builds ++ [b] := by rw [State.addBuild, pmcEvent_ubb]

theorem addBuild_uplane (s : State) (b : Build) (p : Nat) : (s.addBuild b).uplane p = s.uplane p := by
  rw [State.uplane, State.addBuild, pmcEvent_ubb]
  rfl

theorem addBuild_mem (s : State) (b : Build) : (s.addBuild b).mem = s.mem := pmcEvent_mem ..

/-- Whether a content is sent: a burst is empty only where its entry asks for none. -/
theorem finishBuild_alone (s : State) (g : Grant) (w : Window) (f : Fill) (rpt : List Nat) :
    s.finishBuild [g] g w f rpt = s.endEntry g 1 ∨ ∃ b, s.finishBuild [g] g w f rpt = (s.takeEntry g).addBuild b := by
  unfold State.finishBuild
  dsimp only
  split
  · exact .inl rfl
  · exact .inr ⟨_, rfl⟩

theorem not_mem_entries_buildContent (s : State) (g : Grant) : g ∉ ((s.buildContent g).uplane g.plane).entries := by
  have hfinish : ∀ (t : State) w f rpt, g ∉ ((t.finishBuild [g] g w f rpt).uplane g.plane).entries := fun t w f rpt => by
    rcases finishBuild_alone t g w f rpt with h | ⟨b, h⟩ <;> rw [h]
    · exact not_mem_entries_endEntry t g 1
    · rw [addBuild_uplane]
      exact not_mem_entries_takeEntry t g
  exact hfinish _ _ _ _

/-! ## REPORT and RANGE -/

/-- The burst of an entry without content. -/
def State.headerBurst (s : State) (g : Grant) (w : Window) (rpt : List Nat) : Build :=
  { grants := [g], lines := [s.lineOf g], n := 0, rpt := rpt, tid := w.tid, lead := s.isLead, alarm := s.alarmed, pieces := [],
    committed := false, launched := false, launch := s.launchAt g, symbols := s.burstLen g 0 * s.symScale g.plane, cut := false }

theorem idleFill_short (fuel : Nat) {w : Nat} (h : w < 2) : idleFill fuel w = [] := by
  cases fuel with
  | zero => rfl
  | succ fuel => exact if_pos h

theorem finishBuild_header (s : State) {g : Grant} (hkind : g.kind = 1 ∨ g.kind = 3) (w : Window) (rpt : List Nat) :
    s.finishBuild [g] g w ⟨[], 0, []⟩ rpt = (s.takeEntry g).addBuild ((s.takeEntry g).headerBurst g w rpt) := by
  have halways : (g.kind == 1 || g.kind == 3) = true := by simpa using hkind
  have hslots : (if g.kind = 1 then 0 else slotsFor [g].length 0) = 0 := by split <;> rfl
  have hidle : idleFill 64000 ((streamBytes [g].length 0 - 0) / 8) = [] := idleFill_short _ (by rw [List.length_singleton]; decide)
  simp only [State.finishBuild, halways, hslots, hidle, Bool.true_or, Bool.not_true, Bool.false_eq_true, and_false, if_false]
  rfl

theorem selectContent_header (s : State) {g : Grant} (hkind : g.kind = 1 ∨ g.kind = 3) (w : Window) : s.selectContent w g = (s, ⟨[], 0, []⟩) := by
  unfold State.selectContent
  rcases hkind with h | h <;> (rw [h]; rfl)

theorem buildContent_header (s : State) {g : Grant} (hkind : g.kind = 1 ∨ g.kind = 3) {t : State} (ht : t = s.presentNotLead) :
    s.buildContent g = (t.takeEntry g).addBuild ((t.takeEntry g).headerBurst g (t.windowOf g (s.nMax g).toNat) (t.reportOf g)) := by
  rw [State.buildContent, ← ht, selectContent_header t hkind]
  exact finishBuild_header t hkind _ _

/-! ### What the header shows -/

theorem instant_congr {t : State} {p : Nat} (hstatus : t.reg (R.medLaneStatus p) = s.reg (R.medLaneStatus p))
    (hcfg : t.reg (R.medTxCfg p) = s.reg (R.medTxCfg p)) (f c e : Nat) : t.instant p f c e = s.instant p f c e := by
  have hscale : t.symScale p = s.symScale p := by rw [State.symScale, State.symScale, State.genOne, State.genOne, State.fld, State.fld, hstatus]
  have htrim : t.trim16 p = s.trim16 p := by simp only [State.trim16, State.fld, hcfg]
  rw [State.instant, State.instant, hscale, htrim]

theorem launchAt_congr {t : State} (hstatus : t.reg (R.medLaneStatus g.plane) = s.reg (R.medLaneStatus g.plane))
    (hcfg : t.reg (R.medTxCfg g.plane) = s.reg (R.medTxCfg g.plane)) (heqd : t.reg (R.ubbPlaneEqd g.plane) = s.reg (R.ubbPlaneEqd g.plane))
    (hlatched : (t.uplane g.plane).eqd = (s.uplane g.plane).eqd) : t.launchAt g = s.launchAt g := by
  simp only [State.launchAt, instant_congr hstatus hcfg, State.ubbEqd, State.fld, heqd, hlatched]

/-- A register outside the content's and GUARD_TIGHT's is the same when an entry's content is taken. -/
theorem reg_taken (s : State) (g : Grant) {a : Nat} (h : ¬ContentReg a) (h' : a ≠ R.ubbPlaneDefect g.plane) :
    (s.presentNotLead.takeEntry g).reg a = s.reg a :=
  ((changes_takeEntry _ g).reg fun _ => h').trans (Carries.refl.presentNotLead.reg h)

theorem launchAt_taken (s : State) {g : Grant} (hp : g.plane < 24) : (s.presentNotLead.takeEntry g).launchAt g = s.launchAt g := by
  have hkept : ∀ a, a = R.medLaneStatus g.plane ∨ a = R.medTxCfg g.plane ∨ a = R.ubbPlaneEqd g.plane →
      ¬ContentReg a ∧ a ≠ R.ubbPlaneDefect g.plane := by
    simp only [ContentReg, FlowReg, unitOf, offOf, R.medLaneStatus, R.medTxCfg, R.ubbPlaneEqd, R.ubbPlaneDefect, List.mem_cons, List.not_mem_nil,
      or_false]
    omega
  have hreg : ∀ a, a = R.medLaneStatus g.plane ∨ a = R.medTxCfg g.plane ∨ a = R.ubbPlaneEqd g.plane →
      (s.presentNotLead.takeEntry g).reg a = s.reg a := fun a ha => reg_taken s g (hkept a ha).1 (hkept a ha).2
  refine launchAt_congr (hreg _ (.inl rfl)) (hreg _ (.inr (.inl rfl))) (hreg _ (.inr (.inr rfl))) ?_
  rw [uplane_congr (takeEntry_ubb _ g), uplane_setUplane_same]
  show (s.presentNotLead.uplane g.plane).eqd = _
  rw [Carries.refl.presentNotLead.uplane]

theorem isLead_taken (s : State) {g : Grant} (hp : g.plane < 24) : (s.presentNotLead.takeEntry g).isLead = s.isLead := by
  have hreg : ∀ a ∈ [R.sysStraps, R.hingeStatus], (s.presentNotLead.takeEntry g).reg a = s.reg a := fun a ha => by
    simp only [List.mem_cons, List.not_mem_nil, or_false] at ha
    refine reg_taken s g ?_ ?_ <;> rcases ha with rfl | rfl <;>
      simp only [ContentReg, FlowReg, unitOf, offOf, R.sysStraps, R.hingeStatus, R.ubbPlaneDefect, List.mem_cons, List.not_mem_nil, or_false] <;> omega
  have hrole : (s.presentNotLead.takeEntry g).role = s.role := by rw [State.role, State.role, State.fld, State.fld, hreg _ (.head _)]
  rw [State.isLead, State.isLead, hrole, State.bit, State.bit, State.fld, State.fld, hreg _ (.tail _ (.head _))]

theorem dropNotLead_lead (h : s.isLead = true) (fuel : Nat) : s.dropNotLead fuel = s := by
  cases fuel with
  | zero => rfl
  | succ fuel => exact if_pos h

theorem presentNotLead_lead (h : s.isLead = true) : s.presentNotLead = s := by rw [State.presentNotLead, dropNotLead_lead h, ite_self]

/-- The burst of a REPORT or RANGE entry that meets no disposition. -/
theorem buildContent_headerOnly (s : State) {g : Grant} (hp : g.plane < 24) (hkind : g.kind = 1 ∨ g.kind = 3) :
    ∃ b, b ∈ (s.buildContent g).ubb.builds ∧ b.grants = [g] ∧ b.n = 0 ∧ b.pieces = [] ∧ b.committed = false ∧ b.launched = false ∧
      b.launch = s.launchAt g ∧ b.lead = s.isLead ∧ b.tid = s.fld R.dfpIdent F.dfpIdent_tid ∧
      (s.isLead = true → (s.buildContent g).ubb.builds = s.ubb.builds ++ [b] ∧ memKept s (s.buildContent g)) := by
  have hident : ¬ContentReg R.dfpIdent := by
    simp only [ContentReg, FlowReg, unitOf, offOf, R.dfpIdent, List.mem_cons, List.not_mem_nil, or_false]; omega
  rw [buildContent_header s hkind rfl, addBuild_builds]
  refine ⟨_, List.mem_append_right _ (.head _), rfl, rfl, rfl, rfl, rfl, launchAt_taken s hp, isLead_taken s hp,
    Carries.refl.presentNotLead.fld _ hident, fun hlead => ?_⟩
  rw [takeEntry_builds, presentNotLead_lead hlead]
  exact ⟨rfl, memKept_of_eq ((addBuild_mem _ _).trans (changes_takeEntry s g).1)⟩

/-! ## The build start of a plane -/

theorem exec_burstBuildStart (s : State) (p : Plane) : exec (.burstBuildStart p) s = .next (s.buildStart p) := rfl

theorem buildStart_life (p : Plane) (hlp : s.lpValid = true) (hrun : s.ubbRestarts = false) (hnext : s.nextEntry p = some g)
    (hplane : g.plane = p.val) (hbond : g.bonded = false) :
    g ∉ ((s.buildStart p).uplane p).entries ∧
    (∀ c, s.ownDisp g = some c → s.buildStart p = s.endEntry g c) ∧
    (s.ownDisp g = none → s.nMax g < 0 → s.buildStart p = s.endEntry g 2) ∧
    (s.ownDisp g = none → (g.kind = 1 ∨ g.kind = 3) → 0 ≤ s.nMax g → s.buildStart p = s.buildContent g) := by
  have hcontent : g.kind = 1 ∨ g.kind = 3 → 0 ≤ s.nMax g → ¬s.tooShort g := fun hkind hn => by
    rintro (h | ⟨h, -⟩) <;> omega
  refine ⟨?_, fun c h => buildStart_disposed hlp hrun hnext hbond h, fun h hn => buildStart_short hlp hrun hnext hbond h (.inl hn),
    fun h hkind hn => buildStart_content hlp hrun hnext hbond h (hcontent hkind hn)⟩
  rw [← hplane]
  cases h : s.ownDisp g with
  | some c => rw [hplane, buildStart_disposed hlp hrun hnext hbond h, ← hplane]; exact not_mem_entries_endEntry s g c
  | none =>
    by_cases hn : s.tooShort g
    · rw [hplane, buildStart_short hlp hrun hnext hbond h hn, ← hplane]; exact not_mem_entries_endEntry s g 2
    · rw [hplane, buildStart_content hlp hrun hnext hbond h hn, ← hplane]; exact not_mem_entries_buildContent s g

end Sys2Proof.Machine
end

section
/-!
SUPPORT. The commit and the launch of a burst (R48, R49, R120, R136, R137): what a launch sets on each plane, and what a burst that is
stopped leaves.
-/

namespace Sys2Proof.Machine

variable {s : State}

/-! ## Bursts on the same grants -/

theorem Carries.build_kept {t : State} (h : Carries s t) {b : Build} (hb : b ∈ s.ubb.builds) : ∃ y ∈ t.ubb.builds, y.grants = b.grants := by
  have hmem : b.grants ∈ t.ubb.builds.map (·.grants) := h.grants ▸ List.mem_map_of_mem hb
  simpa using hmem

theorem Carries.build_gone {t : State} (h : Carries s t) {b : Build} (hb : ∀ x ∈ s.ubb.builds, x.grants ≠ b.grants) : b ∉ t.ubb.builds := by
  intro hmem
  have hold : b.grants ∈ s.ubb.builds.map (·.grants) := h.grants ▸ List.mem_map_of_mem hmem
  obtain ⟨x, hx, he⟩ := List.mem_map.1 hold
  exact hb x hx he

theorem dropBuild_gone (s : State) (b : Build) : ∀ x ∈ (s.dropBuild b).ubb.builds, x.grants ≠ b.grants := fun x hx => by
  simpa using (List.mem_filter.1 hx).2

/-! ## Commit -/

theorem exec_burstCommit (s : State) (p : Plane) : exec (.burstCommit p) s = .next (s.commit p) := rfl

theorem commit_build {p : Nat} {b : Build} (h : s.buildOf p (fun x => !x.committed) = some b) :
    s.commit p = (s.commitPieces b.pieces).1.putBuild { b with pieces := (s.commitPieces b.pieces).2, committed := true } := by
  rw [State.commit, h]

/-- Parcels that ask nothing of the cipher unit go as they are. -/
theorem commitPieces_plain (s : State) {l : List Piece} (h : ∀ x ∈ l, x.req = none) : s.commitPieces l = (s, l) := by
  induction l with
  | nil => rfl
  | cons x l ih =>
    have hx : s.commitPiece x = (s, [x]) := by rw [State.commitPiece, h x (.head _)]
    rw [State.commitPieces, hx]
    dsimp only
    rw [ih fun y hy => h y (.tail _ hy)]
    rfl

theorem commit_commits {p : Plane} {b : Build} (h : s.buildOf p (fun x => !x.committed) = some b) :
    ∃ t y, exec (.burstCommit p) s = .next t ∧ y ∈ t.ubb.builds ∧ y.grants = b.grants ∧ y.committed = true ∧ y.launched = b.launched ∧
      (s.ubb.builds = [b] → (∀ x ∈ b.pieces, x.req = none) → t.ubb.builds = [{ b with committed := true }] ∧ memKept s t ∧
        regsKept s t []) := by
  obtain ⟨hb, -, -⟩ := buildOf_some h
  obtain ⟨z, hz, hgrants⟩ := (Carries.refl.commitPieces (l := b.pieces)).build_kept hb
  rw [exec_burstCommit, commit_build h]
  refine ⟨_, { b with pieces := (s.commitPieces b.pieces).2, committed := true }, rfl, mem_putBuild hz hgrants.symm, rfl, rfl, rfl,
    fun hone hplain => ?_⟩
  rw [commitPieces_plain s hplain]
  exact ⟨putBuild_single hone rfl, fun _ => rfl, fun _ _ => rfl⟩

/-! ## Events -/

/-- The registers of the counter blocks of some units. -/
abbrev EventReg (us : List Nat) (a : Nat) (_ : Fld) : Prop := unitOf a ∈ us ∧ 0xF000 ≤ offOf a

theorem Changes.event {us : List Nat} {t : State} (h : Changes (EventReg us) s t) {v code n : Nat} (hv : v ∈ us) :
    Changes (EventReg us) s (t.pmcEvent v code n) :=
  h.pmcEvent (fun _ hi => ⟨by rwa [unitOf_pmcCnt v hi], by simp only [offOf, R.pmcCnt]; omega⟩)
    fun _ _ => ⟨by rwa [unitOf_pmcCtl v], by simp only [offOf, R.pmcCtl]; omega⟩

theorem Changes.event_reg {us : List Nat} {t : State} (h : Changes (EventReg us) s t) {a : Nat} (ha : offOf a < 0xF000) : t.reg a = s.reg a :=
  h.reg fun _ he => absurd he.2 (by omega)

theorem Changes.event_units {us us' : List Nat} {t : State} (h : Changes (EventReg us) s t) (hu : us ⊆ us') :
    Changes (fun a _ => unitOf a ∈ us') s t := h.mono fun _ _ he => hu he.1

theorem offOf_medLaneStatus (p : Nat) : offOf (R.medLaneStatus p) < 0xF000 := by simp only [offOf, R.medLaneStatus]; omega

theorem unit_medLaneStatus (p : Nat) : unitOf (R.medLaneStatus p) = 0x10 + p := by simp only [unitOf, R.medLaneStatus]; omega

/-! ### The parcels of a burst -/

theorem changes_bandwidth {W : Nat → Fld → Prop} (s : State) (rx : Bool) (c n : Nat) : Changes W s (s.bandwidth rx c n) :=
  .ite (fun _ => .refl) fun _ => .ite (fun _ => (Changes.refl : Changes W s s).frame) fun _ => (Changes.refl : Changes W s s).frame

theorem bandwidth_ubb (s : State) (rx : Bool) (c n : Nat) : (s.bandwidth rx c n).ubb = s.ubb := by
  unfold State.bandwidth
  dsimp only
  split
  · rfl
  · split <;> rfl

theorem changes_parcelsSent (s : State) (b : Build) : Changes (EventReg [0xF1]) s (s.parcelsSent b) := by
  have hevents : ∀ x y z, Changes (EventReg [0xF1]) s (((s.pmcEvent 0xF1 0x12 x).pmcEvent 0xF1 0x13 y).pmcEvent 0xF1 0x15 z) := fun _ _ _ =>
    ((Changes.refl.event (.head _)).event (.head _)).event (.head _)
  unfold State.parcelsSent
  dsimp only
  split
  · exact (hevents _ _ _).trans (changes_bandwidth _ _ _ _)
  · exact hevents _ _ _

theorem parcelsSent_ubb (s : State) (b : Build) : (s.parcelsSent b).ubb = s.ubb := by
  unfold State.parcelsSent
  dsimp only
  split
  · rw [bandwidth_ubb, pmcEvent_ubb, pmcEvent_ubb, pmcEvent_ubb]
  · rw [pmcEvent_ubb, pmcEvent_ubb, pmcEvent_ubb]

/-! ## The launch on a plane -/

/-- The events of a burst's start. -/
def State.startEvents (s : State) (p stuffs slots : Nat) : State :=
  (((s.pmcEvent (0x10 + p) 1).pmcEvent (0x10 + p) 0x12 stuffs).pmcEvent 0xF1 0x10).pmcEvent 0xF1 0x11 slots

/-- The lane drives a burst that ends at `e`: MBEN active, no idle. -/
def State.driven (s : State) (p : Nat) (l : MedLane) (e : Int) : State :=
  let t := ((s.setLane p l).setBit (R.medLaneStatus p) F.medLaneStatus_mben true).setBit (R.medLaneStatus p) F.medLaneStatus_txIdle false
  t.setUplane p { t.uplane p with lastEnd := some e, req := true, lag := none }

/-- The counters of a plane's bursts, and the last burst. -/
def State.burstCounted (s : State) (p slots : Nat) (w : Word) : State :=
  ((s.count (R.ubbBursts p) F.ubbBursts_count).count (R.ubbSlots p) F.ubbSlots_count slots).setReg (R.ubbLastBurst p) w

theorem launchPlane_eq (s : State) (b : Build) (g : Grant) (k : Nat) : ∃ stuffs l w, s.launchPlane b g k =
    ((s.startEvents g.plane stuffs (b.n + 1)).driven g.plane l (b.endAt g.plane)).burstCounted g.plane (b.n + 1) w := by
  rw [State.launchPlane]
  obtain ⟨ys, scr, l⟩ := s.burstLevels b g k
  exact ⟨_, _, _, rfl⟩

theorem changes_startEvents (s : State) (p stuffs slots : Nat) : Changes (EventReg [0x10 + p, 0xF1]) s (s.startEvents p stuffs slots) :=
  (((Changes.refl.event (.head _)).event (.head _)).event (.tail _ (.head _))).event (.tail _ (.head _))

theorem startEvents_ubb (s : State) (p stuffs slots : Nat) : (s.startEvents p stuffs slots).ubb = s.ubb := by
  simp only [State.startEvents, pmcEvent_ubb]

theorem changes_driven (s : State) (p : Nat) (l : MedLane) (e : Int) : Changes (fun a _ => a = R.medLaneStatus p) s (s.driven p l e) :=
  Changes.frame (Changes.setBit (Changes.setBit (Changes.frame .refl) rfl) rfl)

theorem mben_driven (s : State) (p : Nat) (l : MedLane) (e : Int) : (s.driven p l e).bit (R.medLaneStatus p) F.medLaneStatus_mben = true :=
  (bit_setBit_field _ _ _ _ _ (by decide) (by decide) (by decide)).trans (bit_setBit_same _ _ _ _ rfl (by decide))

theorem txIdle_driven (s : State) (p : Nat) (l : MedLane) (e : Int) : (s.driven p l e).bit (R.medLaneStatus p) F.medLaneStatus_txIdle = false :=
  bit_setBit_same _ _ _ _ rfl (by decide)

/-- The registers that count a plane's bursts. -/
abbrev burstRegs (p : Nat) : List Nat := [R.ubbBursts p, R.ubbSlots p, R.ubbLastBurst p]

theorem changes_burstCounted (s : State) (p slots : Nat) (w : Word) : Changes (fun a _ => a ∈ burstRegs p) s (s.burstCounted p slots w) :=
  ((Changes.refl.count (.head _)).count (.tail _ (.head _))).setReg (.tail _ (.tail _ (.head _)))

theorem unitOf_burstRegs {p a : Nat} (hp : p < 24) (h : a ∈ burstRegs p) : unitOf a = 0xF1 ∧ offOf a < 0xF000 := by
  simp only [unitOf, offOf, burstRegs, R.ubbBursts, R.ubbSlots, R.ubbLastBurst, List.mem_cons, List.not_mem_nil, or_false] at h ⊢
  omega

theorem medLaneStatus_not_mem_burstRegs (p q : Nat) : R.medLaneStatus q ∉ burstRegs p := by
  simp only [burstRegs, R.medLaneStatus, R.ubbBursts, R.ubbSlots, R.ubbLastBurst, List.mem_cons, List.not_mem_nil, or_false]
  omega

theorem medLaneStatus_ne_of_burstRegs {p a : Nat} (h : a ∈ burstRegs p) : a ≠ R.medLaneStatus p := by
  rintro rfl
  exact medLaneStatus_not_mem_burstRegs p p h

theorem launchPlane_ubb (s : State) (b : Build) (g : Grant) (k : Nat) : (s.launchPlane b g k).ubb =
    (s.setUplane g.plane { s.uplane g.plane with lastEnd := some (b.endAt g.plane), req := true, lag := none }).ubb := by
  obtain ⟨stuffs, l, w, h⟩ := launchPlane_eq s b g k
  have hubb := startEvents_ubb s g.plane stuffs (b.n + 1)
  rw [h, State.burstCounted, setReg_ubb, count_ubb, count_ubb]
  simp only [State.driven, State.setUplane, State.uplane, State.setLane, setBit_ubb, hubb]

theorem launchPlane_builds (s : State) (b : Build) (g : Grant) (k : Nat) : (s.launchPlane b g k).ubb.builds = s.ubb.builds := by
  rw [launchPlane_ubb]
  rfl

/-- What shows that a burst is on its way on plane `q`. -/
def State.sends (t : State) (b : Build) (q : Nat) : Prop :=
  t.bit (R.medLaneStatus q) F.medLaneStatus_mben = true ∧ t.bit (R.medLaneStatus q) F.medLaneStatus_txIdle = false ∧
    (t.uplane q).lastEnd = some (b.endAt q)

theorem launchPlane_sends (s : State) (b : Build) (g : Grant) (k : Nat) {q : Nat} (h : s.sends b q ∨ g.plane = q) : (s.launchPlane b g k).sends b q := by
  obtain ⟨stuffs, l, w, heq⟩ := launchPlane_eq s b g k
  have hcounted : ∀ f, (s.launchPlane b g k).bit (R.medLaneStatus q) f =
      ((s.startEvents g.plane stuffs (b.n + 1)).driven g.plane l (b.endAt g.plane)).bit (R.medLaneStatus q) f := fun f => by
    rw [heq, (changes_burstCounted _ g.plane _ w).bit fun _ hg => absurd hg (medLaneStatus_not_mem_burstRegs _ q)]
  rw [State.sends, hcounted, hcounted, uplane_congr (launchPlane_ubb s b g k)]
  by_cases hq : g.plane = q
  · subst hq
    rw [uplane_setUplane_same]
    exact ⟨mben_driven .., txIdle_driven .., rfl⟩
  · have hbit : ∀ f, ((s.startEvents g.plane stuffs (b.n + 1)).driven g.plane l (b.endAt g.plane)).bit (R.medLaneStatus q) f =
        s.bit (R.medLaneStatus q) f := fun f => by
      rw [(changes_driven _ _ l _).bit fun _ hg => absurd (medLaneStatus_inj.1 hg) (Ne.symm hq), State.bit, State.fld,
        (changes_startEvents s _ _ _).event_reg (offOf_medLaneStatus q)]
      rfl
    rw [hbit, hbit, uplane_setUplane_other _ _ (Ne.symm hq)]
    exact h.resolve_right hq

section
variable {g : Grant} (hp : g.plane < 24)
include hp

theorem changes_launchPlane (s : State) (b : Build) (k : Nat) : Changes (fun a _ => unitOf a ∈ [0x10 + g.plane, 0xF1]) s (s.launchPlane b g k) := by
  obtain ⟨stuffs, l, w, h⟩ := launchPlane_eq s b g k
  rw [h]
  refine .trans (((changes_startEvents s g.plane stuffs _).event_units (List.Subset.refl _)).trans ((changes_driven _ _ l _).mono ?_))
    ((changes_burstCounted _ _ _ w).mono ?_)
  · rintro a - rfl
    rw [unit_medLaneStatus]
    exact .head _
  · intro a _ ha
    rw [(unitOf_burstRegs hp ha).1]
    exact .tail _ (.head _)

theorem launchPlane_counted (s : State) (b : Build) (k : Nat) : counted s (s.launchPlane b g k) (R.ubbBursts g.plane) F.ubbBursts_count ∧
    counted s (s.launchPlane b g k) (R.ubbSlots g.plane) F.ubbSlots_count (b.n + 1) := by
  obtain ⟨stuffs, l, w, heq⟩ := launchPlane_eq s b g k
  generalize hu : (s.startEvents g.plane stuffs (b.n + 1)).driven g.plane l (b.endAt g.plane) = u at heq
  have hkept : ∀ a ∈ burstRegs g.plane, u.reg a = s.reg a := fun a ha => by
    rw [← hu, (changes_driven _ _ l _).reg fun _ => medLaneStatus_ne_of_burstRegs ha,
      (changes_startEvents s _ _ _).event_reg (unitOf_burstRegs hp ha).2]
  rw [heq]
  constructor
  · refine counted_count (u := u) (by rw [State.fld, State.fld, hkept _ (.head _)]) ?_ (by decide) (by decide)
    rw [State.burstCounted, fld_setReg_other _ _ _ (by simp only [R.ubbBursts, R.ubbLastBurst]; omega),
      fld_count_other _ _ _ _ (by simp only [R.ubbBursts, R.ubbSlots]; omega)]
  · refine counted_count (u := u.count (R.ubbBursts g.plane) F.ubbBursts_count) ?_ ?_ (by decide) (by decide)
    · rw [fld_count_other _ _ _ _ (by simp only [R.ubbBursts, R.ubbSlots]; omega), State.fld, State.fld, hkept _ (.tail _ (.head _))]
    · rw [State.burstCounted, fld_setReg_other _ _ _ (by simp only [R.ubbSlots, R.ubbLastBurst]; omega)]

end

theorem launchPlanes_cons (s : State) (b : Build) (k : Nat) (g : Grant) (l : List Grant) :
    s.launchPlanes b k (g :: l) = (s.launchPlane b g k).launchPlanes b (k + 1) l := by rw [State.launchPlanes]

theorem launchPlanes_one (s : State) (b : Build) (k : Nat) (g : Grant) : s.launchPlanes b k [g] = s.launchPlane b g k := by
  rw [launchPlanes_cons, State.launchPlanes]

theorem launchPlanes_sends {b : Build} {l : List Grant} {s : State} {q : Nat} (k : Nat) (hq : s.sends b q ∨ ∃ g ∈ l, g.plane = q) :
    (s.launchPlanes b k l).sends b q := by
  induction l generalizing s k with
  | nil => exact hq.resolve_right (by simp)
  | cons g l ih =>
    rw [launchPlanes_cons]
    refine ih (k + 1) ?_
    rcases hq with hs | ⟨x, hx, he⟩
    · exact .inl (launchPlane_sends s b g k (.inl hs))
    · rcases List.mem_cons.1 hx with rfl | hx
      · exact .inl (launchPlane_sends s b x k (.inr he))
      · exact .inr ⟨x, hx, he⟩

theorem launchPlanes_builds (s : State) (b : Build) (k : Nat) (l : List Grant) : (s.launchPlanes b k l).ubb.builds = s.ubb.builds := by
  induction l generalizing s k with
  | nil => rfl
  | cons g l ih => rw [launchPlanes_cons, ih, launchPlane_builds]

theorem launchPlanes_mem {b : Build} {l : List Grant} (h : ∀ g ∈ l, g.plane < 24) (s : State) (k : Nat) : (s.launchPlanes b k l).mem = s.mem := by
  induction l generalizing s k with
  | nil => rfl
  | cons g l ih => rw [launchPlanes_cons, ih fun x hx => h x (.tail _ hx), (changes_launchPlane (h g (.head _)) s b k).1]

/-- A burst on one plane is counted there. -/
theorem launch_counted {b : Build} {g : Grant} (hg : b.grants = [g]) (hp : g.plane < 24) {t : State}
    (ht : t = (s.parcelsSent b).launchPlanes b 0 b.grants) : counted s t (R.ubbBursts g.plane) F.ubbBursts_count ∧
      counted s t (R.ubbSlots g.plane) F.ubbSlots_count (b.n + 1) ∧ unitsKept s t [0x10 + g.plane, 0xF1] := by
  have hparcels : ∀ a ∈ burstRegs g.plane, (s.parcelsSent b).reg a = s.reg a := fun a ha =>
    (changes_parcelsSent s b).event_reg (unitOf_burstRegs hp ha).2
  obtain ⟨hbursts, hslots⟩ := launchPlane_counted hp (s.parcelsSent b) b 0
  rw [counted, State.fld, State.fld, hparcels _ (.head _)] at hbursts
  rw [counted, State.fld, State.fld, hparcels _ (.tail _ (.head _))] at hslots
  have hunits := ((changes_parcelsSent s b).event_units (us' := [0x10 + g.plane, 0xF1]) (by simp)).trans
    (changes_launchPlane hp (s.parcelsSent b) b 0)
  rw [ht, hg, launchPlanes_one]
  exact ⟨hbursts, hslots, hunits.unitsKept⟩

/-! ## The launch of a burst -/

theorem exec_burstLaunch (s : State) (p : Plane) : exec (.burstLaunch p) s = .next (s.launch p) := rfl

section
variable {p : Plane} {b : Build} (hrun : s.ubbRestarts = false) (hb : s.buildOf p (fun x => !x.launched) = some b) (hcommitted : b.committed = true)
include hrun hb hcommitted

theorem launch_sent (hstop : ∀ g ∈ b.grants, s.launchStop b g = none) (hbad : s.badStart b = none) :
    s.launch p = ((s.parcelsSent b).launchPlanes b 0 b.grants).putBuild { b with launched := true } := by
  have hany : b.grants.any (fun g => (s.launchStop b g).isSome) = false := List.any_eq_false.2 fun g hg => by simp [hstop g hg]
  simp only [State.launch, hb, hrun, hcommitted, hany, hbad, Bool.not_true, Bool.false_eq_true, if_false]

theorem launch_sends (hplanes : ∀ g ∈ b.grants, g.plane < 24) (hstop : ∀ g ∈ b.grants, s.launchStop b g = none) (hbad : s.badStart b = none) :
    ∃ t : State, exec (.burstLaunch p) s = .next t ∧ { b with launched := true } ∈ t.ubb.builds ∧
      (∀ g ∈ b.grants, t.bit (R.medLaneStatus g.plane) F.medLaneStatus_mben = true ∧
        t.bit (R.medLaneStatus g.plane) F.medLaneStatus_txIdle = false ∧
        (t.uplane g.plane).lastEnd = some (b.endAt g.plane)) ∧ memKept s t ∧
      (∀ g, b.grants = [g] → counted s t (R.ubbBursts g.plane) F.ubbBursts_count ∧
        counted s t (R.ubbSlots g.plane) F.ubbSlots_count (b.n + 1) ∧ unitsKept s t [0x10 + g.plane, 0xF1]) := by
  obtain ⟨hmem, -, -⟩ := buildOf_some hb
  have hbuilds : ((s.parcelsSent b).launchPlanes b 0 b.grants).ubb.builds = s.ubb.builds := by rw [launchPlanes_builds, parcelsSent_ubb]
  have hsends : ∀ g ∈ b.grants, ((s.parcelsSent b).launchPlanes b 0 b.grants).sends b g.plane := fun g hg =>
    launchPlanes_sends 0 (.inr ⟨g, hg, rfl⟩)
  have hmemory := (launchPlanes_mem (b := b) hplanes (s.parcelsSent b) 0).trans (changes_parcelsSent s b).1
  have halone := fun g (hg : b.grants = [g]) => launch_counted (s := s) hg (hplanes g (hg ▸ .head _)) rfl
  rw [exec_burstLaunch, launch_sent hrun hb hcommitted hstop hbad]
  generalize (s.parcelsSent b).launchPlanes b 0 b.grants = t at hbuilds hsends hmemory halone ⊢
  exact ⟨_, rfl, mem_putBuild (b := b) (hbuilds ▸ hmem) rfl, hsends, memKept_of_eq hmemory, halone⟩

end

/-! ## A burst that is stopped -/

theorem launchStop_disposition {b : Build} {g : Grant} {c : Nat} (h : s.launchStop b g = some c) : c = 7 ∨ c = 8 ∨ c = 9 := by
  have hcases : s.launchStop b g = none ∨ s.launchStop b g = some 7 ∨ s.launchStop b g = some 8 ∨ s.launchStop b g = some 9 := by
    unfold State.launchStop
    extract_lets l late
    split_ifs
    · exact .inr (.inl rfl)
    · exact .inr (.inr (.inl rfl))
    · exact .inr (.inr (.inr rfl))
    · exact .inl rfl
  rw [h] at hcases
  simpa using hcases

theorem launch_stopped {p : Plane} {b : Build} (hrun : s.ubbRestarts = false) (hb : s.buildOf p (fun x => !x.launched) = some b)
    (hcommitted : b.committed = true) {g : Grant} (hg : b.grants = [g]) {c : Nat} (hstop : s.launchStop b g = some c) :
    s.launch p = s.failBuild b (fun g => (s.launchStop b g).getD 8) 6 := by
  have hany : b.grants.any (fun g => (s.launchStop b g).isSome) = true := by rw [hg]; simp [hstop]
  simp only [State.launch, hb, hrun, hcommitted, hany, Bool.not_true, Bool.false_eq_true, if_false, if_true]

/-- The disposition of a burst on one plane, which then comes to rest. -/
def State.burstStopped (s : State) (b : Build) (p c : Nat) : State :=
  (((s.dropBuild b).bdisp c).bdefect p c).restPlane p (b.line p).leadAt

/-- The cipher requests of a burst's parcels are withdrawn. -/
def State.reqsDropped (s : State) (b : Build) : State := b.pieces.foldl (fun s x => match x.req with | some n => s.dropReq n | none => s) s

theorem failBuild_alone (s : State) {b : Build} {g : Grant} (hg : b.grants = [g]) {disp : Grant → Nat} (h : disp g ≠ 15) (code : Nat) :
    s.failBuild b disp code = ((s.burstStopped b g.plane (disp g)).reqsDropped b).loseContent b code := by
  have hlost : ∀ t : State, t.burstLost g (disp g) = t := fun t => if_neg h
  simp only [State.failBuild, hg, List.foldl_cons, List.foldl_nil, hlost]
  rfl

theorem Carries.reqsDropped {t : State} (h : Carries s t) (b : Build) : Carries s (t.reqsDropped b) := h.foldl fun t x ht => by
  split
  · exact ht.dropReq
  · exact ht

theorem changes_restPlane (s : State) (p : Nat) (e : Int) : Changes (fun a _ => a = R.medLaneStatus p) s (s.restPlane p e) := by
  unfold State.restPlane
  refine .ite (fun _ => .refl) fun _ => ?_
  split
  · exact Changes.setBit (Changes.frame .refl) rfl
  · exact changes_stopPlane s p

theorem restPlane_builds (s : State) (p : Nat) (e : Int) : (s.restPlane p e).ubb.builds = s.ubb.builds := by
  unfold State.restPlane
  split
  · rfl
  · split <;> rfl

theorem restPlane_stops {p : Nat} {e : Int} (hjoin : s.joins p e = false) (hlag : (s.uplane p).lag = none) : s.restPlane p e = s.stopPlane p := by
  unfold State.restPlane
  rw [hlag, if_neg (by rw [hjoin]; decide)]

section
variable {b : Build} {p c : Nat} (hc : c < 16)

theorem burstStopped_builds (s : State) (b : Build) (p c : Nat) : (s.burstStopped b p c).ubb.builds = (s.dropBuild b).ubb.builds := by
  rw [State.burstStopped, restPlane_builds, bdefect_ubb, bdisp_ubb]

include hc in
theorem counted_burstStopped (s : State) (b : Build) (p : Nat) : counted s (s.burstStopped b p c) (R.ubbBdispCount c) F.ubbBdispCount_count := by
  have hne : R.ubbBdispCount c ≠ R.medLaneStatus p := by simp only [R.ubbBdispCount, R.medLaneStatus]; omega
  rw [counted, State.burstStopped, (changes_restPlane _ p _).fld fun _ hg => absurd hg hne]
  exact counted_bdefect_bdisp (s.dropBuild b) p hc

include hc in
theorem changes_burstStopped (s : State) (b : Build) (hp : p < 24) : Changes (fun a _ => unitOf a ∈ [0x10 + p, 0xF1]) s (s.burstStopped b p c) :=
  ((changes_bdefect_bdisp (s.dropBuild b) hp hc).mono fun _ _ ha => .tail _ ha).trans
    ((changes_restPlane _ p _).mono fun _ _ ha => by rw [ha, unit_medLaneStatus]; exact .head _)

theorem mben_burstStopped (hone : s.ubb.builds = [b]) (hlag : (s.uplane p).lag = none) :
    (s.burstStopped b p c).bit (R.medLaneStatus p) F.medLaneStatus_mben = false := by
  have hubb : (((s.dropBuild b).bdisp c).bdefect p c).ubb = (s.dropBuild b).ubb := by rw [bdefect_ubb, bdisp_ubb]
  rw [State.burstStopped, restPlane_stops (joins_of_no_build (by rw [hubb]; exact dropBuild_single hone) _ _)
    (by rw [uplane_congr hubb]; exact hlag)]
  exact mben_stopPlane _ p

end

theorem launch_stops {p : Plane} {b : Build} (hrun : s.ubbRestarts = false) (hb : s.buildOf p (fun x => !x.launched) = some b)
    (hcommitted : b.committed = true) {g : Grant} (hp : g.plane < 24) {c : Nat} (hg : b.grants = [g]) (hstop : s.launchStop b g = some c) :
    ∃ t : State, exec (.burstLaunch p) s = .next t ∧ b ∉ t.ubb.builds ∧ counted s t (R.ubbBdispCount c) F.ubbBdispCount_count ∧
      (s.ubb.builds = [b] → b.pieces = [] → c ≠ 15 → memKept s t ∧ unitsKept s t [0x10 + g.plane, 0xF1] ∧
        ((s.uplane g.plane).lag = none → t.bit (R.medLaneStatus g.plane) F.medLaneStatus_mben = false)) := by
  have hc := launchStop_disposition hstop
  have hdisp : (s.launchStop b g).getD 8 = c := by rw [hstop]; rfl
  have hcontent : Carries (s.burstStopped b g.plane c) (((s.burstStopped b g.plane c).reqsDropped b).loseContent b 6) :=
    (Carries.refl.reqsDropped b).loseContent (by decide)
  rw [exec_burstLaunch, launch_stopped hrun hb hcommitted hg hstop, failBuild_alone s hg (by rw [hdisp]; omega), hdisp]
  refine ⟨_, rfl, hcontent.build_gone ?_, ?_, fun hone hpieces _ => ?_⟩
  · rw [burstStopped_builds]
    exact dropBuild_gone s b
  · rw [counted, hcontent.fld _ (not_contentReg_ubbBdispCount (by omega))]
    exact counted_burstStopped (by omega) s b g.plane
  · have hnone : ((s.burstStopped b g.plane c).reqsDropped b).loseContent b 6 = s.burstStopped b g.plane c := by
      rw [loseContent_eq, State.reqsDropped, hpieces]
      rfl
    have hchanges := changes_burstStopped (by omega : c < 16) s b hp
    rw [hnone]
    exact ⟨hchanges.memKept, hchanges.unitsKept, mben_burstStopped hone⟩

end Sys2Proof.Machine
end

section
/-!
SUPPORT. The end of a burst and of its MBEN lag (R48, R49, R137); O15 is settled here.
-/

namespace Sys2Proof.Machine

variable {s : State}

theorem exec_burstEnd (s : State) (p : Plane) : exec (.burstEnd p) s = .next (s.endBurst p) := rfl

/-- An instant inside the union, or a line position that does not run, is no violation. -/
theorem overrun_false {a e : Int} {l : List (Int × Int)} (h : s.lpValid = false ∨ e ≤ unionEnd l 400 a) :
    ¬(s.lpValid && decide (unionEnd l 400 a < e)) = true := by
  rcases h with h | h
  · simp [h]
  · simp [Int.not_lt.2 h]

/-! ## The driver at rest -/

theorem testDrives_kept {t : State} {p : Nat} (hcfg : t.reg (R.medLaneCfg p) = s.reg (R.medLaneCfg p))
    (htest : t.reg (R.medTest p) = s.reg (R.medTest p)) (hlock : t.med.txLock = s.med.txLock) (hwait : t.med.txWait = s.med.txWait) :
    t.testDrives p = s.testDrives p := by
  have hloop : t.loopback p = s.loopback p := by rw [State.loopback, State.loopback, State.fld, State.fld, htest]
  simp only [State.testDrives, hloop, State.patGen, State.bit, State.fld, hcfg, htest, hlock, hwait]

theorem changes_driverRest (s : State) (p : Nat) :
    Changes (fun a f => (a, f) = (R.medLaneStatus p, F.medLaneStatus_txIdle)) s (s.driverRest p) := Changes.setBit (Changes.frame .refl) rfl

theorem driverRest_ubb (s : State) (p : Nat) : (s.driverRest p).ubb = s.ubb := setBit_ubb ..

theorem txIdle_driverRest (s : State) (p : Nat) : (s.driverRest p).bit (R.medLaneStatus p) F.medLaneStatus_txIdle = !s.testDrives p :=
  bit_setBit_same _ _ _ _ rfl (by decide)

theorem txIdle_stopPlane (s : State) (p : Nat) : (s.stopPlane p).bit (R.medLaneStatus p) F.medLaneStatus_txIdle = !s.testDrives p :=
  (bit_setBit_field _ _ _ _ _ (by decide) (by decide) (by decide)).trans (txIdle_driverRest _ p)

/-! ## The end of a burst on a plane -/

/-- A plane leaves its burst, which ends with its last plane. -/
def State.planeLeft (s : State) (b : Build) (p : Nat) : State :=
  let gs := b.grants.filter (fun x => x.plane != p)
  if gs = [] then s.dropBuild b
  else { s with ubb := { s.ubb with builds := s.ubb.builds.map (fun x => if x.grants = b.grants then { b with grants := gs } else x) } }

/-- The burst is SENT on a plane, and its content with its last plane. -/
def State.burstClosed (s : State) (b : Build) (p : Nat) : State :=
  let t := ((s.bdisp 0).pmcEvent (0x10 + p) 2).planeLeft b p
  if b.grants.filter (fun x => x.plane != p) = [] && !b.cut then t.contentSent b else t

/-- The lag of a burst runs from its end. -/
def State.lagBegun (s : State) (b : Build) (p : Nat) : State :=
  s.setUplane p { s.uplane p with lag := some ((b.line p).leadAt, b.endAt p + 16 * ((b.line p).lag : Int)) }

/-- What the lane sends after a burst: the next burst, the fill of a gap that ends by `e`, or nothing. -/
def State.afterBurst (s : State) (p : Nat) (e : Int) : State :=
  if (s.buildOf p (·.launched)).isSome then s
  else if s.joins p e then s.setLane p { s.lane p with fill := true }
  else s.driverRest p

theorem endBurst_sent {p : Nat} {b : Build} (hb : s.buildOf p (·.launched) = some b)
    (h : s.lpValid = false ∨ b.endAt p ≤ unionEnd (s.permitsOf p) 400 (b.line p).leadAt) :
    s.endBurst p = ((s.burstClosed b p).lagBegun b p).afterBurst p (b.endAt p + 16 * ((b.line p).lag : Int)) := by
  rw [State.endBurst, hb]
  exact if_neg (overrun_false h)

theorem planeLeft_regs (s : State) (b : Build) (p : Nat) : (s.planeLeft b p).regs = s.regs := by
  unfold State.planeLeft
  dsimp only
  split <;> rfl

theorem burstClosed_carries (s : State) (b : Build) (p : Nat) :
    Carries (((s.bdisp 0).pmcEvent (0x10 + p) 2).planeLeft b p) (s.burstClosed b p) :=
  .ite (fun _ => Carries.refl.contentSent) fun _ => .refl

section
variable (b : Build) (p : Nat)

theorem reg_burstClosed (s : State) {a : Nat} (h : ¬ContentReg a) (ho : offOf a < 0xF000) : (s.burstClosed b p).reg a = (s.bdisp 0).reg a := by
  rw [(burstClosed_carries s b p).reg h, reg_of_regs (planeLeft_regs _ b p), reg_pmcEvent_low _ _ _ _ ho]

theorem counted_burstClosed (s : State) : counted s (s.burstClosed b p) (R.ubbBdispCount 0) F.ubbBdispCount_count := by
  rw [counted, State.fld, reg_burstClosed b p s (not_contentReg_ubbBdispCount (by decide)) (by decide)]
  exact counted_bdisp s (by decide)

theorem medLaneStatus_burstClosed (s : State) {p : Nat} (hp : p < 24) :
    (s.burstClosed b p).reg (R.medLaneStatus p) = s.reg (R.medLaneStatus p) := by
  rw [reg_burstClosed b p s (not_contentReg_medLaneStatus hp) (offOf_medLaneStatus p)]
  exact reg_bdisp_other s (by simp only [R.medLaneStatus, R.ubbBdispCount]; omega) (offOf_medLaneStatus p)

end

theorem changes_afterBurst (s : State) (p : Nat) (e : Int) :
    Changes (fun a f => (a, f) = (R.medLaneStatus p, F.medLaneStatus_txIdle)) s (s.afterBurst p e) :=
  .ite (fun _ => .refl) fun _ => .ite (fun _ => Changes.frame .refl) fun _ => changes_driverRest s p

theorem afterBurst_ubb (s : State) (p : Nat) (e : Int) : (s.afterBurst p e).ubb = s.ubb := by
  unfold State.afterBurst
  split
  · rfl
  · split
    · rfl
    · exact driverRest_ubb s p

/-- With no burst left the lane comes to rest. -/
theorem afterBurst_rest {p : Nat} {e : Int} (h : s.ubb.builds = []) : s.afterBurst p e = s.driverRest p := by
  have hnone : s.buildOf p (·.launched) = none := by rw [State.buildOf, h]; rfl
  rw [State.afterBurst, hnone, joins_of_no_build h]
  rfl

/-- The last plane of the one burst under build, which carries nothing. -/
theorem burstClosed_alone {b : Build} {p : Nat} (hall : b.grants.all (fun g => g.plane == p) = true) (hpieces : b.pieces = []) :
    s.burstClosed b p = ((s.bdisp 0).pmcEvent (0x10 + p) 2).dropBuild b := by
  have hgs : b.grants.filter (fun x => x.plane != p) = [] :=
    List.filter_eq_nil_iff.2 fun x hx => by simpa using List.all_eq_true.1 hall x hx
  have hcontent : ∀ t : State, t.contentSent b = t := fun t => by rw [State.contentSent, hpieces]; rfl
  have hleft : ∀ t : State, t.planeLeft b p = t.dropBuild b := fun t => if_pos hgs
  rw [State.burstClosed, hcontent, ite_self, hleft]

theorem endBurst_alone {b : Build} {p : Nat} (hp : p < 24) (hone : s.ubb.builds = [b]) (hall : b.grants.all (fun g => g.plane == p) = true)
    (hpieces : b.pieces = []) (e : Int) {t : State} (ht : t = ((s.burstClosed b p).lagBegun b p).afterBurst p e) :
    t.ubb.builds = [] ∧ t.bit (R.medLaneStatus p) F.medLaneStatus_txIdle = (!s.testDrives p) ∧ memKept s t ∧
      unitsKept s t [0x10 + p, 0xF1] := by
  generalize hu : (s.burstClosed b p).lagBegun b p = u at ht
  have hclosed : ((s.bdisp 0).pmcEvent (0x10 + p) 2).dropBuild b = s.burstClosed b p := (burstClosed_alone hall hpieces).symm
  have hbuilds : u.ubb.builds = [] := by
    rw [← hu, ← hclosed]
    exact dropBuild_single (by rw [pmcEvent_ubb, bdisp_ubb, hone])
  have hmed : u.med = s.med := by
    have hevents : ((s.bdisp 0).pmcEvent (0x10 + p) 2).med = s.med := by rw [pmcEvent_med, bdisp_med]
    rw [← hu, ← hclosed]
    exact hevents
  have hreg : ∀ a, a = R.medLaneCfg p ∨ a = R.medTest p → u.reg a = s.reg a := fun a ha => by
    have hkept : ¬ContentReg a ∧ offOf a < 0xF000 ∧ a ≠ R.ubbBdispCount 0 := by
      simp only [ContentReg, FlowReg, unitOf, offOf, R.medLaneCfg, R.medTest, R.ubbBdispCount, List.mem_cons, List.not_mem_nil, or_false] at ha ⊢
      omega
    rw [← hu]
    exact (reg_burstClosed b p s hkept.1 hkept.2.1).trans (reg_bdisp_other s hkept.2.2 hkept.2.1)
  have hunits : Changes (fun a _ => unitOf a ∈ [0x10 + p, 0xF1]) s u := by
    rw [← hu, ← hclosed]
    exact ((Changes.refl.bdispUnit (.tail _ (.head _)) (by decide)).unitEvent (.head _)).frame
  rw [afterBurst_rest hbuilds] at ht
  have hrest : Changes (fun a _ => unitOf a ∈ [0x10 + p, 0xF1]) s t := hunits.trans (ht ▸ (changes_driverRest u p).mono fun a f ha => by
    rw [(Prod.mk.inj ha).1, unit_medLaneStatus]
    exact .head _)
  refine ⟨?_, ?_, hrest.memKept, hrest.unitsKept⟩
  · rw [ht, driverRest_ubb, hbuilds]
  · rw [ht, txIdle_driverRest, testDrives_kept (hreg _ (.inl rfl)) (hreg _ (.inr rfl)) (by rw [hmed]) (by rw [hmed])]

theorem endBurst_ends {p : Plane} {b : Build} (hb : s.buildOf p (·.launched) = some b)
    (h : s.lpValid = false ∨ b.endAt p ≤ unionEnd (s.permitsOf p) 400 (b.line p).leadAt) :
    ∃ t : State, exec (.burstEnd p) s = .next t ∧ counted s t (R.ubbBdispCount 0) F.ubbBdispCount_count ∧
      (t.uplane p).lag = some ((b.line p).leadAt, b.endAt p + 16 * ((b.line p).lag : Int)) ∧
      t.bit (R.medLaneStatus p) F.medLaneStatus_mben = s.bit (R.medLaneStatus p) F.medLaneStatus_mben ∧
      (s.ubb.builds = [b] → b.on p = true → b.grants.all (fun g => g.plane == p.val) = true → b.pieces = [] → t.ubb.builds = [] ∧
        t.bit (R.medLaneStatus p) F.medLaneStatus_txIdle = (!s.testDrives p) ∧ memKept s t ∧ unitsKept s t [0x10 + p.val, 0xF1]) := by
  have hafter := changes_afterBurst ((s.burstClosed b p).lagBegun b p) p (b.endAt p + 16 * ((b.line p).lag : Int))
  rw [exec_burstEnd, endBurst_sent hb h]
  refine ⟨_, rfl, ?counted, ?lag, ?mben, fun hone _ hall hpieces => endBurst_alone p.isLt hone hall hpieces _ rfl⟩
  case counted =>
    have hne : R.ubbBdispCount 0 ≠ R.medLaneStatus p := by simp only [R.ubbBdispCount, R.medLaneStatus]; omega
    rw [counted, hafter.fld fun _ hg => absurd (congrArg Prod.fst hg) hne]
    exact counted_burstClosed b p s
  case lag =>
    rw [uplane_congr (afterBurst_ubb _ p _), State.lagBegun, uplane_setUplane_same]
  case mben =>
    rw [hafter.bit fun _ hg => by rw [(Prod.mk.inj hg).2]; decide]
    exact congrArg (fun w : Word => bitsOf w.toNat 7 7 != 0) (medLaneStatus_burstClosed b s p.isLt)

/-! ## The end of a lag -/

/-- A plane's lag is over. -/
def State.lagOver (s : State) (p : Nat) : State := s.setUplane p { s.uplane p with lag := none }

theorem endBurst_lag {p : Nat} {a e : Int} (hb : s.buildOf p (·.launched) = none) (hlag : (s.uplane p).lag = some (a, e))
    (h : s.lpValid = false ∨ e ≤ unionEnd (s.permitsOf p) 400 a) :
    s.endBurst p = if s.joins p e then s.lagOver p else (s.lagOver p).stopPlane p := by
  rw [State.endBurst, hb, hlag]
  exact if_neg (overrun_false h)

theorem endBurst_lagEnds {p : Plane} {a e : Int} (hb : s.buildOf p (·.launched) = none) (hlag : (s.uplane p).lag = some (a, e))
    (h : s.lpValid = false ∨ e ≤ unionEnd (s.permitsOf p) 400 a) :
    ∃ t : State, exec (.burstEnd p) s = .next t ∧ (t.uplane p).lag = none ∧
      (s.joins p e = false → t.bit (R.medLaneStatus p) F.medLaneStatus_mben = false ∧
        t.bit (R.medLaneStatus p) F.medLaneStatus_txIdle = (!s.testDrives p)) ∧
      (s.joins p e = true → t.bit (R.medLaneStatus p) F.medLaneStatus_mben = s.bit (R.medLaneStatus p) F.medLaneStatus_mben) ∧
      t.ubb.builds = s.ubb.builds ∧ memKept s t ∧ regsKept s t [R.medLaneStatus p] := by
  rw [exec_burstEnd, endBurst_lag hb hlag h]
  refine ⟨_, rfl, ?_⟩
  cases s.joins p e with
  | true =>
    refine ⟨?_, fun hj => Bool.noConfusion hj, fun _ => rfl, rfl, fun _ => rfl, fun _ _ => rfl⟩
    exact congrArg UbbPlane.lag (uplane_setUplane_same s p { s.uplane p with lag := none })
  | false =>
    have hchanges : Changes (fun a _ => a ∈ [R.medLaneStatus p]) s ((s.lagOver p).stopPlane p) :=
      (changes_stopPlane (s.lagOver p) p).mono fun _ _ ha => List.mem_singleton.2 ha
    refine ⟨?_, fun _ => ⟨mben_stopPlane _ p, txIdle_stopPlane _ p⟩, fun hj => Bool.noConfusion hj, rfl, hchanges.memKept, hchanges.regsKept⟩
    exact congrArg UbbPlane.lag (uplane_setUplane_same (s.lagOver p) p { (s.lagOver p).uplane p with req := false, lag := none })

/-! ## The life of an entry -/

/-- Settles O15: build, commit, launch and end of a burst, as stated above. -/
theorem grantEntryLifeOfABurst : Obligations.GrantEntryLifeOfABurst := by
  refine fun s p => ⟨fun g hlp hrun hnext hplane hbond => ?_, fun _ => commit_commits,
    fun b hrun hb hcommitted hplanes => ⟨launch_sends hrun hb hcommitted hplanes, fun g c hg =>
      launch_stops hrun hb hcommitted (hplanes g (hg ▸ .head _)) hg⟩, fun _ => endBurst_ends, fun _ _ => endBurst_lagEnds⟩
  have hp : g.plane < 24 := hplane ▸ p.isLt
  obtain ⟨hgone, hdisposed, hshort, hheader⟩ := buildStart_life p hlp hrun hnext hplane hbond
  rw [exec_burstBuildStart]
  refine ⟨⟨_, rfl, hgone⟩, fun c h => ⟨_, rfl, ?_⟩, fun h hn => ⟨_, rfl, ?_⟩, fun h hkind hn => ?_⟩
  · rw [hdisposed c h]
    exact endEntry_ends s hp (ownDisp_lt h)
  · rw [hshort h hn]
    exact endEntry_ends s hp (by decide)
  · rw [hheader h hkind hn]
    obtain ⟨b, hb⟩ := buildContent_headerOnly s hp hkind
    exact ⟨_, b, rfl, hb⟩

end Sys2Proof.Machine
end

section
/-!
SUPPORT. A hub message at its application point (R158, R159, R168, R580): what the judgement of a message leaves and when it applies it; O18 is
settled here.
-/

namespace Sys2Proof.Machine

variable (s : State) (m : Msg)

/-! ## The message arrives -/

/-- The message is taken from its queue and the line position stands at the application point. -/
def State.arrived (s : State) (m : Msg) : State := (s.takeMsg m).toPoint

/-- Reaching the application point changes the time alone. -/
theorem toPoint_keep {γ : Type} (g : State → γ) (h : ∀ t : State, ∀ x, g { t with time := x } = g t) : g s.toPoint = g s := by
  unfold State.toPoint
  split
  · exact h _ _
  · rfl

@[simp] theorem arrived_regs : (s.arrived m).regs = s.regs := toPoint_keep _ State.regs fun _ _ => rfl
@[simp] theorem arrived_mem : (s.arrived m).mem = s.mem := toPoint_keep _ State.mem fun _ _ => rfl
@[simp] theorem arrived_enrol : (s.arrived m).enrol = s.enrol := toPoint_keep _ State.enrol fun _ _ => rfl
@[simp] theorem arrived_ubb : (s.arrived m).ubb = s.ubb := toPoint_keep _ State.ubb fun _ _ => rfl
@[simp] theorem arrived_dfp : (s.arrived m).dfp = { s.dfp with msgq := s.dfp.msgq.erase m } := toPoint_keep _ State.dfp fun _ _ => rfl

@[simp] theorem arrived_frame : (s.arrived m).time.frame = s.time.frame := by
  unfold State.arrived State.toPoint
  split <;> rfl

@[simp] theorem reg_arrived (a : Nat) : (s.arrived m).reg a = s.reg a := reg_of_regs (arrived_regs s m) a
@[simp] theorem fld_arrived (a : Nat) (f : Fld) : (s.arrived m).fld a f = s.fld a f := by rw [State.fld, State.fld, reg_arrived]
@[simp] theorem under_arrived : (s.arrived m).under = s.under := fld_arrived ..
@[simp] theorem termState_arrived : (s.arrived m).termState = s.termState := fld_arrived ..
@[simp] theorem planeState_arrived (p : Nat) : (s.arrived m).planeState p = s.planeState p := planeState_congr (reg_arrived ..) (reg_arrived ..) p
@[simp] theorem eplane_arrived (p : Nat) : (s.arrived m).eplane p = s.eplane p := by rw [State.eplane, State.eplane, arrived_enrol]
@[simp] theorem aligned_arrived (p : Nat) : (s.arrived m).aligned p = s.aligned p := aligned_congr (reg_arrived ..)

theorem changes_arrived {W : Nat → Fld → Prop} : Changes W s (s.arrived m) := ⟨arrived_mem s m, fun a _ _ => by rw [reg_arrived]⟩

/-! ## The judgement -/

section
variable {s m} {t n : Nat} {other : Option (State → State)} {stopped okState okValue okPlane : Bool} {apply : State → State}

/-- At its application point the message is taken and judged. -/
theorem judge_atPoint (h : s.atPoint m t) : s.judge m t n other stopped okState okValue okPlane apply =
    (s.arrived m).verdict m n other stopped okState okValue okPlane apply := by
  obtain ⟨hturn, hlate⟩ := h
  simp only [State.judge, hturn, hlate, Bool.not_true, Bool.false_eq_true, if_false]
  rfl

theorem verdict_short (h : m.body.length < n) : s.verdict m n other stopped okState okValue okPlane apply = s.countShort := if_pos h

/-- A message of full length that names another terminal. -/
theorem verdict_other {f : State → State} (h : n ≤ m.body.length) :
    s.verdict m n (some f) stopped okState okValue okPlane apply = f s := if_neg (by omega)

/-- A value out of its range. -/
theorem verdict_badValue (h : n ≤ m.body.length) (hrun : stopped = false ∨ s.termState ≠ 8) (hstate : okState = true) (hvalue : okValue = false) :
    s.verdict m n none stopped okState okValue okPlane apply = s.badValue := by
  have hstop : ¬(stopped && s.termState == 8) = true := by
    rcases hrun with h | h <;> simp [h]
  unfold State.verdict
  rw [if_neg (by omega)]
  dsimp only
  rw [if_neg hstop, if_neg (by rw [hstate]; decide), if_pos (by rw [hvalue]; decide)]

theorem verdict_applied (h : n ≤ m.body.length) (hrun : stopped = false ∨ s.termState ≠ 8) (hstate : okState = true) (hvalue : okValue = true)
    (hplane : okPlane = true) : s.verdict m n none stopped okState okValue okPlane apply = apply s := by
  have hstop : ¬(stopped && s.termState == 8) = true := by
    rcases hrun with h | h <;> simp [h]
  unfold State.verdict
  rw [if_neg (by omega)]
  dsimp only
  rw [if_neg hstop, if_neg (by rw [hstate]; decide), if_neg (by rw [hvalue]; decide), if_neg (by rw [hplane]; decide)]

/-- A message of full length at its application point, whose state, values and plane are as they should be, is applied. -/
theorem judge_applied (hpoint : s.atPoint m t) (h : n ≤ m.body.length) (hrun : stopped = false ∨ s.termState ≠ 8) (hstate : okState = true)
    (hvalue : okValue = true) (hplane : okPlane = true) :
    s.judge m t n none stopped okState okValue okPlane apply = apply (s.arrived m) :=
  (judge_atPoint hpoint).trans (verdict_applied h (hrun.imp_right (termState_arrived s m ▸ ·)) hstate hvalue hplane)

/-- One with a value out of its range is not. -/
theorem judge_badValue (hpoint : s.atPoint m t) (h : n ≤ m.body.length) (hrun : stopped = false ∨ s.termState ≠ 8) (hstate : okState = true)
    (hvalue : okValue = false) : s.judge m t n none stopped okState okValue okPlane apply = (s.arrived m).badValue :=
  (judge_atPoint hpoint).trans (verdict_badValue h (hrun.imp_right (termState_arrived s m ▸ ·)) hstate hvalue)

end

/-- A message that is only counted changes the counter's register alone. -/
theorem arrived_count {f : Fld} (a : Nat) (hf : f.lo ≤ f.hi) (hf' : f.hi < 64) : counted s ((s.arrived m).count a f) a f ∧
    memKept s ((s.arrived m).count a f) ∧ regsKept s ((s.arrived m).count a f) [a] := by
  have hchanges : Changes (fun b _ => b ∈ [a]) s ((s.arrived m).count a f) := (changes_arrived s m).count (.head _)
  exact ⟨counted_count (fld_arrived ..) rfl hf hf', hchanges.memKept, hchanges.regsKept⟩

/-! ## A late message -/

theorem exec_lateApply_late (hturn : s.turnOf m (msgType m) = true) (hlate : s.time.frame ≥ m.frame + 2) :
    exec (.lateApply m) s = .next ((s.takeMsg m).count R.sysMediumCounts F.sysMediumCounts_lateApply) := by
  have hboth : (s.turnOf m (msgType m) && s.lateFor m) = true := by
    rw [hturn, State.lateFor, decide_eq_true hlate]
    rfl
  exact congrArg Host.Outcome.next (if_pos hboth)

/-- Settles O18: the count is the one field of the registers that differs, the queue the one part outside them. -/
theorem lateMessageIsOnlyCounted : Obligations.LateMessageIsOnlyCounted := by
  intro s m hturn hlate
  have hchanges : Changes (fieldsOf [(R.sysMediumCounts, F.sysMediumCounts_lateApply)]) s
      ((s.takeMsg m).count R.sysMediumCounts F.sysMediumCounts_lateApply) := Changes.count (Changes.frame .refl) (.head _)
  refine ⟨_, exec_lateApply_late s m hturn hlate, fld_count_same (s.takeMsg m) _ _ _ (by decide) (by decide), ?_, ?_, rfl, rfl⟩
  · refine Changes.regsKept (hchanges.mono fun a f hf => ?_)
    cases List.mem_singleton.1 hf
    exact .head _
  · intro i j _ _ happart
    refine hchanges.fld fun g hg => ?_
    cases List.mem_singleton.1 hg
    exact happart.symm

end Sys2Proof.Machine
end

section
/-!
SUPPORT. The base program's operations on the terminal and its planes (R163 to R165, R186, R189, R474): which fields each of them changes.
`Beside p s t` says that plane `p` stands in `t` as in `s`; a fold over the planes is, for one of them, its own step between such steps.
-/

namespace Sys2Proof.Machine

variable {W : Nat → Fld → Prop} {s t u : State}

/-! ## The state of the terminal -/

theorem under_setTerm (s : State) {n : Nat} (hn : n < 16) : (s.setTerm n).under = n :=
  (fld_setFld_field _ R.sysTermState F.sysTermState_state F.sysTermState_under _ (by decide) (by decide) (by decide)).trans <|
    (fld_setFld_same _ _ _ _ (by decide) (by decide)).trans (Nat.mod_eq_of_lt hn)

theorem termState_setTerm (s : State) {n : Nat} (hn : n < 16) : (s.setTerm n).termState = if n = 8 then 8 else if s.locked then 7 else n := by
  refine (fld_setFld_same _ R.sysTermState F.sysTermState_state _ (by decide) (by decide)).trans (Nat.mod_eq_of_lt ?_)
  show _ < 16
  split_ifs <;> omega

theorem under_lt (s : State) : s.under < 16 := bitsOf_lt _ _ _

/-- The two states of SYS.TERM_STATE. -/
abbrev TermFld (a : Nat) (f : Fld) : Prop := a = R.sysTermState ∧ (f = F.sysTermState_under ∨ f = F.sysTermState_state)

theorem Changes.setTerm (h : Changes W s t) {n : Nat} (hw : ∀ f, TermFld R.sysTermState f → W R.sysTermState f) : Changes W s (t.setTerm n) :=
  (h.setFld (hw _ ⟨rfl, .inl rfl⟩)).setFld (hw _ ⟨rfl, .inr rfl⟩)

/-! ## The timing plane -/

/-- The timing plane is chosen again in two registers of TIME. -/
theorem Changes.retimeStatus (h : Changes W s t) {b : Bool} (hw : ∀ a ∈ [R.timeStatus, R.timeRefStatus], ∀ f, W a f) : Changes W s (t.retime b) := by
  have hstatus := hw R.timeStatus (.head _)
  have href := hw R.timeRefStatus (.tail _ (.head _))
  have hcode : ∀ {u : State} {c}, Changes W s u → Changes W s (u.setCode c) := fun h => .ite (fun _ => h) fun _ => (h.setFld (hstatus _)).frame
  refine .ite (fun _ => h) fun _ => ?_
  dsimp only
  split
  case h_1 p _ =>
    have hswitch : Changes W s (t.switchTiming p) := (((h.setFld (href _)).setFld (href _)).setBit (href _)).count (href _)
    refine Changes.setBit (Changes.frame (.ite (fun _ => hcode ?_) fun _ => ?_)) (href _)
    all_goals exact (Changes.ite (fun _ => h) fun _ => hswitch).setBit (hstatus _)
  case h_2 =>
    have hnone := (h.setBit (b := true) (href F.timeRefStatus_none)).setBit (b := true) (hstatus F.timeStatus_flywheel)
    exact Changes.setBit (.ite (fun _ => hcode hnone) fun _ => hnone) (href _)

theorem retime_enrol (s : State) (b : Bool) : (s.retime b).enrol = s.enrol := by
  have hcode : ∀ (t : State) c, (t.setCode c).enrol = t.enrol := fun t c => by unfold State.setCode; split <;> rfl
  have hswitch : ∀ (t : State) p, (t.switchTiming p).enrol = t.enrol := fun _ _ => rfl
  simp only [State.retime]
  split
  · rfl
  · split <;> simp only [setBit_enrol, apply_ite State.enrol, hcode, hswitch, ite_self]

/-! ## The fields of a plane -/

/-- The field of a plane's state (R189). -/
def stateFld (p : Nat) : Nat × Fld :=
  if p < 16 then (R.sysPlaneState0, ⟨3 * p + 2, 3 * p⟩) else (R.sysPlaneState1, ⟨3 * (p - 16) + 2, 3 * (p - 16)⟩)

theorem planeState_eq (s : State) (p : Nat) : s.planeState p = s.fld (stateFld p).1 (stateFld p).2 := by
  unfold State.planeState stateFld
  split <;> rfl

theorem setPlaneState_eq (s : State) (p v : Nat) : s.setPlaneState p v = s.setFld (stateFld p).1 (stateFld p).2 v := by
  unfold State.setPlaneState stateFld
  split <;> rfl

/-- PERMIT, both copies of EQD, GROUPS and the round trip. -/
def planeRegs (p : Nat) : List Nat := [R.ubbPlaneCtl p, R.ubbPlaneEqd p, R.wardPlaneEqd p, R.ubbPlaneGroups p, R.timePlaneRtd p]

/-- The fields of a plane. -/
def PlaneFld (p a : Nat) (f : Fld) : Prop := a ∈ planeRegs p ∨ (a, f) = stateFld p

/-- The registers of the terminal as a whole that its steps change: of SYS, of the id, of the timing plane, and HINGE. -/
def TermOnly (a : Nat) : Prop :=
  unitOf a = 0x97 ∨ a ∈ [R.sysTermState, R.sysMediumCounts, R.sysRejectCounts, R.dfpIdent, R.timeStatus, R.timeRefStatus]

/-- Where the fields of planes lie. -/
theorem planeFld_place {p a : Nat} {f : Fld} (hp : p < 24) (h : PlaneFld p a f) : a = R.sysPlaneState0 ∨ a = R.sysPlaneState1 ∨
    (0xF100001000 ≤ a ∧ a < 0xF100002000) ∨ (0x9C00000100 ≤ a ∧ a < 0x9C000001C0) ∨ (0x500000100 ≤ a ∧ a < 0x5000001C0) := by
  rcases h with h | h
  · simp only [planeRegs, List.mem_cons, List.not_mem_nil, or_false, R.ubbPlaneCtl, R.ubbPlaneEqd, R.wardPlaneEqd, R.ubbPlaneGroups,
      R.timePlaneRtd] at h
    omega
  · unfold stateFld at h
    split at h <;> cases h
    · exact .inl rfl
    · exact .inr (.inl rfl)

theorem not_planeFld_of_termOnly {p a : Nat} (hp : p < 24) (h : TermOnly a) (f : Fld) : ¬PlaneFld p a f := by
  intro hf
  have hplace := planeFld_place hp hf
  simp only [TermOnly, unitOf, R.sysTermState, R.sysMediumCounts, R.sysRejectCounts, R.dfpIdent, R.timeStatus, R.timeRefStatus, R.sysPlaneState0,
    R.sysPlaneState1, List.mem_cons, List.not_mem_nil, or_false] at h hplace
  omega

theorem stateFld_ne_planeRegs (p q : Nat) : (stateFld p).1 ∉ planeRegs q := by
  unfold stateFld planeRegs
  split <;>
    · simp only [List.mem_cons, List.not_mem_nil, or_false, R.ubbPlaneCtl, R.ubbPlaneEqd, R.wardPlaneEqd, R.ubbPlaneGroups, R.timePlaneRtd,
        R.sysPlaneState0, R.sysPlaneState1]
      omega

theorem planeRegs_apart {p q a : Nat} (hp : p < 24) (hq : q < 24) (h : a ∈ planeRegs p) (h' : a ∈ planeRegs q) : p = q := by
  simp only [planeRegs, List.mem_cons, List.not_mem_nil, or_false, R.ubbPlaneCtl, R.ubbPlaneEqd, R.wardPlaneEqd, R.ubbPlaneGroups,
    R.timePlaneRtd] at h h'
  omega

theorem stateFld_apart {p q : Nat} (h : q ≠ p) (ha : (stateFld q).1 = (stateFld p).1) :
    (stateFld p).2.hi < (stateFld q).2.lo ∨ (stateFld q).2.hi < (stateFld p).2.lo := by
  unfold stateFld at ha ⊢
  split at ha <;> split at ha <;> simp only [R.sysPlaneState0, R.sysPlaneState1] at ha <;> simp only [*, if_true, if_false] <;> omega

/-! ## The rules of a plane's fields -/

/-- A set of fields that holds those of plane `p`. -/
theorem Changes.setPermit (h : Changes W s t) {p v : Nat} (hw : ∀ a f, PlaneFld p a f → W a f) : Changes W s (t.setPermit p v) :=
  h.setFld (hw _ _ (.inl (.head _)))

theorem Changes.setEqd (h : Changes W s t) {p v : Nat} (hw : ∀ a f, PlaneFld p a f → W a f) : Changes W s (t.setEqd p v) :=
  (h.setFld (hw _ _ (.inl (.tail _ (.head _))))).setFld (hw _ _ (.inl (.tail _ (.tail _ (.head _)))))

theorem Changes.moveTo (h : Changes W s t) {p v : Nat} (hw : ∀ a f, PlaneFld p a f → W a f) : Changes W s (t.setPlaneState p v) := by
  rw [setPlaneState_eq]
  exact h.setFld (hw _ _ (.inr rfl))

theorem Changes.setGroups (h : Changes W s t) {p : Nat} {v : Word} (hw : ∀ a f, PlaneFld p a f → W a f) :
    Changes W s (t.setReg (R.ubbPlaneGroups p) v) := h.setReg (hw _ _ (.inl (.tail _ (.tail _ (.tail _ (.head _))))))

theorem rtd_mem_planeRegs (p : Nat) : R.timePlaneRtd p ∈ planeRegs p := .tail _ (.tail _ (.tail _ (.tail _ (.head _))))

/-- The fields of a plane, and those in which the timing plane is chosen again. -/
def PlaneOp (p a : Nat) (f : Fld) : Prop := PlaneFld p a f ∨ a ∈ [R.timeStatus, R.timeRefStatus]

theorem Changes.setRtd (h : Changes W s t) {p rtd : Nat} (hw : ∀ a f, PlaneOp p a f → W a f) : Changes W s (t.setRtd p rtd) :=
  (h.setReg (hw _ _ (.inl (.inl (rtd_mem_planeRegs p))))).retimeStatus fun _ ha _ => hw _ _ (.inr ha)

/-- A plane's round trip is valid no longer. -/
def State.dropRtd (s : State) (p : Nat) : State :=
  if s.rtdValid p then (s.setBit (R.timePlaneRtd p) F.timePlaneRtd_valid false).retime false else s

theorem Changes.dropRtd (h : Changes W s t) {p : Nat} (hw : ∀ a f, PlaneOp p a f → W a f) : Changes W s (t.dropRtd p) :=
  .ite (fun _ => (h.setBit (hw _ _ (.inl (.inl (rtd_mem_planeRegs p))))).retimeStatus fun _ ha _ => hw _ _ (.inr ha)) fun _ => h

/-- The settings of a plane that PLANE_RELEASE clears, before its round trip. -/
def State.emptied (s : State) (p : Nat) : State := (((s.setPermit p 0).setEqd p 0).setReg (R.ubbPlaneGroups p) 0).setEplane p {}

theorem releaseTo_eq (s : State) (p st : Nat) : s.releaseTo p st = ((s.emptied p).dropRtd p).setPlaneState p st := rfl

/-- A plane whose T_RANGE has expired, before its round trip is dropped. -/
def State.unranged (s : State) (p : Nat) : State := (((s.setPermit p 0).setEqd p 0).setEplane p {}).setPlaneState p 2

theorem Changes.releaseTo (h : Changes W s t) {p st : Nat} (hw : ∀ a f, PlaneOp p a f → W a f) : Changes W s (t.releaseTo p st) := by
  have hplane : ∀ a f, PlaneFld p a f → W a f := fun a f h => hw a f (.inl h)
  have hemptied : Changes W s (t.emptied p) := Changes.frame (((h.setPermit hplane).setEqd hplane).setGroups hplane)
  exact (hemptied.dropRtd hw).moveTo hplane

theorem Changes.rangeOut (h : Changes W s t) {p : Nat} (hw : ∀ a f, PlaneOp p a f → W a f) : Changes W s (t.rangeOut p) := by
  have hplane : ∀ a f, PlaneFld p a f → W a f := fun a f h => hw a f (.inl h)
  have hset : Changes W s (((t.setPermit p 0).setEqd p 0).setEplane p {}) := Changes.frame ((h.setPermit hplane).setEqd hplane)
  exact (hset.moveTo hplane).dropRtd hw

/-! ## The lead and the id -/

/-- A change of lead keeps what no register, event, upstream queue, PTP port or state of the twin is part of. -/
theorem setLead_keep {γ : Type} (g : State → γ) (hreg : ∀ (t : State) l, g { t with regs := l } = g t)
    (hframe : ∀ (t : State) e ub ti, g { t with edges := e, ubb := ub, time := ti } = g t) (s : State) (b : Bool) : g (s.setLead b) = g s := by
  have hlatch : ∀ (t : State) a f, g (t.latch a f) = g t := fun t a f => by
    unfold State.latch
    split
    · rfl
    · exact (hframe (t.setFld a f 1) _ _ _).trans (hreg t _)
  have hmove : ∀ t : State, g t.ptpMove = g t := fun t => by
    refine foldl_keep g _ (fun t k => ?_) _ t
    split
    · rfl
    · exact hframe t _ _ _
  have hmoved : g (((s.setBit R.hingeStatus F.hingeStatus_lead b).latch R.hingeStatus F.hingeStatus_leadChg).count R.hingeCounts0
      F.hingeCounts0_leadChanges).ptpMove = g s := ((hmove _).trans (hreg _ _)).trans ((hlatch _ _ _).trans (hreg _ _))
  unfold State.setLead
  split
  · rfl
  · dsimp only
    split
    · exact (hreg _ _).trans ((hframe _ _ _ _).trans hmoved)
    · exact (hframe _ _ _ _).trans hmoved

theorem writeTid_keep {γ : Type} (g : State → γ) (hreg : ∀ (t : State) l, g { t with regs := l } = g t)
    (hframe : ∀ (t : State) e ub ti, g { t with edges := e, ubb := ub, time := ti } = g t) (htwin : ∀ (t : State) x, g { t with twin := x } = g t)
    (s : State) (tid : Nat) : g (s.writeTid tid) = g s := by
  unfold State.writeTid
  dsimp only
  split
  · exact (setLead_keep g hreg hframe _ _).trans ((htwin _ _).trans (hreg _ _))
  · exact hreg _ _

@[simp] theorem writeTid_enrol (s : State) (tid : Nat) : (s.writeTid tid).enrol = s.enrol :=
  writeTid_keep State.enrol (fun _ _ => rfl) (fun _ _ _ _ => rfl) (fun _ _ => rfl) s tid

@[simp] theorem writeTid_dfp (s : State) (tid : Nat) : (s.writeTid tid).dfp = s.dfp :=
  writeTid_keep State.dfp (fun _ _ => rfl) (fun _ _ _ _ => rfl) (fun _ _ => rfl) s tid

theorem Changes.setLead (h : Changes W s t) {b : Bool} (hw : ∀ a f, unitOf a = 0x97 → W a f) : Changes W s (t.setLead b) := by
  have hstatus := hw R.hingeStatus
  have hcount := ((h.setBit (b := b) (hstatus F.hingeStatus_lead (by decide))).latch (hstatus F.hingeStatus_leadChg (by decide))).count
    (n := 1) (hw R.hingeCounts0 F.hingeCounts0_leadChanges (by decide))
  have hmoved := hcount.foldl (f := fun t k => if t.ptpPort k = .disabled then t else t.ptpEnable k) (l := List.range 96)
    fun _ _ _ h => .ite (fun _ => h) fun _ => h.frame
  exact .ite (fun _ => h) fun _ => .ite (fun _ => Changes.count hmoved.frame (hw _ _ (by decide))) fun _ => hmoved.frame

theorem Changes.writeTid (h : Changes W s t) {tid : Nat} (hi : W R.dfpIdent F.dfpIdent_tid) (hw : ∀ a f, unitOf a = 0x97 → W a f) :
    Changes W s (t.writeTid tid) :=
  .ite (fun _ => Changes.setLead (h.setFld hi).frame hw) fun _ => h.setFld hi

theorem tid_writeTid (s : State) {tid : Nat} (h : tid < 2 ^ 10) : (s.writeTid tid).fld R.dfpIdent F.dfpIdent_tid = tid := by
  have hset : (s.setFld R.dfpIdent F.dfpIdent_tid tid).fld R.dfpIdent F.dfpIdent_tid = tid :=
    (fld_setFld_same _ _ _ _ (by decide) (by decide)).trans (Nat.mod_eq_of_lt h)
  have hlead : ∀ {u : State} {x}, u.fld R.dfpIdent F.dfpIdent_tid = tid →
      ({ u with twin := x }.setLead false).fld R.dfpIdent F.dfpIdent_tid = tid := fun hu =>
    ((Changes.setLead (W := fun a _ => unitOf a = 0x97) (Changes.frame .refl) fun _ _ h => h).fld fun _ hg => absurd hg (by decide)).trans hu
  unfold State.writeTid
  dsimp only
  split
  · exact hlead hset
  · exact hset

/-! ## One plane among all -/

/-- A fold over distinct elements is, for one of them, its own step between those of the others. -/
theorem foldl_between {α β : Type} {f : β → α → β} {O : β → β → Prop} (hrefl : ∀ b, O b b) (htrans : ∀ {a b c}, O a b → O b c → O a c)
    {l : List α} (hnodup : l.Nodup) {p : α} (hp : p ∈ l) (hstep : ∀ b, ∀ q ∈ l, q ≠ p → O b (f b q)) (b : β) :
    ∃ u, O b u ∧ O (f u p) (l.foldl f b) := by
  obtain ⟨l₁, l₂, rfl⟩ := List.append_of_mem hp
  have hapart := List.nodup_middle.1 hnodup
  have hne : ∀ q ∈ l₁ ++ l₂, q ≠ p := fun q hq h => (List.nodup_cons.1 hapart).1 (h ▸ hq)
  have hpart : ∀ l, l ⊆ l₁ ++ l₂ → ∀ b, O b (l.foldl f b) := fun l hl b =>
    List.foldlRecOn (motive := O b) l f (hrefl b) fun c hc q hq => htrans hc
      (hstep c q (by have := hl hq; simp only [List.mem_append, List.mem_cons] at this ⊢; tauto) (hne q (hl hq)))
  rw [List.foldl_append, List.foldl_cons]
  exact ⟨_, hpart l₁ (List.subset_append_left ..) b, hpart l₂ (List.subset_append_right ..) _⟩

/-- The fields of the other planes, and the registers of the terminal as a whole. -/
def BesideFld (p a : Nat) (f : Fld) : Prop := (∃ q, q < 24 ∧ q ≠ p ∧ PlaneFld q a f) ∨ TermOnly a

theorem besideFld_of_planeOp {p q a : Nat} {f : Fld} (hq : q < 24) (h : q ≠ p) : PlaneOp q a f → BesideFld p a f := by
  rintro (hf | ha)
  · exact .inl ⟨q, hq, h, hf⟩
  · simp only [List.mem_cons, List.not_mem_nil, or_false] at ha
    rcases ha with rfl | rfl <;> exact .inr (.inr (by decide))

/-- Plane `p` stands in `t` as in `s`. -/
structure Beside (p : Nat) (s t : State) : Prop where
  changes : Changes (BesideFld p) s t
  eplane : t.eplane p = s.eplane p

namespace Beside

variable {p : Nat}

@[refl] theorem refl : Beside p s s := ⟨.refl, rfl⟩

theorem trans (h : Beside p s t) (h' : Beside p t u) : Beside p s u := ⟨h.changes.trans h'.changes, h'.eplane.trans h.eplane⟩

theorem reg (h : Beside p s t) (hp : p < 24) {a : Nat} (ha : a ∈ planeRegs p) : t.reg a = s.reg a := by
  refine h.changes.reg fun f hf => ?_
  rcases hf with ⟨q, hq, hne, hf | hf⟩ | hterm
  · exact hne (planeRegs_apart hq hp hf ha)
  · exact stateFld_ne_planeRegs q p (by rw [← hf]; exact ha)
  · exact not_planeFld_of_termOnly hp hterm f (.inl ha)

theorem fld (h : Beside p s t) (hp : p < 24) {a : Nat} (f : Fld) (ha : a ∈ planeRegs p) : t.fld a f = s.fld a f := by
  rw [State.fld, State.fld, h.reg hp ha]

theorem planeState (h : Beside p s t) (hp : p < 24) : t.planeState p = s.planeState p := by
  rw [planeState_eq, planeState_eq]
  refine h.changes.fld fun g hg => ?_
  rcases hg with ⟨q, hq, hne, hf | hf⟩ | hterm
  · exact absurd hf (stateFld_ne_planeRegs p q)
  · have haddr : (stateFld q).1 = (stateFld p).1 := (congrArg Prod.fst hf).symm
    have hfield : g = (stateFld q).2 := congrArg Prod.snd hf
    exact hfield ▸ stateFld_apart hne haddr
  · exact absurd (.inr rfl) (not_planeFld_of_termOnly hp hterm (stateFld p).2)

end Beside

/-! ## The values in a plane's fields -/

section
variable (s : State) (p : Nat)

theorem eplane_congr (h : t.enrol = s.enrol) : t.eplane p = s.eplane p := by rw [State.eplane, State.eplane, h]

@[simp] theorem eplane_setEplane_same (e : EnrolPlane) : (s.setEplane p e).eplane p = e := by simp [State.eplane, State.setEplane]

theorem eplane_setEplane_other {q : Nat} (h : q ≠ p) (e : EnrolPlane) : (s.setEplane p e).eplane q = s.eplane q := by
  simp [State.eplane, State.setEplane, h]

theorem permit_setPermit {v : Nat} (hv : v < 4) : (s.setPermit p v).fld (R.ubbPlaneCtl p) F.ubbPlaneCtl_permit = v :=
  (fld_setFld_same _ _ _ _ (by decide) (by decide)).trans (Nat.mod_eq_of_lt hv)

theorem wardEqd_setEqd (v : Nat) : (s.setEqd p v).fld (R.wardPlaneEqd p) F.wardPlaneEqd_eqd = v % 2 ^ 32 :=
  fld_setFld_same _ _ _ _ (by decide) (by decide)

theorem ubbEqd_setEqd (v : Nat) : (s.setEqd p v).fld (R.ubbPlaneEqd p) F.ubbPlaneEqd_eqd = v % 2 ^ 32 :=
  (fld_setFld_other _ _ _ _ (by simp only [R.ubbPlaneEqd, R.wardPlaneEqd]; omega)).trans (fld_setFld_same _ _ _ _ (by decide) (by decide))

theorem reg_setEqd_other (v : Nat) {a : Nat} (h : a ∉ [R.ubbPlaneEqd p, R.wardPlaneEqd p]) : (s.setEqd p v).reg a = s.reg a := by
  simp only [List.mem_cons, List.not_mem_nil, or_false, not_or] at h
  exact (reg_setFld_other _ _ _ h.2).trans (reg_setFld_other _ _ _ h.1)

theorem reg_dropRtd {a : Nat} (h : a ∉ [R.timePlaneRtd p, R.timeStatus, R.timeRefStatus]) : (s.dropRtd p).reg a = s.reg a := by
  have hc : Changes (fun a _ => a ∈ [R.timePlaneRtd p, R.timeStatus, R.timeRefStatus]) s (s.dropRtd p) :=
    .ite (fun _ => (Changes.refl.setBit (.head _)).retimeStatus fun _ ha _ => .tail _ ha) fun _ => .refl
  exact hc.reg fun _ => h

theorem dropRtd_enrol : (s.dropRtd p).enrol = s.enrol := by
  unfold State.dropRtd
  split
  · exact retime_enrol _ _
  · rfl

theorem dropRtd_dfp : (s.dropRtd p).dfp = s.dfp := by
  unfold State.dropRtd
  split
  · exact retime_dfp _ _
  · rfl

end

end Sys2Proof.Machine
end

section
/-!
SUPPORT. The terminal's steps and a plane's release (R163 to R165, R186): what each leaves of a plane, and the plane that is released; O20 is
settled here.
-/

namespace Sys2Proof.Machine

variable {W : Nat → Fld → Prop} {s t u : State} {p : Nat}

/-! ## Queued messages -/

/-- A message queued is a change of the UBB alone. -/
theorem upPost_keep {γ : Type} (g : State → γ) (h : ∀ (t : State) x, g { t with ubb := x } = g t) (s : State) (env : BitVec 64) (body : List Byte)
    (mark : Nat) : g (s.upPost env body mark).1 = g s := by
  unfold State.upPost
  split
  · rfl
  · exact h _ _

@[simp] theorem stateReport_regs (s : State) : s.stateReport.regs = s.regs := upPost_keep State.regs (fun _ _ => rfl) ..
@[simp] theorem stateReport_mem (s : State) : s.stateReport.mem = s.mem := upPost_keep State.mem (fun _ _ => rfl) ..
@[simp] theorem stateReport_enrol (s : State) : s.stateReport.enrol = s.enrol := upPost_keep State.enrol (fun _ _ => rfl) ..
@[simp] theorem stateReport_dfp (s : State) : s.stateReport.dfp = s.dfp := upPost_keep State.dfp (fun _ _ => rfl) ..

theorem under_stateReport (s : State) : s.stateReport.under = s.under := by
  rw [State.under, State.under, State.fld, State.fld, reg_of_regs (stateReport_regs s)]

theorem Changes.stateReport (h : Changes W s t) : Changes W s t.stateReport :=
  h.trans ⟨stateReport_mem t, fun a _ _ => by rw [reg_of_regs (stateReport_regs t)]⟩

/-! ## The fields of the base program -/

/-- The fields of all planes, and the registers of the terminal as a whole. -/
def BaseFld (a : Nat) (f : Fld) : Prop := (∃ q, q < 24 ∧ PlaneFld q a f) ∨ TermOnly a

theorem baseFld_of_beside {a : Nat} {f : Fld} : BesideFld p a f → BaseFld a f := Or.imp_left fun ⟨q, hq, _, h⟩ => ⟨q, hq, h⟩

theorem baseFld_of_planeOp {a : Nat} {f : Fld} (hp : p < 24) : PlaneOp p a f → BaseFld a f := by
  rintro (h | h)
  · exact .inl ⟨p, hp, h⟩
  · simp only [List.mem_cons, List.not_mem_nil, or_false] at h
    rcases h with rfl | rfl <;> exact .inr (.inr (by decide))

/-- Where they lie. -/
theorem baseFld_place {a : Nat} {f : Fld} (h : BaseFld a f) : a ∈ [R.sysPlaneState0, R.sysPlaneState1, R.sysTermState, R.sysMediumCounts,
    R.sysRejectCounts, R.dfpIdent] ∨ (0xF100001000 ≤ a ∧ a < 0xF100002000) ∨ (0x9C00000100 ≤ a ∧ a < 0x9C000001C0) ∨ unitOf a = 5 ∨
    unitOf a = 0x97 := by
  rcases h with ⟨q, hq, h⟩ | h
  · have hplace := planeFld_place hq h
    simp only [R.sysPlaneState0, R.sysPlaneState1, List.mem_cons, unitOf] at hplace ⊢
    omega
  · simp only [TermOnly, R.sysTermState, R.sysMediumCounts, R.sysRejectCounts, R.dfpIdent, R.timeStatus, R.timeRefStatus, R.sysPlaneState0,
      R.sysPlaneState1, List.mem_cons, List.not_mem_nil, or_false, unitOf] at h ⊢
    omega

theorem not_baseFld_of_lane {a : Nat} {f : Fld} (h : 0x1000000000 ≤ a ∧ a < 0x3000000000) : ¬BaseFld a f := by
  intro hf
  have hplace := baseFld_place hf
  simp only [R.sysPlaneState0, R.sysPlaneState1, R.sysTermState, R.sysMediumCounts, R.sysRejectCounts, R.dfpIdent, List.mem_cons,
    List.not_mem_nil, or_false, unitOf] at hplace
  omega

theorem not_baseFld_medLaneCfg (p : Plane) (f : Fld) : ¬BaseFld (R.medLaneCfg p) f :=
  not_baseFld_of_lane (by have := p.isLt; simp only [R.medLaneCfg]; omega)

theorem not_baseFld_dfpPlaneStatus (p : Plane) (f : Fld) : ¬BaseFld (R.dfpPlaneStatus p) f := by
  intro hf
  have hplace := baseFld_place hf
  have := p.isLt
  simp only [R.sysPlaneState0, R.sysPlaneState1, R.sysTermState, R.sysMediumCounts, R.sysRejectCounts, R.dfpIdent, R.dfpPlaneStatus,
    List.mem_cons, List.not_mem_nil, or_false, unitOf] at hplace
  omega

theorem not_baseFld_wardStatus (f : Fld) : ¬BaseFld R.wardStatus f := by
  intro hf
  have hplace := baseFld_place hf
  simp only [R.sysPlaneState0, R.sysPlaneState1, R.sysTermState, R.sysMediumCounts, R.sysRejectCounts, R.dfpIdent, R.wardStatus,
    List.mem_cons, List.not_mem_nil, or_false, unitOf] at hplace
  omega

theorem aligned_base (h : Changes BaseFld s t) (p : Plane) : t.aligned p = s.aligned p := aligned_congr (h.reg (not_baseFld_dfpPlaneStatus p))

theorem anyPlane_congr {f g : Nat → Bool} (h : ∀ p : Plane, f p = g p) : anyPlane f = anyPlane g := by
  rw [anyPlane, anyPlane, Bool.eq_iff_iff, List.any_eq_true, List.any_eq_true]
  exact exists_congr fun q => and_congr_right fun hq => by rw [h ⟨q, List.mem_range.1 hq⟩]

theorem anyPlane_of {f : Nat → Bool} (p : Plane) (h : f p = true) : anyPlane f = true := List.any_eq_true.2 ⟨p, mem_planes p, h⟩

theorem anyPlane_none {f : Nat → Bool} (h : ∀ p : Plane, f p = false) : anyPlane f = false := by
  refine List.any_eq_false.2 fun q hq => ?_
  rw [h ⟨q, List.mem_range.1 hq⟩]
  decide

theorem anyAligned_base (h : Changes BaseFld s t) : anyPlane t.aligned = anyPlane s.aligned := anyPlane_congr (aligned_base h)

theorem locked_base (h : Changes BaseFld s t) : t.locked = s.locked := h.bit fun _ hg => absurd hg (not_baseFld_wardStatus _)

/-- Steps of planes leave the terminal as a whole alone. -/
theorem not_planeOp_of_termOnly {a : Nat} (hp : p < 24) (h : a ∈ [R.sysTermState, R.sysMediumCounts, R.sysRejectCounts, R.dfpIdent]) (f : Fld) :
    ¬PlaneOp p a f := by
  rintro (hf | hf)
  · exact not_planeFld_of_termOnly hp (.inr (by simp only [List.mem_cons] at h ⊢; tauto)) f hf
  · simp only [List.mem_cons, List.not_mem_nil, or_false] at h hf
    rcases hf with rfl | rfl <;> exact absurd h (by decide)

/-! ## The terminal's steps beside a plane -/

theorem termOnly_sysTermState : TermOnly R.sysTermState := .inr (.head _)
theorem termOnly_sysMediumCounts : TermOnly R.sysMediumCounts := .inr (.tail _ (.head _))
theorem termOnly_sysRejectCounts : TermOnly R.sysRejectCounts := .inr (.tail _ (.tail _ (.head _)))
theorem termOnly_dfpIdent : TermOnly R.dfpIdent := .inr (.tail _ (.tail _ (.tail _ (.head _))))
theorem termOnly_hinge {a : Nat} (h : unitOf a = 0x97) : TermOnly a := .inl h

namespace Beside

theorem of_changes (h : Beside p s t) (hc : Changes W t u) (hw : ∀ a f, W a f → BesideFld p a f) (he : u.enrol.planes = t.enrol.planes) :
    Beside p s u :=
  ⟨h.changes.trans (hc.mono hw), (by rw [State.eplane, State.eplane, he] : u.eplane p = t.eplane p).trans h.eplane⟩

/-- What a change of the terminal as a whole leaves. -/
theorem ofTerm (h : Beside p s t) (hc : Changes (fun a _ => TermOnly a) t u) (he : u.enrol.planes = t.enrol.planes) : Beside p s u :=
  h.of_changes hc (fun _ _ => .inr) he

theorem setTerm (h : Beside p s t) {n : Nat} : Beside p s (t.setTerm n) :=
  h.ofTerm (Changes.refl.setTerm fun _ _ => termOnly_sysTermState) rfl

theorem count (h : Beside p s t) {a n : Nat} {f : Fld} (ha : TermOnly a) : Beside p s (t.count a f n) := h.ofTerm (Changes.refl.count ha) rfl

theorem stateReport (h : Beside p s t) : Beside p s t.stateReport :=
  h.ofTerm Changes.refl.stateReport (congrArg EnrolState.planes (stateReport_enrol t))

theorem writeTid (h : Beside p s t) {tid : Nat} : Beside p s (t.writeTid tid) :=
  h.ofTerm (Changes.refl.writeTid termOnly_dfpIdent fun _ _ => termOnly_hinge) (congrArg EnrolState.planes (writeTid_enrol t tid))

/-- Components of the state are replaced, the registers, the memory and the planes of the base program not. -/
theorem congr (h : Beside p s t) (hregs : u.regs = t.regs) (hmem : u.mem = t.mem) (he : u.enrol.planes = t.enrol.planes) : Beside p s u :=
  h.ofTerm ⟨hmem, fun a _ _ => by rw [reg_of_regs hregs]⟩ he

theorem frame {q f e w md df ub wd en ti cl qm ci cr cp fl ls ho tw pr pw mo ta} (h : Beside p s t) (he : en.planes = t.enrol.planes) :
    Beside p s ⟨q, t.regs, t.mem, f, e, w, md, df, ub, wd, en, ti, cl, qm, ci, cr, cp, fl, ls, ho, tw, pr, pw, mo, ta⟩ := h.congr rfl rfl he

theorem toListening (h : Beside p s t) : Beside p s t.toListening := frame h.setTerm rfl

theorem ite {c : Prop} [Decidable c] (h : c → Beside p s t) (h' : ¬c → Beside p s u) : Beside p s (if c then t else u) := by
  split
  · exact h ‹_›
  · exact h' ‹_›

theorem setPermit (h : Beside p s t) {q v : Nat} (hq : q < 24) (hne : q ≠ p) : Beside p s (t.setPermit q v) :=
  h.of_changes (Changes.refl.setPermit (W := PlaneFld q) fun _ _ h => h) (fun _ _ hf => .inl ⟨q, hq, hne, hf⟩) rfl

theorem setEqd (h : Beside p s t) {q v : Nat} (hq : q < 24) (hne : q ≠ p) : Beside p s (t.setEqd q v) :=
  h.of_changes (Changes.refl.setEqd (W := PlaneFld q) fun _ _ h => h) (fun _ _ hf => .inl ⟨q, hq, hne, hf⟩) rfl

theorem moveTo (h : Beside p s t) {q v : Nat} (hq : q < 24) (hne : q ≠ p) : Beside p s (t.setPlaneState q v) := by
  refine h.of_changes (Changes.refl.moveTo (W := PlaneFld q) fun _ _ h => h) (fun _ _ hf => .inl ⟨q, hq, hne, hf⟩) ?_
  rw [setPlaneState_eq]
  rfl

theorem setGroups (h : Beside p s t) {q : Nat} {v : Word} (hq : q < 24) (hne : q ≠ p) : Beside p s (t.setReg (R.ubbPlaneGroups q) v) :=
  h.of_changes (Changes.refl.setGroups (W := PlaneFld q) fun _ _ h => h) (fun _ _ hf => .inl ⟨q, hq, hne, hf⟩) rfl

theorem setEplane (h : Beside p s t) {q : Nat} {e : EnrolPlane} (hne : q ≠ p) : Beside p s (t.setEplane q e) :=
  h.trans ⟨Changes.frame .refl, eplane_setEplane_other t q (Ne.symm hne) e⟩

theorem dropRtd (h : Beside p s t) {q : Nat} (hq : q < 24) (hne : q ≠ p) : Beside p s (t.dropRtd q) :=
  h.of_changes (Changes.refl.dropRtd (W := PlaneOp q) fun _ _ h => h) (fun _ _ => besideFld_of_planeOp hq hne)
    (congrArg EnrolState.planes (dropRtd_enrol t q))

theorem releaseTo (h : Beside p s t) {q st : Nat} (hq : q < 24) (hne : q ≠ p) : Beside p s (t.releaseTo q st) := by
  rw [releaseTo_eq]
  exact ((((h.setPermit hq hne).setEqd hq hne).setGroups hq hne).setEplane hne).dropRtd hq hne |>.moveTo hq hne

theorem rangingStep (h : Beside p s t) : Beside p s t.rangingStep :=
  .ite (fun _ => h.setTerm.stateReport) fun _ => .ite (fun _ => h) fun _ => h.writeTid.setTerm

end Beside

/-- ANNOUNCING is left outside the registers and the planes once PERMIT is NONE everywhere. -/
theorem leaveAnnouncing_keep {γ : Type} (g : State → γ) (h : ∀ (t : State) l e, g { t with ubb := { t.ubb with msgs := l }, enrol :=
    { t.enrol with tEnrol := false, attempt := none, taken := none } } = e → g t = e) (s : State) : g s.leaveAnnouncing = g s.permitNone := by
  unfold State.leaveAnnouncing
  generalize s.permitNone = t
  exact (h t _ _ rfl).symm

/-- PERMIT NONE everywhere is, for one plane, PERMIT NONE there. -/
theorem leaveAnnouncing_between (s : State) (hp : p < 24) : ∃ u, Beside p s u ∧ Beside p (u.setPermit p 0) s.leaveAnnouncing := by
  obtain ⟨u, hbefore, hafter⟩ := foldl_between (f := fun s q => State.setPermit s q 0) (O := Beside p) (fun _ => .refl) .trans List.nodup_range
    (List.mem_range.2 hp) (fun b q hq hne => Beside.refl.setPermit (List.mem_range.1 hq) hne) s
  exact ⟨u, hbefore, hafter.congr (leaveAnnouncing_keep State.regs (fun _ _ _ => id) s) (leaveAnnouncing_keep State.mem (fun _ _ _ => id) s)
    (leaveAnnouncing_keep (·.enrol.planes) (fun _ _ _ => id) s)⟩

/-- What a step of the terminal leaves of a plane: all, but that PERMIT is NONE where the terminal falls back to LISTENING. -/
theorem termStep_cases (s : State) (hp : p < 24) :
    Beside p s s.termStep ∨ s.under < 4 ∧ ∃ u, Beside p s u ∧ Beside p (u.setPermit p 0) s.termStep := by
  have hlost : s.under < 4 → anyPlane s.aligned ≠ true → ∃ u, Beside p s u ∧ Beside p (u.setPermit p 0) s.leaveAnnouncing.toListening :=
    fun _ _ => (leaveAnnouncing_between s hp).imp fun u hu => ⟨hu.1, hu.2.toListening⟩
  have hhold : ∀ n, Beside p s { (s.count R.sysMediumCounts F.sysMediumCounts_holdovers).setTerm 6 with enrol := { s.enrol with prior := n } } :=
    fun _ => Beside.frame (Beside.refl.count termOnly_sysMediumCounts).setTerm rfl
  have hdrop : s.under < 4 → Beside p s (if anyPlane s.aligned then s else s.leaveAnnouncing.toListening) ∨
      s.under < 4 ∧ ∃ u, Beside p s u ∧ Beside p (u.setPermit p 0) (if anyPlane s.aligned then s else s.leaveAnnouncing.toListening) := fun h => by
    split
    · exact .inl .refl
    · exact .inr ⟨h, hlost h ‹_›⟩
  unfold State.termStep
  dsimp only
  split
  case h_1 => exact .inl (.ite (fun _ => Beside.frame Beside.refl.setTerm rfl) fun _ => .refl)
  case h_2 h => exact hdrop (by rw [h]; decide)
  case h_3 h => exact hdrop (by rw [h]; decide)
  case h_4 => exact .inl (.ite (fun _ => hhold 4) fun _ => Beside.refl.rangingStep)
  case h_5 => exact .inl (.ite (fun _ => hhold 5) fun _ => .refl)
  case h_6 => exact .inl (.ite (fun _ => .refl) fun _ => .ite (fun _ => Beside.refl.setTerm.rangingStep) fun _ => Beside.refl.setTerm)
  case h_7 => exact .inl .refl

/-- What holds of a plane, whatever happens beside it and under PERMIT NONE too, holds after a step of the terminal. -/
theorem holds_termStep {P : State → Prop} (hp : p < 24) (hbeside : ∀ {s t}, Beside p s t → P s → P t)
    (hpermit : ∀ {s : State}, P s → P (s.setPermit p 0)) (h : P s) : P s.termStep := by
  rcases termStep_cases s hp with hb | ⟨_, u, hbefore, hafter⟩
  · exact hbeside hb h
  · exact hbeside hafter (hpermit (hbeside hbefore h))

theorem planeState_setPermit (s : State) (p v q : Nat) : (s.setPermit p v).planeState q = s.planeState q := by
  refine planeState_congr (reg_setFld_other _ _ _ ?_) (reg_setFld_other _ _ _ ?_) q <;>
    simp only [R.sysPlaneState0, R.sysPlaneState1, R.ubbPlaneCtl] <;> omega

theorem planeState_termStep (s : State) (hp : p < 24) : s.termStep.planeState p = s.planeState p :=
  holds_termStep (P := fun t => t.planeState p = s.planeState p) hp (fun hb h => (hb.planeState hp).trans h)
    (fun h => (planeState_setPermit ..).trans h) rfl

theorem eplane_termStep (s : State) (hp : p < 24) : s.termStep.eplane p = s.eplane p :=
  holds_termStep (P := fun t => t.eplane p = s.eplane p) hp (fun hb h => hb.eplane.trans h) id rfl

theorem reg_termStep (s : State) (hp : p < 24) {a : Nat} (ha : a ∈ planeRegs p) (hne : a ≠ R.ubbPlaneCtl p) : s.termStep.reg a = s.reg a :=
  holds_termStep (P := fun t => t.reg a = s.reg a) hp (fun hb h => (hb.reg hp ha).trans h) (fun h => (reg_setFld_other _ _ _ hne).trans h) rfl

theorem permit_termStep_none (hp : p < 24) (h : s.fld (R.ubbPlaneCtl p) F.ubbPlaneCtl_permit = 0) :
    s.termStep.fld (R.ubbPlaneCtl p) F.ubbPlaneCtl_permit = 0 :=
  holds_termStep (P := fun t => t.fld (R.ubbPlaneCtl p) F.ubbPlaneCtl_permit = 0) hp (fun hb h => (hb.fld hp _ (.head _)).trans h)
    (fun _ => permit_setPermit _ _ (by decide)) h

/-- From RANGING on a step of the terminal leaves PERMIT as it is. -/
theorem permit_termStep (hp : p < 24) (h : 4 ≤ s.under) :
    s.termStep.fld (R.ubbPlaneCtl p) F.ubbPlaneCtl_permit = s.fld (R.ubbPlaneCtl p) F.ubbPlaneCtl_permit := by
  rcases termStep_cases s hp with hb | ⟨hlow, _⟩
  · exact hb.fld hp _ (.head _)
  · omega

/-! ## A step of the terminal as a whole -/

theorem Changes.rangingStep (h : Changes W s t) (hw : ∀ a f, TermOnly a → W a f) : Changes W s t.rangingStep := by
  have hterm : ∀ {u : State} {n}, Changes W s u → Changes W s (u.setTerm n) := fun h => h.setTerm fun _ _ => hw _ _ termOnly_sysTermState
  exact .ite (fun _ => (hterm h).stateReport) fun _ => .ite (fun _ => h) fun _ =>
    hterm (h.writeTid (hw _ _ termOnly_dfpIdent) fun _ _ ha => hw _ _ (termOnly_hinge ha))

theorem Changes.leaveAnnouncing (h : Changes W s t) (hw : ∀ q < 24, W (R.ubbPlaneCtl q) F.ubbPlaneCtl_permit) : Changes W s t.leaveAnnouncing := by
  have hnone : Changes W s t.permitNone := h.foldl fun _ q hq h => h.setFld (hw q (List.mem_range.1 hq))
  exact hnone.frame.frame

/-- The terminal's state, its counter of holdovers and its id, PERMIT of the planes, and HINGE. -/
def StepFld (a : Nat) (f : Fld) : Prop := TermFld a f ∨ (a, f) = (R.sysMediumCounts, F.sysMediumCounts_holdovers) ∨
  (a, f) = (R.dfpIdent, F.dfpIdent_tid) ∨ (∃ q, q < 24 ∧ (a, f) = (R.ubbPlaneCtl q, F.ubbPlaneCtl_permit)) ∨ unitOf a = 0x97

theorem changes_termStep_fields (s : State) : Changes StepFld s s.termStep := by
  have hterm : ∀ {u : State} {n}, Changes StepFld s u → Changes StepFld s (u.setTerm n) := fun h => h.setTerm fun _ => .inl
  have htid : ∀ {u : State} {n}, Changes StepFld s u → Changes StepFld s (u.writeTid n) := fun h =>
    h.writeTid (.inr (.inr (.inl rfl))) fun _ _ h => .inr (.inr (.inr (.inr h)))
  have hranging : ∀ {u : State}, Changes StepFld s u → Changes StepFld s u.rangingStep := fun h =>
    .ite (fun _ => (hterm h).stateReport) fun _ => .ite (fun _ => h) fun _ => hterm (htid h)
  have hdrop : Changes StepFld s (if anyPlane s.aligned then s else s.leaveAnnouncing.toListening) := .ite (fun _ => .refl) fun _ =>
    Changes.frame (hterm (Changes.refl.leaveAnnouncing fun q hq => .inr (.inr (.inr (.inl ⟨q, hq, rfl⟩)))))
  have hhold : ∀ n, Changes StepFld s { (s.count R.sysMediumCounts F.sysMediumCounts_holdovers).setTerm 6 with enrol := { s.enrol with prior := n } } :=
    fun _ => Changes.frame (hterm (Changes.refl.count (.inr (.inl rfl))))
  unfold State.termStep
  dsimp only
  split
  case h_1 => exact .ite (fun _ => (hterm .refl).frame) fun _ => .refl
  case h_2 => exact hdrop
  case h_3 => exact hdrop
  case h_4 => exact .ite (fun _ => hhold 4) fun _ => hranging .refl
  case h_5 => exact .ite (fun _ => hhold 5) fun _ => .refl
  case h_6 => exact .ite (fun _ => .refl) fun _ => .ite (fun _ => hranging (hterm .refl)) fun _ => hterm .refl
  case h_7 => exact .refl

theorem rangingStep_dfp (s : State) : s.rangingStep.dfp = s.dfp := by
  unfold State.rangingStep
  split
  · exact stateReport_dfp _
  · split
    · rfl
    · exact writeTid_dfp s 0x3FE

theorem leaveAnnouncing_dfp (s : State) : s.leaveAnnouncing.dfp = s.dfp :=
  (leaveAnnouncing_keep State.dfp (fun _ _ _ => id) s).trans (foldl_keep State.dfp (fun s p => State.setPermit s p 0) (fun _ _ => rfl) (List.range 24) s)

theorem toListening_dfp (s : State) : s.toListening.dfp = s.dfp := rfl

theorem fld_toListening (s : State) (a : Nat) (f : Fld) : s.toListening.fld a f = (s.setTerm 1).fld a f :=
  (Changes.frame .refl : Changes (fun _ _ => False) (s.setTerm 1) s.toListening).fld fun _ h => h.elim

theorem under_toListening (s : State) : s.toListening.under = 1 := (fld_toListening ..).trans (under_setTerm s (by decide))

theorem termState_toListening (s : State) : s.toListening.termState = if s.locked then 7 else 1 :=
  (fld_toListening ..).trans (termState_setTerm s (by decide))

theorem termStep_dfp (s : State) : s.termStep.dfp = s.dfp := by
  have hdrop : (if anyPlane s.aligned then s else s.leaveAnnouncing.toListening).dfp = s.dfp := by
    split
    · rfl
    · exact (toListening_dfp _).trans (leaveAnnouncing_dfp s)
  unfold State.termStep
  dsimp only
  split
  case h_1 => split <;> rfl
  case h_2 => exact hdrop
  case h_3 => exact hdrop
  case h_4 =>
    split
    · rfl
    · exact rangingStep_dfp s
  case h_5 => split <;> rfl
  case h_6 =>
    split
    · rfl
    · split
      · exact rangingStep_dfp _
      · rfl
  case h_7 => rfl

/-! ## A plane released -/

/-- A plane in state `st` with nothing left of its settings (R165). -/
def State.releasedAt (s : State) (p st : Nat) : Prop :=
  s.planeState p = st ∧ s.fld (R.ubbPlaneCtl p) F.ubbPlaneCtl_permit = 0 ∧ s.fld (R.ubbPlaneEqd p) F.ubbPlaneEqd_eqd = 0 ∧
    s.fld (R.wardPlaneEqd p) F.wardPlaneEqd_eqd = 0 ∧ s.reg (R.ubbPlaneGroups p) = 0

/-- A plane's own settings, and its state, are all that counts. -/
theorem releasedAt_of_regs {st : Nat} (hstate : t.planeState p = st) (hregs : ∀ a ∈ [R.ubbPlaneCtl p, R.ubbPlaneEqd p, R.wardPlaneEqd p,
    R.ubbPlaneGroups p], t.reg a = (s.emptied p).reg a) : t.releasedAt p st := by
  have hctl : ∀ v, R.ubbPlaneCtl p ∉ [R.ubbPlaneEqd p, R.wardPlaneEqd p] ∧ (s.setEqd p v).fld (R.ubbPlaneCtl p) F.ubbPlaneCtl_permit =
      s.fld (R.ubbPlaneCtl p) F.ubbPlaneCtl_permit := fun v => by
    have hnot : R.ubbPlaneCtl p ∉ [R.ubbPlaneEqd p, R.wardPlaneEqd p] := by
      simp only [List.mem_cons, List.not_mem_nil, or_false, R.ubbPlaneCtl, R.ubbPlaneEqd, R.wardPlaneEqd]; omega
    exact ⟨hnot, by rw [State.fld, reg_setEqd_other _ _ _ hnot, State.fld]⟩
  have hgroups : ∀ a ∈ [R.ubbPlaneCtl p, R.ubbPlaneEqd p, R.wardPlaneEqd p], (s.emptied p).reg a = ((s.setPermit p 0).setEqd p 0).reg a :=
    fun a ha => reg_setReg_other _ _ (by
      rintro rfl
      simp only [List.mem_cons, List.not_mem_nil, or_false, R.ubbPlaneCtl, R.ubbPlaneEqd, R.wardPlaneEqd, R.ubbPlaneGroups] at ha
      omega)
  refine ⟨hstate, ?permit, ?ubb, ?ward, ?groups⟩
  case permit =>
    rw [State.fld, hregs _ (.head _), hgroups _ (.head _), reg_setEqd_other _ _ _ (hctl 0).1]
    exact permit_setPermit s p (by decide)
  case ubb =>
    rw [State.fld, hregs _ (.tail _ (.head _)), hgroups _ (.tail _ (.head _))]
    exact ubbEqd_setEqd (s.setPermit p 0) p 0
  case ward =>
    rw [State.fld, hregs _ (.tail _ (.tail _ (.head _))), hgroups _ (.tail _ (.tail _ (.head _)))]
    exact wardEqd_setEqd (s.setPermit p 0) p 0
  case groups =>
    rw [hregs _ (.tail _ (.tail _ (.tail _ (.head _))))]
    exact reg_setReg_same _ _ _

theorem Beside.releasedAt {st : Nat} (h : Beside p s t) (hp : p < 24) (hs : s.releasedAt p st) : t.releasedAt p st := by
  obtain ⟨hstate, hpermit, hubb, hward, hgroups⟩ := hs
  exact ⟨(h.planeState hp).trans hstate, (h.fld hp _ (.head _)).trans hpermit, (h.fld hp _ (.tail _ (.head _))).trans hubb,
    (h.fld hp _ (.tail _ (.tail _ (.head _)))).trans hward, (h.reg hp (.tail _ (.tail _ (.tail _ (.head _))))).trans hgroups⟩

theorem reg_setPlaneState_other (s : State) (p v : Nat) {a : Nat} (h : a ≠ (stateFld p).1) : (s.setPlaneState p v).reg a = s.reg a := by
  rw [setPlaneState_eq, reg_setFld_other _ _ _ h]

/-- PLANE_RELEASE leaves nothing of a plane's settings. -/
theorem releasedAt_releaseTo (s : State) (p : Plane) {st : Nat} (h : st < 8) : (s.releaseTo p st).releasedAt p st := by
  refine releasedAt_of_regs (s := s) (planeState_setPlaneState _ p h) fun a ha => ?_
  have hstate : a ≠ (stateFld p).1 := by
    rintro rfl
    refine stateFld_ne_planeRegs p p ?_
    simp only [planeRegs, List.mem_cons, List.not_mem_nil, or_false] at ha ⊢
    tauto
  have hrtd : a ∉ [R.timePlaneRtd p, R.timeStatus, R.timeRefStatus] := by
    have := p.isLt
    simp only [List.mem_cons, List.not_mem_nil, or_false, R.ubbPlaneCtl, R.ubbPlaneEqd, R.wardPlaneEqd, R.ubbPlaneGroups, R.timePlaneRtd,
      R.timeStatus, R.timeRefStatus] at ha ⊢
    omega
  rw [releaseTo_eq, reg_setPlaneState_other _ _ _ hstate, reg_dropRtd _ _ hrtd]

/-! ## HOLDOVER ends -/

/-- Every plane is released, to ACQUIRING where its lane is enabled, and the terminal has no id. -/
def State.heldReleased (s : State) : State :=
  (List.range 24).foldl (fun s p => s.releaseTo p (if s.bit (R.medLaneCfg p) F.medLaneCfg_laneEn then 1 else 0)) (s.writeTid 0x3FE)

theorem holdExpired_eq (s : State) :
    s.holdExpired = (s.heldReleased.count R.sysMediumCounts F.sysMediumCounts_holdExpired).toListening := rfl

/-- Only fields of planes change once the id is gone. -/
theorem changes_heldReleased (s : State) : Changes (fun a f => ∃ q, q < 24 ∧ PlaneOp q a f) (s.writeTid 0x3FE) s.heldReleased :=
  Changes.refl.foldl fun _ q hq h => h.releaseTo fun _ _ hf => ⟨q, List.mem_range.1 hq, hf⟩

theorem changes_writeTid_base (s : State) (tid : Nat) : Changes BaseFld s (s.writeTid tid) :=
  Changes.refl.writeTid (.inr termOnly_dfpIdent) fun _ _ h => .inr (termOnly_hinge h)

theorem base_heldReleased (s : State) : Changes BaseFld s s.heldReleased :=
  (changes_writeTid_base s _).trans ((changes_heldReleased s).mono fun _ _ ⟨_, hq, hf⟩ => baseFld_of_planeOp hq hf)

/-- A register of the terminal as a whole, once the id is gone. -/
theorem fld_heldReleased (s : State) {a : Nat} (f : Fld) (h : a ∈ [R.sysTermState, R.sysMediumCounts, R.sysRejectCounts, R.dfpIdent]) :
    s.heldReleased.fld a f = (s.writeTid 0x3FE).fld a f :=
  (changes_heldReleased s).fld fun g ⟨_, hq, hg⟩ => absurd hg (not_planeOp_of_termOnly hq h g)

theorem releasedAt_heldReleased (s : State) (p : Plane) :
    s.heldReleased.releasedAt p (if s.bit (R.medLaneCfg p) F.medLaneCfg_laneEn then 1 else 0) := by
  obtain ⟨u, hbefore, hafter⟩ := foldl_between (O := Beside p)
    (f := fun s q => State.releaseTo s q (if s.bit (R.medLaneCfg q) F.medLaneCfg_laneEn then 1 else 0)) (fun _ => .refl) .trans List.nodup_range
    (mem_planes p) (fun b q hq hne => Beside.refl.releaseTo (List.mem_range.1 hq) hne) (s.writeTid 0x3FE)
  have hen : u.bit (R.medLaneCfg p) F.medLaneCfg_laneEn = s.bit (R.medLaneCfg p) F.medLaneCfg_laneEn :=
    ((changes_writeTid_base s _).trans (hbefore.changes.mono fun _ _ => baseFld_of_beside)).bit fun g hg =>
      absurd hg (not_baseFld_medLaneCfg p g)
  have hreleased : (u.releaseTo p (if s.bit (R.medLaneCfg p) F.medLaneCfg_laneEn then 1 else 0)).releasedAt p
      (if s.bit (R.medLaneCfg p) F.medLaneCfg_laneEn then 1 else 0) := releasedAt_releaseTo u p (by split <;> decide)
  rw [hen] at hafter
  exact hafter.releasedAt p.isLt hreleased

theorem exec_tHoldExpiry (h : s.under = 6) (hheld : s.heldOut s.enrol.tHold = true) : exec .tHoldExpiry s = .next s.holdExpired :=
  congrArg Host.Outcome.next (if_pos ⟨h, hheld⟩)

/-- Settles O20: the planes are released one by one, then the terminal listens. -/
theorem holdoverExpires : Obligations.HoldoverExpires := by
  intro s hunder hheld
  generalize hu : s.heldReleased.count R.sysMediumCounts F.sysMediumCounts_holdExpired = u
  have hlisten : Changes TermFld u u.toListening := Changes.frame (Changes.refl.setTerm fun _ => id)
  have hbeside : ∀ p, Beside p s.heldReleased u.toListening := fun _ => hu ▸ (Beside.refl.count termOnly_sysMediumCounts).toListening
  have hbase : Changes BaseFld s u := hu ▸ (base_heldReleased s).count (.inr termOnly_sysMediumCounts)
  have hother : ∀ {a} f, a ≠ R.sysTermState → u.toListening.fld a f = u.fld a f := fun _ ha =>
    hlisten.fld fun _ hg => absurd hg.1 ha
  have htid : u.fld R.dfpIdent F.dfpIdent_tid = 0x3FE := by
    rw [← hu, fld_count_other _ _ _ _ (by decide), fld_heldReleased _ _ (by decide)]
    exact tid_writeTid s (by decide)
  have hcount : s.heldReleased.fld R.sysMediumCounts F.sysMediumCounts_holdExpired = s.fld R.sysMediumCounts F.sysMediumCounts_holdExpired := by
    rw [fld_heldReleased _ _ (by decide)]
    exact (Changes.refl.writeTid (W := fun a _ => a = R.dfpIdent ∨ unitOf a = 0x97) (.inl rfl) fun _ _ => .inr).fld fun _ hg =>
      absurd hg (by decide)
  refine ⟨u.toListening, (exec_tHoldExpiry hunder hheld).trans (by rw [holdExpired_eq, hu]), (hother _ (by decide)).trans htid,
    fun p => (hbeside p).releasedAt p.isLt (releasedAt_heldReleased s p), ?_, under_toListening u, rfl, rfl, rfl, ?_,
    (hbase.trans (hlisten.mono fun _ _ h => .inr (h.1 ▸ termOnly_sysTermState))).memKept⟩
  · exact counted_count hcount ((hother _ (by decide)).trans (by rw [hu])) (by decide) (by decide)
  · rw [← locked_base hbase]
    exact termState_toListening u

end Sys2Proof.Machine
end

section
/-!
SUPPORT. ENROL_PARAMS (R163, R170, R171): the values kept and ANNOUNCING entered; O19 is settled here.
-/

namespace Sys2Proof.Machine

variable {s : State} {m : Msg}

theorem bodyField_lt (body : List Byte) (d hi lo : Nat) : bodyField body d hi lo < 2 ^ (hi + 1 - lo) := bitsOf_lt _ _ _

theorem planeState_setEqd (s : State) (p v q : Nat) : (s.setEqd p v).planeState q = s.planeState q := by
  refine planeState_congr (reg_setEqd_other _ _ _ ?_) (reg_setEqd_other _ _ _ ?_) q <;>
    simp only [R.sysPlaneState0, R.sysPlaneState1, R.ubbPlaneEqd, R.wardPlaneEqd, List.mem_cons, List.not_mem_nil, or_false] <;> omega

theorem permit_setEqd (s : State) (p v : Nat) :
    (s.setEqd p v).fld (R.ubbPlaneCtl p) F.ubbPlaneCtl_permit = s.fld (R.ubbPlaneCtl p) F.ubbPlaneCtl_permit := by
  rw [State.fld, State.fld, reg_setEqd_other]
  simp only [List.mem_cons, List.not_mem_nil, or_false, R.ubbPlaneCtl, R.ubbPlaneEqd, R.wardPlaneEqd]
  omega

/-! ## The planes of the enrolment windows -/

/-- PERMIT and EQD of every IN_FRAME plane (R164, R171). -/
def State.enrolAll (s : State) : State := (List.range 24).foldl (fun s p => s.enrolPlane p) s

/-- A plane's permission to enrol is a matter of its registers. -/
theorem enrolPlane_keep {γ : Type} (g : State → γ) (h : ∀ (t : State) l, g { t with regs := l } = g t) (s : State) (p : Nat) :
    g (s.enrolPlane p) = g s := by
  have heqd : ∀ (t : State) v, g (t.setEqd p v) = g t := fun t _ => (h (t.setFld ..) _).trans (h t _)
  unfold State.enrolPlane
  split
  · split
    · exact (heqd _ _).trans (h s _)
    · exact h s _
  · rfl

theorem enrolAll_keep {γ : Type} (g : State → γ) (h : ∀ (t : State) l, g { t with regs := l } = g t) (s : State) : g s.enrolAll = g s :=
  foldl_keep g _ (fun t p => enrolPlane_keep g h t p) _ s

theorem Changes.enrolPlane {W : Nat → Fld → Prop} {t : State} {p : Nat} (h : Changes W s t) (hw : ∀ a f, PlaneFld p a f → W a f) :
    Changes W s (t.enrolPlane p) :=
  .ite (fun _ => .ite (fun _ => (h.setPermit hw).setEqd hw) fun _ => h.setPermit hw) fun _ => h

theorem changes_enrolAll (s : State) : Changes (fun a f => ∃ q, q < 24 ∧ PlaneFld q a f) s s.enrolAll :=
  Changes.refl.foldl fun _ q hq h => h.enrolPlane fun _ _ hf => ⟨q, List.mem_range.1 hq, hf⟩

theorem enrolPlane_inFrame {p : Nat} (h : s.planeState p = 2) : (s.enrolPlane p).planeState p = 2 ∧
    (s.enrolPlane p).fld (R.ubbPlaneCtl p) F.ubbPlaneCtl_permit = if s.inEnrolPlanes p then 1 else 0 := by
  unfold State.enrolPlane
  rw [if_pos h]
  split
  · exact ⟨(planeState_setEqd ..).trans ((planeState_setPermit ..).trans h), (permit_setEqd ..).trans (permit_setPermit _ _ (by decide))⟩
  · exact ⟨(planeState_setPermit ..).trans h, permit_setPermit _ _ (by decide)⟩

theorem Beside.enrolPlane {t : State} {p q : Nat} (h : Beside p s t) (hq : q < 24) (hne : q ≠ p) : Beside p s (t.enrolPlane q) :=
  .ite (fun _ => .ite (fun _ => (h.setPermit hq hne).setEqd hq hne) fun _ => h.setPermit hq hne) fun _ => h

theorem enrolAll_inFrame {p : Plane} (h : s.planeState p = 2) : s.enrolAll.planeState p = 2 ∧
    s.enrolAll.fld (R.ubbPlaneCtl p) F.ubbPlaneCtl_permit = if s.inEnrolPlanes p then 1 else 0 := by
  obtain ⟨u, ⟨hbefore, henrol⟩, hafter, -⟩ := foldl_between (O := fun s t => Beside p s t ∧ t.enrol = s.enrol)
    (f := fun s q => State.enrolPlane s q) (fun _ => ⟨.refl, rfl⟩) (fun h h' => ⟨h.1.trans h'.1, h'.2.trans h.2⟩) List.nodup_range (mem_planes p)
    (fun b q hq hne => ⟨Beside.refl.enrolPlane (List.mem_range.1 hq) hne, enrolPlane_keep State.enrol (fun _ _ => rfl) b q⟩) s
  obtain ⟨hstate, hpermit⟩ := enrolPlane_inFrame ((hbefore.planeState p.isLt).trans h)
  refine ⟨(hafter.planeState p.isLt).trans hstate, (hafter.fld p.isLt _ (.head _)).trans (hpermit.trans ?_)⟩
  rw [State.inEnrolPlanes, State.inEnrolPlanes, henrol]

/-! ## ANNOUNCING is entered -/

/-- The terminal in ANNOUNCING with its planes and its backoff exponent, before the draw. -/
def State.announced (s : State) : State :=
  ((s.setTerm 3).enrolAll.setFld R.sysTermState F.sysTermState_be (s.setTerm 3).enrolAll.enrol.beMin).setFld R.sysTermState
    F.sysTermState_attempts 0

/-- Flow 0 takes a drawn number, T_ENROL starts, and the first attempt is drawn for the next frame. -/
def State.drawn (s : State) : State :=
  let (v, s) := s.takeFree
  let s := s.setFlow 0 (flowWithSeq (s.flow 0) (v.toNat % 65536))
  let s := { s with enrol := { s.enrol with tEnrol := true } }
  s.beginAttempt (s.time.frame + 1)

theorem toAnnouncing_eq (s : State) : s.toAnnouncing = s.announced.drawn := rfl

theorem drawn_eq (s : State) : ∃ f ub r, r < 2 ^ s.fld R.sysTermState F.sysTermState_be ∧ s.drawn = { s with free := f, ubb := ub, enrol :=
    { s.enrol with tEnrol := true, attempt := some (s.time.frame + 1, r), taken := none, answerNow := s.enrol.answer } } :=
  ⟨_, _, _, Nat.mod_lt _ (Nat.two_pow_pos _), rfl⟩

theorem announced_keep {γ : Type} (g : State → γ) (h : ∀ (t : State) l, g { t with regs := l } = g t) (s : State) : g s.announced = g s :=
  ((h _ _).trans (h _ _)).trans ((enrolAll_keep g h _).trans ((h _ _).trans (h _ _)))

theorem under_announced (s : State) : s.announced.under = 3 := by
  have hfields : s.announced.under = (s.setTerm 3).enrolAll.under :=
    (fld_setFld_field _ _ _ _ _ (by decide) (by decide) (by decide)).trans (fld_setFld_field _ _ _ _ _ (by decide) (by decide) (by decide))
  have hplanes : (s.setTerm 3).enrolAll.under = (s.setTerm 3).under :=
    (changes_enrolAll _).fld fun _ ⟨_, hq, hf⟩ => absurd hf (not_planeFld_of_termOnly hq termOnly_sysTermState _)
  exact hfields.trans (hplanes.trans (under_setTerm s (by decide)))

theorem attempts_announced (s : State) : s.announced.fld R.sysTermState F.sysTermState_attempts = 0 := fld_setFld_same _ _ _ _ (by decide) (by decide)

theorem be_announced (h : s.enrol.beMin < 16) : s.announced.fld R.sysTermState F.sysTermState_be = s.enrol.beMin := by
  have hmin : (s.setTerm 3).enrolAll.enrol.beMin = s.enrol.beMin := congrArg EnrolState.beMin (enrolAll_keep State.enrol (fun _ _ => rfl) (s.setTerm 3))
  refine (fld_setFld_field _ _ _ _ _ (by decide) (by decide) (by decide)).trans ((fld_setFld_same _ _ _ _ (by decide) (by decide)).trans ?_)
  rw [hmin]
  exact Nat.mod_eq_of_lt h

theorem announced_inFrame {p : Plane} (h : s.planeState p = 2) : s.announced.planeState p = 2 ∧
    s.announced.fld (R.ubbPlaneCtl p) F.ubbPlaneCtl_permit = if s.inEnrolPlanes p then 1 else 0 := by
  have hbeside : Beside p (s.setTerm 3).enrolAll s.announced :=
    Beside.refl.ofTerm ((Changes.refl.setFld termOnly_sysTermState).setFld termOnly_sysTermState) rfl
  have hstate : (s.setTerm 3).planeState p = 2 := (Beside.refl.setTerm.planeState p.isLt).trans h
  obtain ⟨hframe, hpermit⟩ := enrolAll_inFrame hstate
  exact ⟨(hbeside.planeState p.isLt).trans hframe, (hbeside.fld p.isLt _ (.head _)).trans hpermit⟩

/-! ## The message -/

/-- The message's values are kept once it has arrived (R170). -/
def State.paramsKept (s : State) (m : Msg) : State := (s.arrived m).keepEnrol m

theorem exec_enrolParams (h : s.under = 2 ∨ s.under = 3) : exec (.enrolParams m) s =
    .next (s.judge m 4 16 none true true (decide (bodyField m.body 16 127 96 ≤ eqdMax)) true (·.enrolParams m)) := by
  have hstate : ¬(s.under ≠ 2 ∧ s.under ≠ 3) := by omega
  have hexec : exec (.enrolParams m) s = .next (s.judge m 4 16 (if s.under ≠ 2 ∧ s.under ≠ 3 then some (fun s => s) else none) true true
      (decide (bodyField m.body 16 127 96 ≤ eqdMax)) true (·.enrolParams m)) := rfl
  rw [hexec, if_neg hstate]

theorem exec_enrolParams_applied (hpoint : s.atPoint m 4) (hlen : 16 ≤ m.body.length) (hunder : s.under = 2 ∨ s.under = 3) (hrun : s.termState ≠ 8)
    (hvalue : bodyField m.body 16 127 96 ≤ 42500000) : exec (.enrolParams m) s =
      .next (if s.under = 2 then (s.paramsKept m).toAnnouncing else (s.paramsKept m).enrolAll) := by
  have hbranch : (s.arrived m).enrolParams m = if s.under = 2 then (s.paramsKept m).toAnnouncing else (s.paramsKept m).enrolAll := by
    rw [← under_arrived s m]
    rfl
  have hrange : decide (bodyField m.body 16 127 96 ≤ eqdMax) = true := decide_eq_true hvalue
  rw [exec_enrolParams hunder, judge_applied hpoint hlen (.inr hrun) rfl hrange rfl, hbranch]

/-- ENROL_PARAMS keeps its values; the memory stays, and of the DFP the message alone is gone. -/
theorem enrolParams_values {t : State} (ht : t = if s.under = 2 then (s.paramsKept m).toAnnouncing else (s.paramsKept m).enrolAll) :
    (t.enrol.beMax = (s.paramsKept m).enrol.beMax ∧ t.enrol.beMin = (s.paramsKept m).enrol.beMin ∧
      t.enrol.answer = (s.paramsKept m).enrol.answer ∧ t.enrol.preEqd = (s.paramsKept m).enrol.preEqd ∧
      t.enrol.enrolPlanes = (s.paramsKept m).enrol.enrolPlanes) ∧ t.dfp.msgq = s.dfp.msgq.erase m ∧ memKept s t := by
  have hmem : (s.paramsKept m).mem = s.mem := arrived_mem s m
  have hdfp : (s.paramsKept m).dfp = { s.dfp with msgq := s.dfp.msgq.erase m } := arrived_dfp s m
  split at ht
  · obtain ⟨f, ub, r, -, heq⟩ := drawn_eq (s.paramsKept m).announced
    have henrol : (s.paramsKept m).announced.enrol = (s.paramsKept m).enrol := announced_keep State.enrol (fun _ _ => rfl) _
    have hdfp' : (s.paramsKept m).announced.dfp = (s.paramsKept m).dfp := announced_keep State.dfp (fun _ _ => rfl) _
    have hmem' : (s.paramsKept m).announced.mem = (s.paramsKept m).mem := announced_keep State.mem (fun _ _ => rfl) _
    rw [ht, toAnnouncing_eq, heq]
    refine ⟨?_, ?_, memKept_of_eq (hmem'.trans hmem)⟩
    · dsimp only
      rw [henrol]
      exact ⟨rfl, rfl, rfl, rfl, rfl⟩
    · dsimp only
      rw [hdfp', hdfp]
  · have henrol : t.enrol = (s.paramsKept m).enrol := ht ▸ enrolAll_keep State.enrol (fun _ _ => rfl) _
    have hdfp' : t.dfp = (s.paramsKept m).dfp := ht ▸ enrolAll_keep State.dfp (fun _ _ => rfl) _
    have hmem' : t.mem = (s.paramsKept m).mem := ht ▸ enrolAll_keep State.mem (fun _ _ => rfl) _
    rw [henrol]
    exact ⟨⟨rfl, rfl, rfl, rfl, rfl⟩, by rw [hdfp', hdfp], memKept_of_eq (hmem'.trans hmem)⟩

/-- Settles O19: the judgement turns on PRE_EQD alone, and the values kept are clamped one after the other. -/
theorem enrolParamsRanges : Obligations.EnrolParamsRanges := by
  intro s m hpoint hlen hunder hrun
  refine ⟨fun hvalue => ?_, fun hvalue => ?_⟩
  · have hrange : decide (bodyField m.body 16 127 96 ≤ eqdMax) = false := decide_eq_false (Nat.not_le.2 hvalue)
    obtain ⟨hcounted, hmem, hregs⟩ := arrived_count s m (f := F.sysRejectCounts_badValue) R.sysRejectCounts (by decide) (by decide)
    refine ⟨_, (exec_enrolParams hunder).trans (congrArg _ (judge_badValue hpoint hlen (.inr hrun) rfl hrange)), hcounted,
      arrived_enrol s m, ?_, hmem, hregs⟩
    exact congrArg DfpState.msgq (arrived_dfp s m)
  · obtain ⟨⟨hmax, hmin, hanswer, hpre, hplanes⟩, hmsgq, hmem⟩ := enrolParams_values (s := s) (m := m) rfl
    have hkeptMax : (s.paramsKept m).enrol.beMax = min 12 (bodyField m.body 16 67 64) := rfl
    have hkeptMin : (s.paramsKept m).enrol.beMin = min (bodyField m.body 16 71 68) (s.paramsKept m).enrol.beMax := rfl
    have hkeptAnswer : (s.paramsKept m).enrol.answer = max 1 (bodyField m.body 16 63 56) := rfl
    refine ⟨_, exec_enrolParams_applied hpoint hlen hunder hrun hvalue, ?_, ?_, ?_, hpre, hplanes, hmsgq, hmem⟩
    · rw [hmax, hkeptMax]
      split <;> omega
    · rw [hmin, hmax, hkeptMin]
      split <;> omega
    · rw [hanswer, hkeptAnswer]
      split <;> omega

end Sys2Proof.Machine
end

section
/-!
SUPPORT. A plane under ranging (R165, R173, R176 to R178): the settings that the hub's messages give one plane, and the planes beside it.
-/

namespace Sys2Proof.Machine

variable {s t : State} {m : Msg} {p : Nat}

/-! ## A plane ASSIGNED -/

/-- A plane ASSIGNED under PERMIT RANGE, both copies of EQD at PRE_EQD. -/
def State.ranged (s : State) (p : Nat) : State := ((s.setPlaneState p 3).setPermit p 2).setEqd p s.enrol.preEqd

theorem ranged_dfp (s : State) (p : Nat) : (s.ranged p).dfp = s.dfp := by
  rw [State.ranged, setPlaneState_eq]
  rfl

theorem planeState_ranged (s : State) (p : Plane) : (s.ranged p).planeState p = 3 := by
  rw [State.ranged, planeState_setEqd, planeState_setPermit, planeState_setPlaneState _ _ (by decide)]

theorem permit_ranged (s : State) (p : Nat) : (s.ranged p).fld (R.ubbPlaneCtl p) F.ubbPlaneCtl_permit = 2 :=
  (permit_setEqd ..).trans (permit_setPermit _ _ (by decide))

theorem Beside.ranged (h : Beside p s t) {q : Nat} (hq : q < 24) (hne : q ≠ p) : Beside p s (t.ranged q) :=
  ((h.moveTo hq hne).setPermit hq hne).setEqd hq hne

/-- The settings of an ASSIGNED plane with a hold on its groups. -/
def State.assigned (s : State) (p : Nat) (g : Word) : State :=
  (s.ranged p).setEplane p { (s.ranged p).eplane p with tRange := true, groups := g }

theorem Beside.assigned (h : Beside p s t) {q : Nat} {g : Word} (hq : q < 24) (hne : q ≠ p) : Beside p s (t.assigned q g) :=
  (h.ranged hq hne).setEplane hne

theorem eplane_assigned (s : State) (p : Nat) (g : Word) :
    ((s.assigned p g).eplane p).tRange = true ∧ ((s.assigned p g).eplane p).groups = g := by
  rw [State.assigned, eplane_setEplane_same]
  exact ⟨rfl, rfl⟩

theorem planeState_assigned (s : State) (p : Plane) (g : Word) : (s.assigned p g).planeState p = 3 := planeState_ranged s p

theorem permit_assigned (s : State) (p : Nat) (g : Word) : (s.assigned p g).fld (R.ubbPlaneCtl p) F.ubbPlaneCtl_permit = 2 := permit_ranged s p

theorem Changes.assigned {W : Nat → Fld → Prop} (h : Changes W s t) {g : Word} (hw : ∀ a f, PlaneFld p a f → W a f) :
    Changes W s (t.assigned p g) := Changes.frame (((h.moveTo hw).setPermit hw).setEqd hw)

theorem changes_assigned (s : State) (p : Nat) (g : Word) : Changes (fun a _ => a ∈ [R.sysPlaneState0, R.sysPlaneState1, R.ubbPlaneCtl p,
    R.ubbPlaneEqd p, R.wardPlaneEqd p]) s (s.assigned p g) :=
  Changes.frame ((((Changes.refl.setPlaneState (fun _ => .head _) fun _ => .tail _ (.head _)).setFld (.tail _ (.tail _ (.head _)))).setFld
    (.tail _ (.tail _ (.tail _ (.head _))))).setFld (.tail _ (.tail _ (.tail _ (.tail _ (.head _))))))

/-! ## Round trips -/

/-- Both copies of EQD and the round trip of a plane. -/
def State.eqdMoved (s : State) (p eqd rtd : Nat) : State := (s.setEqd p eqd).setRtd p rtd

theorem reg_setRtd_other (s : State) (p rtd : Nat) {a : Nat} (h : a ∉ [R.timePlaneRtd p, R.timeStatus, R.timeRefStatus]) :
    (s.setRtd p rtd).reg a = s.reg a :=
  (((Changes.refl.setReg (W := fun a _ => a ∈ [R.timePlaneRtd p, R.timeStatus, R.timeRefStatus]) (.head _)).retimeStatus fun _ ha _ =>
    .tail _ ha).reg fun _ => h)

theorem not_rtd_of_high {a : Nat} (hp : p < 24) (h : a < 0x500000000 ∨ 0x5000001C0 ≤ a) : a ∉ [R.timePlaneRtd p, R.timeStatus, R.timeRefStatus] := by
  simp only [List.mem_cons, List.not_mem_nil, or_false, R.timePlaneRtd, R.timeStatus, R.timeRefStatus]
  omega

theorem rtd_eqdMoved (s : State) (p eqd : Nat) {rtd : Nat} (h : rtd < 2 ^ 32) :
    (s.eqdMoved p eqd rtd).reg (R.timePlaneRtd p) = BitVec.ofNat 64 (2 ^ 63 + rtd) := by
  have hstatus : R.timePlaneRtd p ∉ [R.timeStatus, R.timeRefStatus] := by
    simp only [List.mem_cons, List.not_mem_nil, or_false, R.timePlaneRtd, R.timeStatus, R.timeRefStatus]
    omega
  have hretime : ∀ u : State, (u.retime false).reg (R.timePlaneRtd p) = u.reg (R.timePlaneRtd p) := fun u =>
    (Changes.refl.retimeStatus (W := fun a _ => a ∈ [R.timeStatus, R.timeRefStatus]) fun _ ha _ => ha).reg fun _ => hstatus
  refine (hretime _).trans ((reg_setReg_same _ _ _).trans ?_)
  rw [Nat.mod_eq_of_lt h]

theorem planeState_eqdMoved (s : State) (p eqd rtd q : Nat) (hp : p < 24) : (s.eqdMoved p eqd rtd).planeState q = s.planeState q :=
  (planeState_congr (reg_setRtd_other _ _ _ (not_rtd_of_high hp (.inl (by decide)))) (reg_setRtd_other _ _ _ (not_rtd_of_high hp (.inl (by decide))))
    q).trans (planeState_setEqd ..)

/-- Both copies of EQD show the value. -/
theorem eqd_eqdMoved (s : State) {eqd : Nat} (rtd : Nat) (hp : p < 24) (h : eqd < 2 ^ 32) :
    (s.eqdMoved p eqd rtd).fld (R.ubbPlaneEqd p) F.ubbPlaneEqd_eqd = eqd ∧ (s.eqdMoved p eqd rtd).fld (R.wardPlaneEqd p) F.wardPlaneEqd_eqd = eqd := by
  have hubb : R.ubbPlaneEqd p ∉ [R.timePlaneRtd p, R.timeStatus, R.timeRefStatus] := not_rtd_of_high hp (.inr (by simp only [R.ubbPlaneEqd]; omega))
  have hward : R.wardPlaneEqd p ∉ [R.timePlaneRtd p, R.timeStatus, R.timeRefStatus] :=
    not_rtd_of_high hp (.inr (by simp only [R.wardPlaneEqd]; omega))
  rw [State.eqdMoved, State.fld, State.fld, reg_setRtd_other _ _ _ hubb, reg_setRtd_other _ _ _ hward]
  exact ⟨(ubbEqd_setEqd ..).trans (Nat.mod_eq_of_lt h), (wardEqd_setEqd ..).trans (Nat.mod_eq_of_lt h)⟩

theorem eqdMoved_enrol (s : State) (p eqd rtd : Nat) : (s.eqdMoved p eqd rtd).enrol = s.enrol := retime_enrol _ _

theorem eqdMoved_dfp (s : State) (p eqd rtd : Nat) : (s.eqdMoved p eqd rtd).dfp = s.dfp := retime_dfp _ _

theorem changes_eqdMoved (s : State) (p eqd rtd : Nat) : Changes (PlaneOp p) s (s.eqdMoved p eqd rtd) :=
  (Changes.refl.setEqd fun _ _ => .inl).setRtd fun _ _ => id

/-! ## A plane ACTIVE -/

/-- A plane ACTIVE under PERMIT SERVICE with the groups held for it, before the terminal's step. -/
def State.served (s : State) (p : Nat) : State :=
  let s := ((s.setPlaneState p 4).setPermit p 3).setReg (R.ubbPlaneGroups p) (s.eplane p).groups
  s.setEplane p { s.eplane p with tRange := false }

theorem rangeResult_eq (s : State) (p eqd rtd : Nat) : s.rangeResult p eqd rtd =
    if (s.eqdMoved p eqd rtd).planeState p = 3 then ((s.eqdMoved p eqd rtd).served p).termStep else s.eqdMoved p eqd rtd := by
  unfold State.rangeResult State.eqdMoved State.served
  dsimp only

theorem reg_served_other (s : State) (p : Nat) {a : Nat} (h : a ∉ [(stateFld p).1, R.ubbPlaneCtl p, R.ubbPlaneGroups p]) :
    (s.served p).reg a = s.reg a := by
  simp only [List.mem_cons, List.not_mem_nil, or_false, not_or] at h
  obtain ⟨hstate, hctl, hgroups⟩ := h
  exact (reg_setReg_other _ _ hgroups).trans ((reg_setFld_other _ _ _ hctl).trans (reg_setPlaneState_other _ _ _ hstate))

theorem planeState_setReg (s : State) (q : Nat) {a : Nat} (w : Word) (h : a ≠ R.sysPlaneState0 ∧ a ≠ R.sysPlaneState1) :
    (s.setReg a w).planeState q = s.planeState q := planeState_congr (reg_setReg_other _ _ h.1.symm) (reg_setReg_other _ _ h.2.symm) q

theorem served_values (s : State) (p : Plane) : (s.served p).planeState p = 4 ∧
    (s.served p).fld (R.ubbPlaneCtl p) F.ubbPlaneCtl_permit = 3 ∧ (s.served p).reg (R.ubbPlaneGroups p) = (s.eplane p).groups ∧
    ((s.served p).eplane p).tRange = false := by
  have hgroups : R.ubbPlaneGroups p ≠ R.sysPlaneState0 ∧ R.ubbPlaneGroups p ≠ R.sysPlaneState1 := by
    simp only [R.ubbPlaneGroups, R.sysPlaneState0, R.sysPlaneState1]; omega
  have hctl : R.ubbPlaneCtl p ≠ R.ubbPlaneGroups p := by simp only [R.ubbPlaneCtl, R.ubbPlaneGroups]; omega
  refine ⟨?_, ?_, reg_setReg_same _ _ _, ?_⟩
  · exact (planeState_setReg _ _ _ hgroups).trans ((planeState_setPermit ..).trans (planeState_setPlaneState _ p (by decide)))
  · exact (fld_setReg_other _ _ _ hctl).trans (permit_setPermit _ _ (by decide))
  · exact congrArg EnrolPlane.tRange (eplane_setEplane_same ..)

theorem served_dfp (s : State) (p : Nat) : (s.served p).dfp = s.dfp := by
  unfold State.served
  rw [setPlaneState_eq]
  rfl

theorem changes_served (s : State) (p : Nat) : Changes (PlaneFld p) s (s.served p) :=
  Changes.frame (((Changes.refl.moveTo fun _ _ => id).setPermit fun _ _ => id).setGroups fun _ _ => id)

/-! ## The steps of the terminal by state -/

theorem termStep_listening (hunder : s.under = 1) (h : anyPlane s.aligned = true) :
    s.termStep = { s.setTerm 2 with enrol := { s.enrol with tAlign := false } } := by
  unfold State.termStep
  rw [hunder]
  exact if_pos h

theorem termStep_ranging (hunder : s.under = 4) (h : anyPlane s.aligned = true) : s.termStep = s.rangingStep := by
  unfold State.termStep
  rw [hunder]
  exact if_neg (by rw [h]; decide)

theorem termStep_operating (hunder : s.under = 5) (h : anyPlane s.aligned = true) : s.termStep = s := by
  unfold State.termStep
  rw [hunder]
  exact if_neg (by rw [h]; decide)

/-- Without an aligned plane RANGING and OPERATING give way to HOLDOVER, which remembers them. -/
theorem termStep_holdover (hunder : s.under = 4 ∨ s.under = 5) (h : anyPlane s.aligned = false) : s.termStep =
    { (s.count R.sysMediumCounts F.sysMediumCounts_holdovers).setTerm 6 with enrol := { s.enrol with prior := s.under } } := by
  unfold State.termStep
  rcases hunder with hunder | hunder <;>
  · rw [hunder]
    exact if_pos (by rw [h]; decide)

theorem termStep_stopped (hunder : s.under = 8) : s.termStep = s := by
  unfold State.termStep
  rw [hunder]
  rfl

/-- A plane ACTIVE takes RANGING to OPERATING. -/
theorem rangingStep_active (h : anyPlane (fun p => s.planeState p == 4) = true) : s.rangingStep = (s.setTerm 5).stateReport := if_pos h

end Sys2Proof.Machine
end

section
/-!
SUPPORT. The messages that set one plane (R169 to R177, R200): PROFILE, ASYMMETRY, ENROL_PARAMS in ALIGNED, ID_ASSIGN, RANGE_RESULT and EQD_ADJUST
as they are applied.
-/

namespace Sys2Proof.Machine

variable {s t : State} {m : Msg} {p : Plane}

theorem msgq_arrived (s : State) (m : Msg) : (s.arrived m).dfp.msgq = s.dfp.msgq.erase m := congrArg DfpState.msgq (arrived_dfp s m)

theorem msgq_of_arrived (h : t.dfp = (s.arrived m).dfp) : t.dfp.msgq = s.dfp.msgq.erase m := (congrArg DfpState.msgq h).trans (msgq_arrived s m)

theorem memKept_of_arrived {W : Nat → Fld → Prop} (h : Changes W (s.arrived m) t) : memKept s t := ((changes_arrived s m).trans h).memKept

/-! ## PROFILE and ASYMMETRY -/

theorem profile_applied (hpoint : s.atPoint m 3) (hlen : 8 ≤ m.body.length) (hplane : bodyField m.body 8 63 59 < 24) :
    ∃ t : State, exec (.profile m) s = .next t ∧
      t.reg (R.ubbProfile (bodyField m.body 8 63 59) (bodyField m.body 8 58 56)) = profileWord m ∧
      t.dfp.msgq = s.dfp.msgq.erase m ∧ memKept s t ∧
      regsKept s t [R.ubbProfile (bodyField m.body 8 63 59) (bodyField m.body 8 58 56)] := by
  have hchanges : Changes (fun a _ => a ∈ [R.ubbProfile (bodyField m.body 8 63 59) (bodyField m.body 8 58 56)]) s
      ((s.arrived m).setReg (R.ubbProfile (bodyField m.body 8 63 59) (bodyField m.body 8 58 56)) (profileWord m)) :=
    (changes_arrived s m).setReg (.head _)
  exact ⟨_, congrArg Host.Outcome.next (judge_applied hpoint hlen (.inl rfl) rfl (decide_eq_true hplane) rfl), reg_setReg_same .., msgq_arrived s m,
    hchanges.memKept, hchanges.regsKept⟩

theorem asymmetry_applied (hpoint : s.atPoint m 2) (hrun : s.termState ≠ 8) (hlen : 8 ≤ m.body.length) (hplane : bodyField m.body 8 63 59 < 24) :
    ∃ t : State, exec (.asymmetry m) s = .next t ∧
      t.fld (R.timePlaneAsym (bodyField m.body 8 63 59)) F.timePlaneAsym_coeff = bodyField m.body 8 31 0 ∧
      t.dfp.msgq = s.dfp.msgq.erase m ∧ memKept s t ∧ regsKept s t [R.timePlaneAsym (bodyField m.body 8 63 59)] := by
  have hchanges : Changes (fun a _ => a ∈ [R.timePlaneAsym (bodyField m.body 8 63 59)]) s ((s.arrived m).setFld
      (R.timePlaneAsym (bodyField m.body 8 63 59)) F.timePlaneAsym_coeff (bodyField m.body 8 31 0)) := (changes_arrived s m).setFld (.head _)
  exact ⟨_, congrArg Host.Outcome.next (judge_applied hpoint hlen (.inr hrun) rfl (decide_eq_true hplane) rfl),
    (fld_setFld_same _ _ _ _ (by decide) (by decide)).trans (Nat.mod_eq_of_lt (bodyField_lt ..)), msgq_arrived s m, hchanges.memKept,
    hchanges.regsKept⟩

/-! ## ENROL_PARAMS in ALIGNED -/

theorem enrolParams_announces (hpoint : s.atPoint m 4) (hrun : s.termState ≠ 8) (hlen : 16 ≤ m.body.length) (hunder : s.under = 2)
    (hvalue : bodyField m.body 16 127 96 ≤ 42500000) :
    ∃ t : State, exec (.enrolParams m) s = .next t ∧ t.under = 3 ∧ t.fld R.sysTermState F.sysTermState_attempts = 0 ∧
      t.fld R.sysTermState F.sysTermState_be = t.enrol.beMin ∧ t.enrol.tEnrol = true ∧
      (∃ r, r < 2 ^ t.enrol.beMin ∧ t.enrol.attempt = some (s.time.frame + 1, r)) ∧
      (∀ p : Plane, s.planeState p = 2 → t.planeState p = 2 ∧ t.fld (R.ubbPlaneCtl p) F.ubbPlaneCtl_permit =
        (if bitOf (bodyField m.body 16 95 72) p then 1 else 0)) ∧ memKept s t := by
  have hexec := exec_enrolParams_applied hpoint hlen (.inl hunder) hrun hvalue
  obtain ⟨-, -, hmem⟩ := enrolParams_values (s := s) (m := m) rfl
  rw [if_pos hunder, toAnnouncing_eq] at hexec hmem
  have hkept : Changes (fun _ _ => False) s (s.paramsKept m) := (changes_arrived s m).frame
  have hmin : (s.paramsKept m).enrol.beMin < 16 := by
    have hlt := bodyField_lt m.body 16 71 68
    have heq : (s.paramsKept m).enrol.beMin = min (bodyField m.body 16 71 68) (min 12 (bodyField m.body 16 67 64)) := rfl
    omega
  have hstate : ∀ p, (s.paramsKept m).planeState p = s.planeState p :=
    planeState_congr (hkept.reg fun _ h => h) (hkept.reg fun _ h => h)
  have hframe : (s.paramsKept m).announced.time.frame = s.time.frame :=
    (announced_keep (·.time.frame) (fun _ _ => rfl) (s.paramsKept m)).trans (arrived_frame s m)
  have henrol : (s.paramsKept m).announced.enrol = (s.paramsKept m).enrol := announced_keep State.enrol (fun _ _ => rfl) _
  have hbe := be_announced hmin
  have hin : ∀ p, (s.paramsKept m).inEnrolPlanes p = bitOf (bodyField m.body 16 95 72) p := fun _ => rfl
  obtain ⟨f, ub, r, hr, heq⟩ := drawn_eq (s.paramsKept m).announced
  have hdrawn : Changes (fun _ _ => False) (s.paramsKept m).announced (s.paramsKept m).announced.drawn := heq ▸ Changes.frame .refl
  have henrol' : (s.paramsKept m).announced.drawn.enrol = { (s.paramsKept m).enrol with
      tEnrol := true, attempt := some (s.time.frame + 1, r), taken := none, answerNow := (s.paramsKept m).enrol.answer } := by
    rw [heq, ← hframe, ← henrol]
  refine ⟨_, hexec, ?_, ?_, ?_, ?_, ⟨r, ?_, ?_⟩, fun p hp => ?_, hmem⟩
  · exact (hdrawn.fld fun _ h => h.elim).trans (under_announced _)
  · exact (hdrawn.fld fun _ h => h.elim).trans (attempts_announced _)
  · rw [hdrawn.fld fun _ h => h.elim, hbe, henrol']
  · rw [henrol']
  · rw [henrol', ← hbe]
    exact hr
  · rw [henrol']
  · obtain ⟨hstate', hpermit⟩ := announced_inFrame ((hstate p).trans hp)
    rw [hdrawn.fld fun _ h => h.elim, planeState_congr (hdrawn.reg fun _ h => h) (hdrawn.reg fun _ h => h), hpermit, hin]
    exact ⟨hstate', rfl⟩

/-! ## ID_ASSIGN -/

/-- The id is taken and PERMIT ENROL withdrawn from the other planes. -/
def State.idTaken (s : State) (p tid : Nat) : State :=
  (List.range 24).foldl (fun s q => if q ≠ p ∧ s.fld (R.ubbPlaneCtl q) F.ubbPlaneCtl_permit = 1 then s.setPermit q 0 else s) (s.writeTid tid)

/-- Enrolment ends in RANGING. -/
def State.enrolled (s : State) : State :=
  ({ s.withdraw (·.enrol) with enrol := { s.enrol with tEnrol := false, attempt := none, taken := none } } : State).setTerm 4

theorem idAssign_eq (s : State) (m : Msg) : s.idAssign m = ((s.idTaken (bodyField m.body 24 117 113) (bodyField m.body 24 127 118)).assigned
    (bodyField m.body 24 117 113) (BitVec.ofNat 64 (bodyField m.body 24 63 0))).enrolled := rfl

theorem changes_idTaken (s : State) (p tid : Nat) :
    Changes (fun a f => ∃ q, q < 24 ∧ (a, f) = (R.ubbPlaneCtl q, F.ubbPlaneCtl_permit)) (s.writeTid tid) (s.idTaken p tid) :=
  Changes.refl.foldl fun _ q hq h => .ite (fun _ => h.setFld ⟨q, List.mem_range.1 hq, rfl⟩) fun _ => h

theorem idTaken_keep {γ : Type} (g : State → γ) (h : ∀ (t : State) l, g { t with regs := l } = g t) (s : State) (p tid : Nat) :
    g (s.idTaken p tid) = g (s.writeTid tid) := by
  refine foldl_keep g _ (fun t q => ?_) _ _
  split
  · exact h t _
  · rfl

theorem idTaken_enrol (s : State) (p tid : Nat) : (s.idTaken p tid).enrol = s.enrol :=
  (idTaken_keep State.enrol (fun _ _ => rfl) s p tid).trans (writeTid_enrol s tid)

theorem idTaken_dfp (s : State) (p tid : Nat) : (s.idTaken p tid).dfp = s.dfp :=
  (idTaken_keep State.dfp (fun _ _ => rfl) s p tid).trans (writeTid_dfp s tid)

theorem tid_idTaken (s : State) (p : Nat) {tid : Nat} (h : tid < 2 ^ 10) : (s.idTaken p tid).fld R.dfpIdent F.dfpIdent_tid = tid := by
  refine ((changes_idTaken s p tid).fld fun g ⟨q, _, hg⟩ => ?_).trans (tid_writeTid s h)
  have haddr : R.dfpIdent = R.ubbPlaneCtl q := congrArg Prod.fst hg
  simp only [R.dfpIdent, R.ubbPlaneCtl] at haddr
  omega

theorem permit_idTaken (s : State) (p : Nat) (tid : Nat) {q : Plane} (h : q.val ≠ p) :
    (s.idTaken p tid).fld (R.ubbPlaneCtl q) F.ubbPlaneCtl_permit ≠ 1 := by
  obtain ⟨u, -, hafter⟩ := foldl_between (O := Beside q)
    (f := fun s r => if r ≠ p ∧ State.fld s (R.ubbPlaneCtl r) F.ubbPlaneCtl_permit = 1 then s.setPermit r 0 else s) (fun _ => .refl) .trans
    List.nodup_range (mem_planes q) (fun b r hr hne => .ite (fun _ => Beside.refl.setPermit (List.mem_range.1 hr) hne) fun _ => .refl) (s.writeTid tid)
  refine (hafter.fld q.isLt _ (.head _)).trans_ne ?_
  split
  · rw [permit_setPermit _ _ (by decide)]
    decide
  · rename_i hother
    exact fun hpermit => hother ⟨h, hpermit⟩

theorem Beside.idTaken (h : Beside p s t) (tid : Nat) : Beside p s (t.idTaken p tid) :=
  List.foldlRecOn (motive := Beside p s) _ _ h.writeTid fun _ h _ hq =>
    .ite (fun hc => h.setPermit (List.mem_range.1 hq) hc.1) fun _ => h

theorem changes_enrolled (s : State) : Changes TermFld s s.enrolled := Changes.setTerm (Changes.frame (Changes.frame .refl)) fun _ => id

theorem under_enrolled (s : State) : s.enrolled.under = 4 := under_setTerm _ (by decide)

theorem enrolled_dfp (s : State) : s.enrolled.dfp = s.dfp := rfl

theorem enrolled_tEnrol (s : State) : s.enrolled.enrol.tEnrol = false := rfl

theorem enrolled_msgs (s : State) : ∀ x ∈ s.enrolled.ubb.msgs, x.enrol = false := fun _ hx => by simpa using (List.mem_filter.1 hx).2

theorem Beside.enrolled (h : Beside p s t) : Beside p s t.enrolled :=
  h.of_changes (changes_enrolled t) (fun _ _ ha => .inr (ha.1 ▸ termOnly_sysTermState)) rfl

theorem eqd_ranged (s : State) (p : Nat) : (s.ranged p).fld (R.ubbPlaneEqd p) F.ubbPlaneEqd_eqd = s.enrol.preEqd % 2 ^ 32 ∧
    (s.ranged p).fld (R.wardPlaneEqd p) F.wardPlaneEqd_eqd = s.enrol.preEqd % 2 ^ 32 := ⟨ubbEqd_setEqd .., wardEqd_setEqd ..⟩

theorem eqd_assigned (s : State) (p : Nat) (g : Word) :
    (s.assigned p g).fld (R.ubbPlaneEqd p) F.ubbPlaneEqd_eqd = s.enrol.preEqd % 2 ^ 32 ∧
    (s.assigned p g).fld (R.wardPlaneEqd p) F.wardPlaneEqd_eqd = s.enrol.preEqd % 2 ^ 32 := eqd_ranged s p

theorem assigned_dfp (s : State) (p : Nat) (g : Word) : (s.assigned p g).dfp = s.dfp := ranged_dfp s p

theorem idAssign_applied (hpoint : s.atPoint m 5) (hrun : s.termState ≠ 8) (hlen : 24 ≤ m.body.length)
    (hserial : bodyField m.body 24 191 128 = (s.reg R.sysSerial).toNat) (hunder : s.under = 3) (htid : bodyField m.body 24 127 118 ≤ 0x3FB)
    (hp : bodyField m.body 24 117 113 = p.val) (hstate : s.planeState p = 2) :
    ∃ t : State, exec (.idAssign m) s = .next t ∧ t.fld R.dfpIdent F.dfpIdent_tid = bodyField m.body 24 127 118 ∧ t.under = 4 ∧
      t.planeState p = 3 ∧
      t.fld (R.ubbPlaneCtl p) F.ubbPlaneCtl_permit = 2 ∧ t.fld (R.ubbPlaneEqd p) F.ubbPlaneEqd_eqd = s.enrol.preEqd % 2 ^ 32 ∧
      t.fld (R.wardPlaneEqd p) F.wardPlaneEqd_eqd = s.enrol.preEqd % 2 ^ 32 ∧ (t.eplane p).tRange = true ∧ t.enrol.tEnrol = false ∧
      (∀ q : Plane, q ≠ p → t.fld (R.ubbPlaneCtl q) F.ubbPlaneCtl_permit ≠ 1) ∧ (∀ x ∈ t.ubb.msgs, x.enrol = false) ∧
      t.dfp.msgq = s.dfp.msgq.erase m ∧ memKept s t := by
  have hvalue : (decide (bodyField m.body 24 127 118 ≤ 0x3FB) && decide (bodyField m.body 24 117 113 < 24)) = true := by
    rw [decide_eq_true htid, decide_eq_true (hp ▸ p.isLt)]
    rfl
  have hexec : exec (.idAssign m) s = .next ((s.arrived m).idAssign m) := by
    have heq : exec (.idAssign m) s = .next (s.judge m 5 24 (if bodyField m.body 24 191 128 ≠ (s.reg R.sysSerial).toNat then some (fun s => s) else
      none) true (s.under == 3) (decide (bodyField m.body 24 127 118 ≤ 0x3FB) && decide (bodyField m.body 24 117 113 < 24))
      (s.planeState (bodyField m.body 24 117 113) == 2) (·.idAssign m)) := rfl
    rw [heq, if_neg (not_not.2 hserial), judge_applied hpoint hlen (.inr hrun) (beq_iff_eq.2 hunder) hvalue (beq_iff_eq.2 (hp ▸ hstate))]
  rw [idAssign_eq, hp] at hexec
  generalize BitVec.ofNat 64 (bodyField m.body 24 63 0) = g at hexec
  generalize hu : (s.arrived m).idTaken p (bodyField m.body 24 127 118) = u at hexec
  have henrol : u.enrol.preEqd = s.enrol.preEqd := by rw [← hu, idTaken_enrol, arrived_enrol]
  have hplane : Beside p (u.assigned p g) (u.assigned p g).enrolled := Beside.refl.enrolled
  have hbase : Changes BaseFld s (u.assigned p g).enrolled := by
    have htaken : Changes BaseFld (s.arrived m) u := hu ▸ (changes_writeTid_base _ _).trans ((changes_idTaken _ _ _).mono fun _ _ ⟨q, hq, hf⟩ => by
      cases hf
      exact .inl ⟨q, hq, .inl (.head _)⟩)
    have hassigned : Changes BaseFld (s.arrived m) (u.assigned p g) := htaken.assigned fun _ _ h => .inl ⟨p, p.isLt, h⟩
    exact (changes_arrived s m).trans (hassigned.trans ((changes_enrolled _).mono fun _ _ h => .inr (h.1 ▸ termOnly_sysTermState)))
  obtain ⟨hubb, hward⟩ := eqd_assigned u p g
  refine ⟨_, hexec, ?_, under_enrolled _, (hplane.planeState p.isLt).trans (planeState_assigned u p g),
    (hplane.fld p.isLt _ (.head _)).trans (permit_assigned u p g), ?_, ?_, (congrArg _ hplane.eplane).trans (eplane_assigned u p g).1,
    enrolled_tEnrol _, fun q hq => ?_, enrolled_msgs _, ?_, hbase.memKept⟩
  · rw [(changes_enrolled _).fld fun _ h => absurd h.1 (by decide), (changes_assigned u p g).fld, ← hu]
    · exact tid_idTaken _ _ (by omega)
    · have := p.isLt
      simp only [List.mem_cons, List.not_mem_nil, or_false, R.sysPlaneState0, R.sysPlaneState1, R.ubbPlaneCtl, R.ubbPlaneEqd, R.wardPlaneEqd, R.dfpIdent]
      omega
  · rw [hplane.fld p.isLt _ (.tail _ (.head _)), hubb, henrol]
  · rw [hplane.fld p.isLt _ (.tail _ (.tail _ (.head _))), hward, henrol]
  · have hne : p.val ≠ q.val := fun h => hq (Fin.ext h.symm)
    have hbeside : Beside q u (u.assigned p g).enrolled := (Beside.refl.assigned p.isLt hne).enrolled
    rw [hbeside.fld q.isLt _ (.head _), ← hu]
    exact permit_idTaken _ _ _ (Ne.symm hne)
  · refine msgq_of_arrived ((enrolled_dfp _).trans ((assigned_dfp u p g).trans ?_))
    rw [← hu]
    exact idTaken_dfp _ _ _

end Sys2Proof.Machine
end

section
/-!
SUPPORT. The round trip of a plane (R176, R177): RANGE_RESULT and EQD_ADJUST as they are applied.
-/

namespace Sys2Proof.Machine

variable {s t : State} {m : Msg} {p : Plane}

/-! ## RANGE_RESULT -/

theorem rangeResult_keep {W : Nat → Fld → Prop} (s : State) {p eqd rtd : Nat} (hw : ∀ a f, PlaneOp p a f → W a f)
    (ht : ∀ a f, StepFld a f → W a f) :
    Changes W s (s.rangeResult p eqd rtd) := by
  have hmoved : Changes W s (s.eqdMoved p eqd rtd) := (changes_eqdMoved s p eqd rtd).mono hw
  rw [rangeResult_eq]
  exact .ite (fun _ => (hmoved.trans ((changes_served _ p).mono fun a f h => hw a f (.inl h))).trans ((changes_termStep_fields _).mono ht)) fun _ => hmoved

theorem rangeResult_dfp (s : State) (p eqd rtd : Nat) : (s.rangeResult p eqd rtd).dfp = s.dfp := by
  rw [rangeResult_eq]
  split
  · exact (termStep_dfp _).trans ((served_dfp _ p).trans (eqdMoved_dfp s p eqd rtd))
  · exact eqdMoved_dfp s p eqd rtd

theorem changes_served_termFld (s : State) (p : Plane) : (s.served p).under = s.under :=
  (changes_served s p).fld fun _ hg => absurd hg (not_planeFld_of_termOnly p.isLt termOnly_sysTermState _)

theorem under_eqdMoved (s : State) (p : Plane) (eqd rtd : Nat) : (s.eqdMoved p eqd rtd).under = s.under :=
  (changes_eqdMoved s p eqd rtd).fld fun _ hg => absurd hg (not_planeOp_of_termOnly p.isLt (.head _) _)

/-- RANGING with an aligned and an ACTIVE plane gives way to OPERATING. -/
theorem under_termStep_active (hunder : s.under = 4) (haligned : anyPlane s.aligned = true) (h : s.planeState p = 4) : s.termStep.under = 5 := by
  rw [termStep_ranging hunder haligned, rangingStep_active (anyPlane_of p (by rw [h]; rfl)), under_stateReport]
  exact under_setTerm s (by decide)

/-- Both copies of EQD and the round trip of the plane, whether or not it becomes ACTIVE. -/
theorem rangeResult_trip (s : State) {p : Plane} {eqd rtd : Nat} (heqd : eqd < 2 ^ 32) (hrtd : rtd < 2 ^ 32) :
    (s.rangeResult p eqd rtd).fld (R.ubbPlaneEqd p) F.ubbPlaneEqd_eqd = eqd ∧ (s.rangeResult p eqd rtd).fld (R.wardPlaneEqd p) F.wardPlaneEqd_eqd = eqd ∧
      (s.rangeResult p eqd rtd).reg (R.timePlaneRtd p) = BitVec.ofNat 64 (2 ^ 63 + rtd) := by
  obtain ⟨hubb, hward⟩ := eqd_eqdMoved s rtd p.isLt heqd
  have hreg : ∀ a ∈ [R.ubbPlaneEqd p, R.wardPlaneEqd p, R.timePlaneRtd p], (s.rangeResult p eqd rtd).reg a = (s.eqdMoved p eqd rtd).reg a := fun a ha => by
    have hmem : a ∈ planeRegs p := by simp only [planeRegs, List.mem_cons, List.not_mem_nil, or_false] at ha ⊢; tauto
    have hne : a ∉ [R.ubbPlaneCtl p, R.ubbPlaneGroups p] := by
      have := p.isLt
      simp only [List.mem_cons, List.not_mem_nil, or_false, R.ubbPlaneCtl, R.ubbPlaneGroups, R.ubbPlaneEqd, R.wardPlaneEqd, R.timePlaneRtd] at ha ⊢
      omega
    have hstate : a ≠ (stateFld p).1 := fun h => stateFld_ne_planeRegs p p (h ▸ hmem)
    rw [rangeResult_eq]
    split
    · refine (reg_termStep _ p.isLt hmem (fun h => hne (h ▸ .head _))).trans (reg_served_other _ _ ?_)
      exact fun h => (List.mem_cons.1 h).elim hstate hne
    · rfl
  refine ⟨?_, ?_, ?_⟩
  · rw [State.fld, hreg _ (.head _)]
    exact hubb
  · rw [State.fld, hreg _ (.tail _ (.head _))]
    exact hward
  · rw [hreg _ (.tail _ (.tail _ (.head _)))]
    exact rtd_eqdMoved s p eqd hrtd

/-- An ASSIGNED plane becomes ACTIVE under PERMIT SERVICE with the groups held for it. -/
theorem rangeResult_assigned (s : State) {p : Plane} {eqd rtd : Nat} (h : s.planeState p = 3) :
    (s.rangeResult p eqd rtd).planeState p = 4 ∧ (s.rangeResult p eqd rtd).reg (R.ubbPlaneGroups p) = (s.eplane p).groups ∧
      ((s.rangeResult p eqd rtd).eplane p).tRange = false ∧
      (4 ≤ s.under → (s.rangeResult p eqd rtd).fld (R.ubbPlaneCtl p) F.ubbPlaneCtl_permit = 3) ∧
      (s.under = 4 → s.aligned p = true → (s.rangeResult p eqd rtd).under = 5) := by
  have hunder : ((s.eqdMoved p eqd rtd).served p).under = s.under := (changes_served_termFld _ p).trans (under_eqdMoved s p eqd rtd)
  have hheld : (s.eqdMoved p eqd rtd).eplane p = s.eplane p := eplane_congr s p (eqdMoved_enrol s p eqd rtd)
  have hbase : Changes BaseFld s ((s.eqdMoved p eqd rtd).served p) := ((changes_eqdMoved s p eqd rtd).mono fun _ _ => baseFld_of_planeOp p.isLt).trans
    ((changes_served _ p).mono fun _ _ hf => .inl ⟨p, p.isLt, hf⟩)
  have hne : R.ubbPlaneGroups p ≠ R.ubbPlaneCtl p := by simp only [R.ubbPlaneGroups, R.ubbPlaneCtl]; omega
  obtain ⟨hstate, hpermit, hgroups, hrange⟩ := served_values (s.eqdMoved p eqd rtd) p
  rw [rangeResult_eq, if_pos ((planeState_eqdMoved s p eqd rtd p p.isLt).trans h)]
  refine ⟨(planeState_termStep _ p.isLt).trans hstate, ?_, (congrArg EnrolPlane.tRange (eplane_termStep _ p.isLt)).trans hrange, fun h4 => ?_,
    fun h4 haligned => ?_⟩
  · rw [reg_termStep _ p.isLt (.tail _ (.tail _ (.tail _ (.head _)))) hne, hgroups, hheld]
  · exact (permit_termStep p.isLt (hunder ▸ h4)).trans hpermit
  · exact under_termStep_active (hunder.trans h4) ((anyAligned_base hbase).trans (anyPlane_of p haligned)) hstate

theorem rangeResult_active (s : State) {p : Plane} {eqd rtd : Nat} (h : s.planeState p = 4) : (s.rangeResult p eqd rtd).planeState p = 4 := by
  have hmoved := (planeState_eqdMoved s p eqd rtd p p.isLt).trans h
  rw [rangeResult_eq, if_neg (by rw [hmoved]; decide)]
  exact hmoved

theorem rangeResult_applied (hpoint : s.atPoint m 6) (hrun : s.termState ≠ 8) (hlen : 16 ≤ m.body.length) (hp : bodyField m.body 16 127 123 = p.val)
    (heqd : bodyField m.body 16 95 64 ≤ 42500000) (hstate : s.planeState p = 3 ∨ s.planeState p = 4) :
    ∃ t : State, exec (.rangeResult m) s = .next t ∧ t.planeState p = 4 ∧
      t.fld (R.ubbPlaneEqd p) F.ubbPlaneEqd_eqd = bodyField m.body 16 95 64 ∧
        t.fld (R.wardPlaneEqd p) F.wardPlaneEqd_eqd = bodyField m.body 16 95 64 ∧
      t.reg (R.timePlaneRtd p) = BitVec.ofNat 64 (2 ^ 63 + bodyField m.body 16 63 32) ∧
      (s.planeState p = 3 → t.reg (R.ubbPlaneGroups p) = (s.eplane p).groups ∧ (t.eplane p).tRange = false ∧
        (4 ≤ s.under → t.fld (R.ubbPlaneCtl p) F.ubbPlaneCtl_permit = 3) ∧ (s.under = 4 → s.aligned p = true → t.under = 5)) ∧
      t.dfp.msgq = s.dfp.msgq.erase m ∧ memKept s t := by
  have hvalue : (decide (p.val < 24) && decide (bodyField m.body 16 95 64 ≤ eqdMax)) = true := by
    rw [decide_eq_true p.isLt, decide_eq_true (show bodyField m.body 16 95 64 ≤ eqdMax from heqd)]
    rfl
  have hplane : (s.planeState p == 3 || s.planeState p == 4) = true := by
    rcases hstate with h | h <;> rw [h] <;> rfl
  have hexec : exec (.rangeResult m) s =
      .next ((s.arrived m).rangeResult p (bodyField m.body 16 95 64) (bodyField m.body 16 63 32)) := by
    have heq : exec (.rangeResult m) s = .next (s.judge m 6 16 none true true
        (decide (bodyField m.body 16 127 123 < 24) && decide (bodyField m.body 16 95 64 ≤ eqdMax))
        (s.planeState (bodyField m.body 16 127 123) == 3 || s.planeState (bodyField m.body 16 127 123) == 4)
        (·.rangeResult (bodyField m.body 16 127 123) (bodyField m.body 16 95 64) (bodyField m.body 16 63 32))) := rfl
    rw [heq, hp, judge_applied hpoint hlen (.inr hrun) rfl hvalue hplane]
  obtain ⟨hubb, hward, hrtd⟩ := rangeResult_trip (s.arrived m) (p := p) (bodyField_lt m.body 16 95 64) (bodyField_lt m.body 16 63 32)
  have hassigned := rangeResult_assigned (s.arrived m) (p := p) (eqd := bodyField m.body 16 95 64) (rtd := bodyField m.body 16 63 32)
  have hactive := rangeResult_active (s.arrived m) (p := p) (eqd := bodyField m.body 16 95 64) (rtd := bodyField m.body 16 63 32)
  rw [planeState_arrived] at hassigned hactive
  rw [eplane_arrived, under_arrived, aligned_arrived] at hassigned
  refine ⟨_, hexec, hstate.elim (fun h => (hassigned h).1) hactive, hubb, hward, hrtd, fun h => (hassigned h).2,
    msgq_of_arrived (rangeResult_dfp ..), ?_⟩
  exact memKept_of_arrived (rangeResult_keep (W := fun _ _ => True) _ (fun _ _ _ => trivial) fun _ _ _ => trivial)

/-! ## EQD_ADJUST -/

theorem exec_eqdAdjust (hp : bodyField m.body 16 127 123 = p.val) : exec (.eqdAdjust m) s = .next (s.judge m 7 16 none true true
    (decide (p.val < 24) && decide (0 ≤ s.adjusted m) && decide (s.adjusted m ≤ (eqdMax : Int))) (s.planeState p == 4)
    (·.eqdMoved p (s.adjusted m).toNat (bodyField m.body 16 63 32))) := by
  rw [← hp]
  rfl

theorem eqdAdjust_applied (hpoint : s.atPoint m 7) (hrun : s.termState ≠ 8) (hlen : 16 ≤ m.body.length) (hp : bodyField m.body 16 127 123 = p.val)
    (hstate : s.planeState p = 4) (hlow : 0 ≤ s.adjusted m) (hhigh : s.adjusted m ≤ 42500000) :
    ∃ t : State, exec (.eqdAdjust m) s = .next t ∧ (t.fld (R.ubbPlaneEqd p) F.ubbPlaneEqd_eqd : Int) = s.adjusted m ∧
      (t.fld (R.wardPlaneEqd p) F.wardPlaneEqd_eqd : Int) = s.adjusted m ∧ t.planeState p = 4 ∧ t.dfp.msgq = s.dfp.msgq.erase m ∧
      memKept s t := by
  have hvalue : (decide (p.val < 24) && decide (0 ≤ s.adjusted m) && decide (s.adjusted m ≤ (eqdMax : Int))) = true := by
    rw [decide_eq_true p.isLt, decide_eq_true hlow, decide_eq_true (show s.adjusted m ≤ (eqdMax : Int) from hhigh)]
    rfl
  have hexec := judge_applied (apply := (·.eqdMoved p (s.adjusted m).toNat (bodyField m.body 16 63 32))) hpoint hlen (.inr hrun) (stopped := true)
    (okState := true) rfl hvalue (beq_iff_eq.2 hstate)
  obtain ⟨hubb, hward⟩ := eqd_eqdMoved (s.arrived m) (bodyField m.body 16 63 32) p.isLt (eqd := (s.adjusted m).toNat) (by omega)
  refine ⟨_, (exec_eqdAdjust hp).trans (congrArg _ hexec), ?_, ?_, ?_, msgq_of_arrived (eqdMoved_dfp ..), memKept_of_arrived (changes_eqdMoved ..)⟩
  · rw [hubb, Int.toNat_of_nonneg hlow]
  · rw [hward, Int.toNat_of_nonneg hlow]
  · rw [planeState_eqdMoved _ _ _ _ _ p.isLt, planeState_arrived, hstate]

theorem eqdAdjust_outOfRange (hpoint : s.atPoint m 7) (hrun : s.termState ≠ 8) (hlen : 16 ≤ m.body.length) (hp : bodyField m.body 16 127 123 = p.val)
    (hvalue : s.adjusted m < 0 ∨ 42500000 < s.adjusted m) :
    ∃ t : State, exec (.eqdAdjust m) s = .next t ∧ counted s t R.sysRejectCounts F.sysRejectCounts_badValue ∧ memKept s t ∧
      regsKept s t [R.sysRejectCounts] := by
  have hrange : (decide (p.val < 24) && decide (0 ≤ s.adjusted m) && decide (s.adjusted m ≤ (eqdMax : Int))) = false := by
    have hmax : (eqdMax : Int) = 42500000 := rfl
    rw [Bool.and_eq_false_iff, Bool.and_eq_false_iff, decide_eq_false_iff_not, decide_eq_false_iff_not, decide_eq_false_iff_not]
    omega
  exact ⟨_, (exec_eqdAdjust hp).trans (congrArg _ (judge_badValue hpoint hlen (.inr hrun) rfl hrange)),
    arrived_count s m R.sysRejectCounts (by decide) (by decide)⟩

end Sys2Proof.Machine
end

section
/-!
SUPPORT. The messages that name planes or the terminal as a whole (R168, R169, R178, R184): PLANE_ASSIGN, PLANE_RELEASE, DEREGISTER and
STATE_REQUEST as they are applied; O21 is settled here.
-/

namespace Sys2Proof.Machine

variable {W : Nat → Fld → Prop} {s t : State} {m : Msg} {p : Plane}

/-! ## Planes named by a mask -/

theorem planesOf_nodup (mask : Nat) : (planesOf mask).Nodup := List.nodup_range.filter _

theorem mem_planesOf {mask q : Nat} : q ∈ planesOf mask ↔ q < 24 ∧ bitOf mask q = true := by rw [planesOf, List.mem_filter, List.mem_range]

theorem planesOf_single : ∀ p : Plane, planesOf (2 ^ p.val) = [p.val] := by decide

/-! ## PLANE_ASSIGN -/

theorem assignPlane_inFrame {q : Nat} (g : Word) (h : s.planeState q = 2) : s.assignPlane g q = s.assigned q g := by
  unfold State.assignPlane
  rw [h]
  rfl

theorem assignPlane_dfp (s : State) (g : Word) (q : Nat) : (s.assignPlane g q).dfp = s.dfp := by
  unfold State.assignPlane
  split
  · exact assigned_dfp s q g
  all_goals rfl

theorem Changes.assignPlane (h : Changes W s t) {g : Word} {q : Nat} (hw : ∀ a f, PlaneFld q a f → W a f)
    (hc : W R.sysRejectCounts F.sysRejectCounts_badState) : Changes W s (t.assignPlane g q) := by
  unfold State.assignPlane
  split
  · exact h.assigned hw
  · exact h.frame
  · exact h.setGroups hw
  · exact h.count hc

theorem Beside.assignPlane (h : Beside p s t) {g : Word} {q : Nat} (hq : q < 24) (hne : q ≠ p) : Beside p s (t.assignPlane g q) := by
  unfold State.assignPlane
  split
  · exact h.assigned hq hne
  · exact h.setEplane hne
  · exact h.setGroups hq hne
  · exact h.count termOnly_sysRejectCounts

/-- Every plane that a mask names is assigned. -/
def State.assignAll (s : State) (mask : Nat) (g : Word) : State := (planesOf mask).foldl (fun s p => s.assignPlane g p) s

theorem assignAll_dfp (s : State) (mask : Nat) (g : Word) : (s.assignAll mask g).dfp = s.dfp :=
  foldl_keep State.dfp (fun s p => State.assignPlane s g p) (fun t q => assignPlane_dfp t g q) _ s

theorem changes_assignAll (s : State) (mask : Nat) (g : Word) : Changes BaseFld s (s.assignAll mask g) :=
  Changes.refl.foldl fun _ q hq h => h.assignPlane (fun _ _ hf => .inl ⟨q, (mem_planesOf.1 hq).1, hf⟩) (.inr termOnly_sysRejectCounts)

theorem assignAll_named (mask : Nat) (g : Word) (hbit : bitOf mask p = true) (h : s.planeState p = 2) :
    (s.assignAll mask g).planeState p = 3 ∧ (s.assignAll mask g).fld (R.ubbPlaneCtl p) F.ubbPlaneCtl_permit = 2 ∧
      ((s.assignAll mask g).eplane p).tRange = true ∧ ((s.assignAll mask g).eplane p).groups = g := by
  obtain ⟨u, hbefore, hafter⟩ := foldl_between (O := Beside p) (f := fun s q => State.assignPlane s g q) (fun _ => .refl) .trans
    (planesOf_nodup mask) (mem_planesOf.2 ⟨p.isLt, hbit⟩) (fun b q hq hne => Beside.refl.assignPlane (mem_planesOf.1 hq).1 hne) s
  rw [assignPlane_inFrame g ((hbefore.planeState p.isLt).trans h)] at hafter
  obtain ⟨hrange, hgroups⟩ := eplane_assigned u p g
  exact ⟨(hafter.planeState p.isLt).trans (planeState_assigned u p g), (hafter.fld p.isLt _ (.head _)).trans (permit_assigned u p g),
    (congrArg _ hafter.eplane).trans hrange, (congrArg _ hafter.eplane).trans hgroups⟩

theorem planeAssign_applied (hpoint : s.atPoint m 8) (hrun : s.termState ≠ 8) (hlen : 16 ≤ m.body.length) (hunder : s.under = 4 ∨ s.under = 5) :
    ∃ t : State, exec (.planeAssign m) s = .next t ∧ t.dfp.msgq = s.dfp.msgq.erase m ∧ memKept s t ∧
      (∀ p : Plane, bitOf (bodyField m.body 16 127 104) p = true → s.planeState p = 2 →
        t.planeState p = 3 ∧ t.fld (R.ubbPlaneCtl p) F.ubbPlaneCtl_permit = 2 ∧ (t.eplane p).tRange = true ∧
        (t.eplane p).groups.toNat = bodyField m.body 16 63 0) ∧
      (∀ p : Plane, bodyField m.body 16 127 104 = 2 ^ p.val → s.planeState p = 2 →
        regsKept s t [R.sysPlaneState0, R.sysPlaneState1, R.ubbPlaneCtl p, R.ubbPlaneEqd p, R.wardPlaneEqd p]) := by
  have hstate : (s.under == 4 || s.under == 5) = true := by rcases hunder with h | h <;> rw [h] <;> rfl
  have hexec : exec (.planeAssign m) s =
      .next ((s.arrived m).assignAll (bodyField m.body 16 127 104) (BitVec.ofNat 64 (bodyField m.body 16 63 0))) :=
    congrArg Host.Outcome.next (judge_applied hpoint hlen (.inr hrun) hstate rfl rfl)
  refine ⟨_, hexec, msgq_of_arrived (assignAll_dfp ..), memKept_of_arrived (changes_assignAll ..), fun p hbit hp => ?_, fun p hmask hp => ?_⟩
  · obtain ⟨hassigned, hpermit, hrange, hgroups⟩ := assignAll_named (s := s.arrived m) (bodyField m.body 16 127 104)
      (BitVec.ofNat 64 (bodyField m.body 16 63 0)) hbit ((planeState_arrived s m p).trans hp)
    refine ⟨hassigned, hpermit, hrange, ?_⟩
    rw [hgroups, BitVec.toNat_ofNat, Nat.mod_eq_of_lt (bodyField_lt ..)]
  · have hone : ∀ g, (s.arrived m).assignAll (bodyField m.body 16 127 104) g = (s.arrived m).assigned p g := fun g => by
      rw [State.assignAll, hmask, planesOf_single]
      exact assignPlane_inFrame g ((planeState_arrived s m p).trans hp)
    rw [hone]
    exact ((changes_arrived s m).trans (changes_assigned ..)).regsKept

/-! ## PLANE_RELEASE -/

theorem releaseTo_dfp (s : State) (q st : Nat) : (s.releaseTo q st).dfp = s.dfp := by
  rw [releaseTo_eq, setPlaneState_eq]
  exact dropRtd_dfp (s.emptied q) q

theorem releasePlane_dfp (s : State) (q : Nat) : (s.releasePlane q).dfp = s.dfp := by
  unfold State.releasePlane
  split
  · exact releaseTo_dfp s q 2
  · rfl

theorem Changes.releasePlane (h : Changes W s t) {q : Nat} (hw : ∀ a f, PlaneOp q a f → W a f)
    (hc : W R.sysRejectCounts F.sysRejectCounts_badState) : Changes W s (t.releasePlane q) :=
  .ite (fun _ => h.releaseTo hw) fun _ => h.count hc

theorem Beside.releasePlane (h : Beside p s t) {q : Nat} (hq : q < 24) (hne : q ≠ p) : Beside p s (t.releasePlane q) :=
  .ite (fun _ => h.releaseTo hq hne) fun _ => h.count termOnly_sysRejectCounts

/-- Every plane that a mask names is released. -/
def State.releaseAll (s : State) (mask : Nat) : State := (planesOf mask).foldl (fun s p => s.releasePlane p) s

theorem releaseAll_dfp (s : State) (mask : Nat) : (s.releaseAll mask).dfp = s.dfp :=
  foldl_keep State.dfp (fun s p => State.releasePlane s p) releasePlane_dfp _ s

theorem changes_releaseAll (s : State) (mask : Nat) :
    Changes (fun a f => (∃ q, q < 24 ∧ PlaneOp q a f) ∨ a = R.sysRejectCounts) s (s.releaseAll mask) :=
  Changes.refl.foldl fun _ q hq h => h.releasePlane (fun _ _ hf => .inl ⟨q, (mem_planesOf.1 hq).1, hf⟩) (.inr rfl)

theorem base_releaseAll (s : State) (mask : Nat) : Changes BaseFld s (s.releaseAll mask) := (changes_releaseAll s mask).mono fun _ _ h =>
  h.elim (fun ⟨_, hq, hf⟩ => baseFld_of_planeOp hq hf) fun h => .inr (h ▸ termOnly_sysRejectCounts)

theorem under_releaseAll (s : State) (mask : Nat) : (s.releaseAll mask).under = s.under := by
  refine (changes_releaseAll s mask).fld fun g hg => ?_
  rcases hg with ⟨q, hq, hf⟩ | ha
  · exact absurd hf (not_planeOp_of_termOnly hq (.head _) g)
  · exact absurd ha (by decide)

theorem releasedAt_releaseAll {mask : Nat} (hbit : bitOf mask p = true) (h : s.planeState p = 3 ∨ s.planeState p = 4) :
    (s.releaseAll mask).releasedAt p 2 := by
  obtain ⟨u, hbefore, hafter⟩ := foldl_between (O := Beside p) (f := fun s q => State.releasePlane s q) (fun _ => .refl) .trans
    (planesOf_nodup mask) (mem_planesOf.2 ⟨p.isLt, hbit⟩) (fun b q hq hne => Beside.refl.releasePlane (mem_planesOf.1 hq).1 hne) s
  have hnamed : u.releasePlane p = u.releaseTo p 2 := if_pos (by rw [hbefore.planeState p.isLt]; exact h)
  rw [hnamed] at hafter
  exact hafter.releasedAt p.isLt (releasedAt_releaseTo u p (by decide))

theorem releasedAt_setPermit {st : Nat} (h : s.releasedAt p st) : (s.setPermit p 0).releasedAt p st := by
  obtain ⟨hstate, -, hubb, hward, hgroups⟩ := h
  have hother : ∀ a ∈ [R.ubbPlaneEqd p, R.wardPlaneEqd p, R.ubbPlaneGroups p], a ≠ R.ubbPlaneCtl p := fun a ha => by
    simp only [List.mem_cons, List.not_mem_nil, or_false, R.ubbPlaneEqd, R.wardPlaneEqd, R.ubbPlaneGroups, R.ubbPlaneCtl] at ha ⊢
    omega
  exact ⟨(planeState_setPermit ..).trans hstate, permit_setPermit _ _ (by decide), (fld_setFld_other _ _ _ _ (hother _ (.head _))).trans hubb,
    (fld_setFld_other _ _ _ _ (hother _ (.tail _ (.head _)))).trans hward,
    (reg_setFld_other _ _ _ (hother _ (.tail _ (.tail _ (.head _))))).trans hgroups⟩

theorem releasedAt_termStep {st : Nat} (h : s.releasedAt p st) : s.termStep.releasedAt p st :=
  holds_termStep (P := fun t => t.releasedAt p st) p.isLt (fun hb h => hb.releasedAt p.isLt h) releasedAt_setPermit h

theorem planeRelease_applied (hpoint : s.atPoint m 9) (hrun : s.termState ≠ 8) (hlen : 8 ≤ m.body.length) :
    ∃ t : State, exec (.planeRelease m) s = .next t ∧ t.dfp.msgq = s.dfp.msgq.erase m ∧ memKept s t ∧
      (∀ p : Plane, bitOf (bodyField m.body 8 63 40) p = true → (s.planeState p = 3 ∨ s.planeState p = 4) → t.releasedAt p 2) ∧
      (∀ p : Plane, s.under = 5 → s.aligned p = true → t.under = 5) := by
  have hexec : exec (.planeRelease m) s = .next ((s.arrived m).releaseAll (bodyField m.body 8 63 40)).termStep :=
    congrArg Host.Outcome.next (judge_applied hpoint hlen (.inr hrun) rfl rfl rfl)
  generalize bodyField m.body 8 63 40 = mask at hexec ⊢
  have hbase := base_releaseAll (s.arrived m) mask
  refine ⟨_, hexec, msgq_of_arrived ((termStep_dfp _).trans (releaseAll_dfp ..)), ?_, fun p hbit hp => ?_, fun p hunder haligned => ?_⟩
  · exact memKept_of_arrived ((hbase.mono fun _ _ => Or.inl).trans ((changes_termStep_fields _).mono fun _ _ => Or.inr))
  · exact releasedAt_termStep (releasedAt_releaseAll hbit (by rw [planeState_arrived]; exact hp))
  · have hstill : ((s.arrived m).releaseAll mask).under = 5 := (under_releaseAll ..).trans ((under_arrived s m).trans hunder)
    rw [termStep_operating hstill]
    · exact hstill
    · exact (anyAligned_base hbase).trans (anyPlane_of p ((aligned_arrived s m p).trans haligned))

/-! ## DEREGISTER -/

/-- The terminal without an id, in ALIGNED, its queued messages dropped. -/
def State.deregistered (s : State) : State := (s.dropId.withdraw (fun _ => true)).setTerm 2

theorem changes_dropId (s : State) : Changes (fun a f => ∃ q, q < 24 ∧ PlaneOp q a f) (s.writeTid 0x3FE) s.dropId :=
  Changes.refl.foldl fun _ q hq h => .ite (fun _ => h.releaseTo fun _ _ hf => ⟨q, List.mem_range.1 hq, hf⟩) fun _ => h

theorem base_dropId (s : State) : Changes BaseFld s s.dropId :=
  (changes_writeTid_base s 0x3FE).trans ((changes_dropId s).mono fun _ _ ⟨_, hq, hf⟩ => baseFld_of_planeOp hq hf)

theorem tid_dropId (s : State) : s.dropId.fld R.dfpIdent F.dfpIdent_tid = 0x3FE :=
  ((changes_dropId s).fld fun g ⟨_, hq, hf⟩ => absurd hf (not_planeOp_of_termOnly hq (by decide) g)).trans (tid_writeTid s (by decide))

/-- No plane is ASSIGNED or ACTIVE without an id. -/
theorem planeState_dropId (s : State) (p : Plane) : s.dropId.planeState p ≠ 3 ∧ s.dropId.planeState p ≠ 4 := by
  obtain ⟨u, -, hafter⟩ := foldl_between (O := Beside p)
    (f := fun s q => if State.planeState s q = 3 ∨ s.planeState q = 4 then s.releaseTo q (if s.aligned q then 2 else 1) else s) (fun _ => .refl) .trans
    List.nodup_range (mem_planes p)
    (fun b q hq hne => .ite (fun _ => Beside.refl.releaseTo (List.mem_range.1 hq) hne) fun _ => .refl) (s.writeTid 0x3FE)
  have hstate : s.dropId.planeState p = _ := hafter.planeState p.isLt
  rw [hstate]
  split
  · have hlt : (if u.aligned p = true then 2 else 1) < 8 := by split <;> decide
    rw [(releasedAt_releaseTo u p hlt).1]
    split <;> decide
  · exact not_or.1 ‹_›

theorem changes_deregistered (s : State) : Changes TermFld s.dropId s.deregistered := Changes.setTerm (Changes.frame .refl) fun _ => id

theorem under_deregistered (s : State) : s.deregistered.under = 2 := under_setTerm _ (by decide)

theorem msgs_deregistered (s : State) : s.deregistered.ubb.msgs = [] := List.filter_eq_nil_iff.2 fun _ _ => by simp

theorem deregister_applied (hpoint : s.atPoint m 10) (hrun : s.termState ≠ 8) (hlen : 8 ≤ m.body.length)
    (hserial : bodyField m.body 8 63 0 = (s.reg R.sysSerial).toNat) (hunder : s.under = 4 ∨ s.under = 5) :
    ∃ t : State, exec (.deregister m) s = .next t ∧ t.fld R.dfpIdent F.dfpIdent_tid = 0x3FE ∧ t.under = 2 ∧ t.ubb.msgs = [] ∧
      (∀ p : Plane, t.planeState p ≠ 3 ∧ t.planeState p ≠ 4) ∧ memKept s t := by
  have hstate : (s.under == 4 || s.under == 5) = true := by rcases hunder with h | h <;> rw [h] <;> rfl
  have hexec : exec (.deregister m) s = .next (s.arrived m).deregistered := by
    have heq : exec (.deregister m) s = .next (s.judge m 10 8 (if bodyField m.body 8 63 0 ≠ (s.reg R.sysSerial).toNat then
        some (fun s => s.count R.sysRejectCounts F.sysRejectCounts_serialMismatch) else none) true (s.under == 4 || s.under == 5) true true
        State.deregistered) := rfl
    rw [heq, if_neg (not_not.2 hserial), judge_applied hpoint hlen (.inr hrun) hstate rfl rfl]
  have hterm := changes_deregistered (s.arrived m)
  have hbeside : ∀ p, (s.arrived m).deregistered.planeState p = (s.arrived m).dropId.planeState p :=
    planeState_congr (hterm.reg fun _ h => absurd h.1 (by decide)) (hterm.reg fun _ h => absurd h.1 (by decide))
  refine ⟨_, hexec, (hterm.fld fun _ h => absurd h.1 (by decide)).trans (tid_dropId _), under_deregistered _, msgs_deregistered _, fun p => ?_,
    memKept_of_arrived ((base_dropId _).trans (hterm.mono fun _ _ h => .inr (h.1 ▸ termOnly_sysTermState)))⟩
  rw [hbeside]
  exact planeState_dropId _ p

theorem deregister_other (hpoint : s.atPoint m 10) (hlen : 8 ≤ m.body.length) (hserial : bodyField m.body 8 63 0 ≠ (s.reg R.sysSerial).toNat) :
    ∃ t : State, exec (.deregister m) s = .next t ∧ counted s t R.sysRejectCounts F.sysRejectCounts_serialMismatch ∧ memKept s t ∧
      regsKept s t [R.sysRejectCounts] := by
  have hexec : exec (.deregister m) s = .next ((s.arrived m).count R.sysRejectCounts F.sysRejectCounts_serialMismatch) := by
    have heq : exec (.deregister m) s = .next (s.judge m 10 8 (if bodyField m.body 8 63 0 ≠ (s.reg R.sysSerial).toNat then
        some (fun s => s.count R.sysRejectCounts F.sysRejectCounts_serialMismatch) else none) true (s.under == 4 || s.under == 5) true true
        State.deregistered) := rfl
    rw [heq, if_pos hserial, judge_atPoint hpoint, verdict_other hlen]
  exact ⟨_, hexec, arrived_count s m R.sysRejectCounts (by decide) (by decide)⟩

/-! ## STATE_REQUEST -/

theorem length_beBytes (n v : Nat) : (beBytes n v).length = n := by
  induction n with
  | zero => rfl
  | succ n ih => rw [beBytes, List.length_cons, ih]

/-- TYPE and DEST of an envelope stand above its check value. -/
theorem envelope_fields (dest typ : Nat) (body : List Byte) :
    bitsOf (envelope dest typ body).toNat 63 54 = dest % 2 ^ 10 ∧ bitsOf (envelope dest typ body).toNat 53 46 = typ % 2 ^ 8 := by
  obtain ⟨c, hc, heq⟩ : ∃ c < 2 ^ 16, envelope dest typ body =
      BitVec.ofNat 64 (dest % 2 ^ 10 * 2 ^ 54 + typ % 2 ^ 8 * 2 ^ 46 + body.length % 2 ^ 12 * 2 ^ 34 + c) :=
    ⟨_, crcRun_lt _ (by decide) (by decide), rfl⟩
  simp only [heq, bitsOf, BitVec.toNat_ofNat]
  omega

/-- The body of a STATE_REPORT (R169). -/
def State.stateReportBody (s : State) : List Byte :=
  beBytes 16 (s.under % 16 * 2 ^ 124 + s.planesIn 4 * 2 ^ 96 + s.planesIn 3 * 2 ^ 72 + s.planesIn 2 * 2 ^ 48 +
    s.fld R.timeStatus F.timeStatus_code % 256 * 2 ^ 40 + s.fld R.sysMediumCounts F.sysMediumCounts_lateApply % 256 * 2 ^ 32)

theorem ubb_upPost (env : Word) (body : List Byte) (mark : Nat) (h : s.ubb.msgs.length < 64) :
    (s.upPost env body mark).1.ubb.msgs = s.ubb.msgs ++ [⟨env, body, mark == 2, mark == 1, mark, s.ubb.msgNum⟩] := by
  unfold State.upPost
  rw [if_neg (by omega)]

theorem stateRequest_applied (hpoint : s.atPoint m 15) (hrun : s.termState ≠ 8) (hnone : ∀ x ∈ s.ubb.msgs, x.typ ≠ 0x82)
    (hroom : s.ubb.msgs.length < 64) :
    ∃ t x, exec (.stateRequest m) s = .next t ∧ t.ubb.msgs = s.ubb.msgs ++ [x] ∧ x.typ = 0x82 ∧ x.body.length = 16 ∧
      bitsOf x.env.toNat 63 54 = s.fld R.dfpIdent F.dfpIdent_tid ∧ t.dfp.msgq = s.dfp.msgq.erase m ∧ memKept s t ∧ regsKept s t [] := by
  have hqueued : ((s.arrived m).ubb.msgs.any fun x => x.typ == 0x82) = false := List.any_eq_false.2 fun x hx => by
    rw [beq_iff_eq]
    exact hnone x (arrived_ubb s m ▸ hx)
  have hexec : exec (.stateRequest m) s = .next (s.arrived m).stateReport := by
    have heq : exec (.stateRequest m) s = .next (s.judge m 15 0 none true true true true
      (fun s => if s.ubb.msgs.any (fun x => x.typ == 0x82) then s else s.stateReport)) := rfl
    rw [heq, judge_applied hpoint (Nat.zero_le _) (.inr hrun) rfl rfl rfl, if_neg (by rw [hqueued]; decide)]
  have hmsgs := ubb_upPost (s := s.arrived m) (envelope ((s.arrived m).fld R.dfpIdent F.dfpIdent_tid) 0x82 (s.arrived m).stateReportBody)
    (s.arrived m).stateReportBody 0 (by rw [arrived_ubb]; exact hroom)
  rw [arrived_ubb] at hmsgs
  obtain ⟨hdest, htyp⟩ := envelope_fields ((s.arrived m).fld R.dfpIdent F.dfpIdent_tid) 0x82 (s.arrived m).stateReportBody
  have hchanges : Changes (fun a _ => a ∈ []) s (s.arrived m).stateReport := (changes_arrived s m).stateReport
  refine ⟨_, _, hexec, hmsgs, htyp, length_beBytes .., ?_, msgq_of_arrived (stateReport_dfp _), hchanges.memKept,
    hchanges.regsKept⟩
  rw [hdest, fld_arrived]
  exact Nat.mod_eq_of_lt (bitsOf_lt ..)

/-! ## A short body -/

theorem rangeResult_short (hpoint : s.atPoint m 6) (hlen : m.body.length < 16) :
    ∃ t : State, exec (.rangeResult m) s = .next t ∧ counted s t R.sysRejectCounts F.sysRejectCounts_shortBody ∧ memKept s t ∧
      regsKept s t [R.sysRejectCounts] :=
  ⟨_, congrArg Host.Outcome.next ((judge_atPoint hpoint).trans (verdict_short hlen)), arrived_count s m R.sysRejectCounts (by decide) (by decide)⟩

/-- Settles O21: a clause for each message. -/
theorem hubMessagesApplied : Obligations.HubMessagesApplied := by
  intro s m
  refine ⟨fun hlen hplane => ⟨fun hpoint => profile_applied hpoint hlen hplane, fun hpoint hrun => asymmetry_applied hpoint hrun hlen hplane⟩,
    enrolParams_announces, fun p => idAssign_applied, fun p => rangeResult_applied, fun p hpoint hrun hlen hp hstate =>
      ⟨eqdAdjust_applied hpoint hrun hlen hp hstate, eqdAdjust_outOfRange hpoint hrun hlen hp⟩,
    planeAssign_applied, planeRelease_applied, deregister_applied, deregister_other, stateRequest_applied, rangeResult_short⟩

end Sys2Proof.Machine
end

section
/-!
SUPPORT. One Limtin instruction (R374, R412, R431): what its core shows once it is done, and what its exception leaves.
-/

namespace Sys2Proof.Machine

variable {s t u : State} {c x : Nat} {cl : Clause} {e : Ctx} {i : LimInstr}

/-! ## Contexts of a core -/

theorem find_mapCtx (l : Tbl Ctx) (n y : Nat) :
    Tbl.find (l.map fun e => (e.1, e.2.after n)) y = (Tbl.find l y).map (·.after n) := by
  induction l with
  | nil => rfl
  | cons e l ih =>
    rw [List.map_cons, Tbl.find, Tbl.find, ih]
    split <;> rfl

theorem after_free (n : Nat) : ({} : Ctx).after n = {} := by simp [Ctx.after]

/-- Cycles pass for every context of the core, the one unused too. -/
theorem get_mapCtx (l : Tbl Ctx) (n y : Nat) :
    Tbl.get (fun _ => ({} : Ctx)) (l.map fun e => (e.1, e.2.after n)) y = (Tbl.get (fun _ => {}) l y).after n := by
  rw [Tbl.get, Tbl.get, find_mapCtx]
  cases Tbl.find l y with
  | none => exact (after_free n).symm
  | some v => rfl

theorem core_pmcEvent (s : State) (v code n d : Nat) : (s.pmcEvent v code n).core d = s.core d := by rw [State.core, State.core, pmcEvent_lsch]

theorem ctx_pmcEvent (s : State) (v code n d y : Nat) : (s.pmcEvent v code n).ctx d y = s.ctx d y := by
  rw [State.ctx, State.ctx, core_pmcEvent]

theorem ctx_setCtx_core (s : State) (c x : Nat) (e : Ctx) {d : Nat} (y : Nat) (h : d ≠ c) : (s.setCtx c x e).ctx d y = s.ctx d y := by
  rw [State.ctx, State.ctx, State.setCtx, core_setCore_other _ _ h]

theorem ctx_setCtx_other (s : State) (c x : Nat) (e : Ctx) {d y : Nat} (h : d ≠ c ∨ y ≠ x) : (s.setCtx c x e).ctx d y = s.ctx d y := by
  by_cases hd : d = c
  · subst hd
    exact ctx_setCtx_place s d e (h.resolve_left fun h => h rfl)
  · exact ctx_setCtx_core s c x e y hd

theorem ctx_issued (s : State) (c x n y : Nat) : (s.issued c x n).ctx c y = (s.ctx c y).after n := by
  rw [State.issued, ctx_pmcEvent, State.ctx, core_setCore_same, get_mapCtx, State.ctx]

theorem ctx_issued_core (s : State) (c x n : Nat) {d : Nat} (y : Nat) (h : d ≠ c) : (s.issued c x n).ctx d y = s.ctx d y := by
  rw [State.issued, ctx_pmcEvent, State.ctx, core_setCore_other _ _ h, State.ctx]

@[simp] theorem untimed_after (e : Ctx) (n : Nat) : (e.after n).untimed = e.untimed := rfl

@[simp] theorem untimed_holdOff (e : Ctx) (i : LimInstr) (b : Bool) : (e.holdOff i b).untimed = e.untimed := by
  unfold Ctx.holdOff
  split
  · rfl
  · split <;> rfl

/-! ## What passes with an instruction -/

theorem ctxKept_refl (s : State) (c x : Nat) : ctxKept s s c x := fun _ _ _ => ⟨rfl, fun _ => rfl⟩

theorem ctxKept_trans (h : ctxKept s t c x) (h' : ctxKept t u c x) : ctxKept s u c x := fun d y hne =>
  ⟨(h' d y hne).1.trans (h d y hne).1, fun hd => ((h' d y hne).2 hd).trans ((h d y hne).2 hd)⟩

theorem ctxKept_of_eq (h : ∀ d y, (d ≠ c ∨ y ≠ x) → t.ctx d y = s.ctx d y) : ctxKept s t c x := fun d y hne =>
  ⟨by rw [h d y hne], fun _ => h d y hne⟩

theorem ctxKept_of_cores (h : t.lsch.cores = s.lsch.cores) : ctxKept s t c x := ctxKept_of_eq fun d y _ => ctx_congr s h d y

theorem ctxKept_setCtx (s : State) (e : Ctx) : ctxKept s (s.setCtx c x e) c x := ctxKept_of_eq fun _ _ => ctx_setCtx_other s c x e

theorem ctxKept_issued (s : State) (n : Nat) : ctxKept s (s.issued c x n) c x := fun d y _ => by
  by_cases hd : d = c
  · subst hd
    exact ⟨by rw [ctx_issued, untimed_after], fun h => absurd rfl h⟩
  · exact ⟨by rw [ctx_issued_core _ _ _ _ _ hd], fun _ => ctx_issued_core _ _ _ _ _ hd⟩

theorem ctxKept_pmcEvent (s : State) (v code n : Nat) : ctxKept s (s.pmcEvent v code n) c x :=
  ctxKept_of_eq fun d y _ => ctx_pmcEvent s v code n d y

/-- From `s` to `t` context `x` of core `c` is at most timed anew, and of the rest the core's counters alone change. -/
structure Timed (c x : Nat) (s t : State) : Prop where
  ctx : (t.ctx c x).untimed = (s.ctx c x).untimed
  others : ctxKept s t c x
  changes : Changes (fun a _ => unitOf a ∈ [0xA0 + c]) s t
  wires : t.wires = s.wires
  ubb : t.ubb = s.ubb
  cls : t.cls = s.cls
  qm : t.qm = s.qm
  ciph : t.ciph = s.ciph

namespace Timed

theorem trans (h : Timed c x s t) (h' : Timed c x t u) : Timed c x s u :=
  ⟨h'.ctx.trans h.ctx, ctxKept_trans h.others h'.others, h.changes.trans h'.changes, h'.wires.trans h.wires, h'.ubb.trans h.ubb, h'.cls.trans h.cls,
    h'.qm.trans h.qm, h'.ciph.trans h.ciph⟩

theorem pmcEvent (s : State) (code n : Nat) : Timed c x s (s.pmcEvent (0xA0 + c) code n) :=
  ⟨by rw [ctx_pmcEvent], ctxKept_pmcEvent s _ code n, Changes.refl.unitEvent (.head _), by simp, by simp, by simp, by simp, by simp⟩

theorem issued (s : State) (n : Nat) : Timed c x s (s.issued c x n) :=
  have hctx : ((s.issued c x n).ctx c x).untimed = (s.ctx c x).untimed := by rw [ctx_issued, untimed_after]
  have hcount : Timed c x (s.setCore c { s.core c with turn := x, ctxs := (s.core c).ctxs.map fun e => (e.1, e.2.after n) }) (s.issued c x n) :=
    pmcEvent _ _ _
  ⟨hctx, ctxKept_issued s n, Changes.frame .refl |>.trans hcount.changes, hcount.wires, hcount.ubb, hcount.cls, hcount.qm, hcount.ciph⟩

theorem setCtx (s : State) {e : Ctx} (h : e.untimed = (s.ctx c x).untimed) : Timed c x s (s.setCtx c x e) :=
  ⟨by rw [ctx_setCtx_same, h], ctxKept_setCtx s e, Changes.frame .refl, rfl, rfl, rfl, rfl, rfl⟩

end Timed

/-! ## An instruction that is done -/

/-- What follows an instruction's own effect: its issue is counted, its cycles pass, and its result may be late. -/
def State.ranOn (s : State) (c x n : Nat) (i : LimInstr) (b : Bool) : State :=
  let s' := s.issued c x n
  let t := s'.ctx c x
  (if t.clause.isSome then s'.setCtx c x (t.holdOff i b) else s').pmcEvent (0xA0 + c) 0x11

theorem timed_ranOn (s : State) (n : Nat) (b : Bool) : Timed c x s (s.ranOn c x n i b) := by
  refine (Timed.issued s n).trans (.trans ?_ (.pmcEvent _ _ _))
  split
  · exact .setCtx _ (untimed_holdOff ..)
  · exact ⟨rfl, ctxKept_refl _ _ _, .refl, rfl, rfl, rfl, rfl, rfl⟩

theorem limRun_ok (h : s.standsAt c x cl i)
    (hstep : s.limStep c x (s.ctx c x) cl (s.fetchLim c (s.ctx c x) cl) i = .ok t) :
    s.limRun c x (some i) = t.ranOn c x (s.issueDelay c x + 1) i (i.taken (s.ctx c x)) := by
  obtain ⟨⟨hclause, -, hrefused, hword⟩, hissue⟩ := h
  unfold State.limRun
  simp only [hclause, hissue, hword, hrefused, hstep, Bool.not_true, Bool.false_eq_true, ne_eq, not_true_eq_false, or_self, if_false]
  rfl

/-- An instruction that leaves its context as `e`, and otherwise the state as `u`. -/
theorem limRun_sets (h : s.standsAt c x cl i)
    (hstep : s.limStep c x (s.ctx c x) cl (s.fetchLim c (s.ctx c x) cl) i = .ok (u.setCtx c x e)) :
    Timed c x (u.setCtx c x e) (s.limRun c x (some i)) := limRun_ok h hstep ▸ timed_ranOn _ _ _

theorem gr_of_untimed {e e' : Ctx} (h : e.untimed = e'.untimed) (r : BitVec 5) : e.gr r = e'.gr r := show e.untimed.gr r = e'.untimed.gr r by rw [h]
theorem handle_of_untimed {e e' : Ctx} (h : e.untimed = e'.untimed) (k : Nat) : e.handle k = e'.handle k :=
  show e.untimed.handle k = e'.untimed.handle k by rw [h]
theorem pc_of_untimed {e e' : Ctx} (h : e.untimed = e'.untimed) : e.pc = e'.pc := show e.untimed.pc = e'.untimed.pc by rw [h]

theorem gr_setG (e : Ctx) (rd : BitVec 5) (v : BitVec 64) : (e.setG rd v).gr rd = if rd = 0 then 0 else v := by
  split
  next h =>
    rw [Ctx.gr, if_pos h]
  next h => exact gr_setG_same e v h

theorem gr_setG_other (e : Ctx) {rd r : BitVec 5} (v : BitVec 64) (h : r ≠ rd) : (e.setG rd v).gr r = e.gr r := by
  unfold Ctx.setG Ctx.gr
  split
  · rfl
  · split
    · rfl
    · exact Tbl.get_set_other _ _ _ fun heq => h (BitVec.eq_of_toNat_eq heq)

/-! ## Results -/

/-- What an instruction that writes a result leaves of its context `e`. -/
structure Put (s t : State) (c x : Nat) (rd : BitVec 5) (v : BitVec 64) (e : Ctx) : Prop where
  result : (t.ctx c x).gr rd = if rd = 0 then 0 else v
  others : gregsKept (s.ctx c x) (t.ctx c x) rd
  pc : (t.ctx c x).pc = (s.ctx c x).pc + 1
  handle : ∀ k, (t.ctx c x).handle k = e.handle k
  ctxs : ctxKept s t c x

theorem put_of_timed {rd : BitVec 5} {v : BitVec 64} (h : Timed c x (u.setCtx c x (e.setG rd v).forth) t) (hcores : u.lsch.cores = s.lsch.cores)
    (hg : ∀ r, e.gr r = (s.ctx c x).gr r) (hpc : e.pc = (s.ctx c x).pc) : Put s t c x rd v e := by
  obtain ⟨hctx, hothers, -⟩ := h
  rw [ctx_setCtx_same] at hctx
  have hpc' : (e.setG rd v).pc = e.pc := by
    unfold Ctx.setG
    split <;> rfl
  have hh : (e.setG rd v).h = e.h := by
    unfold Ctx.setG
    split <;> rfl
  refine ⟨(gr_of_untimed hctx rd).trans (gr_setG e rd v), fun r hr => ((gr_of_untimed hctx r).trans (gr_setG_other e v hr)).trans (hg r), ?_,
    fun k => (handle_of_untimed hctx k).trans (congrArg (Tbl.get (fun _ => none) · k) hh),
    ctxKept_trans (ctxKept_of_cores hcores) (ctxKept_trans (ctxKept_setCtx u _) hothers)⟩
  rw [pc_of_untimed hctx, Ctx.forth, hpc', hpc]

/-- An instruction that answers `v` and does nothing else. -/
theorem limPuts_of_step {ins : Instr} {rd : BitVec 5} {v : BitVec 64} (hexec : exec ins s = .next (s.limRun c x (some i)))
    (h : s.standsAt c x cl i)
    (hstep : s.limStep c x (s.ctx c x) cl (s.fetchLim c (s.ctx c x) cl) i = s.limPut c x (s.ctx c x) rd v) : limPuts s ins c x rd v := by
  have htimed := limRun_sets h hstep
  obtain ⟨hresult, hothers, hpc, -, hctxs⟩ := put_of_timed htimed rfl (fun _ => rfl) rfl
  obtain ⟨⟨-, hwait, -⟩, -⟩ := h
  have hctx := htimed.ctx
  rw [ctx_setCtx_same] at hctx
  have hset : ((s.ctx c x).setG rd v).wait = (s.ctx c x).wait ∧ ((s.ctx c x).setG rd v).clause = (s.ctx c x).clause ∧
      ((s.ctx c x).setG rd v).h = (s.ctx c x).h := by
    unfold Ctx.setG
    split <;> exact ⟨rfl, rfl, rfl⟩
  have hchanges : Changes (fun a _ => unitOf a ∈ [0xA0 + c]) s (s.limRun c x (some i)) := (Changes.frame .refl).trans htimed.changes
  exact ⟨_, hexec, hresult, hothers, hpc, ((congrArg Ctx.wait hctx).trans hset.1).trans hwait, (congrArg Ctx.clause hctx).trans hset.2.1,
    (congrArg Ctx.h hctx).trans hset.2.2, hctxs, hchanges.memKept, hchanges.unitsKept⟩

/-! ## Exceptions -/

/-- What an exception leaves behind: the context is free, its clause has ended FAULTED, and the fault is signalled. -/
theorem limFault_eq (hclause : (s.ctx c x).clause = some cl) {code : Nat} (hcode : code ≠ 9 ∧ code ≠ 8) (pc word : Nat) : ∃ imm,
    s.limFault c x code pc word = ((s.setCtx c x {}).clauseFaults cl (s.ctx c x) Src.lim 1 code pc word imm).signal Src.lim 1 code := by
  refine ⟨if code = 0x11 then word % 1024 else 0, ?_⟩
  unfold State.limFault
  simp only [hclause, hcode, if_false]

theorem limRun_error (h : s.standsAt c x cl i) {code : Nat}
    (hstep : s.limStep c x (s.ctx c x) cl (s.fetchLim c (s.ctx c x) cl) i = .error code) : s.limRun c x (some i) =
      ((s.limFault c x code (s.ctx c x).pc.toNat (s.fetchLim c (s.ctx c x) cl).toNat).issued c x (s.issueDelay c x + 1)).pmcEvent (0xA0 + c) 0x12 := by
  obtain ⟨⟨hclause, -, hrefused, hword⟩, hissue⟩ := h
  unfold State.limRun
  simp only [hclause, hissue, hword, hrefused, hstep, Bool.not_true, Bool.false_eq_true, ne_eq, not_true_eq_false, or_self, if_false]

theorem limFaults_of_error {ins : Instr} (hexec : exec ins s = .next (s.limRun c x (some i))) (h : s.standsAt c x cl i) {code : Nat}
    (hcode : code ≠ 9 ∧ code ≠ 8) (hstep : s.limStep c x (s.ctx c x) cl (s.fetchLim c (s.ctx c x) cl) i = .error code) :
    limFaults s ins c x cl code := by
  rw [limRun_error h hstep] at hexec
  obtain ⟨⟨hclause, -⟩, -⟩ := h
  obtain ⟨imm, hfault⟩ := limFault_eq hclause hcode (s.ctx c x).pc.toNat (s.fetchLim c (s.ctx c x) cl).toNat
  generalize (s.ctx c x).pc.toNat = pc at hfault hexec
  generalize (s.fetchLim c (s.ctx c x) cl).toNat = word at hfault hexec
  obtain ⟨hcores, -, hwires⟩ := sparesLim_clauseFaults (s.setCtx c x {}) cl (s.ctx c x) Src.lim 1 code pc word imm
  have hcount := clauseFaults_counted (s.setCtx c x {}) cl (s.ctx c x) Src.lim 1 code pc word imm
  have hmem := clauseFaults_mem (s.setCtx c x {}) cl (s.ctx c x) Src.lim 1 code pc word imm
  have hunits := clauseFaults_units (s.setCtx c x {}) cl (s.ctx c x) Src.lim 1 code pc word imm
  rw [hfault] at hexec
  generalize (s.setCtx c x {}).clauseFaults cl (s.ctx c x) Src.lim 1 code pc word imm = u at hexec hcores hwires hcount hmem hunits
  have hcores' : (u.signal Src.lim 1 code).lsch.cores = (s.setCtx c x {}).lsch.cores := hcores.trans (breakLatches_cores _ _)
  have hpairs : u.wires = s.wires := hwires.trans (breakLatches_wires _ _)
  have htimed : Timed c x (u.signal Src.lim 1 code) (((u.signal Src.lim 1 code).issued c x (s.issueDelay c x + 1)).pmcEvent (0xA0 + c) 0x12) :=
    (Timed.issued _ _).trans (.pmcEvent _ _ _)
  have hfree : (u.signal Src.lim 1 code).ctx c x = {} := (ctx_congr _ hcores' c x).trans (ctx_setCtx_same s c x {})
  refine ⟨_, hexec, by rw [ctx_pmcEvent, ctx_issued, hfree, after_free], ?_, ?_, ?_, fun hplain => ?_⟩
  · rw [htimed.wires]
    exact congrArg (· ++ [(Src.lim, 1, code)]) hpairs
  · exact ctxKept_trans (ctxKept_setCtx s {}) (ctxKept_trans (ctxKept_of_cores hcores') htimed.others)
  · exact memKept_of_eq (htimed.changes.1.trans hmem)
  · obtain ⟨-, hcore, hobjects, -⟩ := hplain
    have hcounter : unitOf (R.lschCount 8) ∉ [0xA0 + c] := by
      rw [show unitOf (R.lschCount 8) = 0x9A by decide, List.mem_singleton]
      omega
    refine ⟨(htimed.changes.fld fun _ hg => absurd hg hcounter).trans hcount, fun a ha => ?_⟩
    rw [hcore] at hunits
    exact (htimed.changes.reg fun _ hm => ha (.tail _ (.tail _ (.tail _ hm)))).trans (hunits hobjects a ha)

end Sys2Proof.Machine
end

section
/-!
SUPPORT. Instructions that send, discard and submit (R425 to R430): PSEND, PFREE, MPOST, MDROP and CREQ; O47 is settled here.
-/

namespace Sys2Proof.Machine

variable {s t u : State} {c : CoreId} {x : CtxId} {cl : Clause} {rd ra rb : GReg} {h : Nat} {v : Held}

/-! ## Operands -/

theorem operand_held {e : Ctx} (hh : (e.gr ra).toNat = h) (h4 : h < 4) (hv : e.handle h = some v) : e.operand ra = some (h, v) := by
  unfold Ctx.operand
  simp only [hh, hv, Nat.not_le.2 h4, if_false, Option.map_some]

theorem operand_none {e : Ctx} (hh : 4 ≤ (e.gr ra).toNat ∨ e.handle (e.gr ra).toNat = none) : e.operand ra = none := by
  unfold Ctx.operand
  dsimp only
  split
  · rfl
  · rw [hh.resolve_left ‹_›, Option.map_none]

theorem handle_setHandle_same (e : Ctx) (k : Nat) (o : Option Held) : (e.setHandle k o).handle k = o := Tbl.get_set_same ..

/-! ## Cells -/

theorem takeCells_frame {d : Dir} {b : Bool} {n : Nat} (ht : s.takeCells d b n = some t) : ∃ q, t = { s with qm := q } := by
  unfold State.takeCells at ht
  simp only [Option.ite_none_left_eq_some, Option.ite_none_right_eq_some, Option.some.injEq] at ht
  obtain ⟨-, -, rfl⟩ := ht
  exact ⟨_, rfl⟩

/-- The exchange of cells between the pools changes the queue manager alone. -/
theorem cellsFor_frame {d : Dir} (ht : s.cellsFor v d = some t) : ∃ q, t = { s with qm := q } := by
  unfold State.cellsFor at ht
  dsimp only at ht
  split at ht
  · exact takeCells_frame ht
  · split at ht
    · cases ht
      exact ⟨_, rfl⟩
    · obtain ⟨u, hu, rfl⟩ := Option.map_eq_some_iff.1 ht
      obtain ⟨q, rfl⟩ := takeCells_frame hu
      exact ⟨_, rfl⟩

theorem discardHeld_frame (s : State) (v : Held) : ∃ q, s.discardHeld v = { s with qm := q } := by
  unfold State.discardHeld
  split
  · exact ⟨_, rfl⟩
  · exact ⟨_, rfl⟩

theorem dieUsed_discardHeld (s : State) (v : Held) : (s.discardHeld v).dieUsed v.pkt.dir =
    s.dieUsed v.pkt.dir - (if v.kind = 1 then 0 else cellsOf v.pkt.bytes.length) := by
  unfold State.discardHeld
  split
  · rfl
  · exact Tbl.get_set_same ..

/-! ## PSEND -/

/-- The packet that PSEND makes of a held object. -/
def sentPacket (s : State) (c : Nat) (cl : Clause) (v : Held) (d : Dir) (w : Nat) : Pkt :=
  { bytes := v.pkt.bytes, dir := d, chan := 127, stamp := s.stamp (0x700 + c), inject := true, act := bitsOf w 2 1,
    ret := if bitsOf w 2 1 ≠ 0 ∧ !cl.block then 1024 + (cl.sentBase + bitsOf w 15 8) % 65536 else 0 }

theorem pipeOf_sentPacket (d : Dir) (w : Nat) : pipeOf (sentPacket s c cl v d w) = 7 := by
  cases d <;> simp [pipeOf, sentPacket]

theorem limPsend_enters {e : Ctx} {w : Nat} {d : Dir} (hw : (e.gr rb).toNat = w) (hd : d = if bitOf w 0 then .dn else .up)
    (hcl : bitsOf w 2 1 = 1 → cl.block = false ∧ bitsOf w 15 8 ≤ cl.sentLenM1) (hres : bitsOf w 7 3 = 0) (hhigh : w < 2 ^ 16)
    (hk : bitsOf w 2 1 ≠ 1 → bitsOf w 15 8 = 0) (hop : e.operand ra = some (h, v)) : s.limPsend c x e cl rd ra rb =
      if s.pipeFull d 7 then s.limPut c x e rd 1
      else match s.cellsFor v d with
        | none => s.limPut c x e rd 1
        | some u => (u.enterPipe (sentPacket s c cl v d w)).limPut c x (e.setHandle h none) rd 0 := by
  have hrange : ¬(bitsOf w 2 1 = 1 ∧ (cl.block = true ∨ cl.sentLenM1 < bitsOf w 15 8)) := by
    rintro ⟨hact, hbad⟩
    obtain ⟨hblock, hle⟩ := hcl hact
    rcases hbad with hbad | hbad
    · rw [hblock] at hbad
      cases hbad
    · omega
  have hbad : ¬(bitsOf w 7 3 ≠ 0 ∨ 2 ^ 16 ≤ w ∨ bitsOf w 2 1 ≠ 1 ∧ bitsOf w 15 8 ≠ 0) := by
    rintro (h' | h' | ⟨hact, hne⟩)
    · exact h' hres
    · omega
    · exact hne (hk hact)
  have hpipe := pipeOf_sentPacket (s := s) (c := c) (cl := cl) (v := v) d w
  subst hd
  unfold State.limPsend
  simp only [hw, hrange, hbad, if_false, hop]
  rw [← hpipe]
  rfl

/-- A packet enters its pipe, which counts it. -/
theorem pipe_enterPipe (s : State) (p : Pkt) :
    (s.enterPipe p).pipe p.dir (pipeOf p) = s.pipe p.dir (pipeOf p) ++ [{ p with id := s.qm.ids }] := by
  have hcls : (s.enterPipe p).cls = (s.setPipe p.dir (pipeOf p) (s.pipe p.dir (pipeOf p) ++ [{ p with id := s.qm.ids }])).cls := pmcEvent_cls ..
  rw [State.pipe, hcls]
  exact Tbl.get_set_same ..

theorem changes_enterPipe (s : State) (p : Pkt) : Changes (fun a _ => unitOf a ∈ [0x93, 0x94]) s (s.enterPipe p) := by
  have hunit : 0x93 + p.dir.unit ∈ [0x93, 0x94] := by cases p.dir <;> decide
  have hcount : unitOf (R.pipePkts p.dir.unit (pipeOf p)) ∈ [0x93, 0x94] := by
    have hlt := Passes.pipeOf_lt p
    have hplace : unitOf (R.pipePkts p.dir.unit (pipeOf p)) = 0x93 + p.dir.unit := by simp only [unitOf, R.pipePkts]; omega
    rw [hplace]
    exact hunit
  exact (Changes.count (Changes.frame .refl) hcount).unitEvent hunit

theorem enterPipe_lsch (s : State) (p : Pkt) : (s.enterPipe p).lsch = s.lsch := pmcEvent_lsch ..

theorem psend_waits {w : Nat} {d : Dir} (hstands : s.standsAt c x cl (.psend rd ra rb)) (hw : ((s.ctx c x).gr rb).toNat = w)
    (hd : d = if bitOf w 0 then .dn else .up) (hcl : bitsOf w 2 1 = 1 → cl.block = false ∧ bitsOf w 15 8 ≤ cl.sentLenM1) (hres : bitsOf w 7 3 = 0)
    (hhigh : w < 2 ^ 16) (hk : bitsOf w 2 1 ≠ 1 → bitsOf w 15 8 = 0) (hop : (s.ctx c x).operand ra = some (h, v))
    (hfull : s.pipeFull d 7 = true ∨ s.cellsFor v d = none) : limPuts s (.psend c x rd ra rb) c x rd 1 := by
  refine limPuts_of_step rfl hstands ((limPsend_enters hw hd hcl hres hhigh hk hop).trans ?_)
  rcases hfull with hfull | hfull
  · rw [if_pos hfull]
  · rw [hfull, ite_self]

theorem psend_enters {w : Nat} {d : Dir} (hstands : s.standsAt c x cl (.psend rd ra rb)) (hw : ((s.ctx c x).gr rb).toNat = w)
    (hd : d = if bitOf w 0 then .dn else .up) (hcl : bitsOf w 2 1 = 1 → cl.block = false ∧ bitsOf w 15 8 ≤ cl.sentLenM1) (hres : bitsOf w 7 3 = 0)
    (hhigh : w < 2 ^ 16) (hk : bitsOf w 2 1 ≠ 1 → bitsOf w 15 8 = 0) (hop : (s.ctx c x).operand ra = some (h, v))
    (hroom : s.pipeFull d 7 = false) (hcells : s.cellsFor v d ≠ none) :
    ∃ t p, exec (.psend c x rd ra rb) s = .next t ∧ t.pipe d 7 = s.pipe d 7 ++ [p] ∧ p.bytes = v.pkt.bytes ∧ p.dir = d ∧
      p.chan = 127 ∧ p.inject = true ∧ p.act = bitsOf w 2 1 ∧
      p.ret = (if bitsOf w 2 1 ≠ 0 ∧ cl.block = false then 1024 + (cl.sentBase + bitsOf w 15 8) % 65536 else 0) ∧
      (t.ctx c x).handle h = none ∧ (t.ctx c x).gr rd = 0 ∧ gregsKept (s.ctx c x) (t.ctx c x) rd ∧
      (t.ctx c x).pc = (s.ctx c x).pc + 1 ∧ ctxKept s t c x ∧ memKept s t ∧ unitsKept s t [0x93, 0x94, 0xA0 + c.val] := by
  obtain ⟨u, hu⟩ := Option.ne_none_iff_exists'.1 hcells
  have hstep := limPsend_enters (s := s) (c := c) (x := x) (rd := rd) hw hd hcl hres hhigh hk hop
  rw [if_neg (by rw [hroom]; decide), hu] at hstep
  obtain ⟨q, rfl⟩ := cellsFor_frame hu
  have htimed := limRun_sets hstands hstep
  have hput := put_of_timed htimed (congrArg (·.cores) (enterPipe_lsch _ _)) (fun _ => rfl) rfl
  have hpipe := pipe_enterPipe { s with qm := q } (sentPacket s c cl v d w)
  rw [pipeOf_sentPacket] at hpipe
  have hcls : (s.limRun c x (some (.psend rd ra rb))).cls = ({ s with qm := q }.enterPipe (sentPacket s c cl v d w)).cls := htimed.cls
  have hchanges : Changes (fun a _ => unitOf a ∈ [0x93, 0x94, 0xA0 + c.val]) s (s.limRun c x (some (.psend rd ra rb))) := by
    have henter : Changes (fun a _ => unitOf a ∈ [0x93, 0x94]) s ({ s with qm := q }.enterPipe (sentPacket s c cl v d w)) :=
      (Changes.frame .refl).trans (changes_enterPipe _ _)
    refine (henter.mono fun a _ ha => ?_).trans ((Changes.frame .refl).trans (htimed.changes.mono fun a _ ha => ?_))
    · simp only [List.mem_cons, List.not_mem_nil, or_false] at ha ⊢
      tauto
    · simp only [List.mem_cons, List.not_mem_nil, or_false] at ha ⊢
      tauto
  refine ⟨_, { sentPacket s c cl v d w with id := q.ids }, rfl, ?_, rfl, rfl, rfl, rfl, rfl, ?_,
    (hput.handle h).trans (handle_setHandle_same ..), hput.result.trans (ite_self _), hput.others,
    hput.pc, hput.ctxs, hchanges.memKept, hchanges.unitsKept⟩
  · exact (congrArg (fun p : ClsState => Tbl.get (fun _ => []) p.pipes (8 * d.pool + 7)) hcls).trans hpipe
  · simp [sentPacket]

theorem psend_range {w : Nat} (hstands : s.standsAt c x cl (.psend rd ra rb)) (hw : ((s.ctx c x).gr rb).toNat = w) (hact : bitsOf w 2 1 = 1)
    (hbad : cl.block = true ∨ cl.sentLenM1 < bitsOf w 15 8) : limFaults s (.psend c x rd ra rb) c x cl 6 := by
  refine limFaults_of_error rfl hstands (by decide) ?_
  have hrange : bitsOf w 2 1 = 1 ∧ (cl.block = true ∨ cl.sentLenM1 < bitsOf w 15 8) := ⟨hact, hbad⟩
  change s.limPsend c x (s.ctx c x) cl rd ra rb = _
  unfold State.limPsend
  simp only [hw, hrange, if_true, and_self]

/-! ## PFREE -/

theorem pfree_frees (hstands : s.standsAt c x cl (.pfree ra)) (hop : (s.ctx c x).operand ra = some (h, v)) :
    ∃ t : State, exec (.pfree c x ra) s = .next t ∧ (t.ctx c x).handle h = none ∧
      t.dieUsed v.pkt.dir = s.dieUsed v.pkt.dir - (if v.kind = 1 then 0 else cellsOf v.pkt.bytes.length) ∧
      (∀ r, (t.ctx c x).gr r = (s.ctx c x).gr r) ∧ (t.ctx c x).pc = (s.ctx c x).pc + 1 ∧ ctxKept s t c x ∧ memKept s t ∧
      unitsKept s t [0xA0 + c.val] := by
  have hstep : s.limStep c x (s.ctx c x) cl (s.fetchLim c (s.ctx c x) cl) (.pfree ra) =
      .ok ((s.discardHeld v).setCtx c x ((s.ctx c x).setHandle h none).forth) := by
    change s.limPfree c x (s.ctx c x) ra = _
    unfold State.limPfree
    rw [hop]
    rfl
  have htimed := limRun_sets hstands hstep
  have hctx := htimed.ctx
  rw [ctx_setCtx_same] at hctx
  have hused : (s.limRun c x (some (.pfree ra))).dieUsed v.pkt.dir = (s.discardHeld v).dieUsed v.pkt.dir := by
    rw [State.dieUsed, State.dieUsed, htimed.qm]
    rfl
  have hdiscard := dieUsed_discardHeld s v
  obtain ⟨q, hframe⟩ := discardHeld_frame s v
  rw [hframe] at htimed
  have hchanges : Changes (fun a _ => unitOf a ∈ [0xA0 + c.val]) s (s.limRun c x (some (.pfree ra))) := (Changes.frame .refl).trans htimed.changes
  exact ⟨_, rfl, (handle_of_untimed hctx h).trans (handle_setHandle_same ..), hused.trans hdiscard, fun r => gr_of_untimed hctx r,
    pc_of_untimed hctx, ctxKept_trans (ctxKept_trans (ctxKept_of_cores rfl) (ctxKept_setCtx _ _)) htimed.others, hchanges.memKept,
    hchanges.unitsKept⟩

theorem pfree_noObject (hstands : s.standsAt c x cl (.pfree ra)) (hop : (s.ctx c x).operand ra = none) : limFaults s (.pfree c x ra) c x cl 13 := by
  refine limFaults_of_error rfl hstands (by decide) ?_
  change s.limPfree c x (s.ctx c x) ra = _
  unfold State.limPfree
  rw [hop]

/-! ## MPOST -/

theorem foldl_beNat_lt (l : List Byte) (n : Nat) : l.foldl (fun a b => a * 256 + b.toNat) n < (n + 1) * 256 ^ l.length := by
  induction l generalizing n with
  | nil => simp
  | cons b l ih =>
    rw [List.foldl_cons, List.length_cons]
    have hb := b.isLt
    calc _ < (n * 256 + b.toNat + 1) * 256 ^ l.length := ih _
      _ ≤ ((n + 1) * 256) * 256 ^ l.length := Nat.mul_le_mul_right _ (by omega)
      _ = (n + 1) * 256 ^ (l.length + 1) := by ring

theorem beNat_takePad_lt (n : Nat) (l : List Byte) : beNat (takePad n l) < 256 ^ n := by
  have hlt := foldl_beNat_lt (takePad n l) 0
  have hlen : (takePad n l).length ≤ n := List.length_take_le ..
  exact hlt.trans_le (by simpa using Nat.pow_le_pow_right (by decide) hlen)

/-- The envelope of a message posted, its reserved bits zero. -/
def postedEnv (b : List Byte) : Nat := setBitsOf (beNat (takePad 8 b)) 33 0 0

theorem length_postedEnv (b : List Byte) : bitsOf (postedEnv b) 45 34 = bitsOf (beNat (takePad 8 b)) 45 34 :=
  bitsOf_setBitsOf_other _ _ _ _ _ _ (by decide) (.inr (by decide))

/-- A check value leaves what stands above it. -/
theorem postedEnv_fields (b : List Byte) : bitsOf (BitVec.ofNat 64 (postedEnv b + messageCrc (postedEnv b) (b.drop 8))).toNat 63 34 =
    bitsOf (beNat (takePad 8 b)) 63 34 ∧ bitsOf (BitVec.ofNat 64 (postedEnv b + messageCrc (postedEnv b) (b.drop 8))).toNat 33 16 = 0 := by
  have hcrc : messageCrc (postedEnv b) (b.drop 8) < 2 ^ 16 := crcRun_lt _ (by decide) (by decide)
  have hlt := beNat_takePad_lt 8 b
  have henv : postedEnv b = beNat (takePad 8 b) / 2 ^ 34 * 2 ^ 34 := by
    simp only [postedEnv, setBitsOf, bitsOf]
    omega
  generalize messageCrc (postedEnv b) (b.drop 8) = crc at hcrc ⊢
  rw [henv]
  generalize beNat (takePad 8 b) = n at hlt ⊢
  simp only [bitsOf, BitVec.toNat_ofNat]
  omega

theorem limMpost_eq {e : Ctx} {w : Nat} (hw : (e.gr rb).toNat = w) (hmark : w ≤ 2) (hop : e.operand ra = some (h, v)) :
    s.limMpost c x e rd ra rb =
      if 64 ≤ s.ubb.msgs.length then s.limPut c x e rd 1
      else if v.pkt.bytes.length ≠ 8 + bitsOf (beNat (takePad 8 v.pkt.bytes)) 45 34 ∨ 4103 < v.pkt.bytes.length then s.limPut c x e rd 2
      else ((s.upPost (BitVec.ofNat 64 (postedEnv v.pkt.bytes + messageCrc (postedEnv v.pkt.bytes) (v.pkt.bytes.drop 8)))
        (v.pkt.bytes.drop 8) w).1.discardHeld v).limPut c x (e.setHandle h none) rd 0 := by
  unfold State.limMpost
  simp only [hw, Nat.not_lt.2 hmark, if_false, hop]
  rw [← length_postedEnv]
  rfl

theorem mpost_full {w : Nat} (hstands : s.standsAt c x cl (.mpost rd ra rb)) (hw : ((s.ctx c x).gr rb).toNat = w) (hmark : w ≤ 2)
    (hop : (s.ctx c x).operand ra = some (h, v)) (hfull : 64 ≤ s.ubb.msgs.length) : limPuts s (.mpost c x rd ra rb) c x rd 1 :=
  limPuts_of_step rfl hstands ((limMpost_eq hw hmark hop).trans (if_pos hfull))

theorem mpost_length {w : Nat} (hstands : s.standsAt c x cl (.mpost rd ra rb)) (hw : ((s.ctx c x).gr rb).toNat = w) (hmark : w ≤ 2)
    (hop : (s.ctx c x).operand ra = some (h, v)) (hroom : s.ubb.msgs.length < 64)
    (hlen : v.pkt.bytes.length ≠ 8 + bitsOf (beNat (takePad 8 v.pkt.bytes)) 45 34 ∨ 4103 < v.pkt.bytes.length) :
    limPuts s (.mpost c x rd ra rb) c x rd 2 :=
  limPuts_of_step rfl hstands ((limMpost_eq hw hmark hop).trans ((if_neg (Nat.not_le.2 hroom)).trans (if_pos hlen)))

theorem mpost_posts {w : Nat} (hstands : s.standsAt c x cl (.mpost rd ra rb)) (hw : ((s.ctx c x).gr rb).toNat = w) (hmark : w ≤ 2)
    (hop : (s.ctx c x).operand ra = some (h, v)) (hroom : s.ubb.msgs.length < 64)
    (hlen : v.pkt.bytes.length = 8 + bitsOf (beNat (takePad 8 v.pkt.bytes)) 45 34) (hmax : v.pkt.bytes.length ≤ 4103) :
    ∃ t m, exec (.mpost c x rd ra rb) s = .next t ∧ t.ubb.msgs = s.ubb.msgs ++ [m] ∧ m.body = v.pkt.bytes.drop 8 ∧ m.enrol = (w == 1) ∧
      m.pair = (w == 2) ∧ bitsOf m.env.toNat 63 34 = bitsOf (beNat (takePad 8 v.pkt.bytes)) 63 34 ∧ bitsOf m.env.toNat 33 16 = 0 ∧
      (t.ctx c x).handle h = none ∧ (t.ctx c x).gr rd = 0 ∧ gregsKept (s.ctx c x) (t.ctx c x) rd ∧ (t.ctx c x).pc = (s.ctx c x).pc + 1 ∧
      ctxKept s t c x ∧ memKept s t ∧ unitsKept s t [0xA0 + c.val] := by
  have hstep := limMpost_eq (s := s) (c := c) (x := x) (rd := rd) hw hmark hop
  rw [if_neg (Nat.not_le.2 hroom), if_neg (by omega)] at hstep
  obtain ⟨hhigh, hlow⟩ := postedEnv_fields v.pkt.bytes
  generalize BitVec.ofNat 64 (postedEnv v.pkt.bytes + messageCrc (postedEnv v.pkt.bytes) (v.pkt.bytes.drop 8)) = env at hstep hhigh hlow
  have hmsgs := ubb_upPost env (v.pkt.bytes.drop 8) w hroom
  have hpost : ∃ ub, (s.upPost env (v.pkt.bytes.drop 8) w).1 = { s with ubb := ub } := by
    unfold State.upPost
    split <;> exact ⟨_, rfl⟩
  obtain ⟨ub, hub⟩ := hpost
  rw [hub] at hmsgs hstep
  obtain ⟨q, hframe⟩ := discardHeld_frame { s with ubb := ub } v
  rw [hframe] at hstep
  have htimed := limRun_sets hstands hstep
  have hput := put_of_timed htimed rfl (fun _ => rfl) rfl
  have hchanges : Changes (fun a _ => unitOf a ∈ [0xA0 + c.val]) s (s.limRun c x (some (.mpost rd ra rb))) :=
    (Changes.frame .refl).trans htimed.changes
  exact ⟨_, ⟨env, v.pkt.bytes.drop 8, w == 2, w == 1, w, s.ubb.msgNum⟩, rfl, (congrArg UbbState.msgs htimed.ubb).trans hmsgs,
    rfl, rfl, rfl, hhigh, hlow, (hput.handle h).trans (handle_setHandle_same ..),
    hput.result.trans (ite_self _), hput.others, hput.pc, hput.ctxs, hchanges.memKept, hchanges.unitsKept⟩

/-! ## MDROP -/

theorem mdrop_withdraws (hstands : s.standsAt c x cl (.mdrop rd ra)) :
    ∃ t : State, exec (.mdrop c x rd ra) s = .next t ∧
      t.ubb.msgs = s.ubb.msgs.filter (fun m => !dropClass (((s.ctx c x).gr ra).toNat % 4) m) ∧
      (t.ctx c x).gr rd = (if rd = 0 then 0 else BitVec.ofNat 64 (s.ubb.msgs.filter (dropClass (((s.ctx c x).gr ra).toNat % 4))).length) ∧
      gregsKept (s.ctx c x) (t.ctx c x) rd ∧ (t.ctx c x).pc = (s.ctx c x).pc + 1 ∧ ctxKept s t c x ∧ memKept s t ∧
      unitsKept s t [0xA0 + c.val] := by
  have htimed := limRun_sets hstands (u := s.withdraw (dropClass (((s.ctx c x).gr ra).toNat % 4))) rfl
  have hput := put_of_timed htimed rfl (fun _ => rfl) rfl
  have hchanges : Changes (fun a _ => unitOf a ∈ [0xA0 + c.val]) s (s.limRun c x (some (.mdrop rd ra))) :=
    (Changes.frame .refl).trans htimed.changes
  exact ⟨_, rfl, congrArg UbbState.msgs htimed.ubb, hput.result, hput.others, hput.pc, hput.ctxs, hchanges.memKept, hchanges.unitsKept⟩

/-! ## CREQ -/

theorem beNat_readBytes_head (s : State) (k : Nat) : (laWords (s.readBytes k 64)).getD 0 0 = beNat (s.readBytes k 8) := by
  have htake : (s.readBytes k 64).take 8 = s.readBytes k 8 := by
    simp only [State.readBytes, ← List.map_take, List.take_range]
    rfl
  rw [← htake]
  simp [laWords, List.range_succ_eq_map]

/-- A reply clause, where one is asked for, is among those that the clause may emit (R430). -/
def replyOk (cl : Clause) (w : Nat) : Prop := (cl.block = true → bitOf w 16 = true) ∧ (cl.block = false → bitsOf w 15 8 ≤ cl.sentLenM1)

theorem replyOk_iff (cl : Clause) (w : Nat) : replyOk cl w ↔ ¬(if cl.block = true then !bitOf w 16 else decide (cl.sentLenM1 < bitsOf w 15 8)) = true := by
  unfold replyOk
  cases cl.block <;> simp

theorem limCreq_range {e : Ctx} {w : Nat} (hw : (e.gr rb).toNat = w) (hreply : ¬replyOk cl w) : s.limCreq c x e cl rd ra rb = .error 6 := by
  have hbad := not_not.1 (mt (replyOk_iff cl w).2 hreply)
  subst hw
  exact if_pos hbad

theorem limCreq_align {e : Ctx} {w : Nat} (hw : (e.gr rb).toNat = w) (hreply : replyOk cl w) (hres : bitsOf w 7 6 = 0) (hhigh : w < 2 ^ 17)
    (halign : (e.gr ra).toNat % 8 ≠ 0) : s.limCreq c x e cl rd ra rb = .error 3 := by
  subst hw
  exact (if_neg ((replyOk_iff cl _).1 hreply)).trans ((if_neg (not_or.2 ⟨not_not.2 hres, Nat.not_le.2 hhigh⟩)).trans (if_pos halign))

/-- The request that a descriptor in the cell `k` makes. -/
def State.creqRequest (s : State) (c : Nat) (cl : Clause) (a w k : Nat) : CiphReq :=
  let q := w % 64
  let d := laWords (s.readBytes k 64)
  let bad := laBad d
  let aad := s.laRead c (d.getD 4 0) (bitsOf (d.getD 2 0) 31 0)
  let text := s.laRead c (d.getD 5 0) (bitsOf (d.getD 3 0) 29 0)
  let tag := if bitsOf (d.getD 0 0) 63 62 = 1 then s.laRead c (d.getD 7 0) 16 else some []
  let bus := aad.isNone || text.isNone || tag.isNone
  let r := laRequest d q (s.laUrgent q d) bad (bus && !bad) (aad.getD []) (text.getD []) (BitVec.ofNat 128 (beNat (tag.getD [])))
  { r with submitter := c, recAddr := a + 64, reply := if !bitOf w 16 then some ((cl.sentBase + bitsOf w 15 8) % 65536) else none }

theorem limCreq_eq {e : Ctx} {a w k : Nat} (ha : (e.gr ra).toNat = a) (hw : (e.gr rb).toNat = w) (hreply : replyOk cl w) (hres : bitsOf w 7 6 = 0)
    (hhigh : w < 2 ^ 17) (halign : a % 8 = 0) (hcell : s.limCell c a 64 true = some k) : s.limCreq c x e cl rd ra rb =
      if (!s.domTakes 6) = true ∨ s.restarting Src.ciph = true ∨ (!s.bit (R.ciphLaqCfg (w % 64)) F.ciphLaqCfg_en) = true then s.limPut c x e rd 2
      else if s.bit (R.ciphLaqCfg (w % 64)) F.ciphLaqCfg_src = true then s.limPut c x e rd 3
      else if 256 ≤ s.laLevel (w % 64) then s.limPut c x e rd 1
      else (s.laSubmit (w % 64) (s.creqRequest c cl a w k)).limPut c x e rd 0 := by
  subst ha hw
  refine (if_neg ((replyOk_iff cl _).1 hreply)).trans ((if_neg (not_or.2 ⟨not_not.2 hres, Nat.not_le.2 hhigh⟩)).trans
    ((if_neg (not_not.2 halign)).trans ?_))
  rw [hcell]
  rfl

section
variable {a w k : Nat} (ha : ((s.ctx c x).gr ra).toNat = a) (hw : ((s.ctx c x).gr rb).toNat = w)
  (hreply : replyOk cl w) (hres : bitsOf w 7 6 = 0) (hhigh : w < 2 ^ 17) (halign : a % 8 = 0) (hcell : s.limCell c a 64 true = some k)
include ha hw hreply hres hhigh halign hcell

theorem creq_disabled (hstands : s.standsAt c x cl (.creq rd ra rb))
    (hoff : s.domTakes 6 = false ∨ s.restarting Src.ciph = true ∨ s.bit (R.ciphLaqCfg (w % 64)) F.ciphLaqCfg_en = false) :
    limPuts s (.creq c x rd ra rb) c x rd 2 :=
  limPuts_of_step rfl hstands ((limCreq_eq ha hw hreply hres hhigh halign hcell).trans (if_pos (by simpa using hoff)))

variable (hon : s.domTakes 6 = true) (hrun : s.restarting Src.ciph = false) (hen : s.bit (R.ciphLaqCfg (w % 64)) F.ciphLaqCfg_en = true)
include hon hrun hen

theorem limCreq_on : s.limCreq c x (s.ctx c x) cl rd ra rb =
      if s.bit (R.ciphLaqCfg (w % 64)) F.ciphLaqCfg_src = true then s.limPut c x (s.ctx c x) rd 3
      else if 256 ≤ s.laLevel (w % 64) then s.limPut c x (s.ctx c x) rd 1
      else (s.laSubmit (w % 64) (s.creqRequest c cl a w k)).limPut c x (s.ctx c x) rd 0 :=
  (limCreq_eq ha hw hreply hres hhigh halign hcell).trans (if_neg (by simp [hon, hrun, hen]))

theorem creq_fed (hstands : s.standsAt c x cl (.creq rd ra rb)) (hsrc : s.bit (R.ciphLaqCfg (w % 64)) F.ciphLaqCfg_src = true) :
    limPuts s (.creq c x rd ra rb) c x rd 3 :=
  limPuts_of_step rfl hstands ((limCreq_on ha hw hreply hres hhigh halign hcell hon hrun hen).trans (if_pos hsrc))

theorem creq_full (hstands : s.standsAt c x cl (.creq rd ra rb)) (hsrc : s.bit (R.ciphLaqCfg (w % 64)) F.ciphLaqCfg_src = false)
    (hfull : 256 ≤ (s.look (w % 64)).length) :
    limPuts s (.creq c x rd ra rb) c x rd 1 :=
  limPuts_of_step rfl hstands ((limCreq_on ha hw hreply hres hhigh halign hcell hon hrun hen).trans
    ((if_neg (by rw [hsrc]; decide)).trans (if_pos hfull)))

theorem creq_queued (hstands : s.standsAt c x cl (.creq rd ra rb)) (hsrc : s.bit (R.ciphLaqCfg (w % 64)) F.ciphLaqCfg_src = false)
    (hroom : (s.look (w % 64)).length < 256) :
    ∃ t r, exec (.creq c x rd ra rb) s = .next t ∧ t.look (w % 64) = s.look (w % 64) ++ [r] ∧ t.ciph.waiting = s.ciph.waiting ++ [r] ∧
      r.who = .look (w % 64) ∧ r.op = bitsOf (beNat (s.readBytes k 8)) 63 62 ∧ r.slot = bitsOf (beNat (s.readBytes k 8)) 59 48 ∧
      r.submitter = c.val ∧ r.recAddr = a + 64 ∧
      r.reply = (if bitOf w 16 then none else some ((cl.sentBase + bitsOf w 15 8) % 65536)) ∧ (t.ctx c x).gr rd = 0 ∧
      gregsKept (s.ctx c x) (t.ctx c x) rd ∧ (t.ctx c x).pc = (s.ctx c x).pc + 1 ∧ ctxKept s t c x ∧ memKept s t ∧
      unitsKept s t [0xA0 + c.val] := by
  have hstep := limCreq_on (rd := rd) ha hw hreply hres hhigh halign hcell hon hrun hen
  rw [if_neg (by rw [hsrc]; decide), if_neg (show ¬256 ≤ s.laLevel (w % 64) from Nat.not_le.2 hroom)] at hstep
  have htimed := limRun_sets hstands hstep
  have hput := put_of_timed htimed rfl (fun _ => rfl) rfl
  have hciph : (s.limRun c x (some (.creq rd ra rb))).ciph = (s.laSubmit (w % 64) (s.creqRequest c cl a w k)).ciph := htimed.ciph
  have hchanges : Changes (fun a _ => unitOf a ∈ [0xA0 + c.val]) s (s.limRun c x (some (.creq rd ra rb))) :=
    (Changes.frame .refl).trans htimed.changes
  have hlook : (s.laSubmit (w % 64) (s.creqRequest c cl a w k)).look (w % 64) =
      s.look (w % 64) ++ [{ s.creqRequest c cl a w k with num := s.ciph.num }] := Tbl.get_set_same ..
  refine ⟨_, { s.creqRequest c cl a w k with num := s.ciph.num }, rfl, ?_, (congrArg CiphState.waiting hciph).trans rfl, rfl, ?_, ?_, rfl, rfl, ?_,
    hput.result.trans (ite_self _), hput.others, hput.pc, hput.ctxs, hchanges.memKept, hchanges.unitsKept⟩
  · rw [← hlook, State.look, State.look, hciph]
  · rw [← beNat_readBytes_head]
    rfl
  · rw [← beNat_readBytes_head]
    rfl
  · simp only [State.creqRequest]
    cases bitOf w 16 <;> rfl

end

theorem creq_range {w : Nat} (hstands : s.standsAt c x cl (.creq rd ra rb)) (hw : ((s.ctx c x).gr rb).toNat = w) (hreply : ¬replyOk cl w) :
    limFaults s (.creq c x rd ra rb) c x cl 6 := limFaults_of_error rfl hstands (by decide) (limCreq_range hw hreply)

theorem creq_align {w : Nat} (hstands : s.standsAt c x cl (.creq rd ra rb)) (hw : ((s.ctx c x).gr rb).toNat = w) (hreply : replyOk cl w)
    (hres : bitsOf w 7 6 = 0) (hhigh : w < 2 ^ 17) (halign : ((s.ctx c x).gr ra).toNat % 8 ≠ 0) : limFaults s (.creq c x rd ra rb) c x cl 3 :=
  limFaults_of_error rfl hstands (by decide) (limCreq_align hw hreply hres hhigh halign)

/-- Settles O47: each instruction's cases one by one. -/
theorem limSendsAndSubmits : Obligations.LimSendsAndSubmits := by
  intro s c x cl rd ra rb h v a b ha hb
  have hw : ((s.ctx c x).gr rb).toNat = b.toNat := by rw [hb]
  have hheld : a.toNat = h → h < 4 → (s.ctx c x).handle h = some v → (s.ctx c x).operand ra = some (h, v) := fun hh h4 hv =>
    operand_held (by rw [ha, hh]) h4 hv
  refine ⟨fun d hstands hh h4 hv hd hres hhigh hcl hk => ⟨psend_waits hstands hw hd hcl hres hhigh hk (hheld hh h4 hv),
    psend_enters hstands hw hd hcl hres hhigh hk (hheld hh h4 hv)⟩, fun hstands => psend_range hstands hw, fun hstands hh h4 hv =>
    pfree_frees hstands (hheld hh h4 hv), fun hstands hnone => pfree_noObject hstands (operand_none (by rw [ha]; exact hnone)),
    fun hstands hh h4 hv hmark => ⟨mpost_full hstands hw hmark (hheld hh h4 hv), mpost_length hstands hw hmark (hheld hh h4 hv),
      mpost_posts hstands hw hmark (hheld hh h4 hv)⟩, fun hstands => ha ▸ mdrop_withdraws hstands, ?creq, fun hstands hbad => ?range,
    fun hstands hblock hnode hres hhigh halign => creq_align hstands hw ⟨hblock, hnode⟩ hres hhigh (by rw [ha]; exact halign)⟩
  case creq =>
    rintro q k hstands hhigh hres rfl hblock hnode halign hcell
    have ha' : ((s.ctx c x).gr ra).toNat = a.toNat := by rw [ha]
    exact ⟨creq_disabled ha' hw ⟨hblock, hnode⟩ hres hhigh halign hcell hstands, fun hon hrun hen =>
      ⟨creq_fed ha' hw ⟨hblock, hnode⟩ hres hhigh halign hcell hon hrun hen hstands,
        creq_full ha' hw ⟨hblock, hnode⟩ hres hhigh halign hcell hon hrun hen hstands,
        creq_queued ha' hw ⟨hblock, hnode⟩ hres hhigh halign hcell hon hrun hen hstands⟩⟩
  case range =>
    refine creq_range hstands hw fun ⟨hblock, hnode⟩ => ?_
    rcases hbad with ⟨hb1, hb16⟩ | ⟨hb0, hlt⟩
    · rw [hblock hb1] at hb16
      cases hb16
    · exact absurd (hnode hb0) (Nat.not_le.2 hlt)

end Sys2Proof.Machine
end

section
/-!
SUPPORT. Events of the terminal and its planes (R157, R163 to R165, R171): a plane that comes or goes, the ward's status, the timers of planes
and the announcing; O22 is settled further below.
-/

namespace Sys2Proof.Machine

variable {s t u : State} {p : Plane}

/-! ## A plane comes and goes -/

theorem changes_planeUp (s : State) (p : Nat) : Changes (PlaneFld p) s (s.planeUp p) := by
  have hmove : Changes (PlaneFld p) s (s.setPlaneState p 2) := Changes.refl.moveTo fun _ _ => id
  exact .ite (fun _ => .ite (fun _ => (hmove.setPermit fun _ _ => id).setEqd fun _ _ => id) fun _ => hmove) fun _ => .refl

theorem planeUp_aligned (haligned : s.aligned p = true) (hsup : s.unsup p = false) (hstate : s.planeState p = 1) :
    (s.planeUp p).planeState p = 2 ∧ (s.planeUp p).enrol = s.enrol := by
  have hcond : s.planeState p = 1 ∧ s.aligned p = true ∧ (!s.unsup p) = true := ⟨hstate, haligned, by rw [hsup]; rfl⟩
  have hmoved : (s.setPlaneState p 2).planeState p = 2 := planeState_setPlaneState _ p (by decide)
  have henrol : (s.setPlaneState p 2).enrol = s.enrol := by
    rw [setPlaneState_eq]
    rfl
  unfold State.planeUp
  rw [if_pos hcond]
  dsimp only
  split
  · exact ⟨(planeState_setEqd ..).trans ((planeState_setPermit ..).trans hmoved), henrol⟩
  · exact ⟨hmoved, henrol⟩

theorem under_planeFld (h : Changes (PlaneFld p) s t) : t.under = s.under :=
  h.fld fun _ hg => absurd hg (not_planeFld_of_termOnly p.isLt termOnly_sysTermState _)

theorem base_planeFld (h : Changes (PlaneFld p) s t) : Changes BaseFld s t := h.mono fun _ _ hf => .inl ⟨p, p.isLt, hf⟩

theorem memKept_termStep (h : Changes BaseFld s t) : memKept s t.termStep :=
  ((h.mono fun _ _ => Or.inl).trans ((changes_termStep_fields t).mono fun _ _ => Or.inr)).memKept

/-- LISTENING with an aligned plane gives way to ALIGNED, and T_ALIGN stops. -/
theorem termStep_aligns (hunder : s.under = 1) (h : anyPlane s.aligned = true) : s.termStep.under = 2 ∧ s.termStep.enrol.tAlign = false := by
  have hframe : Changes (fun _ _ => False) (s.setTerm 2) { s.setTerm 2 with enrol := { s.enrol with tAlign := false } } := Changes.frame .refl
  rw [termStep_listening hunder h]
  exact ⟨(hframe.fld fun _ h => h.elim).trans (under_setTerm s (by decide)), rfl⟩

theorem planeAligned_inFrame (haligned : s.aligned p = true) (hsup : s.unsup p = false) (hstate : s.planeState p = 1) :
    ∃ t : State, exec (.planeAligned p) s = .next t ∧ t.planeState p = 2 ∧ (s.under = 1 → t.under = 2 ∧ t.enrol.tAlign = false) ∧
      memKept s t := by
  have hup := changes_planeUp s p
  refine ⟨_, congrArg Host.Outcome.next (if_pos haligned), (planeState_termStep _ p.isLt).trans (planeUp_aligned haligned hsup hstate).1,
    fun hunder => ?_, memKept_termStep (base_planeFld hup)⟩
  exact termStep_aligns ((under_planeFld hup).trans hunder) ((anyAligned_base (base_planeFld hup)).trans (anyPlane_of p haligned))

theorem planeDown_unaligned (haligned : s.aligned p = false) (hstate : s.planeState p = 2) :
    s.planeDown p = (s.setPermit p 0).setPlaneState p 1 := if_pos ⟨hstate, .inl (by rw [haligned]; rfl)⟩

/-- RANGING and OPERATING without an aligned plane give way to HOLDOVER. -/
theorem termStep_holds (hunder : s.under = 4 ∨ s.under = 5) (h : anyPlane s.aligned = false) :
    s.termStep.under = 6 ∧ s.termStep.enrol.prior = s.under := by
  generalize hu : s.count R.sysMediumCounts F.sysMediumCounts_holdovers = u
  have hframe : Changes (fun _ _ => False) (u.setTerm 6) { u.setTerm 6 with enrol := { s.enrol with prior := s.under } } := Changes.frame .refl
  rw [termStep_holdover hunder h, hu]
  exact ⟨(hframe.fld fun _ h => h.elim).trans (under_setTerm u (by decide)), rfl⟩

theorem planeAlignLost_acquiring (haligned : s.aligned p = false) (hstate : s.planeState p = 2) :
    ∃ t : State, exec (.planeAlignLost p) s = .next t ∧ t.planeState p = 1 ∧ t.fld (R.ubbPlaneCtl p) F.ubbPlaneCtl_permit = 0 ∧
      ((s.under = 4 ∨ s.under = 5) → (∀ q : Plane, s.aligned q = false) → t.under = 6 ∧ t.enrol.prior = s.under) ∧ memKept s t := by
  have hexec : exec (.planeAlignLost p) s = .next ((s.setPermit p 0).setPlaneState p 1).termStep := by
    have hcond : ¬(s.aligned p && !s.unsup p) = true := by simp [haligned]
    rw [← planeDown_unaligned haligned hstate]
    exact congrArg Host.Outcome.next (if_neg hcond)
  have hdown : Changes (PlaneFld p) s ((s.setPermit p 0).setPlaneState p 1) := (Changes.refl.setPermit fun _ _ => id).moveTo fun _ _ => id
  have hpermit : ((s.setPermit p 0).setPlaneState p 1).fld (R.ubbPlaneCtl p) F.ubbPlaneCtl_permit = 0 := by
    have hne : R.ubbPlaneCtl p ≠ (stateFld p).1 := fun h => stateFld_ne_planeRegs p p (h ▸ .head _)
    rw [State.fld, reg_setPlaneState_other _ _ _ hne]
    exact permit_setPermit s p (by decide)
  refine ⟨_, hexec, (planeState_termStep _ p.isLt).trans (planeState_setPlaneState _ p (by decide)), permit_termStep_none p.isLt hpermit,
    fun hunder hnone => ?_, memKept_termStep (base_planeFld hdown)⟩
  rw [← under_planeFld hdown] at hunder ⊢
  exact termStep_holds hunder ((anyAligned_base (base_planeFld hdown)).trans (anyPlane_none hnone))

/-! ## STOPPED -/

/-- PERMIT NONE and both copies of EQD 0 on every plane. -/
def State.denied (s : State) : State := (List.range 24).foldl (fun s p => (s.setPermit p 0).setEqd p 0) s

/-- The terminal in STOPPED with its cause and no id, its timers still running. -/
def State.halted (s : State) (cause : Nat) : State := ((s.denied.writeTid 0x3FE).setFld R.sysTermState F.sysTermState_stopCause cause).setTerm 8

theorem changes_stopTerm (s : State) (cause : Nat) : Changes (fun _ _ => False) (s.halted cause) (s.stopTerm cause) := Changes.frame .refl

theorem changes_denied (s : State) : Changes (fun a f => ∃ q, q < 24 ∧ PlaneFld q a f) s s.denied :=
  Changes.refl.foldl fun _ q hq h => (h.setPermit fun _ _ hf => ⟨q, List.mem_range.1 hq, hf⟩).setEqd fun _ _ hf => ⟨q, List.mem_range.1 hq, hf⟩

theorem base_stopTerm (s : State) (cause : Nat) : Changes BaseFld s (s.stopTerm cause) := by
  have hdenied : Changes BaseFld s s.denied := (changes_denied s).mono fun _ _ => Or.inl
  have htid : Changes BaseFld s (s.denied.writeTid 0x3FE) := hdenied.trans (changes_writeTid_base _ _)
  have hhalted : Changes BaseFld s (s.halted cause) :=
    (htid.setFld (.inr termOnly_sysTermState)).setTerm fun _ _ => .inr termOnly_sysTermState
  exact hhalted.trans ((changes_stopTerm s cause).mono fun _ _ => False.elim)

/-- PERMIT NONE and both copies of EQD 0. -/
def State.deniedAt (s : State) (p : Nat) : Prop := s.fld (R.ubbPlaneCtl p) F.ubbPlaneCtl_permit = 0 ∧
  s.fld (R.ubbPlaneEqd p) F.ubbPlaneEqd_eqd = 0 ∧ s.fld (R.wardPlaneEqd p) F.wardPlaneEqd_eqd = 0

theorem Beside.deniedAt (h : Beside p s t) (hs : s.deniedAt p) : t.deniedAt p := by
  obtain ⟨hpermit, hubb, hward⟩ := hs
  exact ⟨(h.fld p.isLt _ (.head _)).trans hpermit, (h.fld p.isLt _ (.tail _ (.head _))).trans hubb,
    (h.fld p.isLt _ (.tail _ (.tail _ (.head _)))).trans hward⟩

theorem deniedAt_denied (s : State) (p : Plane) : s.denied.deniedAt p := by
  obtain ⟨u, -, hafter⟩ := foldl_between (O := Beside p) (f := fun s q => State.setEqd (State.setPermit s q 0) q 0) (fun _ => .refl) .trans
    List.nodup_range (mem_planes p) (fun b q hq hne => (Beside.refl.setPermit (List.mem_range.1 hq) hne).setEqd (List.mem_range.1 hq) hne) s
  exact hafter.deniedAt ⟨(permit_setEqd ..).trans (permit_setPermit _ _ (by decide)), ubbEqd_setEqd .., wardEqd_setEqd ..⟩

/-- STOPPED: no id, no permission, and the cause. -/
structure Stopped (s : State) (cause : Nat) : Prop where
  term : s.termState = 8
  under : s.under = 8
  cause : s.fld R.sysTermState F.sysTermState_stopCause = cause
  tid : s.fld R.dfpIdent F.dfpIdent_tid = 0x3FE

theorem stopped_stopTerm (s : State) {cause : Nat} (hcause : cause < 4) : Stopped (s.stopTerm cause) cause := by
  have hframe : ∀ a f, (s.stopTerm cause).fld a f = (s.halted cause).fld a f := fun _ _ => (changes_stopTerm s cause).fld fun _ h => h.elim
  have hterm : Changes TermFld ((s.denied.writeTid 0x3FE).setFld R.sysTermState F.sysTermState_stopCause cause) (s.halted cause) :=
    Changes.refl.setTerm fun _ => id
  refine ⟨(hframe _ _).trans ((termState_setTerm _ (by decide)).trans (if_pos rfl)), (hframe _ _).trans (under_setTerm _ (by decide)),
    (hframe _ _).trans ((hterm.fld ?_).trans ((fld_setFld_same _ _ _ _ (by decide) (by decide)).trans (Nat.mod_eq_of_lt hcause))),
    (hframe _ _).trans ((hterm.fld fun _ h => absurd h.1 (by decide)).trans ((fld_setFld_other _ _ _ _ (by decide)).trans (tid_writeTid _ (by decide))))⟩
  rintro g ⟨-, rfl | rfl⟩ <;> decide

theorem deniedAt_stopTerm (s : State) (cause : Nat) (p : Plane) : (s.stopTerm cause).deniedAt p := by
  have hhalted : Beside p s.denied (s.halted cause) :=
    (Beside.refl.writeTid.ofTerm (Changes.refl.setFld termOnly_sysTermState) rfl).setTerm
  exact Beside.deniedAt (Beside.frame hhalted rfl) (deniedAt_denied s p)

/-! ## The ward's status -/

theorem fld_of_regs (h : t.regs = s.regs) (a : Nat) (f : Fld) : t.fld a f = s.fld a f := by rw [State.fld, State.fld, reg_of_regs h]

theorem wardStatus_fatal (h : s.bit R.wardStatus F.wardStatus_fatal = true) :
    ∃ t : State, exec .wardStatusChange s = .next t ∧ t.termState = 8 ∧ t.fld R.sysTermState F.sysTermState_stopCause = 3 ∧
      t.fld R.dfpIdent F.dfpIdent_tid = 0x3FE ∧ memKept s t := by
  obtain ⟨hterm, -, hcause, htid⟩ := stopped_stopTerm s (cause := 3) (by decide)
  exact ⟨_, congrArg Host.Outcome.next (if_pos h), hterm, hcause, htid, (base_stopTerm s 3).memKept⟩

theorem exec_wardStatusChange (hfatal : s.bit R.wardStatus F.wardStatus_fatal = false) :
    exec .wardStatusChange s = .next (if s.bit R.wardStatus F.wardStatus_permanent then s.stopTerm 2
      else if s.termState = 8 then s
      else if s.locked then s.setTerm s.under
      else if s.termState = 7 then
        if (s.setTerm s.under).under = 4 ∨ (s.setTerm s.under).under = 5 then (s.setTerm s.under).stateReport else s.setTerm s.under
      else s) := congrArg Host.Outcome.next (if_neg (by rw [hfatal]; decide))

theorem wardStatus_permanent (hfatal : s.bit R.wardStatus F.wardStatus_fatal = false) (h : s.bit R.wardStatus F.wardStatus_permanent = true) :
    ∃ t : State, exec .wardStatusChange s = .next t ∧ t.termState = 8 ∧ t.fld R.sysTermState F.sysTermState_stopCause = 2 ∧
      memKept s t := by
  obtain ⟨hterm, -, hcause, -⟩ := stopped_stopTerm s (cause := 2) (by decide)
  exact ⟨_, (exec_wardStatusChange hfatal).trans (congrArg _ (if_pos h)), hterm, hcause, (base_stopTerm s 2).memKept⟩

/-- The state shown is set anew over the underlying one. -/
theorem setTerm_under (h : s.under ≠ 8) : (s.setTerm s.under).termState = (if s.locked then 7 else s.under) ∧
    (s.setTerm s.under).under = s.under ∧ Changes (fun a _ => a ∈ [R.sysTermState]) s (s.setTerm s.under) :=
  ⟨(termState_setTerm s (under_lt s)).trans (if_neg h), under_setTerm s (under_lt s), Changes.refl.setTerm fun _ _ => .head _⟩

theorem wardStatus_locked (hfatal : s.bit R.wardStatus F.wardStatus_fatal = false) (hperm : s.bit R.wardStatus F.wardStatus_permanent = false)
    (hterm : s.termState ≠ 8) (hunder : s.under ≠ 8) (h : s.locked = true) :
    ∃ t : State, exec .wardStatusChange s = .next t ∧ t.termState = 7 ∧ t.under = s.under ∧ memKept s t ∧ regsKept s t [R.sysTermState] := by
  obtain ⟨hshown, hkept, hchanges⟩ := setTerm_under hunder
  refine ⟨_, (exec_wardStatusChange hfatal).trans (congrArg _ ((if_neg (by rw [hperm]; decide)).trans ((if_neg hterm).trans (if_pos h)))),
    hshown.trans (if_pos h), hkept, hchanges.memKept, hchanges.regsKept⟩

theorem wardStatus_released (hfatal : s.bit R.wardStatus F.wardStatus_fatal = false) (hperm : s.bit R.wardStatus F.wardStatus_permanent = false)
    (hterm : s.termState = 7) (hunder : s.under ≠ 8) (h : s.locked = false) :
    ∃ t : State, exec .wardStatusChange s = .next t ∧ t.termState = s.under ∧ t.under = s.under ∧ memKept s t ∧
      regsKept s t [R.sysTermState] := by
  obtain ⟨hshown, hkept, hchanges⟩ := setTerm_under hunder
  have hunlocked : ¬s.locked = true := by rw [h]; decide
  refine ⟨_, (exec_wardStatusChange hfatal).trans (congrArg _ ((if_neg (by rw [hperm]; decide)).trans ((if_neg (by rw [hterm]; decide)).trans
    ((if_neg hunlocked).trans (if_pos hterm))))), ?_⟩
  rw [if_neg hunlocked] at hshown
  split
  · have hreport := hchanges.stateReport
    exact ⟨(fld_of_regs (stateReport_regs _) _ _).trans hshown, (under_stateReport _).trans hkept, hreport.memKept, hreport.regsKept⟩
  · exact ⟨hshown, hkept, hchanges.memKept, hchanges.regsKept⟩

/-! ## T_ENROL -/

theorem leaveAnnouncing_enrol (s : State) : s.leaveAnnouncing.enrol.tEnrol = false ∧ s.leaveAnnouncing.enrol.attempt = none ∧
    ∀ x ∈ s.leaveAnnouncing.ubb.msgs, x.enrol = false := by
  unfold State.leaveAnnouncing
  generalize s.permitNone = t
  exact ⟨rfl, rfl, fun x hx => by simpa using (List.mem_filter.1 hx).2⟩

theorem tEnrol_expires (hunder : s.under = 3) (hrun : s.enrol.tEnrol = true) :
    ∃ t : State, exec .tEnrolExpiry s = .next t ∧ t.under = 2 ∧ t.enrol.tEnrol = false ∧ t.enrol.attempt = none ∧
      counted s t R.sysEnrolCounts F.sysEnrolCounts_enrolTimeouts ∧ (∀ q : Plane, t.fld (R.ubbPlaneCtl q) F.ubbPlaneCtl_permit = 0) ∧
      (∀ x ∈ t.ubb.msgs, x.enrol = false) ∧ memKept s t := by
  have hleave : Changes (fun a _ => ∃ q < 24, a = R.ubbPlaneCtl q) s s.leaveAnnouncing := Changes.refl.leaveAnnouncing fun q hq => ⟨q, hq, rfl⟩
  have hpermit : ∀ q : Plane, s.leaveAnnouncing.fld (R.ubbPlaneCtl q) F.ubbPlaneCtl_permit = 0 := fun q => by
    obtain ⟨u, -, hafter⟩ := leaveAnnouncing_between s q.isLt
    exact (hafter.fld q.isLt _ (.head _)).trans (permit_setPermit _ _ (by decide))
  obtain ⟨hrunning, hattempt, hmsgs⟩ := leaveAnnouncing_enrol s
  generalize hu : s.leaveAnnouncing = u at *
  have hterm : Changes TermFld (u.count R.sysEnrolCounts F.sysEnrolCounts_enrolTimeouts)
      ((u.count R.sysEnrolCounts F.sysEnrolCounts_enrolTimeouts).setTerm 2) := Changes.refl.setTerm fun _ => id
  have hcounts : R.sysEnrolCounts ∉ (List.range 24).map R.ubbPlaneCtl := by decide
  have hall : Changes (fun _ _ => True) s ((u.count R.sysEnrolCounts F.sysEnrolCounts_enrolTimeouts).setTerm 2) :=
    ((hleave.mono fun _ _ _ => trivial).count trivial).setTerm fun _ _ => trivial
  have hexec : exec .tEnrolExpiry s = .next ((s.leaveAnnouncing.count R.sysEnrolCounts F.sysEnrolCounts_enrolTimeouts).setTerm 2) :=
    congrArg Host.Outcome.next (if_pos ⟨hunder, hrun⟩)
  refine ⟨(u.count R.sysEnrolCounts F.sysEnrolCounts_enrolTimeouts).setTerm 2, hexec.trans (by rw [hu]), under_setTerm _ (by decide), hrunning, hattempt,
    counted_count (u := u) ?_ (hterm.fld fun _ h => absurd h.1 (by decide)) (by decide) (by decide), fun q => ?_, hmsgs, hall.memKept⟩
  · refine hleave.fld fun _ ⟨q, hq, ha⟩ => absurd (List.mem_map.2 ⟨q, List.mem_range.2 hq, ha.symm⟩) hcounts
  · have hne : R.ubbPlaneCtl q ≠ R.sysTermState ∧ R.ubbPlaneCtl q ≠ R.sysEnrolCounts := by
      simp only [R.ubbPlaneCtl, R.sysTermState, R.sysEnrolCounts]; omega
    rw [hterm.fld fun _ h => absurd h.1 hne.1, fld_count_other _ _ _ _ hne.2]
    exact hpermit q

/-! ## T_RANGE and T_HOLD of a plane -/

theorem exec_tRangeExpiry (hstate : s.planeState p = 3) (hrun : (s.eplane p).tRange = true) : exec (.tRangeExpiry p) s =
    .next ((s.rangeOut p).count R.sysMediumCounts F.sysMediumCounts_rangeTimeouts).termStep := congrArg Host.Outcome.next (if_pos ⟨hstate, hrun⟩)

theorem rangeOut_values (s : State) (p : Plane) : (s.rangeOut p).planeState p = 2 ∧ (s.rangeOut p).deniedAt p ∧
    ((s.rangeOut p).eplane p).tRange = false := by
  have hrtd : ∀ a ∈ [R.ubbPlaneCtl p, R.ubbPlaneEqd p, R.wardPlaneEqd p, R.sysPlaneState0, R.sysPlaneState1],
      a ∉ [R.timePlaneRtd p, R.timeStatus, R.timeRefStatus] := fun a ha => by
    have := p.isLt
    simp only [List.mem_cons, List.not_mem_nil, or_false, R.ubbPlaneCtl, R.ubbPlaneEqd, R.wardPlaneEqd, R.sysPlaneState0, R.sysPlaneState1,
      R.timePlaneRtd, R.timeStatus, R.timeRefStatus] at ha ⊢
    omega
  have hstate : ∀ a ∈ planeRegs p, (s.unranged p).reg a = ((s.setPermit p 0).setEqd p 0).reg a := fun a ha =>
    (reg_setPlaneState_other _ _ _ fun h => stateFld_ne_planeRegs p p (h ▸ ha)).trans rfl
  have hreg : ∀ a ∈ planeRegs p, a ∈ [R.ubbPlaneCtl p, R.ubbPlaneEqd p, R.wardPlaneEqd p, R.sysPlaneState0, R.sysPlaneState1] →
      (s.rangeOut p).reg a = ((s.setPermit p 0).setEqd p 0).reg a := fun a ha hl => (reg_dropRtd _ _ (hrtd a hl)).trans (hstate a ha)
  refine ⟨(planeState_congr (reg_dropRtd _ _ (hrtd _ (.tail _ (.tail _ (.tail _ (.head _)))))) (reg_dropRtd _ _ (hrtd _ (.tail _ (.tail _ (.tail _
    (.tail _ (.head _))))))) p).trans (planeState_setPlaneState _ p (by decide)), ⟨?_, ?_, ?_⟩, ?_⟩
  · rw [State.fld, hreg _ (.head _) (.head _)]
    exact (permit_setEqd ..).trans (permit_setPermit _ _ (by decide))
  · rw [State.fld, hreg _ (.tail _ (.head _)) (.tail _ (.head _))]
    exact ubbEqd_setEqd ..
  · rw [State.fld, hreg _ (.tail _ (.tail _ (.head _))) (.tail _ (.tail _ (.head _)))]
    exact wardEqd_setEqd ..
  · have henrol : (s.rangeOut p).eplane p = (((s.setPermit p 0).setEqd p 0).setEplane p {}).eplane p := by
      have hunranged : (s.unranged p).enrol = (((s.setPermit p 0).setEqd p 0).setEplane p {}).enrol := by
        unfold State.unranged
        rw [setPlaneState_eq]
        rfl
      exact eplane_congr _ p ((dropRtd_enrol (s.unranged p) p).trans hunranged)
    rw [henrol, eplane_setEplane_same]

theorem deniedAt_setPermit (h : s.deniedAt p) : (s.setPermit p 0).deniedAt p := by
  obtain ⟨-, hubb, hward⟩ := h
  have hne : R.ubbPlaneEqd p ≠ R.ubbPlaneCtl p ∧ R.wardPlaneEqd p ≠ R.ubbPlaneCtl p := by
    simp only [R.ubbPlaneEqd, R.wardPlaneEqd, R.ubbPlaneCtl]; omega
  exact ⟨permit_setPermit _ _ (by decide), (fld_setFld_other _ _ _ _ hne.1).trans hubb, (fld_setFld_other _ _ _ _ hne.2).trans hward⟩

theorem deniedAt_termStep (h : s.deniedAt p) : s.termStep.deniedAt p :=
  holds_termStep (P := fun t => t.deniedAt p) p.isLt Beside.deniedAt deniedAt_setPermit h

theorem tRange_expires (hstate : s.planeState p = 3) (hrun : (s.eplane p).tRange = true) :
    ∃ t : State, exec (.tRangeExpiry p) s = .next t ∧ t.planeState p = 2 ∧ t.fld (R.ubbPlaneCtl p) F.ubbPlaneCtl_permit = 0 ∧
      t.fld (R.ubbPlaneEqd p) F.ubbPlaneEqd_eqd = 0 ∧ t.fld (R.wardPlaneEqd p) F.wardPlaneEqd_eqd = 0 ∧ (t.eplane p).tRange = false ∧
      counted s t R.sysMediumCounts F.sysMediumCounts_rangeTimeouts ∧ memKept s t := by
  obtain ⟨hstate', hdenied, hrange⟩ := rangeOut_values s p
  have hout : Changes (PlaneOp p) s (s.rangeOut p) := Changes.refl.rangeOut fun _ _ => id
  have hexec := exec_tRangeExpiry hstate hrun
  generalize s.rangeOut p = u at *
  have hbeside : Beside p u (u.count R.sysMediumCounts F.sysMediumCounts_rangeTimeouts) := Beside.refl.count termOnly_sysMediumCounts
  have hbase : Changes BaseFld s (u.count R.sysMediumCounts F.sysMediumCounts_rangeTimeouts) :=
    (hout.mono fun _ _ => baseFld_of_planeOp p.isLt).count (.inr termOnly_sysMediumCounts)
  obtain ⟨hpermit, hubb, hward⟩ := deniedAt_termStep (hbeside.deniedAt hdenied)
  refine ⟨_, hexec, (planeState_termStep _ p.isLt).trans ((hbeside.planeState p.isLt).trans hstate'), hpermit, hubb, hward,
    (congrArg _ ((eplane_termStep _ p.isLt).trans hbeside.eplane)).trans hrange, ?_, memKept_termStep hbase⟩
  refine counted_count (u := u) (hout.fld fun g hg => absurd hg (not_planeOp_of_termOnly p.isLt (by decide) g)) ?_ (by decide) (by decide)
  refine (changes_termStep_fields _).fld fun g hg => ?_
  rcases hg with hg | hg | hg | ⟨q, hq, hg⟩ | hg
  · exact absurd hg.1 (by decide)
  · rw [show g = F.sysMediumCounts_holdovers from congrArg Prod.snd hg]
    decide
  · exact absurd (congrArg Prod.fst hg) (by decide : R.sysMediumCounts ≠ R.dfpIdent)
  · have haddr : R.sysMediumCounts = R.ubbPlaneCtl q := congrArg Prod.fst hg
    simp only [R.sysMediumCounts, R.ubbPlaneCtl] at haddr
    omega
  · exact absurd hg (by decide)

theorem planeTHold_expires (hstate : s.planeState p = 3 ∨ s.planeState p = 4) (haligned : s.aligned p = false)
    (hheld : s.heldOut (s.eplane p).tHold = true) :
    ∃ t : State, exec (.planeTHoldExpiry p) s = .next t ∧ t.planeState p = 1 ∧ t.fld (R.ubbPlaneCtl p) F.ubbPlaneCtl_permit = 0 ∧
      t.fld (R.ubbPlaneEqd p) F.ubbPlaneEqd_eqd = 0 ∧ t.reg (R.ubbPlaneGroups p) = 0 ∧ memKept s t := by
  have hcond : (s.planeState p = 3 ∨ s.planeState p = 4) ∧ (!s.aligned p) = true ∧ s.heldOut (s.eplane p).tHold = true :=
    ⟨hstate, by rw [haligned]; rfl, hheld⟩
  obtain ⟨hreleased, hpermit, hubb, -, hgroups⟩ := releasedAt_termStep (releasedAt_releaseTo s p (st := 1) (by decide))
  exact ⟨_, congrArg Host.Outcome.next (if_pos hcond), hreleased, hpermit, hubb, hgroups,
    memKept_termStep (Changes.refl.releaseTo fun _ _ => baseFld_of_planeOp p.isLt)⟩

/-! ## Announcing -/

/-- The body of an ANNOUNCE (R169). -/
def State.announceBody (s : State) : List Byte :=
  beBytes 24 ((s.reg R.sysSerial).toNat * 2 ^ 128 + setBitsOf (s.fld R.sysCapability F.sysCapability_cap) 20 14 s.maxGrants % 2 ^ 32 * 2 ^ 96 +
    s.fld R.hingePair F.hingePair_pairId * 2 ^ 80 + s.role * 2 ^ 78 + s.planesIn 2 * 2 ^ 48 +
    s.fld R.sysTermState F.sysTermState_attempts * 2 ^ 40)

theorem announce_eq (s : State) : s.announce = (s.upPost (envelope 0x3FE 0x81 s.announceBody) s.announceBody 1).1 := rfl

theorem announceBackoff_queues {a w : Nat} (hunder : s.under = 3) (hattempt : s.enrol.attempt = some (a, w)) (hvalid : s.lpValid = true)
    (hdue : a + w ≤ s.time.frame) (hroom : s.ubb.msgs.length < 64) :
    ∃ t x, exec .announceBackoff s = .next t ∧ t.ubb.msgs = s.ubb.msgs ++ [x] ∧ x.enrol = true ∧ x.typ = 0x81 ∧ x.body.length = 24 ∧
      t.enrol.attempt = none ∧ counted s t R.sysTermState F.sysTermState_attempts ∧
      counted s t R.sysEnrolCounts F.sysEnrolCounts_announces ∧ memKept s t ∧ regsKept s t [R.sysTermState, R.sysEnrolCounts] := by
  have hover : s.backoffOver = true := by
    unfold State.backoffOver
    rw [hattempt]
    exact Bool.and_eq_true_iff.2 ⟨hvalid, decide_eq_true hdue⟩
  have hexec : exec .announceBackoff s = .next (({ s.announce with enrol := { s.enrol with attempt := none } }.count R.sysTermState
      F.sysTermState_attempts).count R.sysEnrolCounts F.sysEnrolCounts_announces) := congrArg Host.Outcome.next (if_pos ⟨hunder, hover⟩)
  have hmsgs := ubb_upPost (s := s) (envelope 0x3FE 0x81 s.announceBody) s.announceBody 1 hroom
  obtain ⟨-, htyp⟩ := envelope_fields 0x3FE 0x81 s.announceBody
  have hregs : s.announce.regs = s.regs := upPost_keep State.regs (fun _ _ => rfl) ..
  have hmem : s.announce.mem = s.mem := upPost_keep State.mem (fun _ _ => rfl) ..
  have hpost : Changes (fun a _ => a ∈ [R.sysTermState, R.sysEnrolCounts]) s s.announce := ⟨hmem, fun a _ _ => by rw [reg_of_regs hregs]⟩
  rw [← announce_eq] at hmsgs
  obtain ⟨u, hu, hqueued, hnone, hfield, hchanges⟩ : ∃ u : State, u = { s.announce with enrol := { s.enrol with attempt := none } } ∧
      u.ubb.msgs = s.announce.ubb.msgs ∧ u.enrol.attempt = none ∧ (∀ a f, u.fld a f = s.announce.fld a f) ∧
      Changes (fun a _ => a ∈ [R.sysTermState, R.sysEnrolCounts]) s u :=
    ⟨_, rfl, rfl, rfl, fun _ _ => rfl, hpost.frame⟩
  rw [← hu] at hexec
  have hcounts := (hchanges.count (f := F.sysTermState_attempts) (n := 1) (.head _)).count (f := F.sysEnrolCounts_announces) (n := 1)
    (.tail _ (.head _))
  have hsame : ∀ a f, u.fld a f = s.fld a f := fun a f => (hfield a f).trans (fld_of_regs hregs a f)
  refine ⟨_, ⟨envelope 0x3FE 0x81 s.announceBody, s.announceBody, false, true, 1, s.ubb.msgNum⟩, hexec, hqueued.trans hmsgs, rfl, htyp,
    length_beBytes .., hnone, ?_, ?_, hcounts.memKept, hcounts.regsKept⟩
  · exact counted_count (hsame _ _) (fld_count_other _ _ _ _ (by decide)) (by decide) (by decide)
  · exact counted_count ((fld_count_other _ _ _ _ (by decide)).trans (hsame _ _)) rfl (by decide) (by decide)

/-- An attempt begins outside the registers. -/
theorem changes_beginAttempt (s : State) (a : Nat) : Changes (fun _ _ => False) s (s.beginAttempt a) := Changes.frame .refl

theorem beginAttempt_enrol (s : State) (a : Nat) : ∃ r, (s.beginAttempt a).enrol.attempt = some (a, r) ∧ (s.beginAttempt a).enrol.taken = none :=
  ⟨_, rfl, rfl⟩

theorem noAnswer_raises {f : Nat} (hunder : s.under = 3) (htaken : s.enrol.taken = some f) (hdue : f + s.enrol.answerNow + 1 ≤ s.time.frame)
    (hmax : s.enrol.beMax ≤ 12) :
    ∃ t r, exec .noAnswer s = .next t ∧ counted s t R.sysEnrolCounts F.sysEnrolCounts_noAnswer ∧
      t.fld R.sysTermState F.sysTermState_be = min (s.fld R.sysTermState F.sysTermState_be + 1) s.enrol.beMax ∧
      t.enrol.attempt = some (f + s.enrol.answerNow + 1, r) ∧ t.enrol.taken = none ∧ memKept s t ∧
      regsKept s t [R.sysTermState, R.sysEnrolCounts] := by
  generalize hbe : min (s.fld R.sysTermState F.sysTermState_be + 1) s.enrol.beMax = be
  have hexec : exec .noAnswer s = .next (((s.count R.sysEnrolCounts F.sysEnrolCounts_noAnswer).setFld R.sysTermState F.sysTermState_be be).beginAttempt
      (f + s.enrol.answerNow + 1)) := by
    have hcounted : (s.count R.sysEnrolCounts F.sysEnrolCounts_noAnswer).fld R.sysTermState F.sysTermState_be =
        s.fld R.sysTermState F.sysTermState_be := fld_count_other _ _ _ _ (by decide)
    have hunfold : exec .noAnswer s = execNoAnswer s := rfl
    rw [hunfold, execNoAnswer, htaken]
    dsimp only
    rw [if_pos ⟨hunder, hdue⟩, hcounted, count_enrol, hbe]
  have hchanges : Changes (fun a _ => a ∈ [R.sysTermState, R.sysEnrolCounts]) s ((s.count R.sysEnrolCounts F.sysEnrolCounts_noAnswer).setFld
      R.sysTermState F.sysTermState_be be) := (Changes.refl.count (.tail _ (.head _))).setFld (.head _)
  have hcount : ((s.count R.sysEnrolCounts F.sysEnrolCounts_noAnswer).setFld R.sysTermState F.sysTermState_be be).fld R.sysEnrolCounts
      F.sysEnrolCounts_noAnswer = (s.count R.sysEnrolCounts F.sysEnrolCounts_noAnswer).fld R.sysEnrolCounts F.sysEnrolCounts_noAnswer :=
    fld_setFld_other _ _ _ _ (by decide)
  have hset : ((s.count R.sysEnrolCounts F.sysEnrolCounts_noAnswer).setFld R.sysTermState F.sysTermState_be be).fld R.sysTermState
      F.sysTermState_be = be := (fld_setFld_same _ _ _ _ (by decide) (by decide)).trans (Nat.mod_eq_of_lt (show be < 16 by omega))
  generalize (s.count R.sysEnrolCounts F.sysEnrolCounts_noAnswer).setFld R.sysTermState F.sysTermState_be be = u at *
  obtain ⟨r, hattempt, htaken'⟩ := beginAttempt_enrol u (f + s.enrol.answerNow + 1)
  have hbegun := changes_beginAttempt u (f + s.enrol.answerNow + 1)
  have hall := hchanges.trans (hbegun.mono fun _ _ => False.elim)
  exact ⟨_, r, hexec, counted_count rfl ((hbegun.fld fun _ h => h.elim).trans hcount) (by decide) (by decide),
    (hbegun.fld fun _ h => h.elim).trans hset, hattempt, htaken', hall.memKept, hall.regsKept⟩

end Sys2Proof.Machine
end

section
/-!
SUPPORT. START and STOP move every lane (R163, R165): a frame is drained, a burst cut, the hunt begun anew. None of it reaches the enrolment's
own state, the sequence numbers of the flows, or a plane's PERMIT and EQD. `Steady s t` says so, with one lemma for each operation on the way, in
the model's order.
-/

namespace Sys2Proof.Machine

/-! ## PERMIT and EQD of the planes -/

/-- The registers PLANE_CTL and PLANE_EQD of the planes in UBB. -/
def PermitReg (a : Nat) : Prop := 0xF100001000 ≤ a ∧ a < 0xF100001C00 ∧ a % 0x80 < 0x10

theorem permitReg_ubbPlaneCtl (p : Plane) : PermitReg (R.ubbPlaneCtl p) := by
  simp only [PermitReg, R.ubbPlaneCtl]
  omega

theorem permitReg_ubbPlaneEqd (p : Plane) : PermitReg (R.ubbPlaneEqd p) := by
  simp only [PermitReg, R.ubbPlaneEqd]
  omega

/-! ### The registers on the way: none is of them -/

theorem not_permitReg_medLaneCfg (p : Plane) : ¬PermitReg (R.medLaneCfg p) := by simp only [PermitReg, R.medLaneCfg]; omega
@[simp] theorem not_permitReg_medLaneStatus (p : Plane) : ¬PermitReg (R.medLaneStatus p) := by simp only [PermitReg, R.medLaneStatus]; omega
@[simp] theorem not_permitReg_dfpPlaneStatus (p : Plane) : ¬PermitReg (R.dfpPlaneStatus p) := by simp only [PermitReg, R.dfpPlaneStatus]; omega
@[simp] theorem not_permitReg_dfpPlaneDefect (p : Plane) : ¬PermitReg (R.dfpPlaneDefect p) := by simp only [PermitReg, R.dfpPlaneDefect]; omega
@[simp] theorem not_permitReg_dfpMsgDisc (i : Nat) : ¬PermitReg (R.dfpMsgDisc i) := by simp only [PermitReg, R.dfpMsgDisc]; omega
@[simp] theorem not_permitReg_dfpMsgRx (i : Nat) : ¬PermitReg (R.dfpMsgRx i) := by simp only [PermitReg, R.dfpMsgRx]; omega
@[simp] theorem not_permitReg_dfpMsgUnknown (i : Nat) : ¬PermitReg (R.dfpMsgUnknown i) := by simp only [PermitReg, R.dfpMsgUnknown]; omega
@[simp] theorem not_permitReg_dfpGrantsAcc (i : Nat) : ¬PermitReg (R.dfpGrantsAcc i) := by simp only [PermitReg, R.dfpGrantsAcc]; omega
@[simp] theorem not_permitReg_dfpGrantsDisc (i : Nat) : ¬PermitReg (R.dfpGrantsDisc i) := by simp only [PermitReg, R.dfpGrantsDisc]; omega
@[simp] theorem not_permitReg_dfpParcels (i : Nat) : ¬PermitReg (R.dfpParcels i) := by simp only [PermitReg, R.dfpParcels]; omega
@[simp] theorem not_permitReg_dfpParcelBytes (i : Nat) : ¬PermitReg (R.dfpParcelBytes i) := by simp only [PermitReg, R.dfpParcelBytes]; omega
@[simp] theorem not_permitReg_dfpHuntBits (i : Nat) : ¬PermitReg (R.dfpHuntBits i) := by simp only [PermitReg, R.dfpHuntBits]; omega
@[simp] theorem not_permitReg_lschCount : ¬PermitReg (R.lschCount 6) := by unfold PermitReg; decide
@[simp] theorem not_permitReg_qmDropCount : ¬PermitReg (R.qmDropCount 8) := by unfold PermitReg; decide
@[simp] theorem not_permitReg_fltStatus : ¬PermitReg R.fltStatus := by unfold PermitReg; decide

theorem not_permitReg_pmcCnt (v : Nat) {i : Nat} (h : i < 8) : ¬PermitReg (R.pmcCnt v i) := by simp only [PermitReg, R.pmcCnt]; omega
theorem not_permitReg_pmcCtl (v : Nat) : ¬PermitReg (R.pmcCtl v) := by simp only [PermitReg, R.pmcCtl]; omega
theorem not_permitReg_dfpDispCount {i : Nat} (h : i < 16) : ¬PermitReg (R.dfpDispCount i) := by simp only [PermitReg, R.dfpDispCount]; omega
theorem not_permitReg_ubbBdispCount {i : Nat} (h : i < 16) : ¬PermitReg (R.ubbBdispCount i) := by simp only [PermitReg, R.ubbBdispCount]; omega
theorem not_permitReg_ubbPdispCount {i : Nat} (h : i < 16) : ¬PermitReg (R.ubbPdispCount i) := by simp only [PermitReg, R.ubbPdispCount]; omega
theorem not_permitReg_circCount {i : Nat} (h : i < 16) : ¬PermitReg (R.circCount i) := by simp only [PermitReg, R.circCount]; omega
theorem not_permitReg_dmaChRingIdx {c : Nat} (h : c < 512) : ¬PermitReg (R.dmaChRingIdx c) := by simp only [PermitReg, R.dmaChRingIdx]; omega
theorem not_permitReg_pipePkts (d : Dir) {i : Nat} (h : i < 8) : ¬PermitReg (R.pipePkts d.unit i) := by
  cases d <;> simp only [PermitReg, R.pipePkts, Dir.unit] <;> omega
theorem not_permitReg_pipeDrop {i : Nat} (h : i < 8) : ¬PermitReg (R.pipeDrop 1 i) := by simp only [PermitReg, R.pipeDrop]; omega

theorem not_permitReg_of_time {a : Nat} (h : unitOf a = 5) : ¬PermitReg a := by
  simp only [unitOf] at h
  simp only [PermitReg]
  omega

/-! ## What leaves the enrolment, the flows and the permissions alone -/

/-- The enrolment, the flows' sequence numbers and every PERMIT and EQD of UBB are in `t` as in `s`. -/
structure Steady (s t : State) : Prop where
  enrol : t.enrol = s.enrol
  flows : t.ubb.flows = s.ubb.flows
  reg : ∀ a, PermitReg a → t.reg a = s.reg a

namespace Steady

variable {s t u : State} {p : Plane}

@[refl] theorem refl : Steady s s := ⟨rfl, rfl, fun _ _ => rfl⟩

theorem trans (h : Steady s t) (h' : Steady t u) : Steady s u :=
  ⟨h'.enrol.trans h.enrol, h'.flows.trans h.flows, fun a ha => (h'.reg a ha).trans (h.reg a ha)⟩

theorem of_changes {W : Nat → Fld → Prop} (hc : Changes W s t) (hw : ∀ a f, W a f → ¬PermitReg a) (henrol : t.enrol = s.enrol)
    (hubb : t.ubb = s.ubb) : Steady s t :=
  ⟨henrol, by rw [hubb], fun a ha => hc.reg fun f hf => hw a f hf ha⟩

/-! ### Rules -/

theorem setReg (h : Steady s t) {a : Nat} {w : Word} (ha : ¬PermitReg a) : Steady s (t.setReg a w) :=
  ⟨h.enrol, h.flows, fun b hb => (reg_setReg_other _ _ (by rintro rfl; exact ha hb)).trans (h.reg b hb)⟩

theorem setFld (h : Steady s t) {a : Nat} {f : Fld} {v : Nat} (ha : ¬PermitReg a) : Steady s (t.setFld a f v) := h.setReg ha

theorem count (h : Steady s t) {a : Nat} {f : Fld} {n : Nat} (ha : ¬PermitReg a) : Steady s (t.count a f n) := h.setFld ha

theorem setBit (h : Steady s t) {a : Nat} {f : Fld} {b : Bool} (ha : ¬PermitReg a) : Steady s (t.setBit a f b) := h.setFld ha

/-- A component of the state other than the registers, the enrolment and UBB is replaced. -/
theorem frame {p m f e w md df wd ti cl qm ci cr cp fl ls ho tw pr pw mo ta} (h : Steady s t) :
    Steady s ⟨p, t.regs, m, f, e, w, md, df, t.ubb, wd, t.enrol, ti, cl, qm, ci, cr, cp, fl, ls, ho, tw, pr, pw, mo, ta⟩ :=
  ⟨h.enrol, h.flows, h.reg⟩

/-- UBB is replaced, the flows staying, and other components with it. -/
theorem frameUbb {p m f e w md df ub wd ti cl qm ci cr cp fl ls ho tw pr pw mo ta} (h : Steady s t) (hub : ub.flows = t.ubb.flows) :
    Steady s ⟨p, t.regs, m, f, e, w, md, df, ub, wd, t.enrol, ti, cl, qm, ci, cr, cp, fl, ls, ho, tw, pr, pw, mo, ta⟩ :=
  ⟨h.enrol, hub.trans h.flows, h.reg⟩

theorem ite {c : Prop} [Decidable c] (h : c → Steady s t) (h' : ¬c → Steady s u) : Steady s (if c then t else u) := by
  split
  · exact h ‹_›
  · exact h' ‹_›

theorem foldl {α} {f : State → α → State} {l : List α} (h : Steady s t) (hf : ∀ t x, Steady s t → Steady s (f t x)) :
    Steady s (l.foldl f t) :=
  List.foldlRecOn (motive := Steady s) l f h fun t ht x _ => hf t x ht

theorem latch (h : Steady s t) {a : Nat} {f : Fld} (ha : ¬PermitReg a) : Steady s (t.latch a f) :=
  .ite (fun _ => h) fun _ => (h.setFld ha).frame

theorem pmcEvent (h : Steady s t) {v code n : Nat} : Steady s (t.pmcEvent v code n) := by
  refine .ite (fun _ => h) fun _ => List.foldlRecOn (motive := Steady s) _ _ h fun u hu i hi => .ite (fun _ => ?_) fun _ => hu
  have hcount := fun n => hu.setFld (f := F.pmcCnt_count) (v := n) (not_permitReg_pmcCnt v (List.mem_range.1 hi))
  exact .ite (fun _ => (hcount _).latch (not_permitReg_pmcCtl v)) fun _ => hcount _

/-! ### Packets, records and tokens -/

theorem setPlaneState (h : Steady s t) {q v : Nat} : Steady s (t.setPlaneState q v) :=
  .ite (fun _ => h.setFld (by unfold PermitReg; decide)) fun _ => h.setFld (by unfold PermitReg; decide)

theorem token (h : Steady s t) {node : Nat} {v : Word} : Steady s (t.token node v).1 := by
  simp only [State.token, apply_ite Prod.fst]
  exact .ite (fun _ => h) fun _ => .ite (fun _ => h) fun _ => .ite (fun _ => h.frame) fun _ => h.frame

theorem tokenOrDrop (h : Steady s t) {node : Nat} {v : Word} : Steady s (t.tokenOrDrop node v) :=
  .ite (fun _ => h.token) fun _ => h.setFld (by simp)

theorem writeRecord (h : Steady s t) {c : Nat} {r : DmaRecord} (hc : c < 512) : Steady s (t.writeRecord c r) :=
  have hidx := (h.frame : Steady s (t.hostOut _)).setFld (not_permitReg_dmaChRingIdx hc)
  .ite (fun _ => hidx.frame) fun _ => hidx

theorem flushRecords (h : Steady s t) {c fuel : Nat} (hc : c < 512) : Steady s (t.flushRecords c fuel) := by
  induction fuel generalizing t with
  | zero => exact h
  | succ fuel ih =>
    unfold State.flushRecords
    split
    · exact h
    · exact .ite (fun _ => h) fun _ => ih (h.writeRecord hc).frame

theorem departure (h : Steady s t) {p : Pkt} {status : Nat} {stamp : Word} : Steady s (t.departure p status stamp) := by
  refine .ite (fun _ => h) fun hret => .ite (fun hring => .ite (fun _ => h) fun _ => ?_) fun _ =>
    .ite (fun _ => h.tokenOrDrop) fun _ => h
  exact (h.frame : Steady s (t.setChan _ _)).flushRecords (by omega)

theorem report (h : Steady s t) {l : Lost} : Steady s (t.report l) := by
  unfold State.report
  split
  · exact h
  · split
    · exact Steady.latch h.frame (by simp)
    · exact Steady.setFld h.frame (by simp)

theorem qmDrop (h : Steady s t) : Steady s (t.qmDrop 8) := (h.count (by simp)).pmcEvent.pmcEvent

theorem releaseCells (h : Steady s t) {q : Nat} {p : QPkt} : Steady s (t.releaseCells q p) := by
  have hslow : Steady s (if t.isSlow q then t.setSlowUsed p.pkt.dir (t.slowUsed p.pkt.dir - cellsOf p.pkt.bytes.length) else t) :=
    .ite (fun _ => h.frame) fun _ => h
  unfold State.releaseCells
  cases p.medium <;> exact hslow.frame

theorem refreshReads (h : Steady s t) {q : Nat} : Steady s (t.refreshReads q) := .ite (fun _ => h) fun _ => h.frame

theorem settle (h : Steady s t) {q : Nat} : Steady s (t.settle q) :=
  have hq : Steady s (if (t.queue q).joined.isEmpty then t.setNode q { t.node q with deficit := 0 } else t) :=
    .ite (fun _ => h.frame) fun _ => h
  .ite (fun _ => hq.frame) fun _ => hq

theorem removePkt (h : Steady s t) {q id : Nat} : Steady s (t.removePkt q id) := by
  unfold State.removePkt
  split
  · exact h
  · exact (h.releaseCells.frame : Steady s (State.setQueue _ _ _)).refreshReads.pmcEvent

/-! ### Bursts -/

theorem loseRest (h : Steady s t) {p : Pkt} : Steady s (t.loseRest p) := frameUbb (h.removePkt.settle.foldl fun _ _ h => h.frameUbb rfl) rfl

theorem pdisp (h : Steady s t) {code n : Nat} (hc : code < 16) : Steady s (t.pdisp code n) :=
  have hcount := h.setFld (not_permitReg_ubbPdispCount hc)
  .ite (fun _ => hcount.pmcEvent) fun _ => hcount

theorem bdisp (h : Steady s t) {code : Nat} (hc : code < 16) : Steady s (t.bdisp code) :=
  (h.count (not_permitReg_ubbBdispCount hc)).pmcEvent

theorem losePkt (h : Steady s t) {p : Pkt} {code : Nat} (hc : code < 16) : Steady s (t.losePkt p code) :=
  have hp := (h.loseRest.pdisp hc).departure
  .ite (fun _ => hp.report) fun _ => hp

theorem circCount (h : Steady s t) {c n : Nat} (hc : c < 16) : Steady s (t.circCount c n) :=
  have hcount := h.setFld (not_permitReg_circCount hc)
  .ite (fun _ => hcount.pmcEvent) fun _ => .ite (fun _ => hcount.pmcEvent) fun _ => .ite (fun _ => hcount.pmcEvent) fun _ => hcount

/-- What a burst carried is lost part by part: packets, containers, messages. -/
theorem loseContent (h : Steady s t) {b : Build} {code : Nat} (hc : code < 16) : Steady s (t.loseContent b code) := by
  refine h.foldl fun t x h => ?_
  have hpkt : Steady s (match x.pkt with | some p => t.losePkt p code | none => t) := by
    split
    · exact h.losePkt hc
    · exact h
  have hcont := hpkt.circCount (c := if code = 15 then 12 else 1) (n := 1) (by split <;> decide)
  dsimp only
  split <;> split
  · exact hcont.pdisp hc
  · exact hpkt.pdisp hc
  · exact hcont
  · exact hpkt

theorem stopPlane (h : Steady s t) : Steady s (t.stopPlane p) :=
  have hlane : Steady s ((t.setUplane p { t.uplane p with req := false, lag := none }).setLane p
      { (t.setUplane p { t.uplane p with req := false, lag := none }).lane p with fill := false }) := h.frameUbb rfl
  (hlane.setFld (by simp)).setFld (by simp)

theorem cutPlane (h : Steady s t) {code : Nat} (hc : code < 16) : Steady s (t.cutPlane p code) := by
  unfold State.cutPlane
  split
  · exact h
  · have hcut : Steady s (((t.stopPlane p).bdisp code).pmcEvent (0x10 + p) 2) := (h.stopPlane.bdisp hc).pmcEvent
    refine .ite (fun _ => ?_) fun _ => .loseContent ?_ (by decide)
    all_goals exact .ite (fun _ => hcut.frameUbb rfl) fun _ => hcut.frameUbb rfl

theorem haltPlane (h : Steady s t) : Steady s (t.haltPlane p 8) := (h.cutPlane (by decide)).stopPlane

/-! ### Parcels, packets and messages of the medium -/

theorem disp (h : Steady s t) {code n : Nat} (hc : code < 16) : Steady s (t.disp code n) :=
  have hevent := (h.count (not_permitReg_dfpDispCount hc)).pmcEvent
  .ite (fun _ => hevent.pmcEvent) fun _ => hevent

theorem noCell (h : Steady s t) {parts : List Parcel} {held : Nat} : Steady s (t.noCell parts held) := by
  have hfree : Steady s (t.freeCells .dn held) := h.frame
  unfold State.noCell
  cases parts
  case nil => exact hfree
  case cons => exact .ite (fun _ => (hfree.disp (by decide)).qmDrop.report) fun _ => hfree.disp (by decide)

theorem takeCells (h : Steady s t) {d : Dir} {inject : Bool} {n : Nat} (e : t.takeCells d inject n = some u) : Steady s u := by
  simp only [State.takeCells, Option.ite_none_left_eq_some, Option.ite_none_right_eq_some, Option.some.injEq] at e
  obtain ⟨_, _, rfl⟩ := e
  exact h.frame

theorem withCells (h : Steady s t) {parts : List Parcel} {held : Nat} {go : State → State}
    (hgo : ∀ t, Steady s t → Steady s (go t)) : Steady s (t.withCells parts held go) := by
  refine .ite (fun _ => hgo _ h.frame) fun _ => ?_
  split
  case h_1 e => exact hgo _ (h.takeCells e)
  case h_2 => exact h.noCell

theorem msgEnqueue (h : Steady s t) {m : Msg} : Steady s (t.msgEnqueue m).1 := by
  simp only [State.msgEnqueue, apply_ite Prod.fst]
  exact .ite (fun _ => h.setFld (by simp)) fun _ => .ite (fun _ => h.frame) fun _ => h.frame

theorem delivered (h : Steady s t) {plane parts n : Nat} : Steady s (t.delivered plane parts n) :=
  have hbytes := (h.disp (code := 0) (n := parts) (by decide)).pmcEvent (v := 0xF0) (code := 0x13) (n := n)
  .ite (fun _ => hbytes) fun _ => .ite (fun _ => hbytes.frame) fun _ => hbytes.frame

theorem handMessage (h : Steady s t) {parts : List Parcel} {last : Parcel} : Steady s (t.handMessage parts last) :=
  .ite (fun _ => .ite (fun _ => h.msgEnqueue.delivered) fun _ => h.msgEnqueue.disp (by decide))
    fun _ => (h.disp (by decide)).setFld (by simp)

theorem enterPipe (h : Steady s t) {p : Pkt} : Steady s (t.enterPipe p) :=
  (count (t := { t.setPipe _ _ _ with qm := _ }) h.frame (not_permitReg_pipePkts p.dir (Passes.pipeOf_lt p))).pmcEvent

theorem handPacket (h : Steady s t) {parts : List Parcel} : Steady s (t.handPacket parts) := by
  cases parts
  case nil => exact h
  case cons =>
    refine .ite (fun _ => ?_) fun _ => h.enterPipe.delivered
    exact (disp (t := t.freeCells _ _) h.frame (by decide)).setFld (not_permitReg_pipeDrop (Nat.mod_lt _ (by decide)))

theorem handOff (h : Steady s t) {parts : List Parcel} {last : Parcel} : Steady s (t.handOff parts last) :=
  .ite (fun _ => handMessage h.frame) fun _ => h.handPacket

theorem reasmFresh (h : Steady s t) {f own : Nat} {p : Parcel} : Steady s (t.reasmFresh f p own) := by
  unfold State.reasmFresh
  split
  · exact h.withCells fun _ h => h.handOff
  · exact h.withCells fun _ h => h.frame
  · exact disp h.frame (by decide)

theorem reassemble (h : Steady s t) {p : Parcel} {own : Nat} : Steady s (t.reassemble p own) := by
  have hempty : Steady s (t.setReasm (phFlow p.hdr) {}) := h.frame
  have hbroken : Steady s ((t.freeCells .dn (partCells (t.reasm (phFlow p.hdr)).parts)).disp 7 (t.reasm (phFlow p.hdr)).parts.length) :=
    disp h.frame (by decide)
  refine .ite (fun _ => h.reasmFresh) fun _ => .ite (fun _ => reasmFresh hbroken.frame) fun _ =>
    .ite (fun _ => disp hempty.frame (by decide)) fun _ => ?_
  exact hempty.withCells fun _ h => .ite (fun _ => h.frame) fun _ => h.handOff

theorem rsqDrain (h : Steady s t) {f exp : Nat} {l : List Parcel} : Steady s (t.rsqDrain f exp l) := by
  induction l generalizing t exp with
  | nil => exact h.frame
  | cons p l ih => exact .ite (fun _ => ih h.reassemble) fun _ => h.frame

theorem rsqFlush (h : Steady s t) : Steady s t.rsqFlush := by
  refine h.foldl fun t f h => ?_
  unfold State.rsqRelease
  dsimp only
  split
  · exact h
  · exact (h.disp (by decide)).rsqDrain

/-! ### Frames -/

theorem grantEntry (h : Steady s t) {p : Nat} {e : Word} : Steady s (t.grantEntry p e) :=
  have hacc : Steady s ((t.setDplane p _).count (R.dfpGrantsAcc p) F.dfpGrantsAcc_count) := (h.frame : Steady s (t.setDplane _ _)).setFld (by simp)
  .ite (fun _ => h) fun _ => .ite (fun _ => h.setFld (by simp)) fun _ => .ite (fun _ => hacc.bdisp (by decide)) fun _ => hacc.frameUbb rfl

theorem grantArea (h : Steady s t) : Steady s (t.grantArea p) :=
  have hdone : Steady s (t.setDplane p { t.dplane p with grantsDone := true }) := h.frame
  .ite (fun _ => h) fun _ => .ite (fun _ => (hdone.setFld (by simp)).latch (by simp)) fun _ => hdone.foldl fun _ _ h => h.grantEntry

theorem msgStop (h : Steady s t) {p : Nat} : Steady s (t.msgStop p) := (h.frame : Steady s (t.setDplane _ _)).setFld (by simp)

theorem routeMsg (h : Steady s t) {m : Msg} : Steady s (t.routeMsg m) := by
  have hrouted : ∀ {u}, Steady s u → Steady s (u.msgRouted m.plane) := fun h => h.setFld (by simp)
  have hdeliver : Steady s (t.deliver m) := h.frame
  have henq := (Steady.ite (c := decide (m.body.length < (if msgType m = 0x0E then 8 else 16)) = true) (fun _ => h) fun _ => hdeliver).msgEnqueue (m := m)
  refine .ite (fun _ => .ite (fun _ => h.setFld (by simp)) fun _ => hrouted hdeliver) fun _ =>
    .ite (fun _ => ?_) fun _ => .ite (fun _ => ?_) fun _ => h.setFld (by simp)
  · exact .ite (fun _ => henq) fun _ => hrouted henq
  · exact .ite (fun _ => hrouted h.msgEnqueue) fun _ => h.msgEnqueue

theorem messageRx (h : Steady s t) : Steady s (t.messageRx p) := by
  have hover := (h.latch (a := R.dfpPlaneDefect p) (f := F.dfpPlaneDefect_msgOverrun) (by simp)).msgStop (p := p)
  refine .ite (fun _ => h) fun _ => .ite (fun _ => hover) fun _ => .ite (fun _ => h) fun _ => .ite (fun _ => h.msgStop) fun _ =>
    .ite (fun _ => hover) fun _ => .ite (fun _ => h) fun _ => .ite (fun _ => h.msgStop) fun _ => ?_
  exact .ite (fun _ => routeMsg h.frame) fun _ => h.frame

theorem passOver (h : Steady s t) {p to_ : Nat} : Steady s (t.passOver p to_) := (h.setFld (by simp)).frame

theorem beginHunt (h : Steady s t) {p from_ : Nat} : Steady s (t.beginHunt p from_) :=
  .ite (fun _ => h.passOver) fun _ => (h.setFld (by simp)).frame

theorem parcelRead (h : Steady s t) {p : Nat} {hdr : BitVec 128} {payload : List Byte} {tag : BitVec 128} :
    Steady s (t.parcelRead p hdr payload tag) := by
  have hread : Steady s (t.pmcEvent 0xF0 1) := h.pmcEvent
  have hcount : Steady s (if phType hdr = 0 then t.pmcEvent 0xF0 1 else
      ((t.pmcEvent 0xF0 1).count (R.dfpParcels p) F.dfpParcels_count).count (R.dfpParcelBytes p) F.dfpParcelBytes_count (phLength hdr)) :=
    .ite (fun _ => hread) fun _ => (hread.setFld (by simp)).setFld (by simp)
  refine .ite (fun _ => (hcount.disp (by decide)).frame) fun _ => .ite (fun _ => disp hcount.frame (by decide)) fun _ =>
    .ite (fun _ => disp hcount.frame (by decide)) fun _ => .ite (fun _ => disp hcount.frame (by decide)) fun _ => ?_
  exact .ite (fun _ => disp hcount.frame (by decide)) fun _ => hcount.frame

theorem parcelRx (h : Steady s t) {p : Nat} : Steady s (t.parcelRx p) := by
  refine .ite (fun _ => h) fun _ => .ite (fun _ => h.frame) fun _ => .ite (fun _ => ?hunting) fun _ => ?reading
  case hunting =>
    refine .ite (fun _ => h.passOver) fun _ => .ite (fun _ => .ite (fun _ => h) fun _ => h.parcelRead) fun _ => .ite (fun _ => h) fun _ => ?_
    exact .ite (fun _ => h.parcelRead) fun _ => h.passOver
  case reading =>
    refine .ite (fun _ => h.beginHunt) fun _ => .ite (fun _ => (h.disp (by decide)).beginHunt) fun _ => ?_
    exact .ite (fun _ => h) fun _ => h.parcelRead

theorem drainParcels (h : Steady s t) {p fuel : Nat} : Steady s (t.drainParcels p fuel) := by
  induction fuel generalizing t with
  | zero => exact h
  | succ fuel ih => exact .ite (fun _ => h) fun _ => ih h.parcelRx

theorem drainFrame (h : Steady s t) : Steady s (t.drainFrame p) :=
  frame (drainParcels (h.grantArea.foldl fun _ _ h => h.messageRx))

/-! ### Lanes -/

theorem setRate (h : Steady s t) {rate : Nat} : Steady s (t.setRate p rate) := .ite (fun _ => h) fun _ => (h.setFld (by simp)).frame

theorem huntRestart (h : Steady s t) : Steady s (t.huntRestart p) := by
  have hset : Steady s (t.huntSet p) := setBit (frame (h.setRate (p := p))) (by simp)
  rw [huntRestart_eq]
  exact .ite (fun _ => hset.haltPlane) fun _ => hset

theorem retime (h : Steady s t) {b : Bool} : Steady s (t.retime b) := by
  have hubb : (t.retime b).ubb = t.ubb := by
    have hcode : ∀ (t : State) c, (t.setCode c).ubb = t.ubb := fun t c => by unfold State.setCode; split <;> rfl
    have hswitch : ∀ (t : State) p, (t.switchTiming p).ubb = t.ubb := fun _ _ => rfl
    simp only [State.retime]
    split
    · rfl
    · split <;> simp only [setBit_ubb, apply_ite State.ubb, hcode, hswitch, ite_self]
  exact h.trans (of_changes (Changes.refl.retime (W := fun a _ => unitOf a = 5) fun _ _ h => h) (fun _ _ => not_permitReg_of_time)
    (retime_enrol t b) hubb)

theorem toSearch (h : Steady s t) : Steady s (t.toSearch p) := by
  have hflush : ∀ u, Steady s u → Steady s (if u.bit R.dfpCfg F.dfpCfg_flushOnLof then u.rsqFlush else u) := fun u hu =>
    .ite (fun _ => hu.rsqFlush) fun _ => hu
  have hlost : ∀ {f g k : Fld} {v w y : Nat}, Steady s (((t.setFld (R.dfpPlaneStatus p) f v).setFld (R.dfpPlaneStatus p) g w).setFld
      (R.dfpPlaneStatus p) k y) := ((h.setFld (by simp)).setFld (by simp)).setFld (by simp)
  exact .ite (fun _ => retime (huntRestart (hflush _ (latch (frame (frame hlost)) (by simp)))))
    fun _ => .ite (fun _ => frame (h.setFld (by simp)).setRate) fun _ => h.setFld (by simp)

theorem abandonFrame (h : Steady s t) : Steady s (t.abandonFrame p) := (drainFrame h.frame).toSearch

theorem laneUp (h : Steady s t) : Steady s (t.laneUp p) :=
  have hhunt : Steady s (t.laneHunts p) := (h.setBit (not_permitReg_medLaneCfg p)).huntRestart
  have hup : Steady s (((t.laneHunts p).setLane p { (t.laneHunts p).lane p with
      good := 0, dwellOver := false, losWin := (t.laneHunts p).bit (R.medLaneStatus p) F.medLaneStatus_los, rateWin := false }).setBit
        (R.medLaneStatus p) F.medLaneStatus_txIdle _) := (hhunt.frame : Steady s (State.setLane _ _ _)).setBit (by simp)
  .ite (fun _ => hup.setPlaneState) fun _ => hup

theorem modeChanged (h : Steady s t) : Steady s (t.modeChanged p) :=
  .ite (fun _ => .ite (fun _ => h.setFld (by simp)) fun _ => h.abandonFrame.huntRestart)
    fun _ => .ite (fun _ => h.setFld (by simp)) fun _ => (h.setFld (by simp)).setRate.abandonFrame

theorem setMode (h : Steady s t) {m : Nat} : Steady s (t.setMode p m) :=
  .ite (fun _ => (h.setFld (not_permitReg_medLaneCfg p)).modeChanged) fun _ => h.setFld (not_permitReg_medLaneCfg p)

/-- The lane of a plane stops, before its plane is released. -/
theorem laneStopped (h : Steady s t) : Steady s (t.laneStopped p) :=
  abandonFrame ((((h.setBit (not_permitReg_medLaneCfg p)).haltPlane).setFld (by simp)).setBit (by simp))

end Steady
end Sys2Proof.Machine
end

section
/-!
SUPPORT. What a lane's start and stop leave of other lanes, of the terminal's registers and of PERMIT and EQD (R163, R165); O22 is settled here.
-/

namespace Sys2Proof.Machine

variable {s t : State} {p q : Plane}

/-! ## The registers of a lane's operations -/

/-- The registers of the data path, of a lane and of the planes' states. -/
def LaneReg (p a : Nat) : Prop :=
  PathReg a ∨ a ∈ [R.medLaneCfg p, R.medLaneStatus p, R.dfpPlaneStatus p, R.sysPlaneState0, R.sysPlaneState1]

theorem laneReg_cfg (p : Nat) : LaneReg p (R.medLaneCfg p) := .inr (.head _)
theorem laneReg_status (p : Nat) : LaneReg p (R.medLaneStatus p) := .inr (.tail _ (.head _))

theorem laneReg_of_planeState {a p : Nat} (h : a ∈ [R.sysPlaneState0, R.sysPlaneState1]) : LaneReg p a :=
  .inr (.tail _ (.tail _ (.tail _ h)))

theorem laneReg_of_searched {a p : Nat} {f : Fld} (h : (a, f) ∈ searchFields p) : LaneReg p a := by
  simp only [searchFields, huntFields, driverFields, List.mem_cons, Prod.mk.injEq, List.not_mem_nil, or_false] at h
  simp only [LaneReg, List.mem_cons]
  tauto

/-- LANE_CFG is of its own lane alone. -/
theorem not_laneReg_cfg (h : q ≠ p) : ¬LaneReg q (R.medLaneCfg p) := by
  have hne : p.val ≠ q.val := fun he => h (Fin.ext he.symm)
  have hp := p.isLt
  have hpath := not_pathReg_medLaneCfg p
  simp only [LaneReg, hpath, false_or, List.mem_cons, List.not_mem_nil, or_false, R.medLaneCfg, R.medLaneStatus, R.dfpPlaneStatus,
    R.sysPlaneState0, R.sysPlaneState1]
  omega

/-- The registers of the terminal and the ward's copies of EQD are of no lane. -/
theorem not_laneReg_of_term {a p : Nat} (h : a ∈ [R.sysTermState, R.sysEnrolCounts, R.dfpIdent] ∨ ∃ q : Plane, a = R.wardPlaneEqd q) :
    ¬LaneReg p a := by
  rcases h with h | ⟨q, rfl⟩
  · simp only [List.mem_cons, List.not_mem_nil, or_false] at h
    rcases h with rfl | rfl | rfl <;> simp only [LaneReg, PathReg, unitOf, offOf, List.mem_cons, List.not_mem_nil, or_false, R.sysTermState,
      R.sysEnrolCounts, R.dfpIdent, R.medLaneCfg, R.medLaneStatus, R.dfpPlaneStatus, R.sysPlaneState0, R.sysPlaneState1] <;> omega
  · have := q.isLt
    simp only [LaneReg, PathReg, unitOf, offOf, List.mem_cons, List.not_mem_nil, or_false, R.wardPlaneEqd, R.medLaneCfg, R.medLaneStatus,
      R.dfpPlaneStatus, R.sysPlaneState0, R.sysPlaneState1]
    omega

theorem Moves.laneChanges (h : Moves (searchFields p) s t) : Changes (fun a _ => LaneReg p a) s t :=
  h.changes.mono fun _ _ hf => hf.elim .inl laneReg_of_searched

/-! ## GEN_MODE -/

theorem moves_modeChanged (s : State) (p : Plane) : Moves (searchFields p) s (s.modeChanged p) := by
  have hhunting : ∀ b, Moves (searchFields p) s (s.setBit (R.medLaneStatus p) F.medLaneStatus_hunting b) := fun b =>
    Moves.refl.setBit (by simp [searchFields, huntFields])
  refine .ite (fun _ => .ite (fun _ => hhunting _) fun _ => ?_) fun _ => .ite (fun _ => hhunting _) fun _ => ?_
  · exact (Moves.refl.abandonFrame (List.Subset.refl _)).huntRestart (huntFields_subset p)
  · exact ((hhunting false).setRate (by simp [searchFields, huntFields])).abandonFrame (List.Subset.refl _)

theorem changes_setMode (s : State) (p : Plane) (m : Nat) : Changes (fun a _ => LaneReg p a) s (s.setMode p m) := by
  have hset : Changes (fun a _ => LaneReg p a) s (s.setFld (R.medLaneCfg p) F.medLaneCfg_genMode m) := Changes.refl.setFld (laneReg_cfg p)
  exact .ite (fun _ => hset.trans (moves_modeChanged _ p).laneChanges) fun _ => hset

theorem genMode_setMode (s : State) (p : Plane) {m : Nat} (h : m < 4) :
    (s.setMode p m).fld (R.medLaneCfg p) F.medLaneCfg_genMode = m := by
  have hset : (s.setFld (R.medLaneCfg p) F.medLaneCfg_genMode m).fld (R.medLaneCfg p) F.medLaneCfg_genMode = m :=
    (fld_setFld_same _ _ _ _ (by decide) (by decide)).trans (Nat.mod_eq_of_lt h)
  unfold State.setMode
  dsimp only
  split
  · rw [State.fld, cfg_modeChanged]
    exact hset
  · exact hset

/-! ## LANE_EN -/

theorem changes_laneUp_lane (s : State) (p : Plane) : Changes (fun a _ => LaneReg p a) s (s.laneUp p) := by
  have hen : Changes (fun a _ => LaneReg p a) s (s.setBit (R.medLaneCfg p) F.medLaneCfg_laneEn true) := Changes.refl.setBit (laneReg_cfg p)
  have hhunt : Moves (searchFields p) (s.setBit (R.medLaneCfg p) F.medLaneCfg_laneEn true) (s.laneHunts p) :=
    Moves.refl.huntRestart (huntFields_subset p)
  refine (hen.trans hhunt.laneChanges).trans ((changes_laneUp s p).mono ?_)
  rintro a f (hf | hf)
  · cases hf
    exact laneReg_status p
  · exact laneReg_of_planeState hf

theorem changes_laneStopped (s : State) (p : Plane) : Changes (fun a _ => LaneReg p a) s (s.laneStopped p) := by
  have hen : Changes (fun a _ => LaneReg p a) s (s.setBit (R.medLaneCfg p) F.medLaneCfg_laneEn false) := Changes.refl.setBit (laneReg_cfg p)
  have hhalt : Moves (searchFields p) (s.setBit (R.medLaneCfg p) F.medLaneCfg_laneEn false)
      ((s.setBit (R.medLaneCfg p) F.medLaneCfg_laneEn false).haltPlane p 8) :=
    Moves.refl.haltPlane fun _ hf => huntFields_subset p (driverFields_subset p hf)
  have hstops : Changes (fun a _ => LaneReg p a) s (s.laneStops p) :=
    ((hen.trans hhalt.laneChanges).setFld (laneReg_status p)).setBit (laneReg_status p)
  exact hstops.trans (Moves.refl.abandonFrame (List.Subset.refl (searchFields p))).laneChanges

theorem changes_laneDown_lane (s : State) (p : Plane) : Changes (fun a _ => LaneReg p a ∨ TermReg a) s (s.laneDown p) :=
  ((changes_laneStopped s p).mono fun _ _ => .inl).trans ((changes_laneDown s p).mono fun _ _ hf => hf.symm.imp_left laneReg_of_planeState)

/-- LANE_EN of a lane leaves LANE_CFG of another. -/
theorem cfg_laneDown_other (s : State) (h : q ≠ p) : (s.laneDown q).reg (R.medLaneCfg p) = s.reg (R.medLaneCfg p) :=
  (changes_laneDown_lane s q).reg fun _ hf => hf.elim (not_laneReg_cfg h) (not_termReg_medLaneCfg p)

theorem cfg_laneUp_other (s : State) (h : q ≠ p) : (s.laneUp q).reg (R.medLaneCfg p) = s.reg (R.medLaneCfg p) :=
  (changes_laneUp_lane s q).reg fun _ => not_laneReg_cfg h

theorem laneEnable_same {b : Bool} (h : s.bit (R.medLaneCfg p) F.medLaneCfg_laneEn = b) : s.laneEnable p b = s := if_pos h

/-- A fold whose steps change nothing. -/
theorem foldl_idle {α : Type} {f : State → α → State} {l : List α} (h : ∀ x ∈ l, f s x = s) : l.foldl f s = s :=
  List.foldlRecOn (motive := fun t => t = s) l f rfl fun t ht x hx => by rw [ht, h x hx]

theorem laneEn_congr (h : t.reg (R.medLaneCfg p) = s.reg (R.medLaneCfg p)) :
    t.bit (R.medLaneCfg p) F.medLaneCfg_laneEn = s.bit (R.medLaneCfg p) F.medLaneCfg_laneEn := by
  rw [State.bit, State.bit, State.fld, State.fld, h]

/-! ## START -/

/-- One lane as START takes it: where its domain has power it is enabled, and hunts. -/
def State.laneStart (s : State) (p : Nat) : State := if s.domOn (11 + p / 4) then (s.setMode p 2).laneEnable p true else s

/-- What START does before the lanes start. -/
def State.startSet (s : State) : State :=
  State.setFld (State.writeFlowZero (State.setReg { s with enrol := { s.enrol with startWaiting := false } } (R.dfpMsgAccept 0)
    (s.reg (R.dfpMsgAccept 0) ||| BitVec.ofNat 64 acceptMask))) R.sysTermState F.sysTermState_stopCause 0

theorem startTerm_eq (s : State) : s.startTerm = ((List.range 24).foldl State.laneStart s.startSet).toListening := rfl

theorem steady_laneStart (s : State) (p : Plane) : Steady s (s.laneStart p) :=
  .ite (fun _ => .ite (fun _ => Steady.refl.setMode) fun _ => Steady.refl.setMode.laneUp) fun _ => .refl

theorem keepsPwr_laneStart (s : State) (p : Nat) : KeepsPwr s (s.laneStart p) := .ite KeepsPwr.refl.setMode.laneEnable_true .refl

theorem cfg_laneStart_other (s : State) (h : q ≠ p) : (s.laneStart q).reg (R.medLaneCfg p) = s.reg (R.medLaneCfg p) := by
  have hmode : (s.setMode q 2).reg (R.medLaneCfg p) = s.reg (R.medLaneCfg p) := (changes_setMode s q 2).reg fun _ => not_laneReg_cfg h
  unfold State.laneStart State.laneEnable
  split
  · split
    · exact hmode
    · exact (cfg_laneUp_other _ h).trans hmode
  · rfl

theorem domOn_keepsPwr (h : KeepsPwr s t) {d : Nat} (hd : d < 0x100) : t.domOn d = s.domOn d := by
  rw [State.domOn, State.domOn, State.fld, State.fld, h _ (by simp only [unitOf, R.pwrDom]; omega)]

/-- A powered lane is enabled and hunts once START has taken every lane. -/
theorem lanes_started (s : State) (p : Plane) (h : s.domOn (11 + p / 4) = true) :
    ((List.range 24).foldl State.laneStart s).bit (R.medLaneCfg p) F.medLaneCfg_laneEn = true ∧
      ((List.range 24).foldl State.laneStart s).fld (R.medLaneCfg p) F.medLaneCfg_genMode = 2 := by
  obtain ⟨u, ⟨hbefore, -⟩, -, hafter⟩ := foldl_between
    (O := fun s t : State => KeepsPwr s t ∧ t.reg (R.medLaneCfg p) = s.reg (R.medLaneCfg p)) (f := State.laneStart)
    (fun _ => ⟨.refl, rfl⟩) (fun h h' => ⟨fun a ha => (h'.1 a ha).trans (h.1 a ha), h'.2.trans h.2⟩) List.nodup_range (mem_planes p)
    (fun b q hq hne => ⟨keepsPwr_laneStart b q, cfg_laneStart_other (q := ⟨q, List.mem_range.1 hq⟩) b fun he => hne (congrArg Fin.val he)⟩) s
  have hon : u.domOn (11 + p / 4) = true := (domOn_keepsPwr hbefore (by omega)).trans h
  obtain ⟨hen, hfields⟩ := cfg_laneEnable (u.setMode p 2) p true
  have hown : u.laneStart p = (u.setMode p 2).laneEnable p true := if_pos hon
  rw [hown] at hafter
  exact ⟨(laneEn_congr hafter).trans hen,
    (congrArg (fun w : Word => bitsOf w.toNat _ _) hafter).trans ((hfields _ (by decide)).trans (genMode_setMode u p (by decide)))⟩

theorem enrol_startSet (s : State) : s.startSet.enrol = { s.enrol with startWaiting := false } := rfl

theorem ubb_startSet (s : State) : s.startSet.ubb = s.writeFlowZero.ubb := rfl

theorem changes_startSet (s : State) : Changes (fun a _ => a ∈ [R.sysTermState, R.dfpMsgAccept 0]) s s.startSet :=
  Changes.setFld (Changes.frame (Changes.setReg (Changes.frame .refl) (.tail _ (.head _)))) (.head _)

theorem toListening_enrol (s : State) : s.toListening.enrol.tAlign = true ∧ s.toListening.enrol.startWaiting = s.enrol.startWaiting := ⟨rfl, rfl⟩

theorem toListening_ubb (s : State) : s.toListening.ubb = s.ubb := rfl

theorem changes_toListening (s : State) : Changes (fun a _ => a = R.sysTermState) s s.toListening :=
  Changes.frame ((Changes.refl (s := s)).setTerm fun _ _ => rfl)

theorem steady_lanesStarted (s : State) : Steady s ((List.range 24).foldl State.laneStart s) :=
  List.foldlRecOn (motive := Steady s) _ _ .refl fun t ht q hq => ht.trans (steady_laneStart t ⟨q, List.mem_range.1 hq⟩)

theorem lanesStarted_dark (h : ∀ q, q < 24 → s.domOn (11 + q / 4) = false) : (List.range 24).foldl State.laneStart s = s :=
  foldl_idle fun q hq => if_neg (by rw [h q (List.mem_range.1 hq)]; decide)

theorem flow_startSet (s : State) : (s.startSet.flow 0).toNat = 2 ^ 39 + 4095 * 2 ^ 20 + flowSeq (s.flow 0) := by
  have hseq : flowSeq (s.flow 0) < 2 ^ 16 := bitsOf_lt _ _ _
  have hflow : s.startSet.flow 0 = BitVec.ofNat 40 (2 ^ 39 + 4095 * 2 ^ 20 + flowSeq (s.flow 0)) :=
    (by rw [State.flow, State.flow, ubb_startSet] : s.startSet.flow 0 = s.writeFlowZero.flow 0).trans (flow_setFlow_same ..)
  rw [hflow, BitVec.toNat_ofNat]
  omega

theorem hostStart_listens (hstart : s.startable = true) (hready : s.startReady = true) :
    ∃ t : State, exec .hostStart s = .next t ∧ t.under = 1 ∧ t.enrol.tAlign = true ∧ t.enrol.startWaiting = false ∧
      (t.flow 0).toNat = 2 ^ 39 + 4095 * 2 ^ 20 + flowSeq (s.flow 0) ∧
      (∀ q : Plane, s.domOn (11 + q / 4) = true → t.bit (R.medLaneCfg q) F.medLaneCfg_laneEn = true ∧
        t.fld (R.medLaneCfg q) F.medLaneCfg_genMode = 2) ∧
      ((∀ q, q < 24 → s.domOn (11 + q / 4) = false) → memKept s t ∧ regsKept s t [R.sysTermState, R.dfpMsgAccept 0]) := by
  have hexec : exec .hostStart s = .next ((List.range 24).foldl State.laneStart s.startSet).toListening :=
    congrArg Host.Outcome.next ((if_neg (by rw [hstart]; decide)).trans ((if_pos hready).trans (startTerm_eq s)))
  have hset := changes_startSet s
  have hpower : ∀ d < 0x100, s.startSet.domOn d = s.domOn d := fun d hd => domOn_keepsPwr (fun a ha => hset.reg fun _ hf => by
    simp only [List.mem_cons, List.not_mem_nil, or_false] at hf
    rcases hf with rfl | rfl <;> exact absurd ha (by decide)) hd
  obtain ⟨henrol, hflows, -⟩ := steady_lanesStarted s.startSet
  have hdark := fun h => lanesStarted_dark (s := s.startSet) h
  have hlanes := lanes_started s.startSet
  have hflow := flow_startSet s
  have hwaits : s.startSet.enrol.startWaiting = false := congrArg (·.startWaiting) (enrol_startSet s)
  generalize s.startSet = v at *
  generalize (List.range 24).foldl State.laneStart v = u at *
  obtain ⟨hrunning, hwaiting⟩ := toListening_enrol u
  have hcfg : ∀ q : Plane, u.toListening.reg (R.medLaneCfg q) = u.reg (R.medLaneCfg q) := fun q =>
    (changes_toListening u).reg fun _ h => absurd h (by simp only [R.medLaneCfg, R.sysTermState]; omega)
  refine ⟨u.toListening, hexec, under_toListening u, hrunning, hwaiting.trans ((congrArg (·.startWaiting) henrol).trans hwaits), ?_,
    fun q hq => ?_, fun hoff => ?_⟩
  · rw [State.flow, toListening_ubb, hflows]
    exact hflow
  · obtain ⟨hen, hmode⟩ := hlanes q ((hpower _ (by omega)).trans hq)
    exact ⟨(laneEn_congr (hcfg q)).trans hen, (congrArg (fun w : Word => bitsOf w.toNat _ _) (hcfg q)).trans hmode⟩
  · have hall := hset.trans (((hdark fun q hq => (hpower _ (by omega)).trans (hoff q hq)) ▸ changes_toListening u :
      Changes (fun a _ => a = R.sysTermState) v u.toListening).mono fun a _ ha => by rw [ha]; exact .head _)
    exact ⟨hall.memKept, hall.regsKept⟩

theorem hostStart_waits (hstart : s.startable = true) (hready : s.startReady = false) :
    ∃ t : State, exec .hostStart s = .next t ∧ t.enrol.startWaiting = true ∧ t.under = s.under ∧ memKept s t ∧ regsKept s t [] := by
  have hexec : exec .hostStart s = .next { s with enrol := { s.enrol with startWaiting := true } } :=
    congrArg Host.Outcome.next ((if_neg (by rw [hstart]; decide)).trans (if_neg (by rw [hready]; decide)))
  have hframe : Changes (fun a _ => a ∈ ([] : List Nat)) s { s with enrol := { s.enrol with startWaiting := true } } := Changes.frame .refl
  exact ⟨_, hexec, rfl, hframe.fld fun _ h => absurd h List.not_mem_nil, hframe.memKept, hframe.regsKept⟩

/-! ## STOP -/

theorem Stopped.congr {cause : Nat} (h : Stopped s cause) (hterm : t.reg R.sysTermState = s.reg R.sysTermState)
    (hident : t.reg R.dfpIdent = s.reg R.dfpIdent) : Stopped t cause := by
  obtain ⟨hstate, hunder, hcause, htid⟩ := h
  have hfld : ∀ f, t.fld R.sysTermState f = s.fld R.sysTermState f := fun f => by rw [State.fld, State.fld, hterm]
  exact ⟨(hfld _).trans hstate, (hfld _).trans hunder, (hfld _).trans hcause, (by rw [State.fld, hident]; exact htid)⟩

theorem Stopped.laneStopped {cause : Nat} (h : Stopped s cause) (p : Plane) : Stopped (s.laneStopped p) cause :=
  h.congr ((changes_laneStopped s p).reg fun _ => not_laneReg_of_term (.inl (.head _)))
    ((changes_laneStopped s p).reg fun _ => not_laneReg_of_term (.inl (.tail _ (.tail _ (.head _)))))

theorem Stopped.releaseTo {cause st : Nat} (h : Stopped s cause) (p : Plane) : Stopped (s.releaseTo p st) cause := by
  have hrelease : Changes (PlaneOp p) s (s.releaseTo p st) := Changes.refl.releaseTo fun _ _ => id
  exact h.congr (hrelease.reg fun _ => not_planeOp_of_termOnly p.isLt (by decide) _) (hrelease.reg fun _ => not_planeOp_of_termOnly p.isLt (by decide) _)

/-- In STOPPED the terminal takes no step when a lane stops. -/
theorem Stopped.laneDown_eq {cause : Nat} (h : Stopped s cause) (p : Plane) :
    s.laneDown p = s.laneStopped p ∨ s.laneDown p = (s.laneStopped p).releaseTo p 0 := by
  have hreleased : Stopped ((s.laneStopped p).releaseTo p 0) cause := (h.laneStopped p).releaseTo p
  rcases laneDown_cases s p with ⟨-, heq⟩ | heq | heq
  · exact .inl heq
  · exact .inr heq
  · exact .inr (heq.trans (termStep_stopped hreleased.under))

theorem Steady.deniedAt (h : Steady s t) (hward : t.reg (R.wardPlaneEqd p) = s.reg (R.wardPlaneEqd p)) (hs : s.deniedAt p) : t.deniedAt p := by
  obtain ⟨hpermit, hubb, heqd⟩ := hs
  refine ⟨?_, ?_, ?_⟩
  · rw [State.fld, h.reg _ (permitReg_ubbPlaneCtl p)]
    exact hpermit
  · rw [State.fld, h.reg _ (permitReg_ubbPlaneEqd p)]
    exact hubb
  · rw [State.fld, hward]
    exact heqd

theorem deniedAt_laneStopped (q : Plane) (h : s.deniedAt p) : (s.laneStopped q).deniedAt p :=
  Steady.refl.laneStopped.deniedAt ((changes_laneStopped s q).reg fun _ => not_laneReg_of_term (.inr ⟨p, rfl⟩)) h

theorem deniedAt_releaseTo (q : Plane) (h : s.deniedAt p) : (s.releaseTo q 0).deniedAt p := by
  by_cases hne : q = p
  · subst hne
    obtain ⟨-, hpermit, hubb, hward, -⟩ := releasedAt_releaseTo s q (st := 0) (by decide)
    exact ⟨hpermit, hubb, hward⟩
  · exact (Beside.refl.releaseTo q.isLt fun he => hne (Fin.ext he)).deniedAt h

/-- STOPPED, with no permission on any plane. -/
structure AllStopped (s : State) : Prop where
  stopped : Stopped s 1
  denied : ∀ p : Plane, s.deniedAt p

theorem AllStopped.laneEnable (h : AllStopped s) (p : Plane) : AllStopped (s.laneEnable p false) := by
  obtain ⟨hstopped, hdenied⟩ := h
  unfold State.laneEnable
  split
  case isTrue => exact ⟨hstopped, hdenied⟩
  case isFalse =>
    have hlane : AllStopped (s.laneStopped p) := ⟨hstopped.laneStopped p, fun q => deniedAt_laneStopped p (hdenied q)⟩
    obtain ⟨hlane', hlanes⟩ := hlane
    rcases hstopped.laneDown_eq p with heq | heq
    · exact (heq ▸ ⟨hlane', hlanes⟩ : AllStopped (s.laneDown p))
    · exact (heq ▸ ⟨hlane'.releaseTo p, fun q => deniedAt_releaseTo p (hlanes q)⟩ : AllStopped (s.laneDown p))

theorem cfg_laneEnable_other (s : State) {b : Bool} (h : q ≠ p) : (s.laneEnable q b).reg (R.medLaneCfg p) = s.reg (R.medLaneCfg p) := by
  unfold State.laneEnable
  cases b
  · split
    · rfl
    · exact cfg_laneDown_other s h
  · split
    · rfl
    · exact cfg_laneUp_other s h

/-- Every lane disabled in turn. -/
def State.lanesOff (s : State) : State := (List.range 24).foldl (fun s p => s.laneEnable p false) s

theorem laneEn_lanesOff (s : State) (p : Plane) : s.lanesOff.bit (R.medLaneCfg p) F.medLaneCfg_laneEn = false := by
  obtain ⟨u, -, hafter⟩ := foldl_between (O := fun s t : State => t.reg (R.medLaneCfg p) = s.reg (R.medLaneCfg p))
    (f := fun s q => State.laneEnable s q false) (fun _ => rfl) (fun h h' => h'.trans h) List.nodup_range (mem_planes p)
    (fun b q hq hne => cfg_laneEnable_other (q := ⟨q, List.mem_range.1 hq⟩) b fun he => hne (congrArg Fin.val he)) s
  exact (laneEn_congr hafter).trans (cfg_laneEnable u p false).1

theorem AllStopped.lanesOff (h : AllStopped s) : AllStopped s.lanesOff :=
  List.foldlRecOn (motive := AllStopped) _ _ h fun _ ht q hq => ht.laneEnable ⟨q, List.mem_range.1 hq⟩

theorem hostStop_stops (h : s.termState ≠ 8) :
    ∃ t : State, exec .hostStop s = .next t ∧ t.termState = 8 ∧ t.under = 8 ∧ t.fld R.sysTermState F.sysTermState_stopCause = 1 ∧
      t.fld R.dfpIdent F.dfpIdent_tid = 0x3FE ∧ (∀ q : Plane, t.fld (R.ubbPlaneCtl q) F.ubbPlaneCtl_permit = 0 ∧
        t.fld (R.ubbPlaneEqd q) F.ubbPlaneEqd_eqd = 0 ∧ t.fld (R.wardPlaneEqd q) F.wardPlaneEqd_eqd = 0 ∧
        t.bit (R.medLaneCfg q) F.medLaneCfg_laneEn = false) ∧
      ((∀ q : Plane, s.bit (R.medLaneCfg q) F.medLaneCfg_laneEn = false) → memKept s t) := by
  have hexec : exec .hostStop s = .next (s.stopTerm 1).lanesOff := congrArg Host.Outcome.next (if_neg h)
  have hall : AllStopped (s.stopTerm 1) := ⟨stopped_stopTerm s (by decide), deniedAt_stopTerm s 1⟩
  obtain ⟨⟨hterm, hunder, hcause, htid⟩, hdenied⟩ := hall.lanesOff
  refine ⟨_, hexec, hterm, hunder, hcause, htid, fun q => ?_, fun hoff => ?_⟩
  · obtain ⟨hpermit, hubb, hward⟩ := hdenied q
    exact ⟨hpermit, hubb, hward, laneEn_lanesOff _ q⟩
  · have hidle : (s.stopTerm 1).lanesOff = s.stopTerm 1 := foldl_idle fun q hq => laneEnable_same (p := ⟨q, List.mem_range.1 hq⟩)
      ((laneEn_congr ((base_stopTerm s 1).reg (not_baseFld_medLaneCfg _))).trans (hoff _))
    rw [hidle]
    exact (base_stopTerm s 1).memKept

/-! ## T_ALIGN -/

/-- An enabled lane starts anew (R163). -/
def State.laneAnew (s : State) (p : Nat) : State := if s.bit (R.medLaneCfg p) F.medLaneCfg_laneEn then (s.laneDown p).laneUp p else s

/-- Lanes that start anew keep LANE_EN, and the counters of the enrolment. -/
theorem laneAnew_keeps (s : State) (q : Plane) : (s.laneAnew q).reg R.sysEnrolCounts = s.reg R.sysEnrolCounts ∧
    ∀ p : Plane, (s.laneAnew q).bit (R.medLaneCfg p) F.medLaneCfg_laneEn = s.bit (R.medLaneCfg p) F.medLaneCfg_laneEn := by
  have hterm : ¬TermReg R.sysEnrolCounts := by unfold TermReg PathReg; decide
  have hlane : ¬LaneReg q R.sysEnrolCounts := not_laneReg_of_term (.inl (.tail _ (.head _)))
  unfold State.laneAnew
  split
  case isFalse => exact ⟨rfl, fun _ => rfl⟩
  case isTrue hen =>
    refine ⟨((changes_laneUp_lane _ q).reg fun _ => hlane).trans ((changes_laneDown_lane s q).reg fun _ hf => hf.elim hlane hterm), fun p => ?_⟩
    by_cases hp : q = p
    · subst hp
      rw [hen, State.bit, State.fld, cfg_laneUp]
      exact bit_setBit_same _ _ _ _ rfl (by decide)
    · exact laneEn_congr ((cfg_laneUp_other _ hp).trans (cfg_laneDown_other s hp))

theorem lanesAnew_keep (s : State) : ((List.range 24).foldl State.laneAnew s).reg R.sysEnrolCounts = s.reg R.sysEnrolCounts ∧
    ∀ p : Plane, ((List.range 24).foldl State.laneAnew s).bit (R.medLaneCfg p) F.medLaneCfg_laneEn =
      s.bit (R.medLaneCfg p) F.medLaneCfg_laneEn :=
  List.foldlRecOn (motive := fun t : State => t.reg R.sysEnrolCounts = s.reg R.sysEnrolCounts ∧
    ∀ p : Plane, t.bit (R.medLaneCfg p) F.medLaneCfg_laneEn = s.bit (R.medLaneCfg p) F.medLaneCfg_laneEn) _ _ ⟨rfl, fun _ => rfl⟩
    fun t ⟨hcounts, hen⟩ q hq =>
      have ⟨hcounts', hen'⟩ := laneAnew_keeps t ⟨q, List.mem_range.1 hq⟩
      ⟨hcounts'.trans hcounts, fun p => (hen' p).trans (hen p)⟩

theorem tAlign_expires (hunder : s.under = 1) (hrun : s.enrol.tAlign = true) :
    ∃ t : State, exec .tAlignExpiry s = .next t ∧ counted s t R.sysEnrolCounts F.sysEnrolCounts_alignTimeouts ∧
      (∀ q : Plane, t.bit (R.medLaneCfg q) F.medLaneCfg_laneEn = s.bit (R.medLaneCfg q) F.medLaneCfg_laneEn) ∧
      ((∀ q : Plane, s.bit (R.medLaneCfg q) F.medLaneCfg_laneEn = false) → t.enrol = s.enrol ∧ memKept s t ∧
        regsKept s t [R.sysEnrolCounts]) := by
  have hexec : exec .tAlignExpiry s = .next (((List.range 24).foldl State.laneAnew s).count R.sysEnrolCounts F.sysEnrolCounts_alignTimeouts) :=
    congrArg Host.Outcome.next (if_pos ⟨hunder, hrun⟩)
  obtain ⟨hcounts, hen⟩ := lanesAnew_keep s
  have hidle : (∀ q : Plane, s.bit (R.medLaneCfg q) F.medLaneCfg_laneEn = false) → (List.range 24).foldl State.laneAnew s = s := fun hoff =>
    foldl_idle fun q hq => if_neg (Bool.eq_false_iff.1 (hoff ⟨q, List.mem_range.1 hq⟩))
  generalize (List.range 24).foldl State.laneAnew s = u at *
  have hcount : ∀ v : State, Changes (fun a _ => a ∈ [R.sysEnrolCounts]) v (v.count R.sysEnrolCounts F.sysEnrolCounts_alignTimeouts) := fun _ =>
    Changes.refl.count (.head _)
  refine ⟨_, hexec, counted_count (u := u) (by rw [State.fld, State.fld, hcounts]) rfl (by decide) (by decide), fun q => ?_, fun hoff => ?_⟩
  · refine (laneEn_congr ((hcount u).reg fun _ h => absurd (List.mem_singleton.1 h) ?_)).trans (hen q)
    simp only [R.medLaneCfg, R.sysEnrolCounts]
    omega
  · rw [hidle hoff]
    exact ⟨count_enrol .., (hcount s).memKept, (hcount s).regsKept⟩

/-! ## The events together -/

/-- Settles O22, event by event: START and STOP, a plane that comes or goes, the ward's status, the timers, the announcing. -/
theorem terminalAndPlaneEvents : Obligations.TerminalAndPlaneEvents := fun _ _ =>
  ⟨fun hstart => ⟨hostStart_listens hstart, hostStart_waits hstart⟩, hostStop_stops, planeAligned_inFrame, planeAlignLost_acquiring,
    wardStatus_fatal, wardStatus_permanent, wardStatus_locked, wardStatus_released, tAlign_expires, tEnrol_expires, tRange_expires,
    planeTHold_expires, fun _ _ => announceBackoff_queues, fun _ => noAnswer_raises⟩

end Sys2Proof.Machine
end
